-- ==== Sys2Proof/Word.lean ====
section
/-!
DEFINITION. Word.lean: the data words of the module. A register is 32 bits wide (R1 of spec/00_scope.md), a byte of a
frame, record or store is 8 bits.
-/

namespace Sys2Proof

/-- One register word (R1). -/
abbrev Word := BitVec 32

/-- One byte of a frame, a record, a slot or a store. -/
abbrev Byte := BitVec 8

end Sys2Proof
end

