-- ==== Sys2Proof/Machine/OperandTypes.lean ====
section
/-!
DEFINITION. Machine/OperandTypes.lean: the types of the operands of the commands, and the small closed sets of names
that both the commands and the state use: statuses, requesters, and what an event outside the block brings.
-/

namespace Sys2Proof.Machine

/-- Statuses of a host window response (Table 2 of spec/15_host_window_protocol.md). -/
inductive Status where
  | ok | auth | range | length | busy | staleEpoch | locked | noimg
  deriving DecidableEq, Repr

/-- Who sends a host window request: the key slot that authenticated it (R378) and the port it came in on
(0 A, 1 B, 2 S). -/
structure Src where
  slot : Fin 32
  port : Fin 3
  deriving DecidableEq, Repr

/-- The read-backs of an NV page program or cell write (R427, R440): whether the first matches what was written, and
whether the second does, which is made only when the first does not. -/
structure ReadBack where
  first : Bool
  second : Bool
  deriving DecidableEq, Repr

/-- Which writer's page program completes (R426, R435, R431, R418). -/
inductive PageWriter where
  /-- the direct window's oldest waiting write, page by page -/
  | direct
  /-- the commanded store of the warm region -/
  | store
  /-- a copy of a region password -/
  | password
  /-- a copy of a key slot's record -/
  | key
  deriving DecidableEq, Repr

/-- What the pair link shows of the partner (R402): whether it is ACTIVE, and the facts that the join checks compare. -/
structure Partner where
  active : Bool
  pairId : BitVec 16
  sideB : Bool
  structHash : List Byte
  settmapCrc : Word
  loopsCrc : Word
  dataSize : Word
  retain : Word
  fabBudget : BitVec 13
  epoch : BitVec 64
  deriving DecidableEq, Repr

/-- A mirror unit as it arrives over the pair link (R398): the sett's epoch and bytes, the program's instance data and
state, the loop states, the output image, each phase's active energy of the lap, and the NV records made since the unit
before it: bytes by warm offset, bytes by NV offset, the epoch tally. -/
structure MirrorUnit where
  epoch : BitVec 64
  sett : List Byte
  progData : List Byte
  progRuns : Bool
  loopStates : List Byte
  outputs : List Byte
  lapEnergy : List Int
  warm : List (Nat × Byte)
  user : List (Nat × Byte)
  epochTally : Word
  deriving DecidableEq, Repr

/-- What the line monitor of an analog input found within a result's window (R259). -/
structure LineMon where
  openWire : Bool
  rev : Bool
  short : Bool
  deriving DecidableEq, Repr

/-- Faults of an analog output (Table 4 of spec/10_field_inputs_outputs.md). -/
inductive AoFault where
  | short | openLoad | rev
  deriving DecidableEq, Repr

/-- Line faults of a digital input (Table 6 of spec/10_field_inputs_outputs.md). -/
inductive DiFault where
  | openLine | short | rev
  deriving DecidableEq, Repr

/-- Faults of a digital output beside its trips (R281). -/
inductive DoFault where
  | openLoad | rev
  deriving DecidableEq, Repr

/-- What the program's code leaves (R236): the analog outputs, digital outputs and OUT variables that it wrote, and the
instance data words that it changed. -/
structure OutImage where
  aouts : List (Fin 16 × Word)
  dos : List (Fin 16 × Bool)
  xvs : List (Fin 4096 × Word)
  data : List (BitVec 20 × Word)
  deriving DecidableEq, Repr, Inhabited

/-- Where an abandoned evaluate phase stood (R236, R242): the instance in progress, and the words of its own data that it
had changed. -/
structure EvalLeft where
  inst : BitVec 12
  words : List (BitVec 20 × Word)
  deriving DecidableEq, Repr

/-- What the program's code reaches that the processor tests (R241): an undefined operation, an instance-data access and
whether it lies outside its own instance's range, an undefined point. -/
inductive TrapKind where
  | undefinedOp
  | dataAccess (outside : Bool)
  | undefinedPoint
  deriving DecidableEq, Repr

/-- What a channel's decimation filter passes of its bit stream for one sample (R287): the ones among a number of bits. -/
structure Density where
  ones : Nat
  bits : Nat
  deriving DecidableEq, Repr

/-- One sample of a phase: its voltage channel and its current channel. -/
structure PhaseSample where
  v : Density
  i : Density
  deriving DecidableEq, Repr

/-- One sample of a feeder: phases L1 to L3. -/
structure FeederSample where
  l1 : PhaseSample
  l2 : PhaseSample
  l3 : PhaseSample
  deriving DecidableEq, Repr

/-- A feeder's samples of a lap, in order. -/
structure FeederLap where
  samples : List FeederSample
  deriving DecidableEq, Repr

/-- Modulator faults (Table 1 of spec/11_plant_metering.md). -/
inductive ModFault where
  | clkfail | stuck | ovl
  deriving DecidableEq, Repr

/-- What a CAN error adds to the error counter of its role under ISO 11898-1: nothing where the standard exempts it, 1,
or 8. -/
inductive CanWeight where
  | none | one | eight
  deriving DecidableEq, Repr

/-- Why SYNC falls on a standby (R401). -/
inductive SyncLoss where
  /-- the last acknowledged unit is more than PAIR_TIMING.STALE laps old -/
  | aged
  /-- an NV record is missing -/
  | gap
  /-- the active module has left the synchronised state and says so on the link -/
  | told
  /-- the images cease to be compatible -/
  | images
  deriving DecidableEq, Repr

/-- A trajectory: primal values by scenario, step and variable (index (scenario × NSTEP + step) × NV1 + variable), in
units of 2^-35 register LSBs, so that every Q-format of R140 and every register encoding is exact; and multipliers. -/
structure Traj where
  x : List Int
  mult : List Int
  deriving DecidableEq, Repr

/-- One of the four measures of R137, in model units: a numerator and a denominator. -/
structure Measure where
  num : Nat
  den : Nat
  deriving DecidableEq, Repr

/-- The measures of an iterate (R137). -/
structure Measures where
  rp : Measure
  rg : Measure
  rd : Measure
  mu : Measure
  deriving DecidableEq, Repr

/-- Where the sequencer stands in an iteration (R134, R157): the sequence state (0 FACTOR, 1 PREDICT, 2 CORRECT, 3 UPDATE), the
wave of the running program, and the last task assigned. -/
structure SeqPos where
  phase : Fin 4
  wave : BitVec 32
  task : BitVec 32
  deriving DecidableEq, Repr

/-- The units that wait for a resource (R52, R59): each with its class and its charge, oldest first; and the position to which the
sequencer has come with SLV's blocks. -/
structure PacerAsk where
  units : List (Fin 12 × BitVec 13)
  pos : Option SeqPos
  deriving DecidableEq, Repr

/-- What an iteration leaves to the durations of its tasks (R157): for each task that begins while every burst lane has had
one of its wave, which of the burst lanes becomes idle first, as a number modulo their count. -/
structure IterRun where
  picks : List Nat
  deriving DecidableEq, Repr

/-- A fabric block as it is received (R184): its 64 data bytes and the CRC-32C in its sideband. -/
structure Block where
  data : List Byte
  crc : Word
  deriving DecidableEq, Repr

/-- Who uses a fabric block (Table 2 of spec/07_fabric_integrity_and_spares.md), and where it belongs. -/
inductive BlockUse where
  /-- solver traffic; the physical bank and line of a factor-memory line -/
  | solver (line : Option (Fin 50 × BitVec 14))
  /-- commit of the present sett: 64 bytes at the offset -/
  | commit (offset : BitVec 21)
  /-- image code or tables in DRAM -/
  | image
  /-- the trajectory history: the entry of a node, so many steps before the cycle start (R112) -/
  | history (back : Fin 17) (node : BitVec 13)
  /-- a host window write or an image load: the command itself carries the drop -/
  | host
  /-- the NV write port -/
  | nvWrite
  /-- the pair link -/
  | pairLink
  /-- a buffer of a CAN channel -/
  | canBuf (ch : Fin 4)
  /-- a buffer of an Ethernet port -/
  | ethBuf (port : Fin 3)
  /-- anything else -/
  | other
  deriving DecidableEq, Repr

/-- What the work of a hurdle found (Table 1 of spec/22_start_up_hurdles.md): whether it succeeded, DETAIL of a failure,
the lanes, banks and lines (bank, line) that H4's tests found failing, and whether H3 found that the backup domain lost
its supply or its crystal stopped. -/
structure HurdleReport where
  ok : Bool
  detail : BitVec 8
  lanes : List (Fin 18)
  banks : List (Fin 50)
  lines : List (Fin 50 × BitVec 14)
  calLost : Bool
  deriving DecidableEq, Repr

/-- The write that a loss of power interrupted, and what it left (R426, R443, R500 and the cells' own rules). A mask says
of each byte of the 256-byte page whether it holds its new value. -/
inductive Torn where
  /-- no write was in progress -/
  | nothing
  /-- the direct window's page program -/
  | userPage (mask : List Bool)
  /-- a page program of a store of the warm region -/
  | storePage (mask : List Bool)
  /-- a write of a warm header -/
  | warmHeader
  /-- a page program of spoor records -/
  | spoorPage (mask : List Bool)
  /-- the write of a key slot's copy -/
  | keyCopy
  /-- the cell write of an increment -/
  | tallyCell (tally : Fin 512)
  /-- the base copy write of an increment's fold -/
  | tallyFold (tally : Fin 512)
  /-- the write of the newest entry of the hurdle ledger -/
  | ledgerEntry
  /-- the write of a repair map copy -/
  | mapCopy
  /-- the write of a periodic metering copy -/
  | meterCopy
  deriving DecidableEq, Repr

end Sys2Proof.Machine
end

