-- ==== Sys2Proof/Syntax.lean ====
section
/-!
DEFINITION. Syntax.lean: the commands of the module, one constructor per row of the opcode table, in its order.
A command that an event brings about carries what the event brings; a command that a register write brings about
carries the requester and the fields written. Docstrings give the row's name and its rule.
-/

namespace Sys2Proof

open Machine

/-- The commands of the module. -/
inductive Instr where
  /-- REGISTER_WRITE (R4). A write to a register field that has no row of its own takes effect under its access code, or is refused. -/
  | registerWrite (src : Src) (addr : Word) (value : Word)
  /-- HWP_REQUEST (R380). A host window request datagram arrives and is judged in the order of the request checks before it is taken up. -/
  | hwpRequest (payload : List Byte) (port : Fin 3) (ip : Word) (udp : BitVec 16)
  /-- READ (R373). The READ operation returns COUNT words from a block window or a sett, with the epoch that served it. -/
  | read (src : Src) (addr : Word) (count : BitVec 16) (sel : BitVec 64)
  /-- EPOCH_LO_READ (R82). A read of SETT_EPOCH_LO latches the HI word into a shadow. -/
  | epochLoRead (src : Src)
  /-- WRITE (R375). The WRITE operation checks every word and then writes consecutive words in request order. -/
  | write (src : Src) (addr : Word) (values : List Word) (drop : Option Nat)
  /-- WRITELIST (R374). The WRITELIST operation checks address and value pairs and writes them all or none. -/
  | writelist (src : Src) (pairs : List (Word × Word)) (drop : Option Nat)
  /-- LOAD (R379). The LOAD operation writes image words into the staging buffer at an offset, judged under R31. -/
  | load (src : Src) (offset : Word) (data : List Word) (drop : Option Nat)
  /-- PUBLISH (R378). The PUBLISH operation seals the named OPEN write set of the requester and returns its target epoch. -/
  | publish (src : Src) (seq : Word)
  /-- OPEN (R33). IMG_LOAD_CTRL.OPEN opens a load into a slot and zeroes the staging buffer. -/
  | imgOpen (src : Src) (slotB : Bool)
  /-- CHECK (R33). IMG_LOAD_CTRL.CHECK starts the image checks of the staged image. -/
  | imgCheck (src : Src)
  /-- CHECK_COMPLETE (R21). The image checks end, report their CODE and FAILSECT, and raise IMG_IRQ.CHECKED. -/
  | checkComplete
  /-- COMMIT (R33). IMG_LOAD_CTRL.COMMIT starts programming the checked image into its slot. -/
  | imgCommit (src : Src)
  /-- COMMIT_COMPLETE (R26). The programming and read-back of a slot end, and the slot is marked VALID. -/
  | commitComplete (readBackOk : Bool)
  /-- ABORT (R34). IMG_LOAD_CTRL.ABORT returns the load to IDLE and discards the staging buffer. -/
  | imgAbort (src : Src)
  /-- ACTIVATE (R37). IMG_ACT_CTRL.ACTIVATE requests activation of a VALID slot at the next sett commit. -/
  | activate (src : Src) (slotB : Bool)
  /-- FLOOR (R30). IMG_ACT_CTRL.FLOOR raises IMG_FLOOR to the SERIAL of the running image. -/
  | floor (src : Src)
  /-- LAP_BOUNDARY (R42). The lap generator ends a lap of 4,096 ticks and LAP_COUNT advances by 1. -/
  | lapBoundary (target : BitVec 25) (meters : List FeederLap)
  /-- MAINS_CROSSING (R535). A positive zero crossing of the lap source input arrives and is judged good or bad. -/
  | mainsCrossing (feeder : Bool) (deviation : BitVec 32) (freq : BitVec 17)
  /-- MISSING_CROSSING (R535). A 30 ms interval without a crossing expires and counts as one bad crossing. -/
  | missingCrossing (feeder : Bool)
  /-- LAP_SRC_WRITE (R536). A write of LAP_SRC_CTRL counts as a write of SEL that is judged at the next lap boundary. -/
  | lapSrcWrite (src : Src) (value : Word)
  /-- FREE_PERIOD_WRITE (R49). A write of LAP_FREE_PERIOD is range-checked and takes effect at the next lap boundary by slew. -/
  | freePeriodWrite (src : Src) (value : Word)
  /-- SLEW_DONE (R48). The generator phase comes within 50 µs of its source, SLEW clears, and SLEWDONE is raised. -/
  | slewDone
  /-- COUNT_LO_READ (R51). A read of LAP_COUNT_LO latches LAP_COUNT_HI into a shadow. -/
  | countLoRead (src : Src)
  /-- PACER_GRANT (R60). A pending unit of a class is granted a shared resource in rank order. -/
  | pacerGrant (resource : Fin 4) (pending : PacerAsk)
  /-- BATON_GRANT (R66). The governor grants a waiting baton request when enough batons are free, in effective priority order. -/
  | batonGrant
  /-- BATON_AGE (R65). A whole lap of waiting completes and raises the effective priority of a waiting request. -/
  | batonAge (who : Fin 6)
  /-- BATON_WAIT_TIMEOUT (R67). A solver grant that has not come within 64 ticks makes the burst run with 4 lanes. -/
  | batonWaitTimeout
  /-- SETT_READABLE (R73). A committed sett becomes readable within 64 ticks of its boundary. -/
  | settReadable
  /-- EPOCH_TALLY_RAISE (R94). The low 20 bits of the epoch reach 0xF_0000 and the epoch tally is raised. -/
  | epochTallyRaise
  /-- WS_OPEN (R84). SETT_WS_CTRL.OPEN opens a write set owned by the requester. -/
  | wsOpen (src : Src)
  /-- SEAL (R89). SETT_WS_CTRL.SEAL seals the open set and fixes its target boundary. -/
  | seal (src : Src)
  /-- WS_ABORT (R91). SETT_WS_CTRL.ABORT discards the write set with result ABORTED. -/
  | wsAbort (src : Src)
  /-- WS_TIMEOUT (R91). A set still OPEN after SETT_WS_TIMEOUT laps is discarded with TIMEOUT. -/
  | wsTimeout
  /-- CYCLE_START (R100). A dispatch cycle starts at a boundary from the values of that sett. -/
  | cycleStart
  /-- GRID_POINT (R106). A step grid point is taken at a lap boundary from PTP time or by lap count. -/
  | gridPoint
  /-- MEAS_WRITE (R114). A write of DSP_MEAS_u sets its stamp to LAP_COUNT. -/
  | measWrite (src : Src) (unit : Option (Fin 64)) (value : Word)
  /-- ASSEMBLY_DONE (R147). Assembly of the KKT system ends and the first iteration begins. `further`: of the values that saturate
  after the first, how many are still converted before the solve ends. -/
  | assemblyDone (further : BitVec 32)
  /-- ITERATION (R134). An interior point iteration completes its factorisation, solves and update, and is judged. -/
  | iteration (run : IterRun)
  /-- BURST_WIDEN (R160). After a late grant, the burst widens to its planned lanes at the next wave boundary. -/
  | burstWiden
  /-- DEADLINE (R169). At the deadline boundary, one result is chosen by status and published. -/
  | deadline
  /-- BLOCK_RECEIVE (R185). A fabric block is received, its CRC checked, and a re-send asked for on a mismatch. -/
  | blockReceive (path : Fin 5) (cls : Fin 12) (lane : Option (Fin 18)) (use : BlockUse) (got : List Block)
  /-- LANE_CHECK (R199). Every FAB_LCHK.LAPS laps, one physical lane is checked. -/
  | laneCheck (ok : Bool)
  /-- SCRUB_SEGMENT (R197). Every FAB_SCRUB_CTRL.LAPS laps, one factor-memory segment is pattern-tested. -/
  | scrubSegment (bad : List (BitVec 12))
  /-- MAP_WRITE (R195). A repair map copy write completes its verification, and the new map comes into use. -/
  | mapWrite (rb : ReadBack)
  /-- DRAM_SCRUB (R200). The DRAM scrub reads the image and map copies line by line. -/
  | dramScrub (got : List Block)
  /-- DRAM_RETRAIN (R201). After 4 DRAM drops within 256 laps, the DRAM link is retrained in an idle lap. -/
  | dramRetrain
  /-- LOOP_SAMPLE (R211). A loop sample instant arrives by tick congruence or ADC data-ready, and the loop is evaluated. -/
  | loopSample (loop : Fin 64) (busy : Bool) (delay : BitVec 16)
  /-- RUN (R216). A write of LOOP_n_CTRL.RUN starts or stops a loop. -/
  | loopRun (src : Src) (loop : Fin 64) (on : Bool)
  /-- SWAP (R223). LOOP_n_CTRL.SWAP requests a coefficient bank swap. -/
  | loopSwap (src : Src) (loop : Fin 64) (on : Bool)
  /-- RESET (R216). LOOP_n_CTRL.RESET restarts the loop's states at its next sample. -/
  | loopReset (src : Src) (loop : Fin 64) (on : Bool)
  /-- COEF_WRITE (R222). A coefficient word write is refused for the bank in force, and taken otherwise. -/
  | coefWrite (src : Src) (loop : Fin 64) (bank : Fin 2) (stage : Fin 8) (k : Fin 6) (value : Word)
  /-- FBP_CYCLE_START (R234). A program cycle starts at a lap boundary with its latch phase. -/
  | fbpCycleStart
  /-- APPLY (R237). The evaluate phase ends and the output image becomes visible at the apply instant. Where in the present tick it
  does: `executed`, the program has executed in the tick (R230); `timedOut`, the point of the tick at which batons were asked for has
  passed (R238). -/
  | fbpApply (executed timedOut : Bool)
  /-- WATCHDOG (R240). At the watchdog instant, an overrunning cycle stops the program with cause WDOG. -/
  | fbpWatchdog (left : EvalLeft)
  /-- TRAP (R241). The program processor hits an undefined operation or access and stops with cause TRAP. -/
  | fbpTrap (inst : BitVec 12) (kind : TrapKind) (left : List (BitVec 20 × Word))
  /-- STOP (R242). FBP_CTRL.STOP stops the program at once with cause COMMAND. -/
  | fbpStop (src : Src) (left : EvalLeft)
  /-- RESTART (R244). FBP_CTRL.RESTART, warm or cold, puts the program in RUNNING at the next boundary. -/
  | fbpRestart (src : Src) (cold : Bool)
  /-- FORCE_SET (R248). FBP_FORCE_CMD SET forces a point to its forced value. -/
  | forceSet (src : Src) (point : BitVec 11)
  /-- FORCE_CLR (R248). FBP_FORCE_CMD CLR releases a forced point. -/
  | forceClr (src : Src) (point : BitVec 11)
  /-- CLRALL (R248). FBP_FORCE_CTRL.CLRALL releases every forced point. -/
  | clrall (src : Src)
  /-- FORCE_VALUE_WRITE (R248). A write of FBP_FORCE_c_n changes the forced value of a forced point within 1 tick. -/
  | forceValueWrite (src : Src) (cls : Fin 5) (n : Fin 32) (value : Word)
  /-- XV_WRITE (R233). A firmware write of an exchange variable is taken for IN and refused with LOCKED for OUT. -/
  | xvWrite (src : Src) (k : Fin 4096) (value : Word)
  /-- AIN_RESULT (R256). A conversion result completes and is written with its flags, and data-ready is signalled. -/
  | ainResult (ch : Fin 32) (code : BitVec 24) (overload : Bool) (line : LineMon)
  /-- REF_CHECK (R263). Every 1 ms, a bank's reference is checked for settling or failure. -/
  | refCheck (bank : Fin 4) (uv : BitVec 32)
  /-- CAL_ROUND (R265). A background calibration step starts every AIN_CAL_CTRL.LAPS laps. -/
  | calRound (bank : Fin 4) (ofs : BitVec 24) (gain : BitVec 32)
  /-- CAL_STEP_END (R266). A calibration step ends and its channel returns to its own slice with new coefficients. -/
  | calStepEnd (bank : Fin 4) (ofs : BitVec 24) (gain : BitVec 32) (diff : BitVec 24)
  /-- AOUT_SET_WRITE (R273). A write of AOUT_n_SET drives a firmware output or is refused with LOCKED. -/
  | aoutSetWrite (src : Src) (ch : Fin 16) (value : Word)
  /-- AOUT_READBACK (R275). Every 1 ms, the output readback is taken and compared with the set value. -/
  | aoutReadback (ch : Fin 16) (value : BitVec 16)
  /-- AOUT_FAULT (R276). A SHORT, OPEN or REV condition of an analog output begins after persisting. -/
  | aoutFault (ch : Fin 16) (kind : AoFault) (present : Bool)
  /-- DI_CHANGE (R279). A digital input level is accepted after its filter time and counted as an edge. -/
  | diChange (ch : Fin 32) (level : Bool) (ua : BitVec 16)
  /-- DI_FAULT (R278). An input OPEN, SHORT or REV fault that persists 1 ms sets its flag and is recorded. -/
  | diFault (ch : Fin 32) (kind : DiFault) (present : Bool) (ua : BitVec 16)
  /-- DO_TRIP (R280). A digital output overcurrent switches the output off and sets SHORT. -/
  | doTrip (ch : Fin 16) (tooMuch : Bool) (ma : BitVec 16)
  /-- DO_RETRY (R280). After DIO_DO_RETRY.MS, a tripped output is switched on again. -/
  | doRetry (ch : Fin 16)
  /-- DO_FAULT (R281). A digital output OPEN or REV condition begins after 10 ms. -/
  | doFault (ch : Fin 16) (kind : DoFault) (present : Bool) (ma : BitVec 16)
  /-- CLRFAULT (R280). DIO_DO_n_CTRL.CLRFAULT clears LATCHED and the try count. -/
  | clrfault (src : Src) (ch : Fin 16) (on : Bool)
  /-- DO_SET_WRITE (R282). A write of DIO_DO_SET drives firmware outputs, or is refused for other drivers. -/
  | doSetWrite (src : Src) (value : Word)
  /-- FIELD_SUPPLY_CHECK (R283). Every 1 ms, the field supply is measured, and low or reversed supply switches outputs off. -/
  | fieldSupplyCheck (mv : BitVec 16) (rev : Bool)
  /-- FIELD_SUPPLY_RETURN (R283). After the supply has stood 100 ms at 19.2 V or more, the outputs return. -/
  | fieldSupplyReturn
  /-- MOD_FAULT (R289). A modulator CLKFAIL, STUCK or OVL begins and is flagged, counted and recorded. -/
  | modFault (feeder : Fin 4) (ch : Fin 6) (kind : ModFault) (present : Bool)
  /-- HARMONIC_WINDOW (R296). A window of 10 or 12 periods ends and frequency, harmonics and THD are written. -/
  | harmonicWindow (feeder : Fin 4) (freq : BitVec 32) (bins : List (List Nat))
  /-- SNAP (R303). MTR_SNAP_CTRL.SNAP requests an energy snapshot at the next commit. -/
  | snap (src : Src) (on : Bool)
  /-- NVSAVE (R307). Every MTR_NVSAVE.LAPS laps, a periodic metering copy is written and verified. -/
  | nvsave (ok : Bool)
  /-- MTR_LO_READ (R302). A read of the LO word of a 64-bit MTR register latches its HI word. -/
  | mtrLoRead (src : Src) (addr : Word)
  /-- CAN_FRAME_RECEIVE (R320). A CAN frame received without error is filtered and appended to a queue. -/
  | canFrameReceive (ch : Fin 4) (id : Word) (fmt : Word) (stamp : Word) (data : List Byte) (crcOk : Bool) (staged : Fin 9)
  /-- CAN_ERROR (R312). A protocol error on the bus updates the error counters and error state. -/
  | canError (ch : Fin 4) (kind : Fin 8) (dataPhase tx : Bool) (weight : CanWeight)
  /-- POP (R322). A write of CANn_RXQ_q_POP with the head's SEQ removes the head entry. -/
  | pop (src : Src) (ch : Fin 4) (queue : Fin 2) (value : Word)
  /-- CAN_MODE_WRITE (R316). A write of CANn_CTRL.MODE requests a new channel mode. -/
  | canModeWrite (src : Src) (ch : Fin 4) (value : Word)
  /-- CAN_MODE_CHANGE (R316). At the next bus idle, the requested mode takes effect. -/
  | canModeChange (ch : Fin 4)
  /-- BIT_TIMING_WRITE (R314). A write of NBT, DBT or TDC is checked for range and CONFIG mode. -/
  | bitTimingWrite (src : Src) (ch : Fin 4) (which : Fin 3) (value : Word)
  /-- RECOVER (R313). CANn_CTRL.RECOVER starts the bus-off recovery sequence. -/
  | recover (src : Src) (ch : Fin 4)
  /-- BUSOFF_RECOVERY_END (R313). The recovery sequence ends and the channel enters ERROR_ACTIVE. -/
  | busoffRecoveryEnd (ch : Fin 4)
  /-- LINE_FAULT (R332). A bus line fault begins and the channel enters LINEFAULT. -/
  | lineFault (ch : Fin 4) (kind : Fin 5) (present : Bool)
  /-- LINEFAULT_END (R333). After 100 ms without a fault, the channel integrates and resumes. -/
  | linefaultEnd (ch : Fin 4)
  /-- RESUME (R333). CANn_CTRL.RESUME lets a channel held by LFHOLD leave LINEFAULT. -/
  | resume (src : Src) (ch : Fin 4)
  /-- TX_READY (R324). A write that sets READY of a transmit buffer requests transmission. -/
  | txReady (src : Src) (ch : Fin 4) (buf : Fin 32)
  /-- TX_ABORT (R326). A write of ABORT of a transmit buffer ends its request with FAILED. -/
  | txAbort (src : Src) (ch : Fin 4) (buf : Fin 32)
  /-- TX_START (R325). Before a start of frame, the lowest identifier among the ready buffers is offered. -/
  | txStart (ch : Fin 4)
  /-- TX_END (R326). A transmit request ends with DONE or FAILED and raises TXDONE. -/
  | txEnd (ch : Fin 4) (ok : Bool) (stamp : Word) (tdcv : BitVec 8) (vdom : BitVec 16)
  /-- ETH_FRAME (R337). An Ethernet frame addressed to the module arrives, subject to the per-lap limit. -/
  | ethFrame (port : Fin 3) (good : Bool)
  /-- STATUS_TELEGRAM (R345). A status telegram is checked and accepted into the status table. -/
  | statusTelegram (port : Fin 3) (ip : Word) (payload : List Byte)
  /-- ARP_FRAME (R335). An ARP frame updates the port's ARP table or is answered. -/
  | arpFrame (port : Fin 3) (isReq : Bool) (sip : Word) (smac : BitVec 48) (tip : Word)
  /-- ICMP_ECHO (R335). An ICMP echo request is answered with an echo reply. -/
  | icmpEcho (port : Fin 3) (ip : Word) (payload : List Byte)
  /-- LINK_CHANGE (R335). An Ethernet port link goes up or down. -/
  | linkChange (port : Fin 3) (up gig : Bool)
  /-- SUBRESET (R347). A write of ETH_SUBRESET forgets a substation's last accepted SEQ. -/
  | subreset (src : Src) (value : Word)
  /-- ANNOUNCE (R359). A PTP Announce is received and the best master clock algorithm runs. -/
  | announce (port : Fin 3) (payload : List Byte)
  /-- SYNC (R358). A PTP Sync from the selected master yields an offset sample. -/
  | sync (port : Fin 3) (payload : List Byte) (within : BitVec 20)
  /-- FOLLOW_UP (R358). A PTP Follow_Up supplies the precise origin timestamp of a two-step Sync. -/
  | followUp (port : Fin 3) (payload : List Byte)
  /-- DELAY_RESP (R358). A PTP Delay_Resp yields a path delay sample. -/
  | delayResp (port : Fin 3) (payload : List Byte)
  /-- DELAY_REQ (R357). At a random interval, a one-step Delay_Req is sent and stamped. -/
  | delayReq (domain : Fin 2) (within : BitVec 20)
  /-- ANNOUNCE_TIMEOUT (R359). No Announce for ANNTO intervals makes the domain lose QUALIFIED. -/
  | announceTimeout (domain : Fin 2)
  /-- SYNC_TIMEOUT (R359). No Sync for SYNCTO intervals makes the domain lose QUALIFIED. -/
  | syncTimeout (domain : Fin 2)
  /-- RAMP_END (R362). RAMP reaches 0 and the ramp term returns to 0. -/
  | rampEnd
  /-- REVERT (R365). After PTP_REVERT seconds of qualification, PREF becomes leading by a ramp. -/
  | revertLead
  /-- HOLD_EXPIRE (R366). PTP_HOLD seconds in HOLDOVER pass and LOCK clears. -/
  | holdExpire
  /-- REACQ (R360). PTP_CTRL.REACQ puts the clock in ACQUIRE. -/
  | reacq (src : Src)
  /-- PTP_EN (R360). A write of PTP_CTRL.EN enters FREE or ACQUIRE. -/
  | ptpEn (src : Src) (on : Bool)
  /-- FREERUN (R360). A write of PTP_CTRL.FREERUN enters FREE or ACQUIRE. -/
  | freerun (src : Src) (on : Bool)
  /-- PTP_STEP (R367). PTP_CTRL.STEP adds PTP_STEP to the clock in state FREE. -/
  | ptpStep (src : Src)
  /-- RATE_WRITE (R367). A write of PTP_RATE sets the clock rate in FREE, or is refused with LOCKED. -/
  | rateWrite (src : Src) (value : Word)
  /-- DOM_CFG_WRITE (R368). A write of PTP_DOM_d_CFG is checked for duplicates, port S and the leading domain. -/
  | domCfgWrite (src : Src) (domain : Fin 2) (value : Word)
  /-- NOW_READ (R355). A read of PTP_NOW_NS captures the whole clock for the following reads. -/
  | nowRead (src : Src)
  /-- INTLK_IN_CHANGE (R387). The INTLK_IN level changes and DRIVE is recomputed in hardware. -/
  | intlkInChange (level : Bool)
  /-- GRANT_IN_CHANGE (R387). The GRANT_IN level changes and CLAIM and DRIVE are recomputed. -/
  | grantInChange (level : Bool)
  /-- GRANT_MESSAGE (R392). A grant message from the Owl is checked and accepted or dropped. -/
  | grantMessage (port : Fin 3) (payload : List Byte)
  /-- OWL_LOST (R392). 250 laps without an accepted grant message set OWLLOST. -/
  | owlLost
  /-- HEARTBEAT (R391). Every HB laps, a member sends a heartbeat to the Owl. -/
  | heartbeat
  /-- TAKE_ACTIVE (R404). At a boundary with a fresh grant, the module enters ACTIVE and loads the mirrored state. -/
  | takeActive
  /-- LEAVE_ACTIVE (R395). After GRANT_IN falls or the other side is granted, the module leaves ACTIVE. -/
  | leaveActive
  /-- JOIN (R402). PAIR_CTRL.JOIN begins a join in OUT. -/
  | join (src : Src) (partner : Option Partner)
  /-- AUTOJOIN (R402). With AUTOJOIN, a module in OUT begins a join when the link shows an active partner. -/
  | autojoin (partner : Partner)
  /-- HANDOVER (R391). PAIR_CTRL.HANDOVER sets HANDOVER in the heartbeats. -/
  | handover (src : Src) (on : Bool)
  /-- BULK_DONE (R403). The bulk copy of the warm and mirrored NV content ends and JOINPHASE becomes UNITS. -/
  | bulkDone (warm user : List (Nat × Byte)) (epochTally : Word)
  /-- MIRROR_UNIT (R400). A mirror unit arrives whole and is verified, stored and acknowledged, or discarded. -/
  | mirrorUnit (unit : MirrorUnit) (whole macOk : Bool) (late : BitVec 8)
  /-- DISPATCH_STATE (R399). A whole dispatch state arrives at the standby and comes into force. -/
  | dispatchState (whole : Bool) (accepted : Option Traj) (toStart : Option Nat) (header setpoints : List Byte) (streams : List (List Word))
  /-- LINK_TIMEOUT (R401). No valid link block for LINKTO laps clears LINK. -/
  | linkTimeout (expired : Bool)
  /-- SYNC_LOSS (R401). SYNC falls on a standby when its unit ages past STALE or a record is missing. -/
  | syncLoss (cause : SyncLoss)
  /-- WITNESS_HEARTBEAT (R397). A witness accepts a member heartbeat. -/
  | witnessHeartbeat (port : Fin 3) (payload : List Byte)
  /-- GRANT_MOVE (R397). A witness moves the grant after a heartbeat timeout or HANDOVER. -/
  | grantMove
  /-- GRANT_ASSERT (R390). After both grant lines have been low for 5 ms, the new grant line is asserted. -/
  | grantAssert
  /-- MOVE (R397). PAIR_WIT_CTRL.MOVE makes the witness move the grant. -/
  | move (src : Src)
  /-- UPD_BUF_WRITE (R416). A write of KEY_UPD_BUF_w is refused while an update is BUSY. -/
  | updBufWrite (src : Src) (w : Fin 32) (value : Word)
  /-- EXEC (R416). KEY_UPD_CTRL.EXEC copies the buffered key-update message and judges it. -/
  | keyExec (src : Src) (on : Bool)
  /-- KEY_UPDATE_DONE (R418). The tally increment and slot copy writes of a key update complete and are verified. -/
  | keyUpdateDone (rb : ReadBack)
  /-- CHALLENGE (R421). A challenge datagram is answered with a CMAC over C and the UID. -/
  | challenge (port : Fin 3) (ip : Word) (udp : BitVec 16) (payload : List Byte)
  /-- PAGE_PROGRAM (R426). An NV page program completes with its read-back. -/
  | pageProgram (writer : PageWriter) (rb : ReadBack)
  /-- UNLOCK (R429). NVS_UNLOCK_CTRL grants a read or write unlock of a region for the right password. -/
  | unlock (src : Src) (region : BitVec 3) (isWrite : Bool)
  /-- PW_LOCKOUT_END (R430). 256 laps after the eighth wrong attempt, unlocks of the region are allowed again. -/
  | pwLockoutEnd (region : BitVec 3)
  /-- PWSET (R431). NVS_PWSET_CTRL sets or clears a region password. -/
  | pwset (src : Src) (region : BitVec 3) (isWrite clear : Bool)
  /-- LOCK (R429). NVS_CTRL.LOCK drops every unlock that the requester holds. -/
  | nvLock (src : Src)
  /-- STORE (R435). NVS_CTRL.STORE starts a commanded store of the warm region. -/
  | nvStore (src : Src)
  /-- STORE_DONE (R435). A commanded store ends and raises STOREDONE. -/
  | storeDone (rb : ReadBack)
  /-- CRYPT_WRITE (R432). A write that changes NVS_RGN_r_CFG.CRYPT clears the region to read as 0x00. -/
  | cryptWrite (src : Src) (region : BitVec 3) (on : Bool)
  /-- INC (R440). NVS_TALLY_CTRL.INC requests a firmware tally increment. -/
  | tallyInc (src : Src)
  /-- INCREMENT_DONE (R440). A tally cell write and read-back complete, and V is updated or the increment fails. -/
  | incrementDone (tally : Fin 512) (rb : ReadBack) (fold : ReadBack)
  /-- RTC_LOAD (R448). RTC_CTRL.LOAD judges the staged date and time and loads it at one crystal edge. -/
  | rtcLoad (src : Src)
  /-- DSTFWD (R450). RTC_CTRL.DSTFWD adds 1 h and sets DST. -/
  | dstfwd (src : Src)
  /-- DSTBACK (R450). RTC_CTRL.DSTBACK subtracts 1 h and clears DST. -/
  | dstback (src : Src)
  /-- RELEASE (R453). RTC_CTRL.RELEASE ends the requester's freeze. -/
  | rtcRelease (src : Src)
  /-- SECOND_CARRY (R445). RTC_SUBSEC overflows and the calendar advances by one second. -/
  | secondCarry
  /-- RTC_READ (R452). A read of RTC_TIME, DATE or SUBSEC captures or returns the requester's shadow. -/
  | rtcRead (src : Src) (addr : Word)
  /-- FREEZE_TIMEOUT (R453). 1 s after it began, a freeze ends and SHADOWTO is set. -/
  | freezeTimeout (slot : Fin 32)
  /-- PTP_HOUR_SET (R455). At a UTC hour boundary, the calendar is loaded from PTP time when it differs by 1 s. -/
  | ptpHourSet
  /-- TRIM_WINDOW (R458). A trim window ends and CAL is set from the measurement, or the window is discarded. -/
  | trimWindow (n : BitVec 32)
  /-- TRIM_WRITE (R459). A write of RTC_TRIM_CTRL is checked and starts a new window. -/
  | trimWrite (src : Src) (value : Word)
  /-- WAKE (R460). The periodic wake period expires and raises a wake. -/
  | wake
  /-- BOOST (R463). RTC_CHG.BOOST starts a constant-current charge of a capacitor. -/
  | boost (src : Src)
  /-- BOOST_END (R463). VBAT reaches 3.20 V and the boost ends. -/
  | boostEnd (done : Bool)
  /-- BAT_CHECK (R462). Every 1 s, VBAT is measured and BATLOW judged. -/
  | batCheck (mv : BitVec 16)
  /-- SPOOR_PROGRAM (R470). A page of spoor records is programmed, or a merged record is reprogrammed. -/
  | spoorProgram (reprogram : Bool) (rb : ReadBack)
  /-- RATE_WINDOW_END (R471). A rate-limit window ends and an SPR_RATESUM record is appended when occurrences were suppressed. -/
  | rateWindowEnd (entry : Fin 16)
  /-- OPSEC_TICK (R472). SPR_OPSEC counts one second of operation. -/
  | opsecTick
  /-- POST (R476). SPR_FW_CTRL.POST appends a firmware record. -/
  | post (src : Src) (sev : BitVec 3)
  /-- MINW_END (R485). The MINW interval expires and the pin leaves phase MIN. -/
  | minwEnd
  /-- ASSERT (R487). ZID_FAULT_CTRL.ASSERT is a trigger recorded with SOURCE 0. -/
  | faultAssert (src : Src) (hold : Bool)
  /-- HOLD_WRITE (R486). A write of ZID_FAULT_CTRL.HOLD keeps or releases the pin low after MIN. -/
  | holdWrite (src : Src) (hold : Bool)
  /-- PIN_READBACK (R488). Every 1 ms, the driven-high pin is read back and PINERR judged. -/
  | pinReadback (level : Bool)
  /-- LEDTEST (R489). ZID_CTRL.LEDTEST lights all four LEDs. -/
  | ledtest (src : Src) (injen : Bool)
  /-- LEDTEST_END (R489). After 2 s, the LEDs return to their states. -/
  | ledtestEnd
  /-- INJEN_WRITE (R482). A write of ZID_CTRL.INJEN enables injection, or with 0 clears every pending INJ bit. -/
  | injenWrite (src : Src) (injen : Bool)
  /-- POWER_UP (R491). The bulk voltage has stood at 110 V for 100 ms and a start begins with H0. -/
  | powerUp (vbulk : BitVec 16) (sub : BitVec 15)
  /-- HURDLE_END (R495). A hurdle ends with its result recorded in the ledger, and the next begins. -/
  | hurdleEnd (report : HurdleReport)
  /-- HURDLE_TIMEOUT (R495). A hurdle exceeds its limit and fails with TIMEOUT. -/
  | hurdleTimeout (detail : BitVec 8)
  /-- SELF_RESET (R497). 1 s after a critical hurdle fails, the module resets and starts again. -/
  | selfReset
  /-- WAYCLR (R501). BOOT_CTRL.WAYCLR sets the way of named hurdles to NORMAL. -/
  | wayclr (src : Src) (hurdles : BitVec 16)
  /-- BOOT_RESTART (R497). BOOT_CTRL.RESTART resets a halted module and starts again. -/
  | bootRestart (src : Src)
  /-- IMG_BOOT_WRITE (R501). A write of IMG_BOOT sets the start slot and the way of H9 to NORMAL. -/
  | imgBootWrite (src : Src) (slotB : Bool)
  /-- POWER_FAIL (R502). The bulk voltage stays below 95 V for 100 µs, and the shutdown sequence begins. -/
  | powerFail (below : Bool) (vbulk : BitVec 16) (laps : List FeederLap) (ns : BitVec 25)
  /-- DIP (R502). The bulk voltage below 120 V for 100 µs without detection counts a dip. -/
  | dip (vbulk : BitVec 16)
  /-- SHUTDOWN_DONE (R503). The shutdown writes end, the duration is stored, and the module is held in reset. -/
  | shutdownDone (tenths : BitVec 16)
  /-- MIRROR_ACKNOWLEDGE (R96). The active module receives the standby's acknowledgement of a mirrored epoch over the pair link and records it for the synchronised-state test of its next commit. -/
  | mirrorAcknowledge (epoch : BitVec 64) (sync : Bool)
  /-- LOSS_OF_POWER (R443). The internal supplies fall out of regulation and every operation in progress, such as a cell write, page program, commit or store, stops where it stands. -/
  | lossOfPower (torn : Torn)
  /-- BUS_INTEGRATION (R316). A CAN channel in INTEGRATING observes 11 consecutive recessive bits and begins taking part in the bus in its error state. -/
  | busIntegration (ch : Fin 4)
  /-- RAW_EDGE (R279). A raw edge arrives at a digital input, starts its filter time, and sets RATE when it follows the previous raw edge by less than 20 µs. -/
  | rawEdge (ch : Fin 32) (close : Bool)
  /-- ARP_REFRESH (R335). An ARP table entry reaches its refresh age of at most 300 s and the port refreshes it. -/
  | arpRefresh (port : Fin 3) (ip : Word)
  /-- SPOOR_SCAN_DONE (R473). The start scan of the spoor ring finds the newest record, after which the SPR_START record and the queued events are appended. -/
  | spoorScanDone
  /-- DI_FAULT_END (R278). The OPEN, SHORT or REV condition of a digital input ends, and DIO_DI_VALID and LINEOK return to 1. -/
  | diFaultEnd (ch : Fin 32)
  /-- AOUT_FAULT_END (R276). The SHORT, OPEN or REV condition of an analog output ends and its NOW bit clears. -/
  | aoutFaultEnd (ch : Fin 16) (kind : AoFault)
  deriving DecidableEq, Repr

end Sys2Proof
end

