-- ==== Sys2Proof/Decode.lean ====
section
/-!
DEFINITION. Decode.lean: the command that a word spells. The command table of the spec gives no row any bits, so no word
spells a command.
-/

namespace Sys2Proof

/-- The command spelled by a word of `nbits` bits: none. -/
def decodeTableWord (_nbits _w : Nat) : Option Instr := none

end Sys2Proof
end

