-- ==== Sys2Proof/Machine/Bits.lean ====
section
/-!
DEFINITION. Machine/Bits.lean: fields of a word, signed readings, little-endian byte order (R1 and R2 of
spec/00_scope.md), saturating counters (R481) and fixed-width integers: the helpers the meanings share.
-/

namespace Sys2Proof.Machine

/-- Bits `lo + n - 1 : lo` of a word, as a number. -/
def bitsOf (w : Word) (lo n : Nat) : Nat := (w.toNat >>> lo) % 2 ^ n

/-- Bit `i` of a word. -/
def bitOf (w : Word) (i : Nat) : Bool := w.getLsbD i

/-- A word with ones in bits `lo + n - 1 : lo`. -/
def maskOf (lo n : Nat) : Word := BitVec.ofNat 32 ((2 ^ n - 1) <<< lo)

/-- The word with bits `lo + n - 1 : lo` replaced by the low `n` bits of `v`. -/
def putBits (w : Word) (lo n v : Nat) : Word :=
  (w &&& ~~~ maskOf lo n) ||| BitVec.ofNat 32 ((v % 2 ^ n) <<< lo)

/-- The word with bit `i` set to `b`. -/
def putBit (w : Word) (i : Nat) (b : Bool) : Word := putBits w i 1 b.toNat

/-- The two's complement reading of the low `n` bits of a number. -/
def signedOf (n : Nat) (v : Nat) : Int :=
  if v % 2 ^ n < 2 ^ (n - 1) then (v % 2 ^ n : Nat) else ((v % 2 ^ n : Nat) : Int) - (2 ^ n : Nat)

/-- The `n`-bit two's complement encoding of an integer, as a number. -/
def wrapInt (n : Nat) (v : Int) : Nat := (v % ((2 ^ n : Nat) : Int)).toNat

/-- The word that encodes an integer modulo 2^32. -/
def wordOfInt (v : Int) : Word := BitVec.ofNat 32 (wrapInt 32 v)

/-- The word that encodes an integer saturated to the signed 32-bit range. -/
def satWord (v : Int) : Word :=
  if v > 0x7FFFFFFF then 0x7FFFFFFF#32 else if v < -0x80000000 then 0x80000000#32 else wordOfInt v

/-- A number saturated to `n` unsigned bits. -/
def satNat (n v : Nat) : Nat := if v < 2 ^ n then v else 2 ^ n - 1

/-- The word that encodes a natural number saturated at 0xFFFF_FFFF. -/
def satWordN (v : Nat) : Word := BitVec.ofNat 32 (satNat 32 v)

/-- An integer limited to `[lo, hi]`. -/
def clampInt (lo hi v : Int) : Int := if v < lo then lo else if v > hi then hi else v

/-- Byte `i` of a number, byte 0 the least significant. -/
def byteAt (v i : Nat) : Byte := BitVec.ofNat 8 (v >>> (8 * i))

/-- The `n` little-endian bytes of a number (R2). -/
def leBytes (n v : Nat) : List Byte := (List.range n).map (byteAt v)

/-- The `n` big-endian bytes of a number (fields of published standards, R2). -/
def beBytes (n v : Nat) : List Byte := (leBytes n v).reverse

/-- The number that a little-endian list of bytes holds (R2). -/
def leNat : List Byte → Nat
  | [] => 0
  | b :: t => b.toNat + 256 * leNat t

/-- The number that a big-endian list of bytes holds. -/
def beNat (l : List Byte) : Nat := leNat l.reverse

/-- `n` bytes of an indexed byte source from offset `o`. -/
def bytesAt (f : Nat → Byte) (o n : Nat) : List Byte := (List.range n).map (fun i => f (o + i))

/-- The little-endian number of `n` bytes at offset `o`. -/
def leAt (f : Nat → Byte) (o n : Nat) : Nat := leNat (bytesAt f o n)

/-- Divide and round toward zero. -/
def divZero (a b : Int) : Int := a.tdiv b

/-- Divide, rounding to the nearest integer, halves away from zero. -/
def divRound (a : Int) (b : Int) : Int :=
  if b = 0 then 0 else
    let q := (2 * a.natAbs + b.natAbs) / (2 * b.natAbs)
    if (a < 0) = (b < 0) then (q : Int) else -(q : Int)

/-- Divide and round up. -/
def ceilDiv (a b : Nat) : Nat := (a + b - 1) / b

/-- The list of words of a byte list, four bytes a word, byte 0 in bits 7:0 (R1). -/
def wordsOfBytes : List Byte → List Word
  | a :: b :: c :: d :: t => BitVec.ofNat 32 (leNat [a, b, c, d]) :: wordsOfBytes t
  | _ => []

/-- The bytes of a list of words, the lowest byte of each word first. -/
def bytesOfWords (l : List Word) : List Byte := l.flatMap (fun w => leBytes 4 w.toNat)

end Sys2Proof.Machine
end

