-- ==== Sys2Proof/Machine/Crypto.lean ====
section
/-!
DEFINITION. Machine/Crypto.lean: the check values and the cryptography the spec names: CRC-32C and the CRC-32 of
IEEE 802.3 (R466), SHA-256 and HMAC-SHA-256 (R18, R19), AES-128 and AES-256 with CMAC (R372), counter and XTS modes
(R432), and ECDSA over P-256 (R18). The algorithms are those of the published standards the spec cites; PRESUMED, log
entry 4.
-/

namespace Sys2Proof.Machine

/-! ## Check values -/

/-- One bit of a reflected 32-bit CRC. -/
def crcBit (poly : Word) (c : Word) : Word := if c.getLsbD 0 then (c >>> 1) ^^^ poly else c >>> 1

/-- One byte of a reflected 32-bit CRC. -/
def crcByte (poly : Word) (c : Word) (b : Byte) : Word :=
  let x := c ^^^ b.zeroExtend 32
  crcBit poly (crcBit poly (crcBit poly (crcBit poly (crcBit poly (crcBit poly (crcBit poly (crcBit poly x)))))))

/-- A reflected 32-bit CRC with initial value and final exclusive-or 0xFFFF_FFFF. -/
def crcOf (poly : Word) (l : List Byte) : Word := (l.foldl (crcByte poly) 0xFFFFFFFF#32) ^^^ 0xFFFFFFFF#32

/-- CRC-32C (Castagnoli, reflected polynomial 0x82F6_3B78). -/
def crc32c (l : List Byte) : Word := crcOf 0x82F63B78#32 l

/-- CRC-32 of IEEE 802.3 (R466): polynomial 0x04C1_1DB7 in reflected form, which is 0xEDB8_8320. -/
def crc32 (l : List Byte) : Word := crcOf 0xEDB88320#32 l

/-! ## SHA-256 -/

/-- The round constants of SHA-256. -/
def shaK : List Word := [
  0x428a2f98#32, 0x71374491#32, 0xb5c0fbcf#32, 0xe9b5dba5#32, 0x3956c25b#32, 0x59f111f1#32, 0x923f82a4#32, 0xab1c5ed5#32,
  0xd807aa98#32, 0x12835b01#32, 0x243185be#32, 0x550c7dc3#32, 0x72be5d74#32, 0x80deb1fe#32, 0x9bdc06a7#32, 0xc19bf174#32,
  0xe49b69c1#32, 0xefbe4786#32, 0x0fc19dc6#32, 0x240ca1cc#32, 0x2de92c6f#32, 0x4a7484aa#32, 0x5cb0a9dc#32, 0x76f988da#32,
  0x983e5152#32, 0xa831c66d#32, 0xb00327c8#32, 0xbf597fc7#32, 0xc6e00bf3#32, 0xd5a79147#32, 0x06ca6351#32, 0x14292967#32,
  0x27b70a85#32, 0x2e1b2138#32, 0x4d2c6dfc#32, 0x53380d13#32, 0x650a7354#32, 0x766a0abb#32, 0x81c2c92e#32, 0x92722c85#32,
  0xa2bfe8a1#32, 0xa81a664b#32, 0xc24b8b70#32, 0xc76c51a3#32, 0xd192e819#32, 0xd6990624#32, 0xf40e3585#32, 0x106aa070#32,
  0x19a4c116#32, 0x1e376c08#32, 0x2748774c#32, 0x34b0bcb5#32, 0x391c0cb3#32, 0x4ed8aa4a#32, 0x5b9cca4f#32, 0x682e6ff3#32,
  0x748f82ee#32, 0x78a5636f#32, 0x84c87814#32, 0x8cc70208#32, 0x90befffa#32, 0xa4506ceb#32, 0xbef9a3f7#32, 0xc67178f2#32]

/-- The initial hash value of SHA-256. -/
def shaH : List Word := [
  0x6a09e667#32, 0xbb67ae85#32, 0x3c6ef372#32, 0xa54ff53a#32, 0x510e527f#32, 0x9b05688c#32, 0x1f83d9ab#32, 0x5be0cd19#32]

/-- Rotate right. -/
def rotr (x : Word) (n : Nat) : Word := (x >>> n) ||| (x <<< (32 - n))

/-- Extend the 16 message words, newest first, by `n` schedule words. -/
def shaSchedule : Nat → List Word → List Word
  | 0, w => w
  | n + 1, w =>
    let a := w.getD 1 0
    let b := w.getD 14 0
    let s1 := rotr a 17 ^^^ rotr a 19 ^^^ (a >>> 10)
    let s0 := rotr b 7 ^^^ rotr b 18 ^^^ (b >>> 3)
    shaSchedule n ((w.getD 15 0 + s0 + w.getD 6 0 + s1) :: w)

/-- One round of the compression function on the eight working words. -/
def shaRound (v : List Word) (kw : Word × Word) : List Word :=
  match v with
  | [a, b, c, d, e, f, g, h] =>
    let t1 := h + (rotr e 6 ^^^ rotr e 11 ^^^ rotr e 25) + ((e &&& f) ^^^ ((~~~ e) &&& g)) + kw.1 + kw.2
    let t2 := (rotr a 2 ^^^ rotr a 13 ^^^ rotr a 22) + ((a &&& b) ^^^ (a &&& c) ^^^ (b &&& c))
    [t1 + t2, a, b, c, d + t1, e, f, g]
  | _ => v

/-- The big-endian words of a byte list. -/
def beWords : List Byte → List Word
  | a :: b :: c :: d :: t => BitVec.ofNat 32 (beNat [a, b, c, d]) :: beWords t
  | _ => []

/-- Compress one 64-byte block. -/
def shaBlock (h : List Word) (blk : List Byte) : List Word :=
  let w := (shaSchedule 48 (beWords blk).reverse).reverse
  List.zipWith (· + ·) h ((shaK.zip w).foldl shaRound h)

/-- Split into blocks of `n` bytes, on fuel. -/
def blocksOf (n : Nat) : Nat → List Byte → List (List Byte)
  | 0, _ => []
  | _, [] => []
  | k + 1, l => l.take n :: blocksOf n k (l.drop n)

/-- The padding of a message of `n` bytes. -/
def shaPad (n : Nat) : List Byte :=
  0x80#8 :: List.replicate ((119 - n % 64) % 64) 0#8 ++ beBytes 8 (8 * n)

/-- SHA-256 of a byte list: 32 bytes. -/
def sha256 (m : List Byte) : List Byte :=
  let p := m ++ shaPad m.length
  ((blocksOf 64 (p.length / 64 + 1) p).foldl shaBlock shaH).flatMap (fun w => beBytes 4 w.toNat)

/-- HMAC-SHA-256. -/
def hmac256 (key m : List Byte) : List Byte :=
  let k0 := if key.length > 64 then sha256 key else key
  let k := k0 ++ List.replicate (64 - k0.length) 0#8
  sha256 (k.map (· ^^^ 0x5C#8) ++ sha256 (k.map (· ^^^ 0x36#8) ++ m))

/-! ## AES -/

/-- The substitution table of AES, entries 0 to 63. -/
def aesS0 : List Nat := [
  0x63, 0x7c, 0x77, 0x7b, 0xf2, 0x6b, 0x6f, 0xc5, 0x30, 0x01, 0x67, 0x2b, 0xfe, 0xd7, 0xab, 0x76,
  0xca, 0x82, 0xc9, 0x7d, 0xfa, 0x59, 0x47, 0xf0, 0xad, 0xd4, 0xa2, 0xaf, 0x9c, 0xa4, 0x72, 0xc0,
  0xb7, 0xfd, 0x93, 0x26, 0x36, 0x3f, 0xf7, 0xcc, 0x34, 0xa5, 0xe5, 0xf1, 0x71, 0xd8, 0x31, 0x15,
  0x04, 0xc7, 0x23, 0xc3, 0x18, 0x96, 0x05, 0x9a, 0x07, 0x12, 0x80, 0xe2, 0xeb, 0x27, 0xb2, 0x75]

/-- The substitution table of AES, entries 64 to 127. -/
def aesS1 : List Nat := [
  0x09, 0x83, 0x2c, 0x1a, 0x1b, 0x6e, 0x5a, 0xa0, 0x52, 0x3b, 0xd6, 0xb3, 0x29, 0xe3, 0x2f, 0x84,
  0x53, 0xd1, 0x00, 0xed, 0x20, 0xfc, 0xb1, 0x5b, 0x6a, 0xcb, 0xbe, 0x39, 0x4a, 0x4c, 0x58, 0xcf,
  0xd0, 0xef, 0xaa, 0xfb, 0x43, 0x4d, 0x33, 0x85, 0x45, 0xf9, 0x02, 0x7f, 0x50, 0x3c, 0x9f, 0xa8,
  0x51, 0xa3, 0x40, 0x8f, 0x92, 0x9d, 0x38, 0xf5, 0xbc, 0xb6, 0xda, 0x21, 0x10, 0xff, 0xf3, 0xd2]

/-- The substitution table of AES, entries 128 to 191. -/
def aesS2 : List Nat := [
  0xcd, 0x0c, 0x13, 0xec, 0x5f, 0x97, 0x44, 0x17, 0xc4, 0xa7, 0x7e, 0x3d, 0x64, 0x5d, 0x19, 0x73,
  0x60, 0x81, 0x4f, 0xdc, 0x22, 0x2a, 0x90, 0x88, 0x46, 0xee, 0xb8, 0x14, 0xde, 0x5e, 0x0b, 0xdb,
  0xe0, 0x32, 0x3a, 0x0a, 0x49, 0x06, 0x24, 0x5c, 0xc2, 0xd3, 0xac, 0x62, 0x91, 0x95, 0xe4, 0x79,
  0xe7, 0xc8, 0x37, 0x6d, 0x8d, 0xd5, 0x4e, 0xa9, 0x6c, 0x56, 0xf4, 0xea, 0x65, 0x7a, 0xae, 0x08]

/-- The substitution table of AES, entries 192 to 255. -/
def aesS3 : List Nat := [
  0xba, 0x78, 0x25, 0x2e, 0x1c, 0xa6, 0xb4, 0xc6, 0xe8, 0xdd, 0x74, 0x1f, 0x4b, 0xbd, 0x8b, 0x8a,
  0x70, 0x3e, 0xb5, 0x66, 0x48, 0x03, 0xf6, 0x0e, 0x61, 0x35, 0x57, 0xb9, 0x86, 0xc1, 0x1d, 0x9e,
  0xe1, 0xf8, 0x98, 0x11, 0x69, 0xd9, 0x8e, 0x94, 0x9b, 0x1e, 0x87, 0xe9, 0xce, 0x55, 0x28, 0xdf,
  0x8c, 0xa1, 0x89, 0x0d, 0xbf, 0xe6, 0x42, 0x68, 0x41, 0x99, 0x2d, 0x0f, 0xb0, 0x54, 0xbb, 0x16]

/-- The substitution table of AES. -/
def aesS : List Nat := aesS0 ++ aesS1 ++ aesS2 ++ aesS3

/-- The inverse substitution table of AES, entries 0 to 63. -/
def aesSi0 : List Nat := [
  0x52, 0x09, 0x6a, 0xd5, 0x30, 0x36, 0xa5, 0x38, 0xbf, 0x40, 0xa3, 0x9e, 0x81, 0xf3, 0xd7, 0xfb,
  0x7c, 0xe3, 0x39, 0x82, 0x9b, 0x2f, 0xff, 0x87, 0x34, 0x8e, 0x43, 0x44, 0xc4, 0xde, 0xe9, 0xcb,
  0x54, 0x7b, 0x94, 0x32, 0xa6, 0xc2, 0x23, 0x3d, 0xee, 0x4c, 0x95, 0x0b, 0x42, 0xfa, 0xc3, 0x4e,
  0x08, 0x2e, 0xa1, 0x66, 0x28, 0xd9, 0x24, 0xb2, 0x76, 0x5b, 0xa2, 0x49, 0x6d, 0x8b, 0xd1, 0x25]

/-- The inverse substitution table of AES, entries 64 to 127. -/
def aesSi1 : List Nat := [
  0x72, 0xf8, 0xf6, 0x64, 0x86, 0x68, 0x98, 0x16, 0xd4, 0xa4, 0x5c, 0xcc, 0x5d, 0x65, 0xb6, 0x92,
  0x6c, 0x70, 0x48, 0x50, 0xfd, 0xed, 0xb9, 0xda, 0x5e, 0x15, 0x46, 0x57, 0xa7, 0x8d, 0x9d, 0x84,
  0x90, 0xd8, 0xab, 0x00, 0x8c, 0xbc, 0xd3, 0x0a, 0xf7, 0xe4, 0x58, 0x05, 0xb8, 0xb3, 0x45, 0x06,
  0xd0, 0x2c, 0x1e, 0x8f, 0xca, 0x3f, 0x0f, 0x02, 0xc1, 0xaf, 0xbd, 0x03, 0x01, 0x13, 0x8a, 0x6b]

/-- The inverse substitution table of AES, entries 128 to 191. -/
def aesSi2 : List Nat := [
  0x3a, 0x91, 0x11, 0x41, 0x4f, 0x67, 0xdc, 0xea, 0x97, 0xf2, 0xcf, 0xce, 0xf0, 0xb4, 0xe6, 0x73,
  0x96, 0xac, 0x74, 0x22, 0xe7, 0xad, 0x35, 0x85, 0xe2, 0xf9, 0x37, 0xe8, 0x1c, 0x75, 0xdf, 0x6e,
  0x47, 0xf1, 0x1a, 0x71, 0x1d, 0x29, 0xc5, 0x89, 0x6f, 0xb7, 0x62, 0x0e, 0xaa, 0x18, 0xbe, 0x1b,
  0xfc, 0x56, 0x3e, 0x4b, 0xc6, 0xd2, 0x79, 0x20, 0x9a, 0xdb, 0xc0, 0xfe, 0x78, 0xcd, 0x5a, 0xf4]

/-- The inverse substitution table of AES, entries 192 to 255. -/
def aesSi3 : List Nat := [
  0x1f, 0xdd, 0xa8, 0x33, 0x88, 0x07, 0xc7, 0x31, 0xb1, 0x12, 0x10, 0x59, 0x27, 0x80, 0xec, 0x5f,
  0x60, 0x51, 0x7f, 0xa9, 0x19, 0xb5, 0x4a, 0x0d, 0x2d, 0xe5, 0x7a, 0x9f, 0x93, 0xc9, 0x9c, 0xef,
  0xa0, 0xe0, 0x3b, 0x4d, 0xae, 0x2a, 0xf5, 0xb0, 0xc8, 0xeb, 0xbb, 0x3c, 0x83, 0x53, 0x99, 0x61,
  0x17, 0x2b, 0x04, 0x7e, 0xba, 0x77, 0xd6, 0x26, 0xe1, 0x69, 0x14, 0x63, 0x55, 0x21, 0x0c, 0x7d]

/-- The inverse substitution table of AES. -/
def aesSi : List Nat := aesSi0 ++ aesSi1 ++ aesSi2 ++ aesSi3

/-- Substitute one byte. -/
def subByte (b : Byte) : Byte := BitVec.ofNat 8 (aesS.getD b.toNat 0)

/-- Substitute one byte by the inverse table. -/
def invSubByte (b : Byte) : Byte := BitVec.ofNat 8 (aesSi.getD b.toNat 0)

/-- Multiply by x in the field of AES. -/
def xtime (b : Byte) : Byte := if b.getLsbD 7 then (b <<< 1) ^^^ 0x1B#8 else b <<< 1

/-- Multiply by a small constant in the field of AES. -/
def gfMul (k : Nat) (b : Byte) : Byte :=
  let b2 := xtime b
  let b4 := xtime b2
  let b8 := xtime b4
  (if k % 2 = 1 then b else 0) ^^^ (if k / 2 % 2 = 1 then b2 else 0) ^^^ (if k / 4 % 2 = 1 then b4 else 0)
    ^^^ (if k / 8 % 2 = 1 then b8 else 0)

/-- Exclusive-or of two byte lists. -/
def xorBytes (a b : List Byte) : List Byte := List.zipWith (· ^^^ ·) a b

/-- Key expansion: the words of the schedule, newest first; `i` counts the words already made. -/
def aesExpand (nk : Nat) : Nat → Nat → Byte → List (List Byte) → List (List Byte)
  | 0, _, _, w => w
  | n + 1, i, rc, w =>
    let t := w.headD []
    let t1 := if i % nk = 0 then
        xorBytes ((t.drop 1 ++ t.take 1).map subByte) [rc, 0#8, 0#8, 0#8]
      else if nk > 6 ∧ i % nk = 4 then t.map subByte else t
    aesExpand nk n (i + 1) (if i % nk = 0 then xtime rc else rc) (xorBytes (w.getD (nk - 1) []) t1 :: w)

/-- The round keys of a 16- or 32-byte key, 16 bytes each. -/
def aesKeys (key : List Byte) : List (List Byte) :=
  let nk := key.length / 4
  let w := (aesExpand nk (4 * (nk + 7) - nk) nk 1#8 (blocksOf 4 nk key).reverse).reverse
  blocksOf 16 (nk + 7) w.flatten

/-- ShiftRows on the 16 bytes of a state in column order. -/
def shiftRows (b : List Byte) : List Byte :=
  (List.range 16).map (fun i => b.getD ((i + 4 * (i % 4)) % 16) 0)

/-- Inverse of ShiftRows. -/
def invShiftRows (b : List Byte) : List Byte :=
  (List.range 16).map (fun i => b.getD ((i + 12 * (i % 4)) % 16) 0)

/-- Multiply every column by a circulant matrix whose first row is `r`. -/
def mixCols (r : List Nat) (b : List Byte) : List Byte :=
  (List.range 16).map (fun i =>
    let c := i / 4 * 4
    let k := i % 4
    gfMul (r.getD ((4 - k) % 4) 0) (b.getD c 0) ^^^ gfMul (r.getD ((5 - k) % 4) 0) (b.getD (c + 1) 0)
      ^^^ gfMul (r.getD ((6 - k) % 4) 0) (b.getD (c + 2) 0) ^^^ gfMul (r.getD ((7 - k) % 4) 0) (b.getD (c + 3) 0))

/-- The rounds of an encryption after the first key addition. -/
def aesRounds : List (List Byte) → List Byte → List Byte
  | [], b => b
  | [k], b => xorBytes (shiftRows (b.map subByte)) k
  | k :: ks, b => aesRounds ks (xorBytes (mixCols [2, 3, 1, 1] (shiftRows (b.map subByte))) k)

/-- AES encryption of one 16-byte block under a 16- or 32-byte key. -/
def aesEnc (key blk : List Byte) : List Byte :=
  match aesKeys key with
  | [] => blk
  | k :: ks => aesRounds ks (xorBytes blk k)

/-- The rounds of a decryption, the last round key first. -/
def aesInvRounds : List (List Byte) → List Byte → List Byte
  | [], b => b
  | [k], b => xorBytes b k
  | k :: k2 :: ks, b =>
    let x := (invShiftRows (xorBytes b k)).map invSubByte
    match ks with
    | [] => xorBytes x k2
    | _ => aesInvMid (k2 :: ks) x
where
  /-- The middle rounds of a decryption. -/
  aesInvMid : List (List Byte) → List Byte → List Byte
    | [], x => x
    | [k], x => xorBytes x k
    | k :: ks, x => aesInvMid ks ((invShiftRows (mixCols [14, 11, 13, 9] (xorBytes x k))).map invSubByte)

/-- AES decryption of one 16-byte block. -/
def aesDec (key blk : List Byte) : List Byte := aesInvRounds (aesKeys key).reverse blk

/-- Doubling in the field of CMAC, on 16 big-endian bytes. -/
def cmacDbl (b : List Byte) : List Byte :=
  let n := 2 * beNat b
  let m := n % 2 ^ 128
  beBytes 16 (if n ≥ 2 ^ 128 then m ^^^ 0x87 else m)

/-- CMAC of NIST SP 800-38B under an AES key: 16 bytes. -/
def cmac (key m : List Byte) : List Byte :=
  let k1 := cmacDbl (aesEnc key (List.replicate 16 0#8))
  let k2 := cmacDbl k1
  let n := (m.length + 15) / 16
  let full := m.length ≠ 0 ∧ m.length % 16 = 0
  let body := if full then m.take (m.length - 16) else m.take (16 * (n - 1))
  let last0 := m.drop body.length
  let last := if full then xorBytes last0 k1
    else xorBytes (last0 ++ 0x80#8 :: List.replicate (15 - last0.length) 0#8) k2
  let x := (blocksOf 16 n body).foldl (fun x b => aesEnc key (xorBytes x b)) (List.replicate 16 0#8)
  aesEnc key (xorBytes x last)

/-- AES-CTR from a 16-byte big-endian initial counter block. -/
def aesCtr (key iv m : List Byte) : List Byte :=
  let bs := blocksOf 16 (m.length / 16 + 1) m
  ((List.range bs.length).zip bs).flatMap (fun e =>
    xorBytes e.2 (aesEnc key (beBytes 16 ((beNat iv + e.1) % 2 ^ 128))))

/-- XTS encryption of one 16-byte data unit: `tweak` is its number (R432). -/
def xtsEnc (key1 key2 : List Byte) (tweak : Nat) (blk : List Byte) : List Byte :=
  let t := aesEnc key2 (leBytes 16 tweak)
  xorBytes (aesEnc key1 (xorBytes blk t)) t

/-- XTS decryption of one 16-byte data unit. -/
def xtsDec (key1 key2 : List Byte) (tweak : Nat) (blk : List Byte) : List Byte :=
  let t := aesEnc key2 (leBytes 16 tweak)
  xorBytes (aesDec key1 (xorBytes blk t)) t

/-! ## ECDSA over P-256 -/

/-- The prime of P-256. -/
def p256p : Nat := 0xffffffff00000001000000000000000000000000ffffffffffffffffffffffff

/-- The order of the base point of P-256. -/
def p256n : Nat := 0xffffffff00000000ffffffffffffffffbce6faada7179e84f3b9cac2fc632551

/-- The coefficient b of P-256. -/
def p256b : Nat := 0x5ac635d8aa3a93e7b3ebbd55769886bc651d06b0cc53b0f63bce3c3e27d2604b

/-- The base point of P-256. -/
def p256g : Nat × Nat :=
  (0x6b17d1f2e12c4247f8bce6e563a440f277037d812deb33a0f4a13945d898c296,
   0x4fe342e2fe1a7f9b8ee7eb4a7c0f9e162bce33576b315ececbb6406837bf51f5)

/-- `x ^ e mod m` over `k` bits of `e`. -/
def powMod (m : Nat) : Nat → Nat → Nat → Nat
  | 0, _, _ => 1 % m
  | k + 1, x, e =>
    let r := powMod m k (x * x % m) (e / 2)
    if e % 2 = 1 then r * x % m else r

/-- Inverse modulo a 256-bit prime. -/
def invMod (m x : Nat) : Nat := powMod m 256 (x % m) (m - 2)

/-- Point addition on P-256; `none` is the point at infinity. -/
def ecAdd (a b : Option (Nat × Nat)) : Option (Nat × Nat) :=
  match a, b with
  | none, q => q
  | q, none => q
  | some (x1, y1), some (x2, y2) =>
    let p := p256p
    if x1 = x2 ∧ (y1 + y2) % p = 0 then none else
      let l := if x1 = x2 then (3 * x1 * x1 + (p - 3)) * invMod p (2 * y1) % p
        else (y2 + p - y1) * invMod p (x2 + p - x1) % p
      let x3 := (l * l + 2 * p - x1 - x2) % p
      some (x3, (l * (x1 + p - x3) + p - y1) % p)

/-- Scalar multiplication over `k` bits. -/
def ecMul : Nat → Nat → Option (Nat × Nat) → Option (Nat × Nat)
  | 0, _, _ => none
  | k + 1, e, q =>
    let r := ecMul k (e / 2) (ecAdd q q)
    if e % 2 = 1 then ecAdd r q else r

/-- Whether a point lies on P-256. -/
def onCurve (q : Nat × Nat) : Bool :=
  q.1 < p256p && q.2 < p256p && q.2 * q.2 % p256p == (q.1 * q.1 * q.1 + (p256p - 3) * q.1 + p256b) % p256p

/-- Verify an ECDSA signature (r, s) over a 32-byte hash under a public point. -/
def ecdsaVerify (q : Nat × Nat) (hash : List Byte) (r s : Nat) : Bool :=
  if r = 0 || s = 0 || r ≥ p256n || s ≥ p256n || !onCurve q then false else
    let w := invMod p256n s
    let u1 := beNat hash * w % p256n
    let u2 := r * w % p256n
    match ecAdd (ecMul 256 u1 (some p256g)) (ecMul 256 u2 (some q)) with
    | none => false
    | some (x, _) => x % p256n == r

end Sys2Proof.Machine
end

