-- ==== Sys2Proof/Config.lean ====
section
/-!
DEFINITION. Config.lean: what an implementation fixes and what the spec leaves open. The values without a body are
free: no proof can see them, and a statement that mentions one holds whatever it is.
-/

namespace Sys2Proof

/-- One tunable field that a DEFAULTS section declares (R9, R533): the address of the register, the lowest bit of the
field, its reset value, and its range, which DEFAULTS may leave out. The spec gives DEFAULTS no byte layout, so the reading of the section's bytes
is `Config.defaults` below. -/
structure DefaultEntry where
  addr : Nat
  lo : Nat
  reset : Word
  range : Option (Int × Int)
  deriving DecidableEq, Repr, Inhabited

/-- The entries that the bytes of a DEFAULTS section declare. The spec states what DEFAULTS declares and not its byte
layout: free. -/
opaque Config.defaults : List Byte → List DefaultEntry

/-- Whether the bytes of a DEFAULTS section set AUTOSTART (R246). The spec gives the setting no place there: free. -/
opaque Config.autostart : List Byte → Bool

/-- Reron's default lap budget table, entry 4c + r in ticks, which the pacer applies while no image runs (R493). The
spec does not list it: free. -/
opaque Config.defaultBudget : Nat → Nat

/-- The base baton priority of class c in Reron's default table (R493). The spec does not list it: free. -/
opaque Config.defaultBpri : Nat → Nat

/-- AGE in Reron's default table (R493). The spec does not list it: free. -/
opaque Config.defaultAge : Nat

/-- The module's UID (KEY_UID0 to KEY_UID3), set at manufacture: free. -/
opaque Config.uid : BitVec 128

/-- The HMAC256 key of slot 0 on the module's key sheet (R413): free. -/
opaque Config.sheetUpdateKey : BitVec 256

/-- The AES128 key of slot 1 on the module's key sheet (R413): free. -/
opaque Config.sheetHostKey : BitVec 128

/-- Whether a ones density that falls between two filter codes gives the upper one (R287), by ones and bits: free. -/
opaque Config.codeUp : Nat → Nat → Bool

/-- The codes of a channel's samples shifted by an angle in µrad at a frequency in mHz (R293). The spec does not state the
interpolation: free. -/
opaque Config.shifted : Int → Nat → List Int → List Rat

/-- The codes of a channel's samples delayed by one quarter of the period at a frequency in mHz, and interpolated (Table 2 of
spec/11_plant_metering.md). The spec does not state the interpolation: free. -/
opaque Config.quarterBack : Nat → List Int → List Rat

/-- Where in its second a correction pulse falls (R456), in crystal pulses after the carry, by the second of the window and the
number of the pulse. The spec gives its second only: free. -/
opaque Config.calPulse : Nat → Nat → Nat

/-- What a lane writes back when its saturation test is inverted and lets a value beyond 36 bits pass (R142, R163), by that value:
free. -/
opaque Config.unsaturated : Int → BitVec 36

/-- Which of the values within 1 LSB of 1/d a lane forms (R143), by the pivot and the two fraction counts: free. -/
opaque Config.recipPick : Int → Nat → Nat → Nat

/-- Which burst lane computes the k-th value of a ROOT or RSOLVE task (R154), as a number modulo their count: free. -/
opaque Config.rootLane : Nat → Nat

/-- A quotient over 0 where a rule of the dispatch programme divides by a value that can be 0: the spec states none, free. -/
opaque Config.overZero : Int

/-- The part of VAL of a forced RTD channel that R258 leaves open, by channel and forced code: free. -/
opaque Config.forcedRtd : Nat → Nat → BitVec 32

/-- What one block instance does (R236): the bytes of the image, the instance's number, the input image, the instance data
and the output image as the instances before it leave them. The meaning of a block is fixed by its code, which the spec
does not describe: free. -/
opaque Config.runBlock : List Byte → Nat → List (Nat × BitVec 32) → List (Nat × Byte) → Machine.OutImage → Machine.OutImage

/-- The free values of the model: the k-th value that the spec leaves open and that a step used. -/
opaque Config.free : Nat → BitVec 32

end Sys2Proof
end

