-- ==== Sys2Proof/Machine/RegMap.lean ====
section
/-!
DEFINITION. Machine/RegMap.lean: the addresses of the register map, one name per register of the field tables of the
chapters of spec/ (spelled as there; an indexed register is a function of its indices), and the field tables
themselves as rows: base address, index strides, and for every field its place, width, access code (R4, Table 2 of
spec/00_scope.md) and reset source. The block windows are those of Table 3 of spec/00_scope.md (R6).
A bit that no field covers is reserved and reads 0 (R3). Written from the spec's field tables.
-/

namespace Sys2Proof.Machine

/-- Access codes of R4. -/
inductive Acc where
  | ro | rw | rws | w1c | wo | rc
  deriving DecidableEq, Repr

/-- Where the reset value of a field comes from: a number the spec states, the running image (`IMG`), the
non-volatile store, the image flash, manufacture, the calendar's backup domain, or a table of the chapter. -/
inductive Rst where
  | val (n : Nat) | img | nv | flash | factory | backup | table
  deriving DecidableEq, Repr

/-- One field of a register. -/
structure Fld where
  lo : Nat
  width : Nat
  acc : Acc
  rst : Rst
  deriving DecidableEq, Repr

/-- One row of the register map: the address of the first register, the index dimensions (stride, count), outermost
first, and the fields. -/
structure RegRow where
  base : Nat
  dims : List (Nat × Nat)
  fields : List Fld
  deriving DecidableEq, Repr

/-- A block window of R6. -/
inductive Blk where
  | zid | img | lap | sett | dsp | slv | fab | loop | fbp | ain | aout | dio | mtr | can | eth | ptp | hwp | pair | key | nvs | rtc | spr | boot | pwr
  deriving DecidableEq, Repr

namespace Reg

/-! ## ZID -/
abbrev ZID_DEV : Nat := 0x0
abbrev ZID_REV : Nat := 0x4
abbrev ZID_CTRL : Nat := 0x10
abbrev ZID_STAT : Nat := 0x40
abbrev ZID_FAULT_CFG : Nat := 0x100
abbrev ZID_FAULT_CTRL : Nat := 0x104
abbrev ZID_FAULT_SRC : Nat := 0x108
abbrev ZID_FAULT_STATE : Nat := 0x10C
abbrev ZID_FAULT_FIRST : Nat := 0x110
abbrev ZID_FAULT_LAST : Nat := 0x114
abbrev ZID_LED_STAT : Nat := 0x120
abbrev ZID_CNT_FAULT : Nat := 0x140
abbrev ZID_CNT_REFUSE : Nat := 0x144
abbrev ZID_CNT_INJ : Nat := 0x148
abbrev ZID_IRQ : Nat := 0x150
abbrev ZID_IRQ_EN : Nat := 0x154
abbrev ZID_INJ : Nat := 0x158

/-! ## IMG -/
abbrev IMG_LOAD_CTRL : Nat := 0x1000
abbrev IMG_LOAD_LEN : Nat := 0x1004
abbrev IMG_LOAD_STAT : Nat := 0x1008
abbrev IMG_LOAD_RCVD : Nat := 0x100C
abbrev IMG_ACT_CTRL : Nat := 0x1010
abbrev IMG_BOOT : Nat := 0x1014
abbrev IMG_RUN : Nat := 0x1018
abbrev IMG_SLOTA_STAT : Nat := 0x1020
abbrev IMG_SLOTB_STAT : Nat := 0x1024
abbrev IMG_SLOTA_SERIAL : Nat := 0x1028
abbrev IMG_SLOTB_SERIAL : Nat := 0x102C
abbrev IMG_FLOOR : Nat := 0x1030
abbrev IMG_SERIAL : Nat := 0x1034
abbrev IMG_SHASH (i : Nat) : Nat := 0x1040 + 0x4 * i
abbrev IMG_DIGEST (i : Nat) : Nat := 0x1060 + 0x4 * i
abbrev IMG_STAT : Nat := 0x1100
abbrev IMG_CNT_REFUSE : Nat := 0x1110
abbrev IMG_CNT_CHUNK_REFUSE : Nat := 0x1114
abbrev IMG_CNT_ACT : Nat := 0x1118
abbrev IMG_CNT_FLASH : Nat := 0x111C
abbrev IMG_IRQ : Nat := 0x1120
abbrev IMG_IRQ_EN : Nat := 0x1124
abbrev IMG_INJ : Nat := 0x1130

/-! ## LAP -/
abbrev LAP_SRC_CTRL : Nat := 0x2000
abbrev LAP_FREE_PERIOD : Nat := 0x2004
abbrev LAP_STAT : Nat := 0x2010
abbrev LAP_SRC_STAT : Nat := 0x2014
abbrev LAP_PERIOD : Nat := 0x2018
abbrev LAP_MAINS_FREQ : Nat := 0x201C
abbrev LAP_COUNT_LO : Nat := 0x2020
abbrev LAP_COUNT_HI : Nat := 0x2024
abbrev LAP_TICK : Nat := 0x2028
abbrev LAP_CNT_FALLBACK : Nat := 0x2040
abbrev LAP_CNT_RETURN : Nat := 0x2044
abbrev LAP_CNT_COAST : Nat := 0x2048
abbrev LAP_CNT_BATON_WAIT : Nat := 0x204C
abbrev LAP_IRQ : Nat := 0x2050
abbrev LAP_IRQ_EN : Nat := 0x2054
abbrev LAP_INJ : Nat := 0x2058
abbrev LAP_OVSP (i : Nat) : Nat := 0x2100 + 0x4 * i
abbrev LAP_HELD_LAST : Nat := 0x2140
abbrev LAP_BUDGET_c_r (c r : Nat) : Nat := 0x2200 + 0x10 * c + 0x4 * r
abbrev LAP_USED_c_r (c r : Nat) : Nat := 0x2300 + 0x10 * c + 0x4 * r
abbrev LAP_BATON_CTRL : Nat := 0x2400
abbrev LAP_BATON_STAT : Nat := 0x2404
abbrev LAP_BATON_HOLD (i : Nat) : Nat := 0x2410 + 0x4 * i

/-! ## SETT -/
abbrev SETT_EPOCH_LO : Nat := 0x3000
abbrev SETT_EPOCH_HI : Nat := 0x3004
abbrev SETT_STAT : Nat := 0x3010
abbrev SETT_SIZE : Nat := 0x3014
abbrev SETT_HELD : Nat := 0x3018
abbrev SETT_OLDEST_LO : Nat := 0x301C
abbrev SETT_WS_CTRL : Nat := 0x3020
abbrev SETT_WS_STAT : Nat := 0x3024
abbrev SETT_WS_SEQ : Nat := 0x3028
abbrev SETT_WS_TARGET_LO : Nat := 0x302C
abbrev SETT_WS_LAST_SEQ : Nat := 0x3034
abbrev SETT_WS_LAST : Nat := 0x3030
abbrev SETT_WS_TIMEOUT : Nat := 0x3038
abbrev SETT_EPOCH_BLOCK : Nat := 0x303C
abbrev SETT_CNT_WS_APPLIED : Nat := 0x3040
abbrev SETT_CNT_WS_DISCARD : Nat := 0x3044
abbrev SETT_CNT_STALE : Nat := 0x3048
abbrev SETT_CNT_DISCONT : Nat := 0x304C
abbrev SETT_IRQ : Nat := 0x3050
abbrev SETT_IRQ_EN : Nat := 0x3054
abbrev SETT_INJ : Nat := 0x3058
abbrev SETT_WS_ADDR_k (k : Nat) : Nat := 0x4000 + 0x8 * k
abbrev SETT_WS_VAL_k (k : Nat) : Nat := 0x4004 + 0x8 * k

/-! ## DSP -/
abbrev DSP_CTRL : Nat := 0x10000
abbrev DSP_CYCLE : Nat := 0x10004
abbrev DSP_DEADLINE : Nat := 0x10008
abbrev DSP_STALE : Nat := 0x1000C
abbrev DSP_SHAPE : Nat := 0x10010
abbrev DSP_STEPLAPS : Nat := 0x10014
abbrev DSP_COUNTS0 : Nat := 0x10018
abbrev DSP_COUNTS1 : Nat := 0x1001C
abbrev DSP_COUNTS2 : Nat := 0x10020
abbrev DSP_NNZ : Nat := 0x10024
abbrev DSP_NFAC : Nat := 0x10028
abbrev DSP_STAT : Nat := 0x10040
abbrev DSP_CNT_CYCLE : Nat := 0x10050
abbrev DSP_CNT_STALEMEAS : Nat := 0x10054
abbrev DSP_CNT_PRICECLIP : Nat := 0x10058
abbrev DSP_CNT_DEMCLIP : Nat := 0x1005C
abbrev DSP_IRQ : Nat := 0x10060
abbrev DSP_IRQ_EN : Nat := 0x10064
abbrev DSP_INJ : Nat := 0x10068
abbrev DSP_CYC_LO : Nat := 0x10070
abbrev DSP_CYC_EPOCH_LO : Nat := 0x10078
abbrev DSP_TAU0 : Nat := 0x1007C
abbrev DSP_GRIDPT_LO : Nat := 0x10080
abbrev DSP_CO2PRICE : Nat := 0x10100
abbrev DSP_GIMPMAX : Nat := 0x10104
abbrev DSP_GEXPMAX : Nat := 0x10108
abbrev DSP_WLIMDP : Nat := 0x1010C
abbrev DSP_WLIMT : Nat := 0x10110
abbrev DSP_BIASDECAY : Nat := 0x10114
abbrev DSP_SCENW_s (s : Nat) : Nat := 0x10120 + 0x4 * s
abbrev DSP_TOFS_s (s : Nat) : Nat := 0x10140 + 0x4 * s
abbrev DSP_PSCALE_s (s : Nat) : Nat := 0x10160 + 0x4 * s
abbrev DSP_MEAS_u (u : Nat) : Nat := 0x10800 + 0x8 * u
abbrev DSP_MEAS_STAMP_u (u : Nat) : Nat := 0x10804 + 0x8 * u
abbrev DSP_MEAS_TOUT : Nat := 0x10A00
abbrev DSP_MEAS_TOUT_STAMP : Nat := 0x10A04
abbrev DSP_PIMP_k (k : Nat) : Nat := 0x11000 + 0x4 * k
abbrev DSP_PEXP_k (k : Nat) : Nat := 0x11200 + 0x4 * k
abbrev DSP_TOUTF_k (k : Nat) : Nat := 0x11400 + 0x4 * k
abbrev DSP_UNIT_u_QMIN (u : Nat) : Nat := 0x12000 + 0x20 * u
abbrev DSP_UNIT_u_QMAX (u : Nat) : Nat := 0x12004 + 0x20 * u
abbrev DSP_UNIT_u_RAMP (u : Nat) : Nat := 0x12008 + 0x20 * u
abbrev DSP_UNIT_u_FUELPRICE (u : Nat) : Nat := 0x1200C + 0x20 * u
abbrev DSP_UNIT_u_EMIS (u : Nat) : Nat := 0x12010 + 0x20 * u
abbrev DSP_UNIT_u_WEAR (u : Nat) : Nat := 0x12014 + 0x20 * u
abbrev DSP_UNIT_u_XMIN (u : Nat) : Nat := 0x12018 + 0x20 * u
abbrev DSP_UNIT_u_XMAX (u : Nat) : Nat := 0x1201C + 0x20 * u
abbrev DSP_PUMP_p_HMIN (p : Nat) : Nat := 0x13000 + 0x8 * p
abbrev DSP_PUMP_p_HMAX (p : Nat) : Nat := 0x13004 + 0x8 * p
abbrev DSP_GRP_g_TMIN (g : Nat) : Nat := 0x14000 + 0x20 * g
abbrev DSP_GRP_g_TMAX (g : Nat) : Nat := 0x14004 + 0x20 * g
abbrev DSP_GRP_g_WCL (g : Nat) : Nat := 0x14008 + 0x20 * g
abbrev DSP_GRP_g_WCQ (g : Nat) : Nat := 0x1400C + 0x20 * g
abbrev DSP_GRP_g_WT (g : Nat) : Nat := 0x14010 + 0x20 * g
abbrev DSP_RES_TOLP : Nat := 0x18000
abbrev DSP_RES_TOLD : Nat := 0x18004
abbrev DSP_RES_TOLMU : Nat := 0x18008
abbrev DSP_RES_ACCF : Nat := 0x1800C
abbrev DSP_RES_LAST : Nat := 0x18010
abbrev DSP_RES_CYCLE : Nat := 0x18014
abbrev DSP_RES_RP : Nat := 0x18018
abbrev DSP_RES_RG : Nat := 0x1801C
abbrev DSP_RES_RD : Nat := 0x18020
abbrev DSP_RES_MU : Nat := 0x18024
abbrev DSP_RES_STAT : Nat := 0x18030
abbrev DSP_RES_CNT_OPT : Nat := 0x18040
abbrev DSP_RES_CNT_ACC : Nat := 0x18044
abbrev DSP_RES_CNT_SHIFT : Nat := 0x18048
abbrev DSP_RES_CNT_COLD : Nat := 0x1804C
abbrev DSP_RES_CNT_FAIL : Nat := 0x18050
abbrev DSP_RES_CNT_DISCARD : Nat := 0x18054
abbrev DSP_RES_CNT_NOPUB : Nat := 0x18058
abbrev DSP_RES_CNT_ENCSAT : Nat := 0x1805C
abbrev DSP_RES_IRQ : Nat := 0x18060
abbrev DSP_RES_IRQ_EN : Nat := 0x18064
abbrev DSP_RES_INJ : Nat := 0x18068
abbrev DSP_RES_NV1 : Nat := 0x18070
abbrev DSP_RES_SB : Nat := 0x18074

/-! ## SLV -/
abbrev SLV_CTRL : Nat := 0x20000
abbrev SLV_DELTA1 : Nat := 0x20004
abbrev SLV_DELTA2 : Nat := 0x20008
abbrev SLV_PIVMIN : Nat := 0x2000C
abbrev SLV_STEPFRAC : Nat := 0x20010
abbrev SLV_PUSH : Nat := 0x20014
abbrev SLV_STAT : Nat := 0x20040
abbrev SLV_RUN : Nat := 0x20044
abbrev SLV_WAVE : Nat := 0x20048
abbrev SLV_TASK : Nat := 0x2004C
abbrev SLV_MAP : Nat := 0x20050
abbrev SLV_MAPCNT : Nat := 0x20054
abbrev SLV_FIRSTQ : Nat := 0x20058
abbrev SLV_LASTSTOP : Nat := 0x2005C
abbrev SLV_N : Nat := 0x20060
abbrev SLV_FLINES : Nat := 0x20064
abbrev SLV_ROOTVAL : Nat := 0x2006C
abbrev SLV_FABITER : Nat := 0x20070
abbrev SLV_MACITER : Nat := 0x20074
abbrev SLV_GEOM : Nat := 0x20068
abbrev SLV_NQ : Nat := 0x20078
abbrev SLV_CNT_SOLVE : Nat := 0x20080
abbrev SLV_CNT_ITER : Nat := 0x20084
abbrev SLV_CNT_REJ_RANGE : Nat := 0x20088
abbrev SLV_CNT_REJ_FAB : Nat := 0x2008C
abbrev SLV_CNT_PIVFIX : Nat := 0x20090
abbrev SLV_CNT_HEADROOM : Nat := 0x20094
abbrev SLV_CNT_SAT : Nat := 0x20098
abbrev SLV_CNT_NOSTART : Nat := 0x2009C
abbrev SLV_CNT_NARROW : Nat := 0x200A0
abbrev SLV_IRQ : Nat := 0x200B0
abbrev SLV_IRQ_EN : Nat := 0x200B4
abbrev SLV_INJ : Nat := 0x200B8
abbrev SLV_LANE_n_STAT (n : Nat) : Nat := 0x20100 + 0x4 * n
abbrev SLV_LANE_n_CNT (n : Nat) : Nat := 0x20180 + 0x4 * n

/-! ## FAB -/
abbrev FAB_LCHK : Nat := 0x28004
abbrev FAB_DROPLIM : Nat := 0x28008
abbrev FAB_SCRUB_CTRL : Nat := 0x2800C
abbrev FAB_SCRUB_STAT : Nat := 0x28010
abbrev FAB_REPAIR_CTRL : Nat := 0x28014
abbrev FAB_SPARE : Nat := 0x28018
abbrev FAB_MAP_SEQ : Nat := 0x2801C
abbrev FAB_STAT : Nat := 0x28020
abbrev FAB_LASTDROP : Nat := 0x28024
abbrev FAB_CNT_RESEND_p (p : Nat) : Nat := 0x28040 + 0x4 * p
abbrev FAB_CNT_DROP_p (p : Nat) : Nat := 0x28060 + 0x4 * p
abbrev FAB_CNT_LANEFAIL : Nat := 0x28080
abbrev FAB_CNT_LINEREP : Nat := 0x28084
abbrev FAB_CNT_BANKFAIL : Nat := 0x28088
abbrev FAB_CNT_SCRUBPASS : Nat := 0x2808C
abbrev FAB_CNT_DRAMFIX : Nat := 0x28090
abbrev FAB_CNT_DRAMTRAIN : Nat := 0x28094
abbrev FAB_CNT_MAPWRITE : Nat := 0x28098
abbrev FAB_IRQ : Nat := 0x280A0
abbrev FAB_IRQ_EN : Nat := 0x280A4
abbrev FAB_INJ : Nat := 0x280A8
abbrev FAB_BANK_p_STAT (p : Nat) : Nat := 0x28100 + 0x4 * p
abbrev FAB_LANE_n_DROPS (n : Nat) : Nat := 0x28200 + 0x4 * n

/-! ## LOOP -/
abbrev LOOP_STAT : Nat := 0x30000
abbrev LOOP_INFO : Nat := 0x30004
abbrev LOOP_DEMAND : Nat := 0x30008
abbrev LOOP_RUN_LO : Nat := 0x3000C
abbrev LOOP_RUN_HI : Nat := 0x30010
abbrev LOOP_FLAG_LO : Nat := 0x30014
abbrev LOOP_FLAG_HI : Nat := 0x30018
abbrev LOOP_CNT_REFUSE : Nat := 0x30020
abbrev LOOP_CNT_LATE : Nat := 0x30024
abbrev LOOP_CNT_SKIP : Nat := 0x30028
abbrev LOOP_CNT_SAT : Nat := 0x3002C
abbrev LOOP_IRQ : Nat := 0x30040
abbrev LOOP_IRQ_EN : Nat := 0x30044
abbrev LOOP_INJ : Nat := 0x30048
abbrev LOOP_n_CTRL (n : Nat) : Nat := 0x31000 + 0x40 * n
abbrev LOOP_n_PERIOD (n : Nat) : Nat := 0x31004 + 0x40 * n
abbrev LOOP_n_OFFSET (n : Nat) : Nat := 0x31008 + 0x40 * n
abbrev LOOP_n_SP (n : Nat) : Nat := 0x3100C + 0x40 * n
abbrev LOOP_n_INIT (n : Nat) : Nat := 0x31010 + 0x40 * n
abbrev LOOP_n_PV (n : Nat) : Nat := 0x31014 + 0x40 * n
abbrev LOOP_n_OUT (n : Nat) : Nat := 0x31018 + 0x40 * n
abbrev LOOP_n_STAT (n : Nat) : Nat := 0x3101C + 0x40 * n
abbrev LOOP_n_DLY_LAST (n : Nat) : Nat := 0x31020 + 0x40 * n
abbrev LOOP_n_DLY_MAX (n : Nat) : Nat := 0x31024 + 0x40 * n
abbrev LOOP_n_CNT_SAMPLE (n : Nat) : Nat := 0x31028 + 0x40 * n
abbrev LOOP_n_CNT_LATE (n : Nat) : Nat := 0x3102C + 0x40 * n
abbrev LOOP_n_CNT_SKIP (n : Nat) : Nat := 0x31030 + 0x40 * n
abbrev LOOP_n_CNT_SAT (n : Nat) : Nat := 0x31034 + 0x40 * n
abbrev LOOP_n_Bb_Sj_Ck (n b j k : Nat) : Nat := 0x32000 + 0x180 * n + 0xC0 * b + 0x18 * j + 0x4 * k

/-! ## FBP -/
abbrev FBP_CTRL : Nat := 0x38000
abbrev FBP_CYCLE : Nat := 0x38004
abbrev FBP_WDOG : Nat := 0x38008
abbrev FBP_STATE : Nat := 0x3800C
abbrev FBP_NINST : Nat := 0x38010
abbrev FBP_DATASIZE : Nat := 0x38014
abbrev FBP_WCET : Nat := 0x38018
abbrev FBP_CYC_LO : Nat := 0x3801C
abbrev FBP_EXEC_LAST : Nat := 0x38020
abbrev FBP_EXEC_MAX : Nat := 0x38024
abbrev FBP_DONE_LAST : Nat := 0x38028
abbrev FBP_TRAP : Nat := 0x3802C
abbrev FBP_STAT : Nat := 0x38040
abbrev FBP_CNT_CYCLE : Nat := 0x38050
abbrev FBP_CNT_WDOG : Nat := 0x38054
abbrev FBP_CNT_TRAP : Nat := 0x38058
abbrev FBP_CNT_GROUP : Nat := 0x3805C
abbrev FBP_CNT_REFUSE : Nat := 0x38060
abbrev FBP_CNT_FORCE : Nat := 0x38064
abbrev FBP_IRQ : Nat := 0x38070
abbrev FBP_IRQ_EN : Nat := 0x38074
abbrev FBP_INJ : Nat := 0x38078
abbrev FBP_FORCE_CNT : Nat := 0x38100
abbrev FBP_FORCE_CTRL : Nat := 0x38104
abbrev FBP_FORCE_CMD : Nat := 0x38108
abbrev FBP_FORCE_MASK_c (c : Nat) : Nat := 0x38110 + 0x4 * c
abbrev FBP_FORCE_c_n (c n : Nat) : Nat := 0x38400 + 0x80 * c + 0x4 * n
abbrev FBP_IDW_ADDR_k (k : Nat) : Nat := 0x38800 + 0x8 * k
abbrev FBP_IDW_VAL_k (k : Nat) : Nat := 0x38804 + 0x8 * k
abbrev FBP_XV_k (k : Nat) : Nat := 0x3C000 + 0x4 * k

/-! ## AIN -/
abbrev AIN_STAT : Nat := 0x40000
abbrev AIN_CAL_CTRL : Nat := 0x40004
abbrev AIN_CAL_TOL : Nat := 0x40008
abbrev AIN_PLAUS_0 : Nat := 0x4000C
abbrev AIN_PLAUS_1 : Nat := 0x40010
abbrev AIN_CNT_OVR : Nat := 0x40020
abbrev AIN_CNT_OPEN : Nat := 0x40024
abbrev AIN_CNT_REV : Nat := 0x40028
abbrev AIN_CNT_SHORT : Nat := 0x4002C
abbrev AIN_CNT_PLAUS : Nat := 0x40030
abbrev AIN_CNT_CAL : Nat := 0x40034
abbrev AIN_CNT_CALFAIL : Nat := 0x40038
abbrev AIN_CNT_REF : Nat := 0x4003C
abbrev AIN_IRQ : Nat := 0x40040
abbrev AIN_IRQ_EN : Nat := 0x40044
abbrev AIN_INJ : Nat := 0x40048
abbrev AIN_BANK_b_STAT (b : Nat) : Nat := 0x40100 + 0x10 * b
abbrev AIN_BANK_b_REFUV (b : Nat) : Nat := 0x40104 + 0x10 * b
abbrev AIN_n_RATE (n : Nat) : Nat := 0x41000 + 0x40 * n
abbrev AIN_n_RAW (n : Nat) : Nat := 0x41004 + 0x40 * n
abbrev AIN_n_VAL (n : Nat) : Nat := 0x41008 + 0x40 * n
abbrev AIN_n_STAMP (n : Nat) : Nat := 0x41014 + 0x40 * n
abbrev AIN_n_FIELD (n : Nat) : Nat := 0x41018 + 0x40 * n
abbrev AIN_n_FLAGS (n : Nat) : Nat := 0x4100C + 0x40 * n
abbrev AIN_n_STAT (n : Nat) : Nat := 0x41010 + 0x40 * n
abbrev AIN_n_CAL_OFS (n : Nat) : Nat := 0x4101C + 0x40 * n
abbrev AIN_n_CAL_GAIN (n : Nat) : Nat := 0x41020 + 0x40 * n
abbrev AIN_n_CNT_CONV (n : Nat) : Nat := 0x41024 + 0x40 * n
abbrev AIN_n_CNT_BAD (n : Nat) : Nat := 0x41028 + 0x40 * n

/-! ## AOUT -/
abbrev AOUT_STAT : Nat := 0x44000
abbrev AOUT_DEV : Nat := 0x44004
abbrev AOUT_CNT_SHORT : Nat := 0x44010
abbrev AOUT_CNT_OPEN : Nat := 0x44014
abbrev AOUT_CNT_REV : Nat := 0x44018
abbrev AOUT_CNT_DEV : Nat := 0x4401C
abbrev AOUT_CNT_REFUSE : Nat := 0x44020
abbrev AOUT_IRQ : Nat := 0x44040
abbrev AOUT_IRQ_EN : Nat := 0x44044
abbrev AOUT_INJ : Nat := 0x44048
abbrev AOUT_n_SET (n : Nat) : Nat := 0x44100 + 0x20 * n
abbrev AOUT_n_OUT (n : Nat) : Nat := 0x44104 + 0x20 * n
abbrev AOUT_n_RB (n : Nat) : Nat := 0x44108 + 0x20 * n
abbrev AOUT_n_STAT (n : Nat) : Nat := 0x4410C + 0x20 * n

/-! ## DIO -/
abbrev DIO_STAT : Nat := 0x46000
abbrev DIO_FLD : Nat := 0x46004
abbrev DIO_DI_STATE : Nat := 0x46008
abbrev DIO_DI_VALID : Nat := 0x4600C
abbrev DIO_DO_OUT : Nat := 0x46014
abbrev DIO_DO_SET : Nat := 0x46010
abbrev DIO_DO_RETRY : Nat := 0x46018
abbrev DIO_CNT_DIFAULT : Nat := 0x46020
abbrev DIO_CNT_DOSHORT : Nat := 0x46024
abbrev DIO_CNT_DOOPEN : Nat := 0x46028
abbrev DIO_CNT_DOREV : Nat := 0x4602C
abbrev DIO_CNT_FLD : Nat := 0x46030
abbrev DIO_CNT_REFUSE : Nat := 0x46034
abbrev DIO_IRQ : Nat := 0x46040
abbrev DIO_IRQ_EN : Nat := 0x46044
abbrev DIO_INJ : Nat := 0x46048
abbrev DIO_DI_n_CTRL (n : Nat) : Nat := 0x46100 + 0x10 * n
abbrev DIO_DI_n_CNT (n : Nat) : Nat := 0x46104 + 0x10 * n
abbrev DIO_DI_n_UA (n : Nat) : Nat := 0x4610C + 0x10 * n
abbrev DIO_DI_n_STAT (n : Nat) : Nat := 0x46108 + 0x10 * n
abbrev DIO_DO_n_CTRL (n : Nat) : Nat := 0x46400 + 0x10 * n
abbrev DIO_DO_n_STAT (n : Nat) : Nat := 0x46404 + 0x10 * n
abbrev DIO_DO_n_MA (n : Nat) : Nat := 0x46408 + 0x10 * n

/-! ## MTR -/
abbrev MTR_STAT : Nat := 0x48000
abbrev MTR_CLK : Nat := 0x48004
abbrev MTR_SNAP_CTRL : Nat := 0x48008
abbrev MTR_SNAP_EPOCH_LO : Nat := 0x4800C
abbrev MTR_NVSAVE : Nat := 0x48010
abbrev MTR_RESTORE : Nat := 0x48014
abbrev MTR_CNT_MODFAULT : Nat := 0x48020
abbrev MTR_CNT_BADLAP : Nat := 0x48024
abbrev MTR_CNT_WRAP : Nat := 0x48028
abbrev MTR_CNT_NVSAVE : Nat := 0x4802C
abbrev MTR_CNT_THMERR : Nat := 0x48030
abbrev MTR_IRQ : Nat := 0x48040
abbrev MTR_IRQ_EN : Nat := 0x48044
abbrev MTR_INJ : Nat := 0x48048
abbrev MTR_F_f_CFG (f : Nat) : Nat := 0x49000 + 0x400 * f
abbrev MTR_F_f_VFS (f : Nat) : Nat := 0x49004 + 0x400 * f
abbrev MTR_F_f_IFS (f : Nat) : Nat := 0x49008 + 0x400 * f
abbrev MTR_F_f_IRATED (f : Nat) : Nat := 0x4900C + 0x400 * f
abbrev MTR_F_f_MODE (f : Nat) : Nat := 0x49010 + 0x400 * f
abbrev MTR_F_f_STAT (f : Nat) : Nat := 0x49014 + 0x400 * f
abbrev MTR_F_f_FREQ (f : Nat) : Nat := 0x49018 + 0x400 * f
abbrev MTR_F_f_CNT_BADLAP (f : Nat) : Nat := 0x4901C + 0x400 * f
abbrev MTR_F_f_p_VRMS (f p : Nat) : Nat := 0x49040 + 0x400 * f + 0x40 * p
abbrev MTR_F_f_p_IRMS (f p : Nat) : Nat := 0x49044 + 0x400 * f + 0x40 * p
abbrev MTR_F_f_p_P (f p : Nat) : Nat := 0x49048 + 0x400 * f + 0x40 * p
abbrev MTR_F_f_p_Q (f p : Nat) : Nat := 0x4904C + 0x400 * f + 0x40 * p
abbrev MTR_F_f_p_S (f p : Nat) : Nat := 0x49050 + 0x400 * f + 0x40 * p
abbrev MTR_F_f_p_PF (f p : Nat) : Nat := 0x49054 + 0x400 * f + 0x40 * p
abbrev MTR_F_f_p_THDV (f p : Nat) : Nat := 0x49058 + 0x400 * f + 0x40 * p
abbrev MTR_F_f_p_THDI (f p : Nat) : Nat := 0x4905C + 0x400 * f + 0x40 * p
abbrev MTR_F_f_TOT_P (f : Nat) : Nat := 0x49100 + 0x400 * f
abbrev MTR_F_f_TOT_Q (f : Nat) : Nat := 0x49104 + 0x400 * f
abbrev MTR_F_f_TOT_S (f : Nat) : Nat := 0x49108 + 0x400 * f
abbrev MTR_F_f_p_STATE (f p : Nat) : Nat := 0x49060 + 0x400 * f + 0x40 * p
abbrev MTR_F_f_E_k_LO (f k : Nat) : Nat := 0x49140 + 0x400 * f + 0x8 * k
abbrev MTR_F_f_E_k_HI (f k : Nat) : Nat := 0x49144 + 0x400 * f + 0x8 * k
abbrev MTR_F_f_UNMEAS_LO (f : Nat) : Nat := 0x49200 + 0x400 * f
abbrev MTR_F_f_UNMEAS_HI (f : Nat) : Nat := 0x49204 + 0x400 * f
abbrev MTR_F_f_UNSAVED_AI (f : Nat) : Nat := 0x49208 + 0x400 * f
abbrev MTR_F_f_UNSAVED_AE (f : Nat) : Nat := 0x4920C + 0x400 * f
abbrev MTR_F_f_SNAP_t (f t : Nat) : Nat := 0x49210 + 0x400 * f + 0x4 * t
abbrev MTR_F_f_GAIN_c (f c : Nat) : Nat := 0x49240 + 0x400 * f + 0x8 * c
abbrev MTR_F_f_OFS_c (f c : Nat) : Nat := 0x49244 + 0x400 * f + 0x8 * c
abbrev MTR_F_f_p_PGAIN (f p : Nat) : Nat := 0x49280 + 0x400 * f + 0x20 * p
abbrev MTR_F_f_p_POFS (f p : Nat) : Nat := 0x49284 + 0x400 * f + 0x20 * p
abbrev MTR_F_f_p_QGAIN (f p : Nat) : Nat := 0x49288 + 0x400 * f + 0x20 * p
abbrev MTR_F_f_p_QOFS (f p : Nat) : Nat := 0x4928C + 0x400 * f + 0x20 * p
abbrev MTR_F_f_p_PHI (f p : Nat) : Nat := 0x49290 + 0x400 * f + 0x20 * p
abbrev MTR_F_f_SEGTH_i (f i : Nat) : Nat := 0x492E0 + 0x400 * f + 0x4 * i
abbrev MTR_F_f_p_SGAIN_s (f p s : Nat) : Nat := 0x49300 + 0x400 * f + 0x40 * p + 0x8 * s
abbrev MTR_F_f_p_SPHI_s (f p s : Nat) : Nat := 0x49304 + 0x400 * f + 0x40 * p + 0x8 * s
abbrev MTR_F_f_H_q_h (f q h : Nat) : Nat := 0x4C000 + 0x800 * f + 0x100 * q + 0x4 * h
abbrev MTR_T_t_CFG (t : Nat) : Nat := 0x4E000 + 0x40 * t
abbrev MTR_T_t_KPULSE (t : Nat) : Nat := 0x4E004 + 0x40 * t
abbrev MTR_T_t_DTMIN (t : Nat) : Nat := 0x4E008 + 0x40 * t
abbrev MTR_T_t_QCUT (t : Nat) : Nat := 0x4E00C + 0x40 * t
abbrev MTR_T_t_PNOM (t : Nat) : Nat := 0x4E010 + 0x40 * t
abbrev MTR_T_t_STAT (t : Nat) : Nat := 0x4E014 + 0x40 * t
abbrev MTR_T_t_FLOW (t : Nat) : Nat := 0x4E018 + 0x40 * t
abbrev MTR_T_t_POWER (t : Nat) : Nat := 0x4E01C + 0x40 * t
abbrev MTR_T_t_ERRLAPS (t : Nat) : Nat := 0x4E038 + 0x40 * t
abbrev MTR_T_t_UNSAVED (t : Nat) : Nat := 0x4E03C + 0x40 * t
abbrev MTR_T_t_HEAT_LO (t : Nat) : Nat := 0x4E020 + 0x40 * t
abbrev MTR_T_t_HEAT_HI (t : Nat) : Nat := 0x4E024 + 0x40 * t
abbrev MTR_T_t_COOL_LO (t : Nat) : Nat := 0x4E028 + 0x40 * t
abbrev MTR_T_t_COOL_HI (t : Nat) : Nat := 0x4E02C + 0x40 * t
abbrev MTR_T_t_VOL_LO (t : Nat) : Nat := 0x4E030 + 0x40 * t
abbrev MTR_T_t_VOL_HI (t : Nat) : Nat := 0x4E034 + 0x40 * t

/-! ## CAN -/
abbrev CAN_CTRL (ch : Nat) : Nat := 0x50000 + 0x1000 * ch
abbrev CAN_NBT (ch : Nat) : Nat := 0x50004 + 0x1000 * ch
abbrev CAN_DBT (ch : Nat) : Nat := 0x50008 + 0x1000 * ch
abbrev CAN_TDC (ch : Nat) : Nat := 0x5000C + 0x1000 * ch
abbrev CAN_STATE (ch : Nat) : Nat := 0x50010 + 0x1000 * ch
abbrev CAN_LINE (ch : Nat) : Nat := 0x50014 + 0x1000 * ch
abbrev CAN_TSC (ch : Nat) : Nat := 0x50018 + 0x1000 * ch
abbrev CAN_CORR_TSC (ch : Nat) : Nat := 0x5001C + 0x1000 * ch
abbrev CAN_CORR_SEC_LO (ch : Nat) : Nat := 0x50020 + 0x1000 * ch
abbrev CAN_CORR_SEC_HI (ch : Nat) : Nat := 0x50024 + 0x1000 * ch
abbrev CAN_CORR_NS (ch : Nat) : Nat := 0x50028 + 0x1000 * ch
abbrev CAN_STAT (ch : Nat) : Nat := 0x50040 + 0x1000 * ch
abbrev CAN_CNT_RXFRAME (ch : Nat) : Nat := 0x50050 + 0x1000 * ch
abbrev CAN_CNT_TXFRAME (ch : Nat) : Nat := 0x50054 + 0x1000 * ch
abbrev CAN_CNT_NOMATCH (ch : Nat) : Nat := 0x50058 + 0x1000 * ch
abbrev CAN_CNT_RXDROP (ch : Nat) : Nat := 0x5005C + 0x1000 * ch
abbrev CAN_CNT_STGOVR (ch : Nat) : Nat := 0x50060 + 0x1000 * ch
abbrev CAN_CNT_ERR (ch : Nat) : Nat := 0x50064 + 0x1000 * ch
abbrev CAN_CNT_BUSOFF (ch : Nat) : Nat := 0x50068 + 0x1000 * ch
abbrev CAN_CNT_LINEFAULT (ch : Nat) : Nat := 0x5006C + 0x1000 * ch
abbrev CAN_CNT_TXREPLACE (ch : Nat) : Nat := 0x50070 + 0x1000 * ch
abbrev CAN_CNT_REFUSE (ch : Nat) : Nat := 0x50074 + 0x1000 * ch
abbrev CAN_IRQ (ch : Nat) : Nat := 0x50080 + 0x1000 * ch
abbrev CAN_IRQ_EN (ch : Nat) : Nat := 0x50084 + 0x1000 * ch
abbrev CAN_INJ (ch : Nat) : Nat := 0x50088 + 0x1000 * ch
abbrev CAN_RXQ_q_STAT (ch q : Nat) : Nat := 0x500C0 + 0x1000 * ch + 0x10 * q
abbrev CAN_RXQ_q_POP (ch q : Nat) : Nat := 0x500C4 + 0x1000 * ch + 0x10 * q
abbrev CAN_RXQ_q_HEAD_w (ch q w : Nat) : Nat := 0x50100 + 0x1000 * ch + 0x50 * q + 0x4 * w
abbrev CAN_FILT_k_MASK (ch k : Nat) : Nat := 0x50200 + 0x1000 * ch + 0x8 * k
abbrev CAN_FILT_k_MATCH (ch k : Nat) : Nat := 0x50204 + 0x1000 * ch + 0x8 * k
abbrev CAN_FILT_ACT_j (ch j : Nat) : Nat := 0x50400 + 0x1000 * ch + 0x4 * j
abbrev CAN_TXB_b_CTRL (ch b : Nat) : Nat := 0x50600 + 0x1000 * ch + 0x50 * b
abbrev CAN_TXB_b_ID (ch b : Nat) : Nat := 0x50604 + 0x1000 * ch + 0x50 * b
abbrev CAN_TXB_b_FMT (ch b : Nat) : Nat := 0x50608 + 0x1000 * ch + 0x50 * b
abbrev CAN_TXB_b_STAMP (ch b : Nat) : Nat := 0x5060C + 0x1000 * ch + 0x50 * b
abbrev CAN_TXB_b_DATA_i (ch b i : Nat) : Nat := 0x50610 + 0x1000 * ch + 0x50 * b + 0x4 * i

/-! ## ETH -/
abbrev ETH_STAT : Nat := 0x58000
abbrev ETH_CTRL : Nat := 0x58004
abbrev ETH_TEL_INFO : Nat := 0x58008
abbrev ETH_PORT_p_CFG (p : Nat) : Nat := 0x58010 + 0x20 * p
abbrev ETH_PORT_p_ADDR (p : Nat) : Nat := 0x58014 + 0x20 * p
abbrev ETH_PORT_p_GW (p : Nat) : Nat := 0x5801C + 0x20 * p
abbrev ETH_PORT_p_NET (p : Nat) : Nat := 0x58018 + 0x20 * p
abbrev ETH_PORT_p_LINK (p : Nat) : Nat := 0x58020 + 0x20 * p
abbrev ETH_PORT_p_MACLO (p : Nat) : Nat := 0x58024 + 0x20 * p
abbrev ETH_PORT_p_MACHI (p : Nat) : Nat := 0x58028 + 0x20 * p
abbrev ETH_PORT_p_CNT_RXERR (p : Nat) : Nat := 0x5802C + 0x20 * p
abbrev ETH_CNT_TXTEL : Nat := 0x58080
abbrev ETH_CNT_RXTEL : Nat := 0x58084
abbrev ETH_CNT_DROP_LEN : Nat := 0x58088
abbrev ETH_CNT_DROP_FMT : Nat := 0x5808C
abbrev ETH_CNT_DROP_UNKNOWN : Nat := 0x58090
abbrev ETH_CNT_DROP_AUTH : Nat := 0x58094
abbrev ETH_CNT_DROP_REPLAY : Nat := 0x58098
abbrev ETH_CNT_RXOVR : Nat := 0x5809C
abbrev ETH_CNT_ARPMISS : Nat := 0x580A0
abbrev ETH_CNT_NOKEY : Nat := 0x580A4
abbrev ETH_CNT_REFUSE : Nat := 0x580A8
abbrev ETH_LASTDROP : Nat := 0x580AC
abbrev ETH_IRQ : Nat := 0x580B0
abbrev ETH_IRQ_EN : Nat := 0x580B4
abbrev ETH_INJ : Nat := 0x580B8
abbrev ETH_SUBSEL : Nat := 0x580C0
abbrev ETH_SUBVIEW_w (w : Nat) : Nat := 0x580C4 + 0x4 * w
abbrev ETH_SUBRESET : Nat := 0x580E4

/-! ## PTP -/
abbrev PTP_CTRL : Nat := 0x5A000
abbrev PTP_STATE : Nat := 0x5A004
abbrev PTP_NOW_NS : Nat := 0x5A008
abbrev PTP_NOW_SEC_LO : Nat := 0x5A00C
abbrev PTP_NOW_SEC_HI : Nat := 0x5A010
abbrev PTP_NOW_FRAC : Nat := 0x5A014
abbrev PTP_RATE : Nat := 0x5A018
abbrev PTP_STEP_NS : Nat := 0x5A01C
abbrev PTP_STEP_SEC : Nat := 0x5A020
abbrev PTP_RAMP : Nat := 0x5A024
abbrev PTP_LOCKTHR : Nat := 0x5A030
abbrev PTP_UNLOCKTHR : Nat := 0x5A034
abbrev PTP_STEPLIM : Nat := 0x5A038
abbrev PTP_SLEW : Nat := 0x5A03C
abbrev PTP_HOLD : Nat := 0x5A040
abbrev PTP_REVERT : Nat := 0x5A044
abbrev PTP_DELAYMAX : Nat := 0x5A050
abbrev PTP_SERVO : Nat := 0x5A048
abbrev PTP_FILT : Nat := 0x5A04C
abbrev PTP_PORT_p_ING1G (p : Nat) : Nat := 0x5A060 + 0x10 * p
abbrev PTP_PORT_p_EGR1G (p : Nat) : Nat := 0x5A064 + 0x10 * p
abbrev PTP_PORT_p_ING100 (p : Nat) : Nat := 0x5A068 + 0x10 * p
abbrev PTP_PORT_p_EGR100 (p : Nat) : Nat := 0x5A06C + 0x10 * p
abbrev PTP_CLKID_LO : Nat := 0x5A080
abbrev PTP_CLKID_HI : Nat := 0x5A084
abbrev PTP_STAT : Nat := 0x5A090
abbrev PTP_CNT_SWITCH : Nat := 0x5A0A0
abbrev PTP_CNT_HOLDOVER : Nat := 0x5A0A4
abbrev PTP_CNT_STEP : Nat := 0x5A0A8
abbrev PTP_CNT_NODOM : Nat := 0x5A0AC
abbrev PTP_CNT_REFUSE : Nat := 0x5A0B0
abbrev PTP_IRQ : Nat := 0x5A0C0
abbrev PTP_IRQ_EN : Nat := 0x5A0C4
abbrev PTP_INJ : Nat := 0x5A0C8
abbrev PTP_DOM_d_CFG (d : Nat) : Nat := 0x5A100 + 0x80 * d
abbrev PTP_DOM_d_STATE (d : Nat) : Nat := 0x5A104 + 0x80 * d
abbrev PTP_DOM_d_GM_LO (d : Nat) : Nat := 0x5A108 + 0x80 * d
abbrev PTP_DOM_d_GM_HI (d : Nat) : Nat := 0x5A10C + 0x80 * d
abbrev PTP_DOM_d_OFS_NS (d : Nat) : Nat := 0x5A110 + 0x80 * d
abbrev PTP_DOM_d_DELAY_NS (d : Nat) : Nat := 0x5A114 + 0x80 * d
abbrev PTP_DOM_d_UTCOFS (d : Nat) : Nat := 0x5A118 + 0x80 * d
abbrev PTP_DOM_d_CNT_SYNC (d : Nat) : Nat := 0x5A120 + 0x80 * d
abbrev PTP_DOM_d_CNT_ANN (d : Nat) : Nat := 0x5A124 + 0x80 * d
abbrev PTP_DOM_d_CNT_DREQ (d : Nat) : Nat := 0x5A128 + 0x80 * d
abbrev PTP_DOM_d_CNT_DRESP (d : Nat) : Nat := 0x5A12C + 0x80 * d
abbrev PTP_DOM_d_CNT_DROP (d : Nat) : Nat := 0x5A130 + 0x80 * d
abbrev PTP_DOM_d_CNT_DELAYREJ (d : Nat) : Nat := 0x5A134 + 0x80 * d

/-! ## HWP -/
abbrev HWP_CFG : Nat := 0x5C000
abbrev HWP_STAT : Nat := 0x5C004
abbrev HWP_BOOT : Nat := 0x5C008
abbrev HWP_LOAD : Nat := 0x5C00C
abbrev HWP_LASTREFUSE : Nat := 0x5C010
abbrev HWP_CNT_OK : Nat := 0x5C020
abbrev HWP_CNT_REFUSE : Nat := 0x5C024
abbrev HWP_CNT_LENGTH : Nat := 0x5C028
abbrev HWP_CNT_RANGE : Nat := 0x5C02C
abbrev HWP_CNT_BUSY : Nat := 0x5C030
abbrev HWP_CNT_AUTH : Nat := 0x5C034
abbrev HWP_CNT_OPREF : Nat := 0x5C038
abbrev HWP_CNT_RESEND : Nat := 0x5C03C
abbrev HWP_IRQ : Nat := 0x5C040
abbrev HWP_IRQ_EN : Nat := 0x5C044
abbrev HWP_INJ : Nat := 0x5C048
abbrev HWP_CNT_PARTIAL : Nat := 0x5C04C
abbrev HWP_SLOT_k_SEQ (k : Nat) : Nat := 0x5C100 + 0x4 * k

/-! ## PAIR -/
abbrev PAIR_CFG : Nat := 0x60000
abbrev PAIR_KEY : Nat := 0x60004
abbrev PAIR_OWL : Nat := 0x60008
abbrev PAIR_WIT_ADDR_A : Nat := 0x60104
abbrev PAIR_WIT_ADDR_B : Nat := 0x60108
abbrev PAIR_PORTS : Nat := 0x6000C
abbrev PAIR_TIMING : Nat := 0x60010
abbrev PAIR_NVMASK : Nat := 0x60014
abbrev PAIR_CTRL : Nat := 0x60018
abbrev PAIR_STATE : Nat := 0x60020
abbrev PAIR_GRANTSEQ : Nat := 0x60024
abbrev PAIR_MIRROR_LO : Nat := 0x60028
abbrev PAIR_UNIT : Nat := 0x60030
abbrev PAIR_BULK : Nat := 0x60034
abbrev PAIR_LAG : Nat := 0x6002C
abbrev PAIR_STAT : Nat := 0x60040
abbrev PAIR_CNT_TOOK : Nat := 0x60050
abbrev PAIR_CNT_LOST : Nat := 0x60054
abbrev PAIR_CNT_SYNCLOSS : Nat := 0x60058
abbrev PAIR_CNT_JOIN : Nat := 0x6005C
abbrev PAIR_CNT_JOINFAIL : Nat := 0x60060
abbrev PAIR_CNT_CONTEND : Nat := 0x60064
abbrev PAIR_CNT_OWLDROP : Nat := 0x60068
abbrev PAIR_CNT_UNITDROP : Nat := 0x6006C
abbrev PAIR_CNT_REFUSE : Nat := 0x60070
abbrev PAIR_IRQ : Nat := 0x60080
abbrev PAIR_IRQ_EN : Nat := 0x60084
abbrev PAIR_INJ : Nat := 0x60088
abbrev PAIR_WIT_CFG : Nat := 0x60100
abbrev PAIR_WIT_STATE : Nat := 0x6010C
abbrev PAIR_WIT_SEQ : Nat := 0x60110
abbrev PAIR_WIT_CTRL : Nat := 0x60114

/-! ## KEY -/
abbrev KEY_UID (i : Nat) : Nat := 0x68000 + 0x4 * i
abbrev KEY_UPD_CTRL : Nat := 0x68010
abbrev KEY_UPD_STAT : Nat := 0x68014
abbrev KEY_UPD_TALLY : Nat := 0x68018
abbrev KEY_CHAL : Nat := 0x6801C
abbrev KEY_STAT : Nat := 0x68040
abbrev KEY_CNT_UPD : Nat := 0x68050
abbrev KEY_CNT_UPDREFUSE : Nat := 0x68054
abbrev KEY_CNT_CHAL : Nat := 0x68058
abbrev KEY_CNT_CHALDROP : Nat := 0x6805C
abbrev KEY_CNT_REFUSE : Nat := 0x68060
abbrev KEY_IRQ : Nat := 0x68070
abbrev KEY_IRQ_EN : Nat := 0x68074
abbrev KEY_INJ : Nat := 0x68078
abbrev KEY_UPD_BUF_w (w : Nat) : Nat := 0x68100 + 0x4 * w
abbrev KEY_SLOT_k_INFO (k : Nat) : Nat := 0x68200 + 0x8 * k
abbrev KEY_SLOT_k_SEQ (k : Nat) : Nat := 0x68204 + 0x8 * k
abbrev KEY_SLOT_k_CHECK (k : Nat) : Nat := 0x68400 + 0x4 * k

/-! ## NVS -/
abbrev NVS_CFG : Nat := 0x70000
abbrev NVS_CTRL : Nat := 0x70004
abbrev NVS_WARM : Nat := 0x70008
abbrev NVS_WARM_SEQ : Nat := 0x7000C
abbrev NVS_STAT : Nat := 0x70010
abbrev NVS_UNLOCK_LO : Nat := 0x70020
abbrev NVS_UNLOCK_HI : Nat := 0x70024
abbrev NVS_PWSET_LO : Nat := 0x7002C
abbrev NVS_PWSET_HI : Nat := 0x70030
abbrev NVS_UNLOCK_CTRL : Nat := 0x70028
abbrev NVS_PWSET_CTRL : Nat := 0x70034
abbrev NVS_TALLY_SEL : Nat := 0x70040
abbrev NVS_TALLY_VAL : Nat := 0x70044
abbrev NVS_TALLY_CTRL : Nat := 0x70048
abbrev NVS_TALLY_STAT : Nat := 0x7004C
abbrev NVS_CNT_STORE : Nat := 0x70050
abbrev NVS_CNT_PAGE : Nat := 0x70054
abbrev NVS_CNT_VERIFY : Nat := 0x70058
abbrev NVS_CNT_DROP : Nat := 0x7005C
abbrev NVS_CNT_PWFAIL : Nat := 0x70060
abbrev NVS_CNT_REFUSE : Nat := 0x70064
abbrev NVS_CNT_TALLYREPAIR : Nat := 0x70068
abbrev NVS_IRQ : Nat := 0x70070
abbrev NVS_IRQ_EN : Nat := 0x70074
abbrev NVS_INJ : Nat := 0x70078
abbrev NVS_RGN_r_CFG (r : Nat) : Nat := 0x70100 + 0x10 * r
abbrev NVS_RGN_r_BASE (r : Nat) : Nat := 0x70104 + 0x10 * r
abbrev NVS_RGN_r_RDSLOTS (r : Nat) : Nat := 0x70108 + 0x10 * r
abbrev NVS_RGN_r_WRSLOTS (r : Nat) : Nat := 0x7010C + 0x10 * r

/-! ## RTC -/
abbrev RTC_TIME : Nat := 0x78000
abbrev RTC_SET_TIME : Nat := 0x78010
abbrev RTC_DATE : Nat := 0x78004
abbrev RTC_SET_DATE : Nat := 0x78014
abbrev RTC_SUBSEC : Nat := 0x78008
abbrev RTC_CTRL : Nat := 0x78018
abbrev RTC_ZONE : Nat := 0x7801C
abbrev RTC_TAIOFS : Nat := 0x78020
abbrev RTC_CFG : Nat := 0x78024
abbrev RTC_WAKE : Nat := 0x78028
abbrev RTC_TRIM_CTRL : Nat := 0x78030
abbrev RTC_TRIM_MEAS : Nat := 0x78034
abbrev RTC_CHG : Nat := 0x78038
abbrev RTC_BAT : Nat := 0x7803C
abbrev RTC_STAT : Nat := 0x78040
abbrev RTC_CNT_BADDATE : Nat := 0x78050
abbrev RTC_CNT_REFUSE : Nat := 0x78054
abbrev RTC_CNT_TRIM : Nat := 0x78058
abbrev RTC_CNT_TRIMDISC : Nat := 0x7805C
abbrev RTC_CNT_WAKE : Nat := 0x78060
abbrev RTC_IRQ : Nat := 0x78070
abbrev RTC_IRQ_EN : Nat := 0x78074
abbrev RTC_INJ : Nat := 0x78078

/-! ## SPR -/
abbrev SPR_CTRL : Nat := 0x7A000
abbrev SPR_MERGE : Nat := 0x7A004
abbrev SPR_HEAD : Nat := 0x7A008
abbrev SPR_VALID : Nat := 0x7A00C
abbrev SPR_OPSEC : Nat := 0x7A010
abbrev SPR_QUEUE : Nat := 0x7A014
abbrev SPR_HEADREP : Nat := 0x7A018
abbrev SPR_STAT : Nat := 0x7A040
abbrev SPR_CNT_REC : Nat := 0x7A050
abbrev SPR_CNT_MERGE : Nat := 0x7A054
abbrev SPR_CNT_QOVR : Nat := 0x7A058
abbrev SPR_CNT_SUPPRESS : Nat := 0x7A05C
abbrev SPR_CNT_CRCBAD : Nat := 0x7A060
abbrev SPR_CNT_REFUSE : Nat := 0x7A064
abbrev SPR_IRQ : Nat := 0x7A070
abbrev SPR_IRQ_EN : Nat := 0x7A074
abbrev SPR_INJ : Nat := 0x7A078
abbrev SPR_FW_CODE : Nat := 0x7A080
abbrev SPR_FW_DATA (i : Nat) : Nat := 0x7A084 + 0x4 * i
abbrev SPR_FW_CTRL : Nat := 0x7A090
abbrev SPR_RATE_i (i : Nat) : Nat := 0x7A100 + 0x4 * i

/-! ## BOOT -/
abbrev BOOT_CUR : Nat := 0x7C000
abbrev BOOT_PREV : Nat := 0x7C004
abbrev BOOT_WAY : Nat := 0x7C008
abbrev BOOT_CTRL : Nat := 0x7C00C
abbrev BOOT_LEDGER_HEAD : Nat := 0x7C010
abbrev BOOT_STAT : Nat := 0x7C040
abbrev BOOT_CNT_LEDGERBAD : Nat := 0x7C050
abbrev BOOT_CNT_REFUSE : Nat := 0x7C054
abbrev BOOT_IRQ : Nat := 0x7C070
abbrev BOOT_IRQ_EN : Nat := 0x7C074
abbrev BOOT_INJ : Nat := 0x7C078

/-! ## PWR -/
abbrev PWR_VBULK : Nat := 0x7E000
abbrev PWR_LASTSHUT : Nat := 0x7E004
abbrev PWR_STAT : Nat := 0x7E040
abbrev PWR_CNT_DIP : Nat := 0x7E050
abbrev PWR_IRQ : Nat := 0x7E070
abbrev PWR_IRQ_EN : Nat := 0x7E074
abbrev PWR_INJ : Nat := 0x7E078

end Reg

/-- Rows of block ZID. -/
def rowsZid : List RegRow := [
  ⟨Reg.ZID_DEV, [], [⟨0, 16, .ro, .val 0x800⟩, ⟨16, 16, .ro, .val 0x5A1E⟩]⟩, -- ZID_DEV: DEVICE FAMILY
  ⟨Reg.ZID_REV, [], [⟨8, 8, .ro, .val 0⟩, ⟨16, 8, .ro, .val 0⟩, ⟨24, 8, .ro, .val 1⟩]⟩, -- ZID_REV: STEP MINOR MAJOR
  ⟨Reg.ZID_CTRL, [], [⟨0, 1, .rw, .val 0⟩, ⟨8, 1, .wo, .val 0⟩]⟩, -- ZID_CTRL: INJEN LEDTEST
  ⟨Reg.ZID_STAT, [], [⟨0, 1, .w1c, .val 0⟩, ⟨1, 1, .w1c, .val 0⟩, ⟨2, 1, .w1c, .val 0⟩]⟩, -- ZID_STAT: TRIG PINERR REFUSED
  ⟨Reg.ZID_FAULT_CFG, [], [⟨0, 12, .rw, .val 200⟩, ⟨16, 1, .rw, .val 0⟩]⟩, -- ZID_FAULT_CFG: MINW LATCH
  ⟨Reg.ZID_FAULT_CTRL, [], [⟨0, 1, .rw, .val 0⟩, ⟨1, 1, .wo, .val 0⟩]⟩, -- ZID_FAULT_CTRL: HOLD ASSERT
  ⟨Reg.ZID_FAULT_SRC, [], [⟨1, 26, .rw, .val 0x3FFFFFF⟩]⟩, -- ZID_FAULT_SRC: BLOCK
  ⟨Reg.ZID_FAULT_STATE, [], [⟨0, 3, .ro, .val 1⟩, ⟨4, 1, .ro, .val 0⟩, ⟨16, 11, .ro, .val 0⟩]⟩, -- ZID_FAULT_STATE: PHASE PIN REMAIN
  ⟨Reg.ZID_FAULT_FIRST, [], [⟨0, 8, .ro, .val 0⟩, ⟨8, 5, .ro, .val 0⟩, ⟨16, 1, .ro, .val 0⟩]⟩, -- ZID_FAULT_FIRST: SOURCE BIT KIND
  ⟨Reg.ZID_FAULT_LAST, [], [⟨0, 8, .ro, .val 0⟩, ⟨8, 5, .ro, .val 0⟩, ⟨16, 1, .ro, .val 0⟩]⟩, -- ZID_FAULT_LAST: SOURCE BIT KIND
  ⟨Reg.ZID_LED_STAT, [], [⟨0, 2, .ro, .val 0⟩, ⟨2, 2, .ro, .val 0⟩, ⟨4, 1, .ro, .val 0⟩, ⟨5, 2, .ro, .val 0⟩]⟩, -- ZID_LED_STAT: RUN ACTIVE FORCE FAULT
  ⟨Reg.ZID_CNT_FAULT, [], [⟨0, 32, .ro, .val 0⟩]⟩, -- ZID_CNT_FAULT: COUNT
  ⟨Reg.ZID_CNT_REFUSE, [], [⟨0, 32, .ro, .val 0⟩]⟩, -- ZID_CNT_REFUSE: COUNT
  ⟨Reg.ZID_CNT_INJ, [], [⟨0, 32, .ro, .val 0⟩]⟩, -- ZID_CNT_INJ: COUNT
  ⟨Reg.ZID_IRQ, [], [⟨0, 1, .w1c, .val 0⟩, ⟨1, 1, .w1c, .val 0⟩]⟩, -- ZID_IRQ: TRIG PINERR
  ⟨Reg.ZID_IRQ_EN, [], [⟨0, 1, .rw, .val 0⟩, ⟨1, 1, .rw, .val 0⟩]⟩, -- ZID_IRQ_EN: TRIG PINERR
  ⟨Reg.ZID_INJ, [], [⟨0, 1, .rw, .val 0⟩]⟩ -- ZID_INJ: PINCHK
]

/-- Rows of block IMG. -/
def rowsImg : List RegRow := [
  ⟨Reg.IMG_LOAD_CTRL, [], [⟨0, 1, .wo, .val 0⟩, ⟨1, 1, .wo, .val 0⟩, ⟨2, 1, .wo, .val 0⟩, ⟨3, 1, .wo, .val 0⟩, ⟨8, 1, .wo, .val 0⟩]⟩, -- IMG_LOAD_CTRL: OPEN CHECK COMMIT ABORT SLOT
  ⟨Reg.IMG_LOAD_LEN, [], [⟨0, 25, .rw, .val 0⟩]⟩, -- IMG_LOAD_LEN: LEN
  ⟨Reg.IMG_LOAD_STAT, [], [⟨0, 8, .ro, .val 0⟩, ⟨8, 3, .ro, .val 0⟩, ⟨12, 1, .ro, .val 0⟩, ⟨13, 1, .ro, .val 0⟩, ⟨14, 1, .ro, .val 0⟩, ⟨16, 5, .ro, .val 0⟩]⟩, -- IMG_LOAD_STAT: CODE STATE SLOT FBONLY FLASHFAIL FAILSECT
  ⟨Reg.IMG_LOAD_RCVD, [], [⟨0, 32, .ro, .val 0⟩]⟩, -- IMG_LOAD_RCVD: BYTES
  ⟨Reg.IMG_ACT_CTRL, [], [⟨0, 1, .wo, .val 0⟩, ⟨8, 1, .wo, .val 0⟩, ⟨16, 1, .wo, .val 0⟩]⟩, -- IMG_ACT_CTRL: ACTIVATE SLOT FLOOR
  ⟨Reg.IMG_BOOT, [], [⟨0, 1, .rw, .nv⟩]⟩, -- IMG_BOOT: SLOT
  ⟨Reg.IMG_RUN, [], [⟨0, 1, .ro, .val 0⟩, ⟨1, 1, .ro, .val 0⟩, ⟨2, 1, .ro, .val 0⟩]⟩, -- IMG_RUN: SLOT VALID FALLBACK
  ⟨Reg.IMG_SLOTA_STAT, [], [⟨0, 2, .ro, .flash⟩]⟩, -- IMG_SLOTA_STAT: STATE
  ⟨Reg.IMG_SLOTB_STAT, [], [⟨0, 2, .ro, .flash⟩]⟩, -- IMG_SLOTB_STAT: STATE
  ⟨Reg.IMG_SLOTA_SERIAL, [], [⟨0, 32, .ro, .flash⟩]⟩, -- IMG_SLOTA_SERIAL: SERIAL
  ⟨Reg.IMG_SLOTB_SERIAL, [], [⟨0, 32, .ro, .flash⟩]⟩, -- IMG_SLOTB_SERIAL: SERIAL
  ⟨Reg.IMG_FLOOR, [], [⟨0, 32, .ro, .nv⟩]⟩, -- IMG_FLOOR: SERIAL
  ⟨Reg.IMG_SERIAL, [], [⟨0, 32, .ro, .val 0⟩]⟩, -- IMG_SERIAL: SERIAL
  ⟨Reg.IMG_SHASH 0, [(0x4, 8)], [⟨0, 32, .ro, .val 0⟩]⟩, -- IMG_SHASH: HASH
  ⟨Reg.IMG_DIGEST 0, [(0x4, 8)], [⟨0, 32, .ro, .val 0⟩]⟩, -- IMG_DIGEST: HASH
  ⟨Reg.IMG_STAT, [], [⟨0, 1, .w1c, .val 0⟩, ⟨1, 1, .w1c, .val 0⟩, ⟨2, 1, .w1c, .val 0⟩, ⟨3, 1, .w1c, .val 0⟩, ⟨4, 1, .w1c, .val 0⟩, ⟨5, 1, .w1c, .val 0⟩]⟩, -- IMG_STAT: REFUSED SIGFAIL OTHERSLOT NOIMG FLASHERR FALLBACK
  ⟨Reg.IMG_CNT_REFUSE, [], [⟨0, 32, .ro, .val 0⟩]⟩, -- IMG_CNT_REFUSE: COUNT
  ⟨Reg.IMG_CNT_CHUNK_REFUSE, [], [⟨0, 32, .ro, .val 0⟩]⟩, -- IMG_CNT_CHUNK_REFUSE: COUNT
  ⟨Reg.IMG_CNT_ACT, [], [⟨0, 32, .ro, .val 0⟩]⟩, -- IMG_CNT_ACT: COUNT
  ⟨Reg.IMG_CNT_FLASH, [], [⟨0, 32, .ro, .val 0⟩]⟩, -- IMG_CNT_FLASH: COUNT
  ⟨Reg.IMG_IRQ, [], [⟨0, 1, .w1c, .val 0⟩, ⟨1, 1, .w1c, .val 0⟩, ⟨2, 1, .w1c, .val 0⟩, ⟨3, 1, .w1c, .val 0⟩]⟩, -- IMG_IRQ: CHECKED COMMITTED REFUSED ACTIVATED
  ⟨Reg.IMG_IRQ_EN, [], [⟨0, 1, .rw, .val 0⟩, ⟨1, 1, .rw, .val 0⟩, ⟨2, 1, .rw, .val 0⟩, ⟨3, 1, .rw, .val 0⟩]⟩, -- IMG_IRQ_EN: CHECKED COMMITTED REFUSED ACTIVATED
  ⟨Reg.IMG_INJ, [], [⟨0, 1, .rw, .val 0⟩, ⟨1, 1, .rw, .val 0⟩, ⟨2, 1, .rw, .val 0⟩, ⟨3, 1, .rw, .val 0⟩]⟩ -- IMG_INJ: HDR_CRC SECT_CRC SIG FLASH_CRC
]

/-- Rows of block LAP. -/
def rowsLap : List RegRow := [
  ⟨Reg.LAP_SRC_CTRL, [], [⟨0, 2, .rw, .val 0⟩, ⟨2, 2, .rw, .val 0⟩, ⟨4, 2, .rw, .val 0⟩, ⟨8, 1, .rw, .val 0⟩, ⟨16, 8, .rw, .val 50⟩]⟩, -- LAP_SRC_CTRL: SEL FEEDER PHASE AUTORET HOLDOFF
  ⟨Reg.LAP_FREE_PERIOD, [], [⟨0, 25, .rw, .val 0x1312D00⟩]⟩, -- LAP_FREE_PERIOD: NS
  ⟨Reg.LAP_STAT, [], [⟨0, 1, .w1c, .val 0⟩, ⟨1, 1, .w1c, .val 0⟩, ⟨2, 1, .w1c, .val 0⟩, ⟨3, 1, .w1c, .val 0⟩]⟩, -- LAP_STAT: FALLBACK COAST OVSP BATONWAIT
  ⟨Reg.LAP_SRC_STAT, [], [⟨0, 2, .ro, .val 0⟩, ⟨2, 1, .ro, .val 0⟩, ⟨3, 1, .ro, .val 0⟩, ⟨4, 1, .ro, .val 0⟩, ⟨5, 1, .ro, .val 0⟩]⟩, -- LAP_SRC_STAT: CUR SLEW V_MAINS V_FEEDER V_NET
  ⟨Reg.LAP_PERIOD, [], [⟨0, 25, .ro, .val 0⟩]⟩, -- LAP_PERIOD: NS
  ⟨Reg.LAP_MAINS_FREQ, [], [⟨0, 17, .ro, .val 0⟩]⟩, -- LAP_MAINS_FREQ: MHZ
  ⟨Reg.LAP_COUNT_LO, [], [⟨0, 32, .ro, .val 0⟩]⟩, -- LAP_COUNT_LO: COUNT
  ⟨Reg.LAP_COUNT_HI, [], [⟨0, 32, .ro, .val 0⟩]⟩, -- LAP_COUNT_HI: COUNT
  ⟨Reg.LAP_TICK, [], [⟨0, 12, .ro, .val 0⟩]⟩, -- LAP_TICK: TICK
  ⟨Reg.LAP_CNT_FALLBACK, [], [⟨0, 32, .ro, .val 0⟩]⟩, -- LAP_CNT_FALLBACK: COUNT
  ⟨Reg.LAP_CNT_RETURN, [], [⟨0, 32, .ro, .val 0⟩]⟩, -- LAP_CNT_RETURN: COUNT
  ⟨Reg.LAP_CNT_COAST, [], [⟨0, 32, .ro, .val 0⟩]⟩, -- LAP_CNT_COAST: COUNT
  ⟨Reg.LAP_CNT_BATON_WAIT, [], [⟨0, 32, .ro, .val 0⟩]⟩, -- LAP_CNT_BATON_WAIT: COUNT
  ⟨Reg.LAP_IRQ, [], [⟨0, 1, .w1c, .val 0⟩, ⟨1, 1, .w1c, .val 0⟩, ⟨2, 1, .w1c, .val 0⟩, ⟨3, 1, .w1c, .val 0⟩, ⟨4, 1, .w1c, .val 0⟩]⟩, -- LAP_IRQ: FALLBACK RETURN SLEWDONE OVSP BATONWAIT
  ⟨Reg.LAP_IRQ_EN, [], [⟨0, 1, .rw, .val 0⟩, ⟨1, 1, .rw, .val 0⟩, ⟨2, 1, .rw, .val 0⟩, ⟨3, 1, .rw, .val 0⟩, ⟨4, 1, .rw, .val 0⟩]⟩, -- LAP_IRQ_EN: FALLBACK RETURN SLEWDONE OVSP BATONWAIT
  ⟨Reg.LAP_INJ, [], [⟨0, 1, .rw, .val 0⟩, ⟨1, 1, .rw, .val 0⟩, ⟨2, 1, .rw, .val 0⟩]⟩, -- LAP_INJ: ZC PTPLOCK SUMCHK
  ⟨Reg.LAP_OVSP 0, [(0x4, 12)], [⟨0, 32, .ro, .val 0⟩]⟩, -- LAP_OVSP: COUNT
  ⟨Reg.LAP_HELD_LAST, [], [⟨0, 12, .ro, .val 0⟩]⟩, -- LAP_HELD_LAST: CLASS
  ⟨Reg.LAP_BUDGET_c_r 0 0, [(0x10, 12), (0x4, 4)], [⟨0, 13, .ro, .img⟩]⟩, -- LAP_BUDGET_c_r: TICKS
  ⟨Reg.LAP_USED_c_r 0 0, [(0x10, 12), (0x4, 4)], [⟨0, 13, .ro, .val 0⟩]⟩, -- LAP_USED_c_r: TICKS
  ⟨Reg.LAP_BATON_CTRL, [], [⟨0, 4, .rw, .img⟩]⟩, -- LAP_BATON_CTRL: AGE
  ⟨Reg.LAP_BATON_STAT, [], [⟨0, 5, .ro, .val 0⟩, ⟨8, 3, .ro, .val 0⟩, ⟨16, 8, .ro, .val 0⟩, ⟨24, 1, .ro, .val 0⟩]⟩, -- LAP_BATON_STAT: FREE QUEUE OLDEST RSV_IN_USE
  ⟨Reg.LAP_BATON_HOLD 0, [(0x4, 6)], [⟨0, 5, .ro, .val 0⟩, ⟨8, 3, .ro, .val 0⟩, ⟨16, 1, .ro, .val 0⟩]⟩ -- LAP_BATON_HOLD: HELD EPRI WAIT
]

/-- Rows of block SETT. -/
def rowsSett : List RegRow := [
  ⟨Reg.SETT_EPOCH_LO, [], [⟨0, 32, .ro, .val 0⟩]⟩, -- SETT_EPOCH_LO: EPOCH
  ⟨Reg.SETT_EPOCH_HI, [], [⟨0, 32, .ro, .val 0⟩]⟩, -- SETT_EPOCH_HI: EPOCH
  ⟨Reg.SETT_STAT, [], [⟨0, 1, .w1c, .val 0⟩, ⟨1, 1, .w1c, .val 0⟩, ⟨2, 1, .w1c, .val 0⟩, ⟨3, 1, .w1c, .val 0⟩]⟩, -- SETT_STAT: DISCONT STALE WSDISCARD TIMECLAMP
  ⟨Reg.SETT_SIZE, [], [⟨0, 25, .ro, .img⟩]⟩, -- SETT_SIZE: BYTES
  ⟨Reg.SETT_HELD, [], [⟨0, 3, .ro, .val 0⟩]⟩, -- SETT_HELD: COUNT
  ⟨Reg.SETT_OLDEST_LO, [], [⟨0, 32, .ro, .val 0⟩]⟩, -- SETT_OLDEST_LO: EPOCH
  ⟨Reg.SETT_WS_CTRL, [], [⟨0, 1, .wo, .val 0⟩, ⟨1, 1, .wo, .val 0⟩, ⟨2, 1, .wo, .val 0⟩]⟩, -- SETT_WS_CTRL: OPEN SEAL ABORT
  ⟨Reg.SETT_WS_STAT, [], [⟨0, 2, .ro, .val 0⟩, ⟨2, 1, .ro, .val 0⟩, ⟨8, 11, .ro, .val 0⟩]⟩, -- SETT_WS_STAT: STATE POISON ENTRIES
  ⟨Reg.SETT_WS_SEQ, [], [⟨0, 32, .ro, .val 0⟩]⟩, -- SETT_WS_SEQ: VALUE
  ⟨Reg.SETT_WS_TARGET_LO, [], [⟨0, 32, .ro, .val 0⟩]⟩, -- SETT_WS_TARGET_LO: VALUE
  ⟨Reg.SETT_WS_LAST, [], [⟨0, 3, .ro, .val 0⟩]⟩, -- SETT_WS_LAST: RESULT
  ⟨Reg.SETT_WS_LAST_SEQ, [], [⟨0, 32, .ro, .val 0⟩]⟩, -- SETT_WS_LAST_SEQ: VALUE
  ⟨Reg.SETT_WS_TIMEOUT, [], [⟨0, 16, .rw, .val 250⟩]⟩, -- SETT_WS_TIMEOUT: LAPS
  ⟨Reg.SETT_EPOCH_BLOCK, [], [⟨0, 32, .ro, .nv⟩]⟩, -- SETT_EPOCH_BLOCK: T
  ⟨Reg.SETT_CNT_WS_APPLIED, [], [⟨0, 32, .ro, .val 0⟩]⟩, -- SETT_CNT_WS_APPLIED: COUNT
  ⟨Reg.SETT_CNT_WS_DISCARD, [], [⟨0, 32, .ro, .val 0⟩]⟩, -- SETT_CNT_WS_DISCARD: COUNT
  ⟨Reg.SETT_CNT_STALE, [], [⟨0, 32, .ro, .val 0⟩]⟩, -- SETT_CNT_STALE: COUNT
  ⟨Reg.SETT_CNT_DISCONT, [], [⟨0, 32, .ro, .val 0⟩]⟩, -- SETT_CNT_DISCONT: COUNT
  ⟨Reg.SETT_IRQ, [], [⟨0, 1, .w1c, .val 0⟩, ⟨1, 1, .w1c, .val 0⟩, ⟨2, 1, .w1c, .val 0⟩, ⟨3, 1, .w1c, .val 0⟩]⟩, -- SETT_IRQ: COMMIT WSDONE DISCONT STALE
  ⟨Reg.SETT_IRQ_EN, [], [⟨0, 1, .rw, .val 0⟩, ⟨1, 1, .rw, .val 0⟩, ⟨2, 1, .rw, .val 0⟩, ⟨3, 1, .rw, .val 0⟩]⟩, -- SETT_IRQ_EN: COMMIT WSDONE DISCONT STALE
  ⟨Reg.SETT_INJ, [], [⟨0, 1, .rw, .val 0⟩, ⟨1, 1, .rw, .val 0⟩]⟩, -- SETT_INJ: HDRCRC POISON
  ⟨Reg.SETT_WS_ADDR_k 0, [(0x8, 1024)], [⟨0, 32, .ro, .val 0⟩]⟩, -- SETT_WS_ADDR_k: VALUE
  ⟨Reg.SETT_WS_VAL_k 0, [(0x8, 1024)], [⟨0, 32, .ro, .val 0⟩]⟩ -- SETT_WS_VAL_k: VALUE
]

/-- Rows of block DSP, part 1. -/
def rowsDsp1 : List RegRow := [
  ⟨Reg.DSP_CTRL, [], [⟨0, 1, .rws, .img⟩]⟩, -- DSP_CTRL: ENABLE
  ⟨Reg.DSP_CYCLE, [], [⟨0, 16, .rws, .img⟩]⟩, -- DSP_CYCLE: LAPS
  ⟨Reg.DSP_DEADLINE, [], [⟨0, 16, .rws, .img⟩]⟩, -- DSP_DEADLINE: LAPS
  ⟨Reg.DSP_STALE, [], [⟨0, 16, .rws, .img⟩]⟩, -- DSP_STALE: LAPS
  ⟨Reg.DSP_SHAPE, [], [⟨0, 7, .ro, .img⟩, ⟨8, 6, .ro, .img⟩, ⟨16, 7, .ro, .img⟩, ⟨24, 4, .ro, .img⟩]⟩, -- DSP_SHAPE: NSTEP STEPMIN FNOM SCEN
  ⟨Reg.DSP_STEPLAPS, [], [⟨0, 18, .ro, .img⟩]⟩, -- DSP_STEPLAPS: LAPS
  ⟨Reg.DSP_COUNTS0, [], [⟨0, 13, .ro, .img⟩, ⟨16, 13, .ro, .img⟩]⟩, -- DSP_COUNTS0: A B
  ⟨Reg.DSP_COUNTS1, [], [⟨0, 13, .ro, .img⟩, ⟨16, 13, .ro, .img⟩]⟩, -- DSP_COUNTS1: A B
  ⟨Reg.DSP_COUNTS2, [], [⟨0, 7, .ro, .img⟩, ⟨8, 7, .ro, .img⟩, ⟨16, 5, .ro, .img⟩]⟩, -- DSP_COUNTS2: NUNIT NGROUP LAGMAX
  ⟨Reg.DSP_NNZ, [], [⟨0, 23, .ro, .img⟩]⟩, -- DSP_NNZ: COUNT
  ⟨Reg.DSP_NFAC, [], [⟨0, 23, .ro, .img⟩]⟩, -- DSP_NFAC: COUNT
  ⟨Reg.DSP_STAT, [], [⟨0, 1, .w1c, .val 0⟩, ⟨1, 1, .w1c, .val 0⟩, ⟨2, 1, .w1c, .val 0⟩, ⟨3, 1, .w1c, .val 0⟩, ⟨4, 1, .w1c, .val 0⟩]⟩, -- DSP_STAT: STALEMEAS PRICECLIP SCENNORM DEMCLIP TIMEGRID
  ⟨Reg.DSP_CNT_CYCLE, [], [⟨0, 32, .ro, .val 0⟩]⟩, -- DSP_CNT_CYCLE: COUNT
  ⟨Reg.DSP_CNT_STALEMEAS, [], [⟨0, 32, .ro, .val 0⟩]⟩, -- DSP_CNT_STALEMEAS: COUNT
  ⟨Reg.DSP_CNT_PRICECLIP, [], [⟨0, 32, .ro, .val 0⟩]⟩, -- DSP_CNT_PRICECLIP: COUNT
  ⟨Reg.DSP_CNT_DEMCLIP, [], [⟨0, 32, .ro, .val 0⟩]⟩, -- DSP_CNT_DEMCLIP: COUNT
  ⟨Reg.DSP_IRQ, [], [⟨0, 1, .w1c, .val 0⟩, ⟨1, 1, .w1c, .val 0⟩, ⟨2, 1, .w1c, .val 0⟩]⟩, -- DSP_IRQ: CYCSTART STALEMEAS PRICECLIP
  ⟨Reg.DSP_IRQ_EN, [], [⟨0, 1, .rw, .val 0⟩, ⟨1, 1, .rw, .val 0⟩, ⟨2, 1, .rw, .val 0⟩]⟩, -- DSP_IRQ_EN: CYCSTART STALEMEAS PRICECLIP
  ⟨Reg.DSP_INJ, [], [⟨0, 1, .rw, .val 0⟩, ⟨1, 1, .rw, .val 0⟩, ⟨2, 1, .rw, .val 0⟩]⟩, -- DSP_INJ: STALE SCENSUM PRICE
  ⟨Reg.DSP_CYC_LO, [], [⟨0, 32, .ro, .val 0⟩]⟩, -- DSP_CYC_LO: VALUE
  ⟨Reg.DSP_CYC_EPOCH_LO, [], [⟨0, 32, .ro, .val 0⟩]⟩, -- DSP_CYC_EPOCH_LO: VALUE
  ⟨Reg.DSP_TAU0, [], [⟨0, 32, .ro, .val 0⟩]⟩, -- DSP_TAU0: VALUE
  ⟨Reg.DSP_GRIDPT_LO, [], [⟨0, 32, .ro, .val 0⟩]⟩, -- DSP_GRIDPT_LO: VALUE
  ⟨Reg.DSP_CO2PRICE, [], [⟨0, 32, .rws, .img⟩]⟩, -- DSP_CO2PRICE: VALUE
  ⟨Reg.DSP_GIMPMAX, [], [⟨0, 32, .rws, .img⟩]⟩, -- DSP_GIMPMAX: VALUE
  ⟨Reg.DSP_GEXPMAX, [], [⟨0, 32, .rws, .img⟩]⟩, -- DSP_GEXPMAX: VALUE
  ⟨Reg.DSP_WLIMDP, [], [⟨0, 32, .rws, .img⟩]⟩, -- DSP_WLIMDP: VALUE
  ⟨Reg.DSP_WLIMT, [], [⟨0, 32, .rws, .img⟩]⟩, -- DSP_WLIMT: VALUE
  ⟨Reg.DSP_BIASDECAY, [], [⟨0, 32, .rws, .img⟩]⟩, -- DSP_BIASDECAY: VALUE
  ⟨Reg.DSP_SCENW_s 0, [(0x4, 8)], [⟨0, 32, .rws, .img⟩]⟩, -- DSP_SCENW_s: VALUE
  ⟨Reg.DSP_TOFS_s 0, [(0x4, 8)], [⟨0, 32, .rws, .img⟩]⟩, -- DSP_TOFS_s: VALUE
  ⟨Reg.DSP_PSCALE_s 0, [(0x4, 8)], [⟨0, 32, .rws, .img⟩]⟩, -- DSP_PSCALE_s: VALUE
  ⟨Reg.DSP_MEAS_u 0, [(0x8, 64)], [⟨0, 32, .rw, .val 0⟩]⟩, -- DSP_MEAS_u: VALUE
  ⟨Reg.DSP_MEAS_STAMP_u 0, [(0x8, 64)], [⟨0, 32, .ro, .val 0⟩]⟩, -- DSP_MEAS_STAMP_u: VALUE
  ⟨Reg.DSP_MEAS_TOUT, [], [⟨0, 32, .rw, .val 0⟩]⟩, -- DSP_MEAS_TOUT: VALUE
  ⟨Reg.DSP_MEAS_TOUT_STAMP, [], [⟨0, 32, .ro, .val 0⟩]⟩, -- DSP_MEAS_TOUT_STAMP: VALUE
  ⟨Reg.DSP_PIMP_k 0, [(0x4, 96)], [⟨0, 32, .rws, .img⟩]⟩, -- DSP_PIMP_k: VALUE
  ⟨Reg.DSP_PEXP_k 0, [(0x4, 96)], [⟨0, 32, .rws, .img⟩]⟩, -- DSP_PEXP_k: VALUE
  ⟨Reg.DSP_TOUTF_k 0, [(0x4, 96)], [⟨0, 32, .rws, .img⟩]⟩, -- DSP_TOUTF_k: VALUE
  ⟨Reg.DSP_UNIT_u_QMIN 0, [(0x20, 64)], [⟨0, 32, .rws, .img⟩]⟩ -- DSP_UNIT_u_QMIN: VALUE
]

/-- Rows of block DSP, part 2. -/
def rowsDsp2 : List RegRow := [
  ⟨Reg.DSP_UNIT_u_QMAX 0, [(0x20, 64)], [⟨0, 32, .rws, .img⟩]⟩, -- DSP_UNIT_u_QMAX: VALUE
  ⟨Reg.DSP_UNIT_u_RAMP 0, [(0x20, 64)], [⟨0, 32, .rws, .img⟩]⟩, -- DSP_UNIT_u_RAMP: VALUE
  ⟨Reg.DSP_UNIT_u_FUELPRICE 0, [(0x20, 64)], [⟨0, 32, .rws, .img⟩]⟩, -- DSP_UNIT_u_FUELPRICE: VALUE
  ⟨Reg.DSP_UNIT_u_EMIS 0, [(0x20, 64)], [⟨0, 32, .rws, .img⟩]⟩, -- DSP_UNIT_u_EMIS: VALUE
  ⟨Reg.DSP_UNIT_u_WEAR 0, [(0x20, 64)], [⟨0, 32, .rws, .img⟩]⟩, -- DSP_UNIT_u_WEAR: VALUE
  ⟨Reg.DSP_UNIT_u_XMIN 0, [(0x20, 64)], [⟨0, 32, .rws, .img⟩]⟩, -- DSP_UNIT_u_XMIN: VALUE
  ⟨Reg.DSP_UNIT_u_XMAX 0, [(0x20, 64)], [⟨0, 32, .rws, .img⟩]⟩, -- DSP_UNIT_u_XMAX: VALUE
  ⟨Reg.DSP_PUMP_p_HMIN 0, [(0x8, 256)], [⟨0, 32, .rws, .img⟩]⟩, -- DSP_PUMP_p_HMIN: VALUE
  ⟨Reg.DSP_PUMP_p_HMAX 0, [(0x8, 256)], [⟨0, 32, .rws, .img⟩]⟩, -- DSP_PUMP_p_HMAX: VALUE
  ⟨Reg.DSP_GRP_g_TMIN 0, [(0x20, 64)], [⟨0, 32, .rws, .img⟩]⟩, -- DSP_GRP_g_TMIN: VALUE
  ⟨Reg.DSP_GRP_g_TMAX 0, [(0x20, 64)], [⟨0, 32, .rws, .img⟩]⟩, -- DSP_GRP_g_TMAX: VALUE
  ⟨Reg.DSP_GRP_g_WCL 0, [(0x20, 64)], [⟨0, 32, .rws, .img⟩]⟩, -- DSP_GRP_g_WCL: VALUE
  ⟨Reg.DSP_GRP_g_WCQ 0, [(0x20, 64)], [⟨0, 32, .rws, .img⟩]⟩, -- DSP_GRP_g_WCQ: VALUE
  ⟨Reg.DSP_GRP_g_WT 0, [(0x20, 64)], [⟨0, 32, .rws, .img⟩]⟩, -- DSP_GRP_g_WT: VALUE
  ⟨Reg.DSP_RES_TOLP, [], [⟨0, 32, .rws, .img⟩]⟩, -- DSP_RES_TOLP: VALUE
  ⟨Reg.DSP_RES_TOLD, [], [⟨0, 32, .rws, .img⟩]⟩, -- DSP_RES_TOLD: VALUE
  ⟨Reg.DSP_RES_TOLMU, [], [⟨0, 32, .rws, .img⟩]⟩, -- DSP_RES_TOLMU: VALUE
  ⟨Reg.DSP_RES_ACCF, [], [⟨0, 16, .rws, .img⟩]⟩, -- DSP_RES_ACCF: FACTOR
  ⟨Reg.DSP_RES_LAST, [], [⟨0, 3, .ro, .val 0⟩, ⟨4, 1, .ro, .val 0⟩, ⟨5, 1, .ro, .val 0⟩, ⟨16, 16, .ro, .val 0⟩]⟩, -- DSP_RES_LAST: STATUS STEP WARM AGE
  ⟨Reg.DSP_RES_CYCLE, [], [⟨0, 32, .ro, .val 0⟩]⟩, -- DSP_RES_CYCLE: CYCLE
  ⟨Reg.DSP_RES_RP, [], [⟨0, 32, .ro, .val 0xFFFFFFFF⟩]⟩, -- DSP_RES_RP: VALUE
  ⟨Reg.DSP_RES_RG, [], [⟨0, 32, .ro, .val 0xFFFFFFFF⟩]⟩, -- DSP_RES_RG: VALUE
  ⟨Reg.DSP_RES_RD, [], [⟨0, 32, .ro, .val 0xFFFFFFFF⟩]⟩, -- DSP_RES_RD: VALUE
  ⟨Reg.DSP_RES_MU, [], [⟨0, 32, .ro, .val 0xFFFFFFFF⟩]⟩, -- DSP_RES_MU: VALUE
  ⟨Reg.DSP_RES_STAT, [], [⟨0, 1, .w1c, .val 0⟩, ⟨1, 1, .w1c, .val 0⟩, ⟨2, 1, .w1c, .val 0⟩, ⟨3, 1, .w1c, .val 0⟩, ⟨4, 1, .w1c, .val 0⟩, ⟨5, 1, .w1c, .val 0⟩, ⟨6, 1, .w1c, .val 0⟩]⟩, -- DSP_RES_STAT: SHIFTED COLD FAILED PROJ ENCSAT DISCARD NOPUB
  ⟨Reg.DSP_RES_CNT_OPT, [], [⟨0, 32, .ro, .val 0⟩]⟩, -- DSP_RES_CNT_OPT: COUNT
  ⟨Reg.DSP_RES_CNT_ACC, [], [⟨0, 32, .ro, .val 0⟩]⟩, -- DSP_RES_CNT_ACC: COUNT
  ⟨Reg.DSP_RES_CNT_SHIFT, [], [⟨0, 32, .ro, .val 0⟩]⟩, -- DSP_RES_CNT_SHIFT: COUNT
  ⟨Reg.DSP_RES_CNT_COLD, [], [⟨0, 32, .ro, .val 0⟩]⟩, -- DSP_RES_CNT_COLD: COUNT
  ⟨Reg.DSP_RES_CNT_FAIL, [], [⟨0, 32, .ro, .val 0⟩]⟩, -- DSP_RES_CNT_FAIL: COUNT
  ⟨Reg.DSP_RES_CNT_DISCARD, [], [⟨0, 32, .ro, .val 0⟩]⟩, -- DSP_RES_CNT_DISCARD: COUNT
  ⟨Reg.DSP_RES_CNT_NOPUB, [], [⟨0, 32, .ro, .val 0⟩]⟩, -- DSP_RES_CNT_NOPUB: COUNT
  ⟨Reg.DSP_RES_CNT_ENCSAT, [], [⟨0, 32, .ro, .val 0⟩]⟩, -- DSP_RES_CNT_ENCSAT: COUNT
  ⟨Reg.DSP_RES_IRQ, [], [⟨0, 1, .w1c, .val 0⟩, ⟨1, 1, .w1c, .val 0⟩, ⟨2, 1, .w1c, .val 0⟩]⟩, -- DSP_RES_IRQ: PUBLISH DEGRADED STEP
  ⟨Reg.DSP_RES_IRQ_EN, [], [⟨0, 1, .rw, .val 0⟩, ⟨1, 1, .rw, .val 0⟩, ⟨2, 1, .rw, .val 0⟩]⟩, -- DSP_RES_IRQ_EN: PUBLISH DEGRADED STEP
  ⟨Reg.DSP_RES_INJ, [], [⟨0, 1, .rw, .val 0⟩, ⟨1, 1, .rw, .val 0⟩]⟩, -- DSP_RES_INJ: ACCTEST ENCCHK
  ⟨Reg.DSP_RES_NV1, [], [⟨0, 32, .ro, .img⟩]⟩, -- DSP_RES_NV1: VALUE
  ⟨Reg.DSP_RES_SB, [], [⟨0, 32, .ro, .img⟩]⟩ -- DSP_RES_SB: VALUE
]

/-- Rows of block DSP. -/
def rowsDsp : List RegRow := rowsDsp1 ++ rowsDsp2

/-- Rows of block SLV. -/
def rowsSlv : List RegRow := [
  ⟨Reg.SLV_CTRL, [], [⟨0, 5, .rws, .img⟩, ⟨8, 7, .rws, .img⟩]⟩, -- SLV_CTRL: LANES ITERMAX
  ⟨Reg.SLV_DELTA1, [], [⟨0, 32, .rws, .img⟩]⟩, -- SLV_DELTA1: VALUE
  ⟨Reg.SLV_DELTA2, [], [⟨0, 32, .rws, .img⟩]⟩, -- SLV_DELTA2: VALUE
  ⟨Reg.SLV_PIVMIN, [], [⟨0, 32, .rws, .img⟩]⟩, -- SLV_PIVMIN: VALUE
  ⟨Reg.SLV_STEPFRAC, [], [⟨0, 16, .rws, .img⟩]⟩, -- SLV_STEPFRAC: ETA
  ⟨Reg.SLV_PUSH, [], [⟨0, 32, .rws, .img⟩]⟩, -- SLV_PUSH: BETA
  ⟨Reg.SLV_STAT, [], [⟨0, 1, .w1c, .val 0⟩, ⟨1, 1, .w1c, .val 0⟩, ⟨2, 1, .w1c, .val 0⟩, ⟨3, 1, .w1c, .val 0⟩, ⟨4, 1, .w1c, .val 0⟩, ⟨5, 1, .w1c, .val 0⟩, ⟨6, 1, .w1c, .val 0⟩, ⟨7, 1, .w1c, .val 0⟩]⟩, -- SLV_STAT: RANGE FABRIC PIVFIX HEADROOM ASMSAT STOP2 NARROW LANESHORT
  ⟨Reg.SLV_RUN, [], [⟨0, 3, .ro, .val 0⟩, ⟨8, 7, .ro, .val 0⟩, ⟨16, 5, .ro, .val 0⟩, ⟨21, 1, .ro, .val 0⟩, ⟨22, 1, .ro, .val 0⟩]⟩, -- SLV_RUN: STATE ITER BURST WIDEN RETRY
  ⟨Reg.SLV_WAVE, [], [⟨0, 32, .ro, .val 0⟩]⟩, -- SLV_WAVE: INDEX
  ⟨Reg.SLV_TASK, [], [⟨0, 32, .ro, .val 0⟩]⟩, -- SLV_TASK: INDEX
  ⟨Reg.SLV_MAP, [], [⟨0, 18, .ro, .val 0⟩]⟩, -- SLV_MAP: LANE
  ⟨Reg.SLV_MAPCNT, [], [⟨0, 5, .ro, .val 0⟩, ⟨8, 6, .ro, .val 0⟩]⟩, -- SLV_MAPCNT: LANES BANKS
  ⟨Reg.SLV_FIRSTQ, [], [⟨0, 12, .ro, .val 0⟩, ⟨15, 1, .ro, .val 0⟩, ⟨16, 12, .ro, .val 0⟩, ⟨31, 1, .ro, .val 0⟩]⟩, -- SLV_FIRSTQ: SQ SQV HQ HQV
  ⟨Reg.SLV_LASTSTOP, [], [⟨0, 3, .ro, .val 0⟩, ⟨8, 7, .ro, .val 0⟩, ⟨16, 7, .ro, .val 0⟩]⟩, -- SLV_LASTSTOP: REASON ITERS REJ
  ⟨Reg.SLV_N, [], [⟨0, 32, .ro, .img⟩]⟩, -- SLV_N: VALUE
  ⟨Reg.SLV_FLINES, [], [⟨0, 32, .ro, .img⟩]⟩, -- SLV_FLINES: VALUE
  ⟨Reg.SLV_GEOM, [], [⟨0, 6, .ro, .img⟩, ⟨8, 5, .ro, .img⟩, ⟨16, 10, .ro, .img⟩]⟩, -- SLV_GEOM: BANKS LANEMIN ROOTN
  ⟨Reg.SLV_ROOTVAL, [], [⟨0, 32, .ro, .img⟩]⟩, -- SLV_ROOTVAL: VALUE
  ⟨Reg.SLV_FABITER, [], [⟨0, 32, .ro, .img⟩]⟩, -- SLV_FABITER: VALUE
  ⟨Reg.SLV_MACITER, [], [⟨0, 32, .ro, .img⟩]⟩, -- SLV_MACITER: VALUE
  ⟨Reg.SLV_NQ, [], [⟨0, 13, .ro, .img⟩]⟩, -- SLV_NQ: NQ
  ⟨Reg.SLV_CNT_SOLVE, [], [⟨0, 32, .ro, .val 0⟩]⟩, -- SLV_CNT_SOLVE: COUNT
  ⟨Reg.SLV_CNT_ITER, [], [⟨0, 32, .ro, .val 0⟩]⟩, -- SLV_CNT_ITER: COUNT
  ⟨Reg.SLV_CNT_REJ_RANGE, [], [⟨0, 32, .ro, .val 0⟩]⟩, -- SLV_CNT_REJ_RANGE: COUNT
  ⟨Reg.SLV_CNT_REJ_FAB, [], [⟨0, 32, .ro, .val 0⟩]⟩, -- SLV_CNT_REJ_FAB: COUNT
  ⟨Reg.SLV_CNT_PIVFIX, [], [⟨0, 32, .ro, .val 0⟩]⟩, -- SLV_CNT_PIVFIX: COUNT
  ⟨Reg.SLV_CNT_HEADROOM, [], [⟨0, 32, .ro, .val 0⟩]⟩, -- SLV_CNT_HEADROOM: COUNT
  ⟨Reg.SLV_CNT_SAT, [], [⟨0, 32, .ro, .val 0⟩]⟩, -- SLV_CNT_SAT: COUNT
  ⟨Reg.SLV_CNT_NOSTART, [], [⟨0, 32, .ro, .val 0⟩]⟩, -- SLV_CNT_NOSTART: COUNT
  ⟨Reg.SLV_CNT_NARROW, [], [⟨0, 32, .ro, .val 0⟩]⟩, -- SLV_CNT_NARROW: COUNT
  ⟨Reg.SLV_IRQ, [], [⟨0, 1, .w1c, .val 0⟩, ⟨1, 1, .w1c, .val 0⟩, ⟨2, 1, .w1c, .val 0⟩, ⟨3, 1, .w1c, .val 0⟩, ⟨4, 1, .w1c, .val 0⟩]⟩, -- SLV_IRQ: SOLVEDONE REJECT HEADROOM NOSTART NARROW
  ⟨Reg.SLV_IRQ_EN, [], [⟨0, 1, .rw, .val 0⟩, ⟨1, 1, .rw, .val 0⟩, ⟨2, 1, .rw, .val 0⟩, ⟨3, 1, .rw, .val 0⟩, ⟨4, 1, .rw, .val 0⟩]⟩, -- SLV_IRQ_EN: SOLVEDONE REJECT HEADROOM NOSTART NARROW
  ⟨Reg.SLV_INJ, [], [⟨0, 1, .rw, .val 0⟩, ⟨1, 1, .rw, .val 0⟩, ⟨2, 1, .rw, .val 0⟩, ⟨3, 1, .rw, .val 0⟩, ⟨4, 1, .rw, .val 0⟩]⟩, -- SLV_INJ: SATCHK HEADCHK PIVCHK GENCHK ASMCHK
  ⟨Reg.SLV_LANE_n_STAT 0, [(0x4, 18)], [⟨0, 2, .ro, .val 0⟩, ⟨8, 1, .w1c, .val 0⟩, ⟨9, 1, .w1c, .val 0⟩, ⟨10, 1, .w1c, .val 0⟩, ⟨11, 1, .w1c, .val 0⟩, ⟨12, 1, .w1c, .val 0⟩]⟩, -- SLV_LANE_n_STAT: STATE SAT ACCSAT RECIP PIVFIX HEADROOM
  ⟨Reg.SLV_LANE_n_CNT 0, [(0x4, 18)], [⟨0, 32, .ro, .val 0⟩]⟩ -- SLV_LANE_n_CNT: TASKS
]

/-- Rows of block FAB. -/
def rowsFab : List RegRow := [
  ⟨Reg.FAB_LCHK, [], [⟨0, 16, .rw, .val 250⟩]⟩, -- FAB_LCHK: LAPS
  ⟨Reg.FAB_DROPLIM, [], [⟨0, 8, .rw, .val 8⟩]⟩, -- FAB_DROPLIM: LIMIT
  ⟨Reg.FAB_SCRUB_CTRL, [], [⟨0, 1, .rw, .val 1⟩, ⟨16, 16, .rw, .val 50⟩]⟩, -- FAB_SCRUB_CTRL: EN LAPS
  ⟨Reg.FAB_SCRUB_STAT, [], [⟨0, 8, .ro, .val 0⟩, ⟨8, 1, .ro, .val 0⟩]⟩, -- FAB_SCRUB_STAT: SEG WAIT
  ⟨Reg.FAB_REPAIR_CTRL, [], [⟨0, 1, .rw, .val 0⟩]⟩, -- FAB_REPAIR_CTRL: RETEST
  ⟨Reg.FAB_SPARE, [], [⟨0, 2, .ro, .val 0⟩, ⟨8, 2, .ro, .val 0⟩, ⟨16, 5, .ro, .val 0⟩, ⟨24, 6, .ro, .val 0⟩]⟩, -- FAB_SPARE: LANES BANKS FAILLANES FAILBANKS
  ⟨Reg.FAB_MAP_SEQ, [], [⟨0, 32, .ro, .nv⟩]⟩, -- FAB_MAP_SEQ: SEQ
  ⟨Reg.FAB_STAT, [], [⟨0, 1, .w1c, .val 0⟩, ⟨1, 1, .w1c, .val 0⟩, ⟨2, 1, .w1c, .val 0⟩, ⟨3, 1, .w1c, .val 0⟩, ⟨4, 1, .w1c, .val 0⟩, ⟨5, 1, .w1c, .val 0⟩, ⟨6, 1, .w1c, .val 0⟩, ⟨7, 1, .w1c, .val 0⟩, ⟨8, 1, .w1c, .val 0⟩]⟩, -- FAB_STAT: DROP LANEFAIL LINEREP BANKFAIL SPAREOUT NOFIT MAPLOST MAPWERR COMMITDROP
  ⟨Reg.FAB_LASTDROP, [], [⟨0, 3, .ro, .val 0⟩, ⟨4, 4, .ro, .val 0⟩, ⟨8, 5, .ro, .val 0⟩, ⟨16, 16, .ro, .val 0⟩]⟩, -- FAB_LASTDROP: PATH CLASS LANE EPOCH
  ⟨Reg.FAB_CNT_RESEND_p 0, [(0x4, 5)], [⟨0, 32, .ro, .val 0⟩]⟩, -- FAB_CNT_RESEND_p: COUNT
  ⟨Reg.FAB_CNT_DROP_p 0, [(0x4, 5)], [⟨0, 32, .ro, .val 0⟩]⟩, -- FAB_CNT_DROP_p: COUNT
  ⟨Reg.FAB_CNT_LANEFAIL, [], [⟨0, 32, .ro, .val 0⟩]⟩, -- FAB_CNT_LANEFAIL: COUNT
  ⟨Reg.FAB_CNT_LINEREP, [], [⟨0, 32, .ro, .val 0⟩]⟩, -- FAB_CNT_LINEREP: COUNT
  ⟨Reg.FAB_CNT_BANKFAIL, [], [⟨0, 32, .ro, .val 0⟩]⟩, -- FAB_CNT_BANKFAIL: COUNT
  ⟨Reg.FAB_CNT_SCRUBPASS, [], [⟨0, 32, .ro, .val 0⟩]⟩, -- FAB_CNT_SCRUBPASS: COUNT
  ⟨Reg.FAB_CNT_DRAMFIX, [], [⟨0, 32, .ro, .val 0⟩]⟩, -- FAB_CNT_DRAMFIX: COUNT
  ⟨Reg.FAB_CNT_DRAMTRAIN, [], [⟨0, 32, .ro, .val 0⟩]⟩, -- FAB_CNT_DRAMTRAIN: COUNT
  ⟨Reg.FAB_CNT_MAPWRITE, [], [⟨0, 32, .ro, .val 0⟩]⟩, -- FAB_CNT_MAPWRITE: COUNT
  ⟨Reg.FAB_IRQ, [], [⟨0, 1, .w1c, .val 0⟩, ⟨1, 1, .w1c, .val 0⟩, ⟨2, 1, .w1c, .val 0⟩, ⟨3, 1, .w1c, .val 0⟩]⟩, -- FAB_IRQ: DROP REPAIR SPAREOUT NOFIT
  ⟨Reg.FAB_IRQ_EN, [], [⟨0, 1, .rw, .val 0⟩, ⟨1, 1, .rw, .val 0⟩, ⟨2, 1, .rw, .val 0⟩, ⟨3, 1, .rw, .val 0⟩]⟩, -- FAB_IRQ_EN: DROP REPAIR SPAREOUT NOFIT
  ⟨Reg.FAB_INJ, [], [⟨0, 1, .rw, .val 0⟩, ⟨1, 1, .rw, .val 0⟩, ⟨2, 1, .rw, .val 0⟩, ⟨3, 1, .rw, .val 0⟩, ⟨8, 3, .rw, .val 0⟩]⟩, -- FAB_INJ: RESEND DROP LCHK SCRUB PATHSEL
  ⟨Reg.FAB_BANK_p_STAT 0, [(0x4, 50)], [⟨0, 2, .ro, .nv⟩, ⟨8, 6, .ro, .nv⟩, ⟨16, 8, .ro, .nv⟩]⟩, -- FAB_BANK_p_STAT: STATE LOGICAL SPUSED
  ⟨Reg.FAB_LANE_n_DROPS 0, [(0x4, 18)], [⟨0, 8, .ro, .val 0⟩]⟩ -- FAB_LANE_n_DROPS: COUNT
]

/-- Rows of block LOOP. -/
def rowsLoop : List RegRow := [
  ⟨Reg.LOOP_STAT, [], [⟨0, 1, .w1c, .val 0⟩, ⟨1, 1, .w1c, .val 0⟩, ⟨2, 1, .w1c, .val 0⟩, ⟨3, 1, .w1c, .val 0⟩, ⟨4, 1, .w1c, .val 0⟩, ⟨5, 1, .w1c, .val 0⟩]⟩, -- LOOP_STAT: SAT ACCSAT LATE SKIP INBAD REFUSED
  ⟨Reg.LOOP_INFO, [], [⟨0, 7, .ro, .img⟩]⟩, -- LOOP_INFO: NLOOP
  ⟨Reg.LOOP_DEMAND, [], [⟨0, 16, .ro, .img⟩]⟩, -- LOOP_DEMAND: CORETICKS
  ⟨Reg.LOOP_RUN_LO, [], [⟨0, 32, .ro, .val 0⟩]⟩, -- LOOP_RUN_LO: LOOPS
  ⟨Reg.LOOP_RUN_HI, [], [⟨0, 32, .ro, .val 0⟩]⟩, -- LOOP_RUN_HI: LOOPS
  ⟨Reg.LOOP_FLAG_LO, [], [⟨0, 32, .ro, .val 0⟩]⟩, -- LOOP_FLAG_LO: LOOPS
  ⟨Reg.LOOP_FLAG_HI, [], [⟨0, 32, .ro, .val 0⟩]⟩, -- LOOP_FLAG_HI: LOOPS
  ⟨Reg.LOOP_CNT_REFUSE, [], [⟨0, 32, .ro, .val 0⟩]⟩, -- LOOP_CNT_REFUSE: COUNT
  ⟨Reg.LOOP_CNT_LATE, [], [⟨0, 32, .ro, .val 0⟩]⟩, -- LOOP_CNT_LATE: COUNT
  ⟨Reg.LOOP_CNT_SKIP, [], [⟨0, 32, .ro, .val 0⟩]⟩, -- LOOP_CNT_SKIP: COUNT
  ⟨Reg.LOOP_CNT_SAT, [], [⟨0, 32, .ro, .val 0⟩]⟩, -- LOOP_CNT_SAT: COUNT
  ⟨Reg.LOOP_IRQ, [], [⟨0, 1, .w1c, .val 0⟩, ⟨1, 1, .w1c, .val 0⟩, ⟨2, 1, .w1c, .val 0⟩, ⟨3, 1, .w1c, .val 0⟩, ⟨4, 1, .w1c, .val 0⟩]⟩, -- LOOP_IRQ: SAT LATE SKIP INBAD SWAP
  ⟨Reg.LOOP_IRQ_EN, [], [⟨0, 1, .rw, .val 0⟩, ⟨1, 1, .rw, .val 0⟩, ⟨2, 1, .rw, .val 0⟩, ⟨3, 1, .rw, .val 0⟩, ⟨4, 1, .rw, .val 0⟩]⟩, -- LOOP_IRQ_EN: SAT LATE SKIP INBAD SWAP
  ⟨Reg.LOOP_INJ, [], [⟨0, 1, .rw, .val 0⟩, ⟨1, 1, .rw, .val 0⟩, ⟨2, 1, .rw, .val 0⟩, ⟨8, 6, .rw, .val 0⟩]⟩, -- LOOP_INJ: SATCHK INVALID LATECHK LOOPSEL
  ⟨Reg.LOOP_n_CTRL 0, [(0x40, 64)], [⟨0, 1, .rw, .val 0⟩, ⟨1, 1, .wo, .val 0⟩, ⟨2, 1, .wo, .val 0⟩]⟩, -- LOOP_n_CTRL: RUN SWAP RESET
  ⟨Reg.LOOP_n_PERIOD 0, [(0x40, 64)], [⟨0, 18, .rws, .img⟩]⟩, -- LOOP_n_PERIOD: TICKS
  ⟨Reg.LOOP_n_OFFSET 0, [(0x40, 64)], [⟨0, 18, .rws, .img⟩]⟩, -- LOOP_n_OFFSET: TICKS
  ⟨Reg.LOOP_n_SP 0, [(0x40, 64)], [⟨0, 24, .rw, .img⟩]⟩, -- LOOP_n_SP: MANT
  ⟨Reg.LOOP_n_INIT 0, [(0x40, 64)], [⟨0, 24, .rw, .img⟩]⟩, -- LOOP_n_INIT: MANT
  ⟨Reg.LOOP_n_PV 0, [(0x40, 64)], [⟨0, 24, .ro, .val 0⟩]⟩, -- LOOP_n_PV: MANT
  ⟨Reg.LOOP_n_OUT 0, [(0x40, 64)], [⟨0, 24, .ro, .val 0⟩]⟩, -- LOOP_n_OUT: MANT
  ⟨Reg.LOOP_n_STAT 0, [(0x40, 64)], [⟨0, 1, .w1c, .val 0⟩, ⟨1, 1, .w1c, .val 0⟩, ⟨2, 1, .w1c, .val 0⟩, ⟨3, 1, .w1c, .val 0⟩, ⟨4, 1, .w1c, .val 0⟩, ⟨5, 1, .w1c, .val 0⟩, ⟨6, 1, .w1c, .val 0⟩, ⟨7, 1, .w1c, .val 0⟩, ⟨16, 1, .ro, .val 0⟩, ⟨17, 1, .ro, .val 0⟩, ⟨18, 1, .ro, .val 0⟩]⟩, -- LOOP_n_STAT: SAT ACCSAT LIMLO LIMHI LATE SKIP INBAD BANKSW BANK SWPEND RUNNING
  ⟨Reg.LOOP_n_DLY_LAST 0, [(0x40, 64)], [⟨0, 16, .ro, .val 0⟩]⟩, -- LOOP_n_DLY_LAST: DELAY
  ⟨Reg.LOOP_n_DLY_MAX 0, [(0x40, 64)], [⟨0, 16, .rc, .val 0⟩]⟩, -- LOOP_n_DLY_MAX: DELAY
  ⟨Reg.LOOP_n_CNT_SAMPLE 0, [(0x40, 64)], [⟨0, 32, .ro, .val 0⟩]⟩, -- LOOP_n_CNT_SAMPLE: COUNT
  ⟨Reg.LOOP_n_CNT_LATE 0, [(0x40, 64)], [⟨0, 32, .ro, .val 0⟩]⟩, -- LOOP_n_CNT_LATE: COUNT
  ⟨Reg.LOOP_n_CNT_SKIP 0, [(0x40, 64)], [⟨0, 32, .ro, .val 0⟩]⟩, -- LOOP_n_CNT_SKIP: COUNT
  ⟨Reg.LOOP_n_CNT_SAT 0, [(0x40, 64)], [⟨0, 32, .ro, .val 0⟩]⟩, -- LOOP_n_CNT_SAT: COUNT
  ⟨Reg.LOOP_n_Bb_Sj_Ck 0 0 0 0, [(0x180, 64), (0xC0, 2), (0x18, 8)], [⟨0, 24, .rw, .img⟩, ⟨24, 6, .rw, .img⟩]⟩, -- LOOP_n_Bb_Sj_C0: MANT EK
  ⟨Reg.LOOP_n_Bb_Sj_Ck 0 0 0 1, [(0x180, 64), (0xC0, 2), (0x18, 8), (0x4, 5)], [⟨0, 24, .rw, .img⟩]⟩ -- LOOP_n_Bb_Sj_Ck, k above 0: MANT
]

/-- Rows of block FBP. -/
def rowsFbp : List RegRow := [
  ⟨Reg.FBP_CTRL, [], [⟨0, 1, .wo, .val 0⟩, ⟨1, 1, .wo, .val 0⟩, ⟨2, 1, .wo, .val 0⟩]⟩, -- FBP_CTRL: STOP RESTART COLD
  ⟨Reg.FBP_CYCLE, [], [⟨0, 12, .rws, .img⟩]⟩, -- FBP_CYCLE: VALUE
  ⟨Reg.FBP_WDOG, [], [⟨0, 12, .rws, .img⟩]⟩, -- FBP_WDOG: VALUE
  ⟨Reg.FBP_STATE, [], [⟨0, 2, .ro, .val 0⟩, ⟨4, 3, .ro, .val 0⟩, ⟨8, 2, .ro, .val 0⟩]⟩, -- FBP_STATE: STATE CAUSE PHASE
  ⟨Reg.FBP_NINST, [], [⟨0, 32, .ro, .img⟩]⟩, -- FBP_NINST: VALUE
  ⟨Reg.FBP_DATASIZE, [], [⟨0, 32, .ro, .img⟩]⟩, -- FBP_DATASIZE: VALUE
  ⟨Reg.FBP_WCET, [], [⟨0, 32, .ro, .img⟩]⟩, -- FBP_WCET: VALUE
  ⟨Reg.FBP_CYC_LO, [], [⟨0, 32, .ro, .val 0⟩]⟩, -- FBP_CYC_LO: VALUE
  ⟨Reg.FBP_EXEC_LAST, [], [⟨0, 32, .ro, .val 0⟩]⟩, -- FBP_EXEC_LAST: VALUE
  ⟨Reg.FBP_EXEC_MAX, [], [⟨0, 32, .rc, .val 0⟩]⟩, -- FBP_EXEC_MAX: VALUE
  ⟨Reg.FBP_DONE_LAST, [], [⟨0, 32, .ro, .val 0⟩]⟩, -- FBP_DONE_LAST: VALUE
  ⟨Reg.FBP_TRAP, [], [⟨0, 12, .ro, .val 0⟩, ⟨16, 2, .ro, .val 0⟩]⟩, -- FBP_TRAP: INST KIND
  ⟨Reg.FBP_STAT, [], [⟨0, 1, .w1c, .val 0⟩, ⟨1, 1, .w1c, .val 0⟩, ⟨2, 1, .w1c, .val 0⟩, ⟨3, 1, .w1c, .val 0⟩, ⟨4, 1, .w1c, .val 0⟩, ⟨5, 1, .w1c, .val 0⟩]⟩, -- FBP_STAT: WDOG TRAP STOPCMD DOGROUP FORCE REFUSED
  ⟨Reg.FBP_CNT_CYCLE, [], [⟨0, 32, .ro, .val 0⟩]⟩, -- FBP_CNT_CYCLE: COUNT
  ⟨Reg.FBP_CNT_WDOG, [], [⟨0, 32, .ro, .val 0⟩]⟩, -- FBP_CNT_WDOG: COUNT
  ⟨Reg.FBP_CNT_TRAP, [], [⟨0, 32, .ro, .val 0⟩]⟩, -- FBP_CNT_TRAP: COUNT
  ⟨Reg.FBP_CNT_GROUP, [], [⟨0, 32, .ro, .val 0⟩]⟩, -- FBP_CNT_GROUP: COUNT
  ⟨Reg.FBP_CNT_REFUSE, [], [⟨0, 32, .ro, .val 0⟩]⟩, -- FBP_CNT_REFUSE: COUNT
  ⟨Reg.FBP_CNT_FORCE, [], [⟨0, 32, .ro, .val 0⟩]⟩, -- FBP_CNT_FORCE: COUNT
  ⟨Reg.FBP_IRQ, [], [⟨0, 1, .w1c, .val 0⟩, ⟨1, 1, .w1c, .val 0⟩, ⟨2, 1, .w1c, .val 0⟩]⟩, -- FBP_IRQ: STOP APPLY FORCE
  ⟨Reg.FBP_IRQ_EN, [], [⟨0, 1, .rw, .val 0⟩, ⟨1, 1, .rw, .val 0⟩, ⟨2, 1, .rw, .val 0⟩]⟩, -- FBP_IRQ_EN: STOP APPLY FORCE
  ⟨Reg.FBP_INJ, [], [⟨0, 1, .rw, .val 0⟩, ⟨1, 1, .rw, .val 0⟩]⟩, -- FBP_INJ: WDOG TRAP
  ⟨Reg.FBP_FORCE_CNT, [], [⟨0, 8, .ro, .val 0⟩]⟩, -- FBP_FORCE_CNT: COUNT
  ⟨Reg.FBP_FORCE_CTRL, [], [⟨0, 11, .wo, .val 0⟩, ⟨16, 1, .wo, .val 0⟩, ⟨17, 1, .wo, .val 0⟩, ⟨24, 1, .wo, .val 0⟩]⟩, -- FBP_FORCE_CTRL: POINT SET CLR CLRALL
  ⟨Reg.FBP_FORCE_CMD, [], [⟨0, 11, .wo, .val 0⟩, ⟨16, 1, .wo, .val 0⟩, ⟨17, 1, .wo, .val 0⟩, ⟨24, 1, .wo, .val 0⟩]⟩, -- FBP_FORCE_CMD: POINT SET CLR CLRALL
  ⟨Reg.FBP_FORCE_MASK_c 0, [(0x4, 5)], [⟨0, 32, .ro, .val 0⟩]⟩, -- FBP_FORCE_MASK_c: FORCED
  ⟨Reg.FBP_FORCE_c_n 0 0, [(0x80, 5), (0x4, 32)], [⟨0, 32, .rw, .val 0⟩]⟩, -- FBP_FORCE_c_n: VALUE
  ⟨Reg.FBP_IDW_ADDR_k 0, [(0x8, 16)], [⟨0, 32, .rws, .val 0xFFFFFFFF⟩]⟩, -- FBP_IDW_ADDR_k: VALUE
  ⟨Reg.FBP_IDW_VAL_k 0, [(0x8, 16)], [⟨0, 32, .rws, .val 0⟩]⟩, -- FBP_IDW_VAL_k: VALUE
  ⟨Reg.FBP_XV_k 0, [(0x4, 4096)], [⟨0, 32, .rw, .val 0⟩]⟩ -- FBP_XV_k: VALUE
]

/-- Rows of block AIN. -/
def rowsAin : List RegRow := [
  ⟨Reg.AIN_STAT, [], [⟨0, 1, .w1c, .val 0⟩, ⟨1, 1, .w1c, .val 0⟩, ⟨2, 1, .w1c, .val 0⟩, ⟨3, 1, .w1c, .val 0⟩, ⟨4, 1, .w1c, .val 0⟩, ⟨5, 1, .w1c, .val 0⟩, ⟨6, 1, .w1c, .val 0⟩, ⟨7, 1, .w1c, .val 0⟩]⟩, -- AIN_STAT: OVR OPEN REV PLAUS REFFAIL CALDIFF CALFAIL SHORT
  ⟨Reg.AIN_CAL_CTRL, [], [⟨0, 1, .rw, .val 1⟩, ⟨16, 16, .rw, .val 50⟩]⟩, -- AIN_CAL_CTRL: EN LAPS
  ⟨Reg.AIN_CAL_TOL, [], [⟨0, 16, .rw, .val 64⟩]⟩, -- AIN_CAL_TOL: CODES
  ⟨Reg.AIN_PLAUS_0, [], [⟨0, 24, .rws, .img⟩, ⟨24, 8, .rws, .img⟩]⟩, -- AIN_PLAUS_0: TOL N
  ⟨Reg.AIN_PLAUS_1, [], [⟨0, 24, .rws, .img⟩, ⟨24, 8, .rws, .img⟩]⟩, -- AIN_PLAUS_1: TOL N
  ⟨Reg.AIN_CNT_OVR, [], [⟨0, 32, .ro, .val 0⟩]⟩, -- AIN_CNT_OVR: COUNT
  ⟨Reg.AIN_CNT_OPEN, [], [⟨0, 32, .ro, .val 0⟩]⟩, -- AIN_CNT_OPEN: COUNT
  ⟨Reg.AIN_CNT_REV, [], [⟨0, 32, .ro, .val 0⟩]⟩, -- AIN_CNT_REV: COUNT
  ⟨Reg.AIN_CNT_SHORT, [], [⟨0, 32, .ro, .val 0⟩]⟩, -- AIN_CNT_SHORT: COUNT
  ⟨Reg.AIN_CNT_PLAUS, [], [⟨0, 32, .ro, .val 0⟩]⟩, -- AIN_CNT_PLAUS: COUNT
  ⟨Reg.AIN_CNT_CAL, [], [⟨0, 32, .ro, .val 0⟩]⟩, -- AIN_CNT_CAL: COUNT
  ⟨Reg.AIN_CNT_CALFAIL, [], [⟨0, 32, .ro, .val 0⟩]⟩, -- AIN_CNT_CALFAIL: COUNT
  ⟨Reg.AIN_CNT_REF, [], [⟨0, 32, .ro, .val 0⟩]⟩, -- AIN_CNT_REF: COUNT
  ⟨Reg.AIN_IRQ, [], [⟨0, 1, .w1c, .val 0⟩, ⟨1, 1, .w1c, .val 0⟩, ⟨2, 1, .w1c, .val 0⟩, ⟨3, 1, .w1c, .val 0⟩]⟩, -- AIN_IRQ: FLAG PLAUS REF CAL
  ⟨Reg.AIN_IRQ_EN, [], [⟨0, 1, .rw, .val 0⟩, ⟨1, 1, .rw, .val 0⟩, ⟨2, 1, .rw, .val 0⟩, ⟨3, 1, .rw, .val 0⟩]⟩, -- AIN_IRQ_EN: FLAG PLAUS REF CAL
  ⟨Reg.AIN_INJ, [], [⟨0, 1, .rw, .val 0⟩, ⟨1, 1, .rw, .val 0⟩, ⟨2, 1, .rw, .val 0⟩, ⟨3, 1, .rw, .val 0⟩, ⟨8, 5, .rw, .val 0⟩, ⟨16, 2, .rw, .val 0⟩]⟩, -- AIN_INJ: LINEMON PLAUS CAL REF CHSEL BANKSEL
  ⟨Reg.AIN_BANK_b_STAT 0, [(0x10, 4)], [⟨0, 1, .ro, .val 0⟩, ⟨1, 1, .ro, .val 0⟩, ⟨4, 3, .ro, .val 0⟩, ⟨7, 1, .ro, .val 0⟩, ⟨8, 8, .ro, .val 0⟩, ⟨16, 2, .ro, .img⟩, ⟨18, 1, .ro, .val 0⟩]⟩, -- AIN_BANK_b_STAT: REFOK SPAREBUSY SPARECH NOSPARE SLICEFAIL REF CALRUN
  ⟨Reg.AIN_BANK_b_REFUV 0, [(0x10, 4)], [⟨0, 23, .ro, .val 0⟩]⟩, -- AIN_BANK_b_REFUV: UV
  ⟨Reg.AIN_n_RATE 0, [(0x40, 32)], [⟨0, 4, .rws, .img⟩]⟩, -- AIN_n_RATE: CODE
  ⟨Reg.AIN_n_RAW 0, [(0x40, 32)], [⟨0, 32, .ro, .val 0⟩]⟩, -- AIN_n_RAW: VALUE
  ⟨Reg.AIN_n_VAL 0, [(0x40, 32)], [⟨0, 32, .ro, .val 0⟩]⟩, -- AIN_n_VAL: VALUE
  ⟨Reg.AIN_n_FLAGS 0, [(0x40, 32)], [⟨0, 1, .ro, .val 1⟩, ⟨1, 1, .ro, .val 0⟩, ⟨2, 1, .ro, .val 0⟩, ⟨3, 1, .ro, .val 0⟩, ⟨4, 3, .ro, .val 1⟩, ⟨8, 1, .ro, .val 0⟩, ⟨9, 1, .ro, .val 0⟩, ⟨10, 1, .ro, .val 0⟩]⟩, -- AIN_n_FLAGS: OVR OPEN REV PLAUS OVRCAUSE FORCED SPARE VALID
  ⟨Reg.AIN_n_STAT 0, [(0x40, 32)], [⟨0, 1, .w1c, .val 0⟩, ⟨1, 1, .w1c, .val 0⟩, ⟨2, 1, .w1c, .val 0⟩, ⟨3, 1, .w1c, .val 0⟩, ⟨4, 1, .w1c, .val 0⟩, ⟨5, 1, .w1c, .val 0⟩, ⟨6, 1, .w1c, .val 0⟩]⟩, -- AIN_n_STAT: OVR OPEN REV PLAUS SHORT CALDIFF CALFAIL
  ⟨Reg.AIN_n_STAMP 0, [(0x40, 32)], [⟨0, 32, .ro, .val 0⟩]⟩, -- AIN_n_STAMP: VALUE
  ⟨Reg.AIN_n_FIELD 0, [(0x40, 32)], [⟨0, 32, .ro, .val 0⟩]⟩, -- AIN_n_FIELD: VALUE
  ⟨Reg.AIN_n_CAL_OFS 0, [(0x40, 32)], [⟨0, 32, .ro, .val 0⟩]⟩, -- AIN_n_CAL_OFS: VALUE
  ⟨Reg.AIN_n_CAL_GAIN 0, [(0x40, 32)], [⟨0, 32, .ro, .val 0x40000000⟩]⟩, -- AIN_n_CAL_GAIN: VALUE
  ⟨Reg.AIN_n_CNT_CONV 0, [(0x40, 32)], [⟨0, 32, .ro, .val 0⟩]⟩, -- AIN_n_CNT_CONV: COUNT
  ⟨Reg.AIN_n_CNT_BAD 0, [(0x40, 32)], [⟨0, 32, .ro, .val 0⟩]⟩ -- AIN_n_CNT_BAD: COUNT
]

/-- Rows of block AOUT. -/
def rowsAout : List RegRow := [
  ⟨Reg.AOUT_STAT, [], [⟨0, 1, .w1c, .val 0⟩, ⟨1, 1, .w1c, .val 0⟩, ⟨2, 1, .w1c, .val 0⟩, ⟨3, 1, .w1c, .val 0⟩, ⟨4, 1, .w1c, .val 0⟩]⟩, -- AOUT_STAT: SHORT OPEN REV DEV REFUSED
  ⟨Reg.AOUT_DEV, [], [⟨0, 16, .rw, .val 0x290⟩]⟩, -- AOUT_DEV: TOL
  ⟨Reg.AOUT_CNT_SHORT, [], [⟨0, 32, .ro, .val 0⟩]⟩, -- AOUT_CNT_SHORT: COUNT
  ⟨Reg.AOUT_CNT_OPEN, [], [⟨0, 32, .ro, .val 0⟩]⟩, -- AOUT_CNT_OPEN: COUNT
  ⟨Reg.AOUT_CNT_REV, [], [⟨0, 32, .ro, .val 0⟩]⟩, -- AOUT_CNT_REV: COUNT
  ⟨Reg.AOUT_CNT_DEV, [], [⟨0, 32, .ro, .val 0⟩]⟩, -- AOUT_CNT_DEV: COUNT
  ⟨Reg.AOUT_CNT_REFUSE, [], [⟨0, 32, .ro, .val 0⟩]⟩, -- AOUT_CNT_REFUSE: COUNT
  ⟨Reg.AOUT_IRQ, [], [⟨0, 1, .w1c, .val 0⟩, ⟨1, 1, .w1c, .val 0⟩]⟩, -- AOUT_IRQ: FAULT DEV
  ⟨Reg.AOUT_IRQ_EN, [], [⟨0, 1, .rw, .val 0⟩, ⟨1, 1, .rw, .val 0⟩]⟩, -- AOUT_IRQ_EN: FAULT DEV
  ⟨Reg.AOUT_INJ, [], [⟨0, 1, .rw, .val 0⟩, ⟨1, 1, .rw, .val 0⟩, ⟨2, 1, .rw, .val 0⟩, ⟨8, 4, .rw, .val 0⟩]⟩, -- AOUT_INJ: SHORTCHK OPENCHK RBCHK CHSEL
  ⟨Reg.AOUT_n_SET 0, [(0x20, 16)], [⟨0, 16, .rw, .val 0⟩]⟩, -- AOUT_n_SET: CODE
  ⟨Reg.AOUT_n_OUT 0, [(0x20, 16)], [⟨0, 16, .ro, .val 0⟩, ⟨16, 3, .ro, .val 0⟩]⟩, -- AOUT_n_OUT: CODE SRC
  ⟨Reg.AOUT_n_RB 0, [(0x20, 16)], [⟨0, 32, .ro, .val 0⟩]⟩, -- AOUT_n_RB: VALUE
  ⟨Reg.AOUT_n_STAT 0, [(0x20, 16)], [⟨0, 1, .w1c, .val 0⟩, ⟨1, 1, .w1c, .val 0⟩, ⟨2, 1, .w1c, .val 0⟩, ⟨3, 1, .w1c, .val 0⟩, ⟨16, 1, .ro, .val 0⟩, ⟨17, 1, .ro, .val 0⟩, ⟨18, 1, .ro, .val 0⟩]⟩ -- AOUT_n_STAT: SHORT OPEN REV DEV SHORTNOW OPENNOW REVNOW
]

/-- Rows of block DIO. -/
def rowsDio : List RegRow := [
  ⟨Reg.DIO_STAT, [], [⟨0, 1, .w1c, .val 0⟩, ⟨1, 1, .w1c, .val 0⟩, ⟨2, 1, .w1c, .val 0⟩, ⟨3, 1, .w1c, .val 0⟩, ⟨4, 1, .w1c, .val 0⟩, ⟨5, 1, .w1c, .val 0⟩, ⟨6, 1, .w1c, .val 0⟩, ⟨7, 1, .w1c, .val 0⟩, ⟨8, 1, .w1c, .val 0⟩, ⟨9, 1, .w1c, .val 0⟩, ⟨10, 1, .w1c, .val 0⟩]⟩, -- DIO_STAT: DIOPEN DISHORT DIREV DOSHORT DOOPEN DOREV DOLATCH FLDLOW FLDREV RATE REFUSED
  ⟨Reg.DIO_FLD, [], [⟨0, 16, .ro, .val 0⟩, ⟨16, 1, .ro, .val 0⟩, ⟨17, 1, .ro, .val 0⟩]⟩, -- DIO_FLD: MV FLDOK REV
  ⟨Reg.DIO_DI_STATE, [], [⟨0, 32, .ro, .val 0⟩]⟩, -- DIO_DI_STATE: BITS
  ⟨Reg.DIO_DI_VALID, [], [⟨0, 32, .ro, .val 0⟩]⟩, -- DIO_DI_VALID: BITS
  ⟨Reg.DIO_DO_SET, [], [⟨0, 16, .rw, .val 0⟩]⟩, -- DIO_DO_SET: BITS
  ⟨Reg.DIO_DO_OUT, [], [⟨0, 32, .ro, .val 0⟩]⟩, -- DIO_DO_OUT: BITS
  ⟨Reg.DIO_DO_RETRY, [], [⟨0, 16, .rw, .val 100⟩, ⟨16, 4, .rw, .val 10⟩]⟩, -- DIO_DO_RETRY: MS N
  ⟨Reg.DIO_CNT_DIFAULT, [], [⟨0, 32, .ro, .val 0⟩]⟩, -- DIO_CNT_DIFAULT: COUNT
  ⟨Reg.DIO_CNT_DOSHORT, [], [⟨0, 32, .ro, .val 0⟩]⟩, -- DIO_CNT_DOSHORT: COUNT
  ⟨Reg.DIO_CNT_DOOPEN, [], [⟨0, 32, .ro, .val 0⟩]⟩, -- DIO_CNT_DOOPEN: COUNT
  ⟨Reg.DIO_CNT_DOREV, [], [⟨0, 32, .ro, .val 0⟩]⟩, -- DIO_CNT_DOREV: COUNT
  ⟨Reg.DIO_CNT_FLD, [], [⟨0, 32, .ro, .val 0⟩]⟩, -- DIO_CNT_FLD: COUNT
  ⟨Reg.DIO_CNT_REFUSE, [], [⟨0, 32, .ro, .val 0⟩]⟩, -- DIO_CNT_REFUSE: COUNT
  ⟨Reg.DIO_IRQ, [], [⟨0, 1, .w1c, .val 0⟩, ⟨1, 1, .w1c, .val 0⟩, ⟨2, 1, .w1c, .val 0⟩, ⟨3, 1, .w1c, .val 0⟩]⟩, -- DIO_IRQ: DIFAULT DOFAULT FLD DOLATCH
  ⟨Reg.DIO_IRQ_EN, [], [⟨0, 1, .rw, .val 0⟩, ⟨1, 1, .rw, .val 0⟩, ⟨2, 1, .rw, .val 0⟩, ⟨3, 1, .rw, .val 0⟩]⟩, -- DIO_IRQ_EN: DIFAULT DOFAULT FLD DOLATCH
  ⟨Reg.DIO_INJ, [], [⟨0, 1, .rw, .val 0⟩, ⟨1, 1, .rw, .val 0⟩, ⟨2, 1, .rw, .val 0⟩, ⟨3, 1, .rw, .val 0⟩, ⟨8, 5, .rw, .val 0⟩]⟩, -- DIO_INJ: DILINE DOSHORT DOOPEN FLD POINTSEL
  ⟨Reg.DIO_DI_n_CTRL 0, [(0x10, 32)], [⟨0, 14, .rws, .img⟩]⟩, -- DIO_DI_n_CTRL: FILTER
  ⟨Reg.DIO_DI_n_CNT 0, [(0x10, 32)], [⟨0, 32, .ro, .val 0⟩]⟩, -- DIO_DI_n_CNT: VALUE
  ⟨Reg.DIO_DI_n_STAT 0, [(0x10, 32)], [⟨0, 1, .w1c, .val 0⟩, ⟨1, 1, .w1c, .val 0⟩, ⟨2, 1, .w1c, .val 0⟩, ⟨3, 1, .w1c, .val 0⟩, ⟨16, 1, .ro, .val 0⟩, ⟨17, 1, .ro, .val 0⟩]⟩, -- DIO_DI_n_STAT: OPEN SHORT REV RATE STATE LINEOK
  ⟨Reg.DIO_DI_n_UA 0, [(0x10, 32)], [⟨0, 32, .ro, .val 0⟩]⟩, -- DIO_DI_n_UA: VALUE
  ⟨Reg.DIO_DO_n_CTRL 0, [(0x10, 16)], [⟨0, 1, .wo, .val 0⟩]⟩, -- DIO_DO_n_CTRL: CLRFAULT
  ⟨Reg.DIO_DO_n_STAT 0, [(0x10, 16)], [⟨0, 1, .w1c, .val 0⟩, ⟨1, 1, .w1c, .val 0⟩, ⟨2, 1, .w1c, .val 0⟩, ⟨16, 1, .ro, .val 0⟩, ⟨17, 4, .ro, .val 0⟩, ⟨24, 1, .ro, .val 0⟩]⟩, -- DIO_DO_n_STAT: SHORT OPEN REV LATCHED TRIES ON
  ⟨Reg.DIO_DO_n_MA 0, [(0x10, 16)], [⟨0, 12, .ro, .val 0⟩]⟩ -- DIO_DO_n_MA: MA
]

/-- Rows of block MTR, part 1. -/
def rowsMtr1 : List RegRow := [
  ⟨Reg.MTR_STAT, [], [⟨0, 1, .w1c, .val 0⟩, ⟨1, 1, .w1c, .val 0⟩, ⟨2, 1, .w1c, .val 0⟩, ⟨3, 1, .w1c, .val 0⟩, ⟨4, 1, .w1c, .val 0⟩, ⟨5, 1, .w1c, .val 0⟩, ⟨6, 1, .w1c, .val 0⟩]⟩, -- MTR_STAT: CLKFAIL STUCK OVL WRAP NVERR RESTOREOLD THMERR
  ⟨Reg.MTR_CLK, [], [⟨0, 12, .ro, .img⟩]⟩, -- MTR_CLK: DEC
  ⟨Reg.MTR_SNAP_CTRL, [], [⟨0, 1, .wo, .val 0⟩]⟩, -- MTR_SNAP_CTRL: SNAP
  ⟨Reg.MTR_SNAP_EPOCH_LO, [], [⟨0, 32, .ro, .val 0⟩]⟩, -- MTR_SNAP_EPOCH_LO: EPOCH
  ⟨Reg.MTR_NVSAVE, [], [⟨0, 16, .rw, .val 50⟩]⟩, -- MTR_NVSAVE: LAPS
  ⟨Reg.MTR_RESTORE, [], [⟨0, 2, .ro, .nv⟩, ⟨8, 24, .ro, .nv⟩]⟩, -- MTR_RESTORE: SRC LOST
  ⟨Reg.MTR_CNT_MODFAULT, [], [⟨0, 32, .ro, .val 0⟩]⟩, -- MTR_CNT_MODFAULT: COUNT
  ⟨Reg.MTR_CNT_BADLAP, [], [⟨0, 32, .ro, .val 0⟩]⟩, -- MTR_CNT_BADLAP: COUNT
  ⟨Reg.MTR_CNT_WRAP, [], [⟨0, 32, .ro, .val 0⟩]⟩, -- MTR_CNT_WRAP: COUNT
  ⟨Reg.MTR_CNT_NVSAVE, [], [⟨0, 32, .ro, .val 0⟩]⟩, -- MTR_CNT_NVSAVE: COUNT
  ⟨Reg.MTR_CNT_THMERR, [], [⟨0, 32, .ro, .val 0⟩]⟩, -- MTR_CNT_THMERR: COUNT
  ⟨Reg.MTR_IRQ, [], [⟨0, 1, .w1c, .val 0⟩, ⟨1, 1, .w1c, .val 0⟩, ⟨2, 1, .w1c, .val 0⟩, ⟨3, 1, .w1c, .val 0⟩]⟩, -- MTR_IRQ: MODFAULT WRAP SNAP THMERR
  ⟨Reg.MTR_IRQ_EN, [], [⟨0, 1, .rw, .val 0⟩, ⟨1, 1, .rw, .val 0⟩, ⟨2, 1, .rw, .val 0⟩, ⟨3, 1, .rw, .val 0⟩]⟩, -- MTR_IRQ_EN: MODFAULT WRAP SNAP THMERR
  ⟨Reg.MTR_INJ, [], [⟨0, 1, .rw, .val 0⟩, ⟨1, 1, .rw, .val 0⟩, ⟨2, 1, .rw, .val 0⟩, ⟨3, 1, .rw, .val 0⟩, ⟨8, 2, .rw, .val 0⟩, ⟨16, 4, .rw, .val 0⟩]⟩, -- MTR_INJ: STUCK GATE NVCRC THM FSEL CHSEL
  ⟨Reg.MTR_F_f_CFG 0, [(0x400, 4)], [⟨0, 1, .ro, .img⟩]⟩, -- MTR_F_f_CFG: EN
  ⟨Reg.MTR_F_f_VFS 0, [(0x400, 4)], [⟨0, 32, .ro, .img⟩]⟩, -- MTR_F_f_VFS: VALUE
  ⟨Reg.MTR_F_f_IFS 0, [(0x400, 4)], [⟨0, 32, .ro, .img⟩]⟩, -- MTR_F_f_IFS: VALUE
  ⟨Reg.MTR_F_f_IRATED 0, [(0x400, 4)], [⟨0, 32, .ro, .img⟩]⟩, -- MTR_F_f_IRATED: VALUE
  ⟨Reg.MTR_F_f_MODE 0, [(0x400, 4)], [⟨0, 1, .rws, .img⟩]⟩, -- MTR_F_f_MODE: MODE
  ⟨Reg.MTR_F_f_STAT 0, [(0x400, 4)], [⟨0, 1, .w1c, .val 0⟩, ⟨1, 1, .w1c, .val 0⟩, ⟨2, 1, .w1c, .val 0⟩, ⟨3, 1, .w1c, .val 0⟩, ⟨4, 1, .ro, .val 0⟩, ⟨16, 6, .ro, .val 0⟩]⟩, -- MTR_F_f_STAT: CLKFAIL STUCK OVL WRAP FREQBAD CHFAULT
  ⟨Reg.MTR_F_f_FREQ 0, [(0x400, 4)], [⟨0, 32, .ro, .val 0⟩]⟩, -- MTR_F_f_FREQ: VALUE
  ⟨Reg.MTR_F_f_CNT_BADLAP 0, [(0x400, 4)], [⟨0, 32, .ro, .val 0⟩]⟩, -- MTR_F_f_CNT_BADLAP: VALUE
  ⟨Reg.MTR_F_f_p_VRMS 0 0, [(0x400, 4), (0x40, 3)], [⟨0, 32, .ro, .val 0⟩]⟩, -- MTR_F_f_p_VRMS: VALUE
  ⟨Reg.MTR_F_f_p_IRMS 0 0, [(0x400, 4), (0x40, 3)], [⟨0, 32, .ro, .val 0⟩]⟩, -- MTR_F_f_p_IRMS: VALUE
  ⟨Reg.MTR_F_f_p_P 0 0, [(0x400, 4), (0x40, 3)], [⟨0, 32, .ro, .val 0⟩]⟩, -- MTR_F_f_p_P: VALUE
  ⟨Reg.MTR_F_f_p_Q 0 0, [(0x400, 4), (0x40, 3)], [⟨0, 32, .ro, .val 0⟩]⟩, -- MTR_F_f_p_Q: VALUE
  ⟨Reg.MTR_F_f_p_S 0 0, [(0x400, 4), (0x40, 3)], [⟨0, 32, .ro, .val 0⟩]⟩, -- MTR_F_f_p_S: VALUE
  ⟨Reg.MTR_F_f_p_PF 0 0, [(0x400, 4), (0x40, 3)], [⟨0, 32, .ro, .val 0⟩]⟩, -- MTR_F_f_p_PF: VALUE
  ⟨Reg.MTR_F_f_p_THDV 0 0, [(0x400, 4), (0x40, 3)], [⟨0, 32, .ro, .val 0⟩]⟩, -- MTR_F_f_p_THDV: VALUE
  ⟨Reg.MTR_F_f_p_THDI 0 0, [(0x400, 4), (0x40, 3)], [⟨0, 32, .ro, .val 0⟩]⟩, -- MTR_F_f_p_THDI: VALUE
  ⟨Reg.MTR_F_f_p_STATE 0 0, [(0x400, 4), (0x40, 3)], [⟨0, 3, .ro, .val 0⟩, ⟨4, 1, .ro, .val 0⟩, ⟨5, 1, .ro, .val 0⟩]⟩, -- MTR_F_f_p_STATE: SEG ACCUM FAULT
  ⟨Reg.MTR_F_f_TOT_P 0, [(0x400, 4)], [⟨0, 32, .ro, .val 0⟩]⟩, -- MTR_F_f_TOT_P: VALUE
  ⟨Reg.MTR_F_f_TOT_Q 0, [(0x400, 4)], [⟨0, 32, .ro, .val 0⟩]⟩, -- MTR_F_f_TOT_Q: VALUE
  ⟨Reg.MTR_F_f_TOT_S 0, [(0x400, 4)], [⟨0, 32, .ro, .val 0⟩]⟩, -- MTR_F_f_TOT_S: VALUE
  ⟨Reg.MTR_F_f_E_k_LO 0 0, [(0x400, 4), (0x8, 24)], [⟨0, 32, .ro, .nv⟩]⟩, -- MTR_F_f_E_k_LO: COUNT
  ⟨Reg.MTR_F_f_E_k_HI 0 0, [(0x400, 4), (0x8, 24)], [⟨0, 32, .ro, .nv⟩]⟩, -- MTR_F_f_E_k_HI: COUNT
  ⟨Reg.MTR_F_f_UNMEAS_LO 0, [(0x400, 4)], [⟨0, 32, .ro, .nv⟩]⟩, -- MTR_F_f_UNMEAS_LO: COUNT
  ⟨Reg.MTR_F_f_UNMEAS_HI 0, [(0x400, 4)], [⟨0, 32, .ro, .nv⟩]⟩, -- MTR_F_f_UNMEAS_HI: COUNT
  ⟨Reg.MTR_F_f_UNSAVED_AI 0, [(0x400, 4)], [⟨0, 32, .ro, .nv⟩]⟩, -- MTR_F_f_UNSAVED_AI: MWH
  ⟨Reg.MTR_F_f_UNSAVED_AE 0, [(0x400, 4)], [⟨0, 32, .ro, .nv⟩]⟩ -- MTR_F_f_UNSAVED_AE: MWH
]

/-- Rows of block MTR, part 2. -/
def rowsMtr2 : List RegRow := [
  ⟨Reg.MTR_F_f_SNAP_t 0 0, [(0x400, 4), (0x4, 6)], [⟨0, 32, .ro, .val 0⟩]⟩, -- MTR_F_f_SNAP_t: WH
  ⟨Reg.MTR_F_f_GAIN_c 0 0, [(0x400, 4), (0x8, 6)], [⟨0, 32, .rws, .img⟩]⟩, -- MTR_F_f_GAIN_c: VALUE
  ⟨Reg.MTR_F_f_OFS_c 0 0, [(0x400, 4), (0x8, 6)], [⟨0, 32, .rws, .img⟩]⟩, -- MTR_F_f_OFS_c: VALUE
  ⟨Reg.MTR_F_f_p_PGAIN 0 0, [(0x400, 4), (0x20, 3)], [⟨0, 32, .rws, .img⟩]⟩, -- MTR_F_f_p_PGAIN: VALUE
  ⟨Reg.MTR_F_f_p_POFS 0 0, [(0x400, 4), (0x20, 3)], [⟨0, 32, .rws, .img⟩]⟩, -- MTR_F_f_p_POFS: VALUE
  ⟨Reg.MTR_F_f_p_QGAIN 0 0, [(0x400, 4), (0x20, 3)], [⟨0, 32, .rws, .img⟩]⟩, -- MTR_F_f_p_QGAIN: VALUE
  ⟨Reg.MTR_F_f_p_QOFS 0 0, [(0x400, 4), (0x20, 3)], [⟨0, 32, .rws, .img⟩]⟩, -- MTR_F_f_p_QOFS: VALUE
  ⟨Reg.MTR_F_f_p_PHI 0 0, [(0x400, 4), (0x20, 3)], [⟨0, 32, .rws, .img⟩]⟩, -- MTR_F_f_p_PHI: VALUE
  ⟨Reg.MTR_F_f_SEGTH_i 0 0, [(0x400, 4), (0x4, 7)], [⟨0, 32, .rws, .img⟩]⟩, -- MTR_F_f_SEGTH_i: MA
  ⟨Reg.MTR_F_f_p_SGAIN_s 0 0 0, [(0x400, 4), (0x40, 3), (0x8, 8)], [⟨0, 32, .rws, .img⟩]⟩, -- MTR_F_f_p_SGAIN_s: VALUE
  ⟨Reg.MTR_F_f_p_SPHI_s 0 0 0, [(0x400, 4), (0x40, 3), (0x8, 8)], [⟨0, 32, .rws, .img⟩]⟩, -- MTR_F_f_p_SPHI_s: VALUE
  ⟨Reg.MTR_F_f_H_q_h 0 0 0, [(0x800, 4), (0x100, 6), (0x4, 63)], [⟨0, 32, .ro, .val 0⟩]⟩, -- MTR_F_f_H_q_h: VALUE
  ⟨Reg.MTR_T_t_CFG 0, [(0x40, 16)], [⟨0, 2, .ro, .img⟩, ⟨8, 5, .ro, .img⟩, ⟨16, 5, .ro, .img⟩, ⟨24, 5, .ro, .img⟩, ⟨31, 1, .ro, .img⟩]⟩, -- MTR_T_t_CFG: FSRC FIDX TS TR LOC
  ⟨Reg.MTR_T_t_KPULSE 0, [(0x40, 16)], [⟨0, 32, .ro, .img⟩]⟩, -- MTR_T_t_KPULSE: VALUE
  ⟨Reg.MTR_T_t_DTMIN 0, [(0x40, 16)], [⟨0, 32, .rws, .img⟩]⟩, -- MTR_T_t_DTMIN: VALUE
  ⟨Reg.MTR_T_t_QCUT 0, [(0x40, 16)], [⟨0, 32, .rws, .img⟩]⟩, -- MTR_T_t_QCUT: VALUE
  ⟨Reg.MTR_T_t_PNOM 0, [(0x40, 16)], [⟨0, 32, .rws, .img⟩]⟩, -- MTR_T_t_PNOM: VALUE
  ⟨Reg.MTR_T_t_STAT 0, [(0x40, 16)], [⟨0, 1, .w1c, .val 0⟩, ⟨1, 1, .w1c, .val 0⟩, ⟨2, 1, .ro, .val 0⟩]⟩, -- MTR_T_t_STAT: ERR WRAP FORCED
  ⟨Reg.MTR_T_t_FLOW 0, [(0x40, 16)], [⟨0, 32, .ro, .val 0⟩]⟩, -- MTR_T_t_FLOW: VALUE
  ⟨Reg.MTR_T_t_POWER 0, [(0x40, 16)], [⟨0, 32, .ro, .val 0⟩]⟩, -- MTR_T_t_POWER: VALUE
  ⟨Reg.MTR_T_t_HEAT_LO 0, [(0x40, 16)], [⟨0, 32, .ro, .nv⟩]⟩, -- MTR_T_t_HEAT_LO: COUNT
  ⟨Reg.MTR_T_t_HEAT_HI 0, [(0x40, 16)], [⟨0, 32, .ro, .nv⟩]⟩, -- MTR_T_t_HEAT_HI: COUNT
  ⟨Reg.MTR_T_t_COOL_LO 0, [(0x40, 16)], [⟨0, 32, .ro, .nv⟩]⟩, -- MTR_T_t_COOL_LO: COUNT
  ⟨Reg.MTR_T_t_COOL_HI 0, [(0x40, 16)], [⟨0, 32, .ro, .nv⟩]⟩, -- MTR_T_t_COOL_HI: COUNT
  ⟨Reg.MTR_T_t_VOL_LO 0, [(0x40, 16)], [⟨0, 32, .ro, .nv⟩]⟩, -- MTR_T_t_VOL_LO: COUNT
  ⟨Reg.MTR_T_t_VOL_HI 0, [(0x40, 16)], [⟨0, 32, .ro, .nv⟩]⟩, -- MTR_T_t_VOL_HI: COUNT
  ⟨Reg.MTR_T_t_ERRLAPS 0, [(0x40, 16)], [⟨0, 32, .ro, .nv⟩]⟩, -- MTR_T_t_ERRLAPS: VALUE
  ⟨Reg.MTR_T_t_UNSAVED 0, [(0x40, 16)], [⟨0, 32, .ro, .nv⟩]⟩ -- MTR_T_t_UNSAVED: VALUE
]

/-- Rows of block MTR. -/
def rowsMtr : List RegRow := rowsMtr1 ++ rowsMtr2

/-- Rows of block CAN. -/
def rowsCan : List RegRow := [
  ⟨Reg.CAN_CTRL 0, [(0x1000, 4)], [⟨0, 2, .rw, .val 0⟩, ⟨4, 1, .rw, .val 0⟩, ⟨5, 1, .wo, .val 0⟩, ⟨6, 1, .wo, .val 0⟩, ⟨7, 1, .rw, .val 0⟩, ⟨8, 1, .rw, .val 0⟩, ⟨9, 1, .rw, .val 0⟩]⟩, -- CANn_CTRL: MODE AUTORECOV RECOVER RESUME LFHOLD PXHD TDCEN
  ⟨Reg.CAN_NBT 0, [(0x1000, 4)], [⟨0, 6, .rw, .img⟩, ⟨8, 9, .rw, .img⟩, ⟨17, 7, .rw, .img⟩, ⟨24, 7, .rw, .img⟩]⟩, -- CANn_NBT: NBRP NTSEG1 NTSEG2 NSJW
  ⟨Reg.CAN_DBT 0, [(0x1000, 4)], [⟨0, 6, .rw, .img⟩, ⟨8, 6, .rw, .img⟩, ⟨16, 5, .rw, .img⟩, ⟨24, 5, .rw, .img⟩]⟩, -- CANn_DBT: DBRP DTSEG1 DTSEG2 DSJW
  ⟨Reg.CAN_TDC 0, [(0x1000, 4)], [⟨0, 7, .rw, .img⟩, ⟨8, 7, .ro, .val 0⟩]⟩, -- CANn_TDC: TDCO TDCV
  ⟨Reg.CAN_STATE 0, [(0x1000, 4)], [⟨0, 3, .ro, .val 0⟩, ⟨8, 8, .ro, .val 0⟩, ⟨16, 7, .ro, .val 0⟩, ⟨23, 1, .ro, .val 0⟩, ⟨24, 3, .ro, .val 0⟩, ⟨27, 3, .ro, .val 0⟩]⟩, -- CANn_STATE: STATE TEC REC RP LEC DLEC
  ⟨Reg.CAN_LINE 0, [(0x1000, 4)], [⟨0, 6, .ro, .val 0⟩, ⟨16, 16, .ro, .val 0⟩]⟩, -- CANn_LINE: FAULT VDOM
  ⟨Reg.CAN_TSC 0, [(0x1000, 4)], [⟨0, 32, .ro, .val 0⟩]⟩, -- CANn_TSC: VALUE
  ⟨Reg.CAN_CORR_TSC 0, [(0x1000, 4)], [⟨0, 32, .ro, .val 0⟩]⟩, -- CANn_CORR_TSC: VALUE
  ⟨Reg.CAN_CORR_SEC_LO 0, [(0x1000, 4)], [⟨0, 32, .ro, .val 0⟩]⟩, -- CANn_CORR_SEC_LO: VALUE
  ⟨Reg.CAN_CORR_SEC_HI 0, [(0x1000, 4)], [⟨0, 32, .ro, .val 0⟩]⟩, -- CANn_CORR_SEC_HI: VALUE
  ⟨Reg.CAN_CORR_NS 0, [(0x1000, 4)], [⟨0, 30, .ro, .val 0⟩, ⟨31, 1, .ro, .val 0⟩]⟩, -- CANn_CORR_NS: NS TIMEVALID
  ⟨Reg.CAN_STAT 0, [(0x1000, 4)], [⟨0, 1, .w1c, .val 0⟩, ⟨1, 1, .w1c, .val 0⟩, ⟨2, 1, .w1c, .val 0⟩, ⟨3, 1, .w1c, .val 0⟩, ⟨4, 1, .w1c, .val 0⟩, ⟨5, 1, .w1c, .val 0⟩, ⟨6, 1, .w1c, .val 0⟩, ⟨7, 1, .w1c, .val 0⟩, ⟨8, 1, .w1c, .val 0⟩, ⟨9, 1, .w1c, .val 0⟩, ⟨10, 1, .w1c, .val 0⟩, ⟨11, 1, .w1c, .val 0⟩]⟩, -- CANn_STAT: BUSOFF EPASS LINEFAULT OPEN RXDROP STGOVR TXFAIL PROTO REFUSED SIGSAT GATED SIGLEN
  ⟨Reg.CAN_CNT_RXFRAME 0, [(0x1000, 4)], [⟨0, 32, .ro, .val 0⟩]⟩, -- CANn_CNT_RXFRAME: COUNT
  ⟨Reg.CAN_CNT_TXFRAME 0, [(0x1000, 4)], [⟨0, 32, .ro, .val 0⟩]⟩, -- CANn_CNT_TXFRAME: COUNT
  ⟨Reg.CAN_CNT_NOMATCH 0, [(0x1000, 4)], [⟨0, 32, .ro, .val 0⟩]⟩, -- CANn_CNT_NOMATCH: COUNT
  ⟨Reg.CAN_CNT_RXDROP 0, [(0x1000, 4)], [⟨0, 32, .ro, .val 0⟩]⟩, -- CANn_CNT_RXDROP: COUNT
  ⟨Reg.CAN_CNT_STGOVR 0, [(0x1000, 4)], [⟨0, 32, .ro, .val 0⟩]⟩, -- CANn_CNT_STGOVR: COUNT
  ⟨Reg.CAN_CNT_ERR 0, [(0x1000, 4)], [⟨0, 32, .ro, .val 0⟩]⟩, -- CANn_CNT_ERR: COUNT
  ⟨Reg.CAN_CNT_BUSOFF 0, [(0x1000, 4)], [⟨0, 32, .ro, .val 0⟩]⟩, -- CANn_CNT_BUSOFF: COUNT
  ⟨Reg.CAN_CNT_LINEFAULT 0, [(0x1000, 4)], [⟨0, 32, .ro, .val 0⟩]⟩, -- CANn_CNT_LINEFAULT: COUNT
  ⟨Reg.CAN_CNT_TXREPLACE 0, [(0x1000, 4)], [⟨0, 32, .ro, .val 0⟩]⟩, -- CANn_CNT_TXREPLACE: COUNT
  ⟨Reg.CAN_CNT_REFUSE 0, [(0x1000, 4)], [⟨0, 32, .ro, .val 0⟩]⟩, -- CANn_CNT_REFUSE: COUNT
  ⟨Reg.CAN_IRQ 0, [(0x1000, 4)], [⟨0, 1, .w1c, .val 0⟩, ⟨1, 1, .w1c, .val 0⟩, ⟨2, 1, .w1c, .val 0⟩, ⟨3, 1, .w1c, .val 0⟩, ⟨4, 1, .w1c, .val 0⟩, ⟨5, 1, .w1c, .val 0⟩]⟩, -- CANn_IRQ: RXQ0 RXQ1 TXDONE STATE LINE DROP
  ⟨Reg.CAN_IRQ_EN 0, [(0x1000, 4)], [⟨0, 1, .rw, .val 0⟩, ⟨1, 1, .rw, .val 0⟩, ⟨2, 1, .rw, .val 0⟩, ⟨3, 1, .rw, .val 0⟩, ⟨4, 1, .rw, .val 0⟩, ⟨5, 1, .rw, .val 0⟩]⟩, -- CANn_IRQ_EN: RXQ0 RXQ1 TXDONE STATE LINE DROP
  ⟨Reg.CAN_INJ 0, [(0x1000, 4)], [⟨0, 1, .rw, .val 0⟩, ⟨1, 1, .rw, .val 0⟩, ⟨2, 1, .rw, .val 0⟩, ⟨8, 3, .rw, .val 0⟩]⟩, -- CANn_INJ: CRC LINE STG LINESEL
  ⟨Reg.CAN_RXQ_q_STAT 0 0, [(0x1000, 4), (0x10, 2)], [⟨0, 7, .ro, .val 0⟩, ⟨8, 1, .ro, .img⟩, ⟨16, 16, .ro, .val 0⟩]⟩, -- CANn_RXQ_q_STAT: FILL MODE HEADSEQ
  ⟨Reg.CAN_RXQ_q_POP 0 0, [(0x1000, 4), (0x10, 2)], [⟨0, 16, .wo, .val 0⟩]⟩, -- CANn_RXQ_q_POP: SEQ
  ⟨Reg.CAN_RXQ_q_HEAD_w 0 0 0, [(0x1000, 4), (0x50, 2), (0x4, 20)], [⟨0, 32, .ro, .val 0⟩]⟩, -- CANn_RXQ_q_HEAD_w: VALUE
  ⟨Reg.CAN_FILT_k_MASK 0 0, [(0x1000, 4), (0x8, 64)], [⟨0, 29, .ro, .img⟩, ⟨29, 1, .ro, .img⟩, ⟨30, 1, .ro, .img⟩]⟩, -- CANn_FILT_k_MASK: ID IDE FDF
  ⟨Reg.CAN_FILT_k_MATCH 0 0, [(0x1000, 4), (0x8, 64)], [⟨0, 29, .ro, .img⟩, ⟨29, 1, .ro, .img⟩, ⟨30, 1, .ro, .img⟩]⟩, -- CANn_FILT_k_MATCH: ID IDE FDF
  ⟨Reg.CAN_FILT_ACT_j 0 0, [(0x1000, 4), (0x4, 16)], [⟨0, 32, .ro, .img⟩]⟩, -- CANn_FILT_ACT_j: ACT
  ⟨Reg.CAN_TXB_b_CTRL 0 0, [(0x1000, 4), (0x50, 32)], [⟨0, 1, .rw, .val 0⟩, ⟨1, 1, .wo, .val 0⟩, ⟨8, 1, .ro, .val 0⟩, ⟨9, 1, .ro, .val 0⟩, ⟨10, 1, .ro, .val 0⟩]⟩, -- CANn_TXB_b_CTRL: READY ABORT DONE FAILED GATED
  ⟨Reg.CAN_TXB_b_ID 0 0, [(0x1000, 4), (0x50, 32)], [⟨0, 32, .rw, .img⟩]⟩, -- CANn_TXB_b_ID: VALUE
  ⟨Reg.CAN_TXB_b_FMT 0 0, [(0x1000, 4), (0x50, 32)], [⟨0, 32, .rw, .img⟩]⟩, -- CANn_TXB_b_FMT: VALUE
  ⟨Reg.CAN_TXB_b_STAMP 0 0, [(0x1000, 4), (0x50, 32)], [⟨0, 32, .ro, .val 0⟩]⟩, -- CANn_TXB_b_STAMP: VALUE
  ⟨Reg.CAN_TXB_b_DATA_i 0 0 0, [(0x1000, 4), (0x50, 32), (0x4, 16)], [⟨0, 32, .rw, .val 0⟩]⟩ -- CANn_TXB_b_DATA_i: VALUE
]

/-- Rows of block ETH. -/
def rowsEth : List RegRow := [
  ⟨Reg.ETH_STAT, [], [⟨0, 1, .w1c, .val 0⟩, ⟨1, 1, .w1c, .val 0⟩, ⟨2, 1, .w1c, .val 0⟩, ⟨3, 1, .w1c, .val 0⟩, ⟨4, 1, .w1c, .val 0⟩, ⟨5, 1, .w1c, .val 0⟩]⟩, -- ETH_STAT: RXOVR DROP ARPMISS NOKEY LINKDOWN REFUSED
  ⟨Reg.ETH_CTRL, [], [⟨0, 1, .rws, .img⟩]⟩, -- ETH_CTRL: TEL_EN
  ⟨Reg.ETH_TEL_INFO, [], [⟨0, 12, .ro, .img⟩, ⟨16, 8, .ro, .img⟩]⟩, -- ETH_TEL_INFO: NSUB TPER
  ⟨Reg.ETH_PORT_p_CFG 0, [(0x20, 3)], [⟨0, 1, .rw, .img⟩, ⟨1, 1, .rw, .img⟩, ⟨2, 1, .rw, .img⟩, ⟨3, 1, .rw, .img⟩, ⟨16, 12, .rw, .img⟩]⟩, -- ETH_PORT_p_CFG: EN HWP PTP TEL VLAN
  ⟨Reg.ETH_PORT_p_ADDR 0, [(0x20, 3)], [⟨0, 32, .rws, .img⟩]⟩, -- ETH_PORT_p_ADDR: IP
  ⟨Reg.ETH_PORT_p_NET 0, [(0x20, 3)], [⟨0, 6, .rws, .img⟩]⟩, -- ETH_PORT_p_NET: PREFIX
  ⟨Reg.ETH_PORT_p_GW 0, [(0x20, 3)], [⟨0, 32, .rws, .img⟩]⟩, -- ETH_PORT_p_GW: IP
  ⟨Reg.ETH_PORT_p_LINK 0, [(0x20, 3)], [⟨0, 1, .ro, .val 0⟩, ⟨1, 2, .ro, .val 0⟩]⟩, -- ETH_PORT_p_LINK: UP SPEED
  ⟨Reg.ETH_PORT_p_MACLO 0, [(0x20, 3)], [⟨0, 32, .ro, .factory⟩]⟩, -- ETH_PORT_p_MACLO: VALUE
  ⟨Reg.ETH_PORT_p_MACHI 0, [(0x20, 3)], [⟨0, 32, .ro, .factory⟩]⟩, -- ETH_PORT_p_MACHI: VALUE
  ⟨Reg.ETH_PORT_p_CNT_RXERR 0, [(0x20, 3)], [⟨0, 32, .ro, .val 0⟩]⟩, -- ETH_PORT_p_CNT_RXERR: VALUE
  ⟨Reg.ETH_CNT_TXTEL, [], [⟨0, 32, .ro, .val 0⟩]⟩, -- ETH_CNT_TXTEL: COUNT
  ⟨Reg.ETH_CNT_RXTEL, [], [⟨0, 32, .ro, .val 0⟩]⟩, -- ETH_CNT_RXTEL: COUNT
  ⟨Reg.ETH_CNT_DROP_LEN, [], [⟨0, 32, .ro, .val 0⟩]⟩, -- ETH_CNT_DROP_LEN: COUNT
  ⟨Reg.ETH_CNT_DROP_FMT, [], [⟨0, 32, .ro, .val 0⟩]⟩, -- ETH_CNT_DROP_FMT: COUNT
  ⟨Reg.ETH_CNT_DROP_UNKNOWN, [], [⟨0, 32, .ro, .val 0⟩]⟩, -- ETH_CNT_DROP_UNKNOWN: COUNT
  ⟨Reg.ETH_CNT_DROP_AUTH, [], [⟨0, 32, .ro, .val 0⟩]⟩, -- ETH_CNT_DROP_AUTH: COUNT
  ⟨Reg.ETH_CNT_DROP_REPLAY, [], [⟨0, 32, .ro, .val 0⟩]⟩, -- ETH_CNT_DROP_REPLAY: COUNT
  ⟨Reg.ETH_CNT_RXOVR, [], [⟨0, 32, .ro, .val 0⟩]⟩, -- ETH_CNT_RXOVR: COUNT
  ⟨Reg.ETH_CNT_ARPMISS, [], [⟨0, 32, .ro, .val 0⟩]⟩, -- ETH_CNT_ARPMISS: COUNT
  ⟨Reg.ETH_CNT_NOKEY, [], [⟨0, 32, .ro, .val 0⟩]⟩, -- ETH_CNT_NOKEY: COUNT
  ⟨Reg.ETH_CNT_REFUSE, [], [⟨0, 32, .ro, .val 0⟩]⟩, -- ETH_CNT_REFUSE: COUNT
  ⟨Reg.ETH_LASTDROP, [], [⟨0, 3, .ro, .val 0⟩, ⟨4, 2, .ro, .val 0⟩, ⟨16, 12, .ro, .val 0⟩]⟩, -- ETH_LASTDROP: CAUSE PORT SUB
  ⟨Reg.ETH_IRQ, [], [⟨0, 1, .w1c, .val 0⟩, ⟨1, 1, .w1c, .val 0⟩, ⟨2, 1, .w1c, .val 0⟩]⟩, -- ETH_IRQ: DROP LINK RXOVR
  ⟨Reg.ETH_IRQ_EN, [], [⟨0, 1, .rw, .val 0⟩, ⟨1, 1, .rw, .val 0⟩, ⟨2, 1, .rw, .val 0⟩]⟩, -- ETH_IRQ_EN: DROP LINK RXOVR
  ⟨Reg.ETH_INJ, [], [⟨0, 1, .rw, .val 0⟩, ⟨1, 1, .rw, .val 0⟩]⟩, -- ETH_INJ: MACCHK SEQCHK
  ⟨Reg.ETH_SUBSEL, [], [⟨0, 11, .rw, .val 0⟩]⟩, -- ETH_SUBSEL: SUB
  ⟨Reg.ETH_SUBVIEW_w 0, [(0x4, 8)], [⟨0, 32, .ro, .val 0⟩]⟩, -- ETH_SUBVIEW_w: VALUE
  ⟨Reg.ETH_SUBRESET, [], [⟨0, 11, .wo, .val 0⟩]⟩ -- ETH_SUBRESET: SUB
]

/-- Rows of block PTP, part 1. -/
def rowsPtp1 : List RegRow := [
  ⟨Reg.PTP_CTRL, [], [⟨0, 1, .rw, .val 1⟩, ⟨1, 1, .rw, .val 0⟩, ⟨2, 1, .rw, .val 0⟩, ⟨3, 1, .rw, .val 0⟩, ⟨4, 1, .wo, .val 0⟩, ⟨5, 1, .wo, .val 0⟩]⟩, -- PTP_CTRL: EN FREERUN REVERT PREF REACQ STEP
  ⟨Reg.PTP_STATE, [], [⟨0, 2, .ro, .val 0⟩, ⟨2, 1, .ro, .val 0⟩, ⟨3, 1, .ro, .val 0⟩, ⟨4, 1, .ro, .val 0⟩, ⟨16, 16, .ro, .val 0⟩]⟩, -- PTP_STATE: STATE LEAD LOCK RAMPING HOLDS
  ⟨Reg.PTP_NOW_NS, [], [⟨0, 32, .ro, .val 0⟩]⟩, -- PTP_NOW_NS: VALUE
  ⟨Reg.PTP_NOW_SEC_LO, [], [⟨0, 32, .ro, .val 0⟩]⟩, -- PTP_NOW_SEC_LO: VALUE
  ⟨Reg.PTP_NOW_SEC_HI, [], [⟨0, 32, .ro, .val 0⟩]⟩, -- PTP_NOW_SEC_HI: VALUE
  ⟨Reg.PTP_NOW_FRAC, [], [⟨0, 32, .ro, .val 0⟩]⟩, -- PTP_NOW_FRAC: VALUE
  ⟨Reg.PTP_RATE, [], [⟨0, 32, .rw, .val 0⟩]⟩, -- PTP_RATE: VALUE
  ⟨Reg.PTP_STEP_NS, [], [⟨0, 32, .rw, .val 0⟩]⟩, -- PTP_STEP_NS: VALUE
  ⟨Reg.PTP_STEP_SEC, [], [⟨0, 32, .rw, .val 0⟩]⟩, -- PTP_STEP_SEC: VALUE
  ⟨Reg.PTP_RAMP, [], [⟨0, 32, .ro, .val 0⟩]⟩, -- PTP_RAMP: VALUE
  ⟨Reg.PTP_LOCKTHR, [], [⟨0, 32, .rw, .val 0x3E8⟩]⟩, -- PTP_LOCKTHR: VALUE
  ⟨Reg.PTP_UNLOCKTHR, [], [⟨0, 32, .rw, .val 0x2710⟩]⟩, -- PTP_UNLOCKTHR: VALUE
  ⟨Reg.PTP_STEPLIM, [], [⟨0, 32, .rw, .val 0xF4240⟩]⟩, -- PTP_STEPLIM: VALUE
  ⟨Reg.PTP_SLEW, [], [⟨0, 32, .rw, .val 0xC350⟩]⟩, -- PTP_SLEW: VALUE
  ⟨Reg.PTP_HOLD, [], [⟨0, 32, .rw, .val 60⟩]⟩, -- PTP_HOLD: VALUE
  ⟨Reg.PTP_REVERT, [], [⟨0, 32, .rw, .val 60⟩]⟩, -- PTP_REVERT: VALUE
  ⟨Reg.PTP_SERVO, [], [⟨0, 16, .rw, .val 0xB333⟩, ⟨16, 16, .rw, .val 0x4CCD⟩]⟩, -- PTP_SERVO: KP KI
  ⟨Reg.PTP_FILT, [], [⟨0, 6, .rw, .val 16⟩]⟩, -- PTP_FILT: N
  ⟨Reg.PTP_DELAYMAX, [], [⟨0, 32, .rw, .val 0xF4240⟩]⟩, -- PTP_DELAYMAX: VALUE
  ⟨Reg.PTP_PORT_p_ING1G 0, [(0x10, 2)], [⟨0, 16, .rw, .val 0x11E⟩]⟩, -- PTP_PORT_p_ING1G: NS
  ⟨Reg.PTP_PORT_p_EGR1G 0, [(0x10, 2)], [⟨0, 16, .rw, .val 172⟩]⟩, -- PTP_PORT_p_EGR1G: NS
  ⟨Reg.PTP_PORT_p_ING100 0, [(0x10, 2)], [⟨0, 16, .rw, .val 0x19C⟩]⟩, -- PTP_PORT_p_ING100: NS
  ⟨Reg.PTP_PORT_p_EGR100 0, [(0x10, 2)], [⟨0, 16, .rw, .val 248⟩]⟩, -- PTP_PORT_p_EGR100: NS
  ⟨Reg.PTP_CLKID_LO, [], [⟨0, 32, .ro, .factory⟩]⟩, -- PTP_CLKID_LO: ID
  ⟨Reg.PTP_CLKID_HI, [], [⟨0, 32, .ro, .factory⟩]⟩, -- PTP_CLKID_HI: ID
  ⟨Reg.PTP_STAT, [], [⟨0, 1, .w1c, .val 0⟩, ⟨1, 1, .w1c, .val 0⟩, ⟨2, 1, .w1c, .val 0⟩, ⟨3, 1, .w1c, .val 0⟩, ⟨4, 1, .w1c, .val 0⟩, ⟨5, 1, .w1c, .val 0⟩]⟩, -- PTP_STAT: SWITCH HOLDOVER UNLOCK JUMP STEP REFUSED
  ⟨Reg.PTP_CNT_SWITCH, [], [⟨0, 32, .ro, .val 0⟩]⟩, -- PTP_CNT_SWITCH: COUNT
  ⟨Reg.PTP_CNT_HOLDOVER, [], [⟨0, 32, .ro, .val 0⟩]⟩, -- PTP_CNT_HOLDOVER: COUNT
  ⟨Reg.PTP_CNT_STEP, [], [⟨0, 32, .ro, .val 0⟩]⟩, -- PTP_CNT_STEP: COUNT
  ⟨Reg.PTP_CNT_NODOM, [], [⟨0, 32, .ro, .val 0⟩]⟩, -- PTP_CNT_NODOM: COUNT
  ⟨Reg.PTP_CNT_REFUSE, [], [⟨0, 32, .ro, .val 0⟩]⟩, -- PTP_CNT_REFUSE: COUNT
  ⟨Reg.PTP_IRQ, [], [⟨0, 1, .w1c, .val 0⟩, ⟨1, 1, .w1c, .val 0⟩, ⟨2, 1, .w1c, .val 0⟩, ⟨3, 1, .w1c, .val 0⟩]⟩, -- PTP_IRQ: SWITCH LOCK HOLDOVER QUAL
  ⟨Reg.PTP_IRQ_EN, [], [⟨0, 1, .rw, .val 0⟩, ⟨1, 1, .rw, .val 0⟩, ⟨2, 1, .rw, .val 0⟩, ⟨3, 1, .rw, .val 0⟩]⟩, -- PTP_IRQ_EN: SWITCH LOCK HOLDOVER QUAL
  ⟨Reg.PTP_INJ, [], [⟨0, 1, .rw, .val 0⟩, ⟨1, 1, .rw, .val 0⟩]⟩, -- PTP_INJ: SYNCTO OFSCHK
  ⟨Reg.PTP_DOM_d_CFG 0, [(0x80, 2)], [⟨0, 8, .rw, .table⟩, ⟨8, 1, .rw, .val 1⟩, ⟨9, 2, .rw, .val 1⟩, ⟨16, 4, .rw, .val 4⟩, ⟨20, 4, .rw, .val 3⟩]⟩, -- PTP_DOM_d_CFG: DOMAIN EN PORTS ANNTO SYNCTO
  ⟨Reg.PTP_DOM_d_STATE 0, [(0x80, 2)], [⟨0, 2, .ro, .val 0⟩, ⟨4, 3, .ro, .val 0⟩, ⟨8, 1, .ro, .val 0⟩, ⟨16, 8, .ro, .val 0⟩]⟩, -- PTP_DOM_d_STATE: STATE LOSS PORT LOGSYNC
  ⟨Reg.PTP_DOM_d_GM_LO 0, [(0x80, 2)], [⟨0, 32, .ro, .val 0⟩]⟩, -- PTP_DOM_d_GM_LO: VALUE
  ⟨Reg.PTP_DOM_d_GM_HI 0, [(0x80, 2)], [⟨0, 32, .ro, .val 0⟩]⟩, -- PTP_DOM_d_GM_HI: VALUE
  ⟨Reg.PTP_DOM_d_OFS_NS 0, [(0x80, 2)], [⟨0, 32, .ro, .val 0⟩]⟩, -- PTP_DOM_d_OFS_NS: VALUE
  ⟨Reg.PTP_DOM_d_DELAY_NS 0, [(0x80, 2)], [⟨0, 32, .ro, .val 0⟩]⟩ -- PTP_DOM_d_DELAY_NS: VALUE
]

/-- Rows of block PTP, part 2. -/
def rowsPtp2 : List RegRow := [
  ⟨Reg.PTP_DOM_d_UTCOFS 0, [(0x80, 2)], [⟨0, 32, .ro, .val 0⟩]⟩, -- PTP_DOM_d_UTCOFS: VALUE
  ⟨Reg.PTP_DOM_d_CNT_SYNC 0, [(0x80, 2)], [⟨0, 32, .ro, .val 0⟩]⟩, -- PTP_DOM_d_CNT_SYNC: COUNT
  ⟨Reg.PTP_DOM_d_CNT_ANN 0, [(0x80, 2)], [⟨0, 32, .ro, .val 0⟩]⟩, -- PTP_DOM_d_CNT_ANN: COUNT
  ⟨Reg.PTP_DOM_d_CNT_DREQ 0, [(0x80, 2)], [⟨0, 32, .ro, .val 0⟩]⟩, -- PTP_DOM_d_CNT_DREQ: COUNT
  ⟨Reg.PTP_DOM_d_CNT_DRESP 0, [(0x80, 2)], [⟨0, 32, .ro, .val 0⟩]⟩, -- PTP_DOM_d_CNT_DRESP: COUNT
  ⟨Reg.PTP_DOM_d_CNT_DROP 0, [(0x80, 2)], [⟨0, 32, .ro, .val 0⟩]⟩, -- PTP_DOM_d_CNT_DROP: COUNT
  ⟨Reg.PTP_DOM_d_CNT_DELAYREJ 0, [(0x80, 2)], [⟨0, 32, .ro, .val 0⟩]⟩ -- PTP_DOM_d_CNT_DELAYREJ: COUNT
]

/-- Rows of block PTP. -/
def rowsPtp : List RegRow := rowsPtp1 ++ rowsPtp2

/-- Rows of block HWP. -/
def rowsHwp : List RegRow := [
  ⟨Reg.HWP_CFG, [], [⟨0, 16, .rw, .val 0xC437⟩]⟩, -- HWP_CFG: UDPPORT
  ⟨Reg.HWP_STAT, [], [⟨0, 1, .w1c, .val 0⟩, ⟨1, 1, .w1c, .val 0⟩, ⟨2, 1, .w1c, .val 0⟩, ⟨3, 1, .w1c, .val 0⟩, ⟨4, 1, .w1c, .val 0⟩, ⟨5, 1, .w1c, .val 0⟩, ⟨6, 1, .w1c, .val 0⟩]⟩, -- HWP_STAT: LENGTH RANGE BUSY AUTH OPREF RESEND PARTIAL
  ⟨Reg.HWP_BOOT, [], [⟨0, 24, .ro, .nv⟩]⟩, -- HWP_BOOT: COUNT
  ⟨Reg.HWP_LOAD, [], [⟨0, 7, .ro, .val 0⟩, ⟨8, 7, .ro, .val 0⟩]⟩, -- HWP_LOAD: TAKEN QUEUE
  ⟨Reg.HWP_LASTREFUSE, [], [⟨0, 3, .ro, .val 0⟩, ⟨4, 3, .ro, .val 0⟩, ⟨8, 8, .ro, .val 0⟩, ⟨16, 5, .ro, .val 0⟩, ⟨24, 2, .ro, .val 0⟩]⟩, -- HWP_LASTREFUSE: STATUS CHECK OP SLOT PORT
  ⟨Reg.HWP_CNT_OK, [], [⟨0, 32, .ro, .val 0⟩]⟩, -- HWP_CNT_OK: COUNT
  ⟨Reg.HWP_CNT_REFUSE, [], [⟨0, 32, .ro, .val 0⟩]⟩, -- HWP_CNT_REFUSE: COUNT
  ⟨Reg.HWP_CNT_LENGTH, [], [⟨0, 32, .ro, .val 0⟩]⟩, -- HWP_CNT_LENGTH: COUNT
  ⟨Reg.HWP_CNT_RANGE, [], [⟨0, 32, .ro, .val 0⟩]⟩, -- HWP_CNT_RANGE: COUNT
  ⟨Reg.HWP_CNT_BUSY, [], [⟨0, 32, .ro, .val 0⟩]⟩, -- HWP_CNT_BUSY: COUNT
  ⟨Reg.HWP_CNT_AUTH, [], [⟨0, 32, .ro, .val 0⟩]⟩, -- HWP_CNT_AUTH: COUNT
  ⟨Reg.HWP_CNT_OPREF, [], [⟨0, 32, .ro, .val 0⟩]⟩, -- HWP_CNT_OPREF: COUNT
  ⟨Reg.HWP_CNT_RESEND, [], [⟨0, 32, .ro, .val 0⟩]⟩, -- HWP_CNT_RESEND: COUNT
  ⟨Reg.HWP_IRQ, [], [⟨0, 1, .w1c, .val 0⟩, ⟨1, 1, .w1c, .val 0⟩, ⟨2, 1, .w1c, .val 0⟩]⟩, -- HWP_IRQ: AUTH BUSY REFUSE
  ⟨Reg.HWP_IRQ_EN, [], [⟨0, 1, .rw, .val 0⟩, ⟨1, 1, .rw, .val 0⟩, ⟨2, 1, .rw, .val 0⟩]⟩, -- HWP_IRQ_EN: AUTH BUSY REFUSE
  ⟨Reg.HWP_INJ, [], [⟨0, 1, .rw, .val 0⟩, ⟨1, 1, .rw, .val 0⟩]⟩, -- HWP_INJ: MACCHK RATECHK
  ⟨Reg.HWP_CNT_PARTIAL, [], [⟨0, 32, .ro, .val 0⟩]⟩, -- HWP_CNT_PARTIAL: COUNT
  ⟨Reg.HWP_SLOT_k_SEQ 0, [(0x4, 32)], [⟨0, 32, .ro, .val 0⟩]⟩ -- HWP_SLOT_k_SEQ: REQSEQ
]

/-- Rows of block PAIR. -/
def rowsPair : List RegRow := [
  ⟨Reg.PAIR_CFG, [], [⟨0, 2, .rw, .nv⟩, ⟨4, 1, .rw, .nv⟩, ⟨16, 16, .rw, .nv⟩]⟩, -- PAIR_CFG: ROLE SIDE PAIRID
  ⟨Reg.PAIR_KEY, [], [⟨0, 5, .rw, .nv⟩, ⟨8, 5, .rw, .nv⟩]⟩, -- PAIR_KEY: LINKSLOT OWLSLOT
  ⟨Reg.PAIR_OWL, [], [⟨0, 32, .rw, .nv⟩]⟩, -- PAIR_OWL: IP
  ⟨Reg.PAIR_PORTS, [], [⟨0, 16, .rw, .val 0xC439⟩, ⟨16, 2, .rw, .val 3⟩]⟩, -- PAIR_PORTS: OWLPORT ETHPORTS
  ⟨Reg.PAIR_TIMING, [], [⟨0, 8, .rw, .val 1⟩, ⟨8, 8, .rw, .val 2⟩, ⟨16, 16, .rw, .val 250⟩]⟩, -- PAIR_TIMING: HB LINKTO STALE
  ⟨Reg.PAIR_NVMASK, [], [⟨0, 8, .rw, .nv⟩]⟩, -- PAIR_NVMASK: REGIONS
  ⟨Reg.PAIR_CTRL, [], [⟨0, 1, .wo, .val 0⟩, ⟨1, 1, .wo, .val 0⟩, ⟨8, 1, .rw, .val 1⟩]⟩, -- PAIR_CTRL: JOIN HANDOVER AUTOJOIN
  ⟨Reg.PAIR_STATE, [], [⟨0, 3, .ro, .val 0⟩, ⟨4, 1, .ro, .val 0⟩, ⟨5, 1, .ro, .val 0⟩, ⟨6, 1, .ro, .val 0⟩, ⟨8, 1, .ro, .val 0⟩, ⟨9, 1, .ro, .val 0⟩, ⟨10, 1, .ro, .val 0⟩, ⟨11, 1, .ro, .val 0⟩, ⟨12, 2, .ro, .val 0⟩, ⟨16, 3, .ro, .val 0⟩, ⟨24, 3, .ro, .val 0⟩]⟩, -- PAIR_STATE: STATE SYNC LINK PSYNC GRANT CLAIM PCLAIM DRIVE LANES JOINPHASE CAUSE
  ⟨Reg.PAIR_GRANTSEQ, [], [⟨0, 32, .ro, .val 0⟩]⟩, -- PAIR_GRANTSEQ: VALUE
  ⟨Reg.PAIR_MIRROR_LO, [], [⟨0, 32, .ro, .val 0⟩]⟩, -- PAIR_MIRROR_LO: VALUE
  ⟨Reg.PAIR_LAG, [], [⟨0, 16, .ro, .val 0⟩]⟩, -- PAIR_LAG: LAPS
  ⟨Reg.PAIR_UNIT, [], [⟨0, 32, .ro, .img⟩]⟩, -- PAIR_UNIT: VALUE
  ⟨Reg.PAIR_BULK, [], [⟨0, 32, .ro, .val 0⟩]⟩, -- PAIR_BULK: VALUE
  ⟨Reg.PAIR_STAT, [], [⟨0, 1, .w1c, .val 0⟩, ⟨1, 1, .w1c, .val 0⟩, ⟨2, 1, .w1c, .val 0⟩, ⟨3, 1, .w1c, .val 0⟩, ⟨4, 1, .w1c, .val 0⟩, ⟨5, 1, .w1c, .val 0⟩, ⟨6, 1, .w1c, .val 0⟩, ⟨7, 1, .w1c, .val 0⟩, ⟨8, 1, .w1c, .val 0⟩, ⟨9, 1, .w1c, .val 0⟩]⟩, -- PAIR_STAT: TOOK LOST SYNCLOSS LINKDOWN CONTEND JOINFAIL OWLDROP OWLLOST UNITDROP REFUSED
  ⟨Reg.PAIR_CNT_TOOK, [], [⟨0, 32, .ro, .val 0⟩]⟩, -- PAIR_CNT_TOOK: COUNT
  ⟨Reg.PAIR_CNT_LOST, [], [⟨0, 32, .ro, .val 0⟩]⟩, -- PAIR_CNT_LOST: COUNT
  ⟨Reg.PAIR_CNT_SYNCLOSS, [], [⟨0, 32, .ro, .val 0⟩]⟩, -- PAIR_CNT_SYNCLOSS: COUNT
  ⟨Reg.PAIR_CNT_JOIN, [], [⟨0, 32, .ro, .val 0⟩]⟩, -- PAIR_CNT_JOIN: COUNT
  ⟨Reg.PAIR_CNT_JOINFAIL, [], [⟨0, 32, .ro, .val 0⟩]⟩, -- PAIR_CNT_JOINFAIL: COUNT
  ⟨Reg.PAIR_CNT_CONTEND, [], [⟨0, 32, .ro, .val 0⟩]⟩, -- PAIR_CNT_CONTEND: COUNT
  ⟨Reg.PAIR_CNT_OWLDROP, [], [⟨0, 32, .ro, .val 0⟩]⟩, -- PAIR_CNT_OWLDROP: COUNT
  ⟨Reg.PAIR_CNT_UNITDROP, [], [⟨0, 32, .ro, .val 0⟩]⟩, -- PAIR_CNT_UNITDROP: COUNT
  ⟨Reg.PAIR_CNT_REFUSE, [], [⟨0, 32, .ro, .val 0⟩]⟩, -- PAIR_CNT_REFUSE: COUNT
  ⟨Reg.PAIR_IRQ, [], [⟨0, 1, .w1c, .val 0⟩, ⟨1, 1, .w1c, .val 0⟩, ⟨2, 1, .w1c, .val 0⟩, ⟨3, 1, .w1c, .val 0⟩, ⟨4, 1, .w1c, .val 0⟩]⟩, -- PAIR_IRQ: STATE SYNC LINK GRANT JOINDONE
  ⟨Reg.PAIR_IRQ_EN, [], [⟨0, 1, .rw, .val 0⟩, ⟨1, 1, .rw, .val 0⟩, ⟨2, 1, .rw, .val 0⟩, ⟨3, 1, .rw, .val 0⟩, ⟨4, 1, .rw, .val 0⟩]⟩, -- PAIR_IRQ_EN: STATE SYNC LINK GRANT JOINDONE
  ⟨Reg.PAIR_INJ, [], [⟨0, 1, .rw, .val 0⟩, ⟨1, 1, .rw, .val 0⟩, ⟨2, 1, .rw, .val 0⟩]⟩, -- PAIR_INJ: UNITMAC OWLMAC LINKTO
  ⟨Reg.PAIR_WIT_CFG, [], [⟨0, 8, .rw, .val 10⟩, ⟨8, 1, .rw, .val 0⟩]⟩, -- PAIR_WIT_CFG: TO UNSYNC
  ⟨Reg.PAIR_WIT_ADDR_A, [], [⟨0, 32, .rw, .nv⟩]⟩, -- PAIR_WIT_ADDR_A: IP
  ⟨Reg.PAIR_WIT_ADDR_B, [], [⟨0, 32, .rw, .nv⟩]⟩, -- PAIR_WIT_ADDR_B: IP
  ⟨Reg.PAIR_WIT_STATE, [], [⟨0, 2, .ro, .val 0⟩, ⟨4, 1, .ro, .val 0⟩, ⟨5, 1, .ro, .val 0⟩, ⟨16, 8, .ro, .val 0⟩, ⟨24, 8, .ro, .val 0⟩]⟩, -- PAIR_WIT_STATE: GRANTED GA GB AGEA AGEB
  ⟨Reg.PAIR_WIT_SEQ, [], [⟨0, 32, .ro, .val 0⟩]⟩, -- PAIR_WIT_SEQ: GRANTSEQ
  ⟨Reg.PAIR_WIT_CTRL, [], [⟨0, 1, .wo, .val 0⟩]⟩ -- PAIR_WIT_CTRL: MOVE
]

/-- Rows of block KEY. -/
def rowsKey : List RegRow := [
  ⟨Reg.KEY_UID 0, [(0x4, 4)], [⟨0, 32, .ro, .factory⟩]⟩, -- KEY_UID: UID
  ⟨Reg.KEY_UPD_CTRL, [], [⟨0, 1, .wo, .val 0⟩]⟩, -- KEY_UPD_CTRL: EXEC
  ⟨Reg.KEY_UPD_STAT, [], [⟨0, 8, .ro, .val 0⟩, ⟨8, 1, .ro, .val 0⟩, ⟨16, 5, .ro, .val 0⟩]⟩, -- KEY_UPD_STAT: CODE STATE SLOT
  ⟨Reg.KEY_UPD_TALLY, [], [⟨0, 32, .ro, .nv⟩]⟩, -- KEY_UPD_TALLY: U
  ⟨Reg.KEY_CHAL, [], [⟨0, 16, .rw, .val 0xC43B⟩, ⟨16, 5, .rw, .val 0⟩, ⟨24, 1, .rw, .val 1⟩]⟩, -- KEY_CHAL: PORT SLOT EN
  ⟨Reg.KEY_STAT, [], [⟨0, 1, .w1c, .val 0⟩, ⟨1, 1, .w1c, .val 0⟩, ⟨2, 1, .w1c, .val 0⟩, ⟨3, 1, .w1c, .val 0⟩, ⟨4, 1, .w1c, .val 0⟩]⟩, -- KEY_STAT: UPDREF NVERR SLOTLOST CHALDROP REFUSED
  ⟨Reg.KEY_CNT_UPD, [], [⟨0, 32, .ro, .val 0⟩]⟩, -- KEY_CNT_UPD: COUNT
  ⟨Reg.KEY_CNT_UPDREFUSE, [], [⟨0, 32, .ro, .val 0⟩]⟩, -- KEY_CNT_UPDREFUSE: COUNT
  ⟨Reg.KEY_CNT_CHAL, [], [⟨0, 32, .ro, .val 0⟩]⟩, -- KEY_CNT_CHAL: COUNT
  ⟨Reg.KEY_CNT_CHALDROP, [], [⟨0, 32, .ro, .val 0⟩]⟩, -- KEY_CNT_CHALDROP: COUNT
  ⟨Reg.KEY_CNT_REFUSE, [], [⟨0, 32, .ro, .val 0⟩]⟩, -- KEY_CNT_REFUSE: COUNT
  ⟨Reg.KEY_IRQ, [], [⟨0, 1, .w1c, .val 0⟩, ⟨1, 1, .w1c, .val 0⟩]⟩, -- KEY_IRQ: UPDDONE UPDREF
  ⟨Reg.KEY_IRQ_EN, [], [⟨0, 1, .rw, .val 0⟩, ⟨1, 1, .rw, .val 0⟩]⟩, -- KEY_IRQ_EN: UPDDONE UPDREF
  ⟨Reg.KEY_INJ, [], [⟨0, 1, .rw, .val 0⟩, ⟨1, 1, .rw, .val 0⟩]⟩, -- KEY_INJ: TAGCHK COPYCHK
  ⟨Reg.KEY_UPD_BUF_w 0, [(0x4, 32)], [⟨0, 32, .wo, .val 0⟩]⟩, -- KEY_UPD_BUF_w: VALUE
  ⟨Reg.KEY_SLOT_k_INFO 0, [(0x8, 32)], [⟨0, 32, .ro, .nv⟩]⟩, -- KEY_SLOT_k_INFO: VALUE
  ⟨Reg.KEY_SLOT_k_SEQ 0, [(0x8, 32)], [⟨0, 32, .ro, .nv⟩]⟩, -- KEY_SLOT_k_SEQ: VALUE
  ⟨Reg.KEY_SLOT_k_CHECK 0, [(0x4, 32)], [⟨0, 32, .ro, .nv⟩]⟩ -- KEY_SLOT_k_CHECK: CHECK
]

/-- Rows of block NVS. -/
def rowsNvs : List RegRow := [
  ⟨Reg.NVS_CFG, [], [⟨0, 5, .rw, .nv⟩]⟩, -- NVS_CFG: CRYPTSLOT
  ⟨Reg.NVS_CTRL, [], [⟨0, 1, .wo, .val 0⟩, ⟨1, 1, .wo, .val 0⟩]⟩, -- NVS_CTRL: STORE LOCK
  ⟨Reg.NVS_WARM, [], [⟨0, 1, .ro, .val 0⟩, ⟨1, 1, .ro, .val 0⟩, ⟨2, 1, .ro, .val 0⟩, ⟨16, 13, .ro, .val 0⟩]⟩, -- NVS_WARM: OK STORING FROZEN DIRTY
  ⟨Reg.NVS_WARM_SEQ, [], [⟨0, 32, .ro, .nv⟩]⟩, -- NVS_WARM_SEQ: SEQ
  ⟨Reg.NVS_STAT, [], [⟨0, 1, .w1c, .val 0⟩, ⟨1, 1, .w1c, .val 0⟩, ⟨2, 1, .w1c, .val 0⟩, ⟨3, 1, .w1c, .val 0⟩, ⟨4, 1, .w1c, .val 0⟩, ⟨5, 1, .w1c, .val 0⟩, ⟨6, 1, .w1c, .val 0⟩, ⟨7, 1, .w1c, .val 0⟩]⟩, -- NVS_STAT: WARMBAD VERIFY DROP PWFAIL TALLYTIE TALLYJUMP TALLYLOST REFUSED
  ⟨Reg.NVS_UNLOCK_LO, [], [⟨0, 32, .wo, .val 0⟩]⟩, -- NVS_UNLOCK_LO: PW
  ⟨Reg.NVS_UNLOCK_HI, [], [⟨0, 32, .wo, .val 0⟩]⟩, -- NVS_UNLOCK_HI: PW
  ⟨Reg.NVS_UNLOCK_CTRL, [], [⟨0, 3, .wo, .val 0⟩, ⟨8, 1, .wo, .val 0⟩, ⟨9, 1, .wo, .val 0⟩]⟩, -- NVS_UNLOCK_CTRL: REGION KIND CLEAR
  ⟨Reg.NVS_PWSET_LO, [], [⟨0, 32, .wo, .val 0⟩]⟩, -- NVS_PWSET_LO: PW
  ⟨Reg.NVS_PWSET_HI, [], [⟨0, 32, .wo, .val 0⟩]⟩, -- NVS_PWSET_HI: PW
  ⟨Reg.NVS_PWSET_CTRL, [], [⟨0, 3, .wo, .val 0⟩, ⟨8, 1, .wo, .val 0⟩, ⟨9, 1, .wo, .val 0⟩]⟩, -- NVS_PWSET_CTRL: REGION KIND CLEAR
  ⟨Reg.NVS_TALLY_SEL, [], [⟨0, 9, .rw, .val 0⟩]⟩, -- NVS_TALLY_SEL: INDEX
  ⟨Reg.NVS_TALLY_VAL, [], [⟨0, 32, .ro, .nv⟩]⟩, -- NVS_TALLY_VAL: V
  ⟨Reg.NVS_TALLY_CTRL, [], [⟨0, 1, .wo, .val 0⟩]⟩, -- NVS_TALLY_CTRL: INC
  ⟨Reg.NVS_TALLY_STAT, [], [⟨0, 1, .ro, .val 0⟩, ⟨1, 2, .ro, .val 0⟩]⟩, -- NVS_TALLY_STAT: BUSY RESULT
  ⟨Reg.NVS_CNT_STORE, [], [⟨0, 32, .ro, .val 0⟩]⟩, -- NVS_CNT_STORE: COUNT
  ⟨Reg.NVS_CNT_PAGE, [], [⟨0, 32, .ro, .val 0⟩]⟩, -- NVS_CNT_PAGE: COUNT
  ⟨Reg.NVS_CNT_VERIFY, [], [⟨0, 32, .ro, .val 0⟩]⟩, -- NVS_CNT_VERIFY: COUNT
  ⟨Reg.NVS_CNT_DROP, [], [⟨0, 32, .ro, .val 0⟩]⟩, -- NVS_CNT_DROP: COUNT
  ⟨Reg.NVS_CNT_PWFAIL, [], [⟨0, 32, .ro, .val 0⟩]⟩, -- NVS_CNT_PWFAIL: COUNT
  ⟨Reg.NVS_CNT_REFUSE, [], [⟨0, 32, .ro, .val 0⟩]⟩, -- NVS_CNT_REFUSE: COUNT
  ⟨Reg.NVS_CNT_TALLYREPAIR, [], [⟨0, 32, .ro, .val 0⟩]⟩, -- NVS_CNT_TALLYREPAIR: COUNT
  ⟨Reg.NVS_IRQ, [], [⟨0, 1, .w1c, .val 0⟩, ⟨1, 1, .w1c, .val 0⟩, ⟨2, 1, .w1c, .val 0⟩, ⟨3, 1, .w1c, .val 0⟩]⟩, -- NVS_IRQ: STOREDONE VERIFY PWFAIL TALLY
  ⟨Reg.NVS_IRQ_EN, [], [⟨0, 1, .rw, .val 0⟩, ⟨1, 1, .rw, .val 0⟩, ⟨2, 1, .rw, .val 0⟩, ⟨3, 1, .rw, .val 0⟩]⟩, -- NVS_IRQ_EN: STOREDONE VERIFY PWFAIL TALLY
  ⟨Reg.NVS_INJ, [], [⟨0, 1, .rw, .val 0⟩, ⟨1, 1, .rw, .val 0⟩, ⟨2, 1, .rw, .val 0⟩]⟩, -- NVS_INJ: PAGECHK CELLCHK WARMCRC
  ⟨Reg.NVS_RGN_r_CFG 0, [(0x10, 8)], [⟨0, 1, .ro, .nv⟩, ⟨1, 1, .ro, .nv⟩, ⟨2, 1, .rw, .nv⟩]⟩, -- NVS_RGN_r_CFG: RPW WPW CRYPT
  ⟨Reg.NVS_RGN_r_BASE 0, [(0x10, 8)], [⟨0, 22, .ro, .table⟩]⟩, -- NVS_RGN_r_BASE: OFFSET
  ⟨Reg.NVS_RGN_r_RDSLOTS 0, [(0x10, 8)], [⟨0, 32, .ro, .val 0⟩]⟩, -- NVS_RGN_r_RDSLOTS: SLOTS
  ⟨Reg.NVS_RGN_r_WRSLOTS 0, [(0x10, 8)], [⟨0, 32, .ro, .val 0⟩]⟩ -- NVS_RGN_r_WRSLOTS: SLOTS
]

/-- Rows of block RTC. -/
def rowsRtc : List RegRow := [
  ⟨Reg.RTC_TIME, [], [⟨0, 7, .ro, .backup⟩, ⟨8, 7, .ro, .backup⟩, ⟨16, 6, .ro, .backup⟩, ⟨24, 3, .ro, .backup⟩, ⟨31, 1, .ro, .backup⟩]⟩, -- RTC_TIME: SEC MIN HOUR WDAY DST
  ⟨Reg.RTC_DATE, [], [⟨0, 6, .ro, .backup⟩, ⟨8, 5, .ro, .backup⟩, ⟨16, 8, .ro, .backup⟩, ⟨24, 8, .ro, .backup⟩]⟩, -- RTC_DATE: DAY MONTH YEAR CENT
  ⟨Reg.RTC_SUBSEC, [], [⟨0, 15, .ro, .backup⟩]⟩, -- RTC_SUBSEC: COUNT
  ⟨Reg.RTC_SET_TIME, [], [⟨0, 7, .rw, .val 0⟩, ⟨8, 7, .rw, .val 0⟩, ⟨16, 6, .rw, .val 0⟩, ⟨24, 3, .ro, .val 0⟩, ⟨31, 1, .rw, .val 0⟩]⟩, -- RTC_SET_TIME: SEC MIN HOUR WDAY DST
  ⟨Reg.RTC_SET_DATE, [], [⟨0, 6, .rw, .val 0⟩, ⟨8, 5, .rw, .val 0⟩, ⟨16, 8, .rw, .val 0⟩, ⟨24, 8, .rw, .val 0⟩]⟩, -- RTC_SET_DATE: DAY MONTH YEAR CENT
  ⟨Reg.RTC_CTRL, [], [⟨0, 1, .wo, .val 0⟩, ⟨1, 1, .wo, .val 0⟩, ⟨2, 1, .wo, .val 0⟩, ⟨3, 1, .wo, .val 0⟩]⟩, -- RTC_CTRL: LOAD DSTFWD DSTBACK RELEASE
  ⟨Reg.RTC_ZONE, [], [⟨0, 16, .rw, .backup⟩]⟩, -- RTC_ZONE: VALUE
  ⟨Reg.RTC_TAIOFS, [], [⟨0, 16, .rw, .backup⟩]⟩, -- RTC_TAIOFS: VALUE
  ⟨Reg.RTC_CFG, [], [⟨0, 1, .rw, .backup⟩]⟩, -- RTC_CFG: VALUE, bits 15:1 reserved
  ⟨Reg.RTC_WAKE, [], [⟨0, 23, .rw, .backup⟩]⟩, -- RTC_WAKE: PER
  ⟨Reg.RTC_TRIM_CTRL, [], [⟨0, 2, .rw, .backup⟩, ⟨4, 3, .rw, .backup⟩, ⟨16, 10, .rw, .backup⟩]⟩, -- RTC_TRIM_CTRL: SRC WIN CAL
  ⟨Reg.RTC_TRIM_MEAS, [], [⟨0, 32, .ro, .val 0⟩]⟩, -- RTC_TRIM_MEAS: PPB
  ⟨Reg.RTC_CHG, [], [⟨0, 1, .rw, .backup⟩, ⟨1, 1, .rw, .backup⟩, ⟨2, 2, .rw, .backup⟩, ⟨4, 1, .wo, .val 0⟩, ⟨5, 1, .ro, .val 0⟩]⟩, -- RTC_CHG: EN TYPE RES BOOST BOOSTING
  ⟨Reg.RTC_BAT, [], [⟨0, 16, .ro, .val 0⟩]⟩, -- RTC_BAT: MV
  ⟨Reg.RTC_STAT, [], [⟨0, 1, .w1c, .val 0⟩, ⟨1, 1, .w1c, .val 0⟩, ⟨2, 1, .w1c, .val 0⟩, ⟨3, 1, .w1c, .val 0⟩, ⟨4, 1, .w1c, .val 0⟩, ⟨5, 1, .w1c, .val 0⟩, ⟨6, 1, .w1c, .val 0⟩]⟩, -- RTC_STAT: BADDATE LOST BATLOW TRIMLIM PTPSET SHADOWTO WAKEBK
  ⟨Reg.RTC_CNT_BADDATE, [], [⟨0, 32, .ro, .val 0⟩]⟩, -- RTC_CNT_BADDATE: COUNT
  ⟨Reg.RTC_CNT_REFUSE, [], [⟨0, 32, .ro, .val 0⟩]⟩, -- RTC_CNT_REFUSE: COUNT
  ⟨Reg.RTC_CNT_TRIM, [], [⟨0, 32, .ro, .val 0⟩]⟩, -- RTC_CNT_TRIM: COUNT
  ⟨Reg.RTC_CNT_TRIMDISC, [], [⟨0, 32, .ro, .val 0⟩]⟩, -- RTC_CNT_TRIMDISC: COUNT
  ⟨Reg.RTC_CNT_WAKE, [], [⟨0, 32, .ro, .val 0⟩]⟩, -- RTC_CNT_WAKE: COUNT
  ⟨Reg.RTC_IRQ, [], [⟨0, 1, .w1c, .val 0⟩, ⟨1, 1, .w1c, .val 0⟩, ⟨2, 1, .w1c, .val 0⟩, ⟨3, 1, .w1c, .val 0⟩]⟩, -- RTC_IRQ: WAKE SEC TRIM BAD
  ⟨Reg.RTC_IRQ_EN, [], [⟨0, 1, .rw, .val 0⟩, ⟨1, 1, .rw, .val 0⟩, ⟨2, 1, .rw, .val 0⟩, ⟨3, 1, .rw, .val 0⟩]⟩, -- RTC_IRQ_EN: WAKE SEC TRIM BAD
  ⟨Reg.RTC_INJ, [], [⟨0, 1, .rw, .val 0⟩, ⟨1, 1, .rw, .val 0⟩, ⟨2, 1, .rw, .val 0⟩]⟩ -- RTC_INJ: DATECHK REFCHK BATCHK
]

/-- Rows of block SPR. -/
def rowsSpr : List RegRow := [
  ⟨Reg.SPR_CTRL, [], [⟨0, 3, .rw, .val 3⟩, ⟨8, 1, .rw, .val 0⟩]⟩, -- SPR_CTRL: IRQSEV RATEEN
  ⟨Reg.SPR_MERGE, [], [⟨0, 16, .rw, .val 0xE10⟩]⟩, -- SPR_MERGE: S
  ⟨Reg.SPR_HEAD, [], [⟨0, 24, .ro, .val 0⟩, ⟨31, 1, .ro, .val 1⟩]⟩, -- SPR_HEAD: SEQ EMPTY
  ⟨Reg.SPR_VALID, [], [⟨0, 32, .ro, .val 0⟩]⟩, -- SPR_VALID: VALUE
  ⟨Reg.SPR_OPSEC, [], [⟨0, 32, .ro, .val 0⟩]⟩, -- SPR_OPSEC: VALUE
  ⟨Reg.SPR_QUEUE, [], [⟨0, 7, .ro, .val 0⟩]⟩, -- SPR_QUEUE: COUNT
  ⟨Reg.SPR_HEADREP, [], [⟨0, 16, .ro, .val 0⟩, ⟨16, 16, .ro, .val 0⟩]⟩, -- SPR_HEADREP: REPEAT LAST
  ⟨Reg.SPR_STAT, [], [⟨0, 1, .w1c, .val 0⟩, ⟨1, 1, .w1c, .val 0⟩, ⟨2, 1, .w1c, .val 0⟩, ⟨3, 1, .w1c, .val 0⟩, ⟨4, 1, .w1c, .val 0⟩]⟩, -- SPR_STAT: RINGBREAK CRCBAD QOVR SUPPRESS REFUSED
  ⟨Reg.SPR_CNT_REC, [], [⟨0, 32, .ro, .val 0⟩]⟩, -- SPR_CNT_REC: COUNT
  ⟨Reg.SPR_CNT_MERGE, [], [⟨0, 32, .ro, .val 0⟩]⟩, -- SPR_CNT_MERGE: COUNT
  ⟨Reg.SPR_CNT_QOVR, [], [⟨0, 32, .ro, .val 0⟩]⟩, -- SPR_CNT_QOVR: COUNT
  ⟨Reg.SPR_CNT_SUPPRESS, [], [⟨0, 32, .ro, .val 0⟩]⟩, -- SPR_CNT_SUPPRESS: COUNT
  ⟨Reg.SPR_CNT_CRCBAD, [], [⟨0, 32, .ro, .val 0⟩]⟩, -- SPR_CNT_CRCBAD: COUNT
  ⟨Reg.SPR_CNT_REFUSE, [], [⟨0, 32, .ro, .val 0⟩]⟩, -- SPR_CNT_REFUSE: COUNT
  ⟨Reg.SPR_IRQ, [], [⟨0, 1, .w1c, .val 0⟩, ⟨1, 1, .w1c, .val 0⟩, ⟨2, 1, .w1c, .val 0⟩]⟩, -- SPR_IRQ: REC SEV QOVR
  ⟨Reg.SPR_IRQ_EN, [], [⟨0, 1, .rw, .val 0⟩, ⟨1, 1, .rw, .val 0⟩, ⟨2, 1, .rw, .val 0⟩]⟩, -- SPR_IRQ_EN: REC SEV QOVR
  ⟨Reg.SPR_INJ, [], [⟨0, 1, .rw, .val 0⟩, ⟨1, 1, .rw, .val 0⟩]⟩, -- SPR_INJ: CRCWR QFULL
  ⟨Reg.SPR_FW_CODE, [], [⟨0, 8, .rw, .val 0⟩]⟩, -- SPR_FW_CODE: VALUE, bits 31:8 reserved
  ⟨Reg.SPR_FW_DATA 0, [(0x4, 3)], [⟨0, 32, .rw, .val 0⟩]⟩, -- SPR_FW_DATA: VALUE
  ⟨Reg.SPR_FW_CTRL, [], [⟨0, 1, .wo, .val 0⟩, ⟨8, 3, .wo, .val 0⟩]⟩, -- SPR_FW_CTRL: POST SEV
  ⟨Reg.SPR_RATE_i 0, [(0x4, 16)], [⟨0, 16, .rw, .nv⟩, ⟨16, 8, .rw, .nv⟩, ⟨24, 8, .rw, .nv⟩]⟩ -- SPR_RATE_i: CODE MAX WIN
]

/-- Rows of block BOOT. -/
def rowsBoot : List RegRow := [
  ⟨Reg.BOOT_CUR, [], [⟨0, 4, .ro, .val 0⟩, ⟨8, 1, .ro, .val 0⟩, ⟨9, 1, .ro, .val 0⟩, ⟨16, 2, .ro, .val 0⟩]⟩, -- BOOT_CUR: HURDLE DONE HALTED WAY
  ⟨Reg.BOOT_PREV, [], [⟨0, 32, .ro, .nv⟩]⟩, -- BOOT_PREV: H
  ⟨Reg.BOOT_WAY, [], [⟨0, 32, .ro, .nv⟩]⟩, -- BOOT_WAY: H
  ⟨Reg.BOOT_CTRL, [], [⟨0, 16, .wo, .val 0⟩, ⟨16, 1, .wo, .val 0⟩]⟩, -- BOOT_CTRL: WAYCLR RESTART
  ⟨Reg.BOOT_LEDGER_HEAD, [], [⟨0, 32, .ro, .nv⟩]⟩, -- BOOT_LEDGER_HEAD: SEQ
  ⟨Reg.BOOT_STAT, [], [⟨0, 1, .w1c, .val 0⟩, ⟨1, 1, .w1c, .val 0⟩, ⟨2, 1, .w1c, .val 0⟩, ⟨3, 1, .w1c, .val 0⟩, ⟨4, 1, .w1c, .val 0⟩, ⟨5, 1, .w1c, .val 0⟩]⟩, -- BOOT_STAT: FAILPREV WAYCHG HALT LEDGERBAD RESTARTED REFUSED
  ⟨Reg.BOOT_CNT_LEDGERBAD, [], [⟨0, 32, .ro, .val 0⟩]⟩, -- BOOT_CNT_LEDGERBAD: COUNT
  ⟨Reg.BOOT_CNT_REFUSE, [], [⟨0, 32, .ro, .val 0⟩]⟩, -- BOOT_CNT_REFUSE: COUNT
  ⟨Reg.BOOT_IRQ, [], [⟨0, 1, .w1c, .val 0⟩, ⟨1, 1, .w1c, .val 0⟩]⟩, -- BOOT_IRQ: DONE HALT
  ⟨Reg.BOOT_IRQ_EN, [], [⟨0, 1, .rw, .val 0⟩, ⟨1, 1, .rw, .val 0⟩]⟩, -- BOOT_IRQ_EN: DONE HALT
  ⟨Reg.BOOT_INJ, [], [⟨0, 1, .rw, .val 0⟩, ⟨8, 4, .rw, .val 0⟩]⟩ -- BOOT_INJ: FAIL HSEL
]

/-- Rows of block PWR. -/
def rowsPwr : List RegRow := [
  ⟨Reg.PWR_VBULK, [], [⟨0, 16, .ro, .val 0⟩]⟩, -- PWR_VBULK: VALUE
  ⟨Reg.PWR_LASTSHUT, [], [⟨0, 16, .ro, .nv⟩]⟩, -- PWR_LASTSHUT: VALUE
  ⟨Reg.PWR_STAT, [], [⟨0, 1, .w1c, .val 0⟩, ⟨1, 1, .w1c, .val 0⟩]⟩, -- PWR_STAT: PFPREV DIP
  ⟨Reg.PWR_CNT_DIP, [], [⟨0, 32, .ro, .val 0⟩]⟩, -- PWR_CNT_DIP: COUNT
  ⟨Reg.PWR_IRQ, [], [⟨0, 1, .w1c, .val 0⟩]⟩, -- PWR_IRQ: DIP
  ⟨Reg.PWR_IRQ_EN, [], [⟨0, 1, .rw, .val 0⟩]⟩, -- PWR_IRQ_EN: DIP
  ⟨Reg.PWR_INJ, [], [⟨0, 1, .rw, .val 0⟩]⟩ -- PWR_INJ: PFCHK
]

/-- The block window that an address lies in (R6, Table 3): `none` for an unassigned address of the block area. -/
def blockOf (a : Nat) : Option Blk :=
  if a < 0x1000 then some .zid else
  if a < 0x2000 then some .img else
  if a < 0x3000 then some .lap else
  if a < 0x10000 then some .sett else
  if a < 0x20000 then some .dsp else
  if a < 0x28000 then some .slv else
  if a < 0x30000 then some .fab else
  if a < 0x38000 then some .loop else
  if a < 0x40000 then some .fbp else
  if a < 0x44000 then some .ain else
  if a < 0x46000 then some .aout else
  if a < 0x48000 then some .dio else
  if a < 0x50000 then some .mtr else
  if a < 0x54000 then some .can else
  if a < 0x58000 then none else
  if a < 0x5A000 then some .eth else
  if a < 0x5C000 then some .ptp else
  if a < 0x60000 then some .hwp else
  if a < 0x68000 then some .pair else
  if a < 0x70000 then some .key else
  if a < 0x78000 then some .nvs else
  if a < 0x7A000 then some .rtc else
  if a < 0x7C000 then some .spr else
  if a < 0x7E000 then some .boot else
  if a < 0x80000 then some .pwr else
  none

/-- The rows of a block window. -/
def rowsOf : Blk → List RegRow
  | .zid => rowsZid
  | .img => rowsImg
  | .lap => rowsLap
  | .sett => rowsSett
  | .dsp => rowsDsp
  | .slv => rowsSlv
  | .fab => rowsFab
  | .loop => rowsLoop
  | .fbp => rowsFbp
  | .ain => rowsAin
  | .aout => rowsAout
  | .dio => rowsDio
  | .mtr => rowsMtr
  | .can => rowsCan
  | .eth => rowsEth
  | .ptp => rowsPtp
  | .hwp => rowsHwp
  | .pair => rowsPair
  | .key => rowsKey
  | .nvs => rowsNvs
  | .rtc => rowsRtc
  | .spr => rowsSpr
  | .boot => rowsBoot
  | .pwr => rowsPwr

end Sys2Proof.Machine
end

