-- ==== Sys2Proof/Machine/Tab.lean ====
section
/-!
DEFINITION. Machine/Tab.lean: sparse tables in one canonical form. A table is a list of (key, value) pairs; a key it
does not list reads as the table's default. Registers, buffers, flash slots and the non-volatile store are held so.
The canonical form: keys strictly rising, and no entry equal to the default.
-/

namespace Sys2Proof.Machine

/-- A sparse table of `w`-bit values. -/
abbrev Tab (w : Nat) := List (Nat × BitVec w)

/-- The value at a key: the listed one, else the default. -/
def tabGet {w : Nat} (d : BitVec w) : Tab w → Nat → BitVec w
  | [], _ => d
  | (a, v) :: t, k => if a = k then v else tabGet d t k

/-- Put a value that is not the default at a key, keeping the keys in order. -/
def tabPut {w : Nat} : Tab w → Nat → BitVec w → Tab w
  | [], k, v => [(k, v)]
  | (a, x) :: t, k, v =>
    if k < a then (k, v) :: (a, x) :: t else if a = k then (k, v) :: t else (a, x) :: tabPut t k v

/-- Write a value at a key; writing the default removes the entry. -/
def tabSet {w : Nat} (d : BitVec w) (t : Tab w) (k : Nat) (v : BitVec w) : Tab w :=
  if v = d then t.filter (fun e => e.1 != k) else tabPut t k v

/-- Write consecutive values from a key on. -/
def tabSetList {w : Nat} (d : BitVec w) : Tab w → Nat → List (BitVec w) → Tab w
  | t, _, [] => t
  | t, k, v :: vs => tabSetList d (tabSet d t k v) (k + 1) vs

/-- Drop the entries of `n` keys from `k` on: they read as the default again. -/
def tabClear {w : Nat} (t : Tab w) (k n : Nat) : Tab w :=
  t.filter (fun e => e.1 < k || k + n ≤ e.1)

/-- The canonical form of a table: keys strictly rising, no entry equal to the default. -/
def tabWf {w : Nat} (d : BitVec w) : Tab w → Bool
  | [] => true
  | [(_, v)] => v != d
  | (a, v) :: (b, x) :: t => v != d && a < b && tabWf d ((b, x) :: t)

end Sys2Proof.Machine
end

