-- ==== Sys2Proof/Machine/ResetRegs.lean ====
section
/-!
DEFINITION. Machine/ResetRegs.lean: the registers whose reset value is not 0, as the field tables of the chapters of
spec/ give it, and the register file of a start: what the non-volatile store, the flash, the factory and the calendar's
backup domain keep stays, everything else takes its reset value (R4, R481, R482 of spec/).
-/

namespace Sys2Proof.Machine

/-- ZID, LAP, SETT, DSP, FAB and FBP. -/
def resetListA : List (Nat × Word) :=
  [(Reg.ZID_DEV, 0x5A1E0800#32), (Reg.ZID_REV, 0x01000000#32), (Reg.ZID_FAULT_CFG, 0xC8#32), (Reg.ZID_FAULT_SRC, 0x07FFFFFE#32),
   (Reg.LAP_SRC_CTRL, 0x00320000#32), (Reg.LAP_FREE_PERIOD, 0x01312D00#32), (Reg.SETT_WS_TIMEOUT, 0xFA#32),
   (Reg.DSP_RES_RP, 0xFFFFFFFF#32), (Reg.DSP_RES_RG, 0xFFFFFFFF#32), (Reg.DSP_RES_RD, 0xFFFFFFFF#32),
   (Reg.DSP_RES_MU, 0xFFFFFFFF#32), (Reg.FAB_LCHK, 0xFA#32), (Reg.FAB_DROPLIM, 8#32), (Reg.FAB_SCRUB_CTRL, 0x00320001#32)]
    ++ (List.range 16).map (fun k => (Reg.FBP_IDW_ADDR_k k, 0xFFFFFFFF#32))

/-- AIN, AOUT, DIO and MTR. -/
def resetListB : List (Nat × Word) :=
  [(Reg.AIN_CAL_CTRL, 0x00320001#32), (Reg.AIN_CAL_TOL, 0x40#32)]
    ++ (List.range 32).flatMap (fun n => [(Reg.AIN_n_FLAGS n, 0x11#32), (Reg.AIN_n_CAL_GAIN n, 0x40000000#32)])
    ++ [(Reg.AOUT_DEV, 0x290#32), (Reg.DIO_DO_RETRY, 0x000A0064#32), (Reg.MTR_NVSAVE, 0x32#32)]

/-- PTP, HWP, PAIR, KEY, NVS and SPR. -/
def resetListC : List (Nat × Word) :=
  [(Reg.PTP_CTRL, 1#32), (Reg.PTP_LOCKTHR, 0x3E8#32), (Reg.PTP_UNLOCKTHR, 0x2710#32), (Reg.PTP_STEPLIM, 0xF4240#32),
   (Reg.PTP_SLEW, 0xC350#32), (Reg.PTP_HOLD, 0x3C#32), (Reg.PTP_REVERT, 0x3C#32), (Reg.PTP_SERVO, 0x4CCDB333#32),
   (Reg.PTP_FILT, 0x10#32), (Reg.PTP_DELAYMAX, 0xF4240#32)]
    ++ (List.range 2).flatMap (fun p => [(Reg.PTP_PORT_p_ING1G p, 0x11E#32), (Reg.PTP_PORT_p_EGR1G p, 0xAC#32),
        (Reg.PTP_PORT_p_ING100 p, 0x19C#32), (Reg.PTP_PORT_p_EGR100 p, 0xF8#32)])
    ++ [(Reg.PTP_DOM_d_CFG 0, 0x00340300#32), (Reg.PTP_DOM_d_CFG 1, 0x00340301#32), (Reg.HWP_CFG, 0xC437#32),
        (Reg.PAIR_PORTS, 0x0003C439#32), (Reg.PAIR_TIMING, 0x00FA0201#32), (Reg.PAIR_CTRL, 0x100#32), (Reg.PAIR_WIT_CFG, 0xA#32),
        (Reg.KEY_CHAL, 0x0100C43B#32), (Reg.NVS_RGN_r_BASE 1, 0x40000#32), (Reg.NVS_RGN_r_BASE 2, 0x140000#32),
        (Reg.NVS_RGN_r_BASE 3, 0x340000#32), (Reg.NVS_RGN_r_BASE 4, 0x360000#32), (Reg.NVS_RGN_r_BASE 5, 0x380000#32),
        (Reg.NVS_RGN_r_BASE 6, 0x3A0000#32), (Reg.NVS_RGN_r_BASE 7, 0x3C0000#32), (Reg.SPR_CTRL, 3#32), (Reg.SPR_MERGE, 0xE10#32),
        (Reg.SPR_HEAD, 0x80000000#32)]

/-- The registers whose reset value is not 0, by address. -/
def resetRegs : Tab 32 := resetListA ++ resetListB ++ resetListC

/-- Where a field's value survives a start. -/
def Rst.kept : Rst → Bool
  | .nv => true
  | .flash => true
  | .factory => true
  | .backup => true
  | _ => false

/-- The fields of a register that survive a start, of a stored word. -/
def keptWord (fs : List Fld) (v : Word) : Word :=
  fs.foldl (fun w f => if f.rst.kept then putBits w f.lo f.width (bitsOf v f.lo f.width) else w) 0#32

end Sys2Proof.Machine
end

