-- ==== Sys2Proof/Machine/State.lean ====
section
/-!
DEFINITION. Machine/State.lean: the state of the module as plain data. The addressable registers have one home, the
sparse table `regs` (an address it does not list holds 0); what the spec gives the module beside them (queues, slots,
stores, sequencers, phases) stands in one structure per block. The waiting commands are `pending`, first in first out.
-/

namespace Sys2Proof.Machine

/-- Faults: no command of this block stops the module with a fault, so there is no constructor. -/
inductive Fault where
  deriving DecidableEq, Repr

/-- Refusals of the model. -/
inductive Refusal where
  /-- Raised by `exec`'s arm of a command that has no meaning yet. Safe: nothing is said of it. -/
  | notModelled (mnemonic : String)
  deriving DecidableEq, Repr

/-! ## Host window -/

/-- The content of a host window response (Table 2 of spec/15_host_window_protocol.md). -/
structure Answer where
  status : Status
  info : Word
  data : List Word
  epoch : Nat
  deriving DecidableEq, Repr

/-- What a frame that the module sent is. -/
inductive FrameKind where
  | response | setpoint | arpRequest | arpReply | echoReply | delayReq | heartbeat | grant | challenge | mirror
  | mirrorAck | canFrame | dispatchState | syncLost
  deriving DecidableEq, Repr

/-- A frame the module put on a port: the port (0 A, 1 B, 2 S, 3 pair link, 4 + n for CANn), the destination address
and UDP port or identifier, and the payload. -/
structure Frame where
  kind : FrameKind
  port : Nat
  dest : Nat
  udp : Nat
  payload : List Byte
  deriving DecidableEq, Repr

/-- A request that was taken up and waits for its answer (R381). -/
structure HwpReq where
  slot : Nat
  port : Nat
  op : Nat
  tag : Nat
  seq : Word
  addr : Word
  epochSel : Nat
  ip : Word
  udp : Nat
  data : List Word
  /-- the newest readable epoch when the request was taken up (R81, R82), 0 when no sett was readable -/
  epoch : Nat
  /-- the key material of its slot when it was taken up, under which its response goes out (R420) -/
  key : List Byte
  deriving DecidableEq, Repr

/-- The stored response of a key slot (R382): its header fields and its bytes. -/
structure HwpStored where
  slot : Nat
  op : Nat
  seq : Word
  answer : Answer
  bytes : List Byte
  deriving DecidableEq, Repr

/-- The host window protocol beside its registers. -/
structure HwpState where
  /-- requests taken up in the present lap (R381) -/
  taken : Nat
  /-- requests taken up and not yet answered, oldest first -/
  queue : List HwpReq
  /-- repeats held until the response to the first request is stored (R382): slot, port, address, UDP port -/
  held : List (Nat × Nat × Word × Nat)
  /-- stored responses, at most one per slot -/
  stored : List HwpStored
  deriving DecidableEq, Repr

/-! ## Laps, pacer, batons -/

/-- The judgement of the crossings of one source (R535). -/
structure Judge where
  seen : Bool
  good : Nat
  bad : Nat
  valid : Bool
  freqs : List Nat
  /-- instant of the last crossing that set the prediction or was good, ns of the oscillator (R48) -/
  last : Option Nat
  deriving DecidableEq, Repr

/-- A waiting baton request (R65): requester of Table 6, batons needed, whole laps waited. -/
structure BatonReq where
  who : Nat
  need : Nat
  waited : Nat
  deriving DecidableEq, Repr

/-- Lap generator, pacer and governor beside their registers. -/
structure LapState where
  /-- LAP_COUNT, 48 bits (R42, R51) -/
  count : Nat
  /-- present tick, 0 to 4,095 -/
  tick : Nat
  /-- hurdle H8 has begun, so crossings are judged (R535) -/
  judging : Bool
  mains : Judge
  feeder : Judge
  /-- H8's way is OTHER and firmware has not written SEL: SEL is taken as FREE -/
  selFree : Bool
  /-- a write of LAP_SRC_CTRL waits for its judgement (R536) -/
  srcWritten : Bool
  /-- lap boundaries at which each source has been found valid without a break (R46), at most 256 -/
  validFor : List Nat
  /-- the FREE period in force, ns (R49) -/
  freePeriod : Nat
  /-- laps since the change of source that the present slew followed, none for a slew without one (R48) -/
  slewLaps : Option Nat
  /-- a bad or missing crossing of the source in use since the last boundary -/
  coast : Bool
  /-- the lap in progress is coasted -/
  coasting : Bool
  /-- crossings already inverted by LAP_INJ.ZC -/
  zcDone : Nat
  /-- budgets in force, entry 4c + r (R493) -/
  budget : List Nat
  /-- base baton priorities of the classes -/
  bpri : List Nat
  /-- waiting baton requests in request order -/
  batonQ : List BatonReq
  /-- batons held by each requester -/
  batonHeld : List Nat
  /-- lap of the grant of each requester (R64) -/
  batonLap : List Nat
  /-- the two reserved batons are drawn (R68) -/
  rsv : Bool
  deriving DecidableEq, Repr

/-! ## Sett -/

/-- A committed sett: its epoch and its bytes by sett window offset. -/
structure Sett where
  epoch : Nat
  bytes : Tab 8
  deriving DecidableEq, Repr

/-- The write set (R84). -/
structure WriteSet where
  /-- sealed, else open -/
  sealed : Bool
  owner : Nat
  /-- formed by a request without SETT_WS_CTRL.OPEN (R85) -/
  implicit : Bool
  /-- address and pending value of each entry, in the order of the first write of each address -/
  entries : List (Nat × Word)
  poison : Bool
  /-- lap of the OPEN (R91) -/
  openLap : Nat
  /-- target epoch of a sealed set -/
  target : Nat
  deriving DecidableEq, Repr

/-- The sett block beside its registers. -/
structure SettState where
  /-- epoch of the last commit, or of the mirror (R71) -/
  epoch : Nat
  /-- a sett of the present start has been committed -/
  started : Bool
  /-- the next commit takes this epoch instead of the next one (R93, R97) -/
  jumpTo : Option Nat
  /-- readable setts, newest first, at most four (R74) -/
  held : List Sett
  /-- committed and not yet readable (R73) -/
  fresh : Option Sett
  /-- commit time of the last sett: PTP seconds, nanoseconds (R98) -/
  lastSec : Nat
  lastNs : Nat
  /-- commit time of the sett before the last, and FLAGS.TIMEVALID of the last (R106) -/
  prevSec : Nat
  prevNs : Nat
  timeValid : Bool
  ws : Option WriteSet
  /-- SETT_INJ.POISON caught by the next seal -/
  injPoison : Bool
  /-- the next sett is the first under a newly activated image (FLAGS.IMGCHG) -/
  imgChg : Bool
  /-- newest mirrored epoch the standby has acknowledged (R96) -/
  acked : Nat
  deriving DecidableEq, Repr

/-! ## Image -/

/-- The image block beside its registers. -/
structure ImgState where
  /-- staging buffer in DRAM (R31), by byte offset -/
  staging : Tab 8
  /-- content of flash slots A and B -/
  slotA : Tab 8
  slotB : Tab 8
  /-- slot of an accepted ACTIVATE that waits for the commit (R38): true for B -/
  pendAct : Option Bool
  /-- the fields that the DEFAULTS section of the running image declares -/
  defaults : List DefaultEntry
  /-- a raise of IMG_FLOOR that is not complete: the target (R30) -/
  floorTo : Option Word
  deriving DecidableEq, Repr

/-! ## Non-volatile store -/

/-- One base copy of a tally (R438). -/
structure TallyBase where
  value : Word
  fold : Word
  deriving DecidableEq, Repr

/-- A tally: its 16 increment cells (none: fails its CHK), its base copies, and the value V in use. -/
structure Tally where
  cells : List (Option Word)
  baseA : Option TallyBase
  baseB : Option TallyBase
  v : Word
  deriving DecidableEq, Repr

/-- A warm header that passes its own CRC (R434): its sequence number, its STATE, and the CRC-32C of the stored image. -/
structure WarmHeader where
  seq : Word
  complete : Bool
  imgCrc : Word
  deriving DecidableEq, Repr

/-- A commanded store (R435): whether its batons came and header STORING is written, into which header (true: B), its
SEQ, the pages it has programmed, and how many of them since the last grant. -/
structure StoreRun where
  begun : Bool
  toB : Bool
  seq : Word
  done : List Nat
  sinceGrant : Nat
  deriving DecidableEq, Repr

/-- Words of a request that wait for page programs of the direct window (R375): requester, the remaining words (address,
value), the index of the first of them in the request, whether they came as a WRITELIST, the index of the word whose block
was dropped, when one was (R376), the epoch of the answer (R82), and the number of the write set that the request formed,
when it formed one (R85). -/
structure NvJob where
  src : Src
  words : List (Nat × Word)
  index : Nat
  isList : Bool
  cut : Option Nat
  epoch : Nat
  formed : Option Word
  deriving DecidableEq, Repr

/-- A password change whose copies are being written (R431). -/
structure PwJob where
  region : Nat
  isWrite : Bool
  pw : Option (Word × Word)
  copies : Nat
  deriving DecidableEq, Repr

/-- The wrong unlock attempts of a region (R430): laps of the latest, and the lap the lockout began. -/
structure PwFail where
  region : Nat
  laps : List Nat
  lockedAt : Option Nat
  deriving DecidableEq, Repr

/-- The non-volatile store and the warm SRAM. -/
structure NvState where
  /-- stored image of the warm region, by warm offset -/
  warmCells : Tab 8
  /-- SRAM warm region, by warm offset -/
  sram : Tab 8
  /-- dirty pages -/
  dirty : List Nat
  headA : Option WarmHeader
  headB : Option WarmHeader
  /-- cells of the USER regions, by NV offset -/
  user : Tab 8
  /-- cells of the spoor ring, by offset in the SPOOR region; an erased byte reads 0xFF (R466) -/
  ring : Tab 8
  /-- tallies that differ from their delivered state, by number -/
  tallies : List (Nat × Tally)
  /-- tally increments in progress (R440): tally, and whether firmware asked for it through NVS_TALLY_CTRL -/
  tallyJobs : List (Nat × Bool)
  /-- passwords in force: region, write kind, bytes 0 to 3 and 4 to 7 -/
  passwords : List (Nat × Bool × Word × Word)
  pwJobs : List PwJob
  pwFails : List PwFail
  store : Option StoreRun
  jobs : List NvJob
  /-- internal writers whose write failed in the present lap, which each repeats at the next (R427): 0 the commanded store, 1 a
  password, 2 the spoor, 16 + t the module's increment of tally t -/
  failed : List Nat
  deriving DecidableEq, Repr

/-! ## Keys -/

/-- A key (R409): its type, its engine mask, its material. -/
structure Key where
  kind : Nat
  mask : Nat
  material : List Byte
  deriving DecidableEq, Repr

/-- A valid copy of a slot record (R418): its SEQ, and the key; none for an empty slot. -/
structure SlotCopy where
  seq : Word
  key : Option Key
  deriving DecidableEq, Repr

/-- A key slot: copies A and B (none: the copy is not valid), and the record in force. -/
structure KeySlot where
  copyA : Option SlotCopy
  copyB : Option SlotCopy
  inForce : SlotCopy
  deriving DecidableEq, Repr

/-- A key update that passed its checks (R418): target slot, the record to write, whether U is incremented, and whether
the copy is written and verified, so that the key waits for the next commit (R420). -/
structure KeyJob where
  slot : Nat
  record : SlotCopy
  counted : Bool
  written : Bool
  deriving DecidableEq, Repr

/-- The key slots beside their registers; `slots` lists those not as empty as delivered. -/
structure KeyState where
  slots : List (Nat × KeySlot)
  job : Option KeyJob
  /-- challenges answered in the present lap (R422) -/
  answered : Nat
  deriving DecidableEq, Repr

/-! ## Spoor -/

/-- A spoor record without its CRC (R465); SOURCE is `code / 256`. -/
structure SpoorRec where
  code : Nat
  sev : Nat
  opsec : Word
  boot : Nat
  seq : Nat
  rep : Nat
  data : List Byte
  /-- the first program writes the complement of the CRC (SPR_INJ.CRCWR) -/
  bad : Bool
  deriving DecidableEq, Repr

/-- A raised event that the spoor has not numbered yet. -/
structure SpoorEvent where
  code : Nat
  sev : Nat
  data : List Byte
  /-- operating seconds at which it was raised -/
  opsec : Nat
  deriving DecidableEq, Repr

/-- An open rate-limit window (R471): entry, operating second it opened, records appended, occurrences suppressed. -/
structure RateWin where
  entry : Nat
  openAt : Word
  appended : Nat
  suppressed : Nat
  deriving DecidableEq, Repr

/-- The spoor recorder beside its registers. -/
structure SpoorState where
  /-- the start scan has found the newest record (R473) -/
  ready : Bool
  /-- events raised before the scan ended, oldest first -/
  early : List SpoorEvent
  /-- records numbered and not yet programmed, in order of SEQ -/
  queue : List SpoorRec
  /-- the newest record, written or queued -/
  newest : Option SpoorRec
  /-- written records whose REPEAT has changed in the present lap, and those due for reprogramming (R470) -/
  changed : List SpoorRec
  due : List SpoorRec
  /-- no further record is taken: step 3 of R474 has begun -/
  closed : Bool
  /-- events dropped since the last SPR_QOVR record -/
  dropped : Nat
  windows : List RateWin
  deriving DecidableEq, Repr

/-! ## Block status, fault pin, boot, supply -/

/-- The ZID block beside its registers. -/
structure ZidState where
  /-- MINW of the running interval in ms, 0 when none runs, and the instant of its trigger in ns of the oscillator (R485) -/
  minLeft : Nat
  trigAt : Nat
  /-- a LED test runs (R489), and the instant of its write in ns of the oscillator -/
  ledTest : Bool
  ledAt : Nat
  /-- consecutive low readings while driven high (R488) -/
  lowReads : Nat
  deriving DecidableEq, Repr

/-- Phases of the module's supply and start (R491 to R503). -/
inductive Phase where
  /-- unpowered or held in reset -/
  | off
  /-- hurdles running -/
  | starting
  /-- a critical hurdle failed; the module resets itself after 1 s (R497) -/
  | failed
  /-- halted by the way HALT of a hurdle (R497) -/
  | halted
  /-- H15 passed -/
  | running
  /-- a power failure is detected and the shutdown runs (R503) -/
  | shutdown
  deriving DecidableEq, Repr

/-- An entry of the hurdle ledger (Table 2 of spec/22_start_up_hurdles.md). -/
structure LedgerEntry where
  seq : Word
  boot : Nat
  hurdle : Nat
  act : Bool
  mark : Nat
  result : Nat
  way : Nat
  detail : Nat
  ms : Nat
  deriving DecidableEq, Repr

/-- Start-up and supply beside their registers. -/
structure BootState where
  phase : Phase
  /-- the hurdle in progress, none when the start has ended or stopped -/
  cur : Option Nat
  /-- ms from reset release to the end of H0, whose entries are written when H1 ends -/
  h0ms : Nat
  /-- hurdle H14 has started the loops (R216, Table 1 of spec/22_start_up_hurdles.md) -/
  control : Bool
  /-- ledger slots that hold a valid entry, by slot -/
  ledger : List (Nat × LedgerEntry)
  /-- ledger slots that fail their CRC -/
  badSlots : List Nat
  /-- hurdles of this start that ended with PASS or NOFIT -/
  passed : List Nat
  /-- H11 was taken its way SKIP, so H14 is skipped with it -/
  skip14 : Bool
  /-- H13 was taken its way OTHER or failed: no join -/
  noJoin : Bool
  /-- H7 was taken its way OTHER: ports A and B stay disabled -/
  onlyS : Bool
  /-- the lane or bank that the last failure of H4 named (DETAIL), taken failed under way OTHER -/
  testDetail : Option Nat
  /-- the hurdle in progress belongs to an activation run (ACT) -/
  act : Bool
  /-- the start's hurdle that an activation run interrupted -/
  resume : Option Nat
  /-- the tick number at which the hurdle in progress began (R495) -/
  since : Nat
  /-- the oscillator's ns at which a critical hurdle failed (R497) -/
  failNs : Nat
  deriving DecidableEq, Repr

/-! ## Dispatch, solver, results -/

/-- The present dispatch cycle (R100 to R108). -/
structure Cycle where
  number : Word
  startLap : Nat
  startEpoch : Nat
  deadline : Nat
  tau0 : Nat
  grid1 : Nat
  shift : Nat
  warm : Bool
  timeGrid : Bool
  /-- the module's registers as the cycle-start sett holds them (R101) -/
  vals : Tab 32
  /-- linearisation point, aligned and projected (R108, R170) -/
  lin : Traj
  linProj : Bool
  linSafe : Bool
  /-- draw forecast of each scenario, substation and step k: a numerator over 1000 × 65536^k W (R115) -/
  demand : List Int
  /-- import and export price of each scenario and step (R116) -/
  prices : List (Int × Int)
  /-- scenario weights, numerators over their sum (R119) -/
  weights : List Nat
  /-- initial values q_-1 and x_0 of each unit, register encoding (R114) -/
  init : List Int
  deriving DecidableEq, Repr

/-- Stop reasons of a solve (SLV_LASTSTOP.REASON). -/
inductive Stop where
  | none | test | itermax | deadline | reject | nostart | abort
  deriving DecidableEq, Repr

/-- A fixed-point value: the integer `i` × 2^-f model units (R140). -/
structure Fx where
  i : Int
  f : Nat
  deriving DecidableEq, Repr

/-- A 64-byte line of the factor memory, of a lane memory or of the DRAM image of the KKT system (R128): VALUE 0 to 13, KIND,
GEN. Its CRC-32C, which travels in sideband, is that of its bytes. -/
structure Line where
  vals : List Int
  kind : Nat
  gen : Nat
  deriving DecidableEq, Repr

/-- One side of an inequality (R131): the canonical column of its row, or of the variable that it bounds; whether it is a lower
limit; and the limit as h of G x + s = h. -/
structure Side (α : Type) where
  col : Nat
  neg : Bool
  h : α
  deriving DecidableEq, Repr

/-- A quadratic programme (R131, R132): numbers of primal and equality columns, the nonzeros of the KKT system's lower triangle
in canonical order as row, column and value, and g, b and the sides. -/
structure Qp (α : Type) where
  np : Nat
  ne : Nat
  nz : List (Nat × Nat × α)
  g : List α
  b : List α
  sides : List (Side α)
  deriving DecidableEq, Repr

/-- A point of the interior point method (R134): x and y by canonical column, z and s by side. -/
structure Point where
  x : List Fx
  y : List Fx
  z : List Fx
  s : List Fx
  deriving DecidableEq, Repr

/-- An accepted iterate and its measures (R137). -/
structure Iterate where
  point : Point
  ms : Measures
  deriving DecidableEq, Repr

/-- A solve in progress or ended in the present cycle (R134 to R147). -/
structure Solve where
  running : Bool
  assembled : Bool
  /-- iterations begun -/
  it : Nat
  /-- iterations rejected, and how many of them in a row since the last accepted one -/
  rejected : Nat
  rejects : Nat
  /-- the registers as sampled at the start (R159) -/
  pars : Tab 32
  /-- the programme as the assembly unit converted it (R147) -/
  qp : Option (Qp Fx)
  /-- the point that the next iteration starts from: the initial one, then the last accepted iterate (R134, R135) -/
  point : Point
  /-- last accepted iterate of this solve -/
  last : Option Iterate
  /-- FAB and DRAM blocks charged in the present iteration or assembly (R161), and where the sequencer stands in it -/
  charged : Nat
  loaded : Nat
  pos : SeqPos
  stop : Stop
  /-- the present burst's planned width, and whether some burst of the solve ran with fewer lanes -/
  planned : Nat
  narrow : Bool
  /-- a block of the present iteration was dropped, or a lane or bank of it was declared failed (R145, R190) -/
  dropped : Bool
  /-- the present burst waits for its batons (R63, R67) -/
  waiting : Bool
  deriving DecidableEq, Repr

/-- Dispatch beside its registers. -/
structure DspState where
  /-- lap of the next scheduled cycle start, when one is scheduled (R100, R104) -/
  nextStart : Option Nat
  cycle : Option Cycle
  /-- the cycle's deadline has not passed and the cycle was not aborted -/
  dlOpen : Bool
  solve : Option Solve
  /-- accepted trajectory (R164) -/
  accepted : Option Traj
  /-- LAP_COUNT of the last grid point, when one was taken -/
  gridLap : Option Nat
  /-- a grid point was taken since the last cycle start (R108) -/
  gridSince : Bool
  /-- the node temperatures of past steps, the last one first, 0.001 °C by node (R112), and the entries whose read was dropped
  in the present assembly: steps back, node (R186) -/
  history : List (List Int)
  histGone : List (Nat × Nat)
  /-- the DRAM image of the KKT system (R128): factor-store lines, then root lines -/
  image : List (Nat × Line)
  /-- the factor memory by logical line address 8,192 × bank + line (R127) -/
  factor : List (Nat × Line)
  /-- the lane memories: 4,096 × physical lane + line (R126) -/
  lanes : List (Nat × Line)
  /-- the reciprocals of D that the lanes hold, by the place of their pivot (R143) -/
  recips : List (Nat × Fx)
  /-- the FALLBACK problem is the running problem (R202) -/
  fallback : Bool
  /-- neither problem fits (R204), and its COLD result waits for the next lap boundary -/
  nofit : Bool
  coldDue : Bool
  /-- published result: header bytes, setpoint blocks, trajectory words by scenario (R177) -/
  header : List Byte
  setpoints : List Byte
  streams : List (List Word)
  /-- a result was published and is not readable yet (DSP_RES_IRQ.PUBLISH) -/
  pubFresh : Bool
  /-- lap of the cycle start of the result in force (R176) -/
  resLap : Nat
  /-- publications since the last OPTIMAL or ACCEPTABLE, at most 0xFFFE (Table 4 of
  spec/06_deadlines_results_warm_start.md) -/
  since : Nat
  deriving DecidableEq, Repr

/-! ## Fabric -/

/-- What a copy of the repair map holds (R193): its SEQ, the code of each physical lane and bank, and the spare lines that are
used or bad: entry 164p + i holds the line that spare line 8,192 + i of bank p replaces, or 0xFFFE. -/
structure RepairMap where
  seq : Word
  lanes : List Nat
  banks : List Nat
  spares : List (Nat × Nat)
  deriving DecidableEq, Repr

/-- Fabric integrity beside its registers. -/
structure FabState where
  /-- the bytes of the two copies in the system area of the NV store, by offset of Table 3 (R193); an unlisted byte is 0xFF -/
  copyA : Tab 8
  copyB : Tab 8
  /-- the lap of a map write that failed: it is repeated at the next lap (R195) -/
  mapTry : Option Nat
  /-- the map in use (R195), and the map that failures and repairs declared since ask for -/
  use : RepairMap
  want : RepairMap
  /-- the map that the present or last iteration or solve runs on (R190) -/
  live : RepairMap
  /-- drops attributed to lanes: lane and lap; drops on path DRAM: laps (R188, R201) -/
  laneDrops : List (Nat × Nat)
  dramDrops : List Nat
  /-- laps of the last lane check and of the last scrub segment, and the lane checked last -/
  lchkAt : Nat
  lchkLane : Nat
  scrubAt : Nat
  /-- the line that the DRAM scrub reads next, of the image's copy and then of the repair map's (R200) -/
  dramAt : Nat
  /-- a retraining of the DRAM link is due (R201) -/
  trainDue : Bool
  /-- lanes that the map takes at most: 16, or LANEMIN when H12 is taken its way OTHER -/
  laneCap : Nat
  deriving DecidableEq, Repr

/-! ## Field inputs and outputs -/

/-- The reference of a converter bank (R263, R264): checks run, consecutive checks in band, checks since the start or the
last failure, settled now, failed now, settled at least once. -/
structure RefState where
  checking : Bool
  inBand : Nat
  checks : Nat
  settled : Bool
  failed : Bool
  ever : Bool
  /-- the bank's channels convert: it has settled since the start or activation (R537) -/
  conv : Bool
  deriving DecidableEq, Repr

/-- The background calibration of a bank (R265 to R268): the step's channel and the results it has given since the step
began, the channel of the next step in the round, and the spare slice's coefficients. -/
structure CalState where
  chan : Option Nat
  seen : Nat
  next : Nat
  spareOfs : Int
  spareGain : Nat
  /-- lap of the start of the bank's last step (R265) -/
  startLap : Option Nat
  deriving DecidableEq, Repr

/-- A plausibility pair (R270): which of the two coincident results has come, consecutive pairs apart and within, and
whether the pair carries PLAUS. -/
structure PlausState where
  haveA : Bool
  haveB : Bool
  apart : Nat
  within : Nat
  on : Bool
  deriving DecidableEq, Repr

/-- Field inputs and outputs beside their registers. -/
structure FieldState where
  refs : List RefState
  cals : List CalState
  plaus : List PlausState
  /-- channels whose own slice failed, which stay on the spare (R268) -/
  onSpare : List Nat
  /-- own coefficients OFS and GAIN (Q2.30) of a channel's slice, where they differ from 0 and 1 -/
  coefs : List (Nat × Int × Nat)
  /-- OVR, OPEN, REV and SHORT of a channel's newest result (R261) -/
  marks : List (Nat × Nat)
  /-- results of a channel whose window still touches a reference failure (R264) -/
  refDirty : List (Nat × Nat)
  /-- code that an analog output's driver has given since the last activation or stop -/
  aoDrv : List (Nat × Nat)
  /-- consecutive deviating readings of an analog output (R275) -/
  aoDev : List (Nat × Nat)
  /-- digital outputs as the program's output image has them, and which it has written -/
  doImage : List (Nat × Bool)
  /-- firmware has written DIO_DO_SET since the activation (R40) -/
  doFw : Bool
  /-- digital outputs switched off by overcurrent, and those switched on again by a retry (R280) -/
  tripped : List Nat
  retried : List Nat
  /-- digital outputs that wait to be switched on, at most 8 per tick (R238, R282) -/
  doLater : List Nat
  /-- digital inputs with a line fault now -/
  diFault : List (Nat × DiFault)
  /-- digital outputs with OPEN or REV now -/
  doFault : List (Nat × DoFault)
  /-- the field supply is off under R283, and the consecutive measurements at 19.2 V or more -/
  supplyOff : Bool
  supplyGood : Nat
  deriving DecidableEq, Repr

/-! ## Loops and program -/

/-- A loop beside its registers: it starts at its next sample (R216); the absolute tick of its last sample instant (R213);
the states of its stages; the low and high limit flags of its stages and, last, of its output in the previous sample
(R221). -/
structure LoopRun where
  start : Bool
  sampledAt : Option Nat
  stages : List (Int × Int × Int)
  low : List Bool
  high : List Bool
  deriving DecidableEq, Repr

/-- The function-block program beside its registers. -/
structure FbpState where
  /-- an accepted RESTART waits for the boundary; COLD (R244, R245) -/
  restart : Option Bool
  /-- lap of the next cycle start, and the absolute tick of the last one -/
  nextCycle : Nat
  cycleAt : Nat
  /-- the present cycle's apply instant has not passed, and its watchdog instant (R239) -/
  cycleOpen : Bool
  wdogAt : Nat
  wdogDone : Bool
  /-- outputs hold their safe values until the first apply instant (R40, R243) -/
  safeHold : Bool
  /-- the input image of the present cycle (R235) -/
  inputs : Tab 32
  /-- instance data, and as it stood at the last apply instant (R247) -/
  data : Tab 8
  applied : Tab 8
  /-- core-ticks that the present evaluate phase has taken (R230) -/
  ran : Nat
  /-- the output image that waits for the batons of requester 5, and the absolute tick of the request (R238) -/
  waiting : Option OutImage
  askedAt : Nat
  deriving DecidableEq, Repr

/-! ## CAN -/

/-- An entry of a receive queue (R320): filter, SEQ, and words 1 to 3 of its layout, and its data bytes. -/
structure CanEntry where
  filter : Nat
  seq : Nat
  id : Word
  fmt : Word
  stamp : Word
  data : List Byte
  deriving DecidableEq, Repr

/-- A frame in transmission: its buffer, the frame as it started (R327), and an ABORT written during it (R326). -/
structure CanTx where
  buf : Nat
  id : Word
  fmt : Word
  data : List Byte
  abort : Bool
  deriving DecidableEq, Repr

/-- A CAN channel beside its registers. -/
structure CanChan where
  q0 : List CanEntry
  q1 : List CanEntry
  /-- SEQ of the next entry of each queue -/
  next0 : Nat
  next1 : Nat
  /-- the mode in force, and a written mode that waits for bus idle (R316) -/
  mode : Nat
  pendMode : Option Nat
  /-- error state that the channel takes up again after it integrates: 2 or 3 -/
  former : Nat
  tx : Option CanTx
  /-- the bus-off recovery sequence runs (R313) -/
  recovering : Bool
  /-- consecutive own frames above 3.2 V (Table 3) -/
  openRun : Nat
  /-- no fault for 100 ms, and RESUME is awaited (R333) -/
  awaitResume : Bool
  deriving DecidableEq, Repr

/-! ## Metering -/

/-- A periodic copy of the metering registers (R307): its sequence number, the registers with their hidden fractions,
and the commits since it was written. -/
structure MtrCopy where
  seq : Word
  energy : List Nat
  therm : List Nat
  errs : List Nat
  since : Nat
  deriving DecidableEq, Repr

/-- Metering beside its registers. -/
structure MtrState where
  /-- energy registers of the feeders in 2^-32 mWh: entry 25f + k, k = 24 for UNMEAS (R297, R300) -/
  energy : List Nat
  /-- HEAT and COOL in 2^-32 Wh and VOL in 2^-32 L: entry 3t + 0, 1, 2 (R305) -/
  therm : List Nat
  /-- magnitude of the active energy of the last non-faulted lap, in 2^-32 mWh, and that lap, by phase 3f + p (R300) -/
  lastE : List (Nat × Nat × Nat)
  /-- feeders with CLKFAIL now, channels 6f + c with STUCK or OVL now -/
  clkNow : List Nat
  stuckNow : List Nat
  ovlNow : List Nat
  /-- the same at any sample of the present lap, and the OVL samples of the lap (R289) -/
  clkLap : List Nat
  stuckLap : List Nat
  ovlLap : List (Nat × Nat)
  /-- pulse count of each thermal channel's flow input at the last boundary (R304) -/
  pulses : List (Nat × Word)
  /-- a SNAP waits for the next commit (R303) -/
  snap : Bool
  /-- commits since the last periodic copy, a copy is due, and the lap of one that failed (R307) -/
  sinceSave : Nat
  saveDue : Bool
  saveTry : Option Nat
  copyA : Option MtrCopy
  copyB : Option MtrCopy
  /-- latched HI words by their address (R302) -/
  shadows : List (Nat × Word)
  deriving DecidableEq, Repr

/-! ## Ethernet -/

/-- An entry of the status table (R346): STAMP, the five values, ALARMS, VALID, the last accepted SEQ, and whether that
SEQ still counts (R347). -/
structure SubEntry where
  stamp : Word
  vals : List Word
  alarms : Nat
  valid : Bool
  seq : Word
  known : Bool
  deriving DecidableEq, Repr

/-- An entry of a port's ARP table. -/
structure ArpEntry where
  port : Nat
  ip : Word
  mac : BitVec 48
  deriving DecidableEq, Repr

/-- The Ethernet ports beside their registers. -/
structure EthState where
  /-- frames accepted by each port in the present lap (R337) -/
  frames : List Nat
  arp : List ArpEntry
  /-- status table, by substation -/
  subs : List (Nat × SubEntry)
  /-- epoch of the newest sett whose telegrams were sent (R341) -/
  telEpoch : Option Nat
  deriving DecidableEq, Repr

/-! ## Network time and calendar -/

/-- A master heard in a domain: its sourcePortIdentity, the port it is heard on, the data set of its last Announce (the
key of clause 9.3: priority1, class, accuracy, variance, priority2; grandmasterIdentity; stepsRemoved), its
logAnnounceInterval, its currentUtcOffset word, and the instants of its Announces, newest first, in ns of the oscillator. -/
structure PtpMaster where
  ident : List Byte
  port : Nat
  key : List Nat
  gm : Nat
  steps : Nat
  logAnn : Int
  utc : Word
  heard : List Rat
  deriving DecidableEq, Repr

/-- An exchange of path delay (R358): the Delay_Req's sequenceId and t3; t2 − t1 − cS of the latest Sync before it, or, while
that Sync's Follow_Up is outstanding, its sequenceId; and t4 − t3 − cR once the Delay_Resp has come, ns. -/
structure DelayReq where
  seq : Nat
  t3 : Rat
  diff : Option Rat
  sync : Option Nat
  resp : Option Rat
  deriving DecidableEq, Repr

/-- A PTP domain beside its registers. -/
structure PtpDomain where
  heard : List PtpMaster
  /-- the selected master -/
  master : Option PtpMaster
  qual : Bool
  /-- instants of the last Announce and the last Sync of the master, and since when the domain is QUALIFIED -/
  annAt : Rat
  syncAt : Rat
  qualAt : Rat
  /-- a two-step Sync that waits for its Follow_Up: sequenceId, t2, cS in ns -/
  twoStep : Option (Nat × Rat × Rat)
  /-- t2 − t1 − cS of the latest Sync, ns -/
  lastDiff : Option Rat
  /-- the last Delay_Req's exchange, and the next sequenceId -/
  dreq : Option DelayReq
  dseq : Nat
  /-- kept path delay samples, newest first, at most 32 -/
  delays : List Rat
  /-- the last 8 offset samples, newest first: the sample, and the sample less the ramp remaining (R359) -/
  samples : List (Rat × Rat)
  /-- consecutive samples beyond UNLOCKTHR, and whether one of them was beyond STEPLIM -/
  beyond : Nat
  jumped : Bool
  deriving DecidableEq, Repr

/-- Network time beside its registers. The clock's value is exact: `clk` ns since the PTP epoch at the oscillator's
instant `at_` (R353); the rate in force is PTP_RATE. -/
structure PtpState where
  clk : Rat
  at_ : Rat
  /-- integral and proportional terms of the servo, ppb (R361) -/
  integ : Rat
  prop : Rat
  /-- RAMP, ns, and the ramp term, ppb (R362) -/
  ramp : Rat
  rampTerm : Rat
  /-- consecutive samples of the leading domain within LOCKTHR since LOCKED was entered (R366) -/
  lockRun : Nat
  /-- instant at which HOLDOVER was entered -/
  holdAt : Rat
  /-- the leading domain lost QUALIFIED to a GMCHANGE and leads again when it qualifies (R363) -/
  gmWait : Bool
  /-- the PTP clock was stepped or ramped in the present trim window (R458) -/
  moved : Bool
  dom0 : PtpDomain
  dom1 : PtpDomain
  deriving DecidableEq, Repr

/-- A freeze of RTC_TIME, RTC_DATE and RTC_SUBSEC for a key slot (R452): the captured words, and which were read. -/
structure RtcShadow where
  slot : Nat
  time : Word
  date : Word
  subsec : Word
  readTime : Bool
  readDate : Bool
  readSub : Bool
  /-- the instant it began, ns of the oscillator (R453) -/
  since : Nat
  deriving DecidableEq, Repr

/-- The calendar beside its registers. -/
structure RtcState where
  shadows : List RtcShadow
  /-- instant of the last carry, ns of the oscillator: RTC_SUBSEC counts from it -/
  carryAt : Rat
  /-- the reference of the present trim window (1 MAINS, 2 PTP), and whether it became invalid in it (R458) -/
  winSrc : Nat
  winBad : Bool
  /-- the second of the trim window that runs (R456) -/
  winSec : Nat
  deriving DecidableEq, Repr

/-! ## Pair -/

/-- What a witness knows of a member from its last accepted heartbeat (R397). -/
structure Heard where
  hbSeq : Word
  boot : Nat
  lap : Nat
  active : Bool
  sync : Bool
  imgOk : Bool
  handover : Bool
  deriving DecidableEq, Repr

/-- Pair operation beside its registers. -/
structure PairState where
  /-- ROLE and SIDE as read at start (R386) -/
  role : Nat
  sideB : Bool
  /-- the claim latch, and the absolute tick at which it was set (R389) -/
  latch : Bool
  latchAt : Nat
  /-- levels of INTLK_IN and GRANT_IN, and the absolute tick of their last change -/
  intlkIn : Bool
  intlkAt : Nat
  grantIn : Bool
  grantAt : Nat
  /-- side that the last accepted grant message names: 0 A, 1 B, 0xFF none -/
  grantSide : Option Nat
  /-- GRANTSEQ under which the module last left ACTIVE (R393) -/
  leftSeq : Option Word
  /-- lap of the last accepted grant message (R392) -/
  owlLap : Nat
  hbSeq : Word
  handover : Bool
  partner : Option Partner
  /-- last acknowledged unit, and the lap in which it was acknowledged -/
  last : Option MirrorUnit
  lastLap : Nat
  /-- consecutive units acknowledged in the present join (R403) -/
  joined : Nat
  /-- partner epoch learnt at check 6 of the join, and the lap of that check -/
  partnerEpoch : Nat
  partnerLap : Nat
  /-- own lap that began at the boundary of the last acknowledged unit (R406) -/
  lastBound : Nat
  /-- lap boundaries since the entry into ACTIVE, that of the entry included, saturating at 2 (R406) -/
  activeLaps : Nat
  /-- NV records made since the previous unit (R398): spans of the warm region (offset, length), units by NV offset -/
  recWarm : List (Nat × Nat)
  recUser : List Nat
  /-- NV records of units that no acknowledgement has covered: they go again with the next unit (R400) -/
  keepWarm : List (Nat × Nat)
  keepUser : List Nat
  /-- PAIR_NVMASK as the present join took it -/
  nvmask : Nat
  /-- side B has yielded to contention and leaves ACTIVE at the next boundary (R389) -/
  yielded : Bool
  /-- witness: what it has heard of A and of B, the lap of its start, a move waiting for its assertion, and the absolute
  tick at which both grant lines went low -/
  hearA : Option Heard
  hearB : Option Heard
  witStart : Nat
  moveTo : Option Bool
  moveAsked : Bool
  lowAt : Nat
  deriving DecidableEq, Repr

/-! ## The whole machine -/

/-- The state of the module. -/
structure State where
  /-- commands that wait, first in first out -/
  pending : List Instr
  /-- the addressable registers: an address not listed holds 0 -/
  regs : Tab 32
  /-- the answer of the last host window access -/
  answer : Answer
  /-- the frames that the last command sent -/
  sent : List Frame
  /-- the model's own: how many free values have been used -/
  free : Nat
  lap : LapState
  sett : SettState
  img : ImgState
  nv : NvState
  hwp : HwpState
  spr : SpoorState
  zid : ZidState
  boot : BootState
  dsp : DspState
  fab : FabState
  key : KeyState
  pair : PairState
  field : FieldState
  loops : List (Nat × LoopRun)
  fbp : FbpState
  can : List CanChan
  mtr : MtrState
  eth : EthState
  ptp : PtpState
  rtc : RtcState
  /-- CANn_TSC at the last lap boundary, in ns of the module's oscillator -/
  tscNs : Nat
  /-- pacer charges of the present lap, entry 4c + r, in the charge units of Table 3; NVW debt included (R58) -/
  used : List Nat
  deriving DecidableEq, Repr

/-! ## Reset -/

/-- A channel that has just left reset. -/
def canIdle : CanChan := ⟨[], [], 0, 0, 0, none, 2, none, false, 0, false⟩

/-- A domain without master or samples. -/
def freshDomain : PtpDomain := ⟨[], none, false, 0, 0, 0, none, none, none, 0, [], [], 0, false⟩

/-- The empty repair map. -/
def emptyMap : RepairMap := ⟨0#32, List.replicate 18 0, List.replicate 50 0, []⟩

/-- The bytes of a copy of the empty map with SEQ 0 (Table 3 of spec/07_fabric_integrity_and_spares.md). -/
def emptyMapTab : Tab 8 :=
  [(0, 0x4E#8), (1, 0x5A#8), (2, 0x52#8), (3, 0x50#8), (4, 0#8), (5, 0#8), (6, 0#8), (7, 0#8), (8, 1#8)]
    ++ (List.range 151).map (fun i => (9 + i, 0#8)) ++ (List.range 12).map (fun i => (0x40B0 + i, 0#8))
    ++ [(0x40BC, 0x28#8), (0x40BD, 0x97#8), (0x40BE, 0x02#8), (0x40BF, 0xBD#8)]

/-- A judgement in which no crossing has arrived. -/
def Judge.fresh : Judge := ⟨false, 0, 0, false, [], none⟩

/-- The lap generator, pacer and governor after reset (R492, R493): FREE at its reset period, every resource to SELF. -/
def resetLap : LapState :=
  { count := 0, tick := 0, judging := false, mains := Judge.fresh, feeder := Judge.fresh, selFree := false, srcWritten := false,
    validFor := [0, 0, 0, 0], freePeriod := 20000000, slewLaps := none, coast := false, coasting := false, zcDone := 0,
    budget := List.replicate 40 0 ++ [4096, 4096, 4096, 4096] ++ List.replicate 4 0, bpri := List.replicate 12 0,
    batonQ := [], batonHeld := [0, 0, 0, 0, 0, 0], batonLap := [0, 0, 0, 0, 0, 0], rsv := false }

/-- The sett block after reset: nothing committed. -/
def resetSett : SettState :=
  { epoch := 0, started := false, jumpTo := none, held := [], fresh := none, lastSec := 0, lastNs := 0, prevSec := 0, prevNs := 0,
    timeValid := false, ws := none, injPoison := false, imgChg := false, acked := 0 }

/-- The image block as delivered: both slots empty. -/
def resetImg : ImgState := { staging := [], slotA := [], slotB := [], pendAct := none, defaults := [], floorTo := none }

/-- The store as delivered: the warm image all 0 under a COMPLETE header (the CRC is that of 1 MiB of zeros), the ring
erased, the tallies at their delivered values, no password. -/
def resetNv : NvState :=
  { warmCells := [], sram := [], dirty := [], headA := some ⟨0#32, true, 0x14298C12#32⟩, headB := none, user := [], ring := [],
    tallies := [], tallyJobs := [], passwords := [], pwJobs := [], pwFails := [], store := none, jobs := [], failed := [] }

/-- The two keys of the module's key sheet (R413), each in both copies of its slot. -/
def resetKey : KeyState :=
  let upd : SlotCopy := ⟨1#32, some ⟨3, 0x20, leBytes 32 Config.sheetUpdateKey.toNat⟩⟩
  let host : SlotCopy := ⟨2#32, some ⟨1, 0x01, leBytes 16 Config.sheetHostKey.toNat⟩⟩
  { slots := [(0, ⟨some upd, some upd, upd⟩), (1, ⟨some host, some host, host⟩)], job := none, answered := 0 }

/-- The spoor recorder after reset: the start scan has not run. -/
def resetSpr : SpoorState :=
  { ready := false, early := [], queue := [], newest := none, changed := [], due := [], closed := false, dropped := 0, windows := [] }

/-- The start at reset release: H0 runs (R491, R492). -/
def resetBoot : BootState :=
  { phase := .starting, cur := some 0, h0ms := 0, control := false, ledger := [], badSlots := [], passed := [], skip14 := false,
    noJoin := false, onlyS := false, testDetail := none, act := false, resume := none, since := 0, failNs := 0 }

/-- Dispatch after reset: no cycle, no result. -/
def resetDsp : DspState :=
  { nextStart := none, cycle := none, dlOpen := false, solve := none, accepted := none, gridLap := none, gridSince := false,
    history := [], histGone := [], image := [], factor := [], lanes := [], recips := [], fallback := false, nofit := false,
    coldDue := false, header := [], setpoints := [], streams := [], pubFresh := false, resLap := 0,
    since := 0 }

/-- The fabric as delivered: a repair map without a failed item in both copies. -/
def resetFab : FabState :=
  { copyA := emptyMapTab, copyB := emptyMapTab, mapTry := none, use := emptyMap, want := emptyMap, live := emptyMap, laneDrops := [],
    dramDrops := [], lchkAt := 0, lchkLane := 17, scrubAt := 0, dramAt := 0, trainDue := false, laneCap := 16 }

/-- Pair operation after reset. -/
def resetPair : PairState :=
  { role := 0, sideB := false, latch := false, latchAt := 0, intlkIn := false, intlkAt := 0, grantIn := false, grantAt := 0,
    grantSide := none, leftSeq := none, owlLap := 0, hbSeq := 0#32, handover := false, partner := none, last := none, lastLap := 0,
    joined := 0, partnerEpoch := 0, partnerLap := 0, lastBound := 0, activeLaps := 0, recWarm := [], recUser := [], keepWarm := [], keepUser := [],
    nvmask := 0, yielded := false,
    hearA := none, hearB := none, witStart := 0, moveTo := none, moveAsked := false, lowAt := 0 }

/-- Field inputs and outputs after reset: no reference is checked yet. -/
def resetField : FieldState :=
  { refs := List.replicate 4 ⟨false, 0, 0, false, false, false, false⟩, cals := List.replicate 4 ⟨none, 0, 0, 0, 0x40000000, none⟩,
    plaus := List.replicate 2 ⟨false, false, 0, 0, false⟩, onSpare := [], coefs := [], marks := [], refDirty := [], aoDrv := [], aoDev := [],
    doImage := [], doFw := false, tripped := [], retried := [], doLater := [], diFault := [], doFault := [], supplyOff := true,
    supplyGood := 0 }

/-- The function-block program after reset: none runs. -/
def resetFbp : FbpState :=
  { restart := none, nextCycle := 0, cycleAt := 0, cycleOpen := false, wdogAt := 0, wdogDone := false, safeHold := true,
    inputs := [], data := [], applied := [], ran := 0, waiting := none, askedAt := 0 }

/-- Metering as delivered. -/
def resetMtr : MtrState :=
  { energy := List.replicate 100 0, therm := List.replicate 48 0, lastE := [], clkNow := [], stuckNow := [], ovlNow := [],
    clkLap := [], stuckLap := [], ovlLap := [], pulses := [], snap := false, sinceSave := 0, saveDue := false, saveTry := none, copyA := none,
    copyB := none, shadows := [] }

/-- Network time after reset: FREE, the clock at 0. -/
def resetPtp : PtpState :=
  { clk := 0, at_ := 0, integ := 0, prop := 0, ramp := 0, rampTerm := 0, lockRun := 0, holdAt := 0, gmWait := false, moved := false,
    dom0 := freshDomain, dom1 := freshDomain }

/-- The module as delivered, right after reset release (R492): H0 runs, no image is in a slot, no command waits. -/
def State.reset : State :=
  { pending := [], regs := resetRegs, answer := ⟨.ok, 0#32, [], 0⟩, sent := [], free := 0, lap := resetLap, sett := resetSett,
    img := resetImg, nv := resetNv, hwp := ⟨0, [], [], []⟩, spr := resetSpr, zid := ⟨0, 0, false, 0, 0⟩, boot := resetBoot,
    dsp := resetDsp, fab := resetFab, key := resetKey, pair := resetPair, field := resetField, loops := [], fbp := resetFbp,
    can := List.replicate 4 canIdle, mtr := resetMtr, eth := ⟨[0, 0, 0], [], [], none⟩, ptp := resetPtp, rtc := ⟨[], 0, 0, false, 0⟩,
    tscNs := 0, used := List.replicate 48 0 }

end Sys2Proof.Machine
end

