-- ==== Sys2Proof/Machine/Ops.lean ====
section
/-!
DEFINITION. Machine/Ops.lean: the named operations over the registers that every block shares: reading and writing a
register and its fields, saturating counters (R481), events and interrupt bits with the FAULT_N trigger (R479,
R484 to R487 of spec/21_block_status_fault_pin.md), fault injection bits (R482, R483), the answer of a host window
access, and frames sent.
-/

namespace Sys2Proof.Machine

/-! ## Registers -/

/-- The stored value of the register at an address. -/
def State.rd (s : State) (a : Nat) : Word := tabGet 0#32 s.regs a

/-- Store a value in the register at an address. -/
def State.wr (s : State) (a : Nat) (v : Word) : State := { s with regs := tabSet 0#32 s.regs a v }

/-- Bits `lo + n - 1 : lo` of a register, as a number. -/
def State.fld (s : State) (a lo n : Nat) : Nat := bitsOf (s.rd a) lo n

/-- Bits `lo + n - 1 : lo` of a register, read as two's complement. -/
def State.sfld (s : State) (a lo n : Nat) : Int := signedOf n (s.fld a lo n)

/-- Set bits `lo + n - 1 : lo` of a register. -/
def State.setFld (s : State) (a lo n v : Nat) : State := s.wr a (putBits (s.rd a) lo n v)

/-- Bit `i` of a register. -/
def State.bit (s : State) (a i : Nat) : Bool := bitOf (s.rd a) i

/-- Set bit `i` of a register to `b`. -/
def State.setBit (s : State) (a i : Nat) (b : Bool) : State := s.setFld a i 1 b.toNat

/-- The whole register as a number. -/
def State.nat (s : State) (a : Nat) : Nat := (s.rd a).toNat

/-- The whole register read as two's complement. -/
def State.int (s : State) (a : Nat) : Int := (s.rd a).toInt

/-- Add `n` to a counter, which saturates at 0xFFFF_FFFF (R481). -/
def State.countN (s : State) (a n : Nat) : State := s.wr a (satWordN (s.nat a + n))

/-- Add 1 to a counter, which saturates at 0xFFFF_FFFF (R481). -/
def State.count (s : State) (a : Nat) : State := s.countN a 1

/-- Fold an operation over a list, from its first element on. -/
def State.forEach {α : Type} (s : State) (l : List α) (f : State → α → State) : State := l.foldl f s

/-- Apply an operation when a condition holds. -/
def State.onlyIf (s : State) (c : Bool) (f : State → State) : State := if c then f s else s

/-! ## Time -/

/-- The absolute tick number: LAP_COUNT × 4,096 + tick (R42). -/
def State.now (s : State) : Nat := s.lap.count * 4096 + s.lap.tick

/-- The length of the last lap in ns, the FREE period before the first. -/
def State.lastLap (s : State) : Nat := let p := s.fld Reg.LAP_PERIOD 0 25; if p = 0 then s.lap.freePeriod else p

/-- The instant of the present tick, ns of the module's oscillator since reset release. -/
def State.oscNs (s : State) : Nat := s.tscNs + s.lap.tick * s.lastLap / 4096

/-- An instant, in ns of the oscillator, lies before the end of the present tick: what is timed to it may take place. -/
def State.reached (s : State) (t : Nat) : Bool := t ≤ s.oscNs + s.lastLap / 4096

/-- An image runs: IMG_RUN.VALID. -/
def State.imgRuns (s : State) : Bool := s.bit Reg.IMG_RUN 1

/-- A power failure has been detected and the shutdown runs (R502). -/
def State.pfailed (s : State) : Bool := s.boot.phase = .shutdown

/-- A free value: the counter of free values advances by one. -/
def State.nextFree (s : State) : State := { s with free := s.free + 1 }

/-! ## The FAULT_N pin (R484 to R487) -/

/-- Phase START of FAULT_N is over: the start sequence released the pin at H15 (R484, R494). -/
def State.pinReleased (s : State) : Bool := s.boot.phase = .running

/-- The phase of FAULT_N: the first row of Table 1 whose condition holds (R484). -/
def State.faultPhase (s : State) : Nat :=
  if s.pfailed then 4 else if !s.pinReleased then 1 else if s.zid.minLeft > 0 then 2
  else if s.bit Reg.ZID_FAULT_CTRL 0 then 3 else 0

/-- A trigger (R485 to R487): MINW restarts, LATCH sets HOLD, the trigger is recorded and counted. -/
def State.trigger (s : State) (source irqBit : Nat) (isAssert : Bool) : State :=
  let rec_ : Word := BitVec.ofNat 32 (source + irqBit * 2 ^ 8 + isAssert.toNat * 2 ^ 16)
  let s1 := s.onlyIf (s.faultPhase = 0) (fun s => s.wr Reg.ZID_FAULT_FIRST rec_)
  let s2 := (s1.wr Reg.ZID_FAULT_LAST rec_).count Reg.ZID_CNT_FAULT
  let s3 := (s2.setBit Reg.ZID_STAT 0 true).setBit Reg.ZID_IRQ 0 true
  let s4 := s3.onlyIf (s3.bit Reg.ZID_FAULT_CFG 16) (fun s => s.setBit Reg.ZID_FAULT_CTRL 0 true)
  { s4 with zid := { s4.zid with minLeft := s4.fld Reg.ZID_FAULT_CFG 0 12, trigAt := s.oscNs } }

/-- An event sets its bit of an IRQ register (R479) and, when the bit is enabled and the block's SOURCE is enabled in
ZID_FAULT_SRC, is a trigger of FAULT_N, whether or not the bit was already set. -/
def State.irqAt (s : State) (irqReg enReg source i : Nat) : State :=
  let s1 := s.setBit irqReg i true
  s1.onlyIf (s1.bit enReg i && s1.bit Reg.ZID_FAULT_SRC source) (fun s => s.trigger source i false)

/-- Interrupt bits of the blocks: IRQ register, enable register and SOURCE number of each
(SOURCE numbers: R465 of spec/20_spoor.md). -/
def State.irqImg (s : State) (i : Nat) : State := s.irqAt Reg.IMG_IRQ Reg.IMG_IRQ_EN 0x01 i
def State.irqLap (s : State) (i : Nat) : State := s.irqAt Reg.LAP_IRQ Reg.LAP_IRQ_EN 0x02 i
def State.irqSett (s : State) (i : Nat) : State := s.irqAt Reg.SETT_IRQ Reg.SETT_IRQ_EN 0x03 i
def State.irqDsp (s : State) (i : Nat) : State := s.irqAt Reg.DSP_IRQ Reg.DSP_IRQ_EN 0x04 i
def State.irqRes (s : State) (i : Nat) : State := s.irqAt Reg.DSP_RES_IRQ Reg.DSP_RES_IRQ_EN 0x04 i
def State.irqSlv (s : State) (i : Nat) : State := s.irqAt Reg.SLV_IRQ Reg.SLV_IRQ_EN 0x05 i
def State.irqFab (s : State) (i : Nat) : State := s.irqAt Reg.FAB_IRQ Reg.FAB_IRQ_EN 0x06 i
def State.irqLoop (s : State) (i : Nat) : State := s.irqAt Reg.LOOP_IRQ Reg.LOOP_IRQ_EN 0x07 i
def State.irqFbp (s : State) (i : Nat) : State := s.irqAt Reg.FBP_IRQ Reg.FBP_IRQ_EN 0x08 i
def State.irqAin (s : State) (i : Nat) : State := s.irqAt Reg.AIN_IRQ Reg.AIN_IRQ_EN 0x09 i
def State.irqAout (s : State) (i : Nat) : State := s.irqAt Reg.AOUT_IRQ Reg.AOUT_IRQ_EN 0x0A i
def State.irqDio (s : State) (i : Nat) : State := s.irqAt Reg.DIO_IRQ Reg.DIO_IRQ_EN 0x0B i
def State.irqMtr (s : State) (i : Nat) : State := s.irqAt Reg.MTR_IRQ Reg.MTR_IRQ_EN 0x0C i
def State.irqCan (s : State) (ch i : Nat) : State := s.irqAt (Reg.CAN_IRQ ch) (Reg.CAN_IRQ_EN ch) (0x0D + ch) i
def State.irqEth (s : State) (i : Nat) : State := s.irqAt Reg.ETH_IRQ Reg.ETH_IRQ_EN 0x11 i
def State.irqPtp (s : State) (i : Nat) : State := s.irqAt Reg.PTP_IRQ Reg.PTP_IRQ_EN 0x12 i
def State.irqHwp (s : State) (i : Nat) : State := s.irqAt Reg.HWP_IRQ Reg.HWP_IRQ_EN 0x13 i
def State.irqPair (s : State) (i : Nat) : State := s.irqAt Reg.PAIR_IRQ Reg.PAIR_IRQ_EN 0x14 i
def State.irqKey (s : State) (i : Nat) : State := s.irqAt Reg.KEY_IRQ Reg.KEY_IRQ_EN 0x15 i
def State.irqNvs (s : State) (i : Nat) : State := s.irqAt Reg.NVS_IRQ Reg.NVS_IRQ_EN 0x16 i
def State.irqRtc (s : State) (i : Nat) : State := s.irqAt Reg.RTC_IRQ Reg.RTC_IRQ_EN 0x17 i
def State.irqSpr (s : State) (i : Nat) : State := s.irqAt Reg.SPR_IRQ Reg.SPR_IRQ_EN 0x18 i
def State.irqBoot (s : State) (i : Nat) : State := s.irqAt Reg.BOOT_IRQ Reg.BOOT_IRQ_EN 0x19 i
def State.irqPwr (s : State) (i : Nat) : State := s.irqAt Reg.PWR_IRQ Reg.PWR_IRQ_EN 0x1A i

/-! ## Fault injection (R482, R483) -/

/-- An INJ bit's test has run: the bit clears, and ZID_CNT_INJ counts it when it was set (R483). -/
def State.injRan (s : State) (injReg i : Nat) : State :=
  if s.bit injReg i then (s.setBit injReg i false).count Reg.ZID_CNT_INJ else s

/-- The result of a test under its INJ bit: inverted while the bit is set. -/
def State.injTest (s : State) (injReg i : Nat) (b : Bool) : Bool := b != s.bit injReg i

/-! ## Answers and frames -/

/-- The newest readable epoch, 0 while no sett of the present start is readable (R82). -/
def State.readableEpoch (s : State) : Nat := ((s.sett.held.head?).map (·.epoch)).getD 0

/-- Record the answer of a host window access. -/
def State.answerWith (s : State) (st : Status) (info : Word) (data : List Word) (epoch : Nat) : State :=
  { s with answer := ⟨st, info, data, epoch⟩ }

/-- Begin a command that sends frames: the frames of the last sending command are forgotten. -/
def State.clearSent (s : State) : State := { s with sent := [] }

/-! ## Charges (R52) -/

/-- The classes of the pacer, in the order of spec/02_laps_budgets_batons.md. -/
def classFbp : Nat := 0
def classLoop : Nat := 1
def classSlv : Nat := 2
def classMtr : Nat := 3
def classAin : Nat := 4
def classNet : Nat := 5
def classCan : Nat := 6
def classHwp : Nat := 7
def classNvs : Nat := 8
def classSpr : Nat := 9
def classSelf : Nat := 10
def classPair : Nat := 11

/-- The resources of the pacer (Table 3 of spec/02_laps_budgets_batons.md). -/
def resCore : Nat := 0
def resFab : Nat := 1
def resNvw : Nat := 2
def resDram : Nat := 3

/-- The module charges `n` charge units to class `c` on resource `r` (R52). A use above the largest single charge is a row
of single charges. NVW is not metered after a power failure is detected (R61). -/
def State.charge (s : State) (c r n : Nat) : State :=
  if r = 2 && s.pfailed then s else { s with used := s.used.set (4 * c + r) (s.used.getD (4 * c + r) 0 + n) }

/-- The started blocks of 64 bytes of `n` bytes. -/
def blocks64 (n : Nat) : Nat := (n + 63) / 64

/-- What the sending of a frame charges: the class, FAB blocks, DRAM blocks (R341, R352, R384, R391, R398, R421). -/
def Frame.cost (f : Frame) : Nat × Nat × Nat :=
  let b := blocks64 f.payload.length
  match f.kind with
  | .response => (classHwp, b, b)
  | .setpoint => (classNet, 1, 1)
  | .delayReq | .challenge => (classNet, 1, 0)
  | .heartbeat | .grant => (classPair, 1, 0)
  | .mirror => (classPair, b, b)
  | .arpRequest | .arpReply | .echoReply | .mirrorAck | .canFrame | .dispatchState | .syncLost => (classNet, 0, 0)

/-- Send a frame. -/
def State.send (s : State) (f : Frame) : State :=
  let c := f.cost
  (({ s with sent := s.sent ++ [f] }).charge c.1 resFab c.2.1).charge c.1 resDram c.2.2

/-! ## Rounding left open -/

/-- An exact value as an integer: itself, or one of its two neighbours, which of them being free. -/
def State.roundOpen (s : State) (q : Rat) : Int × State :=
  if q.den = 1 then (q.num, s) else (q.floor + ((Config.free s.free).getLsbD 0).toNat, s.nextFree)

/-- The square root of an exact value as a natural number, rounded in a direction left open. -/
def State.sqrtOpen (s : State) (q : Rat) : Nat × State :=
  let f := Nat.sqrt q.floor.toNat
  if ((f * f : Nat) : Rat) = q then (f, s) else (f + ((Config.free s.free).getLsbD 0).toNat, s.nextFree)

/-- A free value of `n` bits. -/
def State.freeBits (s : State) (n : Nat) : Nat × State := ((Config.free s.free).toNat % 2 ^ n, s.nextFree)

/-! ## Associations (sparse lists of structured entries) -/

/-- The entry of a number, else the default. -/
def assocGet {α : Type} (d : α) : List (Nat × α) → Nat → α
  | [], _ => d
  | (a, v) :: t, k => if a = k then v else assocGet d t k

/-- Put an entry, keeping the numbers in order. -/
def assocPut {α : Type} : List (Nat × α) → Nat → α → List (Nat × α)
  | [], k, v => [(k, v)]
  | (a, x) :: t, k, v =>
    if k < a then (k, v) :: (a, x) :: t else if a = k then (k, v) :: t else (a, x) :: assocPut t k v

/-- Remove an entry. -/
def assocDel {α : Type} (l : List (Nat × α)) (k : Nat) : List (Nat × α) := l.filter (fun e => e.1 != k)

/-- Whether an entry is listed. -/
def assocHas {α : Type} (l : List (Nat × α)) (k : Nat) : Bool := l.any (fun e => e.1 == k)

/-- Entry `i` of a list of numbers, 0 past its end. -/
def listGet (l : List Nat) (i : Nat) : Nat := l.getD i 0

/-- The answer of a meaning: a command that arrives while the module is off has no effect; otherwise the next state, in
which only the frames that this command sent stand in `sent`. -/
def State.act (s : State) (f : State → State) : Host.Outcome State Fault Refusal :=
  .next (if s.boot.phase = .off then s else f s.clearSent)

/-- The epoch that the next commit takes: one above the last, or the one a start or a switchover set (R71). -/
def State.nextEpoch (s : State) : Nat := s.sett.jumpTo.getD (s.sett.epoch + 1)

end Sys2Proof.Machine
end

