-- ==== Sys2Proof/Machine/NvCells.lean ====
section
/-!
DEFINITION. Machine/NvCells.lean: page programs with their read-back (R427), the SRAM warm region and its dirty pages
(R433), and the tally counters with their increment cells and base copies (R438 to R443 of
spec/18_nonvolatile_store.md).
-/

namespace Sys2Proof.Machine

/-! ## Page programs -/

/-- The read-back of a page program after NVS_INJ.PAGECHK: first the program and its read-back, and on a mismatch one
program more (R427). Answers whether the page was verified. NVS_CNT_PAGE counts the programs, each of which charges the
writing class `c` 24 ticks of NVW (R426). -/
def State.nvPage (s : State) (c : Nat) (rb : ReadBack) : State × Bool :=
  let ok1 := s.injTest Reg.NVS_INJ 0 rb.first
  let s1 := ((s.count Reg.NVS_CNT_PAGE).injRan Reg.NVS_INJ 0).charge c resNvw 24
  if ok1 then (s1, true)
  else
    let s2 := (s1.count Reg.NVS_CNT_PAGE).charge c resNvw 24
    if rb.second then (s2, true)
    else (((s2.setBit Reg.NVS_STAT 1 true).count Reg.NVS_CNT_VERIFY).irqNvs 1, false)

/-- An internal writer's write has failed: it is repeated at the next lap (R427). -/
def State.nvFails (s : State) (w : Nat) : State := { s with nv := { s.nv with failed := w :: s.nv.failed } }

/-- A writer may write: its write has not failed in the present lap. -/
def State.nvMay (s : State) (w : Nat) : Bool := !s.nv.failed.contains w

/-- CRC-32C over the `n` bytes of a table from key `k` on; bytes not listed are `d`. -/
def crcWalk (d : Byte) : Word → Tab 8 → Nat → Nat → Word
  | c, _, _, 0 => c ^^^ 0xFFFFFFFF#32
  | c, [], k, n + 1 => crcWalk d (crcByte 0x82F63B78#32 c d) [] (k + 1) n
  | c, (a, v) :: t, k, n + 1 =>
    if a = k then crcWalk d (crcByte 0x82F63B78#32 c v) t (k + 1) n
    else crcWalk d (crcByte 0x82F63B78#32 c d) ((a, v) :: t) (k + 1) n

/-! ## The SRAM warm region (R433) -/

/-- Mark the 256-byte pages of `n` bytes from warm offset `o` on as dirty. -/
def markDirty (dirty : List Nat) (o n : Nat) : List Nat :=
  (List.range ((o + n - 1) / 256 + 1 - o / 256)).foldl
    (fun d i => if d.contains (o / 256 + i) then d else d ++ [o / 256 + i]) dirty

/-- On an ACTIVE module a write of the warm region is an NV record of the next mirror unit (R398). -/
def State.nvRecord (s : State) (span : Nat × Nat) : State :=
  if s.fld Reg.PAIR_STATE 0 3 = 4 && !s.pair.recWarm.contains span then
    { s with pair := { s.pair with recWarm := s.pair.recWarm ++ [span] } }
  else s

/-- Write bytes into the SRAM warm region and mark their pages dirty. A frozen SRAM takes no write (R436). -/
def State.sramPut (s : State) (o : Nat) (bytes : List Byte) : State :=
  if s.bit Reg.NVS_WARM 2 || bytes.isEmpty then s
  else
    let nv := { s.nv with sram := tabSetList 0#8 s.nv.sram o bytes, dirty := markDirty s.nv.dirty o bytes.length }
    ({ s with nv := nv }).nvRecord (o, bytes.length)

/-- Bytes of the SRAM warm region. -/
def State.sramGet (s : State) (o n : Nat) : List Byte := bytesAt (tabGet 0#8 s.nv.sram) o n

/-! ## Tallies -/

/-- The delivered state of tally `t` (R539): V₀ is 2 for tally 2 and 0 for every other. -/
def deliveredTally (t : Nat) : Tally :=
  let v : Word := if t = 2 then 2#32 else 0#32
  let base : TallyBase := ⟨v, v >>> 4⟩
  ⟨(List.range 16).map (fun c => if c = v.toNat % 16 then some v else none), some base, some base, v⟩

/-- Tally `t`. -/
def State.tally (s : State) (t : Nat) : Tally := assocGet (deliveredTally t) s.nv.tallies t

/-- Keep tally `t`; a tally in its delivered state is not listed. -/
def State.putTally (s : State) (t : Nat) (x : Tally) : State :=
  let l := if x == deliveredTally t then assocDel s.nv.tallies t else assocPut s.nv.tallies t x
  { s with nv := { s.nv with tallies := l } }

/-- The value V of tally `t`. -/
def State.tallyV (s : State) (t : Nat) : Word := (s.tally t).v

/-- A cell write with its read-back (R440): on a mismatch the cell is written once more. Answers whether it was verified
and whether the cell holds what was written. Each write charges 2 ticks of NVW to the user's class: SELF for the module's
tallies 0 to 15, NVS for the others. -/
def State.nvCell (s : State) (t : Nat) (rb : ReadBack) : State × Bool × Bool :=
  let c := if t < 16 then classSelf else classNvs
  let ok1 := s.injTest Reg.NVS_INJ 1 rb.first
  let s1 := (s.injRan Reg.NVS_INJ 1).charge c resNvw 2
  if ok1 then (s1, true, rb.first)
  else
    let s2 := s1.charge c resNvw 2
    if rb.second then (s2, true, true)
    else (((s2.setBit Reg.NVS_STAT 1 true).count Reg.NVS_CNT_VERIFY).irqNvs 1, false, false)

/-- The highest FOLD among the valid base copies. -/
def Tally.fold (x : Tally) : Option Nat :=
  match x.baseA, x.baseB with
  | some a, some b => some (max a.fold.toNat b.fold.toNat)
  | some a, none => some a.fold.toNat
  | none, some b => some b.fold.toNat
  | none, none => none

/-- Whether the base copy that a fold writes is copy B (R441): an invalid copy first; of two valid copies the one with
the lower FOLD, or at equal FOLD the one that the tie rule of R442 did not take. -/
def Tally.foldsIntoB (x : Tally) : Bool :=
  match x.baseA, x.baseB with
  | none, _ => false
  | some _, none => true
  | some a, some b =>
    if a.fold = b.fold then !(a.value.toNat < b.value.toNat) else b.fold.toNat < a.fold.toNat

/-- A fold is due: ⌊V / 16⌋ is above the highest FOLD of the valid copies (R441). -/
def Tally.foldDue (x : Tally) : Bool := match x.fold with
  | some f => f < x.v.toNat / 16
  | none => true

/-- Write a base copy with VALUE V and FOLD ⌊V / 16⌋ and verify it (R441). -/
def State.foldTally (s : State) (t : Nat) (rb : ReadBack) : State :=
  let x := s.tally t
  let r := s.nvCell t rb
  let copy : Option TallyBase := if r.2.2 then some ⟨x.v, x.v >>> 4⟩ else none
  r.1.putTally t (if x.foldsIntoB then { x with baseB := copy } else { x with baseA := copy })

/-- Write N as the increment cell N mod 16 of tally `t` and verify it; V becomes N, and a due fold follows (R440,
R441). Answers whether the cell was verified. -/
def State.writeTallyCell (s : State) (t : Nat) (n : Word) (rb fold : ReadBack) : State × Bool :=
  let r := s.nvCell t rb
  let x := s.tally t
  let cells := x.cells.set (n.toNat % 16) (if r.2.2 then some n else none)
  if r.2.1 then
    let s1 := r.1.putTally t { x with cells := cells, v := n }
    (s1.onlyIf (s1.tally t).foldDue (fun s => s.foldTally t fold), true)
  else (r.1.putTally t { x with cells := cells }, false)

/-- Good read-backs. -/
def goodRb : ReadBack := ⟨true, true⟩

/-- Raise tally `t` by one increment whose writes verify (R440). -/
def State.raiseTally (s : State) (t : Nat) : State :=
  if s.tallyV t = 0xFFFFFFFF#32 then s else (s.writeTallyCell t (s.tallyV t + 1) goodRb goodRb).1

end Sys2Proof.Machine
end

