-- ==== Sys2Proof/Machine/SpoorOps.lean ====
section
/-!
DEFINITION. Machine/SpoorOps.lean: the spoor recorder of spec/20_spoor.md: the record's layout (R465 to R467), taking
an event (R468 to R471, R478), programming a page of records (R470), and the start scan (R473).
-/

namespace Sys2Proof.Machine

/-! ## Records -/

/-- The 32 bytes of a record (R465); `bad` complements its CRC (SPR_INJ.CRCWR). -/
def SpoorRec.bytes (r : SpoorRec) : List Byte :=
  let b := leBytes 2 r.code ++ leBytes 1 (r.code / 256) ++ leBytes 1 r.sev ++ leBytes 4 r.opsec.toNat
    ++ leBytes 3 r.boot ++ leBytes 3 r.seq ++ leBytes 2 r.rep ++ (r.data ++ List.replicate 12 0#8).take 12
  b ++ leBytes 4 (if r.bad then ~~~ (crc32 b) else crc32 b).toNat

/-- The 32 bytes of ring slot `i`. -/
def slotBytes (ring : Tab 8) (i : Nat) : List Byte := bytesAt (tabGet 0xFF#8 ring) (32 * i) 32

/-- A record is valid when its CRC matches and CODE bits 15:8 equal SOURCE (R466). -/
def recValid (b : List Byte) : Bool :=
  leNat (b.drop 28) = (crc32 (b.take 28)).toNat && (b.getD 1 0#8 = b.getD 2 0#8)

/-- The record that 32 valid bytes hold. -/
def recOf (b : List Byte) : SpoorRec :=
  let at_ (o n : Nat) := leNat ((b.drop o).take n)
  ⟨at_ 0 2, at_ 3 1, BitVec.ofNat 32 (at_ 4 4), at_ 8 3, at_ 11 3, at_ 14 2, (b.drop 16).take 12, false⟩

/-! ## Taking an event -/

/-- Events raised and not yet written (R468). -/
def State.spoorWaiting (s : State) : Nat := s.spr.early.length + s.spr.queue.length

/-- The power-cycle count, bits 23:0 of tally 3 (R439, R465). -/
def State.bootCount (s : State) : Nat := (s.tallyV 3).toNat % 2 ^ 24

/-- Append an event as the next record: SEQ one above the newest, modulo 2^24 (R468 step 3). -/
def State.appendRec (s : State) (code sev : Nat) (data : List Byte) (opsec : Word) : State :=
  let seq := match s.spr.newest with
    | some r => (r.seq + 1) % 2 ^ 24
    | none => 0
  let r : SpoorRec := ⟨code, sev, opsec, s.bootCount, seq, 0, (data ++ List.replicate 12 0#8).take 12,
    s.bit Reg.SPR_INJ 0 && !(s.spr.queue.any (·.bad))⟩
  let s1 := { s with spr := { s.spr with queue := s.spr.queue ++ [r], newest := some r } }
  (s1.count Reg.SPR_CNT_REC).onlyIf (s.fld Reg.SPR_CTRL 0 3 ≤ sev) (fun s => s.irqSpr 1)

/-- The entries of SPR_RATE that limit a code while SPR_CTRL.RATEEN is 1 (R471). -/
def State.rateEntries (s : State) (code : Nat) : List Nat :=
  if s.bit Reg.SPR_CTRL 8 then
    (List.range 16).filter (fun i => s.fld (Reg.SPR_RATE_i i) 16 8 != 0 && s.fld (Reg.SPR_RATE_i i) 0 16 == code)
  else []

/-- The open window of an entry. -/
def State.rateWin (s : State) (i : Nat) : Option RateWin := s.spr.windows.find? (fun w => w.entry == i)

/-- Keep the window of its entry. -/
def State.putRateWin (s : State) (w : RateWin) : State :=
  { s with spr := { s.spr with windows := w :: s.spr.windows.filter (fun x => x.entry != w.entry) } }

/-- The open window of entry `i` is full: MAX records of its code were appended in it (R471). -/
def State.rateFull (s : State) (i : Nat) : Bool := match s.rateWin i with
  | some w => s.fld (Reg.SPR_RATE_i i) 16 8 ≤ w.appended
  | none => false

/-- Count one appended record in the window of entry `i`, opening it when none is open. -/
def State.rateAppended (s : State) (i : Nat) : State := match s.rateWin i with
  | some w => s.putRateWin { w with appended := w.appended + 1 }
  | none => s.putRateWin ⟨i, s.rd Reg.SPR_OPSEC, 1, 0⟩

/-- Count one suppressed occurrence in the window of entry `i`. -/
def State.rateSuppressed (s : State) (i : Nat) : State := match s.rateWin i with
  | some w => s.putRateWin { w with suppressed := w.suppressed + 1 }
  | none => s

/-- An event merges into the newest record (R469). -/
def State.merges (s : State) (code sev : Nat) (data : List Byte) (opsec : Word) : Bool := match s.spr.newest with
  | none => false
  | some r => r.code == code && r.sev == sev && r.data == (data ++ List.replicate 12 0#8).take 12
    && r.boot == s.bootCount && r.rep < 0xFFFF && s.fld Reg.SPR_MERGE 0 16 != 0
    && (opsec - r.opsec).toNat ≤ s.fld Reg.SPR_MERGE 0 16

/-- Merge an occurrence into the newest record (R469); a record already written is due for reprogramming (R470). -/
def State.mergeRec (s : State) (opsec : Word) : State := match s.spr.newest with
  | none => s
  | some r =>
    let r' := { r with rep := r.rep + 1 }
    let queued := s.spr.queue.any (fun x => x.seq == r.seq)
    let spr := if queued then
        { s.spr with newest := some r', queue := s.spr.queue.map (fun x => if x.seq == r.seq then r' else x) }
      else
        { s.spr with newest := some r', changed := r' :: s.spr.changed.filter (fun x => x.seq != r.seq) }
    (({ s with spr := spr }).setFld Reg.SPR_HEADREP 16 16 opsec.toNat).count Reg.SPR_CNT_MERGE

/-- The steps of R468 for one event: merge, suppress, or append. -/
def State.takeEvent (s : State) (code sev : Nat) (data : List Byte) (opsec : Word) : State :=
  if s.merges code sev data opsec then s.mergeRec opsec
  else match (s.rateEntries code).filter (fun i => s.rateFull i) with
    | i :: _ => ((s.rateSuppressed i).count Reg.SPR_CNT_SUPPRESS).setBit Reg.SPR_STAT 3 true
    | [] => (s.forEach (s.rateEntries code) State.rateAppended).appendRec code sev data opsec

/-- Append SPR_QOVR when events were dropped and no event waits (R468). -/
def State.appendQovr (s : State) : State :=
  if s.spr.ready && s.spoorWaiting == 0 && s.spr.dropped != 0 then
    ({ s with spr := { s.spr with dropped := 0 } }).appendRec 0x1803 3 (leBytes 4 s.spr.dropped) (s.rd Reg.SPR_OPSEC)
  else s

/-- A block hands an event to the spoor (R468): dropped while 64 events wait (SPR_INJ.QFULL inverts that test), held
until the start scan has ended (R473), else taken. After step 3 of R474 has begun it is not recorded. -/
def State.raiseEv (s : State) (code sev : Nat) (data : List Byte) : State :=
  if s.spr.closed then s
  else
    let full := s.injTest Reg.SPR_INJ 1 (64 ≤ s.spoorWaiting)
    let s1 := s.injRan Reg.SPR_INJ 1
    if full then
      let s2 := { s1 with spr := { s1.spr with dropped := s1.spr.dropped + 1 } }
      (((s2.count Reg.SPR_CNT_QOVR).setBit Reg.SPR_STAT 2 true).irqSpr 2).appendQovr
    else if s1.spr.ready then s1.takeEvent code sev data (s1.rd Reg.SPR_OPSEC)
    else { s1 with spr := { s1.spr with early := s1.spr.early ++ [⟨code, sev, data, s1.nat Reg.SPR_OPSEC⟩] } }

/-- WIN s of operating time have passed since the window opened (R471). -/
def State.rateOver (s : State) (w : RateWin) : Bool :=
  s.fld (Reg.SPR_RATE_i w.entry) 24 8 ≤ (s.rd Reg.SPR_OPSEC - w.openAt).toNat

/-- The window of an entry ends (R471): one record SPR_RATESUM when occurrences were suppressed in it. -/
def State.rateWindowEnd (s : State) (i : Nat) : State := match s.rateWin i with
  | none => s
  | some w =>
    if !s.rateOver w then s else
    let s1 := { s with spr := { s.spr with windows := s.spr.windows.filter (fun x => x.entry != i) } }
    let data := leBytes 2 (s.fld (Reg.SPR_RATE_i i) 0 16) ++ [0#8, 0#8] ++ leBytes 4 w.suppressed
    s1.onlyIf (0 < w.suppressed && !s.spr.closed) (fun t => t.appendRec 0x1804 2 data (t.rd Reg.SPR_OPSEC))

/-! ## Programming -/

/-- Put a record's bytes into its slot (R467), keep SPR_VALID, and after the first program of a record SPR_HEAD. -/
def State.storeRec (s : State) (r : SpoorRec) (first : Bool) : State :=
  let slot := r.seq % 65536
  let was := recValid (slotBytes s.nv.ring slot)
  let ring := tabSetList 0xFF#8 s.nv.ring (32 * slot) r.bytes
  let now := recValid (slotBytes ring slot)
  let s1 := { s with nv := { s.nv with ring := ring } }
  let s2 := s1.wr Reg.SPR_VALID (BitVec.ofNat 32 (s.nat Reg.SPR_VALID + now.toNat - was.toNat))
  let s3 := s2.onlyIf first (fun s => s.wr Reg.SPR_HEAD (BitVec.ofNat 32 r.seq))
  let s4 := s3.setBit Reg.SPR_HEAD 31 (s3.rd Reg.SPR_VALID = 0#32)
  let s5 := s4.onlyIf (first && r.bad) (fun s => s.injRan Reg.SPR_INJ 0)
  s5.irqSpr 0

/-- The queued records that the next page program takes: those of the first one's page, in order of SEQ (R470). -/
def pageOfQueue : List SpoorRec → List SpoorRec
  | [] => []
  | r :: t => r :: t.takeWhile (fun x => x.seq % 65536 / 8 == r.seq % 65536 / 8)

/-- Program the next page of queued records; a program that failed is repeated at the next lap (R427, R470). -/
def State.programQueue (s : State) (rb : ReadBack) : State :=
  if s.spr.queue.isEmpty || !s.nvMay 2 then s
  else
    let page := pageOfQueue s.spr.queue
    let r := s.nvPage classSpr rb
    if r.2 then
      let s1 := { r.1 with spr := { r.1.spr with queue := r.1.spr.queue.drop page.length } }
      (s1.forEach page (fun s x => s.storeRec x true)).appendQovr
    else r.1.nvFails 2

/-- Reprogram a written record whose REPEAT has changed (R470), in the same way. -/
def State.programDue (s : State) (rb : ReadBack) : State := match s.spr.due with
  | [] => s
  | x :: t =>
    if !s.nvMay 2 then s
    else
      let r := s.nvPage classSpr rb
      if r.2 then ({ r.1 with spr := { r.1.spr with due := t } }).storeRec { x with bad := false } false else r.1.nvFails 2

/-- At a lap boundary the changed records become due for reprogramming (R470). -/
def State.spoorLap (s : State) : State :=
  let old := s.spr.due.filter (fun x => !(s.spr.changed.any (fun y => y.seq == x.seq)))
  { s with spr := { s.spr with due := s.spr.changed ++ old, changed := [] } }

/-! ## The start scan (R473) -/

/-- The slots of the ring that some listed byte lies in. -/
def ringSlots (ring : Tab 8) : List Nat := (ring.map (fun e => e.1 / 32)).eraseDups

/-- The SEQ numbers of the valid records. -/
def ringSeqs (ring : Tab 8) : List (Nat × Nat) :=
  (ringSlots ring).filterMap (fun i =>
    if recValid (slotBytes ring i) then some (i, (recOf (slotBytes ring i)).seq) else none)

/-- The comparison of R343 on `n`-bit sequence numbers: `a` is newer than `b`. -/
def newerSeq (n a b : Nat) : Bool :=
  let d := (a + 2 ^ n - b % 2 ^ n) % 2 ^ n
  d != 0 && d < 2 ^ (n - 1)

/-- The candidates for the newest record: a valid record whose following slot does not hold the next SEQ. -/
def ringCandidates (ring : Tab 8) : List Nat :=
  let l := ringSeqs ring
  (l.filter (fun e => !(l.contains ((e.2 + 1) % 65536, (e.2 + 1) % 2 ^ 24)))).map (·.2)

/-- The newest of the candidates. -/
def newestOf : List Nat → Option Nat
  | [] => none
  | q :: t => some (t.foldl (fun b x => if newerSeq 24 x b then x else b) q)

/-- The slots that are neither valid nor empty. -/
def ringBad (ring : Tab 8) : Nat := ((ringSlots ring).filter (fun i => !(recValid (slotBytes ring i)))).length

/-- Warm offset at which the model keeps SPR_OPSEC in the module's part of the warm region (R472). -/
def opsecWarm : Nat := 0xFF00

/-- The start scan ends (R473): the newest record is known, SPR_OPSEC takes its start value (R472), SPR_START is
appended, and the events that waited follow. -/
def State.scanDone (s : State) : State :=
  if s.spr.ready then s
  else
    let ring := s.nv.ring
    let cands := ringCandidates ring
    let newest := (newestOf cands).map (fun q => recOf (slotBytes ring (q % 65536)))
    let bad := ringBad ring
    let stored := if s.bit Reg.NVS_WARM 0 then leNat (s.sramGet opsecWarm 4) else 0
    let base := max stored ((newest.map (fun r => r.opsec.toNat)).getD 0)
    let s1 := (s.countN Reg.SPR_CNT_CRCBAD bad).onlyIf (bad != 0) (fun s => s.setBit Reg.SPR_STAT 1 true)
    let s2 := s1.onlyIf (1 < cands.length) (fun s => s.setBit Reg.SPR_STAT 0 true)
    let s3 := s2.wr Reg.SPR_VALID (BitVec.ofNat 32 (ringSeqs ring).length)
    let s4 := s3.wr Reg.SPR_HEAD (match newest with
      | some r => BitVec.ofNat 32 r.seq
      | none => 0x80000000#32)
    let s5 := s4.wr Reg.SPR_OPSEC (BitVec.ofNat 32 (base + s.nat Reg.SPR_OPSEC))
    let early := s.spr.early
    let s6 := { s5 with spr := { s5.spr with ready := true, newest := newest, early := [] } }
    let s7 := s6.appendRec 0x1801 1 (leBytes 4 (s.bit Reg.NVS_WARM 0).toNat ++ leBytes 4 bad) (s6.rd Reg.SPR_OPSEC)
    s7.forEach early (fun s e => s.takeEvent e.code e.sev e.data (BitVec.ofNat 32 (base + e.opsec)))

/-- One second of operation with the main supply present (R472); the warm region keeps the count. -/
def State.opsecTick (s : State) : State :=
  let n := s.rd Reg.SPR_OPSEC + 1
  (s.wr Reg.SPR_OPSEC n).sramPut opsecWarm (leBytes 4 n.toNat)

end Sys2Proof.Machine
end

