-- ==== Sys2Proof/Machine/KeyOps.lean ====
section
/-!
DEFINITION. Machine/KeyOps.lean: the key slots of spec/17_keys.md: types and engines (R409 to R411), the slot
registers (R412), the judgement of a key-update message (R414 to R417) and its steps (R418 to R420).
-/

namespace Sys2Proof.Machine

/-- An empty slot, both of whose copies are valid. -/
def emptySlot : KeySlot := ⟨some ⟨0#32, none⟩, some ⟨0#32, none⟩, ⟨0#32, none⟩⟩

/-- Slot `k`. -/
def State.keySlot (s : State) (k : Nat) : KeySlot := assocGet emptySlot s.key.slots k

/-- Keep slot `k`; a slot in its delivered empty state is not listed. -/
def State.putKeySlot (s : State) (k : Nat) (x : KeySlot) : State :=
  let l := if x == emptySlot then assocDel s.key.slots k else assocPut s.key.slots k x
  { s with key := { s.key with slots := l } }

/-- Engines of Table 2, by their mask bit. -/
def engHwp : Nat := 0
def engTel : Nat := 1
def engPair : Nat := 2
def engNvs : Nat := 3
def engChal : Nat := 4
def engUpdate : Nat := 5
def engImg : Nat := 6

/-- The types an engine accepts (Table 2). -/
def engineTakes (engine kind : Nat) : Bool := match engine with
  | 3 => kind == 2
  | 5 => kind == 3
  | 6 => kind == 4
  | _ => kind == 1 || kind == 2

/-- A key meets R411 for an engine. -/
def Key.usable (k : Key) (engine : Nat) : Bool := engineTakes engine k.kind && k.mask.testBit engine

/-- The material that an engine uses from slot `k`; none when the slot is as though empty (R411). -/
def State.engineKey (s : State) (engine k : Nat) : Option (List Byte) :=
  if k < 32 then
    match (s.keySlot k).inForce.key with
    | some key => if key.usable engine then some key.material else none
    | none => none
  else none

/-- Bytes of material of each type (Table 1). -/
def keyLength : Nat → Nat
  | 1 => 16 | 2 => 32 | 3 => 32 | 4 => 64 | _ => 0

/-- KEY_SLOT_k_INFO: TYPE and MASK of the key in force. -/
def State.keyInfo (s : State) (k : Nat) : Word := match (s.keySlot k).inForce.key with
  | some key => BitVec.ofNat 32 (key.kind + key.mask * 2 ^ 8)
  | none => 0#32

/-- KEY_SLOT_k_CHECK (R412). -/
def State.keyCheck (s : State) (k : Nat) : Word := match (s.keySlot k).inForce.key with
  | none => 0#32
  | some key =>
    let b := if key.kind = 3 then hmac256 key.material [] else if key.kind = 4 then sha256 key.material
      else cmac key.material []
    BitVec.ofNat 32 (leNat (b.take 4))

/-- The 16 bytes of the UID, byte 0 first. -/
def uidBytes : List Byte := leBytes 16 Config.uid.toNat

/-- The 128 bytes of the update buffer. -/
def State.updBuffer (s : State) : List Byte := bytesOfWords ((List.range 32).map (fun w => s.rd (Reg.KEY_UPD_BUF_w w)))

/-- Zero the update buffer. -/
def State.clearUpdBuffer (s : State) : State :=
  s.forEach (List.range 32) (fun t w => t.wr (Reg.KEY_UPD_BUF_w w) 0#32)

/-- A key-update message is BUSY. -/
def State.keyBusy (s : State) : Bool := s.bit Reg.KEY_UPD_STAT 8

/-- The record that a message sets and the code of the first check that it fails (R417). -/
structure Judged where
  code : Nat
  record : SlotCopy
  deriving DecidableEq, Repr

/-- The decrypted key field of a message under the material of its AUTHSLOT key (R415). -/
def updField (auth msg : List Byte) : List Byte :=
  aesCtr (hmac256 auth (msg.take 0x20)) (List.replicate 16 0#8) ((msg.drop 0x20).take 64)

/-- TYPE, MASK and the decrypted field agree with R409, R410 and R415, and a public key is a point of the curve. -/
def updKeyGood (op kind mask : Nat) (field : List Byte) : Bool :=
  if op = 2 then kind = 0 && mask = 0 && field.all (· == 0#8)
  else
    let mat := field.take (keyLength kind)
    (1 ≤ kind && kind ≤ 4)
      && (List.range 7).all (fun e => !mask.testBit e || engineTakes e kind)
      && (field.drop (keyLength kind)).all (· == 0#8)
      && (kind != 4 || onCurve (beNat (mat.take 32), beNat (mat.drop 32)))

/-- After the update some slot would still meet R411 for UPDATE_VERIFY (check 7). -/
def State.keepsUpdateKey (s : State) (slot : Nat) (key : Option Key) : Bool :=
  (List.range 32).any (fun k =>
    match (if k = slot then key else (s.keySlot k).inForce.key) with
    | some x => x.usable engUpdate
    | none => false)

/-- The judgement of a message in the order of Table 4 (R417); code 0 when every check passes. -/
def State.judgeUpdate (s : State) (msg : List Byte) : Judged :=
  let by_ (i : Nat) : Nat := (msg.getD i 0#8).toNat
  let slot := by_ 5
  let op := by_ 6
  let kind := by_ 7
  let mask := by_ 8 + 256 * by_ 9
  let counter := leNat ((msg.drop 0x0C).take 4)
  let bad (c : Nat) : Judged := ⟨c, ⟨0#32, none⟩⟩
  if leNat (msg.take 4) != 0x554B5A4E || by_ 4 != 1 || !(op == 1 || op == 2) || by_ 0x0B != 0 || 31 < slot
      || 31 < by_ 0x0A || mask / 128 != 0 then bad 0x10
  else if (msg.drop 0x10).take 16 != uidBytes then bad 0x11
  else match s.engineKey engUpdate (by_ 0x0A) with
    | none => bad 0x12
    | some auth =>
      let tagOk := s.injTest Reg.KEY_INJ 0 (hmac256 auth (msg.take 0x60) == msg.drop 0x60)
      let field := updField auth msg
      let key : Option Key := if op = 1 then some ⟨kind, mask, field.take (keyLength kind)⟩ else none
      if !tagOk then bad 0x13
      else if counter != (s.tallyV 2).toNat + 1 then bad 0x14
      else if !updKeyGood op kind mask field then bad 0x15
      else if !s.keepsUpdateKey slot key then bad 0x16
      else ⟨0, ⟨BitVec.ofNat 32 counter, key⟩⟩

/-- Check 4 of the judgement has run, so KEY_INJ.TAGCHK clears (R423). -/
def State.tagChecked (s : State) (code : Nat) : State :=
  if code = 0x10 || code = 0x11 || code = 0x12 then s else s.injRan Reg.KEY_INJ 0

/-- Set KEY_UPD_STAT: CODE and STATE. -/
def State.keyStat (s : State) (code : Nat) (busy : Bool) : State :=
  (s.setFld Reg.KEY_UPD_STAT 0 8 code).setBit Reg.KEY_UPD_STAT 8 busy

/-- KEY_UPD_CTRL.EXEC is accepted: the buffer is copied and zeroed and the message judged (R416, R417); a message that
passes asks for its tally increment (R418). -/
def State.keyExec (s : State) : State :=
  let msg := s.updBuffer
  let slot := (msg.getD 5 0#8).toNat
  let j := s.judgeUpdate msg
  let s1 := ((s.clearUpdBuffer).setFld Reg.KEY_UPD_STAT 16 5 slot).tagChecked j.code
  if j.code = 0 then
    let s2 := s1.keyStat (s.fld Reg.KEY_UPD_STAT 0 8) true
    { s2 with key := { s2.key with job := some ⟨slot, j.record, false, false⟩ },
              nv := { s2.nv with tallyJobs := s2.nv.tallyJobs ++ [(2, false)] } }
  else
    let s2 := ((s1.keyStat j.code false).count Reg.KEY_CNT_UPDREFUSE).setBit Reg.KEY_STAT 0 true
    (s2.irqKey 1).raiseEv 0x1501 3 (leBytes 1 slot ++ leBytes 1 j.code)

/-- The copy of a slot that an update writes: the one with the lower SEQ, an invalid one before it. DESIGN CHOICE: of two with
one SEQ, as at delivery, copy A; R418 names the lower SEQ only (log entry 71). -/
def KeySlot.writesB (x : KeySlot) : Bool := match x.copyA, x.copyB with
  | none, _ => false
  | some _, none => true
  | some a, some b => b.seq.toNat < a.seq.toNat

/-- The read-back of a slot copy under KEY_INJ.COPYCHK (R423). -/
def State.copyRb (s : State) (rb : ReadBack) : ReadBack := ⟨s.injTest Reg.KEY_INJ 1 rb.first, rb.second⟩

/-- U is incremented: the copy may be written. -/
def State.keyCounted (s : State) : State := match s.key.job with
  | some j => { s with key := { s.key with job := some { j with counted := true } } }
  | none => s

/-- Write and verify the copy of the slot record (steps 2 and 3 of R418). -/
def State.keyCopy (s : State) (rb : ReadBack) : State := match s.key.job with
  | none => s
  | some j =>
    if !j.counted || j.written then s
    else
      let rb' := s.copyRb rb
      let r := (s.injRan Reg.KEY_INJ 1).nvPage classSelf rb'
      let x := s.keySlot j.slot
      let landed := if rb'.first then rb.first else rb.second
      let copy := if landed then some j.record else none
      let s1 := r.1.putKeySlot j.slot (if x.writesB then { x with copyB := copy } else { x with copyA := copy })
      if r.2 then { s1 with key := { s1.key with job := some { j with written := true } } }
      else ({ s1 with key := { s1.key with job := none } }.keyStat 0x17 false).setBit Reg.KEY_STAT 1 true

/-- At the first commit after the copy is verified the new key comes into force (R420). -/
def State.keyCommit (s : State) : State := match s.key.job with
  | some j =>
    if j.written then
      let s1 := s.putKeySlot j.slot { s.keySlot j.slot with inForce := j.record }
      let s2 := ({ s1 with key := { s1.key with job := none } }.keyStat 0x01 false).count Reg.KEY_CNT_UPD
      s2.irqKey 0
    else s
  | none => s

/-- The copy that a slot takes at start: the valid one with the higher SEQ, copy A at equal SEQ (R419). -/
def KeySlot.taken (x : KeySlot) : Option SlotCopy := match x.copyA, x.copyB with
  | some a, some b => if a.seq.toNat < b.seq.toNat then some b else some a
  | some a, none => some a
  | none, b => b

/-- A slot is loaded at start (R419). -/
def State.loadSlot (s : State) (k : Nat) : State :=
  let x := s.keySlot k
  match x.taken with
  | some c => s.putKeySlot k { x with inForce := c }
  | none =>
    ((s.putKeySlot k { x with inForce := ⟨0#32, none⟩ }).setBit Reg.KEY_STAT 2 true).raiseEv 0x1502 4 (leBytes 1 k)

/-- H6 loads the key slots (R419). -/
def State.loadKeys (s : State) : State := s.forEach (s.key.slots.map (·.1)) State.loadSlot

/-- The CMAC of a message under the key that an engine finds in a slot. -/
def State.macUnder (s : State) (engine k : Nat) (msg : List Byte) : Option (List Byte) :=
  (s.engineKey engine k).map (fun key => cmac key msg)

end Sys2Proof.Machine
end

