-- ==== Sys2Proof/Machine/LapOps.lean ====
section
/-!
DEFINITION. Machine/LapOps.lean: the operations of spec/02_laps_budgets_batons.md: judging crossings (R535), the choice
of the lap source at a boundary (R43 to R46, R536), the length of a lap (R47), the pacer's charges (R52 to R60), and
the power governor's batons (R62 to R68).
-/

namespace Sys2Proof.Machine

/-- Element `i` of a list replaced. -/
def listSet (l : List Nat) (i v : Nat) : List Nat := l.set i v

/-! ## Crossings and sources -/

/-- A source's judgement after one crossing or missing interval (R535): invalid after 3 bad ones in a row, valid after
16 good ones in a row. -/
def Judge.mark (j : Judge) (good : Bool) : Judge :=
  if good then { j with good := j.good + 1, bad := 0, valid := j.valid || 16 ≤ j.good + 1 }
  else { j with good := 0, bad := j.bad + 1, valid := j.valid && j.bad + 1 < 3 }

/-- A crossing is plausible: at most 2 ms from its predicted instant, frequency from 45 Hz to 65 Hz (R535). -/
def crossingGood (deviation freq : Nat) : Bool := deviation ≤ 2000000 && 45000 ≤ freq && freq ≤ 65000

/-- LAP_INJ.ZC inverts the plausibility of the crossings of the next 3 MAINS laps and then clears (R70). -/
def State.zcTest (s : State) (good : Bool) : Bool := s.injTest Reg.LAP_INJ 0 good

/-- Count a MAINS crossing under LAP_INJ.ZC. -/
def State.zcRan (s : State) : State :=
  if s.bit Reg.LAP_INJ 0 then
    if 3 ≤ s.lap.zcDone + 1 then ({ s with lap := { s.lap with zcDone := 0 } }).injRan Reg.LAP_INJ 0
    else { s with lap := { s.lap with zcDone := s.lap.zcDone + 1 } }
  else s

/-- The source selected: LAP_SRC_CTRL.SEL, taken as FREE under the way OTHER of H8. -/
def State.lapSel (s : State) : Nat := if s.lap.selFree then 3 else s.fld Reg.LAP_SRC_CTRL 0 2

/-- The source in use: FREE from reset release until H8 begins (R492), then that of LAP_SRC_STAT.CUR. -/
def State.lapCur (s : State) : Nat := if s.lap.judging then s.fld Reg.LAP_SRC_STAT 0 2 else 3

/-- LAP_MAINS_FREQ: the mean of the frequencies measured over the last 4 crossings, 0 without a crossing. -/
def State.mainsFreq (s : State) (freqs : List Nat) : State :=
  let r := s.roundOpen (if freqs.isEmpty then 0 else ((freqs.foldl (fun a b => a + b) 0 : Nat) : Rat) / (freqs.length : Nat))
  r.2.wr Reg.LAP_MAINS_FREQ (BitVec.ofNat 32 (satNat 17 r.1.toNat))

/-- The FEEDER channel that LAP_SRC_CTRL names belongs to a configured feeder whose modulator clock runs
(MTR_CLK, Table 1). -/
def State.feederUsable (s : State) : Bool :=
  let f := s.fld Reg.LAP_SRC_CTRL 2 2
  s.bit (Reg.MTR_F_f_CFG f) 0 && !s.mtr.clkNow.contains f

/-- A judged crossing, or a missing one, of the feeder channel or of the mains input; a bad one of the source in use
makes the generator coast. -/
def State.judged (s : State) (feeder good : Bool) (freqs : List Nat) : State :=
  let j := if feeder then s.lap.feeder else s.lap.mains
  let k := { j.mark good with freqs := freqs, last := if good && !freqs.isEmpty then some s.oscNs else j.last }
  let inUse := s.lapCur == feeder.toNat
  let lap := if feeder then { s.lap with feeder := k } else { s.lap with mains := k }
  let s1 := { s with lap := { lap with coast := s.lap.coast || (inUse && !good) } }
  s1.onlyIf (!feeder) (fun t => t.mainsFreq freqs)

/-- A crossing arrives (R535): before H8 it is not judged; the first one only sets the prediction. -/
def State.crossing (s : State) (feeder : Bool) (deviation freq : Nat) : State :=
  let j := if feeder then s.lap.feeder else s.lap.mains
  let first := { j with seen := true, last := some s.oscNs }
  if !s.lap.judging || (feeder && !s.feederUsable) then s
  else if !j.seen then { s with lap := if feeder then { s.lap with feeder := first } else { s.lap with mains := first } }
  else
    let good := crossingGood deviation freq
    let freqs := (freq :: j.freqs).take 4
    if feeder then s.judged true good freqs else (s.zcRan).judged false (s.zcTest good) freqs

/-- 30 ms without a crossing count as one bad crossing (R535), and LAP_INJ.ZC inverts that of MAINS as well (R70). -/
def State.crossingMissing (s : State) (feeder : Bool) : State :=
  let j := if feeder then s.lap.feeder else s.lap.mains
  if !s.lap.judging || !j.seen then s
  else if feeder then s.judged true false []
  else (s.zcRan).judged false (s.zcTest false) []

/-- A FEEDER channel that is not usable is invalid, and becomes valid only by 16 new good crossings (Table 1, R44). -/
def State.feederCheck (s : State) : State :=
  if s.feederUsable then s
  else { s with lap := { s.lap with feeder := { s.lap.feeder with valid := false, good := 0 } } }

/-- The PTP clock is locked as the lap generator sees it, LAP_INJ.PTPLOCK applied (R44, R70). -/
def State.netValid (s : State) : Bool := s.injTest Reg.LAP_INJ 1 (s.bit Reg.PTP_STATE 3)

/-- A source is valid (Table 1). -/
def State.srcValid (s : State) : Nat → Bool
  | 0 => s.lap.mains.valid
  | 1 => s.lap.feeder.valid && s.feederUsable
  | 2 => s.netValid
  | _ => true

/-- The first valid source after one, in the order MAINS, NET, FREE; all three follow FEEDER. -/
def State.srcAfter (s : State) : Nat → Nat
  | 0 => if s.srcValid 2 then 2 else 3
  | 1 => if s.srcValid 0 then 0 else if s.srcValid 2 then 2 else 3
  | _ => 3

/-- How far an instant `d` ns after one boundary of a period of `p` ns lies from the nearest one. -/
def nearest (d p : Nat) : Nat := min (d % p) (p - d % p)

/-- How far the present boundary lies from the nearest one of a source, ns (Table 1); none while the source's phase is not
known. FREE has the oscillator's own phase: what differs there is the length of the lap. -/
def State.phaseOff (s : State) (k : Nat) : Option Nat :=
  let ofJudge (j : Judge) : Option Nat := match j.last, j.freqs with
    | some t, f :: _ => if f = 0 then none else some (nearest (s.oscNs - t) (1000000000000 / f))
    | _, _ => none
  match k with
  | 0 => ofJudge s.lap.mains
  | 1 => ofJudge s.lap.feeder
  | 2 => some (nearest (s.ptp.clk.floor.toNat) 20000000)
  | _ => let p := s.lastLap; some (max p s.lap.freePeriod - min p s.lap.freePeriod)

/-- The generator's phase differs from that of a source by more than 50 µs (R48). -/
def State.phaseFar (s : State) (k : Nat) : Bool := match s.phaseOff k with
  | some d => decide (50000 < d)
  | none => false

/-- Change to a source: the generator slews towards it when its phase lies more than 50 µs off (R48). -/
def State.srcTo (s : State) (k : Nat) : State :=
  let far := s.phaseFar k
  let s1 := (s.setFld Reg.LAP_SRC_STAT 0 2 k).setBit Reg.LAP_SRC_STAT 2 far
  { s1 with lap := { s1.lap with slewLaps := if far then some 0 else none } }

/-- A fallback: flagged, counted and raised (R45). -/
def State.fallback (s : State) : State :=
  ((s.setBit Reg.LAP_STAT 0 true).count Reg.LAP_CNT_FALLBACK).irqLap 0

/-- The choice of the source at a lap boundary: a written SEL is judged (R536), an invalid source falls back (R45), a
selected source valid through HOLDOFF whole laps returns under AUTORET (R46), and H8 brings the selected source in (R492). -/
def State.srcBoundary (s : State) : State :=
  let cur := s.lapCur
  let sel := s.lapSel
  if !s.lap.judging then s.setFld Reg.LAP_SRC_STAT 0 2 3
  else if s.lap.srcWritten then
    let s1 := { s with lap := { s.lap with srcWritten := false } }
    if s.srcValid sel then (if sel = cur then s1 else s1.srcTo sel)
    else if s.srcAfter sel = cur then s1
    else (s1.srcTo (s.srcAfter sel)).fallback
  else if !s.srcValid cur then (s.srcTo (s.srcAfter cur)).fallback
  else if sel ≠ cur && s.srcValid sel && s.boot.phase == .starting && s.fld Reg.BOOT_CUR 0 4 == 8 then s.srcTo sel
  else if sel ≠ cur && s.bit Reg.LAP_SRC_CTRL 8
      && s.fld Reg.LAP_SRC_CTRL 16 8 < listGet s.lap.validFor sel then
    ((s.srcTo sel).count Reg.LAP_CNT_RETURN).irqLap 1
  else s

/-- The boundaries of unbroken validity of each source, counted on by one. -/
def State.validLaps (s : State) : List Nat :=
  (List.range 4).map (fun k => if s.srcValid k then min 256 (listGet s.lap.validFor k + 1) else 0)

/-- NET loses its validity within a lap: its unbroken validity begins again (R46). -/
def State.netLost (s : State) : State := { s with lap := { s.lap with validFor := s.lap.validFor.set 2 0 } }

/-- The length of a lap (R47): at least 15 ms, at most 25 ms, and at most 0.5 ms from the lap before. -/
def lapLength (last target : Nat) : Nat :=
  max (max 15000000 (last - 500000)) (min (min 25000000 (last + 500000)) target)

/-! ## The pacer -/

/-- Charge units per budget tick of each resource (Table 3). -/
def chargeUnit : Nat → Nat
  | 0 => 4 | 1 => 2048 | 2 => 1 | _ => 512

/-- The largest single charge of each resource in its charge units (Table 3). -/
def largestCharge : Nat → Nat
  | 0 => 4 | 1 => 1 | 2 => 24 | _ => 1

/-- The classes in the pacer's order of rank (R59): LOOP, AIN, MTR, FBP, PAIR, CAN, NET, HWP, SLV, NVS, SPR, SELF. -/
def rankOrder : List Nat := [1, 4, 3, 0, 11, 6, 5, 7, 2, 8, 9, 10]

/-- The budget of class `c` on resource `r`, in charge units. -/
def State.budgetUnits (s : State) (c r : Nat) : Nat := listGet s.lap.budget (4 * c + r) * chargeUnit r

/-- A class is held on a resource: its charge has reached its budget (R55). DESIGN CHOICE: a class without a budget there, which is
never granted the resource, does not count as held in each lap; the spec does not say whether it does (log entry 71). -/
def State.heldOn (s : State) (c r : Nat) : Bool :=
  s.budgetUnits c r != 0 && s.budgetUnits c r ≤ listGet s.used (4 * c + r)

/-- A class may be granted a resource: it has a budget there and is not held. NVW is not metered after a power failure
is detected (R61). -/
def State.grantable (s : State) (c r : Nat) : Bool :=
  if r = 2 && s.pfailed then true else s.budgetUnits c r != 0 && !s.heldOn c r

/-- The charges and debts that a lap's end hands on: NVW charges above the budget become debt (R58). -/
def State.chargesAfter (s : State) : List Nat :=
  (List.range 48).map (fun i => if i % 4 = 2 then listGet s.used i - listGet s.lap.budget i else 0)

/-- The first unit, in the order of rank, of a class that may be granted resource `r` (R59). -/
def State.firstUnit (s : State) (r : Nat) (units : List (Nat × Nat)) : Option (Nat × Nat) :=
  match rankOrder.find? (fun c => s.grantable c r && units.any (fun u => u.1 == c)) with
  | some c => units.find? (fun u => u.1 == c)
  | none => none

/-- The order in which the sequencer passes its positions. -/
def SeqPos.before (a b : SeqPos) : Bool :=
  a.phase < b.phase || (a.phase == b.phase && (a.wave < b.wave || (a.wave == b.wave && a.task < b.task)))

/-- A solve has an iteration in progress. -/
def Solve.iterating (v : Solve) : Bool := v.running && v.assembled && !v.waiting

/-- The sequencer has moved `n` blocks of resource `r` in the present iteration or assembly (R161), and over the lane fabric come to
a position, which SLV_RUN.STATE, SLV_WAVE and SLV_TASK show. -/
def State.slvMoved (s : State) (r n : Nat) (at_ : Option SeqPos) : State := match s.dsp.solve with
  | none => s
  | some v =>
    if r = resDram && v.running then { s with dsp := { s.dsp with solve := some { v with loaded := v.loaded + n } } }
    else if !v.iterating || r ≠ resFab then s
    else
      let p : SeqPos := match at_ with
        | some p => if v.pos.before p then p else v.pos
        | none => v.pos
      let s1 := { s with dsp := { s.dsp with solve := some { v with charged := v.charged + n, pos := p } } }
      ((s1.setFld Reg.SLV_RUN 0 3 (2 + p.phase.val)).wr Reg.SLV_WAVE p.wave).wr Reg.SLV_TASK p.task

/-- Of the pending units of resource `r` (class and charge, oldest first), the one served next is granted and charged
(R52, R55, R59); NVW is not metered after a power failure is detected (R61). -/
def State.pacerGrant (s : State) (r : Nat) (units : List (Nat × Nat)) (at_ : Option SeqPos) : State := match s.firstUnit r units with
  | none => s
  | some u =>
    let n := min u.2 (largestCharge r)
    let s1 := s.charge u.1 r n
    if u.1 = classSlv then s1.slvMoved r n at_ else s1

/-- DESIGN CHOICE (log entry 71): LAP_USED shows whole budget ticks, and a part of one is not shown; R52 states no rounding. The
end of a lap for the pacer: LAP_USED, LAP_HELD_LAST, LAP_OVSP and the OVSP flags (R56), and new charges. -/
def State.pacerLap (s : State) : State :=
  let held := (List.range 12).filter (fun c => (List.range 4).any (fun r => s.heldOn c r))
  let s1 := s.forEach (List.range 48) (fun t i =>
    t.wr (Reg.LAP_USED_c_r (i / 4) (i % 4)) (BitVec.ofNat 32 (satNat 13 (listGet s.used i / chargeUnit (i % 4)))))
  let s2 := s1.wr Reg.LAP_HELD_LAST (BitVec.ofNat 32 (held.foldl (fun m c => m + 2 ^ c) 0))
  let s3 := s2.forEach held (fun t c => t.count (Reg.LAP_OVSP c))
  let s4 := s3.onlyIf (!held.isEmpty) (fun t => (t.setBit Reg.LAP_STAT 2 true).irqLap 3)
  { s4 with used := s.chargesAfter }

/-! ## Batons -/

/-- The class of each requester of Table 6. -/
def batonClass : Nat → Nat
  | 0 => 2 | 1 => 8 | 2 => 10 | 3 => 10 | 4 => 10 | _ => 0

/-- Grantable batons free. -/
def State.batonsFree (s : State) : Nat := 20 - (List.range 6).foldl (fun n i => n + listGet s.lap.batonHeld i) 0

/-- The effective priority of a waiting request (R65). -/
def State.effPri (s : State) (q : BatonReq) : Nat :=
  min 7 (listGet s.lap.bpri (batonClass q.who) + q.waited / s.fld Reg.LAP_BATON_CTRL 0 4)

/-- The first of the waiting requests by effective priority, then by request order (R65). -/
def State.firstReq (s : State) : List BatonReq → Option BatonReq
  | [] => none
  | q :: t => match s.firstReq t with
    | none => some q
    | some r => if s.effPri q < s.effPri r then some r else some q

/-- The request that the governor grants next (R66). -/
def State.nextGrant (s : State) : Option BatonReq := match s.firstReq s.lap.batonQ with
  | none => none
  | some q =>
    if q.need ≤ s.batonsFree then some q
    else if s.effPri q < 7 then s.firstReq (s.lap.batonQ.filter (fun r => r.need ≤ s.batonsFree))
    else none

/-- A requester asks for batons (R63): one request of a requester waits at a time. None is taken after a power failure
is detected (R68). -/
def State.batonRequest (s : State) (who need : Nat) : State :=
  if s.pfailed || need = 0 || s.lap.batonQ.any (fun q => q.who == who) || listGet s.lap.batonHeld who != 0 then s
  else { s with lap := { s.lap with batonQ := s.lap.batonQ ++ [⟨who, need, 0⟩] } }

/-- A holder releases its batons (R64). -/
def State.batonRelease (s : State) (who : Nat) : State :=
  { s with lap := { s.lap with batonHeld := listSet s.lap.batonHeld who 0 } }

/-- A waiting request is withdrawn. -/
def State.batonCancel (s : State) (who : Nat) : State :=
  { s with lap := { s.lap with batonQ := s.lap.batonQ.filter (fun q => q.who != who) } }

/-- Batons that a requester holds. -/
def State.batonsOf (s : State) (who : Nat) : Nat := listGet s.lap.batonHeld who

/-- Give the batons of a request to its requester. -/
def State.batonGive (s : State) (q : BatonReq) : State :=
  let lap := { s.lap with
    batonQ := s.lap.batonQ.filter (fun r => r.who != q.who), batonHeld := listSet s.lap.batonHeld q.who q.need,
    batonLap := listSet s.lap.batonLap q.who s.lap.count }
  { s with lap := lap }

/-- An operation that begins with its request: the batons are its own at once when the governor's next grant is this
request (R66). -/
def State.batonsFor (s : State) (who need : Nat) : State :=
  let s1 := s.batonRequest who need
  match s1.nextGrant with
  | some q => if q.who = who then s1.batonGive q else s1
  | none => s1

/-- At the detection of a power failure the governor releases all grants and grants no more (R68). -/
def State.batonsDrop (s : State) : State :=
  { s with lap := { s.lap with batonQ := [], batonHeld := [0, 0, 0, 0, 0, 0] } }

/-- A switch of outputs to their safe values draws the two reserved batons at once (R68). -/
def State.drawReserved (s : State) : State := { s with lap := { s.lap with rsv := true } }

/-- A whole lap of waiting completes for the waiting request of requester `who` (R65). -/
def State.batonAge (s : State) (who : Nat) : State :=
  let one (q : BatonReq) : BatonReq := if q.who = who then { q with waited := q.waited + 1 } else q
  { s with lap := { s.lap with batonQ := s.lap.batonQ.map one } }

/-! ## Live values -/

/-- LAP_BATON_STAT. -/
def State.batonStat (s : State) : Word :=
  let oldest := s.lap.batonQ.foldl (fun m q => max m q.waited) 0
  BitVec.ofNat 32 (s.batonsFree + s.lap.batonQ.length * 2 ^ 8 + min 255 oldest * 2 ^ 16 + s.lap.rsv.toNat * 2 ^ 24)

/-- LAP_BATON_HOLDi. -/
def State.batonHold (s : State) (i : Nat) : Word := match s.lap.batonQ.find? (fun q => q.who == i) with
  | some q => BitVec.ofNat 32 (s.batonsOf i + s.effPri q * 2 ^ 8 + 2 ^ 16)
  | none => BitVec.ofNat 32 (s.batonsOf i)

end Sys2Proof.Machine
end

