-- ==== Sys2Proof/Machine/RegAccess.lean ====
section
/-!
DEFINITION. Machine/RegAccess.lean: which register a host window address names (R6, R7), and what the access codes of
R4 (Table 2 of spec/00_scope.md) do with its fields: RO, RW, RWS, W1C, WO and RC; reserved bits read 0 (R3).
-/

namespace Sys2Proof.Machine

/-- An address offset lies on a register of an array with the given dimensions, outermost first. -/
def onArray : List (Nat × Nat) → Nat → Bool
  | [], o => o == 0
  | (stride, n) :: t, o => o / stride < n && onArray t (o % stride)

/-- The row of the register map that holds an address. -/
def rowAt (a : Nat) : Option RegRow := match blockOf a with
  | none => none
  | some b => (rowsOf b).find? (fun r => r.base ≤ a && onArray r.dims (a - r.base))

/-- The fields of the register at an address; none where the offset is unpopulated (R7). -/
def fieldsAt (a : Nat) : List Fld := match rowAt a with
  | some r => r.fields
  | none => []

/-- An address names a register. -/
def populated (a : Nat) : Bool := (rowAt a).isSome

/-- A field of a word, as a number. -/
def Fld.get (f : Fld) (w : Word) : Nat := bitsOf w f.lo f.width

/-- The word with a field replaced. -/
def Fld.put (f : Fld) (w : Word) (v : Nat) : Word := putBits w f.lo f.width v

/-- The register has a field of an access code. -/
def hasAcc (c : Acc) (a : Nat) : Bool := (fieldsAt a).any (fun f => f.acc == c)

/-- The stored word with the fields of one access code taken from `v`. -/
def takeFields (c : Acc) (a : Nat) (old v : Word) : Word :=
  (fieldsAt a).foldl (fun w f => if f.acc = c then f.put w (f.get v) else w) old

/-- The stored word with the W1C bits that `v` has as 1 cleared. -/
def clearFields (a : Nat) (old v : Word) : Word :=
  (fieldsAt a).foldl (fun w f => if f.acc = .w1c then f.put w (f.get (w &&& ~~~ v)) else w) old

/-- What a read of a stored word returns: WO fields and reserved bits read 0 (R3, R4). -/
def visible (a : Nat) (w : Word) : Word :=
  (fieldsAt a).foldl (fun r f => if f.acc = .wo then r else f.put r (f.get w)) 0#32

/-- The stored word after a read has cleared its RC fields (R4, R377). -/
def clearRead (a : Nat) (w : Word) : Word :=
  (fieldsAt a).foldl (fun r f => if f.acc = .rc then f.put r 0 else r) w

/-- A write takes its RW fields at once and clears the W1C bits written with 1; RO fields ignore it (R4). -/
def State.plainWrite (s : State) (a : Nat) (v : Word) : State :=
  s.wr a (clearFields a (takeFields .rw a (s.rd a) v) v)

/-- A write set entry puts its RWS fields in force (R90). -/
def State.rwsApply (s : State) (a : Nat) (v : Word) : State := s.wr a (takeFields .rws a (s.rd a) v)

/-- A read clears the RC fields of the register (R377). -/
def State.rcClear (s : State) (a : Nat) : State := if hasAcc .rc a then s.wr a (clearRead a (s.rd a)) else s

/-- A value of a field lies in a declared range; one whose lower end is negative is of a field read as two's complement. -/
def inDeclared (f : Fld) (lo hi : Int) (v : Word) : Bool :=
  let u : Int := f.get v
  let sg : Int := signedOf f.width (f.get v)
  (lo ≤ u && u ≤ hi) || (lo < 0 && lo ≤ sg && sg ≤ hi)

/-- A field whose reset value an image supplies and that DEFAULTS does not list takes that reset value alone, 0 (R533). -/
def inUnlisted (f : Fld) (v : Word) : Bool := f.rst != .img || f.get v == 0

/-- Each tunable field's value lies in the range that the running image's DEFAULTS declares for it, or is its reset value
where DEFAULTS leaves the range out (R9, R10, R533). -/
def inDefaults (defs : List DefaultEntry) (a : Nat) (v : Word) : Bool :=
  ((fieldsAt a).filter (fun f => f.acc == .rw || f.acc == .rws)).all (fun f =>
    match defs.find? (fun e => e.addr == a && e.lo == f.lo) with
    | none => inUnlisted f v
    | some e => match e.range with
      | none => f.get v == f.get (f.put 0#32 e.reset.toNat)
      | some (lo, hi) => inDeclared f lo hi v)

/-! ## Registers that a command names by an index -/

/-- The register of measurement `u`, or of the outdoor temperature (R114). -/
def measReg : Option (Fin 64) → Nat
  | some u => Reg.DSP_MEAS_u u.val
  | none => Reg.DSP_MEAS_TOUT

/-- NBT, DBT and TDC of a channel (R314). -/
def timingReg (ch : Nat) : Nat → Nat
  | 0 => Reg.CAN_NBT ch
  | 1 => Reg.CAN_DBT ch
  | _ => Reg.CAN_TDC ch

end Sys2Proof.Machine
end

