-- ==== Sys2Proof/Machine/NvsOps.lean ====
section
/-!
DEFINITION. Machine/NvsOps.lean: the regions and the direct window (R424, R425, R432, R433), unlocks and passwords
(R429 to R431), the store of the warm region (R434 to R437), tally increments (R440, R442) of
spec/18_nonvolatile_store.md.
-/

namespace Sys2Proof.Machine

/-- The denial of a host window word: the status of check 5, and what it notes in the registers of the block. -/
structure Deny where
  status : Status
  note : State → State

/-- A refusal of the NVS block is counted and flagged (R425). -/
def State.nvRefused (s : State) : State := (s.count Reg.NVS_CNT_REFUSE).setBit Reg.NVS_STAT 7 true

/-! ## Regions -/

/-- The region of an NV offset below 4 MiB (Table 1). -/
def regionOf (x : Nat) : Nat :=
  if x < 0x40000 then 0 else if x < 0x140000 then 1 else if x < 0x340000 then 2 else if x < 0x360000 then 3
  else if x < 0x380000 then 4 else if x < 0x3A0000 then 5 else if x < 0x3C0000 then 6 else 7

/-- NV offset of a region (Table 1). -/
def regionBase : Nat → Nat
  | 0 => 0 | 1 => 0x40000 | 2 => 0x140000 | 3 => 0x340000 | 4 => 0x360000 | 5 => 0x380000 | 6 => 0x3A0000
  | _ => 0x3C0000

/-- Size of a region (Table 1). -/
def regionSize : Nat → Nat
  | 0 => 0x40000 | 1 => 0x100000 | 2 => 0x200000 | 7 => 0x40000 | _ => 0x20000

/-- The region is a USER region. -/
def isUser (r : Nat) : Bool := 3 ≤ r

/-- A host window address in the NV direct window. -/
def inNvWindow (a : Nat) : Bool := 0x20000000 ≤ a && a < 0x20400000

/-- The NV offset of a direct window address. -/
def nvOffset (a : Nat) : Nat := a - 0x20000000

/-- The region is held encrypted. -/
def State.regionCrypt (s : State) (r : Nat) : Bool := isUser r && s.bit (Reg.NVS_RGN_r_CFG r) 2

/-- Key 1 of the XTS encryption: the key in NVS_CFG.CRYPTSLOT when it meets R411 for NVS_CRYPT (R432). -/
def State.cryptKey (s : State) : Option (List Byte) := s.engineKey engNvs (s.fld Reg.NVS_CFG 0 5)

/-- Key 2 of the XTS encryption, from the UID (R432). -/
def cryptKey2 (key1 : List Byte) : List Byte :=
  aesEnc key1 uidBytes ++ aesEnc key1 (uidBytes.take 15 ++ (uidBytes.drop 15).map (· ^^^ 1#8))

/-- The plain bytes of the 16-byte unit at NV offset `o`. -/
def State.userUnit (s : State) (o : Nat) : List Byte :=
  let raw := bytesAt (tabGet 0#8 s.nv.user) o 16
  if s.regionCrypt (regionOf o) then
    match s.cryptKey with
    | some k => xtsDec k (cryptKey2 k) (o / 16) raw
    | none => raw
  else raw

/-- Write the plain bytes of the unit at NV offset `o`. -/
def State.putUserUnit (s : State) (o : Nat) (b : List Byte) : State :=
  let raw := if s.regionCrypt (regionOf o) then
      match s.cryptKey with
      | some k => xtsEnc k (cryptKey2 k) (o / 16) b
      | none => b
    else b
  let s1 := { s with nv := { s.nv with user := tabSetList 0#8 s.nv.user o raw } }
  if s.fld Reg.PAIR_STATE 0 3 = 4 && s.bit Reg.PAIR_NVMASK (regionOf o) && !s.pair.recUser.contains o then
    { s1 with pair := { s1.pair with recUser := s1.pair.recUser ++ [o] } }
  else s1

/-- A word of the direct window as it reads (R432, R433). -/
def State.nvWord (s : State) (x : Nat) : Word :=
  let b := match regionOf x with
    | 1 => s.sramGet (x - 0x40000) 4
    | 2 => bytesAt (tabGet 0xFF#8 s.nv.ring) (x - 0x140000) 4
    | _ => ((s.userUnit (x - x % 16)).drop (x % 16)).take 4
  BitVec.ofNat 32 (leNat b)

/-- Write a word of a USER region: a write of less than a unit reads, changes and writes the unit (R432). -/
def State.putUserWord (s : State) (x : Nat) (v : Word) : State :=
  let u := s.userUnit (x - x % 16)
  s.putUserUnit (x - x % 16) (u.take (x % 16) ++ leBytes 4 v.toNat ++ u.drop (x % 16 + 4))

/-! ## Unlocks -/

/-- A key slot holds the unlock of a kind for a region (R429). -/
def State.unlocked (s : State) (slot r : Nat) (isWrite : Bool) : Bool :=
  s.bit (if isWrite then Reg.NVS_RGN_r_WRSLOTS r else Reg.NVS_RGN_r_RDSLOTS r) slot

/-- A region has a password of a kind. -/
def State.hasPassword (s : State) (r : Nat) (isWrite : Bool) : Bool :=
  s.bit (Reg.NVS_RGN_r_CFG r) (if isWrite then 1 else 0)

/-- A requester lacks the unlock that an access of a kind needs (R429). -/
def State.lockedOut (s : State) (slot r : Nat) (isWrite : Bool) : Bool :=
  s.hasPassword r isWrite && !s.unlocked slot r isWrite

/-- The SRAM is frozen, so that a request that would start an NV write is refused with BUSY (R436). -/
def State.frozen (s : State) : Bool := s.bit Reg.NVS_WARM 2

/-- The judgement of a direct window access to one word at NV offset `x` (R425, R429, R432, R433, R436). -/
def State.nvDeny (s : State) (slot x : Nat) (isWrite : Bool) : Option Status :=
  let r := regionOf x
  if r = 0 then some .range
  else if isWrite && r = 2 then some .locked
  else if isWrite && r = 1 && x - 0x40000 < 0x20000 then some .locked
  else if !(r = 1 && x - 0x40000 < 0x20000) && s.lockedOut slot r isWrite then some .locked
  else if s.regionCrypt r && s.cryptKey.isNone then some .locked
  else if isWrite && s.frozen then some .busy
  else none

/-- The wrong attempts of a region (R430). -/
def State.pwFail (s : State) (r : Nat) : PwFail :=
  (s.nv.pwFails.find? (fun f => f.region == r)).getD ⟨r, [], none⟩

/-- Keep the wrong attempts of a region. -/
def State.putPwFail (s : State) (f : PwFail) : State :=
  { s with nv := { s.nv with pwFails := f :: s.nv.pwFails.filter (fun g => g.region != f.region) } }

/-- Unlocks of the region are refused with BUSY: 256 laps have not passed since the eighth wrong attempt (R430). -/
def State.pwLocked (s : State) (r : Nat) : Bool := match (s.pwFail r).lockedAt with
  | some l => s.lap.count < l + 256
  | none => false

/-- The password of a region and kind. -/
def State.password (s : State) (r : Nat) (isWrite : Bool) : Option (Word × Word) :=
  (s.nv.passwords.find? (fun p => p.1 == r && p.2.1 == isWrite)).map (fun p => p.2.2)

/-- The password in NVS_UNLOCK_LO and _HI is the region's, or the region has none of that kind. -/
def State.pwRight (s : State) (r : Nat) (isWrite : Bool) : Bool := match s.password r isWrite with
  | some p => p == (s.rd Reg.NVS_UNLOCK_LO, s.rd Reg.NVS_UNLOCK_HI)
  | none => true

/-- NVS_UNLOCK_LO and _HI are cleared after every unlock (R430). -/
def State.clearUnlock (s : State) : State := (s.wr Reg.NVS_UNLOCK_LO 0#32).wr Reg.NVS_UNLOCK_HI 0#32

/-- A wrong attempt is counted and recorded; the eighth within 256 laps starts the lockout (R430). -/
def State.pwWrong (s : State) (slot r : Nat) (isWrite : Bool) : State :=
  let laps := ((s.pwFail r).laps.filter (fun l => s.lap.count < l + 256)) ++ [s.lap.count]
  let s1 := s.putPwFail ⟨r, laps, if 8 ≤ laps.length then some s.lap.count else none⟩
  let s2 := ((s1.count Reg.NVS_CNT_PWFAIL).setBit Reg.NVS_STAT 3 true).irqNvs 2
  s2.raiseEv 0x1601 3 (leBytes 1 r ++ leBytes 1 isWrite.toNat ++ leBytes 1 slot)

/-- The 256 laps after the eighth wrong attempt have passed: unlocks of the region are allowed again (R430). -/
def State.pwLockoutEnd (s : State) (r : Nat) : State := match (s.pwFail r).lockedAt with
  | some l => if l + 256 ≤ s.lap.count then s.putPwFail ⟨r, [], none⟩ else s
  | none => s

/-- A requester gains an unlock (R429). -/
def State.unlockGain (s : State) (slot r : Nat) (isWrite : Bool) : State :=
  s.setBit (if isWrite then Reg.NVS_RGN_r_WRSLOTS r else Reg.NVS_RGN_r_RDSLOTS r) slot true

/-- Every unlock that a requester holds is dropped (R429). -/
def State.unlockDrop (s : State) (slot : Nat) : State :=
  s.forEach (List.range 8) (fun t r =>
    (t.setBit (Reg.NVS_RGN_r_RDSLOTS r) slot false).setBit (Reg.NVS_RGN_r_WRSLOTS r) slot false)

/-- A region number that carries passwords: WARM and the USER regions. -/
def pwRegion (r : Nat) : Bool := r = 1 || isUser r

/-- NVS_PWSET_CTRL is accepted: both copies are to be written (R431). -/
def State.pwsetBegin (s : State) (r : Nat) (isWrite clear : Bool) : State :=
  let pw := if clear then none else some (s.rd Reg.NVS_PWSET_LO, s.rd Reg.NVS_PWSET_HI)
  { s with nv := { s.nv with pwJobs := s.nv.pwJobs ++ [⟨r, isWrite, pw, 0⟩] } }

/-- A password takes effect when both copies are verified: the unlocks of that region and kind end and the staging
registers clear (R429, R431). -/
def State.pwInForce (s : State) (j : PwJob) : State :=
  let rest := s.nv.passwords.filter (fun p => !(p.1 == j.region && p.2.1 == j.isWrite))
  let all := match j.pw with
    | some p => rest ++ [(j.region, j.isWrite, p.1, p.2)]
    | none => rest
  let s1 := { s with nv := { s.nv with passwords := all } }
  let s2 := s1.setBit (Reg.NVS_RGN_r_CFG j.region) (if j.isWrite then 1 else 0) j.pw.isSome
  let s3 := s2.wr (if j.isWrite then Reg.NVS_RGN_r_WRSLOTS j.region else Reg.NVS_RGN_r_RDSLOTS j.region) 0#32
  (s3.wr Reg.NVS_PWSET_LO 0#32).wr Reg.NVS_PWSET_HI 0#32

/-- A copy of the oldest password change is written and verified (R431); after a power failure no second copy starts (R503). -/
def State.pwCopy (s : State) (rb : ReadBack) : State := match s.nv.pwJobs with
  | [] => s
  | j :: t =>
    if !s.nvMay 1 then s else
    let r := s.nvPage classHwp rb
    if !r.2 then r.1.nvFails 1
    else if j.copies = 0 && s.pfailed then { r.1 with nv := { r.1.nv with pwJobs := t } }
    else if j.copies = 0 then { r.1 with nv := { r.1.nv with pwJobs := { j with copies := 1 } :: t } }
    else ({ r.1 with nv := { r.1.nv with pwJobs := t } }).pwInForce j

/-- A write that changes CRYPT: every byte of the region reads as 0x00 under the new setting (R432). -/
def State.cryptSet (s : State) (r : Nat) (on : Bool) : State :=
  if s.bit (Reg.NVS_RGN_r_CFG r) 2 = on then s
  else
    (s.setBit (Reg.NVS_RGN_r_CFG r) 2 on).forEach (List.range (regionSize r / 16)) (fun t i =>
      t.putUserUnit (regionBase r + 16 * i) (List.replicate 16 0#8))

/-! ## The warm store -/

/-- The CRC-32C of the whole stored image of the warm region (R434). -/
def State.warmCrc (s : State) : Word := crcWalk 0#8 0xFFFFFFFF#32 s.nv.warmCells 0 0x100000

/-- Header B is the newer valid header. -/
def State.newerHeadB (s : State) : Bool := match s.nv.headA, s.nv.headB with
  | some a, some b => newerSeq 32 b.seq.toNat a.seq.toNat
  | none, some _ => true
  | _, none => false

/-- The newer valid header (R437). -/
def State.newerHead (s : State) : Option WarmHeader := if s.newerHeadB then s.nv.headB else s.nv.headA

/-- Write a header. -/
def State.putHead (s : State) (toB : Bool) (h : WarmHeader) : State :=
  if toB then { s with nv := { s.nv with headB := some h } } else { s with nv := { s.nv with headA := some h } }

/-- Step 1 of R434: STORING with the next SEQ into the older header. -/
def State.storeHeader (s : State) : State :=
  let toB := !s.newerHeadB
  let seq := match s.newerHead with
    | some h => h.seq + 1
    | none => 0#32
  let s1 := ((s.nvPage classNvs goodRb).1).putHead toB ⟨seq, false, 0#32⟩
  { s1 with nv := { s1.nv with store := some ⟨true, toB, seq, [], 0⟩ } }

/-- The commanded store has its batons: at the first grant it writes its header, at a later one it goes on (R435). -/
def State.storeGranted (s : State) : State := match s.nv.store with
  | some r => if r.begun then s else s.storeHeader
  | none => s

/-- Program a page of the stored image from the SRAM and clear its mark (step 2 of R434). -/
def State.storeCells (s : State) (p : Nat) : State :=
  let cells := tabSetList 0#8 s.nv.warmCells (256 * p) (s.sramGet (256 * p) 256)
  { s with nv := { s.nv with warmCells := cells, dirty := s.nv.dirty.filter (· != p) } }

/-- The next page of a store: a dirty page that it has not yet programmed. -/
def State.storePage? (s : State) : Option Nat := match s.nv.store with
  | some r => s.nv.dirty.find? (fun p => !(r.done.contains p))
  | none => none

/-- One page of the commanded store is programmed and verified (R435); after 256 pages, or at the page boundary that
follows 32 laps from the grant, the batons are released and requested again (R64). -/
def State.storeStep (s : State) (rb : ReadBack) : State := match s.nv.store, s.storePage? with
  | some r, some p =>
    if !r.begun || s.batonsOf 1 = 0 || !s.nvMay 0 then s
    else
      let w := s.nvPage classNvs rb
      if !w.2 then w.1.nvFails 0
      else
        let s1 := w.1.storeCells p
        let again := r.sinceGrant + 1 = 256 || listGet s.lap.batonLap 1 + 32 ≤ s.lap.count
        let r' := { r with done := r.done ++ [p], sinceGrant := if again then 0 else r.sinceGrant + 1 }
        let s2 := { s1 with nv := { s1.nv with store := some r' } }
        if again then (s2.batonRelease 1).batonRequest 1 8 else s2
  | _, _ => s

/-- Steps 3 and 4 of R434: COMPLETE with the CRC of the stored image; NVS_INJ.WARMCRC writes its complement (R444). -/
def State.storeComplete (s : State) (toB : Bool) (seq : Word) : State :=
  let crc := if s.bit Reg.NVS_INJ 2 then ~~~ s.warmCrc else s.warmCrc
  (s.putHead toB ⟨seq, true, crc⟩).injRan Reg.NVS_INJ 2

/-- A commanded store ends when every dirty page is programmed: COMPLETE is written and verified, the batons are
released, STOREDONE is raised (R435). -/
def State.storeEnd (s : State) (rb : ReadBack) : State := match s.nv.store with
  | some r =>
    if !r.begun || s.storePage?.isSome || !s.nvMay 0 then s
    else
      let w := s.nvPage classNvs rb
      if !w.2 then w.1.nvFails 0
      else
        let s1 := w.1.storeComplete r.toB r.seq
        let s2 := { s1 with nv := { s1.nv with store := none } }
        ((((s2.batonRelease 1).batonCancel 1).count Reg.NVS_CNT_STORE).irqNvs 0)
  | none => s

/-- The store of a power failure (R436): the SRAM freezes, a commanded store is abandoned, and the whole store runs. -/
def State.warmStore (s : State) : State :=
  let s0 := { s with nv := { s.nv with store := none } }
  let s1 := s0.storeHeader
  let s2 := s1.forEach s1.nv.dirty State.storeCells
  let s3 := match s2.nv.store with
    | some r => s2.storeComplete r.toB r.seq
    | none => s2
  ({ s3 with nv := { s3.nv with store := none } }).setBit Reg.NVS_WARM 2 true

/-- H2 loads the stored image into the SRAM and judges it (R437). -/
def State.warmLoad (s : State) : State :=
  let ok := match s.newerHead with
    | some h => h.complete && h.imgCrc == s.warmCrc
    | none => false
  let s1 := { s with nv := { s.nv with sram := s.nv.warmCells, dirty := [] } }
  (s1.setBit Reg.NVS_WARM 0 ok).onlyIf (!ok) (fun s => s.setBit Reg.NVS_STAT 0 true)

/-- NVS_WARM: OK and FROZEN as kept, STORING and DIRTY as they stand. -/
def State.nvsWarm (s : State) : Word :=
  putBits (putBit (s.rd Reg.NVS_WARM) 1 s.nv.store.isSome) 16 13 s.nv.dirty.length

/-! ## Tallies at start -/

/-- The copy that step 2 of R442 takes, and whether the tie rule was used. -/
def Tally.base (x : Tally) : Option TallyBase := match x.baseA, x.baseB with
  | some a, some b =>
    if a.fold = b.fold then (if a.value.toNat < b.value.toNat then some b else some a)
    else if a.fold.toNat < b.fold.toNat then some b else some a
  | some a, none => some a
  | none, b => b

/-- Both copies are valid with the same FOLD. -/
def Tally.tie (x : Tally) : Bool := match x.baseA, x.baseB with
  | some a, some b => a.fold == b.fold
  | _, _ => false

/-- The largest N of the valid increment cells. -/
def Tally.topCell (x : Tally) : Option Nat :=
  x.cells.foldl (fun m c => match c, m with
    | none, m => m
    | some n, none => some n.toNat
    | some n, some m => some (max m n.toNat)) none

/-- No cell of the tally is valid. -/
def Tally.lost (x : Tally) : Bool := x.base.isNone && x.topCell.isNone

/-- Step 4 of R442 applies: a valid base copy exists and no valid increment cell has ⌊N / 16⌋ at least f. -/
def Tally.jumps (x : Tally) : Bool := match x.fold, x.topCell with
  | some f, some n => n / 16 < f
  | some _, none => true
  | none, _ => false

/-- The value that R442 derives. -/
def Tally.derived (x : Tally) : Word :=
  if x.lost then 0#32
  else if x.jumps then BitVec.ofNat 32 (16 * x.fold.getD 0 + 15)
  else BitVec.ofNat 32 (max ((x.base.map (fun b => b.value.toNat)).getD 0) (x.topCell.getD 0))

/-- Rewrite the base copies that step 6 of R442 calls for. -/
def State.repairBases (s : State) (t : Nat) : State :=
  let x := s.tally t
  let s1 := s.onlyIf x.baseA.isNone (fun s => s.putTally t { s.tally t with baseA := some ⟨x.v, x.v >>> 4⟩ })
  let s2 := s1.onlyIf x.baseB.isNone (fun s => s.putTally t { s.tally t with baseB := some ⟨x.v, x.v >>> 4⟩ })
  s2.onlyIf (s2.tally t).foldDue (fun s => s.foldTally t goodRb)

/-- H1 derives tally `t` from its valid cells and repairs it (R442). -/
def State.deriveTally (s : State) (t : Nat) : State :=
  let x := s.tally t
  let v := x.derived
  let s1 := s.onlyIf x.tie (fun s => s.setBit Reg.NVS_STAT 4 true)
  let ev (k : Nat) (s : State) := s.raiseEv 0x1602 4 (leBytes 2 t ++ leBytes 1 k ++ leBytes 1 0 ++ leBytes 4 v.toNat)
  let s2 := s1.putTally t { x with v := v }
  let s3 := if x.lost then ev 1 (s2.setBit Reg.NVS_STAT 6 true)
    else if x.jumps then
      ev 0 ((s2.putTally t { x with v := v, cells := x.cells.set (v.toNat % 16) (some v) }).setBit Reg.NVS_STAT 5 true)
    else s2
  let y := s3.tally t
  if y.foldDue || y.baseA.isNone || y.baseB.isNone then (s3.repairBases t).count Reg.NVS_CNT_TALLYREPAIR else s3

/-- H1 derives every tally (R442). -/
def State.deriveTallies (s : State) : State := s.forEach (List.range 512) State.deriveTally

/-! ## Increments -/

/-- Ask for an increment of tally `t`; none starts after a power failure (R503). -/
def State.tallyAsk (s : State) (t : Nat) (fw : Bool) : State :=
  if s.pfailed then s else { s with nv := { s.nv with tallyJobs := s.nv.tallyJobs ++ [(t, fw)] } }

/-- The first waiting increment of tally `t` ends. -/
def State.tallyTaken (s : State) (j : Nat × Bool) : State :=
  { s with nv := { s.nv with tallyJobs := s.nv.tallyJobs.erase j } }

/-- A firmware increment has ended: RESULT, BUSY and NVS_IRQ.TALLY. -/
def State.tallyReport (s : State) (ok : Bool) : State :=
  ((s.setBit Reg.NVS_TALLY_STAT 0 false).setFld Reg.NVS_TALLY_STAT 1 2 (if ok then 1 else 2)).irqNvs 3

/-- What the user of tally `t` does when its increment is durable: the rollback floor goes on to its target (R30), a
key update goes on to its copy (R418). -/
def State.tallyDone (s : State) (t : Nat) : State :=
  if t = 1 then
    match s.img.floorTo with
    | some f => if (s.tallyV 1).toNat < f.toNat then s.tallyAsk 1 false
        else { s with img := { s.img with floorTo := none } }
    | none => s
  else if t = 2 then s.keyCounted
  else s

/-- A waiting increment of tally `t` completes (R440, R441): V becomes N, or the increment fails; the module's own
increments are repeated at the next lap, a firmware increment reports its result. -/
def State.incrementDone (s : State) (t : Nat) (rb fold : ReadBack) : State :=
  match s.nv.tallyJobs.find? (fun j => j.1 == t) with
  | none => s
  | some j =>
    if !j.2 && !s.nvMay (16 + t) then s else
    let r := s.writeTallyCell t (s.tallyV t + 1) rb fold
    if r.2 then
      let s1 := r.1.tallyTaken j
      if j.2 then s1.tallyReport true else s1.tallyDone t
    else if j.2 then (r.1.tallyTaken j).tallyReport false
    else r.1.nvFails (16 + t)

end Sys2Proof.Machine
end

