-- ==== Sys2Proof/Machine/ImgOps.lean ====
section
/-!
DEFINITION. Machine/ImgOps.lean: the image's layout (R13 to R20), the staging buffer and the slots, and the load,
commit, activation and floor commands (R26 to R37) of spec/01_network_image.md.
-/

namespace Sys2Proof.Machine

/-! ## Image bytes -/

/-- A source of image bytes, by image offset. -/
abbrev ImgBytes := Tab 8

/-- Byte `o` of an image. -/
def ImgBytes.byte (m : ImgBytes) (o : Nat) : Byte := tabGet 0#8 m o

/-- `n` little-endian bytes of an image at offset `o`, as a number. -/
def ImgBytes.num (m : ImgBytes) (o n : Nat) : Nat := leAt (tabGet 0#8 m) o n

/-- `n` little-endian bytes at offset `o`, read as two's complement. -/
def ImgBytes.int (m : ImgBytes) (o n : Nat) : Int := signedOf (8 * n) (m.num o n)

/-- The `n` bytes of an image from offset `o` on. -/
def ImgBytes.slice (m : ImgBytes) (o n : Nat) : List Byte := bytesAt (tabGet 0#8 m) o n

/-- SECT_COUNT (Table 2). -/
def ImgBytes.sectCount (m : ImgBytes) : Nat := m.num 0x0C 2

/-- TOTAL_LEN (Table 2). -/
def ImgBytes.totalLen (m : ImgBytes) : Nat := m.num 0x08 4

/-- SERIAL (Table 2). -/
def ImgBytes.serial (m : ImgBytes) : Word := BitVec.ofNat 32 (m.num 0x18 4)

/-- A directory entry (R14, Table 3). -/
structure Sect where
  kind : Nat
  rsv : Nat
  off : Nat
  len : Nat
  crc : Nat
  deriving DecidableEq, Repr

/-- Directory entry `i`. -/
def ImgBytes.sect (m : ImgBytes) (i : Nat) : Sect :=
  let e := 0x40 + 16 * i
  ⟨m.num e 2, m.num (e + 2) 2, m.num (e + 4) 4, m.num (e + 8) 4, m.num (e + 12) 4⟩

/-- The directory entries; at most 16 (R15). -/
def ImgBytes.sects (m : ImgBytes) : List Sect := (List.range (min 16 m.sectCount)).map m.sect

/-- The section of a type (Table 4). -/
def ImgBytes.find (m : ImgBytes) (kind : Nat) : Option Sect := m.sects.find? (fun e => e.kind == kind)

/-- Section types of Table 4. -/
def secGraph : Nat := 1
def secKkt : Nat := 2
def secSched : Nat := 3
def secQfmt : Nat := 4
def secFbprog : Nat := 5
def secFbdata : Nat := 6
def secLoops : Nat := 7
def secIomap : Nat := 8
def secCanf : Nat := 9
def secTele : Nat := 10
def secBudget : Nat := 11
def secSettmap : Nat := 12
def secDefaults : Nat := 13
def secSafetraj : Nat := 14
def secFallback : Nat := 15

/-- Offset of a section in the image, 0 when it has none. -/
def ImgBytes.secOff (m : ImgBytes) (kind : Nat) : Nat := ((m.find kind).map (·.off)).getD 0

/-- Length of a section, 0 when the image has none. -/
def ImgBytes.secLen (m : ImgBytes) (kind : Nat) : Nat := ((m.find kind).map (·.len)).getD 0

/-- `n` bytes at offset `o` of a section, as a number. -/
def ImgBytes.sn (m : ImgBytes) (kind o n : Nat) : Nat := m.num (m.secOff kind + o) n

/-- The signed message: offset 0 up to and including trailer byte 7 (R18). -/
def ImgBytes.signed (m : ImgBytes) : List Byte := m.slice 0 (m.totalLen - 120)

/-- The structure hash (R19). -/
def ImgBytes.structHash (m : ImgBytes) : List Byte :=
  sha256 ([1, 2, 3, 4, 15].flatMap (fun k => match m.find k with
    | none => []
    | some e => leBytes 2 k ++ [0#8, 0#8] ++ leBytes 4 e.len ++ m.slice e.off e.len))

/-! ## Slots and the running image -/

/-- The content of slot A or B. -/
def State.slotImg (s : State) (b : Bool) : ImgBytes := if b then s.img.slotB else s.img.slotA

/-- The STATE register of slot A or B. -/
def slotStatReg (b : Bool) : Nat := if b then Reg.IMG_SLOTB_STAT else Reg.IMG_SLOTA_STAT

/-- The SERIAL register of slot A or B. -/
def slotSerialReg (b : Bool) : Nat := if b then Reg.IMG_SLOTB_SERIAL else Reg.IMG_SLOTA_SERIAL

/-- STATE of a slot: 0 EMPTY, 1 WRITING, 2 VALID, 3 INVALID. -/
def State.slotState (s : State) (b : Bool) : Nat := s.fld (slotStatReg b) 0 2

/-- Set STATE of a slot. -/
def State.setSlotState (s : State) (b : Bool) (v : Nat) : State := s.setFld (slotStatReg b) 0 2 v

/-- The slot of the running image. -/
def State.runSlot (s : State) : Bool := s.bit Reg.IMG_RUN 0

/-- The running image's bytes. -/
def State.runImg (s : State) : ImgBytes := s.slotImg s.runSlot

/-- STATE of the load: 0 IDLE, 1 OPEN, 2 CHECKING, 3 CHECKED, 4 COMMITTING. -/
def State.loadState (s : State) : Nat := s.fld Reg.IMG_LOAD_STAT 8 3

/-- The slot of the open load. -/
def State.loadSlotB (s : State) : Bool := s.bit Reg.IMG_LOAD_STAT 12

/-- CODE of the last check. -/
def State.loadCode (s : State) : Nat := s.fld Reg.IMG_LOAD_STAT 0 8

/-- A refused load, command or activation is counted, flagged and raised. -/
def State.imgRefused (s : State) : State :=
  ((s.count Reg.IMG_CNT_REFUSE).setBit Reg.IMG_STAT 0 true).irqImg 2

/-- A slot names the running image (R29). -/
def State.isRunning (s : State) (b : Bool) : Bool := s.imgRuns && s.runSlot == b

/-- OPEN: the load opens, the staging buffer is zeroed, the last check and FLASHFAIL are forgotten (R32, R36). -/
def State.openLoad (s : State) (b : Bool) : State :=
  let s1 := { s with img := { s.img with staging := [] } }
  (s1.wr Reg.IMG_LOAD_STAT (BitVec.ofNat 32 (2 ^ 8 + b.toNat * 2 ^ 12))).wr Reg.IMG_LOAD_RCVD 0#32

/-- CHECK: STATE becomes CHECKING. -/
def State.checkLoad (s : State) : State := s.setFld Reg.IMG_LOAD_STAT 8 3 2

/-- COMMIT: the slot is WRITING and its SERIAL recorded before programming begins (R26, IMG_SLOTx_SERIAL). -/
def State.commitLoad (s : State) : State :=
  let b := s.loadSlotB
  ((s.setFld Reg.IMG_LOAD_STAT 8 3 4).setSlotState b 1).wr (slotSerialReg b) (ImgBytes.serial s.img.staging)

/-- The end of a commit: the programmed slot is read back; a match makes it VALID, a mismatch leaves it INVALID and the
buffer kept (R26, R36). IMG_INJ.FLASH_CRC inverts the comparison (R41). -/
def State.commitEnd (s : State) (readBackOk : Bool) : State :=
  if s.loadState ≠ 4 then s
  else
    let b := s.loadSlotB
    let ok := s.injTest Reg.IMG_INJ 3 readBackOk
    let s1 := s.injRan Reg.IMG_INJ 3
    let img := if b then { s1.img with slotB := s.img.staging } else { s1.img with slotA := s.img.staging }
    let s2 := { s1 with img := img }
    if ok then
      (((s2.setSlotState b 2).setFld Reg.IMG_LOAD_STAT 8 3 0).setBit Reg.IMG_LOAD_STAT 14 false).irqImg 1
    else
      let s3 := ((s2.setSlotState b 3).setFld Reg.IMG_LOAD_STAT 8 3 3).setBit Reg.IMG_LOAD_STAT 14 true
      ((s3.setBit Reg.IMG_STAT 4 true).count Reg.IMG_CNT_FLASH).irqImg 1

/-- ABORT: STATE returns to IDLE and the staging buffer is discarded (R34). -/
def State.abortLoad (s : State) : State :=
  if s.loadState = 0 then s
  else ({ s with img := { s.img with staging := [] } }).setFld Reg.IMG_LOAD_STAT 8 3 0

/-- The module is the active member of a pair whose partner is in standby (R37): STATE ACTIVE and PSYNC. -/
def State.activeWithStandby (s : State) : Bool := s.fld Reg.PAIR_STATE 0 3 == 4 && s.bit Reg.PAIR_STATE 6

/-- FLOOR: the raise of the rollback floor to the running image's SERIAL begins (R30). -/
def State.floorRaise (s : State) : State :=
  let f := s.rd Reg.IMG_SERIAL
  if (s.tallyV 1).toNat < f.toNat then
    ({ s with img := { s.img with floorTo := some f } }).onlyIf s.img.floorTo.isNone (fun s => s.tallyAsk 1 false)
  else s

/-- The judgement of IMG_LOAD_CTRL (R29, R33, R34). -/
def State.loadCtrlDeny (s : State) (v : Word) : Option Status :=
  let n := (bitOf v 0).toNat + (bitOf v 1).toNat + (bitOf v 2).toNat + (bitOf v 3).toNat
  if 1 < n then some .range
  else if bitOf v 0 then
    (if s.loadState ≠ 0 then some .busy else if s.isRunning (bitOf v 8) then some .locked else none)
  else if bitOf v 1 then (if s.loadState ≠ 1 then some .locked else none)
  else if bitOf v 2 then
    (if s.loadState ≠ 3 || s.loadCode ≠ 1 || s.isRunning s.loadSlotB then some .locked else none)
  else if bitOf v 3 then (if s.loadState = 4 then some .busy else none)
  else none

/-- The judgement of IMG_ACT_CTRL (R30, R37); a raise of the floor is an NV write (R436). DESIGN CHOICE: a write that R37 refuses
for two reasons is answered NOIMG before LOCKED; the spec gives no order (log entry 71). -/
def State.actCtrlDeny (s : State) (v : Word) : Option Status :=
  if bitOf v 0 && s.slotState (bitOf v 8) ≠ 2 then some .noimg
  else if bitOf v 16 && !s.imgRuns then some .noimg
  else if bitOf v 0 && s.activeWithStandby then some .locked
  else if bitOf v 16 && s.frozen then some .busy
  else none

/-- The effect of IMG_LOAD_CTRL. -/
def State.loadCtrl (s : State) (v : Word) : State :=
  if bitOf v 0 then s.openLoad (bitOf v 8)
  else if bitOf v 1 then s.checkLoad
  else if bitOf v 2 then s.commitLoad
  else if bitOf v 3 then s.abortLoad
  else s

/-- The effect of IMG_ACT_CTRL: the last accepted ACTIVATE stands (R38). -/
def State.actCtrl (s : State) (v : Word) : State :=
  let s1 := if bitOf v 0 then { s with img := { s.img with pendAct := some (bitOf v 8) } } else s
  s1.onlyIf (bitOf v 16) State.floorRaise

/-- The judgement of an image-load request (R31, R32). -/
def State.chunkDeny (s : State) (off count : Nat) : Option Status :=
  if s.loadState ≠ 1 then some .locked
  else if off % 4 ≠ 0 || count = 0 || 352 < count || s.fld Reg.IMG_LOAD_LEN 0 25 < off + 4 * count then some .length
  else none

/-- Words of an accepted image-load request go into the staging buffer; IMG_LOAD_RCVD counts their bytes. -/
def State.chunkPut (s : State) (off : Nat) (data : List Word) : State :=
  let s1 := { s with img := { s.img with staging := tabSetList 0#8 s.img.staging off (bytesOfWords data) } }
  s1.wr Reg.IMG_LOAD_RCVD (s.rd Reg.IMG_LOAD_RCVD + BitVec.ofNat 32 (4 * data.length))

/-- A refused image-load request is counted and raised (R32). -/
def State.chunkRefused (s : State) : State := (s.count Reg.IMG_CNT_CHUNK_REFUSE).irqImg 2

end Sys2Proof.Machine
end

