-- ==== Sys2Proof/Machine/SettOps.lean ====
section
/-!
DEFINITION. Machine/SettOps.lean: write sets (R84 to R91 of spec/03_sett_coherent_state.md) and the epochs of the setts
(R71, R93, R97).
-/

namespace Sys2Proof.Machine

/-- No sett of the present start has been committed while an image runs (R86). -/
def State.noTarget (s : State) : Bool := s.imgRuns && !s.sett.started

/-- The present write set is OPEN. -/
def State.wsIsOpen (s : State) : Bool := match s.sett.ws with
  | some w => !w.sealed
  | none => false

/-- The present write set is OPEN and owned by a key slot. -/
def State.wsOwns (s : State) (slot : Nat) : Bool := match s.sett.ws with
  | some w => !w.sealed && w.owner == slot
  | none => false

/-- Keep the write set. -/
def State.putWs (s : State) (w : Option WriteSet) : State := { s with sett := { s.sett with ws := w } }

/-- Open a write set; SETT_WS_SEQ counts it (R84). -/
def State.wsBegin (s : State) (owner : Nat) (implicit : Bool) : State :=
  (s.wr Reg.SETT_WS_SEQ (s.rd Reg.SETT_WS_SEQ + 1)).putWs (some ⟨false, owner, implicit, [], false, s.lap.count, 0⟩)

/-- Poison the write set (R88). -/
def State.wsPoison (s : State) : State := match s.sett.ws with
  | some w => s.putWs (some { w with poison := true })
  | none => s

/-- The epoch that a set sealed now has as its target (R89). -/
def State.sealTarget (s : State) : Nat := if s.lap.tick < 4032 then s.nextEpoch else s.nextEpoch + 1

/-- Seal the OPEN set and fix its target; SETT_INJ.POISON makes it a poisoned one (R89, R99). -/
def State.wsSeal (s : State) : State := match s.sett.ws with
  | some w =>
    if w.sealed then s
    else
      let w' := { w with sealed := true, target := s.sealTarget, poison := w.poison || s.bit Reg.SETT_INJ 1 }
      ((s.putWs (some w')).wr Reg.SETT_WS_TARGET_LO (BitVec.ofNat 32 s.sealTarget)).injRan Reg.SETT_INJ 1
  | none => s

/-- Enter a pending value: a later write to an address already in the set replaces its entry (R87). -/
def wsEnter : List (Nat × Word) → Nat → Word → List (Nat × Word)
  | [], a, v => [(a, v)]
  | (b, x) :: t, a, v => if b = a then (a, v) :: t else (b, x) :: wsEnter t a v

/-- The set already holds an entry for an address, or has room for one more (R87). -/
def State.wsRoom (s : State) (a : Nat) : Bool := match s.sett.ws with
  | some w => w.entries.any (fun e => e.1 == a) || w.entries.length < 1024
  | none => true

/-- An RWS write joins the OPEN set, or forms a set of its own while none exists (R84, R85). -/
def State.wsJoin (s : State) (slot a : Nat) (v : Word) : State :=
  let s1 := if s.sett.ws.isSome then s else s.wsBegin slot true
  match s1.sett.ws with
  | some w => s1.putWs (some { w with entries := wsEnter w.entries a v })
  | none => s1

/-- A request that formed a write set has been served: the set is sealed (R85), unless it has reached its result and another
one stands. -/
def State.wsServed (s : State) (formed : Option Word) : State := match s.sett.ws with
  | some w => if w.implicit && !w.sealed && formed == some (s.rd Reg.SETT_WS_SEQ) then s.wsSeal else s
  | none => s

/-- A request is taken up whose words include an RWS word while no write set exists: it forms its own (R85). -/
def State.wsForm (s : State) (slot : Nat) (l : List (Nat × Word)) : State × Option Word :=
  if s.sett.ws.isNone && l.any (fun w => hasAcc .rws w.1) then
    let s1 := s.wsBegin slot true
    (s1, some (s1.rd Reg.SETT_WS_SEQ))
  else (s, none)

/-- Codes of a write set's result (Table 4). -/
def wsApplied : Nat := 1
def wsRejected : Nat := 2
def wsTimedOut : Nat := 3
def wsAborted : Nat := 4
def wsImage : Nat := 5
def wsSwitchover : Nat := 6
def wsPowerfail : Nat := 7

/-- The write set reaches a result (R90, R91): recorded, counted and raised. -/
def State.wsResult (s : State) (result : Nat) : State := match s.sett.ws with
  | none => s
  | some _ =>
    let s1 := (s.putWs none).wr Reg.SETT_WS_LAST (BitVec.ofNat 32 result)
    let s2 := s1.wr Reg.SETT_WS_LAST_SEQ (s.rd Reg.SETT_WS_SEQ)
    let s3 := if result = wsApplied then s2.count Reg.SETT_CNT_WS_APPLIED
      else (s2.count Reg.SETT_CNT_WS_DISCARD).setBit Reg.SETT_STAT 2 true
    s3.irqSett 1

/-- The set is OPEN and the lap now ending is lap n + SETT_WS_TIMEOUT, n the lap of its OPEN: discarded with TIMEOUT. -/
def State.wsExpire (s : State) : State := match s.sett.ws with
  | some w => if !w.sealed && w.openLap + s.fld Reg.SETT_WS_TIMEOUT 0 16 ≤ s.lap.count then s.wsResult wsTimedOut else s
  | none => s

/-- At its target boundary a sealed set comes wholly into force, or is discarded with REJECTED when poisoned (R88,
R90). `epoch` is the epoch of that boundary's commit. -/
def State.wsBoundary (s : State) (epoch : Nat) : State := match s.sett.ws with
  | some w =>
    if w.sealed && w.target ≤ epoch then
      if w.poison then s.wsResult wsRejected
      else (s.forEach w.entries (fun s e => s.rwsApply e.1 e.2)).wsResult wsApplied
    else s
  | none => s

/-- A sett becomes readable: the oldest of the four held is released (R73, R74). -/
def State.settShow (s : State) (f : Sett) : State :=
  ({ s with sett := { s.sett with held := f :: s.sett.held.take 3 } }).irqSett 0

/-- SETT_WS_STAT. -/
def State.wsStat (s : State) : Word := match s.sett.ws with
  | none => 0#32
  | some w => BitVec.ofNat 32 ((if w.sealed then 2 else 1) + w.poison.toNat * 4 + w.entries.length * 2 ^ 8)

/-- SETT_WS_ADDR_k and SETT_WS_VAL_k. -/
def State.wsEntry (s : State) (k : Nat) : Nat × Word := match s.sett.ws with
  | none => (0, 0#32)
  | some w => w.entries.getD k (0, 0#32)

end Sys2Proof.Machine
end

