-- ==== Sys2Proof/Machine/PairOps.lean ====
section
/-!
DEFINITION. Machine/PairOps.lean: the operations of spec/16_pair_operation.md on the claim and the right to drive (R387
to R389), the Owl's messages (R391, R392, R397), the conditions for the active role (R393), and the join checks (R402).
-/

namespace Sys2Proof.Machine

/-- STATE of Table 1: 0 ALONE, 1 OUT, 2 JOINING, 3 STANDBY, 4 ACTIVE, 5 WITNESS. -/
def State.pairState (s : State) : Nat := s.fld Reg.PAIR_STATE 0 3

/-- H7 has brought a port up: all ports, or port S alone under its way OTHER (Table 1 of spec/22). -/
def State.netUp (s : State) (p : Nat) : Bool := s.boot.passed.contains 7 && (!s.boot.onlyS || p == 2)

/-- A port is in service: H7 has brought it up and ETH_PORT_p_CFG.EN is 1. While no image runs, no image supplies EN, and
the ports that H7 brought up serve as they stand. -/
def State.portUp (s : State) (p : Nat) : Bool := s.netUp p && (s.bit (Reg.ETH_PORT_p_CFG p) 0 || !s.imgRuns)

/-- SYNC. -/
def State.pairSync (s : State) : Bool := s.bit Reg.PAIR_STATE 4

/-- PSYNC: the module is ACTIVE and its partner is STANDBY with SYNC. -/
def State.pairPsync (s : State) : Bool := s.bit Reg.PAIR_STATE 6

/-- The module is a STANDBY (R95). -/
def State.isStandby (s : State) : Bool := s.pairState == 3

/-- The module is ACTIVE or runs without a pair. -/
def State.isActive (s : State) : Bool := s.pairState == 4 || s.pair.role == 0

/-- H11 has passed in this start (R388, R494). -/
def State.h11Passed (s : State) : Bool := s.boot.passed.contains 11 && !s.boot.skip14

/-- CLAIM, the level of INTLK_OUT (R387). -/
def State.claim (s : State) : Bool := s.pair.latch && s.pair.grantIn && !s.pfailed && s.boot.phase != .off

/-- DRIVE (R387, R388): a module with ROLE ALONE drives from the end of H11 until a power failure. -/
def State.drive (s : State) : Bool :=
  if s.pair.role = 1 then s.claim && !s.pair.intlkIn
  else if s.pair.role = 0 then s.h11Passed && !s.pfailed
  else false

/-- The outputs of Table 2 are released from their gated state (R388, R494). -/
def State.gatesOpen (s : State) : Bool := s.drive && s.h11Passed

/-- PAIR_STATE: the stored bits with the levels and the right to drive as they stand. -/
def State.pairStateReg (s : State) : Word :=
  let w := putBit (s.rd Reg.PAIR_STATE) 8 s.pair.grantIn
  putBit (putBit (putBit w 9 s.claim) 10 s.pair.intlkIn) 11 s.drive

/-- STATE changes (PAIR_IRQ.STATE). -/
def State.pairTo (s : State) (k : Nat) : State :=
  if s.pairState = k then s else (s.setFld Reg.PAIR_STATE 0 3 k).irqPair 0

/-- SYNC changes (PAIR_IRQ.SYNC). -/
def State.setSync (s : State) (b : Bool) : State :=
  if s.pairSync = b then s else (s.setBit Reg.PAIR_STATE 4 b).irqPair 1

/-- LINK changes (PAIR_IRQ.LINK); its fall is flagged. Whether one lane or two are up while blocks arrive is open. -/
def State.setLink (s : State) (b : Bool) : State :=
  if s.bit Reg.PAIR_STATE 5 = b then s
  else
    let r := s.freeBits 1
    let lanes := if b then 1 + r.1 else 0
    (((r.2.setFld Reg.PAIR_STATE 12 2 lanes).setBit Reg.PAIR_STATE 5 b).irqPair 2).onlyIf (!b)
      (fun s => s.setBit Reg.PAIR_STAT 3 true)

/-- INTLK_IN was asserted within 64 ticks after the latch was set: contention; side B clears its latch (R389). -/
def State.contend (s : State) : State :=
  let s1 := (s.setBit Reg.PAIR_STAT 4 true).count Reg.PAIR_CNT_CONTEND
  if s.pair.sideB then { s1 with pair := { s1.pair with latch := false, yielded := true } } else s1

/-- The level of INTLK_IN changes. -/
def State.intlkLevel (s : State) (level : Bool) : State :=
  let s1 := { s with pair := { s.pair with intlkIn := level, intlkAt := if level = s.pair.intlkIn then s.pair.intlkAt else s.now } }
  if level && !s.pair.intlkIn && s.pair.role = 1 && s.pair.latch && s.now < s.pair.latchAt + 65 then s1.contend else s1

/-- The level of GRANT_IN changes (PAIR_IRQ.GRANT). -/
def State.grantLevel (s : State) (level : Bool) : State :=
  if level = s.pair.grantIn then s
  else ({ s with pair := { s.pair with grantIn := level, grantAt := s.now } }).irqPair 3

/-- The claim latch is set on entering ACTIVE, only when INTLK_IN has been deasserted for 2 ticks (R389). -/
def State.setLatch (s : State) : State :=
  if !s.pair.intlkIn && s.pair.intlkAt + 2 ≤ s.now then
    { s with pair := { s.pair with latch := true, latchAt := s.now } }
  else s

/-- The MAC of an Owl message: the first 8 bytes of the CMAC over bytes 0x00 to 0x27 under PAIR_KEY.OWLSLOT. -/
def State.owlMac (s : State) (msg : List Byte) : Option (List Byte) :=
  (s.macUnder engPair (s.fld Reg.PAIR_KEY 8 5) (msg.take 0x28)).map (·.take 8)

/-- `n` little-endian bytes of a message at offset `o`, as a number. -/
def msgNum (m : List Byte) (o n : Nat) : Nat := leNat ((m.drop o).take n)

/-- The layout checks and the MAC of an Owl message (R392), PAIR_INJ.OWLMAC applied. -/
def State.owlGood (s : State) (m : List Byte) (kind : Nat) : Bool :=
  m.length == 48 && msgNum m 0 1 == 1 && msgNum m 1 1 == kind && msgNum m 2 2 == s.fld Reg.PAIR_CFG 16 16
    && (match s.owlMac m with
      | some mac => s.injTest Reg.PAIR_INJ 1 (mac == (m.drop 0x28).take 8)
      | none => false)

/-- The MAC comparison of a grant message has run, so PAIR_INJ.OWLMAC clears (R408). -/
def State.owlChecked (s : State) (m : List Byte) : State :=
  if m.length == 48 && (s.engineKey engPair (s.fld Reg.PAIR_KEY 8 5)).isSome then s.injRan Reg.PAIR_INJ 1 else s

/-- A grant message from the Owl is accepted or discarded (R392). -/
def State.grantMsg (s : State) (m : List Byte) : State :=
  if s.pair.role ≠ 1 then s else
  let seq := msgNum m 8 4
  let mine := s.nat Reg.PAIR_GRANTSEQ
  let ok := s.owlGood m 0x12 && (newerSeq 32 seq mine || seq == mine)
  let s1 := s.owlChecked m
  if ok then
    let s2 := { s1 with pair := { s1.pair with owlLap := s.lap.count } }
    if newerSeq 32 seq mine || s.pair.grantSide.isNone then
      ({ s2 with pair := { s2.pair with grantSide := some (msgNum m 4 1) } }).wr Reg.PAIR_GRANTSEQ (BitVec.ofNat 32 seq)
    else s2
  else (s1.count Reg.PAIR_CNT_OWLDROP).setBit Reg.PAIR_STAT 6 true

/-- 250 laps without an accepted grant message (R392). -/
def State.owlLost (s : State) : State :=
  if s.pair.role = 1 && s.pair.owlLap + 250 ≤ s.lap.count then s.setBit Reg.PAIR_STAT 7 true else s

/-- The side of the module, as a grant message names it. -/
def State.sideNum (s : State) : Nat := s.pair.sideB.toNat

/-- The three conditions under which a MEMBER enters ACTIVE (R393). -/
def State.mayTake (s : State) : Bool :=
  s.pair.role == 1 && s.pair.grantIn && s.pair.grantAt + 1 ≤ s.now && s.pair.grantSide == some s.sideNum
    && (match s.pair.leftSeq with
      | none => true
      | some q => newerSeq 32 (s.nat Reg.PAIR_GRANTSEQ) q.toNat)

/-- A module in ACTIVE must leave it: GRANT_IN has fallen, or the other side is granted (R395), or side B has yielded to
contention, after which it enters ACTIVE again only under R393 (R389). -/
def State.mustLeave (s : State) : Bool :=
  !s.pair.grantIn || s.pair.yielded || (match s.pair.grantSide with
    | some k => k == 1 - s.sideNum
    | none => false)

/-- PAIR_LAG.LAPS: laps since the last acknowledged unit, saturating; 0 before the first. -/
def State.pairLag (s : State) : Nat := if s.pair.last.isNone then 0 else min 0xFFFF (s.lap.count - s.pair.lastLap)

/-- An Owl message with its MAC; none under an unusable OWLSLOT. -/
def State.owlSigned (s : State) (body : List Byte) : Option (List Byte) := (s.owlMac body).map (body ++ ·)

/-- The heartbeat of a member (Table 3). -/
def State.heartbeatMsg (s : State) : Option (List Byte) :=
  let flags := s.pairSync.toNat + 2 * (s.bit Reg.PAIR_STATE 5).toNat + 4 * s.claim.toNat + 8 * s.pair.grantIn.toNat
    + 16 * s.pair.handover.toNat + 32 * s.imgRuns.toNat
  let body := [0x01#8, 0x11#8] ++ leBytes 2 (s.fld Reg.PAIR_CFG 16 16) ++ leBytes 1 s.sideNum ++ leBytes 1 s.pairState
    ++ leBytes 2 flags ++ leBytes 4 s.pair.hbSeq.toNat ++ leBytes 4 s.bootCount ++ leBytes 8 s.readableEpoch
    ++ leBytes 4 (s.nat Reg.PAIR_GRANTSEQ) ++ leBytes 2 s.pairLag ++ leBytes 2 0
    ++ leBytes 4 (if s.imgRuns then s.nat (Reg.IMG_DIGEST 0) else 0) ++ leBytes 4 0
  s.owlSigned body

/-- The ports in service that PAIR_PORTS.ETHPORTS names. -/
def State.owlPorts (s : State) : List Nat := (List.range 2).filter (fun p => s.bit Reg.PAIR_PORTS (16 + p) && s.portUp p)

/-- Send a heartbeat to PAIR_OWL (R391). -/
def State.sendHeartbeat (s : State) : State :=
  let s1 := { s with pair := { s.pair with hbSeq := s.pair.hbSeq + 1 } }
  match s1.heartbeatMsg with
  | some m =>
    if s.pair.role ≠ 1 then s
    else s1.forEach s1.owlPorts (fun t p => t.send ⟨.heartbeat, p, t.nat Reg.PAIR_OWL, t.fld Reg.PAIR_PORTS 0 16, m⟩)
  | none => s

/-! ## The witness (R397) -/

/-- The grant message of a witness (Table 4). -/
def State.grantMessage (s : State) : Option (List Byte) :=
  let side := match s.fld Reg.PAIR_WIT_STATE 0 2 with
    | 1 => 0 | 2 => 1 | _ => 0xFF
  let body := [0x01#8, 0x12#8] ++ leBytes 2 (s.fld Reg.PAIR_CFG 16 16) ++ leBytes 1 side ++ leBytes 3 0
    ++ leBytes 4 (s.nat Reg.PAIR_WIT_SEQ) ++ leBytes 4 ((s.pair.hearA.map (·.hbSeq.toNat)).getD 0)
    ++ leBytes 4 ((s.pair.hearB.map (·.hbSeq.toNat)).getD 0) ++ leBytes 20 0
  s.owlSigned body

/-- A witness sends its grant message to both members (R397). -/
def State.sendGrant (s : State) : State :=
  match s.grantMessage with
  | some m =>
    if s.pair.role ≠ 2 then s
    else s.forEach s.owlPorts (fun t p =>
      (t.send ⟨.grant, p, t.nat Reg.PAIR_WIT_ADDR_A, t.fld Reg.PAIR_PORTS 0 16, m⟩).send
        ⟨.grant, p, t.nat Reg.PAIR_WIT_ADDR_B, t.fld Reg.PAIR_PORTS 0 16, m⟩)
  | none => s

/-- What a witness has heard of a side. -/
def State.heard (s : State) (b : Bool) : Option Heard := if b then s.pair.hearB else s.pair.hearA

/-- Laps since a side's last valid heartbeat, saturating at 255. -/
def State.heardAge (s : State) (b : Bool) : Nat := match s.heard b with
  | some h => min 255 (s.lap.count - h.lap)
  | none => 255

/-- A side's last heartbeat came within TO laps. -/
def State.heardFresh (s : State) (b : Bool) : Bool := match s.heard b with
  | some h => s.lap.count < h.lap + s.fld Reg.PAIR_WIT_CFG 0 8
  | none => false

/-- A witness accepts a member's heartbeat: the checks of R392, and HBSEQ newer with BOOT unchanged, or a changed BOOT. -/
def State.witnessHear (s : State) (m : List Byte) : State :=
  if s.pair.role ≠ 2 then s
  else
    let b := msgNum m 4 1 == 1
    let boot := msgNum m 0x0C 4
    let seq := msgNum m 8 4
    let fresh := match s.heard b with
      | none => true
      | some h => if h.boot = boot then newerSeq 32 seq h.hbSeq.toNat else true
    let ok := s.owlGood m 0x11 && msgNum m 4 1 ≤ 1 && fresh
    let s1 := s.owlChecked m
    if ok then
      let fl := msgNum m 6 2
      let h : Heard := ⟨BitVec.ofNat 32 seq, boot, s.lap.count, msgNum m 5 1 == 4, fl.testBit 0, fl.testBit 5, fl.testBit 4⟩
      if b then { s1 with pair := { s1.pair with hearB := some h } } else { s1 with pair := { s1.pair with hearA := some h } }
    else (s1.count Reg.PAIR_CNT_OWLDROP).setBit Reg.PAIR_STAT 6 true

/-- The side granted: none, A (false) or B (true). -/
def State.witGranted (s : State) : Option Bool := match s.fld Reg.PAIR_WIT_STATE 0 2 with
  | 1 => some false | 2 => some true | _ => none

/-- The first grant of a witness (R397): a member that reports ACTIVE, else after TO laps the first of A and B that
reports IMGOK. -/
def State.firstGrant (s : State) : Option Bool :=
  let act (b : Bool) := ((s.heard b).map (·.active)).getD false
  let img (b : Bool) := ((s.heard b).map (·.imgOk)).getD false
  if act false then some false else if act true then some true
  else if s.pair.witStart + s.fld Reg.PAIR_WIT_CFG 0 8 ≤ s.lap.count then
    (if img false then some false else if img true then some true else none)
  else none

/-- The move that R397 calls for: from the granted member to the other one. -/
def State.witnessMove (s : State) : Option Bool := match s.witGranted with
  | none => s.firstGrant
  | some x =>
    let y := !x
    let ready := s.heardFresh y && (((s.heard y).map (·.sync)).getD false || s.bit Reg.PAIR_WIT_CFG 8)
    let cause := !s.heardFresh x || ((s.heard x).map (·.handover)).getD false || s.pair.moveAsked
    if ready && cause then some y else none

/-- A witness begins a move: the old grant line is deasserted (R390, R397). -/
def State.grantMoveBegin (s : State) : State :=
  if s.pair.role ≠ 2 || s.pair.moveTo.isSome then s
  else match s.witnessMove with
    | none => s
    | some y =>
      let high := s.bit Reg.PAIR_WIT_STATE 4 || s.bit Reg.PAIR_WIT_STATE 5
      let s1 := (s.setBit Reg.PAIR_WIT_STATE 4 false).setBit Reg.PAIR_WIT_STATE 5 false
      { s1 with pair := { s1.pair with moveTo := some y, moveAsked := false, lowAt := if high then s.now else s.pair.lowAt } }

/-- Both grant lines have been low for at least 5 ms (R390). -/
def State.lowEnough (s : State) : Bool := 5000000 * 4096 ≤ (s.now - s.pair.lowAt) * s.lastLap

/-- After both lines have been low for 5 ms the new line is asserted, GRANTSEQ is incremented, and grant messages go out
at once (R390, R397). -/
def State.grantAssertLine (s : State) : State := match s.pair.moveTo with
  | none => s
  | some y =>
    if !s.lowEnough then s else
    let s1 := (s.setBit Reg.PAIR_WIT_STATE (if y then 5 else 4) true).setFld Reg.PAIR_WIT_STATE 0 2 (if y then 2 else 1)
    let s2 := s1.wr Reg.PAIR_WIT_SEQ (s.rd Reg.PAIR_WIT_SEQ + 1)
    ({ s2 with pair := { s2.pair with moveTo := none } }).sendGrant

/-- PAIR_WIT_STATE: the stored bits with the ages as they stand. -/
def State.witState (s : State) : Word :=
  if s.pair.role = 2 then putBits (putBits (s.rd Reg.PAIR_WIT_STATE) 16 8 (s.heardAge false)) 24 8 (s.heardAge true)
  else s.rd Reg.PAIR_WIT_STATE

/-! ## Joining (R402) -/

/-- DATASIZE of the running image's FBPROG section (Table 1 of spec/09_function_block_program.md). -/
def State.imgDataSize (s : State) : Nat := s.runImg.sn secFbprog 0x04 4

/-- RETAIN of the running image's FBPROG section. -/
def State.imgRetain (s : State) : Nat := s.runImg.sn secFbprog 0x08 4

/-- The CRC that the directory of the running image gives a section. -/
def State.imgSectCrc (s : State) (kind : Nat) : Nat := ((s.runImg.find kind).map (·.crc)).getD 0

/-- The structure hash of the running image, as IMG_SHASH0 to _7 hold it. -/
def State.runShash (s : State) : List Byte := bytesOfWords ((List.range 8).map (fun i => s.rd (Reg.IMG_SHASH i)))

/-- CAUSE of the first join check that fails (Table 6), 0 when every check passes. -/
def State.joinCause (s : State) (p : Partner) : Nat :=
  let unit := s.nat Reg.PAIR_UNIT
  let need := ceilDiv (unit + 1048576) 131072
  if (s.engineKey engPair (s.fld Reg.PAIR_KEY 0 5)).isNone || (s.engineKey engPair (s.fld Reg.PAIR_KEY 8 5)).isNone then 1
  else if p.pairId.toNat != s.fld Reg.PAIR_CFG 16 16 || p.sideB == s.pair.sideB then 2
  else if p.structHash != s.runShash || p.settmapCrc.toNat != s.imgSectCrc secSettmap
      || p.loopsCrc.toNat != s.imgSectCrc secLoops || p.dataSize.toNat != s.imgDataSize || p.retain.toNat != s.imgRetain then 3
  else if 2097152 < unit then 4
  else if listGet s.lap.budget 45 < need || p.fabBudget.toNat < need then 5
  else if p.epoch.toNat ≤ s.readableEpoch then 6
  else 0

/-- A join fails: OUT, CAUSE, flagged and counted (R402). -/
def State.joinFails (s : State) (cause : Nat) : State :=
  let s1 := ((s.setFld Reg.PAIR_STATE 24 3 cause).setFld Reg.PAIR_STATE 16 2 0).setBit Reg.PAIR_STAT 5 true
  (s1.count Reg.PAIR_CNT_JOINFAIL).pairTo 1

/-- A MEMBER in OUT begins a join when the link shows a partner in ACTIVE: the checks run, and the bulk copy follows. -/
def State.beginJoin (s : State) : State := match s.pair.partner with
  | none => s
  | some p =>
    if s.pairState ≠ 1 || !p.active || s.boot.noJoin then s
    else
      let cause := s.joinCause p
      if cause ≠ 0 then s.joinFails cause
      else
        let s1 := ((s.setFld Reg.PAIR_STATE 16 2 2).wr Reg.PAIR_BULK 0#32).pairTo 2
        let mask := s.fld Reg.PAIR_NVMASK 0 8
        let pair := { s1.pair with joined := 0, partnerEpoch := p.epoch.toNat, partnerLap := s.lap.count, nvmask := mask }
        { s1 with pair := pair }

end Sys2Proof.Machine
end

