-- ==== Sys2Proof/Machine/FieldOps.lean ====
section
/-!
DEFINITION. Machine/FieldOps.lean: the operations of spec/10_field_inputs_outputs.md: the IOMAP section as the running
image gives it (R253), conversion results and their flags (R257 to R261), references and calibration (R263 to R268),
plausibility pairs (R270), forced inputs (R271), the outputs under the precedence of R249, and their faults (R275,
R276, R280, R281, R283), with fault injection under R538.
-/

namespace Sys2Proof.Machine

/-! ## IOMAP -/

/-- `n` bytes at offset `o` of the running image's IOMAP section. -/
def State.iomap (s : State) (o n : Nat) : Nat := if s.imgRuns then s.runImg.sn secIomap o n else 0

/-- The same, read as two's complement. -/
def State.iomapInt (s : State) (o n : Nat) : Int := signedOf (8 * n) (s.iomap o n)

/-- Channel 15 or 31 is a twin (R269); then the primary channel. -/
def State.twinOf (s : State) (n : Nat) : Option Nat :=
  if n = 15 && (s.iomap 0x10 1).testBit 0 then some 7
  else if n = 31 && (s.iomap 0x10 1).testBit 1 then some 23
  else none

/-- The channel whose TYPE, WIRES and scale a channel uses. -/
def State.chanCfg (s : State) (n : Nat) : Nat := (s.twinOf n).getD n

/-- TYPE of an analog input. -/
def State.ainType (s : State) (n : Nat) : Nat := s.iomap (0x20 + 16 * s.chanCfg n) 1

/-- MODE, DRIVER and SAFE of an analog output; DRIVER and SAFE of a digital output. -/
def State.aoMode (s : State) (n : Nat) : Nat := s.iomap (0x220 + 16 * n) 1
def State.aoDriver (s : State) (n : Nat) : Nat := s.iomap (0x221 + 16 * n) 1
def State.aoSafe (s : State) (n : Nat) : Nat := s.iomap (0x222 + 16 * n) 2
def State.doDriver (s : State) (n : Nat) : Nat := s.iomap (0x320 + 4 * n) 1
def State.doSafe (s : State) (n : Nat) : Bool := s.iomap (0x321 + 4 * n) 1 == 1

/-! ## Rounding -/

/-- Divide and round to nearest, ties toward plus infinity. -/
def divNear (a : Int) (b : Int) : Int :=
  if b = 0 then 0 else if b < 0 then (2 * (-a) + (-b)) / (2 * (-b)) else (2 * a + b) / (2 * b)

/-! ## Forced points (R248) -/

/-- Point `n` of class `c` is forced. -/
def State.forced (s : State) (c n : Nat) : Bool := s.bit (Reg.FBP_FORCE_MASK_c c) n

/-- The forced value of a point, in the width of Table 3 of spec/09_function_block_program.md. -/
def State.forceValue (s : State) (c n : Nat) : Nat :=
  let w := s.nat (Reg.FBP_FORCE_c_n c n)
  match c with
  | 0 => w % 2
  | 1 => w % 2
  | 2 => w % 2 ^ 24
  | 3 => w % 2 ^ 16
  | _ => w

/-! ## Analog input values (R258) -/

/-- Resistance of an IEC 60751 element in units of R0 × 10^-18, at `t` thousandths of a degree Celsius. -/
def rtdRatio (t : Int) : Int :=
  let q := 1000000000000000000 + 3908300000000 * t - 577500 * t * t
  if t < 0 then q - (4183 * (t - 100000) * t * t * t) / 1000000000 else q

/-- The highest temperature, in steps of 0.001 degree between `lo` and `lo + 2^n`, at which the element's resistance is
at most the measured one: `x` counts of full scale 4 × R0 / 2^23. -/
def rtdSearch (x : Int) : Nat → Int → Int
  | 0, lo => lo
  | n + 1, lo =>
    if rtdRatio (lo + (2 ^ n : Nat)) * 8388608 ≤ x * 4 * 1000000000000000000 then rtdSearch x n (lo + (2 ^ n : Nat))
    else rtdSearch x n lo

/-- A measured resistance lies in the range of the inverse function, -200 to 850 degrees. -/
def rtdInRange (x : Int) : Bool := 1852 * 8388608 ≤ x * 40000 && x * 40000 ≤ 39048 * 8388608

/-- VAL of a code under Table 3. The inverse of IEC 60751 holds to within 0.002 degree: within that bound the value is
free, and outside the element's range the spec states no value: free. The free value is `open_`. -/
def State.valOf (s : State) (n : Nat) (x : Int) (open_ : Word) : Int :=
  let c := 0x20 + 16 * s.chanCfg n
  let elo := s.iomapInt (c + 4) 4
  let ehi := s.iomapInt (c + 8) 4
  match s.ainType n with
  | 3 => elo + divNear ((x - 1342177) * (ehi - elo)) 5368709
  | 4 => elo + divNear (x * (ehi - elo)) 6710886
  | _ => if rtdInRange x then rtdSearch x 21 (-200000) - 1 + (open_.toNat % 4 : Nat) else open_.toInt

/-- The value that a channel's newest result or forced code shows: VAL. -/
def State.ainVal (s : State) (n : Nat) : Word :=
  if s.forced 2 n then satWord (s.valOf n (signedOf 24 (s.forceValue 2 n)) (Config.forcedRtd n (s.forceValue 2 n))) else s.rd (Reg.AIN_n_VAL n)

/-- AIN_n_RAW: the forced code, or the measured one. -/
def State.ainRaw (s : State) (n : Nat) : Word :=
  if s.forced 2 n then wordOfInt (signedOf 24 (s.forceValue 2 n)) else s.rd (Reg.AIN_n_RAW n)

/-- AIN_n_FLAGS: valid and FORCED while forced (R271). -/
def State.ainFlags (s : State) (n : Nat) : Word :=
  if s.forced 2 n then putBit (putBit (s.rd (Reg.AIN_n_FLAGS n) &&& 0x200#32) 8 true) 10 true
  else s.rd (Reg.AIN_n_FLAGS n)

/-- The channel's newest result is valid (R260, R271). -/
def State.ainValid (s : State) (n : Nat) : Bool := bitOf (s.ainFlags n) 10

/-! ## References (R262 to R264) -/

/-- A bank's reference. -/
def State.ref (s : State) (b : Nat) : RefState := s.field.refs.getD b ⟨false, 0, 0, false, false, false, false⟩

/-- Keep a bank's reference. -/
def State.putRef (s : State) (b : Nat) (r : RefState) : State := { s with field := { s.field with refs := s.field.refs.set b r } }

/-- The nominal reference in µV. -/
def State.refNominal (s : State) (b : Nat) : Nat :=
  if s.iomap (4 + b) 1 = 1 then s.iomap (8 + 2 * b) 2 * 1000 else 2500000

/-- The distance of a measurement from nominal. -/
def State.refOff (s : State) (b uv : Nat) : Nat := let n := s.refNominal b; if uv < n then n - uv else uv - n

/-- AIN_INJ names a bank. -/
def State.injBank (s : State) (b : Nat) : Bool := s.fld Reg.AIN_INJ 16 2 == b

/-- A check finds the reference within 0.05 % of nominal, and outside 0.5 %, AIN_INJ.REF applied (R538). -/
def State.refJudge (s : State) (b uv : Nat) : Bool × Bool :=
  let inBand := s.refOff b uv * 2000 ≤ s.refNominal b
  let out := s.refNominal b < s.refOff b uv * 200
  if s.bit Reg.AIN_INJ 3 && s.injBank b then (if inBand then (false, true) else (true, false)) else (inBand, out)

/-- Channels of TYPE 3 and 4 of a bank: the results whose windows touch a failure carry REF (R264). -/
def State.refTaint (s : State) (b : Nat) : State :=
  let chans := (List.range 8).map (8 * b + ·)
  { s with field := { s.field with refDirty := chans.foldl (fun l n => assocPut l n 3) s.field.refDirty } }

/-- A bank's reference fails: REFOK falls, flagged, counted and raised (R264). -/
def State.refFail (s : State) (b : Nat) : State :=
  let s0 := s.putRef b { s.ref b with settled := false, failed := true, inBand := 0, checks := 0 }
  let s1 := s0.onlyIf (s.ref b).ever (fun t => t.refTaint b)
  (((s1.setBit (Reg.AIN_BANK_b_STAT b) 0 false).setBit Reg.AIN_STAT 4 true).count Reg.AIN_CNT_REF).irqAin 2

/-- A bank's reference settles. -/
def State.refSettle (s : State) (b : Nat) : State :=
  let s1 := s.putRef b { s.ref b with settled := true, failed := false, ever := true, conv := true }
  (s1.setBit (Reg.AIN_BANK_b_STAT b) 0 true).irqAin 2

/-- The check of a bank's reference every 1 ms (R263, R538). -/
def State.refCheck (s : State) (b uv : Nat) : State :=
  if !(s.ref b).checking then s
  else
    let j := s.refJudge b uv
    let r := s.ref b
    let s0 := s.onlyIf (s.injBank b) (fun s => s.injRan Reg.AIN_INJ 3)
    let s1 := s0.setFld (Reg.AIN_BANK_b_REFUV b) 0 23 uv
    let s2 := s1.putRef b { r with inBand := if j.1 then r.inBand + 1 else 0, checks := r.checks + 1 }
    if r.settled then (if j.2 then s2.refFail b else s2)
    else if j.1 && 8 ≤ r.inBand + 1 then s2.refSettle b
    else if j.2 && r.ever && !r.failed then s2.refFail b
    else if 500 ≤ r.checks + 1 then s2.refFail b
    else s2

/-- A channel whose bank has not settled since the start reads VAL 0, with OVR and cause REF (R264). -/
def State.ainBlank (s : State) (n : Nat) : State := (s.wr (Reg.AIN_n_VAL n) 0#32).wr (Reg.AIN_n_FLAGS n) 0x11#32

/-- The checks of a bank start as at a start (R263): until its first settling its channels give no result (R264). -/
def State.refStart (s : State) (b : Nat) : State :=
  let s1 := (s.putRef b ⟨true, 0, 0, false, false, false, false⟩).setBit (Reg.AIN_BANK_b_STAT b) 0 false
  let chans := (List.range 8).map (8 * b + ·)
  let s2 := { s1 with field := { s1.field with refDirty := s1.field.refDirty.filter (fun e => !chans.contains e.1) } }
  s2.forEach chans State.ainBlank

/-- An activation restarts every channel of a bank: they convert from the boundary when the reference is settled, else
from its next settling (R537). -/
def State.refAgain (s : State) (b : Nat) : State := s.putRef b { s.ref b with conv := (s.ref b).settled }

/-! ## Calibration (R265 to R268) -/

/-- A bank's calibration. -/
def State.cal (s : State) (b : Nat) : CalState := s.field.cals.getD b ⟨none, 0, 0, 0, 0x40000000, none⟩

/-- Keep a bank's calibration. -/
def State.putCal (s : State) (b : Nat) (c : CalState) : State := { s with field := { s.field with cals := s.field.cals.set b c } }

/-- A channel's own coefficients. -/
def State.ownCoef (s : State) (n : Nat) : Int × Nat := assocGet (0, 0x40000000) s.field.coefs n

/-- A channel's results come from the spare slice: its own slice failed, or its step has passed 4 results (R266). -/
def State.fromSpare (s : State) (n : Nat) : Bool :=
  s.field.onSpare.contains n || ((s.cal (n / 8)).chan == some n && 4 ≤ (s.cal (n / 8)).seen)

/-- The coefficients of the slice that produces a channel's results. -/
def State.coefOf (s : State) (n : Nat) : Int × Nat :=
  if s.fromSpare n then ((s.cal (n / 8)).spareOfs, (s.cal (n / 8)).spareGain) else s.ownCoef n

/-- Show the coefficients of the slice in use (AIN_n_CAL_OFS, AIN_n_CAL_GAIN). -/
def State.showCoef (s : State) (n : Nat) : State :=
  let c := s.coefOf n
  (s.wr (Reg.AIN_n_CAL_OFS n) (wordOfInt c.1)).wr (Reg.AIN_n_CAL_GAIN n) (BitVec.ofNat 32 c.2)

/-- The used channels of a bank in ascending order from channel `c` on, twins included. -/
def State.usedFrom (s : State) (b c : Nat) : List Nat :=
  ((List.range 8).map (8 * b + ·)).filter (fun n => c ≤ n && s.ainType n != 0)

/-- AIN_CAL_CTRL.LAPS laps have passed since the start of the bank's last step (R265). -/
def State.calPaced (s : State) (b : Nat) : Bool := match (s.cal b).startLap with
  | none => true
  | some l => l + s.fld Reg.AIN_CAL_CTRL 16 16 ≤ s.lap.count

/-- A calibration step of a bank starts (R265, R266). At the start of a round the spare slice takes new coefficients. Its
arithmetic charges AIN at most 64 core-ticks on CORE; how many is free (R268). -/
def State.calStart (s : State) (b : Nat) (spareOfs : Int) (spareGain : Nat) : State :=
  let c := s.cal b
  if !s.bit Reg.AIN_CAL_CTRL 0 || s.bit (Reg.AIN_BANK_b_STAT b) 7 || c.chan.isSome || !s.calPaced b then s
  else
    let l := s.usedFrom b c.next
    let c1 := if l.isEmpty || c.next ≤ 8 * b then { c with spareOfs := spareOfs, spareGain := spareGain } else c
    match (if l.isEmpty then s.usedFrom b (8 * b) else l) with
    | [] => s.putCal b c1
    | n :: _ =>
      let f := s.freeBits 7
      let s0 := f.2.charge classAin resCore (f.1 % 65)
      let s1 := s0.putCal b { c1 with chan := some n, seen := 0, next := n + 1, startLap := some s.lap.count }
      ((s1.setBit (Reg.AIN_BANK_b_STAT b) 18 true).setBit (Reg.AIN_BANK_b_STAT b) 1 true).setFld
        (Reg.AIN_BANK_b_STAT b) 4 3 (n % 8)

/-- The limits of a step: OFS within 41,943 codes, GAIN from 0.99 to 1.01 (R268). -/
def calInLimits (ofs : Int) (gain : Nat) : Bool :=
  ofs.natAbs ≤ 41943 && 99 * 2 ^ 30 ≤ 100 * gain && 100 * gain ≤ 101 * 2 ^ 30

/-- A failed step: the channel stays on the spare slice and the bank's rounds stop (R268). -/
def State.calFail (s : State) (b n : Nat) (diff : Bool) : State :=
  let s1 := { s with field := { s.field with onSpare := n :: s.field.onSpare.filter (· != n) } }
  let s2 := ((s1.setBit (Reg.AIN_BANK_b_STAT b) 7 true).setBit (Reg.AIN_BANK_b_STAT b) (8 + n % 8) true).setBit
    (Reg.AIN_BANK_b_STAT b) 18 false
  let s3 := (((s2.setBit (Reg.AIN_n_STAT n) 6 true).setBit Reg.AIN_STAT 6 true).count Reg.AIN_CNT_CALFAIL).irqAin 3
  let s4 := s3.onlyIf diff (fun s => (s.setBit (Reg.AIN_n_STAT n) 5 true).setBit Reg.AIN_STAT 5 true)
  s4.raiseEv 0x0902 3 (leBytes 1 n ++ leBytes 1 diff.toNat)

/-- A calibration step of a bank ends (R266, R268): new coefficients, or a failure. `diff` is the largest difference of
the last 4 results of the two slices. -/
def State.calEnd (s : State) (b : Nat) (ofs : Int) (gain diff : Nat) : State := match (s.cal b).chan with
  | none => s
  | some n =>
    let inj := s.bit Reg.AIN_INJ 2 && s.injBank b
    let limits := calInLimits ofs gain != inj
    let apart := s.fld Reg.AIN_CAL_TOL 0 16 < diff
    let s0 := (s.onlyIf inj (fun s => s.injRan Reg.AIN_INJ 2)).putCal b { s.cal b with chan := none, seen := 0 }
    if limits && !apart then
      let s1 := { s0 with field := { s0.field with coefs := assocPut s0.field.coefs n (ofs, gain) } }
      (((s1.setBit (Reg.AIN_BANK_b_STAT b) 18 false).setBit (Reg.AIN_BANK_b_STAT b) 1 false).count Reg.AIN_CNT_CAL).showCoef n
    else (s0.calFail b n (limits && apart)).showCoef n

/-! ## Results (R256 to R261) -/

/-- The flags of a result: OVR, its causes, OPEN, REV, PLAUS. -/
structure ResFlags where
  conv : Bool
  range : Bool
  short : Bool
  ref : Bool
  openWire : Bool
  rev : Bool
  plaus : Bool
  deriving DecidableEq, Repr

/-- OVR has some cause. -/
def ResFlags.ovr (f : ResFlags) : Bool := f.conv || f.range || f.short || f.ref

/-- OVRCAUSE: the highest in the order REF, SHORT, CONV, RANGE (R260). -/
def ResFlags.cause (f : ResFlags) : Nat :=
  if f.ref then 1 else if f.short then 2 else if f.conv then 3 else if f.range then 4 else 0

/-- The result is valid (R260). -/
def ResFlags.valid (f : ResFlags) : Bool := !(f.ovr || f.openWire || f.rev || f.plaus)

/-- The word of AIN_n_FLAGS. -/
def ResFlags.word (f : ResFlags) (spare : Bool) : Word :=
  BitVec.ofNat 32 (f.ovr.toNat + 2 * f.openWire.toNat + 4 * f.rev.toNat + 8 * f.plaus.toNat + 16 * f.cause
    + 2 ^ 9 * spare.toNat + 2 ^ 10 * f.valid.toNat)

/-- OVR with cause RANGE: a result's own value meets the condition of Table 3. -/
def rangeFault (kind : Nat) (x : Int) : Bool := match kind with
  | 1 => !(rtdInRange x)
  | 2 => !(rtdInRange x)
  | 3 => x * 25000 < 3600 * 8388608 || 21000 * 8388608 < x * 25000
  | _ => x * 12500 < -200 * 8388608 || 10500 * 8388608 < x * 12500

/-- The line monitor's result under AIN_INJ.LINEMON (R538): none found gives OPEN, any found gives none. -/
def State.lineInj (s : State) (n : Nat) (m : LineMon) : LineMon :=
  if s.bit Reg.AIN_INJ 0 && s.fld Reg.AIN_INJ 8 5 == n then
    (if m.openWire || m.rev || m.short then ⟨false, false, false⟩ else ⟨true, false, false⟩)
  else m

/-- A flag becomes set after a result without it: counted, made sticky and recorded with the result's OVRCAUSE (R261). -/
def State.flagOnset (s : State) (n cnt stat chStat kind cause : Nat) : State :=
  (((s.count cnt).setBit Reg.AIN_STAT stat true).setBit (Reg.AIN_n_STAT n) chStat true).raiseEv 0x0901 2
    (leBytes 1 n ++ leBytes 1 kind ++ leBytes 1 cause)

/-- OVR, OPEN, REV and SHORT of a result, one bit each. -/
def ResFlags.marks (f : ResFlags) : Nat := f.ovr.toNat + 2 * f.openWire.toNat + 4 * f.rev.toNat + 8 * f.short.toNat

/-- The onsets of a result's flags against those of the channel's result before it (R261). -/
def State.flagOnsets (s : State) (n : Nat) (f : ResFlags) : State :=
  let was (i : Nat) : Bool := (assocGet 0 s.field.marks n).testBit i
  let on (i : Nat) : Bool := f.marks.testBit i && !was i
  let s1 := s.onlyIf (on 0) (fun s => s.flagOnset n Reg.AIN_CNT_OVR 0 0 0 f.cause)
  let s2 := s1.onlyIf (on 1) (fun s => s.flagOnset n Reg.AIN_CNT_OPEN 1 1 1 f.cause)
  let s3 := s2.onlyIf (on 2) (fun s => s.flagOnset n Reg.AIN_CNT_REV 2 2 2 f.cause)
  let s4 := s3.onlyIf (on 3) (fun s => s.flagOnset n Reg.AIN_CNT_SHORT 7 4 3 f.cause)
  let s5 := { s4 with field := { s4.field with marks := assocPut s4.field.marks n f.marks } }
  s5.onlyIf (on 0 || on 1 || on 2 || on 3) (fun s => s.irqAin 0)

/-- A calibrated code X and whether it overloads (R257). -/
def calibrate (code ofs : Int) (gain : Nat) (overload : Bool) : Int × Bool :=
  let x := divNear ((code - ofs) * gain) (2 ^ 30 : Nat)
  if overload || x > 0x7FFFFF || x < -0x800000 then (if code < 0 then -0x800000 else 0x7FFFFF, true) else (x, false)

/-- The pair of a channel, and whether the channel is its primary. -/
def State.pairOf (s : State) (n : Nat) : Option (Nat × Bool) :=
  if (n = 7 || n = 15) && (s.twinOf 15).isSome then some (0, n = 7)
  else if (n = 23 || n = 31) && (s.twinOf 31).isSome then some (1, n = 23)
  else none

/-- The state of pair `p`. -/
def State.plaus (s : State) (p : Nat) : PlausState := s.field.plaus.getD p ⟨false, false, 0, 0, false⟩

/-- Keep the state of pair `p`. -/
def State.putPlaus (s : State) (p : Nat) (x : PlausState) : State :=
  { s with field := { s.field with plaus := s.field.plaus.set p x } }

/-- PLAUS of a channel's newest result changes with its pair. -/
def State.markPlaus (s : State) (n : Nat) (on : Bool) : State :=
  let old := s.rd (Reg.AIN_n_FLAGS n)
  let w := putBit old 3 on
  let s1 := s.wr (Reg.AIN_n_FLAGS n) (putBit w 10 (!(bitOf w 0 || bitOf w 1 || bitOf w 2 || on)))
  if on && !bitOf old 3 then
    ((s1.flagOnset n Reg.AIN_CNT_PLAUS 3 3 4 0).count (Reg.AIN_n_CNT_BAD n)).irqAin 1
  else s1

/-- Compare the coincident results of pair `p` (R270): N pairs apart set PLAUS on both channels, N within clear it. -/
def State.plausCompare (s : State) (p : Nat) : State :=
  let a := if p = 0 then 7 else 23
  let b := if p = 0 then 15 else 31
  let bad (n : Nat) : Bool := s.bit (Reg.AIN_n_FLAGS n) 0 || s.bit (Reg.AIN_n_FLAGS n) 1 || s.bit (Reg.AIN_n_FLAGS n) 2
  let x := { s.plaus p with haveA := false, haveB := false }
  if bad a || bad b then s.putPlaus p x
  else
    let inj := s.bit Reg.AIN_INJ 1 && s.bit Reg.AIN_INJ 17 == (p == 1)
    let tol := s.fld (Reg.AIN_PLAUS_0 + 4 * p) 0 24
    let nn := s.fld (Reg.AIN_PLAUS_0 + 4 * p) 24 8
    let apart := (tol < (s.int (Reg.AIN_n_VAL a) - s.int (Reg.AIN_n_VAL b)).natAbs) != inj
    let s1 := s.onlyIf inj (fun s => s.injRan Reg.AIN_INJ 1)
    let y := { x with apart := if apart then x.apart + 1 else 0, within := if apart then 0 else x.within + 1 }
    if apart && !x.on && nn ≤ y.apart then
      ((s1.putPlaus p { y with on := true }).markPlaus a true).markPlaus b true
    else if !apart && x.on && nn ≤ y.within then
      ((s1.putPlaus p { y with on := false }).markPlaus a false).markPlaus b false
    else s1.putPlaus p y

/-- A result of a paired channel has come: when both have, they are compared. -/
def State.plausResult (s : State) (n : Nat) : State := match s.pairOf n with
  | none => s
  | some (p, primary) =>
    let x := s.plaus p
    let y := if primary then { x with haveA := true } else { x with haveB := true }
    let s1 := s.putPlaus p y
    if y.haveA && y.haveB then s1.plausCompare p else s1

/-- A result whose window touches a reference failure counts down to the first clean one (R264). -/
def State.refWindow (s : State) (n : Nat) : State :=
  if (s.ref (n / 8)).failed then s
  else
    match assocGet 0 s.field.refDirty n with
    | 0 => s
    | 1 => { s with field := { s.field with refDirty := assocDel s.field.refDirty n } }
    | k + 1 => { s with field := { s.field with refDirty := assocPut s.field.refDirty n k } }

/-- A channel converts: its TYPE is used and its bank's reference has settled since the start or activation (R264, R537). -/
def State.converts (s : State) (n : Nat) : Bool :=
  s.imgRuns && s.ainType n != 0 && (s.ref (n / 8)).checking && (s.ref (n / 8)).conv

/-- A conversion result of a channel completes (R256 to R261, R266, R270). -/
def State.ainResult (s : State) (n : Nat) (code : Int) (overload : Bool) (line : LineMon) : State :=
  if !s.converts n then s
  else
    let b := n / 8
    let s0 := if (s.cal b).chan == some n then s.putCal b { s.cal b with seen := (s.cal b).seen + 1 } else s
    let spare := s.fromSpare n
    let c := s.coefOf n
    let r := calibrate code c.1 c.2 overload
    let m := s.lineInj n line
    let kind := s.ainType n
    let plausOn := match s.pairOf n with
      | some (p, _) => (s.plaus p).on
      | none => false
    let refBad := (kind == 3 || kind == 4) && ((s.ref b).failed || assocGet 0 s.field.refDirty n != 0)
    let f : ResFlags := ⟨r.2, rangeFault kind r.1, m.short && kind != 4, refBad, m.openWire, m.rev, plausOn⟩
    let s1 := s0.onlyIf (s.fld Reg.AIN_INJ 8 5 == n) (fun s => s.injRan Reg.AIN_INJ 0)
    let s2 := s1.flagOnsets n f
    let s3 := (s2.wr (Reg.AIN_n_RAW n) (wordOfInt r.1)).wr (Reg.AIN_n_FIELD n) (wordOfInt r.1)
    let s4 := (s3.wr (Reg.AIN_n_VAL n) (satWord (s.valOf n r.1 (Config.free s.free)))).wr (Reg.AIN_n_FLAGS n) (f.word spare)
    let s5 := (s4.wr (Reg.AIN_n_STAMP n) (BitVec.ofNat 32 s.now)).count (Reg.AIN_n_CNT_CONV n)
    let s6 := (((s5.showCoef n).refWindow n).nextFree).plausResult n
    let plausOnly := f.plaus && !(f.ovr || f.openWire || f.rev)
    s6.onlyIf (!f.valid && !(plausOnly && s6.bit (Reg.AIN_n_FLAGS n) 10)) (fun s => s.count (Reg.AIN_n_CNT_BAD n))

/-! ## Outputs (R249, R272, R277) -/

/-- STATE of the program: 0 NOIMG, 1 STOPPED, 2 RUNNING. -/
def State.fbpState (s : State) : Nat := s.fld Reg.FBP_STATE 0 2

/-- The outputs hold the safe values of a stopped program: it is stopped, or its first apply instant after a restart has
not passed (R243). -/
def State.programSafe (s : State) : Bool := s.fbpState != 2 || s.fbp.safeHold

/-- The code of an analog output and the state that drives it (Table 5, R249). States without a code read code 0. -/
def State.aoOut (s : State) (n : Nat) : Nat × Nat :=
  if !s.imgRuns || s.aoMode n = 0 then (0, 0)
  else if !s.gatesOpen then (0, 4)
  else if s.field.supplyOff then (0, 5)
  else if s.forced 3 n then (s.forceValue 3 n, 2)
  else if s.programSafe then (s.aoSafe n, 3)
  else if s.aoDriver n = 0 then (s.aoSafe n, 3)
  else match s.field.aoDrv.find? (fun e => e.1 == n) with
    | some e => (e.2, 1)
    | none => (s.aoSafe n, 3)

/-- AOUT_n_OUT. -/
def State.aoOutReg (s : State) (n : Nat) : Word := BitVec.ofNat 32 ((s.aoOut n).1 + (s.aoOut n).2 * 2 ^ 16)

/-- A digital output's state by the precedence of R249, before trips. -/
def State.doWanted (s : State) (n : Nat) : Bool :=
  if !s.imgRuns || !s.gatesOpen then false
  else if s.field.supplyOff then false
  else if s.forced 1 n then s.forceValue 1 n == 1
  else if s.programSafe then s.doSafe n
  else match s.doDriver n with
    | 1 => (match s.field.doImage.find? (fun e => e.1 == n) with
      | some e => e.2
      | none => s.doSafe n)
    | 3 => if s.field.doFw then s.bit Reg.DIO_DO_SET n else s.doSafe n
    | _ => s.doSafe n

/-- A digital output is on at its terminal: wanted, not tripped, not latched off, not waiting its turn. -/
def State.doOn (s : State) (n : Nat) : Bool :=
  s.doWanted n && !s.field.tripped.contains n && !s.bit (Reg.DIO_DO_n_STAT n) 16 && !s.field.doLater.contains n

/-- DIO_DO_OUT. -/
def State.doOut (s : State) : Word :=
  BitVec.ofNat 32 ((List.range 16).foldl (fun w n => w + (s.doOn n).toNat * 2 ^ n) 0)

/-- Switch outputs on at most 8 per tick (R238, R282): the first 8 of the list at once, the rest over the following
ticks. -/
def State.doGroup (s : State) (l : List Nat) : State := { s with field := { s.field with doLater := l.drop 8 } }

/-- A tick passes: 8 more of the waiting outputs switch on. -/
def State.doTick (s : State) : State := { s with field := { s.field with doLater := s.field.doLater.drop 8 } }

/-- A driver value E as a code (R272), unclamped. -/
def State.aoScale (s : State) (n : Nat) (e : Int) : Int :=
  let elo := s.iomapInt (0x224 + 16 * n) 4
  let ehi := s.iomapInt (0x228 + 16 * n) 4
  let clo : Int := s.iomap (0x22C + 16 * n) 2
  let chi : Int := s.iomap (0x22E + 16 * n) 2
  clo + divNear ((e - elo) * (chi - clo)) (ehi - elo)

/-- CLO and CHI of an analog output. -/
def State.aoLimits (s : State) (n : Nat) : Nat × Nat := (s.iomap (0x22C + 16 * n) 2, s.iomap (0x22E + 16 * n) 2)

/-- A code clamped to CLO to CHI. -/
def State.aoClamp (s : State) (n : Nat) (c : Int) : Nat := (clampInt (s.aoLimits n).1 (s.aoLimits n).2 c).toNat

/-- A driver gives an analog output a code. -/
def State.aoDrive (s : State) (n : Nat) (code : Nat) : State :=
  { s with field := { s.field with aoDrv := assocPut s.field.aoDrv n code } }

/-- An analog output without a code of its driver takes its safe value: state SAFE of Table 5. -/
def State.aoRelease (s : State) (n : Nat) : State :=
  { s with field := { s.field with aoDrv := assocDel s.field.aoDrv n } }

/-! ## Analog output faults (R275, R276) -/

/-- AOUT_INJ names an output. -/
def State.injAo (s : State) (n : Nat) : Bool := s.fld Reg.AOUT_INJ 8 4 == n

/-- Bits of a fault in the registers: sticky bit, and its counter. -/
def aoFaultBit : AoFault → Nat
  | .short => 0 | .openLoad => 1 | .rev => 2

/-- The counter of a fault. -/
def aoFaultCnt : AoFault → Nat
  | .short => Reg.AOUT_CNT_SHORT | .openLoad => Reg.AOUT_CNT_OPEN | .rev => Reg.AOUT_CNT_REV

/-- AOUT_INJ inverts the test of a fault: SHORTCHK, OPENCHK. -/
def State.aoInj (s : State) (n : Nat) : AoFault → Bool
  | .short => s.bit Reg.AOUT_INJ 0 && s.injAo n
  | .openLoad => s.bit Reg.AOUT_INJ 1 && s.injAo n
  | .rev => false

/-- The test of a fault has run. -/
def State.aoInjRan (s : State) (n : Nat) : AoFault → State
  | .short => s.onlyIf (s.injAo n) (fun s => s.injRan Reg.AOUT_INJ 0)
  | .openLoad => s.onlyIf (s.injAo n) (fun s => s.injRan Reg.AOUT_INJ 1)
  | .rev => s

/-- The faults that Table 4 judges in an output's mode: SHORT and REV in either, OPEN in current mode. -/
def State.aoJudged (s : State) (n : Nat) (k : AoFault) : Bool := match k with
  | .openLoad => s.aoMode n = 1
  | _ => s.aoMode n = 1 || s.aoMode n = 2

/-- A test of a fault condition of an analog output, persisted for its whole time (R276, R538): the onset sets the sticky
bits, counts and records; the NOW bit follows the condition. -/
def State.aoTest (s : State) (n : Nat) (k : AoFault) (present : Bool) : State :=
  let now := present != s.aoInj n k
  let s1 := s.aoInjRan n k
  let i := aoFaultBit k
  if !s.aoJudged n k then s
  else if now && !s1.bit (Reg.AOUT_n_STAT n) (16 + i) then
    let s2 := ((s1.setBit (Reg.AOUT_n_STAT n) (16 + i) true).setBit (Reg.AOUT_n_STAT n) i true).setBit Reg.AOUT_STAT i true
    ((s2.count (aoFaultCnt k)).irqAout 0).raiseEv 0x0A01 2 (leBytes 1 n ++ leBytes 1 i)
  else s1.setBit (Reg.AOUT_n_STAT n) (16 + i) now

/-- The condition of a fault ends: its NOW bit clears. -/
def State.aoFaultEnd (s : State) (n : Nat) (k : AoFault) : State :=
  s.setBit (Reg.AOUT_n_STAT n) (16 + aoFaultBit k) false

/-- The span of an output's readback: µA in current mode, mV in voltage mode. -/
def State.aoSpan (s : State) (n : Nat) : Int := if s.aoMode n = 1 then 24000 else 12000

/-- Readback and set value differ by more than AOUT_DEV.TOL codes, converted at the output's mode (R275). -/
def State.aoDeviates (s : State) (n : Nat) (v : Int) : Bool :=
  s.fld Reg.AOUT_DEV 0 16 * (s.aoSpan n).natAbs < (v * 65536 - ((s.aoOut n).1 : Int) * s.aoSpan n).natAbs

/-- The state of an output drives a code. -/
def State.aoDrives (s : State) (n : Nat) : Bool := let k := (s.aoOut n).2; k == 1 || k == 2 || k == 3

/-- The readback of an analog output every 1 ms; 8 consecutive deviating readings set DEV, an inverted comparison at
once (R275, R538). -/
def State.aoReadback (s : State) (n : Nat) (v : Int) : State :=
  let s0 := s.wr (Reg.AOUT_n_RB n) (wordOfInt v)
  if !s.aoDrives n || s.fld (Reg.AOUT_n_STAT n) 16 3 != 0 then
    { s0 with field := { s0.field with aoDev := assocDel s0.field.aoDev n } }
  else
    let inj := s.bit Reg.AOUT_INJ 2 && s.injAo n
    let dev := s.aoDeviates n v != inj
    let s1 := s0.onlyIf inj (fun s => s.injRan Reg.AOUT_INJ 2)
    let k := if dev then (if inj then 8 else assocGet 0 s.field.aoDev n + 1) else 0
    let l := if k = 0 then assocDel s1.field.aoDev n else assocPut s1.field.aoDev n k
    let s2 := { s1 with field := { s1.field with aoDev := l } }
    if k = 8 then
      (((s2.setBit (Reg.AOUT_n_STAT n) 3 true).setBit Reg.AOUT_STAT 3 true).count Reg.AOUT_CNT_DEV).irqAout 1
    else s2

/-! ## Digital inputs (R278, R279) -/

/-- COUNT is set for a digital input, and its EDGE counts a change to a level. -/
def State.diCounts (s : State) (n : Nat) (level : Bool) : Bool :=
  (s.iomap (0x360 + 4 * n) 1).testBit 1 && (match s.iomap (0x361 + 4 * n) 1 with
    | 0 => level
    | 1 => !level
    | _ => true)

/-- The filtered state of an input takes a level; a change is a counted edge (R279). -/
def State.diTake (s : State) (n : Nat) (level : Bool) : State :=
  if s.bit (Reg.DIO_DI_n_STAT n) 16 = level then s
  else
    let s1 := (s.setBit (Reg.DIO_DI_n_STAT n) 16 level).setBit Reg.DIO_DI_STATE n level
    s1.onlyIf (s.diCounts n level) (fun s => s.wr (Reg.DIO_DI_n_CNT n) (s.rd (Reg.DIO_DI_n_CNT n) + 1))

/-- DIO_DI_VALID and LINEOK of an input. -/
def State.diOk (s : State) (n : Nat) (ok : Bool) : State :=
  (s.setBit Reg.DIO_DI_VALID n ok).setBit (Reg.DIO_DI_n_STAT n) 17 ok

/-- LINEMON of a digital input. -/
def State.lineMon (s : State) (n : Nat) : Bool := (s.iomap (0x360 + 4 * n) 1).testBit 0

/-- The level that an input takes: with LINEMON the one that Table 6 gives its current, which between 1.5 mA and 2.0 mA is
the last one; without it the level that its voltage gives. -/
def State.diLevel (s : State) (n : Nat) (level : Bool) (ua : Int) : Bool :=
  if !s.lineMon n then level
  else if ua ≤ 1500 then false
  else if ua < 2000 then s.bit (Reg.DIO_DI_n_STAT n) 16
  else true

/-- An input's level is accepted after its filter time, and shows its line well; a line fault holds its own state
(Table 6). -/
def State.diChange (s : State) (n : Nat) (level : Bool) (ua : Int) : State :=
  let s1 := s.wr (Reg.DIO_DI_n_UA n) (wordOfInt ua)
  if assocHas s.field.diFault n then s1 else (s1.diTake n (s.diLevel n level ua)).diOk n true

/-- A raw edge less than 20 µs after the one before it sets RATE (R279). -/
def State.rawEdge (s : State) (n : Nat) (close : Bool) : State :=
  if close then (s.setBit (Reg.DIO_DI_n_STAT n) 3 true).setBit Reg.DIO_STAT 9 true else s

/-- Number of a line fault: 0 OPEN, 1 SHORT, 2 REV. -/
def diFaultNum : DiFault → Nat
  | .openLine => 0 | .short => 1 | .rev => 2

/-- OPEN and SHORT are judged only with LINEMON (R278). -/
def State.diJudged (s : State) (n : Nat) (k : DiFault) : Bool := k == .rev || s.lineMon n

/-- The input current lies in a fault's range of Table 6. Without LINEMON the input draws 3.3 kΩ, and REV stands below
-3 V. -/
def State.diCurrent (s : State) (n : Nat) (k : DiFault) (ua : Int) : Bool := match k with
  | .openLine => 0 ≤ ua && ua < 300
  | .short => 5500 < ua
  | .rev => if s.lineMon n then ua < 0 else ua * 33 < -30000

/-- The line of an input is well again (R278). -/
def State.diFaultEnd (s : State) (n : Nat) : State :=
  ({ s with field := { s.field with diFault := assocDel s.field.diFault n } }).diOk n true

/-- A line fault of an input begins (R278): sticky bits, count and event, and the state becomes off, or on for SHORT. -/
def State.diOnset (s : State) (n : Nat) (k : DiFault) : State :=
  let i := diFaultNum k
  let s1 := { s with field := { s.field with diFault := assocPut s.field.diFault n k } }
  let s2 := ((s1.setBit (Reg.DIO_DI_n_STAT n) i true).setBit Reg.DIO_STAT i true).diOk n false
  let s3 := ((s2.count Reg.DIO_CNT_DIFAULT).irqDio 0).raiseEv 0x0B01 2 (leBytes 1 n ++ leBytes 1 i)
  s3.diTake n (k == .short)

/-- A line test of an input, persisted 1 ms (R278, R538). The faults of Table 6 exclude one another: one that is found
takes the place of another, and one that is absent ends only itself. -/
def State.diTest (s : State) (n : Nat) (k : DiFault) (present : Bool) (ua : Int) : State :=
  let s0 := s.wr (Reg.DIO_DI_n_UA n) (wordOfInt ua)
  if !s.diJudged n k then s0
  else
    let inj := s.bit Reg.DIO_INJ 0 && s.fld Reg.DIO_INJ 8 5 == n
    let now := (present && s.diCurrent n k ua) != inj
    let s1 := s0.onlyIf inj (fun s => s.injRan Reg.DIO_INJ 0)
    let has := s.field.diFault.contains (n, k)
    if now then (if has then s1 else s1.diOnset n k)
    else if has then s1.diFaultEnd n
    else s1

/-- DIO_DI_STATE with the forced inputs (R271). -/
def State.diState (s : State) : Word :=
  (List.range 32).foldl (fun w n => if s.forced 0 n then putBit w n (s.forceValue 0 n == 1) else w) (s.rd Reg.DIO_DI_STATE)

/-- DIO_DI_VALID: a forced input reads valid (R248). -/
def State.diValid (s : State) : Word := s.rd Reg.DIO_DI_VALID ||| s.rd (Reg.FBP_FORCE_MASK_c 0)

/-- DIO_DI_n_CNT with a forced count (R271). -/
def State.diCnt (s : State) (n : Nat) : Word :=
  if s.forced 4 n then BitVec.ofNat 32 (s.forceValue 4 n) else s.rd (Reg.DIO_DI_n_CNT n)

/-! ## Digital output faults (R280, R281) -/

/-- A fault of a digital output is counted, flagged and recorded. -/
def State.doOnset (s : State) (n stat chBit cnt num : Nat) : State :=
  (((s.setBit Reg.DIO_STAT stat true).setBit (Reg.DIO_DO_n_STAT n) chBit true).count cnt |>.irqDio 1).raiseEv 0x0B02 2
    (leBytes 1 n ++ leBytes 1 num)

/-- TRIES of an output. -/
def State.doTries (s : State) (n : Nat) : Nat := s.fld (Reg.DIO_DO_n_STAT n) 17 4

/-- The output latches off (R280). -/
def State.doLatch (s : State) (n : Nat) : State :=
  (((s.setBit (Reg.DIO_DO_n_STAT n) 16 true).setBit Reg.DIO_STAT 6 true).irqDio 3).raiseEv 0x0B02 2
    (leBytes 1 n ++ leBytes 1 3)

/-- The overcurrent test of a digital output that is on (R280, R538): a trip switches it off and sets SHORT; a retry that
trips is a failed try; at TRIES = N it latches off. -/
def State.doTrip (s : State) (n : Nat) (tooMuch : Bool) (ma : Nat) : State :=
  if !s.doOn n then s
  else
    let inj := s.bit Reg.DIO_INJ 1 && s.fld Reg.DIO_INJ 8 5 == n
    let s0 := (s.onlyIf inj (fun s => s.injRan Reg.DIO_INJ 1)).setFld (Reg.DIO_DO_n_MA n) 0 12 (satNat 12 ma)
    if tooMuch != inj then
      let again := s.field.retried.contains n
      let s1 := { s0 with field := { s0.field with tripped := n :: s0.field.tripped, retried := s0.field.retried.filter (· != n) } }
      let s2 := s1.onlyIf again (fun s => s.setFld (Reg.DIO_DO_n_STAT n) 17 4 (s.doTries n + 1))
      let s3 := s2.doOnset n 3 0 Reg.DIO_CNT_DOSHORT 0
      s3.onlyIf (s3.fld Reg.DIO_DO_RETRY 16 4 ≤ s3.doTries n) (fun s => s.doLatch n)
    else s0

/-- After DIO_DO_RETRY.MS a tripped output that is not latched is switched on again (R280). -/
def State.doRetry (s : State) (n : Nat) : State :=
  if s.field.tripped.contains n && !s.bit (Reg.DIO_DO_n_STAT n) 16 then
    let back := if s.doWanted n then n :: s.field.retried else s.field.retried
    { s with field := { s.field with tripped := s.field.tripped.filter (· != n), retried := back } }
  else s

/-- CLRFAULT clears LATCHED and the try count (R280). -/
def State.doClear (s : State) (n : Nat) : State :=
  let latched := s.bit (Reg.DIO_DO_n_STAT n) 16
  let s1 := (s.setBit (Reg.DIO_DO_n_STAT n) 16 false).setFld (Reg.DIO_DO_n_STAT n) 17 4 0
  let t := if latched then s.field.tripped.filter (· != n) else s.field.tripped
  { s1 with field := { s1.field with tripped := t, retried := s.field.retried.filter (· != n) } }

/-- Number of a fault of R281: 1 OPEN, 2 REV. -/
def doFaultNum : DoFault → Nat
  | .openLoad => 1 | .rev => 2

/-- What an output's level ends: OPEN is a condition of an output that is on, REV of one that is off (R281). -/
def State.doSettle (s : State) (n : Nat) : State :=
  let gone : DoFault := if s.doOn n then .rev else .openLoad
  { s with field := { s.field with doFault := s.field.doFault.filter (fun e => e != (n, gone)) } }

/-- A test of a digital output's OPEN or REV condition, persisted 10 ms (R281, R538). OPEN is tested only on an output
with OPENDET that is on, REV only while it is off. -/
def State.doTest (was : State) (n : Nat) (k : DoFault) (present : Bool) (ma : Nat) : State :=
  let s := was.doSettle n
  let runs := match k with
    | .openLoad => s.doOn n && (s.iomap (0x322 + 4 * n) 1).testBit 0
    | .rev => !s.doOn n
  if !runs then s
  else
    let inj := k == .openLoad && s.bit Reg.DIO_INJ 2 && s.fld Reg.DIO_INJ 8 5 == n
    let s0 := (s.onlyIf inj (fun s => s.injRan Reg.DIO_INJ 2)).setFld (Reg.DIO_DO_n_MA n) 0 12 (satNat 12 ma)
    let had := s.field.doFault.contains (n, k)
    if present != inj then
      if had then s0
      else
        let s1 := { s0 with field := { s0.field with doFault := (n, k) :: s0.field.doFault } }
        match k with
        | .openLoad => s1.doOnset n 4 1 Reg.DIO_CNT_DOOPEN 1
        | .rev => s1.doOnset n 5 2 Reg.DIO_CNT_DOREV 2
    else { s0 with field := { s0.field with doFault := s0.field.doFault.filter (fun e => e != (n, k)) } }

/-! ## The field supply (R283) -/

/-- The field supply is measured every 1 ms: low or reversed switches every output off. -/
def State.supplyCheck (s : State) (mv : Nat) (rev : Bool) : State :=
  let inj := s.bit Reg.DIO_INJ 3
  let lost := (rev || mv < 16000) != inj
  let ok := if inj then !lost else !rev && 19200 ≤ mv && mv ≤ 30000
  let s0 := s.injRan Reg.DIO_INJ 3
  let s1 := ((s0.setFld Reg.DIO_FLD 0 16 (if rev then 0 else mv)).setBit Reg.DIO_FLD 17 rev).setBit Reg.DIO_FLD 16 ok
  let s2 := s1.onlyIf (s.bit Reg.DIO_FLD 16 != ok) (fun s => s.irqDio 2)
  let good := if !lost && !rev && (19200 ≤ mv || inj) then s.field.supplyGood + 1 else 0
  let s3 := { s2 with field := { s2.field with supplyGood := good, supplyOff := s2.field.supplyOff || lost } }
  let wasLow := s.bit Reg.DIO_FLD 17 || s.fld Reg.DIO_FLD 0 16 < 16000
  if lost then (s3.setBit Reg.DIO_STAT (if rev then 8 else 7) true).onlyIf (!wasLow) (fun s => s.count Reg.DIO_CNT_FLD)
  else s3

/-- The supply has stood 100 ms at 19.2 V or more, a measurement each ms: the outputs return (R283). -/
def State.supplyReturn (s : State) : State :=
  if s.field.supplyGood < 100 then s else { s with field := { s.field with supplyOff := false } }

end Sys2Proof.Machine
end

