-- ==== Sys2Proof/Machine/CanOps.lean ====
section
/-!
DEFINITION. Machine/CanOps.lean: the operations of spec/12_can_fd_channels.md: bit timing (R314, R315), modes (R316),
error states (R312, R313), filters, queues and received signals (R319 to R323), transmit buffers (R324 to R328), line
faults (R332, R333). STATE: 0 CONFIG, 1 INTEGRATING, 2 ERROR_ACTIVE, 3 ERROR_PASSIVE, 4 BUSOFF, 5 LISTEN, 6 LINEFAULT,
7 RESTRICTED.
-/

namespace Sys2Proof.Machine

/-- Channel `ch`. -/
def State.canCh (s : State) (ch : Nat) : CanChan := s.can.getD ch canIdle

/-- Keep channel `ch`. -/
def State.putCan (s : State) (ch : Nat) (c : CanChan) : State := { s with can := s.can.set ch c }

/-- CANn_STATE.STATE. -/
def State.canState (s : State) (ch : Nat) : Nat := s.fld (Reg.CAN_STATE ch) 0 3

/-- STATE changes (CANn_IRQ.STATE). -/
def State.canTo (s : State) (ch k : Nat) : State :=
  if s.canState ch = k then s else (s.setFld (Reg.CAN_STATE ch) 0 3 k).irqCan ch 3

/-- TEC, and REC with RP above 127. -/
def State.canTec (s : State) (ch : Nat) : Nat := s.fld (Reg.CAN_STATE ch) 8 8
def State.canRec (s : State) (ch : Nat) : Nat := s.fld (Reg.CAN_STATE ch) 16 7 + (if s.bit (Reg.CAN_STATE ch) 23 then 1 else 0)

/-- Set TEC. -/
def State.setTec (s : State) (ch v : Nat) : State := s.setFld (Reg.CAN_STATE ch) 8 8 v

/-- Set REC; RP shows a count above 127. -/
def State.setRec (s : State) (ch v : Nat) : State :=
  (s.setFld (Reg.CAN_STATE ch) 16 7 (min 127 v)).setBit (Reg.CAN_STATE ch) 23 (127 < v)

/-- The channel takes part in the bus: it receives. -/
def State.canTakesPart (s : State) (ch : Nat) : Bool :=
  let k := s.canState ch
  k == 2 || k == 3 || k == 5 || k == 7

/-! ## Bit timing (R314, R315) -/

/-- Quanta of a nominal bit times NBRP. -/
def nominalDiv (v : Word) : Nat := bitsOf v 0 6 * (1 + bitsOf v 8 9 + bitsOf v 17 7)

/-- Quanta of a data bit times DBRP. -/
def dataDiv (v : Word) : Nat := bitsOf v 0 6 * (1 + bitsOf v 8 6 + bitsOf v 16 5)

/-- The data rate of a channel is configured. -/
def dataConfigured (v : Word) : Bool := bitsOf v 0 6 != 0

/-- The rates of a pair of timing registers lie in their ranges: 10 kbit/s to 1 Mbit/s, and the nominal rate to
8 Mbit/s. A register that no image or write has set is not judged. -/
def ratesGood (nbt dbt : Word) : Bool :=
  let n := nominalDiv nbt
  let d := dataDiv dbt
  (bitsOf nbt 0 6 = 0 || (80 ≤ n && n ≤ 8000)) && (!dataConfigured dbt || (10 ≤ d && (bitsOf nbt 0 6 = 0 || d ≤ n)))

/-- The fields of CANn_NBT lie in their ranges. -/
def nbtGood (v : Word) : Bool :=
  1 ≤ bitsOf v 0 6 && bitsOf v 0 6 ≤ 32 && 2 ≤ bitsOf v 8 9 && bitsOf v 8 9 ≤ 256 && 2 ≤ bitsOf v 17 7
    && 1 ≤ bitsOf v 24 7 && bitsOf v 24 7 ≤ bitsOf v 17 7

/-- The fields of CANn_DBT lie in their ranges. -/
def dbtGood (v : Word) : Bool :=
  1 ≤ bitsOf v 0 6 && bitsOf v 0 6 ≤ 32 && 1 ≤ bitsOf v 8 6 && bitsOf v 8 6 ≤ 32 && 1 ≤ bitsOf v 16 5
    && bitsOf v 16 5 ≤ 16 && 1 ≤ bitsOf v 24 5 && bitsOf v 24 5 ≤ bitsOf v 16 5

/-- The judgement of a write of NBT (0), DBT (1) or TDC (2). -/
def State.timingDeny (s : State) (ch k : Nat) (v : Word) : Option Status :=
  let nbt := if k = 0 then v else s.rd (Reg.CAN_NBT ch)
  let dbt := if k = 1 then v else s.rd (Reg.CAN_DBT ch)
  let fields := if k = 0 then nbtGood v else if k = 1 then dbtGood v else true
  if !fields || !ratesGood nbt dbt then some .range
  else if s.fld (Reg.CAN_CTRL ch) 0 2 ≠ 0 then some .locked
  else none

/-- The judgement of a write of CANn_CTRL: one that sets MODE to NORMAL or RESTRICTED (R315). -/
def State.canCtrlDeny (s : State) (ch : Nat) (v : Word) : Option Status :=
  let m := bitsOf v 0 2
  let dbt := s.rd (Reg.CAN_DBT ch)
  if (m = 1 || m = 3) && dataConfigured dbt
      && ((dataDiv dbt < 80 && !bitOf v 9) || (bitOf v 9 && 2 < bitsOf dbt 0 6)) then some .range
  else none

/-! ## Transmit buffers -/

/-- OWNER of a buffer: 0 FIRMWARE, 1 LOOP, 2 FBP. -/
def State.txOwner (s : State) (ch b : Nat) : Nat := s.fld (Reg.CAN_TXB_b_FMT ch b) 8 2

/-- READY of a buffer. -/
def State.txReady (s : State) (ch b : Nat) : Bool := s.bit (Reg.CAN_TXB_b_CTRL ch b) 0

/-- A LOOP or FBP buffer while the interlock does not let the module drive (R328). -/
def State.txGated (s : State) (ch b : Nat) : Bool := s.txOwner ch b != 0 && !s.gatesOpen

/-- CANn_TXB_b_CTRL as it reads. -/
def State.txCtrl (s : State) (ch b : Nat) : Word := putBit (s.rd (Reg.CAN_TXB_b_CTRL ch b)) 10 (s.txGated ch b)

/-- A request begins: READY is set, DONE and FAILED are those of the last request no longer. -/
def State.txRequest (s : State) (ch b : Nat) : State :=
  s.wr (Reg.CAN_TXB_b_CTRL ch b) 1#32

/-- A request ends (R326): DONE or FAILED, READY clear, TXDONE raised. -/
def State.txFinish (s : State) (ch b : Nat) (done : Bool) : State :=
  let s1 := (s.wr (Reg.CAN_TXB_b_CTRL ch b) (if done then 0x100#32 else 0x200#32)).irqCan ch 2
  s1.onlyIf (!done) (fun s => s.setBit (Reg.CAN_STAT ch) 6 true)

/-- The judgement of READY (R324). -/
def State.readyDeny (s : State) (ch b : Nat) : Bool :=
  let id := s.rd (Reg.CAN_TXB_b_ID ch b)
  let fmt := s.rd (Reg.CAN_TXB_b_FMT ch b)
  let fd := bitOf fmt 4
  (fd && bitOf id 30) || (!fd && bitOf fmt 5) || (!bitOf id 29 && bitsOf id 11 18 != 0)
    || (fd && !dataConfigured (s.rd (Reg.CAN_DBT ch)))

/-- The judgement of a write to word `w` of a buffer (R324). -/
def State.txbDeny (s : State) (ch b w : Nat) (v : Word) : Option Status :=
  if s.txOwner ch b ≠ 0 then some .locked
  else if 1 ≤ w then (if s.txReady ch b then some .busy else none)
  else if bitOf v 0 && s.readyDeny ch b then some .range
  else none

/-- ABORT of a buffer (R326): during its own transmission it takes effect at the end. -/
def State.txAbort (s : State) (ch b : Nat) : State :=
  if !s.txReady ch b then s
  else
    match (s.canCh ch).tx with
    | some t => if t.buf = b then s.putCan ch { s.canCh ch with tx := some { t with abort := true } } else s.txFinish ch b false
    | none => s.txFinish ch b false

/-- A firmware write to word `w` of a buffer: ID and FMT keep OWNER and the reserved bits; STAMP is read only. -/
def State.txbWrite (s : State) (ch b w : Nat) (v : Word) : State := match w with
  | 0 =>
    let s1 := s.onlyIf (bitOf v 0 && !s.txReady ch b) (fun s => s.txRequest ch b)
    s1.onlyIf (bitOf v 1) (fun s => s.txAbort ch b)
  | 1 => s.wr (Reg.CAN_TXB_b_ID ch b) (v &&& 0x7FFFFFFF#32)
  | 2 => s.wr (Reg.CAN_TXB_b_FMT ch b) ((s.rd (Reg.CAN_TXB_b_FMT ch b) &&& 0x300#32) ||| (v &&& 0x7F#32))
  | 3 => s
  | _ => s.wr (Reg.CAN_TXB_b_DATA_i ch b (w - 4)) v

/-- The bits of an identifier as arbitration sends them. -/
def arbKey (id : Word) : Nat :=
  let rtr := bitsOf id 30 1
  if bitOf id 29 then bitsOf id 18 11 * 2 ^ 21 + 2 ^ 20 + 2 ^ 19 + bitsOf id 0 18 * 2 + rtr
  else bitsOf id 0 11 * 2 ^ 21 + rtr * 2 ^ 20

/-- Data length of a DLC (R312). -/
def dlcLen (fd : Bool) (dlc : Nat) : Nat :=
  if dlc ≤ 8 then dlc
  else if !fd then 8
  else match dlc with
    | 9 => 12 | 10 => 16 | 11 => 20 | 12 => 24 | 13 => 32 | 14 => 48 | _ => 64

/-- The 64 data bytes of a buffer. -/
def State.txData (s : State) (ch b : Nat) : List Byte :=
  bytesOfWords ((List.range 16).map (fun i => s.rd (Reg.CAN_TXB_b_DATA_i ch b i)))

/-- The frame that the channel offers next (R325, R328). -/
def State.txNext (s : State) (ch : Nat) : Option Nat :=
  ((List.range 32).filter (fun b => s.txReady ch b && !s.txGated ch b)).foldl
    (fun best b => match best with
      | none => some b
      | some a => if arbKey (s.rd (Reg.CAN_TXB_b_ID ch b)) < arbKey (s.rd (Reg.CAN_TXB_b_ID ch a)) then some b else best) none

/-- A channel in NORMAL starts its next frame. A gated ready buffer is flagged (R328). -/
def State.txStart (s : State) (ch : Nat) : State :=
  let gated := (List.range 32).any (fun b => s.txReady ch b && s.txGated ch b)
  let s1 := s.onlyIf gated (fun s => s.setBit (Reg.CAN_STAT ch) 10 true)
  if !(s.canState ch == 2 || s.canState ch == 3) || (s.canCh ch).tx.isSome then s1
  else
    match s.txNext ch with
    | none => s1
    | some b =>
      let fmt := s.rd (Reg.CAN_TXB_b_FMT ch b)
      let id := s.rd (Reg.CAN_TXB_b_ID ch b)
      let len := if bitOf id 30 then 0 else dlcLen (bitOf fmt 4) (bitsOf fmt 0 4)
      s1.putCan ch { s.canCh ch with tx := some ⟨b, id, fmt &&& 0x7F#32, (s.txData ch b).take len, false⟩ }

/-- The frame in transmission fails once: its request ends under DAR or a waiting ABORT, and stays ready else. -/
def State.txFail (s : State) (ch : Nat) : State := match (s.canCh ch).tx with
  | none => s
  | some t =>
    let s1 := s.putCan ch { s.canCh ch with tx := none }
    if t.abort || bitOf t.fmt 6 then s1.txFinish ch t.buf false else s1

/-! ## Error states (R312, R313) -/

/-- BUSOFF: flagged, counted; the recovery starts at once with AUTORECOV. -/
def State.canBusOff (s : State) (ch : Nat) : State :=
  let s1 := ((s.canTo ch 4).setBit (Reg.CAN_STAT ch) 0 true).count (Reg.CAN_CNT_BUSOFF ch)
  s1.putCan ch { s1.canCh ch with tx := none, recovering := s1.bit (Reg.CAN_CTRL ch) 4 }

/-- The error state that the counters give. -/
def State.canErrState (s : State) (ch : Nat) : Nat :=
  if 127 < s.canTec ch || s.bit (Reg.CAN_STATE ch) 23 then 3 else 2

/-- The error state follows the counters. -/
def State.canErrUpdate (s : State) (ch : Nat) : State :=
  if !(s.canState ch == 2 || s.canState ch == 3) then s
  else
    let k := s.canErrState ch
    (s.canTo ch k).onlyIf (k = 3 && s.canState ch = 2) (fun s => s.setBit (Reg.CAN_STAT ch) 1 true)

/-- The number that an error adds. -/
def CanWeight.num : CanWeight → Nat
  | .none => 0 | .one => 1 | .eight => 8

/-- A protocol error (R312): LEC or DLEC, the error counter of the role, the error state. The counters of a channel in
LISTEN or RESTRICTED stand still. -/
def State.canError (s : State) (ch kind : Nat) (dataPhase tx : Bool) (w : CanWeight) : State :=
  if !s.canTakesPart ch then s
  else
    let s1 := (s.setFld (Reg.CAN_STATE ch) (if dataPhase then 27 else 24) 3 kind).count (Reg.CAN_CNT_ERR ch)
    let s2 := s1.setBit (Reg.CAN_STAT ch) 7 true
    let s3 := s2.onlyIf tx (fun s => s.txFail ch)
    if !(s.canState ch == 2 || s.canState ch == 3) then s3
    else if tx then
      let n := s.canTec ch + w.num
      if 255 < n then (s3.setTec ch 255).canBusOff ch else (s3.setTec ch n).canErrUpdate ch
    else (s3.setRec ch (s.canRec ch + w.num)).canErrUpdate ch

/-- A frame was received without error: REC counts down; from above 127 it takes a value from 119 to 127 that the
standard leaves open. -/
def State.recDown (s : State) (ch : Nat) : State :=
  if !(s.canState ch == 2 || s.canState ch == 3) then s
  else if s.bit (Reg.CAN_STATE ch) 23 then
    ((s.setRec ch (119 + (Config.free s.free).toNat % 9)).nextFree).canErrUpdate ch
  else (s.setRec ch (s.canRec ch - 1)).canErrUpdate ch

/-- RECOVER: a channel in BUSOFF starts the recovery sequence. -/
def State.canRecover (s : State) (ch : Nat) : State :=
  if s.canState ch = 4 then s.putCan ch { s.canCh ch with recovering := true } else s

/-- STATE of a channel that takes part in the bus in mode `m` with error state `e`. -/
def partState (m e : Nat) : Nat := if m = 2 then 5 else if m = 3 then 7 else e

/-- The recovery sequence ends (R313); a mode that took effect in BUSOFF shows from here on (R316). -/
def State.canRecovered (s : State) (ch : Nat) : State :=
  if s.canState ch = 4 && (s.canCh ch).recovering then
    let s1 := ((s.setTec ch 0).setRec ch 0).putCan ch { s.canCh ch with recovering := false, former := 2 }
    s1.canTo ch (partState (s.canCh ch).mode 2)
  else s

/-! ## Modes (R316) -/

/-- Every request of a channel that enters CONFIG ends with FAILED (R326). -/
def State.txFailAll (s : State) (ch : Nat) : State :=
  s.forEach ((List.range 32).filter (s.txReady ch)) (fun t b => t.txFinish ch b false)

/-- A mode comes into force. -/
def State.canEnter (s : State) (ch m : Nat) : State :=
  let c := s.canCh ch
  if m = 0 then
    let s1 := s.putCan ch { c with mode := 0, pendMode := none, tx := none, recovering := false, former := 2, awaitResume := false }
    (((s1.onlyIf (c.mode != 0) (fun s => s.txFailAll ch)).setTec ch 0).setRec ch 0).canTo ch 0
  else if s.canState ch = 0 then
    (s.putCan ch { c with mode := m, pendMode := none }).canTo ch (if s.fld (Reg.CAN_LINE ch) 0 5 = 0 then 1 else 6)
  else if s.canState ch = 4 || s.canState ch = 1 || s.canState ch = 6 then s.putCan ch { c with mode := m, pendMode := none }
  else
    let s1 := s.putCan ch { c with mode := m, pendMode := none }
    s1.canTo ch (partState m (s.canErrState ch))

/-- A write of CTRL: MODE takes effect at once in CONFIG or BUSOFF, else at the next bus idle; RECOVER, RESUME. -/
def State.canModeAsk (s : State) (ch m : Nat) : State :=
  if s.canState ch = 0 || s.canState ch = 4 then (if (s.canCh ch).mode = m then s.putCan ch { s.canCh ch with pendMode := none } else s.canEnter ch m)
  else if (s.canCh ch).mode = m then s.putCan ch { s.canCh ch with pendMode := none }
  else s.putCan ch { s.canCh ch with pendMode := some m }

/-- The bus is idle: a waiting mode takes effect. -/
def State.canModeChange (s : State) (ch : Nat) : State := match (s.canCh ch).pendMode with
  | some m => s.canEnter ch m
  | none => s

/-- 11 consecutive recessive bits: a channel that integrates takes part in the bus, in its former error state. -/
def State.canIntegrated (s : State) (ch : Nat) : State :=
  if s.canState ch = 1 then
    let c := s.canCh ch
    if c.former = 4 then
      (s.putCan ch { c with former := 2, recovering := c.recovering || s.bit (Reg.CAN_CTRL ch) 4 }).canTo ch 4
    else s.canTo ch (partState c.mode c.former)
  else s

/-! ## Line faults (R332, R333) -/

/-- A LINEFAULT fault begins: the transmitter stays recessive, the frame in progress is abandoned. A channel in CONFIG
takes no part in the bus and stays there; it enters LINEFAULT when it leaves CONFIG with the fault present. -/
def State.canLineDown (s : State) (ch : Nat) : State :=
  let k := s.canState ch
  if k = 6 || k = 0 then s
  else
    let former := if k = 2 || k = 3 || k = 4 then k else (s.canCh ch).former
    (s.putCan ch { s.canCh ch with tx := none, former := former, awaitResume := false }).canTo ch 6

/-- A check of line fault `k` (Table 3): the bit of CANn_LINE follows it; an onset is flagged, counted and recorded. -/
def State.canLine (s : State) (ch k : Nat) (present : Bool) : State :=
  let inj := s.bit (Reg.CAN_INJ ch) 1 && s.fld (Reg.CAN_INJ ch) 8 3 == k
  let now := (present && !(k == 4 && s.fld (Reg.CAN_LINE ch) 0 4 != 0)) != inj
  let s0 := s.onlyIf inj (fun s => s.injRan (Reg.CAN_INJ ch) 1)
  let was := s.bit (Reg.CAN_LINE ch) k
  if now = was then s0
  else
    let s1 := (s0.setBit (Reg.CAN_LINE ch) k now).irqCan ch 4
    if now then
      let s2 := (s1.setBit (Reg.CAN_STAT ch) (if k = 5 then 3 else 2) true).count (Reg.CAN_CNT_LINEFAULT ch)
      let s3 := s2.raiseEv ((0x0D + ch) * 256 + 1) 2 (leBytes 1 k)
      s3.onlyIf (k != 5) (fun s => s.canLineDown ch)
    else s1

/-- No LINEFAULT fault for 100 ms: the channel integrates, or with LFHOLD waits for RESUME. -/
def State.canLineUp (s : State) (ch : Nat) : State :=
  if s.canState ch = 6 && s.fld (Reg.CAN_LINE ch) 0 5 = 0 then
    if s.bit (Reg.CAN_CTRL ch) 7 then s.putCan ch { s.canCh ch with awaitResume := true } else s.canTo ch 1
  else s

/-- RESUME: a channel whose line has been well for 100 ms leaves LINEFAULT. -/
def State.canResume (s : State) (ch : Nat) : State :=
  if s.canState ch = 6 && (s.canCh ch).awaitResume && s.fld (Reg.CAN_LINE ch) 0 5 = 0 then
    (s.putCan ch { s.canCh ch with awaitResume := false }).canTo ch 1
  else s

/-- A write of CANn_CTRL takes effect. -/
def State.canCtrl (s : State) (ch : Nat) (v : Word) : State :=
  let s1 := (s.plainWrite (Reg.CAN_CTRL ch) v).canModeAsk ch (bitsOf v 0 2)
  let s2 := s1.onlyIf (bitOf v 5 || bitOf v 4) (fun s => s.canRecover ch)
  s2.onlyIf (bitOf v 6) (fun s => s.canResume ch)

/-! ## The CANF section and signals -/

/-- A signal record (Table 2). -/
structure CanSig where
  ch : Nat
  tx : Bool
  signed : Bool
  loop : Bool
  idx : Nat
  len : Nat
  start : Nat
  xv : Nat
  shift : Nat
  deriving DecidableEq, Repr

/-- `n` bytes of the CANF section. -/
def ImgBytes.canf (m : ImgBytes) (o n : Nat) : Nat := m.sn secCanf o n

/-- Signal records of the CANF section. -/
def ImgBytes.nsig (m : ImgBytes) : Nat := min 512 (m.canf 2 2)

/-- Signal `k` of an image. -/
def ImgBytes.canSig (m : ImgBytes) (k : Nat) : CanSig :=
  let o := 0x0D90 + 16 * k
  let fl := m.canf (o + 1) 1
  ⟨m.canf o 1, fl.testBit 0, fl.testBit 1, fl.testBit 2, m.canf (o + 2) 1, m.canf (o + 3) 1, m.canf (o + 4) 2,
    m.canf (o + 6) 2, m.canf (o + 8) 1⟩

/-- The signals of the running image. -/
def State.canSigs (s : State) : List CanSig :=
  if s.imgRuns then (List.range s.runImg.nsig).map s.runImg.canSig else []

/-- An exchange variable. -/
def State.xv (s : State) (k : Nat) : Word := s.rd (Reg.FBP_XV_k k)

/-- The value of a received signal in a frame's data (R323). -/
def sigValue (g : CanSig) (data : List Byte) : Word :=
  let raw := (leNat data >>> g.start) % 2 ^ g.len
  if g.signed then wordOfInt (signedOf g.len raw) else BitVec.ofNat 32 raw

/-- The received signals of a filter are written (R323), each for 1 FAB block of CAN (R331). -/
def State.rxSignals (s : State) (ch filter : Nat) (data : List Byte) : State :=
  s.forEach (s.canSigs.filter (fun g => !g.tx && g.ch == ch && g.idx == filter)) (fun t g =>
    if g.start + g.len ≤ 8 * data.length then (t.wr (Reg.FBP_XV_k g.xv) (sigValue g data)).charge classCan resFab 1
    else t.setBit (Reg.CAN_STAT ch) 11 true)

/-! ## Receiving -/

/-- The lowest filter that a frame word matches (R319). -/
def State.canFilter (s : State) (ch : Nat) (f : Word) : Option Nat :=
  (List.range 64).find? (fun k =>
    (f ^^^ s.rd (Reg.CAN_FILT_k_MATCH ch k)) &&& s.rd (Reg.CAN_FILT_k_MASK ch k) &&& 0x7FFFFFFF#32 == 0#32)

/-- ACT of a filter. -/
def State.canAct (s : State) (ch k : Nat) : Nat := s.fld (Reg.CAN_FILT_ACT_j ch (k / 4)) (8 * (k % 4)) 3

/-- Queue `q` of a channel. -/
def CanChan.queue (c : CanChan) (q : Nat) : List CanEntry := if q = 0 then c.q0 else c.q1

/-- Append an accepted frame to a queue (R320, R321): its move from the stage charges CAN 2 FAB blocks (R331). -/
def State.canAppend (s : State) (ch q : Nat) (e : CanEntry) : State :=
  let c := s.canCh ch
  let full := 64 ≤ (c.queue q).length
  let wasOver := s.bit (Reg.CAN_RXQ_q_STAT ch q) 8
  let s1 := s.onlyIf full (fun s => ((s.count (Reg.CAN_CNT_RXDROP ch)).setBit (Reg.CAN_STAT ch) 4 true).irqCan ch 5)
  if full && !wasOver then s1
  else
    let seq := if q = 0 then c.next0 else c.next1
    let l := (if full then (c.queue q).tail else c.queue q) ++ [{ e with seq := seq }]
    let c' := if q = 0 then { c with q0 := l, next0 := (seq + 1) % 65536 } else { c with q1 := l, next1 := (seq + 1) % 65536 }
    ((s1.putCan ch c').charge classCan resFab 2).irqCan ch q

/-- A frame received without error is filtered, staged, queued, and its signals written (R319 to R323, R331). -/
def State.canReceive (s : State) (ch : Nat) (id fmt stamp : Word) (data : List Byte) (staged : Nat) : State :=
  let s0 := (s.count (Reg.CAN_CNT_RXFRAME ch)).recDown ch
  let f := (id &&& 0x3FFFFFFF#32) ||| (if bitOf fmt 4 then 0x40000000#32 else 0#32)
  match s.canFilter ch f with
  | none => s0.count (Reg.CAN_CNT_NOMATCH ch)
  | some k =>
    let act := s.canAct ch k
    if act = 0 || act = 3 || act = 7 then s0
    else
      let full := s.injTest (Reg.CAN_INJ ch) 2 (8 ≤ staged)
      let s1 := s0.injRan (Reg.CAN_INJ ch) 2
      if full then ((s1.count (Reg.CAN_CNT_STGOVR ch)).setBit (Reg.CAN_STAT ch) 5 true).irqCan ch 5
      else
        let e : CanEntry := ⟨k, 0, id &&& 0x7FFFFFFF#32, (fmt &&& 0x7F#32) ||| BitVec.ofNat 32 (data.length * 2 ^ 8), stamp, data⟩
        let s2 := if act = 1 || act = 5 then s1.canAppend ch 0 e else if act = 2 || act = 6 then s1.canAppend ch 1 e else s1
        if 4 ≤ act then s2.rxSignals ch k data else s2

/-- A frame of another node ends: its CRC comparison under CANn_INJ.CRC, then reception or a CRC error. -/
def State.canFrame (s : State) (ch : Nat) (id fmt stamp : Word) (data : List Byte) (crcOk : Bool) (staged : Nat) : State :=
  if !s.canTakesPart ch then s
  else
    let ok := s.injTest (Reg.CAN_INJ ch) 0 crcOk
    let s1 := s.injRan (Reg.CAN_INJ ch) 0
    let len := if bitOf id 30 then 0 else dlcLen (bitOf fmt 4) (bitsOf fmt 0 4)
    if ok then s1.canReceive ch id fmt stamp ((data ++ List.replicate 64 0#8).take len) staged
    else s1.canError ch 6 (bitOf fmt 4 && bitOf fmt 5) false .one

/-- CANn_RXQ_q_STAT as it reads. -/
def State.rxqStat (s : State) (ch q : Nat) : Word :=
  let l := (s.canCh ch).queue q
  let w := putBits (s.rd (Reg.CAN_RXQ_q_STAT ch q)) 0 7 l.length
  putBits w 16 16 ((l.head?.map (·.seq)).getD 0)

/-- Word `w` of the head window of a queue (R322). -/
def State.rxqHead (s : State) (ch q w : Nat) : Word := match ((s.canCh ch).queue q).head? with
  | none => 0#32
  | some e => match w with
    | 0 => BitVec.ofNat 32 (1 + e.filter * 2 ^ 8 + e.seq * 2 ^ 16)
    | 1 => e.id
    | 2 => e.fmt
    | 3 => e.stamp
    | _ => BitVec.ofNat 32 (leNat ((e.data.drop (4 * (w - 4))).take 4))

/-- The judgement of a POP (R322). -/
def State.popDeny (s : State) (ch q : Nat) (v : Word) : Option Status :=
  match ((s.canCh ch).queue q).head? with
  | some e => if e.seq = bitsOf v 0 16 then none else some .range
  | none => some .range

/-- Remove the head of a queue. -/
def State.canPop (s : State) (ch q : Nat) : State :=
  let c := s.canCh ch
  s.putCan ch (if q = 0 then { c with q0 := c.q0.tail } else { c with q1 := c.q1.tail })

/-! ## Sending -/

/-- A frame of the channel ends (R326): sent, or failed. -/
def State.txEnd (s : State) (ch : Nat) (ok : Bool) (stamp : Word) (tdcv vdom : Nat) : State :=
  match (s.canCh ch).tx with
  | none => s
  | some t =>
    let c := s.canCh ch
    let run := if 3200 < vdom then c.openRun + 1 else 0
    let s1 := (s.putCan ch { c with openRun := min 16 run }).setFld (Reg.CAN_LINE ch) 16 16 vdom
    let s2 := s1.canLine ch 5 (16 ≤ run)
    if ok then
      let s3 := s2.putCan ch { s2.canCh ch with tx := none }
      let s4 := ((s3.txFinish ch t.buf true).wr (Reg.CAN_TXB_b_STAMP ch t.buf) stamp).count (Reg.CAN_CNT_TXFRAME ch)
      let s5 := s4.onlyIf (s4.bit (Reg.CAN_CTRL ch) 9 && bitOf t.fmt 4 && bitOf t.fmt 5)
        (fun s => s.setFld (Reg.CAN_TDC ch) 8 7 tdcv)
      let s6 := (s5.setTec ch (s5.canTec ch - 1)).canErrUpdate ch
      s6.send ⟨.canFrame, 4 + ch, t.id.toNat, t.fmt.toNat, t.data⟩
    else s2.txFail ch

/-- The range of a signal. -/
def sigRange (g : CanSig) : Int × Int :=
  if g.signed then (-((2 ^ (g.len - 1) : Nat) : Int), ((2 ^ (g.len - 1) : Nat) : Int) - 1)
  else (0, ((2 ^ g.len : Nat) : Int) - 1)

/-- Put a raw value into the data of its buffer. -/
def State.sigPut (s : State) (g : CanSig) (raw : Int) : State :=
  let old := leNat (s.txData g.ch g.idx)
  let m := (2 ^ g.len - 1) * 2 ^ g.start
  let new := old - (old &&& m) + wrapInt g.len raw * 2 ^ g.start
  s.forEach (List.range 16) (fun t i => t.wr (Reg.CAN_TXB_b_DATA_i g.ch g.idx i) (BitVec.ofNat 32 (new >>> (32 * i))))

/-- A raw value saturated into its signal (R327), for 1 FAB block of CAN (R331). -/
def State.sigInsert (s : State) (g : CanSig) (raw : Int) : State :=
  let r := sigRange g
  ((s.sigPut g (clampInt r.1 r.2 raw)).charge classCan resFab 1).onlyIf (raw < r.1 || r.2 < raw) (fun s => s.setBit (Reg.CAN_STAT g.ch) 9 true)

/-- A LOOP or FBP buffer is set READY; data in a buffer already READY is replaced (R327). A gated buffer is flagged
(R328). -/
def State.sigReady (s : State) (ch b : Nat) : State :=
  let s1 := if s.txReady ch b then s.count (Reg.CAN_CNT_TXREPLACE ch) else s.txRequest ch b
  s1.onlyIf (s.txGated ch b) (fun s => s.setBit (Reg.CAN_STAT ch) 10 true)

/-- The raw value that a LOOP signal takes from an output mantissa: ties toward plus infinity (R327). -/
def loopRaw (g : CanSig) (m : Int) : Int := divNear m ((2 ^ g.shift : Nat) : Int)

/-- At an apply instant each FBP signal takes its OUT variable, and each FBP buffer is set READY once (R327). -/
def State.canApply (s : State) : State :=
  let sigs := s.canSigs.filter (fun g => g.tx && !g.loop)
  let s1 := s.forEach sigs (fun t g => t.sigInsert g (if g.signed then (t.xv g.xv).toInt else ((t.xv g.xv).toNat : Int)))
  let bufs := (sigs.map (fun g => (g.ch, g.idx))).eraseDups
  s1.forEach bufs (fun t e => t.sigReady e.1 e.2)

/-- When the right to drive falls, the LOOP and FBP buffers that are ready are gated and flagged (R328). -/
def State.canGate (s : State) : State :=
  s.forEach (List.range 4) (fun t ch =>
    t.onlyIf ((List.range 32).any (fun b => t.txReady ch b && t.txGated ch b)) (fun t => t.setBit (Reg.CAN_STAT ch) 10 true))

/-- At a lap boundary the counter and the PTP clock are captured at one instant (R330). -/
def State.canCorr (s : State) (sec ns : Nat) (valid : Bool) : State :=
  s.forEach (List.range 4) (fun t ch =>
    let t1 := (t.wr (Reg.CAN_CORR_TSC ch) (BitVec.ofNat 32 (t.tscNs / 1000))).wr (Reg.CAN_CORR_SEC_LO ch) (BitVec.ofNat 32 sec)
    (t1.wr (Reg.CAN_CORR_SEC_HI ch) (BitVec.ofNat 32 (sec / 2 ^ 32 % 65536))).wr (Reg.CAN_CORR_NS ch)
      (BitVec.ofNat 32 (ns % 2 ^ 30 + valid.toNat * 2 ^ 31)))

/-- CANn_TSC as it reads: microseconds of the module's oscillator. -/
def State.tscNow (s : State) : Word :=
  BitVec.ofNat 32 ((s.tscNs + s.lap.tick * s.lastLap / 4096) / 1000)

/-- The registers of the CAN blocks that the CANF section fixes (R317). -/
def State.loadCanf (s : State) : State :=
  let m := s.runImg
  s.forEach (List.range 4) (fun t ch =>
    let b := 0x10 + 0x360 * ch
    let t1 := t.forEach (List.range 64) (fun t k =>
      (t.wr (Reg.CAN_FILT_k_MASK ch k) (BitVec.ofNat 32 (m.canf (b + 8 * k) 4))).wr (Reg.CAN_FILT_k_MATCH ch k)
        (BitVec.ofNat 32 (m.canf (b + 8 * k + 4) 4)))
    let t2 := t1.forEach (List.range 16) (fun t j => t.wr (Reg.CAN_FILT_ACT_j ch j) (BitVec.ofNat 32 (m.canf (b + 0x200 + 4 * j) 4)))
    let t3 := t2.forEach (List.range 32) (fun t k =>
      (t.wr (Reg.CAN_TXB_b_ID ch k) (BitVec.ofNat 32 (m.canf (b + 0x240 + 8 * k) 4))).wr (Reg.CAN_TXB_b_FMT ch k)
        (BitVec.ofNat 32 (m.canf (b + 0x244 + 8 * k) 4)))
    t3.forEach [0, 1] (fun t q => t.setBit (Reg.CAN_RXQ_q_STAT ch q) 8 (m.canf (b + 0x340 + q) 1 == 1)))

end Sys2Proof.Machine
end

