-- ==== Sys2Proof/Machine/FabOps.lean ====
section
/-!
DEFINITION. Machine/FabOps.lean: the operations of spec/07_fabric_integrity_and_spares.md: blocks, re-sends and drops
(R185 to R187), failing lanes, banks and lines (R188 to R192), the repair map (R193 to R195), lane checks, scrubs and
DRAM repair (R197 to R201). A map comes into use when its copy is written (R195), and serves the solver from the next
iteration or solve start (R190).
-/

namespace Sys2Proof.Machine

/-! ## The map -/

/-- The numbers below `n` whose entry in a list is 0 (GOOD). -/
def goodOf (n : Nat) (l : List Nat) : List Nat := (List.range n).filter (fun i => listGet l i == 0)

/-- The mapped lanes: the first 16 non-failed physical lanes (R189). -/
def RepairMap.mapped (m : RepairMap) : List Nat := (goodOf 18 m.lanes).take 16

/-- The physical banks that serve as logical banks: the first 48 non-failed ones (R189). -/
def RepairMap.serving (m : RepairMap) : List Nat := (goodOf 50 m.banks).take 48

/-- The spare lines of a bank that are used or bad. -/
def RepairMap.spUsed (m : RepairMap) (p : Nat) : Nat := (m.spares.filter (fun e => e.1 / 164 == p)).length

/-- The lowest spare line of a bank that is neither used nor bad. -/
def RepairMap.freeSpare (m : RepairMap) (p : Nat) : Option Nat :=
  (List.range 164).find? (fun i => !assocHas m.spares (164 * p + i))

/-- The mapped lanes of the live map: all of them, or the LANEMIN that H12's way OTHER maps. -/
def State.liveLanes (s : State) : List Nat := s.fab.live.mapped.take s.fab.laneCap

/-- SLV_RUN.STATE is IDLE or DONE. -/
def State.slvIdle (s : State) : Bool := let k := s.fld Reg.SLV_RUN 0 3; k == 0 || k == 6

/-- STATE of a lane as it is shown: FAILED as soon as it is declared, else as the live map has it; lanes of the burst are
the first mapped ones. -/
def State.laneState (s : State) (n burst : Nat) : Nat :=
  if listGet s.fab.want.lanes n != 0 then 3
  else match s.liveLanes.idxOf? n with
    | some i => if i < burst then 2 else 1
    | none => 0

/-- Show the lanes' states, with so many burst lanes. -/
def State.showLanes (s : State) (burst : Nat) : State :=
  (s.forEach (List.range 18) (fun t n => t.setFld (Reg.SLV_LANE_n_STAT n) 0 2 (s.laneState n burst))).setFld Reg.SLV_RUN 16 5 burst

/-- Show a bank's state. -/
def State.showBank (s : State) (p : Nat) : State :=
  let log := (s.fab.live.serving.idxOf? p)
  let st := if listGet s.fab.want.banks p != 0 then 2 else if log.isSome then 1 else 0
  s.wr (Reg.FAB_BANK_p_STAT p)
    (BitVec.ofNat 32 (st + (if st = 2 then 0x3F else log.getD 0x3F) * 2 ^ 8 + s.fab.want.spUsed p * 2 ^ 16))

/-- The live map becomes the map in use: SLV_MAP, SLV_MAPCNT, FAB_SPARE and the lane and bank states follow (R124,
R190). A lane that is not mapped holds no data. -/
def State.mapLive (s : State) : State :=
  let m := s.fab.use
  let s0 := { s with fab := { s.fab with live := m } }
  let s1 := { s0 with dsp := { s0.dsp with lanes := s.dsp.lanes.filter (fun e => s0.liveLanes.contains (e.1 / 4096)) } }
  let s2 := s1.wr Reg.SLV_MAP (BitVec.ofNat 32 (s1.liveLanes.foldl (fun a n => a + 2 ^ n) 0))
  let s3 := s2.wr Reg.SLV_MAPCNT (BitVec.ofNat 32 (s1.liveLanes.length + m.serving.length * 2 ^ 8))
  let gl := (goodOf 18 m.lanes).length
  let gb := (goodOf 50 m.banks).length
  let s4 := s3.wr Reg.FAB_SPARE (BitVec.ofNat 32 ((gl - 16) + (gb - 48) * 2 ^ 8 + (18 - gl) * 2 ^ 16 + (50 - gb) * 2 ^ 24))
  (s4.forEach (List.range 50) State.showBank).showLanes (s.fld Reg.SLV_RUN 16 5)

/-- A lane or bank of the present iteration was declared failed, or a block of it dropped (R145, R190). -/
def State.solveHit (s : State) : State := match s.dsp.solve with
  | some v => if v.running && v.assembled then { s with dsp := { s.dsp with solve := some { v with dropped := true } } } else s
  | none => s

/-- A failure found no spare (FAB_STAT.SPAREOUT). -/
def State.spareOut (s : State) (out : Bool) : State := s.onlyIf out (fun s => (s.setBit Reg.FAB_STAT 4 true).irqFab 2)

/-- A physical lane is declared FAILED with the code of Table 3 (R188). -/
def State.laneFail (s : State) (n code : Nat) : State :=
  if listGet s.fab.want.lanes n != 0 then s
  else
    let want := { s.fab.want with lanes := s.fab.want.lanes.set n code }
    let s1 := ({ s with fab := { s.fab with want := want } }).setFld (Reg.SLV_LANE_n_STAT n) 0 2 3
    let s2 := ((s1.setBit Reg.FAB_STAT 1 true).count Reg.FAB_CNT_LANEFAIL).irqFab 1
    (s2.spareOut ((goodOf 18 want.lanes).length < 16)).solveHit

/-- A physical bank is declared FAILED with the code of Table 3 (R191). -/
def State.bankFail (s : State) (p code : Nat) : State :=
  if listGet s.fab.want.banks p != 0 then s
  else
    let want := { s.fab.want with banks := s.fab.want.banks.set p code }
    let s1 := ({ s with fab := { s.fab with want := want } }).showBank p
    let s2 := ((s1.setBit Reg.FAB_STAT 3 true).count Reg.FAB_CNT_BANKFAIL).irqFab 1
    (s2.spareOut ((goodOf 50 want.banks).length < 48)).solveHit

/-- Put a spare line's entry. -/
def State.putSpare (s : State) (p i v : Nat) : State :=
  let want := { s.fab.want with spares := assocPut s.fab.want.spares (164 * p + i) v }
  ({ s with fab := { s.fab with want := want } }).showBank p

/-- A line of a bank gets the lowest free spare line, or the bank is declared FAILED (R191). -/
def State.assignSpare (s : State) (p line : Nat) : State := match s.fab.want.freeSpare p with
  | some i => (((s.putSpare p i line).setBit Reg.FAB_STAT 2 true).count Reg.FAB_CNT_LINEREP).irqFab 1
  | none => s.bankFail p 2

/-- A line marked for repair (R191): a line that a spare already replaces stays so; a spare line becomes bad, and the line
it replaced gets another. -/
def State.repairLine (s : State) (p line : Nat) : State :=
  if line < 8192 then
    (if s.fab.want.spares.any (fun e => e.1 / 164 == p && e.2 == line) then s else s.assignSpare p line)
  else
    let i := line - 8192
    let old := assocGet 0xFFFF s.fab.want.spares (164 * p + i)
    let s1 := s.putSpare p i 0xFFFE
    if old < 8192 then s1.assignSpare p old else s1

/-- The bytes of a copy (Table 3): MAGIC, SEQ, FORMAT, the lanes, the banks, the spare lines, and the CRC. -/
def RepairMap.tab (m : RepairMap) : Tab 8 :=
  let head := [0x4E#8, 0x5A#8, 0x52#8, 0x50#8] ++ leBytes 4 m.seq.toNat ++ leBytes 2 1 ++ List.replicate 54 0#8
    ++ m.lanes.map (BitVec.ofNat 8) ++ List.replicate 14 0#8 ++ m.banks.map (BitVec.ofNat 8) ++ List.replicate 14 0#8
  let t0 := tabSetList 0xFF#8 (tabSetList 0xFF#8 [] 0 head) 0x40B0 (List.replicate 12 0#8)
  let t := m.spares.foldl (fun t e => tabSetList 0xFF#8 t (0xA0 + 2 * e.1) (leBytes 2 e.2)) t0
  tabSetList 0xFF#8 t 0x40BC (leBytes 4 (crcWalk 0xFF#8 0xFFFFFFFF#32 t 0 0x40BC).toNat)

/-- The map that a copy holds, when it is valid: MAGIC, FORMAT and CRC are correct (R194). -/
def mapOf (t : Tab 8) : Option RepairMap :=
  let num (o n : Nat) : Nat := leAt (tabGet 0xFF#8 t) o n
  let keys := (t.filterMap (fun e => if 0xA0 ≤ e.1 && e.1 < 0x40B0 then some ((e.1 - 0xA0) / 2) else none)).eraseDups
  if num 0 4 = 0x50525A4E && num 8 2 = 1 && num 0x40BC 4 = (crcWalk 0xFF#8 0xFFFFFFFF#32 t 0 0x40BC).toNat then
    some ⟨BitVec.ofNat 32 (num 4 4), (List.range 18).map (fun n => num (0x40 + n) 1), (List.range 50).map (fun p => num (0x60 + p) 1),
      keys.map (fun k => (k, num (0xA0 + 2 * k) 2))⟩
  else none

/-- The maps that the two copies hold. -/
def State.mapA (s : State) : Option RepairMap := mapOf s.fab.copyA
def State.mapB (s : State) : Option RepairMap := mapOf s.fab.copyB

/-- The copy that the next map write goes to: the one with the lower SEQ, an invalid one before a valid one (R194). -/
def State.mapToB (s : State) : Bool := match s.mapA, s.mapB with
  | none, _ => false
  | some _, none => true
  | some a, some b => !(a.seq.toNat ≤ b.seq.toNat && a.seq != b.seq)

/-- SEQ of the map copy that stays (R194). -/
def State.mapOtherSeq (s : State) : Word := match s.mapA, s.mapB with
  | some a, some b => if s.mapToB then a.seq else b.seq
  | some a, none => a.seq
  | none, some b => b.seq
  | none, none => 0#32

/-- The copy that a start uses: the valid one with the higher SEQ, A when they carry the same (R194). -/
def State.mapAtStart (s : State) : Option RepairMap := match s.mapA, s.mapB with
  | some a, some b => if a.seq.toNat < b.seq.toNat then some b else some a
  | some a, none => some a
  | none, b => b

/-- The map asked for is not what the NV store's newest copy holds. -/
def State.mapDue (s : State) : Bool := match s.mapAtStart with
  | some c => ({ s.fab.want with seq := c.seq }).tab != c.tab
  | none => true

/-- The bytes of the copy that a map write goes to. -/
def State.putMap (s : State) (t : Tab 8) : State :=
  if s.mapToB then { s with fab := { s.fab with copyB := t } } else { s with fab := { s.fab with copyA := t } }

/-- The bytes that a write of a copy leaves when it does not end: its CRC is wrong (Power loss during a map write). -/
def RepairMap.torn (m : RepairMap) : Tab 8 :=
  let t := m.tab
  tabSetList 0xFF#8 t 0x40BC ((bytesAt (tabGet 0xFF#8 t) 0x40BC 4).map (fun b => ~~~ b))

/-- The map that the next map write writes. -/
def State.mapNext (s : State) : RepairMap := { s.fab.want with seq := s.mapOtherSeq + 1 }

/-- The page programs of a copy: 65 pages, 1,560 ticks of NVW, charged to SELF. `rb` is the read-back of the first page, and a
page that fails twice ends the write (R427). -/
def State.mapPages (s : State) (rb : ReadBack) : State × Bool :=
  let r := s.nvPage classSelf rb
  if r.2 then ((r.1.countN Reg.NVS_CNT_PAGE 64).charge classSelf resNvw (64 * 24), true) else r

/-- A map write ends (R194, R195): written and verified, the map comes into use; failing, the old map stays in use and the
write is repeated at the next lap. -/
def State.mapWrite (s : State) (rb : ReadBack) : State :=
  if !s.mapDue || s.fab.mapTry = some s.lap.count then s
  else
    let m := s.mapNext
    let r := s.mapPages rb
    if r.2 then
      let s1 := r.1.putMap m.tab
      let fab := { s1.fab with use := m, want := m, mapTry := none }
      (({ s1 with fab := fab }).wr Reg.FAB_MAP_SEQ m.seq).count Reg.FAB_CNT_MAPWRITE
    else
      let s1 := r.1.putMap m.torn
      ({ s1 with fab := { s1.fab with mapTry := some s.lap.count } }).setBit Reg.FAB_STAT 7 true

/-! ## Blocks (R185 to R187) -/

/-- FAB_INJ applies to a path. -/
def State.injPath (s : State) (path : Nat) : Bool := s.fld Reg.FAB_INJ 8 3 == path

/-- The comparisons of the sendings of a block, true for a mismatch, under FAB_INJ.RESEND and DROP (R207). -/
def State.blockBad (s : State) (path : Nat) (bad : List Bool) : List Bool :=
  if s.injPath path && s.bit Reg.FAB_INJ 1 then bad.map (fun b => !b)
  else if s.injPath path && s.bit Reg.FAB_INJ 0 then match bad with
    | b :: t => (!b) :: t
    | [] => []
  else bad

/-- Drops of a lane in the last 256 laps. -/
def State.recentDrops (s : State) (n : Nat) : Nat :=
  (s.fab.laneDrops.filter (fun e => e.1 == n && s.lap.count < e.2 + 256)).length

/-- A drop attributed to a lane, which fails at FAB_DROPLIM.LIMIT drops within 256 laps (R188). -/
def State.laneDrop (s : State) (n : Nat) : State :=
  let old := s.fab.laneDrops.filter (fun e => s.lap.count < e.2 + 256)
  let s1 := { s with fab := { s.fab with laneDrops := (n, s.lap.count) :: old } }
  s1.onlyIf (s.fld Reg.FAB_DROPLIM 0 8 ≤ s1.recentDrops n) (fun s => s.laneFail n 3)

/-- A drop on path DRAM; the fourth within 256 laps makes a retraining due (R201). -/
def State.dramDrop (s : State) : State :=
  let l := s.lap.count :: s.fab.dramDrops.filter (fun x => s.lap.count < x + 256)
  { s with fab := { s.fab with dramDrops := l, trainDue := s.fab.trainDue || 4 ≤ l.length } }

/-- A DRAM line is read again from the image's slot and rewritten (Table 2). -/
def State.dramFix (s : State) : State := s.count Reg.FAB_CNT_DRAMFIX

/-- The 64 bytes of the present commit at an offset keep the previous sett's content (Table 2). -/
def State.commitDrop (s : State) (off : Nat) : State := match s.sett.fresh with
  | some f =>
    let o := off / 64 * 64
    let old : Tab 8 := match s.sett.held.head? with
      | some h => h.bytes
      | none => []
    let bytes := tabSetList 0#8 f.bytes o (bytesAt (tabGet 0#8 old) o 64)
    ({ s with sett := { s.sett with fresh := some { f with bytes := bytes } } }).setBit Reg.FAB_STAT 8 true
  | none => s.setBit Reg.FAB_STAT 8 true

/-- What the consumer of a dropped block does (Table 2). What a host window request, a page program and the mirror do about
theirs stands with them (State.blockTaken). -/
def State.consumerDrop (s : State) : BlockUse → State
  | .solver (some x) => (s.solveHit).repairLine x.1.val x.2.toNat
  | .solver none => s.solveHit
  | .commit off => s.commitDrop off.toNat
  | .image => s.dramFix
  | .canBuf ch => (s.count (Reg.CAN_CNT_RXDROP ch.val)).setBit (Reg.CAN_STAT ch.val) 4 true
  | .ethBuf p => s.count (Reg.ETH_PORT_p_CNT_RXERR p.val)
  | .history back node => { s with dsp := { s.dsp with histGone := (back.val, node.toNat) :: s.dsp.histGone } }
  | .host | .nvWrite | .pairLink | .other => s

/-- The pacer resource of a path: the DRAM port, or the lane fabric. -/
def pathRes (path : Nat) : Nat := if path = 3 then resDram else resFab

/-- So many sendings of a block in a row mismatch: each but a fifth is asked for again (R185), a fifth drops it
(R186). Each re-send charges the sending class 1 block. -/
def State.blockFails (s : State) (path cls : Nat) (lane : Option Nat) (use : BlockUse) (fails : Nat) : State :=
  let s1 := (s.countN (Reg.FAB_CNT_RESEND_p path) (min 4 fails)).charge cls (pathRes path) (min 4 fails)
  if fails < 5 then s1
  else
    let rec_ := path + cls * 2 ^ 4 + lane.getD 31 * 2 ^ 8 + s.sett.epoch % 2 ^ 16 * 2 ^ 16
    let s2 := (((s1.count (Reg.FAB_CNT_DROP_p path)).wr Reg.FAB_LASTDROP (BitVec.ofNat 32 rec_)).setBit Reg.FAB_STAT 0 true).irqFab 0
    let s3 := s2.consumerDrop use
    let s4 := match lane with
      | some n => s3.onlyIf (path = 0 || path = 1) (fun s => s.laneDrop n)
      | none => s3
    s4.onlyIf (path = 3) State.dramDrop

/-- How many sendings in a row mismatch when `bad` tells of each whether it does (one not told of matches), FAB_INJ applied. -/
def State.failsOf (s : State) (path : Nat) (bad : List Bool) : Nat :=
  ((s.blockBad path ((bad ++ List.replicate 5 false).take 5)).takeWhile id).length

/-- The comparisons of a block have run: FAB_INJ.RESEND and DROP of its path clear (R207). -/
def State.pathInjRan (s : State) (path : Nat) : State :=
  s.onlyIf (s.injPath path) (fun s => (s.injRan Reg.FAB_INJ 0).injRan Reg.FAB_INJ 1)

/-- A sending of a block mismatches: the CRC-32C of its 64 bytes is not the one in its sideband (R184). -/
def Block.bad (b : Block) : Bool := crc32c b.data != b.crc

/-- A block is received (R185), as it comes in each of its sendings; a sending that is not told of matches. Its first sending
charges the sending class as well; the commit has its own path and charges nothing (R75). -/
def State.blockReceive (s : State) (path cls : Nat) (lane : Option Nat) (use : BlockUse) (got : List Block) : State :=
  let n := s.failsOf path (got.map Block.bad)
  let t := ((s.pathInjRan path).charge cls (pathRes path) 1).blockFails path cls lane use n
  match use with
  | .commit _ => { t with used := s.used }
  | _ => t

/-- A stored line that class SELF reads mismatches on all 5 reads, which R187 handles as a dropped block. -/
def State.readDropped (s : State) (path : Nat) : State := s.blockFails path classSelf none .other 5

/-! ## Checks in service -/

/-- The next lane to check: the next non-failed one in ascending order, after the last back to the first (R199). -/
def State.nextLane (s : State) : Option Nat :=
  let good := goodOf 18 s.fab.want.lanes
  match good.find? (fun n => s.fab.lchkLane < n) with
  | some n => some n
  | none => good.head?

/-- A lane check ends (R199); FAB_INJ.LCHK inverts its result. It runs every FAB_LCHK.LAPS laps while no solve runs. -/
def State.laneCheck (s : State) (ok : Bool) : State :=
  if !s.slvIdle || s.lap.count < s.fab.lchkAt + s.fld Reg.FAB_LCHK 0 16 then s
  else match s.nextLane with
    | none => s
    | some n =>
      let good := s.injTest Reg.FAB_INJ 2 ok
      let s1 := ({ s with fab := { s.fab with lchkAt := s.lap.count, lchkLane := n } }).injRan Reg.FAB_INJ 2
      s1.onlyIf (!good) (fun s => s.laneFail n 2)

/-- The bank and first line of scrub segment `g` (R197). -/
def segBank (g : Nat) : Nat := g / 4
def segLine (g : Nat) : Nat := 2089 * (g % 4)

/-- The next scrub segment's bank serves a logical bank. -/
def State.segServes (s : State) : Bool := s.fab.live.serving.contains (segBank (s.fld Reg.FAB_SCRUB_STAT 0 8))

/-- The next scrub segment is due. -/
def State.scrubDue (s : State) : Bool :=
  s.bit Reg.FAB_SCRUB_CTRL 0 && s.fab.scrubAt + s.fld Reg.FAB_SCRUB_CTRL 16 16 ≤ s.lap.count

/-- The first read-back of a segment, that of its first line, as a block received on path FMEM (R207), when the line fails all
its reads or none: the state, and whether the block was dropped. -/
def State.scrubFirst (s : State) (bad : Bool) : State × Bool :=
  let n := s.failsOf 1 (List.replicate 5 bad)
  ((s.pathInjRan 1).blockFails 1 classSelf none .other n, n == 5)

/-- A line as a scrub leaves it: the pattern 0xAA in every byte (R197). DESIGN CHOICE: but for its GEN, of which R198's note says that
the line keeps that of an earlier iteration (log entry 75). -/
def Line.scrubbed (l : Line) : Line := ⟨List.replicate 14 (-22906492246), 10, l.gen⟩

/-- The logical line that a line of a physical bank serves (R127, R191), by the live map. -/
def RepairMap.lineOf (m : RepairMap) (p line : Nat) : Option Nat :=
  let spare := m.spares.filter (fun e => e.1 / 164 == p)
  let l : Option Nat := if line < 8192 then (if spare.any (fun e => e.2 == line) then none else some line)
    else (spare.find? (fun e => e.1 % 164 == line - 8192)).bind (fun e => if e.2 < 8192 then some e.2 else none)
  match m.serving.idxOf? p, l with
  | some b, some l => some (8192 * b + l)
  | _, _ => none

/-- The lines of a segment hold the pattern. -/
def State.scrubFill (s : State) (g : Nat) : State :=
  let keys := (List.range 2089).filterMap (fun i => s.fab.live.lineOf (segBank g) (segLine g + i))
  { s with dsp := { s.dsp with
    factor := keys.foldl (fun t k => assocPut t k (assocGet (⟨[], 0, 0⟩ : Line) s.dsp.factor k).scrubbed) s.dsp.factor } }

/-- A segment's end: it has moved its 2,089 lines four times, for SELF. Its failing lines, counted from its first line, are
repaired; FAB_INJ.SCRUB inverts the result of its first line; the batons go back and the next segment follows (R197). -/
def State.scrubEnd (s : State) (bad : List Nat) : State :=
  let g := s.fld Reg.FAB_SCRUB_STAT 0 8
  let f := ((s.scrubFill g).charge classSelf resFab 8356).scrubFirst (bad.contains 0)
  let first := f.1.injTest Reg.FAB_INJ 3 f.2
  let rest := bad.filter (fun l => 0 < l && l < 2089)
  let s0 := (f.1.injRan Reg.FAB_INJ 3).onlyIf first (fun t => t.repairLine (segBank g) (segLine g))
  let s1 := s0.forEach rest (fun t l => (t.readDropped 1).repairLine (segBank g) (segLine g + l))
  let s2 := (s1.batonRelease 2).wr Reg.FAB_SCRUB_STAT (BitVec.ofNat 32 (if g + 1 < 200 then g + 1 else 0))
  let s3 := s2.onlyIf (g + 1 == 200) (fun s => s.count Reg.FAB_CNT_SCRUBPASS)
  { s3 with fab := { s3.fab with scrubAt := s.lap.count } }

/-- A scrub segment (R197, R198): it waits while a solve runs on its bank, asks for its 4 batons, and runs once it holds
them. -/
def State.scrubSegment (s : State) (bad : List Nat) : State :=
  if !s.scrubDue then s
  else if s.segServes && !s.slvIdle then s.setBit Reg.FAB_SCRUB_STAT 8 true
  else if s.batonsOf 2 = 0 then (s.setBit Reg.FAB_SCRUB_STAT 8 false).batonRequest 2 4
  else s.scrubEnd bad

/-- FAB_SCRUB_CTRL: with EN 0 no segment runs, and the batons of one that was to run go back (R64). -/
def State.scrubCtrl (s : State) (v : Word) : State :=
  (s.plainWrite Reg.FAB_SCRUB_CTRL v).onlyIf (!bitOf v 0) (fun t => (t.batonRelease 2).batonCancel 2)

/-- A solve starts: a scrub of a serving bank stops, releases its batons, and runs the whole segment again at its next turn
(R198); a retraining that has not begun waits for the solve's end and holds no batons meanwhile (R201, R64). -/
def State.scrubStop (s : State) : State :=
  let s1 := (s.batonRelease 4).batonCancel 4
  if !s.segServes then s1
  else
    let s2 := (s1.batonRelease 2).batonCancel 2
    s2.onlyIf (s.batonsOf 2 != 0) (fun t => { t with fab := { t.fab with scrubAt := s.lap.count } })

/-- The DRAM link retrains while no solve runs, holding 4 batons (R201). -/
def State.dramRetrain (s : State) : State :=
  if !s.fab.trainDue || !s.slvIdle then s
  else if s.batonsOf 4 = 0 then s.batonRequest 4 4
  else
    let s1 := { s with fab := { s.fab with trainDue := false, dramDrops := [] } }
    (s1.batonRelease 4).count Reg.FAB_CNT_DRAMTRAIN

/-! ## The built-in tests of a start (R196) -/

/-- The map of a start: the copy of R194, or an empty map with MAPLOST; a RETEST starts from an empty map, whose results
alone it writes (R192). -/
def State.mapStart (s : State) : State :=
  let found := s.mapAtStart
  let seq := (found.map (·.seq)).getD 0#32
  let retest := s.bit Reg.FAB_REPAIR_CTRL 0
  let m := found.getD emptyMap
  let want := if retest then { emptyMap with seq := seq } else m
  let s1 := { s with fab := { s.fab with use := m, want := want, live := m, laneDrops := [], dramDrops := [], trainDue := false } }
  let s2 := s1.onlyIf found.isNone (fun s => s.setBit Reg.FAB_STAT 6 true)
  ((s2.wr Reg.FAB_MAP_SEQ seq).setBit Reg.FAB_REPAIR_CTRL 0 false).mapLive

/-- The built-in tests' results (R196): failing lanes, failing banks, and failing lines by bank. A lane, bank or spare line
already marked failed is not tested, and a bank that fails its own test has no lines to repair. -/
def State.startTests (s : State) (lanes banks : List Nat) (lines : List (Nat × Nat)) : State :=
  let s1 := s.forEach (lanes.filter (fun n => n < 18 && listGet s.fab.want.lanes n == 0)) (fun t n => t.laneFail n 1)
  let s2 := s1.forEach (banks.filter (fun p => p < 50 && listGet s.fab.want.banks p == 0)) (fun t p => t.bankFail p 1)
  let marked (e : Nat × Nat) : Bool := 8192 ≤ e.2 && assocGet 0xFFFF s.fab.want.spares (164 * e.1 + (e.2 - 8192)) == 0xFFFE
  s2.forEach (lines.filter (fun e => e.1 < 50 && e.2 < 8356 && listGet s2.fab.want.banks e.1 == 0 && !marked e))
    (fun t e => t.repairLine e.1 e.2)

end Sys2Proof.Machine
end

