-- ==== Sys2Proof/Machine/DspOps.lean ====
section
/-!
DEFINITION. Machine/DspOps.lean: the dispatch problem and its results: the GRAPH section (R120 of
spec/04_dispatch_problem.md), the variables and their bounds (R110), trajectories, their alignment (R108), projection
(R170) and encoding (R171), the safe trajectory (R181) and the published streams (R177 to R180 of
spec/06_deadlines_results_warm_start.md), and the fit test (R130, R202, R204).
-/

namespace Sys2Proof.Machine

/-! ## The running problem -/

/-- Entry of the FALLBACK section for a sub-section of a TYPE (R205): its index. -/
def ImgBytes.fbEntry (m : ImgBytes) (kind : Nat) : Option Nat :=
  (List.range 4).find? (fun j => m.sn secFallback (0x10 + 16 * j) 2 == kind)

/-- Image offset of the KKT, SCHED, QFMT or SAFETRAJ section of the main (false) or FALLBACK (true) problem. -/
def ImgBytes.probOff (m : ImgBytes) (fb : Bool) (kind : Nat) : Nat :=
  if fb then match m.fbEntry kind with
    | some j => m.secOff secFallback + m.sn secFallback (0x14 + 16 * j) 4
    | none => 0
  else m.secOff kind

/-- `n` bytes at offset `o` of a section of a problem. -/
def ImgBytes.pn (m : ImgBytes) (fb : Bool) (kind o n : Nat) : Nat := m.num (m.probOff fb kind + o) n

/-- Fields of the GRAPH header (Table 5). -/
def ImgBytes.fnom (m : ImgBytes) : Nat := m.sn secGraph 0x02 1
def ImgBytes.scenMain (m : ImgBytes) : Nat := m.sn secGraph 0x03 1
def ImgBytes.nstepMain (m : ImgBytes) : Nat := m.sn secGraph 0x04 2
def ImgBytes.stepMin (m : ImgBytes) : Nat := m.sn secGraph 0x06 2
def ImgBytes.nunit (m : ImgBytes) : Nat := m.sn secGraph 0x08 1
def ImgBytes.ngroup (m : ImgBytes) : Nat := m.sn secGraph 0x09 1
def ImgBytes.npump (m : ImgBytes) : Nat := m.sn secGraph 0x0A 2
def ImgBytes.nseg (m : ImgBytes) : Nat := m.sn secGraph 0x0C 2
def ImgBytes.nnode (m : ImgBytes) : Nat := m.sn secGraph 0x0E 2
def ImgBytes.nsub (m : ImgBytes) : Nat := m.sn secGraph 0x10 2
def ImgBytes.lagMax (m : ImgBytes) : Nat := m.sn secGraph 0x12 1

/-- Offsets of unit, pump, segment, node and substation records in the GRAPH section (Tables 6 to 10). -/
def ImgBytes.unitRec (m : ImgBytes) (u : Nat) : Nat := m.sn secGraph 0x18 4 + 32 * u
def ImgBytes.pumpRec (m : ImgBytes) (p : Nat) : Nat := m.sn secGraph 0x1C 4 + 16 * p
def ImgBytes.segRec (m : ImgBytes) (e : Nat) : Nat := m.sn secGraph 0x20 4 + 24 * e
def ImgBytes.nodeRec (m : ImgBytes) (n : Nat) : Nat := m.sn secGraph 0x24 4 + 16 * n
def ImgBytes.subRec (m : ImgBytes) (i : Nat) : Nat := m.sn secGraph 0x28 4 + 32 * i

/-- `n` bytes of the GRAPH section read as two's complement. -/
def ImgBytes.gInt (m : ImgBytes) (o n : Nat) : Int := signedOf (8 * n) (m.sn secGraph o n)

/-- Unit `u` is a store (KIND 2 or 3). -/
def ImgBytes.isStore (m : ImgBytes) (u : Nat) : Bool := 2 ≤ m.sn secGraph (m.unitRec u) 1

/-- Node of unit `u`. -/
def ImgBytes.unitNode (m : ImgBytes) (u : Nat) : Nat := m.sn secGraph (m.unitRec u + 2) 2

/-- Node `n` is MONITORED. -/
def ImgBytes.monitored (m : ImgBytes) (n : Nat) : Bool := (m.sn secGraph (m.nodeRec n) 1).testBit 0

/-- Segment `e` is BIDIR. -/
def ImgBytes.bidir (m : ImgBytes) (e : Nat) : Bool := (m.sn secGraph (m.segRec e + 0x0B) 1).testBit 0

/-- Plants, stores, MONITORED nodes. -/
def ImgBytes.plants (m : ImgBytes) : List Nat := (List.range m.nunit).filter (fun u => !m.isStore u)
def ImgBytes.stores (m : ImgBytes) : List Nat := (List.range m.nunit).filter m.isStore
def ImgBytes.nmon (m : ImgBytes) : Nat := ((List.range m.nnode).filter m.monitored).length

/-- NV1 (R177). -/
def ImgBytes.nv1 (m : ImgBytes) : Nat :=
  2 * m.plants.length + 4 * m.stores.length + 2 * m.npump + m.nseg + 2 * m.nnode + 2 * m.nmon + 5 * m.nsub + 2

/-- SB (R177). -/
def ImgBytes.sb (m : ImgBytes) : Nat := (64 + 16 * m.nunit + 8 * m.npump + 8 * m.nsub + 63) / 64 * 64

/-- NSTEP and SCEN of a problem (R206). -/
def ImgBytes.nstep (m : ImgBytes) (fb : Bool) : Nat := if fb then m.sn secFallback 0x04 2 else m.nstepMain
def ImgBytes.scen (m : ImgBytes) (fb : Bool) : Nat := if fb then m.sn secFallback 0x02 1 else m.scenMain

/-- Steps and scenarios of the running problem. -/
def State.nstep (s : State) : Nat := s.runImg.nstep s.dsp.fallback
def State.scen (s : State) : Nat := s.runImg.scen s.dsp.fallback

/-! ## Variables (R110, R132) -/

/-- The variables of one step of one scenario (Table 2). -/
inductive Var where
  | plantQ (u : Nat) | plantM (u : Nat)
  | storeC (u : Nat) | storeD (u : Nat) | storeX (u : Nat) | storeM (u : Nat)
  | pumpH (p : Nat) | pumpM (p : Nat)
  | segM (e : Nat)
  | nodeDp (n : Nat) | nodeT (n : Nat) | nodeSdp (n : Nat) | nodeSt (n : Nat)
  | subQ (i : Nat) | subM (i : Nat) | subTset (i : Nat) | subSq (i : Nat) | subSt (i : Nat)
  | gridImp | gridExp
  deriving DecidableEq, Repr

/-- The variables of a step in the order of R132: element classes in the order of Table 2, then elements by index. -/
def ImgBytes.vars (m : ImgBytes) : List Var :=
  m.plants.flatMap (fun u => [.plantQ u, .plantM u])
    ++ m.stores.flatMap (fun u => [.storeC u, .storeD u, .storeX u, .storeM u])
    ++ (List.range m.npump).flatMap (fun p => [.pumpH p, .pumpM p])
    ++ (List.range m.nseg).map (fun e => .segM e)
    ++ (List.range m.nnode).flatMap (fun n =>
        [.nodeDp n, .nodeT n] ++ (if m.monitored n then [.nodeSdp n, .nodeSt n] else []))
    ++ (List.range m.nsub).flatMap (fun i => [.subQ i, .subM i, .subTset i, .subSq i, .subSt i])
    ++ [.gridImp, .gridExp]

/-- A slack, which each scenario has of its own at step 0 too (R118). -/
def Var.isSlack : Var → Bool
  | .nodeSdp _ | .nodeSt _ | .subSq _ | .subSt _ => true
  | _ => false

/-- The bounds of a variable in register encoding (Table 2), from the registers `r`. -/
def ImgBytes.bounds (m : ImgBytes) (r : Tab 32) : Var → Option Int × Option Int
  | .plantQ u => (some (tabGet 0#32 r (Reg.DSP_UNIT_u_QMIN u)).toInt, some (tabGet 0#32 r (Reg.DSP_UNIT_u_QMAX u)).toInt)
  | .storeC u => (some 0, some (tabGet 0#32 r (Reg.DSP_UNIT_u_QMIN u)).toInt)
  | .storeD u => (some 0, some (tabGet 0#32 r (Reg.DSP_UNIT_u_QMAX u)).toInt)
  | .storeX u => (some (tabGet 0#32 r (Reg.DSP_UNIT_u_XMIN u)).toInt, some (tabGet 0#32 r (Reg.DSP_UNIT_u_XMAX u)).toInt)
  | .pumpH p => (some (tabGet 0#32 r (Reg.DSP_PUMP_p_HMIN p)).toInt, some (tabGet 0#32 r (Reg.DSP_PUMP_p_HMAX p)).toInt)
  | .segM e => (if m.bidir e then none else some 0, none)
  | .subQ i => (some 0, some (m.gInt (m.subRec i + 0x18) 4))
  | .gridImp => (some 0, some (tabGet 0#32 r Reg.DSP_GIMPMAX).toInt)
  | .gridExp => (some 0, some (tabGet 0#32 r Reg.DSP_GEXPMAX).toInt)
  | .plantM _ | .pumpM _ | .subM _ | .nodeSdp _ | .nodeSt _ | .subSq _ | .subSt _ => (some 0, none)
  | .storeM _ | .nodeDp _ | .nodeT _ | .subTset _ => (none, none)

/-- Units of a trajectory value per register LSB. -/
def lsb : Int := 34359738368

/-- A value projected onto bounds given in register encoding (R170). -/
def project (b : Option Int × Option Int) (x : Int) : Int :=
  let y := match b.1 with
    | some lo => if x < lo * lsb then lo * lsb else x
    | none => x
  match b.2 with
  | some hi => if hi * lsb < y then hi * lsb else y
  | none => y

/-- Every step of every scenario projected onto the bounds of its variables (R170), and whether that changed a value. -/
def ImgBytes.projectTraj (m : ImgBytes) (r : Tab 32) (x : List Int) : List Int × Bool :=
  let vs := m.vars
  let n := vs.length
  let y := x.zipIdx.map (fun e => match vs[e.2 % n]? with
    | some v => project (m.bounds r v) e.1
    | none => e.1)
  (y, !(x == y))

/-- A value in register encoding (R171): rounded to the nearest LSB, ties toward +∞; and whether it leaves the signed
32-bit range. -/
def encodeInt (x : Int) : Int := (x + lsb / 2) / lsb
def encodeSat (x : Int) : Bool := encodeInt x > 0x7FFFFFFF || encodeInt x < -0x80000000
def encode (x : Int) : Word := satWord (encodeInt x)

/-! ## Trajectories -/

/-- Values shifted by `k` steps, the last step repeated (R108): `w` values a step, `n` steps a scenario. -/
def shiftSteps (k w n : Nat) (x : List Int) : List Int :=
  (List.range x.length).map (fun i =>
    let sc := i / (w * n)
    let st := i / w % n
    x.getD ((sc * n + min (st + k) (n - 1)) * w + i % w) 0)

/-- The trajectory aligned to a new horizon by a shift of `k` steps (R108), its multipliers in the same way (R135). -/
def Traj.align (t : Traj) (k n sc : Nat) : Traj :=
  let wide (l : List Int) : Nat := l.length / (n * sc)
  ⟨shiftSteps k (wide t.x) n t.x, shiftSteps k (wide t.mult) n t.mult⟩

/-- The value of a variable index of step `k` in scenario `sc`; the shared variables of step 0 are those of scenario 0
(R118). DESIGN CHOICE: after a shift of 1 they are scenario 0's old step 1; the spec does not say whose value becomes the
shared one (log entry 73). -/
def ImgBytes.valueAt (m : ImgBytes) (n : Nat) (x : List Int) (sc k : Nat) (j : Nat) (v : Var) : Int :=
  let w := m.nv1
  x.getD (((if k = 0 && !v.isSlack then 0 else sc) * n + k) * w + j) 0

/-- The default safe trajectory of a problem (R181), in every scenario. -/
def ImgBytes.safeTraj (m : ImgBytes) (fb : Bool) : Traj :=
  let n := m.nstep fb
  let w := m.nv1
  let i32 (o : Nat) : Int := signedOf 32 (m.pn fb secSafetraj o 4)
  let profs := m.pn fb secSafetraj 0x08 4
  let ofs := m.pn fb secSafetraj 0x0C 4
  let at_ (k j : Nat) : Int :=
    match (List.range profs).find? (fun r => m.pn fb secSafetraj (ofs + r * (4 + 4 * n)) 4 == j) with
    | some r => i32 (ofs + r * (4 + 4 * n) + 4 + 4 * k)
    | none => i32 (0x20 + 4 * j)
  let one := (List.range n).flatMap (fun k => (List.range w).map (fun j => at_ k j * lsb))
  ⟨(List.range (m.scen fb)).flatMap (fun _ => one), []⟩

/-! ## The result in force -/

/-- The streams of a published trajectory: per scenario, step by step, the variables in register encoding (R180). -/
def ImgBytes.streamsOf (m : ImgBytes) (n sc : Nat) (x : List Int) : List (List Word) :=
  let vs := m.vars.zipIdx
  (List.range sc).map (fun c => (List.range n).flatMap (fun k => vs.map (fun e => encode (m.valueAt n x c k e.2 e.1))))

/-- The values that R171 converts: those of scenario 0, and of the other scenarios those that are their own (R118). -/
def ImgBytes.converted (m : ImgBytes) (n sc : Nat) (x : List Int) : List Int :=
  let vs := m.vars.zipIdx
  (List.range sc).flatMap (fun c => (List.range n).flatMap (fun k => vs.filterMap (fun e =>
    if c = 0 || k ≠ 0 || e.1.isSlack then some (m.valueAt n x c k e.2 e.1) else none)))

/-- A setpoint block (R179, Table 5): step `k`, of scenario 0. -/
def ImgBytes.setpointBlock (m : ImgBytes) (n : Nat) (x : List Int) (k : Nat) : List Byte :=
  let vs := m.vars
  let val (v : Var) : Int := match vs.idxOf? v with
    | some j => m.valueAt n x 0 k j v
    | none => 0
  let w (x : Int) : List Byte := leBytes 4 (encode x).toNat
  let units := (List.range m.nunit).flatMap (fun u =>
    let t := w (val (.nodeT (m.unitNode u)))
    if m.isStore u then w (val (.storeD u) - val (.storeC u)) ++ w (val (.storeM u)) ++ t ++ w (val (.storeX u))
    else w (val (.plantQ u)) ++ w (val (.plantM u)) ++ t ++ w 0)
  let pumps := (List.range m.npump).flatMap (fun p => w (val (.pumpH p)) ++ w (val (.pumpM p)))
  let subs := (List.range m.nsub).flatMap (fun i => w (val (.subTset i)) ++ w (val (.subQ i)))
  let b := w (val .gridImp) ++ w (val .gridExp) ++ List.replicate 56 0#8 ++ units ++ pumps ++ subs
  b ++ List.replicate (m.sb - b.length) 0#8

/-- Statuses of a result (Table 4). -/
def resOptimal : Nat := 1
def resAcceptable : Nat := 2
def resShifted : Nat := 3
def resCold : Nat := 4
def resFailed : Nat := 5

/-- Codes of SLV_LASTSTOP.REASON. -/
def stopCode : Stop → Nat
  | .none => 0 | .test => 1 | .itermax => 2 | .deadline => 3 | .reject => 4 | .nostart => 5 | .abort => 6

/-- A header's first 60 bytes with its CRC (Table 4). -/
def headerCrc (b : List Byte) : List Byte := b ++ leBytes 4 (crc32c b).toNat

/-- A field of the header of the result in force. -/
def State.resNum (s : State) (o n : Nat) : Nat := leNat ((s.dsp.header.drop o).take n)

/-- Bytes of a list replaced from an offset on. -/
def putBytes (l : List Byte) (o : Nat) (b : List Byte) : List Byte := l.take o ++ b ++ l.drop (o + b.length)

/-- DSP_RES_LAST, DSP_RES_CYCLE and the counters, flags and interrupt of a publication. -/
def State.resReport (s : State) (status : Nat) : State :=
  let s1 := (s.setFld Reg.DSP_RES_LAST 0 3 status).setFld Reg.DSP_RES_LAST 16 16 (s.resNum 0x24 2)
  let s2 := s1.wr Reg.DSP_RES_CYCLE (BitVec.ofNat 32 (s.resNum 0x00 4))
  let s3 := match status with
    | 1 => s2.count Reg.DSP_RES_CNT_OPT
    | 2 => s2.count Reg.DSP_RES_CNT_ACC
    | 3 => (s2.count Reg.DSP_RES_CNT_SHIFT).setBit Reg.DSP_RES_STAT 0 true
    | 4 => (s2.count Reg.DSP_RES_CNT_COLD).setBit Reg.DSP_RES_STAT 1 true
    | _ => (s2.count Reg.DSP_RES_CNT_FAIL).setBit Reg.DSP_RES_STAT 2 true
  let s4 := s3.onlyIf (3 ≤ status) (fun s => s.irqRes 1)
  { s4 with dsp := { s4.dsp with pubFresh := true, since := if status ≤ 2 then 0 else min 0xFFFE (s4.dsp.since + 1) } }

/-- R171 with DSP_RES_INJ.ENCCHK: the number of saturated values, and the value that the first converted value takes when
its test is inverted, which is free. -/
def State.encodeReport (s : State) (conv : List Int) : State :=
  let inj := s.bit Reg.DSP_RES_INJ 1
  let first := match conv with
    | [] => false
    | x :: _ => encodeSat x
  let n := (conv.filter encodeSat).length
  let n' := if inj && !conv.isEmpty then (if first then n - 1 else n + 1) else n
  let s1 := s.onlyIf (!conv.isEmpty) (fun s => s.injRan Reg.DSP_RES_INJ 1)
  (s1.countN Reg.DSP_RES_CNT_ENCSAT n').onlyIf (0 < n') (fun s => s.setBit Reg.DSP_RES_STAT 4 true)

/-- The word that the first converted value takes under an inverted test: one of the two bounds where it lies inside the
range, any value where it lies outside (R171, R183 state neither): free. -/
def State.injFirst (s : State) (conv : List Int) : Option Word × State :=
  if s.bit Reg.DSP_RES_INJ 1 then match conv with
    | [] => (none, s)
    | x :: _ =>
      let r := s.freeBits 32
      if encodeSat x then (some (BitVec.ofNat 32 r.1), r.2)
      else (some (if r.1 % 2 = 0 then 0x7FFFFFFF#32 else 0x80000000#32), r.2)
  else (none, s)

/-- The first word of each stream and of each setpoint block that shows the first converted value. -/
def putFirst (m : ImgBytes) (l : List (List Word)) (w : Option Word) : List (List Word) := match w with
  | none => l
  | some v => match m.vars with
    | x :: _ => l.zipIdx.map (fun e => if e.2 = 0 || !x.isSlack then (match e.1 with
      | _ :: t => v :: t
      | [] => []) else e.1)
    | [] => l

/-- The trajectory's streams and setpoint blocks are put in force. -/
def State.putStreams (s : State) (x : List Int) : State :=
  let m := s.runImg
  let n := s.nstep
  let conv := m.converted n s.scen x
  let r := s.injFirst conv
  let s1 := r.2.encodeReport conv
  let blk := m.setpointBlock n x 0 ++ m.setpointBlock n x 1
  let blk' := match r.1, m.vars with
    | some v, .plantQ u :: _ => putBytes blk (0x40 + 16 * u) (leBytes 4 v.toNat)
    | _, _ => blk
  let dsp := { s1.dsp with streams := putFirst m (m.streamsOf n s.scen x) r.1, setpoints := blk' }
  { s1 with dsp := dsp }

/-- The measure in units of 2^-24, its rounding left open, saturated at 0xFFFF_FFFE (Table 4). -/
def State.measureWord (s : State) (k : Measure) : Nat × State :=
  let r := s.roundOpen ((k.num * 16777216 : Rat) / k.den)
  (min 0xFFFFFFFE r.1.toNat, r.2)

/-- RP, RG, RD and MU. -/
def State.measureWords (s : State) (k : Option Measures) : List Nat × State := match k with
  | none => ([0xFFFFFFFF, 0xFFFFFFFF, 0xFFFFFFFF, 0xFFFFFFFF], s)
  | some k =>
    let a := s.measureWord k.rp
    let b := a.2.measureWord k.rg
    let c := b.2.measureWord k.rd
    let d := c.2.measureWord k.mu
    ([a.1, b.1, c.1, d.1], d.2)

/-! ## The COLD result of an activation (R175, R204) -/

/-- The fit test of R130 for a problem: the mapped lanes and usable banks suffice. -/
def State.fits (s : State) (fb : Bool) : Bool :=
  let m := s.runImg
  m.pn fb secSched 0x03 1 ≤ s.fld Reg.SLV_MAPCNT 0 5 && m.pn fb secSched 0x02 1 + 2 ≤ s.fld Reg.SLV_MAPCNT 8 6

/-- The running image carries a FALLBACK section. -/
def State.hasFallback (s : State) : Bool := (s.runImg.find secFallback).isSome

/-- The registers that describe the running problem (R206): DSP_SHAPE, DSP_NNZ, DSP_NFAC, DSP_RES_NV1, DSP_RES_SB,
SLV_N, SLV_FLINES, SLV_ROOTVAL, SLV_FABITER, SLV_MACITER, SLV_GEOM, SLV_NQ. -/
def State.showProblem (s : State) (fb : Bool) : State :=
  let m := s.runImg
  let w (t : State) (a n : Nat) : State := t.wr a (BitVec.ofNat 32 n)
  let sch (o n : Nat) : Nat := m.pn fb secSched o n
  let s1 := w s Reg.DSP_SHAPE (m.nstep fb + m.stepMin * 2 ^ 8 + m.fnom * 2 ^ 16 + m.scen fb * 2 ^ 24)
  let s2 := w (w s1 Reg.DSP_NNZ (sch 0x10 4)) Reg.DSP_NFAC (sch 0x44 4)
  let s3 := w (w s2 Reg.DSP_RES_NV1 m.nv1) Reg.DSP_RES_SB m.sb
  let s4 := w (w (w s3 Reg.SLV_N (sch 0x04 4)) Reg.SLV_FLINES (sch 0x14 4)) Reg.SLV_ROOTVAL (sch 0x1C 4)
  let s5 := w (w s4 Reg.SLV_FABITER (sch 0x3C 4)) Reg.SLV_MACITER (sch 0x40 4)
  let s6 := w s5 Reg.SLV_GEOM (sch 0x02 1 + sch 0x03 1 * 2 ^ 8 + sch 0x18 2 * 2 ^ 16)
  w s6 Reg.SLV_NQ (m.pn fb secQfmt 0x02 2)

/-- DSP_STEPLAPS and DSP_COUNTS0 to 2 of the running image. -/
def State.showGraph (s : State) : State :=
  let m := s.runImg
  let w (t : State) (a n : Nat) : State := t.wr a (BitVec.ofNat 32 n)
  let s1 := w s Reg.DSP_STEPLAPS (m.stepMin * 60 * m.fnom)
  let s2 := w (w s1 Reg.DSP_COUNTS0 (m.nnode + m.nsub * 2 ^ 16)) Reg.DSP_COUNTS1 (m.nseg + m.npump * 2 ^ 16)
  w s2 Reg.DSP_COUNTS2 (m.nunit + m.ngroup * 2 ^ 8 + m.lagMax * 2 ^ 16)

/-- The running problem is the main one or the FALLBACK one; a change discards the accepted trajectory (R164). -/
def State.toProblem (s : State) (fb : Bool) : State :=
  let s1 := if s.dsp.fallback = fb then s
    else { s with dsp := { s.dsp with fallback := fb, accepted := none } }
  (s1.setBit Reg.IMG_RUN 2 fb).showProblem fb

/-- The COLD result with CYCLE 0 and STOP NONE stands in the streams and in DSP_RES_LAST (R174, R175). What the spec does not
state of it, TAU0 and GRID1, is free. -/
def State.coldInForce (s : State) : State :=
  let m := s.runImg
  let p := m.projectTraj s.regs (m.safeTraj s.dsp.fallback).x
  let a := s.freeBits 32
  let b := a.2.freeBits 32
  let flags := p.2.toNat * 2 + 4 + s.dsp.fallback.toNat * 16
  let h := leBytes 4 0 ++ leBytes 4 resCold ++ leBytes 8 s.nextEpoch ++ leBytes 8 s.nextEpoch ++ leBytes 8 a.1
    ++ leBytes 4 b.1 ++ leBytes 2 0xFFFF ++ leBytes 1 0 ++ leBytes 1 flags ++ List.replicate 16 0xFF#8
    ++ leBytes 4 (s.nat (Reg.IMG_SHASH 0))
  let s1 := b.2.putStreams p.1
  let dsp := { s1.dsp with header := headerCrc h, accepted := none, resLap := s.lap.count, coldDue := false }
  let s2 := ((({ s1 with dsp := dsp }).setFld Reg.DSP_RES_LAST 0 3 resCold).setBit Reg.DSP_RES_LAST 4 false)
  (s2.setFld Reg.DSP_RES_LAST 16 16 0xFFFF).wr Reg.DSP_RES_CYCLE 0#32

/-- The COLD result that stands from a start (R174) is published with the first sett: START_EPOCH and PUB_EPOCH are its epoch
(R178). -/
def State.coldEpochs (s : State) : State :=
  if s.imgRuns && !s.sett.started && s.resNum 0x04 1 = resCold && s.resNum 0x00 4 = 0 then
    let h := putBytes (s.dsp.header.take 60) 0x08 (leBytes 8 s.nextEpoch ++ leBytes 8 s.nextEpoch)
    { s with dsp := { s.dsp with header := headerCrc h } }
  else s

/-- Publish a COLD result with CYCLE 0 and STOP NONE at this boundary (R175). -/
def State.publishCold (s : State) : State :=
  let clipped := (s.runImg.projectTraj s.regs (s.runImg.safeTraj s.dsp.fallback).x).2
  ((s.coldInForce).onlyIf clipped (fun t => t.setBit Reg.DSP_RES_STAT 3 true)).resReport resCold

/-! ## Grid points (R106, R176) -/

/-- A grid instant lies in the interval after the previous commit time up to this one (R106); at the first commit of a start,
in the lap that ends there. -/
def State.gridByTime (s : State) : Bool :=
  let step := s.runImg.stepMin * 60 * 1000000000
  let now := s.sett.lastSec * 1000000000 + s.sett.lastNs
  let first := s.sett.prevSec == 0 && s.sett.prevNs == 0
  let prev := if first then now - s.fld Reg.LAP_PERIOD 0 25 else s.sett.prevSec * 1000000000 + s.sett.prevNs
  step != 0 && prev / step < now / step

/-- STEPLAPS laps have passed since the last grid point (R106). DESIGN CHOICE: before the first grid point of a start the count
has not begun and none is taken; the spec does not say where it would begin (log entry 45). -/
def State.gridByCount (s : State) : Bool := match s.dsp.gridLap with
  | some l => l + s.nat Reg.DSP_STEPLAPS ≤ s.lap.count
  | none => false

/-- A grid point is due at this boundary, and none has been taken at it. -/
def State.gridDue (s : State) : Bool :=
  s.imgRuns && s.lap.tick == 0 && s.dsp.gridLap != some s.lap.count
    && (if s.sett.timeValid then s.gridByTime else s.gridByCount)

/-- The node temperatures of the step in force, in scenario 0 of the result in force: what the trajectory history takes of a step
that has passed (R112). DESIGN CHOICE: the spec does not say when the history is written, of which scenario, or how long it is: here
at each grid point, of scenario 0, 16 steps (log entry 74). Without a result the entry is absent. -/
def State.stepTemps (s : State) : List Int :=
  let m := s.runImg
  let l := s.dsp.streams.getD 0 []
  let k := (s.bit Reg.DSP_RES_LAST 4).toNat
  if l.isEmpty then [] else (List.range m.nnode).map (fun n => (l.getD (k * m.nv1 + m.vars.idxOf (.nodeT n)) 0#32).toInt)

/-- Take a grid point (R106): step 1 of the result in force comes into force (R176). -/
def State.takeGrid (s : State) : State :=
  if !s.gridDue then s
  else
    let hist := (s.stepTemps :: s.dsp.history).take 16
    let s1 := { s with dsp := { s.dsp with gridLap := some s.lap.count, gridSince := true, history := hist } }
    let s2 := s1.wr Reg.DSP_GRIDPT_LO (BitVec.ofNat 32 s.lap.count)
    s2.onlyIf (s.dsp.resLap < s.lap.count && !s.dsp.header.isEmpty && !s.bit Reg.DSP_RES_LAST 4)
      (fun s => (s.setBit Reg.DSP_RES_LAST 4 true).irqRes 2)

end Sys2Proof.Machine
end

