-- ==== Sys2Proof/Machine/ProbOps.lean ====
section
/-!
DEFINITION. Machine/ProbOps.lean: the programme of a dispatch cycle in the model units of R109: the GRAPH coefficients
(R120), the rows of Table 3 (R111 to R113) and the objective of Table 4 (R117) of spec/04_dispatch_problem.md, and from
them H, g, A, b, G and h in the canonical order of R131 and R132 of spec/05_solver_lanes_and_schedule.md. Every value is
exact here; the assembly unit converts it afterwards.
-/

namespace Sys2Proof.Machine

/-! ## GRAPH coefficients in model units (R109, R120) -/

/-- A register value whose LSB is a thousandth of the model unit (Table 1). -/
def milli (v : Int) : Rat := (v : Rat) / 1000

/-- A Q16.16 value. -/
def q16 (v : Int) : Rat := (v : Rat) / 65536

def ImgBytes.tGround (m : ImgBytes) : Rat := milli (m.gInt 0x14 4)
def ImgBytes.cp (m : ImgBytes) : Rat := m.sn secGraph 0x2C 4
/-- RHO in kg/m³. -/
def ImgBytes.rho (m : ImgBytes) : Rat := milli (m.sn secGraph 0x30 4)
/-- The length of a step, h. -/
def ImgBytes.stepH (m : ImgBytes) : Rat := (m.stepMin : Rat) / 60

/-- Plants (Table 6): A_EL, B_EL in kW, C_FUEL, D_FUEL in kW. -/
def ImgBytes.aEl (m : ImgBytes) (u : Nat) : Rat := q16 (m.gInt (m.unitRec u + 4) 4)
def ImgBytes.bEl (m : ImgBytes) (u : Nat) : Rat := milli (m.gInt (m.unitRec u + 8) 4)
def ImgBytes.cFuel (m : ImgBytes) (u : Nat) : Rat := q16 (m.gInt (m.unitRec u + 0x0C) 4)
def ImgBytes.dFuel (m : ImgBytes) (u : Nat) : Rat := milli (m.gInt (m.unitRec u + 0x10) 4)

/-- Stores (Table 6): ETA_C, ETA_D, LOSS per hour, TTOP. -/
def ImgBytes.etaC (m : ImgBytes) (u : Nat) : Rat := q16 (m.sn secGraph (m.unitRec u + 4) 4)
def ImgBytes.etaD (m : ImgBytes) (u : Nat) : Rat := q16 (m.sn secGraph (m.unitRec u + 8) 4)
def ImgBytes.loss (m : ImgBytes) (u : Nat) : Rat := (m.sn secGraph (m.unitRec u + 0x0C) 4 : Rat) / 4294967296
def ImgBytes.tTop (m : ImgBytes) (u : Nat) : Rat := milli (m.gInt (m.unitRec u + 0x18) 4)

/-- Pumps (Table 7): suction and discharge node, efficiency, physical flow limit. -/
def ImgBytes.pumpIn (m : ImgBytes) (p : Nat) : Nat := m.sn secGraph (m.pumpRec p) 2
def ImgBytes.pumpOut (m : ImgBytes) (p : Nat) : Nat := m.sn secGraph (m.pumpRec p + 2) 2
def ImgBytes.pumpEta (m : ImgBytes) (p : Nat) : Rat := q16 (m.sn secGraph (m.pumpRec p + 4) 2)
def ImgBytes.pumpMphys (m : ImgBytes) (p : Nat) : Rat := milli (m.sn secGraph (m.pumpRec p + 0x0C) 4)

/-- Segments (Table 8): nodes, length in m, diameter in mm, LAG, volume in m³, resistance in kPa/(kg/s)², UA in W/K. -/
def ImgBytes.segA (m : ImgBytes) (e : Nat) : Nat := m.sn secGraph (m.segRec e) 2
def ImgBytes.segB (m : ImgBytes) (e : Nat) : Nat := m.sn secGraph (m.segRec e + 2) 2
def ImgBytes.segLen (m : ImgBytes) (e : Nat) : Rat := milli (m.sn secGraph (m.segRec e + 4) 4)
def ImgBytes.segDiam (m : ImgBytes) (e : Nat) : Nat := m.sn secGraph (m.segRec e + 8) 2
def ImgBytes.segLag (m : ImgBytes) (e : Nat) : Nat := m.sn secGraph (m.segRec e + 0x0A) 1
def ImgBytes.segVol (m : ImgBytes) (e : Nat) : Rat := milli (m.sn secGraph (m.segRec e + 0x0C) 4)
def ImgBytes.segRes (m : ImgBytes) (e : Nat) : Rat := milli (m.sn secGraph (m.segRec e + 0x10) 4) / 256
def ImgBytes.segUa (m : ImgBytes) (e : Nat) : Rat := milli (m.sn secGraph (m.segRec e + 0x14) 4)

/-- Nodes (Table 9): medium COLD, DPMIN, DPMAX, TSMAX. -/
def ImgBytes.cold (m : ImgBytes) (n : Nat) : Bool := (m.sn secGraph (m.nodeRec n) 1).testBit 1
def ImgBytes.dpMin (m : ImgBytes) (n : Nat) : Rat := milli (m.gInt (m.nodeRec n + 4) 4)
def ImgBytes.dpMax (m : ImgBytes) (n : Nat) : Rat := milli (m.gInt (m.nodeRec n + 8) 4)
def ImgBytes.tsMax (m : ImgBytes) (n : Nat) : Rat := milli (m.gInt (m.nodeRec n + 0x0C) 4)

/-- Substations (Table 10): node, comfort group, APPR, TRET. -/
def ImgBytes.subNode (m : ImgBytes) (i : Nat) : Nat := m.sn secGraph (m.subRec i) 2
def ImgBytes.subGroup (m : ImgBytes) (i : Nat) : Nat := m.sn secGraph (m.subRec i + 2) 1
def ImgBytes.appr (m : ImgBytes) (i : Nat) : Rat := milli (m.gInt (m.subRec i + 0x10) 4)
def ImgBytes.tRet (m : ImgBytes) (i : Nat) : Rat := milli (m.gInt (m.subRec i + 0x14) 4)

/-! ## Columns and rows (R110, R111, R132) -/

/-- A primal column: a variable of a step of a scenario. -/
structure Col where
  sc : Nat
  k : Nat
  v : Var
  deriving DecidableEq, Repr

/-- The variables of step 0 that R118 shares stand for scenario 0's. -/
def Col.shared (c : Col) : Col := if c.k = 0 && !c.v.isSlack then ⟨0, 0, c.v⟩ else c

/-- A row of Table 3. -/
inductive Row where
  | storeBal (u : Nat) | plantHeat (u : Nat) | mass (n : Nat) | drop (e : Nat) | pump (p : Nat)
  | transA (e : Nat) | transB (e : Nat) | mixing (n : Nat) | subHeat (i : Nat) | elec
  | ramp (u : Nat) | draw (i : Nat) | bandLo (i : Nat) | bandHi (i : Nat) | approach (i : Nat)
  | dpLo (n : Nat) | dpHi (n : Nat) | tempHi (n : Nat)
  deriving DecidableEq, Repr

/-- The row holds a slack, so that at step 0 every scenario has one of its own (R118, R132). -/
def Row.own : Row → Bool
  | .draw _ | .bandLo _ | .bandHi _ | .dpLo _ | .tempHi _ => true
  | _ => false

/-- What flows into a node by the structure of the graph: segments that end there or may flow either way, pumps that discharge
there, plants and stores (R111). -/
def ImgBytes.inflows (m : ImgBytes) (n : Nat) : Nat :=
  ((List.range m.nseg).filter (fun e => m.segB e == n || (m.bidir e && m.segA e == n))).length
    + ((List.range m.npump).filter (fun p => m.pumpOut p == n)).length
    + ((List.range m.nunit).filter (fun u => m.unitNode u == n)).length

/-- The equality rows of a step in the order of Table 3. -/
def ImgBytes.eqRows (m : ImgBytes) : List Row :=
  m.stores.map .storeBal ++ (List.range m.nunit).map .plantHeat ++ (List.range m.nnode).map .mass
    ++ (List.range m.nseg).map .drop ++ (List.range m.npump).map .pump
    ++ (List.range m.nseg).flatMap (fun e => if m.bidir e then [.transA e, .transB e] else [.transB e])
    ++ ((List.range m.nnode).filter (fun n => 1 < m.inflows n)).map .mixing
    ++ (List.range m.nsub).map .subHeat ++ [.elec]

/-- The general inequality rows of a step in the order of Table 3. The band's two sides hold σT with different signs, so they
are two rows; the ramp is one two-sided row. -/
def ImgBytes.inRows (m : ImgBytes) : List Row :=
  m.plants.map .ramp ++ (List.range m.nsub).map .draw ++ (List.range m.nsub).flatMap (fun i => [.bandLo i, .bandHi i])
    ++ (List.range m.nsub).map .approach
    ++ ((List.range m.nnode).filter m.monitored).flatMap (fun n => [.dpLo n, .dpHi n, .tempHi n])

/-- A row of a step of a scenario. -/
structure RowAt where
  sc : Nat
  k : Nat
  row : Row
  deriving DecidableEq, Repr

/-- A row of step 0 without a slack exists once (R132). -/
def RowAt.shared (r : RowAt) : RowAt := if r.k = 0 && !r.row.own then ⟨0, 0, r.row⟩ else r

/-- Items of a step put in the grouping of R132: those that step 0 shares, then for each scenario and step the others. -/
def grouped {α β : Type} (n scen : Nat) (own : α → Bool) (mk : Nat → Nat → α → β) (l : List α) : List β :=
  (l.filter (fun x => !own x)).map (mk 0 0)
    ++ (List.range scen).flatMap (fun s => (List.range n).flatMap (fun k => (if k = 0 then l.filter own else l).map (mk s k)))

/-- The canonical columns (R132): primal variables, equality rows, general inequality rows. -/
def ImgBytes.primalCols (m : ImgBytes) (fb : Bool) : List Col := grouped (m.nstep fb) (m.scen fb) Var.isSlack Col.mk m.vars
def ImgBytes.eqCols (m : ImgBytes) (fb : Bool) : List RowAt := grouped (m.nstep fb) (m.scen fb) Row.own RowAt.mk m.eqRows
def ImgBytes.inCols (m : ImgBytes) (fb : Bool) : List RowAt := grouped (m.nstep fb) (m.scen fb) Row.own RowAt.mk m.inRows

/-! ## What a cycle's programme is formed from (R101) -/

/-- The image and problem, and what the cycle start fixed. `hist i n`: the temperature of node `n` in the step `i` steps before
the cycle start, 0.001 °C, where the trajectory history holds it. -/
structure Prob where
  img : ImgBytes
  fb : Bool
  cyc : Cycle
  hist : List (List (Option Int))

/-- Steps and scenarios of the problem. -/
def Prob.n (p : Prob) : Nat := p.img.nstep p.fb
def Prob.scen (p : Prob) : Nat := p.img.scen p.fb

/-- A register of the cycle-start sett (R101). -/
def Prob.reg (p : Prob) (a : Nat) : Word := tabGet 0#32 p.cyc.vals a
def Prob.nat (p : Prob) (a : Nat) : Rat := (p.reg a).toNat
def Prob.int (p : Prob) (a : Nat) : Rat := (p.reg a).toInt

/-- The length of step `k`, h (R107). -/
def Prob.tau (p : Prob) (k : Nat) : Rat := if k = 0 then (p.cyc.tau0 : Rat) / 3600000 else p.img.stepH

/-- The value of a variable in the linearisation point, in model units: a barred value of Table 3. -/
def Prob.bar (p : Prob) (sc k : Nat) (v : Var) : Rat := match p.img.vars.idxOf? v with
  | some j => (p.img.valueAt p.n p.cyc.lin.x sc k j v : Rat) / (lsb * 1000)
  | none => 0

/-- The quotient of two exact values; over 0, which the spec does not state, it is free. -/
def openQuot (a b : Rat) : Rat := if b = 0 then (Config.overZero : Int) else a / b

/-- The return temperature at a plant's or store's node (R113): the mean of TRET over the substations of its medium, by their
flows in the linearisation point. -/
def Prob.returnTemp (p : Prob) (sc k node : Nat) : Rat :=
  let l := (List.range p.img.nsub).filter (fun i => p.img.cold (p.img.subNode i) == p.img.cold node)
  let sum (f : Nat → Rat) : Rat := (l.map f).foldl (· + ·) 0
  openQuot (sum (fun i => p.bar sc k (.subM i) * p.img.tRet i)) (sum (fun i => p.bar sc k (.subM i)))

/-- The transport delay of segment `e` at step `k`, s, clamped to LAG × Δ, which a flow of 0 takes (R112). -/
def Prob.delay (p : Prob) (sc k e : Nat) : Rat :=
  let most : Rat := (p.img.segLag e * p.img.stepMin * 60 : Nat)
  let m := p.bar sc k (.segM e)
  let a : Rat := if m < 0 then -m else m
  if a = 0 then most else min (p.img.rho * p.img.segVol e / a) most

/-- The interval of step `k`, s after the cycle start. DESIGN CHOICE: a step before step 0 lasts Δ, the last of them up to the
cycle start; the spec does not say how the history is cut into steps (log entry 74). -/
def Prob.span (p : Prob) (k : Int) : Rat × Rat :=
  let d : Rat := p.img.stepMin * 60
  let t0 : Rat := (p.cyc.tau0 : Rat) / 1000
  if k < 0 then ((k : Rat) * d, ((k + 1 : Int) : Rat) * d)
  else if k = 0 then (0, t0) else (t0 + ((k - 1 : Int) : Rat) * d, t0 + (k : Rat) * d)

/-- w_e,k,j (R112): the fraction of step k's interval that, moved back by the delay, falls in step k − j. -/
def Prob.weight (p : Prob) (sc k e j : Nat) : Rat :=
  let a := p.span k
  let b := p.span ((k : Int) - j)
  let t := p.delay sc k e
  let lap := min (a.2 - t) b.2 - max (a.1 - t) b.1
  if lap ≤ 0 || a.2 ≤ a.1 then 0 else lap / (a.2 - a.1)

/-- A value cut off at 2^-192. -/
def cut192 (q : Rat) : Rat := ((q * 2 ^ 192).floor : Rat) / 2 ^ 192

/-- exp(−q) for q ≥ 0 to within 2^-128: the power series of q / 256, squared eight times. -/
def expNeg (q : Rat) : Rat :=
  if 128 < q then 0
  else
    let r := cut192 (q / 256)
    let t := (List.range 48).foldl (fun (a : Rat × Rat) (i : Nat) => let x := cut192 (a.2 * -r / (i + 1)); (a.1 + x, x)) ((1 : Rat), (1 : Rat))
    (List.range 8).foldl (fun a _ => cut192 (a * a)) t.1

/-- λ_e,k (R112). -/
def Prob.lambda (p : Prob) (sc k e : Nat) : Rat :=
  let c := p.img.cp * p.img.rho * p.img.segVol e
  if c = 0 then 1 else expNeg (p.img.segUa e * p.delay sc k e / c)

/-! ## Rows (R111) -/

/-- A linear form: coefficients by column, and a constant. A column may stand with coefficient 0: it is part of the pattern. -/
structure Lin where
  terms : List (Col × Rat)
  c : Rat
  deriving DecidableEq, Repr

def Lin.const (c : Rat) : Lin := ⟨[], c⟩
def Lin.add (a b : Lin) : Lin := ⟨a.terms ++ b.terms, a.c + b.c⟩
def Lin.scale (a : Lin) (q : Rat) : Lin := ⟨a.terms.map (fun e => (e.1, e.2 * q)), a.c * q⟩
def Lin.sub (a b : Lin) : Lin := a.add (b.scale (-1))
def linSum (l : List Lin) : Lin := l.foldl Lin.add ⟨[], 0⟩

/-- The variable `v` of a step. -/
def colLin (sc k : Nat) (v : Var) : Lin := ⟨[((Col.mk sc k v).shared, 1)], 0⟩

/-- T of a node `j` steps back from step `k`: of step k − j, or of the history before step 0; an entry that is absent is
replaced by the node's temperature in step 0 of the linearisation point (R112, Table 2 of
spec/07_fabric_integrity_and_spares.md). -/
def Prob.tempBack (p : Prob) (sc k j node : Nat) : Lin :=
  if j ≤ k then colLin sc (k - j) (.nodeT node)
  else match (p.hist.getD (j - k - 1) []).getD node none with
    | some t => .const (milli t)
    | none => .const (p.bar sc 0 (.nodeT node))

/-- The temperature at which segment `e` delivers from node `a` (Table 3, Transport). -/
def Prob.delivered (p : Prob) (sc k e a : Nat) : Lin :=
  let l := p.lambda sc k e
  let w := linSum ((List.range (p.img.segLag e + 1)).map (fun j => (p.tempBack sc k j a).scale (p.weight sc k e j * l)))
  w.add (.const (p.img.tGround * (1 - l)))

/-- The value of a linear form in the linearisation point. -/
def Prob.barLin (p : Prob) (a : Lin) : Rat := a.terms.foldl (fun x e => x + e.2 * p.bar e.1.sc e.1.k e.1.v) a.c

/-- An inflow of a node: its flow, the flow's linearised value, and the temperature it brings. -/
structure Inflow where
  flow : Lin
  bar : Rat
  temp : Lin

/-- The inflows of node `n` at step `k` (Mixing). A segment or store whose linearised flow leaves the node brings nothing and
keeps its place in the pattern. -/
def Prob.inflowsAt (p : Prob) (sc k n : Nat) : List Inflow :=
  let m := p.img
  let mk (sign : Rat) (v : Var) (temp : Lin) : Inflow :=
    let b := p.bar sc k v * sign
    if b < 0 then ⟨(colLin sc k v).scale 0, 0, temp.scale 0⟩ else ⟨(colLin sc k v).scale sign, b, temp⟩
  (List.range m.nseg).flatMap (fun e =>
      (if m.segB e = n then [mk 1 (.segM e) (p.delivered sc k e (m.segA e))] else [])
        ++ (if m.bidir e && m.segA e = n then [mk (-1) (.segM e) (p.delivered sc k e (m.segB e))] else []))
    ++ ((List.range m.npump).filter (fun q => m.pumpOut q == n)).map (fun q => mk 1 (.pumpM q) (colLin sc k (.nodeT (m.pumpIn q))))
    ++ ((List.range m.nunit).filter (fun u => m.unitNode u == n)).map (fun u =>
      if m.isStore u then mk 1 (.storeM u) (.const (m.tTop u)) else mk 1 (.plantM u) (colLin sc k (.nodeT n)))

/-- The sign of heat in a medium: a cooling draw or output is the heat taken up. -/
def ImgBytes.heatSign (m : ImgBytes) (node : Nat) : Rat := if m.cold node then -1 else 1

/-- cp [m̄ (T − T̄ret) + (m − m̄)(T̄ − T̄ret)] in kW. -/
def Prob.heat (p : Prob) (sc k : Nat) (flow : Var) (temp : Lin) (ret : Rat) : Lin :=
  let mb := p.bar sc k flow
  let tb := p.barLin temp
  let f := (colLin sc k flow).sub (.const mb)
  ((((temp.sub (.const ret)).scale mb).add (f.scale (tb - ret))).scale (p.img.cp / 1000))

/-- P_p in kW (Electric balance). -/
def Prob.pumpPower (p : Prob) (sc k q : Nat) : Lin :=
  let mb := p.bar sc k (.pumpM q)
  let hb := p.bar sc k (.pumpH q)
  let l := (((colLin sc k (.pumpH q)).scale mb).add ((colLin sc k (.pumpM q)).scale hb)).sub (.const (mb * hb))
  l.scale (1 / (p.img.rho * p.img.pumpEta q))

/-- The flows into node `n` less those out of it (Mass balance). -/
def Prob.massBalance (p : Prob) (sc k n : Nat) : Lin :=
  let m := p.img
  let at_ (c : Bool) (sign : Rat) (v : Var) : List Lin := if c then [(colLin sc k v).scale sign] else []
  linSum ((List.range m.nseg).flatMap (fun e => at_ (m.segB e == n) 1 (.segM e) ++ at_ (m.segA e == n) (-1) (.segM e))
    ++ (List.range m.npump).flatMap (fun q => at_ (m.pumpOut q == n) 1 (.pumpM q) ++ at_ (m.pumpIn q == n) (-1) (.pumpM q))
    ++ (List.range m.nunit).flatMap (fun u => at_ (m.unitNode u == n) 1 (if m.isStore u then .storeM u else .plantM u))
    ++ (List.range m.nsub).flatMap (fun i => at_ (m.subNode i == n) (-1) (.subM i)))

/-- The mixing row of node `n`. -/
def Prob.mixingRow (p : Prob) (sc k n : Nat) : Lin :=
  let tn := p.bar sc k (.nodeT n)
  linSum ((p.inflowsAt sc k n).map (fun i =>
    let d := i.flow.sub (.const i.bar)
    (((colLin sc k (.nodeT n)).scale i.bar).add (d.scale tn)).sub ((i.temp.scale i.bar).add (d.scale (p.barLin i.temp)))))

/-- The transport row that segment `e` gives for the node `b` that it feeds from `a`. The row of a BIDIR segment that m̄ does
not use takes weights 0 and the coefficient 1 on its own end (R113). -/
def Prob.transportRow (p : Prob) (sc k e a b : Nat) (used : Bool) : Lin :=
  let d := p.delivered sc k e a
  (colLin sc k (.nodeT b)).sub (if used then d else ⟨(d.scale 0).terms, p.img.tGround * (1 - p.lambda sc k e)⟩)

/-- The store's row at step `k`. DEDUCED: the variable x of step k is the energy at its end, x_k+1 of Table 3, so that x_0 is the
measured level and every step has its row and its bounds (log entry 74). -/
def Prob.storeRow (p : Prob) (sc k u : Nat) : Lin :=
  let m := p.img
  let t := p.tau k
  let old : Lin := if k = 0 then .const (milli (p.cyc.init.getD u 0)) else colLin sc (k - 1) (.storeX u)
  (colLin sc k (.storeX u)).sub
    (((old.scale (1 - m.loss u * t)).add ((colLin sc k (.storeC u)).scale (m.etaC u * t))).sub
      ((colLin sc k (.storeD u)).scale (openQuot t (m.etaD u))))

/-- The row of a plant's or store's heat. -/
def Prob.unitHeatRow (p : Prob) (sc k u : Nat) : Lin :=
  let m := p.img
  let node := m.unitNode u
  let ret := p.returnTemp sc k node
  let out : Lin := if m.isStore u then (colLin sc k (.storeD u)).sub (colLin sc k (.storeC u)) else colLin sc k (.plantQ u)
  let h := if m.isStore u then p.heat sc k (.storeM u) (.const (m.tTop u)) ret
    else p.heat sc k (.plantM u) (colLin sc k (.nodeT node)) ret
  out.sub (h.scale (m.heatSign node))

/-- The pressure row of segment `e`. -/
def Prob.dropRow (p : Prob) (sc k e : Nat) : Lin :=
  let m := p.img
  let mb := p.bar sc k (.segM e)
  let a : Rat := if mb < 0 then -mb else mb
  let f := ((colLin sc k (.segM e)).scale (2 * a)).sub (.const (mb * a))
  ((colLin sc k (.nodeDp (m.segA e))).sub (colLin sc k (.nodeDp (m.segB e)))).sub (f.scale (m.segRes e))

/-- The electric balance of the site. -/
def Prob.elecRow (p : Prob) (sc k : Nat) : Lin :=
  let m := p.img
  let e (u : Nat) : Lin := ((colLin sc k (.plantQ u)).scale (m.aEl u)).add (.const (m.bEl u))
  (((colLin sc k .gridImp).sub (colLin sc k .gridExp)).sub (linSum ((List.range m.npump).map (p.pumpPower sc k)))).add
    (linSum (m.plants.map e))

/-- An equality row as a form that is 0. -/
def Prob.eqForm (p : Prob) (r : RowAt) : Lin :=
  let m := p.img
  let sc := r.sc
  let k := r.k
  match r.row with
  | .storeBal u => p.storeRow sc k u
  | .plantHeat u => p.unitHeatRow sc k u
  | .mass n => p.massBalance sc k n
  | .drop e => p.dropRow sc k e
  | .pump q => ((colLin sc k (.nodeDp (m.pumpOut q))).sub (colLin sc k (.nodeDp (m.pumpIn q)))).sub (colLin sc k (.pumpH q))
  | .transA e => p.transportRow sc k e (m.segB e) (m.segA e) (decide (p.bar sc k (.segM e) < 0))
  | .transB e => p.transportRow sc k e (m.segA e) (m.segB e) (!m.bidir e || decide (0 ≤ p.bar sc k (.segM e)))
  | .mixing n => p.mixingRow sc k n
  | .subHeat i => (colLin sc k (.subQ i)).sub
      ((p.heat sc k (.subM i) (colLin sc k (.nodeT (m.subNode i))) (m.tRet i)).scale (m.heatSign (m.subNode i)))
  | .elec => p.elecRow sc k
  | _ => ⟨[], 0⟩

/-- D_i,k,s in kW (R115). -/
def Prob.demandOf (p : Prob) (sc i k : Nat) : Rat :=
  (p.cyc.demand.getD ((sc * p.img.nsub + i) * p.n + k) 0 : Rat) / (1000 * 65536 ^ k) / 1000

/-- A general inequality row: its form without a constant, and its lower and upper limit. -/
structure Band where
  form : Lin
  lo : Option Rat
  hi : Option Rat

/-- A general inequality row (Table 3). -/
def Prob.inForm (p : Prob) (r : RowAt) : Band :=
  let m := p.img
  let sc := r.sc
  let k := r.k
  match r.row with
  | .ramp u =>
    let t := p.nat (Reg.DSP_UNIT_u_RAMP u) / 1000 * 60 * p.tau k
    let q := colLin sc k (.plantQ u)
    if k = 0 then let q0 := milli (p.cyc.init.getD u 0); ⟨q, some (q0 - t), some (q0 + t)⟩
    else ⟨q.sub (colLin sc (k - 1) (.plantQ u)), some (-t), some t⟩
  | .draw i => ⟨(colLin sc k (.subQ i)).add (colLin sc k (.subSq i)), some (p.demandOf sc i k), none⟩
  | .bandLo i => ⟨(colLin sc k (.subTset i)).add (colLin sc k (.subSt i)), some (p.int (Reg.DSP_GRP_g_TMIN (m.subGroup i)) / 1000), none⟩
  | .bandHi i => ⟨(colLin sc k (.subTset i)).sub (colLin sc k (.subSt i)), none, some (p.int (Reg.DSP_GRP_g_TMAX (m.subGroup i)) / 1000)⟩
  | .approach i => ⟨(colLin sc k (.subTset i)).sub (colLin sc k (.nodeT (m.subNode i))), none, some (-(m.appr i))⟩
  | .dpLo n => ⟨(colLin sc k (.nodeDp n)).add (colLin sc k (.nodeSdp n)), some (m.dpMin n), none⟩
  | .dpHi n => ⟨colLin sc k (.nodeDp n), none, some (m.dpMax n)⟩
  | .tempHi n => ⟨(colLin sc k (.nodeT n)).sub (colLin sc k (.nodeSt n)), none, some (m.tsMax n)⟩
  | _ => ⟨⟨[], 0⟩, none, none⟩

/-! ## Objective (R117, R119) -/

/-- π_s (R119). -/
def Prob.pi (p : Prob) (sc : Nat) : Rat := openQuot (p.cyc.weights.getD sc 0 : Rat) (p.cyc.weights.foldl (· + ·) 0 : Nat)

/-- The terms of Table 4 at a step of a scenario: linear terms, and quadratic terms whose coefficient stands once for the pair
of columns. The electricity term holds the prices of R116; the constants of the fuel map change no minimum. -/
def Prob.costs (p : Prob) (sc k : Nat) : List (Col × Rat) × List (Col × Col × Rat) :=
  let m := p.img
  let t := p.tau k
  let w := p.pi sc
  let col (k : Nat) (v : Var) : Col := (Col.mk sc k v).shared
  let price := p.cyc.prices.getD (sc * p.n + k) (0, 0)
  let fuel := m.plants.map (fun u =>
    (col k (.plantQ u), w * m.cFuel u * t * (p.int (Reg.DSP_UNIT_u_FUELPRICE u)
      + p.nat Reg.DSP_CO2PRICE * p.nat (Reg.DSP_UNIT_u_EMIS u) / 1000000)))
  let grid := [(col k .gridImp, w * t * (price.1 : Rat)), (col k .gridExp, -(w * t * (price.2 : Rat)))]
  let short := (List.range m.nsub).map (fun i => (col k (.subSq i), w * t * p.nat (Reg.DSP_GRP_g_WCL (m.subGroup i))))
  let wear := m.plants.map (fun u => (u, w * p.nat (Reg.DSP_UNIT_u_WEAR u) / 1000000))
  let first := if k = 0 then wear.map (fun e => (col 0 (.plantQ e.1), -2 * e.2 * milli (p.cyc.init.getD e.1 0))) else []
  let worn := wear.flatMap (fun e =>
    let q := col k (.plantQ e.1)
    if k = 0 then [(q, q, e.2)]
    else let o := col (k - 1) (.plantQ e.1); [(q, q, e.2), (o, o, e.2), (q, o, -2 * e.2)])
  let sq (v : Var) (c : Rat) : Col × Col × Rat := (col k v, col k v, w * t * c)
  let subs := (List.range m.nsub).flatMap (fun i =>
    [sq (.subSq i) (p.nat (Reg.DSP_GRP_g_WCQ (m.subGroup i))), sq (.subSt i) (p.nat (Reg.DSP_GRP_g_WT (m.subGroup i)))])
  let nodes := ((List.range m.nnode).filter m.monitored).flatMap (fun n =>
    [sq (.nodeSdp n) (p.nat Reg.DSP_WLIMDP), sq (.nodeSt n) (p.nat Reg.DSP_WLIMT)])
  (fuel ++ grid ++ short ++ first, worn ++ subs ++ nodes)

/-! ## The quadratic programme (R131, R132) -/

/-- The index of an item in a list, its length when it is absent. -/
def indexIn {α : Type} [DecidableEq α] (l : List α) (x : α) : Nat := l.idxOf x

/-- Entries by number with equal numbers added, in ascending order. -/
def mergeTerms (l : List (Nat × Rat)) : List (Nat × Rat) :=
  l.foldl (fun a e => assocPut a e.1 (assocGet 0 a e.1 + e.2)) []

/-- The coefficients of a form by canonical column. -/
def Lin.byCol (a : Lin) (cols : List Col) : List (Nat × Rat) := mergeTerms (a.terms.map (fun e => (indexIn cols e.1, e.2)))

/-- The limits of a row or a variable as sides, the lower one first. -/
def sidesOf (c : Nat) (lo hi : Option Rat) : List (Side Rat) :=
  (match lo with
    | some l => [⟨c, true, -l⟩]
    | none => []) ++ (match hi with
    | some h => [⟨c, false, h⟩]
    | none => [])

/-- Every scenario and step. -/
def Prob.stepList (p : Prob) : List (Nat × Nat) := (List.range p.scen).flatMap (fun s => (List.range p.n).map (fun k => (s, k)))

/-- H by column: the entries of the lower triangle, the diagonal always among them. -/
def hessian (np : Nat) (quad : List (Nat × Nat × Rat)) : List (List (Nat × Rat)) :=
  (List.range np).map (fun c =>
    mergeTerms ((c, 0) :: (quad.filter (fun e => min e.1 e.2.1 == c)).map (fun e =>
      (max e.1 e.2.1, if e.1 = e.2.1 then 2 * e.2.2 else e.2.2))))

/-- The programme of the cycle (R131) in canonical order (R132). -/
def Prob.qp (p : Prob) : Qp Rat :=
  let cols := p.img.primalCols p.fb
  let np := cols.length
  let eqs := (p.img.eqCols p.fb).map p.eqForm
  let ins := (p.img.inCols p.fb).map p.inForm
  let ne := eqs.length
  let rows := eqs.map (fun a => a.byCol cols) ++ ins.map (fun a => a.form.byCol cols)
  let costs := p.stepList.map (fun e => p.costs e.1 e.2)
  let quad := costs.flatMap (fun c => c.2.map (fun e => (indexIn cols e.1, indexIn cols e.2.1, e.2.2)))
  let lin := mergeTerms (costs.flatMap (fun c => c.1.map (fun e => (indexIn cols e.1, e.2))))
  let hs := hessian np quad
  let below (c : Nat) : List (Nat × Nat × Rat) := rows.zipIdx.filterMap (fun r =>
    (r.1.find? (fun e => e.1 == c)).map (fun e => (np + r.2, c, e.2)))
  let primal := hs.zipIdx.flatMap (fun h => h.1.map (fun e => (e.1, h.2, e.2)) ++ below h.2)
  let duals := (List.range rows.length).map (fun r => (np + r, np + r, (0 : Rat)))
  let bound (c : Col) (i : Nat) : List (Side Rat) :=
    let b := p.img.bounds p.cyc.vals c.v
    sidesOf i (b.1.map milli) (b.2.map milli)
  ⟨np, ne, primal ++ duals, (List.range np).map (assocGet 0 lin), eqs.map (fun a => -a.c),
    cols.zipIdx.flatMap (fun e => bound e.1 e.2) ++ ins.zipIdx.flatMap (fun e => sidesOf (np + ne + e.2) e.1.lo e.1.hi)⟩

end Sys2Proof.Machine
end

