-- ==== Sys2Proof/Machine/FactorOps.lean ====
section
/-!
DEFINITION. Machine/FactorOps.lean: the lanes' fixed-point arithmetic (R139 to R144), the lines of the factor memory and the
lane memories (R126 to R129), the QFMT and SCHED sections (R150 to R155), and what each task of the elimination schedule
does (Table 8 of spec/05_solver_lanes_and_schedule.md).
-/

namespace Sys2Proof.Machine

/-! ## Fixed point (R140 to R142) -/

/-- The value of a fixed-point number. -/
def Fx.val (x : Fx) : Rat := (x.i : Rat) / 2 ^ x.f

/-- The 80-bit accumulator's bounds (R141). -/
def accMax : Int := 604462909807314587353087
def accMin : Int := -604462909807314587353088

/-- One step of an accumulation, saturating at the accumulator's bounds (R141): the sum, and whether it saturated. -/
def accStep (a : Int × Bool) (x : Int) : Int × Bool :=
  let t := a.1 + x
  if accMax < t then (accMax, true) else if t < accMin then (accMin, true) else (t, a.2)

/-- The 36-bit range (R140). -/
def out36 (i : Int) : Bool := i > 34359738367 || i < -34359738368
def clamp36 (i : Int) : Int := clampInt (-34359738368) 34359738367 i

/-- An exact value with fraction count `fa` rounded to fraction count `f`, to nearest, ties toward +∞ (R142). -/
def roundQ (fa f : Nat) (a : Int) : Int :=
  if fa ≤ f then a * 2 ^ (f - fa) else (a + 2 ^ (fa - f - 1)) / 2 ^ (fa - f)

/-- An exact value rounded to fraction count `f` in the same way. -/
def roundRat (f : Nat) (q : Rat) : Int := (q * 2 ^ f + 1 / 2).floor

/-- The fraction count of an accumulation: that of the target and of every product, which Reron makes equal (R141). DESIGN CHOICE:
where an image makes them differ, the largest of them, to which the others are shifted (log entry 75). -/
def accFrac (t : Fx) (l : List (Fx × Fx)) : Nat := l.foldl (fun n p => max n (p.1.f + p.2.f)) t.f

/-- A target less the sum of exact products in order (R141): the accumulator, and whether it saturated. -/
def accSub (t : Fx) (l : List (Fx × Fx)) : Int × Bool :=
  let fa := accFrac t l
  l.foldl (fun a p => accStep a (-(p.1.i * p.2.i) * 2 ^ (fa - p.1.f - p.2.f))) (accStep (0, false) (t.i * 2 ^ (fa - t.f)))

/-! ## QFMT and SCHED (R150 to R152, R155) -/

/-- F and GUARD of ENTRY q (Table 5). -/
def ImgBytes.qFrac (m : ImgBytes) (fb : Bool) (q : Nat) : Nat := m.pn fb secQfmt (0x10 + 4 * q) 4 % 64
def ImgBytes.qGuard (m : ImgBytes) (fb : Bool) (q : Nat) : Nat := m.pn fb secQfmt (0x10 + 4 * q) 4 / 256 % 16

/-- A vector segment: its first elimination row and the formats of x and y, of s and z, of residuals and right-hand sides, and of
directions. -/
structure Seg where
  first : Nat
  qx : Nat
  qsz : Nat
  qres : Nat
  qdir : Nat
  deriving DecidableEq, Repr

/-- The vector segments. -/
def ImgBytes.segs (m : ImgBytes) (fb : Bool) : List Seg :=
  let o := m.pn fb secQfmt 8 4
  (List.range (m.pn fb secQfmt 4 4)).map (fun v =>
    let f (k n : Nat) := m.pn fb secQfmt (o + 12 * v + k) n
    ⟨f 0 4, f 4 2, f 6 2, f 8 2, f 10 2⟩)

/-- The segment of an elimination row: from its FIRST up to the FIRST of the next, or up to N (R150). -/
def segOf (l : List Seg) (row : Nat) : Seg := ((l.filter (fun g => g.first ≤ row)).getLast?).getD ⟨0, 0, 0, 0, 0⟩

/-- A task record (R152). -/
structure TaskRec where
  /-- the reserved bits of Table 7 -/
  rsv : Nat
  op : Nat
  waveEnd : Bool
  root : Bool
  w : Nat
  h : Nat
  qo : Nat
  qi : Nat
  src : Nat
  dst : Nat

/-- Task `i` of a program that starts at a section offset. -/
def ImgBytes.task (m : ImgBytes) (fb : Bool) (ofs i : Nat) : TaskRec :=
  let v := m.pn fb secSched (ofs + 16 * i) 16
  ⟨(v >>> 6) % 4 + (v >>> 15) % 2 + (v >>> 27) % 32 + (v >>> 56) % 256, v % 16, v.testBit 4, v.testBit 5, (v >>> 8) % 128, (v >>> 16) % 2048, (v >>> 32) % 4096, (v >>> 44) % 4096,
    (v >>> 64) % 2 ^ 32, (v >>> 96) % 2 ^ 32⟩

/-- The tasks of the factorisation program, or of the solve program. -/
def ImgBytes.program (m : ImgBytes) (fb fact : Bool) : List TaskRec :=
  let h (o : Nat) := m.pn fb secSched o 4
  (List.range (h (if fact then 0x20 else 0x24))).map (m.task fb (h (if fact then 0x28 else 0x2C)))

/-- Lines of a panel of `h` rows and `w` columns: the triangle and the rows below it, 14 values to a line. -/
def panelLines (w h : Nat) : Nat := ceilDiv (w * (w + 1) / 2 + (h - w) * w) 14

/-- Map entries that a task takes (Table 8). -/
def TaskRec.mapEntries (t : TaskRec) : Nat := if t.op == 3 || t.op == 5 || t.op == 7 then t.h - t.w else 0

/-- The first stored value of column `c` of a panel with `w` columns, within the triangle. -/
def triStart (w c : Nat) : Nat := c * w - c * (c - 1) / 2

/-- The place of row `r` and column `c`, c ≤ r, in a panel: column-major, the triangle of the diagonal block first (R152). -/
def panelIdx (w h r c : Nat) : Nat := if r < w then triStart w c + (r - c) else w * (w + 1) / 2 + c * (h - w) + (r - w)

/-- A value's place is numbered 14 × line + slot in the factor store, and from here on by root value index (R149). -/
def rootBase : Nat := 16777216

/-- What the tasks read of the image beside their records. -/
structure Sched where
  flines : Nat
  rootn : Nat
  /-- canonical column of each elimination row -/
  perm : List Nat
  /-- the panels: the FRONT tasks -/
  fronts : List TaskRec
  /-- first format index of the root block -/
  rootQ : Nat
  /-- section offset of the map -/
  mapOfs : Nat
  segs : List Seg
  /-- place of each canonical nonzero (R149) -/
  dests : List Nat

/-- The place that a DEST names. -/
def destPlace (d : Nat) : Nat := if d.testBit 31 then rootBase + d % 2 ^ 18 else 14 * (d % 2 ^ 19) + (d >>> 19) % 16

def ImgBytes.sched (m : ImgBytes) (fb : Bool) : Sched :=
  let h (o n : Nat) := m.pn fb secSched o n
  let fact := m.program fb true
  ⟨h 0x14 4, h 0x18 2, (List.range (h 0x04 4)).map (fun e => h (h 0x30 4 + 4 * e) 4), fact.filter (·.op == 2),
    ((fact.find? (·.op == 4)).map (·.qo)).getD 0, h 0x34 4, m.segs fb,
    (List.range (m.pn fb secKkt 0x10 4)).map (fun j => destPlace (m.pn fb secKkt (0x20 + 4 * j) 4))⟩

/-- Elimination row of a canonical column. -/
def Sched.rowOf (d : Sched) (c : Nat) : Nat := d.perm.idxOf c

/-- The vector segment of a canonical column. -/
def Sched.seg (d : Sched) (c : Nat) : Seg := segOf d.segs (d.rowOf c)

/-- Whether a place of a triangle of `w` columns lies on its diagonal. -/
def onDiag (w i : Nat) : Bool := (List.range w).any (fun c => triStart w c == i)

/-- The panel that a factor-store place belongs to. -/
def Sched.panelOf (d : Sched) (p : Nat) : Option TaskRec :=
  d.fronts.find? (fun t => t.dst ≤ p / 14 && p / 14 < t.dst + panelLines t.w t.h)

/-- The format index of a place (R152): CLASS 2 on the diagonal, CLASS 1 elsewhere. -/
def Sched.placeQ (d : Sched) (p : Nat) : Nat :=
  if rootBase ≤ p then d.rootQ + (onDiag d.rootn (p - rootBase)).toNat
  else match d.panelOf p with
    | some t => t.qo + (onDiag t.w (p - 14 * t.dst)).toNat
    | none => 0

/-! ## Lines and the work of an iteration -/

/-- A line that nothing has written. -/
def Line.free : Line := ⟨List.replicate 14 0, 0, 0⟩

/-- The 64 bytes of a line (Table 3), whose CRC-32C travels in sideband (R187). -/
def Line.bytes (l : Line) : List Byte :=
  leBytes 64 ((l.vals.zipIdx.map (fun e => wrapInt 36 e.1 * 2 ^ (36 * e.2))).foldl (· + ·) 0 + l.kind * 2 ^ 504 + l.gen * 2 ^ 508)
def Line.sideband (l : Line) : Word := crc32c l.bytes

/-- What a lane flags (R139 to R144). -/
inductive LaneFlag where
  | sat | acc | recip | pivFix | headroom
  deriving DecidableEq, Repr

/-- A flag with its QFMT index and its lane; the vector routines of the sequencer have no lane. -/
structure LaneEv where
  lane : Option Nat
  flag : LaneFlag
  q : Nat
  deriving DecidableEq, Repr

/-- The memories while the tasks of an iteration run, and what they report. -/
structure Work where
  /-- the iteration number modulo 16 -/
  gen : Nat
  fac : List (Nat × Line)
  /-- root lines -/
  root : List (Nat × Line)
  recips : List (Nat × Fx)
  /-- the front work area of a lane: 4,096 × lane + line -/
  front : List (Nat × Line)
  /-- the solve program's vector by elimination row, with the format index of each value -/
  vec : List (Fx × Nat)
  lane : Option Nat
  /-- the burst lanes, and whether the present task divides its values among them (R154) -/
  burst : List Nat
  divided : Bool
  /-- flags, the newest first -/
  evs : List LaneEv
  /-- a line's GEN did not match (R129) -/
  genBad : Bool
  /-- tests that SLV_INJ inverts the next time -/
  invSat : Bool
  invHead : Bool
  invPiv : Bool
  invGen : Bool
  /-- values written, whether a pivot was tested, and whether a line was read -/
  wrote : Nat
  pivoted : Bool
  read : Bool

/-- The value at a place. -/
def Work.get (w : Work) (p : Nat) : Int :=
  if rootBase ≤ p then ((assocGet Line.free w.root ((p - rootBase) / 14)).vals.getD ((p - rootBase) % 14) 0)
  else (assocGet Line.free w.fac (p / 14)).vals.getD (p % 14) 0

/-- Put a value at a place: its line takes the KIND of the place and the present GEN. -/
def Work.put (w : Work) (p : Nat) (i : Int) : Work :=
  if rootBase ≤ p then
    let k := p - rootBase
    { w with root := assocPut w.root (k / 14) ⟨(assocGet Line.free w.root (k / 14)).vals.set (k % 14) i, 2, w.gen⟩ }
  else { w with fac := assocPut w.fac (p / 14) ⟨(assocGet Line.free w.fac (p / 14)).vals.set (p % 14) i, 1, w.gen⟩ }

/-- The lane that computes the next value. -/
def Work.laneNow (w : Work) : Option Nat :=
  if w.divided then w.burst[Config.rootLane w.wrote % max 1 w.burst.length]? else w.lane

/-- A flag is set when a test holds. -/
def Work.flag (w : Work) (c : Bool) (k : LaneFlag) (q : Nat) : Work :=
  if c then { w with evs := ⟨w.laneNow, k, q⟩ :: w.evs } else w

/-- A value is written in format `q` (R142, R144): saturated to 36 bits, the saturation and headroom tests of the first value
inverted by SLV_INJ. -/
def Work.write (w : Work) (m : ImgBytes) (fb : Bool) (q : Nat) (i : Int) : Fx × Work :=
  let out := out36 i
  let sat := out != w.invSat
  let v := if sat then clamp36 i else if out then (Config.unsaturated i).toInt else i
  let head := decide (2 ^ (35 - m.qGuard fb q) ≤ v.natAbs) != w.invHead
  let w1 := (w.flag sat .sat q).flag head .headroom q
  (⟨v, m.qFrac fb q⟩, { w1 with invSat := false, invHead := false, wrote := w1.wrote + 1 })

/-- An exact value is written in format `q`. -/
def Work.writeRat (w : Work) (m : ImgBytes) (fb : Bool) (q : Nat) (a : Rat) : Fx × Work := w.write m fb q (roundRat (m.qFrac fb q) a)

/-- A target less the sum of products is written in format `q` (R141, R142). -/
def Work.writeSub (w : Work) (m : ImgBytes) (fb : Bool) (q : Nat) (t : Fx) (l : List (Fx × Fx)) : Fx × Work :=
  let a := accSub t l
  (w.flag a.2 .acc q).write m fb q (roundQ (accFrac t l) (m.qFrac fb q) a.1)

/-- A product is written in format `q`. -/
def Work.writeMul (w : Work) (m : ImgBytes) (fb : Bool) (q : Nat) (x y : Fx) : Fx × Work :=
  w.writeSub m fb q ⟨0, x.f + y.f⟩ [(⟨-x.i, x.f⟩, y)]

/-- Lines of the factor store are read: their GEN is compared with the present one (R129). -/
def Work.readLines (w : Work) (first n : Nat) : Work :=
  (List.range n).foldl (fun w i =>
    let bad := ((assocGet Line.free w.fac (first + i)).gen != w.gen) != w.invGen
    { w with genBad := w.genBad || bad, invGen := false, read := true }) w

/-! ## LDLᵀ (R139, R143, FRONT and ROOT of Table 8) -/

/-- What the solve fixes for the tasks: PIVMIN in 2^-40 model units, the expected sign of a pivot by its place (true: negative),
and the term that LOAD adds to a diagonal place. -/
structure TaskCtx where
  img : ImgBytes
  fb : Bool
  sched : Sched
  pivMin : Nat
  neg : Nat → Bool
  diag : Nat → Option Rat

/-- PIVMIN in a format of fraction count `f` (R139). DESIGN CHOICE: rounded to nearest as in R142, which gives 0 in a format that is
too coarse for it; the spec does not say how the value comes into the format (log entry 75). -/
def pivMinIn (pivMin f : Nat) : Int := roundQ 40 f pivMin

/-- A computed pivot is tested and replaced where it has the wrong sign or is too small (R139). SLV_INJ.PIVCHK inverts the sign
test of the first. -/
def TaskCtx.pivot (c : TaskCtx) (w : Work) (q : Nat) (neg : Bool) (d : Fx) : Fx × Work :=
  let wrong := (if neg then decide (0 ≤ d.i) else decide (d.i ≤ 0)) != w.invPiv
  let small : Bool := decide ((d.i.natAbs : Rat) / 2 ^ d.f < (c.pivMin : Rat) / 2 ^ 40)
  let bad := wrong || small
  let p := pivMinIn c.pivMin d.f
  let w1 := w.flag bad .pivFix q
  (if bad then ⟨if neg then -p else p, d.f⟩ else d, { w1 with invPiv := false, pivoted := true })

/-- The reciprocal of a pivot in a format of fraction count `g` before saturation: a value within 1 LSB of 1/d, which of them
being free (R143). A pivot of 0, which PIVMIN can be in a coarse format, has none that fits. -/
def recipOf (d : Fx) (g : Nat) : Int :=
  if d.i = 0 then 2 ^ 36
  else
    let q : Rat := (2 : Rat) ^ (d.f + g) / d.i
    let l := if (q.floor : Rat) = q then [q.floor - 1, q.floor, q.floor + 1] else [q.floor, q.floor + 1]
    l.getD (Config.recipPick d.i d.f g % l.length) q.floor

/-- The reciprocal is formed in the CLASS 3 format `q` (R143). -/
def TaskCtx.recip (c : TaskCtx) (w : Work) (q : Nat) (d : Fx) : Fx × Work :=
  let i := recipOf d (c.img.qFrac c.fb q)
  let v := clamp36 i
  let w1 := (w.flag (out36 i) .recip q).flag (decide (2 ^ (35 - c.img.qGuard c.fb q) ≤ v.natAbs)) .headroom q
  (⟨v, c.img.qFrac c.fb q⟩, w1)

/-- One column of an LDLᵀ: `at_ r c` is the place of an entry, `q` the CLASS 1 format, `us` the products L × D of the columns
before it by row and column. DEDUCED: L × D is written back in the panel's CLASS 1 format, the only one in which every term has
the fraction count that R141 asks for (log entry 75). -/
def TaskCtx.ldlColumn (c : TaskCtx) (at_ : Nat → Nat → Nat) (h q : Nat) (a : Work × List ((Nat × Nat) × Fx)) (k : Nat) :
    Work × List ((Nat × Nat) × Fx) :=
  let m := c.img
  let f1 := m.qFrac c.fb q
  let u (us : List ((Nat × Nat) × Fx)) (r j : Nat) : Fx := ((us.find? (fun e => e.1 == (r, j))).map (·.2)).getD ⟨0, f1⟩
  let l (w : Work) (r j : Nat) : Fx := ⟨w.get (at_ r j), f1⟩
  let w0 := a.1
  let d0 := w0.writeSub m c.fb (q + 1) ⟨w0.get (at_ k k), m.qFrac c.fb (q + 1)⟩
    ((List.range k).map (fun j => (l w0 k j, u a.2 k j)))
  let d1 := c.pivot d0.2 (q + 1) (c.neg (at_ k k)) d0.1
  let w1 := d1.2.put (at_ k k) d1.1.i
  let rc := c.recip w1 (q + 2) d1.1
  let w2 : Work := { rc.2 with recips := assocPut rc.2.recips (at_ k k) rc.1 }
  (List.range (h - k - 1)).foldl (fun b i =>
    let r := k + 1 + i
    let x := b.1.writeSub m c.fb q ⟨b.1.get (at_ r k), f1⟩ ((List.range k).map (fun j => (l b.1 r j, u a.2 k j)))
    let y := x.2.writeMul m c.fb q x.1 rc.1
    (y.2.put (at_ r k) y.1.i, ((r, k), x.1) :: b.2)) (w2, a.2)

/-- The LDLᵀ of a block of `w` columns and `h` rows. -/
def TaskCtx.ldl (c : TaskCtx) (wk : Work) (at_ : Nat → Nat → Nat) (w h q : Nat) : Work :=
  ((List.range w).foldl (c.ldlColumn at_ h q) (wk, [])).1

/-- The places of a panel from its first line, and of the root block. -/
def panelAt (line w h r c : Nat) : Nat := 14 * line + panelIdx w h r c
def rootAt (n r c : Nat) : Nat := rootBase + panelIdx n n r c

/-! ## The tasks (Table 8) -/

/-- Map entry `k` of a program. -/
def TaskCtx.entry (c : TaskCtx) (k : Nat) : Nat := c.img.pn c.fb secSched (c.sched.mapOfs + 4 * k) 4

/-- LOAD: lines of the DRAM image, the terms of R133 and R138 added to diagonal places and converted into their D format. -/
def TaskCtx.load (c : TaskCtx) (image : List (Nat × Line)) (t : TaskRec) (w : Work) : Work :=
  let w1 := (List.range t.h).foldl (fun w i =>
    let l := (assocGet Line.free image (t.src + i)).vals
    if t.root then { w with root := assocPut w.root (t.dst + i) ⟨l, 2, w.gen⟩ }
    else { w with fac := assocPut w.fac (t.dst + i) ⟨l, 1, w.gen⟩ }) w
  let first := if t.root then rootBase + 14 * t.dst else 14 * t.dst
  (List.range (14 * t.h)).foldl (fun w i => match c.diag (first + i) with
    | some x =>
      let q := c.sched.placeQ (first + i)
      let y := w.writeRat c.img c.fb q (((w.get (first + i) : Rat)) / 2 ^ c.img.qFrac c.fb q + x)
      y.2.put (first + i) y.1.i
    | none => w) w1

/-- FRONT: dense LDLᵀ of the panel in a lane's front work area (R126). -/
def TaskCtx.frontTask (c : TaskCtx) (t : TaskRec) (w : Work) : Work :=
  let n := panelLines t.w t.h
  let w1 := c.ldl (w.readLines t.dst n) (panelAt t.dst t.w t.h) t.w t.h t.qo
  match w.lane with
  | some l => { w1 with front := (List.range n).foldl (fun f i =>
      assocPut f (4096 * l + 2048 + i) (assocGet Line.free w1.fac (t.dst + i))) w1.front }
  | none => w1

/-- UPDATE: L D Lᵀ of the source's lower rows is subtracted at the places that the map names. In the root every row is a column
of its own number, which bits 22:17 cannot always hold (log entry 75). -/
def TaskCtx.updateTask (c : TaskCtx) (t : TaskRec) (pos : Nat) (w : Work) : Work :=
  let m := c.img
  let d := c.sched
  let n := t.h - t.w
  let es := (List.range n).map (fun i => c.entry (pos + i))
  let src (r k : Nat) : Nat := panelAt t.src t.w t.h r k
  let fl := m.qFrac c.fb t.qi
  let target : Nat × Nat := match d.fronts.find? (fun x => x.dst == t.dst) with
    | some x => (x.w, x.h)
    | none => (64, 2047)
  let place (r k : Nat) : Nat := if t.root then rootAt d.rootn (max r k) (min r k) else panelAt t.dst target.1 target.2 (max r k) (min r k)
  let w0 := w.readLines t.src (panelLines t.w t.h)
  (List.range n).foldl (fun w j =>
    let e := es.getD j 0
    if !e.testBit 16 then w
    else
      let col := if t.root then e % 65536 else (e >>> 17) % 64
      let us := (List.range t.w).foldl (fun (a : Work × List Fx) k =>
        let x := a.1.writeMul m c.fb t.qi ⟨a.1.get (src (t.w + j) k), fl⟩ ⟨a.1.get (src k k), m.qFrac c.fb (t.qi + 1)⟩
        (x.2, a.2 ++ [x.1])) (w, [])
      (List.range (n - j)).foldl (fun w i =>
        let p := place ((es.getD (j + i) 0) % 65536) col
        let q := d.placeQ p
        let x := w.writeSub m c.fb q ⟨w.get p, m.qFrac c.fb q⟩
          ((List.range t.w).map (fun k => (⟨w.get (src (t.w + j + i) k), fl⟩, us.2.getD k ⟨0, fl⟩)))
        x.2.put p x.1.i) us.1) w0

/-- ROOT: dense LDLᵀ of the root block. -/
def TaskCtx.rootTask (c : TaskCtx) (t : TaskRec) (w : Work) : Work := c.ldl w (rootAt c.sched.rootn) c.sched.rootn c.sched.rootn t.qo

/-- An element of the vector, and a new value of it. -/
def Work.vget (w : Work) (r : Nat) : Fx × Nat := w.vec.getD r (⟨0, 0⟩, 0)
def Work.vput (w : Work) (r : Nat) (x : Fx) (q : Nat) : Work := { w with vec := w.vec.set r (x, q) }

/-- Row `r` takes its value less the sum of products of entries of L and other rows, written in format `q`. -/
def TaskCtx.vsub (c : TaskCtx) (w : Work) (r q : Nat) (l : List (Fx × Nat)) : Work :=
  let x := w.writeSub c.img c.fb q (w.vget r).1 (l.map (fun e => (e.1, (w.vget e.2).1)))
  x.2.vput r x.1 q

/-- Row `r` is multiplied by a reciprocal. -/
def TaskCtx.vscale (c : TaskCtx) (w : Work) (r q place : Nat) : Work :=
  let x := w.writeMul c.img c.fb q (w.vget r).1 (assocGet ⟨0, 0⟩ w.recips place)
  x.2.vput r x.1 q

/-- The CLASS 1 format of the panel at a line. -/
def Sched.panelQ (d : Sched) (t : TaskRec) : Nat := ((d.fronts.find? (fun x => x.dst == t.src)).map (·.qo)).getD t.qi

/-- FWD: forward substitution on the panel's rows, the update scattered to the mapped rows, then multiplication by D⁻¹. -/
def TaskCtx.fwdTask (c : TaskCtx) (t : TaskRec) (pos : Nat) (w : Work) : Work :=
  let f := c.img.qFrac c.fb (c.sched.panelQ t)
  let at_ (r k : Nat) : Nat := panelAt t.src t.w t.h r k
  let l (w : Work) (r k : Nat) : Fx := ⟨w.get (at_ r k), f⟩
  let w0 := w.readLines t.src (panelLines t.w t.h)
  let w1 := (List.range t.w).foldl (fun w k =>
    c.vsub w (t.dst + k) (w.vget (t.dst + k)).2 ((List.range k).map (fun j => (l w k j, t.dst + j)))) w0
  let w2 := (List.range (t.h - t.w)).foldl (fun w i =>
    let r := c.entry (pos + i) % 2097152
    c.vsub w r (w.vget r).2 ((List.range t.w).map (fun k => (l w (t.w + i) k, t.dst + k)))) w1
  (List.range t.w).foldl (fun w k => c.vscale w (t.dst + k) t.qo (at_ k k)) w2

/-- BWD: the mapped rows are gathered, then backward substitution on the panel's rows. -/
def TaskCtx.bwdTask (c : TaskCtx) (t : TaskRec) (pos : Nat) (w : Work) : Work :=
  let f := c.img.qFrac c.fb (c.sched.panelQ t)
  let l (w : Work) (r k : Nat) : Fx := ⟨w.get (panelAt t.src t.w t.h r k), f⟩
  let w0 := w.readLines t.src (panelLines t.w t.h)
  ((List.range t.w).reverse).foldl (fun w k =>
    c.vsub w (t.dst + k) t.qo
      ((List.range (t.w - k - 1)).map (fun j => (l w (k + 1 + j) k, t.dst + k + 1 + j))
        ++ (List.range (t.h - t.w)).map (fun i => (l w (t.w + i) k, c.entry (pos + i) % 2097152)))) w0

/-- RSOLVE: forward, diagonal and backward solve with the root, in ascending order of the elimination row (R154). -/
def TaskCtx.rsolveTask (c : TaskCtx) (t : TaskRec) (w : Work) : Work :=
  let n := c.sched.rootn
  let f := c.img.qFrac c.fb c.sched.rootQ
  let l (w : Work) (r k : Nat) : Fx := ⟨w.get (rootAt n r k), f⟩
  let w1 := (List.range n).foldl (fun w k =>
    c.vsub w (t.dst + k) (w.vget (t.dst + k)).2 ((List.range k).map (fun j => (l w k j, t.dst + j)))) w
  let w2 := (List.range n).foldl (fun w k => c.vscale w (t.dst + k) t.qo (rootAt n k k)) w1
  ((List.range n).reverse).foldl (fun w k =>
    c.vsub w (t.dst + k) t.qo ((List.range (n - k - 1)).map (fun j => (l w (k + 1 + j) k, t.dst + k + 1 + j)))) w2

/-- A task runs (R153). `pos`: the map position of its program. -/
def TaskCtx.run (c : TaskCtx) (image : List (Nat × Line)) (t : TaskRec) (pos : Nat) (w : Work) : Work := match t.op with
  | 1 => c.load image t w
  | 2 => c.frontTask t w
  | 3 => c.updateTask t pos w
  | 4 => c.rootTask t w
  | 5 => c.fwdTask t pos w
  | 6 => c.rsolveTask t w
  | 7 => c.bwdTask t pos w
  | _ => w

/-! ## The sequencer (R157) -/

/-- A program as it runs: the map position (R155), the tasks begun in the present wave, the wave, the last task assigned, the lane
of each task that has run, the choices left to the tasks' durations, and whether the sequencer has abandoned the rest. -/
structure Run where
  w : Work
  mapPos : Nat
  inWave : Nat
  wave : Nat
  last : Nat
  ran : List Nat
  picks : List Nat
  stop : Bool

/-- A range violation or a dropped block has occurred (R145). -/
def Work.violated (w : Work) : Bool := w.genBad || w.evs.any (fun e => e.flag == .sat || e.flag == .acc || e.flag == .recip)

/-- The next task is assigned and runs (R157): each task of a wave goes to the lowest-numbered idle burst lane, in record order;
ROOT and RSOLVE run on all of them. A violation abandons the rest at the end of the wave; `drop`: so does a block dropped
before, from that wave on. -/
def TaskCtx.step (c : TaskCtx) (image : List (Nat × Line)) (drop : Option Nat) (r : Run) (e : TaskRec × Nat) : Run :=
  if r.stop then r
  else
    let t := e.1
    let all := t.op == 4 || t.op == 6
    let n := r.w.burst.length
    let i := if r.inWave < n then r.inWave else r.picks.headD 0 % max 1 n
    let lane := r.w.burst[i]?
    let w1 := c.run image t r.mapPos { r.w with lane := lane, divided := all }
    let drops : Bool := match drop with
      | some k => decide (k ≤ r.wave)
      | none => false
    { w := w1, mapPos := r.mapPos + t.mapEntries, inWave := if t.waveEnd then 0 else r.inWave + 1,
      wave := if t.waveEnd then r.wave + 1 else r.wave, last := e.2,
      ran := r.ran ++ (if all then r.w.burst else lane.toList),
      picks := if r.inWave < n then r.picks else r.picks.drop 1,
      stop := t.waveEnd && (w1.violated || drops) }

/-- A program runs from its first task. -/
def TaskCtx.program (c : TaskCtx) (image : List (Nat × Line)) (fact : Bool) (drop : Option Nat) (w : Work) (ran picks : List Nat) : Run :=
  ((c.img.program c.fb fact).zipIdx).foldl (c.step image drop) ⟨w, 0, 0, 0, 0, ran, picks, false⟩

end Sys2Proof.Machine
end

