-- ==== Sys2Proof/Machine/IpmOps.lean ====
section
/-!
DEFINITION. Machine/IpmOps.lean: the interior point method of spec/05_solver_lanes_and_schedule.md: assembly and conversion
(R131, R147), the initial point (R135), residuals and measures (R137), the Newton system and its two solves, step lengths and
the update (R133, R134). Between write-backs every value is exact.
-/

namespace Sys2Proof.Machine

/-! ## Products and residuals (R133, R137) -/

/-- Add to an element of a list. -/
def addAt (l : List Rat) (i : Nat) (q : Rat) : List Rat := l.set i (l.getD i 0 + q)

/-- Zeros. -/
def zeros (n : Nat) : List Rat := List.replicate n 0

/-- The number of general inequality rows: every column has its diagonal among the nonzeros. -/
def Qp.ni (q : Qp Fx) : Nat := (q.nz.filter (fun e => e.1 == e.2.1 && q.np + q.ne ≤ e.1)).length

/-- Hx + Aᵀy + G_genᵀw, Ax, and G_gen x. -/
structure Prods where
  dual : List Rat
  ax : List Rat
  gx : List Rat

/-- The products of the programme's matrices with x, y and the general rows' multipliers w. -/
def Qp.prods (q : Qp Fx) (x y w : List Rat) : Prods :=
  q.nz.foldl (fun a e =>
    let r := e.1
    let c := e.2.1
    let v := e.2.2.val
    if q.np ≤ c then a
    else if r < q.np then
      let d := addAt a.dual r (v * x.getD c 0)
      { a with dual := if r = c then d else addAt d c (v * x.getD r 0) }
    else if r < q.np + q.ne then
      { a with ax := addAt a.ax (r - q.np) (v * x.getD c 0), dual := addAt a.dual c (v * y.getD (r - q.np) 0) }
    else
      let i := r - q.np - q.ne
      { a with gx := addAt a.gx i (v * x.getD c 0), dual := addAt a.dual c (v * w.getD i 0) })
    ⟨zeros q.np, zeros q.ne, zeros q.ni⟩

/-- The sign of a side in G. -/
def Side.sign {α : Type} (t : Side α) : Rat := if t.neg then -1 else 1

/-- A value per canonical column summed over the sides (R133). -/
def Qp.bySide (q : Qp Fx) (f : Side Fx × Rat → Rat) (l : List Rat) : List Rat :=
  (q.sides.zip l).foldl (fun a e => addAt a e.1.col (f e)) (zeros (q.np + q.ne + q.ni))

/-- The left side of the row, or the variable, that a side limits. -/
def Qp.sideOf (q : Qp Fx) (x gx : List Rat) (t : Side Fx) : Rat :=
  if t.col < q.np then x.getD t.col 0 else gx.getD (t.col - q.np - q.ne) 0

/-- The exact values of a point. -/
structure Exact where
  x : List Rat
  y : List Rat
  z : List Rat
  s : List Rat

def Point.exact (p : Point) : Exact := ⟨p.x.map Fx.val, p.y.map Fx.val, p.z.map Fx.val, p.s.map Fx.val⟩

/-- r_d, r_p and r_g of a point (R133). -/
structure Resid where
  d : List Rat
  p : List Rat
  g : List Rat

def Qp.resid (q : Qp Fx) (e : Exact) : Resid :=
  let zc := q.bySide (fun t => t.1.sign * t.2) e.z
  let a := q.prods e.x e.y (zc.drop (q.np + q.ne))
  ⟨((a.dual.zip zc).zip q.g).map (fun t => t.1.1 + t.1.2 + t.2.val), (a.ax.zip q.b).map (fun t => t.1 - t.2.val),
    (q.sides.zip e.s).map (fun t => t.1.sign * q.sideOf e.x a.gx t.1 + t.2 - t.1.h.val)⟩

/-- The largest magnitude. -/
def normInf (l : List Rat) : Rat := l.foldl (fun a q => max a (if q < 0 then -q else q)) 0

/-- sᵀz / p (R134). -/
def meanComp (s z : List Rat) : Rat := openQuot (((s.zip z).map (fun e => e.1 * e.2)).foldl (· + ·) 0) s.length

/-- A measure. -/
def measureOf (q : Rat) : Measure := ⟨q.num.natAbs, q.den⟩

/-- The four measures of an iterate (R137). -/
def Qp.measures (q : Qp Fx) (p : Point) : Measures :=
  let e := p.exact
  let r := q.resid e
  ⟨measureOf (normInf r.p), measureOf (normInf r.g), measureOf (normInf r.d), measureOf (meanComp e.s e.z)⟩

/-! ## Assembly (R131, R147) -/

/-- A work area in which nothing has been done. -/
def Work.idle : Work := ⟨0, [], [], [], [], [], none, [], false, [], false, false, false, false, false, 0, false, false⟩

/-- Values converted in order, each into its format. -/
def convert (m : ImgBytes) (fb : Bool) (w : Work) (l : List (Nat × Rat)) : List Fx × Work :=
  l.foldl (fun a e => let x := a.2.writeRat m fb e.1 e.2; (a.1 ++ [x.1], x.2)) ([], w)

/-- What assembly leaves: the programme in its formats, the DRAM image (R128), and the number of values that saturated. -/
structure Assembled where
  qp : Qp Fx
  image : List (Nat × Line)
  sats : Nat

/-- The assembly unit converts each KKT value, then g, b and h (R147); `inv`: SLV_INJ.ASMCHK. The values lie at their DEST; what
no DEST names is fill (R149). -/
def Prob.assemble (p : Prob) (inv : Bool) : Assembled :=
  let m := p.img
  let d := m.sched p.fb
  let q := p.qp
  let row (c : Nat) : Nat := (d.seg c).qres
  let nz := q.nz.zip d.dests
  let a := convert m p.fb { Work.idle with invSat := inv } (nz.map (fun e => (d.placeQ e.2, e.1.2.2)))
  let g := convert m p.fb a.2 (q.g.zipIdx.map (fun e => (row e.2, e.1)))
  let b := convert m p.fb g.2 (q.b.zipIdx.map (fun e => (row (q.np + e.2), e.1)))
  let h := convert m p.fb b.2 (q.sides.map (fun t => (row t.col, t.h)))
  let w := (nz.zip a.1).foldl (fun w e => w.put e.1.2 e.2.i) Work.idle
  ⟨⟨q.np, q.ne, (nz.zip a.1).map (fun e => (e.1.1.1, e.1.1.2.1, e.2)), g.1, b.1, (q.sides.zip h.1).map (fun e => ⟨e.1.col, e.1.neg, e.2⟩)⟩,
    w.fac ++ w.root.map (fun e => (d.flines + e.1, e.2)), (h.2.evs.filter (fun e => e.flag == .sat)).length⟩

/-! ## Trajectories and multipliers (R108, R135) -/

/-- Where the multipliers of a step of a scenario stand: the y of its equality rows, then the z of the sides of its variables and
of its general rows. -/
def Prob.multSlots (p : Prob) (q : Qp Fx) (sc k : Nat) : List (Bool × Nat) :=
  let m := p.img
  let sides (c : Nat) : List (Bool × Nat) := (q.sides.zipIdx.filter (fun t => t.1.col == c)).map (fun t => (true, t.2))
  m.eqRows.map (fun r => (false, indexIn (m.eqCols p.fb) (RowAt.mk sc k r).shared))
    ++ m.vars.flatMap (fun v => sides (indexIn (m.primalCols p.fb) (Col.mk sc k v).shared))
    ++ m.inRows.flatMap (fun r => sides (q.np + q.ne + indexIn (m.inCols p.fb) (RowAt.mk sc k r).shared))

/-- The trajectory of a point, with its multipliers in units of 2^-35. -/
def Prob.traj (p : Prob) (q : Qp Fx) (t : Point) : Traj :=
  let cols := p.img.primalCols p.fb
  let unit (x : Fx) : Int := x.i * 2 ^ (35 - x.f)
  ⟨p.stepList.flatMap (fun e => p.img.vars.map (fun v => 1000 * unit (t.x.getD (indexIn cols (Col.mk e.1 e.2 v).shared) ⟨0, 0⟩))),
    p.stepList.flatMap (fun e => (p.multSlots q e.1 e.2).map (fun k => unit ((if k.1 then t.z else t.y).getD k.2 ⟨0, 0⟩)))⟩

/-- Aligned multipliers brought back to y (`side` false) or z (`side` true): the first slot that names an element gives it. -/
def Prob.unslot (p : Prob) (q : Qp Fx) (mult : List Int) (side : Bool) (n : Nat) : List Rat :=
  let l := (p.stepList.flatMap (fun e => p.multSlots q e.1 e.2)).zip mult
  (List.range n).map (fun i => ((l.find? (fun e => e.1 == (side, i))).map (fun e => (e.2 : Rat) / lsb)).getD 0)

/-- A value brought into a format without a report: the initial point. -/
def fit36 (f : Nat) (q : Rat) : Fx := ⟨clamp36 (roundRat f q), f⟩

/-- The initial point (R135): β is `push` × 2^-24. -/
def Prob.start (p : Prob) (q : Qp Fx) (push : Nat) : Point :=
  let m := p.img
  let d := m.sched p.fb
  let f (i : Nat) : Nat := m.qFrac p.fb i
  let beta : Rat := (push : Rat) / 16777216
  let x := (m.primalCols p.fb).zipIdx.map (fun e => fit36 (f (d.seg e.2).qx) (p.bar e.1.sc e.1.k e.1.v))
  let a := q.prods (x.map Fx.val) [] []
  let gap (t : Side Fx) : Rat := t.h.val - t.sign * q.sideOf (x.map Fx.val) a.gx t
  let side (v : Side Fx × Nat → Rat) : List Fx := q.sides.zipIdx.map (fun t => fit36 (f (d.seg t.1.col).qsz) (v t))
  let eqs (l : List Rat) : List Fx := l.zipIdx.map (fun e => fit36 (f (d.seg (q.np + e.2)).qx) e.1)
  if p.cyc.warm then
    let z := p.unslot q p.cyc.lin.mult true q.sides.length
    ⟨x, eqs (p.unslot q p.cyc.lin.mult false q.ne), side (fun t => max (z.getD t.2 0) beta), side (fun t => max (gap t.1) beta)⟩
  else ⟨x, eqs (zeros q.ne), side (fun _ => 1), side (fun t => max (gap t.1) 1)⟩

/-! ## The Newton system (R133) -/

/-- What an iteration holds of its point: the exact values, the residuals, z/s by side, and Σ z/s by canonical column. -/
structure Newton where
  e : Exact
  r : Resid
  ratio : List Rat
  sum : List Rat

def Qp.newton (q : Qp Fx) (p : Point) : Newton :=
  let e := p.exact
  let ratio := (e.z.zip e.s).map (fun t => openQuot t.1 t.2)
  ⟨e, q.resid e, ratio, q.bySide (·.2) ratio⟩

/-- The term that LOAD adds to the diagonal of a column (R133, R138): Σ + δ₁k, −δ₂k, or −Ω − δ₂k. `most`: the largest value of the
D format, at which δk saturates on a retry. -/
def Qp.diagTerm (q : Qp Fx) (n : Newton) (d1 d2 : Nat) (k c : Nat) (most : Rat) : Rat :=
  let reg (d : Nat) : Rat := let x : Rat := (d : Rat) * k / 2 ^ 40; if k ≠ 1 && most < x then most else x
  if c < q.np then n.sum.getD c 0 + reg d1
  else if c < q.np + q.ne then -(reg d2)
  else -(openQuot 1 (n.sum.getD c 0)) - reg d2

/-- (−r_c + z r_g) / s of each side, r_c being s z less the target, with the second-order term (R134). -/
def Newton.sideTerms (n : Newton) (target : Rat) (second : List Rat) : List Rat :=
  (List.range n.ratio.length).map (fun i =>
    let s := n.e.s.getD i 0
    let z := n.e.z.getD i 0
    openQuot (-(s * z - target + second.getD i 0) + z * n.r.g.getD i 0) s)

/-- The right-hand side by canonical column. -/
def Qp.rhs (q : Qp Fx) (n : Newton) (target : Rat) (second : List Rat) : List Rat :=
  let t := q.bySide (fun e => e.1.sign * e.2) (n.sideTerms target second)
  (List.range (q.np + q.ne + q.ni)).map (fun c =>
    if c < q.np then -(n.r.d.getD c 0) - t.getD c 0
    else if c < q.np + q.ne then -(n.r.p.getD (c - q.np) 0)
    else -(openQuot (t.getD c 0) (n.sum.getD c 0)))

/-- A direction: Δx and Δy by canonical column, Δz and Δs by side. -/
structure Dir where
  x : List Rat
  y : List Rat
  z : List Rat
  s : List Rat

/-! ## One iteration (R134) -/

/-- What an iteration needs beside the memories. -/
structure IterCtx where
  t : TaskCtx
  q : Qp Fx
  n : Newton
  image : List (Nat × Line)
  /-- where a block dropped before abandons the iteration: the sequence state, and the wave -/
  drop : Option (Nat × Nat)

/-- The wave at which a block dropped earlier abandons the program of a sequence state (R145). -/
def IterCtx.dropIn (c : IterCtx) (phase : Nat) : Option Nat := match c.drop with
  | none => none
  | some p => if p.1 = phase then some p.2 else if p.1 < phase then some 0 else none

/-- The solve program runs on a right-hand side, and its direction is completed by side (R133, R134). -/
def IterCtx.solve (c : IterCtx) (phase : Nat) (target : Rat) (second : List Rat) (r : Run) : Dir × Run :=
  let m := c.t.img
  let d := c.t.sched
  let rhs := c.q.rhs c.n target second
  let v := d.perm.foldl (fun (a : List (Fx × Nat) × Work) col =>
    let q := (d.seg col).qres
    let x := a.2.writeRat m c.t.fb q (rhs.getD col 0)
    (a.1 ++ [(x.1, q)], x.2)) ([], { r.w with lane := none, divided := false })
  let r1 := c.t.program c.image false (c.dropIn phase) { v.2 with vec := v.1 } r.ran r.picks
  let val (col : Nat) : Rat := (r1.w.vget (d.rowOf col)).1.val
  let dx := (List.range c.q.np).map val
  let gx := (c.q.prods dx [] []).gx
  let rise := c.q.sides.map (fun t => t.sign * c.q.sideOf dx gx t)
  let terms := c.n.sideTerms target second
  let w0 : Work := { r1.w with lane := none, divided := false }
  let side (w : Work) (f : Nat → Rat) : List Fx × Work :=
    convert m c.t.fb w (c.q.sides.zipIdx.map (fun t => ((d.seg t.1.col).qdir, f t.2)))
  let dz := side w0 (fun i => terms.getD i 0 + c.n.ratio.getD i 0 * rise.getD i 0)
  let ds := side dz.2 (fun i => -(c.n.r.g.getD i 0) - rise.getD i 0)
  (⟨dx, (List.range c.q.ne).map (fun i => val (c.q.np + i)), dz.1.map Fx.val, ds.1.map Fx.val⟩, { r1 with w := ds.2 })

/-- The largest step that keeps every value at 0 or above, when one limits it. -/
def stepLimit (v d : List Rat) : Option Rat :=
  (v.zip d).foldl (fun (a : Option Rat) (e : Rat × Rat) =>
    if e.2 < 0 then
      let x := e.1 / -e.2
      match a with
      | some y => some (min x y)
      | none => some x
    else a) none

/-- min(1, `frac` × the largest step that keeps s and z at 0 or above). -/
def stepLength (e : Exact) (d : Dir) (frac : Rat) : Rat := match stepLimit (e.s ++ e.z) (d.s ++ d.z) with
  | some a => min 1 (frac * a)
  | none => 1

/-- The update (R134), each value in the format of its vector segment. -/
def IterCtx.update (c : IterCtx) (d : Dir) (a : Rat) (w : Work) : Point × Work :=
  let m := c.t.img
  let g := c.t.sched
  let step (w : Work) (q : Nat → Nat) (v d : List Rat) : List Fx × Work :=
    convert m c.t.fb w (v.zipIdx.map (fun e => (q e.2, e.1 + a * d.getD e.2 0)))
  let side (i : Nat) : Nat := ((c.q.sides[i]?).map (fun t => (g.seg t.col).qsz)).getD 0
  let x := step w (fun i => (g.seg i).qx) c.n.e.x d.x
  let y := step x.2 (fun i => (g.seg (c.q.np + i)).qx) c.n.e.y d.y
  let z := step y.2 side c.n.e.z d.z
  let s := step z.2 side c.n.e.s d.s
  (⟨x.1, y.1, z.1, s.1⟩, s.2)

/-- What an iteration leaves: the memories and reports, the lane of each task, the last wave and task, and the new iterate unless a
violation or a dropped block ended it. -/
structure IterOut where
  run : Run
  next : Option Iterate

/-- An iteration (R134): factorisation, affine direction, corrector, step and update. `eta`: SLV_STEPFRAC. -/
def IterCtx.iterate (c : IterCtx) (eta : Nat) (picks : List Nat) (w : Work) : IterOut :=
  let r0 := c.t.program c.image true (c.dropIn 0) w [] picks
  if r0.stop || r0.w.violated then ⟨r0, none⟩
  else
    let mu := meanComp c.n.e.s c.n.e.z
    let p := c.solve 1 0 [] r0
    if p.2.stop || p.2.w.violated then ⟨p.2, none⟩
    else
      let aa := stepLength c.n.e p.1 1
      let along (v d : List Rat) : List Rat := (v.zip d).map (fun e => e.1 + aa * e.2)
      let ratio := openQuot (meanComp (along c.n.e.s p.1.s) (along c.n.e.z p.1.z)) mu
      let second := (p.1.s.zip p.1.z).map (fun e => e.1 * e.2)
      let k := c.solve 2 (ratio * ratio * ratio * mu) second p.2
      if k.2.stop || k.2.w.violated then ⟨k.2, none⟩
      else
        let u := c.update k.1 (stepLength c.n.e k.1 ((eta : Rat) / 65536)) k.2.w
        let r : Run := { k.2 with w := u.2 }
        if u.2.violated || c.drop.isSome then ⟨r, none⟩ else ⟨r, some ⟨u.1, c.q.measures u.1⟩⟩

end Sys2Proof.Machine
end

