-- ==== Sys2Proof/Machine/SlvOps.lean ====
section
/-!
DEFINITION. Machine/SlvOps.lean: dispatch cycles (R100 to R119 of spec/04_dispatch_problem.md), the solve and its
iterations (R134 to R163 of spec/05_solver_lanes_and_schedule.md), and the deadline (R164 to R176 of
spec/06_deadlines_results_warm_start.md). The programme is formed by Machine/ProbOps.lean, and what an iteration computes by
Machine/IpmOps.lean and Machine/FactorOps.lean.
-/

namespace Sys2Proof.Machine

/-! ## The solve's end -/

/-- Keep the solve. -/
def State.putSolve (s : State) (v : Solve) : State := { s with dsp := { s.dsp with solve := some v } }

/-- A factor in progress at an abort or a deadline is discarded (R162, R168). -/
def State.dropFactor (s : State) (r : Stop) : State :=
  if r = .abort || r = .deadline then { s with dsp := { s.dsp with factor := [], lanes := [], recips := [] } } else s

/-- The solve ends with a reason (R136): SLV_LASTSTOP, STATE DONE, the batons released (R160), SLV_IRQ.SOLVEDONE. -/
def State.solveStop (s : State) (r : Stop) : State := match s.dsp.solve with
  | none => s
  | some v =>
    if !v.running then s
    else
      let s1 := s.putSolve { v with running := false, stop := r, waiting := false }
      let s2 := s1.wr Reg.SLV_LASTSTOP (BitVec.ofNat 32 (stopCode r + v.it * 2 ^ 8 + v.rejected * 2 ^ 16))
      let s3 := (s2.setFld Reg.SLV_RUN 0 3 6).setBit Reg.SLV_RUN 21 false
      ((((s3.dropFactor r).batonRelease 0).batonCancel 0).showLanes 0).irqSlv 0

/-- A cycle is aborted (R162, R175): its solve ends with ABORT and it publishes nothing. -/
def State.cycleAbort (s : State) : State :=
  if s.dsp.dlOpen then
    let s1 := s.solveStop .abort
    let s2 := { s1 with dsp := { s1.dsp with dlOpen := false } }
    (s2.count Reg.DSP_RES_CNT_NOPUB).setBit Reg.DSP_RES_STAT 6 true
  else s

/-- ENABLE is 0 after a write set (R100, R162, R175): the schedule ends and a running cycle is aborted. -/
def State.enableOff (s : State) : State :=
  if s.bit Reg.DSP_CTRL 0 then s
  else let s1 := s.cycleAbort; { s1 with dsp := { s1.dsp with nextStart := none } }

/-! ## Initial values, demand, prices, weights (R114 to R119) -/

/-- A stamp is more than DSP_STALE.LAPS laps older than now (R114). -/
def State.stampStale (s : State) (stamp : Word) : Bool :=
  s.fld Reg.DSP_STALE 0 16 < (BitVec.ofNat 32 s.lap.count - stamp).toNat

/-- The measurement of unit `u` is stale; DSP_INJ.STALE inverts the test for unit 0 (R114, R122). -/
def State.measStale (s : State) (u : Nat) : Bool :=
  let st := s.stampStale (s.rd (Reg.DSP_MEAS_STAMP_u u))
  if u = 0 then s.injTest Reg.DSP_INJ 0 st else st

/-- The outdoor temperature is stale. -/
def State.toutStale (s : State) : Bool := s.stampStale (s.rd Reg.DSP_MEAS_TOUT_STAMP)

/-- The status table entry of substation `i`. -/
def State.subEntry (s : State) (i : Nat) : SubEntry :=
  assocGet ⟨0#32, [0#32, 0#32, 0#32, 0#32, 0#32], 0, false, 0#32, false⟩ s.eth.subs i

/-- The draw of substation `i` is stale; an entry with VALID 0 is (R346). -/
def State.drawStale (s : State) (i : Nat) : Bool := !(s.subEntry i).valid || s.stampStale (s.subEntry i).stamp

/-- Stale values of a cycle start. -/
def State.staleCount (s : State) : Nat :=
  let m := s.runImg
  ((List.range m.nunit).filter s.measStale).length + s.toutStale.toNat + ((List.range m.nsub).filter s.drawStale).length

/-- The trajectory whose step 1 replaces stale values: the accepted one, else the safe one (R114). -/
def State.staleTraj (s : State) : Traj := s.dsp.accepted.getD (s.runImg.safeTraj s.dsp.fallback)

/-- q_u,-1 of a plant or x_0 of a store, in register encoding (R114). DESIGN CHOICE: a stale value is replaced by step 1 of scenario
0, rounded to the register's encoding; the spec names no scenario and no rounding (log entry 73). -/
def State.initOf (s : State) (u : Nat) : Int :=
  let m := s.runImg
  if s.measStale u then
    let v : Var := if m.isStore u then .storeX u else .plantQ u
    match m.vars.idxOf? v with
    | some j => encodeInt (m.valueAt s.nstep s.staleTraj.x 0 1 j v)
    | none => 0
  else s.int (Reg.DSP_MEAS_u u)

/-- DBASE + DSLOPE × (TREF − t) of substation `i`, in 1/1000 W, `t` in 0.001 °C (R115). -/
def ImgBytes.drawBase (m : ImgBytes) (i : Nat) (t : Int) : Int :=
  let o := m.subRec i
  m.gInt (o + 4) 4 * 1000 + m.gInt (o + 8) 4 * (m.gInt (o + 0x0C) 4 - t)

/-- b_i in 1/1000 W: the measured draw above its model value, 0 when either measurement is stale (R115). -/
def State.drawBias (s : State) (i : Nat) : Int :=
  if s.toutStale || s.drawStale i then 0
  else ((s.subEntry i).vals.getD 0 0#32).toInt * 1000 - s.runImg.drawBase i (s.int Reg.DSP_MEAS_TOUT)

/-- The forecast before its clamp: a numerator over 1000 × 65536^k W (R115). -/
def State.forecast (s : State) (sc i k : Nat) : Int :=
  let t := s.int (Reg.DSP_TOUTF_k k) + s.int (Reg.DSP_TOFS_s sc)
  s.runImg.drawBase i t * 65536 ^ k + s.drawBias i * (s.fld Reg.DSP_BIASDECAY 0 16 : Int) ^ k

/-- QMAX of substation `i` on the scale of `forecast`. -/
def ImgBytes.drawMax (m : ImgBytes) (i k : Nat) : Int := m.gInt (m.subRec i + 0x18) 4 * 1000 * 65536 ^ k

/-- The indices (scenario, substation, step) of the draw forecast. -/
def State.drawIdx (s : State) : List (Nat × Nat × Nat) :=
  (List.range s.scen).flatMap (fun sc => (List.range s.runImg.nsub).flatMap (fun i => (List.range s.nstep).map (fun k => (sc, i, k))))

/-- The clamped forecasts, and whether the clamp changed one. -/
def State.demand (s : State) : List Int × Bool :=
  let f := s.drawIdx.map (fun e => (s.forecast e.1 e.2.1 e.2.2, s.runImg.drawMax e.2.1 e.2.2))
  (f.map (fun e => clampInt 0 e.2 e.1), f.any (fun e => e.1 < 0 || e.2 < e.1))

/-- A price scaled for scenario `sc`, rounded toward zero (R116). -/
def State.scaled (s : State) (sc : Nat) (p : Int) : Int := divZero (p * (s.nat (Reg.DSP_PSCALE_s sc) : Int)) 65536

/-- Import and export price of a step, and whether the export price was clipped; DSP_INJ.PRICE inverts the comparison at
step 0 (R116, R122). -/
def State.priceOf (s : State) (sc k : Nat) : (Int × Int) × Bool :=
  let imp := s.scaled sc (s.int (Reg.DSP_PIMP_k k))
  let exp := s.scaled sc (s.int (Reg.DSP_PEXP_k k))
  let clamps := if k = 0 then s.injTest Reg.DSP_INJ 2 (decide (imp < exp)) else decide (imp < exp)
  ((imp, if clamps then imp else exp), clamps)

/-- The prices of every scenario and step. -/
def State.prices (s : State) : List ((Int × Int) × Bool) :=
  (List.range s.scen).flatMap (fun sc => (List.range s.nstep).map (fun k => s.priceOf sc k))

/-- The weights' numerators over their sum: DSP_SCENW, or 1 each when they sum to 0 (R119). -/
def State.weights (s : State) : List Nat :=
  let w := (List.range s.scen).map (fun sc => s.fld (Reg.DSP_SCENW_s sc) 0 17)
  if w.foldl (· + ·) 0 = 0 then w.map (fun _ => 1) else w

/-- The sum of the weights is not 65,536; DSP_INJ.SCENSUM inverts the comparison (R119, R122). -/
def State.scenNorm (s : State) : Bool :=
  s.injTest Reg.DSP_INJ 1 (((List.range s.scen).foldl (fun n sc => n + s.fld (Reg.DSP_SCENW_s sc) 0 17) 0) != 65536)

/-! ## The start of a cycle -/

/-- Cycles may start: an image runs, has passed its hurdle and its release, ENABLE is 1, and the module is no standby
(R100, R105). -/
def State.cyclesRun (s : State) : Bool :=
  s.imgRuns && s.boot.passed.contains 15 && s.bit Reg.DSP_CTRL 0 && s.isActive

/-- A cycle start is due at this boundary (R100, R104). -/
def State.startDue (s : State) : Bool :=
  s.lap.tick == 0 && s.cyclesRun && (match s.dsp.nextStart with
    | some l => decide (l ≤ s.lap.count)
    | none => true)

/-- The length of step 0 in ms and the PTP second of the grid point that ends it (R107): from the commit time, or by laps
of nominal length when TIMEVALID is 0. Whole ms and seconds are rounded in a direction left open; before the first grid
point, a count of laps has no beginning: free. -/
def State.stepZero (s : State) : Nat × Nat × State :=
  let m := s.runImg
  let step := m.stepMin * 60
  let lo : Rat := (1000 : Rat) / m.fnom
  let hi : Rat := step * 1000
  let clamp (q : Rat) : Rat := if q < lo then lo else if hi < q then hi else q
  let nowNs : Rat := s.sett.lastSec * 1000000000 + s.sett.lastNs
  if s.sett.timeValid then
    let g := (s.sett.lastSec / step + 1) * step
    let r := s.roundOpen (clamp ((g * 1000000000 - nowNs) / 1000000))
    (r.1.toNat, g, r.2)
  else
    let r0 : Rat × State := match s.dsp.gridLap with
      | some l => ((((l + s.nat Reg.DSP_STEPLAPS : Nat) : Rat) - s.lap.count) * 1000 / m.fnom, s)
      | none => let f := s.freeBits 32; (f.1, f.2)
    let r1 := r0.2.roundOpen (clamp r0.1)
    let r2 := r1.2.roundOpen ((nowNs + clamp r0.1 * 1000000) / 1000000000)
    (r1.1.toNat, r2.1.toNat, r2.2)

/-- The fit test of a solve start (R202, R204): the main problem stays while it fits, the FALLBACK problem takes its place
while that fits, and else no cycle starts and a COLD result is due. -/
def State.fitTest (s : State) : State :=
  if s.dsp.nofit then s
  else if !s.dsp.fallback && s.fits false then s
  else if s.hasFallback && s.fits true then
    if s.dsp.fallback then s
    else ((((s.toProblem true).setBit Reg.IMG_STAT 5 true).setBit Reg.FAB_STAT 5 true).irqFab 3)
  else
    let s1 := (s.setBit Reg.FAB_STAT 5 true).irqFab 3
    { s1 with dsp := { s1.dsp with nofit := true, coldDue := true } }

/-- The cycle's registers, flags and counters (R100, R114 to R119). -/
def State.cycleReport (s : State) : State :=
  let stale := s.staleCount
  let clipP := s.prices.any (·.2)
  let clipD := s.demand.2
  let norm := s.scenNorm
  let s1 := (s.countN Reg.DSP_CNT_STALEMEAS stale).onlyIf (0 < stale) (fun s => (s.setBit Reg.DSP_STAT 0 true).irqDsp 1)
  let s2 := s1.onlyIf clipD (fun s => (s.setBit Reg.DSP_STAT 3 true).count Reg.DSP_CNT_DEMCLIP)
  let s3 := s2.onlyIf clipP (fun s => ((s.setBit Reg.DSP_STAT 1 true).count Reg.DSP_CNT_PRICECLIP).irqDsp 2)
  let s4 := s3.onlyIf norm (fun s => s.setBit Reg.DSP_STAT 2 true)
  (((s4.injRan Reg.DSP_INJ 0).injRan Reg.DSP_INJ 1).injRan Reg.DSP_INJ 2)

/-- The linearisation point (R108): the accepted trajectory aligned, or the safe one, projected onto the bounds (R170). -/
def State.linPoint (s : State) (shift : Nat) : Traj × Bool :=
  let m := s.runImg
  let t := match s.dsp.accepted with
    | some a => a.align shift s.nstep s.scen
    | none => m.safeTraj s.dsp.fallback
  let p := m.projectTraj s.regs t.x
  (⟨p.1, t.mult⟩, p.2)

/-- The solve of a cycle begins with its assembly (R134, R159, R165). -/
def State.solveStart (s : State) (warm : Bool) : State :=
  let v : Solve := ⟨true, false, 0, 0, 0, s.regs, none, ⟨[], [], [], []⟩, none, 0, 0, ⟨0, 0, 0⟩, .none, 0, false, false, false⟩
  let s0 := s.putSolve v
  let s1 := ({ s0 with dsp := { s0.dsp with histGone := [] } }).setBit Reg.DSP_RES_LAST 5 warm
  let s2 := s1.forEach [Reg.DSP_RES_RP, Reg.DSP_RES_RG, Reg.DSP_RES_RD, Reg.DSP_RES_MU] (fun t a => t.wr a 0xFFFFFFFF#32)
  let s3 := (s2.wr Reg.SLV_RUN 1#32).count Reg.SLV_CNT_SOLVE
  s3.onlyIf (s.fld Reg.SLV_MAPCNT 0 5 < s.fld Reg.SLV_CTRL 0 5) (fun s => s.setBit Reg.SLV_STAT 7 true)

/-- A cycle starts at this boundary (R100 to R108). -/
def State.cycleBegin (s : State) : State :=
  let z := s.stepZero
  let shift := s.dsp.gridSince.toNat
  let warm := s.dsp.accepted.isSome
  let lin := s.linPoint shift
  let c : Cycle := ⟨s.rd Reg.DSP_CYC_LO + 1, s.lap.count, s.sett.epoch, s.lap.count + s.fld Reg.DSP_DEADLINE 0 16, z.1,
    z.2.1, shift, warm, !s.sett.timeValid, s.regs, lin.1, lin.2, !warm, s.demand.1, s.prices.map (·.1), s.weights,
    (List.range s.runImg.nunit).map s.initOf⟩
  let s1 := z.2.2.cycleReport
  let next := some (s.lap.count + s.fld Reg.DSP_CYCLE 0 16)
  let dsp := { s1.dsp with cycle := some c, dlOpen := true, gridSince := false, nextStart := next }
  let s2 := ({ s1 with dsp := dsp }).wr Reg.DSP_CYC_LO c.number
  let s3 := (s2.wr Reg.DSP_CYC_EPOCH_LO (BitVec.ofNat 32 s.sett.epoch)).wr Reg.DSP_TAU0 (BitVec.ofNat 32 z.1)
  (((s3.count Reg.DSP_CNT_CYCLE).irqDsp 0).solveStart warm).scrubStop

/-! ## What a solve works on -/

/-- The programme of a cycle (R131): its image and problem, its cycle-start sett, and the trajectory history less the entries whose
read was dropped (R112, R186). -/
def State.prob (s : State) (c : Cycle) : Prob :=
  ⟨s.runImg, s.dsp.fallback, c, s.dsp.history.zipIdx.map (fun e =>
    e.1.zipIdx.map (fun t => if s.dsp.histGone.contains (e.2 + 1, t.2) then none else some t.1))⟩

/-- Blocks that SLV may still be granted of a resource in this lap (R55). -/
def State.slvRoom (s : State) (r : Nat) : Nat := s.budgetUnits classSlv r - listGet s.used (4 * classSlv + r)

/-- SLV moves so many blocks over the lane fabric and at the DRAM port (R161). -/
def State.slvMove (s : State) (v : Solve) (fab dram : Nat) : State :=
  (((s.putSolve { v with charged := v.charged + fab, loaded := v.loaded + dram }).charge classSlv resFab fab).charge classSlv resDram dram)

/-- The blocks that the present iteration has still to move (R161): FABITER over the lane fabric, and the lines that LOAD reads at
the DRAM port. -/
def State.iterRest (s : State) (v : Solve) : Nat × Nat :=
  let loads := ((s.runImg.program s.dsp.fallback true).filter (·.op == 1)).foldl (fun n t => n + t.h) 0
  (s.runImg.pn s.dsp.fallback secSched 0x3C 4 - v.charged, loads - v.loaded)

/-- A parameter of the solve (R159). -/
def Solve.par (v : Solve) (a : Nat) : Nat := (tabGet 0#32 v.pars a).toNat

/-! ## The iterations -/

/-- The mapped lanes (SLV_MAPCNT). -/
def State.mappedLanes (s : State) : Nat := s.fld Reg.SLV_MAPCNT 0 5

/-- The planned width of a burst (R160). -/
def State.planned (s : State) : Nat := match s.dsp.solve with
  | some v => min (bitsOf (tabGet 0#32 v.pars Reg.SLV_CTRL) 0 5) s.mappedLanes
  | none => 0

/-- Batons that a burst of `n` lanes holds (Table 6 of spec/02_laps_budgets_batons.md). -/
def burstBatons (n : Nat) : Nat := 3 * ((n - 4 + 1) / 2)

/-- A burst begins (R160): of more than 4 lanes it waits for the batons that it asks for (R63, R67). -/
def State.burstBegin (s : State) : State := match s.dsp.solve with
  | none => s
  | some v =>
    let n := s.planned
    let s1 := s.putSolve { v with planned := n, waiting := decide (4 < n) }
    if 4 < n then (s1.showLanes 0).batonRequest 0 (burstBatons n) else s1.showLanes n

/-- ITERMAX of the solve. -/
def Solve.iterMax (v : Solve) : Nat := bitsOf (tabGet 0#32 v.pars Reg.SLV_CTRL) 8 7

/-- SLV_RUN shows the iteration that begins, or that waits for its burst. -/
def State.iterShow (s : State) (retry : Bool) : State := match s.dsp.solve with
  | none => s
  | some v => ((s.setFld Reg.SLV_RUN 0 3 2).setFld Reg.SLV_RUN 8 7 (v.it + 1)).setBit Reg.SLV_RUN 22 retry

/-- An iteration begins (R134, R190): the map in use becomes live. -/
def State.iterBegin (s : State) : State := match s.dsp.solve with
  | none => s
  | some v =>
    let w : Solve := { v with it := v.it + 1, charged := 0, loaded := 0, pos := ⟨0, 0, 0⟩, dropped := false, waiting := false }
    (((s.putSolve w).mapLive).wr Reg.SLV_WAVE 0#32).count Reg.SLV_CNT_ITER

/-- The present burst waits for its batons. -/
def State.burstWaits (s : State) : Bool := match s.dsp.solve with
  | some v => v.waiting
  | none => false

/-- The next iteration begins, unless its burst waits. -/
def State.iterEnter (s : State) (retry : Bool) : State :=
  let s1 := s.iterShow retry
  if s1.burstWaits then s1 else s1.iterBegin

/-- At the end of the iteration in which 32 laps from the grant are reached the batons go back, and the next iteration
begins a burst (R160). -/
def State.burstTurn (s : State) : State :=
  if s.batonsOf 0 != 0 && listGet s.lap.batonLap 0 + 32 ≤ s.lap.count then (s.batonRelease 0).burstBegin else s

/-- The next iteration, or the stop at ITERMAX (R134, R136). -/
def State.iterNext (s : State) (retry : Bool) : State := match s.dsp.solve with
  | none => s
  | some v => if v.it < v.iterMax then (s.burstTurn).iterEnter retry else s.solveStop .itermax

/-- Flag a format index as the first of its kind. -/
def State.firstHead (s : State) (q : Nat) : State :=
  if s.bit Reg.SLV_FIRSTQ 31 then s else (s.setFld Reg.SLV_FIRSTQ 16 12 q).setBit Reg.SLV_FIRSTQ 31 true

/-- A flag of a lane: its bit of SLV_LANE_n_STAT; a routine of the sequencer has no lane. -/
def State.laneBit (s : State) (lane : Option Nat) (b : Nat) : State := match lane with
  | some n => s.setBit (Reg.SLV_LANE_n_STAT n) b true
  | none => s

/-- What a flag sets and counts (R139 to R144). -/
def State.laneEvent (s : State) (e : LaneEv) : State := match e.flag with
  | .sat => (s.laneBit e.lane 8).count Reg.SLV_CNT_SAT
  | .acc => s.laneBit e.lane 9
  | .recip => s.laneBit e.lane 10
  | .pivFix => ((s.laneBit e.lane 11).setBit Reg.SLV_STAT 2 true).count Reg.SLV_CNT_PIVFIX
  | .headroom => ((((s.laneBit e.lane 12).setBit Reg.SLV_STAT 3 true).count Reg.SLV_CNT_HEADROOM).firstHead e.q).irqSlv 2

/-- The QFMT index of the first range violation (R145), of flags the oldest first. -/
def firstRange (l : List LaneEv) : Option Nat :=
  (l.find? (fun e => e.flag == .sat || e.flag == .acc || e.flag == .recip)).map (·.q)

/-- The iteration is rejected (R145, R146): for range, or for a dropped block or GEN mismatch. -/
def State.iterReject (s : State) (range : Option Nat) (fabric : Bool) : State := match s.dsp.solve with
  | none => s
  | some v =>
    let s1 := s.putSolve { v with rejected := v.rejected + 1, rejects := v.rejects + 1 }
    let s2 := match range with
      | some q => (((s1.setBit Reg.SLV_STAT 0 true).setFld Reg.SLV_FIRSTQ 0 12 q).setBit Reg.SLV_FIRSTQ 15 true).count
          Reg.SLV_CNT_REJ_RANGE
      | none => s1
    let s3 := s2.onlyIf fabric (fun s => (s.setBit Reg.SLV_STAT 1 true).count Reg.SLV_CNT_REJ_FAB)
    let s4 := s3.irqSlv 1
    if v.rejects + 1 = 2 then (s4.setBit Reg.SLV_STAT 5 true).solveStop .reject else s4.iterNext true

/-- A measure at most `k` × 2^-24 model units. -/
def Measure.atMost (x : Measure) (k : Nat) : Bool := x.num * 16777216 ≤ k * x.den

/-- The optimality test (R166), each limit multiplied by `by_`. -/
def State.testsWithin (s : State) (k : Measures) (by_ : Nat) : Bool :=
  let lim (a : Nat) : Nat := match s.dsp.cycle with
    | some c => (tabGet 0#32 c.vals a).toNat * by_
    | none => s.nat a * by_
  k.rp.atMost (lim Reg.DSP_RES_TOLP) && k.rg.atMost (lim Reg.DSP_RES_TOLP) && k.rd.atMost (lim Reg.DSP_RES_TOLD)
    && k.mu.atMost (lim Reg.DSP_RES_TOLMU)

/-- The iteration is accepted (R134, R137). -/
def State.iterAccept (s : State) (n : Iterate) : State := match s.dsp.solve with
  | none => s
  | some v =>
    let s1 := s.putSolve { v with rejects := 0, point := n.point, last := some n }
    let k := s1.measureWords (some n.ms)
    let s2 := k.2.forEach (k.1.zip [Reg.DSP_RES_RP, Reg.DSP_RES_RG, Reg.DSP_RES_RD, Reg.DSP_RES_MU])
      (fun t e => t.wr e.2 (BitVec.ofNat 32 e.1))
    if s2.testsWithin n.ms 1 then s2.solveStop .test else s2.iterNext false

/-- The running problem no longer fits the map (R203). -/
def State.unfit (s : State) : Bool := !s.fits s.dsp.fallback

/-! ## An iteration's work -/

/-- Line `j` of the root share (Table 2): the lines are spread over the mapped lanes, from line 0 of each (log entry 75). -/
def State.rootAddr (s : State) (j : Nat) : Nat :=
  let l := s.liveLanes
  4096 * l.getD (j % max 1 l.length) 0 + j / max 1 l.length

/-- Lines of the root block. -/
def ImgBytes.rootLines (m : ImgBytes) (fb : Bool) : Nat := ceilDiv (m.pn fb secSched 0x1C 4) 14

/-- The work of the present iteration begins on the memories as they are. -/
def State.workOf (s : State) (v : Solve) : Work :=
  let root := (List.range (s.runImg.rootLines s.dsp.fallback)).map (fun j => (j, assocGet Line.free s.dsp.lanes (s.rootAddr j)))
  { Work.idle with
    gen := v.it % 16, fac := s.dsp.factor, root := root, recips := s.dsp.recips,
    front := s.dsp.lanes, burst := s.liveLanes.take (s.fld Reg.SLV_RUN 16 5), invSat := s.bit Reg.SLV_INJ 0,
    invHead := s.bit Reg.SLV_INJ 1, invPiv := s.bit Reg.SLV_INJ 2, invGen := s.bit Reg.SLV_INJ 3 }

/-- What the tasks of an iteration read (R133, R138, R139): `k` is 16 on a retry. -/
def State.iterCtx (s : State) (v : Solve) (q : Qp Fx) : IterCtx :=
  let m := s.runImg
  let fb := s.dsp.fallback
  let d := m.sched fb
  let n := q.newton v.point
  let diags := (q.nz.zip d.dests).filterMap (fun e => if e.1.1 = e.1.2.1 then some (e.2, e.1.1) else none)
  let k := if v.rejects = 0 then 1 else 16
  let col (p : Nat) : Option Nat := (diags.find? (fun e => e.1 == p)).map (·.2)
  let term (p : Nat) : Option Rat := (col p).map (fun c =>
    q.diagTerm n (v.par Reg.SLV_DELTA1) (v.par Reg.SLV_DELTA2) k c (((2 ^ 35 - 1 : Nat) : Rat) / 2 ^ m.qFrac fb (d.placeQ p)))
  ⟨⟨m, fb, d, v.par Reg.SLV_PIVMIN, fun p => (col p).any (fun c => decide (q.np ≤ c)), term⟩, q, n, s.dsp.image,
    if v.dropped then some (v.pos.phase.val, v.pos.wave.toNat) else none⟩

/-- The memories after an iteration's work: the lanes hold the front work areas and the root share (R126, R127). -/
def State.putWork (s : State) (w : Work) : State :=
  let lanes := w.root.foldl (fun l e => assocPut l (s.rootAddr e.1) e.2) w.front
  { s with dsp := { s.dsp with factor := w.fac, lanes := lanes, recips := w.recips } }

/-- The iteration is judged (R134, R145): what its work reports is shown, and it is rejected or accepted. -/
def State.iterFinish (s : State) (v : Solve) (rest : Nat × Nat) (o : IterOut) : State :=
  let w := o.run.w
  let evs := w.evs.reverse
  let range := firstRange evs
  let fabric := w.genBad || v.dropped || s.unfit
  let s1 := (s.putWork w).forEach o.run.ran (fun t n => t.count (Reg.SLV_LANE_n_CNT n))
  let s2 := (s1.wr Reg.SLV_WAVE (BitVec.ofNat 32 (o.run.wave - 1))).wr Reg.SLV_TASK (BitVec.ofNat 32 o.run.last)
  let s3 := s2.forEach evs State.laneEvent
  let s4 := s3.onlyIf (0 < w.wrote) (fun t => (t.injRan Reg.SLV_INJ 0).injRan Reg.SLV_INJ 1)
  let s5 := (s4.onlyIf w.pivoted (fun t => t.injRan Reg.SLV_INJ 2)).onlyIf w.read (fun t => t.injRan Reg.SLV_INJ 3)
  match o.next with
  | some n => if range.isSome || fabric then s5.iterReject range fabric else (s5.slvMove v rest.1 rest.2).iterAccept n
  | none => s5.iterReject range fabric

/-- The deadline boundary of the cycle has come: an update completed there or later is not complete (R168). -/
def State.tooLate (s : State) : Bool := s.dsp.dlOpen && (match s.dsp.cycle with
  | some c => decide (c.deadline ≤ s.lap.count)
  | none => false)

/-- An iteration runs and ends (R134, R145, R157), unless the traffic that it has left does not fit what SLV may be granted in this
lap: then the sequencer moves what it may and pauses (R161). One whose update would be written at the deadline boundary or later is
not complete (R168). -/
def State.iteration (s : State) (r : IterRun) : State := match s.dsp.solve with
  | none => s
  | some v => match v.qp with
    | none => s
    | some q =>
      if !v.iterating || s.tooLate then s
      else
        let rest := s.iterRest v
        let fab := s.slvRoom resFab
        let dram := s.slvRoom resDram
        if fab < rest.1 || dram < rest.2 then s.slvMove v (min fab rest.1) (min dram rest.2)
        else s.iterFinish v rest ((s.iterCtx v q).iterate (v.par Reg.SLV_STEPFRAC) r.picks (s.workOf v))

/-- Assembly ends (R131, R147): the DRAM image holds the KKT values. A saturation ends the solve with NOSTART; else the solve has
its initial point (R135), the first iteration begins, and with it a burst (R160). SLV_INJ.ASMCHK inverts the saturation test of the
first value. How many of the values that saturate after the first are still converted, and counted (R142), R147 leaves open: `further`.
While SLV may not be granted the DRAM blocks of the image's lines, assembly pauses (R161). -/
def State.assemblyDone (s : State) (further : Nat) : State := match s.dsp.solve, s.dsp.cycle with
  | some v, some c =>
    if !v.running || v.assembled || s.tooLate then s
    else
      let m := s.runImg
      let fb := s.dsp.fallback
      let rest := m.pn fb secSched 0x14 4 + m.rootLines fb - v.loaded
      let room := s.slvRoom resDram
      if room < rest then s.slvMove v 0 room
      else
        let p := s.prob c
        let a := p.assemble (s.bit Reg.SLV_INJ 4)
        let s1 := (({ s with dsp := { s.dsp with image := a.image } }).slvMove v 0 rest).injRan Reg.SLV_INJ 4
        let s2 := s1.countN Reg.SLV_CNT_SAT (min a.sats (1 + further))
        if 0 < a.sats then
          (((s2.setBit Reg.SLV_STAT 4 true).count Reg.SLV_CNT_NOSTART).irqSlv 3).solveStop .nostart
        else
          let w : Solve := { v with assembled := true, qp := some a.qp, point := p.start a.qp (v.par Reg.SLV_PUSH) }
          ((s2.putSolve w).burstBegin).iterEnter false
  | _, _ => s

/-- The batons of a burst have come (R160): a burst that waits begins at its planned width; one that runs with 4 lanes widens
at the next wave boundary. -/
def State.burstGranted (s : State) : State := match s.dsp.solve with
  | none => s
  | some v => if v.waiting then (s.showLanes v.planned).iterBegin else s.setBit Reg.SLV_RUN 21 true

/-- The burst widens to its planned width at a wave boundary (R160). -/
def State.burstWiden (s : State) : State := match s.dsp.solve with
  | none => s
  | some v => if s.bit Reg.SLV_RUN 21 then (s.setBit Reg.SLV_RUN 21 false).showLanes (min v.planned s.mappedLanes) else s

/-- The grant has not come within 64 ticks: the burst runs with 4 lanes and its request waits on (R67). -/
def State.burstNarrow (s : State) : State := match s.dsp.solve with
  | none => s
  | some v =>
    if !v.waiting then s
    else
      let s1 := (((s.putSolve { v with narrow := true }).count Reg.LAP_CNT_BATON_WAIT).setBit Reg.LAP_STAT 3 true).irqLap 4
      ((((s1.setBit Reg.SLV_STAT 6 true).count Reg.SLV_CNT_NARROW).irqSlv 4).showLanes 4).iterBegin

/-! ## The deadline (R168 to R176) -/

/-- What a deadline publishes: the status, the trajectory, and the measures of an iterate. -/
structure Choice where
  status : Nat
  traj : Traj
  ms : Option Measures
  deriving DecidableEq, Repr

/-- The acceptance test (R167); DSP_RES_INJ.ACCTEST inverts it. -/
def State.accepts (s : State) (c : Cycle) (v : Solve) : Bool :=
  let acc := bitsOf (tabGet 0#32 c.vals Reg.DSP_RES_ACCF) 0 16
  s.injTest Reg.DSP_RES_INJ 0 (match v.last with
    | some n => s.testsWithin n.ms acc
    | none => false)

/-- The first status of Table 1 whose condition holds (R169). An inverted acceptance test needs an iterate to accept. -/
def State.choose (s : State) (c : Cycle) (v : Solve) : Choice :=
  let traj (n : Iterate) : Traj := match v.qp with
    | some q => (s.prob c).traj q n.point
    | none => c.lin
  let keep : Choice := ⟨if s.dsp.accepted.isSome then resShifted else resCold, c.lin, none⟩
  if v.stop = .nostart then ⟨resFailed, c.lin, none⟩
  else match v.stop, v.last with
    | .test, some n => ⟨resOptimal, traj n, some n.ms⟩
    | _, some n => if s.accepts c v then ⟨resAcceptable, traj n, some n.ms⟩ else keep
    | _, none => keep

/-- AGE of the next result (Table 4): the publications since the last OPTIMAL or ACCEPTABLE one; a FAILED publication raises
the AGE that stands by 1 (R174), which saturates at 0xFFFE for every status but COLD. -/
def State.ageNext (s : State) (status : Nat) : Nat :=
  if status ≤ 2 then 0 else if status = 4 then 0xFFFF
  else if status = 5 then min 0xFFFE (s.resNum 0x24 2 + 1) else min 0xFFFE (s.dsp.since + 1)

/-- A FAILED publication (R174). -/
def State.publishFailed (s : State) (c : Cycle) (v : Solve) : State :=
  let h0 := s.dsp.header.take 60
  let h1 := putBytes h0 0x00 (leBytes 4 c.number.toNat ++ leBytes 1 resFailed ++ leBytes 1 (stopCode v.stop)
    ++ leBytes 1 v.it ++ leBytes 1 v.rejected)
  let h2 := putBytes (putBytes h1 0x10 (leBytes 8 s.sett.epoch)) 0x24 (leBytes 2 (s.ageNext resFailed))
  let h3 := putBytes h2 0x27 (leBytes 1 ((s.resNum 0x27 1) % 64 + 64))
  ({ s with dsp := { s.dsp with header := headerCrc h3 } }).resReport resFailed

/-- A publication with a trajectory (R170 to R173, R178). -/
def State.publish (s : State) (c : Cycle) (v : Solve) (x : Choice) : State :=
  let m := s.runImg
  let p := m.projectTraj c.vals x.traj.x
  let proj := p.2 || (x.ms.isNone && c.linProj)
  let k := s.measureWords x.ms
  let flags := c.warm.toNat + proj.toNat * 2 + (x.status == resCold).toNat * 4 + c.timeGrid.toNat * 8
    + s.dsp.fallback.toNat * 16 + v.narrow.toNat * 32
  let h := leBytes 4 c.number.toNat ++ leBytes 1 x.status ++ leBytes 1 (stopCode v.stop) ++ leBytes 1 v.it
    ++ leBytes 1 v.rejected ++ leBytes 8 c.startEpoch ++ leBytes 8 s.sett.epoch ++ leBytes 8 (c.grid1 % 2 ^ 48)
    ++ leBytes 4 c.tau0 ++ leBytes 2 (s.ageNext x.status) ++ leBytes 1 c.shift ++ leBytes 1 flags
    ++ k.1.flatMap (leBytes 4) ++ leBytes 4 (s.nat (Reg.IMG_SHASH 0))
  let s1 := (k.2.putStreams p.1).onlyIf proj (fun s => s.setBit Reg.DSP_RES_STAT 3 true)
  let acc := if x.status = resCold then none else some (⟨p.1, x.traj.mult⟩ : Traj)
  let dsp := { s1.dsp with header := headerCrc h, accepted := acc, resLap := c.startLap }
  let s2 := ({ s1 with dsp := dsp }).setBit Reg.DSP_RES_LAST 4 s.dsp.gridSince
  (s2.onlyIf (s.dsp.gridSince && !s.bit Reg.DSP_RES_LAST 4) (fun s => s.irqRes 2)).resReport x.status

/-- Work in progress at the deadline is discarded (R168). -/
def State.deadlineStop (s : State) : State := match s.dsp.solve with
  | none => s
  | some v =>
    if v.running then
      let s1 := (s.setBit Reg.DSP_RES_STAT 5 true).onlyIf v.iterating (fun s => s.count Reg.DSP_RES_CNT_DISCARD)
      s1.solveStop .deadline
    else s

/-- The cycle's deadline has come. -/
def State.deadlineDue (s : State) : Bool := s.dsp.dlOpen && s.lap.tick == 0 && (match s.dsp.cycle with
  | some c => decide (c.deadline ≤ s.lap.count)
  | none => false)

/-- The deadline boundary (R168, R169): one result is published. -/
def State.deadline (s : State) : State :=
  if !s.deadlineDue then s
  else
    let s1 := s.deadlineStop
    match s1.dsp.cycle, s1.dsp.solve with
    | some c, some v =>
      let x := s1.choose c v
      let s2 := { s1 with dsp := { s1.dsp with dlOpen := false } }
      let s3 := if x.status = resFailed then s2.publishFailed c v else s2.publish c v x
      s3.injRan Reg.DSP_RES_INJ 0
    | _, _ => s1

/-- A dispatch cycle starts when it is due (R100): a publication due at the same boundary comes first (R102), the map in
use becomes live (R190), and the fit test may bring in the FALLBACK problem or find that none fits (R202, R204). -/
def State.cycleStart (s : State) : State :=
  if !s.startDue then s
  else
    let s1 := ((s.deadline).mapLive).fitTest
    if s1.dsp.nofit then s1 else s1.cycleBegin

end Sys2Proof.Machine
end

