-- ==== Sys2Proof/Machine/EthOps.lean ====
section
/-!
DEFINITION. Machine/EthOps.lean: the Ethernet ports and the substation telegrams of spec/13_ethernet_and_telegrams.md:
the frame limit (R337), ARP and ICMP (R335), the setpoint telegrams of a readable sett (R340 to R342), and the judgement
of status telegrams (R345 to R347).
-/

namespace Sys2Proof.Machine

/-! ## Ports -/

/-- A port takes host window requests (R370): it is in service and its HWP is 1, which likewise no image supplies while
none runs. -/
def State.hwpOn (s : State) (p : Nat) : Bool := s.portUp p && (s.bit (Reg.ETH_PORT_p_CFG p) 1 || !s.imgRuns)

/-- IPv4 address of a port. -/
def State.portIp (s : State) (p : Nat) : Word := s.rd (Reg.ETH_PORT_p_ADDR p)

/-- MAC address of a port, octet 0 the most significant. -/
def State.portMac (s : State) (p : Nat) : Nat := s.fld (Reg.ETH_PORT_p_MACHI p) 0 16 * 2 ^ 32 + s.nat (Reg.ETH_PORT_p_MACLO p)

/-- Frames that a port accepts in a lap (R337). -/
def frameLimit (p : Nat) : Nat := if p = 2 then 128 else 1024

/-- The MAC takes an arriving frame, or discards it over the lap's limit (R337): the state, and whether it is taken. A
port that is not in service takes nothing. -/
def State.ethAccept (s : State) (p : Nat) : State × Bool :=
  if !s.portUp p then (s, false)
  else if frameLimit p ≤ listGet s.eth.frames p then
    (((s.count Reg.ETH_CNT_RXOVR).setBit Reg.ETH_STAT 0 true).irqEth 2, false)
  else ({ s with eth := { s.eth with frames := s.eth.frames.set p (listGet s.eth.frames p + 1) } }, true)

/-- An arriving frame is taken and then acts. -/
def State.ethTake (s : State) (p : Nat) (f : State → State) : State := let r := s.ethAccept p; if r.2 then f r.1 else r.1

/-- A frame that carries nothing else the module acts on: a bad FCS, an IPv4 fault or a PAUSE counts as an error (R335). -/
def State.ethFrame (s : State) (p : Nat) (good : Bool) : State :=
  if !s.portUp p then s
  else if good then s.ethTake p id
  else s.count (Reg.ETH_PORT_p_CNT_RXERR p)

/-- A link goes up or down. -/
def State.linkChange (s : State) (p : Nat) (up gig : Bool) : State :=
  let speed := if up then (if gig && p != 2 then 2 else 1) else 0
  let old := s.rd (Reg.ETH_PORT_p_LINK p)
  let new := BitVec.ofNat 32 (up.toNat + speed * 2)
  let s1 := (s.wr (Reg.ETH_PORT_p_LINK p) new).onlyIf (old != new) (fun s => s.irqEth 1)
  s1.onlyIf (bitOf old 0 && !up && s.bit (Reg.ETH_PORT_p_CFG p) 0) (fun s => s.setBit Reg.ETH_STAT 4 true)

/-! ## ARP (R335) -/

/-- The table entry of an address on a port. -/
def State.arpFind (s : State) (p : Nat) (ip : Word) : Option ArpEntry := s.eth.arp.find? (fun e => e.port == p && e.ip == ip)

/-- Largest ARP table of a port. -/
def arpLimit (p : Nat) : Nat := if p = 2 then 64 else 4096

/-- The table entry of an address is updated. -/
def State.arpUpdate (s : State) (p : Nat) (ip : Word) (mac : BitVec 48) : State :=
  { s with eth := { s.eth with arp := s.eth.arp.map (fun e => if e.port == p && e.ip == ip then ⟨p, ip, mac⟩ else e) } }

/-- An entry is added while the table has room. -/
def State.arpInsert (s : State) (p : Nat) (ip : Word) (mac : BitVec 48) : State :=
  if (s.eth.arp.filter (fun e => e.port == p)).length < arpLimit p then
    { s with eth := { s.eth with arp := s.eth.arp ++ [⟨p, ip, mac⟩] } }
  else s

/-- The 28 bytes of an ARP message (RFC 826): operation, sender, target. -/
def arpBytes (op smac : Nat) (sip : Word) (tmac : Nat) (tip : Word) : List Byte :=
  beBytes 2 1 ++ beBytes 2 0x0800 ++ beBytes 1 6 ++ beBytes 1 4 ++ beBytes 2 op ++ beBytes 6 smac ++ beBytes 4 sip.toNat
    ++ beBytes 6 tmac ++ beBytes 4 tip.toNat

/-- An ARP request for an address goes out. -/
def State.arpAsk (s : State) (p : Nat) (ip : Word) : State :=
  s.send ⟨.arpRequest, p, 0xFFFFFFFFFFFF, 0, arpBytes 1 (s.portMac p) (s.portIp p) 0 ip⟩

/-- An ARP message arrives (RFC 826): a known sender's entry is updated, a sender that names this port is entered, and a
request for the port's address is answered. -/
def State.arpFrame (s : State) (p : Nat) (isReq : Bool) (sip : Word) (smac : BitVec 48) (tip : Word) : State :=
  s.ethTake p (fun s =>
    let known := (s.arpFind p sip).isSome
    let s1 := s.onlyIf known (fun s => s.arpUpdate p sip smac)
    let mine := tip == s.portIp p
    let s2 := s1.onlyIf (mine && !known) (fun s => s.arpInsert p sip smac)
    s2.onlyIf (mine && isReq)
      (fun s => s.send ⟨.arpReply, p, smac.toNat, 0, arpBytes 2 (s.portMac p) (s.portIp p) smac.toNat sip⟩))

/-- An entry of the ARP table is refreshed: a request for it goes out. -/
def State.arpRefresh (s : State) (p : Nat) (ip : Word) : State :=
  s.onlyIf (s.portUp p && (s.arpFind p ip).isSome) (fun s => s.arpAsk p ip)

/-- An echo request is answered with its own content (R335). -/
def State.icmpEcho (s : State) (p : Nat) (ip : Word) (payload : List Byte) : State :=
  s.ethTake p (fun s => s.send ⟨.echoReply, p, ip.toNat, 0, payload⟩)

/-! ## The TELE section (R338) -/

/-- Substations, UDP port, TPER and HOLD of TELE. -/
def State.teleNsub (s : State) : Nat := if s.imgRuns then s.runImg.sn secTele 0x02 2 else 0
def State.teleUdp (s : State) : Nat := s.runImg.sn secTele 0x04 2
def State.telePer (s : State) : Nat := s.runImg.sn secTele 0x06 2
def State.teleHold (s : State) : Nat := s.runImg.sn secTele 0x08 2

/-- IP (first octet the most significant), PORTS and KEYSLOT of substation `i`. -/
def State.teleIp (s : State) (i : Nat) : Word :=
  BitVec.ofNat 32 (beNat (s.runImg.slice (s.runImg.secOff secTele + 0x10 + 8 * i) 4))
def State.telePort (s : State) (i p : Nat) : Bool := (s.runImg.sn secTele (0x14 + 8 * i) 1).testBit p
def State.teleKey (s : State) (i : Nat) : Nat := s.runImg.sn secTele (0x15 + 8 * i) 1

/-- The module's pair id, 0 without a pair. -/
def State.pairId (s : State) : Nat := if s.pair.role = 1 || s.pair.role = 2 then s.fld Reg.PAIR_CFG 16 16 else 0

/-! ## Setpoint telegrams (R340 to R342) -/

/-- The bytes of an internal stream as a sett holds them: those of the first SETTMAP segment that copies it. -/
def State.settStream (s : State) (b : Tab 8) (k : Nat) : Option (List Byte) :=
  let m := s.runImg
  let src (i : Nat) : Nat := m.sn secSettmap (0x10 + 16 * i) 4
  match (List.range (m.sn secSettmap 0x02 2)).find? (fun i => src i == 0x80000000 + k) with
  | some i => some (bytesAt (tabGet 0#8 b) (m.sn secSettmap (0x14 + 16 * i) 4) (m.sn secSettmap (0x18 + 16 * i) 4))
  | none => none

/-- The result header and the setpoint blocks of a sett; where its SETTMAP copies less of a stream than a telegram takes,
the streams of the result in force, which are those of the sett (R173). -/
def State.settResult (s : State) (b : Tab 8) : List Byte × List Byte :=
  let enough (l : Option (List Byte)) (n : Nat) (other : List Byte) : List Byte := match l with
    | some x => if n ≤ x.length then x else other
    | none => other
  (enough (s.settStream b 0) 64 s.dsp.header, enough (s.settStream b 1) (2 * s.nat Reg.DSP_RES_SB) s.dsp.setpoints)

/-- Offset of substation `i` in a setpoint block (Table 5 of spec/06_deadlines_results_warm_start.md). -/
def State.subOfs (s : State) (i : Nat) : Nat := 0x40 + 16 * s.runImg.nunit + 8 * s.runImg.npump + 8 * i

/-- The step in force in a sett (R176): DSP_RES_LAST.STEP; in a mirrored sett, step 1 once its commit time has reached
GRID1 of its result header. -/
def State.settStep (s : State) (f : Sett) (header : List Byte) : Bool :=
  if (leAt (tabGet 0#8 f.bytes) 0x1C 4).testBit 5 then
    decide (leNat ((header.drop 0x18).take 8) ≤ leAt (tabGet 0#8 f.bytes) 0x10 8)
  else s.bit Reg.DSP_RES_LAST 4

/-- The first 40 bytes of the setpoint telegram of substation `i` from a sett (Table 3). -/
def State.telBytes (s : State) (f : Sett) (i : Nat) : List Byte :=
  let r := s.settResult f.bytes
  let h (o n : Nat) : List Byte := (r.1.drop o).take n
  let sb := s.nat Reg.DSP_RES_SB
  let step := s.settStep f r.1
  let blk (k o : Nat) : List Byte := (r.2.drop (k * sb + s.subOfs i + o)).take 4
  let hdr (o n : Nat) : Nat := leAt (tabGet 0#8 f.bytes) o n
  let flags := step.toNat + (leNat (h 0x27 1) / 16 % 2) * 2 + (hdr 0x1C 4 / 64 % 2) * 4
  leBytes 1 1 ++ leBytes 1 1 ++ leBytes 2 i ++ leBytes 2 (hdr 0x30 4) ++ leBytes 2 48 ++ leBytes 4 f.epoch
    ++ h 0x04 1 ++ leBytes 1 flags ++ h 0x24 2 ++ blk step.toNat 0 ++ blk step.toNat 4 ++ blk 1 0 ++ blk 1 4
    ++ h 0x18 4 ++ leBytes 2 s.teleHold ++ leBytes 2 0

/-- The next hop of an address on a port: itself inside the port's network, else the gateway. -/
def State.nextHop (s : State) (p : Nat) (ip : Word) : Word :=
  let n := 32 - s.fld (Reg.ETH_PORT_p_NET p) 0 6
  if ip.toNat / 2 ^ n = (s.portIp p).toNat / 2 ^ n then ip
  else if s.rd (Reg.ETH_PORT_p_GW p) = 0#32 then ip else s.rd (Reg.ETH_PORT_p_GW p)

/-- One telegram on one port (R341): sent, or counted for want of an ARP entry or of a usable key. -/
def State.telSend (s : State) (f : Sett) (i p : Nat) : State :=
  let b := s.telBytes f i
  match s.macUnder engTel (s.teleKey i) b with
  | none => (s.count Reg.ETH_CNT_NOKEY).setBit Reg.ETH_STAT 3 true
  | some mac =>
    let hop := s.nextHop p (s.teleIp i)
    match s.arpFind p hop with
    | none => ((s.count Reg.ETH_CNT_ARPMISS).setBit Reg.ETH_STAT 2 true).arpAsk p hop
    | some _ => (s.send ⟨.setpoint, p, (s.teleIp i).toNat, s.teleUdp, b ++ mac.take 8⟩).count Reg.ETH_CNT_TXTEL

/-- The module may send telegrams: it is ACTIVE or alone, or the synchronised STANDBY (R340). -/
def State.telRole (s : State) : Bool := s.isActive || (s.isStandby && s.pairSync)

/-- The telegrams of a readable sett, in ascending order of substations; none of a sett older than one already sent
(R340, R341). -/
def State.telegrams (s : State) (f : Sett) : State :=
  let old : Bool := match s.eth.telEpoch with
    | some e => decide (f.epoch ≤ e)
    | none => false
  if !s.imgRuns || !s.bit Reg.ETH_CTRL 0 || !s.telRole || old then s
  else
    let due := (List.range s.teleNsub).filter (fun i => (f.epoch + i) % s.telePer == 0)
    let s1 := { s with eth := { s.eth with telEpoch := some f.epoch } }
    s1.forEach due (fun t i =>
      t.forEach ((List.range 2).filter (fun p => t.telePort i p && t.portUp p && t.bit (Reg.ETH_PORT_p_CFG p) 3))
        (fun u p => u.telSend f i p))

/-! ## Status telegrams (R345 to R347) -/

/-- Counters of the causes of Table 5. -/
def dropCnt : Nat → Nat
  | 1 => Reg.ETH_CNT_DROP_LEN | 2 => Reg.ETH_CNT_DROP_FMT | 3 => Reg.ETH_CNT_DROP_UNKNOWN
  | 4 => Reg.ETH_CNT_DROP_AUTH | _ => Reg.ETH_CNT_DROP_REPLAY

/-- SUB of a datagram; a datagram too short to hold it has none: free. -/
def State.dropSub (s : State) (b : List Byte) : Nat × State :=
  if 4 ≤ b.length then (leNat ((b.drop 2).take 2) % 2 ^ 12, s) else s.freeBits 12

/-- A datagram is discarded (R345): counted, recorded in ETH_LASTDROP, raised. -/
def State.telDrop (s : State) (cause p : Nat) (b : List Byte) : State :=
  let r := s.dropSub b
  let s1 := (r.2.count (dropCnt cause)).wr Reg.ETH_LASTDROP (BitVec.ofNat 32 (cause + p * 2 ^ 4 + r.1 * 2 ^ 16))
  (s1.setBit Reg.ETH_STAT 1 true).irqEth 0

/-- Check 3 (UNKNOWN): SUB, source, port or PAIRID do not agree with TELE. -/
def State.telUnknown (s : State) (p : Nat) (ip : Word) (b : List Byte) : Bool :=
  let sub := leNat ((b.drop 2).take 2)
  s.teleNsub ≤ sub || s.teleIp sub != ip || !s.telePort sub p || leNat ((b.drop 4).take 2) != s.pairId

/-- Check 4's test: the MAC verifies under a usable key (R342). -/
def State.telVerifies (s : State) (b : List Byte) : Bool :=
  match s.macUnder engTel (s.teleKey (leNat ((b.drop 2).take 2))) (b.take 0x28) with
  | some mac => mac.take 8 == b.drop 0x28
  | none => false

/-- Check 5's test: SEQ is newer than the last accepted one (R343), or none counts (R347). -/
def State.telNewer (s : State) (b : List Byte) : Bool :=
  let e := s.subEntry (leNat ((b.drop 2).take 2))
  !e.known || newerSeq 32 (leNat ((b.drop 8).take 4)) e.seq.toNat

/-- An accepted telegram's entry (R346, Table 6). -/
def State.telEntry (s : State) (b : List Byte) : SubEntry :=
  let w (o : Nat) : Word := BitVec.ofNat 32 (leNat ((b.drop o).take 4))
  ⟨BitVec.ofNat 32 s.lap.count, [w 0x0C, w 0x10, w 0x14, w 0x18, w 0x1C], leNat ((b.drop 0x20).take 2), true, w 8, true⟩

/-- A telegram is accepted, for 1 FAB block of NET (R346). -/
def State.telAccept (s : State) (b : List Byte) : State :=
  let sub := leNat ((b.drop 2).take 2)
  (({ s with eth := { s.eth with subs := assocPut s.eth.subs sub (s.telEntry b) } }).charge classNet resFab 1).count Reg.ETH_CNT_RXTEL

/-- The checks of Table 5 in order (R345); ETH_INJ inverts the results of checks 4 and 5 (R348). -/
def State.telJudge (s : State) (p : Nat) (ip : Word) (b : List Byte) : State :=
  if b.length ≠ 48 || leNat ((b.drop 6).take 2) ≠ 48 then s.telDrop 1 p b
  else if b.getD 0 0#8 ≠ 1#8 || b.getD 1 0#8 ≠ 2#8 then s.telDrop 2 p b
  else if s.telUnknown p ip b then s.telDrop 3 p b
  else
    let s1 := s.injRan Reg.ETH_INJ 0
    if !s.injTest Reg.ETH_INJ 0 (s.telVerifies b) then s1.telDrop 4 p b
    else
      let s2 := s1.injRan Reg.ETH_INJ 1
      if !s1.injTest Reg.ETH_INJ 1 (s1.telNewer b) then s2.telDrop 5 p b else s2.telAccept b

/-- A datagram arrives on UDPPORT of a port (R345). While no image runs there is no TELE section. -/
def State.statusTelegram (s : State) (p : Nat) (ip : Word) (b : List Byte) : State :=
  s.ethTake p (fun s => if s.imgRuns && s.bit (Reg.ETH_PORT_p_CFG p) 3 then s.telJudge p ip b else s)

/-- ETH_SUBRESET: the last accepted SEQ of a substation is forgotten (R347). -/
def State.subReset (s : State) (i : Nat) : State :=
  { s with eth := { s.eth with subs := assocPut s.eth.subs i { s.subEntry i with known := false } } }

/-- The 32 bytes of a status table entry (Table 6), and stream 17. -/
def SubEntry.bytes (e : SubEntry) : List Byte :=
  leBytes 4 e.stamp.toNat ++ bytesOfWords e.vals ++ leBytes 2 e.alarms ++ leBytes 2 e.valid.toNat ++ leBytes 4 e.seq.toNat
def State.stream17 (s : State) : List Byte := (List.range s.teleNsub).flatMap (fun i => (s.subEntry i).bytes)

/-- ETH_SUBVIEW_w. -/
def State.subView (s : State) (w : Nat) : Word :=
  BitVec.ofNat 32 (leNat (((s.subEntry (s.fld Reg.ETH_SUBSEL 0 11)).bytes.drop (4 * w)).take 4))

/-- ETH_TEL_INFO of the running image. -/
def State.showTele (s : State) : State := s.wr Reg.ETH_TEL_INFO (BitVec.ofNat 32 (s.teleNsub + s.telePer % 256 * 2 ^ 16))

end Sys2Proof.Machine
end

