-- ==== Sys2Proof/Machine/FbpOps.lean ====
section
/-!
DEFINITION. Machine/FbpOps.lean: the operations of spec/09_function_block_program.md: instance data (R245 to R247),
exchange variables (R233), the cycle's phases (R234 to R238), stops (R239 to R243), and forcing (R248 to R251).
-/

namespace Sys2Proof.Machine

/-! ## Instance data -/

/-- `n` bytes at offset `o` of the FBPROG section of the running image. -/
def State.fbprog (s : State) (o n : Nat) : Nat := if s.imgRuns then s.runImg.sn secFbprog o n else 0

/-- The exchange variable is OUT (Table 1, XVDIR). -/
def State.xvOut (s : State) (k : Nat) : Bool := (s.fbprog (s.fbprog 0x18 4 + k / 8) 1).testBit (k % 8)

/-- The initial-value runs of FBDATA, from section offset `o` on, written into a table. -/
def fbdataRuns (m : ImgBytes) : Nat → Nat → Tab 8 → Tab 8
  | 0, _, t => t
  | n + 1, o, t =>
    let at_ := m.sn secFbdata o 4
    let len := m.sn secFbdata (o + 4) 4
    fbdataRuns m n (o + 8 + len) (tabSetList 0#8 t at_ (m.slice (m.secOff secFbdata + o + 8) len))

/-- The instance data that FBDATA declares (R231). -/
def ImgBytes.fbdata (m : ImgBytes) : Tab 8 := fbdataRuns m (m.sn secFbdata 8 4) 0x10 []

/-- Warm offset of the retained instance data. -/
def retainWarm : Nat := 0x10000

/-- The instance data of a start, an activation or a COLD restart: FBDATA, but the first RETAIN bytes, which are kept
(R245, R246). -/
def State.coldData (s : State) (keep : List Byte) : Tab 8 :=
  tabSetList 0#8 s.runImg.fbdata 0 (keep.take s.imgRetain)

/-- The first RETAIN bytes of the instance data as they stand. -/
def State.retained (s : State) : List Byte := bytesAt (tabGet 0#8 s.fbp.data) 0 s.imgRetain

/-- Put words of instance data; the first RETAIN bytes stand in the warm region too (R246). -/
def State.putData (s : State) (l : List (Nat × Word)) : State :=
  let ok := l.filter (fun e => e.1 % 4 = 0 && e.1 < s.imgDataSize)
  let data := ok.foldl (fun t e => tabSetList 0#8 t e.1 (leBytes 4 e.2.toNat)) s.fbp.data
  let s1 := { s with fbp := { s.fbp with data := data } }
  s1.forEach (ok.filter (fun e => e.1 < s.imgRetain)) (fun t e => t.sramPut (retainWarm + e.1) (leBytes 4 e.2.toNat))

/-- The words that an evaluation has changed, as numbers. -/
def dataWords (l : List (BitVec 20 × Word)) : List (Nat × Word) := l.map (fun e => (e.1.toNat, e.2))

/-! ## The evaluate phase (R236) -/

/-- The instance data of instance `i`: its offset and its length in bytes (Table 1). -/
def State.instRange (s : State) (i : Nat) : Nat × Nat :=
  let w := s.fbprog (0x24 + 8 * i) 4
  (w % 2 ^ 20, 4 * (w / 2 ^ 20))

/-- Of the changed words, those in an instance's own data: an access elsewhere traps (R241). -/
def State.ownWords (s : State) (i : Nat) (l : List (BitVec 20 × Word)) : List (BitVec 20 × Word) :=
  l.filter (fun e => (s.instRange i).1 ≤ e.1.toNat && e.1.toNat < (s.instRange i).1 + (s.instRange i).2)

/-- Later writes of one list over another. -/
def overList {α β : Type} [DecidableEq α] (l new : List (α × β)) : List (α × β) :=
  l.filter (fun e => !new.any (fun f => decide (f.1 = e.1))) ++ new

/-- Words put over instance data. -/
def overData (t : Tab 8) (l : List (BitVec 20 × Word)) : Tab 8 :=
  (dataWords l).foldl (fun t e => tabSetList 0#8 t e.1 (leBytes 4 e.2.toNat)) t

/-- One instance runs on the input image, the instance data and the output image as they stand. -/
def State.runInst (s : State) (code : List Byte) (st : Tab 8 × OutImage) (i : Nat) : Tab 8 × OutImage :=
  let r := Config.runBlock code i s.fbp.inputs st.1 st.2
  let own := s.ownWords i r.data
  (overData st.1 own, ⟨overList st.2.aouts r.aouts, overList st.2.dos r.dos, overList st.2.xvs r.xvs, overList st.2.data own⟩)

/-- The first `n` instances run once each, in ascending order (R236): the output image, with the data words changed. -/
def State.evaluate (s : State) (n : Nat) : OutImage :=
  let code := s.runImg.slice (s.runImg.secOff secFbprog) (s.runImg.secLen secFbprog)
  ((List.range n).foldl (s.runInst code) (s.fbp.data, ⟨[], [], [], []⟩)).2

/-- The data words that an evaluate phase has changed when it is abandoned within instance `inst`, which had changed
`words` of its own data. After the phase's end there are none: the data stands already. -/
def State.evalLeft (s : State) (inst : Nat) (words : List (BitVec 20 × Word)) : List (Nat × Word) :=
  if s.fbp.cycleOpen && s.fbp.waiting.isNone then
    dataWords ((s.evaluate (min inst (s.fbprog 2 2))).data ++ s.ownWords inst words)
  else []

/-! ## Forcing (R248 to R251) -/

/-- Points of each class of Table 3. -/
def forcePoints : Nat → Nat
  | 0 => 32 | 1 => 16 | 2 => 32 | 3 => 16 | 4 => 32 | _ => 0

/-- A point index names a point of Table 3. -/
def pointDefined (p : Nat) : Bool := p / 32 % 8 = 0 && p % 32 < forcePoints (p / 256)

/-- Number of forced points. -/
def State.forceCount (s : State) : Nat :=
  (List.range 5).foldl (fun k c => k + ((List.range 32).filter (s.forced c)).length) 0

/-- FBP_FORCE_CNT follows the masks (FBP_IRQ.FORCE when it changes). -/
def State.forceShow (s : State) : State :=
  if s.forceCount = s.nat Reg.FBP_FORCE_CNT then s
  else (s.wr Reg.FBP_FORCE_CNT (BitVec.ofNat 32 s.forceCount)).irqFbp 2

/-- An event of R251: point, operation, value. -/
def State.forceEvent (s : State) (point op val : Nat) : State :=
  s.raiseEv 0x0802 1 (leBytes 2 point ++ leBytes 1 op ++ [0#8] ++ leBytes 4 val)

/-- SET: force a point to the value in its register. -/
def State.forceSet (s : State) (p : Nat) : State :=
  let s1 := ((s.setBit (Reg.FBP_FORCE_MASK_c (p / 256)) (p % 32) true).setBit Reg.FBP_STAT 4 true).count Reg.FBP_CNT_FORCE
  (s1.forceShow).forceEvent p 0 (s.nat (Reg.FBP_FORCE_c_n (p / 256) (p % 32)))

/-- The release of a forced output while the outputs hold their safe values switches it there (R68, R243). -/
def State.releaseDraw (s : State) (outputs : Bool) : State := s.onlyIf (outputs && s.programSafe) State.drawReserved

/-- CLR: release a point. -/
def State.forceClr (s : State) (p : Nat) : State :=
  let s1 := s.releaseDraw ((p / 256 == 1 || p / 256 == 3) && s.forced (p / 256) (p % 32))
  ((s1.setBit (Reg.FBP_FORCE_MASK_c (p / 256)) (p % 32) false).forceShow).forceEvent p 1
    (s.nat (Reg.FBP_FORCE_c_n (p / 256) (p % 32)))

/-- Every mask cleared, without an event. -/
def State.forceNone (s : State) : State := s.forEach (List.range 5) (fun t c => t.wr (Reg.FBP_FORCE_MASK_c c) 0#32)

/-- CLRALL: release every point. -/
def State.forceClrAll (s : State) : State :=
  let s1 := s.releaseDraw (s.nat (Reg.FBP_FORCE_MASK_c 1) != 0 || s.nat (Reg.FBP_FORCE_MASK_c 3) != 0)
  ((s1.forceNone).forceShow).forceEvent 0 2 0

/-- A write of FBP_FORCE_CMD: SET, else CLR. -/
def State.forceCmd (s : State) (v : Word) : State :=
  let p := bitsOf v 0 11
  if bitOf v 16 then s.forceSet p else if bitOf v 17 then s.forceClr p else s

/-- A stop with cause WDOG or TRAP releases every forced output (R250). -/
def State.releaseOutputs (s : State) : State :=
  let l := ([1, 3].flatMap (fun c => (List.range 16).map (fun n => (c, n)))).filter (fun e => s.forced e.1 e.2)
  let s1 := s.forEach l (fun t e => t.setBit (Reg.FBP_FORCE_MASK_c e.1) e.2 false)
  s1.forceShow.forEach l (fun t e => t.forceEvent (e.1 * 256 + e.2) 3 (s.nat (Reg.FBP_FORCE_c_n e.1 e.2)))

/-! ## Stops (R240 to R243) -/

/-- Set STATE, CAUSE and PHASE of FBP_STATE. -/
def State.fbpSet (s : State) (state cause phase : Nat) : State :=
  s.wr Reg.FBP_STATE (BitVec.ofNat 32 (state + cause * 2 ^ 4 + phase * 2 ^ 8))

/-- CAUSE of the last stop. -/
def State.fbpCause (s : State) : Nat := s.fld Reg.FBP_STATE 4 3

/-- Set PHASE. -/
def State.fbpPhase (s : State) (k : Nat) : State := s.setFld Reg.FBP_STATE 8 2 k

/-- The program stops with a cause: nothing of a phase in progress is applied, and the outputs take their safe values,
for which the reserved batons are drawn (R243). What the program and the loops drove is gone: after a restart an output
keeps its safe value until its image or its loop gives it another (R237). -/
def State.fbpStopWith (s : State) (cause : Nat) : State :=
  let s1 := { s with fbp := { s.fbp with cycleOpen := false, safeHold := true, waiting := none, restart := none } }
  let firmware := (List.range 16).filter (fun n => s.aoDriver n = 3)
  let field := { s1.field with
    aoDrv := s1.field.aoDrv.filter (fun e => firmware.contains e.1), doImage := [], doLater := [] }
  let s2 := { s1 with field := field }
  ((((s2.batonCancel 5).batonRelease 5).fbpSet 1 cause 0).drawReserved).irqFbp 0

/-- A watchdog or trap stop: recorded, and every forced output released (R240, R241, R250). -/
def State.fbpFault (s : State) (cause stat cnt : Nat) : State :=
  let s1 := ((s.fbpStopWith cause).setBit Reg.FBP_STAT stat true).count cnt
  let s2 := s1.raiseEv 0x0801 3 (leBytes 1 cause ++ [0#8] ++ leBytes 2 (s1.fld Reg.FBP_TRAP 0 12))
  s2.releaseOutputs

/-- The watchdog instant of the present cycle (R239, R240), FBP_INJ.WDOG applied. -/
def State.fbpWatchdog (s : State) (left : List (Nat × Word)) : State :=
  if s.fbpState ≠ 2 || s.fbp.wdogDone || s.now < s.fbp.wdogAt then s
  else
    let tooLate := s.injTest Reg.FBP_INJ 0 s.fbp.cycleOpen
    let s1 := ({ s with fbp := { s.fbp with wdogDone := true } }).injRan Reg.FBP_INJ 0
    if tooLate then (s1.putData left).fbpFault 1 0 Reg.FBP_CNT_WDOG else s1

/-- KIND of FBP_TRAP. -/
def trapKind : TrapKind → Nat
  | .undefinedOp => 1 | .dataAccess _ => 2 | .undefinedPoint => 3

/-- The program's code reaches what the processor tests (R241), FBP_INJ.TRAP applied to an instance-data access. -/
def State.fbpTrap (s : State) (inst : Nat) (k : TrapKind) (left : List (Nat × Word)) : State :=
  if s.fbpState ≠ 2 || !s.fbp.cycleOpen then s
  else
    let traps := match k with
      | .dataAccess outside => s.injTest Reg.FBP_INJ 1 outside
      | _ => true
    let s1 := match k with
      | .dataAccess _ => s.injRan Reg.FBP_INJ 1
      | _ => s
    if traps then
      let s2 := s1.wr Reg.FBP_TRAP (BitVec.ofNat 32 (inst + trapKind k * 2 ^ 16))
      (s2.putData left).fbpFault 3 1 Reg.FBP_CNT_TRAP
    else s1

/-- STOP: the program stops with cause COMMAND; an accepted RESTART that waits is withdrawn (R242). -/
def State.fbpCommandStop (s : State) (left : List (Nat × Word)) : State :=
  let s0 := { s with fbp := { s.fbp with restart := none } }
  if s.fbpState ≠ 2 then s0 else ((s0.putData left).fbpStopWith 2).setBit Reg.FBP_STAT 2 true

/-- A write of FBP_CTRL: STOP wins over RESTART in one write. -/
def State.fbpCtrl (s : State) (v : Word) (left : List (Nat × Word)) : State :=
  if bitOf v 0 then s.fbpCommandStop left
  else if bitOf v 1 then { s with fbp := { s.fbp with restart := some (bitOf v 2) } }
  else s

/-- The judgement of FBP_CTRL: RESTART while RUNNING (R244). -/
def State.fbpCtrlDeny (s : State) (v : Word) : Option Status :=
  if !bitOf v 0 && bitOf v 1 && s.fbpState = 2 then some .locked else none

/-! ## The cycle -/

/-- The program enters RUNNING at a boundary: its first cycle starts there (R234, R244, R246). -/
def State.fbpRun (s : State) : State :=
  let fbp := { s.fbp with restart := none, nextCycle := s.lap.count, cycleOpen := false, waiting := none }
  ({ s with fbp := fbp }).fbpSet 2 s.fbpCause 0

/-- DEFAULTS of the running image sets AUTOSTART (R246). -/
def State.autostart (s : State) : Bool :=
  s.imgRuns && Config.autostart (s.runImg.slice (s.runImg.secOff secDefaults) (s.runImg.secLen secDefaults))

/-- The outputs hold their safe values until the first apply instant after a stop (R243). -/
def State.holdSafe (s : State) (on : Bool) : State := { s with fbp := { s.fbp with safeHold := on } }

/-- The program as H14 leaves it (R246): RUNNING under AUTOSTART when H14 passes, else STOPPED with cause START. RUNNING is
entered at a lap boundary: the next one, when H14 passes within a lap. No stop comes before it, so the outputs of the loops
and of firmware are free of the program's first apply instant (R40). -/
def State.fbpStart (s : State) (passed : Bool) : State :=
  if !s.imgRuns then s.fbpSet 0 0 0
  else if passed && s.autostart then
    let s1 := s.holdSafe false
    if s.lap.tick = 0 then s1.fbpRun else { s1 with fbp := { s1.fbp with restart := some false } }
  else (s.holdSafe true).fbpSet 1 4 0

/-- At a lap boundary an accepted RESTART puts the program in RUNNING; COLD sets the instance data first (R245). -/
def State.fbpBoundary (s : State) : State := match s.fbp.restart with
  | none => s
  | some cold =>
    let s1 := if cold then { s with fbp := { s.fbp with data := s.coldData s.retained } } else s
    s1.fbpRun

/-- The setpoint block of the step in force (R176, R235). -/
def State.spBlock (s : State) : List Byte :=
  let sb := s.nat Reg.DSP_RES_SB
  (s.dsp.setpoints.drop (if s.bit Reg.DSP_RES_LAST 4 then sb else 0)).take sb

/-- Key of word `i` of the setpoint block in the input image; the other keys are register addresses. -/
def spKey (i : Nat) : Nat := 0x100000000 + 4 * i

/-- The input image: field inputs, counts and flags, IN variables, the setpoint block of the step in force (R235). -/
def State.latchInputs (s : State) : Tab 32 :=
  let put (t : Tab 32) (a : Nat) (v : Word) : Tab 32 := tabSet 0#32 t a v
  let t1 := (List.range 32).foldl (fun t n =>
    put (put (put t (Reg.AIN_n_RAW n) (s.ainRaw n)) (Reg.AIN_n_VAL n) (s.ainVal n)) (Reg.AIN_n_FLAGS n) (s.ainFlags n)) []
  let t2 := put (put t1 Reg.DIO_DI_STATE s.diState) Reg.DIO_DI_VALID s.diValid
  let t3 := (List.range 32).foldl (fun t n => put t (Reg.DIO_DI_n_CNT n) (s.diCnt n)) t2
  let t4 := (s.regs.filter (fun e => Reg.FBP_XV_k 0 ≤ e.1 && e.1 ≤ Reg.FBP_XV_k 4095 && !s.xvOut ((e.1 - Reg.FBP_XV_k 0) / 4))).foldl
    (fun t e => put t e.1 e.2) t3
  ((wordsOfBytes s.spBlock).zipIdx).foldl (fun t e => put t (spKey e.2) e.1) t4

/-- The staged pairs in force are written into instance data, and their ADDR names no word again (R247). -/
def State.idwApply (s : State) : State :=
  s.forEach (List.range 16) (fun t k =>
    let a := t.nat (Reg.FBP_IDW_ADDR_k k)
    if a < t.imgDataSize then
      (t.putData [(a, t.rd (Reg.FBP_IDW_VAL_k k))]).wr (Reg.FBP_IDW_ADDR_k k) 0xFFFFFFFF#32
    else t)

/-- A cycle starts at the present boundary: it is a whole number of cycles after the next start that is due (R234). -/
def State.fbpCycleDue (s : State) : Bool :=
  s.fbpState == 2 && s.lap.tick == 0 && s.fbp.nextCycle ≤ s.lap.count
    && (s.lap.count - s.fbp.nextCycle) % s.fld Reg.FBP_CYCLE 0 12 == 0

/-- A cycle starts at a lap boundary with its latch phase (R234, R235, R239, R247). -/
def State.fbpCycleStart (s : State) : State :=
  if !s.fbpCycleDue then s
  else
    let laps := s.fld Reg.FBP_CYCLE 0 12
    let fbp := { s.fbp with
      nextCycle := s.lap.count + laps, cycleAt := s.now, cycleOpen := true, wdogDone := false, waiting := none, ran := 0,
      wdogAt := (s.lap.count + laps - 1) * 4096 + s.fld Reg.FBP_WDOG 0 12, inputs := s.latchInputs }
    let s1 := ({ s with fbp := fbp }).wr Reg.FBP_CYC_LO (s.rd Reg.FBP_CYC_LO + 1)
    (s1.fbpPhase 1).idwApply

/-- The output image restricted to what the image gives the program. -/
def State.outFilter (s : State) (o : OutImage) : OutImage :=
  { o with
    aouts := o.aouts.filter (fun e => s.aoDriver e.1.val = 1 && s.aoMode e.1.val != 0)
    dos := o.dos.filter (fun e => s.doDriver e.1.val = 1)
    xvs := o.xvs.filter (fun e => s.xvOut e.1.val) }

/-- MEAS values that IOMAP maps to the program are copied with their stamps (R114, R237). -/
def State.measCopy (s : State) : State :=
  s.forEach (List.range 65) (fun t u =>
    let k := t.iomap (0x3E0 + 2 * u) 2
    let a := if u = 64 then Reg.DSP_MEAS_TOUT else Reg.DSP_MEAS_u u
    if k < 4096 then (t.wr a (t.xv k)).wr (a + 4) (BitVec.ofNat 32 t.lap.count) else t)

/-- The field outputs of an output image become visible; the program's outputs hold safe values no longer. -/
def State.outShow (s : State) (o : OutImage) : State :=
  let fbp := { s.fbp with safeHold := false }
  let s1 := s.forEach o.aouts (fun t e => t.aoDrive e.1.val (t.aoClamp e.1.val (t.aoScale e.1.val e.2.toInt)))
  let img := o.dos.foldl (fun l e => assocPut l e.1.val e.2) s1.field.doImage
  { s1 with fbp := fbp, field := { s1.field with doImage := img } }

/-- The digital outputs that an output image switches on: those of the program. -/
def State.outNewOn (s : State) (o : OutImage) : List Nat :=
  (List.range 16).filter (fun n => s.doDriver n == 1 && (s.outShow o).doOn n && !s.doOn n)

/-- The outputs that wait for their turn, at most 8 per tick from the next tick on. -/
def State.doWait (s : State) (l : List Nat) : State :=
  { s with field := { s.field with doLater := s.field.doLater.filter (fun n => !l.contains n) ++ l } }

/-- The apply instant (R237, R238): the whole output image becomes visible at once. `group` is the outputs to switch on
at most 8 per tick over the following ticks. -/
def State.applyNow (s : State) (o : OutImage) (group : List Nat) : State :=
  let s1 := s.outShow o
  let s2 := s1.forEach o.xvs (fun t e => t.wr (Reg.FBP_XV_k e.1.val) e.2)
  let s3 := s2.measCopy
  let s4 := s3.canApply
  let exec := satWordN s.fbp.ran
  let s5 := s4.wr Reg.FBP_EXEC_LAST exec
  let s6 := s5.onlyIf (s5.rd Reg.FBP_EXEC_MAX < exec) (fun t => t.wr Reg.FBP_EXEC_MAX exec)
  let s7 := (s6.wr Reg.FBP_DONE_LAST (BitVec.ofNat 32 (s.now - s.fbp.cycleAt))).count Reg.FBP_CNT_CYCLE
  let fbp := { s7.fbp with cycleOpen := false, waiting := none, applied := s7.fbp.data }
  let s8 := (({ s7 with fbp := fbp }).fbpPhase 0).irqFbp 1
  if group.isEmpty then s8
  else ((s8.doWait group).setBit Reg.FBP_STAT 3 true).count Reg.FBP_CNT_GROUP

/-- The program processor executes in the present tick: the evaluate phase of a cycle has begun and not ended, and FBP is
not held on CORE (R55, R230). -/
def State.fbpExecutes (s : State) : Bool :=
  s.fbpState == 2 && s.fbp.cycleOpen && s.fbp.waiting.isNone && s.fbp.cycleAt + 32 ≤ s.now && s.grantable classFbp 0

/-- A tick of the program processor's execution is charged to FBP on CORE at 1 core-tick (R230). -/
def State.fbpTick (s : State) : State :=
  if s.fbpExecutes then
    let s1 := s.charge classFbp 0 1
    { s1 with fbp := { s1.fbp with ran := s1.fbp.ran + 1 } }
  else s

/-- No grant of requester 5 has come within 64 ticks of the request (R238); in the tick in which they end, when its point has
`passed`. -/
def State.fbpTimedOut (s : State) (passed : Bool) : Bool := if passed then s.fbp.askedAt + 64 ≤ s.now else s.fbp.askedAt + 64 < s.now

/-- The evaluate phase ends (R236 to R238): every instance has run, and where it ends in a tick in which the program `executed`, that
tick is charged (R230). More than 8 outputs to switch on ask for the batons of requester 5; without a grant within 64 ticks they
switch on in groups. -/
def State.fbpApply (s : State) (executed timedOut : Bool) : State :=
  if s.fbpState ≠ 2 || !s.fbp.cycleOpen then s
  else
    match s.fbp.waiting with
    | some o => if s.fbpTimedOut timedOut then ((s.batonCancel 5).applyNow o (s.outNewOn o)) else s
    | none =>
      let o := s.outFilter (s.evaluate (s.fbprog 2 2))
      let s1 := (s.onlyIf executed State.fbpTick).putData (dataWords o.data)
      if (s1.outNewOn o).length ≤ 8 then s1.applyNow o []
      else (({ s1 with fbp := { s1.fbp with waiting := some o, askedAt := s.now } }).fbpPhase 3).batonRequest 5 2

/-- The batons of requester 5 are granted: the waiting image is applied, and they are released (R64, R238). -/
def State.fbpGranted (s : State) : State := match s.fbp.waiting with
  | some o => (s.applyNow o []).batonRelease 5
  | none => s.batonRelease 5

/-- FBP_STATE as it reads: the latch phase ends within 32 ticks, and the evaluate phase follows it (R235). -/
def State.fbpStateReg (s : State) : Word :=
  if s.fld Reg.FBP_STATE 8 2 = 1 && s.fbp.cycleAt + 32 ≤ s.now then putBits (s.rd Reg.FBP_STATE) 8 2 2
  else s.rd Reg.FBP_STATE

/-- The registers that show the running image's program, and its instance data as at a start (R246). -/
def State.loadFbprog (s : State) (keep : List Byte) : State :=
  let s1 := (s.wr Reg.FBP_NINST (BitVec.ofNat 32 (s.fbprog 2 2))).wr Reg.FBP_DATASIZE (BitVec.ofNat 32 (s.fbprog 4 4))
  let s2 := s1.wr Reg.FBP_WCET (BitVec.ofNat 32 (s.fbprog 0x0C 4))
  let d := s2.coldData keep
  { s2 with fbp := { s2.fbp with data := d, applied := d, inputs := [], ran := 0, waiting := none, askedAt := 0, restart := none,
                                  cycleOpen := false, safeHold := true } }

end Sys2Proof.Machine
end

