-- ==== Sys2Proof/Machine/FieldRange.lean ====
section
/-!
DEFINITION. Machine/FieldRange.lean: the values that the register tables of spec/ permit for a field, beside those that
a DEFAULTS section declares (R9, R10, R533 of spec/01_network_image.md). A field not listed may take every value of its
width. A range whose lower end is negative is of a field read as two's complement.
-/

namespace Sys2Proof.Machine

/-- A permitted range: register (base and index dimensions), lowest bit of the field, lowest and highest value. -/
structure Rng where
  base : Nat
  dims : List (Nat × Nat)
  lo : Nat
  min : Int
  max : Int

/-- Ranges of the LAP, SETT, DSP, SLV and FAB tables. -/
def rangesA : List Rng := [
  ⟨Reg.LAP_SRC_CTRL, [], 4, 0, 2⟩,
  ⟨Reg.LAP_SRC_CTRL, [], 16, 1, 255⟩,
  ⟨Reg.LAP_FREE_PERIOD, [], 0, 16666667, 20000000⟩,
  ⟨Reg.LAP_BATON_CTRL, [], 0, 1, 15⟩,
  ⟨Reg.SETT_WS_TIMEOUT, [], 0, 1, 65535⟩,
  ⟨Reg.DSP_STALE, [], 0, 1, 65535⟩,
  ⟨Reg.DSP_GIMPMAX, [], 0, 0, 0x7FFFFFFF⟩,
  ⟨Reg.DSP_GEXPMAX, [], 0, 0, 0x7FFFFFFF⟩,
  ⟨Reg.DSP_WLIMDP, [], 0, 0, 0x7FFFFFFF⟩,
  ⟨Reg.DSP_WLIMT, [], 0, 0, 0x7FFFFFFF⟩,
  ⟨Reg.DSP_BIASDECAY, [], 0, 0, 65535⟩,
  ⟨Reg.DSP_SCENW_s 0, [(4, 8)], 0, 0, 65536⟩,
  ⟨Reg.DSP_UNIT_u_WEAR 0, [(0x20, 64)], 0, 0, 0x7FFFFFFF⟩,
  ⟨Reg.DSP_GRP_g_WCL 0, [(0x20, 64)], 0, 0, 0x7FFFFFFF⟩,
  ⟨Reg.DSP_GRP_g_WCQ 0, [(0x20, 64)], 0, 0, 0x7FFFFFFF⟩,
  ⟨Reg.DSP_GRP_g_WT 0, [(0x20, 64)], 0, 0, 0x7FFFFFFF⟩,
  ⟨Reg.SLV_CTRL, [], 0, 1, 16⟩,
  ⟨Reg.SLV_CTRL, [], 8, 1, 64⟩,
  ⟨Reg.SLV_PIVMIN, [], 0, 1, 0xFFFFFFFF⟩,
  ⟨Reg.SLV_STEPFRAC, [], 0, 58982, 65529⟩,
  ⟨Reg.SLV_PUSH, [], 0, 1, 0xFFFFFFFF⟩,
  ⟨Reg.DSP_RES_TOLP, [], 0, 1, 0xFFFFFFFF⟩,
  ⟨Reg.DSP_RES_TOLD, [], 0, 1, 0xFFFFFFFF⟩,
  ⟨Reg.DSP_RES_TOLMU, [], 0, 1, 0xFFFFFFFF⟩,
  ⟨Reg.DSP_RES_ACCF, [], 0, 1, 65535⟩,
  ⟨Reg.FAB_LCHK, [], 0, 1, 65535⟩,
  ⟨Reg.FAB_DROPLIM, [], 0, 1, 255⟩,
  ⟨Reg.FAB_SCRUB_CTRL, [], 16, 1, 65535⟩]

/-- Ranges of the LOOP, FBP, AIN, AOUT, DIO and MTR tables. -/
def rangesB : List Rng := [
  ⟨Reg.LOOP_n_PERIOD 0, [(0x40, 64)], 0, 2, 204800⟩,
  ⟨Reg.FBP_CYCLE, [], 0, 1, 250⟩,
  ⟨Reg.FBP_WDOG, [], 0, 256, 4032⟩,
  ⟨Reg.AIN_CAL_CTRL, [], 16, 1, 65535⟩,
  ⟨Reg.AIN_CAL_TOL, [], 0, 1, 65535⟩,
  ⟨Reg.AIN_PLAUS_0, [], 0, 1, 0xFFFFFF⟩,
  ⟨Reg.AIN_PLAUS_0, [], 24, 1, 255⟩,
  ⟨Reg.AIN_PLAUS_1, [], 0, 1, 0xFFFFFF⟩,
  ⟨Reg.AIN_PLAUS_1, [], 24, 1, 255⟩,
  ⟨Reg.AIN_n_RATE 0, [(0x40, 32)], 0, 0, 10⟩,
  ⟨Reg.AOUT_DEV, [], 0, 1, 65535⟩,
  ⟨Reg.DIO_DO_RETRY, [], 0, 10, 1000⟩,
  ⟨Reg.DIO_DI_n_CTRL 0, [(0x10, 32)], 0, 0, 10000⟩,
  ⟨Reg.MTR_NVSAVE, [], 0, 1, 65535⟩,
  ⟨Reg.MTR_F_f_p_PHI 0 0, [(0x400, 4), (0x20, 3)], 0, -20000, 20000⟩,
  ⟨Reg.MTR_F_f_p_SPHI_s 0 0 0, [(0x400, 4), (0x40, 3), (0x8, 8)], 0, -20000, 20000⟩]

/-- Ranges of the CAN, ETH, HWP, PAIR, KEY and ZID tables. -/
def rangesC : List Rng := [
  ⟨Reg.CAN_NBT 0, [(0x1000, 4)], 0, 1, 32⟩,
  ⟨Reg.CAN_NBT 0, [(0x1000, 4)], 8, 2, 256⟩,
  ⟨Reg.CAN_NBT 0, [(0x1000, 4)], 17, 2, 127⟩,
  ⟨Reg.CAN_NBT 0, [(0x1000, 4)], 24, 1, 127⟩,
  ⟨Reg.CAN_DBT 0, [(0x1000, 4)], 0, 1, 32⟩,
  ⟨Reg.CAN_DBT 0, [(0x1000, 4)], 8, 1, 32⟩,
  ⟨Reg.CAN_DBT 0, [(0x1000, 4)], 16, 1, 16⟩,
  ⟨Reg.CAN_DBT 0, [(0x1000, 4)], 24, 1, 16⟩,
  ⟨Reg.ETH_PORT_p_CFG 0, [(0x20, 3)], 16, 0, 4094⟩,
  ⟨Reg.ETH_PORT_p_NET 0, [(0x20, 3)], 0, 8, 30⟩,
  ⟨Reg.HWP_CFG, [], 0, 1024, 65535⟩,
  ⟨Reg.KEY_CHAL, [], 0, 1024, 65535⟩,
  ⟨Reg.ZID_FAULT_CFG, [], 0, 10, 2000⟩]

/-- The range that the manual permits for the field at bit `lo` of the register at an address. -/
def permitted (a lo : Nat) : Option (Int × Int) :=
  ((rangesA ++ rangesB ++ rangesC).find? (fun r => r.lo == lo && r.base ≤ a && onArray r.dims (a - r.base))).map
    (fun r => (r.min, r.max))

/-- The bounds that the GRAPH section and R103 set for a register: CAPMAX, PMAX, CAPWH, HPHYS, and the lengths of the
dispatch cycle. -/
def ImgBytes.graphRange (m : ImgBytes) (a : Nat) : Option (Int × Int) :=
  if a = Reg.DSP_CYCLE then some (m.fnom, min (900 * m.fnom) (m.stepMin * 60 * m.fnom))
  else if 0x12000 ≤ a && a < 0x12800 then
    let r := m.unitRec ((a - 0x12000) / 32)
    match (a - 0x12000) % 32 with
    | 0 | 4 => some (0, m.gInt (r + 0x14) 4)
    | 0x18 | 0x1C => some (0, m.gInt (r + 0x10) 4)
    | _ => none
  else if 0x13000 ≤ a && a < 0x13800 then some (0, m.gInt (m.pumpRec ((a - 0x13000) / 8) + 0x08) 4)
  else none

/-- A value of a field of `width` bits as the range's bounds have it. -/
def fieldInt (min : Int) (width v : Nat) : Int := if min < 0 then signedOf width v else (v % 2 ^ width : Nat)

/-- A field's value lies in a range; with no range every value does. -/
def inRange (r : Option (Int × Int)) (width v : Nat) : Bool := match r with
  | none => true
  | some (lo, hi) => lo ≤ fieldInt lo width v && fieldInt lo width v ≤ hi

/-- A filter time that R279 of spec/10 does not permit. -/
def filterBad (a : Nat) (v : Int) : Bool := 0x46100 ≤ a && a < 0x46300 && a % 16 = 0 && 1 ≤ v && v ≤ 19

/-- Every writable field of a word lies in the range that the manual permits for it, R279 of spec/10 included. -/
def inPermitted (a : Nat) (v : Word) : Bool :=
  (fieldsAt a).all (fun f => (f.acc != .rw && f.acc != .rws) || inRange (permitted a f.lo) f.width (f.get v))
    && !filterBad a (bitsOf v 0 14)

/-! ## DEFAULTS (R533) -/

/-- The entry of a DEFAULTS section for a field. -/
def defaultOf (defs : List DefaultEntry) (a lo : Nat) : Option DefaultEntry := defs.find? (fun e => e.addr == a && e.lo == lo)

/-- The lowest and the highest value that DEFAULTS declares for the field at bit 0 of a register, or its reset value
where DEFAULTS declares no range; a field that DEFAULTS does not list resets to 0 (R533). -/
def defaultMin (defs : List DefaultEntry) (a : Nat) : Nat := match defaultOf defs a 0 with
  | some e => (e.range.map (fun r => r.1.toNat)).getD e.reset.toNat
  | none => 0
def defaultMax (defs : List DefaultEntry) (a : Nat) : Nat := match defaultOf defs a 0 with
  | some e => (e.range.map (fun r => r.2.toNat)).getD e.reset.toNat
  | none => 0

/-- The field at bit `lo` of a register. -/
def fieldOf (a lo : Nat) : Option Fld := (fieldsAt a).find? (fun f => f.lo == lo)

/-- R533: an entry gives a reset value outside its range, or reaches outside the values the manual permits. -/
def ImgBytes.defaultBad (m : ImgBytes) (e : DefaultEntry) : Bool := match fieldOf e.addr e.lo with
  | none => false
  | some f =>
    let own := match e.range with
      | some r => [r.1, r.2]
      | none => []
    let r (lo : Int) : Int := fieldInt lo f.width e.reset.toNat
    let outside (p : Option (Int × Int)) : Bool := match p with
      | none => false
      | some (lo, hi) => (r lo :: own).any (fun v => v < lo || hi < v)
    outside e.range || (r 0 :: own).any (filterBad e.addr) || outside (permitted e.addr e.lo)
      || (e.lo == 0 && outside (m.graphRange e.addr))

/-- R103 and R533: the DEFAULTS section of an image breaks a rule of check 14. -/
def ImgBytes.defaultsBad (m : ImgBytes) (defs : List DefaultEntry) : Bool :=
  defs.any m.defaultBad ||
    (match defaultOf defs Reg.DSP_DEADLINE 0 with
      | none => false
      | some _ => defaultMin defs Reg.DSP_DEADLINE == 0 || (match defaultOf defs Reg.DSP_CYCLE 0 with
        | some _ => defaultMax defs Reg.DSP_CYCLE < defaultMax defs Reg.DSP_DEADLINE
        | none => false))

end Sys2Proof.Machine
end

