-- ==== Sys2Proof/Machine/LoopOps.lean ====
section
/-!
DEFINITION. Machine/LoopOps.lean: the closed-loop engine of spec/08_loop_engine.md: numbers with a shared exponent
(R217 to R219), the stages (R220, R221), banks (R222 to R225), sampling (R211 to R216) and output (R226 to R228), with
fault injection (R229).
-/

namespace Sys2Proof.Machine

/-! ## The LOOPS section -/

/-- A loop record (R208, Table 2). -/
structure LoopRec where
  nstage : Nat
  adc : Bool
  error : Bool
  safeOnBad : Bool
  src : Nat
  dst : Nat
  ein : Nat
  adcch : Nat
  types : List Nat
  es : List Nat
  deriving DecidableEq, Repr

/-- NLOOP of an image. -/
def ImgBytes.nloop (m : ImgBytes) : Nat := m.sn secLoops 2 1

/-- Loop record `n` of an image. -/
def ImgBytes.loop (m : ImgBytes) (n : Nat) : LoopRec :=
  let b (o k : Nat) := m.sn secLoops (0x10 + 32 * n + o) k
  ⟨b 0 1, b 1 1 == 1, b 2 1 == 1, b 3 1 == 1, b 4 2, b 6 2, b 8 1, b 9 1,
    (List.range 8).map (fun j => b (0x10 + j) 1), (List.range 8).map (fun j => b (0x18 + j) 1)⟩

/-- NLOOP of the running image, 0 while none runs. -/
def State.nloop (s : State) : Nat := if s.imgRuns then s.runImg.nloop else 0

/-- Class and index of a destination. -/
def LoopRec.dstClass (r : LoopRec) : Nat := r.dst / 4096
def LoopRec.dstIdx (r : LoopRec) : Nat := r.dst % 4096

/-! ## Numbers -/

/-- A term of a sum: `v × 2^(k - 80)`. A mantissa of exponent e stands at k = e + 40, a product of exponents e and f
at k = e + f (R217). -/
structure Term where
  v : Int
  k : Nat
  deriving DecidableEq, Repr

/-- A number of exponent e as a term. -/
def numTerm (m : Int) (e : Nat) : Term := ⟨m, e + 40⟩

/-- A coefficient of exponent ek times a signal of exponent e. -/
def prodTerm (c : Int) (ek : Nat) (m : Int) (e : Nat) : Term := ⟨c * m, ek + e⟩

/-- What the evaluation of one sample carries: values saturated at write-back, an accumulator that saturated, the
injection that waits for the first write-back, and the free values used. -/
structure Calc where
  sat : Nat
  accSat : Bool
  inj : Bool
  free : Nat
  deriving DecidableEq, Repr

/-- Saturation of the 96-bit accumulator (R218). -/
def accLimit (v : Int) : Int × Bool :=
  if v > 2 ^ 95 - 1 then (2 ^ 95 - 1, true) else if v < -(2 ^ 95) then (-(2 ^ 95), true) else (v, false)

/-- The lowest exponent of a list of terms. -/
def lowestExp : List Term → Nat
  | [] => 0
  | [t] => t.k
  | t :: r => min t.k (lowestExp r)

/-- The sum of terms, aligned to their lowest exponent, in the 96-bit accumulator (R218). -/
def accumulate (l : List Term) (c : Calc) : Term × Calc :=
  let k := lowestExp l
  let r := l.foldl (fun (a : Int × Bool) t =>
    let x := accLimit (t.v * 2 ^ (t.k - k))
    let y := accLimit (a.1 + x.1)
    (y.1, a.2 || x.2 || y.2)) ((0 : Int), false)
  (⟨r.1, k⟩, { c with accSat := c.accSat || r.2 })

/-- A value shifted to exponent e, rounded to nearest, ties toward plus infinity (R219). -/
def shiftTo (t : Term) (e : Nat) : Int :=
  if e + 40 ≤ t.k then t.v * 2 ^ (t.k - (e + 40)) else (t.v + 2 ^ (e + 40 - t.k - 1)) / 2 ^ (e + 40 - t.k)

/-- Write a value into a block of exponent e (R219). Under LOOP_INJ.SATCHK the first write-back of the sample has its
saturation test inverted: which bound a value within range then takes, and what a value outside it becomes, the spec
does not state: free. -/
def writeBack (t : Term) (e : Nat) (c : Calc) : Int × Calc :=
  let m := shiftTo t e
  let out := m > 0x7FFFFF || m < -0x800000
  let f := Config.free c.free
  if c.inj then
    if out then (signedOf 24 f.toNat, { c with inj := false, free := c.free + 1 })
    else (if f.getLsbD 0 then 0x7FFFFF else -0x800000, { c with inj := false, free := c.free + 1, sat := c.sat + 1 })
  else if out then (if m < 0 then -0x800000 else 0x7FFFFF, { c with sat := c.sat + 1 })
  else (m, c)

/-- A sum written into a block. -/
def sumTo (l : List Term) (e : Nat) (c : Calc) : Int × Calc :=
  let a := accumulate l c
  writeBack a.1 e a.2

/-- Compare two terms exactly. -/
def Term.lt (a b : Term) : Bool := let k := min a.k b.k; a.v * 2 ^ (a.k - k) < b.v * 2 ^ (b.k - k)

/-- A sum clamped to two bounds and written: the value, whether the clamp raised it, whether it lowered it. -/
def clampTo (l : List Term) (lo hi : Term) (e : Nat) (c : Calc) : (Int × Bool × Bool) × Calc :=
  let a := accumulate l c
  let raised := Term.lt a.1 lo
  let lowered := !raised && Term.lt hi a.1
  let w := writeBack (if raised then lo else if lowered then hi else a.1) e a.2
  ((w.1, raised, lowered), w.2)

/-! ## Stages -/

/-- A coefficient mantissa of a loop, bank, stage and word. -/
def State.coef (s : State) (n b j k : Nat) : Int := s.sfld (Reg.LOOP_n_Bb_Sj_Ck n b j k) 0 24

/-- EK of a stage in a bank. -/
def State.coefExp (s : State) (n b j : Nat) : Nat := s.fld (Reg.LOOP_n_Bb_Sj_Ck n b j 0) 24 6

/-- What a stage gives: its output, its new states, and whether it is low- or high-limited. -/
structure StageOut where
  y : Int
  st : Int × Int × Int
  low : Bool
  high : Bool
  deriving DecidableEq, Repr

/-- The coefficients of a stage: EK and C0 to C5. -/
structure Coefs where
  ek : Nat
  c0 : Int
  c1 : Int
  c2 : Int
  c3 : Int
  c4 : Int
  c5 : Int
  deriving DecidableEq, Repr

/-- The coefficients of stage `j` in bank `b`. -/
def State.coefs (s : State) (n b j : Nat) : Coefs :=
  ⟨s.coefExp n b j, s.coef n b j 0, s.coef n b j 1, s.coef n b j 2, s.coef n b j 3, s.coef n b j 4, s.coef n b j 5⟩

/-- PID (Table 3, R221): states I, D, x of the previous sample. -/
def pidStage (k : Coefs) (x : Int) (ex es : Nat) (st : Int × Int × Int) (wasLow wasHigh : Bool) (c : Calc) :
    StageOut × Calc :=
  let (i0, d0, x0) := st
  let d := sumTo [prodTerm k.c3 k.ek d0 es, prodTerm k.c2 k.ek x ex, prodTerm (-k.c2) k.ek x0 es] es c
  let ki := k.c1 * x
  let y (i : Int) (c : Calc) := clampTo [prodTerm k.c0 k.ek x ex, numTerm i es, numTerm d.1 es]
    (numTerm k.c4 es) (numTerm k.c5 es) es c
  let kept := y i0 d.2
  let i1 := sumTo [numTerm i0 es, prodTerm k.c1 k.ek x ex] es d.2
  let moved := y i1.1 i1.2
  let keep := (ki < 0 && wasLow) || (0 < ki && wasHigh) || (ki < 0 && moved.1.2.1) || (0 < ki && moved.1.2.2)
  let r := if keep then kept else moved
  let x1 := sumTo [numTerm x ex] es r.2
  (⟨r.1.1, (if keep then i0 else i1.1, d.1, x1.1), r.1.2.1, r.1.2.2⟩, x1.2)

/-- BIQUAD: states s1, s2. -/
def biquadStage (k : Coefs) (x : Int) (ex es : Nat) (st : Int × Int × Int) (c : Calc) : StageOut × Calc :=
  let y := sumTo [prodTerm k.c0 k.ek x ex, numTerm st.1 es] es c
  let s1 := sumTo [prodTerm k.c1 k.ek x ex, prodTerm (-k.c3) k.ek y.1 es, numTerm st.2.1 es] es y.2
  let s2 := sumTo [prodTerm k.c2 k.ek x ex, prodTerm (-k.c4) k.ek y.1 es] es s1.2
  (⟨y.1, (s1.1, s2.1, 0), false, false⟩, s2.2)

/-- LEADLAG: states x and y of the previous sample. -/
def leadlagStage (k : Coefs) (x : Int) (ex es : Nat) (st : Int × Int × Int) (c : Calc) : StageOut × Calc :=
  let y := sumTo [prodTerm k.c0 k.ek x ex, prodTerm k.c1 k.ek st.1 es, prodTerm (-k.c2) k.ek st.2.1 es] es c
  let x1 := sumTo [numTerm x ex] es y.2
  (⟨y.1, (x1.1, y.1, 0), false, false⟩, x1.2)

/-- LIMIT. -/
def limitStage (k : Coefs) (x : Int) (ex es : Nat) (c : Calc) : StageOut × Calc :=
  let r := clampTo [numTerm x ex] (numTerm k.c4 es) (numTerm k.c5 es) es c
  (⟨r.1.1, (0, 0, 0), r.1.2.1, r.1.2.2⟩, r.2)

/-- RATE: state y of the previous sample; at a start its own input (R216). -/
def rateStage (k : Coefs) (x : Int) (ex es : Nat) (st : Int × Int × Int) (start : Bool) (c : Calc) : StageOut × Calc :=
  if start then
    let y := sumTo [numTerm x ex] es c
    (⟨y.1, (y.1, 0, 0), false, false⟩, y.2)
  else
    let r := clampTo [numTerm x ex] (numTerm (st.1 - k.c4) es) (numTerm (st.1 + k.c5) es) es c
    (⟨r.1.1, (r.1.1, 0, 0), r.1.2.1, r.1.2.2⟩, r.2)

/-- One stage by its type. -/
def stageOf (kind : Nat) (k : Coefs) (x : Int) (ex es : Nat) (st : Int × Int × Int) (start wasLow wasHigh : Bool)
    (c : Calc) : StageOut × Calc := match kind with
  | 1 => pidStage k x ex es st wasLow wasHigh c
  | 2 => biquadStage k x ex es st c
  | 3 => leadlagStage k x ex es st c
  | 4 => limitStage k x ex es c
  | _ => rateStage k x ex es st start c

/-- What the chain carries from stage to stage: the signal and its exponent, and the stage results in order. -/
structure Chain where
  x : Int
  ex : Nat
  outs : List StageOut
  work : Calc

/-- The chain of a sample, stage by stage (R217, R220). The limit flags of the previous sample that a stage heeds are its
own, those of later stages, and the output's (R221). -/
def State.chain (s : State) (n b : Nat) (r : LoopRec) (run : LoopRun) (x : Int) (c : Calc) : Chain :=
  (List.range r.nstage).foldl (fun a j =>
    let o := stageOf (listGet r.types j) (s.coefs n b j) a.x a.ex (listGet r.es j) (run.stages.getD j (0, 0, 0)) run.start
      ((run.low.drop j).any id) ((run.high.drop j).any id) a.work
    ⟨o.1.y, listGet r.es j, a.outs ++ [o.1], o.2⟩) ⟨x, r.ein, [], c⟩

/-! ## Loops -/

/-- A loop that has not been started. -/
def freshLoop : LoopRun := ⟨true, none, [], [], []⟩

/-- Loop `n` beside its registers. -/
def State.loopRun (s : State) (n : Nat) : LoopRun := assocGet freshLoop s.loops n

/-- Keep loop `n`. -/
def State.putLoop (s : State) (n : Nat) (x : LoopRun) : State := { s with loops := assocPut s.loops n x }

/-- The states of a loop at its start (R216): 0, and INIT as the integral of the first PID stage. -/
def State.startStages (s : State) (n : Nat) (r : LoopRec) : List (Int × Int × Int) :=
  let first := r.types.findIdx (· == 1)
  (List.range r.nstage).map (fun j => if j = first then (s.sfld (Reg.LOOP_n_INIT n) 0 24, 0, 0) else (0, 0, 0))

/-- The loop as it enters a sample: started anew when a start is due. -/
def State.loopEnter (s : State) (n : Nat) (r : LoopRec) : LoopRun :=
  let x := s.loopRun n
  if x.start then ⟨true, x.sampledAt, s.startStages n r, [], []⟩ else x

/-- A loop starts at its next sample (R216). -/
def State.loopRestart (s : State) (n : Nat) : State := s.putLoop n { s.loopRun n with start := true }

/-- LOOP_n_STAT.BANK, the bank in force; SWPEND. -/
def State.loopBank (s : State) (n : Nat) : Nat := s.fld (Reg.LOOP_n_STAT n) 16 1
def State.swPend (s : State) (n : Nat) : Bool := s.bit (Reg.LOOP_n_STAT n) 17

/-- A sticky flag of a loop, with its summary bit in LOOP_STAT and its interrupt where they exist. -/
def State.loopFlag (s : State) (n i : Nat) : State := s.setBit (Reg.LOOP_n_STAT n) i true

/-- LOOP_INJ names a loop. -/
def State.loopInj (s : State) (n i : Nat) : Bool := s.bit Reg.LOOP_INJ i && s.fld Reg.LOOP_INJ 8 6 == n

/-- A bank that waits comes into force at a sample instant (R223, R225). -/
def State.loopSwap (s : State) (n : Nat) : State :=
  if s.swPend n then
    let s1 := (s.setBit (Reg.LOOP_n_STAT n) 16 (s.loopBank n == 0)).setBit (Reg.LOOP_n_STAT n) 17 false
    (s1.loopFlag n 7).irqLoop 4
  else s

/-- The source value of a loop and whether it is valid (R212, R214). -/
def State.loopPv (s : State) (r : LoopRec) : Int × Bool :=
  if r.src < 32768 then ((s.ainVal (r.src % 32)).toInt, s.ainValid (r.src % 32)) else ((s.xv (r.src % 4096)).toInt, true)

/-- The loop's value does not reach its destination (R226). -/
def State.loopBlocked (s : State) (r : LoopRec) : Bool := match r.dstClass with
  | 1 => s.forced 3 r.dstIdx || s.programSafe || !s.gatesOpen || s.field.supplyOff || s.aoMode r.dstIdx == 0
  | 2 => match s.canSigs[r.dstIdx]? with
    | some g => s.txGated g.ch g.idx
    | none => false
  | _ => s.xvOut r.dstIdx

/-- An analog output takes a loop's mantissa (R226, R272): the state, and whether the clamp raised or lowered the loop's
own value. -/
def State.loopToAout (s : State) (k : Nat) (y : Int) : State × Bool × Bool :=
  let c := s.aoScale k y
  let code := s.aoClamp k c
  let up := c < (code : Int)
  let down := (code : Int) < c
  let rev := s.iomapInt (0x228 + 16 * k) 4 < s.iomapInt (0x224 + 16 * k) 4
  (if s.programSafe then s else s.aoDrive k code, if rev then down else up, if rev then up else down)

/-- A CAN signal takes a loop's mantissa (R327). -/
def State.loopToCan (s : State) (k : Nat) (y : Int) : State × Bool × Bool := match s.canSigs[k]? with
  | none => (s, false, false)
  | some g =>
    let raw := loopRaw g y
    ((s.sigInsert g raw).sigReady g.ch g.idx, raw < (sigRange g).1, (sigRange g).2 < raw)

/-- The output of a sample: converted and issued to the destination (R226, R227). Only the program writes an OUT variable
(R233): a loop's value does not reach one. -/
def State.loopIssue (s : State) (r : LoopRec) (y : Int) : State × Bool × Bool :=
  let o := match r.dstClass with
    | 1 => s.loopToAout r.dstIdx y
    | 2 => s.loopToCan r.dstIdx y
    | _ => (if s.xvOut r.dstIdx then s else s.wr (Reg.FBP_XV_k r.dstIdx) (wordOfInt y), false, false)
  if s.loopBlocked r then (o.1, true, true) else o

/-- The delay of an output, in 0.1 µs (R227, R228), LOOP_INJ.LATECHK applied. -/
def State.loopDelay (s : State) (n delay : Nat) : State :=
  let late := (1800 < delay) != s.loopInj n 2
  let s1 := (s.onlyIf (s.loopInj n 2) (fun t => t.injRan Reg.LOOP_INJ 2)).wr (Reg.LOOP_n_DLY_LAST n) (BitVec.ofNat 32 (satNat 16 delay))
  let s2 := s1.onlyIf (s1.nat (Reg.LOOP_n_DLY_MAX n) < satNat 16 delay)
    (fun t => t.wr (Reg.LOOP_n_DLY_MAX n) (BitVec.ofNat 32 (satNat 16 delay)))
  s2.onlyIf late (fun t =>
    ((((t.loopFlag n 4).setBit Reg.LOOP_STAT 2 true).count (Reg.LOOP_n_CNT_LATE n)).count Reg.LOOP_CNT_LATE).irqLoop 1)

/-- The saturations of a sample (R218, R219). -/
def State.loopSats (s : State) (n : Nat) (c : Calc) : State :=
  let s1 := { s with free := c.free }
  let s2 := s1.onlyIf (0 < c.sat) (fun t =>
    ((((t.loopFlag n 0).setBit Reg.LOOP_STAT 0 true).countN (Reg.LOOP_n_CNT_SAT n) c.sat).countN Reg.LOOP_CNT_SAT c.sat).irqLoop 0)
  s2.onlyIf c.accSat (fun t => (t.loopFlag n 1).setBit Reg.LOOP_STAT 1 true)

/-- A sample whose PV is invalid: the states stand; with ONBAD = 1 a field output takes its safe value (R214). -/
def State.loopBad (s : State) (n : Nat) (r : LoopRec) : State :=
  let s1 := ((s.loopFlag n 6).setBit Reg.LOOP_STAT 4 true).irqLoop 3
  s1.onlyIf (r.safeOnBad && r.dstClass == 1) (fun t => (t.aoRelease r.dstIdx).drawReserved)

/-- LOOP is charged 1 core-tick on CORE for each tick in which the sample's stages are evaluated, which is one or two, and
1 FAB block for the output (R210, R213). Whether the evaluation crosses a tick is free. -/
def State.loopCharge (s : State) : State :=
  let f := s.freeBits 1
  (f.2.charge classLoop resCore (1 + f.1)).charge classLoop resFab 1

/-- A sample that is evaluated: stages, output, limit flags, delay. -/
def State.loopEval (s : State) (n : Nat) (r : LoopRec) (pv : Int) (c : Calc) (delay : Nat) : State :=
  let run := s.loopEnter n r
  let x := if r.error then sumTo [numTerm (s.sfld (Reg.LOOP_n_SP n) 0 24) r.ein, numTerm (-pv) r.ein] r.ein c else (pv, c)
  let ch := s.chain n (s.loopBank n) r run x.1 x.2
  let o := (s.loopSats n ch.work).loopIssue r ch.x
  let low := ch.outs.map (·.low) ++ [o.2.1]
  let high := ch.outs.map (·.high) ++ [o.2.2]
  let s1 := o.1.putLoop n ⟨false, run.sampledAt, ch.outs.map (·.st), low, high⟩
  let s2 := (s1.onlyIf (low.any id) (fun t => t.loopFlag n 2)).onlyIf (high.any id) (fun t => t.loopFlag n 3)
  let s3 := (s2.wr (Reg.LOOP_n_OUT n) (BitVec.ofNat 32 (wrapInt 24 ch.x))).count (Reg.LOOP_n_CNT_SAMPLE n)
  (s3.loopCharge.setBit (Reg.LOOP_n_STAT n) 18 true).loopDelay n delay

/-- A sample instant of a loop by tick congruence (R211). -/
def State.loopDue (s : State) (n : Nat) (r : LoopRec) : Bool :=
  let p := s.fld (Reg.LOOP_n_PERIOD n) 0 18
  r.adc || (p != 0 && s.now % p == s.fld (Reg.LOOP_n_OFFSET n) 0 18 % p)

/-- Two loops share their sample instants: those of the ticks, or of one channel's data-ready. -/
def sameInstants (a b : LoopRec) : Bool := a.adc == b.adc && (!a.adc || a.adcch == b.adcch)

/-- Loop `n` may be served at the present tick: samples of equal instants are served in ascending loop order, so neither it
nor a loop above it has been served for this instant (R213). -/
def State.loopTurn (s : State) (n : Nat) (r : LoopRec) : Bool :=
  !s.loops.any (fun e => n ≤ e.1 && e.2.sampledAt == some s.now && sameInstants r (s.runImg.loop e.1))

/-- A sample instant of loop `n` (R211 to R229). `busy`: the previous sample has not been output yet. -/
def State.loopSample (s : State) (n : Nat) (busy : Bool) (delay : Nat) : State :=
  let r := s.runImg.loop n
  if s.nloop ≤ n || !s.boot.control || !s.loopDue n r || !s.loopTurn n r then s
  else
    let s0 := (s.loopSwap n).putLoop n { s.loopRun n with sampledAt := some s.now }
    if !s0.bit (Reg.LOOP_n_CTRL n) 0 then s0
    else if busy then
      (((((s0.loopFlag n 5).setBit Reg.LOOP_STAT 3 true).count (Reg.LOOP_n_CNT_SKIP n)).count Reg.LOOP_CNT_SKIP).irqLoop 2)
    else
      let v := s0.loopPv r
      let pv := sumTo [numTerm v.1 40] r.ein ⟨0, false, s0.loopInj n 0, s0.free⟩
      let valid := v.2 != s0.loopInj n 1
      let s1 := (s0.onlyIf (s0.loopInj n 0) (fun t => t.injRan Reg.LOOP_INJ 0)).onlyIf (s0.loopInj n 1)
        (fun t => t.injRan Reg.LOOP_INJ 1)
      let s2 := s1.wr (Reg.LOOP_n_PV n) (BitVec.ofNat 32 (wrapInt 24 pv.1))
      if valid then s2.loopEval n r pv.1 pv.2 delay else (s2.loopSats n pv.2).loopBad n r

/-! ## Commands -/

/-- A refused write is counted; LOOP_STAT.REFUSED is set for one of a coefficient or a SWAP (`shown`; R222, R224). -/
def State.loopRefused (s : State) (shown : Bool) : State :=
  (s.count Reg.LOOP_CNT_REFUSE).onlyIf shown (fun t => t.setBit Reg.LOOP_STAT 5 true)

/-- Words of a stage that its type uses. -/
def usesWord (kind k : Nat) : Bool := match kind with
  | 1 => k < 6 | 2 => k < 5 | 3 => k < 3 | 4 => k = 4 || k = 5 | 5 => k = 4 || k = 5 | _ => false

/-- The judgement of a coefficient write (R222): RANGE for what the image does not use, LOCKED for the bank in force or
while a swap waits. Word 0 carries EK, so a type that uses a coefficient exponent uses it. -/
def State.coefDeny (s : State) (n b j k : Nat) : Option Status :=
  let r := s.runImg.loop n
  if s.nloop ≤ n || r.nstage ≤ j || !usesWord (listGet r.types j) k then some .range
  else if b = s.loopBank n || s.swPend n then some .locked
  else none

/-- The bank that a SWAP would bring into force is not one that may (R224). -/
def State.bankBad (s : State) (n : Nat) : Bool :=
  let r := s.runImg.loop n
  let b := 1 - s.loopBank n
  (List.range r.nstage).any (fun j =>
    let c := s.coefs n b j
    match listGet r.types j with
    | 1 => c.c5 < c.c4
    | 4 => c.c5 < c.c4
    | 5 => c.c4 < 0 || c.c5 < 0
    | _ => false)

/-- The judgement of LOOP_n_CTRL: a SWAP under R224. -/
def State.loopCtrlDeny (s : State) (n : Nat) (v : Word) : Option Status :=
  if bitOf v 1 && !s.swPend n && s.bankBad n then some .range else none

/-- The effect of LOOP_n_CTRL: RUN, SWAP, RESET (R216, R223). -/
def State.loopCtrl (s : State) (n : Nat) (v : Word) : State :=
  let was := s.bit (Reg.LOOP_n_CTRL n) 0
  let run := bitOf v 0
  let s1 := s.setBit (Reg.LOOP_n_CTRL n) 0 run
  let s2 := s1.onlyIf ((run && !was) || bitOf v 2) (fun t => t.loopRestart n)
  let s3 := s2.onlyIf (run != was) (fun t => t.setBit (Reg.LOOP_n_STAT n) 18 false)
  s3.onlyIf (bitOf v 1) (fun t => t.setBit (Reg.LOOP_n_STAT n) 17 true)

/-- The engine starts every loop at its next sample (R216, H14). -/
def State.loopsStart (s : State) : State :=
  s.forEach (List.range s.nloop) (fun t n => (t.loopRestart n).setBit (Reg.LOOP_n_STAT n) 18 false)

/-- LOOP_RUN and LOOP_FLAG of loops `from` to `from + 31`. -/
def State.loopRunWord (s : State) (o : Nat) : Word :=
  (List.range 32).foldl (fun w i => putBit w i (o + i < s.nloop && s.bit (Reg.LOOP_n_CTRL (o + i)) 0)) 0#32
def State.loopFlagWord (s : State) (o : Nat) : Word :=
  (List.range 32).foldl (fun w i => putBit w i (s.fld (Reg.LOOP_n_STAT (o + i)) 0 8 != 0)) 0#32

end Sys2Proof.Machine
end

