-- ==== Sys2Proof/Machine/ImgCheck.lean ====
section
/-!
DEFINITION. Machine/ImgCheck.lean: the checks of a loaded image, Table 5 of spec/01_network_image.md (R21 to R25, R534),
with the rules that refuse a section with CODE LIMIT: R23, R77, R103, R121, R156, R182, R205, R209, R210, R230, R232,
R254, R318, R339, R533.
-/

namespace Sys2Proof.Machine

/-! ## Helpers -/

/-- Every byte of an image in a span is 0x00. -/
def ImgBytes.zeroSpan (m : ImgBytes) (o n : Nat) : Bool := m.all (fun e => e.1 < o || o + n ≤ e.1 || e.2 == 0#8)

/-- A number lies in a range. -/
def within (lo hi v : Nat) : Bool := lo ≤ v && v ≤ hi

/-- A span (start, end) overlaps another of a list, or that list's own do. -/
def spansClash : List (Nat × Nat) → Bool
  | [] => false
  | (a, b) :: t => t.any (fun e => a < e.2 && e.1 < b && a < b && e.1 < e.2) || spansClash t

/-- A list holds a value twice. -/
def repeats {α : Type} [BEq α] : List α → Bool
  | [] => false
  | a :: t => t.contains a || repeats t

/-- Length of the KKT, SCHED, QFMT or SAFETRAJ section of the main or FALLBACK problem. -/
def ImgBytes.probLen (m : ImgBytes) (fb : Bool) (kind : Nat) : Nat :=
  if fb then ((m.fbEntry kind).map (fun j => m.sn secFallback (0x18 + 16 * j) 4)).getD 0 else m.secLen kind

/-! ## GRAPH (R121) -/

/-- A GRAPH header field lies outside its range in Table 5. -/
def ImgBytes.graphHeaderBad (m : ImgBytes) : Bool :=
  let g (o n : Nat) := m.sn secGraph o n
  m.secLen secGraph < 0x40 || g 0x13 1 != 0 || !m.zeroSpan (m.secOff secGraph + 0x34) 12 || g 0 2 != 1 || !(m.fnom == 50 || m.fnom == 60) || !within 1 8 m.scenMain
    || !within 12 96 m.nstepMain || !within 1 60 m.stepMin || !within 1 64 m.nunit || !within 1 64 m.ngroup
    || 256 < m.npump || !within 1 4096 m.nseg || !within 2 4608 m.nnode || 2048 < m.nsub || 16 < m.lagMax
    || [0x18, 0x1C, 0x20, 0x24, 0x28].any (fun o => g o 4 % 4 != 0)
    || !within 3500 4500 (g 0x2C 4) || !within 900000 1100000 (g 0x30 4)

/-- The spans of the record arrays in the GRAPH section, its header first. -/
def ImgBytes.graphSpans (m : ImgBytes) : List (Nat × Nat) :=
  [(0, 0x40), (m.unitRec 0, m.unitRec m.nunit), (m.pumpRec 0, m.pumpRec m.npump), (m.segRec 0, m.segRec m.nseg),
    (m.nodeRec 0, m.nodeRec m.nnode), (m.subRec 0, m.subRec m.nsub)]

/-- The pairs of nodes that pumps and segments join, the lower node first. -/
def ImgBytes.joins (m : ImgBytes) : List (Nat × Nat) :=
  let pair (r : Nat) : Nat × Nat :=
    let a := m.sn secGraph r 2
    let b := m.sn secGraph (r + 2) 2
    (min a b, max a b)
  (List.range m.npump).map (fun p => pair (m.pumpRec p)) ++ (List.range m.nseg).map (fun e => pair (m.segRec e))

/-- A unit's medium does not match the medium of its node. -/
def ImgBytes.unitBad (m : ImgBytes) (u : Nat) : Bool :=
  let kind := m.sn secGraph (m.unitRec u) 1
  3 < kind || m.nnode ≤ m.unitNode u || (kind % 2 == 1) != (m.sn secGraph (m.nodeRec (m.unitNode u)) 1).testBit 1

/-- A substation names a node or a comfort group that does not exist. -/
def ImgBytes.subBad (m : ImgBytes) (i : Nat) : Bool :=
  m.nnode ≤ m.sn secGraph (m.subRec i) 2 || m.ngroup ≤ m.sn secGraph (m.subRec i + 2) 1

/-- A GRAPH section breaks R121, the last case left to `countsBad`. -/
def ImgBytes.graphBad (m : ImgBytes) : Bool :=
  m.graphHeaderBad || m.graphSpans.any (fun e => e.1 < e.2 && m.secLen secGraph < e.2) || spansClash m.graphSpans
    || m.joins.any (fun p => m.nnode ≤ p.2) || repeats m.joins
    || (List.range m.nunit).any m.unitBad || (List.range m.nsub).any m.subBad
    || (List.range m.nseg).any (fun e => m.lagMax < m.sn secGraph (m.segRec e + 0x0A) 1)

/-- Variables of a step that every scenario has of its own at step 0 (R118). -/
def ImgBytes.ownSlacks (m : ImgBytes) : Nat := 2 * m.nmon + 2 * m.nsub

/-- NP for a problem: the shared variables of step 0, and for each scenario its slacks of step 0 and every later step. -/
def ImgBytes.npOf (m : ImgBytes) (fb : Bool) : Nat :=
  (m.nv1 - m.ownSlacks) + m.scen fb * (m.ownSlacks + (m.nstep fb - 1) * m.nv1)

/-- Items of a step counted in the grouping of R132: those of step 0 that every scenario shares once, the others for each
scenario and step. -/
def groupCount (n scen all own : Nat) : Nat := (all - own) + scen * (own + (n - 1) * all)

/-- NE and the number of general inequality rows that Table 3 gives (R111, R132). -/
def ImgBytes.neOf (m : ImgBytes) (fb : Bool) : Nat := groupCount (m.nstep fb) (m.scen fb) m.eqRows.length 0
def ImgBytes.niOf (m : ImgBytes) (fb : Bool) : Nat :=
  groupCount (m.nstep fb) (m.scen fb) m.inRows.length ((m.inRows.filter Row.own).length)

/-- The last case of R121: NP, NE and N are those of Tables 2 and 3. How the table's rows are counted where its words leave it open
is the model's choice (log entry 60). -/
def ImgBytes.countsBad (m : ImgBytes) (fb : Bool) : Bool :=
  let k (o : Nat) := m.pn fb secKkt o 4
  k 0x08 != m.npOf fb || k 0x0C != m.neOf fb || k 0x04 != m.npOf fb + m.neOf fb + m.niOf fb

/-! ## KKT, SCHED and QFMT (R148 to R156, R23) -/

/-- A DEST lies outside its range (R149). -/
def destBad (flines rootval d : Nat) : Bool :=
  if d.testBit 31 then (d >>> 18) % 8192 != 0 || rootval ≤ d % 2 ^ 18
  else (d >>> 23) % 256 != 0 || flines ≤ d % 2 ^ 19 || 13 < (d >>> 19) % 16

/-- Header fields of the KKT section and its DEST entries. -/
def ImgBytes.kktBad (m : ImgBytes) (fb : Bool) : Bool :=
  let k (o : Nat) := m.pn fb secKkt o 4
  let nnz := k 0x10
  let dests := (List.range nnz).map (fun j => k (0x20 + 4 * j))
  m.probLen fb secKkt < 0x20 || m.pn fb secKkt 2 2 != 0 || m.pn fb secKkt 0x14 12 != 0 || m.pn fb secKkt 0 2 != 1 || !within 2 nnz (k 4) || 1835008 < nnz
    || m.probLen fb secKkt < 0x20 + 4 * nnz
    || dests.any (destBad (m.pn fb secSched 0x14 4) (m.pn fb secSched 0x1C 4)) || repeats dests

/-- Header fields of the SCHED section, and what ties it to the KKT section. -/
def ImgBytes.schedBad (m : ImgBytes) (fb : Bool) : Bool :=
  let h (o n : Nat) := m.pn fb secSched o n
  let len := m.probLen fb secSched
  let rootn := h 0x18 2
  let rootval := h 0x1C 4
  len < 0x80 || h 0x1A 2 != 0 || h 0x50 48 != 0 || h 0 2 != 1 || !within 1 46 (h 2 1) || !within 1 16 (h 3 1)
    || [0x04, 0x08, 0x0C, 0x10].any (fun o => h o 4 != m.pn fb secKkt o 4)
    || 676 < rootn || rootval != rootn * (rootn + 1) / 2 || h 0x20 4 == 0 || h 0x24 4 == 0
    || h 0x28 4 % 16 != 0 || h 0x2C 4 % 16 != 0 || h 0x34 4 % 4 != 0 || 5505024 < h 0x44 4
    || h 2 1 != ceilDiv (h 0x14 4) 8192 || h 3 1 < ceilDiv (ceilDiv rootval 14) 2048
    || 14 * h 0x14 4 + rootval < h 0x44 4
    || len < h 0x28 4 + 16 * h 0x20 4 || len < h 0x2C 4 + 16 * h 0x24 4 || len < h 0x30 4 + 4 * h 0x04 4
    || len < h 0x34 4 + h 0x38 4

/-- CLASS of format `q` of a problem. -/
def ImgBytes.qClass (m : ImgBytes) (fb : Bool) (q : Nat) : Nat := (m.pn fb secQfmt (0x10 + 4 * q) 4 >>> 12) % 16

/-- A format index is below NQ and names a format of a CLASS. -/
def ImgBytes.qIs (m : ImgBytes) (fb : Bool) (q cls : Nat) : Bool := q < m.pn fb secQfmt 2 2 && m.qClass fb q == cls

/-- Three formats from `q` on are those of a panel: CLASS 1, 2, 3 (R152). -/
def ImgBytes.qPanel (m : ImgBytes) (fb : Bool) (q : Nat) : Bool := m.qIs fb q 1 && m.qIs fb (q + 1) 2 && m.qIs fb (q + 2) 3

/-- A task breaks R156: its shape, its operation, its formats, or what it addresses. `fact`: it belongs to the
factorisation program. -/
def ImgBytes.taskBad (m : ImgBytes) (fb fact : Bool) (t : TaskRec) : Bool :=
  let n := m.pn fb secSched 0x04 4
  let fl := m.pn fb secSched 0x14 4
  let rootn := m.pn fb secSched 0x18 2
  let rootLines := ceilDiv (m.pn fb secSched 0x1C 4) 14
  let panel := panelLines t.w t.h
  let shape := if t.op == 1 then t.w == 1 && 1 ≤ t.h else within 1 64 t.w && t.w ≤ t.h && t.h * t.w ≤ 21504
  let nq := m.pn fb secQfmt 2 2
  t.rsv != 0 || (if fact then !within 1 4 t.op else !within 5 7 t.op) || !shape || nq ≤ t.qo || nq ≤ t.qi ||
    (match t.op with
      | 1 => fl + rootLines < t.src + t.h || (if t.root then rootLines else fl) < t.dst + t.h
      | 2 => fl < t.dst + panel || !m.qPanel fb t.qo
      | 3 => fl < t.src + panel || (if t.root then t.dst != 0 else fl ≤ t.dst) || !m.qPanel fb t.qo || !m.qPanel fb t.qi
      | 4 => rootn == 0 || !m.qPanel fb t.qo
      | 6 => rootn == 0 || n < t.dst + rootn || !m.qIs fb t.qo 4
      | _ => fl < t.src + panel || n < t.dst + t.w || !m.qIs fb t.qo 4)

/-- A ROOT or RSOLVE task is not alone in its wave, or the last task has WAVEEND = 0. `first`: a wave begins here. -/
def wavesBad : Bool → List TaskRec → Bool
  | _, [] => false
  | first, t :: r =>
    ((t.op == 4 || t.op == 6) && !(first && t.waveEnd)) || (r.isEmpty && !t.waveEnd) || wavesBad t.waveEnd r

/-- Each task of a program with the map position that it starts from (R155). -/
def withMapPos : Nat → List TaskRec → List (TaskRec × Nat)
  | _, [] => []
  | k, t :: r => (t, k) :: withMapPos (k + t.mapEntries) r

/-- An UPDATE whose map entries name a place beyond the root block or its target panel. -/
def ImgBytes.targetBad (m : ImgBytes) (fb : Bool) (e : TaskRec × Nat) : Bool :=
  let t := e.1
  let h (o n : Nat) := m.pn fb secSched o n
  let out (x : Nat) : Bool :=
    if t.root then h 0x18 2 ≤ x % 65536
    else match (m.program fb true).find? (fun f => f.op == 2 && f.dst == t.dst) with
      | some f => f.h ≤ x % 65536 || (x.testBit 16 && f.w ≤ (x >>> 17) % 64)
      | none => false
  t.op == 3 && (List.range t.mapEntries).any (fun i => out (h (h 0x34 4 + 4 * (e.2 + i)) 4))

/-- A program of the SCHED section breaks R156. -/
def ImgBytes.programBad (m : ImgBytes) (fb fact : Bool) : Bool :=
  let h (o : Nat) := m.pn fb secSched o 4
  let ts := m.program fb fact
  ts.any (m.taskBad fb fact) || wavesBad true ts || (withMapPos 0 ts).any (m.targetBad fb) || h 0x38 < 4 * (ts.map TaskRec.mapEntries).foldl (· + ·) 0

/-- The QFMT section breaks R156. -/
def ImgBytes.qfmtBad (m : ImgBytes) (fb : Bool) : Bool :=
  let q (o n : Nat) := m.pn fb secQfmt o n
  let nq := q 2 2
  let nseg := q 4 4
  let sofs := q 8 4
  let len := m.probLen fb secQfmt
  let entryBad (i : Nat) : Bool :=
    let e := q (0x10 + 4 * i) 4
    35 < e % 64 || (e >>> 6) % 4 != 0 || !within 1 4 ((e >>> 12) % 16) || 2 ^ 16 ≤ e
  let firsts := (List.range nseg).map (fun v => q (sofs + 12 * v) 4)
  len < 0x10 || q 0x0C 4 != 0 || q 0 2 != 1 || !within 1 4096 nq || !within 1 65536 nseg || sofs % 4 != 0
    || len < 0x10 + 4 * nq || len < sofs + 12 * nseg || (List.range nq).any entryBad
    || firsts.head? != some 0 || (firsts.zip (firsts.drop 1)).any (fun e => e.2 ≤ e.1)
    || firsts.any (fun x => m.pn fb secKkt 4 4 ≤ x)
    || (List.range nseg).any (fun v => [4, 6, 8, 10].any (fun o => !m.qIs fb (q (sofs + 12 * v + o) 2) 4))

/-- The solver sections of a problem break R156. -/
def ImgBytes.solverBad (m : ImgBytes) (fb : Bool) : Bool :=
  m.kktBad fb || m.schedBad fb || m.qfmtBad fb || m.programBad fb true || m.programBad fb false

/-! ## SETTMAP (R77), SAFETRAJ (R182), FALLBACK (R205) -/

/-- Length of an internal stream for the main problem (R177, Table 6 of spec/13, R247). -/
def ImgBytes.streamLen (m : ImgBytes) (k : Nat) : Nat :=
  if k = 0 then 64 else if k = 1 then 2 * m.sb
  else if k < 10 then (if k - 2 < m.scenMain then 4 * m.nv1 * m.nstepMain else 0)
  else if k = 16 then m.sn secFbprog 0x04 4 else if k = 17 then 32 * m.nsub else 0

/-- A segment of the SETTMAP section breaks R77. -/
def ImgBytes.segmentBad (m : ImgBytes) (k : Nat) : Bool :=
  let f (o : Nat) := m.sn secSettmap (0x10 + 16 * k + o) 4
  let src := f 0
  let dst := f 4
  let len := f 8
  dst % 4 != 0 || dst < 0x40 || len % 4 != 0 || len < 4 || m.sn secSettmap 4 4 < dst + len ||
    (if 0x80000000 ≤ src then m.streamLen (src - 0x80000000) < len
     else match blockOf src with
      | none => true
      | some b => blockOf (src + len - 1) != some b || (b == .can && src / 0x1000 != (src + len - 1) / 0x1000) || (src < 0x68180 && 0x68100 < src + len))

/-- The SETTMAP section breaks R77. -/
def ImgBytes.settmapBad (m : ImgBytes) : Bool :=
  let n := m.sn secSettmap 2 2
  let size := m.sn secSettmap 4 4
  let spans := (List.range n).map (fun k =>
    (m.sn secSettmap (0x14 + 16 * k) 4, m.sn secSettmap (0x14 + 16 * k) 4 + m.sn secSettmap (0x18 + 16 * k) 4))
  m.sn secSettmap 0 2 != 1 || size % 64 != 0 || !within 128 16777216 size || !within 1 4096 n
    || m.secLen secSettmap < 0x10 + 16 * n || (List.range n).any m.segmentBad || spansClash spans

/-- A SAFETRAJ section breaks R182. -/
def ImgBytes.safetrajBad (m : ImgBytes) (fb : Bool) : Bool :=
  let f (o n : Nat) := m.pn fb secSafetraj o n
  let i32 (o : Nat) : Int := signedOf 32 (f o 4)
  let n := m.nstep fb
  let profs := f 8 4
  let ofs := f 0x0C 4
  let recAt (r : Nat) : Nat := ofs + r * (4 + 4 * n)
  let slack (j : Nat) : Bool := (m.vars[j]?.map Var.isSlack).getD false
  f 0 2 != 1 || f 0x10 16 != 0 || f 2 2 != n || f 4 4 != m.nv1 || 4096 < profs || ofs % 4 != 0 || ofs < 0x20 + 4 * m.nv1
    || m.probLen fb secSafetraj < recAt profs || repeats ((List.range profs).map (fun r => f (recAt r) 4))
    || (List.range profs).any (fun r => m.nv1 ≤ f (recAt r) 4)
    || (List.range m.nv1).any (fun j => slack j && i32 (0x20 + 4 * j) < 0)
    || (List.range profs).any (fun r => slack (f (recAt r) 4)
        && (List.range n).any (fun k => i32 (recAt r + 4 + 4 * k) < 0))

/-- Sub-section `j` of the FALLBACK section lies in the section. -/
def ImgBytes.fbInside (m : ImgBytes) (j : Nat) : Bool :=
  let o := m.sn secFallback (0x14 + 16 * j) 4
  let n := m.sn secFallback (0x18 + 16 * j) 4
  0x50 ≤ o && 1 ≤ n && o + n ≤ m.secLen secFallback

/-- A sub-section of the FALLBACK section that lies in it has another CRC (R205). -/
def ImgBytes.fbCrcBad (m : ImgBytes) : Bool := (List.range 4).any (fun j => m.fbInside j &&
  (crc32c (m.slice (m.secOff secFallback + m.sn secFallback (0x14 + 16 * j) 4) (m.sn secFallback (0x18 + 16 * j) 4))).toNat
    != m.sn secFallback (0x1C + 16 * j) 4)

/-- The FALLBACK section breaks R205, or a sub-section breaks the rules of its own TYPE. -/
def ImgBytes.fallbackBad (m : ImgBytes) : Bool :=
  let f (o n : Nat) := m.sn secFallback o n
  let spans := (List.range 4).map (fun j => (f (0x14 + 16 * j) 4, f (0x14 + 16 * j) 4 + f (0x18 + 16 * j) 4))
  (m.find secFallback).isSome &&
    (m.secLen secFallback < 0x50 || f 3 1 != 0 || f 8 8 != 0 || (List.range 4).any (fun j => f (0x12 + 16 * j) 2 != 0) || f 0 2 != 1 || !within 1 m.scenMain (f 2 1) || !within 12 m.nstepMain (f 4 2)
      || f 6 2 != 4 || [secKkt, secSched, secQfmt, secSafetraj].any (fun k => (m.fbEntry k).isNone)
      || !(List.range 4).all m.fbInside || spansClash spans
      || m.solverBad true || m.countsBad true || m.safetrajBad true)

/-! ## LOOPS (R209, R210), FBPROG and FBDATA (R230, R232), IOMAP (R254) -/

/-- Budget entry of the BUDGET section: class `c`, resource `r`. -/
def ImgBytes.budgetOf (m : ImgBytes) (c r : Nat) : Nat := m.sn secBudget (0x10 + 8 * c + 2 * r) 2

/-- ⌈0.025 s × rate⌉ of a data rate code (Table 2 of spec/10). -/
def rateDemand (code : Nat) : Nat := listGet [1, 1, 1, 1, 1, 2, 2, 3, 7, 13, 25] code

/-- N_l of R210. -/
def ImgBytes.loopDemand (m : ImgBytes) (defs : List DefaultEntry) (n : Nat) : Nat :=
  let r := m.loop n
  if r.adc then rateDemand (defaultMax defs (Reg.AIN_n_RATE r.adcch))
  else ceilDiv 4096 (max 1 (defaultMin defs (Reg.LOOP_n_PERIOD n)))

/-- Σ N_l of R210. -/
def ImgBytes.demand (m : ImgBytes) (defs : List DefaultEntry) : Nat :=
  (List.range m.nloop).foldl (fun a n => a + m.loopDemand defs n) 0

/-- A field of a loop record lies outside its range (Table 2 of spec/08). -/
def ImgBytes.loopBad (m : ImgBytes) (n : Nat) : Bool :=
  let b (o : Nat) := m.sn secLoops (0x10 + 32 * n + o) 1
  let r := m.loop n
  !m.zeroSpan (m.secOff secLoops + 0x1A + 32 * n) 6 || !within 1 8 r.nstage || 1 < b 1 || 1 < b 2 || 1 < b 3
    || (if r.src.testBit 15 then 4096 ≤ r.src % 2 ^ 15 else 32 ≤ r.src) || !within 1 3 r.dstClass || 63 < r.ein
    || 31 < r.adcch || (List.range 8).any (fun j => 63 < listGet r.es j ||
        (if j < r.nstage then !within 1 5 (listGet r.types j) else listGet r.types j != 0 || listGet r.es j != 0))
    || (r.dstClass == 1 && (15 < r.dstIdx || m.sn secIomap (0x221 + 16 * r.dstIdx) 1 != 2))
    || (r.adc && m.sn secIomap (0x20 + 16 * r.adcch) 1 == 0)

/-- The LOOPS section breaks R209. -/
def ImgBytes.loopsBad (m : ImgBytes) (defs : List DefaultEntry) : Bool :=
  m.sn secLoops 0 2 != 1 || !m.zeroSpan (m.secOff secLoops + 3) 13 || 64 < m.nloop || m.secLen secLoops < 0x10 + 32 * m.nloop
    || (List.range m.nloop).any m.loopBad || repeats ((List.range m.nloop).map (fun n => (m.loop n).dst))
    || 4 * m.budgetOf 1 0 < 2 * m.demand defs || 2048 * m.budgetOf 1 1 < m.demand defs

/-- The runs of FBDATA reach past the section or past DATASIZE, or have a LEN that is no multiple of 4. -/
def ImgBytes.runsBad (m : ImgBytes) : Nat → Nat → Bool
  | 0, o => m.secLen secFbdata < o
  | n + 1, o =>
    let len := m.sn secFbdata (o + 4) 4
    m.secLen secFbdata < o + 8 + len || len % 4 != 0 || m.sn secFbdata 4 4 < m.sn secFbdata o 4 + len
      || ImgBytes.runsBad m n (o + 8 + len)

/-- The FBPROG and FBDATA sections break R230 or R232. -/
def ImgBytes.fbpBad (m : ImgBytes) (defs : List DefaultEntry) : Bool :=
  let p (o n : Nat) := m.sn secFbprog o n
  let len := m.secLen secFbprog
  let data (i : Nat) : Nat × Nat := (p (0x24 + 8 * i) 4 % 2 ^ 20, p (0x24 + 8 * i) 4 % 2 ^ 20 + 4 * (p (0x24 + 8 * i) 4 / 2 ^ 20))
  1024 < m.budgetOf 0 0 || p 0x1C 4 != 0 || m.sn secFbdata 2 2 != 0 || m.sn secFbdata 0x0C 4 != 0 || p 0 2 != 1 || !within 1 4096 (p 2 2) || p 4 4 % 4 != 0 || !within 4 1048576 (p 4 4)
    || p 8 4 % 4 != 0 || 65536 < p 8 4 || p 0x0C 4 == 0 || p 0x10 4 % 16 != 0 || p 0x14 4 < 16
    || len < 0x20 + 8 * p 2 2 || (List.range (p 2 2)).any (fun i => p 0x14 4 ≤ p (0x20 + 8 * i) 4)
    || m.sn secFbdata 0 2 != 1 || m.sn secFbdata 4 4 != p 4 4 || 65535 < m.sn secFbdata 8 4
    || len < p 0x10 4 + p 0x14 4 || len < p 0x18 4 + 512 || m.runsBad (min 65535 (m.sn secFbdata 8 4)) 0x10
    || spansClash ((List.range (p 2 2)).map data)
    || 4 * m.budgetOf 0 0 * max 1 (defaultMin defs Reg.FBP_CYCLE) < p 0x0C 4

/-- The exchange variable is OUT in an image. -/
def ImgBytes.outVar (m : ImgBytes) (k : Nat) : Bool :=
  (m.sn secFbprog (m.sn secFbprog 0x18 4 + k / 8) 1).testBit (k % 8)

/-- An analog input of the IOMAP section lies outside its range, or maps an interval to one value. -/
def ImgBytes.ainBad (m : ImgBytes) (n : Nat) : Bool :=
  let f (o k : Nat) := m.sn secIomap (0x20 + 16 * n + o) k
  let ty := f 0 1
  4 < ty || (if ty == 1 || ty == 2 then !within 2 4 (f 1 1) || f 4 4 != 0 || f 8 4 != 0 else f 1 1 != 0)
    || ((ty == 3 || ty == 4) && f 4 4 == f 8 4) || f 2 2 != 0 || f 0x0C 4 != 0

/-- An analog output of the IOMAP section breaks R254. -/
def ImgBytes.aoutBad (m : ImgBytes) (n : Nat) : Bool :=
  let f (o k : Nat) := m.sn secIomap (0x220 + 16 * n + o) k
  2 < f 0 1 || 3 < f 1 1 || ((f 1 1 == 1 || f 1 1 == 2) && f 4 4 == f 8 4) || (f 0 1 != 0 && f 0x0E 2 ≤ f 0x0C 2)
    || (f 1 1 == 2 && !(List.range m.nloop).any (fun l => (m.loop l).dst == 0x1000 + n))

/-- The IOMAP section breaks R253 or R254. -/
def ImgBytes.iomapBad (m : ImgBytes) : Bool :=
  let f (o k : Nat) := m.sn secIomap o k
  let twin := f 0x10 1
  let bankBad (b : Nat) : Bool :=
    2 < f (4 + b) 1 || (if f (4 + b) 1 == 1 then !within 2000 2600 (f (8 + 2 * b) 2) else f (8 + 2 * b) 2 != 0)
  let doBad (n : Nat) : Bool :=
    !(f (0x320 + 4 * n) 1 == 0 || f (0x320 + 4 * n) 1 == 1 || f (0x320 + 4 * n) 1 == 3) || 1 < f (0x321 + 4 * n) 1
      || 1 < f (0x322 + 4 * n) 1 || f (0x323 + 4 * n) 1 != 0
  let diBad (n : Nat) : Bool := 3 < f (0x360 + 4 * n) 1 || 2 < f (0x361 + 4 * n) 1 || f (0x362 + 4 * n) 2 != 0
  let measBad (u : Nat) : Bool := let x := f (0x3E0 + 2 * u) 2; x != 0xFFFF && (4096 ≤ x || !m.outVar x)
  !within 1122 8192 (m.secLen secIomap) || !m.zeroSpan (m.secOff secIomap + 0x462) (m.secLen secIomap - 0x462)
    || f 0 2 != 1 || f 2 2 != 0 || !m.zeroSpan (m.secOff secIomap + 0x11) 15 || (List.range 4).any bankBad || 3 < twin || (twin.testBit 0 && f 0x110 1 != 0)
    || (twin.testBit 1 && f 0x210 1 != 0) || (List.range 32).any m.ainBad || (List.range 16).any m.aoutBad
    || (List.range 16).any doBad || (List.range 32).any diBad || (List.range 65).any measBad

/-! ## CANF (R318), TELE (R339) -/

/-- TXFMT and TXID of buffer `b` of channel `c`. -/
def ImgBytes.txId (m : ImgBytes) (c b : Nat) : Nat := m.canf (0x10 + 0x360 * c + 0x240 + 8 * b) 4
def ImgBytes.txFmt (m : ImgBytes) (c b : Nat) : Nat := m.canf (0x10 + 0x360 * c + 0x244 + 8 * b) 4

/-- A buffer's words lie outside their coding; those of a LOOP or FBP buffer break R324. -/
def ImgBytes.txBufBad (m : ImgBytes) (c b : Nat) : Bool :=
  let id := m.txId c b
  let fmt := m.txFmt c b
  let owner := (fmt >>> 8) % 4
  let fd := fmt.testBit 4
  owner == 3 || (owner != 0 && ((fd && id.testBit 30) || (!fd && fmt.testBit 5)
    || (!id.testBit 29 && (id >>> 11) % 2 ^ 18 != 0)))

/-- A channel block of the CANF section lies outside its ranges. -/
def ImgBytes.canChanBad (m : ImgBytes) (c : Nat) : Bool :=
  let b := 0x10 + 0x360 * c
  (List.range 64).any (fun k => m.canf (b + 8 * k) 4 ≥ 2 ^ 31 || m.canf (b + 8 * k + 4) 4 ≥ 2 ^ 31 || 6 < m.canf (b + 0x200 + k) 1)
    || (List.range 32).any (m.txBufBad c) || 1 < m.canf (b + 0x340) 1 || 1 < m.canf (b + 0x341) 1

/-- A signal record breaks R318 by itself. -/
def ImgBytes.sigBad (m : ImgBytes) (k : Nat) : Bool :=
  let g := m.canSig k
  let fmt := m.txFmt g.ch g.idx
  3 < g.ch || m.canf (0x0D99 + 16 * k) 7 != 0 || 7 < m.canf (0x0D91 + 16 * k) 1 || (g.loop && !g.tx) || (if g.tx then 31 < g.idx else 63 < g.idx)
    || !within 1 32 g.len || 511 < g.start || (if g.loop then g.xv != 0xFFFF else 4095 < g.xv)
    || (if g.loop then 23 < g.shift else g.shift != 0) || 512 < g.start + g.len
    || (g.tx && 8 * dlcLen (fmt.testBit 4) (fmt % 16) < g.start + g.len)
    || (!g.tx && !within 4 6 (m.canf (0x10 + 0x360 * g.ch + 0x200 + g.idx) 1))
    || (g.tx && (fmt >>> 8) % 4 != (if g.loop then 1 else 2))
    || (!g.tx && m.outVar g.xv) || (g.tx && !g.loop && !m.outVar g.xv)

/-- The CANF section breaks R318. -/
def ImgBytes.canfBad (m : ImgBytes) : Bool :=
  let n := m.canf 2 2
  let sigs := (List.range m.nsig).map m.canSig
  let bufs := (List.range 4).flatMap (fun c => (List.range 32).map (fun b =>
    (sigs.filter (fun g => g.tx && g.ch == c && g.idx == b)).map (fun g => (g.start, g.start + g.len))))
  let loopSig (l : Nat) : Bool :=
    let r := m.loop l
    r.dstClass == 2 && (n ≤ r.dstIdx || !((m.canSig r.dstIdx).tx && (m.canSig r.dstIdx).loop))
  m.canf 0 2 != 1 || m.canf 4 12 != 0 || 512 < n || m.secLen secCanf < 0x0D90 + 16 * n || (List.range 4).any m.canChanBad
    || (List.range m.nsig).any m.sigBad || bufs.any spansClash
    || repeats ((sigs.filter (fun g => !g.tx)).map (fun g => g.xv)) || (List.range m.nloop).any loopSig

/-- The TELE section breaks R339. `hwpPort` is the UDP port of the host window protocol. -/
def ImgBytes.teleBad (m : ImgBytes) (hwpPort : Nat) : Bool :=
  let f (o n : Nat) := m.sn secTele o n
  let nsub := f 2 2
  let on (p : Nat) : List Nat := ((List.range nsub).filter (fun i => (f (0x14 + 8 * i) 1).testBit p)).map (fun i => f (0x10 + 8 * i) 4)
  f 0 2 != 1 || f 0x0A 6 != 0 || (List.range nsub).any (fun i => f (0x16 + 8 * i) 2 != 0) || nsub != m.nsub || !within 1024 65535 (f 4 2) || !within 1 250 (f 6 2) || f 8 2 == 0
    || m.secLen secTele < 0x10 + 8 * nsub
    || (List.range nsub).any (fun i => !within 1 3 (f (0x14 + 8 * i) 1) || 31 < f (0x15 + 8 * i) 1)
    || repeats (on 0) || repeats (on 1) || f 4 2 == hwpPort || f 4 2 == 319 || f 4 2 == 320
    || 2048 * m.budgetOf 5 1 < 2 * ceilDiv nsub (f 6 2) + 2 * 1024

/-! ## Check 15 -/

/-- The BUDGET section is not laid out as R53 and R54 ask. -/
def ImgBytes.budgetShapeBad (m : ImgBytes) : Bool :=
  let f (o n : Nat) := m.sn secBudget o n
  m.secLen secBudget != 128 || f 0 2 != 1 || f 2 1 != 12 || f 3 1 != 4 || !within 1 15 (f 4 1)
    || (List.range 12).any (fun c => 3 < f (0x70 + c) 1)

/-- A resource's budgets sum to more than 4,096 ticks. -/
def ImgBytes.budgetOver (m : ImgBytes) : Bool :=
  (List.range 4).any (fun r => 4096 < (List.range 12).foldl (fun a c => a + m.budgetOf c r) 0)

/-! ## The checks in their order (R21) -/

/-- R24, check 16: a problem's lanes and banks suffice for the present map. -/
def ImgBytes.fitsMap (m : ImgBytes) (fb : Bool) (lanes banks : Nat) : Bool :=
  (!fb || (m.find secFallback).isSome) && m.pn fb secSched 3 1 ≤ lanes && m.pn fb secSched 2 1 + 2 ≤ banks

/-- A section type of Table 4. -/
def isMandatory (k : Nat) : Bool := within 1 14 k

/-- The first directory entry that breaks a test, by index. -/
def ImgBytes.firstBad (m : ImgBytes) (f : Nat → Bool) : Option Nat := (List.range (min 16 m.sectCount)).find? f

/-- DIR: some of its index, by R534; none when the directory is in order. -/
def ImgBytes.dirBad (m : ImgBytes) : Option Nat :=
  let types := m.sects.map (·.kind)
  if !within 14 16 m.sectCount || m.totalLen < 0x40 + 16 * m.sectCount then some 0
  else match m.firstBad (fun i => (m.sect i).rsv != 0 || !within 1 16 (m.sect i).kind
      || (types.take i).contains (m.sect i).kind) with
    | some i => some i
    | none => if (List.range 14).all (fun k => types.contains (k + 1)) then none else some 0

/-- SECT_BOUND (R22: no wrap). -/
def ImgBytes.boundBad (m : ImgBytes) : Option Nat := m.firstBad (fun i =>
  let e := m.sect i
  e.len == 0 || m.totalLen - 128 < e.off + e.len || e.off < 0x40 + 16 * m.sectCount || e.off % 64 != 0)

/-- Put an entry among those taken in ascending OFFSET, equal ones in ascending index. -/
def placeSect (x : Nat × Sect) : List (Nat × Sect) → List (Nat × Sect)
  | [] => [x]
  | y :: t => if x.2.off < y.2.off then x :: y :: t else y :: placeSect x t

/-- The entries with their index in ascending OFFSET. -/
def ImgBytes.ordered (m : ImgBytes) : List (Nat × Sect) :=
  (m.sects.zipIdx.map (fun e => (e.2, e.1))).foldl (fun l x => placeSect x l) []

/-- The first entry that starts before the end of one taken before it. -/
def overlapIn : Nat → List (Nat × Sect) → Option Nat
  | _, [] => none
  | e, (i, x) :: t => if x.off < e then some i else overlapIn (max e (x.off + x.len)) t

/-- SECT_OVERLAP: of two sections, or of a nonzero byte in no section, the lowest such byte (R534). -/
def ImgBytes.overlapBad (m : ImgBytes) : Option Nat :=
  let l := m.ordered
  let dirEnd := 0x40 + 16 * m.sectCount
  match overlapIn 0 l with
  | some i => some i
  | none =>
    match m.find? (fun e => dirEnd ≤ e.1 && e.1 < m.totalLen - 128 && e.2 != 0#8
        && !l.any (fun x => x.2.off ≤ e.1 && e.1 < x.2.off + x.2.len)) with
    | none => none
    | some e => match l.find? (fun x => e.1 < x.2.off) with
      | some x => some x.1
      | none => (l.getLast?).map (·.1)

/-- SECT_CRC; `inv` is IMG_INJ.SECT_CRC. -/
def ImgBytes.crcBad (m : ImgBytes) (inv : Bool) : Option Nat := m.firstBad (fun i =>
  let e := m.sect i
  let c := crc32c (m.slice e.off e.len)
  ((if inv && i == 0 then ~~~ c else c).toNat != e.crc) || (e.kind == secFallback && m.fbCrcBad))

/-- Check 14 (R23 and the rules of the sections' chapters). -/
def ImgBytes.limitBad (m : ImgBytes) (defs : List DefaultEntry) (hwpPort : Nat) : Bool :=
  m.graphBad || m.solverBad false || m.countsBad false || m.settmapBad || m.safetrajBad false || m.loopsBad defs
    || m.fbpBad defs || m.iomapBad || m.canfBad || m.teleBad hwpPort || m.fallbackBad || m.defaultsBad defs

/-- The DEFAULTS entries of an image. -/
def ImgBytes.defaultsOf (m : ImgBytes) : List DefaultEntry := Config.defaults (m.slice (m.secOff secDefaults) (m.secLen secDefaults))

/-- Trailer offset of an image. -/
def ImgBytes.trailer (m : ImgBytes) : Nat := m.totalLen - 128

/-- Check 1. DESIGN CHOICE: the trailer is found by the header's TOTAL_LEN, so that a wrong TOTAL_LEN can answer MAGIC before
check 3 answers LENGTH; the spec does not say which length locates it (log entry 71). -/
def ImgBytes.magicBad (m : ImgBytes) : Bool :=
  m.num 0 4 != 0x4D495A4E || m.num m.trailer 4 != 0x47535A4E || !m.zeroSpan (m.trailer + 5) 3 || !m.zeroSpan (m.trailer + 72) 56

/-- Check 6: the signature verifies under the key's material; `inv` is IMG_INJ.SIG. -/
def ImgBytes.sigGood (m : ImgBytes) (key : List Byte) (inv : Bool) : Bool :=
  let r := beNat (m.slice (m.trailer + 8) 32)
  let sv := beNat (m.slice (m.trailer + 40) 32)
  ecdsaVerify (beNat (key.take 32), beNat (key.drop 32)) (sha256 m.signed) r (sv ^^^ inv.toNat)

/-- Check 7. -/
def State.deviceBad (s : State) (m : ImgBytes) : Bool :=
  let rev := s.nat Reg.ZID_REV
  let want := m.num 0x14 4
  m.num 0x10 4 != s.nat Reg.ZID_DEV || want / 2 ^ 24 != rev / 2 ^ 24 || rev / 256 % 65536 < want / 256 % 65536

/-- The checks of Table 5 on an image; `load` is the declared length of a load, and none at hurdle H9, which leaves
check 3 out (Table 1 of spec/22_start_up_hurdles.md). The answer is CODE and FAILSECT. -/
def State.checkImage (s : State) (m : ImgBytes) (load : Option Nat) : Nat × Nat :=
  let inj (i : Nat) : Bool := load.isSome && s.bit Reg.IMG_INJ i
  let key := s.engineKey engImg (m.num (m.trailer + 4) 1)
  let lenBad := match load with
    | none => false
    | some n => m.totalLen != n || !within 1024 25165824 m.totalLen || m.totalLen % 64 != 0
  let hcrc := crc32c (m.slice 0 0x3C)
  if m.magicBad then (0x10, 0)
  else if m.num 4 2 != 1 || m.num 6 2 != 64 || m.num 0x0E 2 != 0 then (0x11, 0)
  else if lenBad then (0x12, 0)
  else if (if inj 0 then ~~~ hcrc else hcrc).toNat != m.num 0x3C 4 then (0x13, 0)
  else if key.isNone then (0x14, 0)
  else if !m.sigGood (key.getD []) (inj 2) then (0x15, 0)
  else if s.deviceBad m then (0x16, 0)
  else if m.serial.toNat < (s.tallyV 1).toNat then (0x17, 0)
  else match m.dirBad with
    | some i => (0x18, i)
    | none => match m.boundBad with
      | some i => (0x19, i)
      | none => match m.overlapBad with
        | some i => (0x1A, i)
        | none => match m.crcBad (inj 1) with
          | some i => (0x1B, i)
          | none =>
            if m.structHash != m.slice 0x1C 32 then (0x1C, 0)
            else if m.limitBad m.defaultsOf (s.fld Reg.HWP_CFG 0 16) then (0x1D, 0)
            else if m.budgetShapeBad || (m.budgetOver != s.bit Reg.LAP_INJ 2) then (0x1E, 0)
            else if !m.fitsMap false (s.fld Reg.SLV_MAPCNT 0 5) (s.fld Reg.SLV_MAPCNT 8 6)
                && !m.fitsMap true (s.fld Reg.SLV_MAPCNT 0 5) (s.fld Reg.SLV_MAPCNT 8 6) then (0x1F, 0)
            else (0x01, 0)

/-- The injection bits whose test ran in a check that ended with a CODE (R41, R482): those of checks 4, 12 and 6, and
LAP_INJ.SUMCHK of check 15. -/
def State.checkInjRan (s : State) (code : Nat) (isLoad : Bool) : State :=
  let past (k : Nat) : Bool := code = 1 || k ≤ code
  let s1 := s.onlyIf (isLoad && past 0x13) (fun t => t.injRan Reg.IMG_INJ 0)
  let s2 := s1.onlyIf (isLoad && past 0x15) (fun t => t.injRan Reg.IMG_INJ 2)
  let s3 := s2.onlyIf (isLoad && past 0x1B) (fun t => t.injRan Reg.IMG_INJ 1)
  s3.onlyIf (past 0x1E) (fun t => t.injRan Reg.LAP_INJ 2)

/-- The check of the open load ends (R21 to R25): STATE is CHECKED, CODE, FAILSECT and FBONLY are reported; a refusal is
counted. -/
def State.checkComplete (s : State) : State :=
  if s.loadState ≠ 2 then s
  else
    let m : ImgBytes := s.img.staging
    let r := s.checkImage m (some (s.fld Reg.IMG_LOAD_LEN 0 25))
    let fbOnly := r.1 = 1 && !m.fitsMap false (s.fld Reg.SLV_MAPCNT 0 5) (s.fld Reg.SLV_MAPCNT 8 6)
    let s1 := s.checkInjRan r.1 true
    let s2 := ((s1.setFld Reg.IMG_LOAD_STAT 0 8 r.1).setFld Reg.IMG_LOAD_STAT 8 3 3).setFld Reg.IMG_LOAD_STAT 16 5 r.2
    let s3 := s2.setBit Reg.IMG_LOAD_STAT 13 fbOnly
    let s4 := s3.onlyIf (r.1 ≠ 1) State.imgRefused
    let s5 := s4.onlyIf (r.1 = 0x14 || r.1 = 0x15) (fun t => t.setBit Reg.IMG_STAT 1 true)
    s5.irqImg 0

end Sys2Proof.Machine
end

