-- ==== Sys2Proof/Machine/MtrOps.lean ====
section
/-!
DEFINITION. Machine/MtrOps.lean: the operations of spec/11_plant_metering.md: lap quantities (R290 to R293), energy
registers (R297 to R303), thermal channels (R304 to R306), modulator faults (R288, R289), harmonics (R296), copies
(R307, R309) and the capture at a power failure (R308). A value that the spec gives by a formula and that its register
cannot hold exactly is rounded in a direction that the spec leaves open: free.
-/

namespace Sys2Proof.Machine

/-! ## Lap quantities (R290 to R293) -/

/-- The code of a ones density (R287): 50 % gives 0, 90 % the greatest and 10 % the least 24-bit code, and beyond them the code
saturates. Between two codes the direction is open. -/
def filterCode (d : Density) : Int :=
  let q : Rat := ((d.ones : Rat) / d.bits - 1 / 2) * 8388608 / (4 / 10)
  let c := if (q.floor : Rat) = q then q.floor else q.floor + (Config.codeUp d.ones d.bits).toNat
  clampInt (-8388608) 8388607 c

/-- A code at which OVL counts a sample (Table 1). -/
def codeOvl (c : Int) : Bool := c == 8388607 || c == -8388608

/-- What one phase's samples of a lap sum to, in filter codes (Table 2): of the voltage codes v, of their squares, of the
current codes i, of their squares, of v × i, of the voltage codes w delayed by a quarter period, and of those times i; and
the samples at which the voltage or the current channel shows OVL. -/
structure PhaseSums where
  v : Rat
  v2 : Rat
  i : Rat
  i2 : Rat
  vi : Rat
  w : Rat
  wi : Rat
  ovlV : Nat
  ovlI : Nat

/-- The sum of exact values. -/
def ratSum (l : List Rat) : Rat := l.foldl (· + ·) 0

/-- The sums of a phase's samples: `v` and `i` its codes, `j` those of the current at the shifted instants, `w` those of the voltage
a quarter period before. -/
def phaseSums (v i : List Int) (j w : List Rat) : PhaseSums :=
  let u : List Rat := v.map (fun (c : Int) => (c : Rat))
  let dot (a b : List Rat) : Rat := ratSum ((a.zip b).map (fun e => e.1 * e.2))
  ⟨ratSum u, dot u u, ratSum j, dot j j, dot u j, ratSum w, dot w j, (v.filter codeOvl).length, (i.filter codeOvl).length⟩

/-- The number of samples of a lap, and the sums of phases L1 to L3. -/
structure FeederSums where
  n : Nat
  l1 : PhaseSums
  l2 : PhaseSums
  l3 : PhaseSums

/-- φ of a phase in µrad (R293): PHI in FLAT mode, SPHI of the segment in SEGMENTED mode. -/
def State.phaseShift (s : State) (f p : Nat) : Int :=
  if s.bit (Reg.MTR_F_f_MODE f) 0 then s.int (Reg.MTR_F_f_p_SPHI_s f p (s.fld (Reg.MTR_F_f_p_STATE f p) 0 3))
  else s.int (Reg.MTR_F_f_p_PHI f p)

/-- The frequency in mHz that gives the measured period: the last measurement, nominal while FREQBAD is set (R291). -/
def State.feederFreq (s : State) (f : Nat) : Nat :=
  if s.bit (Reg.MTR_F_f_STAT f) 4 then s.fld Reg.DSP_SHAPE 16 7 * 1000 else s.nat (Reg.MTR_F_f_FREQ f)

/-- The sums of phase `p` from its samples (R291, R293). -/
def State.sumPhase (s : State) (f p : Nat) (l : List PhaseSample) : PhaseSums :=
  let v := l.map (fun x => filterCode x.v)
  let i := l.map (fun x => filterCode x.i)
  let a := s.phaseShift f p
  phaseSums v i (if a = 0 then i.map (fun (c : Int) => (c : Rat)) else Config.shifted a (s.feederFreq f) i)
    (Config.quarterBack (s.feederFreq f) v)

/-- The sums of a lap of `ns` nanoseconds: a sample completes every 125 µs (R287), and what comes beyond belongs to the lap
after (R290). -/
def State.feederSums (s : State) (f : Nat) (l : FeederLap) (ns : Nat) : FeederSums :=
  let x := l.samples.take (ceilDiv ns 125000)
  ⟨x.length, s.sumPhase f 0 (x.map (·.l1)), s.sumPhase f 1 (x.map (·.l2)), s.sumPhase f 2 (x.map (·.l3))⟩

/-- The quantities of a phase in a lap: faulted, accumulating, P in W and Q in var, the squares of VRMS in mV² and of
IRMS in mA². -/
structure PhaseLap where
  fault : Bool
  accum : Bool
  p : Rat
  q : Rat
  v2 : Rat
  i2 : Rat

/-- Two to the 30, 46. -/
def q30 : Rat := 1073741824
def q46 : Rat := 70368744177664

/-- A channel is faulted in the lap: CLKFAIL or STUCK at any sample, OVL at more than 1 (R289). -/
def State.chanFaulted (s : State) (f c : Nat) : Bool :=
  s.mtr.clkLap.contains f || s.mtr.stuckLap.contains (6 * f + c) || 1 < assocGet 0 s.mtr.ovlLap (6 * f + c)

/-- G_seg of a phase (R293): 1 in FLAT mode, SGAIN of the segment in SEGMENTED mode. -/
def State.segGain (s : State) (f p : Nat) : Rat :=
  if s.bit (Reg.MTR_F_f_MODE f) 0 then (s.nat (Reg.MTR_F_f_p_SGAIN_s f p (s.fld (Reg.MTR_F_f_p_STATE f p) 0 3)) : Rat) / q30
  else 1

/-- Whether MTR_INJ of a bit names a feeder. -/
def State.mtrInj (s : State) (i f : Nat) : Bool := s.bit Reg.MTR_INJ i && s.fld Reg.MTR_INJ 8 2 == f

/-- The quantities of phase `p` of feeder `f` from the sums of its lap (Table 2, R298). -/
def State.phaseLap (s : State) (f p n : Nat) (x : PhaseSums) : PhaseLap :=
  let ov := s.int (Reg.MTR_F_f_OFS_c f p)
  let oi := s.int (Reg.MTR_F_f_OFS_c f (p + 3))
  let kv : Rat := (s.nat (Reg.MTR_F_f_GAIN_c f p) : Rat) / q30 * (s.nat (Reg.MTR_F_f_VFS f) : Rat) / 8388608
  let ki : Rat := (s.nat (Reg.MTR_F_f_GAIN_c f (p + 3)) : Rat) / q30 * s.segGain f p * (s.nat (Reg.MTR_F_f_IFS f) : Rat) / 8388608
  let fault := s.chanFaulted f p || s.chanFaulted f (p + 3) || 1 < x.ovlV || 1 < x.ovlI
  if fault || n = 0 then ⟨fault, false, 0, 0, 0, 0⟩
  else
    let m : Rat := n
    let a : Rat := ov
    let b : Rat := oi
    let v2 : Rat := kv * kv * (x.v2 - 2 * a * x.v + m * a * a) / n
    let i2 : Rat := ki * ki * (x.i2 - 2 * b * x.i + m * b * b) / n
    let vi : Rat := x.vi - a * x.i - b * x.v + m * a * b
    let wi : Rat := x.wi - a * x.i - b * x.w + m * a * b
    let pw : Rat := (s.nat (Reg.MTR_F_f_p_PGAIN f p) : Rat) / q30 * kv * ki * vi / n / 1000000 + (s.int (Reg.MTR_F_f_p_POFS f p) : Rat)
    let qw : Rat := (s.nat (Reg.MTR_F_f_p_QGAIN f p) : Rat) / q30 * kv * ki * wi / n / 1000000 + (s.int (Reg.MTR_F_f_p_QOFS f p) : Rat)
    let rated : Rat := s.nat (Reg.MTR_F_f_IRATED f)
    let vfs : Rat := s.nat (Reg.MTR_F_f_VFS f)
    let start := (rated * rated ≤ i2 * 1000000) != (p == 0 && s.mtrInj 1 f)
    ⟨false, start && vfs * vfs ≤ v2 * 20000, pw, qw, v2, i2⟩

/-- The sums of phase `p`. -/
def FeederSums.phase (l : FeederSums) (p : Nat) : PhaseSums := if p = 0 then l.l1 else if p = 1 then l.l2 else l.l3

/-- The square of a phase's apparent power in VA². -/
def PhaseLap.s2 (x : PhaseLap) : Rat := x.v2 * x.i2 / 1000000000000

/-- A register takes an exact value rounded in an open direction, saturated at the signed or unsigned 32-bit range. -/
def State.putOpen (s : State) (a : Nat) (q : Rat) : State := let r := s.roundOpen q; r.2.wr a (satWord r.1)
def State.putRoot (s : State) (a : Nat) (q : Rat) : State := let r := s.sqrtOpen q; r.2.wr a (satWordN r.1)

/-- Power factor in Q15.16: P / S, 0 when S is 0. -/
def State.putPf (s : State) (a : Nat) (x : PhaseLap) : State :=
  if x.s2 = 0 then s.wr a 0#32
  else
    let r := s.sqrtOpen (x.p * x.p / x.s2 * 4294967296)
    r.2.wr a (satWord (if x.p < 0 then -(r.1 : Int) else r.1))

/-- The segment of the lap that begins: the thresholds in force at or below the IRMS of the lap before; 0 after a fault
(R293). -/
def State.segment (s : State) (f p : Nat) : Nat :=
  if s.bit (Reg.MTR_F_f_p_STATE f p) 5 then 0
  else ((List.range 7).filter (fun i => s.nat (Reg.MTR_F_f_SEGTH_i f i) ≤ s.nat (Reg.MTR_F_f_p_IRMS f p))).length

/-- The lap quantities of a phase are written (R290, R292). -/
def State.putPhase (s : State) (f p : Nat) (x : PhaseLap) : State :=
  let s1 := s.putRoot (Reg.MTR_F_f_p_VRMS f p) x.v2
  let s2 := s1.putRoot (Reg.MTR_F_f_p_IRMS f p) x.i2
  let s3 := s2.putOpen (Reg.MTR_F_f_p_P f p) x.p
  let s4 := s3.putOpen (Reg.MTR_F_f_p_Q f p) x.q
  let s5 := s4.putRoot (Reg.MTR_F_f_p_S f p) x.s2
  let s6 := s5.putPf (Reg.MTR_F_f_p_PF f p) x
  s6.setFld (Reg.MTR_F_f_p_STATE f p) 4 2 (x.accum.toNat + x.fault.toNat * 2)

/-! ## Energy registers (R297 to R301) -/

/-- A wrap of a register is flagged, counted and recorded (R301). -/
def State.mtrWrap (s : State) (stat src k : Nat) : State :=
  ((((s.setBit stat (if src < 16 then 3 else 1) true).setBit Reg.MTR_STAT 3 true).count Reg.MTR_CNT_WRAP).irqMtr 1).raiseEv
    0x0C02 1 (leBytes 1 src ++ leBytes 1 k)

/-- Add to energy register `k` of feeder `f`, in 2^-32 mWh; it wraps modulo 2^64 mWh. -/
def State.addEnergy (s : State) (f k amount : Nat) : State :=
  let v := listGet s.mtr.energy (25 * f + k) + amount
  let s1 := { s with mtr := { s.mtr with energy := s.mtr.energy.set (25 * f + k) (v % 2 ^ 96) } }
  s1.onlyIf (2 ^ 96 ≤ v && k < 24) (fun t => t.mtrWrap (Reg.MTR_F_f_STAT f) f k)

/-- Add to thermal register `j` of channel `t`: 0 HEAT, 1 COOL, 2 VOL. -/
def State.addTherm (s : State) (t j amount : Nat) : State :=
  let v := listGet s.mtr.therm (3 * t + j) + amount
  let s1 := { s with mtr := { s.mtr with therm := s.mtr.therm.set (3 * t + j) (v % 2 ^ 96) } }
  s1.onlyIf (2 ^ 96 ≤ v) (fun u => u.mtrWrap (Reg.MTR_T_t_STAT t) (0x10 + t) j)

/-- The energy of a power over `n` samples in 2^-32 mWh: P × n / 8,000 s (R299). -/
def lapEnergy (n : Nat) (w : Rat) : Rat := w * n / 28800 * 4294967296

/-- An exact magnitude rounded in an open direction. -/
def State.magOpen (s : State) (q : Rat) : Nat × State := let r := s.roundOpen (if q < 0 then -q else q); (r.1.toNat, r.2)

/-- Add an energy by its sign: register `k` when it is positive, `k + 1` when it is negative. -/
def State.addSigned (s : State) (f k : Nat) (e : Rat) : State :=
  let r := s.magOpen e
  if e < 0 then r.2.addEnergy f (k + 1) r.1 else r.2.addEnergy f k r.1

/-- The energy of an accumulating phase enters its registers (R299). -/
def State.phaseEnergy (s : State) (f p n : Nat) (x : PhaseLap) : State :=
  let s1 := (s.addSigned f (6 * p) (lapEnergy n x.p)).addSigned f (6 * p + 2) (lapEnergy n x.q)
  let k : Rat := lapEnergy n 1
  let r := s1.sqrtOpen (x.s2 * k * k)
  r.2.addEnergy f (6 * p + (if x.p < 0 then 5 else 4)) r.1

/-- The total registers take the sums over the accumulating phases (R299). -/
def State.totalEnergy (s : State) (f n : Nat) (l : List PhaseLap) : State :=
  let a := l.filter (·.accum)
  let p := ratSum (a.map (·.p))
  let s1 := (s.addSigned f 18 (lapEnergy n p)).addSigned f 20 (lapEnergy n (ratSum (a.map (·.q))))
  let k : Rat := lapEnergy n 1
  let r := a.foldl (fun (u : Nat × State) x => let t := u.2.sqrtOpen (x.s2 * k * k); (u.1 + t.1, t.2)) ((0 : Nat), s1)
  r.2.addEnergy f (if p < 0 then 23 else 22) r.1

/-- A faulted phase adds the magnitude of its last good lap to UNMEAS while that lap is at most 250 laps old, and is
counted; another keeps the energy of its lap (R300). -/
def State.phaseUnmeas (s : State) (f p n : Nat) (x : PhaseLap) : State :=
  if x.fault then
    let s1 := (s.count (Reg.MTR_F_f_CNT_BADLAP f)).count Reg.MTR_CNT_BADLAP
    match s.mtr.lastE.find? (fun e => e.1 == 3 * f + p) with
    | some e => if s.lap.count ≤ e.2.2 + 250 then s1.addEnergy f 24 e.2.1 else s1
    | none => s1
  else
    let r := s.magOpen (if x.accum then lapEnergy n x.p else 0)
    let l := (3 * f + p, r.1, s.lap.count) :: r.2.mtr.lastE.filter (fun e => e.1 != 3 * f + p)
    { r.2 with mtr := { r.2.mtr with lastE := l } }

/-- Whether feeder `f` is configured. -/
def State.feederOn (s : State) (f : Nat) : Bool := s.imgRuns && s.bit (Reg.MTR_F_f_CFG f) 0

/-- The totals of the lap quantities (R291, R292). -/
def State.putTotals (s : State) (f : Nat) (l : List PhaseLap) : State :=
  let s1 := (s.putOpen (Reg.MTR_F_f_TOT_P f) (ratSum (l.map (·.p)))).putOpen (Reg.MTR_F_f_TOT_Q f) (ratSum (l.map (·.q)))
  let fine := l.foldl (fun a x => a + Nat.sqrt (x.s2 * 18446744073709551616).floor.toNat) 0
  s1.putOpen (Reg.MTR_F_f_TOT_S f) ((fine : Rat) / 4294967296)

/-- A module that has just entered ACTIVE: its phases accumulate nothing in the lap of the entry's boundary and in its
own first lap (R403, R406). -/
def State.mtrSettles (s : State) : Bool := s.pair.role == 1 && s.pairState == 4 && s.pair.activeLaps < 2

/-- The lap of a feeder ends: quantities and energies (R290, R299, R300). -/
def State.feederLap (s : State) (f : Nat) (l : FeederSums) : State :=
  if !s.feederOn f then s
  else if s.mtrSettles then
    let ys := (List.range 3).map (fun p => s.phaseLap f p l.n (l.phase p))
    (s.forEach ys.zipIdx (fun t e => t.putPhase f e.2 e.1)).putTotals f ys
  else
    let xs := (List.range 3).map (fun p => s.phaseLap f p l.n (l.phase p))
    let idx := xs.zipIdx
    let s1 := s.forEach idx (fun t e => t.putPhase f e.2 e.1)
    let s2 := s1.putTotals f xs
    let s3 := s2.forEach (idx.filter (·.1.accum)) (fun t e => t.phaseEnergy f e.2 l.n e.1)
    (s3.totalEnergy f l.n xs).forEach idx (fun t e => t.phaseUnmeas f e.2 l.n e.1)

/-- The segments of the lap that begins, with the thresholds that the boundary leaves in force (R290, R293). -/
def State.mtrSegs (s : State) : State :=
  s.forEach ((List.range 12).filter (fun i => s.feederOn (i / 3))) (fun t i =>
    t.setFld (Reg.MTR_F_f_p_STATE (i / 3) (i % 3)) 0 3 (t.segment (i / 3) (i % 3)))

/-! ## Modulator faults (R288, R289) -/

/-- The bit of a fault in the status registers, and its number in the spoor. -/
def ModFault.num : ModFault → Nat
  | .clkfail => 0 | .stuck => 1 | .ovl => 2

/-- The onset of a modulator fault. -/
def State.modOnset (s : State) (f c : Nat) (k : ModFault) : State :=
  ((((s.setBit (Reg.MTR_F_f_STAT f) k.num true).setBit Reg.MTR_STAT k.num true).count Reg.MTR_CNT_MODFAULT).irqMtr 0).raiseEv
    0x0C01 3 (leBytes 1 f ++ leBytes 1 c ++ leBytes 1 k.num)

/-- CHFAULT of a feeder follows the faults present. -/
def State.chFault (s : State) (f : Nat) : State :=
  s.forEach (List.range 6) (fun t c =>
    t.setBit (Reg.MTR_F_f_STAT f) (16 + c)
      (t.mtr.clkNow.contains f || t.mtr.stuckNow.contains (6 * f + c) || t.mtr.ovlNow.contains (6 * f + c)))

/-- Add to a list without repeats; remove from it. -/
def listAdd (l : List Nat) (k : Nat) : List Nat := if l.contains k then l else k :: l
def listDel (l : List Nat) (k : Nat) : List Nat := l.filter (· != k)

/-- All three voltages of a feeder are faulted. -/
def State.feederDark (s : State) (f : Nat) : Bool :=
  (List.range 3).all (fun p => s.mtr.clkNow.contains f || s.mtr.stuckNow.contains (6 * f + p) || s.mtr.ovlNow.contains (6 * f + p))

/-- No frequency: FREQBAD is set, and the frequency and harmonic registers read 0 (R296). -/
def State.freqLost (s : State) (f : Nat) : State :=
  let s1 := (s.setBit (Reg.MTR_F_f_STAT f) 4 true).wr (Reg.MTR_F_f_FREQ f) 0#32
  let s2 := s1.forEach (List.range 378) (fun t i => t.wr (Reg.MTR_F_f_H_q_h f (i / 63) (i % 63)) 0#32)
  s2.forEach (List.range 3) (fun t p => (t.wr (Reg.MTR_F_f_p_THDV f p) 0#32).wr (Reg.MTR_F_f_p_THDI f p) 0#32)

/-- A modulator fault is present or absent at a sample (R288, R289). -/
def State.modFault (s : State) (f c : Nat) (k : ModFault) (present : Bool) : State :=
  if !s.feederOn f then s
  else
    let i := 6 * f + c
    let m := s.mtr
    let was := match k with
      | .clkfail => m.clkNow.contains f
      | .stuck => m.stuckNow.contains i
      | .ovl => m.ovlNow.contains i
    let m' : MtrState := match k, present with
      | .clkfail, true => { m with clkNow := listAdd m.clkNow f, clkLap := listAdd m.clkLap f }
      | .clkfail, false => { m with clkNow := listDel m.clkNow f }
      | .stuck, true => { m with stuckNow := listAdd m.stuckNow i, stuckLap := listAdd m.stuckLap i }
      | .stuck, false => { m with stuckNow := listDel m.stuckNow i }
      | .ovl, true => { m with ovlNow := listAdd m.ovlNow i, ovlLap := assocPut m.ovlLap i (assocGet 0 m.ovlLap i + 1) }
      | .ovl, false => { m with ovlNow := listDel m.ovlNow i }
    let s1 := (({ s with mtr := m' }).chFault f).onlyIf (present && !was) (fun t => t.modOnset f c k)
    (s1.onlyIf (s1.feederDark f) (fun t => t.freqLost f)).feederCheck

/-- MTR_INJ.STUCK inverts the STUCK test of one channel for the lap (R310). -/
def State.stuckInject (s : State) : State :=
  if s.bit Reg.MTR_INJ 0 then
    let f := s.fld Reg.MTR_INJ 8 2
    let c := s.fld Reg.MTR_INJ 16 4
    let i := 6 * f + c
    let s1 := s.injRan Reg.MTR_INJ 0
    if 6 ≤ c || !s.feederOn f then s1
    else if s.mtr.stuckLap.contains i then { s1 with mtr := { s1.mtr with stuckLap := listDel s1.mtr.stuckLap i } }
    else ({ s1 with mtr := { s1.mtr with stuckLap := listAdd s1.mtr.stuckLap i } }).modOnset f c .stuck
  else s

/-- A new lap begins: the faults present now are faults of it. -/
def State.modLap (s : State) : State :=
  { s with mtr := { s.mtr with clkLap := s.mtr.clkNow, stuckLap := s.mtr.stuckNow, ovlLap := [] } }

/-! ## Thermal channels (R304 to R306) -/

/-- Region 1 of IAPWS-IF97: I, J, and the coefficient n as a numerator over a power of ten. -/
def if97Table : List (Nat × Int × Int × Nat) :=
  [(0, -2, 14632971213167, 14), (0, -1, -84548187169114, 14), (0, 0, -3756360367204, 12),
   (0, 1, 33855169168385, 13), (0, 2, -95791963387872, 14), (0, 3, 15772038513228, 14),
   (0, 4, -16616417199501, 15), (0, 5, 81214629983568, 17), (1, -9, 28319080123804, 17),
   (1, -7, -60706301565874, 17), (1, -1, -18990068218419, 15), (1, 0, -32529748770505, 15),
   (1, 1, -21841717175414, 15), (1, 3, -5283835796993, 17), (2, -3, -47184321073267, 17),
   (2, 0, -30001780793026, 17), (2, 1, 47661393906987, 18), (2, 3, -44141845330846, 19),
   (2, 17, -72694996297594, 29), (3, -4, -31679644845054, 18), (3, 0, -28270797985312, 19),
   (3, 6, -85205128120103, 23), (4, -5, -22425281908, 16), (4, -2, -65171222895601, 20),
   (4, 10, -14341729937924, 26), (5, -8, -40516996860117, 20), (8, -11, -12734301741641, 22),
   (8, -6, -17424871230634, 23), (21, -29, -68762131295531, 32), (23, -31, 14478307828521, 33),
   (29, -38, 26335781662795, 36), (30, -39, -11947622640071, 36), (31, -40, 18228094581404, 37),
   (32, -41, -93537087292458, 39)]

/-- An integer power of a rational. -/
def ratPow (x : Rat) (j : Int) : Rat := if j < 0 then 1 / x ^ j.natAbs else x ^ j.natAbs

/-- Specific volume in m³/kg and specific enthalpy in kJ/kg of water at `t` thousandths of a degree Celsius and `p` kPa. -/
def if97 (t : Int) (p : Nat) : Rat × Rat :=
  let k : Rat := ((t + 273150 : Int) : Rat) / 1000
  let tau : Rat := 1386 / k
  let pi : Rat := (p : Rat) / 16530
  let y : Rat := 71 / 10 - pi
  let x : Rat := tau - 1222 / 1000
  let coef (e : Nat × Int × Int × Nat) : Rat := (e.2.2.1 : Rat) / ((10 ^ e.2.2.2 : Nat) : Rat)
  let gp := ratSum ((if97Table.filter (fun e => e.1 != 0)).map (fun e => -(coef e) * e.1 * y ^ (e.1 - 1) * ratPow x e.2.1))
  let gt := ratSum (if97Table.map (fun e => coef e * y ^ e.1 * (e.2.1 : Rat) * ratPow x (e.2.1 - 1)))
  let r : Rat := 461526 / 1000000
  (r * k / p * pi * gp, r * k * tau * gt)

/-- The formulas of region 1 hold: 0 to 350 degrees, above 0 to 100 MPa. -/
def if97Holds (t : Int) (p : Nat) : Bool := 0 ≤ t && t ≤ 350000 && 0 < p && p ≤ 100000

/-- What a thermal channel measures in a lap: volume in µL and whether its flow source is valid, the temperatures and
whether both are valid. -/
structure ThermLap where
  vol : Rat
  flowOk : Bool
  ts : Int
  tr : Int
  tempOk : Bool

/-- The measured value and validity of an AIN channel, forced or not (R304). -/
def State.ainTrue (s : State) (n : Nat) : Int × Bool := (s.int (Reg.AIN_n_VAL n), s.bit (Reg.AIN_n_FLAGS n) 10)

/-- The measurement of thermal channel `t` over a lap of `ns` nanoseconds (R304). -/
def State.thermLap (s : State) (t ns : Nat) : ThermLap :=
  let cfg := Reg.MTR_T_t_CFG t
  let i := s.fld cfg 8 5
  let vol : Rat × Bool := if s.fld cfg 0 2 = 1 then
      let d := s.rd (Reg.DIO_DI_n_CNT i) - assocGet 0#32 s.mtr.pulses i
      (((d.toNat * s.nat (Reg.MTR_T_t_KPULSE t) : Nat) : Rat), true)
    else
      let v := s.ainTrue i
      (if v.1 < (s.nat (Reg.MTR_T_t_QCUT t) : Int) then 0 else (v.1 : Rat) * ns / 3600000, v.2)
  let a := s.ainTrue (s.fld cfg 16 5)
  let b := s.ainTrue (s.fld cfg 24 5)
  ⟨vol.1, vol.2, a.1, b.1, a.2 && b.2⟩

/-- The heat of a lap in Wh, signed, cooling negative (R305). A temperature or pressure outside the formulas gives a free
value. -/
def State.thermHeat (s : State) (t : Nat) (x : ThermLap) : Rat :=
  let p := s.nat (Reg.MTR_T_t_PNOM t)
  let dt := s.nat (Reg.MTR_T_t_DTMIN t)
  let hot := (dt : Int) ≤ x.ts - x.tr
  let cold := (dt : Int) ≤ x.tr - x.ts
  let e : Rat := if if97Holds x.ts p && if97Holds x.tr p then
      let loc := if97 (if s.bit (Reg.MTR_T_t_CFG t) 31 then x.tr else x.ts) p
      x.vol / 1000000000 / loc.1 * ((if97 x.ts p).2 - (if97 x.tr p).2) / (36 / 10)
    else ((Config.free s.free).toInt : Rat)
  let mag := if e < 0 then -e else e
  if hot then mag else if cold then -mag else 0

/-- A source of thermal channel `t` is forced (R304). -/
def State.thermForced (s : State) (t : Nat) : Bool :=
  let cfg := Reg.MTR_T_t_CFG t
  let i := s.fld cfg 8 5
  s.fld cfg 0 2 != 0 && ((if s.fld cfg 0 2 = 1 then s.forced 0 i || s.forced 4 i else s.forced 2 i)
    || s.forced 2 (s.fld cfg 16 5) || s.forced 2 (s.fld cfg 24 5))

/-- The lap of a thermal channel ends (R304 to R306). -/
def State.thermEnd (s : State) (t ns : Nat) : State :=
  if !s.imgRuns || s.fld (Reg.MTR_T_t_CFG t) 0 2 = 0 then s
  else
    let x := s.thermLap t ns
    let inj := s.bit Reg.MTR_INJ 3 && s.fld Reg.MTR_INJ 16 4 == t
    let good := (x.tempOk && x.flowOk) != inj
    let s0 := s.onlyIf inj (fun u => u.injRan Reg.MTR_INJ 3)
    let v := s0.magOpen (if x.flowOk then x.vol * 4294967296 / 1000000 else 0)
    let s2 := v.2.addTherm t 2 v.1
    let s3 := s2.putOpen (Reg.MTR_T_t_FLOW t) (if ns = 0 then 0 else x.vol * 3600000 / ns)
    if good then
      let e := s3.thermHeat t x
      let r := (s3.nextFree).magOpen (e * 4294967296)
      let s4 := if e < 0 then r.2.addTherm t 1 r.1 else r.2.addTherm t 0 r.1
      s4.putOpen (Reg.MTR_T_t_POWER t) (if ns = 0 then 0 else e * 3600000000000 / ns)
    else
      (((((s3.wr (Reg.MTR_T_t_POWER t) 0#32).setBit (Reg.MTR_T_t_STAT t) 0 true).setBit Reg.MTR_STAT 6 true).count
        (Reg.MTR_T_t_ERRLAPS t)).count Reg.MTR_CNT_THMERR).irqMtr 3

/-! ## The warm region and the periodic copies (R307 to R309) -/

/-- Warm offset of the metering registers. -/
def mtrWarm : Nat := 0x1000

/-- ERRLAPS of the thermal channels. -/
def State.mtrErrs (s : State) : List Nat := (List.range 16).map (fun t => s.nat (Reg.MTR_T_t_ERRLAPS t))

/-- The metering registers as the warm region holds them. -/
def State.mtrBytes (s : State) : List Byte :=
  s.mtr.energy.flatMap (leBytes 12) ++ s.mtr.therm.flatMap (leBytes 12) ++ s.mtrErrs.flatMap (leBytes 4)
    ++ (List.range 4).flatMap (fun f => leBytes 4 (s.nat (Reg.MTR_F_f_UNSAVED_AI f)) ++ leBytes 4 (s.nat (Reg.MTR_F_f_UNSAVED_AE f)))
    ++ (List.range 16).flatMap (fun t => leBytes 4 (s.nat (Reg.MTR_T_t_UNSAVED t)))
    ++ (List.range 12).flatMap (fun i => leBytes 1 (s.fld (Reg.MTR_F_f_p_STATE (i / 3) (i % 3)) 0 3))

/-- The registers are written into the warm region (R307). -/
def State.mtrToWarm (s : State) : State := s.sramPut mtrWarm s.mtrBytes

/-- A commit: the snapshot that waits (R303), the warm region and the periodic copies (R307). -/
def State.mtrCommit (s : State) (epoch : Nat) : State :=
  let s0 := s.mtrSegs
  let s1 := if s0.mtr.snap then
      let t := s0.forEach (List.range 24) (fun t i =>
        t.wr (Reg.MTR_F_f_SNAP_t (i / 6) (i % 6))
          (BitVec.ofNat 32 (listGet s.mtr.energy (25 * (i / 6) + 18 + i % 6) / 2 ^ 32 / 1000)))
      (({ t with mtr := { t.mtr with snap := false } }).wr Reg.MTR_SNAP_EPOCH_LO (BitVec.ofNat 32 epoch)).irqMtr 2
    else s0
  let k := s1.mtr.sinceSave + 1
  let due := s1.fld Reg.MTR_NVSAVE 0 16 ≤ k
  let age (c : Option MtrCopy) := c.map (fun x => { x with since := x.since + 1 })
  let m := { s1.mtr with sinceSave := (if due then 0 else k), saveDue := s1.mtr.saveDue || due, copyA := age s1.mtr.copyA, copyB := age s1.mtr.copyB }
  ({ s1 with mtr := m }).mtrToWarm

/-- A periodic copy goes to the older of A and B: whether that is B. -/
def State.mtrOlderB (s : State) : Bool := match s.mtr.copyA, s.mtr.copyB with
  | none, _ => false
  | some _, none => true
  | some a, some b => newerSeq 32 a.seq.toNat b.seq.toNat

/-- The pages of a periodic copy: its 100 + 48 numbers of 12 bytes, 16 of 4, its SEQ and its CRC. DESIGN CHOICE: the layout is
not stated (log entry 30). -/
def mtrCopyPages : Nat := 8

/-- The write of a periodic copy and its verification end (R307, R310); the write is charged to MTR on NVW, and one that failed is
repeated at the next lap. -/
def State.mtrSave (s : State) (ok : Bool) : State :=
  if !s.mtr.saveDue || s.mtr.saveTry = some s.lap.count then s
  else
    let good := s.injTest Reg.MTR_INJ 2 ok
    let s1 := (s.injRan Reg.MTR_INJ 2).charge classMtr resNvw (24 * mtrCopyPages)
    let seq : Word := match s.mtr.copyA, s.mtr.copyB with
      | some a, some b => (if newerSeq 32 a.seq.toNat b.seq.toNat then a.seq else b.seq) + 1
      | some a, none => a.seq + 1
      | none, some b => b.seq + 1
      | none, none => 1#32
    let c : Option MtrCopy := if ok then some ⟨seq, s.mtr.energy, s.mtr.therm, s.mtrErrs, 0⟩ else none
    let m := if s.mtrOlderB then { s1.mtr with copyB := c } else { s1.mtr with copyA := c }
    if good then ({ s1 with mtr := { m with saveDue := false } }).count Reg.MTR_CNT_NVSAVE
    else ({ s1 with mtr := { m with saveTry := some s.lap.count } }).setBit Reg.MTR_STAT 4 true

/-- The `i`-th number of `w` bytes of the warm region's metering registers from offset `o` on. -/
def State.warmNum (s : State) (o w i : Nat) : Nat := leNat (s.sramGet (mtrWarm + o + w * i) w)

/-- The numbers of the energy, thermal and error registers put in force. -/
def State.mtrPut (s : State) (energy therm errs : List Nat) : State :=
  ({ s with mtr := { s.mtr with energy := energy, therm := therm } }).forEach (List.range 16) (fun t k =>
    t.wr (Reg.MTR_T_t_ERRLAPS k) (BitVec.ofNat 32 (listGet errs k)))

/-- The valid periodic copy with the higher sequence number. -/
def State.mtrBest (s : State) : Option MtrCopy := match s.mtr.copyA, s.mtr.copyB with
  | some a, some b => if newerSeq 32 a.seq.toNat b.seq.toNat then some a else some b
  | some a, none => some a
  | none, b => b

/-- MTR_RESTORE: SRC and LOST. -/
def State.mtrRestored (s : State) (src lost : Nat) : State :=
  s.wr Reg.MTR_RESTORE (BitVec.ofNat 32 (src + satNat 24 lost * 2 ^ 8))

/-- At start the registers are restored from the warm region, a copy, or zero (R309). -/
def State.mtrRestore (s : State) : State :=
  let s0 := { s with mtr := { s.mtr with lastE := [], snap := false, sinceSave := 0, saveDue := false, saveTry := none, pulses := [],
                                          clkNow := [], stuckNow := [], ovlNow := [], clkLap := [], stuckLap := [],
                                          ovlLap := [], shadows := [] } }
  if s.bit Reg.NVS_WARM 0 then
    (s0.mtrPut ((List.range 100).map (s.warmNum 0 12)) ((List.range 48).map (s.warmNum 1200 12))
      ((List.range 16).map (s.warmNum 1776 4))).mtrRestored 1 0
  else
    let old (t : State) (src lost : Nat) : State :=
      ((t.mtrRestored src lost).setBit Reg.MTR_STAT 5 true).raiseEv 0x0C04 3 (leBytes 1 src ++ [0#8, 0#8, 0#8] ++ leBytes 4 (satNat 24 lost))
    match s.mtrBest with
    | some c => old (s0.mtrPut c.energy c.therm c.errs) 2 c.since
    | none => old (s0.mtrPut (List.replicate 100 0) (List.replicate 48 0) (List.replicate 16 0)) 3 0

/-- At the detection of a power failure the energy of the lap in progress goes into the UNSAVED registers (R308). -/
def State.mtrUnsaved (s : State) (laps : List FeederLap) (ns : Nat) : State :=
  let s1 := s.forEach (laps.zipIdx.filter (fun e => s.feederOn e.2 && e.2 < 4)) (fun t e =>
    let f := e.2
    let l := s.feederSums f e.1 ns
    let xs := (List.range 3).map (fun p => s.phaseLap f p l.n (l.phase p))
    let w := lapEnergy l.n (if s.isStandby then 0 else ratSum ((xs.filter (·.accum)).map (·.p))) / 4294967296
    let r := t.magOpen w
    let v := satWordN r.1
    (r.2.wr (Reg.MTR_F_f_UNSAVED_AI f) (if w < 0 then 0#32 else v)).wr (Reg.MTR_F_f_UNSAVED_AE f) (if w < 0 then v else 0#32))
  let s2 := s1.forEach ((List.range 16).filter (fun t => s.imgRuns && s.fld (Reg.MTR_T_t_CFG t) 0 2 != 0)) (fun u t =>
    let x := s.thermLap t ns
    let e := if x.tempOk && x.flowOk && !s.isStandby then u.thermHeat t x else 0
    (u.nextFree).putOpen (Reg.MTR_T_t_UNSAVED t) e)
  s2.forEach ((List.range 4).filter s.feederOn) (fun t f =>
    t.raiseEv 0x0C03 2 (leBytes 1 f ++ [0#8, 0#8, 0#8] ++ leBytes 4 (t.nat (Reg.MTR_F_f_UNSAVED_AI f))
      ++ leBytes 4 (t.nat (Reg.MTR_F_f_UNSAVED_AE f))))

/-! ## The lap, and harmonics -/

/-- The pulse counts at the boundary, from which the next lap counts (R304). -/
def State.pulseLap (s : State) : State :=
  let l := (List.range 32).map (fun i => (i, s.rd (Reg.DIO_DI_n_CNT i)))
  { s with mtr := { s.mtr with pulses := l } }

/-- The lap ends for metering: every feeder and thermal channel (R290, R304). A STANDBY accumulates nothing (R403), and a
lap whose boundary has no commit enters no register (R308). -/
def State.mtrLap (s : State) (commits : Bool) (laps : List FeederLap) (ns : Nat) : State :=
  if !commits || s.isStandby || (s.mtrSettles && s.pair.activeLaps = 0) then (s.modLap).pulseLap else
  let s0 := s.stuckInject
  let s1 := s0.forEach (laps.zipIdx.filter (fun e => e.2 < 4)) (fun t e => t.feederLap e.2 (s0.feederSums e.2 e.1 ns))
  let s2 := s1.onlyIf (s1.bit Reg.MTR_INJ 1) (fun t => t.injRan Reg.MTR_INJ 1)
  ((s2.forEach (List.range 16) (fun t k => t.thermEnd k ns)).modLap).pulseLap

/-- The squared subgroup of order `h` from the magnitudes of the bins (R296). -/
def subgroup2 (periods h : Nat) (bins : List Nat) : Nat :=
  ((List.range 3).map (fun i => let b := bins.getD (periods * h - 1 + i) 0; b * b)).foldl (· + ·) 0

/-- A window of harmonics ends (R296). `bins`: for each channel VL1 to IL3 the magnitudes of the bins in µV or µA. -/
def State.harmonics (s : State) (f freq : Nat) (bins : List (List Nat)) : State :=
  if !s.feederOn f then s
  else
    let bad := freq < 42500 || 69000 < freq || s.feederDark f
    if bad then s.freqLost f else
    let s1 := (s.setBit (Reg.MTR_F_f_STAT f) 4 false).wr (Reg.MTR_F_f_FREQ f) (BitVec.ofNat 32 freq)
    let n := if s.fld Reg.DSP_SHAPE 16 7 = 60 then 12 else 10
    let s2 := s1.forEach (List.range 6) (fun t q =>
      let g (h : Nat) : Nat := subgroup2 n h (bins.getD q [])
      let one : Rat := g 1
      t.forEach (List.range 63) (fun u i =>
        if i = 0 then u.putRoot (Reg.MTR_F_f_H_q_h f q 0) (one / 1000000)
        else u.putRoot (Reg.MTR_F_f_H_q_h f q i) (if one = 0 then 0 else (g (i + 1) : Rat) * 10000000000 / one)))
    s2.forEach (List.range 6) (fun t q =>
      let g (h : Nat) : Nat := subgroup2 n h (bins.getD q [])
      let sum : Nat := ((List.range 62).map (fun i => g (i + 2))).foldl (· + ·) 0
      t.putRoot (if q < 3 then Reg.MTR_F_f_p_THDV f q else Reg.MTR_F_f_p_THDI f (q - 3))
        (if g 1 = 0 then 0 else (sum : Rat) * 10000000000 / (g 1 : Rat)))

/-! ## Live values and 64-bit reads -/

/-- The LO and HI words of the 64-bit registers: the value at an address, when the address is such a word. -/
def State.mtrWord (s : State) (a : Nat) : Option Word :=
  if Reg.MTR_F_f_CFG 0 ≤ a && a < Reg.MTR_F_f_CFG 4 && 0x140 ≤ a % 0x400 && a % 0x400 < 0x208 then
    let f := (a - Reg.MTR_F_f_CFG 0) / 0x400
    let k := (a % 0x400 - 0x140) / 8
    let v := listGet s.mtr.energy (25 * f + k) / 2 ^ 32
    some (BitVec.ofNat 32 (if a % 8 = 0 then v else v / 2 ^ 32))
  else if Reg.MTR_T_t_CFG 0 ≤ a && a < Reg.MTR_T_t_CFG 16 && 0x20 ≤ a % 0x40 && a % 0x40 < 0x38 then
    let t := (a - Reg.MTR_T_t_CFG 0) / 0x40
    let j := (a % 0x40 - 0x20) / 8
    let v := listGet s.mtr.therm (3 * t + j) / 2 ^ 32
    some (BitVec.ofNat 32 (if a % 8 = 0 then v else v / 2 ^ 32))
  else none

/-- What a host window read of a 64-bit register's word returns: a HI word its shadow when one is latched (R302). -/
def State.mtrRead (s : State) (a : Nat) (live : Word) : Word :=
  if (s.mtrWord a).isSome && a % 8 = 4 then (s.mtr.shadows.find? (fun e => e.1 == a)).elim live (·.2) else live

/-- A read of a LO word latches its HI word; a read of a HI word uses its shadow up (R302). -/
def State.mtrLatch (s : State) (a : Nat) : State :=
  if (s.mtrWord a).isNone then s
  else if a % 8 = 0 then
    { s with mtr := { s.mtr with shadows := (a + 4, (s.mtrWord (a + 4)).getD 0#32) :: s.mtr.shadows.filter (fun e => e.1 != a + 4) } }
  else { s with mtr := { s.mtr with shadows := s.mtr.shadows.filter (fun e => e.1 != a) } }

/-- A write set would leave the segment thresholds of some feeder not strictly ascending (R294). -/
def State.segthBad (s : State) : Bool :=
  (List.range 4).any (fun f => s.feederOn f && (List.range 6).any (fun i =>
    s.nat (Reg.MTR_F_f_SEGTH_i f (i + 1)) ≤ s.nat (Reg.MTR_F_f_SEGTH_i f i)))

end Sys2Proof.Machine
end

