-- ==== Sys2Proof/Machine/PairRun.lean ====
section
/-!
DEFINITION. Machine/PairRun.lean: the mirror (R398 to R401), the copy and the units of a join (R403), entering and
leaving the active role (R393 to R396, R404 to R406) of spec/16_pair_operation.md, and the PAIR writes.
-/

namespace Sys2Proof.Machine

/-! ## Levels, with what they gate (R387, R388) -/

/-- An operation that may change the right to drive: when DRIVE falls, the ready LOOP and FBP buffers are gated (R328). -/
def State.gating (s : State) (f : State → State) : State :=
  let t := f s
  t.onlyIf (s.gatesOpen && !t.gatesOpen) State.canGate

/-- INTLK_IN changes. -/
def State.intlkChange (s : State) (level : Bool) : State := s.gating (fun t => t.intlkLevel level)

/-- GRANT_IN changes. -/
def State.grantChange (s : State) (level : Bool) : State := s.gating (fun t => t.grantLevel level)

/-- INTLK_IN changes while the module is off: only its level is there at the next start. -/
def State.intlkOff (s : State) (level : Bool) : State := { s with pair := { s.pair with intlkIn := level } }

/-- GRANT_IN changes while the module is off. -/
def State.grantOff (s : State) (level : Bool) : State := { s with pair := { s.pair with grantIn := level } }

/-! ## The unit that an ACTIVE module sends (R398) -/

/-- The states of a loop's 8 stages, three signed words each. -/
def loopBytes (x : LoopRun) : List Byte :=
  (List.range 8).flatMap (fun j => let t := x.stages.getD j (0, 0, 0)
    leBytes 4 (wrapInt 32 t.1) ++ leBytes 4 (wrapInt 32 t.2.1) ++ leBytes 4 (wrapInt 32 t.2.2))

/-- The stage states that the bytes of a loop carry. -/
def loopStages (b : List Byte) : List (Int × Int × Int) :=
  (List.range 8).map (fun j =>
    let w (k : Nat) : Int := signedOf 32 (leNat ((b.drop (12 * j + 4 * k)).take 4))
    (w 0, w 1, w 2))

/-- The field output image: 16 analog codes of 2 bytes, then the digital states, in 64 bytes. -/
def State.outputBytes (s : State) : List Byte :=
  (List.range 16).flatMap (fun n => leBytes 2 (s.aoOut n).1) ++ leBytes 4 s.doOut.toNat ++ List.replicate 28 0#8

/-- The NV records made since the previous unit, after those that no acknowledgement has covered: a kind byte, the offset,
the length, the bytes. -/
def State.nvRecords (s : State) : List Byte :=
  (s.pair.keepWarm ++ s.pair.recWarm).flatMap (fun e => leBytes 1 0 ++ leBytes 4 e.1 ++ leBytes 4 e.2 ++ s.sramGet e.1 e.2)
    ++ (s.pair.keepUser ++ s.pair.recUser).flatMap (fun o => leBytes 1 1 ++ leBytes 4 o ++ leBytes 4 16 ++ s.userUnit o)
    ++ leBytes 1 2 ++ leBytes 4 (s.tallyV 0).toNat

/-- A unit for a committed sett, its CMAC under PAIR_KEY.LINKSLOT at its end. -/
def State.unitBytes (s : State) (f : Sett) : List Byte :=
  let body := bytesAt (tabGet 0#8 f.bytes) 0 (s.nat Reg.SETT_SIZE) ++ bytesAt (tabGet 0#8 s.fbp.applied) 0 s.imgDataSize
    ++ (List.range 64).flatMap (fun n => loopBytes (s.loopRun n)) ++ s.outputBytes ++ s.nvRecords
  body ++ (s.macUnder engPair (s.fld Reg.PAIR_KEY 0 5) body).getD (List.replicate 16 0#8)

/-- Records that no acknowledgement covers stay for the next unit, while the partner may still take them: one that lags by
more than R96 allows joins anew, with a copy of all of them. -/
def State.recKeep (s : State) (epoch : Nat) : State :=
  let lost := s.sett.acked + 4 < epoch
  let pair := { s.pair with
    keepWarm := if lost then [] else s.pair.keepWarm, keepUser := if lost then [] else s.pair.keepUser }
  { s with pair := pair }

/-- For each sett that it commits, the active module sends a unit over the link; the records of the next one begin. -/
def State.mirrorSend (s : State) (f : Sett) : State :=
  if s.pair.role ≠ 1 || s.pairState ≠ 4 then s
  else
    let t := s.recKeep f.epoch
    let s1 := t.send ⟨.mirror, 3, 0, 0, t.unitBytes f⟩
    let pair := { s1.pair with
      keepWarm := s1.pair.keepWarm ++ s1.pair.recWarm, keepUser := s1.pair.keepUser ++ s1.pair.recUser, recWarm := [], recUser := [] }
    { s1 with pair := pair }

/-- The accepted trajectory with its multipliers as bytes: 0 without one, else 1, the number of values and the number of
multipliers, and each value in 16 bytes (the layout is the model's own, log entry 72). -/
def trajBytes (t : Option Traj) : List Byte := match t with
  | none => [0#8]
  | some x => 1#8 :: leBytes 4 x.x.length ++ leBytes 4 x.mult.length ++ (x.x ++ x.mult).flatMap (fun v => leBytes 16 (wrapInt 128 v))

/-- Laps to the next cycle start, as bytes: 0 without one (R399). -/
def State.phaseBytes (s : State) : List Byte := match s.dsp.nextStart with
  | none => [0#8]
  | some l => 1#8 :: leBytes 4 (l - s.lap.count)

/-- The active module sends the dispatch state (R399): the accepted trajectory with its multipliers, the cycle phase, and the
result streams. -/
def State.dispatchSend (s : State) : State :=
  if s.pair.role ≠ 1 || s.pairState ≠ 4 then s
  else s.send ⟨.dispatchState, 3, 0, 0, trajBytes s.dsp.accepted ++ s.phaseBytes ++ s.dsp.header ++ s.dsp.setpoints
    ++ s.dsp.streams.flatMap bytesOfWords⟩

/-- It is sent after each publication, and whenever the accepted trajectory changes; `s` is the state before (R399). -/
def State.dispatchOut (t s : State) : State :=
  t.onlyIf (t.dsp.header != s.dsp.header || t.dsp.accepted != s.dsp.accepted) State.dispatchSend

/-- The standby has acknowledged an epoch (R96); PSYNC is what it reports of its SYNC. -/
def State.mirrorAcked (s : State) (epoch : Nat) (sync : Bool) : State :=
  if s.pairState ≠ 4 then s
  else
    let covers := s.sett.epoch ≤ epoch
    let pair := { s.pair with
      keepWarm := if covers then [] else s.pair.keepWarm, keepUser := if covers then [] else s.pair.keepUser }
    ({ s with sett := { s.sett with acked := max s.sett.acked epoch }, pair := pair }).setBit Reg.PAIR_STATE 6 sync

/-- R96 at the commit of epoch `e`: without an acknowledged epoch of at least e − 2 the pair leaves the synchronised
state, and the active module says so on the link (R401). -/
def State.pairLeavesSync (s : State) (e : Nat) : State :=
  s.onlyIf (s.pairState == 4 && s.pairPsync && s.sett.acked + 2 < e)
    (fun t => (t.setBit Reg.PAIR_STATE 6 false).send ⟨.syncLost, 3, 0, 0, leBytes 8 e⟩)

/-! ## What a standby takes from a unit (R95, R400) -/

/-- Write one plain byte of a USER region. -/
def State.putUserByte (s : State) (x : Nat) (b : Byte) : State :=
  let u := s.userUnit (x - x % 16)
  s.putUserUnit (x - x % 16) (u.take (x % 16) ++ b :: u.drop (x % 16 + 1))

/-- The module raises its own tally 0 to the value that the mirror carries, by one cell write, and never lowers it. -/
def State.tallyRaiseTo (s : State) (n : Nat) : State :=
  if (s.tallyV 0).toNat < n then (s.writeTallyCell 0 (BitVec.ofNat 32 n) goodRb goodRb).1 else s

/-- The metering registers are those of the warm region. -/
def State.mtrFromWarm (s : State) : State :=
  s.mtrPut ((List.range 100).map (s.warmNum 0 12)) ((List.range 48).map (s.warmNum 1200 12)) ((List.range 16).map (s.warmNum 1776 4))

/-- NV records are written to the module's own store. -/
def State.nvTake (s : State) (warm user : List (Nat × Byte)) (tally : Nat) : State :=
  let s1 := s.forEach (warm.filter (fun e => e.1 < 0x100000)) (fun t e => t.sramPut e.1 [e.2])
  let s2 := s1.forEach (user.filter (fun e => isUser (regionOf e.1) && e.1 < 0x400000 && s.pair.nvmask.testBit (regionOf e.1)))
    (fun t e => t.putUserByte e.1 e.2)
  (s2.tallyRaiseTo tally).mtrFromWarm

/-- A mirrored sett: its bytes with FLAGS.MIRRORED set and the header CRC that then holds. -/
def mirroredSett (epoch : Nat) (b : List Byte) : Sett :=
  let h := b.take 0x1C ++ [b.getD 0x1C 0#8 ||| 0x20#8] ++ (b.drop 0x1D).take 31
  ⟨epoch, tabSetList 0#8 [] 0 (headerCrc h ++ b.drop 0x40)⟩

/-- A mirrored sett becomes readable on the standby (R95, R400): it stands for the commit that brings a new key into force
(R420), and its telegrams go out (R340). DESIGN CHOICE: a member that falls from STANDBY to OUT or JOINING goes on with its own
setts from the last mirrored epoch plus 1, without DISCONT; the spec does not say from which epoch (log entry 71). -/
def State.mirrorShow (s : State) (f : Sett) : State :=
  let n (o k : Nat) : Nat := leAt (tabGet 0#8 f.bytes) o k
  let sett := { s.sett with
    epoch := f.epoch, started := true, prevSec := s.sett.lastSec, prevNs := s.sett.lastNs, lastSec := n 0x10 8,
    lastNs := n 0x18 4, timeValid := (n 0x1C 4).testBit 6 }
  ((({ s with sett := sett }).keyCommit).settShow f).telegrams f

/-- The joiner enters STANDBY with SYNC after 8 consecutive units (R403): its program runs no cycles. -/
def State.toStandby (s : State) : State :=
  let s1 := ((s.pairTo 3).setSync true).setFld Reg.PAIR_STATE 16 2 0
  let s2 := (s1.irqPair 4).count Reg.PAIR_CNT_JOIN
  let s3 := { s2 with fbp := { s2.fbp with cycleOpen := false, waiting := none, restart := none } }
  s3.fbpSet (if s.imgRuns then 1 else 0) 0 0

/-- The bytes copied by the bulk copy of a join: the warm region and the mirrored USER regions (Table 5). -/
def State.bulkSize (s : State) : Nat :=
  0x100000 + (((List.range 8).filter (fun r => isUser r && s.pair.nvmask.testBit r)).map regionSize).foldl (· + ·) 0

/-- The bulk copy is complete (R403): the warm region and the mirrored regions hold what the active module holds. -/
def State.bulkDone (s : State) (warm user : List (Nat × Byte)) (tally : Nat) : State :=
  if s.pairState ≠ 2 || s.fld Reg.PAIR_STATE 16 2 ≠ 2 || s.pfailed then s
  else
    let sram : Tab 8 := (warm.filter (fun e => e.1 < 0x100000)).foldl (fun t e => tabSet 0#8 t e.1 e.2) []
    let s1 := if s.frozen then s
      else { s with nv := { s.nv with sram := sram, dirty := List.range 4096 } }
    let s2 := s1.nvTake [] user tally
    let s3 := (s2.wr Reg.PAIR_BULK (BitVec.ofNat 32 s.bulkSize)).setFld Reg.PAIR_STATE 16 2 3
    { s3 with pair := { s3.pair with joined := 0 } }

/-- The unit is acknowledged (R400). `late`: laps from the boundary of its sett to now. -/
def State.unitAck (s : State) (u : MirrorUnit) (late : Nat) : State :=
  let s1 := s.nvTake u.warm u.user u.epochTally.toNat
  let pair := { s1.pair with
    last := some u, lastLap := s.lap.count, lastBound := s.lap.count - late, joined := s.pair.joined + 1 }
  let s2 := ({ s1 with pair := pair }).wr Reg.PAIR_MIRROR_LO (BitVec.ofNat 32 u.epoch.toNat)
  let s3 := s2.send ⟨.mirrorAck, 3, 0, 0, leBytes 8 u.epoch.toNat⟩
  if s.isStandby then s3.mirrorShow (mirroredSett u.epoch.toNat u.sett)
  else s3.onlyIf (s3.pair.joined == 8) State.toStandby

/-- A mirror unit arrives (R400), PAIR_INJ.UNITMAC applied to the comparison of its CMAC. -/
def State.mirrorUnit (s : State) (u : MirrorUnit) (whole macOk : Bool) (late : Nat) : State :=
  if s.pfailed || !(s.isStandby || (s.pairState == 2 && s.fld Reg.PAIR_STATE 16 2 == 3)) then s
  else
    let good := whole && s.injTest Reg.PAIR_INJ 0 macOk
    let s1 := (s.onlyIf whole (fun t => (t.injRan Reg.PAIR_INJ 0).setLink true))
    if good then s1.unitAck u late
    else
      let s2 := (s1.setBit Reg.PAIR_STAT 8 true).count Reg.PAIR_CNT_UNITDROP
      { s2 with pair := { s2.pair with joined := 0 } }

/-- The result in force is one that the partner published (R176): its cycle start lies as many laps back as the mirrored setts
have gone on since START_EPOCH, and DSP_RES_LAST and DSP_RES_CYCLE show it. -/
def State.resultTaken (s : State) : State :=
  let back := s.sett.epoch - s.resNum 0x08 8
  let lap := s.lap.count - back
  let past : Bool := match s.dsp.gridLap with
    | some l => decide (lap < l)
    | none => false
  let age := s.resNum 0x24 2
  let dsp := { s.dsp with resLap := lap, gridSince := past, since := if age = 0xFFFF then s.dsp.since else age }
  let s1 := (({ s with dsp := dsp }).setFld Reg.DSP_RES_LAST 0 3 (s.resNum 0x04 1)).setFld Reg.DSP_RES_LAST 16 16 age
  s1.wr Reg.DSP_RES_CYCLE (BitVec.ofNat 32 (s.resNum 0x00 4))

/-- A module that does not publish shows the step in force of its partner's result (R176): it changes at a lap boundary. -/
def State.stepShow (s : State) : State :=
  if s.isActive || s.dsp.header.isEmpty then s
  else
    let one : Bool := match s.dsp.gridLap with
      | some l => decide (s.dsp.resLap < l)
      | none => false
    (s.setBit Reg.DSP_RES_LAST 4 one).onlyIf (one && !s.bit Reg.DSP_RES_LAST 4) (fun t => t.irqRes 2)

/-- A dispatch state arrives (R399): it comes into force only when it is whole. `toStart`: laps to the next cycle start. -/
def State.dispatchState (s : State) (whole : Bool) (accepted : Option Traj) (toStart : Option Nat) (header setpoints : List Byte)
    (streams : List (List Word)) : State :=
  if !whole || !(s.isStandby || s.pairState == 2) then s
  else
    let dsp := { s.dsp with
      accepted := accepted, nextStart := toStart.map (· + s.lap.count), header := header, setpoints := setpoints, streams := streams }
    (({ s with dsp := dsp }).resultTaken).setLink true

/-! ## Link and synchronisation (R401) -/

/-- The test of the link timeout (R401), PAIR_INJ.LINKTO applied. -/
def State.linkTest (s : State) (expired : Bool) : State :=
  let e := s.injTest Reg.PAIR_INJ 2 expired
  (s.injRan Reg.PAIR_INJ 2).onlyIf e (fun t => t.setLink false)

/-- A MEMBER in OUT begins a join with what the link shows of the partner (R402). -/
def State.joinWith (s : State) (p : Partner) : State :=
  (({ s with pair := { s.pair with partner := some p } }).setLink true).beginJoin

/-- SYNC falls on a STANDBY for a cause that holds: flagged, and the module rejoins under AUTOJOIN by way of OUT. -/
def State.syncLoss (s : State) (cause : SyncLoss) : State :=
  let holds : Bool := match cause with
    | .aged => s.pair.lastLap + s.fld Reg.PAIR_TIMING 16 16 < s.lap.count
    | _ => true
  if !s.isStandby || !s.pairSync || !holds then s
  else
    let s1 := ((s.setSync false).setBit Reg.PAIR_STAT 2 true).count Reg.PAIR_CNT_SYNCLOSS
    s1.onlyIf (s1.bit Reg.PAIR_CTRL 8) (fun t => (t.pairTo 1).beginJoin)

/-! ## Entering ACTIVE (R393, R394, R404 to R406) -/

/-- Eₘ of R97 and R394, and the laps since it came, counted to the boundary that comes. -/
def State.mirrorEpoch (s : State) : Option (Nat × Nat) :=
  let unit := s.pair.last.map (fun u => (u.epoch.toNat, s.lap.count + 1 - s.pair.lastLap))
  if s.pairState = 2 && ((unit.map (·.1)).getD 0 < s.pair.partnerEpoch) then
    some (s.pair.partnerEpoch, s.lap.count + 1 - s.pair.partnerLap)
  else unit

/-- R404 step 1 with R394: the epoch tally is raised, and the first commit as active takes an epoch of at least the new
block's start and the bound of R97. -/
def State.takeEpoch (s : State) : State :=
  let m := s.mirrorEpoch
  let up := (s.tallyV 0).toNat + 4
  let raised := if s.pairState = 2 then max up ((m.map (·.1)).getD 0 / 2 ^ 20 + 4) else up
  let s1 := s.tallyRaiseTo raised
  let bound : Nat := match m with
    | some (e, l) => e + ceilDiv (5 * l) 3 + 4
    | none => 0
  { s1 with sett := { s1.sett with jumpTo := some (max ((s1.tallyV 0).toNat * 2 ^ 20) bound) } }

/-- R404 step 2: the stage states, instance data and output image of the last acknowledged unit. -/
def State.takeUnit (s : State) (u : MirrorUnit) : State :=
  let s1 := s.forEach (List.range s.nloop) (fun t n =>
    t.putLoop n ⟨false, none, (loopStages ((u.loopStates.drop (96 * n)).take 96)).take (t.runImg.loop n).nstage, [], []⟩)
  let data := tabSetList 0#8 [] 0 (u.progData.take s.imgDataSize)
  let s2 := { s1 with fbp := { s1.fbp with data := data, applied := data } }
  let ao (n : Nat) : Nat := leNat ((u.outputs.drop (2 * n)).take 2)
  let dos := leNat ((u.outputs.drop 32).take 4)
  let field := { s2.field with
    aoDrv := (List.range 16).foldl (fun l n => assocPut l n (ao n)) s2.field.aoDrv,
    doImage := (List.range 16).foldl (fun l n => assocPut l n (dos.testBit n)) s2.field.doImage }
  { s2 with field := field }

/-- R404 step 5 and R105: the first cycle starts at the next start that the phase of the dispatch state implies. -/
def State.takeDispatch (s : State) : State :=
  let next := s.dsp.nextStart.map (fun l =>
    let k := max 1 (s.fld Reg.DSP_CYCLE 0 16)
    l + ceilDiv (s.lap.count + 1 - l) k * k)
  { s with dsp := { s.dsp with nextStart := next } }

/-- R404 steps 2, 3 and 5, on a module with SYNC. -/
def State.takeWarm (s : State) : State := match s.pair.last with
  | none => s
  | some u =>
    let s1 := s.takeUnit u
    let s2 := if u.progRuns then s1.fbpRun else s1
    ({ s2 with fbp := { s2.fbp with safeHold := false } }).takeDispatch

/-- R405: a module without SYNC starts as at a start; on one that was joining, the blocks that keep warm data take what the
warm region holds, or treat it as failed while the bulk copy is incomplete (R394). -/
def State.takeCold (s : State) : State :=
  let joining := s.pairState == 2
  let bulk := joining && s.fld Reg.PAIR_STATE 16 2 != 3
  let s1 := s.onlyIf bulk (fun t => (t.setBit Reg.NVS_WARM 0 false).setBit Reg.NVS_STAT 0 true)
  let s2 := s1.onlyIf joining State.mtrRestore
  let s3 := ((s2.loopsStart).loadFbprog (if bulk then [] else s2.sramGet retainWarm s2.imgRetain)).fbpStart s2.boot.control
  { s3 with dsp := { s3.dsp with accepted := none, nextStart := none } }

/-- A join that a takeover ends is recorded as abandoned (R394). -/
def State.joinAbandon (s : State) : State :=
  s.onlyIf (s.pairState == 2) (fun t => ((t.setFld Reg.PAIR_STATE 24 3 7).setBit Reg.PAIR_STAT 5 true).count Reg.PAIR_CNT_JOINFAIL)

/-- R406: UNMEAS takes an estimate for each lap from the boundary of the last acknowledged unit up to and including the own
first lap as active, at most 250, and a spoor event records them. -/
def State.takeUnmeas (s : State) : State := match s.pair.last with
  | none => s
  | some u =>
    let laps := min 250 (s.lap.count + 2 - s.pair.lastBound)
    let s1 := s.forEach (List.range 4) (fun t f =>
      t.forEach (List.range 3) (fun v p => v.addEnergy f 24 (laps * (u.lapEnergy.getD (3 * f + p) 0).natAbs)))
    s1.raiseEv 0x1401 2 (leBytes 2 laps)

/-- At a lap boundary a MEMBER with a fresh grant enters ACTIVE (R393, R394, R404, R405); a write set that it holds is discarded
(R91). -/
def State.takeActive (s : State) : State :=
  if s.pfailed || !s.mayTake || !(s.pairState == 1 || s.pairState == 2 || s.pairState == 3) then s
  else
    let s1 := s.takeEpoch
    let s2 := if s.pairSync then s1.takeWarm else s1.takeCold
    let s3 := (s2.joinAbandon.setFld Reg.PAIR_STATE 16 2 0).takeUnmeas
    let pair := { s3.pair with activeLaps := 0, recWarm := [], recUser := [], keepWarm := [], keepUser := [], yielded := false, handover := false }
    let s4 := (((({ s3 with pair := pair }).wsResult wsSwitchover).setSync false).pairTo 4).setLatch
    (s4.setBit Reg.PAIR_STAT 0 true).count Reg.PAIR_CNT_TOOK

/-! ## Leaving ACTIVE (R395) -/

/-- A module leaves ACTIVE at a lap boundary: the solve is aborted, the write set discarded, the latch cleared. -/
def State.leaveActive (s : State) : State :=
  if s.pair.role ≠ 1 || s.pairState ≠ 4 || !s.mustLeave then s
  else s.gating (fun s =>
    let s1 := (s.cycleAbort).wsResult wsSwitchover
    let pair := { s1.pair with latch := false, handover := false, yielded := false, leftSeq := some (s.rd Reg.PAIR_GRANTSEQ) }
    let s2 := ((({ s1 with pair := pair }).setBit Reg.PAIR_STATE 6 false).pairTo 1).setBit Reg.PAIR_STAT 1 true
    s2.count Reg.PAIR_CNT_LOST)

/-! ## Heartbeats by lap, and writes -/

/-- A heartbeat goes out in every HB-th lap (R391). -/
def State.heartbeatLap (s : State) : State :=
  if s.lap.count % max 1 (s.fld Reg.PAIR_TIMING 0 8) = 0 then s.sendHeartbeat else s

/-- A refused write of the PAIR block. -/
def State.pairRefused (s : State) : State := (s.count Reg.PAIR_CNT_REFUSE).setBit Reg.PAIR_STAT 9 true

/-- The judgement of a write in the PAIR block. -/
def State.pairDeny (s : State) (a : Nat) (v : Word) : Option Status :=
  if a = Reg.PAIR_CFG then
    (if bitsOf v 0 2 = 3 || (bitsOf v 16 16 = 0 && bitsOf v 0 2 != 0) then some .range else none)
  else if a = Reg.PAIR_PORTS then
    let p := bitsOf v 0 16
    (if p < 1024 || p = s.fld Reg.HWP_CFG 0 16 || (s.imgRuns && p = s.teleUdp) || p = 319 || p = 320 || bitsOf v 16 2 = 0
      then some .range else none)
  else if a = Reg.PAIR_TIMING then
    (if bitsOf v 0 8 < 1 || 50 < bitsOf v 0 8 || bitsOf v 8 8 < 1 || 50 < bitsOf v 8 8 || bitsOf v 16 16 < 1 || 1000 < bitsOf v 16 16
      then some .range else none)
  else if a = Reg.PAIR_CTRL then
    (if (bitOf v 0 && s.pairState != 1) || (bitOf v 1 && s.pairState != 4) then some .locked else none)
  else if a = Reg.PAIR_WIT_CFG then (if bitsOf v 0 8 < 2 || 250 < bitsOf v 0 8 then some .range else none)
  else if a = Reg.PAIR_WIT_CTRL then (if bitOf v 0 && s.pair.role != 2 then some .locked else none)
  else none

/-- A write of PAIR_CTRL: AUTOJOIN, JOIN and HANDOVER. -/
def State.pairCtrl (s : State) (v : Word) : State :=
  let s1 := s.setBit Reg.PAIR_CTRL 8 (bitOf v 8)
  let s2 := if bitOf v 1 then { s1 with pair := { s1.pair with handover := true } } else s1
  s2.onlyIf (bitOf v 0) State.beginJoin

/-- A write of PAIR_WIT_CTRL: MOVE. -/
def State.witCtrl (s : State) (v : Word) : State :=
  if bitOf v 0 then { s with pair := { s.pair with moveAsked := true } } else s

/-- ROLE and SIDE are read at start (R386): a MEMBER starts in OUT. -/
def State.pairStart (s : State) : State :=
  let role := s.fld Reg.PAIR_CFG 0 2
  let pair := { s.pair with
    role := role, sideB := s.bit Reg.PAIR_CFG 4, latch := false, grantSide := none, leftSeq := none, owlLap := s.lap.count,
    hbSeq := 0#32, handover := false, partner := none, last := none, joined := 0, partnerEpoch := 0, activeLaps := 0,
    recWarm := [], recUser := [], keepWarm := [], keepUser := [], yielded := false, hearA := none, hearB := none,
    witStart := s.lap.count, moveTo := none, moveAsked := false, lowAt := s.now }
  ({ s with pair := pair }).setFld Reg.PAIR_STATE 0 3 (match role with | 1 => 1 | 2 => 5 | _ => 0)

/-- PAIR_UNIT of the running image: the bytes of a unit without its NV records (R398). -/
def State.showPairUnit (s : State) : State :=
  s.wr Reg.PAIR_UNIT (if s.imgRuns then BitVec.ofNat 32 (s.nat Reg.SETT_SIZE + s.imgDataSize + 6144 + 64 + 16) else 0#32)

end Sys2Proof.Machine
end

