-- ==== Sys2Proof/Machine/PtpOps.lean ====
section
/-!
DEFINITION. Machine/PtpOps.lean: the PTP clock of spec/14_network_time.md: its value and rate (R353, R354), the messages
of its two domains (R350, R351, R356 to R359), and its states, servo and ramps (R359 to R367). Message layouts are those
of IEEE 1588-2019, to which the spec refers.
-/

namespace Sys2Proof.Machine

/-! ## The clock (R353, R354) -/

/-- The oscillator's instant, in ns, `within` ns after the present tick's beginning. -/
def State.oscAt (s : State) (within : Nat) : Rat := s.tscNs + (s.lap.tick * s.lastLap : Rat) / 4096 + within

/-- The sum of the three terms of RATE in ppb (R354). -/
def State.ptpSum (s : State) : Rat := s.ptp.integ + s.ptp.prop + s.ptp.rampTerm

/-- RATE shown and in force: the sum of the terms in 10^-12, clamped to ±1,000 ppm; below 10^-12 its rounding is open. -/
def State.ptpRate (s : State) : State :=
  let r := s.roundOpen (s.ptpSum * 1000)
  r.2.wr Reg.PTP_RATE (wordOfInt (clampInt (-1000000000) 1000000000 r.1))

/-- RATE in force, ppb. -/
def State.rateNow (s : State) : Rat := (s.int Reg.PTP_RATE : Rat) / 1000

/-- Seconds wrap at 2^48 (R353). -/
def ptpWrap (x : Rat) : Rat :=
  let m : Rat := 281474976710656000000000
  if x < 0 then x + m else if m ≤ x then x - m else x

/-- The clock after `dt` ns of the oscillator at the rate in force. -/
def State.clkAfter (s : State) (dt : Rat) : Rat := ptpWrap (s.ptp.clk + dt * (1 + s.rateNow / 1000000000))

/-- What the ramp term adds to the clock, ns per ns: the rate in force less the servo's terms (R354). -/
def State.rampRate (s : State) : Rat := (s.rateNow - s.ptp.integ - s.ptp.prop) / 1000000000

/-- Advance the clock by `dt` ns within one rate. -/
def State.clkRun (s : State) (dt : Rat) : State :=
  let ramp := if s.ptp.rampTerm = 0 then s.ptp.ramp else s.ptp.ramp + dt * s.rampRate
  { s with ptp := { s.ptp with clk := s.clkAfter dt, at_ := s.ptp.at_ + dt, ramp := ramp } }

/-- The ramp ends (R362). -/
def State.rampEnd (s : State) : State :=
  let s1 := { s with ptp := { s.ptp with ramp := 0, rampTerm := 0 } }
  (s1.ptpRate).setBit Reg.PTP_STATE 4 false

/-- Bring the clock to the oscillator's instant `t`; a ramp that reaches 0 on the way ends there (R362). -/
def State.ptpTo (s : State) (t : Rat) : State :=
  let dt := if t < s.ptp.at_ then 0 else t - s.ptp.at_
  if s.ptp.rampTerm = 0 || s.rampRate = 0 then s.clkRun dt
  else
    let left := -(s.ptp.ramp / s.rampRate)
    if 0 ≤ left && left ≤ dt then ((s.clkRun left).rampEnd).clkRun (dt - left) else s.clkRun dt

/-- Bring the clock to the present tick. -/
def State.ptpSync (s : State) : State := s.ptpTo (s.oscAt 0)

/-- The ramp ends within the present tick: what remains of it is at most what it adds in one tick (R362). -/
def State.rampFinish (s : State) : State :=
  let s1 := s.ptpSync
  let left := s1.ptp.ramp * s1.ptp.ramp
  let step := s1.rampRate * s1.lastLap / 4096
  if s1.ptp.rampTerm != 0 && decide (left ≤ step * step) then s1.rampEnd else s1

/-- The clock's value `within` ns after the present tick's beginning, whole ns: a message stamp's resolution (R356). -/
def State.ptpStamp (s : State) (within : Nat) : Rat := ((s.ptpTo (s.oscAt within)).ptp.clk.floor : Rat)

/-- Seconds, nanoseconds and 2^-16 ns of the clock. -/
def State.ptpSec (s : State) : Nat := s.ptp.clk.floor.toNat / 1000000000
def State.ptpNs (s : State) : Nat := s.ptp.clk.floor.toNat % 1000000000
def State.ptpFrac (s : State) : Nat := (s.ptp.clk * 65536).floor.toNat % 65536

/-- A step of the clock (R360, R366). -/
def State.ptpStepBy (s : State) (d : Rat) : State :=
  let s1 := { s with ptp := { s.ptp with clk := ptpWrap (s.ptp.clk + d), moved := true } }
  (s1.setBit Reg.PTP_STAT 4 true).count Reg.PTP_CNT_STEP

/-! ## Domains -/

/-- Domain `d`. -/
def State.dom (s : State) (d : Nat) : PtpDomain := if d = 0 then s.ptp.dom0 else s.ptp.dom1

/-- STATE of a domain (PTP_DOM_d_STATE). -/
def State.domState (s : State) (d : Nat) : Nat :=
  if !s.bit (Reg.PTP_DOM_d_CFG d) 8 then 0
  else if (s.dom d).qual then 3 else if (s.dom d).master.isSome then 2 else 1

/-- Keep a domain, and show its STATE and its master's port. -/
def State.putDom (s : State) (d : Nat) (x : PtpDomain) : State :=
  let ptp := if d = 0 then { s.ptp with dom0 := x } else { s.ptp with dom1 := x }
  let s1 := { s with ptp := ptp }
  let s2 := s1.setFld (Reg.PTP_DOM_d_STATE d) 0 2 (s1.domState d)
  match x.master with
  | some m => s2.setFld (Reg.PTP_DOM_d_STATE d) 8 1 m.port
  | none => s2

/-- STATE of the clock (R360), the leading domain, LOCK. -/
def State.ptpState (s : State) : Nat := s.fld Reg.PTP_STATE 0 2
def State.lead (s : State) : Nat := s.fld Reg.PTP_STATE 2 1
def State.ptpLock (s : State) : Bool := s.bit Reg.PTP_STATE 3

/-- A domain leads: the clock is LOCKED to it. -/
def State.leads (s : State) (d : Nat) : Bool := s.ptpState == 2 && s.lead == d

/-- LOCK changes (PTP_IRQ.LOCK; its fall sets PTP_STAT.UNLOCK). -/
def State.setLock (s : State) (b : Bool) : State :=
  if s.ptpLock = b then s
  else ((s.setBit Reg.PTP_STATE 3 b).irqPtp 1).onlyIf (!b) (fun s => (s.setBit Reg.PTP_STAT 2 true).netLost)

/-- The mean path delay D of a domain (R358). -/
def State.meanDelay (s : State) (d : Nat) : Option Rat :=
  let l := (s.dom d).delays.take (s.fld Reg.PTP_FILT 0 6)
  if l.isEmpty then none else some (l.foldl (· + ·) 0 / (l.length : Rat))

/-- The preferred domain, and the other one of a domain. -/
def State.pref (s : State) : Nat := s.fld Reg.PTP_CTRL 3 1
def otherDom (d : Nat) : Nat := 1 - d

/-- The latest offset sample of a domain, ns. -/
def State.lastOfs (s : State) (d : Nat) : Rat := match (s.dom d).samples with
  | x :: _ => x.1
  | [] => 0

/-- A ramp to a domain starts (R362). -/
def State.rampStart (s : State) (d : Nat) : State :=
  let r := s.lastOfs d
  let slew : Rat := s.nat Reg.PTP_SLEW
  let term : Rat := if r = 0 then 0 else if 0 < r then -slew else slew
  let s1 := { s with ptp := { s.ptp with ramp := r, rampTerm := term, moved := true } }
  (s1.ptpRate).setBit Reg.PTP_STATE 4 (r != 0)

/-- The leading domain's currentUtcOffset has changed to word `w`: a valid one is copied into RTC_TAIOFS (R454). -/
def State.taiCopy (s : State) (w : Word) : State :=
  s.onlyIf (bitOf w 16) (fun s => s.setFld Reg.RTC_TAIOFS 0 16 (bitsOf w 0 16))

/-- The lead passes from one domain to another, or from none: its currentUtcOffset may change with it (R454). -/
def State.taiLead (s : State) (d : Nat) : State :=
  let w := s.rd (Reg.PTP_DOM_d_UTCOFS d)
  s.onlyIf (s.ptpState != 2 || s.lead != d) (fun s => s.taiCopy w)

/-- A domain takes the lead by a ramp; the clock is LOCKED (R362). -/
def State.leadBy (s : State) (d : Nat) : State :=
  let s1 := ((s.taiLead d).setFld Reg.PTP_STATE 0 2 2).setFld Reg.PTP_STATE 2 1 d
  let run := if s.ptpState = 2 then s.ptp.lockRun else 0
  ({ s1 with ptp := { s1.ptp with lockRun := run, gmWait := false } }).rampStart d

/-- RAMP in whole ns, its rounding left open. -/
def State.rampWord (s : State) : Word × State := let r := s.roundOpen s.ptp.ramp; (satWord r.1, r.2)

/-- The flags and counts of a switch or return (R363, R365). -/
def State.switchMarks (s : State) : State := ((s.setBit Reg.PTP_STAT 0 true).count Reg.PTP_CNT_SWITCH).irqPtp 0

/-- The other domain leads by a ramp, and the switch is recorded with its LOSS cause (R363). -/
def State.switchTo (s : State) (d loss : Nat) : State :=
  let s1 := (s.leadBy d).switchMarks
  let r := s1.rampWord
  r.2.raiseEv 0x1201 2 (leBytes 1 d ++ leBytes 1 loss ++ [0#8, 0#8] ++ leBytes 4 r.1.toNat)

/-- The clock enters HOLDOVER (R360, R363, R366): locked until PTP_HOLD.S has passed. -/
def State.holdover (s : State) : State :=
  let s1 := { s with ptp := { s.ptp with prop := 0, holdAt := s.ptp.at_, gmWait := false } }
  let s2 := (((s1.ptpRate).setFld Reg.PTP_STATE 0 2 3).setBit Reg.PTP_STAT 1 true).count Reg.PTP_CNT_HOLDOVER
  (s2.irqPtp 2).setLock true

/-- In ACQUIRE the clock steps once to a qualified domain's time, which leads (R360). -/
def State.acquireStep (s : State) (d : Nat) : State :=
  let s1 := s.ptpStepBy (-(s.lastOfs d))
  let s2 := ((s1.taiLead d).setFld Reg.PTP_STATE 0 2 2).setFld Reg.PTP_STATE 2 1 d
  { s2 with ptp := { s2.ptp with lockRun := 0, gmWait := false } }

/-- ACQUIRE with a domain that is already QUALIFIED, PREF first (R360). -/
def State.acquire (s : State) : State :=
  if (s.dom s.pref).qual then s.acquireStep s.pref
  else if (s.dom (otherDom s.pref)).qual then s.acquireStep (otherDom s.pref) else s

/-- Enter ACQUIRE (R360). -/
def State.toAcquire (s : State) : State := ((s.setFld Reg.PTP_STATE 0 2 1).setLock false).acquire

/-- Enter FREE (R360): the servo is off and RATE stays as it stands until firmware writes it. -/
def State.toFree (s : State) : State :=
  let s1 := { s with ptp := { s.ptp with prop := 0, ramp := 0, rampTerm := 0, gmWait := false } }
  ((s1.setFld Reg.PTP_STATE 0 2 0).setBit Reg.PTP_STATE 4 false).setLock false

/-- A domain gains QUALIFIED (R359, R360, R364). -/
def State.qualify (s : State) (d : Nat) : State :=
  let s1 := (s.putDom d { s.dom d with qual := true, qualAt := s.ptp.at_, beyond := 0, jumped := false }).irqPtp 3
  if s1.ptpState = 1 then s1.acquireStep d
  else if s1.ptpState = 3 then s1.leadBy d
  else if s1.leads d && s1.ptp.gmWait then s1.leadBy d
  else s1

/-- What the loss of the leading domain brings (R363). -/
def State.leadLost (s : State) (d loss : Nat) : State :=
  if (s.dom (otherDom d)).qual then s.switchTo (otherDom d) loss
  else if loss = 3 then { s with ptp := { s.ptp with gmWait := true } }
  else s.holdover

/-- A domain meets an event of R359: LOSS is recorded, and a QUALIFIED domain loses QUALIFIED. -/
def State.domLoss (s : State) (d loss : Nat) : State :=
  let s1 := s.setFld (Reg.PTP_DOM_d_STATE d) 4 3 loss
  if (s.dom d).qual then
    let s2 := (s1.putDom d { s1.dom d with qual := false }).irqPtp 3
    let s3 := s2.onlyIf (loss = 5) (fun s => s.setBit Reg.PTP_STAT 3 true)
    s3.onlyIf (s.leads d) (fun s => s.leadLost d loss)
  else s1.onlyIf (s.leads d && s.ptp.gmWait && loss != 3) (fun s => s.leadLost d loss)

/-! ## Offset samples (R358, R359, R361, R366) -/

/-- Magnitude of a rational. -/
def absQ (q : Rat) : Rat := if q < 0 then -q else q

/-- The last samples meet the conditions of R359. -/
def State.samplesGood (s : State) (d : Nat) : Bool :=
  let l := (s.dom d).samples
  let thr : Rat := s.nat Reg.PTP_LOCKTHR
  let lim : Rat := s.nat Reg.PTP_STEPLIM
  l.length == 8 && l.all (fun a => l.all (fun b => decide (absQ (a.1 - b.1) ≤ thr)))
    && (s.ptpState == 1 || l.all (fun a => decide (absQ a.2 ≤ lim)))

/-- The servo (R361): e in ns, KP and KI in 2^-16 ppb per ns; the integral term within ±500 ppm, the proportional within
±SLEW. -/
def State.servo (s : State) (e : Rat) : State :=
  let kp : Rat := (s.fld Reg.PTP_SERVO 0 16 : Nat) / 65536
  let ki : Rat := (s.fld Reg.PTP_SERVO 16 16 : Nat) / 65536
  let slew : Rat := s.nat Reg.PTP_SLEW
  let lim (b x : Rat) : Rat := if x < -b then -b else if b < x then b else x
  let i := lim 500000 (s.ptp.integ - ki * e)
  let p := lim slew (-(kp * e))
  ({ s with ptp := { s.ptp with integ := i, prop := p } }).ptpRate

/-- LOCK in state LOCKED: e within LOCKTHR for 8 consecutive samples (R366). -/
def State.lockCount (s : State) (e : Rat) : State :=
  let n := if absQ e ≤ (s.nat Reg.PTP_LOCKTHR : Rat) then s.ptp.lockRun + 1 else 0
  ({ s with ptp := { s.ptp with lockRun := n } }).onlyIf (8 ≤ n) (fun s => s.setLock true)

/-- An offset sample of a domain, exact in ns (R358): kept, compared with UNLOCKTHR (PTP_INJ.OFSCHK inverts that of the
leading domain), and used. -/
def State.ptpSample (s : State) (d : Nat) (ofs : Rat) : State :=
  let e := ofs - s.ptp.ramp
  let leads := s.leads d
  let raw := decide ((s.nat Reg.PTP_UNLOCKTHR : Rat) < absQ e)
  let past := if leads then s.injTest Reg.PTP_INJ 1 raw else raw
  let s0 := s.onlyIf leads (fun s => s.injRan Reg.PTP_INJ 1)
  let x := s.dom d
  let jump := decide ((s.nat Reg.PTP_STEPLIM : Rat) < absQ e)
  let x1 := { x with samples := ((ofs, e) :: x.samples).take 8,
                     beyond := (if past then x.beyond + 1 else 0), jumped := past && (x.jumped || jump) }
  let r := s0.roundOpen ofs
  let s1 := (r.2.putDom d x1).wr (Reg.PTP_DOM_d_OFS_NS d) (satWord r.1)
  if x.qual && past && 4 ≤ x1.beyond then
    (s1.putDom d { x1 with beyond := 0, jumped := false }).domLoss d (if x1.jumped then 5 else 4)
  else if !x.qual then (if s1.samplesGood d then s1.qualify d else s1)
  else if leads && !past then (s1.servo e).lockCount e
  else s1.onlyIf leads (fun s => { s with ptp := { s.ptp with lockRun := 0 } })

/-- A complete Sync gives t2 − t1 − cS, and an offset sample once D is known (R358); the sample is computed to 2^-16 ns,
its rounding open. -/
def State.ptpDiff (s : State) (d : Nat) (diff : Rat) : State :=
  let s1 := s.putDom d { s.dom d with lastDiff := some diff, twoStep := none }
  match s1.meanDelay d with
  | none => s1
  | some md =>
    let r := s1.roundOpen ((diff - md) * 65536)
    r.2.ptpSample d ((r.1 : Rat) / 65536)

/-! ## Messages (R349 to R352) -/

/-- A field of a message, big-endian. -/
def ptpNum (m : List Byte) (o n : Nat) : Nat := beNat ((m.drop o).take n)

/-- A signed byte of a message. -/
def ptpLog (m : List Byte) (o : Nat) : Int := signedOf 8 (ptpNum m o 1)

/-- A timestamp of a message, ns. -/
def ptpTime (m : List Byte) (o : Nat) : Rat := ptpNum m o 6 * 1000000000 + ptpNum m (o + 6) 4

/-- The correctionField, ns. -/
def ptpCorr (m : List Byte) : Rat := (signedOf 64 (ptpNum m 8 8) : Rat) / 65536

/-- messageType, and the sourcePortIdentity. -/
def ptpType (m : List Byte) : Nat := ptpNum m 0 1 % 16
def ptpIdent (m : List Byte) : List Byte := (m.drop 20).take 10

/-- Bytes of each accepted message type. -/
def ptpLen : Nat → Nat
  | 0 => 44 | 8 => 44 | 9 => 54 | 11 => 64 | _ => 0

/-- Table 1 accepts the message: version 2 with minor version 0 or 1, majorSdoId 0, its type and its intervals; and its
messageLength is that of the payload less trailing bytes (R351). -/
def ptpAccepted (m : List Byte) (kind : Nat) : Bool :=
  let v := ptpNum m 1 1
  34 ≤ m.length && ptpType m == kind && ptpNum m 0 1 / 16 == 0 && v % 16 == 2 && v / 16 ≤ 1
    && ptpLen kind ≤ ptpNum m 2 2 && ptpNum m 2 2 ≤ m.length
    && (kind != 0 || (-4 ≤ ptpLog m 33 && ptpLog m 33 ≤ 1)) && (kind != 9 || (-4 ≤ ptpLog m 33 && ptpLog m 33 ≤ 5))

/-- The enabled domain that a message's domainNumber matches. -/
def State.ptpDomOf (s : State) (m : List Byte) : Option Nat :=
  [0, 1].find? (fun d => s.bit (Reg.PTP_DOM_d_CFG d) 8 && s.fld (Reg.PTP_DOM_d_CFG d) 0 8 == ptpNum m 4 1)

/-- A message arrives on a port that carries PTP (R350): one of no enabled domain is counted, one that its domain does
not accept on this port or of this kind is dropped, and else it acts. -/
def State.ptpMessage (s : State) (p : Nat) (m : List Byte) (kind : Nat) (f : Nat → State → State) : State :=
  s.ethTake p (fun s =>
    if p = 2 || !s.bit (Reg.ETH_PORT_p_CFG p) 2 || !s.bit Reg.PTP_CTRL 0 then s
    else
      let s := (s.charge classNet resFab 1).ptpSync
      match s.ptpDomOf m with
      | none => s.count Reg.PTP_CNT_NODOM
      | some d =>
        if !(s.fld (Reg.PTP_DOM_d_CFG d) 9 2).testBit p then s
        else if ptpAccepted m kind then f d s else s.count (Reg.PTP_DOM_d_CNT_DROP d))

/-- The message comes from the domain's selected master (R351). -/
def State.fromMaster (s : State) (d p : Nat) (m : List Byte) : Bool := match (s.dom d).master with
  | some x => x.ident == ptpIdent m && x.port == p
  | none => false

/-- A message that only the selected master may send; any other is dropped. -/
def State.ifMaster (s : State) (d p : Nat) (m : List Byte) (f : State → State) : State :=
  if s.fromMaster d p m then f s else s.count (Reg.PTP_DOM_d_CNT_DROP d)

/-- 2^k seconds in ns. -/
def pow2Sec (k : Int) : Rat := (2 : Rat) ^ k * 1000000000

/-- Lists of numbers in dictionary order. -/
def listLt : List Nat → List Nat → Bool
  | a :: s, b :: t => a < b || (a == b && listLt s t)
  | [], _ :: _ => true
  | _, [] => false

/-- One announced data set is better than another (clause 9.3): of one grandmaster the nearer, else the better one. -/
def betterMaster (a b : PtpMaster) : Bool :=
  if a.gm = b.gm then listLt (a.steps :: a.ident.map (·.toNat) ++ [a.port]) (b.steps :: b.ident.map (·.toNat) ++ [b.port])
  else listLt (a.key ++ [a.gm]) (b.key ++ [b.gm])

/-- A heard master counts when two of its Announces lie in the last four announce intervals, and it is less than 255
steps away. -/
def PtpMaster.counts (m : PtpMaster) (now : Rat) : Bool :=
  2 ≤ (m.heard.filter (fun t => decide (now - t ≤ 4 * pow2Sec m.logAnn))).length && m.steps < 255

/-- The best of the masters that count. -/
def bestMaster (now : Rat) (l : List PtpMaster) : Option PtpMaster :=
  (l.filter (fun m => m.counts now)).foldl (fun b m => match b with
    | none => some m
    | some x => if betterMaster m x then some m else some x) none

/-- The master that an Announce describes. -/
def announced (now : Rat) (p : Nat) (m : List Byte) (before : List Rat) : PtpMaster :=
  let utc := ptpNum m 44 2 + (ptpNum m 7 1 / 4 % 2) * 2 ^ 16 + (ptpNum m 7 1 % 2) * 2 ^ 17 + (ptpNum m 7 1 / 2 % 2) * 2 ^ 18
  ⟨ptpIdent m, p, [ptpNum m 47 1, ptpNum m 48 1, ptpNum m 49 1, ptpNum m 50 2, ptpNum m 52 1], ptpNum m 53 8,
    ptpNum m 61 2, ptpLog m 33, BitVec.ofNat 32 utc, (now :: before).take 8⟩

/-- The selected master's registers: grandmasterIdentity and currentUtcOffset; a valid offset of the leading domain that
changes is copied into RTC_TAIOFS (R454). -/
def State.showMaster (s : State) (d : Nat) (m : PtpMaster) : State :=
  let s1 := (s.wr (Reg.PTP_DOM_d_GM_LO d) (BitVec.ofNat 32 m.gm)).wr (Reg.PTP_DOM_d_GM_HI d) (BitVec.ofNat 32 (m.gm / 2 ^ 32))
  let s2 := s1.wr (Reg.PTP_DOM_d_UTCOFS d) m.utc
  let old := s.rd (Reg.PTP_DOM_d_UTCOFS d)
  s2.onlyIf (s.leads d && (!bitOf old 16 || bitsOf old 0 16 != bitsOf m.utc 0 16)) (fun s => s.taiCopy m.utc)

/-- The best master algorithm's result for a domain (R359): a change of master clears the path delay filter, and another
grandmaster is a GMCHANGE. -/
def State.selectMaster (s : State) (d : Nat) : State :=
  let x := s.dom d
  match bestMaster s.ptp.at_ x.heard with
  | none => s
  | some b =>
    let same := match x.master with
      | some m => m.ident == b.ident && m.port == b.port
      | none => false
    let gmNew := match x.master with
      | some m => m.gm != b.gm
      | none => false
    let x1 := if same then { x with master := some b }
      else { x with master := some b, delays := [], twoStep := none, lastDiff := none, dreq := none,
                    annAt := b.heard.headD s.ptp.at_, syncAt := s.ptp.at_ }
    let s1 := (s.putDom d x1).showMaster d b
    s1.onlyIf gmNew (fun s => s.domLoss d 3)

/-- An Announce (R359). -/
def State.ptpAnnounce (s : State) (p : Nat) (m : List Byte) : State :=
  s.ptpMessage p m 11 (fun d s =>
    let x := s.dom d
    let old := x.heard.find? (fun h => h.ident == ptpIdent m && h.port == p)
    let a := announced s.ptp.at_ p m ((old.map (·.heard)).getD [])
    let rest := x.heard.filter (fun h => !(h.ident == ptpIdent m && h.port == p))
    let annAt := if s.fromMaster d p m then s.ptp.at_ else x.annAt
    ((s.putDom d { x with heard := a :: rest, annAt := annAt }).count (Reg.PTP_DOM_d_CNT_ANN d)).selectMaster d)

/-- Latency correction of a port at its link speed (R356). -/
def State.ingress (s : State) (p : Nat) : Rat :=
  if s.fld (Reg.ETH_PORT_p_LINK p) 1 2 = 2 then s.fld (Reg.PTP_PORT_p_ING1G p) 0 16 else s.fld (Reg.PTP_PORT_p_ING100 p) 0 16
def State.egress (s : State) (p : Nat) : Rat :=
  if s.fld (Reg.ETH_PORT_p_LINK p) 1 2 = 2 then s.fld (Reg.PTP_PORT_p_EGR1G p) 0 16 else s.fld (Reg.PTP_PORT_p_EGR100 p) 0 16

/-- A Sync (R358), stamped `within` ns after the present tick's beginning. -/
def State.ptpSyncMsg (s : State) (p : Nat) (m : List Byte) (within : Nat) : State :=
  s.ptpMessage p m 0 (fun d s => s.ifMaster d p m (fun s =>
    let t2 := s.ptpStamp within - s.ingress p
    let x := { s.dom d with syncAt := s.ptp.at_ }
    let s1 := ((s.putDom d x).count (Reg.PTP_DOM_d_CNT_SYNC d)).setFld (Reg.PTP_DOM_d_STATE d) 16 8 (ptpNum m 33 1)
    if (ptpNum m 6 1).testBit 1 then s1.putDom d { x with twoStep := some (ptpNum m 30 2, t2, ptpCorr m) }
    else s1.ptpDiff d (t2 - ptpTime m 34 - ptpCorr m)))

/-- A path delay sample of a domain (R358): above DELAYMAX it is discarded, else kept, and D shown. -/
def State.delaySample (s : State) (d : Nat) (v : Rat) : State :=
  if (s.nat Reg.PTP_DELAYMAX : Rat) < v then s.count (Reg.PTP_DOM_d_CNT_DELAYREJ d)
  else
    let s1 := s.putDom d { s.dom d with delays := (v :: (s.dom d).delays).take 32 }
    let r := s1.roundOpen ((s1.meanDelay d).getD 0)
    r.2.wr (Reg.PTP_DOM_d_DELAY_NS d) (satWord r.1)

/-- The exchange of a domain yields its path delay sample once both its halves are known (R358). -/
def State.delayPair (s : State) (d : Nat) (x : DelayReq) : State := match x.diff, x.resp with
  | some a, some b => (s.putDom d { s.dom d with dreq := none }).delaySample d ((a + b) / 2)
  | none, some _ => s.putDom d { s.dom d with dreq := if x.sync.isSome then some x else none }
  | _, none => s.putDom d { s.dom d with dreq := some x }

/-- A Follow_Up gives an exchange that waits for it the Sync's half (R358). -/
def State.delaySync (s : State) (d seq : Nat) (diff : Rat) : State := match (s.dom d).dreq with
  | some x => if x.sync = some seq then s.delayPair d { x with sync := none, diff := some diff } else s
  | none => s

/-- A Follow_Up (R358): it completes the two-step Sync of its sequenceId. -/
def State.ptpFollowUp (s : State) (p : Nat) (m : List Byte) : State :=
  s.ptpMessage p m 8 (fun d s => s.ifMaster d p m (fun s => match (s.dom d).twoStep with
    | some x =>
      let diff := x.2.1 - ptpTime m 34 - x.2.2 - ptpCorr m
      if x.1 = ptpNum m 30 2 then (s.delaySync d x.1 diff).ptpDiff d diff else s
    | none => s))

/-- The module's own port identity: its clockIdentity and port number 1. -/
def State.ptpOwn (s : State) : List Byte := beBytes 4 (s.nat Reg.PTP_CLKID_HI) ++ beBytes 4 (s.nat Reg.PTP_CLKID_LO) ++ beBytes 2 1

/-- A Delay_Resp (R358): to the domain's own last Delay_Req it yields a path delay sample, discarded above DELAYMAX. -/
def State.ptpDelayResp (s : State) (p : Nat) (m : List Byte) : State :=
  s.ptpMessage p m 9 (fun d s => s.ifMaster d p m (fun s => match (s.dom d).dreq with
    | some x =>
      if x.seq = ptpNum m 30 2 && x.resp.isNone && (m.drop 44).take 10 == s.ptpOwn then
        (s.count (Reg.PTP_DOM_d_CNT_DRESP d)).delayPair d { x with resp := some (ptpTime m 34 - x.t3 - ptpCorr m) }
      else s
    | none => s))

/-- The ones' complement sum of the 16-bit words of a byte list, folded to 16 bits. -/
def onesSum (b : List Byte) : Nat :=
  let rec sum : List Byte → Nat
    | x :: y :: t => x.toNat * 256 + y.toNat + sum t
    | [x] => x.toNat * 256
    | [] => 0
  let n := sum b
  let m := n % 65536 + n / 65536
  m % 65536 + m / 65536

/-- The bytes of a Delay_Req with its stamp and its two trailing bytes (R357). -/
def State.delayReqBytes (s : State) (d seq : Nat) (t3 : Nat) : List Byte :=
  let stamp := beBytes 6 (t3 / 1000000000) ++ beBytes 4 (t3 % 1000000000)
  beBytes 1 1 ++ beBytes 1 0x12 ++ beBytes 2 44 ++ beBytes 1 (s.fld (Reg.PTP_DOM_d_CFG d) 0 8) ++ List.replicate 15 0#8
    ++ s.ptpOwn ++ beBytes 2 seq ++ beBytes 1 1 ++ beBytes 1 0x7F ++ stamp ++ beBytes 2 (65535 - onesSum stamp)

/-- A Delay_Req goes out on the port of the domain's master (R350, R357). -/
def State.ptpDelayReq (s : State) (d within : Nat) : State :=
  let s := s.ptpSync
  match (s.dom d).master with
  | none => s
  | some m =>
    if !s.bit Reg.PTP_CTRL 0 || !s.bit (Reg.PTP_DOM_d_CFG d) 8 || !s.portUp m.port || !s.bit (Reg.ETH_PORT_p_CFG m.port) 2 then s
    else
      let t3 := s.ptpStamp within + s.egress m.port
      let x := s.dom d
      let s1 := s.send ⟨.delayReq, m.port, 0xE0000181, 319, s.delayReqBytes d x.dseq t3.floor.toNat⟩
      let ask : DelayReq := ⟨x.dseq, t3, if x.twoStep.isSome then none else x.lastDiff, x.twoStep.map (·.1), none⟩
      (s1.putDom d { x with dreq := some ask, dseq := (x.dseq + 1) % 65536 }).count (Reg.PTP_DOM_d_CNT_DREQ d)

/-! ## Time-outs and expiries -/

/-- No Announce of the master for ANNTO announce intervals (R359): the domain drops its master. -/
def State.announceTimeout (s : State) (d : Nat) : State :=
  let s := s.ptpSync
  match (s.dom d).master with
  | none => s
  | some m =>
    if s.ptp.at_ - (s.dom d).annAt < s.fld (Reg.PTP_DOM_d_CFG d) 16 4 * pow2Sec m.logAnn then s
    else
      let x := s.dom d
      let gone := x.heard.filter (fun h => !(h.ident == m.ident && h.port == m.port))
      let s1 := s.domLoss d 1
      let y := { s1.dom d with heard := gone, master := none, delays := [], twoStep := none, lastDiff := none, dreq := none }
      (s1.putDom d y).selectMaster d

/-- The Sync timeout test of a domain (R359): no Sync for SYNCTO sync intervals; PTP_INJ.SYNCTO inverts the test of the
leading domain. -/
def State.syncTimeout (s : State) (d : Nat) : State :=
  let s := s.ptpSync
  if (s.dom d).master.isNone then s
  else
    let logS := signedOf 8 (s.fld (Reg.PTP_DOM_d_STATE d) 16 8)
    let raw := decide (s.fld (Reg.PTP_DOM_d_CFG d) 20 4 * pow2Sec logS ≤ s.ptp.at_ - (s.dom d).syncAt)
    let out := if s.leads d then s.injTest Reg.PTP_INJ 0 raw else raw
    let s1 := s.onlyIf (s.leads d) (fun s => s.injRan Reg.PTP_INJ 0)
    s1.onlyIf out (fun s => s.domLoss d 2)

/-- PREF has been QUALIFIED for PTP_REVERT.S seconds while the other domain leads (R365). -/
def State.revertLead (s : State) : State :=
  let s := s.ptpSync
  let d := s.pref
  if s.bit Reg.PTP_CTRL 2 && s.leads (otherDom d) && (s.dom d).qual
      && decide ((s.nat Reg.PTP_REVERT : Rat) * 1000000000 ≤ s.ptp.at_ - (s.dom d).qualAt) then (s.leadBy d).switchMarks
  else s

/-- Whole seconds in HOLDOVER, saturating (PTP_STATE.HOLDS). -/
def State.holdSecs (s : State) : Nat :=
  if s.ptpState = 3 then min 0xFFFF ((s.oscAt 0 - s.ptp.holdAt) / 1000000000).floor.toNat else 0

/-- PTP_HOLD.S seconds have passed since HOLDOVER was entered: LOCK falls (R366). -/
def State.holdExpire (s : State) : State :=
  let s := s.ptpSync
  if s.ptpState = 3 && decide ((s.nat Reg.PTP_HOLD : Rat) * 1000000000 ≤ s.ptp.at_ - s.ptp.holdAt) then s.setLock false else s

/-! ## Writes (R360, R366 to R368) -/

/-- A refused write of this block (R368). -/
def State.ptpRefused (s : State) : State := (s.count Reg.PTP_CNT_REFUSE).setBit Reg.PTP_STAT 5 true

/-- Judgement of a PTP_DOM_d_CFG write (R368). -/
def State.domCfgDeny (s : State) (d : Nat) (v : Word) : Option Status :=
  let o := Reg.PTP_DOM_d_CFG (otherDom d)
  let ann := bitsOf v 16 4
  let sto := bitsOf v 20 4
  if 127 < bitsOf v 0 8 || bitOf v 11 || ann < 2 || 10 < ann || sto < 2
      || (bitOf v 8 && s.bit o 8 && bitsOf v 0 8 == s.fld o 0 8) then some .range
  else if s.leads d then some .locked
  else none

/-- A PTP_DOM_d_CFG write: a domain whose number or enable changes starts afresh. -/
def State.domCfg (s : State) (d : Nat) (v : Word) : State :=
  let a := Reg.PTP_DOM_d_CFG d
  let fresh := bitsOf v 0 9 != s.fld a 0 9
  let w : Word := putBits (putBits 0#32 0 11 (bitsOf v 0 11)) 16 8 (bitsOf v 16 8)
  let s1 := (s.ptpSync).wr a w
  s1.putDom d (if fresh then freshDomain else s1.dom d)

/-- Judgement of a PTP_CTRL write: a STEP only in FREE (R367). -/
def State.ptpCtrlDeny (s : State) (v : Word) : Option Status :=
  if bitOf v 5 && s.ptpState != 0 then some .locked else none

/-- A PTP_CTRL write: EN and FREERUN decide FREE, REACQ enters ACQUIRE, STEP steps the clock (R360, R367). -/
def State.ptpCtrl (s : State) (v : Word) : State :=
  let s1 := (s.ptpSync).setFld Reg.PTP_CTRL 0 4 (bitsOf v 0 4)
  let free := !bitOf v 0 || bitOf v 1
  let by_ : Rat := (s.int Reg.PTP_STEP_SEC : Rat) * 1000000000 + s.int Reg.PTP_STEP_NS
  let s2 := s1.onlyIf (bitOf v 5 && s.ptpState == 0) (fun s => s.ptpStepBy by_)
  if free then (if s2.ptpState = 0 then s2 else s2.toFree)
  else if s2.ptpState = 0 then (s2.ptpRate).toAcquire
  else if bitOf v 4 then s2.toAcquire
  else s2

/-- Judgement of the thresholds, PTP_SLEW and PTP_FILT, and of what only FREE takes (R367). -/
def State.ptpDeny (s : State) (a : Nat) (v : Word) : Option Status :=
  let n := v.toNat
  if a = Reg.PTP_LOCKTHR then (if n = 0 || s.nat Reg.PTP_UNLOCKTHR ≤ n then some .range else none)
  else if a = Reg.PTP_UNLOCKTHR then
    (if n ≤ s.nat Reg.PTP_LOCKTHR || s.nat Reg.PTP_STEPLIM ≤ n then some .range else none)
  else if a = Reg.PTP_STEPLIM then (if n ≤ s.nat Reg.PTP_UNLOCKTHR then some .range else none)
  else if a = Reg.PTP_SLEW then (if n = 0 || 500000 < n then some .range else none)
  else if a = Reg.PTP_HOLD || a = Reg.PTP_REVERT || a = Reg.PTP_DELAYMAX then (if n = 0 then some .range else none)
  else if a = Reg.PTP_FILT then (if bitsOf v 0 6 = 0 || 32 < bitsOf v 0 6 then some .range else none)
  else if a = Reg.PTP_STEP_NS then
    (if v.toInt < -999999999 || 999999999 < v.toInt then some .range else if s.ptpState ≠ 0 then some .locked else none)
  else if a = Reg.PTP_RATE || a = Reg.PTP_STEP_SEC then (if s.ptpState ≠ 0 then some .locked else none)
  else if a = Reg.PTP_CTRL then s.ptpCtrlDeny v
  else if a = Reg.PTP_DOM_d_CFG 0 then s.domCfgDeny 0 v
  else if a = Reg.PTP_DOM_d_CFG 1 then s.domCfgDeny 1 v
  else none

/-- PTP_RATE as firmware writes it, in FREE; beyond ±1,000 ppm it is clamped (R354). -/
def State.rateWrite (s : State) (v : Word) : State :=
  (s.ptpSync).wr Reg.PTP_RATE (wordOfInt (clampInt (-1000000000) 1000000000 v.toInt))

/-- A read of PTP_NOW_NS captures the clock (R355). -/
def State.nowCapture (s : State) : State :=
  let s1 := s.ptpSync
  let s2 := (s1.wr Reg.PTP_NOW_NS (BitVec.ofNat 32 s1.ptpNs)).wr Reg.PTP_NOW_SEC_LO (BitVec.ofNat 32 s1.ptpSec)
  (s2.wr Reg.PTP_NOW_SEC_HI (BitVec.ofNat 32 (s1.ptpSec / 2 ^ 32 % 2 ^ 16))).wr Reg.PTP_NOW_FRAC (BitVec.ofNat 32 s1.ptpFrac)

end Sys2Proof.Machine
end

