-- ==== Sys2Proof/Machine/RtcOps.lean ====
section
/-!
DEFINITION. Machine/RtcOps.lean: the calendar clock of spec/19_clock_calendar.md: its BCD counting (R445 to R447),
setting and summer time (R448 to R451), shadows (R452, R453), the relation to PTP (R454, R455), rate trim (R457 to
R459), wakes (R460), the backup domain and the charger (R461 to R463).
-/

namespace Sys2Proof.Machine

/-! ## Dates (R446, R447) -/

/-- A leap year (R446). -/
def leapYear (y : Nat) : Bool := (y % 4 == 0 && y % 100 != 0) || y % 400 == 0

/-- The days of the months of a year. -/
def monthDays (y : Nat) : List Nat := [31, if leapYear y then 29 else 28, 31, 30, 31, 30, 31, 31, 30, 31, 30, 31]

/-- A calendar time. -/
structure Cal where
  year : Nat
  month : Nat
  day : Nat
  hour : Nat
  min : Nat
  sec : Nat
  deriving DecidableEq, Repr

/-- Days of 10,000 Gregorian years, after which the year wraps (R445). -/
def calDays : Nat := 3652425

/-- Days from 0000-01-01 to the first day of a year. -/
def yearStart (y : Nat) : Nat := 365 * y + (y + 3) / 4 - (y + 99) / 100 + (y + 399) / 400

/-- Days from 0000-01-01 to a date. -/
def dayNumber (y m d : Nat) : Nat := yearStart y + ((monthDays y).take (m - 1)).foldl (· + ·) 0 + (d - 1)

/-- The year that a day number lies in: the estimate by mean years, corrected by one. -/
def yearOf (n : Nat) : Nat :=
  let y := n * 400 / 146097
  if n < yearStart y then y - 1 else if yearStart (y + 1) ≤ n then y + 1 else y

/-- Month and day, both from 1, of a day of the year, from 0. -/
def monthDay : List Nat → Nat → Nat → Nat × Nat
  | [], m, d => (m, d + 1)
  | k :: t, m, d => if d < k then (m, d + 1) else monthDay t (m + 1) (d - k)

/-- WDAY of a day number: 1 is Monday and 7 is Sunday (R447). -/
def weekDay (n : Nat) : Nat := (n + 5) % 7 + 1

/-- Seconds from 0000-01-01 00:00:00. -/
def Cal.secs (c : Cal) : Nat := dayNumber c.year c.month c.day * 86400 + c.hour * 3600 + c.min * 60 + c.sec

/-- The calendar time of a number of seconds, which wraps after the year 9999 (R445). -/
def calOf (t : Int) : Cal :=
  let u := (t % ((calDays * 86400 : Nat) : Int)).toNat
  let n := u / 86400
  let y := yearOf n
  let md := monthDay (monthDays y) 1 (n - yearStart y)
  ⟨y, md.1, md.2, u / 3600 % 24, u / 60 % 60, u % 60⟩

/-! ## BCD -/

/-- Two BCD digits, and their number. -/
def bcd (n : Nat) : Nat := n / 10 % 10 * 16 + n % 10
def unbcd (b : Nat) : Nat := b / 16 * 10 + b % 16
def bcdGood (b : Nat) : Bool := b / 16 ≤ 9 && b % 16 ≤ 9

/-- RTC_TIME and RTC_DATE of a calendar time, WDAY derived from the date (R447). -/
def timeWord (c : Cal) (dst : Bool) : Word :=
  BitVec.ofNat 32 (bcd c.sec + bcd c.min * 2 ^ 8 + bcd c.hour * 2 ^ 16
    + weekDay (dayNumber c.year c.month c.day) * 2 ^ 24 + dst.toNat * 2 ^ 31)
def dateWord (c : Cal) : Word :=
  BitVec.ofNat 32 (bcd c.day + bcd c.month * 2 ^ 8 + bcd (c.year % 100) * 2 ^ 16 + bcd (c.year / 100) * 2 ^ 24)

/-- The calendar time that a time word and a date word hold. -/
def calIn (t d : Word) : Cal :=
  ⟨unbcd (bitsOf d 24 8) * 100 + unbcd (bitsOf d 16 8), unbcd (bitsOf d 8 5), unbcd (bitsOf d 0 6),
    unbcd (bitsOf t 16 6), unbcd (bitsOf t 8 7), unbcd (bitsOf t 0 7)⟩

/-- The staged value is a time (R448). -/
def calGood (t d : Word) : Bool :=
  let c := calIn t d
  [bitsOf d 24 8, bitsOf d 16 8, bitsOf d 8 5, bitsOf d 0 6, bitsOf t 16 6, bitsOf t 8 7, bitsOf t 0 7].all bcdGood
    && c.sec ≤ 59 && c.min ≤ 59 && c.hour ≤ 23 && 1 ≤ c.month && c.month ≤ 12
    && 1 ≤ c.day && c.day ≤ (monthDays c.year).getD (c.month - 1) 0

/-! ## Setting the clock -/

/-- The calendar's present time, DST. -/
def State.calendar (s : State) : Cal := calIn (s.rd Reg.RTC_TIME) (s.rd Reg.RTC_DATE)
def State.dst (s : State) : Bool := s.bit Reg.RTC_TIME 31

/-- Put a time. -/
def State.putCal' (s : State) (c : Cal) (dst : Bool) : State :=
  (s.wr Reg.RTC_TIME (timeWord c dst)).wr Reg.RTC_DATE (dateWord c)

/-- The length W of a trim window, s. -/
def State.trimSecs (s : State) : Nat := 60 * 2 ^ s.fld Reg.RTC_TRIM_CTRL 4 3

/-- The pulses j of a window of `w` seconds with |CAL| = `n` that fall in its second `m` (R456). -/
def calPulses (n w m : Nat) : List Nat := (List.range n).filter (fun j => j * w / n == m)

/-- What the prescaler counts, `e` crystal pulses after a carry: with CAL above 0 the pulses added by then too, with CAL below 0
without those skipped (R456). -/
def State.prescaled (s : State) (e : Nat) : Nat :=
  let cal := s.sfld Reg.RTC_TRIM_CTRL 16 10
  let k := ((calPulses cal.natAbs s.trimSecs s.rtc.winSec).filter (fun j => Config.calPulse s.rtc.winSec j % 32768 < e)).length
  if cal < 0 then e - k else e + k

/-- RTC_SUBSEC now: 1/32,768 s since the last carry, by the module's oscillator. -/
def State.subsec (s : State) : Word :=
  BitVec.ofNat 32 (min 32767 (s.prescaled ((s.oscAt 0 - s.rtc.carryAt) * 32768 / 1000000000).floor.toNat))

/-- The prescaler starts again: RTC_SUBSEC is 0. -/
def State.subsecZero (s : State) : State := { s with rtc := { s.rtc with carryAt := s.oscAt 0 } }

/-- The next second of the trim window; after its last a new window begins (R456). -/
def State.windowSecond (s : State) : State := { s with rtc := { s.rtc with winSec := (s.rtc.winSec + 1) % s.trimSecs } }

/-- One second is carried (R445). -/
def State.secondCarry (s : State) : State :=
  let s1 := ((s.putCal' (calOf (s.calendar.secs + 1)) s.dst).subsecZero).windowSecond
  s1.onlyIf (s.boot.phase != .off) (fun s => s.irqRtc 1)

/-- A refused LOAD (R448), and another refusal of the chapter. -/
def State.badDate (s : State) : State := ((s.setBit Reg.RTC_STAT 0 true).count Reg.RTC_CNT_BADDATE).irqRtc 3
def State.rtcRefused (s : State) : State := s.count Reg.RTC_CNT_REFUSE

/-- The staged value passes, RTC_INJ.DATECHK applied (R448, R464). -/
def State.loadGood (s : State) : Bool := s.injTest Reg.RTC_INJ 0 (calGood (s.rd Reg.RTC_SET_TIME) (s.rd Reg.RTC_SET_DATE))

/-- An accepted LOAD (R449). -/
def State.loadCal (s : State) : State :=
  let t := s.rd Reg.RTC_SET_TIME
  let d := s.rd Reg.RTC_SET_DATE
  let c := calIn t d
  let w := weekDay (dayNumber c.year c.month c.day)
  ((s.wr Reg.RTC_TIME (putBits t 24 3 w)).wr Reg.RTC_DATE d).subsecZero

/-- A summer-time command (R450, R451): one hour is added or taken, and the event is recorded. -/
def State.dstMove (s : State) (fwd : Bool) : State :=
  let c := calOf (if fwd then (s.calendar.secs : Int) + 3600 else (s.calendar.secs : Int) - 3600)
  let s1 := s.putCal' c fwd
  s1.raiseEv 0x1701 1 (leBytes 4 (s.nat Reg.RTC_TIME) ++ leBytes 4 (s1.nat Reg.RTC_TIME) ++ leBytes 4 (s1.nat Reg.RTC_DATE))

/-! ## Shadows (R452, R453) -/

/-- The freeze of a key slot. -/
def State.freezeOf (s : State) (slot : Nat) : Option RtcShadow := s.rtc.shadows.find? (fun f => f.slot == slot)

/-- A freeze ends. -/
def State.freezeEnd (s : State) (slot : Nat) : State :=
  { s with rtc := { s.rtc with shadows := s.rtc.shadows.filter (fun f => f.slot != slot) } }

/-- Keep a freeze; one whose three registers have been read ends. -/
def State.freezePut (s : State) (f : RtcShadow) : State :=
  let s1 := s.freezeEnd f.slot
  if f.readTime && f.readDate && f.readSub then s1 else { s1 with rtc := { s1.rtc with shadows := f :: s1.rtc.shadows } }

/-- One of the three registers of the shadows. -/
def isRtcShadow (a : Nat) : Bool := a == Reg.RTC_TIME || a == Reg.RTC_DATE || a == Reg.RTC_SUBSEC

/-- The freeze marks a register as read. -/
def RtcShadow.mark (f : RtcShadow) (a : Nat) : RtcShadow :=
  { f with readTime := f.readTime || a == Reg.RTC_TIME, readDate := f.readDate || a == Reg.RTC_DATE, readSub := f.readSub || a == Reg.RTC_SUBSEC }

/-- The freeze has given a register. -/
def RtcShadow.hasRead (f : RtcShadow) (a : Nat) : Bool :=
  (f.readTime && a == Reg.RTC_TIME) || (f.readDate && a == Reg.RTC_DATE) || (f.readSub && a == Reg.RTC_SUBSEC)

/-- What the shadow holds of a register. -/
def RtcShadow.word (f : RtcShadow) (a : Nat) : Word :=
  if a = Reg.RTC_TIME then f.time else if a = Reg.RTC_DATE then f.date else f.subsec

/-- A new capture of the three registers. -/
def State.freezeNew (s : State) (slot : Nat) : RtcShadow :=
  ⟨slot, s.rd Reg.RTC_TIME, s.rd Reg.RTC_DATE, s.subsec, false, false, false, s.oscNs⟩

/-- The freeze that a read of one of the three registers uses: the present one, or a new one where there is none or the
register was already read in it (R452, R453). -/
def State.freezeFor (s : State) (slot a : Nat) : RtcShadow := match s.freezeOf slot with
  | some f => if f.hasRead a then s.freezeNew slot else f
  | none => s.freezeNew slot

/-- A read of one of the three registers by a key slot. -/
def State.shadowRead (s : State) (slot a : Nat) : Word × State :=
  let f := s.freezeFor slot a
  (f.word a, s.freezePut (f.mark a))

/-- 1 s has passed since a freeze began (R453). -/
def State.freezeTimeout (s : State) (slot : Nat) : State := match s.freezeOf slot with
  | some f => if s.reached (f.since + 1000000000) then (s.freezeEnd slot).setBit Reg.RTC_STAT 5 true else s
  | none => s

/-! ## Zone, TAI and PTP (R454, R455) -/

/-- Seconds from 0000-01-01 to 1970-01-01. -/
def unixEpoch : Nat := 62167219200

/-- Local time less UTC, s. -/
def State.zoneSecs (s : State) : Int := s.sfld Reg.RTC_ZONE 0 16 * 60 + s.dst.toNat * 3600

/-- PTP seconds of the calendar (R454). -/
def State.rtcToPtp (s : State) : Int := (s.calendar.secs : Int) - s.zoneSecs - unixEpoch + s.fld Reg.RTC_TAIOFS 0 16

/-- The local time of the PTP clock, seconds from 0000-01-01: R454 in reverse (R455). -/
def State.ptpToLocal (s : State) : Int := (s.ptpSec : Int) - s.fld Reg.RTC_TAIOFS 0 16 + unixEpoch + s.zoneSecs

/-- At a start the calendar seeds the PTP clock, which enters ACQUIRE (R360, R454). -/
def State.seedPtp (s : State) : State :=
  let ns := (s.subsec.toNat * 30517578125) / 1000000
  let clk := ptpWrap ((s.rtcToPtp : Rat) * 1000000000 + ns)
  let s1 := { s with ptp := { s.ptp with clk := clk, at_ := s.oscAt 0 } }
  if s.bit Reg.PTP_CTRL 0 && !s.bit Reg.PTP_CTRL 1 then s1.toAcquire else s1.toFree

/-- A UTC hour boundary of the PTP clock (R455). -/
def State.ptpHourSet (s : State) : State :=
  let s := s.ptpSync
  if s.bit Reg.RTC_CFG 0 && s.ptpLock then
    let here : Rat := s.calendar.secs + (s.subsec.toNat : Rat) / 32768
    let there := s.ptpToLocal
    if absQ (here - there) < 1 then s
    else
      let s1 := ((s.putCal' (calOf there) s.dst).subsecZero).setBit Reg.RTC_STAT 4 true
      s1.raiseEv 0x1702 1 (leBytes 4 (s.nat Reg.RTC_TIME) ++ leBytes 4 (s.nat Reg.RTC_DATE))
  else s

/-! ## Rate trim (R457 to R459) -/

/-- The reference that a measuring source uses now: 1 MAINS, 2 PTP, 0 for MANUAL (Table 1). -/
def State.trimRef (s : State) : Nat := match s.fld Reg.RTC_TRIM_CTRL 0 2 with
  | 0 => 0
  | 1 => 1
  | 2 => 2
  | _ => if s.ptpLock then 2 else 1

/-- The reference is valid now: V_MAINS for MAINS; LOCK, without a ramp, for PTP (R458). -/
def State.refGood (s : State) (r : Nat) : Bool :=
  if r = 1 then s.lap.mains.valid else s.ptpLock && !s.bit Reg.PTP_STATE 4

/-- A new trim window begins. -/
def State.trimBegin (s : State) : State :=
  let s1 := { s with rtc := { s.rtc with winSrc := s.trimRef, winBad := !s.refGood s.trimRef, winSec := 0 } }
  { s1 with ptp := { s1.ptp with moved := false } }

/-- A lap boundary of the window: an invalid reference, a change of AUTO's source, or a power failure spoils it (R458). -/
def State.trimLap (s : State) : State :=
  let bad := s.rtc.winBad || s.trimRef != s.rtc.winSrc || !s.refGood s.rtc.winSrc || (s.rtc.winSrc == 2 && s.ptp.moved) || s.pfailed
  { s with rtc := { s.rtc with winBad := bad } }

/-- A window ends with `n` raw crystal pulses counted (R458); RTC_INJ.REFCHK inverts its validity test. -/
def State.trimWindow (s : State) (n : Nat) : State :=
  if s.trimRef = 0 then s
  else
    let s1 := (s.trimLap).injRan Reg.RTC_INJ 1
    if s.injTest Reg.RTC_INJ 1 (!s.trimLap.rtc.winBad) then
      let nom := 32768 * s.trimSecs
      let err : Int := (nom : Int) - n
      let r := s1.roundOpen ((err : Rat) * 1000000000 / nom)
      let s2 := (r.2.setFld Reg.RTC_TRIM_CTRL 16 10 (wrapInt 10 (clampInt (-511) 511 err))).wr Reg.RTC_TRIM_MEAS (satWord r.1)
      let s3 := s2.onlyIf (511 < err || err < -511) (fun s => s.setBit Reg.RTC_STAT 3 true)
      ((s3.count Reg.RTC_CNT_TRIM).irqRtc 2).trimBegin
    else ((s1.count Reg.RTC_CNT_TRIMDISC).irqRtc 2).trimBegin

/-- Judgement of an RTC_TRIM_CTRL write (R459). -/
def State.trimDeny (s : State) (v : Word) : Option Status :=
  let a := Reg.RTC_TRIM_CTRL
  let calNew := bitsOf v 16 10 != s.fld a 16 10
  if 6 ≤ bitsOf v 4 3 || (calNew && bitsOf v 0 2 != s.fld a 0 2) then some .range
  else if calNew && s.fld a 0 2 != 0 then some .locked
  else none

/-- An RTC_TRIM_CTRL write; a new WIN or SRC starts a new window (R459). -/
def State.trimWrite (s : State) (v : Word) : State :=
  let a := Reg.RTC_TRIM_CTRL
  let new := bitsOf v 0 2 != s.fld a 0 2 || bitsOf v 4 3 != s.fld a 4 3
  let s1 := ((s.setFld a 0 2 (bitsOf v 0 2)).setFld a 4 3 (bitsOf v 4 3)).setFld a 16 10 (bitsOf v 16 10)
  s1.onlyIf new State.trimBegin

/-! ## Wake, backup and charger (R460 to R463) -/

/-- A wake (R460). -/
def State.wake (s : State) : State :=
  if s.fld Reg.RTC_WAKE 0 23 = 0 then s
  else if s.boot.phase = .off then s.setBit Reg.RTC_STAT 6 true
  else (s.count Reg.RTC_CNT_WAKE).irqRtc 0

/-- The calendar as it is after a loss of its backup supply (R461). -/
def State.calLost (s : State) : State :=
  let s1 := s.putCal' ⟨2000, 1, 1, 0, 0, 0⟩ false
  let s2 := ((s1.wr Reg.RTC_ZONE 0#32).wr Reg.RTC_TAIOFS 37#32).setFld Reg.RTC_TRIM_CTRL 16 10 0
  (s2.setFld Reg.RTC_TRIM_CTRL 0 2 3).subsecZero

/-- A start finds the calendar lost (R461). -/
def State.calJudge (s : State) (lost : Bool) : State :=
  if lost then (((s.calLost).setBit Reg.RTC_STAT 1 true).irqRtc 3).raiseEv 0x1703 3 [] else s

/-- VBAT is measured (R462); RTC_INJ.BATCHK inverts the test. -/
def State.batCheck (s : State) (mv : Nat) : State :=
  let low := s.injTest Reg.RTC_INJ 2 (decide (mv < 2200))
  let s1 := (s.wr Reg.RTC_BAT (BitVec.ofNat 32 mv)).injRan Reg.RTC_INJ 2
  s1.onlyIf low (fun s => (s.setBit Reg.RTC_STAT 2 true).irqRtc 3)

/-- Judgement of an RTC_CHG write (R463): RES 3, and a BOOST of a cell, of a charger that is off, or of one that boosts. -/
def State.chgDeny (s : State) (v : Word) : Option Status :=
  if bitsOf v 2 2 = 3 then some .range
  else if bitOf v 4 then
    (if !bitOf v 1 || !bitOf v 0 then some .range else if s.bit Reg.RTC_CHG 5 then some .busy else none)
  else none

/-- An RTC_CHG write; a BOOST asks for its 2 batons, and begins when it is granted them (R63). -/
def State.chgWrite (s : State) (v : Word) : State :=
  let s1 := s.setFld Reg.RTC_CHG 0 4 (bitsOf v 0 4)
  s1.onlyIf (bitOf v 4) (fun s => s.batonRequest 3 2)

/-- A boost ends, or, at the end of a segment of 32 laps, hands its batons back and asks again (R463). -/
def State.boostEnd (s : State) (done : Bool) : State :=
  if !s.bit Reg.RTC_CHG 5 then s
  else if done then ((s.setBit Reg.RTC_CHG 5 false).batonRelease 3).batonCancel 3
  else (s.batonRelease 3).batonRequest 3 2

/-- Ranges of the other registers. -/
def rtcRange (a : Nat) (v : Word) : Bool :=
  if a = Reg.RTC_ZONE then (let z := signedOf 16 (bitsOf v 0 16); decide (-720 ≤ z) && decide (z ≤ 840))
  else if a = Reg.RTC_TAIOFS then decide (bitsOf v 0 16 ≤ 255)
  else if a = Reg.RTC_WAKE then decide (bitsOf v 0 23 ≤ 5529600)
  else true

end Sys2Proof.Machine
end

