-- ==== Sys2Proof/Machine/ZidOps.lean ====
section
/-!
DEFINITION. Machine/ZidOps.lean: the fault pin's interval, its readback (R485, R488), the LEDs (R489) and fault
injection as a whole (R482) of spec/21_block_status_fault_pin.md.
-/

namespace Sys2Proof.Machine

/-- The MINW interval of the latest trigger ends (R485). -/
def State.minwEnd (s : State) : State :=
  if s.reached (s.zid.trigAt + s.zid.minLeft * 1000000) then { s with zid := { s.zid with minLeft := 0 } } else s

/-- ZID_FAULT_CTRL is written. ASSERT is a trigger, judged by the pin as it was before the write: HOLD moves in the same
clock cycle and shows no glitch (R487). HOLD is as given, and as LATCH sets it at the trigger, which takes effect last (R486). -/
def State.faultCtrl (s : State) (v : Word) : State :=
  let s1 := s.onlyIf (bitOf v 1) (fun t => t.trigger 0 0 true)
  s1.setBit Reg.ZID_FAULT_CTRL 0 (bitOf v 0 || (bitOf v 1 && s.bit Reg.ZID_FAULT_CFG 16))

/-- The pin is read back while the module drives it high (R488), ZID_INJ.PINCHK applied to the comparison (R490). -/
def State.pinReadback (s : State) (level : Bool) : State :=
  if s.faultPhase ≠ 0 then { s with zid := { s.zid with lowReads := 0 } }
  else
    let low := s.injTest Reg.ZID_INJ 0 (!level)
    let n := if low then s.zid.lowReads + 1 else 0
    let s1 := (s.injRan Reg.ZID_INJ 0).setBit Reg.ZID_FAULT_STATE 4 level
    ({ s1 with zid := { s1.zid with lowReads := min 2 n } }).onlyIf (2 ≤ n)
      (fun t => (t.setBit Reg.ZID_STAT 1 true).setBit Reg.ZID_IRQ 1 true)

/-- The ms left of the MINW interval: whole ms begun, at least 1 until the interval ends. -/
def State.minRemain (s : State) : Nat :=
  max 1 (ceilDiv (s.zid.trigAt + s.zid.minLeft * 1000000 - s.oscNs) 1000000)

/-- ZID_FAULT_STATE: PHASE, the level read back while the pin is driven high, and REMAIN. -/
def State.faultStateReg (s : State) : Word :=
  let pin := s.faultPhase == 0 && s.bit Reg.ZID_FAULT_STATE 4
  BitVec.ofNat 32 (s.faultPhase + pin.toNat * 2 ^ 4 + (if s.faultPhase = 2 then s.minRemain % 2 ^ 11 else 0) * 2 ^ 16)

/-- RUN LED (Table 2): 0 dark, 1 lit, 2 slow, 3 fast flashing. -/
def State.ledRun (s : State) : Nat :=
  if s.boot.phase = .off then 0
  else if s.boot.phase ≠ .running then 3
  else if s.imgRuns && s.fbpState == 2 then 1 else 2

/-- ACTIVE LED: lit while DRIVE is 1 and STATE is ACTIVE or ALONE, flashing while STATE is ACTIVE and DRIVE is 0. -/
def State.ledActive (s : State) : Nat :=
  if s.drive && s.isActive then 1 else if s.pairState = 4 && !s.drive then 2 else 0

/-- FAULT LED (Table 2). -/
def State.ledFault (s : State) : Nat :=
  if s.faultPhase ≠ 0 && s.faultPhase ≠ 1 then 1 else if s.faultPhase = 0 && s.bit Reg.ZID_STAT 1 then 2 else 0

/-- ZID_LED_STAT: the LEDs, all lit during a LED test. -/
def State.ledStat (s : State) : Word :=
  if s.zid.ledTest then BitVec.ofNat 32 (1 + 1 * 2 ^ 2 + 2 ^ 4 + 1 * 2 ^ 5)
  else BitVec.ofNat 32 (s.ledRun + s.ledActive * 2 ^ 2 + (if s.forceCount = 0 then 0 else 1) * 2 ^ 4 + s.ledFault * 2 ^ 5)

/-- A LED test begins. -/
def State.ledTesting (s : State) : State := { s with zid := { s.zid with ledTest := true, ledAt := s.oscNs } }

/-- A LED test ends after 2 s. -/
def State.ledTestEnd (s : State) : State :=
  if s.reached (s.zid.ledAt + 2000000000) then { s with zid := { s.zid with ledTest := false } } else s

/-- The fault injection registers of all blocks. -/
def injRegs : List Nat :=
  [Reg.ZID_INJ, Reg.IMG_INJ, Reg.LAP_INJ, Reg.SETT_INJ, Reg.DSP_INJ, Reg.DSP_RES_INJ, Reg.SLV_INJ, Reg.FAB_INJ, Reg.LOOP_INJ,
   Reg.FBP_INJ, Reg.AIN_INJ, Reg.AOUT_INJ, Reg.DIO_INJ, Reg.MTR_INJ, Reg.CAN_INJ 0, Reg.CAN_INJ 1, Reg.CAN_INJ 2, Reg.CAN_INJ 3,
   Reg.ETH_INJ, Reg.PTP_INJ, Reg.HWP_INJ, Reg.PAIR_INJ, Reg.KEY_INJ, Reg.NVS_INJ, Reg.RTC_INJ, Reg.SPR_INJ, Reg.BOOT_INJ,
   Reg.PWR_INJ]

/-- A write of ZID_CTRL: INJEN 0 clears every pending injection bit without effect (R482); LEDTEST lights the LEDs. -/
def State.zidCtrl (s : State) (v : Word) : State :=
  let s1 := s.setBit Reg.ZID_CTRL 0 (bitOf v 0)
  let s2 := s1.onlyIf (!bitOf v 0) (fun t => t.forEach injRegs (fun t a => t.wr a 0#32))
  let s3 := s2.onlyIf (!bitOf v 0) (fun t => { t with lap := { t.lap with zcDone := 0 } })
  s3.onlyIf (bitOf v 8) State.ledTesting

end Sys2Proof.Machine
end

