-- ==== Sys2Proof/Machine/BootOps.lean ====
section
/-!
DEFINITION. Machine/BootOps.lean: power-up, the sixteen hurdles and their ledger, bringing an image up at H9 and at an
activation, power failure and shutdown, as spec/22_start_up_hurdles.md describes them with R38 to R40 of
spec/01_network_image.md.
-/

namespace Sys2Proof.Machine

/-! ## Power-up (R491, R492) -/

/-- The register file of a start: what the NV store, the flash, the factory and the backup domain keep stays, with
FAB_REPAIR_CTRL.RETEST (R192) and RTC_STAT.WAKEBK (R460); everything else takes its reset value. -/
def startRegs (old : Tab 32) : Tab 32 :=
  let keep (t : Tab 32) (e : Nat × Word) : Tab 32 :=
    let fs := fieldsAt e.1
    let k := if e.1 = Reg.FAB_REPAIR_CTRL then e.2 &&& 1#32 else if e.1 = Reg.RTC_STAT then e.2 &&& 0x40#32 else keptWord fs e.2
    tabSet 0#32 t e.1 (tabGet 0#32 t e.1 ||| k)
  old.foldl keep resetRegs

/-- A slot found in WRITING is set to INVALID (R27). -/
def State.slotFix (s : State) (b : Bool) : State := s.onlyIf (s.slotState b == 1) (fun t => t.setSlotState b 3)

/-- The calendar's count since its last carry is `sub`/32,768 s (R445). -/
def State.carryFrom (s : State) (sub : Nat) : State :=
  { s with rtc := { s.rtc with carryAt := -((sub : Rat) * 1000000000 / 32768) } }

/-- A start: what only power holds is lost, what the stores keep stays, and ROLE and SIDE are read (R386). The levels of
the interlock lines are those the lines have. -/
def State.startAgain (s : State) (restarted : Bool) (sub : Nat) : State :=
  let nv := { s.nv with sram := [], dirty := [], tallyJobs := [], pwJobs := [], pwFails := [], store := none, jobs := [], failed := [] }
  let img := { resetImg with slotA := s.img.slotA, slotB := s.img.slotB }
  let boot := { resetBoot with ledger := s.boot.ledger, badSlots := s.boot.badSlots }
  let fab := { resetFab with copyA := s.fab.copyA, copyB := s.fab.copyB }
  let mtr := { resetMtr with copyA := s.mtr.copyA, copyB := s.mtr.copyB }
  let t := { State.reset with
    pending := s.pending, regs := startRegs s.regs, free := s.free, nv := nv, img := img, boot := boot, fab := fab, mtr := mtr,
    key := { s.key with job := none, answered := 0 } }
  let pair := { resetPair with
    role := t.fld Reg.PAIR_CFG 0 2, sideB := t.bit Reg.PAIR_CFG 4, intlkIn := s.pair.intlkIn, grantIn := s.pair.grantIn }
  let t1 := (({ t with pair := pair }).slotFix false).slotFix true
  (t1.setBit Reg.BOOT_STAT 4 restarted).carryFrom sub

/-- Reset release after power-up (R491, R492); a start that has just been released is the same. -/
def State.powerUp (s : State) (vbulk sub : Nat) : State :=
  if s.boot.phase = .off || s.boot.cur = some 0 then
    (s.startAgain false sub).wr Reg.PWR_VBULK (BitVec.ofNat 32 vbulk)
  else s

/-- The module resets itself and starts again; the calendar goes on (R497). -/
def State.internalReset (s : State) : State := s.startAgain true s.subsec.toNat

/-! ## Ways and ledger (R498 to R501) -/

/-- The ways of a hurdle after failure (Table 1): 1 OTHER, 2 SKIP, 3 HALT. -/
def hurdleWays : Nat → List Nat
  | 2 => [2] | 3 => [2] | 4 => [1, 3] | 5 => [1, 3] | 7 => [1] | 8 => [1] | 9 => [1, 2] | 11 => [2] | 12 => [1, 2]
  | 13 => [1] | 14 => [1, 2] | _ => []

/-- Kind critical (Table 1). -/
def critical (h : Nat) : Bool := h == 0 || h == 1 || h == 4 || h == 5 || h == 6 || h == 10 || h == 15

/-- The way of a hurdle, as BOOT_WAY keeps it. -/
def State.way (s : State) (h : Nat) : Nat := s.fld Reg.BOOT_WAY (2 * h) 2

/-- The way after the present one: the first listed after NORMAL, the next listed after OTHER; the last is kept (R501). -/
def wayAfter (h w : Nat) : Nat :=
  let l := hurdleWays h
  if w = 0 then l.headD 0 else ((l.dropWhile (· != w)).drop 1).headD w

/-- ms since reset release, saturating at 0xFFFF (Table 2). -/
def State.bootMs (s : State) : Nat := min 0xFFFF (s.oscNs / 1000000)

/-- The ms of an entry that the ledger keeps: MARK 1 START, 2 END, 3 SHUT; RESULT 1 PASS, 2 FAIL, 3 TIMEOUT, 4 NOFIT. The
page program's read-back is NVS_INJ's to invert; what fails twice leaves its slot bad (R427, R498). It is charged to SELF after
H9. -/
def State.ledgerAdd (s : State) (hurdle : Nat) (act : Bool) (mark result way detail ms : Nat) : State :=
  let seq := if s.boot.ledger.isEmpty then 0#32 else s.rd Reg.BOOT_LEDGER_HEAD + 1
  let slot := seq.toNat % 2048
  let e : LedgerEntry := ⟨seq, s.bootCount, hurdle, act, mark, result, way, detail, ms⟩
  let p := s.nvPage classSelf goodRb
  let r := if s.boot.passed.contains 9 then p else ({ p.1 with used := s.used }, p.2)
  let boot := if r.2 then
      { r.1.boot with ledger := assocPut r.1.boot.ledger slot e, badSlots := r.1.boot.badSlots.filter (· != slot) }
    else { r.1.boot with ledger := assocDel r.1.boot.ledger slot, badSlots := slot :: r.1.boot.badSlots.filter (· != slot) }
  ({ r.1 with boot := boot }).wr Reg.BOOT_LEDGER_HEAD seq

/-- The newest entry's SEQ (R499): of the valid entries whose following slot does not hold the next SEQ, the newer. -/
def ledgerNewest (l : List (Nat × LedgerEntry)) : Option Nat :=
  let next (e : Nat × LedgerEntry) : Bool := l.any (fun f => f.1 == (e.1 + 1) % 2048 && f.2.seq == e.2.seq + 1)
  (l.filter (fun e => !next e)).foldl (fun m e => match m with
    | none => some e.2.seq.toNat
    | some q => if newerSeq 32 e.2.seq.toNat q then some e.2.seq.toNat else some q) none

/-- The scan of H1 (R499). -/
def State.ledgerScan (s : State) : State :=
  let bad := s.boot.badSlots.length
  let s1 := s.wr Reg.BOOT_LEDGER_HEAD (BitVec.ofNat 32 ((ledgerNewest s.boot.ledger).getD 0))
  (s1.wr Reg.BOOT_CNT_LEDGERBAD (satWordN bad)).onlyIf (bad != 0) (fun t => t.setBit Reg.BOOT_STAT 3 true)

/-- Put an entry among entries in order of age, the oldest first; `head` is the newest SEQ. -/
def ledgerPut (head : Word) (e : LedgerEntry) : List LedgerEntry → List LedgerEntry
  | [] => [e]
  | f :: t => if (head - e.seq).toNat > (head - f.seq).toNat then e :: f :: t else f :: ledgerPut head e t

/-- The entries of the previous start, without ACT, oldest first (R500). -/
def State.lastEntries (s : State) : List LedgerEntry :=
  let prev := (s.bootCount + 2 ^ 24 - 1) % 2 ^ 24
  ((s.boot.ledger.map (·.2)).filter (fun e => e.boot == prev && !e.act)).foldl
    (fun l e => ledgerPut (s.rd Reg.BOOT_LEDGER_HEAD) e l) []

/-- Walk the entries of a hurdle: a START stands open, one was closed by a SHUT, the RESULT of the last END. -/
def outcomeWalk : List LedgerEntry → Bool × Bool × Nat → Bool × Bool × Nat
  | [], r => r
  | e :: t, r => outcomeWalk t (match e.mark with
    | 1 => (true, r.2.1, r.2.2)
    | 2 => (false, r.2.1, e.result)
    | _ => (false, r.2.1 || r.1, r.2.2))

/-- The outcome of a hurdle in the previous start (Table 3): 0 NOTREACHED, 1 PASS, 2 FAIL, 3 POWER. -/
def outcomeOf (l : List LedgerEntry) (h : Nat) : Nat :=
  let own := l.filter (fun e => e.hurdle == h)
  if own.all (fun e => e.mark == 3) then 0
  else
    let r := outcomeWalk own (false, false, 0)
    if r.2.1 then 3
    else if r.1 then 2
    else if r.2.2 = 1 || r.2.2 = 4 then 1 else 2

/-- A hurdle's way advances (R501). -/
def State.wayAdvance (s : State) (h : Nat) : State :=
  let w := wayAfter h (s.way h)
  if w = s.way h then s
  else ((s.setFld Reg.BOOT_WAY (2 * h) 2 w).setBit Reg.BOOT_STAT 1 true).raiseEv 0x1902 2 (leBytes 1 h ++ leBytes 1 w)

/-- The outcomes of the previous start and the ways that follow (R500, R501), and whether it ended by a power failure. -/
def State.judgeLast (s : State) : State :=
  let l := s.lastEntries
  let out := (List.range 16).map (outcomeOf l)
  let s1 := s.wr Reg.BOOT_PREV (BitVec.ofNat 32 (out.zipIdx.foldl (fun a e => a + e.1 * 4 ^ e.2) 0))
  let fails := (List.range 16).filter (fun h => out.getD h 0 == 2)
  let s2 := s1.onlyIf (!fails.isEmpty) (fun t => t.setBit Reg.BOOT_STAT 0 true)
  let s3 := s2.onlyIf (l.any (fun e => e.mark == 3)) (fun t => t.setBit Reg.PWR_STAT 0 true)
  let h4 := (l.filter (fun e => e.hurdle == 4 && e.mark == 2 && (e.result == 2 || e.result == 3))).getLast?
  (({ s3 with boot := { s3.boot with testDetail := h4.map (fun e : LedgerEntry => e.detail) } }).forEach fails State.wayAdvance)

/-! ## Bringing an image up (H9, R38) -/

/-- A register's word with the fields that an image supplies at 0. -/
def unImaged (fs : List Fld) (v : Word) : Word := fs.foldl (fun w f => if f.rst == .img then putBits w f.lo f.width 0 else w) v

/-- Every field whose reset value an image supplies reads 0 (R12). -/
def State.clearImaged (s : State) : State :=
  { s with regs := s.regs.filterMap (fun e => let v := unImaged (fieldsAt e.1) e.2; if v = 0#32 then none else some (e.1, v)) }

/-- The fields that DEFAULTS declares take their reset values (R9). -/
def State.putDefaults (s : State) (l : List DefaultEntry) : State :=
  s.forEach l (fun t e => match fieldOf e.addr e.lo with
    | some f => t.setFld e.addr e.lo f.width e.reset.toNat
    | none => t)

/-- A lap budget table comes into force (R53, R493). -/
def State.putBudgets (s : State) (budget bpri : Nat → Nat) (age : Nat) : State :=
  let l := (List.range 48).map budget
  let s1 := { s with lap := { s.lap with budget := l, bpri := (List.range 12).map bpri } }
  (s1.forEach (List.range 48) (fun t i => t.wr (Reg.LAP_BUDGET_c_r (i / 4) (i % 4)) (BitVec.ofNat 32 (listGet l i)))).wr
    Reg.LAP_BATON_CTRL (BitVec.ofNat 32 age)

/-- The budgets from the end of H9 (R493): the running image's BUDGET section, or Reron's default table. -/
def State.budgetsInForce (s : State) : State :=
  if s.imgRuns then
    s.putBudgets (fun i => s.runImg.budgetOf (i / 4) (i % 4)) (fun c => s.runImg.sn secBudget (0x70 + c) 1)
      (s.runImg.sn secBudget 4 1)
  else s.putBudgets (fun i => Config.defaultBudget i % 4097) (fun c => Config.defaultBpri c % 4) (Config.defaultAge % 15 + 1)

/-- SERIAL, structure hash and digest of the running image (R20). -/
def State.showIdentity (s : State) : State :=
  let m := s.runImg
  let put (t : State) (a : Nat → Nat) (b : List Byte) : State :=
    t.forEach ((wordsOfBytes b).zipIdx) (fun u e => u.wr (a e.2) e.1)
  put (put (s.wr Reg.IMG_SERIAL m.serial) Reg.IMG_SHASH (m.slice 0x1C 32)) Reg.IMG_DIGEST (sha256 m.signed)

/-- The registers that show the sections of the running image. -/
def State.showSections (s : State) : State :=
  let m := s.runImg
  let s1 := (s.wr Reg.SETT_SIZE (BitVec.ofNat 32 (m.sn secSettmap 4 4))).wr Reg.LOOP_INFO (BitVec.ofNat 32 m.nloop)
  let s2 := s1.wr Reg.LOOP_DEMAND (BitVec.ofNat 32 (2 * m.demand s.img.defaults))
  ((((s2.showGraph).toProblem false).showTele).loadCanf).showPairUnit

/-- The image in a slot becomes the running image: its identity, its defaults, its tables. -/
def State.loadImage (s : State) (b : Bool) : State :=
  let s1 := (s.wr Reg.IMG_RUN (BitVec.ofNat 32 (b.toNat + 2))).clearImaged
  let defs := s1.runImg.defaultsOf
  let dsp := { s1.dsp with fallback := false, nofit := false, coldDue := false }
  let fab := { s1.fab with laneCap := 16 }
  let s2 := { s1 with img := { s1.img with defaults := defs }, dsp := dsp, fab := fab }
  let s3 := ((s2.putDefaults defs).showIdentity).showSections
  ((s3.budgetsInForce).loadFbprog (s3.sramGet retainWarm s3.imgRetain)).fbpSet 1 0 0

/-- The registers that show the present cycle, solve and result. -/
def cycleRegs : List Nat := [Reg.DSP_RES_LAST, Reg.DSP_RES_CYCLE, Reg.DSP_CYC_LO, Reg.DSP_CYC_EPOCH_LO, Reg.DSP_TAU0,
  Reg.DSP_GRIDPT_LO, Reg.SLV_RUN, Reg.SLV_WAVE, Reg.SLV_TASK]

/-- No image runs, so there is no cycle, solve or result to show: their registers read their reset values (R12). The counters
and sticky flags, which tell what has happened since the reset, stay (log entry 72). -/
def State.cyclesGone (s : State) : State :=
  let s1 := s.forEach cycleRegs (fun t a => t.wr a 0#32)
  let s2 := s1.forEach [Reg.DSP_RES_RP, Reg.DSP_RES_RG, Reg.DSP_RES_RD, Reg.DSP_RES_MU] (fun t a => t.wr a 0xFFFFFFFF#32)
  { s2 with dsp := { s2.dsp with header := [], setpoints := [], streams := [], solve := none, cycle := none } }

/-- No image runs: IMG_STAT.NOIMG, and the default budgets. -/
def State.runWithout (s : State) : State :=
  ((((s.wr Reg.IMG_RUN 0#32).clearImaged).cyclesGone).setBit Reg.IMG_STAT 3 true).budgetsInForce.fbpSet 0 0 0

/-- The slot that H9's way names: that of IMG_BOOT, or the other one. -/
def State.bootSlot (s : State) (way : Nat) : Bool := s.bit Reg.IMG_BOOT 0 != (way == 1)

/-- What H9 finds of its slot: PASS or FAIL, and DETAIL. -/
def State.judgeSlot (s : State) (way : Nat) : Bool × Nat :=
  if way = 2 || (s.slotState false ≠ 2 && s.slotState true ≠ 2) then (true, 0)
  else if s.slotState (s.bootSlot way) ≠ 2 then (false, 0)
  else
    let c := s.checkImage (s.slotImg (s.bootSlot way)) none
    (c.1 == 1, c.1)

/-- H9 ends: the image of the way's slot runs, with its COLD result in force (R174), or none does. -/
def State.imageHurdle (s : State) (way : Nat) (ok : Bool) : State :=
  if ok && way ≠ 2 && s.slotState (s.bootSlot way) = 2 then
    ((s.loadImage (s.bootSlot way)).coldInForce).onlyIf (way == 1) (fun t => t.setBit Reg.IMG_STAT 2 true)
  else s.runWithout

/-! ## What each hurdle brings up (Table 1) -/

/-- H1: tallies derived, the power-cycle count raised, the ledger scanned, outcomes and ways judged. -/
def State.storeHurdle (s : State) : State := ((((s.deriveTallies).raiseTally 3).ledgerScan).judgeLast)

/-- H4: the map in use is that of R194; under OTHER the lane or bank of DETAIL is marked failed; the tests' results. -/
def State.testHurdle (s : State) (way : Nat) (r : HurdleReport) : State :=
  let s1 := s.mapStart
  let s2 := match way, s.boot.testDetail with
    | 1, some d => if d < 0x80 then s1.laneFail d 1 else s1.bankFail (d - 0x80) 1
    | _, _ => s1
  s2.startTests (r.lanes.map (·.val)) (r.banks.map (·.val)) (r.lines.map (fun e => (e.1.val, e.2.toNat)))

/-- H11: IOMAP is applied, outputs take their safe values while DRIVE is 1, and the references are checked (R263). -/
def State.fieldHurdle (s : State) : State :=
  (s.forEach (List.range 4) State.refStart).drawReserved

/-- H12 maps only LANEMIN lanes under OTHER, those of the problem that then runs. -/
def State.capLanes (s : State) (way : Nat) : State :=
  if way ≠ 1 then s
  else
    let lanes := s.fld Reg.SLV_MAPCNT 0 5
    let main := s.runImg.pn false secSched 0x03 1
    let cap := if main ≤ lanes || !s.hasFallback then main else s.runImg.pn true secSched 0x03 1
    ({ s with fab := { s.fab with laneCap := cap } }).mapLive

/-- H12's fit test (R130, R202, R204). -/
def State.solverHurdle (s : State) (way : Nat) : State := if way = 2 then s else ((s.capLanes way).toProblem false).fitTest

/-- No dispatch cycle starts, as under R204, and a COLD result is due. -/
def State.noDispatch (s : State) : State := { s with dsp := { s.dsp with nofit := true, coldDue := true } }

/-- H14: the loops and the program start (R216, R246). -/
def State.controlHurdle (s : State) (way : Nat) : State :=
  let s1 := { s with boot := { s.boot with control := true } }
  (s1.loopsStart).fbpStart (way == 0)

/-- H14 did not start the loops: the program is STOPPED with cause START. -/
def State.noControl (s : State) : State := ({ s with boot := { s.boot with control := false } }).fbpStart false

/-- H15: the start is complete. -/
def State.releaseHurdle (s : State) : State :=
  (({ s with boot := { s.boot with phase := .running, cur := none } }).setBit Reg.BOOT_CUR 8 true).irqBoot 0

/-- The hurdle's PASS is kept. -/
def State.hurdlePassed (s : State) (h : Nat) : State :=
  { s with boot := { s.boot with passed := h :: s.boot.passed.filter (· != h) } }

/-- The hurdle is not passed. -/
def State.hurdleMissed (s : State) (h : Nat) : State :=
  { s with boot := { s.boot with passed := s.boot.passed.filter (· != h) } }

/-- What a hurdle that ended with PASS or NOFIT brings up, by its way. -/
def State.hurdleUp (s : State) (h way : Nat) (r : HurdleReport) : State := match h with
  | 1 => s.storeHurdle
  | 2 => (if way = 2 then s else s.warmLoad).mtrRestore
  | 3 => (s.calJudge (way == 2 || r.calLost)).seedPtp
  | 4 => s.testHurdle way r
  | 6 => s.loadKeys
  | 7 => { s with boot := { s.boot with onlyS := way == 1 } }
  | 9 => if s.boot.act then s else s.imageHurdle way true
  | 11 => if s.boot.act then { s with boot := { s.boot with skip14 := false } } else if way = 2 then { s with boot := { s.boot with skip14 := true } } else s.fieldHurdle
  | 12 => if way = 2 then s.noDispatch else s
  | 13 => ({ s with boot := { s.boot with noJoin := way == 1 } }).pairStart
  | 14 => if way = 2 then s.noControl else s.controlHurdle way
  | 15 => if s.boot.resume.isSome then s else s.releaseHurdle
  | _ => s

/-- What stands when a hurdle of kind minor or image has failed (R496). -/
def State.hurdleDown (s : State) (h : Nat) : State := match h with
  | 2 => s.mtrRestore
  | 9 => s.runWithout
  | 12 => s.noDispatch
  | 13 => ({ s with boot := { s.boot with noJoin := true } }).pairStart
  | 14 => s.noControl
  | _ => s

/-! ## The order of the hurdles (R495 to R498) -/

/-- Show a hurdle and its way in BOOT_CUR. -/
def State.showHurdle (s : State) (h way : Nat) : State := (s.setFld Reg.BOOT_CUR 0 4 h).setFld Reg.BOOT_CUR 16 2 way

/-- The way a hurdle is taken in this start: H14 is skipped with H11; in an activation run it is NORMAL. -/
def State.wayNow (s : State) (h : Nat) : Nat :=
  if s.boot.act then 0 else if h = 14 && s.boot.skip14 then 2 else s.way h

/-- A hurdle begins: its START entry, and what its beginning does: the DRAM training of H5 asks for its 4 batons (R63); crossings are judged from H8 (R535); the epoch tally is
raised before the first commit of H10, which takes its block's first epoch (R93). -/
def State.hurdleStart (s : State) (h : Nat) : State :=
  let w := s.wayNow h
  let s1 := ({ s with boot := { s.boot with cur := some h, since := s.now } }).showHurdle h w
  let s2 := if 2 ≤ h then s1.ledgerAdd h s.boot.act 1 0 w 0 s.bootMs else s1
  match h with
  | 5 => s2.batonsFor 4 4
  | 8 =>
    let s3 := s2.setFld Reg.LAP_SRC_STAT 0 2 3
    { s3 with lap := { s3.lap with judging := true, selFree := w == 1 } }
  | 10 =>
    let s3 := s2.raiseTally 0
    { s3 with sett := { s3.sett with jumpTo := some ((s3.tallyV 0).toNat * 2 ^ 20) } }
  | _ => s2

/-- The start halts before a hurdle whose way is HALT (R497). H6 and H7 follow, so that the host window serves. -/
def State.hurdleHalt (s : State) (h : Nat) : State :=
  let s1 := ({ s with boot := { s.boot with phase := .halted } }).showHurdle h 3
  ((((s1.setBit Reg.BOOT_CUR 9 true).setBit Reg.BOOT_STAT 2 true).irqBoot 1).raiseEv 0x1903 4 (leBytes 1 h)).hurdleStart 6

/-- A hurdle begins, or halts the start. -/
def State.hurdleBegin (s : State) (h : Nat) : State := if s.wayNow h = 3 then s.hurdleHalt h else s.hurdleStart h

/-- The hurdle after one: without an image H11, H12 and H14 are not reached (R496); a halted start ends with H7; an
activation runs H9, H11, H12, H14 and H15. -/
def State.hurdleAfter (s : State) (h : Nat) : Option Nat :=
  if s.boot.act then (match h with
    | 9 => if s.imgRuns then some 11 else some 15
    | 11 => some 12 | 12 => some 14 | 14 => some 15 | _ => none)
  else if s.boot.phase = .halted && 7 ≤ h then none
  else if 15 ≤ h then none
  else if h = 10 && !s.imgRuns then some 13
  else if h = 13 && !s.imgRuns then some 15
  else some (h + 1)

/-- An activation run ends; a start that it interrupted goes on with the hurdle that was in progress, whose START entry
stands. DESIGN CHOICE: that hurdle's limit counts from there (log entry 71). -/
def State.actEnd (s : State) : State :=
  let s1 := { s with boot := { s.boot with cur := s.boot.resume, act := false, resume := none, since := s.now } }
  match s.boot.resume with
  | some h => s1.showHurdle h (s1.wayNow h)
  | none => s1

/-- The next hurdle begins. -/
def State.hurdleNext (s : State) (h : Nat) : State := match s.hurdleAfter h with
  | some n => s.hurdleBegin n
  | none => s.actEnd

/-- RESULT under BOOT_INJ.FAIL, which inverts the next run of HSEL (R504). -/
def State.hurdleInj (s : State) (h result : Nat) : Nat :=
  if s.bit Reg.BOOT_INJ 0 && s.fld Reg.BOOT_INJ 8 4 = h then (if result = 1 || result = 4 then 2 else 1) else result

/-- The injection has run. -/
def State.hurdleInjRan (s : State) (h : Nat) : State :=
  s.onlyIf (s.fld Reg.BOOT_INJ 8 4 == h) (fun t => t.injRan Reg.BOOT_INJ 0)

/-- The entries that a hurdle's end writes: those of H0 and H1 when H1 ends, else its END entry. -/
def State.ledgerEnd (s : State) (h result way detail : Nat) (act : Bool) : State := match h with
  | 0 => s
  | 1 =>
    let s1 := (s.ledgerAdd 0 false 1 0 0 0 0).ledgerAdd 0 false 2 1 0 0 s.boot.h0ms
    (s1.ledgerAdd 1 false 1 0 0 0 s.boot.h0ms).ledgerAdd 1 false 2 result way detail s.bootMs
  | _ => s.ledgerAdd h act 2 result way detail s.bootMs

/-- A failure is recorded as a spoor event (BOOT_FAIL). -/
def State.hurdleFailEv (s : State) (h result detail : Nat) : State :=
  s.onlyIf (result != 1) (fun t => t.raiseEv 0x1901 3 (leBytes 1 h ++ leBytes 1 result ++ leBytes 1 detail))

/-- A hurdle ends with a result: what it brings up, its entry, and the hurdle that follows; a failed critical hurdle stops
the start (R497). -/
def State.hurdleFinish (s : State) (h way result detail : Nat) (r : HurdleReport) : State :=
  let res := s.hurdleInj h result
  let good := res == 1 || res == 4
  let stops := critical h && !s.boot.act
  let s1 := (s.hurdleInjRan h).onlyIf (h == 5) (fun t => (t.batonRelease 4).batonCancel 4)
  let s2 := if good then ((s1.hurdleUp h way r).hurdlePassed h) else if stops then s1 else (s1.hurdleDown h).hurdleMissed h
  let s3 := (s2.ledgerEnd h res way detail s.boot.act).hurdleFailEv h res detail
  if !stops || good then s3.hurdleNext h
  else { s3 with boot := { s3.boot with phase := .failed, cur := none, failNs := s.oscNs } }

/-- The limit of a hurdle in laps (Table 1), of H9 by the length of the image that is read; that of H0 is 2 s. -/
def State.hurdleLaps (s : State) (h way : Nat) : Nat := match h with
  | 1 => 5 | 2 => 4 | 4 => 4 | 7 => 2 | 8 => 64 | 11 => 2 | 12 => 2 | 14 => 2
  | 5 => if way = 1 then 8 else 2
  | 9 =>
    let len := if s.boot.act then s.runImg.totalLen
      else if way ≠ 2 && s.slotState (s.bootSlot way) = 2 then (s.slotImg (s.bootSlot way)).totalLen else 0
    ceilDiv len 262144 + 16
  | _ => 1

/-- The hurdle in progress has run for its limit and `more` ticks, or ns for H0 (R495). -/
def State.hurdleLate (s : State) (h way more : Nat) : Bool :=
  if h = 0 then decide (2000000000 + more ≤ s.oscNs) else decide (s.boot.since + 4096 * s.hurdleLaps h way + more ≤ s.now)

/-- The work of H5, H8 and H10 that has not been done yet keeps the hurdle from ending well: the training, which waits for its
batons (R63); the selected source valid and in use; the first commit. -/
def State.hurdleReady (s : State) (h way : Nat) : Bool := match h with
  | 5 => s.batonsOf 4 != 0
  | 8 => way == 2 || (s.lapCur == s.lapSel && s.srcValid s.lapCur)
  | 10 => s.sett.started
  | _ => true

/-- The hurdle in progress ends (R495): H0 keeps its time; H9 and H12 are judged by their own rules; an end past the limit is a
TIMEOUT. -/
def State.hurdleEnd (s : State) (r : HurdleReport) : State := match s.boot.cur with
  | none => s
  | some h =>
    let w := s.wayNow h
    if s.hurdleLate h w 1 then s.hurdleFinish h w 3 r.detail.toNat r
    else if r.ok && !s.hurdleReady h w then s
    else
      let s0 := if h = 0 then { s with boot := { s.boot with h0ms := s.bootMs } } else s
      if !r.ok then s0.hurdleFinish h w 2 r.detail.toNat r
      else match h with
        | 9 =>
          let c := if s.boot.act then (true, 0) else s.judgeSlot w
          s0.hurdleFinish 9 w (if c.1 then 1 else 2) c.2 r
        | 12 => let s1 := s0.solverHurdle w; s1.hurdleFinish 12 w (if s1.dsp.nofit then 4 else 1) 0 r
        | _ => s0.hurdleFinish h w 1 0 r

/-- The hurdle in progress has not ended within its limit (R495): RESULT TIMEOUT. -/
def State.hurdleTimeout (s : State) (detail : Nat) : State := match s.boot.cur with
  | none => s
  | some h =>
    if s.hurdleLate h (s.wayNow h) 0 then s.hurdleFinish h (s.wayNow h) 3 detail ⟨false, BitVec.ofNat 8 detail, [], [], [], false⟩ else s

/-- 1 s after a failed critical hurdle the module resets itself (R497). -/
def State.selfReset (s : State) : State :=
  if s.boot.phase = .failed && decide (s.boot.failNs + 1000000000 ≤ s.oscNs) then s.internalReset else s

/-- The judgement of BOOT_CTRL. -/
def State.bootCtrlDeny (s : State) (v : Word) : Option Status :=
  if bitOf v 16 && !s.bit Reg.BOOT_CUR 9 then some .locked
  else if bitsOf v 0 16 != 0 && s.frozen then some .busy
  else none

/-- A refused write of the BOOT block. -/
def State.bootRefused (s : State) : State := (s.count Reg.BOOT_CNT_REFUSE).setBit Reg.BOOT_STAT 5 true

/-- BOOT_CTRL: WAYCLR sets NORMAL (R501), RESTART resets the halted module. -/
def State.bootCtrl (s : State) (v : Word) : State :=
  let s1 := s.forEach ((List.range 16).filter (bitOf v)) (fun t h => t.setFld Reg.BOOT_WAY (2 * h) 2 0)
  s1.onlyIf (bitOf v 16) State.internalReset

/-- IMG_BOOT: the slot run at start; the write sets NORMAL for H9 (R501). -/
def State.imgBoot (s : State) (v : Word) : State := (s.setBit Reg.IMG_BOOT 0 (bitOf v 0)).setFld Reg.BOOT_WAY 18 2 0

/-! ## Activation (R38 to R40) -/

/-- What an activation ends: the solve, the write set, the program and its forces, the field's driven values (R38, R40,
R91, R162, R250). -/
def State.actStops (s : State) : State :=
  let s1 := ((s.cycleAbort).wsResult wsImage).forceNone.forceShow
  let dsp := { s1.dsp with cycle := none, dlOpen := false, nextStart := none, solve := none }
  let field := { s1.field with aoDrv := [], aoDev := [], doImage := [], doFw := false, doLater := [], plaus := resetField.plaus }
  let s2 := { s1 with dsp := dsp, field := field, loops := [], eth := { s1.eth with subs := [] }, sett := { s1.sett with imgChg := true } }
  let s3 := s2.forEach (List.range 64) (fun t n => t.setFld (Reg.LOOP_n_STAT n) 16 2 0)
  ((s3.batonCancel 5).batonRelease 5).drawReserved

/-- IOMAP is applied at an activation (R263, R537): a bank that is not checked yet, or whose REF changes, is checked as at
a start; the channels of every other bank start again. -/
def State.actRefs (s : State) (old : List Nat) : State :=
  s.forEach (List.range 4) (fun t b =>
    if !(t.ref b).checking || listGet old b != t.iomap (4 + b) 1 then t.refStart b else t.refAgain b)

/-- The COLD result of an activation (R175); an accepted trajectory stays with an equal structure hash (R39, R164). -/
def State.actCold (s : State) (keep : Option Traj) : State :=
  let s1 := s.publishCold
  { s1 with dsp := { s1.dsp with accepted := keep } }

/-- An activation run begins with H9 (Table 1 of spec/22_start_up_hurdles.md); a start in progress waits at its hurdle. -/
def State.actBegin (s : State) : State :=
  let wait := if s.boot.phase = .starting && !s.boot.act then s.boot.cur else s.boot.resume
  let passed := s.boot.passed.filter (· != 15)
  ({ s with boot := { s.boot with act := true, resume := wait, passed := passed } }).hurdleBegin 9

/-- An activation takes effect: the image of slot B (`b`) or A runs from this commit, the program stands STOPPED until H14,
and H9, H11, H12, H14 and H15 run with ACT set. -/
def State.activateNow (s : State) (b : Bool) : State :=
  let old := (List.range 4).map (fun i => s.iomap (4 + i) 1)
  let hash := s.runImg.slice 0x1C 32
  let keep := if s.imgRuns && hash == (s.slotImg b).slice 0x1C 32 && !s.dsp.fallback then s.dsp.accepted else none
  let s0 := ((s.actStops.count Reg.IMG_CNT_ACT).irqImg 3).loadImage b
  let s1 := { s0 with boot := { s0.boot with control := false } }
  let s2 := (((s1.actRefs old).drawReserved).toProblem false).actCold keep
  s2.actBegin

/-- At a commit: an accepted ACTIVATE takes effect when its slot is still VALID, else it lapses (R38). -/
def State.activation (s : State) : State := match s.img.pendAct with
  | none => s
  | some b =>
    let s1 := { s with img := { s.img with pendAct := none } }
    if s.slotState b = 2 then s1.activateNow b else s1.imgRefused

/-! ## Power failure (R502, R503) -/

/-- A dip (R502). -/
def State.dip (s : State) (vbulk : Nat) : State :=
  (((s.wr Reg.PWR_VBULK (BitVec.ofNat 32 vbulk)).setBit Reg.PWR_STAT 1 true).count Reg.PWR_CNT_DIP).irqPwr 0

/-- Step 1 of R503: nothing drives, evaluates, solves, commits or is granted. -/
def State.failStops (s : State) : State :=
  let s1 := s.gating (fun t => { t with boot := { t.boot with phase := .shutdown, control := false } })
  let s2 := s1.onlyIf (s1.fbpState == 2) (fun t => t.fbpStopWith 5)
  let s3 := (s2.solveStop .abort).wsResult wsPowerfail
  let s4 := { s3 with dsp := { s3.dsp with dlOpen := false } }
  (s4.drawReserved).batonsDrop.setBit Reg.RTC_CHG 5 false

/-- Step 2: the SHUT entry; DETAIL names the hurdle in progress, or 0x10 when the start was complete. -/
def State.failShut (s : State) (cur : Option Nat) : State :=
  s.ledgerAdd (s.fld Reg.BOOT_CUR 0 4) false 3 0 0 (cur.getD 0x10) s.bootMs

/-- Step 4: the spoor's last writes (R474); nothing when the start scan has not ended. -/
def State.failSpoor (s : State) : State :=
  if !s.spr.ready then { s with spr := { s.spr with closed := true } }
  else
    let s1 := s.forEach s.spr.due (fun t _ => t.programDue goodRb)
    let s2 := s1.forEach s1.spr.queue (fun t _ => t.programQueue goodRb)
    let d := leBytes 4 s2.lap.count ++ leBytes 2 s2.lap.tick ++ [0, 0] ++ leBytes 4 s2.readableEpoch
    let s3 := s2.appendRec 0x1802 4 d (s2.rd Reg.SPR_OPSEC)
    let s4 := s3.forEach ((List.range 4).filter s3.feederOn) (fun t f =>
      t.appendRec 0x0C03 2 (leBytes 4 f ++ leBytes 4 (t.nat (Reg.MTR_F_f_UNSAVED_AI f)) ++ leBytes 4 (t.nat (Reg.MTR_F_f_UNSAVED_AE f)))
        (t.rd Reg.SPR_OPSEC))
    let s5 := s4.forEach s4.spr.queue (fun t _ => t.programQueue goodRb)
    { s5 with spr := { s5.spr with closed := true } }

/-- Of the NV writes that wait or run at detection those in progress are completed, and no other starts (R436, R503). -/
def State.failWrites (s : State) : State :=
  let nv := { s.nv with jobs := s.nv.jobs.take 1, tallyJobs := s.nv.tallyJobs.take 1, pwJobs := s.nv.pwJobs.take 1 }
  { s with nv := nv, key := { s.key with job := s.key.job.filter (fun j => j.counted) } }

/-- A detection comparison of the bulk voltage, PWR_INJ.PFCHK applied; a power failure runs the shutdown of R503 up to its
step 4. `laps`: the feeders' samples of the lap in progress, `ns` the time they cover. -/
def State.powerFail (s : State) (below : Bool) (vbulk : Nat) (laps : List FeederLap) (ns : Nat) : State :=
  let s1 := (s.wr Reg.PWR_VBULK (BitVec.ofNat 32 vbulk)).injRan Reg.PWR_INJ 0
  if s.pfailed || !s.injTest Reg.PWR_INJ 0 below then s1
  else
    let cur := s.boot.cur
    let s2 := (s1.failStops.failWrites).failShut cur
    let s3 := (s2.mtrUnsaved laps ns).warmStore
    let s4 := s3.failSpoor
    { s4 with boot := { s4.boot with cur := none } }

/-- Step 5: the shutdown's duration is written, and the module is held in reset. -/
def State.shutdownDone (s : State) (tenths : Nat) : State :=
  if !s.pfailed then s
  else
    let s1 := s.setFld Reg.PWR_LASTSHUT 0 16 tenths
    { s1 with boot := { s1.boot with phase := .off } }

end Sys2Proof.Machine
end

