-- ==== Sys2Proof/Machine/LiveRead.lean ====
section
/-!
DEFINITION. Machine/LiveRead.lean: what a register shows when it is read or copied. Most registers show the word they
store; those listed here show a value formed from the rest of the state. A read of a register by the host window has the
side effects of R51, R302, R355, R377 and R452.
-/

namespace Sys2Proof.Machine

/-- Index of an address in an array of registers of a stride. -/
def arrayIdx (base stride n a : Nat) : Option Nat :=
  if base ≤ a && (a - base) % stride = 0 && (a - base) / stride < n then some ((a - base) / stride) else none

/-- The word that an array of registers shows at an address, formed from the index. -/
def shownAt (base stride n a : Nat) (f : Nat → Word) : Option Word := (arrayIdx base stride n a).map f

/-- The first that is present. -/
def firstOf : List (Option Word) → Option Word
  | [] => none
  | none :: t => firstOf t
  | some w :: _ => some w

def State.shownZid (s : State) (a : Nat) : Option Word :=
  if a = Reg.ZID_FAULT_STATE then some s.faultStateReg else if a = Reg.ZID_LED_STAT then some s.ledStat else none

def State.shownLap (s : State) (a : Nat) : Option Word :=
  if a = Reg.LAP_COUNT_LO then some (BitVec.ofNat 32 s.lap.count)
  else if a = Reg.LAP_TICK then some (BitVec.ofNat 32 s.lap.tick)
  else if a = Reg.LAP_SRC_STAT then
    some (putBit (putBit (putBit (s.rd a) 3 (s.srcValid 0)) 4 (s.srcValid 1)) 5 (s.srcValid 2))
  else if a = Reg.LAP_BATON_STAT then some s.batonStat
  else shownAt (Reg.LAP_BATON_HOLD 0) 4 6 a s.batonHold

def State.shownSett (s : State) (a : Nat) : Option Word :=
  if a = Reg.SETT_EPOCH_LO then some (BitVec.ofNat 32 s.readableEpoch)
  else if a = Reg.SETT_HELD then some (BitVec.ofNat 32 s.sett.held.length)
  else if a = Reg.SETT_OLDEST_LO then some (BitVec.ofNat 32 (((s.sett.held.getLast?).map (·.epoch)).getD 0))
  else if a = Reg.SETT_WS_STAT then some s.wsStat
  else if a = Reg.SETT_EPOCH_BLOCK then some (s.tallyV 0)
  else firstOf [shownAt (Reg.SETT_WS_ADDR_k 0) 8 1024 a (fun k => BitVec.ofNat 32 (s.wsEntry k).1),
    shownAt (Reg.SETT_WS_VAL_k 0) 8 1024 a (fun k => (s.wsEntry k).2)]

def State.shownAin (s : State) (a : Nat) : Option Word :=
  firstOf [shownAt (Reg.AIN_n_RAW 0) 0x40 32 a s.ainRaw, shownAt (Reg.AIN_n_VAL 0) 0x40 32 a s.ainVal,
    shownAt (Reg.AIN_n_FLAGS 0) 0x40 32 a s.ainFlags,
    shownAt (Reg.AIN_BANK_b_STAT 0) 0x10 4 a (fun b => putBits (s.rd a) 16 2 (s.iomap (4 + b) 1))]

def State.shownDio (s : State) (a : Nat) : Option Word :=
  if a = Reg.DIO_DI_STATE then some s.diState else if a = Reg.DIO_DI_VALID then some s.diValid
  else if a = Reg.DIO_DO_OUT then some s.doOut
  else firstOf [shownAt (Reg.DIO_DI_n_CNT 0) 0x10 32 a s.diCnt,
    shownAt (Reg.DIO_DO_n_STAT 0) 0x10 16 a (fun n => putBit (s.rd a) 24 (s.doOn n))]

def State.shownMtr (s : State) (a : Nat) : Option Word :=
  firstOf [s.mtrWord a, shownAt (Reg.MTR_T_t_STAT 0) 0x40 16 a (fun t => putBit (s.rd a) 2 (s.thermForced t))]

/-- The CAN registers of channel `ch`; `o` is the offset in the channel's window. -/
def State.shownCan (s : State) (ch o : Nat) : Option Word :=
  if o = 0x18 then some s.tscNow
  else firstOf [shownAt 0xC0 0x10 2 o (s.rxqStat ch), shownAt 0x100 4 20 o (s.rxqHead ch 0), shownAt 0x150 4 20 o (s.rxqHead ch 1),
    shownAt 0x600 0x50 32 o (s.txCtrl ch)]

def State.shownPtp (s : State) (a : Nat) : Option Word :=
  if a = Reg.PTP_STATE then some (putBits (s.rd a) 16 16 s.holdSecs) else if a = Reg.PTP_RAMP then some (s.ptpSync.rampWord).1 else none

def State.shownKey (s : State) (a : Nat) : Option Word :=
  if a = Reg.KEY_UPD_TALLY then some (s.tallyV 2)
  else firstOf [shownAt (Reg.KEY_UID 0) 4 4 a (fun i => BitVec.ofNat 32 (Config.uid.toNat >>> (32 * i))),
    shownAt (Reg.KEY_SLOT_k_INFO 0) 8 32 a s.keyInfo, shownAt (Reg.KEY_SLOT_k_SEQ 0) 8 32 a (fun k => (s.keySlot k).inForce.seq),
    shownAt (Reg.KEY_SLOT_k_CHECK 0) 4 32 a s.keyCheck]

def State.shownNvs (s : State) (a : Nat) : Option Word :=
  if a = Reg.NVS_WARM then some s.nvsWarm
  else if a = Reg.NVS_WARM_SEQ then some ((s.newerHead.map (·.seq)).getD 0#32)
  else if a = Reg.NVS_TALLY_VAL then some (s.tallyV (s.fld Reg.NVS_TALLY_SEL 0 9)) else none

/-- The value that a register shows where it is not the word it stores. -/
def State.shown (s : State) (a : Nat) : Option Word := match blockOf a with
  | some .zid => s.shownZid a
  | some .img => if a = Reg.IMG_FLOOR then some (s.tallyV 1) else none
  | some .lap => s.shownLap a
  | some .sett => s.shownSett a
  | some .fab => shownAt (Reg.FAB_LANE_n_DROPS 0) 4 18 a (fun n => BitVec.ofNat 32 (s.recentDrops n))
  | some .loop =>
    if a = Reg.LOOP_RUN_LO then some (s.loopRunWord 0) else if a = Reg.LOOP_RUN_HI then some (s.loopRunWord 32)
    else if a = Reg.LOOP_FLAG_LO then some (s.loopFlagWord 0) else if a = Reg.LOOP_FLAG_HI then some (s.loopFlagWord 32) else none
  | some .fbp => if a = Reg.FBP_STATE then some s.fbpStateReg else none
  | some .ain => s.shownAin a
  | some .aout => shownAt (Reg.AOUT_n_OUT 0) 0x20 16 a s.aoOutReg
  | some .dio => s.shownDio a
  | some .mtr => s.shownMtr a
  | some .can => s.shownCan ((a - Reg.CAN_CTRL 0) / 0x1000) ((a - Reg.CAN_CTRL 0) % 0x1000)
  | some .eth => shownAt (Reg.ETH_SUBVIEW_w 0) 4 8 a s.subView
  | some .ptp => s.shownPtp a
  | some .hwp =>
    if a = Reg.HWP_BOOT then some (BitVec.ofNat 32 s.bootCount)
    else if a = Reg.HWP_LOAD then some (putBits (s.rd a) 8 7 s.hwp.queue.length) else none
  | some .pair =>
    if a = Reg.PAIR_STATE then some s.pairStateReg else if a = Reg.PAIR_LAG then some (BitVec.ofNat 32 s.pairLag)
    else if a = Reg.PAIR_WIT_STATE then some s.witState else none
  | some .key => s.shownKey a
  | some .nvs => s.shownNvs a
  | some .rtc => if a = Reg.RTC_SUBSEC then some s.subsec else none
  | some .spr =>
    if a = Reg.SPR_QUEUE then some (BitVec.ofNat 32 s.spoorWaiting)
    else if a = Reg.SPR_HEADREP then some (putBits (s.rd a) 0 16 ((s.spr.newest.map (·.rep)).getD 0)) else none
  | _ => none

/-- The registers of an analog input of TYPE 0 and of a thermal channel with FSRC 0 read 0. -/
def State.unusedChan (s : State) (a : Nat) : Bool :=
  (0x41000 ≤ a && a < 0x41800 && s.imgRuns && s.ainType ((a - 0x41000) / 0x40) == 0)
    || (0x4E000 ≤ a && a < 0x4E400 && s.fld (Reg.MTR_T_t_CFG ((a - 0x4E000) / 0x40)) 0 2 == 0)

/-- The live value of a register, as a commit copies it (R72, R76). -/
def State.liveValue (s : State) (a : Nat) : Word :=
  if s.unusedChan a then 0#32 else visible a ((s.shown a).getD (s.rd a))

/-- A read latches what R51, R302, R355 and SETT_EPOCH_HI say it latches. -/
def State.readLatch (s : State) (a : Nat) : State :=
  if a = Reg.LAP_COUNT_LO then s.wr Reg.LAP_COUNT_HI (BitVec.ofNat 32 (s.lap.count / 2 ^ 32 % 2 ^ 16))
  else if a = Reg.SETT_EPOCH_LO then s.wr Reg.SETT_EPOCH_HI (BitVec.ofNat 32 (s.readableEpoch / 2 ^ 32))
  else if a = Reg.PTP_NOW_NS then s.nowCapture
  else s.mtrLatch a

/-- A host window read of one register by a key slot: its value, and what the read does. -/
def State.readWord (s : State) (slot a : Nat) : Word × State :=
  if a = Reg.RTC_TIME || a = Reg.RTC_DATE || a = Reg.RTC_SUBSEC then s.shadowRead slot a
  else
    let s1 := s.readLatch a
    let w := s.mtrRead a (if a = Reg.PTP_NOW_NS then s1.liveValue a else s.liveValue a)
    (w, s1.rcClear a)

end Sys2Proof.Machine
end

