-- ==== Sys2Proof/Machine/BusDeny.lean ====
section
/-!
DEFINITION. Machine/BusDeny.lean: the judgement of one word that a host window request writes or reads (R7, R10, R12,
R86, R87, R95, R374, R482 and the rules of the blocks): the status it is refused with, and whether the block's own
refusal counter counts it.
-/

namespace Sys2Proof.Machine

/-- Who refuses: a rule that only the host window protocol counts, or one that the block counts too. -/
abbrev Denial := Status × Bool

/-- A refusal that the block counts. -/
def ownDenial : Option Status → Option Denial := Option.map (fun st => (st, true))

/-- A refusal that only the host window protocol counts. -/
def busDenial : Option Status → Option Denial := Option.map (fun st => (st, false))

/-- The first refusal. -/
def firstDenial : List (Option Denial) → Option Denial
  | [] => none
  | none :: t => firstDenial t
  | some d :: _ => some d

/-- A condition that refuses with a status. -/
def denyIf (c : Bool) (st : Status) : Option Status := if c then some st else none

/-! ## Addresses (R7) -/

/-- The element of an array of structures that an address lies in, when it lies there. -/
def elemOf (base stride n a : Nat) : Option Nat := if base ≤ a && a < base + stride * n then some ((a - base) / stride) else none

/-- A unit register that its kind of unit does not have: of a plant XMIN and XMAX, of a store RAMP, FUELPRICE, EMIS and
WEAR. -/
def ImgBytes.unitHole (m : ImgBytes) (a : Nat) : Bool := match elemOf 0x12000 32 64 a with
  | none => false
  | some u => decide (u < m.nunit) && (if m.isStore u then decide (8 ≤ a % 32) && decide (a % 32 ≤ 0x14) else decide (0x18 ≤ a % 32))

/-- A step register at or above NSTEP. -/
def ImgBytes.stepHole (m : ImgBytes) (a : Nat) : Bool :=
  decide (0x11000 ≤ a) && decide (a < 0x11600) && decide (m.nstepMain ≤ a % 0x200 / 4)

/-- A loop register at or above NLOOP. -/
def ImgBytes.loopHole (m : ImgBytes) (a : Nat) : Bool := match elemOf (Reg.LOOP_n_CTRL 0) 0x40 64 a with
  | none => false
  | some n => decide (m.nloop ≤ n)

/-- A forced-value register past its class's points. -/
def forceHole (a : Nat) : Bool := match elemOf (Reg.FBP_FORCE_c_n 0 0) 0x80 5 a with
  | none => false
  | some c => decide (forcePoints c ≤ a % 0x80 / 4)

/-- An address of a block window that names no register, of the module or of the running image (R7). -/
def State.missing (s : State) (a : Nat) : Bool :=
  a % 4 != 0 || !populated a || forceHole a || (s.imgRuns && (s.runImg.unitHole a || s.runImg.stepHole a || s.runImg.loopHole a))

/-- The address lies in the sett window. -/
def inSettWindow (a : Nat) : Bool := 0x10000000 ≤ a && a < 0x20000000

/-! ## Registers that only an image gives a meaning (R12) -/

/-- A write that is answered NOIMG while no image runs. -/
def needsImage (a : Nat) : Bool := match blockOf a with
  | some .dsp | some .slv | some .loop | some .fbp | some .aout | some .can | some .mtr | some .sett => true
  | some .eth => a == Reg.ETH_CTRL || a == Reg.ETH_SUBSEL || a == Reg.ETH_SUBRESET
  | _ => false

/-- The fault-injection registers. -/
def injAddrs : List Nat := [Reg.IMG_INJ, Reg.LAP_INJ, Reg.SETT_INJ, Reg.DSP_INJ, Reg.DSP_RES_INJ, Reg.SLV_INJ, Reg.FAB_INJ, Reg.LOOP_INJ,
  Reg.FBP_INJ, Reg.AIN_INJ, Reg.AOUT_INJ, Reg.DIO_INJ, Reg.MTR_INJ, Reg.CAN_INJ 0, Reg.CAN_INJ 1, Reg.CAN_INJ 2, Reg.CAN_INJ 3,
  Reg.ETH_INJ, Reg.PTP_INJ, Reg.HWP_INJ, Reg.PAIR_INJ, Reg.KEY_INJ, Reg.NVS_INJ, Reg.RTC_INJ, Reg.SPR_INJ, Reg.ZID_INJ, Reg.BOOT_INJ,
  Reg.PWR_INJ]

/-- A write that sets a bit of an INJ register while ZID_CTRL.INJEN is 0 (R482). -/
def State.injClosed (s : State) (a : Nat) (v : Word) : Bool := injAddrs.contains a && v != 0#32 && !s.bit Reg.ZID_CTRL 0

/-! ## Structure elements (R10) -/

/-- A write to an element of the network, a channel or a feeder that the running image does not define. -/
def State.elemDeny (s : State) (a : Nat) : Bool :=
  let m := s.runImg
  let past (base stride n count : Nat) : Bool := match elemOf base stride n a with
    | none => false
    | some i => decide (count ≤ i)
  past (Reg.DSP_SCENW_s 0) 4 8 m.scenMain || past (Reg.DSP_TOFS_s 0) 4 8 m.scenMain || past (Reg.DSP_PSCALE_s 0) 4 8 m.scenMain
    || past (Reg.DSP_MEAS_u 0) 8 64 m.nunit || past 0x12000 32 64 m.nunit || past 0x13000 8 256 m.npump || past 0x14000 32 64 m.ngroup

/-- A write to a channel whose TYPE is 0, and to AIN_n_RATE of a twin (R269). -/
def State.ainDeny (s : State) (a : Nat) : Bool := match elemOf (Reg.AIN_n_RATE 0) 0x40 32 a with
  | none => false
  | some n => s.ainType n == 0 || (a == Reg.AIN_n_RATE n && (s.twinOf n).isSome)

/-! ## Values (R10) -/

/-- The value of a word that is a bound of the dispatch cycle: R103 and R104. -/
def State.cycleDeny (s : State) (a : Nat) (v : Word) : Bool :=
  let n := bitsOf v 0 16
  (a == Reg.DSP_CYCLE && decide (n < s.fld Reg.DSP_DEADLINE 0 16)) ||
    (a == Reg.DSP_DEADLINE && (n == 0 || decide (s.fld Reg.DSP_CYCLE 0 16 < n)))

/-- LOOP_n_OFFSET is below LOOP_n_PERIOD. -/
def State.offsetDeny (s : State) (a : Nat) (v : Word) : Bool := match elemOf (Reg.LOOP_n_CTRL 0) 0x40 64 a with
  | none => false
  | some n => a == Reg.LOOP_n_OFFSET n && decide (s.fld (Reg.LOOP_n_PERIOD n) 0 18 ≤ bitsOf v 0 18)

/-- The field at bit 0 of a register lies in the range that the image's structure gives it. -/
def State.inGraph (s : State) (a : Nat) (v : Word) : Bool := match fieldOf a 0 with
  | none => true
  | some f => inRange (s.runImg.graphRange a) f.width (f.get v)

/-- Some field of the word would lie outside its range: that of the running image's DEFAULTS, of the manual, or of the
image's structure. Each field is compared on its own (R10). -/
def State.valueDeny (s : State) (a : Nat) (v : Word) : Bool :=
  (s.imgRuns && !inDefaults s.img.defaults a v) || !inPermitted a v || !s.inGraph a v || s.cycleDeny a v
    || s.offsetDeny a v

/-! ## The blocks' own rules -/

/-- The UDP ports that a service may not use again. -/
def State.udpTaken (s : State) (p : Nat) (others : List Nat) : Bool :=
  p == 319 || p == 320 || (s.imgRuns && p == s.teleUdp) || others.contains p

def State.loopDeny (s : State) (a : Nat) (v : Word) : Option Status :=
  match elemOf (Reg.LOOP_n_Bb_Sj_Ck 0 0 0 0) 0x180 64 a with
  | some n =>
    let o := (a - Reg.LOOP_n_Bb_Sj_Ck 0 0 0 0) % 0x180
    s.coefDeny n (o / 0xC0) (o % 0xC0 / 0x18) (o % 0x18 / 4)
  | none => match arrayIdx (Reg.LOOP_n_CTRL 0) 0x40 64 a with
    | some n => s.loopCtrlDeny n v
    | none => none

def State.fbpDeny (s : State) (a : Nat) (v : Word) : Option Status :=
  if a = Reg.FBP_CTRL then s.fbpCtrlDeny v
  else if a = Reg.FBP_FORCE_CMD then denyIf (!pointDefined (bitsOf v 0 11)) .range
  else match arrayIdx (Reg.FBP_XV_k 0) 4 4096 a with
    | some k => denyIf (s.xvOut k) .locked
    | none => match arrayIdx (Reg.FBP_IDW_ADDR_k 0) 8 16 a with
      | some _ => denyIf ((s.imgDataSize ≤ v.toNat || v.toNat % 4 != 0) && v != 0xFFFFFFFF#32) .range
      | none => none

/-- Bits of a DIO_DO_SET write that change and whose DRIVER is not FIRMWARE (R282). -/
def State.doSetDeny (s : State) (v : Word) : Bool :=
  (List.range 16).any (fun n => bitOf v n != s.bit Reg.DIO_DO_SET n && s.doDriver n != 3)

def State.aoSetDeny (s : State) (a : Nat) : Option Status := match arrayIdx (Reg.AOUT_n_SET 0) 0x20 16 a with
  | some n => denyIf (s.aoDriver n != 3) .locked
  | none => none

/-- CAN registers of channel `ch`; `o` is the offset in its window. -/
def State.canDeny (s : State) (ch o : Nat) (v : Word) : Option Status :=
  if o = 0 then s.canCtrlDeny ch v
  else if o = 4 || o = 8 || o = 0xC then s.timingDeny ch (o / 4 - 1) v
  else match arrayIdx 0xC4 0x10 2 o with
    | some q => s.popDeny ch q v
    | none => match elemOf 0x600 0x50 32 o with
      | some b => s.txbDeny ch b ((o - 0x600) % 0x50 / 4) v
      | none => none

/-- ETH registers (R336), and the indices of ETH_SUBSEL and ETH_SUBRESET. -/
def State.ethDeny (s : State) (a : Nat) (v : Word) : Option Status :=
  if a = Reg.ETH_SUBSEL || a = Reg.ETH_SUBRESET then denyIf (decide (s.teleNsub ≤ bitsOf v 0 11)) .range
  else if a = Reg.ETH_PORT_p_CFG 2 then denyIf (bitOf v 2 || bitOf v 3) .range
  else match elemOf (Reg.ETH_PORT_p_CFG 0) 0x20 3 a with
    | some p => denyIf ((a == Reg.ETH_PORT_p_ADDR p || a == Reg.ETH_PORT_p_NET p || a == Reg.ETH_PORT_p_GW p) && s.bit (Reg.ETH_PORT_p_CFG p) 0)
        .locked
    | none => none

/-- KEY registers (R416, R436). -/
def State.keyDeny (s : State) (a : Nat) (v : Word) : Option Status :=
  if a = Reg.KEY_UPD_CTRL then denyIf (bitOf v 0 && (s.keyBusy || s.frozen)) .busy
  else denyIf ((arrayIdx (Reg.KEY_UPD_BUF_w 0) 4 32 a).isSome && s.keyBusy) .busy

/-- The judgement of an unlock attempt (R429, R430). -/
def State.unlockDeny (s : State) (v : Word) : Option Status :=
  let r := bitsOf v 0 3
  if !pwRegion r then some .range
  else if s.pwLocked r then some .busy
  else if !s.pwRight r (bitOf v 8) then some .auth
  else none

/-- The judgement of NVS_PWSET_CTRL (R431, R436). -/
def State.pwsetDeny (s : State) (slot : Nat) (v : Word) : Option Status :=
  let r := bitsOf v 0 3
  if !pwRegion r then some .range
  else if s.lockedOut slot r true then some .locked
  else if s.frozen then some .busy
  else none

/-- The judgement of NVS_TALLY_CTRL.INC (R440, R436). -/
def State.incDeny (s : State) : Option Status :=
  let t := s.fld Reg.NVS_TALLY_SEL 0 9
  if t < 16 then some .locked
  else if s.bit Reg.NVS_TALLY_STAT 0 || s.frozen then some .busy
  else if s.tallyV t = 0xFFFFFFFF#32 then some .range
  else none

/-- NVS registers. -/
def State.nvsDeny (s : State) (slot a : Nat) (v : Word) : Option Status :=
  if a = Reg.NVS_CTRL then denyIf (bitOf v 0 && (s.nv.store.isSome || s.frozen)) .busy
  else if a = Reg.NVS_UNLOCK_CTRL then s.unlockDeny v
  else if a = Reg.NVS_PWSET_CTRL then s.pwsetDeny slot v
  else if a = Reg.NVS_TALLY_CTRL then (if bitOf v 0 then s.incDeny else none)
  else match arrayIdx (Reg.NVS_RGN_r_CFG 0) 0x10 8 a with
    | some r => if r ≤ 2 then some .range else denyIf (s.lockedOut slot r true) .locked
    | none => none

/-- RTC_CTRL: LOAD (R448), DSTFWD and DSTBACK (R451). -/
def State.rtcCtrlDeny (s : State) (v : Word) : Option Status :=
  if bitOf v 0 && !s.loadGood then some .range
  else denyIf ((bitOf v 1 && s.dst) || (bitOf v 2 && !s.dst)) .locked

def State.rtcDeny (s : State) (a : Nat) (v : Word) : Option Status :=
  if a = Reg.RTC_CTRL then s.rtcCtrlDeny v
  else if a = Reg.RTC_TRIM_CTRL then s.trimDeny v
  else if a = Reg.RTC_CHG then s.chgDeny v
  else denyIf (!rtcRange a v) .range

/-- SPR registers: a POST (R476), and a rate entry whose WIN is 0 with MAX not 0. -/
def State.sprDeny (s : State) (a : Nat) (v : Word) : Option Denial :=
  if a = Reg.SPR_FW_CTRL && bitOf v 0 then
    ownDenial (if bitsOf v 8 3 = 0 || 4 < bitsOf v 8 3 then some .range else denyIf (decide (64 ≤ s.spoorWaiting)) .busy)
  else busDenial (denyIf ((arrayIdx (Reg.SPR_RATE_i 0) 4 16 a).isSome && bitsOf v 24 8 == 0 && bitsOf v 16 8 != 0) .range)

/-- The rule of the block that an address lies in. -/
def State.blockDeny (s : State) (slot a : Nat) (v : Word) : Option Denial := match blockOf a with
  | some .img => ownDenial (if a = Reg.IMG_LOAD_CTRL then s.loadCtrlDeny v else if a = Reg.IMG_ACT_CTRL then s.actCtrlDeny v else none)
  | some .loop => ownDenial (s.loopDeny a v)
  | some .fbp => ownDenial (s.fbpDeny a v)
  | some .ain => busDenial (denyIf (s.ainDeny a) .range)
  | some .aout => ownDenial (s.aoSetDeny a)
  | some .dio => ownDenial (denyIf (a == Reg.DIO_DO_SET && s.doSetDeny v) .locked)
  | some .can => ownDenial (s.canDeny ((a - Reg.CAN_CTRL 0) / 0x1000) ((a - Reg.CAN_CTRL 0) % 0x1000) v)
  | some .eth => ownDenial (s.ethDeny a v)
  | some .ptp => ownDenial (s.ptpDeny a v)
  | some .hwp => busDenial (denyIf (a == Reg.HWP_CFG && s.udpTaken (bitsOf v 0 16) []) .range)
  | some .pair => ownDenial (s.pairDeny a v)
  | some .key => firstDenial [ownDenial (s.keyDeny a v), busDenial (denyIf (a == Reg.KEY_CHAL &&
      s.udpTaken (bitsOf v 0 16) [s.fld Reg.HWP_CFG 0 16, s.fld Reg.PAIR_PORTS 0 16]) .range)]
  | some .nvs => ownDenial (s.nvsDeny slot a v)
  | some .rtc => ownDenial (s.rtcDeny a v)
  | some .spr => s.sprDeny a v
  | some .boot => ownDenial (if a = Reg.BOOT_CTRL then s.bootCtrlDeny v else none)
  | _ => none

/-- A range refusal is one that the block counts too (R311, R336, R368, and the tables of LOOP, FBP, PAIR, NVS, RTC, ZID
and BOOT). -/
def countsRange (a : Nat) : Bool := match blockOf a with
  | some .loop | some .fbp | some .can | some .eth | some .ptp | some .pair | some .nvs | some .rtc | some .zid
  | some .boot => true
  | _ => false

/-- A setting that the NV store holds, so that its write starts an NV write (R436). -/
def nvBacked (a : Nat) : Bool :=
  a == Reg.FAB_REPAIR_CTRL || (fieldsAt a).any (fun f => f.acc == .rw && f.rst == .nv)

/-! ## Write sets (R84 to R88, R95) -/

/-- OPEN, or a write of RWS fields, while no set may be opened or joined by the requester (R86). -/
def State.wsDeny (s : State) (slot a : Nat) (v : Word) : Option Status :=
  if a = Reg.SETT_WS_CTRL then denyIf (bitOf v 0 && (s.sett.ws.isSome || s.noTarget)) .busy
  else if hasAcc .rws a then
    (if (s.sett.ws.isSome && !s.wsOwns slot) || s.noTarget then some .busy
    else denyIf (!s.wsRoom a) .length)
  else none

/-- OPEN, or a write of RWS fields, at a standby (R95). -/
def State.standbyDeny (s : State) (a : Nat) (v : Word) : Bool :=
  s.isStandby && ((a == Reg.SETT_WS_CTRL && bitOf v 0) || hasAcc .rws a)

/-! ## One word -/

/-- The judgement of a write of one word by a key slot. -/
def State.wordDeny (s : State) (slot a : Nat) (v : Word) : Option Denial :=
  if inNvWindow a then ownDenial (if a % 4 ≠ 0 then some .range else s.nvDeny slot (nvOffset a) true)
  else if inSettWindow a then some (if s.imgRuns then .range else .noimg, false)
  else if s.missing a then some (.range, blockOf a == some .loop)
  else if needsImage a && !s.imgRuns then some (.noimg, false)
  else if s.injClosed a v then some (.locked, false)
  else firstDenial [busDenial (denyIf (s.standbyDeny a v) .locked), busDenial (denyIf (s.elemDeny a) .range),
    (denyIf (s.valueDeny a v) .range).map (fun st => (st, countsRange a)), s.blockDeny slot a v,
    busDenial (denyIf (nvBacked a && s.frozen) .busy), busDenial (s.wsDeny slot a v)]

/-- The judgement of a read of one word. -/
def State.readDeny (s : State) (slot a : Nat) : Option Denial :=
  if inNvWindow a then ownDenial (s.nvDeny slot (nvOffset a) false) else busDenial (denyIf (s.missing a) .range)

/-- Two addresses lie in one window: the same block (and CAN channel), or the same region of the NV direct window
(R373, R425). -/
def sameWindow (a b : Nat) : Bool :=
  if inNvWindow a || inNvWindow b then inNvWindow a && inNvWindow b && regionOf (nvOffset a) == regionOf (nvOffset b)
  else if inSettWindow a || inSettWindow b then inSettWindow a && inSettWindow b
  else blockOf a == blockOf b && (blockOf a != some .can || a / 0x1000 == b / 0x1000)

/-! ## What a refusal leaves -/

/-- The block's own count and flag of a refusal. -/
def State.blockRefused (s : State) (slot a : Nat) (v : Word) (st : Status) : State :=
  if inNvWindow a then s.nvRefused
  else match blockOf a with
    | some .zid => (s.count Reg.ZID_CNT_REFUSE).setBit Reg.ZID_STAT 2 true
    | some .img => s.imgRefused
    | some .loop => s.loopRefused ((elemOf (Reg.LOOP_n_Bb_Sj_Ck 0 0 0 0) 0x180 64 a).isSome ||
        (arrayIdx (Reg.LOOP_n_CTRL 0) 0x40 64 a).isSome)
    | some .fbp => (s.count Reg.FBP_CNT_REFUSE).setBit Reg.FBP_STAT 5 true
    | some .aout => (s.count Reg.AOUT_CNT_REFUSE).setBit Reg.AOUT_STAT 4 true
    | some .dio => (s.count Reg.DIO_CNT_REFUSE).setBit Reg.DIO_STAT 10 true
    | some .can => let ch := (a - Reg.CAN_CTRL 0) / 0x1000
      (s.count (Reg.CAN_CNT_REFUSE ch)).setBit (Reg.CAN_STAT ch) 8 true
    | some .eth => (s.count Reg.ETH_CNT_REFUSE).setBit Reg.ETH_STAT 5 true
    | some .ptp => s.ptpRefused
    | some .pair => s.pairRefused
    | some .key => (s.count Reg.KEY_CNT_REFUSE).setBit Reg.KEY_STAT 4 true
    | some .nvs =>
      let s1 := s.onlyIf (a == Reg.NVS_UNLOCK_CTRL && st == .auth) (fun t => (t.pwWrong slot (bitsOf v 0 3) (bitOf v 8)).clearUnlock)
      (s1.onlyIf (a == Reg.NVS_TALLY_CTRL) (fun t => t.setFld Reg.NVS_TALLY_STAT 1 2 3)).nvRefused
    | some .rtc => if a = Reg.RTC_CTRL && bitOf v 0 && st = .range then (s.injRan Reg.RTC_INJ 0).badDate else s.rtcRefused
    | some .spr => (s.count Reg.SPR_CNT_REFUSE).setBit Reg.SPR_STAT 4 true
    | some .boot => s.bootRefused
    | _ => s

/-- The first refused word of a request: what its refusal counts, and POISON on an OPEN set that the requester owns
(R88, R374, R482). -/
def State.wordRefused (s : State) (slot a : Nat) (v : Word) (d : Denial) : State :=
  let s1 := s.onlyIf d.2 (fun t => t.blockRefused slot a v d.1)
  let s2 := s1.onlyIf (injAddrs.contains a && d.1 == .locked) (fun t => (t.count Reg.ZID_CNT_REFUSE).setBit Reg.ZID_STAT 2 true)
  s2.onlyIf (s2.wsOwns slot && hasAcc .rws a && (d.1 == .range || d.1 == .length)) State.wsPoison

end Sys2Proof.Machine
end

