-- ==== Sys2Proof/Machine/BusWrite.lean ====
section
/-!
DEFINITION. Machine/BusWrite.lean: what a word that a host window request writes does, once it has passed its checks
(R4, R375 and the registers of each block), and the words of a request together (R374 to R376).
-/

namespace Sys2Proof.Machine

/-! ## One register -/

/-- SETT_WS_CTRL (R84, R89, R91). DESIGN CHOICE: of several bits in one write, OPEN acts first, then SEAL, then ABORT; the spec
gives no order (log entry 71). -/
def State.wsCtrl (s : State) (slot : Nat) (v : Word) : State :=
  let s1 := s.onlyIf (bitOf v 0) (fun t => t.wsBegin slot false)
  let s2 := s1.onlyIf (bitOf v 1) State.wsSeal
  s2.onlyIf (bitOf v 2) (fun t => t.wsResult wsAborted)

/-- IMG_LOAD_LEN, taken while STATE is IDLE. -/
def State.loadLen (s : State) (v : Word) : State := if s.loadState = 0 then s.plainWrite Reg.IMG_LOAD_LEN v else s

/-- LAP_SRC_CTRL: SEL is judged at the next boundary (R536), and a newly named feeder channel has no crossing yet. -/
def State.lapSrc (s : State) (v : Word) : State :=
  let same := bitsOf v 2 4 == s.fld Reg.LAP_SRC_CTRL 2 4
  let s1 := s.plainWrite Reg.LAP_SRC_CTRL v
  let lap := { s1.lap with srcWritten := true, selFree := false }
  { s1 with lap := if same then lap else { lap with feeder := Judge.fresh } }

/-- LAP_INJ: a ZC that is written 0 counts its laps no further (R70). -/
def State.lapInj (s : State) (v : Word) : State :=
  (s.plainWrite Reg.LAP_INJ v).onlyIf (!bitOf v 0) (fun t => { t with lap := { t.lap with zcDone := 0 } })

/-- A measurement register takes its stamp (R114). -/
def State.measWrite (s : State) (a : Nat) (v : Word) : State := (s.wr a v).wr (a + 4) (BitVec.ofNat 32 s.lap.count)

/-- SLV_STAT: clearing RANGE or HEADROOM clears its mark in SLV_FIRSTQ. -/
def State.slvStat (s : State) (v : Word) : State :=
  let s1 := s.plainWrite Reg.SLV_STAT v
  let s2 := s1.onlyIf (bitOf v 0) (fun t => t.setBit Reg.SLV_FIRSTQ 15 false)
  s2.onlyIf (bitOf v 3) (fun t => t.setBit Reg.SLV_FIRSTQ 31 false)

/-- FBP_FORCE_CTRL. -/
def State.forceCtrl (s : State) (v : Word) : State := s.onlyIf (bitOf v 24) State.forceClrAll

/-- FBP_FORCE_c_n: the value in the bits of its class (Table 3 of spec/09_function_block_program.md). -/
def forceMask (c : Nat) (v : Word) : Word := match c with
  | 0 | 1 => BitVec.ofNat 32 (bitsOf v 0 1)
  | 2 => BitVec.ofNat 32 (bitsOf v 0 24)
  | 3 => BitVec.ofNat 32 (bitsOf v 0 16)
  | _ => v

/-- DIO_DO_SET: outputs that it newly switches on come on at most 8 per tick (R282). -/
def State.doSet (s : State) (v : Word) : State :=
  let s1 := s.plainWrite Reg.DIO_DO_SET v
  let s2 := { s1 with field := { s1.field with doFw := true } }
  s2.doGroup ((List.range 16).filter (fun n => s2.doOn n && !s.doOn n))

/-- AOUT_n_SET: the code of a FIRMWARE output, clamped to CLO to CHI, drives it as far as the precedence of R249 lets it
(R272, R273). -/
def State.aoSet (s : State) (n : Nat) (v : Word) : State :=
  (s.plainWrite (Reg.AOUT_n_SET n) v).aoDrive n (s.aoClamp n (bitsOf v 0 16))

/-- MTR_SNAP_CTRL.SNAP (R303). -/
def State.snapAsk (s : State) (v : Word) : State := s.onlyIf (bitOf v 0) (fun t => { t with mtr := { t.mtr with snap := true } })

/-- A CAN register of channel `ch`; `o` is the offset in its window. -/
def State.canWrite (s : State) (ch o : Nat) (v : Word) : State :=
  if o = 0 then s.canCtrl ch v
  else match arrayIdx 0xC4 0x10 2 o with
    | some q => s.canPop ch q
    | none => match elemOf 0x600 0x50 32 o with
      | some b => s.txbWrite ch b ((o - 0x600) % 0x50 / 4) v
      | none => s.plainWrite (Reg.CAN_CTRL ch + o) v

/-- NVS_CTRL: STORE asks for the 8 batons of requester 1 (R435), LOCK drops the requester's unlocks (R429). -/
def State.nvsCtrl (s : State) (slot : Nat) (v : Word) : State :=
  let s1 := if bitOf v 0 then { s with nv := { s.nv with store := some ⟨false, false, 0#32, [], 0⟩ } }.batonRequest 1 8 else s
  s1.onlyIf (bitOf v 1) (fun t => t.unlockDrop slot)

/-- NVS_UNLOCK_CTRL with the right password (R429, R430). -/
def State.unlockCtrl (s : State) (slot : Nat) (v : Word) : State := (s.unlockGain slot (bitsOf v 0 3) (bitOf v 8)).clearUnlock

/-- NVS_TALLY_CTRL.INC (R440). -/
def State.incAsk (s : State) (v : Word) : State :=
  s.onlyIf (bitOf v 0) (fun t => (t.setBit Reg.NVS_TALLY_STAT 0 true).tallyAsk (t.fld Reg.NVS_TALLY_SEL 0 9) true)

/-- NVS registers. -/
def State.nvsWrite (s : State) (slot a : Nat) (v : Word) : State :=
  if a = Reg.NVS_CTRL then s.nvsCtrl slot v
  else if a = Reg.NVS_UNLOCK_CTRL then s.unlockCtrl slot v
  else if a = Reg.NVS_PWSET_CTRL then s.pwsetBegin (bitsOf v 0 3) (bitOf v 8) (bitOf v 9)
  else if a = Reg.NVS_TALLY_CTRL then s.incAsk v
  else if a = Reg.NVS_UNLOCK_LO || a = Reg.NVS_UNLOCK_HI || a = Reg.NVS_PWSET_LO || a = Reg.NVS_PWSET_HI then s.wr a v
  else match arrayIdx (Reg.NVS_RGN_r_CFG 0) 0x10 8 a with
    | some r => s.cryptSet r (bitOf v 2)
    | none => s.plainWrite a v

/-- RTC_CTRL (R448 to R453). -/
def State.rtcCtrl (s : State) (slot : Nat) (v : Word) : State :=
  let s1 := s.onlyIf (bitOf v 0) (fun t => (t.injRan Reg.RTC_INJ 0).loadCal)
  let s2 := s1.onlyIf (bitOf v 1) (fun t => t.dstMove true)
  let s3 := s2.onlyIf (bitOf v 2) (fun t => t.dstMove false)
  s3.onlyIf (bitOf v 3) (fun t => t.freezeEnd slot)

/-- SPR_FW_CTRL.POST (R476): SOURCE 0xFF, CODE 0xFF00 + FW_CODE.CODE. -/
def State.post (s : State) (v : Word) : State :=
  let data := bytesOfWords ((List.range 3).map (fun i => s.rd (Reg.SPR_FW_DATA i)))
  s.onlyIf (bitOf v 0) (fun t => t.raiseEv (0xFF00 + t.fld Reg.SPR_FW_CODE 0 8) (bitsOf v 8 3) data)

/-- A register of a block whose write does more than R4 states, or a plain one. -/
def State.regWrite (s : State) (slot a : Nat) (v : Word) (left : List (Nat × Word)) : State := match blockOf a with
  | some .zid => if a = Reg.ZID_CTRL then s.zidCtrl v else if a = Reg.ZID_FAULT_CTRL then s.faultCtrl v else s.plainWrite a v
  | some .img =>
    if a = Reg.IMG_LOAD_CTRL then s.loadCtrl v else if a = Reg.IMG_ACT_CTRL then s.actCtrl v
    else if a = Reg.IMG_LOAD_LEN then s.loadLen v else if a = Reg.IMG_BOOT then s.imgBoot v else s.plainWrite a v
  | some .lap => if a = Reg.LAP_SRC_CTRL then s.lapSrc v else if a = Reg.LAP_INJ then s.lapInj v else s.plainWrite a v
  | some .sett => if a = Reg.SETT_WS_CTRL then s.wsCtrl slot v else s.plainWrite a v
  | some .dsp =>
    if a = Reg.DSP_MEAS_TOUT || ((arrayIdx (Reg.DSP_MEAS_u 0) 8 64 a).isSome) then s.measWrite a v else s.plainWrite a v
  | some .fab => if a = Reg.FAB_SCRUB_CTRL then s.scrubCtrl v else s.plainWrite a v
  | some .slv => if a = Reg.SLV_STAT then s.slvStat v else s.plainWrite a v
  | some .loop => match arrayIdx (Reg.LOOP_n_CTRL 0) 0x40 64 a with
    | some n => s.loopCtrl n v
    | none => s.plainWrite a v
  | some .fbp =>
    if a = Reg.FBP_CTRL then s.fbpCtrl v left else if a = Reg.FBP_FORCE_CTRL then s.forceCtrl v
    else if a = Reg.FBP_FORCE_CMD then s.forceCmd v
    else match elemOf (Reg.FBP_FORCE_c_n 0 0) 0x80 5 a with
      | some c => s.wr a (forceMask c v)
      | none => s.plainWrite a v
  | some .aout => match arrayIdx (Reg.AOUT_n_SET 0) 0x20 16 a with
    | some n => s.aoSet n v
    | none => s.plainWrite a v
  | some .dio =>
    if a = Reg.DIO_DO_SET then s.doSet v
    else match arrayIdx (Reg.DIO_DO_n_CTRL 0) 0x10 16 a with
      | some n => s.onlyIf (bitOf v 0) (fun t => t.doClear n)
      | none => s.plainWrite a v
  | some .mtr => if a = Reg.MTR_SNAP_CTRL then s.snapAsk v else s.plainWrite a v
  | some .can => s.canWrite ((a - Reg.CAN_CTRL 0) / 0x1000) ((a - Reg.CAN_CTRL 0) % 0x1000) v
  | some .eth => if a = Reg.ETH_SUBRESET then s.subReset (bitsOf v 0 11) else s.plainWrite a v
  | some .ptp =>
    if a = Reg.PTP_CTRL then s.ptpCtrl v else if a = Reg.PTP_RATE then s.rateWrite v
    else if a = Reg.PTP_DOM_d_CFG 0 then s.domCfg 0 v else if a = Reg.PTP_DOM_d_CFG 1 then s.domCfg 1 v else s.plainWrite a v
  | some .pair => if a = Reg.PAIR_CTRL then s.pairCtrl v else if a = Reg.PAIR_WIT_CTRL then s.witCtrl v else s.plainWrite a v
  | some .key =>
    if a = Reg.KEY_UPD_CTRL then s.onlyIf (bitOf v 0) State.keyExec
    else if (arrayIdx (Reg.KEY_UPD_BUF_w 0) 4 32 a).isSome then s.wr a v else s.plainWrite a v
  | some .nvs => s.nvsWrite slot a v
  | some .rtc =>
    if a = Reg.RTC_CTRL then s.rtcCtrl slot v else if a = Reg.RTC_TRIM_CTRL then s.trimWrite v
    else if a = Reg.RTC_CHG then s.chgWrite v else s.plainWrite a v
  | some .spr => if a = Reg.SPR_FW_CTRL then s.post v else s.plainWrite a v
  | some .boot => if a = Reg.BOOT_CTRL then s.bootCtrl v else s.plainWrite a v
  | _ => s.plainWrite a v

/-- A word that has passed its checks: a staged one joins the write set, one of the NV direct window goes to its region,
another is a register's. -/
def State.wordWrite (s : State) (slot : Nat) (left : List (Nat × Word)) (w : Nat × Word) : State :=
  if inNvWindow w.1 then
    let x := nvOffset w.1
    if regionOf x = 1 then s.sramPut (x - 0x40000) (leBytes 4 w.2.toNat) else s.putUserWord x w.2
  else if hasAcc .rws w.1 then s.wsJoin slot w.1 w.2
  else s.regWrite slot w.1 w.2 left

/-! ## The words of a request -/

/-- A word of a USER region, written through page programs (R375). -/
def isUserWord (w : Nat × Word) : Bool := inNvWindow w.1 && isUser (regionOf (nvOffset w.1))

/-- Judge every word, each after the words before it in the request (R374): the index and the refusal of the first that
is refused. -/
def State.scanWords (s : State) (slot : Nat) : List (Nat × Word) → Nat → Option (Nat × Nat × Word × Denial)
  | [], _ => none
  | w :: t, i => match s.wordDeny slot w.1 w.2 with
    | some d => some (i, w.1, w.2, d)
    | none => (s.wordWrite slot [] w).scanWords slot t (i + 1)

/-- Words of a request left unwritten after a failure: POISON when one of them is a staged word (R376). -/
def State.leftUnwritten (s : State) (slot : Nat) (l : List (Nat × Word)) : State :=
  s.onlyIf (l.any (fun w => hasAcc .rws w.1) && (match s.sett.ws with | some w => w.owner == slot | none => false)) State.wsPoison

/-- Write words in request order (R375). -/
def State.writeWords (s : State) (slot : Nat) (left : List (Nat × Word)) (l : List (Nat × Word)) : State :=
  s.forEach l (fun t w => t.wordWrite slot left w)

end Sys2Proof.Machine
end

