-- ==== Sys2Proof/Machine/HwpOps.lean ====
section
/-!
DEFINITION. Machine/HwpOps.lean: the host window protocol (R370 to R385 of spec/15_host_window_protocol.md): the checks
of an arriving request, the operations, their answers, and requests that are repeated or left partly written.
-/

namespace Sys2Proof.Machine

/-! ## Responses -/

/-- Code of a status (Table 2). -/
def statusCode : Status → Nat
  | .ok => 0 | .auth => 1 | .range => 2 | .length => 3 | .busy => 4 | .staleEpoch => 5 | .locked => 6 | .noimg => 7

/-- The response bytes before the MAC (Table 2). -/
def respHeader (op tag slot seq boot : Nat) (a : Answer) (macValid : Bool) : List Byte :=
  [1] ++ leBytes 1 op ++ leBytes 2 tag ++ leBytes 1 (statusCode a.status) ++ leBytes 1 slot ++ leBytes 2 a.data.length ++ leBytes 4 seq
    ++ leBytes 4 boot ++ leBytes 4 a.info.toNat ++ leBytes 1 macValid.toNat ++ [0, 0, 0] ++ leBytes 8 a.epoch ++ bytesOfWords a.data

/-- Send response bytes to a requester (R371). -/
def State.sendResponse (s : State) (port : Nat) (ip : Word) (udp : Nat) (bytes : List Byte) : State :=
  s.send ⟨.response, port, ip.toNat, udp, bytes⟩

/-- A repeated request gets the stored response again (R382). -/
def State.resend (s : State) (port : Nat) (ip : Word) (udp : Nat) (bytes : List Byte) : State :=
  ((s.sendResponse port ip udp bytes).count Reg.HWP_CNT_RESEND).setBit Reg.HWP_STAT 5 true

/-- The newest readable epoch when a request was taken up (R81, R82): that of its waiting request, or, for one that is served
as it comes, the present one. -/
def State.upEpoch (s : State) (src : Src) (op : Nat) : Nat :=
  match s.hwp.queue.find? (fun r => r.slot == src.slot.val && r.op == op) with
  | some r => r.epoch
  | none => s.readableEpoch

/-- The response to a request is stored in place of its slot's earlier one, sent, and sent for the repeats held (R382); its MAC is
under the key of its take-up (R372, R420). -/
def State.storeResponse (s : State) (r : HwpReq) (a : Answer) : State :=
  let head := respHeader r.op r.tag r.slot r.seq.toNat s.bootCount a true
  let bytes := head ++ cmac r.key head
  let stored := ⟨r.slot, r.op, r.seq, a, bytes⟩ :: s.hwp.stored.filter (fun x => x.slot != r.slot)
  let again := s.hwp.held.filter (fun h => h.1 == r.slot)
  let hwp := { s.hwp with queue := s.hwp.queue.erase r, held := s.hwp.held.filter (fun h => h.1 != r.slot), stored := stored }
  (({ s with hwp := hwp }).sendResponse r.port r.ip r.udp bytes).forEach again (fun t h => t.resend h.2.1 h.2.2.1 h.2.2.2 bytes)

/-- The answer of an operation: recorded, and the response to the oldest waiting request of the slot with that OP. -/
def State.answerOp (s : State) (src : Src) (op : Nat) (a : Answer) : State :=
  let s1 := { s with answer := a }
  match s1.hwp.queue.find? (fun r => r.slot == src.slot.val && r.op == op) with
  | none => s1
  | some r => s1.storeResponse r a

/-- A refusal is recorded in HWP_LASTREFUSE and counted (R380); `check` is the row of Table 4. -/
def State.hwpRefused (s : State) (check cnt statBit op slot port : Nat) (st : Status) : State :=
  let rec_ := statusCode st + check * 2 ^ 4 + op % 256 * 2 ^ 8 + slot % 32 * 2 ^ 16 + port * 2 ^ 24
  let s1 := (((s.wr Reg.HWP_LASTREFUSE (BitVec.ofNat 32 rec_)).count Reg.HWP_CNT_REFUSE).count cnt).setBit Reg.HWP_STAT statBit true
  let s2 := s1.onlyIf (st == .auth) (fun t => t.irqHwp 0)
  (s2.onlyIf (st == .busy) (fun t => t.irqHwp 1)).irqHwp 2

/-- An operation is refused at check 5. -/
def State.opRefused (s : State) (src : Src) (op : Nat) (st : Status) (info : Word) : State :=
  (s.hwpRefused 5 Reg.HWP_CNT_OPREF 4 op src.slot.val src.port.val st).answerOp src op ⟨st, info, [], s.upEpoch src op⟩

/-- An operation is done. -/
def State.opOk (s : State) (src : Src) (op : Nat) (info : Word) (data : List Word) (epoch : Nat) : State :=
  (s.count Reg.HWP_CNT_OK).answerOp src op ⟨.ok, info, data, epoch⟩

/-- A request is left partly written (R376). -/
def State.opPartial (s : State) (src : Src) (op : Nat) (info : Word) (epoch : Nat) : State :=
  ((s.setBit Reg.HWP_STAT 6 true).count Reg.HWP_CNT_PARTIAL).answerOp src op ⟨.busy, info, [], epoch⟩

/-! ## READ -/

/-- The sett that a selector names, or the status it is refused with (Table 3 of spec/03_sett_coherent_state.md). `taken` is the
newest readable epoch when the request was taken up, which selector 0 names while its sett is held. -/
def State.selectSett (s : State) (taken sel : Nat) : Sum Status Sett := match s.sett.held with
  | [] => .inl .busy
  | new :: old =>
    if taken = 0 then .inl .busy
    else if sel = 0 then .inr (((new :: old).find? (fun f => f.epoch == taken)).getD new)
    else match (new :: old).find? (fun f => f.epoch == sel) with
      | some f => .inr f
      | none => .inl (if new.epoch < sel then .range else .staleEpoch)

/-- A word of a sett. -/
def Sett.word (f : Sett) (o : Nat) : Word := BitVec.ofNat 32 (leAt (tabGet 0#8 f.bytes) o 4)

/-- A read is refused with STALE_EPOCH. -/
def State.staleRead (s : State) : State := ((s.count Reg.SETT_CNT_STALE).setBit Reg.SETT_STAT 1 true).irqSett 3

/-- A read of the sett window (R78, R80, R81). DESIGN CHOICE: a read at or above SIZE is refused with RANGE also while no sett of
the start is readable; the spec gives no order between R78 and the first row of Table 3 (log entry 71). -/
def State.readSett (s : State) (src : Src) (a n sel : Nat) : State :=
  if !s.imgRuns then s.opRefused src 1 .noimg 0
  else if s.fld Reg.SETT_SIZE 0 25 < a - 0x10000000 + 4 * n then s.opRefused src 1 .range 0
  else match s.selectSett (s.upEpoch src 1) sel with
    | .inl st => (s.onlyIf (st == .staleEpoch) State.staleRead).opRefused src 1 st 0
    | .inr f => s.opOk src 1 0 ((List.range n).map (fun i => f.word (a - 0x10000000 + 4 * i))) f.epoch

/-- The first refusal of a span that is read, with its address. -/
def State.scanRead (s : State) (slot a : Nat) : Nat → Nat → Option (Nat × Denial)
  | _, 0 => none
  | i, n + 1 =>
    let x := a + 4 * i
    if !sameWindow a x then some (x, (.range, inNvWindow a))
    else match s.readDeny slot x with
      | some d => some (x, d)
      | none => s.scanRead slot a (i + 1) n

/-- Read words one after another. -/
def State.readWords (s : State) (slot a : Nat) : Nat → Nat → List Word × State
  | _, 0 => ([], s)
  | i, n + 1 =>
    let x := a + 4 * i
    let r := if inNvWindow x then (s.nvWord (nvOffset x), s) else s.readWord slot x
    let t := r.2.readWords slot a (i + 1) n
    (r.1 :: t.1, t.2)

/-- READ (R373, R377). -/
def State.opRead (s : State) (src : Src) (a n sel : Nat) : State :=
  if a % 4 ≠ 0 then s.opRefused src 1 .range 0
  else if inSettWindow a then s.readSett src a n sel
  else match s.scanRead src.slot.val a 0 n with
    | some (x, d) => (s.onlyIf d.2 (fun t => t.blockRefused src.slot.val x 0#32 d.1)).opRefused src 1 d.1 0
    | none => let r := s.readWords src.slot.val a 0 n
      r.2.opOk src 1 0 r.1 (s.upEpoch src 1)

/-! ## WRITE and WRITELIST -/

/-- OP of a request that writes words. -/
def writeOp (isList : Bool) : Nat := if isList then 3 else 2

/-- The words of request `j` have all been written up to index `done`; `rest` are those left (R375, R376). -/
def State.wordsEnd (s : State) (j : NvJob) (done : Nat) (rest : List (Nat × Word)) : State := match rest with
  | [] => (s.wsServed j.formed).opOk j.src (writeOp j.isList) 0xFFFFFFFF#32 [] j.epoch
  | _ => ((s.leftUnwritten j.src.slot.val rest).wsServed j.formed).opPartial j.src (writeOp j.isList) (BitVec.ofNat 32 done) j.epoch

/-- The block of a word of a USER region was dropped (R427). -/
def State.nvDropped (s : State) (rest : List (Nat × Word)) : State :=
  s.onlyIf ((rest.head?.map isUserWord).getD false) (fun t => (t.setBit Reg.NVS_STAT 2 true).count Reg.NVS_CNT_DROP)

/-- Write the words before the next one of a USER region, then end the request or leave the rest to page programs (R375),
between the jobs `before` and `after` it; a dropped block ends it (R376). -/
def State.wordsRun (s : State) (j : NvJob) (left : List (Nat × Word)) (before after : List NvJob) : State :=
  let room := match j.cut with
    | some c => c - j.index
    | none => j.words.length
  let now := (j.words.take room).takeWhile (fun w => !isUserWord w)
  let s0 := s.writeWords j.src.slot.val left now
  let s1 := { s0 with nv := { s0.nv with jobs := before ++ after } }
  let rest := j.words.drop now.length
  let j1 := { j with words := rest, index := j.index + now.length }
  if now.length = room || rest.isEmpty then
    (s1.onlyIf j.cut.isSome (fun t => t.nvDropped rest)).wordsEnd j j1.index rest
  else { s1 with nv := { s1.nv with jobs := before ++ j1 :: after } }

/-- The words of a page at the front of a job: those of one 256-byte page of a USER region (R426). -/
def pageWords : List (Nat × Word) → List (Nat × Word)
  | [] => []
  | w :: t => (w :: t).takeWhile (fun x => isUserWord x && x.1 / 256 == w.1 / 256)

/-- The direct window's page program completes with its read-back: the page is written, and the request goes on; a page
that fails twice ends it (R426, R427, R376). After a power failure no further page of it starts (R503). -/
def State.directPage (s : State) (rb : ReadBack) : State := match s.nv.jobs with
  | [] => s
  | j :: t =>
    let room := match j.cut with
      | some c => c - j.index
      | none => j.words.length
    let page := pageWords (j.words.take room)
    let r := s.nvPage classHwp rb
    let s1 := { r.1 with nv := { r.1.nv with jobs := t } }
    if r.2 then
      let j1 := { j with words := j.words.drop page.length, index := j.index + page.length }
      let s2 := s1.writeWords j.src.slot.val [] page
      if s.pfailed then s2 else s2.wordsRun j1 [] [] t
    else s1.wordsEnd j j.index j.words

/-- Words of a WRITE that lie in the window of its first word, and whether some do not (R373). -/
def inFirstWindow (l : List (Nat × Word)) : List (Nat × Word) := match l with
  | [] => []
  | w :: t => (w :: t).takeWhile (fun x => sameWindow w.1 x.1)

/-- A request that writes words: every word is judged before any is written (R373 to R376). `drop` is the index of a word
whose block is dropped on its way, `left` what a stopped program leaves (R242). -/
def State.opWords (s : State) (src : Src) (isList : Bool) (l : List (Nat × Word)) (drop : Option Nat) (left : List (Nat × Word)) :
    State :=
  let slot := src.slot.val
  let seen := if isList then l else inFirstWindow l
  match s.scanWords slot seen 0 with
  | some (i, a, v, d) => (s.wordRefused slot a v d).opRefused src (writeOp isList) d.1 (BitVec.ofNat 32 i)
  | none => match l[seen.length]? with
    | some w => (s.wordRefused slot w.1 w.2 (.range, inNvWindow w.1)).opRefused src (writeOp isList) .range (BitVec.ofNat 32 seen.length)
    | none =>
      let f := s.wsForm slot l
      f.1.wordsRun ⟨src, l, 0, isList, match drop with | some c => if c < l.length then some c else none | none => none,
        s.upEpoch src (writeOp isList), f.2⟩ left s.nv.jobs []

/-- The words of a WRITE with their addresses. -/
def spanWords (a : Nat) (vs : List Word) : List (Nat × Word) := vs.zipIdx.map (fun e => (a + 4 * e.2, e.1))

/-- A host window write of one register, as a request of one word. -/
def State.write1 (s : State) (src : Src) (a : Nat) (v : Word) : State := s.opWords src false [(a, v)] none []

/-! ## LOAD and PUBLISH -/

/-- LOAD (R379). -/
def State.opLoad (s : State) (src : Src) (off : Nat) (data : List Word) (drop : Option Nat) : State :=
  match s.chunkDeny off data.length with
  | some st => s.chunkRefused.opRefused src 4 st (s.rd Reg.IMG_LOAD_RCVD)
  | none =>
    let kept := data.take (drop.getD data.length)
    let s1 := s.chunkPut off kept
    if kept.length = data.length then s1.opOk src 4 (s1.rd Reg.IMG_LOAD_RCVD) [] (s.upEpoch src 4)
    else s1.opPartial src 4 (s1.rd Reg.IMG_LOAD_RCVD) (s.upEpoch src 4)

/-- PUBLISH (R378). -/
def State.opPublish (s : State) (src : Src) (seq : Word) : State :=
  if !s.imgRuns then s.opRefused src 5 .noimg 0
  else if s.wsOwns src.slot.val && s.rd Reg.SETT_WS_SEQ = seq then
    let s1 := s.wsSeal
    s1.opOk src 5 (s1.rd Reg.SETT_WS_TARGET_LO) [] (s.upEpoch src 5)
  else s.opRefused src 5 .locked 0

/-- A page program of its writer completes (R426). -/
def State.pageProgram (s : State) (writer : PageWriter) (rb : ReadBack) : State := match writer with
  | .direct => s.directPage rb
  | .store => s.storeStep rb
  | .password => s.pwCopy rb
  | .key => s.keyCopy rb

/-- What remains of a key update completes (R418): its tally increment, when that is not yet durable, and its copy. -/
def State.keyUpdateDone (s : State) (rb : ReadBack) : State :=
  let counted := match s.key.job with
    | some j => j.counted
    | none => true
  (s.onlyIf (!counted) (fun t => t.incrementDone 2 goodRb goodRb)).keyCopy rb

/-! ## An arriving request -/

/-- `n` bytes of a request from offset `o`, lowest first. -/
def reqNum (b : List Byte) (o n : Nat) : Nat := leNat ((b.drop o).take n)

/-- Check 1 of Table 4 refuses. -/
def reqLengthBad (b : List Byte) : Bool :=
  let n := reqNum b 6 2
  b.length < 48 || n == 0 || decide (352 < n) || b.length != 48 + 4 * n

/-- Check 2 of Table 4 refuses. -/
def reqFormBad (b : List Byte) : Bool :=
  let op := reqNum b 1 1
  let n := reqNum b 6 2
  reqNum b 0 1 != 1 || op == 0 || decide (5 < op) || reqNum b 5 1 != 0 || reqNum b 0x14 4 != 0 || reqNum b 0x0F 1 != 0
    || (op == 3 && n % 2 == 1) || (op == 5 && n != 1)

/-- The limit of R381 is reached. -/
def State.hwpFull (s : State) : Bool := 64 ≤ s.hwp.taken || 64 ≤ s.hwp.queue.length + s.hwp.held.length

/-- A request refused at checks 1 to 4 is answered with MACVALID 0. -/
def State.reqRefuse (s : State) (b : List Byte) (p : Nat) (ip : Word) (udp check cnt statBit : Nat) (st : Status) : State :=
  let slot := reqNum b 4 1
  let s1 := s.hwpRefused check cnt statBit (reqNum b 1 1) slot p st
  let a : Answer := ⟨st, 0, [], s.readableEpoch⟩
  let head := respHeader (reqNum b 1 1) (reqNum b 2 2) slot (reqNum b 8 4) s.bootCount a false
  ({ s1 with answer := a }).sendResponse p ip udp (head ++ List.replicate 16 0#8)

/-- The request as it waits for its answer. -/
def reqOf (b : List Byte) (p : Nat) (ip : Word) (udp : Nat) : HwpReq :=
  ⟨reqNum b 4 1, p, reqNum b 1 1, reqNum b 2 2, BitVec.ofNat 32 (reqNum b 8 4), BitVec.ofNat 32 (reqNum b 0x10 4), reqNum b 0x18 8, ip, udp,
    wordsOfBytes ((b.drop 0x20).take (4 * reqNum b 6 2)), 0, []⟩

/-- A request that passed check 4 is taken up (R381, R383). -/
def State.reqTake (s : State) (r : HwpReq) : State :=
  let s1 := s.wr (Reg.HWP_SLOT_k_SEQ r.slot) r.seq
  let up := { r with epoch := s.readableEpoch, key := (s.engineKey engHwp r.slot).getD [] }
  { s1 with hwp := { s1.hwp with taken := s1.hwp.taken + 1, queue := s1.hwp.queue ++ [up] } }

/-- Check 4 of Table 4, once the MAC has been compared: a new request, a repeat of the last one (R382), or AUTH. -/
def State.reqJudge (s : State) (b : List Byte) (p : Nat) (ip : Word) (udp : Nat) (macOk : Bool) : State :=
  let r := reqOf b p ip udp
  let last := s.rd (Reg.HWP_SLOT_k_SEQ r.slot)
  let refuse := s.reqRefuse b p ip udp 4 Reg.HWP_CNT_AUTH 3 .auth
  if !macOk || reqNum b 0x0C 3 != s.bootCount then refuse
  else if newerSeq 32 r.seq.toNat last.toNat then s.reqTake r
  else if r.seq != last then refuse
  else match s.hwp.stored.find? (fun x => x.slot == r.slot && x.seq == r.seq) with
    | some x => s.resend p ip udp x.bytes
    | none =>
      if s.hwp.queue.any (fun q => q.slot == r.slot && q.seq == r.seq) then
        { s with hwp := { s.hwp with held := s.hwp.held ++ [(r.slot, p, ip, udp)] } }
      else refuse

/-- The MAC of a request verifies under its slot's key (R372); HWP_INJ.MACCHK inverts the comparison. -/
def State.reqMac (s : State) (b : List Byte) : Bool × State :=
  let n := b.length - 16
  match s.macUnder engHwp (reqNum b 4 1) (b.take n) with
  | none => (false, s)
  | some mac => (s.injTest Reg.HWP_INJ 0 (mac == b.drop n), s.injRan Reg.HWP_INJ 0)

/-- A request charges HWP 1 FAB block and 1 DRAM block for each started 64 bytes, whether or not it is refused (R384); its
response charges when it is sent. -/
def State.reqCharge (s : State) (b : List Byte) : State :=
  (s.charge classHwp resFab (blocks64 b.length)).charge classHwp resDram (blocks64 b.length)

/-- A request datagram is judged (R380). -/
def State.requestJudge (s : State) (b : List Byte) (p : Nat) (ip : Word) (udp : Nat) : State :=
  if reqLengthBad b then s.reqRefuse b p ip udp 1 Reg.HWP_CNT_LENGTH 0 .length
  else if reqFormBad b then s.reqRefuse b p ip udp 2 Reg.HWP_CNT_RANGE 1 .range
  else
    let full := s.injTest Reg.HWP_INJ 1 s.hwpFull
    let s1 := s.injRan Reg.HWP_INJ 1
    if full then s1.reqRefuse b p ip udp 3 Reg.HWP_CNT_BUSY 2 .busy
    else
      let m := s1.reqMac b
      m.2.reqJudge b p ip udp m.1

/-- A request datagram arrives (R380, R384). -/
def State.request (s : State) (b : List Byte) (p : Nat) (ip : Word) (udp : Nat) : State := (s.reqCharge b).requestJudge b p ip udp

/-- A datagram at the request port of a port whose HWP bit is set. -/
def State.requestFrame (s : State) (b : List Byte) (p : Nat) (ip : Word) (udp : Nat) : State :=
  (s.clearSent).ethTake p (fun t => if t.hwpOn p then t.request b p ip udp else t)

/-! ## Challenges (R421, R422) -/

/-- A datagram of 20 bytes with VER 0x01 and TYPE 0x21. -/
def isChallenge (b : List Byte) : Bool := b.length == 20 && b.take 4 == [0x01#8, 0x21#8, 0#8, 0#8]

/-- A datagram at KEY_CHAL.PORT is answered, or counted as not answered. -/
def State.challenge (s : State) (b : List Byte) (ip : Word) (p udp : Nat) : State :=
  let c := (b.drop 4).take 16
  match s.macUnder engChal (s.fld Reg.KEY_CHAL 16 5) (c ++ uidBytes) with
  | some mac =>
    if isChallenge b && s.key.answered < 4 && s.bit Reg.KEY_CHAL 24 then
      let s1 := ({ s with key := { s.key with answered := s.key.answered + 1 } }).count Reg.KEY_CNT_CHAL
      s1.send ⟨.challenge, p, ip.toNat, udp, [0x01#8, 0x22#8, 0#8, 0#8] ++ c ++ mac⟩
    else (s.count Reg.KEY_CNT_CHALDROP).setBit Reg.KEY_STAT 3 true
  | none => (s.count Reg.KEY_CNT_CHALDROP).setBit Reg.KEY_STAT 3 true

/-- A datagram at KEY_CHAL.PORT of a port whose HWP bit is set. -/
def State.challengeFrame (s : State) (b : List Byte) (p : Nat) (ip : Word) (udp : Nat) : State :=
  s.ethTake p (fun t => if t.hwpOn p then t.challenge b ip p udp else t)

end Sys2Proof.Machine
end

