-- ==== Sys2Proof/Machine/PowerOps.lean ====
section
/-!
DEFINITION. Machine/PowerOps.lean: a loss of power (R426, R443): every operation in progress stops where it stands, and
the write that was in progress leaves what its rule says.
-/

namespace Sys2Proof.Machine

/-- `n` bytes from `base` on, each taken from the new table where the mask says so. -/
def mixBytes (d : Byte) (old new : Tab 8) (base n : Nat) (mask : List Bool) : Tab 8 :=
  (List.range n).foldl (fun t i => if mask.getD i false then tabSet d t (base + i) (tabGet d new (base + i)) else t) old

/-- The direct window's page program stopped: each byte of the page holds its old or its new value (R426). -/
def State.tornUser (s : State) (mask : List Bool) : State := match s.nv.jobs with
  | [] => s
  | j :: _ => match pageWords j.words with
    | [] => s
    | w :: t =>
      let base := nvOffset w.1 - nvOffset w.1 % 256
      let new := (s.forEach (w :: t) (fun u x => u.putUserWord (nvOffset x.1) x.2)).nv.user
      { s with nv := { s.nv with user := mixBytes 0#8 s.nv.user new base 256 mask } }

/-- A page program of a store stopped. -/
def State.tornStore (s : State) (mask : List Bool) : State := match s.storePage? with
  | none => s
  | some p => { s with nv := { s.nv with warmCells := mixBytes 0#8 s.nv.warmCells s.nv.sram (256 * p) 256 mask } }

/-- The write of a warm header stopped: the header fails its CRC. -/
def State.tornHeader (s : State) : State := match s.nv.store with
  | none => s
  | some r =>
    let toB := if r.begun then r.toB else !s.newerHeadB
    if toB then { s with nv := { s.nv with headB := none } } else { s with nv := { s.nv with headA := none } }

/-- A page program of spoor records stopped. -/
def State.tornSpoor (s : State) (mask : List Bool) : State := match s.spr.queue with
  | [] => s
  | r :: _ =>
    let new := (s.programQueue goodRb).nv.ring
    { s with nv := { s.nv with ring := mixBytes 0xFF#8 s.nv.ring new (32 * (r.seq % 65536) - 32 * (r.seq % 65536) % 256) 256 mask } }

/-- The write of a key slot's copy stopped: the copy is not valid (R418, R419). -/
def State.tornKey (s : State) : State := match s.key.job with
  | none => s
  | some j =>
    if !j.counted || j.written then s
    else
      let x := s.keySlot j.slot
      s.putKeySlot j.slot (if x.writesB then { x with copyB := none } else { x with copyA := none })

/-- The cell write of an increment stopped: the cell fails its CHK, and V stays (R443). -/
def State.tornCell (s : State) (t : Nat) : State :=
  if s.nv.tallyJobs.any (fun j => j.1 == t) then
    let x := s.tally t
    s.putTally t { x with cells := x.cells.set ((x.v + 1).toNat % 16) none }
  else s

/-- The base copy write of a fold stopped: the cell holds its value, the copy fails its CHK (R443). -/
def State.tornFold (s : State) (t : Nat) : State :=
  if s.nv.tallyJobs.any (fun j => j.1 == t) then
    let x := s.tally t
    let y := ((s.writeTallyCell t (x.v + 1) goodRb goodRb).1).tally t
    let torn (a b : Option TallyBase) : Option TallyBase := if a = b then b else none
    s.putTally t { y with baseA := torn x.baseA y.baseA, baseB := torn x.baseB y.baseB }
  else s

/-- The write of the newest ledger entry stopped: the entry fails its CRC (R500). -/
def State.tornLedger (s : State) : State :=
  let slot := s.nat Reg.BOOT_LEDGER_HEAD % 2048
  if assocHas s.boot.ledger slot then
    { s with boot := { s.boot with ledger := assocDel s.boot.ledger slot, badSlots := slot :: s.boot.badSlots } }
  else s

/-- The write of a repair map copy stopped: the copy fails its CRC. -/
def State.tornMap (s : State) : State :=
  if !s.mapDue then s else s.putMap s.mapNext.torn

/-- The write of a periodic metering copy stopped. -/
def State.tornMeter (s : State) : State :=
  if !s.mtr.saveDue then s
  else if s.mtrOlderB then { s with mtr := { s.mtr with copyB := none } } else { s with mtr := { s.mtr with copyA := none } }

/-- What the interrupted write leaves. -/
def State.tear (s : State) : Torn → State
  | .nothing => s
  | .userPage m => s.tornUser m
  | .storePage m => s.tornStore m
  | .warmHeader => s.tornHeader
  | .spoorPage m => s.tornSpoor m
  | .keyCopy => s.tornKey
  | .tallyCell t => s.tornCell t.val
  | .tallyFold t => s.tornFold t.val
  | .ledgerEntry => s.tornLedger
  | .mapCopy => s.tornMap
  | .meterCopy => s.tornMeter

/-- The internal supplies fall out of regulation: the module is unpowered; the outputs and interlock lines fall. -/
def State.lossOfPower (s : State) (t : Torn) : State :=
  let s1 := s.tear t
  s1.gating (fun u => { u with boot := { u.boot with phase := .off, cur := none } })

/-! ## A tick without a command -/

/-- One tick of a lap passes: outputs that still wait are switched on, at most 8 per tick (R282), and the reserved
batons come back (R68). The lap's last tick stands until its boundary. DESIGN CHOICE: see notes/assumptions. -/
def State.idle (s : State) : State :=
  if s.boot.phase = .off then s
  else
    let s0 := s.clearSent.doTick
    let s1 := s0.onlyIf (s.lap.tick < 4095) State.fbpTick
    { s1 with lap := { s1.lap with tick := min 4095 (s.lap.tick + 1), rsv := false } }

end Sys2Proof.Machine
end

