-- ==== Sys2Proof/Machine/BootCmds.lean ====
section
/-!
DEFINITION. Machine/BootCmds.lean: the meanings of the commands of spec/22_start_up_hurdles.md, one definition
per command; each is a call of the shared operations of the model.
-/

namespace Sys2Proof.Machine

/-- POWER_UP (R491). It is the start of a module that is off; one that is supplied goes on. -/
def execPowerUp (vbulk : BitVec 16) (sub : BitVec 15) (s : State) : Host.Outcome State Fault Refusal :=
  .next (s.clearSent.powerUp vbulk.toNat sub.toNat)

/-- HURDLE_END (R495). -/
def execHurdleEnd (report : HurdleReport) (s : State) : Host.Outcome State Fault Refusal :=
  s.act (fun t => t.hurdleEnd report)

/-- HURDLE_TIMEOUT (R495). -/
def execHurdleTimeout (detail : BitVec 8) (s : State) : Host.Outcome State Fault Refusal :=
  s.act (fun t => t.hurdleTimeout detail.toNat)

/-- SELF_RESET (R497). -/
def execSelfReset (s : State) : Host.Outcome State Fault Refusal := s.act (fun t => t.selfReset)

/-- WAYCLR (R501). -/
def execWayclr (src : Src) (hurdles : BitVec 16) (s : State) : Host.Outcome State Fault Refusal :=
  s.act (fun t => t.write1 src Reg.BOOT_CTRL (BitVec.ofNat 32 hurdles.toNat))

/-- BOOT_RESTART (R497). -/
def execBootRestart (src : Src) (s : State) : Host.Outcome State Fault Refusal :=
  s.act (fun t => t.write1 src Reg.BOOT_CTRL 0x10000#32)

/-- IMG_BOOT_WRITE (R501). -/
def execImgBootWrite (src : Src) (slotB : Bool) (s : State) : Host.Outcome State Fault Refusal :=
  s.act (fun t => t.write1 src Reg.IMG_BOOT (BitVec.ofNat 32 slotB.toNat))

/-- POWER_FAIL (R502). -/
def execPowerFail (below : Bool) (vbulk : BitVec 16) (laps : List FeederLap) (ns : BitVec 25) (s : State) :
    Host.Outcome State Fault Refusal :=
  s.act (fun t => t.powerFail below vbulk.toNat laps ns.toNat)

/-- DIP (R502). -/
def execDip (vbulk : BitVec 16) (s : State) : Host.Outcome State Fault Refusal := s.act (fun t => t.dip vbulk.toNat)

/-- SHUTDOWN_DONE (R503). -/
def execShutdownDone (tenths : BitVec 16) (s : State) : Host.Outcome State Fault Refusal :=
  s.act (fun t => t.shutdownDone tenths.toNat)

/-- LOSS_OF_POWER (R443). -/
def execLossOfPower (torn : Torn) (s : State) : Host.Outcome State Fault Refusal :=
  s.act (fun t => t.lossOfPower torn)

end Sys2Proof.Machine
end

