-- ==== Sys2Proof/Machine/CanCmds.lean ====
section
/-!
DEFINITION. Machine/CanCmds.lean: the meanings of the commands of spec/12_can_fd_channels.md, one definition
per command; each is a call of the shared operations of the model.
-/

namespace Sys2Proof.Machine

/-- CAN_FRAME_RECEIVE (R320). -/
def execCanFrameReceive (ch : Fin 4) (id : Word) (fmt : Word) (stamp : Word) (data : List Byte) (crcOk : Bool) (staged : Fin 9) (s : State) :
    Host.Outcome State Fault Refusal :=
  s.act (fun t => t.canFrame ch.val id fmt stamp data crcOk staged.val)

/-- CAN_ERROR (R312). -/
def execCanError (ch : Fin 4) (kind : Fin 8) (dataPhase tx : Bool) (weight : CanWeight) (s : State) :
    Host.Outcome State Fault Refusal :=
  s.act (fun t => t.canError ch.val kind.val dataPhase tx weight)

/-- POP (R322). -/
def execPop (src : Src) (ch : Fin 4) (queue : Fin 2) (value : Word) (s : State) : Host.Outcome State Fault Refusal :=
  s.act (fun t => t.write1 src (Reg.CAN_RXQ_q_POP ch.val queue.val) value)

/-- CAN_MODE_WRITE (R316). -/
def execCanModeWrite (src : Src) (ch : Fin 4) (value : Word) (s : State) : Host.Outcome State Fault Refusal :=
  s.act (fun t => t.write1 src (Reg.CAN_CTRL ch.val) value)

/-- CAN_MODE_CHANGE (R316). -/
def execCanModeChange (ch : Fin 4) (s : State) : Host.Outcome State Fault Refusal :=
  s.act (fun t => t.canModeChange ch.val)

/-- BIT_TIMING_WRITE (R314). -/
def execBitTimingWrite (src : Src) (ch : Fin 4) (which : Fin 3) (value : Word) (s : State) :
    Host.Outcome State Fault Refusal :=
  s.act (fun t => t.write1 src (timingReg ch.val which.val) value)

/-- RECOVER (R313). -/
def execRecover (src : Src) (ch : Fin 4) (s : State) : Host.Outcome State Fault Refusal :=
  s.act (fun t => t.write1 src (Reg.CAN_CTRL ch.val) ((t.rd (Reg.CAN_CTRL ch.val) &&& 0x393#32) ||| 0x20#32))

/-- BUSOFF_RECOVERY_END (R313). -/
def execBusoffRecoveryEnd (ch : Fin 4) (s : State) : Host.Outcome State Fault Refusal :=
  s.act (fun t => t.canRecovered ch.val)

/-- LINE_FAULT (R332). -/
def execLineFault (ch : Fin 4) (kind : Fin 5) (present : Bool) (s : State) : Host.Outcome State Fault Refusal :=
  s.act (fun t => t.canLine ch.val kind.val present)

/-- LINEFAULT_END (R333). -/
def execLinefaultEnd (ch : Fin 4) (s : State) : Host.Outcome State Fault Refusal :=
  s.act (fun t => t.canLineUp ch.val)

/-- RESUME (R333). -/
def execResume (src : Src) (ch : Fin 4) (s : State) : Host.Outcome State Fault Refusal :=
  s.act (fun t => t.write1 src (Reg.CAN_CTRL ch.val) ((t.rd (Reg.CAN_CTRL ch.val) &&& 0x393#32) ||| 0x40#32))

/-- TX_READY (R324). -/
def execTxReady (src : Src) (ch : Fin 4) (buf : Fin 32) (s : State) : Host.Outcome State Fault Refusal :=
  s.act (fun t => t.write1 src (Reg.CAN_TXB_b_CTRL ch.val buf.val) 1#32)

/-- TX_ABORT (R326). -/
def execTxAbort (src : Src) (ch : Fin 4) (buf : Fin 32) (s : State) : Host.Outcome State Fault Refusal :=
  s.act (fun t => t.write1 src (Reg.CAN_TXB_b_CTRL ch.val buf.val) 2#32)

/-- TX_START (R325). -/
def execTxStart (ch : Fin 4) (s : State) : Host.Outcome State Fault Refusal := s.act (fun t => t.txStart ch.val)

/-- TX_END (R326). -/
def execTxEnd (ch : Fin 4) (ok : Bool) (stamp : Word) (tdcv : BitVec 8) (vdom : BitVec 16) (s : State) :
    Host.Outcome State Fault Refusal :=
  s.act (fun t => t.txEnd ch.val ok stamp tdcv.toNat vdom.toNat)

/-- BUS_INTEGRATION (R316). -/
def execBusIntegration (ch : Fin 4) (s : State) : Host.Outcome State Fault Refusal :=
  s.act (fun t => t.canIntegrated ch.val)

end Sys2Proof.Machine
end

