-- ==== Sys2Proof/Machine/LapBound.lean ====
section
/-!
DEFINITION. Machine/LapBound.lean: a lap boundary (R42 to R50) and the sett commit that takes place at it (R71 to R79,
R90, R91, R94, R96, R98).
-/

namespace Sys2Proof.Machine

/-! ## The lap that ends -/

/-- The lap length that brings the boundary to the instant at which PTP time is the nearest multiple of 20 ms to one
20 ms after the lap began (Table 1), in ns of the oscillator at the rate in force. -/
def State.netTarget (s : State) : Nat :=
  let rate := 1 + s.rateNow / 1000000000
  let start := s.ptp.clk - (s.ptp.at_ - (s.tscNs : Nat)) * rate
  let t := (((start / 20000000 + 1 / 2).floor + 1) * 20000000 - start) / rate
  (t + 1 / 2).floor.toNat

/-- The length of the lap that ends (R47): coasted, it is that of the lap before; FREE holds its own period (R49) and NET,
when it does not slew, its PTP instants (R43); otherwise it is what the generator aims at, within the limits. -/
def State.lapNs (s : State) (target : Nat) : Nat :=
  if s.lap.coasting then lapLength s.lastLap s.lastLap
  else if s.lapCur = 3 then lapLength s.lastLap s.lap.freePeriod
  else if s.lapCur = 2 && !s.bit Reg.LAP_SRC_STAT 2 then lapLength s.lastLap s.netTarget
  else lapLength s.lastLap target

/-- LAP_COUNT and the time base move on: tick 0 of the new lap (R42). -/
def State.lapAdvance (s : State) (ns : Nat) : State :=
  let lap := { s.lap with count := (s.lap.count + 1) % 2 ^ 48, tick := 0, rsv := false, freePeriod := s.fld Reg.LAP_FREE_PERIOD 0 25 }
  let s1 := ({ s with lap := lap, tscNs := s.tscNs + ns }).wr Reg.LAP_PERIOD (BitVec.ofNat 32 ns)
  (s1.onlyIf s.lap.coasting (fun t => (t.setBit Reg.LAP_STAT 1 true).count Reg.LAP_CNT_COAST)).ptpTo (s1.oscAt 0)

/-- A slew ends (R48). -/
def State.slewEnd (s : State) : State :=
  ({ s with lap := { s.lap with slewLaps := none } }.setBit Reg.LAP_SRC_STAT 2 false).irqLap 2

/-- SLEW at a boundary (R48): it is set while the phase lies more than 50 µs off the source in use, and ends when it does
not; after a change of source it ends at the latest at the 24th lap. A coasting generator has no source to judge by. -/
def State.slewLap (s : State) : State :=
  if s.lap.coasting then s
  else if !s.bit Reg.LAP_SRC_STAT 2 then s.onlyIf (s.phaseFar s.lapCur) (fun t => t.setBit Reg.LAP_SRC_STAT 2 true)
  else match s.lap.slewLaps with
    | some n =>
      if !s.phaseFar s.lapCur || 24 ≤ n + 1 then s.slewEnd else { s with lap := { s.lap with slewLaps := some (n + 1) } }
    | none => s.onlyIf (!s.phaseFar s.lapCur) State.slewEnd

/-- The lap source at a boundary: validity counted, the slew, and the choice of the source (R44 to R48, R536). -/
def State.lapSource (s : State) : State :=
  let t := s.feederCheck
  let s1 := { t with lap := { t.lap with validFor := t.validLaps } }
  let s2 := (s1.slewLap).srcBoundary
  (s2.injRan Reg.LAP_INJ 1)

/-- The limits that count per lap begin again: requests, challenges, frames (R337, R381, R422); failed writes may be repeated
(R427). -/
def State.lapLimits (s : State) : State :=
  let s1 := s.setFld Reg.HWP_LOAD 0 7 s.hwp.taken
  { s1 with hwp := { s1.hwp with taken := 0 }, key := { s1.key with answered := 0 }, eth := { s1.eth with frames := [0, 0, 0] },
            nv := { s1.nv with failed := [] } }

/-! ## The write set at its target (R90, R123, R294) -/

/-- A bound lies above its partner (R123). -/
def State.boundsBad (s : State) : Bool :=
  let m := s.runImg
  let bad (lo hi : Nat) : Bool := decide (s.int hi < s.int lo)
  s.imgRuns &&
    ((List.range m.nunit).any (fun u => if m.isStore u then bad (Reg.DSP_UNIT_u_XMIN u) (Reg.DSP_UNIT_u_XMAX u)
        else bad (Reg.DSP_UNIT_u_QMIN u) (Reg.DSP_UNIT_u_QMAX u))
      || (List.range m.npump).any (fun p => bad (Reg.DSP_PUMP_p_HMIN p) (Reg.DSP_PUMP_p_HMAX p))
      || (List.range m.ngroup).any (fun g => bad (Reg.DSP_GRP_g_TMIN g) (Reg.DSP_GRP_g_TMAX g)))

/-- The entries of a set in force. -/
def State.wsInForce (s : State) (l : List (Nat × Word)) : State :=
  let s1 := s.forEach l (fun t e => t.rwsApply e.1 e.2)
  s1.onlyIf (s.bit Reg.DSP_CTRL 0 && !s1.bit Reg.DSP_CTRL 0) State.enableOff

/-- A sealed set at its target boundary: wholly in force, or discarded with REJECTED (R88, R90, R123, R294). -/
def State.wsTarget (s : State) (epoch : Nat) : State := match s.sett.ws with
  | some w =>
    if !w.sealed || epoch < w.target then s
    else if w.poison then s.wsResult wsRejected
    else
      let t := s.wsInForce w.entries
      if t.boundsBad || t.segthBad then s.wsResult wsRejected else t.wsResult wsApplied
  | none => s

/-! ## The commit -/

/-- `n` bytes of an internal stream, 0 beyond its present length (R177). -/
def State.streamBytes (s : State) (k n : Nat) : List Byte :=
  let b := if k = 0 then s.dsp.header else if k = 1 then s.dsp.setpoints
    else if k < 10 then bytesOfWords (s.dsp.streams.getD (k - 2) [])
    else if k = 16 then bytesAt (tabGet 0#8 s.fbp.applied) 0 s.imgDataSize
    else if k = 17 then s.stream17 else []
  (b ++ List.replicate (n - b.length) 0#8).take n

/-- `n` bytes of registers from an address on. DESIGN CHOICE: a word at an address that is not a register's, an unpopulated offset
or one that is not a multiple of 4, copies as 0; R77 states neither (log entry 71). -/
def State.regBytes (s : State) (a n : Nat) : List Byte := bytesOfWords ((List.range (n / 4)).map (fun i => s.liveValue (a + 4 * i)))

/-- SRC, DST and LEN of a segment of SETTMAP. -/
def ImgBytes.segment (m : ImgBytes) (k : Nat) : Nat × Nat × Nat :=
  (m.sn secSettmap (0x10 + 16 * k) 4, m.sn secSettmap (0x14 + 16 * k) 4, m.sn secSettmap (0x18 + 16 * k) 4)

/-- The bytes that a segment copies. -/
def State.segBytes (s : State) (g : Nat × Nat × Nat) : List Byte :=
  if 0x80000000 ≤ g.1 then s.streamBytes (g.1 - 0x80000000) g.2.2 else s.regBytes g.1 g.2.2

/-- Copy the segments of SETTMAP that `pick` takes into a sett. -/
def State.copySegments (s : State) (pick : Nat × Nat × Nat → Bool) (b : Tab 8) : Tab 8 :=
  let m := s.runImg
  let l := if s.imgRuns then ((List.range (m.sn secSettmap 2 2)).map m.segment).filter pick else []
  l.foldl (fun b g => tabSetList 0#8 b g.2.1 (s.segBytes g)) b

/-- FLAGS of the header (Table 2). -/
def State.settFlags (s : State) (coast clamp : Bool) : Nat :=
  let slew := s.bit Reg.LAP_SRC_STAT 2
  s.sett.jumpTo.isSome.toNat + slew.toNat * 2 + (s.lapCur != s.lapSel).toNat * 4 + coast.toNat * 8 + s.isActive.toNat * 16
    + s.ptpLock.toNat * 64 + clamp.toNat * 128 + s.sett.imgChg.toNat * 256 + s.lapCur * 512

/-- Header bytes before HDRCRC (Table 2). -/
def State.settHead (s : State) (epoch sec ns flags : Nat) : List Byte :=
  leBytes 8 epoch ++ leBytes 8 s.lap.count ++ leBytes 8 sec ++ leBytes 4 ns ++ leBytes 4 flags
    ++ leBytes 4 (if s.imgRuns then s.nat Reg.IMG_SERIAL else 0) ++ leBytes 4 (s.nat Reg.SETT_WS_LAST_SEQ)
    ++ leBytes 4 (s.fld Reg.SETT_WS_LAST 0 3) ++ leBytes 4 (s.fld Reg.LAP_PERIOD 0 25) ++ leBytes 4 s.pairId ++ leBytes 8 0

/-- The commit time (R98): the clock's, raised to 1 ns after that of the sett before; whether it was raised. -/
def State.commitTime (s : State) : Nat × Nat × Bool :=
  let first := s.sett.lastSec == 0 && s.sett.lastNs == 0
  if first || s.sett.lastSec < s.ptpSec || (s.sett.lastSec == s.ptpSec && decide (s.sett.lastNs < s.ptpNs)) then
    (s.ptpSec % 2 ^ 48, s.ptpNs, false)
  else if s.sett.lastNs + 1 < 1000000000 then (s.sett.lastSec, s.sett.lastNs + 1, true)
  else (s.sett.lastSec + 1, 0, true)

/-- A discontinuous commit is flagged, counted and raised. -/
def State.discont (s : State) : State := ((s.setBit Reg.SETT_STAT 0 true).count Reg.SETT_CNT_DISCONT).irqSett 2

/-- The sett of a boundary, from the state as it stands there. -/
def State.makeSett (s : State) (coast : Bool) (epoch : Nat) : Sett :=
  let t := s.commitTime
  let head := s.settHead epoch t.1 t.2.1 (s.settFlags coast t.2.2)
  let crc := if s.bit Reg.SETT_INJ 0 then ~~~(crc32c head) else crc32c head
  ⟨epoch, s.copySegments (fun _ => true) (tabSetList 0#8 [] 0 (head ++ leBytes 4 crc.toNat))⟩

/-- Publish a COLD result that waits for a boundary (R204), start an image that an ACTIVATE named (R38), and judge the
write set: what a commit does before it copies. -/
def State.commitBefore (s : State) : State :=
  let e := s.nextEpoch
  let s1 := s.activation
  let s2 := s1.wsTarget e
  let s3 := ((s2.onlyIf s2.dsp.coldDue State.publishCold).coldEpochs).mtrCommit e
  (s3.onlyIf (!s3.isStandby) State.fbpBoundary).keyCommit

/-- A commit (R71). -/
def State.commit (s : State) (coast : Bool) : State :=
  let e := s.nextEpoch
  let s1 := s.commitBefore
  let t := s1.commitTime
  let f := s1.makeSett coast e
  let s2 := s1.onlyIf s1.sett.jumpTo.isSome State.discont
  let s3 := (s2.onlyIf t.2.2 (fun u => u.setBit Reg.SETT_STAT 3 true)).injRan Reg.SETT_INJ 0
  let sett := { s3.sett with
    epoch := e, started := true, jumpTo := none, fresh := some f, prevSec := s3.sett.lastSec, prevNs := s3.sett.lastNs,
    lastSec := t.1, lastNs := t.2.1, timeValid := s3.ptpLock, imgChg := false }
  let s4 := { s3 with sett := sett }
  let s5 := s4.onlyIf (s.imgRuns && !s3.ptpLock) (fun u => u.setBit Reg.DSP_STAT 4 true)
  ((s5.pairLeavesSync e).mirrorSend f).dispatchOut s

/-- The module commits at this boundary: hurdle H10 has begun (an activation run may stand before its end), no power failure is detected (R92), and the module is no
standby, which shows mirrored setts (R95). -/
def State.commits (s : State) : Bool :=
  !s.pfailed && !s.isStandby && (s.boot.cur == some 10 || s.boot.resume == some 10 || s.boot.passed.contains 10)

/-- What a boundary's own event publishes at tick 0 enters the sett of that boundary (R173, R176): of the segments of the result
streams and of the DSP block, the bytes that the event changed from what they were before it (`s`). Whatever else has changed
since the boundary belongs to the next sett (R72). -/
def State.recopy (t s : State) : State := match t.sett.fresh with
  | none => t
  | some f =>
    if t.lap.tick ≠ 0 then t
    else
      let m := t.runImg
      let pick (g : Nat × Nat × Nat) : Bool := (0x80000000 ≤ g.1 && g.1 < 0x8000000A) || blockOf g.1 == some .dsp
      let segs := if t.imgRuns then ((List.range (m.sn secSettmap 2 2)).map m.segment).filter pick else []
      let one (b : Tab 8) (g : Nat × Nat × Nat) : Tab 8 :=
        ((s.segBytes g).zip (t.segBytes g)).zipIdx.foldl
          (fun b e => if e.1.1 = e.1.2 then b else tabSet 0#8 b (g.2.1 + e.2) e.1.2) b
      { t with sett := { t.sett with fresh := some ⟨f.epoch, segs.foldl one f.bytes⟩ } }

/-- The fresh sett becomes readable (R73): its result is published with it, and its telegrams go out (R341). -/
def State.settReadable (s : State) : State := match s.sett.fresh with
  | none => s
  | some f =>
    let s1 := ({ s with sett := { s.sett with fresh := none } }).settShow f
    let s2 := if s1.dsp.pubFresh then ({ s1 with dsp := { s1.dsp with pubFresh := false } }).irqRes 0 else s1
    s2.telegrams f

/-- What a requester does with its grant (Table 6): the burst runs with its planned lanes, the store writes its header,
the boost begins, the digital outputs switch on. -/
def State.grantUse (s : State) (who : Nat) : State := match who with
  | 0 => s.burstGranted
  | 1 => s.storeGranted
  | 3 => s.setBit Reg.RTC_CHG 5 true
  | 5 => s.fbpGranted
  | _ => s

/-- The governor grants the request that is due, when there is one (R66). -/
def State.batonGrant (s : State) : State := match s.nextGrant with
  | none => s
  | some q => (s.batonGive q).grantUse q.who

/-- The own laps of an active member since its entry, at most 2 (R406). -/
def State.activeLap (s : State) : State :=
  if s.pairState = 4 then { s with pair := { s.pair with activeLaps := min 2 (s.pair.activeLaps + 1) } } else s

/-- The boundary's work for the pair: the witness's grant message, the count of active laps, the step in force. -/
def State.pairLap (s : State) : State := ((s.activeLap).stepShow).sendGrant

/-- A lap boundary (R42, R50): the lap's metering, the time base, the source, the pacer, the limits, and the commit. A bad
crossing of the source in use makes the lap after it coast, unless the source changes there. -/
def State.lapBoundary (s : State) (target : Nat) (meters : List FeederLap) : State :=
  let ns := s.lapNs target
  let coast := s.lap.coasting
  let s1 := ((((s.clearSent).fbpTick).mtrLap s.commits meters ns).wsExpire).lapAdvance ns
  let s2 := (((s1.lapSource).pacerLap).lapLimits).trimLap
  let next := s.lap.coast && s2.lapCur == s.lapCur
  let s3 := { s2.spoorLap with lap := { s2.spoorLap.lap with coast := false, coasting := next } }
  let s4 := s3.canCorr s3.ptpSec s3.ptpNs s3.ptpLock
  let s5 := if s4.commits then s4.commit coast else s4
  s5.pairLap

end Sys2Proof.Machine
end

