-- ==== Sys2Proof/Machine/DspCmds.lean ====
section
/-!
DEFINITION. Machine/DspCmds.lean: the meanings of the commands of spec/04_dispatch_problem.md, 05_solver_lanes_and_schedule.md and 06_deadlines_results_warm_start.md, one definition
per command; each is a call of the shared operations of the model.
-/

namespace Sys2Proof.Machine

/-- CYCLE_START (R100). -/
def execCycleStart (s : State) : Host.Outcome State Fault Refusal := s.act (fun t => (t.cycleStart.recopy t).dispatchOut t)

/-- GRID_POINT (R106). -/
def execGridPoint (s : State) : Host.Outcome State Fault Refusal := s.act (fun t => t.takeGrid.recopy t)

/-- MEAS_WRITE (R114). -/
def execMeasWrite (src : Src) (unit : Option (Fin 64)) (value : Word) (s : State) :
    Host.Outcome State Fault Refusal :=
  s.act (fun t => t.write1 src (measReg unit) value)

/-- ASSEMBLY_DONE (R147). -/
def execAssemblyDone (further : BitVec 32) (s : State) : Host.Outcome State Fault Refusal :=
  s.act (fun t => t.assemblyDone further.toNat)

/-- ITERATION (R134). -/
def execIteration (run : IterRun) (s : State) : Host.Outcome State Fault Refusal := s.act (fun t => t.iteration run)

/-- BURST_WIDEN (R160). -/
def execBurstWiden (s : State) : Host.Outcome State Fault Refusal := s.act (fun t => t.burstWiden)

/-- DEADLINE (R169). -/
def execDeadline (s : State) : Host.Outcome State Fault Refusal := s.act (fun t => (t.deadline.recopy t).dispatchOut t)

end Sys2Proof.Machine
end

