-- ==== Sys2Proof/Machine/EthCmds.lean ====
section
/-!
DEFINITION. Machine/EthCmds.lean: the meanings of the commands of spec/13_ethernet_and_telegrams.md, one definition
per command; each is a call of the shared operations of the model.
-/

namespace Sys2Proof.Machine

/-- ETH_FRAME (R337). -/
def execEthFrame (port : Fin 3) (good : Bool) (s : State) : Host.Outcome State Fault Refusal :=
  s.act (fun t => t.ethFrame port.val good)

/-- STATUS_TELEGRAM (R345). -/
def execStatusTelegram (port : Fin 3) (ip : Word) (payload : List Byte) (s : State) :
    Host.Outcome State Fault Refusal :=
  s.act (fun t => t.statusTelegram port.val ip payload)

/-- ARP_FRAME (R335). -/
def execArpFrame (port : Fin 3) (isReq : Bool) (sip : Word) (smac : BitVec 48) (tip : Word) (s : State) :
    Host.Outcome State Fault Refusal :=
  s.act (fun t => t.arpFrame port.val isReq sip smac tip)

/-- ICMP_ECHO (R335). -/
def execIcmpEcho (port : Fin 3) (ip : Word) (payload : List Byte) (s : State) : Host.Outcome State Fault Refusal :=
  s.act (fun t => t.icmpEcho port.val ip payload)

/-- LINK_CHANGE (R335). -/
def execLinkChange (port : Fin 3) (up gig : Bool) (s : State) : Host.Outcome State Fault Refusal :=
  s.act (fun t => t.linkChange port.val up gig)

/-- SUBRESET (R347). -/
def execSubreset (src : Src) (value : Word) (s : State) : Host.Outcome State Fault Refusal :=
  s.act (fun t => t.write1 src Reg.ETH_SUBRESET value)

/-- ARP_REFRESH (R335). -/
def execArpRefresh (port : Fin 3) (ip : Word) (s : State) : Host.Outcome State Fault Refusal :=
  s.act (fun t => t.arpRefresh port.val ip)

end Sys2Proof.Machine
end

