-- ==== Sys2Proof/Machine/PathOps.lean ====
section
/-!
DEFINITION. Machine/PathOps.lean: what a received block brings about at its consumer beyond the fabric itself, and the walk of
the DRAM scrub (R186, R187, R200 of spec/07_fabric_integrity_and_spares.md).
-/

namespace Sys2Proof.Machine

/-- A block of an NV write is dropped: it is not programmed (Table 2). Of the direct window's oldest waiting request no further
page is programmed, and it is answered with BUSY; every other writer repeats its write (R427). -/
def State.nvBlockDropped (s : State) : State :=
  let s1 := (s.setBit Reg.NVS_STAT 2 true).count Reg.NVS_CNT_DROP
  match s.nv.jobs with
  | [] => s1
  | j :: t => ({ s1 with nv := { s1.nv with jobs := t } }).wordsEnd j j.index j.words

/-- A block is received, and a dropped one's consumer acts (R185, R186). A host window write or load carries the drop in its own
command, and a mirror unit that lost a block does not arrive. -/
def State.blockTaken (s : State) (path cls : Nat) (lane : Option Nat) (use : BlockUse) (got : List Block) : State :=
  (s.blockReceive path cls lane use got).onlyIf (s.failsOf path (got.map Block.bad) == 5 && use == .nvWrite) State.nvBlockDropped

/-- The lines that the DRAM scrub walks: those of the running image's copy, then those of the repair map's (R200). -/
def State.dramLines (s : State) : Nat := (if s.imgRuns then blocks64 s.runImg.totalLen else 0) + blocks64 16576

/-- The DRAM scrub reads its next line, charged to SELF; one that mismatches on all 5 reads is reloaded (R187, R200). -/
def State.dramScrub (s : State) (got : List Block) : State :=
  let t := s.blockReceive 3 classSelf none .image got
  { t with fab := { t.fab with dramAt := if s.fab.dramAt + 1 < s.dramLines then s.fab.dramAt + 1 else 0 } }

end Sys2Proof.Machine
end

