-- ==== Sys2Proof/Machine/FabCmds.lean ====
section
/-!
DEFINITION. Machine/FabCmds.lean: the meanings of the commands of spec/07_fabric_integrity_and_spares.md, one definition
per command; each is a call of the shared operations of the model.
-/

namespace Sys2Proof.Machine

/-- BLOCK_RECEIVE (R185). -/
def execBlockReceive (path : Fin 5) (cls : Fin 12) (lane : Option (Fin 18)) (use : BlockUse) (got : List Block) (s : State) :
    Host.Outcome State Fault Refusal :=
  s.act (fun t => t.blockTaken path.val cls.val (lane.map (fun n => n.val)) use got)

/-- LANE_CHECK (R199). -/
def execLaneCheck (ok : Bool) (s : State) : Host.Outcome State Fault Refusal := s.act (fun t => t.laneCheck ok)

/-- SCRUB_SEGMENT (R197). -/
def execScrubSegment (bad : List (BitVec 12)) (s : State) : Host.Outcome State Fault Refusal :=
  s.act (fun t => t.scrubSegment (bad.map (fun n => n.toNat)))

/-- MAP_WRITE (R195). -/
def execMapWrite (rb : ReadBack) (s : State) : Host.Outcome State Fault Refusal := s.act (fun t => t.mapWrite rb)

/-- DRAM_SCRUB (R200). -/
def execDramScrub (got : List Block) (s : State) : Host.Outcome State Fault Refusal := s.act (fun t => t.dramScrub got)

/-- DRAM_RETRAIN (R201). -/
def execDramRetrain (s : State) : Host.Outcome State Fault Refusal := s.act (fun t => t.dramRetrain)

end Sys2Proof.Machine
end

