-- ==== Sys2Proof/Machine/FbpCmds.lean ====
section
/-!
DEFINITION. Machine/FbpCmds.lean: the meanings of the commands of spec/09_function_block_program.md, one definition
per command; each is a call of the shared operations of the model.
-/

namespace Sys2Proof.Machine

/-- FBP_CYCLE_START (R234). -/
def execFbpCycleStart (s : State) : Host.Outcome State Fault Refusal := s.act (fun t => t.fbpCycleStart)

/-- APPLY (R237). -/
def execFbpApply (executed timedOut : Bool) (s : State) : Host.Outcome State Fault Refusal :=
  s.act (fun t => t.fbpApply executed timedOut)

/-- WATCHDOG (R240). -/
def execFbpWatchdog (left : EvalLeft) (s : State) : Host.Outcome State Fault Refusal :=
  s.act (fun t => t.fbpWatchdog (t.evalLeft left.inst.toNat left.words))

/-- TRAP (R241). -/
def execFbpTrap (inst : BitVec 12) (kind : TrapKind) (left : List (BitVec 20 × Word)) (s : State) :
    Host.Outcome State Fault Refusal :=
  s.act (fun t => t.fbpTrap inst.toNat kind (t.evalLeft inst.toNat left))

/-- STOP (R242). -/
def execFbpStop (src : Src) (left : EvalLeft) (s : State) : Host.Outcome State Fault Refusal :=
  s.act (fun t => t.opWords src false [(Reg.FBP_CTRL, 1#32)] none (t.evalLeft left.inst.toNat left.words))

/-- RESTART (R244). -/
def execFbpRestart (src : Src) (cold : Bool) (s : State) : Host.Outcome State Fault Refusal :=
  s.act (fun t => t.write1 src Reg.FBP_CTRL (BitVec.ofNat 32 (2 + cold.toNat * 4)))

/-- FORCE_SET (R248). -/
def execForceSet (src : Src) (point : BitVec 11) (s : State) : Host.Outcome State Fault Refusal :=
  s.act (fun t => t.write1 src Reg.FBP_FORCE_CMD (BitVec.ofNat 32 (point.toNat + 2 ^ 16)))

/-- FORCE_CLR (R248). -/
def execForceClr (src : Src) (point : BitVec 11) (s : State) : Host.Outcome State Fault Refusal :=
  s.act (fun t => t.write1 src Reg.FBP_FORCE_CMD (BitVec.ofNat 32 (point.toNat + 2 ^ 17)))

/-- CLRALL (R248). -/
def execClrall (src : Src) (s : State) : Host.Outcome State Fault Refusal :=
  s.act (fun t => t.write1 src Reg.FBP_FORCE_CTRL 0x1000000#32)

/-- FORCE_VALUE_WRITE (R248). -/
def execForceValueWrite (src : Src) (cls : Fin 5) (n : Fin 32) (value : Word) (s : State) :
    Host.Outcome State Fault Refusal :=
  s.act (fun t => t.write1 src (Reg.FBP_FORCE_c_n cls.val n.val) value)

/-- XV_WRITE (R233). -/
def execXvWrite (src : Src) (k : Fin 4096) (value : Word) (s : State) : Host.Outcome State Fault Refusal :=
  s.act (fun t => t.write1 src (Reg.FBP_XV_k k.val) value)

end Sys2Proof.Machine
end

