-- ==== Sys2Proof/Machine/FieldCmds.lean ====
section
/-!
DEFINITION. Machine/FieldCmds.lean: the meanings of the commands of spec/10_field_inputs_outputs.md, one definition
per command; each is a call of the shared operations of the model.
-/

namespace Sys2Proof.Machine

/-- AIN_RESULT (R256). -/
def execAinResult (ch : Fin 32) (code : BitVec 24) (overload : Bool) (line : LineMon) (s : State) :
    Host.Outcome State Fault Refusal :=
  s.act (fun t => t.ainResult ch.val code.toInt overload line)

/-- REF_CHECK (R263). -/
def execRefCheck (bank : Fin 4) (uv : BitVec 32) (s : State) : Host.Outcome State Fault Refusal :=
  s.act (fun t => t.refCheck bank.val uv.toNat)

/-- CAL_ROUND (R265). -/
def execCalRound (bank : Fin 4) (ofs : BitVec 24) (gain : BitVec 32) (s : State) : Host.Outcome State Fault Refusal :=
  s.act (fun t => t.calStart bank.val ofs.toInt gain.toNat)

/-- CAL_STEP_END (R266). -/
def execCalStepEnd (bank : Fin 4) (ofs : BitVec 24) (gain : BitVec 32) (diff : BitVec 24) (s : State) :
    Host.Outcome State Fault Refusal :=
  s.act (fun t => t.calEnd bank.val ofs.toInt gain.toNat diff.toNat)

/-- AOUT_SET_WRITE (R273). -/
def execAoutSetWrite (src : Src) (ch : Fin 16) (value : Word) (s : State) : Host.Outcome State Fault Refusal :=
  s.act (fun t => t.write1 src (Reg.AOUT_n_SET ch.val) value)

/-- AOUT_READBACK (R275). -/
def execAoutReadback (ch : Fin 16) (value : BitVec 16) (s : State) : Host.Outcome State Fault Refusal :=
  s.act (fun t => t.aoReadback ch.val value.toInt)

/-- AOUT_FAULT (R276). -/
def execAoutFault (ch : Fin 16) (kind : AoFault) (present : Bool) (s : State) : Host.Outcome State Fault Refusal :=
  s.act (fun t => t.aoTest ch.val kind present)

/-- DI_CHANGE (R279). -/
def execDiChange (ch : Fin 32) (level : Bool) (ua : BitVec 16) (s : State) : Host.Outcome State Fault Refusal :=
  s.act (fun t => t.diChange ch.val level ua.toInt)

/-- DI_FAULT (R278). -/
def execDiFault (ch : Fin 32) (kind : DiFault) (present : Bool) (ua : BitVec 16) (s : State) :
    Host.Outcome State Fault Refusal :=
  s.act (fun t => t.diTest ch.val kind present ua.toInt)

/-- DO_TRIP (R280). -/
def execDoTrip (ch : Fin 16) (tooMuch : Bool) (ma : BitVec 16) (s : State) : Host.Outcome State Fault Refusal :=
  s.act (fun t => t.doTrip ch.val tooMuch ma.toNat)

/-- DO_RETRY (R280). -/
def execDoRetry (ch : Fin 16) (s : State) : Host.Outcome State Fault Refusal := s.act (fun t => t.doRetry ch.val)

/-- DO_FAULT (R281). -/
def execDoFault (ch : Fin 16) (kind : DoFault) (present : Bool) (ma : BitVec 16) (s : State) :
    Host.Outcome State Fault Refusal :=
  s.act (fun t => t.doTest ch.val kind present ma.toNat)

/-- CLRFAULT (R280). -/
def execClrfault (src : Src) (ch : Fin 16) (on : Bool) (s : State) : Host.Outcome State Fault Refusal :=
  s.act (fun t => t.write1 src (Reg.DIO_DO_n_CTRL ch.val) (BitVec.ofNat 32 on.toNat))

/-- DO_SET_WRITE (R282). -/
def execDoSetWrite (src : Src) (value : Word) (s : State) : Host.Outcome State Fault Refusal :=
  s.act (fun t => t.write1 src Reg.DIO_DO_SET value)

/-- FIELD_SUPPLY_CHECK (R283). -/
def execFieldSupplyCheck (mv : BitVec 16) (rev : Bool) (s : State) : Host.Outcome State Fault Refusal :=
  s.act (fun t => t.supplyCheck mv.toNat rev)

/-- FIELD_SUPPLY_RETURN (R283). -/
def execFieldSupplyReturn (s : State) : Host.Outcome State Fault Refusal := s.act (fun t => t.supplyReturn)

/-- RAW_EDGE (R279). -/
def execRawEdge (ch : Fin 32) (close : Bool) (s : State) : Host.Outcome State Fault Refusal :=
  s.act (fun t => t.rawEdge ch.val close)

/-- DI_FAULT_END (R278). -/
def execDiFaultEnd (ch : Fin 32) (s : State) : Host.Outcome State Fault Refusal :=
  s.act (fun t => t.diFaultEnd ch.val)

/-- AOUT_FAULT_END (R276). -/
def execAoutFaultEnd (ch : Fin 16) (kind : AoFault) (s : State) : Host.Outcome State Fault Refusal :=
  s.act (fun t => t.aoFaultEnd ch.val kind)

end Sys2Proof.Machine
end

