-- ==== Sys2Proof/Machine/HwpCmds.lean ====
section
/-!
DEFINITION. Machine/HwpCmds.lean: the meanings of the commands of spec/15_host_window_protocol.md, one definition
per command; each is a call of the shared operations of the model.
-/

namespace Sys2Proof.Machine

/-- REGISTER_WRITE (R4). -/
def execRegisterWrite (src : Src) (addr : Word) (value : Word) (s : State) : Host.Outcome State Fault Refusal :=
  s.act (fun t => t.write1 src addr.toNat value)

/-- HWP_REQUEST (R380). -/
def execHwpRequest (payload : List Byte) (port : Fin 3) (ip : Word) (udp : BitVec 16) (s : State) :
    Host.Outcome State Fault Refusal :=
  s.act (fun t => t.requestFrame payload port.val ip udp.toNat)

/-- READ (R373). -/
def execRead (src : Src) (addr : Word) (count : BitVec 16) (sel : BitVec 64) (s : State) :
    Host.Outcome State Fault Refusal :=
  s.act (fun t => t.opRead src addr.toNat count.toNat sel.toNat)

/-- EPOCH_LO_READ (R82). -/
def execEpochLoRead (src : Src) (s : State) : Host.Outcome State Fault Refusal :=
  s.act (fun t => t.opRead src Reg.SETT_EPOCH_LO 1 0)

/-- WRITE (R375). -/
def execWrite (src : Src) (addr : Word) (values : List Word) (drop : Option Nat) (s : State) :
    Host.Outcome State Fault Refusal :=
  s.act (fun t => t.opWords src false (spanWords addr.toNat values) drop [])

/-- WRITELIST (R374). -/
def execWritelist (src : Src) (pairs : List (Word × Word)) (drop : Option Nat) (s : State) :
    Host.Outcome State Fault Refusal :=
  s.act (fun t => t.opWords src true (pairs.map (fun e => (e.1.toNat, e.2))) drop [])

/-- LOAD (R379). -/
def execLoad (src : Src) (offset : Word) (data : List Word) (drop : Option Nat) (s : State) :
    Host.Outcome State Fault Refusal :=
  s.act (fun t => t.opLoad src offset.toNat data drop)

/-- PUBLISH (R378). -/
def execPublish (src : Src) (seq : Word) (s : State) : Host.Outcome State Fault Refusal :=
  s.act (fun t => t.opPublish src seq)

end Sys2Proof.Machine
end

