-- ==== Sys2Proof/Machine/ImgCmds.lean ====
section
/-!
DEFINITION. Machine/ImgCmds.lean: the meanings of the commands of spec/01_network_image.md, one definition
per command; each is a call of the shared operations of the model.
-/

namespace Sys2Proof.Machine

/-- OPEN (R33). -/
def execImgOpen (src : Src) (slotB : Bool) (s : State) : Host.Outcome State Fault Refusal :=
  s.act (fun t => t.write1 src Reg.IMG_LOAD_CTRL (BitVec.ofNat 32 (1 + slotB.toNat * 2 ^ 8)))

/-- CHECK (R33). -/
def execImgCheck (src : Src) (s : State) : Host.Outcome State Fault Refusal :=
  s.act (fun t => t.write1 src Reg.IMG_LOAD_CTRL 2#32)

/-- CHECK_COMPLETE (R21). -/
def execCheckComplete (s : State) : Host.Outcome State Fault Refusal := s.act (fun t => t.checkComplete)

/-- COMMIT (R33). -/
def execImgCommit (src : Src) (s : State) : Host.Outcome State Fault Refusal :=
  s.act (fun t => t.write1 src Reg.IMG_LOAD_CTRL 4#32)

/-- COMMIT_COMPLETE (R26). -/
def execCommitComplete (readBackOk : Bool) (s : State) : Host.Outcome State Fault Refusal :=
  s.act (fun t => t.commitEnd readBackOk)

/-- ABORT (R34). -/
def execImgAbort (src : Src) (s : State) : Host.Outcome State Fault Refusal :=
  s.act (fun t => t.write1 src Reg.IMG_LOAD_CTRL 8#32)

/-- ACTIVATE (R37). -/
def execActivate (src : Src) (slotB : Bool) (s : State) : Host.Outcome State Fault Refusal :=
  s.act (fun t => t.write1 src Reg.IMG_ACT_CTRL (BitVec.ofNat 32 (1 + slotB.toNat * 2 ^ 8)))

/-- FLOOR (R30). -/
def execFloor (src : Src) (s : State) : Host.Outcome State Fault Refusal :=
  s.act (fun t => t.write1 src Reg.IMG_ACT_CTRL 0x10000#32)

end Sys2Proof.Machine
end

