-- ==== Sys2Proof/Machine/KeyCmds.lean ====
section
/-!
DEFINITION. Machine/KeyCmds.lean: the meanings of the commands of spec/17_keys.md, one definition
per command; each is a call of the shared operations of the model.
-/

namespace Sys2Proof.Machine

/-- UPD_BUF_WRITE (R416). -/
def execUpdBufWrite (src : Src) (w : Fin 32) (value : Word) (s : State) : Host.Outcome State Fault Refusal :=
  s.act (fun t => t.write1 src (Reg.KEY_UPD_BUF_w w.val) value)

/-- EXEC (R416). -/
def execKeyExec (src : Src) (on : Bool) (s : State) : Host.Outcome State Fault Refusal :=
  s.act (fun t => t.write1 src Reg.KEY_UPD_CTRL (BitVec.ofNat 32 on.toNat))

/-- KEY_UPDATE_DONE (R418). -/
def execKeyUpdateDone (rb : ReadBack) (s : State) : Host.Outcome State Fault Refusal :=
  s.act (fun t => t.keyUpdateDone rb)

/-- CHALLENGE (R421). -/
def execChallenge (port : Fin 3) (ip : Word) (udp : BitVec 16) (payload : List Byte) (s : State) :
    Host.Outcome State Fault Refusal :=
  s.act (fun t => t.challengeFrame payload port.val ip udp.toNat)

end Sys2Proof.Machine
end

