-- ==== Sys2Proof/Machine/LapCmds.lean ====
section
/-!
DEFINITION. Machine/LapCmds.lean: the meanings of the commands of spec/02_laps_budgets_batons.md, one definition
per command; each is a call of the shared operations of the model.
-/

namespace Sys2Proof.Machine

/-- LAP_BOUNDARY (R42). -/
def execLapBoundary (target : BitVec 25) (meters : List FeederLap) (s : State) : Host.Outcome State Fault Refusal :=
  s.act (fun t => t.lapBoundary target.toNat meters)

/-- MAINS_CROSSING (R535). -/
def execMainsCrossing (feeder : Bool) (deviation : BitVec 32) (freq : BitVec 17) (s : State) :
    Host.Outcome State Fault Refusal :=
  s.act (fun t => t.crossing feeder deviation.toNat freq.toNat)

/-- MISSING_CROSSING (R535). -/
def execMissingCrossing (feeder : Bool) (s : State) : Host.Outcome State Fault Refusal :=
  s.act (fun t => t.crossingMissing feeder)

/-- LAP_SRC_WRITE (R536). -/
def execLapSrcWrite (src : Src) (value : Word) (s : State) : Host.Outcome State Fault Refusal :=
  s.act (fun t => t.write1 src Reg.LAP_SRC_CTRL value)

/-- FREE_PERIOD_WRITE (R49). -/
def execFreePeriodWrite (src : Src) (value : Word) (s : State) : Host.Outcome State Fault Refusal :=
  s.act (fun t => t.write1 src Reg.LAP_FREE_PERIOD value)

/-- SLEW_DONE (R48). -/
def execSlewDone (s : State) : Host.Outcome State Fault Refusal :=
  s.act (fun t => t.onlyIf (t.bit Reg.LAP_SRC_STAT 2) State.slewEnd)

/-- COUNT_LO_READ (R51). -/
def execCountLoRead (src : Src) (s : State) : Host.Outcome State Fault Refusal :=
  s.act (fun t => t.opRead src Reg.LAP_COUNT_LO 1 0)

/-- PACER_GRANT (R60). -/
def execPacerGrant (resource : Fin 4) (pending : PacerAsk) (s : State) : Host.Outcome State Fault Refusal :=
  s.act (fun t => t.pacerGrant resource.val (pending.units.map (fun e => (e.1.val, e.2.toNat))) pending.pos)

/-- BATON_GRANT (R66). -/
def execBatonGrant (s : State) : Host.Outcome State Fault Refusal := s.act (fun t => t.batonGrant)

/-- BATON_AGE (R65). -/
def execBatonAge (who : Fin 6) (s : State) : Host.Outcome State Fault Refusal := s.act (fun t => t.batonAge who.val)

/-- BATON_WAIT_TIMEOUT (R67). -/
def execBatonWaitTimeout (s : State) : Host.Outcome State Fault Refusal := s.act (fun t => t.burstNarrow)

end Sys2Proof.Machine
end

