-- ==== Sys2Proof/Machine/LoopCmds.lean ====
section
/-!
DEFINITION. Machine/LoopCmds.lean: the meanings of the commands of spec/08_loop_engine.md, one definition
per command; each is a call of the shared operations of the model.
-/

namespace Sys2Proof.Machine

/-- LOOP_SAMPLE (R211). -/
def execLoopSample (loop : Fin 64) (busy : Bool) (delay : BitVec 16) (s : State) : Host.Outcome State Fault Refusal :=
  s.act (fun t => t.loopSample loop.val busy delay.toNat)

/-- RUN (R216). -/
def execLoopRun (src : Src) (loop : Fin 64) (on : Bool) (s : State) : Host.Outcome State Fault Refusal :=
  s.act (fun t => t.write1 src (Reg.LOOP_n_CTRL loop.val) (BitVec.ofNat 32 on.toNat))

/-- SWAP (R223). -/
def execLoopSwap (src : Src) (loop : Fin 64) (on : Bool) (s : State) : Host.Outcome State Fault Refusal :=
  s.act (fun t => t.write1 src (Reg.LOOP_n_CTRL loop.val) (BitVec.ofNat 32 ((t.bit (Reg.LOOP_n_CTRL loop.val) 0).toNat + on.toNat * 2)))

/-- RESET (R216). -/
def execLoopReset (src : Src) (loop : Fin 64) (on : Bool) (s : State) : Host.Outcome State Fault Refusal :=
  s.act (fun t => t.write1 src (Reg.LOOP_n_CTRL loop.val) (BitVec.ofNat 32 ((t.bit (Reg.LOOP_n_CTRL loop.val) 0).toNat + on.toNat * 4)))

/-- COEF_WRITE (R222). -/
def execCoefWrite (src : Src) (loop : Fin 64) (bank : Fin 2) (stage : Fin 8) (k : Fin 6) (value : Word) (s : State) :
    Host.Outcome State Fault Refusal :=
  s.act (fun t => t.write1 src (Reg.LOOP_n_Bb_Sj_Ck loop.val bank.val stage.val k.val) value)

end Sys2Proof.Machine
end

