-- ==== Sys2Proof/Machine/MtrCmds.lean ====
section
/-!
DEFINITION. Machine/MtrCmds.lean: the meanings of the commands of spec/11_plant_metering.md, one definition
per command; each is a call of the shared operations of the model.
-/

namespace Sys2Proof.Machine

/-- MOD_FAULT (R289). -/
def execModFault (feeder : Fin 4) (ch : Fin 6) (kind : ModFault) (present : Bool) (s : State) :
    Host.Outcome State Fault Refusal :=
  s.act (fun t => t.modFault feeder.val ch.val kind present)

/-- HARMONIC_WINDOW (R296). -/
def execHarmonicWindow (feeder : Fin 4) (freq : BitVec 32) (bins : List (List Nat)) (s : State) :
    Host.Outcome State Fault Refusal :=
  s.act (fun t => t.harmonics feeder.val freq.toNat bins)

/-- SNAP (R303). -/
def execSnap (src : Src) (on : Bool) (s : State) : Host.Outcome State Fault Refusal :=
  s.act (fun t => t.write1 src Reg.MTR_SNAP_CTRL (BitVec.ofNat 32 on.toNat))

/-- NVSAVE (R307). -/
def execNvsave (ok : Bool) (s : State) : Host.Outcome State Fault Refusal := s.act (fun t => t.mtrSave ok)

/-- MTR_LO_READ (R302). -/
def execMtrLoRead (src : Src) (addr : Word) (s : State) : Host.Outcome State Fault Refusal :=
  s.act (fun t => t.opRead src addr.toNat 1 0)

end Sys2Proof.Machine
end

