-- ==== Sys2Proof/Machine/NvsCmds.lean ====
section
/-!
DEFINITION. Machine/NvsCmds.lean: the meanings of the commands of spec/18_nonvolatile_store.md, one definition
per command; each is a call of the shared operations of the model.
-/

namespace Sys2Proof.Machine

/-- PAGE_PROGRAM (R426). -/
def execPageProgram (writer : PageWriter) (rb : ReadBack) (s : State) : Host.Outcome State Fault Refusal :=
  s.act (fun t => t.pageProgram writer rb)

/-- UNLOCK (R429). -/
def execUnlock (src : Src) (region : BitVec 3) (isWrite : Bool) (s : State) : Host.Outcome State Fault Refusal :=
  s.act (fun t => t.write1 src Reg.NVS_UNLOCK_CTRL (BitVec.ofNat 32 (region.toNat + isWrite.toNat * 2 ^ 8)))

/-- PW_LOCKOUT_END (R430). -/
def execPwLockoutEnd (region : BitVec 3) (s : State) : Host.Outcome State Fault Refusal :=
  s.act (fun t => t.pwLockoutEnd region.toNat)

/-- PWSET (R431). -/
def execPwset (src : Src) (region : BitVec 3) (isWrite clear : Bool) (s : State) : Host.Outcome State Fault Refusal :=
  s.act (fun t => t.write1 src Reg.NVS_PWSET_CTRL (BitVec.ofNat 32 (region.toNat + isWrite.toNat * 2 ^ 8 + clear.toNat * 2 ^ 9)))

/-- LOCK (R429). -/
def execNvLock (src : Src) (s : State) : Host.Outcome State Fault Refusal :=
  s.act (fun t => t.write1 src Reg.NVS_CTRL 2#32)

/-- STORE (R435). -/
def execNvStore (src : Src) (s : State) : Host.Outcome State Fault Refusal :=
  s.act (fun t => t.write1 src Reg.NVS_CTRL 1#32)

/-- STORE_DONE (R435). -/
def execStoreDone (rb : ReadBack) (s : State) : Host.Outcome State Fault Refusal := s.act (fun t => t.storeEnd rb)

/-- CRYPT_WRITE (R432). -/
def execCryptWrite (src : Src) (region : BitVec 3) (on : Bool) (s : State) : Host.Outcome State Fault Refusal :=
  s.act (fun t => t.write1 src (Reg.NVS_RGN_r_CFG region.toNat) (BitVec.ofNat 32 (on.toNat * 4)))

/-- INC (R440). -/
def execTallyInc (src : Src) (s : State) : Host.Outcome State Fault Refusal :=
  s.act (fun t => t.write1 src Reg.NVS_TALLY_CTRL 1#32)

/-- INCREMENT_DONE (R440). -/
def execIncrementDone (tally : Fin 512) (rb : ReadBack) (fold : ReadBack) (s : State) :
    Host.Outcome State Fault Refusal :=
  s.act (fun t => t.incrementDone tally.val rb fold)

end Sys2Proof.Machine
end

