-- ==== Sys2Proof/Machine/PairCmds.lean ====
section
/-!
DEFINITION. Machine/PairCmds.lean: the meanings of the commands of spec/16_pair_operation.md, one definition
per command; each is a call of the shared operations of the model.
-/

namespace Sys2Proof.Machine

/-- INTLK_IN_CHANGE (R387). The level is followed while the module is off too. -/
def execIntlkInChange (level : Bool) (s : State) : Host.Outcome State Fault Refusal :=
  .next (if s.boot.phase = .off then s.intlkOff level else s.clearSent.intlkChange level)

/-- GRANT_IN_CHANGE (R387). The level is followed while the module is off too. -/
def execGrantInChange (level : Bool) (s : State) : Host.Outcome State Fault Refusal :=
  .next (if s.boot.phase = .off then s.grantOff level else s.clearSent.grantChange level)

/-- GRANT_MESSAGE (R392). -/
def execGrantMessage (port : Fin 3) (payload : List Byte) (s : State) : Host.Outcome State Fault Refusal :=
  s.act (fun t => t.ethTake port.val (fun u => u.onlyIf (port.val != 2) (fun v => v.grantMsg payload)))

/-- OWL_LOST (R392). -/
def execOwlLost (s : State) : Host.Outcome State Fault Refusal := s.act (fun t => t.owlLost)

/-- HEARTBEAT (R391). -/
def execHeartbeat (s : State) : Host.Outcome State Fault Refusal := s.act (fun t => t.heartbeatLap)

/-- TAKE_ACTIVE (R404). -/
def execTakeActive (s : State) : Host.Outcome State Fault Refusal := s.act (fun t => t.takeActive)

/-- LEAVE_ACTIVE (R395). -/
def execLeaveActive (s : State) : Host.Outcome State Fault Refusal := s.act (fun t => t.leaveActive)

/-- JOIN (R402). -/
def execJoin (src : Src) (partner : Option Partner) (s : State) : Host.Outcome State Fault Refusal :=
  s.act (fun t => ({ t with pair := { t.pair with partner := partner } }).write1 src Reg.PAIR_CTRL ((t.rd Reg.PAIR_CTRL &&& 0x100#32) ||| 1#32))

/-- AUTOJOIN (R402). -/
def execAutojoin (partner : Partner) (s : State) : Host.Outcome State Fault Refusal :=
  s.act (fun t => t.onlyIf (t.bit Reg.PAIR_CTRL 8 && t.pairState == 1 && partner.active) (fun u => u.joinWith partner))

/-- HANDOVER (R391). -/
def execHandover (src : Src) (on : Bool) (s : State) : Host.Outcome State Fault Refusal :=
  s.act (fun t => t.write1 src Reg.PAIR_CTRL ((t.rd Reg.PAIR_CTRL &&& 0x100#32) ||| BitVec.ofNat 32 (on.toNat * 2)))

/-- BULK_DONE (R403). -/
def execBulkDone (warm user : List (Nat × Byte)) (epochTally : Word) (s : State) : Host.Outcome State Fault Refusal :=
  s.act (fun t => t.bulkDone warm user epochTally.toNat)

/-- MIRROR_UNIT (R400). -/
def execMirrorUnit (unit : MirrorUnit) (whole macOk : Bool) (late : BitVec 8) (s : State) :
    Host.Outcome State Fault Refusal :=
  s.act (fun t => t.mirrorUnit unit whole macOk late.toNat)

/-- DISPATCH_STATE (R399). -/
def execDispatchState (whole : Bool) (accepted : Option Traj) (toStart : Option Nat) (header setpoints : List Byte) (streams : List (List Word)) (s : State) :
    Host.Outcome State Fault Refusal :=
  s.act (fun t => t.dispatchState whole accepted toStart header setpoints streams)

/-- LINK_TIMEOUT (R401). -/
def execLinkTimeout (expired : Bool) (s : State) : Host.Outcome State Fault Refusal :=
  s.act (fun t => t.linkTest expired)

/-- SYNC_LOSS (R401). -/
def execSyncLoss (cause : SyncLoss) (s : State) : Host.Outcome State Fault Refusal :=
  s.act (fun t => t.syncLoss cause)

/-- WITNESS_HEARTBEAT (R397). -/
def execWitnessHeartbeat (port : Fin 3) (payload : List Byte) (s : State) : Host.Outcome State Fault Refusal :=
  s.act (fun t => t.ethTake port.val (fun u => u.onlyIf (port.val != 2) (fun v => v.witnessHear payload)))

/-- GRANT_MOVE (R397). -/
def execGrantMove (s : State) : Host.Outcome State Fault Refusal := s.act (fun t => t.grantMoveBegin)

/-- GRANT_ASSERT (R390). -/
def execGrantAssert (s : State) : Host.Outcome State Fault Refusal := s.act (fun t => t.grantAssertLine)

/-- MOVE (R397). -/
def execMove (src : Src) (s : State) : Host.Outcome State Fault Refusal :=
  s.act (fun t => t.write1 src Reg.PAIR_WIT_CTRL 1#32)

/-- MIRROR_ACKNOWLEDGE (R96). -/
def execMirrorAcknowledge (epoch : BitVec 64) (sync : Bool) (s : State) : Host.Outcome State Fault Refusal :=
  s.act (fun t => t.mirrorAcked epoch.toNat sync)

end Sys2Proof.Machine
end

