-- ==== Sys2Proof/Machine/PtpCmds.lean ====
section
/-!
DEFINITION. Machine/PtpCmds.lean: the meanings of the commands of spec/14_network_time.md, one definition
per command; each is a call of the shared operations of the model.
-/

namespace Sys2Proof.Machine

/-- ANNOUNCE (R359). -/
def execAnnounce (port : Fin 3) (payload : List Byte) (s : State) : Host.Outcome State Fault Refusal :=
  s.act (fun t => t.ptpAnnounce port.val payload)

/-- SYNC (R358). -/
def execSync (port : Fin 3) (payload : List Byte) (within : BitVec 20) (s : State) :
    Host.Outcome State Fault Refusal :=
  s.act (fun t => t.ptpSyncMsg port.val payload within.toNat)

/-- FOLLOW_UP (R358). -/
def execFollowUp (port : Fin 3) (payload : List Byte) (s : State) : Host.Outcome State Fault Refusal :=
  s.act (fun t => t.ptpFollowUp port.val payload)

/-- DELAY_RESP (R358). -/
def execDelayResp (port : Fin 3) (payload : List Byte) (s : State) : Host.Outcome State Fault Refusal :=
  s.act (fun t => t.ptpDelayResp port.val payload)

/-- DELAY_REQ (R357). -/
def execDelayReq (domain : Fin 2) (within : BitVec 20) (s : State) : Host.Outcome State Fault Refusal :=
  s.act (fun t => t.ptpDelayReq domain.val within.toNat)

/-- ANNOUNCE_TIMEOUT (R359). -/
def execAnnounceTimeout (domain : Fin 2) (s : State) : Host.Outcome State Fault Refusal :=
  s.act (fun t => t.announceTimeout domain.val)

/-- SYNC_TIMEOUT (R359). -/
def execSyncTimeout (domain : Fin 2) (s : State) : Host.Outcome State Fault Refusal :=
  s.act (fun t => t.syncTimeout domain.val)

/-- RAMP_END (R362). -/
def execRampEnd (s : State) : Host.Outcome State Fault Refusal := s.act (fun t => t.rampFinish)

/-- REVERT (R365). -/
def execRevertLead (s : State) : Host.Outcome State Fault Refusal := s.act (fun t => t.revertLead)

/-- HOLD_EXPIRE (R366). -/
def execHoldExpire (s : State) : Host.Outcome State Fault Refusal := s.act (fun t => t.holdExpire)

/-- REACQ (R360). -/
def execReacq (src : Src) (s : State) : Host.Outcome State Fault Refusal :=
  s.act (fun t => t.write1 src Reg.PTP_CTRL ((t.rd Reg.PTP_CTRL &&& 0xF#32) ||| 0x10#32))

/-- PTP_EN (R360). -/
def execPtpEn (src : Src) (on : Bool) (s : State) : Host.Outcome State Fault Refusal :=
  s.act (fun t => t.write1 src Reg.PTP_CTRL ((t.rd Reg.PTP_CTRL &&& 0xE#32) ||| BitVec.ofNat 32 on.toNat))

/-- FREERUN (R360). -/
def execFreerun (src : Src) (on : Bool) (s : State) : Host.Outcome State Fault Refusal :=
  s.act (fun t => t.write1 src Reg.PTP_CTRL ((t.rd Reg.PTP_CTRL &&& 0xD#32) ||| BitVec.ofNat 32 (on.toNat * 2)))

/-- PTP_STEP (R367). -/
def execPtpStep (src : Src) (s : State) : Host.Outcome State Fault Refusal :=
  s.act (fun t => t.write1 src Reg.PTP_CTRL ((t.rd Reg.PTP_CTRL &&& 0xF#32) ||| 0x20#32))

/-- RATE_WRITE (R367). -/
def execRateWrite (src : Src) (value : Word) (s : State) : Host.Outcome State Fault Refusal :=
  s.act (fun t => t.write1 src Reg.PTP_RATE value)

/-- DOM_CFG_WRITE (R368). -/
def execDomCfgWrite (src : Src) (domain : Fin 2) (value : Word) (s : State) : Host.Outcome State Fault Refusal :=
  s.act (fun t => t.write1 src (Reg.PTP_DOM_d_CFG domain.val) value)

/-- NOW_READ (R355). -/
def execNowRead (src : Src) (s : State) : Host.Outcome State Fault Refusal :=
  s.act (fun t => t.opRead src Reg.PTP_NOW_NS 1 0)

end Sys2Proof.Machine
end

