-- ==== Sys2Proof/Machine/RtcCmds.lean ====
section
/-!
DEFINITION. Machine/RtcCmds.lean: the meanings of the commands of spec/19_clock_calendar.md, one definition
per command; each is a call of the shared operations of the model.
-/

namespace Sys2Proof.Machine

/-- RTC_LOAD (R448). -/
def execRtcLoad (src : Src) (s : State) : Host.Outcome State Fault Refusal :=
  s.act (fun t => t.write1 src Reg.RTC_CTRL 1#32)

/-- DSTFWD (R450). -/
def execDstfwd (src : Src) (s : State) : Host.Outcome State Fault Refusal :=
  s.act (fun t => t.write1 src Reg.RTC_CTRL 2#32)

/-- DSTBACK (R450). -/
def execDstback (src : Src) (s : State) : Host.Outcome State Fault Refusal :=
  s.act (fun t => t.write1 src Reg.RTC_CTRL 4#32)

/-- RELEASE (R453). -/
def execRtcRelease (src : Src) (s : State) : Host.Outcome State Fault Refusal :=
  s.act (fun t => t.write1 src Reg.RTC_CTRL 8#32)

/-- SECOND_CARRY (R445). The calendar runs in the backup domain, while the module is off too. -/
def execSecondCarry (s : State) : Host.Outcome State Fault Refusal :=
  .next (if s.boot.phase = .off then s.secondCarry else s.clearSent.secondCarry)

/-- RTC_READ (R452). -/
def execRtcRead (src : Src) (addr : Word) (s : State) : Host.Outcome State Fault Refusal :=
  s.act (fun t => t.opRead src addr.toNat 1 0)

/-- FREEZE_TIMEOUT (R453). -/
def execFreezeTimeout (slot : Fin 32) (s : State) : Host.Outcome State Fault Refusal :=
  s.act (fun t => t.freezeTimeout slot.val)

/-- PTP_HOUR_SET (R455). -/
def execPtpHourSet (s : State) : Host.Outcome State Fault Refusal := s.act (fun t => t.ptpHourSet)

/-- TRIM_WINDOW (R458). -/
def execTrimWindow (n : BitVec 32) (s : State) : Host.Outcome State Fault Refusal :=
  s.act (fun t => t.trimWindow n.toNat)

/-- TRIM_WRITE (R459). -/
def execTrimWrite (src : Src) (value : Word) (s : State) : Host.Outcome State Fault Refusal :=
  s.act (fun t => t.write1 src Reg.RTC_TRIM_CTRL value)

/-- WAKE (R460). The wake timer runs in the backup domain, while the module is off too. -/
def execWake (s : State) : Host.Outcome State Fault Refusal :=
  .next (if s.boot.phase = .off then s.wake else s.clearSent.wake)

/-- BOOST (R463). -/
def execBoost (src : Src) (s : State) : Host.Outcome State Fault Refusal :=
  s.act (fun t => t.write1 src Reg.RTC_CHG ((t.rd Reg.RTC_CHG &&& 0xF#32) ||| 0x10#32))

/-- BOOST_END (R463). -/
def execBoostEnd (done : Bool) (s : State) : Host.Outcome State Fault Refusal := s.act (fun t => t.boostEnd done)

/-- BAT_CHECK (R462). -/
def execBatCheck (mv : BitVec 16) (s : State) : Host.Outcome State Fault Refusal :=
  s.act (fun t => t.batCheck mv.toNat)

end Sys2Proof.Machine
end

