-- ==== Sys2Proof/Machine/SettCmds.lean ====
section
/-!
DEFINITION. Machine/SettCmds.lean: the meanings of the commands of spec/03_sett_coherent_state.md, one definition
per command; each is a call of the shared operations of the model.
-/

namespace Sys2Proof.Machine

/-- SETT_READABLE (R73). -/
def execSettReadable (s : State) : Host.Outcome State Fault Refusal := s.act (fun t => t.settReadable)

/-- EPOCH_TALLY_RAISE (R94). -/
def execEpochTallyRaise (s : State) : Host.Outcome State Fault Refusal :=
  s.act (fun t => t.onlyIf (t.sett.epoch % 2 ^ 20 == 0xF0000) (fun u => u.raiseTally 0))

/-- WS_OPEN (R84). -/
def execWsOpen (src : Src) (s : State) : Host.Outcome State Fault Refusal :=
  s.act (fun t => t.write1 src Reg.SETT_WS_CTRL 1#32)

/-- SEAL (R89). -/
def execSeal (src : Src) (s : State) : Host.Outcome State Fault Refusal :=
  s.act (fun t => t.write1 src Reg.SETT_WS_CTRL 2#32)

/-- WS_ABORT (R91). -/
def execWsAbort (src : Src) (s : State) : Host.Outcome State Fault Refusal :=
  s.act (fun t => t.write1 src Reg.SETT_WS_CTRL 4#32)

/-- WS_TIMEOUT (R91), at the end of the lap; at the boundary itself the lap's end does the same. -/
def execWsTimeout (s : State) : Host.Outcome State Fault Refusal :=
  s.act (fun t => t.onlyIf (t.lap.tick == 4095) State.wsExpire)

end Sys2Proof.Machine
end

