-- ==== Sys2Proof/Machine/SprCmds.lean ====
section
/-!
DEFINITION. Machine/SprCmds.lean: the meanings of the commands of spec/20_spoor.md, one definition
per command; each is a call of the shared operations of the model.
-/

namespace Sys2Proof.Machine

/-- SPOOR_PROGRAM (R470). -/
def execSpoorProgram (reprogram : Bool) (rb : ReadBack) (s : State) : Host.Outcome State Fault Refusal :=
  s.act (fun t => if reprogram then t.programDue rb else t.programQueue rb)

/-- RATE_WINDOW_END (R471). -/
def execRateWindowEnd (entry : Fin 16) (s : State) : Host.Outcome State Fault Refusal :=
  s.act (fun t => t.rateWindowEnd entry.val)

/-- OPSEC_TICK (R472). -/
def execOpsecTick (s : State) : Host.Outcome State Fault Refusal := s.act (fun t => t.opsecTick)

/-- POST (R476). -/
def execPost (src : Src) (sev : BitVec 3) (s : State) : Host.Outcome State Fault Refusal :=
  s.act (fun t => t.write1 src Reg.SPR_FW_CTRL (BitVec.ofNat 32 (1 + sev.toNat * 2 ^ 8)))

/-- SPOOR_SCAN_DONE (R473). -/
def execSpoorScanDone (s : State) : Host.Outcome State Fault Refusal := s.act (fun t => t.scanDone)

end Sys2Proof.Machine
end

