-- ==== Sys2Proof/Machine/ZidCmds.lean ====
section
/-!
DEFINITION. Machine/ZidCmds.lean: the meanings of the commands of spec/21_block_status_fault_pin.md, one definition
per command; each is a call of the shared operations of the model.
-/

namespace Sys2Proof.Machine

/-- MINW_END (R485). -/
def execMinwEnd (s : State) : Host.Outcome State Fault Refusal := s.act (fun t => t.minwEnd)

/-- ASSERT (R487). -/
def execFaultAssert (src : Src) (hold : Bool) (s : State) : Host.Outcome State Fault Refusal :=
  s.act (fun t => t.write1 src Reg.ZID_FAULT_CTRL (BitVec.ofNat 32 (hold.toNat + 2)))

/-- HOLD_WRITE (R486). -/
def execHoldWrite (src : Src) (hold : Bool) (s : State) : Host.Outcome State Fault Refusal :=
  s.act (fun t => t.write1 src Reg.ZID_FAULT_CTRL (BitVec.ofNat 32 hold.toNat))

/-- PIN_READBACK (R488). -/
def execPinReadback (level : Bool) (s : State) : Host.Outcome State Fault Refusal :=
  s.act (fun t => t.pinReadback level)

/-- LEDTEST (R489). -/
def execLedtest (src : Src) (injen : Bool) (s : State) : Host.Outcome State Fault Refusal :=
  s.act (fun t => t.write1 src Reg.ZID_CTRL (BitVec.ofNat 32 (injen.toNat + 2 ^ 8)))

/-- LEDTEST_END (R489). -/
def execLedtestEnd (s : State) : Host.Outcome State Fault Refusal := s.act (fun t => t.ledTestEnd)

/-- INJEN_WRITE (R482). -/
def execInjenWrite (src : Src) (injen : Bool) (s : State) : Host.Outcome State Fault Refusal :=
  s.act (fun t => t.write1 src Reg.ZID_CTRL (BitVec.ofNat 32 injen.toNat))

end Sys2Proof.Machine
end

