-- ==== Sys2Proof/Machine/Dispatch.lean ====
section
/-!
DEFINITION. Machine/Dispatch.lean: the command dispatch, one arm per command, each one direct call of its meaning.
-/

namespace Sys2Proof.Machine

def exec (i : Instr) (s : State) : Host.Outcome State Fault Refusal :=
  match i with
  | .registerWrite src addr value => Sys2Proof.Machine.execRegisterWrite src addr value s
  | .hwpRequest payload port ip udp => Sys2Proof.Machine.execHwpRequest payload port ip udp s
  | .read src addr count sel => Sys2Proof.Machine.execRead src addr count sel s
  | .epochLoRead src => Sys2Proof.Machine.execEpochLoRead src s
  | .write src addr values drop => Sys2Proof.Machine.execWrite src addr values drop s
  | .writelist src pairs drop => Sys2Proof.Machine.execWritelist src pairs drop s
  | .load src offset data drop => Sys2Proof.Machine.execLoad src offset data drop s
  | .publish src seq => Sys2Proof.Machine.execPublish src seq s
  | .imgOpen src slotB => Sys2Proof.Machine.execImgOpen src slotB s
  | .imgCheck src => Sys2Proof.Machine.execImgCheck src s
  | .checkComplete => Sys2Proof.Machine.execCheckComplete s
  | .imgCommit src => Sys2Proof.Machine.execImgCommit src s
  | .commitComplete readBackOk => Sys2Proof.Machine.execCommitComplete readBackOk s
  | .imgAbort src => Sys2Proof.Machine.execImgAbort src s
  | .activate src slotB => Sys2Proof.Machine.execActivate src slotB s
  | .floor src => Sys2Proof.Machine.execFloor src s
  | .lapBoundary target meters => Sys2Proof.Machine.execLapBoundary target meters s
  | .mainsCrossing feeder deviation freq => Sys2Proof.Machine.execMainsCrossing feeder deviation freq s
  | .missingCrossing feeder => Sys2Proof.Machine.execMissingCrossing feeder s
  | .lapSrcWrite src value => Sys2Proof.Machine.execLapSrcWrite src value s
  | .freePeriodWrite src value => Sys2Proof.Machine.execFreePeriodWrite src value s
  | .slewDone => Sys2Proof.Machine.execSlewDone s
  | .countLoRead src => Sys2Proof.Machine.execCountLoRead src s
  | .pacerGrant resource pending => Sys2Proof.Machine.execPacerGrant resource pending s
  | .batonGrant => Sys2Proof.Machine.execBatonGrant s
  | .batonAge who => Sys2Proof.Machine.execBatonAge who s
  | .batonWaitTimeout => Sys2Proof.Machine.execBatonWaitTimeout s
  | .settReadable => Sys2Proof.Machine.execSettReadable s
  | .epochTallyRaise => Sys2Proof.Machine.execEpochTallyRaise s
  | .wsOpen src => Sys2Proof.Machine.execWsOpen src s
  | .seal src => Sys2Proof.Machine.execSeal src s
  | .wsAbort src => Sys2Proof.Machine.execWsAbort src s
  | .wsTimeout => Sys2Proof.Machine.execWsTimeout s
  | .cycleStart => Sys2Proof.Machine.execCycleStart s
  | .gridPoint => Sys2Proof.Machine.execGridPoint s
  | .measWrite src unit value => Sys2Proof.Machine.execMeasWrite src unit value s
  | .assemblyDone further => Sys2Proof.Machine.execAssemblyDone further s
  | .iteration run => Sys2Proof.Machine.execIteration run s
  | .burstWiden => Sys2Proof.Machine.execBurstWiden s
  | .deadline => Sys2Proof.Machine.execDeadline s
  | .blockReceive path cls lane use got => Sys2Proof.Machine.execBlockReceive path cls lane use got s
  | .laneCheck ok => Sys2Proof.Machine.execLaneCheck ok s
  | .scrubSegment bad => Sys2Proof.Machine.execScrubSegment bad s
  | .mapWrite rb => Sys2Proof.Machine.execMapWrite rb s
  | .dramScrub got => Sys2Proof.Machine.execDramScrub got s
  | .dramRetrain => Sys2Proof.Machine.execDramRetrain s
  | .loopSample loop busy delay => Sys2Proof.Machine.execLoopSample loop busy delay s
  | .loopRun src loop on => Sys2Proof.Machine.execLoopRun src loop on s
  | .loopSwap src loop on => Sys2Proof.Machine.execLoopSwap src loop on s
  | .loopReset src loop on => Sys2Proof.Machine.execLoopReset src loop on s
  | .coefWrite src loop bank stage k value => Sys2Proof.Machine.execCoefWrite src loop bank stage k value s
  | .fbpCycleStart => Sys2Proof.Machine.execFbpCycleStart s
  | .fbpApply executed timedOut => Sys2Proof.Machine.execFbpApply executed timedOut s
  | .fbpWatchdog left => Sys2Proof.Machine.execFbpWatchdog left s
  | .fbpTrap inst kind left => Sys2Proof.Machine.execFbpTrap inst kind left s
  | .fbpStop src left => Sys2Proof.Machine.execFbpStop src left s
  | .fbpRestart src cold => Sys2Proof.Machine.execFbpRestart src cold s
  | .forceSet src point => Sys2Proof.Machine.execForceSet src point s
  | .forceClr src point => Sys2Proof.Machine.execForceClr src point s
  | .clrall src => Sys2Proof.Machine.execClrall src s
  | .forceValueWrite src cls n value => Sys2Proof.Machine.execForceValueWrite src cls n value s
  | .xvWrite src k value => Sys2Proof.Machine.execXvWrite src k value s
  | .ainResult ch code overload line => Sys2Proof.Machine.execAinResult ch code overload line s
  | .refCheck bank uv => Sys2Proof.Machine.execRefCheck bank uv s
  | .calRound bank ofs gain => Sys2Proof.Machine.execCalRound bank ofs gain s
  | .calStepEnd bank ofs gain diff => Sys2Proof.Machine.execCalStepEnd bank ofs gain diff s
  | .aoutSetWrite src ch value => Sys2Proof.Machine.execAoutSetWrite src ch value s
  | .aoutReadback ch value => Sys2Proof.Machine.execAoutReadback ch value s
  | .aoutFault ch kind present => Sys2Proof.Machine.execAoutFault ch kind present s
  | .diChange ch level ua => Sys2Proof.Machine.execDiChange ch level ua s
  | .diFault ch kind present ua => Sys2Proof.Machine.execDiFault ch kind present ua s
  | .doTrip ch tooMuch ma => Sys2Proof.Machine.execDoTrip ch tooMuch ma s
  | .doRetry ch => Sys2Proof.Machine.execDoRetry ch s
  | .doFault ch kind present ma => Sys2Proof.Machine.execDoFault ch kind present ma s
  | .clrfault src ch on => Sys2Proof.Machine.execClrfault src ch on s
  | .doSetWrite src value => Sys2Proof.Machine.execDoSetWrite src value s
  | .fieldSupplyCheck mv rev => Sys2Proof.Machine.execFieldSupplyCheck mv rev s
  | .fieldSupplyReturn => Sys2Proof.Machine.execFieldSupplyReturn s
  | .modFault feeder ch kind present => Sys2Proof.Machine.execModFault feeder ch kind present s
  | .harmonicWindow feeder freq bins => Sys2Proof.Machine.execHarmonicWindow feeder freq bins s
  | .snap src on => Sys2Proof.Machine.execSnap src on s
  | .nvsave ok => Sys2Proof.Machine.execNvsave ok s
  | .mtrLoRead src addr => Sys2Proof.Machine.execMtrLoRead src addr s
  | .canFrameReceive ch id fmt stamp data crcOk staged => Sys2Proof.Machine.execCanFrameReceive ch id fmt stamp data crcOk staged s
  | .canError ch kind dataPhase tx weight => Sys2Proof.Machine.execCanError ch kind dataPhase tx weight s
  | .pop src ch queue value => Sys2Proof.Machine.execPop src ch queue value s
  | .canModeWrite src ch value => Sys2Proof.Machine.execCanModeWrite src ch value s
  | .canModeChange ch => Sys2Proof.Machine.execCanModeChange ch s
  | .bitTimingWrite src ch which value => Sys2Proof.Machine.execBitTimingWrite src ch which value s
  | .recover src ch => Sys2Proof.Machine.execRecover src ch s
  | .busoffRecoveryEnd ch => Sys2Proof.Machine.execBusoffRecoveryEnd ch s
  | .lineFault ch kind present => Sys2Proof.Machine.execLineFault ch kind present s
  | .linefaultEnd ch => Sys2Proof.Machine.execLinefaultEnd ch s
  | .resume src ch => Sys2Proof.Machine.execResume src ch s
  | .txReady src ch buf => Sys2Proof.Machine.execTxReady src ch buf s
  | .txAbort src ch buf => Sys2Proof.Machine.execTxAbort src ch buf s
  | .txStart ch => Sys2Proof.Machine.execTxStart ch s
  | .txEnd ch ok stamp tdcv vdom => Sys2Proof.Machine.execTxEnd ch ok stamp tdcv vdom s
  | .ethFrame port good => Sys2Proof.Machine.execEthFrame port good s
  | .statusTelegram port ip payload => Sys2Proof.Machine.execStatusTelegram port ip payload s
  | .arpFrame port isReq sip smac tip => Sys2Proof.Machine.execArpFrame port isReq sip smac tip s
  | .icmpEcho port ip payload => Sys2Proof.Machine.execIcmpEcho port ip payload s
  | .linkChange port up gig => Sys2Proof.Machine.execLinkChange port up gig s
  | .subreset src value => Sys2Proof.Machine.execSubreset src value s
  | .announce port payload => Sys2Proof.Machine.execAnnounce port payload s
  | .sync port payload within => Sys2Proof.Machine.execSync port payload within s
  | .followUp port payload => Sys2Proof.Machine.execFollowUp port payload s
  | .delayResp port payload => Sys2Proof.Machine.execDelayResp port payload s
  | .delayReq domain within => Sys2Proof.Machine.execDelayReq domain within s
  | .announceTimeout domain => Sys2Proof.Machine.execAnnounceTimeout domain s
  | .syncTimeout domain => Sys2Proof.Machine.execSyncTimeout domain s
  | .rampEnd => Sys2Proof.Machine.execRampEnd s
  | .revertLead => Sys2Proof.Machine.execRevertLead s
  | .holdExpire => Sys2Proof.Machine.execHoldExpire s
  | .reacq src => Sys2Proof.Machine.execReacq src s
  | .ptpEn src on => Sys2Proof.Machine.execPtpEn src on s
  | .freerun src on => Sys2Proof.Machine.execFreerun src on s
  | .ptpStep src => Sys2Proof.Machine.execPtpStep src s
  | .rateWrite src value => Sys2Proof.Machine.execRateWrite src value s
  | .domCfgWrite src domain value => Sys2Proof.Machine.execDomCfgWrite src domain value s
  | .nowRead src => Sys2Proof.Machine.execNowRead src s
  | .intlkInChange level => Sys2Proof.Machine.execIntlkInChange level s
  | .grantInChange level => Sys2Proof.Machine.execGrantInChange level s
  | .grantMessage port payload => Sys2Proof.Machine.execGrantMessage port payload s
  | .owlLost => Sys2Proof.Machine.execOwlLost s
  | .heartbeat => Sys2Proof.Machine.execHeartbeat s
  | .takeActive => Sys2Proof.Machine.execTakeActive s
  | .leaveActive => Sys2Proof.Machine.execLeaveActive s
  | .join src partner => Sys2Proof.Machine.execJoin src partner s
  | .autojoin partner => Sys2Proof.Machine.execAutojoin partner s
  | .handover src on => Sys2Proof.Machine.execHandover src on s
  | .bulkDone warm user epochTally => Sys2Proof.Machine.execBulkDone warm user epochTally s
  | .mirrorUnit unit whole macOk late => Sys2Proof.Machine.execMirrorUnit unit whole macOk late s
  | .dispatchState whole accepted toStart header setpoints streams => Sys2Proof.Machine.execDispatchState whole accepted toStart header setpoints streams s
  | .linkTimeout expired => Sys2Proof.Machine.execLinkTimeout expired s
  | .syncLoss cause => Sys2Proof.Machine.execSyncLoss cause s
  | .witnessHeartbeat port payload => Sys2Proof.Machine.execWitnessHeartbeat port payload s
  | .grantMove => Sys2Proof.Machine.execGrantMove s
  | .grantAssert => Sys2Proof.Machine.execGrantAssert s
  | .move src => Sys2Proof.Machine.execMove src s
  | .updBufWrite src w value => Sys2Proof.Machine.execUpdBufWrite src w value s
  | .keyExec src on => Sys2Proof.Machine.execKeyExec src on s
  | .keyUpdateDone rb => Sys2Proof.Machine.execKeyUpdateDone rb s
  | .challenge port ip udp payload => Sys2Proof.Machine.execChallenge port ip udp payload s
  | .pageProgram writer rb => Sys2Proof.Machine.execPageProgram writer rb s
  | .unlock src region isWrite => Sys2Proof.Machine.execUnlock src region isWrite s
  | .pwLockoutEnd region => Sys2Proof.Machine.execPwLockoutEnd region s
  | .pwset src region isWrite clear => Sys2Proof.Machine.execPwset src region isWrite clear s
  | .nvLock src => Sys2Proof.Machine.execNvLock src s
  | .nvStore src => Sys2Proof.Machine.execNvStore src s
  | .storeDone rb => Sys2Proof.Machine.execStoreDone rb s
  | .cryptWrite src region on => Sys2Proof.Machine.execCryptWrite src region on s
  | .tallyInc src => Sys2Proof.Machine.execTallyInc src s
  | .incrementDone tally rb fold => Sys2Proof.Machine.execIncrementDone tally rb fold s
  | .rtcLoad src => Sys2Proof.Machine.execRtcLoad src s
  | .dstfwd src => Sys2Proof.Machine.execDstfwd src s
  | .dstback src => Sys2Proof.Machine.execDstback src s
  | .rtcRelease src => Sys2Proof.Machine.execRtcRelease src s
  | .secondCarry => Sys2Proof.Machine.execSecondCarry s
  | .rtcRead src addr => Sys2Proof.Machine.execRtcRead src addr s
  | .freezeTimeout slot => Sys2Proof.Machine.execFreezeTimeout slot s
  | .ptpHourSet => Sys2Proof.Machine.execPtpHourSet s
  | .trimWindow n => Sys2Proof.Machine.execTrimWindow n s
  | .trimWrite src value => Sys2Proof.Machine.execTrimWrite src value s
  | .wake => Sys2Proof.Machine.execWake s
  | .boost src => Sys2Proof.Machine.execBoost src s
  | .boostEnd done => Sys2Proof.Machine.execBoostEnd done s
  | .batCheck mv => Sys2Proof.Machine.execBatCheck mv s
  | .spoorProgram reprogram rb => Sys2Proof.Machine.execSpoorProgram reprogram rb s
  | .rateWindowEnd entry => Sys2Proof.Machine.execRateWindowEnd entry s
  | .opsecTick => Sys2Proof.Machine.execOpsecTick s
  | .post src sev => Sys2Proof.Machine.execPost src sev s
  | .minwEnd => Sys2Proof.Machine.execMinwEnd s
  | .faultAssert src hold => Sys2Proof.Machine.execFaultAssert src hold s
  | .holdWrite src hold => Sys2Proof.Machine.execHoldWrite src hold s
  | .pinReadback level => Sys2Proof.Machine.execPinReadback level s
  | .ledtest src injen => Sys2Proof.Machine.execLedtest src injen s
  | .ledtestEnd => Sys2Proof.Machine.execLedtestEnd s
  | .injenWrite src injen => Sys2Proof.Machine.execInjenWrite src injen s
  | .powerUp vbulk sub => Sys2Proof.Machine.execPowerUp vbulk sub s
  | .hurdleEnd report => Sys2Proof.Machine.execHurdleEnd report s
  | .hurdleTimeout detail => Sys2Proof.Machine.execHurdleTimeout detail s
  | .selfReset => Sys2Proof.Machine.execSelfReset s
  | .wayclr src hurdles => Sys2Proof.Machine.execWayclr src hurdles s
  | .bootRestart src => Sys2Proof.Machine.execBootRestart src s
  | .imgBootWrite src slotB => Sys2Proof.Machine.execImgBootWrite src slotB s
  | .powerFail below vbulk laps ns => Sys2Proof.Machine.execPowerFail below vbulk laps ns s
  | .dip vbulk => Sys2Proof.Machine.execDip vbulk s
  | .shutdownDone tenths => Sys2Proof.Machine.execShutdownDone tenths s
  | .mirrorAcknowledge epoch sync => Sys2Proof.Machine.execMirrorAcknowledge epoch sync s
  | .lossOfPower torn => Sys2Proof.Machine.execLossOfPower torn s
  | .busIntegration ch => Sys2Proof.Machine.execBusIntegration ch s
  | .rawEdge ch close => Sys2Proof.Machine.execRawEdge ch close s
  | .arpRefresh port ip => Sys2Proof.Machine.execArpRefresh port ip s
  | .spoorScanDone => Sys2Proof.Machine.execSpoorScanDone s
  | .diFaultEnd ch => Sys2Proof.Machine.execDiFaultEnd ch s
  | .aoutFaultEnd ch kind => Sys2Proof.Machine.execAoutFaultEnd ch kind s

end Sys2Proof.Machine
end

