-- ==== Sys2Proof/Machine/Step.lean ====
section
/-!
DEFINITION. Machine/Step.lean: one step of the block: the command at the front of the queue runs; on an empty queue one
tick passes. And the host's way to put a command that a word spells at the front of the queue.
-/

namespace Sys2Proof.Machine

/-- The command at the front of the queue runs on the queue's rest. -/
def step (s : State) : Host.Outcome State Fault Refusal := match s.pending with
  | [] => .next s.idle
  | c :: rest => exec c { s with pending := rest }

/-- `s` with the command that a word spells in front of its queue. -/
def State.withFetchWord (s : State) (nbits w : Nat) : State := match Sys2Proof.decodeTableWord nbits w with
  | some c => { s with pending := c :: s.pending }
  | none => s

end Sys2Proof.Machine
end

