-- ==== Sys2Proof/WellFormed.lean ====
section
/-!
DEFINITION. WellFormed.lean: what a command's operands must satisfy beyond their types: the lengths that the spec gives
to lists. The types already hold every index and width. The meanings are total: they answer for other operands too.
-/

namespace Sys2Proof

open Machine

/-- A UDP datagram of one Ethernet frame: at most 1,472 bytes of payload. -/
def fitsFrame (b : List Byte) : Bool := b.length ≤ 1472

/-- A request carries 1 to 352 words (Table 4 of spec/15_host_window_protocol.md). -/
def fitsRequest (n : Nat) : Bool := 1 ≤ n && n ≤ 352

/-- A ones density: at most as many ones as bits, and some bits. -/
def Density.wf (d : Density) : Bool := 0 < d.bits && d.ones ≤ d.bits

/-- The densities of a sample of a phase, and of a feeder. -/
def PhaseSample.wf (x : PhaseSample) : Bool := Density.wf x.v && Density.wf x.i
def FeederSample.wf (x : FeederSample) : Bool := PhaseSample.wf x.l1 && PhaseSample.wf x.l2 && PhaseSample.wf x.l3

/-- The samples of each of the four feeders. -/
def fourFeeders (l : List FeederLap) : Bool := l.length == 4 && l.all (fun f => f.samples.all FeederSample.wf)

/-- A mask over the 256 bytes of a page. -/
def pageMask (m : List Bool) : Bool := m.length == 256

/-- What a loss of power left is a mask over one page, where it is a mask. -/
def Torn.wf : Torn → Bool
  | .userPage m => pageMask m
  | .storePage m => pageMask m
  | .spoorPage m => pageMask m
  | _ => true

/-- Pending units of the pacer charge at least one unit each. -/
def unitsCharge (l : List (Fin 12 × BitVec 13)) : Bool := l.all (fun u => u.2 != 0)

/-- Well-formedness of a command. -/
def Instr.wf : Instr → Bool
  | .hwpRequest payload _ _ _ => fitsFrame payload
  | .read _ _ count _ => fitsRequest count.toNat
  | .write _ _ values _ => fitsRequest values.length
  | .writelist _ pairs _ => fitsRequest (2 * pairs.length)
  | .load _ _ data _ => fitsRequest data.length
  | .lapBoundary _ meters => fourFeeders meters
  | .pacerGrant _ ask => unitsCharge ask.units
  | .blockReceive _ _ _ _ got | .dramScrub got => got.length ≤ 5 && got.all (fun b => b.data.length == 64)
  | .harmonicWindow _ _ bins => bins.length == 6
  | .canFrameReceive _ _ _ _ data _ _ => data.length ≤ 64
  | .statusTelegram _ _ payload => fitsFrame payload
  | .icmpEcho _ _ payload => fitsFrame payload
  | .announce _ payload => fitsFrame payload
  | .sync _ payload _ => fitsFrame payload
  | .followUp _ payload => fitsFrame payload
  | .delayResp _ payload => fitsFrame payload
  | .grantMessage _ payload => fitsFrame payload
  | .witnessHeartbeat _ payload => fitsFrame payload
  | .challenge _ _ _ payload => fitsFrame payload
  | .powerFail _ _ laps _ => fourFeeders laps
  | .lossOfPower torn => Torn.wf torn
  | .registerWrite _ _ _ | .epochLoRead _ | .publish _ _ | .imgOpen _ _ | .imgCheck _ | .checkComplete
  | .imgCommit _ | .commitComplete _ | .imgAbort _ | .activate _ _ | .floor _ | .mainsCrossing _ _ _
  | .missingCrossing _ | .lapSrcWrite _ _ | .freePeriodWrite _ _ | .slewDone | .countLoRead _ | .batonGrant
  | .batonAge _ | .batonWaitTimeout | .settReadable | .epochTallyRaise | .wsOpen _ | .seal _ | .wsAbort _
  | .wsTimeout | .cycleStart | .gridPoint | .measWrite _ _ _ | .assemblyDone _ | .iteration _ | .burstWiden
  | .deadline | .laneCheck _ | .scrubSegment _ | .mapWrite _ | .dramRetrain | .loopSample _ _ _
  | .loopRun _ _ _ | .loopSwap _ _ _ | .loopReset _ _ _ | .coefWrite _ _ _ _ _ _ | .fbpCycleStart
  | .fbpApply _ _ | .fbpWatchdog _ | .fbpTrap _ _ _ | .fbpStop _ _ | .fbpRestart _ _ | .forceSet _ _
  | .forceClr _ _ | .clrall _ | .forceValueWrite _ _ _ _ | .xvWrite _ _ _ | .ainResult _ _ _ _ | .refCheck _ _
  | .calRound _ _ _ | .calStepEnd _ _ _ _ | .aoutSetWrite _ _ _ | .aoutReadback _ _ | .aoutFault _ _ _
  | .diChange _ _ _ | .diFault _ _ _ _ | .doTrip _ _ _ | .doRetry _ | .doFault _ _ _ _ | .clrfault _ _ _
  | .doSetWrite _ _ | .fieldSupplyCheck _ _ | .fieldSupplyReturn | .modFault _ _ _ _ | .snap _ _ | .nvsave _
  | .mtrLoRead _ _ | .canError _ _ _ _ _ | .pop _ _ _ _ | .canModeWrite _ _ _ | .canModeChange _
  | .bitTimingWrite _ _ _ _ | .recover _ _ | .busoffRecoveryEnd _ | .lineFault _ _ _ | .linefaultEnd _
  | .resume _ _ | .txReady _ _ _ | .txAbort _ _ _ | .txStart _ | .txEnd _ _ _ _ _ | .ethFrame _ _
  | .arpFrame _ _ _ _ _ | .linkChange _ _ _ | .subreset _ _ | .delayReq _ _ | .announceTimeout _
  | .syncTimeout _ | .rampEnd | .revertLead | .holdExpire | .reacq _ | .ptpEn _ _ | .freerun _ _ | .ptpStep _
  | .rateWrite _ _ | .domCfgWrite _ _ _ | .nowRead _ | .intlkInChange _ | .grantInChange _ | .owlLost
  | .heartbeat | .takeActive | .leaveActive | .join _ _ | .autojoin _ | .handover _ _ | .bulkDone _ _ _
  | .mirrorUnit _ _ _ _ | .dispatchState _ _ _ _ _ _ | .linkTimeout _ | .syncLoss _ | .grantMove | .grantAssert
  | .move _ | .updBufWrite _ _ _ | .keyExec _ _ | .keyUpdateDone _ | .pageProgram _ _ | .unlock _ _ _
  | .pwLockoutEnd _ | .pwset _ _ _ _ | .nvLock _ | .nvStore _ | .storeDone _ | .cryptWrite _ _ _ | .tallyInc _
  | .incrementDone _ _ _ | .rtcLoad _ | .dstfwd _ | .dstback _ | .rtcRelease _ | .secondCarry | .rtcRead _ _
  | .freezeTimeout _ | .ptpHourSet | .trimWindow _ | .trimWrite _ _ | .wake | .boost _ | .boostEnd _
  | .batCheck _ | .spoorProgram _ _ | .rateWindowEnd _ | .opsecTick | .post _ _ | .minwEnd | .faultAssert _ _
  | .holdWrite _ _ | .pinReadback _ | .ledtest _ _ | .ledtestEnd | .injenWrite _ _ | .powerUp _ _
  | .hurdleEnd _ | .hurdleTimeout _ | .selfReset | .wayclr _ _ | .bootRestart _ | .imgBootWrite _ _ | .dip _
  | .shutdownDone _ | .mirrorAcknowledge _ _ | .busIntegration _ | .rawEdge _ _ | .arpRefresh _ _
  | .spoorScanDone | .diFaultEnd _ | .aoutFaultEnd _ _ => true

end Sys2Proof
end

