-- ==== Sys2Proof/Safety.lean ====
section
/-!
DEFINITION. Safety.lean: what counts as a safe run, in the terms that statements use.
-/

namespace Sys2Proof.Machine

/-- A command gives a next state: the block neither faults nor refuses. -/
def completes (c : Instr) (s : State) : Prop := ∃ t, exec c s = Host.Outcome.next t

/-- The module is supplied: its circuits run. -/
def State.supplied (s : State) : Prop := s.boot.phase ≠ Phase.off

/-- The byte memories of the non-volatile store are in their canonical form. -/
def NvState.wf (n : NvState) : Prop :=
  tabWf 0#8 n.warmCells = true ∧ tabWf 0#8 n.sram = true ∧ tabWf 0#8 n.user = true ∧ tabWf 0xFF#8 n.ring = true

/-- The byte memories of the image block are in their canonical form. -/
def ImgState.wf (m : ImgState) : Prop :=
  tabWf 0#8 m.staging = true ∧ tabWf 0#8 m.slotA = true ∧ tabWf 0#8 m.slotB = true

/-- The byte memories of the two repair map copies are in their canonical form. -/
def FabState.wf (f : FabState) : Prop := tabWf 0xFF#8 f.copyA = true ∧ tabWf 0xFF#8 f.copyB = true

/-- The instance data, its applied copy and the input image are in their canonical form. -/
def FbpState.wf (p : FbpState) : Prop := tabWf 0#8 p.data = true ∧ tabWf 0#8 p.applied = true ∧ tabWf 0#32 p.inputs = true

/-- At most four setts are readable (R74), and each of them, and the one committed last, is in its canonical form. -/
def SettState.wf (c : SettState) : Prop :=
  c.held.length ≤ 4 ∧ (∀ f ∈ c.held, tabWf 0#8 f.bytes = true) ∧ ∀ f ∈ c.fresh, tabWf 0#8 f.bytes = true

/-- What every step keeps: each sparse memory (the registers, the stores of the NV block, the image slots, the repair map copies, the
instance data, the setts) is in its canonical form, so that equal contents are equal data, the tick lies in the lap (R42), at
most four setts are readable (R74), and there are four CAN channels (R6). -/
structure State.Inv (s : State) : Prop where
  regs : tabWf 0#32 s.regs = true
  nv : s.nv.wf
  img : s.img.wf
  fab : s.fab.wf
  fbp : s.fbp.wf
  tick : s.lap.tick ≤ 4095
  sett : s.sett.wf
  can : s.can.length = 4

/-! ## Registers that the shared operations change -/

/-- The registers that a trigger of FAULT_N may change (R485 to R487). -/
def pinRegs : List Nat := [Reg.ZID_FAULT_FIRST, Reg.ZID_FAULT_LAST, Reg.ZID_CNT_FAULT, Reg.ZID_STAT, Reg.ZID_IRQ, Reg.ZID_FAULT_CTRL]

/-- The registers that recording an event may change (R468 to R471), a trigger's among them. -/
def spoorRegs : List Nat := pinRegs ++ [Reg.ZID_CNT_INJ, Reg.SPR_CNT_QOVR, Reg.SPR_STAT, Reg.SPR_IRQ, Reg.SPR_INJ, Reg.SPR_CNT_REC,
  Reg.SPR_HEADREP, Reg.SPR_CNT_MERGE, Reg.SPR_CNT_SUPPRESS]

/-- The registers that an accepted request may change by itself: its count, a re-sent response, and the sealing of a set
that a request formed. -/
def hostRegs : List Nat := [Reg.HWP_CNT_OK, Reg.HWP_CNT_RESEND, Reg.HWP_STAT, Reg.SETT_WS_TARGET_LO, Reg.SETT_INJ, Reg.ZID_CNT_INJ]

/-- The registers that the refusal of a request changes: the record and the counts of the host window block, its
interrupts with what a trigger changes, and a re-sent response (R380, R382). -/
def refuseRegs : List Nat := [Reg.HWP_LASTREFUSE, Reg.HWP_CNT_REFUSE, Reg.HWP_CNT_OPREF, Reg.HWP_STAT, Reg.HWP_IRQ, Reg.HWP_CNT_RESEND] ++ pinRegs

/-- A host window request that writes one word passes every check (R374): no rule refuses it. -/
def State.grants (s : State) (src : Src) (a : Nat) (v : Word) : Prop := s.clearSent.wordDeny src.slot.val a v = none

/-- The registers outside a list read as before. -/
def State.keepsRegs (s t : State) (l : List Nat) : Prop := ∀ a, a ∉ l → t.rd a = s.rd a

/-! ## Components -/

/-- The components of the state beside the queue, the registers and the counter of free values. -/
inductive Part where
  | answer | sent | lap | sett | img | nv | hwp | spr | zid | boot | dsp | fab
  | key | pair | field | loops | fbp | can | mtr | eth | ptp | rtc | tscNs | used
  deriving DecidableEq, Repr

/-- The components that an accepted request may change by itself: its answer, the response sent and charged, the sealing of a set that
the request formed, and the protocol's own state. -/
def hostParts : List Part := [.answer, .sent, .sett, .hwp, .used]

/-- The components that a refused request may change by itself. -/
def refuseParts : List Part := [.answer, .sent, .hwp, .zid, .used]

/-- From `s` to `t` the queue stays, and every component but the listed ones. -/
structure State.keepsParts (s t : State) (l : List Part) : Prop where
  pending : t.pending = s.pending
  answer : Part.answer ∉ l → t.answer = s.answer
  sent : Part.sent ∉ l → t.sent = s.sent
  lap : Part.lap ∉ l → t.lap = s.lap
  sett : Part.sett ∉ l → t.sett = s.sett
  img : Part.img ∉ l → t.img = s.img
  nv : Part.nv ∉ l → t.nv = s.nv
  hwp : Part.hwp ∉ l → t.hwp = s.hwp
  spr : Part.spr ∉ l → t.spr = s.spr
  zid : Part.zid ∉ l → t.zid = s.zid
  boot : Part.boot ∉ l → t.boot = s.boot
  dsp : Part.dsp ∉ l → t.dsp = s.dsp
  fab : Part.fab ∉ l → t.fab = s.fab
  key : Part.key ∉ l → t.key = s.key
  pair : Part.pair ∉ l → t.pair = s.pair
  field : Part.field ∉ l → t.field = s.field
  loops : Part.loops ∉ l → t.loops = s.loops
  fbp : Part.fbp ∉ l → t.fbp = s.fbp
  can : Part.can ∉ l → t.can = s.can
  mtr : Part.mtr ∉ l → t.mtr = s.mtr
  eth : Part.eth ∉ l → t.eth = s.eth
  ptp : Part.ptp ∉ l → t.ptp = s.ptp
  rtc : Part.rtc ∉ l → t.rtc = s.rtc
  tscNs : Part.tscNs ∉ l → t.tscNs = s.tscNs
  used : Part.used ∉ l → t.used = s.used

end Sys2Proof.Machine
end

