-- ==== Sys2Proof/Certificates/Slice0/Obligations.lean ====
section
/-!
DEFINITION. Certificates/Slice0/Obligations.lean: the statements about the model, for the provers. Each names the rules or
sections of spec/ that it rests on. `supplied`, `grants`, `keepsRegs` and `keepsParts` are those of Safety.lean.
-/

open Sys2Proof Sys2Proof.Machine

/-- A step runs the command at the front of the queue. For every command c and state s whose queue begins with c, one step
of s is exec of c on s with the queue's rest, and a step changes the queue in no other way. The queue is the model's
interface to whoever sends commands (log entry 1). (spec/95_what_each_step_holds.md.) -/
def Obligations.StepRunsFront : Prop :=
  ∀ (c : Instr) (rest : List Instr) (s : State), s.pending = c :: rest → step s = exec c { s with pending := rest }

/-- On an empty queue one tick passes. With no command waiting a step ends one tick of the lap: the tick number rises by one
and stays at most 4,095, no baton stays reserved, at most 8 more of the outputs that wait to be switched on do so (R282), a
program that executes in the tick is charged 1 core-tick and runs on (R230), and the frames of the earlier step are
forgotten; nothing else changes, no register among it. A module without supply stays as it is. That a step on an empty queue
is one tick is the model's choice (log entry 2). (spec/02_laps_budgets_batons.md, spec/09_function_block_program.md,
spec/10_field_inputs_outputs.md.) -/
def Obligations.IdleTick : Prop :=
  (∀ s : State, s.pending = [] → s.supplied →
    ∃ t, step s = .next t ∧ t.lap = { s.lap with tick := min 4095 (s.lap.tick + 1), rsv := false }
      ∧ t.field = { s.field with doLater := s.field.doLater.drop 8 } ∧ t.sent = [] ∧ t.regs = s.regs
      ∧ (if s.lap.tick < 4095 ∧ s.fbpExecutes = true then t.fbp = { s.fbp with ran := s.fbp.ran + 1 } ∧ t.used = (s.charge classFbp resCore 1).used
         else t.fbp = s.fbp ∧ t.used = s.used)
      ∧ s.keepsParts t [.sent, .lap, .field, .fbp, .used])
  ∧ ∀ s : State, s.pending = [] → s.boot.phase = Phase.off → step s = .next s

/-- No command changes the queue of waiting commands. Whatever command runs in whatever state, the queue after it is the
queue before it; so a step that runs a command leaves exactly the queue's rest. One induction over every command and every
shared operation shows it. (spec/95_what_each_step_holds.md.) -/
def Obligations.QueueKept : Prop :=
  (∀ (c : Instr) (s t : State), exec c s = .next t → t.pending = s.pending)
    ∧ ∀ (c : Instr) (rest : List Instr) (s t : State), s.pending = c :: rest → step s = .next t → t.pending = rest

/-- Every command gives a next state. The block has no fault and refuses no command: a request that a rule refuses is
answered with its status, and the block goes on. For every command and every state exec answers a next state, and so does
every step. (spec/15_host_window_protocol.md, spec/95_what_each_step_holds.md.) -/
def Obligations.EveryCommandCompletes : Prop :=
  (∀ (c : Instr) (s : State), completes c s) ∧ ∀ s : State, ∃ t, step s = .next t

/-- Every step keeps the invariant of the state. From every state that meets Inv (each sparse memory is in canonical form,
the readable setts among them, so equal contents are equal data; the tick lies in the lap, R42; at most four setts are
readable, R74; there are four CAN channels, R6) each step gives a state that meets it. (R6, R42, R74,
spec/02_laps_budgets_batons.md, spec/03_sett_coherent_state.md.) -/
def Obligations.InvariantKept : Prop :=
  ∀ s t : State, s.Inv → step s = .next t → t.Inv

/-- The state after reset meets the invariant. State.reset meets Inv, so every state that a run from reset reaches does.
(R6, R42, R74, spec/02_laps_budgets_batons.md.) -/
def Obligations.ResetInvariant : Prop := State.reset.Inv

/-- Every register whose table states a reset value holds it after reset. For every row of the register map and every field
whose reset column states a number, the field of the row's first register holds that number in State.reset; ZID_FAULT_STATE
is left out here because it is read live (its PHASE after reset is START, 1). (spec/24_register_index.md, R4.) -/
def Obligations.ResetRegisterValues : Prop :=
  (∀ (b : Blk), ∀ r ∈ rowsOf b, ∀ f ∈ r.fields, ∀ n : Nat, f.rst = .val n → r.base ≠ Reg.ZID_FAULT_STATE →
    bitsOf (State.reset.rd r.base) f.lo f.width = n) ∧ State.reset.faultPhase = 1

/-- While the module is off a command other than those of the unpowered parts changes nothing. In a module without supply
every command but POWER_UP, the two changes of an isolated input (INTLK_IN, GRANT_IN), SECOND_CARRY and WAKE leaves the
whole state as it is: nothing is received, answered or counted. That the calendar and the two input levels go on is the
model's reading of the backup domain (log entry 3). (spec/22_start_up_hurdles.md, spec/19_clock_calendar.md.) -/
def Obligations.OffChangesNothing : Prop :=
  ∀ (c : Instr) (s : State), s.boot.phase = Phase.off →
    (∀ v n, c ≠ .powerUp v n) → (∀ x, c ≠ .intlkInChange x) → (∀ x, c ≠ .grantInChange x) → c ≠ .secondCarry → c ≠ .wake →
    exec c s = .next s

/-- Image loading: OPEN, CHECK and its end, COMMIT and its end, ABORT, ACTIVATE and FLOOR. A granted OPEN empties the
staging buffer, opens the load of the named slot and sets the received count to 0; CHECK begins the check, whose end reports
CODE and FAILSECT and counts a refusal; COMMIT makes the slot WRITING and records its SERIAL, and its end puts the buffer
into the slot, VALID when it reads back right and INVALID with FLASHFAIL when not; ABORT discards the buffer. ACTIVATE
leaves the named slot to the next commit; FLOOR asks for a raise when the running SERIAL lies above the floor. Outside its
state an end does nothing. Nothing else changes. (R21, R26, R30, R32, R33, R34, R36, R37, R38, R41.) -/
def Obligations.ImageLoading : Prop :=
  (∀ (src : Src) (b : Bool) (s : State), s.supplied → s.grants src Reg.IMG_LOAD_CTRL (BitVec.ofNat 32 (1 + b.toNat * 2 ^ 8)) →
    s.fld Reg.IMG_LOAD_STAT 8 3 = 0 ∧ (s.imgRuns = true → s.runSlot ≠ b)
    ∧ ∃ t, exec (.imgOpen src b) s = .next t ∧ t.answer.status = .ok
      ∧ t.img = { s.img with staging := [] } ∧ t.rd Reg.IMG_LOAD_STAT = BitVec.ofNat 32 (2 ^ 8 + b.toNat * 2 ^ 12) ∧ t.rd Reg.IMG_LOAD_RCVD = 0#32
      ∧ s.keepsRegs t ([Reg.IMG_LOAD_STAT, Reg.IMG_LOAD_RCVD] ++ hostRegs) ∧ s.keepsParts t (.img :: hostParts))
  ∧ (∀ (src : Src) (s : State), s.supplied → s.grants src Reg.IMG_LOAD_CTRL 2#32 →
      s.fld Reg.IMG_LOAD_STAT 8 3 = 1 ∧ ∃ t, exec (.imgCheck src) s = .next t ∧ t.answer.status = .ok
      ∧ t.rd Reg.IMG_LOAD_STAT = (s.setFld Reg.IMG_LOAD_STAT 8 3 2).rd Reg.IMG_LOAD_STAT ∧ s.keepsRegs t (Reg.IMG_LOAD_STAT :: hostRegs) ∧ s.keepsParts t hostParts)
  ∧ (∀ s : State, s.supplied → s.fld Reg.IMG_LOAD_STAT 8 3 ≠ 2 → ∃ t, exec .checkComplete s = .next t ∧ t = s.clearSent)
  ∧ (∀ s : State, s.supplied → s.fld Reg.IMG_LOAD_STAT 8 3 = 2 → ∃ t, exec .checkComplete s = .next t
      ∧ (let r := s.checkImage s.img.staging (some (s.fld Reg.IMG_LOAD_LEN 0 25))
         t.fld Reg.IMG_LOAD_STAT 8 3 = 3 ∧ t.fld Reg.IMG_LOAD_STAT 0 8 = r.1 % 256 ∧ t.fld Reg.IMG_LOAD_STAT 16 5 = r.2 % 32
         ∧ t.bit Reg.IMG_LOAD_STAT 12 = s.bit Reg.IMG_LOAD_STAT 12 ∧ t.bit Reg.IMG_IRQ 0 = true
         ∧ t.nat Reg.IMG_CNT_REFUSE = min 0xFFFFFFFF (s.nat Reg.IMG_CNT_REFUSE + (r.1 != 1).toNat)
         ∧ (r.1 ≠ 1 → t.bit Reg.IMG_STAT 0 = true ∧ t.bit Reg.IMG_IRQ 2 = true) ∧ (r.1 = 1 → t.bit Reg.IMG_STAT 0 = s.bit Reg.IMG_STAT 0))
      ∧ s.keepsRegs t ([Reg.IMG_LOAD_STAT, Reg.IMG_STAT, Reg.IMG_CNT_REFUSE, Reg.IMG_IRQ, Reg.IMG_INJ, Reg.LAP_INJ, Reg.ZID_CNT_INJ] ++ pinRegs)
      ∧ s.keepsParts t [.sent, .zid])
  ∧ (∀ (src : Src) (s : State), s.supplied → s.grants src Reg.IMG_LOAD_CTRL 4#32 →
      (let b := s.bit Reg.IMG_LOAD_STAT 12
       let stat := if b then Reg.IMG_SLOTB_STAT else Reg.IMG_SLOTA_STAT
       let serial := if b then Reg.IMG_SLOTB_SERIAL else Reg.IMG_SLOTA_SERIAL
       s.fld Reg.IMG_LOAD_STAT 8 3 = 3 ∧ s.fld Reg.IMG_LOAD_STAT 0 8 = 1 ∧ ∃ t, exec (.imgCommit src) s = .next t ∧ t.answer.status = .ok
        ∧ t.fld Reg.IMG_LOAD_STAT 8 3 = 4 ∧ t.fld stat 0 2 = 1 ∧ t.rd serial = ImgBytes.serial s.img.staging
        ∧ s.keepsRegs t ([Reg.IMG_LOAD_STAT, stat, serial] ++ hostRegs) ∧ s.keepsParts t hostParts))
  ∧ (∀ (ok : Bool) (s : State), s.supplied → ∃ t, exec (.commitComplete ok) s = .next t
      ∧ (let b := s.bit Reg.IMG_LOAD_STAT 12
         let stat := if b then Reg.IMG_SLOTB_STAT else Reg.IMG_SLOTA_STAT
         let good := ok != s.bit Reg.IMG_INJ 3
         (s.fld Reg.IMG_LOAD_STAT 8 3 ≠ 4 → t = s.clearSent)
         ∧ (s.fld Reg.IMG_LOAD_STAT 8 3 = 4 → t.bit Reg.IMG_INJ 3 = false ∧ t.bit Reg.IMG_IRQ 1 = true
            ∧ t.img = (if b then { s.img with slotB := s.img.staging } else { s.img with slotA := s.img.staging })
            ∧ t.fld stat 0 2 = (if good then 2 else 3) ∧ t.fld Reg.IMG_LOAD_STAT 8 3 = (if good then 0 else 3) ∧ t.bit Reg.IMG_LOAD_STAT 14 = !good
            ∧ t.bit Reg.IMG_STAT 4 = (s.bit Reg.IMG_STAT 4 || !good) ∧ t.nat Reg.IMG_CNT_FLASH = min 0xFFFFFFFF (s.nat Reg.IMG_CNT_FLASH + (!good).toNat))
         ∧ s.keepsRegs t ([stat, Reg.IMG_LOAD_STAT, Reg.IMG_STAT, Reg.IMG_CNT_FLASH, Reg.IMG_IRQ, Reg.IMG_INJ, Reg.ZID_CNT_INJ] ++ pinRegs))
      ∧ s.keepsParts t [.sent, .img, .zid])
  ∧ (∀ (src : Src) (s : State), s.supplied → s.grants src Reg.IMG_LOAD_CTRL 8#32 → ∃ t, exec (.imgAbort src) s = .next t ∧ t.answer.status = .ok
      ∧ t.fld Reg.IMG_LOAD_STAT 8 3 = 0 ∧ t.img = (if s.fld Reg.IMG_LOAD_STAT 8 3 = 0 then s.img else { s.img with staging := [] })
      ∧ s.keepsRegs t (Reg.IMG_LOAD_STAT :: hostRegs) ∧ s.keepsParts t (.img :: hostParts))
  ∧ (∀ (src : Src) (b : Bool) (s : State), s.supplied → s.grants src Reg.IMG_ACT_CTRL (BitVec.ofNat 32 (1 + b.toNat * 2 ^ 8)) →
      s.fld (if b then Reg.IMG_SLOTB_STAT else Reg.IMG_SLOTA_STAT) 0 2 = 2 ∧ (s.fld Reg.PAIR_STATE 0 3 = 4 → s.bit Reg.PAIR_STATE 6 = false)
      ∧ ∃ t, exec (.activate src b) s = .next t ∧ t.answer.status = .ok ∧ t.img = { s.img with pendAct := some b }
        ∧ s.keepsRegs t hostRegs ∧ s.keepsParts t (.img :: hostParts))
  ∧ ∀ (src : Src) (s : State), s.supplied → s.grants src Reg.IMG_ACT_CTRL 0x10000#32 → s.imgRuns = true
      ∧ ∃ t, exec (.floor src) s = .next t ∧ t.answer.status = .ok
        ∧ (let above := decide ((s.tallyV 1).toNat < s.nat Reg.IMG_SERIAL)
           t.img = { s.img with floorTo := if above then some (s.rd Reg.IMG_SERIAL) else s.img.floorTo }
           ∧ (above = true → s.img.floorTo = none → s.boot.phase ≠ Phase.shutdown → t.nv = { s.nv with tallyJobs := t.nv.tallyJobs } ∧ t.nv.tallyJobs.any (fun j => j.1 == 1) = true)
           ∧ (above = false ∨ s.img.floorTo.isSome = true → t.nv = s.nv))
        ∧ s.keepsRegs t hostRegs ∧ s.keepsParts t (.img :: .nv :: hostParts)

/-- Laps and batons: a boundary, crossings, the source, the pacer's grant and the governor. At a boundary LAP_COUNT rises by
one, tick 0 begins, the lap's length keeps the limits of R47 and adds to the time base, what was charged shows in LAP_USED
with held classes counted, NVW alone hands debt on, and a sett commits where it may. A crossing, or 30 ms without one, is
judged once and moves its source's validity. Source and period writes, the end of a slew, the latch of LAP_COUNT_HI, one
charged unit of the highest class that may be granted, the governor's grant, the ageing of a request and the narrow burst
after 64 ticks have their effect and no other. (R42, R44, R47, R48, R49, R50, R51, R55, R56, R65, R66, R67.) -/
def Obligations.LapsAndBatons : Prop :=
  (∀ (target : BitVec 25) (meters : List FeederLap) (s : State), s.supplied →
    ∃ t, exec (.lapBoundary target meters) s = .next t
      ∧ (let ns := s.lapNs target.toNat
         t.lap.count = (s.lap.count + 1) % 2 ^ 48 ∧ t.lap.tick = 0 ∧ t.lap.coast = false ∧ t.tscNs = s.tscNs + ns
         ∧ (s.lap.judging = true → s.fld Reg.LAP_SRC_STAT 0 2 < 2 → s.lap.coasting = false → ns = lapLength s.lastLap target.toNat)
         ∧ (s.lap.coasting = true → ns = lapLength s.lastLap s.lastLap)
         ∧ (s.lastLap ≤ 25500000 → ns ≤ 25000000 ∧ (14500000 ≤ s.lastLap → ns ≤ s.lastLap + 500000 ∧ s.lastLap ≤ ns + 500000)) ∧ 15000000 ≤ ns
         ∧ t.rd Reg.LAP_PERIOD = BitVec.ofNat 32 ns
         ∧ t.bit Reg.LAP_STAT 1 = (s.bit Reg.LAP_STAT 1 || s.lap.coasting)
         ∧ t.nat Reg.LAP_CNT_COAST = min 0xFFFFFFFF (s.nat Reg.LAP_CNT_COAST + s.lap.coasting.toNat)
         ∧ (∀ c : Fin 12, c ≠ 3 →
             let held := (List.range 4).any (fun r => s.heldOn c.val r)
             (∀ r : Fin 4, t.nat (Reg.LAP_USED_c_r c.val r.val) = min 8191 (listGet s.used (4 * c.val + r.val) / chargeUnit r.val))
             ∧ t.bit Reg.LAP_HELD_LAST c.val = held ∧ t.nat (Reg.LAP_OVSP c.val) = min 0xFFFFFFFF (s.nat (Reg.LAP_OVSP c.val) + held.toNat)
             ∧ (held = true → t.bit Reg.LAP_STAT 2 = true ∧ t.bit Reg.LAP_IRQ 3 = true))
         ∧ (s.commits = true → t.sett.epoch = s.nextEpoch ∧ (t.sett.fresh.map (·.epoch)) = some s.nextEpoch)
         ∧ (s.commits = false → t.sett.epoch = s.sett.epoch))
      ∧ s.keepsParts t [.sent, .lap, .sett, .img, .nv, .hwp, .spr, .zid, .boot, .dsp, .fab, .key, .pair, .field, .loops, .fbp, .mtr, .eth, .ptp, .rtc,
          .tscNs, .used])
  ∧ (∀ (feeder : Bool) (dev : BitVec 32) (freq : BitVec 17) (s : State), s.supplied → s.bit Reg.LAP_INJ 0 = false →
      (let j := if feeder then s.lap.feeder else s.lap.mains
       let off := !s.lap.judging || (feeder && !s.feederUsable)
       let good := decide (dev.toNat ≤ 2000000) && decide (45000 ≤ freq.toNat) && decide (freq.toNat ≤ 65000)
       let inUse := s.lapCur == feeder.toNat
       let next (x : State) := if feeder then x.lap.feeder else x.lap.mains
       let other (x : State) := if feeder then x.lap.mains else x.lap.feeder
       (∃ t, exec (.mainsCrossing feeder dev freq) s = .next t
         ∧ (off = true → t = s.clearSent)
         ∧ (off = false → j.seen = false → next t = { j with seen := true, last := some s.oscNs } ∧ t.regs = s.regs ∧ t.lap.coast = s.lap.coast)
         ∧ (off = false → j.seen = true → (next t).freqs = (freq.toNat :: j.freqs).take 4 ∧ t.lap.coast = (s.lap.coast || (inUse && !good))
            ∧ (good = true → (next t).good = j.good + 1 ∧ (next t).bad = 0 ∧ (next t).valid = (j.valid || decide (16 ≤ j.good + 1)) ∧ (next t).last = some s.oscNs)
            ∧ (good = false → (next t).good = 0 ∧ (next t).bad = j.bad + 1 ∧ (next t).valid = (j.valid && decide (j.bad + 1 < 3))))
         ∧ other t = other s ∧ s.keepsRegs t (if feeder then [] else [Reg.LAP_MAINS_FREQ]) ∧ s.keepsParts t [.sent, .lap])
       ∧ ∃ t, exec (.missingCrossing feeder) s = .next t
         ∧ (!s.lap.judging || !j.seen → t = s.clearSent)
         ∧ (s.lap.judging = true → j.seen = true → (next t).good = 0 ∧ (next t).bad = j.bad + 1 ∧ (next t).valid = (j.valid && decide (j.bad + 1 < 3))
            ∧ t.lap.coast = (s.lap.coast || inUse) ∧ (feeder = false → t.nat Reg.LAP_MAINS_FREQ = 0))
         ∧ other t = other s ∧ s.keepsRegs t (if feeder then [] else [Reg.LAP_MAINS_FREQ]) ∧ s.keepsParts t [.sent, .lap]))
  ∧ (∀ (src : Src) (v : Word) (s : State), s.supplied →
      (s.grants src Reg.LAP_SRC_CTRL v → ∃ t, exec (.lapSrcWrite src v) s = .next t ∧ t.answer.status = .ok
        ∧ (let same := bitsOf v 2 4 == s.fld Reg.LAP_SRC_CTRL 2 4
           t.fld Reg.LAP_SRC_CTRL 0 6 = bitsOf v 0 6 ∧ t.bit Reg.LAP_SRC_CTRL 8 = bitOf v 8 ∧ t.fld Reg.LAP_SRC_CTRL 16 8 = bitsOf v 16 8
           ∧ t.lap = { s.lap with srcWritten := true, selFree := false, feeder := if same then s.lap.feeder else Judge.fresh })
        ∧ s.keepsRegs t (Reg.LAP_SRC_CTRL :: hostRegs) ∧ s.keepsParts t (.lap :: hostParts))
      ∧ (s.grants src Reg.LAP_FREE_PERIOD v → ∃ t, exec (.freePeriodWrite src v) s = .next t ∧ t.answer.status = .ok
        ∧ t.fld Reg.LAP_FREE_PERIOD 0 25 = bitsOf v 0 25 ∧ 16666667 ≤ bitsOf v 0 25 ∧ bitsOf v 0 25 ≤ 20000000
        ∧ s.keepsRegs t (Reg.LAP_FREE_PERIOD :: hostRegs) ∧ s.keepsParts t hostParts)
      ∧ (bitsOf v 0 25 < 16666667 ∨ 20000000 < bitsOf v 0 25 → s.grants src Reg.LAP_FREE_PERIOD v → False))
  ∧ (∀ s : State, s.supplied → ∃ t, exec .slewDone s = .next t
      ∧ (s.bit Reg.LAP_SRC_STAT 2 = false → t = s.clearSent)
      ∧ (s.bit Reg.LAP_SRC_STAT 2 = true → t.bit Reg.LAP_SRC_STAT 2 = false ∧ t.bit Reg.LAP_IRQ 2 = true ∧ t.lap = { s.lap with slewLaps := none })
      ∧ s.keepsRegs t ([Reg.LAP_SRC_STAT, Reg.LAP_IRQ] ++ pinRegs) ∧ s.keepsParts t [.sent, .lap, .zid])
  ∧ (∀ (src : Src) (s : State), s.supplied → s.clearSent.readDeny src.slot.val Reg.LAP_COUNT_LO = none → ∃ t, exec (.countLoRead src) s = .next t
      ∧ t.answer.status = .ok ∧ t.answer.data = [BitVec.ofNat 32 s.lap.count] ∧ t.nat Reg.LAP_COUNT_HI = s.lap.count / 2 ^ 32 % 2 ^ 16
      ∧ s.keepsRegs t (Reg.LAP_COUNT_HI :: hostRegs) ∧ s.keepsParts t hostParts)
  ∧ (∀ (r : Fin 4) (ask : PacerAsk) (s : State), s.supplied →
      (let may (c : Nat) : Bool := if r = 2 && s.pfailed then true
         else decide (listGet s.used (4 * c + r.val) < listGet s.lap.budget (4 * c + r.val) * chargeUnit r.val)
       let first := ([1, 4, 3, 0, 11, 6, 5, 7, 2, 8, 9, 10].filter may).find? (fun c => ask.units.any (fun u => u.1.val == c))
       let u := ask.units.find? (fun u => some u.1.val == first)
       ∃ t, exec (.pacerGrant r ask) s = .next t
        ∧ (first = none → t = s.clearSent)
        ∧ (∀ c, u = some c → t.used = (if r = 2 && s.pfailed then s.used
             else s.used.set (4 * c.1.val + r.val) (listGet s.used (4 * c.1.val + r.val) + min c.2.toNat (largestCharge r.val))))
        ∧ (first ≠ some 2 → s.keepsRegs t [] ∧ t.dsp = s.dsp)
        ∧ (∀ v, s.dsp.solve = some v → first = some 2 → v.running = true → (t.dsp.solve.map (·.loaded)) = some (v.loaded + if r = 3 then min ((u.map (·.2.toNat)).getD 0) 1 else 0))
        ∧ s.keepsRegs t [Reg.SLV_RUN, Reg.SLV_WAVE, Reg.SLV_TASK] ∧ s.keepsParts t [.sent, .dsp, .used]))
  ∧ (∀ s : State, s.supplied → ∃ t, exec .batonGrant s = .next t
      ∧ (let q := s.nextGrant
         (q = none → t = s.clearSent)
         ∧ (∀ x, q = some x → x.need ≤ s.batonsFree ∧ (∀ y ∈ s.lap.batonQ, y.need ≤ s.batonsFree → s.effPri y ≤ s.effPri x)
            ∧ t.lap.batonQ = s.lap.batonQ.filter (fun y => y.who != x.who)
            ∧ (x.who < s.lap.batonHeld.length → x.who ≠ 1 → t.batonsOf x.who = x.need) ∧ (x.who = 3 → t.bit Reg.RTC_CHG 5 = true)
            ∧ (x.who = 2 ∨ x.who = 4 → t.regs = s.regs) ∧ (x.who = 3 → s.keepsRegs t [Reg.RTC_CHG])
            ∧ (x.who = 0 → (∀ a : Nat, blockOf a ≠ some .slv → t.rd a = s.rd a) ∧ (s.burstWaits = false → t.bit Reg.SLV_RUN 21 = s.dsp.solve.isSome || s.bit Reg.SLV_RUN 21)
               ∧ ∀ v, s.dsp.solve = some v → v.waiting = true → (t.dsp.solve.map (·.it)) = some (v.it + 1) ∧ t.fld Reg.SLV_RUN 16 5 = v.planned % 32)))
      ∧ s.keepsParts t [.sent, .lap, .img, .nv, .zid, .dsp, .fab, .field, .fbp, .used])
  ∧ (∀ (who : Fin 6) (s : State), s.supplied → ∃ t, exec (.batonAge who) s = .next t
      ∧ t.lap = { s.lap with batonQ := s.lap.batonQ.map (fun q => if q.who = who.val then { q with waited := q.waited + 1 } else q) }
      ∧ t.regs = s.regs ∧ s.keepsParts t [.sent, .lap])
  ∧ ∀ s : State, s.supplied → ∃ t, exec .batonWaitTimeout s = .next t
      ∧ (s.burstWaits = false → t = s.clearSent)
      ∧ (∀ v, s.dsp.solve = some v → v.waiting = true → t.dsp = { s.dsp with solve := some { v with narrow := true, waiting := false, it := v.it + 1, charged := 0, loaded := 0, pos := ⟨0, 0, 0⟩, dropped := false } }
          ∧ t.fld Reg.SLV_RUN 16 5 = 4 ∧ t.bit Reg.LAP_STAT 3 = true ∧ t.bit Reg.LAP_IRQ 4 = true ∧ t.bit Reg.SLV_STAT 6 = true ∧ t.bit Reg.SLV_IRQ 4 = true
          ∧ t.nat Reg.LAP_CNT_BATON_WAIT = min 0xFFFFFFFF (s.nat Reg.LAP_CNT_BATON_WAIT + 1) ∧ t.nat Reg.SLV_CNT_NARROW = min 0xFFFFFFFF (s.nat Reg.SLV_CNT_NARROW + 1)
          ∧ t.nat Reg.SLV_CNT_ITER = min 0xFFFFFFFF (s.nat Reg.SLV_CNT_ITER + 1) ∧ t.rd Reg.SLV_WAVE = 0#32)
      ∧ t.lap = s.lap
      ∧ (∀ a : Nat, blockOf a ≠ some .slv → a ∉ [Reg.LAP_STAT, Reg.LAP_IRQ, Reg.LAP_CNT_BATON_WAIT] ++ pinRegs → t.rd a = s.rd a) ∧ s.keepsParts t [.sent, .zid, .dsp, .fab]

/-- Setts and write sets: a sett becomes readable, the epoch tally, OPEN, SEAL, ABORT and the time-out. The sett committed
last becomes the newest of at most four readable ones, raises IRQ, and with it a result published for it; with none nothing
changes. At epoch 0xF0000 of its low 20 bits the epoch tally rises by one, and no other. A granted OPEN forms an empty set
of the requester; a granted SEAL seals an OPEN set for this lap's boundary, or from tick 4,032 on for the next one; a
granted ABORT discards a set as ABORTED, and an OPEN set whose laps are over is discarded as TIMEOUT at the lap's end, each
recorded and counted. Nothing else changes. (R73, R74, R84, R89, R90, R91, R94, spec/03_sett_coherent_state.md.) -/
def Obligations.SettsAndWriteSets : Prop :=
  (∀ s : State, s.supplied → s.sett.fresh = none → ∃ t, exec .settReadable s = .next t ∧ t = s.clearSent)
  ∧ (∀ s : State, s.supplied → ∀ f, s.sett.fresh = some f → ∃ t, exec .settReadable s = .next t
      ∧ t.sett = { s.sett with fresh := none, held := f :: s.sett.held.take 3 } ∧ t.bit Reg.SETT_IRQ 0 = true
      ∧ t.dsp = { s.dsp with pubFresh := false } ∧ (s.dsp.pubFresh = true → t.bit Reg.DSP_RES_IRQ 0 = true)
      ∧ (s.dsp.pubFresh = false → t.rd Reg.DSP_RES_IRQ = s.rd Reg.DSP_RES_IRQ)
      ∧ ((s.bit Reg.ETH_CTRL 0 = false ∨ s.imgRuns = false) → t.sent = [] ∧ t.eth = s.eth)
      ∧ (∀ a : Nat, a ∉ [Reg.SETT_IRQ, Reg.DSP_RES_IRQ] ++ pinRegs → blockOf a ≠ some .eth → t.rd a = s.rd a)
      ∧ s.keepsParts t [.sent, .sett, .zid, .dsp, .eth, .used])
  ∧ (∀ s : State, s.supplied → s.bit Reg.NVS_INJ 1 = false → ∃ t, exec .epochTallyRaise s = .next t
      ∧ (let due := decide (s.sett.epoch % 2 ^ 20 = 0xF0000)
         (due = false → t = s.clearSent) ∧ (due = true → s.tallyV 0 ≠ 0xFFFFFFFF#32 → t.tallyV 0 = s.tallyV 0 + 1#32)
         ∧ (due = true → s.tallyV 0 = 0xFFFFFFFF#32 → t.tallyV 0 = s.tallyV 0))
      ∧ (∀ k : Nat, k ≠ 0 → t.tally k = s.tally k) ∧ t.nv = { s.nv with tallies := t.nv.tallies } ∧ s.keepsParts t [.sent, .nv, .zid, .used])
  ∧ (∀ (src : Src) (s : State), s.supplied → s.grants src Reg.SETT_WS_CTRL 1#32 → ∃ t, exec (.wsOpen src) s = .next t ∧ t.answer.status = .ok
      ∧ t.sett = { s.sett with ws := some ⟨false, src.slot.val, false, [], false, s.lap.count, 0⟩ } ∧ t.rd Reg.SETT_WS_SEQ = s.rd Reg.SETT_WS_SEQ + 1
      ∧ s.keepsRegs t (Reg.SETT_WS_SEQ :: hostRegs) ∧ s.keepsParts t hostParts)
  ∧ (∀ (src : Src) (s : State), s.supplied → s.grants src Reg.SETT_WS_CTRL 2#32 → ∃ t, exec (.seal src) s = .next t ∧ t.answer.status = .ok
      ∧ (let target := (if s.lap.tick < 4032 then 0 else 1) + s.sett.jumpTo.getD (s.sett.epoch + 1)
         let isOpen := match s.sett.ws with | some w => !w.sealed | none => false
         (∀ w, s.sett.ws = some w → w.sealed = false →
           t.sett = { s.sett with ws := some { w with sealed := true, target := target, poison := w.poison || s.bit Reg.SETT_INJ 1 } })
         ∧ (isOpen = true → t.rd Reg.SETT_WS_TARGET_LO = BitVec.ofNat 32 target ∧ t.bit Reg.SETT_INJ 1 = false)
         ∧ (isOpen = false → t.sett = s.sett ∧ t.rd Reg.SETT_WS_TARGET_LO = s.rd Reg.SETT_WS_TARGET_LO))
      ∧ s.keepsRegs t hostRegs ∧ s.keepsParts t hostParts)
  ∧ (∀ (src : Src) (s : State), s.supplied → s.grants src Reg.SETT_WS_CTRL 4#32 → ∃ t, exec (.wsAbort src) s = .next t ∧ t.answer.status = .ok
      ∧ t.sett = { s.sett with ws := none }
      ∧ (s.sett.ws.isSome = true → t.rd Reg.SETT_WS_LAST = 4#32 ∧ t.rd Reg.SETT_WS_LAST_SEQ = s.rd Reg.SETT_WS_SEQ
         ∧ t.nat Reg.SETT_CNT_WS_DISCARD = min 0xFFFFFFFF (s.nat Reg.SETT_CNT_WS_DISCARD + 1) ∧ t.bit Reg.SETT_STAT 2 = true ∧ t.bit Reg.SETT_IRQ 1 = true)
      ∧ (s.sett.ws = none → s.keepsRegs t hostRegs)
      ∧ s.keepsRegs t ([Reg.SETT_WS_LAST, Reg.SETT_WS_LAST_SEQ, Reg.SETT_CNT_WS_DISCARD, Reg.SETT_STAT, Reg.SETT_IRQ] ++ hostRegs ++ pinRegs)
      ∧ s.keepsParts t (.zid :: hostParts))
  ∧ (∀ s : State, s.supplied → s.sett.ws = none ∨ s.lap.tick ≠ 4095 → ∃ t, exec .wsTimeout s = .next t ∧ t = s.clearSent)
  ∧ ∀ s : State, s.supplied → s.lap.tick = 4095 → ∀ w, s.sett.ws = some w → ∃ t, exec .wsTimeout s = .next t
      ∧ (let late := !w.sealed && decide (w.openLap + s.fld Reg.SETT_WS_TIMEOUT 0 16 ≤ s.lap.count)
         (late = false → t = s.clearSent)
         ∧ (late = true → t.sett = { s.sett with ws := none } ∧ t.rd Reg.SETT_WS_LAST = 3#32 ∧ t.rd Reg.SETT_WS_LAST_SEQ = s.rd Reg.SETT_WS_SEQ
            ∧ t.nat Reg.SETT_CNT_WS_DISCARD = min 0xFFFFFFFF (s.nat Reg.SETT_CNT_WS_DISCARD + 1) ∧ t.bit Reg.SETT_STAT 2 = true ∧ t.bit Reg.SETT_IRQ 1 = true
            ∧ s.keepsRegs t ([Reg.SETT_WS_LAST, Reg.SETT_WS_LAST_SEQ, Reg.SETT_CNT_WS_DISCARD, Reg.SETT_STAT, Reg.SETT_IRQ] ++ pinRegs)))
      ∧ s.keepsParts t [.sent, .sett, .zid]

/-- Dispatch and solver: a cycle's start, a grid point, a measurement, assembly, an iteration, the burst and the deadline. A
due cycle start with a problem that fits and no result due counts the cycle, sets its deadline, next start and snapshot,
reports stale values and begins its solve. A due grid point is recorded once. A granted measurement keeps its stamp.
Assembly moves what SLV may be granted, and at its end holds the converted programme, or stops with NOSTART when a value
saturated. An iteration pauses without room; an acceptable end shows its measures and stops at TEST or ITERMAX or goes on,
any other counts a rejection. WIDEN widens. At the deadline one result is published with the first status of the table that
holds. Otherwise nothing changes. (R100, R106, R107, R114, R134, R145, R146, R147, R160, R161, R168, R169.) -/
def Obligations.DispatchAndSolver : Prop :=
  (∀ s : State, s.supplied →
    (s.lap.tick ≠ 0 ∨ s.imgRuns = false ∨ s.boot.passed.contains 15 = false ∨ s.bit Reg.DSP_CTRL 0 = false ∨ s.isActive = false
      ∨ s.dsp.nextStart.any (fun l => s.lap.count < l) = true → ∃ t, exec .cycleStart s = .next t ∧ t = s.clearSent)
    ∧ (s.lap.tick = 0 → s.imgRuns = true → s.boot.passed.contains 15 = true → s.bit Reg.DSP_CTRL 0 = true → s.isActive = true →
      s.dsp.nextStart.all (fun l => l ≤ s.lap.count) = true → s.dsp.dlOpen = false → s.dsp.nofit = false → s.dsp.fallback = false → s.mapLive.fits false = true →
      ∃ t, exec .cycleStart s = .next t
        ∧ t.rd Reg.DSP_CYC_LO = s.rd Reg.DSP_CYC_LO + 1 ∧ t.rd Reg.DSP_CYC_EPOCH_LO = BitVec.ofNat 32 s.sett.epoch
        ∧ t.nat Reg.DSP_CNT_CYCLE = min 0xFFFFFFFF (s.nat Reg.DSP_CNT_CYCLE + 1) ∧ t.bit Reg.DSP_IRQ 0 = true
        ∧ t.dsp.nextStart = some (s.lap.count + s.fld Reg.DSP_CYCLE 0 16) ∧ t.dsp.dlOpen = true ∧ t.dsp.gridSince = false
        ∧ (t.dsp.cycle.map (fun c => (c.number, c.startLap, c.startEpoch, c.deadline, c.shift, c.warm, c.timeGrid)))
            = some (s.rd Reg.DSP_CYC_LO + 1, s.lap.count, s.sett.epoch, s.lap.count + s.fld Reg.DSP_DEADLINE 0 16, s.dsp.gridSince.toNat, s.dsp.accepted.isSome, !s.sett.timeValid)
        ∧ (t.dsp.solve.map (fun v => (v.running, v.assembled, v.it, v.rejected, v.waiting))) = some (true, false, 0, 0, false)
        ∧ t.rd Reg.SLV_RUN = 1#32 ∧ t.nat Reg.SLV_CNT_SOLVE = min 0xFFFFFFFF (s.nat Reg.SLV_CNT_SOLVE + 1)
        ∧ (∀ a ∈ [Reg.DSP_RES_RP, Reg.DSP_RES_RG, Reg.DSP_RES_RD, Reg.DSP_RES_MU], t.rd a = 0xFFFFFFFF#32)
        ∧ (s.rd Reg.DSP_INJ = 0#32 →
            t.nat Reg.DSP_CNT_STALEMEAS = min 0xFFFFFFFF (s.nat Reg.DSP_CNT_STALEMEAS + s.staleCount)
            ∧ t.bit Reg.DSP_STAT 0 = (s.bit Reg.DSP_STAT 0 || decide (0 < s.staleCount))
            ∧ t.bit Reg.DSP_STAT 2 = (s.bit Reg.DSP_STAT 2 || (((List.range s.scen).foldl (fun n k => n + s.fld (Reg.DSP_SCENW_s k) 0 17) 0) != 65536))
            ∧ t.nat Reg.DSP_CNT_DEMCLIP = min 0xFFFFFFFF (s.nat Reg.DSP_CNT_DEMCLIP + s.demand.2.toNat)
            ∧ t.nat Reg.DSP_CNT_PRICECLIP = min 0xFFFFFFFF (s.nat Reg.DSP_CNT_PRICECLIP + (s.prices.any (·.2)).toNat))
        ∧ t.dsp.accepted = s.dsp.accepted ∧ t.dsp.header = s.dsp.header ∧ t.dsp.streams = s.dsp.streams ∧ t.fab = { s.fab with live := s.fab.use, scrubAt := t.fab.scrubAt }
        ∧ s.keepsParts t [.sent, .lap, .sett, .zid, .dsp, .fab]
        ∧ (∀ a : Nat, blockOf a ≠ some .dsp → blockOf a ≠ some .slv → blockOf a ≠ some .fab → a ∉ Reg.ZID_CNT_INJ :: pinRegs → t.rd a = s.rd a)))
  ∧ (∀ s : State, s.supplied → ∃ t, exec .gridPoint s = .next t
      ∧ (let step := s.runImg.stepMin * 60 * 1000000000
         let now := s.sett.lastSec * 1000000000 + s.sett.lastNs
         let prev := if s.sett.prevSec = 0 ∧ s.sett.prevNs = 0 then now - s.fld Reg.LAP_PERIOD 0 25 else s.sett.prevSec * 1000000000 + s.sett.prevNs
         let due := s.imgRuns && s.lap.tick == 0 && s.dsp.gridLap != some s.lap.count
           && (if s.sett.timeValid then step != 0 && decide (prev / step < now / step) else s.dsp.gridLap.any (fun l => l + s.nat Reg.DSP_STEPLAPS ≤ s.lap.count))
         let shows := due && decide (s.dsp.resLap < s.lap.count) && !s.dsp.header.isEmpty && !s.bit Reg.DSP_RES_LAST 4
         (due = false → t = s.clearSent)
         ∧ (due = true → t.dsp = { s.dsp with gridLap := some s.lap.count, gridSince := true, history := (s.stepTemps :: s.dsp.history).take 16 } ∧ t.rd Reg.DSP_GRIDPT_LO = BitVec.ofNat 32 s.lap.count)
         ∧ t.bit Reg.DSP_RES_LAST 4 = (s.bit Reg.DSP_RES_LAST 4 || shows) ∧ t.bit Reg.DSP_RES_IRQ 2 = (s.bit Reg.DSP_RES_IRQ 2 || shows))
      ∧ s.keepsRegs t ([Reg.DSP_GRIDPT_LO, Reg.DSP_RES_LAST, Reg.DSP_RES_IRQ] ++ pinRegs) ∧ s.keepsParts t [.sent, .sett, .zid, .dsp])
  ∧ (∀ (src : Src) (unit : Option (Fin 64)) (v : Word) (s : State), s.supplied →
      (let a := match unit with | some u => Reg.DSP_MEAS_u u.val | none => Reg.DSP_MEAS_TOUT
       s.grants src a v → ∃ t, exec (.measWrite src unit v) s = .next t ∧ t.answer.status = .ok
        ∧ t.rd a = v ∧ t.rd (a + 4) = BitVec.ofNat 32 s.lap.count ∧ s.keepsRegs t (a :: (a + 4) :: hostRegs) ∧ s.keepsParts t hostParts))
  ∧ (∀ (further : BitVec 32) (s : State), s.supplied →
      (s.dsp.solve.all (fun v => !v.running || v.assembled) = true ∨ s.dsp.cycle = none ∨ s.tooLate = true → ∃ t, exec (.assemblyDone further) s = .next t ∧ t = s.clearSent)
      ∧ (∀ v, s.dsp.solve = some v → ∀ c, s.dsp.cycle = some c → v.running = true → v.assembled = false → s.tooLate = false → ∃ t, exec (.assemblyDone further) s = .next t
        ∧ (let rest := s.runImg.pn s.dsp.fallback secSched 0x14 4 + s.runImg.rootLines s.dsp.fallback - v.loaded
           let room := s.slvRoom resDram
           let a := (s.prob c).assemble (s.bit Reg.SLV_INJ 4)
           let moved := min room rest
           t.used = (s.charge classSlv resDram moved).used
           ∧ (room < rest → t.dsp = { s.dsp with solve := some { v with loaded := v.loaded + room } } ∧ t.regs = s.regs ∧ t.lap = s.lap)
           ∧ (rest ≤ room → t.dsp.image = a.image ∧ t.bit Reg.SLV_INJ 4 = false
              ∧ t.nat Reg.SLV_CNT_SAT = min 0xFFFFFFFF (s.nat Reg.SLV_CNT_SAT + min a.sats (1 + further.toNat))
              ∧ t.nat Reg.SLV_CNT_NOSTART = min 0xFFFFFFFF (s.nat Reg.SLV_CNT_NOSTART + (decide (0 < a.sats)).toNat)
              ∧ (0 < a.sats → (t.dsp.solve.map (fun w => (w.running, w.assembled, w.stop))) = some (false, false, Stop.nostart) ∧ t.bit Reg.SLV_STAT 4 = true
                 ∧ t.bit Reg.SLV_IRQ 3 = true ∧ t.bit Reg.SLV_IRQ 0 = true ∧ t.fld Reg.SLV_LASTSTOP 0 3 = 5 ∧ t.fld Reg.SLV_RUN 0 3 = 6)
              ∧ (a.sats = 0 → (t.dsp.solve.map (fun w => (w.running, w.assembled, w.stop))) = some (true, true, v.stop) ∧ t.fld Reg.SLV_RUN 0 3 = 2
                 ∧ t.fld Reg.SLV_RUN 8 7 = (v.it + 1) % 128
                 ∧ (min (bitsOf (tabGet 0#32 v.pars Reg.SLV_CTRL) 0 5) (s.fld Reg.SLV_MAPCNT 0 5) ≤ 4 → (t.dsp.solve.map (·.it)) = some (v.it + 1)
                     ∧ t.nat Reg.SLV_CNT_ITER = min 0xFFFFFFFF (s.nat Reg.SLV_CNT_ITER + 1))
                 ∧ (4 < min (bitsOf (tabGet 0#32 v.pars Reg.SLV_CTRL) 0 5) (s.fld Reg.SLV_MAPCNT 0 5) → (t.dsp.solve.map (fun w => (w.it, w.waiting))) = some (v.it, true)
                     ∧ t.rd Reg.SLV_CNT_ITER = s.rd Reg.SLV_CNT_ITER))))
        ∧ (∀ a : Nat, blockOf a ≠ some .slv → blockOf a ≠ some .fab → a ∉ Reg.ZID_CNT_INJ :: pinRegs → t.rd a = s.rd a) ∧ s.keepsParts t [.sent, .lap, .zid, .dsp, .fab, .used]))
  ∧ (∀ (run : IterRun) (s : State), s.supplied →
      (s.dsp.solve.all (fun v => !v.iterating || v.qp.isNone) = true ∨ s.tooLate = true → ∃ t, exec (.iteration run) s = .next t ∧ t = s.clearSent)
      ∧ (∀ v, s.dsp.solve = some v → ∀ q, v.qp = some q → v.iterating = true → s.tooLate = false → ∃ t, exec (.iteration run) s = .next t
        ∧ (let rest := s.iterRest v
           let fits := decide (rest.1 ≤ s.slvRoom resFab) && decide (rest.2 ≤ s.slvRoom resDram)
           let o := (s.iterCtx v q).iterate (v.par Reg.SLV_STEPFRAC) run.picks (s.workOf v)
           let range := (firstRange o.run.w.evs.reverse).isSome
           let fabric := o.run.w.genBad || v.dropped || !s.fits s.dsp.fallback
           let good := o.next.isSome && !range && !fabric
           let last := t.dsp.solve.getD v
           (fits = false → t.used = ((s.charge classSlv resFab (min (s.slvRoom resFab) rest.1)).charge classSlv resDram (min (s.slvRoom resDram) rest.2)).used
              ∧ t.regs = s.regs ∧ last = { v with charged := v.charged + min (s.slvRoom resFab) rest.1, loaded := v.loaded + min (s.slvRoom resDram) rest.2 })
           ∧ (fits = true → good = true → last.rejected = v.rejected ∧ last.rejects = 0 ∧ last.last = o.next
              ∧ t.used = ((s.charge classSlv resFab rest.1).charge classSlv resDram rest.2).used
              ∧ (∀ n, o.next = some n → last.point = n.point ∧ last.running = (!s.testsWithin n.ms 1 && decide (v.it < v.iterMax))
                  ∧ (last.running = false → last.stop = (if s.testsWithin n.ms 1 then Stop.test else Stop.itermax) ∧ t.fld Reg.SLV_RUN 0 3 = 6 ∧ t.bit Reg.SLV_IRQ 0 = true)
                  ∧ (last.running = true → t.fld Reg.SLV_RUN 0 3 = 2 ∧ t.bit Reg.SLV_RUN 22 = false ∧ (last.waiting = false → last.it = v.it + 1))))
           ∧ (fits = true → good = false → last.rejected = v.rejected + 1 ∧ last.rejects = v.rejects + 1 ∧ last.point = v.point ∧ last.last = v.last ∧ t.bit Reg.SLV_IRQ 1 = true
              ∧ t.nat Reg.SLV_CNT_REJ_RANGE = min 0xFFFFFFFF (s.nat Reg.SLV_CNT_REJ_RANGE + range.toNat)
              ∧ t.nat Reg.SLV_CNT_REJ_FAB = min 0xFFFFFFFF (s.nat Reg.SLV_CNT_REJ_FAB + fabric.toNat)
              ∧ last.running = (v.rejects + 1 != 2 && decide (v.it < v.iterMax)) ∧ (v.rejects = 1 → last.stop = Stop.reject ∧ t.bit Reg.SLV_STAT 5 = true)
              ∧ (last.running = true → t.bit Reg.SLV_RUN 22 = true))
           ∧ (fits = true → t.dsp.factor = o.run.w.fac ∧ t.dsp.recips = o.run.w.recips)
           ∧ t.dsp.image = s.dsp.image ∧ t.dsp.accepted = s.dsp.accepted ∧ t.dsp.cycle = s.dsp.cycle)
        ∧ (∀ a : Nat, a ∉ [Reg.DSP_RES_RP, Reg.DSP_RES_RG, Reg.DSP_RES_RD, Reg.DSP_RES_MU, Reg.ZID_CNT_INJ] ++ pinRegs → blockOf a ≠ some .slv → blockOf a ≠ some .fab → t.rd a = s.rd a)
        ∧ s.keepsParts t [.sent, .lap, .zid, .dsp, .fab, .used]))
  ∧ (∀ s : State, s.supplied → ∃ t, exec .burstWiden s = .next t
      ∧ (s.dsp.solve = none ∨ s.bit Reg.SLV_RUN 21 = false → t = s.clearSent)
      ∧ (∀ v, s.dsp.solve = some v → s.bit Reg.SLV_RUN 21 = true → t.bit Reg.SLV_RUN 21 = false ∧ t.fld Reg.SLV_RUN 16 5 = min v.planned (s.fld Reg.SLV_MAPCNT 0 5) % 32)
      ∧ s.keepsRegs t (Reg.SLV_RUN :: (List.range 18).map Reg.SLV_LANE_n_STAT) ∧ s.keepsParts t [.sent])
  ∧ ∀ s : State, s.supplied →
      (s.dsp.dlOpen = false ∨ s.lap.tick ≠ 0 ∨ s.dsp.cycle.all (fun c => s.lap.count < c.deadline) = true → ∃ t, exec .deadline s = .next t ∧ t = s.clearSent)
      ∧ (s.dsp.dlOpen = true → s.lap.tick = 0 → ∀ c, s.dsp.cycle = some c → c.deadline ≤ s.lap.count → s.bit Reg.DSP_RES_INJ 0 = false → ∀ v, s.dsp.solve = some v →
        ∃ t, exec .deadline s = .next t
        ∧ (let stop := if v.running then Stop.deadline else v.stop
           let keep := if s.dsp.accepted.isSome then 3 else 4
           let status := if stop = .nostart then 5 else match v.last with
             | some n => if stop = .test then 1 else if s.testsWithin n.ms (bitsOf (tabGet 0#32 c.vals Reg.DSP_RES_ACCF) 0 16) then 2 else keep
             | none => keep
           let cnt := [Reg.DSP_RES_CNT_OPT, Reg.DSP_RES_CNT_ACC, Reg.DSP_RES_CNT_SHIFT, Reg.DSP_RES_CNT_COLD, Reg.DSP_RES_CNT_FAIL].getD (status - 1) 0
           t.dsp.dlOpen = false ∧ t.dsp.pubFresh = true ∧ (t.dsp.solve.map (fun w => (w.running, w.stop))) = some (false, stop)
           ∧ t.fld Reg.DSP_RES_LAST 0 3 = status ∧ t.rd Reg.DSP_RES_CYCLE = c.number ∧ t.resNum 0x04 1 = status ∧ t.resNum 0x05 1 = stopCode stop
           ∧ t.nat cnt = min 0xFFFFFFFF (s.nat cnt + 1) ∧ (3 ≤ status → t.bit Reg.DSP_RES_IRQ 1 = true)
           ∧ (v.running = true → t.bit Reg.DSP_RES_STAT 5 = true ∧ t.nat Reg.DSP_RES_CNT_DISCARD = min 0xFFFFFFFF (s.nat Reg.DSP_RES_CNT_DISCARD + v.iterating.toNat) ∧ t.batonsOf 0 = 0)
           ∧ (v.running = false → t.rd Reg.DSP_RES_CNT_DISCARD = s.rd Reg.DSP_RES_CNT_DISCARD ∧ t.lap = s.lap)
           ∧ (status = 4 → t.dsp.accepted = none) ∧ (status < 4 → t.dsp.accepted.isSome = true) ∧ (status = 5 → t.dsp.streams = s.dsp.streams ∧ t.dsp.accepted = s.dsp.accepted)
           ∧ t.dsp.since = (if status ≤ 2 then 0 else min 0xFFFE (s.dsp.since + 1)))
        ∧ (∀ a : Nat, blockOf a ≠ some .dsp → blockOf a ≠ some .slv → a ∉ Reg.ZID_CNT_INJ :: pinRegs → t.rd a = s.rd a) ∧ s.keepsParts t [.sent, .lap, .sett, .zid, .dsp, .used])

/-- The fabric: a received block, lane check, scrub, map write, and the DRAM's scrub and training. A block is asked for
again after each of at most four mismatches, each counted and charged; a fifth drops it: counted, recorded, flagged, and its
consumer acts. A due lane check checks the next good lane and a bad result declares it FAILED. A due scrub segment waits for
an idle solver and its 4 batons, moves 2,089 lines four times, repairs its bad lines and gives the batons back. A due map
write goes to the older copy with the next SEQ and comes into use only when it verifies. The DRAM scrub reads its next line;
a due training holds 4 batons. Otherwise nothing changes. (R185, R186, R187, R188, R191, R194, R195, R197, R199, R200, R201,
spec/07_fabric_integrity_and_spares.md.) -/
def Obligations.FabricIntegrity : Prop :=
  (∀ (path : Fin 5) (cls : Fin 12) (lane : Option (Fin 18)) (use : BlockUse) (got : List Block) (s : State), s.supplied →
    ∃ t, exec (.blockReceive path cls lane use got) s = .next t
      ∧ (let inj := decide (s.fld Reg.FAB_INJ 8 3 = path.val)
         let told := ((got.map (fun b => crc32c b.data != b.crc)) ++ List.replicate 5 false).take 5
         let bad := if inj && s.bit Reg.FAB_INJ 1 then told.map (fun b => !b) else if inj && s.bit Reg.FAB_INJ 0 then (told.take 1).map (fun b => !b) ++ told.drop 1 else told
         let n := (bad.takeWhile id).length
         let res := if path.val = 3 then resDram else resFab
         let commit := match use with | .commit _ => true | _ => false
         s.failsOf path.val (got.map Block.bad) = n
         ∧ t.nat (Reg.FAB_CNT_RESEND_p path.val) = min 0xFFFFFFFF (s.nat (Reg.FAB_CNT_RESEND_p path.val) + min 4 n)
         ∧ t.nat (Reg.FAB_CNT_DROP_p path.val) = min 0xFFFFFFFF (s.nat (Reg.FAB_CNT_DROP_p path.val) + (n == 5).toNat)
         ∧ (inj = true → t.bit Reg.FAB_INJ 0 = false ∧ t.bit Reg.FAB_INJ 1 = false)
         ∧ (commit = true → t.used = s.used) ∧ (commit = false → use ≠ .nvWrite → t.used = ((s.charge cls.val res 1).charge cls.val res (min 4 n)).used)
         ∧ (n < 5 → s.keepsRegs t [Reg.FAB_CNT_RESEND_p path.val, Reg.FAB_INJ, Reg.ZID_CNT_INJ] ∧ s.keepsParts t [.sent, .used])
         ∧ (n = 5 → t.rd Reg.FAB_LASTDROP
                = BitVec.ofNat 32 (path.val + cls.val * 2 ^ 4 + ((lane.map (·.val)).getD 31) * 2 ^ 8 + s.sett.epoch % 2 ^ 16 * 2 ^ 16)
              ∧ t.bit Reg.FAB_STAT 0 = true ∧ t.bit Reg.FAB_IRQ 0 = true
              ∧ (path.val ≤ 1 → lane.isSome = true → t.fab.laneDrops.head? = some ((lane.map (·.val)).getD 31, s.lap.count))
              ∧ (path.val = 3 → t.fab.dramDrops.head? = some s.lap.count ∧ (3 ≤ (s.fab.dramDrops.filter (fun x => s.lap.count < x + 256)).length → t.fab.trainDue = true)))
         ∧ (commit = false → use ≠ .nvWrite → t.sett = s.sett))
      ∧ (use ≠ .nvWrite → t.answer = s.answer ∧ t.sent = [] ∧ t.nv = s.nv ∧ t.hwp = s.hwp)
      ∧ s.keepsParts t [.answer, .sent, .sett, .nv, .hwp, .zid, .dsp, .fab, .used])
  ∧ (∀ (path : Fin 5) (cls : Fin 12) (got : List Block) (s : State), s.supplied → s.failsOf path.val (got.map Block.bad) = 5 →
      (∀ (back : Fin 17) (node : BitVec 13), ∃ t, exec (.blockReceive path cls none (.history back node) got) s = .next t
        ∧ t.dsp = { s.dsp with histGone := (back.val, node.toNat) :: s.dsp.histGone })
      ∧ (∀ x : Option (Fin 50 × BitVec 14), ∃ t, exec (.blockReceive path cls none (.solver x) got) s = .next t
        ∧ (∀ v, s.dsp.solve = some v → v.running = true → v.assembled = true → (t.dsp.solve.map (·.dropped)) = some true))
      ∧ (∀ (p : Fin 50) (i : BitVec 14), i.toNat < 8192 → listGet s.fab.want.banks p.val = 0 →
          ∃ t, exec (.blockReceive path cls none (.solver (some (p, i))) got) s = .next t
            ∧ (p.val < s.fab.want.banks.length → listGet t.fab.want.banks p.val ≠ 0 ∨ t.fab.want.spares.any (fun e => e.1 / 164 == p.val && e.2 == i.toNat) = true))
      ∧ (∀ c : Fin 4, ∃ t, exec (.blockReceive path cls none (.canBuf c) got) s = .next t ∧ t.bit (Reg.CAN_STAT c.val) 4 = true
          ∧ t.nat (Reg.CAN_CNT_RXDROP c.val) = min 0xFFFFFFFF (s.nat (Reg.CAN_CNT_RXDROP c.val) + 1))
      ∧ (∀ p : Fin 3, ∃ t, exec (.blockReceive path cls none (.ethBuf p) got) s = .next t
          ∧ t.nat (Reg.ETH_PORT_p_CNT_RXERR p.val) = min 0xFFFFFFFF (s.nat (Reg.ETH_PORT_p_CNT_RXERR p.val) + 1))
      ∧ (∀ off : BitVec 21, ∃ t, exec (.blockReceive path cls none (.commit off) got) s = .next t ∧ t.bit Reg.FAB_STAT 8 = true
          ∧ (∀ f, s.sett.fresh = some f → ∀ a : Nat, tabGet 0#8 ((t.sett.fresh.map (·.bytes)).getD []) a
              = (if off.toNat / 64 = a / 64 then tabGet 0#8 ((s.sett.held.head?.map (·.bytes)).getD []) a else tabGet 0#8 f.bytes a)))
      ∧ (∃ t, exec (.blockReceive path cls none .image got) s = .next t ∧ t.nat Reg.FAB_CNT_DRAMFIX = min 0xFFFFFFFF (s.nat Reg.FAB_CNT_DRAMFIX + 1))
      ∧ ∃ t, exec (.blockReceive path cls none .nvWrite got) s = .next t ∧ t.bit Reg.NVS_STAT 2 = true
          ∧ t.nat Reg.NVS_CNT_DROP = min 0xFFFFFFFF (s.nat Reg.NVS_CNT_DROP + 1) ∧ t.nv = { s.nv with jobs := s.nv.jobs.drop 1 })
  ∧ (∀ (ok : Bool) (s : State), s.supplied → ∃ t, exec (.laneCheck ok) s = .next t
      ∧ (let due := s.slvIdle && decide (s.fab.lchkAt + s.fld Reg.FAB_LCHK 0 16 ≤ s.lap.count)
         (due = false ∨ s.nextLane = none → t = s.clearSent)
         ∧ (∀ n, s.nextLane = some n → due = true → t.fab.lchkAt = s.lap.count ∧ t.fab.lchkLane = n ∧ t.bit Reg.FAB_INJ 2 = false
            ∧ (ok ≠ s.bit Reg.FAB_INJ 2 → t.fab.want = s.fab.want ∧ s.keepsRegs t [Reg.FAB_INJ, Reg.ZID_CNT_INJ])
            ∧ (ok = s.bit Reg.FAB_INJ 2 → t.fab.want.lanes = s.fab.want.lanes.set n 2 ∧ t.fld (Reg.SLV_LANE_n_STAT n) 0 2 = 3
                ∧ t.bit Reg.FAB_STAT 1 = true ∧ t.nat Reg.FAB_CNT_LANEFAIL = min 0xFFFFFFFF (s.nat Reg.FAB_CNT_LANEFAIL + 1) ∧ t.bit Reg.FAB_IRQ 1 = true)
            ∧ s.keepsRegs t ([Reg.FAB_INJ, Reg.ZID_CNT_INJ, Reg.SLV_LANE_n_STAT n, Reg.FAB_STAT, Reg.FAB_CNT_LANEFAIL, Reg.FAB_IRQ] ++ pinRegs)))
      ∧ s.keepsParts t [.sent, .zid, .dsp, .fab])
  ∧ (∀ (l : List (BitVec 12)) (s : State), s.supplied → s.rd Reg.FAB_INJ = 0#32 → ∃ t, exec (.scrubSegment l) s = .next t
      ∧ (let g := s.fld Reg.FAB_SCRUB_STAT 0 8
         let due := s.bit Reg.FAB_SCRUB_CTRL 0 && decide (s.fab.scrubAt + s.fld Reg.FAB_SCRUB_CTRL 16 16 ≤ s.lap.count)
         let waits := s.fab.live.serving.contains (g / 4) && !s.slvIdle
         (due = false → t = s.clearSent)
         ∧ (due = true → waits = true → t = s.clearSent.setBit Reg.FAB_SCRUB_STAT 8 true)
         ∧ (due = true → waits = false → s.batonsOf 2 = 0 → t.lap = (s.batonRequest 2 4).lap ∧ t.bit Reg.FAB_SCRUB_STAT 8 = false
            ∧ s.keepsRegs t [Reg.FAB_SCRUB_STAT] ∧ s.keepsParts t [.sent, .lap])
         ∧ (due = true → waits = false → s.batonsOf 2 ≠ 0 → t.rd Reg.FAB_SCRUB_STAT = BitVec.ofNat 32 (if g + 1 < 200 then g + 1 else 0)
            ∧ t.nat Reg.FAB_CNT_SCRUBPASS = min 0xFFFFFFFF (s.nat Reg.FAB_CNT_SCRUBPASS + (g + 1 == 200).toNat)
            ∧ t.fab.scrubAt = s.lap.count ∧ t.batonsOf 2 = 0
            ∧ (l = [] → t.used = (s.charge classSelf resFab 8356).used ∧ t.fab = { s.fab with scrubAt := s.lap.count }
               ∧ t.dsp = { s.dsp with factor := t.dsp.factor } ∧ s.keepsRegs t [Reg.FAB_SCRUB_STAT, Reg.FAB_CNT_SCRUBPASS])
            ∧ (∀ x r, l = x :: r → r = [] → x.toNat < 2089 → t.fab.want = (s.repairLine (g / 4) (2089 * (g % 4) + x.toNat)).fab.want
               ∧ t.nat (Reg.FAB_CNT_DROP_p 1) = min 0xFFFFFFFF (s.nat (Reg.FAB_CNT_DROP_p 1) + 1))))
      ∧ s.keepsParts t [.sent, .lap, .zid, .dsp, .fab, .used])
  ∧ (∀ (rb : ReadBack) (s : State), s.supplied → s.bit Reg.NVS_INJ 0 = false → ∃ t, exec (.mapWrite rb) s = .next t
      ∧ (let runs := s.mapDue && decide (s.fab.mapTry ≠ some s.lap.count)
         let good := rb.first || rb.second
         let m := { s.fab.want with seq := s.mapOtherSeq + 1 }
         (runs = false → t = s.clearSent)
         ∧ (runs = true → (if s.mapToB then t.fab.copyA = s.fab.copyA else t.fab.copyB = s.fab.copyB))
         ∧ (runs = true → good = true → (if s.mapToB then t.fab.copyB else t.fab.copyA) = m.tab ∧ t.fab.use = m ∧ t.rd Reg.FAB_MAP_SEQ = m.seq
            ∧ t.fab.mapTry = none ∧ t.nat Reg.FAB_CNT_MAPWRITE = min 0xFFFFFFFF (s.nat Reg.FAB_CNT_MAPWRITE + 1))
         ∧ (runs = true → good = false → (if s.mapToB then t.fab.copyB else t.fab.copyA) = m.torn ∧ t.fab.use = s.fab.use ∧ t.fab.want = s.fab.want
            ∧ t.fab.mapTry = some s.lap.count ∧ t.bit Reg.FAB_STAT 7 = true ∧ t.rd Reg.FAB_MAP_SEQ = s.rd Reg.FAB_MAP_SEQ))
      ∧ s.keepsRegs t ([Reg.FAB_MAP_SEQ, Reg.FAB_CNT_MAPWRITE, Reg.FAB_STAT, Reg.NVS_CNT_PAGE, Reg.NVS_STAT, Reg.NVS_CNT_VERIFY, Reg.NVS_IRQ, Reg.NVS_INJ,
          Reg.ZID_CNT_INJ] ++ pinRegs) ∧ s.keepsParts t [.sent, .zid, .fab, .used])
  ∧ (∀ (got : List Block) (s : State), s.supplied → s.rd Reg.FAB_INJ = 0#32 → ∃ t, exec (.dramScrub got) s = .next t
      ∧ (let n := ((((got.map (fun b => crc32c b.data != b.crc)) ++ List.replicate 5 false).take 5).takeWhile id).length
         t.fab.dramAt = (if s.fab.dramAt + 1 < s.dramLines then s.fab.dramAt + 1 else 0)
         ∧ t.nat (Reg.FAB_CNT_RESEND_p 3) = min 0xFFFFFFFF (s.nat (Reg.FAB_CNT_RESEND_p 3) + min 4 n)
         ∧ t.nat Reg.FAB_CNT_DRAMFIX = min 0xFFFFFFFF (s.nat Reg.FAB_CNT_DRAMFIX + (n == 5).toNat)
         ∧ t.used = ((s.charge classSelf resDram 1).charge classSelf resDram (min 4 n)).used
         ∧ (n < 5 → t.fab = { s.fab with dramAt := t.fab.dramAt } ∧ s.keepsRegs t [Reg.FAB_CNT_RESEND_p 3]))
      ∧ s.keepsParts t [.sent, .zid, .fab, .used])
  ∧ ∀ s : State, s.supplied → ∃ t, exec .dramRetrain s = .next t
      ∧ (let due := s.fab.trainDue && s.slvIdle
         (due = false → t = s.clearSent)
         ∧ (due = true → s.batonsOf 4 = 0 → t.lap = (s.batonRequest 4 4).lap ∧ t.fab = s.fab ∧ t.regs = s.regs)
         ∧ (due = true → s.batonsOf 4 ≠ 0 → t.fab = { s.fab with trainDue := false, dramDrops := [] } ∧ t.batonsOf 4 = 0
            ∧ t.nat Reg.FAB_CNT_DRAMTRAIN = min 0xFFFFFFFF (s.nat Reg.FAB_CNT_DRAMTRAIN + 1)))
      ∧ s.keepsRegs t [Reg.FAB_CNT_DRAMTRAIN] ∧ s.keepsParts t [.sent, .lap, .fab]

/-- The loop engine: a sample, an instant without one, RUN, SWAP, RESET and a coefficient write. At a due sample instant of
a running loop with a valid PV, with no injection: a waiting bank comes into force; PV, the error, the chain of stages and
OUT are those of R217 to R221; the states and limit flags are kept; OUT goes to its XV, or clamped to its analog output; the
sample counts and its delay is kept, LATE above 180 us. A sample still under way makes it SKIP; an invalid PV flags BAD and
leaves the states; without RUN nothing is evaluated; at no due instant nothing changes. RUN, SWAP, RESET and a granted
coefficient write have their effect and no other. (R211, R213, R214, R216, R217, R220, R222, R223, R226, R227, R228,
spec/08_loop_engine.md.) -/
def Obligations.LoopEngine : Prop :=
  (∀ (loop : Fin 64) (busy : Bool) (delay : BitVec 16) (s : State), s.supplied →
    (loop.val < s.nloop → s.boot.control = true → s.loopDue loop.val (s.runImg.loop loop.val) = true → s.loopTurn loop.val (s.runImg.loop loop.val) = false) →
    ∃ t, exec (.loopSample loop busy delay) s = .next t ∧ t = s.clearSent)
  ∧ (∀ (loop : Fin 64) (busy : Bool) (delay : BitVec 16) (s : State), s.supplied → s.rd Reg.LOOP_INJ = 0#32 → loop.val < s.nloop →
    s.boot.control = true → s.loopDue loop.val (s.runImg.loop loop.val) = true → s.loopTurn loop.val (s.runImg.loop loop.val) = true →
    ∃ t, exec (.loopSample loop busy delay) s = .next t
      ∧ (let n := loop.val
         let r := s.runImg.loop n
         let b := if s.swPend n then (if s.loopBank n = 0 then 1 else 0) else s.loopBank n
         let runs := s.bit (Reg.LOOP_n_CTRL n) 0
         let v := s.loopPv r
         let pv := sumTo [numTerm v.1 40] r.ein ⟨0, false, false, s.free⟩
         let x := if r.error then sumTo [numTerm (s.sfld (Reg.LOOP_n_SP n) 0 24) r.ein, numTerm (-pv.1) r.ein] r.ein pv.2 else pv
         let ch := s.chain n b r (s.loopEnter n r) x.1 x.2
         let evaluated := runs && !busy && v.2
         let late := evaluated && decide (1800 < delay.toNat)
         t.loopBank n = b ∧ t.swPend n = false ∧ (t.loopRun n).sampledAt = some s.now
         ∧ t.bit (Reg.LOOP_n_STAT n) 7 = (s.bit (Reg.LOOP_n_STAT n) 7 || s.swPend n)
         ∧ (∀ m : Fin 64, m ≠ loop → t.loopRun m.val = s.loopRun m.val)
         ∧ (runs = false → s.keepsRegs t ([Reg.LOOP_n_STAT n, Reg.LOOP_IRQ] ++ pinRegs) ∧ (t.loopRun n).stages = (s.loopRun n).stages)
         ∧ (runs = true → busy = true → (t.loopRun n).stages = (s.loopRun n).stages ∧ t.bit (Reg.LOOP_n_STAT n) 5 = true ∧ t.bit Reg.LOOP_STAT 3 = true
            ∧ t.nat (Reg.LOOP_n_CNT_SKIP n) = min 0xFFFFFFFF (s.nat (Reg.LOOP_n_CNT_SKIP n) + 1)
            ∧ t.nat Reg.LOOP_CNT_SKIP = min 0xFFFFFFFF (s.nat Reg.LOOP_CNT_SKIP + 1) ∧ t.bit Reg.LOOP_IRQ 2 = true
            ∧ s.keepsRegs t ([Reg.LOOP_n_STAT n, Reg.LOOP_n_CNT_SKIP n, Reg.LOOP_STAT, Reg.LOOP_CNT_SKIP, Reg.LOOP_IRQ] ++ pinRegs))
         ∧ (runs = true → busy = false → t.rd (Reg.LOOP_n_PV n) = BitVec.ofNat 32 (wrapInt 24 pv.1))
         ∧ (runs = true → busy = false → v.2 = false → (t.loopRun n).stages = (s.loopRun n).stages ∧ t.bit (Reg.LOOP_n_STAT n) 6 = true
            ∧ t.bit Reg.LOOP_STAT 4 = true ∧ t.bit Reg.LOOP_IRQ 3 = true ∧ t.rd (Reg.LOOP_n_OUT n) = s.rd (Reg.LOOP_n_OUT n)
            ∧ (r.safeOnBad = true → r.dstClass = 1 → assocHas t.field.aoDrv r.dstIdx = false))
         ∧ (evaluated = true → t.rd (Reg.LOOP_n_OUT n) = BitVec.ofNat 32 (wrapInt 24 ch.x) ∧ (t.loopRun n).start = false
            ∧ (t.loopRun n).stages = ch.outs.map (·.st) ∧ (t.loopRun n).low.take ch.outs.length = ch.outs.map (·.low)
            ∧ (t.loopRun n).high.take ch.outs.length = ch.outs.map (·.high) ∧ t.bit (Reg.LOOP_n_STAT n) 18 = true
            ∧ t.nat (Reg.LOOP_n_CNT_SAMPLE n) = min 0xFFFFFFFF (s.nat (Reg.LOOP_n_CNT_SAMPLE n) + 1)
            ∧ t.nat (Reg.LOOP_n_CNT_SAT n) = min 0xFFFFFFFF (s.nat (Reg.LOOP_n_CNT_SAT n) + ch.work.sat)
            ∧ t.nat (Reg.LOOP_n_DLY_LAST n) = delay.toNat ∧ t.nat (Reg.LOOP_n_DLY_MAX n) = max (s.nat (Reg.LOOP_n_DLY_MAX n)) delay.toNat
            ∧ (r.dstClass = 1 → s.programSafe = false → assocGet 0 t.field.aoDrv r.dstIdx = s.aoClamp r.dstIdx (s.aoScale r.dstIdx ch.x))
            ∧ (r.dstClass ≠ 1 → r.dstClass ≠ 2 → s.xvOut r.dstIdx = false → t.rd (Reg.FBP_XV_k r.dstIdx) = wordOfInt ch.x))
         ∧ t.nat (Reg.LOOP_n_CNT_LATE n) = min 0xFFFFFFFF (s.nat (Reg.LOOP_n_CNT_LATE n) + late.toNat)
         ∧ t.nat Reg.LOOP_CNT_LATE = min 0xFFFFFFFF (s.nat Reg.LOOP_CNT_LATE + late.toNat) ∧ (late = true → t.bit Reg.LOOP_IRQ 1 = true)
         ∧ (∀ a : Nat, a ∉ [Reg.LOOP_n_STAT n, Reg.LOOP_n_PV n, Reg.LOOP_n_OUT n, Reg.LOOP_n_CNT_SAMPLE n, Reg.LOOP_n_CNT_SAT n, Reg.LOOP_n_CNT_SKIP n,
              Reg.LOOP_n_CNT_LATE n, Reg.LOOP_n_DLY_LAST n, Reg.LOOP_n_DLY_MAX n, Reg.LOOP_STAT, Reg.LOOP_CNT_SAT, Reg.LOOP_CNT_SKIP, Reg.LOOP_CNT_LATE,
              Reg.LOOP_IRQ] ++ pinRegs → (r.dstClass = 2 → blockOf a ≠ some .can) → (r.dstClass ≠ 1 → r.dstClass ≠ 2 → a ≠ Reg.FBP_XV_k r.dstIdx) →
              t.rd a = s.rd a))
      ∧ t.field = { s.field with aoDrv := t.field.aoDrv } ∧ t.lap = { s.lap with rsv := t.lap.rsv } ∧ s.keepsParts t [.sent, .lap, .zid, .field, .loops, .used])
  ∧ (∀ (src : Src) (loop : Fin 64) (on : Bool) (s : State), s.supplied → s.grants src (Reg.LOOP_n_CTRL loop.val) (BitVec.ofNat 32 on.toNat) →
      ∃ t, exec (.loopRun src loop on) s = .next t ∧ t.answer.status = .ok ∧ t.bit (Reg.LOOP_n_CTRL loop.val) 0 = on
        ∧ (let was := s.bit (Reg.LOOP_n_CTRL loop.val) 0
           (t.loopRun loop.val) = { s.loopRun loop.val with start := (s.loopRun loop.val).start || (on && !was) }
           ∧ t.bit (Reg.LOOP_n_STAT loop.val) 18 = (s.bit (Reg.LOOP_n_STAT loop.val) 18 && on == was) ∧ t.swPend loop.val = s.swPend loop.val)
        ∧ (∀ m : Fin 64, m ≠ loop → t.loopRun m.val = s.loopRun m.val)
        ∧ s.keepsRegs t (Reg.LOOP_n_CTRL loop.val :: Reg.LOOP_n_STAT loop.val :: hostRegs) ∧ s.keepsParts t (.loops :: hostParts))
  ∧ (∀ (src : Src) (loop : Fin 64) (on : Bool) (s : State), s.supplied →
      (let was := s.bit (Reg.LOOP_n_CTRL loop.val) 0
       (s.grants src (Reg.LOOP_n_CTRL loop.val) (BitVec.ofNat 32 (was.toNat + on.toNat * 2)) →
        ∃ t, exec (.loopSwap src loop on) s = .next t ∧ t.answer.status = .ok ∧ t.swPend loop.val = (on || s.swPend loop.val)
          ∧ t.loopBank loop.val = s.loopBank loop.val ∧ t.bit (Reg.LOOP_n_CTRL loop.val) 0 = was
          ∧ s.keepsRegs t (Reg.LOOP_n_STAT loop.val :: hostRegs) ∧ s.keepsParts t hostParts)
       ∧ (s.grants src (Reg.LOOP_n_CTRL loop.val) (BitVec.ofNat 32 (was.toNat + on.toNat * 4)) →
        ∃ t, exec (.loopReset src loop on) s = .next t ∧ t.answer.status = .ok
          ∧ (t.loopRun loop.val) = { s.loopRun loop.val with start := (s.loopRun loop.val).start || on }
          ∧ (∀ m : Fin 64, m ≠ loop → t.loopRun m.val = s.loopRun m.val)
          ∧ s.keepsRegs t hostRegs ∧ s.keepsParts t (.loops :: hostParts))))
  ∧ ∀ (src : Src) (loop : Fin 64) (bank : Fin 2) (stage : Fin 8) (k : Fin 6) (v : Word) (s : State), s.supplied →
      s.grants src (Reg.LOOP_n_Bb_Sj_Ck loop.val bank.val stage.val k.val) v →
      ∃ t, exec (.coefWrite src loop bank stage k v) s = .next t ∧ t.answer.status = .ok
        ∧ t.coef loop.val bank.val stage.val k.val = signedOf 24 (bitsOf v 0 24)
        ∧ (k = 0 → t.coefExp loop.val bank.val stage.val = bitsOf v 24 6) ∧ bank.val ≠ s.loopBank loop.val ∧ s.swPend loop.val = false
        ∧ s.keepsRegs t (Reg.LOOP_n_Bb_Sj_Ck loop.val bank.val stage.val k.val :: hostRegs) ∧ s.keepsParts t hostParts

/-- The program: its cycle, its stops and restarts, and forcing. A cycle start that is due, at a lap boundary, latches the
inputs, sets the watchdog instant, counts the cycle and writes the staged instance words. The apply instant makes the whole
image that the instances gave visible, ends the cycle and counts it; more than 8 outputs newly on wait for batons, and go in
groups when none came within 64 ticks; a last tick of execution is charged. At the watchdog instant an open cycle stops the
program with cause WDOG, a trap with cause TRAP, both releasing every forced output; STOP stops it with cause COMMAND and
releases none. A stop holds safe values. RESTART waits for the boundary. In every other case nothing changes. SET forces the
named point, counts FORCE and sets STAT bit 4; CLR releases it; CLRALL releases every point; FORCE_CNT then holds the number
of forced points, and an event is recorded. A write of a value register keeps the bits of its class. A write of an exchange
variable takes effect at once and only on an IN variable. Nothing else changes but for the requests themselves. (R233, R234,
R237, R238, R239, R240, R242, R243, R244, R248, R251, spec/09_function_block_program.md.) -/
def Obligations.ProgramAndForcing : Prop :=
  (
    (∀ s : State, s.supplied → ∃ t, exec .fbpCycleStart s = .next t
        ∧ (let due := s.fld Reg.FBP_STATE 0 2 == 2 && s.lap.tick == 0 && decide (s.fbp.nextCycle ≤ s.lap.count)
             && (s.lap.count - s.fbp.nextCycle) % s.fld Reg.FBP_CYCLE 0 12 == 0
           let laps := s.fld Reg.FBP_CYCLE 0 12
           let wdogAt := (s.lap.count + laps - 1) * 4096 + s.fld Reg.FBP_WDOG 0 12
           let next := { s.fbp with nextCycle := s.lap.count + laps, cycleAt := s.now, cycleOpen := true, wdogDone := false, wdogAt := wdogAt }
           (due = true → t.fbp = { next with waiting := none, ran := 0, inputs := s.latchInputs, data := t.fbp.data }
              ∧ t.rd Reg.FBP_CYC_LO = s.rd Reg.FBP_CYC_LO + 1 ∧ t.fld Reg.FBP_STATE 8 2 = 1
              ∧ (∀ k : Fin 16, t.rd (Reg.FBP_IDW_ADDR_k k.val) = (if s.nat (Reg.FBP_IDW_ADDR_k k.val) < s.imgDataSize then 0xFFFFFFFF#32 else s.rd (Reg.FBP_IDW_ADDR_k k.val)))
              ∧ (∀ a : Nat, (∀ k ∈ List.range 16, a < s.nat (Reg.FBP_IDW_ADDR_k k) ∨ s.nat (Reg.FBP_IDW_ADDR_k k) + 4 ≤ a) →
                  tabGet 0#8 t.fbp.data a = tabGet 0#8 s.fbp.data a))
           ∧ (due = false → t = s.clearSent))
        ∧ s.keepsRegs t (Reg.FBP_CYC_LO :: Reg.FBP_STATE :: (List.range 16).map Reg.FBP_IDW_ADDR_k) ∧ s.keepsParts t [.sent, .nv, .pair, .fbp])
    ∧ (∀ (executed timedOut : Bool) (s : State), s.supplied → s.fld Reg.FBP_STATE 0 2 = 2 → s.fbp.cycleOpen = true → ∃ t, exec (.fbpApply executed timedOut) s = .next t
        ∧ (let o := s.fbp.waiting.getD (s.outFilter (s.evaluate (s.fbprog 2 2)))
           let on := s.outNewOn o
           let late := s.fbp.waiting.isSome && decide (s.fbp.askedAt + 64 ≤ s.now) && (timedOut || decide (s.fbp.askedAt + 64 ≠ s.now))
           let took := executed && s.fbpExecutes
           let ran := s.fbp.ran + took.toNat
           let group := if late then on else []
           (s.fbp.waiting.isSome = true → late = false → t = s.clearSent)
           ∧ (s.fbp.waiting.isSome = false → 8 < on.length → t.fbp = { s.fbp with waiting := some o, askedAt := s.now, ran := ran, data := t.fbp.data }
              ∧ t.fld Reg.FBP_STATE 8 2 = 3 ∧ t.lap = (s.batonRequest 5 2).lap ∧ t.field = s.field ∧ s.keepsRegs t [Reg.FBP_STATE])
           ∧ (late = true ∨ (s.fbp.waiting.isSome = false ∧ on.length ≤ 8) → t.fbp.cycleOpen = false ∧ t.fbp.safeHold = false ∧ t.fbp.waiting = none
              ∧ t.fbp.applied = t.fbp.data ∧ t.fld Reg.FBP_STATE 8 2 = 0
              ∧ t.nat Reg.FBP_EXEC_LAST = min 0xFFFFFFFF ran ∧ t.nat Reg.FBP_EXEC_MAX = max (s.nat Reg.FBP_EXEC_MAX) (min 0xFFFFFFFF ran)
              ∧ t.rd Reg.FBP_DONE_LAST = BitVec.ofNat 32 (s.now - s.fbp.cycleAt) ∧ t.bit Reg.FBP_IRQ 1 = true
              ∧ t.nat Reg.FBP_CNT_CYCLE = min 0xFFFFFFFF (s.nat Reg.FBP_CNT_CYCLE + 1)
              ∧ t.nat Reg.FBP_CNT_GROUP = min 0xFFFFFFFF (s.nat Reg.FBP_CNT_GROUP + (!group.isEmpty).toNat)
              ∧ t.bit Reg.FBP_STAT 3 = (s.bit Reg.FBP_STAT 3 || !group.isEmpty)
              ∧ t.field.doLater = s.field.doLater.filter (fun n => !group.contains n) ++ group
              ∧ (∀ e ∈ o.xvs, o.xvs.countP (fun f => f.1 == e.1) = 1 → t.rd (Reg.FBP_XV_k e.1.val) = e.2)
              ∧ (∀ e ∈ o.dos, o.dos.countP (fun f => f.1 == e.1) = 1 → assocGet (!e.2) t.field.doImage e.1.val = e.2)
              ∧ (∀ e ∈ o.aouts, o.aouts.countP (fun f => f.1 == e.1) = 1 →
                  assocGet 70000 t.field.aoDrv e.1.val = s.aoClamp e.1.val (s.aoScale e.1.val e.2.toInt)))
           ∧ t.used = (s.charge classFbp resCore took.toNat).used
           ∧ (∀ k : Fin 4096, (∀ e ∈ o.xvs, e.1 ≠ k) → t.rd (Reg.FBP_XV_k k.val) = s.rd (Reg.FBP_XV_k k.val)))
        ∧ (∀ a, a ∉ [Reg.FBP_STATE, Reg.FBP_EXEC_LAST, Reg.FBP_EXEC_MAX, Reg.FBP_DONE_LAST, Reg.FBP_CNT_CYCLE, Reg.FBP_CNT_GROUP, Reg.FBP_STAT, Reg.FBP_IRQ] ++ pinRegs →
            a < Reg.DSP_MEAS_u 0 ∨ Reg.DSP_MEAS_TOUT + 4 < a → a < Reg.FBP_XV_k 0 ∨ Reg.FBP_XV_k 4095 < a → a < Reg.CAN_CTRL 0 ∨ Reg.CAN_CTRL 0 + 0x4000 ≤ a → t.rd a = s.rd a)
        ∧ s.keepsParts t [.sent, .lap, .nv, .zid, .pair, .field, .fbp, .used])
    ∧ (∀ (executed timedOut : Bool) (s : State), s.supplied → s.fld Reg.FBP_STATE 0 2 ≠ 2 ∨ s.fbp.cycleOpen = false →
        ∃ t, exec (.fbpApply executed timedOut) s = .next t ∧ t.regs = s.regs ∧ s.keepsParts t [.sent])
    ∧ (∀ (left : List (BitVec 20 × Word)) (inst : BitVec 12) (k : TrapKind) (wdog : Bool) (s : State), s.supplied → s.fld Reg.FBP_STATE 0 2 = 2 →
        (wdog = true → s.fbp.wdogDone = false ∧ s.fbp.wdogAt ≤ s.now) → (wdog = false → s.fbp.cycleOpen = true) →
        ∃ t, exec (if wdog then .fbpWatchdog ⟨inst, left⟩ else .fbpTrap inst k left) s = .next t
        ∧ (let bad := if wdog then s.fbp.cycleOpen != s.bit Reg.FBP_INJ 0
             else match k with | .dataAccess outside => outside != s.bit Reg.FBP_INJ 1 | _ => true
           let stat := if wdog then 0 else 1
           let cnt := if wdog then Reg.FBP_CNT_WDOG else Reg.FBP_CNT_TRAP
           (wdog = true → t.bit Reg.FBP_INJ 0 = false ∧ t.fbp.wdogDone = true)
           ∧ (bad = false → t.fld Reg.FBP_STATE 0 2 = 2 ∧ t.rd cnt = s.rd cnt ∧ t.field = s.field ∧ t.fbp.data = s.fbp.data ∧ t.fbp.cycleOpen = s.fbp.cycleOpen)
           ∧ (bad = true → t.fld Reg.FBP_STATE 0 2 = 1 ∧ t.fld Reg.FBP_STATE 4 3 = (if wdog then 1 else 3) ∧ t.bit Reg.FBP_STAT stat = true
              ∧ t.nat cnt = min 0xFFFFFFFF (s.nat cnt + 1) ∧ t.bit Reg.FBP_IRQ 0 = true
              ∧ (wdog = false → t.fld Reg.FBP_TRAP 0 12 = inst.toNat ∧ t.fld Reg.FBP_TRAP 16 2 = (match k with | .undefinedOp => 1 | .dataAccess _ => 2 | .undefinedPoint => 3))
              ∧ t.fbp.cycleOpen = false ∧ t.fbp.safeHold = true ∧ t.fbp.waiting = none ∧ t.lap.rsv = true
              ∧ t.field.doImage = [] ∧ t.field.doLater = []
              ∧ (∀ n : Fin 16, t.forced 1 n.val = false ∧ t.forced 3 n.val = false ∧ (s.aoDriver n.val ≠ 3 → assocHas t.field.aoDrv n.val = false))
              ∧ (∀ n : Fin 32, ∀ c ∈ [0, 2, 4], t.forced c n.val = s.forced c n.val)
              ∧ (∀ a : Nat, (∀ e ∈ s.evalLeft inst.toNat left, a < e.1 ∨ e.1 + 4 ≤ a) → tabGet 0#8 t.fbp.data a = tabGet 0#8 s.fbp.data a))
           ∧ s.keepsRegs t ([Reg.FBP_STATE, Reg.FBP_STAT, Reg.FBP_INJ, Reg.FBP_IRQ, cnt, Reg.FBP_TRAP, Reg.FBP_FORCE_MASK_c 1, Reg.FBP_FORCE_MASK_c 3, Reg.FBP_FORCE_CNT] ++ spoorRegs))
        ∧ s.keepsParts t [.sent, .lap, .nv, .spr, .zid, .pair, .field, .fbp])
    ∧ (∀ (left : List (BitVec 20 × Word)) (inst : BitVec 12) (k : TrapKind) (s : State), s.supplied →
        (s.fld Reg.FBP_STATE 0 2 ≠ 2 ∨ s.fbp.wdogDone = true ∨ s.now < s.fbp.wdogAt → exec (.fbpWatchdog ⟨inst, left⟩) s = .next s.clearSent)
        ∧ (s.fld Reg.FBP_STATE 0 2 ≠ 2 ∨ s.fbp.cycleOpen = false → exec (.fbpTrap inst k left) s = .next s.clearSent))
    ∧ (∀ (src : Src) (left : EvalLeft) (s : State), s.supplied → s.grants src Reg.FBP_CTRL 1#32 → ∃ t, exec (.fbpStop src left) s = .next t
        ∧ t.answer.status = .ok ∧ t.fbp.restart = none
        ∧ (s.fld Reg.FBP_STATE 0 2 ≠ 2 → t.fbp = { s.fbp with restart := none } ∧ t.field = s.field ∧ t.lap = s.lap)
        ∧ (s.fld Reg.FBP_STATE 0 2 = 2 → t.fld Reg.FBP_STATE 0 2 = 1 ∧ t.fld Reg.FBP_STATE 4 3 = 2 ∧ t.bit Reg.FBP_STAT 2 = true ∧ t.bit Reg.FBP_IRQ 0 = true
            ∧ t.fbp.cycleOpen = false ∧ t.fbp.safeHold = true ∧ t.fbp.waiting = none ∧ t.lap.rsv = true ∧ t.field.doImage = [] ∧ t.field.doLater = []
            ∧ (∀ n : Fin 16, s.aoDriver n.val ≠ 3 → assocHas t.field.aoDrv n.val = false))
        ∧ s.keepsRegs t (Reg.FBP_STATE :: Reg.FBP_STAT :: Reg.FBP_IRQ :: (hostRegs ++ pinRegs))
        ∧ s.keepsParts t ([.lap, .nv, .zid, .pair, .field, .fbp] ++ hostParts))
    ∧ ∀ (src : Src) (cold : Bool) (s : State), s.supplied → s.grants src Reg.FBP_CTRL (if cold then 6#32 else 2#32) → ∃ t, exec (.fbpRestart src cold) s = .next t
        ∧ t.answer.status = .ok ∧ t.fbp = { s.fbp with restart := some cold } ∧ s.fld Reg.FBP_STATE 0 2 ≠ 2
        ∧ s.keepsRegs t hostRegs ∧ s.keepsParts t (.fbp :: hostParts))
  ∧ (
    (∀ (src : Src) (p : BitVec 11) (s : State), s.supplied → s.grants src Reg.FBP_FORCE_CMD (BitVec.ofNat 32 (p.toNat + 65536)) →
        ∃ t, exec (.forceSet src p) s = .next t ∧ t.answer.status = .ok
        ∧ t.rd (Reg.FBP_FORCE_MASK_c (p.toNat / 256)) = putBit (s.rd (Reg.FBP_FORCE_MASK_c (p.toNat / 256))) (p.toNat % 32) true
        ∧ t.forced (p.toNat / 256) (p.toNat % 32) = true ∧ p.toNat / 256 < 5
        ∧ t.nat Reg.FBP_FORCE_CNT = t.forceCount ∧ t.bit Reg.FBP_STAT 4 = true ∧ t.nat Reg.FBP_CNT_FORCE = min 0xFFFFFFFF (s.nat Reg.FBP_CNT_FORCE + 1)
        ∧ s.keepsRegs t ([Reg.FBP_FORCE_MASK_c (p.toNat / 256), Reg.FBP_FORCE_CNT, Reg.FBP_STAT, Reg.FBP_CNT_FORCE, Reg.FBP_IRQ] ++ hostRegs ++ spoorRegs)
        ∧ s.keepsParts t (.spr :: .zid :: hostParts))
    ∧ (∀ (src : Src) (p : BitVec 11) (s : State), s.supplied → s.grants src Reg.FBP_FORCE_CMD (BitVec.ofNat 32 (p.toNat + 131072)) →
        ∃ t, exec (.forceClr src p) s = .next t ∧ t.answer.status = .ok
        ∧ t.rd (Reg.FBP_FORCE_MASK_c (p.toNat / 256)) = putBit (s.rd (Reg.FBP_FORCE_MASK_c (p.toNat / 256))) (p.toNat % 32) false
        ∧ t.nat Reg.FBP_FORCE_CNT = t.forceCount
        ∧ s.keepsRegs t ([Reg.FBP_FORCE_MASK_c (p.toNat / 256), Reg.FBP_FORCE_CNT, Reg.FBP_IRQ] ++ hostRegs ++ spoorRegs)
        ∧ s.keepsParts t (.spr :: .zid :: .lap :: hostParts))
    ∧ (∀ (src : Src) (s : State), s.supplied → s.grants src Reg.FBP_FORCE_CTRL 0x1000000#32 → ∃ t, exec (.clrall src) s = .next t ∧ t.answer.status = .ok
        ∧ (∀ c : Fin 5, t.rd (Reg.FBP_FORCE_MASK_c c.val) = 0#32) ∧ t.rd Reg.FBP_FORCE_CNT = 0#32
        ∧ s.keepsRegs t ((List.range 5).map Reg.FBP_FORCE_MASK_c ++ [Reg.FBP_FORCE_CNT, Reg.FBP_IRQ] ++ hostRegs ++ spoorRegs)
        ∧ s.keepsParts t (.spr :: .zid :: .lap :: hostParts))
    ∧ (∀ (src : Src) (c : Fin 5) (n : Fin 32) (v : Word) (s : State), s.supplied → s.grants src (Reg.FBP_FORCE_c_n c.val n.val) v →
        ∃ t, exec (.forceValueWrite src c n v) s = .next t ∧ t.answer.status = .ok
        ∧ t.rd (Reg.FBP_FORCE_c_n c.val n.val) = (if c.val < 2 then v &&& 1#32 else if c.val = 2 then v &&& 0xFFFFFF#32 else if c.val = 3 then v &&& 0xFFFF#32 else v)
        ∧ s.keepsRegs t (Reg.FBP_FORCE_c_n c.val n.val :: hostRegs) ∧ s.keepsParts t hostParts)
    ∧ ∀ (src : Src) (k : Fin 4096) (v : Word) (s : State), s.supplied → s.grants src (Reg.FBP_XV_k k.val) v → ∃ t, exec (.xvWrite src k v) s = .next t
        ∧ t.answer.status = .ok ∧ t.rd (Reg.FBP_XV_k k.val) = v ∧ s.xvOut k.val = false
        ∧ s.keepsRegs t (Reg.FBP_XV_k k.val :: hostRegs) ∧ s.keepsParts t hostParts)

/-- Analog and digital inputs: results, reference checks, calibration, levels and line faults. A result of a converting
channel writes RAW, VAL, FLAGS and STAMP with the calibrated code of R257 and the flags of R258 to R260, VALID exactly with
none of OVR, OPEN, REV and PLAUS, and counts it; a channel that does not convert changes nothing. A reference check writes
REFUV, and sets or clears REFOK as R263 says. A calibration step starts at the next used channel, and its end gives the
channel its new coefficients and counts CAL, or fails it onto the spare slice by R268. AIN_INJ inverts each test. The values
outside the stated functions are free (log 31). A level accepted after the filter (with LINEMON the one that Table 6 gives
its current) shows in DIO_DI_STATE and in the channel's STAT with LINEOK, and a change is counted where COUNT and EDGE of
the image say so; an input with a line fault keeps its own level. A line fault that begins sets its sticky bits, counts,
raises the interrupt, makes the input invalid, and the level becomes off, or on for SHORT; a standing fault changes nothing
more; OPEN and SHORT need LINEMON, each fault its current range, and DIO_INJ inverts the test. A fault that ends makes the
input valid. Two raw edges closer than 20 microseconds set RATE. Nothing else changes but what the plausibility pair
changes. (R256, R257, R260, R261, R263, R264, R265, R266, R268, R278, R279, spec/10_field_inputs_outputs.md.) -/
def Obligations.FieldInputs : Prop :=
  (
    (∀ (ch : Fin 32) (code : BitVec 24) (ovl : Bool) (m : LineMon) (s : State), s.supplied → s.converts ch.val = true →
        ∃ t, exec (.ainResult ch code ovl m) s = .next t
        ∧ (let c := s.coefOf ch.val
           let x := divNear ((code.toInt - c.1) * c.2) (2 ^ 30 : Nat)
           let sat := ovl || decide (0x7FFFFF < x ∨ x < -0x800000)
           let X : Int := if sat then (if code.toInt < 0 then -0x800000 else 0x7FFFFF) else x
           let l := s.lineInj ch.val m
           t.rd (Reg.AIN_n_RAW ch.val) = BitVec.ofInt 32 X ∧ t.rd (Reg.AIN_n_FIELD ch.val) = BitVec.ofInt 32 X
           ∧ t.rd (Reg.AIN_n_VAL ch.val) = satWord (s.valOf ch.val X (Config.free s.free))
           ∧ t.bit (Reg.AIN_n_FLAGS ch.val) 1 = l.openWire ∧ t.bit (Reg.AIN_n_FLAGS ch.val) 2 = l.rev
           ∧ (sat = true → t.bit (Reg.AIN_n_FLAGS ch.val) 0 = true)
           ∧ (t.bit (Reg.AIN_n_FLAGS ch.val) 0 = false ↔ t.fld (Reg.AIN_n_FLAGS ch.val) 4 3 = 0)
           ∧ (l.openWire = true → s.bit (Reg.AIN_n_FLAGS ch.val) 1 = false → t.nat Reg.AIN_CNT_OPEN = min 0xFFFFFFFF (s.nat Reg.AIN_CNT_OPEN + 1)
              ∧ t.bit (Reg.AIN_n_STAT ch.val) 1 = true ∧ t.bit Reg.AIN_STAT 1 = true ∧ t.bit Reg.AIN_IRQ 0 = true)
           ∧ (l.openWire = false → t.rd Reg.AIN_CNT_OPEN = s.rd Reg.AIN_CNT_OPEN))
        ∧ t.bit (Reg.AIN_n_FLAGS ch.val) 10 = !(t.bit (Reg.AIN_n_FLAGS ch.val) 0 || t.bit (Reg.AIN_n_FLAGS ch.val) 1
            || t.bit (Reg.AIN_n_FLAGS ch.val) 2 || t.bit (Reg.AIN_n_FLAGS ch.val) 3)
        ∧ t.rd (Reg.AIN_n_STAMP ch.val) = BitVec.ofNat 32 s.now
        ∧ t.nat (Reg.AIN_n_CNT_CONV ch.val) = min 0xFFFFFFFF (s.nat (Reg.AIN_n_CNT_CONV ch.val) + 1)
        ∧ (s.pairOf ch.val = none → t.nat (Reg.AIN_n_CNT_BAD ch.val)
            = min 0xFFFFFFFF (s.nat (Reg.AIN_n_CNT_BAD ch.val) + (!t.bit (Reg.AIN_n_FLAGS ch.val) 10).toNat))
        ∧ s.keepsRegs t ([ch.val, 7, 15, 23, 31].flatMap (fun n => if n = ch.val then [Reg.AIN_n_RAW n, Reg.AIN_n_FIELD n, Reg.AIN_n_VAL n,
              Reg.AIN_n_STAMP n, Reg.AIN_n_CNT_CONV n, Reg.AIN_n_CAL_OFS n, Reg.AIN_n_CAL_GAIN n, Reg.AIN_n_FLAGS n, Reg.AIN_n_STAT n, Reg.AIN_n_CNT_BAD n]
            else if (s.pairOf ch.val).isSome && s.chanCfg ch.val == s.chanCfg n then [Reg.AIN_n_FLAGS n, Reg.AIN_n_STAT n, Reg.AIN_n_CNT_BAD n] else [])
            ++ [Reg.AIN_STAT, Reg.AIN_IRQ, Reg.AIN_INJ, Reg.AIN_CNT_OVR, Reg.AIN_CNT_OPEN, Reg.AIN_CNT_REV, Reg.AIN_CNT_SHORT, Reg.AIN_CNT_PLAUS] ++ spoorRegs)
        ∧ s.keepsParts t [.sent, .spr, .zid, .field])
    ∧ (∀ (ch : Fin 32) (code : BitVec 24) (ovl : Bool) (m : LineMon) (s : State), s.supplied → s.converts ch.val = false →
        ∃ t, exec (.ainResult ch code ovl m) s = .next t ∧ t.regs = s.regs ∧ s.keepsParts t [.sent])
    ∧ (∀ (b : Fin 4) (uv : BitVec 32) (s : State), s.supplied → (s.ref b.val).checking = true → ∃ t, exec (.refCheck b uv) s = .next t
        ∧ (let inj := s.bit Reg.AIN_INJ 3 && s.fld Reg.AIN_INJ 16 2 == b.val
           let off := ((uv.toNat : Int) - s.refNominal b.val).natAbs
           let near := decide (2000 * off ≤ s.refNominal b.val)
           let ok := near != inj
           let bad := if inj then near else decide (s.refNominal b.val < 200 * off)
           let settles := !(s.ref b.val).settled && ok && decide (7 ≤ (s.ref b.val).inBand)
           let fails := if (s.ref b.val).settled then bad
             else !settles && ((bad && (s.ref b.val).ever && !(s.ref b.val).failed) || decide (499 ≤ (s.ref b.val).checks))
           t.nat Reg.AIN_CNT_REF = min 0xFFFFFFFF (s.nat Reg.AIN_CNT_REF + fails.toNat)
           ∧ (fails = true → t.bit (Reg.AIN_BANK_b_STAT b.val) 0 = false ∧ (t.ref b.val).failed = true ∧ t.bit Reg.AIN_STAT 4 = true
              ∧ t.bit Reg.AIN_IRQ 2 = true)
           ∧ (fails = false → settles = false → t.rd (Reg.AIN_BANK_b_STAT b.val) = s.rd (Reg.AIN_BANK_b_STAT b.val)
              ∧ (t.ref b.val).settled = (s.ref b.val).settled)
           ∧ (settles = true → t.bit (Reg.AIN_BANK_b_STAT b.val) 0 = true
              ∧ (t.ref b.val).settled = true ∧ t.bit Reg.AIN_IRQ 2 = true)
           ∧ (inj = true → t.bit Reg.AIN_INJ 3 = false))
        ∧ s.keepsRegs t ([Reg.AIN_BANK_b_STAT b.val, Reg.AIN_BANK_b_REFUV b.val, Reg.AIN_STAT, Reg.AIN_CNT_REF, Reg.AIN_IRQ, Reg.AIN_INJ, Reg.ZID_CNT_INJ] ++ pinRegs)
        ∧ s.keepsParts t [.sent, .zid, .field])
    ∧ (∀ (b : Fin 4) (o : BitVec 24) (g : BitVec 32) (s : State), s.supplied → s.bit Reg.AIN_CAL_CTRL 0 = true → s.bit (Reg.AIN_BANK_b_STAT b.val) 7 = false →
        (s.cal b.val).chan = none → ∀ n r, s.usedFrom b.val (s.cal b.val).next = n :: r → ∃ t, exec (.calRound b o g) s = .next t
          ∧ t.bit (Reg.AIN_BANK_b_STAT b.val) 1 = true ∧ t.bit (Reg.AIN_BANK_b_STAT b.val) 18 = true ∧ t.fld (Reg.AIN_BANK_b_STAT b.val) 4 3 = n % 8
          ∧ s.keepsRegs t [Reg.AIN_BANK_b_STAT b.val] ∧ s.keepsParts t [.sent, .field])
    ∧ (∀ (b : Fin 4) (o : BitVec 24) (g : BitVec 32) (s : State), s.supplied →
        s.bit Reg.AIN_CAL_CTRL 0 = false ∨ s.bit (Reg.AIN_BANK_b_STAT b.val) 7 = true ∨ (s.cal b.val).chan ≠ none →
        ∃ t, exec (.calRound b o g) s = .next t ∧ t.regs = s.regs ∧ s.keepsParts t [.sent])
    ∧ (∀ (b : Fin 4) (k : Fin 8) (o : BitVec 24) (g : BitVec 32) (d : BitVec 24) (s : State), s.supplied → (s.cal b.val).chan = some (8 * b.val + k.val) →
        ∃ t, exec (.calStepEnd b o g d) s = .next t ∧ (t.cal b.val).chan = none
        ∧ (let n := 8 * b.val + k.val
           let inj := s.bit Reg.AIN_INJ 2 && s.fld Reg.AIN_INJ 16 2 == b.val
           let inLimits := decide (o.toInt.natAbs ≤ 41943 ∧ 99 * 2 ^ 30 ≤ 100 * g.toNat ∧ 100 * g.toNat ≤ 101 * 2 ^ 30) != inj
           let pass := inLimits && decide (d.toNat ≤ s.fld Reg.AIN_CAL_TOL 0 16)
           t.bit (Reg.AIN_BANK_b_STAT b.val) 18 = false
           ∧ (pass = true → t.ownCoef n = (o.toInt, g.toNat) ∧ t.bit (Reg.AIN_BANK_b_STAT b.val) 1 = false
              ∧ t.nat Reg.AIN_CNT_CAL = min 0xFFFFFFFF (s.nat Reg.AIN_CNT_CAL + 1) ∧ t.rd Reg.AIN_CNT_CALFAIL = s.rd Reg.AIN_CNT_CALFAIL
              ∧ (n ∉ s.field.onSpare → t.rd (Reg.AIN_n_CAL_OFS n) = BitVec.ofInt 32 o.toInt ∧ t.rd (Reg.AIN_n_CAL_GAIN n) = g))
           ∧ (pass = false → n ∈ t.field.onSpare ∧ t.bit (Reg.AIN_BANK_b_STAT b.val) 7 = true ∧ t.bit (Reg.AIN_BANK_b_STAT b.val) (8 + k.val) = true
              ∧ t.bit (Reg.AIN_n_STAT n) 6 = true ∧ t.bit Reg.AIN_STAT 6 = true ∧ t.bit Reg.AIN_IRQ 3 = true
              ∧ t.nat Reg.AIN_CNT_CALFAIL = min 0xFFFFFFFF (s.nat Reg.AIN_CNT_CALFAIL + 1) ∧ t.rd Reg.AIN_CNT_CAL = s.rd Reg.AIN_CNT_CAL
              ∧ (inLimits = true → t.bit (Reg.AIN_n_STAT n) 5 = true ∧ t.bit Reg.AIN_STAT 5 = true)
              ∧ t.rd (Reg.AIN_n_CAL_OFS n) = BitVec.ofInt 32 (s.cal b.val).spareOfs)
           ∧ s.keepsRegs t ([Reg.AIN_BANK_b_STAT b.val, Reg.AIN_n_STAT n, Reg.AIN_n_CAL_OFS n, Reg.AIN_n_CAL_GAIN n, Reg.AIN_STAT, Reg.AIN_IRQ, Reg.AIN_INJ,
               Reg.AIN_CNT_CAL, Reg.AIN_CNT_CALFAIL] ++ spoorRegs))
        ∧ s.keepsParts t [.sent, .spr, .zid, .field])
    ∧ ∀ (b : Fin 4) (o : BitVec 24) (g : BitVec 32) (d : BitVec 24) (s : State), s.supplied → (s.cal b.val).chan = none →
        ∃ t, exec (.calStepEnd b o g d) s = .next t ∧ t.regs = s.regs ∧ s.keepsParts t [.sent])
  ∧ (
    (∀ (n : Fin 32) (level : Bool) (ua : BitVec 16) (s : State), s.supplied → assocHas s.field.diFault n.val = false →
        ∃ t, exec (.diChange n level ua) s = .next t ∧ t.rd (Reg.DIO_DI_n_UA n.val) = BitVec.ofInt 32 ua.toInt
        ∧ (let was := s.bit (Reg.DIO_DI_n_STAT n.val) 16
           let lv := if (s.iomap (0x360 + 4 * n.val) 1).testBit 0 then (if ua.toInt ≤ 1500 then false else if ua.toInt < 2000 then was else true) else level
           t.bit (Reg.DIO_DI_n_STAT n.val) 16 = lv ∧ (was ≠ lv → t.bit Reg.DIO_DI_STATE n.val = lv)
           ∧ t.rd (Reg.DIO_DI_n_CNT n.val) = s.rd (Reg.DIO_DI_n_CNT n.val) + BitVec.ofNat 32 (was != lv && s.diCounts n.val lv).toNat)
        ∧ t.bit (Reg.DIO_DI_n_STAT n.val) 17 = true ∧ t.bit Reg.DIO_DI_VALID n.val = true
        ∧ s.keepsRegs t [Reg.DIO_DI_n_UA n.val, Reg.DIO_DI_n_STAT n.val, Reg.DIO_DI_STATE, Reg.DIO_DI_n_CNT n.val, Reg.DIO_DI_VALID]
        ∧ s.keepsParts t [.sent])
    ∧ (∀ (n : Fin 32) (level : Bool) (ua : BitVec 16) (s : State), s.supplied → assocHas s.field.diFault n.val = true →
        ∃ t, exec (.diChange n level ua) s = .next t ∧ t.rd (Reg.DIO_DI_n_UA n.val) = BitVec.ofInt 32 ua.toInt
        ∧ s.keepsRegs t [Reg.DIO_DI_n_UA n.val] ∧ s.keepsParts t [.sent])
    ∧ (∀ (n : Fin 32) (k : DiFault) (present : Bool) (ua : BitVec 16) (s : State), s.supplied → ∃ t, exec (.diFault n k present ua) s = .next t
        ∧ t.rd (Reg.DIO_DI_n_UA n.val) = BitVec.ofInt 32 ua.toInt
        ∧ (let inj := s.bit Reg.DIO_INJ 0 && s.fld Reg.DIO_INJ 8 5 == n.val
           let mon := (s.iomap (0x360 + 4 * n.val) 1).testBit 0
           let lies := match k with | .openLine => decide (0 ≤ ua.toInt ∧ ua.toInt < 300) | .short => decide (5500 < ua.toInt) | .rev => decide (if mon then ua.toInt < 0 else ua.toInt * 33 < -30000)
           let judged := decide (k = .rev) || mon
           let now := (present && lies) != inj
           let has := decide ((n.val, k) ∈ s.field.diFault)
           let i := match k with | .openLine => 0 | .short => 1 | .rev => 2
           (judged = false → s.keepsRegs t [Reg.DIO_DI_n_UA n.val] ∧ t.field = s.field)
           ∧ (judged = true → inj = true → t.bit Reg.DIO_INJ 0 = false)
           ∧ (judged = true → now = has → t.field = s.field ∧ t.rd Reg.DIO_CNT_DIFAULT = s.rd Reg.DIO_CNT_DIFAULT
              ∧ t.rd Reg.DIO_DI_STATE = s.rd Reg.DIO_DI_STATE ∧ t.rd (Reg.DIO_DI_n_STAT n.val) = s.rd (Reg.DIO_DI_n_STAT n.val))
           ∧ (judged = true → now = true → has = false → (n.val, k) ∈ t.field.diFault ∧ t.bit (Reg.DIO_DI_n_STAT n.val) i = true ∧ t.bit Reg.DIO_STAT i = true
              ∧ t.bit (Reg.DIO_DI_n_STAT n.val) 17 = false ∧ t.bit Reg.DIO_DI_VALID n.val = false ∧ t.bit (Reg.DIO_DI_n_STAT n.val) 16 = decide (k = .short)
              ∧ t.nat Reg.DIO_CNT_DIFAULT = min 0xFFFFFFFF (s.nat Reg.DIO_CNT_DIFAULT + 1) ∧ t.bit Reg.DIO_IRQ 0 = true)
           ∧ (judged = true → now = false → has = true → assocHas t.field.diFault n.val = false ∧ t.bit (Reg.DIO_DI_n_STAT n.val) 17 = true
              ∧ t.bit Reg.DIO_DI_VALID n.val = true ∧ t.bit (Reg.DIO_DI_n_STAT n.val) 16 = s.bit (Reg.DIO_DI_n_STAT n.val) 16
              ∧ t.rd Reg.DIO_CNT_DIFAULT = s.rd Reg.DIO_CNT_DIFAULT))
        ∧ s.keepsRegs t ([Reg.DIO_DI_n_UA n.val, Reg.DIO_DI_n_STAT n.val, Reg.DIO_DI_STATE, Reg.DIO_DI_n_CNT n.val, Reg.DIO_DI_VALID, Reg.DIO_STAT,
            Reg.DIO_CNT_DIFAULT, Reg.DIO_IRQ, Reg.DIO_INJ] ++ spoorRegs)
        ∧ s.keepsParts t [.sent, .spr, .zid, .field])
    ∧ (∀ (n : Fin 32) (s : State), s.supplied → ∃ t, exec (.diFaultEnd n) s = .next t ∧ assocHas t.field.diFault n.val = false
        ∧ t.bit (Reg.DIO_DI_n_STAT n.val) 17 = true ∧ t.bit Reg.DIO_DI_VALID n.val = true
        ∧ (∀ m : Fin 32, m ≠ n → assocHas t.field.diFault m.val = assocHas s.field.diFault m.val)
        ∧ s.keepsRegs t [Reg.DIO_DI_n_STAT n.val, Reg.DIO_DI_VALID] ∧ s.keepsParts t [.sent, .field])
    ∧ ∀ (n : Fin 32) (close : Bool) (s : State), s.supplied → ∃ t, exec (.rawEdge n close) s = .next t
        ∧ t.bit (Reg.DIO_DI_n_STAT n.val) 3 = (s.bit (Reg.DIO_DI_n_STAT n.val) 3 || close) ∧ t.bit Reg.DIO_STAT 9 = (s.bit Reg.DIO_STAT 9 || close)
        ∧ s.keepsRegs t (if close then [Reg.DIO_DI_n_STAT n.val, Reg.DIO_STAT] else []) ∧ s.keepsParts t [.sent])

/-- Analog and digital outputs: writes, faults, trips and retries, and the field supply. An accepted AOUT_n_SET is kept and
gives the driver its code clamped to CLO to CHI; an accepted DIO_DO_SET is kept, and outputs beyond the first 8 newly on
wait. An analog fault that begins sets its bits, counts and records; its NOW bit follows it. The eighth deviating readback
sets DEV. An overcurrent of an output that is on trips it with SHORT, a failed retry counts, and at N tries it latches until
CLRFAULT. OPEN is tested on an output that is on with OPENDET, REV on one that is off. A low or reversed supply switches the
outputs off until its return. Nothing else changes but for the requests. (R272, R273, R275, R276, R280, R281, R282, R283,
R285, spec/10_field_inputs_outputs.md.) -/
def Obligations.FieldOutputs : Prop :=
  (∀ (src : Src) (n : Fin 16) (v : Word) (s : State), s.supplied → s.grants src (Reg.AOUT_n_SET n.val) v → ∃ t, exec (.aoutSetWrite src n v) s = .next t
      ∧ t.answer.status = .ok ∧ t.fld (Reg.AOUT_n_SET n.val) 0 16 = bitsOf v 0 16
      ∧ t.field = { s.field with aoDrv := assocPut s.field.aoDrv n.val (clampInt (s.aoLimits n.val).1 (s.aoLimits n.val).2 (bitsOf v 0 16 : Nat)).toNat }
      ∧ s.keepsRegs t (Reg.AOUT_n_SET n.val :: hostRegs) ∧ s.keepsParts t (.field :: hostParts))
  ∧ (∀ (src : Src) (v : Word) (s : State), s.supplied → s.grants src Reg.DIO_DO_SET v → ∃ t, exec (.doSetWrite src v) s = .next t
      ∧ t.answer.status = .ok ∧ t.fld Reg.DIO_DO_SET 0 16 = bitsOf v 0 16 ∧ t.field.doFw = true
      ∧ t.field = { s.field with doFw := true, doLater := t.field.doLater } ∧ t.field.doLater.length ≤ 8
      ∧ s.keepsRegs t (Reg.DIO_DO_SET :: hostRegs) ∧ s.keepsParts t (.field :: hostParts))
  ∧ (∀ (src : Src) (n : Fin 16) (s : State), s.supplied → s.grants src (Reg.DIO_DO_n_CTRL n.val) 1#32 → ∃ t, exec (.clrfault src n true) s = .next t
      ∧ t.answer.status = .ok ∧ t.bit (Reg.DIO_DO_n_STAT n.val) 16 = false ∧ t.fld (Reg.DIO_DO_n_STAT n.val) 17 4 = 0
      ∧ n.val ∉ t.field.retried ∧ (s.bit (Reg.DIO_DO_n_STAT n.val) 16 = true → n.val ∉ t.field.tripped)
      ∧ t.field = { s.field with tripped := t.field.tripped, retried := t.field.retried }
      ∧ s.keepsRegs t (Reg.DIO_DO_n_STAT n.val :: hostRegs) ∧ s.keepsParts t (.field :: hostParts))
  ∧ (∀ (n : Fin 16) (k : AoFault) (present : Bool) (s : State), s.supplied → ∃ t, exec (.aoutFault n k present) s = .next t
      ∧ (let i := match k with | .short => 0 | .openLoad => 1 | .rev => 2
         let cnt := match k with | .short => Reg.AOUT_CNT_SHORT | .openLoad => Reg.AOUT_CNT_OPEN | .rev => Reg.AOUT_CNT_REV
         let inj := decide (k ≠ .rev) && s.bit Reg.AOUT_INJ i && s.fld Reg.AOUT_INJ 8 4 == n.val
         let mode := s.iomap (0x220 + 16 * n.val) 1
         let judged := mode == 1 || (mode == 2 && decide (k ≠ .openLoad))
         let now := present != inj
         let onset := judged && now && !s.bit (Reg.AOUT_n_STAT n.val) (16 + i)
         (judged = false → t.regs = s.regs)
         ∧ (judged = true → t.bit (Reg.AOUT_n_STAT n.val) (16 + i) = now ∧ (inj = true → t.bit Reg.AOUT_INJ i = false))
         ∧ t.bit (Reg.AOUT_n_STAT n.val) i = (s.bit (Reg.AOUT_n_STAT n.val) i || onset) ∧ t.bit Reg.AOUT_STAT i = (s.bit Reg.AOUT_STAT i || onset)
         ∧ t.nat cnt = min 0xFFFFFFFF (s.nat cnt + onset.toNat) ∧ (onset = true → t.bit Reg.AOUT_IRQ 0 = true)
         ∧ s.keepsRegs t ([Reg.AOUT_n_STAT n.val, Reg.AOUT_INJ, Reg.AOUT_STAT, cnt, Reg.AOUT_IRQ] ++ spoorRegs))
      ∧ s.keepsParts t [.sent, .spr, .zid])
  ∧ (∀ (n : Fin 16) (k : AoFault) (s : State), s.supplied → ∃ t, exec (.aoutFaultEnd n k) s = .next t
      ∧ t.rd (Reg.AOUT_n_STAT n.val) = putBit (s.rd (Reg.AOUT_n_STAT n.val)) (match k with | .short => 16 | .openLoad => 17 | .rev => 18) false
      ∧ s.keepsRegs t [Reg.AOUT_n_STAT n.val] ∧ s.keepsParts t [.sent])
  ∧ (∀ (n : Fin 16) (v : BitVec 16) (s : State), s.supplied → ∃ t, exec (.aoutReadback n v) s = .next t
      ∧ t.rd (Reg.AOUT_n_RB n.val) = BitVec.ofInt 32 v.toInt
      ∧ (let runs := s.aoDrives n.val && s.fld (Reg.AOUT_n_STAT n.val) 16 3 == 0
         let inj := runs && s.bit Reg.AOUT_INJ 2 && s.fld Reg.AOUT_INJ 8 4 == n.val
         let dev := s.aoDeviates n.val v.toInt != inj
         let k := if runs && dev then (if inj then 8 else assocGet 0 s.field.aoDev n.val + 1) else 0
         assocGet 0 t.field.aoDev n.val = k ∧ (inj = true → t.bit Reg.AOUT_INJ 2 = false)
         ∧ t.bit (Reg.AOUT_n_STAT n.val) 3 = (s.bit (Reg.AOUT_n_STAT n.val) 3 || k == 8) ∧ t.bit Reg.AOUT_STAT 3 = (s.bit Reg.AOUT_STAT 3 || k == 8)
         ∧ t.nat Reg.AOUT_CNT_DEV = min 0xFFFFFFFF (s.nat Reg.AOUT_CNT_DEV + (k == 8).toNat)
         ∧ t.bit Reg.AOUT_IRQ 1 = (s.bit Reg.AOUT_IRQ 1 || k == 8))
      ∧ s.keepsRegs t ([Reg.AOUT_n_RB n.val, Reg.AOUT_n_STAT n.val, Reg.AOUT_STAT, Reg.AOUT_CNT_DEV, Reg.AOUT_IRQ, Reg.AOUT_INJ, Reg.ZID_CNT_INJ] ++ pinRegs)
      ∧ s.keepsParts t [.sent, .zid, .field])
  ∧ (∀ (n : Fin 16) (much : Bool) (ma : BitVec 16) (s : State), s.supplied → ∃ t, exec (.doTrip n much ma) s = .next t
      ∧ (let inj := s.bit Reg.DIO_INJ 1 && s.fld Reg.DIO_INJ 8 5 == n.val
         let trips := s.doOn n.val && (much != inj)
         let tries := s.fld (Reg.DIO_DO_n_STAT n.val) 17 4
         (s.doOn n.val = false → t.regs = s.regs ∧ t.field = s.field)
         ∧ (trips = false → t.field = s.field ∧ t.rd (Reg.DIO_DO_n_STAT n.val) = s.rd (Reg.DIO_DO_n_STAT n.val) ∧ t.rd Reg.DIO_CNT_DOSHORT = s.rd Reg.DIO_CNT_DOSHORT)
         ∧ (trips = true → n.val ∈ t.field.tripped ∧ n.val ∉ t.field.retried ∧ t.bit (Reg.DIO_DO_n_STAT n.val) 0 = true ∧ t.bit Reg.DIO_STAT 3 = true
            ∧ t.nat Reg.DIO_CNT_DOSHORT = min 0xFFFFFFFF (s.nat Reg.DIO_CNT_DOSHORT + 1) ∧ t.bit Reg.DIO_IRQ 1 = true
            ∧ t.fld (Reg.DIO_DO_n_STAT n.val) 17 4 = (tries + (decide (n.val ∈ s.field.retried)).toNat) % 16
            ∧ (t.bit (Reg.DIO_DO_n_STAT n.val) 16 = true ↔ s.fld Reg.DIO_DO_RETRY 16 4 ≤ t.fld (Reg.DIO_DO_n_STAT n.val) 17 4))
         ∧ (s.doOn n.val = true → t.fld (Reg.DIO_DO_n_MA n.val) 0 12 = min 4095 ma.toNat))
      ∧ s.keepsRegs t ([Reg.DIO_DO_n_STAT n.val, Reg.DIO_DO_n_MA n.val, Reg.DIO_STAT, Reg.DIO_CNT_DOSHORT, Reg.DIO_IRQ, Reg.DIO_INJ] ++ spoorRegs)
      ∧ s.keepsParts t [.sent, .spr, .zid, .field])
  ∧ (∀ (n : Fin 16) (s : State), s.supplied → ∃ t, exec (.doRetry n) s = .next t ∧ t.regs = s.regs
      ∧ (let back := n.val ∈ s.field.tripped ∧ s.bit (Reg.DIO_DO_n_STAT n.val) 16 = false
         (back → n.val ∉ t.field.tripped ∧ (s.doWanted n.val = true → n.val ∈ t.field.retried)) ∧ (¬back → t.field = s.field))
      ∧ t.field = { s.field with tripped := t.field.tripped, retried := t.field.retried } ∧ s.keepsParts t [.sent, .field])
  ∧ (∀ (n : Fin 16) (present : Bool) (ma : BitVec 16) (s : State), s.supplied → ∀ k ∈ [DoFault.openLoad, DoFault.rev], ∃ t, exec (.doFault n k present ma) s = .next t
      ∧ (let runs := if k = .openLoad then s.doOn n.val && (s.iomap (0x322 + 4 * n.val) 1).testBit 0 else !s.doOn n.val
         let inj := decide (k = .openLoad) && s.bit Reg.DIO_INJ 2 && s.fld Reg.DIO_INJ 8 5 == n.val
         let i := if k = .openLoad then 1 else 2
         let cnt := if k = .openLoad then Reg.DIO_CNT_DOOPEN else Reg.DIO_CNT_DOREV
         let onset := runs && (present != inj) && decide ((n.val, k) ∉ s.field.doFault)
         (runs = false → t.regs = s.regs)
         ∧ (runs = true → ((n.val, k) ∈ t.field.doFault ↔ present ≠ inj) ∧ t.fld (Reg.DIO_DO_n_MA n.val) 0 12 = min 4095 ma.toNat)
         ∧ (runs = true → inj = true → t.bit Reg.DIO_INJ 2 = false)
         ∧ t.bit (Reg.DIO_DO_n_STAT n.val) i = (s.bit (Reg.DIO_DO_n_STAT n.val) i || onset) ∧ t.bit Reg.DIO_STAT (3 + i) = (s.bit Reg.DIO_STAT (3 + i) || onset)
         ∧ t.nat cnt = min 0xFFFFFFFF (s.nat cnt + onset.toNat) ∧ (onset = true → t.bit Reg.DIO_IRQ 1 = true)
         ∧ s.keepsRegs t ([Reg.DIO_DO_n_STAT n.val, Reg.DIO_DO_n_MA n.val, Reg.DIO_STAT, cnt, Reg.DIO_IRQ, Reg.DIO_INJ] ++ spoorRegs))
      ∧ t.field = { s.field with doFault := t.field.doFault } ∧ s.keepsParts t [.sent, .spr, .zid, .field])
  ∧ (∀ (mv : BitVec 16) (rev : Bool) (s : State), s.supplied → ∃ t, exec (.fieldSupplyCheck mv rev) s = .next t
      ∧ (let inj := s.bit Reg.DIO_INJ 3
         let lost := (rev || decide (mv.toNat < 16000)) != inj
         let ok := if inj then !lost else !rev && decide (19200 ≤ mv.toNat ∧ mv.toNat ≤ 30000)
         t.bit Reg.DIO_FLD 16 = ok ∧ t.bit Reg.DIO_FLD 17 = rev ∧ t.fld Reg.DIO_FLD 0 16 = (if rev then 0 else mv.toNat) ∧ t.bit Reg.DIO_INJ 3 = false
         ∧ t.field.supplyOff = (s.field.supplyOff || lost)
         ∧ (lost = true → t.bit Reg.DIO_STAT (if rev then 8 else 7) = true ∧ t.field.supplyGood = 0)
         ∧ t.field.supplyGood = (if lost = false ∧ rev = false ∧ (19200 ≤ mv.toNat ∨ inj = true) then s.field.supplyGood + 1 else 0)
         ∧ t.nat Reg.DIO_CNT_FLD = min 0xFFFFFFFF (s.nat Reg.DIO_CNT_FLD + (lost && !(s.bit Reg.DIO_FLD 17 || decide (s.fld Reg.DIO_FLD 0 16 < 16000))).toNat)
         ∧ t.bit Reg.DIO_IRQ 2 = (s.bit Reg.DIO_IRQ 2 || (s.bit Reg.DIO_FLD 16 != ok)))
      ∧ t.field = { s.field with supplyOff := t.field.supplyOff, supplyGood := t.field.supplyGood }
      ∧ s.keepsRegs t ([Reg.DIO_FLD, Reg.DIO_STAT, Reg.DIO_CNT_FLD, Reg.DIO_IRQ, Reg.DIO_INJ, Reg.ZID_CNT_INJ] ++ pinRegs) ∧ s.keepsParts t [.sent, .zid, .field])
  ∧ ∀ s : State, s.supplied → ∃ t, exec .fieldSupplyReturn s = .next t ∧ t.regs = s.regs
      ∧ t.field = { s.field with supplyOff := s.field.supplyOff && decide (s.field.supplyGood < 100) } ∧ s.keepsParts t [.sent, .field]

/-- Plant metering: modulator faults, harmonics, snapshots, copies and 64-bit reads. The onset of a modulator fault on a
configured feeder sets the feeder's and the block's status bit, counts and records it; its return or end does not count. A
window with a frequency outside 42.5 to 69 Hz, or with all voltages faulted, reads FREQ and harmonics 0 with FREQBAD;
another gives FREQ. A SNAP waits for the commit. A due copy that verifies goes to the older copy with the next sequence
number and counts NVSAVE; a failed one stays due and is written again in a later lap. A LO read latches its HI word. No
energy register changes. (R288, R289, R296, R302, R303, R307, R310, spec/11_plant_metering.md.) -/
def Obligations.MeteringCommands : Prop :=
  (∀ (f : Fin 4) (ch : Fin 6) (k : ModFault) (present : Bool) (s : State), s.supplied →
    ∃ t, exec (.modFault f ch k present) s = .next t
      ∧ (s.feederOn f.val = false → t.regs = s.regs ∧ s.keepsParts t [.sent])
      ∧ (s.feederOn f.val = true → k = .stuck → present = true → s.mtr.stuckNow.contains (6 * f.val + ch.val) = false →
          t.mtr.stuckNow = (6 * f.val + ch.val) :: s.mtr.stuckNow ∧ t.mtr.stuckLap.contains (6 * f.val + ch.val) = true
          ∧ t.bit (Reg.MTR_F_f_STAT f.val) 1 = true ∧ t.bit Reg.MTR_STAT 1 = true ∧ t.bit (Reg.MTR_F_f_STAT f.val) (16 + ch.val) = true
          ∧ (t.rd Reg.MTR_CNT_MODFAULT).toNat = min 0xFFFFFFFF ((s.rd Reg.MTR_CNT_MODFAULT).toNat + 1) ∧ t.bit Reg.MTR_IRQ 0 = true)
      ∧ (s.feederOn f.val = true → k = .stuck → (present = false ∨ s.mtr.stuckNow.contains (6 * f.val + ch.val) = true) →
          t.mtr.stuckNow.contains (6 * f.val + ch.val) = present ∧ t.rd Reg.MTR_CNT_MODFAULT = s.rd Reg.MTR_CNT_MODFAULT
          ∧ t.rd Reg.MTR_STAT = s.rd Reg.MTR_STAT ∧ t.spr = s.spr)
      ∧ (s.feederOn f.val = true → k = .ovl → present = true → t.mtr.ovlNow.contains (6 * f.val + ch.val) = true
          ∧ assocGet 0 t.mtr.ovlLap (6 * f.val + ch.val) = assocGet 0 s.mtr.ovlLap (6 * f.val + ch.val) + 1
          ∧ t.bit (Reg.MTR_F_f_STAT f.val) (16 + ch.val) = true)
      ∧ (s.feederOn f.val = true → k = .clkfail → present = true → t.mtr.clkNow.contains f.val = true ∧ t.mtr.clkLap.contains f.val = true
          ∧ t.bit (Reg.MTR_F_f_STAT f.val) 4 = true ∧ t.rd (Reg.MTR_F_f_FREQ f.val) = 0#32)
      ∧ t.mtr.energy = s.mtr.energy ∧ s.keepsParts t [.sent, .spr, .zid, .mtr])
  ∧ (∀ (f : Fin 4) (freq : BitVec 32) (bins : List (List Nat)) (s : State), s.supplied → s.feederOn f.val = true →
      ∃ t, exec (.harmonicWindow f freq bins) s = .next t
        ∧ ((freq.toNat < 42500 ∨ 69000 < freq.toNat ∨ s.feederDark f.val = true) →
            t.rd (Reg.MTR_F_f_FREQ f.val) = 0#32 ∧ t.bit (Reg.MTR_F_f_STAT f.val) 4 = true
            ∧ (∀ (q : Fin 6) (h : Fin 63), t.rd (Reg.MTR_F_f_H_q_h f.val q.val h.val) = 0#32))
        ∧ ((42500 ≤ freq.toNat ∧ freq.toNat ≤ 69000 ∧ s.feederDark f.val = false) →
            t.rd (Reg.MTR_F_f_FREQ f.val) = freq ∧ t.bit (Reg.MTR_F_f_STAT f.val) 4 = false)
        ∧ s.keepsParts t [.sent])
  ∧ (∀ (src : Src) (on : Bool) (s : State), s.supplied → s.grants src Reg.MTR_SNAP_CTRL (BitVec.ofNat 32 on.toNat) →
      ∃ t, exec (.snap src on) s = .next t ∧ t.answer.status = .ok ∧ t.mtr = { s.mtr with snap := on || s.mtr.snap }
        ∧ s.keepsRegs t hostRegs ∧ s.keepsParts t (.mtr :: hostParts))
  ∧ (∀ (ok : Bool) (s : State), s.supplied → ∃ t, exec (.nvsave ok) s = .next t
      ∧ (s.mtr.saveDue = false ∨ s.mtr.saveTry = some s.lap.count → t.regs = s.regs ∧ t.mtr = s.mtr ∧ t.used = s.used)
      ∧ (s.mtr.saveDue = true → s.mtr.saveTry ≠ some s.lap.count → s.bit Reg.MTR_INJ 2 = false → ok = false →
          t.mtr.saveDue = true ∧ t.bit Reg.MTR_STAT 4 = true ∧ t.mtr.saveTry = some s.lap.count)
      ∧ (s.mtr.saveDue = true → s.mtr.saveTry ≠ some s.lap.count → s.bit Reg.MTR_INJ 2 = false → ok = true → t.mtr.saveDue = false
          ∧ (t.rd Reg.MTR_CNT_NVSAVE).toNat = min 0xFFFFFFFF ((s.rd Reg.MTR_CNT_NVSAVE).toNat + 1)
          ∧ t.mtrBest = some ⟨((s.mtrBest.map (·.seq)).getD 0#32) + 1#32, s.mtr.energy, s.mtr.therm, s.mtrErrs, 0⟩)
      ∧ t.mtr.energy = s.mtr.energy ∧ s.keepsRegs t [Reg.MTR_STAT, Reg.MTR_CNT_NVSAVE, Reg.MTR_INJ, Reg.ZID_CNT_INJ] ∧ s.keepsParts t [.sent, .mtr, .used])
  ∧ ∀ (src : Src) (a : Word) (v : Word) (s : State), s.supplied → a.toNat % 8 = 0 → s.mtrWord a.toNat = some v → s.missing a.toNat = false →
      s.unusedChan a.toNat = false →
      ∃ t, exec (.mtrLoRead src a) s = .next t ∧ t.answer.status = .ok ∧ t.answer.data = [v]
        ∧ (t.mtr.shadows.find? (fun e => e.1 == a.toNat + 4)) = some (a.toNat + 4, (s.mtrWord (a.toNat + 4)).getD 0#32)
        ∧ t.mtr.energy = s.mtr.energy ∧ s.keepsRegs t hostRegs ∧ s.keepsParts t [.answer, .sent, .hwp, .mtr, .used]

/-- CAN reception: error states, filters and queues. A frame at a channel that takes part, CRC good (INJ.CRC, INJ.STG at 0),
counts RXFRAME; it goes by the lowest matching filter: with none it counts NOMATCH, with ACT of queue 0 or 1 and room it is
appended there with the next SEQ, the other queue staying. A channel that takes no part ignores frames and errors. An error
counts, sets LEC or DLEC and the error counter of its role; TEC past 255 is BUSOFF, a counter past 127 ERROR_PASSIVE. POP
with the head's SEQ removes the head alone, another is RANGE. Other channels stay. (R312, R313, R319, R320, R322,
spec/12_can_fd_channels.md.) -/
def Obligations.CanReception : Prop :=
  (∀ (ch : Fin 4) (id fmt stamp : Word) (data : List Byte) (staged : Fin 9) (s : State), s.supplied → s.can.length = 4 →
    s.canTakesPart ch.val = true → s.rd (Reg.CAN_INJ ch.val) = 0#32 → staged.val < 8 →
    ∃ t, exec (.canFrameReceive ch id fmt stamp data true staged) s = .next t
      ∧ (t.rd (Reg.CAN_CNT_RXFRAME ch.val)).toNat = min 0xFFFFFFFF ((s.rd (Reg.CAN_CNT_RXFRAME ch.val)).toNat + 1)
      ∧ (let f := (id &&& 0x3FFFFFFF#32) ||| (if bitOf fmt 4 then 0x40000000#32 else 0#32)
         (s.canFilter ch.val f = none → t.can = s.can
            ∧ (t.rd (Reg.CAN_CNT_NOMATCH ch.val)).toNat = min 0xFFFFFFFF ((s.rd (Reg.CAN_CNT_NOMATCH ch.val)).toNat + 1))
         ∧ (∀ k, s.canFilter ch.val f = some k →
            ((s.canAct ch.val k = 0 ∨ s.canAct ch.val k = 4) → t.can = s.can)
            ∧ ((s.canAct ch.val k = 1 ∨ s.canAct ch.val k = 5) → (s.canCh ch.val).q0.length < 64 →
                ((t.canCh ch.val).q0.getLast?.map (fun e => (e.filter, e.seq, e.id, e.stamp)))
                    = some (k, (s.canCh ch.val).next0, id &&& 0x7FFFFFFF#32, stamp)
                ∧ (t.canCh ch.val).q0.length = (s.canCh ch.val).q0.length + 1 ∧ (t.canCh ch.val).q1 = (s.canCh ch.val).q1)
            ∧ ((s.canAct ch.val k = 2 ∨ s.canAct ch.val k = 6) → (s.canCh ch.val).q1.length < 64 →
                ((t.canCh ch.val).q1.getLast?.map (fun e => (e.filter, e.seq, e.id, e.stamp)))
                    = some (k, (s.canCh ch.val).next1, id &&& 0x7FFFFFFF#32, stamp)
                ∧ (t.canCh ch.val).q1.length = (s.canCh ch.val).q1.length + 1 ∧ (t.canCh ch.val).q0 = (s.canCh ch.val).q0)))
      ∧ (∀ c, c ≠ ch.val → t.canCh c = s.canCh c) ∧ s.keepsParts t [.sent, .zid, .can, .used])
  ∧ (∀ (ch : Fin 4) (id fmt stamp : Word) (data : List Byte) (crcOk : Bool) (staged : Fin 9) (kind : Fin 8) (ph tx : Bool) (w : CanWeight)
      (s : State), s.supplied → s.canTakesPart ch.val = false →
      ∀ c ∈ [(Instr.canFrameReceive ch id fmt stamp data crcOk staged), .canError ch kind ph tx w],
        ∃ t, exec c s = .next t ∧ t.regs = s.regs ∧ s.keepsParts t [.sent])
  ∧ (∀ (ch : Fin 4) (kind : Fin 8) (ph tx : Bool) (w : CanWeight) (s : State), s.supplied → s.can.length = 4 →
      (s.canState ch.val = 2 ∨ s.canState ch.val = 3) →
      ∃ t, exec (.canError ch kind ph tx w) s = .next t
        ∧ (t.rd (Reg.CAN_CNT_ERR ch.val)).toNat = min 0xFFFFFFFF ((s.rd (Reg.CAN_CNT_ERR ch.val)).toNat + 1)
        ∧ t.fld (Reg.CAN_STATE ch.val) (if ph then 27 else 24) 3 = kind.val ∧ t.bit (Reg.CAN_STAT ch.val) 7 = true
        ∧ (tx = true → (if 255 < s.canTec ch.val + w.num then t.canState ch.val = 4 ∧ t.bit (Reg.CAN_STAT ch.val) 0 = true
              ∧ (t.rd (Reg.CAN_CNT_BUSOFF ch.val)).toNat = min 0xFFFFFFFF ((s.rd (Reg.CAN_CNT_BUSOFF ch.val)).toNat + 1)
            else t.canTec ch.val = s.canTec ch.val + w.num
              ∧ t.canState ch.val = (if 127 < t.canTec ch.val ∨ s.bit (Reg.CAN_STATE ch.val) 23 = true then 3 else 2)))
        ∧ (tx = false → t.canRec ch.val = min 128 (s.canRec ch.val + w.num) ∧ t.canTec ch.val = s.canTec ch.val
            ∧ t.canState ch.val = (if 127 < s.canTec ch.val ∨ 127 < s.canRec ch.val + w.num then 3 else 2))
        ∧ (∀ c, c ≠ ch.val → t.canCh c = s.canCh c) ∧ s.keepsParts t [.sent, .zid, .can])
  ∧ (∀ (src : Src) (ch : Fin 4) (q : Fin 2) (v : Word) (s : State), s.supplied → s.can.length = 4 →
      s.grants src (Reg.CAN_RXQ_q_POP ch.val q.val) v →
      ∃ t, exec (.pop src ch q v) s = .next t ∧ t.answer.status = .ok
        ∧ t.canCh ch.val = (if q.val = 0 then { s.canCh ch.val with q0 := (s.canCh ch.val).q0.tail }
            else { s.canCh ch.val with q1 := (s.canCh ch.val).q1.tail })
        ∧ (∀ c, c ≠ ch.val → t.canCh c = s.canCh c) ∧ s.keepsRegs t hostRegs ∧ s.keepsParts t (.can :: hostParts))
  ∧ ∀ (src : Src) (ch : Fin 4) (q : Fin 2) (v : Word) (s : State), s.supplied → s.imgRuns = true →
      (((s.canCh ch.val).queue q.val).head?.map (·.seq)) ≠ some (bitsOf v 0 16) →
      ∃ t, exec (.pop src ch q v) s = .next t ∧ t.answer.status = .range ∧ t.can = s.can
        ∧ (t.rd (Reg.CAN_CNT_REFUSE ch.val)).toNat = min 0xFFFFFFFF ((s.rd (Reg.CAN_CNT_REFUSE ch.val)).toNat + 1)

/-- CAN modes, bit timing, bus-off recovery and line faults. A granted MODE in CONFIG or BUSOFF takes effect at once, in
another state it waits for bus idle (CAN_MODE_CHANGE); CONFIG ends every request and clears the counters. A granted timing
write takes effect. RECOVER in BUSOFF begins a recovery, at whose end the counters are 0 and the mode's state shows. A new
line fault of Table 3 but OPEN puts a channel outside CONFIG into LINEFAULT; with none left it integrates, or waits for
RESUME under LFHOLD; integrating ends in the mode's state. Other channels stay. (R313, R314, R316, R326, R332, R333,
spec/12_can_fd_channels.md.) -/
def Obligations.CanModes : Prop :=
  (∀ (src : Src) (ch : Fin 4) (v : Word) (s : State), s.supplied → s.can.length = 4 → s.grants src (Reg.CAN_CTRL ch.val) v →
    bitsOf v 4 3 = 0 → bitsOf v 0 2 ≠ (s.canCh ch.val).mode →
    ∃ t, exec (.canModeWrite src ch v) s = .next t ∧ t.answer.status = .ok ∧ t.fld (Reg.CAN_CTRL ch.val) 0 2 = bitsOf v 0 2
      ∧ ((s.canState ch.val = 0 ∨ s.canState ch.val = 4) → (t.canCh ch.val).mode = bitsOf v 0 2 ∧ (t.canCh ch.val).pendMode = none
          ∧ (s.canState ch.val = 0 → bitsOf v 0 2 ≠ 0 → t.canState ch.val = (if s.fld (Reg.CAN_LINE ch.val) 0 5 = 0 then 1 else 6))
          ∧ (s.canState ch.val = 4 → t.canState ch.val = (if bitsOf v 0 2 = 0 then 0 else 4)))
      ∧ ((s.canState ch.val ≠ 0 ∧ s.canState ch.val ≠ 4) → (t.canCh ch.val).mode = (s.canCh ch.val).mode
          ∧ (t.canCh ch.val).pendMode = some (bitsOf v 0 2) ∧ t.canState ch.val = s.canState ch.val)
      ∧ (∀ c, c ≠ ch.val → t.canCh c = s.canCh c) ∧ s.keepsParts t (.can :: .zid :: hostParts))
  ∧ (∀ (ch : Fin 4) (s : State), s.supplied → s.can.length = 4 → (s.canCh ch.val).mode ≠ 0 →
      ∃ t, exec (.canModeChange ch) s = .next t
        ∧ ((s.canCh ch.val).pendMode = none → t.regs = s.regs ∧ t.can = s.can)
        ∧ ((s.canCh ch.val).pendMode = some 0 → t.canState ch.val = 0 ∧ t.canTec ch.val = 0 ∧ t.canRec ch.val = 0
            ∧ (t.canCh ch.val).mode = 0 ∧ (t.canCh ch.val).tx = none ∧ (∀ b : Fin 32, t.txReady ch.val b.val = false))
        ∧ ((s.canCh ch.val).pendMode = some 2 → s.canTakesPart ch.val = true → t.canState ch.val = 5 ∧ (t.canCh ch.val).mode = 2)
        ∧ (∀ c, c ≠ ch.val → t.canCh c = s.canCh c) ∧ s.keepsParts t [.sent, .zid, .can])
  ∧ (∀ (src : Src) (ch : Fin 4) (k : Fin 3) (v : Word) (s : State), s.supplied → s.grants src (timingReg ch.val k.val) v →
      ∃ t, exec (.bitTimingWrite src ch k v) s = .next t ∧ t.answer.status = .ok ∧ t.fld (timingReg ch.val k.val) 0 6 = bitsOf v 0 6
        ∧ s.keepsRegs t (timingReg ch.val k.val :: hostRegs) ∧ s.keepsParts t hostParts)
  ∧ (∀ (src : Src) (ch : Fin 4) (s : State), s.supplied → s.can.length = 4 →
      (s.grants src (Reg.CAN_CTRL ch.val) ((s.rd (Reg.CAN_CTRL ch.val) &&& 0x393#32) ||| 0x20#32) →
        s.fld (Reg.CAN_CTRL ch.val) 0 2 = (s.canCh ch.val).mode →
        ∃ t, exec (.recover src ch) s = .next t ∧ t.answer.status = .ok ∧ t.canState ch.val = s.canState ch.val
          ∧ (s.canState ch.val = 4 → (t.canCh ch.val).recovering = true) ∧ (∀ c, c ≠ ch.val → t.canCh c = s.canCh c))
      ∧ (s.grants src (Reg.CAN_CTRL ch.val) ((s.rd (Reg.CAN_CTRL ch.val) &&& 0x393#32) ||| 0x40#32) →
        s.fld (Reg.CAN_CTRL ch.val) 0 2 = (s.canCh ch.val).mode →
        ∃ t, exec (.resume src ch) s = .next t ∧ t.answer.status = .ok
          ∧ t.canState ch.val = (if s.canState ch.val = 6 ∧ (s.canCh ch.val).awaitResume = true ∧ s.fld (Reg.CAN_LINE ch.val) 0 5 = 0 then 1
              else s.canState ch.val) ∧ (∀ c, c ≠ ch.val → t.canCh c = s.canCh c)))
  ∧ (∀ (ch : Fin 4) (s : State), s.supplied → s.can.length = 4 → ∃ t, exec (.busoffRecoveryEnd ch) s = .next t
      ∧ ((s.canState ch.val = 4 ∧ (s.canCh ch.val).recovering = true) → t.canTec ch.val = 0 ∧ t.canRec ch.val = 0
          ∧ t.canState ch.val = (if (s.canCh ch.val).mode = 2 then 5 else if (s.canCh ch.val).mode = 3 then 7 else 2)
          ∧ (t.canCh ch.val).recovering = false)
      ∧ (¬ (s.canState ch.val = 4 ∧ (s.canCh ch.val).recovering = true) → t.regs = s.regs ∧ t.can = s.can)
      ∧ s.keepsParts t [.sent, .zid, .can])
  ∧ (∀ (ch : Fin 4) (kind : Fin 5) (present : Bool) (s : State), s.supplied → s.can.length = 4 → s.bit (Reg.CAN_INJ ch.val) 1 = false →
      kind.val ≠ 4 →
      ∃ t, exec (.lineFault ch kind present) s = .next t ∧ t.bit (Reg.CAN_LINE ch.val) kind.val = present
        ∧ (s.bit (Reg.CAN_LINE ch.val) kind.val = present → t.regs = s.regs ∧ t.can = s.can)
        ∧ (s.bit (Reg.CAN_LINE ch.val) kind.val = false → present = true →
            t.bit (Reg.CAN_STAT ch.val) 2 = true ∧ t.canState ch.val = (if s.canState ch.val = 0 then 0 else 6)
            ∧ (t.rd (Reg.CAN_CNT_LINEFAULT ch.val)).toNat = min 0xFFFFFFFF ((s.rd (Reg.CAN_CNT_LINEFAULT ch.val)).toNat + 1))
        ∧ (∀ c, c ≠ ch.val → t.canCh c = s.canCh c) ∧ s.keepsParts t [.sent, .spr, .zid, .can])
  ∧ (∀ (ch : Fin 4) (s : State), s.supplied → s.can.length = 4 → ∃ t, exec (.linefaultEnd ch) s = .next t
      ∧ (let done := s.canState ch.val = 6 ∧ s.fld (Reg.CAN_LINE ch.val) 0 5 = 0
         (done → if s.bit (Reg.CAN_CTRL ch.val) 7 then t.canState ch.val = 6 ∧ (t.canCh ch.val).awaitResume = true else t.canState ch.val = 1)
         ∧ (¬ done → t.regs = s.regs ∧ t.can = s.can)) ∧ s.keepsParts t [.sent, .zid, .can])
  ∧ ∀ (ch : Fin 4) (s : State), s.supplied → s.can.length = 4 → ∃ t, exec (.busIntegration ch) s = .next t
      ∧ (s.canState ch.val ≠ 1 → t.regs = s.regs ∧ t.can = s.can)
      ∧ (s.canState ch.val = 1 → (s.canCh ch.val).former ≠ 4 → (s.canCh ch.val).former < 8 →
          t.canState ch.val = (if (s.canCh ch.val).mode = 2 then 5 else if (s.canCh ch.val).mode = 3 then 7 else (s.canCh ch.val).former))
      ∧ s.keepsParts t [.sent, .zid, .can]

/-- CAN transmission: READY, ABORT, arbitration and the end of a frame. A granted READY of a firmware buffer makes it ready;
ABORT of a ready buffer not in transmission ends its request with FAILED, of the one in transmission takes effect at its
end. TX_START at an idle channel takes, of the ready buffers that are not gated, the one that wins arbitration, the lowest
buffer on a tie, with the frame as it stands. TX_END that succeeded sends that frame, sets DONE, counts TXFRAME and stamps
it; a failed one stays ready but under DAR or ABORT. Other channels and buffers stay. (R324, R325, R326, R327, R328,
spec/12_can_fd_channels.md.) -/
def Obligations.CanTransmission : Prop :=
  (∀ (src : Src) (ch : Fin 4) (b : Fin 32) (s : State), s.supplied → s.can.length = 4 →
    (s.grants src (Reg.CAN_TXB_b_CTRL ch.val b.val) 1#32 →
      ∃ t, exec (.txReady src ch b) s = .next t ∧ t.answer.status = .ok ∧ t.txReady ch.val b.val = true
        ∧ s.keepsRegs t (Reg.CAN_TXB_b_CTRL ch.val b.val :: hostRegs) ∧ s.keepsParts t hostParts)
    ∧ (s.grants src (Reg.CAN_TXB_b_CTRL ch.val b.val) 2#32 →
      ∃ t, exec (.txAbort src ch b) s = .next t ∧ t.answer.status = .ok
        ∧ (s.txReady ch.val b.val = false → s.keepsRegs t hostRegs ∧ t.can = s.can)
        ∧ (s.txReady ch.val b.val = true → ((s.canCh ch.val).tx.map (·.buf)) ≠ some b.val →
            t.rd (Reg.CAN_TXB_b_CTRL ch.val b.val) = 0x200#32 ∧ t.bit (Reg.CAN_STAT ch.val) 6 = true ∧ t.can = s.can)
        ∧ (∀ x, (s.canCh ch.val).tx = some x → s.txReady ch.val b.val = true → x.buf = b.val →
            (t.canCh ch.val).tx = some { x with abort := true } ∧ t.txReady ch.val b.val = true)
        ∧ s.keepsParts t (.can :: .zid :: hostParts)))
  ∧ (∀ (ch : Fin 4) (s : State), s.supplied → s.can.length = 4 → (s.canState ch.val = 2 ∨ s.canState ch.val = 3) → (s.canCh ch.val).tx = none →
      ∃ t, exec (.txStart ch) s = .next t
        ∧ ((∀ b < 32, s.txReady ch.val b = true → s.txGated ch.val b = true) → t.can = s.can)
        ∧ (∀ x, (t.canCh ch.val).tx = some x → x.buf < 32 ∧ s.txReady ch.val x.buf = true ∧ s.txGated ch.val x.buf = false
            ∧ x.id = s.rd (Reg.CAN_TXB_b_ID ch.val x.buf) ∧ x.abort = false
            ∧ (∀ b < 32, s.txReady ch.val b = true → s.txGated ch.val b = false →
                arbKey x.id < arbKey (s.rd (Reg.CAN_TXB_b_ID ch.val b))
                ∨ (arbKey x.id = arbKey (s.rd (Reg.CAN_TXB_b_ID ch.val b)) ∧ x.buf ≤ b)))
        ∧ ((∃ b < 32, s.txReady ch.val b = true ∧ s.txGated ch.val b = false) → (t.canCh ch.val).tx ≠ none)
        ∧ s.keepsRegs t [Reg.CAN_STAT ch.val] ∧ s.keepsParts t [.sent, .can])
  ∧ (∀ (ch : Fin 4) (s : State), s.supplied → (¬ (s.canState ch.val = 2 ∨ s.canState ch.val = 3) ∨ (s.canCh ch.val).tx ≠ none) →
      ∃ t, exec (.txStart ch) s = .next t ∧ t.can = s.can ∧ s.keepsRegs t [Reg.CAN_STAT ch.val])
  ∧ (∀ (ch : Fin 4) (ok : Bool) (stamp : Word) (tdcv : BitVec 8) (vdom : BitVec 16) (s : State), s.supplied → s.can.length = 4 →
      s.bit (Reg.CAN_INJ ch.val) 1 = false → ∀ x, (s.canCh ch.val).tx = some x → x.buf < 32 →
      ∃ t, exec (.txEnd ch ok stamp tdcv vdom) s = .next t ∧ (t.canCh ch.val).tx = none
        ∧ t.fld (Reg.CAN_LINE ch.val) 16 16 = vdom.toNat
        ∧ (ok = true → t.sent = [⟨.canFrame, 4 + ch.val, x.id.toNat, x.fmt.toNat, x.data⟩]
            ∧ t.rd (Reg.CAN_TXB_b_CTRL ch.val x.buf) = 0x100#32 ∧ t.rd (Reg.CAN_TXB_b_STAMP ch.val x.buf) = stamp
            ∧ (t.rd (Reg.CAN_CNT_TXFRAME ch.val)).toNat = min 0xFFFFFFFF ((s.rd (Reg.CAN_CNT_TXFRAME ch.val)).toNat + 1)
            ∧ t.bit (Reg.CAN_IRQ ch.val) 2 = true)
        ∧ (ok = false → t.sent = [] ∧ t.rd (Reg.CAN_TXB_b_CTRL ch.val x.buf)
              = (if x.abort ∨ bitOf x.fmt 6 = true then 0x200#32 else s.rd (Reg.CAN_TXB_b_CTRL ch.val x.buf)))
        ∧ (∀ c, c ≠ ch.val → t.canCh c = s.canCh c) ∧ s.keepsParts t [.sent, .spr, .zid, .can])
  ∧ ∀ (ch : Fin 4) (ok : Bool) (stamp : Word) (tdcv : BitVec 8) (vdom : BitVec 16) (s : State), s.supplied → (s.canCh ch.val).tx = none →
      ∃ t, exec (.txEnd ch ok stamp tdcv vdom) s = .next t ∧ t.regs = s.regs ∧ s.keepsParts t [.sent]

/-- Status telegrams: the checks of Table 5 and the status table. On an up telegram port a datagram at UDPPORT is judged in
the order of Table 5 (length, format, source, MAC, sequence): the first failing check counts in its counter, is recorded
with port in LASTDROP and sets STAT.DROP and IRQ.DROP, and the status table stays; one that passes all fills the
substation's entry, its STAMP the present lap, and counts RXTEL. SUBRESET forgets the substation's last SEQ, so any SEQ is
then newer, and keeps its values. ETH_INJ at 0. (R343, R345, R346, R347, spec/13_ethernet_and_telegrams.md.) -/
def Obligations.StatusTelegrams : Prop :=
  (∀ (port : Fin 3) (ip : Word) (b : List Byte) (s : State), s.supplied → (s.clearSent.ethAccept port.val).2 = true → s.imgRuns = true →
    s.bit (Reg.ETH_PORT_p_CFG port.val) 3 = true → s.rd Reg.ETH_INJ = 0#32 →
    ∃ t, exec (.statusTelegram port ip b) s = .next t
      ∧ (let sub := leNat ((b.drop 2).take 2)
         let cause : Nat := if b.length ≠ 48 ∨ leNat ((b.drop 6).take 2) ≠ 48 then 1
           else if b.getD 0 0#8 ≠ 1#8 ∨ b.getD 1 0#8 ≠ 2#8 then 2
           else if s.teleNsub ≤ sub ∨ s.teleIp sub ≠ ip ∨ s.telePort sub port.val = false ∨ leNat ((b.drop 4).take 2) ≠ s.pairId then 3
           else if (s.macUnder engTel (s.teleKey sub) (b.take 0x28)).map (·.take 8) ≠ some (b.drop 0x28) then 4
           else if (s.subEntry sub).known = true ∧ newerSeq 32 (leNat ((b.drop 8).take 4)) (s.subEntry sub).seq.toNat = false then 5
           else 0
         (cause = 0 → (t.rd Reg.ETH_CNT_RXTEL).toNat = min 0xFFFFFFFF ((s.rd Reg.ETH_CNT_RXTEL).toNat + 1)
            ∧ t.subEntry sub = ⟨BitVec.ofNat 32 s.lap.count, [0x0C, 0x10, 0x14, 0x18, 0x1C].map (fun o => BitVec.ofNat 32 (leNat ((b.drop o).take 4))),
                leNat ((b.drop 0x20).take 2), true, BitVec.ofNat 32 (leNat ((b.drop 8).take 4)), true⟩
            ∧ (∀ i, i ≠ sub → t.subEntry i = s.subEntry i) ∧ s.keepsRegs t [Reg.ETH_CNT_RXTEL])
         ∧ (cause ≠ 0 → t.eth.subs = s.eth.subs ∧ t.fld Reg.ETH_LASTDROP 0 4 = cause ∧ t.fld Reg.ETH_LASTDROP 4 2 = port.val
            ∧ (4 ≤ b.length → t.fld Reg.ETH_LASTDROP 16 12 = sub % 4096) ∧ t.bit Reg.ETH_STAT 1 = true ∧ t.bit Reg.ETH_IRQ 0 = true
            ∧ (t.rd (dropCnt cause)).toNat = min 0xFFFFFFFF ((s.rd (dropCnt cause)).toNat + 1)
            ∧ s.keepsRegs t ([dropCnt cause, Reg.ETH_LASTDROP, Reg.ETH_STAT, Reg.ETH_IRQ] ++ pinRegs)))
      ∧ s.keepsParts t [.sent, .zid, .eth])
  ∧ ∀ (src : Src) (v : Word) (s : State), s.supplied → s.grants src Reg.ETH_SUBRESET v →
      ∃ t, exec (.subreset src v) s = .next t ∧ t.answer.status = .ok
        ∧ t.subEntry (bitsOf v 0 11) = { s.subEntry (bitsOf v 0 11) with known := false }
        ∧ (∀ i, i ≠ bitsOf v 0 11 → t.subEntry i = s.subEntry i) ∧ s.keepsRegs t hostRegs ∧ s.keepsParts t (.eth :: hostParts)

/-- Ethernet ports: the lap's frame limit, ARP, echo and links. A good frame on a port in service is taken while the port's
limit of the lap is not reached; one more is dropped, counted in CNT_RXOVR and flagged; a bad one counts RXERR; on a port
not in service nothing happens. An ARP request for the port's address is answered, and its sender, or a known one, is
entered with its MAC. A refresh asks for a known entry. An echo is answered with its own content. LINK takes the level and
speed, a change sets IRQ.LINK, the loss of an enabled port's link STAT.LINKDOWN. (R335, R337,
spec/13_ethernet_and_telegrams.md.) -/
def Obligations.EthernetPorts : Prop :=
  (∀ (port : Fin 3) (s : State), s.supplied → s.portUp port.val = true →
    (∃ t, exec (.ethFrame port true) s = .next t
      ∧ (listGet s.eth.frames port.val < frameLimit port.val → t.regs = s.regs
          ∧ (port.val < s.eth.frames.length → listGet t.eth.frames port.val = listGet s.eth.frames port.val + 1) ∧ s.keepsParts t [.sent, .eth])
      ∧ (frameLimit port.val ≤ listGet s.eth.frames port.val → t.eth = s.eth ∧ t.bit Reg.ETH_STAT 0 = true ∧ t.bit Reg.ETH_IRQ 2 = true
          ∧ (t.rd Reg.ETH_CNT_RXOVR).toNat = min 0xFFFFFFFF ((s.rd Reg.ETH_CNT_RXOVR).toNat + 1)
          ∧ s.keepsRegs t ([Reg.ETH_CNT_RXOVR, Reg.ETH_STAT, Reg.ETH_IRQ] ++ pinRegs) ∧ s.keepsParts t [.sent, .zid]))
    ∧ ∃ t, exec (.ethFrame port false) s = .next t ∧ s.keepsRegs t [Reg.ETH_PORT_p_CNT_RXERR port.val] ∧ s.keepsParts t [.sent]
      ∧ (t.rd (Reg.ETH_PORT_p_CNT_RXERR port.val)).toNat = min 0xFFFFFFFF ((s.rd (Reg.ETH_PORT_p_CNT_RXERR port.val)).toNat + 1))
  ∧ (∀ (port : Fin 3) (good isReq : Bool) (ip sip tip : Word) (mac : BitVec 48) (b : List Byte) (s : State), s.supplied →
      s.portUp port.val = false →
      ∀ c ∈ [(Instr.ethFrame port good), .arpFrame port isReq sip mac tip, .icmpEcho port ip b, .statusTelegram port ip b,
          .hwpRequest b port ip 0#16, .arpRefresh port ip],
        ∃ t, exec c s = .next t ∧ t.regs = s.regs ∧ t.sent = [] ∧ s.keepsParts t [.sent])
  ∧ (∀ (port : Fin 3) (isReq : Bool) (sip tip : Word) (mac : BitVec 48) (s : State), s.supplied → (s.clearSent.ethAccept port.val).2 = true →
      ∃ t, exec (.arpFrame port isReq sip mac tip) s = .next t ∧ t.regs = s.regs
        ∧ (let mine := tip = s.portIp port.val
           let room := (s.eth.arp.filter (fun e => e.port == port.val)).length < arpLimit port.val
           (((s.arpFind port.val sip).isSome = true ∨ (mine ∧ room)) → t.arpFind port.val sip = some ⟨port.val, sip, mac⟩)
           ∧ ((s.arpFind port.val sip = none ∧ ¬ (mine ∧ room)) → t.eth.arp = s.eth.arp)
           ∧ t.sent = (if mine ∧ isReq = true then [⟨.arpReply, port.val, mac.toNat, 0,
                arpBytes 2 (s.portMac port.val) (s.portIp port.val) mac.toNat sip⟩] else []))
        ∧ (∀ p ip, (p ≠ port.val ∨ ip ≠ sip) → t.arpFind p ip = s.arpFind p ip) ∧ s.keepsParts t [.sent, .eth])
  ∧ (∀ (port : Fin 3) (ip : Word) (s : State), s.supplied → ∃ t, exec (.arpRefresh port ip) s = .next t
      ∧ t.sent = (if s.portUp port.val = true ∧ (s.arpFind port.val ip).isSome = true then
          [⟨.arpRequest, port.val, 0xFFFFFFFFFFFF, 0, arpBytes 1 (s.portMac port.val) (s.portIp port.val) 0 ip⟩] else [])
      ∧ t.regs = s.regs ∧ s.keepsParts t [.sent])
  ∧ (∀ (port : Fin 3) (ip : Word) (b : List Byte) (s : State), s.supplied → (s.clearSent.ethAccept port.val).2 = true →
      ∃ t, exec (.icmpEcho port ip b) s = .next t ∧ t.sent = [⟨.echoReply, port.val, ip.toNat, 0, b⟩] ∧ t.regs = s.regs
        ∧ s.keepsParts t [.sent, .eth])
  ∧ ∀ (port : Fin 3) (up gig : Bool) (s : State), s.supplied → ∃ t, exec (.linkChange port up gig) s = .next t
      ∧ t.rd (Reg.ETH_PORT_p_LINK port.val) = (if !up then 0#32 else if gig && port.val != 2 then 5#32 else 3#32)
      ∧ t.bit Reg.ETH_STAT 4 = (s.bit Reg.ETH_STAT 4 || (s.bit (Reg.ETH_PORT_p_LINK port.val) 0 && !up && s.bit (Reg.ETH_PORT_p_CFG port.val) 0))
      ∧ (t.rd (Reg.ETH_PORT_p_LINK port.val) ≠ s.rd (Reg.ETH_PORT_p_LINK port.val) → t.bit Reg.ETH_IRQ 1 = true)
      ∧ s.keepsRegs t ([Reg.ETH_PORT_p_LINK port.val, Reg.ETH_IRQ, Reg.ETH_STAT] ++ pinRegs) ∧ s.keepsParts t [.sent, .zid]

/-- PTP messages: whose they are, and what each one records. On a PTP port of an enabled domain: a message of no enabled
domain counts NODOM; one that Table 1 does not accept, or a Sync, Follow_Up or Delay_Resp not from the selected master,
counts DROP and leaves the domain. An Announce counts ANN and is kept as heard. A two-step Sync counts SYNC and waits with
its corrected stamp and correction; a Follow_Up of another sequence is ignored. A Delay_Resp to no open Delay_Req is
ignored. DELAY_REQ sends the request with its stamp and counts DREQ. The other domain stays. (R350, R351, R356, R357, R358,
R359, spec/14_network_time.md.) -/
def Obligations.PtpMessages : Prop :=
  (∀ (port : Fin 3) (m : List Byte) (within : BitVec 20) (s : State), s.supplied → port.val ≠ 2 → (s.clearSent.ethAccept port.val).2 = true →
    s.bit (Reg.ETH_PORT_p_CFG port.val) 2 = true → s.bit Reg.PTP_CTRL 0 = true → s.ptpDomOf m = none →
    ∀ c ∈ [(Instr.announce port m), .sync port m within, .followUp port m, .delayResp port m],
      ∃ t, exec c s = .next t ∧ (t.rd Reg.PTP_CNT_NODOM).toNat = min 0xFFFFFFFF ((s.clearSent.ptpSync.rd Reg.PTP_CNT_NODOM).toNat + 1)
        ∧ t.ptp = s.clearSent.ptpSync.ptp)
  ∧ (∀ (port : Fin 3) (m : List Byte) (within : BitVec 20) (s : State), s.supplied → port.val ≠ 2 → (s.clearSent.ethAccept port.val).2 = true →
      s.bit (Reg.ETH_PORT_p_CFG port.val) 2 = true → s.bit Reg.PTP_CTRL 0 = true →
      ∀ d, s.ptpDomOf m = some d → (s.fld (Reg.PTP_DOM_d_CFG d) 9 2).testBit port.val = true →
      ∀ c ∈ [((11 : Nat), Instr.announce port m), (0, .sync port m within), (8, .followUp port m), (9, .delayResp port m)],
        ∃ t, exec c.2 s = .next t ∧ t.dom (otherDom d) = s.dom (otherDom d)
          ∧ ((ptpAccepted m c.1 = false ∨ (c.1 ≠ 11 ∧ s.fromMaster d port.val m = false)) →
              (t.rd (Reg.PTP_DOM_d_CNT_DROP d)).toNat = min 0xFFFFFFFF ((s.clearSent.ptpSync.rd (Reg.PTP_DOM_d_CNT_DROP d)).toNat + 1)
              ∧ t.ptp = s.clearSent.ptpSync.ptp)
          ∧ (ptpAccepted m c.1 = true → c.1 = 11 →
              (t.rd (Reg.PTP_DOM_d_CNT_ANN d)).toNat = min 0xFFFFFFFF ((s.clearSent.ptpSync.rd (Reg.PTP_DOM_d_CNT_ANN d)).toNat + 1)
              ∧ ((t.dom d).heard.head?).map (fun h => (h.ident, h.port, h.gm, h.heard.head?))
                  = some (ptpIdent m, port.val, ptpNum m 53 8, some s.clearSent.ptpSync.ptp.at_))
          ∧ (ptpAccepted m c.1 = true → s.fromMaster d port.val m = true → c.1 = 0 → (ptpNum m 6 1).testBit 1 = true →
              (t.rd (Reg.PTP_DOM_d_CNT_SYNC d)).toNat = min 0xFFFFFFFF ((s.clearSent.ptpSync.rd (Reg.PTP_DOM_d_CNT_SYNC d)).toNat + 1)
              ∧ (t.dom d).twoStep = some (ptpNum m 30 2, s.clearSent.ptpSync.ptpStamp within.toNat - s.ingress port.val, ptpCorr m)
              ∧ (t.dom d).syncAt = s.clearSent.ptpSync.ptp.at_)
          ∧ (ptpAccepted m c.1 = true → c.1 = 8 → ((s.dom d).twoStep.map (·.1)) ≠ some (ptpNum m 30 2) → s.fromMaster d port.val m = true →
              t.ptp = s.clearSent.ptpSync.ptp)
          ∧ (ptpAccepted m c.1 = true → c.1 = 9 → (s.dom d).dreq = none → s.fromMaster d port.val m = true → t.ptp = s.clearSent.ptpSync.ptp))
  ∧ ∀ (d : Fin 2) (within : BitVec 20) (s : State), s.supplied → ∀ x, (s.dom d.val).master = some x → s.bit Reg.PTP_CTRL 0 = true →
      s.bit (Reg.PTP_DOM_d_CFG d.val) 8 = true → s.portUp x.port = true → s.bit (Reg.ETH_PORT_p_CFG x.port) 2 = true →
      ∃ t, exec (.delayReq d within) s = .next t
        ∧ (let t3 := s.clearSent.ptpSync.ptpStamp within.toNat + s.egress x.port
           t.sent = [⟨.delayReq, x.port, 0xE0000181, 319, s.delayReqBytes d.val (s.dom d.val).dseq t3.floor.toNat⟩]
           ∧ (t.dom d.val).dreq = some ⟨(s.dom d.val).dseq, t3, (if (s.dom d.val).twoStep.isSome then none else (s.dom d.val).lastDiff),
               (s.dom d.val).twoStep.map (·.1), none⟩ ∧ (t.dom d.val).dseq = ((s.dom d.val).dseq + 1) % 65536)
        ∧ (t.rd (Reg.PTP_DOM_d_CNT_DREQ d.val)).toNat
            = min 0xFFFFFFFF ((s.clearSent.ptpSync.rd (Reg.PTP_DOM_d_CNT_DREQ d.val)).toNat + 1)
        ∧ t.dom (otherDom d.val) = s.dom (otherDom d.val) ∧ s.keepsParts t [.sent, .ptp, .used]

/-- The clock is never stepped in LOCKED or HOLDOVER by anything but the host's own commands. In state LOCKED or HOLDOVER no
message, time-out, ramp end, return or expiry steps the clock: after it the clock is where the oscillator and RATE took it,
PTP_CNT_STEP is unchanged, and the state is LOCKED or HOLDOVER again (the never stepped of R360). Loss of the leading
domain's Announce or Sync with no other domain QUALIFIED enters HOLDOVER, with the loss recorded; a time-out that has not
passed changes nothing but the clock's running. (R359, R360, R362, R363, R365, R366, spec/14_network_time.md.) -/
def Obligations.ClockNotStepped : Prop :=
  (∀ (port : Fin 3) (m : List Byte) (within : BitVec 20) (d : Fin 2) (s : State), s.supplied → (s.ptpState = 2 ∨ s.ptpState = 3) →
    ∀ c ∈ [(Instr.announce port m), .sync port m within, .followUp port m, .delayResp port m, .delayReq d within, .announceTimeout d,
        .syncTimeout d, .rampEnd, .revertLead, .holdExpire],
      ∃ t, exec c s = .next t ∧ (t.ptp.clk = s.ptp.clk ∨ t.ptp.clk = s.clearSent.ptpSync.ptp.clk)
        ∧ t.rd Reg.PTP_CNT_STEP = s.rd Reg.PTP_CNT_STEP ∧ (t.ptpState = 2 ∨ t.ptpState = 3))
  ∧ (∀ (d : Fin 2) (s : State), s.supplied → s.ptp.rampTerm = 0 → s.leads d.val = true → (s.dom d.val).qual = true →
      (s.dom (otherDom d.val)).qual = false →
      ∀ x, (s.dom d.val).master = some x →
        (s.fld (Reg.PTP_DOM_d_CFG d.val) 16 4 * pow2Sec x.logAnn ≤ s.clearSent.ptpSync.ptp.at_ - (s.dom d.val).annAt →
          ∃ t, exec (.announceTimeout d) s = .next t ∧ t.ptpState = 3 ∧ t.ptpLock = true ∧ t.fld (Reg.PTP_DOM_d_STATE d.val) 4 3 = 1
            ∧ (t.dom d.val).qual = false ∧ t.bit Reg.PTP_STAT 1 = true ∧ t.ptp.prop = 0 ∧ t.ptp.integ = s.ptp.integ)
        ∧ (s.clearSent.ptpSync.ptp.at_ - (s.dom d.val).annAt < s.fld (Reg.PTP_DOM_d_CFG d.val) 16 4 * pow2Sec x.logAnn →
          ∃ t, exec (.announceTimeout d) s = .next t ∧ t.ptp = s.clearSent.ptpSync.ptp ∧ t.regs = s.regs ∧ s.keepsParts t [.sent, .ptp])
        ∧ (s.bit Reg.PTP_INJ 0 = false → s.fld (Reg.PTP_DOM_d_CFG d.val) 20 4
              * pow2Sec (signedOf 8 (s.fld (Reg.PTP_DOM_d_STATE d.val) 16 8)) ≤ s.clearSent.ptpSync.ptp.at_ - (s.dom d.val).syncAt →
          ∃ t, exec (.syncTimeout d) s = .next t ∧ t.ptpState = 3 ∧ t.fld (Reg.PTP_DOM_d_STATE d.val) 4 3 = 2 ∧ (t.dom d.val).qual = false
            ∧ t.bit Reg.PTP_STAT 1 = true))

/-- Ends of ramps, holdover and lead; PTP_CTRL, RATE, domain settings and reading the clock. RAMP_END ends a ramp whose rest
passes within the tick. REVERT gives PREF the lead with a switch's marks after REVERT.S seconds. HOLD_EXPIRE drops LOCK
after HOLD.S seconds. EN 0 or FREERUN 1 enters FREE; EN 1 in FREE and REACQ enter ACQUIRE, or LOCKED by a step where a
domain is QUALIFIED; STEP in FREE steps by STEP_SEC and STEP_NS and counts. RATE as written is clamped to 1,000 ppm; a
DOM_CFG that changes number or enable starts the domain afresh. NOW_READ answers the clock's ns and latches its other words.
(R354, R355, R360, R362, R365, R366, R367, R368, spec/14_network_time.md.) -/
def Obligations.PtpClockCommands : Prop :=
  (∀ s : State, s.supplied → ∃ t, exec .rampEnd s = .next t
      ∧ (let u := s.clearSent.ptpSync
         let done := u.ptp.rampTerm ≠ 0 ∧ absQ u.ptp.ramp ≤ absQ (u.rampRate * u.lastLap / 4096)
         (done → t.ptp.ramp = 0 ∧ t.ptp.rampTerm = 0 ∧ t.bit Reg.PTP_STATE 4 = false) ∧ (¬ done → t.ptp = u.ptp ∧ t.regs = u.regs))
      ∧ s.keepsParts t [.sent, .ptp])
  ∧ (∀ s : State, s.supplied → ∃ t, exec .revertLead s = .next t
      ∧ (let u := s.clearSent.ptpSync
         let due := u.bit Reg.PTP_CTRL 2 = true ∧ u.leads (otherDom u.pref) = true ∧ (u.dom u.pref).qual = true
            ∧ (u.nat Reg.PTP_REVERT : Rat) * 1000000000 ≤ u.ptp.at_ - (u.dom u.pref).qualAt
         (due → t.leads u.pref = true ∧ t.ptp.ramp = u.lastOfs u.pref ∧ t.bit Reg.PTP_STAT 0 = true ∧ t.bit Reg.PTP_IRQ 0 = true
            ∧ (t.rd Reg.PTP_CNT_SWITCH).toNat = min 0xFFFFFFFF ((u.rd Reg.PTP_CNT_SWITCH).toNat + 1))
         ∧ (¬ due → t.ptp = u.ptp ∧ t.regs = u.regs)) ∧ s.keepsParts t [.sent, .zid, .ptp])
  ∧ (∀ s : State, s.supplied → ∃ t, exec .holdExpire s = .next t
      ∧ (let u := s.clearSent.ptpSync
         let due := u.ptpState = 3 ∧ (u.nat Reg.PTP_HOLD : Rat) * 1000000000 ≤ u.ptp.at_ - u.ptp.holdAt
         t.ptpLock = (u.ptpLock && !decide due) ∧ t.ptp = u.ptp ∧ (due → u.ptpLock = true → t.bit Reg.PTP_STAT 2 = true))
      ∧ s.keepsParts t [.sent, .lap, .zid, .ptp])
  ∧ (∀ (src : Src) (on : Bool) (s : State), s.supplied → s.grants src Reg.PTP_CTRL ((s.rd Reg.PTP_CTRL &&& 0xE#32) ||| BitVec.ofNat 32 on.toNat) →
      ∃ t, exec (.ptpEn src on) s = .next t ∧ t.answer.status = .ok ∧ t.bit Reg.PTP_CTRL 0 = on
        ∧ ((on = false ∨ s.bit Reg.PTP_CTRL 1 = true) → t.ptpState = 0)
        ∧ (on = true → s.bit Reg.PTP_CTRL 1 = false → s.ptpState = 0 → (s.dom 0).qual = false → (s.dom 1).qual = false → t.ptpState = 1)
        ∧ s.keepsParts t (.lap :: .zid :: .ptp :: hostParts))
  ∧ (∀ (src : Src) (on : Bool) (s : State), s.supplied →
      s.grants src Reg.PTP_CTRL ((s.rd Reg.PTP_CTRL &&& 0xD#32) ||| BitVec.ofNat 32 (on.toNat * 2)) →
      ∃ t, exec (.freerun src on) s = .next t ∧ t.answer.status = .ok ∧ t.bit Reg.PTP_CTRL 1 = on
        ∧ ((on = true ∨ s.bit Reg.PTP_CTRL 0 = false) → t.ptpState = 0)
        ∧ (on = false → s.bit Reg.PTP_CTRL 0 = true → s.ptpState = 0 → (s.dom 0).qual = false → (s.dom 1).qual = false → t.ptpState = 1)
        ∧ s.keepsParts t (.lap :: .zid :: .ptp :: hostParts))
  ∧ (∀ (src : Src) (s : State), s.supplied → s.grants src Reg.PTP_CTRL ((s.rd Reg.PTP_CTRL &&& 0xF#32) ||| 0x10#32) →
      s.bit Reg.PTP_CTRL 0 = true → s.bit Reg.PTP_CTRL 1 = false →
      ∃ t, exec (.reacq src) s = .next t ∧ t.answer.status = .ok
        ∧ ((s.dom 0).qual = false → (s.dom 1).qual = false → t.ptpState = 1 ∧ t.ptpLock = false)
        ∧ ((s.dom s.pref).qual = true → t.leads s.pref = true
            ∧ t.ptp.clk = ptpWrap ((s.clearSent.ptpSync).ptp.clk - s.lastOfs s.pref))
        ∧ s.keepsParts t (.lap :: .zid :: .ptp :: hostParts))
  ∧ (∀ (src : Src) (s : State), s.supplied → s.grants src Reg.PTP_CTRL ((s.rd Reg.PTP_CTRL &&& 0xF#32) ||| 0x20#32) →
      (s.bit Reg.PTP_CTRL 0 = false ∨ s.bit Reg.PTP_CTRL 1 = true) →
      ∃ t, exec (.ptpStep src) s = .next t ∧ t.answer.status = .ok ∧ t.ptpState = 0 ∧ t.bit Reg.PTP_STAT 4 = true
        ∧ t.ptp.clk = ptpWrap (s.clearSent.ptpSync.ptp.clk + (s.int Reg.PTP_STEP_SEC * 1000000000 + s.int Reg.PTP_STEP_NS))
        ∧ (t.rd Reg.PTP_CNT_STEP).toNat = min 0xFFFFFFFF ((s.rd Reg.PTP_CNT_STEP).toNat + 1) ∧ s.keepsParts t (.ptp :: hostParts))
  ∧ (∀ (src : Src) (v : Word) (s : State), s.supplied → s.grants src Reg.PTP_RATE v →
      ∃ t, exec (.rateWrite src v) s = .next t ∧ t.answer.status = .ok ∧ t.int Reg.PTP_RATE = clampInt (-1000000000) 1000000000 v.toInt
        ∧ t.ptp = s.clearSent.ptpSync.ptp ∧ s.keepsParts t (.ptp :: hostParts))
  ∧ (∀ (src : Src) (d : Fin 2) (v : Word) (s : State), s.supplied → s.grants src (Reg.PTP_DOM_d_CFG d.val) v →
      ∃ t, exec (.domCfgWrite src d v) s = .next t ∧ t.answer.status = .ok ∧ t.fld (Reg.PTP_DOM_d_CFG d.val) 0 11 = bitsOf v 0 11
        ∧ t.fld (Reg.PTP_DOM_d_CFG d.val) 16 8 = bitsOf v 16 8
        ∧ t.dom d.val = (if bitsOf v 0 9 = s.fld (Reg.PTP_DOM_d_CFG d.val) 0 9 then s.dom d.val else freshDomain)
        ∧ t.dom (otherDom d.val) = s.dom (otherDom d.val) ∧ s.keepsParts t (.ptp :: hostParts))
  ∧ ∀ (src : Src) (s : State), s.supplied → ∃ t, exec (.nowRead src) s = .next t ∧ t.answer.status = .ok
      ∧ (let u := s.clearSent.ptpSync
         t.answer.data = [BitVec.ofNat 32 (u.ptp.clk.floor.toNat % 1000000000)]
         ∧ t.rd Reg.PTP_NOW_SEC_LO = BitVec.ofNat 32 (u.ptp.clk.floor.toNat / 1000000000)
         ∧ t.rd Reg.PTP_NOW_SEC_HI = BitVec.ofNat 32 (u.ptp.clk.floor.toNat / 1000000000 / 2 ^ 32 % 2 ^ 16)
         ∧ t.ptp = u.ptp ∧ u.keepsRegs t ([Reg.PTP_NOW_NS, Reg.PTP_NOW_SEC_LO, Reg.PTP_NOW_SEC_HI, Reg.PTP_NOW_FRAC] ++ hostRegs))
      ∧ s.keepsParts t [.answer, .sent, .hwp, .ptp]

/-- Request checks 1 to 3 and what a refused request leaves. A datagram at the request port that an up HWP port takes is
answered LENGTH when it is too short, COUNT is 0 or above 352, or its length is not 48 + 4 COUNT; else RANGE when a header
field is bad; else BUSY at the limit of 64. The answer is one frame with MACVALID 0, MAC 0 and no data; CNT_REFUSE and the
row's counter rise by one, the row's bit of STAT is set and LASTREFUSE records it; no request is taken up and no other
component changes. INJ.MACCHK and INJ.FULL at 0. (R370, R371, R380, R381, spec/15_host_window_protocol.md.) -/
def Obligations.RequestChecks : Prop :=
  ∀ (b : List Byte) (port : Fin 3) (ip : Word) (udp : BitVec 16) (s : State), s.supplied → (s.clearSent.ethAccept port.val).2 = true →
    s.hwpOn port.val = true → s.rd Reg.HWP_INJ = 0#32 →
    (let n := reqNum b 6 2
     let op := reqNum b 1 1
     let badLength := b.length < 48 ∨ n = 0 ∨ 352 < n ∨ b.length ≠ 48 + 4 * n
     let badForm := reqNum b 0 1 ≠ 1 ∨ op = 0 ∨ 5 < op ∨ reqNum b 5 1 ≠ 0 ∨ reqNum b 0x14 4 ≠ 0 ∨ reqNum b 0x0F 1 ≠ 0
        ∨ (op = 3 ∧ n % 2 = 1) ∨ (op = 5 ∧ n ≠ 1)
     let full := 64 ≤ s.hwp.taken ∨ 64 ≤ s.hwp.queue.length + s.hwp.held.length
     (badLength ∨ badForm ∨ full) →
     ∃ t, exec (.hwpRequest b port ip udp) s = .next t
       ∧ t.answer.status = (if badLength then Status.length else if badForm then Status.range else Status.busy) ∧ t.answer.data = []
       ∧ t.hwp = s.hwp
       ∧ (let k := if badLength then (1, Reg.HWP_CNT_LENGTH, 0, 3) else if badForm then (2, Reg.HWP_CNT_RANGE, 1, 2) else (3, Reg.HWP_CNT_BUSY, 2, 4)
          (t.rd k.2.1).toNat = min 0xFFFFFFFF ((s.rd k.2.1).toNat + 1) ∧ t.bit Reg.HWP_STAT k.2.2.1 = true
          ∧ t.fld Reg.HWP_LASTREFUSE 0 4 = k.2.2.2 ∧ t.fld Reg.HWP_LASTREFUSE 4 4 = k.1)
       ∧ (t.rd Reg.HWP_CNT_REFUSE).toNat = min 0xFFFFFFFF ((s.rd Reg.HWP_CNT_REFUSE).toNat + 1)
       ∧ t.fld Reg.HWP_LASTREFUSE 8 8 = op % 256 ∧ t.fld Reg.HWP_LASTREFUSE 24 2 = port.val
       ∧ t.sent.length = 1 ∧ (∀ f ∈ t.sent, f.port = port.val ∧ f.payload.length = 48 ∧ f.payload.drop 32 = List.replicate 16 0#8
            ∧ f.payload.getD 0x14 0#8 = 0#8)
       ∧ s.keepsRegs t ([Reg.HWP_LASTREFUSE, Reg.HWP_CNT_REFUSE, Reg.HWP_CNT_LENGTH, Reg.HWP_CNT_RANGE, Reg.HWP_CNT_BUSY, Reg.HWP_STAT,
            Reg.HWP_IRQ] ++ pinRegs)
       ∧ s.keepsParts t [.answer, .sent, .zid, .eth, .used])

/-- Request check 4: a new request, a repeat, or AUTH. A request that passes checks 1 to 3, whose MAC verifies under its
slot's key and whose BOOT is the module's, is taken up when its REQSEQ is newer than the slot's last accepted one, which it
becomes; when it is equal, the stored response is sent again, or while the first waits the repeat is held; otherwise it is
answered AUTH, with nothing taken up, as it is when the MAC does not verify, no such key is held or BOOT differs. INJ.MACCHK
and INJ.FULL at 0. (R372, R380, R381, R382, R383, spec/15_host_window_protocol.md.) -/
def Obligations.RequestTakeUp : Prop :=
  ∀ (b : List Byte) (port : Fin 3) (ip : Word) (udp : BitVec 16) (s : State), s.supplied → (s.clearSent.ethAccept port.val).2 = true →
    s.hwpOn port.val = true → s.rd Reg.HWP_INJ = 0#32 → reqLengthBad b = false → reqFormBad b = false → s.hwpFull = false →
    ∃ t, exec (.hwpRequest b port ip udp) s = .next t
      ∧ (let r := reqOf b port.val ip udp.toNat
         let last := s.rd (Reg.HWP_SLOT_k_SEQ r.slot)
         let auth := s.macUnder engHwp r.slot (b.take (b.length - 16)) = some (b.drop (b.length - 16)) ∧ reqNum b 0x0C 3 = s.bootCount
         let newer := newerSeq 32 r.seq.toNat last.toNat = true
         let waits := (s.hwp.queue.any (fun q => q.slot == r.slot && q.seq == r.seq)) = true
         let stored := s.hwp.stored.find? (fun x => x.slot == r.slot && x.seq == r.seq)
         (auth → newer → t.hwp = { s.hwp with taken := s.hwp.taken + 1, queue := s.hwp.queue ++ [{ r with epoch := s.readableEpoch, key := (s.engineKey engHwp r.slot).getD [] }] }
            ∧ t.rd (Reg.HWP_SLOT_k_SEQ r.slot) = r.seq ∧ t.sent = [] ∧ s.keepsRegs t [Reg.HWP_SLOT_k_SEQ r.slot]
            ∧ s.keepsParts t [.sent, .hwp, .eth, .used])
         ∧ (∀ x, stored = some x → auth → ¬ newer → r.seq = last →
              t.sent = [⟨.response, port.val, ip.toNat, udp.toNat, x.bytes⟩] ∧ t.hwp = s.hwp
              ∧ (t.rd Reg.HWP_CNT_RESEND).toNat = min 0xFFFFFFFF ((s.rd Reg.HWP_CNT_RESEND).toNat + 1)
              ∧ s.keepsRegs t [Reg.HWP_CNT_RESEND, Reg.HWP_STAT] ∧ s.keepsParts t [.sent, .eth, .used])
         ∧ (auth → ¬ newer → r.seq = last → stored = none → waits →
              t.hwp = { s.hwp with held := s.hwp.held ++ [(r.slot, port.val, ip, udp.toNat)] } ∧ t.sent = [] ∧ t.regs = s.regs
              ∧ s.keepsParts t [.sent, .hwp, .eth, .used])
         ∧ ((¬ auth ∨ (¬ newer ∧ (r.seq ≠ last ∨ (stored = none ∧ ¬ waits)))) →
              t.answer.status = .auth ∧ t.hwp = s.hwp
              ∧ (t.rd Reg.HWP_CNT_AUTH).toNat = min 0xFFFFFFFF ((s.rd Reg.HWP_CNT_AUTH).toNat + 1) ∧ t.bit Reg.HWP_STAT 3 = true
              ∧ (t.rd Reg.HWP_CNT_REFUSE).toNat = min 0xFFFFFFFF ((s.rd Reg.HWP_CNT_REFUSE).toNat + 1)
              ∧ s.keepsRegs t ([Reg.HWP_LASTREFUSE, Reg.HWP_CNT_REFUSE, Reg.HWP_CNT_AUTH, Reg.HWP_STAT, Reg.HWP_IRQ] ++ pinRegs)
              ∧ s.keepsParts t [.answer, .sent, .zid, .eth, .used]))

/-- Access to an unassigned address is refused with RANGE. The module refuses an access to an unassigned address, or to an
unpopulated offset within a block window: a write, a listed write or a read of it is answered with RANGE, writes nothing,
returns no data, and increments HWP_CNT_REFUSE and its row's counter. No register but the counters and records of the
refusal changes, and the LOOP block's where the offset lies in its window. (R7.) -/
def Obligations.UnassignedAddressRefused : Prop :=
  ∀ (src : Src) (a v : Word) (sel : BitVec 64) (s : State), s.supplied → inNvWindow a.toNat = false → inSettWindow a.toNat = false →
    populated a.toNat = false →
    (∃ t, exec (.registerWrite src a v) s = .next t ∧ t.answer.status = .range ∧ t.answer.data = []
      ∧ (t.rd Reg.HWP_CNT_REFUSE).toNat = min 0xFFFFFFFF ((s.rd Reg.HWP_CNT_REFUSE).toNat + 1)
      ∧ s.keepsRegs t ([Reg.LOOP_CNT_REFUSE, Reg.LOOP_STAT, Reg.LOOP_IRQ] ++ refuseRegs) ∧ s.keepsParts t refuseParts)
    ∧ (∃ t, exec (.writelist src [(a, v)] none) s = .next t ∧ t.answer.status = .range ∧ t.answer.data = [] ∧ t.answer.info = 0#32
      ∧ (t.rd Reg.HWP_CNT_REFUSE).toNat = min 0xFFFFFFFF ((s.rd Reg.HWP_CNT_REFUSE).toNat + 1)
      ∧ s.keepsRegs t ([Reg.LOOP_CNT_REFUSE, Reg.LOOP_STAT, Reg.LOOP_IRQ] ++ refuseRegs) ∧ s.keepsParts t refuseParts)
    ∧ ∃ t, exec (.read src a 1#16 sel) s = .next t ∧ t.answer.status = .range ∧ t.answer.data = []
      ∧ (t.rd Reg.HWP_CNT_REFUSE).toNat = min 0xFFFFFFFF ((s.rd Reg.HWP_CNT_REFUSE).toNat + 1)
      ∧ s.keepsRegs t refuseRegs ∧ s.keepsParts t refuseParts

/-- Every word of a write is checked before any is written. A WRITE in one window or a WRITELIST with a refused word answers
the status of the first refused word, in request order, with its index as INFO, and the words before it are not written:
every register of the words keeps its value (but for the counters and records that a refusal changes), and no component but
the request's own, the write set's POISON, the wrong attempts of a password and the events changes. The first refused word
is found with the words before it taken as written. (R374, R380, R88, spec/15_host_window_protocol.md.) -/
def Obligations.WordsCheckedFirst : Prop :=
  ∀ (src : Src) (l : List (Word × Word)) (drop : Option Nat) (s : State), s.supplied →
    ∀ r, s.clearSent.scanWords src.slot.val (l.map (fun e => (e.1.toNat, e.2))) 0 = some r →
      ∃ t, exec (.writelist src l drop) s = .next t ∧ t.answer.status = r.2.2.2.1 ∧ t.answer.info = BitVec.ofNat 32 r.1
        ∧ (∃ w, l[r.1]? = some w ∧ w.1.toNat = r.2.1 ∧ w.2 = r.2.2.1)
        ∧ (t.rd Reg.HWP_CNT_REFUSE).toNat = min 0xFFFFFFFF ((s.rd Reg.HWP_CNT_REFUSE).toNat + 1)
        ∧ (t.rd Reg.HWP_CNT_OPREF).toNat = min 0xFFFFFFFF ((s.rd Reg.HWP_CNT_OPREF).toNat + 1)
        ∧ (∀ w ∈ l, hasAcc .rw w.1.toNat = true → w.1.toNat ≠ Reg.ZID_FAULT_CTRL → blockOf w.1.toNat ≠ some .nvs → blockOf w.1.toNat ≠ some .rtc →
            (∀ f ∈ fieldsAt w.1.toNat, f.acc = .rw → f.get (t.rd w.1.toNat) = f.get (s.rd w.1.toNat)) ∨ w.1.toNat ∈ injAddrs)
        ∧ t.nv.user = s.nv.user ∧ t.nv.sram = s.nv.sram
        ∧ s.keepsParts t [.answer, .sent, .hwp, .zid, .sett, .nv, .spr]

/-- A write of a register: each field by its access code. A granted write of a register of the FAB, AIN, HWP, PWR, SPR, MTR,
BOOT or LAP block that no command of its own names, with no staged field, is answered OK: its RW fields take the value
written, its W1C bits written with 1 clear, and its other fields stay; as REGISTER_WRITE, as WRITE of one word and as
WRITELIST of one pair alike. A granted write of a staged field leaves the register as it is: it joins the open write set of
its requester, or forms a set of its own that the request's end seals. (R4, R84, R85, R87, R375, spec/00_scope.md.) -/
def Obligations.RegisterWrite : Prop :=
  (∀ (src : Src) (a v : Word) (s : State), s.supplied →
    blockOf a.toNat ∈ [some Blk.fab, some .ain, some .hwp, some .pwr, some .spr, some .mtr, some .boot, some .lap] →
    a.toNat ∉ [Reg.SPR_FW_CTRL, Reg.MTR_SNAP_CTRL, Reg.BOOT_CTRL, Reg.LAP_SRC_CTRL] → hasAcc .rws a.toNat = false →
    s.grants src a.toNat v → ∀ c ∈ [Instr.registerWrite src a v, .write src a [v] none, .writelist src [(a, v)] none],
    ∃ t, exec c s = .next t ∧ t.answer.status = .ok
      ∧ (∀ f ∈ fieldsAt a.toNat, a.toNat ∉ hostRegs → f.get (t.rd a.toNat) = (match f.acc with
            | .rw => f.get v
            | .w1c => f.get (s.rd a.toNat &&& ~~~ v)
            | _ => f.get (s.rd a.toNat)))
      ∧ s.keepsRegs t (a.toNat :: hostRegs) ∧ s.keepsParts t hostParts)
  ∧ (∀ (src : Src) (a v : Word) (s : State), s.supplied → hasAcc .rws a.toNat = true → s.grants src a.toNat v →
      ∃ t, exec (.registerWrite src a v) s = .next t ∧ t.answer.status = .ok
        ∧ (∀ w, s.sett.ws = some w → t.sett = { s.sett with ws := some { w with entries := wsEnter w.entries a.toNat v } })
        ∧ (s.sett.ws = none → t.rd Reg.SETT_WS_SEQ = s.rd Reg.SETT_WS_SEQ + 1#32
            ∧ (t.sett.ws.map (fun w => (w.sealed, w.owner, w.entries, w.target))) = some (true, src.slot.val, [(a.toNat, v)], s.sealTarget))
        ∧ s.keepsRegs t (Reg.SETT_WS_SEQ :: hostRegs) ∧ s.keepsParts t hostParts)

/-- Reads of registers and of the sett window. A READ of one populated register outside the calendar answers OK with the
newest readable epoch and the register's value, WO fields and reserved bits 0; its RC fields clear, and the upper halves
latch. EPOCH_LO_READ answers the low word of the readable epoch and latches its high word. A READ within the sett answers
the bytes of the sett that the selector names, with its epoch, and clears nothing; with no such sett it is answered RANGE,
STALE_EPOCH or BUSY, and NOIMG with no image. (R4, R76, R80, R81, R82, R377, spec/15_host_window_protocol.md,
spec/03_sett_coherent_state.md.) -/
def Obligations.Reads : Prop :=
  (∀ (src : Src) (a : Word) (sel : BitVec 64) (s : State), s.supplied → inNvWindow a.toNat = false → inSettWindow a.toNat = false →
    s.missing a.toNat = false → blockOf a.toNat ∉ [some Blk.rtc, some .ptp, some .mtr] →
    ∃ t, exec (.read src a 1#16 sel) s = .next t ∧ t.answer.status = .ok ∧ t.answer.epoch = s.readableEpoch
      ∧ t.answer.data = [s.liveValue a.toNat]
      ∧ (∀ f ∈ fieldsAt a.toNat, f.acc = .rc → f.get (t.rd a.toNat) = 0)
      ∧ s.keepsRegs t ([a.toNat, Reg.LAP_COUNT_HI, Reg.SETT_EPOCH_HI] ++ hostRegs) ∧ s.keepsParts t [.answer, .sent, .hwp])
  ∧ (∀ (src : Src) (s : State), s.supplied → ∃ t, exec (.epochLoRead src) s = .next t ∧ t.answer.status = .ok
      ∧ t.answer.data = [BitVec.ofNat 32 s.readableEpoch] ∧ t.rd Reg.SETT_EPOCH_HI = BitVec.ofNat 32 (s.readableEpoch / 2 ^ 32)
      ∧ s.keepsRegs t (Reg.SETT_EPOCH_HI :: hostRegs) ∧ s.keepsParts t [.answer, .sent, .hwp])
  ∧ ∀ (src : Src) (a : Word) (n : BitVec 16) (sel : BitVec 64) (s : State), s.supplied → inSettWindow a.toNat = true → a.toNat % 4 = 0 →
      ∃ t, exec (.read src a n sel) s = .next t
        ∧ (s.imgRuns = false → t.answer.status = .noimg)
        ∧ (s.imgRuns = true → s.fld Reg.SETT_SIZE 0 25 < a.toNat - 0x10000000 + 4 * n.toNat → t.answer.status = .range)
        ∧ (s.imgRuns = true → a.toNat - 0x10000000 + 4 * n.toNat ≤ s.fld Reg.SETT_SIZE 0 25 →
            (s.sett.held = [] → t.answer.status = .busy)
            ∧ (∀ f, (if sel = 0 then s.sett.held.head? else s.sett.held.find? (fun f => f.epoch == sel.toNat)) = some f →
                t.answer.status = .ok ∧ t.answer.epoch = f.epoch
                ∧ t.answer.data = (List.range n.toNat).map (fun i => BitVec.ofNat 32 (leAt (tabGet 0#8 f.bytes) (a.toNat - 0x10000000 + 4 * i) 4))
                ∧ s.keepsRegs t hostRegs)
            ∧ (∀ f, s.sett.held.head? = some f → sel ≠ 0 → s.sett.held.find? (fun f => f.epoch == sel.toNat) = none →
                t.answer.status = (if f.epoch < sel.toNat then .range else .staleEpoch) ∧ t.answer.data = []
                ∧ (sel.toNat ≤ f.epoch →
                    (t.rd Reg.SETT_CNT_STALE).toNat = min 0xFFFFFFFF ((s.rd Reg.SETT_CNT_STALE).toNat + 1) ∧ t.bit Reg.SETT_STAT 1 = true)))
        ∧ t.sett = s.sett

/-- LOAD of image words and PUBLISH of a write set. A LOAD in a load (STATE LOADING), at a multiple of 4, of 1 to 352 words
that end within LEN, puts the words into the staging buffer, adds their bytes to RCVD and answers OK with RCVD; outside a
load it is LOCKED, otherwise LENGTH, the buffer stays and CHUNK_REFUSE counts. PUBLISH of the requester's open set by its
SEQ seals it and answers OK with the low word of its target epoch; otherwise it is answered LOCKED, or NOIMG while no image
runs, and nothing is sealed. (R31, R32, R378, R379, R89, spec/15_host_window_protocol.md, spec/01_network_image.md.) -/
def Obligations.LoadAndPublish : Prop :=
  (∀ (src : Src) (off : Word) (data : List Word) (s : State), s.supplied →
    ∃ t, exec (.load src off data none) s = .next t
      ∧ (let good := off.toNat % 4 = 0 ∧ data ≠ [] ∧ data.length ≤ 352 ∧ off.toNat + 4 * data.length ≤ s.fld Reg.IMG_LOAD_LEN 0 25
         (s.loadState = 1 → good → t.answer.status = .ok ∧ t.rd Reg.IMG_LOAD_RCVD = s.rd Reg.IMG_LOAD_RCVD + BitVec.ofNat 32 (4 * data.length)
            ∧ t.answer.info = t.rd Reg.IMG_LOAD_RCVD ∧ bytesAt (tabGet 0#8 t.img.staging) off.toNat (4 * data.length) = bytesOfWords data
            ∧ (∀ x, (x < off.toNat ∨ off.toNat + 4 * data.length ≤ x) → tabGet 0#8 t.img.staging x = tabGet 0#8 s.img.staging x)
            ∧ s.keepsRegs t (Reg.IMG_LOAD_RCVD :: hostRegs))
         ∧ ((s.loadState ≠ 1 ∨ ¬ good) → t.answer.status = (if s.loadState = 1 then .length else .locked) ∧ t.img = s.img
            ∧ (t.rd Reg.IMG_CNT_CHUNK_REFUSE).toNat = min 0xFFFFFFFF ((s.rd Reg.IMG_CNT_CHUNK_REFUSE).toNat + 1)
            ∧ t.bit Reg.IMG_IRQ 2 = true ∧ s.keepsRegs t (Reg.IMG_CNT_CHUNK_REFUSE :: Reg.IMG_IRQ :: refuseRegs)))
      ∧ s.keepsParts t [.answer, .sent, .img, .hwp, .zid])
  ∧ ∀ (src : Src) (seq : Word) (s : State), s.supplied →
      ∃ t, exec (.publish src seq) s = .next t
        ∧ (∀ w, s.sett.ws = some w → s.imgRuns = true → w.sealed = false → w.owner = src.slot.val → s.rd Reg.SETT_WS_SEQ = seq →
            t.answer.status = .ok ∧ t.answer.info = BitVec.ofNat 32 s.sealTarget
            ∧ t.sett.ws = some { w with sealed := true, target := s.sealTarget, poison := w.poison || s.bit Reg.SETT_INJ 1 }
            ∧ t.rd Reg.SETT_WS_TARGET_LO = BitVec.ofNat 32 s.sealTarget ∧ s.keepsRegs t hostRegs)
        ∧ ((s.wsOwns src.slot.val = false ∨ s.rd Reg.SETT_WS_SEQ ≠ seq ∨ s.imgRuns = false) →
            t.answer.status = (if s.imgRuns then .locked else .noimg) ∧ t.sett = s.sett ∧ s.keepsRegs t refuseRegs)
        ∧ s.keepsParts t (.zid :: hostParts)

/-- The levels of INTLK_IN and GRANT_IN, the claim and the right to drive. INTLK_IN_CHANGE and GRANT_IN_CHANGE take the
pin's level, also while the module is off. CLAIM is the latch with GRANT_IN high; a MEMBER drives while it claims and
INTLK_IN is low (R387); when INTLK_IN rises within 64 ticks after the latch was set, contention is flagged and counted and
side B clears its latch (R389). A changed GRANT_IN sets IRQ.GRANT. A takeover sets the latch only 2 ticks after INTLK_IN
fell. Nothing else changes but for CAN buffers whose outputs the fall of DRIVE gates. (R387, R388, R389,
spec/16_pair_operation.md.) -/
def Obligations.PairLevels : Prop :=
  (∀ (level : Bool) (s : State), s.supplied → ∃ t, exec (.intlkInChange level) s = .next t ∧ t.pair.intlkIn = level
      ∧ (let fight := level && !s.pair.intlkIn && s.pair.role = 1 && s.pair.latch && s.now ≤ s.pair.latchAt + 64
         t.pair.latch = (s.pair.latch && !(fight && s.pair.sideB))
         ∧ t.bit Reg.PAIR_STAT 4 = (s.bit Reg.PAIR_STAT 4 || fight)
         ∧ (fight = true → (t.rd Reg.PAIR_CNT_CONTEND).toNat = min 0xFFFFFFFF ((s.rd Reg.PAIR_CNT_CONTEND).toNat + 1)))
      ∧ (t.pair.role = 1 → (t.drive = true ↔ t.claim = true ∧ level = false))
      ∧ s.keepsRegs t [Reg.PAIR_STAT, Reg.PAIR_CNT_CONTEND] ∧ s.keepsParts t [.sent, .pair])
  ∧ (∀ (level : Bool) (s : State), s.supplied → ∃ t, exec (.grantInChange level) s = .next t ∧ t.pair.grantIn = level
      ∧ (level ≠ s.pair.grantIn → t.bit Reg.PAIR_IRQ 3 = true ∧ t.pair.grantAt = s.now)
      ∧ (level = s.pair.grantIn → t.pair = s.pair ∧ t.regs = s.regs)
      ∧ t.claim = (s.pair.latch && level && !s.pfailed)
      ∧ s.keepsRegs t (Reg.PAIR_IRQ :: pinRegs) ∧ s.keepsParts t [.sent, .zid, .pair])
  ∧ (∀ (level : Bool) (s : State), s.boot.phase = Phase.off →
      (∃ t, exec (.intlkInChange level) s = .next t ∧ t.pair = { s.pair with intlkIn := level } ∧ t.regs = s.regs ∧ s.keepsParts t [.pair])
      ∧ ∃ t, exec (.grantInChange level) s = .next t ∧ t.pair = { s.pair with grantIn := level } ∧ t.regs = s.regs ∧ s.keepsParts t [.pair])
  ∧ ∀ s : State, s.setLatch.pair.latch = (s.pair.latch || (!s.pair.intlkIn && s.pair.intlkAt + 2 ≤ s.now))

/-- What a member hears from and sends to the Owl. A MEMBER's accepted grant message (R392) that is newer, or the first,
takes its side and GRANTSEQ, and restarts the 250 laps; one that fails the checks counts OWLDROP and sets STAT.OWLDROP.
OWL_LOST sets STAT.OWLLOST exactly when 250 laps have passed since an accepted one. HEARTBEAT sends, in every HB-th lap, the
message of Table 3 over the ports of ETHPORTS with HBSEQ one greater, and in another lap nothing. No other register or
component changes. (R391, R392, spec/16_pair_operation.md.) -/
def Obligations.PairOwl : Prop :=
  (∀ (port : Fin 3) (m : List Byte) (s : State), s.supplied → port.val ≠ 2 → (s.clearSent.ethAccept port.val).2 = true → s.pair.role = 1 →
    ∃ t, exec (.grantMessage port m) s = .next t
      ∧ (let seq := msgNum m 8 4
         let mine := s.nat Reg.PAIR_GRANTSEQ
         let good := s.owlGood m 0x12 && (newerSeq 32 seq mine || seq == mine)
         (good = true → t.pair.owlLap = s.lap.count ∧ t.rd Reg.PAIR_CNT_OWLDROP = s.rd Reg.PAIR_CNT_OWLDROP
            ∧ ((newerSeq 32 seq mine || s.pair.grantSide.isNone) = true →
                t.pair.grantSide = some (msgNum m 4 1) ∧ t.nat Reg.PAIR_GRANTSEQ = seq % 2 ^ 32)
            ∧ ((newerSeq 32 seq mine || s.pair.grantSide.isNone) = false →
                t.pair.grantSide = s.pair.grantSide ∧ t.rd Reg.PAIR_GRANTSEQ = s.rd Reg.PAIR_GRANTSEQ))
         ∧ (good = false → t.pair = s.pair ∧ t.rd Reg.PAIR_GRANTSEQ = s.rd Reg.PAIR_GRANTSEQ ∧ t.bit Reg.PAIR_STAT 6 = true
            ∧ (t.rd Reg.PAIR_CNT_OWLDROP).toNat = min 0xFFFFFFFF ((s.rd Reg.PAIR_CNT_OWLDROP).toNat + 1)))
      ∧ s.keepsRegs t [Reg.PAIR_GRANTSEQ, Reg.PAIR_CNT_OWLDROP, Reg.PAIR_STAT, Reg.PAIR_INJ, Reg.ZID_CNT_INJ]
      ∧ s.keepsParts t [.sent, .zid, .pair, .eth])
  ∧ (∀ s : State, s.supplied → ∃ t, exec .owlLost s = .next t
      ∧ t.bit Reg.PAIR_STAT 7 = (s.bit Reg.PAIR_STAT 7 || (s.pair.role == 1 && decide (s.pair.owlLap + 250 ≤ s.lap.count)))
      ∧ s.keepsRegs t [Reg.PAIR_STAT] ∧ s.keepsParts t [.sent])
  ∧ ∀ s : State, s.supplied → ∃ t, exec .heartbeat s = .next t ∧ t.regs = s.regs
      ∧ (s.lap.count % max 1 (s.fld Reg.PAIR_TIMING 0 8) ≠ 0 → t.sent = [] ∧ t.pair = s.pair)
      ∧ (s.lap.count % max 1 (s.fld Reg.PAIR_TIMING 0 8) = 0 → s.pair.role = 1 →
          let u := { s with pair := { s.pair with hbSeq := s.pair.hbSeq + 1 } }
          ∀ m, u.heartbeatMsg = some m → t.pair = u.pair
            ∧ t.sent = s.owlPorts.map (fun p => ⟨.heartbeat, p, s.nat Reg.PAIR_OWL, s.fld Reg.PAIR_PORTS 0 16, m⟩)
            ∧ m.length = 48 ∧ m.take 2 = [0x01#8, 0x11#8] ∧ msgNum m 8 4 = (s.pair.hbSeq + 1).toNat ∧ msgNum m 5 1 = s.pairState)
      ∧ s.keepsParts t [.sent, .pair, .used]

/-- Joining a pair: the checks, the bulk copy and eight units. JOIN by a host, or AUTOJOIN, of a MEMBER in OUT with a
partner that is ACTIVE begins a join when the checks of Table 6 pass: STATE JOINING, PHASE 2, no unit counted; else STATE
OUT with the CAUSE of the first failing check, counted and flagged. BULK_DONE in that phase takes the copied warm bytes,
never lowers tally 0, and goes to PHASE 3. Eight units in a row then make a STANDBY with SYNC. HANDOVER on sets the request;
AUTOJOIN as written stays. (R402, R403, R391, spec/16_pair_operation.md.) -/
def Obligations.PairJoin : Prop :=
  (∀ (src : Src) (p : Partner) (s : State), s.supplied → s.pairState = 1 → s.boot.noJoin = false → p.active = true →
    s.grants src Reg.PAIR_CTRL ((s.rd Reg.PAIR_CTRL &&& 0x100#32) ||| 1#32) →
    ∃ t, exec (.join src (some p)) s = .next t ∧ t.answer.status = .ok
      ∧ (s.joinCause p = 0 → t.pairState = 2 ∧ t.fld Reg.PAIR_STATE 16 2 = 2 ∧ t.rd Reg.PAIR_BULK = 0#32 ∧ t.pair.joined = 0
          ∧ t.pair.partnerEpoch = p.epoch.toNat ∧ t.bit Reg.PAIR_IRQ 0 = true)
      ∧ (s.joinCause p ≠ 0 → t.pairState = 1 ∧ t.fld Reg.PAIR_STATE 24 3 = s.joinCause p ∧ t.bit Reg.PAIR_STAT 5 = true
          ∧ (t.rd Reg.PAIR_CNT_JOINFAIL).toNat = min 0xFFFFFFFF ((s.rd Reg.PAIR_CNT_JOINFAIL).toNat + 1))
      ∧ s.keepsRegs t ([Reg.PAIR_CTRL, Reg.PAIR_STATE, Reg.PAIR_BULK, Reg.PAIR_IRQ, Reg.PAIR_STAT, Reg.PAIR_CNT_JOINFAIL] ++ hostRegs ++ pinRegs)
      ∧ s.keepsParts t (.pair :: .zid :: hostParts))
  ∧ (∀ (p : Partner) (s : State), s.supplied → s.bit Reg.PAIR_CTRL 8 = true → s.pairState = 1 → s.boot.noJoin = false → p.active = true →
      ∃ t, exec (.autojoin p) s = .next t ∧ t.pair.partner = some p ∧ t.bit Reg.PAIR_STATE 5 = true
        ∧ (s.joinCause p = 0 → t.pairState = 2 ∧ t.fld Reg.PAIR_STATE 16 2 = 2 ∧ t.pair.joined = 0)
        ∧ (s.joinCause p ≠ 0 → t.pairState = 1 ∧ t.fld Reg.PAIR_STATE 24 3 = s.joinCause p ∧ t.bit Reg.PAIR_STAT 5 = true)
        ∧ s.keepsParts t [.sent, .zid, .pair])
  ∧ (∀ (p : Partner) (s : State), s.supplied → (s.bit Reg.PAIR_CTRL 8 = false ∨ s.pairState ≠ 1 ∨ p.active = false) →
      ∃ t, exec (.autojoin p) s = .next t ∧ t.regs = s.regs ∧ s.keepsParts t [.sent])
  ∧ (∀ (warm user : List (Nat × Byte)) (n : Word) (s : State), s.supplied → s.pairState = 2 → s.fld Reg.PAIR_STATE 16 2 = 2 →
      s.pfailed = false →
      ∃ t, exec (.bulkDone warm user n) s = .next t ∧ t.pairState = 2 ∧ t.fld Reg.PAIR_STATE 16 2 = 3 ∧ t.pair.joined = 0
        ∧ (s.frozen = false → ∀ a v, warm = [(a, v)] → a < 0x100000 → tabGet 0#8 t.nv.sram a = v)
        ∧ (t.tallyV 0).toNat = max (s.tallyV 0).toNat n.toNat
        ∧ s.keepsParts t [.sent, .nv, .zid, .pair, .mtr, .used])
  ∧ (∀ (u : MirrorUnit) (late : BitVec 8) (s : State), s.supplied → s.pairState = 2 → s.fld Reg.PAIR_STATE 16 2 = 3 → s.pfailed = false →
      s.bit Reg.PAIR_INJ 0 = false →
      ∃ t, exec (.mirrorUnit u true true late) s = .next t ∧ t.pair.joined = s.pair.joined + 1 ∧ t.pair.last = some u
        ∧ t.sent = [⟨.mirrorAck, 3, 0, 0, leBytes 8 u.epoch.toNat⟩] ∧ t.bit Reg.PAIR_STATE 5 = true
        ∧ t.pairState = (if s.pair.joined = 7 then 3 else 2) ∧ (s.pair.joined = 7 → t.pairSync = true ∧ t.bit Reg.PAIR_IRQ 4 = true))
  ∧ ∀ (src : Src) (on : Bool) (s : State), s.supplied → s.grants src Reg.PAIR_CTRL ((s.rd Reg.PAIR_CTRL &&& 0x100#32) ||| BitVec.ofNat 32 (on.toNat * 2)) →
      ∃ t, exec (.handover src on) s = .next t ∧ t.answer.status = .ok ∧ t.pair = { s.pair with handover := on || s.pair.handover }
        ∧ t.bit Reg.PAIR_CTRL 8 = s.bit Reg.PAIR_CTRL 8 ∧ s.keepsRegs t (Reg.PAIR_CTRL :: hostRegs) ∧ s.keepsParts t (.pair :: hostParts)

/-- A standby's units, dispatch state, link and synchronisation. At a STANDBY a whole unit with a good CMAC is acknowledged
and its sett is readable as MIRRORED; one not whole or with a bad CMAC counts UNITDROP, sets STAT.UNITDROP and restarts the
run of units, and the store, program and setts stay. A whole DISPATCH_STATE takes force at once, another not at all.
LINK_TIMEOUT brings LINK down. SYNC_LOSS drops SYNC, counts and, under AUTOJOIN, leaves STANDBY. An acknowledgement at the
ACTIVE raises the acknowledged epoch and takes PSYNC. (R96, R399, R400, R401, spec/16_pair_operation.md.) -/
def Obligations.PairSynchronisation : Prop :=
  (∀ (u : MirrorUnit) (late : BitVec 8) (s : State), s.supplied → s.isStandby = true → s.pfailed = false → s.bit Reg.PAIR_INJ 0 = false →
    ∃ t, exec (.mirrorUnit u true true late) s = .next t ∧ t.pair.last = some u ∧ t.sett.epoch = u.epoch.toNat
      ∧ t.rd Reg.PAIR_MIRROR_LO = BitVec.ofNat 32 u.epoch.toNat ∧ t.sett.held.head? = some (mirroredSett u.epoch.toNat u.sett)
      ∧ (t.tallyV 0).toNat = max (s.tallyV 0).toNat u.epochTally.toNat)
  ∧ (∀ (u : MirrorUnit) (whole macOk : Bool) (late : BitVec 8) (s : State), s.supplied → s.isStandby = true → s.pfailed = false →
      s.bit Reg.PAIR_INJ 0 = false → (whole && macOk) = false →
      ∃ t, exec (.mirrorUnit u whole macOk late) s = .next t ∧ t.sent = [] ∧ t.bit Reg.PAIR_STAT 8 = true
        ∧ (t.rd Reg.PAIR_CNT_UNITDROP).toNat = min 0xFFFFFFFF ((s.rd Reg.PAIR_CNT_UNITDROP).toNat + 1)
        ∧ t.pair = { s.pair with joined := 0 } ∧ s.keepsParts t [.sent, .zid, .pair])
  ∧ (∀ (whole : Bool) (accepted : Option Traj) (toStart : Option Nat) (header setpoints : List Byte) (streams : List (List Word)) (s : State),
      s.supplied → (s.isStandby = true ∨ s.pairState = 2) →
      ∃ t, exec (.dispatchState whole accepted toStart header setpoints streams) s = .next t
        ∧ (whole = false → t.dsp = s.dsp ∧ t.regs = s.regs)
        ∧ (whole = true → t.dsp.accepted = accepted ∧ t.dsp.nextStart = toStart.map (· + s.lap.count) ∧ t.dsp.header = header
            ∧ t.dsp.setpoints = setpoints ∧ t.dsp.streams = streams ∧ t.bit Reg.PAIR_STATE 5 = true)
        ∧ s.keepsRegs t (Reg.PAIR_STATE :: Reg.PAIR_IRQ :: Reg.PAIR_STAT :: Reg.DSP_RES_LAST :: Reg.DSP_RES_CYCLE :: pinRegs)
        ∧ s.keepsParts t [.sent, .lap, .zid, .dsp])
  ∧ (∀ (expired : Bool) (s : State), s.supplied → ∃ t, exec (.linkTimeout expired) s = .next t
      ∧ (let down := expired != s.bit Reg.PAIR_INJ 2
         t.bit Reg.PAIR_STATE 5 = (s.bit Reg.PAIR_STATE 5 && !down)
         ∧ (down = true → s.bit Reg.PAIR_STATE 5 = true → t.bit Reg.PAIR_STAT 3 = true ∧ t.bit Reg.PAIR_IRQ 2 = true))
      ∧ t.bit Reg.PAIR_INJ 2 = false
      ∧ s.keepsRegs t ([Reg.PAIR_STATE, Reg.PAIR_IRQ, Reg.PAIR_STAT, Reg.PAIR_INJ, Reg.ZID_CNT_INJ] ++ pinRegs) ∧ s.keepsParts t [.sent, .zid])
  ∧ (∀ (cause : SyncLoss) (s : State), s.supplied → s.isStandby = true → s.pairSync = true → cause ≠ SyncLoss.aged →
      ∃ t, exec (.syncLoss cause) s = .next t ∧ t.pairSync = false ∧ t.bit Reg.PAIR_STAT 2 = true ∧ t.bit Reg.PAIR_IRQ 1 = true
        ∧ (t.rd Reg.PAIR_CNT_SYNCLOSS).toNat = min 0xFFFFFFFF ((s.rd Reg.PAIR_CNT_SYNCLOSS).toNat + 1)
        ∧ (t.isStandby = true ↔ s.bit Reg.PAIR_CTRL 8 = false) ∧ s.keepsParts t [.sent, .zid, .pair])
  ∧ ∀ (epoch : BitVec 64) (sync : Bool) (s : State), s.supplied → s.pairState = 4 →
      ∃ t, exec (.mirrorAcknowledge epoch sync) s = .next t ∧ t.sett = { s.sett with acked := max s.sett.acked epoch.toNat }
        ∧ t.pairPsync = sync ∧ (s.sett.epoch ≤ epoch.toNat → t.pair.keepWarm = [] ∧ t.pair.keepUser = [])
        ∧ s.keepsRegs t [Reg.PAIR_STATE] ∧ s.keepsParts t [.sent, .sett, .pair]

/-- Entering and leaving the active role. At a lap boundary a MEMBER in OUT, JOINING or STANDBY under the three conditions
of R393 enters ACTIVE: it raises tally 0 and never lowers it, its first commit takes an epoch of at least T times 2^20, SYNC
falls, the latch is set when INTLK_IN has been low for 2 ticks, and TOOK is flagged and counted; under any other condition
nothing changes. A MEMBER in ACTIVE that must leave is OUT, its latch cleared and its write set discarded, flagged and
counted as LOST; else nothing changes. (R393, R394, R395, R404, spec/16_pair_operation.md.) -/
def Obligations.PairActiveRole : Prop :=
  (∀ s : State, s.supplied → s.pfailed = false → s.mayTake = true → (s.pairState = 1 ∨ s.pairState = 2 ∨ s.pairState = 3) →
    ∃ t, exec .takeActive s = .next t ∧ t.pairState = 4 ∧ t.pairSync = false
      ∧ t.pair.latch = (s.pair.latch || (!s.pair.intlkIn && s.pair.intlkAt + 2 ≤ s.now))
      ∧ ((s.tallyV 0).toNat + 4 < 2 ^ 32 → (s.pairState = 1 ∨ s.pairState = 3) → (t.tallyV 0).toNat = (s.tallyV 0).toNat + 4)
      ∧ (∀ e, t.sett.jumpTo = some e → (t.tallyV 0).toNat * 2 ^ 20 ≤ e)
      ∧ t.bit Reg.PAIR_STAT 0 = true ∧ t.bit Reg.PAIR_IRQ 0 = true
      ∧ (t.rd Reg.PAIR_CNT_TOOK).toNat = min 0xFFFFFFFF ((s.rd Reg.PAIR_CNT_TOOK).toNat + 1)
      ∧ t.pair.handover = false ∧ t.pair.yielded = false)
  ∧ (∀ s : State, s.supplied → (s.pfailed = true ∨ s.mayTake = false ∨ ¬ (s.pairState = 1 ∨ s.pairState = 2 ∨ s.pairState = 3)) →
      ∃ t, exec .takeActive s = .next t ∧ t.regs = s.regs ∧ s.keepsParts t [.sent])
  ∧ (∀ s : State, s.supplied → s.pair.role = 1 → s.pairState = 4 → s.mustLeave = true →
      ∃ t, exec .leaveActive s = .next t ∧ t.pairState = 1 ∧ t.pair.latch = false ∧ t.pair.handover = false ∧ t.claim = false
        ∧ t.drive = false ∧ t.sett.ws = none ∧ t.pair.leftSeq = some (s.rd Reg.PAIR_GRANTSEQ) ∧ t.pairPsync = false
        ∧ t.bit Reg.PAIR_STAT 1 = true
        ∧ (t.rd Reg.PAIR_CNT_LOST).toNat = min 0xFFFFFFFF ((s.rd Reg.PAIR_CNT_LOST).toNat + 1)
        ∧ s.keepsParts t [.sent, .lap, .sett, .zid, .dsp, .pair])
  ∧ ∀ s : State, s.supplied → (s.pair.role ≠ 1 ∨ s.pairState ≠ 4 ∨ s.mustLeave = false) →
      ∃ t, exec .leaveActive s = .next t ∧ t.regs = s.regs ∧ s.keepsParts t [.sent]

/-- The witness: heartbeats heard, a move, and the 5 ms between two grants. A witness keeps what a member's accepted
heartbeat says and restarts that side's age; one that fails the checks counts OWLDROP. GRANT_MOVE, where R397 calls for a
move, lowers both grant lines and keeps the side to grant. GRANT_ASSERT before both lines have been low for 5 ms does
nothing; after it, it raises the new side's line alone, names that side in GRANT, makes GRANTSEQ one greater and ends the
move. An accepted MOVE is noted and nothing else changes. (R390, R392, R397, spec/16_pair_operation.md.) -/
def Obligations.PairWitness : Prop :=
  (∀ (port : Fin 3) (m : List Byte) (s : State), s.supplied → port.val ≠ 2 → (s.clearSent.ethAccept port.val).2 = true → s.pair.role = 2 →
    ∃ t, exec (.witnessHeartbeat port m) s = .next t
      ∧ (let b := msgNum m 4 1 == 1
         let fresh := match s.heard b with
           | none => true
           | some h => h.boot != msgNum m 0x0C 4 || newerSeq 32 (msgNum m 8 4) h.hbSeq.toNat
         let good := s.owlGood m 0x11 && msgNum m 4 1 ≤ 1 && fresh
         (good = true → (t.heard b).map (fun h => (h.hbSeq, h.lap)) = some (BitVec.ofNat 32 (msgNum m 8 4), s.lap.count)
            ∧ t.heardAge b = 0 ∧ t.heard (!b) = s.heard (!b))
         ∧ (good = false → t.pair = s.pair ∧ t.bit Reg.PAIR_STAT 6 = true
            ∧ (t.rd Reg.PAIR_CNT_OWLDROP).toNat = min 0xFFFFFFFF ((s.rd Reg.PAIR_CNT_OWLDROP).toNat + 1)))
      ∧ s.keepsRegs t [Reg.PAIR_CNT_OWLDROP, Reg.PAIR_STAT, Reg.PAIR_INJ, Reg.ZID_CNT_INJ])
  ∧ (∀ s : State, s.supplied → s.pair.role = 2 → s.pair.moveTo = none → ∀ y, s.witnessMove = some y →
      ∃ t, exec .grantMove s = .next t ∧ t.pair.moveTo = some y ∧ t.bit Reg.PAIR_WIT_STATE 4 = false ∧ t.bit Reg.PAIR_WIT_STATE 5 = false
        ∧ ((s.bit Reg.PAIR_WIT_STATE 4 || s.bit Reg.PAIR_WIT_STATE 5) = true → t.pair.lowAt = s.now)
        ∧ s.keepsRegs t [Reg.PAIR_WIT_STATE] ∧ s.keepsParts t [.sent, .pair])
  ∧ (∀ s : State, s.supplied → (s.pair.role ≠ 2 ∨ s.pair.moveTo ≠ none ∨ s.witnessMove = none) →
      ∃ t, exec .grantMove s = .next t ∧ t.regs = s.regs ∧ s.keepsParts t [.sent])
  ∧ (∀ s : State, s.supplied → (s.pair.moveTo = none ∨ s.lowEnough = false) →
      ∃ t, exec .grantAssert s = .next t ∧ t.regs = s.regs ∧ s.keepsParts t [.sent])
  ∧ (∀ s : State, s.supplied → ∀ y, s.pair.moveTo = some y → s.lowEnough = true →
      ∃ t, exec .grantAssert s = .next t ∧ t.pair = { s.pair with moveTo := none } ∧ t.bit Reg.PAIR_WIT_STATE (if y then 5 else 4) = true
        ∧ t.bit Reg.PAIR_WIT_STATE (if y then 4 else 5) = s.bit Reg.PAIR_WIT_STATE (if y then 4 else 5)
        ∧ t.witGranted = some y ∧ t.rd Reg.PAIR_WIT_SEQ = s.rd Reg.PAIR_WIT_SEQ + 1#32
        ∧ s.keepsRegs t [Reg.PAIR_WIT_STATE, Reg.PAIR_WIT_SEQ] ∧ s.keepsParts t [.sent, .pair, .used])
  ∧ ∀ (src : Src) (s : State), s.supplied → s.grants src Reg.PAIR_WIT_CTRL 1#32 →
      ∃ t, exec (.move src) s = .next t ∧ t.answer.status = .ok ∧ t.pair = { s.pair with moveAsked := true }
        ∧ s.keepsRegs t hostRegs ∧ s.keepsParts t (.pair :: hostParts)

/-- The update buffer and the judging of a key-update message. A granted word of KEY_UPD_BUF is kept; UPD_CTRL without EXEC
does nothing. An accepted EXEC zeroes the buffer and sets SLOT from the message. A message that passes every check of Table
4 leaves STATE BUSY, one update in progress that has changed no slot yet, and one increment of tally 2 asked for; one that
fails a check changes no slot and not U, reports its code with STATE IDLE, counts UPDREFUSE, sets STAT.UPDREF and
IRQ.UPDREF. (R416, R417, R418, spec/17_keys.md.) -/
def Obligations.KeyUpdateMessage : Prop :=
  (∀ (src : Src) (w : Fin 32) (value : Word) (s : State), s.supplied → s.grants src (Reg.KEY_UPD_BUF_w w.val) value →
    ∃ t, exec (.updBufWrite src w value) s = .next t ∧ t.answer.status = .ok ∧ t.rd (Reg.KEY_UPD_BUF_w w.val) = value
      ∧ s.keepsRegs t (Reg.KEY_UPD_BUF_w w.val :: hostRegs) ∧ s.keepsParts t hostParts)
  ∧ (∀ (src : Src) (s : State), s.supplied → s.grants src Reg.KEY_UPD_CTRL 0#32 →
      ∃ t, exec (.keyExec src false) s = .next t ∧ t.answer.status = .ok ∧ s.keepsRegs t hostRegs ∧ s.keepsParts t hostParts)
  ∧ ∀ (src : Src) (s : State), s.supplied → s.grants src Reg.KEY_UPD_CTRL 1#32 →
      ∃ t, exec (.keyExec src true) s = .next t ∧ t.answer.status = .ok
        ∧ (∀ w : Fin 32, t.rd (Reg.KEY_UPD_BUF_w w.val) = 0#32)
        ∧ t.fld Reg.KEY_UPD_STAT 16 5 = bitsOf (s.rd (Reg.KEY_UPD_BUF_w 1)) 8 5 ∧ t.key.slots = s.key.slots
        ∧ (let j := s.judgeUpdate s.updBuffer
           (j.code = 0 → t.bit Reg.KEY_UPD_STAT 8 = true ∧ t.nv = { s.nv with tallyJobs := s.nv.tallyJobs ++ [(2, false)] }
              ∧ t.key = { s.key with job := some ⟨bitsOf (s.rd (Reg.KEY_UPD_BUF_w 1)) 8 8, j.record, false, false⟩ }
              ∧ t.rd Reg.KEY_CNT_UPDREFUSE = s.rd Reg.KEY_CNT_UPDREFUSE)
           ∧ (j.code ≠ 0 → t.fld Reg.KEY_UPD_STAT 0 8 = j.code ∧ t.bit Reg.KEY_UPD_STAT 8 = false ∧ t.key = s.key ∧ t.nv = s.nv
              ∧ (t.rd Reg.KEY_CNT_UPDREFUSE).toNat = min 0xFFFFFFFF ((s.rd Reg.KEY_CNT_UPDREFUSE).toNat + 1)
              ∧ t.bit Reg.KEY_STAT 0 = true ∧ t.bit Reg.KEY_IRQ 1 = true))
        ∧ s.keepsRegs t ([Reg.KEY_UPD_STAT, Reg.KEY_CNT_UPDREFUSE, Reg.KEY_STAT, Reg.KEY_IRQ, Reg.KEY_INJ]
            ++ (List.range 32).map Reg.KEY_UPD_BUF_w ++ hostRegs ++ spoorRegs)
        ∧ s.keepsParts t (.key :: .nv :: .spr :: .zid :: hostParts)

/-- The steps of a key update. After its tally increment is durable, the slot record is written into the copy of the slot
with the lower SEQ and verified, at most twice; after a second failure CODE is NVERR, STATE IDLE, KEY_STAT.NVERR is set and
the slot keeps its old key; no other slot changes, and the key in force changes only at a commit after the copy is verified,
where CODE becomes DONE and STATE IDLE. KEY_UPDATE_DONE before the increment has ended completes that first. PAGE_PROGRAM of
the key writer is the same step. Nothing happens without an update. (R418, R420, spec/17_keys.md.) -/
def Obligations.KeyUpdateSteps : Prop :=
  (∀ (rb : ReadBack) (s : State), s.supplied → s.bit Reg.KEY_INJ 1 = false → s.bit Reg.NVS_INJ 0 = false →
    ∀ j, s.key.job = some j → j.counted = true → j.written = false → j.slot < 32 →
    ∃ t, exec (.keyUpdateDone rb) s = .next t ∧ exec (.pageProgram .key rb) s = .next t
      ∧ (let good := rb.first || rb.second
         let copy := if good then some j.record else none
         let x := s.keySlot j.slot
         t.keySlot j.slot = (if x.writesB then { x with copyB := copy } else { x with copyA := copy })
         ∧ (good = true → t.key.job = some { j with written := true } ∧ t.rd Reg.KEY_UPD_STAT = s.rd Reg.KEY_UPD_STAT)
         ∧ (good = false → t.key.job = none ∧ t.fld Reg.KEY_UPD_STAT 0 8 = 0x17 ∧ t.bit Reg.KEY_UPD_STAT 8 = false
            ∧ t.bit Reg.KEY_STAT 1 = true))
      ∧ (∀ k, k ≠ j.slot → t.keySlot k = s.keySlot k)
      ∧ s.keepsRegs t ([Reg.KEY_UPD_STAT, Reg.KEY_STAT, Reg.KEY_INJ, Reg.NVS_CNT_PAGE, Reg.NVS_STAT, Reg.NVS_CNT_VERIFY, Reg.NVS_IRQ,
          Reg.NVS_INJ] ++ pinRegs) ∧ s.keepsParts t [.sent, .zid, .key, .used])
  ∧ (∀ (rb : ReadBack) (s : State), s.supplied → s.bit Reg.NVS_INJ 1 = false → ∀ j, s.key.job = some j → j.counted = false →
      (s.nv.tallyJobs.find? (fun q => q.1 == 2)) = some (2, false) →
      ∃ t, exec (.keyUpdateDone rb) s = .next t ∧ t.tallyV 2 = s.tallyV 2 + 1#32 ∧ t.nv.tallyJobs = s.nv.tallyJobs.erase (2, false)
        ∧ (∀ k, (t.keySlot k).inForce = (s.keySlot k).inForce) ∧ s.keepsParts t [.sent, .img, .nv, .zid, .key, .used])
  ∧ (∀ (rb : ReadBack) (s : State), s.supplied → s.key.job = none →
      ∃ t, exec (.keyUpdateDone rb) s = .next t ∧ t.regs = s.regs ∧ s.keepsParts t [.sent])
  ∧ ∀ s : State, ∀ j, s.key.job = some j → j.slot < 32 →
      (j.written = false → s.keyCommit = s)
      ∧ (j.written = true → (s.keyCommit.keySlot j.slot).inForce = j.record ∧ (∀ k, k ≠ j.slot → s.keyCommit.keySlot k = s.keySlot k)
          ∧ s.keyCommit.key.job = none ∧ s.keyCommit.fld Reg.KEY_UPD_STAT 0 8 = 1 ∧ s.keyCommit.bit Reg.KEY_UPD_STAT 8 = false
          ∧ s.keyCommit.bit Reg.KEY_IRQ 0 = true
          ∧ (s.keyCommit.rd Reg.KEY_CNT_UPD).toNat = min 0xFFFFFFFF ((s.rd Reg.KEY_CNT_UPD).toNat + 1))

/-- The answer to a challenge. A datagram at KEY_CHAL.PORT of an up port whose HWP bit is set, that the port's frame limit
accepts, is answered with 36 bytes as R421 lays them out when it is a challenge, fewer than 4 answers were given in the lap,
EN is 1 and the slot's key has CHAL; the count of the lap rises by one. Otherwise nothing is sent, CNT_CHALDROP rises by one
and STAT.CHALDROP is set. Nothing else changes but the port's own frame count. (R421, R422, spec/17_keys.md.) -/
def Obligations.ChallengeAnswer : Prop :=
  ∀ (port : Fin 3) (ip : Word) (udp : BitVec 16) (payload : List Byte) (s : State), s.supplied → (s.clearSent.ethAccept port.val).2 = true →
    s.hwpOn port.val = true →
    ∃ t, exec (.challenge port ip udp payload) s = .next t
      ∧ (let c := (payload.drop 4).take 16
         let good := payload.length = 20 ∧ payload.take 4 = [0x01#8, 0x21#8, 0#8, 0#8] ∧ s.key.answered < 4 ∧ s.bit Reg.KEY_CHAL 24 = true
         (∀ key, s.engineKey engChal (s.fld Reg.KEY_CHAL 16 5) = some key → good →
            t.sent = [⟨.challenge, port.val, ip.toNat, udp.toNat, [0x01#8, 0x22#8, 0#8, 0#8] ++ c ++ cmac key (c ++ uidBytes)⟩]
            ∧ t.key = { s.key with answered := s.key.answered + 1 } ∧ t.rd Reg.KEY_CNT_CHALDROP = s.rd Reg.KEY_CNT_CHALDROP
            ∧ (t.rd Reg.KEY_CNT_CHAL).toNat = min 0xFFFFFFFF ((s.rd Reg.KEY_CNT_CHAL).toNat + 1))
         ∧ ((¬ good ∨ s.engineKey engChal (s.fld Reg.KEY_CHAL 16 5) = none) → t.sent = [] ∧ t.key = s.key
            ∧ (t.rd Reg.KEY_CNT_CHALDROP).toNat = min 0xFFFFFFFF ((s.rd Reg.KEY_CNT_CHALDROP).toNat + 1) ∧ t.bit Reg.KEY_STAT 3 = true
            ∧ t.rd Reg.KEY_CNT_CHAL = s.rd Reg.KEY_CNT_CHAL))
      ∧ (∀ a, a ≠ Reg.KEY_CNT_CHAL → a ≠ Reg.KEY_CNT_CHALDROP → a ≠ Reg.KEY_STAT → t.rd a = (s.clearSent.ethAccept port.val).1.rd a)
      ∧ s.keepsParts t [.sent, .zid, .key, .eth]

/-- Unlocks, wrong passwords and the lockout. An accepted UNLOCK gains the requester the unlock of that region and kind,
alone, and clears UNLOCK_LO and _HI. One with a wrong password is answered AUTH, gains nothing, clears them, counts PWFAIL
and REFUSE and sets STAT.PWFAIL; eight within 256 laps start the lockout. In the lockout it is answered BUSY; PW_LOCKOUT_END
ends a lockout whose 256 laps have passed and no other. LOCK drops every unlock of the requester and no other slot's. (R429,
R430, R374, spec/18_nonvolatile_store.md.) -/
def Obligations.NvUnlocks : Prop :=
  (∀ (src : Src) (region : BitVec 3) (w : Bool) (s : State), s.supplied →
    s.grants src Reg.NVS_UNLOCK_CTRL (BitVec.ofNat 32 (region.toNat + w.toNat * 2 ^ 8)) →
    ∃ t, exec (.unlock src region w) s = .next t ∧ t.answer.status = .ok ∧ t.unlocked src.slot.val region.toNat w = true
      ∧ t.rd Reg.NVS_UNLOCK_LO = 0#32 ∧ t.rd Reg.NVS_UNLOCK_HI = 0#32
      ∧ (∀ q : Fin 32, q ≠ src.slot → t.unlocked q.val region.toNat w = s.unlocked q.val region.toNat w)
      ∧ s.keepsRegs t ((if w then Reg.NVS_RGN_r_WRSLOTS region.toNat else Reg.NVS_RGN_r_RDSLOTS region.toNat)
          :: Reg.NVS_UNLOCK_LO :: Reg.NVS_UNLOCK_HI :: hostRegs) ∧ s.keepsParts t hostParts)
  ∧ (∀ (src : Src) (region : BitVec 3) (w : Bool) (s : State), s.supplied → pwRegion region.toNat = true →
      ∃ t, exec (.unlock src region w) s = .next t
        ∧ (s.pwLocked region.toNat = true → t.answer.status = .busy ∧ t.nv = s.nv)
        ∧ (s.pwLocked region.toNat = false → s.pwRight region.toNat w = false →
            t.answer.status = .auth ∧ t.rd Reg.NVS_UNLOCK_LO = 0#32 ∧ t.rd Reg.NVS_UNLOCK_HI = 0#32
            ∧ (t.rd Reg.NVS_CNT_PWFAIL).toNat = min 0xFFFFFFFF ((s.rd Reg.NVS_CNT_PWFAIL).toNat + 1)
            ∧ (t.rd Reg.NVS_CNT_REFUSE).toNat = min 0xFFFFFFFF ((s.rd Reg.NVS_CNT_REFUSE).toNat + 1)
            ∧ t.bit Reg.NVS_STAT 3 = true ∧ t.bit Reg.NVS_STAT 7 = true
            ∧ (let before := (s.pwFail region.toNat).laps.filter (fun l => s.lap.count < l + 256)
               t.pwLocked region.toNat = decide (7 ≤ before.length) ∧ (t.pwFail region.toNat).laps = before ++ [s.lap.count])
            ∧ (∀ (q : Fin 32) (r : Fin 8) (k : Bool), t.unlocked q.val r.val k = s.unlocked q.val r.val k)))
  ∧ (∀ (region : BitVec 3) (s : State), s.supplied → ∃ t, exec (.pwLockoutEnd region) s = .next t
      ∧ (∀ l, (s.pwFail region.toNat).lockedAt = some l →
          (l + 256 ≤ s.lap.count → t.pwFail region.toNat = ⟨region.toNat, [], none⟩) ∧ (s.lap.count < l + 256 → t.nv = s.nv))
      ∧ ((s.pwFail region.toNat).lockedAt = none → t.nv = s.nv)
      ∧ (∀ r, r ≠ region.toNat → t.pwFail r = s.pwFail r) ∧ t.regs = s.regs ∧ s.keepsParts t [.sent, .nv])
  ∧ ∀ (src : Src) (s : State), s.supplied → s.grants src Reg.NVS_CTRL 2#32 →
      ∃ t, exec (.nvLock src) s = .next t ∧ t.answer.status = .ok
        ∧ (∀ (r : Fin 8) (k : Bool) (q : Fin 32), t.unlocked q.val r.val k = (s.unlocked q.val r.val k && q != src.slot))
        ∧ s.keepsRegs t ((List.range 8).map Reg.NVS_RGN_r_RDSLOTS ++ (List.range 8).map Reg.NVS_RGN_r_WRSLOTS ++ hostRegs)
        ∧ s.keepsParts t hostParts

/-- Setting a password takes two verified copies. An accepted PWSET queues the change and changes no password yet.
PAGE_PROGRAM of the password writer verifies its first copy, then its second, at which the password takes effect: it is set
or removed, the unlocks of that region and kind end and PWSET_LO and _HI clear; a copy that fails twice sets STAT.VERIFY and
leaves the change waiting. No other password changes. (R427, R429, R431, spec/18_nonvolatile_store.md.) -/
def Obligations.NvPasswords : Prop :=
  (∀ (src : Src) (region : BitVec 3) (w clear : Bool) (s : State), s.supplied →
    s.grants src Reg.NVS_PWSET_CTRL (BitVec.ofNat 32 (region.toNat + w.toNat * 2 ^ 8 + clear.toNat * 2 ^ 9)) →
    ∃ t, exec (.pwset src region w clear) s = .next t ∧ t.answer.status = .ok
      ∧ (let pw := if clear then none else some (s.rd Reg.NVS_PWSET_LO, s.rd Reg.NVS_PWSET_HI)
         t.nv = { s.nv with pwJobs := s.nv.pwJobs ++ [⟨region.toNat, w, pw, 0⟩] })
      ∧ s.keepsRegs t hostRegs ∧ s.keepsParts t (.nv :: hostParts))
  ∧ ∀ (rb : ReadBack) (s : State), s.supplied → s.bit Reg.NVS_INJ 0 = false → s.nvMay 1 = true → s.pfailed = false →
      ∀ j l, s.nv.pwJobs = j :: l → j.region < 8 →
      ∃ t, exec (.pageProgram .password rb) s = .next t
        ∧ ((rb.first || rb.second) = false → t.nv = { s.nv with failed := 1 :: s.nv.failed } ∧ t.bit Reg.NVS_STAT 1 = true)
        ∧ ((rb.first || rb.second) = true → j.copies = 0 → t.nv = { s.nv with pwJobs := { j with copies := 1 } :: l })
        ∧ ((rb.first || rb.second) = true → j.copies ≠ 0 → t.nv.pwJobs = l ∧ t.password j.region j.isWrite = j.pw
            ∧ t.hasPassword j.region j.isWrite = j.pw.isSome ∧ (∀ q : Fin 32, t.unlocked q.val j.region j.isWrite = false)
            ∧ t.rd Reg.NVS_PWSET_LO = 0#32 ∧ t.rd Reg.NVS_PWSET_HI = 0#32)
        ∧ (∀ r k, (r ≠ j.region ∨ k ≠ j.isWrite) → t.password r k = s.password r k)
        ∧ s.keepsRegs t ([Reg.NVS_RGN_r_CFG j.region, Reg.NVS_RGN_r_WRSLOTS j.region, Reg.NVS_RGN_r_RDSLOTS j.region, Reg.NVS_PWSET_LO,
            Reg.NVS_PWSET_HI, Reg.NVS_CNT_PAGE, Reg.NVS_STAT, Reg.NVS_CNT_VERIFY, Reg.NVS_IRQ, Reg.NVS_INJ] ++ pinRegs)
        ∧ s.keepsParts t [.sent, .nv, .zid, .used]

/-- Page programs of the direct window. A one-word write to an unencrypted USER region waits for its page program.
PAGE_PROGRAM of the direct writer that verifies, at the first or second read-back, writes the word, which then reads back,
leaves every other unit of the store, and answers OK; one that fails twice writes nothing, sets STAT.VERIFY, counts VERIFY,
and answers BUSY with the count of words written. Nothing happens with no write waiting. (R426, R427, R375, R376,
spec/18_nonvolatile_store.md.) -/
def Obligations.NvPagePrograms : Prop :=
  (∀ (src : Src) (a v : Word) (s : State), s.supplied → inNvWindow a.toNat = true → isUser (regionOf (nvOffset a.toNat)) = true →
    s.grants src a.toNat v → ∃ t, exec (.write src a [v] none) s = .next t
      ∧ t.nv = { s.nv with jobs := s.nv.jobs ++ [⟨src, [(a.toNat, v)], 0, false, none, s.upEpoch src 2, none⟩] } ∧ t.answer = s.answer ∧ t.regs = s.regs
      ∧ s.keepsParts t [.sent, .nv])
  ∧ (∀ (rb : ReadBack) (s : State), s.supplied → s.bit Reg.NVS_INJ 0 = false → ∀ j l, s.nv.jobs = j :: l → j.words.length = 1 → j.cut = none →
      ∀ w, j.words.head? = some w → inNvWindow w.1 = true → isUser (regionOf (nvOffset w.1)) = true → w.1 % 4 = 0 →
      s.regionCrypt (regionOf (nvOffset w.1)) = false →
      ∃ t, exec (.pageProgram .direct rb) s = .next t ∧ t.nv.jobs = l
        ∧ ((rb.first || rb.second) = true → t.nvWord (nvOffset w.1) = w.2 ∧ t.answer.status = .ok
            ∧ ∀ x, (x / 4 ≠ nvOffset w.1 / 4) → tabGet 0#8 t.nv.user x = tabGet 0#8 s.nv.user x)
        ∧ ((rb.first || rb.second) = false → t.nv.user = s.nv.user ∧ t.answer.status = .busy ∧ t.answer.info = BitVec.ofNat 32 j.index
            ∧ t.bit Reg.NVS_STAT 1 = true
            ∧ (t.rd Reg.NVS_CNT_VERIFY).toNat = min 0xFFFFFFFF ((s.rd Reg.NVS_CNT_VERIFY).toNat + 1))
        ∧ s.keepsRegs t ([Reg.NVS_CNT_PAGE, Reg.NVS_STAT, Reg.NVS_CNT_VERIFY, Reg.NVS_IRQ, Reg.NVS_INJ, Reg.HWP_CNT_PARTIAL]
            ++ hostRegs ++ pinRegs)
        ∧ s.keepsParts t (.nv :: .pair :: .zid :: hostParts))
  ∧ ∀ (rb : ReadBack) (s : State), s.supplied → s.nv.jobs = [] →
      ∃ t, exec (.pageProgram .direct rb) s = .next t ∧ t.regs = s.regs ∧ s.keepsParts t [.sent]

/-- The commanded store of the warm region. An accepted STORE opens a store that waits for the batons of requester 1.
PAGE_PROGRAM of the store writer programs the next dirty page from the SRAM, once its batons are held, and clears its mark;
no other cell changes. STORE_DONE with no page left verifies COMPLETE with the CRC of the stored image into the header,
releases the batons, counts STORE and sets IRQ.STOREDONE; when it fails twice, or a page is left, the store goes on. (R433,
R434, R435, R64, spec/18_nonvolatile_store.md.) -/
def Obligations.NvStore : Prop :=
  (∀ (src : Src) (s : State), s.supplied → s.grants src Reg.NVS_CTRL 1#32 →
    ∃ t, exec (.nvStore src) s = .next t ∧ t.answer.status = .ok ∧ t.nv = { s.nv with store := some ⟨false, false, 0#32, [], 0⟩ }
      ∧ t.lap = (s.batonRequest 1 8).lap ∧ s.keepsRegs t hostRegs ∧ s.keepsParts t (.nv :: .lap :: hostParts))
  ∧ (∀ (rb : ReadBack) (s : State), s.supplied → s.bit Reg.NVS_INJ 0 = false → s.nvMay 0 = true → ∀ r, s.nv.store = some r → r.begun = true →
      s.batonsOf 1 ≠ 0 →
      ∀ p, s.storePage? = some p →
      ∃ t, exec (.pageProgram .store rb) s = .next t
        ∧ ((rb.first || rb.second) = true → bytesAt (tabGet 0#8 t.nv.warmCells) (256 * p) 256 = s.sramGet (256 * p) 256
            ∧ (∀ q, q ∈ t.nv.dirty ↔ q ∈ s.nv.dirty ∧ q ≠ p)
            ∧ (∀ x, x / 256 ≠ p → tabGet 0#8 t.nv.warmCells x = tabGet 0#8 s.nv.warmCells x))
        ∧ ((rb.first || rb.second) = false → t.nv = { s.nv with failed := 0 :: s.nv.failed } ∧ t.bit Reg.NVS_STAT 1 = true ∧ t.lap = s.lap)
        ∧ t.nv.sram = s.nv.sram
        ∧ s.keepsRegs t ([Reg.NVS_CNT_PAGE, Reg.NVS_STAT, Reg.NVS_CNT_VERIFY, Reg.NVS_IRQ, Reg.NVS_INJ] ++ pinRegs)
        ∧ s.keepsParts t [.sent, .nv, .lap, .zid, .used])
  ∧ (∀ (rb : ReadBack) (s : State), s.supplied → s.bit Reg.NVS_INJ 0 = false → s.bit Reg.NVS_INJ 2 = false → s.nvMay 0 = true → ∀ r, s.nv.store = some r →
      r.begun = true → s.storePage? = none →
      ∃ t, exec (.storeDone rb) s = .next t
        ∧ ((rb.first || rb.second) = true → t.nv.store = none
            ∧ (if r.toB then t.nv.headB else t.nv.headA) = some ⟨r.seq, true, s.warmCrc⟩
            ∧ t.batonsOf 1 = 0 ∧ t.bit Reg.NVS_IRQ 0 = true
            ∧ (t.rd Reg.NVS_CNT_STORE).toNat = min 0xFFFFFFFF ((s.rd Reg.NVS_CNT_STORE).toNat + 1))
        ∧ ((rb.first || rb.second) = false → t.nv = { s.nv with failed := 0 :: s.nv.failed } ∧ t.lap = s.lap ∧ t.bit Reg.NVS_STAT 1 = true)
        ∧ s.keepsRegs t ([Reg.NVS_CNT_PAGE, Reg.NVS_CNT_STORE, Reg.NVS_STAT, Reg.NVS_CNT_VERIFY, Reg.NVS_IRQ, Reg.NVS_INJ] ++ pinRegs)
        ∧ s.keepsParts t [.sent, .nv, .lap, .zid, .used])
  ∧ ∀ (rb : ReadBack) (s : State), s.supplied → (s.nv.store = none ∨ s.storePage?.isSome = true) →
      ∃ t, exec (.storeDone rb) s = .next t ∧ t.regs = s.regs ∧ s.keepsParts t [.sent]

/-- Tally increments. An accepted INC asks for an increment of the tally selected and sets BUSY. INCREMENT_DONE of a waiting
increment that verifies, at the first or second read-back, makes V one greater and writes the new V into its cell; a
firmware increment reports DONE with BUSY 0. One that fails twice leaves V, sets STAT.VERIFY, ends a firmware increment with
its failure and leaves one of the module waiting. No other tally changes. A tally with no waiting increment is left. INC at
V = 0xFFFF_FFFF is refused with RANGE. (R440, spec/18_nonvolatile_store.md.) -/
def Obligations.TallyIncrements : Prop :=
  (∀ (src : Src) (s : State), s.supplied → s.grants src Reg.NVS_TALLY_CTRL 1#32 →
    ∃ t, exec (.tallyInc src) s = .next t ∧ t.answer.status = .ok ∧ t.bit Reg.NVS_TALLY_STAT 0 = true
      ∧ t.nv = { s.nv with tallyJobs := s.nv.tallyJobs ++ [(s.fld Reg.NVS_TALLY_SEL 0 9, true)] }
      ∧ s.keepsRegs t (Reg.NVS_TALLY_STAT :: hostRegs) ∧ s.keepsParts t (.nv :: hostParts))
  ∧ (∀ (src : Src) (s : State), s.supplied → 16 ≤ s.fld Reg.NVS_TALLY_SEL 0 9 → s.bit Reg.NVS_TALLY_STAT 0 = false →
      s.frozen = false → s.tallyV (s.fld Reg.NVS_TALLY_SEL 0 9) = 0xFFFFFFFF#32 →
      ∃ t, exec (.tallyInc src) s = .next t ∧ t.answer.status = .range ∧ t.nv = s.nv ∧ t.fld Reg.NVS_TALLY_STAT 1 2 = 3)
  ∧ (∀ (tally : Fin 512) (rb fold : ReadBack) (s : State), s.supplied → s.bit Reg.NVS_INJ 1 = false →
      ∀ j, s.nv.tallyJobs.find? (fun q => q.1 == tally.val) = some j → (j.2 = false → s.nvMay (16 + tally.val) = true) →
      ∃ t, exec (.incrementDone tally rb fold) s = .next t
        ∧ ((rb.first || rb.second) = true → t.tallyV tally.val = s.tallyV tally.val + 1#32
            ∧ (s.tally tally.val).cells.length = 16 →
              (t.tally tally.val).cells[(s.tallyV tally.val + 1#32).toNat % 16]? = some (some (s.tallyV tally.val + 1#32)))
        ∧ ((rb.first || rb.second) = false → t.tallyV tally.val = s.tallyV tally.val ∧ t.bit Reg.NVS_STAT 1 = true
            ∧ t.nv.tallyJobs = (if j.2 then s.nv.tallyJobs.erase j else s.nv.tallyJobs))
        ∧ (j.2 = true → t.bit Reg.NVS_TALLY_STAT 0 = false ∧ t.bit Reg.NVS_IRQ 3 = true
            ∧ t.fld Reg.NVS_TALLY_STAT 1 2 = (if rb.first || rb.second then 1 else 2))
        ∧ (∀ k, k ≠ tally.val → t.tally k = s.tally k)
        ∧ s.keepsRegs t ([Reg.NVS_TALLY_STAT, Reg.NVS_STAT, Reg.NVS_CNT_VERIFY, Reg.NVS_IRQ, Reg.NVS_INJ] ++ pinRegs)
        ∧ s.keepsParts t [.sent, .img, .nv, .zid, .key, .used])
  ∧ ∀ (tally : Fin 512) (rb fold : ReadBack) (s : State), s.supplied → s.nv.tallyJobs.find? (fun q => q.1 == tally.val) = none →
      ∃ t, exec (.incrementDone tally rb fold) s = .next t ∧ t.regs = s.regs ∧ s.keepsParts t [.sent]

/-- Switching the encryption of a USER region. An accepted write of CRYPT takes the setting. Where it changes the setting,
every unit of the region then holds the bytes that read as zeros under the new setting: their encryption under the key in
CRYPTSLOT when it is on, zeros when it is off; the bytes outside the region stay. A write that does not change CRYPT leaves
every byte. (R432, spec/18_nonvolatile_store.md.) -/
def Obligations.RegionEncryption : Prop :=
  ∀ (src : Src) (region : BitVec 3) (on : Bool) (s : State), s.supplied →
    s.grants src (Reg.NVS_RGN_r_CFG region.toNat) (BitVec.ofNat 32 (on.toNat * 4)) →
    ∃ t, exec (.cryptWrite src region on) s = .next t ∧ t.answer.status = .ok ∧ t.bit (Reg.NVS_RGN_r_CFG region.toNat) 2 = on
      ∧ (s.bit (Reg.NVS_RGN_r_CFG region.toNat) 2 = on → t.nv = s.nv)
      ∧ (s.bit (Reg.NVS_RGN_r_CFG region.toNat) 2 = !on → ∀ i, i < regionSize region.toNat / 16 →
          bytesAt (tabGet 0#8 t.nv.user) (regionBase region.toNat + 16 * i) 16 =
            (if on then match s.cryptKey with
                | some k => xtsEnc k (cryptKey2 k) (regionBase region.toNat / 16 + i) (List.replicate 16 0#8)
                | none => List.replicate 16 0#8
             else List.replicate 16 0#8))
      ∧ (∀ x, (x < regionBase region.toNat ∨ regionBase region.toNat + regionSize region.toNat ≤ x) →
          tabGet 0#8 t.nv.user x = tabGet 0#8 s.nv.user x)
      ∧ s.keepsRegs t (Reg.NVS_RGN_r_CFG region.toNat :: hostRegs) ∧ s.keepsParts t (.nv :: .pair :: hostParts)

/-- The calendar: one second, the hour of summer time, and a load. SECOND_CARRY adds one second to the calendar, restarts
the sub-seconds, and sets IRQ.SEC while supplied; without supply the calendar alone moves. An accepted LOAD takes the staged
date and time with the weekday of that date, restarts the sub-seconds and clears an armed DATECHK. DSTFWD adds one hour and
sets DST, DSTBACK takes one hour and clears DST; both record an event. Nothing else changes but for the request itself.
(R445, R448, R449, R450, R451, spec/19_clock_calendar.md.) -/
def Obligations.CalendarCommands : Prop :=
  (∀ s : State, s.supplied → ∃ t, exec .secondCarry s = .next t
      ∧ t.rd Reg.RTC_TIME = timeWord (calOf (s.calendar.secs + 1)) s.dst ∧ t.rd Reg.RTC_DATE = dateWord (calOf (s.calendar.secs + 1))
      ∧ t.rtc = { s.rtc with carryAt := s.oscAt 0, winSec := (s.rtc.winSec + 1) % s.trimSecs } ∧ t.bit Reg.RTC_IRQ 1 = true
      ∧ s.keepsRegs t (Reg.RTC_TIME :: Reg.RTC_DATE :: Reg.RTC_IRQ :: pinRegs) ∧ s.keepsParts t [.sent, .zid, .rtc])
  ∧ (∀ s : State, s.boot.phase = Phase.off → ∃ t, exec .secondCarry s = .next t
      ∧ t.rd Reg.RTC_TIME = timeWord (calOf (s.calendar.secs + 1)) s.dst ∧ t.rd Reg.RTC_DATE = dateWord (calOf (s.calendar.secs + 1))
      ∧ t.rtc = { s.rtc with carryAt := s.oscAt 0, winSec := (s.rtc.winSec + 1) % s.trimSecs }
      ∧ s.keepsRegs t [Reg.RTC_TIME, Reg.RTC_DATE] ∧ s.keepsParts t [.rtc])
  ∧ (∀ (src : Src) (s : State), s.supplied → s.grants src Reg.RTC_CTRL 1#32 → ∃ t, exec (.rtcLoad src) s = .next t
      ∧ t.answer.status = .ok ∧ t.rd Reg.RTC_DATE = s.rd Reg.RTC_SET_DATE
      ∧ (let c := calIn (s.rd Reg.RTC_SET_TIME) (s.rd Reg.RTC_SET_DATE)
         t.rd Reg.RTC_TIME = putBits (s.rd Reg.RTC_SET_TIME) 24 3 (weekDay (dayNumber c.year c.month c.day)))
      ∧ t.rtc = { s.rtc with carryAt := s.oscAt 0 } ∧ t.bit Reg.RTC_INJ 0 = false
      ∧ s.keepsRegs t (Reg.RTC_TIME :: Reg.RTC_DATE :: Reg.RTC_INJ :: hostRegs) ∧ s.keepsParts t (.rtc :: hostParts))
  ∧ (∀ (src : Src) (s : State), s.supplied → s.grants src Reg.RTC_CTRL 2#32 → ∃ t, exec (.dstfwd src) s = .next t
      ∧ t.answer.status = .ok ∧ t.rd Reg.RTC_TIME = timeWord (calOf ((s.calendar.secs : Int) + 3600)) true
      ∧ t.rd Reg.RTC_DATE = dateWord (calOf ((s.calendar.secs : Int) + 3600))
      ∧ s.keepsRegs t (Reg.RTC_TIME :: Reg.RTC_DATE :: (hostRegs ++ spoorRegs)) ∧ s.keepsParts t (.spr :: .zid :: hostParts))
  ∧ ∀ (src : Src) (s : State), s.supplied → s.grants src Reg.RTC_CTRL 4#32 → ∃ t, exec (.dstback src) s = .next t
      ∧ t.answer.status = .ok ∧ t.rd Reg.RTC_TIME = timeWord (calOf ((s.calendar.secs : Int) - 3600)) false
      ∧ t.rd Reg.RTC_DATE = dateWord (calOf ((s.calendar.secs : Int) - 3600))
      ∧ s.keepsRegs t (Reg.RTC_TIME :: Reg.RTC_DATE :: (hostRegs ++ spoorRegs)) ∧ s.keepsParts t (.spr :: .zid :: hostParts)

/-- Reading the calendar: a key slot's frozen copy. RTC_READ of TIME, DATE or SUBSEC answers what the key slot's freeze
holds of it, or a new capture where the slot has none or has already read that register in it; the freeze marks the register
as read, and no other slot's freeze changes. RELEASE drops the slot's freeze. FREEZE_TIMEOUT of a freeze that stands, 1 s
after it began, drops it and sets STAT.FRZTO; with none it changes nothing. No other register changes but for the request
itself. (R452, R453, spec/19_clock_calendar.md.) -/
def Obligations.CalendarFreeze : Prop :=
  (∀ (src : Src) (addr : Word) (s : State), s.supplied → isRtcShadow addr.toNat = true → ∃ t, exec (.rtcRead src addr) s = .next t
      ∧ t.answer.status = .ok ∧ t.answer.data = [(s.freezeFor src.slot.val addr.toNat).word addr.toNat]
      ∧ (∀ slot, slot ≠ src.slot.val → t.freezeOf slot = s.freezeOf slot)
      ∧ s.keepsRegs t hostRegs ∧ s.keepsParts t (.rtc :: hostParts))
  ∧ (∀ (src : Src) (s : State), s.supplied → s.grants src Reg.RTC_CTRL 8#32 → ∃ t, exec (.rtcRelease src) s = .next t
      ∧ t.answer.status = .ok ∧ t.rtc = { s.rtc with shadows := s.rtc.shadows.filter (fun f => f.slot != src.slot.val) }
      ∧ t.freezeOf src.slot.val = none ∧ s.keepsRegs t hostRegs ∧ s.keepsParts t (.rtc :: hostParts))
  ∧ ∀ (slot : Fin 32) (s : State), s.supplied → (∀ f, s.freezeOf slot.val = some f → s.reached (f.since + 1000000000) = true) →
      ∃ t, exec (.freezeTimeout slot) s = .next t ∧ t.freezeOf slot.val = none
      ∧ t.bit Reg.RTC_STAT 5 = (s.bit Reg.RTC_STAT 5 || (s.freezeOf slot.val).isSome)
      ∧ ((s.freezeOf slot.val).isNone → t.rtc = s.rtc ∧ t.regs = s.regs)
      ∧ s.keepsRegs t [Reg.RTC_STAT] ∧ s.keepsParts t [.sent, .rtc]

/-- Rate trim of the calendar and its setting from network time. A valid window of n pulses sets CAL to the clamped count
error and counts TRIM; a spoiled one counts TRIMDISC and leaves CAL; MANUAL ignores it; a validity test that REFCHK inverts
counts as R464 says. An accepted write of TRIM_CTRL takes SRC, WIN and CAL, and a new SRC or WIN starts a new window.
PTP_HOUR_SET sets the calendar from the network clock when R455 asks for it and the two differ by a second or more, sets
STAT bit 4 and restarts the sub-seconds; otherwise it leaves the calendar. (R455, R457, R458, R459, R464,
spec/19_clock_calendar.md.) -/
def Obligations.CalendarTrim : Prop :=
  (∀ (n : BitVec 32) (s : State), s.supplied → s.trimRef ≠ 0 → ∃ t, exec (.trimWindow n) s = .next t
      ∧ (let good := (!s.trimLap.rtc.winBad) != s.bit Reg.RTC_INJ 1
         let err : Int := (32768 * s.trimSecs : Nat) - (n.toNat : Int)
         (good = true → t.fld Reg.RTC_TRIM_CTRL 16 10 = wrapInt 10 (clampInt (-511) 511 err)
            ∧ (t.rd Reg.RTC_CNT_TRIM).toNat = min 0xFFFFFFFF ((s.rd Reg.RTC_CNT_TRIM).toNat + 1)
            ∧ t.rd Reg.RTC_CNT_TRIMDISC = s.rd Reg.RTC_CNT_TRIMDISC
            ∧ t.bit Reg.RTC_STAT 3 = (s.bit Reg.RTC_STAT 3 || decide (511 < err ∨ err < -511)))
         ∧ (good = false → t.rd Reg.RTC_TRIM_CTRL = s.rd Reg.RTC_TRIM_CTRL ∧ t.rd Reg.RTC_CNT_TRIM = s.rd Reg.RTC_CNT_TRIM
            ∧ (t.rd Reg.RTC_CNT_TRIMDISC).toNat = min 0xFFFFFFFF ((s.rd Reg.RTC_CNT_TRIMDISC).toNat + 1)))
      ∧ t.bit Reg.RTC_IRQ 2 = true ∧ t.bit Reg.RTC_INJ 1 = false ∧ t.ptp.moved = false
      ∧ s.keepsRegs t ([Reg.RTC_TRIM_CTRL, Reg.RTC_TRIM_MEAS, Reg.RTC_STAT, Reg.RTC_CNT_TRIM, Reg.RTC_CNT_TRIMDISC, Reg.RTC_IRQ,
          Reg.RTC_INJ, Reg.ZID_CNT_INJ] ++ pinRegs)
      ∧ s.keepsParts t [.sent, .zid, .ptp, .rtc])
  ∧ (∀ (n : BitVec 32) (s : State), s.supplied → s.trimRef = 0 → ∃ t, exec (.trimWindow n) s = .next t ∧ t.regs = s.regs
      ∧ s.keepsParts t [.sent])
  ∧ (∀ (src : Src) (v : Word) (s : State), s.supplied → s.grants src Reg.RTC_TRIM_CTRL v → ∃ t, exec (.trimWrite src v) s = .next t
      ∧ t.answer.status = .ok ∧ t.fld Reg.RTC_TRIM_CTRL 0 2 = bitsOf v 0 2 ∧ t.fld Reg.RTC_TRIM_CTRL 4 3 = bitsOf v 4 3
      ∧ t.fld Reg.RTC_TRIM_CTRL 16 10 = bitsOf v 16 10
      ∧ (bitsOf v 0 2 = s.fld Reg.RTC_TRIM_CTRL 0 2 → bitsOf v 4 3 = s.fld Reg.RTC_TRIM_CTRL 4 3 → t.rtc = s.rtc ∧ t.ptp = s.ptp)
      ∧ s.keepsRegs t (Reg.RTC_TRIM_CTRL :: hostRegs) ∧ s.keepsParts t (.rtc :: .ptp :: hostParts))
  ∧ ∀ s : State, s.supplied → ∃ t, exec .ptpHourSet s = .next t
      ∧ (let u := s.clearSent.ptpSync
         let due := u.bit Reg.RTC_CFG 0 && u.ptpLock
           && !decide (absQ ((u.calendar.secs : Rat) + (u.subsec.toNat : Rat) / 32768 - u.ptpToLocal) < 1)
         (due = true → t.rd Reg.RTC_TIME = timeWord (calOf u.ptpToLocal) u.dst ∧ t.rd Reg.RTC_DATE = dateWord (calOf u.ptpToLocal)
            ∧ t.bit Reg.RTC_STAT 4 = true ∧ t.rtc.carryAt = u.oscAt 0)
         ∧ (due = false → t = u))

/-- Wake, the battery's charger and its check. A WAKE with a wake time set counts CNT_WAKE and sets IRQ.WAKE while supplied,
and without supply sets STAT bit 6; with WAKE 0 it changes nothing. BOOST asks for its two batons, and BOOSTING stays 0
until they are granted (BatonGrants); BOOST_END, done, clears BOOSTING and gives the batons back; not done it asks again;
without a boost it changes nothing. BAT_CHECK writes the voltage, and below 2,200 mV (the test inverted by an armed BATCHK,
which clears) sets STAT.BATLOW and IRQ. (R460, R462, R463, R464, spec/19_clock_calendar.md.) -/
def Obligations.CalendarSupply : Prop :=
  (∀ s : State, s.supplied → s.fld Reg.RTC_WAKE 0 23 ≠ 0 → ∃ t, exec .wake s = .next t
      ∧ (t.rd Reg.RTC_CNT_WAKE).toNat = min 0xFFFFFFFF ((s.rd Reg.RTC_CNT_WAKE).toNat + 1) ∧ t.bit Reg.RTC_IRQ 0 = true
      ∧ s.keepsRegs t (Reg.RTC_CNT_WAKE :: Reg.RTC_IRQ :: pinRegs) ∧ s.keepsParts t [.sent, .zid])
  ∧ (∀ s : State, s.boot.phase = Phase.off → s.fld Reg.RTC_WAKE 0 23 ≠ 0 → ∃ t, exec .wake s = .next t
      ∧ t.bit Reg.RTC_STAT 6 = true ∧ s.keepsRegs t [Reg.RTC_STAT] ∧ s.keepsParts t [])
  ∧ (∀ s : State, s.fld Reg.RTC_WAKE 0 23 = 0 → ∃ t, exec .wake s = .next t ∧ t.regs = s.regs ∧ s.keepsParts t [.sent])
  ∧ (∀ (src : Src) (s : State), s.supplied → s.grants src Reg.RTC_CHG ((s.rd Reg.RTC_CHG &&& 0xF#32) ||| 0x10#32) →
      ∃ t, exec (.boost src) s = .next t ∧ t.answer.status = .ok ∧ t.bit Reg.RTC_CHG 5 = false
        ∧ t.fld Reg.RTC_CHG 0 4 = s.fld Reg.RTC_CHG 0 4
        ∧ t.lap = (s.clearSent.batonRequest 3 2).lap ∧ s.keepsRegs t (Reg.RTC_CHG :: hostRegs) ∧ s.keepsParts t (.lap :: hostParts))
  ∧ (∀ (done : Bool) (s : State), s.supplied → s.bit Reg.RTC_CHG 5 = true → ∃ t, exec (.boostEnd done) s = .next t
      ∧ t.bit Reg.RTC_CHG 5 = !done
      ∧ t.lap = (if done then ((s.batonRelease 3).batonCancel 3).lap else ((s.batonRelease 3).batonRequest 3 2).lap)
      ∧ s.keepsRegs t [Reg.RTC_CHG] ∧ s.keepsParts t [.sent, .lap])
  ∧ (∀ (done : Bool) (s : State), s.supplied → s.bit Reg.RTC_CHG 5 = false → ∃ t, exec (.boostEnd done) s = .next t
      ∧ t.regs = s.regs ∧ s.keepsParts t [.sent])
  ∧ ∀ (mv : BitVec 16) (s : State), s.supplied → ∃ t, exec (.batCheck mv) s = .next t ∧ t.rd Reg.RTC_BAT = BitVec.ofNat 32 mv.toNat
      ∧ (let low := decide (mv.toNat < 2200) != s.bit Reg.RTC_INJ 2
         (t.bit Reg.RTC_STAT 2 = (s.bit Reg.RTC_STAT 2 || low)) ∧ t.bit Reg.RTC_IRQ 3 = (s.bit Reg.RTC_IRQ 3 || low))
      ∧ t.bit Reg.RTC_INJ 2 = false
      ∧ s.keepsRegs t ([Reg.RTC_BAT, Reg.RTC_STAT, Reg.RTC_IRQ, Reg.RTC_INJ, Reg.ZID_CNT_INJ] ++ pinRegs) ∧ s.keepsParts t [.sent, .zid]

/-- A firmware record: POST is granted or refused as R476 says. Firmware appends its own record by SPR_FW_CTRL.POST: a
granted POST passes the event with CODE 0xFF00 + FW_CODE.CODE (SOURCE 0xFF), SEV and the 12 bytes of FW_DATA to the recorder
like any other event. A POST with SEV 0 or above 4 is refused with RANGE, also while 64 events wait; with a good SEV it is
refused with BUSY while 64 events wait; a refusal records nothing, increments SPR_CNT_REFUSE and sets SPR_STAT.REFUSED, and
a POST that breaks neither is granted. (R476.) -/
def Obligations.FirmwarePost : Prop :=
  (∀ (src : Src) (sev : BitVec 3) (s : State), s.supplied → 1 ≤ sev.toNat → sev.toNat ≤ 4 → s.spoorWaiting < 64 →
    ∃ t, exec (.post src sev) s = .next t ∧ t.answer.status = .ok
      ∧ (let data := bytesOfWords [s.rd (Reg.SPR_FW_DATA 0), s.rd (Reg.SPR_FW_DATA 1), s.rd (Reg.SPR_FW_DATA 2)]
         t.spr = (s.raiseEv (0xFF00 + s.fld Reg.SPR_FW_CODE 0 8) sev.toNat data).spr)
      ∧ s.keepsRegs t (hostRegs ++ spoorRegs) ∧ s.keepsParts t (.spr :: .zid :: hostParts))
  ∧ ∀ (src : Src) (sev : BitVec 3) (s : State), s.supplied → (sev.toNat = 0 ∨ 4 < sev.toNat ∨ 64 ≤ s.spoorWaiting) →
    ∃ t, exec (.post src sev) s = .next t
      ∧ t.answer.status = (if sev.toNat = 0 ∨ 4 < sev.toNat then .range else .busy)
      ∧ (t.rd Reg.SPR_CNT_REFUSE).toNat = min 0xFFFFFFFF ((s.rd Reg.SPR_CNT_REFUSE).toNat + 1) ∧ t.bit Reg.SPR_STAT 4 = true
      ∧ t.spr = s.spr ∧ s.keepsRegs t (Reg.SPR_CNT_REFUSE :: Reg.SPR_STAT :: refuseRegs) ∧ s.keepsParts t refuseParts

/-- The spoor takes an event: merge, drop, or append as the next record. While the recorder is open and 64 events do not
wait: before the start scan has ended an event is held; afterwards one equal to the newest record within the merge window
raises that record's REPEAT by one and counts MERGE, and one that neither merges nor is limited by a rate entry is appended
with the next SEQ modulo 2^24, REPEAT 0, the boot count and the operating seconds, and counts REC. While 64 wait it is
dropped and counts QOVR. After the last write of a power failure nothing is recorded. QFULL inverts the test of the limit;
the statements with it armed are the mirror ones. (R468, R469, R473, R474, spec/20_spoor.md.) -/
def Obligations.SpoorTakesEvents : Prop :=
  ∀ (s : State) (code sev : Nat) (data : List Byte), s.bit Reg.SPR_INJ 1 = false →
    let t := s.raiseEv code sev data
    (s.spr.closed = true → t = s)
    ∧ (s.spr.closed = false → s.spoorWaiting < 64 → s.spr.ready = false →
        t.spr = { s.spr with early := s.spr.early ++ [⟨code, sev, data, s.nat Reg.SPR_OPSEC⟩] } ∧ t.regs = s.regs)
    ∧ (s.spr.closed = false → s.spoorWaiting < 64 → s.spr.ready = true → s.merges code sev data (s.rd Reg.SPR_OPSEC) = true →
        t.spr.newest = s.spr.newest.map (fun r => { r with rep := r.rep + 1 }) ∧ t.spr.queue.length = s.spr.queue.length
        ∧ t.fld Reg.SPR_HEADREP 16 16 = s.nat Reg.SPR_OPSEC % 2 ^ 16
        ∧ (t.rd Reg.SPR_CNT_MERGE).toNat = min 0xFFFFFFFF ((s.rd Reg.SPR_CNT_MERGE).toNat + 1)
        ∧ s.keepsRegs t [Reg.SPR_HEADREP, Reg.SPR_CNT_MERGE])
    ∧ (s.spr.closed = false → s.spoorWaiting < 64 → s.spr.ready = true → s.merges code sev data (s.rd Reg.SPR_OPSEC) = false →
        s.bit Reg.SPR_CTRL 8 = false →
        (let r : SpoorRec := ⟨code, sev, s.rd Reg.SPR_OPSEC, s.bootCount, s.spr.newest.elim 0 (fun q => (q.seq + 1) % 2 ^ 24), 0,
            (data ++ List.replicate 12 0#8).take 12, s.bit Reg.SPR_INJ 0 && !(s.spr.queue.any (fun q => q.bad))⟩
         t.spr = { s.spr with queue := s.spr.queue ++ [r], newest := some r })
        ∧ (t.rd Reg.SPR_CNT_REC).toNat = min 0xFFFFFFFF ((s.rd Reg.SPR_CNT_REC).toNat + 1))
    ∧ (s.spr.closed = false → 64 ≤ s.spoorWaiting →
        t.spr = { s.spr with dropped := s.spr.dropped + 1 }
        ∧ (t.rd Reg.SPR_CNT_QOVR).toNat = min 0xFFFFFFFF ((s.rd Reg.SPR_CNT_QOVR).toNat + 1) ∧ t.bit Reg.SPR_STAT 2 = true)
    ∧ s.keepsRegs t spoorRegs ∧ s.keepsParts t [.spr, .zid]

/-- The spoor's writes, windows, seconds and start scan. SPOOR_PROGRAM with a program that verifies takes the queued records
of the first one's page off the queue and puts the last of them, bytes and slot as R465 and R467 say; a program that fails
leaves queue and ring and is repeated at the next lap; an empty queue changes nothing; a due reprogramming is the same for
the first due record. RATE_WINDOW_END closes the entry's window. OPSEC_TICK adds one second. SPOOR_SCAN_DONE makes the
recorder ready, empties the held events, and does nothing a second time. (R465, R467, R470, R471, R472, R473,
spec/20_spoor.md.) -/
def Obligations.SpoorCommands : Prop :=
  (∀ (rb : ReadBack) (s : State), s.supplied → s.nvMay 2 = true → s.spr.queue ≠ [] → s.spr.dropped = 0 → (s.nvPage classSpr rb).2 = true →
    ∃ t, exec (.spoorProgram false rb) s = .next t
      ∧ t.spr.queue = s.spr.queue.drop (pageOfQueue s.spr.queue).length
      ∧ (∀ r, (pageOfQueue s.spr.queue).getLast? = some r → r.data.length = 12 →
          slotBytes t.nv.ring (r.seq % 65536) = r.bytes ∧ bitsOf (t.rd Reg.SPR_HEAD) 0 24 = r.seq % 2 ^ 24)
      ∧ t.bit Reg.SPR_IRQ 0 = true ∧ s.keepsParts t [.sent, .nv, .spr, .zid, .used])
  ∧ (∀ (rb : ReadBack) (s : State), s.supplied → s.nvMay 2 = true → s.spr.queue ≠ [] → (s.nvPage classSpr rb).2 = false →
      ∃ t, exec (.spoorProgram false rb) s = .next t ∧ t.bit Reg.NVS_STAT 1 = true ∧ t.nv = { s.nv with failed := 2 :: s.nv.failed }
        ∧ s.keepsParts t [.sent, .nv, .zid, .used])
  ∧ (∀ (rb : ReadBack) (s : State), s.supplied → (s.spr.queue = [] ∨ s.nvMay 2 = false) →
      ∃ t, exec (.spoorProgram false rb) s = .next t ∧ t.regs = s.regs ∧ s.keepsParts t [.sent])
  ∧ (∀ (rb : ReadBack) (s : State), s.supplied → s.nvMay 2 = true → (s.nvPage classSpr rb).2 = true → ∀ (r : SpoorRec) (l : List SpoorRec), s.spr.due = r :: l →
      ∃ t, exec (.spoorProgram true rb) s = .next t ∧ t.spr = { s.spr with due := l }
        ∧ (r.data.length = 12 → slotBytes t.nv.ring (r.seq % 65536) = SpoorRec.bytes { r with bad := false })
        ∧ bitsOf (t.rd Reg.SPR_HEAD) 0 31 = bitsOf (s.rd Reg.SPR_HEAD) 0 31 ∧ s.keepsParts t [.sent, .nv, .spr, .zid, .used])
  ∧ (∀ (entry : Fin 16) (s : State), s.supplied → ∀ w, s.rateWin entry.val = some w → s.rateOver w = true →
      ∃ t, exec (.rateWindowEnd entry) s = .next t ∧ t.rateWin entry.val = none
        ∧ t.spr.queue.length = s.spr.queue.length + (if 0 < w.suppressed && !s.spr.closed then 1 else 0)
        ∧ s.keepsRegs t spoorRegs ∧ s.keepsParts t [.sent, .spr, .zid])
  ∧ (∀ s : State, s.supplied → ∃ t, exec .opsecTick s = .next t ∧ t.rd Reg.SPR_OPSEC = s.rd Reg.SPR_OPSEC + 1#32
      ∧ (s.bit Reg.NVS_WARM 2 = false → t.sramGet opsecWarm 4 = leBytes 4 (s.rd Reg.SPR_OPSEC + 1#32).toNat)
      ∧ s.keepsRegs t [Reg.SPR_OPSEC] ∧ s.keepsParts t [.sent, .nv, .pair])
  ∧ (∀ s : State, s.supplied → s.spr.ready = false → ∃ t, exec .spoorScanDone s = .next t ∧ t.spr.ready = true ∧ t.spr.early = []
      ∧ t.rd Reg.SPR_VALID = BitVec.ofNat 32 (ringSeqs s.nv.ring).length ∧ s.keepsParts t [.sent, .spr, .zid])
  ∧ ∀ s : State, s.supplied → s.spr.ready = true → ∃ t, exec .spoorScanDone s = .next t ∧ t.regs = s.regs ∧ s.keepsParts t [.sent]

/-- ASSERT is a trigger of FAULT_N. A granted write of ZID_FAULT_CTRL.ASSERT completes with answer OK: LAST records SOURCE
0, bit 0 and KIND 1; FIRST records the same only if the pin was high (phase 0) before it; CNT_FAULT rises by one and
saturates; STAT.TRIG and IRQ.TRIG are set; HOLD is as written, or 1 under LATCH; MINW restarts from the present instant. No
other register or component changes, but for those of the request itself. That FIRST goes by the pin before the write when
HOLD is written beside ASSERT is the model's reading (log entry 12). (R485, R486, R487, spec/21_block_status_fault_pin.md.)
-/
def Obligations.FaultAssertTriggers : Prop :=
  ∀ (src : Src) (hold : Bool) (s : State), s.supplied → s.grants src Reg.ZID_FAULT_CTRL (BitVec.ofNat 32 (hold.toNat + 2)) →
    ∃ t, exec (.faultAssert src hold) s = .next t ∧ t.answer.status = .ok
      ∧ t.rd Reg.ZID_FAULT_LAST = 0x10000#32
      ∧ t.rd Reg.ZID_FAULT_FIRST = (if s.faultPhase = 0 then 0x10000#32 else s.rd Reg.ZID_FAULT_FIRST)
      ∧ (t.rd Reg.ZID_CNT_FAULT).toNat = min 0xFFFFFFFF ((s.rd Reg.ZID_CNT_FAULT).toNat + 1)
      ∧ t.rd Reg.ZID_STAT = putBit (s.rd Reg.ZID_STAT) 0 true ∧ t.rd Reg.ZID_IRQ = putBit (s.rd Reg.ZID_IRQ) 0 true
      ∧ t.bit Reg.ZID_FAULT_CTRL 0 = (hold || s.bit Reg.ZID_FAULT_CFG 16)
      ∧ t.zid.minLeft = s.fld Reg.ZID_FAULT_CFG 0 12 ∧ t.zid.trigAt = s.oscNs
      ∧ s.keepsRegs t (hostRegs ++ pinRegs) ∧ s.keepsParts t (.zid :: hostParts)

/-- A trigger records its source and restarts the minimum pulse. At the trigger that takes the pin from high to low (phase 0
before it) FIRST takes the trigger's SOURCE, IRQ bit number and KIND, and otherwise stays; at every trigger LAST takes them,
CNT_FAULT rises by one and saturates, and STAT.TRIG and IRQ.TRIG are set; an ASSERT is recorded with SOURCE 0 and KIND 1;
with LATCH at 1 HOLD is set, MINW restarts; no other register and no other component changes. (R487.) -/
def Obligations.TriggerRecords : Prop :=
  (∀ (s : State) (source i : Nat) (kind : Bool), source < 256 → i < 256 →
    let t := s.trigger source i kind
    let w : Word := BitVec.ofNat 32 (source + i * 2 ^ 8 + kind.toNat * 2 ^ 16)
    t.rd Reg.ZID_FAULT_FIRST = (if s.faultPhase = 0 then w else s.rd Reg.ZID_FAULT_FIRST) ∧ t.rd Reg.ZID_FAULT_LAST = w
      ∧ bitsOf (t.rd Reg.ZID_FAULT_LAST) 0 8 = source ∧ bitsOf (t.rd Reg.ZID_FAULT_LAST) 8 8 = i
      ∧ bitOf (t.rd Reg.ZID_FAULT_LAST) 16 = kind
      ∧ (t.rd Reg.ZID_CNT_FAULT).toNat = min 0xFFFFFFFF ((s.rd Reg.ZID_CNT_FAULT).toNat + 1)
      ∧ t.bit Reg.ZID_STAT 0 = true ∧ t.bit Reg.ZID_IRQ 0 = true
      ∧ (s.bit Reg.ZID_FAULT_CFG 16 = true → t.bit Reg.ZID_FAULT_CTRL 0 = true)
      ∧ (s.bit Reg.ZID_FAULT_CFG 16 = false → t.rd Reg.ZID_FAULT_CTRL = s.rd Reg.ZID_FAULT_CTRL)
      ∧ t.zid.minLeft = s.fld Reg.ZID_FAULT_CFG 0 12 ∧ s.keepsRegs t pinRegs ∧ s.keepsParts t [.zid])
  ∧ ∀ (s : State) (slot : Nat) (v : Word), bitOf v 1 = true →
      (s.wordWrite slot [] (Reg.ZID_FAULT_CTRL, v)).rd Reg.ZID_FAULT_LAST = 0x10000#32

/-- The fault pin's interval, HOLD and readback. MINW_END ends the interval when its MINW ms have passed; HOLD_WRITE sets
HOLD as written and leaves the interval (R486). PIN_READBACK: while the pin is driven low the count of low readings
restarts; while it is driven high the reading, inverted by an armed PINCHK whose bit clears and counts, is kept, and a
second low reading in a row sets STAT.PINERR and IRQ.PINERR. Nothing else changes. (R485, R486, R488, R490,
spec/21_block_status_fault_pin.md.) -/
def Obligations.FaultPinCommands : Prop :=
  (∀ s : State, s.supplied → ∃ t, exec .minwEnd s = .next t
      ∧ t.zid = (if s.reached (s.zid.trigAt + s.zid.minLeft * 1000000) then { s.zid with minLeft := 0 } else s.zid) ∧ t.regs = s.regs
      ∧ s.keepsParts t [.sent, .zid])
  ∧ (∀ (src : Src) (hold : Bool) (s : State), s.supplied → s.grants src Reg.ZID_FAULT_CTRL (BitVec.ofNat 32 hold.toNat) →
      ∃ t, exec (.holdWrite src hold) s = .next t ∧ t.answer.status = .ok ∧ t.bit Reg.ZID_FAULT_CTRL 0 = hold
        ∧ s.keepsRegs t (Reg.ZID_FAULT_CTRL :: hostRegs) ∧ s.keepsParts t hostParts)
  ∧ (∀ (level : Bool) (s : State), s.supplied → s.faultPhase ≠ 0 →
      ∃ t, exec (.pinReadback level) s = .next t ∧ t.zid = { s.zid with lowReads := 0 } ∧ t.regs = s.regs
        ∧ s.keepsParts t [.sent, .zid])
  ∧ ∀ (level : Bool) (s : State), s.supplied → s.faultPhase = 0 →
      ∃ t, exec (.pinReadback level) s = .next t
        ∧ (let low := (!level) != s.bit Reg.ZID_INJ 0
           let n := if low then s.zid.lowReads + 1 else 0
           t.zid = { s.zid with lowReads := min 2 n } ∧ t.bit Reg.ZID_FAULT_STATE 4 = level
           ∧ t.rd Reg.ZID_STAT = (if 2 ≤ n then putBit (s.rd Reg.ZID_STAT) 1 true else s.rd Reg.ZID_STAT)
           ∧ t.rd Reg.ZID_IRQ = (if 2 ≤ n then putBit (s.rd Reg.ZID_IRQ) 1 true else s.rd Reg.ZID_IRQ))
        ∧ t.bit Reg.ZID_INJ 0 = false
        ∧ s.keepsRegs t [Reg.ZID_FAULT_STATE, Reg.ZID_STAT, Reg.ZID_IRQ, Reg.ZID_INJ, Reg.ZID_CNT_INJ] ∧ s.keepsParts t [.sent, .zid]

/-- LED test and the enable of fault injection. LEDTEST lights all LEDs until LEDTEST_END, 2 s after it; INJEN takes the
written value; a write of INJEN = 0, by either command, clears every pending bit of every INJ register without running its
test, and a write of 1 leaves them. ZID_LED_STAT during a test shows every LED lit. Nothing else changes but for the request
itself. (R482, R489, spec/21_block_status_fault_pin.md.) -/
def Obligations.LedTestAndInjectionEnable : Prop :=
  (∀ (src : Src) (injen : Bool) (s : State), s.supplied → s.grants src Reg.ZID_CTRL (BitVec.ofNat 32 (injen.toNat + 2 ^ 8)) →
      ∃ t, exec (.ledtest src injen) s = .next t ∧ t.answer.status = .ok ∧ t.zid = { s.zid with ledTest := true, ledAt := s.oscNs }
        ∧ t.ledStat = 0x35#32 ∧ t.bit Reg.ZID_CTRL 0 = injen ∧ (injen = false → ∀ a ∈ injRegs, t.rd a = 0#32)
        ∧ s.keepsRegs t (Reg.ZID_CTRL :: (hostRegs ++ if injen then [] else injRegs))
        ∧ t.lap = (if injen then s.lap else { s.lap with zcDone := 0 }) ∧ s.keepsParts t (.zid :: .lap :: hostParts))
  ∧ (∀ s : State, s.supplied → ∃ t, exec .ledtestEnd s = .next t
      ∧ t.zid = (if s.reached (s.zid.ledAt + 2000000000) then { s.zid with ledTest := false } else s.zid) ∧ t.regs = s.regs
      ∧ s.keepsParts t [.sent, .zid])
  ∧ ∀ (src : Src) (injen : Bool) (s : State), s.supplied → s.grants src Reg.ZID_CTRL (BitVec.ofNat 32 injen.toNat) →
      ∃ t, exec (.injenWrite src injen) s = .next t ∧ t.answer.status = .ok ∧ t.bit Reg.ZID_CTRL 0 = injen
        ∧ (injen = false → ∀ a ∈ injRegs, t.rd a = 0#32)
        ∧ s.keepsRegs t (Reg.ZID_CTRL :: (hostRegs ++ if injen then [] else injRegs))
        ∧ t.lap = (if injen then s.lap else { s.lap with zcDone := 0 }) ∧ s.keepsParts t (.lap :: hostParts)

/-- Start-up and power: power-up, a hurdle's end and time-out, the resets, the ways, power failure, shutdown and loss.
Power-up starts a module that is off: what only power holds is reset, the stores stay. A hurdle that ends well in its limit
is passed, its END and the next START entry are written, and the next begins; H15 completes the start. A failed or late
critical hurdle stops the start, another is missed and passed over; one that is not due to end stands. A failed start resets
itself after 1 s, RESTART resets a halted one. WAYCLR and IMG_BOOT set ways to NORMAL. A detected failure stops, stores and
writes SHUT; a dip counts; the shutdown's end, or a loss of power, leaves the module off, with only the interrupted write
torn. (R27, R426, R436, R474, R491, R495, R496, R497, R498, R501, R502, R503.) -/
def Obligations.StartUp : Prop :=
  (∀ (vbulk : BitVec 16) (sub : BitVec 15) (s : State),
    (s.boot.phase ≠ Phase.off → s.boot.cur ≠ some 0 → ∃ t, exec (.powerUp vbulk sub) s = .next t ∧ t = s.clearSent)
    ∧ (s.boot.phase = Phase.off ∨ s.boot.cur = some 0 → ∃ t, exec (.powerUp vbulk sub) s = .next t
      ∧ t.boot = { State.reset.boot with ledger := s.boot.ledger, badSlots := s.boot.badSlots }
      ∧ t.nv = { s.nv with sram := [], dirty := [], tallyJobs := [], pwJobs := [], pwFails := [], store := none, jobs := [], failed := [] }
      ∧ t.img = { State.reset.img with slotA := s.img.slotA, slotB := s.img.slotB } ∧ t.key.slots = s.key.slots ∧ t.key.job = none
      ∧ t.lap = State.reset.lap ∧ t.sett = State.reset.sett ∧ t.dsp = State.reset.dsp ∧ t.field = State.reset.field ∧ t.loops = State.reset.loops
      ∧ t.hwp = State.reset.hwp ∧ t.eth = State.reset.eth ∧ t.can = State.reset.can ∧ t.pending = s.pending
      ∧ t.pair = { State.reset.pair with role := s.fld Reg.PAIR_CFG 0 2, sideB := s.bit Reg.PAIR_CFG 4, intlkIn := s.pair.intlkIn, grantIn := s.pair.grantIn }
      ∧ t.nat Reg.PWR_VBULK = vbulk.toNat ∧ t.bit Reg.BOOT_STAT 4 = false
      ∧ t.fld Reg.IMG_SLOTA_STAT 0 2 = (if s.fld Reg.IMG_SLOTA_STAT 0 2 = 1 then 3 else s.fld Reg.IMG_SLOTA_STAT 0 2)
      ∧ t.rd Reg.IMG_SLOTA_SERIAL = s.rd Reg.IMG_SLOTA_SERIAL ∧ t.rd Reg.LAP_COUNT_LO = 0#32 ∧ t.rd Reg.IMG_RUN = 0#32))
  ∧ (∀ (r : HurdleReport) (s : State), s.supplied → s.boot.cur.all (fun h => r.ok && !s.hurdleLate h (s.wayNow h) 1 && !s.hurdleReady h (s.wayNow h)) = true →
      ∃ t, exec (.hurdleEnd r) s = .next t ∧ t = s.clearSent)
  ∧ (∀ (r : HurdleReport) (s : State), s.supplied → ∀ h, s.boot.cur = some h → s.boot.act = false → s.bit Reg.BOOT_INJ 0 = false → s.bit Reg.NVS_INJ 0 = false →
      (let late := s.hurdleLate h (s.wayNow h) 1
       let crit := h == 0 || h == 1 || h == 4 || h == 5 || h == 6 || h == 10 || h == 15
       (r.ok = true → late = false → s.hurdleReady h (s.wayNow h) = true → h < 16 → h ≠ 9 → ∃ t, exec (.hurdleEnd r) s = .next t
          ∧ t.boot.passed.contains h = true ∧ (∀ k : Fin 16, k.val ≠ h → t.boot.passed.contains k.val = s.boot.passed.contains k.val)
          ∧ (h = 15 → s.boot.resume = none → t.boot.phase = Phase.running ∧ t.boot.cur = none ∧ t.bit Reg.BOOT_CUR 8 = true ∧ t.bit Reg.BOOT_IRQ 0 = true)
          ∧ (h ≠ 1 → h < 15 → s.boot.phase = Phase.starting →
              (let next := if (h = 10 ∧ s.imgRuns = false) then 13 else if (h = 13 ∧ s.imgRuns = false) then 15 else h + 1
               s.wayNow next ≠ 3 → next ≠ 14 → t.boot.cur = some next ∧ t.fld Reg.BOOT_CUR 0 4 = next ∧ t.boot.since = s.now))
          ∧ (2 ≤ h → h < 15 → s.boot.ledger.isEmpty = false → s.boot.phase = Phase.starting → s.boot.ledger.all (fun e => e.1 < 2048) = true →
              assocGet ⟨0#32, 0, 0, false, 0, 0, 0, 0, 0⟩ t.boot.ledger ((s.rd Reg.BOOT_LEDGER_HEAD + 1).toNat % 2048)
                = ⟨s.rd Reg.BOOT_LEDGER_HEAD + 1, s.bootCount, h, false, 2, if h = 12 && t.dsp.nofit && s.wayNow 12 != 2 then 4 else 1, s.wayNow h, 0, s.bootMs⟩))
       ∧ (r.ok = false ∨ late = true → h < 16 → ∃ t, exec (.hurdleEnd r) s = .next t
          ∧ (crit = true → t.boot.phase = Phase.failed ∧ t.boot.cur = none ∧ t.boot.failNs = s.oscNs ∧ t.boot.passed = s.boot.passed)
          ∧ (crit = false → t.boot.passed.contains h = false ∧ (t.boot.phase = Phase.failed → s.boot.phase = Phase.failed))
          ∧ (2 ≤ h → s.boot.ledger.isEmpty = false →
              assocGet ⟨0#32, 0, 0, false, 0, 0, 0, 0, 0⟩ t.boot.ledger ((s.rd Reg.BOOT_LEDGER_HEAD + 1).toNat % 2048)
                = ⟨s.rd Reg.BOOT_LEDGER_HEAD + 1, s.bootCount, h, false, 2, if late then 3 else 2, s.wayNow h, r.detail.toNat, s.bootMs⟩))))
  ∧ (∀ (detail : BitVec 8) (s : State), s.supplied →
      (∀ h, s.boot.cur = some h → s.hurdleLate h (s.wayNow h) 0 = false → ∃ t, exec (.hurdleTimeout detail) s = .next t ∧ t = s.clearSent)
      ∧ (∀ h, s.boot.cur = some h → s.boot.act = false → s.bit Reg.BOOT_INJ 0 = false → s.bit Reg.NVS_INJ 0 = false → s.hurdleLate h (s.wayNow h) 0 = true → h < 16 →
        ∃ t, exec (.hurdleTimeout detail) s = .next t
          ∧ (let crit := h == 0 || h == 1 || h == 4 || h == 5 || h == 6 || h == 10 || h == 15
             (crit = true → t.boot.phase = Phase.failed ∧ t.boot.cur = none ∧ t.boot.failNs = s.oscNs)
             ∧ (crit = false → t.boot.passed.contains h = false ∧ (t.boot.phase = Phase.failed → s.boot.phase = Phase.failed))
             ∧ (2 ≤ h → s.boot.ledger.isEmpty = false →
                assocGet ⟨0#32, 0, 0, false, 0, 0, 0, 0, 0⟩ t.boot.ledger ((s.rd Reg.BOOT_LEDGER_HEAD + 1).toNat % 2048)
                  = ⟨s.rd Reg.BOOT_LEDGER_HEAD + 1, s.bootCount, h, false, 2, 3, s.wayNow h, detail.toNat, s.bootMs⟩))))
  ∧ (∀ s : State, s.supplied →
      (s.boot.phase ≠ Phase.failed ∨ s.oscNs < s.boot.failNs + 1000000000 → ∃ t, exec .selfReset s = .next t ∧ t = s.clearSent)
      ∧ (s.boot.phase = Phase.failed → s.boot.failNs + 1000000000 ≤ s.oscNs → ∃ t, exec .selfReset s = .next t
        ∧ t.boot = { State.reset.boot with ledger := s.boot.ledger, badSlots := s.boot.badSlots } ∧ t.bit Reg.BOOT_STAT 4 = true
        ∧ t.nv = { s.nv with sram := [], dirty := [], tallyJobs := [], pwJobs := [], pwFails := [], store := none, jobs := [], failed := [] }
        ∧ t.img = { State.reset.img with slotA := s.img.slotA, slotB := s.img.slotB } ∧ t.lap = State.reset.lap ∧ t.dsp = State.reset.dsp ∧ t.pending = s.pending))
  ∧ (∀ (src : Src) (hurdles : BitVec 16) (s : State), s.supplied → s.grants src Reg.BOOT_CTRL (BitVec.ofNat 32 hurdles.toNat) →
      ∃ t, exec (.wayclr src hurdles) s = .next t ∧ t.answer.status = .ok
        ∧ (∀ h : Fin 16, t.fld Reg.BOOT_WAY (2 * h.val) 2 = (if hurdles.toNat.testBit h.val then 0 else s.fld Reg.BOOT_WAY (2 * h.val) 2))
        ∧ s.keepsRegs t (Reg.BOOT_WAY :: hostRegs) ∧ s.keepsParts t hostParts)
  ∧ (∀ (src : Src) (s : State), s.supplied → s.grants src Reg.BOOT_CTRL 0x10000#32 → s.bit Reg.BOOT_CUR 9 = true
      ∧ ∃ t, exec (.bootRestart src) s = .next t ∧ t.answer.status = .ok
        ∧ t.boot = { State.reset.boot with ledger := s.boot.ledger, badSlots := s.boot.badSlots } ∧ t.bit Reg.BOOT_STAT 4 = true
        ∧ t.img = { State.reset.img with slotA := s.img.slotA, slotB := s.img.slotB } ∧ t.lap = State.reset.lap ∧ t.pending = s.pending)
  ∧ (∀ (src : Src) (b : Bool) (s : State), s.supplied → s.grants src Reg.IMG_BOOT (BitVec.ofNat 32 b.toNat) →
      ∃ t, exec (.imgBootWrite src b) s = .next t ∧ t.answer.status = .ok ∧ t.bit Reg.IMG_BOOT 0 = b ∧ t.fld Reg.BOOT_WAY 18 2 = 0
        ∧ (∀ h : Fin 16, h ≠ 9 → t.fld Reg.BOOT_WAY (2 * h.val) 2 = s.fld Reg.BOOT_WAY (2 * h.val) 2)
        ∧ s.keepsRegs t ([Reg.IMG_BOOT, Reg.BOOT_WAY] ++ hostRegs) ∧ s.keepsParts t hostParts)
  ∧ (∀ (below : Bool) (v : BitVec 16) (laps : List FeederLap) (ns : BitVec 25) (s : State), s.supplied → ∃ t, exec (.powerFail below v laps ns) s = .next t
      ∧ (let found := s.boot.phase != Phase.shutdown && below != s.bit Reg.PWR_INJ 0
         t.nat Reg.PWR_VBULK = v.toNat ∧ t.bit Reg.PWR_INJ 0 = false
         ∧ (found = false → s.keepsRegs t [Reg.PWR_VBULK, Reg.PWR_INJ, Reg.ZID_CNT_INJ] ∧ s.keepsParts t [.sent])
         ∧ (found = true → t.boot.phase = Phase.shutdown ∧ t.boot.cur = none ∧ t.boot.control = false ∧ t.spr.closed = true ∧ t.lap.batonQ = []
            ∧ t.lap.batonHeld = [0, 0, 0, 0, 0, 0] ∧ t.bit Reg.RTC_CHG 5 = false ∧ t.dsp.dlOpen = false ∧ (t.dsp.solve.all (fun x => !x.running)) = true
            ∧ t.sett = { s.sett with ws := none } ∧ t.bit Reg.NVS_WARM 2 = true ∧ (s.fld Reg.FBP_STATE 0 2 = 2 → t.fld Reg.FBP_STATE 0 2 = 1 ∧ t.fld Reg.FBP_STATE 4 3 = 5)
            ∧ (s.bit Reg.NVS_INJ 0 = false → s.boot.ledger.isEmpty = false →
                assocGet ⟨0#32, 0, 0, false, 0, 0, 0, 0, 0⟩ t.boot.ledger ((s.rd Reg.BOOT_LEDGER_HEAD + 1).toNat % 2048)
                  = ⟨s.rd Reg.BOOT_LEDGER_HEAD + 1, s.bootCount, s.fld Reg.BOOT_CUR 0 4, false, 3, 0, 0, s.boot.cur.getD 0x10, s.bootMs⟩)
            ∧ t.img = s.img ∧ t.hwp = s.hwp ∧ t.eth = s.eth ∧ t.loops = s.loops ∧ t.key.slots = s.key.slots ∧ t.nv.user = s.nv.user)))
  ∧ (∀ (v : BitVec 16) (s : State), s.supplied → ∃ t, exec (.dip v) s = .next t
      ∧ t.nat Reg.PWR_VBULK = v.toNat ∧ t.bit Reg.PWR_STAT 1 = true ∧ t.nat Reg.PWR_CNT_DIP = min 0xFFFFFFFF (s.nat Reg.PWR_CNT_DIP + 1) ∧ t.bit Reg.PWR_IRQ 0 = true
      ∧ s.keepsRegs t ([Reg.PWR_VBULK, Reg.PWR_STAT, Reg.PWR_CNT_DIP, Reg.PWR_IRQ] ++ pinRegs) ∧ s.keepsParts t [.sent, .zid])
  ∧ (∀ (tenths : BitVec 16) (s : State), s.supplied → ∃ t, exec (.shutdownDone tenths) s = .next t
      ∧ (s.boot.phase ≠ Phase.shutdown → t = s.clearSent)
      ∧ (s.boot.phase = Phase.shutdown → t.boot = { s.boot with phase := .off } ∧ t.fld Reg.PWR_LASTSHUT 0 16 = tenths.toNat)
      ∧ s.keepsRegs t [Reg.PWR_LASTSHUT] ∧ s.keepsParts t [.sent, .boot])
  ∧ ∀ (torn : Torn) (s : State), s.supplied → ∃ t, exec (.lossOfPower torn) s = .next t
      ∧ t.boot.phase = Phase.off ∧ t.boot.cur = none ∧ t.img = s.img
      ∧ (torn = .nothing → t.nv = s.nv ∧ t.key = s.key ∧ t.mtr = s.mtr ∧ t.fab = s.fab ∧ t.boot = { s.boot with phase := .off, cur := none })
      ∧ ((match torn with | .userPage _ => true | _ => false) = false → t.nv.user = s.nv.user) ∧ ((match torn with | .spoorPage _ => true | _ => false) = false → t.nv.ring = s.nv.ring) ∧ ((match torn with | .storePage _ => true | _ => false) = false → t.nv.warmCells = s.nv.warmCells)
      ∧ (torn ≠ .keyCopy → t.key = s.key) ∧ (torn ≠ .mapCopy → t.fab = s.fab) ∧ (torn ≠ .meterCopy → t.mtr = s.mtr) ∧ (torn ≠ .ledgerEntry → t.boot.ledger = s.boot.ledger)
      ∧ s.keepsParts t [.sent, .nv, .spr, .zid, .boot, .fab, .key, .pair, .mtr, .used]
end

