-- ==== Sys2Proof/Laws/Tab.lean ====
section
/-!
SUPPORT. Laws/Tab.lean: sparse tables: a read after a write gives what was written, a write leaves every other key alone,
and every operation keeps the canonical form.
-/

namespace Sys2Proof.Machine

theorem tabGet_tabPut {w : Nat} (d : BitVec w) (t : Tab w) (k j : Nat) (v : BitVec w) :
    tabGet d (tabPut t k v) j = if j = k then v else tabGet d t j := by
  induction t with
  | nil => simp only [tabPut, tabGet, eq_comm]
  | cons e t ih =>
    obtain ⟨a, x⟩ := e
    unfold tabPut
    split
    · simp only [tabGet]; by_cases h : k = j
      · simp only [h, if_true]
      · rw [if_neg h, if_neg (Ne.symm h)]
    · split
      · rename_i h2
        subst h2
        simp only [tabGet]; by_cases h : a = j
        · simp only [h, if_true]
        · rw [if_neg h, if_neg (Ne.symm h), if_neg h]
      · rename_i h2
        simp only [tabGet, ih]
        by_cases h : a = j
        · have h3 : ¬ j = k := fun h4 => h2 (h.trans h4)
          rw [if_pos h, if_neg h3, if_pos h]
        · rw [if_neg h, if_neg h]

theorem tabGet_filter_ne {w : Nat} (d : BitVec w) (t : Tab w) (k j : Nat) :
    tabGet d (t.filter (fun e => e.1 != k)) j = if j = k then d else tabGet d t j := by
  induction t with
  | nil => simp [tabGet]
  | cons e t ih =>
    obtain ⟨a, x⟩ := e
    by_cases h : a = k
    · subst h
      simp only [List.filter, bne_self_eq_false, ih, tabGet]
      by_cases h' : j = a
      · rw [if_pos h', if_pos h']
      · rw [if_neg h', if_neg h', if_neg (Ne.symm h')]
    · have h1 : (a != k) = true := by simpa using h
      simp only [List.filter, h1, tabGet, ih]
      by_cases h' : a = j
      · have h3 : ¬ j = k := fun h4 => h (h'.trans h4)
        rw [if_pos h', if_neg h3, if_pos h']
      · rw [if_neg h', if_neg h']

/-- A read after a write: the value written at the key, the old value elsewhere. -/
theorem tabGet_tabSet {w : Nat} (d : BitVec w) (t : Tab w) (k j : Nat) (v : BitVec w) :
    tabGet d (tabSet d t k v) j = if j = k then v else tabGet d t j := by
  unfold tabSet
  split
  · subst_vars; exact tabGet_filter_ne v t k j
  · exact tabGet_tabPut d t k j v

/-- A written span reads as its values, and every other key as before. -/
theorem tabGet_tabSetList {w : Nat} (d : BitVec w) (l : List (BitVec w)) (t : Tab w) (k j : Nat) :
    tabGet d (tabSetList d t k l) j = if k ≤ j ∧ j < k + l.length then l.getD (j - k) d else tabGet d t j := by
  induction l generalizing t k with
  | nil =>
    have h : ¬ (k ≤ j ∧ j < k + 0) := by omega
    simp only [tabSetList, List.length_nil, h, if_false]
  | cons x xs ih =>
    simp only [tabSetList, ih, tabGet_tabSet, List.length_cons]
    by_cases h : j = k
    · subst h; simp
    · by_cases h2 : k + 1 ≤ j ∧ j < k + 1 + xs.length
      · have h3 : k ≤ j ∧ j < k + (xs.length + 1) := by omega
        have h4 : j - k = (j - (k + 1)) + 1 := by omega
        simp only [h2, h3, and_self, if_true, h4, List.getD_cons_succ]
      · have h3 : ¬ (k ≤ j ∧ j < k + (xs.length + 1)) := by omega
        rw [if_neg h2, if_neg h3, if_neg h]

/-! ## The canonical form -/

/-- The keys of a table rise strictly and no entry is the default: the same as `tabWf`. -/
theorem tabWf_iff {w : Nat} (d : BitVec w) (t : Tab w) :
    tabWf d t = true ↔ (t.Pairwise (fun a b => a.1 < b.1) ∧ ∀ e ∈ t, e.2 ≠ d) := by
  induction t with
  | nil => simp [tabWf]
  | cons e t ih =>
    obtain ⟨a, x⟩ := e
    cases t with
    | nil => simp [tabWf]
    | cons f t =>
      obtain ⟨b, y⟩ := f
      simp only [tabWf, Bool.and_eq_true, bne_iff_ne, ne_eq, decide_eq_true_eq, ih, List.pairwise_cons, List.mem_cons,
        forall_eq_or_imp]
      constructor
      · rintro ⟨⟨h1, h2⟩, ⟨h3, h4⟩, h5, h6⟩
        exact ⟨⟨⟨h2, fun e he => lt_trans h2 (h3 e he)⟩, h3, h4⟩, h1, h5, h6⟩
      · rintro ⟨⟨⟨h2, _⟩, h3, h4⟩, h1, h5, h6⟩
        exact ⟨⟨h1, h2⟩, ⟨h3, h4⟩, h5, h6⟩

theorem tabWf_filter {w : Nat} (d : BitVec w) (t : Tab w) (p : Nat × BitVec w → Bool) (h : tabWf d t = true) :
    tabWf d (t.filter p) = true := by
  rw [tabWf_iff] at h ⊢
  exact ⟨h.1.filter p, fun e he => h.2 e (List.mem_filter.mp he).1⟩

theorem tabPut_key {w : Nat} (t : Tab w) (k : Nat) (v : BitVec w) (e : Nat × BitVec w) (he : e ∈ tabPut t k v) :
    e = (k, v) ∨ e ∈ t := by
  induction t with
  | nil => simpa [tabPut] using he
  | cons f t ih =>
    obtain ⟨a, x⟩ := f
    unfold tabPut at he
    split at he
    · simpa using he
    · split at he
      · rcases List.mem_cons.mp he with h | h
        · exact .inl h
        · exact .inr (List.mem_cons_of_mem _ h)
      · rcases List.mem_cons.mp he with h | h
        · exact .inr (h ▸ List.mem_cons_self)
        · exact (ih h).imp id (List.mem_cons_of_mem _)

theorem tabWf_tabPut {w : Nat} (d : BitVec w) (t : Tab w) (k : Nat) (v : BitVec w) (h : tabWf d t = true) (hv : v ≠ d) :
    tabWf d (tabPut t k v) = true := by
  rw [tabWf_iff] at h ⊢
  refine ⟨?_, fun e he => (tabPut_key t k v e he).elim (fun e1 => e1 ▸ hv) (h.2 e)⟩
  obtain ⟨hp, -⟩ := h
  induction t with
  | nil => simp [tabPut]
  | cons f t ih =>
    obtain ⟨a, x⟩ := f
    rw [List.pairwise_cons] at hp
    unfold tabPut
    split
    · rename_i hlt
      refine List.pairwise_cons.mpr ⟨fun e he => ?_, List.pairwise_cons.mpr hp⟩
      rcases List.mem_cons.mp he with h1 | h1
      · exact h1 ▸ hlt
      · exact lt_trans hlt (hp.1 e h1)
    · split
      · rename_i heq
        exact List.pairwise_cons.mpr ⟨fun e he => heq ▸ hp.1 e he, hp.2⟩
      · refine List.pairwise_cons.mpr ⟨fun e he => ?_, ih hp.2⟩
        rcases tabPut_key t k v e he with h1 | h1
        · subst h1; simp only at *; omega
        · exact hp.1 e h1

theorem tabWf_tabSet {w : Nat} (d : BitVec w) (t : Tab w) (k : Nat) (v : BitVec w) (h : tabWf d t = true) :
    tabWf d (tabSet d t k v) = true := by
  unfold tabSet
  split
  · exact tabWf_filter d t _ h
  · exact tabWf_tabPut d t k v h ‹_›

theorem tabWf_tabSetList {w : Nat} (d : BitVec w) (l : List (BitVec w)) (t : Tab w) (k : Nat) (h : tabWf d t = true) :
    tabWf d (tabSetList d t k l) = true := by
  induction l generalizing t k with
  | nil => exact h
  | cons x xs ih => exact ih _ _ (tabWf_tabSet d t k x h)

theorem tabWf_foldl_tabSet {w : Nat} (d : BitVec w) (l : List (Nat × BitVec w)) (t : Tab w) (h : tabWf d t = true) :
    tabWf d (l.foldl (fun t e => tabSet d t e.1 e.2) t) = true := by
  induction l generalizing t with
  | nil => exact h
  | cons x xs ih => exact ih _ (tabWf_tabSet d t x.1 x.2 h)

/-- A fold keeps the canonical form when each of its steps does. -/
theorem tabWf_foldl {w : Nat} {α : Type} (d : BitVec w) (l : List α) (f : Tab w → α → Tab w) (t : Tab w)
    (hf : ∀ t x, tabWf d t = true → tabWf d (f t x) = true) (h : tabWf d t = true) : tabWf d (l.foldl f t) = true := by
  induction l generalizing t with
  | nil => exact h
  | cons x xs ih => exact ih _ (hf t x h)

theorem tabWf_tabClear {w : Nat} (d : BitVec w) (t : Tab w) (k n : Nat) (h : tabWf d t = true) :
    tabWf d (tabClear t k n) = true := tabWf_filter d t _ h

theorem tabWf_nil {w : Nat} (d : BitVec w) : tabWf d ([] : Tab w) = true := rfl

/-- Two tables in canonical form that read alike at every key are the same table. -/
theorem tabWf_ext {w : Nat} (d : BitVec w) (t u : Tab w) (ht : tabWf d t = true) (hu : tabWf d u = true)
    (h : ∀ k, tabGet d t k = tabGet d u k) : t = u := by
  induction t generalizing u with
  | nil =>
    cases u with
    | nil => rfl
    | cons e u =>
      have := h e.1
      rw [tabWf_iff] at hu
      simp only [tabGet, ↓reduceIte] at this
      exact absurd this.symm (hu.2 e (by simp))
  | cons e t ih =>
    obtain ⟨a, x⟩ := e
    rw [tabWf_iff, List.pairwise_cons] at ht
    have low : ∀ (r : Tab w) (k : Nat), (∀ e ∈ r, k < e.1) → tabGet d r k = d := by
      intro r k hr
      induction r with
      | nil => rfl
      | cons f r ihr =>
        have h1 := hr f (by simp)
        simp only [tabGet]
        rw [if_neg (by omega)]
        exact ihr (fun e he => hr e (by simp [he]))
    cases u with
    | nil =>
      have := h a
      simp only [tabGet, ↓reduceIte] at this
      exact absurd this (ht.2 (a, x) (by simp))
    | cons f u =>
      obtain ⟨b, y⟩ := f
      rw [tabWf_iff, List.pairwise_cons] at hu
      have hab : a = b := by
        rcases Nat.lt_trichotomy a b with h1 | h1 | h1
        · have h2 := h a
          rw [low ((b, y) :: u) a (by simpa using ⟨h1, fun c e hc => lt_trans h1 (hu.1.1 _ hc)⟩)] at h2
          simp only [tabGet, ↓reduceIte] at h2
          exact absurd h2 (ht.2 (a, x) (by simp))
        · exact h1
        · have h2 := h b
          rw [low ((a, x) :: t) b (by simpa using ⟨h1, fun c e hc => lt_trans h1 (ht.1.1 _ hc)⟩)] at h2
          simp only [tabGet, ↓reduceIte] at h2
          exact absurd h2.symm (hu.2 (b, y) (by simp))
      subst hab
      have hxy : x = y := by simpa [tabGet] using h a
      subst hxy
      congr 1
      refine ih u ?_ ?_ (fun k => ?_)
      · rw [tabWf_iff]; exact ⟨ht.1.2, fun e he => ht.2 e (by simp [he])⟩
      · rw [tabWf_iff]; exact ⟨hu.1.2, fun e he => hu.2 e (by simp [he])⟩
      · have h2 := h k
        simp only [tabGet] at h2
        by_cases hk : a = k
        · subst hk; rw [low t a (fun e he => ht.1.1 e he), low u a (fun e he => hu.1.1 e he)]
        · simpa [hk] using h2

end Sys2Proof.Machine
end

