-- ==== Sys2Proof/Laws/Keeps.lean ====
section
/-!
SUPPORT. Laws/Keeps.lean: the relation that every operation of the model meets: it leaves the queue of waiting commands
alone, keeps the invariant `State.Inv`, and leaves every component of the state alone that
its mask does not name. Bit i of a mask names component i, in the order of the fields of `State` after `pending`, `regs`
and `free`.
-/

namespace Sys2Proof.Machine

/-- From `s` to `t`: the queue stays, the invariant is kept, and a component whose bit of `k`
is 0 stays. -/
structure Keeps (k : Nat) (s t : State) : Prop where
  queue : t.pending = s.pending
  inv : s.Inv → t.Inv
  answer_same : k.testBit 0 = false → t.answer = s.answer
  sent_same : k.testBit 1 = false → t.sent = s.sent
  lap_same : k.testBit 2 = false → t.lap = s.lap
  sett_same : k.testBit 3 = false → t.sett = s.sett
  img_same : k.testBit 4 = false → t.img = s.img
  nv_same : k.testBit 5 = false → t.nv = s.nv
  hwp_same : k.testBit 6 = false → t.hwp = s.hwp
  spr_same : k.testBit 7 = false → t.spr = s.spr
  zid_same : k.testBit 8 = false → t.zid = s.zid
  boot_same : k.testBit 9 = false → t.boot = s.boot
  dsp_same : k.testBit 10 = false → t.dsp = s.dsp
  fab_same : k.testBit 11 = false → t.fab = s.fab
  key_same : k.testBit 12 = false → t.key = s.key
  pair_same : k.testBit 13 = false → t.pair = s.pair
  field_same : k.testBit 14 = false → t.field = s.field
  loops_same : k.testBit 15 = false → t.loops = s.loops
  fbp_same : k.testBit 16 = false → t.fbp = s.fbp
  can_same : k.testBit 17 = false → t.can = s.can
  mtr_same : k.testBit 18 = false → t.mtr = s.mtr
  eth_same : k.testBit 19 = false → t.eth = s.eth
  ptp_same : k.testBit 20 = false → t.ptp = s.ptp
  rtc_same : k.testBit 21 = false → t.rtc = s.rtc
  tscNs_same : k.testBit 22 = false → t.tscNs = s.tscNs
  used_same : k.testBit 23 = false → t.used = s.used

theorem Keeps.refl {k : Nat} (s : State) : Keeps k s s :=
  ⟨rfl, id, fun _ => rfl, fun _ => rfl, fun _ => rfl, fun _ => rfl, fun _ => rfl, fun _ => rfl, fun _ => rfl, fun _ => rfl, fun _ => rfl, fun _ => rfl, fun _ => rfl, fun _ => rfl, fun _ => rfl, fun _ => rfl, fun _ => rfl, fun _ => rfl, fun _ => rfl, fun _ => rfl, fun _ => rfl, fun _ => rfl, fun _ => rfl, fun _ => rfl, fun _ => rfl, fun _ => rfl⟩

theorem Keeps.trans {k : Nat} {s t u : State} (a : Keeps k s t) (b : Keeps k t u) : Keeps k s u :=
  ⟨b.queue.trans a.queue, fun h => b.inv (a.inv h),
    fun h => (b.answer_same h).trans (a.answer_same h),
    fun h => (b.sent_same h).trans (a.sent_same h),
    fun h => (b.lap_same h).trans (a.lap_same h),
    fun h => (b.sett_same h).trans (a.sett_same h),
    fun h => (b.img_same h).trans (a.img_same h),
    fun h => (b.nv_same h).trans (a.nv_same h),
    fun h => (b.hwp_same h).trans (a.hwp_same h),
    fun h => (b.spr_same h).trans (a.spr_same h),
    fun h => (b.zid_same h).trans (a.zid_same h),
    fun h => (b.boot_same h).trans (a.boot_same h),
    fun h => (b.dsp_same h).trans (a.dsp_same h),
    fun h => (b.fab_same h).trans (a.fab_same h),
    fun h => (b.key_same h).trans (a.key_same h),
    fun h => (b.pair_same h).trans (a.pair_same h),
    fun h => (b.field_same h).trans (a.field_same h),
    fun h => (b.loops_same h).trans (a.loops_same h),
    fun h => (b.fbp_same h).trans (a.fbp_same h),
    fun h => (b.can_same h).trans (a.can_same h),
    fun h => (b.mtr_same h).trans (a.mtr_same h),
    fun h => (b.eth_same h).trans (a.eth_same h),
    fun h => (b.ptp_same h).trans (a.ptp_same h),
    fun h => (b.rtc_same h).trans (a.rtc_same h),
    fun h => (b.tscNs_same h).trans (a.tscNs_same h),
    fun h => (b.used_same h).trans (a.used_same h)⟩

/-- A bit that a smaller mask has is a bit of the larger. -/
theorem keeps_bit {k m i : Nat} (hk : k &&& m = m) (h : k.testBit i = false) : m.testBit i = false := by
  rw [← hk, Nat.testBit_land, h, Bool.false_and]

theorem keeps_sub {k m n : Nat} (hk : k &&& m = m) (h : m &&& n = n) : k &&& n = n := by
  rw [← h, ← Nat.land_assoc, hk]

theorem Keeps.weaken {k m : Nat} {s t : State} (hk : k &&& m = m) (a : Keeps m s t) : Keeps k s t :=
  ⟨a.queue, a.inv,
    fun h => a.answer_same (keeps_bit hk h),
    fun h => a.sent_same (keeps_bit hk h),
    fun h => a.lap_same (keeps_bit hk h),
    fun h => a.sett_same (keeps_bit hk h),
    fun h => a.img_same (keeps_bit hk h),
    fun h => a.nv_same (keeps_bit hk h),
    fun h => a.hwp_same (keeps_bit hk h),
    fun h => a.spr_same (keeps_bit hk h),
    fun h => a.zid_same (keeps_bit hk h),
    fun h => a.boot_same (keeps_bit hk h),
    fun h => a.dsp_same (keeps_bit hk h),
    fun h => a.fab_same (keeps_bit hk h),
    fun h => a.key_same (keeps_bit hk h),
    fun h => a.pair_same (keeps_bit hk h),
    fun h => a.field_same (keeps_bit hk h),
    fun h => a.loops_same (keeps_bit hk h),
    fun h => a.fbp_same (keeps_bit hk h),
    fun h => a.can_same (keeps_bit hk h),
    fun h => a.mtr_same (keeps_bit hk h),
    fun h => a.eth_same (keeps_bit hk h),
    fun h => a.ptp_same (keeps_bit hk h),
    fun h => a.rtc_same (keeps_bit hk h),
    fun h => a.tscNs_same (keeps_bit hk h),
    fun h => a.used_same (keeps_bit hk h)⟩

/-- A mask that names a component has its bit. -/
theorem keeps_not {k i : Nat} {p : Prop} (hk : k &&& 2 ^ i = 2 ^ i) (h : k.testBit i = false) : p := by
  have h1 := keeps_bit hk h
  simp [Nat.testBit_two_pow_self] at h1

theorem Keeps.set_answer {k : Nat} {s u : State} {v : Answer} (hk : k &&& 1 = 1) (h : Keeps k s u) :
    Keeps k s { u with answer := v } :=
  ⟨h.queue, fun x => let g := h.inv x; ⟨g.regs, g.nv, g.img, g.fab, g.fbp, g.tick, g.sett, g.can⟩,
    keeps_not (i := 0) (keeps_sub hk rfl), h.sent_same, h.lap_same, h.sett_same, h.img_same, h.nv_same, h.hwp_same, h.spr_same, h.zid_same, h.boot_same, h.dsp_same, h.fab_same, h.key_same, h.pair_same, h.field_same, h.loops_same, h.fbp_same, h.can_same, h.mtr_same, h.eth_same, h.ptp_same, h.rtc_same, h.tscNs_same, h.used_same⟩
theorem Keeps.set_sent {k : Nat} {s u : State} {v : List Frame} (hk : k &&& 2 = 2) (h : Keeps k s u) :
    Keeps k s { u with sent := v } :=
  ⟨h.queue, fun x => let g := h.inv x; ⟨g.regs, g.nv, g.img, g.fab, g.fbp, g.tick, g.sett, g.can⟩,
    h.answer_same, keeps_not (i := 1) (keeps_sub hk rfl), h.lap_same, h.sett_same, h.img_same, h.nv_same, h.hwp_same, h.spr_same, h.zid_same, h.boot_same, h.dsp_same, h.fab_same, h.key_same, h.pair_same, h.field_same, h.loops_same, h.fbp_same, h.can_same, h.mtr_same, h.eth_same, h.ptp_same, h.rtc_same, h.tscNs_same, h.used_same⟩
theorem Keeps.set_lap {k : Nat} {s u : State} {v : LapState} (hk : k &&& 4 = 4)
    (hv : s.Inv → u.Inv → v.tick ≤ 4095) (h : Keeps k s u) :
    Keeps k s { u with lap := v } :=
  ⟨h.queue, fun x => let g := h.inv x; ⟨g.regs, g.nv, g.img, g.fab, g.fbp, hv x g, g.sett, g.can⟩,
    h.answer_same, h.sent_same, keeps_not (i := 2) (keeps_sub hk rfl), h.sett_same, h.img_same, h.nv_same, h.hwp_same, h.spr_same, h.zid_same, h.boot_same, h.dsp_same, h.fab_same, h.key_same, h.pair_same, h.field_same, h.loops_same, h.fbp_same, h.can_same, h.mtr_same, h.eth_same, h.ptp_same, h.rtc_same, h.tscNs_same, h.used_same⟩
theorem Keeps.set_sett {k : Nat} {s u : State} {v : SettState} (hk : k &&& 8 = 8)
    (hv : s.Inv → u.Inv → v.wf) (h : Keeps k s u) :
    Keeps k s { u with sett := v } :=
  ⟨h.queue, fun x => let g := h.inv x; ⟨g.regs, g.nv, g.img, g.fab, g.fbp, g.tick, hv x g, g.can⟩,
    h.answer_same, h.sent_same, h.lap_same, keeps_not (i := 3) (keeps_sub hk rfl), h.img_same, h.nv_same, h.hwp_same, h.spr_same, h.zid_same, h.boot_same, h.dsp_same, h.fab_same, h.key_same, h.pair_same, h.field_same, h.loops_same, h.fbp_same, h.can_same, h.mtr_same, h.eth_same, h.ptp_same, h.rtc_same, h.tscNs_same, h.used_same⟩
theorem Keeps.set_img {k : Nat} {s u : State} {v : ImgState} (hk : k &&& 16 = 16)
    (hv : s.Inv → u.Inv → v.wf) (h : Keeps k s u) :
    Keeps k s { u with img := v } :=
  ⟨h.queue, fun x => let g := h.inv x; ⟨g.regs, g.nv, hv x g, g.fab, g.fbp, g.tick, g.sett, g.can⟩,
    h.answer_same, h.sent_same, h.lap_same, h.sett_same, keeps_not (i := 4) (keeps_sub hk rfl), h.nv_same, h.hwp_same, h.spr_same, h.zid_same, h.boot_same, h.dsp_same, h.fab_same, h.key_same, h.pair_same, h.field_same, h.loops_same, h.fbp_same, h.can_same, h.mtr_same, h.eth_same, h.ptp_same, h.rtc_same, h.tscNs_same, h.used_same⟩
theorem Keeps.set_nv {k : Nat} {s u : State} {v : NvState} (hk : k &&& 32 = 32)
    (hv : s.Inv → u.Inv → v.wf) (h : Keeps k s u) :
    Keeps k s { u with nv := v } :=
  ⟨h.queue, fun x => let g := h.inv x; ⟨g.regs, hv x g, g.img, g.fab, g.fbp, g.tick, g.sett, g.can⟩,
    h.answer_same, h.sent_same, h.lap_same, h.sett_same, h.img_same, keeps_not (i := 5) (keeps_sub hk rfl), h.hwp_same, h.spr_same, h.zid_same, h.boot_same, h.dsp_same, h.fab_same, h.key_same, h.pair_same, h.field_same, h.loops_same, h.fbp_same, h.can_same, h.mtr_same, h.eth_same, h.ptp_same, h.rtc_same, h.tscNs_same, h.used_same⟩
theorem Keeps.set_hwp {k : Nat} {s u : State} {v : HwpState} (hk : k &&& 64 = 64) (h : Keeps k s u) :
    Keeps k s { u with hwp := v } :=
  ⟨h.queue, fun x => let g := h.inv x; ⟨g.regs, g.nv, g.img, g.fab, g.fbp, g.tick, g.sett, g.can⟩,
    h.answer_same, h.sent_same, h.lap_same, h.sett_same, h.img_same, h.nv_same, keeps_not (i := 6) (keeps_sub hk rfl), h.spr_same, h.zid_same, h.boot_same, h.dsp_same, h.fab_same, h.key_same, h.pair_same, h.field_same, h.loops_same, h.fbp_same, h.can_same, h.mtr_same, h.eth_same, h.ptp_same, h.rtc_same, h.tscNs_same, h.used_same⟩
theorem Keeps.set_spr {k : Nat} {s u : State} {v : SpoorState} (hk : k &&& 128 = 128) (h : Keeps k s u) :
    Keeps k s { u with spr := v } :=
  ⟨h.queue, fun x => let g := h.inv x; ⟨g.regs, g.nv, g.img, g.fab, g.fbp, g.tick, g.sett, g.can⟩,
    h.answer_same, h.sent_same, h.lap_same, h.sett_same, h.img_same, h.nv_same, h.hwp_same, keeps_not (i := 7) (keeps_sub hk rfl), h.zid_same, h.boot_same, h.dsp_same, h.fab_same, h.key_same, h.pair_same, h.field_same, h.loops_same, h.fbp_same, h.can_same, h.mtr_same, h.eth_same, h.ptp_same, h.rtc_same, h.tscNs_same, h.used_same⟩
theorem Keeps.set_zid {k : Nat} {s u : State} {v : ZidState} (hk : k &&& 256 = 256) (h : Keeps k s u) :
    Keeps k s { u with zid := v } :=
  ⟨h.queue, fun x => let g := h.inv x; ⟨g.regs, g.nv, g.img, g.fab, g.fbp, g.tick, g.sett, g.can⟩,
    h.answer_same, h.sent_same, h.lap_same, h.sett_same, h.img_same, h.nv_same, h.hwp_same, h.spr_same, keeps_not (i := 8) (keeps_sub hk rfl), h.boot_same, h.dsp_same, h.fab_same, h.key_same, h.pair_same, h.field_same, h.loops_same, h.fbp_same, h.can_same, h.mtr_same, h.eth_same, h.ptp_same, h.rtc_same, h.tscNs_same, h.used_same⟩
theorem Keeps.set_boot {k : Nat} {s u : State} {v : BootState} (hk : k &&& 512 = 512) (h : Keeps k s u) :
    Keeps k s { u with boot := v } :=
  ⟨h.queue, fun x => let g := h.inv x; ⟨g.regs, g.nv, g.img, g.fab, g.fbp, g.tick, g.sett, g.can⟩,
    h.answer_same, h.sent_same, h.lap_same, h.sett_same, h.img_same, h.nv_same, h.hwp_same, h.spr_same, h.zid_same, keeps_not (i := 9) (keeps_sub hk rfl), h.dsp_same, h.fab_same, h.key_same, h.pair_same, h.field_same, h.loops_same, h.fbp_same, h.can_same, h.mtr_same, h.eth_same, h.ptp_same, h.rtc_same, h.tscNs_same, h.used_same⟩
theorem Keeps.set_dsp {k : Nat} {s u : State} {v : DspState} (hk : k &&& 1024 = 1024) (h : Keeps k s u) :
    Keeps k s { u with dsp := v } :=
  ⟨h.queue, fun x => let g := h.inv x; ⟨g.regs, g.nv, g.img, g.fab, g.fbp, g.tick, g.sett, g.can⟩,
    h.answer_same, h.sent_same, h.lap_same, h.sett_same, h.img_same, h.nv_same, h.hwp_same, h.spr_same, h.zid_same, h.boot_same, keeps_not (i := 10) (keeps_sub hk rfl), h.fab_same, h.key_same, h.pair_same, h.field_same, h.loops_same, h.fbp_same, h.can_same, h.mtr_same, h.eth_same, h.ptp_same, h.rtc_same, h.tscNs_same, h.used_same⟩
theorem Keeps.set_fab {k : Nat} {s u : State} {v : FabState} (hk : k &&& 2048 = 2048)
    (hv : s.Inv → u.Inv → v.wf) (h : Keeps k s u) :
    Keeps k s { u with fab := v } :=
  ⟨h.queue, fun x => let g := h.inv x; ⟨g.regs, g.nv, g.img, hv x g, g.fbp, g.tick, g.sett, g.can⟩,
    h.answer_same, h.sent_same, h.lap_same, h.sett_same, h.img_same, h.nv_same, h.hwp_same, h.spr_same, h.zid_same, h.boot_same, h.dsp_same, keeps_not (i := 11) (keeps_sub hk rfl), h.key_same, h.pair_same, h.field_same, h.loops_same, h.fbp_same, h.can_same, h.mtr_same, h.eth_same, h.ptp_same, h.rtc_same, h.tscNs_same, h.used_same⟩
theorem Keeps.set_key {k : Nat} {s u : State} {v : KeyState} (hk : k &&& 4096 = 4096) (h : Keeps k s u) :
    Keeps k s { u with key := v } :=
  ⟨h.queue, fun x => let g := h.inv x; ⟨g.regs, g.nv, g.img, g.fab, g.fbp, g.tick, g.sett, g.can⟩,
    h.answer_same, h.sent_same, h.lap_same, h.sett_same, h.img_same, h.nv_same, h.hwp_same, h.spr_same, h.zid_same, h.boot_same, h.dsp_same, h.fab_same, keeps_not (i := 12) (keeps_sub hk rfl), h.pair_same, h.field_same, h.loops_same, h.fbp_same, h.can_same, h.mtr_same, h.eth_same, h.ptp_same, h.rtc_same, h.tscNs_same, h.used_same⟩
theorem Keeps.set_pair {k : Nat} {s u : State} {v : PairState} (hk : k &&& 8192 = 8192) (h : Keeps k s u) :
    Keeps k s { u with pair := v } :=
  ⟨h.queue, fun x => let g := h.inv x; ⟨g.regs, g.nv, g.img, g.fab, g.fbp, g.tick, g.sett, g.can⟩,
    h.answer_same, h.sent_same, h.lap_same, h.sett_same, h.img_same, h.nv_same, h.hwp_same, h.spr_same, h.zid_same, h.boot_same, h.dsp_same, h.fab_same, h.key_same, keeps_not (i := 13) (keeps_sub hk rfl), h.field_same, h.loops_same, h.fbp_same, h.can_same, h.mtr_same, h.eth_same, h.ptp_same, h.rtc_same, h.tscNs_same, h.used_same⟩
theorem Keeps.set_field {k : Nat} {s u : State} {v : FieldState} (hk : k &&& 16384 = 16384) (h : Keeps k s u) :
    Keeps k s { u with field := v } :=
  ⟨h.queue, fun x => let g := h.inv x; ⟨g.regs, g.nv, g.img, g.fab, g.fbp, g.tick, g.sett, g.can⟩,
    h.answer_same, h.sent_same, h.lap_same, h.sett_same, h.img_same, h.nv_same, h.hwp_same, h.spr_same, h.zid_same, h.boot_same, h.dsp_same, h.fab_same, h.key_same, h.pair_same, keeps_not (i := 14) (keeps_sub hk rfl), h.loops_same, h.fbp_same, h.can_same, h.mtr_same, h.eth_same, h.ptp_same, h.rtc_same, h.tscNs_same, h.used_same⟩
theorem Keeps.set_loops {k : Nat} {s u : State} {v : List (Nat × LoopRun)} (hk : k &&& 32768 = 32768) (h : Keeps k s u) :
    Keeps k s { u with loops := v } :=
  ⟨h.queue, fun x => let g := h.inv x; ⟨g.regs, g.nv, g.img, g.fab, g.fbp, g.tick, g.sett, g.can⟩,
    h.answer_same, h.sent_same, h.lap_same, h.sett_same, h.img_same, h.nv_same, h.hwp_same, h.spr_same, h.zid_same, h.boot_same, h.dsp_same, h.fab_same, h.key_same, h.pair_same, h.field_same, keeps_not (i := 15) (keeps_sub hk rfl), h.fbp_same, h.can_same, h.mtr_same, h.eth_same, h.ptp_same, h.rtc_same, h.tscNs_same, h.used_same⟩
theorem Keeps.set_fbp {k : Nat} {s u : State} {v : FbpState} (hk : k &&& 65536 = 65536)
    (hv : s.Inv → u.Inv → v.wf) (h : Keeps k s u) :
    Keeps k s { u with fbp := v } :=
  ⟨h.queue, fun x => let g := h.inv x; ⟨g.regs, g.nv, g.img, g.fab, hv x g, g.tick, g.sett, g.can⟩,
    h.answer_same, h.sent_same, h.lap_same, h.sett_same, h.img_same, h.nv_same, h.hwp_same, h.spr_same, h.zid_same, h.boot_same, h.dsp_same, h.fab_same, h.key_same, h.pair_same, h.field_same, h.loops_same, keeps_not (i := 16) (keeps_sub hk rfl), h.can_same, h.mtr_same, h.eth_same, h.ptp_same, h.rtc_same, h.tscNs_same, h.used_same⟩
theorem Keeps.set_can {k : Nat} {s u : State} {v : List CanChan} (hk : k &&& 131072 = 131072)
    (hv : s.Inv → u.Inv → v.length = 4) (h : Keeps k s u) :
    Keeps k s { u with can := v } :=
  ⟨h.queue, fun x => let g := h.inv x; ⟨g.regs, g.nv, g.img, g.fab, g.fbp, g.tick, g.sett, hv x g⟩,
    h.answer_same, h.sent_same, h.lap_same, h.sett_same, h.img_same, h.nv_same, h.hwp_same, h.spr_same, h.zid_same, h.boot_same, h.dsp_same, h.fab_same, h.key_same, h.pair_same, h.field_same, h.loops_same, h.fbp_same, keeps_not (i := 17) (keeps_sub hk rfl), h.mtr_same, h.eth_same, h.ptp_same, h.rtc_same, h.tscNs_same, h.used_same⟩
theorem Keeps.set_mtr {k : Nat} {s u : State} {v : MtrState} (hk : k &&& 262144 = 262144) (h : Keeps k s u) :
    Keeps k s { u with mtr := v } :=
  ⟨h.queue, fun x => let g := h.inv x; ⟨g.regs, g.nv, g.img, g.fab, g.fbp, g.tick, g.sett, g.can⟩,
    h.answer_same, h.sent_same, h.lap_same, h.sett_same, h.img_same, h.nv_same, h.hwp_same, h.spr_same, h.zid_same, h.boot_same, h.dsp_same, h.fab_same, h.key_same, h.pair_same, h.field_same, h.loops_same, h.fbp_same, h.can_same, keeps_not (i := 18) (keeps_sub hk rfl), h.eth_same, h.ptp_same, h.rtc_same, h.tscNs_same, h.used_same⟩
theorem Keeps.set_eth {k : Nat} {s u : State} {v : EthState} (hk : k &&& 524288 = 524288) (h : Keeps k s u) :
    Keeps k s { u with eth := v } :=
  ⟨h.queue, fun x => let g := h.inv x; ⟨g.regs, g.nv, g.img, g.fab, g.fbp, g.tick, g.sett, g.can⟩,
    h.answer_same, h.sent_same, h.lap_same, h.sett_same, h.img_same, h.nv_same, h.hwp_same, h.spr_same, h.zid_same, h.boot_same, h.dsp_same, h.fab_same, h.key_same, h.pair_same, h.field_same, h.loops_same, h.fbp_same, h.can_same, h.mtr_same, keeps_not (i := 19) (keeps_sub hk rfl), h.ptp_same, h.rtc_same, h.tscNs_same, h.used_same⟩
theorem Keeps.set_ptp {k : Nat} {s u : State} {v : PtpState} (hk : k &&& 1048576 = 1048576) (h : Keeps k s u) :
    Keeps k s { u with ptp := v } :=
  ⟨h.queue, fun x => let g := h.inv x; ⟨g.regs, g.nv, g.img, g.fab, g.fbp, g.tick, g.sett, g.can⟩,
    h.answer_same, h.sent_same, h.lap_same, h.sett_same, h.img_same, h.nv_same, h.hwp_same, h.spr_same, h.zid_same, h.boot_same, h.dsp_same, h.fab_same, h.key_same, h.pair_same, h.field_same, h.loops_same, h.fbp_same, h.can_same, h.mtr_same, h.eth_same, keeps_not (i := 20) (keeps_sub hk rfl), h.rtc_same, h.tscNs_same, h.used_same⟩
theorem Keeps.set_rtc {k : Nat} {s u : State} {v : RtcState} (hk : k &&& 2097152 = 2097152) (h : Keeps k s u) :
    Keeps k s { u with rtc := v } :=
  ⟨h.queue, fun x => let g := h.inv x; ⟨g.regs, g.nv, g.img, g.fab, g.fbp, g.tick, g.sett, g.can⟩,
    h.answer_same, h.sent_same, h.lap_same, h.sett_same, h.img_same, h.nv_same, h.hwp_same, h.spr_same, h.zid_same, h.boot_same, h.dsp_same, h.fab_same, h.key_same, h.pair_same, h.field_same, h.loops_same, h.fbp_same, h.can_same, h.mtr_same, h.eth_same, h.ptp_same, keeps_not (i := 21) (keeps_sub hk rfl), h.tscNs_same, h.used_same⟩
theorem Keeps.set_tscNs {k : Nat} {s u : State} {v : Nat} (hk : k &&& 4194304 = 4194304) (h : Keeps k s u) :
    Keeps k s { u with tscNs := v } :=
  ⟨h.queue, fun x => let g := h.inv x; ⟨g.regs, g.nv, g.img, g.fab, g.fbp, g.tick, g.sett, g.can⟩,
    h.answer_same, h.sent_same, h.lap_same, h.sett_same, h.img_same, h.nv_same, h.hwp_same, h.spr_same, h.zid_same, h.boot_same, h.dsp_same, h.fab_same, h.key_same, h.pair_same, h.field_same, h.loops_same, h.fbp_same, h.can_same, h.mtr_same, h.eth_same, h.ptp_same, h.rtc_same, keeps_not (i := 22) (keeps_sub hk rfl), h.used_same⟩
theorem Keeps.set_used {k : Nat} {s u : State} {v : List Nat} (hk : k &&& 8388608 = 8388608) (h : Keeps k s u) :
    Keeps k s { u with used := v } :=
  ⟨h.queue, fun x => let g := h.inv x; ⟨g.regs, g.nv, g.img, g.fab, g.fbp, g.tick, g.sett, g.can⟩,
    h.answer_same, h.sent_same, h.lap_same, h.sett_same, h.img_same, h.nv_same, h.hwp_same, h.spr_same, h.zid_same, h.boot_same, h.dsp_same, h.fab_same, h.key_same, h.pair_same, h.field_same, h.loops_same, h.fbp_same, h.can_same, h.mtr_same, h.eth_same, h.ptp_same, h.rtc_same, h.tscNs_same, keeps_not (i := 23) (keeps_sub hk rfl)⟩
theorem Keeps.set_regs {k : Nat} {s u : State} {v : Tab 32}
    (hv : s.Inv → u.Inv → tabWf 0#32 v = true) (h : Keeps k s u) :
    Keeps k s { u with regs := v } :=
  ⟨h.queue, fun x => let g := h.inv x; ⟨hv x g, g.nv, g.img, g.fab, g.fbp, g.tick, g.sett, g.can⟩,
    h.answer_same, h.sent_same, h.lap_same, h.sett_same, h.img_same, h.nv_same, h.hwp_same, h.spr_same, h.zid_same, h.boot_same, h.dsp_same, h.fab_same, h.key_same, h.pair_same, h.field_same, h.loops_same, h.fbp_same, h.can_same, h.mtr_same, h.eth_same, h.ptp_same, h.rtc_same, h.tscNs_same, h.used_same⟩
theorem Keeps.set_ptp_rtc {k : Nat} {s u : State} {v_ptp : PtpState} {v_rtc : RtcState} (hk : k &&& 3145728 = 3145728) (h : Keeps k s u) :
    Keeps k s { u with ptp := v_ptp, rtc := v_rtc } :=
  ⟨h.queue, fun x => let g := h.inv x; ⟨g.regs, g.nv, g.img, g.fab, g.fbp, g.tick, g.sett, g.can⟩,
    h.answer_same, h.sent_same, h.lap_same, h.sett_same, h.img_same, h.nv_same, h.hwp_same, h.spr_same, h.zid_same, h.boot_same, h.dsp_same, h.fab_same, h.key_same, h.pair_same, h.field_same, h.loops_same, h.fbp_same, h.can_same, h.mtr_same, h.eth_same, keeps_not (i := 20) (keeps_sub hk rfl), keeps_not (i := 21) (keeps_sub hk rfl), h.tscNs_same, h.used_same⟩
theorem Keeps.set_key_nv {k : Nat} {s u : State} {v_key : KeyState} {v_nv : NvState} (hk : k &&& 4128 = 4128)
    (hv_nv : s.Inv → u.Inv → v_nv.wf) (h : Keeps k s u) :
    Keeps k s { u with key := v_key, nv := v_nv } :=
  ⟨h.queue, fun x => let g := h.inv x; ⟨g.regs, hv_nv x g, g.img, g.fab, g.fbp, g.tick, g.sett, g.can⟩,
    h.answer_same, h.sent_same, h.lap_same, h.sett_same, h.img_same, keeps_not (i := 5) (keeps_sub hk rfl), h.hwp_same, h.spr_same, h.zid_same, h.boot_same, h.dsp_same, h.fab_same, keeps_not (i := 12) (keeps_sub hk rfl), h.pair_same, h.field_same, h.loops_same, h.fbp_same, h.can_same, h.mtr_same, h.eth_same, h.ptp_same, h.rtc_same, h.tscNs_same, h.used_same⟩
theorem Keeps.set_fbp_field {k : Nat} {s u : State} {v_fbp : FbpState} {v_field : FieldState} (hk : k &&& 81920 = 81920)
    (hv_fbp : s.Inv → u.Inv → v_fbp.wf) (h : Keeps k s u) :
    Keeps k s { u with fbp := v_fbp, field := v_field } :=
  ⟨h.queue, fun x => let g := h.inv x; ⟨g.regs, g.nv, g.img, g.fab, hv_fbp x g, g.tick, g.sett, g.can⟩,
    h.answer_same, h.sent_same, h.lap_same, h.sett_same, h.img_same, h.nv_same, h.hwp_same, h.spr_same, h.zid_same, h.boot_same, h.dsp_same, h.fab_same, h.key_same, h.pair_same, keeps_not (i := 14) (keeps_sub hk rfl), h.loops_same, keeps_not (i := 16) (keeps_sub hk rfl), h.can_same, h.mtr_same, h.eth_same, h.ptp_same, h.rtc_same, h.tscNs_same, h.used_same⟩
theorem Keeps.set_sett_pair {k : Nat} {s u : State} {v_sett : SettState} {v_pair : PairState} (hk : k &&& 8200 = 8200)
    (hv_sett : s.Inv → u.Inv → v_sett.wf) (h : Keeps k s u) :
    Keeps k s { u with sett := v_sett, pair := v_pair } :=
  ⟨h.queue, fun x => let g := h.inv x; ⟨g.regs, g.nv, g.img, g.fab, g.fbp, g.tick, hv_sett x g, g.can⟩,
    h.answer_same, h.sent_same, h.lap_same, keeps_not (i := 3) (keeps_sub hk rfl), h.img_same, h.nv_same, h.hwp_same, h.spr_same, h.zid_same, h.boot_same, h.dsp_same, h.fab_same, h.key_same, keeps_not (i := 13) (keeps_sub hk rfl), h.field_same, h.loops_same, h.fbp_same, h.can_same, h.mtr_same, h.eth_same, h.ptp_same, h.rtc_same, h.tscNs_same, h.used_same⟩
theorem Keeps.set_img_dsp_fab {k : Nat} {s u : State} {v_img : ImgState} {v_dsp : DspState} {v_fab : FabState} (hk : k &&& 3088 = 3088)
    (hv_img : s.Inv → u.Inv → v_img.wf)
    (hv_fab : s.Inv → u.Inv → v_fab.wf) (h : Keeps k s u) :
    Keeps k s { u with img := v_img, dsp := v_dsp, fab := v_fab } :=
  ⟨h.queue, fun x => let g := h.inv x; ⟨g.regs, g.nv, hv_img x g, hv_fab x g, g.fbp, g.tick, g.sett, g.can⟩,
    h.answer_same, h.sent_same, h.lap_same, h.sett_same, keeps_not (i := 4) (keeps_sub hk rfl), h.nv_same, h.hwp_same, h.spr_same, h.zid_same, h.boot_same, keeps_not (i := 10) (keeps_sub hk rfl), keeps_not (i := 11) (keeps_sub hk rfl), h.key_same, h.pair_same, h.field_same, h.loops_same, h.fbp_same, h.can_same, h.mtr_same, h.eth_same, h.ptp_same, h.rtc_same, h.tscNs_same, h.used_same⟩
theorem Keeps.set_dsp_fab {k : Nat} {s u : State} {v_dsp : DspState} {v_fab : FabState} (hk : k &&& 3072 = 3072)
    (hv_fab : s.Inv → u.Inv → v_fab.wf) (h : Keeps k s u) :
    Keeps k s { u with dsp := v_dsp, fab := v_fab } :=
  ⟨h.queue, fun x => let g := h.inv x; ⟨g.regs, g.nv, g.img, hv_fab x g, g.fbp, g.tick, g.sett, g.can⟩,
    h.answer_same, h.sent_same, h.lap_same, h.sett_same, h.img_same, h.nv_same, h.hwp_same, h.spr_same, h.zid_same, h.boot_same, keeps_not (i := 10) (keeps_sub hk rfl), keeps_not (i := 11) (keeps_sub hk rfl), h.key_same, h.pair_same, h.field_same, h.loops_same, h.fbp_same, h.can_same, h.mtr_same, h.eth_same, h.ptp_same, h.rtc_same, h.tscNs_same, h.used_same⟩
theorem Keeps.set_lap_tscNs {k : Nat} {s u : State} {v_lap : LapState} {v_tscNs : Nat} (hk : k &&& 4194308 = 4194308)
    (hv_lap : s.Inv → u.Inv → v_lap.tick ≤ 4095) (h : Keeps k s u) :
    Keeps k s { u with lap := v_lap, tscNs := v_tscNs } :=
  ⟨h.queue, fun x => let g := h.inv x; ⟨g.regs, g.nv, g.img, g.fab, g.fbp, hv_lap x g, g.sett, g.can⟩,
    h.answer_same, h.sent_same, keeps_not (i := 2) (keeps_sub hk rfl), h.sett_same, h.img_same, h.nv_same, h.hwp_same, h.spr_same, h.zid_same, h.boot_same, h.dsp_same, h.fab_same, h.key_same, h.pair_same, h.field_same, h.loops_same, h.fbp_same, h.can_same, h.mtr_same, h.eth_same, h.ptp_same, h.rtc_same, keeps_not (i := 22) (keeps_sub hk rfl), h.used_same⟩
theorem Keeps.set_hwp_key_eth_nv {k : Nat} {s u : State} {v_hwp : HwpState} {v_key : KeyState} {v_eth : EthState} {v_nv : NvState} (hk : k &&& 528480 = 528480)
    (hv_nv : s.Inv → u.Inv → v_nv.wf) (h : Keeps k s u) :
    Keeps k s { u with hwp := v_hwp, key := v_key, eth := v_eth, nv := v_nv } :=
  ⟨h.queue, fun x => let g := h.inv x; ⟨g.regs, hv_nv x g, g.img, g.fab, g.fbp, g.tick, g.sett, g.can⟩,
    h.answer_same, h.sent_same, h.lap_same, h.sett_same, h.img_same, keeps_not (i := 5) (keeps_sub hk rfl), keeps_not (i := 6) (keeps_sub hk rfl), h.spr_same, h.zid_same, h.boot_same, h.dsp_same, h.fab_same, keeps_not (i := 12) (keeps_sub hk rfl), h.pair_same, h.field_same, h.loops_same, h.fbp_same, h.can_same, h.mtr_same, keeps_not (i := 19) (keeps_sub hk rfl), h.ptp_same, h.rtc_same, h.tscNs_same, h.used_same⟩
theorem Keeps.set_dsp_field_loops_eth_sett {k : Nat} {s u : State} {v_dsp : DspState} {v_field : FieldState} {v_loops : List (Nat × LoopRun)} {v_eth : EthState} {v_sett : SettState} (hk : k &&& 574472 = 574472)
    (hv_sett : s.Inv → u.Inv → v_sett.wf) (h : Keeps k s u) :
    Keeps k s { u with dsp := v_dsp, field := v_field, loops := v_loops, eth := v_eth, sett := v_sett } :=
  ⟨h.queue, fun x => let g := h.inv x; ⟨g.regs, g.nv, g.img, g.fab, g.fbp, g.tick, hv_sett x g, g.can⟩,
    h.answer_same, h.sent_same, h.lap_same, keeps_not (i := 3) (keeps_sub hk rfl), h.img_same, h.nv_same, h.hwp_same, h.spr_same, h.zid_same, h.boot_same, keeps_not (i := 10) (keeps_sub hk rfl), h.fab_same, h.key_same, h.pair_same, keeps_not (i := 14) (keeps_sub hk rfl), keeps_not (i := 15) (keeps_sub hk rfl), h.fbp_same, h.can_same, h.mtr_same, keeps_not (i := 19) (keeps_sub hk rfl), h.ptp_same, h.rtc_same, h.tscNs_same, h.used_same⟩

theorem Keeps.set_free {k : Nat} {s u : State} {v : Nat} (h : Keeps k s u) : Keeps k s { u with free := v } :=
  ⟨h.queue, fun x => let g := h.inv x; ⟨g.regs, g.nv, g.img, g.fab, g.fbp, g.tick, g.sett, g.can⟩,
    h.answer_same, h.sent_same, h.lap_same, h.sett_same, h.img_same, h.nv_same, h.hwp_same, h.spr_same, h.zid_same, h.boot_same, h.dsp_same, h.fab_same, h.key_same, h.pair_same, h.field_same, h.loops_same, h.fbp_same, h.can_same, h.mtr_same, h.eth_same, h.ptp_same, h.rtc_same, h.tscNs_same, h.used_same⟩

/-- The state of a pair, met without looking into the other half. -/
theorem keeps_snd {α : Type} {k : Nat} {r t : State} {a : α} (h : Keeps k r t) : Keeps k r (a, t).2 := by
  generalize e : (a, t) = p
  have : p.2 = t := by rw [← e]
  rw [this]; exact h

/-- The sett committed last is in its canonical form when its bytes are. -/
theorem fresh_wf {a : Sett} (h : tabWf 0#8 a.bytes = true) : ∀ f ∈ some a, tabWf 0#8 f.bytes = true :=
  fun _ hf => Option.some.inj hf ▸ h

theorem Keeps.only {k : Nat} {r s : State} {c : Bool} {f : State → State} (hf : ∀ u, Keeps k r u → Keeps k r (f u))
    (h : Keeps k r s) : Keeps k r (s.onlyIf c f) := by
  unfold State.onlyIf
  split
  · exact hf s h
  · exact h

theorem Keeps.cond {k : Nat} {r s t : State} {c : Prop} [Decidable c] (hs : Keeps k r s) (ht : Keeps k r t) :
    Keeps k r (if c then s else t) := by
  by_cases hc : c
  · rw [if_pos hc]; exact hs
  · rw [if_neg hc]; exact ht

theorem Keeps.each {α : Type} {k : Nat} {r s : State} {l : List α} {f : State → α → State}
    (hf : ∀ u x, Keeps k r u → Keeps k r (f u x)) (h : Keeps k r s) : Keeps k r (s.forEach l f) := by
  unfold State.forEach
  induction l generalizing s with
  | nil => exact h
  | cons x t ih => exact ih (hf s x h)

end Sys2Proof.Machine
end

