-- ==== Sys2Proof/Laws/KeepsOps.lean ====
section
/-!
SUPPORT. Laws/KeepsOps.lean: what the operations of Machine/Ops.lean keep (`Keeps`).
-/

namespace Sys2Proof.Machine

theorem State.wr_keeps {k : Nat} {r s : State} {a : Nat} {v : Word} (hk : k &&& 0 = 0)
    (h : Keeps k r s) : Keeps k r ((s.wr a v)) := by
  unfold State.wr
  repeat' first
    | with_reducible assumption
    | exact fun _ g => tabWf_tabSet _ _ _ _ g.regs
    | intro _
    | with_reducible refine Keeps.set_regs ?_ ?_

theorem State.setFld_keeps {k : Nat} {r s : State} {a lo n v : Nat} (hk : k &&& 0 = 0)
    (h : Keeps k r s) : Keeps k r ((s.setFld a lo n v)) := by
  unfold State.setFld
  repeat' first
    | with_reducible assumption
    | with_reducible refine State.wr_keeps (keeps_sub hk rfl) ?_
    | intro _

theorem State.setBit_keeps {k : Nat} {r s : State} {a i : Nat} {b : Bool} (hk : k &&& 0 = 0)
    (h : Keeps k r s) : Keeps k r ((s.setBit a i b)) := by
  unfold State.setBit
  repeat' first
    | with_reducible assumption
    | with_reducible refine State.setFld_keeps (keeps_sub hk rfl) ?_
    | intro _

theorem State.countN_keeps {k : Nat} {r s : State} {a n : Nat} (hk : k &&& 0 = 0)
    (h : Keeps k r s) : Keeps k r ((s.countN a n)) := by
  unfold State.countN
  repeat' first
    | with_reducible assumption
    | with_reducible refine State.wr_keeps (keeps_sub hk rfl) ?_
    | intro _

theorem State.count_keeps {k : Nat} {r s : State} {a : Nat} (hk : k &&& 0 = 0)
    (h : Keeps k r s) : Keeps k r ((s.count a)) := by
  unfold State.count
  repeat' first
    | with_reducible assumption
    | with_reducible refine State.countN_keeps (keeps_sub hk rfl) ?_
    | intro _

theorem State.nextFree_keeps {k : Nat} {r s : State} (hk : k &&& 0 = 0)
    (h : Keeps k r s) : Keeps k r (s.nextFree) := by
  unfold State.nextFree
  repeat' first
    | with_reducible assumption
    | intro _
    | with_reducible refine Keeps.set_free ?_

theorem State.trigger_keeps {k : Nat} {r s : State} {source irqBit : Nat} {isAssert : Bool} (hk : k &&& 256 = 256)
    (h : Keeps k r s) : Keeps k r ((s.trigger source irqBit isAssert)) := by
  unfold State.trigger
  dsimp only
  repeat' first
    | with_reducible assumption
    | with_reducible refine State.count_keeps (keeps_sub hk rfl) ?_
    | with_reducible refine State.setBit_keeps (keeps_sub hk rfl) ?_
    | with_reducible refine State.wr_keeps (keeps_sub hk rfl) ?_
    | with_reducible refine Keeps.only ?_ ?_
    | intro _
    | with_reducible refine Keeps.set_zid (keeps_sub hk rfl) ?_

theorem State.irqAt_keeps {k : Nat} {r s : State} {irqReg enReg source i : Nat} (hk : k &&& 256 = 256)
    (h : Keeps k r s) : Keeps k r ((s.irqAt irqReg enReg source i)) := by
  unfold State.irqAt
  dsimp only
  repeat' first
    | with_reducible assumption
    | with_reducible refine State.setBit_keeps (keeps_sub hk rfl) ?_
    | with_reducible refine State.trigger_keeps (keeps_sub hk rfl) ?_
    | with_reducible refine Keeps.only ?_ ?_
    | intro _

theorem State.irqImg_keeps {k : Nat} {r s : State} {i : Nat} (hk : k &&& 256 = 256)
    (h : Keeps k r s) : Keeps k r ((s.irqImg i)) := by
  unfold State.irqImg
  repeat' first
    | with_reducible assumption
    | with_reducible refine State.irqAt_keeps (keeps_sub hk rfl) ?_
    | intro _

theorem State.irqLap_keeps {k : Nat} {r s : State} {i : Nat} (hk : k &&& 256 = 256)
    (h : Keeps k r s) : Keeps k r ((s.irqLap i)) := by
  unfold State.irqLap
  repeat' first
    | with_reducible assumption
    | with_reducible refine State.irqAt_keeps (keeps_sub hk rfl) ?_
    | intro _

theorem State.irqSett_keeps {k : Nat} {r s : State} {i : Nat} (hk : k &&& 256 = 256)
    (h : Keeps k r s) : Keeps k r ((s.irqSett i)) := by
  unfold State.irqSett
  repeat' first
    | with_reducible assumption
    | with_reducible refine State.irqAt_keeps (keeps_sub hk rfl) ?_
    | intro _

theorem State.irqDsp_keeps {k : Nat} {r s : State} {i : Nat} (hk : k &&& 256 = 256)
    (h : Keeps k r s) : Keeps k r ((s.irqDsp i)) := by
  unfold State.irqDsp
  repeat' first
    | with_reducible assumption
    | with_reducible refine State.irqAt_keeps (keeps_sub hk rfl) ?_
    | intro _

theorem State.irqRes_keeps {k : Nat} {r s : State} {i : Nat} (hk : k &&& 256 = 256)
    (h : Keeps k r s) : Keeps k r ((s.irqRes i)) := by
  unfold State.irqRes
  repeat' first
    | with_reducible assumption
    | with_reducible refine State.irqAt_keeps (keeps_sub hk rfl) ?_
    | intro _

theorem State.irqSlv_keeps {k : Nat} {r s : State} {i : Nat} (hk : k &&& 256 = 256)
    (h : Keeps k r s) : Keeps k r ((s.irqSlv i)) := by
  unfold State.irqSlv
  repeat' first
    | with_reducible assumption
    | with_reducible refine State.irqAt_keeps (keeps_sub hk rfl) ?_
    | intro _

theorem State.irqFab_keeps {k : Nat} {r s : State} {i : Nat} (hk : k &&& 256 = 256)
    (h : Keeps k r s) : Keeps k r ((s.irqFab i)) := by
  unfold State.irqFab
  repeat' first
    | with_reducible assumption
    | with_reducible refine State.irqAt_keeps (keeps_sub hk rfl) ?_
    | intro _

theorem State.irqLoop_keeps {k : Nat} {r s : State} {i : Nat} (hk : k &&& 256 = 256)
    (h : Keeps k r s) : Keeps k r ((s.irqLoop i)) := by
  unfold State.irqLoop
  repeat' first
    | with_reducible assumption
    | with_reducible refine State.irqAt_keeps (keeps_sub hk rfl) ?_
    | intro _

theorem State.irqFbp_keeps {k : Nat} {r s : State} {i : Nat} (hk : k &&& 256 = 256)
    (h : Keeps k r s) : Keeps k r ((s.irqFbp i)) := by
  unfold State.irqFbp
  repeat' first
    | with_reducible assumption
    | with_reducible refine State.irqAt_keeps (keeps_sub hk rfl) ?_
    | intro _

theorem State.irqAin_keeps {k : Nat} {r s : State} {i : Nat} (hk : k &&& 256 = 256)
    (h : Keeps k r s) : Keeps k r ((s.irqAin i)) := by
  unfold State.irqAin
  repeat' first
    | with_reducible assumption
    | with_reducible refine State.irqAt_keeps (keeps_sub hk rfl) ?_
    | intro _

theorem State.irqAout_keeps {k : Nat} {r s : State} {i : Nat} (hk : k &&& 256 = 256)
    (h : Keeps k r s) : Keeps k r ((s.irqAout i)) := by
  unfold State.irqAout
  repeat' first
    | with_reducible assumption
    | with_reducible refine State.irqAt_keeps (keeps_sub hk rfl) ?_
    | intro _

theorem State.irqDio_keeps {k : Nat} {r s : State} {i : Nat} (hk : k &&& 256 = 256)
    (h : Keeps k r s) : Keeps k r ((s.irqDio i)) := by
  unfold State.irqDio
  repeat' first
    | with_reducible assumption
    | with_reducible refine State.irqAt_keeps (keeps_sub hk rfl) ?_
    | intro _

theorem State.irqMtr_keeps {k : Nat} {r s : State} {i : Nat} (hk : k &&& 256 = 256)
    (h : Keeps k r s) : Keeps k r ((s.irqMtr i)) := by
  unfold State.irqMtr
  repeat' first
    | with_reducible assumption
    | with_reducible refine State.irqAt_keeps (keeps_sub hk rfl) ?_
    | intro _

theorem State.irqCan_keeps {k : Nat} {r s : State} {ch i : Nat} (hk : k &&& 256 = 256)
    (h : Keeps k r s) : Keeps k r ((s.irqCan ch i)) := by
  unfold State.irqCan
  repeat' first
    | with_reducible assumption
    | with_reducible refine State.irqAt_keeps (keeps_sub hk rfl) ?_
    | intro _

theorem State.irqEth_keeps {k : Nat} {r s : State} {i : Nat} (hk : k &&& 256 = 256)
    (h : Keeps k r s) : Keeps k r ((s.irqEth i)) := by
  unfold State.irqEth
  repeat' first
    | with_reducible assumption
    | with_reducible refine State.irqAt_keeps (keeps_sub hk rfl) ?_
    | intro _

theorem State.irqPtp_keeps {k : Nat} {r s : State} {i : Nat} (hk : k &&& 256 = 256)
    (h : Keeps k r s) : Keeps k r ((s.irqPtp i)) := by
  unfold State.irqPtp
  repeat' first
    | with_reducible assumption
    | with_reducible refine State.irqAt_keeps (keeps_sub hk rfl) ?_
    | intro _

theorem State.irqHwp_keeps {k : Nat} {r s : State} {i : Nat} (hk : k &&& 256 = 256)
    (h : Keeps k r s) : Keeps k r ((s.irqHwp i)) := by
  unfold State.irqHwp
  repeat' first
    | with_reducible assumption
    | with_reducible refine State.irqAt_keeps (keeps_sub hk rfl) ?_
    | intro _

theorem State.irqPair_keeps {k : Nat} {r s : State} {i : Nat} (hk : k &&& 256 = 256)
    (h : Keeps k r s) : Keeps k r ((s.irqPair i)) := by
  unfold State.irqPair
  repeat' first
    | with_reducible assumption
    | with_reducible refine State.irqAt_keeps (keeps_sub hk rfl) ?_
    | intro _

theorem State.irqKey_keeps {k : Nat} {r s : State} {i : Nat} (hk : k &&& 256 = 256)
    (h : Keeps k r s) : Keeps k r ((s.irqKey i)) := by
  unfold State.irqKey
  repeat' first
    | with_reducible assumption
    | with_reducible refine State.irqAt_keeps (keeps_sub hk rfl) ?_
    | intro _

theorem State.irqNvs_keeps {k : Nat} {r s : State} {i : Nat} (hk : k &&& 256 = 256)
    (h : Keeps k r s) : Keeps k r ((s.irqNvs i)) := by
  unfold State.irqNvs
  repeat' first
    | with_reducible assumption
    | with_reducible refine State.irqAt_keeps (keeps_sub hk rfl) ?_
    | intro _

theorem State.irqRtc_keeps {k : Nat} {r s : State} {i : Nat} (hk : k &&& 256 = 256)
    (h : Keeps k r s) : Keeps k r ((s.irqRtc i)) := by
  unfold State.irqRtc
  repeat' first
    | with_reducible assumption
    | with_reducible refine State.irqAt_keeps (keeps_sub hk rfl) ?_
    | intro _

theorem State.irqSpr_keeps {k : Nat} {r s : State} {i : Nat} (hk : k &&& 256 = 256)
    (h : Keeps k r s) : Keeps k r ((s.irqSpr i)) := by
  unfold State.irqSpr
  repeat' first
    | with_reducible assumption
    | with_reducible refine State.irqAt_keeps (keeps_sub hk rfl) ?_
    | intro _

theorem State.irqBoot_keeps {k : Nat} {r s : State} {i : Nat} (hk : k &&& 256 = 256)
    (h : Keeps k r s) : Keeps k r ((s.irqBoot i)) := by
  unfold State.irqBoot
  repeat' first
    | with_reducible assumption
    | with_reducible refine State.irqAt_keeps (keeps_sub hk rfl) ?_
    | intro _

theorem State.irqPwr_keeps {k : Nat} {r s : State} {i : Nat} (hk : k &&& 256 = 256)
    (h : Keeps k r s) : Keeps k r ((s.irqPwr i)) := by
  unfold State.irqPwr
  repeat' first
    | with_reducible assumption
    | with_reducible refine State.irqAt_keeps (keeps_sub hk rfl) ?_
    | intro _

theorem State.injRan_keeps {k : Nat} {r s : State} {injReg i : Nat} (hk : k &&& 0 = 0)
    (h : Keeps k r s) : Keeps k r ((s.injRan injReg i)) := by
  unfold State.injRan
  repeat' first
    | with_reducible assumption
    | with_reducible refine State.count_keeps (keeps_sub hk rfl) ?_
    | with_reducible refine State.setBit_keeps (keeps_sub hk rfl) ?_
    | with_reducible refine Keeps.cond ?_ ?_
    | split
    | intro _

theorem State.answerWith_keeps {k : Nat} {r s : State} {st' : Status} {info : Word} {data : List Word} {epoch : Nat} (hk : k &&& 1 = 1)
    (h : Keeps k r s) : Keeps k r ((s.answerWith st' info data epoch)) := by
  unfold State.answerWith
  repeat' first
    | with_reducible assumption
    | intro _
    | with_reducible refine Keeps.set_answer (keeps_sub hk rfl) ?_

theorem State.clearSent_keeps {k : Nat} {r s : State} (hk : k &&& 2 = 2)
    (h : Keeps k r s) : Keeps k r (s.clearSent) := by
  unfold State.clearSent
  repeat' first
    | with_reducible assumption
    | intro _
    | with_reducible refine Keeps.set_sent (keeps_sub hk rfl) ?_

theorem State.charge_keeps {k : Nat} {r s : State} {c r' n : Nat} (hk : k &&& 8388608 = 8388608)
    (h : Keeps k r s) : Keeps k r ((s.charge c r' n)) := by
  unfold State.charge
  repeat' first
    | with_reducible assumption
    | with_reducible refine Keeps.cond ?_ ?_
    | split
    | intro _
    | with_reducible refine Keeps.set_used (keeps_sub hk rfl) ?_

theorem State.send_keeps {k : Nat} {r s : State} {f : Frame} (hk : k &&& 8388610 = 8388610)
    (h : Keeps k r s) : Keeps k r ((s.send f)) := by
  unfold State.send
  dsimp only
  repeat' first
    | with_reducible assumption
    | with_reducible refine State.charge_keeps (keeps_sub hk rfl) ?_
    | intro _
    | with_reducible refine Keeps.set_sent (keeps_sub hk rfl) ?_

theorem State.roundOpen_keeps {k : Nat} {r s : State} {q : Rat} (hk : k &&& 0 = 0)
    (h : Keeps k r s) : Keeps k r ((s.roundOpen q).2) := by
  unfold State.roundOpen
  repeat' first
    | with_reducible assumption
    | with_reducible refine State.nextFree_keeps (keeps_sub hk rfl) ?_
    | with_reducible refine Keeps.cond ?_ ?_
    | split
    | intro _

theorem State.sqrtOpen_keeps {k : Nat} {r s : State} {q : Rat} (hk : k &&& 0 = 0)
    (h : Keeps k r s) : Keeps k r ((s.sqrtOpen q).2) := by
  unfold State.sqrtOpen
  dsimp only
  repeat' first
    | with_reducible assumption
    | with_reducible refine State.nextFree_keeps (keeps_sub hk rfl) ?_
    | with_reducible refine Keeps.cond ?_ ?_
    | split
    | intro _

theorem State.freeBits_keeps {k : Nat} {r s : State} {n : Nat} (hk : k &&& 0 = 0)
    (h : Keeps k r s) : Keeps k r ((s.freeBits n).2) := by
  unfold State.freeBits
  repeat' first
    | with_reducible assumption
    | with_reducible refine State.nextFree_keeps (keeps_sub hk rfl) ?_
    | intro _

/-- A command that acts only while the module is supplied. -/
theorem act_keeps {k : Nat} {s t : State} {f : State → State} (hk : k &&& 2 = 2) (hf : ∀ u, Keeps k s u → Keeps k s (f u))
    (h : s.act f = .next t) : Keeps k s t := by
  injection h with e
  rw [← e]
  exact Keeps.cond (Keeps.refl s) (hf _ (State.clearSent_keeps hk (Keeps.refl s)))

end Sys2Proof.Machine
end

