-- ==== Sys2Proof/Laws/KeepsRegAccess.lean ====
section
/-!
SUPPORT. Laws/KeepsRegAccess.lean: what the operations of Machine/RegAccess.lean keep (`Keeps`).
-/

namespace Sys2Proof.Machine

theorem State.plainWrite_keeps {k : Nat} {r s : State} {a : Nat} {v : Word} (hk : k &&& 0 = 0)
    (h : Keeps k r s) : Keeps k r ((s.plainWrite a v)) := by
  unfold State.plainWrite
  repeat' first
    | with_reducible assumption
    | with_reducible refine State.wr_keeps (keeps_sub hk rfl) ?_
    | intro _

theorem State.rwsApply_keeps {k : Nat} {r s : State} {a : Nat} {v : Word} (hk : k &&& 0 = 0)
    (h : Keeps k r s) : Keeps k r ((s.rwsApply a v)) := by
  unfold State.rwsApply
  repeat' first
    | with_reducible assumption
    | with_reducible refine State.wr_keeps (keeps_sub hk rfl) ?_
    | intro _

theorem State.rcClear_keeps {k : Nat} {r s : State} {a : Nat} (hk : k &&& 0 = 0)
    (h : Keeps k r s) : Keeps k r ((s.rcClear a)) := by
  unfold State.rcClear
  repeat' first
    | with_reducible assumption
    | with_reducible refine State.wr_keeps (keeps_sub hk rfl) ?_
    | with_reducible refine Keeps.cond ?_ ?_
    | split
    | intro _

end Sys2Proof.Machine
end

