-- ==== Sys2Proof/Laws/KeepsNvCells.lean ====
section
/-!
SUPPORT. Laws/KeepsNvCells.lean: what the operations of Machine/NvCells.lean keep (`Keeps`).
-/

namespace Sys2Proof.Machine

theorem State.nvPage_keeps {k : Nat} {r s : State} {c : Nat} {rb : ReadBack} (hk : k &&& 8388864 = 8388864)
    (h : Keeps k r s) : Keeps k r ((s.nvPage c rb).1) := by
  unfold State.nvPage
  dsimp only
  repeat' first
    | with_reducible assumption
    | with_reducible refine State.charge_keeps (keeps_sub hk rfl) ?_
    | with_reducible refine State.count_keeps (keeps_sub hk rfl) ?_
    | with_reducible refine State.injRan_keeps (keeps_sub hk rfl) ?_
    | with_reducible refine State.irqNvs_keeps (keeps_sub hk rfl) ?_
    | with_reducible refine State.setBit_keeps (keeps_sub hk rfl) ?_
    | with_reducible refine Keeps.cond ?_ ?_
    | split
    | intro _

theorem State.nvFails_keeps {k : Nat} {r s : State} {w : Nat} (hk : k &&& 32 = 32)
    (h : Keeps k r s) : Keeps k r ((s.nvFails w)) := by
  unfold State.nvFails
  repeat' first
    | with_reducible assumption
    | exact fun _ g => by dsimp only [NvState.wf]; exact g.nv
    | exact fun g _ => by dsimp only [NvState.wf]; exact (h.inv g).nv
    | intro _
    | with_reducible refine Keeps.set_nv (keeps_sub hk rfl) ?_ ?_

theorem State.nvRecord_keeps {k : Nat} {r s : State} {span : Nat × Nat} (hk : k &&& 8192 = 8192)
    (h : Keeps k r s) : Keeps k r ((s.nvRecord span)) := by
  unfold State.nvRecord
  repeat' first
    | with_reducible assumption
    | with_reducible refine Keeps.cond ?_ ?_
    | split
    | intro _
    | with_reducible refine Keeps.set_pair (keeps_sub hk rfl) ?_

theorem State.sramPut_keeps {k : Nat} {r s : State} {o : Nat} {bytes : List Byte} (hk : k &&& 8224 = 8224)
    (h : Keeps k r s) : Keeps k r ((s.sramPut o bytes)) := by
  unfold State.sramPut
  dsimp only
  repeat' first
    | with_reducible assumption
    | exact fun _ g => ⟨g.nv.1, tabWf_tabSetList _ _ _ _ g.nv.2.1, g.nv.2.2⟩
    | with_reducible refine State.nvRecord_keeps (keeps_sub hk rfl) ?_
    | exact fun _ g => by dsimp only [NvState.wf]; exact g.nv
    | exact fun g _ => by dsimp only [NvState.wf]; exact (h.inv g).nv
    | exact fun _ g => by dsimp only [NvState.wf]; split <;> exact g.nv
    | with_reducible refine Keeps.cond ?_ ?_
    | split
    | intro _
    | with_reducible refine Keeps.set_nv (keeps_sub hk rfl) ?_ ?_

theorem State.putTally_keeps {k : Nat} {r s : State} {t : Nat} {x : Tally} (hk : k &&& 32 = 32)
    (h : Keeps k r s) : Keeps k r ((s.putTally t x)) := by
  unfold State.putTally
  dsimp only
  repeat' first
    | with_reducible assumption
    | exact fun _ g => by dsimp only [NvState.wf]; exact g.nv
    | exact fun g _ => by dsimp only [NvState.wf]; exact (h.inv g).nv
    | exact fun _ g => by dsimp only [NvState.wf]; split <;> exact g.nv
    | with_reducible refine Keeps.cond ?_ ?_
    | split
    | intro _
    | with_reducible refine Keeps.set_nv (keeps_sub hk rfl) ?_ ?_

theorem State.nvCell_keeps {k : Nat} {r s : State} {t : Nat} {rb : ReadBack} (hk : k &&& 8388864 = 8388864)
    (h : Keeps k r s) : Keeps k r ((s.nvCell t rb).1) := by
  unfold State.nvCell
  dsimp only
  repeat' first
    | with_reducible assumption
    | with_reducible refine State.charge_keeps (keeps_sub hk rfl) ?_
    | with_reducible refine State.count_keeps (keeps_sub hk rfl) ?_
    | with_reducible refine State.injRan_keeps (keeps_sub hk rfl) ?_
    | with_reducible refine State.irqNvs_keeps (keeps_sub hk rfl) ?_
    | with_reducible refine State.setBit_keeps (keeps_sub hk rfl) ?_
    | with_reducible refine Keeps.cond ?_ ?_
    | split
    | intro _

theorem State.foldTally_keeps {k : Nat} {r s : State} {t : Nat} {rb : ReadBack} (hk : k &&& 8388896 = 8388896)
    (h : Keeps k r s) : Keeps k r ((s.foldTally t rb)) := by
  unfold State.foldTally
  dsimp only
  repeat' first
    | with_reducible assumption
    | with_reducible refine State.nvCell_keeps (keeps_sub hk rfl) ?_
    | with_reducible refine State.putTally_keeps (keeps_sub hk rfl) ?_
    | with_reducible refine Keeps.cond ?_ ?_
    | split
    | intro _

theorem State.writeTallyCell_keeps {k : Nat} {r s : State} {t : Nat} {n : Word} {rb fold : ReadBack} (hk : k &&& 8388896 = 8388896)
    (h : Keeps k r s) : Keeps k r ((s.writeTallyCell t n rb fold).1) := by
  unfold State.writeTallyCell
  dsimp only
  repeat' first
    | with_reducible assumption
    | with_reducible refine State.foldTally_keeps (keeps_sub hk rfl) ?_
    | with_reducible refine State.nvCell_keeps (keeps_sub hk rfl) ?_
    | with_reducible refine State.putTally_keeps (keeps_sub hk rfl) ?_
    | with_reducible refine Keeps.only ?_ ?_
    | with_reducible refine Keeps.cond ?_ ?_
    | split
    | intro _

theorem State.raiseTally_keeps {k : Nat} {r s : State} {t : Nat} (hk : k &&& 8388896 = 8388896)
    (h : Keeps k r s) : Keeps k r ((s.raiseTally t)) := by
  unfold State.raiseTally
  repeat' first
    | with_reducible assumption
    | with_reducible refine State.writeTallyCell_keeps (keeps_sub hk rfl) ?_
    | with_reducible refine Keeps.cond ?_ ?_
    | split
    | intro _

end Sys2Proof.Machine
end

