-- ==== Sys2Proof/Laws/KeepsSpoorOps.lean ====
section
/-!
SUPPORT. Laws/KeepsSpoorOps.lean: what the operations of Machine/SpoorOps.lean keep (`Keeps`).
-/

namespace Sys2Proof.Machine

theorem State.appendRec_keeps {k : Nat} {r s : State} {code sev : Nat} {data : List Byte} {opsec : Word} (hk : k &&& 384 = 384)
    (h : Keeps k r s) : Keeps k r ((s.appendRec code sev data opsec)) := by
  unfold State.appendRec
  dsimp only
  repeat' first
    | with_reducible assumption
    | with_reducible refine State.count_keeps (keeps_sub hk rfl) ?_
    | with_reducible refine State.irqSpr_keeps (keeps_sub hk rfl) ?_
    | with_reducible refine Keeps.only ?_ ?_
    | split
    | intro _
    | with_reducible refine Keeps.set_spr (keeps_sub hk rfl) ?_

theorem State.putRateWin_keeps {k : Nat} {r s : State} {w : RateWin} (hk : k &&& 128 = 128)
    (h : Keeps k r s) : Keeps k r ((s.putRateWin w)) := by
  unfold State.putRateWin
  repeat' first
    | with_reducible assumption
    | intro _
    | with_reducible refine Keeps.set_spr (keeps_sub hk rfl) ?_

theorem State.rateAppended_keeps {k : Nat} {r s : State} {i : Nat} (hk : k &&& 128 = 128)
    (h : Keeps k r s) : Keeps k r ((s.rateAppended i)) := by
  unfold State.rateAppended
  repeat' first
    | with_reducible assumption
    | with_reducible refine State.putRateWin_keeps (keeps_sub hk rfl) ?_
    | split
    | intro _

theorem State.rateSuppressed_keeps {k : Nat} {r s : State} {i : Nat} (hk : k &&& 128 = 128)
    (h : Keeps k r s) : Keeps k r ((s.rateSuppressed i)) := by
  unfold State.rateSuppressed
  repeat' first
    | with_reducible assumption
    | with_reducible refine State.putRateWin_keeps (keeps_sub hk rfl) ?_
    | split
    | intro _

theorem State.mergeRec_keeps {k : Nat} {r s : State} {opsec : Word} (hk : k &&& 128 = 128)
    (h : Keeps k r s) : Keeps k r ((s.mergeRec opsec)) := by
  unfold State.mergeRec
  dsimp only
  repeat' first
    | with_reducible assumption
    | with_reducible refine State.count_keeps (keeps_sub hk rfl) ?_
    | with_reducible refine State.setFld_keeps (keeps_sub hk rfl) ?_
    | with_reducible refine Keeps.cond ?_ ?_
    | split
    | intro _
    | with_reducible refine Keeps.set_spr (keeps_sub hk rfl) ?_

theorem State.takeEvent_keeps {k : Nat} {r s : State} {code sev : Nat} {data : List Byte} {opsec : Word} (hk : k &&& 384 = 384)
    (h : Keeps k r s) : Keeps k r ((s.takeEvent code sev data opsec)) := by
  unfold State.takeEvent
  repeat' first
    | with_reducible assumption
    | with_reducible refine State.appendRec_keeps (keeps_sub hk rfl) ?_
    | with_reducible refine State.count_keeps (keeps_sub hk rfl) ?_
    | with_reducible refine State.mergeRec_keeps (keeps_sub hk rfl) ?_
    | with_reducible refine State.rateAppended_keeps (keeps_sub hk rfl) ?_
    | with_reducible refine State.rateSuppressed_keeps (keeps_sub hk rfl) ?_
    | with_reducible refine State.setBit_keeps (keeps_sub hk rfl) ?_
    | with_reducible refine Keeps.each ?_ ?_
    | with_reducible refine Keeps.cond ?_ ?_
    | split
    | intro _

theorem State.appendQovr_keeps {k : Nat} {r s : State} (hk : k &&& 384 = 384)
    (h : Keeps k r s) : Keeps k r (s.appendQovr) := by
  unfold State.appendQovr
  repeat' first
    | with_reducible assumption
    | with_reducible refine State.appendRec_keeps (keeps_sub hk rfl) ?_
    | with_reducible refine Keeps.cond ?_ ?_
    | split
    | intro _
    | with_reducible refine Keeps.set_spr (keeps_sub hk rfl) ?_

theorem State.raiseEv_keeps {k : Nat} {r s : State} {code sev : Nat} {data : List Byte} (hk : k &&& 384 = 384)
    (h : Keeps k r s) : Keeps k r ((s.raiseEv code sev data)) := by
  unfold State.raiseEv
  dsimp only
  repeat' first
    | with_reducible assumption
    | with_reducible refine State.appendQovr_keeps (keeps_sub hk rfl) ?_
    | with_reducible refine State.count_keeps (keeps_sub hk rfl) ?_
    | with_reducible refine State.injRan_keeps (keeps_sub hk rfl) ?_
    | with_reducible refine State.irqSpr_keeps (keeps_sub hk rfl) ?_
    | with_reducible refine State.setBit_keeps (keeps_sub hk rfl) ?_
    | with_reducible refine State.takeEvent_keeps (keeps_sub hk rfl) ?_
    | with_reducible refine Keeps.cond ?_ ?_
    | split
    | intro _
    | with_reducible refine Keeps.set_spr (keeps_sub hk rfl) ?_

theorem State.rateWindowEnd_keeps {k : Nat} {r s : State} {i : Nat} (hk : k &&& 384 = 384)
    (h : Keeps k r s) : Keeps k r ((s.rateWindowEnd i)) := by
  unfold State.rateWindowEnd
  dsimp only
  repeat' first
    | with_reducible assumption
    | with_reducible refine State.appendRec_keeps (keeps_sub hk rfl) ?_
    | with_reducible refine Keeps.only ?_ ?_
    | with_reducible refine Keeps.cond ?_ ?_
    | split
    | intro _
    | with_reducible refine Keeps.set_spr (keeps_sub hk rfl) ?_

theorem State.storeRec_keeps {k : Nat} {r s : State} {r' : SpoorRec} {first : Bool} (hk : k &&& 288 = 288)
    (h : Keeps k r s) : Keeps k r ((s.storeRec r' first)) := by
  unfold State.storeRec
  dsimp only
  repeat' first
    | with_reducible assumption
    | exact fun _ g => ⟨g.nv.1, g.nv.2.1, g.nv.2.2.1, tabWf_tabSetList _ _ _ _ g.nv.2.2.2⟩
    | with_reducible refine State.injRan_keeps (keeps_sub hk rfl) ?_
    | with_reducible refine State.irqSpr_keeps (keeps_sub hk rfl) ?_
    | with_reducible refine State.setBit_keeps (keeps_sub hk rfl) ?_
    | with_reducible refine State.wr_keeps (keeps_sub hk rfl) ?_
    | with_reducible refine Keeps.only ?_ ?_
    | exact fun _ g => by dsimp only [NvState.wf]; exact g.nv
    | exact fun g _ => by dsimp only [NvState.wf]; exact (h.inv g).nv
    | intro _
    | with_reducible refine Keeps.set_nv (keeps_sub hk rfl) ?_ ?_

theorem State.programQueue_keeps {k : Nat} {r s : State} {rb : ReadBack} (hk : k &&& 8389024 = 8389024)
    (h : Keeps k r s) : Keeps k r ((s.programQueue rb)) := by
  unfold State.programQueue
  dsimp only
  repeat' first
    | with_reducible assumption
    | with_reducible refine State.appendQovr_keeps (keeps_sub hk rfl) ?_
    | with_reducible refine State.nvFails_keeps (keeps_sub hk rfl) ?_
    | with_reducible refine State.nvPage_keeps (keeps_sub hk rfl) ?_
    | with_reducible refine State.storeRec_keeps (keeps_sub hk rfl) ?_
    | with_reducible refine Keeps.each ?_ ?_
    | with_reducible refine Keeps.cond ?_ ?_
    | split
    | intro _
    | with_reducible refine Keeps.set_spr (keeps_sub hk rfl) ?_

theorem State.programDue_keeps {k : Nat} {r s : State} {rb : ReadBack} (hk : k &&& 8389024 = 8389024)
    (h : Keeps k r s) : Keeps k r ((s.programDue rb)) := by
  unfold State.programDue
  dsimp only
  repeat' first
    | with_reducible assumption
    | with_reducible refine State.nvFails_keeps (keeps_sub hk rfl) ?_
    | with_reducible refine State.nvPage_keeps (keeps_sub hk rfl) ?_
    | with_reducible refine State.storeRec_keeps (keeps_sub hk rfl) ?_
    | with_reducible refine Keeps.cond ?_ ?_
    | split
    | intro _
    | with_reducible refine Keeps.set_spr (keeps_sub hk rfl) ?_

theorem State.spoorLap_keeps {k : Nat} {r s : State} (hk : k &&& 128 = 128)
    (h : Keeps k r s) : Keeps k r (s.spoorLap) := by
  unfold State.spoorLap
  dsimp only
  repeat' first
    | with_reducible assumption
    | intro _
    | with_reducible refine Keeps.set_spr (keeps_sub hk rfl) ?_

theorem State.scanDone_keeps {k : Nat} {r s : State} (hk : k &&& 384 = 384)
    (h : Keeps k r s) : Keeps k r (s.scanDone) := by
  unfold State.scanDone
  dsimp only
  repeat' first
    | with_reducible assumption
    | with_reducible refine State.appendRec_keeps (keeps_sub hk rfl) ?_
    | with_reducible refine State.countN_keeps (keeps_sub hk rfl) ?_
    | with_reducible refine State.setBit_keeps (keeps_sub hk rfl) ?_
    | with_reducible refine State.takeEvent_keeps (keeps_sub hk rfl) ?_
    | with_reducible refine State.wr_keeps (keeps_sub hk rfl) ?_
    | with_reducible refine Keeps.only ?_ ?_
    | with_reducible refine Keeps.each ?_ ?_
    | with_reducible refine Keeps.cond ?_ ?_
    | split
    | intro _
    | with_reducible refine Keeps.set_spr (keeps_sub hk rfl) ?_

theorem State.opsecTick_keeps {k : Nat} {r s : State} (hk : k &&& 8224 = 8224)
    (h : Keeps k r s) : Keeps k r (s.opsecTick) := by
  unfold State.opsecTick
  dsimp only
  repeat' first
    | with_reducible assumption
    | with_reducible refine State.sramPut_keeps (keeps_sub hk rfl) ?_
    | with_reducible refine State.wr_keeps (keeps_sub hk rfl) ?_
    | intro _

end Sys2Proof.Machine
end

