-- ==== Sys2Proof/Laws/KeepsCanOps.lean ====
section
/-!
SUPPORT. Laws/KeepsCanOps.lean: what the operations of Machine/CanOps.lean keep (`Keeps`).
-/

namespace Sys2Proof.Machine

theorem State.putCan_keeps {k : Nat} {r s : State} {ch : Nat} {c : CanChan} (hk : k &&& 131072 = 131072)
    (h : Keeps k r s) : Keeps k r ((s.putCan ch c)) := by
  exact Keeps.set_can (keeps_sub hk rfl) (fun _ g => by rw [List.length_set]; exact g.can) h

theorem State.canTo_keeps {k : Nat} {r s : State} {ch k' : Nat} (hk : k &&& 256 = 256)
    (h : Keeps k r s) : Keeps k r ((s.canTo ch k')) := by
  unfold State.canTo
  repeat' first
    | with_reducible assumption
    | with_reducible refine State.irqCan_keeps (keeps_sub hk rfl) ?_
    | with_reducible refine State.setFld_keeps (keeps_sub hk rfl) ?_
    | with_reducible refine Keeps.cond ?_ ?_
    | split
    | intro _

theorem State.setTec_keeps {k : Nat} {r s : State} {ch v : Nat} (hk : k &&& 0 = 0)
    (h : Keeps k r s) : Keeps k r ((s.setTec ch v)) := by
  unfold State.setTec
  repeat' first
    | with_reducible assumption
    | with_reducible refine State.setFld_keeps (keeps_sub hk rfl) ?_
    | intro _

theorem State.setRec_keeps {k : Nat} {r s : State} {ch v : Nat} (hk : k &&& 0 = 0)
    (h : Keeps k r s) : Keeps k r ((s.setRec ch v)) := by
  unfold State.setRec
  repeat' first
    | with_reducible assumption
    | with_reducible refine State.setBit_keeps (keeps_sub hk rfl) ?_
    | with_reducible refine State.setFld_keeps (keeps_sub hk rfl) ?_
    | intro _

theorem State.txRequest_keeps {k : Nat} {r s : State} {ch b : Nat} (hk : k &&& 0 = 0)
    (h : Keeps k r s) : Keeps k r ((s.txRequest ch b)) := by
  unfold State.txRequest
  repeat' first
    | with_reducible assumption
    | with_reducible refine State.wr_keeps (keeps_sub hk rfl) ?_
    | intro _

theorem State.txFinish_keeps {k : Nat} {r s : State} {ch b : Nat} {done : Bool} (hk : k &&& 256 = 256)
    (h : Keeps k r s) : Keeps k r ((s.txFinish ch b done)) := by
  unfold State.txFinish
  dsimp only
  repeat' first
    | with_reducible assumption
    | with_reducible refine State.irqCan_keeps (keeps_sub hk rfl) ?_
    | with_reducible refine State.setBit_keeps (keeps_sub hk rfl) ?_
    | with_reducible refine State.wr_keeps (keeps_sub hk rfl) ?_
    | with_reducible refine Keeps.only ?_ ?_
    | with_reducible refine Keeps.cond ?_ ?_
    | split
    | intro _

theorem State.txAbort_keeps {k : Nat} {r s : State} {ch b : Nat} (hk : k &&& 131328 = 131328)
    (h : Keeps k r s) : Keeps k r ((s.txAbort ch b)) := by
  unfold State.txAbort
  repeat' first
    | with_reducible assumption
    | with_reducible refine State.putCan_keeps (keeps_sub hk rfl) ?_
    | with_reducible refine State.txFinish_keeps (keeps_sub hk rfl) ?_
    | with_reducible refine Keeps.cond ?_ ?_
    | split
    | intro _

theorem State.txbWrite_keeps {k : Nat} {r s : State} {ch b w : Nat} {v : Word} (hk : k &&& 131328 = 131328)
    (h : Keeps k r s) : Keeps k r ((s.txbWrite ch b w v)) := by
  unfold State.txbWrite
  dsimp only
  repeat' first
    | with_reducible assumption
    | with_reducible refine State.txAbort_keeps (keeps_sub hk rfl) ?_
    | with_reducible refine State.txRequest_keeps (keeps_sub hk rfl) ?_
    | with_reducible refine State.wr_keeps (keeps_sub hk rfl) ?_
    | with_reducible refine Keeps.only ?_ ?_
    | split
    | intro _

theorem State.txStart_keeps {k : Nat} {r s : State} {ch : Nat} (hk : k &&& 131072 = 131072)
    (h : Keeps k r s) : Keeps k r ((s.txStart ch)) := by
  unfold State.txStart
  dsimp only
  repeat' first
    | with_reducible assumption
    | with_reducible refine State.putCan_keeps (keeps_sub hk rfl) ?_
    | with_reducible refine State.setBit_keeps (keeps_sub hk rfl) ?_
    | with_reducible refine Keeps.only ?_ ?_
    | with_reducible refine Keeps.cond ?_ ?_
    | split
    | intro _

theorem State.txFail_keeps {k : Nat} {r s : State} {ch : Nat} (hk : k &&& 131328 = 131328)
    (h : Keeps k r s) : Keeps k r ((s.txFail ch)) := by
  unfold State.txFail
  dsimp only
  repeat' first
    | with_reducible assumption
    | with_reducible refine State.putCan_keeps (keeps_sub hk rfl) ?_
    | with_reducible refine State.txFinish_keeps (keeps_sub hk rfl) ?_
    | with_reducible refine Keeps.cond ?_ ?_
    | split
    | intro _

theorem State.canBusOff_keeps {k : Nat} {r s : State} {ch : Nat} (hk : k &&& 131328 = 131328)
    (h : Keeps k r s) : Keeps k r ((s.canBusOff ch)) := by
  unfold State.canBusOff
  dsimp only
  repeat' first
    | with_reducible assumption
    | with_reducible refine State.canTo_keeps (keeps_sub hk rfl) ?_
    | with_reducible refine State.count_keeps (keeps_sub hk rfl) ?_
    | with_reducible refine State.putCan_keeps (keeps_sub hk rfl) ?_
    | with_reducible refine State.setBit_keeps (keeps_sub hk rfl) ?_
    | intro _

theorem State.canErrUpdate_keeps {k : Nat} {r s : State} {ch : Nat} (hk : k &&& 256 = 256)
    (h : Keeps k r s) : Keeps k r ((s.canErrUpdate ch)) := by
  unfold State.canErrUpdate
  dsimp only
  repeat' first
    | with_reducible assumption
    | with_reducible refine State.canTo_keeps (keeps_sub hk rfl) ?_
    | with_reducible refine State.setBit_keeps (keeps_sub hk rfl) ?_
    | with_reducible refine Keeps.only ?_ ?_
    | with_reducible refine Keeps.cond ?_ ?_
    | split
    | intro _

theorem State.canError_keeps {k : Nat} {r s : State} {ch kind : Nat} {dataPhase tx : Bool} {w : CanWeight} (hk : k &&& 131328 = 131328)
    (h : Keeps k r s) : Keeps k r ((s.canError ch kind dataPhase tx w)) := by
  unfold State.canError
  dsimp only
  repeat' first
    | with_reducible assumption
    | with_reducible refine State.canBusOff_keeps (keeps_sub hk rfl) ?_
    | with_reducible refine State.canErrUpdate_keeps (keeps_sub hk rfl) ?_
    | with_reducible refine State.count_keeps (keeps_sub hk rfl) ?_
    | with_reducible refine State.setBit_keeps (keeps_sub hk rfl) ?_
    | with_reducible refine State.setFld_keeps (keeps_sub hk rfl) ?_
    | with_reducible refine State.setRec_keeps (keeps_sub hk rfl) ?_
    | with_reducible refine State.setTec_keeps (keeps_sub hk rfl) ?_
    | with_reducible refine State.txFail_keeps (keeps_sub hk rfl) ?_
    | with_reducible refine Keeps.only ?_ ?_
    | with_reducible refine Keeps.cond ?_ ?_
    | split
    | intro _

theorem State.recDown_keeps {k : Nat} {r s : State} {ch : Nat} (hk : k &&& 256 = 256)
    (h : Keeps k r s) : Keeps k r ((s.recDown ch)) := by
  unfold State.recDown
  repeat' first
    | with_reducible assumption
    | with_reducible refine State.canErrUpdate_keeps (keeps_sub hk rfl) ?_
    | with_reducible refine State.nextFree_keeps (keeps_sub hk rfl) ?_
    | with_reducible refine State.setRec_keeps (keeps_sub hk rfl) ?_
    | with_reducible refine Keeps.cond ?_ ?_
    | split
    | intro _

theorem State.canRecover_keeps {k : Nat} {r s : State} {ch : Nat} (hk : k &&& 131072 = 131072)
    (h : Keeps k r s) : Keeps k r ((s.canRecover ch)) := by
  unfold State.canRecover
  repeat' first
    | with_reducible assumption
    | with_reducible refine State.putCan_keeps (keeps_sub hk rfl) ?_
    | with_reducible refine Keeps.cond ?_ ?_
    | split
    | intro _

theorem State.canRecovered_keeps {k : Nat} {r s : State} {ch : Nat} (hk : k &&& 131328 = 131328)
    (h : Keeps k r s) : Keeps k r ((s.canRecovered ch)) := by
  unfold State.canRecovered
  dsimp only
  repeat' first
    | with_reducible assumption
    | with_reducible refine State.canTo_keeps (keeps_sub hk rfl) ?_
    | with_reducible refine State.putCan_keeps (keeps_sub hk rfl) ?_
    | with_reducible refine State.setRec_keeps (keeps_sub hk rfl) ?_
    | with_reducible refine State.setTec_keeps (keeps_sub hk rfl) ?_
    | with_reducible refine Keeps.cond ?_ ?_
    | split
    | intro _

theorem State.txFailAll_keeps {k : Nat} {r s : State} {ch : Nat} (hk : k &&& 256 = 256)
    (h : Keeps k r s) : Keeps k r ((s.txFailAll ch)) := by
  unfold State.txFailAll
  repeat' first
    | with_reducible assumption
    | with_reducible refine State.txFinish_keeps (keeps_sub hk rfl) ?_
    | with_reducible refine Keeps.each ?_ ?_
    | intro _

theorem State.canEnter_keeps {k : Nat} {r s : State} {ch m : Nat} (hk : k &&& 131328 = 131328)
    (h : Keeps k r s) : Keeps k r ((s.canEnter ch m)) := by
  unfold State.canEnter
  dsimp only
  repeat' first
    | with_reducible assumption
    | with_reducible refine State.canTo_keeps (keeps_sub hk rfl) ?_
    | with_reducible refine State.putCan_keeps (keeps_sub hk rfl) ?_
    | with_reducible refine State.setRec_keeps (keeps_sub hk rfl) ?_
    | with_reducible refine State.setTec_keeps (keeps_sub hk rfl) ?_
    | with_reducible refine State.txFailAll_keeps (keeps_sub hk rfl) ?_
    | with_reducible refine Keeps.only ?_ ?_
    | with_reducible refine Keeps.cond ?_ ?_
    | split
    | intro _

theorem State.canModeAsk_keeps {k : Nat} {r s : State} {ch m : Nat} (hk : k &&& 131328 = 131328)
    (h : Keeps k r s) : Keeps k r ((s.canModeAsk ch m)) := by
  unfold State.canModeAsk
  repeat' first
    | with_reducible assumption
    | with_reducible refine State.canEnter_keeps (keeps_sub hk rfl) ?_
    | with_reducible refine State.putCan_keeps (keeps_sub hk rfl) ?_
    | with_reducible refine Keeps.cond ?_ ?_
    | split
    | intro _

theorem State.canModeChange_keeps {k : Nat} {r s : State} {ch : Nat} (hk : k &&& 131328 = 131328)
    (h : Keeps k r s) : Keeps k r ((s.canModeChange ch)) := by
  unfold State.canModeChange
  repeat' first
    | with_reducible assumption
    | with_reducible refine State.canEnter_keeps (keeps_sub hk rfl) ?_
    | split
    | intro _

theorem State.canIntegrated_keeps {k : Nat} {r s : State} {ch : Nat} (hk : k &&& 131328 = 131328)
    (h : Keeps k r s) : Keeps k r ((s.canIntegrated ch)) := by
  unfold State.canIntegrated
  dsimp only
  repeat' first
    | with_reducible assumption
    | with_reducible refine State.canTo_keeps (keeps_sub hk rfl) ?_
    | with_reducible refine State.putCan_keeps (keeps_sub hk rfl) ?_
    | with_reducible refine Keeps.cond ?_ ?_
    | split
    | intro _

theorem State.canLineDown_keeps {k : Nat} {r s : State} {ch : Nat} (hk : k &&& 131328 = 131328)
    (h : Keeps k r s) : Keeps k r ((s.canLineDown ch)) := by
  unfold State.canLineDown
  dsimp only
  repeat' first
    | with_reducible assumption
    | with_reducible refine State.canTo_keeps (keeps_sub hk rfl) ?_
    | with_reducible refine State.putCan_keeps (keeps_sub hk rfl) ?_
    | with_reducible refine Keeps.cond ?_ ?_
    | split
    | intro _

theorem State.canLine_keeps {k : Nat} {r s : State} {ch k' : Nat} {present : Bool} (hk : k &&& 131456 = 131456)
    (h : Keeps k r s) : Keeps k r ((s.canLine ch k' present)) := by
  unfold State.canLine
  dsimp only
  repeat' first
    | with_reducible assumption
    | with_reducible refine State.canLineDown_keeps (keeps_sub hk rfl) ?_
    | with_reducible refine State.count_keeps (keeps_sub hk rfl) ?_
    | with_reducible refine State.injRan_keeps (keeps_sub hk rfl) ?_
    | with_reducible refine State.irqCan_keeps (keeps_sub hk rfl) ?_
    | with_reducible refine State.raiseEv_keeps (keeps_sub hk rfl) ?_
    | with_reducible refine State.setBit_keeps (keeps_sub hk rfl) ?_
    | with_reducible refine Keeps.only ?_ ?_
    | with_reducible refine Keeps.cond ?_ ?_
    | split
    | intro _

theorem State.canLineUp_keeps {k : Nat} {r s : State} {ch : Nat} (hk : k &&& 131328 = 131328)
    (h : Keeps k r s) : Keeps k r ((s.canLineUp ch)) := by
  unfold State.canLineUp
  repeat' first
    | with_reducible assumption
    | with_reducible refine State.canTo_keeps (keeps_sub hk rfl) ?_
    | with_reducible refine State.putCan_keeps (keeps_sub hk rfl) ?_
    | with_reducible refine Keeps.cond ?_ ?_
    | split
    | intro _

theorem State.canResume_keeps {k : Nat} {r s : State} {ch : Nat} (hk : k &&& 131328 = 131328)
    (h : Keeps k r s) : Keeps k r ((s.canResume ch)) := by
  unfold State.canResume
  repeat' first
    | with_reducible assumption
    | with_reducible refine State.canTo_keeps (keeps_sub hk rfl) ?_
    | with_reducible refine State.putCan_keeps (keeps_sub hk rfl) ?_
    | with_reducible refine Keeps.cond ?_ ?_
    | split
    | intro _

theorem State.canCtrl_keeps {k : Nat} {r s : State} {ch : Nat} {v : Word} (hk : k &&& 131328 = 131328)
    (h : Keeps k r s) : Keeps k r ((s.canCtrl ch v)) := by
  unfold State.canCtrl
  dsimp only
  repeat' first
    | with_reducible assumption
    | with_reducible refine State.canModeAsk_keeps (keeps_sub hk rfl) ?_
    | with_reducible refine State.canRecover_keeps (keeps_sub hk rfl) ?_
    | with_reducible refine State.canResume_keeps (keeps_sub hk rfl) ?_
    | with_reducible refine State.plainWrite_keeps (keeps_sub hk rfl) ?_
    | with_reducible refine Keeps.only ?_ ?_
    | intro _

theorem State.rxSignals_keeps {k : Nat} {r s : State} {ch filter : Nat} {data : List Byte} (hk : k &&& 8388608 = 8388608)
    (h : Keeps k r s) : Keeps k r ((s.rxSignals ch filter data)) := by
  unfold State.rxSignals
  repeat' first
    | with_reducible assumption
    | with_reducible refine State.charge_keeps (keeps_sub hk rfl) ?_
    | with_reducible refine State.setBit_keeps (keeps_sub hk rfl) ?_
    | with_reducible refine State.wr_keeps (keeps_sub hk rfl) ?_
    | with_reducible refine Keeps.each ?_ ?_
    | with_reducible refine Keeps.cond ?_ ?_
    | split
    | intro _

theorem State.canAppend_keeps {k : Nat} {r s : State} {ch q : Nat} {e : CanEntry} (hk : k &&& 8519936 = 8519936)
    (h : Keeps k r s) : Keeps k r ((s.canAppend ch q e)) := by
  unfold State.canAppend
  dsimp only
  repeat' first
    | with_reducible assumption
    | with_reducible refine State.charge_keeps (keeps_sub hk rfl) ?_
    | with_reducible refine State.count_keeps (keeps_sub hk rfl) ?_
    | with_reducible refine State.irqCan_keeps (keeps_sub hk rfl) ?_
    | with_reducible refine State.putCan_keeps (keeps_sub hk rfl) ?_
    | with_reducible refine State.setBit_keeps (keeps_sub hk rfl) ?_
    | with_reducible refine Keeps.only ?_ ?_
    | with_reducible refine Keeps.cond ?_ ?_
    | split
    | intro _

theorem State.canReceive_keeps {k : Nat} {r s : State} {ch : Nat} {id fmt stamp : Word} {data : List Byte} {staged : Nat} (hk : k &&& 8519936 = 8519936)
    (h : Keeps k r s) : Keeps k r ((s.canReceive ch id fmt stamp data staged)) := by
  unfold State.canReceive
  dsimp only
  repeat' first
    | with_reducible assumption
    | with_reducible refine State.canAppend_keeps (keeps_sub hk rfl) ?_
    | with_reducible refine State.count_keeps (keeps_sub hk rfl) ?_
    | with_reducible refine State.injRan_keeps (keeps_sub hk rfl) ?_
    | with_reducible refine State.irqCan_keeps (keeps_sub hk rfl) ?_
    | with_reducible refine State.recDown_keeps (keeps_sub hk rfl) ?_
    | with_reducible refine State.rxSignals_keeps (keeps_sub hk rfl) ?_
    | with_reducible refine State.setBit_keeps (keeps_sub hk rfl) ?_
    | with_reducible refine Keeps.cond ?_ ?_
    | split
    | intro _

theorem State.canFrame_keeps {k : Nat} {r s : State} {ch : Nat} {id fmt stamp : Word} {data : List Byte} {crcOk : Bool} {staged : Nat} (hk : k &&& 8519936 = 8519936)
    (h : Keeps k r s) : Keeps k r ((s.canFrame ch id fmt stamp data crcOk staged)) := by
  unfold State.canFrame
  dsimp only
  repeat' first
    | with_reducible assumption
    | with_reducible refine State.canError_keeps (keeps_sub hk rfl) ?_
    | with_reducible refine State.canReceive_keeps (keeps_sub hk rfl) ?_
    | with_reducible refine State.injRan_keeps (keeps_sub hk rfl) ?_
    | with_reducible refine Keeps.cond ?_ ?_
    | split
    | intro _

theorem State.canPop_keeps {k : Nat} {r s : State} {ch q : Nat} (hk : k &&& 131072 = 131072)
    (h : Keeps k r s) : Keeps k r ((s.canPop ch q)) := by
  unfold State.canPop
  dsimp only
  repeat' first
    | with_reducible assumption
    | with_reducible refine State.putCan_keeps (keeps_sub hk rfl) ?_
    | with_reducible refine Keeps.cond ?_ ?_
    | split
    | intro _

theorem State.txEnd_keeps {k : Nat} {r s : State} {ch : Nat} {ok : Bool} {stamp : Word} {tdcv vdom : Nat} (hk : k &&& 8520066 = 8520066)
    (h : Keeps k r s) : Keeps k r ((s.txEnd ch ok stamp tdcv vdom)) := by
  unfold State.txEnd
  dsimp only
  repeat' first
    | with_reducible assumption
    | with_reducible refine State.canErrUpdate_keeps (keeps_sub hk rfl) ?_
    | with_reducible refine State.canFrame_keeps (keeps_sub hk rfl) ?_
    | with_reducible refine State.canLine_keeps (keeps_sub hk rfl) ?_
    | with_reducible refine State.count_keeps (keeps_sub hk rfl) ?_
    | with_reducible refine State.putCan_keeps (keeps_sub hk rfl) ?_
    | with_reducible refine State.send_keeps (keeps_sub hk rfl) ?_
    | with_reducible refine State.setFld_keeps (keeps_sub hk rfl) ?_
    | with_reducible refine State.setTec_keeps (keeps_sub hk rfl) ?_
    | with_reducible refine State.txFail_keeps (keeps_sub hk rfl) ?_
    | with_reducible refine State.txFinish_keeps (keeps_sub hk rfl) ?_
    | with_reducible refine State.wr_keeps (keeps_sub hk rfl) ?_
    | with_reducible refine Keeps.only ?_ ?_
    | with_reducible refine Keeps.cond ?_ ?_
    | split
    | intro _

theorem State.sigPut_keeps {k : Nat} {r s : State} {g : CanSig} {raw : Int} (hk : k &&& 0 = 0)
    (h : Keeps k r s) : Keeps k r ((s.sigPut g raw)) := by
  unfold State.sigPut
  dsimp only
  repeat' first
    | with_reducible assumption
    | with_reducible refine State.wr_keeps (keeps_sub hk rfl) ?_
    | with_reducible refine Keeps.each ?_ ?_
    | intro _

theorem State.sigInsert_keeps {k : Nat} {r s : State} {g : CanSig} {raw : Int} (hk : k &&& 8388608 = 8388608)
    (h : Keeps k r s) : Keeps k r ((s.sigInsert g raw)) := by
  unfold State.sigInsert
  dsimp only
  repeat' first
    | with_reducible assumption
    | with_reducible refine State.charge_keeps (keeps_sub hk rfl) ?_
    | with_reducible refine State.setBit_keeps (keeps_sub hk rfl) ?_
    | with_reducible refine State.sigPut_keeps (keeps_sub hk rfl) ?_
    | with_reducible refine Keeps.only ?_ ?_
    | intro _

theorem State.sigReady_keeps {k : Nat} {r s : State} {ch b : Nat} (hk : k &&& 0 = 0)
    (h : Keeps k r s) : Keeps k r ((s.sigReady ch b)) := by
  unfold State.sigReady
  dsimp only
  repeat' first
    | with_reducible assumption
    | with_reducible refine State.count_keeps (keeps_sub hk rfl) ?_
    | with_reducible refine State.setBit_keeps (keeps_sub hk rfl) ?_
    | with_reducible refine State.txRequest_keeps (keeps_sub hk rfl) ?_
    | with_reducible refine Keeps.only ?_ ?_
    | with_reducible refine Keeps.cond ?_ ?_
    | split
    | intro _

theorem State.canApply_keeps {k : Nat} {r s : State} (hk : k &&& 8388608 = 8388608)
    (h : Keeps k r s) : Keeps k r (s.canApply) := by
  unfold State.canApply
  dsimp only
  repeat' first
    | with_reducible assumption
    | with_reducible refine State.sigInsert_keeps (keeps_sub hk rfl) ?_
    | with_reducible refine State.sigReady_keeps (keeps_sub hk rfl) ?_
    | with_reducible refine Keeps.each ?_ ?_
    | with_reducible refine Keeps.cond ?_ ?_
    | split
    | intro _

theorem State.canGate_keeps {k : Nat} {r s : State} (hk : k &&& 0 = 0)
    (h : Keeps k r s) : Keeps k r (s.canGate) := by
  unfold State.canGate
  repeat' first
    | with_reducible assumption
    | with_reducible refine State.setBit_keeps (keeps_sub hk rfl) ?_
    | with_reducible refine Keeps.only ?_ ?_
    | with_reducible refine Keeps.each ?_ ?_
    | intro _

theorem State.canCorr_keeps {k : Nat} {r s : State} {sec ns : Nat} {valid : Bool} (hk : k &&& 0 = 0)
    (h : Keeps k r s) : Keeps k r ((s.canCorr sec ns valid)) := by
  unfold State.canCorr
  dsimp only
  repeat' first
    | with_reducible assumption
    | with_reducible refine State.wr_keeps (keeps_sub hk rfl) ?_
    | with_reducible refine Keeps.each ?_ ?_
    | intro _

theorem State.loadCanf_keeps {k : Nat} {r s : State} (hk : k &&& 0 = 0)
    (h : Keeps k r s) : Keeps k r (s.loadCanf) := by
  unfold State.loadCanf
  dsimp only
  repeat' first
    | with_reducible assumption
    | with_reducible refine State.setBit_keeps (keeps_sub hk rfl) ?_
    | with_reducible refine State.wr_keeps (keeps_sub hk rfl) ?_
    | with_reducible refine Keeps.each ?_ ?_
    | intro _

end Sys2Proof.Machine
end

