-- ==== Sys2Proof/Laws/KeepsLapOps.lean ====
section
/-!
SUPPORT. Laws/KeepsLapOps.lean: what the operations of Machine/LapOps.lean keep (`Keeps`).
-/

namespace Sys2Proof.Machine

theorem State.zcRan_keeps {k : Nat} {r s : State} (hk : k &&& 4 = 4)
    (h : Keeps k r s) : Keeps k r (s.zcRan) := by
  unfold State.zcRan
  repeat' first
    | with_reducible assumption
    | with_reducible refine State.injRan_keeps (keeps_sub hk rfl) ?_
    | exact fun _ g => by dsimp only; with_reducible exact g.tick
    | exact fun g _ => by dsimp only; with_reducible exact (h.inv g).tick
    | exact fun _ g => by dsimp only; split <;> with_reducible exact g.tick
    | with_reducible refine Keeps.cond ?_ ?_
    | split
    | intro _
    | with_reducible refine Keeps.set_lap (keeps_sub hk rfl) ?_ ?_

theorem State.mainsFreq_keeps {k : Nat} {r s : State} {freqs : List Nat} (hk : k &&& 0 = 0)
    (h : Keeps k r s) : Keeps k r ((s.mainsFreq freqs)) := by
  unfold State.mainsFreq
  dsimp only
  repeat' first
    | with_reducible assumption
    | with_reducible refine State.roundOpen_keeps (keeps_sub hk rfl) ?_
    | with_reducible refine State.wr_keeps (keeps_sub hk rfl) ?_
    | with_reducible refine Keeps.cond ?_ ?_
    | split
    | intro _

theorem State.judged_keeps {k : Nat} {r s : State} {feeder good : Bool} {freqs : List Nat} (hk : k &&& 4 = 4)
    (h : Keeps k r s) : Keeps k r ((s.judged feeder good freqs)) := by
  unfold State.judged
  dsimp only
  repeat' first
    | with_reducible assumption
    | with_reducible refine State.mainsFreq_keeps (keeps_sub hk rfl) ?_
    | with_reducible refine Keeps.only ?_ ?_
    | exact fun _ g => by dsimp only; with_reducible exact g.tick
    | exact fun g _ => by dsimp only; with_reducible exact (h.inv g).tick
    | exact fun _ g => by dsimp only; split <;> with_reducible exact g.tick
    | with_reducible refine Keeps.cond ?_ ?_
    | split
    | intro _
    | with_reducible refine Keeps.set_lap (keeps_sub hk rfl) ?_ ?_

theorem State.crossing_keeps {k : Nat} {r s : State} {feeder : Bool} {deviation freq : Nat} (hk : k &&& 4 = 4)
    (h : Keeps k r s) : Keeps k r ((s.crossing feeder deviation freq)) := by
  unfold State.crossing
  dsimp only
  repeat' first
    | with_reducible assumption
    | with_reducible refine State.judged_keeps (keeps_sub hk rfl) ?_
    | with_reducible refine State.zcRan_keeps (keeps_sub hk rfl) ?_
    | exact fun _ g => by dsimp only; with_reducible exact g.tick
    | exact fun g _ => by dsimp only; with_reducible exact (h.inv g).tick
    | exact fun _ g => by dsimp only; split <;> with_reducible exact g.tick
    | with_reducible refine Keeps.cond ?_ ?_
    | split
    | intro _
    | with_reducible refine Keeps.set_lap (keeps_sub hk rfl) ?_ ?_

theorem State.crossingMissing_keeps {k : Nat} {r s : State} {feeder : Bool} (hk : k &&& 4 = 4)
    (h : Keeps k r s) : Keeps k r ((s.crossingMissing feeder)) := by
  unfold State.crossingMissing
  dsimp only
  repeat' first
    | with_reducible assumption
    | with_reducible refine State.judged_keeps (keeps_sub hk rfl) ?_
    | with_reducible refine State.zcRan_keeps (keeps_sub hk rfl) ?_
    | with_reducible refine Keeps.cond ?_ ?_
    | split
    | intro _

theorem State.feederCheck_keeps {k : Nat} {r s : State} (hk : k &&& 4 = 4)
    (h : Keeps k r s) : Keeps k r (s.feederCheck) := by
  unfold State.feederCheck
  repeat' first
    | with_reducible assumption
    | exact fun _ g => by dsimp only; with_reducible exact g.tick
    | exact fun g _ => by dsimp only; with_reducible exact (h.inv g).tick
    | exact fun _ g => by dsimp only; split <;> with_reducible exact g.tick
    | with_reducible refine Keeps.cond ?_ ?_
    | split
    | intro _
    | with_reducible refine Keeps.set_lap (keeps_sub hk rfl) ?_ ?_

theorem State.srcTo_keeps {k : Nat} {r s : State} {k' : Nat} (hk : k &&& 4 = 4)
    (h : Keeps k r s) : Keeps k r ((s.srcTo k')) := by
  unfold State.srcTo
  dsimp only
  repeat' first
    | with_reducible assumption
    | with_reducible refine State.setBit_keeps (keeps_sub hk rfl) ?_
    | with_reducible refine State.setFld_keeps (keeps_sub hk rfl) ?_
    | exact fun _ g => by dsimp only; with_reducible exact g.tick
    | exact fun g _ => by dsimp only; with_reducible exact (h.inv g).tick
    | exact fun _ g => by dsimp only; split <;> with_reducible exact g.tick
    | with_reducible refine Keeps.cond ?_ ?_
    | split
    | intro _
    | with_reducible refine Keeps.set_lap (keeps_sub hk rfl) ?_ ?_

theorem State.fallback_keeps {k : Nat} {r s : State} (hk : k &&& 256 = 256)
    (h : Keeps k r s) : Keeps k r (s.fallback) := by
  unfold State.fallback
  repeat' first
    | with_reducible assumption
    | with_reducible refine State.count_keeps (keeps_sub hk rfl) ?_
    | with_reducible refine State.irqLap_keeps (keeps_sub hk rfl) ?_
    | with_reducible refine State.setBit_keeps (keeps_sub hk rfl) ?_
    | intro _

theorem State.srcBoundary_keeps {k : Nat} {r s : State} (hk : k &&& 260 = 260)
    (h : Keeps k r s) : Keeps k r (s.srcBoundary) := by
  unfold State.srcBoundary
  dsimp only
  repeat' first
    | with_reducible assumption
    | with_reducible refine State.count_keeps (keeps_sub hk rfl) ?_
    | with_reducible refine State.fallback_keeps (keeps_sub hk rfl) ?_
    | with_reducible refine State.irqLap_keeps (keeps_sub hk rfl) ?_
    | with_reducible refine State.setFld_keeps (keeps_sub hk rfl) ?_
    | with_reducible refine State.srcTo_keeps (keeps_sub hk rfl) ?_
    | exact fun _ g => by dsimp only; with_reducible exact g.tick
    | exact fun g _ => by dsimp only; with_reducible exact (h.inv g).tick
    | exact fun _ g => by dsimp only; split <;> with_reducible exact g.tick
    | with_reducible refine Keeps.cond ?_ ?_
    | split
    | intro _
    | with_reducible refine Keeps.set_lap (keeps_sub hk rfl) ?_ ?_

theorem State.netLost_keeps {k : Nat} {r s : State} (hk : k &&& 4 = 4)
    (h : Keeps k r s) : Keeps k r (s.netLost) := by
  unfold State.netLost
  repeat' first
    | with_reducible assumption
    | exact fun _ g => by dsimp only; with_reducible exact g.tick
    | exact fun g _ => by dsimp only; with_reducible exact (h.inv g).tick
    | intro _
    | with_reducible refine Keeps.set_lap (keeps_sub hk rfl) ?_ ?_

theorem State.slvMoved_keeps {k : Nat} {r s : State} {r' n : Nat} {at_ : Option SeqPos} (hk : k &&& 1024 = 1024)
    (h : Keeps k r s) : Keeps k r ((s.slvMoved r' n at_)) := by
  unfold State.slvMoved
  dsimp only
  repeat' first
    | with_reducible assumption
    | with_reducible refine State.setFld_keeps (keeps_sub hk rfl) ?_
    | with_reducible refine State.wr_keeps (keeps_sub hk rfl) ?_
    | with_reducible refine Keeps.cond ?_ ?_
    | split
    | intro _
    | with_reducible refine Keeps.set_dsp (keeps_sub hk rfl) ?_

theorem State.pacerGrant_keeps {k : Nat} {r s : State} {r' : Nat} {units : List (Nat × Nat)} {at_ : Option SeqPos} (hk : k &&& 8389632 = 8389632)
    (h : Keeps k r s) : Keeps k r ((s.pacerGrant r' units at_)) := by
  unfold State.pacerGrant
  dsimp only
  repeat' first
    | with_reducible assumption
    | with_reducible refine State.charge_keeps (keeps_sub hk rfl) ?_
    | with_reducible refine State.slvMoved_keeps (keeps_sub hk rfl) ?_
    | with_reducible refine Keeps.cond ?_ ?_
    | split
    | intro _

theorem State.pacerLap_keeps {k : Nat} {r s : State} (hk : k &&& 8388864 = 8388864)
    (h : Keeps k r s) : Keeps k r (s.pacerLap) := by
  unfold State.pacerLap
  dsimp only
  repeat' first
    | with_reducible assumption
    | with_reducible refine State.count_keeps (keeps_sub hk rfl) ?_
    | with_reducible refine State.irqLap_keeps (keeps_sub hk rfl) ?_
    | with_reducible refine State.setBit_keeps (keeps_sub hk rfl) ?_
    | with_reducible refine State.wr_keeps (keeps_sub hk rfl) ?_
    | with_reducible refine Keeps.only ?_ ?_
    | with_reducible refine Keeps.each ?_ ?_
    | intro _
    | with_reducible refine Keeps.set_used (keeps_sub hk rfl) ?_

theorem State.batonRequest_keeps {k : Nat} {r s : State} {who need : Nat} (hk : k &&& 4 = 4)
    (h : Keeps k r s) : Keeps k r ((s.batonRequest who need)) := by
  unfold State.batonRequest
  repeat' first
    | with_reducible assumption
    | exact fun _ g => by dsimp only; with_reducible exact g.tick
    | exact fun g _ => by dsimp only; with_reducible exact (h.inv g).tick
    | exact fun _ g => by dsimp only; split <;> with_reducible exact g.tick
    | with_reducible refine Keeps.cond ?_ ?_
    | split
    | intro _
    | with_reducible refine Keeps.set_lap (keeps_sub hk rfl) ?_ ?_

theorem State.batonRelease_keeps {k : Nat} {r s : State} {who : Nat} (hk : k &&& 4 = 4)
    (h : Keeps k r s) : Keeps k r ((s.batonRelease who)) := by
  unfold State.batonRelease
  repeat' first
    | with_reducible assumption
    | exact fun _ g => by dsimp only; with_reducible exact g.tick
    | exact fun g _ => by dsimp only; with_reducible exact (h.inv g).tick
    | intro _
    | with_reducible refine Keeps.set_lap (keeps_sub hk rfl) ?_ ?_

theorem State.batonCancel_keeps {k : Nat} {r s : State} {who : Nat} (hk : k &&& 4 = 4)
    (h : Keeps k r s) : Keeps k r ((s.batonCancel who)) := by
  unfold State.batonCancel
  repeat' first
    | with_reducible assumption
    | exact fun _ g => by dsimp only; with_reducible exact g.tick
    | exact fun g _ => by dsimp only; with_reducible exact (h.inv g).tick
    | intro _
    | with_reducible refine Keeps.set_lap (keeps_sub hk rfl) ?_ ?_

theorem State.batonGive_keeps {k : Nat} {r s : State} {q : BatonReq} (hk : k &&& 4 = 4)
    (h : Keeps k r s) : Keeps k r ((s.batonGive q)) := by
  unfold State.batonGive
  dsimp only
  repeat' first
    | with_reducible assumption
    | with_reducible refine State.count_keeps (keeps_sub hk rfl) ?_
    | exact fun _ g => by dsimp only; with_reducible exact g.tick
    | exact fun g _ => by dsimp only; with_reducible exact (h.inv g).tick
    | intro _
    | with_reducible refine Keeps.set_lap (keeps_sub hk rfl) ?_ ?_

theorem State.batonsFor_keeps {k : Nat} {r s : State} {who need : Nat} (hk : k &&& 4 = 4)
    (h : Keeps k r s) : Keeps k r ((s.batonsFor who need)) := by
  unfold State.batonsFor
  dsimp only
  repeat' first
    | with_reducible assumption
    | with_reducible refine State.batonGive_keeps (keeps_sub hk rfl) ?_
    | with_reducible refine State.batonRequest_keeps (keeps_sub hk rfl) ?_
    | with_reducible refine Keeps.cond ?_ ?_
    | split
    | intro _

theorem State.batonsDrop_keeps {k : Nat} {r s : State} (hk : k &&& 4 = 4)
    (h : Keeps k r s) : Keeps k r (s.batonsDrop) := by
  unfold State.batonsDrop
  repeat' first
    | with_reducible assumption
    | exact fun _ g => by dsimp only; with_reducible exact g.tick
    | exact fun g _ => by dsimp only; with_reducible exact (h.inv g).tick
    | intro _
    | with_reducible refine Keeps.set_lap (keeps_sub hk rfl) ?_ ?_

theorem State.drawReserved_keeps {k : Nat} {r s : State} (hk : k &&& 4 = 4)
    (h : Keeps k r s) : Keeps k r (s.drawReserved) := by
  unfold State.drawReserved
  repeat' first
    | with_reducible assumption
    | exact fun _ g => by dsimp only; with_reducible exact g.tick
    | exact fun g _ => by dsimp only; with_reducible exact (h.inv g).tick
    | intro _
    | with_reducible refine Keeps.set_lap (keeps_sub hk rfl) ?_ ?_

theorem State.batonAge_keeps {k : Nat} {r s : State} {who : Nat} (hk : k &&& 4 = 4)
    (h : Keeps k r s) : Keeps k r ((s.batonAge who)) := by
  unfold State.batonAge
  dsimp only
  repeat' first
    | with_reducible assumption
    | exact fun _ g => by dsimp only; with_reducible exact g.tick
    | exact fun g _ => by dsimp only; with_reducible exact (h.inv g).tick
    | exact fun _ g => by dsimp only; split <;> with_reducible exact g.tick
    | with_reducible refine Keeps.cond ?_ ?_
    | split
    | intro _
    | with_reducible refine Keeps.set_lap (keeps_sub hk rfl) ?_ ?_

end Sys2Proof.Machine
end

