-- ==== Sys2Proof/Laws/KeepsDspOps.lean ====
section
/-!
SUPPORT. Laws/KeepsDspOps.lean: what the operations of Machine/DspOps.lean keep (`Keeps`).
-/

namespace Sys2Proof.Machine

theorem State.resReport_keeps {k : Nat} {r s : State} {status : Nat} (hk : k &&& 1280 = 1280)
    (h : Keeps k r s) : Keeps k r ((s.resReport status)) := by
  unfold State.resReport
  dsimp only
  repeat' first
    | with_reducible assumption
    | with_reducible refine State.count_keeps (keeps_sub hk rfl) ?_
    | with_reducible refine State.irqRes_keeps (keeps_sub hk rfl) ?_
    | with_reducible refine State.setBit_keeps (keeps_sub hk rfl) ?_
    | with_reducible refine State.setFld_keeps (keeps_sub hk rfl) ?_
    | with_reducible refine State.wr_keeps (keeps_sub hk rfl) ?_
    | with_reducible refine Keeps.only ?_ ?_
    | with_reducible refine Keeps.cond ?_ ?_
    | split
    | intro _
    | with_reducible refine Keeps.set_dsp (keeps_sub hk rfl) ?_

theorem State.encodeReport_keeps {k : Nat} {r s : State} {conv : List Int} (hk : k &&& 0 = 0)
    (h : Keeps k r s) : Keeps k r ((s.encodeReport conv)) := by
  unfold State.encodeReport
  dsimp only
  repeat' first
    | with_reducible assumption
    | with_reducible refine State.countN_keeps (keeps_sub hk rfl) ?_
    | with_reducible refine State.injRan_keeps (keeps_sub hk rfl) ?_
    | with_reducible refine State.setBit_keeps (keeps_sub hk rfl) ?_
    | with_reducible refine Keeps.only ?_ ?_
    | with_reducible refine Keeps.cond ?_ ?_
    | split
    | intro _

theorem State.injFirst_keeps {k : Nat} {r s : State} {conv : List Int} (hk : k &&& 0 = 0)
    (h : Keeps k r s) : Keeps k r ((s.injFirst conv).2) := by
  unfold State.injFirst
  dsimp only
  repeat' first
    | with_reducible assumption
    | with_reducible refine State.freeBits_keeps (keeps_sub hk rfl) ?_
    | with_reducible refine Keeps.cond ?_ ?_
    | split
    | intro _

theorem State.putStreams_keeps {k : Nat} {r s : State} {x : List Int} (hk : k &&& 1024 = 1024)
    (h : Keeps k r s) : Keeps k r ((s.putStreams x)) := by
  unfold State.putStreams
  dsimp only
  repeat' first
    | with_reducible assumption
    | with_reducible refine State.encodeReport_keeps (keeps_sub hk rfl) ?_
    | with_reducible refine State.injFirst_keeps (keeps_sub hk rfl) ?_
    | split
    | intro _
    | with_reducible refine Keeps.set_dsp (keeps_sub hk rfl) ?_

theorem State.measureWord_keeps {k : Nat} {r s : State} {k' : Measure} (hk : k &&& 0 = 0)
    (h : Keeps k r s) : Keeps k r ((s.measureWord k').2) := by
  unfold State.measureWord
  exact keeps_snd (State.roundOpen_keeps (keeps_sub hk rfl) h)

theorem State.measureWords_keeps {k : Nat} {r s : State} {k' : Option Measures} (hk : k &&& 0 = 0)
    (h : Keeps k r s) : Keeps k r ((s.measureWords k').2) := by
  unfold State.measureWords
  cases k' with
  | none => exact keeps_snd h
  | some m =>
    exact keeps_snd (State.measureWord_keeps hk (State.measureWord_keeps hk (State.measureWord_keeps hk (State.measureWord_keeps hk h))))

theorem State.showProblem_keeps {k : Nat} {r s : State} {fb : Bool} (hk : k &&& 0 = 0)
    (h : Keeps k r s) : Keeps k r ((s.showProblem fb)) := by
  unfold State.showProblem
  dsimp only
  repeat' first
    | with_reducible assumption
    | with_reducible refine State.wr_keeps (keeps_sub hk rfl) ?_
    | intro _

theorem State.showGraph_keeps {k : Nat} {r s : State} (hk : k &&& 0 = 0)
    (h : Keeps k r s) : Keeps k r (s.showGraph) := by
  unfold State.showGraph
  dsimp only
  repeat' first
    | with_reducible assumption
    | with_reducible refine State.wr_keeps (keeps_sub hk rfl) ?_
    | intro _

theorem State.toProblem_keeps {k : Nat} {r s : State} {fb : Bool} (hk : k &&& 1280 = 1280)
    (h : Keeps k r s) : Keeps k r ((s.toProblem fb)) := by
  unfold State.toProblem
  dsimp only
  repeat' first
    | with_reducible assumption
    | with_reducible refine State.fallback_keeps (keeps_sub hk rfl) ?_
    | with_reducible refine State.setBit_keeps (keeps_sub hk rfl) ?_
    | with_reducible refine State.showProblem_keeps (keeps_sub hk rfl) ?_
    | with_reducible refine Keeps.cond ?_ ?_
    | split
    | intro _
    | with_reducible refine Keeps.set_dsp (keeps_sub hk rfl) ?_

theorem State.coldInForce_keeps {k : Nat} {r s : State} (hk : k &&& 1280 = 1280)
    (h : Keeps k r s) : Keeps k r (s.coldInForce) := by
  unfold State.coldInForce
  dsimp only
  repeat' first
    | with_reducible assumption
    | with_reducible refine State.count_keeps (keeps_sub hk rfl) ?_
    | with_reducible refine State.fallback_keeps (keeps_sub hk rfl) ?_
    | with_reducible refine State.freeBits_keeps (keeps_sub hk rfl) ?_
    | with_reducible refine State.putStreams_keeps (keeps_sub hk rfl) ?_
    | with_reducible refine State.setBit_keeps (keeps_sub hk rfl) ?_
    | with_reducible refine State.setFld_keeps (keeps_sub hk rfl) ?_
    | with_reducible refine State.wr_keeps (keeps_sub hk rfl) ?_
    | intro _
    | with_reducible refine Keeps.set_dsp (keeps_sub hk rfl) ?_

theorem State.coldEpochs_keeps {k : Nat} {r s : State} (hk : k &&& 1024 = 1024)
    (h : Keeps k r s) : Keeps k r (s.coldEpochs) := by
  unfold State.coldEpochs
  dsimp only
  repeat' first
    | with_reducible assumption
    | with_reducible refine Keeps.cond ?_ ?_
    | split
    | intro _
    | with_reducible refine Keeps.set_dsp (keeps_sub hk rfl) ?_

theorem State.publishCold_keeps {k : Nat} {r s : State} (hk : k &&& 1280 = 1280)
    (h : Keeps k r s) : Keeps k r (s.publishCold) := by
  unfold State.publishCold
  dsimp only
  repeat' first
    | with_reducible assumption
    | with_reducible refine State.coldInForce_keeps (keeps_sub hk rfl) ?_
    | with_reducible refine State.fallback_keeps (keeps_sub hk rfl) ?_
    | with_reducible refine State.resReport_keeps (keeps_sub hk rfl) ?_
    | with_reducible refine State.setBit_keeps (keeps_sub hk rfl) ?_
    | with_reducible refine Keeps.only ?_ ?_
    | intro _

theorem State.takeGrid_keeps {k : Nat} {r s : State} (hk : k &&& 1280 = 1280)
    (h : Keeps k r s) : Keeps k r (s.takeGrid) := by
  unfold State.takeGrid
  dsimp only
  repeat' first
    | with_reducible assumption
    | with_reducible refine State.count_keeps (keeps_sub hk rfl) ?_
    | with_reducible refine State.irqRes_keeps (keeps_sub hk rfl) ?_
    | with_reducible refine State.setBit_keeps (keeps_sub hk rfl) ?_
    | with_reducible refine State.wr_keeps (keeps_sub hk rfl) ?_
    | with_reducible refine Keeps.only ?_ ?_
    | with_reducible refine Keeps.cond ?_ ?_
    | split
    | intro _
    | with_reducible refine Keeps.set_dsp (keeps_sub hk rfl) ?_

end Sys2Proof.Machine
end

