-- ==== Sys2Proof/Laws/KeepsEthOps.lean ====
section
/-!
SUPPORT. Laws/KeepsEthOps.lean: what the operations of Machine/EthOps.lean keep (`Keeps`).
-/

namespace Sys2Proof.Machine

theorem State.ethAccept_keeps {k : Nat} {r s : State} {p : Nat} (hk : k &&& 524544 = 524544)
    (h : Keeps k r s) : Keeps k r ((s.ethAccept p).1) := by
  unfold State.ethAccept
  repeat' first
    | with_reducible assumption
    | with_reducible refine State.count_keeps (keeps_sub hk rfl) ?_
    | with_reducible refine State.irqEth_keeps (keeps_sub hk rfl) ?_
    | with_reducible refine State.setBit_keeps (keeps_sub hk rfl) ?_
    | with_reducible refine Keeps.cond ?_ ?_
    | split
    | intro _
    | with_reducible refine Keeps.set_eth (keeps_sub hk rfl) ?_

theorem State.ethTake_keeps {k : Nat} {r s : State} {p : Nat} {f : State → State} (hk : k &&& 524544 = 524544)
    (hf : ∀ u, Keeps k r u → Keeps k r (f u))
    (h : Keeps k r s) : Keeps k r ((s.ethTake p f)) := by
  unfold State.ethTake
  dsimp only
  repeat' first
    | with_reducible assumption
    | with_reducible refine hf _ ?_
    | with_reducible refine State.ethAccept_keeps (keeps_sub hk rfl) ?_
    | with_reducible refine Keeps.cond ?_ ?_
    | split
    | intro _

theorem State.ethFrame_keeps {k : Nat} {r s : State} {p : Nat} {good : Bool} (hk : k &&& 524544 = 524544)
    (h : Keeps k r s) : Keeps k r ((s.ethFrame p good)) := by
  unfold State.ethFrame
  repeat' first
    | with_reducible assumption
    | assumption
    | with_reducible refine State.count_keeps (keeps_sub hk rfl) ?_
    | with_reducible refine State.ethTake_keeps (keeps_sub hk rfl) ?_ ?_
    | with_reducible refine Keeps.cond ?_ ?_
    | split
    | intro _

theorem State.linkChange_keeps {k : Nat} {r s : State} {p : Nat} {up gig : Bool} (hk : k &&& 256 = 256)
    (h : Keeps k r s) : Keeps k r ((s.linkChange p up gig)) := by
  unfold State.linkChange
  dsimp only
  repeat' first
    | with_reducible assumption
    | with_reducible refine State.irqEth_keeps (keeps_sub hk rfl) ?_
    | with_reducible refine State.setBit_keeps (keeps_sub hk rfl) ?_
    | with_reducible refine State.wr_keeps (keeps_sub hk rfl) ?_
    | with_reducible refine Keeps.only ?_ ?_
    | with_reducible refine Keeps.cond ?_ ?_
    | split
    | intro _

theorem State.arpUpdate_keeps {k : Nat} {r s : State} {p : Nat} {ip : Word} {mac : BitVec 48} (hk : k &&& 524288 = 524288)
    (h : Keeps k r s) : Keeps k r ((s.arpUpdate p ip mac)) := by
  unfold State.arpUpdate
  repeat' first
    | with_reducible assumption
    | with_reducible refine Keeps.cond ?_ ?_
    | split
    | intro _
    | with_reducible refine Keeps.set_eth (keeps_sub hk rfl) ?_

theorem State.arpInsert_keeps {k : Nat} {r s : State} {p : Nat} {ip : Word} {mac : BitVec 48} (hk : k &&& 524288 = 524288)
    (h : Keeps k r s) : Keeps k r ((s.arpInsert p ip mac)) := by
  unfold State.arpInsert
  repeat' first
    | with_reducible assumption
    | with_reducible refine Keeps.cond ?_ ?_
    | split
    | intro _
    | with_reducible refine Keeps.set_eth (keeps_sub hk rfl) ?_

theorem State.arpAsk_keeps {k : Nat} {r s : State} {p : Nat} {ip : Word} (hk : k &&& 8388610 = 8388610)
    (h : Keeps k r s) : Keeps k r ((s.arpAsk p ip)) := by
  unfold State.arpAsk
  repeat' first
    | with_reducible assumption
    | with_reducible refine State.send_keeps (keeps_sub hk rfl) ?_
    | intro _

theorem State.arpFrame_keeps {k : Nat} {r s : State} {p : Nat} {isReq : Bool} {sip : Word} {smac : BitVec 48} {tip : Word} (hk : k &&& 8913154 = 8913154)
    (h : Keeps k r s) : Keeps k r ((s.arpFrame p isReq sip smac tip)) := by
  unfold State.arpFrame
  dsimp only
  repeat' first
    | with_reducible assumption
    | with_reducible refine State.arpInsert_keeps (keeps_sub hk rfl) ?_
    | with_reducible refine State.arpUpdate_keeps (keeps_sub hk rfl) ?_
    | with_reducible refine State.ethTake_keeps (keeps_sub hk rfl) ?_ ?_
    | with_reducible refine State.send_keeps (keeps_sub hk rfl) ?_
    | with_reducible refine Keeps.only ?_ ?_
    | intro _

theorem State.arpRefresh_keeps {k : Nat} {r s : State} {p : Nat} {ip : Word} (hk : k &&& 8388610 = 8388610)
    (h : Keeps k r s) : Keeps k r ((s.arpRefresh p ip)) := by
  unfold State.arpRefresh
  repeat' first
    | with_reducible assumption
    | with_reducible refine State.arpAsk_keeps (keeps_sub hk rfl) ?_
    | with_reducible refine Keeps.only ?_ ?_
    | intro _

theorem State.icmpEcho_keeps {k : Nat} {r s : State} {p : Nat} {ip : Word} {payload : List Byte} (hk : k &&& 8913154 = 8913154)
    (h : Keeps k r s) : Keeps k r ((s.icmpEcho p ip payload)) := by
  unfold State.icmpEcho
  repeat' first
    | with_reducible assumption
    | with_reducible refine State.ethTake_keeps (keeps_sub hk rfl) ?_ ?_
    | with_reducible refine State.send_keeps (keeps_sub hk rfl) ?_
    | intro _

theorem State.telSend_keeps {k : Nat} {r s : State} {f : Sett} {i p : Nat} (hk : k &&& 8388610 = 8388610)
    (h : Keeps k r s) : Keeps k r ((s.telSend f i p)) := by
  unfold State.telSend
  dsimp only
  repeat' first
    | with_reducible assumption
    | with_reducible refine State.arpAsk_keeps (keeps_sub hk rfl) ?_
    | with_reducible refine State.count_keeps (keeps_sub hk rfl) ?_
    | with_reducible refine State.send_keeps (keeps_sub hk rfl) ?_
    | with_reducible refine State.setBit_keeps (keeps_sub hk rfl) ?_
    | split
    | intro _

theorem State.telegrams_keeps {k : Nat} {r s : State} {f : Sett} (hk : k &&& 8912898 = 8912898)
    (h : Keeps k r s) : Keeps k r ((s.telegrams f)) := by
  unfold State.telegrams
  dsimp only
  repeat' first
    | with_reducible assumption
    | with_reducible refine State.telSend_keeps (keeps_sub hk rfl) ?_
    | with_reducible refine Keeps.each ?_ ?_
    | with_reducible refine Keeps.cond ?_ ?_
    | split
    | intro _
    | with_reducible refine Keeps.set_eth (keeps_sub hk rfl) ?_

theorem State.dropSub_keeps {k : Nat} {r s : State} {b : List Byte} (hk : k &&& 0 = 0)
    (h : Keeps k r s) : Keeps k r ((s.dropSub b).2) := by
  unfold State.dropSub
  repeat' first
    | with_reducible assumption
    | with_reducible refine State.freeBits_keeps (keeps_sub hk rfl) ?_
    | with_reducible refine Keeps.cond ?_ ?_
    | split
    | intro _

theorem State.telDrop_keeps {k : Nat} {r s : State} {cause p : Nat} {b : List Byte} (hk : k &&& 256 = 256)
    (h : Keeps k r s) : Keeps k r ((s.telDrop cause p b)) := by
  unfold State.telDrop
  dsimp only
  repeat' first
    | with_reducible assumption
    | with_reducible refine State.count_keeps (keeps_sub hk rfl) ?_
    | with_reducible refine State.dropSub_keeps (keeps_sub hk rfl) ?_
    | with_reducible refine State.irqEth_keeps (keeps_sub hk rfl) ?_
    | with_reducible refine State.setBit_keeps (keeps_sub hk rfl) ?_
    | with_reducible refine State.wr_keeps (keeps_sub hk rfl) ?_
    | intro _

theorem State.telAccept_keeps {k : Nat} {r s : State} {b : List Byte} (hk : k &&& 8912896 = 8912896)
    (h : Keeps k r s) : Keeps k r ((s.telAccept b)) := by
  unfold State.telAccept
  dsimp only
  repeat' first
    | with_reducible assumption
    | with_reducible refine State.charge_keeps (keeps_sub hk rfl) ?_
    | with_reducible refine State.count_keeps (keeps_sub hk rfl) ?_
    | intro _
    | with_reducible refine Keeps.set_eth (keeps_sub hk rfl) ?_

theorem State.telJudge_keeps {k : Nat} {r s : State} {p : Nat} {ip : Word} {b : List Byte} (hk : k &&& 8913152 = 8913152)
    (h : Keeps k r s) : Keeps k r ((s.telJudge p ip b)) := by
  unfold State.telJudge
  dsimp only
  repeat' first
    | with_reducible assumption
    | with_reducible refine State.injRan_keeps (keeps_sub hk rfl) ?_
    | with_reducible refine State.telAccept_keeps (keeps_sub hk rfl) ?_
    | with_reducible refine State.telDrop_keeps (keeps_sub hk rfl) ?_
    | with_reducible refine Keeps.cond ?_ ?_
    | split
    | intro _

theorem State.statusTelegram_keeps {k : Nat} {r s : State} {p : Nat} {ip : Word} {b : List Byte} (hk : k &&& 8913152 = 8913152)
    (h : Keeps k r s) : Keeps k r ((s.statusTelegram p ip b)) := by
  unfold State.statusTelegram
  repeat' first
    | with_reducible assumption
    | with_reducible refine State.ethTake_keeps (keeps_sub hk rfl) ?_ ?_
    | with_reducible refine State.telJudge_keeps (keeps_sub hk rfl) ?_
    | with_reducible refine Keeps.cond ?_ ?_
    | split
    | intro _

theorem State.subReset_keeps {k : Nat} {r s : State} {i : Nat} (hk : k &&& 524288 = 524288)
    (h : Keeps k r s) : Keeps k r ((s.subReset i)) := by
  unfold State.subReset
  repeat' first
    | with_reducible assumption
    | intro _
    | with_reducible refine Keeps.set_eth (keeps_sub hk rfl) ?_

theorem State.showTele_keeps {k : Nat} {r s : State} (hk : k &&& 0 = 0)
    (h : Keeps k r s) : Keeps k r (s.showTele) := by
  unfold State.showTele
  repeat' first
    | with_reducible assumption
    | with_reducible refine State.wr_keeps (keeps_sub hk rfl) ?_
    | intro _

end Sys2Proof.Machine
end

