-- ==== Sys2Proof/Laws/KeepsFabOps.lean ====
section
/-!
SUPPORT. Laws/KeepsFabOps.lean: what the operations of Machine/FabOps.lean keep (`Keeps`).
-/

namespace Sys2Proof.Machine

theorem RepairMap.tab_wf (m : RepairMap) : tabWf 0xFF#8 m.tab = true := by
  unfold RepairMap.tab
  exact tabWf_tabSetList _ _ _ _ (tabWf_foldl _ _ _ _ (fun t x h => tabWf_tabSetList _ _ _ _ h)
    (tabWf_tabSetList _ _ _ _ (tabWf_tabSetList _ _ _ _ rfl)))

theorem RepairMap.torn_wf (m : RepairMap) : tabWf 0xFF#8 m.torn = true := tabWf_tabSetList _ _ _ _ m.tab_wf

theorem State.showLanes_keeps {k : Nat} {r s : State} {burst : Nat} (hk : k &&& 0 = 0)
    (h : Keeps k r s) : Keeps k r ((s.showLanes burst)) := by
  unfold State.showLanes
  repeat' first
    | with_reducible assumption
    | with_reducible refine State.setFld_keeps (keeps_sub hk rfl) ?_
    | with_reducible refine Keeps.each ?_ ?_
    | intro _

theorem State.showBank_keeps {k : Nat} {r s : State} {p : Nat} (hk : k &&& 0 = 0)
    (h : Keeps k r s) : Keeps k r ((s.showBank p)) := by
  unfold State.showBank
  dsimp only
  repeat' first
    | with_reducible assumption
    | with_reducible refine State.wr_keeps (keeps_sub hk rfl) ?_
    | with_reducible refine Keeps.cond ?_ ?_
    | split
    | intro _

theorem State.mapLive_keeps {k : Nat} {r s : State} (hk : k &&& 3072 = 3072)
    (h : Keeps k r s) : Keeps k r (s.mapLive) := by
  unfold State.mapLive
  dsimp only
  repeat' first
    | with_reducible assumption
    | with_reducible refine State.showBank_keeps (keeps_sub hk rfl) ?_
    | with_reducible refine State.showLanes_keeps (keeps_sub hk rfl) ?_
    | with_reducible refine State.wr_keeps (keeps_sub hk rfl) ?_
    | with_reducible refine Keeps.each ?_ ?_
    | exact fun _ g => by dsimp only [FabState.wf]; exact g.fab
    | exact fun g _ => by dsimp only [FabState.wf]; exact (h.inv g).fab
    | intro _
    | with_reducible refine Keeps.set_dsp_fab (keeps_sub hk rfl) ?_ ?_

theorem State.solveHit_keeps {k : Nat} {r s : State} (hk : k &&& 1024 = 1024)
    (h : Keeps k r s) : Keeps k r (s.solveHit) := by
  unfold State.solveHit
  repeat' first
    | with_reducible assumption
    | with_reducible refine Keeps.cond ?_ ?_
    | split
    | intro _
    | with_reducible refine Keeps.set_dsp (keeps_sub hk rfl) ?_

theorem State.spareOut_keeps {k : Nat} {r s : State} {out : Bool} (hk : k &&& 256 = 256)
    (h : Keeps k r s) : Keeps k r ((s.spareOut out)) := by
  unfold State.spareOut
  repeat' first
    | with_reducible assumption
    | with_reducible refine State.irqFab_keeps (keeps_sub hk rfl) ?_
    | with_reducible refine State.setBit_keeps (keeps_sub hk rfl) ?_
    | with_reducible refine Keeps.only ?_ ?_
    | intro _

theorem State.laneFail_keeps {k : Nat} {r s : State} {n code : Nat} (hk : k &&& 3328 = 3328)
    (h : Keeps k r s) : Keeps k r ((s.laneFail n code)) := by
  unfold State.laneFail
  dsimp only
  repeat' first
    | with_reducible assumption
    | with_reducible refine State.count_keeps (keeps_sub hk rfl) ?_
    | with_reducible refine State.irqFab_keeps (keeps_sub hk rfl) ?_
    | with_reducible refine State.setBit_keeps (keeps_sub hk rfl) ?_
    | with_reducible refine State.setFld_keeps (keeps_sub hk rfl) ?_
    | with_reducible refine State.solveHit_keeps (keeps_sub hk rfl) ?_
    | with_reducible refine State.spareOut_keeps (keeps_sub hk rfl) ?_
    | exact fun _ g => by dsimp only [FabState.wf]; exact g.fab
    | exact fun g _ => by dsimp only [FabState.wf]; exact (h.inv g).fab
    | exact fun _ g => by dsimp only [FabState.wf]; split <;> exact g.fab
    | with_reducible refine Keeps.cond ?_ ?_
    | split
    | intro _
    | with_reducible refine Keeps.set_fab (keeps_sub hk rfl) ?_ ?_

theorem State.bankFail_keeps {k : Nat} {r s : State} {p code : Nat} (hk : k &&& 3328 = 3328)
    (h : Keeps k r s) : Keeps k r ((s.bankFail p code)) := by
  unfold State.bankFail
  dsimp only
  repeat' first
    | with_reducible assumption
    | with_reducible refine State.count_keeps (keeps_sub hk rfl) ?_
    | with_reducible refine State.irqFab_keeps (keeps_sub hk rfl) ?_
    | with_reducible refine State.setBit_keeps (keeps_sub hk rfl) ?_
    | with_reducible refine State.showBank_keeps (keeps_sub hk rfl) ?_
    | with_reducible refine State.solveHit_keeps (keeps_sub hk rfl) ?_
    | with_reducible refine State.spareOut_keeps (keeps_sub hk rfl) ?_
    | exact fun _ g => by dsimp only [FabState.wf]; exact g.fab
    | exact fun g _ => by dsimp only [FabState.wf]; exact (h.inv g).fab
    | exact fun _ g => by dsimp only [FabState.wf]; split <;> exact g.fab
    | with_reducible refine Keeps.cond ?_ ?_
    | split
    | intro _
    | with_reducible refine Keeps.set_fab (keeps_sub hk rfl) ?_ ?_

theorem State.putSpare_keeps {k : Nat} {r s : State} {p i v : Nat} (hk : k &&& 2048 = 2048)
    (h : Keeps k r s) : Keeps k r ((s.putSpare p i v)) := by
  unfold State.putSpare
  dsimp only
  repeat' first
    | with_reducible assumption
    | with_reducible refine State.showBank_keeps (keeps_sub hk rfl) ?_
    | exact fun _ g => by dsimp only [FabState.wf]; exact g.fab
    | exact fun g _ => by dsimp only [FabState.wf]; exact (h.inv g).fab
    | intro _
    | with_reducible refine Keeps.set_fab (keeps_sub hk rfl) ?_ ?_

theorem State.assignSpare_keeps {k : Nat} {r s : State} {p line : Nat} (hk : k &&& 3328 = 3328)
    (h : Keeps k r s) : Keeps k r ((s.assignSpare p line)) := by
  unfold State.assignSpare
  repeat' first
    | with_reducible assumption
    | with_reducible refine State.bankFail_keeps (keeps_sub hk rfl) ?_
    | with_reducible refine State.count_keeps (keeps_sub hk rfl) ?_
    | with_reducible refine State.irqFab_keeps (keeps_sub hk rfl) ?_
    | with_reducible refine State.putSpare_keeps (keeps_sub hk rfl) ?_
    | with_reducible refine State.setBit_keeps (keeps_sub hk rfl) ?_
    | split
    | intro _

theorem State.repairLine_keeps {k : Nat} {r s : State} {p line : Nat} (hk : k &&& 3328 = 3328)
    (h : Keeps k r s) : Keeps k r ((s.repairLine p line)) := by
  unfold State.repairLine
  dsimp only
  repeat' first
    | with_reducible assumption
    | with_reducible refine State.assignSpare_keeps (keeps_sub hk rfl) ?_
    | with_reducible refine State.putSpare_keeps (keeps_sub hk rfl) ?_
    | with_reducible refine Keeps.cond ?_ ?_
    | split
    | intro _

theorem State.putMap_keeps {k : Nat} {r s : State} {t : Tab 8} (hk : k &&& 2048 = 2048)
    (hf : tabWf 0xFF#8 t = true)
    (h : Keeps k r s) : Keeps k r ((s.putMap t)) := by
  unfold State.putMap
  repeat' first
    | with_reducible assumption
    | exact fun _ g => ⟨g.fab.1, hf⟩
    | exact fun _ g => ⟨hf, g.fab.2⟩
    | exact fun _ g => by dsimp only [FabState.wf]; exact g.fab
    | exact fun g _ => by dsimp only [FabState.wf]; exact (h.inv g).fab
    | exact fun _ g => by dsimp only [FabState.wf]; split <;> exact g.fab
    | with_reducible refine Keeps.cond ?_ ?_
    | split
    | intro _
    | with_reducible refine Keeps.set_fab (keeps_sub hk rfl) ?_ ?_

theorem State.mapPages_keeps {k : Nat} {r s : State} {rb : ReadBack} (hk : k &&& 8388864 = 8388864)
    (h : Keeps k r s) : Keeps k r ((s.mapPages rb).1) := by
  unfold State.mapPages
  dsimp only
  repeat' first
    | with_reducible assumption
    | with_reducible refine State.charge_keeps (keeps_sub hk rfl) ?_
    | with_reducible refine State.countN_keeps (keeps_sub hk rfl) ?_
    | with_reducible refine State.nvPage_keeps (keeps_sub hk rfl) ?_
    | with_reducible refine Keeps.cond ?_ ?_
    | split
    | intro _

theorem State.mapWrite_keeps {k : Nat} {r s : State} {rb : ReadBack} (hk : k &&& 8390912 = 8390912)
    (h : Keeps k r s) : Keeps k r ((s.mapWrite rb)) := by
  unfold State.mapWrite
  dsimp only
  repeat' first
    | with_reducible assumption
    | exact RepairMap.tab_wf _
    | exact RepairMap.torn_wf _
    | with_reducible refine State.count_keeps (keeps_sub hk rfl) ?_
    | with_reducible refine State.mapPages_keeps (keeps_sub hk rfl) ?_
    | with_reducible refine State.putMap_keeps (keeps_sub hk rfl) ?_ ?_
    | with_reducible refine State.setBit_keeps (keeps_sub hk rfl) ?_
    | with_reducible refine State.wr_keeps (keeps_sub hk rfl) ?_
    | exact fun _ g => by dsimp only [FabState.wf]; exact g.fab
    | exact fun g _ => by dsimp only [FabState.wf]; exact (h.inv g).fab
    | exact fun _ g => by dsimp only [FabState.wf]; split <;> exact g.fab
    | with_reducible refine Keeps.cond ?_ ?_
    | split
    | intro _
    | with_reducible refine Keeps.set_fab (keeps_sub hk rfl) ?_ ?_

theorem State.laneDrop_keeps {k : Nat} {r s : State} {n : Nat} (hk : k &&& 3328 = 3328)
    (h : Keeps k r s) : Keeps k r ((s.laneDrop n)) := by
  unfold State.laneDrop
  dsimp only
  repeat' first
    | with_reducible assumption
    | with_reducible refine State.count_keeps (keeps_sub hk rfl) ?_
    | with_reducible refine State.laneFail_keeps (keeps_sub hk rfl) ?_
    | with_reducible refine Keeps.only ?_ ?_
    | exact fun _ g => by dsimp only [FabState.wf]; exact g.fab
    | exact fun g _ => by dsimp only [FabState.wf]; exact (h.inv g).fab
    | intro _
    | with_reducible refine Keeps.set_fab (keeps_sub hk rfl) ?_ ?_

theorem State.dramDrop_keeps {k : Nat} {r s : State} (hk : k &&& 2048 = 2048)
    (h : Keeps k r s) : Keeps k r (s.dramDrop) := by
  unfold State.dramDrop
  dsimp only
  repeat' first
    | with_reducible assumption
    | with_reducible refine State.count_keeps (keeps_sub hk rfl) ?_
    | exact fun _ g => by dsimp only [FabState.wf]; exact g.fab
    | exact fun g _ => by dsimp only [FabState.wf]; exact (h.inv g).fab
    | intro _
    | with_reducible refine Keeps.set_fab (keeps_sub hk rfl) ?_ ?_

theorem State.dramFix_keeps {k : Nat} {r s : State} (hk : k &&& 0 = 0)
    (h : Keeps k r s) : Keeps k r (s.dramFix) := by
  unfold State.dramFix
  repeat' first
    | with_reducible assumption
    | with_reducible refine State.count_keeps (keeps_sub hk rfl) ?_
    | intro _

theorem State.commitDrop_keeps {k : Nat} {r s : State} {off : Nat} (hk : k &&& 8 = 8)
    (h : Keeps k r s) : Keeps k r ((s.commitDrop off)) := by
  unfold State.commitDrop
  split
  · rename_i f hf
    refine State.setBit_keeps (keeps_sub hk rfl) (Keeps.set_sett (keeps_sub hk rfl) (fun _ g => ⟨g.sett.1, g.sett.2.1, fresh_wf ?_⟩) h)
    dsimp only
    apply tabWf_tabSetList
    exact g.sett.2.2 f hf
  · exact State.setBit_keeps (keeps_sub hk rfl) h

theorem State.consumerDrop_keeps {k : Nat} {r s : State} {x0 : BlockUse} (hk : k &&& 3336 = 3336)
    (h : Keeps k r s) : Keeps k r ((s.consumerDrop x0)) := by
  unfold State.consumerDrop
  repeat' first
    | with_reducible assumption
    | with_reducible refine State.commitDrop_keeps (keeps_sub hk rfl) ?_
    | with_reducible refine State.count_keeps (keeps_sub hk rfl) ?_
    | with_reducible refine State.dramFix_keeps (keeps_sub hk rfl) ?_
    | with_reducible refine State.repairLine_keeps (keeps_sub hk rfl) ?_
    | with_reducible refine State.setBit_keeps (keeps_sub hk rfl) ?_
    | with_reducible refine State.solveHit_keeps (keeps_sub hk rfl) ?_
    | split
    | intro _
    | with_reducible refine Keeps.set_dsp (keeps_sub hk rfl) ?_

theorem State.blockFails_keeps {k : Nat} {r s : State} {path cls : Nat} {lane : Option Nat} {use : BlockUse} {fails : Nat} (hk : k &&& 8391944 = 8391944)
    (h : Keeps k r s) : Keeps k r ((s.blockFails path cls lane use fails)) := by
  unfold State.blockFails
  dsimp only
  repeat' first
    | with_reducible assumption
    | with_reducible refine State.charge_keeps (keeps_sub hk rfl) ?_
    | with_reducible refine State.consumerDrop_keeps (keeps_sub hk rfl) ?_
    | with_reducible refine State.count_keeps (keeps_sub hk rfl) ?_
    | with_reducible refine State.countN_keeps (keeps_sub hk rfl) ?_
    | with_reducible refine State.dramDrop_keeps (keeps_sub hk rfl) ?_
    | with_reducible refine State.irqFab_keeps (keeps_sub hk rfl) ?_
    | with_reducible refine State.laneDrop_keeps (keeps_sub hk rfl) ?_
    | with_reducible refine State.setBit_keeps (keeps_sub hk rfl) ?_
    | with_reducible refine State.wr_keeps (keeps_sub hk rfl) ?_
    | with_reducible refine Keeps.only ?_ ?_
    | with_reducible refine Keeps.cond ?_ ?_
    | split
    | intro _

theorem State.pathInjRan_keeps {k : Nat} {r s : State} {path : Nat} (hk : k &&& 0 = 0)
    (h : Keeps k r s) : Keeps k r ((s.pathInjRan path)) := by
  unfold State.pathInjRan
  repeat' first
    | with_reducible assumption
    | with_reducible refine State.injRan_keeps (keeps_sub hk rfl) ?_
    | with_reducible refine Keeps.only ?_ ?_
    | intro _

theorem State.blockReceive_keeps {k : Nat} {r s : State} {path cls : Nat} {lane : Option Nat} {use : BlockUse} {got : List Block} (hk : k &&& 8391944 = 8391944)
    (h : Keeps k r s) : Keeps k r ((s.blockReceive path cls lane use got)) := by
  unfold State.blockReceive
  dsimp only
  repeat' first
    | with_reducible assumption
    | with_reducible refine State.blockFails_keeps (keeps_sub hk rfl) ?_
    | with_reducible refine State.charge_keeps (keeps_sub hk rfl) ?_
    | with_reducible refine State.pathInjRan_keeps (keeps_sub hk rfl) ?_
    | split
    | intro _
    | with_reducible refine Keeps.set_used (keeps_sub hk rfl) ?_

theorem State.readDropped_keeps {k : Nat} {r s : State} {path : Nat} (hk : k &&& 8391944 = 8391944)
    (h : Keeps k r s) : Keeps k r ((s.readDropped path)) := by
  unfold State.readDropped
  repeat' first
    | with_reducible assumption
    | with_reducible refine State.blockFails_keeps (keeps_sub hk rfl) ?_
    | intro _

theorem State.laneCheck_keeps {k : Nat} {r s : State} {ok : Bool} (hk : k &&& 3328 = 3328)
    (h : Keeps k r s) : Keeps k r ((s.laneCheck ok)) := by
  unfold State.laneCheck
  dsimp only
  repeat' first
    | with_reducible assumption
    | with_reducible refine State.count_keeps (keeps_sub hk rfl) ?_
    | with_reducible refine State.injRan_keeps (keeps_sub hk rfl) ?_
    | with_reducible refine State.laneFail_keeps (keeps_sub hk rfl) ?_
    | with_reducible refine Keeps.only ?_ ?_
    | exact fun _ g => by dsimp only [FabState.wf]; exact g.fab
    | exact fun g _ => by dsimp only [FabState.wf]; exact (h.inv g).fab
    | exact fun _ g => by dsimp only [FabState.wf]; split <;> exact g.fab
    | with_reducible refine Keeps.cond ?_ ?_
    | split
    | intro _
    | with_reducible refine Keeps.set_fab (keeps_sub hk rfl) ?_ ?_

theorem State.scrubFirst_keeps {k : Nat} {r s : State} {bad : Bool} (hk : k &&& 8391944 = 8391944)
    (h : Keeps k r s) : Keeps k r ((s.scrubFirst bad).1) := by
  unfold State.scrubFirst
  dsimp only
  repeat' first
    | with_reducible assumption
    | with_reducible refine State.blockFails_keeps (keeps_sub hk rfl) ?_
    | with_reducible refine State.pathInjRan_keeps (keeps_sub hk rfl) ?_
    | intro _

theorem State.scrubFill_keeps {k : Nat} {r s : State} {g : Nat} (hk : k &&& 1024 = 1024)
    (h : Keeps k r s) : Keeps k r ((s.scrubFill g)) := by
  unfold State.scrubFill
  dsimp only
  repeat' first
    | with_reducible assumption
    | intro _
    | with_reducible refine Keeps.set_dsp (keeps_sub hk rfl) ?_

theorem State.scrubEnd_keeps {k : Nat} {r s : State} {bad : List Nat} (hk : k &&& 8391948 = 8391948)
    (h : Keeps k r s) : Keeps k r ((s.scrubEnd bad)) := by
  unfold State.scrubEnd
  dsimp only
  repeat' first
    | with_reducible assumption
    | with_reducible refine State.batonRelease_keeps (keeps_sub hk rfl) ?_
    | with_reducible refine State.charge_keeps (keeps_sub hk rfl) ?_
    | with_reducible refine State.count_keeps (keeps_sub hk rfl) ?_
    | with_reducible refine State.injRan_keeps (keeps_sub hk rfl) ?_
    | with_reducible refine State.readDropped_keeps (keeps_sub hk rfl) ?_
    | with_reducible refine State.repairLine_keeps (keeps_sub hk rfl) ?_
    | with_reducible refine State.scrubFill_keeps (keeps_sub hk rfl) ?_
    | with_reducible refine State.scrubFirst_keeps (keeps_sub hk rfl) ?_
    | with_reducible refine State.wr_keeps (keeps_sub hk rfl) ?_
    | with_reducible refine Keeps.only ?_ ?_
    | with_reducible refine Keeps.each ?_ ?_
    | exact fun _ g => by dsimp only [FabState.wf]; exact g.fab
    | exact fun g _ => by dsimp only [FabState.wf]; exact (h.inv g).fab
    | exact fun _ g => by dsimp only [FabState.wf]; split <;> exact g.fab
    | with_reducible refine Keeps.cond ?_ ?_
    | split
    | intro _
    | with_reducible refine Keeps.set_fab (keeps_sub hk rfl) ?_ ?_

theorem State.scrubSegment_keeps {k : Nat} {r s : State} {bad : List Nat} (hk : k &&& 8391948 = 8391948)
    (h : Keeps k r s) : Keeps k r ((s.scrubSegment bad)) := by
  unfold State.scrubSegment
  repeat' first
    | with_reducible assumption
    | with_reducible refine State.batonRequest_keeps (keeps_sub hk rfl) ?_
    | with_reducible refine State.scrubEnd_keeps (keeps_sub hk rfl) ?_
    | with_reducible refine State.setBit_keeps (keeps_sub hk rfl) ?_
    | with_reducible refine Keeps.cond ?_ ?_
    | split
    | intro _

theorem State.scrubCtrl_keeps {k : Nat} {r s : State} {v : Word} (hk : k &&& 4 = 4)
    (h : Keeps k r s) : Keeps k r ((s.scrubCtrl v)) := by
  unfold State.scrubCtrl
  repeat' first
    | with_reducible assumption
    | with_reducible refine State.batonCancel_keeps (keeps_sub hk rfl) ?_
    | with_reducible refine State.batonRelease_keeps (keeps_sub hk rfl) ?_
    | with_reducible refine State.plainWrite_keeps (keeps_sub hk rfl) ?_
    | with_reducible refine Keeps.only ?_ ?_
    | intro _

theorem State.scrubStop_keeps {k : Nat} {r s : State} (hk : k &&& 2052 = 2052)
    (h : Keeps k r s) : Keeps k r (s.scrubStop) := by
  unfold State.scrubStop
  dsimp only
  repeat' first
    | with_reducible assumption
    | with_reducible refine State.batonCancel_keeps (keeps_sub hk rfl) ?_
    | with_reducible refine State.batonRelease_keeps (keeps_sub hk rfl) ?_
    | with_reducible refine State.count_keeps (keeps_sub hk rfl) ?_
    | with_reducible refine Keeps.only ?_ ?_
    | exact fun _ g => by dsimp only [FabState.wf]; exact g.fab
    | exact fun g _ => by dsimp only [FabState.wf]; exact (h.inv g).fab
    | exact fun _ g => by dsimp only [FabState.wf]; split <;> exact g.fab
    | with_reducible refine Keeps.cond ?_ ?_
    | split
    | intro _
    | with_reducible refine Keeps.set_fab (keeps_sub hk rfl) ?_ ?_

theorem State.dramRetrain_keeps {k : Nat} {r s : State} (hk : k &&& 2052 = 2052)
    (h : Keeps k r s) : Keeps k r (s.dramRetrain) := by
  unfold State.dramRetrain
  dsimp only
  repeat' first
    | with_reducible assumption
    | with_reducible refine State.batonRelease_keeps (keeps_sub hk rfl) ?_
    | with_reducible refine State.batonRequest_keeps (keeps_sub hk rfl) ?_
    | with_reducible refine State.count_keeps (keeps_sub hk rfl) ?_
    | exact fun _ g => by dsimp only [FabState.wf]; exact g.fab
    | exact fun g _ => by dsimp only [FabState.wf]; exact (h.inv g).fab
    | exact fun _ g => by dsimp only [FabState.wf]; split <;> exact g.fab
    | with_reducible refine Keeps.cond ?_ ?_
    | split
    | intro _
    | with_reducible refine Keeps.set_fab (keeps_sub hk rfl) ?_ ?_

theorem State.mapStart_keeps {k : Nat} {r s : State} (hk : k &&& 3072 = 3072)
    (h : Keeps k r s) : Keeps k r (s.mapStart) := by
  unfold State.mapStart
  dsimp only
  repeat' first
    | with_reducible assumption
    | with_reducible refine State.mapLive_keeps (keeps_sub hk rfl) ?_
    | with_reducible refine State.setBit_keeps (keeps_sub hk rfl) ?_
    | with_reducible refine State.wr_keeps (keeps_sub hk rfl) ?_
    | with_reducible refine Keeps.only ?_ ?_
    | exact fun _ g => by dsimp only [FabState.wf]; exact g.fab
    | exact fun g _ => by dsimp only [FabState.wf]; exact (h.inv g).fab
    | exact fun _ g => by dsimp only [FabState.wf]; split <;> exact g.fab
    | with_reducible refine Keeps.cond ?_ ?_
    | split
    | intro _
    | with_reducible refine Keeps.set_fab (keeps_sub hk rfl) ?_ ?_

theorem State.startTests_keeps {k : Nat} {r s : State} {lanes banks : List Nat} {lines : List (Nat × Nat)} (hk : k &&& 3328 = 3328)
    (h : Keeps k r s) : Keeps k r ((s.startTests lanes banks lines)) := by
  unfold State.startTests
  dsimp only
  repeat' first
    | with_reducible assumption
    | with_reducible refine State.bankFail_keeps (keeps_sub hk rfl) ?_
    | with_reducible refine State.laneFail_keeps (keeps_sub hk rfl) ?_
    | with_reducible refine State.repairLine_keeps (keeps_sub hk rfl) ?_
    | with_reducible refine Keeps.each ?_ ?_
    | intro _

end Sys2Proof.Machine
end

