-- ==== Sys2Proof/Laws/KeepsKeyOps.lean ====
section
/-!
SUPPORT. Laws/KeepsKeyOps.lean: what the operations of Machine/KeyOps.lean keep (`Keeps`).
-/

namespace Sys2Proof.Machine

theorem State.putKeySlot_keeps {k : Nat} {r s : State} {k' : Nat} {x : KeySlot} (hk : k &&& 4096 = 4096)
    (h : Keeps k r s) : Keeps k r ((s.putKeySlot k' x)) := by
  unfold State.putKeySlot
  dsimp only
  repeat' first
    | with_reducible assumption
    | with_reducible refine Keeps.cond ?_ ?_
    | split
    | intro _
    | with_reducible refine Keeps.set_key (keeps_sub hk rfl) ?_

theorem State.clearUpdBuffer_keeps {k : Nat} {r s : State} (hk : k &&& 0 = 0)
    (h : Keeps k r s) : Keeps k r (s.clearUpdBuffer) := by
  unfold State.clearUpdBuffer
  repeat' first
    | with_reducible assumption
    | with_reducible refine State.wr_keeps (keeps_sub hk rfl) ?_
    | with_reducible refine Keeps.each ?_ ?_
    | intro _

theorem State.tagChecked_keeps {k : Nat} {r s : State} {code : Nat} (hk : k &&& 0 = 0)
    (h : Keeps k r s) : Keeps k r ((s.tagChecked code)) := by
  unfold State.tagChecked
  repeat' first
    | with_reducible assumption
    | with_reducible refine State.injRan_keeps (keeps_sub hk rfl) ?_
    | with_reducible refine Keeps.cond ?_ ?_
    | split
    | intro _

theorem State.keyStat_keeps {k : Nat} {r s : State} {code : Nat} {busy : Bool} (hk : k &&& 0 = 0)
    (h : Keeps k r s) : Keeps k r ((s.keyStat code busy)) := by
  unfold State.keyStat
  repeat' first
    | with_reducible assumption
    | with_reducible refine State.setBit_keeps (keeps_sub hk rfl) ?_
    | with_reducible refine State.setFld_keeps (keeps_sub hk rfl) ?_
    | intro _

theorem State.keyExec_keeps {k : Nat} {r s : State} (hk : k &&& 4512 = 4512)
    (h : Keeps k r s) : Keeps k r (s.keyExec) := by
  unfold State.keyExec
  dsimp only
  repeat' first
    | with_reducible assumption
    | with_reducible refine State.clearUpdBuffer_keeps (keeps_sub hk rfl) ?_
    | with_reducible refine State.count_keeps (keeps_sub hk rfl) ?_
    | with_reducible refine State.irqKey_keeps (keeps_sub hk rfl) ?_
    | with_reducible refine State.keyStat_keeps (keeps_sub hk rfl) ?_
    | with_reducible refine State.raiseEv_keeps (keeps_sub hk rfl) ?_
    | with_reducible refine State.setBit_keeps (keeps_sub hk rfl) ?_
    | with_reducible refine State.setFld_keeps (keeps_sub hk rfl) ?_
    | with_reducible refine State.tagChecked_keeps (keeps_sub hk rfl) ?_
    | exact fun _ g => by dsimp only [NvState.wf]; exact g.nv
    | exact fun g _ => by dsimp only [NvState.wf]; exact (h.inv g).nv
    | exact fun _ g => by dsimp only [NvState.wf]; split <;> exact g.nv
    | with_reducible refine Keeps.cond ?_ ?_
    | split
    | intro _
    | with_reducible refine Keeps.set_key_nv (keeps_sub hk rfl) ?_ ?_

theorem State.keyCounted_keeps {k : Nat} {r s : State} (hk : k &&& 4096 = 4096)
    (h : Keeps k r s) : Keeps k r (s.keyCounted) := by
  unfold State.keyCounted
  repeat' first
    | with_reducible assumption
    | split
    | intro _
    | with_reducible refine Keeps.set_key (keeps_sub hk rfl) ?_

theorem State.keyCopy_keeps {k : Nat} {r s : State} {rb : ReadBack} (hk : k &&& 8392960 = 8392960)
    (h : Keeps k r s) : Keeps k r ((s.keyCopy rb)) := by
  unfold State.keyCopy
  dsimp only
  repeat' first
    | with_reducible assumption
    | with_reducible refine State.injRan_keeps (keeps_sub hk rfl) ?_
    | with_reducible refine State.keyStat_keeps (keeps_sub hk rfl) ?_
    | with_reducible refine State.nvPage_keeps (keeps_sub hk rfl) ?_
    | with_reducible refine State.putKeySlot_keeps (keeps_sub hk rfl) ?_
    | with_reducible refine State.setBit_keeps (keeps_sub hk rfl) ?_
    | with_reducible refine Keeps.cond ?_ ?_
    | split
    | intro _
    | with_reducible refine Keeps.set_key (keeps_sub hk rfl) ?_

theorem State.keyCommit_keeps {k : Nat} {r s : State} (hk : k &&& 4352 = 4352)
    (h : Keeps k r s) : Keeps k r (s.keyCommit) := by
  unfold State.keyCommit
  dsimp only
  repeat' first
    | with_reducible assumption
    | with_reducible refine State.count_keeps (keeps_sub hk rfl) ?_
    | with_reducible refine State.irqKey_keeps (keeps_sub hk rfl) ?_
    | with_reducible refine State.keyStat_keeps (keeps_sub hk rfl) ?_
    | with_reducible refine State.putKeySlot_keeps (keeps_sub hk rfl) ?_
    | with_reducible refine Keeps.cond ?_ ?_
    | split
    | intro _
    | with_reducible refine Keeps.set_key (keeps_sub hk rfl) ?_

theorem State.loadSlot_keeps {k : Nat} {r s : State} {k' : Nat} (hk : k &&& 4480 = 4480)
    (h : Keeps k r s) : Keeps k r ((s.loadSlot k')) := by
  unfold State.loadSlot
  dsimp only
  repeat' first
    | with_reducible assumption
    | with_reducible refine State.putKeySlot_keeps (keeps_sub hk rfl) ?_
    | with_reducible refine State.raiseEv_keeps (keeps_sub hk rfl) ?_
    | with_reducible refine State.setBit_keeps (keeps_sub hk rfl) ?_
    | split
    | intro _

theorem State.loadKeys_keeps {k : Nat} {r s : State} (hk : k &&& 4480 = 4480)
    (h : Keeps k r s) : Keeps k r (s.loadKeys) := by
  unfold State.loadKeys
  repeat' first
    | with_reducible assumption
    | with_reducible refine State.loadSlot_keeps (keeps_sub hk rfl) ?_
    | with_reducible refine Keeps.each ?_ ?_
    | intro _

end Sys2Proof.Machine
end

