-- ==== Sys2Proof/Laws/KeepsNvsOps.lean ====
section
/-!
SUPPORT. Laws/KeepsNvsOps.lean: what the operations of Machine/NvsOps.lean keep (`Keeps`).
-/

namespace Sys2Proof.Machine

theorem State.nvRefused_keeps {k : Nat} {r s : State} (hk : k &&& 0 = 0)
    (h : Keeps k r s) : Keeps k r (s.nvRefused) := by
  unfold State.nvRefused
  repeat' first
    | with_reducible assumption
    | with_reducible refine State.count_keeps (keeps_sub hk rfl) ?_
    | with_reducible refine State.setBit_keeps (keeps_sub hk rfl) ?_
    | intro _

theorem State.putUserUnit_keeps {k : Nat} {r s : State} {o : Nat} {b : List Byte} (hk : k &&& 8224 = 8224)
    (h : Keeps k r s) : Keeps k r ((s.putUserUnit o b)) := by
  have h1 : ∀ raw : List Byte, Keeps k r { s with nv := { s.nv with user := tabSetList 0#8 s.nv.user o raw } } := fun raw => by
    refine Keeps.set_nv (keeps_sub hk rfl) (fun _ g => ?_) h
    dsimp only [NvState.wf]
    exact ⟨g.nv.1, g.nv.2.1, tabWf_tabSetList _ _ _ _ g.nv.2.2.1, g.nv.2.2.2⟩
  exact Keeps.cond (Keeps.set_pair (keeps_sub hk rfl) (h1 _)) (h1 _)

theorem State.putUserWord_keeps {k : Nat} {r s : State} {x : Nat} {v : Word} (hk : k &&& 8224 = 8224)
    (h : Keeps k r s) : Keeps k r ((s.putUserWord x v)) := by
  unfold State.putUserWord
  dsimp only
  repeat' first
    | with_reducible assumption
    | with_reducible refine State.putUserUnit_keeps (keeps_sub hk rfl) ?_
    | intro _

theorem State.putPwFail_keeps {k : Nat} {r s : State} {f : PwFail} (hk : k &&& 32 = 32)
    (h : Keeps k r s) : Keeps k r ((s.putPwFail f)) := by
  unfold State.putPwFail
  repeat' first
    | with_reducible assumption
    | exact fun _ g => by dsimp only [NvState.wf]; exact g.nv
    | exact fun g _ => by dsimp only [NvState.wf]; exact (h.inv g).nv
    | intro _
    | with_reducible refine Keeps.set_nv (keeps_sub hk rfl) ?_ ?_

theorem State.clearUnlock_keeps {k : Nat} {r s : State} (hk : k &&& 0 = 0)
    (h : Keeps k r s) : Keeps k r (s.clearUnlock) := by
  unfold State.clearUnlock
  repeat' first
    | with_reducible assumption
    | with_reducible refine State.wr_keeps (keeps_sub hk rfl) ?_
    | intro _

theorem State.pwWrong_keeps {k : Nat} {r s : State} {slot r' : Nat} {isWrite : Bool} (hk : k &&& 416 = 416)
    (h : Keeps k r s) : Keeps k r ((s.pwWrong slot r' isWrite)) := by
  unfold State.pwWrong
  dsimp only
  repeat' first
    | with_reducible assumption
    | with_reducible refine State.count_keeps (keeps_sub hk rfl) ?_
    | with_reducible refine State.irqNvs_keeps (keeps_sub hk rfl) ?_
    | with_reducible refine State.putPwFail_keeps (keeps_sub hk rfl) ?_
    | with_reducible refine State.raiseEv_keeps (keeps_sub hk rfl) ?_
    | with_reducible refine State.setBit_keeps (keeps_sub hk rfl) ?_
    | with_reducible refine Keeps.cond ?_ ?_
    | split
    | intro _

theorem State.pwLockoutEnd_keeps {k : Nat} {r s : State} {r' : Nat} (hk : k &&& 32 = 32)
    (h : Keeps k r s) : Keeps k r ((s.pwLockoutEnd r')) := by
  unfold State.pwLockoutEnd
  repeat' first
    | with_reducible assumption
    | with_reducible refine State.count_keeps (keeps_sub hk rfl) ?_
    | with_reducible refine State.putPwFail_keeps (keeps_sub hk rfl) ?_
    | with_reducible refine Keeps.cond ?_ ?_
    | split
    | intro _

theorem State.unlockGain_keeps {k : Nat} {r s : State} {slot r' : Nat} {isWrite : Bool} (hk : k &&& 0 = 0)
    (h : Keeps k r s) : Keeps k r ((s.unlockGain slot r' isWrite)) := by
  unfold State.unlockGain
  repeat' first
    | with_reducible assumption
    | with_reducible refine State.setBit_keeps (keeps_sub hk rfl) ?_
    | with_reducible refine Keeps.cond ?_ ?_
    | split
    | intro _

theorem State.unlockDrop_keeps {k : Nat} {r s : State} {slot : Nat} (hk : k &&& 0 = 0)
    (h : Keeps k r s) : Keeps k r ((s.unlockDrop slot)) := by
  unfold State.unlockDrop
  repeat' first
    | with_reducible assumption
    | with_reducible refine State.setBit_keeps (keeps_sub hk rfl) ?_
    | with_reducible refine Keeps.each ?_ ?_
    | intro _

theorem State.pwsetBegin_keeps {k : Nat} {r s : State} {r' : Nat} {isWrite clear : Bool} (hk : k &&& 32 = 32)
    (h : Keeps k r s) : Keeps k r ((s.pwsetBegin r' isWrite clear)) := by
  unfold State.pwsetBegin
  dsimp only
  repeat' first
    | with_reducible assumption
    | exact fun _ g => by dsimp only [NvState.wf]; exact g.nv
    | exact fun g _ => by dsimp only [NvState.wf]; exact (h.inv g).nv
    | exact fun _ g => by dsimp only [NvState.wf]; split <;> exact g.nv
    | with_reducible refine Keeps.cond ?_ ?_
    | split
    | intro _
    | with_reducible refine Keeps.set_nv (keeps_sub hk rfl) ?_ ?_

theorem State.pwInForce_keeps {k : Nat} {r s : State} {j : PwJob} (hk : k &&& 32 = 32)
    (h : Keeps k r s) : Keeps k r ((s.pwInForce j)) := by
  unfold State.pwInForce
  dsimp only
  repeat' first
    | with_reducible assumption
    | with_reducible refine State.setBit_keeps (keeps_sub hk rfl) ?_
    | with_reducible refine State.wr_keeps (keeps_sub hk rfl) ?_
    | exact fun _ g => by dsimp only [NvState.wf]; exact g.nv
    | exact fun g _ => by dsimp only [NvState.wf]; exact (h.inv g).nv
    | exact fun _ g => by dsimp only [NvState.wf]; split <;> exact g.nv
    | with_reducible refine Keeps.cond ?_ ?_
    | split
    | intro _
    | with_reducible refine Keeps.set_nv (keeps_sub hk rfl) ?_ ?_

theorem State.pwCopy_keeps {k : Nat} {r s : State} {rb : ReadBack} (hk : k &&& 8388896 = 8388896)
    (h : Keeps k r s) : Keeps k r ((s.pwCopy rb)) := by
  unfold State.pwCopy
  dsimp only
  repeat' first
    | with_reducible assumption
    | with_reducible refine State.nvFails_keeps (keeps_sub hk rfl) ?_
    | with_reducible refine State.nvPage_keeps (keeps_sub hk rfl) ?_
    | with_reducible refine State.pwInForce_keeps (keeps_sub hk rfl) ?_
    | exact fun _ g => by dsimp only [NvState.wf]; exact g.nv
    | exact fun g _ => by dsimp only [NvState.wf]; exact (h.inv g).nv
    | exact fun _ g => by dsimp only [NvState.wf]; split <;> exact g.nv
    | with_reducible refine Keeps.cond ?_ ?_
    | split
    | intro _
    | with_reducible refine Keeps.set_nv (keeps_sub hk rfl) ?_ ?_

theorem State.cryptSet_keeps {k : Nat} {r s : State} {r' : Nat} {on : Bool} (hk : k &&& 8224 = 8224)
    (h : Keeps k r s) : Keeps k r ((s.cryptSet r' on)) := by
  unfold State.cryptSet
  repeat' first
    | with_reducible assumption
    | with_reducible refine State.putUserUnit_keeps (keeps_sub hk rfl) ?_
    | with_reducible refine State.setBit_keeps (keeps_sub hk rfl) ?_
    | with_reducible refine Keeps.each ?_ ?_
    | with_reducible refine Keeps.cond ?_ ?_
    | split
    | intro _

theorem State.putHead_keeps {k : Nat} {r s : State} {toB : Bool} {h' : WarmHeader} (hk : k &&& 32 = 32)
    (h : Keeps k r s) : Keeps k r ((s.putHead toB h')) := by
  unfold State.putHead
  repeat' first
    | with_reducible assumption
    | exact fun _ g => by dsimp only [NvState.wf]; exact g.nv
    | exact fun g _ => by dsimp only [NvState.wf]; exact (h.inv g).nv
    | exact fun _ g => by dsimp only [NvState.wf]; split <;> exact g.nv
    | with_reducible refine Keeps.cond ?_ ?_
    | split
    | intro _
    | with_reducible refine Keeps.set_nv (keeps_sub hk rfl) ?_ ?_

theorem State.storeHeader_keeps {k : Nat} {r s : State} (hk : k &&& 8388896 = 8388896)
    (h : Keeps k r s) : Keeps k r (s.storeHeader) := by
  unfold State.storeHeader
  dsimp only
  repeat' first
    | with_reducible assumption
    | with_reducible refine State.nvPage_keeps (keeps_sub hk rfl) ?_
    | with_reducible refine State.putHead_keeps (keeps_sub hk rfl) ?_
    | exact fun _ g => by dsimp only [NvState.wf]; exact g.nv
    | exact fun g _ => by dsimp only [NvState.wf]; exact (h.inv g).nv
    | exact fun _ g => by dsimp only [NvState.wf]; split <;> exact g.nv
    | split
    | intro _
    | with_reducible refine Keeps.set_nv (keeps_sub hk rfl) ?_ ?_

theorem State.storeGranted_keeps {k : Nat} {r s : State} (hk : k &&& 8388896 = 8388896)
    (h : Keeps k r s) : Keeps k r (s.storeGranted) := by
  unfold State.storeGranted
  repeat' first
    | with_reducible assumption
    | with_reducible refine State.storeHeader_keeps (keeps_sub hk rfl) ?_
    | with_reducible refine Keeps.cond ?_ ?_
    | split
    | intro _

theorem State.storeCells_keeps {k : Nat} {r s : State} {p : Nat} (hk : k &&& 32 = 32)
    (h : Keeps k r s) : Keeps k r ((s.storeCells p)) := by
  refine Keeps.set_nv (keeps_sub hk rfl) (fun _ g => ?_) h
  dsimp only [NvState.wf]
  exact ⟨tabWf_tabSetList _ _ _ _ g.nv.1, g.nv.2⟩

theorem State.storeStep_keeps {k : Nat} {r s : State} {rb : ReadBack} (hk : k &&& 8388900 = 8388900)
    (h : Keeps k r s) : Keeps k r ((s.storeStep rb)) := by
  unfold State.storeStep
  dsimp only
  repeat' first
    | with_reducible assumption
    | with_reducible refine State.batonRelease_keeps (keeps_sub hk rfl) ?_
    | with_reducible refine State.batonRequest_keeps (keeps_sub hk rfl) ?_
    | with_reducible refine State.count_keeps (keeps_sub hk rfl) ?_
    | with_reducible refine State.nvFails_keeps (keeps_sub hk rfl) ?_
    | with_reducible refine State.nvPage_keeps (keeps_sub hk rfl) ?_
    | with_reducible refine State.storeCells_keeps (keeps_sub hk rfl) ?_
    | exact fun _ g => by dsimp only [NvState.wf]; exact g.nv
    | exact fun g _ => by dsimp only [NvState.wf]; exact (h.inv g).nv
    | exact fun _ g => by dsimp only [NvState.wf]; split <;> exact g.nv
    | with_reducible refine Keeps.cond ?_ ?_
    | split
    | intro _
    | with_reducible refine Keeps.set_nv (keeps_sub hk rfl) ?_ ?_

theorem State.storeComplete_keeps {k : Nat} {r s : State} {toB : Bool} {seq : Word} (hk : k &&& 32 = 32)
    (h : Keeps k r s) : Keeps k r ((s.storeComplete toB seq)) := by
  unfold State.storeComplete
  dsimp only
  repeat' first
    | with_reducible assumption
    | with_reducible refine State.injRan_keeps (keeps_sub hk rfl) ?_
    | with_reducible refine State.putHead_keeps (keeps_sub hk rfl) ?_
    | with_reducible refine Keeps.cond ?_ ?_
    | split
    | intro _

theorem State.storeEnd_keeps {k : Nat} {r s : State} {rb : ReadBack} (hk : k &&& 8388900 = 8388900)
    (h : Keeps k r s) : Keeps k r ((s.storeEnd rb)) := by
  unfold State.storeEnd
  dsimp only
  repeat' first
    | with_reducible assumption
    | with_reducible refine State.batonCancel_keeps (keeps_sub hk rfl) ?_
    | with_reducible refine State.batonRelease_keeps (keeps_sub hk rfl) ?_
    | with_reducible refine State.count_keeps (keeps_sub hk rfl) ?_
    | with_reducible refine State.irqNvs_keeps (keeps_sub hk rfl) ?_
    | with_reducible refine State.nvFails_keeps (keeps_sub hk rfl) ?_
    | with_reducible refine State.nvPage_keeps (keeps_sub hk rfl) ?_
    | with_reducible refine State.storeComplete_keeps (keeps_sub hk rfl) ?_
    | exact fun _ g => by dsimp only [NvState.wf]; exact g.nv
    | exact fun g _ => by dsimp only [NvState.wf]; exact (h.inv g).nv
    | exact fun _ g => by dsimp only [NvState.wf]; split <;> exact g.nv
    | with_reducible refine Keeps.cond ?_ ?_
    | split
    | intro _
    | with_reducible refine Keeps.set_nv (keeps_sub hk rfl) ?_ ?_

theorem State.warmStore_keeps {k : Nat} {r s : State} (hk : k &&& 8388896 = 8388896)
    (h : Keeps k r s) : Keeps k r (s.warmStore) := by
  unfold State.warmStore
  dsimp only
  repeat' first
    | with_reducible assumption
    | with_reducible refine State.setBit_keeps (keeps_sub hk rfl) ?_
    | with_reducible refine State.storeCells_keeps (keeps_sub hk rfl) ?_
    | with_reducible refine State.storeComplete_keeps (keeps_sub hk rfl) ?_
    | with_reducible refine State.storeHeader_keeps (keeps_sub hk rfl) ?_
    | with_reducible refine Keeps.each ?_ ?_
    | exact fun _ g => by dsimp only [NvState.wf]; exact g.nv
    | exact fun g _ => by dsimp only [NvState.wf]; exact (h.inv g).nv
    | exact fun _ g => by dsimp only [NvState.wf]; split <;> exact g.nv
    | split
    | intro _
    | with_reducible refine Keeps.set_nv (keeps_sub hk rfl) ?_ ?_

theorem State.warmLoad_keeps {k : Nat} {r s : State} (hk : k &&& 32 = 32)
    (h : Keeps k r s) : Keeps k r (s.warmLoad) := by
  unfold State.warmLoad
  dsimp only
  repeat' first
    | with_reducible assumption
    | exact fun _ g => ⟨g.nv.1, g.nv.1, g.nv.2.2⟩
    | with_reducible refine State.setBit_keeps (keeps_sub hk rfl) ?_
    | with_reducible refine Keeps.only ?_ ?_
    | exact fun _ g => by dsimp only [NvState.wf]; exact g.nv
    | exact fun g _ => by dsimp only [NvState.wf]; exact (h.inv g).nv
    | exact fun _ g => by dsimp only [NvState.wf]; split <;> exact g.nv
    | split
    | intro _
    | with_reducible refine Keeps.set_nv (keeps_sub hk rfl) ?_ ?_

theorem State.repairBases_keeps {k : Nat} {r s : State} {t : Nat} (hk : k &&& 8388896 = 8388896)
    (h : Keeps k r s) : Keeps k r ((s.repairBases t)) := by
  unfold State.repairBases
  dsimp only
  repeat' first
    | with_reducible assumption
    | with_reducible refine State.foldTally_keeps (keeps_sub hk rfl) ?_
    | with_reducible refine State.putTally_keeps (keeps_sub hk rfl) ?_
    | with_reducible refine Keeps.only ?_ ?_
    | intro _

theorem State.deriveTally_keeps {k : Nat} {r s : State} {t : Nat} (hk : k &&& 8389024 = 8389024)
    (h : Keeps k r s) : Keeps k r ((s.deriveTally t)) := by
  unfold State.deriveTally
  dsimp only
  repeat' first
    | with_reducible assumption
    | with_reducible refine State.count_keeps (keeps_sub hk rfl) ?_
    | with_reducible refine State.putTally_keeps (keeps_sub hk rfl) ?_
    | with_reducible refine State.raiseEv_keeps (keeps_sub hk rfl) ?_
    | with_reducible refine State.repairBases_keeps (keeps_sub hk rfl) ?_
    | with_reducible refine State.setBit_keeps (keeps_sub hk rfl) ?_
    | with_reducible refine Keeps.only ?_ ?_
    | with_reducible refine Keeps.cond ?_ ?_
    | split
    | intro _

theorem State.deriveTallies_keeps {k : Nat} {r s : State} (hk : k &&& 8389024 = 8389024)
    (h : Keeps k r s) : Keeps k r (s.deriveTallies) := by
  unfold State.deriveTallies
  repeat' first
    | with_reducible assumption
    | with_reducible refine State.deriveTally_keeps (keeps_sub hk rfl) ?_
    | with_reducible refine Keeps.each ?_ ?_
    | intro _

theorem State.tallyAsk_keeps {k : Nat} {r s : State} {t : Nat} {fw : Bool} (hk : k &&& 32 = 32)
    (h : Keeps k r s) : Keeps k r ((s.tallyAsk t fw)) := by
  unfold State.tallyAsk
  repeat' first
    | with_reducible assumption
    | exact fun _ g => by dsimp only [NvState.wf]; exact g.nv
    | exact fun g _ => by dsimp only [NvState.wf]; exact (h.inv g).nv
    | exact fun _ g => by dsimp only [NvState.wf]; split <;> exact g.nv
    | with_reducible refine Keeps.cond ?_ ?_
    | split
    | intro _
    | with_reducible refine Keeps.set_nv (keeps_sub hk rfl) ?_ ?_

theorem State.tallyTaken_keeps {k : Nat} {r s : State} {j : Nat × Bool} (hk : k &&& 32 = 32)
    (h : Keeps k r s) : Keeps k r ((s.tallyTaken j)) := by
  unfold State.tallyTaken
  repeat' first
    | with_reducible assumption
    | exact fun _ g => by dsimp only [NvState.wf]; exact g.nv
    | exact fun g _ => by dsimp only [NvState.wf]; exact (h.inv g).nv
    | intro _
    | with_reducible refine Keeps.set_nv (keeps_sub hk rfl) ?_ ?_

theorem State.tallyReport_keeps {k : Nat} {r s : State} {ok : Bool} (hk : k &&& 256 = 256)
    (h : Keeps k r s) : Keeps k r ((s.tallyReport ok)) := by
  unfold State.tallyReport
  repeat' first
    | with_reducible assumption
    | with_reducible refine State.irqNvs_keeps (keeps_sub hk rfl) ?_
    | with_reducible refine State.setBit_keeps (keeps_sub hk rfl) ?_
    | with_reducible refine State.setFld_keeps (keeps_sub hk rfl) ?_
    | with_reducible refine Keeps.cond ?_ ?_
    | split
    | intro _

theorem State.tallyDone_keeps {k : Nat} {r s : State} {t : Nat} (hk : k &&& 4144 = 4144)
    (h : Keeps k r s) : Keeps k r ((s.tallyDone t)) := by
  unfold State.tallyDone
  repeat' first
    | with_reducible assumption
    | with_reducible refine State.keyCounted_keeps (keeps_sub hk rfl) ?_
    | with_reducible refine State.tallyAsk_keeps (keeps_sub hk rfl) ?_
    | exact fun _ g => by dsimp only [ImgState.wf]; exact g.img
    | exact fun g _ => by dsimp only [ImgState.wf]; exact (h.inv g).img
    | exact fun _ g => by dsimp only [ImgState.wf]; split <;> exact g.img
    | with_reducible refine Keeps.cond ?_ ?_
    | split
    | intro _
    | with_reducible refine Keeps.set_img (keeps_sub hk rfl) ?_ ?_

theorem State.incrementDone_keeps {k : Nat} {r s : State} {t : Nat} {rb fold : ReadBack} (hk : k &&& 8393008 = 8393008)
    (h : Keeps k r s) : Keeps k r ((s.incrementDone t rb fold)) := by
  unfold State.incrementDone
  dsimp only
  repeat' first
    | with_reducible assumption
    | with_reducible refine State.nvFails_keeps (keeps_sub hk rfl) ?_
    | with_reducible refine State.tallyDone_keeps (keeps_sub hk rfl) ?_
    | with_reducible refine State.tallyReport_keeps (keeps_sub hk rfl) ?_
    | with_reducible refine State.tallyTaken_keeps (keeps_sub hk rfl) ?_
    | with_reducible refine State.writeTallyCell_keeps (keeps_sub hk rfl) ?_
    | with_reducible refine Keeps.cond ?_ ?_
    | split
    | intro _

end Sys2Proof.Machine
end

