-- ==== Sys2Proof/Laws/KeepsImgOps.lean ====
section
/-!
SUPPORT. Laws/KeepsImgOps.lean: what the operations of Machine/ImgOps.lean keep (`Keeps`).
-/

namespace Sys2Proof.Machine

theorem State.setSlotState_keeps {k : Nat} {r s : State} {b : Bool} {v : Nat} (hk : k &&& 0 = 0)
    (h : Keeps k r s) : Keeps k r ((s.setSlotState b v)) := by
  unfold State.setSlotState
  repeat' first
    | with_reducible assumption
    | with_reducible refine State.setFld_keeps (keeps_sub hk rfl) ?_
    | intro _

theorem State.imgRefused_keeps {k : Nat} {r s : State} (hk : k &&& 256 = 256)
    (h : Keeps k r s) : Keeps k r (s.imgRefused) := by
  unfold State.imgRefused
  repeat' first
    | with_reducible assumption
    | with_reducible refine State.count_keeps (keeps_sub hk rfl) ?_
    | with_reducible refine State.irqImg_keeps (keeps_sub hk rfl) ?_
    | with_reducible refine State.setBit_keeps (keeps_sub hk rfl) ?_
    | intro _

theorem State.openLoad_keeps {k : Nat} {r s : State} {b : Bool} (hk : k &&& 16 = 16)
    (h : Keeps k r s) : Keeps k r ((s.openLoad b)) := by
  unfold State.openLoad
  dsimp only
  repeat' first
    | with_reducible assumption
    | exact fun x g => by dsimp only [ImgState.wf]; exact ⟨tabWf_nil _, g.img.2⟩
    | with_reducible refine State.wr_keeps (keeps_sub hk rfl) ?_
    | exact fun _ g => by dsimp only [ImgState.wf]; exact g.img
    | exact fun g _ => by dsimp only [ImgState.wf]; exact (h.inv g).img
    | intro _
    | with_reducible refine Keeps.set_img (keeps_sub hk rfl) ?_ ?_

theorem State.checkLoad_keeps {k : Nat} {r s : State} (hk : k &&& 0 = 0)
    (h : Keeps k r s) : Keeps k r (s.checkLoad) := by
  unfold State.checkLoad
  repeat' first
    | with_reducible assumption
    | with_reducible refine State.setFld_keeps (keeps_sub hk rfl) ?_
    | intro _

theorem State.commitLoad_keeps {k : Nat} {r s : State} (hk : k &&& 0 = 0)
    (h : Keeps k r s) : Keeps k r (s.commitLoad) := by
  unfold State.commitLoad
  dsimp only
  repeat' first
    | with_reducible assumption
    | with_reducible refine State.setFld_keeps (keeps_sub hk rfl) ?_
    | with_reducible refine State.setSlotState_keeps (keeps_sub hk rfl) ?_
    | with_reducible refine State.wr_keeps (keeps_sub hk rfl) ?_
    | intro _

theorem State.commitEnd_keeps {k : Nat} {r s : State} {readBackOk : Bool} (hk : k &&& 272 = 272)
    (h : Keeps k r s) : Keeps k r ((s.commitEnd readBackOk)) := by
  unfold State.commitEnd
  dsimp only
  repeat' first
    | with_reducible assumption
    | exact fun x g => by dsimp only [ImgState.wf]; exact ⟨g.img.1, g.img.2.1, (h.inv x).img.1⟩
    | exact fun x g => by dsimp only [ImgState.wf]; exact ⟨g.img.1, (h.inv x).img.1, g.img.2.2⟩
    | with_reducible refine State.count_keeps (keeps_sub hk rfl) ?_
    | with_reducible refine State.injRan_keeps (keeps_sub hk rfl) ?_
    | with_reducible refine State.irqImg_keeps (keeps_sub hk rfl) ?_
    | with_reducible refine State.setBit_keeps (keeps_sub hk rfl) ?_
    | with_reducible refine State.setFld_keeps (keeps_sub hk rfl) ?_
    | with_reducible refine State.setSlotState_keeps (keeps_sub hk rfl) ?_
    | exact fun _ g => by dsimp only [ImgState.wf]; exact g.img
    | exact fun g _ => by dsimp only [ImgState.wf]; exact (h.inv g).img
    | exact fun _ g => by dsimp only [ImgState.wf]; split <;> exact g.img
    | with_reducible refine Keeps.cond ?_ ?_
    | split
    | intro _
    | with_reducible refine Keeps.set_img (keeps_sub hk rfl) ?_ ?_

theorem State.abortLoad_keeps {k : Nat} {r s : State} (hk : k &&& 16 = 16)
    (h : Keeps k r s) : Keeps k r (s.abortLoad) := by
  unfold State.abortLoad
  repeat' first
    | with_reducible assumption
    | exact fun x g => by dsimp only [ImgState.wf]; exact ⟨tabWf_nil _, g.img.2⟩
    | with_reducible refine State.setFld_keeps (keeps_sub hk rfl) ?_
    | exact fun _ g => by dsimp only [ImgState.wf]; exact g.img
    | exact fun g _ => by dsimp only [ImgState.wf]; exact (h.inv g).img
    | exact fun _ g => by dsimp only [ImgState.wf]; split <;> exact g.img
    | with_reducible refine Keeps.cond ?_ ?_
    | split
    | intro _
    | with_reducible refine Keeps.set_img (keeps_sub hk rfl) ?_ ?_

theorem State.floorRaise_keeps {k : Nat} {r s : State} (hk : k &&& 48 = 48)
    (h : Keeps k r s) : Keeps k r (s.floorRaise) := by
  unfold State.floorRaise
  dsimp only
  repeat' first
    | with_reducible assumption
    | with_reducible refine State.tallyAsk_keeps (keeps_sub hk rfl) ?_
    | with_reducible refine Keeps.only ?_ ?_
    | exact fun _ g => by dsimp only [ImgState.wf]; exact g.img
    | exact fun g _ => by dsimp only [ImgState.wf]; exact (h.inv g).img
    | exact fun _ g => by dsimp only [ImgState.wf]; split <;> exact g.img
    | with_reducible refine Keeps.cond ?_ ?_
    | split
    | intro _
    | with_reducible refine Keeps.set_img (keeps_sub hk rfl) ?_ ?_

theorem State.loadCtrl_keeps {k : Nat} {r s : State} {v : Word} (hk : k &&& 16 = 16)
    (h : Keeps k r s) : Keeps k r ((s.loadCtrl v)) := by
  unfold State.loadCtrl
  repeat' first
    | with_reducible assumption
    | with_reducible refine State.abortLoad_keeps (keeps_sub hk rfl) ?_
    | with_reducible refine State.checkLoad_keeps (keeps_sub hk rfl) ?_
    | with_reducible refine State.commitLoad_keeps (keeps_sub hk rfl) ?_
    | with_reducible refine State.openLoad_keeps (keeps_sub hk rfl) ?_
    | with_reducible refine Keeps.cond ?_ ?_
    | split
    | intro _

theorem State.actCtrl_keeps {k : Nat} {r s : State} {v : Word} (hk : k &&& 48 = 48)
    (h : Keeps k r s) : Keeps k r ((s.actCtrl v)) := by
  unfold State.actCtrl
  dsimp only
  repeat' first
    | with_reducible assumption
    | with_reducible refine State.floorRaise_keeps (keeps_sub hk rfl) ?_
    | with_reducible refine Keeps.only ?_ ?_
    | exact fun _ g => by dsimp only [ImgState.wf]; exact g.img
    | exact fun g _ => by dsimp only [ImgState.wf]; exact (h.inv g).img
    | exact fun _ g => by dsimp only [ImgState.wf]; split <;> exact g.img
    | with_reducible refine Keeps.cond ?_ ?_
    | split
    | intro _
    | with_reducible refine Keeps.set_img (keeps_sub hk rfl) ?_ ?_

theorem State.chunkPut_keeps {k : Nat} {r s : State} {off : Nat} {data : List Word} (hk : k &&& 16 = 16)
    (h : Keeps k r s) : Keeps k r ((s.chunkPut off data)) := by
  unfold State.chunkPut
  dsimp only
  repeat' first
    | with_reducible assumption
    | exact fun x g => by dsimp only [ImgState.wf]; exact ⟨tabWf_tabSetList _ _ _ _ g.img.1, g.img.2⟩
    | with_reducible refine State.wr_keeps (keeps_sub hk rfl) ?_
    | exact fun _ g => by dsimp only [ImgState.wf]; exact g.img
    | exact fun g _ => by dsimp only [ImgState.wf]; exact (h.inv g).img
    | intro _
    | with_reducible refine Keeps.set_img (keeps_sub hk rfl) ?_ ?_

theorem State.chunkRefused_keeps {k : Nat} {r s : State} (hk : k &&& 256 = 256)
    (h : Keeps k r s) : Keeps k r (s.chunkRefused) := by
  unfold State.chunkRefused
  repeat' first
    | with_reducible assumption
    | with_reducible refine State.count_keeps (keeps_sub hk rfl) ?_
    | with_reducible refine State.irqImg_keeps (keeps_sub hk rfl) ?_
    | intro _

end Sys2Proof.Machine
end

