-- ==== Sys2Proof/Laws/KeepsFieldOps.lean ====
section
/-!
SUPPORT. Laws/KeepsFieldOps.lean: what the operations of Machine/FieldOps.lean keep (`Keeps`).
-/

namespace Sys2Proof.Machine

theorem State.putRef_keeps {k : Nat} {r s : State} {b : Nat} {r' : RefState} (hk : k &&& 16384 = 16384)
    (h : Keeps k r s) : Keeps k r ((s.putRef b r')) := by
  unfold State.putRef
  repeat' first
    | with_reducible assumption
    | intro _
    | with_reducible refine Keeps.set_field (keeps_sub hk rfl) ?_

theorem State.refTaint_keeps {k : Nat} {r s : State} {b : Nat} (hk : k &&& 16384 = 16384)
    (h : Keeps k r s) : Keeps k r ((s.refTaint b)) := by
  unfold State.refTaint
  dsimp only
  repeat' first
    | with_reducible assumption
    | intro _
    | with_reducible refine Keeps.set_field (keeps_sub hk rfl) ?_

theorem State.refFail_keeps {k : Nat} {r s : State} {b : Nat} (hk : k &&& 16640 = 16640)
    (h : Keeps k r s) : Keeps k r ((s.refFail b)) := by
  unfold State.refFail
  dsimp only
  repeat' first
    | with_reducible assumption
    | with_reducible refine State.count_keeps (keeps_sub hk rfl) ?_
    | with_reducible refine State.irqAin_keeps (keeps_sub hk rfl) ?_
    | with_reducible refine State.putRef_keeps (keeps_sub hk rfl) ?_
    | with_reducible refine State.refTaint_keeps (keeps_sub hk rfl) ?_
    | with_reducible refine State.setBit_keeps (keeps_sub hk rfl) ?_
    | with_reducible refine Keeps.only ?_ ?_
    | intro _

theorem State.refSettle_keeps {k : Nat} {r s : State} {b : Nat} (hk : k &&& 16640 = 16640)
    (h : Keeps k r s) : Keeps k r ((s.refSettle b)) := by
  unfold State.refSettle
  dsimp only
  repeat' first
    | with_reducible assumption
    | with_reducible refine State.irqAin_keeps (keeps_sub hk rfl) ?_
    | with_reducible refine State.putRef_keeps (keeps_sub hk rfl) ?_
    | with_reducible refine State.setBit_keeps (keeps_sub hk rfl) ?_
    | intro _

theorem State.refCheck_keeps {k : Nat} {r s : State} {b uv : Nat} (hk : k &&& 16640 = 16640)
    (h : Keeps k r s) : Keeps k r ((s.refCheck b uv)) := by
  unfold State.refCheck
  dsimp only
  repeat' first
    | with_reducible assumption
    | with_reducible refine State.injRan_keeps (keeps_sub hk rfl) ?_
    | with_reducible refine State.putRef_keeps (keeps_sub hk rfl) ?_
    | with_reducible refine State.refFail_keeps (keeps_sub hk rfl) ?_
    | with_reducible refine State.refSettle_keeps (keeps_sub hk rfl) ?_
    | with_reducible refine State.setFld_keeps (keeps_sub hk rfl) ?_
    | with_reducible refine Keeps.only ?_ ?_
    | with_reducible refine Keeps.cond ?_ ?_
    | split
    | intro _

theorem State.ainBlank_keeps {k : Nat} {r s : State} {n : Nat} (hk : k &&& 0 = 0)
    (h : Keeps k r s) : Keeps k r ((s.ainBlank n)) := by
  unfold State.ainBlank
  repeat' first
    | with_reducible assumption
    | with_reducible refine State.wr_keeps (keeps_sub hk rfl) ?_
    | intro _

theorem State.refStart_keeps {k : Nat} {r s : State} {b : Nat} (hk : k &&& 16384 = 16384)
    (h : Keeps k r s) : Keeps k r ((s.refStart b)) := by
  unfold State.refStart
  dsimp only
  repeat' first
    | with_reducible assumption
    | with_reducible refine State.ainBlank_keeps (keeps_sub hk rfl) ?_
    | with_reducible refine State.putRef_keeps (keeps_sub hk rfl) ?_
    | with_reducible refine State.setBit_keeps (keeps_sub hk rfl) ?_
    | with_reducible refine Keeps.each ?_ ?_
    | intro _
    | with_reducible refine Keeps.set_field (keeps_sub hk rfl) ?_

theorem State.refAgain_keeps {k : Nat} {r s : State} {b : Nat} (hk : k &&& 16384 = 16384)
    (h : Keeps k r s) : Keeps k r ((s.refAgain b)) := by
  unfold State.refAgain
  repeat' first
    | with_reducible assumption
    | with_reducible refine State.putRef_keeps (keeps_sub hk rfl) ?_
    | intro _

theorem State.putCal_keeps {k : Nat} {r s : State} {b : Nat} {c : CalState} (hk : k &&& 16384 = 16384)
    (h : Keeps k r s) : Keeps k r ((s.putCal b c)) := by
  unfold State.putCal
  repeat' first
    | with_reducible assumption
    | intro _
    | with_reducible refine Keeps.set_field (keeps_sub hk rfl) ?_

theorem State.showCoef_keeps {k : Nat} {r s : State} {n : Nat} (hk : k &&& 0 = 0)
    (h : Keeps k r s) : Keeps k r ((s.showCoef n)) := by
  unfold State.showCoef
  dsimp only
  repeat' first
    | with_reducible assumption
    | with_reducible refine State.wr_keeps (keeps_sub hk rfl) ?_
    | intro _

theorem State.calStart_keeps {k : Nat} {r s : State} {b : Nat} {spareOfs : Int} {spareGain : Nat} (hk : k &&& 8404992 = 8404992)
    (h : Keeps k r s) : Keeps k r ((s.calStart b spareOfs spareGain)) := by
  unfold State.calStart
  dsimp only
  repeat' first
    | with_reducible assumption
    | with_reducible refine State.charge_keeps (keeps_sub hk rfl) ?_
    | with_reducible refine State.count_keeps (keeps_sub hk rfl) ?_
    | with_reducible refine State.freeBits_keeps (keeps_sub hk rfl) ?_
    | with_reducible refine State.putCal_keeps (keeps_sub hk rfl) ?_
    | with_reducible refine State.setBit_keeps (keeps_sub hk rfl) ?_
    | with_reducible refine State.setFld_keeps (keeps_sub hk rfl) ?_
    | with_reducible refine Keeps.cond ?_ ?_
    | split
    | intro _

theorem State.calFail_keeps {k : Nat} {r s : State} {b n : Nat} {diff : Bool} (hk : k &&& 16768 = 16768)
    (h : Keeps k r s) : Keeps k r ((s.calFail b n diff)) := by
  unfold State.calFail
  dsimp only
  repeat' first
    | with_reducible assumption
    | with_reducible refine State.count_keeps (keeps_sub hk rfl) ?_
    | with_reducible refine State.irqAin_keeps (keeps_sub hk rfl) ?_
    | with_reducible refine State.raiseEv_keeps (keeps_sub hk rfl) ?_
    | with_reducible refine State.setBit_keeps (keeps_sub hk rfl) ?_
    | with_reducible refine Keeps.only ?_ ?_
    | intro _
    | with_reducible refine Keeps.set_field (keeps_sub hk rfl) ?_

theorem State.calEnd_keeps {k : Nat} {r s : State} {b : Nat} {ofs : Int} {gain diff : Nat} (hk : k &&& 16768 = 16768)
    (h : Keeps k r s) : Keeps k r ((s.calEnd b ofs gain diff)) := by
  unfold State.calEnd
  dsimp only
  repeat' first
    | with_reducible assumption
    | with_reducible refine State.calFail_keeps (keeps_sub hk rfl) ?_
    | with_reducible refine State.count_keeps (keeps_sub hk rfl) ?_
    | with_reducible refine State.injRan_keeps (keeps_sub hk rfl) ?_
    | with_reducible refine State.putCal_keeps (keeps_sub hk rfl) ?_
    | with_reducible refine State.setBit_keeps (keeps_sub hk rfl) ?_
    | with_reducible refine State.showCoef_keeps (keeps_sub hk rfl) ?_
    | with_reducible refine Keeps.only ?_ ?_
    | with_reducible refine Keeps.cond ?_ ?_
    | split
    | intro _
    | with_reducible refine Keeps.set_field (keeps_sub hk rfl) ?_

theorem State.flagOnset_keeps {k : Nat} {r s : State} {n cnt stat chStat kind cause : Nat} (hk : k &&& 384 = 384)
    (h : Keeps k r s) : Keeps k r ((s.flagOnset n cnt stat chStat kind cause)) := by
  unfold State.flagOnset
  repeat' first
    | with_reducible assumption
    | with_reducible refine State.count_keeps (keeps_sub hk rfl) ?_
    | with_reducible refine State.raiseEv_keeps (keeps_sub hk rfl) ?_
    | with_reducible refine State.setBit_keeps (keeps_sub hk rfl) ?_
    | intro _

theorem State.flagOnsets_keeps {k : Nat} {r s : State} {n : Nat} {f : ResFlags} (hk : k &&& 16768 = 16768)
    (h : Keeps k r s) : Keeps k r ((s.flagOnsets n f)) := by
  unfold State.flagOnsets
  dsimp only
  repeat' first
    | with_reducible assumption
    | with_reducible refine State.flagOnset_keeps (keeps_sub hk rfl) ?_
    | with_reducible refine State.irqAin_keeps (keeps_sub hk rfl) ?_
    | with_reducible refine Keeps.only ?_ ?_
    | intro _
    | with_reducible refine Keeps.set_field (keeps_sub hk rfl) ?_

theorem State.putPlaus_keeps {k : Nat} {r s : State} {p : Nat} {x : PlausState} (hk : k &&& 16384 = 16384)
    (h : Keeps k r s) : Keeps k r ((s.putPlaus p x)) := by
  unfold State.putPlaus
  repeat' first
    | with_reducible assumption
    | intro _
    | with_reducible refine Keeps.set_field (keeps_sub hk rfl) ?_

theorem State.markPlaus_keeps {k : Nat} {r s : State} {n : Nat} {on : Bool} (hk : k &&& 384 = 384)
    (h : Keeps k r s) : Keeps k r ((s.markPlaus n on)) := by
  unfold State.markPlaus
  dsimp only
  repeat' first
    | with_reducible assumption
    | with_reducible refine State.count_keeps (keeps_sub hk rfl) ?_
    | with_reducible refine State.flagOnset_keeps (keeps_sub hk rfl) ?_
    | with_reducible refine State.irqAin_keeps (keeps_sub hk rfl) ?_
    | with_reducible refine State.wr_keeps (keeps_sub hk rfl) ?_
    | with_reducible refine Keeps.cond ?_ ?_
    | split
    | intro _

theorem State.plausCompare_keeps {k : Nat} {r s : State} {p : Nat} (hk : k &&& 16768 = 16768)
    (h : Keeps k r s) : Keeps k r ((s.plausCompare p)) := by
  unfold State.plausCompare
  dsimp only
  repeat' first
    | with_reducible assumption
    | with_reducible refine State.injRan_keeps (keeps_sub hk rfl) ?_
    | with_reducible refine State.markPlaus_keeps (keeps_sub hk rfl) ?_
    | with_reducible refine State.putPlaus_keeps (keeps_sub hk rfl) ?_
    | with_reducible refine Keeps.only ?_ ?_
    | with_reducible refine Keeps.cond ?_ ?_
    | split
    | intro _

theorem State.plausResult_keeps {k : Nat} {r s : State} {n : Nat} (hk : k &&& 16768 = 16768)
    (h : Keeps k r s) : Keeps k r ((s.plausResult n)) := by
  unfold State.plausResult
  dsimp only
  repeat' first
    | with_reducible assumption
    | with_reducible refine State.plausCompare_keeps (keeps_sub hk rfl) ?_
    | with_reducible refine State.putPlaus_keeps (keeps_sub hk rfl) ?_
    | with_reducible refine Keeps.cond ?_ ?_
    | split
    | intro _

theorem State.refWindow_keeps {k : Nat} {r s : State} {n : Nat} (hk : k &&& 16384 = 16384)
    (h : Keeps k r s) : Keeps k r ((s.refWindow n)) := by
  unfold State.refWindow
  repeat' first
    | with_reducible assumption
    | with_reducible refine Keeps.cond ?_ ?_
    | split
    | intro _
    | with_reducible refine Keeps.set_field (keeps_sub hk rfl) ?_

theorem State.ainResult_keeps {k : Nat} {r s : State} {n : Nat} {code : Int} {overload : Bool} {line : LineMon} (hk : k &&& 16768 = 16768)
    (h : Keeps k r s) : Keeps k r ((s.ainResult n code overload line)) := by
  unfold State.ainResult
  dsimp only
  repeat' first
    | with_reducible assumption
    | with_reducible refine State.count_keeps (keeps_sub hk rfl) ?_
    | with_reducible refine State.flagOnsets_keeps (keeps_sub hk rfl) ?_
    | with_reducible refine State.injRan_keeps (keeps_sub hk rfl) ?_
    | with_reducible refine State.nextFree_keeps (keeps_sub hk rfl) ?_
    | with_reducible refine State.plausResult_keeps (keeps_sub hk rfl) ?_
    | with_reducible refine State.putCal_keeps (keeps_sub hk rfl) ?_
    | with_reducible refine State.refWindow_keeps (keeps_sub hk rfl) ?_
    | with_reducible refine State.showCoef_keeps (keeps_sub hk rfl) ?_
    | with_reducible refine State.wr_keeps (keeps_sub hk rfl) ?_
    | with_reducible refine Keeps.only ?_ ?_
    | with_reducible refine Keeps.cond ?_ ?_
    | split
    | intro _

theorem State.doGroup_keeps {k : Nat} {r s : State} {l : List Nat} (hk : k &&& 16384 = 16384)
    (h : Keeps k r s) : Keeps k r ((s.doGroup l)) := by
  unfold State.doGroup
  repeat' first
    | with_reducible assumption
    | intro _
    | with_reducible refine Keeps.set_field (keeps_sub hk rfl) ?_

theorem State.doTick_keeps {k : Nat} {r s : State} (hk : k &&& 16384 = 16384)
    (h : Keeps k r s) : Keeps k r (s.doTick) := by
  unfold State.doTick
  repeat' first
    | with_reducible assumption
    | intro _
    | with_reducible refine Keeps.set_field (keeps_sub hk rfl) ?_

theorem State.aoDrive_keeps {k : Nat} {r s : State} {n : Nat} {code : Nat} (hk : k &&& 16384 = 16384)
    (h : Keeps k r s) : Keeps k r ((s.aoDrive n code)) := by
  unfold State.aoDrive
  repeat' first
    | with_reducible assumption
    | intro _
    | with_reducible refine Keeps.set_field (keeps_sub hk rfl) ?_

theorem State.aoRelease_keeps {k : Nat} {r s : State} {n : Nat} (hk : k &&& 16384 = 16384)
    (h : Keeps k r s) : Keeps k r ((s.aoRelease n)) := by
  unfold State.aoRelease
  repeat' first
    | with_reducible assumption
    | intro _
    | with_reducible refine Keeps.set_field (keeps_sub hk rfl) ?_

theorem State.aoInjRan_keeps {k : Nat} {r s : State} {n : Nat} {x0 : AoFault} (hk : k &&& 16 = 16)
    (h : Keeps k r s) : Keeps k r ((s.aoInjRan n x0)) := by
  unfold State.aoInjRan
  repeat' first
    | with_reducible assumption
    | with_reducible refine State.injRan_keeps (keeps_sub hk rfl) ?_
    | with_reducible refine State.openLoad_keeps (keeps_sub hk rfl) ?_
    | with_reducible refine Keeps.only ?_ ?_
    | split
    | intro _

theorem State.aoTest_keeps {k : Nat} {r s : State} {n : Nat} {k' : AoFault} {present : Bool} (hk : k &&& 400 = 400)
    (h : Keeps k r s) : Keeps k r ((s.aoTest n k' present)) := by
  unfold State.aoTest
  dsimp only
  repeat' first
    | with_reducible assumption
    | with_reducible refine State.aoInjRan_keeps (keeps_sub hk rfl) ?_
    | with_reducible refine State.count_keeps (keeps_sub hk rfl) ?_
    | with_reducible refine State.irqAout_keeps (keeps_sub hk rfl) ?_
    | with_reducible refine State.raiseEv_keeps (keeps_sub hk rfl) ?_
    | with_reducible refine State.setBit_keeps (keeps_sub hk rfl) ?_
    | with_reducible refine Keeps.cond ?_ ?_
    | split
    | intro _

theorem State.aoFaultEnd_keeps {k : Nat} {r s : State} {n : Nat} {k' : AoFault} (hk : k &&& 0 = 0)
    (h : Keeps k r s) : Keeps k r ((s.aoFaultEnd n k')) := by
  unfold State.aoFaultEnd
  repeat' first
    | with_reducible assumption
    | with_reducible refine State.setBit_keeps (keeps_sub hk rfl) ?_
    | intro _

theorem State.aoReadback_keeps {k : Nat} {r s : State} {n : Nat} {v : Int} (hk : k &&& 16640 = 16640)
    (h : Keeps k r s) : Keeps k r ((s.aoReadback n v)) := by
  unfold State.aoReadback
  dsimp only
  repeat' first
    | with_reducible assumption
    | with_reducible refine State.count_keeps (keeps_sub hk rfl) ?_
    | with_reducible refine State.injRan_keeps (keeps_sub hk rfl) ?_
    | with_reducible refine State.irqAout_keeps (keeps_sub hk rfl) ?_
    | with_reducible refine State.setBit_keeps (keeps_sub hk rfl) ?_
    | with_reducible refine State.wr_keeps (keeps_sub hk rfl) ?_
    | with_reducible refine Keeps.only ?_ ?_
    | with_reducible refine Keeps.cond ?_ ?_
    | split
    | intro _
    | with_reducible refine Keeps.set_field (keeps_sub hk rfl) ?_

theorem State.diTake_keeps {k : Nat} {r s : State} {n : Nat} {level : Bool} (hk : k &&& 0 = 0)
    (h : Keeps k r s) : Keeps k r ((s.diTake n level)) := by
  unfold State.diTake
  dsimp only
  repeat' first
    | with_reducible assumption
    | with_reducible refine State.setBit_keeps (keeps_sub hk rfl) ?_
    | with_reducible refine State.wr_keeps (keeps_sub hk rfl) ?_
    | with_reducible refine Keeps.only ?_ ?_
    | with_reducible refine Keeps.cond ?_ ?_
    | split
    | intro _

theorem State.diOk_keeps {k : Nat} {r s : State} {n : Nat} {ok : Bool} (hk : k &&& 0 = 0)
    (h : Keeps k r s) : Keeps k r ((s.diOk n ok)) := by
  unfold State.diOk
  repeat' first
    | with_reducible assumption
    | with_reducible refine State.setBit_keeps (keeps_sub hk rfl) ?_
    | intro _

theorem State.diChange_keeps {k : Nat} {r s : State} {n : Nat} {level : Bool} {ua : Int} (hk : k &&& 0 = 0)
    (h : Keeps k r s) : Keeps k r ((s.diChange n level ua)) := by
  unfold State.diChange
  dsimp only
  repeat' first
    | with_reducible assumption
    | with_reducible refine State.diOk_keeps (keeps_sub hk rfl) ?_
    | with_reducible refine State.diTake_keeps (keeps_sub hk rfl) ?_
    | with_reducible refine State.wr_keeps (keeps_sub hk rfl) ?_
    | with_reducible refine Keeps.cond ?_ ?_
    | split
    | intro _

theorem State.rawEdge_keeps {k : Nat} {r s : State} {n : Nat} {close : Bool} (hk : k &&& 0 = 0)
    (h : Keeps k r s) : Keeps k r ((s.rawEdge n close)) := by
  unfold State.rawEdge
  repeat' first
    | with_reducible assumption
    | with_reducible refine State.setBit_keeps (keeps_sub hk rfl) ?_
    | with_reducible refine Keeps.cond ?_ ?_
    | split
    | intro _

theorem State.diFaultEnd_keeps {k : Nat} {r s : State} {n : Nat} (hk : k &&& 16384 = 16384)
    (h : Keeps k r s) : Keeps k r ((s.diFaultEnd n)) := by
  unfold State.diFaultEnd
  repeat' first
    | with_reducible assumption
    | with_reducible refine State.diOk_keeps (keeps_sub hk rfl) ?_
    | intro _
    | with_reducible refine Keeps.set_field (keeps_sub hk rfl) ?_

theorem State.diOnset_keeps {k : Nat} {r s : State} {n : Nat} {k' : DiFault} (hk : k &&& 16768 = 16768)
    (h : Keeps k r s) : Keeps k r ((s.diOnset n k')) := by
  unfold State.diOnset
  dsimp only
  repeat' first
    | with_reducible assumption
    | with_reducible refine State.count_keeps (keeps_sub hk rfl) ?_
    | with_reducible refine State.diOk_keeps (keeps_sub hk rfl) ?_
    | with_reducible refine State.diTake_keeps (keeps_sub hk rfl) ?_
    | with_reducible refine State.irqDio_keeps (keeps_sub hk rfl) ?_
    | with_reducible refine State.raiseEv_keeps (keeps_sub hk rfl) ?_
    | with_reducible refine State.setBit_keeps (keeps_sub hk rfl) ?_
    | intro _
    | with_reducible refine Keeps.set_field (keeps_sub hk rfl) ?_

theorem State.diTest_keeps {k : Nat} {r s : State} {n : Nat} {k' : DiFault} {present : Bool} {ua : Int} (hk : k &&& 16768 = 16768)
    (h : Keeps k r s) : Keeps k r ((s.diTest n k' present ua)) := by
  unfold State.diTest
  dsimp only
  repeat' first
    | with_reducible assumption
    | with_reducible refine State.diFaultEnd_keeps (keeps_sub hk rfl) ?_
    | with_reducible refine State.diOnset_keeps (keeps_sub hk rfl) ?_
    | with_reducible refine State.injRan_keeps (keeps_sub hk rfl) ?_
    | with_reducible refine State.wr_keeps (keeps_sub hk rfl) ?_
    | with_reducible refine Keeps.only ?_ ?_
    | with_reducible refine Keeps.cond ?_ ?_
    | split
    | intro _

theorem State.doOnset_keeps {k : Nat} {r s : State} {n stat chBit cnt num : Nat} (hk : k &&& 384 = 384)
    (h : Keeps k r s) : Keeps k r ((s.doOnset n stat chBit cnt num)) := by
  unfold State.doOnset
  repeat' first
    | with_reducible assumption
    | with_reducible refine State.count_keeps (keeps_sub hk rfl) ?_
    | with_reducible refine State.irqDio_keeps (keeps_sub hk rfl) ?_
    | with_reducible refine State.raiseEv_keeps (keeps_sub hk rfl) ?_
    | with_reducible refine State.setBit_keeps (keeps_sub hk rfl) ?_
    | intro _

theorem State.doLatch_keeps {k : Nat} {r s : State} {n : Nat} (hk : k &&& 384 = 384)
    (h : Keeps k r s) : Keeps k r ((s.doLatch n)) := by
  unfold State.doLatch
  repeat' first
    | with_reducible assumption
    | with_reducible refine State.irqDio_keeps (keeps_sub hk rfl) ?_
    | with_reducible refine State.raiseEv_keeps (keeps_sub hk rfl) ?_
    | with_reducible refine State.setBit_keeps (keeps_sub hk rfl) ?_
    | intro _

theorem State.doTrip_keeps {k : Nat} {r s : State} {n : Nat} {tooMuch : Bool} {ma : Nat} (hk : k &&& 16768 = 16768)
    (h : Keeps k r s) : Keeps k r ((s.doTrip n tooMuch ma)) := by
  unfold State.doTrip
  dsimp only
  repeat' first
    | with_reducible assumption
    | with_reducible refine State.doLatch_keeps (keeps_sub hk rfl) ?_
    | with_reducible refine State.doOnset_keeps (keeps_sub hk rfl) ?_
    | with_reducible refine State.injRan_keeps (keeps_sub hk rfl) ?_
    | with_reducible refine State.setFld_keeps (keeps_sub hk rfl) ?_
    | with_reducible refine Keeps.only ?_ ?_
    | with_reducible refine Keeps.cond ?_ ?_
    | split
    | intro _
    | with_reducible refine Keeps.set_field (keeps_sub hk rfl) ?_

theorem State.doRetry_keeps {k : Nat} {r s : State} {n : Nat} (hk : k &&& 16384 = 16384)
    (h : Keeps k r s) : Keeps k r ((s.doRetry n)) := by
  unfold State.doRetry
  dsimp only
  repeat' first
    | with_reducible assumption
    | with_reducible refine Keeps.cond ?_ ?_
    | split
    | intro _
    | with_reducible refine Keeps.set_field (keeps_sub hk rfl) ?_

theorem State.doClear_keeps {k : Nat} {r s : State} {n : Nat} (hk : k &&& 16384 = 16384)
    (h : Keeps k r s) : Keeps k r ((s.doClear n)) := by
  unfold State.doClear
  dsimp only
  repeat' first
    | with_reducible assumption
    | with_reducible refine State.setBit_keeps (keeps_sub hk rfl) ?_
    | with_reducible refine State.setFld_keeps (keeps_sub hk rfl) ?_
    | with_reducible refine Keeps.cond ?_ ?_
    | split
    | intro _
    | with_reducible refine Keeps.set_field (keeps_sub hk rfl) ?_

theorem State.doSettle_keeps {k : Nat} {r s : State} {n : Nat} (hk : k &&& 16400 = 16400)
    (h : Keeps k r s) : Keeps k r ((s.doSettle n)) := by
  unfold State.doSettle
  dsimp only
  repeat' first
    | with_reducible assumption
    | with_reducible refine State.openLoad_keeps (keeps_sub hk rfl) ?_
    | with_reducible refine Keeps.cond ?_ ?_
    | split
    | intro _
    | with_reducible refine Keeps.set_field (keeps_sub hk rfl) ?_

theorem State.doTest_keeps {k : Nat} {r was : State} {n : Nat} {k' : DoFault} {present : Bool} {ma : Nat} (hk : k &&& 16784 = 16784)
    (h : Keeps k r was) : Keeps k r ((was.doTest n k' present ma)) := by
  unfold State.doTest
  dsimp only
  repeat' first
    | with_reducible assumption
    | with_reducible refine State.doOnset_keeps (keeps_sub hk rfl) ?_
    | with_reducible refine State.doSettle_keeps (keeps_sub hk rfl) ?_
    | with_reducible refine State.injRan_keeps (keeps_sub hk rfl) ?_
    | with_reducible refine State.openLoad_keeps (keeps_sub hk rfl) ?_
    | with_reducible refine State.setFld_keeps (keeps_sub hk rfl) ?_
    | with_reducible refine Keeps.only ?_ ?_
    | with_reducible refine Keeps.cond ?_ ?_
    | split
    | intro _
    | with_reducible refine Keeps.set_field (keeps_sub hk rfl) ?_

theorem State.supplyCheck_keeps {k : Nat} {r s : State} {mv : Nat} {rev : Bool} (hk : k &&& 16640 = 16640)
    (h : Keeps k r s) : Keeps k r ((s.supplyCheck mv rev)) := by
  unfold State.supplyCheck
  dsimp only
  repeat' first
    | with_reducible assumption
    | with_reducible refine State.count_keeps (keeps_sub hk rfl) ?_
    | with_reducible refine State.injRan_keeps (keeps_sub hk rfl) ?_
    | with_reducible refine State.irqDio_keeps (keeps_sub hk rfl) ?_
    | with_reducible refine State.setBit_keeps (keeps_sub hk rfl) ?_
    | with_reducible refine State.setFld_keeps (keeps_sub hk rfl) ?_
    | with_reducible refine Keeps.only ?_ ?_
    | with_reducible refine Keeps.cond ?_ ?_
    | split
    | intro _
    | with_reducible refine Keeps.set_field (keeps_sub hk rfl) ?_

theorem State.supplyReturn_keeps {k : Nat} {r s : State} (hk : k &&& 16384 = 16384)
    (h : Keeps k r s) : Keeps k r (s.supplyReturn) := by
  unfold State.supplyReturn
  repeat' first
    | with_reducible assumption
    | with_reducible refine Keeps.cond ?_ ?_
    | split
    | intro _
    | with_reducible refine Keeps.set_field (keeps_sub hk rfl) ?_

end Sys2Proof.Machine
end

