-- ==== Sys2Proof/Laws/KeepsFbpOps.lean ====
section
/-!
SUPPORT. Laws/KeepsFbpOps.lean: what the operations of Machine/FbpOps.lean keep (`Keeps`).
-/

namespace Sys2Proof.Machine

theorem fbdataRuns_wf (m : ImgBytes) (n o : Nat) (t : Tab 8) (h : tabWf 0#8 t = true) : tabWf 0#8 (fbdataRuns m n o t) = true := by
  induction n generalizing o t with
  | zero => exact h
  | succ n ih => exact ih _ _ (tabWf_tabSetList _ _ _ _ h)

theorem State.coldData_wf (s : State) (l : List Byte) : tabWf 0#8 (s.coldData l) = true :=
  tabWf_tabSetList _ _ _ _ (fbdataRuns_wf _ _ _ _ rfl)

theorem State.latchInputs_wf (s : State) : tabWf 0#32 s.latchInputs = true := by
  unfold State.latchInputs
  dsimp only
  refine tabWf_foldl _ _ _ _ (fun t x h => tabWf_tabSet _ _ _ _ h) (tabWf_foldl _ _ _ _ (fun t x h => tabWf_tabSet _ _ _ _ h)
    (tabWf_foldl _ _ _ _ (fun t x h => tabWf_tabSet _ _ _ _ h) (tabWf_tabSet _ _ _ _ (tabWf_tabSet _ _ _ _
      (tabWf_foldl _ _ _ _ (fun t x h => ?_) rfl)))))
  exact tabWf_tabSet _ _ _ _ (tabWf_tabSet _ _ _ _ (tabWf_tabSet _ _ _ _ h))

theorem State.putData_keeps {k : Nat} {r s : State} {l : List (Nat × Word)} (hk : k &&& 73760 = 73760)
    (h : Keeps k r s) : Keeps k r ((s.putData l)) := by
  unfold State.putData
  dsimp only
  repeat' first
    | with_reducible assumption
    | exact fun x g => ⟨tabWf_foldl _ _ _ _ (fun t x h => tabWf_tabSetList _ _ _ _ h) g.fbp.1, g.fbp.2⟩
    | with_reducible refine State.sramPut_keeps (keeps_sub hk rfl) ?_
    | with_reducible refine Keeps.each ?_ ?_
    | exact fun _ g => by dsimp only [FbpState.wf]; exact g.fbp
    | exact fun g _ => by dsimp only [FbpState.wf]; exact (h.inv g).fbp
    | intro _
    | with_reducible refine Keeps.set_fbp (keeps_sub hk rfl) ?_ ?_

theorem State.forceShow_keeps {k : Nat} {r s : State} (hk : k &&& 256 = 256)
    (h : Keeps k r s) : Keeps k r (s.forceShow) := by
  unfold State.forceShow
  repeat' first
    | with_reducible assumption
    | with_reducible refine State.irqFbp_keeps (keeps_sub hk rfl) ?_
    | with_reducible refine State.wr_keeps (keeps_sub hk rfl) ?_
    | with_reducible refine Keeps.cond ?_ ?_
    | split
    | intro _

theorem State.forceEvent_keeps {k : Nat} {r s : State} {point op val : Nat} (hk : k &&& 384 = 384)
    (h : Keeps k r s) : Keeps k r ((s.forceEvent point op val)) := by
  unfold State.forceEvent
  repeat' first
    | with_reducible assumption
    | with_reducible refine State.raiseEv_keeps (keeps_sub hk rfl) ?_
    | intro _

theorem State.forceSet_keeps {k : Nat} {r s : State} {p : Nat} (hk : k &&& 384 = 384)
    (h : Keeps k r s) : Keeps k r ((s.forceSet p)) := by
  unfold State.forceSet
  dsimp only
  repeat' first
    | with_reducible assumption
    | with_reducible refine State.count_keeps (keeps_sub hk rfl) ?_
    | with_reducible refine State.forceEvent_keeps (keeps_sub hk rfl) ?_
    | with_reducible refine State.forceShow_keeps (keeps_sub hk rfl) ?_
    | with_reducible refine State.setBit_keeps (keeps_sub hk rfl) ?_
    | intro _

theorem State.releaseDraw_keeps {k : Nat} {r s : State} {outputs : Bool} (hk : k &&& 4 = 4)
    (h : Keeps k r s) : Keeps k r ((s.releaseDraw outputs)) := by
  unfold State.releaseDraw
  repeat' first
    | with_reducible assumption
    | with_reducible refine State.drawReserved_keeps (keeps_sub hk rfl) ?_
    | with_reducible refine Keeps.only ?_ ?_
    | intro _

theorem State.forceClr_keeps {k : Nat} {r s : State} {p : Nat} (hk : k &&& 388 = 388)
    (h : Keeps k r s) : Keeps k r ((s.forceClr p)) := by
  unfold State.forceClr
  dsimp only
  repeat' first
    | with_reducible assumption
    | with_reducible refine State.forceEvent_keeps (keeps_sub hk rfl) ?_
    | with_reducible refine State.forceShow_keeps (keeps_sub hk rfl) ?_
    | with_reducible refine State.releaseDraw_keeps (keeps_sub hk rfl) ?_
    | with_reducible refine State.setBit_keeps (keeps_sub hk rfl) ?_
    | intro _

theorem State.forceNone_keeps {k : Nat} {r s : State} (hk : k &&& 0 = 0)
    (h : Keeps k r s) : Keeps k r (s.forceNone) := by
  unfold State.forceNone
  repeat' first
    | with_reducible assumption
    | with_reducible refine State.wr_keeps (keeps_sub hk rfl) ?_
    | with_reducible refine Keeps.each ?_ ?_
    | intro _

theorem State.forceClrAll_keeps {k : Nat} {r s : State} (hk : k &&& 388 = 388)
    (h : Keeps k r s) : Keeps k r (s.forceClrAll) := by
  unfold State.forceClrAll
  dsimp only
  repeat' first
    | with_reducible assumption
    | with_reducible refine State.forceEvent_keeps (keeps_sub hk rfl) ?_
    | with_reducible refine State.forceNone_keeps (keeps_sub hk rfl) ?_
    | with_reducible refine State.forceShow_keeps (keeps_sub hk rfl) ?_
    | with_reducible refine State.releaseDraw_keeps (keeps_sub hk rfl) ?_
    | intro _

theorem State.forceCmd_keeps {k : Nat} {r s : State} {v : Word} (hk : k &&& 388 = 388)
    (h : Keeps k r s) : Keeps k r ((s.forceCmd v)) := by
  unfold State.forceCmd
  dsimp only
  repeat' first
    | with_reducible assumption
    | with_reducible refine State.forceClr_keeps (keeps_sub hk rfl) ?_
    | with_reducible refine State.forceSet_keeps (keeps_sub hk rfl) ?_
    | with_reducible refine Keeps.cond ?_ ?_
    | split
    | intro _

theorem State.releaseOutputs_keeps {k : Nat} {r s : State} (hk : k &&& 384 = 384)
    (h : Keeps k r s) : Keeps k r (s.releaseOutputs) := by
  unfold State.releaseOutputs
  dsimp only
  repeat' first
    | with_reducible assumption
    | with_reducible refine State.forceEvent_keeps (keeps_sub hk rfl) ?_
    | with_reducible refine State.forceShow_keeps (keeps_sub hk rfl) ?_
    | with_reducible refine State.setBit_keeps (keeps_sub hk rfl) ?_
    | with_reducible refine Keeps.each ?_ ?_
    | intro _

theorem State.fbpSet_keeps {k : Nat} {r s : State} {state cause phase : Nat} (hk : k &&& 0 = 0)
    (h : Keeps k r s) : Keeps k r ((s.fbpSet state cause phase)) := by
  unfold State.fbpSet
  repeat' first
    | with_reducible assumption
    | with_reducible refine State.wr_keeps (keeps_sub hk rfl) ?_
    | intro _

theorem State.fbpPhase_keeps {k : Nat} {r s : State} {k' : Nat} (hk : k &&& 0 = 0)
    (h : Keeps k r s) : Keeps k r ((s.fbpPhase k')) := by
  unfold State.fbpPhase
  repeat' first
    | with_reducible assumption
    | with_reducible refine State.setFld_keeps (keeps_sub hk rfl) ?_
    | intro _

theorem State.fbpStopWith_keeps {k : Nat} {r s : State} {cause : Nat} (hk : k &&& 82180 = 82180)
    (h : Keeps k r s) : Keeps k r ((s.fbpStopWith cause)) := by
  unfold State.fbpStopWith
  dsimp only
  repeat' first
    | with_reducible assumption
    | with_reducible refine State.batonCancel_keeps (keeps_sub hk rfl) ?_
    | with_reducible refine State.batonRelease_keeps (keeps_sub hk rfl) ?_
    | with_reducible refine State.drawReserved_keeps (keeps_sub hk rfl) ?_
    | with_reducible refine State.fbpSet_keeps (keeps_sub hk rfl) ?_
    | with_reducible refine State.irqFbp_keeps (keeps_sub hk rfl) ?_
    | exact fun _ g => by dsimp only [FbpState.wf]; exact g.fbp
    | exact fun g _ => by dsimp only [FbpState.wf]; exact (h.inv g).fbp
    | intro _
    | with_reducible refine Keeps.set_fbp_field (keeps_sub hk rfl) ?_ ?_

theorem State.fbpFault_keeps {k : Nat} {r s : State} {cause stat cnt : Nat} (hk : k &&& 82308 = 82308)
    (h : Keeps k r s) : Keeps k r ((s.fbpFault cause stat cnt)) := by
  unfold State.fbpFault
  dsimp only
  repeat' first
    | with_reducible assumption
    | with_reducible refine State.count_keeps (keeps_sub hk rfl) ?_
    | with_reducible refine State.fbpStopWith_keeps (keeps_sub hk rfl) ?_
    | with_reducible refine State.raiseEv_keeps (keeps_sub hk rfl) ?_
    | with_reducible refine State.releaseOutputs_keeps (keeps_sub hk rfl) ?_
    | with_reducible refine State.setBit_keeps (keeps_sub hk rfl) ?_
    | intro _

theorem State.fbpWatchdog_keeps {k : Nat} {r s : State} {left : List (Nat × Word)} (hk : k &&& 90532 = 90532)
    (h : Keeps k r s) : Keeps k r ((s.fbpWatchdog left)) := by
  unfold State.fbpWatchdog
  dsimp only
  repeat' first
    | with_reducible assumption
    | with_reducible refine State.fbpFault_keeps (keeps_sub hk rfl) ?_
    | with_reducible refine State.injRan_keeps (keeps_sub hk rfl) ?_
    | with_reducible refine State.putData_keeps (keeps_sub hk rfl) ?_
    | exact fun _ g => by dsimp only [FbpState.wf]; exact g.fbp
    | exact fun g _ => by dsimp only [FbpState.wf]; exact (h.inv g).fbp
    | exact fun _ g => by dsimp only [FbpState.wf]; split <;> exact g.fbp
    | with_reducible refine Keeps.cond ?_ ?_
    | split
    | intro _
    | with_reducible refine Keeps.set_fbp (keeps_sub hk rfl) ?_ ?_

theorem State.fbpTrap_keeps {k : Nat} {r s : State} {inst : Nat} {k' : TrapKind} {left : List (Nat × Word)} (hk : k &&& 90532 = 90532)
    (h : Keeps k r s) : Keeps k r ((s.fbpTrap inst k' left)) := by
  unfold State.fbpTrap
  dsimp only
  repeat' first
    | with_reducible assumption
    | with_reducible refine State.fbpFault_keeps (keeps_sub hk rfl) ?_
    | with_reducible refine State.injRan_keeps (keeps_sub hk rfl) ?_
    | with_reducible refine State.putData_keeps (keeps_sub hk rfl) ?_
    | with_reducible refine State.wr_keeps (keeps_sub hk rfl) ?_
    | with_reducible refine Keeps.cond ?_ ?_
    | split
    | intro _

theorem State.fbpCommandStop_keeps {k : Nat} {r s : State} {left : List (Nat × Word)} (hk : k &&& 90404 = 90404)
    (h : Keeps k r s) : Keeps k r ((s.fbpCommandStop left)) := by
  unfold State.fbpCommandStop
  dsimp only
  repeat' first
    | with_reducible assumption
    | with_reducible refine State.fbpStopWith_keeps (keeps_sub hk rfl) ?_
    | with_reducible refine State.putData_keeps (keeps_sub hk rfl) ?_
    | with_reducible refine State.setBit_keeps (keeps_sub hk rfl) ?_
    | exact fun _ g => by dsimp only [FbpState.wf]; exact g.fbp
    | exact fun g _ => by dsimp only [FbpState.wf]; exact (h.inv g).fbp
    | exact fun _ g => by dsimp only [FbpState.wf]; split <;> exact g.fbp
    | with_reducible refine Keeps.cond ?_ ?_
    | split
    | intro _
    | with_reducible refine Keeps.set_fbp (keeps_sub hk rfl) ?_ ?_

theorem State.fbpCtrl_keeps {k : Nat} {r s : State} {v : Word} {left : List (Nat × Word)} (hk : k &&& 90404 = 90404)
    (h : Keeps k r s) : Keeps k r ((s.fbpCtrl v left)) := by
  unfold State.fbpCtrl
  repeat' first
    | with_reducible assumption
    | with_reducible refine State.fbpCommandStop_keeps (keeps_sub hk rfl) ?_
    | exact fun _ g => by dsimp only [FbpState.wf]; exact g.fbp
    | exact fun g _ => by dsimp only [FbpState.wf]; exact (h.inv g).fbp
    | exact fun _ g => by dsimp only [FbpState.wf]; split <;> exact g.fbp
    | with_reducible refine Keeps.cond ?_ ?_
    | split
    | intro _
    | with_reducible refine Keeps.set_fbp (keeps_sub hk rfl) ?_ ?_

theorem State.fbpRun_keeps {k : Nat} {r s : State} (hk : k &&& 65536 = 65536)
    (h : Keeps k r s) : Keeps k r (s.fbpRun) := by
  unfold State.fbpRun
  dsimp only
  repeat' first
    | with_reducible assumption
    | with_reducible refine State.count_keeps (keeps_sub hk rfl) ?_
    | with_reducible refine State.fbpSet_keeps (keeps_sub hk rfl) ?_
    | exact fun _ g => by dsimp only [FbpState.wf]; exact g.fbp
    | exact fun g _ => by dsimp only [FbpState.wf]; exact (h.inv g).fbp
    | intro _
    | with_reducible refine Keeps.set_fbp (keeps_sub hk rfl) ?_ ?_

theorem State.holdSafe_keeps {k : Nat} {r s : State} {on : Bool} (hk : k &&& 65536 = 65536)
    (h : Keeps k r s) : Keeps k r ((s.holdSafe on)) := by
  unfold State.holdSafe
  repeat' first
    | with_reducible assumption
    | exact fun _ g => by dsimp only [FbpState.wf]; exact g.fbp
    | exact fun g _ => by dsimp only [FbpState.wf]; exact (h.inv g).fbp
    | intro _
    | with_reducible refine Keeps.set_fbp (keeps_sub hk rfl) ?_ ?_

theorem State.fbpStart_keeps {k : Nat} {r s : State} {passed : Bool} (hk : k &&& 65536 = 65536)
    (h : Keeps k r s) : Keeps k r ((s.fbpStart passed)) := by
  unfold State.fbpStart
  dsimp only
  repeat' first
    | with_reducible assumption
    | with_reducible refine State.fbpRun_keeps (keeps_sub hk rfl) ?_
    | with_reducible refine State.fbpSet_keeps (keeps_sub hk rfl) ?_
    | with_reducible refine State.holdSafe_keeps (keeps_sub hk rfl) ?_
    | exact fun _ g => by dsimp only [FbpState.wf]; exact g.fbp
    | exact fun g _ => by dsimp only [FbpState.wf]; exact (h.inv g).fbp
    | exact fun _ g => by dsimp only [FbpState.wf]; split <;> exact g.fbp
    | with_reducible refine Keeps.cond ?_ ?_
    | split
    | intro _
    | with_reducible refine Keeps.set_fbp (keeps_sub hk rfl) ?_ ?_

theorem State.fbpBoundary_keeps {k : Nat} {r s : State} (hk : k &&& 65536 = 65536)
    (h : Keeps k r s) : Keeps k r (s.fbpBoundary) := by
  unfold State.fbpBoundary
  dsimp only
  repeat' first
    | with_reducible assumption
    | exact fun x g => ⟨State.coldData_wf _ _, g.fbp.2⟩
    | with_reducible refine State.fbpRun_keeps (keeps_sub hk rfl) ?_
    | exact fun _ g => by dsimp only [FbpState.wf]; exact g.fbp
    | exact fun g _ => by dsimp only [FbpState.wf]; exact (h.inv g).fbp
    | exact fun _ g => by dsimp only [FbpState.wf]; split <;> exact g.fbp
    | with_reducible refine Keeps.cond ?_ ?_
    | split
    | intro _
    | with_reducible refine Keeps.set_fbp (keeps_sub hk rfl) ?_ ?_

theorem State.idwApply_keeps {k : Nat} {r s : State} (hk : k &&& 73760 = 73760)
    (h : Keeps k r s) : Keeps k r (s.idwApply) := by
  unfold State.idwApply
  dsimp only
  repeat' first
    | with_reducible assumption
    | with_reducible refine State.putData_keeps (keeps_sub hk rfl) ?_
    | with_reducible refine State.wr_keeps (keeps_sub hk rfl) ?_
    | with_reducible refine Keeps.each ?_ ?_
    | with_reducible refine Keeps.cond ?_ ?_
    | split
    | intro _

theorem State.fbpCycleStart_keeps {k : Nat} {r s : State} (hk : k &&& 73760 = 73760)
    (h : Keeps k r s) : Keeps k r (s.fbpCycleStart) := by
  unfold State.fbpCycleStart
  dsimp only
  repeat' first
    | with_reducible assumption
    | exact fun x g => ⟨g.fbp.1, g.fbp.2.1, State.latchInputs_wf _⟩
    | with_reducible refine State.count_keeps (keeps_sub hk rfl) ?_
    | with_reducible refine State.fbpPhase_keeps (keeps_sub hk rfl) ?_
    | with_reducible refine State.idwApply_keeps (keeps_sub hk rfl) ?_
    | with_reducible refine State.wr_keeps (keeps_sub hk rfl) ?_
    | exact fun _ g => by dsimp only [FbpState.wf]; exact g.fbp
    | exact fun g _ => by dsimp only [FbpState.wf]; exact (h.inv g).fbp
    | exact fun _ g => by dsimp only [FbpState.wf]; split <;> exact g.fbp
    | with_reducible refine Keeps.cond ?_ ?_
    | split
    | intro _
    | with_reducible refine Keeps.set_fbp (keeps_sub hk rfl) ?_ ?_

theorem State.measCopy_keeps {k : Nat} {r s : State} (hk : k &&& 0 = 0)
    (h : Keeps k r s) : Keeps k r (s.measCopy) := by
  unfold State.measCopy
  dsimp only
  repeat' first
    | with_reducible assumption
    | with_reducible refine State.count_keeps (keeps_sub hk rfl) ?_
    | with_reducible refine State.wr_keeps (keeps_sub hk rfl) ?_
    | with_reducible refine Keeps.each ?_ ?_
    | with_reducible refine Keeps.cond ?_ ?_
    | split
    | intro _

theorem State.outShow_keeps {k : Nat} {r s : State} {o : OutImage} (hk : k &&& 81936 = 81936)
    (h : Keeps k r s) : Keeps k r ((s.outShow o)) := by
  unfold State.outShow
  dsimp only
  repeat' first
    | with_reducible assumption
    | with_reducible refine State.aoDrive_keeps (keeps_sub hk rfl) ?_
    | with_reducible refine Keeps.each ?_ ?_
    | exact fun _ g => by dsimp only [FbpState.wf]; exact g.fbp
    | exact fun g _ => by dsimp only [FbpState.wf]; exact (h.inv g).fbp
    | exact fun _ g => by dsimp only [ImgState.wf]; exact g.img
    | exact fun g _ => by dsimp only [ImgState.wf]; exact (h.inv g).img
    | intro _
    | with_reducible refine Keeps.set_fbp_field (keeps_sub hk rfl) ?_ ?_

theorem State.doWait_keeps {k : Nat} {r s : State} {l : List Nat} (hk : k &&& 16384 = 16384)
    (h : Keeps k r s) : Keeps k r ((s.doWait l)) := by
  unfold State.doWait
  repeat' first
    | with_reducible assumption
    | intro _
    | with_reducible refine Keeps.set_field (keeps_sub hk rfl) ?_

theorem State.applyNow_keeps {k : Nat} {r s : State} {o : OutImage} {group : List Nat} (hk : k &&& 8470800 = 8470800)
    (h : Keeps k r s) : Keeps k r ((s.applyNow o group)) := by
  unfold State.applyNow
  dsimp only
  repeat' first
    | with_reducible assumption
    | exact fun x g => ⟨g.fbp.1, g.fbp.1, g.fbp.2.2⟩
    | with_reducible refine State.canApply_keeps (keeps_sub hk rfl) ?_
    | with_reducible refine State.count_keeps (keeps_sub hk rfl) ?_
    | with_reducible refine State.doWait_keeps (keeps_sub hk rfl) ?_
    | with_reducible refine State.fbpPhase_keeps (keeps_sub hk rfl) ?_
    | with_reducible refine State.irqFbp_keeps (keeps_sub hk rfl) ?_
    | with_reducible refine State.measCopy_keeps (keeps_sub hk rfl) ?_
    | with_reducible refine State.outShow_keeps (keeps_sub hk rfl) ?_
    | with_reducible refine State.setBit_keeps (keeps_sub hk rfl) ?_
    | with_reducible refine State.wr_keeps (keeps_sub hk rfl) ?_
    | with_reducible refine Keeps.only ?_ ?_
    | with_reducible refine Keeps.each ?_ ?_
    | exact fun _ g => by dsimp only [FbpState.wf]; exact g.fbp
    | exact fun g _ => by dsimp only [FbpState.wf]; exact (h.inv g).fbp
    | exact fun _ g => by dsimp only [FbpState.wf]; split <;> exact g.fbp
    | with_reducible refine Keeps.cond ?_ ?_
    | split
    | intro _
    | with_reducible refine Keeps.set_fbp (keeps_sub hk rfl) ?_ ?_

theorem State.fbpTick_keeps {k : Nat} {r s : State} (hk : k &&& 8454144 = 8454144)
    (h : Keeps k r s) : Keeps k r (s.fbpTick) := by
  unfold State.fbpTick
  dsimp only
  repeat' first
    | with_reducible assumption
    | with_reducible refine State.charge_keeps (keeps_sub hk rfl) ?_
    | exact fun _ g => by dsimp only [FbpState.wf]; exact g.fbp
    | exact fun g _ => by dsimp only [FbpState.wf]; exact (h.inv g).fbp
    | exact fun _ g => by dsimp only [FbpState.wf]; split <;> exact g.fbp
    | with_reducible refine Keeps.cond ?_ ?_
    | split
    | intro _
    | with_reducible refine Keeps.set_fbp (keeps_sub hk rfl) ?_ ?_

theorem State.fbpApply_keeps {k : Nat} {r s : State} {executed timedOut : Bool} (hk : k &&& 8479028 = 8479028)
    (h : Keeps k r s) : Keeps k r (s.fbpApply executed timedOut) := by
  unfold State.fbpApply State.onlyIf
  dsimp only
  repeat' first
    | with_reducible assumption
    | with_reducible refine State.applyNow_keeps (keeps_sub hk rfl) ?_
    | with_reducible refine State.batonCancel_keeps (keeps_sub hk rfl) ?_
    | with_reducible refine State.batonRequest_keeps (keeps_sub hk rfl) ?_
    | with_reducible refine State.fbpPhase_keeps (keeps_sub hk rfl) ?_
    | with_reducible refine State.fbpTick_keeps (keeps_sub hk rfl) ?_
    | with_reducible refine State.putData_keeps (keeps_sub hk rfl) ?_
    | exact fun _ g => by dsimp only [FbpState.wf]; exact g.fbp
    | exact fun g _ => by dsimp only [FbpState.wf]; exact (h.inv g).fbp
    | exact fun _ g => by dsimp only [FbpState.wf]; split <;> exact g.fbp
    | with_reducible refine Keeps.cond ?_ ?_
    | split
    | intro _
    | with_reducible refine Keeps.set_fbp (keeps_sub hk rfl) ?_ ?_

theorem State.fbpGranted_keeps {k : Nat} {r s : State} (hk : k &&& 8470804 = 8470804)
    (h : Keeps k r s) : Keeps k r (s.fbpGranted) := by
  unfold State.fbpGranted
  repeat' first
    | with_reducible assumption
    | with_reducible refine State.applyNow_keeps (keeps_sub hk rfl) ?_
    | with_reducible refine State.batonRelease_keeps (keeps_sub hk rfl) ?_
    | split
    | intro _

theorem State.loadFbprog_keeps {k : Nat} {r s : State} {keep : List Byte} (hk : k &&& 65536 = 65536)
    (h : Keeps k r s) : Keeps k r ((s.loadFbprog keep)) := by
  unfold State.loadFbprog
  dsimp only
  repeat' first
    | with_reducible assumption
    | exact fun x g => ⟨State.coldData_wf _ _, State.coldData_wf _ _, rfl⟩
    | with_reducible refine State.wr_keeps (keeps_sub hk rfl) ?_
    | exact fun _ g => by dsimp only [FbpState.wf]; exact g.fbp
    | exact fun g _ => by dsimp only [FbpState.wf]; exact (h.inv g).fbp
    | intro _
    | with_reducible refine Keeps.set_fbp (keeps_sub hk rfl) ?_ ?_

end Sys2Proof.Machine
end

