-- ==== Sys2Proof/Laws/KeepsLoopOps.lean ====
section
/-!
SUPPORT. Laws/KeepsLoopOps.lean: what the operations of Machine/LoopOps.lean keep (`Keeps`).
-/

namespace Sys2Proof.Machine

theorem State.putLoop_keeps {k : Nat} {r s : State} {n : Nat} {x : LoopRun} (hk : k &&& 32768 = 32768)
    (h : Keeps k r s) : Keeps k r ((s.putLoop n x)) := by
  unfold State.putLoop
  repeat' first
    | with_reducible assumption
    | intro _
    | with_reducible refine Keeps.set_loops (keeps_sub hk rfl) ?_

theorem State.loopRestart_keeps {k : Nat} {r s : State} {n : Nat} (hk : k &&& 32768 = 32768)
    (h : Keeps k r s) : Keeps k r ((s.loopRestart n)) := by
  unfold State.loopRestart
  repeat' first
    | with_reducible assumption
    | with_reducible refine State.putLoop_keeps (keeps_sub hk rfl) ?_
    | intro _

theorem State.loopFlag_keeps {k : Nat} {r s : State} {n i : Nat} (hk : k &&& 0 = 0)
    (h : Keeps k r s) : Keeps k r ((s.loopFlag n i)) := by
  unfold State.loopFlag
  repeat' first
    | with_reducible assumption
    | with_reducible refine State.setBit_keeps (keeps_sub hk rfl) ?_
    | intro _

theorem State.loopSwap_keeps {k : Nat} {r s : State} {n : Nat} (hk : k &&& 256 = 256)
    (h : Keeps k r s) : Keeps k r ((s.loopSwap n)) := by
  unfold State.loopSwap
  dsimp only
  repeat' first
    | with_reducible assumption
    | with_reducible refine State.irqLoop_keeps (keeps_sub hk rfl) ?_
    | with_reducible refine State.loopFlag_keeps (keeps_sub hk rfl) ?_
    | with_reducible refine State.setBit_keeps (keeps_sub hk rfl) ?_
    | with_reducible refine Keeps.cond ?_ ?_
    | split
    | intro _

theorem State.loopToAout_keeps {k : Nat} {r s : State} {k' : Nat} {y : Int} (hk : k &&& 16384 = 16384)
    (h : Keeps k r s) : Keeps k r ((s.loopToAout k' y).1) := by
  unfold State.loopToAout
  dsimp only
  repeat' first
    | with_reducible assumption
    | with_reducible refine State.aoDrive_keeps (keeps_sub hk rfl) ?_
    | with_reducible refine Keeps.cond ?_ ?_
    | split
    | intro _

theorem State.loopToCan_keeps {k : Nat} {r s : State} {k' : Nat} {y : Int} (hk : k &&& 8388608 = 8388608)
    (h : Keeps k r s) : Keeps k r ((s.loopToCan k' y).1) := by
  unfold State.loopToCan
  dsimp only
  repeat' first
    | with_reducible assumption
    | with_reducible refine State.sigInsert_keeps (keeps_sub hk rfl) ?_
    | with_reducible refine State.sigReady_keeps (keeps_sub hk rfl) ?_
    | split
    | intro _

theorem State.loopIssue_keeps {k : Nat} {r s : State} {r' : LoopRec} {y : Int} (hk : k &&& 8404992 = 8404992)
    (h : Keeps k r s) : Keeps k r ((s.loopIssue r' y).1) := by
  unfold State.loopIssue
  dsimp only
  repeat' first
    | with_reducible assumption
    | with_reducible refine State.loopToAout_keeps (keeps_sub hk rfl) ?_
    | with_reducible refine State.loopToCan_keeps (keeps_sub hk rfl) ?_
    | with_reducible refine State.wr_keeps (keeps_sub hk rfl) ?_
    | with_reducible refine Keeps.cond ?_ ?_
    | split
    | intro _

theorem State.loopDelay_keeps {k : Nat} {r s : State} {n delay : Nat} (hk : k &&& 256 = 256)
    (h : Keeps k r s) : Keeps k r ((s.loopDelay n delay)) := by
  unfold State.loopDelay
  dsimp only
  repeat' first
    | with_reducible assumption
    | with_reducible refine State.count_keeps (keeps_sub hk rfl) ?_
    | with_reducible refine State.injRan_keeps (keeps_sub hk rfl) ?_
    | with_reducible refine State.irqLoop_keeps (keeps_sub hk rfl) ?_
    | with_reducible refine State.loopFlag_keeps (keeps_sub hk rfl) ?_
    | with_reducible refine State.setBit_keeps (keeps_sub hk rfl) ?_
    | with_reducible refine State.wr_keeps (keeps_sub hk rfl) ?_
    | with_reducible refine Keeps.only ?_ ?_
    | intro _

theorem State.loopSats_keeps {k : Nat} {r s : State} {n : Nat} {c : Calc} (hk : k &&& 256 = 256)
    (h : Keeps k r s) : Keeps k r ((s.loopSats n c)) := by
  unfold State.loopSats
  dsimp only
  repeat' first
    | with_reducible assumption
    | with_reducible refine State.countN_keeps (keeps_sub hk rfl) ?_
    | with_reducible refine State.irqLoop_keeps (keeps_sub hk rfl) ?_
    | with_reducible refine State.loopFlag_keeps (keeps_sub hk rfl) ?_
    | with_reducible refine State.setBit_keeps (keeps_sub hk rfl) ?_
    | with_reducible refine Keeps.only ?_ ?_
    | intro _
    | with_reducible refine Keeps.set_free ?_

theorem State.loopBad_keeps {k : Nat} {r s : State} {n : Nat} {r' : LoopRec} (hk : k &&& 16644 = 16644)
    (h : Keeps k r s) : Keeps k r ((s.loopBad n r')) := by
  unfold State.loopBad
  dsimp only
  repeat' first
    | with_reducible assumption
    | with_reducible refine State.aoRelease_keeps (keeps_sub hk rfl) ?_
    | with_reducible refine State.drawReserved_keeps (keeps_sub hk rfl) ?_
    | with_reducible refine State.irqLoop_keeps (keeps_sub hk rfl) ?_
    | with_reducible refine State.loopFlag_keeps (keeps_sub hk rfl) ?_
    | with_reducible refine State.setBit_keeps (keeps_sub hk rfl) ?_
    | with_reducible refine Keeps.only ?_ ?_
    | intro _

theorem State.loopCharge_keeps {k : Nat} {r s : State} (hk : k &&& 8388608 = 8388608)
    (h : Keeps k r s) : Keeps k r (s.loopCharge) := by
  unfold State.loopCharge
  dsimp only
  repeat' first
    | with_reducible assumption
    | with_reducible refine State.charge_keeps (keeps_sub hk rfl) ?_
    | with_reducible refine State.freeBits_keeps (keeps_sub hk rfl) ?_
    | intro _

theorem State.loopEval_keeps {k : Nat} {r s : State} {n : Nat} {r' : LoopRec} {pv : Int} {c : Calc} {delay : Nat} (hk : k &&& 8438016 = 8438016)
    (h : Keeps k r s) : Keeps k r ((s.loopEval n r' pv c delay)) := by
  unfold State.loopEval
  dsimp only
  repeat' first
    | with_reducible assumption
    | with_reducible refine State.count_keeps (keeps_sub hk rfl) ?_
    | with_reducible refine State.loopCharge_keeps (keeps_sub hk rfl) ?_
    | with_reducible refine State.loopDelay_keeps (keeps_sub hk rfl) ?_
    | with_reducible refine State.loopFlag_keeps (keeps_sub hk rfl) ?_
    | with_reducible refine State.loopIssue_keeps (keeps_sub hk rfl) ?_
    | with_reducible refine State.loopSats_keeps (keeps_sub hk rfl) ?_
    | with_reducible refine State.putLoop_keeps (keeps_sub hk rfl) ?_
    | with_reducible refine State.setBit_keeps (keeps_sub hk rfl) ?_
    | with_reducible refine State.wr_keeps (keeps_sub hk rfl) ?_
    | with_reducible refine Keeps.only ?_ ?_
    | with_reducible refine Keeps.cond ?_ ?_
    | split
    | intro _

theorem State.loopSample_keeps {k : Nat} {r s : State} {n : Nat} {busy : Bool} {delay : Nat} (hk : k &&& 8438020 = 8438020)
    (h : Keeps k r s) : Keeps k r ((s.loopSample n busy delay)) := by
  unfold State.loopSample
  dsimp only
  repeat' first
    | with_reducible assumption
    | with_reducible refine State.count_keeps (keeps_sub hk rfl) ?_
    | with_reducible refine State.injRan_keeps (keeps_sub hk rfl) ?_
    | with_reducible refine State.irqLoop_keeps (keeps_sub hk rfl) ?_
    | with_reducible refine State.loopBad_keeps (keeps_sub hk rfl) ?_
    | with_reducible refine State.loopEval_keeps (keeps_sub hk rfl) ?_
    | with_reducible refine State.loopFlag_keeps (keeps_sub hk rfl) ?_
    | with_reducible refine State.loopSats_keeps (keeps_sub hk rfl) ?_
    | with_reducible refine State.loopSwap_keeps (keeps_sub hk rfl) ?_
    | with_reducible refine State.putLoop_keeps (keeps_sub hk rfl) ?_
    | with_reducible refine State.setBit_keeps (keeps_sub hk rfl) ?_
    | with_reducible refine State.wr_keeps (keeps_sub hk rfl) ?_
    | with_reducible refine Keeps.only ?_ ?_
    | with_reducible refine Keeps.cond ?_ ?_
    | split
    | intro _

theorem State.loopRefused_keeps {k : Nat} {r s : State} {shown : Bool} (hk : k &&& 0 = 0)
    (h : Keeps k r s) : Keeps k r ((s.loopRefused shown)) := by
  unfold State.loopRefused
  repeat' first
    | with_reducible assumption
    | with_reducible refine State.count_keeps (keeps_sub hk rfl) ?_
    | with_reducible refine State.setBit_keeps (keeps_sub hk rfl) ?_
    | with_reducible refine Keeps.only ?_ ?_
    | intro _

theorem State.loopCtrl_keeps {k : Nat} {r s : State} {n : Nat} {v : Word} (hk : k &&& 32768 = 32768)
    (h : Keeps k r s) : Keeps k r ((s.loopCtrl n v)) := by
  unfold State.loopCtrl
  dsimp only
  repeat' first
    | with_reducible assumption
    | with_reducible refine State.loopRestart_keeps (keeps_sub hk rfl) ?_
    | with_reducible refine State.setBit_keeps (keeps_sub hk rfl) ?_
    | with_reducible refine Keeps.only ?_ ?_
    | intro _

theorem State.loopsStart_keeps {k : Nat} {r s : State} (hk : k &&& 32768 = 32768)
    (h : Keeps k r s) : Keeps k r (s.loopsStart) := by
  unfold State.loopsStart
  repeat' first
    | with_reducible assumption
    | with_reducible refine State.loopRestart_keeps (keeps_sub hk rfl) ?_
    | with_reducible refine State.setBit_keeps (keeps_sub hk rfl) ?_
    | with_reducible refine Keeps.each ?_ ?_
    | intro _

end Sys2Proof.Machine
end

