-- ==== Sys2Proof/Laws/KeepsMtrOps.lean ====
section
/-!
SUPPORT. Laws/KeepsMtrOps.lean: what the operations of Machine/MtrOps.lean keep (`Keeps`).
-/

namespace Sys2Proof.Machine

theorem State.putOpen_keeps {k : Nat} {r s : State} {a : Nat} {q : Rat} (hk : k &&& 0 = 0)
    (h : Keeps k r s) : Keeps k r ((s.putOpen a q)) := by
  unfold State.putOpen
  dsimp only
  repeat' first
    | with_reducible assumption
    | with_reducible refine State.roundOpen_keeps (keeps_sub hk rfl) ?_
    | with_reducible refine State.wr_keeps (keeps_sub hk rfl) ?_
    | intro _

theorem State.putRoot_keeps {k : Nat} {r s : State} {a : Nat} {q : Rat} (hk : k &&& 0 = 0)
    (h : Keeps k r s) : Keeps k r ((s.putRoot a q)) := by
  unfold State.putRoot
  dsimp only
  repeat' first
    | with_reducible assumption
    | with_reducible refine State.sqrtOpen_keeps (keeps_sub hk rfl) ?_
    | with_reducible refine State.wr_keeps (keeps_sub hk rfl) ?_
    | intro _

theorem State.putPf_keeps {k : Nat} {r s : State} {a : Nat} {x : PhaseLap} (hk : k &&& 0 = 0)
    (h : Keeps k r s) : Keeps k r ((s.putPf a x)) := by
  unfold State.putPf
  dsimp only
  repeat' first
    | with_reducible assumption
    | with_reducible refine State.sqrtOpen_keeps (keeps_sub hk rfl) ?_
    | with_reducible refine State.wr_keeps (keeps_sub hk rfl) ?_
    | with_reducible refine Keeps.cond ?_ ?_
    | split
    | intro _

theorem State.putPhase_keeps {k : Nat} {r s : State} {f p : Nat} {x : PhaseLap} (hk : k &&& 0 = 0)
    (h : Keeps k r s) : Keeps k r ((s.putPhase f p x)) := by
  unfold State.putPhase
  dsimp only
  repeat' first
    | with_reducible assumption
    | with_reducible refine State.putOpen_keeps (keeps_sub hk rfl) ?_
    | with_reducible refine State.putPf_keeps (keeps_sub hk rfl) ?_
    | with_reducible refine State.putRoot_keeps (keeps_sub hk rfl) ?_
    | with_reducible refine State.setFld_keeps (keeps_sub hk rfl) ?_
    | intro _

theorem State.mtrWrap_keeps {k : Nat} {r s : State} {stat src k' : Nat} (hk : k &&& 384 = 384)
    (h : Keeps k r s) : Keeps k r ((s.mtrWrap stat src k')) := by
  unfold State.mtrWrap
  repeat' first
    | with_reducible assumption
    | with_reducible refine State.count_keeps (keeps_sub hk rfl) ?_
    | with_reducible refine State.irqMtr_keeps (keeps_sub hk rfl) ?_
    | with_reducible refine State.raiseEv_keeps (keeps_sub hk rfl) ?_
    | with_reducible refine State.setBit_keeps (keeps_sub hk rfl) ?_
    | with_reducible refine Keeps.cond ?_ ?_
    | split
    | intro _

theorem State.addEnergy_keeps {k : Nat} {r s : State} {f k' amount : Nat} (hk : k &&& 262528 = 262528)
    (h : Keeps k r s) : Keeps k r ((s.addEnergy f k' amount)) := by
  unfold State.addEnergy
  dsimp only
  repeat' first
    | with_reducible assumption
    | with_reducible refine State.mtrWrap_keeps (keeps_sub hk rfl) ?_
    | with_reducible refine Keeps.only ?_ ?_
    | intro _
    | with_reducible refine Keeps.set_mtr (keeps_sub hk rfl) ?_

theorem State.addTherm_keeps {k : Nat} {r s : State} {t j amount : Nat} (hk : k &&& 262528 = 262528)
    (h : Keeps k r s) : Keeps k r ((s.addTherm t j amount)) := by
  unfold State.addTherm
  dsimp only
  repeat' first
    | with_reducible assumption
    | with_reducible refine State.mtrWrap_keeps (keeps_sub hk rfl) ?_
    | with_reducible refine Keeps.only ?_ ?_
    | intro _
    | with_reducible refine Keeps.set_mtr (keeps_sub hk rfl) ?_

theorem State.magOpen_keeps {k : Nat} {r s : State} {q : Rat} (hk : k &&& 0 = 0)
    (h : Keeps k r s) : Keeps k r ((s.magOpen q).2) := by
  unfold State.magOpen
  dsimp only
  repeat' first
    | with_reducible assumption
    | with_reducible refine State.roundOpen_keeps (keeps_sub hk rfl) ?_
    | with_reducible refine Keeps.cond ?_ ?_
    | split
    | intro _

theorem State.addSigned_keeps {k : Nat} {r s : State} {f k' : Nat} {e : Rat} (hk : k &&& 262528 = 262528)
    (h : Keeps k r s) : Keeps k r ((s.addSigned f k' e)) := by
  unfold State.addSigned
  dsimp only
  repeat' first
    | with_reducible assumption
    | with_reducible refine State.addEnergy_keeps (keeps_sub hk rfl) ?_
    | with_reducible refine State.magOpen_keeps (keeps_sub hk rfl) ?_
    | with_reducible refine Keeps.cond ?_ ?_
    | split
    | intro _

theorem State.phaseEnergy_keeps {k : Nat} {r s : State} {f p n : Nat} {x : PhaseLap} (hk : k &&& 262528 = 262528)
    (h : Keeps k r s) : Keeps k r ((s.phaseEnergy f p n x)) := by
  unfold State.phaseEnergy
  dsimp only
  repeat' first
    | with_reducible assumption
    | with_reducible refine State.addEnergy_keeps (keeps_sub hk rfl) ?_
    | with_reducible refine State.addSigned_keeps (keeps_sub hk rfl) ?_
    | with_reducible refine State.sqrtOpen_keeps (keeps_sub hk rfl) ?_
    | with_reducible refine Keeps.cond ?_ ?_
    | split
    | intro _

theorem State.totalEnergy_keeps {k : Nat} {r s : State} {f n : Nat} {l : List PhaseLap} (hk : k &&& 262528 = 262528)
    (h : Keeps k r s) : Keeps k r ((s.totalEnergy f n l)) := by
  unfold State.totalEnergy
  dsimp only
  refine State.addEnergy_keeps (keeps_sub hk rfl) ?_
  suffices key : ∀ (a : List PhaseLap) (u : Nat × State), Keeps k r u.2 → Keeps k r (a.foldl (fun (u : Nat × State) x =>
      (u.1 + (u.2.sqrtOpen (x.s2 * lapEnergy n 1 * lapEnergy n 1)).1, (u.2.sqrtOpen (x.s2 * lapEnergy n 1 * lapEnergy n 1)).2)) u).2 from
    key _ _ (State.addSigned_keeps (keeps_sub hk rfl) (State.addSigned_keeps (keeps_sub hk rfl) h))
  intro a
  induction a with
  | nil => exact fun _ hu => hu
  | cons x t ih => exact fun u hu => ih _ (keeps_snd (State.sqrtOpen_keeps (keeps_sub hk rfl) hu))

theorem State.phaseUnmeas_keeps {k : Nat} {r s : State} {f p n : Nat} {x : PhaseLap} (hk : k &&& 262528 = 262528)
    (h : Keeps k r s) : Keeps k r ((s.phaseUnmeas f p n x)) := by
  unfold State.phaseUnmeas
  dsimp only
  repeat' first
    | with_reducible assumption
    | with_reducible refine State.addEnergy_keeps (keeps_sub hk rfl) ?_
    | with_reducible refine State.count_keeps (keeps_sub hk rfl) ?_
    | with_reducible refine State.magOpen_keeps (keeps_sub hk rfl) ?_
    | with_reducible refine Keeps.cond ?_ ?_
    | split
    | intro _
    | with_reducible refine Keeps.set_mtr (keeps_sub hk rfl) ?_

theorem State.putTotals_keeps {k : Nat} {r s : State} {f : Nat} {l : List PhaseLap} (hk : k &&& 0 = 0)
    (h : Keeps k r s) : Keeps k r ((s.putTotals f l)) := by
  unfold State.putTotals
  dsimp only
  repeat' first
    | with_reducible assumption
    | with_reducible refine State.putOpen_keeps (keeps_sub hk rfl) ?_
    | intro _

theorem State.feederLap_keeps {k : Nat} {r s : State} {f : Nat} {l : FeederSums} (hk : k &&& 262528 = 262528)
    (h : Keeps k r s) : Keeps k r ((s.feederLap f l)) := by
  unfold State.feederLap
  dsimp only
  repeat' first
    | with_reducible assumption
    | with_reducible refine State.phaseEnergy_keeps (keeps_sub hk rfl) ?_
    | with_reducible refine State.phaseUnmeas_keeps (keeps_sub hk rfl) ?_
    | with_reducible refine State.putPhase_keeps (keeps_sub hk rfl) ?_
    | with_reducible refine State.putTotals_keeps (keeps_sub hk rfl) ?_
    | with_reducible refine State.totalEnergy_keeps (keeps_sub hk rfl) ?_
    | with_reducible refine Keeps.each ?_ ?_
    | with_reducible refine Keeps.cond ?_ ?_
    | split
    | intro _

theorem State.mtrSegs_keeps {k : Nat} {r s : State} (hk : k &&& 0 = 0)
    (h : Keeps k r s) : Keeps k r (s.mtrSegs) := by
  unfold State.mtrSegs
  repeat' first
    | with_reducible assumption
    | with_reducible refine State.setFld_keeps (keeps_sub hk rfl) ?_
    | with_reducible refine Keeps.each ?_ ?_
    | intro _

theorem State.modOnset_keeps {k : Nat} {r s : State} {f c : Nat} {k' : ModFault} (hk : k &&& 384 = 384)
    (h : Keeps k r s) : Keeps k r ((s.modOnset f c k')) := by
  unfold State.modOnset
  repeat' first
    | with_reducible assumption
    | with_reducible refine State.count_keeps (keeps_sub hk rfl) ?_
    | with_reducible refine State.irqMtr_keeps (keeps_sub hk rfl) ?_
    | with_reducible refine State.raiseEv_keeps (keeps_sub hk rfl) ?_
    | with_reducible refine State.setBit_keeps (keeps_sub hk rfl) ?_
    | intro _

theorem State.chFault_keeps {k : Nat} {r s : State} {f : Nat} (hk : k &&& 0 = 0)
    (h : Keeps k r s) : Keeps k r ((s.chFault f)) := by
  unfold State.chFault
  repeat' first
    | with_reducible assumption
    | with_reducible refine State.setBit_keeps (keeps_sub hk rfl) ?_
    | with_reducible refine Keeps.each ?_ ?_
    | intro _

theorem State.freqLost_keeps {k : Nat} {r s : State} {f : Nat} (hk : k &&& 0 = 0)
    (h : Keeps k r s) : Keeps k r ((s.freqLost f)) := by
  unfold State.freqLost
  dsimp only
  repeat' first
    | with_reducible assumption
    | with_reducible refine State.setBit_keeps (keeps_sub hk rfl) ?_
    | with_reducible refine State.wr_keeps (keeps_sub hk rfl) ?_
    | with_reducible refine Keeps.each ?_ ?_
    | intro _

theorem State.modFault_keeps {k : Nat} {r s : State} {f c : Nat} {k' : ModFault} {present : Bool} (hk : k &&& 262532 = 262532)
    (h : Keeps k r s) : Keeps k r ((s.modFault f c k' present)) := by
  unfold State.modFault
  dsimp only
  repeat' first
    | with_reducible assumption
    | with_reducible refine State.chFault_keeps (keeps_sub hk rfl) ?_
    | with_reducible refine State.feederCheck_keeps (keeps_sub hk rfl) ?_
    | with_reducible refine State.freqLost_keeps (keeps_sub hk rfl) ?_
    | with_reducible refine State.modOnset_keeps (keeps_sub hk rfl) ?_
    | with_reducible refine Keeps.only ?_ ?_
    | with_reducible refine Keeps.cond ?_ ?_
    | split
    | intro _
    | with_reducible refine Keeps.set_mtr (keeps_sub hk rfl) ?_

theorem State.stuckInject_keeps {k : Nat} {r s : State} (hk : k &&& 262528 = 262528)
    (h : Keeps k r s) : Keeps k r (s.stuckInject) := by
  unfold State.stuckInject
  dsimp only
  repeat' first
    | with_reducible assumption
    | with_reducible refine State.injRan_keeps (keeps_sub hk rfl) ?_
    | with_reducible refine State.modOnset_keeps (keeps_sub hk rfl) ?_
    | with_reducible refine Keeps.cond ?_ ?_
    | split
    | intro _
    | with_reducible refine Keeps.set_mtr (keeps_sub hk rfl) ?_

theorem State.modLap_keeps {k : Nat} {r s : State} (hk : k &&& 262144 = 262144)
    (h : Keeps k r s) : Keeps k r (s.modLap) := by
  unfold State.modLap
  repeat' first
    | with_reducible assumption
    | intro _
    | with_reducible refine Keeps.set_mtr (keeps_sub hk rfl) ?_

theorem State.thermEnd_keeps {k : Nat} {r s : State} {t ns : Nat} (hk : k &&& 262528 = 262528)
    (h : Keeps k r s) : Keeps k r ((s.thermEnd t ns)) := by
  unfold State.thermEnd
  dsimp only
  repeat' first
    | with_reducible assumption
    | with_reducible refine State.addTherm_keeps (keeps_sub hk rfl) ?_
    | with_reducible refine State.count_keeps (keeps_sub hk rfl) ?_
    | with_reducible refine State.injRan_keeps (keeps_sub hk rfl) ?_
    | with_reducible refine State.irqMtr_keeps (keeps_sub hk rfl) ?_
    | with_reducible refine State.magOpen_keeps (keeps_sub hk rfl) ?_
    | with_reducible refine State.nextFree_keeps (keeps_sub hk rfl) ?_
    | with_reducible refine State.putOpen_keeps (keeps_sub hk rfl) ?_
    | with_reducible refine State.setBit_keeps (keeps_sub hk rfl) ?_
    | with_reducible refine State.wr_keeps (keeps_sub hk rfl) ?_
    | with_reducible refine Keeps.only ?_ ?_
    | with_reducible refine Keeps.cond ?_ ?_
    | split
    | intro _

theorem State.mtrToWarm_keeps {k : Nat} {r s : State} (hk : k &&& 8224 = 8224)
    (h : Keeps k r s) : Keeps k r (s.mtrToWarm) := by
  unfold State.mtrToWarm
  repeat' first
    | with_reducible assumption
    | with_reducible refine State.sramPut_keeps (keeps_sub hk rfl) ?_
    | intro _

theorem State.mtrCommit_keeps {k : Nat} {r s : State} {epoch : Nat} (hk : k &&& 270624 = 270624)
    (h : Keeps k r s) : Keeps k r ((s.mtrCommit epoch)) := by
  unfold State.mtrCommit
  dsimp only
  repeat' first
    | with_reducible assumption
    | with_reducible refine State.irqMtr_keeps (keeps_sub hk rfl) ?_
    | with_reducible refine State.mtrSegs_keeps (keeps_sub hk rfl) ?_
    | with_reducible refine State.mtrToWarm_keeps (keeps_sub hk rfl) ?_
    | with_reducible refine State.wr_keeps (keeps_sub hk rfl) ?_
    | with_reducible refine Keeps.each ?_ ?_
    | with_reducible refine Keeps.cond ?_ ?_
    | split
    | intro _
    | with_reducible refine Keeps.set_mtr (keeps_sub hk rfl) ?_

theorem State.mtrSave_keeps {k : Nat} {r s : State} {ok : Bool} (hk : k &&& 8650752 = 8650752)
    (h : Keeps k r s) : Keeps k r ((s.mtrSave ok)) := by
  unfold State.mtrSave
  dsimp only
  repeat' first
    | with_reducible assumption
    | with_reducible refine State.charge_keeps (keeps_sub hk rfl) ?_
    | with_reducible refine State.count_keeps (keeps_sub hk rfl) ?_
    | with_reducible refine State.injRan_keeps (keeps_sub hk rfl) ?_
    | with_reducible refine State.setBit_keeps (keeps_sub hk rfl) ?_
    | with_reducible refine Keeps.cond ?_ ?_
    | split
    | intro _
    | with_reducible refine Keeps.set_mtr (keeps_sub hk rfl) ?_

theorem State.mtrPut_keeps {k : Nat} {r s : State} {energy therm errs : List Nat} (hk : k &&& 262144 = 262144)
    (h : Keeps k r s) : Keeps k r ((s.mtrPut energy therm errs)) := by
  unfold State.mtrPut
  repeat' first
    | with_reducible assumption
    | with_reducible refine State.wr_keeps (keeps_sub hk rfl) ?_
    | with_reducible refine Keeps.each ?_ ?_
    | intro _
    | with_reducible refine Keeps.set_mtr (keeps_sub hk rfl) ?_

theorem State.mtrRestored_keeps {k : Nat} {r s : State} {src lost : Nat} (hk : k &&& 0 = 0)
    (h : Keeps k r s) : Keeps k r ((s.mtrRestored src lost)) := by
  unfold State.mtrRestored
  repeat' first
    | with_reducible assumption
    | with_reducible refine State.wr_keeps (keeps_sub hk rfl) ?_
    | intro _

theorem State.mtrRestore_keeps {k : Nat} {r s : State} (hk : k &&& 262528 = 262528)
    (h : Keeps k r s) : Keeps k r (s.mtrRestore) := by
  unfold State.mtrRestore
  dsimp only
  repeat' first
    | with_reducible assumption
    | with_reducible refine State.mtrPut_keeps (keeps_sub hk rfl) ?_
    | with_reducible refine State.mtrRestored_keeps (keeps_sub hk rfl) ?_
    | with_reducible refine State.raiseEv_keeps (keeps_sub hk rfl) ?_
    | with_reducible refine State.setBit_keeps (keeps_sub hk rfl) ?_
    | with_reducible refine Keeps.cond ?_ ?_
    | split
    | intro _
    | with_reducible refine Keeps.set_mtr (keeps_sub hk rfl) ?_

theorem State.mtrUnsaved_keeps {k : Nat} {r s : State} {laps : List FeederLap} {ns : Nat} (hk : k &&& 384 = 384)
    (h : Keeps k r s) : Keeps k r ((s.mtrUnsaved laps ns)) := by
  unfold State.mtrUnsaved
  dsimp only
  repeat' first
    | with_reducible assumption
    | with_reducible refine State.magOpen_keeps (keeps_sub hk rfl) ?_
    | with_reducible refine State.nextFree_keeps (keeps_sub hk rfl) ?_
    | with_reducible refine State.putOpen_keeps (keeps_sub hk rfl) ?_
    | with_reducible refine State.raiseEv_keeps (keeps_sub hk rfl) ?_
    | with_reducible refine State.wr_keeps (keeps_sub hk rfl) ?_
    | with_reducible refine Keeps.each ?_ ?_
    | with_reducible refine Keeps.cond ?_ ?_
    | split
    | intro _

theorem State.pulseLap_keeps {k : Nat} {r s : State} (hk : k &&& 262144 = 262144)
    (h : Keeps k r s) : Keeps k r (s.pulseLap) := by
  unfold State.pulseLap
  dsimp only
  repeat' first
    | with_reducible assumption
    | intro _
    | with_reducible refine Keeps.set_mtr (keeps_sub hk rfl) ?_

theorem State.mtrLap_keeps {k : Nat} {r s : State} {commits : Bool} {laps : List FeederLap} {ns : Nat} (hk : k &&& 262528 = 262528)
    (h : Keeps k r s) : Keeps k r ((s.mtrLap commits laps ns)) := by
  unfold State.mtrLap
  dsimp only
  repeat' first
    | with_reducible assumption
    | with_reducible refine State.feederLap_keeps (keeps_sub hk rfl) ?_
    | with_reducible refine State.injRan_keeps (keeps_sub hk rfl) ?_
    | with_reducible refine State.modLap_keeps (keeps_sub hk rfl) ?_
    | with_reducible refine State.pulseLap_keeps (keeps_sub hk rfl) ?_
    | with_reducible refine State.stuckInject_keeps (keeps_sub hk rfl) ?_
    | with_reducible refine State.thermEnd_keeps (keeps_sub hk rfl) ?_
    | with_reducible refine Keeps.only ?_ ?_
    | with_reducible refine Keeps.each ?_ ?_
    | with_reducible refine Keeps.cond ?_ ?_
    | split
    | intro _

theorem State.harmonics_keeps {k : Nat} {r s : State} {f freq : Nat} {bins : List (List Nat)} (hk : k &&& 0 = 0)
    (h : Keeps k r s) : Keeps k r ((s.harmonics f freq bins)) := by
  unfold State.harmonics
  dsimp only
  repeat' first
    | with_reducible assumption
    | with_reducible refine State.freqLost_keeps (keeps_sub hk rfl) ?_
    | with_reducible refine State.putRoot_keeps (keeps_sub hk rfl) ?_
    | with_reducible refine State.setBit_keeps (keeps_sub hk rfl) ?_
    | with_reducible refine State.wr_keeps (keeps_sub hk rfl) ?_
    | with_reducible refine Keeps.each ?_ ?_
    | with_reducible refine Keeps.cond ?_ ?_
    | split
    | intro _

theorem State.mtrLatch_keeps {k : Nat} {r s : State} {a : Nat} (hk : k &&& 262144 = 262144)
    (h : Keeps k r s) : Keeps k r ((s.mtrLatch a)) := by
  unfold State.mtrLatch
  repeat' first
    | with_reducible assumption
    | with_reducible refine Keeps.cond ?_ ?_
    | split
    | intro _
    | with_reducible refine Keeps.set_mtr (keeps_sub hk rfl) ?_

end Sys2Proof.Machine
end

