-- ==== Sys2Proof/Laws/KeepsPairOps.lean ====
section
/-!
SUPPORT. Laws/KeepsPairOps.lean: what the operations of Machine/PairOps.lean keep (`Keeps`).
-/

namespace Sys2Proof.Machine

theorem State.pairTo_keeps {k : Nat} {r s : State} {k' : Nat} (hk : k &&& 256 = 256)
    (h : Keeps k r s) : Keeps k r ((s.pairTo k')) := by
  unfold State.pairTo
  repeat' first
    | with_reducible assumption
    | with_reducible refine State.irqPair_keeps (keeps_sub hk rfl) ?_
    | with_reducible refine State.setFld_keeps (keeps_sub hk rfl) ?_
    | with_reducible refine Keeps.cond ?_ ?_
    | split
    | intro _

theorem State.setSync_keeps {k : Nat} {r s : State} {b : Bool} (hk : k &&& 256 = 256)
    (h : Keeps k r s) : Keeps k r ((s.setSync b)) := by
  unfold State.setSync
  repeat' first
    | with_reducible assumption
    | with_reducible refine State.irqPair_keeps (keeps_sub hk rfl) ?_
    | with_reducible refine State.setBit_keeps (keeps_sub hk rfl) ?_
    | with_reducible refine Keeps.cond ?_ ?_
    | split
    | intro _

theorem State.setLink_keeps {k : Nat} {r s : State} {b : Bool} (hk : k &&& 256 = 256)
    (h : Keeps k r s) : Keeps k r ((s.setLink b)) := by
  unfold State.setLink
  dsimp only
  repeat' first
    | with_reducible assumption
    | with_reducible refine State.freeBits_keeps (keeps_sub hk rfl) ?_
    | with_reducible refine State.irqPair_keeps (keeps_sub hk rfl) ?_
    | with_reducible refine State.setBit_keeps (keeps_sub hk rfl) ?_
    | with_reducible refine State.setFld_keeps (keeps_sub hk rfl) ?_
    | with_reducible refine Keeps.only ?_ ?_
    | with_reducible refine Keeps.cond ?_ ?_
    | split
    | intro _

theorem State.contend_keeps {k : Nat} {r s : State} (hk : k &&& 8192 = 8192)
    (h : Keeps k r s) : Keeps k r (s.contend) := by
  unfold State.contend
  dsimp only
  repeat' first
    | with_reducible assumption
    | with_reducible refine State.count_keeps (keeps_sub hk rfl) ?_
    | with_reducible refine State.setBit_keeps (keeps_sub hk rfl) ?_
    | with_reducible refine Keeps.cond ?_ ?_
    | split
    | intro _
    | with_reducible refine Keeps.set_pair (keeps_sub hk rfl) ?_

theorem State.intlkLevel_keeps {k : Nat} {r s : State} {level : Bool} (hk : k &&& 8192 = 8192)
    (h : Keeps k r s) : Keeps k r ((s.intlkLevel level)) := by
  unfold State.intlkLevel
  dsimp only
  repeat' first
    | with_reducible assumption
    | with_reducible refine State.contend_keeps (keeps_sub hk rfl) ?_
    | with_reducible refine Keeps.cond ?_ ?_
    | split
    | intro _
    | with_reducible refine Keeps.set_pair (keeps_sub hk rfl) ?_

theorem State.grantLevel_keeps {k : Nat} {r s : State} {level : Bool} (hk : k &&& 8448 = 8448)
    (h : Keeps k r s) : Keeps k r ((s.grantLevel level)) := by
  unfold State.grantLevel
  repeat' first
    | with_reducible assumption
    | with_reducible refine State.irqPair_keeps (keeps_sub hk rfl) ?_
    | with_reducible refine Keeps.cond ?_ ?_
    | split
    | intro _
    | with_reducible refine Keeps.set_pair (keeps_sub hk rfl) ?_

theorem State.setLatch_keeps {k : Nat} {r s : State} (hk : k &&& 8192 = 8192)
    (h : Keeps k r s) : Keeps k r (s.setLatch) := by
  unfold State.setLatch
  repeat' first
    | with_reducible assumption
    | with_reducible refine Keeps.cond ?_ ?_
    | split
    | intro _
    | with_reducible refine Keeps.set_pair (keeps_sub hk rfl) ?_

theorem State.owlChecked_keeps {k : Nat} {r s : State} {m : List Byte} (hk : k &&& 0 = 0)
    (h : Keeps k r s) : Keeps k r ((s.owlChecked m)) := by
  unfold State.owlChecked
  repeat' first
    | with_reducible assumption
    | with_reducible refine State.injRan_keeps (keeps_sub hk rfl) ?_
    | with_reducible refine Keeps.cond ?_ ?_
    | split
    | intro _

theorem State.grantMsg_keeps {k : Nat} {r s : State} {m : List Byte} (hk : k &&& 8192 = 8192)
    (h : Keeps k r s) : Keeps k r ((s.grantMsg m)) := by
  unfold State.grantMsg
  dsimp only
  repeat' first
    | with_reducible assumption
    | with_reducible refine State.count_keeps (keeps_sub hk rfl) ?_
    | with_reducible refine State.owlChecked_keeps (keeps_sub hk rfl) ?_
    | with_reducible refine State.setBit_keeps (keeps_sub hk rfl) ?_
    | with_reducible refine State.wr_keeps (keeps_sub hk rfl) ?_
    | with_reducible refine Keeps.cond ?_ ?_
    | split
    | intro _
    | with_reducible refine Keeps.set_pair (keeps_sub hk rfl) ?_

theorem State.owlLost_keeps {k : Nat} {r s : State} (hk : k &&& 0 = 0)
    (h : Keeps k r s) : Keeps k r (s.owlLost) := by
  unfold State.owlLost
  repeat' first
    | with_reducible assumption
    | with_reducible refine State.count_keeps (keeps_sub hk rfl) ?_
    | with_reducible refine State.setBit_keeps (keeps_sub hk rfl) ?_
    | with_reducible refine Keeps.cond ?_ ?_
    | split
    | intro _

theorem State.sendHeartbeat_keeps {k : Nat} {r s : State} (hk : k &&& 8396802 = 8396802)
    (h : Keeps k r s) : Keeps k r (s.sendHeartbeat) := by
  unfold State.sendHeartbeat
  dsimp only
  repeat' first
    | with_reducible assumption
    | with_reducible refine State.send_keeps (keeps_sub hk rfl) ?_
    | with_reducible refine Keeps.each ?_ ?_
    | with_reducible refine Keeps.cond ?_ ?_
    | split
    | intro _
    | with_reducible refine Keeps.set_pair (keeps_sub hk rfl) ?_

theorem State.sendGrant_keeps {k : Nat} {r s : State} (hk : k &&& 8388610 = 8388610)
    (h : Keeps k r s) : Keeps k r (s.sendGrant) := by
  unfold State.sendGrant
  repeat' first
    | with_reducible assumption
    | with_reducible refine State.send_keeps (keeps_sub hk rfl) ?_
    | with_reducible refine Keeps.each ?_ ?_
    | with_reducible refine Keeps.cond ?_ ?_
    | split
    | intro _

theorem State.witnessHear_keeps {k : Nat} {r s : State} {m : List Byte} (hk : k &&& 8704 = 8704)
    (h : Keeps k r s) : Keeps k r ((s.witnessHear m)) := by
  unfold State.witnessHear
  dsimp only
  repeat' first
    | with_reducible assumption
    | with_reducible refine State.count_keeps (keeps_sub hk rfl) ?_
    | with_reducible refine State.owlChecked_keeps (keeps_sub hk rfl) ?_
    | with_reducible refine State.setBit_keeps (keeps_sub hk rfl) ?_
    | with_reducible refine Keeps.cond ?_ ?_
    | split
    | intro _
    | with_reducible refine Keeps.set_boot (keeps_sub hk rfl) ?_
    | with_reducible refine Keeps.set_pair (keeps_sub hk rfl) ?_

theorem State.grantMoveBegin_keeps {k : Nat} {r s : State} (hk : k &&& 8192 = 8192)
    (h : Keeps k r s) : Keeps k r (s.grantMoveBegin) := by
  unfold State.grantMoveBegin
  dsimp only
  repeat' first
    | with_reducible assumption
    | with_reducible refine State.setBit_keeps (keeps_sub hk rfl) ?_
    | with_reducible refine Keeps.cond ?_ ?_
    | split
    | intro _
    | with_reducible refine Keeps.set_pair (keeps_sub hk rfl) ?_

theorem State.grantAssertLine_keeps {k : Nat} {r s : State} (hk : k &&& 8396802 = 8396802)
    (h : Keeps k r s) : Keeps k r (s.grantAssertLine) := by
  unfold State.grantAssertLine
  dsimp only
  repeat' first
    | with_reducible assumption
    | with_reducible refine State.sendGrant_keeps (keeps_sub hk rfl) ?_
    | with_reducible refine State.setBit_keeps (keeps_sub hk rfl) ?_
    | with_reducible refine State.setFld_keeps (keeps_sub hk rfl) ?_
    | with_reducible refine State.wr_keeps (keeps_sub hk rfl) ?_
    | with_reducible refine Keeps.cond ?_ ?_
    | split
    | intro _
    | with_reducible refine Keeps.set_pair (keeps_sub hk rfl) ?_

theorem State.joinFails_keeps {k : Nat} {r s : State} {cause : Nat} (hk : k &&& 256 = 256)
    (h : Keeps k r s) : Keeps k r ((s.joinFails cause)) := by
  unfold State.joinFails
  dsimp only
  repeat' first
    | with_reducible assumption
    | with_reducible refine State.count_keeps (keeps_sub hk rfl) ?_
    | with_reducible refine State.pairTo_keeps (keeps_sub hk rfl) ?_
    | with_reducible refine State.setBit_keeps (keeps_sub hk rfl) ?_
    | with_reducible refine State.setFld_keeps (keeps_sub hk rfl) ?_
    | intro _

theorem State.beginJoin_keeps {k : Nat} {r s : State} (hk : k &&& 8448 = 8448)
    (h : Keeps k r s) : Keeps k r (s.beginJoin) := by
  unfold State.beginJoin
  dsimp only
  repeat' first
    | with_reducible assumption
    | with_reducible refine State.count_keeps (keeps_sub hk rfl) ?_
    | with_reducible refine State.joinFails_keeps (keeps_sub hk rfl) ?_
    | with_reducible refine State.pairTo_keeps (keeps_sub hk rfl) ?_
    | with_reducible refine State.setFld_keeps (keeps_sub hk rfl) ?_
    | with_reducible refine State.wr_keeps (keeps_sub hk rfl) ?_
    | with_reducible refine Keeps.cond ?_ ?_
    | split
    | intro _
    | with_reducible refine Keeps.set_pair (keeps_sub hk rfl) ?_

end Sys2Proof.Machine
end

