-- ==== Sys2Proof/Laws/KeepsSettOps.lean ====
section
/-!
SUPPORT. Laws/KeepsSettOps.lean: what the operations of Machine/SettOps.lean keep (`Keeps`).
-/

namespace Sys2Proof.Machine

theorem State.putWs_keeps {k : Nat} {r s : State} {w : Option WriteSet} (hk : k &&& 8 = 8)
    (h : Keeps k r s) : Keeps k r ((s.putWs w)) := by
  unfold State.putWs
  repeat' first
    | with_reducible assumption
    | exact fun _ g => by dsimp only [SettState.wf]; exact g.sett
    | exact fun g _ => by dsimp only [SettState.wf]; exact (h.inv g).sett
    | intro _
    | with_reducible refine Keeps.set_sett (keeps_sub hk rfl) ?_ ?_

theorem State.wsBegin_keeps {k : Nat} {r s : State} {owner : Nat} {implicit : Bool} (hk : k &&& 8 = 8)
    (h : Keeps k r s) : Keeps k r ((s.wsBegin owner implicit)) := by
  unfold State.wsBegin
  repeat' first
    | with_reducible assumption
    | with_reducible refine State.count_keeps (keeps_sub hk rfl) ?_
    | with_reducible refine State.putWs_keeps (keeps_sub hk rfl) ?_
    | with_reducible refine State.wr_keeps (keeps_sub hk rfl) ?_
    | intro _

theorem State.wsPoison_keeps {k : Nat} {r s : State} (hk : k &&& 8 = 8)
    (h : Keeps k r s) : Keeps k r (s.wsPoison) := by
  unfold State.wsPoison
  repeat' first
    | with_reducible assumption
    | with_reducible refine State.putWs_keeps (keeps_sub hk rfl) ?_
    | split
    | intro _

theorem State.wsSeal_keeps {k : Nat} {r s : State} (hk : k &&& 8 = 8)
    (h : Keeps k r s) : Keeps k r (s.wsSeal) := by
  unfold State.wsSeal
  dsimp only
  repeat' first
    | with_reducible assumption
    | with_reducible refine State.injRan_keeps (keeps_sub hk rfl) ?_
    | with_reducible refine State.putWs_keeps (keeps_sub hk rfl) ?_
    | with_reducible refine State.wr_keeps (keeps_sub hk rfl) ?_
    | with_reducible refine Keeps.cond ?_ ?_
    | split
    | intro _

theorem State.wsJoin_keeps {k : Nat} {r s : State} {slot a : Nat} {v : Word} (hk : k &&& 8 = 8)
    (h : Keeps k r s) : Keeps k r ((s.wsJoin slot a v)) := by
  unfold State.wsJoin
  dsimp only
  repeat' first
    | with_reducible assumption
    | with_reducible refine State.putWs_keeps (keeps_sub hk rfl) ?_
    | with_reducible refine State.wsBegin_keeps (keeps_sub hk rfl) ?_
    | with_reducible refine Keeps.cond ?_ ?_
    | split
    | intro _

theorem State.wsServed_keeps {k : Nat} {r s : State} {formed : Option Word} (hk : k &&& 8 = 8)
    (h : Keeps k r s) : Keeps k r ((s.wsServed formed)) := by
  unfold State.wsServed
  repeat' first
    | with_reducible assumption
    | with_reducible refine State.wsSeal_keeps (keeps_sub hk rfl) ?_
    | with_reducible refine Keeps.cond ?_ ?_
    | split
    | intro _

theorem State.wsForm_keeps {k : Nat} {r s : State} {slot : Nat} {l : List (Nat × Word)} (hk : k &&& 8 = 8)
    (h : Keeps k r s) : Keeps k r ((s.wsForm slot l).1) := by
  unfold State.wsForm
  dsimp only
  repeat' first
    | with_reducible assumption
    | with_reducible refine State.wsBegin_keeps (keeps_sub hk rfl) ?_
    | with_reducible refine Keeps.cond ?_ ?_
    | split
    | intro _

theorem State.wsResult_keeps {k : Nat} {r s : State} {result : Nat} (hk : k &&& 264 = 264)
    (h : Keeps k r s) : Keeps k r ((s.wsResult result)) := by
  unfold State.wsResult
  dsimp only
  repeat' first
    | with_reducible assumption
    | with_reducible refine State.count_keeps (keeps_sub hk rfl) ?_
    | with_reducible refine State.irqSett_keeps (keeps_sub hk rfl) ?_
    | with_reducible refine State.putWs_keeps (keeps_sub hk rfl) ?_
    | with_reducible refine State.setBit_keeps (keeps_sub hk rfl) ?_
    | with_reducible refine State.wr_keeps (keeps_sub hk rfl) ?_
    | with_reducible refine Keeps.cond ?_ ?_
    | split
    | intro _

theorem State.wsExpire_keeps {k : Nat} {r s : State} (hk : k &&& 264 = 264)
    (h : Keeps k r s) : Keeps k r (s.wsExpire) := by
  unfold State.wsExpire
  repeat' first
    | with_reducible assumption
    | with_reducible refine State.count_keeps (keeps_sub hk rfl) ?_
    | with_reducible refine State.wsResult_keeps (keeps_sub hk rfl) ?_
    | with_reducible refine Keeps.cond ?_ ?_
    | split
    | intro _

theorem State.wsBoundary_keeps {k : Nat} {r s : State} {epoch : Nat} (hk : k &&& 264 = 264)
    (h : Keeps k r s) : Keeps k r ((s.wsBoundary epoch)) := by
  unfold State.wsBoundary
  repeat' first
    | with_reducible assumption
    | with_reducible refine State.rwsApply_keeps (keeps_sub hk rfl) ?_
    | with_reducible refine State.wsResult_keeps (keeps_sub hk rfl) ?_
    | with_reducible refine Keeps.each ?_ ?_
    | with_reducible refine Keeps.cond ?_ ?_
    | split
    | intro _

theorem State.settShow_keeps {k : Nat} {r s : State} {f : Sett} (hk : k &&& 264 = 264)
    (hf : r.Inv → tabWf 0#8 f.bytes = true)
    (h : Keeps k r s) : Keeps k r ((s.settShow f)) := by
  unfold State.settShow
  repeat' first
    | with_reducible assumption
    | exact fun x g => by dsimp only [SettState.wf]; exact ⟨by simp only [List.length_cons, List.length_take]; omega, fun y hy => (List.mem_cons.mp hy).elim (fun e => e ▸ hf x) (fun i => g.sett.2.1 y (List.mem_of_mem_take i)), g.sett.2.2⟩
    | with_reducible refine State.irqSett_keeps (keeps_sub hk rfl) ?_
    | exact fun _ g => by dsimp only [SettState.wf]; exact g.sett
    | exact fun g _ => by dsimp only [SettState.wf]; exact (h.inv g).sett
    | intro _
    | with_reducible refine Keeps.set_sett (keeps_sub hk rfl) ?_ ?_

end Sys2Proof.Machine
end

