-- ==== Sys2Proof/Laws/KeepsSlvOps.lean ====
section
/-!
SUPPORT. Laws/KeepsSlvOps.lean: what the operations of Machine/SlvOps.lean keep (`Keeps`).
-/

namespace Sys2Proof.Machine

theorem State.putSolve_keeps {k : Nat} {r s : State} {v : Solve} (hk : k &&& 1024 = 1024)
    (h : Keeps k r s) : Keeps k r ((s.putSolve v)) := by
  unfold State.putSolve
  repeat' first
    | with_reducible assumption
    | intro _
    | with_reducible refine Keeps.set_dsp (keeps_sub hk rfl) ?_

theorem State.dropFactor_keeps {k : Nat} {r s : State} {r' : Stop} (hk : k &&& 1024 = 1024)
    (h : Keeps k r s) : Keeps k r ((s.dropFactor r')) := by
  unfold State.dropFactor
  repeat' first
    | with_reducible assumption
    | with_reducible refine Keeps.cond ?_ ?_
    | split
    | intro _
    | with_reducible refine Keeps.set_dsp (keeps_sub hk rfl) ?_

theorem State.solveStop_keeps {k : Nat} {r s : State} {r' : Stop} (hk : k &&& 1284 = 1284)
    (h : Keeps k r s) : Keeps k r ((s.solveStop r')) := by
  unfold State.solveStop
  dsimp only
  repeat' first
    | with_reducible assumption
    | with_reducible refine State.batonCancel_keeps (keeps_sub hk rfl) ?_
    | with_reducible refine State.batonRelease_keeps (keeps_sub hk rfl) ?_
    | with_reducible refine State.dropFactor_keeps (keeps_sub hk rfl) ?_
    | with_reducible refine State.irqSlv_keeps (keeps_sub hk rfl) ?_
    | with_reducible refine State.putSolve_keeps (keeps_sub hk rfl) ?_
    | with_reducible refine State.setBit_keeps (keeps_sub hk rfl) ?_
    | with_reducible refine State.setFld_keeps (keeps_sub hk rfl) ?_
    | with_reducible refine State.showLanes_keeps (keeps_sub hk rfl) ?_
    | with_reducible refine State.wr_keeps (keeps_sub hk rfl) ?_
    | with_reducible refine Keeps.cond ?_ ?_
    | split
    | intro _

theorem State.cycleAbort_keeps {k : Nat} {r s : State} (hk : k &&& 1284 = 1284)
    (h : Keeps k r s) : Keeps k r (s.cycleAbort) := by
  unfold State.cycleAbort
  dsimp only
  repeat' first
    | with_reducible assumption
    | with_reducible refine State.count_keeps (keeps_sub hk rfl) ?_
    | with_reducible refine State.setBit_keeps (keeps_sub hk rfl) ?_
    | with_reducible refine State.solveStop_keeps (keeps_sub hk rfl) ?_
    | with_reducible refine Keeps.cond ?_ ?_
    | split
    | intro _
    | with_reducible refine Keeps.set_dsp (keeps_sub hk rfl) ?_

theorem State.enableOff_keeps {k : Nat} {r s : State} (hk : k &&& 1284 = 1284)
    (h : Keeps k r s) : Keeps k r (s.enableOff) := by
  unfold State.enableOff
  dsimp only
  repeat' first
    | with_reducible assumption
    | with_reducible refine State.cycleAbort_keeps (keeps_sub hk rfl) ?_
    | with_reducible refine Keeps.cond ?_ ?_
    | split
    | intro _
    | with_reducible refine Keeps.set_dsp (keeps_sub hk rfl) ?_

theorem State.stepZero_keeps {k : Nat} {r s : State} (hk : k &&& 0 = 0)
    (h : Keeps k r s) : Keeps k r ((s.stepZero).2.2) := by
  unfold State.stepZero
  dsimp only
  repeat' first
    | with_reducible assumption
    | with_reducible refine State.count_keeps (keeps_sub hk rfl) ?_
    | with_reducible refine State.freeBits_keeps (keeps_sub hk rfl) ?_
    | with_reducible refine State.roundOpen_keeps (keeps_sub hk rfl) ?_
    | with_reducible refine Keeps.cond ?_ ?_
    | split
    | intro _

theorem State.fitTest_keeps {k : Nat} {r s : State} (hk : k &&& 1280 = 1280)
    (h : Keeps k r s) : Keeps k r (s.fitTest) := by
  unfold State.fitTest
  dsimp only
  repeat' first
    | with_reducible assumption
    | with_reducible refine State.fallback_keeps (keeps_sub hk rfl) ?_
    | with_reducible refine State.irqFab_keeps (keeps_sub hk rfl) ?_
    | with_reducible refine State.setBit_keeps (keeps_sub hk rfl) ?_
    | with_reducible refine State.toProblem_keeps (keeps_sub hk rfl) ?_
    | with_reducible refine Keeps.cond ?_ ?_
    | split
    | intro _
    | with_reducible refine Keeps.set_dsp (keeps_sub hk rfl) ?_

theorem State.cycleReport_keeps {k : Nat} {r s : State} (hk : k &&& 256 = 256)
    (h : Keeps k r s) : Keeps k r (s.cycleReport) := by
  unfold State.cycleReport
  dsimp only
  repeat' first
    | with_reducible assumption
    | with_reducible refine State.count_keeps (keeps_sub hk rfl) ?_
    | with_reducible refine State.countN_keeps (keeps_sub hk rfl) ?_
    | with_reducible refine State.injRan_keeps (keeps_sub hk rfl) ?_
    | with_reducible refine State.irqDsp_keeps (keeps_sub hk rfl) ?_
    | with_reducible refine State.setBit_keeps (keeps_sub hk rfl) ?_
    | with_reducible refine Keeps.only ?_ ?_
    | intro _

theorem State.solveStart_keeps {k : Nat} {r s : State} {warm : Bool} (hk : k &&& 1024 = 1024)
    (h : Keeps k r s) : Keeps k r ((s.solveStart warm)) := by
  unfold State.solveStart
  dsimp only
  repeat' first
    | with_reducible assumption
    | with_reducible refine State.count_keeps (keeps_sub hk rfl) ?_
    | with_reducible refine State.putSolve_keeps (keeps_sub hk rfl) ?_
    | with_reducible refine State.setBit_keeps (keeps_sub hk rfl) ?_
    | with_reducible refine State.wr_keeps (keeps_sub hk rfl) ?_
    | with_reducible refine Keeps.only ?_ ?_
    | with_reducible refine Keeps.each ?_ ?_
    | intro _
    | with_reducible refine Keeps.set_dsp (keeps_sub hk rfl) ?_

theorem State.cycleBegin_keeps {k : Nat} {r s : State} (hk : k &&& 3332 = 3332)
    (h : Keeps k r s) : Keeps k r (s.cycleBegin) := by
  unfold State.cycleBegin
  dsimp only
  repeat' first
    | with_reducible assumption
    | with_reducible refine State.count_keeps (keeps_sub hk rfl) ?_
    | with_reducible refine State.cycleReport_keeps (keeps_sub hk rfl) ?_
    | with_reducible refine State.irqDsp_keeps (keeps_sub hk rfl) ?_
    | with_reducible refine State.scrubStop_keeps (keeps_sub hk rfl) ?_
    | with_reducible refine State.solveStart_keeps (keeps_sub hk rfl) ?_
    | with_reducible refine State.stepZero_keeps (keeps_sub hk rfl) ?_
    | with_reducible refine State.wr_keeps (keeps_sub hk rfl) ?_
    | intro _
    | with_reducible refine Keeps.set_dsp (keeps_sub hk rfl) ?_

theorem State.slvMove_keeps {k : Nat} {r s : State} {v : Solve} {fab dram : Nat} (hk : k &&& 8389632 = 8389632)
    (h : Keeps k r s) : Keeps k r ((s.slvMove v fab dram)) := by
  unfold State.slvMove
  repeat' first
    | with_reducible assumption
    | with_reducible refine State.charge_keeps (keeps_sub hk rfl) ?_
    | with_reducible refine State.putSolve_keeps (keeps_sub hk rfl) ?_
    | intro _

theorem State.burstBegin_keeps {k : Nat} {r s : State} (hk : k &&& 1028 = 1028)
    (h : Keeps k r s) : Keeps k r (s.burstBegin) := by
  unfold State.burstBegin
  dsimp only
  repeat' first
    | with_reducible assumption
    | with_reducible refine State.batonRequest_keeps (keeps_sub hk rfl) ?_
    | with_reducible refine State.putSolve_keeps (keeps_sub hk rfl) ?_
    | with_reducible refine State.showLanes_keeps (keeps_sub hk rfl) ?_
    | with_reducible refine Keeps.cond ?_ ?_
    | split
    | intro _

theorem State.iterShow_keeps {k : Nat} {r s : State} {retry : Bool} (hk : k &&& 0 = 0)
    (h : Keeps k r s) : Keeps k r ((s.iterShow retry)) := by
  unfold State.iterShow
  repeat' first
    | with_reducible assumption
    | with_reducible refine State.setBit_keeps (keeps_sub hk rfl) ?_
    | with_reducible refine State.setFld_keeps (keeps_sub hk rfl) ?_
    | split
    | intro _

theorem State.iterBegin_keeps {k : Nat} {r s : State} (hk : k &&& 3072 = 3072)
    (h : Keeps k r s) : Keeps k r (s.iterBegin) := by
  unfold State.iterBegin
  dsimp only
  repeat' first
    | with_reducible assumption
    | with_reducible refine State.count_keeps (keeps_sub hk rfl) ?_
    | with_reducible refine State.mapLive_keeps (keeps_sub hk rfl) ?_
    | with_reducible refine State.putSolve_keeps (keeps_sub hk rfl) ?_
    | with_reducible refine State.wr_keeps (keeps_sub hk rfl) ?_
    | split
    | intro _

theorem State.iterEnter_keeps {k : Nat} {r s : State} {retry : Bool} (hk : k &&& 3072 = 3072)
    (h : Keeps k r s) : Keeps k r ((s.iterEnter retry)) := by
  unfold State.iterEnter
  dsimp only
  repeat' first
    | with_reducible assumption
    | with_reducible refine State.iterBegin_keeps (keeps_sub hk rfl) ?_
    | with_reducible refine State.iterShow_keeps (keeps_sub hk rfl) ?_
    | with_reducible refine Keeps.cond ?_ ?_
    | split
    | intro _

theorem State.burstTurn_keeps {k : Nat} {r s : State} (hk : k &&& 1028 = 1028)
    (h : Keeps k r s) : Keeps k r (s.burstTurn) := by
  unfold State.burstTurn
  repeat' first
    | with_reducible assumption
    | with_reducible refine State.batonRelease_keeps (keeps_sub hk rfl) ?_
    | with_reducible refine State.burstBegin_keeps (keeps_sub hk rfl) ?_
    | with_reducible refine State.count_keeps (keeps_sub hk rfl) ?_
    | with_reducible refine Keeps.cond ?_ ?_
    | split
    | intro _

theorem State.iterNext_keeps {k : Nat} {r s : State} {retry : Bool} (hk : k &&& 3332 = 3332)
    (h : Keeps k r s) : Keeps k r ((s.iterNext retry)) := by
  unfold State.iterNext
  repeat' first
    | with_reducible assumption
    | with_reducible refine State.burstTurn_keeps (keeps_sub hk rfl) ?_
    | with_reducible refine State.iterEnter_keeps (keeps_sub hk rfl) ?_
    | with_reducible refine State.solveStop_keeps (keeps_sub hk rfl) ?_
    | with_reducible refine Keeps.cond ?_ ?_
    | split
    | intro _

theorem State.firstHead_keeps {k : Nat} {r s : State} {q : Nat} (hk : k &&& 0 = 0)
    (h : Keeps k r s) : Keeps k r ((s.firstHead q)) := by
  unfold State.firstHead
  repeat' first
    | with_reducible assumption
    | with_reducible refine State.setBit_keeps (keeps_sub hk rfl) ?_
    | with_reducible refine State.setFld_keeps (keeps_sub hk rfl) ?_
    | with_reducible refine Keeps.cond ?_ ?_
    | split
    | intro _

theorem State.laneBit_keeps {k : Nat} {r s : State} {lane : Option Nat} {b : Nat} (hk : k &&& 0 = 0)
    (h : Keeps k r s) : Keeps k r ((s.laneBit lane b)) := by
  unfold State.laneBit
  repeat' first
    | with_reducible assumption
    | with_reducible refine State.setBit_keeps (keeps_sub hk rfl) ?_
    | split
    | intro _

theorem State.laneEvent_keeps {k : Nat} {r s : State} {e : LaneEv} (hk : k &&& 256 = 256)
    (h : Keeps k r s) : Keeps k r ((s.laneEvent e)) := by
  unfold State.laneEvent
  repeat' first
    | with_reducible assumption
    | with_reducible refine State.count_keeps (keeps_sub hk rfl) ?_
    | with_reducible refine State.firstHead_keeps (keeps_sub hk rfl) ?_
    | with_reducible refine State.irqSlv_keeps (keeps_sub hk rfl) ?_
    | with_reducible refine State.laneBit_keeps (keeps_sub hk rfl) ?_
    | with_reducible refine State.setBit_keeps (keeps_sub hk rfl) ?_
    | split
    | intro _

theorem State.iterReject_keeps {k : Nat} {r s : State} {range : Option Nat} {fabric : Bool} (hk : k &&& 3332 = 3332)
    (h : Keeps k r s) : Keeps k r ((s.iterReject range fabric)) := by
  unfold State.iterReject
  dsimp only
  repeat' first
    | with_reducible assumption
    | with_reducible refine State.count_keeps (keeps_sub hk rfl) ?_
    | with_reducible refine State.irqSlv_keeps (keeps_sub hk rfl) ?_
    | with_reducible refine State.iterNext_keeps (keeps_sub hk rfl) ?_
    | with_reducible refine State.putSolve_keeps (keeps_sub hk rfl) ?_
    | with_reducible refine State.setBit_keeps (keeps_sub hk rfl) ?_
    | with_reducible refine State.setFld_keeps (keeps_sub hk rfl) ?_
    | with_reducible refine State.solveStop_keeps (keeps_sub hk rfl) ?_
    | with_reducible refine Keeps.only ?_ ?_
    | with_reducible refine Keeps.cond ?_ ?_
    | split
    | intro _

theorem State.iterAccept_keeps {k : Nat} {r s : State} {n : Iterate} (hk : k &&& 3332 = 3332)
    (h : Keeps k r s) : Keeps k r ((s.iterAccept n)) := by
  unfold State.iterAccept
  dsimp only
  repeat' first
    | with_reducible assumption
    | with_reducible refine State.iterNext_keeps (keeps_sub hk rfl) ?_
    | with_reducible refine State.measureWords_keeps (keeps_sub hk rfl) ?_
    | with_reducible refine State.putSolve_keeps (keeps_sub hk rfl) ?_
    | with_reducible refine State.solveStop_keeps (keeps_sub hk rfl) ?_
    | with_reducible refine State.wr_keeps (keeps_sub hk rfl) ?_
    | with_reducible refine Keeps.each ?_ ?_
    | with_reducible refine Keeps.cond ?_ ?_
    | split
    | intro _

theorem State.putWork_keeps {k : Nat} {r s : State} {w : Work} (hk : k &&& 1024 = 1024)
    (h : Keeps k r s) : Keeps k r ((s.putWork w)) := by
  unfold State.putWork
  dsimp only
  repeat' first
    | with_reducible assumption
    | intro _
    | with_reducible refine Keeps.set_dsp (keeps_sub hk rfl) ?_

theorem State.iterFinish_keeps {k : Nat} {r s : State} {v : Solve} {rest : Nat × Nat} {o : IterOut} (hk : k &&& 8391940 = 8391940)
    (h : Keeps k r s) : Keeps k r ((s.iterFinish v rest o)) := by
  unfold State.iterFinish
  dsimp only
  repeat' first
    | with_reducible assumption
    | with_reducible refine State.count_keeps (keeps_sub hk rfl) ?_
    | with_reducible refine State.injRan_keeps (keeps_sub hk rfl) ?_
    | with_reducible refine State.iterAccept_keeps (keeps_sub hk rfl) ?_
    | with_reducible refine State.iterReject_keeps (keeps_sub hk rfl) ?_
    | with_reducible refine State.laneEvent_keeps (keeps_sub hk rfl) ?_
    | with_reducible refine State.putWork_keeps (keeps_sub hk rfl) ?_
    | with_reducible refine State.slvMove_keeps (keeps_sub hk rfl) ?_
    | with_reducible refine State.wr_keeps (keeps_sub hk rfl) ?_
    | with_reducible refine Keeps.only ?_ ?_
    | with_reducible refine Keeps.each ?_ ?_
    | with_reducible refine Keeps.cond ?_ ?_
    | split
    | intro _

theorem State.iteration_keeps {k : Nat} {r s : State} {r' : IterRun} (hk : k &&& 8391940 = 8391940)
    (h : Keeps k r s) : Keeps k r ((s.iteration r')) := by
  unfold State.iteration
  dsimp only
  repeat' first
    | with_reducible assumption
    | with_reducible refine State.iterFinish_keeps (keeps_sub hk rfl) ?_
    | with_reducible refine State.slvMove_keeps (keeps_sub hk rfl) ?_
    | exact fun _ g => by dsimp only [FabState.wf]; exact g.fab
    | exact fun g _ => by dsimp only [FabState.wf]; exact (h.inv g).fab
    | exact fun _ g => by dsimp only [FabState.wf]; split <;> exact g.fab
    | with_reducible refine Keeps.cond ?_ ?_
    | split
    | intro _
    | with_reducible refine Keeps.set_fab (keeps_sub hk rfl) ?_ ?_

theorem State.assemblyDone_keeps {k : Nat} {r s : State} {further : Nat} (hk : k &&& 8391940 = 8391940)
    (h : Keeps k r s) : Keeps k r (s.assemblyDone further) := by
  unfold State.assemblyDone
  dsimp only
  repeat' first
    | with_reducible assumption
    | with_reducible refine State.burstBegin_keeps (keeps_sub hk rfl) ?_
    | with_reducible refine State.count_keeps (keeps_sub hk rfl) ?_
    | with_reducible refine State.countN_keeps (keeps_sub hk rfl) ?_
    | with_reducible refine State.fallback_keeps (keeps_sub hk rfl) ?_
    | with_reducible refine State.injRan_keeps (keeps_sub hk rfl) ?_
    | with_reducible refine State.irqSlv_keeps (keeps_sub hk rfl) ?_
    | with_reducible refine State.iterEnter_keeps (keeps_sub hk rfl) ?_
    | with_reducible refine State.putSolve_keeps (keeps_sub hk rfl) ?_
    | with_reducible refine State.setBit_keeps (keeps_sub hk rfl) ?_
    | with_reducible refine State.slvMove_keeps (keeps_sub hk rfl) ?_
    | with_reducible refine State.solveStop_keeps (keeps_sub hk rfl) ?_
    | with_reducible refine Keeps.cond ?_ ?_
    | split
    | intro _
    | with_reducible refine Keeps.set_dsp (keeps_sub hk rfl) ?_

theorem State.burstGranted_keeps {k : Nat} {r s : State} (hk : k &&& 3072 = 3072)
    (h : Keeps k r s) : Keeps k r (s.burstGranted) := by
  unfold State.burstGranted
  repeat' first
    | with_reducible assumption
    | with_reducible refine State.iterBegin_keeps (keeps_sub hk rfl) ?_
    | with_reducible refine State.setBit_keeps (keeps_sub hk rfl) ?_
    | with_reducible refine State.showLanes_keeps (keeps_sub hk rfl) ?_
    | with_reducible refine Keeps.cond ?_ ?_
    | split
    | intro _

theorem State.burstWiden_keeps {k : Nat} {r s : State} (hk : k &&& 0 = 0)
    (h : Keeps k r s) : Keeps k r (s.burstWiden) := by
  unfold State.burstWiden
  repeat' first
    | with_reducible assumption
    | with_reducible refine State.setBit_keeps (keeps_sub hk rfl) ?_
    | with_reducible refine State.showLanes_keeps (keeps_sub hk rfl) ?_
    | with_reducible refine Keeps.cond ?_ ?_
    | split
    | intro _

theorem State.burstNarrow_keeps {k : Nat} {r s : State} (hk : k &&& 3328 = 3328)
    (h : Keeps k r s) : Keeps k r (s.burstNarrow) := by
  unfold State.burstNarrow
  dsimp only
  repeat' first
    | with_reducible assumption
    | with_reducible refine State.count_keeps (keeps_sub hk rfl) ?_
    | with_reducible refine State.irqLap_keeps (keeps_sub hk rfl) ?_
    | with_reducible refine State.irqSlv_keeps (keeps_sub hk rfl) ?_
    | with_reducible refine State.iterBegin_keeps (keeps_sub hk rfl) ?_
    | with_reducible refine State.putSolve_keeps (keeps_sub hk rfl) ?_
    | with_reducible refine State.setBit_keeps (keeps_sub hk rfl) ?_
    | with_reducible refine State.showLanes_keeps (keeps_sub hk rfl) ?_
    | with_reducible refine Keeps.cond ?_ ?_
    | split
    | intro _

theorem State.publishFailed_keeps {k : Nat} {r s : State} {c : Cycle} {v : Solve} (hk : k &&& 1280 = 1280)
    (h : Keeps k r s) : Keeps k r ((s.publishFailed c v)) := by
  unfold State.publishFailed
  dsimp only
  repeat' first
    | with_reducible assumption
    | with_reducible refine State.resReport_keeps (keeps_sub hk rfl) ?_
    | intro _
    | with_reducible refine Keeps.set_dsp (keeps_sub hk rfl) ?_

theorem State.publish_keeps {k : Nat} {r s : State} {c : Cycle} {v : Solve} {x : Choice} (hk : k &&& 1280 = 1280)
    (h : Keeps k r s) : Keeps k r ((s.publish c v x)) := by
  unfold State.publish
  dsimp only
  repeat' first
    | with_reducible assumption
    | with_reducible refine State.fallback_keeps (keeps_sub hk rfl) ?_
    | with_reducible refine State.irqRes_keeps (keeps_sub hk rfl) ?_
    | with_reducible refine State.measureWords_keeps (keeps_sub hk rfl) ?_
    | with_reducible refine State.putStreams_keeps (keeps_sub hk rfl) ?_
    | with_reducible refine State.resReport_keeps (keeps_sub hk rfl) ?_
    | with_reducible refine State.setBit_keeps (keeps_sub hk rfl) ?_
    | with_reducible refine Keeps.only ?_ ?_
    | with_reducible refine Keeps.cond ?_ ?_
    | split
    | intro _
    | with_reducible refine Keeps.set_dsp (keeps_sub hk rfl) ?_

theorem State.deadlineStop_keeps {k : Nat} {r s : State} (hk : k &&& 1284 = 1284)
    (h : Keeps k r s) : Keeps k r (s.deadlineStop) := by
  unfold State.deadlineStop
  dsimp only
  repeat' first
    | with_reducible assumption
    | with_reducible refine State.count_keeps (keeps_sub hk rfl) ?_
    | with_reducible refine State.setBit_keeps (keeps_sub hk rfl) ?_
    | with_reducible refine State.solveStop_keeps (keeps_sub hk rfl) ?_
    | with_reducible refine Keeps.only ?_ ?_
    | with_reducible refine Keeps.cond ?_ ?_
    | split
    | intro _

theorem State.deadline_keeps {k : Nat} {r s : State} (hk : k &&& 1284 = 1284)
    (h : Keeps k r s) : Keeps k r (s.deadline) := by
  unfold State.deadline
  dsimp only
  repeat' first
    | with_reducible assumption
    | with_reducible refine State.deadlineStop_keeps (keeps_sub hk rfl) ?_
    | with_reducible refine State.injRan_keeps (keeps_sub hk rfl) ?_
    | with_reducible refine State.publish_keeps (keeps_sub hk rfl) ?_
    | with_reducible refine State.publishFailed_keeps (keeps_sub hk rfl) ?_
    | with_reducible refine Keeps.cond ?_ ?_
    | split
    | intro _
    | with_reducible refine Keeps.set_dsp (keeps_sub hk rfl) ?_

theorem State.cycleStart_keeps {k : Nat} {r s : State} (hk : k &&& 3332 = 3332)
    (h : Keeps k r s) : Keeps k r (s.cycleStart) := by
  unfold State.cycleStart
  dsimp only
  repeat' first
    | with_reducible assumption
    | with_reducible refine State.cycleBegin_keeps (keeps_sub hk rfl) ?_
    | with_reducible refine State.deadline_keeps (keeps_sub hk rfl) ?_
    | with_reducible refine State.fitTest_keeps (keeps_sub hk rfl) ?_
    | with_reducible refine State.mapLive_keeps (keeps_sub hk rfl) ?_
    | with_reducible refine Keeps.cond ?_ ?_
    | split
    | intro _

end Sys2Proof.Machine
end

