-- ==== Sys2Proof/Laws/KeepsPairRun.lean ====
section
/-!
SUPPORT. Laws/KeepsPairRun.lean: what the operations of Machine/PairRun.lean keep (`Keeps`).
-/

namespace Sys2Proof.Machine

theorem mirroredSett_wf (e : Nat) (b : List Byte) : tabWf 0#8 (mirroredSett e b).bytes = true := tabWf_tabSetList _ _ _ _ rfl

theorem State.gating_keeps {k : Nat} {r s : State} {f : State → State} (hk : k &&& 0 = 0)
    (hf : ∀ u, Keeps k r u → Keeps k r (f u))
    (h : Keeps k r s) : Keeps k r ((s.gating f)) := by
  unfold State.gating
  dsimp only
  repeat' first
    | with_reducible assumption
    | with_reducible refine hf _ ?_
    | with_reducible refine State.canGate_keeps (keeps_sub hk rfl) ?_
    | with_reducible refine Keeps.only ?_ ?_
    | intro _

theorem State.intlkChange_keeps {k : Nat} {r s : State} {level : Bool} (hk : k &&& 8192 = 8192)
    (h : Keeps k r s) : Keeps k r ((s.intlkChange level)) := by
  unfold State.intlkChange
  repeat' first
    | with_reducible assumption
    | with_reducible refine State.gating_keeps (keeps_sub hk rfl) ?_ ?_
    | with_reducible refine State.intlkLevel_keeps (keeps_sub hk rfl) ?_
    | intro _

theorem State.grantChange_keeps {k : Nat} {r s : State} {level : Bool} (hk : k &&& 8448 = 8448)
    (h : Keeps k r s) : Keeps k r ((s.grantChange level)) := by
  unfold State.grantChange
  repeat' first
    | with_reducible assumption
    | with_reducible refine State.gating_keeps (keeps_sub hk rfl) ?_ ?_
    | with_reducible refine State.grantLevel_keeps (keeps_sub hk rfl) ?_
    | intro _

theorem State.intlkOff_keeps {k : Nat} {r s : State} {level : Bool} (hk : k &&& 8192 = 8192)
    (h : Keeps k r s) : Keeps k r ((s.intlkOff level)) := by
  unfold State.intlkOff
  repeat' first
    | with_reducible assumption
    | intro _
    | with_reducible refine Keeps.set_pair (keeps_sub hk rfl) ?_

theorem State.grantOff_keeps {k : Nat} {r s : State} {level : Bool} (hk : k &&& 8192 = 8192)
    (h : Keeps k r s) : Keeps k r ((s.grantOff level)) := by
  unfold State.grantOff
  repeat' first
    | with_reducible assumption
    | intro _
    | with_reducible refine Keeps.set_pair (keeps_sub hk rfl) ?_

theorem State.recKeep_keeps {k : Nat} {r s : State} {epoch : Nat} (hk : k &&& 8192 = 8192)
    (h : Keeps k r s) : Keeps k r ((s.recKeep epoch)) := by
  unfold State.recKeep
  dsimp only
  repeat' first
    | with_reducible assumption
    | with_reducible refine Keeps.cond ?_ ?_
    | split
    | intro _
    | with_reducible refine Keeps.set_pair (keeps_sub hk rfl) ?_

theorem State.mirrorSend_keeps {k : Nat} {r s : State} {f : Sett} (hk : k &&& 8396802 = 8396802)
    (h : Keeps k r s) : Keeps k r ((s.mirrorSend f)) := by
  unfold State.mirrorSend
  dsimp only
  repeat' first
    | with_reducible assumption
    | with_reducible refine State.recKeep_keeps (keeps_sub hk rfl) ?_
    | with_reducible refine State.send_keeps (keeps_sub hk rfl) ?_
    | with_reducible refine Keeps.cond ?_ ?_
    | split
    | intro _
    | with_reducible refine Keeps.set_pair (keeps_sub hk rfl) ?_

theorem State.dispatchSend_keeps {k : Nat} {r s : State} (hk : k &&& 8388610 = 8388610)
    (h : Keeps k r s) : Keeps k r (s.dispatchSend) := by
  unfold State.dispatchSend
  repeat' first
    | with_reducible assumption
    | with_reducible refine State.send_keeps (keeps_sub hk rfl) ?_
    | with_reducible refine Keeps.cond ?_ ?_
    | split
    | intro _

theorem State.dispatchOut_keeps {k : Nat} {r t : State} {s : State} (hk : k &&& 8388610 = 8388610)
    (h : Keeps k r t) : Keeps k r ((t.dispatchOut s)) := by
  unfold State.dispatchOut
  repeat' first
    | with_reducible assumption
    | with_reducible refine State.dispatchSend_keeps (keeps_sub hk rfl) ?_
    | with_reducible refine Keeps.only ?_ ?_
    | intro _

theorem State.mirrorAcked_keeps {k : Nat} {r s : State} {epoch : Nat} {sync : Bool} (hk : k &&& 8200 = 8200)
    (h : Keeps k r s) : Keeps k r ((s.mirrorAcked epoch sync)) := by
  unfold State.mirrorAcked
  dsimp only
  repeat' first
    | with_reducible assumption
    | with_reducible refine State.setBit_keeps (keeps_sub hk rfl) ?_
    | exact fun _ g => by dsimp only [SettState.wf]; exact g.sett
    | exact fun g _ => by dsimp only [SettState.wf]; exact (h.inv g).sett
    | exact fun _ g => by dsimp only [SettState.wf]; split <;> exact g.sett
    | with_reducible refine Keeps.cond ?_ ?_
    | split
    | intro _
    | with_reducible refine Keeps.set_sett_pair (keeps_sub hk rfl) ?_ ?_

theorem State.pairLeavesSync_keeps {k : Nat} {r s : State} {e : Nat} (hk : k &&& 8388610 = 8388610)
    (h : Keeps k r s) : Keeps k r ((s.pairLeavesSync e)) := by
  unfold State.pairLeavesSync
  repeat' first
    | with_reducible assumption
    | with_reducible refine State.send_keeps (keeps_sub hk rfl) ?_
    | with_reducible refine State.setBit_keeps (keeps_sub hk rfl) ?_
    | with_reducible refine Keeps.only ?_ ?_
    | intro _

theorem State.putUserByte_keeps {k : Nat} {r s : State} {x : Nat} {b : Byte} (hk : k &&& 8224 = 8224)
    (h : Keeps k r s) : Keeps k r ((s.putUserByte x b)) := by
  unfold State.putUserByte
  dsimp only
  repeat' first
    | with_reducible assumption
    | with_reducible refine State.putUserUnit_keeps (keeps_sub hk rfl) ?_
    | intro _

theorem State.tallyRaiseTo_keeps {k : Nat} {r s : State} {n : Nat} (hk : k &&& 8388896 = 8388896)
    (h : Keeps k r s) : Keeps k r ((s.tallyRaiseTo n)) := by
  unfold State.tallyRaiseTo
  repeat' first
    | with_reducible assumption
    | with_reducible refine State.writeTallyCell_keeps (keeps_sub hk rfl) ?_
    | with_reducible refine Keeps.cond ?_ ?_
    | split
    | intro _

theorem State.mtrFromWarm_keeps {k : Nat} {r s : State} (hk : k &&& 262144 = 262144)
    (h : Keeps k r s) : Keeps k r (s.mtrFromWarm) := by
  unfold State.mtrFromWarm
  repeat' first
    | with_reducible assumption
    | with_reducible refine State.mtrPut_keeps (keeps_sub hk rfl) ?_
    | intro _

theorem State.nvTake_keeps {k : Nat} {r s : State} {warm user : List (Nat × Byte)} {tally : Nat} (hk : k &&& 8659232 = 8659232)
    (h : Keeps k r s) : Keeps k r ((s.nvTake warm user tally)) := by
  unfold State.nvTake
  dsimp only
  repeat' first
    | with_reducible assumption
    | with_reducible refine State.mtrFromWarm_keeps (keeps_sub hk rfl) ?_
    | with_reducible refine State.putUserByte_keeps (keeps_sub hk rfl) ?_
    | with_reducible refine State.sramPut_keeps (keeps_sub hk rfl) ?_
    | with_reducible refine State.tallyRaiseTo_keeps (keeps_sub hk rfl) ?_
    | with_reducible refine Keeps.each ?_ ?_
    | intro _

theorem State.mirrorShow_keeps {k : Nat} {r s : State} {f : Sett} (hk : k &&& 8917258 = 8917258)
    (hf : r.Inv → tabWf 0#8 f.bytes = true)
    (h : Keeps k r s) : Keeps k r ((s.mirrorShow f)) := by
  unfold State.mirrorShow
  dsimp only
  repeat' first
    | with_reducible assumption
    | with_reducible exact hf
    | with_reducible refine State.keyCommit_keeps (keeps_sub hk rfl) ?_
    | with_reducible refine State.settShow_keeps (keeps_sub hk rfl) ?_ ?_
    | with_reducible refine State.telegrams_keeps (keeps_sub hk rfl) ?_
    | exact fun _ g => by dsimp only [SettState.wf]; exact g.sett
    | exact fun g _ => by dsimp only [SettState.wf]; exact (h.inv g).sett
    | intro _
    | with_reducible refine Keeps.set_sett (keeps_sub hk rfl) ?_ ?_

theorem State.toStandby_keeps {k : Nat} {r s : State} (hk : k &&& 65792 = 65792)
    (h : Keeps k r s) : Keeps k r (s.toStandby) := by
  unfold State.toStandby
  dsimp only
  repeat' first
    | with_reducible assumption
    | with_reducible refine State.count_keeps (keeps_sub hk rfl) ?_
    | with_reducible refine State.fbpSet_keeps (keeps_sub hk rfl) ?_
    | with_reducible refine State.irqPair_keeps (keeps_sub hk rfl) ?_
    | with_reducible refine State.pairTo_keeps (keeps_sub hk rfl) ?_
    | with_reducible refine State.setFld_keeps (keeps_sub hk rfl) ?_
    | with_reducible refine State.setSync_keeps (keeps_sub hk rfl) ?_
    | exact fun _ g => by dsimp only [FbpState.wf]; exact g.fbp
    | exact fun g _ => by dsimp only [FbpState.wf]; exact (h.inv g).fbp
    | exact fun _ g => by dsimp only [FbpState.wf]; split <;> exact g.fbp
    | with_reducible refine Keeps.cond ?_ ?_
    | split
    | intro _
    | with_reducible refine Keeps.set_fbp (keeps_sub hk rfl) ?_ ?_

theorem State.bulkDone_keeps {k : Nat} {r s : State} {warm user : List (Nat × Byte)} {tally : Nat} (hk : k &&& 8659232 = 8659232)
    (h : Keeps k r s) : Keeps k r ((s.bulkDone warm user tally)) := by
  unfold State.bulkDone
  dsimp only
  repeat' first
    | with_reducible assumption
    | exact fun _ g => by dsimp only [NvState.wf]; exact ⟨g.nv.1, tabWf_foldl_tabSet _ _ _ rfl, g.nv.2.2⟩
    | with_reducible refine State.nvTake_keeps (keeps_sub hk rfl) ?_
    | with_reducible refine State.setFld_keeps (keeps_sub hk rfl) ?_
    | with_reducible refine State.wr_keeps (keeps_sub hk rfl) ?_
    | exact fun _ g => by dsimp only [NvState.wf]; exact g.nv
    | exact fun g _ => by dsimp only [NvState.wf]; exact (h.inv g).nv
    | exact fun _ g => by dsimp only [NvState.wf]; split <;> exact g.nv
    | with_reducible refine Keeps.cond ?_ ?_
    | split
    | intro _
    | with_reducible refine Keeps.set_nv (keeps_sub hk rfl) ?_ ?_
    | with_reducible refine Keeps.set_pair (keeps_sub hk rfl) ?_

theorem State.unitAck_keeps {k : Nat} {r s : State} {u : MirrorUnit} {late : Nat} (hk : k &&& 9253162 = 9253162)
    (h : Keeps k r s) : Keeps k r ((s.unitAck u late)) := by
  unfold State.unitAck
  dsimp only
  repeat' first
    | with_reducible assumption
    | exact fun _ => mirroredSett_wf _ _
    | with_reducible refine State.count_keeps (keeps_sub hk rfl) ?_
    | with_reducible refine State.mirrorShow_keeps (keeps_sub hk rfl) ?_ ?_
    | with_reducible refine State.nvTake_keeps (keeps_sub hk rfl) ?_
    | with_reducible refine State.send_keeps (keeps_sub hk rfl) ?_
    | with_reducible refine State.toStandby_keeps (keeps_sub hk rfl) ?_
    | with_reducible refine State.wr_keeps (keeps_sub hk rfl) ?_
    | with_reducible refine Keeps.only ?_ ?_
    | with_reducible refine Keeps.cond ?_ ?_
    | split
    | intro _
    | with_reducible refine Keeps.set_pair (keeps_sub hk rfl) ?_

theorem State.mirrorUnit_keeps {k : Nat} {r s : State} {u : MirrorUnit} {whole macOk : Bool} {late : Nat} (hk : k &&& 9253162 = 9253162)
    (h : Keeps k r s) : Keeps k r ((s.mirrorUnit u whole macOk late)) := by
  unfold State.mirrorUnit
  dsimp only
  repeat' first
    | with_reducible assumption
    | with_reducible refine State.count_keeps (keeps_sub hk rfl) ?_
    | with_reducible refine State.injRan_keeps (keeps_sub hk rfl) ?_
    | with_reducible refine State.setBit_keeps (keeps_sub hk rfl) ?_
    | with_reducible refine State.setLink_keeps (keeps_sub hk rfl) ?_
    | with_reducible refine State.unitAck_keeps (keeps_sub hk rfl) ?_
    | with_reducible refine Keeps.only ?_ ?_
    | with_reducible refine Keeps.cond ?_ ?_
    | split
    | intro _
    | with_reducible refine Keeps.set_pair (keeps_sub hk rfl) ?_

theorem State.resultTaken_keeps {k : Nat} {r s : State} (hk : k &&& 1028 = 1028)
    (h : Keeps k r s) : Keeps k r (s.resultTaken) := by
  unfold State.resultTaken
  dsimp only
  repeat' first
    | with_reducible assumption
    | with_reducible refine State.count_keeps (keeps_sub hk rfl) ?_
    | with_reducible refine State.setFld_keeps (keeps_sub hk rfl) ?_
    | with_reducible refine State.wr_keeps (keeps_sub hk rfl) ?_
    | exact fun _ g => by dsimp only; with_reducible exact g.tick
    | exact fun g _ => by dsimp only; with_reducible exact (h.inv g).tick
    | exact fun _ g => by dsimp only; split <;> with_reducible exact g.tick
    | with_reducible refine Keeps.cond ?_ ?_
    | split
    | intro _
    | with_reducible refine Keeps.set_lap (keeps_sub hk rfl) ?_ ?_
    | with_reducible refine Keeps.set_dsp (keeps_sub hk rfl) ?_

theorem State.stepShow_keeps {k : Nat} {r s : State} (hk : k &&& 256 = 256)
    (h : Keeps k r s) : Keeps k r (s.stepShow) := by
  unfold State.stepShow
  dsimp only
  repeat' first
    | with_reducible assumption
    | with_reducible refine State.irqRes_keeps (keeps_sub hk rfl) ?_
    | with_reducible refine State.setBit_keeps (keeps_sub hk rfl) ?_
    | with_reducible refine Keeps.only ?_ ?_
    | with_reducible refine Keeps.cond ?_ ?_
    | split
    | intro _

theorem State.dispatchState_keeps {k : Nat} {r s : State} {whole : Bool} {accepted : Option Traj} {toStart : Option Nat} {header setpoints : List Byte} {streams : List (List Word)} (hk : k &&& 1284 = 1284)
    (h : Keeps k r s) : Keeps k r ((s.dispatchState whole accepted toStart header setpoints streams)) := by
  unfold State.dispatchState
  dsimp only
  repeat' first
    | with_reducible assumption
    | with_reducible refine State.count_keeps (keeps_sub hk rfl) ?_
    | with_reducible refine State.resultTaken_keeps (keeps_sub hk rfl) ?_
    | with_reducible refine State.setLink_keeps (keeps_sub hk rfl) ?_
    | with_reducible refine Keeps.cond ?_ ?_
    | split
    | intro _
    | with_reducible refine Keeps.set_dsp (keeps_sub hk rfl) ?_

theorem State.linkTest_keeps {k : Nat} {r s : State} {expired : Bool} (hk : k &&& 256 = 256)
    (h : Keeps k r s) : Keeps k r ((s.linkTest expired)) := by
  unfold State.linkTest
  dsimp only
  repeat' first
    | with_reducible assumption
    | with_reducible refine State.injRan_keeps (keeps_sub hk rfl) ?_
    | with_reducible refine State.setLink_keeps (keeps_sub hk rfl) ?_
    | with_reducible refine Keeps.only ?_ ?_
    | intro _

theorem State.joinWith_keeps {k : Nat} {r s : State} {p : Partner} (hk : k &&& 8448 = 8448)
    (h : Keeps k r s) : Keeps k r ((s.joinWith p)) := by
  unfold State.joinWith
  repeat' first
    | with_reducible assumption
    | with_reducible refine State.beginJoin_keeps (keeps_sub hk rfl) ?_
    | with_reducible refine State.setLink_keeps (keeps_sub hk rfl) ?_
    | intro _
    | with_reducible refine Keeps.set_pair (keeps_sub hk rfl) ?_

theorem State.syncLoss_keeps {k : Nat} {r s : State} {cause : SyncLoss} (hk : k &&& 8448 = 8448)
    (h : Keeps k r s) : Keeps k r ((s.syncLoss cause)) := by
  unfold State.syncLoss
  dsimp only
  repeat' first
    | with_reducible assumption
    | with_reducible refine State.beginJoin_keeps (keeps_sub hk rfl) ?_
    | with_reducible refine State.count_keeps (keeps_sub hk rfl) ?_
    | with_reducible refine State.pairTo_keeps (keeps_sub hk rfl) ?_
    | with_reducible refine State.setBit_keeps (keeps_sub hk rfl) ?_
    | with_reducible refine State.setSync_keeps (keeps_sub hk rfl) ?_
    | with_reducible refine Keeps.only ?_ ?_
    | with_reducible refine Keeps.cond ?_ ?_
    | split
    | intro _

theorem State.takeEpoch_keeps {k : Nat} {r s : State} (hk : k &&& 8388904 = 8388904)
    (h : Keeps k r s) : Keeps k r (s.takeEpoch) := by
  unfold State.takeEpoch
  dsimp only
  repeat' first
    | with_reducible assumption
    | with_reducible refine State.tallyRaiseTo_keeps (keeps_sub hk rfl) ?_
    | exact fun _ g => by dsimp only [SettState.wf]; exact g.sett
    | exact fun g _ => by dsimp only [SettState.wf]; exact (h.inv g).sett
    | exact fun _ g => by dsimp only [SettState.wf]; split <;> exact g.sett
    | with_reducible refine Keeps.cond ?_ ?_
    | split
    | intro _
    | with_reducible refine Keeps.set_sett (keeps_sub hk rfl) ?_ ?_

theorem State.takeUnit_keeps {k : Nat} {r s : State} {u : MirrorUnit} (hk : k &&& 114688 = 114688)
    (h : Keeps k r s) : Keeps k r ((s.takeUnit u)) := by
  unfold State.takeUnit
  dsimp only
  repeat' first
    | with_reducible assumption
    | exact fun x g => ⟨tabWf_tabSetList _ _ _ _ rfl, tabWf_tabSetList _ _ _ _ rfl, g.fbp.2.2⟩
    | with_reducible refine State.putLoop_keeps (keeps_sub hk rfl) ?_
    | with_reducible refine Keeps.each ?_ ?_
    | exact fun _ g => by dsimp only [FbpState.wf]; exact g.fbp
    | exact fun g _ => by dsimp only [FbpState.wf]; exact (h.inv g).fbp
    | intro _
    | with_reducible refine Keeps.set_fbp_field (keeps_sub hk rfl) ?_ ?_

theorem State.takeDispatch_keeps {k : Nat} {r s : State} (hk : k &&& 1024 = 1024)
    (h : Keeps k r s) : Keeps k r (s.takeDispatch) := by
  unfold State.takeDispatch
  dsimp only
  repeat' first
    | with_reducible assumption
    | with_reducible refine State.count_keeps (keeps_sub hk rfl) ?_
    | intro _
    | with_reducible refine Keeps.set_dsp (keeps_sub hk rfl) ?_

theorem State.takeWarm_keeps {k : Nat} {r s : State} (hk : k &&& 115712 = 115712)
    (h : Keeps k r s) : Keeps k r (s.takeWarm) := by
  unfold State.takeWarm
  dsimp only
  repeat' first
    | with_reducible assumption
    | with_reducible refine State.fbpRun_keeps (keeps_sub hk rfl) ?_
    | with_reducible refine State.takeDispatch_keeps (keeps_sub hk rfl) ?_
    | with_reducible refine State.takeUnit_keeps (keeps_sub hk rfl) ?_
    | exact fun _ g => by dsimp only [FbpState.wf]; exact g.fbp
    | exact fun g _ => by dsimp only [FbpState.wf]; exact (h.inv g).fbp
    | exact fun _ g => by dsimp only [FbpState.wf]; split <;> exact g.fbp
    | with_reducible refine Keeps.cond ?_ ?_
    | split
    | intro _
    | with_reducible refine Keeps.set_fbp (keeps_sub hk rfl) ?_ ?_

theorem State.takeCold_keeps {k : Nat} {r s : State} (hk : k &&& 361856 = 361856)
    (h : Keeps k r s) : Keeps k r (s.takeCold) := by
  unfold State.takeCold
  dsimp only
  repeat' first
    | with_reducible assumption
    | with_reducible refine State.fbpStart_keeps (keeps_sub hk rfl) ?_
    | with_reducible refine State.loadFbprog_keeps (keeps_sub hk rfl) ?_
    | with_reducible refine State.loopsStart_keeps (keeps_sub hk rfl) ?_
    | with_reducible refine State.mtrRestore_keeps (keeps_sub hk rfl) ?_
    | with_reducible refine State.setBit_keeps (keeps_sub hk rfl) ?_
    | with_reducible refine Keeps.only ?_ ?_
    | with_reducible refine Keeps.cond ?_ ?_
    | split
    | intro _
    | with_reducible refine Keeps.set_dsp (keeps_sub hk rfl) ?_

theorem State.joinAbandon_keeps {k : Nat} {r s : State} (hk : k &&& 0 = 0)
    (h : Keeps k r s) : Keeps k r (s.joinAbandon) := by
  unfold State.joinAbandon
  repeat' first
    | with_reducible assumption
    | with_reducible refine State.count_keeps (keeps_sub hk rfl) ?_
    | with_reducible refine State.setBit_keeps (keeps_sub hk rfl) ?_
    | with_reducible refine State.setFld_keeps (keeps_sub hk rfl) ?_
    | with_reducible refine Keeps.only ?_ ?_
    | intro _

theorem State.takeUnmeas_keeps {k : Nat} {r s : State} (hk : k &&& 262528 = 262528)
    (h : Keeps k r s) : Keeps k r (s.takeUnmeas) := by
  unfold State.takeUnmeas
  dsimp only
  repeat' first
    | with_reducible assumption
    | with_reducible refine State.addEnergy_keeps (keeps_sub hk rfl) ?_
    | with_reducible refine State.count_keeps (keeps_sub hk rfl) ?_
    | with_reducible refine State.raiseEv_keeps (keeps_sub hk rfl) ?_
    | with_reducible refine Keeps.each ?_ ?_
    | split
    | intro _

theorem State.takeActive_keeps {k : Nat} {r s : State} (hk : k &&& 8775080 = 8775080)
    (h : Keeps k r s) : Keeps k r (s.takeActive) := by
  unfold State.takeActive
  dsimp only
  repeat' first
    | with_reducible assumption
    | with_reducible refine State.count_keeps (keeps_sub hk rfl) ?_
    | with_reducible refine State.joinAbandon_keeps (keeps_sub hk rfl) ?_
    | with_reducible refine State.pairTo_keeps (keeps_sub hk rfl) ?_
    | with_reducible refine State.setBit_keeps (keeps_sub hk rfl) ?_
    | with_reducible refine State.setFld_keeps (keeps_sub hk rfl) ?_
    | with_reducible refine State.setLatch_keeps (keeps_sub hk rfl) ?_
    | with_reducible refine State.setSync_keeps (keeps_sub hk rfl) ?_
    | with_reducible refine State.takeCold_keeps (keeps_sub hk rfl) ?_
    | with_reducible refine State.takeEpoch_keeps (keeps_sub hk rfl) ?_
    | with_reducible refine State.takeUnmeas_keeps (keeps_sub hk rfl) ?_
    | with_reducible refine State.takeWarm_keeps (keeps_sub hk rfl) ?_
    | with_reducible refine State.wsResult_keeps (keeps_sub hk rfl) ?_
    | with_reducible refine Keeps.cond ?_ ?_
    | split
    | intro _
    | with_reducible refine Keeps.set_pair (keeps_sub hk rfl) ?_

theorem State.leaveActive_keeps {k : Nat} {r s : State} (hk : k &&& 9484 = 9484)
    (h : Keeps k r s) : Keeps k r (s.leaveActive) := by
  unfold State.leaveActive
  dsimp only
  repeat' first
    | with_reducible assumption
    | with_reducible refine State.count_keeps (keeps_sub hk rfl) ?_
    | with_reducible refine State.cycleAbort_keeps (keeps_sub hk rfl) ?_
    | with_reducible refine State.gating_keeps (keeps_sub hk rfl) ?_ ?_
    | with_reducible refine State.pairTo_keeps (keeps_sub hk rfl) ?_
    | with_reducible refine State.setBit_keeps (keeps_sub hk rfl) ?_
    | with_reducible refine State.wsResult_keeps (keeps_sub hk rfl) ?_
    | with_reducible refine Keeps.cond ?_ ?_
    | split
    | intro _
    | with_reducible refine Keeps.set_pair (keeps_sub hk rfl) ?_

theorem State.heartbeatLap_keeps {k : Nat} {r s : State} (hk : k &&& 8396802 = 8396802)
    (h : Keeps k r s) : Keeps k r (s.heartbeatLap) := by
  unfold State.heartbeatLap
  repeat' first
    | with_reducible assumption
    | with_reducible refine State.count_keeps (keeps_sub hk rfl) ?_
    | with_reducible refine State.sendHeartbeat_keeps (keeps_sub hk rfl) ?_
    | with_reducible refine Keeps.cond ?_ ?_
    | split
    | intro _

theorem State.pairRefused_keeps {k : Nat} {r s : State} (hk : k &&& 0 = 0)
    (h : Keeps k r s) : Keeps k r (s.pairRefused) := by
  unfold State.pairRefused
  repeat' first
    | with_reducible assumption
    | with_reducible refine State.count_keeps (keeps_sub hk rfl) ?_
    | with_reducible refine State.setBit_keeps (keeps_sub hk rfl) ?_
    | intro _

theorem State.pairCtrl_keeps {k : Nat} {r s : State} {v : Word} (hk : k &&& 8448 = 8448)
    (h : Keeps k r s) : Keeps k r ((s.pairCtrl v)) := by
  unfold State.pairCtrl
  dsimp only
  repeat' first
    | with_reducible assumption
    | with_reducible refine State.beginJoin_keeps (keeps_sub hk rfl) ?_
    | with_reducible refine State.setBit_keeps (keeps_sub hk rfl) ?_
    | with_reducible refine Keeps.only ?_ ?_
    | with_reducible refine Keeps.cond ?_ ?_
    | split
    | intro _
    | with_reducible refine Keeps.set_pair (keeps_sub hk rfl) ?_

theorem State.witCtrl_keeps {k : Nat} {r s : State} {v : Word} (hk : k &&& 8192 = 8192)
    (h : Keeps k r s) : Keeps k r ((s.witCtrl v)) := by
  unfold State.witCtrl
  repeat' first
    | with_reducible assumption
    | with_reducible refine Keeps.cond ?_ ?_
    | split
    | intro _
    | with_reducible refine Keeps.set_pair (keeps_sub hk rfl) ?_

theorem State.pairStart_keeps {k : Nat} {r s : State} (hk : k &&& 8192 = 8192)
    (h : Keeps k r s) : Keeps k r (s.pairStart) := by
  unfold State.pairStart
  dsimp only
  repeat' first
    | with_reducible assumption
    | with_reducible refine State.count_keeps (keeps_sub hk rfl) ?_
    | with_reducible refine State.setFld_keeps (keeps_sub hk rfl) ?_
    | split
    | intro _
    | with_reducible refine Keeps.set_pair (keeps_sub hk rfl) ?_

theorem State.showPairUnit_keeps {k : Nat} {r s : State} (hk : k &&& 0 = 0)
    (h : Keeps k r s) : Keeps k r (s.showPairUnit) := by
  unfold State.showPairUnit
  repeat' first
    | with_reducible assumption
    | with_reducible refine State.wr_keeps (keeps_sub hk rfl) ?_
    | with_reducible refine Keeps.cond ?_ ?_
    | split
    | intro _

end Sys2Proof.Machine
end

