-- ==== Sys2Proof/Laws/KeepsPtpOps.lean ====
section
/-!
SUPPORT. Laws/KeepsPtpOps.lean: what the operations of Machine/PtpOps.lean keep (`Keeps`).
-/

namespace Sys2Proof.Machine

theorem State.ptpRate_keeps {k : Nat} {r s : State} (hk : k &&& 0 = 0)
    (h : Keeps k r s) : Keeps k r (s.ptpRate) := by
  unfold State.ptpRate
  dsimp only
  repeat' first
    | with_reducible assumption
    | with_reducible refine State.roundOpen_keeps (keeps_sub hk rfl) ?_
    | with_reducible refine State.wr_keeps (keeps_sub hk rfl) ?_
    | intro _

theorem State.clkRun_keeps {k : Nat} {r s : State} {dt : Rat} (hk : k &&& 1048576 = 1048576)
    (h : Keeps k r s) : Keeps k r ((s.clkRun dt)) := by
  unfold State.clkRun
  dsimp only
  repeat' first
    | with_reducible assumption
    | with_reducible refine Keeps.cond ?_ ?_
    | split
    | intro _
    | with_reducible refine Keeps.set_ptp (keeps_sub hk rfl) ?_

theorem State.rampEnd_keeps {k : Nat} {r s : State} (hk : k &&& 1048576 = 1048576)
    (h : Keeps k r s) : Keeps k r (s.rampEnd) := by
  unfold State.rampEnd
  dsimp only
  repeat' first
    | with_reducible assumption
    | with_reducible refine State.ptpRate_keeps (keeps_sub hk rfl) ?_
    | with_reducible refine State.setBit_keeps (keeps_sub hk rfl) ?_
    | intro _
    | with_reducible refine Keeps.set_ptp (keeps_sub hk rfl) ?_

theorem State.ptpTo_keeps {k : Nat} {r s : State} {t : Rat} (hk : k &&& 1048576 = 1048576)
    (h : Keeps k r s) : Keeps k r ((s.ptpTo t)) := by
  unfold State.ptpTo
  dsimp only
  repeat' first
    | with_reducible assumption
    | with_reducible refine State.clkRun_keeps (keeps_sub hk rfl) ?_
    | with_reducible refine State.rampEnd_keeps (keeps_sub hk rfl) ?_
    | with_reducible refine Keeps.cond ?_ ?_
    | split
    | intro _

theorem State.ptpSync_keeps {k : Nat} {r s : State} (hk : k &&& 1048576 = 1048576)
    (h : Keeps k r s) : Keeps k r (s.ptpSync) := by
  unfold State.ptpSync
  repeat' first
    | with_reducible assumption
    | with_reducible refine State.ptpTo_keeps (keeps_sub hk rfl) ?_
    | intro _

theorem State.rampFinish_keeps {k : Nat} {r s : State} (hk : k &&& 1048576 = 1048576)
    (h : Keeps k r s) : Keeps k r (s.rampFinish) := by
  unfold State.rampFinish
  dsimp only
  repeat' first
    | with_reducible assumption
    | with_reducible refine State.ptpSync_keeps (keeps_sub hk rfl) ?_
    | with_reducible refine State.rampEnd_keeps (keeps_sub hk rfl) ?_
    | with_reducible refine Keeps.cond ?_ ?_
    | split
    | intro _

theorem State.ptpStepBy_keeps {k : Nat} {r s : State} {d : Rat} (hk : k &&& 1048576 = 1048576)
    (h : Keeps k r s) : Keeps k r ((s.ptpStepBy d)) := by
  unfold State.ptpStepBy
  dsimp only
  repeat' first
    | with_reducible assumption
    | with_reducible refine State.count_keeps (keeps_sub hk rfl) ?_
    | with_reducible refine State.setBit_keeps (keeps_sub hk rfl) ?_
    | intro _
    | with_reducible refine Keeps.set_ptp (keeps_sub hk rfl) ?_

theorem State.putDom_keeps {k : Nat} {r s : State} {d : Nat} {x : PtpDomain} (hk : k &&& 1048576 = 1048576)
    (h : Keeps k r s) : Keeps k r ((s.putDom d x)) := by
  unfold State.putDom
  dsimp only
  repeat' first
    | with_reducible assumption
    | with_reducible refine State.setFld_keeps (keeps_sub hk rfl) ?_
    | with_reducible refine Keeps.cond ?_ ?_
    | split
    | intro _
    | with_reducible refine Keeps.set_ptp (keeps_sub hk rfl) ?_

theorem State.setLock_keeps {k : Nat} {r s : State} {b : Bool} (hk : k &&& 260 = 260)
    (h : Keeps k r s) : Keeps k r ((s.setLock b)) := by
  unfold State.setLock
  repeat' first
    | with_reducible assumption
    | with_reducible refine State.irqPtp_keeps (keeps_sub hk rfl) ?_
    | with_reducible refine State.netLost_keeps (keeps_sub hk rfl) ?_
    | with_reducible refine State.setBit_keeps (keeps_sub hk rfl) ?_
    | with_reducible refine Keeps.only ?_ ?_
    | with_reducible refine Keeps.cond ?_ ?_
    | split
    | intro _

theorem State.rampStart_keeps {k : Nat} {r s : State} {d : Nat} (hk : k &&& 1048576 = 1048576)
    (h : Keeps k r s) : Keeps k r ((s.rampStart d)) := by
  unfold State.rampStart
  dsimp only
  repeat' first
    | with_reducible assumption
    | with_reducible refine State.ptpRate_keeps (keeps_sub hk rfl) ?_
    | with_reducible refine State.setBit_keeps (keeps_sub hk rfl) ?_
    | with_reducible refine Keeps.cond ?_ ?_
    | split
    | intro _
    | with_reducible refine Keeps.set_ptp (keeps_sub hk rfl) ?_

theorem State.taiCopy_keeps {k : Nat} {r s : State} {w : Word} (hk : k &&& 0 = 0)
    (h : Keeps k r s) : Keeps k r ((s.taiCopy w)) := by
  unfold State.taiCopy
  repeat' first
    | with_reducible assumption
    | with_reducible refine State.setFld_keeps (keeps_sub hk rfl) ?_
    | with_reducible refine Keeps.only ?_ ?_
    | intro _

theorem State.taiLead_keeps {k : Nat} {r s : State} {d : Nat} (hk : k &&& 0 = 0)
    (h : Keeps k r s) : Keeps k r ((s.taiLead d)) := by
  unfold State.taiLead
  dsimp only
  repeat' first
    | with_reducible assumption
    | with_reducible refine State.taiCopy_keeps (keeps_sub hk rfl) ?_
    | with_reducible refine Keeps.only ?_ ?_
    | intro _

theorem State.leadBy_keeps {k : Nat} {r s : State} {d : Nat} (hk : k &&& 1048576 = 1048576)
    (h : Keeps k r s) : Keeps k r ((s.leadBy d)) := by
  unfold State.leadBy
  dsimp only
  repeat' first
    | with_reducible assumption
    | with_reducible refine State.rampStart_keeps (keeps_sub hk rfl) ?_
    | with_reducible refine State.setFld_keeps (keeps_sub hk rfl) ?_
    | with_reducible refine State.taiLead_keeps (keeps_sub hk rfl) ?_
    | with_reducible refine Keeps.cond ?_ ?_
    | split
    | intro _
    | with_reducible refine Keeps.set_ptp (keeps_sub hk rfl) ?_

theorem State.rampWord_keeps {k : Nat} {r s : State} (hk : k &&& 0 = 0)
    (h : Keeps k r s) : Keeps k r ((s.rampWord).2) := by
  unfold State.rampWord
  dsimp only
  repeat' first
    | with_reducible assumption
    | with_reducible refine State.roundOpen_keeps (keeps_sub hk rfl) ?_
    | intro _

theorem State.switchMarks_keeps {k : Nat} {r s : State} (hk : k &&& 256 = 256)
    (h : Keeps k r s) : Keeps k r (s.switchMarks) := by
  unfold State.switchMarks
  repeat' first
    | with_reducible assumption
    | with_reducible refine State.count_keeps (keeps_sub hk rfl) ?_
    | with_reducible refine State.irqPtp_keeps (keeps_sub hk rfl) ?_
    | with_reducible refine State.setBit_keeps (keeps_sub hk rfl) ?_
    | intro _

theorem State.switchTo_keeps {k : Nat} {r s : State} {d loss : Nat} (hk : k &&& 1048960 = 1048960)
    (h : Keeps k r s) : Keeps k r ((s.switchTo d loss)) := by
  unfold State.switchTo
  dsimp only
  repeat' first
    | with_reducible assumption
    | with_reducible refine State.leadBy_keeps (keeps_sub hk rfl) ?_
    | with_reducible refine State.raiseEv_keeps (keeps_sub hk rfl) ?_
    | with_reducible refine State.rampWord_keeps (keeps_sub hk rfl) ?_
    | with_reducible refine State.switchMarks_keeps (keeps_sub hk rfl) ?_
    | intro _

theorem State.holdover_keeps {k : Nat} {r s : State} (hk : k &&& 1048836 = 1048836)
    (h : Keeps k r s) : Keeps k r (s.holdover) := by
  unfold State.holdover
  dsimp only
  repeat' first
    | with_reducible assumption
    | with_reducible refine State.count_keeps (keeps_sub hk rfl) ?_
    | with_reducible refine State.irqPtp_keeps (keeps_sub hk rfl) ?_
    | with_reducible refine State.ptpRate_keeps (keeps_sub hk rfl) ?_
    | with_reducible refine State.setBit_keeps (keeps_sub hk rfl) ?_
    | with_reducible refine State.setFld_keeps (keeps_sub hk rfl) ?_
    | with_reducible refine State.setLock_keeps (keeps_sub hk rfl) ?_
    | intro _
    | with_reducible refine Keeps.set_ptp (keeps_sub hk rfl) ?_

theorem State.acquireStep_keeps {k : Nat} {r s : State} {d : Nat} (hk : k &&& 1048576 = 1048576)
    (h : Keeps k r s) : Keeps k r ((s.acquireStep d)) := by
  unfold State.acquireStep
  dsimp only
  repeat' first
    | with_reducible assumption
    | with_reducible refine State.ptpStepBy_keeps (keeps_sub hk rfl) ?_
    | with_reducible refine State.setFld_keeps (keeps_sub hk rfl) ?_
    | with_reducible refine State.taiLead_keeps (keeps_sub hk rfl) ?_
    | intro _
    | with_reducible refine Keeps.set_ptp (keeps_sub hk rfl) ?_

theorem State.acquire_keeps {k : Nat} {r s : State} (hk : k &&& 1048576 = 1048576)
    (h : Keeps k r s) : Keeps k r (s.acquire) := by
  unfold State.acquire
  repeat' first
    | with_reducible assumption
    | with_reducible refine State.acquireStep_keeps (keeps_sub hk rfl) ?_
    | with_reducible refine Keeps.cond ?_ ?_
    | split
    | intro _

theorem State.toAcquire_keeps {k : Nat} {r s : State} (hk : k &&& 1048836 = 1048836)
    (h : Keeps k r s) : Keeps k r (s.toAcquire) := by
  unfold State.toAcquire
  repeat' first
    | with_reducible assumption
    | with_reducible refine State.acquire_keeps (keeps_sub hk rfl) ?_
    | with_reducible refine State.setFld_keeps (keeps_sub hk rfl) ?_
    | with_reducible refine State.setLock_keeps (keeps_sub hk rfl) ?_
    | intro _

theorem State.toFree_keeps {k : Nat} {r s : State} (hk : k &&& 1048836 = 1048836)
    (h : Keeps k r s) : Keeps k r (s.toFree) := by
  unfold State.toFree
  dsimp only
  repeat' first
    | with_reducible assumption
    | with_reducible refine State.setBit_keeps (keeps_sub hk rfl) ?_
    | with_reducible refine State.setFld_keeps (keeps_sub hk rfl) ?_
    | with_reducible refine State.setLock_keeps (keeps_sub hk rfl) ?_
    | intro _
    | with_reducible refine Keeps.set_ptp (keeps_sub hk rfl) ?_

theorem State.qualify_keeps {k : Nat} {r s : State} {d : Nat} (hk : k &&& 1048832 = 1048832)
    (h : Keeps k r s) : Keeps k r ((s.qualify d)) := by
  unfold State.qualify
  dsimp only
  repeat' first
    | with_reducible assumption
    | with_reducible refine State.acquireStep_keeps (keeps_sub hk rfl) ?_
    | with_reducible refine State.irqPtp_keeps (keeps_sub hk rfl) ?_
    | with_reducible refine State.leadBy_keeps (keeps_sub hk rfl) ?_
    | with_reducible refine State.putDom_keeps (keeps_sub hk rfl) ?_
    | with_reducible refine Keeps.cond ?_ ?_
    | split
    | intro _

theorem State.leadLost_keeps {k : Nat} {r s : State} {d loss : Nat} (hk : k &&& 1048964 = 1048964)
    (h : Keeps k r s) : Keeps k r ((s.leadLost d loss)) := by
  unfold State.leadLost
  repeat' first
    | with_reducible assumption
    | with_reducible refine State.holdover_keeps (keeps_sub hk rfl) ?_
    | with_reducible refine State.switchTo_keeps (keeps_sub hk rfl) ?_
    | with_reducible refine Keeps.cond ?_ ?_
    | split
    | intro _
    | with_reducible refine Keeps.set_ptp (keeps_sub hk rfl) ?_

theorem State.domLoss_keeps {k : Nat} {r s : State} {d loss : Nat} (hk : k &&& 1048964 = 1048964)
    (h : Keeps k r s) : Keeps k r ((s.domLoss d loss)) := by
  unfold State.domLoss
  dsimp only
  repeat' first
    | with_reducible assumption
    | with_reducible refine State.irqPtp_keeps (keeps_sub hk rfl) ?_
    | with_reducible refine State.leadLost_keeps (keeps_sub hk rfl) ?_
    | with_reducible refine State.putDom_keeps (keeps_sub hk rfl) ?_
    | with_reducible refine State.setBit_keeps (keeps_sub hk rfl) ?_
    | with_reducible refine State.setFld_keeps (keeps_sub hk rfl) ?_
    | with_reducible refine Keeps.only ?_ ?_
    | with_reducible refine Keeps.cond ?_ ?_
    | split
    | intro _

theorem State.servo_keeps {k : Nat} {r s : State} {e : Rat} (hk : k &&& 1048576 = 1048576)
    (h : Keeps k r s) : Keeps k r ((s.servo e)) := by
  unfold State.servo
  dsimp only
  repeat' first
    | with_reducible assumption
    | with_reducible refine State.ptpRate_keeps (keeps_sub hk rfl) ?_
    | with_reducible refine Keeps.cond ?_ ?_
    | split
    | intro _
    | with_reducible refine Keeps.set_ptp (keeps_sub hk rfl) ?_

theorem State.lockCount_keeps {k : Nat} {r s : State} {e : Rat} (hk : k &&& 1048836 = 1048836)
    (h : Keeps k r s) : Keeps k r ((s.lockCount e)) := by
  unfold State.lockCount
  dsimp only
  repeat' first
    | with_reducible assumption
    | with_reducible refine State.setLock_keeps (keeps_sub hk rfl) ?_
    | with_reducible refine Keeps.only ?_ ?_
    | with_reducible refine Keeps.cond ?_ ?_
    | split
    | intro _
    | with_reducible refine Keeps.set_ptp (keeps_sub hk rfl) ?_

theorem State.ptpSample_keeps {k : Nat} {r s : State} {d : Nat} {ofs : Rat} (hk : k &&& 1048964 = 1048964)
    (h : Keeps k r s) : Keeps k r ((s.ptpSample d ofs)) := by
  unfold State.ptpSample
  dsimp only
  repeat' first
    | with_reducible assumption
    | with_reducible refine State.domLoss_keeps (keeps_sub hk rfl) ?_
    | with_reducible refine State.injRan_keeps (keeps_sub hk rfl) ?_
    | with_reducible refine State.lockCount_keeps (keeps_sub hk rfl) ?_
    | with_reducible refine State.putDom_keeps (keeps_sub hk rfl) ?_
    | with_reducible refine State.qualify_keeps (keeps_sub hk rfl) ?_
    | with_reducible refine State.roundOpen_keeps (keeps_sub hk rfl) ?_
    | with_reducible refine State.servo_keeps (keeps_sub hk rfl) ?_
    | with_reducible refine State.wr_keeps (keeps_sub hk rfl) ?_
    | with_reducible refine Keeps.only ?_ ?_
    | with_reducible refine Keeps.cond ?_ ?_
    | split
    | intro _
    | with_reducible refine Keeps.set_ptp (keeps_sub hk rfl) ?_

theorem State.ptpDiff_keeps {k : Nat} {r s : State} {d : Nat} {diff : Rat} (hk : k &&& 1048964 = 1048964)
    (h : Keeps k r s) : Keeps k r ((s.ptpDiff d diff)) := by
  unfold State.ptpDiff
  dsimp only
  repeat' first
    | with_reducible assumption
    | with_reducible refine State.ptpSample_keeps (keeps_sub hk rfl) ?_
    | with_reducible refine State.putDom_keeps (keeps_sub hk rfl) ?_
    | with_reducible refine State.roundOpen_keeps (keeps_sub hk rfl) ?_
    | split
    | intro _

theorem State.ptpMessage_keeps {k : Nat} {r s : State} {p : Nat} {m : List Byte} {kind : Nat} {f : Nat → State → State} (hk : k &&& 9961728 = 9961728)
    (hf : ∀ i u, Keeps k r u → Keeps k r (f i u))
    (h : Keeps k r s) : Keeps k r ((s.ptpMessage p m kind f)) := by
  unfold State.ptpMessage
  dsimp only
  repeat' first
    | with_reducible assumption
    | with_reducible refine hf _ _ ?_
    | with_reducible refine State.charge_keeps (keeps_sub hk rfl) ?_
    | with_reducible refine State.count_keeps (keeps_sub hk rfl) ?_
    | with_reducible refine State.ethTake_keeps (keeps_sub hk rfl) ?_ ?_
    | with_reducible refine State.ptpSync_keeps (keeps_sub hk rfl) ?_
    | with_reducible refine Keeps.cond ?_ ?_
    | split
    | intro _

theorem State.ifMaster_keeps {k : Nat} {r s : State} {d p : Nat} {m : List Byte} {f : State → State} (hk : k &&& 0 = 0)
    (hf : ∀ u, Keeps k r u → Keeps k r (f u))
    (h : Keeps k r s) : Keeps k r ((s.ifMaster d p m f)) := by
  unfold State.ifMaster
  repeat' first
    | with_reducible assumption
    | with_reducible refine hf _ ?_
    | with_reducible refine State.count_keeps (keeps_sub hk rfl) ?_
    | with_reducible refine Keeps.cond ?_ ?_
    | split
    | intro _

theorem State.showMaster_keeps {k : Nat} {r s : State} {d : Nat} {m : PtpMaster} (hk : k &&& 0 = 0)
    (h : Keeps k r s) : Keeps k r ((s.showMaster d m)) := by
  unfold State.showMaster
  dsimp only
  repeat' first
    | with_reducible assumption
    | with_reducible refine State.taiCopy_keeps (keeps_sub hk rfl) ?_
    | with_reducible refine State.wr_keeps (keeps_sub hk rfl) ?_
    | with_reducible refine Keeps.only ?_ ?_
    | intro _

theorem State.selectMaster_keeps {k : Nat} {r s : State} {d : Nat} (hk : k &&& 1048964 = 1048964)
    (h : Keeps k r s) : Keeps k r ((s.selectMaster d)) := by
  unfold State.selectMaster
  dsimp only
  repeat' first
    | with_reducible assumption
    | with_reducible refine State.domLoss_keeps (keeps_sub hk rfl) ?_
    | with_reducible refine State.putDom_keeps (keeps_sub hk rfl) ?_
    | with_reducible refine State.showMaster_keeps (keeps_sub hk rfl) ?_
    | with_reducible refine Keeps.only ?_ ?_
    | with_reducible refine Keeps.cond ?_ ?_
    | split
    | intro _

theorem State.ptpAnnounce_keeps {k : Nat} {r s : State} {p : Nat} {m : List Byte} (hk : k &&& 9961860 = 9961860)
    (h : Keeps k r s) : Keeps k r ((s.ptpAnnounce p m)) := by
  unfold State.ptpAnnounce
  dsimp only
  repeat' first
    | with_reducible assumption
    | with_reducible refine State.count_keeps (keeps_sub hk rfl) ?_
    | with_reducible refine State.ptpMessage_keeps (keeps_sub hk rfl) ?_ ?_
    | with_reducible refine State.putDom_keeps (keeps_sub hk rfl) ?_
    | with_reducible refine State.selectMaster_keeps (keeps_sub hk rfl) ?_
    | with_reducible refine Keeps.cond ?_ ?_
    | split
    | intro _

theorem State.ptpSyncMsg_keeps {k : Nat} {r s : State} {p : Nat} {m : List Byte} {within : Nat} (hk : k &&& 9961860 = 9961860)
    (h : Keeps k r s) : Keeps k r ((s.ptpSyncMsg p m within)) := by
  unfold State.ptpSyncMsg
  dsimp only
  repeat' first
    | with_reducible assumption
    | with_reducible refine State.count_keeps (keeps_sub hk rfl) ?_
    | with_reducible refine State.ifMaster_keeps (keeps_sub hk rfl) ?_ ?_
    | with_reducible refine State.ptpDiff_keeps (keeps_sub hk rfl) ?_
    | with_reducible refine State.ptpMessage_keeps (keeps_sub hk rfl) ?_ ?_
    | with_reducible refine State.putDom_keeps (keeps_sub hk rfl) ?_
    | with_reducible refine State.setFld_keeps (keeps_sub hk rfl) ?_
    | with_reducible refine Keeps.cond ?_ ?_
    | split
    | intro _

theorem State.delaySample_keeps {k : Nat} {r s : State} {d : Nat} {v : Rat} (hk : k &&& 1048576 = 1048576)
    (h : Keeps k r s) : Keeps k r ((s.delaySample d v)) := by
  unfold State.delaySample
  dsimp only
  repeat' first
    | with_reducible assumption
    | with_reducible refine State.count_keeps (keeps_sub hk rfl) ?_
    | with_reducible refine State.putDom_keeps (keeps_sub hk rfl) ?_
    | with_reducible refine State.roundOpen_keeps (keeps_sub hk rfl) ?_
    | with_reducible refine State.wr_keeps (keeps_sub hk rfl) ?_
    | with_reducible refine Keeps.cond ?_ ?_
    | split
    | intro _

theorem State.delayPair_keeps {k : Nat} {r s : State} {d : Nat} {x : DelayReq} (hk : k &&& 1048576 = 1048576)
    (h : Keeps k r s) : Keeps k r ((s.delayPair d x)) := by
  unfold State.delayPair
  repeat' first
    | with_reducible assumption
    | with_reducible refine State.delaySample_keeps (keeps_sub hk rfl) ?_
    | with_reducible refine State.putDom_keeps (keeps_sub hk rfl) ?_
    | with_reducible refine Keeps.cond ?_ ?_
    | split
    | intro _

theorem State.delaySync_keeps {k : Nat} {r s : State} {d seq : Nat} {diff : Rat} (hk : k &&& 1048576 = 1048576)
    (h : Keeps k r s) : Keeps k r ((s.delaySync d seq diff)) := by
  unfold State.delaySync
  repeat' first
    | with_reducible assumption
    | with_reducible refine State.delayPair_keeps (keeps_sub hk rfl) ?_
    | with_reducible refine Keeps.cond ?_ ?_
    | split
    | intro _

theorem State.ptpFollowUp_keeps {k : Nat} {r s : State} {p : Nat} {m : List Byte} (hk : k &&& 9961860 = 9961860)
    (h : Keeps k r s) : Keeps k r ((s.ptpFollowUp p m)) := by
  unfold State.ptpFollowUp
  dsimp only
  repeat' first
    | with_reducible assumption
    | with_reducible refine State.delaySync_keeps (keeps_sub hk rfl) ?_
    | with_reducible refine State.ifMaster_keeps (keeps_sub hk rfl) ?_ ?_
    | with_reducible refine State.ptpDiff_keeps (keeps_sub hk rfl) ?_
    | with_reducible refine State.ptpMessage_keeps (keeps_sub hk rfl) ?_ ?_
    | with_reducible refine Keeps.cond ?_ ?_
    | split
    | intro _

theorem State.ptpDelayResp_keeps {k : Nat} {r s : State} {p : Nat} {m : List Byte} (hk : k &&& 9961728 = 9961728)
    (h : Keeps k r s) : Keeps k r ((s.ptpDelayResp p m)) := by
  unfold State.ptpDelayResp
  repeat' first
    | with_reducible assumption
    | with_reducible refine State.count_keeps (keeps_sub hk rfl) ?_
    | with_reducible refine State.delayPair_keeps (keeps_sub hk rfl) ?_
    | with_reducible refine State.ifMaster_keeps (keeps_sub hk rfl) ?_ ?_
    | with_reducible refine State.ptpMessage_keeps (keeps_sub hk rfl) ?_ ?_
    | with_reducible refine Keeps.cond ?_ ?_
    | split
    | intro _

theorem State.ptpDelayReq_keeps {k : Nat} {r s : State} {d within : Nat} (hk : k &&& 9437186 = 9437186)
    (h : Keeps k r s) : Keeps k r ((s.ptpDelayReq d within)) := by
  unfold State.ptpDelayReq
  dsimp only
  repeat' first
    | with_reducible assumption
    | with_reducible refine State.count_keeps (keeps_sub hk rfl) ?_
    | with_reducible refine State.ptpSync_keeps (keeps_sub hk rfl) ?_
    | with_reducible refine State.putDom_keeps (keeps_sub hk rfl) ?_
    | with_reducible refine State.send_keeps (keeps_sub hk rfl) ?_
    | with_reducible refine Keeps.cond ?_ ?_
    | split
    | intro _

theorem State.announceTimeout_keeps {k : Nat} {r s : State} {d : Nat} (hk : k &&& 1048964 = 1048964)
    (h : Keeps k r s) : Keeps k r ((s.announceTimeout d)) := by
  unfold State.announceTimeout
  dsimp only
  repeat' first
    | with_reducible assumption
    | with_reducible refine State.domLoss_keeps (keeps_sub hk rfl) ?_
    | with_reducible refine State.ptpSync_keeps (keeps_sub hk rfl) ?_
    | with_reducible refine State.putDom_keeps (keeps_sub hk rfl) ?_
    | with_reducible refine State.selectMaster_keeps (keeps_sub hk rfl) ?_
    | with_reducible refine Keeps.cond ?_ ?_
    | split
    | intro _

theorem State.syncTimeout_keeps {k : Nat} {r s : State} {d : Nat} (hk : k &&& 1048964 = 1048964)
    (h : Keeps k r s) : Keeps k r ((s.syncTimeout d)) := by
  unfold State.syncTimeout
  dsimp only
  repeat' first
    | with_reducible assumption
    | with_reducible refine State.domLoss_keeps (keeps_sub hk rfl) ?_
    | with_reducible refine State.injRan_keeps (keeps_sub hk rfl) ?_
    | with_reducible refine State.ptpSync_keeps (keeps_sub hk rfl) ?_
    | with_reducible refine Keeps.only ?_ ?_
    | with_reducible refine Keeps.cond ?_ ?_
    | split
    | intro _

theorem State.revertLead_keeps {k : Nat} {r s : State} (hk : k &&& 1048832 = 1048832)
    (h : Keeps k r s) : Keeps k r (s.revertLead) := by
  unfold State.revertLead
  dsimp only
  repeat' first
    | with_reducible assumption
    | with_reducible refine State.leadBy_keeps (keeps_sub hk rfl) ?_
    | with_reducible refine State.ptpSync_keeps (keeps_sub hk rfl) ?_
    | with_reducible refine State.switchMarks_keeps (keeps_sub hk rfl) ?_
    | with_reducible refine Keeps.cond ?_ ?_
    | split
    | intro _

theorem State.holdExpire_keeps {k : Nat} {r s : State} (hk : k &&& 1048836 = 1048836)
    (h : Keeps k r s) : Keeps k r (s.holdExpire) := by
  unfold State.holdExpire
  dsimp only
  repeat' first
    | with_reducible assumption
    | with_reducible refine State.ptpSync_keeps (keeps_sub hk rfl) ?_
    | with_reducible refine State.setLock_keeps (keeps_sub hk rfl) ?_
    | with_reducible refine Keeps.cond ?_ ?_
    | split
    | intro _

theorem State.ptpRefused_keeps {k : Nat} {r s : State} (hk : k &&& 0 = 0)
    (h : Keeps k r s) : Keeps k r (s.ptpRefused) := by
  unfold State.ptpRefused
  repeat' first
    | with_reducible assumption
    | with_reducible refine State.count_keeps (keeps_sub hk rfl) ?_
    | with_reducible refine State.setBit_keeps (keeps_sub hk rfl) ?_
    | intro _

theorem State.domCfg_keeps {k : Nat} {r s : State} {d : Nat} {v : Word} (hk : k &&& 1048576 = 1048576)
    (h : Keeps k r s) : Keeps k r ((s.domCfg d v)) := by
  unfold State.domCfg
  dsimp only
  repeat' first
    | with_reducible assumption
    | with_reducible refine State.ptpSync_keeps (keeps_sub hk rfl) ?_
    | with_reducible refine State.putDom_keeps (keeps_sub hk rfl) ?_
    | with_reducible refine State.wr_keeps (keeps_sub hk rfl) ?_
    | with_reducible refine Keeps.cond ?_ ?_
    | split
    | intro _

theorem State.ptpCtrl_keeps {k : Nat} {r s : State} {v : Word} (hk : k &&& 1048836 = 1048836)
    (h : Keeps k r s) : Keeps k r ((s.ptpCtrl v)) := by
  unfold State.ptpCtrl
  dsimp only
  repeat' first
    | with_reducible assumption
    | with_reducible refine State.ptpRate_keeps (keeps_sub hk rfl) ?_
    | with_reducible refine State.ptpStepBy_keeps (keeps_sub hk rfl) ?_
    | with_reducible refine State.ptpSync_keeps (keeps_sub hk rfl) ?_
    | with_reducible refine State.setFld_keeps (keeps_sub hk rfl) ?_
    | with_reducible refine State.toAcquire_keeps (keeps_sub hk rfl) ?_
    | with_reducible refine State.toFree_keeps (keeps_sub hk rfl) ?_
    | with_reducible refine Keeps.only ?_ ?_
    | with_reducible refine Keeps.cond ?_ ?_
    | split
    | intro _
    | with_reducible refine Keeps.set_free ?_

theorem State.rateWrite_keeps {k : Nat} {r s : State} {v : Word} (hk : k &&& 1048576 = 1048576)
    (h : Keeps k r s) : Keeps k r ((s.rateWrite v)) := by
  unfold State.rateWrite
  repeat' first
    | with_reducible assumption
    | with_reducible refine State.ptpSync_keeps (keeps_sub hk rfl) ?_
    | with_reducible refine State.wr_keeps (keeps_sub hk rfl) ?_
    | intro _

theorem State.nowCapture_keeps {k : Nat} {r s : State} (hk : k &&& 1048576 = 1048576)
    (h : Keeps k r s) : Keeps k r (s.nowCapture) := by
  unfold State.nowCapture
  dsimp only
  repeat' first
    | with_reducible assumption
    | with_reducible refine State.ptpSync_keeps (keeps_sub hk rfl) ?_
    | with_reducible refine State.wr_keeps (keeps_sub hk rfl) ?_
    | intro _

end Sys2Proof.Machine
end

