-- ==== Sys2Proof/Laws/KeepsRtcOps.lean ====
section
/-!
SUPPORT. Laws/KeepsRtcOps.lean: what the operations of Machine/RtcOps.lean keep (`Keeps`).
-/

namespace Sys2Proof.Machine

theorem State.putCal'_keeps {k : Nat} {r s : State} {c : Cal} {dst : Bool} (hk : k &&& 0 = 0)
    (h : Keeps k r s) : Keeps k r ((s.putCal' c dst)) := by
  unfold State.putCal'
  repeat' first
    | with_reducible assumption
    | with_reducible refine State.wr_keeps (keeps_sub hk rfl) ?_
    | intro _

theorem State.subsecZero_keeps {k : Nat} {r s : State} (hk : k &&& 2097152 = 2097152)
    (h : Keeps k r s) : Keeps k r (s.subsecZero) := by
  unfold State.subsecZero
  repeat' first
    | with_reducible assumption
    | intro _
    | with_reducible refine Keeps.set_rtc (keeps_sub hk rfl) ?_

theorem State.windowSecond_keeps {k : Nat} {r s : State} (hk : k &&& 2097152 = 2097152)
    (h : Keeps k r s) : Keeps k r (s.windowSecond) := by
  unfold State.windowSecond
  repeat' first
    | with_reducible assumption
    | intro _
    | with_reducible refine Keeps.set_rtc (keeps_sub hk rfl) ?_

theorem State.secondCarry_keeps {k : Nat} {r s : State} (hk : k &&& 2097408 = 2097408)
    (h : Keeps k r s) : Keeps k r (s.secondCarry) := by
  unfold State.secondCarry
  dsimp only
  repeat' first
    | with_reducible assumption
    | with_reducible refine State.irqRtc_keeps (keeps_sub hk rfl) ?_
    | with_reducible refine State.putCal'_keeps (keeps_sub hk rfl) ?_
    | with_reducible refine State.subsecZero_keeps (keeps_sub hk rfl) ?_
    | with_reducible refine State.windowSecond_keeps (keeps_sub hk rfl) ?_
    | with_reducible refine Keeps.only ?_ ?_
    | intro _

theorem State.badDate_keeps {k : Nat} {r s : State} (hk : k &&& 256 = 256)
    (h : Keeps k r s) : Keeps k r (s.badDate) := by
  unfold State.badDate
  repeat' first
    | with_reducible assumption
    | with_reducible refine State.count_keeps (keeps_sub hk rfl) ?_
    | with_reducible refine State.irqRtc_keeps (keeps_sub hk rfl) ?_
    | with_reducible refine State.setBit_keeps (keeps_sub hk rfl) ?_
    | intro _

theorem State.rtcRefused_keeps {k : Nat} {r s : State} (hk : k &&& 0 = 0)
    (h : Keeps k r s) : Keeps k r (s.rtcRefused) := by
  unfold State.rtcRefused
  repeat' first
    | with_reducible assumption
    | with_reducible refine State.count_keeps (keeps_sub hk rfl) ?_
    | intro _

theorem State.loadCal_keeps {k : Nat} {r s : State} (hk : k &&& 2097152 = 2097152)
    (h : Keeps k r s) : Keeps k r (s.loadCal) := by
  unfold State.loadCal
  dsimp only
  repeat' first
    | with_reducible assumption
    | with_reducible refine State.subsecZero_keeps (keeps_sub hk rfl) ?_
    | with_reducible refine State.wr_keeps (keeps_sub hk rfl) ?_
    | intro _

theorem State.dstMove_keeps {k : Nat} {r s : State} {fwd : Bool} (hk : k &&& 384 = 384)
    (h : Keeps k r s) : Keeps k r ((s.dstMove fwd)) := by
  unfold State.dstMove
  dsimp only
  repeat' first
    | with_reducible assumption
    | with_reducible refine State.putCal'_keeps (keeps_sub hk rfl) ?_
    | with_reducible refine State.raiseEv_keeps (keeps_sub hk rfl) ?_
    | with_reducible refine Keeps.cond ?_ ?_
    | split
    | intro _

theorem State.freezeEnd_keeps {k : Nat} {r s : State} {slot : Nat} (hk : k &&& 2097152 = 2097152)
    (h : Keeps k r s) : Keeps k r ((s.freezeEnd slot)) := by
  unfold State.freezeEnd
  repeat' first
    | with_reducible assumption
    | intro _
    | with_reducible refine Keeps.set_rtc (keeps_sub hk rfl) ?_

theorem State.freezePut_keeps {k : Nat} {r s : State} {f : RtcShadow} (hk : k &&& 2097152 = 2097152)
    (h : Keeps k r s) : Keeps k r ((s.freezePut f)) := by
  unfold State.freezePut
  dsimp only
  repeat' first
    | with_reducible assumption
    | with_reducible refine State.freezeEnd_keeps (keeps_sub hk rfl) ?_
    | with_reducible refine Keeps.cond ?_ ?_
    | split
    | intro _
    | with_reducible refine Keeps.set_rtc (keeps_sub hk rfl) ?_

theorem State.shadowRead_keeps {k : Nat} {r s : State} {slot a : Nat} (hk : k &&& 2097152 = 2097152)
    (h : Keeps k r s) : Keeps k r ((s.shadowRead slot a).2) := by
  unfold State.shadowRead
  dsimp only
  repeat' first
    | with_reducible assumption
    | with_reducible refine State.freezePut_keeps (keeps_sub hk rfl) ?_
    | intro _

theorem State.freezeTimeout_keeps {k : Nat} {r s : State} {slot : Nat} (hk : k &&& 2097152 = 2097152)
    (h : Keeps k r s) : Keeps k r ((s.freezeTimeout slot)) := by
  unfold State.freezeTimeout
  repeat' first
    | with_reducible assumption
    | with_reducible refine State.freezeEnd_keeps (keeps_sub hk rfl) ?_
    | with_reducible refine State.setBit_keeps (keeps_sub hk rfl) ?_
    | with_reducible refine Keeps.cond ?_ ?_
    | split
    | intro _

theorem State.seedPtp_keeps {k : Nat} {r s : State} (hk : k &&& 1048836 = 1048836)
    (h : Keeps k r s) : Keeps k r (s.seedPtp) := by
  unfold State.seedPtp
  dsimp only
  repeat' first
    | with_reducible assumption
    | with_reducible refine State.toAcquire_keeps (keeps_sub hk rfl) ?_
    | with_reducible refine State.toFree_keeps (keeps_sub hk rfl) ?_
    | with_reducible refine Keeps.cond ?_ ?_
    | split
    | intro _
    | with_reducible refine Keeps.set_ptp (keeps_sub hk rfl) ?_

theorem State.ptpHourSet_keeps {k : Nat} {r s : State} (hk : k &&& 3146112 = 3146112)
    (h : Keeps k r s) : Keeps k r (s.ptpHourSet) := by
  unfold State.ptpHourSet
  dsimp only
  repeat' first
    | with_reducible assumption
    | with_reducible refine State.ptpSync_keeps (keeps_sub hk rfl) ?_
    | with_reducible refine State.putCal'_keeps (keeps_sub hk rfl) ?_
    | with_reducible refine State.raiseEv_keeps (keeps_sub hk rfl) ?_
    | with_reducible refine State.setBit_keeps (keeps_sub hk rfl) ?_
    | with_reducible refine State.subsecZero_keeps (keeps_sub hk rfl) ?_
    | with_reducible refine Keeps.cond ?_ ?_
    | split
    | intro _

theorem State.trimBegin_keeps {k : Nat} {r s : State} (hk : k &&& 3145728 = 3145728)
    (h : Keeps k r s) : Keeps k r (s.trimBegin) := by
  unfold State.trimBegin
  dsimp only
  repeat' first
    | with_reducible assumption
    | intro _
    | with_reducible refine Keeps.set_ptp_rtc (keeps_sub hk rfl) ?_

theorem State.trimLap_keeps {k : Nat} {r s : State} (hk : k &&& 2097152 = 2097152)
    (h : Keeps k r s) : Keeps k r (s.trimLap) := by
  unfold State.trimLap
  dsimp only
  repeat' first
    | with_reducible assumption
    | intro _
    | with_reducible refine Keeps.set_rtc (keeps_sub hk rfl) ?_

theorem State.trimWindow_keeps {k : Nat} {r s : State} {n : Nat} (hk : k &&& 3145984 = 3145984)
    (h : Keeps k r s) : Keeps k r ((s.trimWindow n)) := by
  unfold State.trimWindow
  dsimp only
  repeat' first
    | with_reducible assumption
    | with_reducible refine State.count_keeps (keeps_sub hk rfl) ?_
    | with_reducible refine State.injRan_keeps (keeps_sub hk rfl) ?_
    | with_reducible refine State.irqRtc_keeps (keeps_sub hk rfl) ?_
    | with_reducible refine State.roundOpen_keeps (keeps_sub hk rfl) ?_
    | with_reducible refine State.setBit_keeps (keeps_sub hk rfl) ?_
    | with_reducible refine State.setFld_keeps (keeps_sub hk rfl) ?_
    | with_reducible refine State.trimBegin_keeps (keeps_sub hk rfl) ?_
    | with_reducible refine State.trimLap_keeps (keeps_sub hk rfl) ?_
    | with_reducible refine State.wr_keeps (keeps_sub hk rfl) ?_
    | with_reducible refine Keeps.only ?_ ?_
    | with_reducible refine Keeps.cond ?_ ?_
    | split
    | intro _

theorem State.trimWrite_keeps {k : Nat} {r s : State} {v : Word} (hk : k &&& 3145728 = 3145728)
    (h : Keeps k r s) : Keeps k r ((s.trimWrite v)) := by
  unfold State.trimWrite
  dsimp only
  repeat' first
    | with_reducible assumption
    | with_reducible refine State.setFld_keeps (keeps_sub hk rfl) ?_
    | with_reducible refine State.trimBegin_keeps (keeps_sub hk rfl) ?_
    | with_reducible refine Keeps.only ?_ ?_
    | intro _

theorem State.wake_keeps {k : Nat} {r s : State} (hk : k &&& 256 = 256)
    (h : Keeps k r s) : Keeps k r (s.wake) := by
  unfold State.wake
  repeat' first
    | with_reducible assumption
    | with_reducible refine State.count_keeps (keeps_sub hk rfl) ?_
    | with_reducible refine State.irqRtc_keeps (keeps_sub hk rfl) ?_
    | with_reducible refine State.setBit_keeps (keeps_sub hk rfl) ?_
    | with_reducible refine Keeps.cond ?_ ?_
    | split
    | intro _

theorem State.calLost_keeps {k : Nat} {r s : State} (hk : k &&& 2097152 = 2097152)
    (h : Keeps k r s) : Keeps k r (s.calLost) := by
  unfold State.calLost
  dsimp only
  repeat' first
    | with_reducible assumption
    | with_reducible refine State.putCal'_keeps (keeps_sub hk rfl) ?_
    | with_reducible refine State.setFld_keeps (keeps_sub hk rfl) ?_
    | with_reducible refine State.subsecZero_keeps (keeps_sub hk rfl) ?_
    | with_reducible refine State.wr_keeps (keeps_sub hk rfl) ?_
    | intro _

theorem State.calJudge_keeps {k : Nat} {r s : State} {lost : Bool} (hk : k &&& 2097536 = 2097536)
    (h : Keeps k r s) : Keeps k r ((s.calJudge lost)) := by
  unfold State.calJudge
  repeat' first
    | with_reducible assumption
    | with_reducible refine State.calLost_keeps (keeps_sub hk rfl) ?_
    | with_reducible refine State.irqRtc_keeps (keeps_sub hk rfl) ?_
    | with_reducible refine State.raiseEv_keeps (keeps_sub hk rfl) ?_
    | with_reducible refine State.setBit_keeps (keeps_sub hk rfl) ?_
    | with_reducible refine Keeps.cond ?_ ?_
    | split
    | intro _

theorem State.batCheck_keeps {k : Nat} {r s : State} {mv : Nat} (hk : k &&& 256 = 256)
    (h : Keeps k r s) : Keeps k r ((s.batCheck mv)) := by
  unfold State.batCheck
  dsimp only
  repeat' first
    | with_reducible assumption
    | with_reducible refine State.injRan_keeps (keeps_sub hk rfl) ?_
    | with_reducible refine State.irqRtc_keeps (keeps_sub hk rfl) ?_
    | with_reducible refine State.setBit_keeps (keeps_sub hk rfl) ?_
    | with_reducible refine State.wr_keeps (keeps_sub hk rfl) ?_
    | with_reducible refine Keeps.only ?_ ?_
    | intro _

theorem State.chgWrite_keeps {k : Nat} {r s : State} {v : Word} (hk : k &&& 4 = 4)
    (h : Keeps k r s) : Keeps k r ((s.chgWrite v)) := by
  unfold State.chgWrite
  dsimp only
  repeat' first
    | with_reducible assumption
    | with_reducible refine State.batonRequest_keeps (keeps_sub hk rfl) ?_
    | with_reducible refine State.setFld_keeps (keeps_sub hk rfl) ?_
    | with_reducible refine Keeps.only ?_ ?_
    | intro _

theorem State.boostEnd_keeps {k : Nat} {r s : State} {done : Bool} (hk : k &&& 4 = 4)
    (h : Keeps k r s) : Keeps k r ((s.boostEnd done)) := by
  unfold State.boostEnd
  repeat' first
    | with_reducible assumption
    | with_reducible refine State.batonCancel_keeps (keeps_sub hk rfl) ?_
    | with_reducible refine State.batonRelease_keeps (keeps_sub hk rfl) ?_
    | with_reducible refine State.batonRequest_keeps (keeps_sub hk rfl) ?_
    | with_reducible refine State.setBit_keeps (keeps_sub hk rfl) ?_
    | with_reducible refine Keeps.cond ?_ ?_
    | split
    | intro _

end Sys2Proof.Machine
end

