-- ==== Sys2Proof/Laws/KeepsBootOps.lean ====
section
/-!
SUPPORT. Laws/KeepsBootOps.lean: what the operations of Machine/BootOps.lean keep (`Keeps`).
-/

namespace Sys2Proof.Machine

/-- A mask of every component asks only for the queue and the invariant. -/
theorem Keeps.any {k : Nat} {s t : State} (hk : k &&& 16777215 = 16777215) (hq : t.pending = s.pending) (hi : s.Inv → t.Inv) :
    Keeps k s t :=
  ⟨hq, hi, keeps_not (i := 0) (keeps_sub hk rfl), keeps_not (i := 1) (keeps_sub hk rfl), keeps_not (i := 2) (keeps_sub hk rfl), keeps_not (i := 3) (keeps_sub hk rfl), keeps_not (i := 4) (keeps_sub hk rfl), keeps_not (i := 5) (keeps_sub hk rfl), keeps_not (i := 6) (keeps_sub hk rfl), keeps_not (i := 7) (keeps_sub hk rfl), keeps_not (i := 8) (keeps_sub hk rfl), keeps_not (i := 9) (keeps_sub hk rfl), keeps_not (i := 10) (keeps_sub hk rfl), keeps_not (i := 11) (keeps_sub hk rfl), keeps_not (i := 12) (keeps_sub hk rfl), keeps_not (i := 13) (keeps_sub hk rfl), keeps_not (i := 14) (keeps_sub hk rfl), keeps_not (i := 15) (keeps_sub hk rfl), keeps_not (i := 16) (keeps_sub hk rfl), keeps_not (i := 17) (keeps_sub hk rfl), keeps_not (i := 18) (keeps_sub hk rfl), keeps_not (i := 19) (keeps_sub hk rfl), keeps_not (i := 20) (keeps_sub hk rfl), keeps_not (i := 21) (keeps_sub hk rfl), keeps_not (i := 22) (keeps_sub hk rfl), keeps_not (i := 23) (keeps_sub hk rfl)⟩

theorem resetSett_wf : resetSett.wf :=
  ⟨Nat.zero_le _, fun _ h => absurd h List.not_mem_nil, fun _ h => absurd h (by simp [resetSett])⟩

theorem tabWf_resetRegs : tabWf 0#32 resetRegs = true := by decide

theorem tabWf_startRegs (old : Tab 32) : tabWf 0#32 (startRegs old) = true := by
  suffices key : ∀ (l : Tab 32) (f : Tab 32 → Nat × Word → Word) (t : Tab 32), tabWf 0#32 t = true →
      tabWf 0#32 (l.foldl (fun t e => tabSet 0#32 t e.1 (f t e)) t) = true from key old _ _ tabWf_resetRegs
  intro l f
  induction l with
  | nil => exact fun t h => h
  | cons x xs ih => exact fun t h => ih _ (tabWf_tabSet _ _ _ _ h)

theorem tabWf_filterMap (t : Tab 32) (g : Nat → Word → Word) (h : tabWf 0#32 t = true) :
    tabWf 0#32 (t.filterMap (fun e => if g e.1 e.2 = 0#32 then none else some (e.1, g e.1 e.2))) = true := by
  rw [tabWf_iff] at h ⊢
  constructor
  · rw [List.pairwise_filterMap]
    refine h.1.imp ?_
    intro a b hab x hx y hy
    split at hx <;> split at hy <;> simp_all
    rw [← hx, ← hy]; exact hab
  · intro e he
    obtain ⟨a, _, ha⟩ := List.mem_filterMap.mp he
    split at ha
    · exact absurd ha (by simp)
    · rename_i hne
      have : e = (a.1, g a.1 a.2) := (Option.some.inj ha).symm
      rw [this]; exact hne

theorem State.slotFix_keeps {k : Nat} {r s : State} {b : Bool} (hk : k &&& 0 = 0)
    (h : Keeps k r s) : Keeps k r ((s.slotFix b)) := by
  unfold State.slotFix
  repeat' first
    | with_reducible assumption
    | with_reducible refine State.setSlotState_keeps (keeps_sub hk rfl) ?_
    | with_reducible refine Keeps.only ?_ ?_
    | intro _

theorem State.carryFrom_keeps {k : Nat} {r s : State} {sub : Nat} (hk : k &&& 2097152 = 2097152)
    (h : Keeps k r s) : Keeps k r ((s.carryFrom sub)) := by
  unfold State.carryFrom
  repeat' first
    | with_reducible assumption
    | intro _
    | with_reducible refine Keeps.set_rtc (keeps_sub hk rfl) ?_

theorem State.startAgain_keeps {k : Nat} {r s : State} {restarted : Bool} {sub : Nat} (hk : k &&& 16777215 = 16777215)
    (h : Keeps k r s) : Keeps k r ((s.startAgain restarted sub)) := by
  unfold State.startAgain
  dsimp only
  refine State.carryFrom_keeps (keeps_sub hk rfl) (State.setBit_keeps (keeps_sub hk rfl) (State.slotFix_keeps (keeps_sub hk rfl)
    (State.slotFix_keeps (keeps_sub hk rfl) ?_)))
  exact Keeps.any hk h.queue (fun x => ⟨tabWf_startRegs _, ⟨(h.inv x).nv.1, rfl, (h.inv x).nv.2.2⟩, ⟨rfl, (h.inv x).img.2⟩, (h.inv x).fab, ⟨rfl, rfl, rfl⟩, Nat.zero_le _, resetSett_wf, rfl⟩)

theorem State.powerUp_keeps {k : Nat} {r s : State} {vbulk sub : Nat} (hk : k &&& 16777215 = 16777215)
    (h : Keeps k r s) : Keeps k r ((s.powerUp vbulk sub)) := by
  unfold State.powerUp
  repeat' first
    | with_reducible assumption
    | with_reducible refine State.startAgain_keeps (keeps_sub hk rfl) ?_
    | with_reducible refine State.wr_keeps (keeps_sub hk rfl) ?_
    | with_reducible refine Keeps.cond ?_ ?_
    | split
    | intro _

theorem State.internalReset_keeps {k : Nat} {r s : State} (hk : k &&& 16777215 = 16777215)
    (h : Keeps k r s) : Keeps k r (s.internalReset) := by
  unfold State.internalReset
  repeat' first
    | with_reducible assumption
    | with_reducible refine State.startAgain_keeps (keeps_sub hk rfl) ?_
    | intro _

theorem State.ledgerAdd_keeps {k : Nat} {r s : State} {hurdle : Nat} {act : Bool} {mark result way detail ms : Nat} (hk : k &&& 8389376 = 8389376)
    (h : Keeps k r s) : Keeps k r ((s.ledgerAdd hurdle act mark result way detail ms)) := by
  unfold State.ledgerAdd
  dsimp only
  repeat' first
    | with_reducible assumption
    | with_reducible refine State.nvPage_keeps (keeps_sub hk rfl) ?_
    | with_reducible refine State.wr_keeps (keeps_sub hk rfl) ?_
    | with_reducible refine Keeps.cond ?_ ?_
    | split
    | intro _
    | with_reducible refine Keeps.set_boot (keeps_sub hk rfl) ?_
    | with_reducible refine Keeps.set_used (keeps_sub hk rfl) ?_

theorem State.ledgerScan_keeps {k : Nat} {r s : State} (hk : k &&& 0 = 0)
    (h : Keeps k r s) : Keeps k r (s.ledgerScan) := by
  unfold State.ledgerScan
  dsimp only
  repeat' first
    | with_reducible assumption
    | with_reducible refine State.setBit_keeps (keeps_sub hk rfl) ?_
    | with_reducible refine State.wr_keeps (keeps_sub hk rfl) ?_
    | with_reducible refine Keeps.only ?_ ?_
    | intro _

theorem State.wayAdvance_keeps {k : Nat} {r s : State} {h' : Nat} (hk : k &&& 384 = 384)
    (h : Keeps k r s) : Keeps k r ((s.wayAdvance h')) := by
  unfold State.wayAdvance
  dsimp only
  repeat' first
    | with_reducible assumption
    | with_reducible refine State.raiseEv_keeps (keeps_sub hk rfl) ?_
    | with_reducible refine State.setBit_keeps (keeps_sub hk rfl) ?_
    | with_reducible refine State.setFld_keeps (keeps_sub hk rfl) ?_
    | with_reducible refine Keeps.cond ?_ ?_
    | split
    | intro _

theorem State.judgeLast_keeps {k : Nat} {r s : State} (hk : k &&& 896 = 896)
    (h : Keeps k r s) : Keeps k r (s.judgeLast) := by
  unfold State.judgeLast
  dsimp only
  repeat' first
    | with_reducible assumption
    | with_reducible refine State.setBit_keeps (keeps_sub hk rfl) ?_
    | with_reducible refine State.wayAdvance_keeps (keeps_sub hk rfl) ?_
    | with_reducible refine State.wr_keeps (keeps_sub hk rfl) ?_
    | with_reducible refine Keeps.only ?_ ?_
    | with_reducible refine Keeps.each ?_ ?_
    | intro _
    | with_reducible refine Keeps.set_boot (keeps_sub hk rfl) ?_

theorem State.clearImaged_keeps {k : Nat} {r s : State} (hk : k &&& 0 = 0)
    (h : Keeps k r s) : Keeps k r (s.clearImaged) := by
  unfold State.clearImaged
  dsimp only
  repeat' first
    | with_reducible assumption
    | exact fun _ g => tabWf_filterMap _ (fun a v => unImaged (fieldsAt a) v) g.regs
    | with_reducible refine Keeps.cond ?_ ?_
    | split
    | intro _
    | with_reducible refine Keeps.set_regs ?_ ?_

theorem State.putDefaults_keeps {k : Nat} {r s : State} {l : List DefaultEntry} (hk : k &&& 0 = 0)
    (h : Keeps k r s) : Keeps k r ((s.putDefaults l)) := by
  unfold State.putDefaults
  repeat' first
    | with_reducible assumption
    | with_reducible refine State.setFld_keeps (keeps_sub hk rfl) ?_
    | with_reducible refine Keeps.each ?_ ?_
    | split
    | intro _

theorem State.putBudgets_keeps {k : Nat} {r s : State} {budget bpri : Nat → Nat} {age : Nat} (hk : k &&& 4 = 4)
    (h : Keeps k r s) : Keeps k r ((s.putBudgets budget bpri age)) := by
  unfold State.putBudgets
  dsimp only
  repeat' first
    | with_reducible assumption
    | with_reducible refine State.wr_keeps (keeps_sub hk rfl) ?_
    | with_reducible refine Keeps.each ?_ ?_
    | exact fun _ g => by dsimp only; with_reducible exact g.tick
    | exact fun g _ => by dsimp only; with_reducible exact (h.inv g).tick
    | intro _
    | with_reducible refine Keeps.set_lap (keeps_sub hk rfl) ?_ ?_

theorem State.budgetsInForce_keeps {k : Nat} {r s : State} (hk : k &&& 4 = 4)
    (h : Keeps k r s) : Keeps k r (s.budgetsInForce) := by
  unfold State.budgetsInForce
  repeat' first
    | with_reducible assumption
    | with_reducible refine State.putBudgets_keeps (keeps_sub hk rfl) ?_
    | with_reducible refine Keeps.cond ?_ ?_
    | split
    | intro _

theorem State.showIdentity_keeps {k : Nat} {r s : State} (hk : k &&& 0 = 0)
    (h : Keeps k r s) : Keeps k r (s.showIdentity) := by
  unfold State.showIdentity
  dsimp only
  repeat' first
    | with_reducible assumption
    | with_reducible refine State.wr_keeps (keeps_sub hk rfl) ?_
    | with_reducible refine Keeps.each ?_ ?_
    | intro _

theorem State.showSections_keeps {k : Nat} {r s : State} (hk : k &&& 1280 = 1280)
    (h : Keeps k r s) : Keeps k r (s.showSections) := by
  unfold State.showSections
  dsimp only
  repeat' first
    | with_reducible assumption
    | with_reducible refine State.loadCanf_keeps (keeps_sub hk rfl) ?_
    | with_reducible refine State.showGraph_keeps (keeps_sub hk rfl) ?_
    | with_reducible refine State.showPairUnit_keeps (keeps_sub hk rfl) ?_
    | with_reducible refine State.showTele_keeps (keeps_sub hk rfl) ?_
    | with_reducible refine State.toProblem_keeps (keeps_sub hk rfl) ?_
    | with_reducible refine State.wr_keeps (keeps_sub hk rfl) ?_
    | intro _

theorem State.loadImage_keeps {k : Nat} {r s : State} {b : Bool} (hk : k &&& 68884 = 68884)
    (h : Keeps k r s) : Keeps k r ((s.loadImage b)) := by
  unfold State.loadImage
  dsimp only
  repeat' first
    | with_reducible assumption
    | with_reducible refine State.budgetsInForce_keeps (keeps_sub hk rfl) ?_
    | with_reducible refine State.clearImaged_keeps (keeps_sub hk rfl) ?_
    | with_reducible refine State.fbpSet_keeps (keeps_sub hk rfl) ?_
    | with_reducible refine State.loadFbprog_keeps (keeps_sub hk rfl) ?_
    | with_reducible refine State.putDefaults_keeps (keeps_sub hk rfl) ?_
    | with_reducible refine State.showIdentity_keeps (keeps_sub hk rfl) ?_
    | with_reducible refine State.showSections_keeps (keeps_sub hk rfl) ?_
    | with_reducible refine State.wr_keeps (keeps_sub hk rfl) ?_
    | exact fun _ g => by dsimp only [FabState.wf]; exact g.fab
    | exact fun g _ => by dsimp only [FabState.wf]; exact (h.inv g).fab
    | exact fun _ g => by dsimp only [ImgState.wf]; exact g.img
    | exact fun g _ => by dsimp only [ImgState.wf]; exact (h.inv g).img
    | intro _
    | with_reducible refine Keeps.set_img_dsp_fab (keeps_sub hk rfl) ?_ ?_ ?_
    | with_reducible refine Keeps.set_dsp_fab (keeps_sub hk rfl) ?_ ?_

theorem State.cyclesGone_keeps {k : Nat} {r s : State} (hk : k &&& 1024 = 1024)
    (h : Keeps k r s) : Keeps k r (s.cyclesGone) := by
  unfold State.cyclesGone
  dsimp only
  repeat' first
    | with_reducible assumption
    | with_reducible refine State.wr_keeps (keeps_sub hk rfl) ?_
    | with_reducible refine Keeps.each ?_ ?_
    | intro _
    | with_reducible refine Keeps.set_dsp (keeps_sub hk rfl) ?_

theorem State.runWithout_keeps {k : Nat} {r s : State} (hk : k &&& 1028 = 1028)
    (h : Keeps k r s) : Keeps k r (s.runWithout) := by
  unfold State.runWithout
  repeat' first
    | with_reducible assumption
    | with_reducible refine State.budgetsInForce_keeps (keeps_sub hk rfl) ?_
    | with_reducible refine State.clearImaged_keeps (keeps_sub hk rfl) ?_
    | with_reducible refine State.cyclesGone_keeps (keeps_sub hk rfl) ?_
    | with_reducible refine State.fbpSet_keeps (keeps_sub hk rfl) ?_
    | with_reducible refine State.setBit_keeps (keeps_sub hk rfl) ?_
    | with_reducible refine State.wr_keeps (keeps_sub hk rfl) ?_
    | intro _

theorem State.imageHurdle_keeps {k : Nat} {r s : State} {way : Nat} {ok : Bool} (hk : k &&& 68884 = 68884)
    (h : Keeps k r s) : Keeps k r ((s.imageHurdle way ok)) := by
  unfold State.imageHurdle
  repeat' first
    | with_reducible assumption
    | with_reducible refine State.coldInForce_keeps (keeps_sub hk rfl) ?_
    | with_reducible refine State.loadImage_keeps (keeps_sub hk rfl) ?_
    | with_reducible refine State.runWithout_keeps (keeps_sub hk rfl) ?_
    | with_reducible refine State.setBit_keeps (keeps_sub hk rfl) ?_
    | with_reducible refine Keeps.only ?_ ?_
    | with_reducible refine Keeps.cond ?_ ?_
    | split
    | intro _

theorem State.storeHurdle_keeps {k : Nat} {r s : State} (hk : k &&& 8389536 = 8389536)
    (h : Keeps k r s) : Keeps k r (s.storeHurdle) := by
  unfold State.storeHurdle
  repeat' first
    | with_reducible assumption
    | with_reducible refine State.deriveTallies_keeps (keeps_sub hk rfl) ?_
    | with_reducible refine State.judgeLast_keeps (keeps_sub hk rfl) ?_
    | with_reducible refine State.ledgerScan_keeps (keeps_sub hk rfl) ?_
    | with_reducible refine State.raiseTally_keeps (keeps_sub hk rfl) ?_
    | intro _

theorem State.testHurdle_keeps {k : Nat} {r s : State} {way : Nat} {r' : HurdleReport} (hk : k &&& 3328 = 3328)
    (h : Keeps k r s) : Keeps k r ((s.testHurdle way r')) := by
  unfold State.testHurdle
  dsimp only
  repeat' first
    | with_reducible assumption
    | with_reducible refine State.bankFail_keeps (keeps_sub hk rfl) ?_
    | with_reducible refine State.laneFail_keeps (keeps_sub hk rfl) ?_
    | with_reducible refine State.mapStart_keeps (keeps_sub hk rfl) ?_
    | with_reducible refine State.startTests_keeps (keeps_sub hk rfl) ?_
    | with_reducible refine Keeps.cond ?_ ?_
    | split
    | intro _

theorem State.fieldHurdle_keeps {k : Nat} {r s : State} (hk : k &&& 16388 = 16388)
    (h : Keeps k r s) : Keeps k r (s.fieldHurdle) := by
  unfold State.fieldHurdle
  repeat' first
    | with_reducible assumption
    | with_reducible refine State.drawReserved_keeps (keeps_sub hk rfl) ?_
    | with_reducible refine State.refStart_keeps (keeps_sub hk rfl) ?_
    | with_reducible refine Keeps.each ?_ ?_
    | intro _

theorem State.capLanes_keeps {k : Nat} {r s : State} {way : Nat} (hk : k &&& 3072 = 3072)
    (h : Keeps k r s) : Keeps k r ((s.capLanes way)) := by
  unfold State.capLanes
  dsimp only
  repeat' first
    | with_reducible assumption
    | with_reducible refine State.mapLive_keeps (keeps_sub hk rfl) ?_
    | exact fun _ g => by dsimp only [FabState.wf]; exact g.fab
    | exact fun g _ => by dsimp only [FabState.wf]; exact (h.inv g).fab
    | exact fun _ g => by dsimp only [FabState.wf]; split <;> exact g.fab
    | with_reducible refine Keeps.cond ?_ ?_
    | split
    | intro _
    | with_reducible refine Keeps.set_fab (keeps_sub hk rfl) ?_ ?_

theorem State.solverHurdle_keeps {k : Nat} {r s : State} {way : Nat} (hk : k &&& 3328 = 3328)
    (h : Keeps k r s) : Keeps k r ((s.solverHurdle way)) := by
  unfold State.solverHurdle
  repeat' first
    | with_reducible assumption
    | with_reducible refine State.capLanes_keeps (keeps_sub hk rfl) ?_
    | with_reducible refine State.fitTest_keeps (keeps_sub hk rfl) ?_
    | with_reducible refine State.toProblem_keeps (keeps_sub hk rfl) ?_
    | with_reducible refine Keeps.cond ?_ ?_
    | split
    | intro _

theorem State.noDispatch_keeps {k : Nat} {r s : State} (hk : k &&& 1024 = 1024)
    (h : Keeps k r s) : Keeps k r (s.noDispatch) := by
  unfold State.noDispatch
  repeat' first
    | with_reducible assumption
    | intro _
    | with_reducible refine Keeps.set_dsp (keeps_sub hk rfl) ?_

theorem State.controlHurdle_keeps {k : Nat} {r s : State} {way : Nat} (hk : k &&& 98816 = 98816)
    (h : Keeps k r s) : Keeps k r ((s.controlHurdle way)) := by
  unfold State.controlHurdle
  dsimp only
  repeat' first
    | with_reducible assumption
    | with_reducible refine State.fbpStart_keeps (keeps_sub hk rfl) ?_
    | with_reducible refine State.loopsStart_keeps (keeps_sub hk rfl) ?_
    | intro _
    | with_reducible refine Keeps.set_boot (keeps_sub hk rfl) ?_

theorem State.noControl_keeps {k : Nat} {r s : State} (hk : k &&& 66048 = 66048)
    (h : Keeps k r s) : Keeps k r (s.noControl) := by
  unfold State.noControl
  repeat' first
    | with_reducible assumption
    | with_reducible refine State.fbpStart_keeps (keeps_sub hk rfl) ?_
    | intro _
    | with_reducible refine Keeps.set_boot (keeps_sub hk rfl) ?_

theorem State.releaseHurdle_keeps {k : Nat} {r s : State} (hk : k &&& 768 = 768)
    (h : Keeps k r s) : Keeps k r (s.releaseHurdle) := by
  unfold State.releaseHurdle
  repeat' first
    | with_reducible assumption
    | with_reducible refine State.irqBoot_keeps (keeps_sub hk rfl) ?_
    | with_reducible refine State.setBit_keeps (keeps_sub hk rfl) ?_
    | intro _
    | with_reducible refine Keeps.set_boot (keeps_sub hk rfl) ?_

theorem State.hurdlePassed_keeps {k : Nat} {r s : State} {h' : Nat} (hk : k &&& 512 = 512)
    (h : Keeps k r s) : Keeps k r ((s.hurdlePassed h')) := by
  unfold State.hurdlePassed
  repeat' first
    | with_reducible assumption
    | intro _
    | with_reducible refine Keeps.set_boot (keeps_sub hk rfl) ?_

theorem State.hurdleMissed_keeps {k : Nat} {r s : State} {h' : Nat} (hk : k &&& 512 = 512)
    (h : Keeps k r s) : Keeps k r ((s.hurdleMissed h')) := by
  unfold State.hurdleMissed
  repeat' first
    | with_reducible assumption
    | intro _
    | with_reducible refine Keeps.set_boot (keeps_sub hk rfl) ?_

theorem State.hurdleUp_keeps {k : Nat} {r s : State} {h' way : Nat} {r' : HurdleReport} (hk : k &&& 11927476 = 11927476)
    (h : Keeps k r s) : Keeps k r ((s.hurdleUp h' way r')) := by
  unfold State.hurdleUp
  repeat' first
    | with_reducible assumption
    | with_reducible refine State.calJudge_keeps (keeps_sub hk rfl) ?_
    | with_reducible refine State.calLost_keeps (keeps_sub hk rfl) ?_
    | with_reducible refine State.controlHurdle_keeps (keeps_sub hk rfl) ?_
    | with_reducible refine State.fieldHurdle_keeps (keeps_sub hk rfl) ?_
    | with_reducible refine State.imageHurdle_keeps (keeps_sub hk rfl) ?_
    | with_reducible refine State.loadKeys_keeps (keeps_sub hk rfl) ?_
    | with_reducible refine State.mtrRestore_keeps (keeps_sub hk rfl) ?_
    | with_reducible refine State.noControl_keeps (keeps_sub hk rfl) ?_
    | with_reducible refine State.noDispatch_keeps (keeps_sub hk rfl) ?_
    | with_reducible refine State.pairStart_keeps (keeps_sub hk rfl) ?_
    | with_reducible refine State.releaseHurdle_keeps (keeps_sub hk rfl) ?_
    | with_reducible refine State.seedPtp_keeps (keeps_sub hk rfl) ?_
    | with_reducible refine State.storeHurdle_keeps (keeps_sub hk rfl) ?_
    | with_reducible refine State.testHurdle_keeps (keeps_sub hk rfl) ?_
    | with_reducible refine State.warmLoad_keeps (keeps_sub hk rfl) ?_
    | with_reducible refine Keeps.cond ?_ ?_
    | split
    | intro _
    | with_reducible refine Keeps.set_boot (keeps_sub hk rfl) ?_

theorem State.hurdleDown_keeps {k : Nat} {r s : State} {h' : Nat} (hk : k &&& 337796 = 337796)
    (h : Keeps k r s) : Keeps k r ((s.hurdleDown h')) := by
  unfold State.hurdleDown
  repeat' first
    | with_reducible assumption
    | with_reducible refine State.mtrRestore_keeps (keeps_sub hk rfl) ?_
    | with_reducible refine State.noControl_keeps (keeps_sub hk rfl) ?_
    | with_reducible refine State.noDispatch_keeps (keeps_sub hk rfl) ?_
    | with_reducible refine State.pairStart_keeps (keeps_sub hk rfl) ?_
    | with_reducible refine State.runWithout_keeps (keeps_sub hk rfl) ?_
    | split
    | intro _
    | with_reducible refine Keeps.set_boot (keeps_sub hk rfl) ?_

theorem State.showHurdle_keeps {k : Nat} {r s : State} {h' way : Nat} (hk : k &&& 0 = 0)
    (h : Keeps k r s) : Keeps k r ((s.showHurdle h' way)) := by
  unfold State.showHurdle
  repeat' first
    | with_reducible assumption
    | with_reducible refine State.setFld_keeps (keeps_sub hk rfl) ?_
    | intro _

theorem State.hurdleStart_keeps {k : Nat} {r s : State} {h' : Nat} (hk : k &&& 8389420 = 8389420)
    (h : Keeps k r s) : Keeps k r ((s.hurdleStart h')) := by
  unfold State.hurdleStart
  dsimp only
  repeat' first
    | with_reducible assumption
    | with_reducible refine State.batonsFor_keeps (keeps_sub hk rfl) ?_
    | with_reducible refine State.ledgerAdd_keeps (keeps_sub hk rfl) ?_
    | with_reducible refine State.raiseTally_keeps (keeps_sub hk rfl) ?_
    | with_reducible refine State.setFld_keeps (keeps_sub hk rfl) ?_
    | with_reducible refine State.showHurdle_keeps (keeps_sub hk rfl) ?_
    | exact fun _ g => by dsimp only; with_reducible exact g.tick
    | exact fun g _ => by dsimp only; with_reducible exact (h.inv g).tick
    | exact fun _ g => by dsimp only; split <;> with_reducible exact g.tick
    | exact fun _ g => by dsimp only [SettState.wf]; exact g.sett
    | exact fun g _ => by dsimp only [SettState.wf]; exact (h.inv g).sett
    | exact fun _ g => by dsimp only [SettState.wf]; split <;> exact g.sett
    | with_reducible refine Keeps.cond ?_ ?_
    | split
    | intro _
    | with_reducible refine Keeps.set_lap (keeps_sub hk rfl) ?_ ?_
    | with_reducible refine Keeps.set_sett (keeps_sub hk rfl) ?_ ?_
    | with_reducible refine Keeps.set_boot (keeps_sub hk rfl) ?_

theorem State.hurdleHalt_keeps {k : Nat} {r s : State} {h' : Nat} (hk : k &&& 8389548 = 8389548)
    (h : Keeps k r s) : Keeps k r ((s.hurdleHalt h')) := by
  unfold State.hurdleHalt
  dsimp only
  repeat' first
    | with_reducible assumption
    | with_reducible refine State.hurdleStart_keeps (keeps_sub hk rfl) ?_
    | with_reducible refine State.irqBoot_keeps (keeps_sub hk rfl) ?_
    | with_reducible refine State.raiseEv_keeps (keeps_sub hk rfl) ?_
    | with_reducible refine State.setBit_keeps (keeps_sub hk rfl) ?_
    | with_reducible refine State.showHurdle_keeps (keeps_sub hk rfl) ?_
    | intro _
    | with_reducible refine Keeps.set_boot (keeps_sub hk rfl) ?_

theorem State.hurdleBegin_keeps {k : Nat} {r s : State} {h' : Nat} (hk : k &&& 8389548 = 8389548)
    (h : Keeps k r s) : Keeps k r ((s.hurdleBegin h')) := by
  unfold State.hurdleBegin
  repeat' first
    | with_reducible assumption
    | with_reducible refine State.hurdleHalt_keeps (keeps_sub hk rfl) ?_
    | with_reducible refine State.hurdleStart_keeps (keeps_sub hk rfl) ?_
    | with_reducible refine Keeps.cond ?_ ?_
    | split
    | intro _

theorem State.actEnd_keeps {k : Nat} {r s : State} (hk : k &&& 512 = 512)
    (h : Keeps k r s) : Keeps k r (s.actEnd) := by
  unfold State.actEnd
  dsimp only
  repeat' first
    | with_reducible assumption
    | with_reducible refine State.showHurdle_keeps (keeps_sub hk rfl) ?_
    | split
    | intro _
    | with_reducible refine Keeps.set_boot (keeps_sub hk rfl) ?_

theorem State.hurdleNext_keeps {k : Nat} {r s : State} {h' : Nat} (hk : k &&& 8389548 = 8389548)
    (h : Keeps k r s) : Keeps k r ((s.hurdleNext h')) := by
  unfold State.hurdleNext
  repeat' first
    | with_reducible assumption
    | with_reducible refine State.actEnd_keeps (keeps_sub hk rfl) ?_
    | with_reducible refine State.hurdleBegin_keeps (keeps_sub hk rfl) ?_
    | split
    | intro _

theorem State.hurdleInjRan_keeps {k : Nat} {r s : State} {h' : Nat} (hk : k &&& 0 = 0)
    (h : Keeps k r s) : Keeps k r ((s.hurdleInjRan h')) := by
  unfold State.hurdleInjRan
  repeat' first
    | with_reducible assumption
    | with_reducible refine State.injRan_keeps (keeps_sub hk rfl) ?_
    | with_reducible refine Keeps.only ?_ ?_
    | intro _

theorem State.ledgerEnd_keeps {k : Nat} {r s : State} {h' result way detail : Nat} {act : Bool} (hk : k &&& 8389376 = 8389376)
    (h : Keeps k r s) : Keeps k r ((s.ledgerEnd h' result way detail act)) := by
  unfold State.ledgerEnd
  dsimp only
  repeat' first
    | with_reducible assumption
    | with_reducible refine State.ledgerAdd_keeps (keeps_sub hk rfl) ?_
    | split
    | intro _

theorem State.hurdleFailEv_keeps {k : Nat} {r s : State} {h' result detail : Nat} (hk : k &&& 384 = 384)
    (h : Keeps k r s) : Keeps k r ((s.hurdleFailEv h' result detail)) := by
  unfold State.hurdleFailEv
  repeat' first
    | with_reducible assumption
    | with_reducible refine State.raiseEv_keeps (keeps_sub hk rfl) ?_
    | with_reducible refine Keeps.only ?_ ?_
    | intro _

theorem State.hurdleFinish_keeps {k : Nat} {r s : State} {h' way result detail : Nat} {r' : HurdleReport} (hk : k &&& 11927484 = 11927484)
    (h : Keeps k r s) : Keeps k r ((s.hurdleFinish h' way result detail r')) := by
  unfold State.hurdleFinish
  dsimp only
  repeat' first
    | with_reducible assumption
    | with_reducible refine State.batonCancel_keeps (keeps_sub hk rfl) ?_
    | with_reducible refine State.batonRelease_keeps (keeps_sub hk rfl) ?_
    | with_reducible refine State.hurdleDown_keeps (keeps_sub hk rfl) ?_
    | with_reducible refine State.hurdleFailEv_keeps (keeps_sub hk rfl) ?_
    | with_reducible refine State.hurdleInjRan_keeps (keeps_sub hk rfl) ?_
    | with_reducible refine State.hurdleMissed_keeps (keeps_sub hk rfl) ?_
    | with_reducible refine State.hurdleNext_keeps (keeps_sub hk rfl) ?_
    | with_reducible refine State.hurdlePassed_keeps (keeps_sub hk rfl) ?_
    | with_reducible refine State.hurdleUp_keeps (keeps_sub hk rfl) ?_
    | with_reducible refine State.ledgerEnd_keeps (keeps_sub hk rfl) ?_
    | with_reducible refine Keeps.only ?_ ?_
    | with_reducible refine Keeps.cond ?_ ?_
    | split
    | intro _
    | with_reducible refine Keeps.set_boot (keeps_sub hk rfl) ?_

theorem State.hurdleEnd_keeps {k : Nat} {r s : State} {r' : HurdleReport} (hk : k &&& 11927484 = 11927484)
    (h : Keeps k r s) : Keeps k r ((s.hurdleEnd r')) := by
  unfold State.hurdleEnd
  dsimp only
  repeat' first
    | with_reducible assumption
    | with_reducible refine State.hurdleFinish_keeps (keeps_sub hk rfl) ?_
    | with_reducible refine State.solverHurdle_keeps (keeps_sub hk rfl) ?_
    | with_reducible refine Keeps.cond ?_ ?_
    | split
    | intro _
    | with_reducible refine Keeps.set_boot (keeps_sub hk rfl) ?_

theorem State.hurdleTimeout_keeps {k : Nat} {r s : State} {detail : Nat} (hk : k &&& 11927484 = 11927484)
    (h : Keeps k r s) : Keeps k r ((s.hurdleTimeout detail)) := by
  unfold State.hurdleTimeout
  repeat' first
    | with_reducible assumption
    | with_reducible refine State.hurdleFinish_keeps (keeps_sub hk rfl) ?_
    | with_reducible refine Keeps.cond ?_ ?_
    | split
    | intro _

theorem State.selfReset_keeps {k : Nat} {r s : State} (hk : k &&& 16777215 = 16777215)
    (h : Keeps k r s) : Keeps k r (s.selfReset) := by
  unfold State.selfReset
  repeat' first
    | with_reducible assumption
    | with_reducible refine State.internalReset_keeps (keeps_sub hk rfl) ?_
    | with_reducible refine Keeps.cond ?_ ?_
    | split
    | intro _

theorem State.bootRefused_keeps {k : Nat} {r s : State} (hk : k &&& 0 = 0)
    (h : Keeps k r s) : Keeps k r (s.bootRefused) := by
  unfold State.bootRefused
  repeat' first
    | with_reducible assumption
    | with_reducible refine State.count_keeps (keeps_sub hk rfl) ?_
    | with_reducible refine State.setBit_keeps (keeps_sub hk rfl) ?_
    | intro _

theorem State.bootCtrl_keeps {k : Nat} {r s : State} {v : Word} (hk : k &&& 16777215 = 16777215)
    (h : Keeps k r s) : Keeps k r ((s.bootCtrl v)) := by
  unfold State.bootCtrl
  dsimp only
  repeat' first
    | with_reducible assumption
    | with_reducible refine State.internalReset_keeps (keeps_sub hk rfl) ?_
    | with_reducible refine State.setFld_keeps (keeps_sub hk rfl) ?_
    | with_reducible refine Keeps.only ?_ ?_
    | with_reducible refine Keeps.each ?_ ?_
    | intro _

theorem State.imgBoot_keeps {k : Nat} {r s : State} {v : Word} (hk : k &&& 0 = 0)
    (h : Keeps k r s) : Keeps k r ((s.imgBoot v)) := by
  unfold State.imgBoot
  repeat' first
    | with_reducible assumption
    | with_reducible refine State.setBit_keeps (keeps_sub hk rfl) ?_
    | with_reducible refine State.setFld_keeps (keeps_sub hk rfl) ?_
    | intro _

theorem State.actStops_keeps {k : Nat} {r s : State} (hk : k &&& 574732 = 574732)
    (h : Keeps k r s) : Keeps k r (s.actStops) := by
  unfold State.actStops
  dsimp only
  repeat' first
    | with_reducible assumption
    | with_reducible refine State.batonCancel_keeps (keeps_sub hk rfl) ?_
    | with_reducible refine State.batonRelease_keeps (keeps_sub hk rfl) ?_
    | with_reducible refine State.cycleAbort_keeps (keeps_sub hk rfl) ?_
    | with_reducible refine State.drawReserved_keeps (keeps_sub hk rfl) ?_
    | with_reducible refine State.forceNone_keeps (keeps_sub hk rfl) ?_
    | with_reducible refine State.forceShow_keeps (keeps_sub hk rfl) ?_
    | with_reducible refine State.setFld_keeps (keeps_sub hk rfl) ?_
    | with_reducible refine State.wsResult_keeps (keeps_sub hk rfl) ?_
    | with_reducible refine Keeps.each ?_ ?_
    | exact fun _ g => by dsimp only [SettState.wf]; exact g.sett
    | exact fun g _ => by dsimp only [SettState.wf]; exact (h.inv g).sett
    | intro _
    | with_reducible refine Keeps.set_dsp_field_loops_eth_sett (keeps_sub hk rfl) ?_ ?_

theorem State.actRefs_keeps {k : Nat} {r s : State} {old : List Nat} (hk : k &&& 16384 = 16384)
    (h : Keeps k r s) : Keeps k r ((s.actRefs old)) := by
  unfold State.actRefs
  repeat' first
    | with_reducible assumption
    | with_reducible refine State.refAgain_keeps (keeps_sub hk rfl) ?_
    | with_reducible refine State.refStart_keeps (keeps_sub hk rfl) ?_
    | with_reducible refine Keeps.each ?_ ?_
    | with_reducible refine Keeps.cond ?_ ?_
    | split
    | intro _

theorem State.actCold_keeps {k : Nat} {r s : State} {keep : Option Traj} (hk : k &&& 1280 = 1280)
    (h : Keeps k r s) : Keeps k r ((s.actCold keep)) := by
  unfold State.actCold
  dsimp only
  repeat' first
    | with_reducible assumption
    | with_reducible refine State.publishCold_keeps (keeps_sub hk rfl) ?_
    | intro _
    | with_reducible refine Keeps.set_dsp (keeps_sub hk rfl) ?_

theorem State.actBegin_keeps {k : Nat} {r s : State} (hk : k &&& 8389548 = 8389548)
    (h : Keeps k r s) : Keeps k r (s.actBegin) := by
  unfold State.actBegin
  dsimp only
  repeat' first
    | with_reducible assumption
    | with_reducible refine State.hurdleBegin_keeps (keeps_sub hk rfl) ?_
    | with_reducible refine Keeps.cond ?_ ?_
    | split
    | intro _
    | with_reducible refine Keeps.set_boot (keeps_sub hk rfl) ?_

theorem State.activateNow_keeps {k : Nat} {r s : State} {b : Bool} (hk : k &&& 9031612 = 9031612)
    (h : Keeps k r s) : Keeps k r ((s.activateNow b)) := by
  unfold State.activateNow
  dsimp only
  repeat' first
    | with_reducible assumption
    | with_reducible refine State.actBegin_keeps (keeps_sub hk rfl) ?_
    | with_reducible refine State.actCold_keeps (keeps_sub hk rfl) ?_
    | with_reducible refine State.actRefs_keeps (keeps_sub hk rfl) ?_
    | with_reducible refine State.actStops_keeps (keeps_sub hk rfl) ?_
    | with_reducible refine State.count_keeps (keeps_sub hk rfl) ?_
    | with_reducible refine State.drawReserved_keeps (keeps_sub hk rfl) ?_
    | with_reducible refine State.fallback_keeps (keeps_sub hk rfl) ?_
    | with_reducible refine State.irqImg_keeps (keeps_sub hk rfl) ?_
    | with_reducible refine State.loadImage_keeps (keeps_sub hk rfl) ?_
    | with_reducible refine State.toProblem_keeps (keeps_sub hk rfl) ?_
    | with_reducible refine Keeps.cond ?_ ?_
    | split
    | intro _
    | with_reducible refine Keeps.set_boot (keeps_sub hk rfl) ?_

theorem State.activation_keeps {k : Nat} {r s : State} (hk : k &&& 9031612 = 9031612)
    (h : Keeps k r s) : Keeps k r (s.activation) := by
  unfold State.activation
  dsimp only
  repeat' first
    | with_reducible assumption
    | with_reducible refine State.activateNow_keeps (keeps_sub hk rfl) ?_
    | with_reducible refine State.imgRefused_keeps (keeps_sub hk rfl) ?_
    | exact fun _ g => by dsimp only [ImgState.wf]; exact g.img
    | exact fun g _ => by dsimp only [ImgState.wf]; exact (h.inv g).img
    | exact fun _ g => by dsimp only [ImgState.wf]; split <;> exact g.img
    | with_reducible refine Keeps.cond ?_ ?_
    | split
    | intro _
    | with_reducible refine Keeps.set_img (keeps_sub hk rfl) ?_ ?_

theorem State.dip_keeps {k : Nat} {r s : State} {vbulk : Nat} (hk : k &&& 256 = 256)
    (h : Keeps k r s) : Keeps k r ((s.dip vbulk)) := by
  unfold State.dip
  repeat' first
    | with_reducible assumption
    | with_reducible refine State.count_keeps (keeps_sub hk rfl) ?_
    | with_reducible refine State.irqPwr_keeps (keeps_sub hk rfl) ?_
    | with_reducible refine State.setBit_keeps (keeps_sub hk rfl) ?_
    | with_reducible refine State.wr_keeps (keeps_sub hk rfl) ?_
    | intro _

theorem State.failStops_keeps {k : Nat} {r s : State} (hk : k &&& 83724 = 83724)
    (h : Keeps k r s) : Keeps k r (s.failStops) := by
  unfold State.failStops
  dsimp only
  repeat' first
    | with_reducible assumption
    | with_reducible refine State.batonsDrop_keeps (keeps_sub hk rfl) ?_
    | with_reducible refine State.drawReserved_keeps (keeps_sub hk rfl) ?_
    | with_reducible refine State.fbpStopWith_keeps (keeps_sub hk rfl) ?_
    | with_reducible refine State.gating_keeps (keeps_sub hk rfl) ?_ ?_
    | with_reducible refine State.setBit_keeps (keeps_sub hk rfl) ?_
    | with_reducible refine State.solveStop_keeps (keeps_sub hk rfl) ?_
    | with_reducible refine State.wsResult_keeps (keeps_sub hk rfl) ?_
    | with_reducible refine Keeps.only ?_ ?_
    | intro _
    | with_reducible refine Keeps.set_boot (keeps_sub hk rfl) ?_
    | with_reducible refine Keeps.set_dsp (keeps_sub hk rfl) ?_

theorem State.failShut_keeps {k : Nat} {r s : State} {cur : Option Nat} (hk : k &&& 8389376 = 8389376)
    (h : Keeps k r s) : Keeps k r ((s.failShut cur)) := by
  unfold State.failShut
  repeat' first
    | with_reducible assumption
    | with_reducible refine State.ledgerAdd_keeps (keeps_sub hk rfl) ?_
    | intro _

theorem State.failSpoor_keeps {k : Nat} {r s : State} (hk : k &&& 8389024 = 8389024)
    (h : Keeps k r s) : Keeps k r (s.failSpoor) := by
  unfold State.failSpoor
  dsimp only
  repeat' first
    | with_reducible assumption
    | with_reducible refine State.appendRec_keeps (keeps_sub hk rfl) ?_
    | with_reducible refine State.count_keeps (keeps_sub hk rfl) ?_
    | with_reducible refine State.programDue_keeps (keeps_sub hk rfl) ?_
    | with_reducible refine State.programQueue_keeps (keeps_sub hk rfl) ?_
    | with_reducible refine Keeps.each ?_ ?_
    | with_reducible refine Keeps.cond ?_ ?_
    | split
    | intro _
    | with_reducible refine Keeps.set_spr (keeps_sub hk rfl) ?_

theorem State.failWrites_keeps {k : Nat} {r s : State} (hk : k &&& 4128 = 4128)
    (h : Keeps k r s) : Keeps k r (s.failWrites) := by
  unfold State.failWrites
  dsimp only
  repeat' first
    | with_reducible assumption
    | exact fun _ g => by dsimp only [NvState.wf]; exact g.nv
    | exact fun g _ => by dsimp only [NvState.wf]; exact (h.inv g).nv
    | intro _
    | with_reducible refine Keeps.set_key_nv (keeps_sub hk rfl) ?_ ?_

theorem State.powerFail_keeps {k : Nat} {r s : State} {below : Bool} {vbulk : Nat} {laps : List FeederLap} {ns : Nat} (hk : k &&& 8476588 = 8476588)
    (h : Keeps k r s) : Keeps k r ((s.powerFail below vbulk laps ns)) := by
  unfold State.powerFail
  dsimp only
  repeat' first
    | with_reducible assumption
    | with_reducible refine State.failShut_keeps (keeps_sub hk rfl) ?_
    | with_reducible refine State.failSpoor_keeps (keeps_sub hk rfl) ?_
    | with_reducible refine State.failStops_keeps (keeps_sub hk rfl) ?_
    | with_reducible refine State.failWrites_keeps (keeps_sub hk rfl) ?_
    | with_reducible refine State.injRan_keeps (keeps_sub hk rfl) ?_
    | with_reducible refine State.mtrUnsaved_keeps (keeps_sub hk rfl) ?_
    | with_reducible refine State.warmStore_keeps (keeps_sub hk rfl) ?_
    | with_reducible refine State.wr_keeps (keeps_sub hk rfl) ?_
    | with_reducible refine Keeps.cond ?_ ?_
    | split
    | intro _
    | with_reducible refine Keeps.set_boot (keeps_sub hk rfl) ?_

theorem State.shutdownDone_keeps {k : Nat} {r s : State} {tenths : Nat} (hk : k &&& 512 = 512)
    (h : Keeps k r s) : Keeps k r ((s.shutdownDone tenths)) := by
  unfold State.shutdownDone
  dsimp only
  repeat' first
    | with_reducible assumption
    | with_reducible refine State.setFld_keeps (keeps_sub hk rfl) ?_
    | with_reducible refine Keeps.cond ?_ ?_
    | split
    | intro _
    | with_reducible refine Keeps.set_boot (keeps_sub hk rfl) ?_

end Sys2Proof.Machine
end

