-- ==== Sys2Proof/Laws/KeepsBusDeny.lean ====
section
/-!
SUPPORT. Laws/KeepsBusDeny.lean: what the operations of Machine/BusDeny.lean keep (`Keeps`).
-/

namespace Sys2Proof.Machine

theorem State.blockRefused_keeps {k : Nat} {r s : State} {slot a : Nat} {v : Word} {st' : Status} (hk : k &&& 416 = 416)
    (h : Keeps k r s) : Keeps k r ((s.blockRefused slot a v st')) := by
  unfold State.blockRefused
  dsimp only
  repeat' first
    | with_reducible assumption
    | with_reducible refine State.badDate_keeps (keeps_sub hk rfl) ?_
    | with_reducible refine State.bootRefused_keeps (keeps_sub hk rfl) ?_
    | with_reducible refine State.clearUnlock_keeps (keeps_sub hk rfl) ?_
    | with_reducible refine State.count_keeps (keeps_sub hk rfl) ?_
    | with_reducible refine State.imgRefused_keeps (keeps_sub hk rfl) ?_
    | with_reducible refine State.injRan_keeps (keeps_sub hk rfl) ?_
    | with_reducible refine State.loopRefused_keeps (keeps_sub hk rfl) ?_
    | with_reducible refine State.nvRefused_keeps (keeps_sub hk rfl) ?_
    | with_reducible refine State.pairRefused_keeps (keeps_sub hk rfl) ?_
    | with_reducible refine State.ptpRefused_keeps (keeps_sub hk rfl) ?_
    | with_reducible refine State.pwWrong_keeps (keeps_sub hk rfl) ?_
    | with_reducible refine State.rtcRefused_keeps (keeps_sub hk rfl) ?_
    | with_reducible refine State.setBit_keeps (keeps_sub hk rfl) ?_
    | with_reducible refine State.setFld_keeps (keeps_sub hk rfl) ?_
    | with_reducible refine Keeps.only ?_ ?_
    | with_reducible refine Keeps.cond ?_ ?_
    | split
    | intro _

theorem State.wordRefused_keeps {k : Nat} {r s : State} {slot a : Nat} {v : Word} {d : Denial} (hk : k &&& 424 = 424)
    (h : Keeps k r s) : Keeps k r ((s.wordRefused slot a v d)) := by
  unfold State.wordRefused
  dsimp only
  repeat' first
    | with_reducible assumption
    | with_reducible refine State.blockRefused_keeps (keeps_sub hk rfl) ?_
    | with_reducible refine State.count_keeps (keeps_sub hk rfl) ?_
    | with_reducible refine State.setBit_keeps (keeps_sub hk rfl) ?_
    | with_reducible refine State.wsPoison_keeps (keeps_sub hk rfl) ?_
    | with_reducible refine Keeps.only ?_ ?_
    | intro _

end Sys2Proof.Machine
end

