-- ==== Sys2Proof/Laws/KeepsZidOps.lean ====
section
/-!
SUPPORT. Laws/KeepsZidOps.lean: what the operations of Machine/ZidOps.lean keep (`Keeps`).
-/

namespace Sys2Proof.Machine

theorem State.minwEnd_keeps {k : Nat} {r s : State} (hk : k &&& 256 = 256)
    (h : Keeps k r s) : Keeps k r (s.minwEnd) := by
  unfold State.minwEnd
  repeat' first
    | with_reducible assumption
    | with_reducible refine Keeps.cond ?_ ?_
    | split
    | intro _
    | with_reducible refine Keeps.set_zid (keeps_sub hk rfl) ?_

theorem State.faultCtrl_keeps {k : Nat} {r s : State} {v : Word} (hk : k &&& 256 = 256)
    (h : Keeps k r s) : Keeps k r ((s.faultCtrl v)) := by
  unfold State.faultCtrl
  dsimp only
  repeat' first
    | with_reducible assumption
    | with_reducible refine State.setBit_keeps (keeps_sub hk rfl) ?_
    | with_reducible refine State.trigger_keeps (keeps_sub hk rfl) ?_
    | with_reducible refine Keeps.only ?_ ?_
    | intro _

theorem State.pinReadback_keeps {k : Nat} {r s : State} {level : Bool} (hk : k &&& 256 = 256)
    (h : Keeps k r s) : Keeps k r ((s.pinReadback level)) := by
  unfold State.pinReadback
  dsimp only
  repeat' first
    | with_reducible assumption
    | with_reducible refine State.injRan_keeps (keeps_sub hk rfl) ?_
    | with_reducible refine State.setBit_keeps (keeps_sub hk rfl) ?_
    | with_reducible refine Keeps.only ?_ ?_
    | with_reducible refine Keeps.cond ?_ ?_
    | split
    | intro _
    | with_reducible refine Keeps.set_zid (keeps_sub hk rfl) ?_

theorem State.ledTesting_keeps {k : Nat} {r s : State} (hk : k &&& 256 = 256)
    (h : Keeps k r s) : Keeps k r (s.ledTesting) := by
  unfold State.ledTesting
  repeat' first
    | with_reducible assumption
    | intro _
    | with_reducible refine Keeps.set_zid (keeps_sub hk rfl) ?_

theorem State.ledTestEnd_keeps {k : Nat} {r s : State} (hk : k &&& 256 = 256)
    (h : Keeps k r s) : Keeps k r (s.ledTestEnd) := by
  unfold State.ledTestEnd
  repeat' first
    | with_reducible assumption
    | with_reducible refine Keeps.cond ?_ ?_
    | split
    | intro _
    | with_reducible refine Keeps.set_zid (keeps_sub hk rfl) ?_

theorem State.zidCtrl_keeps {k : Nat} {r s : State} {v : Word} (hk : k &&& 260 = 260)
    (h : Keeps k r s) : Keeps k r ((s.zidCtrl v)) := by
  unfold State.zidCtrl
  dsimp only
  repeat' first
    | with_reducible assumption
    | with_reducible refine State.ledTesting_keeps (keeps_sub hk rfl) ?_
    | with_reducible refine State.setBit_keeps (keeps_sub hk rfl) ?_
    | with_reducible refine State.wr_keeps (keeps_sub hk rfl) ?_
    | with_reducible refine Keeps.only ?_ ?_
    | with_reducible refine Keeps.each ?_ ?_
    | exact fun _ g => by dsimp only; with_reducible exact g.tick
    | exact fun g _ => by dsimp only; with_reducible exact (h.inv g).tick
    | intro _
    | with_reducible refine Keeps.set_lap (keeps_sub hk rfl) ?_ ?_

end Sys2Proof.Machine
end

