-- ==== Sys2Proof/Laws/KeepsBusWrite.lean ====
section
/-!
SUPPORT. Laws/KeepsBusWrite.lean: what the operations of Machine/BusWrite.lean keep (`Keeps`).
-/

namespace Sys2Proof.Machine

theorem State.wsCtrl_keeps {k : Nat} {r s : State} {slot : Nat} {v : Word} (hk : k &&& 264 = 264)
    (h : Keeps k r s) : Keeps k r ((s.wsCtrl slot v)) := by
  unfold State.wsCtrl
  dsimp only
  repeat' first
    | with_reducible assumption
    | with_reducible refine State.wsBegin_keeps (keeps_sub hk rfl) ?_
    | with_reducible refine State.wsResult_keeps (keeps_sub hk rfl) ?_
    | with_reducible refine State.wsSeal_keeps (keeps_sub hk rfl) ?_
    | with_reducible refine Keeps.only ?_ ?_
    | intro _

theorem State.loadLen_keeps {k : Nat} {r s : State} {v : Word} (hk : k &&& 0 = 0)
    (h : Keeps k r s) : Keeps k r ((s.loadLen v)) := by
  unfold State.loadLen
  repeat' first
    | with_reducible assumption
    | with_reducible refine State.plainWrite_keeps (keeps_sub hk rfl) ?_
    | with_reducible refine Keeps.cond ?_ ?_
    | split
    | intro _

theorem State.lapSrc_keeps {k : Nat} {r s : State} {v : Word} (hk : k &&& 4 = 4)
    (h : Keeps k r s) : Keeps k r ((s.lapSrc v)) := by
  unfold State.lapSrc
  dsimp only
  repeat' first
    | with_reducible assumption
    | with_reducible refine State.plainWrite_keeps (keeps_sub hk rfl) ?_
    | exact fun _ g => by dsimp only; with_reducible exact g.tick
    | exact fun g _ => by dsimp only; with_reducible exact (h.inv g).tick
    | exact fun _ g => by dsimp only; split <;> with_reducible exact g.tick
    | with_reducible refine Keeps.cond ?_ ?_
    | split
    | intro _
    | with_reducible refine Keeps.set_lap (keeps_sub hk rfl) ?_ ?_

theorem State.lapInj_keeps {k : Nat} {r s : State} {v : Word} (hk : k &&& 4 = 4)
    (h : Keeps k r s) : Keeps k r ((s.lapInj v)) := by
  unfold State.lapInj
  repeat' first
    | with_reducible assumption
    | with_reducible refine State.plainWrite_keeps (keeps_sub hk rfl) ?_
    | with_reducible refine Keeps.only ?_ ?_
    | exact fun _ g => by dsimp only; with_reducible exact g.tick
    | exact fun g _ => by dsimp only; with_reducible exact (h.inv g).tick
    | intro _
    | with_reducible refine Keeps.set_lap (keeps_sub hk rfl) ?_ ?_

theorem State.measWrite_keeps {k : Nat} {r s : State} {a : Nat} {v : Word} (hk : k &&& 0 = 0)
    (h : Keeps k r s) : Keeps k r ((s.measWrite a v)) := by
  unfold State.measWrite
  repeat' first
    | with_reducible assumption
    | with_reducible refine State.count_keeps (keeps_sub hk rfl) ?_
    | with_reducible refine State.wr_keeps (keeps_sub hk rfl) ?_
    | intro _

theorem State.slvStat_keeps {k : Nat} {r s : State} {v : Word} (hk : k &&& 0 = 0)
    (h : Keeps k r s) : Keeps k r ((s.slvStat v)) := by
  unfold State.slvStat
  dsimp only
  repeat' first
    | with_reducible assumption
    | with_reducible refine State.plainWrite_keeps (keeps_sub hk rfl) ?_
    | with_reducible refine State.setBit_keeps (keeps_sub hk rfl) ?_
    | with_reducible refine Keeps.only ?_ ?_
    | intro _

theorem State.forceCtrl_keeps {k : Nat} {r s : State} {v : Word} (hk : k &&& 388 = 388)
    (h : Keeps k r s) : Keeps k r ((s.forceCtrl v)) := by
  unfold State.forceCtrl
  repeat' first
    | with_reducible assumption
    | with_reducible refine State.forceClrAll_keeps (keeps_sub hk rfl) ?_
    | with_reducible refine Keeps.only ?_ ?_
    | intro _

theorem State.doSet_keeps {k : Nat} {r s : State} {v : Word} (hk : k &&& 16384 = 16384)
    (h : Keeps k r s) : Keeps k r ((s.doSet v)) := by
  unfold State.doSet
  dsimp only
  repeat' first
    | with_reducible assumption
    | with_reducible refine State.doGroup_keeps (keeps_sub hk rfl) ?_
    | with_reducible refine State.plainWrite_keeps (keeps_sub hk rfl) ?_
    | intro _
    | with_reducible refine Keeps.set_field (keeps_sub hk rfl) ?_

theorem State.aoSet_keeps {k : Nat} {r s : State} {n : Nat} {v : Word} (hk : k &&& 16384 = 16384)
    (h : Keeps k r s) : Keeps k r ((s.aoSet n v)) := by
  unfold State.aoSet
  repeat' first
    | with_reducible assumption
    | with_reducible refine State.aoDrive_keeps (keeps_sub hk rfl) ?_
    | with_reducible refine State.plainWrite_keeps (keeps_sub hk rfl) ?_
    | intro _

theorem State.snapAsk_keeps {k : Nat} {r s : State} {v : Word} (hk : k &&& 262144 = 262144)
    (h : Keeps k r s) : Keeps k r ((s.snapAsk v)) := by
  unfold State.snapAsk
  repeat' first
    | with_reducible assumption
    | with_reducible refine Keeps.only ?_ ?_
    | intro _
    | with_reducible refine Keeps.set_mtr (keeps_sub hk rfl) ?_

theorem State.canWrite_keeps {k : Nat} {r s : State} {ch o : Nat} {v : Word} (hk : k &&& 131328 = 131328)
    (h : Keeps k r s) : Keeps k r ((s.canWrite ch o v)) := by
  unfold State.canWrite
  repeat' first
    | with_reducible assumption
    | with_reducible refine State.canCtrl_keeps (keeps_sub hk rfl) ?_
    | with_reducible refine State.canPop_keeps (keeps_sub hk rfl) ?_
    | with_reducible refine State.plainWrite_keeps (keeps_sub hk rfl) ?_
    | with_reducible refine State.txbWrite_keeps (keeps_sub hk rfl) ?_
    | with_reducible refine Keeps.cond ?_ ?_
    | split
    | intro _

theorem State.nvsCtrl_keeps {k : Nat} {r s : State} {slot : Nat} {v : Word} (hk : k &&& 36 = 36)
    (h : Keeps k r s) : Keeps k r ((s.nvsCtrl slot v)) := by
  unfold State.nvsCtrl
  dsimp only
  repeat' first
    | with_reducible assumption
    | with_reducible refine State.batonRequest_keeps (keeps_sub hk rfl) ?_
    | with_reducible refine State.unlockDrop_keeps (keeps_sub hk rfl) ?_
    | with_reducible refine Keeps.only ?_ ?_
    | exact fun _ g => by dsimp only [NvState.wf]; exact g.nv
    | exact fun g _ => by dsimp only [NvState.wf]; exact (h.inv g).nv
    | exact fun _ g => by dsimp only [NvState.wf]; split <;> exact g.nv
    | with_reducible refine Keeps.cond ?_ ?_
    | split
    | intro _
    | with_reducible refine Keeps.set_nv (keeps_sub hk rfl) ?_ ?_

theorem State.unlockCtrl_keeps {k : Nat} {r s : State} {slot : Nat} {v : Word} (hk : k &&& 0 = 0)
    (h : Keeps k r s) : Keeps k r ((s.unlockCtrl slot v)) := by
  unfold State.unlockCtrl
  repeat' first
    | with_reducible assumption
    | with_reducible refine State.clearUnlock_keeps (keeps_sub hk rfl) ?_
    | with_reducible refine State.unlockGain_keeps (keeps_sub hk rfl) ?_
    | intro _

theorem State.incAsk_keeps {k : Nat} {r s : State} {v : Word} (hk : k &&& 32 = 32)
    (h : Keeps k r s) : Keeps k r ((s.incAsk v)) := by
  unfold State.incAsk
  repeat' first
    | with_reducible assumption
    | with_reducible refine State.setBit_keeps (keeps_sub hk rfl) ?_
    | with_reducible refine State.tallyAsk_keeps (keeps_sub hk rfl) ?_
    | with_reducible refine Keeps.only ?_ ?_
    | intro _

theorem State.nvsWrite_keeps {k : Nat} {r s : State} {slot a : Nat} {v : Word} (hk : k &&& 8228 = 8228)
    (h : Keeps k r s) : Keeps k r ((s.nvsWrite slot a v)) := by
  unfold State.nvsWrite
  repeat' first
    | with_reducible assumption
    | with_reducible refine State.cryptSet_keeps (keeps_sub hk rfl) ?_
    | with_reducible refine State.incAsk_keeps (keeps_sub hk rfl) ?_
    | with_reducible refine State.nvsCtrl_keeps (keeps_sub hk rfl) ?_
    | with_reducible refine State.plainWrite_keeps (keeps_sub hk rfl) ?_
    | with_reducible refine State.pwsetBegin_keeps (keeps_sub hk rfl) ?_
    | with_reducible refine State.unlockCtrl_keeps (keeps_sub hk rfl) ?_
    | with_reducible refine State.wr_keeps (keeps_sub hk rfl) ?_
    | with_reducible refine Keeps.cond ?_ ?_
    | split
    | intro _

theorem State.rtcCtrl_keeps {k : Nat} {r s : State} {slot : Nat} {v : Word} (hk : k &&& 2097536 = 2097536)
    (h : Keeps k r s) : Keeps k r ((s.rtcCtrl slot v)) := by
  unfold State.rtcCtrl
  dsimp only
  repeat' first
    | with_reducible assumption
    | with_reducible refine State.dstMove_keeps (keeps_sub hk rfl) ?_
    | with_reducible refine State.freezeEnd_keeps (keeps_sub hk rfl) ?_
    | with_reducible refine State.injRan_keeps (keeps_sub hk rfl) ?_
    | with_reducible refine State.loadCal_keeps (keeps_sub hk rfl) ?_
    | with_reducible refine Keeps.only ?_ ?_
    | intro _

theorem State.post_keeps {k : Nat} {r s : State} {v : Word} (hk : k &&& 384 = 384)
    (h : Keeps k r s) : Keeps k r ((s.post v)) := by
  unfold State.post
  dsimp only
  repeat' first
    | with_reducible assumption
    | with_reducible refine State.raiseEv_keeps (keeps_sub hk rfl) ?_
    | with_reducible refine Keeps.only ?_ ?_
    | intro _

theorem State.regWrite_keeps {k : Nat} {r s : State} {slot a : Nat} {v : Word} {left : List (Nat × Word)} (hk : k &&& 16777215 = 16777215)
    (h : Keeps k r s) : Keeps k r ((s.regWrite slot a v left)) := by
  unfold State.regWrite
  repeat' first
    | with_reducible assumption
    | with_reducible refine State.actCtrl_keeps (keeps_sub hk rfl) ?_
    | with_reducible refine State.aoSet_keeps (keeps_sub hk rfl) ?_
    | with_reducible refine State.bootCtrl_keeps (keeps_sub hk rfl) ?_
    | with_reducible refine State.canWrite_keeps (keeps_sub hk rfl) ?_
    | with_reducible refine State.chgWrite_keeps (keeps_sub hk rfl) ?_
    | with_reducible refine State.doClear_keeps (keeps_sub hk rfl) ?_
    | with_reducible refine State.doSet_keeps (keeps_sub hk rfl) ?_
    | with_reducible refine State.domCfg_keeps (keeps_sub hk rfl) ?_
    | with_reducible refine State.faultCtrl_keeps (keeps_sub hk rfl) ?_
    | with_reducible refine State.fbpCtrl_keeps (keeps_sub hk rfl) ?_
    | with_reducible refine State.forceCmd_keeps (keeps_sub hk rfl) ?_
    | with_reducible refine State.forceCtrl_keeps (keeps_sub hk rfl) ?_
    | with_reducible refine State.imgBoot_keeps (keeps_sub hk rfl) ?_
    | with_reducible refine State.keyExec_keeps (keeps_sub hk rfl) ?_
    | with_reducible refine State.lapInj_keeps (keeps_sub hk rfl) ?_
    | with_reducible refine State.lapSrc_keeps (keeps_sub hk rfl) ?_
    | with_reducible refine State.loadCtrl_keeps (keeps_sub hk rfl) ?_
    | with_reducible refine State.loadLen_keeps (keeps_sub hk rfl) ?_
    | with_reducible refine State.loopCtrl_keeps (keeps_sub hk rfl) ?_
    | with_reducible refine State.measWrite_keeps (keeps_sub hk rfl) ?_
    | with_reducible refine State.nvsWrite_keeps (keeps_sub hk rfl) ?_
    | with_reducible refine State.pairCtrl_keeps (keeps_sub hk rfl) ?_
    | with_reducible refine State.plainWrite_keeps (keeps_sub hk rfl) ?_
    | with_reducible refine State.post_keeps (keeps_sub hk rfl) ?_
    | with_reducible refine State.ptpCtrl_keeps (keeps_sub hk rfl) ?_
    | with_reducible refine State.rateWrite_keeps (keeps_sub hk rfl) ?_
    | with_reducible refine State.rtcCtrl_keeps (keeps_sub hk rfl) ?_
    | with_reducible refine State.scrubCtrl_keeps (keeps_sub hk rfl) ?_
    | with_reducible refine State.slvStat_keeps (keeps_sub hk rfl) ?_
    | with_reducible refine State.snapAsk_keeps (keeps_sub hk rfl) ?_
    | with_reducible refine State.subReset_keeps (keeps_sub hk rfl) ?_
    | with_reducible refine State.trimWrite_keeps (keeps_sub hk rfl) ?_
    | with_reducible refine State.witCtrl_keeps (keeps_sub hk rfl) ?_
    | with_reducible refine State.wr_keeps (keeps_sub hk rfl) ?_
    | with_reducible refine State.wsCtrl_keeps (keeps_sub hk rfl) ?_
    | with_reducible refine State.zidCtrl_keeps (keeps_sub hk rfl) ?_
    | with_reducible refine Keeps.only ?_ ?_
    | with_reducible refine Keeps.cond ?_ ?_
    | split
    | intro _

theorem State.wordWrite_keeps {k : Nat} {r s : State} {slot : Nat} {left : List (Nat × Word)} {w : Nat × Word} (hk : k &&& 16777215 = 16777215)
    (h : Keeps k r s) : Keeps k r ((s.wordWrite slot left w)) := by
  unfold State.wordWrite
  dsimp only
  repeat' first
    | with_reducible assumption
    | with_reducible refine State.putUserWord_keeps (keeps_sub hk rfl) ?_
    | with_reducible refine State.regWrite_keeps (keeps_sub hk rfl) ?_
    | with_reducible refine State.sramPut_keeps (keeps_sub hk rfl) ?_
    | with_reducible refine State.wsJoin_keeps (keeps_sub hk rfl) ?_
    | with_reducible refine Keeps.cond ?_ ?_
    | split
    | intro _

theorem State.leftUnwritten_keeps {k : Nat} {r s : State} {slot : Nat} {l : List (Nat × Word)} (hk : k &&& 8 = 8)
    (h : Keeps k r s) : Keeps k r ((s.leftUnwritten slot l)) := by
  unfold State.leftUnwritten
  repeat' first
    | with_reducible assumption
    | with_reducible refine State.wsPoison_keeps (keeps_sub hk rfl) ?_
    | with_reducible refine Keeps.only ?_ ?_
    | split
    | intro _

theorem State.writeWords_keeps {k : Nat} {r s : State} {slot : Nat} {left : List (Nat × Word)} {l : List (Nat × Word)} (hk : k &&& 16777215 = 16777215)
    (h : Keeps k r s) : Keeps k r ((s.writeWords slot left l)) := by
  unfold State.writeWords
  repeat' first
    | with_reducible assumption
    | with_reducible refine State.wordWrite_keeps (keeps_sub hk rfl) ?_
    | with_reducible refine Keeps.each ?_ ?_
    | intro _

end Sys2Proof.Machine
end

