-- ==== Sys2Proof/Laws/KeepsLiveRead.lean ====
section
/-!
SUPPORT. Laws/KeepsLiveRead.lean: what the operations of Machine/LiveRead.lean keep (`Keeps`).
-/

namespace Sys2Proof.Machine

theorem State.readLatch_keeps {k : Nat} {r s : State} {a : Nat} (hk : k &&& 1310720 = 1310720)
    (h : Keeps k r s) : Keeps k r ((s.readLatch a)) := by
  unfold State.readLatch
  repeat' first
    | with_reducible assumption
    | with_reducible refine State.count_keeps (keeps_sub hk rfl) ?_
    | with_reducible refine State.mtrLatch_keeps (keeps_sub hk rfl) ?_
    | with_reducible refine State.nowCapture_keeps (keeps_sub hk rfl) ?_
    | with_reducible refine State.wr_keeps (keeps_sub hk rfl) ?_
    | with_reducible refine Keeps.cond ?_ ?_
    | split
    | intro _

theorem State.readWord_keeps {k : Nat} {r s : State} {slot a : Nat} (hk : k &&& 3407872 = 3407872)
    (h : Keeps k r s) : Keeps k r ((s.readWord slot a).2) := by
  unfold State.readWord
  dsimp only
  repeat' first
    | with_reducible assumption
    | with_reducible refine State.rcClear_keeps (keeps_sub hk rfl) ?_
    | with_reducible refine State.readLatch_keeps (keeps_sub hk rfl) ?_
    | with_reducible refine State.shadowRead_keeps (keeps_sub hk rfl) ?_
    | with_reducible refine Keeps.cond ?_ ?_
    | split
    | intro _

end Sys2Proof.Machine
end

