-- ==== Sys2Proof/Laws/KeepsHwpOps.lean ====
section
/-!
SUPPORT. Laws/KeepsHwpOps.lean: what the operations of Machine/HwpOps.lean keep (`Keeps`).
-/

namespace Sys2Proof.Machine

theorem State.sendResponse_keeps {k : Nat} {r s : State} {port : Nat} {ip : Word} {udp : Nat} {bytes : List Byte} (hk : k &&& 8388610 = 8388610)
    (h : Keeps k r s) : Keeps k r ((s.sendResponse port ip udp bytes)) := by
  unfold State.sendResponse
  repeat' first
    | with_reducible assumption
    | with_reducible refine State.send_keeps (keeps_sub hk rfl) ?_
    | intro _

theorem State.resend_keeps {k : Nat} {r s : State} {port : Nat} {ip : Word} {udp : Nat} {bytes : List Byte} (hk : k &&& 8388610 = 8388610)
    (h : Keeps k r s) : Keeps k r ((s.resend port ip udp bytes)) := by
  unfold State.resend
  repeat' first
    | with_reducible assumption
    | with_reducible refine State.count_keeps (keeps_sub hk rfl) ?_
    | with_reducible refine State.sendResponse_keeps (keeps_sub hk rfl) ?_
    | with_reducible refine State.setBit_keeps (keeps_sub hk rfl) ?_
    | intro _

theorem State.storeResponse_keeps {k : Nat} {r s : State} {r' : HwpReq} {a : Answer} (hk : k &&& 8388674 = 8388674)
    (h : Keeps k r s) : Keeps k r ((s.storeResponse r' a)) := by
  unfold State.storeResponse
  dsimp only
  repeat' first
    | with_reducible assumption
    | with_reducible refine State.resend_keeps (keeps_sub hk rfl) ?_
    | with_reducible refine State.sendResponse_keeps (keeps_sub hk rfl) ?_
    | with_reducible refine Keeps.each ?_ ?_
    | intro _
    | with_reducible refine Keeps.set_hwp (keeps_sub hk rfl) ?_

theorem State.answerOp_keeps {k : Nat} {r s : State} {src : Src} {op : Nat} {a : Answer} (hk : k &&& 8388675 = 8388675)
    (h : Keeps k r s) : Keeps k r ((s.answerOp src op a)) := by
  unfold State.answerOp
  dsimp only
  repeat' first
    | with_reducible assumption
    | with_reducible refine State.storeResponse_keeps (keeps_sub hk rfl) ?_
    | split
    | intro _
    | with_reducible refine Keeps.set_answer (keeps_sub hk rfl) ?_

theorem State.hwpRefused_keeps {k : Nat} {r s : State} {check cnt statBit op slot port : Nat} {st' : Status} (hk : k &&& 256 = 256)
    (h : Keeps k r s) : Keeps k r ((s.hwpRefused check cnt statBit op slot port st')) := by
  unfold State.hwpRefused
  dsimp only
  repeat' first
    | with_reducible assumption
    | with_reducible refine State.count_keeps (keeps_sub hk rfl) ?_
    | with_reducible refine State.irqHwp_keeps (keeps_sub hk rfl) ?_
    | with_reducible refine State.setBit_keeps (keeps_sub hk rfl) ?_
    | with_reducible refine State.wr_keeps (keeps_sub hk rfl) ?_
    | with_reducible refine Keeps.only ?_ ?_
    | intro _

theorem State.opRefused_keeps {k : Nat} {r s : State} {src : Src} {op : Nat} {st' : Status} {info : Word} (hk : k &&& 8388931 = 8388931)
    (h : Keeps k r s) : Keeps k r ((s.opRefused src op st' info)) := by
  unfold State.opRefused
  repeat' first
    | with_reducible assumption
    | with_reducible refine State.answerOp_keeps (keeps_sub hk rfl) ?_
    | with_reducible refine State.hwpRefused_keeps (keeps_sub hk rfl) ?_
    | intro _

theorem State.opOk_keeps {k : Nat} {r s : State} {src : Src} {op : Nat} {info : Word} {data : List Word} {epoch : Nat} (hk : k &&& 8388675 = 8388675)
    (h : Keeps k r s) : Keeps k r ((s.opOk src op info data epoch)) := by
  unfold State.opOk
  repeat' first
    | with_reducible assumption
    | with_reducible refine State.answerOp_keeps (keeps_sub hk rfl) ?_
    | with_reducible refine State.count_keeps (keeps_sub hk rfl) ?_
    | intro _

theorem State.opPartial_keeps {k : Nat} {r s : State} {src : Src} {op : Nat} {info : Word} {epoch : Nat} (hk : k &&& 8388675 = 8388675)
    (h : Keeps k r s) : Keeps k r ((s.opPartial src op info epoch)) := by
  unfold State.opPartial
  repeat' first
    | with_reducible assumption
    | with_reducible refine State.answerOp_keeps (keeps_sub hk rfl) ?_
    | with_reducible refine State.count_keeps (keeps_sub hk rfl) ?_
    | with_reducible refine State.setBit_keeps (keeps_sub hk rfl) ?_
    | intro _

theorem State.staleRead_keeps {k : Nat} {r s : State} (hk : k &&& 256 = 256)
    (h : Keeps k r s) : Keeps k r (s.staleRead) := by
  unfold State.staleRead
  repeat' first
    | with_reducible assumption
    | with_reducible refine State.count_keeps (keeps_sub hk rfl) ?_
    | with_reducible refine State.irqSett_keeps (keeps_sub hk rfl) ?_
    | with_reducible refine State.setBit_keeps (keeps_sub hk rfl) ?_
    | intro _

theorem State.readSett_keeps {k : Nat} {r s : State} {src : Src} {a n sel : Nat} (hk : k &&& 8388931 = 8388931)
    (h : Keeps k r s) : Keeps k r ((s.readSett src a n sel)) := by
  unfold State.readSett
  repeat' first
    | with_reducible assumption
    | with_reducible refine State.opOk_keeps (keeps_sub hk rfl) ?_
    | with_reducible refine State.opRefused_keeps (keeps_sub hk rfl) ?_
    | with_reducible refine State.staleRead_keeps (keeps_sub hk rfl) ?_
    | with_reducible refine Keeps.only ?_ ?_
    | with_reducible refine Keeps.cond ?_ ?_
    | split
    | intro _

theorem State.readWords_keeps {k : Nat} {r s : State} {slot a : Nat} {x0 : Nat} {x1 : Nat} (hk : k &&& 3407872 = 3407872)
    (h : Keeps k r s) : Keeps k r ((s.readWords slot a x0 x1).2) := by
  induction x1 generalizing s x0 with
  | zero => exact h
  | succ n ih =>
    unfold State.readWords
    refine keeps_snd (ih ?_)
    split
    · exact h
    · exact State.readWord_keeps (keeps_sub hk rfl) h

theorem State.opRead_keeps {k : Nat} {r s : State} {src : Src} {a n sel : Nat} (hk : k &&& 11796963 = 11796963)
    (h : Keeps k r s) : Keeps k r ((s.opRead src a n sel)) := by
  unfold State.opRead
  dsimp only
  repeat' first
    | with_reducible assumption
    | with_reducible refine State.blockRefused_keeps (keeps_sub hk rfl) ?_
    | with_reducible refine State.opOk_keeps (keeps_sub hk rfl) ?_
    | with_reducible refine State.opRefused_keeps (keeps_sub hk rfl) ?_
    | with_reducible refine State.readSett_keeps (keeps_sub hk rfl) ?_
    | with_reducible refine State.readWords_keeps (keeps_sub hk rfl) ?_
    | with_reducible refine Keeps.only ?_ ?_
    | with_reducible refine Keeps.cond ?_ ?_
    | split
    | intro _

theorem State.wordsEnd_keeps {k : Nat} {r s : State} {j : NvJob} {done : Nat} {rest : List (Nat × Word)} (hk : k &&& 8388683 = 8388683)
    (h : Keeps k r s) : Keeps k r ((s.wordsEnd j done rest)) := by
  unfold State.wordsEnd
  repeat' first
    | with_reducible assumption
    | with_reducible refine State.leftUnwritten_keeps (keeps_sub hk rfl) ?_
    | with_reducible refine State.opOk_keeps (keeps_sub hk rfl) ?_
    | with_reducible refine State.opPartial_keeps (keeps_sub hk rfl) ?_
    | with_reducible refine State.wsServed_keeps (keeps_sub hk rfl) ?_
    | split
    | intro _

theorem State.nvDropped_keeps {k : Nat} {r s : State} {rest : List (Nat × Word)} (hk : k &&& 0 = 0)
    (h : Keeps k r s) : Keeps k r ((s.nvDropped rest)) := by
  unfold State.nvDropped
  repeat' first
    | with_reducible assumption
    | with_reducible refine State.count_keeps (keeps_sub hk rfl) ?_
    | with_reducible refine State.setBit_keeps (keeps_sub hk rfl) ?_
    | with_reducible refine Keeps.only ?_ ?_
    | intro _

theorem State.wordsRun_keeps {k : Nat} {r s : State} {j : NvJob} {left : List (Nat × Word)} {before after : List NvJob} (hk : k &&& 16777215 = 16777215)
    (h : Keeps k r s) : Keeps k r ((s.wordsRun j left before after)) := by
  unfold State.wordsRun
  dsimp only
  repeat' first
    | with_reducible assumption
    | with_reducible refine State.nvDropped_keeps (keeps_sub hk rfl) ?_
    | with_reducible refine State.wordsEnd_keeps (keeps_sub hk rfl) ?_
    | with_reducible refine State.writeWords_keeps (keeps_sub hk rfl) ?_
    | with_reducible refine Keeps.only ?_ ?_
    | exact fun _ g => by dsimp only [NvState.wf]; exact g.nv
    | exact fun g _ => by dsimp only [NvState.wf]; exact (h.inv g).nv
    | exact fun _ g => by dsimp only [NvState.wf]; split <;> exact g.nv
    | with_reducible refine Keeps.cond ?_ ?_
    | split
    | intro _
    | with_reducible refine Keeps.set_nv (keeps_sub hk rfl) ?_ ?_

theorem State.directPage_keeps {k : Nat} {r s : State} {rb : ReadBack} (hk : k &&& 16777215 = 16777215)
    (h : Keeps k r s) : Keeps k r ((s.directPage rb)) := by
  unfold State.directPage
  dsimp only
  repeat' first
    | with_reducible assumption
    | with_reducible refine State.nvPage_keeps (keeps_sub hk rfl) ?_
    | with_reducible refine State.wordsEnd_keeps (keeps_sub hk rfl) ?_
    | with_reducible refine State.wordsRun_keeps (keeps_sub hk rfl) ?_
    | with_reducible refine State.writeWords_keeps (keeps_sub hk rfl) ?_
    | exact fun _ g => by dsimp only [NvState.wf]; exact g.nv
    | exact fun g _ => by dsimp only [NvState.wf]; exact (h.inv g).nv
    | exact fun _ g => by dsimp only [NvState.wf]; split <;> exact g.nv
    | with_reducible refine Keeps.cond ?_ ?_
    | split
    | intro _
    | with_reducible refine Keeps.set_nv (keeps_sub hk rfl) ?_ ?_

theorem State.opWords_keeps {k : Nat} {r s : State} {src : Src} {isList : Bool} {l : List (Nat × Word)} {drop : Option Nat} {left : List (Nat × Word)} (hk : k &&& 16777215 = 16777215)
    (h : Keeps k r s) : Keeps k r ((s.opWords src isList l drop left)) := by
  unfold State.opWords
  dsimp only
  repeat' first
    | with_reducible assumption
    | with_reducible refine State.opRefused_keeps (keeps_sub hk rfl) ?_
    | with_reducible refine State.wordRefused_keeps (keeps_sub hk rfl) ?_
    | with_reducible refine State.wordsRun_keeps (keeps_sub hk rfl) ?_
    | with_reducible refine State.wsForm_keeps (keeps_sub hk rfl) ?_
    | with_reducible refine Keeps.cond ?_ ?_
    | split
    | intro _

theorem State.write1_keeps {k : Nat} {r s : State} {src : Src} {a : Nat} {v : Word} (hk : k &&& 16777215 = 16777215)
    (h : Keeps k r s) : Keeps k r ((s.write1 src a v)) := by
  unfold State.write1
  repeat' first
    | with_reducible assumption
    | with_reducible refine State.opWords_keeps (keeps_sub hk rfl) ?_
    | intro _

theorem State.opLoad_keeps {k : Nat} {r s : State} {src : Src} {off : Nat} {data : List Word} {drop : Option Nat} (hk : k &&& 8388947 = 8388947)
    (h : Keeps k r s) : Keeps k r ((s.opLoad src off data drop)) := by
  unfold State.opLoad
  dsimp only
  repeat' first
    | with_reducible assumption
    | with_reducible refine State.chunkPut_keeps (keeps_sub hk rfl) ?_
    | with_reducible refine State.chunkRefused_keeps (keeps_sub hk rfl) ?_
    | with_reducible refine State.opOk_keeps (keeps_sub hk rfl) ?_
    | with_reducible refine State.opPartial_keeps (keeps_sub hk rfl) ?_
    | with_reducible refine State.opRefused_keeps (keeps_sub hk rfl) ?_
    | with_reducible refine Keeps.cond ?_ ?_
    | split
    | intro _

theorem State.opPublish_keeps {k : Nat} {r s : State} {src : Src} {seq : Word} (hk : k &&& 8388939 = 8388939)
    (h : Keeps k r s) : Keeps k r ((s.opPublish src seq)) := by
  unfold State.opPublish
  dsimp only
  repeat' first
    | with_reducible assumption
    | with_reducible refine State.opOk_keeps (keeps_sub hk rfl) ?_
    | with_reducible refine State.opRefused_keeps (keeps_sub hk rfl) ?_
    | with_reducible refine State.wsSeal_keeps (keeps_sub hk rfl) ?_
    | with_reducible refine Keeps.cond ?_ ?_
    | split
    | intro _

theorem State.pageProgram_keeps {k : Nat} {r s : State} {writer : PageWriter} {rb : ReadBack} (hk : k &&& 16777215 = 16777215)
    (h : Keeps k r s) : Keeps k r ((s.pageProgram writer rb)) := by
  unfold State.pageProgram
  repeat' first
    | with_reducible assumption
    | with_reducible refine State.directPage_keeps (keeps_sub hk rfl) ?_
    | with_reducible refine State.keyCopy_keeps (keeps_sub hk rfl) ?_
    | with_reducible refine State.pwCopy_keeps (keeps_sub hk rfl) ?_
    | with_reducible refine State.storeStep_keeps (keeps_sub hk rfl) ?_
    | split
    | intro _

theorem State.keyUpdateDone_keeps {k : Nat} {r s : State} {rb : ReadBack} (hk : k &&& 8393008 = 8393008)
    (h : Keeps k r s) : Keeps k r ((s.keyUpdateDone rb)) := by
  unfold State.keyUpdateDone
  dsimp only
  repeat' first
    | with_reducible assumption
    | with_reducible refine State.incrementDone_keeps (keeps_sub hk rfl) ?_
    | with_reducible refine State.keyCopy_keeps (keeps_sub hk rfl) ?_
    | with_reducible refine Keeps.only ?_ ?_
    | split
    | intro _

theorem State.reqRefuse_keeps {k : Nat} {r s : State} {b : List Byte} {p : Nat} {ip : Word} {udp check cnt statBit : Nat} {st' : Status} (hk : k &&& 8388867 = 8388867)
    (h : Keeps k r s) : Keeps k r ((s.reqRefuse b p ip udp check cnt statBit st')) := by
  unfold State.reqRefuse
  dsimp only
  repeat' first
    | with_reducible assumption
    | with_reducible refine State.hwpRefused_keeps (keeps_sub hk rfl) ?_
    | with_reducible refine State.sendResponse_keeps (keeps_sub hk rfl) ?_
    | intro _
    | with_reducible refine Keeps.set_answer (keeps_sub hk rfl) ?_

theorem State.reqTake_keeps {k : Nat} {r s : State} {r' : HwpReq} (hk : k &&& 4160 = 4160)
    (h : Keeps k r s) : Keeps k r ((s.reqTake r')) := by
  unfold State.reqTake
  dsimp only
  repeat' first
    | with_reducible assumption
    | with_reducible refine State.wr_keeps (keeps_sub hk rfl) ?_
    | intro _
    | with_reducible refine Keeps.set_hwp (keeps_sub hk rfl) ?_
    | with_reducible refine Keeps.set_key (keeps_sub hk rfl) ?_

theorem State.reqJudge_keeps {k : Nat} {r s : State} {b : List Byte} {p : Nat} {ip : Word} {udp : Nat} {macOk : Bool} (hk : k &&& 8393027 = 8393027)
    (h : Keeps k r s) : Keeps k r ((s.reqJudge b p ip udp macOk)) := by
  unfold State.reqJudge
  dsimp only
  repeat' first
    | with_reducible assumption
    | with_reducible refine State.reqRefuse_keeps (keeps_sub hk rfl) ?_
    | with_reducible refine State.reqTake_keeps (keeps_sub hk rfl) ?_
    | with_reducible refine State.resend_keeps (keeps_sub hk rfl) ?_
    | with_reducible refine Keeps.cond ?_ ?_
    | split
    | intro _
    | with_reducible refine Keeps.set_hwp (keeps_sub hk rfl) ?_

theorem State.reqMac_keeps {k : Nat} {r s : State} {b : List Byte} (hk : k &&& 0 = 0)
    (h : Keeps k r s) : Keeps k r ((s.reqMac b).2) := by
  unfold State.reqMac
  dsimp only
  repeat' first
    | with_reducible assumption
    | with_reducible refine State.injRan_keeps (keeps_sub hk rfl) ?_
    | split
    | intro _

theorem State.reqCharge_keeps {k : Nat} {r s : State} {b : List Byte} (hk : k &&& 8388608 = 8388608)
    (h : Keeps k r s) : Keeps k r ((s.reqCharge b)) := by
  unfold State.reqCharge
  repeat' first
    | with_reducible assumption
    | with_reducible refine State.charge_keeps (keeps_sub hk rfl) ?_
    | intro _

theorem State.requestJudge_keeps {k : Nat} {r s : State} {b : List Byte} {p : Nat} {ip : Word} {udp : Nat} (hk : k &&& 8393027 = 8393027)
    (h : Keeps k r s) : Keeps k r ((s.requestJudge b p ip udp)) := by
  unfold State.requestJudge
  dsimp only
  repeat' first
    | with_reducible assumption
    | with_reducible refine State.injRan_keeps (keeps_sub hk rfl) ?_
    | with_reducible refine State.reqJudge_keeps (keeps_sub hk rfl) ?_
    | with_reducible refine State.reqMac_keeps (keeps_sub hk rfl) ?_
    | with_reducible refine State.reqRefuse_keeps (keeps_sub hk rfl) ?_
    | with_reducible refine Keeps.cond ?_ ?_
    | split
    | intro _

theorem State.request_keeps {k : Nat} {r s : State} {b : List Byte} {p : Nat} {ip : Word} {udp : Nat} (hk : k &&& 8393027 = 8393027)
    (h : Keeps k r s) : Keeps k r ((s.request b p ip udp)) := by
  unfold State.request
  repeat' first
    | with_reducible assumption
    | with_reducible refine State.reqCharge_keeps (keeps_sub hk rfl) ?_
    | with_reducible refine State.requestJudge_keeps (keeps_sub hk rfl) ?_
    | intro _

theorem State.requestFrame_keeps {k : Nat} {r s : State} {b : List Byte} {p : Nat} {ip : Word} {udp : Nat} (hk : k &&& 8917315 = 8917315)
    (h : Keeps k r s) : Keeps k r ((s.requestFrame b p ip udp)) := by
  unfold State.requestFrame
  repeat' first
    | with_reducible assumption
    | with_reducible refine State.clearSent_keeps (keeps_sub hk rfl) ?_
    | with_reducible refine State.ethTake_keeps (keeps_sub hk rfl) ?_ ?_
    | with_reducible refine State.request_keeps (keeps_sub hk rfl) ?_
    | with_reducible refine Keeps.cond ?_ ?_
    | split
    | intro _

theorem State.challenge_keeps {k : Nat} {r s : State} {b : List Byte} {ip : Word} {p udp : Nat} (hk : k &&& 8392706 = 8392706)
    (h : Keeps k r s) : Keeps k r ((s.challenge b ip p udp)) := by
  unfold State.challenge
  dsimp only
  repeat' first
    | with_reducible assumption
    | with_reducible refine State.count_keeps (keeps_sub hk rfl) ?_
    | with_reducible refine State.send_keeps (keeps_sub hk rfl) ?_
    | with_reducible refine State.setBit_keeps (keeps_sub hk rfl) ?_
    | with_reducible refine Keeps.cond ?_ ?_
    | split
    | intro _
    | with_reducible refine Keeps.set_key (keeps_sub hk rfl) ?_

theorem State.challengeFrame_keeps {k : Nat} {r s : State} {b : List Byte} {p : Nat} {ip : Word} {udp : Nat} (hk : k &&& 8917250 = 8917250)
    (h : Keeps k r s) : Keeps k r ((s.challengeFrame b p ip udp)) := by
  unfold State.challengeFrame
  repeat' first
    | with_reducible assumption
    | with_reducible refine State.challenge_keeps (keeps_sub hk rfl) ?_
    | with_reducible refine State.ethTake_keeps (keeps_sub hk rfl) ?_ ?_
    | with_reducible refine Keeps.cond ?_ ?_
    | split
    | intro _

end Sys2Proof.Machine
end

