-- ==== Sys2Proof/Laws/State.lean ====
section
/-!
SUPPORT. Laws/State.lean: one lemma per component of the state and update: a write to a register leaves every other
component alone, and a frame sent or forgotten leaves all but `sent` alone.
-/

namespace Sys2Proof.Machine

@[simp] theorem State.wr_pending (s : State) (a : Nat) (v : Word) : (s.wr a v).pending = s.pending := rfl
@[simp] theorem State.wr_answer (s : State) (a : Nat) (v : Word) : (s.wr a v).answer = s.answer := rfl
@[simp] theorem State.wr_sent (s : State) (a : Nat) (v : Word) : (s.wr a v).sent = s.sent := rfl
@[simp] theorem State.wr_free (s : State) (a : Nat) (v : Word) : (s.wr a v).free = s.free := rfl
@[simp] theorem State.wr_lap (s : State) (a : Nat) (v : Word) : (s.wr a v).lap = s.lap := rfl
@[simp] theorem State.wr_sett (s : State) (a : Nat) (v : Word) : (s.wr a v).sett = s.sett := rfl
@[simp] theorem State.wr_img (s : State) (a : Nat) (v : Word) : (s.wr a v).img = s.img := rfl
@[simp] theorem State.wr_nv (s : State) (a : Nat) (v : Word) : (s.wr a v).nv = s.nv := rfl
@[simp] theorem State.wr_hwp (s : State) (a : Nat) (v : Word) : (s.wr a v).hwp = s.hwp := rfl
@[simp] theorem State.wr_spr (s : State) (a : Nat) (v : Word) : (s.wr a v).spr = s.spr := rfl
@[simp] theorem State.wr_zid (s : State) (a : Nat) (v : Word) : (s.wr a v).zid = s.zid := rfl
@[simp] theorem State.wr_boot (s : State) (a : Nat) (v : Word) : (s.wr a v).boot = s.boot := rfl
@[simp] theorem State.wr_dsp (s : State) (a : Nat) (v : Word) : (s.wr a v).dsp = s.dsp := rfl
@[simp] theorem State.wr_fab (s : State) (a : Nat) (v : Word) : (s.wr a v).fab = s.fab := rfl
@[simp] theorem State.wr_key (s : State) (a : Nat) (v : Word) : (s.wr a v).key = s.key := rfl
@[simp] theorem State.wr_pair (s : State) (a : Nat) (v : Word) : (s.wr a v).pair = s.pair := rfl
@[simp] theorem State.wr_field (s : State) (a : Nat) (v : Word) : (s.wr a v).field = s.field := rfl
@[simp] theorem State.wr_loops (s : State) (a : Nat) (v : Word) : (s.wr a v).loops = s.loops := rfl
@[simp] theorem State.wr_fbp (s : State) (a : Nat) (v : Word) : (s.wr a v).fbp = s.fbp := rfl
@[simp] theorem State.wr_can (s : State) (a : Nat) (v : Word) : (s.wr a v).can = s.can := rfl
@[simp] theorem State.wr_mtr (s : State) (a : Nat) (v : Word) : (s.wr a v).mtr = s.mtr := rfl
@[simp] theorem State.wr_eth (s : State) (a : Nat) (v : Word) : (s.wr a v).eth = s.eth := rfl
@[simp] theorem State.wr_ptp (s : State) (a : Nat) (v : Word) : (s.wr a v).ptp = s.ptp := rfl
@[simp] theorem State.wr_rtc (s : State) (a : Nat) (v : Word) : (s.wr a v).rtc = s.rtc := rfl
@[simp] theorem State.wr_tscNs (s : State) (a : Nat) (v : Word) : (s.wr a v).tscNs = s.tscNs := rfl
@[simp] theorem State.wr_used (s : State) (a : Nat) (v : Word) : (s.wr a v).used = s.used := rfl

@[simp] theorem State.setFld_pending (s : State) (a lo n v : Nat) : (s.setFld a lo n v).pending = s.pending := rfl
@[simp] theorem State.setFld_answer (s : State) (a lo n v : Nat) : (s.setFld a lo n v).answer = s.answer := rfl
@[simp] theorem State.setFld_sent (s : State) (a lo n v : Nat) : (s.setFld a lo n v).sent = s.sent := rfl
@[simp] theorem State.setFld_free (s : State) (a lo n v : Nat) : (s.setFld a lo n v).free = s.free := rfl
@[simp] theorem State.setFld_lap (s : State) (a lo n v : Nat) : (s.setFld a lo n v).lap = s.lap := rfl
@[simp] theorem State.setFld_sett (s : State) (a lo n v : Nat) : (s.setFld a lo n v).sett = s.sett := rfl
@[simp] theorem State.setFld_img (s : State) (a lo n v : Nat) : (s.setFld a lo n v).img = s.img := rfl
@[simp] theorem State.setFld_nv (s : State) (a lo n v : Nat) : (s.setFld a lo n v).nv = s.nv := rfl
@[simp] theorem State.setFld_hwp (s : State) (a lo n v : Nat) : (s.setFld a lo n v).hwp = s.hwp := rfl
@[simp] theorem State.setFld_spr (s : State) (a lo n v : Nat) : (s.setFld a lo n v).spr = s.spr := rfl
@[simp] theorem State.setFld_zid (s : State) (a lo n v : Nat) : (s.setFld a lo n v).zid = s.zid := rfl
@[simp] theorem State.setFld_boot (s : State) (a lo n v : Nat) : (s.setFld a lo n v).boot = s.boot := rfl
@[simp] theorem State.setFld_dsp (s : State) (a lo n v : Nat) : (s.setFld a lo n v).dsp = s.dsp := rfl
@[simp] theorem State.setFld_fab (s : State) (a lo n v : Nat) : (s.setFld a lo n v).fab = s.fab := rfl
@[simp] theorem State.setFld_key (s : State) (a lo n v : Nat) : (s.setFld a lo n v).key = s.key := rfl
@[simp] theorem State.setFld_pair (s : State) (a lo n v : Nat) : (s.setFld a lo n v).pair = s.pair := rfl
@[simp] theorem State.setFld_field (s : State) (a lo n v : Nat) : (s.setFld a lo n v).field = s.field := rfl
@[simp] theorem State.setFld_loops (s : State) (a lo n v : Nat) : (s.setFld a lo n v).loops = s.loops := rfl
@[simp] theorem State.setFld_fbp (s : State) (a lo n v : Nat) : (s.setFld a lo n v).fbp = s.fbp := rfl
@[simp] theorem State.setFld_can (s : State) (a lo n v : Nat) : (s.setFld a lo n v).can = s.can := rfl
@[simp] theorem State.setFld_mtr (s : State) (a lo n v : Nat) : (s.setFld a lo n v).mtr = s.mtr := rfl
@[simp] theorem State.setFld_eth (s : State) (a lo n v : Nat) : (s.setFld a lo n v).eth = s.eth := rfl
@[simp] theorem State.setFld_ptp (s : State) (a lo n v : Nat) : (s.setFld a lo n v).ptp = s.ptp := rfl
@[simp] theorem State.setFld_rtc (s : State) (a lo n v : Nat) : (s.setFld a lo n v).rtc = s.rtc := rfl
@[simp] theorem State.setFld_tscNs (s : State) (a lo n v : Nat) : (s.setFld a lo n v).tscNs = s.tscNs := rfl
@[simp] theorem State.setFld_used (s : State) (a lo n v : Nat) : (s.setFld a lo n v).used = s.used := rfl

@[simp] theorem State.setBit_pending (s : State) (a i : Nat) (b : Bool) : (s.setBit a i b).pending = s.pending := rfl
@[simp] theorem State.setBit_answer (s : State) (a i : Nat) (b : Bool) : (s.setBit a i b).answer = s.answer := rfl
@[simp] theorem State.setBit_sent (s : State) (a i : Nat) (b : Bool) : (s.setBit a i b).sent = s.sent := rfl
@[simp] theorem State.setBit_free (s : State) (a i : Nat) (b : Bool) : (s.setBit a i b).free = s.free := rfl
@[simp] theorem State.setBit_lap (s : State) (a i : Nat) (b : Bool) : (s.setBit a i b).lap = s.lap := rfl
@[simp] theorem State.setBit_sett (s : State) (a i : Nat) (b : Bool) : (s.setBit a i b).sett = s.sett := rfl
@[simp] theorem State.setBit_img (s : State) (a i : Nat) (b : Bool) : (s.setBit a i b).img = s.img := rfl
@[simp] theorem State.setBit_nv (s : State) (a i : Nat) (b : Bool) : (s.setBit a i b).nv = s.nv := rfl
@[simp] theorem State.setBit_hwp (s : State) (a i : Nat) (b : Bool) : (s.setBit a i b).hwp = s.hwp := rfl
@[simp] theorem State.setBit_spr (s : State) (a i : Nat) (b : Bool) : (s.setBit a i b).spr = s.spr := rfl
@[simp] theorem State.setBit_zid (s : State) (a i : Nat) (b : Bool) : (s.setBit a i b).zid = s.zid := rfl
@[simp] theorem State.setBit_boot (s : State) (a i : Nat) (b : Bool) : (s.setBit a i b).boot = s.boot := rfl
@[simp] theorem State.setBit_dsp (s : State) (a i : Nat) (b : Bool) : (s.setBit a i b).dsp = s.dsp := rfl
@[simp] theorem State.setBit_fab (s : State) (a i : Nat) (b : Bool) : (s.setBit a i b).fab = s.fab := rfl
@[simp] theorem State.setBit_key (s : State) (a i : Nat) (b : Bool) : (s.setBit a i b).key = s.key := rfl
@[simp] theorem State.setBit_pair (s : State) (a i : Nat) (b : Bool) : (s.setBit a i b).pair = s.pair := rfl
@[simp] theorem State.setBit_field (s : State) (a i : Nat) (b : Bool) : (s.setBit a i b).field = s.field := rfl
@[simp] theorem State.setBit_loops (s : State) (a i : Nat) (b : Bool) : (s.setBit a i b).loops = s.loops := rfl
@[simp] theorem State.setBit_fbp (s : State) (a i : Nat) (b : Bool) : (s.setBit a i b).fbp = s.fbp := rfl
@[simp] theorem State.setBit_can (s : State) (a i : Nat) (b : Bool) : (s.setBit a i b).can = s.can := rfl
@[simp] theorem State.setBit_mtr (s : State) (a i : Nat) (b : Bool) : (s.setBit a i b).mtr = s.mtr := rfl
@[simp] theorem State.setBit_eth (s : State) (a i : Nat) (b : Bool) : (s.setBit a i b).eth = s.eth := rfl
@[simp] theorem State.setBit_ptp (s : State) (a i : Nat) (b : Bool) : (s.setBit a i b).ptp = s.ptp := rfl
@[simp] theorem State.setBit_rtc (s : State) (a i : Nat) (b : Bool) : (s.setBit a i b).rtc = s.rtc := rfl
@[simp] theorem State.setBit_tscNs (s : State) (a i : Nat) (b : Bool) : (s.setBit a i b).tscNs = s.tscNs := rfl
@[simp] theorem State.setBit_used (s : State) (a i : Nat) (b : Bool) : (s.setBit a i b).used = s.used := rfl

@[simp] theorem State.countN_pending (s : State) (a n : Nat) : (s.countN a n).pending = s.pending := rfl
@[simp] theorem State.countN_answer (s : State) (a n : Nat) : (s.countN a n).answer = s.answer := rfl
@[simp] theorem State.countN_sent (s : State) (a n : Nat) : (s.countN a n).sent = s.sent := rfl
@[simp] theorem State.countN_free (s : State) (a n : Nat) : (s.countN a n).free = s.free := rfl
@[simp] theorem State.countN_lap (s : State) (a n : Nat) : (s.countN a n).lap = s.lap := rfl
@[simp] theorem State.countN_sett (s : State) (a n : Nat) : (s.countN a n).sett = s.sett := rfl
@[simp] theorem State.countN_img (s : State) (a n : Nat) : (s.countN a n).img = s.img := rfl
@[simp] theorem State.countN_nv (s : State) (a n : Nat) : (s.countN a n).nv = s.nv := rfl
@[simp] theorem State.countN_hwp (s : State) (a n : Nat) : (s.countN a n).hwp = s.hwp := rfl
@[simp] theorem State.countN_spr (s : State) (a n : Nat) : (s.countN a n).spr = s.spr := rfl
@[simp] theorem State.countN_zid (s : State) (a n : Nat) : (s.countN a n).zid = s.zid := rfl
@[simp] theorem State.countN_boot (s : State) (a n : Nat) : (s.countN a n).boot = s.boot := rfl
@[simp] theorem State.countN_dsp (s : State) (a n : Nat) : (s.countN a n).dsp = s.dsp := rfl
@[simp] theorem State.countN_fab (s : State) (a n : Nat) : (s.countN a n).fab = s.fab := rfl
@[simp] theorem State.countN_key (s : State) (a n : Nat) : (s.countN a n).key = s.key := rfl
@[simp] theorem State.countN_pair (s : State) (a n : Nat) : (s.countN a n).pair = s.pair := rfl
@[simp] theorem State.countN_field (s : State) (a n : Nat) : (s.countN a n).field = s.field := rfl
@[simp] theorem State.countN_loops (s : State) (a n : Nat) : (s.countN a n).loops = s.loops := rfl
@[simp] theorem State.countN_fbp (s : State) (a n : Nat) : (s.countN a n).fbp = s.fbp := rfl
@[simp] theorem State.countN_can (s : State) (a n : Nat) : (s.countN a n).can = s.can := rfl
@[simp] theorem State.countN_mtr (s : State) (a n : Nat) : (s.countN a n).mtr = s.mtr := rfl
@[simp] theorem State.countN_eth (s : State) (a n : Nat) : (s.countN a n).eth = s.eth := rfl
@[simp] theorem State.countN_ptp (s : State) (a n : Nat) : (s.countN a n).ptp = s.ptp := rfl
@[simp] theorem State.countN_rtc (s : State) (a n : Nat) : (s.countN a n).rtc = s.rtc := rfl
@[simp] theorem State.countN_tscNs (s : State) (a n : Nat) : (s.countN a n).tscNs = s.tscNs := rfl
@[simp] theorem State.countN_used (s : State) (a n : Nat) : (s.countN a n).used = s.used := rfl

@[simp] theorem State.count_pending (s : State) (a : Nat) : (s.count a).pending = s.pending := rfl
@[simp] theorem State.count_answer (s : State) (a : Nat) : (s.count a).answer = s.answer := rfl
@[simp] theorem State.count_sent (s : State) (a : Nat) : (s.count a).sent = s.sent := rfl
@[simp] theorem State.count_free (s : State) (a : Nat) : (s.count a).free = s.free := rfl
@[simp] theorem State.count_lap (s : State) (a : Nat) : (s.count a).lap = s.lap := rfl
@[simp] theorem State.count_sett (s : State) (a : Nat) : (s.count a).sett = s.sett := rfl
@[simp] theorem State.count_img (s : State) (a : Nat) : (s.count a).img = s.img := rfl
@[simp] theorem State.count_nv (s : State) (a : Nat) : (s.count a).nv = s.nv := rfl
@[simp] theorem State.count_hwp (s : State) (a : Nat) : (s.count a).hwp = s.hwp := rfl
@[simp] theorem State.count_spr (s : State) (a : Nat) : (s.count a).spr = s.spr := rfl
@[simp] theorem State.count_zid (s : State) (a : Nat) : (s.count a).zid = s.zid := rfl
@[simp] theorem State.count_boot (s : State) (a : Nat) : (s.count a).boot = s.boot := rfl
@[simp] theorem State.count_dsp (s : State) (a : Nat) : (s.count a).dsp = s.dsp := rfl
@[simp] theorem State.count_fab (s : State) (a : Nat) : (s.count a).fab = s.fab := rfl
@[simp] theorem State.count_key (s : State) (a : Nat) : (s.count a).key = s.key := rfl
@[simp] theorem State.count_pair (s : State) (a : Nat) : (s.count a).pair = s.pair := rfl
@[simp] theorem State.count_field (s : State) (a : Nat) : (s.count a).field = s.field := rfl
@[simp] theorem State.count_loops (s : State) (a : Nat) : (s.count a).loops = s.loops := rfl
@[simp] theorem State.count_fbp (s : State) (a : Nat) : (s.count a).fbp = s.fbp := rfl
@[simp] theorem State.count_can (s : State) (a : Nat) : (s.count a).can = s.can := rfl
@[simp] theorem State.count_mtr (s : State) (a : Nat) : (s.count a).mtr = s.mtr := rfl
@[simp] theorem State.count_eth (s : State) (a : Nat) : (s.count a).eth = s.eth := rfl
@[simp] theorem State.count_ptp (s : State) (a : Nat) : (s.count a).ptp = s.ptp := rfl
@[simp] theorem State.count_rtc (s : State) (a : Nat) : (s.count a).rtc = s.rtc := rfl
@[simp] theorem State.count_tscNs (s : State) (a : Nat) : (s.count a).tscNs = s.tscNs := rfl
@[simp] theorem State.count_used (s : State) (a : Nat) : (s.count a).used = s.used := rfl

@[simp] theorem State.clearSent_pending (s : State) : (s.clearSent).pending = s.pending := rfl
@[simp] theorem State.clearSent_answer (s : State) : (s.clearSent).answer = s.answer := rfl
@[simp] theorem State.clearSent_free (s : State) : (s.clearSent).free = s.free := rfl
@[simp] theorem State.clearSent_lap (s : State) : (s.clearSent).lap = s.lap := rfl
@[simp] theorem State.clearSent_sett (s : State) : (s.clearSent).sett = s.sett := rfl
@[simp] theorem State.clearSent_img (s : State) : (s.clearSent).img = s.img := rfl
@[simp] theorem State.clearSent_nv (s : State) : (s.clearSent).nv = s.nv := rfl
@[simp] theorem State.clearSent_hwp (s : State) : (s.clearSent).hwp = s.hwp := rfl
@[simp] theorem State.clearSent_spr (s : State) : (s.clearSent).spr = s.spr := rfl
@[simp] theorem State.clearSent_zid (s : State) : (s.clearSent).zid = s.zid := rfl
@[simp] theorem State.clearSent_boot (s : State) : (s.clearSent).boot = s.boot := rfl
@[simp] theorem State.clearSent_dsp (s : State) : (s.clearSent).dsp = s.dsp := rfl
@[simp] theorem State.clearSent_fab (s : State) : (s.clearSent).fab = s.fab := rfl
@[simp] theorem State.clearSent_key (s : State) : (s.clearSent).key = s.key := rfl
@[simp] theorem State.clearSent_pair (s : State) : (s.clearSent).pair = s.pair := rfl
@[simp] theorem State.clearSent_field (s : State) : (s.clearSent).field = s.field := rfl
@[simp] theorem State.clearSent_loops (s : State) : (s.clearSent).loops = s.loops := rfl
@[simp] theorem State.clearSent_fbp (s : State) : (s.clearSent).fbp = s.fbp := rfl
@[simp] theorem State.clearSent_can (s : State) : (s.clearSent).can = s.can := rfl
@[simp] theorem State.clearSent_mtr (s : State) : (s.clearSent).mtr = s.mtr := rfl
@[simp] theorem State.clearSent_eth (s : State) : (s.clearSent).eth = s.eth := rfl
@[simp] theorem State.clearSent_ptp (s : State) : (s.clearSent).ptp = s.ptp := rfl
@[simp] theorem State.clearSent_rtc (s : State) : (s.clearSent).rtc = s.rtc := rfl
@[simp] theorem State.clearSent_tscNs (s : State) : (s.clearSent).tscNs = s.tscNs := rfl
@[simp] theorem State.clearSent_used (s : State) : (s.clearSent).used = s.used := rfl
@[simp] theorem State.clearSent_regs (s : State) : (s.clearSent).regs = s.regs := rfl

@[simp] theorem State.send_pending (s : State) (f : Frame) : (s.send f).pending = s.pending := rfl
@[simp] theorem State.send_answer (s : State) (f : Frame) : (s.send f).answer = s.answer := rfl
@[simp] theorem State.send_free (s : State) (f : Frame) : (s.send f).free = s.free := rfl
@[simp] theorem State.send_lap (s : State) (f : Frame) : (s.send f).lap = s.lap := rfl
@[simp] theorem State.send_sett (s : State) (f : Frame) : (s.send f).sett = s.sett := rfl
@[simp] theorem State.send_img (s : State) (f : Frame) : (s.send f).img = s.img := rfl
@[simp] theorem State.send_nv (s : State) (f : Frame) : (s.send f).nv = s.nv := rfl
@[simp] theorem State.send_hwp (s : State) (f : Frame) : (s.send f).hwp = s.hwp := rfl
@[simp] theorem State.send_spr (s : State) (f : Frame) : (s.send f).spr = s.spr := rfl
@[simp] theorem State.send_zid (s : State) (f : Frame) : (s.send f).zid = s.zid := rfl
@[simp] theorem State.send_boot (s : State) (f : Frame) : (s.send f).boot = s.boot := rfl
@[simp] theorem State.send_dsp (s : State) (f : Frame) : (s.send f).dsp = s.dsp := rfl
@[simp] theorem State.send_fab (s : State) (f : Frame) : (s.send f).fab = s.fab := rfl
@[simp] theorem State.send_key (s : State) (f : Frame) : (s.send f).key = s.key := rfl
@[simp] theorem State.send_pair (s : State) (f : Frame) : (s.send f).pair = s.pair := rfl
@[simp] theorem State.send_field (s : State) (f : Frame) : (s.send f).field = s.field := rfl
@[simp] theorem State.send_loops (s : State) (f : Frame) : (s.send f).loops = s.loops := rfl
@[simp] theorem State.send_fbp (s : State) (f : Frame) : (s.send f).fbp = s.fbp := rfl
@[simp] theorem State.send_can (s : State) (f : Frame) : (s.send f).can = s.can := rfl
@[simp] theorem State.send_mtr (s : State) (f : Frame) : (s.send f).mtr = s.mtr := rfl
@[simp] theorem State.send_eth (s : State) (f : Frame) : (s.send f).eth = s.eth := rfl
@[simp] theorem State.send_ptp (s : State) (f : Frame) : (s.send f).ptp = s.ptp := rfl
@[simp] theorem State.send_rtc (s : State) (f : Frame) : (s.send f).rtc = s.rtc := rfl
@[simp] theorem State.send_tscNs (s : State) (f : Frame) : (s.send f).tscNs = s.tscNs := rfl
@[simp] theorem State.send_regs (s : State) (f : Frame) : (s.send f).regs = s.regs := rfl

@[simp] theorem State.clearSent_sent (s : State) : s.clearSent.sent = [] := rfl
@[simp] theorem State.send_sent (s : State) (f : Frame) : (s.send f).sent = s.sent ++ [f] := rfl
@[simp] theorem State.nextFree_pending (s : State) : s.nextFree.pending = s.pending := rfl
@[simp] theorem State.nextFree_answer (s : State) : s.nextFree.answer = s.answer := rfl
@[simp] theorem State.nextFree_sent (s : State) : s.nextFree.sent = s.sent := rfl
@[simp] theorem State.nextFree_lap (s : State) : s.nextFree.lap = s.lap := rfl
@[simp] theorem State.nextFree_sett (s : State) : s.nextFree.sett = s.sett := rfl
@[simp] theorem State.nextFree_img (s : State) : s.nextFree.img = s.img := rfl
@[simp] theorem State.nextFree_nv (s : State) : s.nextFree.nv = s.nv := rfl
@[simp] theorem State.nextFree_hwp (s : State) : s.nextFree.hwp = s.hwp := rfl
@[simp] theorem State.nextFree_spr (s : State) : s.nextFree.spr = s.spr := rfl
@[simp] theorem State.nextFree_zid (s : State) : s.nextFree.zid = s.zid := rfl
@[simp] theorem State.nextFree_boot (s : State) : s.nextFree.boot = s.boot := rfl
@[simp] theorem State.nextFree_dsp (s : State) : s.nextFree.dsp = s.dsp := rfl
@[simp] theorem State.nextFree_fab (s : State) : s.nextFree.fab = s.fab := rfl
@[simp] theorem State.nextFree_key (s : State) : s.nextFree.key = s.key := rfl
@[simp] theorem State.nextFree_pair (s : State) : s.nextFree.pair = s.pair := rfl
@[simp] theorem State.nextFree_field (s : State) : s.nextFree.field = s.field := rfl
@[simp] theorem State.nextFree_loops (s : State) : s.nextFree.loops = s.loops := rfl
@[simp] theorem State.nextFree_fbp (s : State) : s.nextFree.fbp = s.fbp := rfl
@[simp] theorem State.nextFree_can (s : State) : s.nextFree.can = s.can := rfl
@[simp] theorem State.nextFree_mtr (s : State) : s.nextFree.mtr = s.mtr := rfl
@[simp] theorem State.nextFree_eth (s : State) : s.nextFree.eth = s.eth := rfl
@[simp] theorem State.nextFree_ptp (s : State) : s.nextFree.ptp = s.ptp := rfl
@[simp] theorem State.nextFree_rtc (s : State) : s.nextFree.rtc = s.rtc := rfl
@[simp] theorem State.nextFree_tscNs (s : State) : s.nextFree.tscNs = s.tscNs := rfl
@[simp] theorem State.nextFree_used (s : State) : s.nextFree.used = s.used := rfl
@[simp] theorem State.nextFree_regs (s : State) : s.nextFree.regs = s.regs := rfl
@[simp] theorem State.nextFree_free (s : State) : s.nextFree.free = s.free + 1 := rfl

@[simp] theorem State.onlyIf_true (s : State) (f : State → State) : s.onlyIf true f = f s := rfl
@[simp] theorem State.onlyIf_false (s : State) (f : State → State) : s.onlyIf false f = s := rfl

/-- While the module is supplied a command acts on the state whose sent frames are forgotten. -/
theorem State.act_supplied {s : State} {f : State → State} (h : s.boot.phase ≠ .off) : s.act f = .next (f s.clearSent) := by
  unfold State.act
  rw [if_neg h]

/-- While the module is off a command has no effect. -/
theorem State.act_off {s : State} {f : State → State} (h : s.boot.phase = .off) : s.act f = .next s := by
  unfold State.act
  rw [if_pos h]

end Sys2Proof.Machine
end

