-- ==== Sys2Proof/Laws/Regs.lean ====
section
/-!
SUPPORT. Laws/Regs.lean: what a register, a field and a bit read as after a write, and which registers the shared
operations leave alone: counters, the FAULT_N trigger (R485), interrupt bits (R479) and injection bits (R483).
-/

namespace Sys2Proof.Machine

/-! ## Fields of a word -/

theorem bitOf_putBits (w : Word) (lo n v i : Nat) (hi : i < 32) :
    bitOf (putBits w lo n v) i = if lo ≤ i ∧ i < lo + n then v.testBit (i - lo) else bitOf w i := by
  unfold bitOf putBits maskOf
  simp only [BitVec.getLsbD_or, BitVec.getLsbD_and, BitVec.getLsbD_not, BitVec.getLsbD_ofNat, hi, decide_true, Bool.true_and,
    Nat.testBit_shiftLeft, Nat.testBit_two_pow_sub_one, Nat.testBit_mod_two_pow]
  by_cases h : lo ≤ i ∧ i < lo + n
  · have h1 : i - lo < n := by omega
    simp [h, h1]
  · by_cases h2 : lo ≤ i
    · have h1 : ¬ (i - lo < n) := by omega
      simp [h2, h1]; omega
    · simp [h2]

theorem bitsOf_testBit (w : Word) (lo n i : Nat) : (bitsOf w lo n).testBit i = (decide (i < n) && bitOf w (lo + i)) := by
  unfold bitsOf bitOf
  rw [Nat.testBit_mod_two_pow, Nat.testBit_shiftRight]
  rfl

/-- The field written reads as the low bits of what was written. -/
theorem bitsOf_putBits_same (w : Word) (lo n v : Nat) (h : lo + n ≤ 32) : bitsOf (putBits w lo n v) lo n = v % 2 ^ n := by
  apply Nat.eq_of_testBit_eq
  intro i
  rw [bitsOf_testBit, Nat.testBit_mod_two_pow]
  by_cases hi : i < n
  · rw [bitOf_putBits _ _ _ _ _ (by omega)]
    simp [hi]
  · simp [hi]

/-- A field apart from the one written stays. -/
theorem bitsOf_putBits_apart (w : Word) (lo n v lo' n' : Nat) (h : lo' + n' ≤ 32) (ha : lo' + n' ≤ lo ∨ lo + n ≤ lo') :
    bitsOf (putBits w lo n v) lo' n' = bitsOf w lo' n' := by
  apply Nat.eq_of_testBit_eq
  intro i
  rw [bitsOf_testBit, bitsOf_testBit]
  by_cases hi : i < n'
  · rw [bitOf_putBits _ _ _ _ _ (by omega), if_neg (by omega)]
  · simp [hi]

theorem bitOf_putBit_same (w : Word) (i : Nat) (b : Bool) (hi : i < 32) : bitOf (putBit w i b) i = b := by
  unfold putBit
  rw [bitOf_putBits _ _ _ _ _ hi, if_pos (by omega)]
  cases b <;> simp

theorem bitOf_putBit_apart (w : Word) (i j : Nat) (b : Bool) (hj : j < 32) (h : j ≠ i) : bitOf (putBit w i b) j = bitOf w j := by
  unfold putBit
  rw [bitOf_putBits _ _ _ _ _ hj, if_neg (by omega)]

/-! ## Registers -/

/-- A register reads as what was written to it, and every other as before. -/
@[simp] theorem State.rd_wr (s : State) (a b : Nat) (v : Word) : (s.wr a v).rd b = if b = a then v else s.rd b :=
  tabGet_tabSet _ _ _ _ _

@[simp] theorem State.rd_setFld (s : State) (a lo n v b : Nat) :
    (s.setFld a lo n v).rd b = if b = a then putBits (s.rd a) lo n v else s.rd b := State.rd_wr s a b _

@[simp] theorem State.rd_setBit (s : State) (a i b : Nat) (x : Bool) :
    (s.setBit a i x).rd b = if b = a then putBit (s.rd a) i x else s.rd b := State.rd_wr s a b _

@[simp] theorem State.rd_countN (s : State) (a n b : Nat) :
    (s.countN a n).rd b = if b = a then satWordN ((s.rd a).toNat + n) else s.rd b := State.rd_wr s a b _

@[simp] theorem State.rd_count (s : State) (a b : Nat) :
    (s.count a).rd b = if b = a then satWordN ((s.rd a).toNat + 1) else s.rd b := State.rd_wr s a b _

@[simp] theorem State.rd_clearSent (s : State) (b : Nat) : s.clearSent.rd b = s.rd b := rfl
@[simp] theorem State.rd_send (s : State) (f : Frame) (b : Nat) : (s.send f).rd b = s.rd b := rfl
@[simp] theorem State.rd_nextFree (s : State) (b : Nat) : s.nextFree.rd b = s.rd b := rfl

/-- A state whose registers are those of another reads alike. -/
theorem State.rd_congr {s t : State} (h : t.regs = s.regs) (b : Nat) : t.rd b = s.rd b := by
  unfold State.rd
  rw [h]

@[simp] theorem State.bit_eq (s : State) (a i : Nat) : s.bit a i = bitOf (s.rd a) i := rfl
@[simp] theorem State.fld_eq (s : State) (a lo n : Nat) : s.fld a lo n = bitsOf (s.rd a) lo n := rfl
@[simp] theorem State.nat_eq (s : State) (a : Nat) : s.nat a = (s.rd a).toNat := rfl

/-! ## The shared operations -/

theorem State.rd_onlyIf (s : State) (c : Bool) (f : State → State) (b : Nat) :
    (s.onlyIf c f).rd b = if c then (f s).rd b else s.rd b := by
  cases c <;> rfl

theorem State.trigger_rd (s : State) (src i : Nat) (x : Bool) (b : Nat) (hb : b ∉ pinRegs) : (s.trigger src i x).rd b = s.rd b := by
  simp only [pinRegs, List.mem_cons, List.not_mem_nil, or_false, not_or] at hb
  obtain ⟨h1, h2, h3, h4, h5, h6⟩ := hb
  unfold State.trigger
  lift_lets
  extract_lets rec_ s1 s2 s3 s4
  change s4.rd b = s.rd b
  simp only [s4, s3, s2, s1, State.rd_onlyIf, State.rd_setBit, State.rd_count, State.rd_wr, if_neg h1, if_neg h2, if_neg h3, if_neg h4,
    if_neg h5, if_neg h6, ite_self]

/-- An event sets its interrupt bit; a trigger of FAULT_N apart, every other register stays. -/
theorem State.irqAt_rd (s : State) (r e src i b : Nat) (hb : b ∉ pinRegs) :
    (s.irqAt r e src i).rd b = if b = r then putBit (s.rd r) i true else s.rd b := by
  unfold State.irqAt
  simp only [State.rd_onlyIf]
  split
  · rw [State.trigger_rd _ _ _ _ _ hb, State.rd_setBit]
  · rw [State.rd_setBit]

theorem State.injRan_rd (s : State) (r i b : Nat) (h1 : b ≠ r) (h2 : b ≠ Reg.ZID_CNT_INJ) : (s.injRan r i).rd b = s.rd b := by
  unfold State.injRan
  split <;> simp [h1, h2]

end Sys2Proof.Machine
end

