-- ==== Sys2Proof/Laws/Spoor.lean ====
section
/-!
SUPPORT. Laws/Spoor.lean: an event handed to the spoor changes only the spoor's own registers, and those of a FAULT_N
trigger.
-/

namespace Sys2Proof.Machine

theorem not_pin_of_spoor {b : Nat} (h : b ∉ spoorRegs) : b ∉ pinRegs := fun g => h (List.mem_append_left _ g)

theorem State.appendRec_rd (s : State) (code sev : Nat) (data : List Byte) (w : Word) (b : Nat) (hb : b ∉ spoorRegs) :
    (s.appendRec code sev data w).rd b = s.rd b := by
  have hp := not_pin_of_spoor hb
  simp only [spoorRegs, List.mem_append, List.mem_cons, List.not_mem_nil, or_false, not_or] at hb
  obtain ⟨-, h1, h2, h3, h4, h5, h6, h7, h8, h9⟩ := hb
  unfold State.appendRec
  lift_lets
  extract_lets seq r s1
  rw [State.rd_onlyIf, State.irqSpr, State.irqAt_rd _ _ _ _ _ _ hp, if_neg h4, ite_self, State.rd_count, if_neg h6]
  rfl

theorem State.rd_forEach {α : Type} (l : List α) (f : State → α → State) (b : Nat) (hf : ∀ s x, (f s x).rd b = s.rd b) (s : State) :
    (s.forEach l f).rd b = s.rd b := by
  unfold State.forEach
  induction l generalizing s with
  | nil => rfl
  | cons x t ih => exact (ih (f s x)).trans (hf s x)

theorem State.takeEvent_rd (s : State) (code sev : Nat) (data : List Byte) (w : Word) (b : Nat) (hb : b ∉ spoorRegs) :
    (s.takeEvent code sev data w).rd b = s.rd b := by
  have hb' := hb
  simp only [spoorRegs, List.mem_append, List.mem_cons, List.not_mem_nil, or_false, not_or] at hb'
  obtain ⟨-, h1, h2, h3, h4, h5, h6, h7, h8, h9⟩ := hb'
  unfold State.takeEvent
  split
  · unfold State.mergeRec
    split
    · rfl
    · lift_lets
      extract_lets
      rw [State.rd_count, if_neg h8, State.rd_setFld, if_neg h7]
      rfl
  · split
    · rw [State.rd_setBit, if_neg h3, State.rd_count, if_neg h9]
      unfold State.rateSuppressed State.putRateWin
      split <;> rfl
    · rw [State.appendRec_rd _ _ _ _ _ _ hb]
      refine State.rd_forEach _ _ _ (fun s x => ?_) s
      unfold State.rateAppended State.putRateWin
      split <;> rfl

/-- An event handed to the spoor leaves every other register alone. -/
theorem State.raiseEv_rd (s : State) (code sev : Nat) (data : List Byte) (b : Nat) (hb : b ∉ spoorRegs) :
    (s.raiseEv code sev data).rd b = s.rd b := by
  have hb' := hb
  have hp := not_pin_of_spoor hb
  simp only [spoorRegs, List.mem_append, List.mem_cons, List.not_mem_nil, or_false, not_or] at hb'
  obtain ⟨-, h1, h2, h3, h4, h5, h6, h7, h8, h9⟩ := hb'
  have hi : (s.injRan Reg.SPR_INJ 1).rd b = s.rd b := State.injRan_rd s _ _ _ h5 h1
  unfold State.raiseEv
  split
  · rfl
  · lift_lets
    extract_lets
    split
    · have h : ∀ u : State, u.rd b = s.rd b →
          (((u.count Reg.SPR_CNT_QOVR).setBit Reg.SPR_STAT 2 true).irqSpr 2).rd b = s.rd b := fun u hu => by
        rw [State.irqSpr, State.irqAt_rd _ _ _ _ _ _ hp, if_neg h4, State.rd_setBit, if_neg h3, State.rd_count, if_neg h2]
        exact hu
      unfold State.appendQovr
      split
      · rw [State.appendRec_rd _ _ _ _ _ _ hb]; exact h _ hi
      · exact h _ hi
    · split
      · rw [State.takeEvent_rd _ _ _ _ _ _ hb]; exact hi
      · exact hi

end Sys2Proof.Machine
end

