-- ==== Sys2Proof/Laws/Host.lean ====
section
/-!
SUPPORT. Laws/Host.lean: what a host window request of one word does, accepted or refused (R374 to R376, R380): the answer
and the registers that the protocol itself changes; everything else is the word's own effect.
-/

namespace Sys2Proof.Machine

theorem State.resend_rd (s : State) (p : Nat) (ip : Word) (udp : Nat) (l : List Byte) (b : Nat) (h1 : b ≠ Reg.HWP_CNT_RESEND)
    (h2 : b ≠ Reg.HWP_STAT) : (s.resend p ip udp l).rd b = s.rd b := by
  unfold State.resend State.sendResponse
  rw [State.rd_setBit, if_neg h2, State.rd_count, if_neg h1]
  rfl

theorem State.answerOp_rd (s : State) (src : Src) (op : Nat) (x : Answer) (b : Nat) (h1 : b ≠ Reg.HWP_CNT_RESEND)
    (h2 : b ≠ Reg.HWP_STAT) : (s.answerOp src op x).rd b = s.rd b := by
  unfold State.answerOp
  lift_lets
  extract_lets s1
  split
  · rfl
  · unfold State.storeResponse
    exact State.rd_forEach _ _ _ (fun s x => State.resend_rd s _ _ _ _ _ h1 h2) _

theorem State.wsServed_rd (s : State) (formed : Option Word) (b : Nat) (h1 : b ≠ Reg.SETT_WS_TARGET_LO) (h2 : b ≠ Reg.SETT_INJ) (h3 : b ≠ Reg.ZID_CNT_INJ) :
    (s.wsServed formed).rd b = s.rd b := by
  unfold State.wsServed
  split
  · split
    · unfold State.wsSeal
      split
      · split
        · rfl
        · lift_lets
          extract_lets
          rw [State.injRan_rd _ _ _ _ h2 h3, State.rd_wr, if_neg h1]
          rfl
      · rfl
    · rfl
  · rfl

theorem State.storeResponse_answer (s : State) (r : HwpReq) (x : Answer) : (s.storeResponse r x).answer = s.answer := by
  unfold State.storeResponse State.forEach
  lift_lets
  extract_lets
  rename_i l _
  have key : ∀ (l : List (Nat × Nat × Word × Nat)) (u : State) (y : List Byte),
      (l.foldl (fun t h => t.resend h.2.1 h.2.2.1 h.2.2.2 y) u).answer = u.answer := by
    intro l
    induction l with
    | nil => exact fun _ _ => rfl
    | cons x t ih => exact fun u y => (ih _ y).trans rfl
  exact (key _ _ _).trans rfl

@[simp] theorem State.answerOp_answer (s : State) (src : Src) (op : Nat) (x : Answer) : (s.answerOp src op x).answer = x := by
  unfold State.answerOp
  lift_lets
  extract_lets s1
  split
  · rfl
  · rw [State.storeResponse_answer]

@[simp] theorem State.opOk_answer (s : State) (src : Src) (op : Nat) (info : Word) (data : List Word) (e : Nat) :
    (s.opOk src op info data e).answer = ⟨.ok, info, data, e⟩ := State.answerOp_answer _ _ _ _

theorem State.opOk_rd (s : State) (src : Src) (op : Nat) (info : Word) (data : List Word) (e b : Nat) (h : b ∉ hostRegs) :
    (s.opOk src op info data e).rd b = s.rd b := by
  simp only [hostRegs, List.mem_cons, List.not_mem_nil, or_false, not_or] at h
  unfold State.opOk
  rw [State.answerOp_rd _ _ _ _ _ h.2.1 h.2.2.1, State.rd_count, if_neg h.1]

theorem sameWindow_self (a : Nat) : sameWindow a a = true := by
  unfold sameWindow
  by_cases h1 : inNvWindow a <;> by_cases h2 : inSettWindow a <;> simp [h1, h2]

/-- A request that formed no write set seals none. -/
@[simp] theorem State.wsServed_none (s : State) : s.wsServed none = s := by
  unfold State.wsServed
  split
  · rw [if_neg (by simp)]
  · rfl

/-- A request of one word that no write set applies forms none (R85). -/
theorem State.wsForm_plain (s : State) (slot a : Nat) (v : Word) (hr : hasAcc .rws a = false) : s.wsForm slot [(a, v)] = (s, none) := by
  simp [State.wsForm, hr]

/-- The state that an accepted request of one word leaves: the word's own effect, then the answer. -/
theorem State.write1_ok (s : State) (src : Src) (a : Nat) (v : Word) (ha : isUserWord (a, v) = false) (hr : hasAcc .rws a = false)
    (h : s.wordDeny src.slot.val a v = none) :
    s.write1 src a v =
      State.opOk { s.wordWrite src.slot.val [] (a, v) with
          nv := { (s.wordWrite src.slot.val [] (a, v)).nv with jobs := s.nv.jobs } } src 2 0xFFFFFFFF#32 [] (s.upEpoch src 2) := by
  have h0 : s.scanWords src.slot.val [(a, v)] 0 = none := by
    simp only [State.scanWords, h]
  have hw : inFirstWindow [(a, v)] = [(a, v)] := by
    simp only [inFirstWindow, List.takeWhile, sameWindow_self]
  simp only [State.write1, State.opWords, hw, h0, Bool.false_eq_true, if_false, List.length_singleton, List.getElem?_cons_succ,
    List.getElem?_nil, State.wsForm_plain s _ a v hr, writeOp]
  simp only [State.wordsRun, List.length_singleton, List.take_one, List.head?_cons, Option.toList_some, List.takeWhile, ha, Bool.not_false,
    List.append_nil, Option.isSome_none, State.onlyIf_false, List.drop_one, List.tail_cons, State.wordsEnd, State.wsServed_none,
    List.isEmpty_nil, Bool.or_true, if_true, decide_true, Bool.true_or, writeOp, Bool.false_eq_true, if_false]
  rfl

/-- The same for the registers that the request's end leaves alone: they read as the word's own effect leaves them. -/
theorem State.write1_rd (s : State) (src : Src) (a : Nat) (v : Word) (ha : isUserWord (a, v) = false)
    (hr : hasAcc .rws a = false) (h : s.wordDeny src.slot.val a v = none) (b : Nat) (hb : b ∉ hostRegs) :
    (s.write1 src a v).rd b = (s.wordWrite src.slot.val [] (a, v)).rd b := by
  rw [State.write1_ok s src a v ha hr h, State.opOk_rd _ _ _ _ _ _ _ hb]
  rfl

/-- An accepted request is answered OK with INFO 0xFFFF_FFFF and no data. -/
theorem State.write1_answer (s : State) (src : Src) (a : Nat) (v : Word) (ha : isUserWord (a, v) = false)
    (hr : hasAcc .rws a = false) (h : s.wordDeny src.slot.val a v = none) :
    (s.write1 src a v).answer.status = .ok ∧ (s.write1 src a v).answer.info = 0xFFFFFFFF#32 ∧ (s.write1 src a v).answer.data = [] := by
  rw [State.write1_ok s src a v ha hr h, State.opOk_answer]
  exact ⟨rfl, rfl, rfl⟩

/-- A refused request of one word: what the refusal leaves. -/
theorem State.write1_refused (s : State) (src : Src) (a : Nat) (v : Word) (d : Denial) (h : s.wordDeny src.slot.val a v = some d) :
    s.write1 src a v = (s.wordRefused src.slot.val a v d).opRefused src 2 d.1 0#32 := by
  have h0 : s.scanWords src.slot.val [(a, v)] 0 = some (0, a, v, d) := by
    simp only [State.scanWords, h]
  have hw : inFirstWindow [(a, v)] = [(a, v)] := by
    simp only [inFirstWindow, List.takeWhile, sameWindow_self]
  simp only [State.write1, State.opWords, hw, h0, Bool.false_eq_true, if_false]
  rfl

@[simp] theorem State.opRefused_answer (s : State) (src : Src) (op : Nat) (st : Status) (info : Word) :
    (s.opRefused src op st info).answer = ⟨st, info, [], s.upEpoch src op⟩ := State.answerOp_answer _ _ _ _

end Sys2Proof.Machine
end

