-- ==== Sys2Proof/Laws/KeepsPowerOps.lean ====
section
/-!
SUPPORT. Laws/KeepsPowerOps.lean: what the operations of Machine/PowerOps.lean keep (`Keeps`).
-/

namespace Sys2Proof.Machine

theorem tabWf_mixBytes (d : Byte) (old new : Tab 8) (base n : Nat) (mask : List Bool) (h : tabWf d old = true) :
    tabWf d (mixBytes d old new base n mask) = true := by
  unfold mixBytes
  generalize List.range n = l
  induction l generalizing old with
  | nil => exact h
  | cons x xs ih =>
    refine ih _ ?_
    by_cases hm : mask.getD x false
    · simp only [hm, if_true]; exact tabWf_tabSet d _ _ _ h
    · simp only [hm]; exact h

theorem State.tornUser_keeps {k : Nat} {r s : State} {mask : List Bool} (hk : k &&& 8224 = 8224)
    (h : Keeps k r s) : Keeps k r ((s.tornUser mask)) := by
  unfold State.tornUser
  dsimp only
  repeat' first
    | with_reducible assumption
    | exact fun _ g => by dsimp only [NvState.wf]; exact ⟨g.nv.1, g.nv.2.1, tabWf_mixBytes _ _ _ _ _ _ g.nv.2.2.1, g.nv.2.2.2⟩
    | with_reducible refine State.putUserWord_keeps (keeps_sub hk rfl) ?_
    | with_reducible refine Keeps.each ?_ ?_
    | exact fun _ g => by dsimp only [NvState.wf]; exact g.nv
    | exact fun g _ => by dsimp only [NvState.wf]; exact (h.inv g).nv
    | exact fun _ g => by dsimp only [NvState.wf]; split <;> exact g.nv
    | split
    | intro _
    | with_reducible refine Keeps.set_nv (keeps_sub hk rfl) ?_ ?_

theorem State.tornStore_keeps {k : Nat} {r s : State} {mask : List Bool} (hk : k &&& 32 = 32)
    (h : Keeps k r s) : Keeps k r ((s.tornStore mask)) := by
  unfold State.tornStore
  repeat' first
    | with_reducible assumption
    | exact fun _ g => by dsimp only [NvState.wf]; exact ⟨tabWf_mixBytes _ _ _ _ _ _ g.nv.1, g.nv.2⟩
    | exact fun _ g => by dsimp only [NvState.wf]; exact g.nv
    | exact fun g _ => by dsimp only [NvState.wf]; exact (h.inv g).nv
    | exact fun _ g => by dsimp only [NvState.wf]; split <;> exact g.nv
    | split
    | intro _
    | with_reducible refine Keeps.set_nv (keeps_sub hk rfl) ?_ ?_

theorem State.tornHeader_keeps {k : Nat} {r s : State} (hk : k &&& 32 = 32)
    (h : Keeps k r s) : Keeps k r (s.tornHeader) := by
  unfold State.tornHeader
  dsimp only
  repeat' first
    | with_reducible assumption
    | exact fun _ g => by dsimp only [NvState.wf]; exact g.nv
    | exact fun g _ => by dsimp only [NvState.wf]; exact (h.inv g).nv
    | exact fun _ g => by dsimp only [NvState.wf]; split <;> exact g.nv
    | with_reducible refine Keeps.cond ?_ ?_
    | split
    | intro _
    | with_reducible refine Keeps.set_nv (keeps_sub hk rfl) ?_ ?_

theorem State.tornSpoor_keeps {k : Nat} {r s : State} {mask : List Bool} (hk : k &&& 8389024 = 8389024)
    (h : Keeps k r s) : Keeps k r ((s.tornSpoor mask)) := by
  unfold State.tornSpoor
  dsimp only
  repeat' first
    | with_reducible assumption
    | exact fun _ g => by dsimp only [NvState.wf]; exact ⟨g.nv.1, g.nv.2.1, g.nv.2.2.1, tabWf_mixBytes _ _ _ _ _ _ g.nv.2.2.2⟩
    | with_reducible refine State.programQueue_keeps (keeps_sub hk rfl) ?_
    | exact fun _ g => by dsimp only [NvState.wf]; exact g.nv
    | exact fun g _ => by dsimp only [NvState.wf]; exact (h.inv g).nv
    | exact fun _ g => by dsimp only [NvState.wf]; split <;> exact g.nv
    | split
    | intro _
    | with_reducible refine Keeps.set_nv (keeps_sub hk rfl) ?_ ?_

theorem State.tornKey_keeps {k : Nat} {r s : State} (hk : k &&& 4096 = 4096)
    (h : Keeps k r s) : Keeps k r (s.tornKey) := by
  unfold State.tornKey
  dsimp only
  repeat' first
    | with_reducible assumption
    | with_reducible refine State.putKeySlot_keeps (keeps_sub hk rfl) ?_
    | with_reducible refine Keeps.cond ?_ ?_
    | split
    | intro _

theorem State.tornCell_keeps {k : Nat} {r s : State} {t : Nat} (hk : k &&& 32 = 32)
    (h : Keeps k r s) : Keeps k r ((s.tornCell t)) := by
  unfold State.tornCell
  dsimp only
  repeat' first
    | with_reducible assumption
    | with_reducible refine State.putTally_keeps (keeps_sub hk rfl) ?_
    | with_reducible refine Keeps.cond ?_ ?_
    | split
    | intro _

theorem State.tornFold_keeps {k : Nat} {r s : State} {t : Nat} (hk : k &&& 8388896 = 8388896)
    (h : Keeps k r s) : Keeps k r ((s.tornFold t)) := by
  unfold State.tornFold
  dsimp only
  repeat' first
    | with_reducible assumption
    | with_reducible refine State.putTally_keeps (keeps_sub hk rfl) ?_
    | with_reducible refine State.writeTallyCell_keeps (keeps_sub hk rfl) ?_
    | with_reducible refine Keeps.cond ?_ ?_
    | split
    | intro _

theorem State.tornLedger_keeps {k : Nat} {r s : State} (hk : k &&& 512 = 512)
    (h : Keeps k r s) : Keeps k r (s.tornLedger) := by
  unfold State.tornLedger
  dsimp only
  repeat' first
    | with_reducible assumption
    | with_reducible refine Keeps.cond ?_ ?_
    | split
    | intro _
    | with_reducible refine Keeps.set_boot (keeps_sub hk rfl) ?_

theorem State.tornMap_keeps {k : Nat} {r s : State} (hk : k &&& 2048 = 2048)
    (h : Keeps k r s) : Keeps k r (s.tornMap) := by
  unfold State.tornMap
  repeat' first
    | with_reducible assumption
    | exact RepairMap.torn_wf _
    | with_reducible refine State.putMap_keeps (keeps_sub hk rfl) ?_ ?_
    | with_reducible refine Keeps.cond ?_ ?_
    | split
    | intro _

theorem State.tornMeter_keeps {k : Nat} {r s : State} (hk : k &&& 262144 = 262144)
    (h : Keeps k r s) : Keeps k r (s.tornMeter) := by
  unfold State.tornMeter
  repeat' first
    | with_reducible assumption
    | with_reducible refine Keeps.cond ?_ ?_
    | split
    | intro _
    | with_reducible refine Keeps.set_mtr (keeps_sub hk rfl) ?_

theorem State.tear_keeps {k : Nat} {r s : State} {x0 : Torn} (hk : k &&& 8666016 = 8666016)
    (h : Keeps k r s) : Keeps k r ((s.tear x0)) := by
  unfold State.tear
  repeat' first
    | with_reducible assumption
    | with_reducible refine State.keyCopy_keeps (keeps_sub hk rfl) ?_
    | with_reducible refine State.tornCell_keeps (keeps_sub hk rfl) ?_
    | with_reducible refine State.tornFold_keeps (keeps_sub hk rfl) ?_
    | with_reducible refine State.tornHeader_keeps (keeps_sub hk rfl) ?_
    | with_reducible refine State.tornKey_keeps (keeps_sub hk rfl) ?_
    | with_reducible refine State.tornLedger_keeps (keeps_sub hk rfl) ?_
    | with_reducible refine State.tornMap_keeps (keeps_sub hk rfl) ?_
    | with_reducible refine State.tornMeter_keeps (keeps_sub hk rfl) ?_
    | with_reducible refine State.tornSpoor_keeps (keeps_sub hk rfl) ?_
    | with_reducible refine State.tornStore_keeps (keeps_sub hk rfl) ?_
    | with_reducible refine State.tornUser_keeps (keeps_sub hk rfl) ?_
    | split
    | intro _

theorem State.lossOfPower_keeps {k : Nat} {r s : State} {t : Torn} (hk : k &&& 8666016 = 8666016)
    (h : Keeps k r s) : Keeps k r ((s.lossOfPower t)) := by
  unfold State.lossOfPower
  dsimp only
  repeat' first
    | with_reducible assumption
    | with_reducible refine State.gating_keeps (keeps_sub hk rfl) ?_ ?_
    | with_reducible refine State.tear_keeps (keeps_sub hk rfl) ?_
    | intro _
    | with_reducible refine Keeps.set_boot (keeps_sub hk rfl) ?_

theorem State.idle_keeps {k : Nat} {r s : State} (hk : k &&& 8470534 = 8470534)
    (h : Keeps k r s) : Keeps k r (s.idle) := by
  unfold State.idle
  dsimp only
  repeat' first
    | with_reducible assumption
    | exact fun _ _ => Nat.min_le_left _ _
    | with_reducible refine State.clearSent_keeps (keeps_sub hk rfl) ?_
    | with_reducible refine State.doTick_keeps (keeps_sub hk rfl) ?_
    | with_reducible refine State.fbpTick_keeps (keeps_sub hk rfl) ?_
    | with_reducible refine Keeps.only ?_ ?_
    | exact fun _ g => by dsimp only; with_reducible exact g.tick
    | exact fun g _ => by dsimp only; with_reducible exact (h.inv g).tick
    | exact fun _ g => by dsimp only; split <;> with_reducible exact g.tick
    | with_reducible refine Keeps.cond ?_ ?_
    | split
    | intro _
    | with_reducible refine Keeps.set_lap (keeps_sub hk rfl) ?_ ?_

end Sys2Proof.Machine
end

