-- ==== Sys2Proof/Laws/KeepsBootCmds.lean ====
section
/-!
SUPPORT. Laws/KeepsBootCmds.lean: what the meanings of Machine/BootCmds.lean keep (`Keeps`).
-/

namespace Sys2Proof.Machine

theorem execPowerUp_keeps {k : Nat} {s t : State} {vbulk : BitVec 16} {sub : BitVec 15} (hk : k &&& 16777215 = 16777215)
    (h : execPowerUp vbulk sub s = .next t) : Keeps k s t := by
  injection h with e
  rw [← e]
  repeat' first
    | with_reducible exact Keeps.refl _
    | with_reducible refine State.clearSent_keeps (keeps_sub hk rfl) ?_
    | with_reducible assumption
    | with_reducible refine State.clearSent_keeps (keeps_sub hk rfl) ?_
    | with_reducible refine State.powerUp_keeps (keeps_sub hk rfl) ?_
    | intro _

theorem execHurdleEnd_keeps {k : Nat} {s t : State} {report : HurdleReport} (hk : k &&& 11927486 = 11927486)
    (h : execHurdleEnd report s = .next t) : Keeps k s t := by
  refine act_keeps (keeps_sub hk rfl) (fun u hu => ?_) h
  repeat' first
    | with_reducible assumption
    | with_reducible refine State.hurdleEnd_keeps (keeps_sub hk rfl) ?_
    | intro _

theorem execHurdleTimeout_keeps {k : Nat} {s t : State} {detail : BitVec 8} (hk : k &&& 11927486 = 11927486)
    (h : execHurdleTimeout detail s = .next t) : Keeps k s t := by
  refine act_keeps (keeps_sub hk rfl) (fun u hu => ?_) h
  repeat' first
    | with_reducible assumption
    | with_reducible refine State.hurdleTimeout_keeps (keeps_sub hk rfl) ?_
    | intro _

theorem execSelfReset_keeps {k : Nat} {s t : State} (hk : k &&& 16777215 = 16777215)
    (h : execSelfReset s = .next t) : Keeps k s t := by
  refine act_keeps (keeps_sub hk rfl) (fun u hu => ?_) h
  repeat' first
    | with_reducible assumption
    | with_reducible refine State.selfReset_keeps (keeps_sub hk rfl) ?_
    | intro _

theorem execWayclr_keeps {k : Nat} {s t : State} {src : Src} {hurdles : BitVec 16} (hk : k &&& 16777215 = 16777215)
    (h : execWayclr src hurdles s = .next t) : Keeps k s t := by
  refine act_keeps (keeps_sub hk rfl) (fun u hu => ?_) h
  repeat' first
    | with_reducible assumption
    | with_reducible refine State.write1_keeps (keeps_sub hk rfl) ?_
    | intro _

theorem execBootRestart_keeps {k : Nat} {s t : State} {src : Src} (hk : k &&& 16777215 = 16777215)
    (h : execBootRestart src s = .next t) : Keeps k s t := by
  refine act_keeps (keeps_sub hk rfl) (fun u hu => ?_) h
  repeat' first
    | with_reducible assumption
    | with_reducible refine State.write1_keeps (keeps_sub hk rfl) ?_
    | intro _

theorem execImgBootWrite_keeps {k : Nat} {s t : State} {src : Src} {slotB : Bool} (hk : k &&& 16777215 = 16777215)
    (h : execImgBootWrite src slotB s = .next t) : Keeps k s t := by
  refine act_keeps (keeps_sub hk rfl) (fun u hu => ?_) h
  repeat' first
    | with_reducible assumption
    | with_reducible refine State.write1_keeps (keeps_sub hk rfl) ?_
    | intro _

theorem execPowerFail_keeps {k : Nat} {s t : State} {below : Bool} {vbulk : BitVec 16} {laps : List FeederLap} {ns : BitVec 25} (hk : k &&& 8476590 = 8476590)
    (h : execPowerFail below vbulk laps ns s = .next t) : Keeps k s t := by
  refine act_keeps (keeps_sub hk rfl) (fun u hu => ?_) h
  repeat' first
    | with_reducible assumption
    | with_reducible refine State.powerFail_keeps (keeps_sub hk rfl) ?_
    | intro _

theorem execDip_keeps {k : Nat} {s t : State} {vbulk : BitVec 16} (hk : k &&& 258 = 258)
    (h : execDip vbulk s = .next t) : Keeps k s t := by
  refine act_keeps (keeps_sub hk rfl) (fun u hu => ?_) h
  repeat' first
    | with_reducible assumption
    | with_reducible refine State.dip_keeps (keeps_sub hk rfl) ?_
    | intro _

theorem execShutdownDone_keeps {k : Nat} {s t : State} {tenths : BitVec 16} (hk : k &&& 514 = 514)
    (h : execShutdownDone tenths s = .next t) : Keeps k s t := by
  refine act_keeps (keeps_sub hk rfl) (fun u hu => ?_) h
  repeat' first
    | with_reducible assumption
    | with_reducible refine State.shutdownDone_keeps (keeps_sub hk rfl) ?_
    | intro _

theorem execLossOfPower_keeps {k : Nat} {s t : State} {torn : Torn} (hk : k &&& 8666018 = 8666018)
    (h : execLossOfPower torn s = .next t) : Keeps k s t := by
  refine act_keeps (keeps_sub hk rfl) (fun u hu => ?_) h
  repeat' first
    | with_reducible assumption
    | with_reducible refine State.lossOfPower_keeps (keeps_sub hk rfl) ?_
    | intro _

end Sys2Proof.Machine
end

