-- ==== Sys2Proof/Laws/KeepsCanCmds.lean ====
section
/-!
SUPPORT. Laws/KeepsCanCmds.lean: what the meanings of Machine/CanCmds.lean keep (`Keeps`).
-/

namespace Sys2Proof.Machine

theorem execCanFrameReceive_keeps {k : Nat} {s t : State} {ch : Fin 4} {id : Word} {fmt : Word} {stamp : Word} {data : List Byte} {crcOk : Bool} {staged : Fin 9} (hk : k &&& 8519938 = 8519938)
    (h : execCanFrameReceive ch id fmt stamp data crcOk staged s = .next t) : Keeps k s t := by
  refine act_keeps (keeps_sub hk rfl) (fun u hu => ?_) h
  repeat' first
    | with_reducible assumption
    | with_reducible refine State.canFrame_keeps (keeps_sub hk rfl) ?_
    | intro _

theorem execCanError_keeps {k : Nat} {s t : State} {ch : Fin 4} {kind : Fin 8} {dataPhase tx : Bool} {weight : CanWeight} (hk : k &&& 131330 = 131330)
    (h : execCanError ch kind dataPhase tx weight s = .next t) : Keeps k s t := by
  refine act_keeps (keeps_sub hk rfl) (fun u hu => ?_) h
  repeat' first
    | with_reducible assumption
    | with_reducible refine State.canError_keeps (keeps_sub hk rfl) ?_
    | intro _

theorem execPop_keeps {k : Nat} {s t : State} {src : Src} {ch : Fin 4} {queue : Fin 2} {value : Word} (hk : k &&& 16777215 = 16777215)
    (h : execPop src ch queue value s = .next t) : Keeps k s t := by
  refine act_keeps (keeps_sub hk rfl) (fun u hu => ?_) h
  repeat' first
    | with_reducible assumption
    | with_reducible refine State.write1_keeps (keeps_sub hk rfl) ?_
    | intro _

theorem execCanModeWrite_keeps {k : Nat} {s t : State} {src : Src} {ch : Fin 4} {value : Word} (hk : k &&& 16777215 = 16777215)
    (h : execCanModeWrite src ch value s = .next t) : Keeps k s t := by
  refine act_keeps (keeps_sub hk rfl) (fun u hu => ?_) h
  repeat' first
    | with_reducible assumption
    | with_reducible refine State.write1_keeps (keeps_sub hk rfl) ?_
    | intro _

theorem execCanModeChange_keeps {k : Nat} {s t : State} {ch : Fin 4} (hk : k &&& 131330 = 131330)
    (h : execCanModeChange ch s = .next t) : Keeps k s t := by
  refine act_keeps (keeps_sub hk rfl) (fun u hu => ?_) h
  repeat' first
    | with_reducible assumption
    | with_reducible refine State.canModeChange_keeps (keeps_sub hk rfl) ?_
    | intro _

theorem execBitTimingWrite_keeps {k : Nat} {s t : State} {src : Src} {ch : Fin 4} {which : Fin 3} {value : Word} (hk : k &&& 16777215 = 16777215)
    (h : execBitTimingWrite src ch which value s = .next t) : Keeps k s t := by
  refine act_keeps (keeps_sub hk rfl) (fun u hu => ?_) h
  repeat' first
    | with_reducible assumption
    | with_reducible refine State.write1_keeps (keeps_sub hk rfl) ?_
    | intro _

theorem execRecover_keeps {k : Nat} {s t : State} {src : Src} {ch : Fin 4} (hk : k &&& 16777215 = 16777215)
    (h : execRecover src ch s = .next t) : Keeps k s t := by
  refine act_keeps (keeps_sub hk rfl) (fun u hu => ?_) h
  repeat' first
    | with_reducible assumption
    | with_reducible refine State.write1_keeps (keeps_sub hk rfl) ?_
    | intro _

theorem execBusoffRecoveryEnd_keeps {k : Nat} {s t : State} {ch : Fin 4} (hk : k &&& 131330 = 131330)
    (h : execBusoffRecoveryEnd ch s = .next t) : Keeps k s t := by
  refine act_keeps (keeps_sub hk rfl) (fun u hu => ?_) h
  repeat' first
    | with_reducible assumption
    | with_reducible refine State.canRecovered_keeps (keeps_sub hk rfl) ?_
    | intro _

theorem execLineFault_keeps {k : Nat} {s t : State} {ch : Fin 4} {kind : Fin 5} {present : Bool} (hk : k &&& 131458 = 131458)
    (h : execLineFault ch kind present s = .next t) : Keeps k s t := by
  refine act_keeps (keeps_sub hk rfl) (fun u hu => ?_) h
  repeat' first
    | with_reducible assumption
    | with_reducible refine State.canLine_keeps (keeps_sub hk rfl) ?_
    | intro _

theorem execLinefaultEnd_keeps {k : Nat} {s t : State} {ch : Fin 4} (hk : k &&& 131330 = 131330)
    (h : execLinefaultEnd ch s = .next t) : Keeps k s t := by
  refine act_keeps (keeps_sub hk rfl) (fun u hu => ?_) h
  repeat' first
    | with_reducible assumption
    | with_reducible refine State.canLineUp_keeps (keeps_sub hk rfl) ?_
    | intro _

theorem execResume_keeps {k : Nat} {s t : State} {src : Src} {ch : Fin 4} (hk : k &&& 16777215 = 16777215)
    (h : execResume src ch s = .next t) : Keeps k s t := by
  refine act_keeps (keeps_sub hk rfl) (fun u hu => ?_) h
  repeat' first
    | with_reducible assumption
    | with_reducible refine State.write1_keeps (keeps_sub hk rfl) ?_
    | intro _

theorem execTxReady_keeps {k : Nat} {s t : State} {src : Src} {ch : Fin 4} {buf : Fin 32} (hk : k &&& 16777215 = 16777215)
    (h : execTxReady src ch buf s = .next t) : Keeps k s t := by
  refine act_keeps (keeps_sub hk rfl) (fun u hu => ?_) h
  repeat' first
    | with_reducible assumption
    | with_reducible refine State.write1_keeps (keeps_sub hk rfl) ?_
    | intro _

theorem execTxAbort_keeps {k : Nat} {s t : State} {src : Src} {ch : Fin 4} {buf : Fin 32} (hk : k &&& 16777215 = 16777215)
    (h : execTxAbort src ch buf s = .next t) : Keeps k s t := by
  refine act_keeps (keeps_sub hk rfl) (fun u hu => ?_) h
  repeat' first
    | with_reducible assumption
    | with_reducible refine State.write1_keeps (keeps_sub hk rfl) ?_
    | intro _

theorem execTxStart_keeps {k : Nat} {s t : State} {ch : Fin 4} (hk : k &&& 131074 = 131074)
    (h : execTxStart ch s = .next t) : Keeps k s t := by
  refine act_keeps (keeps_sub hk rfl) (fun u hu => ?_) h
  repeat' first
    | with_reducible assumption
    | with_reducible refine State.txStart_keeps (keeps_sub hk rfl) ?_
    | intro _

theorem execTxEnd_keeps {k : Nat} {s t : State} {ch : Fin 4} {ok : Bool} {stamp : Word} {tdcv : BitVec 8} {vdom : BitVec 16} (hk : k &&& 8520066 = 8520066)
    (h : execTxEnd ch ok stamp tdcv vdom s = .next t) : Keeps k s t := by
  refine act_keeps (keeps_sub hk rfl) (fun u hu => ?_) h
  repeat' first
    | with_reducible assumption
    | with_reducible refine State.txEnd_keeps (keeps_sub hk rfl) ?_
    | intro _

theorem execBusIntegration_keeps {k : Nat} {s t : State} {ch : Fin 4} (hk : k &&& 131330 = 131330)
    (h : execBusIntegration ch s = .next t) : Keeps k s t := by
  refine act_keeps (keeps_sub hk rfl) (fun u hu => ?_) h
  repeat' first
    | with_reducible assumption
    | with_reducible refine State.canIntegrated_keeps (keeps_sub hk rfl) ?_
    | intro _

end Sys2Proof.Machine
end

