-- ==== Sys2Proof/Laws/KeepsLapBound.lean ====
section
/-!
SUPPORT. Laws/KeepsLapBound.lean: what the operations of Machine/LapBound.lean keep (`Keeps`).
-/

namespace Sys2Proof.Machine

theorem State.copySegments_wf (s : State) (pick : Nat × Nat × Nat → Bool) (b : Tab 8) (h : tabWf 0#8 b = true) :
    tabWf 0#8 (s.copySegments pick b) = true :=
  tabWf_foldl _ _ _ _ (fun t x h => tabWf_tabSetList _ _ _ _ h) h

theorem State.makeSett_wf (s : State) (coast : Bool) (e : Nat) : tabWf 0#8 (s.makeSett coast e).bytes = true :=
  s.copySegments_wf _ _ (tabWf_tabSetList _ _ _ _ rfl)

theorem State.lapAdvance_keeps {k : Nat} {r s : State} {ns : Nat} (hk : k &&& 5242884 = 5242884)
    (h : Keeps k r s) : Keeps k r ((s.lapAdvance ns)) := by
  unfold State.lapAdvance
  dsimp only
  repeat' first
    | with_reducible assumption
    | exact fun _ _ => Nat.zero_le _
    | with_reducible refine State.count_keeps (keeps_sub hk rfl) ?_
    | with_reducible refine State.ptpTo_keeps (keeps_sub hk rfl) ?_
    | with_reducible refine State.setBit_keeps (keeps_sub hk rfl) ?_
    | with_reducible refine State.wr_keeps (keeps_sub hk rfl) ?_
    | with_reducible refine Keeps.only ?_ ?_
    | exact fun _ g => by dsimp only; with_reducible exact g.tick
    | exact fun g _ => by dsimp only; with_reducible exact (h.inv g).tick
    | intro _
    | with_reducible refine Keeps.set_lap_tscNs (keeps_sub hk rfl) ?_ ?_

theorem State.slewEnd_keeps {k : Nat} {r s : State} (hk : k &&& 260 = 260)
    (h : Keeps k r s) : Keeps k r (s.slewEnd) := by
  unfold State.slewEnd
  repeat' first
    | with_reducible assumption
    | with_reducible refine State.irqLap_keeps (keeps_sub hk rfl) ?_
    | with_reducible refine State.setBit_keeps (keeps_sub hk rfl) ?_
    | exact fun _ g => by dsimp only; with_reducible exact g.tick
    | exact fun g _ => by dsimp only; with_reducible exact (h.inv g).tick
    | intro _
    | with_reducible refine Keeps.set_lap (keeps_sub hk rfl) ?_ ?_

theorem State.slewLap_keeps {k : Nat} {r s : State} (hk : k &&& 260 = 260)
    (h : Keeps k r s) : Keeps k r (s.slewLap) := by
  unfold State.slewLap
  repeat' first
    | with_reducible assumption
    | with_reducible refine State.setBit_keeps (keeps_sub hk rfl) ?_
    | with_reducible refine State.slewEnd_keeps (keeps_sub hk rfl) ?_
    | with_reducible refine Keeps.only ?_ ?_
    | exact fun _ g => by dsimp only; with_reducible exact g.tick
    | exact fun g _ => by dsimp only; with_reducible exact (h.inv g).tick
    | exact fun _ g => by dsimp only; split <;> with_reducible exact g.tick
    | with_reducible refine Keeps.cond ?_ ?_
    | split
    | intro _
    | with_reducible refine Keeps.set_lap (keeps_sub hk rfl) ?_ ?_

theorem State.lapSource_keeps {k : Nat} {r s : State} (hk : k &&& 260 = 260)
    (h : Keeps k r s) : Keeps k r (s.lapSource) := by
  unfold State.lapSource
  dsimp only
  repeat' first
    | with_reducible assumption
    | with_reducible refine State.feederCheck_keeps (keeps_sub hk rfl) ?_
    | with_reducible refine State.injRan_keeps (keeps_sub hk rfl) ?_
    | with_reducible refine State.slewLap_keeps (keeps_sub hk rfl) ?_
    | with_reducible refine State.srcBoundary_keeps (keeps_sub hk rfl) ?_
    | exact fun _ g => by dsimp only; with_reducible exact g.tick
    | exact fun g _ => by dsimp only; with_reducible exact (h.inv g).tick
    | intro _
    | with_reducible refine Keeps.set_lap (keeps_sub hk rfl) ?_ ?_

theorem State.lapLimits_keeps {k : Nat} {r s : State} (hk : k &&& 528480 = 528480)
    (h : Keeps k r s) : Keeps k r (s.lapLimits) := by
  unfold State.lapLimits
  dsimp only
  repeat' first
    | with_reducible assumption
    | with_reducible refine State.setFld_keeps (keeps_sub hk rfl) ?_
    | exact fun _ g => by dsimp only [NvState.wf]; exact g.nv
    | exact fun g _ => by dsimp only [NvState.wf]; exact (h.inv g).nv
    | intro _
    | with_reducible refine Keeps.set_key_nv (keeps_sub hk rfl) ?_ ?_
    | with_reducible refine Keeps.set_hwp_key_eth_nv (keeps_sub hk rfl) ?_ ?_

theorem State.wsInForce_keeps {k : Nat} {r s : State} {l : List (Nat × Word)} (hk : k &&& 1284 = 1284)
    (h : Keeps k r s) : Keeps k r ((s.wsInForce l)) := by
  unfold State.wsInForce
  dsimp only
  repeat' first
    | with_reducible assumption
    | with_reducible refine State.enableOff_keeps (keeps_sub hk rfl) ?_
    | with_reducible refine State.rwsApply_keeps (keeps_sub hk rfl) ?_
    | with_reducible refine Keeps.only ?_ ?_
    | with_reducible refine Keeps.each ?_ ?_
    | intro _

theorem State.wsTarget_keeps {k : Nat} {r s : State} {epoch : Nat} (hk : k &&& 1292 = 1292)
    (h : Keeps k r s) : Keeps k r ((s.wsTarget epoch)) := by
  unfold State.wsTarget
  dsimp only
  repeat' first
    | with_reducible assumption
    | with_reducible refine State.wsInForce_keeps (keeps_sub hk rfl) ?_
    | with_reducible refine State.wsResult_keeps (keeps_sub hk rfl) ?_
    | with_reducible refine Keeps.cond ?_ ?_
    | split
    | intro _

theorem State.discont_keeps {k : Nat} {r s : State} (hk : k &&& 256 = 256)
    (h : Keeps k r s) : Keeps k r (s.discont) := by
  unfold State.discont
  repeat' first
    | with_reducible assumption
    | with_reducible refine State.count_keeps (keeps_sub hk rfl) ?_
    | with_reducible refine State.irqSett_keeps (keeps_sub hk rfl) ?_
    | with_reducible refine State.setBit_keeps (keeps_sub hk rfl) ?_
    | intro _

theorem State.commitBefore_keeps {k : Nat} {r s : State} (hk : k &&& 9306044 = 9306044)
    (h : Keeps k r s) : Keeps k r (s.commitBefore) := by
  unfold State.commitBefore
  dsimp only
  repeat' first
    | with_reducible assumption
    | with_reducible refine State.activation_keeps (keeps_sub hk rfl) ?_
    | with_reducible refine State.coldEpochs_keeps (keeps_sub hk rfl) ?_
    | with_reducible refine State.fbpBoundary_keeps (keeps_sub hk rfl) ?_
    | with_reducible refine State.keyCommit_keeps (keeps_sub hk rfl) ?_
    | with_reducible refine State.mtrCommit_keeps (keeps_sub hk rfl) ?_
    | with_reducible refine State.publishCold_keeps (keeps_sub hk rfl) ?_
    | with_reducible refine State.wsTarget_keeps (keeps_sub hk rfl) ?_
    | with_reducible refine Keeps.only ?_ ?_
    | intro _

theorem State.commit_keeps {k : Nat} {r s : State} {coast : Bool} (hk : k &&& 9306046 = 9306046)
    (h : Keeps k r s) : Keeps k r ((s.commit coast)) := by
  unfold State.commit
  dsimp only
  repeat' first
    | with_reducible assumption
    | exact fun x g => ⟨g.sett.1, g.sett.2.1, fresh_wf (State.makeSett_wf _ _ _)⟩
    | with_reducible refine State.commitBefore_keeps (keeps_sub hk rfl) ?_
    | with_reducible refine State.discont_keeps (keeps_sub hk rfl) ?_
    | with_reducible refine State.dispatchOut_keeps (keeps_sub hk rfl) ?_
    | with_reducible refine State.injRan_keeps (keeps_sub hk rfl) ?_
    | with_reducible refine State.mirrorSend_keeps (keeps_sub hk rfl) ?_
    | with_reducible refine State.pairLeavesSync_keeps (keeps_sub hk rfl) ?_
    | with_reducible refine State.setBit_keeps (keeps_sub hk rfl) ?_
    | with_reducible refine Keeps.only ?_ ?_
    | exact fun _ g => by dsimp only [SettState.wf]; exact g.sett
    | exact fun g _ => by dsimp only [SettState.wf]; exact (h.inv g).sett
    | intro _
    | with_reducible refine Keeps.set_sett (keeps_sub hk rfl) ?_ ?_

theorem State.recopy_keeps {k : Nat} {r t : State} {s : State} (hk : k &&& 8 = 8)
    (h : Keeps k r t) : Keeps k r ((t.recopy s)) := by
  unfold State.recopy
  dsimp only
  repeat' first
    | with_reducible assumption
    | exact fun x g => ⟨g.sett.1, g.sett.2.1, fresh_wf (tabWf_foldl _ _ _ _ (fun t x h => tabWf_foldl _ _ _ _ (fun t x h => by split; exacts [h, tabWf_tabSet _ _ _ _ h]) h) (g.sett.2.2 _ ‹_›))⟩
    | exact fun _ g => by dsimp only [SettState.wf]; exact g.sett
    | exact fun g _ => by dsimp only [SettState.wf]; exact (h.inv g).sett
    | exact fun _ g => by dsimp only [SettState.wf]; split <;> exact g.sett
    | with_reducible refine Keeps.cond ?_ ?_
    | split
    | intro _
    | with_reducible refine Keeps.set_sett (keeps_sub hk rfl) ?_ ?_

theorem State.settReadable_keeps {k : Nat} {r s : State} (hk : k &&& 8914186 = 8914186)
    (h : Keeps k r s) : Keeps k r (s.settReadable) := by
  unfold State.settReadable
  dsimp only
  repeat' first
    | with_reducible assumption
    | exact fun x => (h.inv x).sett.2.2 _ ‹_›
    | exact fun _ g => ⟨g.sett.1, g.sett.2.1, fun y hy => nomatch hy⟩
    | with_reducible refine State.irqRes_keeps (keeps_sub hk rfl) ?_
    | with_reducible refine State.settShow_keeps (keeps_sub hk rfl) ?_ ?_
    | with_reducible refine State.telegrams_keeps (keeps_sub hk rfl) ?_
    | exact fun _ g => by dsimp only [SettState.wf]; exact g.sett
    | exact fun g _ => by dsimp only [SettState.wf]; exact (h.inv g).sett
    | exact fun _ g => by dsimp only [SettState.wf]; split <;> exact g.sett
    | with_reducible refine Keeps.cond ?_ ?_
    | split
    | intro _
    | with_reducible refine Keeps.set_sett (keeps_sub hk rfl) ?_ ?_
    | with_reducible refine Keeps.set_dsp (keeps_sub hk rfl) ?_

theorem State.grantUse_keeps {k : Nat} {r s : State} {who : Nat} (hk : k &&& 8473908 = 8473908)
    (h : Keeps k r s) : Keeps k r ((s.grantUse who)) := by
  unfold State.grantUse
  repeat' first
    | with_reducible assumption
    | with_reducible refine State.burstGranted_keeps (keeps_sub hk rfl) ?_
    | with_reducible refine State.fbpGranted_keeps (keeps_sub hk rfl) ?_
    | with_reducible refine State.setBit_keeps (keeps_sub hk rfl) ?_
    | with_reducible refine State.storeGranted_keeps (keeps_sub hk rfl) ?_
    | split
    | intro _

theorem State.batonGrant_keeps {k : Nat} {r s : State} (hk : k &&& 8473908 = 8473908)
    (h : Keeps k r s) : Keeps k r (s.batonGrant) := by
  unfold State.batonGrant
  repeat' first
    | with_reducible assumption
    | with_reducible refine State.batonGive_keeps (keeps_sub hk rfl) ?_
    | with_reducible refine State.grantUse_keeps (keeps_sub hk rfl) ?_
    | split
    | intro _

theorem State.activeLap_keeps {k : Nat} {r s : State} (hk : k &&& 8192 = 8192)
    (h : Keeps k r s) : Keeps k r (s.activeLap) := by
  unfold State.activeLap
  repeat' first
    | with_reducible assumption
    | with_reducible refine Keeps.cond ?_ ?_
    | split
    | intro _
    | with_reducible refine Keeps.set_pair (keeps_sub hk rfl) ?_

theorem State.pairLap_keeps {k : Nat} {r s : State} (hk : k &&& 8397058 = 8397058)
    (h : Keeps k r s) : Keeps k r (s.pairLap) := by
  unfold State.pairLap
  repeat' first
    | with_reducible assumption
    | with_reducible refine State.activeLap_keeps (keeps_sub hk rfl) ?_
    | with_reducible refine State.sendGrant_keeps (keeps_sub hk rfl) ?_
    | with_reducible refine State.stepShow_keeps (keeps_sub hk rfl) ?_
    | intro _

theorem State.lapBoundary_keeps {k : Nat} {r s : State} {target : Nat} {meters : List FeederLap} (hk : k &&& 16646142 = 16646142)
    (h : Keeps k r s) : Keeps k r ((s.lapBoundary target meters)) := by
  unfold State.lapBoundary
  dsimp only
  repeat' first
    | with_reducible assumption
    | with_reducible refine State.canCorr_keeps (keeps_sub hk rfl) ?_
    | with_reducible refine State.clearSent_keeps (keeps_sub hk rfl) ?_
    | with_reducible refine State.commit_keeps (keeps_sub hk rfl) ?_
    | with_reducible refine State.fbpTick_keeps (keeps_sub hk rfl) ?_
    | with_reducible refine State.lapAdvance_keeps (keeps_sub hk rfl) ?_
    | with_reducible refine State.lapLimits_keeps (keeps_sub hk rfl) ?_
    | with_reducible refine State.lapSource_keeps (keeps_sub hk rfl) ?_
    | with_reducible refine State.mtrLap_keeps (keeps_sub hk rfl) ?_
    | with_reducible refine State.pacerLap_keeps (keeps_sub hk rfl) ?_
    | with_reducible refine State.pairLap_keeps (keeps_sub hk rfl) ?_
    | with_reducible refine State.spoorLap_keeps (keeps_sub hk rfl) ?_
    | with_reducible refine State.trimLap_keeps (keeps_sub hk rfl) ?_
    | with_reducible refine State.wsExpire_keeps (keeps_sub hk rfl) ?_
    | exact fun _ g => by dsimp only; with_reducible exact g.tick
    | exact fun g _ => by dsimp only; with_reducible exact (h.inv g).tick
    | exact fun _ g => by dsimp only; split <;> with_reducible exact g.tick
    | with_reducible refine Keeps.cond ?_ ?_
    | split
    | intro _
    | with_reducible refine Keeps.set_lap (keeps_sub hk rfl) ?_ ?_

end Sys2Proof.Machine
end

