-- ==== Sys2Proof/Laws/KeepsDspCmds.lean ====
section
/-!
SUPPORT. Laws/KeepsDspCmds.lean: what the meanings of Machine/DspCmds.lean keep (`Keeps`).
-/

namespace Sys2Proof.Machine

theorem execCycleStart_keeps {k : Nat} {s t : State} (hk : k &&& 8391950 = 8391950)
    (h : execCycleStart s = .next t) : Keeps k s t := by
  refine act_keeps (keeps_sub hk rfl) (fun u hu => ?_) h
  repeat' first
    | with_reducible assumption
    | with_reducible refine State.cycleStart_keeps (keeps_sub hk rfl) ?_
    | with_reducible refine State.dispatchOut_keeps (keeps_sub hk rfl) ?_
    | with_reducible refine State.recopy_keeps (keeps_sub hk rfl) ?_
    | intro _

theorem execGridPoint_keeps {k : Nat} {s t : State} (hk : k &&& 1290 = 1290)
    (h : execGridPoint s = .next t) : Keeps k s t := by
  refine act_keeps (keeps_sub hk rfl) (fun u hu => ?_) h
  repeat' first
    | with_reducible assumption
    | with_reducible refine State.recopy_keeps (keeps_sub hk rfl) ?_
    | with_reducible refine State.takeGrid_keeps (keeps_sub hk rfl) ?_
    | intro _

theorem execMeasWrite_keeps {k : Nat} {s t : State} {src : Src} {unit : Option (Fin 64)} {value : Word} (hk : k &&& 16777215 = 16777215)
    (h : execMeasWrite src unit value s = .next t) : Keeps k s t := by
  refine act_keeps (keeps_sub hk rfl) (fun u hu => ?_) h
  repeat' first
    | with_reducible assumption
    | with_reducible refine State.write1_keeps (keeps_sub hk rfl) ?_
    | intro _

theorem execAssemblyDone_keeps {k : Nat} {s t : State} {further : BitVec 32} (hk : k &&& 8391942 = 8391942)
    (h : execAssemblyDone further s = .next t) : Keeps k s t := by
  refine act_keeps (keeps_sub hk rfl) (fun u hu => ?_) h
  repeat' first
    | with_reducible assumption
    | with_reducible refine State.assemblyDone_keeps (keeps_sub hk rfl) ?_
    | intro _

theorem execIteration_keeps {k : Nat} {s t : State} {run : IterRun} (hk : k &&& 8391942 = 8391942)
    (h : execIteration run s = .next t) : Keeps k s t := by
  refine act_keeps (keeps_sub hk rfl) (fun u hu => ?_) h
  repeat' first
    | with_reducible assumption
    | with_reducible refine State.iteration_keeps (keeps_sub hk rfl) ?_
    | intro _

theorem execBurstWiden_keeps {k : Nat} {s t : State} (hk : k &&& 2 = 2)
    (h : execBurstWiden s = .next t) : Keeps k s t := by
  refine act_keeps (keeps_sub hk rfl) (fun u hu => ?_) h
  repeat' first
    | with_reducible assumption
    | with_reducible refine State.burstWiden_keeps (keeps_sub hk rfl) ?_
    | intro _

theorem execDeadline_keeps {k : Nat} {s t : State} (hk : k &&& 8389902 = 8389902)
    (h : execDeadline s = .next t) : Keeps k s t := by
  refine act_keeps (keeps_sub hk rfl) (fun u hu => ?_) h
  repeat' first
    | with_reducible assumption
    | with_reducible refine State.deadline_keeps (keeps_sub hk rfl) ?_
    | with_reducible refine State.dispatchOut_keeps (keeps_sub hk rfl) ?_
    | with_reducible refine State.recopy_keeps (keeps_sub hk rfl) ?_
    | intro _

end Sys2Proof.Machine
end

