-- ==== Sys2Proof/Laws/KeepsEthCmds.lean ====
section
/-!
SUPPORT. Laws/KeepsEthCmds.lean: what the meanings of Machine/EthCmds.lean keep (`Keeps`).
-/

namespace Sys2Proof.Machine

theorem execEthFrame_keeps {k : Nat} {s t : State} {port : Fin 3} {good : Bool} (hk : k &&& 524546 = 524546)
    (h : execEthFrame port good s = .next t) : Keeps k s t := by
  refine act_keeps (keeps_sub hk rfl) (fun u hu => ?_) h
  repeat' first
    | with_reducible assumption
    | with_reducible refine State.ethFrame_keeps (keeps_sub hk rfl) ?_
    | intro _

theorem execStatusTelegram_keeps {k : Nat} {s t : State} {port : Fin 3} {ip : Word} {payload : List Byte} (hk : k &&& 8913154 = 8913154)
    (h : execStatusTelegram port ip payload s = .next t) : Keeps k s t := by
  refine act_keeps (keeps_sub hk rfl) (fun u hu => ?_) h
  repeat' first
    | with_reducible assumption
    | with_reducible refine State.statusTelegram_keeps (keeps_sub hk rfl) ?_
    | intro _

theorem execArpFrame_keeps {k : Nat} {s t : State} {port : Fin 3} {isReq : Bool} {sip : Word} {smac : BitVec 48} {tip : Word} (hk : k &&& 8913154 = 8913154)
    (h : execArpFrame port isReq sip smac tip s = .next t) : Keeps k s t := by
  refine act_keeps (keeps_sub hk rfl) (fun u hu => ?_) h
  repeat' first
    | with_reducible assumption
    | with_reducible refine State.arpFrame_keeps (keeps_sub hk rfl) ?_
    | intro _

theorem execIcmpEcho_keeps {k : Nat} {s t : State} {port : Fin 3} {ip : Word} {payload : List Byte} (hk : k &&& 8913154 = 8913154)
    (h : execIcmpEcho port ip payload s = .next t) : Keeps k s t := by
  refine act_keeps (keeps_sub hk rfl) (fun u hu => ?_) h
  repeat' first
    | with_reducible assumption
    | with_reducible refine State.icmpEcho_keeps (keeps_sub hk rfl) ?_
    | intro _

theorem execLinkChange_keeps {k : Nat} {s t : State} {port : Fin 3} {up gig : Bool} (hk : k &&& 258 = 258)
    (h : execLinkChange port up gig s = .next t) : Keeps k s t := by
  refine act_keeps (keeps_sub hk rfl) (fun u hu => ?_) h
  repeat' first
    | with_reducible assumption
    | with_reducible refine State.linkChange_keeps (keeps_sub hk rfl) ?_
    | intro _

theorem execSubreset_keeps {k : Nat} {s t : State} {src : Src} {value : Word} (hk : k &&& 16777215 = 16777215)
    (h : execSubreset src value s = .next t) : Keeps k s t := by
  refine act_keeps (keeps_sub hk rfl) (fun u hu => ?_) h
  repeat' first
    | with_reducible assumption
    | with_reducible refine State.write1_keeps (keeps_sub hk rfl) ?_
    | intro _

theorem execArpRefresh_keeps {k : Nat} {s t : State} {port : Fin 3} {ip : Word} (hk : k &&& 8388610 = 8388610)
    (h : execArpRefresh port ip s = .next t) : Keeps k s t := by
  refine act_keeps (keeps_sub hk rfl) (fun u hu => ?_) h
  repeat' first
    | with_reducible assumption
    | with_reducible refine State.arpRefresh_keeps (keeps_sub hk rfl) ?_
    | intro _

end Sys2Proof.Machine
end

