-- ==== Sys2Proof/Laws/KeepsPathOps.lean ====
section
/-!
SUPPORT. Laws/KeepsPathOps.lean: what the operations of Machine/PathOps.lean keep (`Keeps`).
-/

namespace Sys2Proof.Machine

theorem State.nvBlockDropped_keeps {k : Nat} {r s : State} (hk : k &&& 8388715 = 8388715)
    (h : Keeps k r s) : Keeps k r (s.nvBlockDropped) := by
  unfold State.nvBlockDropped
  dsimp only
  repeat' first
    | with_reducible assumption
    | with_reducible refine State.count_keeps (keeps_sub hk rfl) ?_
    | with_reducible refine State.setBit_keeps (keeps_sub hk rfl) ?_
    | with_reducible refine State.wordsEnd_keeps (keeps_sub hk rfl) ?_
    | exact fun _ g => by dsimp only [NvState.wf]; exact g.nv
    | exact fun g _ => by dsimp only [NvState.wf]; exact (h.inv g).nv
    | exact fun _ g => by dsimp only [NvState.wf]; split <;> exact g.nv
    | split
    | intro _
    | with_reducible refine Keeps.set_nv (keeps_sub hk rfl) ?_ ?_

theorem State.blockTaken_keeps {k : Nat} {r s : State} {path cls : Nat} {lane : Option Nat} {use : BlockUse} {got : List Block} (hk : k &&& 8392043 = 8392043)
    (h : Keeps k r s) : Keeps k r ((s.blockTaken path cls lane use got)) := by
  unfold State.blockTaken
  repeat' first
    | with_reducible assumption
    | with_reducible refine State.blockReceive_keeps (keeps_sub hk rfl) ?_
    | with_reducible refine State.nvBlockDropped_keeps (keeps_sub hk rfl) ?_
    | with_reducible refine Keeps.only ?_ ?_
    | intro _

theorem State.dramScrub_keeps {k : Nat} {r s : State} {got : List Block} (hk : k &&& 8391944 = 8391944)
    (h : Keeps k r s) : Keeps k r ((s.dramScrub got)) := by
  unfold State.dramScrub
  dsimp only
  repeat' first
    | with_reducible assumption
    | with_reducible refine State.blockReceive_keeps (keeps_sub hk rfl) ?_
    | exact fun _ g => by dsimp only [FabState.wf]; exact g.fab
    | exact fun g _ => by dsimp only [FabState.wf]; exact (h.inv g).fab
    | exact fun _ g => by dsimp only [FabState.wf]; split <;> exact g.fab
    | with_reducible refine Keeps.cond ?_ ?_
    | split
    | intro _
    | with_reducible refine Keeps.set_fab (keeps_sub hk rfl) ?_ ?_

end Sys2Proof.Machine
end

