-- ==== Sys2Proof/Laws/KeepsFabCmds.lean ====
section
/-!
SUPPORT. Laws/KeepsFabCmds.lean: what the meanings of Machine/FabCmds.lean keep (`Keeps`).
-/

namespace Sys2Proof.Machine

theorem execBlockReceive_keeps {k : Nat} {s t : State} {path : Fin 5} {cls : Fin 12} {lane : Option (Fin 18)} {use : BlockUse} {got : List Block} (hk : k &&& 8392043 = 8392043)
    (h : execBlockReceive path cls lane use got s = .next t) : Keeps k s t := by
  refine act_keeps (keeps_sub hk rfl) (fun u hu => ?_) h
  repeat' first
    | with_reducible assumption
    | with_reducible refine State.blockTaken_keeps (keeps_sub hk rfl) ?_
    | intro _

theorem execLaneCheck_keeps {k : Nat} {s t : State} {ok : Bool} (hk : k &&& 3330 = 3330)
    (h : execLaneCheck ok s = .next t) : Keeps k s t := by
  refine act_keeps (keeps_sub hk rfl) (fun u hu => ?_) h
  repeat' first
    | with_reducible assumption
    | with_reducible refine State.laneCheck_keeps (keeps_sub hk rfl) ?_
    | intro _

theorem execScrubSegment_keeps {k : Nat} {s t : State} {bad : List (BitVec 12)} (hk : k &&& 8391950 = 8391950)
    (h : execScrubSegment bad s = .next t) : Keeps k s t := by
  refine act_keeps (keeps_sub hk rfl) (fun u hu => ?_) h
  repeat' first
    | with_reducible assumption
    | with_reducible refine State.scrubSegment_keeps (keeps_sub hk rfl) ?_
    | intro _

theorem execMapWrite_keeps {k : Nat} {s t : State} {rb : ReadBack} (hk : k &&& 8390914 = 8390914)
    (h : execMapWrite rb s = .next t) : Keeps k s t := by
  refine act_keeps (keeps_sub hk rfl) (fun u hu => ?_) h
  repeat' first
    | with_reducible assumption
    | with_reducible refine State.mapWrite_keeps (keeps_sub hk rfl) ?_
    | intro _

theorem execDramScrub_keeps {k : Nat} {s t : State} {got : List Block} (hk : k &&& 8391946 = 8391946)
    (h : execDramScrub got s = .next t) : Keeps k s t := by
  refine act_keeps (keeps_sub hk rfl) (fun u hu => ?_) h
  repeat' first
    | with_reducible assumption
    | with_reducible refine State.dramScrub_keeps (keeps_sub hk rfl) ?_
    | intro _

theorem execDramRetrain_keeps {k : Nat} {s t : State} (hk : k &&& 2054 = 2054)
    (h : execDramRetrain s = .next t) : Keeps k s t := by
  refine act_keeps (keeps_sub hk rfl) (fun u hu => ?_) h
  repeat' first
    | with_reducible assumption
    | with_reducible refine State.dramRetrain_keeps (keeps_sub hk rfl) ?_
    | intro _

end Sys2Proof.Machine
end

