-- ==== Sys2Proof/Laws/KeepsFbpCmds.lean ====
section
/-!
SUPPORT. Laws/KeepsFbpCmds.lean: what the meanings of Machine/FbpCmds.lean keep (`Keeps`).
-/

namespace Sys2Proof.Machine

theorem execFbpCycleStart_keeps {k : Nat} {s t : State} (hk : k &&& 73762 = 73762)
    (h : execFbpCycleStart s = .next t) : Keeps k s t := by
  refine act_keeps (keeps_sub hk rfl) (fun u hu => ?_) h
  repeat' first
    | with_reducible assumption
    | with_reducible refine State.fbpCycleStart_keeps (keeps_sub hk rfl) ?_
    | intro _

theorem execFbpApply_keeps {k : Nat} {s t : State} {executed timedOut : Bool} (hk : k &&& 8479030 = 8479030)
    (h : execFbpApply executed timedOut s = .next t) : Keeps k s t := by
  refine act_keeps (keeps_sub hk rfl) (fun u hu => ?_) h
  repeat' first
    | with_reducible assumption
    | with_reducible refine State.fbpApply_keeps (keeps_sub hk rfl) ?_
    | intro _

theorem execFbpWatchdog_keeps {k : Nat} {s t : State} {left : EvalLeft} (hk : k &&& 90534 = 90534)
    (h : execFbpWatchdog left s = .next t) : Keeps k s t := by
  refine act_keeps (keeps_sub hk rfl) (fun u hu => ?_) h
  repeat' first
    | with_reducible assumption
    | with_reducible refine State.fbpWatchdog_keeps (keeps_sub hk rfl) ?_
    | intro _

theorem execFbpTrap_keeps {k : Nat} {s t : State} {inst : BitVec 12} {kind : TrapKind} {left : List (BitVec 20 × Word)} (hk : k &&& 90534 = 90534)
    (h : execFbpTrap inst kind left s = .next t) : Keeps k s t := by
  refine act_keeps (keeps_sub hk rfl) (fun u hu => ?_) h
  repeat' first
    | with_reducible assumption
    | with_reducible refine State.fbpTrap_keeps (keeps_sub hk rfl) ?_
    | intro _

theorem execFbpStop_keeps {k : Nat} {s t : State} {src : Src} {left : EvalLeft} (hk : k &&& 16777215 = 16777215)
    (h : execFbpStop src left s = .next t) : Keeps k s t := by
  refine act_keeps (keeps_sub hk rfl) (fun u hu => ?_) h
  repeat' first
    | with_reducible assumption
    | with_reducible refine State.opWords_keeps (keeps_sub hk rfl) ?_
    | intro _

theorem execFbpRestart_keeps {k : Nat} {s t : State} {src : Src} {cold : Bool} (hk : k &&& 16777215 = 16777215)
    (h : execFbpRestart src cold s = .next t) : Keeps k s t := by
  refine act_keeps (keeps_sub hk rfl) (fun u hu => ?_) h
  repeat' first
    | with_reducible assumption
    | with_reducible refine State.write1_keeps (keeps_sub hk rfl) ?_
    | intro _

theorem execForceSet_keeps {k : Nat} {s t : State} {src : Src} {point : BitVec 11} (hk : k &&& 16777215 = 16777215)
    (h : execForceSet src point s = .next t) : Keeps k s t := by
  refine act_keeps (keeps_sub hk rfl) (fun u hu => ?_) h
  repeat' first
    | with_reducible assumption
    | with_reducible refine State.write1_keeps (keeps_sub hk rfl) ?_
    | intro _

theorem execForceClr_keeps {k : Nat} {s t : State} {src : Src} {point : BitVec 11} (hk : k &&& 16777215 = 16777215)
    (h : execForceClr src point s = .next t) : Keeps k s t := by
  refine act_keeps (keeps_sub hk rfl) (fun u hu => ?_) h
  repeat' first
    | with_reducible assumption
    | with_reducible refine State.write1_keeps (keeps_sub hk rfl) ?_
    | intro _

theorem execClrall_keeps {k : Nat} {s t : State} {src : Src} (hk : k &&& 16777215 = 16777215)
    (h : execClrall src s = .next t) : Keeps k s t := by
  refine act_keeps (keeps_sub hk rfl) (fun u hu => ?_) h
  repeat' first
    | with_reducible assumption
    | with_reducible refine State.write1_keeps (keeps_sub hk rfl) ?_
    | intro _

theorem execForceValueWrite_keeps {k : Nat} {s t : State} {src : Src} {cls : Fin 5} {n : Fin 32} {value : Word} (hk : k &&& 16777215 = 16777215)
    (h : execForceValueWrite src cls n value s = .next t) : Keeps k s t := by
  refine act_keeps (keeps_sub hk rfl) (fun u hu => ?_) h
  repeat' first
    | with_reducible assumption
    | with_reducible refine State.write1_keeps (keeps_sub hk rfl) ?_
    | intro _

theorem execXvWrite_keeps {k : Nat} {s t : State} {src : Src} {k' : Fin 4096} {value : Word} (hk : k &&& 16777215 = 16777215)
    (h : execXvWrite src k' value s = .next t) : Keeps k s t := by
  refine act_keeps (keeps_sub hk rfl) (fun u hu => ?_) h
  repeat' first
    | with_reducible assumption
    | with_reducible refine State.write1_keeps (keeps_sub hk rfl) ?_
    | intro _

end Sys2Proof.Machine
end

