-- ==== Sys2Proof/Laws/KeepsFieldCmds.lean ====
section
/-!
SUPPORT. Laws/KeepsFieldCmds.lean: what the meanings of Machine/FieldCmds.lean keep (`Keeps`).
-/

namespace Sys2Proof.Machine

theorem execAinResult_keeps {k : Nat} {s t : State} {ch : Fin 32} {code : BitVec 24} {overload : Bool} {line : LineMon} (hk : k &&& 16770 = 16770)
    (h : execAinResult ch code overload line s = .next t) : Keeps k s t := by
  refine act_keeps (keeps_sub hk rfl) (fun u hu => ?_) h
  repeat' first
    | with_reducible assumption
    | with_reducible refine State.ainResult_keeps (keeps_sub hk rfl) ?_
    | intro _

theorem execRefCheck_keeps {k : Nat} {s t : State} {bank : Fin 4} {uv : BitVec 32} (hk : k &&& 16642 = 16642)
    (h : execRefCheck bank uv s = .next t) : Keeps k s t := by
  refine act_keeps (keeps_sub hk rfl) (fun u hu => ?_) h
  repeat' first
    | with_reducible assumption
    | with_reducible refine State.refCheck_keeps (keeps_sub hk rfl) ?_
    | intro _

theorem execCalRound_keeps {k : Nat} {s t : State} {bank : Fin 4} {ofs : BitVec 24} {gain : BitVec 32} (hk : k &&& 8404994 = 8404994)
    (h : execCalRound bank ofs gain s = .next t) : Keeps k s t := by
  refine act_keeps (keeps_sub hk rfl) (fun u hu => ?_) h
  repeat' first
    | with_reducible assumption
    | with_reducible refine State.calStart_keeps (keeps_sub hk rfl) ?_
    | intro _

theorem execCalStepEnd_keeps {k : Nat} {s t : State} {bank : Fin 4} {ofs : BitVec 24} {gain : BitVec 32} {diff : BitVec 24} (hk : k &&& 16770 = 16770)
    (h : execCalStepEnd bank ofs gain diff s = .next t) : Keeps k s t := by
  refine act_keeps (keeps_sub hk rfl) (fun u hu => ?_) h
  repeat' first
    | with_reducible assumption
    | with_reducible refine State.calEnd_keeps (keeps_sub hk rfl) ?_
    | intro _

theorem execAoutSetWrite_keeps {k : Nat} {s t : State} {src : Src} {ch : Fin 16} {value : Word} (hk : k &&& 16777215 = 16777215)
    (h : execAoutSetWrite src ch value s = .next t) : Keeps k s t := by
  refine act_keeps (keeps_sub hk rfl) (fun u hu => ?_) h
  repeat' first
    | with_reducible assumption
    | with_reducible refine State.write1_keeps (keeps_sub hk rfl) ?_
    | intro _

theorem execAoutReadback_keeps {k : Nat} {s t : State} {ch : Fin 16} {value : BitVec 16} (hk : k &&& 16642 = 16642)
    (h : execAoutReadback ch value s = .next t) : Keeps k s t := by
  refine act_keeps (keeps_sub hk rfl) (fun u hu => ?_) h
  repeat' first
    | with_reducible assumption
    | with_reducible refine State.aoReadback_keeps (keeps_sub hk rfl) ?_
    | intro _

theorem execAoutFault_keeps {k : Nat} {s t : State} {ch : Fin 16} {kind : AoFault} {present : Bool} (hk : k &&& 402 = 402)
    (h : execAoutFault ch kind present s = .next t) : Keeps k s t := by
  refine act_keeps (keeps_sub hk rfl) (fun u hu => ?_) h
  repeat' first
    | with_reducible assumption
    | with_reducible refine State.aoTest_keeps (keeps_sub hk rfl) ?_
    | intro _

theorem execDiChange_keeps {k : Nat} {s t : State} {ch : Fin 32} {level : Bool} {ua : BitVec 16} (hk : k &&& 2 = 2)
    (h : execDiChange ch level ua s = .next t) : Keeps k s t := by
  refine act_keeps (keeps_sub hk rfl) (fun u hu => ?_) h
  repeat' first
    | with_reducible assumption
    | with_reducible refine State.diChange_keeps (keeps_sub hk rfl) ?_
    | intro _

theorem execDiFault_keeps {k : Nat} {s t : State} {ch : Fin 32} {kind : DiFault} {present : Bool} {ua : BitVec 16} (hk : k &&& 16770 = 16770)
    (h : execDiFault ch kind present ua s = .next t) : Keeps k s t := by
  refine act_keeps (keeps_sub hk rfl) (fun u hu => ?_) h
  repeat' first
    | with_reducible assumption
    | with_reducible refine State.diTest_keeps (keeps_sub hk rfl) ?_
    | intro _

theorem execDoTrip_keeps {k : Nat} {s t : State} {ch : Fin 16} {tooMuch : Bool} {ma : BitVec 16} (hk : k &&& 16770 = 16770)
    (h : execDoTrip ch tooMuch ma s = .next t) : Keeps k s t := by
  refine act_keeps (keeps_sub hk rfl) (fun u hu => ?_) h
  repeat' first
    | with_reducible assumption
    | with_reducible refine State.doTrip_keeps (keeps_sub hk rfl) ?_
    | intro _

theorem execDoRetry_keeps {k : Nat} {s t : State} {ch : Fin 16} (hk : k &&& 16386 = 16386)
    (h : execDoRetry ch s = .next t) : Keeps k s t := by
  refine act_keeps (keeps_sub hk rfl) (fun u hu => ?_) h
  repeat' first
    | with_reducible assumption
    | with_reducible refine State.doRetry_keeps (keeps_sub hk rfl) ?_
    | intro _

theorem execDoFault_keeps {k : Nat} {s t : State} {ch : Fin 16} {kind : DoFault} {present : Bool} {ma : BitVec 16} (hk : k &&& 16786 = 16786)
    (h : execDoFault ch kind present ma s = .next t) : Keeps k s t := by
  refine act_keeps (keeps_sub hk rfl) (fun u hu => ?_) h
  repeat' first
    | with_reducible assumption
    | with_reducible refine State.doTest_keeps (keeps_sub hk rfl) ?_
    | intro _

theorem execClrfault_keeps {k : Nat} {s t : State} {src : Src} {ch : Fin 16} {on : Bool} (hk : k &&& 16777215 = 16777215)
    (h : execClrfault src ch on s = .next t) : Keeps k s t := by
  refine act_keeps (keeps_sub hk rfl) (fun u hu => ?_) h
  repeat' first
    | with_reducible assumption
    | with_reducible refine State.write1_keeps (keeps_sub hk rfl) ?_
    | intro _

theorem execDoSetWrite_keeps {k : Nat} {s t : State} {src : Src} {value : Word} (hk : k &&& 16777215 = 16777215)
    (h : execDoSetWrite src value s = .next t) : Keeps k s t := by
  refine act_keeps (keeps_sub hk rfl) (fun u hu => ?_) h
  repeat' first
    | with_reducible assumption
    | with_reducible refine State.write1_keeps (keeps_sub hk rfl) ?_
    | intro _

theorem execFieldSupplyCheck_keeps {k : Nat} {s t : State} {mv : BitVec 16} {rev : Bool} (hk : k &&& 16642 = 16642)
    (h : execFieldSupplyCheck mv rev s = .next t) : Keeps k s t := by
  refine act_keeps (keeps_sub hk rfl) (fun u hu => ?_) h
  repeat' first
    | with_reducible assumption
    | with_reducible refine State.supplyCheck_keeps (keeps_sub hk rfl) ?_
    | intro _

theorem execFieldSupplyReturn_keeps {k : Nat} {s t : State} (hk : k &&& 16386 = 16386)
    (h : execFieldSupplyReturn s = .next t) : Keeps k s t := by
  refine act_keeps (keeps_sub hk rfl) (fun u hu => ?_) h
  repeat' first
    | with_reducible assumption
    | with_reducible refine State.supplyReturn_keeps (keeps_sub hk rfl) ?_
    | intro _

theorem execRawEdge_keeps {k : Nat} {s t : State} {ch : Fin 32} {close : Bool} (hk : k &&& 2 = 2)
    (h : execRawEdge ch close s = .next t) : Keeps k s t := by
  refine act_keeps (keeps_sub hk rfl) (fun u hu => ?_) h
  repeat' first
    | with_reducible assumption
    | with_reducible refine State.rawEdge_keeps (keeps_sub hk rfl) ?_
    | intro _

theorem execDiFaultEnd_keeps {k : Nat} {s t : State} {ch : Fin 32} (hk : k &&& 16386 = 16386)
    (h : execDiFaultEnd ch s = .next t) : Keeps k s t := by
  refine act_keeps (keeps_sub hk rfl) (fun u hu => ?_) h
  repeat' first
    | with_reducible assumption
    | with_reducible refine State.diFaultEnd_keeps (keeps_sub hk rfl) ?_
    | intro _

theorem execAoutFaultEnd_keeps {k : Nat} {s t : State} {ch : Fin 16} {kind : AoFault} (hk : k &&& 2 = 2)
    (h : execAoutFaultEnd ch kind s = .next t) : Keeps k s t := by
  refine act_keeps (keeps_sub hk rfl) (fun u hu => ?_) h
  repeat' first
    | with_reducible assumption
    | with_reducible refine State.aoFaultEnd_keeps (keeps_sub hk rfl) ?_
    | intro _

end Sys2Proof.Machine
end

