-- ==== Sys2Proof/Laws/KeepsHwpCmds.lean ====
section
/-!
SUPPORT. Laws/KeepsHwpCmds.lean: what the meanings of Machine/HwpCmds.lean keep (`Keeps`).
-/

namespace Sys2Proof.Machine

theorem execRegisterWrite_keeps {k : Nat} {s t : State} {src : Src} {addr : Word} {value : Word} (hk : k &&& 16777215 = 16777215)
    (h : execRegisterWrite src addr value s = .next t) : Keeps k s t := by
  refine act_keeps (keeps_sub hk rfl) (fun u hu => ?_) h
  repeat' first
    | with_reducible assumption
    | with_reducible refine State.write1_keeps (keeps_sub hk rfl) ?_
    | intro _

theorem execHwpRequest_keeps {k : Nat} {s t : State} {payload : List Byte} {port : Fin 3} {ip : Word} {udp : BitVec 16} (hk : k &&& 8917315 = 8917315)
    (h : execHwpRequest payload port ip udp s = .next t) : Keeps k s t := by
  refine act_keeps (keeps_sub hk rfl) (fun u hu => ?_) h
  repeat' first
    | with_reducible assumption
    | with_reducible refine State.requestFrame_keeps (keeps_sub hk rfl) ?_
    | intro _

theorem execRead_keeps {k : Nat} {s t : State} {src : Src} {addr : Word} {count : BitVec 16} {sel : BitVec 64} (hk : k &&& 11796963 = 11796963)
    (h : execRead src addr count sel s = .next t) : Keeps k s t := by
  refine act_keeps (keeps_sub hk rfl) (fun u hu => ?_) h
  repeat' first
    | with_reducible assumption
    | with_reducible refine State.opRead_keeps (keeps_sub hk rfl) ?_
    | intro _

theorem execEpochLoRead_keeps {k : Nat} {s t : State} {src : Src} (hk : k &&& 11796963 = 11796963)
    (h : execEpochLoRead src s = .next t) : Keeps k s t := by
  refine act_keeps (keeps_sub hk rfl) (fun u hu => ?_) h
  repeat' first
    | with_reducible assumption
    | with_reducible refine State.opRead_keeps (keeps_sub hk rfl) ?_
    | intro _

theorem execWrite_keeps {k : Nat} {s t : State} {src : Src} {addr : Word} {values : List Word} {drop : Option Nat} (hk : k &&& 16777215 = 16777215)
    (h : execWrite src addr values drop s = .next t) : Keeps k s t := by
  refine act_keeps (keeps_sub hk rfl) (fun u hu => ?_) h
  repeat' first
    | with_reducible assumption
    | with_reducible refine State.opWords_keeps (keeps_sub hk rfl) ?_
    | intro _

theorem execWritelist_keeps {k : Nat} {s t : State} {src : Src} {pairs : List (Word × Word)} {drop : Option Nat} (hk : k &&& 16777215 = 16777215)
    (h : execWritelist src pairs drop s = .next t) : Keeps k s t := by
  refine act_keeps (keeps_sub hk rfl) (fun u hu => ?_) h
  repeat' first
    | with_reducible assumption
    | with_reducible refine State.opWords_keeps (keeps_sub hk rfl) ?_
    | intro _

theorem execLoad_keeps {k : Nat} {s t : State} {src : Src} {offset : Word} {data : List Word} {drop : Option Nat} (hk : k &&& 8388947 = 8388947)
    (h : execLoad src offset data drop s = .next t) : Keeps k s t := by
  refine act_keeps (keeps_sub hk rfl) (fun u hu => ?_) h
  repeat' first
    | with_reducible assumption
    | with_reducible refine State.opLoad_keeps (keeps_sub hk rfl) ?_
    | intro _

theorem execPublish_keeps {k : Nat} {s t : State} {src : Src} {seq : Word} (hk : k &&& 8388939 = 8388939)
    (h : execPublish src seq s = .next t) : Keeps k s t := by
  refine act_keeps (keeps_sub hk rfl) (fun u hu => ?_) h
  repeat' first
    | with_reducible assumption
    | with_reducible refine State.opPublish_keeps (keeps_sub hk rfl) ?_
    | intro _

end Sys2Proof.Machine
end

