-- ==== Sys2Proof/Laws/KeepsImgCheck.lean ====
section
/-!
SUPPORT. Laws/KeepsImgCheck.lean: what the operations of Machine/ImgCheck.lean keep (`Keeps`).
-/

namespace Sys2Proof.Machine

theorem State.checkInjRan_keeps {k : Nat} {r s : State} {code : Nat} {isLoad : Bool} (hk : k &&& 0 = 0)
    (h : Keeps k r s) : Keeps k r ((s.checkInjRan code isLoad)) := by
  unfold State.checkInjRan
  dsimp only
  repeat' first
    | with_reducible assumption
    | with_reducible refine State.injRan_keeps (keeps_sub hk rfl) ?_
    | with_reducible refine Keeps.only ?_ ?_
    | intro _

theorem State.checkComplete_keeps {k : Nat} {r s : State} (hk : k &&& 256 = 256)
    (h : Keeps k r s) : Keeps k r (s.checkComplete) := by
  unfold State.checkComplete
  dsimp only
  repeat' first
    | with_reducible assumption
    | with_reducible refine State.checkInjRan_keeps (keeps_sub hk rfl) ?_
    | with_reducible refine State.imgRefused_keeps (keeps_sub hk rfl) ?_
    | with_reducible refine State.irqImg_keeps (keeps_sub hk rfl) ?_
    | with_reducible refine State.setBit_keeps (keeps_sub hk rfl) ?_
    | with_reducible refine State.setFld_keeps (keeps_sub hk rfl) ?_
    | with_reducible refine Keeps.only ?_ ?_
    | with_reducible refine Keeps.cond ?_ ?_
    | split
    | intro _

end Sys2Proof.Machine
end

