-- ==== Sys2Proof/Laws/KeepsImgCmds.lean ====
section
/-!
SUPPORT. Laws/KeepsImgCmds.lean: what the meanings of Machine/ImgCmds.lean keep (`Keeps`).
-/

namespace Sys2Proof.Machine

theorem execImgOpen_keeps {k : Nat} {s t : State} {src : Src} {slotB : Bool} (hk : k &&& 16777215 = 16777215)
    (h : execImgOpen src slotB s = .next t) : Keeps k s t := by
  refine act_keeps (keeps_sub hk rfl) (fun u hu => ?_) h
  repeat' first
    | with_reducible assumption
    | with_reducible refine State.write1_keeps (keeps_sub hk rfl) ?_
    | intro _

theorem execImgCheck_keeps {k : Nat} {s t : State} {src : Src} (hk : k &&& 16777215 = 16777215)
    (h : execImgCheck src s = .next t) : Keeps k s t := by
  refine act_keeps (keeps_sub hk rfl) (fun u hu => ?_) h
  repeat' first
    | with_reducible assumption
    | with_reducible refine State.write1_keeps (keeps_sub hk rfl) ?_
    | intro _

theorem execCheckComplete_keeps {k : Nat} {s t : State} (hk : k &&& 258 = 258)
    (h : execCheckComplete s = .next t) : Keeps k s t := by
  refine act_keeps (keeps_sub hk rfl) (fun u hu => ?_) h
  repeat' first
    | with_reducible assumption
    | with_reducible refine State.checkComplete_keeps (keeps_sub hk rfl) ?_
    | intro _

theorem execImgCommit_keeps {k : Nat} {s t : State} {src : Src} (hk : k &&& 16777215 = 16777215)
    (h : execImgCommit src s = .next t) : Keeps k s t := by
  refine act_keeps (keeps_sub hk rfl) (fun u hu => ?_) h
  repeat' first
    | with_reducible assumption
    | with_reducible refine State.write1_keeps (keeps_sub hk rfl) ?_
    | intro _

theorem execCommitComplete_keeps {k : Nat} {s t : State} {readBackOk : Bool} (hk : k &&& 274 = 274)
    (h : execCommitComplete readBackOk s = .next t) : Keeps k s t := by
  refine act_keeps (keeps_sub hk rfl) (fun u hu => ?_) h
  repeat' first
    | with_reducible assumption
    | with_reducible refine State.commitEnd_keeps (keeps_sub hk rfl) ?_
    | intro _

theorem execImgAbort_keeps {k : Nat} {s t : State} {src : Src} (hk : k &&& 16777215 = 16777215)
    (h : execImgAbort src s = .next t) : Keeps k s t := by
  refine act_keeps (keeps_sub hk rfl) (fun u hu => ?_) h
  repeat' first
    | with_reducible assumption
    | with_reducible refine State.write1_keeps (keeps_sub hk rfl) ?_
    | intro _

theorem execActivate_keeps {k : Nat} {s t : State} {src : Src} {slotB : Bool} (hk : k &&& 16777215 = 16777215)
    (h : execActivate src slotB s = .next t) : Keeps k s t := by
  refine act_keeps (keeps_sub hk rfl) (fun u hu => ?_) h
  repeat' first
    | with_reducible assumption
    | with_reducible refine State.write1_keeps (keeps_sub hk rfl) ?_
    | intro _

theorem execFloor_keeps {k : Nat} {s t : State} {src : Src} (hk : k &&& 16777215 = 16777215)
    (h : execFloor src s = .next t) : Keeps k s t := by
  refine act_keeps (keeps_sub hk rfl) (fun u hu => ?_) h
  repeat' first
    | with_reducible assumption
    | with_reducible refine State.write1_keeps (keeps_sub hk rfl) ?_
    | intro _

end Sys2Proof.Machine
end

