-- ==== Sys2Proof/Laws/KeepsKeyCmds.lean ====
section
/-!
SUPPORT. Laws/KeepsKeyCmds.lean: what the meanings of Machine/KeyCmds.lean keep (`Keeps`).
-/

namespace Sys2Proof.Machine

theorem execUpdBufWrite_keeps {k : Nat} {s t : State} {src : Src} {w : Fin 32} {value : Word} (hk : k &&& 16777215 = 16777215)
    (h : execUpdBufWrite src w value s = .next t) : Keeps k s t := by
  refine act_keeps (keeps_sub hk rfl) (fun u hu => ?_) h
  repeat' first
    | with_reducible assumption
    | with_reducible refine State.write1_keeps (keeps_sub hk rfl) ?_
    | intro _

theorem execKeyExec_keeps {k : Nat} {s t : State} {src : Src} {on : Bool} (hk : k &&& 16777215 = 16777215)
    (h : execKeyExec src on s = .next t) : Keeps k s t := by
  refine act_keeps (keeps_sub hk rfl) (fun u hu => ?_) h
  repeat' first
    | with_reducible assumption
    | with_reducible refine State.write1_keeps (keeps_sub hk rfl) ?_
    | intro _

theorem execKeyUpdateDone_keeps {k : Nat} {s t : State} {rb : ReadBack} (hk : k &&& 8393010 = 8393010)
    (h : execKeyUpdateDone rb s = .next t) : Keeps k s t := by
  refine act_keeps (keeps_sub hk rfl) (fun u hu => ?_) h
  repeat' first
    | with_reducible assumption
    | with_reducible refine State.keyUpdateDone_keeps (keeps_sub hk rfl) ?_
    | intro _

theorem execChallenge_keeps {k : Nat} {s t : State} {port : Fin 3} {ip : Word} {udp : BitVec 16} {payload : List Byte} (hk : k &&& 8917250 = 8917250)
    (h : execChallenge port ip udp payload s = .next t) : Keeps k s t := by
  refine act_keeps (keeps_sub hk rfl) (fun u hu => ?_) h
  repeat' first
    | with_reducible assumption
    | with_reducible refine State.challengeFrame_keeps (keeps_sub hk rfl) ?_
    | intro _

end Sys2Proof.Machine
end

