-- ==== Sys2Proof/Laws/KeepsLapCmds.lean ====
section
/-!
SUPPORT. Laws/KeepsLapCmds.lean: what the meanings of Machine/LapCmds.lean keep (`Keeps`).
-/

namespace Sys2Proof.Machine

theorem execLapBoundary_keeps {k : Nat} {s t : State} {target : BitVec 25} {meters : List FeederLap} (hk : k &&& 16646142 = 16646142)
    (h : execLapBoundary target meters s = .next t) : Keeps k s t := by
  refine act_keeps (keeps_sub hk rfl) (fun u hu => ?_) h
  repeat' first
    | with_reducible assumption
    | with_reducible refine State.lapBoundary_keeps (keeps_sub hk rfl) ?_
    | intro _

theorem execMainsCrossing_keeps {k : Nat} {s t : State} {feeder : Bool} {deviation : BitVec 32} {freq : BitVec 17} (hk : k &&& 6 = 6)
    (h : execMainsCrossing feeder deviation freq s = .next t) : Keeps k s t := by
  refine act_keeps (keeps_sub hk rfl) (fun u hu => ?_) h
  repeat' first
    | with_reducible assumption
    | with_reducible refine State.crossing_keeps (keeps_sub hk rfl) ?_
    | intro _

theorem execMissingCrossing_keeps {k : Nat} {s t : State} {feeder : Bool} (hk : k &&& 6 = 6)
    (h : execMissingCrossing feeder s = .next t) : Keeps k s t := by
  refine act_keeps (keeps_sub hk rfl) (fun u hu => ?_) h
  repeat' first
    | with_reducible assumption
    | with_reducible refine State.crossingMissing_keeps (keeps_sub hk rfl) ?_
    | intro _

theorem execLapSrcWrite_keeps {k : Nat} {s t : State} {src : Src} {value : Word} (hk : k &&& 16777215 = 16777215)
    (h : execLapSrcWrite src value s = .next t) : Keeps k s t := by
  refine act_keeps (keeps_sub hk rfl) (fun u hu => ?_) h
  repeat' first
    | with_reducible assumption
    | with_reducible refine State.write1_keeps (keeps_sub hk rfl) ?_
    | intro _

theorem execFreePeriodWrite_keeps {k : Nat} {s t : State} {src : Src} {value : Word} (hk : k &&& 16777215 = 16777215)
    (h : execFreePeriodWrite src value s = .next t) : Keeps k s t := by
  refine act_keeps (keeps_sub hk rfl) (fun u hu => ?_) h
  repeat' first
    | with_reducible assumption
    | with_reducible refine State.write1_keeps (keeps_sub hk rfl) ?_
    | intro _

theorem execSlewDone_keeps {k : Nat} {s t : State} (hk : k &&& 262 = 262)
    (h : execSlewDone s = .next t) : Keeps k s t := by
  refine act_keeps (keeps_sub hk rfl) (fun u hu => ?_) h
  repeat' first
    | with_reducible assumption
    | with_reducible refine State.slewEnd_keeps (keeps_sub hk rfl) ?_
    | with_reducible refine Keeps.only ?_ ?_
    | intro _

theorem execCountLoRead_keeps {k : Nat} {s t : State} {src : Src} (hk : k &&& 11796963 = 11796963)
    (h : execCountLoRead src s = .next t) : Keeps k s t := by
  refine act_keeps (keeps_sub hk rfl) (fun u hu => ?_) h
  repeat' first
    | with_reducible assumption
    | with_reducible refine State.opRead_keeps (keeps_sub hk rfl) ?_
    | intro _

theorem execPacerGrant_keeps {k : Nat} {s t : State} {resource : Fin 4} {pending : PacerAsk} (hk : k &&& 8389634 = 8389634)
    (h : execPacerGrant resource pending s = .next t) : Keeps k s t := by
  refine act_keeps (keeps_sub hk rfl) (fun u hu => ?_) h
  repeat' first
    | with_reducible assumption
    | with_reducible refine State.pacerGrant_keeps (keeps_sub hk rfl) ?_
    | intro _

theorem execBatonGrant_keeps {k : Nat} {s t : State} (hk : k &&& 8473910 = 8473910)
    (h : execBatonGrant s = .next t) : Keeps k s t := by
  refine act_keeps (keeps_sub hk rfl) (fun u hu => ?_) h
  repeat' first
    | with_reducible assumption
    | with_reducible refine State.batonGrant_keeps (keeps_sub hk rfl) ?_
    | intro _

theorem execBatonAge_keeps {k : Nat} {s t : State} {who : Fin 6} (hk : k &&& 6 = 6)
    (h : execBatonAge who s = .next t) : Keeps k s t := by
  refine act_keeps (keeps_sub hk rfl) (fun u hu => ?_) h
  repeat' first
    | with_reducible assumption
    | with_reducible refine State.batonAge_keeps (keeps_sub hk rfl) ?_
    | intro _

theorem execBatonWaitTimeout_keeps {k : Nat} {s t : State} (hk : k &&& 3330 = 3330)
    (h : execBatonWaitTimeout s = .next t) : Keeps k s t := by
  refine act_keeps (keeps_sub hk rfl) (fun u hu => ?_) h
  repeat' first
    | with_reducible assumption
    | with_reducible refine State.burstNarrow_keeps (keeps_sub hk rfl) ?_
    | intro _

end Sys2Proof.Machine
end

