-- ==== Sys2Proof/Laws/KeepsLoopCmds.lean ====
section
/-!
SUPPORT. Laws/KeepsLoopCmds.lean: what the meanings of Machine/LoopCmds.lean keep (`Keeps`).
-/

namespace Sys2Proof.Machine

theorem execLoopSample_keeps {k : Nat} {s t : State} {loop : Fin 64} {busy : Bool} {delay : BitVec 16} (hk : k &&& 8438022 = 8438022)
    (h : execLoopSample loop busy delay s = .next t) : Keeps k s t := by
  refine act_keeps (keeps_sub hk rfl) (fun u hu => ?_) h
  repeat' first
    | with_reducible assumption
    | with_reducible refine State.loopSample_keeps (keeps_sub hk rfl) ?_
    | intro _

theorem execLoopRun_keeps {k : Nat} {s t : State} {src : Src} {loop : Fin 64} {on : Bool} (hk : k &&& 16777215 = 16777215)
    (h : execLoopRun src loop on s = .next t) : Keeps k s t := by
  refine act_keeps (keeps_sub hk rfl) (fun u hu => ?_) h
  repeat' first
    | with_reducible assumption
    | with_reducible refine State.write1_keeps (keeps_sub hk rfl) ?_
    | intro _

theorem execLoopSwap_keeps {k : Nat} {s t : State} {src : Src} {loop : Fin 64} {on : Bool} (hk : k &&& 16777215 = 16777215)
    (h : execLoopSwap src loop on s = .next t) : Keeps k s t := by
  refine act_keeps (keeps_sub hk rfl) (fun u hu => ?_) h
  repeat' first
    | with_reducible assumption
    | with_reducible refine State.write1_keeps (keeps_sub hk rfl) ?_
    | intro _

theorem execLoopReset_keeps {k : Nat} {s t : State} {src : Src} {loop : Fin 64} {on : Bool} (hk : k &&& 16777215 = 16777215)
    (h : execLoopReset src loop on s = .next t) : Keeps k s t := by
  refine act_keeps (keeps_sub hk rfl) (fun u hu => ?_) h
  repeat' first
    | with_reducible assumption
    | with_reducible refine State.write1_keeps (keeps_sub hk rfl) ?_
    | intro _

theorem execCoefWrite_keeps {k : Nat} {s t : State} {src : Src} {loop : Fin 64} {bank : Fin 2} {stage : Fin 8} {k' : Fin 6} {value : Word} (hk : k &&& 16777215 = 16777215)
    (h : execCoefWrite src loop bank stage k' value s = .next t) : Keeps k s t := by
  refine act_keeps (keeps_sub hk rfl) (fun u hu => ?_) h
  repeat' first
    | with_reducible assumption
    | with_reducible refine State.write1_keeps (keeps_sub hk rfl) ?_
    | intro _

end Sys2Proof.Machine
end

