-- ==== Sys2Proof/Laws/KeepsMtrCmds.lean ====
section
/-!
SUPPORT. Laws/KeepsMtrCmds.lean: what the meanings of Machine/MtrCmds.lean keep (`Keeps`).
-/

namespace Sys2Proof.Machine

theorem execModFault_keeps {k : Nat} {s t : State} {feeder : Fin 4} {ch : Fin 6} {kind : ModFault} {present : Bool} (hk : k &&& 262534 = 262534)
    (h : execModFault feeder ch kind present s = .next t) : Keeps k s t := by
  refine act_keeps (keeps_sub hk rfl) (fun u hu => ?_) h
  repeat' first
    | with_reducible assumption
    | with_reducible refine State.modFault_keeps (keeps_sub hk rfl) ?_
    | intro _

theorem execHarmonicWindow_keeps {k : Nat} {s t : State} {feeder : Fin 4} {freq : BitVec 32} {bins : List (List Nat)} (hk : k &&& 2 = 2)
    (h : execHarmonicWindow feeder freq bins s = .next t) : Keeps k s t := by
  refine act_keeps (keeps_sub hk rfl) (fun u hu => ?_) h
  repeat' first
    | with_reducible assumption
    | with_reducible refine State.harmonics_keeps (keeps_sub hk rfl) ?_
    | intro _

theorem execSnap_keeps {k : Nat} {s t : State} {src : Src} {on : Bool} (hk : k &&& 16777215 = 16777215)
    (h : execSnap src on s = .next t) : Keeps k s t := by
  refine act_keeps (keeps_sub hk rfl) (fun u hu => ?_) h
  repeat' first
    | with_reducible assumption
    | with_reducible refine State.write1_keeps (keeps_sub hk rfl) ?_
    | intro _

theorem execNvsave_keeps {k : Nat} {s t : State} {ok : Bool} (hk : k &&& 8650754 = 8650754)
    (h : execNvsave ok s = .next t) : Keeps k s t := by
  refine act_keeps (keeps_sub hk rfl) (fun u hu => ?_) h
  repeat' first
    | with_reducible assumption
    | with_reducible refine State.mtrSave_keeps (keeps_sub hk rfl) ?_
    | intro _

theorem execMtrLoRead_keeps {k : Nat} {s t : State} {src : Src} {addr : Word} (hk : k &&& 11796963 = 11796963)
    (h : execMtrLoRead src addr s = .next t) : Keeps k s t := by
  refine act_keeps (keeps_sub hk rfl) (fun u hu => ?_) h
  repeat' first
    | with_reducible assumption
    | with_reducible refine State.opRead_keeps (keeps_sub hk rfl) ?_
    | intro _

end Sys2Proof.Machine
end

