-- ==== Sys2Proof/Laws/KeepsNvsCmds.lean ====
section
/-!
SUPPORT. Laws/KeepsNvsCmds.lean: what the meanings of Machine/NvsCmds.lean keep (`Keeps`).
-/

namespace Sys2Proof.Machine

theorem execPageProgram_keeps {k : Nat} {s t : State} {writer : PageWriter} {rb : ReadBack} (hk : k &&& 16777215 = 16777215)
    (h : execPageProgram writer rb s = .next t) : Keeps k s t := by
  refine act_keeps (keeps_sub hk rfl) (fun u hu => ?_) h
  repeat' first
    | with_reducible assumption
    | with_reducible refine State.pageProgram_keeps (keeps_sub hk rfl) ?_
    | intro _

theorem execUnlock_keeps {k : Nat} {s t : State} {src : Src} {region : BitVec 3} {isWrite : Bool} (hk : k &&& 16777215 = 16777215)
    (h : execUnlock src region isWrite s = .next t) : Keeps k s t := by
  refine act_keeps (keeps_sub hk rfl) (fun u hu => ?_) h
  repeat' first
    | with_reducible assumption
    | with_reducible refine State.write1_keeps (keeps_sub hk rfl) ?_
    | intro _

theorem execPwLockoutEnd_keeps {k : Nat} {s t : State} {region : BitVec 3} (hk : k &&& 34 = 34)
    (h : execPwLockoutEnd region s = .next t) : Keeps k s t := by
  refine act_keeps (keeps_sub hk rfl) (fun u hu => ?_) h
  repeat' first
    | with_reducible assumption
    | with_reducible refine State.pwLockoutEnd_keeps (keeps_sub hk rfl) ?_
    | intro _

theorem execPwset_keeps {k : Nat} {s t : State} {src : Src} {region : BitVec 3} {isWrite clear : Bool} (hk : k &&& 16777215 = 16777215)
    (h : execPwset src region isWrite clear s = .next t) : Keeps k s t := by
  refine act_keeps (keeps_sub hk rfl) (fun u hu => ?_) h
  repeat' first
    | with_reducible assumption
    | with_reducible refine State.write1_keeps (keeps_sub hk rfl) ?_
    | intro _

theorem execNvLock_keeps {k : Nat} {s t : State} {src : Src} (hk : k &&& 16777215 = 16777215)
    (h : execNvLock src s = .next t) : Keeps k s t := by
  refine act_keeps (keeps_sub hk rfl) (fun u hu => ?_) h
  repeat' first
    | with_reducible assumption
    | with_reducible refine State.write1_keeps (keeps_sub hk rfl) ?_
    | intro _

theorem execNvStore_keeps {k : Nat} {s t : State} {src : Src} (hk : k &&& 16777215 = 16777215)
    (h : execNvStore src s = .next t) : Keeps k s t := by
  refine act_keeps (keeps_sub hk rfl) (fun u hu => ?_) h
  repeat' first
    | with_reducible assumption
    | with_reducible refine State.write1_keeps (keeps_sub hk rfl) ?_
    | intro _

theorem execStoreDone_keeps {k : Nat} {s t : State} {rb : ReadBack} (hk : k &&& 8388902 = 8388902)
    (h : execStoreDone rb s = .next t) : Keeps k s t := by
  refine act_keeps (keeps_sub hk rfl) (fun u hu => ?_) h
  repeat' first
    | with_reducible assumption
    | with_reducible refine State.storeEnd_keeps (keeps_sub hk rfl) ?_
    | intro _

theorem execCryptWrite_keeps {k : Nat} {s t : State} {src : Src} {region : BitVec 3} {on : Bool} (hk : k &&& 16777215 = 16777215)
    (h : execCryptWrite src region on s = .next t) : Keeps k s t := by
  refine act_keeps (keeps_sub hk rfl) (fun u hu => ?_) h
  repeat' first
    | with_reducible assumption
    | with_reducible refine State.write1_keeps (keeps_sub hk rfl) ?_
    | intro _

theorem execTallyInc_keeps {k : Nat} {s t : State} {src : Src} (hk : k &&& 16777215 = 16777215)
    (h : execTallyInc src s = .next t) : Keeps k s t := by
  refine act_keeps (keeps_sub hk rfl) (fun u hu => ?_) h
  repeat' first
    | with_reducible assumption
    | with_reducible refine State.write1_keeps (keeps_sub hk rfl) ?_
    | intro _

theorem execIncrementDone_keeps {k : Nat} {s t : State} {tally : Fin 512} {rb : ReadBack} {fold : ReadBack} (hk : k &&& 8393010 = 8393010)
    (h : execIncrementDone tally rb fold s = .next t) : Keeps k s t := by
  refine act_keeps (keeps_sub hk rfl) (fun u hu => ?_) h
  repeat' first
    | with_reducible assumption
    | with_reducible refine State.incrementDone_keeps (keeps_sub hk rfl) ?_
    | intro _

end Sys2Proof.Machine
end

