-- ==== Sys2Proof/Laws/KeepsPairCmds.lean ====
section
/-!
SUPPORT. Laws/KeepsPairCmds.lean: what the meanings of Machine/PairCmds.lean keep (`Keeps`).
-/

namespace Sys2Proof.Machine

theorem execIntlkInChange_keeps {k : Nat} {s t : State} {level : Bool} (hk : k &&& 8194 = 8194)
    (h : execIntlkInChange level s = .next t) : Keeps k s t := by
  injection h with e
  rw [← e]
  repeat' first
    | with_reducible exact Keeps.refl _
    | with_reducible refine State.clearSent_keeps (keeps_sub hk rfl) ?_
    | with_reducible assumption
    | with_reducible refine State.clearSent_keeps (keeps_sub hk rfl) ?_
    | with_reducible refine State.intlkChange_keeps (keeps_sub hk rfl) ?_
    | with_reducible refine State.intlkOff_keeps (keeps_sub hk rfl) ?_
    | with_reducible refine Keeps.cond ?_ ?_
    | intro _

theorem execGrantInChange_keeps {k : Nat} {s t : State} {level : Bool} (hk : k &&& 8450 = 8450)
    (h : execGrantInChange level s = .next t) : Keeps k s t := by
  injection h with e
  rw [← e]
  repeat' first
    | with_reducible exact Keeps.refl _
    | with_reducible refine State.clearSent_keeps (keeps_sub hk rfl) ?_
    | with_reducible assumption
    | with_reducible refine State.clearSent_keeps (keeps_sub hk rfl) ?_
    | with_reducible refine State.grantChange_keeps (keeps_sub hk rfl) ?_
    | with_reducible refine State.grantOff_keeps (keeps_sub hk rfl) ?_
    | with_reducible refine Keeps.cond ?_ ?_
    | intro _

theorem execGrantMessage_keeps {k : Nat} {s t : State} {port : Fin 3} {payload : List Byte} (hk : k &&& 532738 = 532738)
    (h : execGrantMessage port payload s = .next t) : Keeps k s t := by
  refine act_keeps (keeps_sub hk rfl) (fun u hu => ?_) h
  repeat' first
    | with_reducible assumption
    | with_reducible refine State.ethTake_keeps (keeps_sub hk rfl) ?_ ?_
    | with_reducible refine State.grantMsg_keeps (keeps_sub hk rfl) ?_
    | with_reducible refine Keeps.only ?_ ?_
    | intro _

theorem execOwlLost_keeps {k : Nat} {s t : State} (hk : k &&& 2 = 2)
    (h : execOwlLost s = .next t) : Keeps k s t := by
  refine act_keeps (keeps_sub hk rfl) (fun u hu => ?_) h
  repeat' first
    | with_reducible assumption
    | with_reducible refine State.owlLost_keeps (keeps_sub hk rfl) ?_
    | intro _

theorem execHeartbeat_keeps {k : Nat} {s t : State} (hk : k &&& 8396802 = 8396802)
    (h : execHeartbeat s = .next t) : Keeps k s t := by
  refine act_keeps (keeps_sub hk rfl) (fun u hu => ?_) h
  repeat' first
    | with_reducible assumption
    | with_reducible refine State.heartbeatLap_keeps (keeps_sub hk rfl) ?_
    | intro _

theorem execTakeActive_keeps {k : Nat} {s t : State} (hk : k &&& 8775082 = 8775082)
    (h : execTakeActive s = .next t) : Keeps k s t := by
  refine act_keeps (keeps_sub hk rfl) (fun u hu => ?_) h
  repeat' first
    | with_reducible assumption
    | with_reducible refine State.takeActive_keeps (keeps_sub hk rfl) ?_
    | intro _

theorem execLeaveActive_keeps {k : Nat} {s t : State} (hk : k &&& 9486 = 9486)
    (h : execLeaveActive s = .next t) : Keeps k s t := by
  refine act_keeps (keeps_sub hk rfl) (fun u hu => ?_) h
  repeat' first
    | with_reducible assumption
    | with_reducible refine State.leaveActive_keeps (keeps_sub hk rfl) ?_
    | intro _

theorem execJoin_keeps {k : Nat} {s t : State} {src : Src} {partner : Option Partner} (hk : k &&& 16777215 = 16777215)
    (h : execJoin src partner s = .next t) : Keeps k s t := by
  refine act_keeps (keeps_sub hk rfl) (fun u hu => ?_) h
  repeat' first
    | with_reducible assumption
    | with_reducible refine State.write1_keeps (keeps_sub hk rfl) ?_
    | intro _
    | with_reducible refine Keeps.set_pair (keeps_sub hk rfl) ?_

theorem execAutojoin_keeps {k : Nat} {s t : State} {partner : Partner} (hk : k &&& 8450 = 8450)
    (h : execAutojoin partner s = .next t) : Keeps k s t := by
  refine act_keeps (keeps_sub hk rfl) (fun u hu => ?_) h
  repeat' first
    | with_reducible assumption
    | with_reducible refine State.joinWith_keeps (keeps_sub hk rfl) ?_
    | with_reducible refine Keeps.only ?_ ?_
    | intro _

theorem execHandover_keeps {k : Nat} {s t : State} {src : Src} {on : Bool} (hk : k &&& 16777215 = 16777215)
    (h : execHandover src on s = .next t) : Keeps k s t := by
  refine act_keeps (keeps_sub hk rfl) (fun u hu => ?_) h
  repeat' first
    | with_reducible assumption
    | with_reducible refine State.write1_keeps (keeps_sub hk rfl) ?_
    | intro _

theorem execBulkDone_keeps {k : Nat} {s t : State} {warm user : List (Nat × Byte)} {epochTally : Word} (hk : k &&& 8659234 = 8659234)
    (h : execBulkDone warm user epochTally s = .next t) : Keeps k s t := by
  refine act_keeps (keeps_sub hk rfl) (fun u hu => ?_) h
  repeat' first
    | with_reducible assumption
    | with_reducible refine State.bulkDone_keeps (keeps_sub hk rfl) ?_
    | intro _

theorem execMirrorUnit_keeps {k : Nat} {s t : State} {unit : MirrorUnit} {whole macOk : Bool} {late : BitVec 8} (hk : k &&& 9253162 = 9253162)
    (h : execMirrorUnit unit whole macOk late s = .next t) : Keeps k s t := by
  refine act_keeps (keeps_sub hk rfl) (fun u hu => ?_) h
  repeat' first
    | with_reducible assumption
    | with_reducible refine State.mirrorUnit_keeps (keeps_sub hk rfl) ?_
    | intro _

theorem execDispatchState_keeps {k : Nat} {s t : State} {whole : Bool} {accepted : Option Traj} {toStart : Option Nat} {header setpoints : List Byte} {streams : List (List Word)} (hk : k &&& 1286 = 1286)
    (h : execDispatchState whole accepted toStart header setpoints streams s = .next t) : Keeps k s t := by
  refine act_keeps (keeps_sub hk rfl) (fun u hu => ?_) h
  repeat' first
    | with_reducible assumption
    | with_reducible refine State.dispatchState_keeps (keeps_sub hk rfl) ?_
    | intro _

theorem execLinkTimeout_keeps {k : Nat} {s t : State} {expired : Bool} (hk : k &&& 258 = 258)
    (h : execLinkTimeout expired s = .next t) : Keeps k s t := by
  refine act_keeps (keeps_sub hk rfl) (fun u hu => ?_) h
  repeat' first
    | with_reducible assumption
    | with_reducible refine State.linkTest_keeps (keeps_sub hk rfl) ?_
    | intro _

theorem execSyncLoss_keeps {k : Nat} {s t : State} {cause : SyncLoss} (hk : k &&& 8450 = 8450)
    (h : execSyncLoss cause s = .next t) : Keeps k s t := by
  refine act_keeps (keeps_sub hk rfl) (fun u hu => ?_) h
  repeat' first
    | with_reducible assumption
    | with_reducible refine State.syncLoss_keeps (keeps_sub hk rfl) ?_
    | intro _

theorem execWitnessHeartbeat_keeps {k : Nat} {s t : State} {port : Fin 3} {payload : List Byte} (hk : k &&& 533250 = 533250)
    (h : execWitnessHeartbeat port payload s = .next t) : Keeps k s t := by
  refine act_keeps (keeps_sub hk rfl) (fun u hu => ?_) h
  repeat' first
    | with_reducible assumption
    | with_reducible refine State.ethTake_keeps (keeps_sub hk rfl) ?_ ?_
    | with_reducible refine State.witnessHear_keeps (keeps_sub hk rfl) ?_
    | with_reducible refine Keeps.only ?_ ?_
    | intro _

theorem execGrantMove_keeps {k : Nat} {s t : State} (hk : k &&& 8194 = 8194)
    (h : execGrantMove s = .next t) : Keeps k s t := by
  refine act_keeps (keeps_sub hk rfl) (fun u hu => ?_) h
  repeat' first
    | with_reducible assumption
    | with_reducible refine State.grantMoveBegin_keeps (keeps_sub hk rfl) ?_
    | intro _

theorem execGrantAssert_keeps {k : Nat} {s t : State} (hk : k &&& 8396802 = 8396802)
    (h : execGrantAssert s = .next t) : Keeps k s t := by
  refine act_keeps (keeps_sub hk rfl) (fun u hu => ?_) h
  repeat' first
    | with_reducible assumption
    | with_reducible refine State.grantAssertLine_keeps (keeps_sub hk rfl) ?_
    | intro _

theorem execMove_keeps {k : Nat} {s t : State} {src : Src} (hk : k &&& 16777215 = 16777215)
    (h : execMove src s = .next t) : Keeps k s t := by
  refine act_keeps (keeps_sub hk rfl) (fun u hu => ?_) h
  repeat' first
    | with_reducible assumption
    | with_reducible refine State.write1_keeps (keeps_sub hk rfl) ?_
    | intro _

theorem execMirrorAcknowledge_keeps {k : Nat} {s t : State} {epoch : BitVec 64} {sync : Bool} (hk : k &&& 8202 = 8202)
    (h : execMirrorAcknowledge epoch sync s = .next t) : Keeps k s t := by
  refine act_keeps (keeps_sub hk rfl) (fun u hu => ?_) h
  repeat' first
    | with_reducible assumption
    | with_reducible refine State.mirrorAcked_keeps (keeps_sub hk rfl) ?_
    | intro _

end Sys2Proof.Machine
end

