-- ==== Sys2Proof/Laws/KeepsPtpCmds.lean ====
section
/-!
SUPPORT. Laws/KeepsPtpCmds.lean: what the meanings of Machine/PtpCmds.lean keep (`Keeps`).
-/

namespace Sys2Proof.Machine

theorem execAnnounce_keeps {k : Nat} {s t : State} {port : Fin 3} {payload : List Byte} (hk : k &&& 9961862 = 9961862)
    (h : execAnnounce port payload s = .next t) : Keeps k s t := by
  refine act_keeps (keeps_sub hk rfl) (fun u hu => ?_) h
  repeat' first
    | with_reducible assumption
    | with_reducible refine State.ptpAnnounce_keeps (keeps_sub hk rfl) ?_
    | intro _

theorem execSync_keeps {k : Nat} {s t : State} {port : Fin 3} {payload : List Byte} {within : BitVec 20} (hk : k &&& 9961862 = 9961862)
    (h : execSync port payload within s = .next t) : Keeps k s t := by
  refine act_keeps (keeps_sub hk rfl) (fun u hu => ?_) h
  repeat' first
    | with_reducible assumption
    | with_reducible refine State.ptpSyncMsg_keeps (keeps_sub hk rfl) ?_
    | intro _

theorem execFollowUp_keeps {k : Nat} {s t : State} {port : Fin 3} {payload : List Byte} (hk : k &&& 9961862 = 9961862)
    (h : execFollowUp port payload s = .next t) : Keeps k s t := by
  refine act_keeps (keeps_sub hk rfl) (fun u hu => ?_) h
  repeat' first
    | with_reducible assumption
    | with_reducible refine State.ptpFollowUp_keeps (keeps_sub hk rfl) ?_
    | intro _

theorem execDelayResp_keeps {k : Nat} {s t : State} {port : Fin 3} {payload : List Byte} (hk : k &&& 9961730 = 9961730)
    (h : execDelayResp port payload s = .next t) : Keeps k s t := by
  refine act_keeps (keeps_sub hk rfl) (fun u hu => ?_) h
  repeat' first
    | with_reducible assumption
    | with_reducible refine State.ptpDelayResp_keeps (keeps_sub hk rfl) ?_
    | intro _

theorem execDelayReq_keeps {k : Nat} {s t : State} {domain : Fin 2} {within : BitVec 20} (hk : k &&& 9437186 = 9437186)
    (h : execDelayReq domain within s = .next t) : Keeps k s t := by
  refine act_keeps (keeps_sub hk rfl) (fun u hu => ?_) h
  repeat' first
    | with_reducible assumption
    | with_reducible refine State.ptpDelayReq_keeps (keeps_sub hk rfl) ?_
    | intro _

theorem execAnnounceTimeout_keeps {k : Nat} {s t : State} {domain : Fin 2} (hk : k &&& 1048966 = 1048966)
    (h : execAnnounceTimeout domain s = .next t) : Keeps k s t := by
  refine act_keeps (keeps_sub hk rfl) (fun u hu => ?_) h
  repeat' first
    | with_reducible assumption
    | with_reducible refine State.announceTimeout_keeps (keeps_sub hk rfl) ?_
    | intro _

theorem execSyncTimeout_keeps {k : Nat} {s t : State} {domain : Fin 2} (hk : k &&& 1048966 = 1048966)
    (h : execSyncTimeout domain s = .next t) : Keeps k s t := by
  refine act_keeps (keeps_sub hk rfl) (fun u hu => ?_) h
  repeat' first
    | with_reducible assumption
    | with_reducible refine State.syncTimeout_keeps (keeps_sub hk rfl) ?_
    | intro _

theorem execRampEnd_keeps {k : Nat} {s t : State} (hk : k &&& 1048578 = 1048578)
    (h : execRampEnd s = .next t) : Keeps k s t := by
  refine act_keeps (keeps_sub hk rfl) (fun u hu => ?_) h
  repeat' first
    | with_reducible assumption
    | with_reducible refine State.rampFinish_keeps (keeps_sub hk rfl) ?_
    | intro _

theorem execRevertLead_keeps {k : Nat} {s t : State} (hk : k &&& 1048834 = 1048834)
    (h : execRevertLead s = .next t) : Keeps k s t := by
  refine act_keeps (keeps_sub hk rfl) (fun u hu => ?_) h
  repeat' first
    | with_reducible assumption
    | with_reducible refine State.revertLead_keeps (keeps_sub hk rfl) ?_
    | intro _

theorem execHoldExpire_keeps {k : Nat} {s t : State} (hk : k &&& 1048838 = 1048838)
    (h : execHoldExpire s = .next t) : Keeps k s t := by
  refine act_keeps (keeps_sub hk rfl) (fun u hu => ?_) h
  repeat' first
    | with_reducible assumption
    | with_reducible refine State.holdExpire_keeps (keeps_sub hk rfl) ?_
    | intro _

theorem execReacq_keeps {k : Nat} {s t : State} {src : Src} (hk : k &&& 16777215 = 16777215)
    (h : execReacq src s = .next t) : Keeps k s t := by
  refine act_keeps (keeps_sub hk rfl) (fun u hu => ?_) h
  repeat' first
    | with_reducible assumption
    | with_reducible refine State.write1_keeps (keeps_sub hk rfl) ?_
    | intro _

theorem execPtpEn_keeps {k : Nat} {s t : State} {src : Src} {on : Bool} (hk : k &&& 16777215 = 16777215)
    (h : execPtpEn src on s = .next t) : Keeps k s t := by
  refine act_keeps (keeps_sub hk rfl) (fun u hu => ?_) h
  repeat' first
    | with_reducible assumption
    | with_reducible refine State.write1_keeps (keeps_sub hk rfl) ?_
    | intro _

theorem execFreerun_keeps {k : Nat} {s t : State} {src : Src} {on : Bool} (hk : k &&& 16777215 = 16777215)
    (h : execFreerun src on s = .next t) : Keeps k s t := by
  refine act_keeps (keeps_sub hk rfl) (fun u hu => ?_) h
  repeat' first
    | with_reducible assumption
    | with_reducible refine State.write1_keeps (keeps_sub hk rfl) ?_
    | intro _

theorem execPtpStep_keeps {k : Nat} {s t : State} {src : Src} (hk : k &&& 16777215 = 16777215)
    (h : execPtpStep src s = .next t) : Keeps k s t := by
  refine act_keeps (keeps_sub hk rfl) (fun u hu => ?_) h
  repeat' first
    | with_reducible assumption
    | with_reducible refine State.write1_keeps (keeps_sub hk rfl) ?_
    | intro _

theorem execRateWrite_keeps {k : Nat} {s t : State} {src : Src} {value : Word} (hk : k &&& 16777215 = 16777215)
    (h : execRateWrite src value s = .next t) : Keeps k s t := by
  refine act_keeps (keeps_sub hk rfl) (fun u hu => ?_) h
  repeat' first
    | with_reducible assumption
    | with_reducible refine State.write1_keeps (keeps_sub hk rfl) ?_
    | intro _

theorem execDomCfgWrite_keeps {k : Nat} {s t : State} {src : Src} {domain : Fin 2} {value : Word} (hk : k &&& 16777215 = 16777215)
    (h : execDomCfgWrite src domain value s = .next t) : Keeps k s t := by
  refine act_keeps (keeps_sub hk rfl) (fun u hu => ?_) h
  repeat' first
    | with_reducible assumption
    | with_reducible refine State.write1_keeps (keeps_sub hk rfl) ?_
    | intro _

theorem execNowRead_keeps {k : Nat} {s t : State} {src : Src} (hk : k &&& 11796963 = 11796963)
    (h : execNowRead src s = .next t) : Keeps k s t := by
  refine act_keeps (keeps_sub hk rfl) (fun u hu => ?_) h
  repeat' first
    | with_reducible assumption
    | with_reducible refine State.opRead_keeps (keeps_sub hk rfl) ?_
    | intro _

end Sys2Proof.Machine
end

