-- ==== Sys2Proof/Laws/KeepsRtcCmds.lean ====
section
/-!
SUPPORT. Laws/KeepsRtcCmds.lean: what the meanings of Machine/RtcCmds.lean keep (`Keeps`).
-/

namespace Sys2Proof.Machine

theorem execRtcLoad_keeps {k : Nat} {s t : State} {src : Src} (hk : k &&& 16777215 = 16777215)
    (h : execRtcLoad src s = .next t) : Keeps k s t := by
  refine act_keeps (keeps_sub hk rfl) (fun u hu => ?_) h
  repeat' first
    | with_reducible assumption
    | with_reducible refine State.write1_keeps (keeps_sub hk rfl) ?_
    | intro _

theorem execDstfwd_keeps {k : Nat} {s t : State} {src : Src} (hk : k &&& 16777215 = 16777215)
    (h : execDstfwd src s = .next t) : Keeps k s t := by
  refine act_keeps (keeps_sub hk rfl) (fun u hu => ?_) h
  repeat' first
    | with_reducible assumption
    | with_reducible refine State.write1_keeps (keeps_sub hk rfl) ?_
    | intro _

theorem execDstback_keeps {k : Nat} {s t : State} {src : Src} (hk : k &&& 16777215 = 16777215)
    (h : execDstback src s = .next t) : Keeps k s t := by
  refine act_keeps (keeps_sub hk rfl) (fun u hu => ?_) h
  repeat' first
    | with_reducible assumption
    | with_reducible refine State.write1_keeps (keeps_sub hk rfl) ?_
    | intro _

theorem execRtcRelease_keeps {k : Nat} {s t : State} {src : Src} (hk : k &&& 16777215 = 16777215)
    (h : execRtcRelease src s = .next t) : Keeps k s t := by
  refine act_keeps (keeps_sub hk rfl) (fun u hu => ?_) h
  repeat' first
    | with_reducible assumption
    | with_reducible refine State.write1_keeps (keeps_sub hk rfl) ?_
    | intro _

theorem execSecondCarry_keeps {k : Nat} {s t : State} (hk : k &&& 2097410 = 2097410)
    (h : execSecondCarry s = .next t) : Keeps k s t := by
  injection h with e
  rw [← e]
  repeat' first
    | with_reducible exact Keeps.refl _
    | with_reducible refine State.clearSent_keeps (keeps_sub hk rfl) ?_
    | with_reducible assumption
    | with_reducible refine State.clearSent_keeps (keeps_sub hk rfl) ?_
    | with_reducible refine State.secondCarry_keeps (keeps_sub hk rfl) ?_
    | with_reducible refine Keeps.cond ?_ ?_
    | intro _

theorem execRtcRead_keeps {k : Nat} {s t : State} {src : Src} {addr : Word} (hk : k &&& 11796963 = 11796963)
    (h : execRtcRead src addr s = .next t) : Keeps k s t := by
  refine act_keeps (keeps_sub hk rfl) (fun u hu => ?_) h
  repeat' first
    | with_reducible assumption
    | with_reducible refine State.opRead_keeps (keeps_sub hk rfl) ?_
    | intro _

theorem execFreezeTimeout_keeps {k : Nat} {s t : State} {slot : Fin 32} (hk : k &&& 2097154 = 2097154)
    (h : execFreezeTimeout slot s = .next t) : Keeps k s t := by
  refine act_keeps (keeps_sub hk rfl) (fun u hu => ?_) h
  repeat' first
    | with_reducible assumption
    | with_reducible refine State.freezeTimeout_keeps (keeps_sub hk rfl) ?_
    | intro _

theorem execPtpHourSet_keeps {k : Nat} {s t : State} (hk : k &&& 3146114 = 3146114)
    (h : execPtpHourSet s = .next t) : Keeps k s t := by
  refine act_keeps (keeps_sub hk rfl) (fun u hu => ?_) h
  repeat' first
    | with_reducible assumption
    | with_reducible refine State.ptpHourSet_keeps (keeps_sub hk rfl) ?_
    | intro _

theorem execTrimWindow_keeps {k : Nat} {s t : State} {n : BitVec 32} (hk : k &&& 3145986 = 3145986)
    (h : execTrimWindow n s = .next t) : Keeps k s t := by
  refine act_keeps (keeps_sub hk rfl) (fun u hu => ?_) h
  repeat' first
    | with_reducible assumption
    | with_reducible refine State.trimWindow_keeps (keeps_sub hk rfl) ?_
    | intro _

theorem execTrimWrite_keeps {k : Nat} {s t : State} {src : Src} {value : Word} (hk : k &&& 16777215 = 16777215)
    (h : execTrimWrite src value s = .next t) : Keeps k s t := by
  refine act_keeps (keeps_sub hk rfl) (fun u hu => ?_) h
  repeat' first
    | with_reducible assumption
    | with_reducible refine State.write1_keeps (keeps_sub hk rfl) ?_
    | intro _

theorem execWake_keeps {k : Nat} {s t : State} (hk : k &&& 258 = 258)
    (h : execWake s = .next t) : Keeps k s t := by
  injection h with e
  rw [← e]
  repeat' first
    | with_reducible exact Keeps.refl _
    | with_reducible refine State.clearSent_keeps (keeps_sub hk rfl) ?_
    | with_reducible assumption
    | with_reducible refine State.clearSent_keeps (keeps_sub hk rfl) ?_
    | with_reducible refine State.wake_keeps (keeps_sub hk rfl) ?_
    | with_reducible refine Keeps.cond ?_ ?_
    | intro _

theorem execBoost_keeps {k : Nat} {s t : State} {src : Src} (hk : k &&& 16777215 = 16777215)
    (h : execBoost src s = .next t) : Keeps k s t := by
  refine act_keeps (keeps_sub hk rfl) (fun u hu => ?_) h
  repeat' first
    | with_reducible assumption
    | with_reducible refine State.write1_keeps (keeps_sub hk rfl) ?_
    | intro _

theorem execBoostEnd_keeps {k : Nat} {s t : State} {done : Bool} (hk : k &&& 6 = 6)
    (h : execBoostEnd done s = .next t) : Keeps k s t := by
  refine act_keeps (keeps_sub hk rfl) (fun u hu => ?_) h
  repeat' first
    | with_reducible assumption
    | with_reducible refine State.boostEnd_keeps (keeps_sub hk rfl) ?_
    | intro _

theorem execBatCheck_keeps {k : Nat} {s t : State} {mv : BitVec 16} (hk : k &&& 258 = 258)
    (h : execBatCheck mv s = .next t) : Keeps k s t := by
  refine act_keeps (keeps_sub hk rfl) (fun u hu => ?_) h
  repeat' first
    | with_reducible assumption
    | with_reducible refine State.batCheck_keeps (keeps_sub hk rfl) ?_
    | intro _

end Sys2Proof.Machine
end

