-- ==== Sys2Proof/Laws/KeepsSettCmds.lean ====
section
/-!
SUPPORT. Laws/KeepsSettCmds.lean: what the meanings of Machine/SettCmds.lean keep (`Keeps`).
-/

namespace Sys2Proof.Machine

theorem execSettReadable_keeps {k : Nat} {s t : State} (hk : k &&& 8914186 = 8914186)
    (h : execSettReadable s = .next t) : Keeps k s t := by
  refine act_keeps (keeps_sub hk rfl) (fun u hu => ?_) h
  repeat' first
    | with_reducible assumption
    | with_reducible refine State.settReadable_keeps (keeps_sub hk rfl) ?_
    | intro _

theorem execEpochTallyRaise_keeps {k : Nat} {s t : State} (hk : k &&& 8388898 = 8388898)
    (h : execEpochTallyRaise s = .next t) : Keeps k s t := by
  refine act_keeps (keeps_sub hk rfl) (fun u hu => ?_) h
  repeat' first
    | with_reducible assumption
    | with_reducible refine State.raiseTally_keeps (keeps_sub hk rfl) ?_
    | with_reducible refine Keeps.only ?_ ?_
    | intro _

theorem execWsOpen_keeps {k : Nat} {s t : State} {src : Src} (hk : k &&& 16777215 = 16777215)
    (h : execWsOpen src s = .next t) : Keeps k s t := by
  refine act_keeps (keeps_sub hk rfl) (fun u hu => ?_) h
  repeat' first
    | with_reducible assumption
    | with_reducible refine State.write1_keeps (keeps_sub hk rfl) ?_
    | intro _

theorem execSeal_keeps {k : Nat} {s t : State} {src : Src} (hk : k &&& 16777215 = 16777215)
    (h : execSeal src s = .next t) : Keeps k s t := by
  refine act_keeps (keeps_sub hk rfl) (fun u hu => ?_) h
  repeat' first
    | with_reducible assumption
    | with_reducible refine State.write1_keeps (keeps_sub hk rfl) ?_
    | intro _

theorem execWsAbort_keeps {k : Nat} {s t : State} {src : Src} (hk : k &&& 16777215 = 16777215)
    (h : execWsAbort src s = .next t) : Keeps k s t := by
  refine act_keeps (keeps_sub hk rfl) (fun u hu => ?_) h
  repeat' first
    | with_reducible assumption
    | with_reducible refine State.write1_keeps (keeps_sub hk rfl) ?_
    | intro _

theorem execWsTimeout_keeps {k : Nat} {s t : State} (hk : k &&& 266 = 266)
    (h : execWsTimeout s = .next t) : Keeps k s t := by
  refine act_keeps (keeps_sub hk rfl) (fun u hu => ?_) h
  repeat' first
    | with_reducible assumption
    | with_reducible refine State.wsExpire_keeps (keeps_sub hk rfl) ?_
    | with_reducible refine Keeps.only ?_ ?_
    | intro _

end Sys2Proof.Machine
end

