-- ==== Sys2Proof/Laws/KeepsSprCmds.lean ====
section
/-!
SUPPORT. Laws/KeepsSprCmds.lean: what the meanings of Machine/SprCmds.lean keep (`Keeps`).
-/

namespace Sys2Proof.Machine

theorem execSpoorProgram_keeps {k : Nat} {s t : State} {reprogram : Bool} {rb : ReadBack} (hk : k &&& 8389026 = 8389026)
    (h : execSpoorProgram reprogram rb s = .next t) : Keeps k s t := by
  refine act_keeps (keeps_sub hk rfl) (fun u hu => ?_) h
  repeat' first
    | with_reducible assumption
    | with_reducible refine State.programDue_keeps (keeps_sub hk rfl) ?_
    | with_reducible refine State.programQueue_keeps (keeps_sub hk rfl) ?_
    | with_reducible refine Keeps.cond ?_ ?_
    | intro _

theorem execRateWindowEnd_keeps {k : Nat} {s t : State} {entry : Fin 16} (hk : k &&& 386 = 386)
    (h : execRateWindowEnd entry s = .next t) : Keeps k s t := by
  refine act_keeps (keeps_sub hk rfl) (fun u hu => ?_) h
  repeat' first
    | with_reducible assumption
    | with_reducible refine State.rateWindowEnd_keeps (keeps_sub hk rfl) ?_
    | intro _

theorem execOpsecTick_keeps {k : Nat} {s t : State} (hk : k &&& 8226 = 8226)
    (h : execOpsecTick s = .next t) : Keeps k s t := by
  refine act_keeps (keeps_sub hk rfl) (fun u hu => ?_) h
  repeat' first
    | with_reducible assumption
    | with_reducible refine State.opsecTick_keeps (keeps_sub hk rfl) ?_
    | intro _

theorem execPost_keeps {k : Nat} {s t : State} {src : Src} {sev : BitVec 3} (hk : k &&& 16777215 = 16777215)
    (h : execPost src sev s = .next t) : Keeps k s t := by
  refine act_keeps (keeps_sub hk rfl) (fun u hu => ?_) h
  repeat' first
    | with_reducible assumption
    | with_reducible refine State.write1_keeps (keeps_sub hk rfl) ?_
    | intro _

theorem execSpoorScanDone_keeps {k : Nat} {s t : State} (hk : k &&& 386 = 386)
    (h : execSpoorScanDone s = .next t) : Keeps k s t := by
  refine act_keeps (keeps_sub hk rfl) (fun u hu => ?_) h
  repeat' first
    | with_reducible assumption
    | with_reducible refine State.scanDone_keeps (keeps_sub hk rfl) ?_
    | intro _

end Sys2Proof.Machine
end

