-- ==== Sys2Proof/Laws/KeepsZidCmds.lean ====
section
/-!
SUPPORT. Laws/KeepsZidCmds.lean: what the meanings of Machine/ZidCmds.lean keep (`Keeps`).
-/

namespace Sys2Proof.Machine

theorem execMinwEnd_keeps {k : Nat} {s t : State} (hk : k &&& 258 = 258)
    (h : execMinwEnd s = .next t) : Keeps k s t := by
  refine act_keeps (keeps_sub hk rfl) (fun u hu => ?_) h
  repeat' first
    | with_reducible assumption
    | with_reducible refine State.minwEnd_keeps (keeps_sub hk rfl) ?_
    | intro _

theorem execFaultAssert_keeps {k : Nat} {s t : State} {src : Src} {hold : Bool} (hk : k &&& 16777215 = 16777215)
    (h : execFaultAssert src hold s = .next t) : Keeps k s t := by
  refine act_keeps (keeps_sub hk rfl) (fun u hu => ?_) h
  repeat' first
    | with_reducible assumption
    | with_reducible refine State.write1_keeps (keeps_sub hk rfl) ?_
    | intro _

theorem execHoldWrite_keeps {k : Nat} {s t : State} {src : Src} {hold : Bool} (hk : k &&& 16777215 = 16777215)
    (h : execHoldWrite src hold s = .next t) : Keeps k s t := by
  refine act_keeps (keeps_sub hk rfl) (fun u hu => ?_) h
  repeat' first
    | with_reducible assumption
    | with_reducible refine State.write1_keeps (keeps_sub hk rfl) ?_
    | intro _

theorem execPinReadback_keeps {k : Nat} {s t : State} {level : Bool} (hk : k &&& 258 = 258)
    (h : execPinReadback level s = .next t) : Keeps k s t := by
  refine act_keeps (keeps_sub hk rfl) (fun u hu => ?_) h
  repeat' first
    | with_reducible assumption
    | with_reducible refine State.pinReadback_keeps (keeps_sub hk rfl) ?_
    | intro _

theorem execLedtest_keeps {k : Nat} {s t : State} {src : Src} {injen : Bool} (hk : k &&& 16777215 = 16777215)
    (h : execLedtest src injen s = .next t) : Keeps k s t := by
  refine act_keeps (keeps_sub hk rfl) (fun u hu => ?_) h
  repeat' first
    | with_reducible assumption
    | with_reducible refine State.write1_keeps (keeps_sub hk rfl) ?_
    | intro _

theorem execLedtestEnd_keeps {k : Nat} {s t : State} (hk : k &&& 258 = 258)
    (h : execLedtestEnd s = .next t) : Keeps k s t := by
  refine act_keeps (keeps_sub hk rfl) (fun u hu => ?_) h
  repeat' first
    | with_reducible assumption
    | with_reducible refine State.ledTestEnd_keeps (keeps_sub hk rfl) ?_
    | intro _

theorem execInjenWrite_keeps {k : Nat} {s t : State} {src : Src} {injen : Bool} (hk : k &&& 16777215 = 16777215)
    (h : execInjenWrite src injen s = .next t) : Keeps k s t := by
  refine act_keeps (keeps_sub hk rfl) (fun u hu => ?_) h
  repeat' first
    | with_reducible assumption
    | with_reducible refine State.write1_keeps (keeps_sub hk rfl) ?_
    | intro _

end Sys2Proof.Machine
end

