-- ==== Sys2Proof/Laws/Parts.lean ====
section
/-!
SUPPORT. Laws/Parts.lean: from the relation `Keeps` to the components that a statement lists, and what the end of an
accepted host window request adds.
-/

namespace Sys2Proof.Machine

/-- Number of a component in a mask. -/
def Part.bit : Part → Nat
  | .answer => 0
  | .sent => 1
  | .lap => 2
  | .sett => 3
  | .img => 4
  | .nv => 5
  | .hwp => 6
  | .spr => 7
  | .zid => 8
  | .boot => 9
  | .dsp => 10
  | .fab => 11
  | .key => 12
  | .pair => 13
  | .field => 14
  | .loops => 15
  | .fbp => 16
  | .can => 17
  | .mtr => 18
  | .eth => 19
  | .ptp => 20
  | .rtc => 21
  | .tscNs => 22
  | .used => 23

/-- The mask of a list of components. -/
def partMask (l : List Part) : Nat := l.foldl (fun k p => k ||| 2 ^ p.bit) 0

/-- A state that keeps the components outside a mask keeps those outside the list that the mask was made from. -/
theorem Keeps.parts {k : Nat} {s t : State} (l : List Part) (h : Keeps k s t) (hk : ∀ p : Part, k.testBit p.bit = true → p ∈ l) :
    s.keepsParts t l := by
  have key : ∀ p : Part, p ∉ l → k.testBit p.bit = false := fun p hp => by
    by_contra hc
    exact hp (hk p (by simpa using hc))
  exact ⟨h.queue, fun g => h.answer_same (key .answer g), fun g => h.sent_same (key .sent g), fun g => h.lap_same (key .lap g), fun g => h.sett_same (key .sett g), fun g => h.img_same (key .img g), fun g => h.nv_same (key .nv g), fun g => h.hwp_same (key .hwp g), fun g => h.spr_same (key .spr g), fun g => h.zid_same (key .zid g), fun g => h.boot_same (key .boot g), fun g => h.dsp_same (key .dsp g), fun g => h.fab_same (key .fab g), fun g => h.key_same (key .key g), fun g => h.pair_same (key .pair g), fun g => h.field_same (key .field g), fun g => h.loops_same (key .loops g), fun g => h.fbp_same (key .fbp g), fun g => h.can_same (key .can g), fun g => h.mtr_same (key .mtr g), fun g => h.eth_same (key .eth g), fun g => h.ptp_same (key .ptp g), fun g => h.rtc_same (key .rtc g), fun g => h.tscNs_same (key .tscNs g), fun g => h.used_same (key .used g)⟩

/-- An accepted request of one word keeps what its word's own effect keeps; its end writes the answer, sends the response,
and serves the write set and the request queue. -/
theorem State.write1_keeps_ok {k : Nat} {s : State} {src : Src} {a : Nat} {v : Word} (hk : k &&& 8388683 = 8388683)
    (ha : isUserWord (a, v) = false) (hr : hasAcc .rws a = false) (h : s.wordDeny src.slot.val a v = none)
    (hj : (s.wordWrite src.slot.val [] (a, v)).nv.jobs = s.nv.jobs) (hw : Keeps k s (s.wordWrite src.slot.val [] (a, v))) :
    Keeps k s (s.write1 src a v) := by
  rw [State.write1_ok s src a v ha hr h, ← hj]
  exact State.opOk_keeps (keeps_sub hk rfl) hw

end Sys2Proof.Machine
end

