-- ==== Sys2Proof/Laws/Words.lean ====
section
/-!
SUPPORT. Laws/Words.lean: a host window request of one word, when it is accepted and what it leaves, said once for every
command that writes one register.
-/

namespace Sys2Proof.Machine

/-- A register outside the ranges of structure elements: neither the NV nor the sett window, populated, no force value,
no element of the network or of a loop, no field that a write set applies. -/
def simpleReg (a : Nat) : Bool :=
  !inNvWindow a && !inSettWindow a && a % 4 == 0 && populated a && !forceHole a && (elemOf 0x12000 32 64 a).isNone
    && !(decide (0x11000 ≤ a) && decide (a < 0x11600)) && (elemOf (Reg.LOOP_n_CTRL 0) 0x40 64 a).isNone
    && (elemOf (Reg.DSP_SCENW_s 0) 4 8 a).isNone && (elemOf (Reg.DSP_TOFS_s 0) 4 8 a).isNone && (elemOf (Reg.DSP_PSCALE_s 0) 4 8 a).isNone
    && (elemOf (Reg.DSP_MEAS_u 0) 8 64 a).isNone && (elemOf 0x13000 8 256 a).isNone && (elemOf 0x14000 32 64 a).isNone
    && a != Reg.DSP_CYCLE && a != Reg.DSP_DEADLINE && !hasAcc .rws a && a != Reg.SETT_WS_CTRL

/-- The judgement of a word of such a register. -/
theorem State.wordDeny_simple (s : State) (slot a : Nat) (v : Word) (h : simpleReg a = true) :
    s.wordDeny slot a v =
      if needsImage a && !s.imgRuns then some (.noimg, false)
      else if s.injClosed a v then some (.locked, false)
      else firstDenial [(denyIf ((s.imgRuns && !inDefaults s.img.defaults a v) || !inPermitted a v || !s.inGraph a v) .range).map
          (fun st => (st, countsRange a)), s.blockDeny slot a v, busDenial (denyIf (nvBacked a && s.frozen) .busy)] := by
  simp only [simpleReg, Bool.and_eq_true, Bool.not_eq_true', Option.isNone_iff_eq_none, bne_iff_ne, ne_eq, beq_iff_eq] at h
  obtain ⟨⟨⟨⟨⟨⟨⟨⟨⟨⟨⟨⟨⟨⟨⟨⟨⟨h1, h2⟩, h3⟩, h4⟩, h5⟩, h6⟩, h7⟩, h8⟩, h9⟩, h10⟩, h11⟩, h12⟩, h13⟩, h14⟩, h15⟩, h16⟩, h17⟩, h18⟩ := h
  have m : s.missing a = false := by
    simp [State.missing, h3, h4, h5, ImgBytes.unitHole, h6, ImgBytes.stepHole, h7, ImgBytes.loopHole, h8]
  have e : s.elemDeny a = false := by
    simp [State.elemDeny, h9, h10, h11, h12, h6, h13, h14]
  have st : s.standbyDeny a v = false := by simp [State.standbyDeny, h17, h18]
  have ws : s.wsDeny slot a v = none := by simp [State.wsDeny, h17, h18]
  have val : s.valueDeny a v = ((s.imgRuns && !inDefaults s.img.defaults a v) || !inPermitted a v || !s.inGraph a v) := by
    simp [State.valueDeny, State.cycleDeny, h15, h16, State.offsetDeny, h8]
  simp only [State.wordDeny, h1, h2, m, e, st, ws, val, Bool.false_eq_true, if_false]
  simp only [denyIf, busDenial, firstDenial, Bool.false_eq_true, if_false, Option.map_none]
  congr 2
  cases s.blockDeny slot a v <;> split_ifs <;> simp [firstDenial]

/-- When no rule refuses a word of such a register. -/
theorem State.grants_simple {s : State} {src : Src} {a : Nat} {v : Word} (h : simpleReg a = true) :
    s.grants src a v ↔ (needsImage a = true → s.imgRuns = true) ∧ s.injClosed a v = false
      ∧ (s.imgRuns = true → inDefaults s.img.defaults a v = true) ∧ inPermitted a v = true ∧ s.inGraph a v = true ∧ s.clearSent.blockDeny src.slot.val a v = none
      ∧ (nvBacked a = true → s.frozen = false) := by
  unfold State.grants
  rw [State.wordDeny_simple _ _ _ _ h]
  have e1 : s.clearSent.imgRuns = s.imgRuns := rfl
  have e2 : s.clearSent.injClosed a v = s.injClosed a v := rfl
  have e3 : s.clearSent.img = s.img := rfl
  have e4 : s.clearSent.frozen = s.frozen := rfl
  have e5 : s.clearSent.inGraph a v = s.inGraph a v := rfl
  rw [e1, e2, e3, e4, e5]
  cases hb : s.clearSent.blockDeny src.slot.val a v <;> cases h1 : needsImage a <;> cases h2 : s.imgRuns <;> cases h3 : s.injClosed a v
    <;> cases h4 : inDefaults s.img.defaults a v <;> cases h5 : inPermitted a v
    <;> cases h6 : s.inGraph a v <;> cases h7 : nvBacked a <;> cases h8 : s.frozen <;>
    simp [denyIf, busDenial, firstDenial]

/-- A register outside the NV window is no word of a USER region. -/
theorem not_user_of_reg {a : Nat} {v : Word} (h : inNvWindow a = false) : isUserWord (a, v) = false := by
  simp [isUserWord, h]

/-- A word of a register whose fields no write set applies takes effect by its block's rule. -/
theorem State.wordWrite_reg (s : State) (slot a : Nat) (v : Word) (h1 : inNvWindow a = false) (h2 : hasAcc .rws a = false) :
    s.wordWrite slot [] (a, v) = s.regWrite slot a v [] := by
  simp [State.wordWrite, h1, h2]

/-- After an accepted request of one word every component but the answer, the frames sent, the sett block and the host
window block is as the word's own effect leaves it. -/
theorem State.write1_after {s : State} {src : Src} {a : Nat} {v : Word} (ha : inNvWindow a = false)
    (hr : hasAcc .rws a = false) (h : s.wordDeny src.slot.val a v = none) (hj : (s.wordWrite src.slot.val [] (a, v)).nv.jobs = s.nv.jobs) :
    Keeps 8388683 (s.wordWrite src.slot.val [] (a, v)) (s.write1 src a v) := by
  rw [State.write1_ok s src a v (not_user_of_reg ha) hr h, ← hj]
  exact State.opOk_keeps (by decide) (Keeps.refl _)

/-- The effect of a command that writes one register with a request that no rule refuses: it is answered OK, and every
register and component is as the word's own effect leaves it, but for those that the request's end may change. -/
theorem State.write1_granted {k : Nat} {s w : State} {src : Src} {a : Nat} {v : Word} (hs : s.supplied) (hg : s.grants src a v)
    (ha : inNvWindow a = false) (hr : hasAcc .rws a = false) (hw : s.clearSent.wordWrite src.slot.val [] (a, v) = w) (hk : k &&& 8388683 = 8388683)
    (hkw : Keeps k s.clearSent w) (hj : w.nv.jobs = s.nv.jobs) :
    ∃ t, s.act (fun t => t.write1 src a v) = .next t ∧ t.answer.status = .ok ∧ (∀ b, b ∉ hostRegs → t.rd b = w.rd b) ∧ Keeps 8388683 w t
      ∧ Keeps k s t := by
  subst hw
  refine ⟨s.clearSent.write1 src a v, State.act_supplied hs, (State.write1_answer _ src a v (not_user_of_reg ha) hr hg).1,
    fun b hb => State.write1_rd _ src a v (not_user_of_reg ha) hr hg b hb, State.write1_after ha hr hg hj, ?_⟩
  have hk2 : k &&& 2 = 2 := keeps_sub hk rfl
  exact Keeps.trans (State.clearSent_keeps hk2 (Keeps.refl _)) (State.write1_keeps_ok hk (not_user_of_reg ha) hr hg hj hkw)

/-- The same where the word's own effect leaves the non-volatile store alone. -/
theorem State.write1_plain {k : Nat} {s w : State} {src : Src} {a : Nat} {v : Word} (hs : s.supplied) (hg : s.grants src a v)
    (ha : inNvWindow a = false) (hr : hasAcc .rws a = false) (hw : s.clearSent.wordWrite src.slot.val [] (a, v) = w) (hk : k &&& 8388683 = 8388683)
    (hn : k.testBit 5 = false) (hkw : Keeps k s.clearSent w) :
    ∃ t, s.act (fun t => t.write1 src a v) = .next t ∧ t.answer.status = .ok ∧ (∀ b, b ∉ hostRegs → t.rd b = w.rd b) ∧ Keeps 8388683 w t
      ∧ Keeps k s t :=
  State.write1_granted hs hg ha hr hw hk hkw (congrArg NvState.jobs (hkw.nv_same hn))

theorem satWordN_toNat (n : Nat) : (satWordN n).toNat = min 0xFFFFFFFF n := by
  unfold satWordN satNat
  rw [BitVec.toNat_ofNat]
  split <;> omega

end Sys2Proof.Machine
end

