-- ==== Sys2Proof/Laws/WordEffects.lean ====
section
/-!
SUPPORT. Laws/WordEffects.lean: the effect of an accepted word at each register that a command names, one lemma per
register: it is the operation of its block.
-/

namespace Sys2Proof.Machine

theorem State.wordWrite_rtcCtrl (s : State) (slot : Nat) (v : Word) : s.wordWrite slot [] (Reg.RTC_CTRL, v) = s.rtcCtrl slot v := by
  rw [State.wordWrite_reg _ _ _ _ (by decide) (by decide), State.regWrite, show blockOf Reg.RTC_CTRL = some .rtc from rfl]
  simp only [if_true]

theorem State.wordWrite_trimWrite (s : State) (slot : Nat) (v : Word) : s.wordWrite slot [] (Reg.RTC_TRIM_CTRL, v) = s.trimWrite v := by
  rw [State.wordWrite_reg _ _ _ _ (by decide) (by decide), State.regWrite, show blockOf Reg.RTC_TRIM_CTRL = some .rtc from rfl]
  simp only [show Reg.RTC_TRIM_CTRL ≠ Reg.RTC_CTRL by decide, if_false, if_true]

theorem State.wordWrite_chgWrite (s : State) (slot : Nat) (v : Word) : s.wordWrite slot [] (Reg.RTC_CHG, v) = s.chgWrite v := by
  rw [State.wordWrite_reg _ _ _ _ (by decide) (by decide), State.regWrite, show blockOf Reg.RTC_CHG = some .rtc from rfl]
  simp only [show Reg.RTC_CHG ≠ Reg.RTC_CTRL by decide, show Reg.RTC_CHG ≠ Reg.RTC_TRIM_CTRL by decide, if_false, if_true]

theorem State.wordWrite_updCtrl (s : State) (slot : Nat) (v : Word) : s.wordWrite slot [] (Reg.KEY_UPD_CTRL, v) = s.onlyIf (bitOf v 0) State.keyExec := by
  rw [State.wordWrite_reg _ _ _ _ (by decide) (by decide), State.regWrite, show blockOf Reg.KEY_UPD_CTRL = some .key from rfl]
  simp only [if_true]

theorem State.wordWrite_pairCtrl (s : State) (slot : Nat) (v : Word) : s.wordWrite slot [] (Reg.PAIR_CTRL, v) = s.pairCtrl v := by
  rw [State.wordWrite_reg _ _ _ _ (by decide) (by decide), State.regWrite, show blockOf Reg.PAIR_CTRL = some .pair from rfl]
  simp only [if_true]

theorem State.wordWrite_witCtrl (s : State) (slot : Nat) (v : Word) : s.wordWrite slot [] (Reg.PAIR_WIT_CTRL, v) = s.witCtrl v := by
  rw [State.wordWrite_reg _ _ _ _ (by decide) (by decide), State.regWrite, show blockOf Reg.PAIR_WIT_CTRL = some .pair from rfl]
  simp only [show Reg.PAIR_WIT_CTRL ≠ Reg.PAIR_CTRL by decide, if_false, if_true]

theorem State.wordWrite_ptpCtrl (s : State) (slot : Nat) (v : Word) : s.wordWrite slot [] (Reg.PTP_CTRL, v) = s.ptpCtrl v := by
  rw [State.wordWrite_reg _ _ _ _ (by decide) (by decide), State.regWrite, show blockOf Reg.PTP_CTRL = some .ptp from rfl]
  simp only [if_true]

theorem State.wordWrite_rateWrite (s : State) (slot : Nat) (v : Word) : s.wordWrite slot [] (Reg.PTP_RATE, v) = s.rateWrite v := by
  rw [State.wordWrite_reg _ _ _ _ (by decide) (by decide), State.regWrite, show blockOf Reg.PTP_RATE = some .ptp from rfl]
  simp only [show Reg.PTP_RATE ≠ Reg.PTP_CTRL by decide, if_false, if_true]

theorem State.wordWrite_subReset (s : State) (slot : Nat) (v : Word) : s.wordWrite slot [] (Reg.ETH_SUBRESET, v) = s.subReset (bitsOf v 0 11) := by
  rw [State.wordWrite_reg _ _ _ _ (by decide) (by decide), State.regWrite, show blockOf Reg.ETH_SUBRESET = some .eth from rfl]
  simp only [if_true]

theorem State.wordWrite_snapAsk (s : State) (slot : Nat) (v : Word) : s.wordWrite slot [] (Reg.MTR_SNAP_CTRL, v) = s.snapAsk v := by
  rw [State.wordWrite_reg _ _ _ _ (by decide) (by decide), State.regWrite, show blockOf Reg.MTR_SNAP_CTRL = some .mtr from rfl]
  simp only [if_true]

theorem State.wordWrite_doSet (s : State) (slot : Nat) (v : Word) : s.wordWrite slot [] (Reg.DIO_DO_SET, v) = s.doSet v := by
  rw [State.wordWrite_reg _ _ _ _ (by decide) (by decide), State.regWrite, show blockOf Reg.DIO_DO_SET = some .dio from rfl]
  simp only [if_true]

theorem State.wordWrite_fbpCtrl (s : State) (slot : Nat) (v : Word) : s.wordWrite slot [] (Reg.FBP_CTRL, v) = s.fbpCtrl v [] := by
  rw [State.wordWrite_reg _ _ _ _ (by decide) (by decide), State.regWrite, show blockOf Reg.FBP_CTRL = some .fbp from rfl]
  simp only [if_true]

theorem State.wordWrite_forceCtrl (s : State) (slot : Nat) (v : Word) : s.wordWrite slot [] (Reg.FBP_FORCE_CTRL, v) = s.forceCtrl v := by
  rw [State.wordWrite_reg _ _ _ _ (by decide) (by decide), State.regWrite, show blockOf Reg.FBP_FORCE_CTRL = some .fbp from rfl]
  simp only [show Reg.FBP_FORCE_CTRL ≠ Reg.FBP_CTRL by decide, if_false, if_true]

theorem State.wordWrite_forceCmd (s : State) (slot : Nat) (v : Word) : s.wordWrite slot [] (Reg.FBP_FORCE_CMD, v) = s.forceCmd v := by
  rw [State.wordWrite_reg _ _ _ _ (by decide) (by decide), State.regWrite, show blockOf Reg.FBP_FORCE_CMD = some .fbp from rfl]
  simp only [show Reg.FBP_FORCE_CMD ≠ Reg.FBP_CTRL by decide, show Reg.FBP_FORCE_CMD ≠ Reg.FBP_FORCE_CTRL by decide, if_false, if_true]

theorem State.wordWrite_wsCtrl (s : State) (slot : Nat) (v : Word) : s.wordWrite slot [] (Reg.SETT_WS_CTRL, v) = s.wsCtrl slot v := by
  rw [State.wordWrite_reg _ _ _ _ (by decide) (by decide), State.regWrite, show blockOf Reg.SETT_WS_CTRL = some .sett from rfl]
  simp only [if_true]

theorem State.wordWrite_lapSrc (s : State) (slot : Nat) (v : Word) : s.wordWrite slot [] (Reg.LAP_SRC_CTRL, v) = s.lapSrc v := by
  rw [State.wordWrite_reg _ _ _ _ (by decide) (by decide), State.regWrite, show blockOf Reg.LAP_SRC_CTRL = some .lap from rfl]
  simp only [if_true]

theorem State.wordWrite_freePeriod (s : State) (slot : Nat) (v : Word) : s.wordWrite slot [] (Reg.LAP_FREE_PERIOD, v) = s.plainWrite Reg.LAP_FREE_PERIOD v := by
  rw [State.wordWrite_reg _ _ _ _ (by decide) (by decide), State.regWrite, show blockOf Reg.LAP_FREE_PERIOD = some .lap from rfl]
  simp only [show Reg.LAP_FREE_PERIOD ≠ Reg.LAP_SRC_CTRL by decide, show Reg.LAP_FREE_PERIOD ≠ Reg.LAP_INJ by decide, if_false, if_true]

theorem State.wordWrite_loadCtrl (s : State) (slot : Nat) (v : Word) : s.wordWrite slot [] (Reg.IMG_LOAD_CTRL, v) = s.loadCtrl v := by
  rw [State.wordWrite_reg _ _ _ _ (by decide) (by decide), State.regWrite, show blockOf Reg.IMG_LOAD_CTRL = some .img from rfl]
  simp only [if_true]

theorem State.wordWrite_actCtrl (s : State) (slot : Nat) (v : Word) : s.wordWrite slot [] (Reg.IMG_ACT_CTRL, v) = s.actCtrl v := by
  rw [State.wordWrite_reg _ _ _ _ (by decide) (by decide), State.regWrite, show blockOf Reg.IMG_ACT_CTRL = some .img from rfl]
  simp only [show Reg.IMG_ACT_CTRL ≠ Reg.IMG_LOAD_CTRL by decide, if_false, if_true]

theorem State.wordWrite_imgBoot (s : State) (slot : Nat) (v : Word) : s.wordWrite slot [] (Reg.IMG_BOOT, v) = s.imgBoot v := by
  rw [State.wordWrite_reg _ _ _ _ (by decide) (by decide), State.regWrite, show blockOf Reg.IMG_BOOT = some .img from rfl]
  simp only [show Reg.IMG_BOOT ≠ Reg.IMG_LOAD_CTRL by decide, show Reg.IMG_BOOT ≠ Reg.IMG_ACT_CTRL by decide, show Reg.IMG_BOOT ≠ Reg.IMG_LOAD_LEN by decide, if_false, if_true]

theorem State.wordWrite_post (s : State) (slot : Nat) (v : Word) : s.wordWrite slot [] (Reg.SPR_FW_CTRL, v) = s.post v := by
  rw [State.wordWrite_reg _ _ _ _ (by decide) (by decide), State.regWrite, show blockOf Reg.SPR_FW_CTRL = some .spr from rfl]
  simp only [if_true]

theorem State.wordWrite_bootCtrl (s : State) (slot : Nat) (v : Word) : s.wordWrite slot [] (Reg.BOOT_CTRL, v) = s.bootCtrl v := by
  rw [State.wordWrite_reg _ _ _ _ (by decide) (by decide), State.regWrite, show blockOf Reg.BOOT_CTRL = some .boot from rfl]
  simp only [if_true]

theorem State.wordWrite_faultCtrl (s : State) (slot : Nat) (v : Word) : s.wordWrite slot [] (Reg.ZID_FAULT_CTRL, v) = s.faultCtrl v := by
  rw [State.wordWrite_reg _ _ _ _ (by decide) (by decide), State.regWrite, show blockOf Reg.ZID_FAULT_CTRL = some .zid from rfl]
  simp only [show Reg.ZID_FAULT_CTRL ≠ Reg.ZID_CTRL by decide, if_false, if_true]

theorem State.wordWrite_zidCtrl (s : State) (slot : Nat) (v : Word) : s.wordWrite slot [] (Reg.ZID_CTRL, v) = s.zidCtrl v := by
  rw [State.wordWrite_reg _ _ _ _ (by decide) (by decide), State.regWrite, show blockOf Reg.ZID_CTRL = some .zid from rfl]
  simp only [if_true]

theorem State.wordWrite_nvsCtrl (s : State) (slot : Nat) (v : Word) : s.wordWrite slot [] (Reg.NVS_CTRL, v) = s.nvsCtrl slot v := by
  rw [State.wordWrite_reg _ _ _ _ (by decide) (by decide), State.regWrite, show blockOf Reg.NVS_CTRL = some .nvs from rfl]
  simp only [State.nvsWrite, if_true]

theorem State.wordWrite_unlockCtrl (s : State) (slot : Nat) (v : Word) : s.wordWrite slot [] (Reg.NVS_UNLOCK_CTRL, v) = s.unlockCtrl slot v := by
  rw [State.wordWrite_reg _ _ _ _ (by decide) (by decide), State.regWrite, show blockOf Reg.NVS_UNLOCK_CTRL = some .nvs from rfl]
  simp only [State.nvsWrite, show Reg.NVS_UNLOCK_CTRL ≠ Reg.NVS_CTRL by decide, if_false, if_true]

theorem State.wordWrite_pwset (s : State) (slot : Nat) (v : Word) : s.wordWrite slot [] (Reg.NVS_PWSET_CTRL, v) = s.pwsetBegin (bitsOf v 0 3) (bitOf v 8) (bitOf v 9) := by
  rw [State.wordWrite_reg _ _ _ _ (by decide) (by decide), State.regWrite, show blockOf Reg.NVS_PWSET_CTRL = some .nvs from rfl]
  simp only [State.nvsWrite, show Reg.NVS_PWSET_CTRL ≠ Reg.NVS_CTRL by decide, show Reg.NVS_PWSET_CTRL ≠ Reg.NVS_UNLOCK_CTRL by decide, if_false, if_true]

theorem State.wordWrite_incAsk (s : State) (slot : Nat) (v : Word) : s.wordWrite slot [] (Reg.NVS_TALLY_CTRL, v) = s.incAsk v := by
  rw [State.wordWrite_reg _ _ _ _ (by decide) (by decide), State.regWrite, show blockOf Reg.NVS_TALLY_CTRL = some .nvs from rfl]
  simp only [State.nvsWrite, show Reg.NVS_TALLY_CTRL ≠ Reg.NVS_CTRL by decide, show Reg.NVS_TALLY_CTRL ≠ Reg.NVS_UNLOCK_CTRL by decide, show Reg.NVS_TALLY_CTRL ≠ Reg.NVS_PWSET_CTRL by decide, if_false, if_true]

theorem State.wordWrite_cryptSet (s : State) (slot : Nat) (n : Fin 8) (v : Word) :
    s.wordWrite slot [] (Reg.NVS_RGN_r_CFG n, v) = s.cryptSet n.val (bitOf v 2) := by
  have key : ∀ n : Fin 8, inNvWindow (Reg.NVS_RGN_r_CFG n) = false ∧ hasAcc .rws (Reg.NVS_RGN_r_CFG n) = false ∧ blockOf (Reg.NVS_RGN_r_CFG n) = some .nvs ∧ Reg.NVS_RGN_r_CFG n ≠ Reg.NVS_CTRL ∧ Reg.NVS_RGN_r_CFG n ≠ Reg.NVS_UNLOCK_CTRL ∧ Reg.NVS_RGN_r_CFG n ≠ Reg.NVS_PWSET_CTRL ∧ Reg.NVS_RGN_r_CFG n ≠ Reg.NVS_TALLY_CTRL ∧ Reg.NVS_RGN_r_CFG n ≠ Reg.NVS_UNLOCK_LO ∧ Reg.NVS_RGN_r_CFG n ≠ Reg.NVS_UNLOCK_HI ∧ Reg.NVS_RGN_r_CFG n ≠ Reg.NVS_PWSET_LO ∧ Reg.NVS_RGN_r_CFG n ≠ Reg.NVS_PWSET_HI ∧ arrayIdx (Reg.NVS_RGN_r_CFG 0) 0x10 8 (Reg.NVS_RGN_r_CFG n) = some n.val := by decide
  obtain ⟨h0, h1, h2, h3, h4, h5, h6, h7, h8, h9, h10, h11⟩ := key n
  rw [State.wordWrite_reg _ _ _ _ h0 h1, State.regWrite, h2]
  simp only [State.nvsWrite, decide_false, Bool.or_self, Bool.false_eq_true, h3, h4, h5, h6, h7, h8, h9, h10, h11, if_false, if_true, or_self]

theorem State.wordWrite_updBuf (s : State) (slot : Nat) (n : Fin 32) (v : Word) :
    s.wordWrite slot [] (Reg.KEY_UPD_BUF_w n, v) = s.wr (Reg.KEY_UPD_BUF_w n) v := by
  have key : ∀ n : Fin 32, inNvWindow (Reg.KEY_UPD_BUF_w n) = false ∧ hasAcc .rws (Reg.KEY_UPD_BUF_w n) = false ∧ blockOf (Reg.KEY_UPD_BUF_w n) = some .key ∧ Reg.KEY_UPD_BUF_w n ≠ Reg.KEY_UPD_CTRL ∧ (arrayIdx (Reg.KEY_UPD_BUF_w 0) 4 32 (Reg.KEY_UPD_BUF_w n)).isSome = true := by decide
  obtain ⟨h0, h1, h2, h3, h4⟩ := key n
  rw [State.wordWrite_reg _ _ _ _ h0 h1, State.regWrite, h2]
  simp only [h3, h4, if_false, if_true, or_self]

theorem State.wordWrite_aoSet (s : State) (slot : Nat) (n : Fin 16) (v : Word) :
    s.wordWrite slot [] (Reg.AOUT_n_SET n, v) = s.aoSet n.val v := by
  have key : ∀ n : Fin 16, inNvWindow (Reg.AOUT_n_SET n) = false ∧ hasAcc .rws (Reg.AOUT_n_SET n) = false ∧ blockOf (Reg.AOUT_n_SET n) = some .aout ∧ arrayIdx (Reg.AOUT_n_SET 0) 0x20 16 (Reg.AOUT_n_SET n) = some n.val := by decide
  obtain ⟨h0, h1, h2, h3⟩ := key n
  rw [State.wordWrite_reg _ _ _ _ h0 h1, State.regWrite, h2]
  simp only [h3, if_false, if_true, or_self]

theorem State.wordWrite_doClear (s : State) (slot : Nat) (n : Fin 16) (v : Word) :
    s.wordWrite slot [] (Reg.DIO_DO_n_CTRL n, v) = s.onlyIf (bitOf v 0) (fun t => t.doClear n.val) := by
  have key : ∀ n : Fin 16, inNvWindow (Reg.DIO_DO_n_CTRL n) = false ∧ hasAcc .rws (Reg.DIO_DO_n_CTRL n) = false ∧ blockOf (Reg.DIO_DO_n_CTRL n) = some .dio ∧ Reg.DIO_DO_n_CTRL n ≠ Reg.DIO_DO_SET ∧ arrayIdx (Reg.DIO_DO_n_CTRL 0) 0x10 16 (Reg.DIO_DO_n_CTRL n) = some n.val := by decide
  obtain ⟨h0, h1, h2, h3, h4⟩ := key n
  rw [State.wordWrite_reg _ _ _ _ h0 h1, State.regWrite, h2]
  simp only [h3, h4, if_false, if_true, or_self]

theorem State.wordWrite_loopCtrl (s : State) (slot : Nat) (n : Fin 64) (v : Word) :
    s.wordWrite slot [] (Reg.LOOP_n_CTRL n, v) = s.loopCtrl n.val v := by
  have key : ∀ n : Fin 64, inNvWindow (Reg.LOOP_n_CTRL n) = false ∧ hasAcc .rws (Reg.LOOP_n_CTRL n) = false ∧ blockOf (Reg.LOOP_n_CTRL n) = some .loop ∧ arrayIdx (Reg.LOOP_n_CTRL 0) 0x40 64 (Reg.LOOP_n_CTRL n) = some n.val := by decide
  obtain ⟨h0, h1, h2, h3⟩ := key n
  rw [State.wordWrite_reg _ _ _ _ h0 h1, State.regWrite, h2]
  simp only [h3, if_false, if_true, or_self]

theorem State.wordWrite_meas (s : State) (slot : Nat) (n : Fin 64) (v : Word) :
    s.wordWrite slot [] (Reg.DSP_MEAS_u n, v) = s.measWrite (Reg.DSP_MEAS_u n) v := by
  have key : ∀ n : Fin 64, inNvWindow (Reg.DSP_MEAS_u n) = false ∧ hasAcc .rws (Reg.DSP_MEAS_u n) = false ∧ blockOf (Reg.DSP_MEAS_u n) = some .dsp ∧ (arrayIdx (Reg.DSP_MEAS_u 0) 8 64 (Reg.DSP_MEAS_u n)).isSome = true := by decide
  obtain ⟨h0, h1, h2, h3⟩ := key n
  rw [State.wordWrite_reg _ _ _ _ h0 h1, State.regWrite, h2]
  simp only [Bool.or_true, h3, if_false, if_true, or_self]

theorem State.wordWrite_domCfg (s : State) (slot : Nat) (n : Fin 2) (v : Word) :
    s.wordWrite slot [] (Reg.PTP_DOM_d_CFG n, v) = s.domCfg n.val v := by
  have key : ∀ n : Fin 2, inNvWindow (Reg.PTP_DOM_d_CFG n) = false ∧ hasAcc .rws (Reg.PTP_DOM_d_CFG n) = false
      ∧ blockOf (Reg.PTP_DOM_d_CFG n) = some .ptp ∧ Reg.PTP_DOM_d_CFG n ≠ Reg.PTP_CTRL ∧ Reg.PTP_DOM_d_CFG n ≠ Reg.PTP_RATE := by decide
  obtain ⟨h0, h1, h2, h3, h4⟩ := key n
  rw [State.wordWrite_reg _ _ _ _ h0 h1, State.regWrite, h2]
  simp only [h3, h4, if_false]
  have h5 : ∀ n : Fin 2, (if Reg.PTP_DOM_d_CFG n = Reg.PTP_DOM_d_CFG 0 then 0 else if Reg.PTP_DOM_d_CFG n = Reg.PTP_DOM_d_CFG 1 then 1 else 2) = n.val := by
    decide
  have h6 := h5 n
  have h7 := n.isLt
  split_ifs at h6 ⊢
  · rw [← h6]
  · rw [← h6]
  · omega

theorem State.wordWrite_tout (s : State) (slot : Nat) (v : Word) :
    s.wordWrite slot [] (Reg.DSP_MEAS_TOUT, v) = s.measWrite Reg.DSP_MEAS_TOUT v := by
  rw [State.wordWrite_reg _ _ _ _ (by decide) (by decide), State.regWrite, show blockOf Reg.DSP_MEAS_TOUT = some .dsp from rfl]
  simp only [decide_true, Bool.true_or, if_true]

theorem State.wordWrite_canCtrl (s : State) (slot : Nat) (c : Fin 4) (v : Word) :
    s.wordWrite slot [] (Reg.CAN_CTRL c, v) = s.canCtrl c.val v := by
  have key : ∀ (c : Fin 4), inNvWindow (Reg.CAN_CTRL c) = false ∧ hasAcc .rws (Reg.CAN_CTRL c) = false ∧ blockOf (Reg.CAN_CTRL c) = some .can ∧ (Reg.CAN_CTRL c - Reg.CAN_CTRL 0) / 0x1000 = c.val ∧ (Reg.CAN_CTRL c - Reg.CAN_CTRL 0) % 0x1000 = 0 := by decide
  obtain ⟨h0, h1, h2, h3, h4⟩ := key c
  rw [State.wordWrite_reg _ _ _ _ h0 h1, State.regWrite, h2]
  show s.canWrite _ _ v = _
  rw [h3, h4, State.canWrite]
  rw [if_pos rfl]

theorem State.wordWrite_canPop (s : State) (slot : Nat) (c : Fin 4) (q : Fin 2) (v : Word) :
    s.wordWrite slot [] (Reg.CAN_RXQ_q_POP c q, v) = s.canPop c.val q.val := by
  have key : ∀ (c : Fin 4) (q : Fin 2), inNvWindow (Reg.CAN_RXQ_q_POP c q) = false ∧ hasAcc .rws (Reg.CAN_RXQ_q_POP c q) = false ∧ blockOf (Reg.CAN_RXQ_q_POP c q) = some .can ∧ (Reg.CAN_RXQ_q_POP c q - Reg.CAN_CTRL 0) / 0x1000 = c.val ∧ (Reg.CAN_RXQ_q_POP c q - Reg.CAN_CTRL 0) % 0x1000 = 0xC4 + 0x10 * q.val ∧ ¬ (0xC4 + 0x10 * q.val) = 0 ∧ arrayIdx 0xC4 0x10 2 (0xC4 + 0x10 * q.val) = some q.val := by decide
  obtain ⟨h0, h1, h2, h3, h4, h5, h6⟩ := key c q
  rw [State.wordWrite_reg _ _ _ _ h0 h1, State.regWrite, h2]
  show s.canWrite _ _ v = _
  rw [h3, h4, State.canWrite]
  rw [if_neg h5, h6]

theorem State.wordWrite_txbCtrl (s : State) (slot : Nat) (c : Fin 4) (b : Fin 32) (v : Word) :
    s.wordWrite slot [] (Reg.CAN_TXB_b_CTRL c b, v) = s.txbWrite c.val b.val 0 v := by
  have key : ∀ (c : Fin 4) (b : Fin 32), inNvWindow (Reg.CAN_TXB_b_CTRL c b) = false ∧ hasAcc .rws (Reg.CAN_TXB_b_CTRL c b) = false ∧ blockOf (Reg.CAN_TXB_b_CTRL c b) = some .can ∧ (Reg.CAN_TXB_b_CTRL c b - Reg.CAN_CTRL 0) / 0x1000 = c.val ∧ (Reg.CAN_TXB_b_CTRL c b - Reg.CAN_CTRL 0) % 0x1000 = 0x600 + 0x50 * b.val ∧ ¬ (0x600 + 0x50 * b.val) = 0 ∧ arrayIdx 0xC4 0x10 2 (0x600 + 0x50 * b.val) = none ∧ elemOf 0x600 0x50 32 (0x600 + 0x50 * b.val) = some b.val ∧ (0x600 + 0x50 * b.val - 0x600) % 0x50 / 4 = 0 := by decide
  obtain ⟨h0, h1, h2, h3, h4, h5, h6, h7, h8⟩ := key c b
  rw [State.wordWrite_reg _ _ _ _ h0 h1, State.regWrite, h2]
  show s.canWrite _ _ v = _
  rw [h3, h4, State.canWrite]
  rw [if_neg h5, h6, h7, h8]

theorem State.wordWrite_timing (s : State) (slot : Nat) (c : Fin 4) (w : Fin 3) (v : Word) :
    s.wordWrite slot [] (timingReg c w, v) = s.plainWrite (timingReg c w) v := by
  have key : ∀ (c : Fin 4) (w : Fin 3), inNvWindow (timingReg c w) = false ∧ hasAcc .rws (timingReg c w) = false ∧ blockOf (timingReg c w) = some .can ∧ (timingReg c w - Reg.CAN_CTRL 0) / 0x1000 = c.val ∧ (timingReg c w - Reg.CAN_CTRL 0) % 0x1000 = 4 + 4 * w.val ∧ ¬ (4 + 4 * w.val) = 0 ∧ arrayIdx 0xC4 0x10 2 (4 + 4 * w.val) = none ∧ elemOf 0x600 0x50 32 (4 + 4 * w.val) = none ∧ Reg.CAN_CTRL c + (4 + 4 * w.val) = timingReg c w := by decide
  obtain ⟨h0, h1, h2, h3, h4, h5, h6, h7, h8⟩ := key c w
  rw [State.wordWrite_reg _ _ _ _ h0 h1, State.regWrite, h2]
  show s.canWrite _ _ v = _
  rw [h3, h4, State.canWrite]
  rw [if_neg h5, h6, h7, h8]

/-- A row of the register map ends below an address. -/
def RegRow.below (r : RegRow) (lo : Nat) : Bool := match r.dims with
  | [] => decide (r.base < lo)
  | [d] => decide (0 < d.1) && decide (0 < d.2) && decide (r.base + d.1 * (d.2 - 1) < lo)
  | d :: _ :: _ => decide (0 < d.1) && decide (r.base + d.1 * d.2 ≤ lo)

theorem RegRow.not_on {r : RegRow} {lo a : Nat} (h : r.below lo = true) (ha : lo ≤ a) : onArray r.dims (a - r.base) = false := by
  unfold RegRow.below at h
  cases hd : r.dims with
  | nil =>
    rw [hd] at h
    simp only [decide_eq_true_eq] at h
    simp only [onArray, beq_eq_false_iff_ne, ne_eq]
    omega
  | cons d t =>
    rw [hd] at h
    cases t with
    | nil =>
      simp only [Bool.and_eq_true, decide_eq_true_eq] at h
      simp only [onArray, Bool.and_eq_false_iff, decide_eq_false_iff_not, not_lt, beq_eq_false_iff_ne, ne_eq]
      by_contra hc
      push Not at hc
      obtain ⟨h1, h2⟩ := hc
      have h3 := Nat.div_add_mod (a - r.base) d.1
      have h4 : (a - r.base) / d.1 ≤ d.2 - 1 := by omega
      have h5 := Nat.mul_le_mul_left d.1 h4
      omega
    | cons e u =>
      simp only [Bool.and_eq_true, decide_eq_true_eq] at h
      simp only [onArray, Bool.and_eq_false_iff, decide_eq_false_iff_not, not_lt]
      refine .inl ((Nat.le_div_iff_mul_le h.1).2 ?_)
      rw [Nat.mul_comm]
      omega

/-- Where every row of a block with a field of an access code ends below an address, no register from there on has one. -/
theorem hasAcc_of_block {c : Acc} {b : Blk} {a lo : Nat}
    (h : (rowsOf b).all (fun r => r.fields.all (fun f => f.acc != c) || r.below lo) = true) (hb : blockOf a = some b) (ha : lo ≤ a) :
    hasAcc c a = false := by
  unfold hasAcc fieldsAt rowAt
  rw [hb]
  simp only
  split
  · rename_i r hr
    have g := List.all_eq_true.1 h r (List.mem_of_find?_eq_some hr)
    rw [Bool.or_eq_true] at g
    rcases g with g | g
    · simp only [List.any_eq_false, beq_iff_eq]
      intro f hf e
      have := List.all_eq_true.1 g f hf
      simp [e] at this
    · have e := List.find?_some hr
      simp [RegRow.not_on g ha] at e
  · rfl

theorem blockOf_fbp {a : Nat} (h1 : 0x38000 ≤ a) (h2 : a < 0x40000) : blockOf a = some .fbp := by
  unfold blockOf
  iterate 8 rw [if_neg (by omega)]
  rw [if_pos h2]

theorem blockOf_loop {a : Nat} (h1 : 0x30000 ≤ a) (h2 : a < 0x38000) : blockOf a = some .loop := by
  unfold blockOf
  iterate 7 rw [if_neg (by omega)]
  rw [if_pos h2]

theorem not_nv_of_block {a : Nat} (h : a < 0x100000) : inNvWindow a = false := by
  have : ¬ 0x20000000 ≤ a := by omega
  simp [inNvWindow, this]

theorem State.wordWrite_xv (s : State) (slot : Nat) (k : Fin 4096) (v : Word) :
    s.wordWrite slot [] (Reg.FBP_XV_k k, v) = s.plainWrite (Reg.FBP_XV_k k) v := by
  have hk := k.isLt
  have hx : Reg.FBP_XV_k k = 0x3C000 + 4 * k.val := rfl
  have hf : Reg.FBP_FORCE_c_n 0 0 = 0x38400 := rfl
  have hb : blockOf (Reg.FBP_XV_k k) = some .fbp := blockOf_fbp (by omega) (by omega)
  rw [State.wordWrite_reg _ _ _ _ (not_nv_of_block (by omega)) (hasAcc_of_block (lo := 0x3C000) (by decide) hb (by omega)), State.regWrite, hb]
  have h1 : elemOf (Reg.FBP_FORCE_c_n 0 0) 0x80 5 (Reg.FBP_XV_k k) = none := by
    unfold elemOf
    rw [if_neg]
    simp only [Bool.and_eq_true, decide_eq_true_eq, not_and, not_lt]
    omega
  simp only
  rw [if_neg (by rw [hx]; exact ne_of_gt (by simp only [Reg.FBP_CTRL]; omega)), if_neg (by rw [hx]; exact ne_of_gt (by simp only [Reg.FBP_FORCE_CTRL]; omega)), if_neg (by rw [hx]; exact ne_of_gt (by simp only [Reg.FBP_FORCE_CMD]; omega)), h1]

theorem State.wordWrite_force (s : State) (slot : Nat) (c : Fin 5) (n : Fin 32) (v : Word) :
    s.wordWrite slot [] (Reg.FBP_FORCE_c_n c n, v) = s.wr (Reg.FBP_FORCE_c_n c n) (forceMask c.val v) := by
  have hc := c.isLt
  have hn := n.isLt
  have hx : Reg.FBP_FORCE_c_n c n = 0x38400 + 0x80 * c.val + 4 * n.val := rfl
  have hf : Reg.FBP_FORCE_c_n 0 0 = 0x38400 := rfl
  have ha : ∀ (c : Fin 5) (n : Fin 32), hasAcc .rws (Reg.FBP_FORCE_c_n c n) = false := by decide
  have hb : blockOf (Reg.FBP_FORCE_c_n c n) = some .fbp := blockOf_fbp (by omega) (by omega)
  rw [State.wordWrite_reg _ _ _ _ (not_nv_of_block (by omega)) (ha c n), State.regWrite, hb]
  have h1 : elemOf (Reg.FBP_FORCE_c_n 0 0) 0x80 5 (Reg.FBP_FORCE_c_n c n) = some c.val := by
    unfold elemOf
    rw [if_pos (by simp only [Bool.and_eq_true, decide_eq_true_eq]; omega)]
    congr 1
    omega
  simp only
  rw [if_neg (by rw [hx]; exact ne_of_gt (by simp only [Reg.FBP_CTRL]; omega)), if_neg (by rw [hx]; exact ne_of_gt (by simp only [Reg.FBP_FORCE_CTRL]; omega)), if_neg (by rw [hx]; exact ne_of_gt (by simp only [Reg.FBP_FORCE_CMD]; omega)), h1]

theorem State.wordWrite_coef (s : State) (slot : Nat) (n : Fin 64) (b : Fin 2) (j : Fin 8) (k : Fin 6) (v : Word) :
    s.wordWrite slot [] (Reg.LOOP_n_Bb_Sj_Ck n b j k, v) = s.plainWrite (Reg.LOOP_n_Bb_Sj_Ck n b j k) v := by
  have h1 := n.isLt
  have h2 := b.isLt
  have h3 := j.isLt
  have h4 := k.isLt
  have hx : Reg.LOOP_n_Bb_Sj_Ck n b j k = 0x32000 + 0x180 * n.val + 0xC0 * b.val + 0x18 * j.val + 0x4 * k.val := rfl
  have hb : blockOf (Reg.LOOP_n_Bb_Sj_Ck n b j k) = some .loop := blockOf_loop (by omega) (by omega)
  rw [State.wordWrite_reg _ _ _ _ (not_nv_of_block (by omega)) (hasAcc_of_block (lo := 0x32000) (by decide) hb (by omega)), State.regWrite, hb]
  have h5 : arrayIdx (Reg.LOOP_n_CTRL 0) 0x40 64 (Reg.LOOP_n_Bb_Sj_Ck n b j k) = none := by
    unfold arrayIdx
    rw [if_neg]
    simp only [Bool.and_eq_true, decide_eq_true_eq, not_and, not_lt]
    intro _
    simp only [Reg.LOOP_n_CTRL, Reg.LOOP_n_Bb_Sj_Ck]
    omega
  simp only [h5]

end Sys2Proof.Machine
end

