-- ==== Sys2Proof/Tests/Slice0.lean ====
section
/-!
SUPPORT. Tests/Slice0.lean: a smoke test for each check of WellFormed, and for each statement with hypotheses a concrete
state and operands that meet all of them together.
-/

namespace Sys2Proof.Tests

open Sys2Proof Sys2Proof.Machine

set_option Elab.async false

/-- The requester of the witnesses: key slot 1 at port 0. -/
def src : Src := ⟨1, 0⟩

/-! ## WellFormed refuses -/

theorem test_wf_frame (l : List Byte) (h : l.length = 1473) : Instr.wf (.hwpRequest l 0 0#32 0#16) = false := by
  simp [Instr.wf, fitsFrame, h]
theorem test_wf_frame_ok (l : List Byte) (h : l.length = 1472) : Instr.wf (.hwpRequest l 0 0#32 0#16) = true := by
  simp [Instr.wf, fitsFrame, h]
theorem test_wf_read : Instr.wf (.read src 0#32 353#16 0#64) = false := by decide
theorem test_wf_read_none : Instr.wf (.read src 0#32 0#16 0#64) = false := by decide
theorem test_wf_write : Instr.wf (.write src 0#32 [] none) = false := by decide
theorem test_wf_writelist (l : List (Word × Word)) (h : l.length = 177) : Instr.wf (.writelist src l none) = false := by
  simp [Instr.wf, fitsRequest, h]
theorem test_wf_load : Instr.wf (.load src 0#32 [] none) = false := by decide
theorem test_wf_lap : Instr.wf (.lapBoundary 20000000#25 []) = false := by decide
theorem test_wf_pacer : Instr.wf (.pacerGrant 0 ⟨[(0, 0#13)], none⟩) = false := by decide
theorem test_wf_block : Instr.wf (.blockReceive 0 0 none .image (List.replicate 6 ⟨[], 0#32⟩)) = false := by decide
theorem test_wf_scrub : Instr.wf (.dramScrub (List.replicate 6 ⟨[], 0#32⟩)) = false := by decide
theorem test_wf_block_bytes : Instr.wf (.dramScrub [⟨[], 0#32⟩]) = false := by decide
theorem test_wf_density : Instr.wf (.lapBoundary 20000000#25 (List.replicate 4 ⟨[⟨⟨⟨2, 1⟩, ⟨0, 1⟩⟩, ⟨⟨0, 1⟩, ⟨0, 1⟩⟩, ⟨⟨0, 1⟩, ⟨0, 1⟩⟩⟩]⟩)) = false := by decide
theorem test_wf_harmonics : Instr.wf (.harmonicWindow 0 0#32 []) = false := by decide
theorem test_wf_can : Instr.wf (.canFrameReceive 0 0#32 0#32 0#32 (List.replicate 65 0#8) true 0) = false := by decide
theorem test_wf_power_fail : Instr.wf (.powerFail true 0#16 [] 0#25) = false := by decide
theorem test_wf_torn : Instr.wf (.lossOfPower (.userPage [])) = false := by decide

/-! ## The hypotheses of each statement can be met -/

/-- Registers put over those of a state. -/
def put (s : State) (l : List (Nat × Word)) : State := l.foldl (fun t e => t.wr e.1 e.2) s

/-- A small image: a GRAPH section with one unit, a LOOPS section with one PID loop, an IOMAP section with AIN 0 a voltage input, AOUT 0
and DO 0 driven by firmware, and a TELE section with one substation. -/
def image : ImgBytes :=
  [(0x0C, 1, 4), (0x40, 1, 1), (0x45, 1, 2), (0x49, 1, 1), (0x50, 1, 7), (0x55, 1, 4), (0x59, 1, 1), (0x60, 1, 8), (0x65, 1, 6), (0x69, 1, 4),
    (0x70, 1, 10), (0x75, 1, 10), (0x79, 1, 1), (0x203, 1, 1), (0x204, 1, 12), (0x206, 1, 15), (0x208, 1, 1), (0x402, 1, 1), (0x410, 1, 1), (0x420, 1, 1),
    (0x620, 1, 3), (0x820, 1, 1), (0x821, 1, 3), (0x920, 1, 3), (0xA02, 1, 1)].foldl (fun t e => tabSetList 0#8 t e.1 (leBytes e.2.1 e.2.2)) []

/-- The module right after reset with that image running from slot A, with a range for one coefficient of
bank 1, and with a sett of this start committed. -/
def runs : State :=
  put { State.reset with img := { resetImg with slotA := image, defaults := [⟨Reg.LOOP_n_Bb_Sj_Ck 0 1 0 5, 0, 0#32, some (-10, 10)⟩] },
                           sett := { resetSett with started := true } } [(Reg.IMG_RUN, 2#32)]

/-- The module without supply. -/
def dark : State := { State.reset with boot := { resetBoot with phase := .off } }

/-- The module as a MEMBER of a pair in a STATE of PAIR_STATE. -/
def member (k : Word) : State := put { runs with pair := { resetPair with role := 1 } } [(Reg.PAIR_STATE, k)]

/-- Ethernet ports that H7 has brought up. -/
def linked : State := { runs with boot := { resetBoot with passed := [7] } }

theorem wit_IdleTick : State.reset.pending = [] ∧ State.reset.supplied ∧ dark.pending = [] ∧ dark.boot.phase = Phase.off := by
  simp only [State.supplied]; decide +kernel
theorem wit_OffChangesNothing : dark.boot.phase = Phase.off := by decide
theorem wit_ImageLoading :
    (put State.reset [(Reg.IMG_LOAD_LEN, 4096#32)]).grants src Reg.IMG_LOAD_CTRL (BitVec.ofNat 32 (1 + true.toNat * 2 ^ 8))
    ∧ (put State.reset [(Reg.IMG_LOAD_STAT, 0x100#32)]).grants src Reg.IMG_LOAD_CTRL 2#32
    ∧ (put State.reset [(Reg.IMG_LOAD_STAT, 0x200#32)]).fld Reg.IMG_LOAD_STAT 8 3 = 2
    ∧ (put State.reset [(Reg.IMG_LOAD_STAT, 0x301#32)]).grants src Reg.IMG_LOAD_CTRL 4#32
    ∧ State.reset.grants src Reg.IMG_LOAD_CTRL 8#32
    ∧ (put State.reset [(Reg.IMG_SLOTB_STAT, 2#32)]).grants src Reg.IMG_ACT_CTRL (BitVec.ofNat 32 (1 + true.toNat * 2 ^ 8))
    ∧ runs.grants src Reg.IMG_ACT_CTRL 0x10000#32 := by
  simp only [State.grants]; decide +kernel

/-- A state with a sett of this start readable, at epoch 7. -/
def committed : State := put { runs with sett := { resetSett with started := true, epoch := 7, held := [⟨7, []⟩], fresh := some ⟨7, []⟩ } } []

/-- A state with a write set open by slot 1, in lap 9. -/
def openSet : State :=
  { runs with sett := { runs.sett with ws := some ⟨false, 1, false, [], false, 0, 0⟩ }, lap := { runs.lap with count := 9, tick := 4095 } }

/-- A solve in progress whose assembly has, or has not, ended. -/
def solving (assembled waiting : Bool) : Solve :=
  ⟨true, assembled, 1, 0, 0, [], some ⟨0, 0, [], [], [], []⟩, ⟨[], [], [], []⟩, none, 0, 0, ⟨0, 0, 0⟩, .none, 4, false, false, waiting⟩

/-- A dispatch cycle whose deadline is lap 30. -/
def cycle : Cycle := ⟨0, 20, 0, 30, 0, 0, 0, false, false, [], ⟨[], []⟩, false, false, [], [], [], []⟩

/-- The module at tick 0 of a lap with a solve and a cycle. -/
def solves (assembled waiting : Bool) (lap : Nat) : State :=
  { runs with dsp := { resetDsp with solve := some (solving assembled waiting), cycle := some cycle, dlOpen := true }, lap := { resetLap with count := lap } }

theorem wit_StepRunsFront : ({ State.reset with pending := [.gridPoint, .wake] } : State).pending = .gridPoint :: [.wake] := rfl
theorem wit_QueueKept : ∃ t u, exec .gridPoint State.reset = .next t ∧ { State.reset with pending := [.gridPoint] }.pending = Instr.gridPoint :: []
    ∧ step { State.reset with pending := [.gridPoint] } = .next u := ⟨_, _, rfl, rfl, rfl⟩
theorem wit_InvariantKept : ({ State.reset with pending := [.gridPoint] } : State).Inv ∧ ∃ t, step { State.reset with pending := [.gridPoint] } = .next t :=
  ⟨⟨by decide +kernel, by unfold NvState.wf; decide +kernel, by unfold ImgState.wf; decide +kernel, by unfold FabState.wf; decide +kernel,
    by unfold FbpState.wf; decide +kernel, by decide +kernel, ⟨by decide +kernel, nofun, nofun⟩, rfl⟩, _, rfl⟩
theorem wit_ResetRegisterValues : ∃ r ∈ rowsOf .lap, r.base ≠ Reg.ZID_FAULT_STATE ∧ ∃ f ∈ r.fields, f.rst = .val 20000000 := by decide +kernel
theorem wit_LapsAndBatons :
    State.reset.supplied ∧ State.reset.bit Reg.LAP_INJ 0 = false ∧ State.reset.grants src Reg.LAP_SRC_CTRL 0x320000#32
    ∧ State.reset.grants src Reg.LAP_FREE_PERIOD 16666667#32 ∧ State.reset.grants src Reg.LAP_FREE_PERIOD 20000000#32
    ∧ State.reset.clearSent.readDeny src.slot.val Reg.LAP_COUNT_LO = none := by
  simp only [State.supplied, State.grants]; decide +kernel
theorem wit_LapsAndBatons_burst :
    (solves false true 20).dsp.solve = some (solving false true) ∧ (solving false true).waiting = true ∧ (solves false true 20).supplied := by
  simp only [State.supplied]; decide +kernel
theorem wit_SettsAndWriteSets :
    State.reset.sett.fresh = none ∧ committed.sett.fresh = some ⟨7, []⟩ ∧ State.reset.bit Reg.NVS_INJ 1 = false
    ∧ runs.grants src Reg.SETT_WS_CTRL 1#32 ∧ openSet.grants src Reg.SETT_WS_CTRL 2#32 ∧ openSet.grants src Reg.SETT_WS_CTRL 4#32
    ∧ State.reset.sett.ws = none ∧ openSet.lap.tick = 4095 ∧ openSet.sett.ws = some ⟨false, 1, false, [], false, 0, 0⟩ := by
  simp only [State.grants]; decide +kernel
theorem wit_DispatchAndSolver_cycle :
    (let s := put { runs with boot := { resetBoot with passed := [15] }, dsp := { resetDsp with nextStart := some 20 }, lap := { resetLap with count := 20 } }
       [(Reg.DSP_CTRL, 1#32), (Reg.DSP_INJ, 0#32)]
     s.lap.tick = 0 ∧ s.imgRuns = true ∧ s.boot.passed.contains 15 = true ∧ s.bit Reg.DSP_CTRL 0 = true ∧ s.isActive = true
      ∧ s.dsp.nextStart.all (fun l => l ≤ s.lap.count) = true ∧ s.dsp.dlOpen = false ∧ s.dsp.nofit = false ∧ s.dsp.fallback = false
      ∧ s.mapLive.fits false = true)
    ∧ runs.grants src (Reg.DSP_MEAS_u 0) 0#32 ∧ runs.grants src Reg.DSP_MEAS_TOUT 5#32 := by
  simp only [State.grants]; decide +kernel
theorem wit_DispatchAndSolver_solve :
    (solves true false 20).dsp.solve.all (fun v => !v.running || v.assembled) = true
    ∧ (solves false false 20).dsp.cycle = some cycle ∧ (solving false false).running = true ∧ (solving false false).assembled = false
    ∧ (solves false false 20).tooLate = false ∧ (solves true true 20).dsp.solve.all (fun v => !v.iterating || v.qp.isNone) = true
    ∧ (solving true false).qp = some ⟨0, 0, [], [], [], []⟩ ∧ (solving true false).iterating = true ∧ (solves true false 29).tooLate = false
    ∧ State.reset.dsp.dlOpen = false ∧ (solves true false 30).dsp.dlOpen = true ∧ (solves true false 30).lap.tick = 0
    ∧ cycle.deadline ≤ (solves true false 30).lap.count ∧ (solves true false 30).bit Reg.DSP_RES_INJ 0 = false := by decide +kernel

/-- The module with a program that has reached a point of its cycle. -/
def program (state now : Nat) (isOpen : Bool) : State :=
  put { runs with fbp := { resetFbp with cycleOpen := isOpen, wdogAt := 100 }, lap := { resetLap with tick := now } } [(Reg.FBP_STATE, BitVec.ofNat 32 state)]

/-- A fabric block whose sideband CRC is wrong. -/
def badBlock : Block := ⟨[], 1#32⟩

theorem wit_FabricIntegrity :
    State.reset.supplied ∧ State.reset.failsOf 3 ((List.replicate 5 badBlock).map Block.bad) = 5
    ∧ listGet State.reset.fab.want.banks 49 = 0 ∧ (8191#14).toNat < 8192 ∧ State.reset.rd Reg.FAB_INJ = 0#32 ∧ State.reset.bit Reg.NVS_INJ 0 = false := by
  simp only [State.supplied]; decide +kernel
theorem wit_LoopEngine :
    (0 < runs.nloop → runs.boot.control = true → runs.loopDue 0 (runs.runImg.loop 0) = true → runs.loopTurn 0 (runs.runImg.loop 0) = false)
    ∧ (let s := put { runs with boot := { resetBoot with control := true } } [(Reg.LOOP_n_PERIOD 0, 2#32)]
       s.rd Reg.LOOP_INJ = 0#32 ∧ 0 < s.nloop ∧ s.boot.control = true ∧ s.loopDue 0 (s.runImg.loop 0) = true ∧ s.loopTurn 0 (s.runImg.loop 0) = true)
    ∧ runs.grants src (Reg.LOOP_n_CTRL 0) 1#32 ∧ runs.grants src (Reg.LOOP_n_CTRL 0) 0#32 ∧ runs.grants src (Reg.LOOP_n_CTRL 0) 2#32
    ∧ runs.grants src (Reg.LOOP_n_CTRL 0) 4#32 ∧ runs.grants src (Reg.LOOP_n_Bb_Sj_Ck 0 1 0 5) 10#32 := by
  simp only [State.grants]; decide +kernel
theorem wit_ProgramAndForcing_cycle :
    (program 2 64 true).supplied ∧ (program 2 64 true).fld Reg.FBP_STATE 0 2 = 2 ∧ (program 2 64 true).fbp.cycleOpen = true
    ∧ (program 1 64 true).fld Reg.FBP_STATE 0 2 ≠ 2 ∧ (program 2 100 true).fbp.wdogDone = false ∧ (program 2 100 true).fbp.wdogAt ≤ (program 2 100 true).now
    ∧ (program 2 99 true).now < (program 2 99 true).fbp.wdogAt ∧ (program 2 99 false).fbp.cycleOpen = false
    ∧ (program 2 64 true).grants src Reg.FBP_CTRL 1#32 ∧ (program 1 64 false).grants src Reg.FBP_CTRL 6#32 ∧ (program 1 64 false).grants src Reg.FBP_CTRL 2#32 := by
  simp only [State.supplied, State.grants]; decide +kernel
theorem wit_ProgramAndForcing_force :
    runs.grants src Reg.FBP_FORCE_CMD (BitVec.ofNat 32 ((0#11).toNat + 65536)) ∧ runs.grants src Reg.FBP_FORCE_CMD (BitVec.ofNat 32 ((0x10F#11).toNat + 131072))
    ∧ runs.grants src Reg.FBP_FORCE_CTRL 0x1000000#32 ∧ runs.grants src (Reg.FBP_FORCE_c_n 1 15) 1#32 ∧ runs.grants src (Reg.FBP_FORCE_c_n 4 0) 9#32
    ∧ runs.grants src (Reg.FBP_XV_k 0) 1#32 ∧ runs.grants src (Reg.FBP_XV_k 4095) 0xFFFFFFFF#32 := by
  simp only [State.grants]; decide +kernel

/-- Channel 0 of the image converts: its bank has settled; a check of the bank runs. -/
def converting : State :=
  put { runs with field := { resetField with refs := ⟨true, 0, 0, true, false, true, true⟩ :: List.replicate 3 ⟨false, 0, 0, false, false, false, false⟩ } }
    [(Reg.AIN_CAL_CTRL, 1#32)]

/-- A calibration step of channel 7 runs in bank 0; digital input 3 has a line fault. -/
def calibrating : State :=
  { runs with field := { resetField with cals := ⟨some 7, 0, 0, 0, 0x40000000, none⟩ :: List.replicate 3 ⟨none, 0, 0, 0, 0x40000000, none⟩, diFault := [(3, .openLine)] } }

/-- CAN channel 0 in an error state, with a frame in transmission or none. -/
def onBus (state : Word) (tx : Option CanTx) : State :=
  put { runs with can := { canIdle with mode := 1, tx := tx } :: List.replicate 3 canIdle } [(Reg.CAN_STATE 0, state)]

/-- A range for each field of NBT and DBT of CAN channel 0. -/
def timingFields : List DefaultEntry :=
  [(0, 0), (0, 8), (0, 17), (0, 24), (1, 0), (1, 8), (1, 16), (1, 24)].map (fun e => ⟨timingReg 0 e.1, e.2, 0#32, some (1, 127)⟩)

/-- The module with an image that leaves the bit timing of CAN channel 0 to firmware. -/
def timings : State :=
  { runs with img := { runs.img with defaults := timingFields } }

/-- The module with its ports up and its PTP clock on, domain 0 enabled on both ports; the domain has a master, or none. -/
def timed (m : Option PtpMaster) : State :=
  put { linked with ptp := { resetPtp with dom0 := { freshDomain with master := m, qual := m.isSome } } }
    [(Reg.ETH_PORT_p_CFG 0, 0xF#32), (Reg.PTP_CTRL, 1#32), (Reg.PTP_DOM_d_CFG 0, 0x700#32)]

/-- A master of domain 0 heard on port A. -/
def master : PtpMaster := ⟨[], 0, [], 0, 0, 0, 0#32, []⟩

theorem wit_FieldInputs_analog :
    converting.supplied ∧ converting.converts 0 = true ∧ converting.converts 31 = false ∧ (converting.ref 0).checking = true
    ∧ converting.bit Reg.AIN_CAL_CTRL 0 = true ∧ converting.bit (Reg.AIN_BANK_b_STAT 0) 7 = false ∧ (converting.cal 0).chan = none
    ∧ converting.usedFrom 0 (converting.cal 0).next = [0] ∧ (put runs [(Reg.AIN_CAL_CTRL, 0#32)]).bit Reg.AIN_CAL_CTRL 0 = false ∧ (calibrating.cal 0).chan = some (8 * 0 + 7) := by
  simp only [State.supplied]; decide +kernel
theorem wit_FieldInputs_digital : assocHas calibrating.field.diFault 31 = false ∧ assocHas calibrating.field.diFault 3 = true := by decide +kernel
theorem wit_FieldOutputs :
    runs.supplied ∧ runs.grants src (Reg.AOUT_n_SET 0) 0#32 ∧ runs.grants src Reg.DIO_DO_SET 1#32 ∧ runs.grants src (Reg.DIO_DO_n_CTRL 15) 1#32 := by
  simp only [State.supplied, State.grants]; decide +kernel
theorem wit_MeteringCommands :
    (let s := put runs [(Reg.MTR_F_f_CFG 3, 1#32), (Reg.MTR_T_t_CFG 15, 1#32)]
     s.supplied ∧ s.feederOn 3 = true ∧ s.grants src Reg.MTR_SNAP_CTRL 1#32 ∧ s.grants src Reg.MTR_SNAP_CTRL 0#32
      ∧ s.mtrWord 0x49140 = some 0#32 ∧ s.missing 0x49140 = false ∧ s.unusedChan 0x49140 = false) := by
  simp only [State.supplied, State.grants]; decide +kernel
theorem wit_CanReception :
    (onBus 2#32 none).supplied ∧ (onBus 2#32 none).can.length = 4 ∧ (onBus 2#32 none).canTakesPart 0 = true ∧ (onBus 2#32 none).rd (Reg.CAN_INJ 0) = 0#32
    ∧ (onBus 0#32 none).canTakesPart 0 = false ∧ (onBus 2#32 none).canState 0 = 2 ∧ (onBus 3#32 none).canState 0 = 3
    ∧ { runs with can := { canIdle with q0 := [⟨0, 5, 0, 0, 0, []⟩] } :: List.replicate 3 canIdle }.grants src (Reg.CAN_RXQ_q_POP 0 0) 5#32
    ∧ runs.imgRuns = true ∧ (((runs.canCh 3).queue 1).head?.map (·.seq)) ≠ some (bitsOf 5#32 0 16) := by
  simp only [State.supplied, State.grants]; decide +kernel
theorem wit_CanModes :
    runs.supplied ∧ runs.can.length = 4 ∧ (onBus 2#32 none).grants src (Reg.CAN_CTRL 0) 0#32 ∧ bitsOf 0#32 4 3 = 0 ∧ bitsOf 0#32 0 2 ≠ ((onBus 2#32 none).canCh 0).mode
    ∧ ((onBus 2#32 none).canCh 0).mode ≠ 0 ∧ timings.grants src (timingReg 0 0) (BitVec.ofNat 32 (1 + 127 * 2 ^ 8 + 32 * 2 ^ 17 + 2 ^ 24))
    ∧ timings.grants src (timingReg 0 1) (BitVec.ofNat 32 (1 + 31 * 2 ^ 8 + 8 * 2 ^ 16 + 2 ^ 24))
    ∧ runs.grants src (timingReg 3 2) (runs.rd (timingReg 3 2)) ∧ runs.grants src (Reg.CAN_CTRL 0) ((runs.rd (Reg.CAN_CTRL 0) &&& 0x393#32) ||| 0x20#32)
    ∧ runs.grants src (Reg.CAN_CTRL 0) ((runs.rd (Reg.CAN_CTRL 0) &&& 0x393#32) ||| 0x40#32) ∧ runs.fld (Reg.CAN_CTRL 0) 0 2 = (runs.canCh 0).mode
    ∧ runs.bit (Reg.CAN_INJ 0) 1 = false := by
  simp only [State.supplied, State.grants]; decide +kernel
theorem wit_CanTransmission :
    runs.grants src (Reg.CAN_TXB_b_CTRL 0 31) 1#32 ∧ runs.grants src (Reg.CAN_TXB_b_CTRL 0 31) 2#32 ∧ ((onBus 3#32 none).canCh 0).tx = none
    ∧ (onBus 3#32 none).canState 0 = 3 ∧ ¬ (runs.canState 0 = 2 ∨ runs.canState 0 = 3)
    ∧ ((onBus 2#32 (some ⟨31, 0, 0, [], false⟩)).canCh 0).tx = some ⟨31, 0, 0, [], false⟩ ∧ (onBus 2#32 none).bit (Reg.CAN_INJ 0) 1 = false := by
  simp only [State.grants]; decide +kernel
theorem wit_StatusTelegrams :
    (timed none).supplied ∧ ((timed none).clearSent.ethAccept 0).2 = true ∧ (timed none).imgRuns = true ∧ (timed none).bit (Reg.ETH_PORT_p_CFG 0) 3 = true
    ∧ (timed none).rd Reg.ETH_INJ = 0#32 ∧ runs.grants src Reg.ETH_SUBRESET 0#32 := by
  simp only [State.supplied, State.grants]; decide +kernel
theorem wit_EthernetPorts : (timed none).portUp 0 = true ∧ runs.portUp 2 = false ∧ ((timed none).clearSent.ethAccept 0).2 = true := by decide +kernel
theorem wit_PtpMessages :
    (timed (some master)).bit (Reg.ETH_PORT_p_CFG 0) 2 = true ∧ (timed (some master)).bit Reg.PTP_CTRL 0 = true
    ∧ (timed none).ptpDomOf [0#8, 2#8, 0#8, 44#8, 9#8] = none ∧ (timed none).ptpDomOf [0#8, 2#8, 0#8, 44#8, 0#8] = some 0
    ∧ ((timed none).fld (Reg.PTP_DOM_d_CFG 0) 9 2).testBit 1 = true ∧ ((timed (some master)).dom 0).master = some master
    ∧ (timed (some master)).bit (Reg.PTP_DOM_d_CFG 0) 8 = true ∧ (timed (some master)).portUp master.port = true := by decide +kernel
theorem wit_ClockNotStepped :
    (let s := (timed (some master)).setFld Reg.PTP_STATE 0 2 2
     s.ptpState = 2 ∧ s.ptp.rampTerm = 0 ∧ s.leads 0 = true ∧ (s.dom 0).qual = true ∧ (s.dom (otherDom 0)).qual = false ∧ (s.dom 0).master = some master)
    ∧ ((timed none).setFld Reg.PTP_STATE 0 2 3).ptpState = 3 := by decide +kernel
theorem wit_PtpClockCommands :
    runs.grants src Reg.PTP_CTRL ((runs.rd Reg.PTP_CTRL &&& 0xE#32) ||| BitVec.ofNat 32 (true.toNat))
    ∧ runs.grants src Reg.PTP_CTRL ((runs.rd Reg.PTP_CTRL &&& 0xD#32) ||| BitVec.ofNat 32 (true.toNat * 2))
    ∧ (timed none).grants src Reg.PTP_CTRL (((timed none).rd Reg.PTP_CTRL &&& 0xF#32) ||| 0x10#32) ∧ (timed none).bit Reg.PTP_CTRL 1 = false
    ∧ runs.grants src Reg.PTP_CTRL ((runs.rd Reg.PTP_CTRL &&& 0xF#32) ||| 0x20#32) ∧ (put runs [(Reg.PTP_CTRL, 2#32)]).bit Reg.PTP_CTRL 1 = true
    ∧ runs.grants src Reg.PTP_RATE 1000000001#32 ∧ runs.grants src (Reg.PTP_DOM_d_CFG 1) (runs.rd (Reg.PTP_DOM_d_CFG 1)) := by
  simp only [State.grants]; decide +kernel

/-- The facts of a partner that is ACTIVE. -/
def partner : Partner := ⟨true, 0, true, [], 0#32, 0#32, 0#32, 0#32, 0, 0⟩

/-- A witness in lap 300, which has heard side B report ACTIVE, with a move in progress or none. -/
def witness (move : Option Bool) : State :=
  { timed none with pair := { resetPair with role := 2, hearB := some ⟨1#32, 1, 299, true, true, true, false⟩, moveTo := move }, lap := { resetLap with count := 300 } }

/-- A USER word of the NV window, unencrypted. -/
def userWord : Nat := 0x20340000

/-- The NV store with a job of each internal writer. -/
def storing : State :=
  { runs with lap := { resetLap with batonHeld := [0, 8, 0, 0, 0, 0] }
              nv := { resetNv with dirty := [0], store := some ⟨true, false, 0#32, [], 0⟩, jobs := [⟨src, [(userWord, 5#32)], 0, false, none, 0, none⟩],
                                   pwJobs := [⟨7, true, none, 0⟩], tallyJobs := [(0, false), (511, true)],
                                   tallies := [(16, ⟨[], none, none, 0xFFFFFFFF#32⟩)] } }

/-- A key update whose slot copy is, or is not, still to be counted. -/
def keyed (counted : Bool) : State :=
  { runs with key := { resetKey with job := some ⟨31, ⟨3#32, none⟩, counted, false⟩ }, nv := { resetNv with tallyJobs := [(2, false)] } }

theorem wit_RequestChecks : ((timed none).clearSent.ethAccept 0).2 = true ∧ (timed none).hwpOn 0 = true ∧ (timed none).rd Reg.HWP_INJ = 0#32 := by
  decide +kernel
theorem wit_RequestTakeUp :
    (let b := [1#8, 1#8, 0#8, 0#8, 1#8, 0#8, 1#8, 0#8] ++ List.replicate 44 0#8
     reqLengthBad b = false ∧ reqFormBad b = false) ∧ (timed none).hwpFull = false := by decide +kernel
theorem wit_UnassignedAddressRefused : inNvWindow 0xFFFC = false ∧ inSettWindow 0xFFFC = false ∧ populated 0xFFFC = false := by decide +kernel
theorem wit_WordsCheckedFirst : (runs.clearSent.scanWords src.slot.val [(Reg.ZID_CTRL, 0#32), (0xFFFC, 0#32)] 0).map (·.1) = some 1 := by decide +kernel
theorem wit_RegisterWrite :
    blockOf Reg.FAB_LCHK = some Blk.fab ∧ hasAcc .rws Reg.FAB_LCHK = false ∧ runs.grants src Reg.FAB_LCHK 5#32
    ∧ hasAcc .rws Reg.DSP_CTRL = true ∧ openSet.grants src Reg.DSP_CTRL (openSet.rd Reg.DSP_CTRL) := by
  simp only [State.grants]; decide +kernel
theorem wit_Reads :
    inNvWindow Reg.IMG_RUN = false ∧ inSettWindow Reg.IMG_RUN = false ∧ runs.missing Reg.IMG_RUN = false
    ∧ blockOf Reg.IMG_RUN ∉ [some Blk.rtc, some .ptp, some .mtr] ∧ inSettWindow 0x10000000 = true ∧ inSettWindow 0x1FFFFFFC = true := by decide +kernel
theorem wit_LoadAndPublish : openSet.supplied ∧ openSet.sett.ws = some ⟨false, 1, false, [], false, 0, 0⟩ ∧ openSet.imgRuns = true := by
  simp only [State.supplied]; decide +kernel
theorem wit_PairLevels : (member 1#32).supplied := by simp only [State.supplied]; decide +kernel
theorem wit_PairOwl : (let s := { timed none with pair := { resetPair with role := 1 } }
    s.supplied ∧ (s.clearSent.ethAccept 1).2 = (timed none).portUp 1 ∧ (s.clearSent.ethAccept 0).2 = true ∧ s.pair.role = 1) := by
  simp only [State.supplied]; decide +kernel
theorem wit_PairJoin :
    (member 1#32).pairState = 1 ∧ (member 1#32).boot.noJoin = false ∧ partner.active = true
    ∧ (member 1#32).grants src Reg.PAIR_CTRL (((member 1#32).rd Reg.PAIR_CTRL &&& 0x100#32) ||| 1#32)
    ∧ (put (member 1#32) [(Reg.PAIR_CTRL, 0x100#32)]).bit Reg.PAIR_CTRL 8 = true ∧ (member 4#32).pairState ≠ 1
    ∧ (member 0x20002#32).pairState = 2 ∧ (member 0x20002#32).fld Reg.PAIR_STATE 16 2 = 2 ∧ (member 0x20002#32).pfailed = false
    ∧ (member 0x30002#32).fld Reg.PAIR_STATE 16 2 = 3 ∧ (member 0x30002#32).bit Reg.PAIR_INJ 0 = false
    ∧ (member 4#32).grants src Reg.PAIR_CTRL (((member 4#32).rd Reg.PAIR_CTRL &&& 0x100#32) ||| BitVec.ofNat 32 (true.toNat * 2)) := by
  simp only [State.grants]; decide +kernel
theorem wit_PairSynchronisation :
    (member 0x13#32).isStandby = true ∧ (member 0x13#32).pfailed = false ∧ (member 0x13#32).bit Reg.PAIR_INJ 0 = false ∧ (false && true) = false
    ∧ (member 0x13#32).pairSync = true ∧ SyncLoss.told ≠ SyncLoss.aged ∧ (member 4#32).pairState = 4 := by decide +kernel
theorem wit_PairActiveRole :
    (let s := { member 3#32 with pair := { resetPair with role := 1, grantIn := true, grantSide := some 0 }, lap := { resetLap with tick := 1 } }
     s.pfailed = false ∧ s.mayTake = true ∧ s.pairState = 3)
    ∧ (member 3#32).mayTake = false ∧ (member 4#32).pair.role = 1 ∧ (member 4#32).pairState = 4 ∧ (member 4#32).mustLeave = true
    ∧ (member 3#32).pairState ≠ 4 := by decide +kernel
theorem wit_PairWitness :
    (witness none).supplied ∧ ((witness none).clearSent.ethAccept 0).2 = true ∧ (witness none).pair.role = 2 ∧ (witness none).pair.moveTo = none
    ∧ (witness none).witnessMove = some true ∧ (witness (some true)).pair.moveTo ≠ none ∧ (witness (some false)).pair.moveTo = some false
    ∧ (witness (some false)).lowEnough = true ∧ (witness none).grants src Reg.PAIR_WIT_CTRL 1#32 := by
  simp only [State.supplied, State.grants]; decide +kernel
theorem wit_KeyUpdateMessage :
    runs.grants src (Reg.KEY_UPD_BUF_w 31) 7#32 ∧ runs.grants src Reg.KEY_UPD_CTRL 0#32 ∧ runs.grants src Reg.KEY_UPD_CTRL 1#32 := by
  simp only [State.grants]; decide +kernel
theorem wit_KeyUpdateSteps :
    (keyed true).bit Reg.KEY_INJ 1 = false ∧ (keyed true).bit Reg.NVS_INJ 0 = false ∧ (keyed true).key.job = some ⟨31, ⟨3#32, none⟩, true, false⟩
    ∧ (keyed false).key.job = some ⟨31, ⟨3#32, none⟩, false, false⟩ ∧ (keyed false).bit Reg.NVS_INJ 1 = false
    ∧ ((keyed false).nv.tallyJobs.find? (fun q => q.1 == 2)) = some (2, false) ∧ runs.key.job = none := by decide +kernel
theorem wit_ChallengeAnswer : ((timed none).clearSent.ethAccept 0).2 = true ∧ (timed none).hwpOn 0 = true := by decide +kernel
theorem wit_NvUnlocks :
    runs.grants src Reg.NVS_UNLOCK_CTRL (BitVec.ofNat 32 ((7#3).toNat + true.toNat * 2 ^ 8)) ∧ pwRegion (7#3).toNat = true
    ∧ runs.grants src Reg.NVS_CTRL 2#32 := by
  simp only [State.grants]; decide +kernel
theorem wit_NvPasswords :
    runs.grants src Reg.NVS_PWSET_CTRL (BitVec.ofNat 32 ((7#3).toNat + true.toNat * 2 ^ 8 + false.toNat * 2 ^ 9)) ∧ storing.bit Reg.NVS_INJ 0 = false
    ∧ storing.nvMay 1 = true ∧ storing.pfailed = false ∧ storing.nv.pwJobs = [⟨7, true, none, 0⟩] := by
  simp only [State.grants]; decide +kernel
theorem wit_NvPagePrograms :
    inNvWindow userWord = true ∧ isUser (regionOf (nvOffset userWord)) = true ∧ runs.grants src userWord 5#32
    ∧ storing.nv.jobs = [⟨src, [(userWord, 5#32)], 0, false, none, 0, none⟩] ∧ userWord % 4 = 0
    ∧ storing.regionCrypt (regionOf (nvOffset userWord)) = false ∧ runs.nv.jobs = [] := by
  simp only [State.grants]; decide +kernel
theorem wit_NvStore :
    runs.grants src Reg.NVS_CTRL 1#32 ∧ storing.bit Reg.NVS_INJ 0 = false ∧ storing.nvMay 0 = true ∧ storing.nv.store = some ⟨true, false, 0#32, [], 0⟩
    ∧ storing.batonsOf 1 ≠ 0 ∧ storing.storePage? = some 0 ∧ storing.bit Reg.NVS_INJ 2 = false
    ∧ { storing with nv := { storing.nv with dirty := [] } }.storePage? = none ∧ runs.nv.store = none := by
  simp only [State.grants]; decide +kernel
theorem wit_TallyIncrements :
    (put runs [(Reg.NVS_TALLY_SEL, 511#32)]).grants src Reg.NVS_TALLY_CTRL 1#32
    ∧ (let s := put storing [(Reg.NVS_TALLY_SEL, 16#32)]
       16 ≤ s.fld Reg.NVS_TALLY_SEL 0 9 ∧ s.bit Reg.NVS_TALLY_STAT 0 = false ∧ s.frozen = false ∧ s.tallyV (s.fld Reg.NVS_TALLY_SEL 0 9) = 0xFFFFFFFF#32)
    ∧ storing.bit Reg.NVS_INJ 1 = false ∧ storing.nv.tallyJobs.find? (fun q => q.1 == 0) = some (0, false) ∧ storing.nvMay (16 + 0) = true
    ∧ storing.nv.tallyJobs.find? (fun q => q.1 == 511) = some (511, true) ∧ storing.nv.tallyJobs.find? (fun q => q.1 == 3) = none := by
  simp only [State.grants]; decide +kernel
theorem wit_RegionEncryption : runs.grants src (Reg.NVS_RGN_r_CFG (7#3).toNat) (BitVec.ofNat 32 (true.toNat * 4)) := by
  simp only [State.grants]; decide +kernel

/-- The module with spoor records waiting, one of them due for reprogramming, and with a rate window that is over. -/
def spoorBusy : State :=
  { runs with spr := { resetSpr with ready := true, queue := [⟨0x0101, 1, 0#32, 0, 5, 0, [], false⟩], due := [⟨0x0101, 1, 0#32, 0, 4, 2, [], false⟩],
                                     windows := [⟨0, 0#32, 1, 2⟩] } }

/-- A digital supply that has held the fault pin released: no trigger interval runs. -/
def pinFree : State := { State.reset with boot := { resetBoot with phase := .running, cur := none, passed := List.range 16 } }

theorem wit_CalendarCommands :
    (let s := put State.reset [(Reg.RTC_SET_TIME, 0#32), (Reg.RTC_SET_DATE, 0x010111#32)]
     s.grants src Reg.RTC_CTRL 1#32) ∧ State.reset.grants src Reg.RTC_CTRL 2#32
    ∧ (put State.reset [(Reg.RTC_TIME, 0x80000000#32)]).grants src Reg.RTC_CTRL 4#32 := by
  simp only [State.grants]; decide +kernel
theorem wit_CalendarFreeze :
    isRtcShadow Reg.RTC_SUBSEC = true ∧ State.reset.grants src Reg.RTC_CTRL 8#32 ∧ State.reset.freezeOf 31 = none
    ∧ (let s := { State.reset with rtc := ⟨[⟨31, 0#32, 0#32, 0#32, true, false, false, 5⟩], 0, 0, false, 0⟩, tscNs := 1000000005 }
       s.freezeOf 31 = some ⟨31, 0#32, 0#32, 0#32, true, false, false, 5⟩ ∧ s.reached (5 + 1000000000) = true) := by
  simp only [State.grants]; decide +kernel
theorem wit_CalendarTrim :
    (put State.reset [(Reg.RTC_TRIM_CTRL, 1#32)]).trimRef ≠ 0 ∧ (put State.reset [(Reg.RTC_TRIM_CTRL, 0#32)]).trimRef = 0
    ∧ State.reset.grants src Reg.RTC_TRIM_CTRL (State.reset.rd Reg.RTC_TRIM_CTRL) := by
  simp only [State.grants]; decide +kernel
theorem wit_CalendarSupply :
    (put State.reset [(Reg.RTC_WAKE, 1#32)]).fld Reg.RTC_WAKE 0 23 ≠ 0
    ∧ (let s := put State.reset [(Reg.RTC_CHG, 3#32)]; s.grants src Reg.RTC_CHG ((s.rd Reg.RTC_CHG &&& 0xF#32) ||| 0x10#32))
    ∧ (put State.reset [(Reg.RTC_CHG, 0x20#32)]).bit Reg.RTC_CHG 5 = true ∧ State.reset.bit Reg.RTC_CHG 5 = false := by
  simp only [State.grants]; decide +kernel
theorem wit_FirmwarePost : 1 ≤ (4#3).toNat ∧ (4#3).toNat ≤ 4 ∧ State.reset.spoorWaiting < 64 ∧ 4 < (5#3).toNat := by decide +kernel
theorem wit_SpoorTakesEvents : State.reset.bit Reg.SPR_INJ 1 = false := by decide +kernel
theorem wit_SpoorCommands :
    spoorBusy.nvMay 2 = true ∧ spoorBusy.spr.queue ≠ [] ∧ spoorBusy.spr.dropped = 0 ∧ (spoorBusy.nvPage classSpr ⟨true, true⟩).2 = true
    ∧ (spoorBusy.nvPage classSpr ⟨false, false⟩).2 = false ∧ State.reset.spr.queue = [] ∧ spoorBusy.spr.due = [⟨0x0101, 1, 0#32, 0, 4, 2, [], false⟩]
    ∧ spoorBusy.rateWin 0 = some ⟨0, 0#32, 1, 2⟩ ∧ spoorBusy.rateOver ⟨0, 0#32, 1, 2⟩ = true ∧ State.reset.spr.ready = false ∧ spoorBusy.spr.ready = true := by
  decide +kernel
theorem wit_FaultAssertTriggers :
    State.reset.grants src Reg.ZID_FAULT_CTRL (BitVec.ofNat 32 (true.toNat + 2)) ∧ State.reset.grants src Reg.ZID_FAULT_CTRL (BitVec.ofNat 32 (false.toNat + 2)) := by
  simp only [State.grants]; decide +kernel
theorem wit_TriggerRecords : (255 : Nat) < 256 ∧ pinFree.faultPhase = 0 ∧ State.reset.faultPhase ≠ 0 := by decide +kernel
theorem wit_FaultPinCommands :
    State.reset.grants src Reg.ZID_FAULT_CTRL (BitVec.ofNat 32 true.toNat) ∧ State.reset.faultPhase ≠ 0 ∧ pinFree.faultPhase = 0 := by
  simp only [State.grants]; decide +kernel
theorem wit_LedTestAndInjectionEnable :
    State.reset.grants src Reg.ZID_CTRL (BitVec.ofNat 32 (true.toNat + 2 ^ 8)) ∧ State.reset.grants src Reg.ZID_CTRL (BitVec.ofNat 32 false.toNat) := by
  simp only [State.grants]; decide +kernel
theorem wit_StartUp :
    (pinFree.boot.phase ≠ Phase.off ∧ pinFree.boot.cur ≠ some 0) ∧ State.reset.boot.cur = some 0 ∧ State.reset.boot.act = false
    ∧ State.reset.bit Reg.BOOT_INJ 0 = false ∧ State.reset.hurdleLate 0 (State.reset.wayNow 0) 0 = false
    ∧ (let s := { State.reset with tscNs := 2000000000 }; s.hurdleLate 0 (s.wayNow 0) 0 = true)
    ∧ (let s := { State.reset with tscNs := 1000000000, boot := { resetBoot with phase := .failed, failNs := 0 } }
       s.boot.phase = Phase.failed ∧ s.boot.failNs + 1000000000 ≤ s.oscNs)
    ∧ State.reset.grants src Reg.BOOT_CTRL (BitVec.ofNat 32 (2#16).toNat)
    ∧ (put State.reset [(Reg.BOOT_CUR, 0x200#32)]).grants src Reg.BOOT_CTRL 0x10000#32 ∧ State.reset.grants src Reg.IMG_BOOT (BitVec.ofNat 32 true.toNat) := by
  simp only [State.grants]; decide +kernel

end Sys2Proof.Tests
end

/-!
Every command keeps the queue and the invariant, and so does every step (O5); the state
after reset meets it (O6).
-/

namespace Sys2Proof.Machine

/-- Each command keeps what its meaning keeps: the queue and the invariant among it. -/
theorem exec_keeps {c : Instr} {s t : State} (h : exec c s = .next t) : Keeps 16777215 s t :=
  match c, h with
  | .registerWrite .., h => execRegisterWrite_keeps rfl h
  | .hwpRequest .., h => execHwpRequest_keeps rfl h
  | .read .., h => execRead_keeps rfl h
  | .epochLoRead .., h => execEpochLoRead_keeps rfl h
  | .write .., h => execWrite_keeps rfl h
  | .writelist .., h => execWritelist_keeps rfl h
  | .load .., h => execLoad_keeps rfl h
  | .publish .., h => execPublish_keeps rfl h
  | .imgOpen .., h => execImgOpen_keeps rfl h
  | .imgCheck .., h => execImgCheck_keeps rfl h
  | .checkComplete, h => execCheckComplete_keeps rfl h
  | .imgCommit .., h => execImgCommit_keeps rfl h
  | .commitComplete .., h => execCommitComplete_keeps rfl h
  | .imgAbort .., h => execImgAbort_keeps rfl h
  | .activate .., h => execActivate_keeps rfl h
  | .floor .., h => execFloor_keeps rfl h
  | .lapBoundary .., h => execLapBoundary_keeps rfl h
  | .mainsCrossing .., h => execMainsCrossing_keeps rfl h
  | .missingCrossing .., h => execMissingCrossing_keeps rfl h
  | .lapSrcWrite .., h => execLapSrcWrite_keeps rfl h
  | .freePeriodWrite .., h => execFreePeriodWrite_keeps rfl h
  | .slewDone, h => execSlewDone_keeps rfl h
  | .countLoRead .., h => execCountLoRead_keeps rfl h
  | .pacerGrant .., h => execPacerGrant_keeps rfl h
  | .batonGrant, h => execBatonGrant_keeps rfl h
  | .batonAge .., h => execBatonAge_keeps rfl h
  | .batonWaitTimeout, h => execBatonWaitTimeout_keeps rfl h
  | .settReadable, h => execSettReadable_keeps rfl h
  | .epochTallyRaise, h => execEpochTallyRaise_keeps rfl h
  | .wsOpen .., h => execWsOpen_keeps rfl h
  | .seal .., h => execSeal_keeps rfl h
  | .wsAbort .., h => execWsAbort_keeps rfl h
  | .wsTimeout, h => execWsTimeout_keeps rfl h
  | .cycleStart, h => execCycleStart_keeps rfl h
  | .gridPoint, h => execGridPoint_keeps rfl h
  | .measWrite .., h => execMeasWrite_keeps rfl h
  | .assemblyDone .., h => execAssemblyDone_keeps rfl h
  | .iteration .., h => execIteration_keeps rfl h
  | .burstWiden, h => execBurstWiden_keeps rfl h
  | .deadline, h => execDeadline_keeps rfl h
  | .blockReceive .., h => execBlockReceive_keeps rfl h
  | .laneCheck .., h => execLaneCheck_keeps rfl h
  | .scrubSegment .., h => execScrubSegment_keeps rfl h
  | .mapWrite .., h => execMapWrite_keeps rfl h
  | .dramScrub .., h => execDramScrub_keeps rfl h
  | .dramRetrain, h => execDramRetrain_keeps rfl h
  | .loopSample .., h => execLoopSample_keeps rfl h
  | .loopRun .., h => execLoopRun_keeps rfl h
  | .loopSwap .., h => execLoopSwap_keeps rfl h
  | .loopReset .., h => execLoopReset_keeps rfl h
  | .coefWrite .., h => execCoefWrite_keeps rfl h
  | .fbpCycleStart, h => execFbpCycleStart_keeps rfl h
  | .fbpApply .., h => execFbpApply_keeps rfl h
  | .fbpWatchdog .., h => execFbpWatchdog_keeps rfl h
  | .fbpTrap .., h => execFbpTrap_keeps rfl h
  | .fbpStop .., h => execFbpStop_keeps rfl h
  | .fbpRestart .., h => execFbpRestart_keeps rfl h
  | .forceSet .., h => execForceSet_keeps rfl h
  | .forceClr .., h => execForceClr_keeps rfl h
  | .clrall .., h => execClrall_keeps rfl h
  | .forceValueWrite .., h => execForceValueWrite_keeps rfl h
  | .xvWrite .., h => execXvWrite_keeps rfl h
  | .ainResult .., h => execAinResult_keeps rfl h
  | .refCheck .., h => execRefCheck_keeps rfl h
  | .calRound .., h => execCalRound_keeps rfl h
  | .calStepEnd .., h => execCalStepEnd_keeps rfl h
  | .aoutSetWrite .., h => execAoutSetWrite_keeps rfl h
  | .aoutReadback .., h => execAoutReadback_keeps rfl h
  | .aoutFault .., h => execAoutFault_keeps rfl h
  | .diChange .., h => execDiChange_keeps rfl h
  | .diFault .., h => execDiFault_keeps rfl h
  | .doTrip .., h => execDoTrip_keeps rfl h
  | .doRetry .., h => execDoRetry_keeps rfl h
  | .doFault .., h => execDoFault_keeps rfl h
  | .clrfault .., h => execClrfault_keeps rfl h
  | .doSetWrite .., h => execDoSetWrite_keeps rfl h
  | .fieldSupplyCheck .., h => execFieldSupplyCheck_keeps rfl h
  | .fieldSupplyReturn, h => execFieldSupplyReturn_keeps rfl h
  | .modFault .., h => execModFault_keeps rfl h
  | .harmonicWindow .., h => execHarmonicWindow_keeps rfl h
  | .snap .., h => execSnap_keeps rfl h
  | .nvsave .., h => execNvsave_keeps rfl h
  | .mtrLoRead .., h => execMtrLoRead_keeps rfl h
  | .canFrameReceive .., h => execCanFrameReceive_keeps rfl h
  | .canError .., h => execCanError_keeps rfl h
  | .pop .., h => execPop_keeps rfl h
  | .canModeWrite .., h => execCanModeWrite_keeps rfl h
  | .canModeChange .., h => execCanModeChange_keeps rfl h
  | .bitTimingWrite .., h => execBitTimingWrite_keeps rfl h
  | .recover .., h => execRecover_keeps rfl h
  | .busoffRecoveryEnd .., h => execBusoffRecoveryEnd_keeps rfl h
  | .lineFault .., h => execLineFault_keeps rfl h
  | .linefaultEnd .., h => execLinefaultEnd_keeps rfl h
  | .resume .., h => execResume_keeps rfl h
  | .txReady .., h => execTxReady_keeps rfl h
  | .txAbort .., h => execTxAbort_keeps rfl h
  | .txStart .., h => execTxStart_keeps rfl h
  | .txEnd .., h => execTxEnd_keeps rfl h
  | .ethFrame .., h => execEthFrame_keeps rfl h
  | .statusTelegram .., h => execStatusTelegram_keeps rfl h
  | .arpFrame .., h => execArpFrame_keeps rfl h
  | .icmpEcho .., h => execIcmpEcho_keeps rfl h
  | .linkChange .., h => execLinkChange_keeps rfl h
  | .subreset .., h => execSubreset_keeps rfl h
  | .announce .., h => execAnnounce_keeps rfl h
  | .sync .., h => execSync_keeps rfl h
  | .followUp .., h => execFollowUp_keeps rfl h
  | .delayResp .., h => execDelayResp_keeps rfl h
  | .delayReq .., h => execDelayReq_keeps rfl h
  | .announceTimeout .., h => execAnnounceTimeout_keeps rfl h
  | .syncTimeout .., h => execSyncTimeout_keeps rfl h
  | .rampEnd, h => execRampEnd_keeps rfl h
  | .revertLead, h => execRevertLead_keeps rfl h
  | .holdExpire, h => execHoldExpire_keeps rfl h
  | .reacq .., h => execReacq_keeps rfl h
  | .ptpEn .., h => execPtpEn_keeps rfl h
  | .freerun .., h => execFreerun_keeps rfl h
  | .ptpStep .., h => execPtpStep_keeps rfl h
  | .rateWrite .., h => execRateWrite_keeps rfl h
  | .domCfgWrite .., h => execDomCfgWrite_keeps rfl h
  | .nowRead .., h => execNowRead_keeps rfl h
  | .intlkInChange .., h => execIntlkInChange_keeps rfl h
  | .grantInChange .., h => execGrantInChange_keeps rfl h
  | .grantMessage .., h => execGrantMessage_keeps rfl h
  | .owlLost, h => execOwlLost_keeps rfl h
  | .heartbeat, h => execHeartbeat_keeps rfl h
  | .takeActive, h => execTakeActive_keeps rfl h
  | .leaveActive, h => execLeaveActive_keeps rfl h
  | .join .., h => execJoin_keeps rfl h
  | .autojoin .., h => execAutojoin_keeps rfl h
  | .handover .., h => execHandover_keeps rfl h
  | .bulkDone .., h => execBulkDone_keeps rfl h
  | .mirrorUnit .., h => execMirrorUnit_keeps rfl h
  | .dispatchState .., h => execDispatchState_keeps rfl h
  | .linkTimeout .., h => execLinkTimeout_keeps rfl h
  | .syncLoss .., h => execSyncLoss_keeps rfl h
  | .witnessHeartbeat .., h => execWitnessHeartbeat_keeps rfl h
  | .grantMove, h => execGrantMove_keeps rfl h
  | .grantAssert, h => execGrantAssert_keeps rfl h
  | .move .., h => execMove_keeps rfl h
  | .updBufWrite .., h => execUpdBufWrite_keeps rfl h
  | .keyExec .., h => execKeyExec_keeps rfl h
  | .keyUpdateDone .., h => execKeyUpdateDone_keeps rfl h
  | .challenge .., h => execChallenge_keeps rfl h
  | .pageProgram .., h => execPageProgram_keeps rfl h
  | .unlock .., h => execUnlock_keeps rfl h
  | .pwLockoutEnd .., h => execPwLockoutEnd_keeps rfl h
  | .pwset .., h => execPwset_keeps rfl h
  | .nvLock .., h => execNvLock_keeps rfl h
  | .nvStore .., h => execNvStore_keeps rfl h
  | .storeDone .., h => execStoreDone_keeps rfl h
  | .cryptWrite .., h => execCryptWrite_keeps rfl h
  | .tallyInc .., h => execTallyInc_keeps rfl h
  | .incrementDone .., h => execIncrementDone_keeps rfl h
  | .rtcLoad .., h => execRtcLoad_keeps rfl h
  | .dstfwd .., h => execDstfwd_keeps rfl h
  | .dstback .., h => execDstback_keeps rfl h
  | .rtcRelease .., h => execRtcRelease_keeps rfl h
  | .secondCarry, h => execSecondCarry_keeps rfl h
  | .rtcRead .., h => execRtcRead_keeps rfl h
  | .freezeTimeout .., h => execFreezeTimeout_keeps rfl h
  | .ptpHourSet, h => execPtpHourSet_keeps rfl h
  | .trimWindow .., h => execTrimWindow_keeps rfl h
  | .trimWrite .., h => execTrimWrite_keeps rfl h
  | .wake, h => execWake_keeps rfl h
  | .boost .., h => execBoost_keeps rfl h
  | .boostEnd .., h => execBoostEnd_keeps rfl h
  | .batCheck .., h => execBatCheck_keeps rfl h
  | .spoorProgram .., h => execSpoorProgram_keeps rfl h
  | .rateWindowEnd .., h => execRateWindowEnd_keeps rfl h
  | .opsecTick, h => execOpsecTick_keeps rfl h
  | .post .., h => execPost_keeps rfl h
  | .minwEnd, h => execMinwEnd_keeps rfl h
  | .faultAssert .., h => execFaultAssert_keeps rfl h
  | .holdWrite .., h => execHoldWrite_keeps rfl h
  | .pinReadback .., h => execPinReadback_keeps rfl h
  | .ledtest .., h => execLedtest_keeps rfl h
  | .ledtestEnd, h => execLedtestEnd_keeps rfl h
  | .injenWrite .., h => execInjenWrite_keeps rfl h
  | .powerUp .., h => execPowerUp_keeps rfl h
  | .hurdleEnd .., h => execHurdleEnd_keeps rfl h
  | .hurdleTimeout .., h => execHurdleTimeout_keeps rfl h
  | .selfReset, h => execSelfReset_keeps rfl h
  | .wayclr .., h => execWayclr_keeps rfl h
  | .bootRestart .., h => execBootRestart_keeps rfl h
  | .imgBootWrite .., h => execImgBootWrite_keeps rfl h
  | .powerFail .., h => execPowerFail_keeps rfl h
  | .dip .., h => execDip_keeps rfl h
  | .shutdownDone .., h => execShutdownDone_keeps rfl h
  | .mirrorAcknowledge .., h => execMirrorAcknowledge_keeps rfl h
  | .lossOfPower .., h => execLossOfPower_keeps rfl h
  | .busIntegration .., h => execBusIntegration_keeps rfl h
  | .rawEdge .., h => execRawEdge_keeps rfl h
  | .arpRefresh .., h => execArpRefresh_keeps rfl h
  | .spoorScanDone, h => execSpoorScanDone_keeps rfl h
  | .diFaultEnd .., h => execDiFaultEnd_keeps rfl h
  | .aoutFaultEnd .., h => execAoutFaultEnd_keeps rfl h

/-- The invariant does not speak of the queue. -/
theorem State.Inv.set_pending {s : State} (hi : s.Inv) (l : List Instr) : State.Inv { s with pending := l } :=
  ⟨hi.regs, hi.nv, hi.img, hi.fab, hi.fbp, hi.tick, hi.sett, hi.can⟩

/-- Settles O5: a step is a tick or the command at the front of the queue, and each of these keeps the invariant. -/
theorem invariantKept : Obligations.InvariantKept := by
  intro s t hi h
  unfold step at h
  split at h
  · injection h with e
    exact e ▸ (State.idle_keeps (k := 8470534) rfl (Keeps.refl s)).inv hi
  · exact (exec_keeps h).inv (hi.set_pending _)

/-- Settles O6: every memory of the delivered module is listed in its canonical form. -/
theorem resetInvariant : Obligations.ResetInvariant where
  regs := by decide
  nv := by unfold NvState.wf; decide
  img := by unfold ImgState.wf; decide
  fab := by unfold FabState.wf; decide
  fbp := by unfold FbpState.wf; decide
  tick := by decide
  sett := by unfold SettState.wf; decide
  can := by decide

end Sys2Proof.Machine

/-!
The register file after reset against the register tables (O7).
-/

namespace Sys2Proof.Machine

/-- Each field of a row whose reset column states a number reads so in the first register of the row. -/
def RegRow.holdsReset (s : State) (r : RegRow) : Bool :=
  r.fields.all (fun f => match f.rst with
    | .val n => bitsOf (s.rd r.base) f.lo f.width == n
    | _ => true)

theorem RegRow.holdsReset_field {s : State} {r : RegRow} {f : Fld} {n : Nat} (h : r.holdsReset s = true) (hf : f ∈ r.fields)
    (hn : f.rst = .val n) : bitsOf (s.rd r.base) f.lo f.width = n := by
  have h1 := List.all_eq_true.mp h f hf
  simpa [hn] using h1

/-- The rows of a block, each evaluated on the register file after reset. -/
theorem rowsOf_holdReset (b : Blk) :
    (rowsOf b).all (fun r => r.base == Reg.ZID_FAULT_STATE || r.holdsReset State.reset) = true := by
  cases b <;> decide +kernel

/-- Settles O7: the tables are evaluated row by row, and FAULT_N is in phase START. -/
theorem resetRegisterValues : Obligations.ResetRegisterValues := by
  refine ⟨fun b r hr f hf n hn hb => ?_, by decide⟩
  have h := List.all_eq_true.mp (rowsOf_holdReset b) r hr
  rw [Bool.or_eq_true, beq_iff_eq] at h
  exact RegRow.holdsReset_field (h.resolve_left hb) hf hn

end Sys2Proof.Machine

/-!
What the refusal of a request leaves of the registers (R380), and the refusal of an access to
an address that names no register (R7, O29).
-/

namespace Sys2Proof.Machine

/-! ## The registers that a refusal changes -/

/-- A refused operation counts in HWP_CNT_REFUSE and HWP_CNT_OPREF, and leaves every register alone that no refusal changes. -/
theorem State.opRefused_rd (s : State) (src : Src) (op : Nat) (st : Status) (info : Word) {b : Nat}
    (hb : b ∉ refuseRegs ∨ b = Reg.HWP_CNT_REFUSE ∨ b = Reg.HWP_CNT_OPREF) :
    (s.opRefused src op st info).rd b =
      if b = Reg.HWP_CNT_REFUSE ∨ b = Reg.HWP_CNT_OPREF then satWordN ((s.rd b).toNat + 1) else s.rd b := by
  have hp : b ∉ pinRegs := by
    rcases hb with h | rfl | rfl
    · exact fun g => h (List.mem_append_right _ g)
    · decide
    · decide
  have own : ∀ r ∈ [Reg.HWP_LASTREFUSE, Reg.HWP_STAT, Reg.HWP_IRQ, Reg.HWP_CNT_RESEND], r ∈ refuseRegs := by decide
  have hn : ∀ r ∈ [Reg.HWP_LASTREFUSE, Reg.HWP_STAT, Reg.HWP_IRQ, Reg.HWP_CNT_RESEND], b ≠ r := by
    rcases hb with h | rfl | rfl
    · exact fun r hr e => h (e ▸ own r hr)
    · decide
    · decide
  simp only [List.forall_mem_cons, List.not_mem_nil, false_imp_iff, implies_true, and_true] at hn
  obtain ⟨h1, h2, h3, h4⟩ := hn
  have irq : ∀ (u : State) (i : Nat), (u.irqHwp i).rd b = u.rd b := fun u i => by
    rw [State.irqHwp, State.irqAt_rd _ _ _ _ _ _ hp, if_neg h3]
  unfold State.opRefused State.hwpRefused
  rw [State.answerOp_rd _ _ _ _ _ h4 h2]
  simp only [irq, State.rd_onlyIf, ite_self, State.rd_setBit, if_neg h2, State.rd_count, State.rd_wr, if_neg h1]
  by_cases h5 : b = Reg.HWP_CNT_REFUSE
  · subst h5; rfl
  · by_cases h6 : b = Reg.HWP_CNT_OPREF
    · subst h6; rfl
    · simp only [h5, h6, if_false, or_self]

theorem State.opRefused_cntRefuse (s : State) (src : Src) (op : Nat) (st : Status) (info : Word) :
    ((s.opRefused src op st info).rd Reg.HWP_CNT_REFUSE).toNat = min 0xFFFFFFFF ((s.rd Reg.HWP_CNT_REFUSE).toNat + 1) := by
  rw [State.opRefused_rd _ _ _ _ _ (.inr (.inl rfl)), if_pos (.inl rfl), satWordN_toNat]

theorem State.opRefused_keepsRegs (s : State) (src : Src) (op : Nat) (st : Status) (info : Word) :
    s.keepsRegs (s.opRefused src op st info) refuseRegs := fun b hb => by
  have h1 : b ≠ Reg.HWP_CNT_REFUSE := fun e => hb (e ▸ by decide)
  have h2 : b ≠ Reg.HWP_CNT_OPREF := fun e => hb (e ▸ by decide)
  rw [State.opRefused_rd _ _ _ _ _ (.inl hb), if_neg (by simp only [h1, h2, or_self, not_false_eq_true])]

/-! ## Addresses without a register (R7) -/

theorem hasAcc_of_unpopulated {a : Nat} (h : populated a = false) (c : Acc) : hasAcc c a = false := by
  unfold hasAcc fieldsAt
  rw [show rowAt a = none by simpa [populated] using h]
  rfl

theorem State.missing_of_unpopulated (s : State) {a : Nat} (h : populated a = false) : s.missing a = true := by
  simp [State.missing, h]

theorem State.wordDeny_unpopulated (s : State) (slot : Nat) {a : Nat} (v : Word) (hn : inNvWindow a = false)
    (hs : inSettWindow a = false) (hp : populated a = false) :
    s.wordDeny slot a v = some (.range, blockOf a == some .loop) := by
  simp [State.wordDeny, hn, hs, s.missing_of_unpopulated hp]

/-- What the refusal of such a word leaves before the request is answered: the LOOP block counts its own. -/
theorem State.wordRefused_unpopulated (s : State) (slot : Nat) {a : Nat} (v : Word) (hn : inNvWindow a = false)
    (hp : populated a = false) :
    s.wordRefused slot a v (.range, blockOf a == some .loop) = s ∨
      ∃ shown, s.wordRefused slot a v (.range, blockOf a == some .loop) = s.loopRefused shown := by
  unfold State.wordRefused
  have h1 : (Status.range == Status.locked) = false := rfl
  simp only [h1, hasAcc_of_unpopulated hp, Bool.and_false, Bool.false_and, State.onlyIf_false]
  by_cases hb : blockOf a = some .loop
  · right
    simp only [hb, beq_self_eq_true, State.onlyIf_true, State.blockRefused, hn, Bool.false_eq_true, if_false]
    exact ⟨_, rfl⟩
  · left
    rw [beq_eq_false_iff_ne.mpr hb]
    rfl

theorem State.loopRefused_rd (s : State) (shown : Bool) {b : Nat} (h1 : b ≠ Reg.LOOP_CNT_REFUSE) (h2 : b ≠ Reg.LOOP_STAT) :
    (s.loopRefused shown).rd b = s.rd b := by
  simp only [State.loopRefused, State.rd_onlyIf, State.rd_setBit, State.rd_count, if_neg h1, if_neg h2, ite_self]

/-- The end of a refused request keeps every component but its own. -/
theorem State.opRefused_keepsParts {s u : State} (h : Keeps 8388931 s u) (src : Src) (op : Nat) (st : Status) (info : Word) :
    s.keepsParts (u.opRefused src op st info) refuseParts :=
  (State.opRefused_keeps (by decide) h).parts refuseParts (fun p => by cases p <;> decide)

/-- The outcome of a word written to such an address, whatever operation carries it. -/
def State.refusedUnpopulated (s t : State) : Prop :=
  t.answer.status = .range ∧ t.answer.data = [] ∧ t.answer.info = 0#32
    ∧ (t.rd Reg.HWP_CNT_REFUSE).toNat = min 0xFFFFFFFF ((s.rd Reg.HWP_CNT_REFUSE).toNat + 1)
    ∧ s.keepsRegs t ([Reg.LOOP_CNT_REFUSE, Reg.LOOP_STAT, Reg.LOOP_IRQ] ++ refuseRegs) ∧ s.keepsParts t refuseParts

theorem State.wordRefused_opRefused_unpopulated (s : State) (src : Src) (op : Nat) {a : Nat} (v : Word) (hn : inNvWindow a = false)
    (hp : populated a = false) :
    s.refusedUnpopulated
      ((s.clearSent.wordRefused src.slot.val a v (.range, blockOf a == some .loop)).opRefused src op .range 0#32) := by
  have hc : Keeps 8388931 s s.clearSent := State.clearSent_keeps (by decide) (Keeps.refl s)
  have key : ∀ u : State, Keeps 8388931 s u → (∀ b, b ≠ Reg.LOOP_CNT_REFUSE → b ≠ Reg.LOOP_STAT → u.rd b = s.rd b) →
      s.refusedUnpopulated (u.opRefused src op .range 0#32) := fun u hk hr => by
    have ha := State.opRefused_answer u src op .range 0#32
    refine ⟨by rw [ha], by rw [ha], by rw [ha], ?_, fun b hb => ?_, State.opRefused_keepsParts hk src op _ _⟩
    · rw [State.opRefused_cntRefuse, hr _ (by decide) (by decide)]
    · simp only [List.cons_append, List.nil_append, List.mem_cons, not_or] at hb
      obtain ⟨h1, h2, -, h4⟩ := hb
      rw [State.opRefused_keepsRegs u src op _ _ b h4, hr b h1 h2]
  rcases s.clearSent.wordRefused_unpopulated src.slot.val v hn hp with e | ⟨shown, e⟩
  · rw [e]
    exact key _ hc (fun _ _ _ => rfl)
  · rw [e]
    exact key _ (State.loopRefused_keeps (by decide) hc) (fun b h1 h2 => State.loopRefused_rd _ _ h1 h2)

/-- A WRITELIST of one refused pair: what the refusal leaves. -/
theorem State.writelist1_refused (s : State) (src : Src) (a : Nat) (v : Word) (drop : Option Nat) (left : List (Nat × Word)) (d : Denial)
    (h : s.wordDeny src.slot.val a v = some d) :
    s.opWords src true [(a, v)] drop left = (s.wordRefused src.slot.val a v d).opRefused src 3 d.1 0#32 := by
  have h0 : s.scanWords src.slot.val [(a, v)] 0 = some (0, a, v, d) := by
    simp only [State.scanWords, h]
  simp only [State.opWords, h0, if_true]
  rfl

/-- A READ of one word at such an address is refused; only the host window protocol counts it. -/
theorem State.opRead_unpopulated (s : State) (src : Src) {a : Nat} (sel : Nat) (hn : inNvWindow a = false)
    (hs : inSettWindow a = false) (hp : populated a = false) : s.opRead src a 1 sel = s.opRefused src 1 .range 0 := by
  unfold State.opRead
  split
  · rfl
  · simp [hs, State.scanRead, sameWindow_self, State.readDeny, hn, s.missing_of_unpopulated hp, busDenial, denyIf]

theorem exec_registerWrite {s : State} (hs : s.supplied) (src : Src) (a v : Word) :
    exec (.registerWrite src a v) s = .next (s.clearSent.write1 src a.toNat v) :=
  show execRegisterWrite src a v s = _ from State.act_supplied hs

theorem exec_writelist1 {s : State} (hs : s.supplied) (src : Src) (a v : Word) (drop : Option Nat) :
    exec (.writelist src [(a, v)] drop) s = .next (s.clearSent.opWords src true [(a.toNat, v)] drop []) :=
  show execWritelist src [(a, v)] drop s = _ from State.act_supplied hs

theorem exec_read {s : State} (hs : s.supplied) (src : Src) (a : Word) (n : BitVec 16) (sel : BitVec 64) :
    exec (.read src a n sel) s = .next (s.clearSent.opRead src a.toNat n.toNat sel.toNat) :=
  show execRead src a n sel s = _ from State.act_supplied hs

/-- Settles O29: the word is refused at the first check of its address, and a read at its only one. -/
theorem unassignedAddressRefused : Obligations.UnassignedAddressRefused := by
  intro src a v sel s hs hn hw hp
  have hd := s.clearSent.wordDeny_unpopulated src.slot.val v hn hw hp
  refine ⟨⟨_, exec_registerWrite hs src a v, ?_⟩, ⟨_, exec_writelist1 hs src a v none, ?_⟩, ⟨_, exec_read hs src a 1#16 sel, ?_⟩⟩
  · rw [State.write1_refused _ src _ _ _ hd]
    obtain ⟨hst, hdata, -, hcnt, hregs, hparts⟩ := s.wordRefused_opRefused_unpopulated src 2 v hn hp
    exact ⟨hst, hdata, hcnt, hregs, hparts⟩
  · rw [State.writelist1_refused _ src _ _ _ _ _ hd]
    obtain ⟨hst, hdata, hinfo, hcnt, hregs, hparts⟩ := s.wordRefused_opRefused_unpopulated src 3 v hn hp
    exact ⟨hst, hdata, hinfo, hcnt, hregs, hparts⟩
  · rw [show (1#16).toNat = 1 from rfl, State.opRead_unpopulated _ src _ hn hw hp]
    have ha := State.opRefused_answer s.clearSent src 1 .range 0
    refine ⟨by rw [ha], by rw [ha], ?_, fun b hb => ?_,
      State.opRefused_keepsParts (State.clearSent_keeps (by decide) (Keeps.refl s)) src 1 _ _⟩
    · rw [State.opRefused_cntRefuse, State.rd_clearSent]
    · rw [State.opRefused_keepsRegs _ src 1 _ _ b hb, State.rd_clearSent]

end Sys2Proof.Machine

/-!
A write of LAP_INJ is more than a write of its fields (R70), which refutes O31.
-/

namespace Sys2Proof.Machine

theorem State.wordWrite_lapInj (s : State) (slot : Nat) (v : Word) : s.wordWrite slot [] (Reg.LAP_INJ, v) = s.lapInj v := by
  rw [State.wordWrite_reg _ _ _ _ (by decide) (by decide), State.regWrite, show blockOf Reg.LAP_INJ = some .lap from rfl]
  simp only [show Reg.LAP_INJ ≠ Reg.LAP_SRC_CTRL by decide, if_false, if_true]

/-- A ZC that is written 0 forgets how many crossings it has inverted (R70). -/
theorem State.lapInj_lap (s : State) {v : Word} (hv : bitOf v 0 = false) : (s.lapInj v).lap = { s.lap with zcDone := 0 } := by
  unfold State.lapInj
  rw [hv]
  rfl

theorem registerWrite_lapInj_lap {s : State} {src : Src} {v : Word} (hs : s.supplied) (hg : s.grants src Reg.LAP_INJ v)
    (hv : bitOf v 0 = false) :
    ∃ t, exec (.registerWrite src 0x2058#32 v) s = .next t ∧ t.lap = { s.lap with zcDone := 0 } := by
  obtain ⟨t, ht, -, -, hw, -⟩ := State.write1_plain (k := 8388687) hs hg (by decide) (by decide)
    (s.clearSent.wordWrite_lapInj src.slot.val v) (by decide) (by decide) (State.lapInj_keeps (by decide) (Keeps.refl _))
  exact ⟨t, ht, (hw.lap_same rfl).trans (s.clearSent.lapInj_lap hv)⟩

/-- The delivered module with LAP_INJ.ZC set, after one of the three crossings that it inverts. -/
def zcUnderWay : State := { State.reset.wr Reg.LAP_INJ 1#32 with lap := { resetLap with zcDone := 1 } }

/-- Refutes O31: LAP_INJ is a register of the LAP block that the statement admits, and a write of 0 to it while LAP_INJ.ZC has
inverted one crossing sets the count of inverted crossings, a part of the component `lap`, back from 1 to 0. -/
theorem not_registerWrite : ¬ Obligations.RegisterWrite := by
  intro h
  have hs : zcUnderWay.supplied := by unfold State.supplied; decide
  have hg : zcUnderWay.grants ⟨1, 0⟩ Reg.LAP_INJ 0#32 := by unfold State.grants; decide +kernel
  obtain ⟨t, ht, -, -, -, hparts⟩ := h.1 ⟨1, 0⟩ 0x2058#32 0#32 zcUnderWay hs (by decide) (by decide) (by decide) hg
    _ List.mem_cons_self
  obtain ⟨u, hu, hlap⟩ := registerWrite_lapInj_lap hs hg (by decide)
  have e : t = u := Host.Outcome.next.inj (ht.symm.trans hu)
  have hkept : u.lap = zcUnderWay.lap := e ▸ hparts.lap (by decide)
  exact absurd (congrArg LapState.zcDone (hlap.symm.trans hkept)) (by decide)

end Sys2Proof.Machine

/-!
The epoch that the answer of a READ of a register names is the one of the request's take-up
(R82), which refutes O32.
-/

namespace Sys2Proof.Machine

theorem State.aligned_of_not_missing {s : State} {a : Nat} (h : s.missing a = false) : a % 4 = 0 := by
  simp only [State.missing, Bool.or_eq_false_iff, bne_eq_false_iff_eq] at h
  obtain ⟨⟨⟨h4, -⟩, -⟩, -⟩ := h
  exact h4

/-- A READ of one register that is there: its value, with the newest readable epoch of the request's take-up. -/
theorem State.opRead_register (s : State) (src : Src) {a : Nat} (sel : Nat) (hn : inNvWindow a = false)
    (hs : inSettWindow a = false) (hm : s.missing a = false) :
    s.opRead src a 1 sel = (s.readWord src.slot.val a).2.opOk src 1 0 [(s.readWord src.slot.val a).1] (s.upEpoch src 1) := by
  have h0 : s.scanRead src.slot.val a 0 1 = none := by
    simp [State.scanRead, sameWindow_self, State.readDeny, hn, hm, busDenial, denyIf]
  simp [State.opRead, State.aligned_of_not_missing hm, hs, h0, State.readWords, hn]

/-- The delivered module with a sett of epoch 1 readable and a READ of key slot 1 waiting that was taken up before it was. -/
def readTakenEarly : State :=
  { State.reset with
    sett := { resetSett with held := [⟨1, []⟩] }
    hwp := { taken := 1, queue := [⟨1, 0, 1, 0, 0#32, 0#32, 0, 0#32, 0, [], 0, []⟩], held := [], stored := [] } }

/-- Refutes O32: the waiting READ of ZID_DEV was taken up with no readable sett, so it is answered with epoch 0 (R82), while the
newest readable epoch of the state is 1. -/
theorem not_reads : ¬ Obligations.Reads := by
  intro h
  have hs : readTakenEarly.supplied := by unfold State.supplied; decide
  have hm : readTakenEarly.clearSent.missing Reg.ZID_DEV = false := by decide
  obtain ⟨t, ht, -, hepoch, -⟩ := h.1 ⟨1, 0⟩ 0#32 0 readTakenEarly hs (by decide) (by decide) (by decide) (by decide)
  have e : t = readTakenEarly.clearSent.opRead ⟨1, 0⟩ Reg.ZID_DEV 1 0 :=
    Host.Outcome.next.inj (ht.symm.trans (exec_read hs ⟨1, 0⟩ 0#32 1#16 0))
  rw [e, State.opRead_register _ ⟨1, 0⟩ 0 (by decide) (by decide) hm, State.opOk_answer] at hepoch
  exact absurd hepoch (by decide)

end Sys2Proof.Machine

/-!
LOAD and PUBLISH (R31, R379): the response to a waiting request is charged to the host window class (R384), which refutes O33.
-/

namespace Sys2Proof.Machine

theorem State.charge_used (s : State) {c r : Nat} (n : Nat) (hr : r ≠ 2) :
    (s.charge c r n).used = s.used.set (4 * c + r) (s.used.getD (4 * c + r) 0 + n) := by
  simp [State.charge, hr]

/-- A response charges HWP one FAB block for each started 64 bytes (R384). -/
theorem State.sendResponse_fab (s : State) (port : Nat) (ip : Word) (udp : Nat) (bytes : List Byte) (h : 29 < s.used.length) :
    (s.sendResponse port ip udp bytes).used.getD 29 0 = s.used.getD 29 0 + blocks64 bytes.length := by
  unfold State.sendResponse State.send Frame.cost
  simp [State.charge_used, classHwp, resFab, resDram, h]

theorem blocks64_pos {n : Nat} (h : 0 < n) : 0 < blocks64 n := by
  unfold blocks64
  omega

theorem respHeader_append_pos (op tag slot seq boot : Nat) (a : Answer) (v : Bool) (l : List Byte) :
    0 < (respHeader op tag slot seq boot a v ++ l).length := by
  simp [respHeader]

/-- The stored response, with no repeat of its request held, charges HWP at least one FAB block. -/
theorem State.storeResponse_fab (s : State) (r : HwpReq) (a : Answer) (hh : s.hwp.held = []) (hu : 29 < s.used.length) :
    s.used.getD 29 0 < (s.storeResponse r a).used.getD 29 0 := by
  unfold State.storeResponse
  simp only [hh, List.filter_nil, State.forEach, List.foldl_nil]
  exact (Nat.lt_add_of_pos_right (blocks64_pos (respHeader_append_pos ..))).trans_eq (State.sendResponse_fab _ _ _ _ _ hu).symm

/-- The answer to a waiting request is its response, whose charge shows. -/
theorem State.answerOp_used_ne (s : State) (src : Src) (op : Nat) (a : Answer) {r : HwpReq}
    (hq : s.hwp.queue.find? (fun r => r.slot == src.slot.val && r.op == op) = some r) (hh : s.hwp.held = []) (hu : 29 < s.used.length) :
    (s.answerOp src op a).used ≠ s.used := by
  have ha : s.answerOp src op a = State.storeResponse { s with answer := a } r a := by
    simp only [State.answerOp, hq]
  rw [ha]
  exact fun e => (State.storeResponse_fab { s with answer := a } r a hh hu).ne (congrArg (·.getD 29 0) e).symm

/-- An accepted LOAD: its words go into the staging buffer, and the answer holds RCVD. -/
theorem State.opLoad_accepted (s : State) (src : Src) (off : Nat) (data : List Word) (h : s.chunkDeny off data.length = none) :
    s.opLoad src off data none =
      (s.chunkPut off data).opOk src 4 ((s.chunkPut off data).rd Reg.IMG_LOAD_RCVD) [] (s.upEpoch src 4) := by
  simp [State.opLoad, h]

theorem exec_load {s : State} (hs : s.supplied) (src : Src) (off : Word) (data : List Word) (drop : Option Nat) :
    exec (.load src off data drop) s = .next (s.clearSent.opLoad src off.toNat data drop) :=
  show execLoad src off data drop s = _ from State.act_supplied hs

/-- The delivered module in a load of 4 bytes, with a LOAD of key slot 1 waiting. -/
def loadWaits : State :=
  { (State.reset.wr Reg.IMG_LOAD_STAT 0x100#32).wr Reg.IMG_LOAD_LEN 4#32 with
    hwp := { taken := 1, queue := [⟨1, 0, 4, 0, 0#32, 0#32, 0, 0#32, 0, [7#32], 0, []⟩], held := [], stored := [] } }

/-- Refutes O33: the statement names the answer, the frames sent, and the image, host window and status blocks as all that a LOAD
may change, while the response to a waiting one is charged (R384) in the component `used`, which is not among them. -/
theorem not_loadAndPublish : ¬ Obligations.LoadAndPublish := by
  intro h
  have hs : loadWaits.supplied := by unfold State.supplied; decide
  have hd : loadWaits.clearSent.chunkDeny 0 [7#32].length = none := by decide +kernel
  obtain ⟨t, ht, -, hparts⟩ := h.1 ⟨1, 0⟩ 0#32 [7#32] loadWaits hs
  have e : t = loadWaits.clearSent.opLoad ⟨1, 0⟩ 0 [7#32] none :=
    Host.Outcome.next.inj (ht.symm.trans (exec_load hs ⟨1, 0⟩ 0#32 [7#32] none))
  have hkept : t.used = loadWaits.used := hparts.used (by decide)
  rw [e, State.opLoad_accepted _ _ _ _ hd] at hkept
  exact State.answerOp_used_ne _ ⟨1, 0⟩ 4 _ (r := ⟨1, 0, 4, 0, 0#32, 0#32, 0, 0#32, 0, [7#32], 0, []⟩) rfl rfl (by decide) hkept

end Sys2Proof.Machine

/-!
The solver hurdle H12 under way SKIP, in a start that an activation run without a fitting problem has interrupted (R38, R204),
which refutes O60.
-/

namespace Sys2Proof.Machine

/-- H12 under way SKIP makes no fit test: its RESULT follows the NOFIT that an earlier test has left. -/
theorem State.hurdleEnd_solver_skip {s : State} {r : HurdleReport} (hc : s.boot.cur = some 12) (hw : s.wayNow 12 = 2)
    (hl : s.hurdleLate 12 2 1 = false) (hr : r.ok = true) :
    s.hurdleEnd r = s.hurdleFinish 12 2 (if s.dsp.nofit then 4 else 1) 0 r := by
  have hready : s.hurdleReady 12 2 = true := rfl
  simp [State.hurdleEnd, hc, hw, hl, hr, hready, State.solverHurdle]

theorem exec_hurdleEnd {s : State} (hs : s.supplied) (r : HurdleReport) : exec (.hurdleEnd r) s = .next (s.clearSent.hurdleEnd r) :=
  show execHurdleEnd r s = _ from State.act_supplied hs

/-- A start at H12 whose way is SKIP, after an activation run in which no problem fitted; one entry stands in the ledger. -/
def solverSkipped : State :=
  { State.reset.wr Reg.BOOT_WAY 0x2000000#32 with
    boot := { resetBoot with cur := some 12, ledger := [(0, ⟨0#32, 0, 11, false, 2, 1, 0, 0, 0⟩)] }
    dsp := { resetDsp with nofit := true } }

/-- The work of the hurdle has ended well. -/
def reportOk : HurdleReport := ⟨true, 0#8, [], [], [], false⟩

/-- The END entry that H12 writes there says NOFIT. -/
theorem solverSkipped_result :
    (assocGet ⟨0#32, 0, 0, false, 0, 0, 0, 0, 0⟩ (solverSkipped.clearSent.hurdleFinish 12 2 4 0 reportOk).boot.ledger 1).result = 4 := by
  decide +kernel

/-- Refutes O60: the END entry of H12 says NOFIT, where the statement has PASS for the way SKIP. -/
theorem not_startUp : ¬ Obligations.StartUp := by
  intro h
  obtain ⟨-, -, hend, -⟩ := h
  have hs : solverSkipped.supplied := by unfold State.supplied; decide
  have hw : solverSkipped.wayNow 12 = 2 := by decide +kernel
  have hl : solverSkipped.hurdleLate 12 2 1 = false := by decide +kernel
  obtain ⟨hgood, -⟩ := hend reportOk solverSkipped hs 12 rfl rfl (by decide +kernel) (by decide +kernel)
  obtain ⟨t, ht, -, -, -, -, hledger⟩ := hgood rfl (hw ▸ hl) rfl (by decide) (by decide)
  have e : t = solverSkipped.clearSent.hurdleFinish 12 2 4 0 reportOk := by
    rw [Host.Outcome.next.inj (ht.symm.trans (exec_hurdleEnd hs reportOk))]
    exact State.hurdleEnd_solver_skip rfl hw hl rfl
  have hentry := congrArg LedgerEntry.result (hledger (by decide) (by decide) rfl rfl (by decide))
  have hhead : (solverSkipped.rd Reg.BOOT_LEDGER_HEAD + 1).toNat % 2048 = 1 := by decide +kernel
  rw [hhead, e, solverSkipped_result, hw] at hentry
  exact absurd hentry (by simp)

end Sys2Proof.Machine

/-!
Image loading (R26 to R41): what each command of a load leaves of the registers and of the image block (O9).
-/

namespace Sys2Proof.Machine

/-! ## What a request that no rule refuses tells (R29, R30, R33, R34, R37) -/

theorem State.loadCtrlDeny_of_grants {s : State} {src : Src} {v : Word} (hg : s.grants src Reg.IMG_LOAD_CTRL v) :
    s.loadCtrlDeny v = none := by
  obtain ⟨-, -, -, -, -, hb, -⟩ := (State.grants_simple (by decide)).1 hg
  exact Option.map_eq_none_iff.mp hb

theorem State.actCtrlDeny_of_grants {s : State} {src : Src} {v : Word} (hg : s.grants src Reg.IMG_ACT_CTRL v) :
    s.actCtrlDeny v = none := by
  obtain ⟨-, -, -, -, -, hb, -⟩ := (State.grants_simple (by decide)).1 hg
  exact Option.map_eq_none_iff.mp hb

theorem State.open_granted {s : State} {src : Src} {b : Bool}
    (hg : s.grants src Reg.IMG_LOAD_CTRL (BitVec.ofNat 32 (1 + b.toNat * 2 ^ 8))) :
    s.loadState = 0 ∧ (s.imgRuns = true → s.runSlot ≠ b) := by
  have h := State.loadCtrlDeny_of_grants hg
  have e : s.loadCtrlDeny (BitVec.ofNat 32 (1 + b.toNat * 2 ^ 8)) =
      if s.loadState ≠ 0 then some .busy else if s.isRunning b then some .locked else none := by cases b <;> rfl
  rw [e] at h
  split_ifs at h with h1 h2
  exact ⟨not_not.mp h1, fun hr hb => h2 (by simp [State.isRunning, hr, hb])⟩

theorem State.check_granted {s : State} {src : Src} (hg : s.grants src Reg.IMG_LOAD_CTRL 2#32) : s.loadState = 1 := by
  have h := State.loadCtrlDeny_of_grants hg
  rw [show s.loadCtrlDeny 2#32 = if s.loadState ≠ 1 then some .locked else none from rfl] at h
  simpa using h

theorem State.commit_granted {s : State} {src : Src} (hg : s.grants src Reg.IMG_LOAD_CTRL 4#32) :
    s.loadState = 3 ∧ s.loadCode = 1 := by
  have h := State.loadCtrlDeny_of_grants hg
  rw [show s.loadCtrlDeny 4#32 =
    if s.loadState ≠ 3 || s.loadCode ≠ 1 || s.isRunning s.loadSlotB then some .locked else none from rfl] at h
  split_ifs at h with h1
  simp only [Bool.or_eq_true, decide_eq_true_eq, not_or, not_not] at h1
  exact h1.1

theorem State.activate_granted {s : State} {src : Src} {b : Bool}
    (hg : s.grants src Reg.IMG_ACT_CTRL (BitVec.ofNat 32 (1 + b.toNat * 2 ^ 8))) :
    s.slotState b = 2 ∧ s.activeWithStandby = false := by
  have h := State.actCtrlDeny_of_grants hg
  have e : s.actCtrlDeny (BitVec.ofNat 32 (1 + b.toNat * 2 ^ 8)) =
      if s.slotState b ≠ 2 then some .noimg else if s.activeWithStandby then some .locked else none := by
    cases b <;> simp [State.actCtrlDeny, bitOf]
  rw [e] at h
  split_ifs at h with h1 h2
  exact ⟨not_not.mp h1, Bool.eq_false_of_not_eq_true h2⟩

theorem State.floor_granted {s : State} {src : Src} (hg : s.grants src Reg.IMG_ACT_CTRL 0x10000#32) : s.imgRuns = true := by
  have h := State.actCtrlDeny_of_grants hg
  have e : s.actCtrlDeny 0x10000#32 = if !s.imgRuns then some .noimg else if s.frozen then some .busy else none := by
    simp [State.actCtrlDeny, bitOf]
  rw [e] at h
  split_ifs at h with h1
  simpa using h1

/-! ## From the effect of a word to the state after its request -/

/-- Registers that the word's own effect keeps, the request keeps but for those of its end. -/
theorem State.keepsRegs_request {s w t : State} {l : List Nat} (ht : ∀ b, b ∉ hostRegs → t.rd b = w.rd b) (hw : s.keepsRegs w l) :
    s.keepsRegs t (l ++ hostRegs) := fun b hb => by
  rw [List.mem_append, not_or] at hb
  exact (ht b hb.2).trans (hw b hb.1)

theorem State.openLoad_rd (s : State) (b : Bool) (a : Nat) :
    (s.openLoad b).rd a = if a = Reg.IMG_LOAD_RCVD then 0#32
      else if a = Reg.IMG_LOAD_STAT then BitVec.ofNat 32 (2 ^ 8 + b.toNat * 2 ^ 12) else s.rd a := by
  simp only [State.openLoad, State.rd_wr]
  rfl

theorem State.commitLoad_rd (s : State) (a : Nat) :
    s.commitLoad.rd a = if a = slotSerialReg s.loadSlotB then ImgBytes.serial s.img.staging
      else if a = slotStatReg s.loadSlotB then putBits (s.rd a) 0 2 1
      else if a = Reg.IMG_LOAD_STAT then putBits (s.rd a) 8 3 4 else s.rd a := by
  unfold State.commitLoad State.setSlotState
  cases s.loadSlotB <;> simp only [State.rd_wr, State.rd_setFld, slotSerialReg, slotStatReg] <;> split_ifs <;> simp_all

theorem State.abortLoad_rd (s : State) (a : Nat) :
    s.abortLoad.rd a = if a = Reg.IMG_LOAD_STAT ∧ s.loadState ≠ 0 then putBits (s.rd a) 8 3 0 else s.rd a := by
  unfold State.abortLoad
  split
  next h => simp [h]
  next h =>
    rw [State.rd_setFld]
    split_ifs <;> simp_all <;> rfl

theorem State.abortLoad_img (s : State) :
    s.abortLoad.img = if s.loadState = 0 then s.img else { s.img with staging := [] } := by
  unfold State.abortLoad
  split_ifs <;> rfl

/-! ## The end of a check (R21, R25, R41) -/

theorem State.checkInjRan_rd (s : State) (code : Nat) (isLoad : Bool) {b : Nat} (h1 : b ≠ Reg.IMG_INJ) (h2 : b ≠ Reg.LAP_INJ)
    (h3 : b ≠ Reg.ZID_CNT_INJ) : (s.checkInjRan code isLoad).rd b = s.rd b := by
  simp only [State.checkInjRan, State.rd_onlyIf, State.injRan_rd _ _ _ _ h1 h3, State.injRan_rd _ _ _ _ h2 h3, ite_self]

theorem State.imgRefused_rd (s : State) {b : Nat} (hb : b ∉ pinRegs) :
    s.imgRefused.rd b = if b = Reg.IMG_IRQ then putBit (s.rd b) 2 true
      else if b = Reg.IMG_STAT then putBit (s.rd b) 0 true
      else if b = Reg.IMG_CNT_REFUSE then satWordN ((s.rd b).toNat + 1) else s.rd b := by
  unfold State.imgRefused State.irqImg
  rw [State.irqAt_rd _ _ _ _ _ _ hb]
  simp only [State.rd_setBit, State.rd_count]
  split_ifs <;> simp_all

/-- What a check that ends with CODE and FAILSECT `r` leaves in the registers that no trigger of FAULT_N changes. -/
def checkedRd (s : State) (r : Nat × Nat) (fbOnly : Bool) (b : Nat) : Word :=
  if b = Reg.IMG_IRQ then putBit (if r.1 = 1 then s.rd b else putBit (s.rd b) 2 true) 0 true
  else if b = Reg.IMG_STAT then
    let w := if r.1 = 1 then s.rd b else putBit (s.rd b) 0 true
    if r.1 = 0x14 ∨ r.1 = 0x15 then putBit w 1 true else w
  else if b = Reg.IMG_CNT_REFUSE then (if r.1 = 1 then s.rd b else satWordN ((s.rd b).toNat + 1))
  else if b = Reg.IMG_LOAD_STAT then putBit (putBits (putBits (putBits (s.rd b) 0 8 r.1) 8 3 3) 16 5 r.2) 13 fbOnly
  else s.rd b

theorem State.checkComplete_rd (s : State) (h : s.loadState = 2) :
    ∃ fbOnly, ∀ b, b ∉ [Reg.IMG_INJ, Reg.LAP_INJ, Reg.ZID_CNT_INJ] ++ pinRegs →
      s.checkComplete.rd b = checkedRd s (s.checkImage s.img.staging (some (s.fld Reg.IMG_LOAD_LEN 0 25))) fbOnly b := by
  unfold State.checkComplete
  rw [if_neg (not_not.mpr h)]
  lift_lets
  extract_lets m r fbOnly s1 s2 s3 s4 s5
  refine ⟨fbOnly, fun b hb => ?_⟩
  simp only [List.mem_append, List.mem_cons, List.not_mem_nil, or_false, not_or] at hb
  obtain ⟨⟨h1, h2, h3⟩, hp⟩ := hb
  have hs : ∀ c, c ≠ Reg.IMG_INJ → c ≠ Reg.LAP_INJ → c ≠ Reg.ZID_CNT_INJ → s1.rd c = s.rd c := fun c => s.checkInjRan_rd r.1 true
  have hi : Reg.IMG_IRQ ∉ pinRegs := by decide
  have ht : Reg.IMG_STAT ∉ pinRegs := by decide
  change (s5.irqImg 0).rd b = checkedRd s r fbOnly b
  simp only [State.irqImg, State.irqAt_rd _ _ _ _ _ _ hp, s5, s4, s3, s2, State.rd_onlyIf, State.rd_setBit, State.rd_setFld,
    State.imgRefused_rd _ hp, State.imgRefused_rd _ hi, State.imgRefused_rd _ ht, checkedRd]
  by_cases c1 : b = Reg.IMG_IRQ
  · subst c1
    simp [hs]
  by_cases c2 : b = Reg.IMG_STAT
  · subst c2
    simp [hs]
  by_cases c3 : b = Reg.IMG_CNT_REFUSE
  · subst c3
    simp [hs]
  by_cases c4 : b = Reg.IMG_LOAD_STAT
  · subst c4
    simp [hs]
  · simp [c1, c2, c3, c4, hs b h1 h2 h3]

theorem State.checkImage_clearSent (s : State) (m : ImgBytes) (l : Option Nat) : s.clearSent.checkImage m l = s.checkImage m l := by
  unfold State.checkImage
  rfl

/-! ## The end of a commit (R26, R36, R41) -/

/-- What a commit that ends well or not leaves in the registers that neither a trigger of FAULT_N nor the injection changes. -/
def committedRd (s : State) (good : Bool) (b : Nat) : Word :=
  if b = Reg.IMG_IRQ then putBit (s.rd b) 1 true
  else if b = Reg.IMG_CNT_FLASH then satWordN ((s.rd b).toNat + (!good).toNat)
  else if b = Reg.IMG_STAT then (if good then s.rd b else putBit (s.rd b) 4 true)
  else if b = Reg.IMG_LOAD_STAT then putBit (putBits (s.rd b) 8 3 (if good then 0 else 3)) 14 (!good)
  else if b = slotStatReg s.loadSlotB then putBits (s.rd b) 0 2 (if good then 2 else 3)
  else s.rd b

theorem satWordN_self (w : Word) : satWordN w.toNat = w := by
  apply BitVec.eq_of_toNat_eq
  rw [satWordN_toNat]
  have := w.isLt
  omega

/-- The end of a commit puts the buffer into the slot, whatever the read-back finds. -/
def State.programSlot (s : State) : State :=
  let s1 := s.injRan Reg.IMG_INJ 3
  { s1 with img := if s.loadSlotB then { s1.img with slotB := s.img.staging } else { s1.img with slotA := s.img.staging } }

theorem State.commitEnd_eq (s : State) (ok : Bool) (h : s.loadState = 4) :
    s.commitEnd ok =
      if s.injTest Reg.IMG_INJ 3 ok then
        (((s.programSlot.setSlotState s.loadSlotB 2).setFld Reg.IMG_LOAD_STAT 8 3 0).setBit Reg.IMG_LOAD_STAT 14 false).irqImg 1
      else
        (((((s.programSlot.setSlotState s.loadSlotB 3).setFld Reg.IMG_LOAD_STAT 8 3 3).setBit Reg.IMG_LOAD_STAT 14 true).setBit
          Reg.IMG_STAT 4 true).count Reg.IMG_CNT_FLASH).irqImg 1 := by
  unfold State.commitEnd
  rw [if_neg (not_not.mpr h)]
  rfl

theorem State.programSlot_rd (s : State) {b : Nat} (h1 : b ≠ Reg.IMG_INJ) (h2 : b ≠ Reg.ZID_CNT_INJ) :
    s.programSlot.rd b = s.rd b := s.injRan_rd _ _ _ h1 h2

theorem State.programSlot_img (s : State) :
    s.programSlot.img = if s.loadSlotB then { s.img with slotB := s.img.staging } else { s.img with slotA := s.img.staging } := by
  have h : (s.injRan Reg.IMG_INJ 3).img = s.img := (State.injRan_keeps (k := 0) rfl (Keeps.refl s)).img_same rfl
  simp only [State.programSlot, h]

theorem slotStatReg_apart (slot : Bool) : slotStatReg slot ∉ [Reg.IMG_INJ, Reg.ZID_CNT_INJ, Reg.IMG_IRQ, Reg.IMG_CNT_FLASH, Reg.IMG_STAT,
    Reg.IMG_LOAD_STAT] ++ pinRegs := by
  cases slot <;> decide

theorem committedRd_slot (s : State) (good : Bool) :
    committedRd s good (slotStatReg s.loadSlotB) = putBits (s.rd (slotStatReg s.loadSlotB)) 0 2 (if good then 2 else 3) := by
  unfold committedRd
  cases s.loadSlotB <;> simp [slotStatReg]

theorem State.commitEnd_rd (s : State) (ok : Bool) (h : s.loadState = 4) {b : Nat} (h1 : b ≠ Reg.IMG_INJ)
    (h2 : b ≠ Reg.ZID_CNT_INJ) (hp : b ∉ pinRegs) :
    (s.commitEnd ok).rd b = committedRd s (ok != s.bit Reg.IMG_INJ 3) b := by
  have hs := fun c => s.programSlot_rd (b := c)
  have hn := slotStatReg_apart s.loadSlotB
  simp only [List.mem_append, List.mem_cons, List.not_mem_nil, or_false, not_or] at hn
  obtain ⟨⟨n1, n2, n3, n4, n5, n6⟩, -⟩ := hn
  rw [State.commitEnd_eq s ok h, State.injTest]
  split_ifs with hg
  all_goals
    rw [State.irqImg, State.irqAt_rd _ _ _ _ _ _ hp]
    simp only [State.setSlotState, State.rd_setBit, State.rd_setFld, State.rd_count, committedRd, hg]
    by_cases c1 : b = Reg.IMG_IRQ
    · subst c1
      simp [hs, Ne.symm n3]
    by_cases c2 : b = Reg.IMG_CNT_FLASH
    · subst c2
      simp [hs, Ne.symm n4, satWordN_self]
    by_cases c3 : b = Reg.IMG_STAT
    · subst c3
      simp [hs, Ne.symm n5]
    by_cases c4 : b = Reg.IMG_LOAD_STAT
    · subst c4
      simp [hs, Ne.symm n6]
    by_cases c5 : b = slotStatReg s.loadSlotB
    · subst c5
      simp [hs, n1, n2, n3, n4, n5, n6]
    · simp [c1, c2, c3, c4, c5, hs b h1 h2]

theorem State.injRan_bit (s : State) {r i : Nat} (hi : i < 32) (hr : r ≠ Reg.ZID_CNT_INJ) : (s.injRan r i).bit r i = false := by
  unfold State.injRan
  split
  next h => simp [hr, bitOf_putBit_same _ _ _ hi]
  next h => simpa using h

theorem State.commitEnd_inj (s : State) (ok : Bool) (h : s.loadState = 4) : (s.commitEnd ok).bit Reg.IMG_INJ 3 = false := by
  have hn := slotStatReg_apart s.loadSlotB
  simp only [List.mem_append, List.mem_cons, List.not_mem_nil, or_false, not_or] at hn
  obtain ⟨⟨n1, -⟩, -⟩ := hn
  have hp : Reg.IMG_INJ ∉ pinRegs := by decide
  have hi : bitOf (s.programSlot.rd Reg.IMG_INJ) 3 = false := s.injRan_bit (by decide) (by decide)
  rw [State.commitEnd_eq s ok h]
  split_ifs <;> simp [State.irqImg, State.irqAt_rd _ _ _ _ _ _ hp, State.setSlotState, Ne.symm n1, hi]

theorem State.commitEnd_img (s : State) (ok : Bool) (h : s.loadState = 4) :
    (s.commitEnd ok).img = if s.loadSlotB then { s.img with slotB := s.img.staging } else { s.img with slotA := s.img.staging } := by
  have hi : ∀ u : State, (u.irqImg 1).img = u.img := fun u => (State.irqImg_keeps (k := 256) rfl (Keeps.refl u)).img_same rfl
  rw [State.commitEnd_eq s ok h, ← State.programSlot_img]
  split_ifs <;> exact hi _

theorem State.commitEnd_idle (s : State) (ok : Bool) (h : s.loadState ≠ 4) : s.commitEnd ok = s := if_pos h

theorem State.checkComplete_idle (s : State) (h : s.loadState ≠ 2) : s.checkComplete = s := if_pos h

/-! ## FLOOR (R30) -/

theorem State.tallyAsk_regs (s : State) (t : Nat) (fw : Bool) : (s.tallyAsk t fw).regs = s.regs := by
  unfold State.tallyAsk
  split <;> rfl

theorem State.tallyAsk_img (s : State) (t : Nat) (fw : Bool) : (s.tallyAsk t fw).img = s.img := by
  unfold State.tallyAsk
  split <;> rfl

theorem State.tallyAsk_nv (s : State) (t : Nat) (fw : Bool) :
    (s.tallyAsk t fw).nv = { s.nv with tallyJobs := s.nv.tallyJobs ++ if s.pfailed then [] else [(t, fw)] } := by
  unfold State.tallyAsk
  split <;> simp

/-- The running SERIAL lies above the floor. -/
def State.serialAbove (s : State) : Prop := (s.tallyV 1).toNat < s.nat Reg.IMG_SERIAL

/-- A raise that is not under way asks for its first increment. -/
theorem State.floorRaise_above {s : State} (h : s.serialAbove) :
    s.floorRaise = State.onlyIf { s with img := { s.img with floorTo := some (s.rd Reg.IMG_SERIAL) } } s.img.floorTo.isNone
      (fun t => t.tallyAsk 1 false) := if_pos h

theorem State.floorRaise_below {s : State} (h : ¬ s.serialAbove) : s.floorRaise = s := if_neg h

theorem State.floorRaise_regs (s : State) : s.floorRaise.regs = s.regs := by
  by_cases h : s.serialAbove
  · rw [State.floorRaise_above h]
    cases s.img.floorTo.isNone
    · rfl
    · exact State.tallyAsk_regs _ _ _
  · rw [State.floorRaise_below h]

theorem State.floorRaise_img {s : State} (h : s.serialAbove) :
    s.floorRaise.img = { s.img with floorTo := some (s.rd Reg.IMG_SERIAL) } := by
  rw [State.floorRaise_above h]
  cases s.img.floorTo.isNone
  · rfl
  · exact State.tallyAsk_img _ _ _

theorem State.floorRaise_nv {s : State} (h : s.serialAbove) :
    s.floorRaise.nv = if s.img.floorTo.isNone then { s.nv with tallyJobs := s.nv.tallyJobs ++ if s.pfailed then [] else [(1, false)] }
      else s.nv := by
  rw [State.floorRaise_above h]
  cases s.img.floorTo.isNone
  · rfl
  · exact State.tallyAsk_nv _ _ _

theorem State.floorRaise_jobs (s : State) : s.floorRaise.nv.jobs = s.nv.jobs := by
  by_cases h : s.serialAbove
  · rw [State.floorRaise_nv h]
    split <;> rfl
  · rw [State.floorRaise_below h]

/-! ## The commands of a load, from the host and at their ends -/

theorem imgOpen_opens (src : Src) (b : Bool) (s : State) (hs : s.supplied)
    (hg : s.grants src Reg.IMG_LOAD_CTRL (BitVec.ofNat 32 (1 + b.toNat * 2 ^ 8))) :
    ∃ t, exec (.imgOpen src b) s = .next t ∧ t.answer.status = .ok ∧ t.img = { s.img with staging := [] }
      ∧ t.rd Reg.IMG_LOAD_STAT = BitVec.ofNat 32 (2 ^ 8 + b.toNat * 2 ^ 12) ∧ t.rd Reg.IMG_LOAD_RCVD = 0#32
      ∧ s.keepsRegs t ([Reg.IMG_LOAD_STAT, Reg.IMG_LOAD_RCVD] ++ hostRegs) ∧ s.keepsParts t (.img :: hostParts) := by
  have hv : ∀ u : State, u.loadCtrl (BitVec.ofNat 32 (1 + b.toNat * 2 ^ 8)) = u.openLoad b := fun u => by cases b <;> rfl
  obtain ⟨t, ht, hok, hr, hw, hk⟩ := State.write1_plain (k := 8388699) hs hg (by decide) (by decide)
    ((s.clearSent.wordWrite_loadCtrl _ _).trans (hv _)) rfl rfl (State.openLoad_keeps rfl (Keeps.refl _))
  refine ⟨t, ht, hok, hw.img_same rfl, ?_, ?_, State.keepsRegs_request hr fun a ha => ?_,
    hk.parts _ (fun p => by cases p <;> decide)⟩
  · rw [hr _ (by decide), State.openLoad_rd]
    rfl
  · rw [hr _ (by decide), State.openLoad_rd]
    rfl
  · simp only [List.mem_cons, List.not_mem_nil, or_false, not_or] at ha
    obtain ⟨h1, h2⟩ := ha
    rw [State.openLoad_rd, if_neg h2, if_neg h1, State.rd_clearSent]

theorem imgCheck_begins (src : Src) (s : State) (hs : s.supplied) (hg : s.grants src Reg.IMG_LOAD_CTRL 2#32) :
    ∃ t, exec (.imgCheck src) s = .next t ∧ t.answer.status = .ok
      ∧ t.rd Reg.IMG_LOAD_STAT = (s.setFld Reg.IMG_LOAD_STAT 8 3 2).rd Reg.IMG_LOAD_STAT
      ∧ s.keepsRegs t (Reg.IMG_LOAD_STAT :: hostRegs) ∧ s.keepsParts t hostParts := by
  obtain ⟨t, ht, hok, hr, -, hk⟩ := State.write1_plain (k := 8388683) (w := s.clearSent.checkLoad) hs hg (by decide) (by decide)
    (s.clearSent.wordWrite_loadCtrl _ _) rfl rfl (State.checkLoad_keeps rfl (Keeps.refl _))
  refine ⟨t, ht, hok, hr _ (by decide), State.keepsRegs_request (l := [Reg.IMG_LOAD_STAT]) hr fun a ha => ?_,
    hk.parts _ (fun p => by cases p <;> decide)⟩
  rw [State.checkLoad, State.rd_setFld, if_neg (by simpa using ha), State.rd_clearSent]

theorem checkComplete_reports (s : State) (hs : s.supplied) (h : s.fld Reg.IMG_LOAD_STAT 8 3 = 2) :
    ∃ t, exec .checkComplete s = .next t
      ∧ (let r := s.checkImage s.img.staging (some (s.fld Reg.IMG_LOAD_LEN 0 25))
         t.fld Reg.IMG_LOAD_STAT 8 3 = 3 ∧ t.fld Reg.IMG_LOAD_STAT 0 8 = r.1 % 256 ∧ t.fld Reg.IMG_LOAD_STAT 16 5 = r.2 % 32
         ∧ t.bit Reg.IMG_LOAD_STAT 12 = s.bit Reg.IMG_LOAD_STAT 12 ∧ t.bit Reg.IMG_IRQ 0 = true
         ∧ t.nat Reg.IMG_CNT_REFUSE = min 0xFFFFFFFF (s.nat Reg.IMG_CNT_REFUSE + (r.1 != 1).toNat)
         ∧ (r.1 ≠ 1 → t.bit Reg.IMG_STAT 0 = true ∧ t.bit Reg.IMG_IRQ 2 = true) ∧ (r.1 = 1 → t.bit Reg.IMG_STAT 0 = s.bit Reg.IMG_STAT 0))
      ∧ s.keepsRegs t ([Reg.IMG_LOAD_STAT, Reg.IMG_STAT, Reg.IMG_CNT_REFUSE, Reg.IMG_IRQ, Reg.IMG_INJ, Reg.LAP_INJ, Reg.ZID_CNT_INJ] ++ pinRegs)
      ∧ s.keepsParts t [.sent, .zid] := by
  obtain ⟨fbOnly, hc⟩ := s.clearSent.checkComplete_rd h
  rw [State.checkImage_clearSent] at hc
  have hrd : ∀ b, b ∉ [Reg.IMG_INJ, Reg.LAP_INJ, Reg.ZID_CNT_INJ] ++ pinRegs → s.clearSent.checkComplete.rd b =
    checkedRd s (s.checkImage s.img.staging (some (s.fld Reg.IMG_LOAD_LEN 0 25))) fbOnly b := hc
  have ht : exec .checkComplete s = .next s.clearSent.checkComplete := State.act_supplied hs
  have hk : Keeps 258 s s.clearSent.checkComplete := execCheckComplete_keeps rfl ht
  refine ⟨_, ht, ?_, fun b hb => ?_, hk.parts _ (fun p => by cases p <;> decide)⟩
  · generalize s.checkImage s.img.staging (some (s.fld Reg.IMG_LOAD_LEN 0 25)) = r at hrd
    simp only [State.fld_eq, State.bit_eq, State.nat_eq, hrd Reg.IMG_LOAD_STAT (by decide), hrd Reg.IMG_IRQ (by decide),
      hrd Reg.IMG_CNT_REFUSE (by decide), hrd Reg.IMG_STAT (by decide)]
    have hn := (s.rd Reg.IMG_CNT_REFUSE).isLt
    by_cases h1 : r.1 = 1
    · simp [checkedRd, h1, putBit, bitsOf_putBits_same, bitsOf_putBits_apart, bitOf_putBits]
      omega
    · have hb : (r.1 != 1) = true := by simpa using h1
      simp [checkedRd, h1, hb, putBit, bitsOf_putBits_same, bitsOf_putBits_apart, bitOf_putBits, satWordN_toNat]
      split_ifs <;> simp [bitOf_putBits]
  · simp only [List.mem_append, List.mem_cons, List.not_mem_nil, or_false, not_or] at hb
    obtain ⟨⟨h1, h2, h3, h4, h5, h6, h7⟩, hp⟩ := hb
    rw [hrd b (by simp [h5, h6, h7, hp])]
    simp only [checkedRd, h1, h2, h3, h4, if_false]

theorem imgCommit_begins (src : Src) (s : State) (hs : s.supplied) (hg : s.grants src Reg.IMG_LOAD_CTRL 4#32) :
    let b := s.bit Reg.IMG_LOAD_STAT 12
    ∃ t, exec (.imgCommit src) s = .next t ∧ t.answer.status = .ok
      ∧ t.fld Reg.IMG_LOAD_STAT 8 3 = 4 ∧ t.fld (slotStatReg b) 0 2 = 1 ∧ t.rd (slotSerialReg b) = ImgBytes.serial s.img.staging
      ∧ s.keepsRegs t ([Reg.IMG_LOAD_STAT, slotStatReg b, slotSerialReg b] ++ hostRegs) ∧ s.keepsParts t hostParts := by
  intro b
  obtain ⟨t, ht, hok, hr, -, hk⟩ := State.write1_plain (k := 8388683) (w := s.clearSent.commitLoad) hs hg (by decide) (by decide)
    (s.clearSent.wordWrite_loadCtrl _ _) rfl rfl (State.commitLoad_keeps rfl (Keeps.refl _))
  have hw : ∀ a, s.clearSent.commitLoad.rd a = if a = slotSerialReg b then ImgBytes.serial s.img.staging
      else if a = slotStatReg b then putBits (s.rd a) 0 2 1 else if a = Reg.IMG_LOAD_STAT then putBits (s.rd a) 8 3 4 else s.rd a :=
    s.clearSent.commitLoad_rd
  have hn : slotStatReg b ∉ hostRegs ∧ slotSerialReg b ∉ hostRegs ∧ slotStatReg b ≠ slotSerialReg b ∧ Reg.IMG_LOAD_STAT ≠ slotStatReg b
      ∧ Reg.IMG_LOAD_STAT ≠ slotSerialReg b := by cases b <;> decide
  obtain ⟨n1, n2, n3, n4, n5⟩ := hn
  refine ⟨t, ht, hok, ?_, ?_, ?_, State.keepsRegs_request hr fun a ha => ?_, hk.parts _ (fun p => by cases p <;> decide)⟩
  · rw [State.fld_eq, hr _ (by decide), hw, if_neg n5, if_neg n4, if_pos rfl]
    exact bitsOf_putBits_same _ _ _ _ (by decide)
  · rw [State.fld_eq, hr _ n1, hw, if_neg n3, if_pos rfl]
    exact bitsOf_putBits_same _ _ _ _ (by decide)
  · rw [hr _ n2, hw, if_pos rfl]
  · simp only [List.mem_cons, List.not_mem_nil, or_false, not_or] at ha
    obtain ⟨h1, h2, h3⟩ := ha
    rw [hw, if_neg h3, if_neg h2, if_neg h1]

theorem commitComplete_ends (ok : Bool) (s : State) (hs : s.supplied) :
    ∃ t, exec (.commitComplete ok) s = .next t
      ∧ (let b := s.bit Reg.IMG_LOAD_STAT 12
         let good := ok != s.bit Reg.IMG_INJ 3
         (s.fld Reg.IMG_LOAD_STAT 8 3 ≠ 4 → t = s.clearSent)
         ∧ (s.fld Reg.IMG_LOAD_STAT 8 3 = 4 → t.bit Reg.IMG_INJ 3 = false ∧ t.bit Reg.IMG_IRQ 1 = true
            ∧ t.img = (if b then { s.img with slotB := s.img.staging } else { s.img with slotA := s.img.staging })
            ∧ t.fld (slotStatReg b) 0 2 = (if good then 2 else 3) ∧ t.fld Reg.IMG_LOAD_STAT 8 3 = (if good then 0 else 3)
            ∧ t.bit Reg.IMG_LOAD_STAT 14 = !good ∧ t.bit Reg.IMG_STAT 4 = (s.bit Reg.IMG_STAT 4 || !good)
            ∧ t.nat Reg.IMG_CNT_FLASH = min 0xFFFFFFFF (s.nat Reg.IMG_CNT_FLASH + (!good).toNat))
         ∧ s.keepsRegs t ([slotStatReg b, Reg.IMG_LOAD_STAT, Reg.IMG_STAT, Reg.IMG_CNT_FLASH, Reg.IMG_IRQ, Reg.IMG_INJ, Reg.ZID_CNT_INJ] ++ pinRegs))
      ∧ s.keepsParts t [.sent, .img, .zid] := by
  have ht : exec (.commitComplete ok) s = .next (s.clearSent.commitEnd ok) :=
    show s.act (fun u => u.commitEnd ok) = _ from State.act_supplied hs
  have hk : Keeps 274 s (s.clearSent.commitEnd ok) := execCommitComplete_keeps rfl ht
  refine ⟨_, ht, ?_, hk.parts _ (fun p => by cases p <;> decide)⟩
  intro b good
  by_cases h : s.loadState = 4
  case neg =>
    rw [s.clearSent.commitEnd_idle ok h]
    exact ⟨fun _ => rfl, fun g => absurd g h, fun a _ => rfl⟩
  case pos =>
    have hrd : ∀ a, a ≠ Reg.IMG_INJ → a ≠ Reg.ZID_CNT_INJ → a ∉ pinRegs → (s.clearSent.commitEnd ok).rd a = committedRd s good a :=
      fun a => s.clearSent.commitEnd_rd ok h
    have hn := slotStatReg_apart b
    simp only [List.mem_append, List.mem_cons, List.not_mem_nil, or_false, not_or] at hn
    obtain ⟨⟨n1, n2, n3, n4, n5, n6⟩, n7⟩ := hn
    refine ⟨fun g => absurd h g, fun _ => ⟨s.clearSent.commitEnd_inj ok h, ?_, s.clearSent.commitEnd_img ok h, ?_, ?_, ?_, ?_, ?_⟩,
      fun a ha => ?_⟩
    · rw [State.bit_eq, hrd _ (by decide) (by decide) (by decide)]
      simp [committedRd, bitOf_putBit_same]
    · rw [State.fld_eq, hrd _ n1 n2 n7, show committedRd s good (slotStatReg b) = _ from committedRd_slot s good,
        bitsOf_putBits_same _ _ _ _ (by decide)]
      cases good <;> rfl
    · rw [State.fld_eq, hrd _ (by decide) (by decide) (by decide)]
      cases good <;> simp [committedRd, putBit, bitsOf_putBits_same, bitsOf_putBits_apart]
    · rw [State.bit_eq, hrd _ (by decide) (by decide) (by decide)]
      simp [committedRd, bitOf_putBit_same]
    · rw [State.bit_eq, hrd _ (by decide) (by decide) (by decide)]
      cases good <;> simp [committedRd, bitOf_putBit_same]
    · rw [State.nat_eq, hrd _ (by decide) (by decide) (by decide)]
      simp [committedRd, satWordN_toNat]
    · simp only [List.mem_append, List.mem_cons, List.not_mem_nil, or_false, not_or] at ha
      obtain ⟨⟨h1, h2, h3, h4, h5, h6, h7⟩, hp⟩ := ha
      rw [hrd a h6 h7 hp]
      simp only [committedRd, h2, h3, h4, h5, if_false, show a ≠ slotStatReg s.loadSlotB from h1]

theorem imgAbort_discards (src : Src) (s : State) (hs : s.supplied) (hg : s.grants src Reg.IMG_LOAD_CTRL 8#32) :
    ∃ t, exec (.imgAbort src) s = .next t ∧ t.answer.status = .ok ∧ t.fld Reg.IMG_LOAD_STAT 8 3 = 0
      ∧ t.img = (if s.fld Reg.IMG_LOAD_STAT 8 3 = 0 then s.img else { s.img with staging := [] })
      ∧ s.keepsRegs t (Reg.IMG_LOAD_STAT :: hostRegs) ∧ s.keepsParts t (.img :: hostParts) := by
  obtain ⟨t, ht, hok, hr, hw, hk⟩ := State.write1_plain (k := 8388699) (w := s.clearSent.abortLoad) hs hg (by decide) (by decide)
    (s.clearSent.wordWrite_loadCtrl _ _) rfl rfl (State.abortLoad_keeps rfl (Keeps.refl _))
  have hrd : ∀ a, s.clearSent.abortLoad.rd a =
      if a = Reg.IMG_LOAD_STAT ∧ s.loadState ≠ 0 then putBits (s.rd a) 8 3 0 else s.rd a := s.clearSent.abortLoad_rd
  refine ⟨t, ht, hok, ?_, (hw.img_same rfl).trans s.clearSent.abortLoad_img,
    State.keepsRegs_request (l := [Reg.IMG_LOAD_STAT]) hr fun a ha => ?_, hk.parts _ (fun p => by cases p <;> decide)⟩
  · rw [State.fld_eq, hr _ (by decide), hrd]
    split_ifs with h
    · exact bitsOf_putBits_same _ _ _ _ (by decide)
    · simpa [State.loadState] using h
  · rw [hrd, if_neg (fun h => ha (List.mem_singleton.mpr h.1))]

/-! ## ACTIVATE and FLOOR -/

theorem activate_pends (src : Src) (b : Bool) (s : State) (hs : s.supplied)
    (hg : s.grants src Reg.IMG_ACT_CTRL (BitVec.ofNat 32 (1 + b.toNat * 2 ^ 8))) :
    ∃ t, exec (.activate src b) s = .next t ∧ t.answer.status = .ok ∧ t.img = { s.img with pendAct := some b }
      ∧ s.keepsRegs t hostRegs ∧ s.keepsParts t (.img :: hostParts) := by
  have hv : ∀ u : State, u.actCtrl (BitVec.ofNat 32 (1 + b.toNat * 2 ^ 8)) = { u with img := { u.img with pendAct := some b } } :=
    fun u => by cases b <;> rfl
  obtain ⟨t, ht, hok, hr, hw, hk⟩ := State.write1_plain (k := 8388699) hs hg (by decide) (by decide)
    ((s.clearSent.wordWrite_actCtrl _ _).trans (hv _)) rfl rfl (Keeps.set_img rfl (fun _ g => g.img) (Keeps.refl _))
  exact ⟨t, ht, hok, hw.img_same rfl, hr, hk.parts _ (fun p => by cases p <;> decide)⟩

theorem floor_asks (src : Src) (s : State) (hs : s.supplied) (hg : s.grants src Reg.IMG_ACT_CTRL 0x10000#32) :
    ∃ t, exec (.floor src) s = .next t ∧ t.answer.status = .ok
      ∧ (let above := decide ((s.tallyV 1).toNat < s.nat Reg.IMG_SERIAL)
         t.img = { s.img with floorTo := if above then some (s.rd Reg.IMG_SERIAL) else s.img.floorTo }
         ∧ (above = true → s.img.floorTo = none → s.boot.phase ≠ Phase.shutdown →
              t.nv = { s.nv with tallyJobs := t.nv.tallyJobs } ∧ t.nv.tallyJobs.any (fun j => j.1 == 1) = true)
         ∧ (above = false ∨ s.img.floorTo.isSome = true → t.nv = s.nv))
      ∧ s.keepsRegs t hostRegs ∧ s.keepsParts t (.img :: .nv :: hostParts) := by
  have hv : s.clearSent.actCtrl 0x10000#32 = s.clearSent.floorRaise := rfl
  obtain ⟨t, ht, hok, hr, hw, hk⟩ := State.write1_granted (k := 8388731) hs hg (by decide) (by decide)
    ((s.clearSent.wordWrite_actCtrl _ _).trans hv) rfl (State.floorRaise_keeps rfl (Keeps.refl _)) s.clearSent.floorRaise_jobs
  have himg : t.img = s.clearSent.floorRaise.img := hw.img_same rfl
  have hnv : t.nv = s.clearSent.floorRaise.nv := hw.nv_same rfl
  refine ⟨t, ht, hok, ?_, fun a ha => (hr a ha).trans (State.rd_congr s.clearSent.floorRaise_regs a),
    hk.parts _ (fun p => by cases p <;> decide)⟩
  intro above
  by_cases h : s.serialAbove
  · have ha : above = true := decide_eq_true h
    rw [State.floorRaise_img (s := s.clearSent) h] at himg
    rw [State.floorRaise_nv (s := s.clearSent) h] at hnv
    refine ⟨by rw [ha]; exact himg, fun _ hn hp => ?_, fun g => ?_⟩
    · have hf : s.clearSent.pfailed = false := decide_eq_false hp
      rw [hnv, show s.clearSent.img.floorTo = none from hn, hf]
      simp
    · have hi : s.clearSent.img.floorTo.isNone = false := by
        simpa [ha, Option.isSome_iff_ne_none, Option.isNone_iff_eq_none] using g
      rw [hnv, hi]
      rfl
  · have ha : above = false := decide_eq_false h
    rw [State.floorRaise_below (s := s.clearSent) h] at himg hnv
    exact ⟨by rw [ha]; exact himg, fun g => absurd (ha.symm.trans g) (by decide), fun _ => hnv⟩

/-- Settles O9: what a granted request tells, and what each command leaves. -/
theorem imageLoading : Obligations.ImageLoading := by
  refine ⟨fun src b s hs hg => ?_, fun src s hs hg => ⟨State.check_granted hg, imgCheck_begins src s hs hg⟩,
    fun s hs h => ⟨_, State.act_supplied hs, State.checkComplete_idle s.clearSent h⟩, checkComplete_reports, fun src s hs hg => ?_,
    fun ok s hs => ?_, imgAbort_discards, fun src b s hs hg => ?_, fun src s hs hg => ⟨State.floor_granted hg, floor_asks src s hs hg⟩⟩
  · obtain ⟨hidle, hother⟩ := State.open_granted hg
    exact ⟨hidle, hother, imgOpen_opens src b s hs hg⟩
  · obtain ⟨hstate, hcode⟩ := State.commit_granted hg
    exact ⟨hstate, hcode, imgCommit_begins src s hs hg⟩
  · exact commitComplete_ends ok s hs
  · obtain ⟨hvalid, hstandby⟩ := State.activate_granted hg
    exact ⟨hvalid, by simpa [State.activeWithStandby] using hstandby, activate_pends src b s hs hg⟩

end Sys2Proof.Machine

/-!
The batons granted to the digital outputs are released with the output phase that they serve (R64, R238), which refutes O10.
-/

namespace Sys2Proof.Machine

theorem State.batonRelease_batonsOf (s : State) (who : Nat) : (s.batonRelease who).batonsOf who = 0 := by
  unfold State.batonsOf State.batonRelease listGet listSet
  by_cases h : who < s.lap.batonHeld.length
  · simp [h]
  · simp [Nat.not_lt.mp h]

/-- The granted output phase applies the image that waits, if one does, and ends with the release. -/
theorem State.fbpGranted_batonsOf (s : State) : s.fbpGranted.batonsOf 5 = 0 := by
  unfold State.fbpGranted
  split
  · exact State.batonRelease_batonsOf _ 5
  · exact State.batonRelease_batonsOf _ 5

theorem State.batonGrant_due {s : State} {q : BatonReq} (h : s.nextGrant = some q) : s.batonGrant = (s.batonGive q).grantUse q.who := by
  unfold State.batonGrant
  rw [h]

/-- A grant to requester 5 of Table 6, the digital outputs, leaves it without batons. -/
theorem State.batonGrant_outputs {s : State} {need waited : Nat} (h : s.nextGrant = some ⟨5, need, waited⟩) :
    s.batonGrant.batonsOf 5 = 0 := by
  rw [State.batonGrant_due h]
  exact State.fbpGranted_batonsOf _

theorem exec_batonGrant {s : State} (hs : s.supplied) : exec .batonGrant s = .next s.clearSent.batonGrant :=
  show execBatonGrant s = _ from State.act_supplied hs

/-- The delivered module in the output phase of a program that switches nine outputs on: its request for the 2 batons waits alone. -/
def outputsWait : State :=
  { State.reset.wr Reg.FBP_STATE 0x302#32 with
    lap := { resetLap with batonQ := [⟨5, 2, 0⟩] }
    fbp := { resetFbp with cycleOpen := true, waiting := some ⟨[], ((List.finRange 16).take 9).map (·, true), [], []⟩ } }

/-- Refutes O10: the governor's next grant is the request of requester 5 for 2 batons. The statement has it hold 2 after the
BATON_GRANT, while the output phase, applied with that grant, has released them (R64, R238). -/
theorem not_lapsAndBatons : ¬ Obligations.LapsAndBatons := by
  intro h
  obtain ⟨-, -, -, -, -, -, hgrant, -⟩ := h
  have hs : outputsWait.supplied := by unfold State.supplied; decide
  have hq : outputsWait.nextGrant = some ⟨5, 2, 0⟩ := by decide
  obtain ⟨t, ht, ⟨-, hgiven⟩, -⟩ := hgrant outputsWait hs
  obtain ⟨-, -, -, hheld, -⟩ := hgiven ⟨5, 2, 0⟩ hq
  have htwo : t.batonsOf 5 = 2 := hheld (by decide) (by decide)
  have e : t = outputsWait.clearSent.batonGrant := Host.Outcome.next.inj (ht.symm.trans (exec_batonGrant hs))
  have hnone : t.batonsOf 5 = 0 := e ▸ State.batonGrant_outputs (s := outputsWait.clearSent) hq
  exact absurd (htwo.symm.trans hnone) (by decide)

end Sys2Proof.Machine

/-!
The rules of the tallies, of a readable sett and of a write set that the statements about setts and about the pair rest on.
-/

namespace Sys2Proof.Machine

/-! ## Tallies (R440, R441) -/

theorem assocGet_assocDel {α : Type} (d : α) (l : List (Nat × α)) (k j : Nat) :
    assocGet d (assocDel l k) j = if j = k then d else assocGet d l j := by
  unfold assocDel
  induction l with
  | nil => simp [assocGet]
  | cons e t ih => grind [assocGet]

theorem assocGet_assocPut {α : Type} (d : α) (l : List (Nat × α)) (k j : Nat) (v : α) :
    assocGet d (assocPut l k v) j = if j = k then v else assocGet d l j := by
  induction l with
  | nil => simp only [assocPut, assocGet, eq_comm]
  | cons e t ih => grind [assocPut, assocGet]

@[simp] theorem State.tally_putTally (s : State) (k j : Nat) (x : Tally) :
    (s.putTally k x).tally j = if j = k then x else s.tally j := by
  unfold State.tally State.putTally
  by_cases h : x = deliveredTally k
  · simp only [h, beq_self_eq_true, if_true, assocGet_assocDel]
    split_ifs with hj
    · rw [hj]
    · rfl
  · simp only [beq_iff_eq, h, if_false, assocGet_assocPut]

theorem State.tally_congr {s t : State} (h : t.nv.tallies = s.nv.tallies) (k : Nat) : t.tally k = s.tally k := by
  unfold State.tally
  rw [h]

/-- From `s` to `t` the store changes in tally `k` alone. -/
structure State.TallyOnly (k : Nat) (s t : State) : Prop where
  others : ∀ j, j ≠ k → t.tally j = s.tally j
  rest : t.nv = { s.nv with tallies := t.nv.tallies }

theorem State.TallyOnly.of_nv {k : Nat} {s t : State} (h : t.nv = s.nv) : State.TallyOnly k s t :=
  ⟨fun j _ => State.tally_congr (congrArg NvState.tallies h) j, by rw [h]⟩

theorem State.TallyOnly.trans {k : Nat} {s t u : State} (a : State.TallyOnly k s t) (b : State.TallyOnly k t u) :
    State.TallyOnly k s u :=
  ⟨fun j hj => (b.others j hj).trans (a.others j hj), by rw [b.rest, a.rest]⟩

theorem State.putTally_only (s : State) (k : Nat) (x : Tally) : State.TallyOnly k s (s.putTally k x) :=
  ⟨fun j hj => by rw [State.tally_putTally, if_neg hj], rfl⟩

theorem State.nvCell_nv (s : State) (k : Nat) (rb : ReadBack) : (s.nvCell k rb).1.nv = s.nv :=
  (State.nvCell_keeps (k := 8388864) rfl (Keeps.refl s)).nv_same rfl

theorem State.nvCell_tally (s : State) (k j : Nat) (rb : ReadBack) : (s.nvCell k rb).1.tally j = s.tally j :=
  State.tally_congr (congrArg NvState.tallies (s.nvCell_nv k rb)) j

/-- A cell whose read-backs are good is verified, at the second write where NVS_INJ spoils the first comparison. -/
theorem State.nvCell_goodRb (s : State) (k : Nat) : (s.nvCell k goodRb).2 = (true, true) := by
  unfold State.nvCell
  lift_lets
  extract_lets c ok1 s1 s2
  by_cases h : ok1 = true
  · rw [if_pos h]; rfl
  · rw [if_neg h]; rfl

theorem State.foldTally_only (s : State) (k : Nat) (rb : ReadBack) : State.TallyOnly k s (s.foldTally k rb) :=
  (State.TallyOnly.of_nv (s.nvCell_nv k rb)).trans (State.putTally_only _ _ _)

/-- A fold writes a base copy, and the value stays. -/
theorem State.foldTally_tallyV (s : State) (k : Nat) (rb : ReadBack) : (s.foldTally k rb).tallyV k = s.tallyV k := by
  unfold State.foldTally State.tallyV
  simp only [State.tally_putTally, if_true]
  split_ifs <;> rfl

/-- An increment cell whose read-backs are good is written and verified, and V becomes N. -/
theorem State.writeTallyCell_good (s : State) (k : Nat) (n : Word) (fold : ReadBack) :
    (s.writeTallyCell k n goodRb fold).1.tallyV k = n ∧ State.TallyOnly k s (s.writeTallyCell k n goodRb fold).1 := by
  unfold State.writeTallyCell
  lift_lets
  extract_lets r x cells s1
  have hr : r.2 = (true, true) := s.nvCell_goodRb k
  have hv : s1.tallyV k = n := by
    unfold State.tallyV
    rw [State.tally_putTally, if_pos rfl]
  have ho : State.TallyOnly k s s1 := (State.TallyOnly.of_nv (s.nvCell_nv k goodRb)).trans (State.putTally_only _ _ _)
  rw [if_pos (by rw [hr])]
  cases (s1.tally k).foldDue with
  | false => exact ⟨hv, ho⟩
  | true => exact ⟨(s1.foldTally_tallyV k fold).trans hv, ho.trans (s1.foldTally_only k fold)⟩

/-- A raise makes V one greater, unless V can rise no further. -/
theorem State.raiseTally_tallyV (s : State) (k : Nat) :
    (s.raiseTally k).tallyV k = if s.tallyV k = 0xFFFFFFFF#32 then s.tallyV k else s.tallyV k + 1 := by
  unfold State.raiseTally
  split_ifs
  · rfl
  · exact (s.writeTallyCell_good k _ goodRb).1

theorem State.raiseTally_only (s : State) (k : Nat) : State.TallyOnly k s (s.raiseTally k) := by
  unfold State.raiseTally
  split_ifs
  · exact State.TallyOnly.of_nv rfl
  · exact (s.writeTallyCell_good k _ goodRb).2

/-! ## A sett becomes readable (R73, R74, R340, R341) -/

theorem State.settShow_sett (s : State) (f : Sett) : (s.settShow f).sett = { s.sett with held := f :: s.sett.held.take 3 } :=
  (State.irqSett_keeps (k := 256) rfl (Keeps.refl _)).sett_same rfl

theorem State.settShow_rd (s : State) (f : Sett) {b : Nat} (hb : b ∉ pinRegs) :
    (s.settShow f).rd b = if b = Reg.SETT_IRQ then putBit (s.rd b) 0 true else s.rd b := by
  unfold State.settShow State.irqSett
  rw [State.irqAt_rd _ _ _ _ _ _ hb]
  split_ifs with h
  · rw [h]; rfl
  · rfl

theorem State.telSend_rd (s : State) (f : Sett) (i p : Nat) {b : Nat} (hb : blockOf b ≠ some .eth) : (s.telSend f i p).rd b = s.rd b := by
  have own : ∀ r ∈ [Reg.ETH_CNT_NOKEY, Reg.ETH_STAT, Reg.ETH_CNT_ARPMISS, Reg.ETH_CNT_TXTEL], b ≠ r := by
    have h : ∀ r ∈ [Reg.ETH_CNT_NOKEY, Reg.ETH_STAT, Reg.ETH_CNT_ARPMISS, Reg.ETH_CNT_TXTEL], blockOf r = some .eth := by decide
    exact fun r hr e => hb (e ▸ h r hr)
  simp only [List.forall_mem_cons, List.not_mem_nil, false_imp_iff, implies_true, and_true] at own
  obtain ⟨h1, h2, h3, h4⟩ := own
  unfold State.telSend State.arpAsk
  lift_lets
  extract_lets
  split
  · simp [h1, h2]
  · split <;> simp [h2, h3, h4]

/-- The telegrams of a sett change registers of the ETH block alone. -/
theorem State.telegrams_rd (s : State) (f : Sett) {b : Nat} (hb : blockOf b ≠ some .eth) : (s.telegrams f).rd b = s.rd b := by
  unfold State.telegrams
  lift_lets
  extract_lets
  split_ifs
  · rfl
  · exact State.rd_forEach _ _ _ (fun t i => State.rd_forEach _ _ _ (fun u p => u.telSend_rd f i p hb) t) _

theorem State.telegrams_off {s : State} (f : Sett) (h : s.bit Reg.ETH_CTRL 0 = false ∨ s.imgRuns = false) : s.telegrams f = s := by
  unfold State.telegrams
  lift_lets
  extract_lets
  rw [if_pos]
  rcases h with h | h <;> simp only [h, Bool.not_false, Bool.true_or, Bool.or_true]

/-- With no sett committed nothing becomes readable. -/
theorem State.settReadable_none {s : State} (h : s.sett.fresh = none) : s.settReadable = s := by
  unfold State.settReadable
  rw [h]

/-- The result published for the sett shows with it (R176). -/
def State.pubShow (s : State) : State :=
  if s.dsp.pubFresh then ({ s with dsp := { s.dsp with pubFresh := false } }).irqRes 0 else s

theorem State.settReadable_some {s : State} {f : Sett} (h : s.sett.fresh = some f) :
    s.settReadable = (({ s with sett := { s.sett with fresh := none } }).settShow f).pubShow.telegrams f := by
  unfold State.settReadable
  rw [h]
  rfl

theorem State.pubShow_sett (s : State) : s.pubShow.sett = s.sett := by
  unfold State.pubShow
  split_ifs
  · exact (State.irqRes_keeps (k := 256) rfl (Keeps.refl _)).sett_same rfl
  · rfl

theorem State.pubShow_dsp (s : State) : s.pubShow.dsp = { s.dsp with pubFresh := false } := by
  unfold State.pubShow
  split_ifs with h
  · exact (State.irqRes_keeps (k := 256) rfl (Keeps.refl _)).dsp_same rfl
  · rw [← Bool.eq_false_of_not_eq_true h]

theorem State.pubShow_sent (s : State) : s.pubShow.sent = s.sent ∧ s.pubShow.eth = s.eth := by
  have h : ∀ u : State, Keeps 256 u (u.irqRes 0) := fun u => State.irqRes_keeps rfl (Keeps.refl u)
  unfold State.pubShow
  split_ifs
  · exact ⟨(h _).sent_same rfl, (h _).eth_same rfl⟩
  · exact ⟨rfl, rfl⟩

theorem State.pubShow_rd (s : State) {b : Nat} (hb : b ∉ pinRegs) :
    s.pubShow.rd b = if b = Reg.DSP_RES_IRQ ∧ s.dsp.pubFresh = true then putBit (s.rd b) 0 true else s.rd b := by
  unfold State.pubShow
  by_cases h : s.dsp.pubFresh = true
  · rw [if_pos h, State.irqRes, State.irqAt_rd _ _ _ _ _ _ hb]
    split_ifs with h1 h2 h2
    · rw [h1]; rfl
    · exact absurd ⟨h1, h⟩ h2
    · exact absurd h2.1 h1
    · rfl
  · rw [if_neg h, if_neg (fun g => h g.2)]

end Sys2Proof.Machine

/-!
Setts and write sets (R73, R74, R84, R89, R90, R91, R94): what each command of a write set leaves (O11).
-/

namespace Sys2Proof.Machine

/-! ## The result of a write set (R91) -/

/-- What the result `code` of a discarded set leaves in the registers that no trigger of FAULT_N changes. -/
def discardedRd (s : State) (code : Nat) (b : Nat) : Word :=
  if b = Reg.SETT_IRQ then putBit (s.rd b) 1 true
  else if b = Reg.SETT_STAT then putBit (s.rd b) 2 true
  else if b = Reg.SETT_CNT_WS_DISCARD then satWordN ((s.rd b).toNat + 1)
  else if b = Reg.SETT_WS_LAST_SEQ then s.rd Reg.SETT_WS_SEQ
  else if b = Reg.SETT_WS_LAST then BitVec.ofNat 32 code
  else s.rd b

/-- The registers that the discard of a write set changes. -/
def discardRegs : List Nat := [Reg.SETT_WS_LAST, Reg.SETT_WS_LAST_SEQ, Reg.SETT_CNT_WS_DISCARD, Reg.SETT_STAT, Reg.SETT_IRQ]

theorem discardedRd_other {s : State} {code b : Nat} (h : b ∉ discardRegs) : discardedRd s code b = s.rd b := by
  simp only [discardRegs, List.mem_cons, List.not_mem_nil, or_false, not_or] at h
  obtain ⟨h1, h2, h3, h4, h5⟩ := h
  simp only [discardedRd, h1, h2, h3, h4, h5, if_false]

theorem State.wsResult_none {s : State} (h : s.sett.ws = none) (code : Nat) : s.wsResult code = s := by
  unfold State.wsResult
  rw [h]

theorem State.wsResult_rd {s : State} {w : WriteSet} {code b : Nat} (h : s.sett.ws = some w) (hc : code ≠ wsApplied)
    (hb : b ∉ pinRegs) : (s.wsResult code).rd b = discardedRd s code b := by
  unfold State.wsResult
  rw [h]
  lift_lets
  extract_lets s1 s2 s3
  have h3 : s3 = (s2.count Reg.SETT_CNT_WS_DISCARD).setBit Reg.SETT_STAT 2 true := if_neg hc
  have h0 : ∀ c, (s.putWs none).rd c = s.rd c := fun _ => rfl
  change (s3.irqSett 1).rd b = _
  rw [State.irqSett, State.irqAt_rd _ _ _ _ _ _ hb, h3]
  simp only [State.rd_setBit, State.rd_count, State.rd_wr, s2, s1, h0, discardedRd]
  by_cases h1 : b = Reg.SETT_IRQ
  · subst h1; rfl
  by_cases h2 : b = Reg.SETT_STAT
  · subst h2; rfl
  by_cases h3 : b = Reg.SETT_CNT_WS_DISCARD
  · subst h3; rfl
  · simp only [h1, h2, h3, if_false]

theorem State.wsResult_sett (s : State) (code : Nat) : (s.wsResult code).sett = { s.sett with ws := none } := by
  unfold State.wsResult
  split
  next h => rw [← h]
  next w h =>
    lift_lets
    extract_lets s1 s2 s3
    have h3 : s3.sett = { s.sett with ws := none } := by
      simp only [s3]
      split_ifs <;> rfl
    rw [← h3]
    exact (State.irqSett_keeps (k := 256) rfl (Keeps.refl s3)).sett_same rfl

/-- A discard is recorded, counted, flagged and raised. -/
theorem discarded_shows {s t : State} {code : Nat} (h : ∀ b ∈ discardRegs, t.rd b = discardedRd s code b) :
    t.rd Reg.SETT_WS_LAST = BitVec.ofNat 32 code ∧ t.rd Reg.SETT_WS_LAST_SEQ = s.rd Reg.SETT_WS_SEQ
      ∧ t.nat Reg.SETT_CNT_WS_DISCARD = min 0xFFFFFFFF (s.nat Reg.SETT_CNT_WS_DISCARD + 1) ∧ t.bit Reg.SETT_STAT 2 = true
      ∧ t.bit Reg.SETT_IRQ 1 = true := by
  refine ⟨?_, ?_, ?_, ?_, ?_⟩
  · rw [h _ (by decide)]; rfl
  · rw [h _ (by decide)]; rfl
  · rw [State.nat_eq, h _ (by decide)]
    exact satWordN_toNat _
  · rw [State.bit_eq, h _ (by decide)]
    exact bitOf_putBit_same _ _ _ (by decide)
  · rw [State.bit_eq, h _ (by decide)]
    exact bitOf_putBit_same _ _ _ (by decide)

/-! ## SEAL (R89, R99) -/

theorem State.sealTarget_eq (s : State) :
    s.sealTarget = (if s.lap.tick < 4032 then 0 else 1) + s.sett.jumpTo.getD (s.sett.epoch + 1) := by
  unfold State.sealTarget State.nextEpoch
  split_ifs <;> omega

/-- An OPEN set as a SEAL of this tick leaves it (R89, R99). -/
def State.sealedSet (s : State) (w : WriteSet) : WriteSet :=
  { w with sealed := true, target := s.sealTarget, poison := w.poison || s.bit Reg.SETT_INJ 1 }

theorem State.wsSeal_open {s : State} {w : WriteSet} (h : s.sett.ws = some w) (ho : w.sealed = false) :
    s.wsSeal = ((s.putWs (some (s.sealedSet w))).wr Reg.SETT_WS_TARGET_LO (BitVec.ofNat 32 s.sealTarget)).injRan Reg.SETT_INJ 1 := by
  unfold State.wsSeal
  simp only [h, ho, Bool.false_eq_true, if_false]
  rfl

theorem State.wsSeal_idle {s : State} (h : s.wsIsOpen = false) : s.wsSeal = s := by
  unfold State.wsSeal
  unfold State.wsIsOpen at h
  split
  next w hw =>
    rw [if_pos]
    simpa [hw] using h
  next => rfl

/-! ## A granted write of SETT_WS_CTRL -/

/-- The registers that the end of an accepted request changes when it formed no write set. -/
def answerRegs : List Nat := [Reg.HWP_CNT_OK, Reg.HWP_CNT_RESEND, Reg.HWP_STAT]

/-- A granted write of SETT_WS_CTRL is answered OK, and the setts and the registers are as the write itself leaves them. -/
theorem wsCtrl_granted {k : Nat} {s w : State} {src : Src} {v : Word} (hs : s.supplied) (hg : s.grants src Reg.SETT_WS_CTRL v)
    (hw : s.clearSent.wsCtrl src.slot.val v = w) (hk : k &&& 8388683 = 8388683) (hn : k.testBit 5 = false) (hkw : Keeps k s.clearSent w) :
    ∃ t, s.act (fun t => t.write1 src Reg.SETT_WS_CTRL v) = .next t ∧ t.answer.status = .ok ∧ t.sett = w.sett
      ∧ (∀ b, b ∉ answerRegs → t.rd b = w.rd b) ∧ Keeps k s t := by
  obtain ⟨t, ht, hok, -, -, hkeep⟩ := State.write1_plain hs hg (by decide) (by decide)
    ((s.clearSent.wordWrite_wsCtrl _ _).trans hw) hk hn hkw
  have e : t = s.clearSent.write1 src Reg.SETT_WS_CTRL v := Host.Outcome.next.inj (ht.symm.trans (State.act_supplied hs))
  have h1 := State.write1_ok s.clearSent src Reg.SETT_WS_CTRL v (not_user_of_reg (by decide)) (by decide) hg
  rw [State.wordWrite_wsCtrl, hw] at h1
  refine ⟨t, ht, hok, ?_, fun b hb => ?_, hkeep⟩
  · rw [e, h1]
    exact (State.opOk_keeps (k := 8388675) rfl (Keeps.refl _)).sett_same rfl
  · simp only [answerRegs, List.mem_cons, List.not_mem_nil, or_false, not_or] at hb
    obtain ⟨b1, b2, b3⟩ := hb
    rw [e, h1, State.opOk, State.answerOp_rd _ _ _ _ _ b2 b3, State.rd_count, if_neg b1]
    rfl

theorem answerRegs_host {b : Nat} (h : b ∉ hostRegs) : b ∉ answerRegs := by
  have sub : ∀ a ∈ answerRegs, a ∈ hostRegs := by decide
  exact fun g => h (sub b g)

/-! ## The commands -/

theorem settReadable_shows (s : State) (hs : s.supplied) (f : Sett) (hf : s.sett.fresh = some f) :
    ∃ t, exec .settReadable s = .next t
      ∧ t.sett = { s.sett with fresh := none, held := f :: s.sett.held.take 3 } ∧ t.bit Reg.SETT_IRQ 0 = true
      ∧ t.dsp = { s.dsp with pubFresh := false } ∧ (s.dsp.pubFresh = true → t.bit Reg.DSP_RES_IRQ 0 = true)
      ∧ (s.dsp.pubFresh = false → t.rd Reg.DSP_RES_IRQ = s.rd Reg.DSP_RES_IRQ)
      ∧ ((s.bit Reg.ETH_CTRL 0 = false ∨ s.imgRuns = false) → t.sent = [] ∧ t.eth = s.eth)
      ∧ (∀ a : Nat, a ∉ [Reg.SETT_IRQ, Reg.DSP_RES_IRQ] ++ pinRegs → blockOf a ≠ some .eth → t.rd a = s.rd a)
      ∧ s.keepsParts t [.sent, .sett, .zid, .dsp, .eth, .used] := by
  have ht : exec .settReadable s = .next s.clearSent.settReadable := State.act_supplied hs
  have hk : Keeps 8914186 s s.clearSent.settReadable := execSettReadable_keeps rfl ht
  refine ⟨_, ht, ?_⟩
  rw [State.settReadable_some (s := s.clearSent) hf] at hk ⊢
  generalize hu : ({ s.clearSent with sett := { s.clearSent.sett with fresh := none } } : State) = u at hk ⊢
  have htel : Keeps 8912898 (u.settShow f).pubShow ((u.settShow f).pubShow.telegrams f) := State.telegrams_keeps rfl (Keeps.refl _)
  have hirq : Keeps 256 _ (u.settShow f) := State.irqSett_keeps rfl (Keeps.refl _)
  have hdsp : (u.settShow f).dsp = s.dsp := (hirq.dsp_same rfl).trans (by subst hu; rfl)
  have hrd : ∀ b, b ∉ pinRegs → (u.settShow f).pubShow.rd b =
      if b = Reg.DSP_RES_IRQ ∧ s.dsp.pubFresh = true then putBit (s.rd b) 0 true
      else if b = Reg.SETT_IRQ then putBit (s.rd b) 0 true else s.rd b := fun b hb => by
    have h0 : u.rd b = s.rd b := by subst hu; rfl
    rw [State.pubShow_rd _ hb, hdsp, State.settShow_rd _ _ hb, h0]
    split_ifs with h1 h2 h3
    · exact absurd (h1.1.symm.trans h2) (by decide)
    · rfl
    · rfl
    · rfl
  refine ⟨?_, ?_, ?_, fun hp => ?_, fun hp => ?_, fun hoff => ?_, fun a ha he => ?_, hk.parts _ (fun p => by cases p <;> decide)⟩
  · rw [htel.sett_same rfl, State.pubShow_sett, State.settShow_sett, ← hu]
    rfl
  · rw [State.bit_eq, State.telegrams_rd _ f (by decide), hrd _ (by decide), if_neg (fun h => absurd h.1 (by decide)), if_pos rfl]
    exact bitOf_putBit_same _ _ _ (by decide)
  · rw [htel.dsp_same rfl, State.pubShow_dsp, hdsp]
  · rw [State.bit_eq, State.telegrams_rd _ f (by decide), hrd _ (by decide), if_pos ⟨rfl, hp⟩]
    exact bitOf_putBit_same _ _ _ (by decide)
  · rw [State.telegrams_rd _ f (by decide), hrd _ (by decide), if_neg (fun h => absurd (hp.symm.trans h.2) (by decide)), if_neg (by decide)]
  · have hsame : (u.settShow f).pubShow.bit Reg.ETH_CTRL 0 = false ∨ (u.settShow f).pubShow.imgRuns = false := by
      have h1 : (u.settShow f).pubShow.rd Reg.ETH_CTRL = s.rd Reg.ETH_CTRL := hrd _ (by decide)
      have h2 : (u.settShow f).pubShow.rd Reg.IMG_RUN = s.rd Reg.IMG_RUN := hrd _ (by decide)
      simpa only [State.imgRuns, State.bit_eq, h1, h2] using hoff
    rw [State.telegrams_off f hsame]
    obtain ⟨h1, h2⟩ := (u.settShow f).pubShow_sent
    rw [h1, h2]
    subst hu
    exact ⟨hirq.sent_same rfl, hirq.eth_same rfl⟩
  · simp only [List.mem_append, List.mem_cons, List.not_mem_nil, or_false, not_or] at ha
    obtain ⟨⟨h1, h2⟩, hp⟩ := ha
    rw [State.telegrams_rd _ f he, hrd a hp, if_neg (fun h => h2 h.1), if_neg h1]

theorem epochTallyRaise_raises (s : State) (hs : s.supplied) : ∃ t, exec .epochTallyRaise s = .next t
    ∧ (let due := decide (s.sett.epoch % 2 ^ 20 = 0xF0000)
       (due = false → t = s.clearSent) ∧ (due = true → s.tallyV 0 ≠ 0xFFFFFFFF#32 → t.tallyV 0 = s.tallyV 0 + 1#32)
       ∧ (due = true → s.tallyV 0 = 0xFFFFFFFF#32 → t.tallyV 0 = s.tallyV 0))
    ∧ (∀ k : Nat, k ≠ 0 → t.tally k = s.tally k) ∧ t.nv = { s.nv with tallies := t.nv.tallies } ∧ s.keepsParts t [.sent, .nv, .zid, .used] := by
  have ht : exec .epochTallyRaise s =
      .next (s.clearSent.onlyIf (s.sett.epoch % 2 ^ 20 == 0xF0000) (fun u => u.raiseTally 0)) := State.act_supplied hs
  have hk : Keeps 8388898 s _ := execEpochTallyRaise_keeps rfl ht
  by_cases hd : s.sett.epoch % 2 ^ 20 = 0xF0000
  · rw [beq_iff_eq.mpr hd] at ht hk
    have hv := s.clearSent.raiseTally_tallyV 0
    obtain ⟨hothers, hrest⟩ := s.clearSent.raiseTally_only 0
    refine ⟨_, ht, ⟨fun h => absurd hd (of_decide_eq_false h), fun _ hn => ?_, fun _ hm => ?_⟩, hothers, hrest,
      hk.parts _ (fun p => by cases p <;> decide)⟩
    · exact hv.trans (if_neg hn)
    · exact hv.trans (if_pos hm)
  · rw [beq_eq_false_iff_ne.mpr hd] at ht hk
    exact ⟨_, ht, ⟨fun _ => rfl, fun h => absurd (of_decide_eq_true h) hd, fun h => absurd (of_decide_eq_true h) hd⟩, fun _ _ => rfl, rfl,
      hk.parts _ (fun p => by cases p <;> decide)⟩

theorem wsOpen_forms (src : Src) (s : State) (hs : s.supplied) (hg : s.grants src Reg.SETT_WS_CTRL 1#32) :
    ∃ t, exec (.wsOpen src) s = .next t ∧ t.answer.status = .ok
      ∧ t.sett = { s.sett with ws := some ⟨false, src.slot.val, false, [], false, s.lap.count, 0⟩ }
      ∧ t.rd Reg.SETT_WS_SEQ = s.rd Reg.SETT_WS_SEQ + 1
      ∧ s.keepsRegs t (Reg.SETT_WS_SEQ :: hostRegs) ∧ s.keepsParts t hostParts := by
  obtain ⟨t, ht, hok, hsett, hrd, hk⟩ := wsCtrl_granted (k := 8388683) (w := s.clearSent.wsBegin src.slot.val false) hs hg rfl rfl rfl
    (State.wsBegin_keeps rfl (Keeps.refl _))
  have hw : ∀ b, (s.clearSent.wsBegin src.slot.val false).rd b = if b = Reg.SETT_WS_SEQ then s.rd Reg.SETT_WS_SEQ + 1 else s.rd b :=
    fun b => State.rd_wr s.clearSent _ b _
  refine ⟨t, ht, hok, hsett, ?_, fun a ha => ?_, hk.parts _ (fun p => by cases p <;> decide)⟩
  · rw [hrd _ (by decide), hw, if_pos rfl]
  · rw [List.mem_cons, not_or] at ha
    rw [hrd a (answerRegs_host ha.2), hw, if_neg ha.1]

theorem seal_seals (src : Src) (s : State) (hs : s.supplied) (hg : s.grants src Reg.SETT_WS_CTRL 2#32) :
    ∃ t, exec (.seal src) s = .next t ∧ t.answer.status = .ok
      ∧ ((∀ w, s.sett.ws = some w → w.sealed = false → t.sett = { s.sett with ws := some (s.sealedSet w) })
         ∧ (s.wsIsOpen = true → t.rd Reg.SETT_WS_TARGET_LO = BitVec.ofNat 32 s.sealTarget ∧ t.bit Reg.SETT_INJ 1 = false)
         ∧ (s.wsIsOpen = false → t.sett = s.sett ∧ t.rd Reg.SETT_WS_TARGET_LO = s.rd Reg.SETT_WS_TARGET_LO))
      ∧ s.keepsRegs t hostRegs ∧ s.keepsParts t hostParts := by
  obtain ⟨t, ht, hok, hsett, hrd, hk⟩ := wsCtrl_granted (k := 8388683) (w := s.clearSent.wsSeal) hs hg rfl rfl rfl
    (State.wsSeal_keeps rfl (Keeps.refl _))
  have hparts := hk.parts hostParts (fun p => by cases p <;> decide)
  refine ⟨t, ht, hok, ?_⟩
  cases hopen : s.wsIsOpen with
  | false =>
    rw [State.wsSeal_idle (s := s.clearSent) hopen] at hsett hrd
    refine ⟨⟨fun w hw hn => ?_, (nomatch ·), fun _ => ⟨hsett, hrd _ (by decide)⟩⟩, fun a ha => hrd a (answerRegs_host ha), hparts⟩
    simp [State.wsIsOpen, hw, hn] at hopen
  | true =>
    obtain ⟨w, hw, hn⟩ : ∃ w, s.sett.ws = some w ∧ w.sealed = false := by
      unfold State.wsIsOpen at hopen
      cases hw : s.sett.ws with
      | none => simp [hw] at hopen
      | some w => exact ⟨w, rfl, by simpa [hw] using hopen⟩
    have hinj : (s.clearSent.wsSeal).bit Reg.SETT_INJ 1 = false := by
      rw [State.wsSeal_open (s := s.clearSent) hw hn]
      exact State.injRan_bit _ (by decide) (by decide)
    have hsealed : s.clearSent.wsSeal.sett = { s.sett with ws := some (s.sealedSet w) } := by
      rw [State.wsSeal_open (s := s.clearSent) hw hn, (State.injRan_keeps (k := 0) rfl (Keeps.refl _)).sett_same rfl]
      rfl
    have hreg : ∀ b, b ≠ Reg.SETT_INJ → b ≠ Reg.ZID_CNT_INJ →
        s.clearSent.wsSeal.rd b = if b = Reg.SETT_WS_TARGET_LO then BitVec.ofNat 32 s.sealTarget else s.rd b := fun b h1 h2 => by
      rw [State.wsSeal_open (s := s.clearSent) hw hn, State.injRan_rd _ _ _ _ h1 h2, State.rd_wr]
      rfl
    refine ⟨⟨fun w' hw' _ => ?_, fun _ => ⟨?_, ?_⟩, (nomatch ·)⟩, fun a ha => ?_, hparts⟩
    · rw [hsett, hsealed, Option.some.inj (hw'.symm.trans hw)]
    · rw [hrd _ (by decide), hreg _ (by decide) (by decide), if_pos rfl]
    · rw [State.bit_eq, hrd _ (by decide)]
      exact hinj
    · have hn := answerRegs_host ha
      simp only [hostRegs, List.mem_cons, List.not_mem_nil, or_false, not_or] at ha
      obtain ⟨-, -, -, h1, h2, h3⟩ := ha
      rw [hrd a hn, hreg a h2 h3, if_neg h1]

theorem wsAbort_discards (src : Src) (s : State) (hs : s.supplied) (hg : s.grants src Reg.SETT_WS_CTRL 4#32) :
    ∃ t, exec (.wsAbort src) s = .next t ∧ t.answer.status = .ok
      ∧ t.sett = { s.sett with ws := none }
      ∧ (s.sett.ws.isSome = true → t.rd Reg.SETT_WS_LAST = 4#32 ∧ t.rd Reg.SETT_WS_LAST_SEQ = s.rd Reg.SETT_WS_SEQ
         ∧ t.nat Reg.SETT_CNT_WS_DISCARD = min 0xFFFFFFFF (s.nat Reg.SETT_CNT_WS_DISCARD + 1) ∧ t.bit Reg.SETT_STAT 2 = true ∧ t.bit Reg.SETT_IRQ 1 = true)
      ∧ (s.sett.ws = none → s.keepsRegs t hostRegs)
      ∧ s.keepsRegs t (discardRegs ++ hostRegs ++ pinRegs)
      ∧ s.keepsParts t (.zid :: hostParts) := by
  obtain ⟨t, ht, hok, hsett, hrd, hk⟩ := wsCtrl_granted (k := 8388939) (w := s.clearSent.wsResult wsAborted) hs hg rfl rfl rfl
    (State.wsResult_keeps rfl (Keeps.refl _))
  have hparts := hk.parts (.zid :: hostParts) (fun p => by cases p <;> decide)
  refine ⟨t, ht, hok, hsett.trans (State.wsResult_sett _ _), ?_⟩
  cases hw : s.sett.ws with
  | none =>
    rw [State.wsResult_none (s := s.clearSent) hw] at hrd
    have hkept : s.keepsRegs t hostRegs := fun a ha => hrd a (answerRegs_host ha)
    exact ⟨(nomatch ·), fun _ => hkept,
      fun a ha => hkept a (fun g => ha (List.mem_append_left _ (List.mem_append_right _ g))), hparts⟩
  | some w =>
    have hd : ∀ b, b ∉ answerRegs → b ∉ pinRegs → t.rd b = discardedRd s 4 b := fun b h1 h2 =>
      (hrd b h1).trans (State.wsResult_rd (s := s.clearSent) hw (by decide) h2)
    have hapart : ∀ b ∈ discardRegs, b ∉ answerRegs ∧ b ∉ pinRegs := by decide
    refine ⟨fun _ => discarded_shows (fun b hb => hd b (hapart b hb).1 (hapart b hb).2), (nomatch ·), fun a ha => ?_, hparts⟩
    simp only [List.mem_append, not_or] at ha
    obtain ⟨⟨h1, h2⟩, h3⟩ := ha
    rw [hd a (answerRegs_host h2) h3, discardedRd_other h1]

/-! ## WS_TIMEOUT (R91) -/

theorem exec_wsTimeout {s : State} (hs : s.supplied) :
    exec .wsTimeout s = .next (s.clearSent.onlyIf (s.lap.tick == 4095) State.wsExpire) :=
  show execWsTimeout s = _ from State.act_supplied hs

/-- The present set is OPEN, and the laps that SETT_WS_TIMEOUT gives it are over. -/
def State.wsLate (s : State) (w : WriteSet) : Bool := !w.sealed && decide (w.openLap + s.fld Reg.SETT_WS_TIMEOUT 0 16 ≤ s.lap.count)

theorem State.wsExpire_some {s : State} {w : WriteSet} (h : s.sett.ws = some w) :
    s.wsExpire = if s.wsLate w = true then s.wsResult wsTimedOut else s := by
  unfold State.wsExpire
  rw [h]
  rfl

theorem State.wsExpire_none {s : State} (h : s.sett.ws = none) : s.wsExpire = s := by
  unfold State.wsExpire
  rw [h]

theorem wsTimeout_idle (s : State) (hs : s.supplied) (h : s.sett.ws = none ∨ s.lap.tick ≠ 4095) :
    exec .wsTimeout s = .next s.clearSent := by
  rw [exec_wsTimeout hs]
  cases ht : s.lap.tick == 4095 with
  | false => rfl
  | true => rw [State.onlyIf_true, State.wsExpire_none (s := s.clearSent) (h.resolve_right (fun g => g (beq_iff_eq.mp ht)))]

theorem wsTimeout_expires (s : State) (hs : s.supplied) (htick : s.lap.tick = 4095) (w : WriteSet) (hw : s.sett.ws = some w) :
    ∃ t, exec .wsTimeout s = .next t
      ∧ (let late := !w.sealed && decide (w.openLap + s.fld Reg.SETT_WS_TIMEOUT 0 16 ≤ s.lap.count)
         (late = false → t = s.clearSent)
         ∧ (late = true → t.sett = { s.sett with ws := none } ∧ t.rd Reg.SETT_WS_LAST = 3#32 ∧ t.rd Reg.SETT_WS_LAST_SEQ = s.rd Reg.SETT_WS_SEQ
            ∧ t.nat Reg.SETT_CNT_WS_DISCARD = min 0xFFFFFFFF (s.nat Reg.SETT_CNT_WS_DISCARD + 1) ∧ t.bit Reg.SETT_STAT 2 = true ∧ t.bit Reg.SETT_IRQ 1 = true
            ∧ s.keepsRegs t (discardRegs ++ pinRegs)))
      ∧ s.keepsParts t [.sent, .sett, .zid] := by
  have ht : exec .wsTimeout s = .next (if s.wsLate w = true then s.clearSent.wsResult wsTimedOut else s.clearSent) := by
    rw [exec_wsTimeout hs, beq_iff_eq.mpr htick, State.onlyIf_true, State.wsExpire_some (s := s.clearSent) hw]
    rfl
  have hk : Keeps 266 s _ := execWsTimeout_keeps rfl ht
  refine ⟨_, ht, ?_, hk.parts _ (fun p => by cases p <;> decide)⟩
  refine ⟨fun h => if_neg (by rw [show s.wsLate w = false from h]; decide), fun h => ?_⟩
  rw [if_pos (show s.wsLate w = true from h)]
  have hd : ∀ b, b ∉ pinRegs → (s.clearSent.wsResult wsTimedOut).rd b = discardedRd s 3 b := fun b hb =>
    State.wsResult_rd (s := s.clearSent) hw (by decide) hb
  have hapart : ∀ b ∈ discardRegs, b ∉ pinRegs := by decide
  obtain ⟨hlast, hseq, hcnt, hstat, hirq⟩ := discarded_shows (s := s) (code := 3) (fun b hb => hd b (hapart b hb))
  refine ⟨State.wsResult_sett _ _, hlast, hseq, hcnt, hstat, hirq, fun a ha => ?_⟩
  rw [List.mem_append, not_or] at ha
  rw [hd a ha.2, discardedRd_other ha.1]

/-- Settles O11: each clause is what its command leaves. -/
theorem settsAndWriteSets : Obligations.SettsAndWriteSets := by
  refine ⟨fun s hs h => ⟨_, State.act_supplied hs, State.settReadable_none (s := s.clearSent) h⟩, settReadable_shows,
    fun s hs _ => epochTallyRaise_raises s hs, wsOpen_forms, fun src s hs hg => ?_, wsAbort_discards,
    fun s hs h => ⟨_, wsTimeout_idle s hs h, rfl⟩, wsTimeout_expires⟩
  have h := seal_seals src s hs hg
  unfold State.sealedSet at h
  rw [State.sealTarget_eq] at h
  exact h

end Sys2Proof.Machine

/-!
A standby's units, dispatch state, link and synchronisation (R96, R399, R400, R401): what each of these events leaves (O37).
-/

namespace Sys2Proof.Machine

/-! ## NV records written to the module's own store (R400) -/

/-- What each step of a fold keeps, the fold keeps. -/
theorem State.forEach_kept {α β : Type} (g : State → β) (l : List α) (f : State → α → State) (hf : ∀ s x, g (f s x) = g s) (s : State) :
    g (s.forEach l f) = g s := by
  unfold State.forEach
  induction l generalizing s with
  | nil => rfl
  | cons x t ih => exact (ih (f s x)).trans (hf s x)

theorem State.nvRecord_nv (s : State) (span : Nat × Nat) : (s.nvRecord span).nv = s.nv := by
  unfold State.nvRecord
  split_ifs <;> rfl

theorem State.sramPut_tallies (s : State) (o : Nat) (b : List Byte) : (s.sramPut o b).nv.tallies = s.nv.tallies := by
  unfold State.sramPut
  split_ifs
  · rfl
  · rw [State.nvRecord_nv]

theorem State.putUserByte_tallies (s : State) (x : Nat) (b : Byte) : (s.putUserByte x b).nv.tallies = s.nv.tallies := by
  unfold State.putUserByte State.putUserUnit
  lift_lets
  extract_lets
  split_ifs <;> rfl

/-- Tally 0 rises to the value that the mirror carries, and never falls. -/
theorem State.tallyRaiseTo_tallyV (s : State) {n : Nat} (hn : n < 2 ^ 32) :
    ((s.tallyRaiseTo n).tallyV 0).toNat = max (s.tallyV 0).toNat n := by
  unfold State.tallyRaiseTo
  split_ifs with h
  · rw [(s.writeTallyCell_good 0 (BitVec.ofNat 32 n) goodRb).1, BitVec.toNat_ofNat, Nat.mod_eq_of_lt hn]
    omega
  · omega

theorem State.mtrFromWarm_tallyV (s : State) (k : Nat) : s.mtrFromWarm.tallyV k = s.tallyV k :=
  congrArg Tally.v (State.tally_congr (congrArg NvState.tallies ((State.mtrFromWarm_keeps (k := 262144) rfl (Keeps.refl s)).nv_same rfl)) k)

theorem State.nvTake_tallyV (s : State) (warm user : List (Nat × Byte)) {n : Nat} (hn : n < 2 ^ 32) :
    ((s.nvTake warm user n).tallyV 0).toNat = max (s.tallyV 0).toNat n := by
  unfold State.nvTake
  rw [State.mtrFromWarm_tallyV, State.tallyRaiseTo_tallyV _ hn]
  have hbytes : ∀ l : List (Nat × Byte), ∀ u : State, (u.forEach l (fun t e => t.sramPut e.1 [e.2])).nv.tallies = u.nv.tallies :=
    fun l => State.forEach_kept (fun t => t.nv.tallies) l (fun t e => t.sramPut e.1 [e.2]) (fun t e => t.sramPut_tallies e.1 [e.2])
  have huser : ∀ l : List (Nat × Byte), ∀ u : State, (u.forEach l (fun t e => t.putUserByte e.1 e.2)).nv.tallies = u.nv.tallies :=
    fun l => State.forEach_kept (fun t => t.nv.tallies) l (fun t e => t.putUserByte e.1 e.2) (fun t e => t.putUserByte_tallies e.1 e.2)
  congr 2
  exact congrArg Tally.v (State.tally_congr ((huser _ _).trans (hbytes _ _)) 0)

/-! ## A mirrored sett becomes readable (R95, R400) -/

theorem State.keyCommit_rd (s : State) {b : Nat} (h : b ∉ [Reg.KEY_UPD_STAT, Reg.KEY_CNT_UPD, Reg.KEY_IRQ] ++ pinRegs) :
    s.keyCommit.rd b = s.rd b := by
  simp only [List.mem_append, List.mem_cons, List.not_mem_nil, or_false, not_or] at h
  obtain ⟨⟨h1, h2, h3⟩, hp⟩ := h
  unfold State.keyCommit State.irqKey State.keyStat
  split
  · split_ifs
    · rw [State.irqAt_rd _ _ _ _ _ _ hp, if_neg h3, State.rd_count, if_neg h2, State.rd_setBit, if_neg h1, State.rd_setFld, if_neg h1]
      rfl
    · rfl
  · rfl

theorem State.mirrorShow_sett (s : State) (f : Sett) :
    (s.mirrorShow f).sett.epoch = f.epoch ∧ (s.mirrorShow f).sett.held.head? = some f := by
  unfold State.mirrorShow
  lift_lets
  extract_lets n sett
  have htel : ∀ u : State, (u.telegrams f).sett = u.sett := fun u => (State.telegrams_keeps (k := 8912898) rfl (Keeps.refl u)).sett_same rfl
  have hkey : ∀ u : State, u.keyCommit.sett = u.sett := fun u => (State.keyCommit_keeps (k := 4352) rfl (Keeps.refl u)).sett_same rfl
  rw [htel, State.settShow_sett, hkey]
  exact ⟨rfl, rfl⟩

theorem State.mirrorShow_rd (s : State) (f : Sett) {b : Nat}
    (h : b ∉ [Reg.KEY_UPD_STAT, Reg.KEY_CNT_UPD, Reg.KEY_IRQ, Reg.SETT_IRQ] ++ pinRegs) (he : blockOf b ≠ some .eth) :
    (s.mirrorShow f).rd b = s.rd b := by
  simp only [List.mem_append, List.mem_cons, List.not_mem_nil, or_false, not_or] at h
  obtain ⟨⟨h1, h2, h3, h4⟩, hp⟩ := h
  unfold State.mirrorShow
  rw [State.telegrams_rd _ _ he, State.settShow_rd _ _ hp, if_neg h4, State.keyCommit_rd _ (by simp [h1, h2, h3, hp])]
  rfl

/-! ## A unit (R400) -/

/-- A whole unit with a good CMAC as the module takes it: its NV records are written, and it is acknowledged. -/
def State.unitTaken (s : State) (u : MirrorUnit) (late : Nat) : State :=
  let s1 := s.nvTake u.warm u.user u.epochTally.toNat
  let pair := { s1.pair with
    last := some u, lastLap := s.lap.count, lastBound := s.lap.count - late, joined := s.pair.joined + 1 }
  (({ s1 with pair := pair }).wr Reg.PAIR_MIRROR_LO (BitVec.ofNat 32 u.epoch.toNat)).send ⟨.mirrorAck, 3, 0, 0, leBytes 8 u.epoch.toNat⟩

theorem State.unitAck_standby {s : State} (h : s.isStandby = true) (u : MirrorUnit) (late : Nat) :
    s.unitAck u late = (s.unitTaken u late).mirrorShow (mirroredSett u.epoch.toNat u.sett) := by
  unfold State.unitAck
  rw [h]
  rfl

theorem State.unitTaken_tallyV (s : State) (u : MirrorUnit) (late : Nat) :
    ((s.unitTaken u late).tallyV 0).toNat = max (s.tallyV 0).toNat u.epochTally.toNat := by
  rw [← State.nvTake_tallyV s u.warm u.user u.epochTally.isLt]
  unfold State.unitTaken
  generalize s.nvTake u.warm u.user u.epochTally.toNat = n
  exact congrArg (fun x : Tally => x.v.toNat) (State.tally_congr rfl 0)

theorem State.unitTaken_mirror (s : State) (u : MirrorUnit) (late : Nat) :
    (s.unitTaken u late).rd Reg.PAIR_MIRROR_LO = BitVec.ofNat 32 u.epoch.toNat := by
  unfold State.unitTaken
  rw [State.rd_send, State.rd_wr, if_pos rfl]

theorem State.unitTaken_last (s : State) (u : MirrorUnit) (late : Nat) : (s.unitTaken u late).pair.last = some u := rfl

/-- At a STANDBY the taken unit is the last one, and its sett the newest readable one. -/
theorem State.unitAck_shows {s : State} (h : s.isStandby = true) (u : MirrorUnit) (late : Nat) :
    (s.unitAck u late).pair.last = some u ∧ (s.unitAck u late).sett.epoch = u.epoch.toNat
      ∧ (s.unitAck u late).rd Reg.PAIR_MIRROR_LO = BitVec.ofNat 32 u.epoch.toNat
      ∧ (s.unitAck u late).sett.held.head? = some (mirroredSett u.epoch.toNat u.sett)
      ∧ ((s.unitAck u late).tallyV 0).toNat = max (s.tallyV 0).toNat u.epochTally.toNat := by
  rw [State.unitAck_standby h]
  obtain ⟨hepoch, hheld⟩ := (s.unitTaken u late).mirrorShow_sett (mirroredSett u.epoch.toNat u.sett)
  have hk : Keeps 8917258 (s.unitTaken u late) ((s.unitTaken u late).mirrorShow (mirroredSett u.epoch.toNat u.sett)) :=
    State.mirrorShow_keeps rfl (fun _ => mirroredSett_wf _ _) (Keeps.refl _)
  refine ⟨?_, hepoch, ?_, hheld, ?_⟩
  · rw [hk.pair_same rfl, State.unitTaken_last]
  · rw [State.mirrorShow_rd _ _ (by decide) (by decide), State.unitTaken_mirror]
  · rw [State.tallyV, State.tally_congr (congrArg NvState.tallies (hk.nv_same rfl))]
    exact s.unitTaken_tallyV u late

/-! ## LINK (R401) -/

/-- A change of LINK changes no register but PAIR_STATE and the block's interrupts and flags. -/
theorem State.setLink_rd (s : State) (b : Bool) {a : Nat} (h : a ∉ [Reg.PAIR_STATE, Reg.PAIR_IRQ, Reg.PAIR_STAT] ++ pinRegs) :
    (s.setLink b).rd a = s.rd a := by
  simp only [List.mem_append, List.mem_cons, List.not_mem_nil, or_false, not_or] at h
  obtain ⟨⟨h1, h2, h3⟩, hp⟩ := h
  unfold State.setLink State.irqPair
  by_cases h : s.bit Reg.PAIR_STATE 5 = b
  · rw [if_pos h]
  · rw [if_neg h]
    lift_lets
    extract_lets r lanes
    have hr : r.2.rd a = s.rd a := rfl
    simp only [State.rd_onlyIf, State.rd_setBit, State.rd_setFld, State.irqAt_rd _ _ _ _ _ _ hp, h1, h2, h3, if_false, ite_self, hr]

theorem State.setLink_same {s : State} {b : Bool} (h : s.bit Reg.PAIR_STATE 5 = b) : s.setLink b = s := if_pos h

theorem State.setLink_state {s : State} {b : Bool} (h : s.bit Reg.PAIR_STATE 5 ≠ b) :
    ∃ lanes, (s.setLink b).rd Reg.PAIR_STATE = putBit (putBits (s.rd Reg.PAIR_STATE) 12 2 lanes) 5 b := by
  unfold State.setLink State.irqPair
  rw [if_neg h]
  lift_lets
  extract_lets r lanes
  refine ⟨lanes, ?_⟩
  have hp : Reg.PAIR_STATE ∉ pinRegs := by decide
  have hr : r.2.rd Reg.PAIR_STATE = s.rd Reg.PAIR_STATE := rfl
  have hne : Reg.PAIR_STATE ≠ Reg.PAIR_STAT ∧ Reg.PAIR_STATE ≠ Reg.PAIR_IRQ := by decide
  simp only [State.rd_onlyIf, State.rd_setBit, State.rd_setFld, State.irqAt_rd _ _ _ _ _ _ hp, hne.1, hne.2, if_false, if_true, ite_self, hr]

theorem State.setLink_link (s : State) (b : Bool) : (s.setLink b).bit Reg.PAIR_STATE 5 = b := by
  by_cases h : s.bit Reg.PAIR_STATE 5 = b
  · rw [State.setLink_same h, h]
  · obtain ⟨lanes, hs⟩ := State.setLink_state h
    rw [State.bit_eq, hs]
    exact bitOf_putBit_same _ _ _ (by decide)

theorem State.setLink_pairState (s : State) (b : Bool) : (s.setLink b).pairState = s.pairState := by
  by_cases h : s.bit Reg.PAIR_STATE 5 = b
  · rw [State.setLink_same h]
  · obtain ⟨lanes, hs⟩ := State.setLink_state h
    rw [State.pairState, State.fld_eq, hs, putBit, bitsOf_putBits_apart _ _ _ _ _ _ (by decide) (by decide),
      bitsOf_putBits_apart _ _ _ _ _ _ (by decide) (by decide)]
    rfl

/-- The fall of LINK is flagged and raised. -/
theorem State.setLink_falls {s : State} (h : s.bit Reg.PAIR_STATE 5 = true) :
    (s.setLink false).bit Reg.PAIR_STAT 3 = true ∧ (s.setLink false).bit Reg.PAIR_IRQ 2 = true := by
  unfold State.setLink State.irqPair
  rw [if_neg (by rw [h]; decide)]
  lift_lets
  extract_lets r lanes
  have hp : Reg.PAIR_IRQ ∉ pinRegs := by decide
  have hne : Reg.PAIR_IRQ ≠ Reg.PAIR_STAT := by decide
  refine ⟨?_, ?_⟩
  · simp only [Bool.not_false, State.onlyIf_true, State.bit_eq, State.rd_setBit, if_true]
    exact bitOf_putBit_same _ _ _ (by decide)
  · simp only [Bool.not_false, State.onlyIf_true, State.bit_eq, State.rd_setBit _ Reg.PAIR_STAT, hne, if_false,
      State.irqAt_rd _ _ _ _ _ _ hp, if_true]
    exact bitOf_putBit_same _ _ _ (by decide)

/-! ## MIRROR_UNIT at a STANDBY -/

/-- A whole unit shows that the link is up, and its CMAC is compared under PAIR_INJ.UNITMAC. -/
def State.unitHeard (s : State) (whole : Bool) : State := s.onlyIf whole (fun t => (t.injRan Reg.PAIR_INJ 0).setLink true)

/-- A unit that is not whole or whose CMAC is bad is flagged and counted, and the run of units restarts. -/
def State.unitDropped (s : State) : State :=
  let t := (s.setBit Reg.PAIR_STAT 8 true).count Reg.PAIR_CNT_UNITDROP
  { t with pair := { t.pair with joined := 0 } }

theorem State.mirrorUnit_standby {s : State} (h : s.isStandby = true) (hp : s.pfailed = false) (hi : s.bit Reg.PAIR_INJ 0 = false)
    (u : MirrorUnit) (whole macOk : Bool) (late : Nat) :
    s.mirrorUnit u whole macOk late =
      if (whole && macOk) = true then (s.unitHeard whole).unitAck u late else (s.unitHeard whole).unitDropped := by
  have ht : s.injTest Reg.PAIR_INJ 0 macOk = macOk := by simp only [State.injTest, hi, Bool.bne_false]
  unfold State.mirrorUnit
  rw [hp, h, ht]
  rfl

theorem State.unitHeard_keeps (s : State) (whole : Bool) : Keeps 256 s (s.unitHeard whole) :=
  Keeps.only (fun _ h => State.setLink_keeps rfl (State.injRan_keeps (k := 256) rfl h)) (Keeps.refl s)

theorem State.unitHeard_rd (s : State) (whole : Bool) {a : Nat}
    (h : a ∉ [Reg.PAIR_STATE, Reg.PAIR_IRQ, Reg.PAIR_STAT, Reg.PAIR_INJ, Reg.ZID_CNT_INJ] ++ pinRegs) : (s.unitHeard whole).rd a = s.rd a := by
  simp only [List.mem_append, List.mem_cons, List.not_mem_nil, or_false, not_or] at h
  obtain ⟨⟨h1, h2, h3, h4, h5⟩, hp⟩ := h
  cases whole
  · rfl
  · exact (State.setLink_rd _ true (by simp [h1, h2, h3, hp])).trans (State.injRan_rd s _ _ _ h4 h5)

theorem State.unitHeard_standby (s : State) (whole : Bool) : (s.unitHeard whole).isStandby = s.isStandby := by
  cases whole
  · rfl
  · have h : (s.injRan Reg.PAIR_INJ 0).pairState = s.pairState := by
      rw [State.pairState, State.fld_eq, State.injRan_rd _ _ _ _ (by decide) (by decide)]
      rfl
    exact congrArg (· == 3) ((State.setLink_pairState _ true).trans h)

theorem mirrorUnit_shows (u : MirrorUnit) (late : BitVec 8) (s : State) (hs : s.supplied) (hst : s.isStandby = true)
    (hp : s.pfailed = false) (hi : s.bit Reg.PAIR_INJ 0 = false) :
    ∃ t, exec (.mirrorUnit u true true late) s = .next t ∧ t.pair.last = some u ∧ t.sett.epoch = u.epoch.toNat
      ∧ t.rd Reg.PAIR_MIRROR_LO = BitVec.ofNat 32 u.epoch.toNat ∧ t.sett.held.head? = some (mirroredSett u.epoch.toNat u.sett)
      ∧ (t.tallyV 0).toNat = max (s.tallyV 0).toNat u.epochTally.toNat := by
  have ht : exec (.mirrorUnit u true true late) s = .next (s.clearSent.mirrorUnit u true true late.toNat) :=
    show execMirrorUnit u true true late s = _ from State.act_supplied hs
  rw [State.mirrorUnit_standby (s := s.clearSent) hst hp hi, Bool.and_self, if_pos rfl] at ht
  have hsame : (s.clearSent.unitHeard true).tallyV 0 = s.tallyV 0 :=
    congrArg Tally.v (State.tally_congr (congrArg NvState.tallies ((s.clearSent.unitHeard_keeps true).nv_same rfl)) 0)
  have hshows := State.unitAck_shows ((s.clearSent.unitHeard_standby true).trans hst) u late.toNat
  rw [hsame] at hshows
  exact ⟨_, ht, hshows⟩

theorem mirrorUnit_drops (u : MirrorUnit) (whole macOk : Bool) (late : BitVec 8) (s : State) (hs : s.supplied) (hst : s.isStandby = true)
    (hp : s.pfailed = false) (hi : s.bit Reg.PAIR_INJ 0 = false) (hbad : (whole && macOk) = false) :
    ∃ t, exec (.mirrorUnit u whole macOk late) s = .next t ∧ t.sent = [] ∧ t.bit Reg.PAIR_STAT 8 = true
      ∧ (t.rd Reg.PAIR_CNT_UNITDROP).toNat = min 0xFFFFFFFF ((s.rd Reg.PAIR_CNT_UNITDROP).toNat + 1)
      ∧ t.pair = { s.pair with joined := 0 } ∧ s.keepsParts t [.sent, .zid, .pair] := by
  have ht : exec (.mirrorUnit u whole macOk late) s = .next (s.clearSent.mirrorUnit u whole macOk late.toNat) :=
    show execMirrorUnit u whole macOk late s = _ from State.act_supplied hs
  rw [State.mirrorUnit_standby (s := s.clearSent) hst hp hi, hbad, if_neg (by decide)] at ht
  have hheard := s.clearSent.unitHeard_keeps whole
  have hcnt : (s.clearSent.unitHeard whole).rd Reg.PAIR_CNT_UNITDROP = s.rd Reg.PAIR_CNT_UNITDROP :=
    s.clearSent.unitHeard_rd whole (by decide)
  generalize s.clearSent.unitHeard whole = v at ht hheard hcnt
  have hrd : ∀ a, v.unitDropped.rd a = if a = Reg.PAIR_CNT_UNITDROP then satWordN ((v.rd a).toNat + 1)
      else if a = Reg.PAIR_STAT then putBit (v.rd a) 8 true else v.rd a := fun a => by
    change ((v.setBit Reg.PAIR_STAT 8 true).count Reg.PAIR_CNT_UNITDROP).rd a = _
    rw [State.rd_count, State.rd_setBit, State.rd_setBit]
    split_ifs <;> simp_all
  have hparts : Keeps 8450 s v.unitDropped := Keeps.set_pair rfl
    (State.count_keeps rfl (State.setBit_keeps rfl ((State.clearSent_keeps rfl (Keeps.refl s)).trans (hheard.weaken rfl))))
  refine ⟨_, ht, hheard.sent_same rfl, ?_, ?_, ?_, hparts.parts _ (fun p => by cases p <;> decide)⟩
  · rw [State.bit_eq, hrd, if_neg (by decide), if_pos rfl]
    exact bitOf_putBit_same _ _ _ (by decide)
  · rw [hrd, if_pos rfl, hcnt, satWordN_toNat]
  · exact congrArg (fun p : PairState => { p with joined := 0 }) (hheard.pair_same rfl)

/-! ## DISPATCH_STATE (R399) -/

theorem State.resultTaken_rd (s : State) {a : Nat} (h1 : a ≠ Reg.DSP_RES_LAST) (h2 : a ≠ Reg.DSP_RES_CYCLE) :
    s.resultTaken.rd a = s.rd a := by
  unfold State.resultTaken
  lift_lets
  extract_lets
  rw [State.rd_wr, if_neg h2, State.rd_setFld, if_neg h1, State.rd_setFld, if_neg h1]
  rfl

/-- The result taken moves the instants of the result in force, and not what the state carries. -/
theorem State.resultTaken_dsp (s : State) :
    s.resultTaken.dsp = { s.dsp with
      resLap := s.resultTaken.dsp.resLap, gridSince := s.resultTaken.dsp.gridSince, since := s.resultTaken.dsp.since } := rfl

/-- The dispatch state of a whole DISPATCH_STATE in the place of the module's own. -/
def State.dispatchPut (s : State) (accepted : Option Traj) (toStart : Option Nat) (header setpoints : List Byte)
    (streams : List (List Word)) : State :=
  { s with dsp := { s.dsp with
      accepted := accepted, nextStart := toStart.map (· + s.lap.count), header := header, setpoints := setpoints, streams := streams } }

theorem dispatchState_takes (whole : Bool) (accepted : Option Traj) (toStart : Option Nat) (header setpoints : List Byte)
    (streams : List (List Word)) (s : State) (hs : s.supplied) (hst : s.isStandby = true ∨ s.pairState = 2) :
    ∃ t, exec (.dispatchState whole accepted toStart header setpoints streams) s = .next t
      ∧ (whole = false → t.dsp = s.dsp ∧ t.regs = s.regs)
      ∧ (whole = true → t.dsp.accepted = accepted ∧ t.dsp.nextStart = toStart.map (· + s.lap.count) ∧ t.dsp.header = header
          ∧ t.dsp.setpoints = setpoints ∧ t.dsp.streams = streams ∧ t.bit Reg.PAIR_STATE 5 = true)
      ∧ s.keepsRegs t (Reg.PAIR_STATE :: Reg.PAIR_IRQ :: Reg.PAIR_STAT :: Reg.DSP_RES_LAST :: Reg.DSP_RES_CYCLE :: pinRegs)
      ∧ s.keepsParts t [.sent, .lap, .zid, .dsp] := by
  have ht : exec (.dispatchState whole accepted toStart header setpoints streams) s =
    .next (s.clearSent.dispatchState whole accepted toStart header setpoints streams) :=
    show execDispatchState whole accepted toStart header setpoints streams s = _ from State.act_supplied hs
  have hk : Keeps 1286 s _ := execDispatchState_keeps rfl ht
  have hparts := hk.parts [.sent, .lap, .zid, .dsp] (fun p => by cases p <;> decide)
  refine ⟨_, ht, ?_⟩
  cases whole with
  | false => exact ⟨fun _ => ⟨rfl, rfl⟩, (nomatch ·), fun _ _ => rfl, hparts⟩
  | true =>
    have hmay : (s.clearSent.isStandby || s.clearSent.pairState == 2) = true := by
      rw [Bool.or_eq_true, beq_iff_eq]
      exact hst
    have he : s.clearSent.dispatchState true accepted toStart header setpoints streams =
        (s.clearSent.dispatchPut accepted toStart header setpoints streams).resultTaken.setLink true := by
      unfold State.dispatchState
      rw [hmay]
      rfl
    rw [he] at hparts ⊢
    have hdsp := (State.setLink_keeps (k := 256) (b := true) rfl
      (Keeps.refl (s.clearSent.dispatchPut accepted toStart header setpoints streams).resultTaken)).dsp_same rfl
    rw [hdsp, State.resultTaken_dsp]
    refine ⟨(nomatch ·), fun _ => ⟨rfl, rfl, rfl, rfl, rfl, State.setLink_link _ true⟩, fun a ha => ?_, hparts⟩
    simp only [List.mem_cons, not_or] at ha
    obtain ⟨h1, h2, h3, h4, h5, hp⟩ := ha
    rw [State.setLink_rd _ true (by simp [h1, h2, h3, hp]), State.resultTaken_rd _ h4 h5]
    rfl

/-! ## LINK_TIMEOUT (R401) -/

theorem linkTimeout_drops (expired : Bool) (s : State) (hs : s.supplied) : ∃ t, exec (.linkTimeout expired) s = .next t
    ∧ (let down := expired != s.bit Reg.PAIR_INJ 2
       t.bit Reg.PAIR_STATE 5 = (s.bit Reg.PAIR_STATE 5 && !down)
       ∧ (down = true → s.bit Reg.PAIR_STATE 5 = true → t.bit Reg.PAIR_STAT 3 = true ∧ t.bit Reg.PAIR_IRQ 2 = true))
    ∧ t.bit Reg.PAIR_INJ 2 = false
    ∧ s.keepsRegs t ([Reg.PAIR_STATE, Reg.PAIR_IRQ, Reg.PAIR_STAT, Reg.PAIR_INJ, Reg.ZID_CNT_INJ] ++ pinRegs)
    ∧ s.keepsParts t [.sent, .zid] := by
  have ht : exec (.linkTimeout expired) s = .next (s.clearSent.linkTest expired) :=
    show execLinkTimeout expired s = _ from State.act_supplied hs
  have hk : Keeps 258 s _ := execLinkTimeout_keeps rfl ht
  have hparts := hk.parts [.sent, .zid] (fun p => by cases p <;> decide)
  refine ⟨_, ht, ?_⟩
  have he : s.clearSent.linkTest expired =
    (s.clearSent.injRan Reg.PAIR_INJ 2).onlyIf (expired != s.bit Reg.PAIR_INJ 2) (fun t => t.setLink false) := rfl
  rw [he] at hparts ⊢
  have hrd : ∀ a, a ≠ Reg.PAIR_INJ → a ≠ Reg.ZID_CNT_INJ → (s.clearSent.injRan Reg.PAIR_INJ 2).rd a = s.rd a :=
    fun a => s.clearSent.injRan_rd _ _ a
  have hinj : (s.clearSent.injRan Reg.PAIR_INJ 2).bit Reg.PAIR_INJ 2 = false := State.injRan_bit _ (by decide) (by decide)
  have hlink : (s.clearSent.injRan Reg.PAIR_INJ 2).bit Reg.PAIR_STATE 5 = s.bit Reg.PAIR_STATE 5 :=
    congrArg (bitOf · 5) (hrd _ (by decide) (by decide))
  generalize (expired != s.bit Reg.PAIR_INJ 2) = down at hparts ⊢
  cases down with
  | false =>
    refine ⟨⟨?_, (nomatch ·)⟩, hinj, fun a ha => ?_, hparts⟩
    · rw [Bool.not_false, Bool.and_true]
      exact hlink
    · simp only [List.mem_append, List.mem_cons, not_or] at ha
      exact hrd a ha.1.2.2.2.1 ha.1.2.2.2.2.1
  | true =>
    refine ⟨⟨?_, fun _ h => State.setLink_falls (hlink.trans h)⟩, ?_, fun a ha => ?_, hparts⟩
    · rw [Bool.not_true, Bool.and_false]
      exact State.setLink_link _ false
    · rw [State.onlyIf_true, State.bit_eq, State.setLink_rd _ false (by decide)]
      exact hinj
    · simp only [List.mem_append, List.mem_cons, List.not_mem_nil, or_false, not_or] at ha
      obtain ⟨⟨h1, h2, h3, h4, h5⟩, hp⟩ := ha
      rw [State.onlyIf_true, State.setLink_rd _ false (by simp [h1, h2, h3, hp]), hrd a h4 h5]

/-! ## SYNC_LOSS (R401) -/

/-- From `s` to `t` what records a loss of SYNC stays. -/
structure State.LossStays (s t : State) : Prop where
  sync : t.pairSync = s.pairSync
  flag : t.bit Reg.PAIR_STAT 2 = s.bit Reg.PAIR_STAT 2
  irq : t.bit Reg.PAIR_IRQ 1 = s.bit Reg.PAIR_IRQ 1
  count : t.rd Reg.PAIR_CNT_SYNCLOSS = s.rd Reg.PAIR_CNT_SYNCLOSS

theorem State.LossStays.trans {s t u : State} (a : State.LossStays s t) (b : State.LossStays t u) : State.LossStays s u :=
  ⟨b.sync.trans a.sync, b.flag.trans a.flag, b.irq.trans a.irq, b.count.trans a.count⟩

/-- A change of STATE: the new value, and PAIR_IRQ.STATE. -/
theorem State.pairTo_rd {s : State} {k : Nat} (h : s.pairState ≠ k) {a : Nat} (hp : a ∉ pinRegs) :
    (s.pairTo k).rd a = if a = Reg.PAIR_IRQ then putBit (s.rd a) 0 true
      else if a = Reg.PAIR_STATE then putBits (s.rd a) 0 3 k else s.rd a := by
  unfold State.pairTo State.irqPair
  rw [if_neg h, State.irqAt_rd _ _ _ _ _ _ hp]
  by_cases h1 : a = Reg.PAIR_IRQ
  · rw [h1, if_pos rfl, if_pos rfl, State.rd_setFld, if_neg (by decide)]
  · rw [if_neg h1, if_neg h1, State.rd_setFld]
    by_cases h2 : a = Reg.PAIR_STATE
    · subst h2; rfl
    · rw [if_neg h2, if_neg h2]

theorem State.pairTo_pairState (s : State) {k : Nat} (hk : k < 8) : (s.pairTo k).pairState = k := by
  by_cases h : s.pairState = k
  · rw [State.pairTo, if_pos h, h]
  · rw [State.pairState, State.fld_eq, State.pairTo_rd h (by decide), if_neg (by decide), if_pos rfl, bitsOf_putBits_same _ _ _ _ (by decide)]
    exact Nat.mod_eq_of_lt hk

theorem State.pairTo_lossStays (s : State) (k : Nat) : State.LossStays s (s.pairTo k) := by
  by_cases h : s.pairState = k
  · rw [State.pairTo, if_pos h]
    exact ⟨rfl, rfl, rfl, rfl⟩
  · refine ⟨?_, ?_, ?_, ?_⟩
    · rw [State.pairSync, State.bit_eq, State.pairTo_rd h (by decide), if_neg (by decide), if_pos rfl, bitOf_putBits _ _ _ _ _ (by decide)]
      rfl
    · rw [State.bit_eq, State.pairTo_rd h (by decide)]
      rfl
    · rw [State.bit_eq, State.pairTo_rd h (by decide), if_pos rfl]
      exact bitOf_putBit_apart _ _ _ _ (by decide) (by decide)
    · rw [State.pairTo_rd h (by decide)]
      rfl

theorem State.LossStays.of_rd {s t : State}
    (h : ∀ a ∈ [Reg.PAIR_STATE, Reg.PAIR_STAT, Reg.PAIR_IRQ, Reg.PAIR_CNT_SYNCLOSS], t.rd a = s.rd a) : State.LossStays s t :=
  ⟨congrArg (bitOf · 4) (h _ (by decide)), congrArg (bitOf · 2) (h _ (by decide)), congrArg (bitOf · 1) (h _ (by decide)), h _ (by decide)⟩

/-- A field of PAIR_STATE apart from SYNC. -/
theorem State.setFld_lossStays (s : State) {lo n : Nat} (v : Nat) (h : 4 < lo ∨ lo + n ≤ 4) :
    State.LossStays s (s.setFld Reg.PAIR_STATE lo n v) := by
  have hrd : ∀ a, a ≠ Reg.PAIR_STATE → (s.setFld Reg.PAIR_STATE lo n v).rd a = s.rd a := fun a ha => by rw [State.rd_setFld, if_neg ha]
  refine ⟨?_, congrArg (bitOf · 2) (hrd _ (by decide)), congrArg (bitOf · 1) (hrd _ (by decide)), hrd _ (by decide)⟩
  rw [State.pairSync, State.bit_eq, State.rd_setFld, if_pos rfl, bitOf_putBits _ _ _ _ _ (by decide), if_neg (by omega)]
  rfl

theorem State.joinFails_lossStays (s : State) (cause : Nat) : State.LossStays s (s.joinFails cause) := by
  unfold State.joinFails
  lift_lets
  extract_lets s1
  refine State.LossStays.trans ?_ (State.pairTo_lossStays _ 1)
  have h1 := (s.setFld_lossStays (lo := 24) (n := 3) cause (by decide)).trans (State.setFld_lossStays _ (lo := 16) (n := 2) 0 (by decide))
  refine h1.trans ⟨?_, ?_, ?_, ?_⟩
  · rw [State.pairSync, State.bit_eq, State.rd_count, if_neg (by decide), State.rd_setBit, if_neg (by decide)]
    rfl
  · rw [State.bit_eq, State.rd_count, if_neg (by decide), State.rd_setBit, if_pos rfl]
    exact bitOf_putBit_apart _ _ _ _ (by decide) (by decide)
  · rw [State.bit_eq, State.rd_count, if_neg (by decide), State.rd_setBit, if_neg (by decide)]
    rfl
  · rw [State.rd_count, if_neg (by decide), State.rd_setBit, if_neg (by decide)]

/-- The bulk copy of a join begins: JOINING in phase 2. -/
def State.bulkBegun (s : State) : State := ((s.setFld Reg.PAIR_STATE 16 2 2).wr Reg.PAIR_BULK 0#32).pairTo 2

theorem State.bulkBegun_lossStays (s : State) : State.LossStays s s.bulkBegun := by
  have hbulk : State.LossStays (s.setFld Reg.PAIR_STATE 16 2 2) ((s.setFld Reg.PAIR_STATE 16 2 2).wr Reg.PAIR_BULK 0#32) := by
    refine State.LossStays.of_rd (fun a ha => ?_)
    have hne : ∀ r ∈ [Reg.PAIR_STATE, Reg.PAIR_STAT, Reg.PAIR_IRQ, Reg.PAIR_CNT_SYNCLOSS], r ≠ Reg.PAIR_BULK := by decide
    rw [State.rd_wr, if_neg (hne a ha)]
  exact ((s.setFld_lossStays 2 (by decide)).trans hbulk).trans (State.pairTo_lossStays _ 2)

/-- What the begin of a join can do: nothing, a failed check, or the bulk copy. -/
theorem State.beginJoin_cases (s : State) :
    s.beginJoin = s ∨ (∃ cause, s.beginJoin = s.joinFails cause)
      ∨ ∃ pair, s.beginJoin = { s.bulkBegun with pair := pair } := by
  unfold State.beginJoin
  split
  · exact .inl rfl
  next p _ =>
    split
    · exact .inl rfl
    · lift_lets
      extract_lets cause
      by_cases h : cause ≠ 0
      · exact .inr (.inl ⟨cause, if_pos h⟩)
      · exact .inr (.inr ⟨_, if_neg h⟩)

theorem State.beginJoin_lossStays (s : State) : State.LossStays s s.beginJoin := by
  rcases s.beginJoin_cases with h | ⟨cause, h⟩ | ⟨pair, h⟩ <;> rw [h]
  · exact State.LossStays.of_rd (fun a _ => State.rd_congr rfl a)
  · exact s.joinFails_lossStays cause
  · have hbulk := s.bulkBegun_lossStays
    generalize s.bulkBegun = u at hbulk ⊢
    exact hbulk.trans (State.LossStays.of_rd (fun a _ => State.rd_congr rfl a))

/-- A module in OUT that begins a join is JOINING, or stays in OUT. -/
theorem State.beginJoin_notStandby {s : State} (h1 : s.pairState = 1) : s.beginJoin.isStandby = false := by
  have hbulk : s.bulkBegun.isStandby = false := by
    rw [State.isStandby, State.bulkBegun, State.pairTo_pairState _ (by decide)]
    rfl
  rcases s.beginJoin_cases with h | ⟨cause, h⟩ | ⟨pair, h⟩ <;> rw [h]
  · rw [State.isStandby, h1]
    rfl
  · rw [State.isStandby, State.joinFails, State.pairTo_pairState _ (by decide)]
    rfl
  · generalize s.bulkBegun = u at hbulk ⊢
    exact hbulk

/-- The loss of SYNC itself: flagged, counted and raised. -/
def State.syncLost (s : State) : State := ((s.setSync false).setBit Reg.PAIR_STAT 2 true).count Reg.PAIR_CNT_SYNCLOSS

theorem State.syncLoss_standby {s : State} {cause : SyncLoss} (h : s.isStandby = true) (hs : s.pairSync = true) (hc : cause ≠ .aged) :
    s.syncLoss cause = s.syncLost.onlyIf (s.syncLost.bit Reg.PAIR_CTRL 8) (fun t => (t.pairTo 1).beginJoin) := by
  unfold State.syncLoss
  rw [h, hs]
  cases cause with
  | aged => exact absurd rfl hc
  | gap => rfl
  | told => rfl
  | images => rfl

theorem State.syncLost_rd {s : State} (hs : s.pairSync = true) {a : Nat} (hp : a ∉ pinRegs) :
    s.syncLost.rd a = if a = Reg.PAIR_CNT_SYNCLOSS then satWordN ((s.rd a).toNat + 1)
      else if a = Reg.PAIR_STAT then putBit (s.rd a) 2 true
      else if a = Reg.PAIR_IRQ then putBit (s.rd a) 1 true
      else if a = Reg.PAIR_STATE then putBit (s.rd a) 4 false else s.rd a := by
  have hsync : ∀ b, b ∉ pinRegs → (s.setSync false).rd b = if b = Reg.PAIR_IRQ then putBit (s.rd b) 1 true
      else if b = Reg.PAIR_STATE then putBit (s.rd b) 4 false else s.rd b := fun b hb => by
    unfold State.setSync State.irqPair
    rw [if_neg (by rw [hs]; decide), State.irqAt_rd _ _ _ _ _ _ hb]
    by_cases h1 : b = Reg.PAIR_IRQ
    · rw [h1, if_pos rfl, if_pos rfl, State.rd_setBit, if_neg (by decide)]
    · rw [if_neg h1, if_neg h1, State.rd_setBit]
      by_cases h2 : b = Reg.PAIR_STATE
      · rw [h2]
      · rw [if_neg h2, if_neg h2]
  unfold State.syncLost
  rw [State.rd_count]
  by_cases h1 : a = Reg.PAIR_CNT_SYNCLOSS
  · rw [h1, if_pos rfl, if_pos rfl, State.rd_setBit, if_neg (by decide), hsync _ (by decide), if_neg (by decide), if_neg (by decide)]
  · rw [if_neg h1, if_neg h1, State.rd_setBit]
    by_cases h2 : a = Reg.PAIR_STAT
    · rw [h2, if_pos rfl, if_pos rfl, hsync _ (by decide), if_neg (by decide), if_neg (by decide)]
    · rw [if_neg h2, if_neg h2, hsync a hp]

theorem syncLoss_drops (cause : SyncLoss) (s : State) (hs : s.supplied) (hst : s.isStandby = true) (hsync : s.pairSync = true)
    (hc : cause ≠ SyncLoss.aged) :
    ∃ t, exec (.syncLoss cause) s = .next t ∧ t.pairSync = false ∧ t.bit Reg.PAIR_STAT 2 = true ∧ t.bit Reg.PAIR_IRQ 1 = true
      ∧ (t.rd Reg.PAIR_CNT_SYNCLOSS).toNat = min 0xFFFFFFFF ((s.rd Reg.PAIR_CNT_SYNCLOSS).toNat + 1)
      ∧ (t.isStandby = true ↔ s.bit Reg.PAIR_CTRL 8 = false) ∧ s.keepsParts t [.sent, .zid, .pair] := by
  have ht : exec (.syncLoss cause) s = .next (s.clearSent.syncLoss cause) := show execSyncLoss cause s = _ from State.act_supplied hs
  have hk : Keeps 8450 s _ := execSyncLoss_keeps rfl ht
  have hparts := hk.parts [.sent, .zid, .pair] (fun p => by cases p <;> decide)
  rw [State.syncLoss_standby (s := s.clearSent) hst hsync hc] at ht hparts
  have hrd : ∀ {a : Nat}, a ∉ pinRegs → s.clearSent.syncLost.rd a = _ := State.syncLost_rd (s := s.clearSent) hsync
  have hctrl : s.clearSent.syncLost.bit Reg.PAIR_CTRL 8 = s.bit Reg.PAIR_CTRL 8 := congrArg (bitOf · 8) (hrd (by decide))
  have hstay : s.clearSent.syncLost.pairState = s.pairState := by
    rw [State.pairState, State.fld_eq, hrd (by decide), if_neg (by decide), if_neg (by decide), if_neg (by decide), if_pos rfl, putBit,
      bitsOf_putBits_apart _ _ _ _ _ _ (by decide) (by decide)]
    rfl
  have hlost : s.clearSent.syncLost.pairSync = false ∧ s.clearSent.syncLost.bit Reg.PAIR_STAT 2 = true
      ∧ s.clearSent.syncLost.bit Reg.PAIR_IRQ 1 = true
      ∧ (s.clearSent.syncLost.rd Reg.PAIR_CNT_SYNCLOSS).toNat = min 0xFFFFFFFF ((s.rd Reg.PAIR_CNT_SYNCLOSS).toNat + 1) := by
    refine ⟨?_, ?_, ?_, ?_⟩
    · rw [State.pairSync, State.bit_eq, hrd (by decide)]
      exact bitOf_putBit_same _ _ _ (by decide)
    · rw [State.bit_eq, hrd (by decide)]
      exact bitOf_putBit_same _ _ _ (by decide)
    · rw [State.bit_eq, hrd (by decide)]
      exact bitOf_putBit_same _ _ _ (by decide)
    · rw [hrd (by decide), if_pos rfl, satWordN_toNat]
      rfl
  obtain ⟨hn, hflag, hirq, hcnt⟩ := hlost
  rw [hctrl] at ht hparts
  generalize s.clearSent.syncLost = u at ht hparts hstay hn hflag hirq hcnt
  refine ⟨_, ht, ?_⟩
  cases hauto : s.bit Reg.PAIR_CTRL 8 with
  | false =>
    rw [hauto] at hparts
    exact ⟨hn, hflag, hirq, hcnt, iff_of_true ((congrArg (· == 3) hstay).trans hst) rfl, hparts⟩
  | true =>
    rw [hauto] at hparts
    obtain ⟨esync, eflag, eirq, ecnt⟩ := (u.pairTo_lossStays 1).trans (u.pairTo 1).beginJoin_lossStays
    have hout : (u.pairTo 1).beginJoin.isStandby = false :=
      State.beginJoin_notStandby (State.pairTo_pairState _ (by decide))
    exact ⟨esync.trans hn, eflag.trans hflag, eirq.trans hirq, (congrArg BitVec.toNat ecnt).trans hcnt,
      iff_of_false (by rw [State.onlyIf_true, hout]; decide) (by decide), hparts⟩

/-! ## MIRROR_ACKNOWLEDGE (R96) -/

theorem mirrorAcknowledge_raises (epoch : BitVec 64) (sync : Bool) (s : State) (hs : s.supplied) (hst : s.pairState = 4) :
    ∃ t, exec (.mirrorAcknowledge epoch sync) s = .next t ∧ t.sett = { s.sett with acked := max s.sett.acked epoch.toNat }
      ∧ t.pairPsync = sync ∧ (s.sett.epoch ≤ epoch.toNat → t.pair.keepWarm = [] ∧ t.pair.keepUser = [])
      ∧ s.keepsRegs t [Reg.PAIR_STATE] ∧ s.keepsParts t [.sent, .sett, .pair] := by
  have ht : exec (.mirrorAcknowledge epoch sync) s = .next (s.clearSent.mirrorAcked epoch.toNat sync) :=
    show execMirrorAcknowledge epoch sync s = _ from State.act_supplied hs
  have hk : Keeps 8202 s _ := execMirrorAcknowledge_keeps rfl ht
  have hparts := hk.parts [.sent, .sett, .pair] (fun p => by cases p <;> decide)
  refine ⟨_, ht, ?_⟩
  have h4 : ¬ s.clearSent.pairState ≠ 4 := not_not.mpr hst
  unfold State.mirrorAcked at hparts ⊢
  rw [if_neg h4] at hparts ⊢
  refine ⟨rfl, ?_, fun h => ⟨if_pos h, if_pos h⟩, fun a ha => ?_, hparts⟩
  · rw [State.pairPsync, State.bit_eq, State.rd_setBit, if_pos rfl]
    exact bitOf_putBit_same _ _ _ (by decide)
  · rw [State.rd_setBit, if_neg (by simpa using ha)]
    rfl

/-- Settles O37: each clause is what its event leaves. -/
theorem pairSynchronisation : Obligations.PairSynchronisation :=
  ⟨mirrorUnit_shows, mirrorUnit_drops, dispatchState_takes, linkTimeout_drops, syncLoss_drops, mirrorAcknowledge_raises⟩

end Sys2Proof.Machine

/-!
The start of a cycle reads the prices of NSTEP steps from the registers after the map in use has become live (R116, R190), which
refutes O12: a count of steps beyond the price registers runs on into those that show the map.
-/

namespace Sys2Proof.Machine

/-! ## Prices (R116) -/

/-- The prices hang on the registers, the image slots and the dispatch state alone. -/
theorem State.prices_congr {s t : State} (hr : t.regs = s.regs) (hi : t.img = s.img) (hd : t.dsp = s.dsp) : t.prices = s.prices := by
  obtain ⟨⟩ := s
  obtain ⟨⟩ := t
  cases hr
  cases hi
  cases hd
  rfl

/-- A clipped step of a scenario is one of the prices. -/
theorem State.prices_any_of {s : State} {sc k : Nat} (hsc : sc < s.scen) (hk : k < s.nstep) (h : (s.priceOf sc k).2 = true) :
    s.prices.any (·.2) = true :=
  List.any_eq_true.mpr ⟨s.priceOf sc k,
    List.mem_flatMap.mpr ⟨sc, List.mem_range.mpr hsc, List.mem_map.mpr ⟨k, List.mem_range.mpr hk, rfl⟩⟩, h⟩

theorem State.prices_any_false {s : State} (h : ∀ sc k, (s.priceOf sc k).2 = false) : s.prices.any (·.2) = false := by
  refine List.any_eq_false.mpr fun x hx => ?_
  obtain ⟨sc, -, hx⟩ := List.mem_flatMap.mp hx
  obtain ⟨k, -, rfl⟩ := List.mem_map.mp hx
  simp [h sc k]

/-- Where both prices of a step read 0 and no test is inverted, nothing is clipped. -/
theorem State.priceOf_zero {s : State} {sc k : Nat} (hj : s.rd Reg.DSP_INJ = 0#32) (himp : s.rd (Reg.DSP_PIMP_k k) = 0#32)
    (hexp : s.rd (Reg.DSP_PEXP_k k) = 0#32) : (s.priceOf sc k).2 = false := by
  have hs : s.scaled sc 0 = 0 := by simp [State.scaled, divZero]
  have hb : bitOf (0#32) 2 = false := by decide
  simp [State.priceOf, State.int, State.injTest, himp, hexp, hj, hs, hb]

/-! ## The start of a cycle (R100 to R108) -/

theorem State.roundOpen_regs (s : State) (q : Rat) : (s.roundOpen q).2.regs = s.regs := by
  unfold State.roundOpen
  split <;> rfl

theorem State.stepZero_regs (s : State) : s.stepZero.2.2.regs = s.regs := by
  unfold State.stepZero
  lift_lets
  extract_lets m step lo hi clamp nowNs g r f r0 r1 r2
  have h0 : r0.2.regs = s.regs := by
    simp only [r0]
    split <;> rfl
  split
  · exact State.roundOpen_regs _ _
  · exact ((State.roundOpen_regs _ _).trans (State.roundOpen_regs _ _)).trans h0

/-- The length of step 0 takes free values and changes nothing that the prices hang on. -/
theorem State.stepZero_prices (s : State) : s.stepZero.2.2.prices = s.prices :=
  State.prices_congr s.stepZero_regs ((State.stepZero_keeps (k := 0) rfl (Keeps.refl s)).img_same rfl)
    ((State.stepZero_keeps (k := 0) rfl (Keeps.refl s)).dsp_same rfl)

theorem State.irqDsp_rd_priceClip (s : State) (i : Nat) : (s.irqDsp i).rd Reg.DSP_CNT_PRICECLIP = s.rd Reg.DSP_CNT_PRICECLIP := by
  rw [State.irqDsp, State.irqAt_rd _ _ _ _ _ _ (by decide), if_neg (by decide)]

/-- A start counts once when a price of it is clipped. -/
theorem State.cycleReport_priceClip (s : State) :
    s.cycleReport.nat Reg.DSP_CNT_PRICECLIP = min 0xFFFFFFFF (s.nat Reg.DSP_CNT_PRICECLIP + (s.prices.any (·.2)).toNat) := by
  have hinj : ∀ (t : State) (i : Nat), (t.injRan Reg.DSP_INJ i).rd Reg.DSP_CNT_PRICECLIP = t.rd Reg.DSP_CNT_PRICECLIP :=
    fun t i => State.injRan_rd t _ i _ (by decide) (by decide)
  have hne : ∀ r ∈ [Reg.DSP_STAT, Reg.DSP_CNT_STALEMEAS, Reg.DSP_CNT_DEMCLIP], Reg.DSP_CNT_PRICECLIP ≠ r := by decide
  simp only [List.forall_mem_cons, List.not_mem_nil, false_imp_iff, implies_true, and_true] at hne
  obtain ⟨h1, h2, h3⟩ := hne
  simp only [State.cycleReport, State.nat_eq, hinj, State.rd_onlyIf, State.irqDsp_rd_priceClip, State.rd_setBit, State.rd_count,
    State.rd_countN, if_neg h1, if_neg h2, if_neg h3, ite_self, if_true]
  cases s.prices.any (·.2)
  · exact (min_eq_right (by simpa using (s.rd Reg.DSP_CNT_PRICECLIP).isLt.le_pred)).symm
  · exact satWordN_toNat _

theorem State.solveStart_rd (s : State) (warm : Bool) {b : Nat}
    (h : b ∉ [Reg.DSP_RES_LAST, Reg.DSP_RES_RP, Reg.DSP_RES_RG, Reg.DSP_RES_RD, Reg.DSP_RES_MU, Reg.SLV_RUN, Reg.SLV_CNT_SOLVE,
      Reg.SLV_STAT]) : (s.solveStart warm).rd b = s.rd b := by
  simp only [List.mem_cons, List.not_mem_nil, or_false, not_or] at h
  obtain ⟨h1, h2, h3, h4, h5, h6, h7, h8⟩ := h
  simp only [State.solveStart, State.forEach, List.foldl_cons, List.foldl_nil, State.rd_onlyIf, State.rd_setBit, State.rd_count,
    State.rd_wr, if_neg h1, if_neg h2, if_neg h3, if_neg h4, if_neg h5, if_neg h6, if_neg h7, if_neg h8, ite_self]
  rfl

theorem State.scrubStop_regs (s : State) : s.scrubStop.regs = s.regs := by
  unfold State.scrubStop State.onlyIf
  split
  · rfl
  · split <;> rfl

/-- Of a start, the count of clipped prices hangs on the prices alone. -/
theorem State.cycleBegin_priceClip (s : State) :
    s.cycleBegin.nat Reg.DSP_CNT_PRICECLIP = min 0xFFFFFFFF (s.nat Reg.DSP_CNT_PRICECLIP + (s.prices.any (·.2)).toNat) := by
  have hz : s.cycleBegin.rd Reg.DSP_CNT_PRICECLIP = s.stepZero.2.2.cycleReport.rd Reg.DSP_CNT_PRICECLIP := by
    unfold State.cycleBegin
    rw [State.rd_congr (State.scrubStop_regs _), State.solveStart_rd _ _ (by decide), State.irqDsp_rd_priceClip, State.rd_count,
      if_neg (by decide), State.rd_wr, if_neg (by decide), State.rd_wr, if_neg (by decide), State.rd_wr, if_neg (by decide)]
    rfl
  have hr := s.stepZero.2.2.cycleReport_priceClip
  rw [s.stepZero_prices, State.nat_eq, State.nat_eq, State.rd_congr s.stepZero_regs] at hr
  rw [State.nat_eq, State.nat_eq, hz]
  exact hr

/-- A due start without a result due, of a main problem that fits, begins on the map in use. -/
theorem State.cycleStart_fitting {s : State} (hdue : s.startDue = true) (hdl : s.dsp.dlOpen = false) (hfit : s.mapLive.fitTest = s.mapLive)
    (hno : s.mapLive.dsp.nofit = false) : s.cycleStart = s.mapLive.cycleBegin := by
  have hd : s.deadline = s := by simp [State.deadline, State.deadlineDue, hdl]
  simp [State.cycleStart, hdue, hd, hfit, hno]

theorem State.fitTest_fits {s : State} (hno : s.dsp.nofit = false) (hfb : s.dsp.fallback = false) (hf : s.fits false = true) :
    s.fitTest = s := by
  simp [State.fitTest, hno, hfb, hf]

theorem State.recopy_regs (t s : State) : (t.recopy s).regs = t.regs := by
  unfold State.recopy
  split
  · rfl
  · split <;> rfl

theorem State.dispatchSend_regs (s : State) : s.dispatchSend.regs = s.regs := by
  unfold State.dispatchSend
  split <;> rfl

theorem State.dispatchOut_regs (t s : State) : (t.dispatchOut s).regs = t.regs := by
  unfold State.dispatchOut State.onlyIf
  split
  · exact t.dispatchSend_regs
  · rfl

theorem exec_cycleStart {s : State} (hs : s.supplied) :
    exec .cycleStart s = .next ((s.clearSent.cycleStart.recopy s.clearSent).dispatchOut s.clearSent) :=
  show execCycleStart s = _ from State.act_supplied hs

/-! ## The counterexample -/

/-- An image whose GRAPH section declares 16,384 steps of 15 minutes in one scenario. -/
def longImage : ImgBytes := [(0x0C, 1#8), (0x40, 1#8), (0x45, 2#8), (0x49, 1#8), (0x203, 1#8), (0x205, 0x40#8), (0x206, 15#8)]

/-- That image runs and has passed H15, with ENABLE 1 and the price scale 1 of scenario 0; every price register, and SLV_MAP, reads 0. -/
def longHorizon : State :=
  { State.reset with
    regs := [(Reg.IMG_RUN, 2#32), (Reg.DSP_CTRL, 1#32), (Reg.DSP_PSCALE_s 0, 65536#32)]
    img := { resetImg with slotA := longImage }
    boot := { resetBoot with passed := [15] } }

theorem longHorizon_rd {a : Nat} (h : 0x11000 ≤ a) : longHorizon.rd a = 0#32 := by
  have h1 : Reg.IMG_RUN ≠ a := by unfold Reg.IMG_RUN; omega
  have h2 : Reg.DSP_CTRL ≠ a := by unfold Reg.DSP_CTRL; omega
  have h3 : Reg.DSP_PSCALE_s 0 ≠ a := by unfold Reg.DSP_PSCALE_s; omega
  simp only [State.rd, longHorizon, tabGet, if_neg h1, if_neg h2, if_neg h3]

/-- Before the start no price is clipped: they all read 0. -/
theorem longHorizon_prices : longHorizon.prices.any (·.2) = false :=
  State.prices_any_false fun sc k => State.priceOf_zero (by decide) (longHorizon_rd (Nat.le_add_right _ _))
    (longHorizon_rd (Nat.le_add_right_of_le (by decide)))

/-- DSP_PEXP_k of step 15,252 is the address of SLV_MAP, which shows 16 lanes once the map in use is live, above the 0 of DSP_PIMP_k. -/
theorem longHorizon_mapLive_prices : longHorizon.mapLive.prices.any (·.2) = true :=
  State.prices_any_of (sc := 0) (k := 15252) (by decide +kernel) (by decide +kernel) (by decide +kernel)

theorem longHorizon_fits : longHorizon.mapLive.fits false = true := by decide +kernel

theorem longHorizon_cycleStart : longHorizon.cycleStart = longHorizon.mapLive.cycleBegin :=
  State.cycleStart_fitting (by decide +kernel) rfl (State.fitTest_fits (by decide +kernel) (by decide +kernel) longHorizon_fits)
    (by decide +kernel)

/-- The start counts one clipped price. -/
theorem longHorizon_counts : longHorizon.cycleStart.nat Reg.DSP_CNT_PRICECLIP = 1 := by
  have h0 : longHorizon.mapLive.nat Reg.DSP_CNT_PRICECLIP = 0 := by decide +kernel
  rw [longHorizon_cycleStart, State.cycleBegin_priceClip, longHorizon_mapLive_prices, h0]
  rfl

/-- Refutes O12: the statement counts a clipped price by the registers as they are before the CYCLE_START, and the start reads the
prices after it has made the map in use live (R190), which writes SLV_MAP. The two agree while NSTEP keeps to the 96 steps of R120's
Table 5; no hypothesis of the statement bounds it, and in an image of 16,384 steps DSP_PEXP_k of step 15,252 is read at
SLV_MAP. -/
theorem not_dispatchAndSolver : ¬ Obligations.DispatchAndSolver := by
  intro h
  obtain ⟨hcycle, -⟩ := h
  have hs : longHorizon.supplied := by unfold State.supplied; decide
  obtain ⟨-, hbegin⟩ := hcycle longHorizon hs
  obtain ⟨t, ht, -, -, -, -, -, -, -, -, -, -, -, -, hreport, -⟩ := hbegin rfl (by decide) (by decide) (by decide) (by decide) rfl rfl
    rfl rfl longHorizon_fits
  obtain ⟨-, -, -, -, hclip⟩ := hreport (by decide)
  have e : t = (longHorizon.cycleStart.recopy longHorizon).dispatchOut longHorizon :=
    Host.Outcome.next.inj (ht.symm.trans (exec_cycleStart hs))
  have hregs : t.regs = longHorizon.cycleStart.regs := by rw [e, State.dispatchOut_regs, State.recopy_regs]
  have hone : t.nat Reg.DSP_CNT_PRICECLIP = 1 :=
    (congrArg BitVec.toNat (State.rd_congr hregs _)).trans longHorizon_counts
  have hzero : t.nat Reg.DSP_CNT_PRICECLIP = 0 := by
    rw [hclip, longHorizon_prices]
    decide
  exact absurd (hone.symm.trans hzero) (by decide)

end Sys2Proof.Machine

/-!
What declaring a lane, a bank or a line of the fabric leaves (R188, R191): flags and counters that only rise, and the map that is asked for.
-/

namespace Sys2Proof.Machine

/-! ## Registers that only gain flags -/

/-- From `s` to `t` only registers of `l` change, and FAB_STAT and FAB_IRQ lose no bit. -/
structure State.RaisesOnly (l : List Nat) (s t : State) : Prop where
  others : s.keepsRegs t l
  flags : ∀ r, r = Reg.FAB_STAT ∨ r = Reg.FAB_IRQ → ∀ i, i < 32 → s.bit r i = true → t.bit r i = true

/-- The registers that a declared lane, bank or line changes (R188, R191). -/
def faultRegs : List Nat :=
  [Reg.FAB_STAT, Reg.FAB_IRQ, Reg.FAB_CNT_LANEFAIL, Reg.FAB_CNT_BANKFAIL, Reg.FAB_CNT_LINEREP] ++ pinRegs
    ++ (List.range 64).map Reg.FAB_BANK_p_STAT ++ (List.range 18).map Reg.SLV_LANE_n_STAT

theorem State.RaisesOnly.refl (l : List Nat) (s : State) : State.RaisesOnly l s s := ⟨fun _ _ => rfl, fun _ _ _ _ h => h⟩

theorem State.RaisesOnly.trans {l : List Nat} {s t u : State} (a : State.RaisesOnly l s t) (b : State.RaisesOnly l t u) :
    State.RaisesOnly l s u :=
  ⟨fun r hr => (b.others r hr).trans (a.others r hr), fun r hr i hi h => b.flags r hr i hi (a.flags r hr i hi h)⟩

theorem State.RaisesOnly.mono {l m : List Nat} {s t : State} (h : ∀ a ∈ l, a ∈ m) (a : State.RaisesOnly l s t) : State.RaisesOnly m s t :=
  ⟨fun r hr => a.others r (fun g => hr (h r g)), a.flags⟩

theorem State.RaisesOnly.of_regs {l : List Nat} {s t : State} (h : t.regs = s.regs) : State.RaisesOnly l s t :=
  ⟨fun r _ => State.rd_congr h r, fun r _ i _ g => (congrArg (bitOf · i) (State.rd_congr h r)).trans g⟩

/-- A register other than the two is written. -/
theorem State.RaisesOnly.wr {l : List Nat} (s : State) {a : Nat} (v : Word) (ha : a ∈ l) (hn : a ≠ Reg.FAB_STAT ∧ a ≠ Reg.FAB_IRQ) :
    State.RaisesOnly l s (s.wr a v) := by
  refine ⟨fun r hr => ?_, fun r hr i _ h => ?_⟩
  · have hra : r ≠ a := fun e => hr (e ▸ ha)
    rw [State.rd_wr, if_neg hra]
  · have hra : r ≠ a := by
      rcases hr with rfl | rfl
      · exact hn.1.symm
      · exact hn.2.symm
    rw [State.bit_eq, State.rd_wr, if_neg hra]
    exact h

theorem State.RaisesOnly.setFld {l : List Nat} (s : State) {a lo n v : Nat} (ha : a ∈ l) (hn : a ≠ Reg.FAB_STAT ∧ a ≠ Reg.FAB_IRQ) :
    State.RaisesOnly l s (s.setFld a lo n v) := State.RaisesOnly.wr s _ ha hn

theorem bitOf_putBit_true {w : Word} {i j : Nat} (hj : j < 32) (h : bitOf w j = true) : bitOf (putBit w i true) j = true := by
  by_cases e : j = i
  · rw [e, bitOf_putBit_same _ _ _ (e ▸ hj)]
  · rw [bitOf_putBit_apart _ _ _ _ hj e, h]

theorem State.RaisesOnly.setBit {l : List Nat} (s : State) {a i : Nat} (ha : a ∈ l) : State.RaisesOnly l s (s.setBit a i true) := by
  refine ⟨fun r hr => ?_, fun r _ j hj h => ?_⟩
  · have hra : r ≠ a := fun e => hr (e ▸ ha)
    rw [State.rd_setBit, if_neg hra]
  · rw [State.bit_eq, State.rd_setBit]
    split_ifs with e
    · exact bitOf_putBit_true hj (e ▸ h)
    · exact h

theorem State.RaisesOnly.irqFab {l : List Nat} (s : State) {i : Nat} (hl : ∀ a ∈ Reg.FAB_IRQ :: pinRegs, a ∈ l) :
    State.RaisesOnly l s (s.irqFab i) := by
  rw [List.forall_mem_cons] at hl
  obtain ⟨hirq, hpin⟩ := hl
  refine ⟨fun r hr => ?_, fun r hr j hj h => ?_⟩
  · have hri : r ≠ Reg.FAB_IRQ := fun e => hr (e ▸ hirq)
    rw [State.irqFab, State.irqAt_rd _ _ _ _ _ _ (fun g => hr (hpin r g)), if_neg hri]
  · have hp : r ∉ pinRegs := by rcases hr with rfl | rfl <;> decide
    rw [State.bit_eq, State.irqFab, State.irqAt_rd _ _ _ _ _ _ hp]
    split_ifs with e
    · exact bitOf_putBit_true hj (e ▸ h)
    · exact h

theorem State.RaisesOnly.onlyIf {l : List Nat} (s : State) (c : Bool) {f : State → State} (h : State.RaisesOnly l s (f s)) :
    State.RaisesOnly l s (s.onlyIf c f) := by
  cases c
  · exact State.RaisesOnly.refl l s
  · exact h

/-! ## Failing lanes, banks and lines (R188, R191) -/

/-- What declaring lanes, banks and lines leaves: flags and counters, the map asked for, and an iteration that stays hit. -/
structure State.Faults (s t : State) : Prop where
  regs : State.RaisesOnly faultRegs s t
  fab : t.fab = { s.fab with want := t.fab.want }
  hit : s.dsp.solve.map (·.dropped) = some true → t.dsp.solve.map (·.dropped) = some true

theorem State.Faults.refl (s : State) : s.Faults s := ⟨State.RaisesOnly.refl _ s, rfl, id⟩

theorem State.Faults.trans {s t u : State} (a : s.Faults t) (b : t.Faults u) : s.Faults u :=
  ⟨a.regs.trans b.regs, by rw [b.fab, a.fab], fun h => b.hit (a.hit h)⟩

/-- A step that changes registers alone. -/
theorem State.Faults.of_regs {s t : State} (h : State.RaisesOnly faultRegs s t) (hf : t.fab = s.fab) (hd : t.dsp = s.dsp) : s.Faults t :=
  ⟨h, by rw [hf], fun g => by rw [hd, g]⟩

theorem State.Faults.setWant (s : State) (w : RepairMap) : s.Faults { s with fab := { s.fab with want := w } } :=
  ⟨State.RaisesOnly.of_regs rfl, rfl, id⟩

theorem pinRegs_faultRegs : ∀ a ∈ Reg.FAB_IRQ :: pinRegs, a ∈ faultRegs := by decide

theorem State.irqFab_faults (s : State) (i : Nat) : s.Faults (s.irqFab i) :=
  have h : Keeps 256 s (s.irqFab i) := State.irqFab_keeps rfl (Keeps.refl s)
  State.Faults.of_regs (State.RaisesOnly.irqFab s pinRegs_faultRegs) (h.fab_same rfl) (h.dsp_same rfl)

theorem State.setStat_faults (s : State) (i : Nat) : s.Faults (s.setBit Reg.FAB_STAT i true) :=
  State.Faults.of_regs (State.RaisesOnly.setBit s (by decide)) rfl rfl

/-- The flag, the counter and the interrupt of a declared fault. -/
theorem State.told_faults (s : State) {i cnt : Nat} (hc : cnt ∈ faultRegs) (hn : cnt ≠ Reg.FAB_STAT ∧ cnt ≠ Reg.FAB_IRQ) :
    s.Faults (((s.setBit Reg.FAB_STAT i true).count cnt).irqFab 1) :=
  ((s.setStat_faults i).trans (State.Faults.of_regs (State.RaisesOnly.wr _ _ hc hn) rfl rfl)).trans (State.irqFab_faults _ 1)

theorem State.Faults.onlyIf {s : State} (c : Bool) {f : State → State} (h : s.Faults (f s)) : s.Faults (s.onlyIf c f) := by
  cases c
  · exact State.Faults.refl s
  · exact h

theorem State.spareOut_faults (s : State) (out : Bool) : s.Faults (s.spareOut out) :=
  State.Faults.onlyIf out ((s.setStat_faults 4).trans (State.irqFab_faults _ 2))

theorem State.solveHit_regs (s : State) : s.solveHit.regs = s.regs := by
  unfold State.solveHit
  split
  · split_ifs <;> rfl
  · rfl

theorem State.solveHit_fab (s : State) : s.solveHit.fab = s.fab :=
  (State.solveHit_keeps (k := 1024) rfl (Keeps.refl s)).fab_same rfl

/-- A running iteration is hit. -/
theorem State.solveHit_dropped {s : State} {v : Solve} (h : s.dsp.solve = some v) (hr : v.running = true) (ha : v.assembled = true) :
    s.solveHit.dsp.solve.map (·.dropped) = some true := by
  simp [State.solveHit, h, hr, ha]

theorem State.solveHit_faults (s : State) : s.Faults s.solveHit := by
  refine ⟨State.RaisesOnly.of_regs s.solveHit_regs, by rw [s.solveHit_fab], fun h => ?_⟩
  unfold State.solveHit
  split
  · split_ifs
    · rfl
    · exact h
  · exact h

theorem bankStat_faultRegs {p : Nat} (hp : p < 64) : Reg.FAB_BANK_p_STAT p ∈ faultRegs :=
  List.mem_append_left _ (List.mem_append_right _ (List.mem_map_of_mem (List.mem_range.mpr hp)))

theorem laneStat_faultRegs {n : Nat} (hn : n < 18) : Reg.SLV_LANE_n_STAT n ∈ faultRegs :=
  List.mem_append_right _ (List.mem_map_of_mem (List.mem_range.mpr hn))

theorem State.showBank_faults (s : State) {p : Nat} (hp : p < 64) : s.Faults (s.showBank p) := by
  have hn : Reg.FAB_BANK_p_STAT p ≠ Reg.FAB_STAT ∧ Reg.FAB_BANK_p_STAT p ≠ Reg.FAB_IRQ := by
    unfold Reg.FAB_BANK_p_STAT Reg.FAB_STAT Reg.FAB_IRQ
    omega
  have h (v : Word) : s.Faults (s.wr (Reg.FAB_BANK_p_STAT p) v) :=
    State.Faults.of_regs (State.RaisesOnly.wr s v (bankStat_faultRegs hp) hn) rfl rfl
  unfold State.showBank
  exact h _

theorem State.laneFail_faults (s : State) {n : Nat} (code : Nat) (hn : n < 18) : s.Faults (s.laneFail n code) := by
  have hne : Reg.SLV_LANE_n_STAT n ≠ Reg.FAB_STAT ∧ Reg.SLV_LANE_n_STAT n ≠ Reg.FAB_IRQ := by
    unfold Reg.SLV_LANE_n_STAT Reg.FAB_STAT Reg.FAB_IRQ
    omega
  unfold State.laneFail
  split_ifs
  · exact State.Faults.refl s
  · have hstat (u : State) : u.Faults (u.setFld (Reg.SLV_LANE_n_STAT n) 0 2 3) :=
      State.Faults.of_regs (State.RaisesOnly.setFld u (laneStat_faultRegs hn) hne) rfl rfl
    exact ((((State.Faults.setWant s _).trans (hstat _)).trans (State.told_faults _ (by decide) (by decide))).trans
      (State.spareOut_faults _ _)).trans (State.solveHit_faults _)

theorem State.bankFail_faults (s : State) {p : Nat} (code : Nat) (hp : p < 64) : s.Faults (s.bankFail p code) := by
  unfold State.bankFail
  split_ifs
  · exact State.Faults.refl s
  · exact ((((State.Faults.setWant s _).trans (State.showBank_faults _ hp)).trans (State.told_faults _ (by decide) (by decide))).trans
      (State.spareOut_faults _ _)).trans (State.solveHit_faults _)

theorem State.putSpare_faults (s : State) {p : Nat} (i v : Nat) (hp : p < 64) : s.Faults (s.putSpare p i v) :=
  (State.Faults.setWant s _).trans (State.showBank_faults _ hp)

theorem State.assignSpare_faults (s : State) {p : Nat} (line : Nat) (hp : p < 64) : s.Faults (s.assignSpare p line) := by
  unfold State.assignSpare
  split
  · exact (s.putSpare_faults _ _ hp).trans (State.told_faults _ (by decide) (by decide))
  · exact s.bankFail_faults _ hp

theorem State.repairLine_faults (s : State) {p : Nat} (line : Nat) (hp : p < 64) : s.Faults (s.repairLine p line) := by
  unfold State.repairLine
  lift_lets
  extract_lets i old s1
  split_ifs
  · exact State.Faults.refl s
  · exact s.assignSpare_faults line hp
  · exact (s.putSpare_faults _ _ hp).trans (State.assignSpare_faults _ _ hp)
  · exact s.putSpare_faults _ _ hp

/-! ## The map asked for after a repair -/

theorem State.irqFab_fab (s : State) (i : Nat) : (s.irqFab i).fab = s.fab :=
  (State.irqFab_keeps (k := 256) rfl (Keeps.refl s)).fab_same rfl

theorem State.spareOut_fab (s : State) (out : Bool) : (s.spareOut out).fab = s.fab :=
  (State.spareOut_keeps (k := 256) rfl (Keeps.refl s)).fab_same rfl

/-- The map that asks for a lane to be left out. -/
theorem State.laneFail_want (s : State) (n code : Nat) (h : listGet s.fab.want.lanes n = 0) :
    (s.laneFail n code).fab.want = { s.fab.want with lanes := s.fab.want.lanes.set n code } := by
  simp [State.laneFail, h, State.solveHit_fab, State.spareOut_fab, State.irqFab_fab]

/-- The map after a bank is declared FAILED (R191). -/
def RepairMap.bankFailed (m : RepairMap) (p code : Nat) : RepairMap :=
  if listGet m.banks p != 0 then m else { m with banks := m.banks.set p code }

theorem State.bankFail_want (s : State) (p code : Nat) : (s.bankFail p code).fab.want = s.fab.want.bankFailed p code := by
  unfold State.bankFail RepairMap.bankFailed
  split_ifs
  · rfl
  · simp [State.solveHit_fab, State.spareOut_fab, State.irqFab_fab, State.showBank]

/-- The map with a spare line's entry. -/
def RepairMap.spared (m : RepairMap) (p i v : Nat) : RepairMap := { m with spares := assocPut m.spares (164 * p + i) v }

/-- The map after a line is given a spare one (R191). -/
def RepairMap.lineSpared (m : RepairMap) (p line : Nat) : RepairMap := match m.freeSpare p with
  | some i => m.spared p i line
  | none => m.bankFailed p 2

theorem State.assignSpare_want (s : State) (p line : Nat) : (s.assignSpare p line).fab.want = s.fab.want.lineSpared p line := by
  unfold State.assignSpare RepairMap.lineSpared
  cases s.fab.want.freeSpare p with
  | none => exact s.bankFail_want p 2
  | some i => exact congrArg FabState.want (State.irqFab_fab _ 1)

/-- The map after a line is marked for repair (R191). -/
def RepairMap.lineRepaired (m : RepairMap) (p line : Nat) : RepairMap :=
  if line < 8192 then
    (if m.spares.any (fun e => e.1 / 164 == p && e.2 == line) then m else m.lineSpared p line)
  else
    let old := assocGet 0xFFFF m.spares (164 * p + (line - 8192))
    if old < 8192 then (m.spared p (line - 8192) 0xFFFE).lineSpared p old else m.spared p (line - 8192) 0xFFFE

/-- A repair hangs on the map asked for alone. -/
theorem State.repairLine_want (s : State) (p line : Nat) : (s.repairLine p line).fab.want = s.fab.want.lineRepaired p line := by
  unfold State.repairLine RepairMap.lineRepaired
  lift_lets
  extract_lets i old s1
  split_ifs
  · rfl
  · rw [State.assignSpare_want]
  · rw [State.assignSpare_want]; rfl
  · rfl

theorem RepairMap.freeSpare_lt {m : RepairMap} {p i : Nat} (h : m.freeSpare p = some i) : i < 164 :=
  List.mem_range.mp (List.mem_of_find?_eq_some h)

theorem mem_assocPut {α : Type} (l : List (Nat × α)) (k : Nat) (v : α) : (k, v) ∈ assocPut l k v := by
  induction l with
  | nil => exact List.mem_singleton_self _
  | cons e t ih =>
    unfold assocPut
    split_ifs
    · exact List.mem_cons_self
    · exact List.mem_cons_self
    · exact List.mem_cons_of_mem _ ih

/-- A line of a good bank that is marked for repair is served by a spare line afterwards, or its bank has failed. -/
theorem RepairMap.lineRepaired_serves (m : RepairMap) {p line : Nat} (hl : line < 8192) (hb : listGet m.banks p = 0)
    (hp : p < m.banks.length) :
    listGet (m.lineRepaired p line).banks p ≠ 0
      ∨ (m.lineRepaired p line).spares.any (fun e => e.1 / 164 == p && e.2 == line) = true := by
  unfold RepairMap.lineRepaired
  rw [if_pos hl]
  split_ifs with h
  · exact .inr h
  · unfold RepairMap.lineSpared
    split
    next i hi =>
      have hlt := RepairMap.freeSpare_lt hi
      have hdiv : (164 * p + i) / 164 = p := by omega
      exact .inr (List.any_eq_true.mpr ⟨_, mem_assocPut _ _ _, by simp [hdiv]⟩)
    next =>
      refine .inl ?_
      simp only [RepairMap.bankFailed, hb, bne_self_eq_false, Bool.false_eq_true, if_false]
      simp [listGet, hp]

end Sys2Proof.Machine

/-!
A block received over the fabric, and the drop of one with what its consumer does (R185 to R188, R201, R207; the first two parts of O13).
-/

namespace Sys2Proof.Machine

/-! ## Blocks (R185 to R187) -/

theorem pathRes_ne (path : Nat) : pathRes path ≠ 2 := by
  unfold pathRes
  split_ifs <;> decide

/-- A charge of another resource than NVW hangs on the charges before it alone. -/
theorem State.charge_used_congr {s t : State} {c r n : Nat} (hr : r ≠ 2) (h : t.used = s.used) :
    (t.charge c r n).used = (s.charge c r n).used := by
  rw [State.charge_used t n hr, State.charge_used s n hr, h]

@[simp] theorem State.charge_rd (s : State) (c r n b : Nat) : (s.charge c r n).rd b = s.rd b := by
  unfold State.charge
  split_ifs <;> rfl

/-- The comparisons of at most five sendings as FAB_INJ leaves them. -/
def sendings (inj drop resend : Bool) (told : List Bool) : List Bool :=
  if inj && drop then told.map (fun b => !b) else if inj && resend then (told.take 1).map (fun b => !b) ++ told.drop 1 else told

theorem State.blockBad_eq (s : State) (path : Nat) (l : List Bool) :
    s.blockBad path l = sendings (s.injPath path) (s.bit Reg.FAB_INJ 1) (s.bit Reg.FAB_INJ 0) l := by
  unfold State.blockBad sendings
  split_ifs
  · rfl
  · cases l <;> rfl
  · rfl

theorem sendings_length (i d r : Bool) (l : List Bool) : (sendings i d r l).length = l.length := by
  unfold sendings
  split_ifs
  · simp
  · cases l <;> simp
  · rfl

theorem State.failsOf_eq (s : State) (path : Nat) (bad : List Bool) :
    s.failsOf path bad = ((sendings (s.injPath path) (s.bit Reg.FAB_INJ 1) (s.bit Reg.FAB_INJ 0)
      ((bad ++ List.replicate 5 false).take 5)).takeWhile id).length := by
  rw [State.failsOf, State.blockBad_eq]

theorem State.failsOf_le (s : State) (path : Nat) (bad : List Bool) : s.failsOf path bad ≤ 5 := by
  rw [State.failsOf_eq]
  refine (List.takeWhile_prefix _).length_le.trans ?_
  rw [sendings_length]
  exact List.length_take_le 5 _

theorem State.failsOf_quiet {s : State} {path : Nat} (h : s.injPath path = false) (bad : List Bool) :
    s.failsOf path bad = (((bad ++ List.replicate 5 false).take 5).takeWhile id).length := by
  rw [State.failsOf_eq, h]
  rfl

/-- Each mismatch but a fifth is counted and charged, and the block is asked for again (R185). -/
def State.resent (s : State) (path cls fails : Nat) : State :=
  (s.countN (Reg.FAB_CNT_RESEND_p path) (min 4 fails)).charge cls (pathRes path) (min 4 fails)

theorem State.resent_keeps (s : State) (path cls fails : Nat) : Keeps 8388608 s (s.resent path cls fails) :=
  State.charge_keeps rfl (State.countN_keeps rfl (Keeps.refl s))

/-- A dropped block is counted, recorded, flagged and raised (R186). -/
def State.dropNoted (s : State) (path cls : Nat) (lane : Option Nat) : State :=
  (((s.count (Reg.FAB_CNT_DROP_p path)).wr Reg.FAB_LASTDROP
    (BitVec.ofNat 32 (path + cls * 2 ^ 4 + lane.getD 31 * 2 ^ 8 + s.sett.epoch % 2 ^ 16 * 2 ^ 16))).setBit Reg.FAB_STAT 0 true).irqFab 0

theorem State.dropNoted_keeps (s : State) (path cls : Nat) (lane : Option Nat) : Keeps 256 s (s.dropNoted path cls lane) := by
  unfold State.dropNoted
  exact State.irqFab_keeps rfl (State.setBit_keeps rfl (State.wr_keeps rfl (State.count_keeps rfl (Keeps.refl s))))

/-- A drop on path 0 or 1 counts against its lane (R188). -/
def State.laneBlamed (s : State) (path : Nat) (lane : Option Nat) : State := match lane with
  | some n => s.onlyIf (path = 0 || path = 1) (fun s => s.laneDrop n)
  | none => s

/-- What follows a drop: its consumer acts, and it counts against its lane or the DRAM (R186, R188, R201). -/
def State.dropServed (s : State) (path : Nat) (lane : Option Nat) (use : BlockUse) : State :=
  ((s.consumerDrop use).laneBlamed path lane).onlyIf (path = 3) State.dramDrop

theorem State.blockFails_eq (s : State) (path cls : Nat) (lane : Option Nat) (use : BlockUse) (fails : Nat) :
    s.blockFails path cls lane use fails =
      if fails < 5 then s.resent path cls fails else ((s.resent path cls fails).dropNoted path cls lane).dropServed path lane use := by
  have he : (s.resent path cls fails).sett = s.sett := (s.resent_keeps path cls fails).sett_same rfl
  unfold State.dropServed State.dropNoted
  rw [he]
  unfold State.blockFails State.resent State.laneBlamed
  cases lane <;> rfl

/-! ### Registers -/

theorem State.resent_rd (s : State) (path cls fails b : Nat) :
    (s.resent path cls fails).rd b =
      if b = Reg.FAB_CNT_RESEND_p path then satWordN ((s.rd b).toNat + min 4 fails) else s.rd b := by
  rw [State.resent, State.charge_rd, State.rd_countN]
  split_ifs with h
  · rw [h]
  · rfl

theorem State.dropNoted_rd (s : State) {path : Nat} (cls : Nat) (lane : Option Nat) {b : Nat} (hp : path < 5) (hb : b ∉ pinRegs) :
    (s.dropNoted path cls lane).rd b =
      if b = Reg.FAB_IRQ then putBit (s.rd b) 0 true
      else if b = Reg.FAB_STAT then putBit (s.rd b) 0 true
      else if b = Reg.FAB_LASTDROP then
        BitVec.ofNat 32 (path + cls * 2 ^ 4 + lane.getD 31 * 2 ^ 8 + s.sett.epoch % 2 ^ 16 * 2 ^ 16)
      else if b = Reg.FAB_CNT_DROP_p path then satWordN ((s.rd b).toNat + 1) else s.rd b := by
  have h1 : Reg.FAB_CNT_DROP_p path ≠ Reg.FAB_IRQ ∧ Reg.FAB_CNT_DROP_p path ≠ Reg.FAB_STAT := by
    unfold Reg.FAB_CNT_DROP_p Reg.FAB_IRQ Reg.FAB_STAT
    omega
  unfold State.dropNoted State.irqFab
  simp only [State.irqAt_rd _ _ _ _ _ _ hb, State.rd_setBit, State.rd_wr, State.rd_count]
  by_cases e1 : b = Reg.FAB_IRQ
  · subst e1
    simp [h1.1.symm]
  by_cases e2 : b = Reg.FAB_STAT
  · subst e2
    simp [h1.2.symm]
  simp only [e1, e2, if_false]
  split_ifs with e3 e4
  · rfl
  · rw [e4]
  · rfl

/-- The registers that what follows a drop may change. -/
def servedRegs : List Nat :=
  faultRegs ++ (Reg.FAB_CNT_DRAMFIX :: (List.range 4).map Reg.CAN_CNT_RXDROP ++ (List.range 4).map Reg.CAN_STAT
    ++ (List.range 3).map Reg.ETH_PORT_p_CNT_RXERR)

theorem faultRegs_servedRegs : ∀ a ∈ faultRegs, a ∈ servedRegs := fun _ h => List.mem_append_left _ h

theorem State.commitDrop_regs (s : State) (off : Nat) : (s.commitDrop off).regs = (s.setBit Reg.FAB_STAT 8 true).regs := by
  unfold State.commitDrop
  split <;> rfl

theorem State.RaisesOnly.congr {l : List Nat} {s t u : State} (a : State.RaisesOnly l s t) (h : u.regs = t.regs) :
    State.RaisesOnly l s u := a.trans (State.RaisesOnly.of_regs h)

theorem State.consumerDrop_regs (s : State) (use : BlockUse) : State.RaisesOnly servedRegs s (s.consumerDrop use) := by
  have hch : ∀ c : Fin 4, Reg.CAN_CNT_RXDROP c.val ∈ servedRegs ∧ Reg.CAN_STAT c.val ∈ servedRegs
      ∧ Reg.CAN_CNT_RXDROP c.val ≠ Reg.FAB_STAT ∧ Reg.CAN_CNT_RXDROP c.val ≠ Reg.FAB_IRQ := by decide
  have hpt : ∀ p : Fin 3, Reg.ETH_PORT_p_CNT_RXERR p.val ∈ servedRegs ∧ Reg.ETH_PORT_p_CNT_RXERR p.val ≠ Reg.FAB_STAT
      ∧ Reg.ETH_PORT_p_CNT_RXERR p.val ≠ Reg.FAB_IRQ := by decide
  cases use with
  | solver x =>
    cases x with
    | none => exact State.RaisesOnly.of_regs s.solveHit_regs
    | some x =>
      exact (State.RaisesOnly.of_regs s.solveHit_regs).trans
        ((s.solveHit.repairLine_faults x.2.toNat (by omega : x.1.val < 64)).regs.mono faultRegs_servedRegs)
  | commit off => exact (State.RaisesOnly.setBit s (by decide)).congr (s.commitDrop_regs off.toNat)
  | image => exact State.RaisesOnly.wr s _ (by decide) (by decide)
  | history back node => exact State.RaisesOnly.of_regs rfl
  | canBuf c =>
    obtain ⟨h1, h2, h3⟩ := hch c
    exact (State.RaisesOnly.wr s _ h1 h3).trans (State.RaisesOnly.setBit _ h2)
  | ethBuf p =>
    obtain ⟨h1, h2⟩ := hpt p
    exact State.RaisesOnly.wr s _ h1 h2
  | host => exact State.RaisesOnly.refl _ s
  | nvWrite => exact State.RaisesOnly.refl _ s
  | pairLink => exact State.RaisesOnly.refl _ s
  | other => exact State.RaisesOnly.refl _ s

/-- The drop stands first among those of the lanes. -/
def State.laneNoted (s : State) (n : Nat) : State :=
  { s with fab := { s.fab with laneDrops := (n, s.lap.count) :: s.fab.laneDrops.filter (fun e => s.lap.count < e.2 + 256) } }

theorem State.laneDrop_faults (s : State) {n : Nat} (hn : n < 18) : (s.laneNoted n).Faults (s.laneDrop n) := by
  have hd : s.laneDrop n =
      if (s.laneNoted n).fld Reg.FAB_DROPLIM 0 8 ≤ (s.laneNoted n).recentDrops n then (s.laneNoted n).laneFail n 3 else s.laneNoted n := by
    simp only [State.laneDrop, State.onlyIf, decide_eq_true_eq]
    rfl
  rw [hd]
  split_ifs
  · exact (s.laneNoted n).laneFail_faults 3 hn
  · exact State.Faults.refl _

theorem State.laneDrop_regs (s : State) {n : Nat} (hn : n < 18) : State.RaisesOnly servedRegs s (s.laneDrop n) :=
  (State.RaisesOnly.of_regs (s := s) (t := s.laneNoted n) rfl).trans ((s.laneDrop_faults hn).regs.mono faultRegs_servedRegs)

theorem State.laneBlamed_regs (s : State) (path : Nat) {lane : Option Nat} (hl : ∀ n ∈ lane, n < 18) :
    State.RaisesOnly servedRegs s (s.laneBlamed path lane) := by
  cases lane with
  | none => exact State.RaisesOnly.refl _ s
  | some n => exact State.RaisesOnly.onlyIf (f := fun s => s.laneDrop n) s _ (s.laneDrop_regs (hl n rfl))

theorem State.dropServed_regs (s : State) (path : Nat) {lane : Option Nat} (use : BlockUse) (hl : ∀ n ∈ lane, n < 18) :
    State.RaisesOnly servedRegs s (s.dropServed path lane use) :=
  ((s.consumerDrop_regs use).trans (State.laneBlamed_regs _ path hl)).trans (State.RaisesOnly.onlyIf _ _ (State.RaisesOnly.of_regs rfl))

/-! ### The fabric's own state -/

theorem State.consumerDrop_fab (s : State) (use : BlockUse) :
    (s.consumerDrop use).fab = { s.fab with want := (s.consumerDrop use).fab.want } := by
  cases use with
  | solver x =>
    cases x with
    | none => exact s.solveHit_faults.fab
    | some x => exact (s.solveHit_faults.trans (s.solveHit.repairLine_faults x.2.toNat (by omega : x.1.val < 64))).fab
  | commit off =>
    have h : (s.commitDrop off.toNat).fab = s.fab := (State.commitDrop_keeps (k := 8) rfl (Keeps.refl s)).fab_same rfl
    simp only [State.consumerDrop, h]
  | _ => rfl

theorem State.laneDrop_head (s : State) {n : Nat} (hn : n < 18) : (s.laneDrop n).fab.laneDrops.head? = some (n, s.lap.count) := by
  rw [(s.laneDrop_faults hn).fab]
  rfl

/-- A drop on path 0 or 1 stands first among those of the lanes. -/
theorem State.dropServed_lane (s : State) {path n : Nat} (use : BlockUse) (hp : path ≤ 1) (hn : n < 18) :
    (s.dropServed path (some n) use).fab.laneDrops.head? = some (n, s.lap.count) := by
  have h1 : decide (path = 3) = false := by simp; omega
  have h2 : (decide (path = 0) || decide (path = 1)) = true := by simp; omega
  have hl : (s.consumerDrop use).lap = s.lap := (State.consumerDrop_keeps (k := 3336) rfl (Keeps.refl s)).lap_same rfl
  simp only [State.dropServed, State.laneBlamed, h1, h2, State.onlyIf_false, State.onlyIf_true]
  rw [State.laneDrop_head _ hn, hl]

/-- A drop on path DRAM stands first among those of the DRAM, and the fourth within 256 laps makes a retraining due. -/
theorem State.dropServed_dram (s : State) (lane : Option Nat) (use : BlockUse) :
    (s.dropServed 3 lane use).fab.dramDrops.head? = some s.lap.count
      ∧ (3 ≤ (s.fab.dramDrops.filter (fun x => s.lap.count < x + 256)).length → (s.dropServed 3 lane use).fab.trainDue = true) := by
  have hb : (s.consumerDrop use).laneBlamed 3 lane = s.consumerDrop use := by cases lane <;> rfl
  have hl : (s.consumerDrop use).lap = s.lap := (State.consumerDrop_keeps (k := 3336) rfl (Keeps.refl s)).lap_same rfl
  have hd : (s.consumerDrop use).fab.dramDrops = s.fab.dramDrops := by rw [s.consumerDrop_fab use]
  have ht : s.dropServed 3 lane use = (s.consumerDrop use).dramDrop := by
    rw [State.dropServed, hb]
    rfl
  rw [ht]
  refine ⟨by simp only [State.dramDrop, hl, List.head?_cons], fun h => ?_⟩
  simp only [State.dramDrop, hl, hd, List.length_cons, Bool.or_eq_true, decide_eq_true_eq]
  exact .inr (Nat.succ_le_succ h)

/-! ### A received block -/

/-- The comparisons of a block have run, and its first sending is charged. -/
def State.compared (s : State) (path cls : Nat) : State := (s.pathInjRan path).charge cls (pathRes path) 1

/-- The state in which the consumer of a dropped block acts. -/
def State.dropTold (s : State) (path cls : Nat) (lane : Option Nat) : State :=
  ((s.compared path cls).resent path cls 5).dropNoted path cls lane

/-- A block that is not dropped leaves the state of its re-sends, but for the charges. -/
theorem State.blockReceive_received {α : Type} (g : State → α) (hg : ∀ (u : State) l, g { u with used := l } = g u) {s : State} {path : Nat}
    {got : List Block} (cls : Nat) (lane : Option Nat) (use : BlockUse) (h : s.failsOf path (got.map Block.bad) < 5) :
    g (s.blockReceive path cls lane use got) = g ((s.compared path cls).resent path cls (s.failsOf path (got.map Block.bad))) := by
  have e := (s.compared path cls).blockFails_eq path cls lane use (s.failsOf path (got.map Block.bad))
  rw [if_pos h] at e
  rw [← e]
  cases use with
  | commit off => exact hg _ _
  | _ => rfl

/-- A dropped one leaves what its drop brings about, but for the charges. -/
theorem State.blockReceive_dropped {α : Type} (g : State → α) (hg : ∀ (u : State) l, g { u with used := l } = g u) {s : State} {path : Nat}
    {got : List Block} (cls : Nat) (lane : Option Nat) (use : BlockUse) (h : s.failsOf path (got.map Block.bad) = 5) :
    g (s.blockReceive path cls lane use got) = g ((s.dropTold path cls lane).dropServed path lane use) := by
  have e := (s.compared path cls).blockFails_eq path cls lane use (s.failsOf path (got.map Block.bad))
  rw [h, if_neg (by decide)] at e
  rw [State.dropTold, ← e, ← h]
  cases use with
  | commit off => exact hg _ _
  | _ => rfl

theorem State.compared_keeps (s : State) (path cls : Nat) : Keeps 8388608 s (s.compared path cls) :=
  State.charge_keeps rfl (State.pathInjRan_keeps rfl (Keeps.refl s))

theorem State.dropTold_keeps (s : State) (path cls : Nat) (lane : Option Nat) : Keeps 8388864 s (s.dropTold path cls lane) :=
  (((s.compared_keeps path cls).trans (State.resent_keeps _ path cls 5)).weaken rfl).trans
    ((State.dropNoted_keeps _ path cls lane).weaken rfl)

theorem State.dropServed_keeps (s : State) (path : Nat) (lane : Option Nat) (use : BlockUse) :
    Keeps 3336 s (s.dropServed path lane use) := by
  refine Keeps.only (fun u hu => State.dramDrop_keeps rfl hu) ?_
  have h : Keeps 3336 s (s.consumerDrop use) := State.consumerDrop_keeps rfl (Keeps.refl s)
  cases lane with
  | none => exact h
  | some n => exact Keeps.only (fun u hu => State.laneDrop_keeps rfl hu) h

theorem State.blockReceive_received_keeps {s : State} {path : Nat} {got : List Block} (cls : Nat) (lane : Option Nat) (use : BlockUse)
    (h : s.failsOf path (got.map Block.bad) < 5) : Keeps 8388608 s (s.blockReceive path cls lane use got) := by
  have hk : Keeps 8388608 s ((s.compared path cls).blockFails path cls lane use (s.failsOf path (got.map Block.bad))) := by
    rw [State.blockFails_eq, if_pos h]
    exact (s.compared_keeps path cls).trans (State.resent_keeps _ path cls _)
  cases use with
  | commit off => exact Keeps.set_used rfl hk
  | _ => exact hk

/-! ### Its registers -/

theorem State.pathInjRan_rd (s : State) (path : Nat) {b : Nat} (h1 : b ≠ Reg.FAB_INJ) (h2 : b ≠ Reg.ZID_CNT_INJ) :
    (s.pathInjRan path).rd b = s.rd b := by
  rw [State.pathInjRan, State.rd_onlyIf, State.injRan_rd _ _ _ _ h1 h2, State.injRan_rd _ _ _ _ h1 h2, ite_self]

theorem State.compared_rd (s : State) (path cls : Nat) {b : Nat} (h1 : b ≠ Reg.FAB_INJ) (h2 : b ≠ Reg.ZID_CNT_INJ) :
    (s.compared path cls).rd b = s.rd b := by
  rw [State.compared, State.charge_rd, State.pathInjRan_rd _ _ h1 h2]

/-- Running one injected test leaves the other bits of its register. -/
theorem State.injRan_bit_apart (s : State) {r i j : Nat} (hj : j < 32) (hij : j ≠ i) (hr : r ≠ Reg.ZID_CNT_INJ) :
    (s.injRan r i).bit r j = s.bit r j := by
  unfold State.injRan
  split
  · simp [hr, bitOf_putBit_apart _ _ _ _ hj hij]
  · rfl

/-- RESEND and DROP clear once a block of their path has been compared (R207). -/
theorem State.compared_inj {s : State} {path : Nat} (cls : Nat) (h : s.injPath path = true) :
    (s.compared path cls).bit Reg.FAB_INJ 0 = false ∧ (s.compared path cls).bit Reg.FAB_INJ 1 = false := by
  have hr : ∀ b, (s.compared path cls).rd b = ((s.injRan Reg.FAB_INJ 0).injRan Reg.FAB_INJ 1).rd b := fun b => by
    rw [State.compared, State.charge_rd, State.pathInjRan, h]
    rfl
  rw [State.bit_eq, State.bit_eq, hr, ← State.bit_eq, ← State.bit_eq]
  refine ⟨?_, State.injRan_bit _ (by decide) (by decide)⟩
  rw [State.injRan_bit_apart _ (by decide) (by decide) (by decide)]
  exact State.injRan_bit _ (by decide) (by decide)

theorem State.dropTold_rd (s : State) {path : Nat} (cls : Nat) (lane : Option Nat) {b : Nat} (hp : path < 5) (hb : b ∉ pinRegs)
    (h1 : b ≠ Reg.FAB_INJ) (h2 : b ≠ Reg.ZID_CNT_INJ) :
    (s.dropTold path cls lane).rd b =
      if b = Reg.FAB_IRQ then putBit ((s.resent path cls 5).rd b) 0 true
      else if b = Reg.FAB_STAT then putBit ((s.resent path cls 5).rd b) 0 true
      else if b = Reg.FAB_LASTDROP then
        BitVec.ofNat 32 (path + cls * 2 ^ 4 + lane.getD 31 * 2 ^ 8 + s.sett.epoch % 2 ^ 16 * 2 ^ 16)
      else if b = Reg.FAB_CNT_DROP_p path then satWordN (((s.resent path cls 5).rd b).toNat + 1) else (s.resent path cls 5).rd b := by
  have hr : ((s.compared path cls).resent path cls 5).rd b = (s.resent path cls 5).rd b := by
    rw [State.resent_rd, State.resent_rd, s.compared_rd path cls h1 h2]
  have he : ((s.compared path cls).resent path cls 5).sett = s.sett :=
    ((s.compared_keeps path cls).trans (State.resent_keeps _ path cls 5)).sett_same rfl
  rw [State.dropTold, State.dropNoted_rd _ cls lane hp hb, hr, he]

/-- The counters of a path lie apart from what follows a drop, and from each other. -/
theorem pathCounters_apart (p : Fin 5) :
    (∀ b ∈ [Reg.FAB_CNT_RESEND_p p.val, Reg.FAB_CNT_DROP_p p.val], b ∉ servedRegs ∧ b ∉ pinRegs ∧ b ≠ Reg.FAB_INJ
        ∧ b ≠ Reg.ZID_CNT_INJ ∧ b ≠ Reg.FAB_IRQ ∧ b ≠ Reg.FAB_STAT ∧ b ≠ Reg.FAB_LASTDROP)
      ∧ Reg.FAB_CNT_RESEND_p p.val ≠ Reg.FAB_CNT_DROP_p p.val := by
  revert p
  decide

/-- The registers that a drop itself changes. -/
def dropRegs : List Nat :=
  [Reg.FAB_IRQ, Reg.FAB_STAT, Reg.FAB_LASTDROP, Reg.FAB_INJ, Reg.ZID_CNT_INJ] ++ pinRegs ++ (List.range 5).map Reg.FAB_CNT_DROP_p
    ++ (List.range 5).map Reg.FAB_CNT_RESEND_p

theorem State.dropTold_keepsRegs (s : State) (path : Fin 5) (cls : Nat) (lane : Option Nat) :
    s.keepsRegs (s.dropTold path.val cls lane) dropRegs := fun b hb => by
  have hd : Reg.FAB_CNT_DROP_p path.val ∈ (List.range 5).map Reg.FAB_CNT_DROP_p := List.mem_map_of_mem (List.mem_range.mpr path.isLt)
  have hr : Reg.FAB_CNT_RESEND_p path.val ∈ (List.range 5).map Reg.FAB_CNT_RESEND_p := List.mem_map_of_mem (List.mem_range.mpr path.isLt)
  simp only [dropRegs, List.mem_append, List.mem_cons, List.not_mem_nil, or_false, not_or] at hb
  obtain ⟨⟨⟨⟨h1, h2, h3, h4, h5⟩, hp⟩, h6⟩, h7⟩ := hb
  have h8 : b ≠ Reg.FAB_CNT_DROP_p path.val := fun e => h6 (e ▸ hd)
  have h9 : b ≠ Reg.FAB_CNT_RESEND_p path.val := fun e => h7 (e ▸ hr)
  rw [State.dropTold_rd s cls lane path.isLt hp h4 h5, if_neg h1, if_neg h2, if_neg h3, if_neg h8, State.resent_rd, if_neg h9]

theorem State.dropTold_resends (s : State) (path : Fin 5) (cls : Nat) (lane : Option Nat) :
    (s.dropTold path.val cls lane).rd (Reg.FAB_CNT_RESEND_p path.val) = satWordN ((s.rd (Reg.FAB_CNT_RESEND_p path.val)).toNat + 4) := by
  obtain ⟨hap, hne⟩ := pathCounters_apart path
  obtain ⟨-, hpin, h1, h2, h3, h4, h5⟩ := hap _ List.mem_cons_self
  rw [State.dropTold_rd s cls lane path.isLt hpin h1 h2, if_neg h3, if_neg h4, if_neg h5, if_neg hne, State.resent_rd, if_pos rfl]
  rfl

theorem State.dropTold_drops (s : State) (path : Fin 5) (cls : Nat) (lane : Option Nat) :
    (s.dropTold path.val cls lane).rd (Reg.FAB_CNT_DROP_p path.val) = satWordN ((s.rd (Reg.FAB_CNT_DROP_p path.val)).toNat + 1) := by
  obtain ⟨hap, hne⟩ := pathCounters_apart path
  obtain ⟨-, hpin, h1, h2, h3, h4, h5⟩ := hap _ (List.mem_cons_of_mem _ List.mem_cons_self)
  rw [State.dropTold_rd s cls lane path.isLt hpin h1 h2, if_neg h3, if_neg h4, if_neg h5, if_pos rfl, State.resent_rd, if_neg hne.symm]

/-! ### A dropped block of an NV write (R427) -/

theorem State.leftUnwritten_regs (s : State) (slot : Nat) (l : List (Nat × Word)) : (s.leftUnwritten slot l).regs = s.regs := by
  have hp : s.wsPoison.regs = s.regs := by
    unfold State.wsPoison
    split <;> rfl
  unfold State.leftUnwritten
  generalize (l.any _ && _) = c
  cases c
  · rfl
  · exact hp

theorem State.opPartial_rd (s : State) (src : Src) (op : Nat) (info : Word) (epoch : Nat) {b : Nat} (hb : b ∉ hostRegs)
    (hp : b ≠ Reg.HWP_CNT_PARTIAL) : (s.opPartial src op info epoch).rd b = s.rd b := by
  simp only [hostRegs, List.mem_cons, List.not_mem_nil, or_false, not_or] at hb
  obtain ⟨-, h2, h3, -⟩ := hb
  rw [State.opPartial, State.answerOp_rd _ _ _ _ _ h2 h3, State.rd_count, if_neg hp, State.rd_setBit, if_neg h3]

/-- The end of a request changes registers of the host window protocol and of a sealed set alone. -/
theorem State.wordsEnd_rd (s : State) (j : NvJob) (done : Nat) (rest : List (Nat × Word)) {b : Nat} (hb : b ∉ hostRegs)
    (hp : b ≠ Reg.HWP_CNT_PARTIAL) : (s.wordsEnd j done rest).rd b = s.rd b := by
  have hw := hb
  simp only [hostRegs, List.mem_cons, List.not_mem_nil, or_false, not_or] at hw
  obtain ⟨-, -, -, h4, h5, h6⟩ := hw
  unfold State.wordsEnd
  split
  · rw [State.opOk_rd _ _ _ _ _ _ _ hb, State.wsServed_rd _ _ _ h4 h5 h6]
  · rw [State.opPartial_rd _ _ _ _ _ hb hp, State.wsServed_rd _ _ _ h4 h5 h6, State.rd_congr (State.leftUnwritten_regs _ _ _)]

theorem State.nvBlockDropped_rd (s : State) {b : Nat} (hb : b ∉ hostRegs) (hp : b ≠ Reg.HWP_CNT_PARTIAL) :
    s.nvBlockDropped.rd b =
      if b = Reg.NVS_CNT_DROP then satWordN ((s.rd b).toNat + 1)
      else if b = Reg.NVS_STAT then putBit (s.rd b) 2 true else s.rd b := by
  have h1 : ((s.setBit Reg.NVS_STAT 2 true).count Reg.NVS_CNT_DROP).rd b =
      if b = Reg.NVS_CNT_DROP then satWordN ((s.rd b).toNat + 1)
      else if b = Reg.NVS_STAT then putBit (s.rd b) 2 true else s.rd b := by
    rw [State.rd_count, State.rd_setBit, State.rd_setBit, if_neg (by decide : Reg.NVS_CNT_DROP ≠ Reg.NVS_STAT)]
    split_ifs with e e'
    · rw [e]
    · rw [e']
    · rfl
  unfold State.nvBlockDropped
  split
  · exact h1
  · rw [State.wordsEnd_rd _ _ _ _ hb hp]
    exact h1

theorem State.nvBlockDropped_nv (s : State) : s.nvBlockDropped.nv = { s.nv with jobs := s.nv.jobs.drop 1 } := by
  have he : ∀ (u : State) (j : NvJob) (done : Nat) (rest : List (Nat × Word)), (u.wordsEnd j done rest).nv = u.nv :=
    fun u j done rest => (State.wordsEnd_keeps (k := 8388683) rfl (Keeps.refl u)).nv_same rfl
  unfold State.nvBlockDropped
  cases h : s.nv.jobs with
  | nil =>
    change s.nv = _
    rw [List.drop_nil, ← h]
  | cons j t => exact he _ _ _ _

theorem State.nvBlockDropped_fab (s : State) : s.nvBlockDropped.fab = s.fab :=
  (State.nvBlockDropped_keeps (k := 8388715) rfl (Keeps.refl s)).fab_same rfl

/-! ### What a received block leaves -/

theorem exec_blockReceive {s : State} (hs : s.supplied) (path : Fin 5) (cls : Fin 12) (lane : Option (Fin 18)) (use : BlockUse)
    (got : List Block) :
    exec (.blockReceive path cls lane use got) s = .next (s.clearSent.blockTaken path.val cls.val (lane.map (·.val)) use got) :=
  show execBlockReceive path cls lane use got s = _ from State.act_supplied hs

/-- Only a dropped block of an NV write acts beyond the fabric. -/
theorem State.blockTaken_eq {s : State} {path : Nat} {got : List Block} (cls : Nat) (lane : Option Nat) {use : BlockUse}
    (h : s.failsOf path (got.map Block.bad) < 5 ∨ use ≠ .nvWrite) :
    s.blockTaken path cls lane use got = s.blockReceive path cls lane use got := by
  have hc : (s.failsOf path (got.map Block.bad) == 5 && use == .nvWrite) = false := by
    rcases h with h | h
    · rw [beq_eq_false_iff_ne.mpr h.ne, Bool.false_and]
    · rw [beq_eq_false_iff_ne.mpr h, Bool.and_false]
  rw [State.blockTaken, hc, State.onlyIf_false]

theorem State.blockTaken_nvWrite {s : State} {path : Nat} {got : List Block} (cls : Nat) (lane : Option Nat)
    (h : s.failsOf path (got.map Block.bad) = 5) :
    s.blockTaken path cls lane .nvWrite got = (s.blockReceive path cls lane .nvWrite got).nvBlockDropped := by
  rw [State.blockTaken, h]
  rfl

/-- The registers that an NV write's dropped block changes beyond the fabric. -/
def nvDropRegs : List Nat := Reg.HWP_CNT_PARTIAL :: Reg.NVS_CNT_DROP :: Reg.NVS_STAT :: hostRegs

theorem State.blockTaken_rd (s : State) (path cls : Nat) (lane : Option Nat) (use : BlockUse) (got : List Block) {b : Nat}
    (hb : b ∉ nvDropRegs) : (s.blockTaken path cls lane use got).rd b = (s.blockReceive path cls lane use got).rd b := by
  simp only [nvDropRegs, List.mem_cons, not_or] at hb
  obtain ⟨h1, h2, h3, h4⟩ := hb
  rw [State.blockTaken, State.rd_onlyIf, State.nvBlockDropped_rd _ h4 h1, if_neg h2, if_neg h3, ite_self]

theorem State.blockTaken_fab (s : State) (path cls : Nat) (lane : Option Nat) (use : BlockUse) (got : List Block) :
    (s.blockTaken path cls lane use got).fab = (s.blockReceive path cls lane use got).fab := by
  unfold State.blockTaken State.onlyIf
  split
  · exact State.nvBlockDropped_fab _
  · rfl

section
variable {s : State} {path : Fin 5} {got : List Block} (cls : Nat) {lane : Option Nat} (use : BlockUse)

/-- After a drop a register that what follows leaves alone reads as the drop left it. -/
theorem State.blockTaken_dropped_rd (h : s.failsOf path.val (got.map Block.bad) = 5) (hl : ∀ n ∈ lane, n < 18) {b : Nat}
    (hn : b ∉ nvDropRegs) (hb : b ∉ servedRegs) :
    (s.blockTaken path.val cls lane use got).rd b = (s.dropTold path.val cls lane).rd b := by
  rw [State.blockTaken_rd _ _ _ _ _ _ hn, State.blockReceive_dropped (·.rd b) (fun _ _ => rfl) cls lane use h,
    (State.dropServed_regs _ path.val use hl).others b hb]

theorem State.blockTaken_received_rd (h : s.failsOf path.val (got.map Block.bad) < 5) (b : Nat) :
    (s.blockTaken path.val cls lane use got).rd b =
      ((s.compared path.val cls).resent path.val cls (s.failsOf path.val (got.map Block.bad))).rd b := by
  rw [State.blockTaken_eq _ _ (.inl h), State.blockReceive_received (·.rd b) (fun _ _ => rfl) cls lane use h]

theorem pathCounters_nvDropRegs (p : Fin 5) : Reg.FAB_CNT_RESEND_p p.val ∉ nvDropRegs ∧ Reg.FAB_CNT_DROP_p p.val ∉ nvDropRegs := by
  revert p
  decide

/-- The re-sends are counted (R185). -/
theorem State.blockTaken_resends (hl : ∀ n ∈ lane, n < 18) :
    (s.blockTaken path.val cls lane use got).nat (Reg.FAB_CNT_RESEND_p path.val)
      = min 0xFFFFFFFF (s.nat (Reg.FAB_CNT_RESEND_p path.val) + min 4 (s.failsOf path.val (got.map Block.bad))) := by
  obtain ⟨hap, -⟩ := pathCounters_apart path
  obtain ⟨hserved, -, h1, h2, -⟩ := hap _ List.mem_cons_self
  rcases (s.failsOf_le path.val (got.map Block.bad)).lt_or_eq with h | h
  · rw [State.nat_eq, State.blockTaken_received_rd cls use h, State.resent_rd, if_pos rfl, State.compared_rd _ _ _ h1 h2, satWordN_toNat]
    rfl
  · rw [State.nat_eq, State.blockTaken_dropped_rd cls use h hl (pathCounters_nvDropRegs path).1 hserved, State.dropTold_resends,
      satWordN_toNat, h]
    rfl

/-- A drop is counted (R186). -/
theorem State.blockTaken_drops (hl : ∀ n ∈ lane, n < 18) :
    (s.blockTaken path.val cls lane use got).nat (Reg.FAB_CNT_DROP_p path.val)
      = min 0xFFFFFFFF (s.nat (Reg.FAB_CNT_DROP_p path.val) + (s.failsOf path.val (got.map Block.bad) == 5).toNat) := by
  obtain ⟨hap, hne⟩ := pathCounters_apart path
  obtain ⟨hserved, -, h1, h2, -⟩ := hap _ (List.mem_cons_of_mem _ List.mem_cons_self)
  rcases (s.failsOf_le path.val (got.map Block.bad)).lt_or_eq with h | h
  · rw [State.nat_eq, State.blockTaken_received_rd cls use h, State.resent_rd, if_neg hne.symm, State.compared_rd _ _ _ h1 h2,
      beq_eq_false_iff_ne.mpr h.ne]
    exact (min_eq_right (s.rd _).isLt.le_pred).symm
  · rw [State.nat_eq, State.blockTaken_dropped_rd cls use h hl (pathCounters_nvDropRegs path).2 hserved, State.dropTold_drops,
      satWordN_toNat, h]
    rfl

/-- RESEND and DROP of the path's own injection have cleared (R207). -/
theorem State.blockTaken_inj (hl : ∀ n ∈ lane, n < 18) (hi : s.injPath path.val = true) :
    (s.blockTaken path.val cls lane use got).bit Reg.FAB_INJ 0 = false
      ∧ (s.blockTaken path.val cls lane use got).bit Reg.FAB_INJ 1 = false := by
  have hr : ∀ p : Fin 5, Reg.FAB_INJ ≠ Reg.FAB_CNT_RESEND_p p.val ∧ Reg.FAB_INJ ≠ Reg.FAB_CNT_DROP_p p.val := by decide
  have hrd : (s.blockTaken path.val cls lane use got).rd Reg.FAB_INJ = (s.compared path.val cls).rd Reg.FAB_INJ := by
    rcases (s.failsOf_le path.val (got.map Block.bad)).lt_or_eq with h | h
    · rw [State.blockTaken_received_rd cls use h, State.resent_rd, if_neg (hr path).1]
    · rw [State.blockTaken_dropped_rd cls use h hl (by decide) (by decide), State.dropTold,
        State.dropNoted_rd _ cls lane path.isLt (by decide), if_neg (by decide), if_neg (by decide), if_neg (by decide),
        if_neg (hr path).2, State.resent_rd, if_neg (hr path).1]
  rw [State.bit_eq, State.bit_eq, hrd]
  exact State.compared_inj cls hi

/-- A drop is recorded, flagged and raised. -/
theorem State.blockTaken_drop_shows (h : s.failsOf path.val (got.map Block.bad) = 5) (hl : ∀ n ∈ lane, n < 18) :
    (s.blockTaken path.val cls lane use got).rd Reg.FAB_LASTDROP
        = BitVec.ofNat 32 (path.val + cls * 2 ^ 4 + lane.getD 31 * 2 ^ 8 + s.sett.epoch % 2 ^ 16 * 2 ^ 16)
      ∧ (s.blockTaken path.val cls lane use got).bit Reg.FAB_STAT 0 = true
      ∧ (s.blockTaken path.val cls lane use got).bit Reg.FAB_IRQ 0 = true := by
  have hflag : ∀ r, r = Reg.FAB_STAT ∨ r = Reg.FAB_IRQ → (s.blockTaken path.val cls lane use got).bit r 0 = true := fun r hr => by
    have hn : r ∉ nvDropRegs := by rcases hr with rfl | rfl <;> decide
    have ht : (s.dropTold path.val cls lane).bit r 0 = true := by
      rcases hr with rfl | rfl
      · rw [State.bit_eq, State.dropTold_rd s cls lane path.isLt (by decide) (by decide) (by decide), if_neg (by decide), if_pos rfl]
        exact bitOf_putBit_same _ _ _ (by decide)
      · rw [State.bit_eq, State.dropTold_rd s cls lane path.isLt (by decide) (by decide) (by decide), if_pos rfl]
        exact bitOf_putBit_same _ _ _ (by decide)
    rw [State.bit_eq, State.blockTaken_rd _ _ _ _ _ _ hn, State.blockReceive_dropped (·.rd r) (fun _ _ => rfl) cls lane use h]
    exact (State.dropServed_regs _ path.val use hl).flags r hr 0 (by decide) ht
  refine ⟨?_, hflag _ (.inl rfl), hflag _ (.inr rfl)⟩
  rw [State.blockTaken_dropped_rd cls use h hl (by decide) (by decide),
    State.dropTold_rd s cls lane path.isLt (by decide) (by decide) (by decide), if_neg (by decide), if_neg (by decide), if_pos rfl]

theorem State.blockTaken_dropped_fab (h : s.failsOf path.val (got.map Block.bad) = 5) :
    (s.blockTaken path.val cls lane use got).fab = ((s.dropTold path.val cls lane).dropServed path.val lane use).fab := by
  rw [State.blockTaken_fab, State.blockReceive_dropped State.fab (fun _ _ => rfl) cls lane use h]

/-- A drop stands first among those of its lane, on path 0 or 1 (R188). -/
theorem State.blockTaken_drop_lane (h : s.failsOf path.val (got.map Block.bad) = 5) (hl : ∀ n ∈ lane, n < 18) (hp : path.val ≤ 1)
    (hs : lane.isSome = true) :
    (s.blockTaken path.val cls lane use got).fab.laneDrops.head? = some (lane.getD 31, s.lap.count) := by
  obtain ⟨n, rfl⟩ := Option.isSome_iff_exists.mp hs
  rw [State.blockTaken_dropped_fab cls use h, State.dropServed_lane _ use hp (hl n rfl), (s.dropTold_keeps path.val cls _).lap_same rfl]
  rfl

/-- A drop on path DRAM stands first among the DRAM's, and the fourth within 256 laps makes a retraining due (R201). -/
theorem State.blockTaken_drop_dram (h : s.failsOf path.val (got.map Block.bad) = 5) (hp : path.val = 3) :
    (s.blockTaken path.val cls lane use got).fab.dramDrops.head? = some s.lap.count
      ∧ (3 ≤ (s.fab.dramDrops.filter (fun x => s.lap.count < x + 256)).length →
          (s.blockTaken path.val cls lane use got).fab.trainDue = true) := by
  have hk := s.dropTold_keeps path.val cls lane
  have hd := (s.dropTold path.val cls lane).dropServed_dram lane use
  rw [hk.lap_same rfl, hk.fab_same rfl] at hd
  rw [State.blockTaken_dropped_fab cls use h, hp]
  rw [hp] at hd
  exact hd

/-- A block that is not dropped changes its path's count of re-sends and its injection alone. -/
theorem State.blockTaken_received_keepsRegs (h : s.failsOf path.val (got.map Block.bad) < 5) :
    s.keepsRegs (s.blockTaken path.val cls lane use got) [Reg.FAB_CNT_RESEND_p path.val, Reg.FAB_INJ, Reg.ZID_CNT_INJ] := fun a ha => by
  simp only [List.mem_cons, List.not_mem_nil, or_false, not_or] at ha
  obtain ⟨h1, h2, h3⟩ := ha
  rw [State.blockTaken_received_rd cls use h, State.resent_rd, if_neg h1, State.compared_rd _ _ _ h2 h3]

/-- A block that is not the commit's is charged with its first sending and each re-send. -/
theorem State.blockReceive_used (hc : ∀ off, use ≠ .commit off) :
    (s.blockReceive path.val cls lane use got).used
      = ((s.charge cls (pathRes path.val) 1).charge cls (pathRes path.val) (min 4 (s.failsOf path.val (got.map Block.bad)))).used := by
  have hu : (s.blockReceive path.val cls lane use got).used
      = ((s.compared path.val cls).blockFails path.val cls lane use (s.failsOf path.val (got.map Block.bad))).used := by
    cases use with
    | commit off => exact absurd rfl (hc off)
    | _ => rfl
  have hs : ∀ u : State, ((u.dropNoted path.val cls lane).dropServed path.val lane use).used = u.used := fun u =>
    ((State.dropServed_keeps _ path.val lane use).used_same rfl).trans ((u.dropNoted_keeps path.val cls lane).used_same rfl)
  have hcmp : (s.compared path.val cls).used = (s.charge cls (pathRes path.val) 1).used :=
    State.charge_used_congr (pathRes_ne _) ((State.pathInjRan_keeps (k := 0) rfl (Keeps.refl s)).used_same rfl)
  have hr : ((s.compared path.val cls).resent path.val cls (s.failsOf path.val (got.map Block.bad))).used
      = ((s.charge cls (pathRes path.val) 1).charge cls (pathRes path.val) (min 4 (s.failsOf path.val (got.map Block.bad)))).used :=
    State.charge_used_congr (pathRes_ne _) hcmp
  rw [hu, State.blockFails_eq, ← hr]
  split_ifs
  · rfl
  · exact hs _

theorem State.consumerDrop_sett (u : State) (hc : ∀ off, use ≠ .commit off) : (u.consumerDrop use).sett = u.sett := by
  cases use with
  | commit off => exact absurd rfl (hc off)
  | solver x =>
    have hh : u.solveHit.sett = u.sett := (State.solveHit_keeps (k := 1024) rfl (Keeps.refl u)).sett_same rfl
    cases x with
    | none => exact hh
    | some x => exact ((State.repairLine_keeps (k := 3328) rfl (Keeps.refl _)).sett_same rfl).trans hh
  | _ => rfl

/-- The setts stay, but for a block of the commit. -/
theorem State.blockReceive_sett (hc : ∀ off, use ≠ .commit off) : (s.blockReceive path.val cls lane use got).sett = s.sett := by
  rcases (s.failsOf_le path.val (got.map Block.bad)).lt_or_eq with h | h
  · exact (State.blockReceive_received_keeps cls lane use h).sett_same rfl
  · have hb : ∀ u : State, ((u.laneBlamed path.val lane).onlyIf (path.val = 3) State.dramDrop).sett = u.sett := fun u => by
      have hk : Keeps 3328 u (u.laneBlamed path.val lane) := by
        cases lane with
        | none => exact Keeps.refl u
        | some n => exact Keeps.only (fun w hw => State.laneDrop_keeps rfl hw) (Keeps.refl u)
      exact (Keeps.only (fun w hw => State.dramDrop_keeps rfl hw) hk).sett_same rfl
    rw [State.blockReceive_dropped State.sett (fun _ _ => rfl) cls lane use h, State.dropServed, hb, State.consumerDrop_sett _ _ hc,
      (s.dropTold_keeps path.val cls lane).sett_same rfl]

end

theorem State.failsOf_clearSent (s : State) (path : Nat) (bad : List Bool) : s.clearSent.failsOf path bad = s.failsOf path bad := by
  rw [State.failsOf_eq, State.failsOf_eq]
  rfl

theorem lane_lt (lane : Option (Fin 18)) : ∀ n ∈ lane.map (·.val), n < 18 := by
  cases lane with
  | none => exact fun _ h => nomatch h
  | some l => exact fun _ h => Option.some.inj h ▸ l.isLt

/-- A received block: re-sends, a drop, its record and its charges (R185, R186, R207). -/
theorem blockReceive_receives (path : Fin 5) (cls : Fin 12) (lane : Option (Fin 18)) (use : BlockUse) (got : List Block) (s : State)
    (hs : s.supplied) :
    ∃ t, exec (.blockReceive path cls lane use got) s = .next t
      ∧ (let inj := decide (s.fld Reg.FAB_INJ 8 3 = path.val)
         let told := ((got.map (fun b => crc32c b.data != b.crc)) ++ List.replicate 5 false).take 5
         let bad := if inj && s.bit Reg.FAB_INJ 1 then told.map (fun b => !b) else if inj && s.bit Reg.FAB_INJ 0 then (told.take 1).map (fun b => !b) ++ told.drop 1 else told
         let n := (bad.takeWhile id).length
         let res := if path.val = 3 then resDram else resFab
         let commit := match use with | .commit _ => true | _ => false
         s.failsOf path.val (got.map Block.bad) = n
         ∧ t.nat (Reg.FAB_CNT_RESEND_p path.val) = min 0xFFFFFFFF (s.nat (Reg.FAB_CNT_RESEND_p path.val) + min 4 n)
         ∧ t.nat (Reg.FAB_CNT_DROP_p path.val) = min 0xFFFFFFFF (s.nat (Reg.FAB_CNT_DROP_p path.val) + (n == 5).toNat)
         ∧ (inj = true → t.bit Reg.FAB_INJ 0 = false ∧ t.bit Reg.FAB_INJ 1 = false)
         ∧ (commit = true → t.used = s.used) ∧ (commit = false → use ≠ .nvWrite → t.used = ((s.charge cls.val res 1).charge cls.val res (min 4 n)).used)
         ∧ (n < 5 → s.keepsRegs t [Reg.FAB_CNT_RESEND_p path.val, Reg.FAB_INJ, Reg.ZID_CNT_INJ] ∧ s.keepsParts t [.sent, .used])
         ∧ (n = 5 → t.rd Reg.FAB_LASTDROP
                = BitVec.ofNat 32 (path.val + cls.val * 2 ^ 4 + ((lane.map (·.val)).getD 31) * 2 ^ 8 + s.sett.epoch % 2 ^ 16 * 2 ^ 16)
              ∧ t.bit Reg.FAB_STAT 0 = true ∧ t.bit Reg.FAB_IRQ 0 = true
              ∧ (path.val ≤ 1 → lane.isSome = true → t.fab.laneDrops.head? = some ((lane.map (·.val)).getD 31, s.lap.count))
              ∧ (path.val = 3 → t.fab.dramDrops.head? = some s.lap.count ∧ (3 ≤ (s.fab.dramDrops.filter (fun x => s.lap.count < x + 256)).length → t.fab.trainDue = true)))
         ∧ (commit = false → use ≠ .nvWrite → t.sett = s.sett))
      ∧ (use ≠ .nvWrite → t.answer = s.answer ∧ t.sent = [] ∧ t.nv = s.nv ∧ t.hwp = s.hwp)
      ∧ s.keepsParts t [.answer, .sent, .sett, .nv, .hwp, .zid, .dsp, .fab, .used] := by
  have ht := exec_blockReceive hs path cls lane use got
  have hl := lane_lt lane
  have hle := s.clearSent.failsOf_le path.val (got.map Block.bad)
  refine ⟨_, ht, ?_, fun hu => ?_, (execBlockReceive_keeps (k := 8392043) rfl ht).parts _ (fun p => by cases p <;> decide)⟩
  · intro inj told bad n res commit
    have hs0 : s.failsOf path.val (got.map Block.bad) = n := State.failsOf_eq s path.val _
    have hn : s.clearSent.failsOf path.val (got.map Block.bad) = n := (s.failsOf_clearSent _ _).trans hs0
    have hcommit : commit = false → ∀ off, use ≠ .commit off := fun h off e => by
      simp [commit, e] at h
    clear_value n
    refine ⟨hs0, ?_, ?_, fun hi => State.blockTaken_inj (s := s.clearSent) cls.val use hl hi, fun hc => ?_, fun hc hu => ?_, fun h5 => ?_, fun h5 => ?_, fun hc hu => ?_⟩
    · exact hn ▸ State.blockTaken_resends (s := s.clearSent) cls.val use hl
    · exact hn ▸ State.blockTaken_drops (s := s.clearSent) cls.val use hl
    · obtain ⟨off, rfl⟩ : ∃ off, use = .commit off := by
        cases use with
        | commit off => exact ⟨off, rfl⟩
        | _ => exact nomatch hc
      rw [State.blockTaken_eq _ _ (.inr (by simp))]
      rfl
    · rw [State.blockTaken_eq _ _ (.inr hu), ← hn]
      exact (State.blockReceive_used (s := s.clearSent) cls.val use (hcommit hc)).trans
        (State.charge_used_congr (pathRes_ne _) (State.charge_used_congr (pathRes_ne _) rfl))
    · have h5' : s.clearSent.failsOf path.val (got.map Block.bad) < 5 := hn ▸ h5
      have hk : Keeps 8388610 s (s.clearSent.blockReceive path.val cls.val (lane.map (·.val)) use got) :=
        (State.clearSent_keeps rfl (Keeps.refl s)).trans ((State.blockReceive_received_keeps _ _ use h5').weaken rfl)
      refine ⟨State.blockTaken_received_keepsRegs (s := s.clearSent) cls.val use h5', ?_⟩
      rw [State.blockTaken_eq _ _ (.inl h5')]
      exact hk.parts _ (fun p => by cases p <;> decide)
    · have h5' : s.clearSent.failsOf path.val (got.map Block.bad) = 5 := hn.trans h5
      obtain ⟨hrec, hstat, hirq⟩ := State.blockTaken_drop_shows (s := s.clearSent) cls.val use h5' hl
      exact ⟨hrec, hstat, hirq, fun hp hsome => State.blockTaken_drop_lane cls.val use h5' hl hp (by simpa using hsome),
        fun hp => State.blockTaken_drop_dram cls.val use h5' hp⟩
    · rw [State.blockTaken_eq _ _ (.inr hu)]
      exact State.blockReceive_sett cls.val use (hcommit hc)
  · rw [State.blockTaken_eq _ _ (.inr hu)]
    have hk : Keeps 8391944 s.clearSent (s.clearSent.blockReceive path.val cls.val (lane.map (·.val)) use got) :=
      State.blockReceive_keeps rfl (Keeps.refl _)
    exact ⟨hk.answer_same rfl, hk.sent_same rfl, hk.nv_same rfl, hk.hwp_same rfl⟩

/-! ### The consumer of a dropped block (Table 2) -/

/-- The content that a dropped block of the commit keeps: that of the previous sett. -/
def State.previousBytes (s : State) : Tab 8 := (s.sett.held.head?.map (·.bytes)).getD []

theorem State.commitDrop_some {s : State} {f : Sett} (hf : s.sett.fresh = some f) (off : Nat) :
    (s.commitDrop off).sett.fresh
      = some { f with bytes := tabSetList 0#8 f.bytes (off / 64 * 64) (bytesAt (tabGet 0#8 s.previousBytes) (off / 64 * 64) 64) } := by
  unfold State.commitDrop State.previousBytes
  rw [hf]
  cases s.sett.held.head? <;> rfl

/-- Of a copied block of 64 bytes those of the block read as in the source, and every other as before. -/
theorem tabGet_copyBlock (old t : Tab 8) (off a : Nat) :
    tabGet 0#8 (tabSetList 0#8 t (off / 64 * 64) (bytesAt (tabGet 0#8 old) (off / 64 * 64) 64)) a
      = if off / 64 = a / 64 then tabGet 0#8 old a else tabGet 0#8 t a := by
  have hlen : (bytesAt (tabGet 0#8 old) (off / 64 * 64) 64).length = 64 := by simp [bytesAt]
  rw [tabGet_tabSetList, hlen]
  by_cases h : off / 64 = a / 64
  · have hr : off / 64 * 64 ≤ a ∧ a < off / 64 * 64 + 64 := by omega
    have hi : a - off / 64 * 64 < 64 := by omega
    have ha : off / 64 * 64 + (a - off / 64 * 64) = a := by omega
    rw [if_pos hr, if_pos h, bytesAt, List.getD_eq_getElem?_getD, List.getElem?_map, List.getElem?_range hi, Option.map_some,
      Option.getD_some, ha]
  · rw [if_neg (by omega), if_neg h]

section
variable {s : State} {path : Fin 5} {got : List Block} (cls : Nat)

/-- With no lane to blame, what the DRAM's own record leaves alone is as the consumer leaves it. -/
theorem State.blockTaken_consumer {α : Type} (g : State → α) (hu : ∀ (u : State) l, g { u with used := l } = g u)
    (hd : ∀ u : State, g u.dramDrop = g u) {use : BlockUse} (hn : use ≠ .nvWrite) (h : s.failsOf path.val (got.map Block.bad) = 5) :
    g (s.blockTaken path.val cls none use got) = g ((s.dropTold path.val cls none).consumerDrop use) := by
  rw [State.blockTaken_eq _ _ (.inr hn), State.blockReceive_dropped g hu cls none use h, State.dropServed, State.laneBlamed]
  cases decide (path.val = 3)
  · rfl
  · exact hd _

theorem State.blockTaken_consumer_rd {use : BlockUse} (hn : use ≠ .nvWrite) (h : s.failsOf path.val (got.map Block.bad) = 5) (b : Nat) :
    (s.blockTaken path.val cls none use got).rd b = ((s.dropTold path.val cls none).consumerDrop use).rd b :=
  State.blockTaken_consumer cls (·.rd b) (fun _ _ => rfl) (fun _ => rfl) hn h

variable (h : s.failsOf path.val (got.map Block.bad) = 5)
include h

theorem State.blockTaken_history (back : Fin 17) (node : BitVec 13) :
    (s.blockTaken path.val cls none (.history back node) got).dsp
      = { s.dsp with histGone := (back.val, node.toNat) :: s.dsp.histGone } := by
  rw [State.blockTaken_consumer cls State.dsp (fun _ _ => rfl) (fun _ => rfl) (by simp) h,
    ← (s.dropTold_keeps path.val cls none).dsp_same rfl]
  rfl

/-- The iteration in which a block of the solver was dropped is hit (R145). -/
theorem State.blockTaken_solver_hit (x : Option (Fin 50 × BitVec 14)) {v : Solve} (hv : s.dsp.solve = some v) (hr : v.running = true)
    (ha : v.assembled = true) : (s.blockTaken path.val cls none (.solver x) got).dsp.solve.map (·.dropped) = some true := by
  have hdsp : (s.dropTold path.val cls none).dsp = s.dsp := (s.dropTold_keeps path.val cls none).dsp_same rfl
  have hhit := State.solveHit_dropped (s := s.dropTold path.val cls none) (hdsp ▸ hv) hr ha
  rw [State.blockTaken_consumer cls State.dsp (fun _ _ => rfl) (fun _ => rfl) (by simp) h]
  cases x with
  | none => exact hhit
  | some x => exact (State.repairLine_faults _ x.2.toNat (by omega : x.1.val < 64)).hit hhit

/-- The line that a dropped block was read from is marked for repair. -/
theorem State.blockTaken_solver_want (p : Fin 50) (i : BitVec 14) :
    (s.blockTaken path.val cls none (.solver (some (p, i))) got).fab.want = s.fab.want.lineRepaired p.val i.toNat := by
  rw [State.blockTaken_consumer cls (·.fab.want) (fun _ _ => rfl) (fun _ => rfl) (by simp) h, State.consumerDrop, State.repairLine_want,
    State.solveHit_fab, (s.dropTold_keeps path.val cls none).fab_same rfl]

theorem State.blockTaken_can (c : Fin 4) :
    (s.blockTaken path.val cls none (.canBuf c) got).bit (Reg.CAN_STAT c.val) 4 = true
      ∧ (s.blockTaken path.val cls none (.canBuf c) got).nat (Reg.CAN_CNT_RXDROP c.val)
        = min 0xFFFFFFFF (s.nat (Reg.CAN_CNT_RXDROP c.val) + 1) := by
  have hap : ∀ c : Fin 4, Reg.CAN_CNT_RXDROP c.val ≠ Reg.CAN_STAT c.val ∧ Reg.CAN_CNT_RXDROP c.val ∉ dropRegs := by decide
  obtain ⟨hne, hd⟩ := hap c
  rw [State.bit_eq, State.nat_eq, State.blockTaken_consumer_rd cls (by simp) h, State.blockTaken_consumer_rd cls (by simp) h,
    State.consumerDrop, State.rd_setBit _ _ _ (Reg.CAN_STAT c.val), if_pos rfl, State.rd_setBit, if_neg hne,
    State.rd_count _ _ (Reg.CAN_CNT_RXDROP c.val), if_pos rfl, s.dropTold_keepsRegs path cls none _ hd, satWordN_toNat]
  exact ⟨bitOf_putBit_same _ _ _ (by decide), rfl⟩

theorem State.blockTaken_eth (p : Fin 3) :
    (s.blockTaken path.val cls none (.ethBuf p) got).nat (Reg.ETH_PORT_p_CNT_RXERR p.val)
      = min 0xFFFFFFFF (s.nat (Reg.ETH_PORT_p_CNT_RXERR p.val) + 1) := by
  have hap : ∀ p : Fin 3, Reg.ETH_PORT_p_CNT_RXERR p.val ∉ dropRegs := by decide
  rw [State.nat_eq, State.blockTaken_consumer_rd cls (by simp) h, State.consumerDrop, State.rd_count, if_pos rfl,
    s.dropTold_keepsRegs path cls none _ (hap p), satWordN_toNat]
  rfl

theorem State.blockTaken_image :
    (s.blockTaken path.val cls none .image got).nat Reg.FAB_CNT_DRAMFIX = min 0xFFFFFFFF (s.nat Reg.FAB_CNT_DRAMFIX + 1) := by
  rw [State.nat_eq, State.blockTaken_consumer_rd cls (by simp) h, State.consumerDrop, State.dramFix, State.rd_count, if_pos rfl,
    s.dropTold_keepsRegs path cls none _ (by decide), satWordN_toNat]
  rfl

theorem State.blockTaken_commit_flag (off : BitVec 21) : (s.blockTaken path.val cls none (.commit off) got).bit Reg.FAB_STAT 8 = true := by
  rw [State.bit_eq, State.blockTaken_consumer_rd cls (by simp) h, State.consumerDrop, State.rd_congr (State.commitDrop_regs _ _),
    State.rd_setBit, if_pos rfl]
  exact bitOf_putBit_same _ _ _ (by decide)

/-- A dropped block of the commit keeps the previous sett's content (R186, Table 2). -/
theorem State.blockTaken_commit_bytes (off : BitVec 21) {f : Sett} (hf : s.sett.fresh = some f) (a : Nat) :
    tabGet 0#8 (((s.blockTaken path.val cls none (.commit off) got).sett.fresh.map (·.bytes)).getD []) a
      = if off.toNat / 64 = a / 64 then tabGet 0#8 s.previousBytes a else tabGet 0#8 f.bytes a := by
  have hsett : (s.dropTold path.val cls none).sett = s.sett := (s.dropTold_keeps path.val cls none).sett_same rfl
  have hprev : (s.dropTold path.val cls none).previousBytes = s.previousBytes := by rw [State.previousBytes, hsett, State.previousBytes]
  rw [State.blockTaken_consumer cls State.sett (fun _ _ => rfl) (fun _ => rfl) (by simp) h, State.consumerDrop,
    State.commitDrop_some (hsett ▸ hf), hprev]
  exact tabGet_copyBlock _ _ _ _

/-- A dropped block of an NV write is flagged and counted, and its request waits no longer (R427). -/
theorem State.blockTaken_nv :
    (s.blockTaken path.val cls none .nvWrite got).bit Reg.NVS_STAT 2 = true
      ∧ (s.blockTaken path.val cls none .nvWrite got).nat Reg.NVS_CNT_DROP = min 0xFFFFFFFF (s.nat Reg.NVS_CNT_DROP + 1)
      ∧ (s.blockTaken path.val cls none .nvWrite got).nv = { s.nv with jobs := s.nv.jobs.drop 1 } := by
  have hl : ∀ n ∈ (none : Option Nat), n < 18 := lane_lt none
  have hcnt : (s.blockReceive path.val cls none .nvWrite got).rd Reg.NVS_CNT_DROP = s.rd Reg.NVS_CNT_DROP := by
    rw [State.blockReceive_dropped (·.rd Reg.NVS_CNT_DROP) (fun _ _ => rfl) cls none _ h,
      (State.dropServed_regs _ path.val _ hl).others _ (by decide), s.dropTold_keepsRegs path cls none _ (by decide)]
  have hnv : (s.blockReceive path.val cls none .nvWrite got).nv = s.nv :=
    (State.blockReceive_keeps (k := 8391944) rfl (Keeps.refl s)).nv_same rfl
  rw [State.blockTaken_nvWrite _ _ h]
  refine ⟨?_, ?_, by rw [State.nvBlockDropped_nv, hnv]⟩
  · rw [State.bit_eq, State.nvBlockDropped_rd _ (by decide) (by decide), if_neg (by decide), if_pos rfl]
    exact bitOf_putBit_same _ _ _ (by decide)
  · rw [State.nat_eq, State.nvBlockDropped_rd _ (by decide) (by decide), if_pos rfl, hcnt, satWordN_toNat]
    rfl

end

/-- What the consumer of a dropped block does (R186, Table 2). -/
theorem blockReceive_consumers (path : Fin 5) (cls : Fin 12) (got : List Block) (s : State) (hs : s.supplied)
    (h : s.failsOf path.val (got.map Block.bad) = 5) :
      (∀ (back : Fin 17) (node : BitVec 13), ∃ t, exec (.blockReceive path cls none (.history back node) got) s = .next t
        ∧ t.dsp = { s.dsp with histGone := (back.val, node.toNat) :: s.dsp.histGone })
      ∧ (∀ x : Option (Fin 50 × BitVec 14), ∃ t, exec (.blockReceive path cls none (.solver x) got) s = .next t
        ∧ (∀ v, s.dsp.solve = some v → v.running = true → v.assembled = true → (t.dsp.solve.map (·.dropped)) = some true))
      ∧ (∀ (p : Fin 50) (i : BitVec 14), i.toNat < 8192 → listGet s.fab.want.banks p.val = 0 →
          ∃ t, exec (.blockReceive path cls none (.solver (some (p, i))) got) s = .next t
            ∧ (p.val < s.fab.want.banks.length → listGet t.fab.want.banks p.val ≠ 0 ∨ t.fab.want.spares.any (fun e => e.1 / 164 == p.val && e.2 == i.toNat) = true))
      ∧ (∀ c : Fin 4, ∃ t, exec (.blockReceive path cls none (.canBuf c) got) s = .next t ∧ t.bit (Reg.CAN_STAT c.val) 4 = true
          ∧ t.nat (Reg.CAN_CNT_RXDROP c.val) = min 0xFFFFFFFF (s.nat (Reg.CAN_CNT_RXDROP c.val) + 1))
      ∧ (∀ p : Fin 3, ∃ t, exec (.blockReceive path cls none (.ethBuf p) got) s = .next t
          ∧ t.nat (Reg.ETH_PORT_p_CNT_RXERR p.val) = min 0xFFFFFFFF (s.nat (Reg.ETH_PORT_p_CNT_RXERR p.val) + 1))
      ∧ (∀ off : BitVec 21, ∃ t, exec (.blockReceive path cls none (.commit off) got) s = .next t ∧ t.bit Reg.FAB_STAT 8 = true
          ∧ (∀ f, s.sett.fresh = some f → ∀ a : Nat, tabGet 0#8 ((t.sett.fresh.map (·.bytes)).getD []) a
              = (if off.toNat / 64 = a / 64 then tabGet 0#8 ((s.sett.held.head?.map (·.bytes)).getD []) a else tabGet 0#8 f.bytes a)))
      ∧ (∃ t, exec (.blockReceive path cls none .image got) s = .next t ∧ t.nat Reg.FAB_CNT_DRAMFIX = min 0xFFFFFFFF (s.nat Reg.FAB_CNT_DRAMFIX + 1))
      ∧ ∃ t, exec (.blockReceive path cls none .nvWrite got) s = .next t ∧ t.bit Reg.NVS_STAT 2 = true
          ∧ t.nat Reg.NVS_CNT_DROP = min 0xFFFFFFFF (s.nat Reg.NVS_CNT_DROP + 1) ∧ t.nv = { s.nv with jobs := s.nv.jobs.drop 1 } := by
  have h' : s.clearSent.failsOf path.val (got.map Block.bad) = 5 := (s.failsOf_clearSent _ _).trans h
  have run (use : BlockUse) : exec (.blockReceive path cls none use got) s = .next (s.clearSent.blockTaken path.val cls.val none use got) :=
    exec_blockReceive hs path cls none use got
  refine ⟨fun back node => ⟨_, run _, State.blockTaken_history _ h' back node⟩,
    fun x => ⟨_, run _, fun v hv hr ha => State.blockTaken_solver_hit _ h' x hv hr ha⟩, fun p i hi hb => ⟨_, run _, fun hp => ?_⟩,
    fun c => ⟨_, run _, State.blockTaken_can _ h' c⟩, fun p => ⟨_, run _, State.blockTaken_eth _ h' p⟩,
    fun off => ⟨_, run _, State.blockTaken_commit_flag _ h' off, fun f hf a => State.blockTaken_commit_bytes _ h' off hf a⟩,
    ⟨_, run _, State.blockTaken_image _ h'⟩, ⟨_, run _, State.blockTaken_nv _ h'⟩⟩
  rw [State.blockTaken_solver_want _ h']
  exact s.fab.want.lineRepaired_serves hi hb hp

end Sys2Proof.Machine

/-!
The lane checks and the retraining of the DRAM link (R199, R201; two parts of O13).
-/

namespace Sys2Proof.Machine

/-! ## Lane checks (R199) -/

theorem exec_laneCheck {s : State} (hs : s.supplied) (ok : Bool) : exec (.laneCheck ok) s = .next (s.clearSent.laneCheck ok) :=
  show execLaneCheck ok s = _ from State.act_supplied hs

/-- The lane checked next is one that is not marked failed. -/
theorem State.nextLane_good {s : State} {n : Nat} (h : s.nextLane = some n) : n < 18 ∧ listGet s.fab.want.lanes n = 0 := by
  have hm : n ∈ goodOf 18 s.fab.want.lanes := by
    unfold State.nextLane at h
    lift_lets at h
    extract_lets good at h
    split at h
    next hf => exact Option.some.inj h ▸ List.mem_of_find?_eq_some hf
    next => exact List.mem_of_head? h
  simpa [goodOf] using hm

/-- A lane check is due: no solve runs and the laps since the last one are over. -/
def State.laneCheckDue (s : State) : Bool := s.slvIdle && decide (s.fab.lchkAt + s.fld Reg.FAB_LCHK 0 16 ≤ s.lap.count)

theorem State.laneCheck_waits (s : State) :
    (!s.slvIdle || decide (s.lap.count < s.fab.lchkAt + s.fld Reg.FAB_LCHK 0 16)) = !s.laneCheckDue := by
  simp only [State.laneCheckDue, Bool.not_and, ← decide_not, not_le]

theorem State.laneCheck_idle {s : State} (ok : Bool) (h : s.laneCheckDue = false ∨ s.nextLane = none) : s.laneCheck ok = s := by
  unfold State.laneCheck
  rw [s.laneCheck_waits]
  rcases h with h | h
  · rw [h]
    rfl
  · rw [h, ite_self]

/-- The check of lane `n` has run. -/
def State.laneChecked (s : State) (n : Nat) : State :=
  ({ s with fab := { s.fab with lchkAt := s.lap.count, lchkLane := n } }).injRan Reg.FAB_INJ 2

theorem State.laneCheck_due {s : State} {n : Nat} (ok : Bool) (h : s.laneCheckDue = true) (hn : s.nextLane = some n) :
    s.laneCheck ok = if ok = s.bit Reg.FAB_INJ 2 then (s.laneChecked n).laneFail n 2 else s.laneChecked n := by
  rw [State.laneCheck, s.laneCheck_waits, h]
  simp only [Bool.not_true, Bool.false_eq_true, if_false, hn, State.injTest]
  by_cases e : ok = s.bit Reg.FAB_INJ 2
  · rw [if_pos e, ← e, bne_self_eq_false]
    rfl
  · rw [if_neg e, bne_iff_ne.mpr e]
    rfl

theorem State.laneChecked_fab (s : State) (n : Nat) : (s.laneChecked n).fab = { s.fab with lchkAt := s.lap.count, lchkLane := n } :=
  (State.injRan_keeps (k := 0) rfl (Keeps.refl _)).fab_same rfl

theorem State.laneChecked_rd (s : State) (n : Nat) {b : Nat} (h1 : b ≠ Reg.FAB_INJ) (h2 : b ≠ Reg.ZID_CNT_INJ) :
    (s.laneChecked n).rd b = s.rd b := State.injRan_rd _ _ _ _ h1 h2

/-- The registers of a check that finds its lane good. -/
theorem State.laneChecked_keepsRegs (s : State) (n : Nat) : s.keepsRegs (s.laneChecked n) [Reg.FAB_INJ, Reg.ZID_CNT_INJ] := fun b hb => by
  simp only [List.mem_cons, List.not_mem_nil, or_false, not_or] at hb
  exact s.laneChecked_rd n hb.1 hb.2

/-- A lane is declared, before its spare is looked for. -/
def State.laneTold (s : State) (n code : Nat) : State :=
  (((({ s with fab := { s.fab with want := { s.fab.want with lanes := s.fab.want.lanes.set n code } } }).setFld
    (Reg.SLV_LANE_n_STAT n) 0 2 3).setBit Reg.FAB_STAT 1 true).count Reg.FAB_CNT_LANEFAIL).irqFab 1

theorem State.laneTold_rd (s : State) {n : Nat} (code : Nat) {b : Nat} (hn : n < 18) (hb : b ∉ pinRegs) :
    (s.laneTold n code).rd b =
      if b = Reg.FAB_IRQ then putBit (s.rd b) 1 true
      else if b = Reg.FAB_CNT_LANEFAIL then satWordN ((s.rd b).toNat + 1)
      else if b = Reg.FAB_STAT then putBit (s.rd b) 1 true
      else if b = Reg.SLV_LANE_n_STAT n then putBits (s.rd b) 0 2 3 else s.rd b := by
  have hne : Reg.FAB_IRQ ≠ Reg.SLV_LANE_n_STAT n ∧ Reg.FAB_STAT ≠ Reg.SLV_LANE_n_STAT n ∧ Reg.FAB_CNT_LANEFAIL ≠ Reg.SLV_LANE_n_STAT n := by
    unfold Reg.SLV_LANE_n_STAT Reg.FAB_IRQ Reg.FAB_STAT Reg.FAB_CNT_LANEFAIL
    omega
  obtain ⟨n1, n2, n3⟩ := hne
  have h0 : ∀ w c, ({ s with fab := { s.fab with want := w } } : State).rd c = s.rd c := fun _ _ => rfl
  unfold State.laneTold State.irqFab
  simp only [State.irqAt_rd _ _ _ _ _ _ hb, State.rd_count, State.rd_setBit, State.rd_setFld, h0]
  by_cases e1 : b = Reg.FAB_IRQ
  · subst e1
    simp [n1]
  by_cases e2 : b = Reg.FAB_CNT_LANEFAIL
  · subst e2
    simp [n3]
  by_cases e3 : b = Reg.FAB_STAT
  · subst e3
    simp [n2]
  by_cases e4 : b = Reg.SLV_LANE_n_STAT n
  · subst e4
    simp [e1, e2, e3]
  · simp [e1, e2, e3, e4]

/-- With a lane out of service a spare is looked for, which can flag its want alone. -/
theorem State.laneFail_told {s : State} {n : Nat} (code : Nat) (h : listGet s.fab.want.lanes n = 0) :
    State.RaisesOnly (Reg.FAB_STAT :: Reg.FAB_IRQ :: pinRegs) (s.laneTold n code) (s.laneFail n code) := by
  have hs : ∀ (u : State) (out : Bool), State.RaisesOnly (Reg.FAB_STAT :: Reg.FAB_IRQ :: pinRegs) u (u.spareOut out).solveHit :=
    fun u out => ((State.RaisesOnly.onlyIf u out ((State.RaisesOnly.setBit u (by decide)).trans (State.RaisesOnly.irqFab _ (by decide)))).trans
      (State.RaisesOnly.of_regs (State.solveHit_regs _)))
  rw [State.laneFail, h]
  exact hs _ _

/-- A declared lane is shown FAILED, flagged, counted and raised (R188). -/
theorem State.laneFail_shows {s : State} {n : Nat} (code : Nat) (hn : n < 18) (h : listGet s.fab.want.lanes n = 0) :
    (s.laneFail n code).fld (Reg.SLV_LANE_n_STAT n) 0 2 = 3 ∧ (s.laneFail n code).bit Reg.FAB_STAT 1 = true
      ∧ (s.laneFail n code).nat Reg.FAB_CNT_LANEFAIL = min 0xFFFFFFFF (s.nat Reg.FAB_CNT_LANEFAIL + 1)
      ∧ (s.laneFail n code).bit Reg.FAB_IRQ 1 = true
      ∧ s.keepsRegs (s.laneFail n code) ([Reg.SLV_LANE_n_STAT n, Reg.FAB_STAT, Reg.FAB_CNT_LANEFAIL, Reg.FAB_IRQ] ++ pinRegs) := by
  have hap : ∀ m : Fin 18, Reg.SLV_LANE_n_STAT m.val ∉ Reg.FAB_STAT :: Reg.FAB_IRQ :: Reg.FAB_CNT_LANEFAIL :: pinRegs := by decide
  have hlane := hap ⟨n, hn⟩
  simp only [List.mem_cons, not_or] at hlane
  obtain ⟨l1, l2, l3, l4⟩ := hlane
  have htold := State.laneFail_told code h
  refine ⟨?_, htold.flags _ (.inl rfl) 1 (by decide) ?_, ?_, htold.flags _ (.inr rfl) 1 (by decide) ?_, fun b hb => ?_⟩
  · rw [State.fld_eq, htold.others _ (by simp only [List.mem_cons, l1, l2, l4, or_self, not_false_eq_true]), s.laneTold_rd code hn l4,
      if_neg l2, if_neg l3, if_neg l1, if_pos rfl]
    exact bitsOf_putBits_same _ _ _ _ (by decide)
  · rw [State.bit_eq, s.laneTold_rd code hn (by decide), if_neg (by decide), if_neg (by decide), if_pos rfl]
    exact bitOf_putBit_same _ _ _ (by decide)
  · rw [State.nat_eq, htold.others _ (by decide), s.laneTold_rd code hn (by decide), if_neg (by decide), if_pos rfl]
    exact satWordN_toNat _
  · rw [State.bit_eq, s.laneTold_rd code hn (by decide), if_pos rfl]
    exact bitOf_putBit_same _ _ _ (by decide)
  · simp only [List.mem_append, List.mem_cons, List.not_mem_nil, or_false, not_or] at hb
    obtain ⟨⟨b1, b2, b3, b4⟩, b5⟩ := hb
    rw [htold.others b (by simp only [List.mem_cons, b2, b4, b5, or_self, not_false_eq_true]), s.laneTold_rd code hn b5, if_neg b4,
      if_neg b3, if_neg b2, if_neg b1]

/-- What a lane check leaves (R199). -/
theorem laneCheck_checks (ok : Bool) (s : State) (hs : s.supplied) : ∃ t, exec (.laneCheck ok) s = .next t
      ∧ (let due := s.slvIdle && decide (s.fab.lchkAt + s.fld Reg.FAB_LCHK 0 16 ≤ s.lap.count)
         (due = false ∨ s.nextLane = none → t = s.clearSent)
         ∧ (∀ n, s.nextLane = some n → due = true → t.fab.lchkAt = s.lap.count ∧ t.fab.lchkLane = n ∧ t.bit Reg.FAB_INJ 2 = false
            ∧ (ok ≠ s.bit Reg.FAB_INJ 2 → t.fab.want = s.fab.want ∧ s.keepsRegs t [Reg.FAB_INJ, Reg.ZID_CNT_INJ])
            ∧ (ok = s.bit Reg.FAB_INJ 2 → t.fab.want.lanes = s.fab.want.lanes.set n 2 ∧ t.fld (Reg.SLV_LANE_n_STAT n) 0 2 = 3
                ∧ t.bit Reg.FAB_STAT 1 = true ∧ t.nat Reg.FAB_CNT_LANEFAIL = min 0xFFFFFFFF (s.nat Reg.FAB_CNT_LANEFAIL + 1) ∧ t.bit Reg.FAB_IRQ 1 = true)
            ∧ s.keepsRegs t ([Reg.FAB_INJ, Reg.ZID_CNT_INJ, Reg.SLV_LANE_n_STAT n, Reg.FAB_STAT, Reg.FAB_CNT_LANEFAIL, Reg.FAB_IRQ] ++ pinRegs)))
      ∧ s.keepsParts t [.sent, .zid, .dsp, .fab] := by
  have ht := exec_laneCheck hs ok
  refine ⟨_, ht, ⟨fun h => State.laneCheck_idle (s := s.clearSent) ok h, fun n hn hdue => ?_⟩,
    (execLaneCheck_keeps (k := 3330) rfl ht).parts _ (fun p => by cases p <;> decide)⟩
  obtain ⟨hlt, hgood⟩ := s.nextLane_good hn
  have hrun := State.laneCheck_due (s := s.clearSent) ok hdue hn
  have hfab := s.clearSent.laneChecked_fab n
  have hregs := s.clearSent.laneChecked_keepsRegs n
  have hinj : (s.clearSent.laneChecked n).bit Reg.FAB_INJ 2 = false := State.injRan_bit _ (by decide) (by decide)
  rw [hrun]
  split_ifs with hbad
  · have hgood' : listGet (s.clearSent.laneChecked n).fab.want.lanes n = 0 := hfab ▸ hgood
    obtain ⟨hshow, hstat, hcnt, hirq, hkept⟩ := State.laneFail_shows 2 hlt hgood'
    have hff := ((s.clearSent.laneChecked n).laneFail_faults 2 hlt).fab
    have hinjSame : ((s.clearSent.laneChecked n).laneFail n 2).rd Reg.FAB_INJ = (s.clearSent.laneChecked n).rd Reg.FAB_INJ :=
      ((s.clearSent.laneChecked n).laneFail_faults 2 hlt).regs.others _ (by decide)
    refine ⟨by rw [hff, hfab]; rfl, by rw [hff, hfab], by rw [State.bit_eq, hinjSame]; exact hinj, fun h => absurd hbad h, fun _ => ?_,
      fun b hb => ?_⟩
    · refine ⟨by rw [State.laneFail_want _ _ _ hgood', hfab]; rfl, hshow, hstat, ?_, hirq⟩
      rw [hcnt, State.nat_eq, hregs _ (by decide)]
      rfl
    · simp only [List.mem_append, List.mem_cons, List.not_mem_nil, or_false, not_or] at hb
      obtain ⟨⟨b1, b2, b3, b4, b5, b6⟩, b7⟩ := hb
      rw [hkept b (by simp only [List.mem_append, List.mem_cons, List.not_mem_nil, b3, b4, b5, b6, b7, or_self, not_false_eq_true]),
        hregs b (by simp only [List.mem_cons, List.not_mem_nil, b1, b2, or_self, not_false_eq_true])]
      rfl
  · refine ⟨by rw [hfab]; rfl, by rw [hfab], hinj, fun _ => ⟨by rw [hfab]; rfl, hregs⟩, fun h => absurd h hbad, fun b hb => ?_⟩
    simp only [List.mem_append, List.mem_cons, List.not_mem_nil, or_false, not_or] at hb
    obtain ⟨⟨b1, b2, -⟩, -⟩ := hb
    exact hregs b (by simp only [List.mem_cons, List.not_mem_nil, b1, b2, or_self, not_false_eq_true])

/-! ## DRAM_RETRAIN (R201) -/

theorem State.dramRetrain_idle {s : State} (h : (s.fab.trainDue && s.slvIdle) = false) : s.dramRetrain = s := by
  unfold State.dramRetrain
  rw [if_pos]
  rw [← Bool.not_and, h]
  rfl

theorem State.dramRetrain_due {s : State} (h : (s.fab.trainDue && s.slvIdle) = true) :
    s.dramRetrain = if s.batonsOf 4 = 0 then s.batonRequest 4 4
      else (({ s with fab := { s.fab with trainDue := false, dramDrops := [] } }).batonRelease 4).count Reg.FAB_CNT_DRAMTRAIN := by
  unfold State.dramRetrain
  rw [if_neg]
  rw [← Bool.not_and, h]
  decide

theorem State.batonRequest_regs (s : State) (who need : Nat) : (s.batonRequest who need).regs = s.regs := by
  unfold State.batonRequest
  split_ifs <;> rfl

theorem State.batonRequest_clearSent (s : State) (who need : Nat) : (s.clearSent.batonRequest who need).lap = (s.batonRequest who need).lap := by
  have hp : s.clearSent.pfailed = s.pfailed := rfl
  unfold State.batonRequest
  rw [hp, State.clearSent_lap]
  split_ifs <;> rfl

/-- What a retraining of the DRAM link leaves (R201). -/
theorem dramRetrain_trains (s : State) (hs : s.supplied) : ∃ t, exec .dramRetrain s = .next t
      ∧ (let due := s.fab.trainDue && s.slvIdle
         (due = false → t = s.clearSent)
         ∧ (due = true → s.batonsOf 4 = 0 → t.lap = (s.batonRequest 4 4).lap ∧ t.fab = s.fab ∧ t.regs = s.regs)
         ∧ (due = true → s.batonsOf 4 ≠ 0 → t.fab = { s.fab with trainDue := false, dramDrops := [] } ∧ t.batonsOf 4 = 0
            ∧ t.nat Reg.FAB_CNT_DRAMTRAIN = min 0xFFFFFFFF (s.nat Reg.FAB_CNT_DRAMTRAIN + 1)))
      ∧ s.keepsRegs t [Reg.FAB_CNT_DRAMTRAIN] ∧ s.keepsParts t [.sent, .lap, .fab] := by
  have ht : exec .dramRetrain s = .next s.clearSent.dramRetrain := State.act_supplied hs
  have hparts := (execDramRetrain_keeps (k := 2054) rfl ht).parts [.sent, .lap, .fab] (fun p => by cases p <;> decide)
  refine ⟨_, ht, ?_⟩
  cases hdue : s.fab.trainDue && s.slvIdle with
  | false =>
    have he := State.dramRetrain_idle (s := s.clearSent) hdue
    rw [he] at hparts ⊢
    exact ⟨⟨fun _ => rfl, (nomatch ·), (nomatch ·)⟩, fun _ _ => rfl, hparts⟩
  | true =>
    have he := State.dramRetrain_due (s := s.clearSent) hdue
    by_cases hb : s.batonsOf 4 = 0
    · rw [if_pos (show s.clearSent.batonsOf 4 = 0 from hb)] at he
      rw [he] at hparts ⊢
      have hregs := s.clearSent.batonRequest_regs 4 4
      refine ⟨⟨(nomatch ·), fun _ _ => ⟨s.batonRequest_clearSent 4 4, ?_, hregs⟩, fun _ h => absurd hb h⟩, fun b _ => State.rd_congr hregs b,
        hparts⟩
      exact (State.batonRequest_keeps (k := 4) rfl (Keeps.refl s.clearSent)).fab_same rfl
    · rw [if_neg (show ¬s.clearSent.batonsOf 4 = 0 from hb)] at he
      rw [he] at hparts ⊢
      refine ⟨⟨(nomatch ·), fun _ h => absurd h hb, fun _ _ => ⟨rfl, State.batonRelease_batonsOf _ 4, ?_⟩⟩, fun b hb => ?_, hparts⟩
      · rw [State.nat_eq, State.rd_count, if_pos rfl, satWordN_toNat]
        rfl
      · rw [State.rd_count, if_neg (by simpa using hb)]
        rfl

end Sys2Proof.Machine

/-!
The scrub of the factor memory (R197, R198; a part of O13).
-/

namespace Sys2Proof.Machine

/-! ## The scrub (R197, R198) -/

theorem State.injPath_quiet {s : State} (h : s.rd Reg.FAB_INJ = 0#32) {path : Nat} (hp : path ≠ 0) : s.injPath path = false := by
  rw [State.injPath, State.fld_eq, h]
  exact beq_eq_false_iff_ne.mpr hp.symm

theorem State.pathInjRan_quiet {s : State} {path : Nat} (h : s.injPath path = false) : s.pathInjRan path = s := by
  rw [State.pathInjRan, h, State.onlyIf_false]

theorem State.injRan_quiet {s : State} {r : Nat} (h : s.rd r = 0#32) (i : Nat) : s.injRan r i = s := by
  have hb : s.bit r i = false := by
    rw [State.bit_eq, h]
    exact BitVec.getLsbD_zero
  rw [State.injRan, hb]
  rfl

theorem State.injTest_quiet {s : State} {r : Nat} (h : s.rd r = 0#32) (i : Nat) (b : Bool) : s.injTest r i b = b := by
  have hb : s.bit r i = false := by
    rw [State.bit_eq, h]
    exact BitVec.getLsbD_zero
  rw [State.injTest, hb, Bool.bne_false]

/-- A stored line that fails all its reads on path 1 is handled as a dropped block that no consumer waits for (R187). -/
theorem State.readDropped_eq (s : State) : s.readDropped 1 = (s.resent 1 classSelf 5).dropNoted 1 classSelf none := by
  rw [State.readDropped, State.blockFails_eq, if_neg (by decide), State.dropServed, State.laneBlamed, State.consumerDrop]
  exact State.onlyIf_false _ _

theorem State.readDropped_fab (s : State) : (s.readDropped 1).fab = s.fab := by
  rw [State.readDropped_eq, (State.dropNoted_keeps _ 1 classSelf none).fab_same rfl, (s.resent_keeps 1 classSelf 5).fab_same rfl]

theorem State.readDropped_dropped (s : State) : Keeps 8388864 s (s.readDropped 1) := by
  rw [State.readDropped_eq]
  exact ((s.resent_keeps 1 classSelf 5).weaken rfl).trans ((State.dropNoted_keeps _ 1 classSelf none).weaken rfl)

/-- The registers that a segment's failing lines may change. -/
def scrubRegs : List Nat :=
  faultRegs ++ [Reg.FAB_LASTDROP, Reg.FAB_CNT_DROP_p 1, Reg.FAB_CNT_RESEND_p 1]

theorem State.keepsRegs_trans {s t u : State} {l : List Nat} (a : s.keepsRegs t l) (b : t.keepsRegs u l) : s.keepsRegs u l :=
  fun r hr => (b r hr).trans (a r hr)

theorem State.resent_keepsRegs (s : State) (cls fails : Nat) : s.keepsRegs (s.resent 1 cls fails) scrubRegs := fun b hb => by
  have h : b ≠ Reg.FAB_CNT_RESEND_p 1 := fun e => hb (e ▸ by decide)
  rw [State.resent_rd, if_neg h]

theorem State.dropNoted_keepsRegs (s : State) (cls : Nat) (lane : Option Nat) : s.keepsRegs (s.dropNoted 1 cls lane) scrubRegs := fun b hb => by
  have own : ∀ r ∈ [Reg.FAB_IRQ, Reg.FAB_STAT, Reg.FAB_LASTDROP, Reg.FAB_CNT_DROP_p 1], b ≠ r := by
    have h : ∀ r ∈ [Reg.FAB_IRQ, Reg.FAB_STAT, Reg.FAB_LASTDROP, Reg.FAB_CNT_DROP_p 1], r ∈ scrubRegs := by decide
    exact fun r hr e => hb (e ▸ h r hr)
  have hp : b ∉ pinRegs := fun g => hb (List.mem_append_left _ (pinRegs_faultRegs b (List.mem_cons_of_mem _ g)))
  simp only [List.forall_mem_cons, List.not_mem_nil, false_imp_iff, implies_true, and_true] at own
  obtain ⟨h1, h2, h3, h4⟩ := own
  rw [State.dropNoted_rd s cls lane (by decide) hp, if_neg h1, if_neg h2, if_neg h3, if_neg h4]

theorem State.readDropped_keepsRegs (s : State) : s.keepsRegs (s.readDropped 1) scrubRegs := by
  rw [s.readDropped_eq]
  exact State.keepsRegs_trans (s.resent_keepsRegs _ _) (State.dropNoted_keepsRegs _ _ _)

theorem State.repairLine_keepsRegs (s : State) {p : Nat} (line : Nat) (hp : p < 64) : s.keepsRegs (s.repairLine p line) scrubRegs :=
  fun b hb => (s.repairLine_faults line hp).regs.others b (fun g => hb (List.mem_append_left _ g))

theorem State.scrubFill_regs (s : State) (g : Nat) : (s.scrubFill g).regs = s.regs := by
  simp only [State.scrubFill]

/-- The lines of segment `g` have moved four times. -/
def State.scrubFilled (s : State) (g : Nat) : State := (s.scrubFill g).charge classSelf resFab 8356

theorem State.scrubFilled_keeps (s : State) (g : Nat) : Keeps 8389632 s (s.scrubFilled g) := by
  unfold State.scrubFilled
  exact State.charge_keeps rfl (State.scrubFill_keeps rfl (Keeps.refl s))

theorem State.scrubFilled_rd (s : State) (g b : Nat) : (s.scrubFilled g).rd b = s.rd b := by
  unfold State.scrubFilled
  rw [State.charge_rd, State.rd_congr (s.scrubFill_regs g)]

/-- Moving the lines fills the pattern, and charges SELF. -/
theorem State.scrubFilled_dsp (s : State) (g : Nat) : (s.scrubFilled g).dsp = { s.dsp with factor := (s.scrubFilled g).dsp.factor } := by
  have h : (s.scrubFilled g).dsp = (s.scrubFill g).dsp := by
    unfold State.scrubFilled
    exact (State.charge_keeps (k := 8388608) rfl (Keeps.refl (s.scrubFill g))).dsp_same rfl
  rw [h]
  simp only [State.scrubFill]

theorem State.scrubFilled_used (s : State) (g : Nat) : (s.scrubFilled g).used = (s.charge classSelf resFab 8356).used := by
  unfold State.scrubFilled
  exact State.charge_used_congr (by decide) (by simp only [State.scrubFill])

/-- The lines of segment `g` have moved four times, and the line at the front of the segment has been read back with the result `bad`. -/
def State.scrubMoved (s : State) (g : Nat) (bad : Bool) : State :=
  if bad then (s.scrubFilled g).readDropped 1 else (s.scrubFilled g).resent 1 classSelf 0

theorem State.scrubMoved_bad (s : State) (g : Nat) : s.scrubMoved g true = (s.scrubFilled g).readDropped 1 := if_pos rfl

theorem State.scrubMoved_good (s : State) (g : Nat) : s.scrubMoved g false = (s.scrubFilled g).resent 1 classSelf 0 := if_neg (by decide)

theorem State.scrubMoved_keepsRegs (s : State) (g : Nat) (bad : Bool) : s.keepsRegs (s.scrubMoved g bad) scrubRegs := by
  have hu : s.keepsRegs (s.scrubFilled g) scrubRegs := fun b _ => s.scrubFilled_rd g b
  cases bad
  · rw [State.scrubMoved_good]
    exact State.keepsRegs_trans hu (State.resent_keepsRegs _ _ _)
  · rw [State.scrubMoved_bad]
    exact State.keepsRegs_trans hu (State.readDropped_keepsRegs _)

theorem State.scrubMoved_keeps (s : State) (g : Nat) (bad : Bool) : Keeps 8389888 s (s.scrubMoved g bad) := by
  have h : Keeps 8389888 s (s.scrubFilled g) := (s.scrubFilled_keeps g).weaken rfl
  cases bad
  · rw [State.scrubMoved_good]
    exact h.trans ((State.resent_keeps _ 1 classSelf 0).weaken rfl)
  · rw [State.scrubMoved_bad]
    exact h.trans ((State.readDropped_dropped _).weaken rfl)

/-- Without injection the first line's read-back is its result. -/
theorem State.scrubFirst_quiet {s : State} (h : s.rd Reg.FAB_INJ = 0#32) (g : Nat) (bad : Bool) :
    (s.scrubFilled g).scrubFirst bad = (s.scrubMoved g bad, bad) := by
  have hu : (s.scrubFilled g).rd Reg.FAB_INJ = 0#32 := (s.scrubFilled_rd g _).trans h
  have hp := State.injPath_quiet hu (path := 1) (by decide)
  unfold State.scrubFirst
  rw [State.failsOf_quiet hp, State.pathInjRan_quiet hp]
  cases bad
  · have h0 : ((((List.replicate 5 false ++ List.replicate 5 false).take 5).takeWhile id).length) = 0 := by decide
    rw [h0, State.scrubMoved_good]
    dsimp only
    rw [State.blockFails_eq, if_pos (by decide)]
    rfl
  · have h5 : ((((List.replicate 5 true ++ List.replicate 5 false).take 5).takeWhile id).length) = 5 := by decide
    rw [h5, State.scrubMoved_bad, State.readDropped]
    rfl

/-- The segment's failing lines are repaired. -/
def State.scrubRepaired (s : State) (g : Nat) (bad : List Nat) : State :=
  ((s.scrubMoved g (bad.contains 0)).onlyIf (bad.contains 0) (fun t => t.repairLine (g / 4) (2089 * (g % 4)))).forEach
    (bad.filter (fun l => 0 < l && l < 2089)) (fun t l => (t.readDropped 1).repairLine (g / 4) (2089 * (g % 4) + l))

theorem State.scrubEnd_quiet {s : State} (h : s.rd Reg.FAB_INJ = 0#32) (bad : List Nat) :
    s.scrubEnd bad =
      let g := s.fld Reg.FAB_SCRUB_STAT 0 8
      let t := (((s.scrubRepaired g bad).batonRelease 2).wr Reg.FAB_SCRUB_STAT (BitVec.ofNat 32 (if g + 1 < 200 then g + 1 else 0))).onlyIf
        (g + 1 == 200) (fun s => s.count Reg.FAB_CNT_SCRUBPASS)
      { t with fab := { t.fab with scrubAt := s.lap.count } } := by
  have hm : ∀ g b, (s.scrubMoved g b).rd Reg.FAB_INJ = 0#32 := fun g b => (s.scrubMoved_keepsRegs g b _ (by decide)).trans h
  have hf : ∀ g b, ((s.scrubFill g).charge classSelf resFab 8356).scrubFirst b = (s.scrubMoved g b, b) := fun g b =>
    State.scrubFirst_quiet h g b
  unfold State.scrubEnd
  simp only [hf]
  simp only [State.injTest_quiet (hm _ _), State.injRan_quiet (hm _ _)]
  rfl

theorem State.scrubRepaired_keepsRegs (s : State) {g : Nat} (bad : List Nat) (hg : g < 256) :
    s.keepsRegs (s.scrubRepaired g bad) scrubRegs := by
  have hp : g / 4 < 64 := by omega
  refine State.keepsRegs_trans ?_ (fun b hb => State.rd_forEach _ _ b (fun u l => ?_) _)
  · refine State.keepsRegs_trans (s.scrubMoved_keepsRegs g (bad.contains 0)) (fun b hb => ?_)
    rw [State.rd_onlyIf, State.repairLine_keepsRegs _ _ hp b hb, ite_self]
  · exact (State.keepsRegs_trans u.readDropped_keepsRegs (State.repairLine_keepsRegs _ _ hp)) b hb

theorem State.scrubRepaired_keeps (s : State) (g : Nat) (bad : List Nat) : Keeps 8391936 s (s.scrubRepaired g bad) := by
  refine Keeps.each (fun u l hu => ?_) (Keeps.only (fun u hu => State.repairLine_keeps rfl hu) ((s.scrubMoved_keeps g _).weaken rfl))
  exact State.repairLine_keeps rfl (hu.trans (u.readDropped_dropped.weaken rfl))

theorem State.scrubRepaired_nil (s : State) (g : Nat) : s.scrubRepaired g [] = (s.scrubFilled g).resent 1 classSelf 0 := by
  rw [← State.scrubMoved_good]
  rfl

/-- One failing line is a dropped block and is repaired. -/
theorem State.scrubRepaired_one (s : State) (g x : Nat) (hx : x < 2089) :
    ∃ u : State, u.fab = s.fab ∧ u.rd (Reg.FAB_CNT_DROP_p 1) = s.rd (Reg.FAB_CNT_DROP_p 1)
      ∧ s.scrubRepaired g [x] = (u.readDropped 1).repairLine (g / 4) (2089 * (g % 4) + x) := by
  have hu : (s.scrubFilled g).fab = s.fab := (s.scrubFilled_keeps g).fab_same rfl
  have hd : (s.scrubFilled g).rd (Reg.FAB_CNT_DROP_p 1) = s.rd (Reg.FAB_CNT_DROP_p 1) := s.scrubFilled_rd g _
  by_cases h0 : x = 0
  · subst h0
    refine ⟨_, hu, hd, ?_⟩
    rw [← State.scrubMoved_bad]
    rfl
  · have hc : ([x] : List Nat).contains 0 = false := by simpa using Ne.symm h0
    have hf : [x].filter (fun l => decide (0 < l) && decide (l < 2089)) = [x] := by simp [Nat.pos_of_ne_zero h0, hx]
    refine ⟨_, ((State.resent_keeps _ 1 classSelf 0).fab_same rfl).trans hu, ?_, by rw [State.scrubRepaired, hc, hf, State.scrubMoved_good]; rfl⟩
    rw [State.resent_rd, if_neg (by decide)]
    exact hd

theorem State.readDropped_drops (s : State) :
    (s.readDropped 1).rd (Reg.FAB_CNT_DROP_p 1) = satWordN ((s.rd (Reg.FAB_CNT_DROP_p 1)).toNat + 1) := by
  rw [s.readDropped_eq, State.dropNoted_rd _ _ _ (by decide) (by decide), if_neg (by decide), if_neg (by decide), if_neg (by decide), if_pos rfl,
    State.resent_rd, if_neg (by decide)]

/-- A charge of nothing. -/
theorem State.charge_zero_used (s : State) (c r : Nat) : (s.charge c r 0).used = s.used := by
  unfold State.charge
  split_ifs
  · rfl
  · refine List.ext_getElem? fun i => ?_
    rw [List.getElem?_set]
    split_ifs with h1 h2
    · subst h1
      simp [h2]
    · subst h1
      exact (List.getElem?_eq_none (Nat.le_of_not_lt h2)).symm
    · rfl

theorem exec_scrubSegment {s : State} (hs : s.supplied) (l : List (BitVec 12)) :
    exec (.scrubSegment l) s = .next (s.clearSent.scrubSegment (l.map (·.toNat))) :=
  show execScrubSegment l s = _ from State.act_supplied hs

section
variable {s : State} (bad : List Nat)

theorem State.scrubSegment_idle (h : s.scrubDue = false) : s.scrubSegment bad = s := by
  rw [State.scrubSegment, h]
  rfl

theorem State.scrubSegment_waits (h : s.scrubDue = true) (hw : (s.segServes && !s.slvIdle) = true) :
    s.scrubSegment bad = s.setBit Reg.FAB_SCRUB_STAT 8 true := by
  rw [State.scrubSegment, h, if_neg (by decide), if_pos hw]

theorem State.scrubSegment_asks (h : s.scrubDue = true) (hw : (s.segServes && !s.slvIdle) = false) (hb : s.batonsOf 2 = 0) :
    s.scrubSegment bad = (s.setBit Reg.FAB_SCRUB_STAT 8 false).batonRequest 2 4 := by
  rw [State.scrubSegment, h, if_neg (by decide), hw, if_neg (by decide), if_pos hb]

theorem State.scrubSegment_runs (h : s.scrubDue = true) (hw : (s.segServes && !s.slvIdle) = false) (hb : s.batonsOf 2 ≠ 0) :
    s.scrubSegment bad = s.scrubEnd bad := by
  rw [State.scrubSegment, h, if_neg (by decide), hw, if_neg (by decide), if_neg hb]

end

/-- The number of the scrub's next segment. -/
def State.scrubSeg (s : State) : Nat := s.fld Reg.FAB_SCRUB_STAT 0 8

theorem State.scrubSeg_lt (s : State) : s.scrubSeg < 256 := Nat.mod_lt _ (by decide)

/-- The batons have gone back and the next segment is shown. -/
def State.scrubStepped (s : State) (bad : List Nat) : State :=
  ((s.scrubRepaired s.scrubSeg bad).batonRelease 2).wr Reg.FAB_SCRUB_STAT
    (BitVec.ofNat 32 (if s.scrubSeg + 1 < 200 then s.scrubSeg + 1 else 0))

section
variable {s : State} (h : s.rd Reg.FAB_INJ = 0#32) (bad : List Nat)
include h

/-- A component that neither the count of passes nor the instant of the segment touches. -/
theorem State.scrubEnd_stepped {α : Type} (g : State → α) (hc : ∀ u : State, g (u.count Reg.FAB_CNT_SCRUBPASS) = g u)
    (hf : ∀ (u : State) n, g { u with fab := { u.fab with scrubAt := n } } = g u) : g (s.scrubEnd bad) = g (s.scrubStepped bad) := by
  rw [State.scrubEnd_quiet h]
  dsimp only
  rw [hf]
  change g ((s.scrubStepped bad).onlyIf (s.scrubSeg + 1 == 200) (fun s => s.count Reg.FAB_CNT_SCRUBPASS)) = _
  cases s.scrubSeg + 1 == 200
  · rfl
  · exact hc _

theorem State.scrubEnd_fab : (s.scrubEnd bad).fab = { (s.scrubRepaired s.scrubSeg bad).fab with scrubAt := s.lap.count } := by
  rw [State.scrubEnd_quiet h]
  dsimp only
  change ({ ((s.scrubStepped bad).onlyIf (s.scrubSeg + 1 == 200) (fun s => s.count Reg.FAB_CNT_SCRUBPASS)).fab with scrubAt := s.lap.count } : FabState) = _
  cases s.scrubSeg + 1 == 200 <;> rfl

theorem State.scrubEnd_rd (b : Nat) : (s.scrubEnd bad).rd b =
    if b = Reg.FAB_CNT_SCRUBPASS then
      (if s.scrubSeg + 1 == 200 then satWordN ((s.rd Reg.FAB_CNT_SCRUBPASS).toNat + 1) else s.rd Reg.FAB_CNT_SCRUBPASS)
    else if b = Reg.FAB_SCRUB_STAT then BitVec.ofNat 32 (if s.scrubSeg + 1 < 200 then s.scrubSeg + 1 else 0)
    else (s.scrubRepaired s.scrubSeg bad).rd b := by
  have hrd : (s.scrubEnd bad).rd b = ((s.scrubStepped bad).onlyIf (s.scrubSeg + 1 == 200) (fun s => s.count Reg.FAB_CNT_SCRUBPASS)).rd b := by
    rw [State.scrubEnd_quiet h]
    rfl
  have hst : ∀ c, (s.scrubStepped bad).rd c = if c = Reg.FAB_SCRUB_STAT then BitVec.ofNat 32 (if s.scrubSeg + 1 < 200 then s.scrubSeg + 1 else 0)
      else (s.scrubRepaired s.scrubSeg bad).rd c := fun c => State.rd_wr _ _ _ _
  have hp : (s.scrubRepaired s.scrubSeg bad).rd Reg.FAB_CNT_SCRUBPASS = s.rd Reg.FAB_CNT_SCRUBPASS :=
    s.scrubRepaired_keepsRegs bad s.scrubSeg_lt _ (by decide)
  rw [hrd, State.rd_onlyIf, State.rd_count, hst, hst]
  by_cases hb : b = Reg.FAB_CNT_SCRUBPASS
  · rw [hb, if_pos rfl, if_pos rfl, if_neg (by decide : Reg.FAB_CNT_SCRUBPASS ≠ Reg.FAB_SCRUB_STAT), hp]
  · rw [if_neg hb, if_neg hb, ite_self]

theorem State.scrubEnd_passes :
    (s.scrubEnd bad).nat Reg.FAB_CNT_SCRUBPASS = min 0xFFFFFFFF (s.nat Reg.FAB_CNT_SCRUBPASS + (s.scrubSeg + 1 == 200).toNat) := by
  rw [State.nat_eq, State.scrubEnd_rd h, if_pos rfl]
  cases s.scrubSeg + 1 == 200
  · exact (min_eq_right (s.rd _).isLt.le_pred).symm
  · exact satWordN_toNat _

/-- A segment without a failing line: charges, pattern and the next segment alone. -/
theorem State.scrubEnd_clean :
    (s.scrubEnd []).used = (s.charge classSelf resFab 8356).used ∧ (s.scrubEnd []).fab = { s.fab with scrubAt := s.lap.count }
      ∧ (s.scrubEnd []).dsp = { s.dsp with factor := (s.scrubEnd []).dsp.factor }
      ∧ s.keepsRegs (s.scrubEnd []) [Reg.FAB_SCRUB_STAT, Reg.FAB_CNT_SCRUBPASS] := by
  have hr := State.resent_keeps (s.scrubFilled s.scrubSeg) 1 classSelf 0
  have hd : (s.scrubEnd []).dsp = (s.scrubFilled s.scrubSeg).dsp := by
    rw [State.scrubEnd_stepped h [] State.dsp (fun _ => rfl) (fun _ _ => rfl), State.scrubStepped, State.scrubRepaired_nil, State.wr_dsp,
      (State.batonRelease_keeps (k := 4) rfl (Keeps.refl _)).dsp_same rfl, hr.dsp_same rfl]
  refine ⟨?_, ?_, by rw [hd]; exact s.scrubFilled_dsp _, fun b hb => ?_⟩
  · rw [State.scrubEnd_stepped h [] State.used (fun _ => rfl) (fun _ _ => rfl), State.scrubStepped, State.scrubRepaired_nil,
      ← s.scrubFilled_used s.scrubSeg]
    exact State.charge_zero_used _ classSelf (pathRes 1)
  · rw [State.scrubEnd_fab h, State.scrubRepaired_nil, hr.fab_same rfl, (s.scrubFilled_keeps _).fab_same rfl]
  · simp only [List.mem_cons, List.not_mem_nil, or_false, not_or] at hb
    rw [State.scrubEnd_rd h, if_neg hb.2, if_neg hb.1, State.scrubRepaired_nil, State.resent_rd, Nat.min_zero, Nat.add_zero, satWordN_self,
      ite_self, State.scrubFilled_rd]

/-- A segment with one failing line: it is a dropped block, and is repaired. -/
theorem State.scrubEnd_one {x : Nat} (hx : x < 2089) :
    (s.scrubEnd [x]).fab.want = (s.repairLine (s.scrubSeg / 4) (2089 * (s.scrubSeg % 4) + x)).fab.want
      ∧ (s.scrubEnd [x]).nat (Reg.FAB_CNT_DROP_p 1) = min 0xFFFFFFFF (s.nat (Reg.FAB_CNT_DROP_p 1) + 1) := by
  obtain ⟨u, hfab, hdrop, he⟩ := s.scrubRepaired_one s.scrubSeg x hx
  have hp : s.scrubSeg / 4 < 64 := by
    have := s.scrubSeg_lt
    omega
  have hsame := (State.repairLine_faults (u.readDropped 1) (2089 * (s.scrubSeg % 4) + x) hp).regs.others (Reg.FAB_CNT_DROP_p 1) (by decide)
  refine ⟨?_, ?_⟩
  · rw [State.scrubEnd_fab h, he, State.repairLine_want, State.readDropped_fab, hfab, State.repairLine_want]
  · rw [State.nat_eq, State.scrubEnd_rd h, if_neg (by decide), if_neg (by decide), he, hsame, State.readDropped_drops, hdrop, satWordN_toNat]
    rfl

end

/-- A segment leaves the setts alone: no consumer waits for its lines. -/
theorem State.scrubSegment_quiet_keeps {s : State} (h : s.rd Reg.FAB_INJ = 0#32) (bad : List Nat) : Keeps 8391940 s (s.scrubSegment bad) := by
  have hend : Keeps 8391940 s (s.scrubEnd bad) := by
    rw [State.scrubEnd_quiet h]
    exact Keeps.set_fab rfl (fun _ g => g.fab) (Keeps.only (fun u hu => State.count_keeps rfl hu) (State.wr_keeps rfl
      (State.batonRelease_keeps rfl ((s.scrubRepaired_keeps _ bad).weaken rfl))))
  unfold State.scrubSegment
  split_ifs
  · exact Keeps.refl s
  · exact State.setBit_keeps rfl (Keeps.refl s)
  · exact State.batonRequest_keeps rfl (State.setBit_keeps rfl (Keeps.refl s))
  · exact hend

/-- What a scrub segment leaves (R197, R198). -/
theorem scrubSegment_scrubs (l : List (BitVec 12)) (s : State) (hs : s.supplied) (hinj : s.rd Reg.FAB_INJ = 0#32) :
    ∃ t, exec (.scrubSegment l) s = .next t
      ∧ (let g := s.fld Reg.FAB_SCRUB_STAT 0 8
         let due := s.bit Reg.FAB_SCRUB_CTRL 0 && decide (s.fab.scrubAt + s.fld Reg.FAB_SCRUB_CTRL 16 16 ≤ s.lap.count)
         let waits := s.fab.live.serving.contains (g / 4) && !s.slvIdle
         (due = false → t = s.clearSent)
         ∧ (due = true → waits = true → t = s.clearSent.setBit Reg.FAB_SCRUB_STAT 8 true)
         ∧ (due = true → waits = false → s.batonsOf 2 = 0 → t.lap = (s.batonRequest 2 4).lap ∧ t.bit Reg.FAB_SCRUB_STAT 8 = false
            ∧ s.keepsRegs t [Reg.FAB_SCRUB_STAT] ∧ s.keepsParts t [.sent, .lap])
         ∧ (due = true → waits = false → s.batonsOf 2 ≠ 0 → t.rd Reg.FAB_SCRUB_STAT = BitVec.ofNat 32 (if g + 1 < 200 then g + 1 else 0)
            ∧ t.nat Reg.FAB_CNT_SCRUBPASS = min 0xFFFFFFFF (s.nat Reg.FAB_CNT_SCRUBPASS + (g + 1 == 200).toNat)
            ∧ t.fab.scrubAt = s.lap.count ∧ t.batonsOf 2 = 0
            ∧ (l = [] → t.used = (s.charge classSelf resFab 8356).used ∧ t.fab = { s.fab with scrubAt := s.lap.count }
               ∧ t.dsp = { s.dsp with factor := t.dsp.factor } ∧ s.keepsRegs t [Reg.FAB_SCRUB_STAT, Reg.FAB_CNT_SCRUBPASS])
            ∧ (∀ x r, l = x :: r → r = [] → x.toNat < 2089 → t.fab.want = (s.repairLine (g / 4) (2089 * (g % 4) + x.toNat)).fab.want
               ∧ t.nat (Reg.FAB_CNT_DROP_p 1) = min 0xFFFFFFFF (s.nat (Reg.FAB_CNT_DROP_p 1) + 1))))
      ∧ s.keepsParts t [.sent, .lap, .zid, .dsp, .fab, .used] := by
  have ht := exec_scrubSegment hs l
  have hinj' : s.clearSent.rd Reg.FAB_INJ = 0#32 := hinj
  have hk : Keeps 8391942 s (s.clearSent.scrubSegment (l.map (·.toNat))) :=
    (State.clearSent_keeps rfl (Keeps.refl s)).trans ((State.scrubSegment_quiet_keeps hinj' _).weaken rfl)
  refine ⟨_, ht, ⟨fun hd => State.scrubSegment_idle (s := s.clearSent) _ hd, fun hd hw => State.scrubSegment_waits (s := s.clearSent) _ hd hw,
    fun hd hw hb => ?_, fun hd hw hb => ?_⟩, hk.parts _ (fun p => by cases p <;> decide)⟩
  · rw [State.scrubSegment_asks (s := s.clearSent) _ hd hw hb]
    have hlap : ((s.clearSent.setBit Reg.FAB_SCRUB_STAT 8 false).batonRequest 2 4).lap = (s.batonRequest 2 4).lap := by
      rw [← s.batonRequest_clearSent]
      have hp : (s.clearSent.setBit Reg.FAB_SCRUB_STAT 8 false).pfailed = s.clearSent.pfailed := rfl
      unfold State.batonRequest
      rw [hp, State.setBit_lap]
      split_ifs <;> rfl
    have hrd : ∀ b, ((s.clearSent.setBit Reg.FAB_SCRUB_STAT 8 false).batonRequest 2 4).rd b
        = if b = Reg.FAB_SCRUB_STAT then putBit (s.rd Reg.FAB_SCRUB_STAT) 8 false else s.rd b := fun b =>
      (State.rd_congr (State.batonRequest_regs _ 2 4) b).trans (State.rd_setBit _ _ _ _ _)
    refine ⟨hlap, ?_, fun b hb => ?_, ?_⟩
    · rw [State.bit_eq, hrd, if_pos rfl]
      exact bitOf_putBit_same _ _ _ (by decide)
    · rw [hrd, if_neg (by simpa using hb)]
    · have hk : Keeps 6 s ((s.clearSent.setBit Reg.FAB_SCRUB_STAT 8 false).batonRequest 2 4) :=
        State.batonRequest_keeps rfl (State.setBit_keeps rfl (State.clearSent_keeps rfl (Keeps.refl s)))
      exact hk.parts _ (fun p => by cases p <;> decide)
  · rw [State.scrubSegment_runs (s := s.clearSent) _ hd hw hb]
    have hbatons : (s.clearSent.scrubEnd (l.map (·.toNat))).batonsOf 2 = 0 := by
      rw [State.scrubEnd_stepped hinj' _ (·.batonsOf 2) (fun _ => rfl) (fun _ _ => rfl)]
      exact State.batonRelease_batonsOf _ 2
    refine ⟨?_, State.scrubEnd_passes hinj' _, by rw [State.scrubEnd_fab hinj']; rfl, hbatons, fun hl => ?_, fun x r hl hr hx => ?_⟩
    · rw [State.scrubEnd_rd hinj', if_neg (by decide), if_pos rfl]
      rfl
    · obtain ⟨hused, hfab, hdsp, hregs⟩ := State.scrubEnd_clean hinj'
      subst hl
      exact ⟨hused.trans (State.charge_used_congr (by decide) rfl), hfab, hdsp, hregs⟩
    · subst hl hr
      obtain ⟨hwant, hdrop⟩ := State.scrubEnd_one hinj' hx
      refine ⟨hwant.trans ?_, hdrop⟩
      rw [State.repairLine_want, State.repairLine_want]
      rfl

end Sys2Proof.Machine

/-!
The writes of the repair map and the scrub of the DRAM (R194, R195, R200), and with them O13.
-/

namespace Sys2Proof.Machine

/-! ## Writes of the repair map (R194, R195) -/

theorem State.nvPage_verified {s : State} (h : s.bit Reg.NVS_INJ 0 = false) (c : Nat) (rb : ReadBack) :
    (s.nvPage c rb).2 = (rb.first || rb.second) := by
  have ht : s.injTest Reg.NVS_INJ 0 rb.first = rb.first := by rw [State.injTest, h, Bool.bne_false]
  unfold State.nvPage
  rw [ht]
  cases rb.first
  · cases rb.second <;> rfl
  · rfl

/-- The registers that a page program changes. -/
def pageRegs : List Nat :=
  [Reg.NVS_CNT_PAGE, Reg.NVS_STAT, Reg.NVS_CNT_VERIFY, Reg.NVS_IRQ, Reg.NVS_INJ, Reg.ZID_CNT_INJ] ++ pinRegs

theorem State.nvPage_keepsRegs (s : State) (c : Nat) (rb : ReadBack) : s.keepsRegs (s.nvPage c rb).1 pageRegs := fun b hb => by
  simp only [pageRegs, List.mem_append, List.mem_cons, List.not_mem_nil, or_false, not_or] at hb
  obtain ⟨⟨h1, h2, h3, h4, h5, h6⟩, h7⟩ := hb
  have hfirst : (((s.count Reg.NVS_CNT_PAGE).injRan Reg.NVS_INJ 0).charge c resNvw 24).rd b = s.rd b := by
    rw [State.charge_rd, State.injRan_rd _ _ _ _ h5 h6, State.rd_count, if_neg h1]
  have hsecond (u : State) (n : Nat) : ((u.count Reg.NVS_CNT_PAGE).charge c resNvw n).rd b = u.rd b := by
    rw [State.charge_rd, State.rd_count, if_neg h1]
  have hfailed (u : State) : (((u.setBit Reg.NVS_STAT 1 true).count Reg.NVS_CNT_VERIFY).irqNvs 1).rd b = u.rd b := by
    rw [State.irqNvs, State.irqAt_rd _ _ _ _ _ _ h7, if_neg h4, State.rd_count, if_neg h3, State.rd_setBit, if_neg h2]
  unfold State.nvPage
  dsimp only
  split_ifs
  · exact hfirst
  · exact (hsecond _ _).trans hfirst
  · exact (hfailed _).trans ((hsecond _ _).trans hfirst)

theorem State.mapPages_verified {s : State} (h : s.bit Reg.NVS_INJ 0 = false) (rb : ReadBack) :
    (s.mapPages rb).2 = (rb.first || rb.second) := by
  rw [← s.nvPage_verified h classSelf rb]
  unfold State.mapPages
  dsimp only
  split_ifs with hv
  · exact hv.symm
  · rfl

theorem State.mapPages_keepsRegs (s : State) (rb : ReadBack) : s.keepsRegs (s.mapPages rb).1 pageRegs := fun b hb => by
  have hp : b ≠ Reg.NVS_CNT_PAGE := fun e => hb (e ▸ by decide)
  have hpage := s.nvPage_keepsRegs classSelf rb b hb
  unfold State.mapPages
  dsimp only
  split_ifs
  · rw [State.charge_rd, State.rd_countN, if_neg hp, hpage]
  · exact hpage

theorem State.mapPages_fab (s : State) (rb : ReadBack) : (s.mapPages rb).1.fab = s.fab :=
  (State.mapPages_keeps (k := 8388864) rfl (Keeps.refl s)).fab_same rfl

theorem State.mapToB_congr {s t : State} (h : t.fab = s.fab) : t.mapToB = s.mapToB := by
  unfold State.mapToB State.mapA State.mapB
  rw [h]

/-- A copy is written, the newer one stays. -/
theorem State.putMap_fab (s : State) (t : Tab 8) :
    (s.putMap t).fab = if s.mapToB then { s.fab with copyB := t } else { s.fab with copyA := t } := by
  unfold State.putMap
  split_ifs <;> rfl

/-- The map write has a map to write, and has not failed in this lap. -/
def State.mapRuns (s : State) : Bool := s.mapDue && decide (s.fab.mapTry ≠ some s.lap.count)

theorem State.mapRuns_not (s : State) : (!s.mapDue || decide (s.fab.mapTry = some s.lap.count)) = !s.mapRuns := by
  simp only [State.mapRuns, Bool.not_and, ← decide_not, not_not]

theorem State.mapWrite_idle {s : State} (rb : ReadBack) (h : s.mapRuns = false) : s.mapWrite rb = s := by
  unfold State.mapWrite
  rw [s.mapRuns_not, h]
  rfl

/-- A verified write of the older copy, which comes into use. -/
def State.mapWritten (s : State) (rb : ReadBack) : State :=
  let s1 := (s.mapPages rb).1.putMap s.mapNext.tab
  (({ s1 with fab := { s1.fab with use := s.mapNext, want := s.mapNext, mapTry := none } }).wr Reg.FAB_MAP_SEQ s.mapNext.seq).count
    Reg.FAB_CNT_MAPWRITE

/-- A write of the older copy that did not verify. -/
def State.mapFailed (s : State) (rb : ReadBack) : State :=
  let s1 := (s.mapPages rb).1.putMap s.mapNext.torn
  ({ s1 with fab := { s1.fab with mapTry := some s.lap.count } }).setBit Reg.FAB_STAT 7 true

theorem State.mapWrite_runs {s : State} (hi : s.bit Reg.NVS_INJ 0 = false) (rb : ReadBack) (h : s.mapRuns = true) :
    s.mapWrite rb = if rb.first || rb.second then s.mapWritten rb else s.mapFailed rb := by
  rw [← s.mapPages_verified hi rb]
  unfold State.mapWrite
  rw [s.mapRuns_not, h]
  rfl

theorem State.putMap_regs (s : State) (t : Tab 8) : (s.putMap t).regs = s.regs := by
  unfold State.putMap
  split_ifs <;> rfl

/-- A verified write replaces the older copy, and its map comes into use. -/
theorem State.mapWritten_fab (s : State) (rb : ReadBack) :
    (s.mapWritten rb).fab = { s.fab with
      copyA := if s.mapToB then s.fab.copyA else s.mapNext.tab
      copyB := if s.mapToB then s.mapNext.tab else s.fab.copyB
      use := s.mapNext, want := s.mapNext, mapTry := none } := by
  have h := (s.mapPages rb).1.putMap_fab s.mapNext.tab
  rw [State.mapToB_congr (s.mapPages_fab rb), s.mapPages_fab rb] at h
  have hw : (s.mapWritten rb).fab = { ((s.mapPages rb).1.putMap s.mapNext.tab).fab with use := s.mapNext, want := s.mapNext, mapTry := none } := rfl
  rw [hw, h]
  split_ifs <;> rfl

/-- A failed write spoils the older copy alone. -/
theorem State.mapFailed_fab (s : State) (rb : ReadBack) :
    (s.mapFailed rb).fab = { s.fab with
      copyA := if s.mapToB then s.fab.copyA else s.mapNext.torn
      copyB := if s.mapToB then s.mapNext.torn else s.fab.copyB
      mapTry := some s.lap.count } := by
  have h := (s.mapPages rb).1.putMap_fab s.mapNext.torn
  rw [State.mapToB_congr (s.mapPages_fab rb), s.mapPages_fab rb] at h
  have hw : (s.mapFailed rb).fab = { ((s.mapPages rb).1.putMap s.mapNext.torn).fab with mapTry := some s.lap.count } := rfl
  rw [hw, h]
  split_ifs <;> rfl

theorem State.rd_setFab (s : State) (f : FabState) (b : Nat) : ({ s with fab := f } : State).rd b = s.rd b := rfl

theorem State.putPages_rd (s : State) (rb : ReadBack) (t : Tab 8) {b : Nat} (hb : b ∉ pageRegs) :
    ((s.mapPages rb).1.putMap t).rd b = s.rd b :=
  (State.rd_congr (State.putMap_regs _ t) b).trans (s.mapPages_keepsRegs rb b hb)

theorem State.mapWritten_rd (s : State) (rb : ReadBack) {b : Nat} (hb : b ∉ pageRegs) :
    (s.mapWritten rb).rd b =
      if b = Reg.FAB_CNT_MAPWRITE then satWordN ((s.rd b).toNat + 1) else if b = Reg.FAB_MAP_SEQ then s.mapNext.seq else s.rd b := by
  have hcnt : Reg.FAB_CNT_MAPWRITE ∉ pageRegs ∧ Reg.FAB_CNT_MAPWRITE ≠ Reg.FAB_MAP_SEQ := by decide
  simp only [State.mapWritten, State.rd_count, State.rd_wr, State.rd_setFab, s.putPages_rd rb _ hb, s.putPages_rd rb _ hcnt.1, if_neg hcnt.2]
  split_ifs with e
  · rw [e]
  · rfl
  · rfl

theorem State.mapFailed_rd (s : State) (rb : ReadBack) {b : Nat} (hb : b ∉ pageRegs) :
    (s.mapFailed rb).rd b = if b = Reg.FAB_STAT then putBit (s.rd b) 7 true else s.rd b := by
  have hstat : Reg.FAB_STAT ∉ pageRegs := by decide
  simp only [State.mapFailed, State.rd_setBit, State.rd_setFab, s.putPages_rd rb _ hb, s.putPages_rd rb _ hstat]
  split_ifs with e
  · rw [e]
  · rfl

/-- The registers that a map write changes. -/
def mapWriteRegs : List Nat := Reg.FAB_MAP_SEQ :: Reg.FAB_CNT_MAPWRITE :: Reg.FAB_STAT :: pageRegs

theorem State.mapWrite_keepsRegs {s : State} (hi : s.bit Reg.NVS_INJ 0 = false) (rb : ReadBack) :
    s.keepsRegs (s.mapWrite rb) mapWriteRegs := fun b hb => by
  simp only [mapWriteRegs, List.mem_cons, not_or] at hb
  obtain ⟨h1, h2, h3, h4⟩ := hb
  cases hr : s.mapRuns with
  | false => rw [State.mapWrite_idle rb hr]
  | true =>
    rw [State.mapWrite_runs hi rb hr]
    split_ifs
    · rw [s.mapWritten_rd rb h4, if_neg h2, if_neg h1]
    · rw [s.mapFailed_rd rb h4, if_neg h3]

theorem State.mapRuns_clearSent (s : State) : s.clearSent.mapRuns = s.mapRuns := rfl

theorem State.mapNext_clearSent (s : State) : s.clearSent.mapNext = s.mapNext := rfl

theorem State.mapToB_clearSent (s : State) : s.clearSent.mapToB = s.mapToB := State.mapToB_congr rfl

theorem exec_mapWrite {s : State} (hs : s.supplied) (rb : ReadBack) : exec (.mapWrite rb) s = .next (s.clearSent.mapWrite rb) :=
  show execMapWrite rb s = _ from State.act_supplied hs

/-- What a map write leaves (R194, R195). -/
theorem mapWrite_writes (rb : ReadBack) (s : State) (hs : s.supplied) (hinj : s.bit Reg.NVS_INJ 0 = false) :
    ∃ t, exec (.mapWrite rb) s = .next t
      ∧ (let runs := s.mapDue && decide (s.fab.mapTry ≠ some s.lap.count)
         let good := rb.first || rb.second
         let m := { s.fab.want with seq := s.mapOtherSeq + 1 }
         (runs = false → t = s.clearSent)
         ∧ (runs = true → (if s.mapToB then t.fab.copyA = s.fab.copyA else t.fab.copyB = s.fab.copyB))
         ∧ (runs = true → good = true → (if s.mapToB then t.fab.copyB else t.fab.copyA) = m.tab ∧ t.fab.use = m ∧ t.rd Reg.FAB_MAP_SEQ = m.seq
            ∧ t.fab.mapTry = none ∧ t.nat Reg.FAB_CNT_MAPWRITE = min 0xFFFFFFFF (s.nat Reg.FAB_CNT_MAPWRITE + 1))
         ∧ (runs = true → good = false → (if s.mapToB then t.fab.copyB else t.fab.copyA) = m.torn ∧ t.fab.use = s.fab.use ∧ t.fab.want = s.fab.want
            ∧ t.fab.mapTry = some s.lap.count ∧ t.bit Reg.FAB_STAT 7 = true ∧ t.rd Reg.FAB_MAP_SEQ = s.rd Reg.FAB_MAP_SEQ))
      ∧ s.keepsRegs t ([Reg.FAB_MAP_SEQ, Reg.FAB_CNT_MAPWRITE, Reg.FAB_STAT, Reg.NVS_CNT_PAGE, Reg.NVS_STAT, Reg.NVS_CNT_VERIFY, Reg.NVS_IRQ, Reg.NVS_INJ,
          Reg.ZID_CNT_INJ] ++ pinRegs) ∧ s.keepsParts t [.sent, .zid, .fab, .used] := by
  have ht := exec_mapWrite hs rb
  have hb := s.mapToB_clearSent
  have hm := s.mapNext_clearSent
  have hrun (hr : s.mapRuns = true) := State.mapWrite_runs (s := s.clearSent) hinj rb (s.mapRuns_clearSent.trans hr)
  refine ⟨_, ht, ⟨fun hr => State.mapWrite_idle rb (s.mapRuns_clearSent.trans hr), fun hr => ?_, fun hr hg => ?_, fun hr hg => ?_⟩,
    State.mapWrite_keepsRegs (s := s.clearSent) hinj rb, (execMapWrite_keeps (k := 8390914) rfl ht).parts _ (fun p => by cases p <;> decide)⟩
  · rw [hrun hr]
    cases (rb.first || rb.second)
    · rw [if_neg (by decide : ¬false = true), State.mapFailed_fab, hb]
      cases s.mapToB <;> rfl
    · rw [if_pos (rfl : true = true), State.mapWritten_fab, hb]
      cases s.mapToB <;> rfl
  · rw [hrun hr, hg, if_pos (rfl : true = true), State.mapWritten_fab, hb, hm]
    refine ⟨?_, rfl, ?_, rfl, ?_⟩
    · cases s.mapToB <;> rfl
    · rw [State.mapWritten_rd _ rb (by decide), if_neg (by decide), if_pos rfl]
      rfl
    · rw [State.nat_eq, State.mapWritten_rd _ rb (by decide), if_pos rfl]
      exact satWordN_toNat _
  · rw [hrun hr, hg, if_neg (by decide : ¬false = true), State.mapFailed_fab, hb, hm]
    refine ⟨?_, rfl, rfl, rfl, ?_, ?_⟩
    · cases s.mapToB <;> rfl
    · rw [State.bit_eq, State.mapFailed_rd _ rb (by decide), if_pos rfl]
      exact bitOf_putBit_same _ _ _ (by decide)
    · rw [State.mapFailed_rd _ rb (by decide), if_neg (by decide)]
      rfl

/-! ## The DRAM's scrub (R200) -/

/-- A line of the DRAM that is dropped is read again from its image, and counts against the DRAM. -/
theorem State.blockReceive_image_keeps (s : State) (cls : Nat) (got : List Block) : Keeps 8390912 s (s.blockReceive 3 cls none .image got) := by
  have he : s.blockReceive 3 cls none .image got
      = (s.compared 3 cls).blockFails 3 cls none .image (s.failsOf 3 (got.map Block.bad)) := rfl
  have hc : Keeps 8390912 s (s.compared 3 cls) := (s.compared_keeps 3 cls).weaken rfl
  have hr : ∀ n, Keeps 8390912 s ((s.compared 3 cls).resent 3 cls n) := fun n => hc.trans ((State.resent_keeps _ 3 cls n).weaken rfl)
  rw [he, State.blockFails_eq]
  split_ifs
  · exact hr _
  · refine Keeps.only (fun u hu => State.dramDrop_keeps rfl hu) ?_
    exact State.dramFix_keeps rfl ((hr _).trans ((State.dropNoted_keeps _ 3 cls none).weaken rfl))

theorem State.compared_rd_quiet {s : State} {path : Nat} (h : s.injPath path = false) (cls b : Nat) : (s.compared path cls).rd b = s.rd b := by
  rw [State.compared, State.charge_rd, State.pathInjRan_quiet h]

/-- The DRAM's scrub steps to its next line. -/
def State.dramNext (s : State) : Nat := if s.fab.dramAt + 1 < s.dramLines then s.fab.dramAt + 1 else 0

theorem exec_dramScrub {s : State} (hs : s.supplied) (got : List Block) : exec (.dramScrub got) s = .next (s.clearSent.dramScrub got) :=
  show execDramScrub got s = _ from State.act_supplied hs

theorem State.dramScrub_as {α : Type} (g : State → α) (hg : ∀ (u : State) f, g { u with fab := f } = g u) (s : State) (got : List Block) :
    g (s.dramScrub got) = g (s.blockReceive 3 classSelf none .image got) := hg _ _

theorem State.dramScrub_fab (s : State) (got : List Block) :
    (s.dramScrub got).fab = { (s.blockReceive 3 classSelf none .image got).fab with dramAt := s.dramNext } := rfl

theorem State.dramScrub_kept (s : State) (got : List Block) : Keeps 8390912 s (s.dramScrub got) :=
  Keeps.set_fab rfl (fun _ g => g.fab) (s.blockReceive_image_keeps classSelf got)

theorem State.image_taken (s : State) (got : List Block) :
    s.blockReceive 3 classSelf none .image got = s.blockTaken (3 : Fin 5).val classSelf none .image got :=
  (State.blockTaken_eq classSelf none (.inr (by simp))).symm

/-- A reloaded line is counted. -/
theorem State.dramScrub_fixes (s : State) (got : List Block) :
    (s.dramScrub got).nat Reg.FAB_CNT_DRAMFIX
      = min 0xFFFFFFFF (s.nat Reg.FAB_CNT_DRAMFIX + (s.failsOf 3 (got.map Block.bad) == 5).toNat) := by
  rw [State.dramScrub_as (·.nat Reg.FAB_CNT_DRAMFIX) (fun _ _ => rfl), State.image_taken]
  rcases (s.failsOf_le 3 (got.map Block.bad)).lt_or_eq with h | h
  · rw [State.nat_eq, State.blockTaken_received_rd (path := 3) classSelf .image h, State.resent_rd, if_neg (by decide),
      State.compared_rd _ _ _ (by decide) (by decide), beq_eq_false_iff_ne.mpr h.ne]
    exact (min_eq_right (s.rd _).isLt.le_pred).symm
  · rw [State.blockTaken_image (path := 3) classSelf h, h]
    rfl

/-- What a scrub of the DRAM leaves (R187, R200). -/
theorem dramScrub_reads (got : List Block) (s : State) (hs : s.supplied) (hinj : s.rd Reg.FAB_INJ = 0#32) :
    ∃ t, exec (.dramScrub got) s = .next t
      ∧ (let n := ((((got.map (fun b => crc32c b.data != b.crc)) ++ List.replicate 5 false).take 5).takeWhile id).length
         t.fab.dramAt = (if s.fab.dramAt + 1 < s.dramLines then s.fab.dramAt + 1 else 0)
         ∧ t.nat (Reg.FAB_CNT_RESEND_p 3) = min 0xFFFFFFFF (s.nat (Reg.FAB_CNT_RESEND_p 3) + min 4 n)
         ∧ t.nat Reg.FAB_CNT_DRAMFIX = min 0xFFFFFFFF (s.nat Reg.FAB_CNT_DRAMFIX + (n == 5).toNat)
         ∧ t.used = ((s.charge classSelf resDram 1).charge classSelf resDram (min 4 n)).used
         ∧ (n < 5 → t.fab = { s.fab with dramAt := t.fab.dramAt } ∧ s.keepsRegs t [Reg.FAB_CNT_RESEND_p 3]))
      ∧ s.keepsParts t [.sent, .zid, .fab, .used] := by
  have ht := exec_dramScrub hs got
  have hk : Keeps 8390914 s (s.clearSent.dramScrub got) :=
    (State.clearSent_keeps rfl (Keeps.refl s)).trans ((s.clearSent.dramScrub_kept got).weaken rfl)
  have hq : s.clearSent.injPath 3 = false := State.injPath_quiet hinj (by decide)
  refine ⟨_, ht, ?_, hk.parts _ (fun p => by cases p <;> decide)⟩
  intro n
  have hn : s.clearSent.failsOf 3 (got.map Block.bad) = n := State.failsOf_quiet hq _
  clear_value n
  refine ⟨rfl, ?_, ?_, ?_, fun h => ⟨?_, fun b hb => ?_⟩⟩
  · rw [State.dramScrub_as (·.nat (Reg.FAB_CNT_RESEND_p 3)) (fun _ _ => rfl), State.image_taken, ← hn]
    exact State.blockTaken_resends (s := s.clearSent) (path := 3) classSelf .image (lane_lt none)
  · exact hn ▸ s.clearSent.dramScrub_fixes got
  · rw [State.dramScrub_as State.used (fun _ _ => rfl), ← hn]
    exact (State.blockReceive_used (s := s.clearSent) (path := 3) (lane := none) classSelf .image (by simp)).trans
      (State.charge_used_congr (pathRes_ne 3) (State.charge_used_congr (pathRes_ne 3) rfl))
  · rw [State.dramScrub_fab, (State.blockReceive_received_keeps classSelf none .image (hn ▸ h)).fab_same rfl]
    rfl
  · have h5 : s.clearSent.failsOf 3 (got.map Block.bad) < 5 := hn ▸ h
    rw [State.dramScrub_as (·.rd b) (fun _ _ => rfl), State.blockReceive_received (·.rd b) (fun _ _ => rfl) classSelf none .image h5,
      State.resent_rd, if_neg (by simpa using hb), State.compared_rd_quiet hq]
    rfl

/-- Settles O13: each clause is what its command leaves. -/
theorem fabricIntegrity : Obligations.FabricIntegrity :=
  ⟨blockReceive_receives, blockReceive_consumers, laneCheck_checks, scrubSegment_scrubs, mapWrite_writes, dramScrub_reads, dramRetrain_trains⟩

end Sys2Proof.Machine

/-!
A loop's output to a CAN signal (R226, R327) whose record names a channel that does not exist (R6), which refutes O14.
-/

namespace Sys2Proof.Machine

/-- An image with one loop (one LIMIT stage, PV from exchange variable 0, output to CAN signal 0) and one CAN signal, a LOOP signal
of 8 bits whose record names channel 4. R318 has a load refuse such a record; the statement admits every image. -/
def channel4Image : ImgBytes :=
  [(0x0C, 1, 2), -- two sections: LOOPS at 0x100, CANF at 0x200
   (0x40, 1, secLoops), (0x45, 1, 1), (0x50, 1, secCanf), (0x55, 1, 2),
   (0x102, 1, 1), (0x110, 1, 1), (0x114, 2, 0x8000), (0x116, 2, 0x2000), (0x118, 1, 40), (0x120, 1, 4), (0x128, 1, 40),
   (0x202, 2, 1), (0xF90, 1, 4), (0xF91, 1, 5), (0xF93, 1, 8)].foldl (fun t e => tabSetList 0#8 t e.1 (leBytes e.2.1 e.2.2)) []

/-- The module with that image running from slot A, and its loop running with a period of 2 ticks. -/
def loopToChannel4 : State :=
  (({ State.reset with img := { resetImg with slotA := channel4Image }, boot := { resetBoot with control := true } }.wr Reg.IMG_RUN 2#32).wr
    (Reg.LOOP_n_CTRL 0) 1#32).wr (Reg.LOOP_n_PERIOD 0) 2#32

/-- The sample sets the named buffer READY (R327), at an address past the CAN block. -/
theorem loopToChannel4_sets_ready :
    (loopToChannel4.clearSent.loopSample 0 false 0).rd (Reg.CAN_TXB_b_CTRL 4 0) = 1#32 := by decide +kernel

theorem exec_loopSample {s : State} (hs : s.supplied) (loop : Fin 64) (busy : Bool) (delay : BitVec 16) :
    exec (.loopSample loop busy delay) s = .next (s.clearSent.loopSample loop.val busy delay.toNat) :=
  show execLoopSample loop busy delay s = _ from State.act_supplied hs

/-- Refutes O14: a sample whose destination is a CAN signal sets the signal's buffer READY, and where the image's record names channel 4
that writes 1 to address 0x54600, which lies outside the CAN block, while the statement lets such a sample change no register
outside that block but the loop's own. -/
theorem not_loopEngine : ¬ Obligations.LoopEngine := by
  intro h
  obtain ⟨-, hsample, -⟩ := h
  have hs : loopToChannel4.supplied := by unfold State.supplied; decide
  have hdst : (loopToChannel4.runImg.loop 0).dstClass = 2 := by decide +kernel
  obtain ⟨t, ht, ⟨-, -, -, -, -, -, -, -, -, -, -, -, -, hframe⟩, -⟩ := hsample 0 false 0#16 loopToChannel4 hs (by decide) (by decide +kernel)
    (by decide) (by decide +kernel) (by decide +kernel)
  have hkept : t.rd (Reg.CAN_TXB_b_CTRL 4 0) = loopToChannel4.rd (Reg.CAN_TXB_b_CTRL 4 0) :=
    hframe (Reg.CAN_TXB_b_CTRL 4 0) (by decide) (fun _ => by decide) (fun _ hcan => absurd hdst hcan)
  have e : t = loopToChannel4.clearSent.loopSample 0 false 0 :=
    Host.Outcome.next.inj (ht.symm.trans (exec_loopSample hs 0 false 0#16))
  rw [e, loopToChannel4_sets_ready] at hkept
  exact absurd hkept (by decide)

end Sys2Proof.Machine

/-!
The program's output to a CAN signal (R327), whose insertion at the apply instant is charged to CAN (R331), which refutes O15.
-/

namespace Sys2Proof.Machine

/-- An image whose program evaluates no block and has one OUT variable, exchange variable 0, and whose one CAN signal is an FBP signal:
the low 8 bits of buffer 0 of channel 0, which the program owns, take that variable. -/
def fbpSignalImage : ImgBytes :=
  [(0x0C, 1, 2), -- two sections: FBPROG at 0x100, CANF at 0x400
   (0x40, 1, secFbprog), (0x44, 4, 0x100), (0x48, 4, 0x240), (0x50, 1, secCanf), (0x54, 4, 0x400), (0x58, 4, 0xDA0),
   (0x118, 4, 0x40), (0x140, 1, 1), -- XVDIR at 0x40 of the section: variable 0 is OUT
   (0x400, 2, 1), (0x402, 2, 1), (0x654, 4, 0x208), (0x1191, 1, 1), (0x1193, 1, 8)].foldl (fun t e => tabSetList 0#8 t e.1 (leBytes e.2.1 e.2.2)) []

/-- The CANF section keeps every rule of R318, so the refutation does not rest on a record that a load refuses. -/
theorem fbpSignalImage_canf : fbpSignalImage.canfBad = false := by decide +kernel

/-- The module with that image running from slot A, its program RUNNING, and a cycle open. -/
def fbpSignalCycle : State :=
  ({ State.reset with img := { resetImg with slotA := fbpSignalImage }, fbp := { resetFbp with cycleOpen := true } }.wr Reg.IMG_RUN 2#32).wr
    Reg.FBP_STATE 2#32

/-- At the apply instant the signal takes its variable, and CAN is charged 1 FAB block (R331). -/
theorem fbpSignalCycle_charges_can :
    listGet (fbpSignalCycle.clearSent.fbpApply false false).used (4 * classCan + resFab) = 1 := by decide +kernel

theorem exec_fbpApply {s : State} (hs : s.supplied) (executed timedOut : Bool) :
    exec (.fbpApply executed timedOut) s = .next (s.clearSent.fbpApply executed timedOut) :=
  show execFbpApply executed timedOut s = _ from State.act_supplied hs

/-- Refutes O15: the statement has an apply instant charge nothing but the program's last tick of execution on CORE, while an FBP signal
of the running image takes its OUT variable at that instant, and its insertion charges CAN 1 FAB block. -/
theorem not_programAndForcing : ¬ Obligations.ProgramAndForcing := by
  intro h
  obtain ⟨⟨-, happly, -⟩, -⟩ := h
  have hs : fbpSignalCycle.supplied := by unfold State.supplied; decide
  obtain ⟨t, ht, ⟨-, -, -, hused, -⟩, -⟩ := happly false false fbpSignalCycle hs (by decide) (by decide)
  have hcan : listGet t.used (4 * classCan + resFab) = 0 := by
    rw [hused, Bool.false_and, Bool.toNat_false, State.charge_zero_used]
    decide
  have e : t = fbpSignalCycle.clearSent.fbpApply false false :=
    Host.Outcome.next.inj (ht.symm.trans (exec_fbpApply hs false false))
  rw [e, fbpSignalCycle_charges_can] at hcan
  exact absurd hcan (by decide)

end Sys2Proof.Machine

/-!
The pace of the background calibration (R265): between two steps of a bank AIN_CAL_CTRL.LAPS laps pass, which refutes O16.
-/

namespace Sys2Proof.Machine

/-- An image whose analog inputs 0 and 1 are used, both with TYPE 3. -/
def twoInputsImage : ImgBytes :=
  [(0x0C, 1, 1), (0x40, 1, secIomap), (0x44, 4, 0x100), (0x48, 4, 0x400), -- one section: IOMAP at 0x100
   (0x120, 1, 3), (0x130, 1, 3)].foldl (fun t e => tabSetList 0#8 t e.1 (leBytes e.2.1 e.2.2)) []

/-- The module with that image running from slot A. AIN_CAL_CTRL holds its reset value: EN 1 and LAPS 50. -/
def twoInputs : State := { State.reset with img := { resetImg with slotA := twoInputsImage } }.wr Reg.IMG_RUN 2#32

/-- Bank 0 has begun the step of input 0 in lap 0 and has ended it well, so that the step of input 1 is the next one. -/
def firstStepEnded : State := (twoInputs.calStart 0 0 0x40000000).calEnd 0 0 0x40000000 0

theorem State.calStart_waits {s : State} {b : Nat} (h : s.calPaced b = false) (ofs : Int) (gain : Nat) : s.calStart b ofs gain = s := by
  simp [State.calStart, h]

/-- The 50 laps since the start of that step have not passed. -/
theorem firstStepEnded_waits : firstStepEnded.calPaced 0 = false := by decide +kernel

theorem exec_calRound {s : State} (hs : s.supplied) (b : Fin 4) (ofs : BitVec 24) (gain : BitVec 32) :
    exec (.calRound b ofs gain) s = .next (s.clearSent.calStart b.val ofs.toInt gain.toNat) :=
  show execCalRound b ofs gain s = _ from State.act_supplied hs

/-- Refutes O16: the statement has CAL_ROUND start the step of the next used channel whenever the bank calibrates, has a spare slice
and has no step under way, while the model waits for AIN_CAL_CTRL.LAPS laps after the start of the bank's last step (R265), so that
SPAREBUSY stays 0 when CAL_ROUND comes sooner. -/
theorem not_fieldInputs : ¬ Obligations.FieldInputs := by
  intro h
  obtain ⟨⟨-, -, -, hround, -⟩, -⟩ := h
  have hs : firstStepEnded.supplied := by unfold State.supplied; decide +kernel
  obtain ⟨t, ht, hbusy, -⟩ := hround 0 0#24 0x40000000#32 firstStepEnded hs (by decide +kernel) (by decide +kernel) (by decide +kernel) 1 []
    (by decide +kernel)
  have hwait : firstStepEnded.clearSent.calStart 0 (0#24).toInt (0x40000000#32).toNat = firstStepEnded.clearSent :=
    State.calStart_waits firstStepEnded_waits _ _
  have e : t = firstStepEnded.clearSent :=
    Host.Outcome.next.inj (ht.symm.trans ((exec_calRound hs 0 0#24 0x40000000#32).trans (congrArg _ hwait)))
  have hidle : firstStepEnded.clearSent.bit (Reg.AIN_BANK_b_STAT 0) 1 = false := by decide +kernel
  rw [e] at hbusy
  exact absurd (hbusy.symm.trans hidle) (by decide)

end Sys2Proof.Machine

/-!
Analog outputs: writes of AOUT_n_SET (R272, R273), faults (R276) and the readback (R275).
-/

namespace Sys2Proof.Machine

/-! ## Plain writes of a register (R4) -/

theorem State.plainWrite_rd {s : State} {a b : Nat} (v : Word) (h : b ≠ a) : (s.plainWrite a v).rd b = s.rd b := by
  rw [State.plainWrite, State.rd_wr, if_neg h]

/-- A register whose one field is RW holds what was written in that field. -/
theorem State.plainWrite_fld (s : State) {a lo n : Nat} {r : Rst} (v : Word) (h : fieldsAt a = [⟨lo, n, .rw, r⟩]) (hn : lo + n ≤ 32) :
    (s.plainWrite a v).fld a lo n = bitsOf v lo n := by
  simp only [State.plainWrite, clearFields, takeFields, h, List.foldl_cons, List.foldl_nil, Fld.put, Fld.get, State.fld_eq, State.rd_wr,
    if_true, reduceCtorEq, if_false]
  rw [bitsOf_putBits_same _ _ _ _ hn]
  exact Nat.mod_mod _ _

/-! ## Writes (R272, R273) -/

theorem bitOf_putBit (w : Word) (i : Nat) (x : Bool) {j : Nat} (hj : j < 32) : bitOf (putBit w i x) j = if j = i then x else bitOf w j := by
  split_ifs with h
  · rw [h, bitOf_putBit_same _ _ _ (h ▸ hj)]
  · exact bitOf_putBit_apart _ _ _ _ hj h

theorem counter_le (w : Word) : w.toNat ≤ 0xFFFFFFFF := Nat.le_of_lt_succ w.isLt

/-- A sticky bit that is set when a condition holds. -/
theorem bitOf_flagged (w : Word) {i : Nat} (hi : i < 32) (c : Bool) : bitOf (if c then putBit w i true else w) i = (bitOf w i || c) := by
  cases c
  · simp
  · simp [bitOf_putBit_same _ _ _ hi]

/-- A counter that counts when a condition holds (R481). -/
theorem counted_toNat (w : Word) (c : Bool) : (if c then satWordN (w.toNat + 1) else w).toNat = min 0xFFFFFFFF (w.toNat + c.toNat) := by
  cases c
  · simp [counter_le]
  · simp [satWordN_toNat]

theorem aoutSetReg_facts (n : Fin 16) : inNvWindow (Reg.AOUT_n_SET n.val) = false ∧ hasAcc .rws (Reg.AOUT_n_SET n.val) = false
    ∧ fieldsAt (Reg.AOUT_n_SET n.val) = [⟨0, 16, .rw, .val 0⟩] ∧ Reg.AOUT_n_SET n.val ∉ hostRegs := by
  revert n; decide

/-- An accepted write of AOUT_n_SET (R272, R273). -/
theorem aoutSetWrite_drives (src : Src) (n : Fin 16) (v : Word) (s : State) (hs : s.supplied) (hg : s.grants src (Reg.AOUT_n_SET n.val) v) :
    ∃ t, exec (.aoutSetWrite src n v) s = .next t
      ∧ t.answer.status = .ok ∧ t.fld (Reg.AOUT_n_SET n.val) 0 16 = bitsOf v 0 16
      ∧ t.field = { s.field with aoDrv := assocPut s.field.aoDrv n.val (clampInt (s.aoLimits n.val).1 (s.aoLimits n.val).2 (bitsOf v 0 16 : Nat)).toNat }
      ∧ s.keepsRegs t (Reg.AOUT_n_SET n.val :: hostRegs) ∧ s.keepsParts t (.field :: hostParts) := by
  obtain ⟨hwin, hacc, hfld, hhost⟩ := aoutSetReg_facts n
  obtain ⟨t, ht, hok, hr, hw, hk⟩ := State.write1_plain (k := 8405067) (w := s.clearSent.aoSet n.val v) hs hg hwin hacc
    (s.clearSent.wordWrite_aoSet _ n v) rfl rfl (State.aoSet_keeps rfl (Keeps.refl _))
  refine ⟨t, ht, hok, ?_, hw.field_same rfl, State.keepsRegs_request (l := [Reg.AOUT_n_SET n.val]) hr fun b hb => ?_,
    hk.parts _ (fun p => by cases p <;> decide)⟩
  · rw [State.fld_eq, hr _ hhost]
    exact s.clearSent.plainWrite_fld v hfld (by decide)
  · exact State.plainWrite_rd v (fun e => hb (List.mem_singleton.mpr e))

/-! ## Faults (R276, R538) -/

theorem State.aoInjRan_rd (s : State) (n : Nat) (k : AoFault) {b : Nat} (h1 : b ≠ Reg.AOUT_INJ) (h2 : b ≠ Reg.ZID_CNT_INJ) :
    (s.aoInjRan n k).rd b = s.rd b := by
  cases k <;> simp only [State.aoInjRan, State.rd_onlyIf, State.injRan_rd _ _ _ _ h1 h2, ite_self]

/-- A test that was inverted has cleared its injection bit. -/
theorem State.aoInjRan_clears {s : State} {n : Nat} {k : AoFault} (h : s.aoInj n k = true) :
    (s.aoInjRan n k).bit Reg.AOUT_INJ (aoFaultBit k) = false := by
  cases k
  case rev => exact absurd h Bool.false_ne_true
  all_goals
    obtain ⟨-, hn⟩ := (Bool.and_eq_true_iff).mp h
    rw [State.aoInjRan, hn]
    exact State.injRan_bit _ (by decide) (by decide)

/-- What the onset of a fault does: the NOW bit and the sticky bits, the count, the interrupt, the event. -/
def State.aoOnset (s : State) (n : Nat) (k : AoFault) : State :=
  (((((s.setBit (Reg.AOUT_n_STAT n) (16 + aoFaultBit k) true).setBit (Reg.AOUT_n_STAT n) (aoFaultBit k) true).setBit Reg.AOUT_STAT
    (aoFaultBit k) true).count (aoFaultCnt k)).irqAout 0).raiseEv 0x0A01 2 (leBytes 1 n ++ leBytes 1 (aoFaultBit k))

/-- The test of a fault finds the condition, its NOW bit being 0. -/
def State.aoBegins (s : State) (n : Nat) (k : AoFault) (present : Bool) : Bool :=
  (present != s.aoInj n k) && !s.bit (Reg.AOUT_n_STAT n) (16 + aoFaultBit k)

theorem aoutStat_apart (n : Fin 16) (k : AoFault) :
    Reg.AOUT_n_STAT n.val ∉ [Reg.AOUT_INJ, Reg.AOUT_STAT, aoFaultCnt k, Reg.AOUT_IRQ] ++ spoorRegs := by
  revert n; cases k <;> decide

theorem aoFaultCnt_apart (k : AoFault) : aoFaultCnt k ∉ [Reg.AOUT_INJ, Reg.AOUT_STAT, Reg.AOUT_IRQ] ++ spoorRegs := by
  cases k <;> decide

theorem State.aoTest_unjudged {s : State} {n : Nat} {k : AoFault} (h : s.aoJudged n k = false) (present : Bool) : s.aoTest n k present = s := by
  simp [State.aoTest, h]

theorem State.aoTest_judged {s : State} {n : Fin 16} {k : AoFault} (h : s.aoJudged n.val k = true) (present : Bool) :
    s.aoTest n.val k present = if s.aoBegins n.val k present then (s.aoInjRan n.val k).aoOnset n.val k
      else (s.aoInjRan n.val k).setBit (Reg.AOUT_n_STAT n.val) (16 + aoFaultBit k) (present != s.aoInj n.val k) := by
  have hn := aoutStat_apart n k
  have hbit : (s.aoInjRan n.val k).bit (Reg.AOUT_n_STAT n.val) (16 + aoFaultBit k) = s.bit (Reg.AOUT_n_STAT n.val) (16 + aoFaultBit k) :=
    congrArg (bitOf · _) (s.aoInjRan_rd _ k (fun e => hn (e ▸ by simp)) (fun e => hn (e ▸ by simp [spoorRegs])))
  simp only [State.aoTest, State.aoBegins, h, hbit, Bool.not_true, Bool.false_eq_true, if_false]
  rfl

/-- What the onset leaves in the registers that the event does not change. -/
theorem State.aoOnset_rd (s : State) (n : Fin 16) (k : AoFault) {b : Nat} (hb : b ∉ spoorRegs) :
    (s.aoOnset n.val k).rd b = if b = Reg.AOUT_IRQ then putBit (s.rd b) 0 true
      else if b = aoFaultCnt k then satWordN ((s.rd b).toNat + 1)
      else if b = Reg.AOUT_STAT then putBit (s.rd b) (aoFaultBit k) true
      else if b = Reg.AOUT_n_STAT n.val then putBit (putBit (s.rd b) (16 + aoFaultBit k) true) (aoFaultBit k) true else s.rd b := by
  have hn := aoutStat_apart n k
  have hc := aoFaultCnt_apart k
  simp only [List.mem_append, List.mem_cons, List.not_mem_nil, or_false, not_or] at hn hc
  obtain ⟨⟨-, n2, n3, n4⟩, -⟩ := hn
  obtain ⟨⟨-, c2, c3⟩, -⟩ := hc
  rw [State.aoOnset, State.raiseEv_rd _ _ _ _ _ hb, State.irqAout, State.irqAt_rd _ _ _ _ _ _ (not_pin_of_spoor hb)]
  simp only [State.rd_count, State.rd_setBit]
  split_ifs <;> simp_all

/-- What a judged test leaves in the registers that neither its injection nor an event changes. -/
theorem State.aoTest_rd {s : State} {n : Fin 16} {k : AoFault} (h : s.aoJudged n.val k = true) (present : Bool) {b : Nat}
    (hi : b ≠ Reg.AOUT_INJ) (hb : b ∉ spoorRegs) :
    (s.aoTest n.val k present).rd b =
      if s.aoBegins n.val k present then
        if b = Reg.AOUT_IRQ then putBit (s.rd b) 0 true
        else if b = aoFaultCnt k then satWordN ((s.rd b).toNat + 1)
        else if b = Reg.AOUT_STAT then putBit (s.rd b) (aoFaultBit k) true
        else if b = Reg.AOUT_n_STAT n.val then putBit (putBit (s.rd b) (16 + aoFaultBit k) true) (aoFaultBit k) true else s.rd b
      else if b = Reg.AOUT_n_STAT n.val then putBit (s.rd b) (16 + aoFaultBit k) (present != s.aoInj n.val k) else s.rd b := by
  have hs : (s.aoInjRan n.val k).rd b = s.rd b := s.aoInjRan_rd _ k hi (fun e => hb (e ▸ by decide))
  rw [State.aoTest_judged h]
  cases ho : s.aoBegins n.val k present
  case true => simp only [if_true, State.aoOnset_rd _ _ _ hb, hs]
  case false =>
    simp only [Bool.false_eq_true, if_false, State.rd_setBit]
    split_ifs with e
    · rw [← e, hs]
    · exact hs

theorem State.aoTest_inj {s : State} {n : Fin 16} {k : AoFault} (h : s.aoJudged n.val k = true) (present : Bool)
    (hi : s.aoInj n.val k = true) : (s.aoTest n.val k present).bit Reg.AOUT_INJ (aoFaultBit k) = false := by
  have hn : Reg.AOUT_INJ ≠ Reg.AOUT_n_STAT n.val := fun e => aoutStat_apart n k (e ▸ by simp)
  have hc : Reg.AOUT_INJ ≠ aoFaultCnt k := fun e => aoFaultCnt_apart k (e ▸ by simp)
  have hb : Reg.AOUT_INJ ∉ spoorRegs := by decide
  have hclear : bitOf ((s.aoInjRan n.val k).rd Reg.AOUT_INJ) (aoFaultBit k) = false := State.aoInjRan_clears hi
  rw [State.aoTest_judged h]
  split_ifs <;> simp [State.aoOnset_rd _ _ _ hb, hn, hc, hclear]

theorem State.aoTest_frame (s : State) (n k present) : Keeps 384 s (s.aoTest n k present) := by
  have hr : Keeps 384 s (s.aoInjRan n k) := by
    cases k
    case rev => exact Keeps.refl s
    all_goals
      unfold State.aoInjRan
      exact Keeps.only (fun _ hu => State.injRan_keeps rfl hu) (Keeps.refl s)
  unfold State.aoTest
  dsimp only
  split_ifs
  · exact Keeps.refl s
  · exact State.raiseEv_keeps rfl (State.irqAout_keeps rfl (State.count_keeps rfl (State.setBit_keeps rfl (State.setBit_keeps rfl
      (State.setBit_keeps rfl hr)))))
  · exact State.setBit_keeps rfl hr

theorem exec_aoutFault {s : State} (hs : s.supplied) (n : Fin 16) (k : AoFault) (present : Bool) :
    exec (.aoutFault n k present) s = .next (s.clearSent.aoTest n.val k present) :=
  show execAoutFault n k present s = _ from State.act_supplied hs

theorem State.aoInj_eq (s : State) (n : Nat) (k : AoFault) :
    s.aoInj n k = (decide (k ≠ .rev) && s.bit Reg.AOUT_INJ (aoFaultBit k) && s.fld Reg.AOUT_INJ 8 4 == n) := by
  cases k <;> simp [State.aoInj, State.injAo, aoFaultBit]

theorem State.aoJudged_eq (s : State) (n : Nat) (k : AoFault) :
    s.aoJudged n k = (s.iomap (0x220 + 16 * n) 1 == 1 || (s.iomap (0x220 + 16 * n) 1 == 2 && decide (k ≠ .openLoad))) := by
  rw [show s.iomap (0x220 + 16 * n) 1 = s.aoMode n from rfl]
  cases k <;> simp [State.aoJudged, beq_eq_decide]

/-- What a test of a fault shows (R276). -/
theorem State.aoTest_shows (s : State) (n : Fin 16) (k : AoFault) (present : Bool) :
    let i := aoFaultBit k
    let t := s.aoTest n.val k present
    let onset := s.aoJudged n.val k && (present != s.aoInj n.val k) && !s.bit (Reg.AOUT_n_STAT n.val) (16 + i)
    (s.aoJudged n.val k = false → t.regs = s.regs)
      ∧ (s.aoJudged n.val k = true → t.bit (Reg.AOUT_n_STAT n.val) (16 + i) = (present != s.aoInj n.val k)
        ∧ (s.aoInj n.val k = true → t.bit Reg.AOUT_INJ i = false))
      ∧ t.bit (Reg.AOUT_n_STAT n.val) i = (s.bit (Reg.AOUT_n_STAT n.val) i || onset) ∧ t.bit Reg.AOUT_STAT i = (s.bit Reg.AOUT_STAT i || onset)
      ∧ t.nat (aoFaultCnt k) = min 0xFFFFFFFF (s.nat (aoFaultCnt k) + onset.toNat) ∧ (onset = true → t.bit Reg.AOUT_IRQ 0 = true)
      ∧ s.keepsRegs t ([Reg.AOUT_n_STAT n.val, Reg.AOUT_INJ, Reg.AOUT_STAT, aoFaultCnt k, Reg.AOUT_IRQ] ++ spoorRegs) := by
  dsimp only
  cases hj : s.aoJudged n.val k
  case false => simp [State.aoTest_unjudged hj, State.keepsRegs, counter_le]
  case true =>
    have hn := aoutStat_apart n k
    have hc := aoFaultCnt_apart k
    have hi : aoFaultBit k < 3 := by cases k <;> decide
    simp only [List.mem_append, List.mem_cons, List.not_mem_nil, or_false, not_or] at hn hc
    obtain ⟨⟨n1, n2, n3, n4⟩, n5⟩ := hn
    obtain ⟨⟨c1, c2, c3⟩, c4⟩ := hc
    have hrd := fun b => State.aoTest_rd (b := b) hj present
    have hstat := hrd _ n1 n5
    have hblock := hrd Reg.AOUT_STAT (by decide) (by decide)
    have hcnt := hrd _ c1 c4
    have hirq := hrd Reg.AOUT_IRQ (by decide) (by decide)
    simp only [n2, n3, n4, if_false, if_true] at hstat
    simp only [c2, c3, Ne.symm n3, if_false, if_true] at hcnt
    simp only [Ne.symm c2, Ne.symm n2, show Reg.AOUT_STAT ≠ Reg.AOUT_IRQ by decide, if_false, if_true] at hblock
    simp only [Ne.symm n4, if_false, if_true] at hirq
    have hb : (true && (present != s.aoInj n.val k) && !s.bit (Reg.AOUT_n_STAT n.val) (16 + aoFaultBit k)) = s.aoBegins n.val k present := by
      rw [Bool.true_and, State.aoBegins]
    rw [hb]
    refine ⟨fun h => absurd h (by decide), fun _ => ⟨?_, fun h => State.aoTest_inj hj present h⟩, ?_, ?_, ?_, fun h => ?_, fun b hb => ?_⟩
    · rw [State.bit_eq, hstat]
      split_ifs with ho
      · rw [bitOf_putBit _ _ _ (by omega), if_neg (by omega), bitOf_putBit_same _ _ _ (by omega)]
        exact (Bool.and_eq_true_iff.mp ho).1.symm
      · exact bitOf_putBit_same _ _ _ (by omega)
    · rw [State.bit_eq, hstat]
      split_ifs with ho
      · simp [ho, bitOf_putBit_same _ _ _ (show aoFaultBit k < 32 by omega)]
      · simp [ho, bitOf_putBit_apart _ _ _ _ (show aoFaultBit k < 32 by omega) (show aoFaultBit k ≠ 16 + aoFaultBit k by omega)]
    · rw [State.bit_eq, hblock]
      exact bitOf_flagged _ (by omega) _
    · rw [State.nat_eq, hcnt]
      exact counted_toNat _ _
    · rw [State.bit_eq, hirq, if_pos h, bitOf_putBit_same _ _ _ (by decide)]
    · simp only [List.mem_append, List.mem_cons, List.not_mem_nil, or_false, not_or] at hb
      obtain ⟨⟨b1, b2, b3, b4, b5⟩, b6⟩ := hb
      rw [hrd b b2 b6]
      simp only [b1, b3, b4, b5, if_false, ite_self]

/-- AOUT_FAULT (R276, R538). -/
theorem aoutFault_judges (n : Fin 16) (k : AoFault) (present : Bool) (s : State) (hs : s.supplied) :
    ∃ t, exec (.aoutFault n k present) s = .next t
      ∧ (let i := aoFaultBit k
         let cnt := aoFaultCnt k
         let inj := decide (k ≠ .rev) && s.bit Reg.AOUT_INJ i && s.fld Reg.AOUT_INJ 8 4 == n
         let mode := s.iomap (0x220 + 16 * n.val) 1
         let judged := mode == 1 || (mode == 2 && decide (k ≠ .openLoad))
         let now := present != inj
         let onset := judged && now && !s.bit (Reg.AOUT_n_STAT n.val) (16 + i)
         (judged = false → t.regs = s.regs)
         ∧ (judged = true → t.bit (Reg.AOUT_n_STAT n.val) (16 + i) = now ∧ (inj = true → t.bit Reg.AOUT_INJ i = false))
         ∧ t.bit (Reg.AOUT_n_STAT n.val) i = (s.bit (Reg.AOUT_n_STAT n.val) i || onset) ∧ t.bit Reg.AOUT_STAT i = (s.bit Reg.AOUT_STAT i || onset)
         ∧ t.nat cnt = min 0xFFFFFFFF (s.nat cnt + onset.toNat) ∧ (onset = true → t.bit Reg.AOUT_IRQ 0 = true)
         ∧ s.keepsRegs t ([Reg.AOUT_n_STAT n.val, Reg.AOUT_INJ, Reg.AOUT_STAT, cnt, Reg.AOUT_IRQ] ++ spoorRegs))
      ∧ s.keepsParts t [.sent, .spr, .zid] := by
  have hk : Keeps 386 s (s.clearSent.aoTest n.val k present) :=
    Keeps.trans (State.clearSent_keeps rfl (Keeps.refl s)) ((s.clearSent.aoTest_frame _ _ _).weaken rfl)
  refine ⟨_, exec_aoutFault hs n k present, ?_, hk.parts _ (fun p => by cases p <;> decide)⟩
  dsimp only
  rw [← State.aoInj_eq, ← State.aoJudged_eq]
  exact s.clearSent.aoTest_shows n k present

theorem State.aoFaultEnd_stat (s : State) (n : Nat) (k : AoFault) (b : Nat) :
    (s.aoFaultEnd n k).rd b = if b = Reg.AOUT_n_STAT n then putBit (s.rd b) (16 + aoFaultBit k) false else s.rd b := by
  rw [State.aoFaultEnd, State.rd_setBit]
  split_ifs with h
  · rw [h]
  · rfl

/-- AOUT_FAULT_END (R276). -/
theorem aoutFaultEnd_clears (n : Fin 16) (k : AoFault) (s : State) (hs : s.supplied) : ∃ t, exec (.aoutFaultEnd n k) s = .next t
    ∧ t.rd (Reg.AOUT_n_STAT n.val) = putBit (s.rd (Reg.AOUT_n_STAT n.val)) (match k with | .short => 16 | .openLoad => 17 | .rev => 18) false
    ∧ s.keepsRegs t [Reg.AOUT_n_STAT n.val] ∧ s.keepsParts t [.sent] := by
  have ht : exec (.aoutFaultEnd n k) s = .next (s.clearSent.aoFaultEnd n.val k) :=
    show execAoutFaultEnd n k s = _ from State.act_supplied hs
  have hk : Keeps 2 s (s.clearSent.aoFaultEnd n.val k) := execAoutFaultEnd_keeps rfl ht
  refine ⟨_, ht, ?_, fun b hb => ?_, hk.parts _ (fun p => by cases p <;> decide)⟩
  · rw [State.aoFaultEnd_stat, if_pos rfl]
    cases k <;> rfl
  · exact (s.clearSent.aoFaultEnd_stat _ _ _).trans (if_neg (fun e => hb (List.mem_singleton.mpr e)))

/-! ## Readback (R275, R538) -/

theorem wordOfInt_eq (v : Int) : wordOfInt v = BitVec.ofInt 32 v := by
  apply BitVec.eq_of_toNat_eq
  rw [wordOfInt, wrapInt, BitVec.toNat_ofNat, BitVec.toNat_ofInt]
  exact Nat.mod_eq_of_lt (by omega)

/-- The readback of an output is compared: the output drives a code and has no fault. -/
def State.aoCompares (s : State) (n : Nat) : Bool := s.aoDrives n && s.fld (Reg.AOUT_n_STAT n) 16 3 == 0

/-- AOUT_INJ inverts the comparison of this reading. -/
def State.aoReadInj (s : State) (n : Nat) : Bool := s.aoCompares n && s.bit Reg.AOUT_INJ 2 && s.fld Reg.AOUT_INJ 8 4 == n

/-- The consecutive deviating readings with this one. -/
def State.aoDevCount (s : State) (n : Nat) (v : Int) : Nat :=
  if s.aoCompares n && (s.aoDeviates n v != s.aoReadInj n) then (if s.aoReadInj n then 8 else assocGet 0 s.field.aoDev n + 1) else 0

/-- The reading is kept, the inverted comparison has run, and the deviating readings are counted. -/
def State.aoRead (s : State) (n : Nat) (v : Int) : State :=
  let s1 := (s.wr (Reg.AOUT_n_RB n) (wordOfInt v)).onlyIf (s.aoReadInj n) (fun s => s.injRan Reg.AOUT_INJ 2)
  let k := s.aoDevCount n v
  { s1 with field := { s1.field with aoDev := if k = 0 then assocDel s1.field.aoDev n else assocPut s1.field.aoDev n k } }

/-- DEV of an output. -/
def State.aoDevSet (s : State) (n : Nat) : State :=
  (((s.setBit (Reg.AOUT_n_STAT n) 3 true).setBit Reg.AOUT_STAT 3 true).count Reg.AOUT_CNT_DEV).irqAout 1

theorem State.aoReadback_eq (s : State) (n : Nat) (v : Int) :
    s.aoReadback n v = (s.aoRead n v).onlyIf (decide (s.aoDevCount n v = 8)) (fun t => t.aoDevSet n) := by
  have hidle : (!s.aoDrives n || s.fld (Reg.AOUT_n_STAT n) 16 3 != 0) = !s.aoCompares n := by
    rw [State.aoCompares, Bool.not_and, bne]
  unfold State.aoReadback
  rw [hidle]
  cases hc : s.aoCompares n
  case false =>
    have hj : s.aoReadInj n = false := by simp [State.aoReadInj, hc]
    have hk : s.aoDevCount n v = 0 := by simp [State.aoDevCount, hc]
    rw [State.aoRead, hk, hj]
    rfl
  case true =>
    have hj : (s.bit Reg.AOUT_INJ 2 && s.injAo n) = s.aoReadInj n := by
      rw [State.aoReadInj, hc]
      rfl
    have hk : (if (s.aoDeviates n v != s.aoReadInj n) = true then if s.aoReadInj n = true then 8 else assocGet 0 s.field.aoDev n + 1 else 0)
        = s.aoDevCount n v := by
      rw [State.aoDevCount, hc, Bool.true_and]
    rw [hj, if_neg (by decide)]
    dsimp only
    rw [hk]
    by_cases h8 : s.aoDevCount n v = 8
    · rw [if_pos h8, decide_eq_true h8]
      rfl
    · rw [if_neg h8, decide_eq_false h8]
      rfl

theorem State.aoRead_rd (s : State) (n : Nat) (v : Int) {b : Nat} (h1 : b ≠ Reg.AOUT_INJ) (h2 : b ≠ Reg.ZID_CNT_INJ) :
    (s.aoRead n v).rd b = if b = Reg.AOUT_n_RB n then wordOfInt v else s.rd b := by
  have h : ∀ u : State, (u.onlyIf (s.aoReadInj n) (fun s => s.injRan Reg.AOUT_INJ 2)).rd b = u.rd b := fun u => by
    rw [State.rd_onlyIf, State.injRan_rd _ _ _ _ h1 h2, ite_self]
  exact (h _).trans (State.rd_wr _ _ _ _)

theorem aoutRb_apart (n : Fin 16) : Reg.AOUT_n_RB n.val ∉ [Reg.AOUT_n_STAT n.val, Reg.AOUT_STAT, Reg.AOUT_CNT_DEV, Reg.AOUT_IRQ, Reg.AOUT_INJ] ++ spoorRegs
    ∧ Reg.AOUT_n_STAT n.val ∉ [Reg.AOUT_STAT, Reg.AOUT_CNT_DEV, Reg.AOUT_IRQ, Reg.AOUT_INJ] ++ spoorRegs := by
  revert n; decide

theorem State.aoDevSet_rd (s : State) (n : Fin 16) {b : Nat} (hp : b ∉ pinRegs) :
    (s.aoDevSet n.val).rd b = if b = Reg.AOUT_IRQ then putBit (s.rd b) 1 true
      else if b = Reg.AOUT_CNT_DEV then satWordN ((s.rd b).toNat + 1)
      else if b = Reg.AOUT_STAT ∨ b = Reg.AOUT_n_STAT n.val then putBit (s.rd b) 3 true else s.rd b := by
  obtain ⟨-, hn⟩ := aoutRb_apart n
  simp only [List.mem_append, List.mem_cons, List.not_mem_nil, or_false, not_or] at hn
  rw [State.aoDevSet, State.irqAout, State.irqAt_rd _ _ _ _ _ _ hp]
  simp only [State.rd_count, State.rd_setBit]
  split_ifs <;> simp_all

/-- What a reading leaves in the registers that neither its injection nor a trigger of FAULT_N changes. -/
theorem State.aoReadback_rd (s : State) (n : Fin 16) (v : Int) {b : Nat} (h1 : b ≠ Reg.AOUT_INJ) (h2 : b ≠ Reg.ZID_CNT_INJ) (hp : b ∉ pinRegs) :
    (s.aoReadback n.val v).rd b =
      if b = Reg.AOUT_n_RB n.val then wordOfInt v
      else if decide (s.aoDevCount n.val v = 8) then
        if b = Reg.AOUT_IRQ then putBit (s.rd b) 1 true
        else if b = Reg.AOUT_CNT_DEV then satWordN ((s.rd b).toNat + 1)
        else if b = Reg.AOUT_STAT ∨ b = Reg.AOUT_n_STAT n.val then putBit (s.rd b) 3 true else s.rd b
      else s.rd b := by
  have hread := s.aoRead_rd n.val v h1 h2
  obtain ⟨hn, -⟩ := aoutRb_apart n
  simp only [List.mem_append, List.mem_cons, List.not_mem_nil, or_false, not_or] at hn
  rw [State.aoReadback_eq, State.rd_onlyIf, State.aoDevSet_rd _ _ hp, hread]
  by_cases hb : b = Reg.AOUT_n_RB n.val
  · simp [hb, hn]
  · simp only [hb, if_false]

theorem State.aoReadback_inj {s : State} {n : Fin 16} (v : Int) (h : s.aoReadInj n.val = true) :
    (s.aoReadback n.val v).bit Reg.AOUT_INJ 2 = false := by
  have hclear : bitOf ((s.aoRead n.val v).rd Reg.AOUT_INJ) 2 = false := by
    simp only [State.aoRead, h]
    exact State.injRan_bit (s.wr (Reg.AOUT_n_RB n.val) (wordOfInt v)) (by decide) (by decide)
  have hn : Reg.AOUT_INJ ≠ Reg.AOUT_n_STAT n.val := fun e => (aoutRb_apart n).2 (e ▸ by simp)
  rw [State.bit_eq, State.aoReadback_eq, State.rd_onlyIf, State.aoDevSet_rd _ _ (by decide)]
  simp [hn, hclear]

theorem State.aoDevSet_field (s : State) (n : Nat) : (s.aoDevSet n).field = s.field :=
  (State.irqAout_keeps (k := 256) rfl (State.count_keeps rfl (State.setBit_keeps rfl (State.setBit_keeps rfl (Keeps.refl s))))).field_same rfl

theorem State.aoReadback_dev (s : State) (n : Nat) (v : Int) : assocGet 0 (s.aoReadback n v).field.aoDev n = s.aoDevCount n v := by
  have h : (s.aoReadback n v).field = (s.aoRead n v).field := by
    rw [State.aoReadback_eq]
    unfold State.onlyIf
    split
    · exact State.aoDevSet_field _ _
    · rfl
  rw [h, State.aoRead]
  dsimp only
  split_ifs with h0
  · rw [assocGet_assocDel, if_pos rfl, h0]
  · rw [assocGet_assocPut, if_pos rfl]

/-- AOUT_READBACK (R275, R538). -/
theorem aoutReadback_reads (n : Fin 16) (v : BitVec 16) (s : State) (hs : s.supplied) : ∃ t, exec (.aoutReadback n v) s = .next t
    ∧ t.rd (Reg.AOUT_n_RB n.val) = BitVec.ofInt 32 v.toInt
    ∧ (let runs := s.aoDrives n.val && s.fld (Reg.AOUT_n_STAT n.val) 16 3 == 0
       let inj := runs && s.bit Reg.AOUT_INJ 2 && s.fld Reg.AOUT_INJ 8 4 == n.val
       let dev := s.aoDeviates n.val v.toInt != inj
       let k := if runs && dev then (if inj then 8 else assocGet 0 s.field.aoDev n.val + 1) else 0
       assocGet 0 t.field.aoDev n.val = k ∧ (inj = true → t.bit Reg.AOUT_INJ 2 = false)
       ∧ t.bit (Reg.AOUT_n_STAT n.val) 3 = (s.bit (Reg.AOUT_n_STAT n.val) 3 || k == 8) ∧ t.bit Reg.AOUT_STAT 3 = (s.bit Reg.AOUT_STAT 3 || k == 8)
       ∧ t.nat Reg.AOUT_CNT_DEV = min 0xFFFFFFFF (s.nat Reg.AOUT_CNT_DEV + (k == 8).toNat)
       ∧ t.bit Reg.AOUT_IRQ 1 = (s.bit Reg.AOUT_IRQ 1 || k == 8))
    ∧ s.keepsRegs t ([Reg.AOUT_n_RB n.val, Reg.AOUT_n_STAT n.val, Reg.AOUT_STAT, Reg.AOUT_CNT_DEV, Reg.AOUT_IRQ, Reg.AOUT_INJ, Reg.ZID_CNT_INJ] ++ pinRegs)
    ∧ s.keepsParts t [.sent, .zid, .field] := by
  have ht : exec (.aoutReadback n v) s = .next (s.clearSent.aoReadback n.val v.toInt) :=
    show execAoutReadback n v s = _ from State.act_supplied hs
  have hk : Keeps 16642 s (s.clearSent.aoReadback n.val v.toInt) := execAoutReadback_keeps rfl ht
  have hrd := fun b => s.clearSent.aoReadback_rd n v.toInt (b := b)
  obtain ⟨hrb, hst⟩ := aoutRb_apart n
  simp only [List.mem_append, List.mem_cons, List.not_mem_nil, or_false, not_or, spoorRegs] at hrb hst
  obtain ⟨⟨r1, r2, r3, r4, r5⟩, rp, rz, -⟩ := hrb
  obtain ⟨⟨t2, t3, t4, t5⟩, tp, tz, -⟩ := hst
  refine ⟨_, ht, ?_, ⟨s.clearSent.aoReadback_dev _ _, fun h => State.aoReadback_inj (s := s.clearSent) _ h, ?_, ?_, ?_, ?_⟩, fun b hb => ?_,
    hk.parts _ (fun p => by cases p <;> decide)⟩
  · rw [hrd _ r5 rz rp, if_pos rfl, wordOfInt_eq]
  · rw [State.bit_eq, hrd _ t5 tz tp]
    simp only [Ne.symm r1, t3, t4, or_true, if_false, if_true]
    exact bitOf_flagged _ (by decide) _
  · rw [State.bit_eq, hrd _ (by decide) (by decide) (by decide)]
    simp only [Ne.symm r2, show Reg.AOUT_STAT ≠ Reg.AOUT_IRQ by decide, show Reg.AOUT_STAT ≠ Reg.AOUT_CNT_DEV by decide, true_or, if_false, if_true]
    exact bitOf_flagged _ (by decide) _
  · rw [State.nat_eq, hrd _ (by decide) (by decide) (by decide)]
    simp only [Ne.symm r3, show Reg.AOUT_CNT_DEV ≠ Reg.AOUT_IRQ by decide, if_false, if_true]
    exact counted_toNat _ _
  · rw [State.bit_eq, hrd _ (by decide) (by decide) (by decide)]
    simp only [Ne.symm r4, if_false, if_true]
    exact bitOf_flagged _ (by decide) _
  · simp only [List.mem_append, List.mem_cons, List.not_mem_nil, or_false, not_or] at hb
    obtain ⟨⟨b1, b2, b3, b4, b5, b6, b7⟩, bp⟩ := hb
    rw [hrd b b6 b7 bp]
    simp only [b1, b2, b3, b4, b5, or_self, if_false, ite_self]
    rfl

end Sys2Proof.Machine

/-!
Digital outputs: writes of DIO_DO_SET (R282), CLRFAULT, trips and retries (R280).
-/

namespace Sys2Proof.Machine

/-! ## Writes (R280, R282) -/

theorem State.doGroup_doLater_length (s : State) {l : List Nat} (h : l.length ≤ 16) : (s.doGroup l).field.doLater.length ≤ 8 := by
  rw [State.doGroup, List.length_drop]
  omega

/-- Of the 16 outputs those beyond the first 8 that a write newly switches on wait. -/
theorem State.doSet_doLater_length (s : State) (v : Word) : (s.doSet v).field.doLater.length ≤ 8 :=
  State.doGroup_doLater_length _ ((List.length_filter_le _ (List.range 16)).trans_eq List.length_range)

/-- An accepted write of DIO_DO_SET (R280, R282). -/
theorem doSetWrite_sets (src : Src) (v : Word) (s : State) (hs : s.supplied) (hg : s.grants src Reg.DIO_DO_SET v) :
    ∃ t, exec (.doSetWrite src v) s = .next t
      ∧ t.answer.status = .ok ∧ t.fld Reg.DIO_DO_SET 0 16 = bitsOf v 0 16 ∧ t.field.doFw = true
      ∧ t.field = { s.field with doFw := true, doLater := t.field.doLater } ∧ t.field.doLater.length ≤ 8
      ∧ s.keepsRegs t (Reg.DIO_DO_SET :: hostRegs) ∧ s.keepsParts t (.field :: hostParts) := by
  obtain ⟨t, ht, hok, hr, hw, hk⟩ := State.write1_plain (k := 8405067) (w := s.clearSent.doSet v) hs hg (by decide) (by decide)
    (s.clearSent.wordWrite_doSet _ v) rfl rfl (State.doSet_keeps rfl (Keeps.refl _))
  have hfield : t.field = (s.clearSent.doSet v).field := hw.field_same rfl
  refine ⟨t, ht, hok, ?_, ?_, ?_, ?_, State.keepsRegs_request (l := [Reg.DIO_DO_SET]) hr fun b hb => ?_, hk.parts _ (fun p => by cases p <;> decide)⟩
  · rw [State.fld_eq, hr _ (by decide)]
    exact s.clearSent.plainWrite_fld v (r := .val 0) (by decide) (by decide)
  · rw [hfield]
    rfl
  · rw [hfield]
    rfl
  · rw [hfield]
    exact s.clearSent.doSet_doLater_length v
  · exact State.plainWrite_rd v (fun e => hb (List.mem_singleton.mpr e))

theorem doStat_apart (n : Fin 16) : Reg.DIO_DO_n_STAT n.val ∉ [Reg.DIO_DO_n_MA n.val, Reg.DIO_STAT, Reg.DIO_CNT_DOSHORT, Reg.DIO_CNT_DOOPEN,
      Reg.DIO_CNT_DOREV, Reg.DIO_IRQ, Reg.DIO_INJ, Reg.DIO_DO_RETRY] ++ spoorRegs
    ∧ Reg.DIO_DO_n_MA n.val ∉ [Reg.DIO_STAT, Reg.DIO_CNT_DOSHORT, Reg.DIO_CNT_DOOPEN, Reg.DIO_CNT_DOREV, Reg.DIO_IRQ, Reg.DIO_INJ, Reg.DIO_DO_RETRY]
      ++ spoorRegs
    ∧ Reg.DIO_DO_n_STAT n.val ∉ hostRegs := by
  revert n; decide

theorem State.doClear_rd (s : State) (n b : Nat) :
    (s.doClear n).rd b = if b = Reg.DIO_DO_n_STAT n then putBits (putBit (s.rd b) 16 false) 17 4 0 else s.rd b := by
  have h : (s.doClear n).rd b = ((s.setBit (Reg.DIO_DO_n_STAT n) 16 false).setFld (Reg.DIO_DO_n_STAT n) 17 4 0).rd b := rfl
  rw [h, State.rd_setFld]
  split_ifs with e
  · rw [State.rd_setBit, if_pos rfl, e]
  · rw [State.rd_setBit, if_neg e]

theorem doCtrlReg_facts (n : Fin 16) : inNvWindow (Reg.DIO_DO_n_CTRL n.val) = false ∧ hasAcc .rws (Reg.DIO_DO_n_CTRL n.val) = false := by
  revert n; decide

/-- CLRFAULT (R280). -/
theorem clrfault_clears (src : Src) (n : Fin 16) (s : State) (hs : s.supplied) (hg : s.grants src (Reg.DIO_DO_n_CTRL n.val) 1#32) :
    ∃ t, exec (.clrfault src n true) s = .next t
      ∧ t.answer.status = .ok ∧ t.bit (Reg.DIO_DO_n_STAT n.val) 16 = false ∧ t.fld (Reg.DIO_DO_n_STAT n.val) 17 4 = 0
      ∧ n.val ∉ t.field.retried ∧ (s.bit (Reg.DIO_DO_n_STAT n.val) 16 = true → n.val ∉ t.field.tripped)
      ∧ t.field = { s.field with tripped := t.field.tripped, retried := t.field.retried }
      ∧ s.keepsRegs t (Reg.DIO_DO_n_STAT n.val :: hostRegs) ∧ s.keepsParts t (.field :: hostParts) := by
  obtain ⟨hwin, hacc⟩ := doCtrlReg_facts n
  obtain ⟨t, ht, hok, hr, hw, hk⟩ := State.write1_plain (k := 8405067) (w := s.clearSent.doClear n.val) hs hg hwin hacc
    (s.clearSent.wordWrite_doClear _ n 1#32) rfl rfl (State.doClear_keeps rfl (Keeps.refl _))
  have hfield : t.field = (s.clearSent.doClear n.val).field := hw.field_same rfl
  have hstat : t.rd (Reg.DIO_DO_n_STAT n.val) = putBits (putBit (s.rd (Reg.DIO_DO_n_STAT n.val)) 16 false) 17 4 0 := by
    rw [hr _ (doStat_apart n).2.2, State.doClear_rd, if_pos rfl]
    rfl
  refine ⟨t, ht, hok, ?_, ?_, ?_, fun hl => ?_, ?_, State.keepsRegs_request (l := [Reg.DIO_DO_n_STAT n.val]) hr fun b hb => ?_,
    hk.parts _ (fun p => by cases p <;> decide)⟩
  · rw [State.bit_eq, hstat, bitOf_putBits _ _ _ _ _ (by decide), if_neg (by decide), bitOf_putBit_same _ _ _ (by decide)]
  · rw [State.fld_eq, hstat, bitsOf_putBits_same _ _ _ _ (by decide), Nat.zero_mod]
  · rw [hfield]
    simp [State.doClear]
  · rw [hfield, State.doClear, show s.clearSent.bit (Reg.DIO_DO_n_STAT n.val) 16 = true from hl]
    simp
  · rw [hfield]
    rfl
  · rw [State.doClear_rd, if_neg (fun e => hb (List.mem_singleton.mpr e))]
    rfl

/-! ## Trips (R280, R538) -/

theorem satNat_eq (n v : Nat) : satNat n v = min (2 ^ n - 1) v := by
  unfold satNat
  split_ifs <;> omega

/-- A test of an output has run: its injection bit `i`, when it inverted the test, and the measured current in MA. -/
def State.doMeasured (s : State) (n i : Nat) (inj : Bool) (ma : Nat) : State :=
  (s.onlyIf inj (fun s => s.injRan Reg.DIO_INJ i)).setFld (Reg.DIO_DO_n_MA n) 0 12 (satNat 12 ma)

theorem State.doMeasured_rd (s : State) (n i : Nat) (inj : Bool) (ma : Nat) {b : Nat} (h1 : b ≠ Reg.DIO_INJ) (h2 : b ≠ Reg.ZID_CNT_INJ) :
    (s.doMeasured n i inj ma).rd b = if b = Reg.DIO_DO_n_MA n then putBits (s.rd b) 0 12 (satNat 12 ma) else s.rd b := by
  have h : (s.onlyIf inj (fun s => s.injRan Reg.DIO_INJ i)).rd b = s.rd b := by
    rw [State.rd_onlyIf, State.injRan_rd _ _ _ _ h1 h2, ite_self]
  rw [State.doMeasured, State.rd_setFld]
  split_ifs with e
  · rw [← e, h]
  · exact h

theorem State.doMeasured_keeps (s : State) (n i : Nat) (inj : Bool) (ma : Nat) : Keeps 0 s (s.doMeasured n i inj ma) :=
  State.setFld_keeps rfl (Keeps.only (fun _ hu => State.injRan_keeps rfl hu) (Keeps.refl s))

theorem State.doMeasured_inj (s : State) (n : Fin 16) {i : Nat} (hi : i < 32) (ma : Nat) :
    (s.doMeasured n.val i true ma).bit Reg.DIO_INJ i = false := by
  have hn : Reg.DIO_INJ ≠ Reg.DIO_DO_n_MA n.val := fun e => (doStat_apart n).2.1 (e ▸ by simp)
  rw [State.bit_eq, State.doMeasured, State.rd_setFld, if_neg hn]
  exact s.injRan_bit hi (by decide)

/-- What the onset of a fault of an output leaves in the registers that the event does not change. -/
theorem State.doOnset_rd (s : State) (n : Fin 16) {stat chBit cnt num : Nat} (hc : cnt ∉ [Reg.DIO_DO_n_STAT n.val, Reg.DIO_STAT, Reg.DIO_IRQ]) {b : Nat}
    (hb : b ∉ spoorRegs) :
    (s.doOnset n.val stat chBit cnt num).rd b = if b = Reg.DIO_IRQ then putBit (s.rd b) 1 true
      else if b = cnt then satWordN ((s.rd b).toNat + 1)
      else if b = Reg.DIO_DO_n_STAT n.val then putBit (s.rd b) chBit true
      else if b = Reg.DIO_STAT then putBit (s.rd b) stat true else s.rd b := by
  obtain ⟨hn, -⟩ := doStat_apart n
  simp only [List.mem_append, List.mem_cons, List.not_mem_nil, or_false, not_or] at hn hc
  rw [State.doOnset, State.raiseEv_rd _ _ _ _ _ hb, State.irqDio, State.irqAt_rd _ _ _ _ _ _ (not_pin_of_spoor hb)]
  simp only [State.rd_count, State.rd_setBit]
  split_ifs <;> simp_all

theorem State.doLatch_rd (s : State) (n : Fin 16) {b : Nat} (hb : b ∉ spoorRegs) :
    (s.doLatch n.val).rd b = if b = Reg.DIO_IRQ then putBit (s.rd b) 3 true
      else if b = Reg.DIO_STAT then putBit (s.rd b) 6 true
      else if b = Reg.DIO_DO_n_STAT n.val then putBit (s.rd b) 16 true else s.rd b := by
  obtain ⟨hn, -⟩ := doStat_apart n
  simp only [List.mem_append, List.mem_cons, List.not_mem_nil, or_false, not_or] at hn
  rw [State.doLatch, State.raiseEv_rd _ _ _ _ _ hb, State.irqDio, State.irqAt_rd _ _ _ _ _ _ (not_pin_of_spoor hb)]
  simp only [State.rd_setBit]
  split_ifs <;> simp_all

theorem State.doOnset_field (s : State) (n stat chBit cnt num : Nat) : (s.doOnset n stat chBit cnt num).field = s.field :=
  (State.doOnset_keeps (k := 384) rfl (Keeps.refl s)).field_same rfl

/-- The output is switched off; a trip `again`, of an output that a retry had switched on, is a failed try. -/
def State.doOff (s : State) (n : Nat) (again : Bool) : State :=
  let s1 := { s with field := { s.field with tripped := n :: s.field.tripped, retried := s.field.retried.filter (· != n) } }
  s1.onlyIf again (fun s => s.setFld (Reg.DIO_DO_n_STAT n) 17 4 (s.doTries n + 1))

theorem State.doOff_field (s : State) (n : Nat) (again : Bool) :
    (s.doOff n again).field = { s.field with tripped := n :: s.field.tripped, retried := s.field.retried.filter (· != n) } := by
  cases again <;> rfl

theorem State.doOff_rd (s : State) (n : Nat) (again : Bool) (b : Nat) :
    (s.doOff n again).rd b = if b = Reg.DIO_DO_n_STAT n then
        (if again then putBits (s.rd b) 17 4 (bitsOf (s.rd b) 17 4 + 1) else s.rd b) else s.rd b := by
  unfold State.doOff
  dsimp only
  rw [State.rd_onlyIf, State.rd_setFld]
  split_ifs with h1 h2
  · rw [h2]
    rfl
  all_goals rfl

/-- The output trips: SHORT is set, counted and recorded. -/
def State.doShort (s : State) (n : Nat) (again : Bool) : State := (s.doOff n again).doOnset n 3 0 Reg.DIO_CNT_DOSHORT 0

/-- TRIES has come to N. -/
def State.doSpent (s : State) (n : Nat) : Bool := decide (s.fld Reg.DIO_DO_RETRY 16 4 ≤ s.doTries n)

theorem State.doTrip_off {s : State} {n : Nat} (h : s.doOn n = false) (much : Bool) (ma : Nat) : s.doTrip n much ma = s := by
  simp [State.doTrip, h]

/-- The overcurrent test of an output that is on. -/
theorem State.doTrip_on {s : State} {n : Nat} (h : s.doOn n = true) (much : Bool) (ma : Nat) :
    s.doTrip n much ma =
      let inj := s.bit Reg.DIO_INJ 1 && s.fld Reg.DIO_INJ 8 5 == n
      let s0 := s.doMeasured n 1 inj ma
      let s1 := s0.doShort n (s.field.retried.contains n)
      if much != inj then s1.onlyIf (s1.doSpent n) (fun s => s.doLatch n) else s0 := by
  unfold State.doTrip
  rw [h, if_neg (by decide)]
  rfl

/-- What a trip leaves in the registers that the event does not change, before the output latches. -/
theorem State.doShort_rd (s : State) (n : Fin 16) (again : Bool) {b : Nat} (hb : b ∉ spoorRegs) :
    (s.doShort n.val again).rd b = if b = Reg.DIO_IRQ then putBit (s.rd b) 1 true
      else if b = Reg.DIO_CNT_DOSHORT then satWordN ((s.rd b).toNat + 1)
      else if b = Reg.DIO_DO_n_STAT n.val then
        putBit (if again then putBits (s.rd b) 17 4 (bitsOf (s.rd b) 17 4 + 1) else s.rd b) 0 true
      else if b = Reg.DIO_STAT then putBit (s.rd b) 3 true else s.rd b := by
  have hn := (doStat_apart n).1
  simp only [List.mem_append, List.mem_cons, List.not_mem_nil, or_false, not_or] at hn
  obtain ⟨⟨-, n2, n3, -, -, n6, -, -⟩, -⟩ := hn
  have hc : Reg.DIO_CNT_DOSHORT ∉ [Reg.DIO_DO_n_STAT n.val, Reg.DIO_STAT, Reg.DIO_IRQ] := by simp [Ne.symm n3]
  rw [State.doShort, State.doOnset_rd _ n hc hb, State.doOff_rd]
  split_ifs <;> simp_all

/-- STAT of an output that tripped before it latches. -/
def tripWord (w : Word) (again : Bool) : Word := putBit (if again then putBits w 17 4 (bitsOf w 17 4 + 1) else w) 0 true

theorem tripWord_tries (w : Word) (again : Bool) : bitsOf (tripWord w again) 17 4 = (bitsOf w 17 4 + again.toNat) % 16 := by
  rw [tripWord, putBit, bitsOf_putBits_apart _ _ _ _ _ _ (by decide) (by decide)]
  cases again
  · exact (Nat.mod_mod _ _).symm
  · exact bitsOf_putBits_same _ _ _ _ (by decide)

theorem tripWord_latched (w : Word) (again : Bool) : bitOf (tripWord w again) 16 = bitOf w 16 := by
  rw [tripWord, bitOf_putBit_apart _ _ _ _ (by decide) (by decide)]
  cases again
  · rfl
  · exact (bitOf_putBits _ _ _ _ _ (by decide)).trans (if_neg (by decide))

/-- STAT of an output that tripped: it latches when its tries have come to N. -/
def latchWord (w : Word) (again : Bool) (tries : Nat) : Word :=
  if tries ≤ bitsOf (tripWord w again) 17 4 then putBit (tripWord w again) 16 true else tripWord w again

theorem latchWord_tries (w : Word) (again : Bool) (tries : Nat) :
    bitsOf (latchWord w again tries) 17 4 = (bitsOf w 17 4 + again.toNat) % 16 := by
  rw [← tripWord_tries, latchWord]
  split_ifs
  · exact bitsOf_putBits_apart _ _ _ _ _ _ (by decide) (by decide)
  · rfl

theorem latchWord_short (w : Word) (again : Bool) (tries : Nat) : bitOf (latchWord w again tries) 0 = true := by
  have h : bitOf (tripWord w again) 0 = true := bitOf_putBit_same _ _ _ (by decide)
  rw [latchWord]
  split_ifs
  · rw [bitOf_putBit_apart _ _ _ _ (by decide) (by decide), h]
  · exact h

theorem latchWord_latched {w : Word} (again : Bool) (tries : Nat) (h : bitOf w 16 = false) :
    bitOf (latchWord w again tries) 16 = true ↔ tries ≤ bitsOf (latchWord w again tries) 17 4 := by
  rw [latchWord_tries, ← tripWord_tries, latchWord]
  split_ifs with hl
  · simp [hl, bitOf_putBit_same]
  · simp [hl, tripWord_latched, h]

/-- The output trips, and latches when TRIES has come to N. -/
def State.doTripped (s : State) (n : Nat) (again : Bool) : State :=
  (s.doShort n again).onlyIf ((s.doShort n again).doSpent n) (fun s => s.doLatch n)

theorem State.doTripped_field (s : State) (n : Nat) (again : Bool) :
    (s.doTripped n again).field = { s.field with tripped := n :: s.field.tripped, retried := s.field.retried.filter (· != n) } := by
  have h : (s.doShort n again).field = _ := (State.doOnset_field _ _ _ _ _ _).trans (s.doOff_field n again)
  rw [← h, State.doTripped, State.onlyIf]
  split
  · exact (State.doLatch_keeps (k := 384) rfl (Keeps.refl _)).field_same rfl
  · rfl

section
variable (s : State) (n : Fin 16) (again : Bool)

theorem State.doShort_spent : (s.doShort n.val again).doSpent n.val = true
    ↔ s.fld Reg.DIO_DO_RETRY 16 4 ≤ bitsOf (tripWord (s.rd (Reg.DIO_DO_n_STAT n.val)) again) 17 4 := by
  have hn := (doStat_apart n).1
  simp only [List.mem_append, List.mem_cons, List.not_mem_nil, or_false, not_or] at hn
  obtain ⟨⟨-, -, n3, -, -, n6, -, n8⟩, nsp⟩ := hn
  rw [State.doSpent, decide_eq_true_iff, State.doTries, State.fld_eq, State.fld_eq, State.doShort_rd _ n _ (by decide), State.doShort_rd _ n _ nsp]
  simp [n3, n6, Ne.symm n8, tripWord]

/-- What a trip leaves in the registers that its events do not change; the LATCHED bits of block and interrupt are left open. -/
theorem State.doTripped_rd {b : Nat} (hb : b ∉ spoorRegs) :
    (s.doTripped n.val again).rd b =
      if b = Reg.DIO_DO_n_STAT n.val then latchWord (s.rd b) again (s.fld Reg.DIO_DO_RETRY 16 4)
      else if b = Reg.DIO_CNT_DOSHORT then satWordN ((s.rd b).toNat + 1)
      else if b = Reg.DIO_STAT then
        (if (s.doShort n.val again).doSpent n.val then putBit (putBit (s.rd b) 3 true) 6 true else putBit (s.rd b) 3 true)
      else if b = Reg.DIO_IRQ then
        (if (s.doShort n.val again).doSpent n.val then putBit (putBit (s.rd b) 1 true) 3 true else putBit (s.rd b) 1 true)
      else s.rd b := by
  have hn := (doStat_apart n).1
  simp only [List.mem_append, List.mem_cons, List.not_mem_nil, or_false, not_or] at hn
  obtain ⟨⟨-, n2, n3, -, -, n6, -, -⟩, -⟩ := hn
  rw [State.doTripped, State.rd_onlyIf, State.doLatch_rd _ n hb, State.doShort_rd _ n _ hb]
  by_cases h1 : b = Reg.DIO_DO_n_STAT n.val
  · simp only [State.doShort_spent, h1, n2, n3, n6, latchWord, tripWord, if_false, if_true]
  by_cases h2 : b = Reg.DIO_CNT_DOSHORT
  · simp [h2, Ne.symm n3]
  by_cases h3 : b = Reg.DIO_STAT
  · simp [h3, Ne.symm n2]
  by_cases h4 : b = Reg.DIO_IRQ
  · simp [h4, Ne.symm n6]
  · simp [h1, h2, h3, h4]
end

section
variable {s : State} {n : Fin 16} {i : Nat} {inj : Bool} {ma : Nat}

theorem State.doMeasured_other {b : Nat} (hm : b ≠ Reg.DIO_DO_n_MA n.val) (hi : b ≠ Reg.DIO_INJ) (hb : b ∉ spoorRegs) :
    (s.doMeasured n.val i inj ma).rd b = s.rd b := by
  rw [State.doMeasured_rd _ _ _ _ _ hi (fun e => hb (e ▸ by decide)), if_neg hm]

theorem State.doMeasured_ma : (s.doMeasured n.val i inj ma).fld (Reg.DIO_DO_n_MA n.val) 0 12 = min 4095 ma := by
  have hn := (doStat_apart n).2.1
  rw [State.fld_eq, State.doMeasured_rd _ _ _ _ _ (fun e => hn (by simp [e])) (fun e => hn (by simp [e, spoorRegs])), if_pos rfl,
    bitsOf_putBits_same _ _ _ _ (by decide), satNat_eq]
  omega

theorem State.doMeasured_field : (s.doMeasured n.val i inj ma).field = s.field := (s.doMeasured_keeps n.val i inj ma).field_same rfl
end

/-- The registers that a test of an output changes, those of its events left out. -/
def doTestRegs (n cnt : Nat) : List Nat := [Reg.DIO_DO_n_STAT n, Reg.DIO_DO_n_MA n, Reg.DIO_STAT, cnt, Reg.DIO_IRQ, Reg.DIO_INJ]

theorem State.doMeasured_keepsRegs (s : State) (n : Fin 16) (i : Nat) (inj : Bool) (ma cnt : Nat) :
    s.keepsRegs (s.doMeasured n.val i inj ma) (doTestRegs n.val cnt ++ spoorRegs) := fun b hb => by
  simp only [doTestRegs, List.mem_append, List.mem_cons, List.not_mem_nil, or_false, not_or] at hb
  obtain ⟨⟨-, hm, -, -, -, hi⟩, hs⟩ := hb
  exact State.doMeasured_other hm hi hs

/-- A trip of the output as measured: what shows. -/
theorem State.doTripped_shows (s : State) (n : Fin 16) (inj : Bool) (ma : Nat) (hlatch : s.bit (Reg.DIO_DO_n_STAT n.val) 16 = false) :
    let t := (s.doMeasured n.val 1 inj ma).doTripped n.val (s.field.retried.contains n.val)
    n.val ∈ t.field.tripped ∧ n.val ∉ t.field.retried ∧ t.bit (Reg.DIO_DO_n_STAT n.val) 0 = true ∧ t.bit Reg.DIO_STAT 3 = true
      ∧ t.nat Reg.DIO_CNT_DOSHORT = min 0xFFFFFFFF (s.nat Reg.DIO_CNT_DOSHORT + 1) ∧ t.bit Reg.DIO_IRQ 1 = true
      ∧ t.fld (Reg.DIO_DO_n_STAT n.val) 17 4 = (s.fld (Reg.DIO_DO_n_STAT n.val) 17 4 + (decide (n.val ∈ s.field.retried)).toNat) % 16
      ∧ (t.bit (Reg.DIO_DO_n_STAT n.val) 16 = true ↔ s.fld Reg.DIO_DO_RETRY 16 4 ≤ t.fld (Reg.DIO_DO_n_STAT n.val) 17 4)
      ∧ t.fld (Reg.DIO_DO_n_MA n.val) 0 12 = min 4095 ma := by
  obtain ⟨hn, hm, -⟩ := doStat_apart n
  simp only [List.mem_append, List.mem_cons, List.not_mem_nil, or_false, not_or] at hn hm
  obtain ⟨⟨n1, n2, n3, -, -, n6, n7, n8⟩, nsp⟩ := hn
  obtain ⟨⟨m2, m3, -, -, m6, m7, m8⟩, msp⟩ := hm
  have hu := fun b => State.doMeasured_other (s := s) (n := n) (i := 1) (inj := inj) (ma := ma) (b := b)
  have hma := State.doMeasured_ma (s := s) (n := n) (i := 1) (inj := inj) (ma := ma)
  have hfield := State.doMeasured_field (s := s) (n := n) (i := 1) (inj := inj) (ma := ma)
  generalize s.doMeasured n.val 1 inj ma = u at hu hma hfield
  generalize hagain : s.field.retried.contains n.val = again
  have hrd := fun b => u.doTripped_rd n again (b := b)
  have hstat := hrd _ nsp
  rw [if_pos rfl, State.fld_eq, hu _ (Ne.symm m8) (by decide) (by decide), hu _ n1 n7 nsp] at hstat
  refine ⟨?_, ?_, ?_, ?_, ?_, ?_, ?_, ?_, ?_⟩
  · simp [State.doTripped_field]
  · simp [State.doTripped_field]
  · rw [State.bit_eq, hstat, latchWord_short]
  · rw [State.bit_eq, hrd _ (by decide)]
    simp only [Ne.symm n2, show Reg.DIO_STAT ≠ Reg.DIO_CNT_DOSHORT by decide, if_false, if_true]
    split_ifs <;> simp [bitOf_putBit]
  · rw [State.nat_eq, hrd _ (by decide), hu _ (Ne.symm m3) (by decide) (by decide)]
    simp [Ne.symm n3, satWordN_toNat]
  · rw [State.bit_eq, hrd _ (by decide)]
    simp only [Ne.symm n6, show Reg.DIO_IRQ ≠ Reg.DIO_CNT_DOSHORT by decide, show Reg.DIO_IRQ ≠ Reg.DIO_STAT by decide, if_false, if_true]
    split_ifs <;> simp [bitOf_putBit]
  · rw [State.fld_eq, hstat, latchWord_tries, ← hagain, List.contains_eq_mem]
    rfl
  · rw [State.fld_eq, State.bit_eq, State.fld_eq, hstat]
    exact latchWord_latched _ _ hlatch
  · rw [State.fld_eq, hrd _ msp]
    simpa [m2, m3, m6, Ne.symm n1] using hma

theorem State.doTripped_keepsRegs (s : State) (n : Fin 16) (again : Bool) :
    s.keepsRegs (s.doTripped n.val again) (doTestRegs n.val Reg.DIO_CNT_DOSHORT ++ spoorRegs) := fun b hb => by
  simp only [doTestRegs, List.mem_append, List.mem_cons, List.not_mem_nil, or_false, not_or] at hb
  obtain ⟨⟨b1, -, b3, b4, b5, -⟩, hs⟩ := hb
  rw [State.doTripped_rd s n again hs]
  simp only [b1, b3, b4, b5, if_false]

/-- What the overcurrent test shows (R280). -/
theorem State.doTrip_shows (s : State) (n : Fin 16) (much : Bool) (ma : Nat) :
    let t := s.doTrip n.val much ma
    let inj := s.bit Reg.DIO_INJ 1 && s.fld Reg.DIO_INJ 8 5 == n.val
    let trips := s.doOn n.val && (much != inj)
    let tries := s.fld (Reg.DIO_DO_n_STAT n.val) 17 4
    (s.doOn n.val = false → t.regs = s.regs ∧ t.field = s.field)
      ∧ (trips = false → t.field = s.field ∧ t.rd (Reg.DIO_DO_n_STAT n.val) = s.rd (Reg.DIO_DO_n_STAT n.val) ∧ t.rd Reg.DIO_CNT_DOSHORT = s.rd Reg.DIO_CNT_DOSHORT)
      ∧ (trips = true → n.val ∈ t.field.tripped ∧ n.val ∉ t.field.retried ∧ t.bit (Reg.DIO_DO_n_STAT n.val) 0 = true ∧ t.bit Reg.DIO_STAT 3 = true
        ∧ t.nat Reg.DIO_CNT_DOSHORT = min 0xFFFFFFFF (s.nat Reg.DIO_CNT_DOSHORT + 1) ∧ t.bit Reg.DIO_IRQ 1 = true
        ∧ t.fld (Reg.DIO_DO_n_STAT n.val) 17 4 = (tries + (decide (n.val ∈ s.field.retried)).toNat) % 16
        ∧ (t.bit (Reg.DIO_DO_n_STAT n.val) 16 = true ↔ s.fld Reg.DIO_DO_RETRY 16 4 ≤ t.fld (Reg.DIO_DO_n_STAT n.val) 17 4))
      ∧ (s.doOn n.val = true → t.fld (Reg.DIO_DO_n_MA n.val) 0 12 = min 4095 ma)
      ∧ s.keepsRegs t (doTestRegs n.val Reg.DIO_CNT_DOSHORT ++ spoorRegs) := by
  dsimp only
  cases hon : s.doOn n.val
  case false =>
    rw [State.doTrip_off hon]
    exact ⟨fun _ => ⟨rfl, rfl⟩, fun _ => ⟨rfl, rfl, rfl⟩, fun h => absurd h (by simp), fun h => absurd h (by decide), fun b _ => rfl⟩
  case true =>
    have hlatch : s.bit (Reg.DIO_DO_n_STAT n.val) 16 = false := by
      simp only [State.doOn, Bool.and_eq_true, Bool.not_eq_true'] at hon
      obtain ⟨⟨-, hl⟩, -⟩ := hon
      exact hl
    have hkept := s.doMeasured_keepsRegs n 1 (s.bit Reg.DIO_INJ 1 && s.fld Reg.DIO_INJ 8 5 == n.val) ma Reg.DIO_CNT_DOSHORT
    rw [State.doTrip_on hon]
    dsimp only
    generalize (s.bit Reg.DIO_INJ 1 && s.fld Reg.DIO_INJ 8 5 == n.val) = inj at hkept ⊢
    cases htrips : much != inj
    case false =>
      obtain ⟨hn, hm, -⟩ := doStat_apart n
      simp only [List.mem_append, List.mem_cons, List.not_mem_nil, or_false, not_or] at hn hm
      obtain ⟨⟨n1, -, -, -, -, -, n7, -⟩, nsp⟩ := hn
      obtain ⟨⟨-, m3, -⟩, -⟩ := hm
      exact ⟨fun h => absurd h (by decide), fun _ => ⟨State.doMeasured_field, State.doMeasured_other n1 n7 nsp,
        State.doMeasured_other (Ne.symm m3) (by decide) (by decide)⟩, fun h => absurd h (by decide), fun _ => State.doMeasured_ma, hkept⟩
    case true =>
      obtain ⟨h1, h2, h3, h4, h5, h6, h7, h8, hma⟩ := s.doTripped_shows n inj ma hlatch
      exact ⟨fun h => absurd h (by decide), fun h => absurd h (by decide), fun _ => ⟨h1, h2, h3, h4, h5, h6, h7, h8⟩, fun _ => hma,
        State.keepsRegs_trans hkept (State.doTripped_keepsRegs _ n _)⟩

/-- DO_TRIP (R280, R538). -/
theorem doTrip_trips (n : Fin 16) (much : Bool) (ma : BitVec 16) (s : State) (hs : s.supplied) : ∃ t, exec (.doTrip n much ma) s = .next t
    ∧ (let inj := s.bit Reg.DIO_INJ 1 && s.fld Reg.DIO_INJ 8 5 == n.val
       let trips := s.doOn n.val && (much != inj)
       let tries := s.fld (Reg.DIO_DO_n_STAT n.val) 17 4
       (s.doOn n.val = false → t.regs = s.regs ∧ t.field = s.field)
       ∧ (trips = false → t.field = s.field ∧ t.rd (Reg.DIO_DO_n_STAT n.val) = s.rd (Reg.DIO_DO_n_STAT n.val) ∧ t.rd Reg.DIO_CNT_DOSHORT = s.rd Reg.DIO_CNT_DOSHORT)
       ∧ (trips = true → n.val ∈ t.field.tripped ∧ n.val ∉ t.field.retried ∧ t.bit (Reg.DIO_DO_n_STAT n.val) 0 = true ∧ t.bit Reg.DIO_STAT 3 = true
          ∧ t.nat Reg.DIO_CNT_DOSHORT = min 0xFFFFFFFF (s.nat Reg.DIO_CNT_DOSHORT + 1) ∧ t.bit Reg.DIO_IRQ 1 = true
          ∧ t.fld (Reg.DIO_DO_n_STAT n.val) 17 4 = (tries + (decide (n.val ∈ s.field.retried)).toNat) % 16
          ∧ (t.bit (Reg.DIO_DO_n_STAT n.val) 16 = true ↔ s.fld Reg.DIO_DO_RETRY 16 4 ≤ t.fld (Reg.DIO_DO_n_STAT n.val) 17 4))
       ∧ (s.doOn n.val = true → t.fld (Reg.DIO_DO_n_MA n.val) 0 12 = min 4095 ma.toNat))
    ∧ s.keepsRegs t ([Reg.DIO_DO_n_STAT n.val, Reg.DIO_DO_n_MA n.val, Reg.DIO_STAT, Reg.DIO_CNT_DOSHORT, Reg.DIO_IRQ, Reg.DIO_INJ] ++ spoorRegs)
    ∧ s.keepsParts t [.sent, .spr, .zid, .field] := by
  have ht : exec (.doTrip n much ma) s = .next (s.clearSent.doTrip n.val much ma.toNat) :=
    show execDoTrip n much ma s = _ from State.act_supplied hs
  have hk : Keeps 16770 s (s.clearSent.doTrip n.val much ma.toNat) := execDoTrip_keeps rfl ht
  obtain ⟨hoff, hno, htrip, hma, hregs⟩ := s.clearSent.doTrip_shows n much ma.toNat
  exact ⟨_, ht, ⟨hoff, hno, htrip, hma⟩, hregs, hk.parts _ (fun p => by cases p <;> decide)⟩

/-- DO_RETRY (R280). -/
theorem doRetry_retries (n : Fin 16) (s : State) (hs : s.supplied) : ∃ t, exec (.doRetry n) s = .next t ∧ t.regs = s.regs
    ∧ (let back := n.val ∈ s.field.tripped ∧ s.bit (Reg.DIO_DO_n_STAT n.val) 16 = false
       (back → n.val ∉ t.field.tripped ∧ (s.doWanted n.val = true → n.val ∈ t.field.retried)) ∧ (¬back → t.field = s.field))
    ∧ t.field = { s.field with tripped := t.field.tripped, retried := t.field.retried } ∧ s.keepsParts t [.sent, .field] := by
  have ht : exec (.doRetry n) s = .next (s.clearSent.doRetry n.val) := show execDoRetry n s = _ from State.act_supplied hs
  have hk : Keeps 16386 s (s.clearSent.doRetry n.val) := execDoRetry_keeps rfl ht
  have hback : (s.field.tripped.contains n.val && !s.bit (Reg.DIO_DO_n_STAT n.val) 16) = true
      ↔ n.val ∈ s.field.tripped ∧ s.bit (Reg.DIO_DO_n_STAT n.val) 16 = false := by simp
  have hparts := hk.parts [.sent, .field] (fun p => by cases p <;> decide)
  refine ⟨_, ht, ?_⟩
  dsimp only
  rw [← hback]
  by_cases h : (s.field.tripped.contains n.val && !s.bit (Reg.DIO_DO_n_STAT n.val) 16) = true
  · have e : s.clearSent.doRetry n.val = { s.clearSent with field := { s.field with
        tripped := s.field.tripped.filter (· != n.val), retried := if s.doWanted n.val then n.val :: s.field.retried else s.field.retried } } := if_pos h
    rw [e] at hparts ⊢
    exact ⟨rfl, ⟨fun _ => ⟨by simp, fun hw => by simp [hw]⟩, fun hn => absurd h hn⟩, rfl, hparts⟩
  · have e : s.clearSent.doRetry n.val = s.clearSent := if_neg h
    rw [e] at hparts ⊢
    exact ⟨rfl, ⟨fun hb => absurd hb h, fun _ => rfl⟩, rfl, hparts⟩

end Sys2Proof.Machine

/-!
Digital outputs: the tests of OPEN and REV (R281, R538).
-/

namespace Sys2Proof.Machine

/-- The counter of a fault of R281. -/
def doFaultCnt : DoFault → Nat
  | .openLoad => Reg.DIO_CNT_DOOPEN
  | .rev => Reg.DIO_CNT_DOREV

/-- OPEN is tested on an output with OPENDET that is on, REV on one that is off. -/
def State.doTestRuns (s : State) (n : Nat) : DoFault → Bool
  | .openLoad => s.doOn n && (s.iomap (0x322 + 4 * n) 1).testBit 0
  | .rev => !s.doOn n

/-- DIO_INJ inverts a test of OPEN. -/
def State.doTestInj (s : State) (n : Nat) (k : DoFault) : Bool := k == .openLoad && s.bit Reg.DIO_INJ 2 && s.fld Reg.DIO_INJ 8 5 == n

/-- A fault of an output begins. -/
def State.doFaultBegin (s : State) (n : Nat) (k : DoFault) : State :=
  ({ s with field := { s.field with doFault := (n, k) :: s.field.doFault } }).doOnset n (3 + doFaultNum k) (doFaultNum k) (doFaultCnt k) (doFaultNum k)

/-- A fault of an output ends. -/
def State.doFaultGone (s : State) (n : Nat) (k : DoFault) : State :=
  { s with field := { s.field with doFault := s.field.doFault.filter (fun e => e != (n, k)) } }

theorem State.doTest_idle {s : State} {n : Nat} {k : DoFault} (h : s.doTestRuns n k = false) (present : Bool) (ma : Nat) :
    s.doTest n k present ma = s.doSettle n := by
  have hr : (s.doSettle n).doTestRuns n k = false := h
  unfold State.doTest
  cases k
  all_goals
    dsimp only [State.doTestRuns] at hr ⊢
    rw [hr]
    rfl

/-- What an output's level ends is no fault that its level lets a test find. -/
theorem State.doSettle_contains {s : State} {n : Nat} {k : DoFault} (h : s.doTestRuns n k = true) :
    (s.doSettle n).field.doFault.contains (n, k) = s.field.doFault.contains (n, k) := by
  rw [Bool.eq_iff_iff]
  cases k <;> cases ho : s.doOn n <;> simp_all [State.doSettle, State.doTestRuns]

theorem State.doTest_runs {s : State} {n : Nat} {k : DoFault} (h : s.doTestRuns n k = true) (present : Bool) (ma : Nat) :
    s.doTest n k present ma =
      let u := (s.doSettle n).doMeasured n 2 (s.doTestInj n k) ma
      if present != s.doTestInj n k then (if s.field.doFault.contains (n, k) then u else u.doFaultBegin n k) else u.doFaultGone n k := by
  have hr : (s.doSettle n).doTestRuns n k = true := h
  rw [← State.doSettle_contains h]
  unfold State.doTest
  dsimp only
  cases k
  all_goals
    dsimp only [State.doTestRuns] at hr ⊢
    rw [hr, if_neg (by decide)]
    rfl

theorem doFault_apart (n : Fin 16) (k : DoFault) :
    doFaultCnt k ∉ [Reg.DIO_DO_n_STAT n.val, Reg.DIO_STAT, Reg.DIO_IRQ, Reg.DIO_INJ, Reg.DIO_DO_n_MA n.val] ++ spoorRegs := by
  revert n; cases k <;> decide

/-- The fault was not there, and the test finds it. -/
def State.doFaultBegins (s : State) (n : Nat) (k : DoFault) (present : Bool) : Bool :=
  (present != s.doTestInj n k) && !s.field.doFault.contains (n, k)

section
variable {s : State} {n : Fin 16} {k : DoFault} (present : Bool) (ma : Nat)

/-- A test that runs leaves every register but those of a beginning fault's event as the measurement left it. -/
theorem State.doTest_rd (h : s.doTestRuns n.val k = true) {b : Nat} (hb : b ∉ spoorRegs) :
    (s.doTest n.val k present ma).rd b =
      let w := ((s.doSettle n.val).doMeasured n.val 2 (s.doTestInj n.val k) ma).rd b
      if s.doFaultBegins n.val k present then
        if b = Reg.DIO_IRQ then putBit w 1 true
        else if b = doFaultCnt k then satWordN (w.toNat + 1)
        else if b = Reg.DIO_DO_n_STAT n.val then putBit w (doFaultNum k) true
        else if b = Reg.DIO_STAT then putBit w (3 + doFaultNum k) true else w
      else w := by
  have hc : doFaultCnt k ∉ [Reg.DIO_DO_n_STAT n.val, Reg.DIO_STAT, Reg.DIO_IRQ] :=
    fun h => doFault_apart n k (List.mem_append_left _ (List.mem_append_left [Reg.DIO_INJ, Reg.DIO_DO_n_MA n.val] h))
  have hbegin := fun u : State => ({ u with field := { u.field with doFault := (n.val, k) :: u.field.doFault } } : State).doOnset_rd n
    (stat := 3 + doFaultNum k) (chBit := doFaultNum k) (num := doFaultNum k) hc hb
  rw [State.doTest_runs h, State.doFaultBegins]
  dsimp only
  cases present != s.doTestInj n.val k
  case false => rfl
  case true =>
    cases s.field.doFault.contains (n.val, k)
    case true => rfl
    case false => exact hbegin _

theorem State.doTest_contains (h : s.doTestRuns n.val k = true) :
    (n.val, k) ∈ (s.doTest n.val k present ma).field.doFault ↔ present ≠ s.doTestInj n.val k := by
  have hu : ((s.doSettle n.val).doMeasured n.val 2 (s.doTestInj n.val k) ma).field = (s.doSettle n.val).field := State.doMeasured_field
  have hset := State.doSettle_contains h
  rw [State.doTest_runs h, ← bne_iff_ne]
  cases present != s.doTestInj n.val k
  case false => simp [State.doFaultGone]
  case true =>
    cases hin : s.field.doFault.contains (n.val, k)
    case true =>
      rw [hin, List.contains_eq_mem, decide_eq_true_iff] at hset
      simpa [hu] using hset
    case false => simp [State.doFaultBegin, State.doOnset_field]

end

theorem State.doTest_field (s : State) (n : Nat) (k : DoFault) (present : Bool) (ma : Nat) :
    (s.doTest n k present ma).field = { s.field with doFault := (s.doTest n k present ma).field.doFault } := by
  have hu : ((s.doSettle n).doMeasured n 2 (s.doTestInj n k) ma).field = (s.doSettle n).field :=
    (State.doMeasured_keeps _ n 2 _ ma).field_same rfl
  cases h : s.doTestRuns n k
  case false =>
    rw [State.doTest_idle h]
    rfl
  case true =>
    rw [State.doTest_runs h]
    dsimp only
    split_ifs
    · rw [hu]
      rfl
    · rw [State.doFaultBegin, State.doOnset_field, hu]
      rfl
    · rw [State.doFaultGone, hu]
      rfl

theorem State.doTest_frame (s : State) (n : Nat) (k : DoFault) (present : Bool) (ma : Nat) : Keeps 16768 s (s.doTest n k present ma) := by
  have hset : Keeps 16768 s (s.doSettle n) := Keeps.set_field rfl (Keeps.refl s)
  have hu : Keeps 16768 s ((s.doSettle n).doMeasured n 2 (s.doTestInj n k) ma) := hset.trans ((State.doMeasured_keeps _ n 2 _ ma).weaken rfl)
  cases h : s.doTestRuns n k
  case false => rwa [State.doTest_idle h]
  case true =>
    rw [State.doTest_runs h]
    dsimp only
    split_ifs
    · exact hu
    · exact State.doOnset_keeps rfl (Keeps.set_field rfl hu)
    · exact Keeps.set_field rfl hu

/-- What a test of an output's fault shows (R281). -/
theorem State.doTest_shows (s : State) (n : Fin 16) (k : DoFault) (present : Bool) (ma : Nat) :
    let t := s.doTest n.val k present ma
    let runs := s.doTestRuns n.val k
    let inj := s.doTestInj n.val k
    let i := doFaultNum k
    let cnt := doFaultCnt k
    let onset := runs && s.doFaultBegins n.val k present
    (runs = false → t.regs = s.regs)
      ∧ (runs = true → ((n.val, k) ∈ t.field.doFault ↔ present ≠ inj) ∧ t.fld (Reg.DIO_DO_n_MA n.val) 0 12 = min 4095 ma)
      ∧ (runs = true → inj = true → t.bit Reg.DIO_INJ 2 = false)
      ∧ t.bit (Reg.DIO_DO_n_STAT n.val) i = (s.bit (Reg.DIO_DO_n_STAT n.val) i || onset) ∧ t.bit Reg.DIO_STAT (3 + i) = (s.bit Reg.DIO_STAT (3 + i) || onset)
      ∧ t.nat cnt = min 0xFFFFFFFF (s.nat cnt + onset.toNat) ∧ (onset = true → t.bit Reg.DIO_IRQ 1 = true)
      ∧ s.keepsRegs t (doTestRegs n.val cnt ++ spoorRegs) := by
  dsimp only
  cases h : s.doTestRuns n.val k
  case false =>
    rw [State.doTest_idle h]
    simp only [Bool.false_and, Bool.or_false, Bool.toNat_false, Nat.add_zero]
    exact ⟨fun _ => rfl, fun h => absurd h (by decide), fun h => absurd h (by decide), rfl, rfl, (Nat.min_eq_right (counter_le _)).symm,
      fun h => absurd h (by decide), fun b _ => rfl⟩
  case true =>
    have hrd := fun b => State.doTest_rd (b := b) present ma h
    have hi : doFaultNum k < 3 := by cases k <;> decide
    obtain ⟨hn, hm, -⟩ := doStat_apart n
    have hc := doFault_apart n k
    have hmc : Reg.DIO_DO_n_MA n.val ≠ doFaultCnt k := fun e => hc (by simp [e])
    simp only [List.mem_append, List.mem_cons, List.not_mem_nil, or_false, not_or] at hn hm hc
    obtain ⟨⟨n1, n2, -, -, -, n6, n7, -⟩, nsp⟩ := hn
    obtain ⟨⟨m2, -, -, -, m6, m7, -⟩, msp⟩ := hm
    obtain ⟨⟨c1, c2, c3, c4, c5⟩, csp⟩ := hc
    have hu := fun b => State.doMeasured_other (s := s.doSettle n.val) (n := n) (i := 2) (inj := s.doTestInj n.val k) (ma := ma) (b := b)
    have hkept := (s.doSettle n.val).doMeasured_keepsRegs n 2 (s.doTestInj n.val k) ma (doFaultCnt k)
    have hma := State.doMeasured_ma (s := s.doSettle n.val) (n := n) (i := 2) (inj := s.doTestInj n.val k) (ma := ma)
    rw [Bool.true_and]
    refine ⟨fun h => absurd h (by decide), fun _ => ⟨State.doTest_contains present ma h, ?_⟩, fun _ hj => ?_, ?_, ?_, ?_, fun ho => ?_, fun b hb => ?_⟩
    · rw [State.fld_eq, hrd _ msp]
      simp only [Ne.symm n1, m2, m6, hmc, if_false, ite_self]
      exact hma
    · rw [State.bit_eq, hrd _ (by decide)]
      simp only [Ne.symm n7, Ne.symm c4, show Reg.DIO_INJ ≠ Reg.DIO_IRQ by decide, show Reg.DIO_INJ ≠ Reg.DIO_STAT by decide, if_false, ite_self]
      rw [hj]
      exact State.doMeasured_inj _ n (by decide) ma
    · rw [State.bit_eq, hrd _ nsp]
      dsimp only
      rw [hu _ n1 n7 nsp]
      simp only [n6, Ne.symm c1, if_false, if_true]
      exact bitOf_flagged _ (by omega) _
    · rw [State.bit_eq, hrd _ (by decide)]
      dsimp only
      rw [hu _ (Ne.symm m2) (by decide) (by decide)]
      simp only [Ne.symm n2, Ne.symm c2, show Reg.DIO_STAT ≠ Reg.DIO_IRQ by decide, if_false, if_true]
      exact bitOf_flagged _ (by omega) _
    · rw [State.nat_eq, hrd _ csp]
      dsimp only
      rw [hu _ c5 c4 csp]
      simp only [c3, if_false, if_true]
      exact counted_toNat _ _
    · rw [State.bit_eq, hrd _ (by decide)]
      simp only [ho, if_true]
      exact bitOf_putBit_same _ _ _ (by decide)
    · refine Eq.trans ?_ (hkept b hb)
      simp only [doTestRegs, List.mem_append, List.mem_cons, List.not_mem_nil, or_false, not_or] at hb
      obtain ⟨⟨b1, -, b3, b4, b5, -⟩, hs⟩ := hb
      rw [hrd b hs]
      simp only [b1, b3, b4, b5, if_false, ite_self]

/-- DO_FAULT (R281, R538). -/
theorem doFault_tests (n : Fin 16) (present : Bool) (ma : BitVec 16) (s : State) (hs : s.supplied) :
    ∀ k ∈ [DoFault.openLoad, DoFault.rev], ∃ t, exec (.doFault n k present ma) s = .next t
    ∧ (let runs := if k = .openLoad then s.doOn n.val && (s.iomap (0x322 + 4 * n.val) 1).testBit 0 else !s.doOn n.val
       let inj := decide (k = .openLoad) && s.bit Reg.DIO_INJ 2 && s.fld Reg.DIO_INJ 8 5 == n.val
       let i := if k = .openLoad then 1 else 2
       let cnt := if k = .openLoad then Reg.DIO_CNT_DOOPEN else Reg.DIO_CNT_DOREV
       let onset := runs && (present != inj) && decide ((n.val, k) ∉ s.field.doFault)
       (runs = false → t.regs = s.regs)
       ∧ (runs = true → ((n.val, k) ∈ t.field.doFault ↔ present ≠ inj) ∧ t.fld (Reg.DIO_DO_n_MA n.val) 0 12 = min 4095 ma.toNat)
       ∧ (runs = true → inj = true → t.bit Reg.DIO_INJ 2 = false)
       ∧ t.bit (Reg.DIO_DO_n_STAT n.val) i = (s.bit (Reg.DIO_DO_n_STAT n.val) i || onset) ∧ t.bit Reg.DIO_STAT (3 + i) = (s.bit Reg.DIO_STAT (3 + i) || onset)
       ∧ t.nat cnt = min 0xFFFFFFFF (s.nat cnt + onset.toNat) ∧ (onset = true → t.bit Reg.DIO_IRQ 1 = true)
       ∧ s.keepsRegs t ([Reg.DIO_DO_n_STAT n.val, Reg.DIO_DO_n_MA n.val, Reg.DIO_STAT, cnt, Reg.DIO_IRQ, Reg.DIO_INJ] ++ spoorRegs))
    ∧ t.field = { s.field with doFault := t.field.doFault } ∧ s.keepsParts t [.sent, .spr, .zid, .field] := by
  intro k _
  have ht : exec (.doFault n k present ma) s = .next (s.clearSent.doTest n.val k present ma.toNat) :=
    show execDoFault n k present ma s = _ from State.act_supplied hs
  have hk : Keeps 16770 s (s.clearSent.doTest n.val k present ma.toNat) :=
    Keeps.trans (State.clearSent_keeps rfl (Keeps.refl s)) ((s.clearSent.doTest_frame _ _ _ _).weaken rfl)
  have hruns : (if k = .openLoad then s.doOn n.val && (s.iomap (0x322 + 4 * n.val) 1).testBit 0 else !s.doOn n.val) = s.clearSent.doTestRuns n.val k := by
    cases k <;> rfl
  have hinj : (decide (k = .openLoad) && s.bit Reg.DIO_INJ 2 && s.fld Reg.DIO_INJ 8 5 == n.val) = s.clearSent.doTestInj n.val k := by
    cases k <;> rfl
  have hi : (if k = .openLoad then 1 else 2) = doFaultNum k := by cases k <;> rfl
  have hcnt : (if k = .openLoad then Reg.DIO_CNT_DOOPEN else Reg.DIO_CNT_DOREV) = doFaultCnt k := by cases k <;> rfl
  have hnew : decide ((n.val, k) ∉ s.field.doFault) = !s.clearSent.field.doFault.contains (n.val, k) := by
    rw [List.contains_eq_mem, decide_not]
    rfl
  refine ⟨_, ht, ?_, s.clearSent.doTest_field _ _ _ _, hk.parts _ (fun p => by cases p <;> decide)⟩
  dsimp only
  rw [hruns, hinj, hi, hcnt, hnew, Bool.and_assoc]
  exact s.clearSent.doTest_shows n k present ma.toNat

end Sys2Proof.Machine

/-!
The field supply: its measurement each ms and the return of the outputs (R283).
-/

namespace Sys2Proof.Machine

/-- The supply is lost: reversed or below 16 V, or DIO_INJ says so (R283, R538). -/
def State.supplyLost (s : State) (mv : Nat) (rev : Bool) : Bool := (rev || decide (mv < 16000)) != s.bit Reg.DIO_INJ 3

/-- OK of a measurement: 19.2 V to 30 V and not reversed, or what DIO_INJ says. -/
def State.supplyOk (s : State) (mv : Nat) (rev : Bool) : Bool :=
  if s.bit Reg.DIO_INJ 3 then !s.supplyLost mv rev else !rev && decide (19200 ≤ mv) && decide (mv ≤ 30000)

/-- The measurement before this one found the supply lost. -/
def State.supplyWasLow (s : State) : Bool := s.bit Reg.DIO_FLD 17 || decide (s.fld Reg.DIO_FLD 0 16 < 16000)

/-- The good measurements in a row with this one. -/
def State.supplyRun (s : State) (mv : Nat) (rev : Bool) : Nat :=
  if !s.supplyLost mv rev && !rev && (decide (19200 ≤ mv) || s.bit Reg.DIO_INJ 3) then s.field.supplyGood + 1 else 0

/-- The measurement is in DIO_FLD, a change of OK has raised the interrupt. -/
def State.supplyMeasured (s : State) (mv : Nat) (rev : Bool) : State :=
  ((((s.injRan Reg.DIO_INJ 3).setFld Reg.DIO_FLD 0 16 (if rev then 0 else mv)).setBit Reg.DIO_FLD 17 rev).setBit Reg.DIO_FLD 16
    (s.supplyOk mv rev)).onlyIf (s.bit Reg.DIO_FLD 16 != s.supplyOk mv rev) (fun s => s.irqDio 2)

/-- A lost supply sets its sticky bit and counts when it was not lost before. -/
def State.supplyFails (s : State) (rev wasLow : Bool) : State :=
  (s.setBit Reg.DIO_STAT (if rev then 8 else 7) true).onlyIf (!wasLow) (fun s => s.count Reg.DIO_CNT_FLD)

/-- What the outputs' gate keeps of the measurement: the supply has failed, and how long it is good. -/
def State.supplyNoted (s : State) (mv : Nat) (rev : Bool) : State :=
  let u := s.supplyMeasured mv rev
  { u with field := { u.field with supplyGood := s.supplyRun mv rev, supplyOff := u.field.supplyOff || s.supplyLost mv rev } }

theorem State.supplyCheck_eq (s : State) (mv : Nat) (rev : Bool) :
    s.supplyCheck mv rev = if s.supplyLost mv rev then (s.supplyNoted mv rev).supplyFails rev s.supplyWasLow else s.supplyNoted mv rev := rfl

section
variable (s : State) (mv : Nat) (rev : Bool)

/-- DIO_FLD after a measurement. -/
def supplyWord (w : Word) (mv : Nat) (rev ok : Bool) : Word := putBit (putBit (putBits w 0 16 (if rev then 0 else mv)) 17 rev) 16 ok

theorem State.supplyMeasured_rd {b : Nat} (h1 : b ≠ Reg.DIO_INJ) (h2 : b ≠ Reg.ZID_CNT_INJ) (hp : b ∉ pinRegs) :
    (s.supplyMeasured mv rev).rd b =
      if b = Reg.DIO_FLD then supplyWord (s.rd b) mv rev (s.supplyOk mv rev)
      else if b = Reg.DIO_IRQ then (if s.bit Reg.DIO_FLD 16 != s.supplyOk mv rev then putBit (s.rd b) 2 true else s.rd b)
      else s.rd b := by
  have hi : ∀ r, r ≠ Reg.DIO_INJ → r ≠ Reg.ZID_CNT_INJ → (s.injRan Reg.DIO_INJ 3).rd r = s.rd r := fun r => s.injRan_rd _ _ r
  rw [State.supplyMeasured, State.rd_onlyIf, State.irqDio, State.irqAt_rd _ _ _ _ _ _ hp]
  simp only [State.rd_setBit, State.rd_setFld]
  by_cases hf : b = Reg.DIO_FLD
  · simp [hf, supplyWord, hi _ (show Reg.DIO_FLD ≠ Reg.DIO_INJ by decide) (by decide)]
  by_cases hq : b = Reg.DIO_IRQ
  · simp [hq, hi _ (show Reg.DIO_IRQ ≠ Reg.DIO_INJ by decide) (by decide)]
  · simp [hf, hq, hi b h1 h2]

theorem State.supplyFails_rd (wasLow : Bool) (b : Nat) :
    (s.supplyFails rev wasLow).rd b =
      if b = Reg.DIO_STAT then putBit (s.rd b) (if rev then 8 else 7) true
      else if b = Reg.DIO_CNT_FLD then (if !wasLow then satWordN ((s.rd b).toNat + 1) else s.rd b) else s.rd b := by
  rw [State.supplyFails, State.rd_onlyIf, State.rd_count]
  simp only [State.rd_setBit]
  split_ifs <;> simp_all

/-- What a measurement leaves in the registers that neither its injection nor a trigger of FAULT_N changes. -/
theorem State.supplyCheck_rd {b : Nat} (h1 : b ≠ Reg.DIO_INJ) (h2 : b ≠ Reg.ZID_CNT_INJ) (hp : b ∉ pinRegs) :
    (s.supplyCheck mv rev).rd b =
      if b = Reg.DIO_FLD then supplyWord (s.rd b) mv rev (s.supplyOk mv rev)
      else if b = Reg.DIO_IRQ then (if s.bit Reg.DIO_FLD 16 != s.supplyOk mv rev then putBit (s.rd b) 2 true else s.rd b)
      else if b = Reg.DIO_STAT then (if s.supplyLost mv rev then putBit (s.rd b) (if rev then 8 else 7) true else s.rd b)
      else if b = Reg.DIO_CNT_FLD then (if s.supplyLost mv rev && !s.supplyWasLow then satWordN ((s.rd b).toNat + 1) else s.rd b)
      else s.rd b := by
  have hu : (s.supplyNoted mv rev).rd b = _ := s.supplyMeasured_rd mv rev h1 h2 hp
  rw [State.supplyCheck_eq]
  cases s.supplyLost mv rev
  case false =>
    simp only [Bool.false_eq_true, if_false, Bool.false_and, ite_self]
    exact hu
  case true =>
    simp only [if_true, Bool.true_and, State.supplyFails_rd, hu]
    by_cases hf : b = Reg.DIO_FLD
    · simp [hf]
    by_cases hq : b = Reg.DIO_IRQ
    · simp [hq]
    · simp only [hf, hq, if_false]

theorem State.supplyCheck_field :
    (s.supplyCheck mv rev).field
      = { s.field with supplyGood := s.supplyRun mv rev, supplyOff := s.field.supplyOff || s.supplyLost mv rev } := by
  have hu : (s.supplyMeasured mv rev).field = s.field :=
    (Keeps.only (k := 256) (fun _ hu => State.irqDio_keeps rfl hu) (State.setBit_keeps rfl (State.setBit_keeps rfl (State.setFld_keeps rfl
      (State.injRan_keeps rfl (Keeps.refl s)))))).field_same rfl
  have hnoted : (s.supplyNoted mv rev).field
      = { s.field with supplyGood := s.supplyRun mv rev, supplyOff := s.field.supplyOff || s.supplyLost mv rev } := by
    simp only [State.supplyNoted, hu]
  rw [← hnoted, State.supplyCheck_eq]
  split_ifs
  · exact (Keeps.only (k := 0) (fun _ hu => State.count_keeps rfl hu) (State.setBit_keeps rfl (Keeps.refl _))).field_same rfl
  · rfl

/-- The measurement has run the injection. -/
theorem State.supplyCheck_inj : (s.supplyCheck mv rev).bit Reg.DIO_INJ 3 = false := by
  have hclear := s.injRan_bit (r := Reg.DIO_INJ) (i := 3) (by decide) (by decide)
  have hmeas : (s.supplyMeasured mv rev).bit Reg.DIO_INJ 3 = false := by
    rw [State.bit_eq, State.supplyMeasured, State.rd_onlyIf, State.irqDio, State.irqAt_rd _ _ _ _ _ _ (by decide)]
    simpa using hclear
  have hnoted : (s.supplyNoted mv rev).bit Reg.DIO_INJ 3 = false := hmeas
  rw [State.supplyCheck_eq]
  split_ifs
  · rw [State.bit_eq, State.supplyFails_rd]
    simpa using hnoted
  · exact hnoted

theorem supplyWord_ok (w : Word) (ok : Bool) : bitOf (supplyWord w mv rev ok) 16 = ok := bitOf_putBit_same _ _ _ (by decide)

theorem supplyWord_rev (w : Word) (ok : Bool) : bitOf (supplyWord w mv rev ok) 17 = rev := by
  rw [supplyWord, bitOf_putBit_apart _ _ _ _ (by decide) (by decide), bitOf_putBit_same _ _ _ (by decide)]

theorem supplyWord_mv (w : Word) (ok : Bool) : bitsOf (supplyWord w mv rev ok) 0 16 = (if rev then 0 else mv) % 65536 := by
  rw [supplyWord, putBit, putBit, bitsOf_putBits_apart _ _ _ _ _ _ (by decide) (by decide), bitsOf_putBits_apart _ _ _ _ _ _ (by decide) (by decide)]
  exact bitsOf_putBits_same _ _ _ _ (by decide)

end

/-- What a measurement of the field supply shows (R283). -/
theorem State.supplyCheck_shows (s : State) (mv : BitVec 16) (rev : Bool) :
    let t := s.supplyCheck mv.toNat rev
    let lost := s.supplyLost mv.toNat rev
    let ok := s.supplyOk mv.toNat rev
    t.bit Reg.DIO_FLD 16 = ok ∧ t.bit Reg.DIO_FLD 17 = rev ∧ t.fld Reg.DIO_FLD 0 16 = (if rev then 0 else mv.toNat) ∧ t.bit Reg.DIO_INJ 3 = false
      ∧ t.field.supplyOff = (s.field.supplyOff || lost)
      ∧ (lost = true → t.bit Reg.DIO_STAT (if rev then 8 else 7) = true ∧ t.field.supplyGood = 0)
      ∧ t.field.supplyGood = s.supplyRun mv.toNat rev
      ∧ t.nat Reg.DIO_CNT_FLD = min 0xFFFFFFFF (s.nat Reg.DIO_CNT_FLD + (lost && !s.supplyWasLow).toNat)
      ∧ t.bit Reg.DIO_IRQ 2 = (s.bit Reg.DIO_IRQ 2 || (s.bit Reg.DIO_FLD 16 != ok)) := by
  have hrd := fun b => s.supplyCheck_rd mv.toNat rev (b := b)
  have hfield := s.supplyCheck_field mv.toNat rev
  have hfld := hrd Reg.DIO_FLD (by decide) (by decide) (by decide)
  rw [if_pos rfl] at hfld
  have hmv : (if rev then 0 else mv.toNat) < 65536 := by
    have := mv.isLt
    split_ifs <;> omega
  refine ⟨?_, ?_, ?_, s.supplyCheck_inj _ _, congrArg FieldState.supplyOff hfield, fun hl => ⟨?_, ?_⟩, congrArg FieldState.supplyGood hfield, ?_, ?_⟩
  · rw [State.bit_eq, hfld, supplyWord_ok]
  · rw [State.bit_eq, hfld, supplyWord_rev]
  · rw [State.fld_eq, hfld, supplyWord_mv, Nat.mod_eq_of_lt hmv]
  · rw [State.bit_eq, hrd _ (by decide) (by decide) (by decide)]
    simp only [show Reg.DIO_STAT ≠ Reg.DIO_FLD by decide, show Reg.DIO_STAT ≠ Reg.DIO_IRQ by decide, hl, if_false, if_true]
    exact bitOf_putBit_same _ _ _ (by split_ifs <;> decide)
  · simp [hfield, State.supplyRun, hl]
  · rw [State.nat_eq, hrd _ (by decide) (by decide) (by decide)]
    exact counted_toNat _ _
  · rw [State.bit_eq, hrd _ (by decide) (by decide) (by decide)]
    exact bitOf_flagged _ (by decide) _

/-- FIELD_SUPPLY_CHECK (R283, R538). -/
theorem fieldSupplyCheck_measures (mv : BitVec 16) (rev : Bool) (s : State) (hs : s.supplied) : ∃ t, exec (.fieldSupplyCheck mv rev) s = .next t
    ∧ (let inj := s.bit Reg.DIO_INJ 3
       let lost := (rev || decide (mv.toNat < 16000)) != inj
       let ok := if inj then !lost else !rev && decide (19200 ≤ mv.toNat ∧ mv.toNat ≤ 30000)
       t.bit Reg.DIO_FLD 16 = ok ∧ t.bit Reg.DIO_FLD 17 = rev ∧ t.fld Reg.DIO_FLD 0 16 = (if rev then 0 else mv.toNat) ∧ t.bit Reg.DIO_INJ 3 = false
       ∧ t.field.supplyOff = (s.field.supplyOff || lost)
       ∧ (lost = true → t.bit Reg.DIO_STAT (if rev then 8 else 7) = true ∧ t.field.supplyGood = 0)
       ∧ t.field.supplyGood = (if lost = false ∧ rev = false ∧ (19200 ≤ mv.toNat ∨ inj = true) then s.field.supplyGood + 1 else 0)
       ∧ t.nat Reg.DIO_CNT_FLD = min 0xFFFFFFFF (s.nat Reg.DIO_CNT_FLD + (lost && !(s.bit Reg.DIO_FLD 17 || decide (s.fld Reg.DIO_FLD 0 16 < 16000))).toNat)
       ∧ t.bit Reg.DIO_IRQ 2 = (s.bit Reg.DIO_IRQ 2 || (s.bit Reg.DIO_FLD 16 != ok)))
    ∧ t.field = { s.field with supplyOff := t.field.supplyOff, supplyGood := t.field.supplyGood }
    ∧ s.keepsRegs t ([Reg.DIO_FLD, Reg.DIO_STAT, Reg.DIO_CNT_FLD, Reg.DIO_IRQ, Reg.DIO_INJ, Reg.ZID_CNT_INJ] ++ pinRegs) ∧ s.keepsParts t [.sent, .zid, .field] := by
  have ht : exec (.fieldSupplyCheck mv rev) s = .next (s.clearSent.supplyCheck mv.toNat rev) :=
    show execFieldSupplyCheck mv rev s = _ from State.act_supplied hs
  have hk : Keeps 16642 s (s.clearSent.supplyCheck mv.toNat rev) := execFieldSupplyCheck_keeps rfl ht
  have hok : (if s.bit Reg.DIO_INJ 3 then !s.clearSent.supplyLost mv.toNat rev else !rev && decide (19200 ≤ mv.toNat ∧ mv.toNat ≤ 30000))
      = s.clearSent.supplyOk mv.toNat rev := by
    rw [Bool.decide_and, ← Bool.and_assoc]
    rfl
  have hrun : (if s.clearSent.supplyLost mv.toNat rev = false ∧ rev = false ∧ (19200 ≤ mv.toNat ∨ s.bit Reg.DIO_INJ 3 = true)
      then s.field.supplyGood + 1 else 0) = s.clearSent.supplyRun mv.toNat rev := by
    refine if_congr ?_ rfl rfl
    simp only [Bool.and_eq_true, Bool.or_eq_true, Bool.not_eq_true', decide_eq_true_iff, and_assoc]
    rfl
  have hlost : ((rev || decide (mv.toNat < 16000)) != s.bit Reg.DIO_INJ 3) = s.clearSent.supplyLost mv.toNat rev := rfl
  have hlow : (s.bit Reg.DIO_FLD 17 || decide (s.fld Reg.DIO_FLD 0 16 < 16000)) = s.clearSent.supplyWasLow := rfl
  refine ⟨_, ht, ?_, ?_, fun b hb => ?_, hk.parts _ (fun p => by cases p <;> decide)⟩
  · dsimp only
    rw [hlost, hlow, hok, hrun]
    exact s.clearSent.supplyCheck_shows mv rev
  · rw [State.supplyCheck_field]
    rfl
  · simp only [List.mem_append, List.mem_cons, List.not_mem_nil, or_false, not_or] at hb
    obtain ⟨⟨b1, b2, b3, b4, b5, b6⟩, hp⟩ := hb
    rw [State.supplyCheck_rd _ _ _ b5 b6 hp]
    simp only [b1, b2, b3, b4, if_false]
    rfl

theorem State.supplyReturn_eq (s : State) :
    s.supplyReturn = { s with field := { s.field with supplyOff := s.field.supplyOff && decide (s.field.supplyGood < 100) } } := by
  unfold State.supplyReturn
  split_ifs with h
  · simp [h]
  · simp [h]

/-- FIELD_SUPPLY_RETURN (R283). -/
theorem fieldSupplyReturn_returns (s : State) (hs : s.supplied) : ∃ t, exec .fieldSupplyReturn s = .next t ∧ t.regs = s.regs
    ∧ t.field = { s.field with supplyOff := s.field.supplyOff && decide (s.field.supplyGood < 100) } ∧ s.keepsParts t [.sent, .field] := by
  have ht : exec .fieldSupplyReturn s = .next s.clearSent.supplyReturn := show execFieldSupplyReturn s = _ from State.act_supplied hs
  have hk : Keeps 16386 s s.clearSent.supplyReturn := execFieldSupplyReturn_keeps rfl ht
  refine ⟨_, ht, ?_, ?_, hk.parts _ (fun p => by cases p <;> decide)⟩
  all_goals
    rw [State.supplyReturn_eq]
    rfl

/-- Settles O17: each command's clause, in the statement's order. -/
theorem fieldOutputs : Obligations.FieldOutputs :=
  ⟨aoutSetWrite_drives, doSetWrite_sets, clrfault_clears, aoutFault_judges, aoutFaultEnd_clears, aoutReadback_reads, doTrip_trips,
    doRetry_retries, doFault_tests, fieldSupplyCheck_measures, fieldSupplyReturn_returns⟩

end Sys2Proof.Machine

/-!
A modulator clock that stops takes the lap's FEEDER source away (Table 1, R44), which refutes O18.
-/

namespace Sys2Proof.Machine

/-- The module with an image that runs: feeder 0 is configured, LAP_SRC_CTRL selects channel VL1 of it as the source of the laps, and
its crossings, judged since H8, have made that source valid. -/
def lapsFromFeeder : State :=
  ((({ State.reset with
    lap := { resetLap with judging := true, feeder := ⟨true, 16, 0, true, [50000, 50000, 50000, 50000], some 0⟩ } }.wr Reg.IMG_RUN 2#32).wr
    (Reg.MTR_F_f_CFG 0) 1#32).wr Reg.LAP_SRC_CTRL 1#32)

theorem lapsFromFeeder_srcValid : lapsFromFeeder.srcValid lapsFromFeeder.lapSel = true := by decide +kernel

theorem State.feeder_valid_of_srcValid {s : State} (h : s.srcValid 1 = true) : s.lap.feeder.valid = true :=
  (Bool.and_eq_true_iff.mp (show (s.lap.feeder.valid && s.feederUsable) = true from h)).1

/-- With the onset of CLKFAIL the source is invalid, until 16 new good crossings (R44). -/
theorem lapsFromFeeder_clkfail_invalid :
    (lapsFromFeeder.clearSent.modFault 0 0 .clkfail true).lap.feeder.valid = false := by decide +kernel

theorem exec_modFault {s : State} (hs : s.supplied) (f : Fin 4) (ch : Fin 6) (k : ModFault) (present : Bool) :
    exec (.modFault f ch k present) s = .next (s.clearSent.modFault f.val ch.val k present) :=
  show execModFault f ch k present s = _ from State.act_supplied hs

/-- Refutes O18: the statement has a MOD_FAULT change no component but the frames sent, the spoor, the pin and the metering, while the
CLKFAIL of the feeder that LAP_SRC_CTRL names also makes the lap generator's FEEDER source invalid (Table 1 of
spec/02_laps_budgets_batons.md), a part of the component `lap`. -/
theorem not_meteringCommands : ¬ Obligations.MeteringCommands := by
  intro h
  obtain ⟨hfault, -⟩ := h
  have hs : lapsFromFeeder.supplied := by unfold State.supplied; decide
  obtain ⟨t, ht, -, -, -, -, -, -, hparts⟩ := hfault 0 0 .clkfail true lapsFromFeeder hs
  have hkept : t.lap = lapsFromFeeder.lap := hparts.lap (by decide)
  have hvalid : lapsFromFeeder.lap.feeder.valid = true := State.feeder_valid_of_srcValid lapsFromFeeder_srcValid
  have e : t = lapsFromFeeder.clearSent.modFault 0 0 .clkfail true :=
    Host.Outcome.next.inj (ht.symm.trans (exec_modFault hs 0 0 .clkfail true))
  rw [← hkept, e, lapsFromFeeder_clkfail_invalid] at hvalid
  exact absurd hvalid (by decide)

end Sys2Proof.Machine

/-!
A received signal (R323) whose record names a variable beyond the 4,096 exchange variables, which refutes O19.
-/

namespace Sys2Proof.Machine

/-- The number of an exchange variable whose place would be the address of CAN0_CNT_RXFRAME. -/
def rxframeXv : Nat := 20500

theorem rxframeXv_addr : Reg.FBP_XV_k rxframeXv = Reg.CAN_CNT_RXFRAME 0 := rfl

/-- An image with one CAN signal: filter 0 of channel 0 writes the first 8 data bits to variable `rxframeXv`. R318 has a load refuse such a
record, since XV ends at 4,095; the statement admits every image. -/
def wildSignalImage : ImgBytes :=
  [(0x0C, 1, 1), (0x40, 1, secCanf), (0x44, 4, 0x100), -- one section: CANF at 0x100
   (0x102, 2, 1), (0xE93, 1, 8), (0xE96, 2, rxframeXv)].foldl (fun t e => tabSetList 0#8 t e.1 (leBytes e.2.1 e.2.2)) []

/-- The module with that image running from slot A, channel 0 ERROR_ACTIVE, and ACT of its filter 0, whose mask is 0, at SIG. -/
def wildSignal : State :=
  (({ State.reset with img := { resetImg with slotA := wildSignalImage } }.wr Reg.IMG_RUN 2#32).wr (Reg.CAN_STATE 0) 2#32).wr
    (Reg.CAN_FILT_ACT_j 0 0) 4#32

theorem exec_canFrameReceive {s : State} (hs : s.supplied) (ch : Fin 4) (id fmt stamp : Word) (data : List Byte) (crcOk : Bool) (staged : Fin 9) :
    exec (.canFrameReceive ch id fmt stamp data crcOk staged) s = .next (s.clearSent.canFrame ch.val id fmt stamp data crcOk staged.val) :=
  show execCanFrameReceive ch id fmt stamp data crcOk staged s = _ from State.act_supplied hs

/-- The frame's one data byte lands in the counter. -/
theorem wildSignal_overwrites_count :
    (wildSignal.clearSent.canFrame 0 0#32 1#32 0#32 [7#8] true 0).rd (Reg.CAN_CNT_RXFRAME 0) = 7#32 := by decide +kernel

/-- Refutes O19: the statement has a received frame count RXFRAME whatever image runs, while the signal of `wildSignalImage` writes the
frame's data byte, 7, over the counter. -/
theorem not_canReception : ¬ Obligations.CanReception := by
  intro h
  obtain ⟨hframe, -⟩ := h
  have hs : wildSignal.supplied := by unfold State.supplied; decide
  obtain ⟨t, ht, hcount, -⟩ := hframe 0 0#32 1#32 0#32 [7#8] 0 wildSignal hs (by decide) (by decide +kernel) (by decide +kernel) (by decide)
  have hone : (t.rd (Reg.CAN_CNT_RXFRAME 0)).toNat = 1 := hcount.trans (by decide +kernel)
  have e : t = wildSignal.clearSent.canFrame 0 0#32 1#32 0#32 [7#8] true 0 :=
    Host.Outcome.next.inj (ht.symm.trans (exec_canFrameReceive hs 0 0#32 1#32 0#32 [7#8] true 0))
  rw [e, wildSignal_overwrites_count] at hone
  exact absurd hone (by decide)

end Sys2Proof.Machine

/-!
The CAN channels: what the operations of a channel leave of its registers and of the channel itself (R313, R316, R326, R332, R333).
-/

namespace Sys2Proof.Machine

/-! ## Registers of the CAN blocks -/

theorem not_spoor_of_can {b : Nat} (h : blockOf b = some .can) : b ∉ spoorRegs := fun hb =>
  (show ∀ a ∈ spoorRegs, blockOf a ≠ some .can by decide) b hb h

theorem not_host_of_can {b : Nat} (h : blockOf b = some .can) : b ∉ hostRegs := fun hb =>
  (show ∀ a ∈ hostRegs, blockOf a ≠ some .can by decide) b hb h

/-- The registers of a channel that its operations read and write, its buffers apart. -/
def canRegs (ch : Nat) : List Nat := [Reg.CAN_CTRL ch, Reg.CAN_STATE ch, Reg.CAN_LINE ch, Reg.CAN_STAT ch, Reg.CAN_IRQ ch, Reg.CAN_INJ ch,
  Reg.CAN_TDC ch, Reg.CAN_CNT_TXFRAME ch, Reg.CAN_CNT_LINEFAULT ch]

theorem canRegs_block {ch : Fin 4} {b : Nat} (hb : b ∈ canRegs ch.val) : blockOf b = some .can :=
  (show ∀ ch : Fin 4, ∀ b ∈ canRegs ch.val, blockOf b = some .can by decide) ch b hb

theorem canRegs_lt_txb {ch b : Nat} (hb : b ∈ canRegs ch) (i : Nat) : b < Reg.CAN_TXB_b_CTRL ch i := by
  have h : ∀ b ∈ canRegs ch, b < 0x50600 + 0x1000 * ch := by
    simp [canRegs, Reg.CAN_CTRL, Reg.CAN_STATE, Reg.CAN_LINE, Reg.CAN_STAT, Reg.CAN_IRQ, Reg.CAN_INJ, Reg.CAN_TDC, Reg.CAN_CNT_TXFRAME, Reg.CAN_CNT_LINEFAULT]
  exact Nat.lt_of_lt_of_le (h b hb) (Nat.le_add_right _ _)

theorem canRegs_not_pin {ch : Fin 4} {b : Nat} (hb : b ∈ canRegs ch.val) : b ∉ pinRegs := not_pin_of_spoor (not_spoor_of_can (canRegs_block hb))

theorem txbCtrl_block (ch : Fin 4) (i : Fin 32) : blockOf (Reg.CAN_TXB_b_CTRL ch.val i.val) = some .can := by
  revert ch i; decide

theorem txbCtrl_not_pin (ch : Fin 4) (i : Fin 32) : Reg.CAN_TXB_b_CTRL ch.val i.val ∉ pinRegs :=
  not_pin_of_spoor (not_spoor_of_can (txbCtrl_block ch i))

theorem state_mem_canRegs (ch : Nat) : Reg.CAN_STATE ch ∈ canRegs ch := by simp [canRegs]

theorem state_ne_irq (ch : Nat) : Reg.CAN_STATE ch ≠ Reg.CAN_IRQ ch := by simp [Reg.CAN_STATE, Reg.CAN_IRQ]

/-! ## Channels -/

theorem State.canCh_congr {s t : State} (h : t.can = s.can) (c : Nat) : t.canCh c = s.canCh c := by
  unfold State.canCh
  rw [h]

/-- A channel that was replaced. -/
theorem State.canCh_of_set {s t : State} {ch : Nat} {c : CanChan} (h : t.can = s.can.set ch c) (hl : ch < s.can.length) : t.canCh ch = c := by
  simp [State.canCh, h, hl]

/-- The channels that were not. -/
theorem State.canCh_of_set_ne {s t : State} {ch : Nat} {c : CanChan} (h : t.can = s.can.set ch c) {k : Nat} (hk : k ≠ ch) :
    t.canCh k = s.canCh k := by
  simp [State.canCh, h, List.getElem?_set_ne hk.symm]

theorem State.putCan_self {s : State} {ch : Nat} : s.can.set ch (s.canCh ch) = s.can := by
  refine List.ext_getElem? fun i => ?_
  rw [List.getElem?_set]
  split_ifs with h1 h2
  · subst h1
    simp [State.canCh, h2]
  · subst h1
    exact (List.getElem?_eq_none (Nat.le_of_not_lt h2)).symm
  · rfl

@[simp] theorem State.rd_putCan (s : State) (ch : Nat) (c : CanChan) (b : Nat) : (s.putCan ch c).rd b = s.rd b := rfl
@[simp] theorem State.putCan_can (s : State) (ch : Nat) (c : CanChan) : (s.putCan ch c).can = s.can.set ch c := rfl
@[simp] theorem State.canState_putCan (s : State) (ch : Nat) (c : CanChan) (k : Nat) : (s.putCan ch c).canState k = s.canState k := rfl

/-! ## STATE, TEC and REC (R313) -/

theorem bitOf_putBits_apart (w : Word) (lo n v i : Nat) (hi : i < 32) (h : i < lo ∨ lo + n ≤ i) : bitOf (putBits w lo n v) i = bitOf w i := by
  rw [bitOf_putBits _ _ _ _ _ hi, if_neg (by omega)]

theorem State.canState_eq (s : State) (ch : Nat) : s.canState ch = bitsOf (s.rd (Reg.CAN_STATE ch)) 0 3 := rfl
theorem State.canTec_eq (s : State) (ch : Nat) : s.canTec ch = bitsOf (s.rd (Reg.CAN_STATE ch)) 8 8 := rfl
theorem State.canRec_eq (s : State) (ch : Nat) :
    s.canRec ch = bitsOf (s.rd (Reg.CAN_STATE ch)) 16 7 + (if bitOf (s.rd (Reg.CAN_STATE ch)) 23 then 1 else 0) := rfl

@[simp] theorem State.canTec_putCan (s : State) (ch : Nat) (c : CanChan) (k : Nat) : (s.putCan ch c).canTec k = s.canTec k := rfl
@[simp] theorem State.canRec_putCan (s : State) (ch : Nat) (c : CanChan) (k : Nat) : (s.putCan ch c).canRec k = s.canRec k := rfl

theorem State.canState_congr {s t : State} {ch : Nat} (h : t.rd (Reg.CAN_STATE ch) = s.rd (Reg.CAN_STATE ch)) : t.canState ch = s.canState ch := by
  rw [State.canState_eq, h, ← State.canState_eq]

theorem State.canTo_rd (s : State) {ch : Fin 4} (k : Nat) {b : Nat} (hb : b ∉ pinRegs) :
    (s.canTo ch.val k).rd b = if s.canState ch.val = k then s.rd b
      else if b = Reg.CAN_IRQ ch.val then putBit (s.rd b) 3 true
      else if b = Reg.CAN_STATE ch.val then putBits (s.rd b) 0 3 k else s.rd b := by
  unfold State.canTo
  split_ifs with h1 h2 h3
  · rfl
  · subst h2
    rw [State.irqCan, State.irqAt_rd _ _ _ _ _ _ hb, if_pos rfl, State.rd_setFld, if_neg (state_ne_irq _).symm]
  · rw [State.irqCan, State.irqAt_rd _ _ _ _ _ _ hb, if_neg h2, State.rd_setFld, if_pos h3, h3]
  · rw [State.irqCan, State.irqAt_rd _ _ _ _ _ _ hb, if_neg h2, State.rd_setFld, if_neg h3]

theorem State.canTo_can (s : State) (ch k : Nat) : (s.canTo ch k).can = s.can :=
  (State.canTo_keeps (k := 256) rfl (Keeps.refl s)).can_same rfl

theorem State.canTo_self {s : State} {ch k : Nat} (h : s.canState ch = k) : s.canTo ch k = s := if_pos h

/-- A change of STATE changes no other register but IRQ. -/
theorem State.canTo_rd_apart (s : State) {ch : Fin 4} (k : Nat) {b : Nat} (hb : b ∉ pinRegs) (h1 : b ≠ Reg.CAN_STATE ch.val)
    (h2 : b ≠ Reg.CAN_IRQ ch.val) : (s.canTo ch.val k).rd b = s.rd b := by
  rw [s.canTo_rd k hb, if_neg h1, if_neg h2, ite_self]

theorem State.canTo_stateReg (s : State) (ch : Fin 4) (k : Nat) :
    (s.canTo ch.val k).rd (Reg.CAN_STATE ch.val)
      = if s.canState ch.val = k then s.rd (Reg.CAN_STATE ch.val) else putBits (s.rd (Reg.CAN_STATE ch.val)) 0 3 k := by
  rw [s.canTo_rd k (canRegs_not_pin (state_mem_canRegs _)), if_neg (state_ne_irq _), if_pos rfl]

theorem State.canState_canTo (s : State) (ch : Fin 4) {k : Nat} (hk : k < 8) : (s.canTo ch.val k).canState ch.val = k := by
  rw [State.canState_eq, s.canTo_stateReg]
  split_ifs with h
  · exact h
  · rw [bitsOf_putBits_same _ _ _ _ (by decide)]
    exact Nat.mod_eq_of_lt hk

theorem State.canTec_canTo (s : State) (ch : Fin 4) (k : Nat) : (s.canTo ch.val k).canTec ch.val = s.canTec ch.val := by
  rw [State.canTec_eq, s.canTo_stateReg]
  split_ifs
  · rfl
  · exact bitsOf_putBits_apart _ _ _ _ _ _ (by decide) (by decide)

theorem State.canRec_canTo (s : State) (ch : Fin 4) (k : Nat) : (s.canTo ch.val k).canRec ch.val = s.canRec ch.val := by
  rw [State.canRec_eq, s.canTo_stateReg]
  by_cases h : s.canState ch.val = k
  · rw [if_pos h]
    rfl
  · rw [if_neg h, bitsOf_putBits_apart _ _ _ _ _ _ (by decide) (by decide), bitOf_putBits_apart _ _ _ _ _ (by decide) (by decide)]
    rfl

theorem State.canTec_setTec (s : State) (ch : Nat) {v : Nat} (hv : v < 256) : (s.setTec ch v).canTec ch = v := by
  rw [State.canTec_eq, State.setTec, State.rd_setFld, if_pos rfl, bitsOf_putBits_same _ _ _ _ (by decide)]
  exact Nat.mod_eq_of_lt hv

theorem State.canState_setTec (s : State) (ch v : Nat) : (s.setTec ch v).canState ch = s.canState ch := by
  rw [State.canState_eq, State.setTec, State.rd_setFld, if_pos rfl]
  exact bitsOf_putBits_apart _ _ _ _ _ _ (by decide) (by decide)

theorem State.setRec_stateReg (s : State) (ch v : Nat) :
    (s.setRec ch v).rd (Reg.CAN_STATE ch) = putBit (putBits (s.rd (Reg.CAN_STATE ch)) 16 7 (min 127 v)) 23 (127 < v) := by
  simp only [State.setRec, State.rd_setBit, State.rd_setFld, if_true]

theorem State.canTec_setRec (s : State) (ch v : Nat) : (s.setRec ch v).canTec ch = s.canTec ch := by
  rw [State.canTec_eq, s.setRec_stateReg, putBit, bitsOf_putBits_apart _ _ _ _ _ _ (by decide) (by decide),
    bitsOf_putBits_apart _ _ _ _ _ _ (by decide) (by decide)]
  rfl

theorem State.canState_setRec (s : State) (ch v : Nat) : (s.setRec ch v).canState ch = s.canState ch := by
  rw [State.canState_eq, s.setRec_stateReg, putBit, bitsOf_putBits_apart _ _ _ _ _ _ (by decide) (by decide),
    bitsOf_putBits_apart _ _ _ _ _ _ (by decide) (by decide)]
  rfl

theorem State.canRec_setRec_zero (s : State) (ch : Nat) : (s.setRec ch 0).canRec ch = 0 := by
  rw [State.canRec_eq, s.setRec_stateReg, bitOf_putBit_same _ _ _ (by decide), putBit, bitsOf_putBits_apart _ _ _ _ _ _ (by decide) (by decide),
    bitsOf_putBits_same _ _ _ _ (by decide)]
  rfl

theorem State.setTec_rd (s : State) {ch : Nat} (v : Nat) {b : Nat} (h : b ≠ Reg.CAN_STATE ch) : (s.setTec ch v).rd b = s.rd b := by
  rw [State.setTec, State.rd_setFld, if_neg h]

theorem State.setRec_rd (s : State) {ch : Nat} (v : Nat) {b : Nat} (h : b ≠ Reg.CAN_STATE ch) : (s.setRec ch v).rd b = s.rd b := by
  rw [State.setRec, State.rd_setBit, if_neg h, State.rd_setFld, if_neg h]

theorem State.setTec_can (s : State) (ch v : Nat) : (s.setTec ch v).can = s.can := rfl
theorem State.setRec_can (s : State) (ch v : Nat) : (s.setRec ch v).can = s.can := rfl

/-! ## The end of a request (R326) -/

theorem State.txFinish_rd (s : State) (ch i : Nat) (done : Bool) {b : Nat} (hb : b ∉ pinRegs) :
    (s.txFinish ch i done).rd b =
      if !done && b = Reg.CAN_STAT ch then putBit (s.rd b) 6 true
      else if b = Reg.CAN_IRQ ch then putBit (s.rd b) 2 true
      else if b = Reg.CAN_TXB_b_CTRL ch i then (if done then 0x100#32 else 0x200#32) else s.rd b := by
  have hstat : Reg.CAN_STAT ch < Reg.CAN_TXB_b_CTRL ch i := canRegs_lt_txb (by simp [canRegs]) i
  have hirq : Reg.CAN_IRQ ch < Reg.CAN_TXB_b_CTRL ch i := canRegs_lt_txb (by simp [canRegs]) i
  have hne : Reg.CAN_STAT ch ≠ Reg.CAN_IRQ ch := by simp [Reg.CAN_STAT, Reg.CAN_IRQ]
  have hends : ((s.wr (Reg.CAN_TXB_b_CTRL ch i) (if done then 0x100#32 else 0x200#32)).irqCan ch 2).rd b
      = if b = Reg.CAN_IRQ ch then putBit (s.rd b) 2 true
        else if b = Reg.CAN_TXB_b_CTRL ch i then (if done then 0x100#32 else 0x200#32) else s.rd b := by
    rw [State.irqCan, State.irqAt_rd _ _ _ _ _ _ hb, State.rd_wr, State.rd_wr, if_neg hirq.ne]
    by_cases h : b = Reg.CAN_IRQ ch
    · simp [h]
    · simp [h]
  unfold State.txFinish
  rw [State.rd_onlyIf, State.rd_setBit]
  cases done
  case true => simpa using hends
  case false =>
    rw [if_neg Bool.false_ne_true] at hends ⊢
    by_cases h : b = Reg.CAN_STAT ch
    · subst h
      rw [if_neg hne, if_neg hstat.ne] at hends
      simp [hends]
    · simpa [h] using hends

theorem State.txFinish_can (s : State) (ch i : Nat) (done : Bool) : (s.txFinish ch i done).can = s.can :=
  (State.txFinish_keeps (k := 256) rfl (Keeps.refl s)).can_same rfl

theorem txbCtrl_ne_canReg {ch b : Nat} (hb : b ∈ canRegs ch) (i : Nat) : Reg.CAN_TXB_b_CTRL ch i ≠ b := (canRegs_lt_txb hb i).ne'

/-- The end of a request writes its own buffer's CTRL and no other buffer's. -/
theorem State.txFinish_ctrl (s : State) (ch : Fin 4) (i : Nat) (j : Fin 32) (done : Bool) :
    (s.txFinish ch.val i done).rd (Reg.CAN_TXB_b_CTRL ch.val j.val)
      = if j.val = i then (if done then 0x100#32 else 0x200#32) else s.rd (Reg.CAN_TXB_b_CTRL ch.val j.val) := by
  have hstat : Reg.CAN_TXB_b_CTRL ch.val j.val ≠ Reg.CAN_STAT ch.val := txbCtrl_ne_canReg (by simp [canRegs]) _
  have hirq : Reg.CAN_TXB_b_CTRL ch.val j.val ≠ Reg.CAN_IRQ ch.val := txbCtrl_ne_canReg (by simp [canRegs]) _
  rw [s.txFinish_rd _ _ _ (txbCtrl_not_pin ch j), if_neg (by simp [hstat]), if_neg hirq]
  refine if_congr ?_ rfl rfl
  simp only [Reg.CAN_TXB_b_CTRL]
  omega

/-- A request that has ended stays ended while others end. -/
theorem State.txReady_forEach_txFinish (ch : Fin 4) (j : Fin 32) (l : List Nat) (s : State) (h : s.txReady ch.val j.val = false ∨ j.val ∈ l) :
    (s.forEach l (fun t i => t.txFinish ch.val i false)).txReady ch.val j.val = false := by
  induction l generalizing s with
  | nil => exact h.resolve_right List.not_mem_nil
  | cons i l ih =>
    refine ih (s.txFinish ch.val i false) ?_
    by_cases hj : j.val = i
    · left
      rw [State.txReady, State.bit_eq, State.txFinish_ctrl, if_pos hj]
      decide
    · simp only [State.txReady, State.bit_eq, s.txFinish_ctrl, if_neg hj] at h ⊢
      simpa [hj] using h

theorem State.txFailAll_ready (s : State) (ch : Fin 4) (j : Fin 32) : (s.txFailAll ch.val).txReady ch.val j.val = false := by
  refine State.txReady_forEach_txFinish ch j _ s ?_
  by_cases h : s.txReady ch.val j.val = true
  · exact .inr (by simp [h])
  · exact .inl (by simpa using h)

theorem State.txFailAll_rd (s : State) {ch : Fin 4} {b : Nat} (hb : b ∈ canRegs ch.val) (h1 : b ≠ Reg.CAN_STAT ch.val) (h2 : b ≠ Reg.CAN_IRQ ch.val) :
    (s.txFailAll ch.val).rd b = s.rd b := by
  refine State.rd_forEach _ _ b (fun t i => ?_) s
  rw [t.txFinish_rd _ _ _ (canRegs_not_pin hb), if_neg (by simp [h1]), if_neg h2, if_neg (canRegs_lt_txb hb i).ne]

theorem State.txFailAll_can (s : State) (ch : Nat) : (s.txFailAll ch).can = s.can :=
  (State.txFailAll_keeps (k := 256) rfl (Keeps.refl s)).can_same rfl

end Sys2Proof.Machine

/-!
CAN modes, bit timing, bus-off recovery and line faults (R313, R314, R316, R326, R332, R333), which settle O20.
-/

namespace Sys2Proof.Machine

/-! ## A mode comes into force (R316) -/

/-- A channel once mode `m` is in force. -/
def CanChan.entered (c : CanChan) (m : Nat) : CanChan :=
  if m = 0 then { c with mode := 0, pendMode := none, tx := none, recovering := false, former := 2, awaitResume := false }
  else { c with mode := m, pendMode := none }

theorem CanChan.entered_mode (c : CanChan) (m : Nat) : (c.entered m).mode = m ∧ (c.entered m).pendMode = none := by
  unfold CanChan.entered
  split_ifs with h
  · exact ⟨h.symm, rfl⟩
  · exact ⟨rfl, rfl⟩

/-- STATE once mode `m` is in force. -/
def State.stateEntered (s : State) (ch m : Nat) : Nat :=
  if m = 0 then 0
  else if s.canState ch = 0 then (if s.fld (Reg.CAN_LINE ch) 0 5 = 0 then 1 else 6)
  else if s.canState ch = 4 ∨ s.canState ch = 1 ∨ s.canState ch = 6 then s.canState ch
  else partState m (s.canErrState ch)

theorem partState_lt (m : Nat) {e : Nat} (h : e < 8) : partState m e < 8 := by
  unfold partState
  split_ifs <;> omega

theorem State.canErrState_lt (s : State) (ch : Nat) : s.canErrState ch < 8 := by
  unfold State.canErrState
  split_ifs <;> decide

/-- CONFIG: the requests have ended and the counters are cleared. -/
def State.configured (s : State) (ch : Nat) : State :=
  (((s.putCan ch ((s.canCh ch).entered 0)).onlyIf ((s.canCh ch).mode != 0) (fun s => s.txFailAll ch)).setTec ch 0).setRec ch 0

theorem State.canEnter_config (s : State) (ch : Nat) : s.canEnter ch 0 = (s.configured ch).canTo ch 0 := rfl

/-- Another mode: the channel takes it, and STATE changes. -/
theorem State.canEnter_other (s : State) (ch : Fin 4) {m : Nat} (hm : m ≠ 0) :
    s.canEnter ch.val m = (s.putCan ch.val ((s.canCh ch.val).entered m)).canTo ch.val (s.stateEntered ch.val m) := by
  have he : (s.canCh ch.val).entered m = { s.canCh ch.val with mode := m, pendMode := none } := if_neg hm
  rw [he]
  unfold State.canEnter State.stateEntered
  simp only [if_neg hm]
  by_cases h0 : s.canState ch.val = 0
  · simp only [h0, if_true]
  · simp only [if_neg h0]
    by_cases h1 : s.canState ch.val = 4 ∨ s.canState ch.val = 1 ∨ s.canState ch.val = 6
    · rw [if_pos h1, if_pos (by simpa [or_assoc] using h1)]
      exact (State.canTo_self rfl).symm
    · rw [if_neg h1, if_neg (by simpa [or_assoc] using h1)]

theorem State.configured_can (s : State) (ch : Nat) : (s.configured ch).can = s.can.set ch ((s.canCh ch).entered 0) := by
  unfold State.configured
  rw [State.setRec_can, State.setTec_can]
  cases (s.canCh ch).mode != 0
  · rfl
  · exact State.txFailAll_can _ _

theorem State.canEnter_can (s : State) (ch : Fin 4) (m : Nat) : (s.canEnter ch.val m).can = s.can.set ch.val ((s.canCh ch.val).entered m) := by
  by_cases hm : m = 0
  · subst hm
    rw [State.canEnter_config, State.canTo_can, State.configured_can]
  · rw [s.canEnter_other ch hm, State.canTo_can, State.putCan_can]

theorem State.stateEntered_lt (s : State) (ch m : Nat) : s.stateEntered ch m < 8 := by
  have h := partState_lt m (s.canErrState_lt ch)
  unfold State.stateEntered
  split_ifs <;> omega

theorem State.canState_canEnter (s : State) (ch : Fin 4) (m : Nat) : (s.canEnter ch.val m).canState ch.val = s.stateEntered ch.val m := by
  by_cases hm : m = 0
  · subst hm
    exact State.canState_canTo _ ch (by decide)
  · rw [s.canEnter_other ch hm]
    exact State.canState_canTo _ ch (s.stateEntered_lt _ _)

/-- The registers of the channel that a mode leaves as they stand. -/
theorem State.canEnter_rd (s : State) {ch : Fin 4} (m : Nat) {b : Nat} (hb : b ∈ canRegs ch.val)
    (h : b ∉ [Reg.CAN_STATE ch.val, Reg.CAN_STAT ch.val, Reg.CAN_IRQ ch.val]) : (s.canEnter ch.val m).rd b = s.rd b := by
  simp only [List.mem_cons, List.not_mem_nil, or_false, not_or] at h
  obtain ⟨h1, h2, h3⟩ := h
  by_cases hm : m = 0
  · subst hm
    rw [State.canEnter_config, State.canTo_rd_apart _ _ (canRegs_not_pin hb) h1 h3, State.configured, State.setRec_rd _ _ h1,
      State.setTec_rd _ _ h1, State.rd_onlyIf, State.txFailAll_rd _ hb h2 h3, ite_self, State.rd_putCan]
  · rw [s.canEnter_other ch hm, State.canTo_rd_apart _ _ (canRegs_not_pin hb) h1 h3, State.rd_putCan]

/-- CONFIG clears the error counters. -/
theorem State.canEnter_config_counters (s : State) (ch : Fin 4) :
    (s.canEnter ch.val 0).canTec ch.val = 0 ∧ (s.canEnter ch.val 0).canRec ch.val = 0 := by
  rw [State.canEnter_config, State.canTec_canTo, State.canRec_canTo, State.configured, State.canTec_setRec, State.canTec_setTec _ _ (by decide),
    State.canRec_setRec_zero]
  exact ⟨rfl, rfl⟩

/-- CONFIG ends every request (R326). -/
theorem State.canEnter_config_ready (s : State) (ch : Fin 4) (h : (s.canCh ch.val).mode ≠ 0) (j : Fin 32) :
    (s.canEnter ch.val 0).txReady ch.val j.val = false := by
  have hstate : Reg.CAN_TXB_b_CTRL ch.val j.val ≠ Reg.CAN_STATE ch.val := txbCtrl_ne_canReg (state_mem_canRegs _) _
  have hirq : Reg.CAN_TXB_b_CTRL ch.val j.val ≠ Reg.CAN_IRQ ch.val := txbCtrl_ne_canReg (by simp [canRegs]) _
  have hm : ((s.canCh ch.val).mode != 0) = true := by simpa using h
  rw [State.canEnter_config, State.txReady, State.bit_eq, State.canTo_rd_apart _ _ (txbCtrl_not_pin ch j) hstate hirq, State.configured,
    State.setRec_rd _ _ hstate, State.setTec_rd _ _ hstate, hm, State.onlyIf_true]
  exact State.txFailAll_ready _ ch j

/-! ## A write of MODE (R316) -/

/-- A write of the mode in force withdraws a waiting one. -/
theorem State.canModeAsk_same {s : State} {ch m : Nat} (h : (s.canCh ch).mode = m) :
    s.canModeAsk ch m = s.putCan ch { s.canCh ch with pendMode := none } := by
  unfold State.canModeAsk
  simp only [h, if_true, ite_self]

theorem State.canModeAsk_now {s : State} {ch m : Nat} (h : (s.canCh ch).mode ≠ m) (hk : s.canState ch = 0 ∨ s.canState ch = 4) :
    s.canModeAsk ch m = s.canEnter ch m := by
  unfold State.canModeAsk
  rw [if_neg h, if_pos (by simpa using hk)]

theorem State.canModeAsk_waits {s : State} {ch m : Nat} (h : (s.canCh ch).mode ≠ m) (hk : s.canState ch ≠ 0 ∧ s.canState ch ≠ 4) :
    s.canModeAsk ch m = s.putCan ch { s.canCh ch with pendMode := some m } := by
  unfold State.canModeAsk
  rw [if_neg h, if_neg h, if_neg (by simpa using hk)]

theorem State.canModeAsk_can (s : State) (ch : Fin 4) (m : Nat) : ∃ c, (s.canModeAsk ch.val m).can = s.can.set ch.val c := by
  by_cases h : (s.canCh ch.val).mode = m
  · exact ⟨_, congrArg State.can (State.canModeAsk_same h)⟩
  by_cases hk : s.canState ch.val = 0 ∨ s.canState ch.val = 4
  · exact ⟨_, (congrArg State.can (State.canModeAsk_now h hk)).trans (s.canEnter_can ch m)⟩
  · exact ⟨_, congrArg State.can (State.canModeAsk_waits h (not_or.mp hk))⟩

theorem State.canModeAsk_rd (s : State) {ch : Fin 4} (m : Nat) {b : Nat} (hb : b ∈ canRegs ch.val)
    (h : b ∉ [Reg.CAN_STATE ch.val, Reg.CAN_STAT ch.val, Reg.CAN_IRQ ch.val]) : (s.canModeAsk ch.val m).rd b = s.rd b := by
  unfold State.canModeAsk
  split_ifs
  · rfl
  · exact s.canEnter_rd m hb h
  · rfl
  · rfl

/-! ## Plain writes (R4) -/

/-- The first field of a register is RW and covers bits `lo + m - 1 : lo`, and its other fields lie above these. -/
def leadsRw (a lo m : Nat) : Bool := match fieldsAt a with
  | [] => false
  | f :: l => f.acc == .rw && f.lo == lo && decide (m ≤ f.width) && decide (f.lo + f.width ≤ 32) && l.all (fun g => decide (lo + m ≤ g.lo))

/-- Fields above a bit leave it, whatever is put into them. -/
theorem bitOf_foldl_put {i : Nat} (hi : i < 32) (c : Fld → Prop) [DecidablePred c] (x : Fld → Word → Nat) (l : List Fld) (w : Word)
    (h : ∀ g ∈ l, i < g.lo) : bitOf (l.foldl (fun w f => if c f then f.put w (x f w) else w) w) i = bitOf w i := by
  induction l generalizing w with
  | nil => rfl
  | cons f l ih =>
    rw [List.foldl_cons, ih _ (fun g hg => h g (List.mem_cons_of_mem _ hg))]
    split_ifs
    · exact bitOf_putBits_apart _ _ _ _ _ hi (.inl (h f List.mem_cons_self))
    · rfl

/-- Such a field reads as what was written. -/
theorem State.plainWrite_leads (s : State) {a lo m : Nat} (v : Word) (h : leadsRw a lo m = true) : (s.plainWrite a v).fld a lo m = bitsOf v lo m := by
  unfold leadsRw at h
  split at h
  · exact absurd h Bool.false_ne_true
  · rename_i f l hf
    simp only [Bool.and_eq_true, beq_iff_eq, decide_eq_true_eq, List.all_eq_true] at h
    obtain ⟨⟨⟨⟨hacc, hlo⟩, hm⟩, hend⟩, hl⟩ := h
    refine Nat.eq_of_testBit_eq fun i => ?_
    rw [State.fld_eq, bitsOf_testBit, bitsOf_testBit]
    by_cases hi : i < m
    · have hbit : lo + i < 32 := by omega
      have habove : ∀ g ∈ l, lo + i < g.lo := fun g hg => by have := hl g hg; omega
      rw [State.plainWrite, State.rd_wr, if_pos rfl, clearFields, takeFields, hf, List.foldl_cons, List.foldl_cons, if_neg (by simp [hacc]),
        if_pos hacc, bitOf_foldl_put hbit _ _ _ _ habove, bitOf_foldl_put hbit _ (fun f _ => f.get v) _ _ habove, Fld.put,
        bitOf_putBits _ _ _ _ _ hbit, if_pos (by omega), Fld.get, bitsOf_testBit, hlo, Nat.add_sub_cancel_left, decide_eq_true (by omega : i < f.width),
        Bool.true_and]
    · simp [hi]

theorem canCtrl_facts (ch : Fin 4) : inNvWindow (Reg.CAN_CTRL ch.val) = false ∧ hasAcc .rws (Reg.CAN_CTRL ch.val) = false
    ∧ leadsRw (Reg.CAN_CTRL ch.val) 0 2 = true := by
  revert ch; decide

theorem timingReg_facts (ch : Fin 4) (k : Fin 3) : inNvWindow (timingReg ch.val k.val) = false ∧ hasAcc .rws (timingReg ch.val k.val) = false
    ∧ leadsRw (timingReg ch.val k.val) 0 6 = true ∧ blockOf (timingReg ch.val k.val) = some .can := by
  revert ch k; decide


/-! ## The commands that write CTRL (R313, R316, R333) -/

/-- A granted write of CTRL is answered OK and has the effect of `canCtrl` on the channel. -/
theorem canCtrl_granted {s : State} {src : Src} {ch : Fin 4} {v : Word} (hs : s.supplied) (hg : s.grants src (Reg.CAN_CTRL ch.val) v) :
    ∃ t, s.act (fun t => t.write1 src (Reg.CAN_CTRL ch.val) v) = .next t ∧ t.answer.status = .ok
      ∧ (∀ b ∈ canRegs ch.val, t.rd b = (s.clearSent.canCtrl ch.val v).rd b) ∧ t.can = (s.clearSent.canCtrl ch.val v).can
      ∧ s.keepsParts t (.can :: .zid :: hostParts) := by
  obtain ⟨hwin, hacc, -⟩ := canCtrl_facts ch
  obtain ⟨t, ht, hok, hr, hw, hk⟩ := State.write1_plain (k := 8520011) (w := s.clearSent.canCtrl ch.val v) hs hg hwin hacc
    (s.clearSent.wordWrite_canCtrl _ ch v) rfl rfl (State.canCtrl_keeps rfl (Keeps.refl _))
  exact ⟨t, ht, hok, fun b hb => hr b (not_host_of_can (canRegs_block hb)), hw.can_same rfl, hk.parts _ (fun p => by cases p <;> decide)⟩

/-- A write of CTRL without AUTORECOV, RECOVER and RESUME asks for the mode alone. -/
theorem State.canCtrl_mode (s : State) (ch : Nat) {v : Word} (hv : bitsOf v 4 3 = 0) :
    s.canCtrl ch v = (s.plainWrite (Reg.CAN_CTRL ch) v).canModeAsk ch (bitsOf v 0 2) := by
  have hbit : ∀ i < 3, bitOf v (4 + i) = false := fun i hi => by
    have h := bitsOf_testBit v 4 3 i
    rw [hv, Nat.zero_testBit, decide_eq_true hi, Bool.true_and] at h
    exact h.symm
  have h4 : bitOf v 4 = false := hbit 0 (by decide)
  have h5 : bitOf v 5 = false := hbit 1 (by decide)
  have h6 : bitOf v 6 = false := hbit 2 (by decide)
  rw [State.canCtrl, h4, h5, h6]
  rfl

/-- CAN_MODE_WRITE (R316). -/
theorem canModeWrite_asks (src : Src) (ch : Fin 4) (v : Word) (s : State) (hs : s.supplied) (hl : s.can.length = 4)
    (hg : s.grants src (Reg.CAN_CTRL ch.val) v) (hv : bitsOf v 4 3 = 0) (hm : bitsOf v 0 2 ≠ (s.canCh ch.val).mode) :
    ∃ t, exec (.canModeWrite src ch v) s = .next t ∧ t.answer.status = .ok ∧ t.fld (Reg.CAN_CTRL ch.val) 0 2 = bitsOf v 0 2
      ∧ ((s.canState ch.val = 0 ∨ s.canState ch.val = 4) → (t.canCh ch.val).mode = bitsOf v 0 2 ∧ (t.canCh ch.val).pendMode = none
          ∧ (s.canState ch.val = 0 → bitsOf v 0 2 ≠ 0 → t.canState ch.val = (if s.fld (Reg.CAN_LINE ch.val) 0 5 = 0 then 1 else 6))
          ∧ (s.canState ch.val = 4 → t.canState ch.val = (if bitsOf v 0 2 = 0 then 0 else 4)))
      ∧ ((s.canState ch.val ≠ 0 ∧ s.canState ch.val ≠ 4) → (t.canCh ch.val).mode = (s.canCh ch.val).mode
          ∧ (t.canCh ch.val).pendMode = some (bitsOf v 0 2) ∧ t.canState ch.val = s.canState ch.val)
      ∧ (∀ c, c ≠ ch.val → t.canCh c = s.canCh c) ∧ s.keepsParts t (.can :: .zid :: hostParts) := by
  obtain ⟨t, ht, hok, hrd, hcan, hparts⟩ := canCtrl_granted hs hg
  rw [State.canCtrl_mode _ _ hv] at hrd hcan
  let p := s.clearSent.plainWrite (Reg.CAN_CTRL ch.val) v
  have hne : (p.canCh ch.val).mode ≠ bitsOf v 0 2 := hm.symm
  have hstate : p.canState ch.val = s.canState ch.val :=
    State.canState_congr (State.plainWrite_rd v (by simp [Reg.CAN_STATE, Reg.CAN_CTRL]))
  have hline : p.fld (Reg.CAN_LINE ch.val) 0 5 = s.fld (Reg.CAN_LINE ch.val) 0 5 := by
    rw [State.fld_eq, State.plainWrite_rd v (by simp [Reg.CAN_LINE, Reg.CAN_CTRL])]
    rfl
  have hlen : ch.val < p.can.length := Nat.lt_of_lt_of_eq ch.isLt hl.symm
  have htstate : t.canState ch.val = (p.canModeAsk ch.val (bitsOf v 0 2)).canState ch.val := State.canState_congr (hrd _ (state_mem_canRegs _))
  refine ⟨t, ht, hok, ?_, fun hk => ?_, fun hk => ?_, fun c hc => ?_, hparts⟩
  · rw [State.fld_eq, hrd _ (by simp [canRegs]), State.canModeAsk_rd _ _ (by simp [canRegs]) (by simp [Reg.CAN_CTRL, Reg.CAN_STATE, Reg.CAN_STAT, Reg.CAN_IRQ])]
    exact State.plainWrite_leads _ v (canCtrl_facts ch).2.2
  · rw [State.canModeAsk_now hne (hstate ▸ hk)] at hcan htstate
    have hch := State.canCh_of_set (hcan.trans (p.canEnter_can ch _)) hlen
    rw [State.canState_canEnter, State.stateEntered, hstate, hline] at htstate
    obtain ⟨hmode, hpend⟩ := (p.canCh ch.val).entered_mode (bitsOf v 0 2)
    refine ⟨hch ▸ hmode, hch ▸ hpend, fun h0 hv0 => ?_, fun h4 => ?_⟩
    · rw [htstate, if_neg hv0, if_pos h0]
    · rw [htstate, h4]
      simp
  · rw [State.canModeAsk_waits hne (hstate ▸ hk)] at hcan htstate
    have hch := State.canCh_of_set hcan hlen
    exact ⟨hch ▸ rfl, hch ▸ rfl, htstate.trans hstate⟩
  · obtain ⟨c', hc'⟩ := p.canModeAsk_can ch (bitsOf v 0 2)
    exact State.canCh_of_set_ne (s := p) (hcan.trans hc') hc

/-- CAN_MODE_CHANGE (R316). -/
theorem canModeChange_takes (ch : Fin 4) (s : State) (hs : s.supplied) (hl : s.can.length = 4) (hm : (s.canCh ch.val).mode ≠ 0) :
    ∃ t, exec (.canModeChange ch) s = .next t
      ∧ ((s.canCh ch.val).pendMode = none → t.regs = s.regs ∧ t.can = s.can)
      ∧ ((s.canCh ch.val).pendMode = some 0 → t.canState ch.val = 0 ∧ t.canTec ch.val = 0 ∧ t.canRec ch.val = 0
          ∧ (t.canCh ch.val).mode = 0 ∧ (t.canCh ch.val).tx = none ∧ (∀ b : Fin 32, t.txReady ch.val b.val = false))
      ∧ ((s.canCh ch.val).pendMode = some 2 → s.canTakesPart ch.val = true → t.canState ch.val = 5 ∧ (t.canCh ch.val).mode = 2)
      ∧ (∀ c, c ≠ ch.val → t.canCh c = s.canCh c) ∧ s.keepsParts t [.sent, .zid, .can] := by
  have ht : exec (.canModeChange ch) s = .next (s.clearSent.canModeChange ch.val) :=
    show execCanModeChange ch s = _ from State.act_supplied hs
  have hk : Keeps 131330 s (s.clearSent.canModeChange ch.val) := execCanModeChange_keeps rfl ht
  have hlen : ch.val < s.clearSent.can.length := Nat.lt_of_lt_of_eq ch.isLt hl.symm
  have hnone : (s.canCh ch.val).pendMode = none → s.clearSent.canModeChange ch.val = s.clearSent := fun hp => by
    rw [State.canModeChange, show (s.clearSent.canCh ch.val).pendMode = none from hp]
  have hsome : ∀ m, (s.canCh ch.val).pendMode = some m → s.clearSent.canModeChange ch.val = s.clearSent.canEnter ch.val m := fun m hp => by
    rw [State.canModeChange, show (s.clearSent.canCh ch.val).pendMode = some m from hp]
  refine ⟨_, ht, fun hp => ?_, fun hp => ?_, fun hp hpart => ?_, fun c hc => ?_, hk.parts _ (fun p => by cases p <;> decide)⟩
  · rw [hnone hp]
    exact ⟨rfl, rfl⟩
  · have hch := State.canCh_of_set (s.clearSent.canEnter_can ch 0) hlen
    obtain ⟨htec, hrec⟩ := s.clearSent.canEnter_config_counters ch
    rw [hsome 0 hp, State.canState_canEnter, hch]
    exact ⟨rfl, htec, hrec, rfl, rfl, fun b => s.clearSent.canEnter_config_ready ch hm b⟩
  · have hch := State.canCh_of_set (s.clearSent.canEnter_can ch 2) hlen
    rw [hsome 2 hp, State.canState_canEnter, hch]
    have hpart' : s.clearSent.canTakesPart ch.val = true := hpart
    simp only [State.canTakesPart, Bool.or_eq_true, beq_iff_eq] at hpart'
    refine ⟨?_, rfl⟩
    rw [State.stateEntered, if_neg (by decide), if_neg (by omega), if_neg (by omega)]
    rfl
  · cases hp : (s.canCh ch.val).pendMode with
    | none => rw [hnone hp]; rfl
    | some m => rw [hsome m hp]; exact State.canCh_of_set_ne (s.clearSent.canEnter_can ch m) hc

/-- BIT_TIMING_WRITE (R314). -/
theorem bitTimingWrite_takes (src : Src) (ch : Fin 4) (k : Fin 3) (v : Word) (s : State) (hs : s.supplied) (hg : s.grants src (timingReg ch.val k.val) v) :
    ∃ t, exec (.bitTimingWrite src ch k v) s = .next t ∧ t.answer.status = .ok ∧ t.fld (timingReg ch.val k.val) 0 6 = bitsOf v 0 6
      ∧ s.keepsRegs t (timingReg ch.val k.val :: hostRegs) ∧ s.keepsParts t hostParts := by
  obtain ⟨hwin, hacc, hlead, hblock⟩ := timingReg_facts ch k
  obtain ⟨t, ht, hok, hr, -, hk⟩ := State.write1_plain (k := 8388683) (w := s.clearSent.plainWrite (timingReg ch.val k.val) v) hs hg hwin hacc
    (s.clearSent.wordWrite_timing _ ch k v) rfl rfl (State.plainWrite_keeps rfl (Keeps.refl _))
  refine ⟨t, ht, hok, ?_, State.keepsRegs_request (l := [timingReg ch.val k.val]) hr fun b hb => ?_, hk.parts _ (fun p => by cases p <;> decide)⟩
  · rw [State.fld_eq, hr _ (not_host_of_can hblock)]
    exact s.clearSent.plainWrite_leads v hlead
  · exact State.plainWrite_rd v (fun e => hb (List.mem_singleton.mpr e))


/-! ## RECOVER and RESUME (R313, R333) -/

/-- A write of CTRL that leaves MODE as it is: its RW fields are taken, and a waiting mode is withdrawn. -/
def State.ctrlTaken (s : State) (ch : Nat) (v : Word) : State :=
  (s.plainWrite (Reg.CAN_CTRL ch) v).putCan ch { s.canCh ch with pendMode := none }

theorem State.canCtrl_same_mode {s : State} {ch : Nat} {v : Word} (h : (s.canCh ch).mode = bitsOf v 0 2) :
    s.canCtrl ch v =
      ((s.ctrlTaken ch v).onlyIf (bitOf v 5 || bitOf v 4) (fun t => t.canRecover ch)).onlyIf (bitOf v 6) (fun t => t.canResume ch) := by
  rw [State.canCtrl, State.canModeAsk_same (s := s.plainWrite (Reg.CAN_CTRL ch) v) h]
  rfl

theorem State.ctrlTaken_rd (s : State) {ch b : Nat} (v : Word) (h : b ≠ Reg.CAN_CTRL ch) : (s.ctrlTaken ch v).rd b = s.rd b :=
  State.plainWrite_rd v h

theorem State.canState_ctrlTaken (s : State) (ch : Nat) (v : Word) : (s.ctrlTaken ch v).canState ch = s.canState ch :=
  State.canState_congr (s.ctrlTaken_rd v (by simp [Reg.CAN_STATE, Reg.CAN_CTRL]))

theorem State.ctrlTaken_can (s : State) (ch : Nat) (v : Word) : (s.ctrlTaken ch v).can = s.can.set ch { s.canCh ch with pendMode := none } := rfl

/-- The word of a row that sets one bit: it keeps MODE, AUTORECOV, LFHOLD, PXHD and TDCEN. -/
theorem bitOf_ctrlRow (w k : Word) (i : Nat) : bitOf ((w &&& 0x393#32) ||| k) i = (bitOf w i && bitOf 0x393#32 i || bitOf k i) := by
  simp only [bitOf, BitVec.getLsbD_or, BitVec.getLsbD_and]

theorem ctrlRow_mode (w k : Word) (h0 : bitOf k 0 = false) (h1 : bitOf k 1 = false) : bitsOf ((w &&& 0x393#32) ||| k) 0 2 = bitsOf w 0 2 := by
  refine Nat.eq_of_testBit_eq fun i => ?_
  rw [bitsOf_testBit, bitsOf_testBit, bitOf_ctrlRow, Nat.zero_add]
  match i with
  | 0 => rw [h0, show bitOf 0x393#32 0 = true by decide, Bool.and_true, Bool.or_false]
  | 1 => rw [h1, show bitOf 0x393#32 1 = true by decide, Bool.and_true, Bool.or_false]
  | _ + 2 => simp

theorem State.canRecover_can (s : State) (ch : Nat) :
    (s.canRecover ch).can = s.can.set ch (if s.canState ch = 4 then { s.canCh ch with recovering := true } else s.canCh ch) := by
  unfold State.canRecover
  split_ifs
  · rfl
  · exact State.putCan_self.symm

theorem State.canRecover_rd (s : State) (ch b : Nat) : (s.canRecover ch).rd b = s.rd b := by
  unfold State.canRecover
  split_ifs <;> rfl

theorem State.canRecover_awaitResume (s : State) {ch : Nat} (h : ch < s.can.length) :
    ((s.canRecover ch).canCh ch).awaitResume = (s.canCh ch).awaitResume := by
  rw [State.canCh_of_set (s.canRecover_can ch) h]
  split_ifs <;> rfl

/-- RESUME finds a channel that waits for it and whose line is well. -/
def State.resumes (s : State) (ch : Nat) : Bool := s.canState ch = 6 && (s.canCh ch).awaitResume && s.fld (Reg.CAN_LINE ch) 0 5 = 0

theorem State.canResume_eq (s : State) (ch : Nat) :
    s.canResume ch = if s.resumes ch then (s.putCan ch { s.canCh ch with awaitResume := false }).canTo ch 1 else s := rfl

theorem State.canResume_can (s : State) (ch : Nat) :
    (s.canResume ch).can = s.can.set ch (if s.resumes ch then { s.canCh ch with awaitResume := false } else s.canCh ch) := by
  rw [State.canResume_eq]
  split_ifs
  · exact State.canTo_can _ _ _
  · exact State.putCan_self.symm

theorem State.canState_canResume (s : State) (ch : Fin 4) :
    (s.canResume ch.val).canState ch.val = if s.resumes ch.val then 1 else s.canState ch.val := by
  rw [State.canResume_eq]
  split_ifs
  · exact State.canState_canTo _ ch (by decide)
  · rfl

/-- RECOVER (R313). -/
theorem recover_begins (src : Src) (ch : Fin 4) (s : State) (hs : s.supplied) (hl : s.can.length = 4)
    (hg : s.grants src (Reg.CAN_CTRL ch.val) ((s.rd (Reg.CAN_CTRL ch.val) &&& 0x393#32) ||| 0x20#32))
    (hm : s.fld (Reg.CAN_CTRL ch.val) 0 2 = (s.canCh ch.val).mode) :
    ∃ t, exec (.recover src ch) s = .next t ∧ t.answer.status = .ok ∧ t.canState ch.val = s.canState ch.val
      ∧ (s.canState ch.val = 4 → (t.canCh ch.val).recovering = true) ∧ (∀ c, c ≠ ch.val → t.canCh c = s.canCh c) := by
  obtain ⟨t, ht, hok, hrd, hcan, -⟩ := canCtrl_granted hs hg
  have hact : exec (.recover src ch) s = .next t := (show execRecover src ch s = _ from State.act_supplied hs).trans ((State.act_supplied hs).symm.trans ht)
  let q := s.clearSent.ctrlTaken ch.val ((s.rd (Reg.CAN_CTRL ch.val) &&& 0x393#32) ||| 0x20#32)
  have hq : s.clearSent.canCtrl ch.val ((s.rd (Reg.CAN_CTRL ch.val) &&& 0x393#32) ||| 0x20#32) = q.canRecover ch.val := by
    rw [State.canCtrl_same_mode (s := s.clearSent) (hm.symm.trans (ctrlRow_mode _ 0x20#32 (by decide) (by decide)).symm), bitOf_ctrlRow _ _ 5, bitOf_ctrlRow _ _ 6,
      show bitOf 0x20#32 5 = true by decide, show bitOf 0x20#32 6 = false by decide, show bitOf 0x393#32 6 = false by decide, Bool.or_true,
      Bool.true_or, Bool.and_false, Bool.or_false]
    rfl
  have hstate : q.canState ch.val = s.canState ch.val := s.clearSent.canState_ctrlTaken _ _
  rw [hq] at hrd hcan
  rw [State.canRecover_can, hstate] at hcan
  have hlen : ch.val < q.can.length := Nat.lt_of_lt_of_eq ch.isLt (hl.symm.trans List.length_set.symm)
  refine ⟨t, hact, hok, (State.canState_congr ((hrd _ (state_mem_canRegs _)).trans (q.canRecover_rd _ _))).trans hstate, fun h4 => ?_, fun c hc => ?_⟩
  · rw [if_pos h4] at hcan
    rw [State.canCh_of_set hcan hlen]
  · exact (State.canCh_of_set_ne hcan hc).trans (State.canCh_of_set_ne (s.clearSent.ctrlTaken_can ch.val _) hc)

/-- RESUME (R333). -/
theorem resume_leaves (src : Src) (ch : Fin 4) (s : State) (hs : s.supplied) (hl : s.can.length = 4)
    (hg : s.grants src (Reg.CAN_CTRL ch.val) ((s.rd (Reg.CAN_CTRL ch.val) &&& 0x393#32) ||| 0x40#32))
    (hm : s.fld (Reg.CAN_CTRL ch.val) 0 2 = (s.canCh ch.val).mode) :
    ∃ t, exec (.resume src ch) s = .next t ∧ t.answer.status = .ok
      ∧ t.canState ch.val = (if s.canState ch.val = 6 ∧ (s.canCh ch.val).awaitResume = true ∧ s.fld (Reg.CAN_LINE ch.val) 0 5 = 0 then 1
          else s.canState ch.val) ∧ (∀ c, c ≠ ch.val → t.canCh c = s.canCh c) := by
  obtain ⟨t, ht, hok, hrd, hcan, -⟩ := canCtrl_granted hs hg
  have hact : exec (.resume src ch) s = .next t := (show execResume src ch s = _ from State.act_supplied hs).trans ((State.act_supplied hs).symm.trans ht)
  let v : Word := (s.rd (Reg.CAN_CTRL ch.val) &&& 0x393#32) ||| 0x40#32
  let q := s.clearSent.ctrlTaken ch.val v
  let u := q.onlyIf (bitOf v 4) (fun t => t.canRecover ch.val)
  have hu : s.clearSent.canCtrl ch.val v = u.canResume ch.val := by
    have h5 : bitOf v 5 = false := by rw [bitOf_ctrlRow, show bitOf 0x40#32 5 = false by decide, show bitOf 0x393#32 5 = false by decide]; simp
    have h6 : bitOf v 6 = true := by rw [bitOf_ctrlRow, show bitOf 0x40#32 6 = true by decide, Bool.or_true]
    rw [State.canCtrl_same_mode (s := s.clearSent) (hm.symm.trans (ctrlRow_mode _ 0x40#32 (by decide) (by decide)).symm), h5, h6]
    rfl
  have hlen : ch.val < q.can.length := Nat.lt_of_lt_of_eq ch.isLt (hl.symm.trans List.length_set.symm)
  have hurd : ∀ b, b ≠ Reg.CAN_CTRL ch.val → u.rd b = s.rd b := fun b hb => by
    rw [State.rd_onlyIf, State.canRecover_rd, ite_self]
    exact s.clearSent.ctrlTaken_rd v hb
  have hawait : (u.canCh ch.val).awaitResume = (s.canCh ch.val).awaitResume := by
    have hq : (q.canCh ch.val).awaitResume = (s.canCh ch.val).awaitResume := by
      rw [State.canCh_of_set (s.clearSent.ctrlTaken_can ch.val v) (Nat.lt_of_lt_of_eq ch.isLt hl.symm)]
      rfl
    cases hb : bitOf v 4
    · simpa [u, hb] using hq
    · simpa [u, hb] using (q.canRecover_awaitResume hlen).trans hq
  have hothers : ∀ c, c ≠ ch.val → u.canCh c = s.canCh c := fun c hc => by
    have hq : q.canCh c = s.canCh c := State.canCh_of_set_ne (s.clearSent.ctrlTaken_can ch.val v) hc
    cases hb : bitOf v 4
    · simpa [u, hb] using hq
    · simpa [u, hb] using (State.canCh_of_set_ne (q.canRecover_can ch.val) hc).trans hq
  have hstate : u.canState ch.val = s.canState ch.val := State.canState_congr (hurd _ (by simp [Reg.CAN_STATE, Reg.CAN_CTRL]))
  refine ⟨t, hact, hok, ?_, fun c hc => ?_⟩
  · rw [State.canState_congr ((hrd _ (state_mem_canRegs _)).trans (congrArg (State.rd · _) hu)), State.canState_canResume, State.resumes, hstate, hawait,
      State.fld_eq, hurd _ (by simp [Reg.CAN_LINE, Reg.CAN_CTRL])]
    exact if_congr (by simp [and_assoc]) rfl rfl
  · exact (State.canCh_of_set_ne (s := u) ((hcan.trans (congrArg State.can hu)).trans (u.canResume_can ch.val)) hc).trans (hothers c hc)


/-! ## The end of a bus-off recovery (R313) -/

/-- The counters are cleared, and the recovery is over. -/
def State.recovered (s : State) (ch : Nat) : State :=
  ((s.setTec ch 0).setRec ch 0).putCan ch { s.canCh ch with recovering := false, former := 2 }

theorem State.canRecovered_runs {s : State} {ch : Nat} (h : s.canState ch = 4 ∧ (s.canCh ch).recovering = true) :
    s.canRecovered ch = (s.recovered ch).canTo ch (partState (s.canCh ch).mode 2) := if_pos (by simpa using h)

theorem State.canRecovered_idle {s : State} {ch : Nat} (h : ¬ (s.canState ch = 4 ∧ (s.canCh ch).recovering = true)) :
    s.canRecovered ch = s := if_neg (by simpa using h)

theorem State.recovered_can (s : State) (ch : Nat) : (s.recovered ch).can = s.can.set ch { s.canCh ch with recovering := false, former := 2 } := rfl

/-- The channel after its recovery. -/
theorem State.canRecovered_shows {s : State} {ch : Fin 4} (hl : s.can.length = 4) (h : s.canState ch.val = 4 ∧ (s.canCh ch.val).recovering = true) :
    (s.canRecovered ch.val).canTec ch.val = 0 ∧ (s.canRecovered ch.val).canRec ch.val = 0
      ∧ (s.canRecovered ch.val).canState ch.val = partState (s.canCh ch.val).mode 2 ∧ ((s.canRecovered ch.val).canCh ch.val).recovering = false := by
  have htec : (s.recovered ch.val).canTec ch.val = 0 := by
    rw [State.recovered, State.canTec_putCan, State.canTec_setRec, State.canTec_setTec _ _ (by decide)]
  have hrec : (s.recovered ch.val).canRec ch.val = 0 := by
    rw [State.recovered, State.canRec_putCan, State.canRec_setRec_zero]
  rw [State.canRecovered_runs h, State.canTec_canTo, State.canRec_canTo, State.canState_canTo _ _ (partState_lt _ (by decide)),
    State.canCh_of_set ((State.canTo_can _ _ _).trans (s.recovered_can ch.val)) (Nat.lt_of_lt_of_eq ch.isLt hl.symm)]
  exact ⟨htec, hrec, rfl, rfl⟩

/-- BUSOFF_RECOVERY_END (R313). -/
theorem busoffRecoveryEnd_ends (ch : Fin 4) (s : State) (hs : s.supplied) (hl : s.can.length = 4) : ∃ t, exec (.busoffRecoveryEnd ch) s = .next t
    ∧ ((s.canState ch.val = 4 ∧ (s.canCh ch.val).recovering = true) → t.canTec ch.val = 0 ∧ t.canRec ch.val = 0
        ∧ t.canState ch.val = (if (s.canCh ch.val).mode = 2 then 5 else if (s.canCh ch.val).mode = 3 then 7 else 2)
        ∧ (t.canCh ch.val).recovering = false)
    ∧ (¬ (s.canState ch.val = 4 ∧ (s.canCh ch.val).recovering = true) → t.regs = s.regs ∧ t.can = s.can)
    ∧ s.keepsParts t [.sent, .zid, .can] := by
  have ht : exec (.busoffRecoveryEnd ch) s = .next (s.clearSent.canRecovered ch.val) :=
    show execBusoffRecoveryEnd ch s = _ from State.act_supplied hs
  have hk : Keeps 131330 s (s.clearSent.canRecovered ch.val) := execBusoffRecoveryEnd_keeps rfl ht
  refine ⟨_, ht, fun h => State.canRecovered_shows (s := s.clearSent) hl h, fun h => ?_, hk.parts _ (fun p => by cases p <;> decide)⟩
  rw [State.canRecovered_idle (s := s.clearSent) h]
  exact ⟨rfl, rfl⟩

/-! ## Line faults (R332, R333) -/

/-- A change of a line fault: its bit follows, and IRQ.LINE is raised. -/
def State.lineNoted (s : State) (ch k : Nat) (now : Bool) : State := (s.setBit (Reg.CAN_LINE ch) k now).irqCan ch 4

/-- An onset is flagged, counted and recorded. -/
def State.lineOnset (s : State) (ch k : Nat) : State :=
  ((((s.lineNoted ch k true).setBit (Reg.CAN_STAT ch) (if k = 5 then 3 else 2) true).count (Reg.CAN_CNT_LINEFAULT ch)).raiseEv ((0x0D + ch) * 256 + 1) 2
    (leBytes 1 k))

/-- A check without an injection, of a fault other than SWAP. -/
theorem State.canLine_eq {s : State} {ch k : Nat} (hi : s.bit (Reg.CAN_INJ ch) 1 = false) (hk : k ≠ 4) (present : Bool) :
    s.canLine ch k present =
      if present = s.bit (Reg.CAN_LINE ch) k then s
      else if present then (s.lineOnset ch k).onlyIf (k != 5) (fun t => t.canLineDown ch)
      else s.lineNoted ch k false := by
  have h4 : (k == 4) = false := beq_eq_false_iff_ne.mpr hk
  unfold State.canLine
  rw [hi, h4]
  simp only [Bool.false_and, Bool.not_false, Bool.and_true, Bool.bne_false, State.onlyIf_false]
  unfold State.lineOnset State.lineNoted
  cases present
  · simp only [Bool.false_eq_true, if_false]
  · simp only [if_true]

theorem State.lineNoted_rd (s : State) (ch : Fin 4) (k : Nat) (now : Bool) {b : Nat} (hb : b ∉ pinRegs) :
    (s.lineNoted ch.val k now).rd b = if b = Reg.CAN_IRQ ch.val then putBit (s.rd b) 4 true
      else if b = Reg.CAN_LINE ch.val then putBit (s.rd b) k now else s.rd b := by
  have hne : Reg.CAN_IRQ ch.val ≠ Reg.CAN_LINE ch.val := by simp [Reg.CAN_IRQ, Reg.CAN_LINE]
  rw [State.lineNoted, State.irqCan, State.irqAt_rd _ _ _ _ _ _ hb, State.rd_setBit, State.rd_setBit, if_neg hne]
  split_ifs with h1 h2
  · rw [h1]
  · rw [h2]
  · rfl

theorem State.lineOnset_rd (s : State) (ch : Fin 4) (k : Nat) {b : Nat} (hb : b ∉ spoorRegs) :
    (s.lineOnset ch.val k).rd b =
      if b = Reg.CAN_CNT_LINEFAULT ch.val then satWordN ((s.rd b).toNat + 1)
      else if b = Reg.CAN_STAT ch.val then putBit (s.rd b) (if k = 5 then 3 else 2) true
      else if b = Reg.CAN_IRQ ch.val then putBit (s.rd b) 4 true
      else if b = Reg.CAN_LINE ch.val then putBit (s.rd b) k true else s.rd b := by
  have hp : b ∉ pinRegs := fun h => hb (List.mem_append_left _ h)
  rw [State.lineOnset, State.raiseEv_rd _ _ _ _ _ hb, State.rd_count]
  by_cases h1 : b = Reg.CAN_CNT_LINEFAULT ch.val
  · subst h1
    rw [if_pos rfl, if_pos rfl, State.rd_setBit, if_neg (by simp [Reg.CAN_CNT_LINEFAULT, Reg.CAN_STAT]), s.lineNoted_rd _ _ _ hp,
      if_neg (by simp [Reg.CAN_CNT_LINEFAULT, Reg.CAN_IRQ]), if_neg (by simp [Reg.CAN_CNT_LINEFAULT, Reg.CAN_LINE])]
  rw [if_neg h1, if_neg h1, State.rd_setBit]
  by_cases h2 : b = Reg.CAN_STAT ch.val
  · subst h2
    rw [if_pos rfl, if_pos rfl, s.lineNoted_rd _ _ _ hp, if_neg (by simp [Reg.CAN_STAT, Reg.CAN_IRQ]), if_neg (by simp [Reg.CAN_STAT, Reg.CAN_LINE])]
  · rw [if_neg h2, if_neg h2, s.lineNoted_rd _ _ _ hp]

theorem State.lineNoted_can (s : State) (ch k : Nat) (now : Bool) : (s.lineNoted ch k now).can = s.can :=
  (State.irqCan_keeps (k := 256) rfl (State.setBit_keeps rfl (Keeps.refl s))).can_same rfl

theorem State.lineOnset_can (s : State) (ch k : Nat) : (s.lineOnset ch k).can = s.can :=
  (State.raiseEv_keeps (k := 384) rfl (State.count_keeps rfl (State.setBit_keeps rfl (State.irqCan_keeps rfl (State.setBit_keeps rfl
    (Keeps.refl s)))))).can_same rfl

/-- A LINEFAULT fault takes a channel outside CONFIG into LINEFAULT (R333). -/
theorem State.canState_canLineDown (s : State) (ch : Fin 4) :
    (s.canLineDown ch.val).canState ch.val = if s.canState ch.val = 0 then 0 else 6 := by
  unfold State.canLineDown
  dsimp only
  by_cases h0 : s.canState ch.val = 0
  · rw [if_pos (by simp [h0]), if_pos h0, h0]
  by_cases h6 : s.canState ch.val = 6
  · rw [if_pos (by simp [h6]), if_neg h0, h6]
  · rw [if_neg (by simp [h0, h6]), if_neg h0, State.canState_canTo _ ch (by decide)]

theorem State.canLineDown_can (s : State) (ch : Nat) : ∃ c, (s.canLineDown ch).can = s.can.set ch c := by
  unfold State.canLineDown
  dsimp only
  split_ifs
  · exact ⟨_, State.putCan_self.symm⟩
  all_goals exact ⟨_, State.canTo_can _ _ _⟩

theorem State.canLineDown_rd (s : State) {ch : Fin 4} {b : Nat} (hb : b ∉ pinRegs) (h1 : b ≠ Reg.CAN_STATE ch.val) (h2 : b ≠ Reg.CAN_IRQ ch.val) :
    (s.canLineDown ch.val).rd b = s.rd b := by
  unfold State.canLineDown
  dsimp only
  split_ifs
  · rfl
  all_goals exact State.canTo_rd_apart _ _ hb h1 h2

theorem State.canLine_others (s : State) (ch : Fin 4) {k : Nat} (hi : s.bit (Reg.CAN_INJ ch.val) 1 = false) (hk : k ≠ 4) (present : Bool) {c : Nat}
    (hc : c ≠ ch.val) : (s.canLine ch.val k present).canCh c = s.canCh c := by
  rw [State.canLine_eq hi hk]
  split_ifs
  · rfl
  · cases k != 5
    · exact State.canCh_congr (s.lineOnset_can _ _) c
    · obtain ⟨x, hx⟩ := (s.lineOnset ch.val k).canLineDown_can ch.val
      exact (State.canCh_of_set_ne hx hc).trans (State.canCh_congr (s.lineOnset_can _ _) c)
  · exact State.canCh_congr (s.lineNoted_can _ _ _) c

/-- The line register after a check. -/
theorem State.canLine_line {s : State} {ch : Fin 4} {k : Nat} (hi : s.bit (Reg.CAN_INJ ch.val) 1 = false) (hk : k ≠ 4) (present : Bool) :
    (s.canLine ch.val k present).rd (Reg.CAN_LINE ch.val) =
      if present = s.bit (Reg.CAN_LINE ch.val) k then s.rd (Reg.CAN_LINE ch.val) else putBit (s.rd (Reg.CAN_LINE ch.val)) k present := by
  have hspoor : Reg.CAN_LINE ch.val ∉ spoorRegs := not_spoor_of_can (canRegs_block (ch := ch) (by simp [canRegs]))
  have hpin := not_pin_of_spoor hspoor
  have hirq : Reg.CAN_LINE ch.val ≠ Reg.CAN_IRQ ch.val := by simp [Reg.CAN_LINE, Reg.CAN_IRQ]
  have hstate : Reg.CAN_LINE ch.val ≠ Reg.CAN_STATE ch.val := by simp [Reg.CAN_LINE, Reg.CAN_STATE]
  have honset : (s.lineOnset ch.val k).rd (Reg.CAN_LINE ch.val) = putBit (s.rd (Reg.CAN_LINE ch.val)) k true := by
    rw [s.lineOnset_rd _ _ hspoor, if_neg (by simp [Reg.CAN_LINE, Reg.CAN_CNT_LINEFAULT]), if_neg (by simp [Reg.CAN_LINE, Reg.CAN_STAT]), if_neg hirq,
      if_pos rfl]
  rw [State.canLine_eq hi hk]
  split_ifs with h1 h2
  · rfl
  · rw [State.rd_onlyIf, State.canLineDown_rd _ hpin hstate hirq, ite_self, honset, h2]
  · rw [s.lineNoted_rd _ _ _ hpin, if_neg hirq, if_pos rfl, Bool.eq_false_iff.mpr h2]

/-- A check changes no other register outside the spoor's. -/
theorem State.canLine_rd {s : State} {ch : Fin 4} {k : Nat} (hi : s.bit (Reg.CAN_INJ ch.val) 1 = false) (hk : k ≠ 4) (present : Bool) {b : Nat}
    (hb : b ∉ spoorRegs)
    (h : b ∉ [Reg.CAN_LINE ch.val, Reg.CAN_STAT ch.val, Reg.CAN_IRQ ch.val, Reg.CAN_STATE ch.val, Reg.CAN_CNT_LINEFAULT ch.val]) :
    (s.canLine ch.val k present).rd b = s.rd b := by
  simp only [List.mem_cons, List.not_mem_nil, or_false, not_or] at h
  obtain ⟨h1, h2, h3, h4, h5⟩ := h
  have hpin := not_pin_of_spoor hb
  rw [State.canLine_eq hi hk]
  split_ifs
  · rfl
  · rw [State.rd_onlyIf, State.canLineDown_rd _ hpin h4 h3, ite_self, s.lineOnset_rd _ _ hb, if_neg h5, if_neg h2, if_neg h3, if_neg h1]
  · rw [s.lineNoted_rd _ _ _ hpin, if_neg h3, if_neg h1]

/-- The onset of a LINEFAULT fault (R332, R333). -/
theorem State.canLine_onset {s : State} {ch : Fin 4} {k : Nat} (hi : s.bit (Reg.CAN_INJ ch.val) 1 = false) (hk : k < 4)
    (h : s.bit (Reg.CAN_LINE ch.val) k = false) :
    (s.canLine ch.val k true).bit (Reg.CAN_STAT ch.val) 2 = true
      ∧ (s.canLine ch.val k true).canState ch.val = (if s.canState ch.val = 0 then 0 else 6)
      ∧ ((s.canLine ch.val k true).rd (Reg.CAN_CNT_LINEFAULT ch.val)).toNat = min 0xFFFFFFFF ((s.rd (Reg.CAN_CNT_LINEFAULT ch.val)).toNat + 1) := by
  have h5 : k ≠ 5 := by omega
  have hdown : s.canLine ch.val k true = (s.lineOnset ch.val k).canLineDown ch.val := by
    rw [State.canLine_eq hi (by omega), h, if_neg (by decide), if_pos rfl, show (k != 5) = true by simpa using h5, State.onlyIf_true]
  have hspoor : ∀ b ∈ canRegs ch.val, b ∉ spoorRegs := fun b hb => not_spoor_of_can (canRegs_block hb)
  have hstat : (s.lineOnset ch.val k).rd (Reg.CAN_STAT ch.val) = putBit (s.rd (Reg.CAN_STAT ch.val)) 2 true := by
    rw [s.lineOnset_rd _ _ (hspoor _ (by simp [canRegs])), if_neg (by simp [Reg.CAN_STAT, Reg.CAN_CNT_LINEFAULT]), if_pos rfl, if_neg h5]
  have hstate : (s.lineOnset ch.val k).canState ch.val = s.canState ch.val := by
    refine State.canState_congr ?_
    rw [s.lineOnset_rd _ _ (hspoor _ (state_mem_canRegs _)), if_neg (by simp [Reg.CAN_STATE, Reg.CAN_CNT_LINEFAULT]),
      if_neg (by simp [Reg.CAN_STATE, Reg.CAN_STAT]), if_neg (state_ne_irq _), if_neg (by simp [Reg.CAN_STATE, Reg.CAN_LINE])]
  have hcnt : (s.lineOnset ch.val k).rd (Reg.CAN_CNT_LINEFAULT ch.val) = satWordN ((s.rd (Reg.CAN_CNT_LINEFAULT ch.val)).toNat + 1) := by
    rw [s.lineOnset_rd _ _ (hspoor _ (by simp [canRegs])), if_pos rfl]
  rw [hdown]
  refine ⟨?_, ?_, ?_⟩
  · rw [State.bit_eq, State.canLineDown_rd _ (canRegs_not_pin (ch := ch) (by simp [canRegs])) (by simp [Reg.CAN_STAT, Reg.CAN_STATE])
      (by simp [Reg.CAN_STAT, Reg.CAN_IRQ]), hstat]
    exact bitOf_putBit_same _ _ _ (by decide)
  · rw [State.canState_canLineDown, hstate]
  · rw [State.canLineDown_rd _ (canRegs_not_pin (ch := ch) (by simp [canRegs])) (by simp [Reg.CAN_CNT_LINEFAULT, Reg.CAN_STATE])
      (by simp [Reg.CAN_CNT_LINEFAULT, Reg.CAN_IRQ]), hcnt]
    exact satWordN_toNat _

/-- LINE_FAULT (R332, R333). -/
theorem lineFault_judges (ch : Fin 4) (kind : Fin 5) (present : Bool) (s : State) (hs : s.supplied) (hi : s.bit (Reg.CAN_INJ ch.val) 1 = false)
    (hk : kind.val ≠ 4) :
    ∃ t, exec (.lineFault ch kind present) s = .next t ∧ t.bit (Reg.CAN_LINE ch.val) kind.val = present
      ∧ (s.bit (Reg.CAN_LINE ch.val) kind.val = present → t.regs = s.regs ∧ t.can = s.can)
      ∧ (s.bit (Reg.CAN_LINE ch.val) kind.val = false → present = true →
          t.bit (Reg.CAN_STAT ch.val) 2 = true ∧ t.canState ch.val = (if s.canState ch.val = 0 then 0 else 6)
          ∧ (t.rd (Reg.CAN_CNT_LINEFAULT ch.val)).toNat = min 0xFFFFFFFF ((s.rd (Reg.CAN_CNT_LINEFAULT ch.val)).toNat + 1))
      ∧ (∀ c, c ≠ ch.val → t.canCh c = s.canCh c) ∧ s.keepsParts t [.sent, .spr, .zid, .can] := by
  have ht : exec (.lineFault ch kind present) s = .next (s.clearSent.canLine ch.val kind.val present) :=
    show execLineFault ch kind present s = _ from State.act_supplied hs
  have hkeep : Keeps 131458 s (s.clearSent.canLine ch.val kind.val present) := execLineFault_keeps rfl ht
  refine ⟨_, ht, ?_, fun h => ?_, fun h hp => ?_, fun c hc => State.canLine_others s.clearSent ch hi hk present hc,
    hkeep.parts _ (fun p => by cases p <;> decide)⟩
  · rw [State.bit_eq, State.canLine_line (s := s.clearSent) hi hk]
    split_ifs with h
    · exact h.symm
    · exact bitOf_putBit_same _ _ _ (by omega)
  · rw [State.canLine_eq (s := s.clearSent) hi hk, if_pos (show present = s.clearSent.bit _ _ from h.symm)]
    exact ⟨rfl, rfl⟩
  · subst hp
    exact State.canLine_onset (s := s.clearSent) hi (by omega) h

theorem State.canLineUp_well {s : State} {ch : Nat} (h : s.canState ch = 6 ∧ s.fld (Reg.CAN_LINE ch) 0 5 = 0) :
    s.canLineUp ch = if s.bit (Reg.CAN_CTRL ch) 7 then s.putCan ch { s.canCh ch with awaitResume := true } else s.canTo ch 1 :=
  if_pos (by rw [h.1, h.2]; rfl)

theorem State.canLineUp_not {s : State} {ch : Nat} (h : ¬ (s.canState ch = 6 ∧ s.fld (Reg.CAN_LINE ch) 0 5 = 0)) : s.canLineUp ch = s :=
  if_neg (fun hc => h (by simpa only [Bool.and_eq_true, decide_eq_true_eq] using hc))

/-- LINEFAULT_END (R333). -/
theorem linefaultEnd_leaves (ch : Fin 4) (s : State) (hs : s.supplied) (hl : s.can.length = 4) : ∃ t, exec (.linefaultEnd ch) s = .next t
    ∧ (let done := s.canState ch.val = 6 ∧ s.fld (Reg.CAN_LINE ch.val) 0 5 = 0
       (done → if s.bit (Reg.CAN_CTRL ch.val) 7 then t.canState ch.val = 6 ∧ (t.canCh ch.val).awaitResume = true else t.canState ch.val = 1)
       ∧ (¬ done → t.regs = s.regs ∧ t.can = s.can)) ∧ s.keepsParts t [.sent, .zid, .can] := by
  have ht : exec (.linefaultEnd ch) s = .next (s.clearSent.canLineUp ch.val) := show execLinefaultEnd ch s = _ from State.act_supplied hs
  have hk : Keeps 131330 s (s.clearSent.canLineUp ch.val) := execLinefaultEnd_keeps rfl ht
  refine ⟨_, ht, ⟨fun h => ?_, fun h => ?_⟩, hk.parts _ (fun p => by cases p <;> decide)⟩
  · rw [State.canLineUp_well (s := s.clearSent) h]
    by_cases hold : s.bit (Reg.CAN_CTRL ch.val) 7 = true
    · rw [if_pos hold, if_pos (show s.clearSent.bit _ _ = true from hold)]
      refine ⟨h.1, ?_⟩
      rw [State.canCh_of_set (State.putCan_can s.clearSent ch.val _) (Nat.lt_of_lt_of_eq ch.isLt hl.symm)]
    · rw [if_neg hold, if_neg (show ¬ s.clearSent.bit _ _ = true from hold)]
      exact State.canState_canTo _ ch (by decide)
  · rw [State.canLineUp_not (s := s.clearSent) h]
    exact ⟨rfl, rfl⟩

/-- BUS_INTEGRATION (R316, R333). -/
theorem busIntegration_ends (ch : Fin 4) (s : State) (hs : s.supplied) : ∃ t, exec (.busIntegration ch) s = .next t
    ∧ (s.canState ch.val ≠ 1 → t.regs = s.regs ∧ t.can = s.can)
    ∧ (s.canState ch.val = 1 → (s.canCh ch.val).former ≠ 4 → (s.canCh ch.val).former < 8 →
        t.canState ch.val = (if (s.canCh ch.val).mode = 2 then 5 else if (s.canCh ch.val).mode = 3 then 7 else (s.canCh ch.val).former))
    ∧ s.keepsParts t [.sent, .zid, .can] := by
  have ht : exec (.busIntegration ch) s = .next (s.clearSent.canIntegrated ch.val) := show execBusIntegration ch s = _ from State.act_supplied hs
  have hk : Keeps 131330 s (s.clearSent.canIntegrated ch.val) := execBusIntegration_keeps rfl ht
  refine ⟨_, ht, fun h => ?_, fun h h4 h8 => ?_, hk.parts _ (fun p => by cases p <;> decide)⟩
  · have hi : s.clearSent.canIntegrated ch.val = s.clearSent := if_neg h
    rw [hi]
    exact ⟨rfl, rfl⟩
  · have hi : s.clearSent.canIntegrated ch.val = s.clearSent.canTo ch.val (partState (s.canCh ch.val).mode (s.canCh ch.val).former) :=
      (if_pos h).trans (if_neg h4)
    rw [hi, State.canState_canTo _ ch (partState_lt _ h8)]
    rfl

/-- Settles O20: each command's clause, in the statement's order. -/
theorem canModes : Obligations.CanModes :=
  ⟨canModeWrite_asks, canModeChange_takes, bitTimingWrite_takes,
    fun src ch s hs hl => ⟨recover_begins src ch s hs hl, resume_leaves src ch s hs hl⟩, busoffRecoveryEnd_ends,
    fun ch kind present s hs _ hi hk => lineFault_judges ch kind present s hs hi hk, linefaultEnd_leaves,
    fun ch s hs _ => busIntegration_ends ch s hs⟩

end Sys2Proof.Machine

/-!
CAN transmission: READY and ABORT, arbitration, and the end of a frame (R324 to R328), which settle O21.
-/

namespace Sys2Proof.Machine

/-! ## READY and ABORT (R324, R326) -/

theorem txbCtrl_facts (ch : Fin 4) (i : Fin 32) : inNvWindow (Reg.CAN_TXB_b_CTRL ch.val i.val) = false
    ∧ hasAcc .rws (Reg.CAN_TXB_b_CTRL ch.val i.val) = false := by
  revert ch i; decide

theorem State.txbWrite_ready (s : State) (ch i : Nat) : s.txbWrite ch i 0 1#32 = s.onlyIf (!s.txReady ch i) (fun t => t.txRequest ch i) := by
  simp only [State.txbWrite, show bitOf 1#32 0 = true by decide, show bitOf 1#32 1 = false by decide, Bool.true_and, State.onlyIf_false]

theorem State.txbWrite_abort (s : State) (ch i : Nat) : s.txbWrite ch i 0 2#32 = s.txAbort ch i := by
  simp only [State.txbWrite, show bitOf 2#32 0 = false by decide, show bitOf 2#32 1 = true by decide, Bool.false_and, State.onlyIf_false,
    State.onlyIf_true]

theorem State.txAbort_idle {s : State} {ch i : Nat} (h : s.txReady ch i = false) : s.txAbort ch i = s := by
  simp only [State.txAbort, h, Bool.not_false, if_true]

theorem State.txAbort_waiting {s : State} {ch i : Nat} (h : s.txReady ch i = true) (hx : ((s.canCh ch).tx.map (·.buf)) ≠ some i) :
    s.txAbort ch i = s.txFinish ch i false := by
  simp only [State.txAbort, h, Bool.not_true, Bool.false_eq_true, if_false]
  cases htx : (s.canCh ch).tx with
  | none => rfl
  | some x => exact if_neg (fun e => hx (by rw [htx, Option.map_some, e]))

theorem State.txAbort_sending {s : State} {ch i : Nat} (h : s.txReady ch i = true) {x : CanTx} (hx : (s.canCh ch).tx = some x) (hi : x.buf = i) :
    s.txAbort ch i = s.putCan ch { s.canCh ch with tx := some { x with abort := true } } := by
  simp only [State.txAbort, h, Bool.not_true, Bool.false_eq_true, if_false, hx, hi, if_true]

/-- TX_READY (R324). -/
theorem txReady_requests (src : Src) (ch : Fin 4) (i : Fin 32) (s : State) (hs : s.supplied) (hg : s.grants src (Reg.CAN_TXB_b_CTRL ch.val i.val) 1#32) :
    ∃ t, exec (.txReady src ch i) s = .next t ∧ t.answer.status = .ok ∧ t.txReady ch.val i.val = true
      ∧ s.keepsRegs t (Reg.CAN_TXB_b_CTRL ch.val i.val :: hostRegs) ∧ s.keepsParts t hostParts := by
  obtain ⟨hwin, hacc⟩ := txbCtrl_facts ch i
  obtain ⟨t, ht, hok, hr, -, hk⟩ := State.write1_plain (k := 8388683) (w := s.clearSent.onlyIf (!s.txReady ch.val i.val) (fun t => t.txRequest ch.val i.val))
    hs hg hwin hacc ((s.clearSent.wordWrite_txbCtrl _ ch i _).trans (s.clearSent.txbWrite_ready _ _)) rfl rfl
    (Keeps.only (fun _ h => State.txRequest_keeps rfl h) (Keeps.refl _))
  refine ⟨t, ht, hok, ?_, State.keepsRegs_request (l := [Reg.CAN_TXB_b_CTRL ch.val i.val]) hr fun b hb => ?_, hk.parts _ (fun p => by cases p <;> decide)⟩
  · rw [State.txReady, State.bit_eq, hr _ (not_host_of_can (txbCtrl_block ch i))]
    cases h : s.txReady ch.val i.val
    · rw [Bool.not_false, State.onlyIf_true, State.txRequest, State.rd_wr, if_pos rfl]
      decide
    · exact h
  · rw [State.rd_onlyIf, State.txRequest, State.rd_wr, if_neg (fun e => hb (List.mem_singleton.mpr e)), ite_self]
    rfl

/-- TX_ABORT (R326). -/
theorem txAbort_ends (src : Src) (ch : Fin 4) (i : Fin 32) (s : State) (hs : s.supplied) (hl : s.can.length = 4)
    (hg : s.grants src (Reg.CAN_TXB_b_CTRL ch.val i.val) 2#32) :
    ∃ t, exec (.txAbort src ch i) s = .next t ∧ t.answer.status = .ok
      ∧ (s.txReady ch.val i.val = false → s.keepsRegs t hostRegs ∧ t.can = s.can)
      ∧ (s.txReady ch.val i.val = true → ((s.canCh ch.val).tx.map (·.buf)) ≠ some i.val →
          t.rd (Reg.CAN_TXB_b_CTRL ch.val i.val) = 0x200#32 ∧ t.bit (Reg.CAN_STAT ch.val) 6 = true ∧ t.can = s.can)
      ∧ (∀ x, (s.canCh ch.val).tx = some x → s.txReady ch.val i.val = true → x.buf = i.val →
          (t.canCh ch.val).tx = some { x with abort := true } ∧ t.txReady ch.val i.val = true)
      ∧ s.keepsParts t (.can :: .zid :: hostParts) := by
  obtain ⟨hwin, hacc⟩ := txbCtrl_facts ch i
  obtain ⟨t, ht, hok, hr, hw, hk⟩ := State.write1_plain (k := 8520011) (w := s.clearSent.txAbort ch.val i.val) hs hg hwin hacc
    ((s.clearSent.wordWrite_txbCtrl _ ch i _).trans (s.clearSent.txbWrite_abort _ _)) rfl rfl (State.txAbort_keeps rfl (Keeps.refl _))
  have hcan : t.can = (s.clearSent.txAbort ch.val i.val).can := hw.can_same rfl
  have hctrl := hr _ (not_host_of_can (txbCtrl_block ch i))
  refine ⟨t, ht, hok, fun h => ?_, fun h hx => ?_, fun x hx h hbuf => ?_, hk.parts _ (fun p => by cases p <;> decide)⟩
  · rw [State.txAbort_idle (s := s.clearSent) h] at hr hcan
    exact ⟨hr, hcan⟩
  · rw [State.txAbort_waiting (s := s.clearSent) h hx] at hr hcan hctrl
    have hstat : Reg.CAN_STAT ch.val ∈ canRegs ch.val := by simp [canRegs]
    refine ⟨?_, ?_, hcan.trans (State.txFinish_can _ _ _ _)⟩
    · rw [hctrl, State.txFinish_ctrl, if_pos rfl]
      rfl
    · rw [State.bit_eq, hr _ (not_host_of_can (canRegs_block hstat)), State.txFinish_rd _ _ _ _ (canRegs_not_pin hstat), if_pos (by simp)]
      exact bitOf_putBit_same _ _ _ (by decide)
  · rw [State.txAbort_sending (s := s.clearSent) h hx hbuf] at hcan hctrl
    refine ⟨?_, ?_⟩
    · rw [State.canCh_of_set (s := s.clearSent) hcan (Nat.lt_of_lt_of_eq ch.isLt hl.symm)]
    · rw [State.txReady, State.bit_eq, hctrl]
      exact h

/-! ## Arbitration (R325, R328) -/

/-- Of the best buffer so far and the next one, the one that the channel offers first. -/
def offerBetter (key : Nat → Nat) (best : Option Nat) (b : Nat) : Option Nat := match best with
  | none => some b
  | some a => if key b < key a then some b else best

/-- The best of an ascending list: none has a lower key, and none of the same key a lower index. -/
theorem foldl_offerBetter (key : Nat → Nat) (l : List Nat) (a : Nat) (h : (a :: l).Pairwise (· < ·)) :
    ∃ m, l.foldl (offerBetter key) (some a) = some m ∧ m ∈ a :: l ∧ ∀ b ∈ a :: l, key m < key b ∨ (key m = key b ∧ m ≤ b) := by
  induction l generalizing a with
  | nil => exact ⟨a, rfl, List.mem_singleton_self a, fun b hb => .inr (by rw [List.mem_singleton.mp hb]; exact ⟨rfl, Nat.le_refl _⟩)⟩
  | cons c l ih =>
    obtain ⟨hac, hcl⟩ := List.pairwise_cons.mp h
    by_cases hkey : key c < key a
    · obtain ⟨m, hm, hmem, hbest⟩ := ih c hcl
      refine ⟨m, ?_, List.mem_cons_of_mem _ hmem, fun b hb => ?_⟩
      · rw [List.foldl_cons, offerBetter, if_pos hkey, hm]
      · rcases List.mem_cons.mp hb with rfl | hb
        · have := hbest c List.mem_cons_self
          exact .inl (by omega)
        · exact hbest b hb
    · have hal : (a :: l).Pairwise (· < ·) :=
        List.pairwise_cons.mpr ⟨fun b hb => hac b (List.mem_cons_of_mem _ hb), (List.pairwise_cons.mp hcl).2⟩
      obtain ⟨m, hm, hmem, hbest⟩ := ih a hal
      refine ⟨m, ?_, ?_, fun b hb => ?_⟩
      · rw [List.foldl_cons, offerBetter, if_neg hkey, hm]
      · rcases List.mem_cons.mp hmem with rfl | hmem
        · exact List.mem_cons_self
        · exact List.mem_cons_of_mem _ (List.mem_cons_of_mem _ hmem)
      · rcases List.mem_cons.mp hb with rfl | hb
        · exact hbest b List.mem_cons_self
        rcases List.mem_cons.mp hb with rfl | hb
        · have hma := hbest a List.mem_cons_self
          have hab := hac b List.mem_cons_self
          omega
        · exact hbest b (List.mem_cons_of_mem _ hb)

/-- The buffers that may be sent: ready and not gated. -/
def State.txOffers (s : State) (ch : Nat) : List Nat := (List.range 32).filter (fun b => s.txReady ch b && !s.txGated ch b)

theorem State.mem_txOffers (s : State) (ch b : Nat) : b ∈ s.txOffers ch ↔ b < 32 ∧ s.txReady ch b = true ∧ s.txGated ch b = false := by
  simp [State.txOffers]

theorem State.txNext_eq (s : State) (ch : Nat) :
    s.txNext ch = (s.txOffers ch).foldl (offerBetter (fun b => arbKey (s.rd (Reg.CAN_TXB_b_ID ch b)))) none := rfl

/-- A channel offers the winner of the arbitration among its buffers, and none when no buffer may be sent. -/
theorem State.txNext_wins (s : State) (ch : Nat) :
    (s.txOffers ch = [] ∧ s.txNext ch = none) ∨
    ∃ m ∈ s.txOffers ch, s.txNext ch = some m ∧ ∀ b ∈ s.txOffers ch,
      arbKey (s.rd (Reg.CAN_TXB_b_ID ch m)) < arbKey (s.rd (Reg.CAN_TXB_b_ID ch b))
        ∨ (arbKey (s.rd (Reg.CAN_TXB_b_ID ch m)) = arbKey (s.rd (Reg.CAN_TXB_b_ID ch b)) ∧ m ≤ b) := by
  have hsorted : (s.txOffers ch).Pairwise (· < ·) := List.pairwise_lt_range.filter _
  rw [State.txNext_eq]
  cases h : s.txOffers ch with
  | nil => exact .inl ⟨rfl, rfl⟩
  | cons a l =>
    rw [h] at hsorted
    obtain ⟨m, hm, hmem, hbest⟩ := foldl_offerBetter _ l a hsorted
    exact .inr ⟨m, hmem, hm, hbest⟩

/-- Ready buffers that are gated are flagged. -/
def State.gateNoted (s : State) (ch : Nat) : State :=
  s.onlyIf ((List.range 32).any (fun b => s.txReady ch b && s.txGated ch b)) (fun s => s.setBit (Reg.CAN_STAT ch) 10 true)

/-- The frame of a buffer as it stands. -/
def State.txFrame (s : State) (ch b : Nat) : CanTx :=
  let fmt := s.rd (Reg.CAN_TXB_b_FMT ch b)
  let id := s.rd (Reg.CAN_TXB_b_ID ch b)
  ⟨b, id, fmt &&& 0x7F#32, (s.txData ch b).take (if bitOf id 30 then 0 else dlcLen (bitOf fmt 4) (bitsOf fmt 0 4)), false⟩

theorem State.gateNoted_rd (s : State) {ch b : Nat} (h : b ≠ Reg.CAN_STAT ch) : (s.gateNoted ch).rd b = s.rd b := by
  rw [State.gateNoted, State.rd_onlyIf, State.rd_setBit, if_neg h, ite_self]

theorem State.gateNoted_can (s : State) (ch : Nat) : (s.gateNoted ch).can = s.can := by
  unfold State.gateNoted State.onlyIf
  split_ifs <;> rfl

/-- A channel that is not idle in NORMAL starts no frame. -/
theorem State.txStart_not {s : State} {ch : Nat} (h : ¬ (s.canState ch = 2 ∨ s.canState ch = 3) ∨ (s.canCh ch).tx ≠ none) :
    s.txStart ch = s.gateNoted ch := by
  refine if_pos ?_
  rw [Bool.or_eq_true, Bool.not_eq_true', Bool.or_eq_false_iff, beq_eq_false_iff_ne, beq_eq_false_iff_ne, Option.isSome_iff_ne_none]
  exact h.imp not_or.mp id

theorem txStart_free {s : State} {ch : Nat} (hk : s.canState ch = 2 ∨ s.canState ch = 3) (hx : (s.canCh ch).tx = none) :
    ¬ (!(s.canState ch == 2 || s.canState ch == 3) || (s.canCh ch).tx.isSome) = true := by
  simpa [hx] using or_iff_not_imp_left.mp hk

/-- An idle channel starts the frame that it offers first. -/
theorem State.txStart_some {s : State} {ch b : Nat} (hk : s.canState ch = 2 ∨ s.canState ch = 3) (hx : (s.canCh ch).tx = none)
    (hb : s.txNext ch = some b) : s.txStart ch = (s.gateNoted ch).putCan ch { s.canCh ch with tx := some (s.txFrame ch b) } :=
  (if_neg (txStart_free hk hx)).trans (by rw [hb]; rfl)

theorem State.txStart_none {s : State} {ch : Nat} (hk : s.canState ch = 2 ∨ s.canState ch = 3) (hx : (s.canCh ch).tx = none)
    (hn : s.txNext ch = none) : s.txStart ch = s.gateNoted ch :=
  (if_neg (txStart_free hk hx)).trans (by rw [hn]; rfl)

theorem State.txStart_rd (s : State) {ch b : Nat} (h : b ≠ Reg.CAN_STAT ch) : (s.txStart ch).rd b = s.rd b := by
  by_cases hx : ¬ (s.canState ch = 2 ∨ s.canState ch = 3) ∨ (s.canCh ch).tx ≠ none
  · rw [State.txStart_not hx, s.gateNoted_rd h]
  · rw [not_or, not_not, not_not] at hx
    cases hn : s.txNext ch with
    | none => rw [State.txStart_none hx.1 hx.2 hn, s.gateNoted_rd h]
    | some b => rw [State.txStart_some hx.1 hx.2 hn, State.rd_putCan, s.gateNoted_rd h]

/-- What an idle channel has in transmission afterwards. -/
theorem State.txStart_wins {s : State} {ch : Nat} (hl : ch < s.can.length) (hk : s.canState ch = 2 ∨ s.canState ch = 3) (hx : (s.canCh ch).tx = none) :
    ((∀ b < 32, s.txReady ch b = true → s.txGated ch b = true) → (s.txStart ch).can = s.can)
      ∧ (∀ x, ((s.txStart ch).canCh ch).tx = some x → x.buf < 32 ∧ s.txReady ch x.buf = true ∧ s.txGated ch x.buf = false
          ∧ x.id = s.rd (Reg.CAN_TXB_b_ID ch x.buf) ∧ x.abort = false
          ∧ (∀ b < 32, s.txReady ch b = true → s.txGated ch b = false →
              arbKey x.id < arbKey (s.rd (Reg.CAN_TXB_b_ID ch b))
              ∨ (arbKey x.id = arbKey (s.rd (Reg.CAN_TXB_b_ID ch b)) ∧ x.buf ≤ b)))
      ∧ ((∃ b < 32, s.txReady ch b = true ∧ s.txGated ch b = false) → ((s.txStart ch).canCh ch).tx ≠ none) := by
  rcases s.txNext_wins ch with ⟨hempty, hnone⟩ | ⟨m, hm, hnext, hbest⟩
  · have hno : ∀ b, ¬ (b < 32 ∧ s.txReady ch b = true ∧ s.txGated ch b = false) := fun b hb => by
      have := (s.mem_txOffers ch b).mpr hb
      rw [hempty] at this
      exact List.not_mem_nil this
    have hcan : (s.txStart ch).can = s.can := by rw [State.txStart_none hk hx hnone, State.gateNoted_can]
    refine ⟨fun _ => hcan, fun x h => ?_, fun ⟨b, h1, h2, h3⟩ => absurd ⟨h1, h2, h3⟩ (hno b)⟩
    rw [State.canCh_congr hcan, hx] at h
    exact absurd h (by simp)
  · obtain ⟨h32, hready, hopen⟩ := (s.mem_txOffers ch m).mp hm
    have hcan : (s.txStart ch).can = s.can.set ch { s.canCh ch with tx := some (s.txFrame ch m) } := by
      rw [State.txStart_some hk hx hnext, State.putCan_can, State.gateNoted_can]
    have htx : ((s.txStart ch).canCh ch).tx = some (s.txFrame ch m) := by rw [State.canCh_of_set hcan hl]
    refine ⟨fun h => ?_, fun x h => ?_, fun _ => by rw [htx]; simp⟩
    · exact absurd (h m h32 hready) (by simp [hopen])
    · obtain rfl : s.txFrame ch m = x := Option.some.inj (htx.symm.trans h)
      exact ⟨h32, hready, hopen, rfl, rfl, fun b hb h1 h2 => hbest b ((s.mem_txOffers ch b).mpr ⟨hb, h1, h2⟩)⟩

theorem exec_txStart {s : State} (hs : s.supplied) (ch : Fin 4) : exec (.txStart ch) s = .next (s.clearSent.txStart ch.val) :=
  show execTxStart ch s = _ from State.act_supplied hs

theorem State.txStart_keepsRegs (s : State) (ch : Nat) : s.keepsRegs (s.clearSent.txStart ch) [Reg.CAN_STAT ch] := fun _ hb =>
  s.clearSent.txStart_rd (fun e => hb (List.mem_singleton.mpr e))

/-- TX_START at an idle channel (R325, R328). -/
theorem txStart_starts (ch : Fin 4) (s : State) (hs : s.supplied) (hl : s.can.length = 4) (hk : s.canState ch.val = 2 ∨ s.canState ch.val = 3)
    (hx : (s.canCh ch.val).tx = none) :
    ∃ t, exec (.txStart ch) s = .next t
      ∧ ((∀ b < 32, s.txReady ch.val b = true → s.txGated ch.val b = true) → t.can = s.can)
      ∧ (∀ x, (t.canCh ch.val).tx = some x → x.buf < 32 ∧ s.txReady ch.val x.buf = true ∧ s.txGated ch.val x.buf = false
          ∧ x.id = s.rd (Reg.CAN_TXB_b_ID ch.val x.buf) ∧ x.abort = false
          ∧ (∀ b < 32, s.txReady ch.val b = true → s.txGated ch.val b = false →
              arbKey x.id < arbKey (s.rd (Reg.CAN_TXB_b_ID ch.val b))
              ∨ (arbKey x.id = arbKey (s.rd (Reg.CAN_TXB_b_ID ch.val b)) ∧ x.buf ≤ b)))
      ∧ ((∃ b < 32, s.txReady ch.val b = true ∧ s.txGated ch.val b = false) → (t.canCh ch.val).tx ≠ none)
      ∧ s.keepsRegs t [Reg.CAN_STAT ch.val] ∧ s.keepsParts t [.sent, .can] := by
  have hkeep : Keeps 131074 s (s.clearSent.txStart ch.val) := execTxStart_keeps rfl (exec_txStart hs ch)
  obtain ⟨hgated, hwins, hstarts⟩ := State.txStart_wins (s := s.clearSent) (Nat.lt_of_lt_of_eq ch.isLt hl.symm) hk hx
  exact ⟨_, exec_txStart hs ch, hgated, hwins, hstarts, s.txStart_keepsRegs ch.val, hkeep.parts _ (fun p => by cases p <;> decide)⟩

/-- TX_START at any other channel. -/
theorem txStart_refrains (ch : Fin 4) (s : State) (hs : s.supplied)
    (h : ¬ (s.canState ch.val = 2 ∨ s.canState ch.val = 3) ∨ (s.canCh ch.val).tx ≠ none) :
    ∃ t, exec (.txStart ch) s = .next t ∧ t.can = s.can ∧ s.keepsRegs t [Reg.CAN_STAT ch.val] := by
  refine ⟨_, exec_txStart hs ch, ?_, s.txStart_keepsRegs ch.val⟩
  rw [State.txStart_not (s := s.clearSent) h]
  exact State.gateNoted_can _ _


/-! ## The end of a frame (R326) -/

theorem State.charge_zero (s : State) (c r : Nat) : s.charge c r 0 = s := by
  have h := s.charge_zero_used c r
  unfold State.charge at h ⊢
  split_ifs at h ⊢
  · rfl
  · exact congrArg (fun u => { s with used := u }) h

/-- A CAN frame is sent without a charge (R52). -/
theorem State.send_canFrame (s : State) (port : Nat) (id fmt : Nat) (data : List Byte) :
    s.send ⟨.canFrame, port, id, fmt, data⟩ = { s with sent := s.sent ++ [⟨.canFrame, port, id, fmt, data⟩] } := by
  simp only [State.send, Frame.cost, State.charge_zero]

theorem txbStamp_facts (ch : Fin 4) (i : Fin 32) : blockOf (Reg.CAN_TXB_b_STAMP ch.val i.val) = some .can := by
  revert ch i; decide

theorem txbStamp_ne_canReg {ch b : Nat} (hb : b ∈ canRegs ch) (i : Nat) : Reg.CAN_TXB_b_STAMP ch i ≠ b := by
  have h := canRegs_lt_txb hb i
  simp only [Reg.CAN_TXB_b_CTRL] at h
  simp only [Reg.CAN_TXB_b_STAMP]
  omega

/-- The measurement of the own dominant bits over a frame, and the check of OPEN. -/
def State.txMeasured (s : State) (ch vdom : Nat) : State :=
  let run := if 3200 < vdom then (s.canCh ch).openRun + 1 else 0
  ((s.putCan ch { s.canCh ch with openRun := min 16 run }).setFld (Reg.CAN_LINE ch) 16 16 vdom).canLine ch 5 (16 ≤ run)

/-- The frame in transmission was sent without error: its request ends with DONE, stamped and counted. -/
def State.txDone (s : State) (ch : Nat) (x : CanTx) (stamp : Word) : State :=
  (((s.putCan ch { s.canCh ch with tx := none }).txFinish ch x.buf true).wr (Reg.CAN_TXB_b_STAMP ch x.buf) stamp).count (Reg.CAN_CNT_TXFRAME ch)

/-- The transmitter delay of a frame with BRS is reported (R315), and TEC counts down. -/
def State.txCounted (s : State) (ch : Nat) (x : CanTx) (tdcv : Nat) : State :=
  let s5 := s.onlyIf (s.bit (Reg.CAN_CTRL ch) 9 && bitOf x.fmt 4 && bitOf x.fmt 5) (fun s => s.setFld (Reg.CAN_TDC ch) 8 7 tdcv)
  (s5.setTec ch (s5.canTec ch - 1)).canErrUpdate ch

theorem State.txEnd_idle {s : State} {ch : Nat} (h : (s.canCh ch).tx = none) (ok : Bool) (stamp : Word) (tdcv vdom : Nat) :
    s.txEnd ch ok stamp tdcv vdom = s := by
  simp only [State.txEnd, h]

theorem State.txEnd_sent {s : State} {ch : Nat} {x : CanTx} (h : (s.canCh ch).tx = some x) (stamp : Word) (tdcv vdom : Nat) :
    s.txEnd ch true stamp tdcv vdom =
      (((s.txMeasured ch vdom).txDone ch x stamp).txCounted ch x tdcv).send ⟨.canFrame, 4 + ch, x.id.toNat, x.fmt.toNat, x.data⟩ := by
  simp only [State.txEnd, h, if_true, State.txMeasured, State.txDone, State.txCounted]

theorem State.txEnd_failed {s : State} {ch : Nat} {x : CanTx} (h : (s.canCh ch).tx = some x) (stamp : Word) (tdcv vdom : Nat) :
    s.txEnd ch false stamp tdcv vdom = (s.txMeasured ch vdom).txFail ch := by
  simp only [State.txEnd, h, Bool.false_eq_true, if_false, State.txMeasured]

/-! ### The measurement of the line -/

theorem State.canLine_open_can {s : State} {ch : Nat} (hi : s.bit (Reg.CAN_INJ ch) 1 = false) (present : Bool) : (s.canLine ch 5 present).can = s.can := by
  rw [State.canLine_eq hi (by decide)]
  split_ifs
  · rfl
  · exact s.lineOnset_can _ _
  · exact s.lineNoted_can _ _ _

/-- The check of OPEN leaves the measured value. -/
theorem State.canLine_vdom {s : State} {ch : Fin 4} (hi : s.bit (Reg.CAN_INJ ch.val) 1 = false) (present : Bool) :
    (s.canLine ch.val 5 present).fld (Reg.CAN_LINE ch.val) 16 16 = s.fld (Reg.CAN_LINE ch.val) 16 16 := by
  rw [State.fld_eq, State.canLine_line hi (by decide)]
  split_ifs
  · rfl
  · exact bitsOf_putBits_apart _ _ _ _ _ _ (by decide) (by decide)

section
variable {s : State} {ch : Fin 4} (hi : s.bit (Reg.CAN_INJ ch.val) 1 = false)
include hi

theorem State.vdomSet_inj (c : CanChan) (vdom : Nat) :
    ((s.putCan ch.val c).setFld (Reg.CAN_LINE ch.val) 16 16 vdom).bit (Reg.CAN_INJ ch.val) 1 = false := by
  rw [State.bit_eq, State.rd_setFld, if_neg (by simp [Reg.CAN_INJ, Reg.CAN_LINE])]
  exact hi

theorem State.txMeasured_rd (vdom : Nat) {b : Nat} (hb : b ∉ spoorRegs)
    (h : b ∉ [Reg.CAN_LINE ch.val, Reg.CAN_STAT ch.val, Reg.CAN_IRQ ch.val, Reg.CAN_STATE ch.val, Reg.CAN_CNT_LINEFAULT ch.val]) :
    (s.txMeasured ch.val vdom).rd b = s.rd b := by
  have hline : b ≠ Reg.CAN_LINE ch.val := fun e => h (by rw [e]; exact List.mem_cons_self)
  rw [State.txMeasured, State.canLine_rd (State.vdomSet_inj hi _ _) (by decide) _ hb h, State.rd_setFld, if_neg hline]
  rfl

theorem State.txMeasured_vdom {vdom : Nat} (hv : vdom < 65536) : (s.txMeasured ch.val vdom).fld (Reg.CAN_LINE ch.val) 16 16 = vdom := by
  rw [State.txMeasured, State.canLine_vdom (State.vdomSet_inj hi _ _), State.fld_eq, State.rd_setFld, if_pos rfl]
  exact (bitsOf_putBits_same _ _ _ _ (by decide)).trans (Nat.mod_eq_of_lt hv)

theorem State.txMeasured_can (vdom : Nat) :
    ∃ n, (s.txMeasured ch.val vdom).can = s.can.set ch.val { s.canCh ch.val with openRun := n } :=
  ⟨_, State.canLine_open_can (State.vdomSet_inj hi _ _) _⟩

end

theorem State.txMeasured_keeps (s : State) (ch vdom : Nat) : Keeps 131456 s (s.txMeasured ch vdom) :=
  State.canLine_keeps rfl (State.setFld_keeps rfl (State.putCan_keeps rfl (Keeps.refl s)))

/-! ### The end of the request -/

theorem State.txFinish_done_rd (s : State) (ch i : Nat) {b : Nat} (hb : b ∉ pinRegs) :
    (s.txFinish ch i true).rd b =
      if b = Reg.CAN_IRQ ch then putBit (s.rd b) 2 true else if b = Reg.CAN_TXB_b_CTRL ch i then 0x100#32 else s.rd b :=
  s.txFinish_rd ch i true hb

theorem State.txDone_rd (s : State) (ch : Nat) (x : CanTx) (stamp : Word) {b : Nat} (hb : b ∉ pinRegs) :
    (s.txDone ch x stamp).rd b =
      if b = Reg.CAN_CNT_TXFRAME ch then satWordN ((s.rd b).toNat + 1)
      else if b = Reg.CAN_TXB_b_STAMP ch x.buf then stamp
      else if b = Reg.CAN_IRQ ch then putBit (s.rd b) 2 true
      else if b = Reg.CAN_TXB_b_CTRL ch x.buf then 0x100#32 else s.rd b := by
  have hcnt : Reg.CAN_CNT_TXFRAME ch ∈ canRegs ch := by simp [canRegs]
  have hirq : Reg.CAN_CNT_TXFRAME ch ≠ Reg.CAN_IRQ ch := by simp [Reg.CAN_CNT_TXFRAME, Reg.CAN_IRQ]
  rw [State.txDone, State.rd_count]
  by_cases h1 : b = Reg.CAN_CNT_TXFRAME ch
  · subst h1
    rw [if_pos rfl, if_pos rfl, State.rd_wr, if_neg (txbStamp_ne_canReg hcnt _).symm, State.txFinish_done_rd _ _ _ hb, if_neg hirq,
      if_neg (txbCtrl_ne_canReg hcnt _).symm, State.rd_putCan]
  · rw [if_neg h1, if_neg h1, State.rd_wr, State.txFinish_done_rd _ _ _ hb, State.rd_putCan]

theorem State.txDone_can (s : State) (ch : Nat) (x : CanTx) (stamp : Word) :
    (s.txDone ch x stamp).can = s.can.set ch { s.canCh ch with tx := none } :=
  State.txFinish_can _ _ _ _

theorem State.txDone_keeps (s : State) (ch : Nat) (x : CanTx) (stamp : Word) : Keeps 131328 s (s.txDone ch x stamp) :=
  State.count_keeps rfl (State.wr_keeps rfl (State.txFinish_keeps rfl (State.putCan_keeps rfl (Keeps.refl s))))

theorem State.txFail_some {s : State} {ch : Nat} {x : CanTx} (h : (s.canCh ch).tx = some x) :
    s.txFail ch = if x.abort || bitOf x.fmt 6 then (s.putCan ch { s.canCh ch with tx := none }).txFinish ch x.buf false
      else s.putCan ch { s.canCh ch with tx := none } := by
  simp only [State.txFail, h]

theorem State.txFail_can {s : State} {ch : Nat} {x : CanTx} (h : (s.canCh ch).tx = some x) :
    (s.txFail ch).can = s.can.set ch { s.canCh ch with tx := none } := by
  rw [State.txFail_some h]
  split_ifs
  · exact State.txFinish_can _ _ _ _
  · rfl

/-! ### The error counter and its state -/

theorem State.canErrUpdate_rd (s : State) {ch : Fin 4} {b : Nat} (hb : b ∉ pinRegs) (h1 : b ≠ Reg.CAN_STAT ch.val) (h2 : b ≠ Reg.CAN_STATE ch.val) :
    (s.canErrUpdate ch.val).rd b = s.rd b ∨ b = Reg.CAN_IRQ ch.val ∧ (s.canErrUpdate ch.val).rd b = putBit (s.rd b) 3 true := by
  unfold State.canErrUpdate
  dsimp only
  by_cases hk : (s.canState ch.val == 2 || s.canState ch.val == 3) = true
  · rw [hk, Bool.not_true, if_neg Bool.false_ne_true, State.rd_onlyIf, State.rd_setBit, if_neg h1, ite_self, s.canTo_rd _ hb, if_neg h2]
    split_ifs with h3 h4
    · exact .inl rfl
    · exact .inr ⟨h4, rfl⟩
    · exact .inl rfl
  · rw [Bool.not_eq_true] at hk
    rw [hk, Bool.not_false, if_pos rfl]
    exact .inl rfl

theorem State.txCounted_rd (s : State) {ch : Fin 4} (x : CanTx) (tdcv : Nat) {b : Nat} (hb : b ∉ pinRegs)
    (h : b ∉ [Reg.CAN_TDC ch.val, Reg.CAN_STATE ch.val, Reg.CAN_STAT ch.val]) :
    (s.txCounted ch.val x tdcv).rd b = s.rd b ∨ b = Reg.CAN_IRQ ch.val ∧ (s.txCounted ch.val x tdcv).rd b = putBit (s.rd b) 3 true := by
  simp only [List.mem_cons, List.not_mem_nil, or_false, not_or] at h
  obtain ⟨h1, h2, h3⟩ := h
  have hbefore : ∀ (c : Bool) (v : Nat), (((s.onlyIf c (fun s => s.setFld (Reg.CAN_TDC ch.val) 8 7 tdcv)).setTec ch.val v).rd b) = s.rd b := fun c v => by
    rw [State.setTec_rd _ _ h2, State.rd_onlyIf, State.rd_setFld, if_neg h1, ite_self]
  rw [State.txCounted, ← hbefore _ _]
  exact State.canErrUpdate_rd _ hb h3 h2

theorem State.txCounted_keeps (s : State) (ch : Nat) (x : CanTx) (tdcv : Nat) : Keeps 256 s (s.txCounted ch x tdcv) :=
  State.canErrUpdate_keeps rfl (State.setTec_keeps rfl (Keeps.only (fun _ h => State.setFld_keeps rfl h) (Keeps.refl s)))

/-! ### TX_END -/

/-- A register of a buffer is none that the measurement and the counting write. -/
theorem apart_of_not_canReg {ch b : Nat} (h : b ∉ canRegs ch) :
    b ∉ [Reg.CAN_LINE ch, Reg.CAN_STAT ch, Reg.CAN_IRQ ch, Reg.CAN_STATE ch, Reg.CAN_CNT_LINEFAULT ch, Reg.CAN_TDC ch] := fun hb =>
  h ((show [Reg.CAN_LINE ch, Reg.CAN_STAT ch, Reg.CAN_IRQ ch, Reg.CAN_STATE ch, Reg.CAN_CNT_LINEFAULT ch, Reg.CAN_TDC ch] ⊆ canRegs ch by
    simp [canRegs]) hb)

theorem State.canCh_tx_of_set {s t : State} {ch : Nat} {c : CanChan} {x : CanTx} (h : t.can = s.can.set ch c) (hl : ch < s.can.length)
    (hc : c.tx = some x) : (t.canCh ch).tx = some x := by
  rw [State.canCh_of_set h hl, hc]

/-- The end of a frame leaves no frame in transmission at the channel, and the other channels alone. -/
theorem State.txEnd_can {s : State} {ch : Fin 4} (hi : s.bit (Reg.CAN_INJ ch.val) 1 = false) (hl : ch.val < s.can.length) {x : CanTx}
    (hx : (s.canCh ch.val).tx = some x) (ok : Bool) (stamp : Word) (tdcv vdom : Nat) :
    ∃ c : CanChan, c.tx = none ∧ (s.txEnd ch.val ok stamp tdcv vdom).can = s.can.set ch.val c := by
  obtain ⟨n, hm⟩ := State.txMeasured_can hi vdom
  refine ⟨{ (s.txMeasured ch.val vdom).canCh ch.val with tx := none }, rfl, ?_⟩
  cases ok with
  | true => rw [State.txEnd_sent hx, State.send_canFrame, (State.txCounted_keeps _ _ _ _).can_same rfl, State.txDone_can, hm, List.set_set]
  | false => rw [State.txEnd_failed hx, State.txFail_can (State.canCh_tx_of_set hm hl hx), hm, List.set_set]

theorem State.txEnd_keepsMask {s : State} {ch : Nat} {x : CanTx} (hx : (s.canCh ch).tx = some x) (ok : Bool) (stamp : Word) (tdcv vdom : Nat) :
    Keeps 131458 s (s.txEnd ch ok stamp tdcv vdom) := by
  have hm : Keeps 131458 s (s.txMeasured ch vdom) := (s.txMeasured_keeps ch vdom).weaken rfl
  cases ok with
  | true =>
    rw [State.txEnd_sent hx, State.send_canFrame]
    exact Keeps.set_sent rfl ((hm.trans ((State.txDone_keeps _ ch x stamp).weaken rfl)).trans ((State.txCounted_keeps _ ch x tdcv).weaken rfl))
  | false =>
    rw [State.txEnd_failed hx]
    exact State.txFail_keeps rfl hm

section
variable {s : State} {ch : Fin 4} (hi : s.bit (Reg.CAN_INJ ch.val) 1 = false) {x : CanTx} (hx : (s.canCh ch.val).tx = some x)
include hi hx

/-- A register of a frame that was sent: what the measurement and the counting leave is what the end of the request says. -/
theorem State.txEnd_sent_rd (stamp : Word) (tdcv vdom : Nat) {b : Nat} (hb : b ∉ spoorRegs)
    (h : b ∉ [Reg.CAN_LINE ch.val, Reg.CAN_STAT ch.val, Reg.CAN_IRQ ch.val, Reg.CAN_STATE ch.val, Reg.CAN_CNT_LINEFAULT ch.val, Reg.CAN_TDC ch.val]) :
    (s.txEnd ch.val true stamp tdcv vdom).rd b =
      if b = Reg.CAN_CNT_TXFRAME ch.val then satWordN ((s.rd b).toNat + 1)
      else if b = Reg.CAN_TXB_b_STAMP ch.val x.buf then stamp
      else if b = Reg.CAN_TXB_b_CTRL ch.val x.buf then 0x100#32 else s.rd b := by
  simp only [List.mem_cons, List.not_mem_nil, or_false, not_or] at h
  obtain ⟨hline, hstat, hirq, hstate, hcnt, htdc⟩ := h
  have hcounted := ((s.txMeasured ch.val vdom).txDone ch.val x stamp).txCounted_rd (ch := ch) x tdcv (not_pin_of_spoor hb)
    (by simp [htdc, hstate, hstat])
  rw [State.txEnd_sent hx, State.send_canFrame]
  refine (hcounted.resolve_right fun e => hirq e.1).trans ?_
  rw [State.txDone_rd _ _ _ _ (not_pin_of_spoor hb), if_neg hirq, State.txMeasured_rd hi vdom hb (by simp [hline, hstat, hirq, hstate, hcnt])]

omit hi in
theorem State.txEnd_sent_irq (stamp : Word) (tdcv vdom : Nat) : (s.txEnd ch.val true stamp tdcv vdom).bit (Reg.CAN_IRQ ch.val) 2 = true := by
  have hmem : Reg.CAN_IRQ ch.val ∈ canRegs ch.val := by simp [canRegs]
  have hdone : bitOf (((s.txMeasured ch.val vdom).txDone ch.val x stamp).rd (Reg.CAN_IRQ ch.val)) 2 = true := by
    rw [State.txDone_rd _ _ _ _ (canRegs_not_pin hmem), if_neg (by simp [Reg.CAN_IRQ, Reg.CAN_CNT_TXFRAME]),
      if_neg (txbStamp_ne_canReg hmem _).symm, if_pos rfl]
    exact bitOf_putBit_same _ _ _ (by decide)
  rw [State.txEnd_sent hx, State.send_canFrame]
  rcases State.txCounted_rd _ (ch := ch) x tdcv (canRegs_not_pin hmem) (by simp [Reg.CAN_IRQ, Reg.CAN_TDC, Reg.CAN_STATE, Reg.CAN_STAT]) with h | ⟨-, h⟩
  · exact (congrArg (bitOf · 2) h).trans hdone
  · exact (congrArg (bitOf · 2) h).trans (bitOf_putBit_true (by decide) hdone)

/-- What a frame that was sent leaves (R326, R327). -/
theorem State.txEnd_sent_gives (hsent : s.sent = []) (hb : x.buf < 32) (stamp : Word) (tdcv vdom : Nat) :
    (s.txEnd ch.val true stamp tdcv vdom).sent = [⟨.canFrame, 4 + ch.val, x.id.toNat, x.fmt.toNat, x.data⟩]
      ∧ (s.txEnd ch.val true stamp tdcv vdom).rd (Reg.CAN_TXB_b_CTRL ch.val x.buf) = 0x100#32
      ∧ (s.txEnd ch.val true stamp tdcv vdom).rd (Reg.CAN_TXB_b_STAMP ch.val x.buf) = stamp
      ∧ ((s.txEnd ch.val true stamp tdcv vdom).rd (Reg.CAN_CNT_TXFRAME ch.val)).toNat
          = min 0xFFFFFFFF ((s.rd (Reg.CAN_CNT_TXFRAME ch.val)).toNat + 1)
      ∧ (s.txEnd ch.val true stamp tdcv vdom).bit (Reg.CAN_IRQ ch.val) 2 = true := by
  have hcnt : Reg.CAN_CNT_TXFRAME ch.val ∈ canRegs ch.val := by simp [canRegs]
  refine ⟨?_, ?_, ?_, ?_, State.txEnd_sent_irq hx stamp tdcv vdom⟩
  · rw [State.txEnd_sent hx, State.send_canFrame]
    show _ ++ _ = _
    rw [(State.txCounted_keeps _ _ _ _).sent_same rfl, (State.txDone_keeps _ _ _ _).sent_same rfl, (State.txMeasured_keeps _ _ _).sent_same rfl,
      hsent, List.nil_append]
  · rw [State.txEnd_sent_rd hi hx stamp tdcv vdom (not_spoor_of_can (txbCtrl_block ch ⟨x.buf, hb⟩)) (apart_of_not_canReg fun h => txbCtrl_ne_canReg h _ rfl),
      if_neg (txbCtrl_ne_canReg hcnt _), if_neg (by simp only [Reg.CAN_TXB_b_CTRL, Reg.CAN_TXB_b_STAMP]; omega), if_pos rfl]
  · rw [State.txEnd_sent_rd hi hx stamp tdcv vdom (not_spoor_of_can (txbStamp_facts ch ⟨x.buf, hb⟩)) (apart_of_not_canReg fun h => txbStamp_ne_canReg h _ rfl),
      if_neg (txbStamp_ne_canReg hcnt _), if_pos rfl]
  · rw [State.txEnd_sent_rd hi hx stamp tdcv vdom (not_spoor_of_can (canRegs_block hcnt))
        (by simp [Reg.CAN_CNT_TXFRAME, Reg.CAN_LINE, Reg.CAN_STAT, Reg.CAN_IRQ, Reg.CAN_STATE, Reg.CAN_CNT_LINEFAULT, Reg.CAN_TDC]),
      if_pos rfl, satWordN_toNat]

/-- LINE holds the measured value, whether the frame was sent or not. -/
theorem State.txEnd_vdom (hl : ch.val < s.can.length) (ok : Bool) (stamp : Word) (tdcv : Nat) {vdom : Nat} (hv : vdom < 65536) :
    (s.txEnd ch.val ok stamp tdcv vdom).fld (Reg.CAN_LINE ch.val) 16 16 = vdom := by
  have hmem : Reg.CAN_LINE ch.val ∈ canRegs ch.val := by simp [canRegs]
  have hpin := canRegs_not_pin hmem
  have hirq : Reg.CAN_LINE ch.val ≠ Reg.CAN_IRQ ch.val := by simp [Reg.CAN_LINE, Reg.CAN_IRQ]
  obtain ⟨n, hm⟩ := State.txMeasured_can hi vdom
  refine Eq.trans (congrArg (bitsOf · 16 16) ?_) (State.txMeasured_vdom hi hv)
  cases ok with
  | true =>
    have hcounted := ((s.txMeasured ch.val vdom).txDone ch.val x stamp).txCounted_rd (ch := ch) x tdcv hpin
      (by simp [Reg.CAN_LINE, Reg.CAN_TDC, Reg.CAN_STATE, Reg.CAN_STAT])
    rw [State.txEnd_sent hx, State.send_canFrame]
    refine (hcounted.resolve_right fun e => hirq e.1).trans ?_
    rw [State.txDone_rd _ _ _ _ hpin, if_neg (by simp [Reg.CAN_LINE, Reg.CAN_CNT_TXFRAME]), if_neg (txbStamp_ne_canReg hmem _).symm, if_neg hirq,
      if_neg (txbCtrl_ne_canReg hmem _).symm]
  | false =>
    rw [State.txEnd_failed hx, State.txFail_some (State.canCh_tx_of_set hm hl hx)]
    split_ifs
    · rw [State.txFinish_rd _ _ _ _ hpin, if_neg (by simp [Reg.CAN_LINE, Reg.CAN_STAT]), if_neg hirq, if_neg (txbCtrl_ne_canReg hmem _).symm]
      rfl
    · rfl

/-- The buffer of a frame that failed: its request ends under ABORT or DAR, else it stays. -/
theorem State.txEnd_failed_ctrl (hl : ch.val < s.can.length) (hb : x.buf < 32) (stamp : Word) (tdcv vdom : Nat) :
    (s.txEnd ch.val false stamp tdcv vdom).rd (Reg.CAN_TXB_b_CTRL ch.val x.buf)
      = if x.abort ∨ bitOf x.fmt 6 = true then 0x200#32 else s.rd (Reg.CAN_TXB_b_CTRL ch.val x.buf) := by
  obtain ⟨n, hm⟩ := State.txMeasured_can hi vdom
  have hbuf := txbCtrl_block ch ⟨x.buf, hb⟩
  rw [State.txEnd_failed hx, State.txFail_some (State.canCh_tx_of_set hm hl hx)]
  by_cases hend : x.abort = true ∨ bitOf x.fmt 6 = true
  · rw [if_pos hend, if_pos (Bool.or_eq_true_iff.mpr hend)]
    exact (State.txFinish_ctrl _ ch x.buf ⟨x.buf, hb⟩ false).trans (if_pos rfl)
  · rw [if_neg hend, if_neg (fun e => hend (Bool.or_eq_true_iff.mp e)), State.rd_putCan]
    exact State.txMeasured_rd hi vdom (not_spoor_of_can hbuf) fun h =>
      apart_of_not_canReg (fun h => txbCtrl_ne_canReg h _ rfl) (List.mem_append_left [Reg.CAN_TDC ch.val] h)

end

theorem exec_txEnd {s : State} (hs : s.supplied) (ch : Fin 4) (ok : Bool) (stamp : Word) (tdcv : BitVec 8) (vdom : BitVec 16) :
    exec (.txEnd ch ok stamp tdcv vdom) s = .next (s.clearSent.txEnd ch.val ok stamp tdcv.toNat vdom.toNat) :=
  show execTxEnd ch ok stamp tdcv vdom s = _ from State.act_supplied hs

/-- TX_END of a frame in transmission (R326). -/
theorem txEnd_ends (ch : Fin 4) (ok : Bool) (stamp : Word) (tdcv : BitVec 8) (vdom : BitVec 16) (s : State) (hs : s.supplied) (hl : s.can.length = 4)
    (hi : s.bit (Reg.CAN_INJ ch.val) 1 = false) (x : CanTx) (hx : (s.canCh ch.val).tx = some x) (hb : x.buf < 32) :
    ∃ t, exec (.txEnd ch ok stamp tdcv vdom) s = .next t ∧ (t.canCh ch.val).tx = none
      ∧ t.fld (Reg.CAN_LINE ch.val) 16 16 = vdom.toNat
      ∧ (ok = true → t.sent = [⟨.canFrame, 4 + ch.val, x.id.toNat, x.fmt.toNat, x.data⟩]
          ∧ t.rd (Reg.CAN_TXB_b_CTRL ch.val x.buf) = 0x100#32 ∧ t.rd (Reg.CAN_TXB_b_STAMP ch.val x.buf) = stamp
          ∧ (t.rd (Reg.CAN_CNT_TXFRAME ch.val)).toNat = min 0xFFFFFFFF ((s.rd (Reg.CAN_CNT_TXFRAME ch.val)).toNat + 1)
          ∧ t.bit (Reg.CAN_IRQ ch.val) 2 = true)
      ∧ (ok = false → t.sent = [] ∧ t.rd (Reg.CAN_TXB_b_CTRL ch.val x.buf)
            = (if x.abort ∨ bitOf x.fmt 6 = true then 0x200#32 else s.rd (Reg.CAN_TXB_b_CTRL ch.val x.buf)))
      ∧ (∀ c, c ≠ ch.val → t.canCh c = s.canCh c) ∧ s.keepsParts t [.sent, .spr, .zid, .can] := by
  have hl' : ch.val < s.clearSent.can.length := Nat.lt_of_lt_of_eq ch.isLt hl.symm
  obtain ⟨c, hc, hcan⟩ := State.txEnd_can (s := s.clearSent) hi hl' hx ok stamp tdcv.toNat vdom.toNat
  have hkeep : Keeps 131458 s (s.clearSent.txEnd ch.val ok stamp tdcv.toNat vdom.toNat) :=
    (State.clearSent_keeps rfl (Keeps.refl s)).trans (State.txEnd_keepsMask (s := s.clearSent) hx ok stamp _ _)
  refine ⟨_, exec_txEnd hs ch ok stamp tdcv vdom, ?_, State.txEnd_vdom (s := s.clearSent) hi hx hl' ok stamp _ vdom.isLt, ?_, ?_,
    fun k hk => State.canCh_of_set_ne (s := s.clearSent) hcan hk, hkeep.parts _ (fun p => by cases p <;> decide)⟩
  · rw [State.canCh_of_set hcan hl', hc]
  · rintro rfl
    exact State.txEnd_sent_gives (s := s.clearSent) hi hx rfl hb stamp _ _
  · rintro rfl
    refine ⟨?_, State.txEnd_failed_ctrl (s := s.clearSent) hi hx hl' hb stamp _ _⟩
    rw [State.txEnd_failed (s := s.clearSent) hx, (State.txFail_keeps (k := 131328) rfl (Keeps.refl _)).sent_same rfl,
      (State.txMeasured_keeps _ _ _).sent_same rfl]
    rfl

/-- TX_END with no frame in transmission. -/
theorem txEnd_ignored (ch : Fin 4) (ok : Bool) (stamp : Word) (tdcv : BitVec 8) (vdom : BitVec 16) (s : State) (hs : s.supplied)
    (hx : (s.canCh ch.val).tx = none) :
    ∃ t, exec (.txEnd ch ok stamp tdcv vdom) s = .next t ∧ t.regs = s.regs ∧ s.keepsParts t [.sent] := by
  refine ⟨s.clearSent, ?_, rfl, (State.clearSent_keeps (k := 2) rfl (Keeps.refl s)).parts _ (fun p => by cases p <;> decide)⟩
  rw [exec_txEnd hs, State.txEnd_idle (s := s.clearSent) hx]

/-- Settles O21: a request is set by READY and ended by ABORT, the channel starts the winner of the arbitration among the buffers that may be
sent, and the end of its frame ends the request or leaves it. -/
theorem canTransmission : Obligations.CanTransmission :=
  ⟨fun src ch b s hs hl => ⟨txReady_requests src ch b s hs, txAbort_ends src ch b s hs hl⟩, txStart_starts, txStart_refrains, txEnd_ends,
    txEnd_ignored⟩

end Sys2Proof.Machine

/-!
What every step holds: the front command runs, an empty queue is one tick, the queue stays, every command completes, and a
module without supply stays as it is (O1, O2, O3, O4, O8).
-/

namespace Sys2Proof.Machine

theorem step_front {s : State} {c : Instr} {rest : List Instr} (h : s.pending = c :: rest) : step s = exec c { s with pending := rest } := by
  unfold step
  rw [h]

theorem step_empty {s : State} (h : s.pending = []) : step s = .next s.idle := by
  unfold step
  rw [h]

/-- Settles O1: `step` is the match on the queue. -/
theorem stepRunsFront : Obligations.StepRunsFront := fun _ _ _ h => step_front h

/-- Settles O3: the frame lemma of each command says that the queue stays. -/
theorem queueKept : Obligations.QueueKept := by
  refine ⟨fun c s t h => (exec_keeps h).queue, fun c rest s t hp h => ?_⟩
  rw [step_front hp] at h
  exact (exec_keeps h).queue

/-- The meaning of each command is the next state. -/
theorem exec_completes (c : Instr) (s : State) : completes c s := by
  cases c <;> exact ⟨_, rfl⟩

/-- Settles O4: a step is a tick or a command. -/
theorem everyCommandCompletes : Obligations.EveryCommandCompletes := by
  refine ⟨exec_completes, fun s => ?_⟩
  cases h : s.pending with
  | nil => exact ⟨_, step_empty h⟩
  | cons c rest => exact step_front h ▸ exec_completes c _

/-- Settles O8: every meaning but five is `State.act`, which leaves a module without supply alone. -/
theorem offChangesNothing : Obligations.OffChangesNothing := by
  intro c s h hpower hintlk hgrant hcarry hwake
  cases c with
  | powerUp v n => exact absurd rfl (hpower v n)
  | intlkInChange x => exact absurd rfl (hintlk x)
  | grantInChange x => exact absurd rfl (hgrant x)
  | secondCarry => exact absurd rfl hcarry
  | wake => exact absurd rfl hwake
  | _ => exact congrArg Host.Outcome.next (if_pos h)

/-! ## A tick -/

theorem State.idle_off {s : State} (h : s.boot.phase = .off) : s.idle = s := if_pos h

/-- The effects of a tick, the program's own apart. -/
def State.ticked (s u : State) : State := { u with lap := { u.lap with tick := min 4095 (s.lap.tick + 1), rsv := false } }

/-- A tick in which the program executes charges it 1 core-tick (R230). -/
theorem State.idle_supplied {s : State} (h : s.supplied) :
    s.idle = s.ticked (if s.lap.tick < 4095 ∧ s.fbpExecutes = true then s.clearSent.doTick.fbpTick else s.clearSent.doTick) := by
  have hx : s.clearSent.doTick.fbpExecutes = s.fbpExecutes := rfl
  unfold State.idle
  rw [if_neg h]
  by_cases ht : s.lap.tick < 4095
  · cases he : s.fbpExecutes
    · have hidle : s.clearSent.doTick.fbpTick = s.clearSent.doTick := by
        unfold State.fbpTick
        rw [hx, he]
        rfl
      simp only [ht, decide_true, State.onlyIf_true, hidle, true_and, Bool.false_eq_true, if_false]
      rfl
    · simp only [ht, decide_true, State.onlyIf_true, and_self, if_true]
      rfl
  · simp only [ht, decide_false, State.onlyIf_false, false_and, if_false]
    rfl

theorem State.fbpTick_executes {s : State} (h : s.fbpExecutes = true) :
    s.fbpTick = { s.charge classFbp resCore 1 with fbp := { s.fbp with ran := s.fbp.ran + 1 } } := by
  unfold State.fbpTick
  rw [if_pos h]
  rfl

theorem idle_ticks (s : State) (hs : s.supplied) :
    s.idle.lap = { s.lap with tick := min 4095 (s.lap.tick + 1), rsv := false }
      ∧ s.idle.field = { s.field with doLater := s.field.doLater.drop 8 } ∧ s.idle.sent = [] ∧ s.idle.regs = s.regs
      ∧ (if s.lap.tick < 4095 ∧ s.fbpExecutes = true then s.idle.fbp = { s.fbp with ran := s.fbp.ran + 1 } ∧ s.idle.used = (s.charge classFbp resCore 1).used
         else s.idle.fbp = s.fbp ∧ s.idle.used = s.used) := by
  rw [State.idle_supplied hs]
  by_cases h : s.lap.tick < 4095 ∧ s.fbpExecutes = true
  · rw [if_pos h, if_pos h, State.fbpTick_executes (s := s.clearSent.doTick) h.2]
    exact ⟨rfl, rfl, rfl, rfl, rfl, rfl⟩
  · rw [if_neg h, if_neg h]
    exact ⟨rfl, rfl, rfl, rfl, rfl, rfl⟩

/-- Settles O2: the tick with a program that executes and without. -/
theorem idleTick : Obligations.IdleTick := by
  refine ⟨fun s hp hs => ⟨s.idle, step_empty hp, ?_⟩, fun s hp h => (step_empty hp).trans (congrArg _ (State.idle_off h))⟩
  obtain ⟨hlap, hfield, hsent, hregs, hfbp⟩ := idle_ticks s hs
  exact ⟨hlap, hfield, hsent, hregs, hfbp, (State.idle_keeps (k := 8470534) rfl (Keeps.refl s)).parts _ (fun p => by cases p <;> decide)⟩

end Sys2Proof.Machine

/-!
FAULT_N and its block: what a trigger records, ASSERT, HOLD, the readback, the LED test and the enable of fault injection
(R482 to R490), which settle O56, O57, O58 and O59.
-/

namespace Sys2Proof.Machine

/-! ## A granted word -/

/-- A command that writes one register with a request that no rule refuses, where the word forms no write set: it is answered OK, and
every register but the counts of the answer is as the word's own effect leaves it. -/
theorem State.write1_answered {k : Nat} {s w : State} {src : Src} {a : Nat} {v : Word} (hs : s.supplied) (hg : s.grants src a v)
    (ha : inNvWindow a = false) (hr : hasAcc .rws a = false) (hw : s.clearSent.wordWrite src.slot.val [] (a, v) = w)
    (hk : k &&& 8388683 = 8388683) (hkw : Keeps k s.clearSent w) (hj : w.nv.jobs = s.nv.jobs) :
    ∃ t, s.act (fun t => t.write1 src a v) = .next t ∧ t.answer.status = .ok ∧ (∀ b, b ∉ answerRegs → t.rd b = w.rd b)
      ∧ Keeps 8388675 w t ∧ Keeps k s t := by
  obtain ⟨t, ht, hok, -, -, hkeep⟩ := State.write1_granted hs hg ha hr hw hk hkw hj
  have e : t = s.clearSent.write1 src a v := Host.Outcome.next.inj (ht.symm.trans (State.act_supplied hs))
  have hend := State.write1_ok s.clearSent src a v (not_user_of_reg ha) hr hg
  have hself : ({ w with nv := { w.nv with jobs := s.clearSent.nv.jobs } } : State) = w := by
    rw [State.clearSent_nv, ← hj]
  rw [hw, hself, ← e] at hend
  refine ⟨t, ht, hok, fun b hb => ?_, hend ▸ State.opOk_keeps (k := 8388675) rfl (Keeps.refl _), hkeep⟩
  simp only [answerRegs, List.mem_cons, List.not_mem_nil, or_false, not_or] at hb
  obtain ⟨hcnt, hresend, hstat⟩ := hb
  rw [hend, State.opOk, State.answerOp_rd _ _ _ _ _ hresend hstat, State.rd_count, if_neg hcnt]

/-- Registers that the word's own effect keeps, the request keeps but for those that any request may change. -/
theorem State.keepsRegs_answered {s w t : State} {l m : List Nat} (ht : ∀ b, b ∉ answerRegs → t.rd b = w.rd b)
    (hw : ∀ b, b ∉ l → w.rd b = s.rd b) (hl : ∀ b ∈ l ++ answerRegs, b ∈ m) : s.keepsRegs t m := fun b hb => by
  have hn : b ∉ l ++ answerRegs := fun h => hb (hl b h)
  rw [List.mem_append, not_or] at hn
  exact (ht b hn.2).trans (hw b hn.1)

/-! ## A trigger of FAULT_N (R485 to R487) -/

/-- The record of a trigger: SOURCE, bit and KIND (R487). -/
def triggerWord (source i : Nat) (kind : Bool) : Word := BitVec.ofNat 32 (source + i * 2 ^ 8 + kind.toNat * 2 ^ 16)

theorem bitsOf_ofNat (n lo k : Nat) (hn : n < 2 ^ 32) : bitsOf (BitVec.ofNat 32 n) lo k = n / 2 ^ lo % 2 ^ k := by
  rw [bitsOf, BitVec.toNat_ofNat, Nat.mod_eq_of_lt hn, Nat.shiftRight_eq_div_pow]

theorem triggerWord_fields {source i : Nat} (kind : Bool) (hs : source < 256) (hi : i < 256) :
    bitsOf (triggerWord source i kind) 0 8 = source ∧ bitsOf (triggerWord source i kind) 8 8 = i ∧ bitOf (triggerWord source i kind) 16 = kind := by
  have hk : kind.toNat < 2 := kind.toNat_lt
  have hlt : source + i * 2 ^ 8 + kind.toNat * 2 ^ 16 < 2 ^ 32 := by omega
  refine ⟨?_, ?_, ?_⟩
  · rw [triggerWord, bitsOf_ofNat _ _ _ hlt]
    omega
  · rw [triggerWord, bitsOf_ofNat _ _ _ hlt]
    omega
  · have hbit : (source + i * 2 ^ 8 + kind.toNat * 2 ^ 16) / 2 ^ 16 % 2 = kind.toNat := by omega
    rw [triggerWord, bitOf, BitVec.getLsbD_ofNat, Nat.testBit_eq_decide_div_mod_eq, hbit]
    cases kind <;> rfl

/-- The registers that a trigger writes before MINW restarts. -/
def State.pinRecorded (s : State) (source i : Nat) (kind : Bool) : State :=
  let s1 := s.onlyIf (s.faultPhase = 0) (fun s => s.wr Reg.ZID_FAULT_FIRST (triggerWord source i kind))
  let s2 := (s1.wr Reg.ZID_FAULT_LAST (triggerWord source i kind)).count Reg.ZID_CNT_FAULT
  let s3 := (s2.setBit Reg.ZID_STAT 0 true).setBit Reg.ZID_IRQ 0 true
  s3.onlyIf (s3.bit Reg.ZID_FAULT_CFG 16) (fun s => s.setBit Reg.ZID_FAULT_CTRL 0 true)

theorem State.trigger_eq (s : State) (source i : Nat) (kind : Bool) :
    s.trigger source i kind = { s.pinRecorded source i kind with
      zid := { (s.pinRecorded source i kind).zid with minLeft := (s.pinRecorded source i kind).fld Reg.ZID_FAULT_CFG 0 12, trigAt := s.oscNs } } := rfl

section
variable (s : State) (source i : Nat) (kind : Bool)

theorem State.trigger_rd_eq (b : Nat) : (s.trigger source i kind).rd b = (s.pinRecorded source i kind).rd b := rfl

theorem State.trigger_first : (s.trigger source i kind).rd Reg.ZID_FAULT_FIRST
    = if s.faultPhase = 0 then triggerWord source i kind else s.rd Reg.ZID_FAULT_FIRST := by
  rw [State.trigger_rd_eq, State.pinRecorded]
  simp (disch := decide) only [State.rd_onlyIf, State.rd_setBit, State.rd_count, State.rd_wr, if_neg, ite_self, if_true, decide_eq_true_eq]

theorem State.trigger_last : (s.trigger source i kind).rd Reg.ZID_FAULT_LAST = triggerWord source i kind := by
  rw [State.trigger_rd_eq, State.pinRecorded]
  simp (disch := decide) only [State.rd_onlyIf, State.rd_setBit, State.rd_count, State.rd_wr, if_neg, ite_self, if_true]

theorem State.trigger_count : (s.trigger source i kind).rd Reg.ZID_CNT_FAULT = satWordN ((s.rd Reg.ZID_CNT_FAULT).toNat + 1) := by
  rw [State.trigger_rd_eq, State.pinRecorded]
  simp (disch := decide) only [State.rd_onlyIf, State.rd_setBit, State.rd_count, State.rd_wr, if_neg, ite_self, if_true]

theorem State.trigger_stat : (s.trigger source i kind).rd Reg.ZID_STAT = putBit (s.rd Reg.ZID_STAT) 0 true := by
  rw [State.trigger_rd_eq, State.pinRecorded]
  simp (disch := decide) only [State.rd_onlyIf, State.rd_setBit, State.rd_count, State.rd_wr, if_neg, ite_self, if_true]

theorem State.trigger_irq : (s.trigger source i kind).rd Reg.ZID_IRQ = putBit (s.rd Reg.ZID_IRQ) 0 true := by
  rw [State.trigger_rd_eq, State.pinRecorded]
  simp (disch := decide) only [State.rd_onlyIf, State.rd_setBit, State.rd_count, State.rd_wr, if_neg, ite_self, if_true]

theorem State.trigger_ctrl : (s.trigger source i kind).rd Reg.ZID_FAULT_CTRL
    = if s.bit Reg.ZID_FAULT_CFG 16 then putBit (s.rd Reg.ZID_FAULT_CTRL) 0 true else s.rd Reg.ZID_FAULT_CTRL := by
  rw [State.trigger_rd_eq, State.pinRecorded]
  simp (disch := decide) only [State.bit_eq, State.rd_onlyIf, State.rd_setBit, State.rd_count, State.rd_wr, if_neg, ite_self, if_true]
  rfl

theorem State.trigger_keepsRegs : s.keepsRegs (s.trigger source i kind) pinRegs := fun b hb => State.trigger_rd s source i kind b hb

/-- MINW restarts from the present instant (R485). -/
theorem State.trigger_zid :
    (s.trigger source i kind).zid = { s.zid with minLeft := s.fld Reg.ZID_FAULT_CFG 0 12, trigAt := s.oscNs } := by
  have hcfg : (s.pinRecorded source i kind).rd Reg.ZID_FAULT_CFG = s.rd Reg.ZID_FAULT_CFG :=
    s.trigger_keepsRegs source i kind Reg.ZID_FAULT_CFG (by decide)
  have hzid : (s.pinRecorded source i kind).zid = s.zid :=
    (Keeps.only (k := 0) (fun _ h => State.setBit_keeps rfl h) (State.setBit_keeps rfl (State.setBit_keeps rfl (State.count_keeps rfl
      (State.wr_keeps rfl (Keeps.only (fun _ h => State.wr_keeps rfl h) (Keeps.refl s))))))).zid_same rfl
  rw [State.trigger_eq]
  simp only [State.fld_eq, hcfg, hzid]

end

theorem trigger_records (s : State) (source i : Nat) (kind : Bool) (hs : source < 256) (hi : i < 256) :
    let t := s.trigger source i kind
    let w : Word := BitVec.ofNat 32 (source + i * 2 ^ 8 + kind.toNat * 2 ^ 16)
    t.rd Reg.ZID_FAULT_FIRST = (if s.faultPhase = 0 then w else s.rd Reg.ZID_FAULT_FIRST) ∧ t.rd Reg.ZID_FAULT_LAST = w
      ∧ bitsOf (t.rd Reg.ZID_FAULT_LAST) 0 8 = source ∧ bitsOf (t.rd Reg.ZID_FAULT_LAST) 8 8 = i
      ∧ bitOf (t.rd Reg.ZID_FAULT_LAST) 16 = kind
      ∧ (t.rd Reg.ZID_CNT_FAULT).toNat = min 0xFFFFFFFF ((s.rd Reg.ZID_CNT_FAULT).toNat + 1)
      ∧ t.bit Reg.ZID_STAT 0 = true ∧ t.bit Reg.ZID_IRQ 0 = true
      ∧ (s.bit Reg.ZID_FAULT_CFG 16 = true → t.bit Reg.ZID_FAULT_CTRL 0 = true)
      ∧ (s.bit Reg.ZID_FAULT_CFG 16 = false → t.rd Reg.ZID_FAULT_CTRL = s.rd Reg.ZID_FAULT_CTRL)
      ∧ t.zid.minLeft = s.fld Reg.ZID_FAULT_CFG 0 12 ∧ s.keepsRegs t pinRegs ∧ s.keepsParts t [.zid] := by
  obtain ⟨hsource, hbit, hkind⟩ := triggerWord_fields kind hs hi
  intro t w
  have hlast : t.rd Reg.ZID_FAULT_LAST = triggerWord source i kind := s.trigger_last source i kind
  have hctrl := s.trigger_ctrl source i kind
  refine ⟨s.trigger_first source i kind, hlast, ?_, ?_, ?_, ?_, ?_, ?_, fun h => ?_, fun h => ?_, ?_, s.trigger_keepsRegs source i kind,
    (State.trigger_keeps (k := 256) rfl (Keeps.refl s)).parts _ (fun p => by cases p <;> decide)⟩
  · rw [hlast, hsource]
  · rw [hlast, hbit]
  · rw [hlast, hkind]
  · rw [s.trigger_count source i kind, satWordN_toNat]
  · rw [State.bit_eq, s.trigger_stat source i kind, bitOf_putBit_same _ _ _ (by decide)]
  · rw [State.bit_eq, s.trigger_irq source i kind, bitOf_putBit_same _ _ _ (by decide)]
  · rw [State.bit_eq, hctrl, if_pos h, bitOf_putBit_same _ _ _ (by decide)]
  · rw [hctrl, h, if_neg Bool.false_ne_true]
  · exact congrArg ZidState.minLeft (s.trigger_zid source i kind)

/-! ## Writes of ZID_FAULT_CTRL (R486, R487) -/

theorem State.faultCtrl_assert {s : State} {v : Word} (h : bitOf v 1 = true) :
    s.faultCtrl v = (s.trigger 0 0 true).setBit Reg.ZID_FAULT_CTRL 0 (bitOf v 0 || s.bit Reg.ZID_FAULT_CFG 16) := by
  unfold State.faultCtrl
  rw [h, Bool.true_and]
  rfl

theorem State.faultCtrl_hold {s : State} {v : Word} (h : bitOf v 1 = false) :
    s.faultCtrl v = s.setBit Reg.ZID_FAULT_CTRL 0 (bitOf v 0) := by
  unfold State.faultCtrl
  rw [h, Bool.false_and, Bool.or_false]
  rfl

theorem State.faultCtrl_assert_rd {s : State} {v : Word} (h : bitOf v 1 = true) {b : Nat} (hb : b ≠ Reg.ZID_FAULT_CTRL) :
    (s.faultCtrl v).rd b = (s.trigger 0 0 true).rd b := by
  rw [State.faultCtrl_assert h, State.rd_setBit, if_neg hb]

theorem assert_records (s : State) (slot : Nat) (v : Word) (h : bitOf v 1 = true) :
    (s.wordWrite slot [] (Reg.ZID_FAULT_CTRL, v)).rd Reg.ZID_FAULT_LAST = 0x10000#32 := by
  rw [State.wordWrite_faultCtrl, State.faultCtrl_assert_rd h (by decide), State.trigger_last]
  rfl

/-- Settles O57: the record of a trigger, and the one of an ASSERT. -/
theorem triggerRecords : Obligations.TriggerRecords := ⟨trigger_records, assert_records⟩

theorem bitOf_assertWord (hold : Bool) :
    bitOf (BitVec.ofNat 32 (hold.toNat + 2)) 1 = true ∧ bitOf (BitVec.ofNat 32 (hold.toNat + 2)) 0 = hold := by
  cases hold <;> decide

/-- Settles O56: a granted ASSERT is a trigger and sets HOLD after it. -/
theorem faultAssertTriggers : Obligations.FaultAssertTriggers := by
  intro src hold s hs hg
  obtain ⟨hassert, hhold⟩ := bitOf_assertWord hold
  have heff := (s.clearSent.wordWrite_faultCtrl src.slot.val (BitVec.ofNat 32 (hold.toNat + 2))).trans (State.faultCtrl_assert hassert)
  rw [hhold] at heff
  obtain ⟨t, ht, hok, hr, hw, hk⟩ := State.write1_answered (k := 8388939) hs hg (by decide) (by decide) heff (by decide)
    (State.setBit_keeps (k := 8388939) rfl (State.trigger_keeps rfl (Keeps.refl _)))
    (congrArg NvState.jobs ((State.trigger_keeps (k := 256) rfl (Keeps.refl s.clearSent)).nv_same rfl))
  have hset : ∀ b, b ≠ Reg.ZID_FAULT_CTRL → b ∉ answerRegs → t.rd b = (s.clearSent.trigger 0 0 true).rd b := fun b hb ha => by
    rw [hr b ha, State.rd_setBit, if_neg hb]
  have hzid : t.zid = (s.clearSent.trigger 0 0 true).zid := hw.zid_same rfl
  rw [State.trigger_zid] at hzid
  refine ⟨t, ht, hok, ?_, ?_, ?_, ?_, ?_, ?_, ?_, ?_, State.keepsRegs_answered (l := pinRegs) hr (fun b hb => ?_) (by decide),
    hk.parts _ (fun p => by cases p <;> decide)⟩
  · rw [hset _ (by decide) (by decide), State.trigger_last]
    rfl
  · rw [hset _ (by decide) (by decide), State.trigger_first]
    rfl
  · rw [hset _ (by decide) (by decide), State.trigger_count, satWordN_toNat, State.rd_clearSent]
  · rw [hset _ (by decide) (by decide), State.trigger_stat, State.rd_clearSent]
  · rw [hset _ (by decide) (by decide), State.trigger_irq, State.rd_clearSent]
  · rw [State.bit_eq, hr _ (by decide), State.rd_setBit, if_pos rfl, bitOf_putBit_same _ _ _ (by decide)]
    rfl
  · rw [hzid]
    rfl
  · rw [hzid]
    rfl
  · have hctrl : b ≠ Reg.ZID_FAULT_CTRL := fun e => absurd (e ▸ hb) (by decide)
    rw [State.rd_setBit, if_neg hctrl, State.trigger_rd _ _ _ _ _ hb, State.rd_clearSent]

/-! ## The interval, HOLD and the readback (R485, R486, R488, R490) -/

theorem exec_minwEnd {s : State} (hs : s.supplied) : exec .minwEnd s = .next s.clearSent.minwEnd :=
  show execMinwEnd s = _ from State.act_supplied hs

theorem minwEnd_ends (s : State) (hs : s.supplied) : ∃ t, exec .minwEnd s = .next t
    ∧ t.zid = (if s.reached (s.zid.trigAt + s.zid.minLeft * 1000000) then { s.zid with minLeft := 0 } else s.zid) ∧ t.regs = s.regs
    ∧ s.keepsParts t [.sent, .zid] := by
  have hk : Keeps 258 s s.clearSent.minwEnd := State.minwEnd_keeps rfl (State.clearSent_keeps rfl (Keeps.refl s))
  have hreach : s.clearSent.reached (s.clearSent.zid.trigAt + s.clearSent.zid.minLeft * 1000000)
      = s.reached (s.zid.trigAt + s.zid.minLeft * 1000000) := rfl
  refine ⟨_, exec_minwEnd hs, ?_, ?_, hk.parts _ (fun p => by cases p <;> decide)⟩
  all_goals
    unfold State.minwEnd
    rw [hreach]
    split <;> rfl

theorem bitOf_holdWord (hold : Bool) : bitOf (BitVec.ofNat 32 hold.toNat) 1 = false ∧ bitOf (BitVec.ofNat 32 hold.toNat) 0 = hold := by
  cases hold <;> decide

theorem holdWrite_holds (src : Src) (hold : Bool) (s : State) (hs : s.supplied)
    (hg : s.grants src Reg.ZID_FAULT_CTRL (BitVec.ofNat 32 hold.toNat)) :
    ∃ t, exec (.holdWrite src hold) s = .next t ∧ t.answer.status = .ok ∧ t.bit Reg.ZID_FAULT_CTRL 0 = hold
      ∧ s.keepsRegs t (Reg.ZID_FAULT_CTRL :: hostRegs) ∧ s.keepsParts t hostParts := by
  obtain ⟨hassert, hhold⟩ := bitOf_holdWord hold
  have heff := (s.clearSent.wordWrite_faultCtrl src.slot.val (BitVec.ofNat 32 hold.toNat)).trans (State.faultCtrl_hold hassert)
  rw [hhold] at heff
  obtain ⟨t, ht, hok, hr, -, hk⟩ := State.write1_answered (k := 8388683) hs hg (by decide) (by decide) heff (by decide)
    (State.setBit_keeps rfl (Keeps.refl _)) rfl
  refine ⟨t, ht, hok, ?_, State.keepsRegs_answered (l := [Reg.ZID_FAULT_CTRL]) hr (fun b hb => ?_) (by decide),
    hk.parts _ (fun p => by cases p <;> decide)⟩
  · rw [State.bit_eq, hr _ (by decide), State.rd_setBit, if_pos rfl, bitOf_putBit_same _ _ _ (by decide)]
  · rw [State.rd_setBit, if_neg (fun e => hb (List.mem_singleton.mpr e)), State.rd_clearSent]

theorem exec_pinReadback {s : State} (hs : s.supplied) (level : Bool) : exec (.pinReadback level) s = .next (s.clearSent.pinReadback level) :=
  show execPinReadback level s = _ from State.act_supplied hs

theorem State.pinReadback_low {s : State} (h : s.faultPhase ≠ 0) (level : Bool) :
    s.pinReadback level = { s with zid := { s.zid with lowReads := 0 } } := if_pos h

/-- The consecutive low readings after one that reads `level` (R488). -/
def State.lowCount (s : State) (level : Bool) : Nat := if (!level) != s.bit Reg.ZID_INJ 0 then s.zid.lowReads + 1 else 0

/-- A reading is kept, its injection bit has run. -/
def State.pinRead (s : State) (level : Bool) : State := (s.injRan Reg.ZID_INJ 0).setBit Reg.ZID_FAULT_STATE 4 level

theorem State.pinReadback_high {s : State} (h : s.faultPhase = 0) (level : Bool) :
    s.pinReadback level = ({ s.pinRead level with zid := { (s.pinRead level).zid with lowReads := min 2 (s.lowCount level) } } : State).onlyIf
      (2 ≤ s.lowCount level) (fun t => (t.setBit Reg.ZID_STAT 1 true).setBit Reg.ZID_IRQ 1 true) := if_neg (not_not.mpr h)

theorem State.pinReadback_rd {s : State} (h : s.faultPhase = 0) (level : Bool) (b : Nat) :
    (s.pinReadback level).rd b = if 2 ≤ s.lowCount level ∧ (b = Reg.ZID_STAT ∨ b = Reg.ZID_IRQ) then putBit (s.rd b) 1 true
      else (s.pinRead level).rd b := by
  have hread : ∀ z, ({ s.pinRead level with zid := z } : State).rd b = (s.pinRead level).rd b := fun _ => rfl
  have hkept : ∀ a, a = Reg.ZID_STAT ∨ a = Reg.ZID_IRQ → (s.pinRead level).rd a = s.rd a := by
    rintro a (rfl | rfl)
    all_goals rw [State.pinRead, State.rd_setBit, if_neg (by decide), State.injRan_rd _ _ _ _ (by decide) (by decide)]
  rw [State.pinReadback_high h, State.rd_onlyIf]
  by_cases hn : 2 ≤ s.lowCount level
  · rw [if_pos (decide_eq_true hn)]
    by_cases hirq : b = Reg.ZID_IRQ
    · subst hirq
      rw [if_pos ⟨hn, .inr rfl⟩, State.rd_setBit, if_pos rfl, State.rd_setBit, if_neg (by decide), hread, hkept _ (.inr rfl)]
    · rw [State.rd_setBit, if_neg hirq, State.rd_setBit]
      by_cases hstat : b = Reg.ZID_STAT
      · subst hstat
        rw [if_pos rfl, if_pos ⟨hn, .inl rfl⟩, hread, hkept _ (.inl rfl)]
      · rw [if_neg hstat, if_neg (fun g => g.2.elim hstat hirq), hread]
  · rw [if_neg (by simpa using hn), if_neg (fun g => hn g.1), hread]

theorem State.pinReadback_zid {s : State} (h : s.faultPhase = 0) (level : Bool) :
    (s.pinReadback level).zid = { s.zid with lowReads := min 2 (s.lowCount level) } := by
  have hz : (s.pinRead level).zid = s.zid := (State.injRan_keeps (k := 0) rfl (Keeps.refl s)).zid_same rfl
  rw [State.pinReadback_high h, ← hz]
  unfold State.onlyIf
  split <;> rfl

theorem pinReadback_driven (level : Bool) (s : State) (hs : s.supplied) (hp : s.faultPhase = 0) :
    ∃ t, exec (.pinReadback level) s = .next t
      ∧ (let low := (!level) != s.bit Reg.ZID_INJ 0
         let n := if low then s.zid.lowReads + 1 else 0
         t.zid = { s.zid with lowReads := min 2 n } ∧ t.bit Reg.ZID_FAULT_STATE 4 = level
         ∧ t.rd Reg.ZID_STAT = (if 2 ≤ n then putBit (s.rd Reg.ZID_STAT) 1 true else s.rd Reg.ZID_STAT)
         ∧ t.rd Reg.ZID_IRQ = (if 2 ≤ n then putBit (s.rd Reg.ZID_IRQ) 1 true else s.rd Reg.ZID_IRQ))
      ∧ t.bit Reg.ZID_INJ 0 = false
      ∧ s.keepsRegs t [Reg.ZID_FAULT_STATE, Reg.ZID_STAT, Reg.ZID_IRQ, Reg.ZID_INJ, Reg.ZID_CNT_INJ] ∧ s.keepsParts t [.sent, .zid] := by
  have hp' : s.clearSent.faultPhase = 0 := hp
  have hread : ∀ a, a ≠ Reg.ZID_FAULT_STATE → a ≠ Reg.ZID_INJ → a ≠ Reg.ZID_CNT_INJ → (s.clearSent.pinRead level).rd a = s.rd a :=
    fun a h1 h2 h3 => by rw [State.pinRead, State.rd_setBit, if_neg h1, State.injRan_rd _ _ _ _ h2 h3, State.rd_clearSent]
  have hk : Keeps 258 s (s.clearSent.pinReadback level) := State.pinReadback_keeps rfl (State.clearSent_keeps rfl (Keeps.refl s))
  refine ⟨_, exec_pinReadback hs level, ⟨State.pinReadback_zid hp' level, ?_, ?_, ?_⟩, ?_, fun b hb => ?_,
    hk.parts _ (fun p => by cases p <;> decide)⟩
  · rw [State.bit_eq, State.pinReadback_rd hp', if_neg (fun g => absurd g.2 (by decide)), State.pinRead, State.rd_setBit, if_pos rfl,
      bitOf_putBit_same _ _ _ (by decide)]
  · rw [State.pinReadback_rd hp', hread _ (by decide) (by decide) (by decide)]
    simp only [true_or, and_true]
    rfl
  · rw [State.pinReadback_rd hp', hread _ (by decide) (by decide) (by decide)]
    simp only [or_true, and_true]
    rfl
  · rw [State.bit_eq, State.pinReadback_rd hp', if_neg (fun g => absurd g.2 (by decide)), State.pinRead, State.rd_setBit, if_neg (by decide)]
    exact State.injRan_bit _ (by decide) (by decide)
  · simp only [List.mem_cons, List.not_mem_nil, or_false, not_or] at hb
    obtain ⟨hstate, hstat, hirq, hinj, hcnt⟩ := hb
    rw [State.pinReadback_rd hp', if_neg (fun g => g.2.elim hstat hirq), hread _ hstate hinj hcnt]

theorem pinReadback_pulledLow (level : Bool) (s : State) (hs : s.supplied) (hp : s.faultPhase ≠ 0) :
    ∃ t, exec (.pinReadback level) s = .next t ∧ t.zid = { s.zid with lowReads := 0 } ∧ t.regs = s.regs ∧ s.keepsParts t [.sent, .zid] := by
  have hlow := State.pinReadback_low (s := s.clearSent) hp level
  have hk : Keeps 258 s (s.clearSent.pinReadback level) := State.pinReadback_keeps rfl (State.clearSent_keeps rfl (Keeps.refl s))
  exact ⟨_, exec_pinReadback hs level, congrArg State.zid hlow, by rw [hlow]; rfl, hk.parts _ (fun p => by cases p <;> decide)⟩

/-- Settles O58: the end of the interval, HOLD as written, and the readback of the pin driven low or high. -/
theorem faultPinCommands : Obligations.FaultPinCommands := ⟨minwEnd_ends, holdWrite_holds, pinReadback_pulledLow, pinReadback_driven⟩

/-! ## ZID_CTRL (R482, R489) -/

/-- Registers that are all written 0. -/
theorem State.rd_zeroed (l : List Nat) (s : State) (b : Nat) :
    (s.forEach l (fun t a => t.wr a 0#32)).rd b = if b ∈ l then 0#32 else s.rd b := by
  unfold State.forEach
  induction l generalizing s with
  | nil => simp
  | cons a l ih =>
    rw [List.foldl_cons, ih, State.rd_wr]
    by_cases hl : b ∈ l
    · rw [if_pos hl, if_pos (List.mem_cons_of_mem _ hl)]
    · simp only [List.mem_cons, hl, or_false, if_false]

/-- LAP_INJ.ZC forgets the crossings that it has inverted. -/
def State.zcForgotten (s : State) : State := { s with lap := { s.lap with zcDone := 0 } }

theorem State.rd_zcForgotten (s : State) (b : Nat) : s.zcForgotten.rd b = s.rd b := rfl

/-- Every pending bit of every INJ register is cleared. -/
def State.injCleared (s : State) : State := (s.forEach injRegs (fun t a => t.wr a 0#32)).zcForgotten

theorem State.injCleared_rd (s : State) (b : Nat) : s.injCleared.rd b = if b ∈ injRegs then 0#32 else s.rd b := by
  rw [State.injCleared, State.rd_zcForgotten, State.rd_zeroed]

theorem State.injCleared_lap (s : State) : s.injCleared.lap = { s.lap with zcDone := 0 } := by
  have h : (s.forEach injRegs (fun t a => t.wr a 0#32)).lap = s.lap :=
    (Keeps.each (k := 0) (fun _ _ h => State.wr_keeps rfl h) (Keeps.refl s)).lap_same rfl
  exact congrArg (fun l : LapState => { l with zcDone := 0 }) h

theorem State.injCleared_keeps {k : Nat} {r s : State} (hk : k &&& 4 = 4) (h : Keeps k r s) : Keeps k r s.injCleared :=
  have h1 : Keeps k r (s.forEach injRegs (fun t a => t.wr a 0#32)) := Keeps.each (fun _ _ h => State.wr_keeps (keeps_sub hk rfl) h) h
  Keeps.set_lap hk (fun _ g => g.tick) h1

/-- What a write of INJEN does (R482). -/
def State.injenSet (s : State) (on : Bool) : State := (s.setBit Reg.ZID_CTRL 0 on).onlyIf (!on) State.injCleared

theorem State.zidCtrl_eq (s : State) (v : Word) : s.zidCtrl v = (s.injenSet (bitOf v 0)).onlyIf (bitOf v 8) State.ledTesting := by
  unfold State.zidCtrl State.injenSet State.injCleared State.zcForgotten
  cases bitOf v 0 <;> simp only [Bool.not_true, Bool.not_false, State.onlyIf_true, State.onlyIf_false]

theorem State.injenSet_rd (s : State) (on : Bool) (b : Nat) :
    (s.injenSet on).rd b = if on = false ∧ b ∈ injRegs then 0#32 else if b = Reg.ZID_CTRL then putBit (s.rd Reg.ZID_CTRL) 0 on else s.rd b := by
  unfold State.injenSet
  cases on <;> simp only [Bool.not_true, Bool.not_false, State.onlyIf_true, State.onlyIf_false, State.injCleared_rd, State.rd_setBit,
    true_and, Bool.true_eq_false, false_and, if_false]

theorem State.injenSet_keeps {k : Nat} {r s : State} (on : Bool) (hk : k &&& 4 = 4) (h : Keeps k r s) : Keeps k r (s.injenSet on) :=
  Keeps.only (fun _ h => State.injCleared_keeps hk h) (State.setBit_keeps (keeps_sub hk rfl) h)

theorem State.injenSet_lap (s : State) (on : Bool) : (s.injenSet on).lap = if on then s.lap else { s.lap with zcDone := 0 } := by
  cases on
  · exact State.injCleared_lap _
  · rfl

/-- The instant is that of the lap's tick and length, which the pending injections do not change. -/
theorem State.injenSet_oscNs (s : State) (on : Bool) : (s.injenSet on).oscNs = s.oscNs := by
  have hper : (s.injenSet on).rd Reg.LAP_PERIOD = s.rd Reg.LAP_PERIOD := by
    rw [State.injenSet_rd, if_neg (fun g => absurd g.2 (by decide)), if_neg (by decide)]
  have htsc : (s.injenSet on).tscNs = s.tscNs := (State.injenSet_keeps on rfl (Keeps.refl (k := 4) s)).tscNs_same rfl
  unfold State.oscNs State.lastLap
  rw [State.fld_eq, State.fld_eq, hper, htsc, State.injenSet_lap]
  cases on <;> rfl

/-- The registers that a write of INJEN may change. -/
def injenRegs (on : Bool) : List Nat := Reg.ZID_CTRL :: if on then [] else injRegs

theorem State.injenSet_other (s : State) {on : Bool} {b : Nat} (hb : b ∉ injenRegs on) : (s.injenSet on).rd b = s.rd b := by
  rw [injenRegs, List.mem_cons, not_or] at hb
  obtain ⟨hctrl, hinj⟩ := hb
  rw [State.injenSet_rd, if_neg (fun g => hinj (by rw [g.1]; exact g.2)), if_neg hctrl]

theorem injenRegs_answered (on : Bool) : ∀ b ∈ injenRegs on ++ answerRegs, b ∈ Reg.ZID_CTRL :: (hostRegs ++ if on then [] else injRegs) := by
  cases on <;> decide

/-- From the effect of a write of INJEN to the state after its request. -/
theorem State.injenSet_request {s w t : State} {on : Bool} (hw : ∀ b, w.rd b = (s.clearSent.injenSet on).rd b) (hr : ∀ b, b ∉ answerRegs → t.rd b = w.rd b) :
    t.bit Reg.ZID_CTRL 0 = on ∧ (on = false → ∀ a ∈ injRegs, t.rd a = 0#32)
      ∧ s.keepsRegs t (Reg.ZID_CTRL :: (hostRegs ++ if on then [] else injRegs)) := by
  refine ⟨?_, fun h a ha => ?_, State.keepsRegs_answered (l := injenRegs on) hr (fun b hb => ?_) (injenRegs_answered on)⟩
  · rw [State.bit_eq, hr _ (by decide), hw, State.injenSet_rd, if_neg (fun g => absurd g.2 (by decide)), if_pos rfl,
      bitOf_putBit_same _ _ _ (by decide)]
  · have hans : ∀ a ∈ injRegs, a ∉ answerRegs := by decide
    rw [hr a (hans a ha), hw, State.injenSet_rd, if_pos ⟨h, ha⟩]
  · rw [hw, State.injenSet_other _ hb, State.rd_clearSent]

theorem bitOf_ledtestWord (on : Bool) :
    bitOf (BitVec.ofNat 32 (on.toNat + 2 ^ 8)) 0 = on ∧ bitOf (BitVec.ofNat 32 (on.toNat + 2 ^ 8)) 8 = true := by
  cases on <;> decide

theorem bitOf_injenWord (on : Bool) : bitOf (BitVec.ofNat 32 on.toNat) 0 = on ∧ bitOf (BitVec.ofNat 32 on.toNat) 8 = false := by
  cases on <;> decide

theorem State.ledStat_test {s : State} (h : s.zid.ledTest = true) : s.ledStat = 0x35#32 := if_pos h

theorem ledtest_lights (src : Src) (injen : Bool) (s : State) (hs : s.supplied)
    (hg : s.grants src Reg.ZID_CTRL (BitVec.ofNat 32 (injen.toNat + 2 ^ 8))) :
    ∃ t, exec (.ledtest src injen) s = .next t ∧ t.answer.status = .ok ∧ t.zid = { s.zid with ledTest := true, ledAt := s.oscNs }
      ∧ t.ledStat = 0x35#32 ∧ t.bit Reg.ZID_CTRL 0 = injen ∧ (injen = false → ∀ a ∈ injRegs, t.rd a = 0#32)
      ∧ s.keepsRegs t (Reg.ZID_CTRL :: (hostRegs ++ if injen then [] else injRegs))
      ∧ t.lap = (if injen then s.lap else { s.lap with zcDone := 0 }) ∧ s.keepsParts t (.zid :: .lap :: hostParts) := by
  obtain ⟨hinjen, htest⟩ := bitOf_ledtestWord injen
  have heff := (s.clearSent.wordWrite_zidCtrl src.slot.val (BitVec.ofNat 32 (injen.toNat + 2 ^ 8))).trans (State.zidCtrl_eq _ _)
  rw [hinjen, htest, State.onlyIf_true] at heff
  have hset : Keeps 4 s.clearSent (s.clearSent.injenSet injen) := State.injenSet_keeps injen rfl (Keeps.refl _)
  obtain ⟨t, ht, hok, hr, hw, hk⟩ := State.write1_answered (k := 8388943) hs hg (by decide) (by decide) heff (by decide)
    (State.ledTesting_keeps rfl (hset.weaken rfl)) (congrArg NvState.jobs (hset.nv_same rfl))
  have hz : (s.clearSent.injenSet injen).ledTesting.zid = { s.zid with ledTest := true, ledAt := s.oscNs } := by
    rw [State.ledTesting, State.injenSet_oscNs, hset.zid_same rfl]
    rfl
  have hzid : t.zid = { s.zid with ledTest := true, ledAt := s.oscNs } := (hw.zid_same rfl).trans hz
  obtain ⟨hbit, hzero, hregs⟩ := State.injenSet_request (w := (s.clearSent.injenSet injen).ledTesting) (fun _ => rfl) hr
  have hlap : t.lap = _ := (hw.lap_same rfl).trans (State.injenSet_lap s.clearSent injen)
  exact ⟨t, ht, hok, hzid, State.ledStat_test (by rw [hzid]), hbit, hzero, hregs, hlap, hk.parts _ (fun p => by cases p <;> decide)⟩

theorem injenWrite_takes (src : Src) (injen : Bool) (s : State) (hs : s.supplied) (hg : s.grants src Reg.ZID_CTRL (BitVec.ofNat 32 injen.toNat)) :
    ∃ t, exec (.injenWrite src injen) s = .next t ∧ t.answer.status = .ok ∧ t.bit Reg.ZID_CTRL 0 = injen
      ∧ (injen = false → ∀ a ∈ injRegs, t.rd a = 0#32)
      ∧ s.keepsRegs t (Reg.ZID_CTRL :: (hostRegs ++ if injen then [] else injRegs))
      ∧ t.lap = (if injen then s.lap else { s.lap with zcDone := 0 }) ∧ s.keepsParts t (.lap :: hostParts) := by
  obtain ⟨hinjen, htest⟩ := bitOf_injenWord injen
  have heff := (s.clearSent.wordWrite_zidCtrl src.slot.val (BitVec.ofNat 32 injen.toNat)).trans (State.zidCtrl_eq _ _)
  rw [hinjen, htest, State.onlyIf_false] at heff
  have hset : Keeps 4 s.clearSent (s.clearSent.injenSet injen) := State.injenSet_keeps injen rfl (Keeps.refl _)
  obtain ⟨t, ht, hok, hr, hw, hk⟩ := State.write1_answered (k := 8388687) hs hg (by decide) (by decide) heff (by decide)
    (hset.weaken rfl) (congrArg NvState.jobs (hset.nv_same rfl))
  obtain ⟨hbit, hzero, hregs⟩ := State.injenSet_request (w := s.clearSent.injenSet injen) (fun _ => rfl) hr
  have hlap : t.lap = _ := (hw.lap_same rfl).trans (State.injenSet_lap s.clearSent injen)
  exact ⟨t, ht, hok, hbit, hzero, hregs, hlap, hk.parts _ (fun p => by cases p <;> decide)⟩

theorem exec_ledtestEnd {s : State} (hs : s.supplied) : exec .ledtestEnd s = .next s.clearSent.ledTestEnd :=
  show execLedtestEnd s = _ from State.act_supplied hs

theorem ledtestEnd_ends (s : State) (hs : s.supplied) : ∃ t, exec .ledtestEnd s = .next t
    ∧ t.zid = (if s.reached (s.zid.ledAt + 2000000000) then { s.zid with ledTest := false } else s.zid) ∧ t.regs = s.regs
    ∧ s.keepsParts t [.sent, .zid] := by
  have hk : Keeps 258 s s.clearSent.ledTestEnd := State.ledTestEnd_keeps rfl (State.clearSent_keeps rfl (Keeps.refl s))
  have hreach : s.clearSent.reached (s.clearSent.zid.ledAt + 2000000000) = s.reached (s.zid.ledAt + 2000000000) := rfl
  refine ⟨_, exec_ledtestEnd hs, ?_, ?_, hk.parts _ (fun p => by cases p <;> decide)⟩
  all_goals
    unfold State.ledTestEnd
    rw [hreach]
    split <;> rfl

/-- Settles O59: the LED test, its end, and the write of INJEN alone. -/
theorem ledTestAndInjectionEnable : Obligations.LedTestAndInjectionEnable := ⟨ledtest_lights, ledtestEnd_ends, injenWrite_takes⟩

end Sys2Proof.Machine

/-!
The spoor recorder: how it takes an event, its programs, windows, seconds and start scan, and the firmware's POST (R465 to R476),
which settle O53, O54 and O55.
-/

namespace Sys2Proof.Machine

/-! ## The frames sent play no part in recording an event -/

/-- The state with other frames sent. -/
def State.withSent (s : State) (l : List Frame) : State := { s with sent := l }

theorem State.clearSent_eq (s : State) : s.clearSent = s.withSent [] := rfl

section
variable (s : State) (l : List Frame)

theorem State.withSent_cond {c : Prop} [Decidable c] {a b : State} :
    (if c then a.withSent l else b.withSent l) = (if c then a else b).withSent l := by
  split <;> rfl

theorem State.withSent_onlyIf (c : Bool) {f : State → State} (hf : ∀ u : State, f (u.withSent l) = (f u).withSent l) :
    (s.withSent l).onlyIf c f = (s.onlyIf c f).withSent l := by
  cases c
  · rfl
  · exact hf s

theorem State.withSent_wr (a : Nat) (v : Word) : (s.withSent l).wr a v = (s.wr a v).withSent l := rfl
theorem State.withSent_setBit (a i : Nat) (b : Bool) : (s.withSent l).setBit a i b = (s.setBit a i b).withSent l := rfl
theorem State.withSent_count (a : Nat) : (s.withSent l).count a = (s.count a).withSent l := rfl

theorem State.withSent_pinRecorded (source i : Nat) (kind : Bool) :
    (s.withSent l).pinRecorded source i kind = (s.pinRecorded source i kind).withSent l := by
  unfold State.pinRecorded
  dsimp only
  rw [show (s.withSent l).faultPhase = s.faultPhase from rfl, State.withSent_onlyIf s l _ (fun _ => rfl)]
  generalize s.onlyIf (decide (s.faultPhase = 0)) _ = u
  rw [State.withSent_wr, State.withSent_count, State.withSent_setBit, State.withSent_setBit]
  exact State.withSent_onlyIf _ l _ (fun _ => rfl)

theorem State.withSent_trigger (source i : Nat) (kind : Bool) :
    (s.withSent l).trigger source i kind = (s.trigger source i kind).withSent l := by
  rw [State.trigger_eq, State.trigger_eq, State.withSent_pinRecorded]
  rfl

theorem State.withSent_irqAt (r e source i : Nat) : (s.withSent l).irqAt r e source i = (s.irqAt r e source i).withSent l := by
  unfold State.irqAt
  dsimp only
  rw [show (s.withSent l).setBit r i true = (s.setBit r i true).withSent l from rfl]
  exact State.withSent_onlyIf _ l _ (fun u => u.withSent_trigger l source i false)

theorem State.withSent_injRan (r i : Nat) : (s.withSent l).injRan r i = (s.injRan r i).withSent l := by
  unfold State.injRan
  rw [← State.withSent_cond]
  rfl

/-- The record that an event is appended as (R465, R468). -/
def State.nextRec (code sev : Nat) (data : List Byte) (opsec : Word) : SpoorRec :=
  ⟨code, sev, opsec, s.bootCount, s.spr.newest.elim 0 (fun q => (q.seq + 1) % 2 ^ 24), 0, (data ++ List.replicate 12 0#8).take 12,
    s.bit Reg.SPR_INJ 0 && !(s.spr.queue.any (fun q => q.bad))⟩

/-- The record is queued as the newest. -/
def State.queueRec (r : SpoorRec) : State := { s with spr := { s.spr with queue := s.spr.queue ++ [r], newest := some r } }

theorem State.appendRec_eq (code sev : Nat) (data : List Byte) (opsec : Word) :
    s.appendRec code sev data opsec = ((s.queueRec (s.nextRec code sev data opsec)).count Reg.SPR_CNT_REC).onlyIf
      (s.fld Reg.SPR_CTRL 0 3 ≤ sev) (fun u => u.irqSpr 1) := by
  unfold State.appendRec State.nextRec
  cases s.spr.newest <;> rfl

theorem State.withSent_appendRec (code sev : Nat) (data : List Byte) (opsec : Word) :
    (s.withSent l).appendRec code sev data opsec = (s.appendRec code sev data opsec).withSent l := by
  rw [State.appendRec_eq, State.appendRec_eq]
  exact State.withSent_onlyIf ((s.queueRec (s.nextRec code sev data opsec)).count Reg.SPR_CNT_REC) l _ (fun u => u.withSent_irqAt l _ _ _ _)

theorem State.withSent_rateAppended (i : Nat) : (s.withSent l).rateAppended i = (s.rateAppended i).withSent l := by
  unfold State.rateAppended
  rw [show (s.withSent l).rateWin i = s.rateWin i from rfl]
  split <;> rfl

theorem State.withSent_rateSuppressed (i : Nat) : (s.withSent l).rateSuppressed i = (s.rateSuppressed i).withSent l := by
  unfold State.rateSuppressed
  rw [show (s.withSent l).rateWin i = s.rateWin i from rfl]
  split <;> rfl

theorem State.withSent_mergeRec (opsec : Word) : (s.withSent l).mergeRec opsec = (s.mergeRec opsec).withSent l := by
  unfold State.mergeRec
  rw [show (s.withSent l).spr = s.spr from rfl]
  split <;> rfl

theorem State.withSent_forEach {α : Type} (xs : List α) {f : State → α → State} (hf : ∀ u x, f (State.withSent u l) x = (f u x).withSent l) :
    (s.withSent l).forEach xs f = (s.forEach xs f).withSent l := by
  unfold State.forEach
  induction xs generalizing s with
  | nil => rfl
  | cons x xs ih => rw [List.foldl_cons, List.foldl_cons, hf, ih]

theorem State.withSent_takeEvent (code sev : Nat) (data : List Byte) (opsec : Word) :
    (s.withSent l).takeEvent code sev data opsec = (s.takeEvent code sev data opsec).withSent l := by
  unfold State.takeEvent
  rw [show (s.withSent l).merges code sev data opsec = s.merges code sev data opsec from rfl,
    show (s.withSent l).rateEntries code = s.rateEntries code from rfl,
    show (fun i => (s.withSent l).rateFull i) = fun i => s.rateFull i from rfl]
  split
  · exact s.withSent_mergeRec l opsec
  · split
    · rw [State.withSent_rateSuppressed]
      rfl
    · rw [State.withSent_forEach _ _ _ (fun u x => u.withSent_rateAppended l x), State.withSent_appendRec]

theorem State.withSent_appendQovr : (s.withSent l).appendQovr = s.appendQovr.withSent l := by
  unfold State.appendQovr
  rw [← State.withSent_cond, ← State.withSent_appendRec]
  rfl

/-- One more event is dropped. -/
def State.dropOne : State := { s with spr := { s.spr with dropped := s.spr.dropped + 1 } }

theorem State.rd_dropOne (b : Nat) : s.dropOne.rd b = s.rd b := rfl

/-- An event is dropped while 64 wait (R468). -/
def State.dropEvent : State := ((s.dropOne.count Reg.SPR_CNT_QOVR).setBit Reg.SPR_STAT 2 true).irqSpr 2

theorem State.withSent_dropEvent : (s.withSent l).dropEvent = s.dropEvent.withSent l := by
  rw [State.dropEvent, show (s.withSent l).dropOne = s.dropOne.withSent l from rfl, State.withSent_count, State.withSent_setBit, State.irqSpr,
    State.withSent_irqAt]
  rfl

theorem State.withSent_raiseEv (code sev : Nat) (data : List Byte) :
    (s.withSent l).raiseEv code sev data = (s.raiseEv code sev data).withSent l := by
  unfold State.raiseEv
  rw [show (s.withSent l).spr = s.spr from rfl,
    show (s.withSent l).injTest Reg.SPR_INJ 1 (64 ≤ (s.withSent l).spoorWaiting) = s.injTest Reg.SPR_INJ 1 (64 ≤ s.spoorWaiting) from rfl,
    State.withSent_injRan]
  generalize s.injRan Reg.SPR_INJ 1 = u
  dsimp only
  split
  · rfl
  · split
    · change (u.withSent l).dropEvent.appendQovr = u.dropEvent.appendQovr.withSent l
      rw [State.withSent_dropEvent, State.withSent_appendQovr]
    · rw [show (u.withSent l).spr = u.spr from rfl]
      split
      · rw [show (u.withSent l).rd Reg.SPR_OPSEC = u.rd Reg.SPR_OPSEC from rfl, State.withSent_takeEvent]
      · rfl

theorem State.raiseEv_clearSent_spr (code sev : Nat) (data : List Byte) :
    (s.clearSent.raiseEv code sev data).spr = (s.raiseEv code sev data).spr := by
  rw [State.clearSent_eq, State.withSent_raiseEv]
  rfl

end

/-! ## Taking an event (R468, R469, R473) -/

section
variable (s : State) (code sev : Nat) (data : List Byte) (opsec : Word)

theorem State.appendRec_spr : (s.appendRec code sev data opsec).spr =
    { s.spr with queue := s.spr.queue ++ [s.nextRec code sev data opsec], newest := some (s.nextRec code sev data opsec) } := by
  rw [State.appendRec_eq]
  exact (Keeps.only (k := 256) (s := (s.queueRec (s.nextRec code sev data opsec)).count Reg.SPR_CNT_REC)
    (fun _ h => State.irqSpr_keeps rfl h) (Keeps.refl _)).spr_same rfl

theorem State.rd_queueRec (r : SpoorRec) (b : Nat) : (s.queueRec r).rd b = s.rd b := rfl

theorem State.appendRec_counts :
    (s.appendRec code sev data opsec).rd Reg.SPR_CNT_REC = satWordN ((s.rd Reg.SPR_CNT_REC).toNat + 1) := by
  rw [State.appendRec_eq]
  simp (disch := decide) only [State.rd_onlyIf, State.irqSpr, State.irqAt_rd, State.rd_count, State.rd_queueRec, if_neg, if_true, ite_self]

end

theorem State.dropEvent_spr (s : State) : s.dropEvent.spr = { s.spr with dropped := s.spr.dropped + 1 } :=
  (State.irqSpr_keeps (k := 256) rfl (Keeps.refl ((s.dropOne.count Reg.SPR_CNT_QOVR).setBit Reg.SPR_STAT 2 true))).spr_same rfl

section
variable {s : State} (hinj : s.bit Reg.SPR_INJ 1 = false)
include hinj

theorem State.injRan_disarmed : s.injRan Reg.SPR_INJ 1 = s := if_neg (by rw [hinj]; exact Bool.false_ne_true)

theorem State.injTest_disarmed (b : Bool) : s.injTest Reg.SPR_INJ 1 b = b := by rw [State.injTest, hinj, Bool.bne_false]

/-- While fewer than 64 wait, an open and ready recorder takes the event. -/
theorem State.raiseEv_ready (code sev : Nat) (data : List Byte) (ho : s.spr.closed = false) (hw : s.spoorWaiting < 64)
    (hr : s.spr.ready = true) : s.raiseEv code sev data = s.takeEvent code sev data (s.rd Reg.SPR_OPSEC) := by
  unfold State.raiseEv
  dsimp only
  rw [State.injRan_disarmed hinj, State.injTest_disarmed hinj, ho, hr, decide_eq_false (Nat.not_le.mpr hw)]
  rfl

/-- Before the start scan has ended it holds the event (R473). -/
theorem State.raiseEv_early (code sev : Nat) (data : List Byte) (ho : s.spr.closed = false) (hw : s.spoorWaiting < 64)
    (hr : s.spr.ready = false) :
    s.raiseEv code sev data = { s with spr := { s.spr with early := s.spr.early ++ [⟨code, sev, data, s.nat Reg.SPR_OPSEC⟩] } } := by
  unfold State.raiseEv
  dsimp only
  rw [State.injRan_disarmed hinj, State.injTest_disarmed hinj, ho, hr, decide_eq_false (Nat.not_le.mpr hw)]
  rfl

/-- While 64 wait it drops the event; the record of the drops waits for the queue to empty. -/
theorem State.raiseEv_full (code sev : Nat) (data : List Byte) (ho : s.spr.closed = false) (hw : 64 ≤ s.spoorWaiting) :
    s.raiseEv code sev data = s.dropEvent := by
  have hspr : s.dropEvent.spr = { s.spr with dropped := s.spr.dropped + 1 } := s.dropEvent_spr
  have hwait : s.dropEvent.spoorWaiting = s.spoorWaiting := by rw [State.spoorWaiting, hspr, State.spoorWaiting]
  have hqovr : s.dropEvent.appendQovr = s.dropEvent := by
    refine if_neg fun h => ?_
    simp only [Bool.and_eq_true, beq_iff_eq, hwait] at h
    omega
  unfold State.dropEvent State.dropOne at hqovr ⊢
  unfold State.raiseEv
  dsimp only
  rw [State.injRan_disarmed hinj, State.injTest_disarmed hinj, if_neg (by rw [ho]; exact Bool.false_ne_true), if_pos (decide_eq_true hw)]
  exact hqovr

end

theorem State.raiseEv_closed {s : State} (h : s.spr.closed = true) (code sev : Nat) (data : List Byte) : s.raiseEv code sev data = s :=
  if_pos h

theorem State.takeEvent_merges {s : State} {code sev : Nat} {data : List Byte} {opsec : Word} (h : s.merges code sev data opsec = true) :
    s.takeEvent code sev data opsec = s.mergeRec opsec := if_pos h

theorem State.merges_newest {s : State} {code sev : Nat} {data : List Byte} {opsec : Word} (h : s.merges code sev data opsec = true) :
    ∃ r, s.spr.newest = some r := by
  cases hn : s.spr.newest with
  | none =>
    rw [State.merges, hn] at h
    exact absurd h Bool.false_ne_true
  | some r => exact ⟨r, rfl⟩

/-- An event that neither merges nor is limited is appended (R468). -/
theorem State.takeEvent_appends {s : State} {code sev : Nat} {data : List Byte} {opsec : Word} (h : s.merges code sev data opsec = false)
    (hrate : s.bit Reg.SPR_CTRL 8 = false) : s.takeEvent code sev data opsec = s.appendRec code sev data opsec := by
  have he : s.rateEntries code = [] := if_neg (by rw [hrate]; exact Bool.false_ne_true)
  unfold State.takeEvent
  rw [h, he]
  rfl

/-- The spoor's state after a merge into its newest record `r` (R469, R470). -/
def State.mergedSpr (s : State) (r : SpoorRec) : SpoorState :=
  let r' := { r with rep := r.rep + 1 }
  if s.spr.queue.any (fun x => x.seq == r.seq) then
    { s.spr with newest := some r', queue := s.spr.queue.map (fun x => if x.seq == r.seq then r' else x) }
  else { s.spr with newest := some r', changed := r' :: s.spr.changed.filter (fun x => x.seq != r.seq) }

theorem State.mergeRec_some {s : State} {r : SpoorRec} (h : s.spr.newest = some r) (opsec : Word) :
    s.mergeRec opsec = (({ s with spr := s.mergedSpr r } : State).setFld Reg.SPR_HEADREP 16 16 opsec.toNat).count Reg.SPR_CNT_MERGE := by
  unfold State.mergeRec
  rw [h]
  rfl

theorem State.mergedSpr_facts (s : State) (r : SpoorRec) :
    (s.mergedSpr r).newest = some { r with rep := r.rep + 1 } ∧ (s.mergedSpr r).queue.length = s.spr.queue.length := by
  unfold State.mergedSpr
  dsimp only
  split
  · exact ⟨rfl, List.length_map _⟩
  · exact ⟨rfl, rfl⟩

/-- What a merge leaves. -/
theorem State.mergeRec_leaves {s : State} {r : SpoorRec} (h : s.spr.newest = some r) (opsec : Word) :
    (s.mergeRec opsec).spr.newest = some { r with rep := r.rep + 1 } ∧ (s.mergeRec opsec).spr.queue.length = s.spr.queue.length
      ∧ (s.mergeRec opsec).fld Reg.SPR_HEADREP 16 16 = opsec.toNat % 2 ^ 16
      ∧ ((s.mergeRec opsec).rd Reg.SPR_CNT_MERGE).toNat = min 0xFFFFFFFF ((s.rd Reg.SPR_CNT_MERGE).toNat + 1)
      ∧ s.keepsRegs (s.mergeRec opsec) [Reg.SPR_HEADREP, Reg.SPR_CNT_MERGE] := by
  have hrd (b : Nat) : ({ s with spr := s.mergedSpr r } : State).rd b = s.rd b := rfl
  obtain ⟨hnew, hlen⟩ := s.mergedSpr_facts r
  rw [State.mergeRec_some h]
  refine ⟨hnew, hlen, ?_, ?_, fun b hb => ?_⟩
  · rw [State.fld_eq, State.rd_count, if_neg (by decide), State.rd_setFld, if_pos rfl, bitsOf_putBits_same _ _ _ _ (by decide)]
  · rw [State.rd_count, if_pos rfl, State.rd_setFld, if_neg (by decide), hrd, satWordN_toNat]
  · simp only [List.mem_cons, List.not_mem_nil, or_false, not_or] at hb
    rw [State.rd_count, if_neg hb.2, State.rd_setFld, if_neg hb.1, hrd]

/-- Settles O54: closed, held, merged, appended or dropped. -/
theorem spoorTakesEvents : Obligations.SpoorTakesEvents := by
  intro s code sev data hinj t
  refine ⟨fun h => State.raiseEv_closed h code sev data, fun ho hw hr => ?_, fun ho hw hr hm => ?_, fun ho hw hr hm hrate => ?_, fun ho hw => ?_,
    fun b hb => State.raiseEv_rd s code sev data b hb,
    (State.raiseEv_keeps (k := 384) rfl (Keeps.refl s)).parts _ (fun p => by cases p <;> decide)⟩
  · have e : t = _ := State.raiseEv_early hinj code sev data ho hw hr
    rw [e]
    exact ⟨rfl, rfl⟩
  · obtain ⟨r, hn⟩ := State.merges_newest hm
    have e : t = s.mergeRec (s.rd Reg.SPR_OPSEC) := (State.raiseEv_ready hinj code sev data ho hw hr).trans (State.takeEvent_merges hm)
    rw [e, hn]
    exact State.mergeRec_leaves hn _
  · have e : t = s.appendRec code sev data (s.rd Reg.SPR_OPSEC) :=
      (State.raiseEv_ready hinj code sev data ho hw hr).trans (State.takeEvent_appends hm hrate)
    rw [e, State.appendRec_counts, satWordN_toNat]
    exact ⟨State.appendRec_spr s code sev data _, rfl⟩
  · have e : t = _ := State.raiseEv_full hinj code sev data ho hw
    rw [e]
    refine ⟨s.dropEvent_spr, ?_, ?_⟩
    · rw [State.dropEvent, State.irqSpr, State.irqAt_rd _ _ _ _ _ _ (by decide), if_neg (by decide), State.rd_setBit, if_neg (by decide),
        State.rd_count, if_pos rfl, State.rd_dropOne, satWordN_toNat]
    · rw [State.bit_eq, State.dropEvent, State.irqSpr, State.irqAt_rd _ _ _ _ _ _ (by decide), if_neg (by decide), State.rd_setBit, if_pos rfl,
        bitOf_putBit_same _ _ _ (by decide)]

/-! ## POST (R476) -/

/-- A register of commands: no field of it is kept, and only its block's rule judges a word of it. -/
def commandReg (a : Nat) : Bool :=
  simpleReg a && !needsImage a && !injAddrs.contains a && (fieldsAt a).all (fun f => f.acc != .rw && f.acc != .rws) && !nvBacked a
    && decide (0x46300 ≤ a)

theorem State.wordDeny_commandReg (s : State) (slot : Nat) {a : Nat} (v : Word) (h : commandReg a = true) :
    s.wordDeny slot a v = s.blockDeny slot a v := by
  simp only [commandReg, Bool.and_eq_true, Bool.not_eq_true', decide_eq_true_eq] at h
  obtain ⟨⟨⟨⟨⟨hsimple, himg⟩, hinj⟩, hfields⟩, hnv⟩, hlow⟩ := h
  have hacc : ∀ f ∈ fieldsAt a, (f.acc != .rw && f.acc != .rws) = true := List.all_eq_true.mp hfields
  have hdef : inDefaults s.img.defaults a v = true := by
    rw [inDefaults, List.filter_eq_nil_iff.mpr fun f hf => ?_]
    · rfl
    · have := hacc f hf
      revert this
      cases f.acc <;> decide
  have hper : inPermitted a v = true := by
    rw [inPermitted, Bool.and_eq_true]
    refine ⟨List.all_eq_true.mpr fun f hf => ?_, ?_⟩
    · have := hacc f hf
      revert this
      cases f.acc <;> simp
    · rw [filterBad, decide_eq_false (Nat.not_lt.mpr hlow)]
      simp
  have hgraph : s.inGraph a v = true := by
    have hnone : s.runImg.graphRange a = none := by
      have h1 : a ≠ Reg.DSP_CYCLE := fun e => absurd (e ▸ hlow) (by decide)
      have h2 : ¬ a < 0x12800 := by omega
      have h3 : ¬ a < 0x13800 := by omega
      simp [ImgBytes.graphRange, h1, h2, h3]
    rw [State.inGraph, hnone]
    split <;> rfl
  rw [State.wordDeny_simple _ _ _ _ hsimple, himg, hnv, State.injClosed, hinj, hdef, hper, hgraph]
  simp only [Bool.false_and, Bool.false_eq_true, if_false, Bool.not_true, Bool.and_false, Bool.or_false, denyIf, Option.map_none, busDenial, firstDenial]
  cases s.blockDeny slot a v <;> rfl

theorem bitOf_postWord (sev : BitVec 3) : bitOf (BitVec.ofNat 32 (1 + sev.toNat * 2 ^ 8)) 0 = true
    ∧ bitsOf (BitVec.ofNat 32 (1 + sev.toNat * 2 ^ 8)) 8 3 = sev.toNat := by
  revert sev
  decide

theorem State.wordDeny_post (s : State) (slot : Nat) (sev : BitVec 3) :
    s.wordDeny slot Reg.SPR_FW_CTRL (BitVec.ofNat 32 (1 + sev.toNat * 2 ^ 8))
      = if sev.toNat = 0 ∨ 4 < sev.toNat then some (.range, true) else if 64 ≤ s.spoorWaiting then some (.busy, true) else none := by
  obtain ⟨hpost, hsev⟩ := bitOf_postWord sev
  rw [s.wordDeny_commandReg slot _ (by decide), State.blockDeny, show blockOf Reg.SPR_FW_CTRL = some .spr from rfl]
  simp only [State.sprDeny, hpost, hsev, decide_true, Bool.and_self, if_true, Bool.or_eq_true, decide_eq_true_eq, ownDenial, denyIf]
  split_ifs <;> rfl

theorem State.post_of_bit (s : State) {v : Word} (h : bitOf v 0 = true) :
    s.post v = s.raiseEv (0xFF00 + s.fld Reg.SPR_FW_CODE 0 8) (bitsOf v 8 3)
      (bytesOfWords [s.rd (Reg.SPR_FW_DATA 0), s.rd (Reg.SPR_FW_DATA 1), s.rd (Reg.SPR_FW_DATA 2)]) := by
  unfold State.post
  rw [h]
  rfl

theorem post_granted (src : Src) (sev : BitVec 3) (s : State) (hs : s.supplied) (h1 : 1 ≤ sev.toNat) (h4 : sev.toNat ≤ 4)
    (hw : s.spoorWaiting < 64) :
    ∃ t, exec (.post src sev) s = .next t ∧ t.answer.status = .ok
      ∧ (let data := bytesOfWords [s.rd (Reg.SPR_FW_DATA 0), s.rd (Reg.SPR_FW_DATA 1), s.rd (Reg.SPR_FW_DATA 2)]
         t.spr = (s.raiseEv (0xFF00 + s.fld Reg.SPR_FW_CODE 0 8) sev.toNat data).spr)
      ∧ s.keepsRegs t (hostRegs ++ spoorRegs) ∧ s.keepsParts t (.spr :: .zid :: hostParts) := by
  obtain ⟨hpost, hsev⟩ := bitOf_postWord sev
  have hg : s.grants src Reg.SPR_FW_CTRL (BitVec.ofNat 32 (1 + sev.toNat * 2 ^ 8)) := by
    have hn : ¬ 64 ≤ s.clearSent.spoorWaiting := Nat.not_le.mpr hw
    rw [State.grants, State.wordDeny_post, if_neg (by omega), if_neg hn]
  have heff := (s.clearSent.wordWrite_post src.slot.val (BitVec.ofNat 32 (1 + sev.toNat * 2 ^ 8))).trans (State.post_of_bit _ hpost)
  rw [hsev] at heff
  obtain ⟨t, ht, hok, hr, hw, hk⟩ := State.write1_answered (k := 8389067) hs hg (by decide) (by decide) heff (by decide)
    (State.raiseEv_keeps rfl (Keeps.refl _)) (congrArg NvState.jobs ((State.raiseEv_keeps (k := 384) rfl (Keeps.refl _)).nv_same rfl))
  refine ⟨t, ht, hok, (hw.spr_same rfl).trans (State.raiseEv_clearSent_spr s _ _ _),
    State.keepsRegs_answered (l := spoorRegs) hr (fun b hb => State.raiseEv_rd _ _ _ _ b hb) (by decide),
    hk.parts _ (fun p => by cases p <;> decide)⟩

theorem State.wordRefused_spr (s : State) (slot : Nat) (v : Word) {st : Status} :
    s.wordRefused slot Reg.SPR_FW_CTRL v (st, true) = (s.count Reg.SPR_CNT_REFUSE).setBit Reg.SPR_STAT 4 true := by
  have hinj : injAddrs.contains Reg.SPR_FW_CTRL = false := by decide
  have hacc : hasAcc .rws Reg.SPR_FW_CTRL = false := by decide
  have hblock : s.blockRefused slot Reg.SPR_FW_CTRL v st = (s.count Reg.SPR_CNT_REFUSE).setBit Reg.SPR_STAT 4 true := by
    rw [State.blockRefused, show inNvWindow Reg.SPR_FW_CTRL = false by decide, show blockOf Reg.SPR_FW_CTRL = some .spr from rfl]
    rfl
  unfold State.wordRefused
  simp only [hinj, hacc, Bool.false_and, Bool.and_false, State.onlyIf_false, State.onlyIf_true, hblock]

theorem post_refused (src : Src) (sev : BitVec 3) (s : State) (hs : s.supplied) (h : sev.toNat = 0 ∨ 4 < sev.toNat ∨ 64 ≤ s.spoorWaiting) :
    ∃ t, exec (.post src sev) s = .next t
      ∧ t.answer.status = (if sev.toNat = 0 ∨ 4 < sev.toNat then .range else .busy)
      ∧ (t.rd Reg.SPR_CNT_REFUSE).toNat = min 0xFFFFFFFF ((s.rd Reg.SPR_CNT_REFUSE).toNat + 1) ∧ t.bit Reg.SPR_STAT 4 = true
      ∧ t.spr = s.spr ∧ s.keepsRegs t (Reg.SPR_CNT_REFUSE :: Reg.SPR_STAT :: refuseRegs) ∧ s.keepsParts t refuseParts := by
  have hd : s.clearSent.wordDeny src.slot.val Reg.SPR_FW_CTRL (BitVec.ofNat 32 (1 + sev.toNat * 2 ^ 8))
      = some (if sev.toNat = 0 ∨ 4 < sev.toNat then .range else .busy, true) := by
    rw [State.wordDeny_post]
    by_cases hr : sev.toNat = 0 ∨ 4 < sev.toNat
    · rw [if_pos hr, if_pos hr]
    · have hfull : 64 ≤ s.clearSent.spoorWaiting := h.elim (fun g => absurd (.inl g) hr) (fun g => g.elim (fun g => absurd (.inr g) hr) id)
      rw [if_neg hr, if_neg hr, if_pos hfull]
  have hcall : exec (.post src sev) s = .next (s.clearSent.write1 src Reg.SPR_FW_CTRL (BitVec.ofNat 32 (1 + sev.toNat * 2 ^ 8))) :=
    show execPost src sev s = _ from State.act_supplied hs
  have hend := State.write1_refused _ src _ _ _ hd
  rw [State.wordRefused_spr] at hend
  have hk : Keeps 8388931 s ((s.clearSent.count Reg.SPR_CNT_REFUSE).setBit Reg.SPR_STAT 4 true) :=
    State.setBit_keeps rfl (State.count_keeps rfl (State.clearSent_keeps rfl (Keeps.refl s)))
  have hregs := State.opRefused_keepsRegs ((s.clearSent.count Reg.SPR_CNT_REFUSE).setBit Reg.SPR_STAT 4 true) src 2
    (if sev.toNat = 0 ∨ 4 < sev.toNat then .range else .busy) 0#32
  refine ⟨_, hcall, ?_⟩
  rw [hend]
  refine ⟨by rw [State.opRefused_answer], ?_, ?_, (State.opRefused_keepsParts hk src 2 _ _).spr (by decide), fun b hb => ?_,
    State.opRefused_keepsParts hk src 2 _ _⟩
  · rw [hregs _ (by decide), State.rd_setBit, if_neg (by decide), State.rd_count, if_pos rfl, satWordN_toNat, State.rd_clearSent]
  · rw [State.bit_eq, hregs _ (by decide), State.rd_setBit, if_pos rfl, bitOf_putBit_same _ _ _ (by decide)]
  · simp only [List.mem_cons, not_or] at hb
    obtain ⟨hcnt, hstat, hrest⟩ := hb
    rw [hregs b (by simpa only [List.mem_cons, not_or] using hrest), State.rd_setBit, if_neg hstat, State.rd_count, if_neg hcnt, State.rd_clearSent]

/-- Settles O53: a POST is granted or refused. -/
theorem firmwarePost : Obligations.FirmwarePost := ⟨post_granted, post_refused⟩

end Sys2Proof.Machine

/-!
The spoor's page programs, rate windows, operating seconds and start scan (R465 to R473), which settle O55.
-/

namespace Sys2Proof.Machine

/-! ## The bytes of a record in the ring (R465, R467) -/

theorem length_leBytes (n v : Nat) : (leBytes n v).length = n := by rw [leBytes, List.length_map, List.length_range]

theorem length_padded (l : List Byte) (n : Nat) : ((l ++ List.replicate n 0#8).take n).length = n := by
  rw [List.length_take, List.length_append, List.length_replicate]
  omega

theorem SpoorRec.length_bytes (r : SpoorRec) : r.bytes.length = 32 := by
  simp only [SpoorRec.bytes, List.length_append, length_leBytes, length_padded]

theorem bytesAt_tabSetList (d : Byte) (t : Tab 8) (k : Nat) (l : List Byte) : bytesAt (tabGet d (tabSetList d t k l)) k l.length = l := by
  refine List.ext_getElem (by rw [bytesAt, List.length_map, List.length_range]) fun i hi hl => ?_
  simp only [bytesAt, List.getElem_map, List.getElem_range]
  rw [tabGet_tabSetList, if_pos ⟨Nat.le_add_right _ _, by omega⟩, Nat.add_sub_cancel_left, List.getD_eq_getElem _ _ hl]

/-- The ring with the record's bytes in its slot (R467). -/
def ringWith (ring : Tab 8) (r : SpoorRec) : Tab 8 := tabSetList 0xFF#8 ring (32 * (r.seq % 65536)) r.bytes

theorem slotBytes_ringWith (ring : Tab 8) (r : SpoorRec) : slotBytes (ringWith ring r) (r.seq % 65536) = r.bytes := by
  have h := bytesAt_tabSetList 0xFF#8 ring (32 * (r.seq % 65536)) r.bytes
  rw [r.length_bytes] at h
  exact h

/-! ## Putting a record (R467, R470) -/

section
variable (s : State) (r : SpoorRec) (first : Bool)

/-- The state whose ring holds the record. -/
def State.ringPut : State := { s with nv := { s.nv with ring := ringWith s.nv.ring r } }

theorem State.rd_ringPut (b : Nat) : (s.ringPut r).rd b = s.rd b := rfl

/-- The count of valid records after a record is put (R467). -/
def State.validAfter : Word :=
  BitVec.ofNat 32 (s.nat Reg.SPR_VALID + (recValid (slotBytes (ringWith s.nv.ring r) (r.seq % 65536))).toNat
    - (recValid (slotBytes s.nv.ring (r.seq % 65536))).toNat)

/-- The state before SPR_HEAD says whether the ring is empty. -/
def State.headPut : State := ((s.ringPut r).wr Reg.SPR_VALID (s.validAfter r)).onlyIf first (fun s => s.wr Reg.SPR_HEAD (BitVec.ofNat 32 r.seq))

theorem State.storeRec_eq : s.storeRec r first =
    (((s.headPut r first).setBit Reg.SPR_HEAD 31 ((s.headPut r first).rd Reg.SPR_VALID = 0#32)).onlyIf (first && r.bad)
      (fun s => s.injRan Reg.SPR_INJ 0)).irqSpr 0 := rfl

theorem State.headPut_nv : (s.headPut r first).nv = (s.ringPut r).nv := by
  cases first <;> rfl

theorem State.storeRec_nv : (s.storeRec r first).nv = { s.nv with ring := ringWith s.nv.ring r } := by
  have hk : Keeps 256 (s.headPut r first) (s.storeRec r first) :=
    State.irqSpr_keeps rfl (Keeps.only (fun _ h => State.injRan_keeps rfl h) (State.setBit_keeps rfl (Keeps.refl _)))
  rw [hk.nv_same rfl, State.headPut_nv]
  rfl

theorem State.storeRec_spr : (s.storeRec r first).spr = s.spr :=
  (State.storeRec_keeps (k := 288) rfl (Keeps.refl s)).spr_same rfl

theorem State.storeRec_head : bitsOf ((s.storeRec r first).rd Reg.SPR_HEAD) 0 31
    = bitsOf (if first then BitVec.ofNat 32 r.seq else s.rd Reg.SPR_HEAD) 0 31 := by
  have hput : (s.headPut r first).rd Reg.SPR_HEAD = if first then BitVec.ofNat 32 r.seq else s.rd Reg.SPR_HEAD := by
    cases first
    · exact State.rd_wr _ _ _ _
    · exact (State.rd_wr _ _ _ _).trans (if_pos rfl)
  rw [State.storeRec_eq, State.irqSpr, State.irqAt_rd _ _ _ _ _ _ (by decide), if_neg (by decide), State.rd_onlyIf,
    State.injRan_rd _ _ _ _ (by decide) (by decide), ite_self, State.rd_setBit, if_pos rfl, hput, putBit,
    bitsOf_putBits_apart _ _ _ _ _ _ (by decide) (.inl (by decide))]

theorem State.storeRec_irq : (s.storeRec r first).bit Reg.SPR_IRQ 0 = true := by
  rw [State.bit_eq, State.storeRec_eq, State.irqSpr, State.irqAt_rd _ _ _ _ _ _ (by decide), if_pos rfl, bitOf_putBit_same _ _ _ (by decide)]

end

theorem State.forEach_concat {α : Type} (s : State) (l : List α) (x : α) (f : State → α → State) :
    s.forEach (l ++ [x]) f = f (s.forEach l f) x := by
  rw [State.forEach, List.foldl_append]
  rfl

/-- Putting a page of records leaves what the recorder knows. -/
theorem State.storeRecs_spr (s : State) (l : List SpoorRec) : (s.forEach l (fun s x => s.storeRec x true)).spr = s.spr :=
  State.forEach_kept (fun u => u.spr) l _ (fun u x => u.storeRec_spr x true) s

/-- The last record put is in its slot, its SEQ in SPR_HEAD, and the interrupt is set. -/
theorem State.storeRecs_last (s : State) {l : List SpoorRec} {r : SpoorRec} (h : l.getLast? = some r) :
    let t := s.forEach l (fun s x => s.storeRec x true)
    slotBytes t.nv.ring (r.seq % 65536) = r.bytes ∧ bitsOf (t.rd Reg.SPR_HEAD) 0 31 = bitsOf (BitVec.ofNat 32 r.seq) 0 31
      ∧ t.bit Reg.SPR_IRQ 0 = true := by
  obtain ⟨front, rfl⟩ := List.getLast?_eq_some_iff.mp h
  dsimp only
  rw [State.forEach_concat]
  generalize s.forEach front _ = u
  rw [State.storeRec_nv, State.storeRec_head, State.storeRec_irq]
  exact ⟨slotBytes_ringWith u.nv.ring r, rfl, rfl⟩

/-! ## Page programs of the spoor (R427, R470) -/

theorem State.nvPage_snd (s : State) (c : Nat) (rb : ReadBack) : (s.nvPage c rb).2 = (s.injTest Reg.NVS_INJ 0 rb.first || rb.second) := by
  unfold State.nvPage
  cases s.injTest Reg.NVS_INJ 0 rb.first
  · cases rb.second <;> rfl
  · rfl

theorem State.nvPage_clearSent_snd (s : State) (c : Nat) (rb : ReadBack) : (s.clearSent.nvPage c rb).2 = (s.nvPage c rb).2 := by
  rw [State.nvPage_snd, State.nvPage_snd]
  rfl

theorem State.nvPage_failed_flagged {s : State} {c : Nat} {rb : ReadBack} (h : (s.nvPage c rb).2 = false) :
    (s.nvPage c rb).1.bit Reg.NVS_STAT 1 = true := by
  unfold State.nvPage at h ⊢
  dsimp only at h ⊢
  split_ifs at h ⊢
  rw [State.bit_eq, State.irqNvs, State.irqAt_rd _ _ _ _ _ _ (by decide), if_neg (by decide), State.rd_count, if_neg (by decide),
    State.rd_setBit, if_pos rfl, bitOf_putBit_same _ _ _ (by decide)]

theorem State.nvPage_spr_nv (s : State) (c : Nat) (rb : ReadBack) : (s.nvPage c rb).1.spr = s.spr ∧ (s.nvPage c rb).1.nv = s.nv :=
  have hk : Keeps 8388864 s (s.nvPage c rb).1 := State.nvPage_keeps rfl (Keeps.refl s)
  ⟨hk.spr_same rfl, hk.nv_same rfl⟩

theorem State.appendQovr_idle {s : State} (h : s.spr.dropped = 0) : s.appendQovr = s := if_neg (by simp [h])

/-- The state with the first `n` queued records off the queue. -/
def State.dequeue (s : State) (n : Nat) : State := { s with spr := { s.spr with queue := s.spr.queue.drop n } }

theorem State.programQueue_verified {s : State} {rb : ReadBack} (hm : s.nvMay 2 = true) (hq : s.spr.queue ≠ []) (hd : s.spr.dropped = 0)
    (hv : (s.nvPage classSpr rb).2 = true) : s.programQueue rb =
      ((s.nvPage classSpr rb).1.dequeue (pageOfQueue s.spr.queue).length).forEach (pageOfQueue s.spr.queue) (fun s x => s.storeRec x true) := by
  obtain ⟨hspr, -⟩ := s.nvPage_spr_nv classSpr rb
  have hempty : s.spr.queue.isEmpty = false := by rw [List.isEmpty_eq_false_iff]; exact hq
  have hidle := State.appendQovr_idle (s := ((s.nvPage classSpr rb).1.dequeue (pageOfQueue s.spr.queue).length).forEach (pageOfQueue s.spr.queue)
    (fun s x => s.storeRec x true)) (by rw [State.storeRecs_spr]; exact (congrArg SpoorState.dropped hspr).trans hd)
  unfold State.programQueue
  rw [hempty, hm]
  exact (if_pos hv).trans hidle

theorem State.programQueue_failed {s : State} {rb : ReadBack} (hm : s.nvMay 2 = true) (hq : s.spr.queue ≠ [])
    (hv : (s.nvPage classSpr rb).2 = false) : s.programQueue rb = (s.nvPage classSpr rb).1.nvFails 2 := by
  have hempty : s.spr.queue.isEmpty = false := by rw [List.isEmpty_eq_false_iff]; exact hq
  unfold State.programQueue
  rw [hempty, hm]
  have hn : ¬ (s.nvPage classSpr rb).2 = true := by rw [hv]; exact Bool.false_ne_true
  exact if_neg hn

/-- The state with other records due for reprogramming. -/
def State.withDue (s : State) (l : List SpoorRec) : State := { s with spr := { s.spr with due := l } }

theorem State.programDue_verified {s : State} {rb : ReadBack} {r : SpoorRec} {l : List SpoorRec} (hd : s.spr.due = r :: l)
    (hm : s.nvMay 2 = true) (hv : (s.nvPage classSpr rb).2 = true) :
    s.programDue rb = ((s.nvPage classSpr rb).1.withDue l).storeRec { r with bad := false } false := by
  unfold State.programDue
  rw [hd]
  exact (if_neg (by rw [hm]; exact Bool.false_ne_true)).trans (if_pos hv)

theorem spoorProgram_verified (rb : ReadBack) (s : State) (hs : s.supplied) (hm : s.nvMay 2 = true) (hq : s.spr.queue ≠ [])
    (hd : s.spr.dropped = 0) (hv : (s.nvPage classSpr rb).2 = true) :
    ∃ t, exec (.spoorProgram false rb) s = .next t
      ∧ t.spr.queue = s.spr.queue.drop (pageOfQueue s.spr.queue).length
      ∧ (∀ r, (pageOfQueue s.spr.queue).getLast? = some r → r.data.length = 12 →
          slotBytes t.nv.ring (r.seq % 65536) = r.bytes ∧ bitsOf (t.rd Reg.SPR_HEAD) 0 24 = r.seq % 2 ^ 24)
      ∧ t.bit Reg.SPR_IRQ 0 = true ∧ s.keepsParts t [.sent, .nv, .spr, .zid, .used] := by
  have hcall : exec (.spoorProgram false rb) s = .next (s.clearSent.programQueue rb) :=
    show execSpoorProgram false rb s = _ from State.act_supplied hs
  have hframe : s.keepsParts (s.clearSent.programQueue rb) [.sent, .nv, .spr, .zid, .used] :=
    (State.programQueue_keeps (k := 8389026) rfl (State.clearSent_keeps rfl (Keeps.refl s))).parts _ (fun p => by cases p <;> decide)
  refine ⟨_, hcall, ?_⟩
  rw [State.programQueue_verified (s := s.clearSent) hm hq hd ((s.nvPage_clearSent_snd _ _).trans hv)] at hframe ⊢
  have hspr : (s.clearSent.nvPage classSpr rb).1.spr = s.spr := (s.clearSent.nvPage_spr_nv classSpr rb).1
  have hpage : pageOfQueue s.clearSent.spr.queue ≠ [] := by
    rw [show s.clearSent.spr = s.spr from rfl]
    cases h : s.spr.queue with
    | nil => exact absurd h hq
    | cons r t => exact List.cons_ne_nil _ _
  obtain ⟨last, hlast⟩ := Option.isSome_iff_exists.mp (List.getLast?_isSome.mpr hpage)
  refine ⟨?_, fun r hr _ => ?_, (State.storeRecs_last _ hlast).2.2, hframe⟩
  · rw [State.storeRecs_spr]
    exact congrArg (fun p : SpoorState => p.queue.drop _) hspr
  · obtain ⟨hslot, hhead, -⟩ := State.storeRecs_last (l := pageOfQueue s.clearSent.spr.queue)
      ((s.clearSent.nvPage classSpr rb).1.dequeue (pageOfQueue s.clearSent.spr.queue).length) hr
    refine ⟨hslot, ?_⟩
    simp only [bitsOf, Nat.shiftRight_zero, BitVec.toNat_ofNat] at hhead ⊢
    omega

theorem spoorProgram_failed (rb : ReadBack) (s : State) (hs : s.supplied) (hm : s.nvMay 2 = true) (hq : s.spr.queue ≠ [])
    (hv : (s.nvPage classSpr rb).2 = false) :
    ∃ t, exec (.spoorProgram false rb) s = .next t ∧ t.bit Reg.NVS_STAT 1 = true ∧ t.nv = { s.nv with failed := 2 :: s.nv.failed }
      ∧ s.keepsParts t [.sent, .nv, .zid, .used] := by
  have hv' : (s.clearSent.nvPage classSpr rb).2 = false := (s.nvPage_clearSent_snd _ _).trans hv
  have hcall : exec (.spoorProgram false rb) s = .next (s.clearSent.programQueue rb) :=
    show execSpoorProgram false rb s = _ from State.act_supplied hs
  rw [State.programQueue_failed (s := s.clearSent) hm hq hv'] at hcall
  refine ⟨_, hcall, State.nvPage_failed_flagged hv', ?_, ?_⟩
  · exact congrArg (fun n : NvState => { n with failed := 2 :: n.failed }) (s.clearSent.nvPage_spr_nv classSpr rb).2
  · exact (State.nvFails_keeps (k := 8388898) rfl (State.nvPage_keeps rfl (State.clearSent_keeps rfl (Keeps.refl s)))).parts _
      (fun p => by cases p <;> decide)

theorem spoorProgram_idle (rb : ReadBack) (s : State) (hs : s.supplied) (h : s.spr.queue = [] ∨ s.nvMay 2 = false) :
    ∃ t, exec (.spoorProgram false rb) s = .next t ∧ t.regs = s.regs ∧ s.keepsParts t [.sent] := by
  have hcall : exec (.spoorProgram false rb) s = .next (s.clearSent.programQueue rb) :=
    show execSpoorProgram false rb s = _ from State.act_supplied hs
  have hidle : s.clearSent.programQueue rb = s.clearSent := by
    refine if_pos ?_
    rw [show s.clearSent.spr = s.spr from rfl, show s.clearSent.nvMay 2 = s.nvMay 2 from rfl]
    rcases h with h | h <;> simp [h]
  rw [hidle] at hcall
  exact ⟨_, hcall, rfl, (State.clearSent_keeps (k := 2) rfl (Keeps.refl s)).parts _ (fun p => by cases p <;> decide)⟩

theorem spoorProgram_due (rb : ReadBack) (s : State) (hs : s.supplied) (hm : s.nvMay 2 = true) (hv : (s.nvPage classSpr rb).2 = true)
    (r : SpoorRec) (l : List SpoorRec) (hd : s.spr.due = r :: l) :
    ∃ t, exec (.spoorProgram true rb) s = .next t ∧ t.spr = { s.spr with due := l }
      ∧ (r.data.length = 12 → slotBytes t.nv.ring (r.seq % 65536) = SpoorRec.bytes { r with bad := false })
      ∧ bitsOf (t.rd Reg.SPR_HEAD) 0 31 = bitsOf (s.rd Reg.SPR_HEAD) 0 31 ∧ s.keepsParts t [.sent, .nv, .spr, .zid, .used] := by
  have hcall : exec (.spoorProgram true rb) s = .next (s.clearSent.programDue rb) :=
    show execSpoorProgram true rb s = _ from State.act_supplied hs
  have hframe : s.keepsParts (s.clearSent.programDue rb) [.sent, .nv, .spr, .zid, .used] :=
    (State.programDue_keeps (k := 8389026) rfl (State.clearSent_keeps rfl (Keeps.refl s))).parts _ (fun p => by cases p <;> decide)
  have hspr : (s.clearSent.nvPage classSpr rb).1.spr = s.spr := (s.clearSent.nvPage_spr_nv classSpr rb).1
  have hhead : ((s.clearSent.nvPage classSpr rb).1.withDue l).rd Reg.SPR_HEAD = s.rd Reg.SPR_HEAD :=
    s.clearSent.nvPage_keepsRegs classSpr rb Reg.SPR_HEAD (by decide)
  refine ⟨_, hcall, ?_⟩
  rw [State.programDue_verified (s := s.clearSent) hd hm ((s.nvPage_clearSent_snd _ _).trans hv)] at hframe ⊢
  refine ⟨?_, fun _ => ?_, ?_, hframe⟩
  · rw [State.storeRec_spr]
    exact congrArg (fun p : SpoorState => { p with due := l }) hspr
  · rw [State.storeRec_nv]
    exact slotBytes_ringWith _ { r with bad := false }
  · rw [State.storeRec_head, hhead]
    rfl

/-! ## Rate windows and operating seconds (R471, R472) -/

/-- The state with the window of an entry closed. -/
def State.closeWindow (s : State) (i : Nat) : State :=
  { s with spr := { s.spr with windows := s.spr.windows.filter (fun x => x.entry != i) } }

theorem State.closeWindow_rateWin (s : State) (i : Nat) : (s.closeWindow i).rateWin i = none := by
  refine List.find?_eq_none.mpr fun w hw => ?_
  have h := (List.mem_filter.mp hw).2
  simpa using h

theorem State.rateWindowEnd_over {s : State} {i : Nat} {w : RateWin} (hw : s.rateWin i = some w) (ho : s.rateOver w = true) :
    s.rateWindowEnd i = (s.closeWindow i).onlyIf (0 < w.suppressed && !s.spr.closed) (fun t => t.appendRec 0x1804 2
      (leBytes 2 (s.fld (Reg.SPR_RATE_i i) 0 16) ++ [0#8, 0#8] ++ leBytes 4 w.suppressed) (t.rd Reg.SPR_OPSEC)) := by
  unfold State.rateWindowEnd
  rw [hw]
  exact if_neg (by rw [ho]; exact Bool.false_ne_true)

theorem rateWindowEnd_closes (entry : Fin 16) (s : State) (hs : s.supplied) (w : RateWin) (hw : s.rateWin entry.val = some w)
    (ho : s.rateOver w = true) :
    ∃ t, exec (.rateWindowEnd entry) s = .next t ∧ t.rateWin entry.val = none
      ∧ t.spr.queue.length = s.spr.queue.length + (if 0 < w.suppressed && !s.spr.closed then 1 else 0)
      ∧ s.keepsRegs t spoorRegs ∧ s.keepsParts t [.sent, .spr, .zid] := by
  have hcall : exec (.rateWindowEnd entry) s = .next (s.clearSent.rateWindowEnd entry.val) :=
    show execRateWindowEnd entry s = _ from State.act_supplied hs
  have hframe : s.keepsParts (s.clearSent.rateWindowEnd entry.val) [.sent, .spr, .zid] :=
    (State.rateWindowEnd_keeps (k := 386) rfl (State.clearSent_keeps rfl (Keeps.refl s))).parts _ (fun p => by cases p <;> decide)
  refine ⟨_, hcall, ?_⟩
  rw [State.rateWindowEnd_over (s := s.clearSent) hw ho] at hframe ⊢
  rw [show s.clearSent.spr = s.spr from rfl] at hframe ⊢
  cases hc : (decide (0 < w.suppressed) && !s.spr.closed) with
  | false => exact ⟨s.clearSent.closeWindow_rateWin entry.val, rfl, fun _ _ => rfl, hc ▸ hframe⟩
  | true =>
    rw [hc] at hframe
    refine ⟨?_, ?_, fun b hb => State.appendRec_rd _ _ _ _ _ b hb, hframe⟩
    · rw [State.onlyIf_true, State.rateWin, State.appendRec_spr]
      exact s.clearSent.closeWindow_rateWin entry.val
    · rw [State.onlyIf_true, State.appendRec_spr]
      exact List.length_append

theorem State.sramGet_sramPut (s : State) (o : Nat) (l : List Byte) (hf : s.bit Reg.NVS_WARM 2 = false) (hl : l ≠ []) :
    (s.sramPut o l).sramGet o l.length = l := by
  have hn : ¬ (s.bit Reg.NVS_WARM 2 || l.isEmpty) = true := by rw [hf]; simp [hl]
  rw [State.sramPut, if_neg hn, State.sramGet, State.nvRecord_nv]
  exact bytesAt_tabSetList _ _ _ _

theorem State.rd_sramPut (s : State) (o : Nat) (l : List Byte) (b : Nat) : (s.sramPut o l).rd b = s.rd b := by
  have hrec (u : State) (span : Nat × Nat) : (u.nvRecord span).rd b = u.rd b := by
    unfold State.nvRecord
    split <;> rfl
  unfold State.sramPut
  split
  · rfl
  · exact hrec _ _

theorem opsecTick_counts (s : State) (hs : s.supplied) : ∃ t, exec .opsecTick s = .next t ∧ t.rd Reg.SPR_OPSEC = s.rd Reg.SPR_OPSEC + 1#32
    ∧ (s.bit Reg.NVS_WARM 2 = false → t.sramGet opsecWarm 4 = leBytes 4 (s.rd Reg.SPR_OPSEC + 1#32).toNat)
    ∧ s.keepsRegs t [Reg.SPR_OPSEC] ∧ s.keepsParts t [.sent, .nv, .pair] := by
  have hcall : exec .opsecTick s = .next s.clearSent.opsecTick := show execOpsecTick s = _ from State.act_supplied hs
  refine ⟨_, hcall, ?_, fun hf => ?_, fun b hb => ?_,
    (State.opsecTick_keeps (k := 8226) rfl (State.clearSent_keeps rfl (Keeps.refl s))).parts _ (fun p => by cases p <;> decide)⟩
  · rw [State.opsecTick, State.rd_sramPut, State.rd_wr, if_pos rfl]
    rfl
  · have hlen := length_leBytes 4 (s.rd Reg.SPR_OPSEC + 1#32).toNat
    have h := State.sramGet_sramPut (s.clearSent.wr Reg.SPR_OPSEC (s.rd Reg.SPR_OPSEC + 1#32)) opsecWarm
      (leBytes 4 (s.rd Reg.SPR_OPSEC + 1#32).toNat) (by rw [State.bit_eq, State.rd_wr, if_neg (by decide)]; exact hf)
      (List.ne_nil_of_length_eq_add_one hlen)
    rw [hlen] at h
    exact h
  · rw [State.opsecTick, State.rd_sramPut, State.rd_wr, if_neg (List.ne_of_not_mem_cons hb)]
    rfl

/-! ## The start scan (R473) -/

section
variable (s : State) (code sev : Nat) (data : List Byte) (opsec : Word)

theorem State.putRateWin_waits (w : RateWin) : (s.putRateWin w).spr.ready = s.spr.ready ∧ (s.putRateWin w).spr.early = s.spr.early := ⟨rfl, rfl⟩

theorem State.rateAppended_waits (i : Nat) :
    (s.rateAppended i).spr.ready = s.spr.ready ∧ (s.rateAppended i).spr.early = s.spr.early := by
  unfold State.rateAppended
  split <;> exact State.putRateWin_waits _ _

theorem State.rateSuppressed_waits (i : Nat) :
    (s.rateSuppressed i).spr.ready = s.spr.ready ∧ (s.rateSuppressed i).spr.early = s.spr.early := by
  unfold State.rateSuppressed
  split
  · exact State.putRateWin_waits _ _
  · exact ⟨rfl, rfl⟩

theorem State.appendRec_waits : (s.appendRec code sev data opsec).spr.ready = s.spr.ready
    ∧ (s.appendRec code sev data opsec).spr.early = s.spr.early := by
  rw [State.appendRec_spr]
  exact ⟨rfl, rfl⟩

theorem State.mergeRec_waits : (s.mergeRec opsec).spr.ready = s.spr.ready ∧ (s.mergeRec opsec).spr.early = s.spr.early := by
  cases h : s.spr.newest with
  | none =>
    rw [State.mergeRec, h]
    exact ⟨rfl, rfl⟩
  | some r =>
    rw [State.mergeRec_some h]
    have hm : (s.mergedSpr r).ready = s.spr.ready ∧ (s.mergedSpr r).early = s.spr.early := by
      unfold State.mergedSpr
      dsimp only
      split <;> exact ⟨rfl, rfl⟩
    exact hm

/-- Taking an event leaves the events that waited for the start scan, and whether it has ended. -/
theorem State.takeEvent_waits : (s.takeEvent code sev data opsec).spr.ready = s.spr.ready
    ∧ (s.takeEvent code sev data opsec).spr.early = s.spr.early := by
  unfold State.takeEvent
  split
  · exact s.mergeRec_waits opsec
  · split
    · rename_i i _ _
      exact s.rateSuppressed_waits i
    · have hready := State.forEach_kept (fun u => u.spr.ready) (s.rateEntries code) State.rateAppended (fun u i => (u.rateAppended_waits i).1) s
      have hearly := State.forEach_kept (fun u => u.spr.early) (s.rateEntries code) State.rateAppended (fun u i => (u.rateAppended_waits i).2) s
      obtain ⟨h1, h2⟩ := State.appendRec_waits (s.forEach (s.rateEntries code) State.rateAppended) code sev data opsec
      exact ⟨h1.trans hready, h2.trans hearly⟩

end

theorem scanDone_ready (s : State) (hr : s.spr.ready = false) : s.scanDone.spr.ready = true ∧ s.scanDone.spr.early = []
    ∧ s.scanDone.rd Reg.SPR_VALID = BitVec.ofNat 32 (ringSeqs s.nv.ring).length := by
  unfold State.scanDone
  rw [if_neg (by rw [hr]; exact Bool.false_ne_true)]
  extract_lets ring cands newest bad stored base s1 s2 s3 s4 s5 early spr6 s6 s7
  have h6 : s6.spr.ready = true ∧ s6.spr.early = [] := ⟨rfl, rfl⟩
  have hrd6 (b : Nat) : s6.rd b = s5.rd b := rfl
  have h7 := s6.appendRec_waits 0x1801 1 (leBytes 4 (s.bit Reg.NVS_WARM 0).toNat ++ leBytes 4 bad) (s6.rd Reg.SPR_OPSEC)
  refine ⟨?_, ?_, ?_⟩
  · refine (State.forEach_kept (fun u => u.spr.ready) early _ (fun u e => (u.takeEvent_waits _ _ _ _).1) s7).trans (h7.1.trans h6.1)
  · refine (State.forEach_kept (fun u => u.spr.early) early _ (fun u e => (u.takeEvent_waits _ _ _ _).2) s7).trans (h7.2.trans h6.2)
  · have hwaiting : (s7.forEach early (fun s e => s.takeEvent e.code e.sev e.data (BitVec.ofNat 32 (base + e.opsec)))).rd Reg.SPR_VALID
        = s7.rd Reg.SPR_VALID := State.rd_forEach _ _ _ (fun u e => State.takeEvent_rd u _ _ _ _ _ (by decide)) s7
    rw [hwaiting, show s7.rd Reg.SPR_VALID = s6.rd Reg.SPR_VALID from State.appendRec_rd s6 _ _ _ _ _ (by decide), hrd6,
      State.rd_wr, if_neg (by decide), State.rd_wr, if_neg (by decide), State.rd_wr, if_pos rfl]

theorem spoorScanDone_ready (s : State) (hs : s.supplied) (hr : s.spr.ready = false) :
    ∃ t, exec .spoorScanDone s = .next t ∧ t.spr.ready = true ∧ t.spr.early = []
      ∧ t.rd Reg.SPR_VALID = BitVec.ofNat 32 (ringSeqs s.nv.ring).length ∧ s.keepsParts t [.sent, .spr, .zid] := by
  obtain ⟨hready, hearly, hvalid⟩ := scanDone_ready s.clearSent hr
  exact ⟨_, show execSpoorScanDone s = _ from State.act_supplied hs, hready, hearly, hvalid,
    (State.scanDone_keeps (k := 386) rfl (State.clearSent_keeps rfl (Keeps.refl s))).parts _ (fun p => by cases p <;> decide)⟩

theorem spoorScanDone_again (s : State) (hs : s.supplied) (hr : s.spr.ready = true) :
    ∃ t, exec .spoorScanDone s = .next t ∧ t.regs = s.regs ∧ s.keepsParts t [.sent] := by
  have hcall : exec .spoorScanDone s = .next s.clearSent.scanDone := show execSpoorScanDone s = _ from State.act_supplied hs
  have hidle : s.clearSent.scanDone = s.clearSent := if_pos hr
  rw [hidle] at hcall
  exact ⟨_, hcall, rfl, (State.clearSent_keeps (k := 2) rfl (Keeps.refl s)).parts _ (fun p => by cases p <;> decide)⟩

/-- Settles O55: the commands of the spoor. -/
theorem spoorCommands : Obligations.SpoorCommands :=
  ⟨spoorProgram_verified, spoorProgram_failed, spoorProgram_idle, spoorProgram_due, rateWindowEnd_closes, opsecTick_counts,
    spoorScanDone_ready, spoorScanDone_again⟩

end Sys2Proof.Machine

/-!
The calendar: its seconds, loads and summer time, its frozen copies, its rate trim and setting from network time, its wakes and its
battery (R445 to R464), which settle O49, O50, O51 and O52.
-/

namespace Sys2Proof.Machine

/-! ## Seconds, loads and summer time (R445 to R451) -/

section
variable (s : State)

theorem State.putCal'_rd (c : Cal) (d : Bool) (b : Nat) : (s.putCal' c d).rd b
    = if b = Reg.RTC_DATE then dateWord c else if b = Reg.RTC_TIME then timeWord c d else s.rd b := by
  rw [State.putCal', State.rd_wr, State.rd_wr]

theorem State.putCal'_apart (c : Cal) (d : Bool) {b : Nat} (ht : b ≠ Reg.RTC_TIME) (hd : b ≠ Reg.RTC_DATE) :
    (s.putCal' c d).rd b = s.rd b := by
  rw [State.putCal'_rd, if_neg hd, if_neg ht]

theorem State.putCal'_time (c : Cal) (d : Bool) : (s.putCal' c d).rd Reg.RTC_TIME = timeWord c d := by
  rw [State.putCal'_rd, if_neg (by decide), if_pos rfl]

theorem State.putCal'_date (c : Cal) (d : Bool) : (s.putCal' c d).rd Reg.RTC_DATE = dateWord c := by
  rw [State.putCal'_rd, if_pos rfl]

theorem State.subsecZero_rd (b : Nat) : s.subsecZero.rd b = s.rd b := rfl
theorem State.subsecZero_rtc : s.subsecZero.rtc = { s.rtc with carryAt := s.oscAt 0 } := rfl

theorem State.windowSecond_rd (b : Nat) : s.windowSecond.rd b = s.rd b := rfl
theorem State.windowSecond_rtc : s.windowSecond.rtc = { s.rtc with winSec := (s.rtc.winSec + 1) % s.trimSecs } := rfl

theorem State.calendar_clearSent : s.clearSent.calendar = s.calendar := rfl
theorem State.dst_clearSent : s.clearSent.dst = s.dst := rfl
theorem State.oscAt_clearSent (n : Nat) : s.clearSent.oscAt n = s.oscAt n := rfl
theorem State.trimSecs_clearSent : s.clearSent.trimSecs = s.trimSecs := rfl
theorem State.rtc_clearSent : s.clearSent.rtc = s.rtc := rfl

section
variable {s}

/-- The instant of the present tick hangs on LAP_PERIOD alone among the registers. -/
theorem State.oscAt_kept {k : Nat} {t : State} (h : Keeps k s t) (hl : k.testBit 2 = false) (ht : k.testBit 22 = false)
    (hp : t.rd Reg.LAP_PERIOD = s.rd Reg.LAP_PERIOD) (n : Nat) : t.oscAt n = s.oscAt n := by
  rw [State.oscAt, State.oscAt, State.lastLap, State.lastLap, State.fld_eq, State.fld_eq, hp, h.lap_same hl, h.tscNs_same ht]

theorem State.trimSecs_kept {t : State} (h : t.rd Reg.RTC_TRIM_CTRL = s.rd Reg.RTC_TRIM_CTRL) : t.trimSecs = s.trimSecs := by
  rw [State.trimSecs, State.trimSecs, State.fld_eq, State.fld_eq, h]

end

theorem State.putCal'_oscAt (c : Cal) (d : Bool) (n : Nat) : (s.putCal' c d).oscAt n = s.oscAt n :=
  State.oscAt_kept (State.putCal'_keeps (k := 0) rfl (Keeps.refl s)) rfl rfl (s.putCal'_apart c d (by decide) (by decide)) n

theorem State.putCal'_rtc (c : Cal) (d : Bool) : (s.putCal' c d).rtc = s.rtc :=
  (State.putCal'_keeps (k := 0) rfl (Keeps.refl s)).rtc_same rfl

/-- The calendar one second further, with its prescaler and its trim window (R445, R456). -/
def State.nextSecond : State := ((s.putCal' (calOf (s.calendar.secs + 1)) s.dst).subsecZero).windowSecond

theorem State.secondCarry_eq : s.secondCarry = s.nextSecond.onlyIf (s.boot.phase != .off) (fun s => s.irqRtc 1) := rfl

theorem State.nextSecond_rd (b : Nat) : s.nextSecond.rd b = (s.putCal' (calOf (s.calendar.secs + 1)) s.dst).rd b := by
  rw [State.nextSecond, State.windowSecond_rd, State.subsecZero_rd]

theorem State.nextSecond_rtc : s.nextSecond.rtc = { s.rtc with carryAt := s.oscAt 0, winSec := (s.rtc.winSec + 1) % s.trimSecs } := by
  have hsecs : (s.putCal' (calOf (s.calendar.secs + 1)) s.dst).subsecZero.trimSecs = s.trimSecs :=
    State.trimSecs_kept (by rw [State.subsecZero_rd, s.putCal'_apart _ _ (by decide) (by decide)])
  rw [State.nextSecond, State.windowSecond_rtc, hsecs, State.subsecZero_rtc, State.putCal'_oscAt, State.putCal'_rtc]

theorem State.nextSecond_keeps {k : Nat} {r : State} (hk : k &&& 2097152 = 2097152) (h : Keeps k r s) : Keeps k r s.nextSecond :=
  State.windowSecond_keeps hk (State.subsecZero_keeps hk (State.putCal'_keeps (keeps_sub hk rfl) h))

end

theorem exec_secondCarry (s : State) :
    exec .secondCarry s = .next (if s.boot.phase = .off then s.secondCarry else s.clearSent.secondCarry) := rfl

theorem secondCarry_supplied (s : State) (hs : s.supplied) : ∃ t, exec .secondCarry s = .next t
    ∧ t.rd Reg.RTC_TIME = timeWord (calOf (s.calendar.secs + 1)) s.dst ∧ t.rd Reg.RTC_DATE = dateWord (calOf (s.calendar.secs + 1))
    ∧ t.rtc = { s.rtc with carryAt := s.oscAt 0, winSec := (s.rtc.winSec + 1) % s.trimSecs } ∧ t.bit Reg.RTC_IRQ 1 = true
    ∧ s.keepsRegs t (Reg.RTC_TIME :: Reg.RTC_DATE :: Reg.RTC_IRQ :: pinRegs) ∧ s.keepsParts t [.sent, .zid, .rtc] := by
  have hcall : exec .secondCarry s = .next (s.clearSent.nextSecond.irqRtc 1) := by
    have hc : (s.clearSent.boot.phase != .off) = true := bne_iff_ne.mpr hs
    rw [exec_secondCarry, if_neg hs, State.secondCarry_eq, hc, State.onlyIf_true]
  have hnext (b : Nat) (hirq : b ≠ Reg.RTC_IRQ) (hp : b ∉ pinRegs) : (s.clearSent.nextSecond.irqRtc 1).rd b = s.clearSent.nextSecond.rd b := by
    rw [State.irqRtc, State.irqAt_rd _ _ _ _ _ _ hp, if_neg hirq]
  refine ⟨_, hcall, ?_, ?_, ?_, ?_, fun b hb => ?_, ?_⟩
  · rw [hnext _ (by decide) (by decide), State.nextSecond_rd, State.putCal'_time, State.calendar_clearSent, State.dst_clearSent]
  · rw [hnext _ (by decide) (by decide), State.nextSecond_rd, State.putCal'_date, State.calendar_clearSent]
  · rw [(State.irqRtc_keeps (k := 256) rfl (Keeps.refl s.clearSent.nextSecond)).rtc_same rfl, State.nextSecond_rtc, State.oscAt_clearSent,
      State.trimSecs_clearSent, State.rtc_clearSent]
  · rw [State.bit_eq, State.irqRtc, State.irqAt_rd _ _ _ _ _ _ (by decide), if_pos rfl, bitOf_putBit_same _ _ _ (by decide)]
  · simp only [List.mem_cons, not_or] at hb
    obtain ⟨ht, hd, hirq, hp⟩ := hb
    rw [hnext b hirq hp, State.nextSecond_rd, State.putCal'_apart _ _ _ ht hd, State.rd_clearSent]
  · have hk : Keeps 2097410 s (s.clearSent.nextSecond.irqRtc 1) :=
      State.irqRtc_keeps rfl (State.nextSecond_keeps _ rfl (State.clearSent_keeps rfl (Keeps.refl s)))
    exact hk.parts _ (fun p => by cases p <;> decide)

theorem secondCarry_off (s : State) (h : s.boot.phase = Phase.off) : ∃ t, exec .secondCarry s = .next t
    ∧ t.rd Reg.RTC_TIME = timeWord (calOf (s.calendar.secs + 1)) s.dst ∧ t.rd Reg.RTC_DATE = dateWord (calOf (s.calendar.secs + 1))
    ∧ t.rtc = { s.rtc with carryAt := s.oscAt 0, winSec := (s.rtc.winSec + 1) % s.trimSecs }
    ∧ s.keepsRegs t [Reg.RTC_TIME, Reg.RTC_DATE] ∧ s.keepsParts t [.rtc] := by
  have hcall : exec .secondCarry s = .next s.nextSecond := by
    have hc : (s.boot.phase != .off) = false := by rw [h]; rfl
    rw [exec_secondCarry, if_pos h, State.secondCarry_eq, hc, State.onlyIf_false]
  refine ⟨_, hcall, ?_, ?_, s.nextSecond_rtc, fun b hb => ?_,
    (s.nextSecond_keeps (k := 2097152) rfl (Keeps.refl s)).parts _ (fun p => by cases p <;> decide)⟩
  · rw [State.nextSecond_rd, State.putCal'_time]
  · rw [State.nextSecond_rd, State.putCal'_date]
  · simp only [List.mem_cons, List.not_mem_nil, or_false, not_or] at hb
    rw [State.nextSecond_rd, State.putCal'_apart _ _ _ hb.1 hb.2]

section
variable (s : State) (slot : Nat)

theorem State.rtcCtrl_eq (v : Word) : s.rtcCtrl slot v = (((s.onlyIf (bitOf v 0) (fun t => (t.injRan Reg.RTC_INJ 0).loadCal)).onlyIf (bitOf v 1)
    (fun t => t.dstMove true)).onlyIf (bitOf v 2) (fun t => t.dstMove false)).onlyIf (bitOf v 3) (fun t => t.freezeEnd slot) := rfl

theorem State.rtcCtrl_load : s.rtcCtrl slot 1#32 = (s.injRan Reg.RTC_INJ 0).loadCal := by
  rw [State.rtcCtrl_eq, show bitOf 1#32 0 = true by decide, show bitOf 1#32 1 = false by decide, show bitOf 1#32 2 = false by decide,
    show bitOf 1#32 3 = false by decide, State.onlyIf_true, State.onlyIf_false, State.onlyIf_false, State.onlyIf_false]

theorem State.rtcCtrl_dstfwd : s.rtcCtrl slot 2#32 = s.dstMove true := by
  rw [State.rtcCtrl_eq, show bitOf 2#32 0 = false by decide, show bitOf 2#32 1 = true by decide, show bitOf 2#32 2 = false by decide,
    show bitOf 2#32 3 = false by decide, State.onlyIf_false, State.onlyIf_true, State.onlyIf_false, State.onlyIf_false]

theorem State.rtcCtrl_dstback : s.rtcCtrl slot 4#32 = s.dstMove false := by
  rw [State.rtcCtrl_eq, show bitOf 4#32 0 = false by decide, show bitOf 4#32 1 = false by decide, show bitOf 4#32 2 = true by decide,
    show bitOf 4#32 3 = false by decide, State.onlyIf_false, State.onlyIf_false, State.onlyIf_true, State.onlyIf_false]

theorem State.rtcCtrl_release : s.rtcCtrl slot 8#32 = s.freezeEnd slot := by
  rw [State.rtcCtrl_eq, show bitOf 8#32 0 = false by decide, show bitOf 8#32 1 = false by decide, show bitOf 8#32 2 = false by decide,
    show bitOf 8#32 3 = true by decide, State.onlyIf_false, State.onlyIf_false, State.onlyIf_false, State.onlyIf_true]

end

/-- The staged time with the weekday of its date (R447, R449). -/
def stagedTime (t d : Word) : Word := putBits t 24 3 (weekDay (dayNumber (calIn t d).year (calIn t d).month (calIn t d).day))

/-- The state with the staged time and date in the calendar. -/
def State.loadPut (s : State) : State :=
  (s.wr Reg.RTC_TIME (stagedTime (s.rd Reg.RTC_SET_TIME) (s.rd Reg.RTC_SET_DATE))).wr Reg.RTC_DATE (s.rd Reg.RTC_SET_DATE)

theorem State.loadCal_eq (s : State) : s.loadCal = s.loadPut.subsecZero := rfl

theorem State.loadCal_rd (s : State) (b : Nat) : s.loadCal.rd b = if b = Reg.RTC_DATE then s.rd Reg.RTC_SET_DATE
    else if b = Reg.RTC_TIME then stagedTime (s.rd Reg.RTC_SET_TIME) (s.rd Reg.RTC_SET_DATE) else s.rd b := by
  rw [State.loadCal_eq, State.subsecZero_rd, State.loadPut, State.rd_wr, State.rd_wr]

theorem State.loadCal_rtc (s : State) : s.loadCal.rtc = { s.rtc with carryAt := s.oscAt 0 } := by
  have hk : Keeps 0 s s.loadPut := State.wr_keeps rfl (State.wr_keeps rfl (Keeps.refl s))
  have hp : s.loadPut.rd Reg.LAP_PERIOD = s.rd Reg.LAP_PERIOD := by
    rw [State.loadPut, State.rd_wr, if_neg (by decide), State.rd_wr, if_neg (by decide)]
  rw [State.loadCal_eq, State.subsecZero_rtc, State.oscAt_kept hk rfl rfl hp, hk.rtc_same rfl]

/-- After its test has run an injection bit is clear (R483). -/
theorem State.injRan_clear (s : State) {r i : Nat} (hi : i < 32) (hr : r ≠ Reg.ZID_CNT_INJ) : (s.injRan r i).bit r i = false := by
  unfold State.injRan
  split
  · rw [State.bit_eq, State.rd_count, if_neg hr, State.rd_setBit, if_pos rfl, bitOf_putBit_same _ _ _ hi]
  · exact Bool.eq_false_iff.mpr ‹_›

theorem State.injRan_oscAt (s : State) (r i n : Nat) (hr : r ≠ Reg.LAP_PERIOD) : (s.injRan r i).oscAt n = s.oscAt n :=
  State.oscAt_kept (State.injRan_keeps (k := 0) rfl (Keeps.refl s)) rfl rfl (State.injRan_rd s r i _ hr.symm (by decide)) n

theorem rtcLoad_loads (src : Src) (s : State) (hs : s.supplied) (hg : s.grants src Reg.RTC_CTRL 1#32) : ∃ t, exec (.rtcLoad src) s = .next t
    ∧ t.answer.status = .ok ∧ t.rd Reg.RTC_DATE = s.rd Reg.RTC_SET_DATE
    ∧ (let c := calIn (s.rd Reg.RTC_SET_TIME) (s.rd Reg.RTC_SET_DATE)
       t.rd Reg.RTC_TIME = putBits (s.rd Reg.RTC_SET_TIME) 24 3 (weekDay (dayNumber c.year c.month c.day)))
    ∧ t.rtc = { s.rtc with carryAt := s.oscAt 0 } ∧ t.bit Reg.RTC_INJ 0 = false
    ∧ s.keepsRegs t (Reg.RTC_TIME :: Reg.RTC_DATE :: Reg.RTC_INJ :: hostRegs) ∧ s.keepsParts t (.rtc :: hostParts) := by
  have heff := (s.clearSent.wordWrite_rtcCtrl src.slot.val 1#32).trans (State.rtcCtrl_load _ _)
  obtain ⟨t, ht, hok, hr, hw, hk⟩ := State.write1_answered (k := 10485835) hs hg (by decide) (by decide) heff (by decide)
    (State.loadCal_keeps rfl (State.injRan_keeps rfl (Keeps.refl _)))
    (congrArg NvState.jobs ((State.loadCal_keeps (k := 2097152) rfl (State.injRan_keeps rfl (Keeps.refl s.clearSent))).nv_same rfl))
  have hstaged (b : Nat) (h1 : b ≠ Reg.RTC_INJ) (h2 : b ≠ Reg.ZID_CNT_INJ) : (s.clearSent.injRan Reg.RTC_INJ 0).rd b = s.rd b :=
    State.injRan_rd _ _ _ _ h1 h2
  have hinj : (s.clearSent.injRan Reg.RTC_INJ 0).rtc = s.rtc := (State.injRan_keeps (k := 0) rfl (Keeps.refl s.clearSent)).rtc_same rfl
  refine ⟨t, ht, hok, ?_, ?_, ?_, ?_,
    State.keepsRegs_answered (l := [Reg.RTC_TIME, Reg.RTC_DATE, Reg.RTC_INJ, Reg.ZID_CNT_INJ]) hr (fun b hb => ?_) (by decide),
    hk.parts _ (fun p => by cases p <;> decide)⟩
  · rw [hr _ (by decide), State.loadCal_rd, if_pos rfl, hstaged _ (by decide) (by decide)]
  · rw [hr _ (by decide), State.loadCal_rd, if_neg (by decide), if_pos rfl, hstaged _ (by decide) (by decide), hstaged _ (by decide) (by decide),
      stagedTime]
  · rw [hw.rtc_same rfl, State.loadCal_rtc, State.injRan_oscAt _ _ _ _ (by decide), hinj, State.oscAt_clearSent]
  · rw [State.bit_eq, hr _ (by decide), State.loadCal_rd, if_neg (by decide), if_neg (by decide), ← State.bit_eq,
      State.injRan_clear _ (by decide) (by decide)]
  · simp only [List.mem_cons, List.not_mem_nil, or_false, not_or] at hb
    obtain ⟨htime, hdate, hinj, hcnt⟩ := hb
    rw [State.loadCal_rd, if_neg hdate, if_neg htime, hstaged b hinj hcnt]

/-- The calendar time one hour before or after the present one (R450). -/
def State.dstCal (s : State) (fwd : Bool) : Cal := calOf (if fwd then (s.calendar.secs : Int) + 3600 else (s.calendar.secs : Int) - 3600)

theorem State.dstMove_rd (s : State) (fwd : Bool) {b : Nat} (hb : b ∉ spoorRegs) :
    (s.dstMove fwd).rd b = (s.putCal' (s.dstCal fwd) fwd).rd b := State.raiseEv_rd _ _ _ _ b hb

/-- A granted summer-time command. -/
theorem dstMove_answered {src : Src} {s : State} {v : Word} {fwd : Bool} (hs : s.supplied) (hg : s.grants src Reg.RTC_CTRL v)
    (hv : ∀ u : State, u.rtcCtrl src.slot.val v = u.dstMove fwd) : ∃ t, s.act (fun t => t.write1 src Reg.RTC_CTRL v) = .next t
      ∧ t.answer.status = .ok ∧ t.rd Reg.RTC_TIME = timeWord (s.dstCal fwd) fwd ∧ t.rd Reg.RTC_DATE = dateWord (s.dstCal fwd)
      ∧ s.keepsRegs t (Reg.RTC_TIME :: Reg.RTC_DATE :: (hostRegs ++ spoorRegs)) ∧ s.keepsParts t (.spr :: .zid :: hostParts) := by
  have heff := (s.clearSent.wordWrite_rtcCtrl src.slot.val v).trans (hv _)
  obtain ⟨t, ht, hok, hr, hw, hk⟩ := State.write1_answered (k := 8389067) hs hg (by decide) (by decide) heff (by decide)
    (State.dstMove_keeps rfl (Keeps.refl _)) (congrArg NvState.jobs ((State.dstMove_keeps (k := 384) rfl (Keeps.refl s.clearSent)).nv_same rfl))
  have hcal (b : Nat) (h1 : b ∉ answerRegs) (h2 : b ∉ spoorRegs) : t.rd b = (s.clearSent.putCal' (s.dstCal fwd) fwd).rd b := by
    rw [hr b h1, State.dstMove_rd _ _ h2, State.dstCal, State.dstCal, State.calendar_clearSent]
  refine ⟨t, ht, hok, ?_, ?_, State.keepsRegs_answered (l := Reg.RTC_TIME :: Reg.RTC_DATE :: spoorRegs) hr (fun b hb => ?_) (by decide),
    hk.parts _ (fun p => by cases p <;> decide)⟩
  · rw [hcal _ (by decide) (by decide), State.putCal'_time]
  · rw [hcal _ (by decide) (by decide), State.putCal'_date]
  · simp only [List.mem_cons, not_or] at hb
    obtain ⟨htime, hdate, hspoor⟩ := hb
    rw [State.dstMove_rd _ _ hspoor, State.putCal'_apart _ _ _ htime hdate, State.rd_clearSent]

/-- Settles O49: a second, a load and the two summer-time commands. -/
theorem calendarCommands : Obligations.CalendarCommands :=
  ⟨secondCarry_supplied, secondCarry_off, rtcLoad_loads,
    fun _ _ hs hg => dstMove_answered (fwd := true) hs hg (fun _ => State.rtcCtrl_dstfwd _ _),
    fun _ _ hs hg => dstMove_answered (fwd := false) hs hg (fun _ => State.rtcCtrl_dstback _ _)⟩

end Sys2Proof.Machine

/-!
The calendar's frozen copies, its rate trim and setting from network time, its wakes and its battery (R452 to R464), which settle
O50, O51 and O52.
-/

namespace Sys2Proof.Machine

/-! ## Frozen copies (R452, R453) -/

theorem State.missing_simple (s : State) {a : Nat} (h : simpleReg a = true) : s.missing a = false := by
  simp only [simpleReg, Bool.and_eq_true, Bool.not_eq_true', Option.isNone_iff_eq_none, beq_iff_eq, and_assoc] at h
  obtain ⟨-, -, halign, hpop, hforce, hunit, hstep, hloop, -⟩ := h
  simp [State.missing, halign, hpop, hforce, ImgBytes.unitHole, hunit, ImgBytes.stepHole, hstep, ImgBytes.loopHole, hloop]

theorem simpleReg_windows {a : Nat} (h : simpleReg a = true) : inNvWindow a = false ∧ inSettWindow a = false := by
  simp only [simpleReg, Bool.and_eq_true, Bool.not_eq_true', and_assoc] at h
  obtain ⟨hnv, hsett, -⟩ := h
  exact ⟨hnv, hsett⟩

section
variable (s : State) (slot k : Nat)

theorem State.freezeOf_freezeEnd : (s.freezeEnd slot).freezeOf k = if k = slot then none else s.freezeOf k := by
  unfold State.freezeOf State.freezeEnd
  split
  · next h =>
    refine List.find?_eq_none.mpr fun f hf => ?_
    have hne := (List.mem_filter.mp hf).2
    rw [h]
    simpa using hne
  · next h =>
    rw [List.find?_filter]
    congr 1
    funext f
    by_cases hk : f.slot = k <;> simp [hk, h]

theorem State.freezeOf_freezePut_apart (f : RtcShadow) (h : k ≠ f.slot) : (s.freezePut f).freezeOf k = s.freezeOf k := by
  have hend : (s.freezeEnd f.slot).freezeOf k = s.freezeOf k := by rw [State.freezeOf_freezeEnd, if_neg h]
  unfold State.freezePut
  dsimp only
  split
  · exact hend
  · refine Eq.trans ?_ hend
    exact List.find?_cons_of_neg (fun e => h (beq_iff_eq.mp e).symm)

theorem State.freezeFor_slot (a : Nat) : (s.freezeFor slot a).slot = slot := by
  unfold State.freezeFor
  split
  · next f hf =>
    have hslot : f.slot = slot := beq_iff_eq.mp (List.find?_some (p := fun f : RtcShadow => f.slot == slot) hf)
    split
    · rfl
    · exact hslot
  · rfl

theorem State.rd_freezePut (f : RtcShadow) (b : Nat) : (s.freezePut f).rd b = s.rd b := by
  unfold State.freezePut
  dsimp only
  split <;> rfl

theorem State.freezeOf_clearSent : s.clearSent.freezeOf slot = s.freezeOf slot := rfl
theorem State.freezeNew_clearSent : s.clearSent.freezeNew slot = s.freezeNew slot := rfl
theorem State.freezeFor_clearSent (a : Nat) : s.clearSent.freezeFor slot a = s.freezeFor slot a := by
  rw [State.freezeFor, State.freezeFor, State.freezeOf_clearSent, State.freezeNew_clearSent]

end

theorem State.freezeOf_congr {s t : State} (h : t.rtc = s.rtc) (slot : Nat) : t.freezeOf slot = s.freezeOf slot := by
  rw [State.freezeOf, State.freezeOf, h]

/-- The three registers that a key slot reads from its freeze. -/
theorem isRtcShadow_cases {a : Nat} (h : isRtcShadow a = true) : a = Reg.RTC_TIME ∨ a = Reg.RTC_DATE ∨ a = Reg.RTC_SUBSEC := by
  simpa only [isRtcShadow, Bool.or_eq_true, beq_iff_eq, or_assoc] using h

theorem isRtcShadow_simple {a : Nat} (h : isRtcShadow a = true) : simpleReg a = true := by
  rcases isRtcShadow_cases h with rfl | rfl | rfl <;> decide

theorem State.readWord_shadow (s : State) (slot : Nat) {a : Nat} (h : isRtcShadow a = true) : s.readWord slot a = s.shadowRead slot a := by
  refine if_pos ?_
  simpa only [Bool.or_eq_true, decide_eq_true_eq, or_assoc] using isRtcShadow_cases h

theorem rtcRead_answers (src : Src) (addr : Word) (s : State) (hs : s.supplied) (ha : isRtcShadow addr.toNat = true) :
    ∃ t, exec (.rtcRead src addr) s = .next t
      ∧ t.answer.status = .ok ∧ t.answer.data = [(s.freezeFor src.slot.val addr.toNat).word addr.toNat]
      ∧ (∀ slot, slot ≠ src.slot.val → t.freezeOf slot = s.freezeOf slot)
      ∧ s.keepsRegs t hostRegs ∧ s.keepsParts t (.rtc :: hostParts) := by
  have hsimple := isRtcShadow_simple ha
  obtain ⟨hnv, hsett⟩ := simpleReg_windows hsimple
  have hcall : exec (.rtcRead src addr) s = .next (s.clearSent.opRead src addr.toNat 1 0) :=
    show execRtcRead src addr s = _ from State.act_supplied hs
  have hread := State.opRead_register s.clearSent src (a := addr.toNat) 0 hnv hsett (State.missing_simple _ hsimple)
  rw [State.readWord_shadow _ _ ha, State.shadowRead, State.freezeFor_clearSent] at hread
  have hslot : ((s.freezeFor src.slot.val addr.toNat).mark addr.toNat).slot = src.slot.val := s.freezeFor_slot _ _
  generalize (s.freezeFor src.slot.val addr.toNat).mark addr.toNat = f at hread hslot
  have hframe : s.keepsParts (s.clearSent.opRead src addr.toNat 1 0) (.rtc :: hostParts) := by
    rw [hread]
    exact (State.opOk_keeps (k := 10485827) rfl (State.freezePut_keeps rfl (State.clearSent_keeps rfl (Keeps.refl s)))).parts _
      (fun p => by cases p <;> decide)
  refine ⟨_, hcall, ?_, ?_, fun slot hne => ?_, fun b hb => ?_, hframe⟩
  · rw [hread, State.opOk_answer]
  · rw [hread, State.opOk_answer]
  · rw [hread, State.freezeOf_congr ((State.opOk_keeps (k := 8388675) rfl (Keeps.refl _)).rtc_same rfl),
      State.freezeOf_freezePut_apart _ _ _ (hslot ▸ hne), State.freezeOf_clearSent]
  · rw [hread, State.opOk_rd _ _ _ _ _ _ _ hb, State.rd_freezePut, State.rd_clearSent]

theorem rtcRelease_drops (src : Src) (s : State) (hs : s.supplied) (hg : s.grants src Reg.RTC_CTRL 8#32) :
    ∃ t, exec (.rtcRelease src) s = .next t ∧ t.answer.status = .ok
      ∧ t.rtc = { s.rtc with shadows := s.rtc.shadows.filter (fun f => f.slot != src.slot.val) }
      ∧ t.freezeOf src.slot.val = none ∧ s.keepsRegs t hostRegs ∧ s.keepsParts t (.rtc :: hostParts) := by
  have heff := (s.clearSent.wordWrite_rtcCtrl src.slot.val 8#32).trans (State.rtcCtrl_release _ _)
  obtain ⟨t, ht, hok, hr, hw, hk⟩ := State.write1_answered (k := 10485835) hs hg (by decide) (by decide) heff (by decide)
    (State.freezeEnd_keeps rfl (Keeps.refl _)) rfl
  have hrtc : t.rtc = (s.clearSent.freezeEnd src.slot.val).rtc := hw.rtc_same rfl
  refine ⟨t, ht, hok, hrtc, ?_, State.keepsRegs_answered (l := []) hr (fun b _ => rfl) (by decide), hk.parts _ (fun p => by cases p <;> decide)⟩
  rw [State.freezeOf_congr hrtc, State.freezeOf_freezeEnd, if_pos rfl]

theorem State.freezeTimeout_none {s : State} {slot : Nat} (h : s.freezeOf slot = none) : s.freezeTimeout slot = s := by
  rw [State.freezeTimeout, h]

theorem State.freezeTimeout_reached {s : State} {slot : Nat} {f : RtcShadow} (h : s.freezeOf slot = some f)
    (hr : s.reached (f.since + 1000000000) = true) : s.freezeTimeout slot = (s.freezeEnd slot).setBit Reg.RTC_STAT 5 true := by
  rw [State.freezeTimeout, h]
  exact if_pos hr

theorem freezeTimeout_ends (slot : Fin 32) (s : State) (hs : s.supplied)
    (hr : ∀ f, s.freezeOf slot.val = some f → s.reached (f.since + 1000000000) = true) :
    ∃ t, exec (.freezeTimeout slot) s = .next t ∧ t.freezeOf slot.val = none
      ∧ t.bit Reg.RTC_STAT 5 = (s.bit Reg.RTC_STAT 5 || (s.freezeOf slot.val).isSome)
      ∧ ((s.freezeOf slot.val).isNone → t.rtc = s.rtc ∧ t.regs = s.regs)
      ∧ s.keepsRegs t [Reg.RTC_STAT] ∧ s.keepsParts t [.sent, .rtc] := by
  have hcall : exec (.freezeTimeout slot) s = .next (s.clearSent.freezeTimeout slot.val) :=
    show execFreezeTimeout slot s = _ from State.act_supplied hs
  have hframe : s.keepsParts (s.clearSent.freezeTimeout slot.val) [.sent, .rtc] :=
    (State.freezeTimeout_keeps (k := 2097154) rfl (State.clearSent_keeps rfl (Keeps.refl s))).parts _ (fun p => by cases p <;> decide)
  refine ⟨_, hcall, ?_⟩
  cases hf : s.freezeOf slot.val with
  | none =>
    have hidle : s.clearSent.freezeTimeout slot.val = s.clearSent := State.freezeTimeout_none hf
    rw [hidle] at hframe ⊢
    exact ⟨hf, (Bool.or_false _).symm, fun _ => ⟨rfl, rfl⟩, fun _ _ => rfl, hframe⟩
  | some f =>
    have hend : s.clearSent.freezeTimeout slot.val = (s.clearSent.freezeEnd slot.val).setBit Reg.RTC_STAT 5 true :=
      State.freezeTimeout_reached hf (hr f hf)
    rw [hend] at hframe ⊢
    refine ⟨?_, ?_, fun h => absurd h Bool.false_ne_true, fun b hb => ?_, hframe⟩
    · rw [State.freezeOf_congr ((State.setBit_keeps (k := 0) rfl (Keeps.refl _)).rtc_same rfl), State.freezeOf_freezeEnd, if_pos rfl]
    · rw [State.bit_eq, State.rd_setBit, if_pos rfl, bitOf_putBit_same _ _ _ (by decide)]
      exact (Bool.or_true _).symm
    · rw [State.rd_setBit, if_neg (List.ne_of_not_mem_cons hb)]
      rfl

/-- Settles O50: a read, a release and the end of a freeze. -/
theorem calendarFreeze : Obligations.CalendarFreeze := ⟨rtcRead_answers, rtcRelease_drops, freezeTimeout_ends⟩

/-! ## Rate trim (R457 to R459) -/

theorem State.trimLap_rd (s : State) (b : Nat) : s.trimLap.rd b = s.rd b := rfl
theorem State.trimBegin_rd (s : State) (b : Nat) : s.trimBegin.rd b = s.rd b := rfl
theorem State.trimBegin_moved (s : State) : s.trimBegin.ptp.moved = false := rfl

/-- The state in which a trim window has ended and its validity test has run. -/
def State.trimTested (s : State) : State := s.trimLap.injRan Reg.RTC_INJ 1

/-- A window's count error in crystal pulses (R458). -/
def State.trimErr (s : State) (n : Nat) : Int := (32768 * s.trimSecs : Nat) - (n : Int)

/-- A window's verdict, inverted by REFCHK (R458, R464). -/
def State.trimGood (s : State) : Bool := (!s.trimLap.rtc.winBad) != s.bit Reg.RTC_INJ 1

/-- The state with the measured error as a free rounding takes it. -/
def State.trimRound (s : State) (n : Nat) : Int × State :=
  s.trimTested.roundOpen ((s.trimErr n : Rat) * 1000000000 / (32768 * s.trimSecs : Nat))

/-- The state with the measured window's CAL, error and flag of a clamped error (R458). -/
def State.trimMeasured (s : State) (n : Nat) : State :=
  (((s.trimRound n).2.setFld Reg.RTC_TRIM_CTRL 16 10 (wrapInt 10 (clampInt (-511) 511 (s.trimErr n)))).wr Reg.RTC_TRIM_MEAS
    (satWord (s.trimRound n).1)).onlyIf (511 < s.trimErr n || s.trimErr n < -511) (fun s => s.setBit Reg.RTC_STAT 3 true)

theorem State.trimWindow_good {s : State} {n : Nat} (hr : s.trimRef ≠ 0) (hg : s.trimGood = true) :
    s.trimWindow n = (((s.trimMeasured n).count Reg.RTC_CNT_TRIM).irqRtc 2).trimBegin :=
  (if_neg hr).trans (if_pos hg)

theorem State.trimWindow_spoiled {s : State} {n : Nat} (hr : s.trimRef ≠ 0) (hg : s.trimGood = false) :
    s.trimWindow n = ((s.trimTested.count Reg.RTC_CNT_TRIMDISC).irqRtc 2).trimBegin :=
  (if_neg hr).trans (if_neg (by rw [show s.injTest Reg.RTC_INJ 1 (!s.trimLap.rtc.winBad) = s.trimGood from rfl, hg]; exact Bool.false_ne_true))

section
variable (s : State) (n : Nat) {b : Nat}

theorem State.trimTested_rd (h1 : b ≠ Reg.RTC_INJ) (h2 : b ≠ Reg.ZID_CNT_INJ) : s.trimTested.rd b = s.rd b :=
  State.injRan_rd s.trimLap _ _ _ h1 h2

theorem State.trimTested_inj : bitOf (s.trimTested.rd Reg.RTC_INJ) 1 = false := State.injRan_clear s.trimLap (by decide) (by decide)

theorem State.trimRound_rd (b : Nat) : (s.trimRound n).2.rd b = s.trimTested.rd b := State.rd_congr (State.roundOpen_regs _ _) b

theorem State.trimMeasured_rd (b : Nat) : (s.trimMeasured n).rd b
    = if b = Reg.RTC_STAT then (if 511 < s.trimErr n ∨ s.trimErr n < -511 then putBit (s.trimTested.rd b) 3 true else s.trimTested.rd b)
      else if b = Reg.RTC_TRIM_MEAS then satWord (s.trimRound n).1
      else if b = Reg.RTC_TRIM_CTRL then putBits (s.trimTested.rd b) 16 10 (wrapInt 10 (clampInt (-511) 511 (s.trimErr n)))
      else s.trimTested.rd b := by
  have hput : ((((s.trimRound n).2.setFld Reg.RTC_TRIM_CTRL 16 10 (wrapInt 10 (clampInt (-511) 511 (s.trimErr n)))).wr Reg.RTC_TRIM_MEAS
      (satWord (s.trimRound n).1)).rd b) = if b = Reg.RTC_TRIM_MEAS then satWord (s.trimRound n).1
      else if b = Reg.RTC_TRIM_CTRL then putBits (s.trimTested.rd b) 16 10 (wrapInt 10 (clampInt (-511) 511 (s.trimErr n)))
      else s.trimTested.rd b := by
    rw [State.rd_wr, State.rd_setFld, State.trimRound_rd, State.trimRound_rd]
    split_ifs with h1 h2
    · rfl
    · rw [h2]
    · rfl
  rw [State.trimMeasured, State.rd_onlyIf, State.rd_setBit, hput]
  simp only [Bool.or_eq_true, decide_eq_true_eq]
  by_cases hb : b = Reg.RTC_STAT
  · subst hb
    rw [if_neg (show Reg.RTC_STAT ≠ Reg.RTC_TRIM_MEAS by decide), if_neg (show Reg.RTC_STAT ≠ Reg.RTC_TRIM_CTRL by decide)] at hput ⊢
    rw [if_pos rfl, if_pos rfl, hput]
  · rw [if_neg hb, if_neg hb, ite_self]

/-- What the window's end does after its verdict. -/
theorem State.trimEnd_rd (u : State) (r : Nat) (hp : b ∉ pinRegs) : (((u.count r).irqRtc 2).trimBegin).rd b
    = if b = Reg.RTC_IRQ then putBit (if b = r then satWordN ((u.rd b).toNat + 1) else u.rd b) 2 true
      else if b = r then satWordN ((u.rd b).toNat + 1) else u.rd b := by
  rw [State.trimBegin_rd, State.irqRtc, State.irqAt_rd _ _ _ _ _ _ hp, State.rd_count, State.rd_count]
  split_ifs <;> simp_all

end

/-- The registers that the end of a trim window may change. -/
def trimRegs : List Nat :=
  [Reg.RTC_TRIM_CTRL, Reg.RTC_TRIM_MEAS, Reg.RTC_STAT, Reg.RTC_CNT_TRIM, Reg.RTC_CNT_TRIMDISC, Reg.RTC_IRQ, Reg.RTC_INJ, Reg.ZID_CNT_INJ] ++ pinRegs

/-- The end of a valid window: its error is the new CAL, clamped (R458). -/
theorem State.trimWindow_good_leaves {s : State} {n : Nat} (hr : s.trimRef ≠ 0) (hg : s.trimGood = true) :
    (s.trimWindow n).fld Reg.RTC_TRIM_CTRL 16 10 = wrapInt 10 (clampInt (-511) 511 (s.trimErr n))
      ∧ ((s.trimWindow n).rd Reg.RTC_CNT_TRIM).toNat = min 0xFFFFFFFF ((s.rd Reg.RTC_CNT_TRIM).toNat + 1)
      ∧ (s.trimWindow n).rd Reg.RTC_CNT_TRIMDISC = s.rd Reg.RTC_CNT_TRIMDISC
      ∧ (s.trimWindow n).bit Reg.RTC_STAT 3 = (s.bit Reg.RTC_STAT 3 || decide (511 < s.trimErr n ∨ s.trimErr n < -511)) := by
  have hlt : wrapInt 10 (clampInt (-511) 511 (s.trimErr n)) < 2 ^ 10 := by
    unfold wrapInt
    omega
  rw [State.trimWindow_good hr hg, State.fld_eq, State.bit_eq]
  refine ⟨?_, ?_, ?_, ?_⟩
  · rw [State.trimEnd_rd _ _ (by decide), if_neg (by decide), if_neg (by decide), State.trimMeasured_rd, if_neg (by decide), if_neg (by decide),
      if_pos rfl, bitsOf_putBits_same _ _ _ _ (by decide), Nat.mod_eq_of_lt hlt]
  · rw [State.trimEnd_rd _ _ (by decide), if_neg (by decide), if_pos rfl, State.trimMeasured_rd, if_neg (by decide), if_neg (by decide),
      if_neg (by decide), State.trimTested_rd _ (by decide) (by decide), satWordN_toNat]
  · rw [State.trimEnd_rd _ _ (by decide), if_neg (by decide), if_neg (by decide), State.trimMeasured_rd, if_neg (by decide), if_neg (by decide),
      if_neg (by decide), State.trimTested_rd _ (by decide) (by decide)]
  · rw [State.trimEnd_rd _ _ (by decide), if_neg (by decide), if_neg (by decide), State.trimMeasured_rd, if_pos rfl,
      State.trimTested_rd _ (by decide) (by decide), State.bit_eq]
    split
    · next h => rw [bitOf_putBit_same _ _ _ (by decide), decide_eq_true h, Bool.or_true]
    · next h => rw [decide_eq_false h, Bool.or_false]

/-- The end of a spoiled window leaves CAL (R458). -/
theorem State.trimWindow_spoiled_leaves {s : State} {n : Nat} (hr : s.trimRef ≠ 0) (hg : s.trimGood = false) :
    (s.trimWindow n).rd Reg.RTC_TRIM_CTRL = s.rd Reg.RTC_TRIM_CTRL ∧ (s.trimWindow n).rd Reg.RTC_CNT_TRIM = s.rd Reg.RTC_CNT_TRIM
      ∧ ((s.trimWindow n).rd Reg.RTC_CNT_TRIMDISC).toNat = min 0xFFFFFFFF ((s.rd Reg.RTC_CNT_TRIMDISC).toNat + 1) := by
  rw [State.trimWindow_spoiled hr hg]
  refine ⟨?_, ?_, ?_⟩
  · rw [State.trimEnd_rd _ _ (by decide), if_neg (by decide), if_neg (by decide), State.trimTested_rd _ (by decide) (by decide)]
  · rw [State.trimEnd_rd _ _ (by decide), if_neg (by decide), if_neg (by decide), State.trimTested_rd _ (by decide) (by decide)]
  · rw [State.trimEnd_rd _ _ (by decide), if_neg (by decide), if_pos rfl, State.trimTested_rd _ (by decide) (by decide), satWordN_toNat]

/-- Whatever the verdict, the window's end sets the interrupt, ends its injection and lets a new window begin. -/
theorem State.trimWindow_ends {s : State} {n : Nat} (hr : s.trimRef ≠ 0) :
    (s.trimWindow n).bit Reg.RTC_IRQ 2 = true ∧ (s.trimWindow n).bit Reg.RTC_INJ 1 = false ∧ (s.trimWindow n).ptp.moved = false
      ∧ s.keepsRegs (s.trimWindow n) trimRegs := by
  have hkept (b : Nat) (hb : b ∉ trimRegs) (u : State) (r : Nat) (hcnt : r = Reg.RTC_CNT_TRIM ∨ r = Reg.RTC_CNT_TRIMDISC)
      (hu : u.rd b = s.trimTested.rd b) : (((u.count r).irqRtc 2).trimBegin).rd b = s.rd b := by
    simp only [trimRegs, List.mem_append, List.mem_cons, List.not_mem_nil, or_false, not_or] at hb
    obtain ⟨⟨-, -, -, h4, h5, h6, h7, h8⟩, hp⟩ := hb
    have hr : b ≠ r := by rcases hcnt with rfl | rfl <;> assumption
    rw [State.trimEnd_rd _ _ (by simpa [pinRegs] using hp), if_neg h6, if_neg hr, hu, State.trimTested_rd _ h7 h8]
  cases hg : s.trimGood with
  | true =>
    rw [State.trimWindow_good hr hg, State.bit_eq, State.bit_eq]
    refine ⟨?_, ?_, State.trimBegin_moved _, fun b hb => hkept b hb _ _ (.inl rfl) ?_⟩
    · rw [State.trimEnd_rd _ _ (by decide), if_pos rfl, bitOf_putBit_same _ _ _ (by decide)]
    · rw [State.trimEnd_rd _ _ (by decide), if_neg (by decide), if_neg (by decide), State.trimMeasured_rd, if_neg (by decide), if_neg (by decide),
        if_neg (by decide), State.trimTested_inj]
    · simp only [trimRegs, List.mem_append, List.mem_cons, List.not_mem_nil, or_false, not_or] at hb
      obtain ⟨⟨h1, h2, h3, -⟩, -⟩ := hb
      rw [State.trimMeasured_rd, if_neg h3, if_neg h2, if_neg h1]
  | false =>
    rw [State.trimWindow_spoiled hr hg, State.bit_eq, State.bit_eq]
    refine ⟨?_, ?_, State.trimBegin_moved _, fun b hb => hkept b hb _ _ (.inr rfl) rfl⟩
    · rw [State.trimEnd_rd _ _ (by decide), if_pos rfl, bitOf_putBit_same _ _ _ (by decide)]
    · rw [State.trimEnd_rd _ _ (by decide), if_neg (by decide), if_neg (by decide), State.trimTested_inj]

theorem exec_trimWindow {s : State} (hs : s.supplied) (n : BitVec 32) : exec (.trimWindow n) s = .next (s.clearSent.trimWindow n.toNat) :=
  show execTrimWindow n s = _ from State.act_supplied hs

theorem trimWindow_measures (n : BitVec 32) (s : State) (hs : s.supplied) (hr : s.trimRef ≠ 0) : ∃ t, exec (.trimWindow n) s = .next t
    ∧ (let good := (!s.trimLap.rtc.winBad) != s.bit Reg.RTC_INJ 1
       let err : Int := (32768 * s.trimSecs : Nat) - (n.toNat : Int)
       (good = true → t.fld Reg.RTC_TRIM_CTRL 16 10 = wrapInt 10 (clampInt (-511) 511 err)
          ∧ (t.rd Reg.RTC_CNT_TRIM).toNat = min 0xFFFFFFFF ((s.rd Reg.RTC_CNT_TRIM).toNat + 1)
          ∧ t.rd Reg.RTC_CNT_TRIMDISC = s.rd Reg.RTC_CNT_TRIMDISC
          ∧ t.bit Reg.RTC_STAT 3 = (s.bit Reg.RTC_STAT 3 || decide (511 < err ∨ err < -511)))
       ∧ (good = false → t.rd Reg.RTC_TRIM_CTRL = s.rd Reg.RTC_TRIM_CTRL ∧ t.rd Reg.RTC_CNT_TRIM = s.rd Reg.RTC_CNT_TRIM
          ∧ (t.rd Reg.RTC_CNT_TRIMDISC).toNat = min 0xFFFFFFFF ((s.rd Reg.RTC_CNT_TRIMDISC).toNat + 1)))
    ∧ t.bit Reg.RTC_IRQ 2 = true ∧ t.bit Reg.RTC_INJ 1 = false ∧ t.ptp.moved = false
    ∧ s.keepsRegs t ([Reg.RTC_TRIM_CTRL, Reg.RTC_TRIM_MEAS, Reg.RTC_STAT, Reg.RTC_CNT_TRIM, Reg.RTC_CNT_TRIMDISC, Reg.RTC_IRQ,
        Reg.RTC_INJ, Reg.ZID_CNT_INJ] ++ pinRegs)
    ∧ s.keepsParts t [.sent, .zid, .ptp, .rtc] := by
  have href : s.clearSent.trimRef ≠ 0 := hr
  obtain ⟨hirq, hinj, hmoved, hregs⟩ := State.trimWindow_ends (n := n.toNat) href
  exact ⟨_, exec_trimWindow hs n,
    ⟨fun hg => State.trimWindow_good_leaves (s := s.clearSent) hr hg, fun hg => State.trimWindow_spoiled_leaves (s := s.clearSent) hr hg⟩,
    hirq, hinj, hmoved, hregs,
    (State.trimWindow_keeps (k := 3145986) rfl (State.clearSent_keeps rfl (Keeps.refl s))).parts _ (fun p => by cases p <;> decide)⟩

theorem trimWindow_manual (n : BitVec 32) (s : State) (hs : s.supplied) (hr : s.trimRef = 0) :
    ∃ t, exec (.trimWindow n) s = .next t ∧ t.regs = s.regs ∧ s.keepsParts t [.sent] := by
  have hidle : s.clearSent.trimWindow n.toNat = s.clearSent := if_pos hr
  exact ⟨_, (exec_trimWindow hs n).trans (congrArg _ hidle), rfl,
    (State.clearSent_keeps (k := 2) rfl (Keeps.refl s)).parts _ (fun p => by cases p <;> decide)⟩

/-- The state with the three written fields of RTC_TRIM_CTRL. -/
def State.trimFields (s : State) (v : Word) : State :=
  ((s.setFld Reg.RTC_TRIM_CTRL 0 2 (bitsOf v 0 2)).setFld Reg.RTC_TRIM_CTRL 4 3 (bitsOf v 4 3)).setFld Reg.RTC_TRIM_CTRL 16 10 (bitsOf v 16 10)

theorem State.trimWrite_eq (s : State) (v : Word) : s.trimWrite v = (s.trimFields v).onlyIf
    (bitsOf v 0 2 != s.fld Reg.RTC_TRIM_CTRL 0 2 || bitsOf v 4 3 != s.fld Reg.RTC_TRIM_CTRL 4 3) State.trimBegin := rfl

theorem State.trimWrite_rd (s : State) (v : Word) (b : Nat) : (s.trimWrite v).rd b = (s.trimFields v).rd b := by
  rw [State.trimWrite_eq, State.rd_onlyIf, State.trimBegin_rd, ite_self]

theorem bitsOf_mod (w : Word) (lo n : Nat) : bitsOf w lo n % 2 ^ n = bitsOf w lo n := Nat.mod_mod _ _

theorem State.trimFields_ctrl (s : State) (v : Word) :
    bitsOf ((s.trimFields v).rd Reg.RTC_TRIM_CTRL) 0 2 = bitsOf v 0 2 ∧ bitsOf ((s.trimFields v).rd Reg.RTC_TRIM_CTRL) 4 3 = bitsOf v 4 3
      ∧ bitsOf ((s.trimFields v).rd Reg.RTC_TRIM_CTRL) 16 10 = bitsOf v 16 10 := by
  simp only [State.trimFields, State.rd_setFld, if_true]
  refine ⟨?_, ?_, ?_⟩
  · rw [bitsOf_putBits_apart _ _ _ _ _ _ (by decide) (.inl (by decide)), bitsOf_putBits_apart _ _ _ _ _ _ (by decide) (.inl (by decide)),
      bitsOf_putBits_same _ _ _ _ (by decide), bitsOf_mod]
  · rw [bitsOf_putBits_apart _ _ _ _ _ _ (by decide) (.inl (by decide)), bitsOf_putBits_same _ _ _ _ (by decide), bitsOf_mod]
  · rw [bitsOf_putBits_same _ _ _ _ (by decide), bitsOf_mod]

theorem trimWrite_sets (src : Src) (v : Word) (s : State) (hs : s.supplied) (hg : s.grants src Reg.RTC_TRIM_CTRL v) :
    ∃ t, exec (.trimWrite src v) s = .next t
      ∧ t.answer.status = .ok ∧ t.fld Reg.RTC_TRIM_CTRL 0 2 = bitsOf v 0 2 ∧ t.fld Reg.RTC_TRIM_CTRL 4 3 = bitsOf v 4 3
      ∧ t.fld Reg.RTC_TRIM_CTRL 16 10 = bitsOf v 16 10
      ∧ (bitsOf v 0 2 = s.fld Reg.RTC_TRIM_CTRL 0 2 → bitsOf v 4 3 = s.fld Reg.RTC_TRIM_CTRL 4 3 → t.rtc = s.rtc ∧ t.ptp = s.ptp)
      ∧ s.keepsRegs t (Reg.RTC_TRIM_CTRL :: hostRegs) ∧ s.keepsParts t (.rtc :: .ptp :: hostParts) := by
  obtain ⟨t, ht, hok, hr, hw, hk⟩ := State.write1_answered (k := 11534411) hs hg (by decide) (by decide)
    (s.clearSent.wordWrite_trimWrite src.slot.val v) (by decide) (State.trimWrite_keeps rfl (Keeps.refl _))
    (congrArg NvState.jobs ((State.trimWrite_keeps (k := 3145728) rfl (Keeps.refl s.clearSent)).nv_same rfl))
  have hctrl : t.rd Reg.RTC_TRIM_CTRL = (s.clearSent.trimFields v).rd Reg.RTC_TRIM_CTRL := by rw [hr _ (by decide), State.trimWrite_rd]
  obtain ⟨h0, h4, h16⟩ := s.clearSent.trimFields_ctrl v
  refine ⟨t, ht, hok, by rw [State.fld_eq, hctrl, h0], by rw [State.fld_eq, hctrl, h4], by rw [State.fld_eq, hctrl, h16], fun hsrc hwin => ?_,
    State.keepsRegs_answered (l := [Reg.RTC_TRIM_CTRL]) hr (fun b hb => ?_) (by decide), hk.parts _ (fun p => by cases p <;> decide)⟩
  · have hsame : s.clearSent.trimWrite v = s.clearSent.trimFields v := by
      rw [State.trimWrite_eq, show s.clearSent.fld Reg.RTC_TRIM_CTRL 0 2 = bitsOf v 0 2 from hsrc.symm,
        show s.clearSent.fld Reg.RTC_TRIM_CTRL 4 3 = bitsOf v 4 3 from hwin.symm, bne_self_eq_false, bne_self_eq_false]
      rfl
    have hkeep : Keeps 0 s.clearSent (s.clearSent.trimWrite v) := by
      rw [hsame]
      exact State.setFld_keeps rfl (State.setFld_keeps rfl (State.setFld_keeps rfl (Keeps.refl _)))
    exact ⟨(hw.rtc_same rfl).trans (hkeep.rtc_same rfl), (hw.ptp_same rfl).trans (hkeep.ptp_same rfl)⟩
  · have hb' := List.ne_of_not_mem_cons hb
    rw [State.trimWrite_rd, State.trimFields, State.rd_setFld, if_neg hb', State.rd_setFld, if_neg hb', State.rd_setFld, if_neg hb',
      State.rd_clearSent]

/-! ## Setting from network time (R455) -/

/-- The calendar is due to be set from the network clock (R455). -/
def State.hourDue (u : State) : Bool :=
  u.bit Reg.RTC_CFG 0 && u.ptpLock && !decide (absQ ((u.calendar.secs : Rat) + (u.subsec.toNat : Rat) / 32768 - u.ptpToLocal) < 1)

/-- The calendar set from the network clock. -/
def State.hourPut (u : State) : State := ((u.putCal' (calOf u.ptpToLocal) u.dst).subsecZero).setBit Reg.RTC_STAT 4 true

theorem State.ptpHourSet_due {s : State} (h : s.ptpSync.hourDue = true) : s.ptpHourSet
    = s.ptpSync.hourPut.raiseEv 0x1702 1 (leBytes 4 (s.ptpSync.nat Reg.RTC_TIME) ++ leBytes 4 (s.ptpSync.nat Reg.RTC_DATE)) := by
  simp only [State.hourDue, Bool.and_eq_true, Bool.not_eq_true', decide_eq_false_iff_not] at h
  obtain ⟨⟨hcfg, hlock⟩, hfar⟩ := h
  unfold State.ptpHourSet
  dsimp only
  rw [hcfg, hlock, Bool.and_self, if_pos rfl, if_neg hfar, State.hourPut]

theorem State.ptpHourSet_idle {s : State} (h : s.ptpSync.hourDue = false) : s.ptpHourSet = s.ptpSync := by
  unfold State.hourDue at h
  unfold State.ptpHourSet
  dsimp only
  split
  · next hc =>
    rw [hc, Bool.true_and, Bool.not_eq_false', decide_eq_true_eq] at h
    rw [if_pos h]
  · rfl

theorem State.hourPut_rd (u : State) {b : Nat} (hb : b ≠ Reg.RTC_STAT) : u.hourPut.rd b = (u.putCal' (calOf u.ptpToLocal) u.dst).rd b := by
  rw [State.hourPut, State.rd_setBit, if_neg hb, State.subsecZero_rd]

theorem State.hourPut_carryAt (u : State) : u.hourPut.rtc.carryAt = u.oscAt 0 := by
  have hk : Keeps 0 ((u.putCal' (calOf u.ptpToLocal) u.dst).subsecZero) u.hourPut := State.setBit_keeps rfl (Keeps.refl _)
  rw [hk.rtc_same rfl, State.subsecZero_rtc, State.putCal'_oscAt]

theorem ptpHourSet_sets (s : State) (hs : s.supplied) : ∃ t, exec .ptpHourSet s = .next t
    ∧ (let u := s.clearSent.ptpSync
       let due := u.bit Reg.RTC_CFG 0 && u.ptpLock
         && !decide (absQ ((u.calendar.secs : Rat) + (u.subsec.toNat : Rat) / 32768 - u.ptpToLocal) < 1)
       (due = true → t.rd Reg.RTC_TIME = timeWord (calOf u.ptpToLocal) u.dst ∧ t.rd Reg.RTC_DATE = dateWord (calOf u.ptpToLocal)
          ∧ t.bit Reg.RTC_STAT 4 = true ∧ t.rtc.carryAt = u.oscAt 0)
       ∧ (due = false → t = u)) := by
  refine ⟨_, show execPtpHourSet s = _ from State.act_supplied hs, fun hdue => ?_, fun hdue => State.ptpHourSet_idle hdue⟩
  rw [State.ptpHourSet_due hdue]
  generalize s.clearSent.ptpSync = u
  generalize leBytes 4 (u.nat Reg.RTC_TIME) ++ leBytes 4 (u.nat Reg.RTC_DATE) = data
  have hspoor {b : Nat} (hb : b ∉ spoorRegs) : (u.hourPut.raiseEv 0x1702 1 data).rd b = u.hourPut.rd b := State.raiseEv_rd _ _ _ _ b hb
  refine ⟨?_, ?_, ?_, ?_⟩
  · rw [hspoor (by decide), State.hourPut_rd _ (by decide), State.putCal'_time]
  · rw [hspoor (by decide), State.hourPut_rd _ (by decide), State.putCal'_date]
  · rw [State.bit_eq, hspoor (by decide), State.hourPut, State.rd_setBit, if_pos rfl, bitOf_putBit_same _ _ _ (by decide)]
  · rw [(State.raiseEv_keeps (k := 384) rfl (Keeps.refl u.hourPut)).rtc_same rfl, State.hourPut_carryAt]

/-- Settles O51: the end of a trim window, a write of TRIM_CTRL, and the hour's setting. -/
theorem calendarTrim : Obligations.CalendarTrim := ⟨trimWindow_measures, trimWindow_manual, trimWrite_sets, ptpHourSet_sets⟩

end Sys2Proof.Machine

/-!
The calendar's wakes, its battery's charger and the check of the battery (R460 to R464), which settle O52.
-/

namespace Sys2Proof.Machine

/-! ## Wakes (R460) -/

theorem exec_wake (s : State) : exec .wake s = .next (if s.boot.phase = .off then s.wake else s.clearSent.wake) := rfl

theorem State.wake_unset {s : State} (h : s.fld Reg.RTC_WAKE 0 23 = 0) : s.wake = s := if_pos h

theorem State.wake_off {s : State} (h : s.fld Reg.RTC_WAKE 0 23 ≠ 0) (ho : s.boot.phase = .off) : s.wake = s.setBit Reg.RTC_STAT 6 true :=
  (if_neg h).trans (if_pos ho)

theorem State.wake_supplied {s : State} (h : s.fld Reg.RTC_WAKE 0 23 ≠ 0) (hs : s.boot.phase ≠ .off) :
    s.wake = (s.count Reg.RTC_CNT_WAKE).irqRtc 0 := (if_neg h).trans (if_neg hs)

theorem wake_wakes (s : State) (hs : s.supplied) (h : s.fld Reg.RTC_WAKE 0 23 ≠ 0) : ∃ t, exec .wake s = .next t
    ∧ (t.rd Reg.RTC_CNT_WAKE).toNat = min 0xFFFFFFFF ((s.rd Reg.RTC_CNT_WAKE).toNat + 1) ∧ t.bit Reg.RTC_IRQ 0 = true
    ∧ s.keepsRegs t (Reg.RTC_CNT_WAKE :: Reg.RTC_IRQ :: pinRegs) ∧ s.keepsParts t [.sent, .zid] := by
  have hcall : exec .wake s = .next ((s.clearSent.count Reg.RTC_CNT_WAKE).irqRtc 0) := by
    rw [exec_wake, if_neg hs, State.wake_supplied (s := s.clearSent) h hs]
  refine ⟨_, hcall, ?_, ?_, fun b hb => ?_,
    (State.irqRtc_keeps (k := 258) rfl (State.count_keeps rfl (State.clearSent_keeps rfl (Keeps.refl s)))).parts _ (fun p => by cases p <;> decide)⟩
  · rw [State.irqRtc, State.irqAt_rd _ _ _ _ _ _ (by decide), if_neg (by decide), State.rd_count, if_pos rfl, satWordN_toNat, State.rd_clearSent]
  · rw [State.bit_eq, State.irqRtc, State.irqAt_rd _ _ _ _ _ _ (by decide), if_pos rfl, bitOf_putBit_same _ _ _ (by decide)]
  · simp only [List.mem_cons, not_or] at hb
    obtain ⟨hcnt, hirq, hp⟩ := hb
    rw [State.irqRtc, State.irqAt_rd _ _ _ _ _ _ (by simpa using hp), if_neg hirq, State.rd_count, if_neg hcnt, State.rd_clearSent]

theorem wake_unsupplied (s : State) (ho : s.boot.phase = Phase.off) (h : s.fld Reg.RTC_WAKE 0 23 ≠ 0) : ∃ t, exec .wake s = .next t
    ∧ t.bit Reg.RTC_STAT 6 = true ∧ s.keepsRegs t [Reg.RTC_STAT] ∧ s.keepsParts t [] := by
  have hcall : exec .wake s = .next (s.setBit Reg.RTC_STAT 6 true) := by rw [exec_wake, if_pos ho, State.wake_off h ho]
  refine ⟨_, hcall, ?_, fun b hb => ?_, (State.setBit_keeps (k := 0) rfl (Keeps.refl s)).parts _ (fun p => by cases p <;> decide)⟩
  · rw [State.bit_eq, State.rd_setBit, if_pos rfl, bitOf_putBit_same _ _ _ (by decide)]
  · rw [State.rd_setBit, if_neg (List.ne_of_not_mem_cons hb)]

theorem wake_idle (s : State) (h : s.fld Reg.RTC_WAKE 0 23 = 0) : ∃ t, exec .wake s = .next t ∧ t.regs = s.regs ∧ s.keepsParts t [.sent] := by
  have hclear : s.clearSent.wake = s.clearSent := State.wake_unset h
  rw [exec_wake, State.wake_unset h, hclear]
  split
  · exact ⟨_, rfl, rfl, (Keeps.refl (k := 2) s).parts _ (fun p => by cases p <;> decide)⟩
  · exact ⟨_, rfl, rfl, (State.clearSent_keeps (k := 2) rfl (Keeps.refl s)).parts _ (fun p => by cases p <;> decide)⟩

/-! ## The charger (R463) -/

/-- The word that a BOOST writes: the settings of the charger with its bit 4. -/
def boostWord (w : Word) : Word := (w &&& 0xF#32) ||| 0x10#32

theorem boostWord_fields (w : Word) : bitOf (boostWord w) 4 = true ∧ bitsOf (boostWord w) 0 4 = bitsOf w 0 4 := by
  have hbit : bitOf (boostWord w) 4 = true := by
    simp [boostWord, bitOf]
  have hlow (i : Nat) (hi : i < 4) : bitOf (boostWord w) i = bitOf w i := by
    interval_cases i <;> simp [boostWord, bitOf]
  refine ⟨hbit, Nat.eq_of_testBit_eq fun i => ?_⟩
  rw [bitsOf_testBit, bitsOf_testBit, Nat.zero_add]
  by_cases hi : i < 4
  · rw [hlow i hi]
  · rw [decide_eq_false hi, Bool.false_and, Bool.false_and]

/-- A BOOST is granted only while none runs (R463). -/
theorem State.boost_granted {s : State} {src : Src} {v : Word} (hv : bitOf v 4 = true) (hg : s.grants src Reg.RTC_CHG v) :
    s.bit Reg.RTC_CHG 5 = false := by
  obtain ⟨-, -, -, -, -, hblock, -⟩ := (State.grants_simple (by decide)).mp hg
  rw [State.blockDeny, show blockOf Reg.RTC_CHG = some .rtc from rfl] at hblock
  have hchg : s.clearSent.chgDeny v = none := by
    simpa only [State.rtcDeny, ownDenial, Option.map_eq_none_iff, show Reg.RTC_CHG ≠ Reg.RTC_CTRL by decide,
      show Reg.RTC_CHG ≠ Reg.RTC_TRIM_CTRL by decide, if_false, if_true] using hblock
  cases hb : s.bit Reg.RTC_CHG 5 with
  | false => rfl
  | true =>
    rw [State.chgDeny, if_pos hv, show s.clearSent.bit Reg.RTC_CHG 5 = true from hb, if_pos (rfl : true = true)] at hchg
    split_ifs at hchg

/-- The charger's settings as written. -/
def State.chgPut (s : State) (v : Word) : State := s.setFld Reg.RTC_CHG 0 4 (bitsOf v 0 4)

theorem State.chgWrite_boost (s : State) {v : Word} (hv : bitOf v 4 = true) : s.chgWrite v = (s.chgPut v).batonRequest 3 2 := by
  rw [State.chgWrite, hv, State.onlyIf_true, State.chgPut]

/-- A request for batons looks at the batons and at the phase alone. -/
theorem State.batonRequest_lap {s t : State} (hl : t.lap = s.lap) (hb : t.boot = s.boot) (who need : Nat) :
    (t.batonRequest who need).lap = (s.batonRequest who need).lap := by
  have hp : t.pfailed = s.pfailed := by rw [State.pfailed, State.pfailed, hb]
  unfold State.batonRequest
  rw [hp, hl]
  split
  · exact hl
  · rfl

theorem State.batonRequest_rd (s : State) (who need b : Nat) : (s.batonRequest who need).rd b = s.rd b :=
  State.rd_congr (s.batonRequest_regs who need) b

theorem boost_asks (src : Src) (s : State) (hs : s.supplied) (hg : s.grants src Reg.RTC_CHG ((s.rd Reg.RTC_CHG &&& 0xF#32) ||| 0x10#32)) :
    ∃ t, exec (.boost src) s = .next t ∧ t.answer.status = .ok ∧ t.bit Reg.RTC_CHG 5 = false
      ∧ t.fld Reg.RTC_CHG 0 4 = s.fld Reg.RTC_CHG 0 4
      ∧ t.lap = (s.clearSent.batonRequest 3 2).lap ∧ s.keepsRegs t (Reg.RTC_CHG :: hostRegs) ∧ s.keepsParts t (.lap :: hostParts) := by
  obtain ⟨hbit, hfld⟩ := boostWord_fields (s.rd Reg.RTC_CHG)
  have hnone : s.bit Reg.RTC_CHG 5 = false := State.boost_granted hbit hg
  have heff := (s.clearSent.wordWrite_chgWrite src.slot.val (boostWord (s.rd Reg.RTC_CHG))).trans (State.chgWrite_boost _ hbit)
  have hput : Keeps 0 s.clearSent (s.clearSent.chgPut (boostWord (s.rd Reg.RTC_CHG))) := State.setFld_keeps rfl (Keeps.refl _)
  obtain ⟨t, ht, hok, hr, hw, hk⟩ := State.write1_answered (k := 8388687) hs hg (by decide) (by decide) heff (by decide)
    (State.batonRequest_keeps rfl (State.setFld_keeps rfl (Keeps.refl _)))
    (congrArg NvState.jobs ((State.batonRequest_keeps (k := 4) rfl (State.setFld_keeps rfl (Keeps.refl s.clearSent))).nv_same rfl))
  have hchg : t.rd Reg.RTC_CHG = putBits (s.rd Reg.RTC_CHG) 0 4 (bitsOf (s.rd Reg.RTC_CHG) 0 4) := by
    rw [hr _ (by decide), State.batonRequest_rd, State.chgPut, State.rd_setFld, if_pos rfl, hfld, State.rd_clearSent]
  have hcall : exec (.boost src) s = .next t :=
    (show execBoost src s = .next (s.clearSent.write1 src Reg.RTC_CHG (boostWord (s.rd Reg.RTC_CHG))) from State.act_supplied hs).trans
      ((State.act_supplied hs).symm.trans ht)
  refine ⟨t, hcall, hok, ?_, ?_, ?_, State.keepsRegs_answered (l := [Reg.RTC_CHG]) hr (fun b hb => ?_) (by decide),
    hk.parts _ (fun p => by cases p <;> decide)⟩
  · rw [State.bit_eq, hchg, bitOf_putBits _ _ _ _ _ (by decide)]
    exact hnone
  · rw [State.fld_eq, hchg, bitsOf_putBits_same _ _ _ _ (by decide), bitsOf_mod, State.fld_eq]
  · rw [hw.lap_same rfl, State.batonRequest_lap (hput.lap_same rfl) (hput.boot_same rfl)]
  · rw [State.batonRequest_rd, State.chgPut, State.rd_setFld, if_neg (List.ne_of_not_mem_cons hb), State.rd_clearSent]

theorem exec_boostEnd {s : State} (hs : s.supplied) (done : Bool) : exec (.boostEnd done) s = .next (s.clearSent.boostEnd done) :=
  show execBoostEnd done s = _ from State.act_supplied hs

theorem State.boostEnd_done {s : State} (h : s.bit Reg.RTC_CHG 5 = true) :
    s.boostEnd true = ((s.setBit Reg.RTC_CHG 5 false).batonRelease 3).batonCancel 3 := by
  unfold State.boostEnd
  rw [h]
  rfl

theorem State.boostEnd_again {s : State} (h : s.bit Reg.RTC_CHG 5 = true) : s.boostEnd false = (s.batonRelease 3).batonRequest 3 2 := by
  unfold State.boostEnd
  rw [h]
  rfl

theorem State.batonRelease_rd (s : State) (who b : Nat) : (s.batonRelease who).rd b = s.rd b := rfl
theorem State.batonCancel_rd (s : State) (who b : Nat) : (s.batonCancel who).rd b = s.rd b := rfl

/-- Giving batons back looks at the batons alone. -/
theorem State.batonReturn_lap {s t : State} (h : t.lap = s.lap) (who : Nat) :
    (t.batonRelease who).lap = (s.batonRelease who).lap ∧ ((t.batonRelease who).batonCancel who).lap = ((s.batonRelease who).batonCancel who).lap := by
  have hrel : (t.batonRelease who).lap = (s.batonRelease who).lap := by rw [State.batonRelease, State.batonRelease, h]
  exact ⟨hrel, by rw [State.batonCancel, State.batonCancel, hrel]⟩

theorem boostEnd_ends (done : Bool) (s : State) (hs : s.supplied) (h : s.bit Reg.RTC_CHG 5 = true) : ∃ t, exec (.boostEnd done) s = .next t
    ∧ t.bit Reg.RTC_CHG 5 = !done
    ∧ t.lap = (if done then ((s.batonRelease 3).batonCancel 3).lap else ((s.batonRelease 3).batonRequest 3 2).lap)
    ∧ s.keepsRegs t [Reg.RTC_CHG] ∧ s.keepsParts t [.sent, .lap] := by
  have hframe : s.keepsParts (s.clearSent.boostEnd done) [.sent, .lap] :=
    (State.boostEnd_keeps (k := 6) rfl (State.clearSent_keeps rfl (Keeps.refl s))).parts _ (fun p => by cases p <;> decide)
  refine ⟨_, exec_boostEnd hs done, ?_⟩
  cases done with
  | true =>
    have hset : Keeps 0 s.clearSent (s.clearSent.setBit Reg.RTC_CHG 5 false) := State.setBit_keeps rfl (Keeps.refl _)
    rw [State.boostEnd_done (s := s.clearSent) h] at hframe ⊢
    refine ⟨?_, (State.batonReturn_lap (s := s) (hset.lap_same rfl) 3).2, fun b hb => ?_, hframe⟩
    · rw [State.bit_eq, State.batonCancel_rd, State.batonRelease_rd, State.rd_setBit, if_pos rfl, bitOf_putBit_same _ _ _ (by decide)]
      rfl
    · rw [State.batonCancel_rd, State.batonRelease_rd, State.rd_setBit, if_neg (List.ne_of_not_mem_cons hb), State.rd_clearSent]
  | false =>
    rw [State.boostEnd_again (s := s.clearSent) h] at hframe ⊢
    rw [if_neg Bool.false_ne_true]
    refine ⟨?_, State.batonRequest_lap (s := s.batonRelease 3) (State.batonReturn_lap (s := s) (t := s.clearSent) rfl 3).1 rfl 3 2, fun b hb => ?_, hframe⟩
    · rw [State.bit_eq, State.batonRequest_rd, State.batonRelease_rd, State.rd_clearSent]
      exact h
    · rw [State.batonRequest_rd, State.batonRelease_rd, State.rd_clearSent]

theorem boostEnd_idle (done : Bool) (s : State) (hs : s.supplied) (h : s.bit Reg.RTC_CHG 5 = false) :
    ∃ t, exec (.boostEnd done) s = .next t ∧ t.regs = s.regs ∧ s.keepsParts t [.sent] := by
  have hidle : s.clearSent.boostEnd done = s.clearSent := if_pos (by rw [show s.clearSent.bit Reg.RTC_CHG 5 = false from h]; rfl)
  exact ⟨_, (exec_boostEnd hs done).trans (congrArg _ hidle), rfl,
    (State.clearSent_keeps (k := 2) rfl (Keeps.refl s)).parts _ (fun p => by cases p <;> decide)⟩

/-! ## The check of the battery (R462, R464) -/

/-- The verdict of the check, inverted by BATCHK. -/
def State.batLow (s : State) (mv : Nat) : Bool := s.injTest Reg.RTC_INJ 2 (decide (mv < 2200))

/-- The state with the measured voltage, its test run. -/
def State.batRead (s : State) (mv : Nat) : State := (s.wr Reg.RTC_BAT (BitVec.ofNat 32 mv)).injRan Reg.RTC_INJ 2

theorem State.batCheck_eq (s : State) (mv : Nat) :
    s.batCheck mv = (s.batRead mv).onlyIf (s.batLow mv) (fun s => (s.setBit Reg.RTC_STAT 2 true).irqRtc 3) := rfl

theorem State.batRead_rd (s : State) (mv : Nat) {b : Nat} (h1 : b ≠ Reg.RTC_INJ) (h2 : b ≠ Reg.ZID_CNT_INJ) :
    (s.batRead mv).rd b = if b = Reg.RTC_BAT then BitVec.ofNat 32 mv else s.rd b := by
  rw [State.batRead, State.injRan_rd _ _ _ _ h1 h2, State.rd_wr]

theorem State.batCheck_rd (s : State) (mv : Nat) {b : Nat} (hp : b ∉ pinRegs) : (s.batCheck mv).rd b
    = if s.batLow mv && b == Reg.RTC_IRQ then putBit ((s.batRead mv).rd b) 3 true
      else if s.batLow mv && b == Reg.RTC_STAT then putBit ((s.batRead mv).rd b) 2 true else (s.batRead mv).rd b := by
  rw [State.batCheck_eq, State.rd_onlyIf, State.irqRtc, State.irqAt_rd _ _ _ _ _ _ hp, State.rd_setBit, State.rd_setBit]
  cases s.batLow mv with
  | false => rfl
  | true =>
    simp only [if_true, Bool.true_and, beq_iff_eq]
    split_ifs with h1 h2 h3
    · exact absurd h2 (by decide)
    · rw [h1]
    · rw [h3]
    · rfl

theorem batCheck_checks (mv : BitVec 16) (s : State) (hs : s.supplied) : ∃ t, exec (.batCheck mv) s = .next t
    ∧ t.rd Reg.RTC_BAT = BitVec.ofNat 32 mv.toNat
    ∧ (let low := decide (mv.toNat < 2200) != s.bit Reg.RTC_INJ 2
       (t.bit Reg.RTC_STAT 2 = (s.bit Reg.RTC_STAT 2 || low)) ∧ t.bit Reg.RTC_IRQ 3 = (s.bit Reg.RTC_IRQ 3 || low))
    ∧ t.bit Reg.RTC_INJ 2 = false
    ∧ s.keepsRegs t ([Reg.RTC_BAT, Reg.RTC_STAT, Reg.RTC_IRQ, Reg.RTC_INJ, Reg.ZID_CNT_INJ] ++ pinRegs) ∧ s.keepsParts t [.sent, .zid] := by
  have hcall : exec (.batCheck mv) s = .next (s.clearSent.batCheck mv.toNat) := show execBatCheck mv s = _ from State.act_supplied hs
  have hlow : s.clearSent.batLow mv.toNat = (decide (mv.toNat < 2200) != s.bit Reg.RTC_INJ 2) := rfl
  refine ⟨_, hcall, ?_, ⟨?_, ?_⟩, ?_, fun b hb => ?_,
    (State.batCheck_keeps (k := 258) rfl (State.clearSent_keeps rfl (Keeps.refl s))).parts _ (fun p => by cases p <;> decide)⟩
  · rw [State.batCheck_rd _ _ (by decide), show (Reg.RTC_BAT == Reg.RTC_IRQ) = false by decide, show (Reg.RTC_BAT == Reg.RTC_STAT) = false by decide,
      Bool.and_false, if_neg Bool.false_ne_true, if_neg Bool.false_ne_true, State.batRead_rd _ _ (by decide) (by decide), if_pos rfl]
  · rw [State.bit_eq, State.batCheck_rd _ _ (by decide), show (Reg.RTC_STAT == Reg.RTC_IRQ) = false by decide, Bool.and_false,
      if_neg Bool.false_ne_true, show (Reg.RTC_STAT == Reg.RTC_STAT) = true by decide, Bool.and_true, hlow,
      State.batRead_rd _ _ (by decide) (by decide), if_neg (by decide : Reg.RTC_STAT ≠ Reg.RTC_BAT), State.bit_eq, State.rd_clearSent]
    exact bitOf_flagged _ (by decide) _
  · rw [State.bit_eq, State.batCheck_rd _ _ (by decide), show (Reg.RTC_IRQ == Reg.RTC_IRQ) = true by decide,
      show (Reg.RTC_IRQ == Reg.RTC_STAT) = false by decide, Bool.and_true, Bool.and_false, if_neg Bool.false_ne_true, hlow,
      State.batRead_rd _ _ (by decide) (by decide), if_neg (by decide : Reg.RTC_IRQ ≠ Reg.RTC_BAT), State.bit_eq, State.rd_clearSent]
    exact bitOf_flagged _ (by decide) _
  · rw [State.bit_eq, State.batCheck_rd _ _ (by decide), show (Reg.RTC_INJ == Reg.RTC_IRQ) = false by decide,
      show (Reg.RTC_INJ == Reg.RTC_STAT) = false by decide, Bool.and_false, if_neg Bool.false_ne_true, if_neg Bool.false_ne_true]
    exact State.injRan_clear _ (by decide) (by decide)
  · simp only [List.mem_append, List.mem_cons, List.not_mem_nil, or_false, not_or] at hb
    obtain ⟨⟨h1, h2, h3, h4, h5⟩, hp⟩ := hb
    rw [State.batCheck_rd _ _ (by simpa using hp), beq_eq_false_iff_ne.mpr h3, beq_eq_false_iff_ne.mpr h2, Bool.and_false,
      if_neg Bool.false_ne_true, if_neg Bool.false_ne_true, State.batRead_rd _ _ h4 h5, if_neg h1, State.rd_clearSent]

/-- Settles O52: wakes, the charger and the battery's check. -/
theorem calendarSupply : Obligations.CalendarSupply :=
  ⟨wake_wakes, wake_unsupplied, wake_idle, boost_asks, boostEnd_ends, boostEnd_idle, batCheck_checks⟩

end Sys2Proof.Machine

/-!
The response to a waiting request is charged to the host window class (R384), also where the request is refused or reads the clock:
that refutes O30 and O26, whose lists of changed components leave `used` out.
-/

namespace Sys2Proof.Machine

theorem State.opRefused_used_ne (s : State) (src : Src) (op : Nat) (st : Status) (info : Word) {r : HwpReq}
    (hq : s.hwp.queue.find? (fun r => r.slot == src.slot.val && r.op == op) = some r) (hh : s.hwp.held = []) (hu : 29 < s.used.length) :
    (s.opRefused src op st info).used ≠ s.used := by
  have hk : Keeps 256 s (s.hwpRefused 5 Reg.HWP_CNT_OPREF 4 op src.slot.val src.port.val st) := State.hwpRefused_keeps rfl (Keeps.refl s)
  have hw := hk.hwp_same rfl
  have hus := hk.used_same rfl
  rw [State.opRefused, ← hus]
  exact State.answerOp_used_ne _ src op _ (hw ▸ hq) (hw ▸ hh) (hus ▸ hu)

theorem State.opOk_used_ne (s : State) (src : Src) (op : Nat) (info : Word) (data : List Word) (epoch : Nat) {r : HwpReq}
    (hq : s.hwp.queue.find? (fun r => r.slot == src.slot.val && r.op == op) = some r) (hh : s.hwp.held = []) (hu : 29 < s.used.length) :
    (s.opOk src op info data epoch).used ≠ s.used :=
  State.answerOp_used_ne (s.count Reg.HWP_CNT_OK) src op _ hq hh hu

theorem exec_writelist {s : State} (hs : s.supplied) (src : Src) (l : List (Word × Word)) (drop : Option Nat) :
    exec (.writelist src l drop) s = .next (s.clearSent.opWords src true (l.map (fun e => (e.1.toNat, e.2))) drop []) :=
  show execWritelist src l drop s = _ from State.act_supplied hs

/-- The delivered module with a WRITELIST of key slot 1 waiting. -/
def listWaits : State :=
  { State.reset with hwp := { taken := 1, queue := [⟨1, 0, 3, 0, 0#32, 0#32, 0, 0#32, 0, [], 0, []⟩], held := [], stored := [] } }

/-- Refutes O30: a WRITELIST of the unassigned address 0x0000FFFC is refused, and its response to the waiting request is charged in the
component `used`, which is not among those that the statement lets change. -/
theorem not_wordsCheckedFirst : ¬ Obligations.WordsCheckedFirst := by
  intro h
  have hs : listWaits.supplied := by unfold State.supplied; decide
  have hscan : listWaits.clearSent.scanWords 1 [(0xFFFC, 0#32)] 0 = some (0, 0xFFFC, 0#32, .range, false) := by decide +kernel
  obtain ⟨t, ht, -, -, -, -, -, -, -, -, hparts⟩ := h ⟨1, 0⟩ [(0xFFFC#32, 0#32)] none listWaits hs _ hscan
  have e : t = (listWaits.clearSent.wordRefused 1 0xFFFC 0#32 (.range, false)).opRefused ⟨1, 0⟩ 3 .range 0#32 := by
    rw [Host.Outcome.next.inj (ht.symm.trans (exec_writelist hs ⟨1, 0⟩ _ none)), State.opWords]
    simp only [List.map_cons, List.map_nil, if_true]
    rw [show listWaits.clearSent.scanWords (1 : Fin 32).val [((0xFFFC#32 : Word).toNat, 0#32)] 0 = _ from hscan]
    rfl
  have hkept : t.used = listWaits.used := hparts.used (by decide)
  rw [e] at hkept
  exact State.opRefused_used_ne _ ⟨1, 0⟩ 3 .range 0#32 (r := ⟨1, 0, 3, 0, 0#32, 0#32, 0, 0#32, 0, [], 0, []⟩) rfl rfl (by decide) hkept

theorem exec_nowRead {s : State} (hs : s.supplied) (src : Src) :
    exec (.nowRead src) s = .next (s.clearSent.opRead src Reg.PTP_NOW_NS 1 0) :=
  show execNowRead src s = _ from State.act_supplied hs

/-- The delivered module with a READ of key slot 1 waiting. -/
def readWaits : State :=
  { State.reset with hwp := { taken := 1, queue := [⟨1, 0, 1, 0, 0#32, 0#32, 0, 0#32, 0, [], 0, []⟩], held := [], stored := [] } }

/-- Refutes O26: NOW_READ answers the waiting READ, and the response is charged in the component `used`, which is not among those that
the statement lets change. -/
theorem not_ptpClockCommands : ¬ Obligations.PtpClockCommands := by
  intro h
  have hs : readWaits.supplied := by unfold State.supplied; decide
  have hm : readWaits.clearSent.missing Reg.PTP_NOW_NS = false := by decide
  obtain ⟨-, -, -, -, -, -, -, -, -, hread⟩ := h
  obtain ⟨t, ht, -, -, hparts⟩ := hread ⟨1, 0⟩ readWaits hs
  have hk : Keeps 3407872 readWaits.clearSent (readWaits.clearSent.readWord 1 Reg.PTP_NOW_NS).2 := State.readWord_keeps rfl (Keeps.refl _)
  have hkept : t.used = readWaits.used := hparts.used (by decide)
  rw [Host.Outcome.next.inj (ht.symm.trans (exec_nowRead hs ⟨1, 0⟩)), State.opRead_register _ ⟨1, 0⟩ 0 (by decide) (by decide) hm] at hkept
  have hu : readWaits.used = (readWaits.clearSent.readWord 1 Reg.PTP_NOW_NS).2.used := (hk.used_same rfl).symm
  refine State.opOk_used_ne (readWaits.clearSent.readWord 1 Reg.PTP_NOW_NS).2 ⟨1, 0⟩ 1 _ _ _
    (r := ⟨1, 0, 1, 0, 0#32, 0#32, 0, 0#32, 0, [], 0, []⟩) ?_ ?_ ?_ (hkept.trans hu)
  · rw [hk.hwp_same rfl]; rfl
  · rw [hk.hwp_same rfl]; rfl
  · rw [hk.used_same rfl]; decide

end Sys2Proof.Machine

/-!
Challenges (R421): the answer charges NET one FAB block, in the component `used`, which O42 does not let change.
-/

namespace Sys2Proof.Machine

/-- A challenge answer charges NET 1 FAB block. -/
theorem State.send_challenge_fab (s : State) (port dst udp : Nat) (b : List Byte) (h : 21 < s.used.length) :
    (s.send ⟨.challenge, port, dst, udp, b⟩).used.getD 21 0 = s.used.getD 21 0 + 1 := by
  simp [State.send, Frame.cost, State.charge_used, classNet, resFab, resDram, h]

/-- So does the challenge that it answers. -/
theorem State.challenge_answered_fab {s : State} {mac : List Byte} (b : List Byte) (ip : Word) (p udp : Nat)
    (hm : s.macUnder engChal (s.fld Reg.KEY_CHAL 16 5) ((b.drop 4).take 16 ++ uidBytes) = some mac)
    (hc : (isChallenge b && s.key.answered < 4 && s.bit Reg.KEY_CHAL 24) = true) (h : 21 < s.used.length) :
    (s.challenge b ip p udp).used.getD 21 0 = s.used.getD 21 0 + 1 := by
  simp only [State.challenge, hm, hc, if_true]
  exact State.send_challenge_fab _ _ _ _ _ h

theorem exec_challenge {s : State} (hs : s.supplied) (port : Fin 3) (ip : Word) (udp : BitVec 16) (b : List Byte) :
    exec (.challenge port ip udp b) s = .next (s.clearSent.challengeFrame b port.val ip udp.toNat) :=
  show execChallenge port ip udp b s = _ from State.act_supplied hs

/-- A slot whose key in force serves the challenge engine. -/
def challengeSlot : KeySlot := ⟨none, none, ⟨1#32, some ⟨1, 0x10, List.replicate 16 0#8⟩⟩⟩

/-- The delivered module after H7, with challenges enabled under key slot 0. -/
def challengeable : State :=
  { State.reset.wr Reg.KEY_CHAL 0x1000000#32 with
    boot := { resetBoot with passed := [7] }, key := ⟨[(0, challengeSlot)], none, 0⟩ }

/-- The bytes of a challenge of zeros. -/
def challengeBytes : List Byte := [0x01#8, 0x21#8, 0#8, 0#8] ++ List.replicate 16 0#8

/-- That module once the frame of a challenge is taken. -/
def challenged : State := (challengeable.clearSent.ethAccept 0).1

theorem challenge_taken (h : (challengeable.clearSent.ethAccept 0).2 = true) (hon : challenged.hwpOn 0 = true) :
    challengeable.clearSent.challengeFrame challengeBytes 0 0#32 0 = challenged.challenge challengeBytes 0#32 0 0 := by
  unfold State.challengeFrame State.ethTake
  rw [if_pos h]
  exact if_pos hon

/-- Refutes O42: a challenge that is answered charges the frame in the component `used`, which is not among those that the statement
lets change. -/
theorem not_challengeAnswer : ¬ Obligations.ChallengeAnswer := by
  intro h
  have hs : challengeable.supplied := by unfold State.supplied; decide
  have ha : (challengeable.clearSent.ethAccept 0).2 = true := by decide +kernel
  have hon : challenged.hwpOn 0 = true := by decide +kernel
  have hkey : challenged.engineKey engChal (challenged.fld Reg.KEY_CHAL 16 5) = some (List.replicate 16 0#8) := by decide +kernel
  have hc : (isChallenge challengeBytes && challenged.key.answered < 4 && challenged.bit Reg.KEY_CHAL 24) = true := by decide +kernel
  have hu : challenged.used = challengeable.used := by decide +kernel
  obtain ⟨t, ht, -, -, hparts⟩ := h 0 0#32 0#16 challengeBytes challengeable hs ha (by decide +kernel)
  have e : t = challenged.challenge challengeBytes 0#32 0 0 :=
    (Host.Outcome.next.inj (ht.symm.trans (exec_challenge hs 0 0#32 0#16 challengeBytes))).trans (challenge_taken ha hon)
  have hkept : t.used = challenged.used := (hparts.used (by decide)).trans hu.symm
  have hfab := State.challenge_answered_fab challengeBytes 0#32 0 0 (congrArg (Option.map _) hkey) hc (by rw [hu]; decide)
  rw [← e, hkept] at hfab
  omega

end Sys2Proof.Machine

/-!
Key updates (R418): a tally increment that has failed in this lap is repeated at the next one (R427), which O41 leaves out.
-/

namespace Sys2Proof.Machine

theorem exec_keyUpdateDone {s : State} (hs : s.supplied) (rb : ReadBack) : exec (.keyUpdateDone rb) s = .next (s.clearSent.keyUpdateDone rb) :=
  show execKeyUpdateDone rb s = _ from State.act_supplied hs

/-- The delivered module with a key update whose increment of tally 2 has failed in the present lap. -/
def incrementFailed : State :=
  { State.reset with
    key := { resetKey with job := some ⟨2, ⟨1#32, none⟩, false, false⟩ }
    nv := { resetNv with tallyJobs := [(2, false)], failed := [18] } }

/-- Refutes O41: the increment of tally 2 has failed in this lap, so KEY_UPDATE_DONE leaves tally 2 at 0, where the statement has it one
greater. -/
theorem not_keyUpdateSteps : ¬ Obligations.KeyUpdateSteps := by
  intro h
  obtain ⟨-, hinc, -⟩ := h
  have hs : incrementFailed.supplied := by unfold State.supplied; decide
  obtain ⟨t, ht, htally, -⟩ := hinc goodRb incrementFailed hs (by decide +kernel) _ rfl rfl rfl
  have hv : (incrementFailed.clearSent.keyUpdateDone goodRb).tallyV 2 = incrementFailed.tallyV 2 := by decide +kernel
  rw [Host.Outcome.next.inj (ht.symm.trans (exec_keyUpdateDone hs goodRb)), hv] at htally
  exact absurd htally (by decide +kernel)

end Sys2Proof.Machine

/-!
What two statements leave out: the ready CAN buffers that a fall of DRIVE gates (R328), and a page that is written after a power failure
(R503).
-/

namespace Sys2Proof.Machine

theorem exec_intlkInChange {s : State} (hs : s.supplied) (level : Bool) : exec (.intlkInChange level) s = .next (s.clearSent.intlkChange level) :=
  congrArg Host.Outcome.next (if_neg hs)

/-- The delivered module as a MEMBER that drives after H11, with a ready LOOP buffer in CAN channel 0. -/
def drivesCan : State :=
  { (State.reset.wr (Reg.CAN_TXB_b_CTRL 0 0) 1#32).wr (Reg.CAN_TXB_b_FMT 0 0) 0xFFFFFFFF#32 with
    boot := { resetBoot with passed := [11] }, pair := { resetPair with role := 1, latch := true, grantIn := true } }

/-- Refutes O34: the rise of INTLK_IN ends DRIVE and gates the ready buffer, which sets bit 10 of CAN_STAT of its channel, a register that
the statement says to stay. -/
theorem not_pairLevels : ¬ Obligations.PairLevels := by
  intro h
  obtain ⟨hintlk, -⟩ := h
  have hs : drivesCan.supplied := by unfold State.supplied; decide
  obtain ⟨t, ht, -, -, -, hregs, -⟩ := hintlk true drivesCan hs
  have hstat : (drivesCan.clearSent.intlkChange true).bit (Reg.CAN_STAT 0) 10 = true := by decide +kernel
  have hkept : t.bit (Reg.CAN_STAT 0) 10 = drivesCan.bit (Reg.CAN_STAT 0) 10 := congrArg (bitOf · 10) (hregs _ (by decide))
  rw [Host.Outcome.next.inj (ht.symm.trans (exec_intlkInChange hs true)), hstat] at hkept
  exact absurd hkept (by decide +kernel)

theorem exec_pageProgram {s : State} (hs : s.supplied) (writer : PageWriter) (rb : ReadBack) :
    exec (.pageProgram writer rb) s = .next (s.clearSent.pageProgram writer rb) :=
  show execPageProgram writer rb s = _ from State.act_supplied hs

/-- The delivered module after a power failure, its last answer BUSY, with a write of one word of region 3 waiting for its page. -/
def writeAtFailure : State :=
  { State.reset with
    answer := ⟨.busy, 0#32, [], 0⟩
    boot := { resetBoot with phase := .shutdown }
    nv := { resetNv with jobs := [⟨⟨1, 0⟩, [(0x20340000, 7#32)], 0, false, none, 0, none⟩] } }

/-- Refutes O45: after a power failure the page is written, and its request is not answered any more, where the statement has the answer
OK. -/
theorem not_nvPagePrograms : ¬ Obligations.NvPagePrograms := by
  intro h
  obtain ⟨-, hpage, -⟩ := h
  have hs : writeAtFailure.supplied := by unfold State.supplied; decide
  obtain ⟨t, ht, -, hgood, -⟩ := hpage goodRb writeAtFailure hs (by decide +kernel) _ _ rfl rfl rfl _ rfl (by decide) (by decide) (by decide)
    (by decide +kernel)
  obtain ⟨-, hok, -⟩ := hgood rfl
  have hbusy : (writeAtFailure.clearSent.pageProgram .direct goodRb).answer.status = .busy := by decide +kernel
  rw [Host.Outcome.next.inj (ht.symm.trans (exec_pageProgram hs .direct goodRb)), hbusy] at hok
  exact absurd hok (by decide)

end Sys2Proof.Machine

/-!
An accepted status telegram charges NET one FAB block (R346), in the component `used`, which O22 does not let change.
-/

namespace Sys2Proof.Machine

theorem exec_statusTelegram {s : State} (hs : s.supplied) (port : Fin 3) (ip : Word) (b : List Byte) :
    exec (.statusTelegram port ip b) s = .next (s.clearSent.statusTelegram port.val ip b) :=
  show execStatusTelegram port ip b s = _ from State.act_supplied hs

/-- Bytes 0x00 to 0x27 of a telegram of substation 0. -/
def telegramHead : List Byte := [1#8, 2#8, 0#8, 0#8, 0#8, 0#8, 48#8, 0#8] ++ List.replicate 32 0#8

/-- A key for telegrams. -/
def telegramKey : List Byte := List.replicate 16 0#8

/-- An image whose TELE section at 0x80 names one substation, with address 0.0.0.1, port 0 and key slot 0. -/
def teleImage : ImgBytes :=
  tabSetList 0#8 (tabSetList 0#8 (tabSetList 0#8 [] 0x0C [1#8]) 0x40 [10#8, 0#8, 0#8, 0#8, 0x80#8]) 0x80
    ([0#8, 0#8, 1#8] ++ List.replicate 13 0#8 ++ [0#8, 0#8, 0#8, 1#8, 1#8, 0#8])

/-- The delivered module after H7 with that image running and telegrams enabled on port 0. -/
def teleRuns : State :=
  { (State.reset.wr Reg.IMG_RUN 2#32).wr (Reg.ETH_PORT_p_CFG 0) 9#32 with
    boot := { resetBoot with passed := [7] }
    img := { resetImg with slotA := teleImage }
    key := ⟨[(0, ⟨none, none, ⟨1#32, some ⟨1, 2, telegramKey⟩⟩⟩)], none, 0⟩ }

/-- The telegram with its MAC. -/
def telegramBytes : List Byte := telegramHead ++ (cmac telegramKey telegramHead).take 8

/-- Refutes O22: the telegram, which passes every check, charges 1 FAB block of NET in the component `used`, which is not among those
that the statement lets change. -/
theorem not_statusTelegrams : ¬ Obligations.StatusTelegrams := by
  intro h
  obtain ⟨htel, -⟩ := h
  have hs : teleRuns.supplied := by unfold State.supplied; decide
  obtain ⟨t, ht, -, hparts⟩ := htel 0 1#32 telegramBytes teleRuns hs (by decide +kernel) (by decide +kernel) (by decide +kernel)
    (by decide +kernel)
  have hcharged : (teleRuns.clearSent.statusTelegram 0 1#32 telegramBytes).used.getD 21 0 = 1 := by decide +kernel
  have hkept : t.used = teleRuns.used := hparts.used (by decide)
  rw [Host.Outcome.next.inj (ht.symm.trans (exec_statusTelegram hs 0 1#32 telegramBytes))] at hkept
  exact absurd (hcharged.symm.trans (congrArg (·.getD 21 0) hkept)) (by decide)

end Sys2Proof.Machine

/-!
A frame that a port takes (R337), and the witness: what is heard (R392), a move of the grant, and the 5 ms between two grants (R390,
R397), which settles O39.
-/

namespace Sys2Proof.Machine

/-! ## A frame taken -/

/-- A frame counts against its port's limit of the lap. -/
def State.frameCounted (s : State) (p : Nat) : State :=
  { s with eth := { s.eth with frames := s.eth.frames.set p (listGet s.eth.frames p + 1) } }

theorem State.ethAccept_taken {s : State} {p : Nat} (h : (s.ethAccept p).2 = true) :
    s.portUp p = true ∧ listGet s.eth.frames p < frameLimit p ∧ (s.ethAccept p).1 = s.frameCounted p := by
  unfold State.ethAccept at h ⊢
  split at h
  · exact absurd h Bool.false_ne_true
  · next hup =>
    split at h
    · exact absurd h Bool.false_ne_true
    · next hfull =>
      rw [if_neg hup, if_neg hfull]
      exact ⟨by simpa using hup, Nat.lt_of_not_le hfull, rfl⟩

/-- A frame that is taken acts, once it is counted. -/
theorem State.ethTake_taken {s : State} {p : Nat} (f : State → State) (h : (s.ethAccept p).2 = true) :
    s.ethTake p f = f (s.frameCounted p) :=
  (if_pos h).trans (congrArg f (State.ethAccept_taken h).2.2)

/-- A command that a taken frame brings. -/
theorem State.act_taken {s : State} {p : Nat} (f : State → State) (hs : s.supplied) (h : (s.clearSent.ethAccept p).2 = true) :
    s.act (fun t => t.ethTake p f) = .next (f (s.clearSent.frameCounted p)) :=
  (State.act_supplied hs).trans (congrArg Host.Outcome.next (State.ethTake_taken f h))

/-! ## Owl messages -/

theorem State.owlChecked_rd (s : State) (m : List Byte) {b : Nat} (h1 : b ≠ Reg.PAIR_INJ) (h2 : b ≠ Reg.ZID_CNT_INJ) :
    (s.owlChecked m).rd b = s.rd b := by
  unfold State.owlChecked
  split
  · exact State.injRan_rd _ _ _ _ h1 h2
  · rfl

theorem State.owlChecked_pair (s : State) (m : List Byte) : (s.owlChecked m).pair = s.pair :=
  (State.owlChecked_keeps (k := 0) rfl (Keeps.refl s)).pair_same rfl

/-- An Owl message that fails the checks of R392. -/
def State.owlDropped (s : State) (m : List Byte) : State := ((s.owlChecked m).count Reg.PAIR_CNT_OWLDROP).setBit Reg.PAIR_STAT 6 true

theorem State.owlDropped_rd (s : State) (m : List Byte) {b : Nat} (h1 : b ≠ Reg.PAIR_INJ) (h2 : b ≠ Reg.ZID_CNT_INJ) :
    (s.owlDropped m).rd b = if b = Reg.PAIR_STAT then putBit (s.rd Reg.PAIR_STAT) 6 true
      else if b = Reg.PAIR_CNT_OWLDROP then satWordN ((s.rd Reg.PAIR_CNT_OWLDROP).toNat + 1) else s.rd b := by
  unfold State.owlDropped
  rw [State.rd_setBit, State.rd_count, State.rd_count, if_neg (by decide : Reg.PAIR_STAT ≠ Reg.PAIR_CNT_OWLDROP),
    State.owlChecked_rd _ _ (by decide) (by decide), State.owlChecked_rd _ _ (by decide) (by decide), State.owlChecked_rd _ _ h1 h2]

theorem State.owlDropped_counts (s : State) (m : List Byte) : (s.owlDropped m).bit Reg.PAIR_STAT 6 = true
    ∧ ((s.owlDropped m).rd Reg.PAIR_CNT_OWLDROP).toNat = min 0xFFFFFFFF ((s.rd Reg.PAIR_CNT_OWLDROP).toNat + 1) := by
  constructor
  · rw [State.bit_eq, State.owlDropped_rd _ _ (by decide) (by decide), if_pos rfl, bitOf_putBit_same _ _ _ (by decide)]
  · rw [State.owlDropped_rd _ _ (by decide) (by decide), if_neg (by decide), if_pos rfl, satWordN_toNat]

/-! ## Heartbeats at a witness (R397) -/

/-- What a heartbeat says of its member. -/
def heardOf (m : List Byte) (lap : Nat) : Heard :=
  ⟨BitVec.ofNat 32 (msgNum m 8 4), msgNum m 0x0C 4, lap, msgNum m 5 1 == 4, (msgNum m 6 2).testBit 0, (msgNum m 6 2).testBit 5,
    (msgNum m 6 2).testBit 4⟩

/-- The heartbeat is the first of its side, of another start, or newer. -/
def State.heardNew (s : State) (m : List Byte) : Bool := match s.heard (msgNum m 4 1 == 1) with
  | none => true
  | some h => if h.boot = msgNum m 0x0C 4 then newerSeq 32 (msgNum m 8 4) h.hbSeq.toNat else true

theorem State.heardNew_eq (s : State) (m : List Byte) : s.heardNew m = match s.heard (msgNum m 4 1 == 1) with
    | none => true
    | some h => h.boot != msgNum m 0x0C 4 || newerSeq 32 (msgNum m 8 4) h.hbSeq.toNat := by
  unfold State.heardNew
  cases s.heard (msgNum m 4 1 == 1) with
  | none => rfl
  | some x => by_cases hb : x.boot = msgNum m 0x0C 4 <;> simp [hb]

/-- A witness accepts the heartbeat (R392, R397). -/
def State.heartbeatGood (s : State) (m : List Byte) : Bool := s.owlGood m 0x11 && msgNum m 4 1 ≤ 1 && s.heardNew m

/-- Keep what a heartbeat of a side says. -/
def State.putHeard (s : State) (b : Bool) (h : Heard) : State :=
  if b then { s with pair := { s.pair with hearB := some h } } else { s with pair := { s.pair with hearA := some h } }

theorem State.putHeard_rd (s : State) (b : Bool) (h : Heard) (a : Nat) : (s.putHeard b h).rd a = s.rd a := by
  cases b <;> rfl

theorem State.heard_putHeard (s : State) (b : Bool) (h : Heard) :
    (s.putHeard b h).heard b = some h ∧ (s.putHeard b h).heard (!b) = s.heard (!b) := by
  cases b <;> exact ⟨rfl, rfl⟩

theorem State.putHeard_lap (s : State) (b : Bool) (h : Heard) : (s.putHeard b h).lap = s.lap := by
  cases b <;> rfl

theorem State.witnessHear_eq {s : State} (m : List Byte) (h : s.pair.role = 2) : s.witnessHear m
    = if s.heartbeatGood m then (s.owlChecked m).putHeard (msgNum m 4 1 == 1) (heardOf m s.lap.count) else s.owlDropped m := by
  unfold State.witnessHear
  rw [if_neg (by simp [h])]
  rfl

theorem State.witnessHear_keepsRegs {s : State} (m : List Byte) (h : s.pair.role = 2) :
    s.keepsRegs (s.witnessHear m) [Reg.PAIR_CNT_OWLDROP, Reg.PAIR_STAT, Reg.PAIR_INJ, Reg.ZID_CNT_INJ] := fun b hb => by
  simp only [List.mem_cons, List.not_mem_nil, or_false, not_or] at hb
  obtain ⟨hcnt, hstat, hinj, hrun⟩ := hb
  rw [State.witnessHear_eq m h]
  split
  · rw [State.putHeard_rd, State.owlChecked_rd _ _ hinj hrun]
  · rw [State.owlDropped_rd _ _ hinj hrun, if_neg hstat, if_neg hcnt]

theorem exec_witnessHeartbeat {s : State} (port : Fin 3) (m : List Byte) (hs : s.supplied) (hp : port.val ≠ 2)
    (ha : (s.clearSent.ethAccept port.val).2 = true) :
    exec (.witnessHeartbeat port m) s = .next ((s.clearSent.frameCounted port.val).witnessHear m) := by
  refine (State.act_taken _ hs ha).trans (congrArg Host.Outcome.next ?_)
  rw [show (port.val != 2) = true from by simpa using hp, State.onlyIf_true]

theorem witnessHeartbeat_heard (port : Fin 3) (m : List Byte) (s : State) (hs : s.supplied) (hp : port.val ≠ 2)
    (ha : (s.clearSent.ethAccept port.val).2 = true) (hr : s.pair.role = 2) : ∃ t, exec (.witnessHeartbeat port m) s = .next t
    ∧ (s.heartbeatGood m = true → (t.heard (msgNum m 4 1 == 1)).map (fun h => (h.hbSeq, h.lap)) = some (BitVec.ofNat 32 (msgNum m 8 4), s.lap.count)
        ∧ t.heardAge (msgNum m 4 1 == 1) = 0 ∧ t.heard (!(msgNum m 4 1 == 1)) = s.heard (!(msgNum m 4 1 == 1)))
    ∧ (s.heartbeatGood m = false → t.pair = s.pair ∧ t.bit Reg.PAIR_STAT 6 = true
        ∧ (t.rd Reg.PAIR_CNT_OWLDROP).toNat = min 0xFFFFFFFF ((s.rd Reg.PAIR_CNT_OWLDROP).toNat + 1))
    ∧ s.keepsRegs t [Reg.PAIR_CNT_OWLDROP, Reg.PAIR_STAT, Reg.PAIR_INJ, Reg.ZID_CNT_INJ] := by
  have hgood : (s.clearSent.frameCounted port.val).heartbeatGood m = s.heartbeatGood m := rfl
  have heq := State.witnessHear_eq (s := s.clearSent.frameCounted port.val) m hr
  refine ⟨_, exec_witnessHeartbeat port m hs hp ha, fun h => ?_, fun h => ?_, State.witnessHear_keepsRegs (s := s.clearSent.frameCounted port.val) m hr⟩
  · rw [heq, hgood, if_pos h]
    obtain ⟨hsame, hother⟩ := State.heard_putHeard ((s.clearSent.frameCounted port.val).owlChecked m) (msgNum m 4 1 == 1) (heardOf m s.lap.count)
    have hlap : ((s.clearSent.frameCounted port.val).owlChecked m).lap = s.lap :=
      (State.owlChecked_keeps (k := 0) rfl (Keeps.refl _)).lap_same rfl
    refine ⟨congrArg _ hsame, ?_, hother.trans ?_⟩
    · unfold State.heardAge
      rw [show (s.clearSent.frameCounted port.val).lap.count = s.lap.count from rfl, hsame, State.putHeard_lap, hlap]
      exact (congrArg (min 255) (Nat.sub_self s.lap.count))
    · unfold State.heard
      rw [State.owlChecked_pair]
      rfl
  · rw [heq, hgood, if_neg (by rw [h]; decide)]
    exact ⟨State.owlChecked_pair _ m, State.owlDropped_counts _ m⟩

/-! ## A move of the grant (R390, R397) -/

theorem exec_grantMove {s : State} (hs : s.supplied) : exec .grantMove s = .next s.clearSent.grantMoveBegin :=
  show execGrantMove s = _ from State.act_supplied hs

theorem exec_grantAssert {s : State} (hs : s.supplied) : exec .grantAssert s = .next s.clearSent.grantAssertLine :=
  show execGrantAssert s = _ from State.act_supplied hs

/-- Both grant lines low. -/
def State.linesLow (s : State) : State := (s.setBit Reg.PAIR_WIT_STATE 4 false).setBit Reg.PAIR_WIT_STATE 5 false

/-- The pair's state once a move to side `y` has begun. -/
def State.moveBegun (s : State) (y : Bool) : PairState :=
  let lowAt := if s.bit Reg.PAIR_WIT_STATE 4 || s.bit Reg.PAIR_WIT_STATE 5 then s.now else s.pair.lowAt
  { s.pair with moveTo := some y, moveAsked := false, lowAt := lowAt }

theorem State.grantMoveBegin_begins {s : State} {y : Bool} (hr : s.pair.role = 2) (hn : s.pair.moveTo = none) (hy : s.witnessMove = some y) :
    s.grantMoveBegin = { s.linesLow with pair := s.moveBegun y } := by
  simp only [State.grantMoveBegin, hr, hn, hy]
  rfl

theorem State.grantMoveBegin_idle {s : State} (h : s.pair.role ≠ 2 ∨ s.pair.moveTo ≠ none ∨ s.witnessMove = none) : s.grantMoveBegin = s := by
  unfold State.grantMoveBegin
  split
  · rfl
  · next hc =>
    have hrole : s.pair.role = 2 := by by_contra hr; exact hc (by simp [hr])
    have hto : s.pair.moveTo = none := by
      cases hm : s.pair.moveTo with
      | none => rfl
      | some y => exact absurd (by simp [hm]) hc
    rw [(h.resolve_left (not_not_intro hrole)).resolve_left (not_not_intro hto)]

theorem State.linesLow_rd (s : State) (b : Nat) : s.linesLow.rd b
    = if b = Reg.PAIR_WIT_STATE then putBit (putBit (s.rd Reg.PAIR_WIT_STATE) 4 false) 5 false else s.rd b := by
  unfold State.linesLow
  rw [State.rd_setBit, State.rd_setBit, if_pos rfl]
  split
  · rfl
  · next h => rw [State.rd_setBit, if_neg h]

theorem grantMove_begins (s : State) (hs : s.supplied) (hr : s.pair.role = 2) (hn : s.pair.moveTo = none) (y : Bool)
    (hy : s.witnessMove = some y) : ∃ t, exec .grantMove s = .next t ∧ t.pair.moveTo = some y ∧ t.bit Reg.PAIR_WIT_STATE 4 = false
    ∧ t.bit Reg.PAIR_WIT_STATE 5 = false ∧ ((s.bit Reg.PAIR_WIT_STATE 4 || s.bit Reg.PAIR_WIT_STATE 5) = true → t.pair.lowAt = s.now)
    ∧ s.keepsRegs t [Reg.PAIR_WIT_STATE] ∧ s.keepsParts t [.sent, .pair] := by
  have hparts := (State.grantMoveBegin_keeps (k := 8194) rfl (State.clearSent_keeps rfl (Keeps.refl s))).parts [.sent, .pair]
    (fun p => by cases p <;> decide)
  have hcall := exec_grantMove hs
  rw [State.grantMoveBegin_begins (s := s.clearSent) hr hn hy] at hcall hparts
  have hbits := s.clearSent.linesLow_rd Reg.PAIR_WIT_STATE
  refine ⟨_, hcall, rfl, ?_, ?_, fun h => (if_pos h : (if _ then s.now else s.pair.lowAt) = s.now), fun b hb => (s.clearSent.linesLow_rd b).trans (if_neg (List.ne_of_not_mem_cons hb)), hparts⟩
  · change bitOf (s.clearSent.linesLow.rd _) 4 = false
    rw [hbits, if_pos rfl, bitOf_putBit_apart _ _ _ _ (by decide) (by decide), bitOf_putBit_same _ _ _ (by decide)]
  · change bitOf (s.clearSent.linesLow.rd _) 5 = false
    rw [hbits, if_pos rfl, bitOf_putBit_same _ _ _ (by decide)]

theorem grantMove_idle (s : State) (hs : s.supplied) (h : s.pair.role ≠ 2 ∨ s.pair.moveTo ≠ none ∨ s.witnessMove = none) :
    ∃ t, exec .grantMove s = .next t ∧ t.regs = s.regs ∧ s.keepsParts t [.sent] := by
  have hcall := exec_grantMove hs
  rw [State.grantMoveBegin_idle (s := s.clearSent) h] at hcall
  exact ⟨_, hcall, rfl, (State.clearSent_keeps (k := 2) rfl (Keeps.refl s)).parts _ (fun p => by cases p <;> decide)⟩

theorem State.grantAssertLine_idle {s : State} (h : s.pair.moveTo = none ∨ s.lowEnough = false) : s.grantAssertLine = s := by
  unfold State.grantAssertLine
  split
  · rfl
  · next y hy => rw [if_pos (by rw [h.resolve_left (by rw [hy]; exact Option.some_ne_none y)]; rfl)]

theorem grantAssert_idle (s : State) (hs : s.supplied) (h : s.pair.moveTo = none ∨ s.lowEnough = false) :
    ∃ t, exec .grantAssert s = .next t ∧ t.regs = s.regs ∧ s.keepsParts t [.sent] := by
  have hcall := exec_grantAssert hs
  rw [State.grantAssertLine_idle (s := s.clearSent) h] at hcall
  exact ⟨_, hcall, rfl, (State.clearSent_keeps (k := 2) rfl (Keeps.refl s)).parts _ (fun p => by cases p <;> decide)⟩

/-- The new side's line is high, and GRANT and GRANTSEQ name it. -/
def State.lineHigh (s : State) (y : Bool) : State :=
  ((s.setBit Reg.PAIR_WIT_STATE (if y then 5 else 4) true).setFld Reg.PAIR_WIT_STATE 0 2 (if y then 2 else 1)).wr Reg.PAIR_WIT_SEQ
    (s.rd Reg.PAIR_WIT_SEQ + 1#32)

theorem State.lineHigh_rd (s : State) (y : Bool) (b : Nat) : (s.lineHigh y).rd b
    = if b = Reg.PAIR_WIT_SEQ then s.rd Reg.PAIR_WIT_SEQ + 1#32
      else if b = Reg.PAIR_WIT_STATE then putBits (putBit (s.rd Reg.PAIR_WIT_STATE) (if y then 5 else 4) true) 0 2 (if y then 2 else 1)
      else s.rd b := by
  unfold State.lineHigh
  rw [State.rd_wr, State.rd_setFld, State.rd_setBit, State.rd_setBit, if_pos rfl]
  split
  · rfl
  · split
    · rfl
    · rfl

theorem State.sendGrant_rd (s : State) (b : Nat) : s.sendGrant.rd b = s.rd b := by
  unfold State.sendGrant
  split
  · split
    · rfl
    · refine State.rd_forEach _ _ _ ?_ s
      exact fun u p => rfl
  · rfl

theorem State.sendGrant_pair (s : State) : s.sendGrant.pair = s.pair :=
  (State.sendGrant_keeps (k := 8388610) rfl (Keeps.refl s)).pair_same rfl

theorem State.grantAssertLine_raises {s : State} {y : Bool} (hy : s.pair.moveTo = some y) (h : s.lowEnough = true) :
    s.grantAssertLine = ({ s.lineHigh y with pair := { s.pair with moveTo := none } }).sendGrant := by
  simp only [State.grantAssertLine, hy, h]
  rfl

theorem grantAssert_raises (s : State) (hs : s.supplied) (y : Bool) (hy : s.pair.moveTo = some y) (h : s.lowEnough = true) :
    ∃ t, exec .grantAssert s = .next t ∧ t.pair = { s.pair with moveTo := none } ∧ t.bit Reg.PAIR_WIT_STATE (if y then 5 else 4) = true
    ∧ t.bit Reg.PAIR_WIT_STATE (if y then 4 else 5) = s.bit Reg.PAIR_WIT_STATE (if y then 4 else 5)
    ∧ t.witGranted = some y ∧ t.rd Reg.PAIR_WIT_SEQ = s.rd Reg.PAIR_WIT_SEQ + 1#32
    ∧ s.keepsRegs t [Reg.PAIR_WIT_STATE, Reg.PAIR_WIT_SEQ] ∧ s.keepsParts t [.sent, .pair, .used] := by
  have hparts := (State.grantAssertLine_keeps (k := 8396802) rfl (State.clearSent_keeps rfl (Keeps.refl s))).parts [.sent, .pair, .used]
    (fun p => by cases p <;> decide)
  have hcall := exec_grantAssert hs
  rw [State.grantAssertLine_raises (s := s.clearSent) hy h] at hcall hparts
  generalize hu : State.sendGrant _ = u at hcall hparts
  have hrd (b : Nat) : u.rd b = (s.clearSent.lineHigh y).rd b := hu ▸ State.sendGrant_rd _ b
  have hstate : u.rd Reg.PAIR_WIT_STATE = putBits (putBit (s.rd Reg.PAIR_WIT_STATE) (if y then 5 else 4) true) 0 2 (if y then 2 else 1) := by
    rw [hrd, State.lineHigh_rd, if_neg (by decide), if_pos rfl]
    rfl
  refine ⟨u, hcall, hu ▸ State.sendGrant_pair _, ?_, ?_, ?_, ?_, fun b hb => ?_, hparts⟩
  · cases y <;> rw [State.bit_eq, hstate, bitOf_putBits _ _ _ _ _ (by decide), if_neg (by decide)] <;>
      exact bitOf_putBit_same _ _ _ (by decide)
  · cases y <;> rw [State.bit_eq, hstate, bitOf_putBits _ _ _ _ _ (by decide), if_neg (by decide)] <;>
      exact bitOf_putBit_apart _ _ _ _ (by decide) (by decide)
  · unfold State.witGranted
    rw [State.fld_eq, hstate, bitsOf_putBits_same _ _ _ _ (by decide)]
    cases y <;> rfl
  · rw [hrd, State.lineHigh_rd, if_pos rfl]
    rfl
  · simp only [List.mem_cons, List.not_mem_nil, or_false, not_or] at hb
    rw [hrd, State.lineHigh_rd, if_neg hb.2, if_neg hb.1]
    rfl

/-! ## MOVE -/

theorem State.witCtrl_move (s : State) : s.witCtrl 1#32 = { s with pair := { s.pair with moveAsked := true } } := rfl

theorem move_noted (src : Src) (s : State) (hs : s.supplied) (hg : s.grants src Reg.PAIR_WIT_CTRL 1#32) :
    ∃ t, exec (.move src) s = .next t ∧ t.answer.status = .ok ∧ t.pair = { s.pair with moveAsked := true }
    ∧ s.keepsRegs t hostRegs ∧ s.keepsParts t (.pair :: hostParts) := by
  obtain ⟨t, ht, hok, hrd, hend, hkeep⟩ := State.write1_answered (k := 8396875) hs hg (by decide) (by decide)
    ((s.clearSent.wordWrite_witCtrl src.slot.val 1#32).trans s.clearSent.witCtrl_move) (by decide)
    (Keeps.set_pair (by decide) (Keeps.refl _)) rfl
  exact ⟨t, ht, hok, hend.pair_same rfl, State.keepsRegs_answered (l := []) hrd (fun b _ => rfl) (by decide),
    hkeep.parts _ (fun p => by cases p <;> decide)⟩

/-- Settles O39. -/
theorem pairWitness : Obligations.PairWitness :=
  ⟨fun port m s hs hp ha hr => by
    have hheard := witnessHeartbeat_heard port m s hs hp ha hr
    simp only [State.heartbeatGood, State.heardNew_eq] at hheard
    obtain ⟨t, ht, hgood, hbad, hregs⟩ := hheard
    exact ⟨t, ht, ⟨hgood, hbad⟩, hregs⟩, grantMove_begins, grantMove_idle, grantAssert_idle, grantAssert_raises, move_noted⟩

end Sys2Proof.Machine

/-!
AES (Machine/Bits): a block stays a block of 16 bytes under a key of any length, and so do a CMAC and an XTS unit.
-/

namespace Sys2Proof.Machine

theorem length_beBytes (n v : Nat) : (beBytes n v).length = n := by
  simp [beBytes, leBytes]

theorem length_xorBytes {n : Nat} {a b : List Byte} (ha : a.length = n) (hb : b.length = n) : (xorBytes a b).length = n := by
  rw [xorBytes, List.length_zipWith, ha, hb, Nat.min_self]

theorem length_shiftRows (b : List Byte) : (shiftRows b).length = 16 := by
  simp [shiftRows]

theorem length_mixCols (r : List Nat) (b : List Byte) : (mixCols r b).length = 16 := by
  simp [mixCols]

/-- Blocks of a list whose length they divide are whole. -/
theorem length_of_mem_blocksOf {n : Nat} (k : Nat) {l b : List Byte} (hd : n ∣ l.length) (hb : b ∈ blocksOf n k l) : b.length = n := by
  induction k generalizing l with
  | zero => exact absurd hb List.not_mem_nil
  | succ k ih =>
    cases l with
    | nil => exact absurd hb List.not_mem_nil
    | cons x xs =>
      have hle : n ≤ (x :: xs).length := Nat.le_of_dvd (Nat.succ_pos _) hd
      rcases List.mem_cons.mp hb with rfl | hb
      · exact List.length_take_of_le hle
      · exact ih (by rw [List.length_drop]; exact Nat.dvd_sub hd (Nat.dvd_refl n)) hb

theorem length_blocksOf {n k : Nat} {l : List Byte} (hn : 0 < n) (hl : n * k ≤ l.length) : (blocksOf n k l).length = k := by
  induction k generalizing l with
  | zero => rfl
  | succ k ih =>
    cases l with
    | nil => exact absurd hl (by simp [Nat.mul_succ]; omega)
    | cons x xs => exact congrArg Nat.succ (ih (by rw [List.length_drop, Nat.mul_succ] at *; omega))

/-- Whole blocks that a list is long enough for. -/
theorem length_of_mem_blocksOf_le {n k : Nat} {l b : List Byte} (hl : n * k ≤ l.length) (hb : b ∈ blocksOf n k l) : b.length = n := by
  induction k generalizing l with
  | zero => exact absurd hb List.not_mem_nil
  | succ k ih =>
    cases l with
    | nil => exact absurd hb List.not_mem_nil
    | cons x xs =>
      rw [Nat.mul_succ] at hl
      rcases List.mem_cons.mp hb with rfl | hb
      · exact List.length_take_of_le (by omega)
      · exact ih (by rw [List.length_drop]; omega) hb

/-- Every word of a schedule is of `m` bytes: 4, or none for a key without a word. -/
theorem aesExpand_words {nk m : Nat} (hm : m = 0 ∨ m = 4 ∧ 0 < nk) (n i : Nat) (rc : Byte) {w : List (List Byte)} (hlen : 0 < m → nk ≤ w.length)
    (hw : ∀ x ∈ w, x.length = m) : ∀ x ∈ aesExpand nk n i rc w, x.length = m := by
  induction n generalizing i rc w with
  | zero => exact hw
  | succ n ih =>
    refine ih _ _ (fun h => (hlen h).trans (by simp)) fun x hx => ?_
    rcases List.mem_cons.mp hx with rfl | hx
    · rcases hm with rfl | ⟨rfl, hnk⟩
      · have hget : (w.getD (nk - 1) []).length = 0 := by
          rw [List.getD_eq_getElem?_getD]
          cases h : w[nk - 1]? with
          | none => rfl
          | some y => exact hw y (List.mem_of_getElem? h)
        rw [xorBytes, List.length_zipWith, hget, Nat.zero_min]
      · have hlt : nk ≤ w.length := hlen (by decide)
        have hhead : (w.headD []).length = 4 := by
          cases w with
          | nil => exact absurd hlt (by simp; omega)
          | cons y ys => exact hw y List.mem_cons_self
        have hget : (w.getD (nk - 1) []).length = 4 := by
          rw [List.getD_eq_getElem _ _ (by omega)]
          exact hw _ (List.getElem_mem _)
        refine length_xorBytes hget ?_
        split
        · exact length_xorBytes (by rw [List.length_map, List.length_append, List.length_drop, List.length_take, hhead]; rfl) rfl
        · split
          · rw [List.length_map, hhead]
          · exact hhead
    · exact hw x hx

theorem length_aesExpand (nk n i : Nat) (rc : Byte) (w : List (List Byte)) : (aesExpand nk n i rc w).length = n + w.length := by
  induction n generalizing i rc w with
  | zero => exact (Nat.zero_add _).symm
  | succ n ih => rw [aesExpand, ih, List.length_cons]; omega

/-- Round keys are of 16 bytes. -/
theorem length_of_mem_aesKeys {key k : List Byte} (hk : k ∈ aesKeys key) : k.length = 16 := by
  refine length_of_mem_blocksOf _ ?_ hk
  rw [List.length_flatten]
  by_cases h : key.length / 4 = 0
  · have hz : ∀ x ∈ ((aesExpand (key.length / 4) (4 * (key.length / 4 + 7) - key.length / 4) (key.length / 4) 1#8
        (blocksOf 4 (key.length / 4) key).reverse).reverse).map List.length, x = 0 := fun x hx => by
      obtain ⟨y, hy, rfl⟩ := List.mem_map.mp hx
      refine aesExpand_words (.inl rfl) _ _ _ (fun h => absurd h (by decide)) (fun z hz => ?_) y (List.mem_reverse.mp hy)
      rw [h] at hz
      exact absurd (List.mem_reverse.mp hz) List.not_mem_nil
    rw [List.sum_eq_zero hz]
    exact Nat.dvd_zero 16
  · have h4 : 4 * (key.length / 4) ≤ key.length := Nat.mul_div_le _ _
    have hlen := length_blocksOf (by decide) h4
    have hw := aesExpand_words (m := 4) (.inr ⟨rfl, Nat.pos_of_ne_zero h⟩) (4 * (key.length / 4 + 7) - key.length / 4) (key.length / 4) 1#8
      (w := (blocksOf 4 (key.length / 4) key).reverse) (fun _ => by rw [List.length_reverse, hlen])
      (fun x hx => length_of_mem_blocksOf_le h4 (List.mem_reverse.mp hx))
    rw [List.map_congr_left (fun x hx => hw x (List.mem_reverse.mp hx)), List.map_const', List.sum_replicate, List.length_reverse,
      length_aesExpand, List.length_reverse, hlen]
    exact ⟨key.length / 4 + 7, by simp; omega⟩

theorem length_aesRounds {ks : List (List Byte)} (hk : ∀ k ∈ ks, k.length = 16) {b : List Byte} (hb : b.length = 16) :
    (aesRounds ks b).length = 16 := by
  induction ks generalizing b with
  | nil => exact hb
  | cons k ks ih =>
    have hk0 : k.length = 16 := hk k List.mem_cons_self
    cases ks with
    | nil => exact length_xorBytes (length_shiftRows _) hk0
    | cons k' ks => exact ih (fun x hx => hk x (List.mem_cons_of_mem _ hx)) (length_xorBytes (length_mixCols _ _) hk0)

theorem length_aesEnc (key : List Byte) {b : List Byte} (hb : b.length = 16) : (aesEnc key b).length = 16 := by
  have hk : ∀ k ∈ aesKeys key, k.length = 16 := fun k h => length_of_mem_aesKeys h
  unfold aesEnc
  split
  · exact hb
  · next k ks he =>
    rw [he] at hk
    exact length_aesRounds (fun x hx => hk x (List.mem_cons_of_mem _ hx)) (length_xorBytes hb (hk k List.mem_cons_self))

theorem length_cmacDbl (b : List Byte) : (cmacDbl b).length = 16 := length_beBytes _ _

/-- A CMAC is of 16 bytes. -/
theorem length_cmac (key m : List Byte) : (cmac key m).length = 16 := by
  unfold cmac
  lift_lets
  extract_lets k1 k2 n full body last0 last x
  have hbody : 16 ∣ body.length := by
    simp only [body]
    split
    · next h => rw [List.length_take]; omega
    · rw [List.length_take]; simp only [n]; omega
  have hlast : last.length = 16 := by
    simp only [last]
    split
    · next h =>
      refine length_xorBytes ?_ (length_cmacDbl _)
      simp only [last0, body, if_pos h, List.length_drop, List.length_take]
      omega
    · next h =>
      refine length_xorBytes ?_ (length_cmacDbl _)
      simp only [last0, body, if_neg h, List.length_append, List.length_cons, List.length_replicate, List.length_drop, List.length_take, n]
      omega
  have hfold (l : List (List Byte)) (hl : ∀ b ∈ l, b.length = 16) (y : List Byte) (hy : y.length = 16) :
      (l.foldl (fun x b => aesEnc key (xorBytes x b)) y).length = 16 := by
    induction l generalizing y with
    | nil => exact hy
    | cons b l ih => exact ih (fun z hz => hl z (List.mem_cons_of_mem _ hz)) _ (length_aesEnc _ (length_xorBytes hy (hl b List.mem_cons_self)))
  exact length_aesEnc _ (length_xorBytes (hfold _ (fun b hb => length_of_mem_blocksOf _ hbody hb) _ (by simp)) hlast)

theorem length_xtsEnc (k1 k2 : List Byte) (n : Nat) {b : List Byte} (hb : b.length = 16) : (xtsEnc k1 k2 n b).length = 16 := by
  have ht : (aesEnc k2 (leBytes 16 n)).length = 16 := length_aesEnc _ (length_leBytes _ _)
  exact length_xorBytes (length_aesEnc _ (length_xorBytes hb ht)) ht

end Sys2Proof.Machine

/-!
What a member hears from the Owl (R392) and its heartbeats (R391), which settles O35.
-/

namespace Sys2Proof.Machine

theorem leBytes_succ (n v : Nat) : leBytes (n + 1) v = byteAt v 0 :: leBytes n (v / 256) := by
  rw [leBytes, List.range_succ_eq_map, List.map_cons, List.map_map]
  refine congrArg _ (List.map_congr_left fun i _ => ?_)
  simp only [byteAt, Function.comp_apply, Nat.shiftRight_eq_div_pow, Nat.div_div_eq_div_mul]
  rw [show 256 * 2 ^ (8 * i) = 2 ^ (8 * Nat.succ i) by rw [Nat.mul_succ, Nat.pow_add, Nat.mul_comm]]

theorem leNat_leBytes (n v : Nat) : leNat (leBytes n v) = v % 256 ^ n := by
  induction n generalizing v with
  | zero => simp [leBytes, leNat, Nat.mod_one]
  | succ n ih =>
    rw [leBytes_succ, leNat, ih, Nat.pow_succ', Nat.mod_mul]
    simp [byteAt]

/-! ## Grant messages (R392) -/

/-- A MEMBER accepts the grant message. -/
def State.grantGood (s : State) (m : List Byte) : Bool :=
  s.owlGood m 0x12 && (newerSeq 32 (msgNum m 8 4) (s.nat Reg.PAIR_GRANTSEQ) || msgNum m 8 4 == s.nat Reg.PAIR_GRANTSEQ)

/-- It is newer, or the first. -/
def State.grantNew (s : State) (m : List Byte) : Bool :=
  newerSeq 32 (msgNum m 8 4) (s.nat Reg.PAIR_GRANTSEQ) || s.pair.grantSide.isNone

/-- An accepted grant message restarts the 250 laps. -/
def State.owlHeard (s : State) (m : List Byte) : State :=
  { s.owlChecked m with pair := { (s.owlChecked m).pair with owlLap := s.lap.count } }

/-- Its side and GRANTSEQ are taken. -/
def State.grantTaken (s : State) (m : List Byte) : State :=
  ({ s.owlHeard m with pair := { (s.owlHeard m).pair with grantSide := some (msgNum m 4 1) } }).wr Reg.PAIR_GRANTSEQ
    (BitVec.ofNat 32 (msgNum m 8 4))

theorem State.grantMsg_eq {s : State} (m : List Byte) (h : s.pair.role = 1) : s.grantMsg m
    = if s.grantGood m then (if s.grantNew m then s.grantTaken m else s.owlHeard m) else s.owlDropped m := by
  unfold State.grantMsg
  rw [if_neg (by simp [h])]
  rfl

theorem State.owlHeard_rd (s : State) (m : List Byte) {b : Nat} (h1 : b ≠ Reg.PAIR_INJ) (h2 : b ≠ Reg.ZID_CNT_INJ) :
    (s.owlHeard m).rd b = s.rd b := s.owlChecked_rd m h1 h2

theorem State.grantTaken_rd (s : State) (m : List Byte) {b : Nat} (h1 : b ≠ Reg.PAIR_INJ) (h2 : b ≠ Reg.ZID_CNT_INJ) :
    (s.grantTaken m).rd b = if b = Reg.PAIR_GRANTSEQ then BitVec.ofNat 32 (msgNum m 8 4) else s.rd b := by
  unfold State.grantTaken
  rw [State.rd_wr]
  exact ite_congr rfl (fun _ => rfl) (fun _ => s.owlHeard_rd m h1 h2)

theorem State.grantMsg_keepsRegs {s : State} (m : List Byte) (h : s.pair.role = 1) : s.keepsRegs (s.grantMsg m)
    [Reg.PAIR_GRANTSEQ, Reg.PAIR_CNT_OWLDROP, Reg.PAIR_STAT, Reg.PAIR_INJ, Reg.ZID_CNT_INJ] := fun b hb => by
  simp only [List.mem_cons, List.not_mem_nil, or_false, not_or] at hb
  obtain ⟨hseq, hcnt, hstat, hinj, hrun⟩ := hb
  rw [State.grantMsg_eq m h]
  split
  · split
    · rw [State.grantTaken_rd _ _ hinj hrun, if_neg hseq]
    · exact State.owlHeard_rd _ _ hinj hrun
  · rw [State.owlDropped_rd _ _ hinj hrun, if_neg hstat, if_neg hcnt]

theorem State.grantMsg_good {s : State} (m : List Byte) (h : s.pair.role = 1) (hg : s.grantGood m = true) :
    (s.grantMsg m).pair.owlLap = s.lap.count ∧ (s.grantMsg m).rd Reg.PAIR_CNT_OWLDROP = s.rd Reg.PAIR_CNT_OWLDROP
    ∧ (s.grantNew m = true → (s.grantMsg m).pair.grantSide = some (msgNum m 4 1)
        ∧ (s.grantMsg m).nat Reg.PAIR_GRANTSEQ = msgNum m 8 4 % 2 ^ 32)
    ∧ (s.grantNew m = false → (s.grantMsg m).pair.grantSide = s.pair.grantSide
        ∧ (s.grantMsg m).rd Reg.PAIR_GRANTSEQ = s.rd Reg.PAIR_GRANTSEQ) := by
  rw [State.grantMsg_eq m h, if_pos hg]
  by_cases hn : s.grantNew m = true
  · rw [if_pos hn]
    refine ⟨rfl, ?_, fun _ => ⟨rfl, ?_⟩, fun hf => absurd (hn.symm.trans hf) (by decide)⟩
    · rw [State.grantTaken_rd _ _ (by decide) (by decide), if_neg (by decide)]
    · rw [State.nat_eq, State.grantTaken_rd _ _ (by decide) (by decide), if_pos rfl, BitVec.toNat_ofNat]
  · rw [if_neg hn]
    refine ⟨rfl, State.owlHeard_rd _ _ (by decide) (by decide), fun ht => absurd ht hn, fun _ => ⟨?_, State.owlHeard_rd _ _ (by decide) (by decide)⟩⟩
    exact (congrArg PairState.grantSide (s.owlChecked_pair m) : (s.owlChecked m).pair.grantSide = _)

theorem State.grantMsg_bad {s : State} (m : List Byte) (h : s.pair.role = 1) (hg : s.grantGood m = false) :
    (s.grantMsg m).pair = s.pair ∧ (s.grantMsg m).rd Reg.PAIR_GRANTSEQ = s.rd Reg.PAIR_GRANTSEQ ∧ (s.grantMsg m).bit Reg.PAIR_STAT 6 = true
    ∧ ((s.grantMsg m).rd Reg.PAIR_CNT_OWLDROP).toNat = min 0xFFFFFFFF ((s.rd Reg.PAIR_CNT_OWLDROP).toNat + 1) := by
  rw [State.grantMsg_eq m h, if_neg (by rw [hg]; decide)]
  refine ⟨s.owlChecked_pair m, ?_, s.owlDropped_counts m⟩
  rw [State.owlDropped_rd _ _ (by decide) (by decide), if_neg (by decide), if_neg (by decide)]

theorem exec_grantMessage {s : State} (port : Fin 3) (m : List Byte) (hs : s.supplied) (hp : port.val ≠ 2)
    (ha : (s.clearSent.ethAccept port.val).2 = true) :
    exec (.grantMessage port m) s = .next ((s.clearSent.frameCounted port.val).grantMsg m) := by
  refine (State.act_taken _ hs ha).trans (congrArg Host.Outcome.next ?_)
  rw [show (port.val != 2) = true from by simpa using hp, State.onlyIf_true]

theorem State.frameCounted_keeps {k : Nat} {r s : State} {p : Nat} (hk : k &&& 524288 = 524288) (h : Keeps k r s) :
    Keeps k r (s.frameCounted p) := Keeps.set_eth hk h

/-! ## The 250 laps (R392) -/

theorem exec_owlLost {s : State} (hs : s.supplied) : exec .owlLost s = .next s.clearSent.owlLost :=
  show execOwlLost s = _ from State.act_supplied hs

theorem State.owlLost_rd (s : State) (b : Nat) : s.owlLost.rd b
    = if b = Reg.PAIR_STAT ∧ s.pair.role = 1 ∧ s.pair.owlLap + 250 ≤ s.lap.count then putBit (s.rd Reg.PAIR_STAT) 7 true else s.rd b := by
  unfold State.owlLost
  by_cases h : s.pair.role = 1 ∧ s.pair.owlLap + 250 ≤ s.lap.count
  · rw [if_pos (by simpa using h), State.rd_setBit]
    simp only [h, and_true]
  · rw [if_neg (by simpa using h), if_neg (fun g => h g.2)]

theorem owlLost_flags (s : State) (hs : s.supplied) : ∃ t, exec .owlLost s = .next t
    ∧ t.bit Reg.PAIR_STAT 7 = (s.bit Reg.PAIR_STAT 7 || (s.pair.role == 1 && decide (s.pair.owlLap + 250 ≤ s.lap.count)))
    ∧ s.keepsRegs t [Reg.PAIR_STAT] ∧ s.keepsParts t [.sent] := by
  refine ⟨_, exec_owlLost hs, ?_, fun b hb => ?_,
    (State.owlLost_keeps (k := 2) rfl (State.clearSent_keeps rfl (Keeps.refl s))).parts _ (fun p => by cases p <;> decide)⟩
  · rw [State.bit_eq, State.owlLost_rd]
    by_cases h : s.pair.role = 1 ∧ s.pair.owlLap + 250 ≤ s.lap.count
    · rw [if_pos ⟨rfl, h⟩, bitOf_putBit_same _ _ _ (by decide)]
      simp [h]
    · rw [if_neg (fun g => h g.2)]
      simp only [State.rd_clearSent, State.bit_eq]
      by_cases hr : s.pair.role = 1 <;> simp_all
  · rw [State.owlLost_rd, if_neg (fun g => hb (List.mem_singleton.mpr g.1)), State.rd_clearSent]

/-! ## Heartbeats (R391) -/

theorem exec_heartbeat {s : State} (hs : s.supplied) : exec .heartbeat s = .next s.clearSent.heartbeatLap :=
  show execHeartbeat s = _ from State.act_supplied hs

theorem msgNum_append {pre post : List Byte} {o n : Nat} (v : Nat) (h : pre.length = o) :
    msgNum (pre ++ (leBytes n v ++ post)) o n = v % 256 ^ n := by
  rw [msgNum, List.drop_left' h, List.take_left' (length_leBytes n v), leNat_leBytes]

/-- A heartbeat's bytes, with its MAC at the end (Table 3). -/
theorem State.heartbeatMsg_bytes {s : State} {m : List Byte} (h : s.heartbeatMsg = some m) : ∃ (id fl : Nat) (rest mac : List Byte),
    m = [0x01#8, 0x11#8] ++ leBytes 2 id ++ leBytes 1 s.sideNum ++ leBytes 1 s.pairState ++ leBytes 2 fl ++ leBytes 4 s.pair.hbSeq.toNat
      ++ rest ++ mac ∧ rest.length = 28 ∧ mac.length = 8 := by
  unfold State.heartbeatMsg State.owlSigned State.owlMac State.macUnder at h
  lift_lets at h
  extract_lets flags body at h
  rw [Option.map_map, Option.map_map] at h
  obtain ⟨key, -, rfl⟩ := Option.map_eq_some_iff.mp h
  refine ⟨s.fld Reg.PAIR_CFG 16 16, flags, leBytes 4 s.bootCount ++ leBytes 8 s.readableEpoch ++ leBytes 4 (s.nat Reg.PAIR_GRANTSEQ) ++ leBytes 2 s.pairLag ++ leBytes 2 0
    ++ leBytes 4 (if s.imgRuns then s.nat (Reg.IMG_DIGEST 0) else 0) ++ leBytes 4 0, (cmac key (body.take 0x28)).take 8, ?_, ?_, ?_⟩
  · simp only [Function.comp_apply, body, List.append_assoc]
  · simp only [List.length_append, length_leBytes]
  · rw [List.length_take, length_cmac]
    rfl

theorem State.pairState_lt (s : State) : s.pairState < 8 := Nat.mod_lt _ (by decide)

theorem State.heartbeatMsg_fields {s : State} {m : List Byte} (h : s.heartbeatMsg = some m) :
    m.length = 48 ∧ m.take 2 = [0x01#8, 0x11#8] ∧ msgNum m 8 4 = s.pair.hbSeq.toNat ∧ msgNum m 5 1 = s.pairState := by
  obtain ⟨id, fl, rest, mac, rfl, hrest, hmac⟩ := State.heartbeatMsg_bytes h
  refine ⟨?_, rfl, ?_, ?_⟩
  · simp only [List.length_append, length_leBytes, hrest, hmac, List.length_cons, List.length_nil]
  · rw [List.append_assoc _ rest, List.append_assoc, msgNum_append _ (by simp only [List.length_append, length_leBytes]; rfl)]
    exact Nat.mod_eq_of_lt s.pair.hbSeq.isLt
  · rw [List.append_assoc _ rest, List.append_assoc _ (leBytes 4 _), List.append_assoc _ (leBytes 2 fl), List.append_assoc,
      msgNum_append _ (by simp only [List.length_append, length_leBytes]; rfl)]
    exact Nat.mod_eq_of_lt (s.pairState_lt.trans (by decide))

/-- Frames sent over ports, in the order of the ports. -/
theorem State.sent_forEach_send (g : State → Nat → Frame) (hg : ∀ u f p, g (State.send u f) p = g u p) (l : List Nat) (s : State) :
    (s.forEach l (fun t p => t.send (g t p))).sent = s.sent ++ l.map (g s) := by
  unfold State.forEach
  induction l generalizing s with
  | nil => exact (List.append_nil _).symm
  | cons p l ih =>
    refine (ih (s.send (g s p))).trans ?_
    rw [List.map_congr_left (fun q _ => hg s (g s p) q), List.map_cons]
    exact List.append_assoc s.sent [g s p] _

/-- The heartbeat as it goes out over a port. -/
def State.heartbeatFrame (s : State) (m : List Byte) (p : Nat) : Frame :=
  ⟨.heartbeat, p, s.nat Reg.PAIR_OWL, s.fld Reg.PAIR_PORTS 0 16, m⟩

/-- The next HBSEQ. -/
def State.hbNext (s : State) : State := { s with pair := { s.pair with hbSeq := s.pair.hbSeq + 1 } }

theorem State.sendHeartbeat_sends {s : State} {m : List Byte} (hr : s.pair.role = 1) (hm : s.hbNext.heartbeatMsg = some m) :
    s.sendHeartbeat = s.hbNext.forEach s.hbNext.owlPorts (fun t p => t.send (t.heartbeatFrame m p)) := by
  unfold State.sendHeartbeat
  rw [show ({ s with pair := { s.pair with hbSeq := s.pair.hbSeq + 1 } } : State) = s.hbNext from rfl]
  simp only [hm, hr]
  rfl

theorem State.sendHeartbeat_regs (s : State) : s.sendHeartbeat.regs = s.regs := by
  unfold State.sendHeartbeat
  dsimp only
  split
  · split
    · rfl
    · refine State.forEach_kept State.regs _ _ ?_ _
      exact fun _ _ => rfl
  · rfl

theorem heartbeat_sent (s : State) (hs : s.supplied) : ∃ t, exec .heartbeat s = .next t ∧ t.regs = s.regs
    ∧ (s.lap.count % max 1 (s.fld Reg.PAIR_TIMING 0 8) ≠ 0 → t.sent = [] ∧ t.pair = s.pair)
    ∧ (s.lap.count % max 1 (s.fld Reg.PAIR_TIMING 0 8) = 0 → s.pair.role = 1 → ∀ m, s.hbNext.heartbeatMsg = some m → t.pair = s.hbNext.pair
        ∧ t.sent = s.owlPorts.map (s.heartbeatFrame m)
        ∧ m.length = 48 ∧ m.take 2 = [0x01#8, 0x11#8] ∧ msgNum m 8 4 = (s.pair.hbSeq + 1).toNat ∧ msgNum m 5 1 = s.pairState)
    ∧ s.keepsParts t [.sent, .pair, .used] := by
  refine ⟨_, exec_heartbeat hs, ?_, fun h => ?_, fun h hr m hm => ?_,
    (State.heartbeatLap_keeps (k := 8396802) rfl (State.clearSent_keeps rfl (Keeps.refl s))).parts _ (fun p => by cases p <;> decide)⟩
  · unfold State.heartbeatLap
    split
    · exact State.sendHeartbeat_regs _
    · rfl
  · rw [State.heartbeatLap, if_neg (show ¬ s.clearSent.lap.count % max 1 (s.clearSent.fld Reg.PAIR_TIMING 0 8) = 0 from h)]
    exact ⟨rfl, rfl⟩
  · rw [State.heartbeatLap, if_pos (show s.clearSent.lap.count % max 1 (s.clearSent.fld Reg.PAIR_TIMING 0 8) = 0 from h),
      State.sendHeartbeat_sends (s := s.clearSent) hr hm]
    refine ⟨State.forEach_kept State.pair _ _ ?_ _, ?_, State.heartbeatMsg_fields hm⟩
    · exact fun _ _ => rfl
    · exact (State.sent_forEach_send (fun t p => t.heartbeatFrame m p) (fun _ _ _ => rfl) _ _).trans (List.nil_append _)

/-- Settles O35. -/
theorem pairOwl : Obligations.PairOwl := by
  refine ⟨fun port m s hs hp ha hr => ?_, owlLost_flags, heartbeat_sent⟩
  have hparts := (State.grantMsg_keeps (m := m) (k := 532482) rfl
    (State.frameCounted_keeps (p := port.val) rfl (State.clearSent_keeps rfl (Keeps.refl s)))).parts [.sent, .zid, .pair, .eth] (fun p => by cases p <;> decide)
  exact ⟨_, exec_grantMessage port m hs hp ha, ⟨fun h => State.grantMsg_good (s := s.clearSent.frameCounted port.val) m hr h,
    fun h => State.grantMsg_bad (s := s.clearSent.frameCounted port.val) m hr h⟩,
    State.grantMsg_keepsRegs (s := s.clearSent.frameCounted port.val) m hr, hparts⟩

end Sys2Proof.Machine

/-!
The unlocks of the non-volatile store (R429), wrong passwords and the lockout (R430), which settle O43.
-/

namespace Sys2Proof.Machine

/-! ## Unlocks (R429) -/

/-- The register that lists the unlocks of a kind for a region. -/
def unlockReg (r : Nat) (isWrite : Bool) : Nat := if isWrite then Reg.NVS_RGN_r_WRSLOTS r else Reg.NVS_RGN_r_RDSLOTS r

/-- It is none of the registers that a request or the refusal of an UNLOCK changes. -/
theorem unlockReg_apart (r : Fin 8) (w : Bool) : unlockReg r.val w ∉ answerRegs ++ refuseRegs ++ spoorRegs
    ++ [Reg.NVS_IRQ, Reg.NVS_STAT, Reg.NVS_CNT_REFUSE, Reg.NVS_UNLOCK_LO, Reg.NVS_UNLOCK_HI, Reg.NVS_CNT_PWFAIL] := by
  revert r w
  decide +kernel

theorem State.unlocked_eq (s : State) (slot r : Nat) (w : Bool) : s.unlocked slot r w = bitOf (s.rd (unlockReg r w)) slot := rfl

theorem State.clearUnlock_rd (s : State) (b : Nat) :
    s.clearUnlock.rd b = if b = Reg.NVS_UNLOCK_LO ∨ b = Reg.NVS_UNLOCK_HI then 0#32 else s.rd b := by
  unfold State.clearUnlock
  rw [State.rd_wr, State.rd_wr]
  by_cases h1 : b = Reg.NVS_UNLOCK_HI
  · rw [if_pos h1, if_pos (.inr h1)]
  · by_cases h2 : b = Reg.NVS_UNLOCK_LO
    · rw [if_neg h1, if_pos h2, if_pos (.inl h2)]
    · rw [if_neg h1, if_neg h2, if_neg (not_or.mpr ⟨h2, h1⟩)]

/-- The word of an UNLOCK. -/
def unlockWord (region : BitVec 3) (w : Bool) : Word := BitVec.ofNat 32 (region.toNat + w.toNat * 2 ^ 8)

theorem unlockWord_fields (region : BitVec 3) (w : Bool) :
    bitsOf (unlockWord region w) 0 3 = region.toNat ∧ bitOf (unlockWord region w) 8 = w := by
  revert region w
  decide

/-- What an accepted UNLOCK leaves. -/
theorem State.unlockCtrl_rd (s : State) (slot : Nat) (region : BitVec 3) (w : Bool) (b : Nat) :
    (s.unlockCtrl slot (unlockWord region w)).rd b = if b = Reg.NVS_UNLOCK_LO ∨ b = Reg.NVS_UNLOCK_HI then 0#32
      else if b = unlockReg region.toNat w then putBit (s.rd (unlockReg region.toNat w)) slot true else s.rd b := by
  obtain ⟨hr, hw⟩ := unlockWord_fields region w
  unfold State.unlockCtrl State.unlockGain
  rw [State.clearUnlock_rd, State.rd_setBit, hr, hw]
  rfl

theorem unlock_gains (src : Src) (region : BitVec 3) (w : Bool) (s : State) (hs : s.supplied)
    (hg : s.grants src Reg.NVS_UNLOCK_CTRL (unlockWord region w)) : ∃ t, exec (.unlock src region w) s = .next t ∧ t.answer.status = .ok
    ∧ t.unlocked src.slot.val region.toNat w = true ∧ t.rd Reg.NVS_UNLOCK_LO = 0#32 ∧ t.rd Reg.NVS_UNLOCK_HI = 0#32
    ∧ (∀ q : Fin 32, q ≠ src.slot → t.unlocked q.val region.toNat w = s.unlocked q.val region.toNat w)
    ∧ s.keepsRegs t (unlockReg region.toNat w :: Reg.NVS_UNLOCK_LO :: Reg.NVS_UNLOCK_HI :: hostRegs) ∧ s.keepsParts t hostParts := by
  have hu : Keeps 8388683 s.clearSent (s.clearSent.unlockCtrl src.slot.val (unlockWord region w)) := State.unlockCtrl_keeps rfl (Keeps.refl _)
  obtain ⟨t, ht, hok, hrd, -, hk⟩ := State.write1_answered (k := 8388683) hs hg (by decide) (by decide)
    (s.clearSent.wordWrite_unlockCtrl src.slot.val _) (by decide) hu (congrArg NvState.jobs (hu.nv_same rfl))
  have hapart := unlockReg_apart ⟨region.toNat, region.isLt⟩ w
  simp only [List.mem_append, List.mem_cons, List.not_mem_nil, or_false, not_or] at hapart
  obtain ⟨⟨⟨hreg, -⟩, -⟩, -, -, -, hlo, hhi, -⟩ := hapart
  have hlist : t.rd (unlockReg region.toNat w) = putBit (s.rd (unlockReg region.toNat w)) src.slot.val true := by
    rw [hrd _ hreg, State.unlockCtrl_rd, if_neg (not_or.mpr ⟨hlo, hhi⟩), if_pos rfl, State.rd_clearSent]
  refine ⟨t, ht, hok, ?_, ?_, ?_, fun q hq => ?_, ?_, hk.parts _ (fun p => by cases p <;> decide)⟩
  · rw [State.unlocked_eq, hlist, bitOf_putBit_same _ _ _ src.slot.isLt]
  · rw [hrd _ (by decide), State.unlockCtrl_rd, if_pos (.inl rfl)]
  · rw [hrd _ (by decide), State.unlockCtrl_rd, if_pos (.inr rfl)]
  · rw [State.unlocked_eq, hlist, bitOf_putBit_apart _ _ _ _ q.isLt (fun e => hq (Fin.ext e)), State.unlocked_eq]
  · refine State.keepsRegs_answered (l := [unlockReg region.toNat w, Reg.NVS_UNLOCK_LO, Reg.NVS_UNLOCK_HI]) hrd (fun b hb => ?_) (fun b hb => ?_)
    · simp only [List.mem_cons, List.not_mem_nil, or_false, not_or] at hb
      obtain ⟨h1, h2, h3⟩ := hb
      rw [State.unlockCtrl_rd, if_neg (not_or.mpr ⟨h2, h3⟩), if_neg h1, State.rd_clearSent]
    · simp only [answerRegs, hostRegs, List.mem_append, List.mem_cons, List.not_mem_nil, or_false] at hb ⊢
      tauto

/-! ## Wrong passwords (R430) -/

theorem State.wordDeny_unlock (s : State) (slot : Nat) {region : BitVec 3} (w : Bool) (hp : pwRegion region.toNat = true) :
    s.wordDeny slot Reg.NVS_UNLOCK_CTRL (unlockWord region w)
      = if s.pwLocked region.toNat then some (.busy, true) else if s.pwRight region.toNat w then none else some (.auth, true) := by
  obtain ⟨hr, hw⟩ := unlockWord_fields region w
  have hb : s.nvsDeny slot Reg.NVS_UNLOCK_CTRL (unlockWord region w) = s.unlockDeny (unlockWord region w) := by
    rw [State.nvsDeny, if_neg (by decide), if_pos rfl]
  rw [s.wordDeny_commandReg slot _ (by decide), State.blockDeny, show blockOf Reg.NVS_UNLOCK_CTRL = some .nvs from rfl]
  simp only [hb, State.unlockDeny, hr, hw, hp]
  cases s.pwLocked region.toNat <;> cases s.pwRight region.toNat w <;> rfl

/-- What the refusal of an UNLOCK leaves of the block, before the request is answered. -/
theorem State.wordRefused_unlock (s : State) (slot : Nat) (region : BitVec 3) (w : Bool) (st : Status) :
    s.wordRefused slot Reg.NVS_UNLOCK_CTRL (unlockWord region w) (st, true)
      = (if st = .auth then (s.pwWrong slot region.toNat w).clearUnlock else s).nvRefused := by
  obtain ⟨hr, hw⟩ := unlockWord_fields region w
  have hinj : injAddrs.contains Reg.NVS_UNLOCK_CTRL = false := by decide
  have hacc : hasAcc .rws Reg.NVS_UNLOCK_CTRL = false := by decide
  have htally : (Reg.NVS_UNLOCK_CTRL == Reg.NVS_TALLY_CTRL) = false := by decide
  have hblock : s.blockRefused slot Reg.NVS_UNLOCK_CTRL (unlockWord region w) st
      = (if st = .auth then (s.pwWrong slot region.toNat w).clearUnlock else s).nvRefused := by
    rw [State.blockRefused, show inNvWindow Reg.NVS_UNLOCK_CTRL = false by decide, show blockOf Reg.NVS_UNLOCK_CTRL = some .nvs from rfl]
    simp only [Bool.false_eq_true, if_false, hr, hw, htally, State.onlyIf_false]
    cases st <;> rfl
  unfold State.wordRefused
  simp only [hinj, hacc, Bool.false_and, Bool.and_false, State.onlyIf_false, State.onlyIf_true, hblock]

theorem exec_unlock {s : State} (hs : s.supplied) (src : Src) (region : BitVec 3) (w : Bool) :
    exec (.unlock src region w) s = .next (s.clearSent.write1 src Reg.NVS_UNLOCK_CTRL (unlockWord region w)) :=
  show execUnlock src region w s = _ from State.act_supplied hs

/-- The wrong attempts of the last 256 laps. -/
def State.recentLaps (s : State) (r : Nat) : List Nat := (s.pwFail r).laps.filter (fun l => s.lap.count < l + 256)

section
variable (s : State) (slot r : Nat) (w : Bool)

theorem State.pwFail_congr {s t : State} (h : t.nv = s.nv) (k : Nat) : t.pwFail k = s.pwFail k := by
  unfold State.pwFail
  rw [h]

theorem State.pwFail_putPwFail (f : PwFail) (k : Nat) : (s.putPwFail f).pwFail k = if k = f.region then f else s.pwFail k := by
  unfold State.pwFail State.putPwFail
  rw [List.find?_cons]
  by_cases hk : k = f.region
  · simp [hk]
  · have hf : (f.region == k) = false := by simpa using fun e => hk e.symm
    rw [if_neg hk, hf]
    simp only [List.find?_filter]
    congr 1
    refine List.find?_congr fun x _ => ?_
    by_cases hx : x.region = k
    · simp [hx, hk]
    · simp [hx]

/-- The record of a wrong attempt at the present lap. -/
def State.pwNoted : PwFail :=
  ⟨r, s.recentLaps r ++ [s.lap.count], if 8 ≤ (s.recentLaps r ++ [s.lap.count]).length then some s.lap.count else none⟩

/-- The eighth attempt within 256 laps starts the lockout. -/
theorem State.pwNoted_locked : (match (s.pwNoted r).lockedAt with
    | some l => decide (s.lap.count < l + 256)
    | none => false) = decide (7 ≤ (s.recentLaps r).length) := by
  simp only [State.pwNoted, List.length_append, List.length_cons, List.length_nil]
  by_cases h : 7 ≤ (s.recentLaps r).length
  · simp [h]
  · simp [h]

/-- A wrong attempt as the NVS block counts and flags it. -/
def State.pwFlagged : State := (((s.putPwFail (s.pwNoted r)).count Reg.NVS_CNT_PWFAIL).setBit Reg.NVS_STAT 3 true).irqNvs 2

theorem State.pwWrong_eq : s.pwWrong slot r w = (s.pwFlagged r).raiseEv 0x1601 3 (leBytes 1 r ++ leBytes 1 w.toNat ++ leBytes 1 slot) := rfl

theorem State.pwWrong_nv : (s.pwWrong slot r w).nv = (s.putPwFail (s.pwNoted r)).nv := by
  rw [State.pwWrong_eq]
  refine ((State.raiseEv_keeps (k := 384) rfl (Keeps.refl _)).nv_same rfl).trans ?_
  exact (State.irqNvs_keeps (k := 256) rfl (State.setBit_keeps rfl (State.count_keeps rfl (Keeps.refl _)))).nv_same rfl

theorem State.pwWrong_rd {b : Nat} (hb : b ∉ spoorRegs) (hi : b ≠ Reg.NVS_IRQ) : (s.pwWrong slot r w).rd b
    = if b = Reg.NVS_STAT then putBit (s.rd Reg.NVS_STAT) 3 true
      else if b = Reg.NVS_CNT_PWFAIL then satWordN ((s.rd Reg.NVS_CNT_PWFAIL).toNat + 1) else s.rd b := by
  rw [State.pwWrong_eq, State.raiseEv_rd _ _ _ _ _ hb, State.pwFlagged, State.irqNvs, State.irqAt_rd _ _ _ _ _ _ (not_pin_of_spoor hb), if_neg hi,
    State.rd_setBit, State.rd_count, State.rd_count, if_neg (by decide : Reg.NVS_STAT ≠ Reg.NVS_CNT_PWFAIL)]
  rfl

/-- The registers of the block once a wrong password is refused. -/
theorem State.unlockWrong_rd {b : Nat} (hb : b ∉ spoorRegs) (hi : b ≠ Reg.NVS_IRQ) : (s.pwWrong slot r w).clearUnlock.nvRefused.rd b
    = if b = Reg.NVS_STAT then putBit (putBit (s.rd Reg.NVS_STAT) 3 true) 7 true
      else if b = Reg.NVS_CNT_REFUSE then satWordN ((s.rd Reg.NVS_CNT_REFUSE).toNat + 1)
      else if b = Reg.NVS_UNLOCK_LO ∨ b = Reg.NVS_UNLOCK_HI then 0#32
      else if b = Reg.NVS_CNT_PWFAIL then satWordN ((s.rd Reg.NVS_CNT_PWFAIL).toNat + 1) else s.rd b := by
  have hstat : (s.pwWrong slot r w).rd Reg.NVS_STAT = putBit (s.rd Reg.NVS_STAT) 3 true := by
    rw [State.pwWrong_rd _ _ _ _ (by decide) (by decide), if_pos rfl]
  have hcnt : (s.pwWrong slot r w).rd Reg.NVS_CNT_REFUSE = s.rd Reg.NVS_CNT_REFUSE := by
    rw [State.pwWrong_rd _ _ _ _ (by decide) (by decide), if_neg (by decide), if_neg (by decide)]
  unfold State.nvRefused
  rw [State.rd_setBit, State.rd_count, State.rd_count, State.clearUnlock_rd, State.clearUnlock_rd, State.clearUnlock_rd,
    if_neg (by decide : Reg.NVS_STAT ≠ Reg.NVS_CNT_REFUSE), if_neg (by decide : ¬ (Reg.NVS_STAT = Reg.NVS_UNLOCK_LO ∨ Reg.NVS_STAT = Reg.NVS_UNLOCK_HI)),
    if_neg (by decide : ¬ (Reg.NVS_CNT_REFUSE = Reg.NVS_UNLOCK_LO ∨ Reg.NVS_CNT_REFUSE = Reg.NVS_UNLOCK_HI)), hstat, hcnt,
    State.pwWrong_rd _ _ _ _ hb hi]
  by_cases h : b = Reg.NVS_STAT
  · rw [if_pos h, if_pos h]
  · rw [if_neg h, if_neg h, if_neg h]

end

theorem unlock_locked (src : Src) {region : BitVec 3} (w : Bool) (s : State) (hp : pwRegion region.toNat = true)
    (hl : s.pwLocked region.toNat = true) :
    (s.clearSent.write1 src Reg.NVS_UNLOCK_CTRL (unlockWord region w)).answer.status = .busy
      ∧ (s.clearSent.write1 src Reg.NVS_UNLOCK_CTRL (unlockWord region w)).nv = s.nv := by
  have hd := s.clearSent.wordDeny_unlock src.slot.val w hp
  rw [show s.clearSent.pwLocked region.toNat = true from hl, if_pos rfl] at hd
  rw [State.write1_refused _ src _ _ _ hd, State.opRefused_answer]
  refine ⟨rfl, ((State.opRefused_keeps (k := 8388931) rfl (Keeps.refl _)).nv_same rfl).trans ?_⟩
  rw [State.wordRefused_unlock, if_neg (by decide)]
  exact (State.nvRefused_keeps (k := 0) rfl (Keeps.refl _)).nv_same rfl

theorem unlock_wrong (src : Src) {region : BitVec 3} (w : Bool) (s t : State) (hp : pwRegion region.toNat = true)
    (hl : s.pwLocked region.toNat = false) (hw : s.pwRight region.toNat w = false)
    (ht : t = s.clearSent.write1 src Reg.NVS_UNLOCK_CTRL (unlockWord region w)) :
    t.answer.status = .auth ∧ t.rd Reg.NVS_UNLOCK_LO = 0#32 ∧ t.rd Reg.NVS_UNLOCK_HI = 0#32
      ∧ (t.rd Reg.NVS_CNT_PWFAIL).toNat = min 0xFFFFFFFF ((s.rd Reg.NVS_CNT_PWFAIL).toNat + 1)
      ∧ (t.rd Reg.NVS_CNT_REFUSE).toNat = min 0xFFFFFFFF ((s.rd Reg.NVS_CNT_REFUSE).toNat + 1)
      ∧ t.bit Reg.NVS_STAT 3 = true ∧ t.bit Reg.NVS_STAT 7 = true
      ∧ (t.pwLocked region.toNat = decide (7 ≤ (s.recentLaps region.toNat).length)
        ∧ (t.pwFail region.toNat).laps = s.recentLaps region.toNat ++ [s.lap.count])
      ∧ (∀ (q : Fin 32) (r : Fin 8) (k : Bool), t.unlocked q.val r.val k = s.unlocked q.val r.val k) := by
  have hd := s.clearSent.wordDeny_unlock src.slot.val w hp
  rw [show s.clearSent.pwLocked region.toNat = false from hl, show s.clearSent.pwRight region.toNat w = false from hw] at hd
  rw [State.write1_refused _ src _ _ _ hd, State.wordRefused_unlock, if_pos rfl] at ht
  have hkeep : Keeps 8388931 (s.clearSent.pwWrong src.slot.val region.toNat w) t :=
    ht ▸ State.opRefused_keeps rfl (State.nvRefused_keeps rfl (State.clearUnlock_keeps rfl (Keeps.refl _)))
  have hrd (b : Nat) (hb : b ∉ refuseRegs) :
      t.rd b = (s.clearSent.pwWrong src.slot.val region.toNat w).clearUnlock.nvRefused.rd b := by
    rw [ht]
    exact State.opRefused_keepsRegs _ src 2 .auth 0#32 b hb
  have hfail : t.pwFail region.toNat = s.pwNoted region.toNat :=
    (State.pwFail_congr ((hkeep.nv_same rfl).trans (State.pwWrong_nv _ _ _ _)) _).trans ((State.pwFail_putPwFail _ _ _).trans (if_pos rfl))
  have hlap : t.lap.count = s.lap.count :=
    congrArg LapState.count ((hkeep.lap_same rfl).trans ((State.pwWrong_keeps (k := 416) rfl (Keeps.refl _)).lap_same rfl))
  have hstat : t.rd Reg.NVS_STAT = putBit (putBit (s.rd Reg.NVS_STAT) 3 true) 7 true := by
    rw [hrd _ (by decide), State.unlockWrong_rd _ _ _ _ (by decide) (by decide), if_pos rfl]
    rfl
  refine ⟨by rw [ht, State.opRefused_answer], ?_, ?_, ?_, ?_, ?_, ?_, ⟨?_, ?_⟩, fun q r k => ?_⟩
  · rw [hrd _ (by decide), State.unlockWrong_rd _ _ _ _ (by decide) (by decide), if_neg (by decide), if_neg (by decide),
      if_pos (.inl rfl)]
  · rw [hrd _ (by decide), State.unlockWrong_rd _ _ _ _ (by decide) (by decide), if_neg (by decide), if_neg (by decide),
      if_pos (.inr rfl)]
  · rw [hrd _ (by decide), State.unlockWrong_rd _ _ _ _ (by decide) (by decide), if_neg (by decide), if_neg (by decide),
      if_neg (by decide), if_pos rfl, satWordN_toNat]
    rfl
  · rw [hrd _ (by decide), State.unlockWrong_rd _ _ _ _ (by decide) (by decide), if_neg (by decide), if_pos rfl,
      satWordN_toNat]
    rfl
  · rw [State.bit_eq, hstat, bitOf_putBit_apart _ _ _ _ (by decide) (by decide), bitOf_putBit_same _ _ _ (by decide)]
  · rw [State.bit_eq, hstat, bitOf_putBit_same _ _ _ (by decide)]
  · rw [State.pwLocked, hfail, hlap]
    exact s.pwNoted_locked region.toNat
  · rw [hfail]
    rfl
  · have hapart := unlockReg_apart r k
    simp only [List.mem_append, List.mem_cons, List.not_mem_nil, or_false, not_or] at hapart
    obtain ⟨⟨⟨-, hrefuse⟩, hspoor⟩, hirq, hs, hr, hlo, hhi, hcnt⟩ := hapart
    rw [State.unlocked_eq, hrd _ hrefuse, State.unlockWrong_rd _ _ _ _ hspoor hirq, if_neg hs, if_neg hr, if_neg (not_or.mpr ⟨hlo, hhi⟩),
      if_neg hcnt]
    rfl

/-! ## The end of the lockout (R430) -/

theorem exec_pwLockoutEnd {s : State} (hs : s.supplied) (region : BitVec 3) :
    exec (.pwLockoutEnd region) s = .next (s.clearSent.pwLockoutEnd region.toNat) :=
  show execPwLockoutEnd region s = _ from State.act_supplied hs

theorem State.pwLockoutEnd_over {s : State} {r l : Nat} (h : (s.pwFail r).lockedAt = some l) (hl : l + 256 ≤ s.lap.count) :
    s.pwLockoutEnd r = s.putPwFail ⟨r, [], none⟩ := by
  simp only [State.pwLockoutEnd, h, if_pos hl]

theorem State.pwLockoutEnd_still {s : State} {r : Nat} (h : ∀ l, (s.pwFail r).lockedAt = some l → s.lap.count < l + 256) :
    s.pwLockoutEnd r = s := by
  unfold State.pwLockoutEnd
  split
  · next l hl => rw [if_neg (Nat.not_le.mpr (h l hl))]
  · rfl

theorem pwLockoutEnd_ends (region : BitVec 3) (s : State) (hs : s.supplied) : ∃ t, exec (.pwLockoutEnd region) s = .next t
    ∧ (∀ l, (s.pwFail region.toNat).lockedAt = some l →
        (l + 256 ≤ s.lap.count → t.pwFail region.toNat = ⟨region.toNat, [], none⟩) ∧ (s.lap.count < l + 256 → t.nv = s.nv))
    ∧ ((s.pwFail region.toNat).lockedAt = none → t.nv = s.nv)
    ∧ (∀ r, r ≠ region.toNat → t.pwFail r = s.pwFail r) ∧ t.regs = s.regs ∧ s.keepsParts t [.sent, .nv] := by
  have hparts := (State.pwLockoutEnd_keeps (k := 34) (r' := region.toNat) rfl (State.clearSent_keeps rfl (Keeps.refl s))).parts [.sent, .nv]
    (fun p => by cases p <;> decide)
  refine ⟨_, exec_pwLockoutEnd hs region, ?_⟩
  by_cases hdue : ∃ l, (s.pwFail region.toNat).lockedAt = some l ∧ l + 256 ≤ s.lap.count
  · obtain ⟨l, hl, hle⟩ := hdue
    rw [State.pwLockoutEnd_over (s := s.clearSent) hl hle] at hparts ⊢
    refine ⟨fun k hk => ?_, fun h => absurd (hl.symm.trans h) (Option.some_ne_none l), fun r hr => ?_, rfl, hparts⟩
    · obtain rfl : l = k := Option.some.inj (hl.symm.trans hk)
      exact ⟨fun _ => (State.pwFail_putPwFail _ _ _).trans (if_pos rfl), fun h => absurd h (Nat.not_lt.mpr hle)⟩
    · exact (State.pwFail_putPwFail _ _ _).trans (if_neg hr)
  · have hstill : ∀ l, (s.clearSent.pwFail region.toNat).lockedAt = some l → s.clearSent.lap.count < l + 256 :=
      fun l hl => Nat.lt_of_not_le fun h => hdue ⟨l, hl, h⟩
    rw [State.pwLockoutEnd_still hstill] at hparts ⊢
    exact ⟨fun l hl => ⟨fun h => absurd ⟨l, hl, h⟩ hdue, fun _ => rfl⟩, fun _ => rfl, fun _ _ => rfl, rfl, hparts⟩

/-! ## LOCK (R429) -/

theorem putBit_putBit (w : Word) (i : Nat) (b : Bool) : putBit (putBit w i b) i b = putBit w i b := by
  refine BitVec.eq_of_getLsbD_eq fun j hj => ?_
  change bitOf (putBits (putBits w i 1 b.toNat) i 1 b.toNat) j = bitOf (putBits w i 1 b.toNat) j
  rw [bitOf_putBits _ _ _ _ _ hj, bitOf_putBits _ _ _ _ _ hj]
  split <;> rfl

/-- Every unlock register. -/
def unlockRegs : List Nat := (List.range 8).map Reg.NVS_RGN_r_RDSLOTS ++ (List.range 8).map Reg.NVS_RGN_r_WRSLOTS

/-- One region's unlocks of a slot are dropped. -/
def State.regionLock (s : State) (slot r : Nat) : State :=
  (s.setBit (Reg.NVS_RGN_r_RDSLOTS r) slot false).setBit (Reg.NVS_RGN_r_WRSLOTS r) slot false

theorem State.regionLock_rd (s : State) (slot r b : Nat) : (s.regionLock slot r).rd b
    = if b = Reg.NVS_RGN_r_RDSLOTS r ∨ b = Reg.NVS_RGN_r_WRSLOTS r then putBit (s.rd b) slot false else s.rd b := by
  unfold State.regionLock
  rw [State.rd_setBit, State.rd_setBit, State.rd_setBit]
  by_cases hw : b = Reg.NVS_RGN_r_WRSLOTS r
  · subst hw
    rw [if_pos rfl, if_pos (Or.inr rfl)]
    by_cases hr : Reg.NVS_RGN_r_WRSLOTS r = Reg.NVS_RGN_r_RDSLOTS r
    · rw [if_pos hr, ← hr, putBit_putBit]
    · rw [if_neg hr]
  · rw [if_neg hw]
    by_cases hr : b = Reg.NVS_RGN_r_RDSLOTS r
    · rw [if_pos hr, if_pos (.inl hr), ← hr]
    · rw [if_neg hr, if_neg (not_or.mpr ⟨hr, hw⟩)]

theorem State.regionLocks_rd (slot b : Nat) (l : List Nat) (s : State) : (s.forEach l (fun t r => t.regionLock slot r)).rd b
    = if b ∈ l.map Reg.NVS_RGN_r_RDSLOTS ++ l.map Reg.NVS_RGN_r_WRSLOTS then putBit (s.rd b) slot false else s.rd b := by
  unfold State.forEach
  induction l generalizing s with
  | nil => rfl
  | cons r l ih =>
    refine (ih (s.regionLock slot r)).trans ?_
    rw [State.regionLock_rd]
    simp only [List.map_cons, List.mem_append, List.mem_cons]
    by_cases hl : b ∈ l.map Reg.NVS_RGN_r_RDSLOTS ∨ b ∈ l.map Reg.NVS_RGN_r_WRSLOTS <;>
      by_cases hr : b = Reg.NVS_RGN_r_RDSLOTS r ∨ b = Reg.NVS_RGN_r_WRSLOTS r
    · rw [if_pos hl, if_pos hr, if_pos (by tauto), putBit_putBit]
    · rw [if_pos hl, if_neg hr, if_pos (by tauto)]
    · rw [if_neg hl, if_pos hr, if_pos (by tauto)]
    · rw [if_neg hl, if_neg hr, if_neg (by tauto)]

theorem State.unlockDrop_rd (s : State) (slot b : Nat) :
    (s.unlockDrop slot).rd b = if b ∈ unlockRegs then putBit (s.rd b) slot false else s.rd b := State.regionLocks_rd slot b _ s

theorem unlockReg_mem (r : Fin 8) (k : Bool) : unlockReg r.val k ∈ unlockRegs := by
  revert r k
  decide

theorem State.nvsCtrl_lock (s : State) (slot : Nat) : s.nvsCtrl slot 2#32 = s.unlockDrop slot := rfl

theorem nvLock_drops (src : Src) (s : State) (hs : s.supplied) (hg : s.grants src Reg.NVS_CTRL 2#32) : ∃ t, exec (.nvLock src) s = .next t
    ∧ t.answer.status = .ok
    ∧ (∀ (r : Fin 8) (k : Bool) (q : Fin 32), t.unlocked q.val r.val k = (s.unlocked q.val r.val k && q != src.slot))
    ∧ s.keepsRegs t (unlockRegs ++ hostRegs) ∧ s.keepsParts t hostParts := by
  have hu : Keeps 8388683 s.clearSent (s.clearSent.unlockDrop src.slot.val) := State.unlockDrop_keeps rfl (Keeps.refl _)
  obtain ⟨t, ht, hok, hrd, -, hk⟩ := State.write1_answered (k := 8388683) hs hg (by decide) (by decide)
    ((s.clearSent.wordWrite_nvsCtrl src.slot.val _).trans (s.clearSent.nvsCtrl_lock _)) (by decide) hu (congrArg NvState.jobs (hu.nv_same rfl))
  refine ⟨t, ht, hok, fun r k q => ?_, ?_, hk.parts _ (fun p => by cases p <;> decide)⟩
  · have hapart := unlockReg_apart r k
    simp only [List.mem_append, not_or] at hapart
    obtain ⟨⟨⟨hreg, -⟩, -⟩, -⟩ := hapart
    rw [State.unlocked_eq, hrd _ hreg, State.unlockDrop_rd, if_pos (unlockReg_mem r k), State.rd_clearSent, State.unlocked_eq]
    by_cases hq : q = src.slot
    · rw [hq, bitOf_putBit_same _ _ _ src.slot.isLt]
      simp
    · rw [bitOf_putBit_apart _ _ _ _ q.isLt (fun e => hq (Fin.ext e))]
      simp [hq]
  · refine State.keepsRegs_answered (l := unlockRegs) hrd (fun b hb => ?_) (by decide)
    rw [State.unlockDrop_rd, if_neg hb, State.rd_clearSent]

/-- Settles O43. -/
theorem nvUnlocks : Obligations.NvUnlocks :=
  ⟨unlock_gains, fun src region w s hs hp => ⟨_, exec_unlock hs src region w, fun hl => unlock_locked src w s hp hl,
    fun hl hw => unlock_wrong src w s _ hp hl hw rfl⟩, pwLockoutEnd_ends, nvLock_drops⟩

end Sys2Proof.Machine

/-!
Setting a password (R431): two verified copies before it takes effect, which settles O44.
-/

namespace Sys2Proof.Machine

/-! ## A page program with no injected fault -/

/-- The registers that a page program changes while NVS_INJ injects none. -/
def pageOnlyRegs : List Nat := [Reg.NVS_CNT_PAGE, Reg.NVS_STAT, Reg.NVS_CNT_VERIFY, Reg.NVS_IRQ] ++ pinRegs

theorem State.nvPage_only {s : State} (h : s.bit Reg.NVS_INJ 0 = false) (c : Nat) (rb : ReadBack) :
    s.keepsRegs (s.nvPage c rb).1 pageOnlyRegs := fun b hb => by
  simp only [pageOnlyRegs, List.mem_append, List.mem_cons, List.not_mem_nil, or_false, not_or] at hb
  obtain ⟨⟨h1, h2, h3, h4⟩, h5⟩ := hb
  have hinj : (s.count Reg.NVS_CNT_PAGE).injRan Reg.NVS_INJ 0 = s.count Reg.NVS_CNT_PAGE := by
    refine if_neg ?_
    rw [State.bit_eq, State.rd_count, if_neg (by decide), ← State.bit_eq, h]
    exact Bool.false_ne_true
  have hfirst : (((s.count Reg.NVS_CNT_PAGE).injRan Reg.NVS_INJ 0).charge c resNvw 24).rd b = s.rd b := by
    rw [hinj, State.charge_rd, State.rd_count, if_neg h1]
  have hsecond (u : State) (n : Nat) : ((u.count Reg.NVS_CNT_PAGE).charge c resNvw n).rd b = u.rd b := by
    rw [State.charge_rd, State.rd_count, if_neg h1]
  have hfailed (u : State) : (((u.setBit Reg.NVS_STAT 1 true).count Reg.NVS_CNT_VERIFY).irqNvs 1).rd b = u.rd b := by
    rw [State.irqNvs, State.irqAt_rd _ _ _ _ _ _ h5, if_neg h4, State.rd_count, if_neg h3, State.rd_setBit, if_neg h2]
  unfold State.nvPage
  dsimp only
  split_ifs
  · exact hfirst
  · exact (hsecond _ _).trans hfirst
  · exact (hfailed _).trans ((hsecond _ _).trans hfirst)

/-! ## PWSET (R431) -/

/-- The word of a PWSET. -/
def pwsetWord (region : BitVec 3) (w clear : Bool) : Word := BitVec.ofNat 32 (region.toNat + w.toNat * 2 ^ 8 + clear.toNat * 2 ^ 9)

theorem pwsetWord_fields (region : BitVec 3) (w clear : Bool) : bitsOf (pwsetWord region w clear) 0 3 = region.toNat
    ∧ bitOf (pwsetWord region w clear) 8 = w ∧ bitOf (pwsetWord region w clear) 9 = clear := by
  revert region w clear
  decide

theorem pwset_queues (src : Src) (region : BitVec 3) (w clear : Bool) (s : State) (hs : s.supplied)
    (hg : s.grants src Reg.NVS_PWSET_CTRL (pwsetWord region w clear)) : ∃ t, exec (.pwset src region w clear) s = .next t
    ∧ t.answer.status = .ok ∧ t.nv = (s.pwsetBegin region.toNat w clear).nv ∧ s.keepsRegs t hostRegs ∧ s.keepsParts t (.nv :: hostParts) := by
  obtain ⟨hr, hw, hc⟩ := pwsetWord_fields region w clear
  have heff := s.clearSent.wordWrite_pwset src.slot.val (pwsetWord region w clear)
  rw [hr, hw, hc] at heff
  obtain ⟨t, ht, hok, hrd, hend, hk⟩ := State.write1_answered (k := 8388715) hs hg (by decide) (by decide) heff (by decide)
    (State.pwsetBegin_keeps rfl (Keeps.refl _)) rfl
  exact ⟨t, ht, hok, hend.nv_same rfl, State.keepsRegs_answered (l := []) hrd (fun b _ => rfl) (by decide),
    hk.parts _ (fun p => by cases p <;> decide)⟩

/-! ## The copies -/

theorem exec_passwordPage {s : State} (hs : s.supplied) (rb : ReadBack) : exec (.pageProgram .password rb) s = .next (s.clearSent.pwCopy rb) :=
  exec_pageProgram hs .password rb

section
variable {s : State} {j : PwJob} {l : List PwJob} {rb : ReadBack}

/-- The password change no longer waits. -/
def State.withPwJobs (s : State) (l : List PwJob) : State := { s with nv := { s.nv with pwJobs := l } }

section
variable (hm : s.nvMay 1 = true) (hj : s.nv.pwJobs = j :: l)
include hm hj

theorem State.pwCopy_failed (hv : (s.nvPage classHwp rb).2 = false) : s.pwCopy rb = (s.nvPage classHwp rb).1.nvFails 1 := by
  simp only [State.pwCopy, hj, hm, hv]
  rfl

theorem State.pwCopy_first (hv : (s.nvPage classHwp rb).2 = true) (hp : s.pfailed = false) (hc : j.copies = 0) :
    s.pwCopy rb = (s.nvPage classHwp rb).1.withPwJobs ({ j with copies := 1 } :: l) := by
  simp only [State.pwCopy, hj, hm, hv, hp, hc]
  rfl

theorem State.pwCopy_second (hv : (s.nvPage classHwp rb).2 = true) (hc : j.copies ≠ 0) :
    s.pwCopy rb = ((s.nvPage classHwp rb).1.withPwJobs l).pwInForce j := by
  simp only [State.pwCopy, hj, hm, hv, hc]
  rfl

end

/-- The passwords in force once the change takes effect. -/
def passwordsWith (l : List (Nat × Bool × Word × Word)) (j : PwJob) : List (Nat × Bool × Word × Word) :=
  let rest := l.filter (fun p => !(p.1 == j.region && p.2.1 == j.isWrite))
  match j.pw with
  | some p => rest ++ [(j.region, j.isWrite, p.1, p.2)]
  | none => rest

theorem State.pwInForce_nv (s : State) (j : PwJob) : (s.pwInForce j).nv = { s.nv with passwords := passwordsWith s.nv.passwords j } := rfl

/-- The test that finds the password of a region and kind. -/
def pwOf (r : Nat) (k : Bool) (p : Nat × Bool × Word × Word) : Bool := p.1 == r && p.2.1 == k

theorem pwOf_eq_true {r : Nat} {k : Bool} {p : Nat × Bool × Word × Word} : pwOf r k p = true ↔ p.1 = r ∧ p.2.1 = k := by
  simp [pwOf]

theorem find?_passwordsWith (l : List (Nat × Bool × Word × Word)) (j : PwJob) (r : Nat) (k : Bool) :
    ((passwordsWith l j).find? (pwOf r k)).map (fun p => p.2.2)
      = if r = j.region ∧ k = j.isWrite then j.pw else (l.find? (pwOf r k)).map (fun p => p.2.2) := by
  have hrest : (l.filter (fun p => !pwOf j.region j.isWrite p)).find? (pwOf r k)
      = if r = j.region ∧ k = j.isWrite then none else l.find? (pwOf r k) := by
    split
    · next h =>
      refine List.find?_eq_none.mpr fun p hp => ?_
      rw [h.1, h.2]
      simpa using (List.mem_filter.mp hp).2
    · next h =>
      rw [List.find?_filter]
      refine List.find?_congr fun p _ => ?_
      cases hp : pwOf r k p with
      | false => simp
      | true =>
        have hother : pwOf j.region j.isWrite p = false := Bool.eq_false_iff.mpr fun g =>
          h ⟨(pwOf_eq_true.mp hp).1.symm.trans (pwOf_eq_true.mp g).1, (pwOf_eq_true.mp hp).2.symm.trans (pwOf_eq_true.mp g).2⟩
        simp [hother]
  unfold passwordsWith
  cases hpw : j.pw with
  | none =>
    refine (congrArg _ hrest).trans ?_
    split <;> rfl
  | some q =>
    have hlast : [(j.region, j.isWrite, q.1, q.2)].find? (pwOf r k)
        = if r = j.region ∧ k = j.isWrite then some (j.region, j.isWrite, q.1, q.2) else none := by
      rw [List.find?_singleton]
      refine if_congr ?_ rfl rfl
      rw [pwOf_eq_true]
      exact and_congr eq_comm eq_comm
    refine (congrArg (Option.map _) ((List.find?_append ..).trans (congrArg₂ Option.or hrest hlast))).trans ?_
    split
    · rfl
    · rw [Option.or_none]

/-- The change sets or removes the password of its region and kind, and no other. -/
theorem State.password_pwInForce (s : State) (j : PwJob) (r : Nat) (k : Bool) :
    (s.pwInForce j).password r k = if r = j.region ∧ k = j.isWrite then j.pw else s.password r k := by
  unfold State.password
  rw [State.pwInForce_nv]
  exact find?_passwordsWith s.nv.passwords j r k

/-- The registers once a password takes effect. -/
theorem State.pwInForce_rd (s : State) (j : PwJob) (b : Nat) : (s.pwInForce j).rd b
    = if b = Reg.NVS_PWSET_LO ∨ b = Reg.NVS_PWSET_HI ∨ b = unlockReg j.region j.isWrite then 0#32
      else if b = Reg.NVS_RGN_r_CFG j.region then putBit (s.rd b) (if j.isWrite then 1 else 0) j.pw.isSome else s.rd b := by
  unfold State.pwInForce
  dsimp only
  rw [State.rd_wr, State.rd_wr, State.rd_wr, State.rd_setBit, show (if j.isWrite then Reg.NVS_RGN_r_WRSLOTS j.region
    else Reg.NVS_RGN_r_RDSLOTS j.region) = unlockReg j.region j.isWrite from rfl]
  by_cases h1 : b = Reg.NVS_PWSET_HI
  · rw [if_pos h1, if_pos (.inr (.inl h1))]
  · by_cases h2 : b = Reg.NVS_PWSET_LO
    · rw [if_neg h1, if_pos h2, if_pos (.inl h2)]
    · by_cases h3 : b = unlockReg j.region j.isWrite
      · rw [if_neg h1, if_neg h2, if_pos h3, if_pos (.inr (.inr h3))]
      · rw [if_neg h1, if_neg h2, if_neg h3, if_neg (not_or.mpr ⟨h2, not_or.mpr ⟨h1, h3⟩⟩)]
        by_cases h4 : b = Reg.NVS_RGN_r_CFG j.region
        · rw [if_pos h4, if_pos h4, h4]
          rfl
        · rw [if_neg h4, if_neg h4]
          rfl

/-- The registers that the second copy of a password changes beside those of a page program. -/
def passwordRegs (r : Nat) : List Nat :=
  [Reg.NVS_RGN_r_CFG r, Reg.NVS_RGN_r_WRSLOTS r, Reg.NVS_RGN_r_RDSLOTS r, Reg.NVS_PWSET_LO, Reg.NVS_PWSET_HI]

theorem unlockReg_mem_passwordRegs (r : Nat) (k : Bool) : unlockReg r k ∈ passwordRegs r := by
  cases k <;> simp [unlockReg, passwordRegs]

theorem State.pwInForce_keepsRegs (s : State) (j : PwJob) : s.keepsRegs (s.pwInForce j) (passwordRegs j.region) := fun b hb => by
  have hu : b ≠ unlockReg j.region j.isWrite := fun e => hb (e ▸ unlockReg_mem_passwordRegs _ _)
  simp only [passwordRegs, List.mem_cons, List.not_mem_nil, or_false, not_or] at hb
  obtain ⟨hcfg, -, -, hlo, hhi⟩ := hb
  rw [State.pwInForce_rd, if_neg (not_or.mpr ⟨hlo, not_or.mpr ⟨hhi, hu⟩⟩), if_neg hcfg]

theorem cfg_apart (r : Fin 8) (k : Bool) : Reg.NVS_RGN_r_CFG r.val ≠ Reg.NVS_PWSET_LO ∧ Reg.NVS_RGN_r_CFG r.val ≠ Reg.NVS_PWSET_HI
    ∧ Reg.NVS_RGN_r_CFG r.val ≠ unlockReg r.val k := by
  revert r k
  decide

theorem State.hasPassword_pwInForce (s : State) (j : PwJob) (hr : j.region < 8) :
    (s.pwInForce j).hasPassword j.region j.isWrite = j.pw.isSome := by
  obtain ⟨h1, h2, h3⟩ := cfg_apart ⟨j.region, hr⟩ j.isWrite
  rw [State.hasPassword, State.bit_eq, State.pwInForce_rd, if_neg (not_or.mpr ⟨h1, not_or.mpr ⟨h2, h3⟩⟩), if_pos rfl]
  cases j.isWrite <;> exact bitOf_putBit_same _ _ _ (by decide)

theorem bitOf_zero (i : Nat) : bitOf 0#32 i = false := BitVec.getLsbD_zero

theorem State.unlocked_pwInForce (s : State) (j : PwJob) (q : Nat) : (s.pwInForce j).unlocked q j.region j.isWrite = false := by
  rw [State.unlocked_eq, State.pwInForce_rd, if_pos (.inr (.inr rfl)), bitOf_zero]

end

theorem passwordPage_written (rb : ReadBack) (s : State) (hs : s.supplied) (hi : s.bit Reg.NVS_INJ 0 = false) (hm : s.nvMay 1 = true)
    (hp : s.pfailed = false) (j : PwJob) (l : List PwJob) (hj : s.nv.pwJobs = j :: l) (hr : j.region < 8) :
    ∃ t, exec (.pageProgram .password rb) s = .next t
      ∧ ((rb.first || rb.second) = false → t.nv = { s.nv with failed := 1 :: s.nv.failed } ∧ t.bit Reg.NVS_STAT 1 = true)
      ∧ ((rb.first || rb.second) = true → j.copies = 0 → t.nv = { s.nv with pwJobs := { j with copies := 1 } :: l })
      ∧ ((rb.first || rb.second) = true → j.copies ≠ 0 → t.nv.pwJobs = l ∧ t.password j.region j.isWrite = j.pw
          ∧ t.hasPassword j.region j.isWrite = j.pw.isSome ∧ (∀ q : Fin 32, t.unlocked q.val j.region j.isWrite = false)
          ∧ t.rd Reg.NVS_PWSET_LO = 0#32 ∧ t.rd Reg.NVS_PWSET_HI = 0#32)
      ∧ (∀ r k, (r ≠ j.region ∨ k ≠ j.isWrite) → t.password r k = s.password r k)
      ∧ s.keepsRegs t (passwordRegs j.region ++ pageOnlyRegs) ∧ s.keepsParts t [.sent, .nv, .zid, .used] := by
  have hver : (s.clearSent.nvPage classHwp rb).2 = (rb.first || rb.second) := State.nvPage_verified (s := s.clearSent) hi _ _
  have hnv : (s.clearSent.nvPage classHwp rb).1.nv = s.nv := (s.clearSent.nvPage_spr_nv classHwp rb).2
  have hpage : s.keepsRegs (s.clearSent.nvPage classHwp rb).1 (passwordRegs j.region ++ pageOnlyRegs) := fun b hb =>
    State.nvPage_only (s := s.clearSent) hi classHwp rb b fun h => hb (List.mem_append_right _ h)
  have hparts := (State.pwCopy_keeps (k := 8388898) rfl (State.clearSent_keeps rfl (Keeps.refl s)) (rb := rb)).parts [.sent, .nv, .zid, .used]
    (fun p => by cases p <;> decide)
  refine ⟨_, exec_passwordPage hs rb, ?_⟩
  by_cases hv : (rb.first || rb.second) = true
  · by_cases hc : j.copies = 0
    · rw [State.pwCopy_first (s := s.clearSent) hm hj (hver.trans hv) hp hc] at hparts ⊢
      refine ⟨fun h => absurd (hv.symm.trans h) (by decide), fun _ _ => ?_, fun _ h => absurd hc h, fun r k _ => ?_, hpage, hparts⟩
      · exact congrArg (fun n : NvState => { n with pwJobs := { j with copies := 1 } :: l }) hnv
      · exact congrArg (fun n : NvState => (n.passwords.find? (pwOf r k)).map (fun p => p.2.2)) hnv
    · rw [State.pwCopy_second (s := s.clearSent) hm hj (hver.trans hv) hc] at hparts ⊢
      refine ⟨fun h => absurd (hv.symm.trans h) (by decide), fun _ h => absurd h hc, fun _ _ => ?_, fun r k hrk => ?_, fun b hb => ?_, hparts⟩
      · refine ⟨rfl, ?_, State.hasPassword_pwInForce _ _ hr, fun q => State.unlocked_pwInForce _ _ _, ?_, ?_⟩
        · rw [State.password_pwInForce, if_pos ⟨rfl, rfl⟩]
        · rw [State.pwInForce_rd, if_pos (.inl rfl)]
        · rw [State.pwInForce_rd, if_pos (.inr (.inl rfl))]
      · rw [State.password_pwInForce, if_neg (fun h => hrk.elim (fun g => g h.1) (fun g => g h.2))]
        exact congrArg (fun n : NvState => (n.passwords.find? (pwOf r k)).map (fun p => p.2.2)) hnv
      · rw [State.pwInForce_keepsRegs _ j b fun h => hb (List.mem_append_left _ h)]
        exact hpage b hb
  · have hf : (rb.first || rb.second) = false := Bool.eq_false_iff.mpr hv
    rw [State.pwCopy_failed (s := s.clearSent) hm hj (hver.trans hf)] at hparts ⊢
    refine ⟨fun _ => ⟨?_, State.nvPage_failed_flagged (hver.trans hf)⟩, fun h => absurd h hv, fun h => absurd h hv, fun r k _ => ?_, hpage, hparts⟩
    · exact congrArg (fun n : NvState => { n with failed := 1 :: n.failed }) hnv
    · exact congrArg (fun n : NvState => (n.passwords.find? (pwOf r k)).map (fun p => p.2.2)) hnv

theorem mem_passwordPageRegs {r b : Nat} (h : b ∈ passwordRegs r ++ pageOnlyRegs) : b ∈ [Reg.NVS_RGN_r_CFG r, Reg.NVS_RGN_r_WRSLOTS r,
    Reg.NVS_RGN_r_RDSLOTS r, Reg.NVS_PWSET_LO, Reg.NVS_PWSET_HI, Reg.NVS_CNT_PAGE, Reg.NVS_STAT, Reg.NVS_CNT_VERIFY, Reg.NVS_IRQ, Reg.NVS_INJ]
      ++ pinRegs := by
  simp only [passwordRegs, pageOnlyRegs, List.mem_append, List.mem_cons, List.not_mem_nil, or_false] at h ⊢
  tauto

/-- Settles O44. -/
theorem nvPasswords : Obligations.NvPasswords := by
  unfold Obligations.NvPasswords
  refine ⟨pwset_queues, fun rb s hs hi hm hp j l hj hr => ?_⟩
  obtain ⟨t, ht, hfail, hfirst, hsecond, hother, hregs, hparts⟩ := passwordPage_written rb s hs hi hm hp j l hj hr
  exact ⟨t, ht, hfail, hfirst, hsecond, hother, fun b hb => hregs b fun h => hb (mem_passwordPageRegs h), hparts⟩

end Sys2Proof.Machine

/-!
Switching the encryption of a USER region (R432), which settles O48.
-/

namespace Sys2Proof.Machine

/-! ## The units of a region -/

/-- The sixteen zeros of a cleared unit. -/
def zeroUnit : List Byte := List.replicate 16 0#8

/-- What the store holds at a unit that reads as zeros. -/
def State.heldZeros (s : State) (o : Nat) : List Byte :=
  if s.regionCrypt (regionOf o) then
    match s.cryptKey with
    | some k => xtsEnc k (cryptKey2 k) (o / 16) zeroUnit
    | none => zeroUnit
  else zeroUnit

theorem State.length_heldZeros (s : State) (o : Nat) : (s.heldZeros o).length = 16 := by
  unfold State.heldZeros
  split
  · split
    · exact length_xtsEnc _ _ _ (List.length_replicate ..)
    · exact List.length_replicate ..
  · exact List.length_replicate ..

theorem State.cryptKey_congr {s t : State} (hcfg : t.rd Reg.NVS_CFG = s.rd Reg.NVS_CFG) (hk : t.key = s.key) : t.cryptKey = s.cryptKey := by
  have hslot (k : Nat) : t.keySlot k = s.keySlot k := congrArg (fun x : KeyState => assocGet emptySlot x.slots k) hk
  rw [State.cryptKey, State.cryptKey, State.fld_eq, State.fld_eq, hcfg, State.engineKey, State.engineKey, hslot]

theorem State.heldZeros_congr {s t : State} (hr : t.regs = s.regs) (hk : t.key = s.key) (o : Nat) : t.heldZeros o = s.heldZeros o := by
  have hrd (b : Nat) : t.rd b = s.rd b := congrArg (fun x => tabGet 0#32 x b) hr
  have hc (r : Nat) : t.regionCrypt r = s.regionCrypt r := by
    rw [State.regionCrypt, State.regionCrypt, State.bit_eq, State.bit_eq, hrd]
  rw [State.heldZeros, State.heldZeros, hc, State.cryptKey_congr (hrd _) hk]

theorem State.clearUnit_regs (s : State) (o : Nat) : (s.putUserUnit o zeroUnit).regs = s.regs := by
  unfold State.putUserUnit
  dsimp only
  split <;> rfl

theorem State.clearUnit_key (s : State) (o : Nat) : (s.putUserUnit o zeroUnit).key = s.key := by
  unfold State.putUserUnit
  dsimp only
  split <;> rfl

theorem State.clearUnit_nv (s : State) (o : Nat) :
    (s.putUserUnit o zeroUnit).nv = { s.nv with user := tabSetList 0#8 s.nv.user o (s.heldZeros o) } := by
  unfold State.putUserUnit
  dsimp only
  split <;> rfl

/-- Clear `n` units from `base` on. -/
def State.clearUnits (s : State) (base n : Nat) : State := s.forEach (List.range n) (fun t i => t.putUserUnit (base + 16 * i) zeroUnit)

theorem State.clearUnits_succ (s : State) (base n : Nat) :
    s.clearUnits base (n + 1) = (s.clearUnits base n).putUserUnit (base + 16 * n) zeroUnit := by
  unfold State.clearUnits
  rw [List.range_succ, State.forEach_concat]

theorem State.clearUnits_regs (s : State) (base n : Nat) : (s.clearUnits base n).regs = s.regs := by
  induction n with
  | zero => rfl
  | succ n ih => rw [State.clearUnits_succ, State.clearUnit_regs, ih]

theorem State.clearUnits_key (s : State) (base n : Nat) : (s.clearUnits base n).key = s.key := by
  induction n with
  | zero => rfl
  | succ n ih => rw [State.clearUnits_succ, State.clearUnit_key, ih]

theorem State.clearUnits_jobs (s : State) (base n : Nat) : (s.clearUnits base n).nv.jobs = s.nv.jobs := by
  induction n with
  | zero => rfl
  | succ n ih => rw [State.clearUnits_succ, State.clearUnit_nv]; exact ih

/-- The byte at an offset once the units are cleared. -/
theorem State.tabGet_clearUnits (s : State) (base n x : Nat) : tabGet 0#8 (s.clearUnits base n).nv.user x
    = if base ≤ x ∧ x < base + 16 * n then (s.heldZeros (base + 16 * ((x - base) / 16))).getD ((x - base) % 16) 0#8
      else tabGet 0#8 s.nv.user x := by
  induction n with
  | zero => exact (if_neg (by omega)).symm
  | succ n ih =>
    rw [State.clearUnits_succ, State.clearUnit_nv]
    dsimp only
    rw [tabGet_tabSetList, State.length_heldZeros, State.heldZeros_congr (s.clearUnits_regs base n) (s.clearUnits_key base n), ih]
    by_cases hlast : base + 16 * n ≤ x ∧ x < base + 16 * n + 16
    · have hdiv : (x - base) / 16 = n := by omega
      have hmod : (x - base) % 16 = x - (base + 16 * n) := by omega
      rw [if_pos hlast, if_pos (by omega), hdiv, hmod]
    · rw [if_neg hlast]
      exact if_congr (by omega) rfl rfl

/-- Each cleared unit holds what reads as zeros. -/
theorem State.bytesAt_clearUnits (s : State) (base n : Nat) {i : Nat} (hi : i < n) :
    bytesAt (tabGet 0#8 (s.clearUnits base n).nv.user) (base + 16 * i) 16 = s.heldZeros (base + 16 * i) := by
  have hlen := s.length_heldZeros (base + 16 * i)
  refine List.ext_getElem (by rw [bytesAt, List.length_map, List.length_range, hlen]) fun j hj hl => ?_
  rw [bytesAt, List.length_map, List.length_range] at hj
  have hdiv : (base + 16 * i + j - base) / 16 = i := by omega
  have hmod : (base + 16 * i + j - base) % 16 = j := by omega
  simp only [bytesAt, List.getElem_map, List.getElem_range]
  rw [State.tabGet_clearUnits, if_pos (by omega), hdiv, hmod, List.getD_eq_getElem _ _ hl]

/-! ## A USER region -/

theorem regionBase_unit {r : Nat} (hu : 3 ≤ r) (hr : r < 8) {i : Nat} (hi : i < regionSize r / 16) :
    regionOf (regionBase r + 16 * i) = r ∧ (regionBase r + 16 * i) / 16 = regionBase r / 16 + i := by
  interval_cases r <;> simp only [regionSize, regionBase] at hi ⊢ <;> refine ⟨?_, by omega⟩ <;> unfold regionOf <;>
    simp only [Nat.reduceDiv] at hi <;> split_ifs <;> omega

theorem regionSize_units (r : Fin 8) : 16 * (regionSize r.val / 16) = regionSize r.val := by
  revert r
  decide

theorem State.heldZeros_unit (s : State) {r : Nat} {on : Bool} (hu : 3 ≤ r) (hr : r < 8) (hb : s.bit (Reg.NVS_RGN_r_CFG r) 2 = on) {i : Nat}
    (hi : i < regionSize r / 16) : s.heldZeros (regionBase r + 16 * i)
      = if on then match s.cryptKey with
          | some k => xtsEnc k (cryptKey2 k) (regionBase r / 16 + i) zeroUnit
          | none => zeroUnit
        else zeroUnit := by
  obtain ⟨hreg, hdiv⟩ := regionBase_unit hu hr hi
  have hc : s.regionCrypt r = on := by
    rw [State.regionCrypt, hb, isUser, decide_eq_true hu, Bool.true_and]
  unfold State.heldZeros
  rw [hreg, hdiv, hc]

/-! ## The write of CRYPT -/

/-- The word of a write of CRYPT. -/
def cryptWord (on : Bool) : Word := BitVec.ofNat 32 (on.toNat * 4)

theorem bitOf_cryptWord (on : Bool) : bitOf (cryptWord on) 2 = on := by
  cases on <;> rfl

theorem cryptReg_simple (r : Fin 8) : simpleReg (Reg.NVS_RGN_r_CFG r.val) = true ∧ blockOf (Reg.NVS_RGN_r_CFG r.val) = some .nvs
    ∧ Reg.NVS_RGN_r_CFG r.val ≠ Reg.NVS_CTRL ∧ Reg.NVS_RGN_r_CFG r.val ≠ Reg.NVS_UNLOCK_CTRL ∧ Reg.NVS_RGN_r_CFG r.val ≠ Reg.NVS_PWSET_CTRL
    ∧ Reg.NVS_RGN_r_CFG r.val ≠ Reg.NVS_TALLY_CTRL ∧ arrayIdx (Reg.NVS_RGN_r_CFG 0) 0x10 8 (Reg.NVS_RGN_r_CFG r.val) = some r.val
    ∧ hasAcc .rws (Reg.NVS_RGN_r_CFG r.val) = false ∧ Reg.NVS_RGN_r_CFG r.val ∉ answerRegs := by
  revert r
  decide +kernel

theorem cryptReg_ne_cfg (r : Fin 8) : Reg.NVS_CFG ≠ Reg.NVS_RGN_r_CFG r.val := by
  revert r
  decide

/-- A region whose CRYPT may be written is a USER region. -/
theorem State.grants_crypt {s : State} {src : Src} {r : Fin 8} {v : Word} (hg : s.grants src (Reg.NVS_RGN_r_CFG r.val) v) : 3 ≤ r.val := by
  obtain ⟨hsimple, hblock, h1, h2, h3, h4, hidx, -⟩ := cryptReg_simple r
  obtain ⟨-, -, -, -, -, hdeny, -⟩ := (State.grants_simple hsimple).mp hg
  refine Nat.not_lt.mp fun hlt => ?_
  have hrange : s.clearSent.nvsDeny src.slot.val (Reg.NVS_RGN_r_CFG r.val) v = some .range := by
    unfold State.nvsDeny
    rw [if_neg h1, if_neg h2, if_neg h3, if_neg h4, hidx]
    exact if_pos (Nat.lt_succ_iff.mp hlt)
  have hown : s.clearSent.blockDeny src.slot.val (Reg.NVS_RGN_r_CFG r.val) v = ownDenial (some .range) := by
    rw [← hrange]
    unfold State.blockDeny
    rw [hblock]
  rw [hown] at hdeny
  exact absurd hdeny (by decide)

/-- CRYPT changes, and the region is cleared. -/
theorem State.cryptSet_changes {s : State} {r : Nat} {on : Bool} (h : s.bit (Reg.NVS_RGN_r_CFG r) 2 ≠ on) :
    s.cryptSet r on = (s.setBit (Reg.NVS_RGN_r_CFG r) 2 on).clearUnits (regionBase r) (regionSize r / 16) := if_neg h

theorem State.cryptSet_same {s : State} {r : Nat} {on : Bool} (h : s.bit (Reg.NVS_RGN_r_CFG r) 2 = on) : s.cryptSet r on = s := if_pos h

theorem putBit_self (w : Word) {i : Nat} : putBit w i (bitOf w i) = w := by
  refine BitVec.eq_of_getLsbD_eq fun j hj => ?_
  change bitOf _ j = bitOf _ j
  rw [bitOf_putBit _ _ _ hj]
  split
  · next h => rw [h]
  · rfl

theorem State.cryptSet_rd (s : State) (r : Nat) (on : Bool) (b : Nat) :
    (s.cryptSet r on).rd b = if b = Reg.NVS_RGN_r_CFG r then putBit (s.rd b) 2 on else s.rd b := by
  by_cases h : s.bit (Reg.NVS_RGN_r_CFG r) 2 = on
  · rw [State.cryptSet_same h]
    split
    · next hb => rw [hb, ← h, State.bit_eq, putBit_self]
    · rfl
  · rw [State.cryptSet_changes h, State.rd, State.clearUnits_regs, ← State.rd, State.rd_setBit]
    split
    · next hb => rw [hb]
    · rfl

theorem State.cryptSet_jobs (s : State) (r : Nat) (on : Bool) : (s.cryptSet r on).nv.jobs = s.nv.jobs := by
  by_cases h : s.bit (Reg.NVS_RGN_r_CFG r) 2 = on
  · rw [State.cryptSet_same h]
  · rw [State.cryptSet_changes h, State.clearUnits_jobs]
    rfl

theorem State.cryptSet_outside (s : State) (r : Fin 8) (on : Bool) {x : Nat}
    (hx : x < regionBase r.val ∨ regionBase r.val + regionSize r.val ≤ x) : tabGet 0#8 (s.cryptSet r.val on).nv.user x = tabGet 0#8 s.nv.user x := by
  by_cases h : s.bit (Reg.NVS_RGN_r_CFG r.val) 2 = on
  · rw [State.cryptSet_same h]
  · have hsize := regionSize_units r
    rw [State.cryptSet_changes h, State.tabGet_clearUnits, if_neg (by omega)]
    rfl

theorem State.cryptSet_units (s : State) {r : Fin 8} {on : Bool} (hu : 3 ≤ r.val) (h : s.bit (Reg.NVS_RGN_r_CFG r.val) 2 ≠ on) {i : Nat}
    (hi : i < regionSize r.val / 16) : bytesAt (tabGet 0#8 (s.cryptSet r.val on).nv.user) (regionBase r.val + 16 * i) 16
      = if on then match s.cryptKey with
          | some k => xtsEnc k (cryptKey2 k) (regionBase r.val / 16 + i) zeroUnit
          | none => zeroUnit
        else zeroUnit := by
  have hb : (s.setBit (Reg.NVS_RGN_r_CFG r.val) 2 on).bit (Reg.NVS_RGN_r_CFG r.val) 2 = on := by
    rw [State.bit_eq, State.rd_setBit, if_pos rfl]
    exact bitOf_putBit_same _ _ _ (by decide)
  have hkey : (s.setBit (Reg.NVS_RGN_r_CFG r.val) 2 on).cryptKey = s.cryptKey :=
    State.cryptKey_congr (by rw [State.rd_setBit, if_neg (cryptReg_ne_cfg r)]) rfl
  rw [State.cryptSet_changes h, State.bytesAt_clearUnits _ _ _ hi, State.heldZeros_unit _ hu r.isLt hb hi, hkey]

/-- Settles O48. -/
theorem regionEncryption : Obligations.RegionEncryption := by
  unfold Obligations.RegionEncryption
  intro src region on s hs hg
  obtain ⟨-, -, -, -, -, -, -, hacc, hans⟩ := cryptReg_simple ⟨region.toNat, region.isLt⟩
  obtain ⟨hsimple, -⟩ := cryptReg_simple ⟨region.toNat, region.isLt⟩
  have hu : 3 ≤ region.toNat := State.grants_crypt (r := ⟨region.toNat, region.isLt⟩) hg
  have heff := s.clearSent.wordWrite_cryptSet src.slot.val ⟨region.toNat, region.isLt⟩ (cryptWord on)
  rw [bitOf_cryptWord] at heff
  obtain ⟨t, ht, hok, hrd, hend, hk⟩ := State.write1_answered (k := 8396907) hs hg (simpleReg_windows hsimple).1 hacc heff (by decide)
    (State.cryptSet_keeps rfl (Keeps.refl _)) (State.cryptSet_jobs _ _ _)
  have hnv : t.nv = (s.clearSent.cryptSet region.toNat on).nv := hend.nv_same rfl
  have hregs (b : Nat) (hb : b ∉ answerRegs) :
      t.rd b = if b = Reg.NVS_RGN_r_CFG region.toNat then putBit (s.rd b) 2 on else s.rd b :=
    (hrd b hb).trans (State.cryptSet_rd _ _ _ _)
  refine ⟨t, ht, hok, ?_, fun h => ?_, fun h i hi => ?_, fun x hx => ?_, fun b hb => ?_, hk.parts _ (fun p => by cases p <;> decide)⟩
  · rw [State.bit_eq, hregs _ hans, if_pos rfl]
    exact bitOf_putBit_same _ _ _ (by decide)
  · rw [hnv, State.cryptSet_same (s := s.clearSent) h]
    rfl
  · have hne : s.clearSent.bit (Reg.NVS_RGN_r_CFG region.toNat) 2 ≠ on := fun g => by
      have g' : (!on) = on := h.symm.trans g
      cases on <;> exact absurd g' (by decide)
    rw [hnv]
    exact State.cryptSet_units s.clearSent (r := ⟨region.toNat, region.isLt⟩) hu hne hi
  · rw [hnv]
    exact State.cryptSet_outside s.clearSent ⟨region.toNat, region.isLt⟩ on hx
  · simp only [hostRegs, List.mem_cons, List.not_mem_nil, or_false, not_or] at hb
    obtain ⟨hcfg, h1, h2, h3, -⟩ := hb
    rw [hregs b (by simp only [answerRegs, List.mem_cons, List.not_mem_nil, or_false, not_or]; exact ⟨h1, h2, h3⟩), if_neg hcfg]

end Sys2Proof.Machine

/-!
The commanded store of the warm region (R433 to R435), which settles O46.
-/

namespace Sys2Proof.Machine

/-! ## STORE -/

/-- A store is asked for. -/
def State.storeAsked (s : State) : State := { s with nv := { s.nv with store := some ⟨false, false, 0#32, [], 0⟩ } }

theorem State.nvsCtrl_store (s : State) (slot : Nat) :
    s.nvsCtrl slot 1#32 = s.storeAsked.batonRequest 1 8 := rfl

theorem store_opens (src : Src) (s : State) (hs : s.supplied) (hg : s.grants src Reg.NVS_CTRL 1#32) : ∃ t, exec (.nvStore src) s = .next t
    ∧ t.answer.status = .ok ∧ t.nv = { s.nv with store := some ⟨false, false, 0#32, [], 0⟩ }
    ∧ t.lap = (s.batonRequest 1 8).lap ∧ s.keepsRegs t hostRegs ∧ s.keepsParts t (.nv :: .lap :: hostParts) := by
  have heff := (s.clearSent.wordWrite_nvsCtrl src.slot.val 1#32).trans (State.nvsCtrl_store _ _)
  have hnv : (s.clearSent.nvsCtrl src.slot.val 1#32).nv = { s.nv with store := some ⟨false, false, 0#32, [], 0⟩ } := by
    rw [State.nvsCtrl_store, (State.batonRequest_keeps (k := 4) rfl (Keeps.refl _)).nv_same rfl]
    rfl
  obtain ⟨t, ht, hok, hrd, hend, hk⟩ := State.write1_answered (k := 8388719) hs hg (by decide) (by decide)
    (s.clearSent.wordWrite_nvsCtrl src.slot.val 1#32) (by decide) (State.nvsCtrl_keeps rfl (Keeps.refl _)) (by rw [hnv])
  refine ⟨t, ht, hok, (hend.nv_same rfl).trans hnv, (hend.lap_same rfl).trans ?_,
    State.keepsRegs_answered (l := []) hrd (fun b _ => ?_) (by decide), hk.parts _ (fun p => by cases p <;> decide)⟩
  · rw [State.nvsCtrl_store]
    exact State.batonRequest_lap (s := s) (t := s.clearSent.storeAsked) rfl rfl 1 8
  · rw [State.nvsCtrl_store, State.batonRequest_rd]
    rfl

/-! ## A page of a store -/

/-- The store's batons go back after this page: 256 pages are written, or 32 laps have passed since their grant (R64). -/
def State.storeYields (s : State) (r : StoreRun) : Bool :=
  decide (r.sinceGrant + 1 = 256) || decide (listGet s.lap.batonLap 1 + 32 ≤ s.lap.count)

/-- The store notes a page that it has written. -/
def State.storeNotes (u : State) (r : StoreRun) (p : Nat) (yields : Bool) : State :=
  { u with nv := { u.nv with store := some { r with done := r.done ++ [p], sinceGrant := if yields then 0 else r.sinceGrant + 1 } } }

section
variable {s : State} {r : StoreRun} {p : Nat} {rb : ReadBack}
variable (hst : s.nv.store = some r) (hb : r.begun = true) (hm : s.nvMay 0 = true)
include hst hb hm

section
variable (hh : s.batonsOf 1 ≠ 0) (hp : s.storePage? = some p)
include hh hp

theorem State.storeStep_failed (hv : (s.nvPage classNvs rb).2 = false) : s.storeStep rb = (s.nvPage classNvs rb).1.nvFails 0 := by
  unfold State.storeStep
  rw [hst, hp]
  dsimp only
  rw [if_neg (by simp [hb, hh, hm]), if_pos (by rw [hv]; rfl)]

theorem State.storeStep_written (hv : (s.nvPage classNvs rb).2 = true) : s.storeStep rb
    = if s.storeYields r then (((((s.nvPage classNvs rb).1.storeCells p).storeNotes r p (s.storeYields r)).batonRelease 1).batonRequest 1 8)
      else ((s.nvPage classNvs rb).1.storeCells p).storeNotes r p (s.storeYields r) := by
  unfold State.storeStep
  rw [hst, hp]
  dsimp only
  rw [if_neg (by simp [hb, hh, hm]), if_neg (by rw [hv]; decide)]
  rfl

end

section
variable (hp : s.storePage? = none)
include hp

theorem State.storeEnd_failed (hv : (s.nvPage classNvs rb).2 = false) : s.storeEnd rb = (s.nvPage classNvs rb).1.nvFails 0 := by
  unfold State.storeEnd
  rw [hst]
  dsimp only
  rw [hp, if_neg (by simp [hb, hm]), if_pos (by rw [hv]; rfl)]

/-- The store is over. -/
def State.storeOver (u : State) : State := { u with nv := { u.nv with store := none } }

theorem State.storeEnd_written (hv : (s.nvPage classNvs rb).2 = true) : s.storeEnd rb
    = (((((s.nvPage classNvs rb).1.storeComplete r.toB r.seq).storeOver.batonRelease 1).batonCancel 1).count Reg.NVS_CNT_STORE).irqNvs 0 := by
  unfold State.storeEnd
  rw [hst]
  dsimp only
  rw [hp, if_neg (by simp [hb, hm]), if_neg (by rw [hv]; decide)]
  rfl

end

end

theorem exec_storePage {s : State} (hs : s.supplied) (rb : ReadBack) : exec (.pageProgram .store rb) s = .next (s.clearSent.storeStep rb) :=
  exec_pageProgram hs .store rb

theorem exec_storeDone {s : State} (hs : s.supplied) (rb : ReadBack) : exec (.storeDone rb) s = .next (s.clearSent.storeEnd rb) :=
  show execStoreDone rb s = _ from State.act_supplied hs

theorem mem_filter_ne {l : List Nat} {p q : Nat} : q ∈ l.filter (· != p) ↔ q ∈ l ∧ q ≠ p := by
  rw [List.mem_filter, bne_iff_ne]

/-- The bytes of a page in the SRAM. -/
def State.sramPage (s : State) (p : Nat) : List Byte := s.sramGet (256 * p) 256

theorem State.length_sramPage (s : State) (p : Nat) : (s.sramPage p).length = 256 := by
  rw [State.sramPage, State.sramGet, bytesAt, List.length_map, List.length_range]

theorem State.storeCells_nv (s : State) (p : Nat) : (s.storeCells p).nv
    = { s.nv with warmCells := tabSetList 0#8 s.nv.warmCells (256 * p) (s.sramPage p), dirty := s.nv.dirty.filter (· != p) } := rfl

theorem bytesAt_tabSetList_of_length {l : List Byte} {n : Nat} (h : l.length = n) (t : Tab 8) (k : Nat) :
    bytesAt (tabGet 0#8 (tabSetList 0#8 t k l)) k n = l := h ▸ bytesAt_tabSetList 0#8 t k l

/-- The cells of the stored image once a page is written: the SRAM's bytes in the page, and the others as they were. -/
theorem State.storeCells_page (s : State) (p : Nat) :
    bytesAt (tabGet 0#8 (s.storeCells p).nv.warmCells) (256 * p) 256 = s.sramPage p := by
  rw [State.storeCells_nv]
  dsimp only
  exact bytesAt_tabSetList_of_length (s.length_sramPage p) _ _

theorem State.storeCells_other (s : State) {p x : Nat} (hx : x / 256 ≠ p) :
    tabGet 0#8 (s.storeCells p).nv.warmCells x = tabGet 0#8 s.nv.warmCells x := by
  have hout : ¬ (256 * p ≤ x ∧ x < 256 * p + 256) := by omega
  rw [State.storeCells_nv]
  dsimp only
  rw [tabGet_tabSetList, State.length_sramPage, if_neg hout]

/-- The registers of a page program stay under the store's own steps. -/
theorem storePage_written (rb : ReadBack) (s : State) (hs : s.supplied) (hi : s.bit Reg.NVS_INJ 0 = false) (hm : s.nvMay 0 = true)
    (r : StoreRun) (hst : s.nv.store = some r) (hb : r.begun = true) (hh : s.batonsOf 1 ≠ 0) (p : Nat) (hp : s.storePage? = some p) :
    ∃ t, exec (.pageProgram .store rb) s = .next t
      ∧ ((rb.first || rb.second) = true → bytesAt (tabGet 0#8 t.nv.warmCells) (256 * p) 256 = s.sramGet (256 * p) 256
          ∧ (∀ q, q ∈ t.nv.dirty ↔ q ∈ s.nv.dirty ∧ q ≠ p)
          ∧ (∀ x, x / 256 ≠ p → tabGet 0#8 t.nv.warmCells x = tabGet 0#8 s.nv.warmCells x))
      ∧ ((rb.first || rb.second) = false → t.nv = { s.nv with failed := 0 :: s.nv.failed } ∧ t.bit Reg.NVS_STAT 1 = true ∧ t.lap = s.lap)
      ∧ t.nv.sram = s.nv.sram ∧ s.keepsRegs t pageOnlyRegs ∧ s.keepsParts t [.sent, .nv, .lap, .zid, .used] := by
  have hver : (s.clearSent.nvPage classNvs rb).2 = (rb.first || rb.second) := State.nvPage_verified (s := s.clearSent) hi _ _
  have hk : Keeps 8388864 s.clearSent (s.clearSent.nvPage classNvs rb).1 := State.nvPage_keeps rfl (Keeps.refl _)
  have hnv : (s.clearSent.nvPage classNvs rb).1.nv = s.nv := hk.nv_same rfl
  have hpage : s.keepsRegs (s.clearSent.nvPage classNvs rb).1 pageOnlyRegs := State.nvPage_only (s := s.clearSent) hi classNvs rb
  have hparts := (State.storeStep_keeps (k := 8388902) rfl (State.clearSent_keeps rfl (Keeps.refl s)) (rb := rb)).parts
    [.sent, .nv, .lap, .zid, .used] (fun p => by cases p <;> decide)
  refine ⟨_, exec_storePage hs rb, ?_⟩
  by_cases hv : (rb.first || rb.second) = true
  · have hstep := State.storeStep_written (s := s.clearSent) hst hb hm hh hp (hver.trans hv)
    have hcells : ∃ st, (s.clearSent.storeStep rb).nv = { ((s.clearSent.nvPage classNvs rb).1.storeCells p).nv with store := st } := by
      rw [hstep]
      split
      · exact ⟨_, (State.batonRequest_keeps (k := 4) rfl (State.batonRelease_keeps rfl (Keeps.refl _))).nv_same rfl⟩
      · exact ⟨_, rfl⟩
    have hregs (b : Nat) : (s.clearSent.storeStep rb).rd b = (s.clearSent.nvPage classNvs rb).1.rd b := by
      rw [hstep]
      split
      · rw [State.batonRequest_rd, State.batonRelease_rd]
        rfl
      · rfl
    obtain ⟨st, hst'⟩ := hcells
    refine ⟨fun _ => ?_, fun h => absurd (hv.symm.trans h) (by decide), ?_, fun b hb' => (hregs b).trans (hpage b hb'), hparts⟩
    · rw [hst']
      dsimp only
      refine ⟨?_, fun q => ?_, fun x hx => ?_⟩
      · rw [State.storeCells_page, State.sramPage, State.sramGet, hnv, State.sramGet]
      · rw [State.storeCells_nv, hnv]
        exact mem_filter_ne
      · rw [State.storeCells_other _ hx, hnv]
    · rw [hst', State.storeCells_nv, hnv]
  · have hf : (rb.first || rb.second) = false := Bool.eq_false_iff.mpr hv
    have hsram : (s.clearSent.nvPage classNvs rb).1.nv.sram = s.nv.sram := by rw [hnv]
    rw [State.storeStep_failed (s := s.clearSent) hst hb hm hh hp (hver.trans hf)] at hparts ⊢
    exact ⟨fun h => absurd h hv, fun _ => ⟨congrArg (fun n : NvState => { n with failed := 0 :: n.failed }) hnv,
      State.nvPage_failed_flagged (hver.trans hf), hk.lap_same rfl⟩, hsram, hpage, hparts⟩

/-! ## The end of a store -/

theorem State.storeComplete_eq {s : State} (h : s.bit Reg.NVS_INJ 2 = false) (toB : Bool) (seq : Word) :
    s.storeComplete toB seq = s.putHead toB ⟨seq, true, s.warmCrc⟩ := by
  have hkeep : (s.putHead toB ⟨seq, true, s.warmCrc⟩).bit Reg.NVS_INJ 2 = false := by
    rw [← h]
    cases toB <;> rfl
  unfold State.storeComplete
  rw [h, if_neg Bool.false_ne_true]
  exact if_neg (by rw [hkeep]; exact Bool.false_ne_true)

theorem State.putHead_head (s : State) (toB : Bool) (h : WarmHeader) :
    (if toB then (s.putHead toB h).nv.headB else (s.putHead toB h).nv.headA) = some h := by
  cases toB <;> rfl

theorem State.putHead_rd (s : State) (toB : Bool) (h : WarmHeader) (b : Nat) : (s.putHead toB h).rd b = s.rd b := by
  cases toB <;> rfl

theorem State.batonCancel_batonsOf (s : State) (who w : Nat) : (s.batonCancel who).batonsOf w = s.batonsOf w := rfl

/-- The registers that the end of a store changes. -/
def storeEndRegs : List Nat := Reg.NVS_CNT_STORE :: pageOnlyRegs

theorem storeDone_ends (rb : ReadBack) (s : State) (hs : s.supplied) (hi : s.bit Reg.NVS_INJ 0 = false) (hc : s.bit Reg.NVS_INJ 2 = false)
    (hm : s.nvMay 0 = true) (r : StoreRun) (hst : s.nv.store = some r) (hb : r.begun = true) (hp : s.storePage? = none) :
    ∃ t, exec (.storeDone rb) s = .next t
      ∧ ((rb.first || rb.second) = true → t.nv.store = none
          ∧ (if r.toB then t.nv.headB else t.nv.headA) = some ⟨r.seq, true, s.warmCrc⟩
          ∧ t.batonsOf 1 = 0 ∧ t.bit Reg.NVS_IRQ 0 = true
          ∧ (t.rd Reg.NVS_CNT_STORE).toNat = min 0xFFFFFFFF ((s.rd Reg.NVS_CNT_STORE).toNat + 1))
      ∧ ((rb.first || rb.second) = false → t.nv = { s.nv with failed := 0 :: s.nv.failed } ∧ t.lap = s.lap ∧ t.bit Reg.NVS_STAT 1 = true)
      ∧ s.keepsRegs t storeEndRegs ∧ s.keepsParts t [.sent, .nv, .lap, .zid, .used] := by
  have hver : (s.clearSent.nvPage classNvs rb).2 = (rb.first || rb.second) := State.nvPage_verified (s := s.clearSent) hi _ _
  have hk : Keeps 8388864 s.clearSent (s.clearSent.nvPage classNvs rb).1 := State.nvPage_keeps rfl (Keeps.refl _)
  have hnv : (s.clearSent.nvPage classNvs rb).1.nv = s.nv := hk.nv_same rfl
  have hpage : s.keepsRegs (s.clearSent.nvPage classNvs rb).1 pageOnlyRegs := State.nvPage_only (s := s.clearSent) hi classNvs rb
  have hparts := (State.storeEnd_keeps (k := 8388902) rfl (State.clearSent_keeps rfl (Keeps.refl s)) (rb := rb)).parts
    [.sent, .nv, .lap, .zid, .used] (fun p => by cases p <;> decide)
  refine ⟨_, exec_storeDone hs rb, ?_⟩
  by_cases hv : (rb.first || rb.second) = true
  · have hcrc : (s.clearSent.nvPage classNvs rb).1.bit Reg.NVS_INJ 2 = false := by
      rw [State.bit_eq, hpage _ (by decide), ← State.bit_eq, hc]
    rw [State.storeEnd_written (s := s.clearSent) hst hb hm hp (hver.trans hv), State.storeComplete_eq hcrc,
      show (s.clearSent.nvPage classNvs rb).1.warmCrc = s.warmCrc by rw [State.warmCrc, State.warmCrc, hnv]] at hparts ⊢
    have hset : Keeps 256 (((((s.clearSent.nvPage classNvs rb).1.putHead r.toB ⟨r.seq, true, s.warmCrc⟩).storeOver.batonRelease 1).batonCancel 1))
        ((((((s.clearSent.nvPage classNvs rb).1.putHead r.toB ⟨r.seq, true, s.warmCrc⟩).storeOver.batonRelease 1).batonCancel 1).count
          Reg.NVS_CNT_STORE).irqNvs 0) := State.irqNvs_keeps rfl (State.count_keeps rfl (Keeps.refl _))
    have hover (b : Nat) : ((((s.clearSent.nvPage classNvs rb).1.putHead r.toB ⟨r.seq, true, s.warmCrc⟩).storeOver.batonRelease 1).batonCancel 1).rd b
        = (s.clearSent.nvPage classNvs rb).1.rd b := State.putHead_rd _ _ _ b
    refine ⟨fun _ => ⟨?_, ?_, ?_, ?_, ?_⟩, fun h => absurd (hv.symm.trans h) (by decide), fun b hb' => ?_, hparts⟩
    · rw [hset.nv_same rfl]
      rfl
    · rw [hset.nv_same rfl]
      exact State.putHead_head _ _ _
    · rw [State.batonsOf, hset.lap_same rfl, ← State.batonsOf, State.batonCancel_batonsOf, State.batonRelease_batonsOf]
    · rw [State.bit_eq, State.irqNvs, State.irqAt_rd _ _ _ _ _ _ (by decide), if_pos rfl, bitOf_putBit_same _ _ _ (by decide)]
    · rw [State.irqNvs, State.irqAt_rd _ _ _ _ _ _ (by decide), if_neg (by decide), State.rd_count, if_pos rfl, satWordN_toNat, hover,
        hpage _ (by decide)]
    · simp only [storeEndRegs, List.mem_cons, not_or] at hb'
      obtain ⟨h1, h2⟩ := hb'
      have h3 : b ≠ Reg.NVS_IRQ := fun e => h2 (e ▸ by decide)
      have h4 : b ∉ pinRegs := fun e => h2 (List.mem_append_right _ e)
      rw [State.irqNvs, State.irqAt_rd _ _ _ _ _ _ h4, if_neg h3, State.rd_count, if_neg h1, hover, hpage b h2]
  · have hf : (rb.first || rb.second) = false := Bool.eq_false_iff.mpr hv
    rw [State.storeEnd_failed (s := s.clearSent) hst hb hm hp (hver.trans hf)] at hparts ⊢
    exact ⟨fun h => absurd h hv, fun _ => ⟨congrArg (fun n : NvState => { n with failed := 0 :: n.failed }) hnv, hk.lap_same rfl,
      State.nvPage_failed_flagged (hver.trans hf)⟩, fun b hb' => hpage b fun h => hb' (List.mem_cons_of_mem _ h), hparts⟩

/-- No store runs, or a page of it is left. -/
theorem State.storeEnd_idle {s : State} (h : s.nv.store = none ∨ s.storePage?.isSome = true) (rb : ReadBack) : s.storeEnd rb = s := by
  unfold State.storeEnd
  cases hst : s.nv.store with
  | none => rfl
  | some r =>
    have hp : s.storePage?.isSome = true := h.resolve_left (by rw [hst]; exact Option.some_ne_none r)
    exact if_pos (by rw [hp, Bool.or_true, Bool.true_or])

theorem storeDone_idle (rb : ReadBack) (s : State) (hs : s.supplied) (h : s.nv.store = none ∨ s.storePage?.isSome = true) :
    ∃ t, exec (.storeDone rb) s = .next t ∧ t.regs = s.regs ∧ s.keepsParts t [.sent] :=
  ⟨_, (exec_storeDone hs rb).trans (congrArg _ (State.storeEnd_idle (s := s.clearSent) h rb)), rfl,
    (State.clearSent_keeps (k := 2) rfl (Keeps.refl s)).parts _ (fun p => by cases p <;> decide)⟩

theorem mem_pageOnlyRegs {b : Nat} (h : b ∈ pageOnlyRegs) :
    b ∈ [Reg.NVS_CNT_PAGE, Reg.NVS_STAT, Reg.NVS_CNT_VERIFY, Reg.NVS_IRQ, Reg.NVS_INJ] ++ pinRegs := by
  simp only [pageOnlyRegs, List.mem_append, List.mem_cons, List.not_mem_nil, or_false] at h ⊢
  tauto

theorem mem_storeEndRegs {b : Nat} (h : b ∈ storeEndRegs) :
    b ∈ [Reg.NVS_CNT_PAGE, Reg.NVS_CNT_STORE, Reg.NVS_STAT, Reg.NVS_CNT_VERIFY, Reg.NVS_IRQ, Reg.NVS_INJ] ++ pinRegs := by
  simp only [storeEndRegs, pageOnlyRegs, List.mem_append, List.mem_cons, List.not_mem_nil, or_false] at h ⊢
  tauto

/-- Settles O46. -/
theorem nvStore : Obligations.NvStore := by
  unfold Obligations.NvStore
  refine ⟨store_opens, fun rb s hs hi hm r hst hb hh p hp => ?_, fun rb s hs hi hc hm r hst hb hp => ?_, storeDone_idle⟩
  · obtain ⟨t, ht, hwritten, hfail, hsram, hregs, hparts⟩ := storePage_written rb s hs hi hm r hst hb hh p hp
    exact ⟨t, ht, hwritten, hfail, hsram, fun b hb' => hregs b fun h => hb' (mem_pageOnlyRegs h), hparts⟩
  · obtain ⟨t, ht, hwritten, hfail, hregs, hparts⟩ := storeDone_ends rb s hs hi hc hm r hst hb hp
    exact ⟨t, ht, hwritten, hfail, fun b hb' => hregs b fun h => hb' (mem_storeEndRegs h), hparts⟩

end Sys2Proof.Machine

/-!
The update buffer and the judging of a key-update message (R416 to R418), which settles O40.
-/

namespace Sys2Proof.Machine

/-! ## The update buffer -/

theorem updBuf_plain (w : Fin 32) : inNvWindow (Reg.KEY_UPD_BUF_w w.val) = false ∧ hasAcc .rws (Reg.KEY_UPD_BUF_w w.val) = false
    ∧ Reg.KEY_UPD_BUF_w w.val ∉ answerRegs := by
  revert w
  decide +kernel

theorem updBuf_writes (src : Src) (w : Fin 32) (value : Word) (s : State) (hs : s.supplied) (hg : s.grants src (Reg.KEY_UPD_BUF_w w.val) value) :
    ∃ t, exec (.updBufWrite src w value) s = .next t ∧ t.answer.status = .ok ∧ t.rd (Reg.KEY_UPD_BUF_w w.val) = value
      ∧ s.keepsRegs t (Reg.KEY_UPD_BUF_w w.val :: hostRegs) ∧ s.keepsParts t hostParts := by
  obtain ⟨hnv, hacc, hans⟩ := updBuf_plain w
  have hwr : Keeps 8388683 s.clearSent (s.clearSent.wr (Reg.KEY_UPD_BUF_w w.val) value) := State.wr_keeps rfl (Keeps.refl _)
  obtain ⟨t, ht, hok, hrd, -, hk⟩ := State.write1_answered (k := 8388683) hs hg hnv hacc (s.clearSent.wordWrite_updBuf src.slot.val w value)
    (by decide) hwr (by rw [hwr.nv_same rfl, State.clearSent_nv])
  refine ⟨t, ht, hok, ?_, fun b hb => ?_, hk.parts _ (fun p => by cases p <;> decide)⟩
  · rw [hrd _ hans, State.rd_wr, if_pos rfl]
  · simp only [hostRegs, List.mem_cons, List.not_mem_nil, or_false, not_or] at hb
    obtain ⟨hbuf, h1, h2, h3, -⟩ := hb
    rw [hrd b (by simp only [answerRegs, List.mem_cons, List.not_mem_nil, or_false, not_or]; exact ⟨h1, h2, h3⟩), State.rd_wr, if_neg hbuf,
      State.rd_clearSent]

theorem keyExec_idle (src : Src) (s : State) (hs : s.supplied) (hg : s.grants src Reg.KEY_UPD_CTRL 0#32) :
    ∃ t, exec (.keyExec src false) s = .next t ∧ t.answer.status = .ok ∧ s.keepsRegs t hostRegs ∧ s.keepsParts t hostParts := by
  have heff : s.clearSent.wordWrite src.slot.val [] (Reg.KEY_UPD_CTRL, 0#32) = s.clearSent := s.clearSent.wordWrite_updCtrl src.slot.val 0#32
  obtain ⟨t, ht, hok, hrd, -, hk⟩ := State.write1_answered (k := 8388683) hs hg (by decide) (by decide) heff (by decide) (Keeps.refl _) rfl
  exact ⟨t, ht, hok, State.keepsRegs_answered (l := []) hrd (fun b _ => State.rd_clearSent s b) (by decide),
    hk.parts _ (fun p => by cases p <;> decide)⟩

/-! ## The message of the buffer -/

/-- Byte 5 of the message names its slot. -/
theorem State.updBuffer_slot (s : State) : (s.updBuffer.getD 5 0#8).toNat = bitsOf (s.rd (Reg.KEY_UPD_BUF_w 1)) 8 8 := by
  have hrange : List.range 32 = 0 :: 1 :: (List.range 30).map (· + 2) := by decide
  have hbyte : s.updBuffer.getD 5 0#8 = byteAt (s.rd (Reg.KEY_UPD_BUF_w 1)).toNat 1 := by
    rw [State.updBuffer, hrange]
    rfl
  rw [hbyte, byteAt, BitVec.toNat_ofNat]
  rfl

/-- Table 4 has the codes 0x10 to 0x16, and 0 for a message that passes. -/
theorem State.judgeUpdate_code (s : State) (msg : List Byte) : (s.judgeUpdate msg).code < 2 ^ 8 := by
  unfold State.judgeUpdate
  lift_lets
  intros
  split
  · decide
  · split
    · decide
    · split
      · decide
      · dsimp only
        split_ifs <;> norm_num

/-! ## What EXEC does -/

/-- The registers of the update buffer. -/
def updBufRegs : List Nat := (List.range 32).map Reg.KEY_UPD_BUF_w

theorem State.clearUpdBuffer_rd (s : State) (b : Nat) : s.clearUpdBuffer.rd b = if b ∈ updBufRegs then 0#32 else s.rd b := by
  rw [← State.rd_zeroed, updBufRegs, State.forEach, List.foldl_map]
  rfl

/-- The message is copied out of the buffer, and its SLOT shown. -/
def State.updHeard (s : State) (slot : Nat) : State := s.clearUpdBuffer.setFld Reg.KEY_UPD_STAT 16 5 slot

theorem State.updHeard_rd (s : State) (slot b : Nat) (hb : b ∉ Reg.KEY_UPD_STAT :: updBufRegs) : (s.updHeard slot).rd b = s.rd b := by
  rw [List.mem_cons, not_or] at hb
  rw [State.updHeard, State.rd_setFld, if_neg hb.1, State.clearUpdBuffer_rd, if_neg hb.2]

theorem State.updHeard_buf (s : State) (slot : Nat) {b : Nat} (hb : b ∈ updBufRegs) : (s.updHeard slot).rd b = 0#32 := by
  have hne : b ≠ Reg.KEY_UPD_STAT := fun e => absurd (e ▸ hb) (by decide)
  rw [State.updHeard, State.rd_setFld, if_neg hne, State.clearUpdBuffer_rd, if_pos hb]

theorem State.updHeard_slot (s : State) (slot : Nat) : bitsOf ((s.updHeard slot).rd Reg.KEY_UPD_STAT) 16 5 = slot % 2 ^ 5 := by
  rw [State.updHeard, State.rd_setFld, if_pos rfl, bitsOf_putBits_same _ _ _ _ (by decide)]

theorem State.tagChecked_rd (s : State) (code : Nat) {b : Nat} (h1 : b ≠ Reg.KEY_INJ) (h2 : b ≠ Reg.ZID_CNT_INJ) :
    (s.tagChecked code).rd b = s.rd b := by
  unfold State.tagChecked
  split
  · rfl
  · exact s.injRan_rd _ _ b h1 h2

theorem State.keyStat_rd (s : State) (code : Nat) (busy : Bool) (b : Nat) : (s.keyStat code busy).rd b
    = if b = Reg.KEY_UPD_STAT then putBit (putBits (s.rd Reg.KEY_UPD_STAT) 0 8 code) 8 busy else s.rd b := by
  rw [State.keyStat, State.rd_setBit, State.rd_setFld, State.rd_setFld, if_pos rfl]
  split <;> rfl

/-- The fields of KEY_UPD_STAT are apart. -/
theorem keyStat_fields (w : Word) (code : Nat) (busy : Bool) :
    bitsOf (putBit (putBits w 0 8 code) 8 busy) 16 5 = bitsOf w 16 5 ∧ bitsOf (putBit (putBits w 0 8 code) 8 busy) 0 8 = code % 2 ^ 8
      ∧ bitOf (putBit (putBits w 0 8 code) 8 busy) 8 = busy :=
  ⟨(bitsOf_putBits_apart _ _ _ _ _ _ (by decide) (by decide)).trans (bitsOf_putBits_apart _ _ _ _ _ _ (by decide) (by decide)),
    (bitsOf_putBits_apart _ _ _ _ _ _ (by decide) (by decide)).trans (bitsOf_putBits_same _ _ _ _ (by decide)), bitOf_putBit_same _ _ _ (by decide)⟩

/-- An update begins: it waits for its tally increment. -/
def State.updBegun (s : State) (slot : Nat) (r : SlotCopy) : State :=
  { s with key := { s.key with job := some ⟨slot, r, false, false⟩ }, nv := { s.nv with tallyJobs := s.nv.tallyJobs ++ [(2, false)] } }

theorem State.updBegun_rd (s : State) (slot : Nat) (r : SlotCopy) (b : Nat) : (s.updBegun slot r).rd b = s.rd b := rfl

/-- The state in which the message of the buffer is judged. -/
def State.updJudged (s : State) : State := (s.updHeard (s.updBuffer.getD 5 0#8).toNat).tagChecked (s.judgeUpdate s.updBuffer).code

/-- A message that failed a check is counted and flagged. -/
def State.updFlagged (s : State) (code : Nat) : State :=
  (((s.keyStat code false).count Reg.KEY_CNT_UPDREFUSE).setBit Reg.KEY_STAT 0 true).irqKey 1

theorem State.keyExec_passes {s : State} (h : (s.judgeUpdate s.updBuffer).code = 0) : s.keyExec
    = (s.updJudged.keyStat (s.fld Reg.KEY_UPD_STAT 0 8) true).updBegun (s.updBuffer.getD 5 0#8).toNat (s.judgeUpdate s.updBuffer).record := by
  unfold State.keyExec State.updBegun State.updJudged State.updHeard
  dsimp only
  rw [if_pos h]

theorem State.keyExec_fails {s : State} (h : (s.judgeUpdate s.updBuffer).code ≠ 0) : s.keyExec
    = (s.updJudged.updFlagged (s.judgeUpdate s.updBuffer).code).raiseEv 0x1501 3
        (leBytes 1 (s.updBuffer.getD 5 0#8).toNat ++ leBytes 1 (s.judgeUpdate s.updBuffer).code) := by
  unfold State.keyExec State.updFlagged State.updJudged State.updHeard
  dsimp only
  rw [if_neg h]

/-- The registers that the judgement of a message changes beside KEY_UPD_STAT. -/
def updJudgedRegs : List Nat := Reg.KEY_INJ :: Reg.ZID_CNT_INJ :: updBufRegs

theorem State.updJudged_rd (s : State) {b : Nat} (h : b ≠ Reg.KEY_UPD_STAT) (hb : b ∉ updJudgedRegs) : s.updJudged.rd b = s.rd b := by
  simp only [updJudgedRegs, List.mem_cons, not_or] at hb
  obtain ⟨hinj, hcnt, hbuf⟩ := hb
  rw [State.updJudged, State.tagChecked_rd _ _ hinj hcnt, State.updHeard_rd _ _ _ (List.not_mem_cons_of_ne_of_not_mem h hbuf)]

theorem updBuf_apart {b : Nat} (hb : b ∈ updBufRegs) : b ≠ Reg.KEY_INJ ∧ b ≠ Reg.ZID_CNT_INJ ∧ b ≠ Reg.KEY_UPD_STAT ∧ b ∉ spoorRegs
    ∧ b ≠ Reg.KEY_CNT_UPDREFUSE ∧ b ≠ Reg.KEY_STAT ∧ b ≠ Reg.KEY_IRQ ∧ b ∉ answerRegs := by
  revert b
  decide +kernel

theorem State.updJudged_buf (s : State) {b : Nat} (hb : b ∈ updBufRegs) : s.updJudged.rd b = 0#32 := by
  obtain ⟨hinj, hcnt, -⟩ := updBuf_apart hb
  rw [State.updJudged, State.tagChecked_rd _ _ hinj hcnt, State.updHeard_buf _ _ hb]

theorem State.updJudged_slot (s : State) : bitsOf (s.updJudged.rd Reg.KEY_UPD_STAT) 16 5 = bitsOf (s.rd (Reg.KEY_UPD_BUF_w 1)) 8 5 := by
  rw [State.updJudged, State.tagChecked_rd _ _ (by decide) (by decide), State.updHeard_slot, State.updBuffer_slot]
  exact Nat.mod_mod_of_dvd _ (by decide)

theorem State.updFlagged_rd (s : State) (code : Nat) {b : Nat} (hp : b ∉ pinRegs) : (s.updFlagged code).rd b
    = if b = Reg.KEY_IRQ then putBit (s.rd Reg.KEY_IRQ) 1 true else if b = Reg.KEY_STAT then putBit (s.rd Reg.KEY_STAT) 0 true
      else if b = Reg.KEY_CNT_UPDREFUSE then satWordN ((s.rd Reg.KEY_CNT_UPDREFUSE).toNat + 1)
      else if b = Reg.KEY_UPD_STAT then putBit (putBits (s.rd Reg.KEY_UPD_STAT) 0 8 code) 8 false else s.rd b := by
  have hcnt : (s.keyStat code false).rd Reg.KEY_CNT_UPDREFUSE = s.rd Reg.KEY_CNT_UPDREFUSE := by rw [State.keyStat_rd, if_neg (by decide)]
  have hstat : ((s.keyStat code false).count Reg.KEY_CNT_UPDREFUSE).rd Reg.KEY_STAT = s.rd Reg.KEY_STAT := by
    rw [State.rd_count, if_neg (by decide), State.keyStat_rd, if_neg (by decide)]
  have hirq : (((s.keyStat code false).count Reg.KEY_CNT_UPDREFUSE).setBit Reg.KEY_STAT 0 true).rd Reg.KEY_IRQ = s.rd Reg.KEY_IRQ := by
    rw [State.rd_setBit, if_neg (by decide), State.rd_count, if_neg (by decide), State.keyStat_rd, if_neg (by decide)]
  rw [State.updFlagged, State.irqKey, State.irqAt_rd _ _ _ _ _ _ hp, hirq, State.rd_setBit, hstat, State.rd_count, hcnt, State.keyStat_rd]

/-! ## EXEC -/

/-- The registers that EXEC changes. -/
def updExecRegs : List Nat :=
  [Reg.KEY_UPD_STAT, Reg.KEY_CNT_UPDREFUSE, Reg.KEY_STAT, Reg.KEY_IRQ, Reg.KEY_INJ] ++ updBufRegs ++ Reg.ZID_CNT_INJ :: spoorRegs

theorem not_mem_updExecRegs {b : Nat} (hb : b ∉ updExecRegs) : b ≠ Reg.KEY_UPD_STAT ∧ b ≠ Reg.KEY_CNT_UPDREFUSE ∧ b ≠ Reg.KEY_STAT
    ∧ b ≠ Reg.KEY_IRQ ∧ b ∉ updJudgedRegs ∧ b ∉ spoorRegs := by
  simp only [updExecRegs, updJudgedRegs, List.mem_append, List.mem_cons, List.not_mem_nil, or_false, not_or] at hb ⊢
  tauto

section
variable {s : State}

section
variable (h : (s.judgeUpdate s.updBuffer).code = 0)
include h

theorem State.keyExec_passes_rd (b : Nat) :
    s.keyExec.rd b = (s.updJudged.keyStat (s.fld Reg.KEY_UPD_STAT 0 8) true).rd b := by
  rw [State.keyExec_passes h, State.updBegun_rd]

theorem State.keyExec_passes_parts : s.keyExec.nv = { s.nv with tallyJobs := s.nv.tallyJobs ++ [(2, false)] }
    ∧ s.keyExec.key = { s.key with job := some ⟨bitsOf (s.rd (Reg.KEY_UPD_BUF_w 1)) 8 8, (s.judgeUpdate s.updBuffer).record, false, false⟩ } := by
  have hk : Keeps 0 s (s.updJudged.keyStat (s.fld Reg.KEY_UPD_STAT 0 8) true) :=
    State.keyStat_keeps rfl (State.tagChecked_keeps rfl (State.setFld_keeps rfl (State.clearUpdBuffer_keeps rfl (Keeps.refl s))))
  rw [State.keyExec_passes h, State.updBuffer_slot]
  exact ⟨congrArg (fun n : NvState => { n with tallyJobs := n.tallyJobs ++ [(2, false)] }) (hk.nv_same rfl),
    congrArg (fun k : KeyState => { k with job := some ⟨bitsOf (s.rd (Reg.KEY_UPD_BUF_w 1)) 8 8, (s.judgeUpdate s.updBuffer).record, false, false⟩ })
      (hk.key_same rfl)⟩

theorem State.keyExec_passes_only {b : Nat} (hb : b ∉ updExecRegs) : s.keyExec.rd b = s.rd b := by
  obtain ⟨hstat, -, -, -, hjudged, -⟩ := not_mem_updExecRegs hb
  rw [State.keyExec_passes_rd h, State.keyStat_rd, if_neg hstat, State.updJudged_rd _ hstat hjudged]

end

section
variable (h : (s.judgeUpdate s.updBuffer).code ≠ 0)
include h

theorem State.keyExec_fails_rd {b : Nat} (hb : b ∉ spoorRegs) :
    s.keyExec.rd b = (s.updJudged.updFlagged (s.judgeUpdate s.updBuffer).code).rd b := by
  rw [State.keyExec_fails h, State.raiseEv_rd _ _ _ _ _ hb]

theorem State.keyExec_fails_parts : s.keyExec.nv = s.nv ∧ s.keyExec.key = s.key := by
  have hk : Keeps 384 s s.keyExec := by
    rw [State.keyExec_fails h]
    exact State.raiseEv_keeps rfl (State.irqKey_keeps rfl (State.setBit_keeps rfl (State.count_keeps rfl (State.keyStat_keeps rfl
      (State.tagChecked_keeps rfl (State.setFld_keeps rfl (State.clearUpdBuffer_keeps rfl (Keeps.refl s))))))))
  exact ⟨hk.nv_same rfl, hk.key_same rfl⟩

theorem State.keyExec_fails_only {b : Nat} (hb : b ∉ updExecRegs) : s.keyExec.rd b = s.rd b := by
  obtain ⟨hstat, hcnt, hkstat, hirq, hjudged, hspoor⟩ := not_mem_updExecRegs hb
  rw [State.keyExec_fails_rd h hspoor, State.updFlagged_rd _ _ (not_pin_of_spoor hspoor), if_neg hirq, if_neg hkstat, if_neg hcnt, if_neg hstat,
    State.updJudged_rd _ hstat hjudged]

end

theorem State.keyExec_only {b : Nat} (hb : b ∉ updExecRegs) : s.keyExec.rd b = s.rd b := by
  by_cases h : (s.judgeUpdate s.updBuffer).code = 0
  · exact State.keyExec_passes_only h hb
  · exact State.keyExec_fails_only h hb

theorem State.keyExec_buf {b : Nat} (hb : b ∈ updBufRegs) : s.keyExec.rd b = 0#32 := by
  obtain ⟨-, -, hstat, hspoor, hcnt, hkstat, hirq, -⟩ := updBuf_apart hb
  by_cases h : (s.judgeUpdate s.updBuffer).code = 0
  · rw [State.keyExec_passes_rd h, State.keyStat_rd, if_neg hstat, State.updJudged_buf _ hb]
  · rw [State.keyExec_fails_rd h hspoor, State.updFlagged_rd _ _ (not_pin_of_spoor hspoor), if_neg hirq, if_neg hkstat, if_neg hcnt, if_neg hstat,
      State.updJudged_buf _ hb]

theorem State.keyExec_stat : s.keyExec.rd Reg.KEY_UPD_STAT = putBit (putBits (s.updJudged.rd Reg.KEY_UPD_STAT) 0 8
    (if (s.judgeUpdate s.updBuffer).code = 0 then s.fld Reg.KEY_UPD_STAT 0 8 else (s.judgeUpdate s.updBuffer).code)) 8
      (decide ((s.judgeUpdate s.updBuffer).code = 0)) := by
  by_cases h : (s.judgeUpdate s.updBuffer).code = 0
  · rw [State.keyExec_passes_rd h, State.keyStat_rd, if_pos rfl, if_pos h, decide_eq_true h]
  · rw [State.keyExec_fails_rd h (by decide), State.updFlagged_rd _ _ (by decide), if_neg (by decide), if_neg (by decide), if_neg (by decide),
      if_pos rfl, if_neg h, decide_eq_false h]

end

theorem keyExec_judges (src : Src) (s : State) (hs : s.supplied) (hg : s.grants src Reg.KEY_UPD_CTRL 1#32) :
    ∃ t, exec (.keyExec src true) s = .next t ∧ t.answer.status = .ok ∧ (∀ b, b ∉ answerRegs → t.rd b = s.clearSent.keyExec.rd b)
      ∧ t.key = s.clearSent.keyExec.key ∧ t.nv = s.clearSent.keyExec.nv ∧ s.keepsParts t (.key :: .nv :: .spr :: .zid :: hostParts) := by
  have heff : s.clearSent.wordWrite src.slot.val [] (Reg.KEY_UPD_CTRL, 1#32) = s.clearSent.keyExec := s.clearSent.wordWrite_updCtrl src.slot.val 1#32
  have hjobs : s.clearSent.keyExec.nv.jobs = s.nv.jobs := by
    by_cases h : (s.clearSent.judgeUpdate s.clearSent.updBuffer).code = 0
    · rw [(State.keyExec_passes_parts h).1, State.clearSent_nv]
    · rw [(State.keyExec_fails_parts h).1, State.clearSent_nv]
  obtain ⟨t, ht, hok, hrd, hend, hk⟩ := State.write1_answered (k := 8393195) hs hg (by decide) (by decide) heff (by decide)
    (State.keyExec_keeps rfl (Keeps.refl _)) hjobs
  exact ⟨t, ht, hok, hrd, hend.key_same rfl, hend.nv_same rfl, hk.parts _ (fun p => by cases p <;> decide)⟩

/-- What a message that passes leaves. -/
theorem State.keyExec_passed {s : State} (h : (s.judgeUpdate s.updBuffer).code = 0) : bitOf (s.keyExec.rd Reg.KEY_UPD_STAT) 8 = true
    ∧ s.keyExec.rd Reg.KEY_CNT_UPDREFUSE = s.rd Reg.KEY_CNT_UPDREFUSE := by
  constructor
  · rw [State.keyExec_stat, (keyStat_fields _ _ _).2.2, decide_eq_true h]
  · rw [State.keyExec_passes_rd h, State.keyStat_rd, if_neg (by decide), State.updJudged_rd _ (by decide) (by decide)]

/-- What a message that fails a check leaves. -/
theorem State.keyExec_failed {s : State} (h : (s.judgeUpdate s.updBuffer).code ≠ 0) :
    bitsOf (s.keyExec.rd Reg.KEY_UPD_STAT) 0 8 = (s.judgeUpdate s.updBuffer).code ∧ bitOf (s.keyExec.rd Reg.KEY_UPD_STAT) 8 = false
      ∧ (s.keyExec.rd Reg.KEY_CNT_UPDREFUSE).toNat = min 0xFFFFFFFF ((s.rd Reg.KEY_CNT_UPDREFUSE).toNat + 1)
      ∧ bitOf (s.keyExec.rd Reg.KEY_STAT) 0 = true ∧ bitOf (s.keyExec.rd Reg.KEY_IRQ) 1 = true := by
  refine ⟨?_, ?_, ?_, ?_, ?_⟩
  · rw [State.keyExec_stat, (keyStat_fields _ _ _).2.1, if_neg h, Nat.mod_eq_of_lt (s.judgeUpdate_code _)]
  · rw [State.keyExec_stat, (keyStat_fields _ _ _).2.2, decide_eq_false h]
  · rw [State.keyExec_fails_rd h (by decide), State.updFlagged_rd _ _ (by decide), if_neg (by decide), if_neg (by decide), if_pos rfl,
      satWordN_toNat, State.updJudged_rd _ (by decide) (by decide)]
  · rw [State.keyExec_fails_rd h (by decide), State.updFlagged_rd _ _ (by decide), if_neg (by decide), if_pos rfl, bitOf_putBit_same _ _ _ (by decide)]
  · rw [State.keyExec_fails_rd h (by decide), State.updFlagged_rd _ _ (by decide), if_pos rfl, bitOf_putBit_same _ _ _ (by decide)]

theorem updBuf_mem (w : Fin 32) : Reg.KEY_UPD_BUF_w w.val ∈ updBufRegs := List.mem_map_of_mem (List.mem_range.mpr w.isLt)

theorem State.keyExec_slot (s : State) : bitsOf (s.keyExec.rd Reg.KEY_UPD_STAT) 16 5 = bitsOf (s.rd (Reg.KEY_UPD_BUF_w 1)) 8 5 := by
  rw [State.keyExec_stat, (keyStat_fields _ _ _).1, State.updJudged_slot]

theorem State.keyExec_slots (s : State) : s.keyExec.key.slots = s.key.slots := by
  by_cases h : (s.judgeUpdate s.updBuffer).code = 0
  · rw [(State.keyExec_passes_parts h).2]
  · rw [(State.keyExec_fails_parts h).2]

theorem mem_updExecRegs {b : Nat} (h : b ∈ updExecRegs ∨ b ∈ answerRegs) : b ∈ [Reg.KEY_UPD_STAT, Reg.KEY_CNT_UPDREFUSE, Reg.KEY_STAT,
    Reg.KEY_IRQ, Reg.KEY_INJ] ++ (List.range 32).map Reg.KEY_UPD_BUF_w ++ hostRegs ++ spoorRegs := by
  simp only [updExecRegs, updBufRegs, answerRegs, hostRegs, List.mem_append, List.mem_cons, List.not_mem_nil, or_false] at h ⊢
  tauto

/-- Settles O40. -/
theorem keyUpdateMessage : Obligations.KeyUpdateMessage := by
  unfold Obligations.KeyUpdateMessage
  refine ⟨updBuf_writes, keyExec_idle, fun src s hs hg => ?_⟩
  obtain ⟨t, ht, hok, hrd, hkey, hnv, hparts⟩ := keyExec_judges src s hs hg
  refine ⟨t, ht, hok, fun w => ?_, ?_, ?_, ⟨fun h => ?_, fun h => ?_⟩, fun b hb => ?_, hparts⟩
  · rw [hrd _ (updBuf_apart (updBuf_mem w)).2.2.2.2.2.2.2, State.keyExec_buf (updBuf_mem w)]
  · rw [State.fld_eq, hrd _ (by decide), State.keyExec_slot, State.rd_clearSent]
  · rw [hkey, State.keyExec_slots]
    rfl
  · obtain ⟨hbusy, hcnt⟩ := State.keyExec_passed (s := s.clearSent) h
    obtain ⟨hnv', hkey'⟩ := State.keyExec_passes_parts (s := s.clearSent) h
    exact ⟨by rw [State.bit_eq, hrd _ (by decide), hbusy], hnv.trans hnv', hkey.trans hkey', (hrd _ (by decide)).trans hcnt⟩
  · obtain ⟨hcode, hbusy, hcnt, hstat, hirq⟩ := State.keyExec_failed (s := s.clearSent) h
    obtain ⟨hnv', hkey'⟩ := State.keyExec_fails_parts (s := s.clearSent) h
    refine ⟨by rw [State.fld_eq, hrd _ (by decide)]; exact hcode, by rw [State.bit_eq, hrd _ (by decide), hbusy], hkey.trans hkey', hnv.trans hnv',
      by rw [hrd _ (by decide)]; exact hcnt, by rw [State.bit_eq, hrd _ (by decide), hstat], by rw [State.bit_eq, hrd _ (by decide), hirq]⟩
  · rw [hrd b fun h => hb (mem_updExecRegs (.inr h)), State.keyExec_only fun h => hb (mem_updExecRegs (.inl h)), State.rd_clearSent]

end Sys2Proof.Machine

/-!
The checks of an arriving request (R371, R380 to R383), which settle O27 and O28.
-/

namespace Sys2Proof.Machine

/-! ## A request as it is judged -/

/-- The charges of a tick replaced. -/
def State.withUsed (s : State) (l : List Nat) : State := { s with used := l }

theorem State.charge_withUsed (s : State) (c r n : Nat) : ∃ l, s.charge c r n = s.withUsed l := by
  unfold State.charge
  split
  · exact ⟨s.used, rfl⟩
  · exact ⟨_, rfl⟩

theorem State.reqCharge_withUsed (s : State) (b : List Byte) : ∃ l, s.reqCharge b = s.withUsed l := by
  obtain ⟨l, hl⟩ := s.charge_withUsed classHwp resFab (blocks64 b.length)
  obtain ⟨m, hm⟩ := (s.withUsed l).charge_withUsed classHwp resDram (blocks64 b.length)
  exact ⟨m, by rw [State.reqCharge, hl, hm]; rfl⟩

/-- The state in which the request of a taken frame is judged. -/
def State.reqArrived (s : State) (p : Nat) (l : List Nat) : State := (s.clearSent.frameCounted p).withUsed l

theorem exec_hwpRequest {b : List Byte} {port : Fin 3} {ip : Word} {udp : BitVec 16} {s : State} (hs : s.supplied)
    (ha : (s.clearSent.ethAccept port.val).2 = true) (hon : s.hwpOn port.val = true) :
    ∃ l, exec (.hwpRequest b port ip udp) s = .next ((s.reqArrived port.val l).requestJudge b port.val ip udp.toNat) := by
  obtain ⟨l, hl⟩ := (s.clearSent.frameCounted port.val).reqCharge_withUsed b
  refine ⟨l, (show execHwpRequest b port ip udp s = _ from State.act_supplied hs).trans (congrArg Host.Outcome.next ?_)⟩
  refine (State.ethTake_taken (s := s.clearSent) _ ha).trans ((if_pos hon).trans ?_)
  rw [State.request, hl]
  rfl

theorem State.reqArrived_keeps {k : Nat} (s : State) (p : Nat) (l : List Nat) (hk : k &&& 8912898 = 8912898) : Keeps k s (s.reqArrived p l) :=
  Keeps.set_used (keeps_sub hk rfl) (State.frameCounted_keeps (keeps_sub hk rfl) (State.clearSent_keeps (keeps_sub hk rfl) (Keeps.refl s)))

/-! ## A refused request (R371, R380) -/

/-- The record of a refusal. -/
def refuseRec (check op slot port : Nat) (st : Status) : Nat :=
  statusCode st + check * 2 ^ 4 + op % 256 * 2 ^ 8 + slot % 32 * 2 ^ 16 + port * 2 ^ 24

theorem statusCode_lt (st : Status) : statusCode st < 8 := by
  cases st <;> decide

theorem refuseRec_fields {check op slot port : Nat} {st : Status} (hc : check < 16) (hp : port < 4) :
    bitsOf (BitVec.ofNat 32 (refuseRec check op slot port st)) 0 4 = statusCode st
      ∧ bitsOf (BitVec.ofNat 32 (refuseRec check op slot port st)) 4 4 = check
      ∧ bitsOf (BitVec.ofNat 32 (refuseRec check op slot port st)) 8 8 = op % 256
      ∧ bitsOf (BitVec.ofNat 32 (refuseRec check op slot port st)) 24 2 = port := by
  have hst := statusCode_lt st
  have hop : op % 256 < 256 := Nat.mod_lt _ (by decide)
  have hslot : slot % 32 < 32 := Nat.mod_lt _ (by decide)
  have hlt : refuseRec check op slot port st < 2 ^ 32 := by
    unfold refuseRec
    omega
  rw [bitsOf_ofNat _ _ _ hlt, bitsOf_ofNat _ _ _ hlt, bitsOf_ofNat _ _ _ hlt, bitsOf_ofNat _ _ _ hlt]
  unfold refuseRec
  generalize op % 256 = o at *
  generalize slot % 32 = q at *
  refine ⟨?_, ?_, ?_, ?_⟩ <;> omega

/-- The counters of the rows of Table 4 before an operation runs. -/
def reqCounters : List Nat := [Reg.HWP_CNT_LENGTH, Reg.HWP_CNT_RANGE, Reg.HWP_CNT_BUSY, Reg.HWP_CNT_AUTH]

theorem reqCounters_apart {cnt : Nat} (h : cnt ∈ reqCounters) : cnt ≠ Reg.HWP_LASTREFUSE ∧ cnt ≠ Reg.HWP_CNT_REFUSE ∧ cnt ≠ Reg.HWP_STAT
    ∧ cnt ≠ Reg.HWP_IRQ ∧ cnt ∉ pinRegs := by
  revert cnt
  decide

/-- The frame of a refused request. -/
def refuseFrame (b : List Byte) (p : Nat) (ip : Word) (udp boot epoch : Nat) (st : Status) : Frame :=
  ⟨.response, p, ip.toNat, udp,
    respHeader (reqNum b 1 1) (reqNum b 2 2) (reqNum b 4 1) (reqNum b 8 4) boot ⟨st, 0, [], epoch⟩ false ++ List.replicate 16 0#8⟩

/-- It has MACVALID 0, MAC 0 and no data. -/
theorem refuseFrame_fields (b : List Byte) (p : Nat) (ip : Word) (udp boot epoch : Nat) (st : Status) :
    (refuseFrame b p ip udp boot epoch st).payload.length = 48 ∧ (refuseFrame b p ip udp boot epoch st).payload.drop 32 = List.replicate 16 0#8
      ∧ (refuseFrame b p ip udp boot epoch st).payload.getD 0x14 0#8 = 0#8 := ⟨rfl, rfl, rfl⟩

section
variable (s : State) (b : List Byte) (p : Nat) (ip : Word) (udp check : Nat) {cnt statBit : Nat} (st : Status)

theorem State.reqRefuse_answer : (s.reqRefuse b p ip udp check cnt statBit st).answer.status = st
    ∧ (s.reqRefuse b p ip udp check cnt statBit st).answer.data = [] := ⟨rfl, rfl⟩

theorem State.reqRefuse_sent : (s.reqRefuse b p ip udp check cnt statBit st).sent
    = s.sent ++ [refuseFrame b p ip udp s.bootCount s.readableEpoch st] := by
  have hsent : (s.hwpRefused check cnt statBit (reqNum b 1 1) (reqNum b 4 1) p st).sent = s.sent :=
    (State.hwpRefused_keeps (k := 256) rfl (Keeps.refl s)).sent_same rfl
  rw [← hsent]
  rfl

theorem State.reqRefuse_rd {a : Nat} (hcnt : cnt ∈ reqCounters) (hi : a ≠ Reg.HWP_IRQ) (hp : a ∉ pinRegs) :
    (s.reqRefuse b p ip udp check cnt statBit st).rd a
      = if a = Reg.HWP_STAT then putBit (s.rd Reg.HWP_STAT) statBit true else if a = cnt then satWordN ((s.rd cnt).toNat + 1)
        else if a = Reg.HWP_CNT_REFUSE then satWordN ((s.rd Reg.HWP_CNT_REFUSE).toNat + 1)
        else if a = Reg.HWP_LASTREFUSE then BitVec.ofNat 32 (refuseRec check (reqNum b 1 1) (reqNum b 4 1) p st) else s.rd a := by
  obtain ⟨h1, h2, h3, -⟩ := reqCounters_apart hcnt
  have irq (u : State) (i : Nat) : (u.irqHwp i).rd a = u.rd a := by
    rw [State.irqHwp, State.irqAt_rd _ _ _ _ _ _ hp, if_neg hi]
  have hrefuse : (s.reqRefuse b p ip udp check cnt statBit st).rd a
      = (s.hwpRefused check cnt statBit (reqNum b 1 1) (reqNum b 4 1) p st).rd a := rfl
  rw [hrefuse]
  unfold State.hwpRefused
  simp only [irq, State.rd_onlyIf, ite_self, State.rd_setBit, State.rd_count, State.rd_wr]
  rw [if_neg h3.symm, if_neg (by decide : Reg.HWP_STAT ≠ Reg.HWP_CNT_REFUSE), if_neg (by decide : Reg.HWP_STAT ≠ Reg.HWP_LASTREFUSE), if_neg h2,
    if_neg h1, if_neg (by decide : Reg.HWP_CNT_REFUSE ≠ Reg.HWP_LASTREFUSE)]
  rfl

theorem State.reqRefuse_counts (hcnt : cnt ∈ reqCounters) (hbit : statBit < 32) :
    ((s.reqRefuse b p ip udp check cnt statBit st).rd cnt).toNat = min 0xFFFFFFFF ((s.rd cnt).toNat + 1)
      ∧ (s.reqRefuse b p ip udp check cnt statBit st).bit Reg.HWP_STAT statBit = true
      ∧ ((s.reqRefuse b p ip udp check cnt statBit st).rd Reg.HWP_CNT_REFUSE).toNat = min 0xFFFFFFFF ((s.rd Reg.HWP_CNT_REFUSE).toNat + 1) := by
  obtain ⟨h1, h2, h3, h4, h5⟩ := reqCounters_apart hcnt
  refine ⟨?_, ?_, ?_⟩
  · rw [State.reqRefuse_rd _ _ _ _ _ _ _ hcnt h4 h5, if_neg h3, if_pos rfl, satWordN_toNat]
  · rw [State.bit_eq, State.reqRefuse_rd _ _ _ _ _ _ _ hcnt (by decide) (by decide), if_pos rfl, bitOf_putBit_same _ _ _ hbit]
  · rw [State.reqRefuse_rd _ _ _ _ _ _ _ hcnt (by decide) (by decide), if_neg (by decide), if_neg h2.symm, if_pos rfl, satWordN_toNat]

theorem State.reqRefuse_record (hcnt : cnt ∈ reqCounters) : (s.reqRefuse b p ip udp check cnt statBit st).rd Reg.HWP_LASTREFUSE
    = BitVec.ofNat 32 (refuseRec check (reqNum b 1 1) (reqNum b 4 1) p st) := by
  obtain ⟨h1, -⟩ := reqCounters_apart hcnt
  rw [State.reqRefuse_rd _ _ _ _ _ _ _ hcnt (by decide) (by decide), if_neg (by decide), if_neg h1.symm, if_neg (by decide), if_pos rfl]

theorem State.reqRefuse_keepsRegs (hcnt : cnt ∈ reqCounters) : s.keepsRegs (s.reqRefuse b p ip udp check cnt statBit st)
    ([Reg.HWP_LASTREFUSE, Reg.HWP_CNT_REFUSE, cnt, Reg.HWP_STAT, Reg.HWP_IRQ] ++ pinRegs) := fun a ha => by
  simp only [List.mem_append, List.mem_cons, List.not_mem_nil, or_false, not_or] at ha
  obtain ⟨⟨h1, h2, h3, h4, h5⟩, hp⟩ := ha
  rw [State.reqRefuse_rd _ _ _ _ _ _ _ hcnt h5 (by simpa using hp), if_neg h4, if_neg h3, if_neg h2, if_neg h1]

end

/-! ## Checks 1 to 3 -/

theorem reqLengthBad_iff (b : List Byte) : reqLengthBad b = true
    ↔ b.length < 48 ∨ reqNum b 6 2 = 0 ∨ 352 < reqNum b 6 2 ∨ b.length ≠ 48 + 4 * reqNum b 6 2 := by
  simp [reqLengthBad, or_assoc]

theorem reqFormBad_iff (b : List Byte) : reqFormBad b = true
    ↔ reqNum b 0 1 ≠ 1 ∨ reqNum b 1 1 = 0 ∨ 5 < reqNum b 1 1 ∨ reqNum b 5 1 ≠ 0 ∨ reqNum b 0x14 4 ≠ 0 ∨ reqNum b 0x0F 1 ≠ 0
      ∨ (reqNum b 1 1 = 3 ∧ reqNum b 6 2 % 2 = 1) ∨ (reqNum b 1 1 = 5 ∧ reqNum b 6 2 ≠ 1) := by
  simp [reqFormBad, or_assoc]

theorem State.hwpFull_iff (s : State) : s.hwpFull = true ↔ 64 ≤ s.hwp.taken ∨ 64 ≤ s.hwp.queue.length + s.hwp.held.length := by
  simp [State.hwpFull]

section
variable {s : State} {b : List Byte} {p : Nat} {ip : Word} {udp : Nat}

theorem State.requestJudge_length (h : reqLengthBad b = true) :
    s.requestJudge b p ip udp = s.reqRefuse b p ip udp 1 Reg.HWP_CNT_LENGTH 0 .length := if_pos h

theorem State.requestJudge_form (hl : reqLengthBad b = false) (h : reqFormBad b = true) :
    s.requestJudge b p ip udp = s.reqRefuse b p ip udp 2 Reg.HWP_CNT_RANGE 1 .range := by
  rw [State.requestJudge, if_neg (by rw [hl]; exact Bool.false_ne_true), if_pos h]

section
variable (hi : s.rd Reg.HWP_INJ = 0#32)
include hi

theorem State.hwpInj_unarmed (i : Nat) (x : Bool) : s.injTest Reg.HWP_INJ i x = x ∧ s.injRan Reg.HWP_INJ i = s := by
  have hbit : s.bit Reg.HWP_INJ i = false := by rw [State.bit_eq, hi, bitOf_zero]
  exact ⟨by rw [State.injTest, hbit, Bool.bne_false], if_neg (by rw [hbit]; exact Bool.false_ne_true)⟩

theorem State.requestJudge_busy (hl : reqLengthBad b = false) (hf : reqFormBad b = false) (h : s.hwpFull = true) :
    s.requestJudge b p ip udp = s.reqRefuse b p ip udp 3 Reg.HWP_CNT_BUSY 2 .busy := by
  unfold State.requestJudge
  rw [if_neg (by rw [hl]; exact Bool.false_ne_true), if_neg (by rw [hf]; exact Bool.false_ne_true)]
  dsimp only
  rw [(State.hwpInj_unarmed hi 1 _).1, (State.hwpInj_unarmed hi 1 true).2, if_pos h]

end

end

/-- What a refused request leaves. -/
theorem request_refused {b : List Byte} {port : Fin 3} {ip : Word} {udp : BitVec 16} {s : State} (hs : s.supplied)
    (ha : (s.clearSent.ethAccept port.val).2 = true) (hon : s.hwpOn port.val = true) {check cnt statBit : Nat} {st : Status}
    (hj : ∀ l, (s.reqArrived port.val l).requestJudge b port.val ip udp.toNat
      = (s.reqArrived port.val l).reqRefuse b port.val ip udp.toNat check cnt statBit st)
    (hcnt : cnt ∈ reqCounters) (hbit : statBit < 32) (hcheck : check < 16) :
    ∃ t, exec (.hwpRequest b port ip udp) s = .next t ∧ t.answer.status = st ∧ t.answer.data = [] ∧ t.hwp = s.hwp
      ∧ ((t.rd cnt).toNat = min 0xFFFFFFFF ((s.rd cnt).toNat + 1) ∧ t.bit Reg.HWP_STAT statBit = true
          ∧ t.fld Reg.HWP_LASTREFUSE 0 4 = statusCode st ∧ t.fld Reg.HWP_LASTREFUSE 4 4 = check)
      ∧ (t.rd Reg.HWP_CNT_REFUSE).toNat = min 0xFFFFFFFF ((s.rd Reg.HWP_CNT_REFUSE).toNat + 1)
      ∧ t.fld Reg.HWP_LASTREFUSE 8 8 = reqNum b 1 1 % 256 ∧ t.fld Reg.HWP_LASTREFUSE 24 2 = port.val
      ∧ t.sent.length = 1 ∧ (∀ f ∈ t.sent, f.port = port.val ∧ f.payload.length = 48 ∧ f.payload.drop 32 = List.replicate 16 0#8
            ∧ f.payload.getD 0x14 0#8 = 0#8)
      ∧ s.keepsRegs t ([Reg.HWP_LASTREFUSE, Reg.HWP_CNT_REFUSE, cnt, Reg.HWP_STAT, Reg.HWP_IRQ] ++ pinRegs)
      ∧ s.keepsParts t [.answer, .sent, .zid, .eth, .used] := by
  obtain ⟨l, hl⟩ := exec_hwpRequest (b := b) (ip := ip) (udp := udp) hs ha hon
  rw [hj] at hl
  have hk : Keeps 8913155 s ((s.reqArrived port.val l).reqRefuse b port.val ip udp.toNat check cnt statBit st) :=
    State.reqRefuse_keeps rfl (s.reqArrived_keeps port.val l rfl)
  obtain ⟨hcounted, hstat, hrefuse⟩ := (s.reqArrived port.val l).reqRefuse_counts b port.val ip udp.toNat check st hcnt hbit
  have hrec := (s.reqArrived port.val l).reqRefuse_record b port.val ip udp.toNat check (statBit := statBit) st hcnt
  obtain ⟨hcode, hrow, hop, hport⟩ := refuseRec_fields (check := check) (op := reqNum b 1 1) (slot := reqNum b 4 1) (port := port.val) (st := st)
    hcheck (port.isLt.trans (by decide))
  have hsent := (s.reqArrived port.val l).reqRefuse_sent b port.val ip udp.toNat check (cnt := cnt) (statBit := statBit) st
  refine ⟨_, hl, rfl, rfl, hk.hwp_same rfl, ⟨hcounted, hstat, ?_, ?_⟩, hrefuse, ?_, ?_, ?_, fun f hf => ?_,
    (s.reqArrived port.val l).reqRefuse_keepsRegs b port.val ip udp.toNat check st hcnt, hk.parts _ (fun p => by cases p <;> decide)⟩
  · rw [State.fld_eq, hrec, hcode]
  · rw [State.fld_eq, hrec, hrow]
  · rw [State.fld_eq, hrec, hop]
  · rw [State.fld_eq, hrec, hport]
  · rw [hsent]
    rfl
  · rw [hsent] at hf
    rw [show f = _ from List.mem_singleton.mp hf]
    exact ⟨rfl, refuseFrame_fields _ _ _ _ _ _ _⟩

theorem checkedRegs_mono {cnt b : Nat} (hcnt : cnt ∈ [Reg.HWP_CNT_LENGTH, Reg.HWP_CNT_RANGE, Reg.HWP_CNT_BUSY])
    (h : b ∈ [Reg.HWP_LASTREFUSE, Reg.HWP_CNT_REFUSE, cnt, Reg.HWP_STAT, Reg.HWP_IRQ] ++ pinRegs) :
    b ∈ [Reg.HWP_LASTREFUSE, Reg.HWP_CNT_REFUSE, Reg.HWP_CNT_LENGTH, Reg.HWP_CNT_RANGE, Reg.HWP_CNT_BUSY, Reg.HWP_STAT, Reg.HWP_IRQ] ++ pinRegs := by
  simp only [List.mem_append, List.mem_cons, List.not_mem_nil, or_false] at h hcnt ⊢
  rcases hcnt with rfl | rfl | rfl <;> tauto

/-- Settles O27. -/
theorem requestChecks : Obligations.RequestChecks := by
  unfold Obligations.RequestChecks
  intro b port ip udp s hs ha hon hi n op badLength badForm full hbad
  have hfull (l : List Nat) : (s.reqArrived port.val l).hwpFull = s.hwpFull := rfl
  by_cases hl : badLength
  · obtain ⟨t, ht, hst, hdata, hhwp, hrow, hcnt, hop, hport, hsent, hframe, hregs, hparts⟩ := request_refused (b := b) (ip := ip) (udp := udp) hs ha hon
      (fun l => State.requestJudge_length ((reqLengthBad_iff b).mpr hl)) (by decide) (by decide) (by decide)
    rw [if_pos hl, if_pos hl]
    exact ⟨t, ht, hst, hdata, hhwp, hrow, hcnt, hop, hport, hsent, hframe, fun a ha => hregs a fun h => ha (checkedRegs_mono (by decide) h), hparts⟩
  · have hl' : reqLengthBad b = false := Bool.eq_false_iff.mpr fun h => hl ((reqLengthBad_iff b).mp h)
    rw [if_neg hl, if_neg hl]
    by_cases hf : badForm
    · obtain ⟨t, ht, hst, hdata, hhwp, hrow, hcnt, hop, hport, hsent, hframe, hregs, hparts⟩ := request_refused (b := b) (ip := ip) (udp := udp) hs ha hon
        (fun l => State.requestJudge_form hl' ((reqFormBad_iff b).mpr hf)) (by decide) (by decide) (by decide)
      rw [if_pos hf, if_pos hf]
      exact ⟨t, ht, hst, hdata, hhwp, hrow, hcnt, hop, hport, hsent, hframe, fun a ha => hregs a fun h => ha (checkedRegs_mono (by decide) h), hparts⟩
    · have hf' : reqFormBad b = false := Bool.eq_false_iff.mpr fun h => hf ((reqFormBad_iff b).mp h)
      have hb : s.hwpFull = true := s.hwpFull_iff.mpr ((hbad.resolve_left hl).resolve_left hf)
      obtain ⟨t, ht, hst, hdata, hhwp, hrow, hcnt, hop, hport, hsent, hframe, hregs, hparts⟩ := request_refused (b := b) (ip := ip) (udp := udp) hs ha hon
        (fun l => State.requestJudge_busy hi hl' hf' ((hfull l).trans hb)) (by decide) (by decide) (by decide)
      rw [if_neg hf, if_neg hf]
      exact ⟨t, ht, hst, hdata, hhwp, hrow, hcnt, hop, hport, hsent, hframe, fun a ha => hregs a fun h => ha (checkedRegs_mono (by decide) h), hparts⟩

/-! ## Check 4 (R380 to R383) -/

/-- The MAC of a request verifies under its slot's key, and its BOOT is the module's. -/
def State.reqVerified (s : State) (b : List Byte) : Prop :=
  s.macUnder engHwp (reqNum b 4 1) (b.take (b.length - 16)) = some (b.drop (b.length - 16)) ∧ reqNum b 0x0C 3 = s.bootCount

/-- The MAC and BOOT let a request pass to the judgement of its REQSEQ. -/
theorem State.reqVerified_passes {s : State} {b : List Byte} (h : s.reqVerified b) :
    ¬ (!decide (s.macUnder engHwp (reqNum b 4 1) (b.take (b.length - 16)) = some (b.drop (b.length - 16))) || reqNum b 0x0C 3 != s.bootCount) = true := by
  obtain ⟨hmac, hboot⟩ := h
  rw [decide_eq_true hmac, hboot]
  simp

/-- A request's take-up changes no component but the block's own. -/
theorem State.reqTake_hwp {k : Nat} {q s : State} (r : HwpReq) (hk : k &&& 64 = 64) (h : Keeps k q s) : Keeps k q (s.reqTake r) :=
  Keeps.set_hwp hk (State.wr_keeps (keeps_sub hk rfl) h)

section
variable {s : State} {b : List Byte} {p : Nat} {ip : Word} {udp : Nat}

/-- A MAC that verifies is compared with no fault injected. -/
theorem State.reqMac_eq (hi : s.rd Reg.HWP_INJ = 0#32) (b : List Byte) : s.reqMac b
    = (decide (s.macUnder engHwp (reqNum b 4 1) (b.take (b.length - 16)) = some (b.drop (b.length - 16))), s) := by
  unfold State.reqMac
  dsimp only
  cases hm : s.macUnder engHwp (reqNum b 4 1) (b.take (b.length - 16)) with
  | none => rfl
  | some mac =>
    refine Prod.ext ?_ (State.hwpInj_unarmed hi 0 true).2
    refine (State.hwpInj_unarmed hi 0 _).1.trans ?_
    rw [Bool.eq_iff_iff, beq_iff_eq, decide_eq_true_iff, Option.some.injEq]

section
variable (hi : s.rd Reg.HWP_INJ = 0#32) (hl : reqLengthBad b = false) (hf : reqFormBad b = false) (hb : s.hwpFull = false)
include hi hl hf hb

theorem State.requestJudge_passes : s.requestJudge b p ip udp
    = s.reqJudge b p ip udp (decide (s.macUnder engHwp (reqNum b 4 1) (b.take (b.length - 16)) = some (b.drop (b.length - 16)))) := by
  unfold State.requestJudge
  rw [if_neg (by rw [hl]; exact Bool.false_ne_true), if_neg (by rw [hf]; exact Bool.false_ne_true)]
  dsimp only
  rw [(State.hwpInj_unarmed hi 1 _).1, (State.hwpInj_unarmed hi 1 true).2, hb, if_neg Bool.false_ne_true, State.reqMac_eq hi]

theorem State.requestJudge_unverified (h : ¬ s.reqVerified b) :
    s.requestJudge b p ip udp = s.reqRefuse b p ip udp 4 Reg.HWP_CNT_AUTH 3 .auth := by
  rw [State.requestJudge_passes hi hl hf hb]
  refine if_pos ?_
  rw [State.reqVerified, not_and_or] at h
  simpa [bne_iff_ne] using h

section
variable (h : s.reqVerified b)
include h

theorem State.requestJudge_newer (hn : newerSeq 32 (reqOf b p ip udp).seq.toNat (s.rd (Reg.HWP_SLOT_k_SEQ (reqOf b p ip udp).slot)).toNat = true) :
    s.requestJudge b p ip udp = s.reqTake (reqOf b p ip udp) := by
  rw [State.requestJudge_passes hi hl hf hb]
  unfold State.reqJudge
  dsimp only
  rw [if_neg (State.reqVerified_passes h), if_pos hn]

section
variable (hn : newerSeq 32 (reqOf b p ip udp).seq.toNat (s.rd (Reg.HWP_SLOT_k_SEQ (reqOf b p ip udp).slot)).toNat = false)
include hn

theorem State.requestJudge_older (hq : (reqOf b p ip udp).seq ≠ s.rd (Reg.HWP_SLOT_k_SEQ (reqOf b p ip udp).slot)) :
    s.requestJudge b p ip udp = s.reqRefuse b p ip udp 4 Reg.HWP_CNT_AUTH 3 .auth := by
  rw [State.requestJudge_passes hi hl hf hb]
  unfold State.reqJudge
  dsimp only
  rw [if_neg (State.reqVerified_passes h), if_neg (by rw [hn]; exact Bool.false_ne_true), if_pos (bne_iff_ne.mpr hq)]

section
variable (hq : (reqOf b p ip udp).seq = s.rd (Reg.HWP_SLOT_k_SEQ (reqOf b p ip udp).slot))
include hq

theorem State.requestJudge_stored {x : HwpStored}
    (hx : s.hwp.stored.find? (fun x => x.slot == (reqOf b p ip udp).slot && x.seq == (reqOf b p ip udp).seq) = some x) :
    s.requestJudge b p ip udp = s.resend p ip udp x.bytes := by
  rw [State.requestJudge_passes hi hl hf hb]
  unfold State.reqJudge
  dsimp only
  rw [if_neg (State.reqVerified_passes h), if_neg (by rw [hn]; exact Bool.false_ne_true), if_neg (by rw [hq]; simp), hx]

section
variable (hx : s.hwp.stored.find? (fun x => x.slot == (reqOf b p ip udp).slot && x.seq == (reqOf b p ip udp).seq) = none)
include hx

/-- A repeat waits with its first. -/
def State.repeatHeld (s : State) (e : Nat × Nat × Word × Nat) : State := { s with hwp := { s.hwp with held := s.hwp.held ++ [e] } }

theorem State.requestJudge_waits (hw : s.hwp.queue.any (fun q => q.slot == (reqOf b p ip udp).slot && q.seq == (reqOf b p ip udp).seq) = true) :
    s.requestJudge b p ip udp = s.repeatHeld ((reqOf b p ip udp).slot, p, ip, udp) := by
  rw [State.requestJudge_passes hi hl hf hb]
  unfold State.reqJudge
  dsimp only
  rw [if_neg (State.reqVerified_passes h), if_neg (by rw [hn]; exact Bool.false_ne_true), if_neg (by rw [hq]; simp), hx]
  exact if_pos hw

theorem State.requestJudge_forgotten (hw : s.hwp.queue.any (fun q => q.slot == (reqOf b p ip udp).slot && q.seq == (reqOf b p ip udp).seq) = false) :
    s.requestJudge b p ip udp = s.reqRefuse b p ip udp 4 Reg.HWP_CNT_AUTH 3 .auth := by
  rw [State.requestJudge_passes hi hl hf hb]
  unfold State.reqJudge
  dsimp only
  rw [if_neg (State.reqVerified_passes h), if_neg (by rw [hn]; exact Bool.false_ne_true), if_neg (by rw [hq]; simp), hx]
  exact if_neg (by rw [hw]; exact Bool.false_ne_true)

end

end

end

end

end

end

theorem State.resend_sent (s : State) (p : Nat) (ip : Word) (udp : Nat) (l : List Byte) :
    (s.resend p ip udp l).sent = s.sent ++ [⟨.response, p, ip.toNat, udp, l⟩] := rfl

/-- Settles O28. -/
theorem requestTakeUp : Obligations.RequestTakeUp := by
  unfold Obligations.RequestTakeUp
  intro b port ip udp s hs ha hon hi hl hf hb
  obtain ⟨l, ht⟩ := exec_hwpRequest (b := b) (ip := ip) (udp := udp) hs ha hon
  have hk : Keeps 8912898 s (s.reqArrived port.val l) := s.reqArrived_keeps port.val l rfl
  refine ⟨_, ht, ?_⟩
  intro r last auth newer waits stored
  refine ⟨fun hau hn => ?_, fun x hx hau hn hq => ?_, fun hau hn hq hx hw => ?_, fun hbad => ?_⟩
  · rw [State.requestJudge_newer (s := s.reqArrived port.val l) hi hl hf hb hau hn]
    refine ⟨rfl, ?_, rfl, fun a ha => ?_,
      (State.reqTake_hwp (k := 8912962) r rfl (s.reqArrived_keeps port.val l rfl)).parts _ (fun p => by cases p <;> decide)⟩
    · exact (State.rd_wr _ _ _ _).trans (if_pos rfl)
    · exact (State.rd_wr _ _ _ _).trans (if_neg (List.ne_of_not_mem_cons ha))
  · rw [State.requestJudge_stored (s := s.reqArrived port.val l) hi hl hf hb hau (Bool.eq_false_iff.mpr hn) hq hx]
    have hres := State.resend_keeps (k := 8912898) (port := port.val) (ip := ip) (udp := udp.toNat) (bytes := x.bytes) rfl
      (s.reqArrived_keeps port.val l rfl)
    refine ⟨State.resend_sent _ _ _ _ _, hres.hwp_same rfl, ?_, fun a ha => ?_, hres.parts _ (fun p => by cases p <;> decide)⟩
    · rw [State.resend, State.rd_setBit, if_neg (by decide), State.rd_count, if_pos rfl, satWordN_toNat]
      rfl
    · rw [List.mem_cons, List.mem_singleton, not_or] at ha
      exact State.resend_rd _ _ _ _ _ _ ha.1 ha.2
  · rw [State.requestJudge_waits (s := s.reqArrived port.val l) hi hl hf hb hau (Bool.eq_false_iff.mpr hn) hq hx hw]
    have hheld : Keeps 8912962 s ((s.reqArrived port.val l).repeatHeld (r.slot, port.val, ip, udp.toNat)) :=
      Keeps.set_hwp rfl (s.reqArrived_keeps port.val l rfl)
    exact ⟨rfl, rfl, rfl, hheld.parts _ (fun p => by cases p <;> decide)⟩
  · have hrefuse : (s.reqArrived port.val l).requestJudge b port.val ip udp.toNat
        = (s.reqArrived port.val l).reqRefuse b port.val ip udp.toNat 4 Reg.HWP_CNT_AUTH 3 .auth := by
      by_cases hau : auth
      · obtain ⟨hn, hrest⟩ := hbad.resolve_left (not_not_intro hau)
        by_cases hq : r.seq = last
        · obtain ⟨hx, hw⟩ := hrest.resolve_left (not_not_intro hq)
          exact State.requestJudge_forgotten (s := s.reqArrived port.val l) hi hl hf hb hau (Bool.eq_false_iff.mpr hn) hq hx (Bool.eq_false_iff.mpr hw)
        · exact State.requestJudge_older (s := s.reqArrived port.val l) hi hl hf hb hau (Bool.eq_false_iff.mpr hn) hq
      · exact State.requestJudge_unverified (s := s.reqArrived port.val l) hi hl hf hb hau
    have hkeep : Keeps 8913155 s ((s.reqArrived port.val l).reqRefuse b port.val ip udp.toNat 4 Reg.HWP_CNT_AUTH 3 .auth) :=
      State.reqRefuse_keeps rfl (s.reqArrived_keeps port.val l rfl)
    obtain ⟨hcounted, hstat, hcnt⟩ := (s.reqArrived port.val l).reqRefuse_counts b port.val ip udp.toNat 4 .auth
      (cnt := Reg.HWP_CNT_AUTH) (statBit := 3) (by decide) (by decide)
    rw [hrefuse]
    exact ⟨rfl, hkeep.hwp_same rfl, hcounted, hstat, hcnt,
      (s.reqArrived port.val l).reqRefuse_keepsRegs b port.val ip udp.toNat 4 .auth (by decide), hkeep.parts _ (fun p => by cases p <;> decide)⟩

end Sys2Proof.Machine

/-!
Ethernet ports (R335, R337): the lap's frame limit, ARP, echo and links, which settle O23.
-/

namespace Sys2Proof.Machine

/-! ## The limit of a lap (R337) -/

/-- A frame beyond the lap's limit. -/
def State.frameOver (s : State) : State := ((s.count Reg.ETH_CNT_RXOVR).setBit Reg.ETH_STAT 0 true).irqEth 2

section
variable {s : State} {p : Nat}

theorem State.ethAccept_over (hup : s.portUp p = true) (h : frameLimit p ≤ listGet s.eth.frames p) : s.ethAccept p = (s.frameOver, false) := by
  unfold State.ethAccept
  rw [if_neg (by rw [hup]; decide), if_pos h]
  rfl

theorem State.ethAccept_within (hup : s.portUp p = true) (h : listGet s.eth.frames p < frameLimit p) :
    s.ethAccept p = (s.frameCounted p, true) := by
  unfold State.ethAccept
  rw [if_neg (by rw [hup]; decide), if_neg (Nat.not_le.mpr h)]
  rfl

theorem State.ethFrame_good (hup : s.portUp p = true) : s.ethFrame p true = (s.ethAccept p).1 := by
  unfold State.ethFrame
  rw [if_neg (by rw [hup]; decide), if_pos rfl]
  unfold State.ethTake
  dsimp only
  split <;> rfl

theorem State.ethFrame_bad (hup : s.portUp p = true) : s.ethFrame p false = s.count (Reg.ETH_PORT_p_CNT_RXERR p) := by
  unfold State.ethFrame
  rw [if_neg (by rw [hup]; decide), if_neg Bool.false_ne_true]

end

theorem State.frameOver_rd (s : State) {b : Nat} (hp : b ∉ pinRegs) : s.frameOver.rd b
    = if b = Reg.ETH_IRQ then putBit (s.rd Reg.ETH_IRQ) 2 true else if b = Reg.ETH_STAT then putBit (s.rd Reg.ETH_STAT) 0 true
      else if b = Reg.ETH_CNT_RXOVR then satWordN ((s.rd Reg.ETH_CNT_RXOVR).toNat + 1) else s.rd b := by
  have hstat : (s.count Reg.ETH_CNT_RXOVR).rd Reg.ETH_STAT = s.rd Reg.ETH_STAT := by rw [State.rd_count, if_neg (by decide)]
  have hirq : ((s.count Reg.ETH_CNT_RXOVR).setBit Reg.ETH_STAT 0 true).rd Reg.ETH_IRQ = s.rd Reg.ETH_IRQ := by
    rw [State.rd_setBit, if_neg (by decide), State.rd_count, if_neg (by decide)]
  rw [State.frameOver, State.irqEth, State.irqAt_rd _ _ _ _ _ _ hp, hirq, State.rd_setBit, hstat, State.rd_count]

theorem State.frameOver_keeps {k : Nat} {q s : State} (hk : k &&& 256 = 256) (h : Keeps k q s) : Keeps k q s.frameOver :=
  State.irqEth_keeps (keeps_sub hk rfl) (State.setBit_keeps (keeps_sub hk rfl) (State.count_keeps (keeps_sub hk rfl) h))

theorem exec_ethFrame {s : State} (hs : s.supplied) (port : Fin 3) (good : Bool) :
    exec (.ethFrame port good) s = .next (s.clearSent.ethFrame port.val good) :=
  show execEthFrame port good s = _ from State.act_supplied hs

theorem listGet_set_self {l : List Nat} {i v : Nat} (h : i < l.length) : listGet (l.set i v) i = v := by
  simp [listGet, h]

theorem ethFrame_limited (port : Fin 3) (s : State) (hs : s.supplied) (hup : s.portUp port.val = true) : ∃ t, exec (.ethFrame port true) s = .next t
    ∧ (listGet s.eth.frames port.val < frameLimit port.val → t.regs = s.regs
        ∧ (port.val < s.eth.frames.length → listGet t.eth.frames port.val = listGet s.eth.frames port.val + 1) ∧ s.keepsParts t [.sent, .eth])
    ∧ (frameLimit port.val ≤ listGet s.eth.frames port.val → t.eth = s.eth ∧ t.bit Reg.ETH_STAT 0 = true ∧ t.bit Reg.ETH_IRQ 2 = true
        ∧ (t.rd Reg.ETH_CNT_RXOVR).toNat = min 0xFFFFFFFF ((s.rd Reg.ETH_CNT_RXOVR).toNat + 1)
        ∧ s.keepsRegs t ([Reg.ETH_CNT_RXOVR, Reg.ETH_STAT, Reg.ETH_IRQ] ++ pinRegs) ∧ s.keepsParts t [.sent, .zid]) := by
  refine ⟨_, exec_ethFrame hs port true, fun h => ?_, fun h => ?_⟩
  · rw [State.ethFrame_good (s := s.clearSent) hup, State.ethAccept_within (s := s.clearSent) hup h]
    exact ⟨rfl, fun hl => listGet_set_self hl,
      (State.frameCounted_keeps (k := 524290) rfl (State.clearSent_keeps rfl (Keeps.refl s))).parts _ (fun p => by cases p <;> decide)⟩
  · rw [State.ethFrame_good (s := s.clearSent) hup, State.ethAccept_over (s := s.clearSent) hup h]
    have hk : Keeps 258 s s.clearSent.frameOver := State.frameOver_keeps rfl (State.clearSent_keeps rfl (Keeps.refl s))
    refine ⟨hk.eth_same rfl, ?_, ?_, ?_, fun b hb => ?_, hk.parts _ (fun p => by cases p <;> decide)⟩
    · rw [State.bit_eq, State.frameOver_rd _ (by decide), if_neg (by decide), if_pos rfl, bitOf_putBit_same _ _ _ (by decide)]
    · rw [State.bit_eq, State.frameOver_rd _ (by decide), if_pos rfl, bitOf_putBit_same _ _ _ (by decide)]
    · rw [State.frameOver_rd _ (by decide), if_neg (by decide), if_neg (by decide), if_pos rfl, satWordN_toNat, State.rd_clearSent]
    · simp only [List.mem_append, List.mem_cons, List.not_mem_nil, or_false, not_or] at hb
      obtain ⟨⟨h1, h2, h3⟩, hp⟩ := hb
      rw [State.frameOver_rd _ (by simpa using hp), if_neg h3, if_neg h2, if_neg h1, State.rd_clearSent]

theorem ethFrame_errors (port : Fin 3) (s : State) (hs : s.supplied) (hup : s.portUp port.val = true) : ∃ t, exec (.ethFrame port false) s = .next t
    ∧ s.keepsRegs t [Reg.ETH_PORT_p_CNT_RXERR port.val] ∧ s.keepsParts t [.sent]
    ∧ (t.rd (Reg.ETH_PORT_p_CNT_RXERR port.val)).toNat = min 0xFFFFFFFF ((s.rd (Reg.ETH_PORT_p_CNT_RXERR port.val)).toNat + 1) := by
  refine ⟨_, exec_ethFrame hs port false, ?_⟩
  rw [State.ethFrame_bad (s := s.clearSent) hup]
  refine ⟨fun b hb => ?_, (State.count_keeps (k := 2) rfl (State.clearSent_keeps rfl (Keeps.refl s))).parts _ (fun p => by cases p <;> decide), ?_⟩
  · rw [State.rd_count, if_neg (List.ne_of_not_mem_cons hb), State.rd_clearSent]
  · rw [State.rd_count, if_pos rfl, satWordN_toNat, State.rd_clearSent]

/-! ## A port that is not in service -/

/-- A frame on a port that is not in service is not taken. -/
theorem State.ethTake_down {s : State} {p : Nat} (h : s.portUp p = false) (f : State → State) : s.ethTake p f = s := by
  have hacc : s.ethAccept p = (s, false) := if_pos (by rw [h]; rfl)
  unfold State.ethTake
  rw [hacc]
  rfl

theorem exec_arpRefresh {s : State} (hs : s.supplied) (port : Fin 3) (ip : Word) :
    exec (.arpRefresh port ip) s = .next (s.clearSent.arpRefresh port.val ip) :=
  show execArpRefresh port ip s = _ from State.act_supplied hs

theorem exec_arpFrame {s : State} (hs : s.supplied) (port : Fin 3) (isReq : Bool) (sip tip : Word) (mac : BitVec 48) :
    exec (.arpFrame port isReq sip mac tip) s = .next (s.clearSent.arpFrame port.val isReq sip mac tip) :=
  show execArpFrame port isReq sip mac tip s = _ from State.act_supplied hs

theorem exec_icmpEcho {s : State} (hs : s.supplied) (port : Fin 3) (ip : Word) (b : List Byte) :
    exec (.icmpEcho port ip b) s = .next (s.clearSent.icmpEcho port.val ip b) :=
  show execIcmpEcho port ip b s = _ from State.act_supplied hs

theorem exec_hwpRequest_frame {s : State} (hs : s.supplied) (port : Fin 3) (ip : Word) (udp : BitVec 16) (b : List Byte) :
    exec (.hwpRequest b port ip udp) s = .next (s.clearSent.requestFrame b port.val ip udp.toNat) :=
  show execHwpRequest b port ip udp s = _ from State.act_supplied hs

section
variable {s : State} {p : Nat} (hup : s.portUp p = false)
include hup

theorem State.ethFrame_down (good : Bool) : s.ethFrame p good = s := if_pos (by rw [hup]; rfl)

theorem State.arpFrame_down (isReq : Bool) (sip tip : Word) (mac : BitVec 48) : s.arpFrame p isReq sip mac tip = s := State.ethTake_down hup _

theorem State.icmpEcho_down (ip : Word) (b : List Byte) : s.icmpEcho p ip b = s := State.ethTake_down hup _

theorem State.statusTelegram_down (ip : Word) (b : List Byte) : s.statusTelegram p ip b = s := State.ethTake_down hup _

theorem State.requestFrame_down (ip : Word) (udp : Nat) (b : List Byte) : s.requestFrame b p ip udp = s.clearSent :=
  State.ethTake_down (s := s.clearSent) hup _

theorem State.arpRefresh_down (ip : Word) : s.arpRefresh p ip = s := by
  unfold State.arpRefresh
  rw [hup]
  rfl

end

theorem portDown_idle (port : Fin 3) (good isReq : Bool) (ip sip tip : Word) (mac : BitVec 48) (b : List Byte) (s : State) (hs : s.supplied)
    (hup : s.portUp port.val = false) :
    ∀ c ∈ [(Instr.ethFrame port good), .arpFrame port isReq sip mac tip, .icmpEcho port ip b, .statusTelegram port ip b,
        .hwpRequest b port ip 0#16, .arpRefresh port ip], exec c s = .next s.clearSent := by
  have hdown : s.clearSent.portUp port.val = false := hup
  simp only [List.forall_mem_cons, List.not_mem_nil, false_imp_iff, implies_true, and_true]
  refine ⟨?_, ?_, ?_, ?_, ?_, ?_⟩
  · rw [exec_ethFrame hs, State.ethFrame_down hdown]
  · rw [exec_arpFrame hs, State.arpFrame_down hdown]
  · rw [exec_icmpEcho hs, State.icmpEcho_down hdown]
  · rw [exec_statusTelegram hs, State.statusTelegram_down hdown]
  · rw [exec_hwpRequest_frame hs, State.requestFrame_down hdown]
    rfl
  · rw [exec_arpRefresh hs, State.arpRefresh_down hdown]

/-! ## ARP (R335) -/

/-- The sending of a frame that charges nothing. -/
theorem State.send_uncharged (s : State) {f : Frame} (h : f.cost = (classNet, 0, 0)) : s.send f = s.withSent (s.sent ++ [f]) := by
  have hcharge (u : State) (c r : Nat) : u.charge c r 0 = u := by
    have hused : u.used.set (4 * c + r) (u.used.getD (4 * c + r) 0 + 0) = u.used := by
      by_cases hlt : 4 * c + r < u.used.length
      · rw [List.getD_eq_getElem _ _ hlt, Nat.add_zero, List.set_getElem_self]
      · exact List.set_eq_of_length_le (Nat.not_lt.mp hlt)
    unfold State.charge
    split
    · rfl
    · rw [hused]
  unfold State.send
  rw [h, hcharge, hcharge]
  rfl

/-- The sender of an ARP message is entered: a known one, or one that names this port. -/
def State.arpLearn (s : State) (p : Nat) (ip : Word) (mac : BitVec 48) (mine : Bool) : State :=
  if (s.arpFind p ip).isSome then s.arpUpdate p ip mac else if mine then s.arpInsert p ip mac else s

theorem State.arpLearn_frame (s : State) (p : Nat) (ip : Word) (mac : BitVec 48) (mine : Bool) : (s.arpLearn p ip mac mine).regs = s.regs
    ∧ (s.arpLearn p ip mac mine).sent = s.sent := by
  unfold State.arpLearn State.arpInsert
  split_ifs <;> exact ⟨rfl, rfl⟩

theorem State.arpLearn_keeps {k : Nat} {q s : State} (hk : k &&& 524288 = 524288) (h : Keeps k q s) (p : Nat) (ip : Word) (mac : BitVec 48)
    (mine : Bool) : Keeps k q (s.arpLearn p ip mac mine) := by
  unfold State.arpLearn
  split
  · exact State.arpUpdate_keeps hk h
  · split
    · exact State.arpInsert_keeps hk h
    · exact h

section
variable {s : State} {p : Nat} {ip : Word}

/-- The entry of an address on a port. -/
def arpKey (p : Nat) (ip : Word) (e : ArpEntry) : Bool := e.port == p && e.ip == ip

theorem arpKey_iff {e : ArpEntry} : arpKey p ip e = true ↔ e.port = p ∧ e.ip = ip := by
  simp [arpKey]

theorem State.arpFind_eq (s : State) (p : Nat) (ip : Word) : s.arpFind p ip = s.eth.arp.find? (arpKey p ip) := rfl

/-- Replacing the entries of an address. -/
def arpReplace (p : Nat) (ip : Word) (mac : BitVec 48) (e : ArpEntry) : ArpEntry := if arpKey p ip e then ⟨p, ip, mac⟩ else e

theorem State.arpUpdate_arp (s : State) (p : Nat) (ip : Word) (mac : BitVec 48) :
    (s.arpUpdate p ip mac).eth.arp = s.eth.arp.map (arpReplace p ip mac) := rfl

theorem arpKey_arpReplace (q : Nat) (jp : Word) (mac : BitVec 48) (e : ArpEntry) : arpKey q jp (arpReplace p ip mac e) = arpKey q jp e := by
  unfold arpReplace
  split
  · next h =>
    obtain ⟨rfl, rfl⟩ := arpKey_iff.mp h
    rfl
  · rfl

theorem State.arpFind_arpUpdate (mac : BitVec 48) (q : Nat) (jp : Word) :
    (s.arpUpdate p ip mac).arpFind q jp = (s.arpFind q jp).map (arpReplace p ip mac) := by
  have hkey : arpKey q jp ∘ arpReplace p ip mac = arpKey q jp := funext fun e => arpKey_arpReplace q jp mac e
  rw [State.arpFind_eq, State.arpUpdate_arp, List.find?_map, hkey]
  rfl

theorem State.arpUpdate_same (mac : BitVec 48) (h : (s.arpFind p ip).isSome = true) : (s.arpUpdate p ip mac).arpFind p ip = some ⟨p, ip, mac⟩ := by
  obtain ⟨e, he⟩ := Option.isSome_iff_exists.mp h
  have hkey : arpKey p ip e = true := List.find?_some he
  rw [State.arpFind_arpUpdate, he, Option.map_some, arpReplace, if_pos hkey]

theorem State.arpUpdate_other (mac : BitVec 48) {q : Nat} {jp : Word} (h : q ≠ p ∨ jp ≠ ip) : (s.arpUpdate p ip mac).arpFind q jp = s.arpFind q jp := by
  rw [State.arpFind_arpUpdate]
  cases he : s.arpFind q jp with
  | none => rfl
  | some e =>
    obtain ⟨hq, hj⟩ := arpKey_iff.mp (List.find?_some he)
    rw [Option.map_some, arpReplace, if_neg]
    exact fun hk => h.elim (fun g => g (hq.symm.trans (arpKey_iff.mp hk).1)) (fun g => g (hj.symm.trans (arpKey_iff.mp hk).2))

/-- The table of a port has room. -/
def State.arpRoom (s : State) (p : Nat) : Prop := (s.eth.arp.filter (fun e => e.port == p)).length < arpLimit p

theorem State.arpInsert_same (mac : BitVec 48) (h : s.arpFind p ip = none) (hr : s.arpRoom p) : (s.arpInsert p ip mac).arpFind p ip = some ⟨p, ip, mac⟩ := by
  have hins : (s.arpInsert p ip mac).eth.arp = s.eth.arp ++ [⟨p, ip, mac⟩] := by
    rw [State.arpInsert]
    exact (congrArg (fun u : State => u.eth.arp) (if_pos hr))
  rw [State.arpFind_eq, hins, List.find?_append, ← State.arpFind_eq, h, Option.none_or]
  exact List.find?_cons_of_pos (arpKey_iff.mpr ⟨rfl, rfl⟩)

theorem State.arpInsert_other (mac : BitVec 48) {q : Nat} {jp : Word} (h : q ≠ p ∨ jp ≠ ip) : (s.arpInsert p ip mac).arpFind q jp = s.arpFind q jp := by
  unfold State.arpInsert
  split
  · have hnot : ¬ arpKey q jp ⟨p, ip, mac⟩ = true := fun hk =>
      h.elim (fun g => g (arpKey_iff.mp hk).1.symm) (fun g => g (arpKey_iff.mp hk).2.symm)
    rw [State.arpFind_eq]
    dsimp only
    rw [List.find?_append, List.find?_cons_of_neg hnot, List.find?_nil, Option.or_none]
    rfl
  · rfl

theorem State.arpLearn_other (mac : BitVec 48) (mine : Bool) {q : Nat} {jp : Word} (h : q ≠ p ∨ jp ≠ ip) :
    (s.arpLearn p ip mac mine).arpFind q jp = s.arpFind q jp := by
  unfold State.arpLearn
  split
  · exact State.arpUpdate_other mac h
  · split
    · exact State.arpInsert_other mac h
    · rfl

theorem State.arpLearn_entered (mac : BitVec 48) {mine : Bool} (h : (s.arpFind p ip).isSome = true ∨ (mine = true ∧ s.arpRoom p)) :
    (s.arpLearn p ip mac mine).arpFind p ip = some ⟨p, ip, mac⟩ := by
  unfold State.arpLearn
  by_cases hk : (s.arpFind p ip).isSome = true
  · rw [if_pos hk]
    exact State.arpUpdate_same mac hk
  · obtain ⟨hm, hr⟩ := h.resolve_left hk
    rw [if_neg hk, if_pos hm]
    exact State.arpInsert_same mac (Option.not_isSome_iff_eq_none.mp hk) hr

theorem State.arpLearn_unknown (mac : BitVec 48) {mine : Bool} (h : s.arpFind p ip = none) (hn : ¬ (mine = true ∧ s.arpRoom p)) :
    s.arpLearn p ip mac mine = s := by
  unfold State.arpLearn
  rw [if_neg (by rw [h]; exact Bool.false_ne_true)]
  split
  · next hm => exact if_neg fun hr => hn ⟨hm, hr⟩
  · rfl

end

/-- The answer to an ARP request for a port's address. -/
def State.arpReply (s : State) (p : Nat) (sip : Word) (mac : BitVec 48) : Frame :=
  ⟨.arpReply, p, mac.toNat, 0, arpBytes 2 (s.portMac p) (s.portIp p) mac.toNat sip⟩

theorem State.arpReply_congr {s t : State} (h : t.regs = s.regs) (p : Nat) (sip : Word) (mac : BitVec 48) :
    t.arpReply p sip mac = s.arpReply p sip mac := by
  have hrd (b : Nat) : t.rd b = s.rd b := State.rd_congr h b
  rw [State.arpReply, State.arpReply, State.portMac, State.portMac, State.portIp, State.portIp, State.fld_eq, State.fld_eq, State.nat, State.nat,
    hrd, hrd, hrd]

/-- An ARP message that a port has taken. -/
def State.arpHeard (s : State) (p : Nat) (isReq : Bool) (sip : Word) (mac : BitVec 48) (tip : Word) : State :=
  let t := s.arpLearn p sip mac (tip == s.portIp p)
  t.onlyIf (tip == s.portIp p && isReq) (fun t => t.withSent (t.sent ++ [s.arpReply p sip mac]))

theorem State.arpFrame_taken {s : State} {p : Nat} (h : (s.ethAccept p).2 = true) (isReq : Bool) (sip tip : Word) (mac : BitVec 48) :
    s.arpFrame p isReq sip mac tip = (s.frameCounted p).arpHeard p isReq sip mac tip := by
  have hlearn (u : State) (mine : Bool) : (u.onlyIf (u.arpFind p sip).isSome (fun s => s.arpUpdate p sip mac)).onlyIf
      (mine && !(u.arpFind p sip).isSome) (fun s => s.arpInsert p sip mac) = u.arpLearn p sip mac mine := by
    unfold State.arpLearn
    cases (u.arpFind p sip).isSome <;> cases mine <;> rfl
  unfold State.arpFrame
  rw [State.ethTake_taken _ h]
  dsimp only
  rw [hlearn, State.arpHeard]
  cases tip == (s.frameCounted p).portIp p && isReq with
  | false => rw [State.onlyIf_false, State.onlyIf_false]
  | true =>
    rw [State.onlyIf_true, State.onlyIf_true]
    refine (State.send_uncharged (f := State.arpReply _ p sip mac) _ rfl).trans ?_
    rw [State.arpReply_congr ((s.frameCounted p).arpLearn_frame p sip mac _).1]

theorem State.arpHeard_frame (s : State) (p : Nat) (isReq : Bool) (sip tip : Word) (mac : BitVec 48) :
    (s.arpHeard p isReq sip mac tip).regs = s.regs
      ∧ (s.arpHeard p isReq sip mac tip).eth = (s.arpLearn p sip mac (tip == s.portIp p)).eth
      ∧ (s.arpHeard p isReq sip mac tip).sent = s.sent ++ (if tip = s.portIp p ∧ isReq = true then [s.arpReply p sip mac] else []) := by
  obtain ⟨hregs, hsent⟩ := s.arpLearn_frame p sip mac (tip == s.portIp p)
  unfold State.arpHeard
  dsimp only
  by_cases h : tip = s.portIp p ∧ isReq = true
  · rw [if_pos h, show (tip == s.portIp p && isReq) = true by rw [Bool.and_eq_true, beq_iff_eq]; exact h, State.onlyIf_true, ← hsent]
    exact ⟨hregs, rfl, rfl⟩
  · have hno : (tip == s.portIp p && isReq) = false := Bool.eq_false_iff.mpr fun g => h (by rw [Bool.and_eq_true, beq_iff_eq] at g; exact g)
    rw [if_neg h, hno, List.append_nil, ← hsent]
    exact ⟨hregs, rfl, rfl⟩

theorem State.arpHeard_keeps {k : Nat} {q s : State} (hk : k &&& 524290 = 524290) (h : Keeps k q s) (p : Nat) (isReq : Bool) (sip tip : Word)
    (mac : BitVec 48) : Keeps k q (s.arpHeard p isReq sip mac tip) :=
  Keeps.only (fun _ g => Keeps.set_sent (keeps_sub hk rfl) g) (State.arpLearn_keeps (keeps_sub hk rfl) h p sip mac _)

theorem arpFrame_learns (port : Fin 3) (isReq : Bool) (sip tip : Word) (mac : BitVec 48) (s : State) (hs : s.supplied)
    (ha : (s.clearSent.ethAccept port.val).2 = true) : ∃ t, exec (.arpFrame port isReq sip mac tip) s = .next t ∧ t.regs = s.regs
    ∧ ((((s.arpFind port.val sip).isSome = true ∨ (tip = s.portIp port.val ∧ s.arpRoom port.val)) → t.arpFind port.val sip = some ⟨port.val, sip, mac⟩)
      ∧ ((s.arpFind port.val sip = none ∧ ¬ (tip = s.portIp port.val ∧ s.arpRoom port.val)) → t.eth.arp = s.eth.arp)
      ∧ t.sent = (if tip = s.portIp port.val ∧ isReq = true then [s.arpReply port.val sip mac] else []))
    ∧ (∀ p ip, (p ≠ port.val ∨ ip ≠ sip) → t.arpFind p ip = s.arpFind p ip) ∧ s.keepsParts t [.sent, .eth] := by
  have hcall := (exec_arpFrame hs port isReq sip tip mac).trans (congrArg Host.Outcome.next (State.arpFrame_taken ha isReq sip tip mac))
  have hk : Keeps 524290 s ((s.clearSent.frameCounted port.val).arpHeard port.val isReq sip mac tip) :=
    State.arpHeard_keeps rfl (State.frameCounted_keeps rfl (State.clearSent_keeps rfl (Keeps.refl s))) _ _ _ _ _
  obtain ⟨hregs, heth, hsent⟩ := (s.clearSent.frameCounted port.val).arpHeard_frame port.val isReq sip tip mac
  have hmine : (tip == (s.clearSent.frameCounted port.val).portIp port.val) = true ↔ tip = s.portIp port.val := beq_iff_eq
  have hfind (p : Nat) (ip : Word) : ((s.clearSent.frameCounted port.val).arpHeard port.val isReq sip mac tip).arpFind p ip
      = ((s.clearSent.frameCounted port.val).arpLearn port.val sip mac (tip == (s.clearSent.frameCounted port.val).portIp port.val)).arpFind p ip := by
    rw [State.arpFind, heth, State.arpFind]
  refine ⟨_, hcall, hregs, ⟨fun h => ?_, fun h => ?_, hsent⟩, fun p ip h => ?_, hk.parts _ (fun p => by cases p <;> decide)⟩
  · rw [hfind]
    exact State.arpLearn_entered mac (h.imp id fun g => ⟨hmine.mpr g.1, g.2⟩)
  · rw [heth, State.arpLearn_unknown (s := s.clearSent.frameCounted port.val) mac h.1 fun g => h.2 ⟨hmine.mp g.1, g.2⟩]
    rfl
  · rw [hfind]
    exact State.arpLearn_other (s := s.clearSent.frameCounted port.val) mac _ h

theorem State.arpAsk_eq (s : State) (p : Nat) (ip : Word) : s.arpAsk p ip
    = s.withSent (s.sent ++ [⟨.arpRequest, p, 0xFFFFFFFFFFFF, 0, arpBytes 1 (s.portMac p) (s.portIp p) 0 ip⟩]) := State.send_uncharged s rfl

theorem arpRefresh_asks (port : Fin 3) (ip : Word) (s : State) (hs : s.supplied) : ∃ t, exec (.arpRefresh port ip) s = .next t
    ∧ t.sent = (if s.portUp port.val = true ∧ (s.arpFind port.val ip).isSome = true then
        [⟨.arpRequest, port.val, 0xFFFFFFFFFFFF, 0, arpBytes 1 (s.portMac port.val) (s.portIp port.val) 0 ip⟩] else [])
    ∧ t.regs = s.regs ∧ s.keepsParts t [.sent] := by
  refine ⟨_, exec_arpRefresh hs port ip, ?_⟩
  have hk : Keeps 2 s s.clearSent := State.clearSent_keeps rfl (Keeps.refl s)
  unfold State.arpRefresh
  simp only [State.arpAsk_eq]
  by_cases h : s.portUp port.val = true ∧ (s.arpFind port.val ip).isSome = true
  · rw [if_pos h, show (s.clearSent.portUp port.val && (s.clearSent.arpFind port.val ip).isSome) = true from Bool.and_eq_true_iff.mpr h]
    exact ⟨rfl, rfl, (Keeps.set_sent (k := 2) rfl hk).parts _ (fun p => by cases p <;> decide)⟩
  · rw [if_neg h, show (s.clearSent.portUp port.val && (s.clearSent.arpFind port.val ip).isSome) = false from
      Bool.eq_false_iff.mpr fun g => h (Bool.and_eq_true_iff.mp g)]
    exact ⟨rfl, rfl, hk.parts _ (fun p => by cases p <;> decide)⟩

/-! ## Echo -/

theorem icmpEcho_answers (port : Fin 3) (ip : Word) (b : List Byte) (s : State) (hs : s.supplied) (ha : (s.clearSent.ethAccept port.val).2 = true) :
    ∃ t, exec (.icmpEcho port ip b) s = .next t ∧ t.sent = [⟨.echoReply, port.val, ip.toNat, 0, b⟩] ∧ t.regs = s.regs
      ∧ s.keepsParts t [.sent, .eth] := by
  have hecho : s.clearSent.icmpEcho port.val ip b
      = (s.clearSent.frameCounted port.val).withSent [⟨.echoReply, port.val, ip.toNat, 0, b⟩] :=
    (State.ethTake_taken _ ha).trans (State.send_uncharged _ rfl)
  refine ⟨_, (exec_icmpEcho hs port ip b).trans (congrArg _ hecho), rfl, rfl, ?_⟩
  exact (Keeps.set_sent (k := 524290) rfl (State.frameCounted_keeps rfl (State.clearSent_keeps rfl (Keeps.refl s)))).parts _
    (fun p => by cases p <;> decide)

/-! ## Links -/

/-- The level and speed of a link. -/
def linkWord (p : Nat) (up gig : Bool) : Word := BitVec.ofNat 32 (up.toNat + (if up then (if gig && p != 2 then 2 else 1) else 0) * 2)

theorem linkWord_eq (p : Nat) (up gig : Bool) : linkWord p up gig = if !up then 0#32 else if gig && p != 2 then 5#32 else 3#32 := by
  unfold linkWord
  cases up <;> cases gig && p != 2 <;> rfl

/-- An enabled port's link is lost. -/
def State.linkLost (s : State) (p : Nat) (up : Bool) : Bool := s.bit (Reg.ETH_PORT_p_LINK p) 0 && !up && s.bit (Reg.ETH_PORT_p_CFG p) 0

theorem State.linkChange_eq (s : State) (p : Nat) (up gig : Bool) : s.linkChange p up gig
    = ((s.wr (Reg.ETH_PORT_p_LINK p) (linkWord p up gig)).onlyIf (s.rd (Reg.ETH_PORT_p_LINK p) != linkWord p up gig) (fun s => s.irqEth 1)).onlyIf
        (s.linkLost p up) (fun s => s.setBit Reg.ETH_STAT 4 true) := rfl

theorem State.linkChange_rd (s : State) (p : Fin 3) (up gig : Bool) {b : Nat} (hp : b ∉ pinRegs) : (s.linkChange p.val up gig).rd b
    = if s.linkLost p.val up && b == Reg.ETH_STAT then putBit (s.rd Reg.ETH_STAT) 4 true
      else if s.rd (Reg.ETH_PORT_p_LINK p.val) != linkWord p.val up gig && b == Reg.ETH_IRQ then putBit (s.rd Reg.ETH_IRQ) 1 true
      else if b = Reg.ETH_PORT_p_LINK p.val then linkWord p.val up gig else s.rd b := by
  have hapart : Reg.ETH_STAT ≠ Reg.ETH_PORT_p_LINK p.val ∧ Reg.ETH_IRQ ≠ Reg.ETH_PORT_p_LINK p.val ∧ Reg.ETH_STAT ≠ Reg.ETH_IRQ := by
    revert p
    decide
  obtain ⟨hstat, hirq, hne⟩ := hapart
  have hmid {a : Nat} (ha : a ∉ pinRegs) : ((s.wr (Reg.ETH_PORT_p_LINK p.val) (linkWord p.val up gig)).onlyIf
      (s.rd (Reg.ETH_PORT_p_LINK p.val) != linkWord p.val up gig) (fun s => s.irqEth 1)).rd a
      = if s.rd (Reg.ETH_PORT_p_LINK p.val) != linkWord p.val up gig && a == Reg.ETH_IRQ then putBit (s.rd Reg.ETH_IRQ) 1 true
        else if a = Reg.ETH_PORT_p_LINK p.val then linkWord p.val up gig else s.rd a := by
    rw [State.rd_onlyIf, State.irqEth, State.irqAt_rd _ _ _ _ _ _ ha, State.rd_wr, State.rd_wr, if_neg hirq]
    cases s.rd (Reg.ETH_PORT_p_LINK p.val) != linkWord p.val up gig with
    | false => rfl
    | true => simp only [if_true, Bool.true_and, beq_iff_eq]
  rw [State.linkChange_eq, State.rd_onlyIf, State.rd_setBit, hmid (by decide), hmid hp, if_neg hstat, beq_eq_false_iff_ne.mpr hne, Bool.and_false,
    if_neg Bool.false_ne_true]
  cases s.linkLost p.val up with
  | false => rfl
  | true => simp only [if_true, Bool.true_and, beq_iff_eq]

theorem exec_linkChange {s : State} (hs : s.supplied) (port : Fin 3) (up gig : Bool) :
    exec (.linkChange port up gig) s = .next (s.clearSent.linkChange port.val up gig) :=
  show execLinkChange port up gig s = _ from State.act_supplied hs

theorem linkReg_apart (p : Fin 3) : Reg.ETH_PORT_p_LINK p.val ∉ pinRegs ∧ (Reg.ETH_PORT_p_LINK p.val == Reg.ETH_STAT) = false
    ∧ (Reg.ETH_PORT_p_LINK p.val == Reg.ETH_IRQ) = false ∧ Reg.ETH_STAT ≠ Reg.ETH_PORT_p_LINK p.val := by
  revert p
  decide

theorem linkChange_takes (port : Fin 3) (up gig : Bool) (s : State) (hs : s.supplied) : ∃ t, exec (.linkChange port up gig) s = .next t
    ∧ t.rd (Reg.ETH_PORT_p_LINK port.val) = (if !up then 0#32 else if gig && port.val != 2 then 5#32 else 3#32)
    ∧ t.bit Reg.ETH_STAT 4 = (s.bit Reg.ETH_STAT 4 || (s.bit (Reg.ETH_PORT_p_LINK port.val) 0 && !up && s.bit (Reg.ETH_PORT_p_CFG port.val) 0))
    ∧ (t.rd (Reg.ETH_PORT_p_LINK port.val) ≠ s.rd (Reg.ETH_PORT_p_LINK port.val) → t.bit Reg.ETH_IRQ 1 = true)
    ∧ s.keepsRegs t ([Reg.ETH_PORT_p_LINK port.val, Reg.ETH_IRQ, Reg.ETH_STAT] ++ pinRegs) ∧ s.keepsParts t [.sent, .zid] := by
  obtain ⟨hpin, hstat, hirq, hne⟩ := linkReg_apart port
  have hlink : (s.clearSent.linkChange port.val up gig).rd (Reg.ETH_PORT_p_LINK port.val) = linkWord port.val up gig := by
    rw [State.linkChange_rd _ _ _ _ hpin, hstat, hirq, Bool.and_false, Bool.and_false, if_neg Bool.false_ne_true, if_neg Bool.false_ne_true, if_pos rfl]
  refine ⟨_, exec_linkChange hs port up gig, hlink.trans (linkWord_eq _ _ _), ?_, fun h => ?_, fun b hb => ?_,
    (State.linkChange_keeps (k := 258) rfl (State.clearSent_keeps rfl (Keeps.refl s))).parts _ (fun p => by cases p <;> decide)⟩
  · rw [State.bit_eq, State.linkChange_rd _ _ _ _ (by decide), show (Reg.ETH_STAT == Reg.ETH_STAT) = true from rfl, Bool.and_true,
      show (Reg.ETH_STAT == Reg.ETH_IRQ) = false from rfl, Bool.and_false, if_neg Bool.false_ne_true, if_neg hne, State.rd_clearSent]
    exact bitOf_flagged _ (by decide) _
  · rw [hlink] at h
    have hch : (s.clearSent.rd (Reg.ETH_PORT_p_LINK port.val) != linkWord port.val up gig) = true := bne_iff_ne.mpr (Ne.symm h)
    rw [State.bit_eq, State.linkChange_rd _ _ _ _ (by decide), show (Reg.ETH_IRQ == Reg.ETH_STAT) = false from rfl, Bool.and_false,
      if_neg Bool.false_ne_true, hch, show (Reg.ETH_IRQ == Reg.ETH_IRQ) = true from rfl, Bool.and_true, if_pos rfl, bitOf_putBit_same _ _ _ (by decide)]
  · simp only [List.mem_append, List.mem_cons, List.not_mem_nil, or_false, not_or] at hb
    obtain ⟨⟨h1, h2, h3⟩, hp⟩ := hb
    rw [State.linkChange_rd _ _ _ _ (by simpa using hp), beq_eq_false_iff_ne.mpr h3, beq_eq_false_iff_ne.mpr h2, Bool.and_false, Bool.and_false,
      if_neg Bool.false_ne_true, if_neg Bool.false_ne_true, if_neg h1, State.rd_clearSent]

/-- Settles O23. -/
theorem ethernetPorts : Obligations.EthernetPorts := by
  unfold Obligations.EthernetPorts
  refine ⟨fun port s hs hup => ⟨ethFrame_limited port s hs hup, ethFrame_errors port s hs hup⟩,
    fun port good isReq ip sip tip mac b s hs hup c hc => ?_, arpFrame_learns, arpRefresh_asks, icmpEcho_answers, linkChange_takes⟩
  exact ⟨_, portDown_idle port good isReq ip sip tip mac b s hs hup c hc, rfl, rfl,
    (State.clearSent_keeps (k := 2) rfl (Keeps.refl s)).parts _ (fun p => by cases p <;> decide)⟩

end Sys2Proof.Machine

/-!
What the operations of the store, the metering and the program leave of the registers that show a member's state.
-/

namespace Sys2Proof.Machine

/-- The registers of the PAIR block that show a change of a member's state. -/
def pairShown : List Nat := [Reg.PAIR_STATE, Reg.PAIR_STAT, Reg.PAIR_IRQ, Reg.PAIR_CNT_TOOK]

section
variable {b : Nat} (hb : b ∈ pairShown)
include hb

theorem pairShown_ne {r : Nat} (hr : r ∉ pairShown) : b ≠ r := fun e => hr (e ▸ hb)

theorem pairShown_spoor : b ∉ spoorRegs := by
  revert b
  decide

/-- They are no status register of a loop or a feeder, and no count of a thermal channel. -/
theorem pairShown_rows (n : Nat) : b ≠ Reg.LOOP_n_STAT n ∧ b ≠ Reg.MTR_F_f_STAT n ∧ b ≠ Reg.MTR_T_t_ERRLAPS n := by
  have hmod : b % 64 ∈ [0, 16, 32] := by
    revert b
    decide
  simp only [List.mem_cons, List.not_mem_nil, or_false] at hmod
  refine ⟨?_, ?_, ?_⟩
  · change b ≠ 0x3101C + 0x40 * n
    omega
  · change b ≠ 0x49014 + 0x400 * n
    omega
  · change b ≠ 0x4E038 + 0x40 * n
    omega

/-! ## The store -/

theorem State.nvCell_shown (s : State) (k : Nat) (rb : ReadBack) : (s.nvCell k rb).1.rd b = s.rd b := by
  have hinj (u : State) : (u.injRan Reg.NVS_INJ 1).rd b = u.rd b :=
    u.injRan_rd _ _ b (pairShown_ne hb (by decide)) (pairShown_ne hb (by decide))
  have hfail (u : State) : (((u.setBit Reg.NVS_STAT 1 true).count Reg.NVS_CNT_VERIFY).irqNvs 1).rd b = u.rd b := by
    rw [State.irqNvs, State.irqAt_rd _ _ _ _ _ _ (not_pin_of_spoor (pairShown_spoor hb)), if_neg (pairShown_ne hb (by decide)), State.rd_count,
      if_neg (pairShown_ne hb (by decide)), State.rd_setBit, if_neg (pairShown_ne hb (by decide))]
  unfold State.nvCell
  dsimp only
  split_ifs
  all_goals simp only [hfail, State.charge_rd, hinj]

theorem State.foldTally_shown (s : State) (k : Nat) (rb : ReadBack) : (s.foldTally k rb).rd b = s.rd b := s.nvCell_shown hb k rb

theorem State.writeTallyCell_shown (s : State) (k : Nat) (n : Word) (rb fold : ReadBack) : (s.writeTallyCell k n rb fold).1.rd b = s.rd b := by
  have hcell := s.nvCell_shown hb k rb
  unfold State.writeTallyCell
  dsimp only
  by_cases h : (s.nvCell k rb).2.1 = true
  · rw [if_pos h]
    dsimp only
    rw [State.rd_onlyIf, State.foldTally_shown hb, ite_self]
    exact hcell
  · rw [if_neg h]
    exact hcell

theorem State.tallyRaiseTo_shown (s : State) (n : Nat) : (s.tallyRaiseTo n).rd b = s.rd b := by
  unfold State.tallyRaiseTo
  split
  · exact State.writeTallyCell_shown hb _ _ _ _ _
  · rfl

theorem State.mtrPut_shown (s : State) (energy therm errs : List Nat) : (s.mtrPut energy therm errs).rd b = s.rd b :=
  State.rd_forEach _ _ b (fun u k => by rw [State.rd_wr, if_neg (pairShown_rows hb k).2.2]) _

theorem State.mtrFromWarm_shown (s : State) : s.mtrFromWarm.rd b = s.rd b := s.mtrPut_shown hb _ _ _

omit hb in
theorem State.putUserByte_rd (s : State) (x : Nat) (v : Byte) (b : Nat) : (s.putUserByte x v).rd b = s.rd b := by
  unfold State.putUserByte State.putUserUnit
  lift_lets
  extract_lets
  split_ifs <;> rfl

theorem State.nvTake_shown (s : State) (warm user : List (Nat × Byte)) (n : Nat) : (s.nvTake warm user n).rd b = s.rd b := by
  unfold State.nvTake
  dsimp only
  rw [State.mtrFromWarm_shown hb, State.tallyRaiseTo_shown hb,
    State.rd_forEach _ (fun (t : State) (e : Nat × Byte) => t.putUserByte e.1 e.2) b (fun u e => u.putUserByte_rd e.1 e.2 b),
    State.rd_forEach _ (fun (t : State) (e : Nat × Byte) => t.sramPut e.1 [e.2]) b (fun u e => u.rd_sramPut e.1 [e.2] b)]

/-! ## The program and the loops -/

theorem State.fbpSet_shown (s : State) (state cause phase : Nat) : (s.fbpSet state cause phase).rd b = s.rd b := by
  rw [State.fbpSet, State.rd_wr, if_neg (pairShown_ne hb (by decide))]

theorem State.fbpRun_shown (s : State) : s.fbpRun.rd b = s.rd b := by
  unfold State.fbpRun
  rw [State.fbpSet_shown hb]
  rfl

theorem State.fbpStart_shown (s : State) (passed : Bool) : (s.fbpStart passed).rd b = s.rd b := by
  unfold State.fbpStart
  dsimp only
  split_ifs
  · exact State.fbpSet_shown hb _ _ _ _
  · rw [State.fbpRun_shown hb]
    rfl
  · rfl
  · rw [State.fbpSet_shown hb]
    rfl

omit hb in
theorem State.loadFbprog_regs (s : State) (keep : List Byte) : (s.loadFbprog keep).regs = (((s.wr Reg.FBP_NINST (BitVec.ofNat 32 (s.fbprog 2 2))).wr
    Reg.FBP_DATASIZE (BitVec.ofNat 32 (s.fbprog 4 4))).wr Reg.FBP_WCET (BitVec.ofNat 32 (s.fbprog 0x0C 4))).regs := rfl

theorem State.loadFbprog_shown (s : State) (keep : List Byte) : (s.loadFbprog keep).rd b = s.rd b := by
  rw [State.rd_congr (s.loadFbprog_regs keep), State.rd_wr, if_neg (pairShown_ne hb (by decide)), State.rd_wr, if_neg (pairShown_ne hb (by decide)), State.rd_wr,
    if_neg (pairShown_ne hb (by decide))]

theorem State.loopsStart_shown (s : State) : s.loopsStart.rd b = s.rd b :=
  State.rd_forEach _ _ b (fun u n => by rw [State.rd_setBit, if_neg (pairShown_rows hb n).1]; rfl) _

omit hb in
theorem State.takeUnit_rd (s : State) (u : MirrorUnit) (b : Nat) : (s.takeUnit u).rd b = s.rd b := by
  refine State.rd_congr ?_ b
  unfold State.takeUnit
  dsimp only
  refine State.forEach_kept State.regs _ _ ?_ s
  exact fun _ _ => rfl

theorem State.takeWarm_shown (s : State) : s.takeWarm.rd b = s.rd b := by
  unfold State.takeWarm
  split
  · rfl
  · next u _ =>
    refine Eq.trans (b := (if u.progRuns then (s.takeUnit u).fbpRun else s.takeUnit u).rd b) (State.rd_congr rfl b) ?_
    split
    · rw [State.fbpRun_shown hb, State.takeUnit_rd]
    · exact s.takeUnit_rd u b

/-! ## Metering -/

theorem State.mtrRestored_shown (s : State) (src lost : Nat) : (s.mtrRestored src lost).rd b = s.rd b := by
  rw [State.mtrRestored, State.rd_wr, if_neg (pairShown_ne hb (by decide))]

theorem State.mtrRestore_shown (s : State) : s.mtrRestore.rd b = s.rd b := by
  have hold (u : State) (src lost code sev : Nat) (data : List Byte) :
      (((u.mtrRestored src lost).setBit Reg.MTR_STAT 5 true).raiseEv code sev data).rd b = u.rd b := by
    rw [State.raiseEv_rd _ _ _ _ _ (pairShown_spoor hb), State.rd_setBit, if_neg (pairShown_ne hb (by decide)), State.mtrRestored_shown hb]
  unfold State.mtrRestore
  dsimp only
  split
  · rw [State.mtrRestored_shown hb, State.mtrPut_shown hb]
    rfl
  · split
    · rw [hold, State.mtrPut_shown hb]
      rfl
    · rw [hold, State.mtrPut_shown hb]
      rfl

theorem State.addEnergy_shown (s : State) (f k amount : Nat) : (s.addEnergy f k amount).rd b = s.rd b := by
  have hwrap (u : State) : (u.mtrWrap (Reg.MTR_F_f_STAT f) f k).rd b = u.rd b := by
    rw [State.mtrWrap, State.raiseEv_rd _ _ _ _ _ (pairShown_spoor hb), State.irqMtr,
      State.irqAt_rd _ _ _ _ _ _ (not_pin_of_spoor (pairShown_spoor hb)), if_neg (pairShown_ne hb (by decide)), State.rd_count,
      if_neg (pairShown_ne hb (by decide)), State.rd_setBit, if_neg (pairShown_ne hb (by decide)), State.rd_setBit,
      if_neg (pairShown_rows hb f).2.1]
  unfold State.addEnergy
  dsimp only
  rw [State.rd_onlyIf, hwrap]
  split <;> rfl

/-! ## Entering the active role -/

theorem State.takeUnmeas_shown (s : State) : s.takeUnmeas.rd b = s.rd b := by
  unfold State.takeUnmeas
  split
  · rfl
  · dsimp only
    rw [State.raiseEv_rd _ _ _ _ _ (pairShown_spoor hb)]
    exact State.rd_forEach _ _ b (fun u f => State.rd_forEach _ _ b (fun v p => v.addEnergy_shown hb f 24 _) u) s

theorem State.takeCold_shown (s : State) : s.takeCold.rd b = s.rd b := by
  unfold State.takeCold
  dsimp only
  refine Eq.trans (b := _) (State.fbpStart_shown hb _ _) ?_
  rw [State.loadFbprog_shown hb, State.loopsStart_shown hb, State.rd_onlyIf, State.mtrRestore_shown hb, ite_self, State.rd_onlyIf,
    State.rd_setBit, if_neg (pairShown_ne hb (by decide)), State.rd_setBit, if_neg (pairShown_ne hb (by decide)), ite_self]

theorem State.takeEpoch_shown (s : State) : s.takeEpoch.rd b = s.rd b := s.tallyRaiseTo_shown hb _

end

end Sys2Proof.Machine

/-!
Entering and leaving the active role (R393 to R395, R404), which settles O38.
-/

namespace Sys2Proof.Machine

/-! ## Entering -/

/-- What a discarded write set leaves of a register that it does not show. -/
theorem State.wsResult_other (s : State) {b : Nat} (hp : b ∉ pinRegs) (hd : b ∉ discardRegs) : (s.wsResult wsSwitchover).rd b = s.rd b := by
  cases h : s.sett.ws with
  | none => rw [State.wsResult_none h]
  | some w => rw [State.wsResult_rd h (by decide) hp, discardedRd_other hd]

theorem State.setSync_rd (s : State) {b : Nat} (hp : b ∉ pinRegs) (h1 : b ≠ Reg.PAIR_STATE) (h2 : b ≠ Reg.PAIR_IRQ) (v : Bool) :
    (s.setSync v).rd b = s.rd b := by
  unfold State.setSync
  split
  · rfl
  · rw [State.irqPair, State.irqAt_rd _ _ _ _ _ _ hp, if_neg h2, State.rd_setBit, if_neg h1]

theorem State.setSync_state (s : State) (v : Bool) : (s.setSync v).rd Reg.PAIR_STATE = putBit (s.rd Reg.PAIR_STATE) 4 v := by
  unfold State.setSync
  split
  · next h =>
    rw [← h]
    exact (putBit_self _).symm
  · rw [State.irqPair, State.irqAt_rd _ _ _ _ _ _ (by decide), if_neg (by decide), State.rd_setBit, if_pos rfl]

theorem State.setSync_pairState (s : State) (v : Bool) : (s.setSync v).pairState = s.pairState := by
  rw [State.pairState, State.fld_eq, State.setSync_state, putBit, bitsOf_putBits_apart _ _ _ _ _ _ (by decide) (by decide)]
  rfl

theorem State.setSync_sync (s : State) (v : Bool) : (s.setSync v).pairSync = v := by
  rw [State.pairSync, State.bit_eq, State.setSync_state]
  exact bitOf_putBit_same _ _ _ (by decide)

/-- The module has taken over what it continues with, and records what it does not know. -/
def State.takenOver (s : State) : State :=
  ((if s.pairSync then s.takeEpoch.takeWarm else s.takeEpoch.takeCold).joinAbandon.setFld Reg.PAIR_STATE 16 2 0).takeUnmeas

/-- The pair's own records start afresh. -/
def State.activeFresh (s : State) : State :=
  { s with pair := { s.pair with
      activeLaps := 0, recWarm := [], recUser := [], keepWarm := [], keepUser := [], yielded := false, handover := false } }

/-- The state that becomes ACTIVE. -/
def State.beforeActive (s : State) : State := (s.takenOver.activeFresh.wsResult wsSwitchover).setSync false

/-- The state of an ACTIVE module, its latch judged. -/
def State.activeLatched (s : State) : State := (s.pairTo 4).setLatch

theorem State.takeActive_takes {s : State} (hp : s.pfailed = false) (hm : s.mayTake = true)
    (h : s.pairState = 1 ∨ s.pairState = 2 ∨ s.pairState = 3) :
    s.takeActive = (s.beforeActive.activeLatched.setBit Reg.PAIR_STAT 0 true).count Reg.PAIR_CNT_TOOK := by
  have hst : (s.pairState == 1 || s.pairState == 2 || s.pairState == 3) = true := by simpa [or_assoc] using h
  exact if_neg (by rw [hp, hm, hst]; decide)

theorem State.takeActive_idle {s : State} (h : s.pfailed = true ∨ s.mayTake = false ∨ ¬ (s.pairState = 1 ∨ s.pairState = 2 ∨ s.pairState = 3)) :
    s.takeActive = s := by
  refine if_pos ?_
  rcases h with h | h | h
  · rw [h, Bool.true_or, Bool.true_or]
  · rw [h, Bool.not_false, Bool.or_true, Bool.true_or]
  · have hst : (s.pairState == 1 || s.pairState == 2 || s.pairState == 3) = false := Bool.eq_false_iff.mpr fun g => h (by simpa [or_assoc] using g)
    rw [hst, Bool.not_false, Bool.or_true]

/-- From the take-over of the epoch on, neither the pair's records nor the store nor the setts change. -/
theorem State.takenOver_keeps (s : State) : Keeps 378240 s.takeEpoch s.takenOver := by
  have hmid : Keeps 378240 s.takeEpoch (if s.pairSync then s.takeEpoch.takeWarm else s.takeEpoch.takeCold) := by
    split
    · exact State.takeWarm_keeps rfl (Keeps.refl _)
    · exact State.takeCold_keeps rfl (Keeps.refl _)
  exact State.takeUnmeas_keeps rfl (State.setFld_keeps rfl (State.joinAbandon_keeps rfl hmid))

theorem State.takeEpoch_pair (s : State) : s.takeEpoch.pair = s.pair ∧ s.takeEpoch.lap = s.lap := by
  have hk : Keeps 8388904 s s.takeEpoch := State.takeEpoch_keeps rfl (Keeps.refl s)
  exact ⟨hk.pair_same rfl, hk.lap_same rfl⟩

theorem State.beforeActive_keeps (s : State) : Keeps 386440 s.takeEpoch s.beforeActive :=
  State.setSync_keeps rfl (State.wsResult_keeps rfl (Keeps.set_pair rfl (s.takenOver_keeps.weaken rfl)))

theorem State.beforeActive_pair (s : State) : s.beforeActive.pair = { s.pair with
    activeLaps := 0, recWarm := [], recUser := [], keepWarm := [], keepUser := [], yielded := false, handover := false } := by
  have hk : Keeps 264 s.takenOver.activeFresh s.beforeActive := State.setSync_keeps rfl (State.wsResult_keeps rfl (Keeps.refl _))
  rw [hk.pair_same rfl]
  unfold State.activeFresh
  rw [s.takenOver_keeps.pair_same rfl, s.takeEpoch_pair.1]

theorem State.beforeActive_sett (s : State) : s.beforeActive.sett = { s.takeEpoch.sett with ws := none } := by
  have hk : Keeps 256 (s.takenOver.activeFresh.wsResult wsSwitchover) s.beforeActive := State.setSync_keeps rfl (Keeps.refl _)
  have hover : s.takenOver.activeFresh.sett = s.takeEpoch.sett := s.takenOver_keeps.sett_same rfl
  rw [hk.sett_same rfl, State.wsResult_sett, hover]

theorem State.beforeActive_tallyV (s : State) : s.beforeActive.tallyV 0 = s.takeEpoch.tallyV 0 :=
  congrArg Tally.v (State.tally_congr (congrArg NvState.tallies (s.beforeActive_keeps.nv_same rfl)) 0)

/-! ### What it shows -/

theorem State.joinAbandon_state (s : State) : (s.joinAbandon.setFld Reg.PAIR_STATE 16 2 0).pairState = s.pairState := by
  have habandon : s.joinAbandon.pairState = s.pairState := by
    unfold State.joinAbandon
    cases s.pairState == 2 with
    | false => rfl
    | true =>
      rw [State.onlyIf_true, State.pairState, State.fld_eq, State.rd_count, if_neg (by decide), State.rd_setBit, if_neg (by decide),
        State.rd_setFld, if_pos rfl, bitsOf_putBits_apart _ _ _ _ _ _ (by decide) (by decide)]
      rfl
  rw [State.pairState, State.fld_eq, State.rd_setFld, if_pos rfl, bitsOf_putBits_apart _ _ _ _ _ _ (by decide) (by decide), ← habandon]
  rfl

theorem State.joinAbandon_took (s : State) : (s.joinAbandon.setFld Reg.PAIR_STATE 16 2 0).rd Reg.PAIR_CNT_TOOK = s.rd Reg.PAIR_CNT_TOOK := by
  rw [State.rd_setFld, if_neg (by decide)]
  unfold State.joinAbandon
  rw [State.rd_onlyIf, State.rd_count, if_neg (by decide : Reg.PAIR_CNT_TOOK ≠ Reg.PAIR_CNT_JOINFAIL), State.rd_setBit,
    if_neg (by decide : Reg.PAIR_CNT_TOOK ≠ Reg.PAIR_STAT), State.rd_setFld, if_neg (by decide : Reg.PAIR_CNT_TOOK ≠ Reg.PAIR_STATE), ite_self]

theorem State.takeMid_shown (s : State) {b : Nat} (hb : b ∈ pairShown) :
    (if s.pairSync then s.takeEpoch.takeWarm else s.takeEpoch.takeCold).rd b = s.rd b := by
  split
  · rw [State.takeWarm_shown hb, State.takeEpoch_shown hb]
  · rw [State.takeCold_shown hb, State.takeEpoch_shown hb]

theorem State.takenOver_state (s : State) : s.takenOver.pairState = s.pairState := by
  have hmid : (if s.pairSync then s.takeEpoch.takeWarm else s.takeEpoch.takeCold).pairState = s.pairState :=
    congrArg (bitsOf · 0 3) (s.takeMid_shown (b := Reg.PAIR_STATE) (by decide))
  refine (congrArg (bitsOf · 0 3) (State.takeUnmeas_shown (b := Reg.PAIR_STATE) (by decide) _)).trans ?_
  exact (State.joinAbandon_state _).trans hmid

theorem State.takenOver_took (s : State) : s.takenOver.rd Reg.PAIR_CNT_TOOK = s.rd Reg.PAIR_CNT_TOOK := by
  unfold State.takenOver
  rw [State.takeUnmeas_shown (by decide), State.joinAbandon_took, State.takeMid_shown _ (by decide)]

theorem State.beforeActive_state (s : State) : s.beforeActive.pairState = s.pairState := by
  refine (State.setSync_pairState _ false).trans ((congrArg (bitsOf · 0 3) (State.wsResult_other _ (by decide) (by decide))).trans ?_)
  exact s.takenOver_state

theorem State.beforeActive_took (s : State) : s.beforeActive.rd Reg.PAIR_CNT_TOOK = s.rd Reg.PAIR_CNT_TOOK := by
  unfold State.beforeActive
  rw [State.setSync_rd _ (by decide) (by decide) (by decide), State.wsResult_other _ (by decide) (by decide)]
  exact s.takenOver_took

theorem State.setLatch_rd (s : State) (b : Nat) : s.setLatch.rd b = s.rd b := by
  unfold State.setLatch
  split <;> rfl

theorem State.setLatch_latch (s : State) : s.setLatch.pair.latch = (s.pair.latch || (!s.pair.intlkIn && s.pair.intlkAt + 2 ≤ s.now))
    ∧ s.setLatch.pair.handover = s.pair.handover ∧ s.setLatch.pair.yielded = s.pair.yielded := by
  unfold State.setLatch
  split
  · next h => exact ⟨by rw [h, Bool.or_true], rfl, rfl⟩
  · next h => exact ⟨by rw [Bool.eq_false_iff.mpr h, Bool.or_false], rfl, rfl⟩

/-- The last steps change no component but the latch. -/
theorem State.activeShown_keeps (s : State) :
    Keeps 256 (s.activeLatched) ((s.activeLatched.setBit Reg.PAIR_STAT 0 true).count Reg.PAIR_CNT_TOOK) :=
  State.count_keeps rfl (State.setBit_keeps rfl (Keeps.refl _))

theorem State.takeActive_pairState {s : State} (hn : s.pairState ≠ 4) :
    ((s.activeLatched.setBit Reg.PAIR_STAT 0 true).count Reg.PAIR_CNT_TOOK).rd Reg.PAIR_STATE = putBits (s.rd Reg.PAIR_STATE) 0 3 4
      ∧ ((s.activeLatched.setBit Reg.PAIR_STAT 0 true).count Reg.PAIR_CNT_TOOK).bit Reg.PAIR_STAT 0 = true
      ∧ ((s.activeLatched.setBit Reg.PAIR_STAT 0 true).count Reg.PAIR_CNT_TOOK).bit Reg.PAIR_IRQ 0 = true
      ∧ ((s.activeLatched.setBit Reg.PAIR_STAT 0 true).count Reg.PAIR_CNT_TOOK).rd Reg.PAIR_CNT_TOOK
          = satWordN ((s.rd Reg.PAIR_CNT_TOOK).toNat + 1) := by
  refine ⟨?_, ?_, ?_, ?_⟩
  · rw [State.rd_count, if_neg (by decide), State.rd_setBit, if_neg (by decide), State.activeLatched, State.setLatch_rd,
      State.pairTo_rd hn (by decide), if_neg (by decide), if_pos rfl]
  · rw [State.bit_eq, State.rd_count, if_neg (by decide), State.rd_setBit, if_pos rfl, bitOf_putBit_same _ _ _ (by decide)]
  · rw [State.bit_eq, State.rd_count, if_neg (by decide), State.rd_setBit, if_neg (by decide), State.activeLatched, State.setLatch_rd,
      State.pairTo_rd hn (by decide), if_pos rfl, bitOf_putBit_same _ _ _ (by decide)]
  · rw [State.rd_count, if_pos rfl, State.rd_setBit, if_neg (by decide), State.activeLatched, State.setLatch_rd,
      State.pairTo_rd hn (by decide), if_neg (by decide), if_neg (by decide)]

/-! ### The epoch -/

theorem State.takeEpoch_tallyV (s : State) {up : Nat} (h : s.pairState ≠ 2) (hup : up = (s.tallyV 0).toNat + 4) (hlt : up < 2 ^ 32) :
    (s.takeEpoch.tallyV 0).toNat = up := by
  have heq : s.takeEpoch.tallyV 0 = (s.tallyRaiseTo ((s.tallyV 0).toNat + 4)).tallyV 0 := by
    unfold State.takeEpoch
    dsimp only
    rw [if_neg h]
    exact congrArg Tally.v (State.tally_congr rfl 0)
  rw [heq, ← hup, State.tallyRaiseTo_tallyV _ hlt]
  omega

theorem State.takeEpoch_jump (s : State) : ∃ bound, s.takeEpoch.sett.jumpTo = some (max ((s.takeEpoch.tallyV 0).toNat * 2 ^ 20) bound) :=
  ⟨_, rfl⟩

theorem exec_takeActive {s : State} (hs : s.supplied) : exec .takeActive s = .next s.clearSent.takeActive :=
  show execTakeActive s = _ from State.act_supplied hs

theorem takeActive_enters (s : State) (hs : s.supplied) (hp : s.pfailed = false) (hm : s.mayTake = true)
    (h : s.pairState = 1 ∨ s.pairState = 2 ∨ s.pairState = 3) : ∃ t, exec .takeActive s = .next t ∧ t.pairState = 4 ∧ t.pairSync = false
    ∧ t.pair.latch = (s.pair.latch || (!s.pair.intlkIn && s.pair.intlkAt + 2 ≤ s.now))
    ∧ ((s.tallyV 0).toNat + 4 < 2 ^ 32 → (s.pairState = 1 ∨ s.pairState = 3) → (t.tallyV 0).toNat = (s.tallyV 0).toNat + 4)
    ∧ (∀ e, t.sett.jumpTo = some e → (t.tallyV 0).toNat * 2 ^ 20 ≤ e)
    ∧ t.bit Reg.PAIR_STAT 0 = true ∧ t.bit Reg.PAIR_IRQ 0 = true
    ∧ (t.rd Reg.PAIR_CNT_TOOK).toNat = min 0xFFFFFFFF ((s.rd Reg.PAIR_CNT_TOOK).toNat + 1)
    ∧ t.pair.handover = false ∧ t.pair.yielded = false := by
  have hn : s.clearSent.beforeActive.pairState ≠ 4 := by
    rw [State.beforeActive_state]
    change s.pairState ≠ 4
    omega
  obtain ⟨hstate, hstat, hirq, htook⟩ := State.takeActive_pairState hn
  have hshow := s.clearSent.beforeActive.activeShown_keeps
  have hto : Keeps 256 s.clearSent.beforeActive (s.clearSent.beforeActive.pairTo 4) := State.pairTo_keeps rfl (Keeps.refl _)
  have hpair : (s.clearSent.beforeActive.pairTo 4).pair = _ := (hto.pair_same rfl).trans s.clearSent.beforeActive_pair
  have hnow : (s.clearSent.beforeActive.pairTo 4).now = s.now := by
    have hlap : (s.clearSent.beforeActive.pairTo 4).lap = s.lap :=
      (hto.lap_same rfl).trans ((s.clearSent.beforeActive_keeps.lap_same rfl).trans s.clearSent.takeEpoch_pair.2)
    rw [State.now, hlap, State.now]
  obtain ⟨hlatch, hhand, hyield⟩ := State.setLatch_latch (s.clearSent.beforeActive.pairTo 4)
  rw [hpair] at hhand hyield
  rw [hpair, hnow] at hlatch
  have hlast : Keeps 8448 s.clearSent.beforeActive
      ((s.clearSent.beforeActive.activeLatched.setBit Reg.PAIR_STAT 0 true).count Reg.PAIR_CNT_TOOK) :=
    State.count_keeps rfl (State.setBit_keeps rfl (State.setLatch_keeps rfl (State.pairTo_keeps rfl (Keeps.refl _))))
  have htally : ((s.clearSent.beforeActive.activeLatched.setBit Reg.PAIR_STAT 0 true).count Reg.PAIR_CNT_TOOK).tallyV 0
      = s.clearSent.takeEpoch.tallyV 0 :=
    (congrArg Tally.v (State.tally_congr (congrArg NvState.tallies (hlast.nv_same rfl)) 0)).trans s.clearSent.beforeActive_tallyV
  refine ⟨_, (exec_takeActive hs).trans (congrArg _ (State.takeActive_takes (s := s.clearSent) hp hm h)), ?_, ?_, ?_, fun hlt hst => ?_,
    fun e he => ?_, hstat, hirq, ?_, ?_, ?_⟩
  · rw [State.pairState, State.fld_eq, hstate, bitsOf_putBits_same _ _ _ _ (by decide)]
    rfl
  · rw [State.pairSync, State.bit_eq, hstate, bitOf_putBits _ _ _ _ _ (by decide)]
    exact State.setSync_sync _ false
  · rw [hshow.pair_same rfl]
    exact hlatch
  · rw [htally]
    refine State.takeEpoch_tallyV s.clearSent ?_ rfl hlt
    change s.pairState ≠ 2
    omega
  · rw [hlast.sett_same rfl, State.beforeActive_sett] at he
    obtain ⟨bound, hb⟩ := s.clearSent.takeEpoch_jump
    rw [htally]
    rw [show s.clearSent.takeEpoch.sett.jumpTo = some e from he, Option.some.injEq] at hb
    rw [hb]
    exact le_max_left _ _
  · rw [htook, satWordN_toNat, State.beforeActive_took, State.rd_clearSent]
  · rw [hshow.pair_same rfl]
    exact hhand
  · rw [hshow.pair_same rfl]
    exact hyield

/-! ## Leaving -/

theorem State.rd_forEach_mem {α : Type} (l : List α) (f : State → α → State) (b : Nat) (hf : ∀ s, ∀ x ∈ l, (f s x).rd b = s.rd b) (s : State) :
    (s.forEach l f).rd b = s.rd b := by
  unfold State.forEach
  induction l generalizing s with
  | nil => rfl
  | cons x t ih => exact (ih (fun u y hy => hf u y (List.mem_cons_of_mem _ hy)) (f s x)).trans (hf s x List.mem_cons_self)

/-- The registers of the PAIR block that show the end of an active role. -/
def lostShown : List Nat := [Reg.PAIR_STATE, Reg.PAIR_STAT, Reg.PAIR_CNT_LOST]

section
variable {b : Nat} (hb : b ∈ lostShown)
include hb

theorem lostShown_ne {r : Nat} (hr : r ∉ lostShown) : b ≠ r := fun e => hr (e ▸ hb)

theorem lostShown_pin : b ∉ pinRegs := by
  revert b
  decide

theorem lostShown_rows : (∀ n ∈ List.range 18, b ≠ Reg.SLV_LANE_n_STAT n) ∧ ∀ ch ∈ List.range 4, b ≠ Reg.CAN_STAT ch := by
  revert b
  decide

theorem State.showLanes_lost (s : State) (burst : Nat) : (s.showLanes burst).rd b = s.rd b := by
  rw [State.showLanes, State.rd_setFld, if_neg (lostShown_ne hb (by decide))]
  exact State.rd_forEach_mem _ _ b (fun u n hn => by rw [State.rd_setFld, if_neg ((lostShown_rows hb).1 n hn)]) s

theorem State.canGate_lost (s : State) : s.canGate.rd b = s.rd b :=
  State.rd_forEach_mem _ _ b (fun u ch hch => by
    rw [State.rd_onlyIf, State.rd_setBit, if_neg ((lostShown_rows hb).2 ch hch), ite_self]) s

theorem State.solveStop_lost (s : State) (r : Stop) : (s.solveStop r).rd b = s.rd b := by
  have hdrop (u : State) : (u.dropFactor r).rd b = u.rd b := by
    unfold State.dropFactor
    split <;> rfl
  unfold State.solveStop
  split
  · rfl
  · split
    · rfl
    · dsimp only
      rw [State.irqSlv, State.irqAt_rd _ _ _ _ _ _ (lostShown_pin hb), if_neg (lostShown_ne hb (by decide)), State.showLanes_lost hb,
        State.batonCancel_rd, State.batonRelease_rd, hdrop, State.rd_setBit, if_neg (lostShown_ne hb (by decide)), State.rd_setFld,
        if_neg (lostShown_ne hb (by decide)), State.rd_wr, if_neg (lostShown_ne hb (by decide))]
      rfl

theorem State.cycleAbort_lost (s : State) : s.cycleAbort.rd b = s.rd b := by
  unfold State.cycleAbort
  split
  · dsimp only
    rw [State.rd_setBit, if_neg (lostShown_ne hb (by decide)), State.rd_count, if_neg (lostShown_ne hb (by decide))]
    exact State.solveStop_lost hb s .abort
  · rfl

end

/-- The records of a member that has left. -/
def PairState.left (p : PairState) (seq : Word) : PairState := { p with latch := false, handover := false, yielded := false, leftSeq := some seq }

/-- The solve and the write set end, and the pair's records say that the module has left. -/
def State.roleEnded (s : State) : State :=
  let s1 := s.cycleAbort.wsResult wsSwitchover
  { s1 with pair := s1.pair.left (s.rd Reg.PAIR_GRANTSEQ) }

/-- The module is in OUT, flagged and counted. -/
def State.roleLost (s : State) : State :=
  (((s.roleEnded.setBit Reg.PAIR_STATE 6 false).pairTo 1).setBit Reg.PAIR_STAT 1 true).count Reg.PAIR_CNT_LOST

theorem State.leaveActive_leaves {s : State} (hr : s.pair.role = 1) (h : s.pairState = 4) (hm : s.mustLeave = true) :
    s.leaveActive = s.gating State.roleLost := if_neg (by simp [hr, h, hm])

theorem State.leaveActive_idle {s : State} (h : s.pair.role ≠ 1 ∨ s.pairState ≠ 4 ∨ s.mustLeave = false) : s.leaveActive = s := by
  refine if_pos ?_
  rcases h with h | h | h <;> simp [h]

theorem State.roleLost_keeps (s : State) : Keeps 256 s.roleEnded s.roleLost :=
  State.count_keeps rfl (State.setBit_keeps rfl (State.pairTo_keeps rfl (State.setBit_keeps rfl (Keeps.refl _))))

theorem State.roleEnded_pair (s : State) : s.roleEnded.pair = s.pair.left (s.rd Reg.PAIR_GRANTSEQ) := by
  have hk : Keeps 1292 s (s.cycleAbort.wsResult wsSwitchover) := State.wsResult_keeps rfl (State.cycleAbort_keeps rfl (Keeps.refl s))
  exact congrArg (fun p : PairState => p.left (s.rd Reg.PAIR_GRANTSEQ)) (hk.pair_same rfl)

theorem State.roleEnded_ws (s : State) : s.roleEnded.sett.ws = none :=
  congrArg SettState.ws (s.cycleAbort.wsResult_sett wsSwitchover)

theorem State.roleEnded_lost (s : State) : s.roleEnded.rd Reg.PAIR_CNT_LOST = s.rd Reg.PAIR_CNT_LOST := by
  refine (State.wsResult_other s.cycleAbort (by decide) (by decide)).trans ?_
  exact s.cycleAbort_lost (by decide)

/-- A change of the STATE of a member keeps its PSYNC. -/
theorem State.pairTo_psync (s : State) (k : Nat) : (s.pairTo k).pairPsync = s.pairPsync := by
  by_cases h : s.pairState = k
  · rw [State.pairTo, if_pos h]
  · rw [State.pairPsync, State.bit_eq, State.pairTo_rd h (by decide), if_neg (by decide), if_pos rfl, bitOf_putBits _ _ _ _ _ (by decide)]
    rfl

theorem State.roleLost_shows (s : State) : s.roleLost.pairState = 1 ∧ s.roleLost.pairPsync = false ∧ s.roleLost.bit Reg.PAIR_STAT 1 = true
    ∧ (s.roleLost.rd Reg.PAIR_CNT_LOST).toNat = min 0xFFFFFFFF ((s.rd Reg.PAIR_CNT_LOST).toNat + 1) := by
  have hto (u : State) : ((u.setBit Reg.PAIR_STATE 6 false).pairTo 1).rd Reg.PAIR_CNT_LOST = u.rd Reg.PAIR_CNT_LOST := by
    by_cases h : (u.setBit Reg.PAIR_STATE 6 false).pairState = 1
    · rw [State.pairTo, if_pos h, State.rd_setBit, if_neg (by decide)]
    · rw [State.pairTo_rd h (by decide), if_neg (by decide), if_neg (by decide), State.rd_setBit, if_neg (by decide)]
  have hstate : s.roleLost.rd Reg.PAIR_STATE = ((s.roleEnded.setBit Reg.PAIR_STATE 6 false).pairTo 1).rd Reg.PAIR_STATE := by
    rw [State.roleLost, State.rd_count, if_neg (by decide), State.rd_setBit, if_neg (by decide)]
  refine ⟨?_, ?_, ?_, ?_⟩
  · rw [State.pairState, State.fld_eq, hstate]
    exact State.pairTo_pairState _ (by decide)
  · have hbit : (s.roleEnded.setBit Reg.PAIR_STATE 6 false).pairPsync = false := by
      rw [State.pairPsync, State.bit_eq, State.rd_setBit, if_pos rfl, bitOf_putBit_same _ _ _ (by decide)]
    rw [State.pairPsync, State.bit_eq, hstate, ← State.bit_eq]
    exact (State.pairTo_psync _ 1).trans hbit
  · rw [State.roleLost, State.bit_eq, State.rd_count, if_neg (by decide), State.rd_setBit, if_pos rfl, bitOf_putBit_same _ _ _ (by decide)]
  · rw [State.roleLost, State.rd_count, if_pos rfl, State.rd_setBit, if_neg (by decide), hto, State.roleEnded_lost, satWordN_toNat]

theorem State.gating_lost {s : State} (f : State → State) {b : Nat} (hb : b ∈ lostShown) : (s.gating f).rd b = (f s).rd b := by
  unfold State.gating
  dsimp only
  rw [State.rd_onlyIf, State.canGate_lost hb, ite_self]

theorem State.gating_same (s : State) (f : State → State) : Keeps 0 (f s) (s.gating f) :=
  Keeps.only (fun _ h => State.canGate_keeps rfl h) (Keeps.refl _)

theorem exec_leaveActive {s : State} (hs : s.supplied) : exec .leaveActive s = .next s.clearSent.leaveActive :=
  show execLeaveActive s = _ from State.act_supplied hs

theorem leaveActive_leaves (s : State) (hs : s.supplied) (hr : s.pair.role = 1) (h : s.pairState = 4) (hm : s.mustLeave = true) :
    ∃ t, exec .leaveActive s = .next t ∧ t.pairState = 1 ∧ t.pair.latch = false ∧ t.pair.handover = false ∧ t.claim = false
      ∧ t.drive = false ∧ t.sett.ws = none ∧ t.pair.leftSeq = some (s.rd Reg.PAIR_GRANTSEQ) ∧ t.pairPsync = false
      ∧ t.bit Reg.PAIR_STAT 1 = true
      ∧ (t.rd Reg.PAIR_CNT_LOST).toNat = min 0xFFFFFFFF ((s.rd Reg.PAIR_CNT_LOST).toNat + 1)
      ∧ s.keepsParts t [.sent, .lap, .sett, .zid, .dsp, .pair] := by
  have hcall := (exec_leaveActive hs).trans (congrArg Host.Outcome.next (State.leaveActive_leaves (s := s.clearSent) hr h hm))
  have hframe := (State.leaveActive_keeps (k := 9486) rfl (State.clearSent_keeps rfl (Keeps.refl s))).parts [.sent, .lap, .sett, .zid, .dsp, .pair]
    (fun p => by cases p <;> decide)
  rw [State.leaveActive_leaves (s := s.clearSent) hr h hm] at hframe
  have hgate := s.clearSent.gating_same State.roleLost
  have hend := s.clearSent.roleLost_keeps
  have hrd (b : Nat) (hb : b ∈ lostShown) : (s.clearSent.gating State.roleLost).rd b = s.clearSent.roleLost.rd b := State.gating_lost _ hb
  have hpair : (s.clearSent.gating State.roleLost).pair = s.pair.left (s.rd Reg.PAIR_GRANTSEQ) :=
    (hgate.pair_same rfl).trans ((hend.pair_same rfl).trans s.clearSent.roleEnded_pair)
  have hlatch : (s.clearSent.gating State.roleLost).pair.latch = false := by rw [hpair]; rfl
  have hclaim : (s.clearSent.gating State.roleLost).claim = false := by
    rw [State.claim, hlatch, Bool.false_and, Bool.false_and, Bool.false_and]
  have hrole : (s.clearSent.gating State.roleLost).pair.role = 1 := by rw [hpair]; exact hr
  obtain ⟨hstate, hpsync, hstat, hcnt⟩ := s.clearSent.roleLost_shows
  refine ⟨_, hcall, ?_, hlatch, ?_, hclaim, ?_, ?_, ?_, ?_, ?_, ?_, hframe⟩
  · rw [State.pairState, State.fld_eq, hrd _ (by decide)]
    exact hstate
  · rw [hpair]
    rfl
  · rw [State.drive, if_pos hrole, hclaim, Bool.false_and]
  · rw [hgate.sett_same rfl, hend.sett_same rfl]
    exact s.clearSent.roleEnded_ws
  · rw [hpair]
    rfl
  · rw [State.pairPsync, State.bit_eq, hrd _ (by decide)]
    exact hpsync
  · rw [State.bit_eq, hrd _ (by decide)]
    exact hstat
  · rw [hrd _ (by decide), hcnt, State.rd_clearSent]

/-- Settles O38. -/
theorem pairActiveRole : Obligations.PairActiveRole := by
  unfold Obligations.PairActiveRole
  have hkeep (s : State) : s.keepsParts s.clearSent [.sent] :=
    (State.clearSent_keeps (k := 2) rfl (Keeps.refl s)).parts _ (fun p => by cases p <;> decide)
  exact ⟨takeActive_enters,
    fun s hs h => ⟨_, (exec_takeActive hs).trans (congrArg _ (State.takeActive_idle (s := s.clearSent) h)), rfl, hkeep s⟩, leaveActive_leaves,
    fun s hs h => ⟨_, (exec_leaveActive hs).trans (congrArg _ (State.leaveActive_idle (s := s.clearSent) h)), rfl, hkeep s⟩⟩

end Sys2Proof.Machine

/-!
Joining a pair (R402, R403): the checks, the bulk copy and the run of units, which settles O36.
-/

namespace Sys2Proof.Machine

/-! ## The checks of Table 6 -/

/-- The registers that the join checks read. -/
def joinRegs : List Nat := [Reg.PAIR_UNIT, Reg.PAIR_KEY, Reg.PAIR_CFG, Reg.PAIR_NVMASK, Reg.IMG_RUN]
  ++ (List.range 8).map Reg.IMG_SHASH

/-- What the join checks read is the same. -/
structure State.JoinSame (s t : State) : Prop where
  regs : ∀ b ∈ joinRegs, t.rd b = s.rd b
  img : t.img = s.img
  key : t.key = s.key
  lap : t.lap = s.lap
  sett : t.sett = s.sett
  side : t.pair.sideB = s.pair.sideB

section
variable {s t : State} (h : State.JoinSame s t)
include h

theorem State.JoinSame.runImg : t.runImg = s.runImg := by
  have hrun := h.regs Reg.IMG_RUN (by decide)
  unfold State.runImg State.runSlot State.slotImg
  rw [State.bit_eq, State.bit_eq, hrun, h.img]

theorem State.JoinSame.runShash : t.runShash = s.runShash := by
  unfold State.runShash
  refine congrArg bytesOfWords (List.map_congr_left fun i hi => h.regs _ ?_)
  exact List.mem_append_right _ (List.mem_map_of_mem hi)

theorem State.JoinSame.engineKey (e k : Nat) : t.engineKey e k = s.engineKey e k := by
  have hslot : t.keySlot k = s.keySlot k := congrArg (fun x : KeyState => assocGet emptySlot x.slots k) h.key
  rw [State.engineKey, State.engineKey, hslot]

theorem State.JoinSame.joinCause (p : Partner) : t.joinCause p = s.joinCause p := by
  unfold State.joinCause State.imgSectCrc State.imgDataSize State.imgRetain State.readableEpoch
  rw [h.runImg, h.runShash, h.engineKey, h.engineKey, h.lap, h.sett, h.side, State.nat, State.nat, State.fld_eq, State.fld_eq, State.fld_eq,
    State.fld_eq, State.fld_eq, State.fld_eq, h.regs Reg.PAIR_UNIT (by decide), h.regs Reg.PAIR_KEY (by decide), h.regs Reg.PAIR_CFG (by decide)]

end

theorem State.joinCause_lt (s : State) (p : Partner) : s.joinCause p < 2 ^ 3 := by
  unfold State.joinCause
  dsimp only
  split_ifs <;> decide

/-! ## The begin of a join -/

/-- The records of a join that begins. -/
def State.joinBegun (s : State) (epoch lap mask : Nat) : State :=
  { s with pair := { s.pair with joined := 0, partnerEpoch := epoch, partnerLap := lap, nvmask := mask } }

/-- The record of a failed check. -/
def State.joinNoted (s : State) (cause : Nat) : State :=
  (((s.setFld Reg.PAIR_STATE 24 3 cause).setFld Reg.PAIR_STATE 16 2 0).setBit Reg.PAIR_STAT 5 true).count Reg.PAIR_CNT_JOINFAIL

section
variable {s : State} {p : Partner} (hp : s.pair.partner = some p) (h1 : s.pairState = 1) (ha : p.active = true) (hn : s.boot.noJoin = false)

section
include hp h1 ha hn

theorem State.beginJoin_passes (hc : s.joinCause p = 0) :
    s.beginJoin = s.bulkBegun.joinBegun p.epoch.toNat s.lap.count (s.fld Reg.PAIR_NVMASK 0 8) := by
  unfold State.beginJoin
  rw [hp]
  dsimp only
  rw [if_neg (by rw [h1, ha, hn]; decide), if_neg (not_not_intro hc)]
  rfl

theorem State.beginJoin_fails (hc : s.joinCause p ≠ 0) : s.beginJoin = s.joinFails (s.joinCause p) := by
  unfold State.beginJoin
  rw [hp]
  dsimp only
  rw [if_neg (by rw [h1, ha, hn]; decide), if_pos hc]

end

include h1

theorem State.joinFails_out (cause : Nat) : s.joinFails cause = s.joinNoted cause := by
  have hkeep : (s.joinNoted cause).pairState = 1 := by
    rw [State.pairState, State.fld_eq, State.joinNoted, State.rd_count, if_neg (by decide), State.rd_setBit, if_neg (by decide), State.rd_setFld,
      if_pos rfl, bitsOf_putBits_apart _ _ _ _ _ _ (by decide) (by decide), State.rd_setFld, if_pos rfl,
      bitsOf_putBits_apart _ _ _ _ _ _ (by decide) (by decide)]
    exact h1
  exact if_pos hkeep

theorem State.bulkBegun_rd {b : Nat} (hb : b ∉ pinRegs) : s.bulkBegun.rd b = if b = Reg.PAIR_IRQ then putBit (s.rd Reg.PAIR_IRQ) 0 true
    else if b = Reg.PAIR_STATE then putBits (putBits (s.rd Reg.PAIR_STATE) 16 2 2) 0 3 2 else if b = Reg.PAIR_BULK then 0#32 else s.rd b := by
  have hkeep : ((s.setFld Reg.PAIR_STATE 16 2 2).wr Reg.PAIR_BULK 0#32).pairState ≠ 2 := by
    rw [State.pairState, State.fld_eq, State.rd_wr, if_neg (by decide), State.rd_setFld, if_pos rfl,
      bitsOf_putBits_apart _ _ _ _ _ _ (by decide) (by decide), ← State.fld_eq, ← State.pairState, h1]
    decide
  rw [State.bulkBegun, State.pairTo_rd hkeep hb, State.rd_wr, State.rd_setFld]
  by_cases h2 : b = Reg.PAIR_IRQ
  · rw [if_pos h2, if_pos h2, if_neg (h2 ▸ by decide), if_neg (h2 ▸ by decide), h2]
  · rw [if_neg h2, if_neg h2]
    by_cases h3 : b = Reg.PAIR_STATE
    · rw [if_pos h3, if_pos h3, if_neg (h3 ▸ by decide), if_pos h3]
    · rw [if_neg h3, if_neg h3, if_neg h3]

end

theorem State.joinNoted_rd (s : State) (cause b : Nat) : (s.joinNoted cause).rd b
    = if b = Reg.PAIR_CNT_JOINFAIL then satWordN ((s.rd Reg.PAIR_CNT_JOINFAIL).toNat + 1)
      else if b = Reg.PAIR_STAT then putBit (s.rd Reg.PAIR_STAT) 5 true
      else if b = Reg.PAIR_STATE then putBits (putBits (s.rd Reg.PAIR_STATE) 24 3 cause) 16 2 0 else s.rd b := by
  have hstat : ((s.setFld Reg.PAIR_STATE 24 3 cause).setFld Reg.PAIR_STATE 16 2 0).rd Reg.PAIR_STAT = s.rd Reg.PAIR_STAT := by
    rw [State.rd_setFld, if_neg (by decide), State.rd_setFld, if_neg (by decide)]
  have hcnt : (((s.setFld Reg.PAIR_STATE 24 3 cause).setFld Reg.PAIR_STATE 16 2 0).setBit Reg.PAIR_STAT 5 true).rd Reg.PAIR_CNT_JOINFAIL
      = s.rd Reg.PAIR_CNT_JOINFAIL := by
    rw [State.rd_setBit, if_neg (by decide), State.rd_setFld, if_neg (by decide), State.rd_setFld, if_neg (by decide)]
  rw [State.joinNoted, State.rd_count, hcnt, State.rd_setBit, hstat, State.rd_setFld, State.rd_setFld, if_pos rfl]
  by_cases h : b = Reg.PAIR_STATE
  · rw [if_pos h, if_pos h]
  · rw [if_neg h, if_neg h, State.rd_setFld, if_neg h]

/-- The registers that the begin of a join changes. -/
def joinShown : List Nat := [Reg.PAIR_STATE, Reg.PAIR_BULK, Reg.PAIR_IRQ, Reg.PAIR_STAT, Reg.PAIR_CNT_JOINFAIL] ++ pinRegs

/-- What a join that begins leaves. -/
structure State.JoinPassed (s t : State) (p : Partner) : Prop where
  state : t.pairState = 2
  phase : t.fld Reg.PAIR_STATE 16 2 = 2
  bulk : t.rd Reg.PAIR_BULK = 0#32
  joined : t.pair.joined = 0
  epoch : t.pair.partnerEpoch = p.epoch.toNat
  irq : t.bit Reg.PAIR_IRQ 0 = true

/-- What a join that fails a check leaves. -/
structure State.JoinFailed (s t : State) (cause : Nat) : Prop where
  state : t.pairState = 1
  cause : t.fld Reg.PAIR_STATE 24 3 = cause
  stat : t.bit Reg.PAIR_STAT 5 = true
  count : (t.rd Reg.PAIR_CNT_JOINFAIL).toNat = min 0xFFFFFFFF ((s.rd Reg.PAIR_CNT_JOINFAIL).toNat + 1)

section
variable {s : State} {p : Partner} (hp : s.pair.partner = some p) (h1 : s.pairState = 1) (ha : p.active = true) (hn : s.boot.noJoin = false)
include hp h1 ha hn

theorem State.beginJoin_passed (hc : s.joinCause p = 0) : State.JoinPassed s s.beginJoin p := by
  rw [State.beginJoin_passes hp h1 ha hn hc]
  have hrd (b : Nat) : (s.bulkBegun.joinBegun p.epoch.toNat s.lap.count (s.fld Reg.PAIR_NVMASK 0 8)).rd b = s.bulkBegun.rd b := rfl
  have hstate : s.bulkBegun.rd Reg.PAIR_STATE = putBits (putBits (s.rd Reg.PAIR_STATE) 16 2 2) 0 3 2 := by
    rw [State.bulkBegun_rd h1 (by decide), if_neg (by decide), if_pos rfl]
  refine ⟨?_, ?_, ?_, rfl, rfl, ?_⟩
  · rw [State.pairState, State.fld_eq, hrd, hstate, bitsOf_putBits_same _ _ _ _ (by decide)]
    rfl
  · rw [State.fld_eq, hrd, hstate, bitsOf_putBits_apart _ _ _ _ _ _ (by decide) (by decide), bitsOf_putBits_same _ _ _ _ (by decide)]
    rfl
  · rw [hrd, State.bulkBegun_rd h1 (by decide), if_neg (by decide), if_neg (by decide), if_pos rfl]
  · rw [State.bit_eq, hrd, State.bulkBegun_rd h1 (by decide), if_pos rfl, bitOf_putBit_same _ _ _ (by decide)]

theorem State.beginJoin_failed (hc : s.joinCause p ≠ 0) : State.JoinFailed s s.beginJoin (s.joinCause p) := by
  rw [State.beginJoin_fails hp h1 ha hn hc, State.joinFails_out h1]
  have hstate : (s.joinNoted (s.joinCause p)).rd Reg.PAIR_STATE = putBits (putBits (s.rd Reg.PAIR_STATE) 24 3 (s.joinCause p)) 16 2 0 := by
    rw [State.joinNoted_rd, if_neg (by decide), if_neg (by decide), if_pos rfl]
  refine ⟨?_, ?_, ?_, ?_⟩
  · rw [State.pairState, State.fld_eq, hstate, bitsOf_putBits_apart _ _ _ _ _ _ (by decide) (by decide),
      bitsOf_putBits_apart _ _ _ _ _ _ (by decide) (by decide)]
    exact h1
  · rw [State.fld_eq, hstate, bitsOf_putBits_apart _ _ _ _ _ _ (by decide) (by decide), bitsOf_putBits_same _ _ _ _ (by decide),
      Nat.mod_eq_of_lt (s.joinCause_lt p)]
  · rw [State.bit_eq, State.joinNoted_rd, if_neg (by decide), if_pos rfl, bitOf_putBit_same _ _ _ (by decide)]
  · rw [State.joinNoted_rd, if_pos rfl, satWordN_toNat]

/-- The begin of a join, its checks passed or not, keeps LINK and the partner. -/
theorem State.beginJoin_link : s.beginJoin.bit Reg.PAIR_STATE 5 = s.bit Reg.PAIR_STATE 5 ∧ s.beginJoin.pair.partner = some p := by
  by_cases hc : s.joinCause p = 0
  · rw [State.beginJoin_passes hp h1 ha hn hc]
    have hpair : s.bulkBegun.pair = s.pair := (State.pairTo_keeps (k := 256) rfl (State.wr_keeps rfl (State.setFld_keeps rfl (Keeps.refl s)))).pair_same rfl
    constructor
    · rw [State.bit_eq, show (s.bulkBegun.joinBegun p.epoch.toNat s.lap.count (s.fld Reg.PAIR_NVMASK 0 8)).rd Reg.PAIR_STATE
        = s.bulkBegun.rd Reg.PAIR_STATE from rfl, State.bulkBegun_rd h1 (by decide), if_neg (by decide), if_pos rfl,
        bitOf_putBits _ _ _ _ _ (by decide), bitOf_putBits _ _ _ _ _ (by decide)]
      rfl
    · exact (congrArg PairState.partner hpair).trans hp
  · rw [State.beginJoin_fails hp h1 ha hn hc, State.joinFails_out h1]
    constructor
    · rw [State.bit_eq, State.joinNoted_rd, if_neg (by decide), if_neg (by decide), if_pos rfl, bitOf_putBits _ _ _ _ _ (by decide),
        bitOf_putBits _ _ _ _ _ (by decide)]
      rfl
    · exact hp

theorem State.beginJoin_keepsRegs : s.keepsRegs s.beginJoin joinShown := fun b hb => by
  simp only [joinShown, List.mem_append, List.mem_cons, List.not_mem_nil, or_false, not_or] at hb
  obtain ⟨⟨h2, h3, h4, h5, h6⟩, hpin⟩ := hb
  by_cases hc : s.joinCause p = 0
  · rw [State.beginJoin_passes hp h1 ha hn hc]
    refine (State.bulkBegun_rd h1 (b := b) (by simpa using hpin)).trans ?_
    rw [if_neg h4, if_neg h2, if_neg h3]
  · rw [State.beginJoin_fails hp h1 ha hn hc, State.joinFails_out h1, State.joinNoted_rd, if_neg h6, if_neg h5, if_neg h2]

end

/-! ## JOIN -/

/-- The word of a JOIN. -/
def joinWord (w : Word) : Word := (w &&& 0x100#32) ||| 1#32

theorem joinWord_bits (w : Word) : bitOf (joinWord w) 0 = true ∧ bitOf (joinWord w) 1 = false ∧ bitOf (joinWord w) 8 = bitOf w 8 := by
  refine ⟨?_, ?_, ?_⟩ <;> simp [joinWord, bitOf]

/-- The partner that the link shows. -/
def State.withPartner (s : State) (p : Partner) : State := { s with pair := { s.pair with partner := some p } }

theorem State.pairCtrl_join (s : State) {v : Word} (h0 : bitOf v 0 = true) (h1 : bitOf v 1 = false) :
    s.pairCtrl v = (s.setBit Reg.PAIR_CTRL 8 (bitOf v 8)).beginJoin := by
  unfold State.pairCtrl
  rw [h0, h1]
  rfl

theorem State.grants_withPartner {s : State} {p : Partner} {src : Src} {v : Word} (h : s.grants src Reg.PAIR_CTRL v) :
    (s.withPartner p).grants src Reg.PAIR_CTRL v :=
  (State.grants_simple (by decide)).mpr ((State.grants_simple (by decide)).mp h)

/-- A change of PAIR_CTRL, PAIR_STATE, the block's flags and the partner leaves what the join checks read. -/
theorem State.JoinSame.ctrl (s : State) (p : Partner) (b : Bool) : State.JoinSame s ((s.withPartner p).clearSent.setBit Reg.PAIR_CTRL 8 b) where
  regs a ha := by
    rw [State.rd_setBit, if_neg (fun e => absurd (e ▸ ha) (by decide))]
    rfl
  img := rfl
  key := rfl
  lap := rfl
  sett := rfl
  side := rfl

theorem State.withPartner_keeps (s : State) (p : Partner) : Keeps 8192 s (s.withPartner p) := Keeps.set_pair rfl (Keeps.refl s)

theorem join_begins (src : Src) (p : Partner) (s : State) (hs : s.supplied) (h1 : s.pairState = 1) (hn : s.boot.noJoin = false)
    (ha : p.active = true) (hg : s.grants src Reg.PAIR_CTRL (joinWord (s.rd Reg.PAIR_CTRL))) :
    ∃ t, exec (.join src (some p)) s = .next t ∧ t.answer.status = .ok
      ∧ (s.joinCause p = 0 → t.pairState = 2 ∧ t.fld Reg.PAIR_STATE 16 2 = 2 ∧ t.rd Reg.PAIR_BULK = 0#32 ∧ t.pair.joined = 0
          ∧ t.pair.partnerEpoch = p.epoch.toNat ∧ t.bit Reg.PAIR_IRQ 0 = true)
      ∧ (s.joinCause p ≠ 0 → t.pairState = 1 ∧ t.fld Reg.PAIR_STATE 24 3 = s.joinCause p ∧ t.bit Reg.PAIR_STAT 5 = true
          ∧ (t.rd Reg.PAIR_CNT_JOINFAIL).toNat = min 0xFFFFFFFF ((s.rd Reg.PAIR_CNT_JOINFAIL).toNat + 1))
      ∧ s.keepsRegs t ([Reg.PAIR_CTRL, Reg.PAIR_STATE, Reg.PAIR_BULK, Reg.PAIR_IRQ, Reg.PAIR_STAT, Reg.PAIR_CNT_JOINFAIL] ++ hostRegs ++ pinRegs)
      ∧ s.keepsParts t (.pair :: .zid :: hostParts) := by
  obtain ⟨hj, hh, -⟩ := joinWord_bits (s.rd Reg.PAIR_CTRL)
  have hrd (b : Nat) (hb : b ≠ Reg.PAIR_CTRL) :
      ((s.withPartner p).clearSent.setBit Reg.PAIR_CTRL 8 (bitOf (joinWord (s.rd Reg.PAIR_CTRL)) 8)).rd b = s.rd b := by
    rw [State.rd_setBit, if_neg hb]
    rfl
  have hsame := State.JoinSame.ctrl s p (bitOf (joinWord (s.rd Reg.PAIR_CTRL)) 8)
  have heff := ((s.withPartner p).clearSent.wordWrite_pairCtrl src.slot.val _).trans (State.pairCtrl_join _ hj hh)
  have hx1 : ((s.withPartner p).clearSent.setBit Reg.PAIR_CTRL 8 (bitOf (joinWord (s.rd Reg.PAIR_CTRL)) 8)).pairState = 1 := by
    rw [State.pairState, State.fld_eq, hrd _ (by decide)]
    exact h1
  have hxk : Keeps 8397131 (s.withPartner p).clearSent
      ((s.withPartner p).clearSent.setBit Reg.PAIR_CTRL 8 (bitOf (joinWord (s.rd Reg.PAIR_CTRL)) 8)) := State.setBit_keeps rfl (Keeps.refl _)
  have hxp : ((s.withPartner p).clearSent.setBit Reg.PAIR_CTRL 8 (bitOf (joinWord (s.rd Reg.PAIR_CTRL)) 8)).pair.partner = some p := rfl
  have hxn : ((s.withPartner p).clearSent.setBit Reg.PAIR_CTRL 8 (bitOf (joinWord (s.rd Reg.PAIR_CTRL)) 8)).boot.noJoin = false := hn
  have hxj : ((s.withPartner p).clearSent.setBit Reg.PAIR_CTRL 8 (bitOf (joinWord (s.rd Reg.PAIR_CTRL)) 8)).nv.jobs = s.nv.jobs := rfl
  generalize (s.withPartner p).clearSent.setBit Reg.PAIR_CTRL 8 (bitOf (joinWord (s.rd Reg.PAIR_CTRL)) 8) = x at hrd hsame heff hx1 hxk hxp hxn hxj
  obtain ⟨t, ht, hok, hregs, hw, hk⟩ := State.write1_answered (k := 8397131) (s := s.withPartner p) hs (State.grants_withPartner hg) (by decide)
    (by decide) heff (by decide) (State.beginJoin_keeps rfl hxk)
    ((congrArg NvState.jobs ((State.beginJoin_keeps (k := 8448) rfl (Keeps.refl x)).nv_same rfl)).trans hxj)
  have hexec : exec (.join src (some p)) s = .next t := by
    rw [← ht, State.act_supplied (s := s.withPartner p) hs]
    exact show execJoin src (some p) s = _ from State.act_supplied hs
  have hpair : t.pair = x.beginJoin.pair := hw.pair_same rfl
  have hstate : t.rd Reg.PAIR_STATE = x.beginJoin.rd Reg.PAIR_STATE := hregs _ (by decide)
  have hstat : t.rd Reg.PAIR_STAT = x.beginJoin.rd Reg.PAIR_STAT := hregs _ (by decide)
  rw [← hsame.joinCause p]
  refine ⟨t, hexec, hok, fun hc => ?_, fun hc => ?_,
    State.keepsRegs_answered (l := Reg.PAIR_CTRL :: joinShown) hregs (fun b hb => ?_) (by decide),
    (((s.withPartner_keeps p).weaken rfl).trans hk).parts _ (fun p => by cases p <;> decide)⟩
  · have h := State.beginJoin_passed hxp hx1 ha hxn hc
    refine ⟨?_, ?_, (hregs _ (by decide)).trans h.bulk, (congrArg PairState.joined hpair).trans h.joined,
      (congrArg PairState.partnerEpoch hpair).trans h.epoch, ?_⟩
    · rw [State.pairState, State.fld_eq, hstate]
      exact h.state
    · rw [State.fld_eq, hstate]
      exact h.phase
    · rw [State.bit_eq, hregs _ (by decide)]
      exact h.irq
  · have h := State.beginJoin_failed hxp hx1 ha hxn hc
    refine ⟨?_, ?_, ?_, ?_⟩
    · rw [State.pairState, State.fld_eq, hstate]
      exact h.state
    · rw [State.fld_eq, hstate]
      exact h.cause
    · rw [State.bit_eq, hstat]
      exact h.stat
    · rw [hregs _ (by decide), h.count, hrd _ (by decide)]
  · rw [List.mem_cons, not_or] at hb
    exact (State.beginJoin_keepsRegs hxp hx1 ha hxn b hb.2).trans (hrd b hb.1)

/-! ## AUTOJOIN -/

theorem exec_autojoin {s : State} (hs : s.supplied) (p : Partner) : exec (.autojoin p) s
    = .next (s.clearSent.onlyIf (s.clearSent.bit Reg.PAIR_CTRL 8 && s.clearSent.pairState == 1 && p.active) (fun u => u.joinWith p)) :=
  show execAutojoin p s = _ from State.act_supplied hs

theorem autojoin_begins (p : Partner) (s : State) (hs : s.supplied) (hb : s.bit Reg.PAIR_CTRL 8 = true) (h1 : s.pairState = 1)
    (hn : s.boot.noJoin = false) (ha : p.active = true) :
    ∃ t, exec (.autojoin p) s = .next t ∧ t.pair.partner = some p ∧ t.bit Reg.PAIR_STATE 5 = true
      ∧ (s.joinCause p = 0 → t.pairState = 2 ∧ t.fld Reg.PAIR_STATE 16 2 = 2 ∧ t.pair.joined = 0)
      ∧ (s.joinCause p ≠ 0 → t.pairState = 1 ∧ t.fld Reg.PAIR_STATE 24 3 = s.joinCause p ∧ t.bit Reg.PAIR_STAT 5 = true)
      ∧ s.keepsParts t [.sent, .zid, .pair] := by
  have hcond : (s.clearSent.bit Reg.PAIR_CTRL 8 && s.clearSent.pairState == 1 && p.active) = true := by
    rw [show s.clearSent.bit Reg.PAIR_CTRL 8 = s.bit Reg.PAIR_CTRL 8 from rfl, hb, ha, show s.clearSent.pairState = s.pairState from rfl, h1]
    rfl
  have ht := exec_autojoin hs p
  rw [hcond, State.onlyIf_true, show s.clearSent.joinWith p = ((s.clearSent.withPartner p).setLink true).beginJoin from rfl] at ht
  have hxk : Keeps 256 (s.clearSent.withPartner p) ((s.clearSent.withPartner p).setLink true) := State.setLink_keeps rfl (Keeps.refl _)
  have hx5 := (s.clearSent.withPartner p).setLink_link true
  have hx1 := ((s.clearSent.withPartner p).setLink_pairState true).trans h1
  have hsame : State.JoinSame s ((s.clearSent.withPartner p).setLink true) := by
    refine ⟨fun a ha => (State.setLink_rd (s.clearSent.withPartner p) true fun h => ?_).trans rfl, (hxk.img_same rfl).trans rfl, (hxk.key_same rfl).trans rfl,
      (hxk.lap_same rfl).trans rfl, (hxk.sett_same rfl).trans rfl, (congrArg PairState.sideB (hxk.pair_same rfl)).trans rfl⟩
    revert h
    revert a
    decide
  have hxp : ((s.clearSent.withPartner p).setLink true).pair.partner = some p := congrArg PairState.partner (hxk.pair_same rfl)
  have hxn : ((s.clearSent.withPartner p).setLink true).boot.noJoin = false := (congrArg BootState.noJoin (hxk.boot_same rfl)).trans hn
  have hparts : Keeps 8450 s ((s.clearSent.withPartner p).setLink true).beginJoin := State.beginJoin_keeps rfl
    ((State.clearSent_keeps rfl (Keeps.refl s)).trans (((s.clearSent.withPartner_keeps p).weaken rfl).trans (hxk.weaken rfl)))
  generalize (s.clearSent.withPartner p).setLink true = x at ht hx5 hx1 hsame hxp hxn hparts
  obtain ⟨hlink, hpart⟩ := State.beginJoin_link hxp hx1 ha hxn
  rw [← hsame.joinCause p]
  exact ⟨_, ht, hpart, hlink.trans hx5, fun hc => let h := State.beginJoin_passed hxp hx1 ha hxn hc; ⟨h.state, h.phase, h.joined⟩,
    fun hc => let h := State.beginJoin_failed hxp hx1 ha hxn hc; ⟨h.state, h.cause, h.stat⟩, hparts.parts _ (fun p => by cases p <;> decide)⟩

theorem autojoin_idle (p : Partner) (s : State) (hs : s.supplied) (h : s.bit Reg.PAIR_CTRL 8 = false ∨ s.pairState ≠ 1 ∨ p.active = false) :
    ∃ t, exec (.autojoin p) s = .next t ∧ t.regs = s.regs ∧ s.keepsParts t [.sent] := by
  have hcond : (s.clearSent.bit Reg.PAIR_CTRL 8 && s.clearSent.pairState == 1 && p.active) = false := by
    rw [show s.clearSent.bit Reg.PAIR_CTRL 8 = s.bit Reg.PAIR_CTRL 8 from rfl, show s.clearSent.pairState = s.pairState from rfl]
    rcases h with h | h | h
    · rw [h]
      rfl
    · rw [beq_false_of_ne h, Bool.and_false, Bool.false_and]
    · rw [h, Bool.and_false]
  have ht := exec_autojoin hs p
  rw [hcond] at ht
  exact ⟨_, ht, rfl, (State.clearSent_keeps (k := 2) rfl (Keeps.refl s)).parts _ (fun p => by cases p <;> decide)⟩

/-! ## BULK_DONE -/

/-- The copied bytes of the warm region. -/
def bulkSram (warm : List (Nat × Byte)) : Tab 8 := (warm.filter (fun e => e.1 < 0x100000)).foldl (fun t e => tabSet 0#8 t e.1 e.2) []

/-- The warm region as the copy leaves it. -/
def State.bulkWarm (s : State) (warm : List (Nat × Byte)) : State :=
  if s.frozen then s else { s with nv := { s.nv with sram := bulkSram warm, dirty := List.range 4096 } }

/-- The run of units restarts. -/
def State.runRestarted (s : State) : State := { s with pair := { s.pair with joined := 0 } }

/-- What the bulk copy leaves of a member that takes it. -/
def State.bulkTaken (s : State) (warm user : List (Nat × Byte)) (n : Nat) : State :=
  (((s.bulkWarm warm).nvTake [] user n).wr Reg.PAIR_BULK (BitVec.ofNat 32 s.bulkSize)).setFld Reg.PAIR_STATE 16 2 3

theorem State.bulkDone_takes {s : State} (h2 : s.pairState = 2) (hph : s.fld Reg.PAIR_STATE 16 2 = 2) (hp : s.pfailed = false)
    (warm user : List (Nat × Byte)) (n : Nat) : s.bulkDone warm user n = (s.bulkTaken warm user n).runRestarted := by
  unfold State.bulkDone
  rw [if_neg (by rw [h2, hph, hp]; decide)]
  rfl

theorem State.bulkWarm_keeps (s : State) (warm : List (Nat × Byte)) : Keeps 32 s (s.bulkWarm warm) := by
  unfold State.bulkWarm
  split
  · exact Keeps.refl s
  · exact Keeps.set_nv rfl (fun _ g => ⟨g.nv.1, tabWf_foldl_tabSet _ _ _ rfl, g.nv.2.2⟩) (Keeps.refl s)

theorem State.bulkWarm_tallyV (s : State) (warm : List (Nat × Byte)) : (s.bulkWarm warm).tallyV 0 = s.tallyV 0 := by
  unfold State.bulkWarm
  split <;> rfl

theorem State.bulkTaken_state (s : State) (warm user : List (Nat × Byte)) (n : Nat) :
    (s.bulkTaken warm user n).rd Reg.PAIR_STATE = putBits (s.rd Reg.PAIR_STATE) 16 2 3 := by
  rw [State.bulkTaken, State.rd_setFld, if_pos rfl, State.rd_wr, if_neg (by decide), State.nvTake_shown (by decide)]
  unfold State.bulkWarm
  split <;> rfl

theorem State.bulkTaken_nv (s : State) (warm user : List (Nat × Byte)) (n : Nat) :
    (s.bulkTaken warm user n).nv = ((s.bulkWarm warm).nvTake [] user n).nv :=
  (State.setFld_keeps (k := 0) rfl (State.wr_keeps rfl (Keeps.refl _))).nv_same rfl

/-- The NV records of USER regions and the tally leave the warm region's bytes. -/
theorem State.nvTake_sram (s : State) (user : List (Nat × Byte)) (n : Nat) : (s.nvTake [] user n).nv.sram = s.nv.sram := by
  have huser : ∀ l : List (Nat × Byte), ∀ u : State, (u.forEach l (fun t e => t.putUserByte e.1 e.2)).nv.sram = u.nv.sram := fun l => by
    refine State.forEach_kept (fun t => t.nv.sram) l (fun t e => t.putUserByte e.1 e.2) ?_
    intro t e
    unfold State.putUserByte State.putUserUnit
    lift_lets
    extract_lets
    split_ifs <;> rfl
  have htally (u : State) : (u.tallyRaiseTo n).nv.sram = u.nv.sram := by
    unfold State.tallyRaiseTo
    split
    · rw [(u.writeTallyCell_good 0 (BitVec.ofNat 32 n) goodRb).2.rest]
    · rfl
  unfold State.nvTake
  dsimp only
  rw [(State.mtrFromWarm_keeps (k := 262144) rfl (Keeps.refl _)).nv_same rfl, htally, huser]
  rfl

theorem bulkSram_single {a : Nat} (v : Byte) (h : a < 0x100000) : tabGet 0#8 (bulkSram [(a, v)]) a = v := by
  rw [bulkSram, List.filter_cons_of_pos (by simpa using h)]
  exact (tabGet_tabSet _ _ _ _ _).trans (if_pos rfl)

theorem bulkDone_takes (warm user : List (Nat × Byte)) (n : Word) (s : State) (hs : s.supplied) (h2 : s.pairState = 2)
    (hph : s.fld Reg.PAIR_STATE 16 2 = 2) (hp : s.pfailed = false) :
    ∃ t, exec (.bulkDone warm user n) s = .next t ∧ t.pairState = 2 ∧ t.fld Reg.PAIR_STATE 16 2 = 3 ∧ t.pair.joined = 0
      ∧ (s.frozen = false → ∀ a v, warm = [(a, v)] → a < 0x100000 → tabGet 0#8 t.nv.sram a = v)
      ∧ (t.tallyV 0).toNat = max (s.tallyV 0).toNat n.toNat
      ∧ s.keepsParts t [.sent, .nv, .zid, .pair, .mtr, .used] := by
  have ht : exec (.bulkDone warm user n) s = .next (s.clearSent.bulkDone warm user n.toNat) :=
    show execBulkDone warm user n s = _ from State.act_supplied hs
  have hk : Keeps 8659234 s (s.clearSent.bulkDone warm user n.toNat) :=
    State.bulkDone_keeps rfl (State.clearSent_keeps rfl (Keeps.refl s))
  rw [State.bulkDone_takes (s := s.clearSent) h2 hph hp] at ht hk
  have hstate := s.clearSent.bulkTaken_state warm user n.toNat
  have hnv := s.clearSent.bulkTaken_nv warm user n.toNat
  generalize s.clearSent.bulkTaken warm user n.toNat = x at ht hk hstate hnv
  refine ⟨_, ht, ?_, ?_, rfl, fun hf a v hw ha => ?_, ?_, hk.parts _ (fun p => by cases p <;> decide)⟩
  · rw [State.pairState, State.fld_eq]
    refine (congrArg (fun w => bitsOf w 0 3) hstate).trans ?_
    rw [bitsOf_putBits_apart _ _ _ _ _ _ (by decide) (by decide)]
    exact h2
  · rw [State.fld_eq]
    refine (congrArg (fun w => bitsOf w 16 2) hstate).trans ?_
    exact bitsOf_putBits_same _ _ _ _ (by decide)
  · refine (congrArg (fun x : NvState => tabGet 0#8 x.sram a) hnv).trans ?_
    rw [State.nvTake_sram, State.bulkWarm, if_neg (by rw [show s.clearSent.frozen = s.frozen from rfl, hf]; decide), hw]
    exact bulkSram_single v ha
  · refine (congrArg (fun x : Tally => x.v.toNat) (State.tally_congr (congrArg NvState.tallies hnv) 0)).trans ?_
    refine (State.nvTake_tallyV _ [] user n.isLt).trans ?_
    rw [State.bulkWarm_tallyV]
    rfl

/-! ## MIRROR_UNIT at a JOINING member -/

/-- A member on its way to STANDBY, before its program's state follows. -/
def State.standbyShown (s : State) : State :=
  ((((s.pairTo 3).setSync true).setFld Reg.PAIR_STATE 16 2 0).irqPair 4).count Reg.PAIR_CNT_JOIN

theorem State.toStandby_rd (s : State) {b : Nat} (hb : b ∈ pairShown) : s.toStandby.rd b = s.standbyShown.rd b := by
  unfold State.toStandby
  dsimp only
  rw [State.fbpSet_shown hb]
  rfl

theorem State.toStandby_state {s : State} (h : s.pairState ≠ 3) :
    s.toStandby.rd Reg.PAIR_STATE = putBits (putBit (putBits (s.rd Reg.PAIR_STATE) 0 3 3) 4 true) 16 2 0 := by
  rw [State.toStandby_rd _ (by decide), State.standbyShown, State.rd_count, if_neg (by decide), State.irqPair,
    State.irqAt_rd _ _ _ _ _ _ (by decide), if_neg (by decide), State.rd_setFld, if_pos rfl, State.setSync_state,
    State.pairTo_rd h (by decide), if_neg (by decide), if_pos rfl]

/-- The module becomes a synchronised STANDBY, raises the interrupt of the join, and LINK stays. -/
theorem State.toStandby_shows {s : State} (h : s.pairState ≠ 3) :
    s.toStandby.pairState = 3 ∧ s.toStandby.pairSync = true ∧ s.toStandby.bit Reg.PAIR_IRQ 4 = true
      ∧ s.toStandby.bit Reg.PAIR_STATE 5 = s.bit Reg.PAIR_STATE 5 := by
  refine ⟨?_, ?_, ?_, ?_⟩
  · rw [State.pairState, State.fld_eq, State.toStandby_state h, putBit, bitsOf_putBits_apart _ _ _ _ _ _ (by decide) (by decide),
      bitsOf_putBits_apart _ _ _ _ _ _ (by decide) (by decide)]
    exact bitsOf_putBits_same _ _ _ _ (by decide)
  · rw [State.pairSync, State.bit_eq, State.toStandby_state h, bitOf_putBits _ _ _ _ _ (by decide)]
    exact bitOf_putBit_same _ _ _ (by decide)
  · rw [State.bit_eq, State.toStandby_rd _ (by decide), State.standbyShown, State.rd_count, if_neg (by decide), State.irqPair,
      State.irqAt_rd _ _ _ _ _ _ (by decide), if_pos rfl]
    exact bitOf_putBit_same _ _ _ (by decide)
  · rw [State.bit_eq, State.toStandby_state h, putBit, bitOf_putBits _ _ _ _ _ (by decide), bitOf_putBits _ _ _ _ _ (by decide),
      bitOf_putBits _ _ _ _ _ (by decide)]
    rfl

theorem State.mirrorUnit_joining {s : State} (h2 : s.pairState = 2) (hph : s.fld Reg.PAIR_STATE 16 2 = 3) (hp : s.pfailed = false)
    (hi : s.bit Reg.PAIR_INJ 0 = false) (u : MirrorUnit) (late : Nat) : s.mirrorUnit u true true late = (s.unitHeard true).unitAck u late := by
  have ht : s.injTest Reg.PAIR_INJ 0 true = true := by simp only [State.injTest, hi, Bool.bne_false]
  have hst : s.isStandby = false := by
    rw [State.isStandby, h2]
    rfl
  unfold State.mirrorUnit
  rw [hp, hst, h2, hph, ht]
  rfl

theorem State.unitAck_joining {s : State} (h : s.isStandby = false) (u : MirrorUnit) (late : Nat) :
    s.unitAck u late = (s.unitTaken u late).onlyIf ((s.unitTaken u late).pair.joined == 8) State.toStandby := by
  unfold State.unitAck
  rw [h]
  rfl

theorem State.unitTaken_shown (s : State) (u : MirrorUnit) (late : Nat) {b : Nat} (hb : b ∈ pairShown) :
    (s.unitTaken u late).rd b = s.rd b := by
  rw [← s.nvTake_shown hb u.warm u.user u.epochTally.toNat]
  unfold State.unitTaken
  generalize s.nvTake u.warm u.user u.epochTally.toNat = n
  dsimp only
  rw [State.rd_send, State.rd_wr, if_neg (pairShown_ne hb (by decide))]
  rfl

theorem State.unitTaken_sent (s : State) (u : MirrorUnit) (late : Nat) :
    (s.unitTaken u late).sent = s.sent ++ [⟨.mirrorAck, 3, 0, 0, leBytes 8 u.epoch.toNat⟩] := by
  rw [← (State.nvTake_keeps (k := 8659232) (warm := u.warm) (user := u.user) (tally := u.epochTally.toNat) rfl (Keeps.refl s)).sent_same rfl]
  unfold State.unitTaken
  generalize s.nvTake u.warm u.user u.epochTally.toNat = n
  rfl

theorem State.unitTaken_joined (s : State) (u : MirrorUnit) (late : Nat) : (s.unitTaken u late).pair.joined = s.pair.joined + 1 := by
  unfold State.unitTaken
  generalize s.nvTake u.warm u.user u.epochTally.toNat = n
  rfl

/-- The taken unit at a member that is not STANDBY: the eighth in a row makes it one. -/
theorem State.unitAck_joins {s : State} (h2 : s.pairState = 2) (u : MirrorUnit) (late : Nat) :
    (s.unitAck u late).pair.joined = s.pair.joined + 1 ∧ (s.unitAck u late).pair.last = some u
      ∧ (s.unitAck u late).sent = s.sent ++ [⟨.mirrorAck, 3, 0, 0, leBytes 8 u.epoch.toNat⟩]
      ∧ (s.unitAck u late).bit Reg.PAIR_STATE 5 = s.bit Reg.PAIR_STATE 5
      ∧ (s.unitAck u late).pairState = (if s.pair.joined = 7 then 3 else 2)
      ∧ (s.pair.joined = 7 → (s.unitAck u late).pairSync = true ∧ (s.unitAck u late).bit Reg.PAIR_IRQ 4 = true) := by
  have hst : s.isStandby = false := by
    rw [State.isStandby, h2]
    rfl
  have hw5 : (s.unitTaken u late).bit Reg.PAIR_STATE 5 = s.bit Reg.PAIR_STATE 5 := by
    rw [State.bit_eq, State.bit_eq, State.unitTaken_shown _ _ _ (by decide)]
  have hw2 : (s.unitTaken u late).pairState = 2 := by
    rw [State.pairState, State.fld_eq, State.unitTaken_shown _ _ _ (by decide)]
    exact h2
  have hjoined := s.unitTaken_joined u late
  have hlast := s.unitTaken_last u late
  have hsent := s.unitTaken_sent u late
  rw [State.unitAck_joining hst]
  generalize s.unitTaken u late = w at hw5 hw2 hjoined hlast hsent
  by_cases h7 : s.pair.joined = 7
  · have hcond : (w.pair.joined == 8) = true := by
      rw [hjoined, h7]
      rfl
    have hk : Keeps 65792 w w.toStandby := State.toStandby_keeps rfl (Keeps.refl w)
    obtain ⟨h3, hsync, hirq, hlink⟩ := State.toStandby_shows (s := w) (by rw [hw2]; decide)
    rw [hcond, State.onlyIf_true, if_pos h7]
    exact ⟨(congrArg PairState.joined (hk.pair_same rfl)).trans hjoined, (congrArg PairState.last (hk.pair_same rfl)).trans hlast,
      (hk.sent_same rfl).trans hsent, hlink.trans hw5, h3, fun _ => ⟨hsync, hirq⟩⟩
  · have hcond : (w.pair.joined == 8) = false := by
      rw [hjoined]
      exact beq_false_of_ne (by omega)
    rw [hcond, State.onlyIf_false, if_neg h7]
    exact ⟨hjoined, hlast, hsent, hw5, hw2, fun h => absurd h h7⟩

theorem mirrorUnit_joins (u : MirrorUnit) (late : BitVec 8) (s : State) (hs : s.supplied) (h2 : s.pairState = 2)
    (hph : s.fld Reg.PAIR_STATE 16 2 = 3) (hp : s.pfailed = false) (hi : s.bit Reg.PAIR_INJ 0 = false) :
    ∃ t, exec (.mirrorUnit u true true late) s = .next t ∧ t.pair.joined = s.pair.joined + 1 ∧ t.pair.last = some u
      ∧ t.sent = [⟨.mirrorAck, 3, 0, 0, leBytes 8 u.epoch.toNat⟩] ∧ t.bit Reg.PAIR_STATE 5 = true
      ∧ t.pairState = (if s.pair.joined = 7 then 3 else 2) ∧ (s.pair.joined = 7 → t.pairSync = true ∧ t.bit Reg.PAIR_IRQ 4 = true) := by
  have ht : exec (.mirrorUnit u true true late) s = .next (s.clearSent.mirrorUnit u true true late.toNat) :=
    show execMirrorUnit u true true late s = _ from State.act_supplied hs
  rw [State.mirrorUnit_joining (s := s.clearSent) h2 hph hp hi] at ht
  have hheard := s.clearSent.unitHeard_keeps true
  have hpair : (s.clearSent.unitHeard true).pair = s.pair := hheard.pair_same rfl
  have hsent : (s.clearSent.unitHeard true).sent = [] := hheard.sent_same rfl
  have hlink : (s.clearSent.unitHeard true).bit Reg.PAIR_STATE 5 = true := (s.clearSent.injRan Reg.PAIR_INJ 0).setLink_link true
  have hstate : (s.clearSent.unitHeard true).pairState = 2 := by
    refine (State.setLink_pairState _ true).trans ?_
    rw [State.pairState, State.fld_eq, State.injRan_rd _ _ _ _ (by decide) (by decide)]
    exact h2
  obtain ⟨hj, hl, hse, h5, hst, hsy⟩ := State.unitAck_joins hstate u late.toNat
  rw [hpair] at hj hst hsy
  rw [hsent] at hse
  exact ⟨_, ht, hj, hl, hse, h5.trans hlink, hst, hsy⟩

/-! ## HANDOVER -/

/-- The word of a HANDOVER. -/
def handoverWord (w : Word) (on : Bool) : Word := (w &&& 0x100#32) ||| BitVec.ofNat 32 (on.toNat * 2)

theorem handoverWord_bits (w : Word) (on : Bool) :
    bitOf (handoverWord w on) 0 = false ∧ bitOf (handoverWord w on) 1 = on ∧ bitOf (handoverWord w on) 8 = bitOf w 8 := by
  cases on <;> refine ⟨?_, ?_, ?_⟩ <;> simp [handoverWord, bitOf]

/-- A request to hand over, kept until the role changes. -/
def State.handoverAsked (s : State) (on : Bool) : State := { s with pair := { s.pair with handover := on || s.pair.handover } }

theorem State.pairCtrl_handover (s : State) {v : Word} {on : Bool} (h0 : bitOf v 0 = false) (h1 : bitOf v 1 = on) :
    s.pairCtrl v = (s.setBit Reg.PAIR_CTRL 8 (bitOf v 8)).handoverAsked on := by
  unfold State.pairCtrl
  rw [h0, h1]
  cases on <;> rfl

theorem handover_asked (src : Src) (on : Bool) (s : State) (hs : s.supplied) (hg : s.grants src Reg.PAIR_CTRL (handoverWord (s.rd Reg.PAIR_CTRL) on)) :
    ∃ t, exec (.handover src on) s = .next t ∧ t.answer.status = .ok ∧ t.pair = { s.pair with handover := on || s.pair.handover }
      ∧ t.bit Reg.PAIR_CTRL 8 = s.bit Reg.PAIR_CTRL 8 ∧ s.keepsRegs t (Reg.PAIR_CTRL :: hostRegs) ∧ s.keepsParts t (.pair :: hostParts) := by
  obtain ⟨h0, h1, h8⟩ := handoverWord_bits (s.rd Reg.PAIR_CTRL) on
  have heff := (s.clearSent.wordWrite_pairCtrl src.slot.val _).trans (State.pairCtrl_handover _ h0 h1)
  rw [h8] at heff
  have hxk : Keeps 8396875 s.clearSent ((s.clearSent.setBit Reg.PAIR_CTRL 8 (bitOf (s.rd Reg.PAIR_CTRL) 8)).handoverAsked on) :=
    Keeps.set_pair rfl (State.setBit_keeps rfl (Keeps.refl _))
  obtain ⟨t, ht, hok, hregs, hw, hk⟩ := State.write1_answered (k := 8396875) hs hg (by decide) (by decide) heff (by decide) hxk rfl
  have hrd (b : Nat) : ((s.clearSent.setBit Reg.PAIR_CTRL 8 (bitOf (s.rd Reg.PAIR_CTRL) 8)).handoverAsked on).rd b
      = (s.clearSent.setBit Reg.PAIR_CTRL 8 (bitOf (s.rd Reg.PAIR_CTRL) 8)).rd b := rfl
  have hexec : exec (.handover src on) s = .next t := by
    rw [← ht, State.act_supplied hs]
    exact show execHandover src on s = _ from State.act_supplied hs
  refine ⟨t, hexec, hok, hw.pair_same rfl, ?_,
    State.keepsRegs_answered (l := [Reg.PAIR_CTRL]) hregs (fun b hb => ?_) (by decide), hk.parts _ (fun p => by cases p <;> decide)⟩
  · rw [State.bit_eq, hregs _ (by decide), hrd, State.rd_setBit, if_pos rfl]
    exact bitOf_putBit_same _ _ _ (by decide)
  · rw [hrd, State.rd_setBit, if_neg (fun e => hb (List.mem_singleton.mpr e)), State.rd_clearSent]

/-- Settles O36, from the begin of a join, the bulk copy and the run of units. -/
theorem pairJoin : Obligations.PairJoin := by
  unfold Obligations.PairJoin
  exact ⟨join_begins, autojoin_begins, autojoin_idle, bulkDone_takes, mirrorUnit_joins, handover_asked⟩

end Sys2Proof.Machine

/-!
What the operations of the network clock (R354, R359 to R366) leave: the clock is never stepped in LOCKED or HOLDOVER, and the
domains stay.
-/

namespace Sys2Proof.Machine

/-! ## Operations that leave the domains -/

/-- The registers that a change of lead, rate or lock may change, but for PTP_STATE. -/
def calmRegs : List Nat := [Reg.PTP_RATE, Reg.PTP_STAT, Reg.PTP_CNT_SWITCH, Reg.PTP_CNT_HOLDOVER, Reg.RTC_TAIOFS, Reg.PTP_INJ]

/-- The clock runs on, LOCKED or in HOLDOVER. -/
def State.clockOn (s : State) : Prop := s.ptpState = 2 ∨ s.ptpState = 3

/-- From `s` to `t` the clock and the domains stay, and a clock that runs on still does. -/
structure State.Calm (s t : State) : Prop where
  clk : t.ptp.clk = s.ptp.clk
  dom0 : t.ptp.dom0 = s.ptp.dom0
  dom1 : t.ptp.dom1 = s.ptp.dom1
  regs : ∀ b ∉ Reg.PTP_STATE :: Reg.PTP_IRQ :: calmRegs ++ spoorRegs, t.rd b = s.rd b
  run : s.clockOn → t.clockOn

theorem State.Calm.refl (s : State) : State.Calm s s := ⟨rfl, rfl, rfl, fun _ _ => rfl, id⟩

theorem State.Calm.trans {s t u : State} (a : State.Calm s t) (b : State.Calm t u) : State.Calm s u :=
  ⟨b.clk.trans a.clk, b.dom0.trans a.dom0, b.dom1.trans a.dom1, fun r hr => (b.regs r hr).trans (a.regs r hr), fun h => b.run (a.run h)⟩

theorem State.Calm.dom {s t : State} (h : State.Calm s t) (d : Nat) : t.dom d = s.dom d := by
  rw [State.dom, State.dom, h.dom0, h.dom1]

theorem State.clockOn_congr {s t : State} (h : t.rd Reg.PTP_STATE = s.rd Reg.PTP_STATE) : s.clockOn → t.clockOn := by
  unfold State.clockOn
  rw [State.ptpState, State.ptpState, State.fld_eq, State.fld_eq, h]
  exact id

/-- The network clock's own state and PTP_STATE stay. -/
theorem State.Calm.of_same {s t : State} (hp : t.ptp = s.ptp) (hs : t.rd Reg.PTP_STATE = s.rd Reg.PTP_STATE)
    (hr : ∀ b ∉ Reg.PTP_STATE :: Reg.PTP_IRQ :: calmRegs ++ spoorRegs, t.rd b = s.rd b) : State.Calm s t :=
  ⟨by rw [hp], by rw [hp], by rw [hp], hr, State.clockOn_congr hs⟩

theorem not_mem_calm {a b : Nat} (ha : a ∈ calmRegs) (hb : b ∉ Reg.PTP_STATE :: Reg.PTP_IRQ :: calmRegs ++ spoorRegs) : b ≠ a :=
  fun e => hb (e ▸ List.mem_append_left _ (List.mem_cons_of_mem _ (List.mem_cons_of_mem _ ha)))

theorem calm_spoor {b : Nat} (hb : b ∉ Reg.PTP_STATE :: Reg.PTP_IRQ :: calmRegs ++ spoorRegs) : b ∉ spoorRegs :=
  fun h => hb (List.mem_append_right _ h)

theorem state_not_calm {a : Nat} (ha : a ∈ calmRegs) : Reg.PTP_STATE ≠ a := fun e => absurd (e ▸ ha) (by decide)

section
variable {s t : State} (h : State.Calm s t)
include h

theorem State.Calm.wr {a : Nat} (ha : a ∈ calmRegs) (v : Word) : State.Calm s (t.wr a v) :=
  h.trans (.of_same rfl (by rw [State.rd_wr, if_neg (state_not_calm ha)]) fun b hb => by rw [State.rd_wr, if_neg (not_mem_calm ha hb)])

theorem State.Calm.setFld {a : Nat} (ha : a ∈ calmRegs) (lo n v : Nat) : State.Calm s (t.setFld a lo n v) :=
  h.trans (.of_same rfl (by rw [State.rd_setFld, if_neg (state_not_calm ha)])
    fun b hb => by rw [State.rd_setFld, if_neg (not_mem_calm ha hb)])

theorem State.Calm.setBit {a : Nat} (ha : a ∈ calmRegs) (i : Nat) (v : Bool) : State.Calm s (t.setBit a i v) :=
  h.trans (.of_same rfl (by rw [State.rd_setBit, if_neg (state_not_calm ha)])
    fun b hb => by rw [State.rd_setBit, if_neg (not_mem_calm ha hb)])

theorem State.Calm.count {a : Nat} (ha : a ∈ calmRegs) : State.Calm s (t.count a) :=
  h.trans (.of_same rfl (by rw [State.rd_count, if_neg (state_not_calm ha)]) fun b hb => by rw [State.rd_count, if_neg (not_mem_calm ha hb)])

theorem State.Calm.irqPtp (i : Nat) : State.Calm s (t.irqPtp i) := by
  refine h.trans (.of_same ((State.irqPtp_keeps (k := 256) rfl (Keeps.refl t)).ptp_same rfl) ?_ fun b hb => ?_)
  · rw [State.irqPtp, State.irqAt_rd _ _ _ _ _ _ (by decide), if_neg (by decide)]
  · have hne : b ≠ Reg.PTP_IRQ := fun e => hb (by rw [e]; decide)
    rw [State.irqPtp, State.irqAt_rd _ _ _ _ _ _ (not_pin_of_spoor (calm_spoor hb)), if_neg hne]

theorem State.Calm.raiseEv (code sev : Nat) (data : List Byte) : State.Calm s (t.raiseEv code sev data) :=
  h.trans (.of_same ((State.raiseEv_keeps (k := 384) rfl (Keeps.refl t)).ptp_same rfl) (State.raiseEv_rd _ _ _ _ _ (by decide))
    fun b hb => State.raiseEv_rd _ _ _ _ _ (calm_spoor hb))

theorem State.Calm.injRan (i : Nat) : State.Calm s (t.injRan Reg.PTP_INJ i) :=
  h.trans (.of_same ((State.injRan_keeps (k := 256) rfl (Keeps.refl t)).ptp_same rfl) (State.injRan_rd _ _ _ _ (by decide) (by decide))
    fun b hb => State.injRan_rd _ _ _ _ (not_mem_calm (by decide) hb) (fun e => calm_spoor hb (e ▸ by decide)))

theorem State.Calm.roundOpen (q : Rat) : State.Calm s (t.roundOpen q).2 :=
  h.trans (.of_same ((State.roundOpen_keeps (k := 0) rfl (Keeps.refl t)).ptp_same rfl) (State.rd_congr (t.roundOpen_regs q) _)
    fun b _ => State.rd_congr (t.roundOpen_regs q) b)

theorem State.Calm.onlyIf {c : Bool} {f : State → State} (hf : ∀ u, State.Calm s u → State.Calm s (f u)) : State.Calm s (t.onlyIf c f) := by
  unfold State.onlyIf
  split
  · exact hf t h
  · exact h

/-- A part of the network clock's state other than the clock and the domains. -/
theorem State.Calm.setPtp {v : PtpState} (hc : v.clk = t.ptp.clk) (h0 : v.dom0 = t.ptp.dom0) (h1 : v.dom1 = t.ptp.dom1) :
    State.Calm s { t with ptp := v } :=
  h.trans ⟨hc, h0, h1, fun _ _ => rfl, id⟩

/-- A flag of PTP_STATE beside the state. -/
theorem State.Calm.stateFld {lo : Nat} (n v : Nat) (hlo : 2 ≤ lo) : State.Calm s (t.setFld Reg.PTP_STATE lo n v) := by
  refine h.trans ⟨rfl, rfl, rfl, fun b hb => ?_, fun g => ?_⟩
  · rw [State.rd_setFld, if_neg (fun e => hb (by rw [e]; decide))]
  · have hsame : (t.setFld Reg.PTP_STATE lo n v).ptpState = t.ptpState := by
      rw [State.ptpState, State.fld_eq, State.rd_setFld, if_pos rfl, bitsOf_putBits_apart _ _ _ _ _ _ (by decide) (Or.inl hlo)]
      rfl
    rw [State.clockOn, hsame]
    exact g

theorem State.Calm.stateBit {i : Nat} (v : Bool) (hi : 2 ≤ i) : State.Calm s (t.setBit Reg.PTP_STATE i v) := h.stateFld 1 v.toNat hi

/-- The clock enters LOCKED or HOLDOVER. -/
theorem State.Calm.enter {k : Nat} (hk : k = 2 ∨ k = 3) : State.Calm s (t.setFld Reg.PTP_STATE 0 2 k) := by
  refine h.trans ⟨rfl, rfl, rfl, fun b hb => ?_, fun _ => ?_⟩
  · rw [State.rd_setFld, if_neg (fun e => hb (by rw [e]; decide))]
  · rw [State.clockOn, State.ptpState, State.fld_eq, State.rd_setFld, if_pos rfl, bitsOf_putBits_same _ _ _ _ (by decide)]
    omega

theorem State.Calm.ptpRate : State.Calm s t.ptpRate := (h.roundOpen _).wr (by decide) _

theorem State.Calm.rampEnd : State.Calm s t.rampEnd := by
  unfold State.rampEnd
  dsimp only
  refine .stateBit (i := 4) (.ptpRate (.setPtp (t := t) h ?_ ?_ ?_)) _ (by decide)
  all_goals rfl

theorem State.Calm.setLock (v : Bool) : State.Calm s (t.setLock v) := by
  unfold State.setLock
  split
  · exact h
  · exact ((h.stateBit v (by decide)).irqPtp 1).onlyIf fun u g => (g.setBit (by decide) 2 true).trans (.of_same rfl rfl fun _ _ => rfl)

theorem State.Calm.rampStart (d : Nat) : State.Calm s (t.rampStart d) := by
  unfold State.rampStart
  dsimp only
  refine .stateBit (i := 4) (.ptpRate (.setPtp (t := t) h ?_ ?_ ?_)) _ (by decide)
  all_goals rfl

theorem State.Calm.taiCopy (w : Word) : State.Calm s (t.taiCopy w) := h.onlyIf fun _ g => g.setFld (by decide) 0 16 _

theorem State.Calm.taiLead (d : Nat) : State.Calm s (t.taiLead d) := by
  unfold State.taiLead
  exact h.onlyIf fun _ g => g.taiCopy _

theorem State.Calm.leadBy (d : Nat) : State.Calm s (t.leadBy d) := by
  unfold State.leadBy
  dsimp only
  refine .rampStart (.setPtp (t := ((t.taiLead d).setFld Reg.PTP_STATE 0 2 2).setFld Reg.PTP_STATE 2 1 d) ?_ ?_ ?_ ?_) d
  · exact ((h.taiLead d).enter (Or.inl rfl)).stateFld 1 d (by decide)
  all_goals rfl

theorem State.Calm.switchMarks : State.Calm s t.switchMarks := ((h.setBit (by decide) 0 true).count (by decide)).irqPtp 0

theorem State.Calm.switchTo (d loss : Nat) : State.Calm s (t.switchTo d loss) :=
  ((((h.leadBy d).switchMarks).roundOpen _).raiseEv 0x1201 2 _)

theorem State.Calm.holdover : State.Calm s t.holdover := by
  unfold State.holdover
  dsimp only
  refine .setLock (.irqPtp (.count (.setBit (.enter (.ptpRate (.setPtp (t := t) h ?_ ?_ ?_)) (Or.inr rfl)) (by decide) 1 true) (by decide)) 2) true
  all_goals rfl

theorem State.Calm.leadLost (d loss : Nat) : State.Calm s (t.leadLost d loss) := by
  unfold State.leadLost
  split_ifs
  · exact h.switchTo _ _
  · exact h.setPtp rfl rfl rfl
  · exact h.holdover

theorem State.Calm.servo (e : Rat) : State.Calm s (t.servo e) := by
  unfold State.servo
  exact .ptpRate (.setPtp h rfl rfl rfl)

theorem State.Calm.lockCount (e : Rat) : State.Calm s (t.lockCount e) := by
  unfold State.lockCount
  dsimp only
  refine .onlyIf (.setPtp (t := t) h ?_ ?_ ?_) fun _ g => g.setLock true
  all_goals rfl

end

/-! ## Operations of one domain -/

/-- The registers of a domain that its own messages and time-outs change, its counts apart. -/
def domRegs (d : Nat) : List Nat := [Reg.PTP_DOM_d_STATE d, Reg.PTP_DOM_d_GM_LO d, Reg.PTP_DOM_d_GM_HI d, Reg.PTP_DOM_d_UTCOFS d,
  Reg.PTP_DOM_d_OFS_NS d, Reg.PTP_DOM_d_DELAY_NS d, Reg.PTP_DOM_d_CNT_SYNC d, Reg.PTP_DOM_d_CNT_ANN d, Reg.PTP_DOM_d_CNT_DREQ d,
  Reg.PTP_DOM_d_CNT_DRESP d, Reg.PTP_DOM_d_CNT_DROP d, Reg.PTP_DOM_d_CNT_DELAYREJ d]

/-- From `s` to `t` the other domain stays, and a clock that runs on is not stepped. -/
structure State.Moved (d : Nat) (s t : State) : Prop where
  other : t.dom (otherDom d) = s.dom (otherDom d)
  steady : s.clockOn → t.ptp.clk = s.ptp.clk ∧ t.rd Reg.PTP_CNT_STEP = s.rd Reg.PTP_CNT_STEP ∧ t.clockOn

theorem State.Moved.refl (d : Nat) (s : State) : State.Moved d s s := ⟨rfl, fun h => ⟨rfl, rfl, h⟩⟩

theorem State.Moved.trans {d : Nat} {s t u : State} (a : State.Moved d s t) (b : State.Moved d t u) : State.Moved d s u := by
  refine ⟨b.other.trans a.other, fun h => ?_⟩
  obtain ⟨hclk, hcnt, hon⟩ := a.steady h
  obtain ⟨hclk', hcnt', hon'⟩ := b.steady hon
  exact ⟨hclk'.trans hclk, hcnt'.trans hcnt, hon'⟩

theorem State.Moved.calm {d : Nat} {s t u : State} (a : State.Moved d s t) (b : State.Calm t u) : State.Moved d s u :=
  a.trans ⟨b.dom _, fun h => ⟨b.clk, b.regs _ (by decide), b.run h⟩⟩

/-- The registers of a domain's row are none of the clock's. -/
theorem domRegs_apart {d a : Nat} (ha : a ∈ domRegs d) : Reg.PTP_STATE ≠ a ∧ Reg.PTP_CNT_STEP ≠ a := by
  have hle : 0x5A100 ≤ a := by
    simp only [domRegs, List.mem_cons, List.not_mem_nil, or_false] at ha
    rcases ha with h | h | h | h | h | h | h | h | h | h | h | h <;> rw [h] <;> dsimp only [Reg.PTP_DOM_d_STATE, Reg.PTP_DOM_d_GM_LO,
      Reg.PTP_DOM_d_GM_HI, Reg.PTP_DOM_d_UTCOFS, Reg.PTP_DOM_d_OFS_NS, Reg.PTP_DOM_d_DELAY_NS, Reg.PTP_DOM_d_CNT_SYNC,
      Reg.PTP_DOM_d_CNT_ANN, Reg.PTP_DOM_d_CNT_DREQ, Reg.PTP_DOM_d_CNT_DRESP, Reg.PTP_DOM_d_CNT_DROP, Reg.PTP_DOM_d_CNT_DELAYREJ] <;> omega
  exact ⟨Nat.ne_of_lt (Nat.lt_of_lt_of_le (by decide) hle), Nat.ne_of_lt (Nat.lt_of_lt_of_le (by decide) hle)⟩

theorem State.dom_congr {s t : State} (h : t.ptp = s.ptp) (d : Nat) : t.dom d = s.dom d := by rw [State.dom, State.dom, h]

theorem otherDom_zero (d : Nat) : otherDom d = 0 ↔ d ≠ 0 := by
  rw [otherDom]
  omega

/-- A domain put in its place. -/
def PtpState.withDom (p : PtpState) (d : Nat) (x : PtpDomain) : PtpState := if d = 0 then { p with dom0 := x } else { p with dom1 := x }

theorem State.putDom_ptp (s : State) (d : Nat) (x : PtpDomain) : (s.putDom d x).ptp = s.ptp.withDom d x := by
  unfold State.putDom
  dsimp only
  cases x.master <;> rfl

theorem State.putDom_rd (s : State) (d : Nat) (x : PtpDomain) {b : Nat} (hb : b ≠ Reg.PTP_DOM_d_STATE d) : (s.putDom d x).rd b = s.rd b := by
  unfold State.putDom
  dsimp only
  cases x.master with
  | none => exact (State.rd_setFld ..).trans (if_neg hb)
  | some m => exact (State.rd_setFld ..).trans ((if_neg hb).trans ((State.rd_setFld ..).trans (if_neg hb)))

theorem State.dom_putDom (s : State) (d : Nat) (x : PtpDomain) : (s.putDom d x).dom d = x := by
  rw [State.dom, State.putDom_ptp, PtpState.withDom]
  split <;> rfl

theorem State.dom_putDom_other (s : State) (d : Nat) (x : PtpDomain) : (s.putDom d x).dom (otherDom d) = s.dom (otherDom d) := by
  rw [State.dom, State.dom, State.putDom_ptp, PtpState.withDom]
  by_cases h : d = 0
  · rw [if_neg (fun e => (otherDom_zero d).mp e h), if_neg (fun e => (otherDom_zero d).mp e h), if_pos h]
  · rw [if_pos ((otherDom_zero d).mpr h), if_pos ((otherDom_zero d).mpr h), if_neg h]

section
variable {d : Nat} {s t : State} (h : State.Moved d s t)
include h

/-- The state of the network clock stays, and registers other than the clock's own change. -/
theorem State.Moved.of_same {u : State} (hp : u.ptp = t.ptp) (hr : ∀ b ∈ [Reg.PTP_STATE, Reg.PTP_CNT_STEP], u.rd b = t.rd b) :
    State.Moved d s u :=
  h.trans ⟨State.dom_congr hp _, fun hon => ⟨by rw [hp], hr _ (by decide), State.clockOn_congr (hr _ (by decide)) hon⟩⟩

theorem State.Moved.wr {a : Nat} (ha : a ∈ domRegs d) (v : Word) : State.Moved d s (t.wr a v) :=
  h.of_same rfl (by
    simp only [List.mem_cons, List.not_mem_nil, or_false, forall_eq_or_imp, forall_eq, State.rd_wr, domRegs_apart ha, if_false, and_self])

theorem State.Moved.setFld {a : Nat} (ha : a ∈ domRegs d) (lo n v : Nat) : State.Moved d s (t.setFld a lo n v) :=
  h.of_same rfl (by
    simp only [List.mem_cons, List.not_mem_nil, or_false, forall_eq_or_imp, forall_eq, State.rd_setFld, domRegs_apart ha, if_false, and_self])

theorem State.Moved.count {a : Nat} (ha : a ∈ domRegs d) : State.Moved d s (t.count a) :=
  h.of_same rfl (by
    simp only [List.mem_cons, List.not_mem_nil, or_false, forall_eq_or_imp, forall_eq, State.rd_count, domRegs_apart ha, if_false, and_self])

theorem State.Moved.putDom (x : PtpDomain) : State.Moved d s (t.putDom d x) := by
  obtain ⟨hne, hcnt⟩ := domRegs_apart (d := d) (a := Reg.PTP_DOM_d_STATE d) (List.mem_cons_self ..)
  refine h.trans ⟨t.dom_putDom_other d x, fun hon => ⟨?_, t.putDom_rd d x hcnt, State.clockOn_congr (t.putDom_rd d x hne) hon⟩⟩
  rw [State.putDom_ptp, PtpState.withDom]
  split <;> rfl

theorem State.Moved.onlyIf {c : Bool} {f : State → State} (hf : ∀ u, State.Moved d s u → State.Moved d s (f u)) :
    State.Moved d s (t.onlyIf c f) := by
  unfold State.onlyIf
  split
  · exact hf t h
  · exact h

theorem State.Moved.irqPtp (i : Nat) : State.Moved d s (t.irqPtp i) := h.calm ((State.Calm.refl t).irqPtp i)

theorem State.Moved.leadBy (e : Nat) : State.Moved d s (t.leadBy e) := h.calm ((State.Calm.refl t).leadBy e)

theorem State.Moved.leadLost (e loss : Nat) : State.Moved d s (t.leadLost e loss) := h.calm ((State.Calm.refl t).leadLost e loss)

/-- In ACQUIRE the clock may be stepped, and the domains stay. -/
theorem State.Moved.acquireStep (hone : t.ptpState = 1) (e : Nat) : State.Moved d s (t.acquireStep e) := by
  have hcalm : State.Calm (t.ptpStepBy (-(t.lastOfs e))) (t.acquireStep e) := by
    unfold State.acquireStep
    dsimp only
    refine .setPtp (t := (((t.ptpStepBy (-(t.lastOfs e))).taiLead e).setFld Reg.PTP_STATE 0 2 2).setFld Reg.PTP_STATE 2 1 e) ?_ ?_ ?_ ?_
    · exact (((State.Calm.refl _).taiLead e).enter (Or.inl rfl)).stateFld 1 e (by decide)
    all_goals rfl
  have hdom : (t.ptpStepBy (-(t.lastOfs e))).dom (otherDom d) = t.dom (otherDom d) := rfl
  refine h.trans ⟨(hcalm.dom _).trans hdom, fun hon => ?_⟩
  rcases hon with hon | hon <;> omega

/-- A domain that qualifies takes the lead by a ramp, and steps the clock in ACQUIRE alone. -/
theorem State.Moved.qualify : State.Moved d s (t.qualify d) := by
  have h1 := (h.putDom { t.dom d with qual := true, qualAt := t.ptp.at_, beyond := 0, jumped := false }).irqPtp 3
  unfold State.qualify
  dsimp only
  split_ifs with hone
  · exact h1.acquireStep hone d
  · exact h1.leadBy d
  · exact h1.leadBy d
  · exact h1

theorem State.Moved.domLoss (loss : Nat) : State.Moved d s (t.domLoss d loss) := by
  have h1 := h.setFld (a := Reg.PTP_DOM_d_STATE d) (List.mem_cons_self ..) 4 3 loss
  unfold State.domLoss
  dsimp only
  split
  · exact (((h1.putDom _).irqPtp 3).onlyIf fun u g => g.calm ((State.Calm.refl u).setBit (by decide) 3 true)).onlyIf
      fun _ g => g.leadLost d loss
  · exact h1.onlyIf fun _ g => g.leadLost d loss

/-- An offset sample is kept and used: the servo turns the rate, and the clock runs on. -/
theorem State.Moved.ptpSample (ofs : Rat) : State.Moved d s (t.ptpSample d ofs) := by
  unfold State.ptpSample
  lift_lets
  extract_lets e leads raw past s0 x jump x1 r s1
  have h0 : State.Moved d s s0 := h.onlyIf fun u g => g.calm ((State.Calm.refl u).injRan 1)
  have h1 : State.Moved d s s1 := ((h0.calm ((State.Calm.refl _).roundOpen ofs)).putDom x1).wr (by simp [domRegs]) _
  split
  · exact (h1.putDom _).domLoss _
  · split
    · split
      · exact h1.qualify
      · exact h1
    · split
      · exact h1.calm (((State.Calm.refl _).servo _).lockCount _)
      · refine h1.onlyIf fun u g => g.calm (.setPtp (t := u) (.refl u) ?_ ?_ ?_)
        all_goals rfl

theorem State.Moved.ptpDiff (diff : Rat) : State.Moved d s (t.ptpDiff d diff) := by
  have h1 := h.putDom { t.dom d with lastDiff := some diff, twoStep := none }
  unfold State.ptpDiff
  dsimp only
  split
  · exact h1
  · exact (h1.calm ((State.Calm.refl _).roundOpen _)).ptpSample _

theorem State.Moved.showMaster (m : PtpMaster) : State.Moved d s (t.showMaster d m) := by
  unfold State.showMaster
  dsimp only
  exact (((h.wr (by simp [domRegs]) _).wr (by simp [domRegs]) _).wr (by simp [domRegs]) _).onlyIf
    fun u g => g.calm ((State.Calm.refl u).taiCopy m.utc)

theorem State.Moved.selectMaster : State.Moved d s (t.selectMaster d) := by
  unfold State.selectMaster
  dsimp only
  split
  · exact h
  · exact ((h.putDom _).showMaster _).onlyIf fun _ g => g.domLoss 3

theorem State.Moved.delaySample (v : Rat) : State.Moved d s (t.delaySample d v) := by
  unfold State.delaySample
  dsimp only
  split
  · exact h.count (by simp [domRegs])
  · exact ((h.putDom _).calm ((State.Calm.refl _).roundOpen _)).wr (by simp [domRegs]) _

theorem State.Moved.delayPair (x : DelayReq) : State.Moved d s (t.delayPair d x) := by
  unfold State.delayPair
  split
  · exact (h.putDom _).delaySample _
  · exact h.putDom _
  · exact h.putDom _

theorem State.Moved.delaySync (seq : Nat) (diff : Rat) : State.Moved d s (t.delaySync d seq diff) := by
  unfold State.delaySync
  split
  · split
    · exact h.delayPair _
    · exact h
  · exact h

theorem State.Moved.ifMaster {p : Nat} {m : List Byte} {f : State → State} (hf : State.Moved d s (f t)) :
    State.Moved d s (t.ifMaster d p m f) := by
  unfold State.ifMaster
  split
  · exact hf
  · exact h.count (by simp [domRegs])

end

end Sys2Proof.Machine

/-!
The running of the network clock (R354) and its messages, and what its time-outs leave of a clock that runs on (R359, R360,
R363), which settles O25.
-/

namespace Sys2Proof.Machine

/-! ## The clock runs on -/

theorem State.rampEnd_rd (s : State) {b : Nat} (h : b ≠ Reg.PTP_RATE) :
    s.rampEnd.rd b = if b = Reg.PTP_STATE then putBit (s.rd b) 4 false else s.rd b := by
  have hrate (u : State) : u.ptpRate.rd b = u.rd b := by
    rw [State.ptpRate, State.rd_wr, if_neg h]
    exact State.rd_congr (u.roundOpen_regs _) b
  unfold State.rampEnd
  dsimp only
  rw [State.rd_setBit]
  split
  · next e => rw [← e, hrate]; rfl
  · rw [hrate]; rfl

/-- The clock runs within one rate, or a ramp ends on the way. -/
theorem State.ptpTo_cases (s : State) (t : Rat) : ∃ a b, s.ptpTo t = s.clkRun a ∨ s.ptpTo t = ((s.clkRun a).rampEnd).clkRun b := by
  unfold State.ptpTo
  lift_lets
  extract_lets dt left
  split
  · exact ⟨dt, 0, Or.inl rfl⟩
  · split
    · exact ⟨left, dt - left, Or.inr rfl⟩
    · exact ⟨dt, 0, Or.inl rfl⟩

theorem State.ptpTo_rd (s : State) (t : Rat) {b : Nat} (h1 : b ≠ Reg.PTP_RATE) (h2 : b ≠ Reg.PTP_STATE) : (s.ptpTo t).rd b = s.rd b := by
  obtain ⟨x, y, h | h⟩ := s.ptpTo_cases t <;> rw [h]
  · rfl
  · exact ((s.clkRun x).rampEnd_rd h1).trans (if_neg h2)

/-- The running of the clock ends a ramp, and leaves the rest of PTP_STATE. -/
theorem State.ptpTo_state (s : State) (t : Rat) : (s.ptpTo t).rd Reg.PTP_STATE = s.rd Reg.PTP_STATE
    ∨ (s.ptpTo t).rd Reg.PTP_STATE = putBit (s.rd Reg.PTP_STATE) 4 false := by
  obtain ⟨x, y, h | h⟩ := s.ptpTo_cases t <;> rw [h]
  · exact Or.inl rfl
  · exact Or.inr (((s.clkRun x).rampEnd_rd (by decide)).trans (if_pos rfl))

theorem State.ptpTo_dom (s : State) (t : Rat) (d : Nat) : (s.ptpTo t).dom d = s.dom d := by
  obtain ⟨x, y, h | h⟩ := s.ptpTo_cases t <;> rw [h]
  · rfl
  · exact ((State.Calm.refl (s.clkRun x)).rampEnd).dom d

theorem State.ptpSync_rd (s : State) {b : Nat} (h1 : b ≠ Reg.PTP_RATE) (h2 : b ≠ Reg.PTP_STATE) : s.ptpSync.rd b = s.rd b := s.ptpTo_rd _ h1 h2

theorem State.ptpSync_dom (s : State) (d : Nat) : s.ptpSync.dom d = s.dom d := s.ptpTo_dom _ d

theorem State.ptpSync_ptpState (s : State) : s.ptpSync.ptpState = s.ptpState := by
  rw [State.ptpState, State.ptpState, State.fld_eq, State.fld_eq]
  rcases s.ptpTo_state (s.oscAt 0) with h | h
  · exact congrArg (fun w => bitsOf w 0 2) h
  · exact (congrArg (fun w => bitsOf w 0 2) h).trans (bitsOf_putBits_apart _ _ _ _ _ _ (by decide) (by decide))

/-! ## Beside the frame that brought it -/

/-- What a port's frames and charges have come to. -/
def State.onNet (s : State) (e : EthState) (l : List Nat) : State := { s with eth := e, used := l }

section
variable (s : State) (e : EthState) (l : List Nat)

theorem State.roundOpen_onNet (q : Rat) : (s.onNet e l).roundOpen q = ((s.roundOpen q).1, (s.roundOpen q).2.onNet e l) := by
  unfold State.roundOpen
  split <;> rfl

theorem State.ptpRate_onNet : (s.onNet e l).ptpRate = s.ptpRate.onNet e l := by
  unfold State.ptpRate
  dsimp only
  rw [show (s.onNet e l).ptpSum = s.ptpSum from rfl, State.roundOpen_onNet]
  rfl

theorem State.rampEnd_onNet : (s.onNet e l).rampEnd = s.rampEnd.onNet e l := by
  unfold State.rampEnd
  exact congrArg (fun u : State => u.setBit Reg.PTP_STATE 4 false)
    (State.ptpRate_onNet { s with ptp := { s.ptp with ramp := 0, rampTerm := 0 } } e l)

theorem State.ptpTo_onNet (t : Rat) : (s.onNet e l).ptpTo t = (s.ptpTo t).onNet e l := by
  unfold State.ptpTo
  rw [show (s.onNet e l).ptp = s.ptp from rfl, show (s.onNet e l).rampRate = s.rampRate from rfl]
  lift_lets
  extract_lets dt left
  split
  · rfl
  · split
    · exact congrArg (fun u : State => u.clkRun (dt - left)) (State.rampEnd_onNet (s.clkRun left) e l)
    · rfl

theorem State.ptpSync_onNet : (s.onNet e l).ptpSync = s.ptpSync.onNet e l := s.ptpTo_onNet e l _

end

/-- What a message does once its frame has been counted. -/
def State.ptpHear (s : State) (p : Nat) (m : List Byte) (kind : Nat) (f : Nat → State → State) : State :=
  match s.ptpDomOf m with
  | none => s.count Reg.PTP_CNT_NODOM
  | some d =>
    if !(s.fld (Reg.PTP_DOM_d_CFG d) 9 2).testBit p then s
    else if ptpAccepted m kind then f d s else s.count (Reg.PTP_DOM_d_CNT_DROP d)

/-- A message on a port that carries PTP is heard when the clock has been brought to the tick. -/
theorem State.ptpMessage_heard {s : State} {p : Nat} (ha : (s.ethAccept p).2 = true) (hp : p ≠ 2) (hb : s.bit (Reg.ETH_PORT_p_CFG p) 2 = true)
    (hc : s.bit Reg.PTP_CTRL 0 = true) (m : List Byte) (kind : Nat) (f : Nat → State → State) :
    ∃ e l, s.ptpMessage p m kind f = (s.ptpSync.onNet e l).ptpHear p m kind f := by
  obtain ⟨l, hl⟩ := (s.frameCounted p).charge_withUsed classNet resFab 1
  refine ⟨(s.frameCounted p).eth, l, (State.ethTake_taken _ ha).trans ?_⟩
  dsimp only
  rw [if_neg (by rw [show (s.frameCounted p).bit (Reg.ETH_PORT_p_CFG p) 2 = true from hb, show (s.frameCounted p).bit Reg.PTP_CTRL 0 = true from hc]
                 simpa using hp), hl]
  exact congrArg (fun u : State => u.ptpHear p m kind f) (s.ptpSync_onNet (s.frameCounted p).eth l)

/-! ## A clock that is not stepped -/

/-- The clock is where it was or where the oscillator and RATE took it, was not stepped, and runs on. -/
structure State.Steady (s t : State) : Prop where
  clk : t.ptp.clk = s.ptp.clk ∨ t.ptp.clk = s.ptpSync.ptp.clk
  step : t.rd Reg.PTP_CNT_STEP = s.rd Reg.PTP_CNT_STEP
  run : t.clockOn

theorem State.Steady.synced {s t : State} {d : Nat} {e : EthState} {l : List Nat} (hon : s.clockOn)
    (h : State.Moved d (s.ptpSync.onNet e l) t) : State.Steady s t := by
  have hv : (s.ptpSync.onNet e l).clockOn := by
    have hstate : (s.ptpSync.onNet e l).ptpState = s.ptpState := s.ptpSync_ptpState
    rw [State.clockOn, hstate]
    exact hon
  obtain ⟨hclk, hcnt, hrun⟩ := h.steady hv
  exact ⟨Or.inr hclk, hcnt.trans (s.ptpSync_rd (by decide) (by decide)), hrun⟩

theorem State.Steady.moved {s t : State} {d : Nat} (hon : s.clockOn) (h : State.Moved d s.ptpSync t) : State.Steady s t :=
  State.Steady.synced (e := s.ptpSync.eth) (l := s.ptpSync.used) hon h

theorem State.Steady.same {s t : State} (hon : s.clockOn) (hp : t.ptp = s.ptp) (hr : ∀ b ∈ [Reg.PTP_STATE, Reg.PTP_CNT_STEP], t.rd b = s.rd b) :
    State.Steady s t :=
  ⟨Or.inl (by rw [hp]), hr _ (by decide), State.clockOn_congr (hr _ (by decide)) hon⟩

theorem State.ptpHear_moved {p kind : Nat} {m : List Byte} {f : Nat → State → State} (hf : ∀ d u, State.Moved d u (f d u)) (v : State) :
    ∃ d, State.Moved d v (v.ptpHear p m kind f) := by
  unfold State.ptpHear
  split
  · refine ⟨0, (State.Moved.refl 0 v).of_same rfl ?_⟩
    simp only [List.mem_cons, List.not_mem_nil, or_false, forall_eq_or_imp, forall_eq, State.rd_count, (by decide : Reg.PTP_STATE ≠ Reg.PTP_CNT_NODOM),
      (by decide : Reg.PTP_CNT_STEP ≠ Reg.PTP_CNT_NODOM), if_false, and_self]
  · next d _ =>
    refine ⟨d, ?_⟩
    split_ifs
    · exact State.Moved.refl d v
    · exact hf d v
    · exact (State.Moved.refl d v).count (by simp [domRegs])

theorem State.ptpMessage_steady {s : State} (hon : s.clockOn) {p kind : Nat} {m : List Byte} {f : Nat → State → State}
    (hf : ∀ d u, State.Moved d u (f d u)) : State.Steady s (s.ptpMessage p m kind f) := by
  by_cases ha : (s.ethAccept p).2 = true
  · by_cases hc : p = 2 ∨ s.bit (Reg.ETH_PORT_p_CFG p) 2 = false ∨ s.bit Reg.PTP_CTRL 0 = false
    · have hsame : s.ptpMessage p m kind f = s.frameCounted p := by
        refine (State.ethTake_taken _ ha).trans (if_pos ?_)
        rw [show (s.frameCounted p).bit (Reg.ETH_PORT_p_CFG p) 2 = s.bit (Reg.ETH_PORT_p_CFG p) 2 from rfl,
          show (s.frameCounted p).bit Reg.PTP_CTRL 0 = s.bit Reg.PTP_CTRL 0 from rfl]
        rcases hc with h | h | h <;> rw [h]
        · rfl
        · rw [Bool.not_false, Bool.or_true, Bool.true_or]
        · rw [Bool.not_false, Bool.or_true]
      rw [hsame]
      exact State.Steady.same hon rfl fun _ _ => rfl
    · simp only [not_or, Bool.not_eq_false] at hc
      obtain ⟨hp, hb, hctrl⟩ := hc
      obtain ⟨e, l, he⟩ := State.ptpMessage_heard ha hp hb hctrl m kind f
      obtain ⟨d, hd⟩ := State.ptpHear_moved (p := p) (kind := kind) (m := m) hf (s.ptpSync.onNet e l)
      rw [he]
      exact State.Steady.synced hon hd
  · have hsame : s.ptpMessage p m kind f = (s.ethAccept p).1 := if_neg ha
    rw [hsame]
    refine State.Steady.same hon ((State.ethAccept_keeps (k := 524544) rfl (Keeps.refl s)).ptp_same rfl) fun b hb => ?_
    have hp : b ∉ pinRegs := by
      revert b
      decide
    have hne : b ≠ Reg.ETH_CNT_RXOVR ∧ b ≠ Reg.ETH_STAT ∧ b ≠ Reg.ETH_IRQ := by
      revert b
      decide
    unfold State.ethAccept
    split
    · rfl
    · split
      · rw [State.irqEth, State.irqAt_rd _ _ _ _ _ _ hp, if_neg hne.2.2, State.rd_setBit, if_neg hne.2.1, State.rd_count, if_neg hne.1]
      · rfl

/-! ## The four messages -/

/-- An Announce is kept as heard, and the domain's master is chosen. -/
def State.announceHeard (p : Nat) (m : List Byte) (d : Nat) (s : State) : State :=
  let x := s.dom d
  let old := x.heard.find? (fun h => h.ident == ptpIdent m && h.port == p)
  let a := announced s.ptp.at_ p m ((old.map (·.heard)).getD [])
  let rest := x.heard.filter (fun h => !(h.ident == ptpIdent m && h.port == p))
  let annAt := if s.fromMaster d p m then s.ptp.at_ else x.annAt
  ((s.putDom d { x with heard := a :: rest, annAt := annAt }).count (Reg.PTP_DOM_d_CNT_ANN d)).selectMaster d

/-- A Sync of the selected master. -/
def State.syncHeard (p : Nat) (m : List Byte) (within d : Nat) (s : State) : State :=
  let t2 := s.ptpStamp within - s.ingress p
  let x := { s.dom d with syncAt := s.ptp.at_ }
  let s1 := ((s.putDom d x).count (Reg.PTP_DOM_d_CNT_SYNC d)).setFld (Reg.PTP_DOM_d_STATE d) 16 8 (ptpNum m 33 1)
  if (ptpNum m 6 1).testBit 1 then s1.putDom d { x with twoStep := some (ptpNum m 30 2, t2, ptpCorr m) }
  else s1.ptpDiff d (t2 - ptpTime m 34 - ptpCorr m)

/-- A Follow_Up of the selected master. -/
def State.followHeard (m : List Byte) (d : Nat) (s : State) : State := match (s.dom d).twoStep with
  | some x =>
    let diff := x.2.1 - ptpTime m 34 - x.2.2 - ptpCorr m
    if x.1 = ptpNum m 30 2 then (s.delaySync d x.1 diff).ptpDiff d diff else s
  | none => s

/-- A Delay_Resp of the selected master. -/
def State.respHeard (m : List Byte) (d : Nat) (s : State) : State := match (s.dom d).dreq with
  | some x =>
    if x.seq = ptpNum m 30 2 && x.resp.isNone && (m.drop 44).take 10 == s.ptpOwn then
      (s.count (Reg.PTP_DOM_d_CNT_DRESP d)).delayPair d { x with resp := some (ptpTime m 34 - x.t3 - ptpCorr m) }
    else s
  | none => s

section
variable (s : State) (p : Nat) (m : List Byte)

theorem State.ptpAnnounce_eq : s.ptpAnnounce p m = s.ptpMessage p m 11 (State.announceHeard p m) := rfl

theorem State.ptpSyncMsg_eq (within : Nat) :
    s.ptpSyncMsg p m within = s.ptpMessage p m 0 (fun d u => u.ifMaster d p m (State.syncHeard p m within d)) := rfl

theorem State.ptpFollowUp_eq : s.ptpFollowUp p m = s.ptpMessage p m 8 (fun d u => u.ifMaster d p m (State.followHeard m d)) := rfl

theorem State.ptpDelayResp_eq : s.ptpDelayResp p m = s.ptpMessage p m 9 (fun d u => u.ifMaster d p m (State.respHeard m d)) := rfl

end

section
variable (p : Nat) (m : List Byte) (d : Nat) (u : State)

theorem State.announceHeard_moved : State.Moved d u (u.announceHeard p m d) :=
  (((State.Moved.refl d u).putDom _).count (by simp [domRegs])).selectMaster

theorem State.syncHeard_moved (within : Nat) : State.Moved d u (u.ifMaster d p m (State.syncHeard p m within d)) := by
  refine State.Moved.ifMaster (.refl d u) ?_
  have h1 := (((State.Moved.refl d u).putDom { u.dom d with syncAt := u.ptp.at_ }).count (a := Reg.PTP_DOM_d_CNT_SYNC d)
    (by simp [domRegs])).setFld (a := Reg.PTP_DOM_d_STATE d) (by simp [domRegs]) 16 8 (ptpNum m 33 1)
  unfold State.syncHeard
  dsimp only
  split
  · exact h1.putDom _
  · exact h1.ptpDiff _

theorem State.followHeard_moved : State.Moved d u (u.ifMaster d p m (State.followHeard m d)) := by
  refine State.Moved.ifMaster (.refl d u) ?_
  unfold State.followHeard
  split
  · dsimp only
    split
    · exact ((State.Moved.refl d u).delaySync _ _).ptpDiff _
    · exact .refl d u
  · exact .refl d u

theorem State.respHeard_moved : State.Moved d u (u.ifMaster d p m (State.respHeard m d)) := by
  refine State.Moved.ifMaster (.refl d u) ?_
  unfold State.respHeard
  split
  · split
    · exact ((State.Moved.refl d u).count (by simp [domRegs])).delayPair _
    · exact .refl d u
  · exact .refl d u

end

theorem State.ptpAnnounce_steady {s : State} (hon : s.clockOn) (p : Nat) (m : List Byte) : State.Steady s (s.ptpAnnounce p m) :=
  State.ptpMessage_steady hon (State.announceHeard_moved p m)

theorem State.ptpSyncMsg_steady {s : State} (hon : s.clockOn) (p : Nat) (m : List Byte) (within : Nat) : State.Steady s (s.ptpSyncMsg p m within) :=
  State.ptpMessage_steady hon fun d u => State.syncHeard_moved p m d u within

theorem State.ptpFollowUp_steady {s : State} (hon : s.clockOn) (p : Nat) (m : List Byte) : State.Steady s (s.ptpFollowUp p m) :=
  State.ptpMessage_steady hon (State.followHeard_moved p m)

theorem State.ptpDelayResp_steady {s : State} (hon : s.clockOn) (p : Nat) (m : List Byte) : State.Steady s (s.ptpDelayResp p m) :=
  State.ptpMessage_steady hon (State.respHeard_moved p m)

theorem State.Moved.send {d : Nat} {s t : State} (h : State.Moved d s t) (f : Frame) : State.Moved d s (t.send f) :=
  h.of_same (State.send_ptp t f) fun b _ => State.rd_send t f b

theorem State.ptpDelayReq_steady {s : State} (hon : s.clockOn) (d within : Nat) : State.Steady s (s.ptpDelayReq d within) := by
  refine State.Steady.moved (d := d) hon ?_
  unfold State.ptpDelayReq
  dsimp only
  split
  · exact .refl d _
  · split
    · exact .refl d _
    · exact (((State.Moved.refl d s.ptpSync).send _).putDom _).count (a := Reg.PTP_DOM_d_CNT_DREQ d) (by simp [domRegs])

theorem State.announceTimeout_steady {s : State} (hon : s.clockOn) (d : Nat) : State.Steady s (s.announceTimeout d) := by
  refine State.Steady.moved (d := d) hon ?_
  unfold State.announceTimeout
  dsimp only
  split
  · exact .refl d _
  · split
    · exact .refl d _
    · exact (((State.Moved.refl d s.ptpSync).domLoss 1).putDom _).selectMaster

theorem State.syncTimeout_steady {s : State} (hon : s.clockOn) (d : Nat) : State.Steady s (s.syncTimeout d) := by
  refine State.Steady.moved (d := d) hon ?_
  unfold State.syncTimeout
  dsimp only
  split
  · exact .refl d _
  · exact ((State.Moved.refl d s.ptpSync).onlyIf fun u g => g.calm ((State.Calm.refl u).injRan 0)).onlyIf fun _ g => g.domLoss 2

theorem State.rampFinish_steady {s : State} (hon : s.clockOn) : State.Steady s s.rampFinish := by
  refine State.Steady.moved (d := 0) hon ?_
  unfold State.rampFinish
  dsimp only
  split
  · exact (State.Moved.refl 0 _).calm (State.Calm.refl _).rampEnd
  · exact .refl 0 _

theorem State.revertLead_steady {s : State} (hon : s.clockOn) : State.Steady s s.revertLead := by
  refine State.Steady.moved (d := 0) hon ?_
  unfold State.revertLead
  dsimp only
  split
  · exact (State.Moved.refl 0 _).calm ((State.Calm.refl _).leadBy _).switchMarks
  · exact .refl 0 _

theorem State.holdExpire_steady {s : State} (hon : s.clockOn) : State.Steady s s.holdExpire := by
  refine State.Steady.moved (d := 0) hon ?_
  unfold State.holdExpire
  dsimp only
  split
  · exact (State.Moved.refl 0 _).calm ((State.Calm.refl _).setLock false)
  · exact .refl 0 _

theorem notStepped (port : Fin 3) (m : List Byte) (within : BitVec 20) (d : Fin 2) (s : State) (hs : s.supplied)
    (hon : s.ptpState = 2 ∨ s.ptpState = 3) : ∀ c ∈ [(Instr.announce port m), .sync port m within, .followUp port m, .delayResp port m,
      .delayReq d within, .announceTimeout d, .syncTimeout d, .rampEnd, .revertLead, .holdExpire],
      ∃ t, exec c s = .next t ∧ (t.ptp.clk = s.ptp.clk ∨ t.ptp.clk = s.clearSent.ptpSync.ptp.clk)
        ∧ t.rd Reg.PTP_CNT_STEP = s.rd Reg.PTP_CNT_STEP ∧ (t.ptpState = 2 ∨ t.ptpState = 3) := by
  have hrun (f : State → State) (hf : State.Steady s.clearSent (f s.clearSent)) :
      ∃ t, s.act f = .next t ∧ (t.ptp.clk = s.ptp.clk ∨ t.ptp.clk = s.clearSent.ptpSync.ptp.clk)
        ∧ t.rd Reg.PTP_CNT_STEP = s.rd Reg.PTP_CNT_STEP ∧ (t.ptpState = 2 ∨ t.ptpState = 3) :=
    ⟨_, State.act_supplied hs, hf.clk, hf.step, hf.run⟩
  have hon' : s.clearSent.clockOn := hon
  intro c hc
  simp only [List.mem_cons, List.not_mem_nil, or_false] at hc
  rcases hc with rfl | rfl | rfl | rfl | rfl | rfl | rfl | rfl | rfl | rfl
  · exact hrun (fun t => t.ptpAnnounce port.val m) (State.ptpAnnounce_steady hon' _ _)
  · exact hrun (fun t => t.ptpSyncMsg port.val m within.toNat) (State.ptpSyncMsg_steady hon' _ _ _)
  · exact hrun (fun t => t.ptpFollowUp port.val m) (State.ptpFollowUp_steady hon' _ _)
  · exact hrun (fun t => t.ptpDelayResp port.val m) (State.ptpDelayResp_steady hon' _ _)
  · exact hrun (fun t => t.ptpDelayReq d.val within.toNat) (State.ptpDelayReq_steady hon' _ _)
  · exact hrun (fun t => t.announceTimeout d.val) (State.announceTimeout_steady hon' _)
  · exact hrun (fun t => t.syncTimeout d.val) (State.syncTimeout_steady hon' _)
  · exact hrun (fun t => t.rampFinish) (State.rampFinish_steady hon')
  · exact hrun (fun t => t.revertLead) (State.revertLead_steady hon')
  · exact hrun (fun t => t.holdExpire) (State.holdExpire_steady hon')

/-! ## The leading domain is lost (R363) -/

/-- What HOLDOVER shows of the loss of domain `d`, with the servo's integral term as it stood. -/
structure State.LossShown (d loss : Nat) (i : Rat) (t : State) : Prop where
  state : t.ptpState = 3
  lock : t.ptpLock = true
  stat : t.bit Reg.PTP_STAT 1 = true
  cause : t.fld (Reg.PTP_DOM_d_STATE d) 4 3 = loss
  qual : (t.dom d).qual = false
  prop : t.ptp.prop = 0
  integ : t.ptp.integ = i

/-- The operations of a domain row leave what HOLDOVER shows. -/
theorem State.LossShown.step {d loss : Nat} {i : Rat} {t u : State} (h : State.LossShown d loss i t)
    (hr : ∀ b ∈ [Reg.PTP_STATE, Reg.PTP_STAT], u.rd b = t.rd b) (hc : u.fld (Reg.PTP_DOM_d_STATE d) 4 3 = t.fld (Reg.PTP_DOM_d_STATE d) 4 3)
    (hq : (u.dom d).qual = false) (hp : u.ptp.prop = t.ptp.prop) (hi : u.ptp.integ = t.ptp.integ) : State.LossShown d loss i u where
  state := by
    rw [State.ptpState, State.fld_eq, hr _ (by decide)]
    exact h.state
  lock := by
    rw [State.ptpLock, State.bit_eq, hr _ (by decide)]
    exact h.lock
  stat := by
    rw [State.bit_eq, hr _ (by decide)]
    exact h.stat
  cause := hc.trans h.cause
  qual := hq
  prop := hp.trans h.prop
  integ := hi.trans h.integ

theorem State.setLock_state (s : State) (b : Bool) : (s.setLock b).rd Reg.PTP_STATE = putBit (s.rd Reg.PTP_STATE) 3 b := by
  have hirq : ((s.setBit Reg.PTP_STATE 3 b).irqPtp 1).rd Reg.PTP_STATE = putBit (s.rd Reg.PTP_STATE) 3 b := by
    rw [State.irqPtp, State.irqAt_rd _ _ _ _ _ _ (by decide), if_neg (by decide), State.rd_setBit, if_pos rfl]
  unfold State.setLock
  split
  · next h =>
    rw [← h]
    exact (putBit_self _).symm
  · rw [State.rd_onlyIf]
    split
    · refine Eq.trans (b := (((s.setBit Reg.PTP_STATE 3 b).irqPtp 1).setBit Reg.PTP_STAT 2 true).rd Reg.PTP_STATE) (State.rd_congr rfl _) ?_
      rw [State.rd_setBit, if_neg (by decide), hirq]
    · exact hirq

theorem State.setLock_stat (s : State) : (s.setLock true).rd Reg.PTP_STAT = s.rd Reg.PTP_STAT := by
  unfold State.setLock
  split
  · rfl
  · rw [Bool.not_true, State.onlyIf_false, State.irqPtp, State.irqAt_rd _ _ _ _ _ _ (by decide), if_neg (by decide), State.rd_setBit,
      if_neg (by decide)]

theorem State.ptpRate_rd (s : State) {b : Nat} (h : b ≠ Reg.PTP_RATE) : s.ptpRate.rd b = s.rd b := by
  rw [State.ptpRate, State.rd_wr, if_neg h]
  exact State.rd_congr (s.roundOpen_regs _) b

/-- The servo's proportional term ends with HOLDOVER. -/
def State.servoHeld (s : State) : State := { s with ptp := { s.ptp with prop := 0, holdAt := s.ptp.at_, gmWait := false } }

theorem State.holdover_state (s : State) : s.holdover.rd Reg.PTP_STATE = putBit (putBits (s.rd Reg.PTP_STATE) 0 2 3) 3 true := by
  unfold State.holdover
  dsimp only
  rw [State.setLock_state, State.irqPtp, State.irqAt_rd _ _ _ _ _ _ (by decide), if_neg (by decide), State.rd_count, if_neg (by decide),
    State.rd_setBit, if_neg (by decide), State.rd_setFld, if_pos rfl, State.ptpRate_rd _ (by decide)]
  rfl

theorem State.holdover_stat (s : State) : s.holdover.bit Reg.PTP_STAT 1 = true := by
  unfold State.holdover
  dsimp only
  rw [State.bit_eq, State.setLock_stat, State.irqPtp, State.irqAt_rd _ _ _ _ _ _ (by decide), if_neg (by decide), State.rd_count,
    if_neg (by decide), State.rd_setBit, if_pos rfl]
  exact bitOf_putBit_same _ _ _ (by decide)

theorem State.holdover_ptp (s : State) : s.holdover.ptp = s.servoHeld.ptp :=
  (State.setLock_keeps (k := 260) rfl (State.irqPtp_keeps rfl (State.count_keeps rfl (State.setBit_keeps rfl (State.setFld_keeps rfl
    (State.ptpRate_keeps (s := s.servoHeld) rfl (Keeps.refl s.servoHeld))))))).ptp_same rfl

theorem row_not_calm {d : Nat} (hd : d < 2) : Reg.PTP_DOM_d_STATE d ∉ Reg.PTP_STATE :: Reg.PTP_IRQ :: calmRegs ++ spoorRegs := by
  interval_cases d <;> decide

theorem State.holdover_shown {s : State} {d loss : Nat} (hd : d < 2) (hc : s.fld (Reg.PTP_DOM_d_STATE d) 4 3 = loss) (hq : (s.dom d).qual = false) :
    State.LossShown d loss s.ptp.integ s.holdover where
  state := by
    rw [State.ptpState, State.fld_eq, State.holdover_state, putBit, bitsOf_putBits_apart _ _ _ _ _ _ (by decide) (by decide)]
    exact bitsOf_putBits_same _ _ _ _ (by decide)
  lock := by
    rw [State.ptpLock, State.bit_eq, State.holdover_state]
    exact bitOf_putBit_same _ _ _ (by decide)
  stat := s.holdover_stat
  cause := by
    rw [State.fld_eq, (State.Calm.refl s).holdover.regs _ (row_not_calm hd)]
    exact hc
  qual := by
    rw [(State.Calm.refl s).holdover.dom]
    exact hq
  prop := by
    rw [State.holdover_ptp]
    rfl
  integ := by
    rw [State.holdover_ptp]
    rfl

theorem State.putDom_cause (s : State) (d : Nat) (x : PtpDomain) :
    (s.putDom d x).fld (Reg.PTP_DOM_d_STATE d) 4 3 = s.fld (Reg.PTP_DOM_d_STATE d) 4 3 := by
  unfold State.putDom
  dsimp only
  cases x.master with
  | none =>
    rw [State.fld_eq, State.rd_setFld, if_pos rfl, bitsOf_putBits_apart _ _ _ _ _ _ (by decide) (by decide)]
    rfl
  | some m =>
    rw [State.fld_eq, State.rd_setFld, if_pos rfl, bitsOf_putBits_apart _ _ _ _ _ _ (by decide) (by decide), State.rd_setFld, if_pos rfl,
      bitsOf_putBits_apart _ _ _ _ _ _ (by decide) (by decide)]
    rfl

theorem State.putDom_servo (s : State) (d : Nat) (x : PtpDomain) :
    (s.putDom d x).ptp.prop = s.ptp.prop ∧ (s.putDom d x).ptp.integ = s.ptp.integ := by
  rw [State.putDom_ptp, PtpState.withDom]
  split <;> exact ⟨rfl, rfl⟩

/-- The leading domain no longer QUALIFIED, its loss recorded. -/
def State.leadUnqualified (s : State) (d loss : Nat) : State :=
  ((s.setFld (Reg.PTP_DOM_d_STATE d) 4 3 loss).putDom d { (s.setFld (Reg.PTP_DOM_d_STATE d) 4 3 loss).dom d with qual := false }).irqPtp 3

theorem State.leadUnqualified_ptp (s : State) (d loss : Nat) :
    (s.leadUnqualified d loss).ptp = s.ptp.withDom d { (s.setFld (Reg.PTP_DOM_d_STATE d) 4 3 loss).dom d with qual := false } :=
  ((State.irqPtp_keeps (k := 256) rfl (Keeps.refl _)).ptp_same rfl).trans (State.putDom_ptp _ _ _)

theorem State.leadUnqualified_dom (s : State) (d loss : Nat) :
    (s.leadUnqualified d loss).dom d = { s.dom d with qual := false } ∧ (s.leadUnqualified d loss).dom (otherDom d) = s.dom (otherDom d) := by
  have hcalm := (State.Calm.refl ((s.setFld (Reg.PTP_DOM_d_STATE d) 4 3 loss).putDom d
    { (s.setFld (Reg.PTP_DOM_d_STATE d) 4 3 loss).dom d with qual := false })).irqPtp 3
  exact ⟨(hcalm.dom d).trans (State.dom_putDom _ _ _), (hcalm.dom _).trans (State.dom_putDom_other _ _ _)⟩

theorem State.leadUnqualified_cause {s : State} {d loss : Nat} (hd : d < 2) (hl : loss < 8) :
    (s.leadUnqualified d loss).fld (Reg.PTP_DOM_d_STATE d) 4 3 = loss := by
  rw [State.fld_eq, State.leadUnqualified, ((State.Calm.refl _).irqPtp 3).regs _ (row_not_calm hd), ← State.fld_eq, State.putDom_cause,
    State.fld_eq, State.rd_setFld, if_pos rfl, bitsOf_putBits_same _ _ _ _ (by decide)]
  exact Nat.mod_eq_of_lt hl

/-- The loss of the leading domain with no other one QUALIFIED enters HOLDOVER. -/
theorem State.domLoss_holds {s : State} {d loss : Nat} (hq : (s.dom d).qual = true) (ho : (s.dom (otherDom d)).qual = false)
    (hl : s.leads d = true) (h3 : loss ≠ 3) (h5 : loss ≠ 5) : s.domLoss d loss = (s.leadUnqualified d loss).holdover := by
  have hother : ((s.leadUnqualified d loss).dom (otherDom d)).qual = false := by
    rw [(s.leadUnqualified_dom d loss).2]
    exact ho
  unfold State.domLoss
  dsimp only
  rw [if_pos hq, hl, State.onlyIf_true, decide_eq_false h5, State.onlyIf_false]
  refine Eq.trans (b := (s.leadUnqualified d loss).leadLost d loss) rfl ?_
  unfold State.leadLost
  rw [if_neg (by rw [hother]; decide), if_neg h3]

theorem State.domLoss_shown {s : State} {d loss : Nat} (hd : d < 2) (hq : (s.dom d).qual = true) (ho : (s.dom (otherDom d)).qual = false)
    (hl : s.leads d = true) (h3 : loss ≠ 3) (h5 : loss ≠ 5) (h8 : loss < 8) : State.LossShown d loss s.ptp.integ (s.domLoss d loss) := by
  have hinteg : (s.leadUnqualified d loss).ptp.integ = s.ptp.integ := by
    rw [State.leadUnqualified_ptp, PtpState.withDom]
    split <;> rfl
  rw [State.domLoss_holds hq ho hl h3 h5, ← hinteg]
  exact State.holdover_shown hd (State.leadUnqualified_cause hd h8) (by rw [(s.leadUnqualified_dom d loss).1])

theorem State.LossShown.putDom {d loss : Nat} {i : Rat} {t : State} (h : State.LossShown d loss i t) {x : PtpDomain} (hx : x.qual = false) :
    State.LossShown d loss i (t.putDom d x) := by
  refine h.step (fun b hb => t.putDom_rd d x ?_) (t.putDom_cause d x) (by rw [State.dom_putDom]; exact hx) (t.putDom_servo d x).1 (t.putDom_servo d x).2
  simp only [List.mem_cons, List.not_mem_nil, or_false] at hb
  rcases hb with rfl | rfl
  · exact (domRegs_apart (d := d) (List.mem_cons_self ..)).1
  · dsimp only [Reg.PTP_STAT, Reg.PTP_DOM_d_STATE]
    omega

/-- In HOLDOVER a domain's new master only shows its registers. -/
theorem State.LossShown.showMaster {d loss : Nat} {i : Rat} {t : State} (h : State.LossShown d loss i t) (m : PtpMaster) :
    State.LossShown d loss i (t.showMaster d m) := by
  have hl : t.leads d = false := by
    rw [State.leads, h.state]
    rfl
  unfold State.showMaster
  dsimp only
  rw [hl, Bool.false_and, State.onlyIf_false]
  refine h.step (fun b hb => ?_) ?_ h.qual rfl rfl
  · simp only [List.mem_cons, List.not_mem_nil, or_false] at hb
    have hlt : b < 0x5A100 := by rcases hb with rfl | rfl <;> decide
    rw [State.rd_wr, if_neg (by dsimp only [Reg.PTP_DOM_d_UTCOFS]; omega), State.rd_wr, if_neg (by dsimp only [Reg.PTP_DOM_d_GM_HI]; omega),
      State.rd_wr, if_neg (by dsimp only [Reg.PTP_DOM_d_GM_LO]; omega)]
  · rw [State.fld_eq, State.rd_wr, if_neg (by dsimp only [Reg.PTP_DOM_d_UTCOFS, Reg.PTP_DOM_d_STATE]; omega), State.rd_wr,
      if_neg (by dsimp only [Reg.PTP_DOM_d_GM_HI, Reg.PTP_DOM_d_STATE]; omega), State.rd_wr,
      if_neg (by dsimp only [Reg.PTP_DOM_d_GM_LO, Reg.PTP_DOM_d_STATE]; omega)]
    rfl

theorem State.LossShown.selectMaster {d loss : Nat} {i : Rat} {t : State} (h : State.LossShown d loss i t) (hm : (t.dom d).master = none) :
    State.LossShown d loss i (t.selectMaster d) := by
  unfold State.selectMaster
  dsimp only
  rw [hm]
  split
  · exact h
  · rw [State.onlyIf_false, if_neg Bool.false_ne_true]
    refine State.LossShown.showMaster (State.LossShown.putDom h ?_) _
    exact h.qual

/-! ## Time-outs of the leading domain -/

/-- Without a ramp the clock runs within one rate. -/
theorem State.ptpSync_runs {s : State} (h : s.ptp.rampTerm = 0) : ∃ dt, s.ptpSync = s.clkRun dt := by
  refine ⟨if s.oscAt 0 < s.ptp.at_ then 0 else s.oscAt 0 - s.ptp.at_, ?_⟩
  unfold State.ptpSync State.ptpTo
  lift_lets
  extract_lets dt left
  rw [if_pos (by rw [h]; rfl)]

/-- The domain leads alone, and no ramp is under way. -/
structure State.LeadsAlone (s : State) (d : Nat) : Prop where
  leads : s.leads d = true
  qual : (s.dom d).qual = true
  other : (s.dom (otherDom d)).qual = false

theorem State.LeadsAlone.run {s : State} {d : Nat} (h : State.LeadsAlone s d) (dt : Rat) : State.LeadsAlone (s.clkRun dt) d := ⟨h.leads, h.qual, h.other⟩

theorem State.LeadsAlone.lost {s : State} {d loss : Nat} (h : State.LeadsAlone s d) (hd : d < 2) (h3 : loss ≠ 3) (h5 : loss ≠ 5) (h8 : loss < 8) :
    State.LossShown d loss s.ptp.integ (s.domLoss d loss) := State.domLoss_shown hd h.qual h.other h.leads h3 h5 h8

theorem announceTimeout_holds {s : State} {d : Fin 2} (hs : s.supplied) (hr : s.ptp.rampTerm = 0) (hlead : State.LeadsAlone s d.val) {x : PtpMaster}
    (hx : (s.dom d.val).master = some x)
    (hdue : s.fld (Reg.PTP_DOM_d_CFG d.val) 16 4 * pow2Sec x.logAnn ≤ s.clearSent.ptpSync.ptp.at_ - (s.dom d.val).annAt) :
    ∃ t, exec (.announceTimeout d) s = .next t ∧ State.LossShown d.val 1 s.ptp.integ t := by
  obtain ⟨dt, hdt⟩ := State.ptpSync_runs (s := s.clearSent) hr
  have ht : exec (.announceTimeout d) s = .next (s.clearSent.announceTimeout d.val) := show execAnnounceTimeout d s = _ from State.act_supplied hs
  rw [hdt] at hdue
  have hloss := (State.LeadsAlone.run (s := s.clearSent) ⟨hlead.leads, hlead.qual, hlead.other⟩ dt).lost (loss := 1) d.isLt (by decide) (by decide)
    (by decide)
  have hmaster : ((s.clearSent.clkRun dt).dom d.val).master = some x := hx
  refine ⟨_, ht, ?_⟩
  unfold State.announceTimeout
  dsimp only
  rw [hdt, hmaster]
  dsimp only
  have hnot : ¬ ((s.clearSent.clkRun dt).ptp.at_ - ((s.clearSent.clkRun dt).dom d.val).annAt
      < (s.clearSent.clkRun dt).fld (Reg.PTP_DOM_d_CFG d.val) 16 4 * pow2Sec x.logAnn) := not_lt.mpr hdue
  rw [if_neg hnot]
  refine State.LossShown.selectMaster (State.LossShown.putDom hloss ?_) (by rw [State.dom_putDom])
  exact hloss.qual

theorem announceTimeout_early {s : State} {d : Fin 2} (hs : s.supplied) (hr : s.ptp.rampTerm = 0) {x : PtpMaster}
    (hx : (s.dom d.val).master = some x)
    (hearly : s.clearSent.ptpSync.ptp.at_ - (s.dom d.val).annAt < s.fld (Reg.PTP_DOM_d_CFG d.val) 16 4 * pow2Sec x.logAnn) :
    ∃ t, exec (.announceTimeout d) s = .next t ∧ t.ptp = s.clearSent.ptpSync.ptp ∧ t.regs = s.regs ∧ s.keepsParts t [.sent, .ptp] := by
  obtain ⟨dt, hdt⟩ := State.ptpSync_runs (s := s.clearSent) hr
  have ht : exec (.announceTimeout d) s = .next (s.clearSent.announceTimeout d.val) := show execAnnounceTimeout d s = _ from State.act_supplied hs
  rw [hdt] at hearly ⊢
  have hmaster : ((s.clearSent.clkRun dt).dom d.val).master = some x := hx
  have hsame : s.clearSent.announceTimeout d.val = s.clearSent.clkRun dt := by
    unfold State.announceTimeout
    dsimp only
    rw [hdt, hmaster]
    exact if_pos hearly
  rw [hsame] at ht
  exact ⟨_, ht, rfl, rfl, (State.clkRun_keeps (k := 1048578) rfl (State.clearSent_keeps rfl (Keeps.refl s))).parts _
    (fun p => by cases p <;> decide)⟩

theorem syncTimeout_holds {s : State} {d : Fin 2} (hs : s.supplied) (hr : s.ptp.rampTerm = 0) (hlead : State.LeadsAlone s d.val) {x : PtpMaster}
    (hx : (s.dom d.val).master = some x) (hi : s.bit Reg.PTP_INJ 0 = false)
    (hdue : s.fld (Reg.PTP_DOM_d_CFG d.val) 20 4 * pow2Sec (signedOf 8 (s.fld (Reg.PTP_DOM_d_STATE d.val) 16 8))
      ≤ s.clearSent.ptpSync.ptp.at_ - (s.dom d.val).syncAt) :
    ∃ t, exec (.syncTimeout d) s = .next t ∧ State.LossShown d.val 2 s.ptp.integ t := by
  obtain ⟨dt, hdt⟩ := State.ptpSync_runs (s := s.clearSent) hr
  have ht : exec (.syncTimeout d) s = .next (s.clearSent.syncTimeout d.val) := show execSyncTimeout d s = _ from State.act_supplied hs
  rw [hdt] at hdue
  have hloss := (State.LeadsAlone.run (s := s.clearSent) ⟨hlead.leads, hlead.qual, hlead.other⟩ dt).lost (loss := 2) d.isLt (by decide) (by decide)
    (by decide)
  have hmaster : ((s.clearSent.clkRun dt).dom d.val).master.isNone = false := by
    rw [show ((s.clearSent.clkRun dt).dom d.val).master = some x from hx]
    rfl
  have hinj : (s.clearSent.clkRun dt).bit Reg.PTP_INJ 0 = false := hi
  have hleads : (s.clearSent.clkRun dt).leads d.val = true := hlead.leads
  refine ⟨_, ht, ?_⟩
  unfold State.syncTimeout
  dsimp only
  rw [hdt, hmaster, if_neg (by decide), hleads, if_pos rfl, State.onlyIf_true, State.injTest, hinj, Bool.bne_false, State.injRan,
    if_neg (by rw [hinj]; decide)]
  unfold State.onlyIf
  split
  · exact hloss
  · next h => exact absurd (decide_eq_true hdue) h

/-- Settles O25, from what each operation of the network clock leaves. -/
theorem clockNotStepped : Obligations.ClockNotStepped := by
  unfold Obligations.ClockNotStepped
  refine ⟨notStepped, fun d s hs hr hl hq ho x hx => ⟨fun hdue => ?_, announceTimeout_early hs hr hx, fun hi hdue => ?_⟩⟩
  · obtain ⟨t, ht, h⟩ := announceTimeout_holds hs hr ⟨hl, hq, ho⟩ hx hdue
    exact ⟨t, ht, h.state, h.lock, h.cause, h.qual, h.stat, h.prop, h.integ⟩
  · obtain ⟨t, ht, h⟩ := syncTimeout_holds hs hr ⟨hl, hq, ho⟩ hx hi hdue
    exact ⟨t, ht, h.state, h.cause, h.qual, h.stat⟩

end Sys2Proof.Machine

/-!
PTP messages: whose they are, and what each one records (R350, R351, R356 to R359), which settles O24.
-/

namespace Sys2Proof.Machine

/-! ## What an Announce leaves of its domain -/

/-- From `s` to `t` the masters that domain `d` has heard and its count of Announces stay. -/
structure State.AnnKept (d : Nat) (s t : State) : Prop where
  heard : (t.dom d).heard = (s.dom d).heard
  count : t.rd (Reg.PTP_DOM_d_CNT_ANN d) = s.rd (Reg.PTP_DOM_d_CNT_ANN d)

theorem State.AnnKept.refl (d : Nat) (s : State) : State.AnnKept d s s := ⟨rfl, rfl⟩

section
variable {d : Nat} {s t : State} (h : State.AnnKept d s t)
include h

theorem State.AnnKept.calm {u : State} (hd : d < 2) (g : State.Calm t u) : State.AnnKept d s u := by
  refine ⟨(congrArg PtpDomain.heard (g.dom d)).trans h.heard, (g.regs _ ?_).trans h.count⟩
  interval_cases d <;> decide

theorem State.AnnKept.putDom {x : PtpDomain} (hx : x.heard = (t.dom d).heard) : State.AnnKept d s (t.putDom d x) := by
  refine ⟨?_, (t.putDom_rd d x ?_).trans h.count⟩
  · rw [State.dom_putDom, hx, h.heard]
  · dsimp only [Reg.PTP_DOM_d_CNT_ANN, Reg.PTP_DOM_d_STATE]
    omega

theorem State.AnnKept.onlyIf {c : Bool} {f : State → State} (hf : ∀ u, State.AnnKept d s u → State.AnnKept d s (f u)) :
    State.AnnKept d s (t.onlyIf c f) := by
  unfold State.onlyIf
  split
  · exact hf t h
  · exact h

theorem State.AnnKept.wr {a : Nat} (ha : Reg.PTP_DOM_d_CNT_ANN d ≠ a) (v : Word) : State.AnnKept d s (t.wr a v) :=
  ⟨h.heard, by rw [State.rd_wr, if_neg ha, h.count]⟩

theorem State.AnnKept.domLoss (hd : d < 2) (loss : Nat) : State.AnnKept d s (t.domLoss d loss) := by
  have h1 : State.AnnKept d s (t.setFld (Reg.PTP_DOM_d_STATE d) 4 3 loss) := by
    refine ⟨h.heard, ?_⟩
    rw [State.rd_setFld, if_neg (by dsimp only [Reg.PTP_DOM_d_CNT_ANN, Reg.PTP_DOM_d_STATE]; omega), h.count]
  have hlost (u : State) (g : State.AnnKept d s u) : State.AnnKept d s (u.leadLost d loss) := g.calm hd ((State.Calm.refl u).leadLost d loss)
  unfold State.domLoss
  dsimp only
  split
  · refine State.AnnKept.onlyIf (State.AnnKept.onlyIf (State.AnnKept.calm (State.AnnKept.putDom h1 ?_) hd ((State.Calm.refl _).irqPtp 3))
      fun u g => g.calm hd ((State.Calm.refl u).setBit (a := Reg.PTP_STAT) (by decide) 3 true)) hlost
    rfl
  · exact h1.onlyIf hlost

theorem State.AnnKept.showMaster (hd : d < 2) (m : PtpMaster) : State.AnnKept d s (t.showMaster d m) := by
  unfold State.showMaster
  dsimp only
  refine State.AnnKept.onlyIf (State.AnnKept.wr (State.AnnKept.wr (State.AnnKept.wr h ?_ _) ?_ _) ?_ _)
    fun u g => g.calm hd ((State.Calm.refl u).taiCopy m.utc)
  all_goals
    dsimp only [Reg.PTP_DOM_d_CNT_ANN, Reg.PTP_DOM_d_GM_LO, Reg.PTP_DOM_d_GM_HI, Reg.PTP_DOM_d_UTCOFS]
    omega

theorem State.AnnKept.selectMaster (hd : d < 2) : State.AnnKept d s (t.selectMaster d) := by
  unfold State.selectMaster
  lift_lets
  extract_lets x
  split
  · exact h
  · next b _ =>
    extract_lets same gmNew x1 s1
    have hx1 : x1.heard = (t.dom d).heard := by
      unfold x1
      split <;> rfl
    exact State.AnnKept.onlyIf ((h.putDom hx1).showMaster hd b) fun _ g => g.domLoss hd 3

end

theorem announced_shown (now : Rat) (p : Nat) (m : List Byte) (before : List Rat) :
    ((announced now p m before).ident, (announced now p m before).port, (announced now p m before).gm, (announced now p m before).heard.head?)
      = (ptpIdent m, p, ptpNum m 53 8, some now) := rfl

/-- An Announce counts, and its master is the newest of those heard. -/
theorem State.announceHeard_shows {d : Nat} (hd : d < 2) (p : Nat) (m : List Byte) (s : State) :
    ((s.announceHeard p m d).rd (Reg.PTP_DOM_d_CNT_ANN d)).toNat = min 0xFFFFFFFF ((s.rd (Reg.PTP_DOM_d_CNT_ANN d)).toNat + 1)
      ∧ (((s.announceHeard p m d).dom d).heard.head?).map (fun h => (h.ident, h.port, h.gm, h.heard.head?))
          = some (ptpIdent m, p, ptpNum m 53 8, some s.ptp.at_) := by
  have hcnt : Reg.PTP_DOM_d_CNT_ANN d ≠ Reg.PTP_DOM_d_STATE d := by
    dsimp only [Reg.PTP_DOM_d_CNT_ANN, Reg.PTP_DOM_d_STATE]
    omega
  unfold State.announceHeard
  extract_lets x old a rest annAt
  have hkept := State.AnnKept.selectMaster (State.AnnKept.refl d ((s.putDom d { x with heard := a :: rest, annAt := annAt }).count
    (Reg.PTP_DOM_d_CNT_ANN d))) hd
  constructor
  · rw [hkept.count, State.rd_count, if_pos rfl, satWordN_toNat, State.putDom_rd _ _ _ hcnt]
  · rw [hkept.heard, State.dom_congr (State.count_ptp _ _), State.dom_putDom]
    exact congrArg some (announced_shown _ p m _)

/-! ## Sync, Follow_Up, Delay_Resp -/

/-- A two-step Sync counts, and waits for its Follow_Up. -/
theorem State.syncHeard_twoStep {d : Nat} (p : Nat) (m : List Byte) (within : Nat) (s : State) (h2 : (ptpNum m 6 1).testBit 1 = true) :
    ((s.syncHeard p m within d).rd (Reg.PTP_DOM_d_CNT_SYNC d)).toNat = min 0xFFFFFFFF ((s.rd (Reg.PTP_DOM_d_CNT_SYNC d)).toNat + 1)
      ∧ ((s.syncHeard p m within d).dom d).twoStep = some (ptpNum m 30 2, s.ptpStamp within - s.ingress p, ptpCorr m)
      ∧ ((s.syncHeard p m within d).dom d).syncAt = s.ptp.at_ := by
  have hcnt : Reg.PTP_DOM_d_CNT_SYNC d ≠ Reg.PTP_DOM_d_STATE d := by
    dsimp only [Reg.PTP_DOM_d_CNT_SYNC, Reg.PTP_DOM_d_STATE]
    omega
  unfold State.syncHeard
  extract_lets t2 x s1
  rw [if_pos h2, State.dom_putDom]
  refine ⟨?_, rfl, rfl⟩
  rw [State.putDom_rd _ _ _ hcnt, State.rd_setFld, if_neg hcnt, State.rd_count, if_pos rfl, satWordN_toNat, State.putDom_rd _ _ _ hcnt]

theorem State.followHeard_other {d : Nat} {m : List Byte} {s : State} (h : ((s.dom d).twoStep.map (·.1)) ≠ some (ptpNum m 30 2)) :
    s.followHeard m d = s := by
  unfold State.followHeard
  cases hx : (s.dom d).twoStep with
  | none => rfl
  | some x =>
    rw [hx] at h
    exact if_neg fun e => h (congrArg some e)

theorem State.respHeard_none {d : Nat} {m : List Byte} {s : State} (h : (s.dom d).dreq = none) : s.respHeard m d = s := by
  unfold State.respHeard
  rw [h]

/-! ## Whose a message is -/

theorem State.ptpDomOf_lt {s : State} {m : List Byte} {d : Nat} (h : s.ptpDomOf m = some d) : d < 2 := by
  have hmem := List.mem_of_find?_eq_some h
  simp only [List.mem_cons, List.not_mem_nil, or_false] at hmem
  omega

/-- The states before and after the clock has been brought to the tick, its frame counted. -/
structure State.Brought (s v : State) : Prop where
  ptp : v.ptp = s.ptpSync.ptp
  rd : ∀ b, v.rd b = s.ptpSync.rd b
  stamp : ∀ w, v.ptpStamp w = s.ptpSync.ptpStamp w

theorem State.Brought.onNet (s : State) (e : EthState) (l : List Nat) : State.Brought s (s.ptpSync.onNet e l) := by
  refine ⟨rfl, fun _ => rfl, fun w => ?_⟩
  unfold State.ptpStamp
  rw [show (s.ptpSync.onNet e l).oscAt w = s.ptpSync.oscAt w from rfl, State.ptpTo_onNet]
  rfl

/-- A register that the running of the clock leaves: any other than PTP_RATE and PTP_STATE. -/
theorem cfg_not_clock (d : Nat) : Reg.PTP_DOM_d_CFG d ≠ Reg.PTP_RATE ∧ Reg.PTP_DOM_d_CFG d ≠ Reg.PTP_STATE := by
  dsimp only [Reg.PTP_DOM_d_CFG, Reg.PTP_RATE, Reg.PTP_STATE]
  omega

section
variable {s v : State} (h : State.Brought s v)
include h

theorem State.Brought.reg {b : Nat} (h1 : b ≠ Reg.PTP_RATE) (h2 : b ≠ Reg.PTP_STATE) : v.rd b = s.rd b :=
  (h.rd b).trans (s.ptpSync_rd h1 h2)

theorem State.Brought.dom (d : Nat) : v.dom d = s.dom d := (State.dom_congr h.ptp d).trans (s.ptpSync_dom d)

theorem State.Brought.domOf (m : List Byte) : v.ptpDomOf m = s.ptpDomOf m := by
  have hcfg (d : Nat) : v.rd (Reg.PTP_DOM_d_CFG d) = s.rd (Reg.PTP_DOM_d_CFG d) := h.reg (cfg_not_clock d).1 (cfg_not_clock d).2
  simp only [State.ptpDomOf, State.bit_eq, State.fld_eq, hcfg]

theorem State.Brought.fromMaster (d p : Nat) (m : List Byte) : v.fromMaster d p m = s.fromMaster d p m := by
  rw [State.fromMaster, State.fromMaster, h.dom]

theorem State.Brought.ingress (p : Fin 3) : v.ingress p.val = s.ingress p.val := by
  have hreg (b : Nat) (hb : b ≠ Reg.PTP_RATE ∧ b ≠ Reg.PTP_STATE) : v.rd b = s.rd b := h.reg hb.1 hb.2
  rw [State.ingress, State.ingress, State.fld_eq, State.fld_eq, State.fld_eq, State.fld_eq, State.fld_eq, State.fld_eq]
  rw [hreg (Reg.ETH_PORT_p_LINK p.val) (by revert p; decide), hreg (Reg.PTP_PORT_p_ING1G p.val) (by revert p; decide),
    hreg (Reg.PTP_PORT_p_ING100 p.val) (by revert p; decide)]

theorem State.Brought.hear_none {p kind : Nat} {m : List Byte} {f : Nat → State → State} (hd : s.ptpDomOf m = none) :
    v.ptpHear p m kind f = v.count Reg.PTP_CNT_NODOM := by
  unfold State.ptpHear
  rw [h.domOf, hd]

theorem State.Brought.hear_some {p kind : Nat} {m : List Byte} {f : Nat → State → State} {d : Nat} (hd : s.ptpDomOf m = some d)
    (hp : (s.fld (Reg.PTP_DOM_d_CFG d) 9 2).testBit p = true) :
    v.ptpHear p m kind f = if ptpAccepted m kind = true then f d v else v.count (Reg.PTP_DOM_d_CNT_DROP d) := by
  have hcfg : v.fld (Reg.PTP_DOM_d_CFG d) 9 2 = s.fld (Reg.PTP_DOM_d_CFG d) 9 2 := by
    rw [State.fld_eq, h.reg (cfg_not_clock d).1 (cfg_not_clock d).2]
    rfl
  unfold State.ptpHear
  rw [h.domOf, hd]
  dsimp only
  rw [hcfg, hp]
  rfl

end

/-- What each of the four messages does at its domain. -/
def ptpActs (p : Nat) (m : List Byte) (within : Nat) : Nat → Nat → State → State
  | 11, d => State.announceHeard p m d
  | 0, d => fun u => u.ifMaster d p m (State.syncHeard p m within d)
  | 8, d => fun u => u.ifMaster d p m (State.followHeard m d)
  | _, d => fun u => u.ifMaster d p m (State.respHeard m d)

/-- The four messages by their kind. -/
def ptpInstrs (port : Fin 3) (m : List Byte) (within : BitVec 20) : List (Nat × Instr) :=
  [(11, .announce port m), (0, .sync port m within), (8, .followUp port m), (9, .delayResp port m)]

theorem exec_ptpInstr {s : State} (hs : s.supplied) {port : Fin 3} {m : List Byte} {within : BitVec 20} {c : Nat × Instr}
    (hc : c ∈ ptpInstrs port m within) :
    exec c.2 s = .next (s.clearSent.ptpMessage port.val m c.1 (ptpActs port.val m within.toNat c.1)) := by
  simp only [ptpInstrs, List.mem_cons, List.not_mem_nil, or_false] at hc
  rcases hc with rfl | rfl | rfl | rfl
  · exact (show exec (.announce port m) s = s.act (fun t => t.ptpAnnounce port.val m) from rfl).trans (State.act_supplied hs)
  · exact (show exec (.sync port m within) s = s.act (fun t => t.ptpSyncMsg port.val m within.toNat) from rfl).trans (State.act_supplied hs)
  · exact (show exec (.followUp port m) s = s.act (fun t => t.ptpFollowUp port.val m) from rfl).trans (State.act_supplied hs)
  · exact (show exec (.delayResp port m) s = s.act (fun t => t.ptpDelayResp port.val m) from rfl).trans (State.act_supplied hs)

/-- A message is heard at a port that carries PTP once the clock is at the tick. -/
theorem exec_ptpHeard {s : State} (hs : s.supplied) {port : Fin 3} (hp : port.val ≠ 2) (ha : (s.clearSent.ethAccept port.val).2 = true)
    (hb : s.bit (Reg.ETH_PORT_p_CFG port.val) 2 = true) (hctrl : s.bit Reg.PTP_CTRL 0 = true) {m : List Byte} {within : BitVec 20} {c : Nat × Instr}
    (hc : c ∈ ptpInstrs port m within) :
    ∃ v, State.Brought s.clearSent v ∧ exec c.2 s = .next (v.ptpHear port.val m c.1 (ptpActs port.val m within.toNat c.1)) := by
  obtain ⟨e, l, he⟩ := State.ptpMessage_heard ha hp hb hctrl m c.1 (ptpActs port.val m within.toNat c.1)
  exact ⟨_, State.Brought.onNet s.clearSent e l, (exec_ptpInstr hs hc).trans (congrArg Host.Outcome.next he)⟩

theorem ptp_noDomain (port : Fin 3) (m : List Byte) (within : BitVec 20) (s : State) (hs : s.supplied) (hp : port.val ≠ 2)
    (ha : (s.clearSent.ethAccept port.val).2 = true) (hb : s.bit (Reg.ETH_PORT_p_CFG port.val) 2 = true) (hctrl : s.bit Reg.PTP_CTRL 0 = true)
    (hd : s.ptpDomOf m = none) :
    ∀ c ∈ [(Instr.announce port m), .sync port m within, .followUp port m, .delayResp port m],
      ∃ t, exec c s = .next t ∧ (t.rd Reg.PTP_CNT_NODOM).toNat = min 0xFFFFFFFF ((s.clearSent.ptpSync.rd Reg.PTP_CNT_NODOM).toNat + 1)
        ∧ t.ptp = s.clearSent.ptpSync.ptp := by
  have key (c : Nat × Instr) (hc : c ∈ ptpInstrs port m within) : ∃ t, exec c.2 s = .next t
      ∧ (t.rd Reg.PTP_CNT_NODOM).toNat = min 0xFFFFFFFF ((s.clearSent.ptpSync.rd Reg.PTP_CNT_NODOM).toNat + 1)
      ∧ t.ptp = s.clearSent.ptpSync.ptp := by
    obtain ⟨v, hv, ht⟩ := exec_ptpHeard hs hp ha hb hctrl hc
    rw [hv.hear_none hd] at ht
    refine ⟨_, ht, ?_, hv.ptp⟩
    rw [State.rd_count, if_pos rfl, satWordN_toNat, hv.rd]
  intro c hc
  have hmem : c ∈ (ptpInstrs port m within).map Prod.snd := hc
  obtain ⟨k, hk, rfl⟩ := List.mem_map.mp hmem
  exact key k hk

theorem ptpActs_moved (p : Nat) (m : List Byte) (within d : Nat) (u : State) {c : Nat} (hc : c = 11 ∨ c = 0 ∨ c = 8 ∨ c = 9) :
    State.Moved d u (ptpActs p m within c d u) := by
  rcases hc with rfl | rfl | rfl | rfl
  · exact u.announceHeard_moved p m d
  · exact State.syncHeard_moved p m d u within
  · exact State.followHeard_moved p m d u
  · exact State.respHeard_moved p m d u

/-- One of a message that only the selected master may send, from another, is dropped. -/
theorem ptpActs_stranger {p : Nat} {m : List Byte} {within d : Nat} {u : State} {c : Nat} (hc : c = 0 ∨ c = 8 ∨ c = 9)
    (h : u.fromMaster d p m = false) : ptpActs p m within c d u = u.count (Reg.PTP_DOM_d_CNT_DROP d) := by
  rcases hc with rfl | rfl | rfl <;> exact if_neg (by rw [h]; decide)

theorem ptpActs_master {p : Nat} {m : List Byte} {within d : Nat} {u : State} (h : u.fromMaster d p m = true) :
    ptpActs p m within 0 d u = u.syncHeard p m within d ∧ ptpActs p m within 8 d u = u.followHeard m d
      ∧ ptpActs p m within 9 d u = u.respHeard m d := ⟨if_pos h, if_pos h, if_pos h⟩

theorem ptpInstrs_kind {port : Fin 3} {m : List Byte} {within : BitVec 20} {c : Nat × Instr} (hc : c ∈ ptpInstrs port m within) :
    c.1 = 11 ∨ c.1 = 0 ∨ c.1 = 8 ∨ c.1 = 9 := by
  simp only [ptpInstrs, List.mem_cons, List.not_mem_nil, or_false] at hc
  rcases hc with rfl | rfl | rfl | rfl
  · exact Or.inl rfl
  · exact Or.inr (Or.inl rfl)
  · exact Or.inr (Or.inr (Or.inl rfl))
  · exact Or.inr (Or.inr (Or.inr rfl))

theorem ptp_domain (port : Fin 3) (m : List Byte) (within : BitVec 20) (s : State) (hs : s.supplied) (hp : port.val ≠ 2)
    (ha : (s.clearSent.ethAccept port.val).2 = true) (hb : s.bit (Reg.ETH_PORT_p_CFG port.val) 2 = true) (hctrl : s.bit Reg.PTP_CTRL 0 = true)
    (d : Nat) (hd : s.ptpDomOf m = some d) (hport : (s.fld (Reg.PTP_DOM_d_CFG d) 9 2).testBit port.val = true) :
    ∀ c ∈ ptpInstrs port m within,
      ∃ t, exec c.2 s = .next t ∧ t.dom (otherDom d) = s.dom (otherDom d)
        ∧ ((ptpAccepted m c.1 = false ∨ (c.1 ≠ 11 ∧ s.fromMaster d port.val m = false)) →
            (t.rd (Reg.PTP_DOM_d_CNT_DROP d)).toNat = min 0xFFFFFFFF ((s.clearSent.ptpSync.rd (Reg.PTP_DOM_d_CNT_DROP d)).toNat + 1)
            ∧ t.ptp = s.clearSent.ptpSync.ptp)
        ∧ (ptpAccepted m c.1 = true → c.1 = 11 →
            (t.rd (Reg.PTP_DOM_d_CNT_ANN d)).toNat = min 0xFFFFFFFF ((s.clearSent.ptpSync.rd (Reg.PTP_DOM_d_CNT_ANN d)).toNat + 1)
            ∧ ((t.dom d).heard.head?).map (fun h => (h.ident, h.port, h.gm, h.heard.head?))
                = some (ptpIdent m, port.val, ptpNum m 53 8, some s.clearSent.ptpSync.ptp.at_))
        ∧ (ptpAccepted m c.1 = true → s.fromMaster d port.val m = true → c.1 = 0 → (ptpNum m 6 1).testBit 1 = true →
            (t.rd (Reg.PTP_DOM_d_CNT_SYNC d)).toNat = min 0xFFFFFFFF ((s.clearSent.ptpSync.rd (Reg.PTP_DOM_d_CNT_SYNC d)).toNat + 1)
            ∧ (t.dom d).twoStep = some (ptpNum m 30 2, s.clearSent.ptpSync.ptpStamp within.toNat - s.ingress port.val, ptpCorr m)
            ∧ (t.dom d).syncAt = s.clearSent.ptpSync.ptp.at_)
        ∧ (ptpAccepted m c.1 = true → c.1 = 8 → ((s.dom d).twoStep.map (·.1)) ≠ some (ptpNum m 30 2) → s.fromMaster d port.val m = true →
            t.ptp = s.clearSent.ptpSync.ptp)
        ∧ (ptpAccepted m c.1 = true → c.1 = 9 → (s.dom d).dreq = none → s.fromMaster d port.val m = true → t.ptp = s.clearSent.ptpSync.ptp) := by
  intro c hc
  obtain ⟨v, hv, ht⟩ := exec_ptpHeard hs hp ha hb hctrl hc
  have hkind := ptpInstrs_kind hc
  have hlt := State.ptpDomOf_lt hd
  have hmaster : v.fromMaster d port.val m = s.fromMaster d port.val m := hv.fromMaster d port.val m
  have hdrop : ((v.count (Reg.PTP_DOM_d_CNT_DROP d)).rd (Reg.PTP_DOM_d_CNT_DROP d)).toNat
      = min 0xFFFFFFFF ((s.clearSent.ptpSync.rd (Reg.PTP_DOM_d_CNT_DROP d)).toNat + 1) := by
    rw [State.rd_count, if_pos rfl, satWordN_toNat, hv.rd]
  rw [hv.hear_some hd hport] at ht
  refine ⟨_, ht, ?_, ?_, ?_, ?_, ?_, ?_⟩
  · split
    · exact (ptpActs_moved _ _ _ _ _ hkind).other.trans (hv.dom _)
    · exact hv.dom _
  · intro h
    by_cases hacc : ptpAccepted m c.1 = true
    · obtain ⟨hne, hfrom⟩ := h.resolve_left (by rw [hacc]; decide)
      rw [if_pos hacc, ptpActs_stranger (hkind.resolve_left hne) (hmaster.trans hfrom)]
      exact ⟨hdrop, hv.ptp⟩
    · rw [if_neg hacc]
      exact ⟨hdrop, hv.ptp⟩
  · intro hacc h11
    rw [if_pos hacc, h11, ← hv.rd, ← hv.ptp]
    exact v.announceHeard_shows hlt port.val m
  · intro hacc hfrom h0 h2
    rw [if_pos hacc, h0, (ptpActs_master (hmaster.trans hfrom)).1, ← hv.rd, ← hv.ptp, ← hv.stamp, ← show v.ingress port.val = s.ingress port.val
      from hv.ingress port]
    exact v.syncHeard_twoStep port.val m within.toNat h2
  · intro hacc h8 hseq hfrom
    rw [if_pos hacc, h8, (ptpActs_master (hmaster.trans hfrom)).2.1, State.followHeard_other (by rw [hv.dom]; exact hseq)]
    exact hv.ptp
  · intro hacc h9 hreq hfrom
    rw [if_pos hacc, h9, (ptpActs_master (hmaster.trans hfrom)).2.2, State.respHeard_none (by rw [hv.dom]; exact hreq)]
    exact hv.ptp

/-! ## DELAY_REQ -/

/-- The registers of a port are none that the running of the clock changes, whatever its number. -/
theorem port_not_clock (p : Nat) : ∀ b ∈ [Reg.ETH_PORT_p_CFG p, Reg.ETH_PORT_p_LINK p, Reg.PTP_PORT_p_EGR1G p, Reg.PTP_PORT_p_EGR100 p],
    b ≠ Reg.PTP_RATE ∧ b ≠ Reg.PTP_STATE := by
  simp only [List.mem_cons, List.not_mem_nil, or_false, forall_eq_or_imp, forall_eq]
  dsimp only [Reg.ETH_PORT_p_CFG, Reg.ETH_PORT_p_LINK, Reg.PTP_PORT_p_EGR1G, Reg.PTP_PORT_p_EGR100, Reg.PTP_RATE, Reg.PTP_STATE]
  omega

section
variable (s : State)

theorem State.ptpSync_port {p b : Nat} (hb : b ∈ [Reg.ETH_PORT_p_CFG p, Reg.ETH_PORT_p_LINK p, Reg.PTP_PORT_p_EGR1G p, Reg.PTP_PORT_p_EGR100 p]) :
    s.ptpSync.rd b = s.rd b := s.ptpSync_rd (port_not_clock p b hb).1 (port_not_clock p b hb).2

theorem State.ptpSync_egress (p : Nat) : s.ptpSync.egress p = s.egress p := by
  rw [State.egress, State.egress, State.fld_eq, State.fld_eq, State.fld_eq, State.fld_eq, State.fld_eq, State.fld_eq,
    s.ptpSync_port (p := p) (b := Reg.ETH_PORT_p_LINK p) (by simp), s.ptpSync_port (p := p) (b := Reg.PTP_PORT_p_EGR1G p) (by simp),
    s.ptpSync_port (p := p) (b := Reg.PTP_PORT_p_EGR100 p) (by simp)]

theorem State.ptpSync_portUp (p : Nat) : s.ptpSync.portUp p = s.portUp p := by
  have hboot : s.ptpSync.boot = s.boot := (State.ptpSync_keeps (k := 1048576) rfl (Keeps.refl s)).boot_same rfl
  unfold State.portUp State.netUp State.imgRuns
  rw [hboot, State.bit_eq, State.bit_eq, State.bit_eq, State.bit_eq, s.ptpSync_port (p := p) (b := Reg.ETH_PORT_p_CFG p) (by simp),
    s.ptpSync_rd (by decide) (by decide)]

theorem State.ptpSync_delayReqBytes (d seq t3 : Nat) : s.ptpSync.delayReqBytes d seq t3 = s.delayReqBytes d seq t3 := by
  unfold State.delayReqBytes State.ptpOwn State.nat
  rw [State.fld_eq, State.fld_eq, s.ptpSync_rd (cfg_not_clock d).1 (cfg_not_clock d).2, s.ptpSync_rd (b := Reg.PTP_CLKID_HI) (by decide) (by decide),
    s.ptpSync_rd (b := Reg.PTP_CLKID_LO) (by decide) (by decide)]

/-- The request of a domain, sent at stamp `t3`. -/
def State.delayAsked (d port : Nat) (t3 : Rat) : State :=
  ((s.send ⟨.delayReq, port, 0xE0000181, 319, s.delayReqBytes d (s.dom d).dseq t3.floor.toNat⟩).putDom d { s.dom d with
    dreq := some ⟨(s.dom d).dseq, t3, if (s.dom d).twoStep.isSome then none else (s.dom d).lastDiff, (s.dom d).twoStep.map (·.1), none⟩,
    dseq := ((s.dom d).dseq + 1) % 65536 }).count (Reg.PTP_DOM_d_CNT_DREQ d)

end

theorem State.ptpDelayReq_sends {s : State} {d : Nat} {x : PtpMaster} (hx : (s.dom d).master = some x) (hc : s.bit Reg.PTP_CTRL 0 = true)
    (he : s.bit (Reg.PTP_DOM_d_CFG d) 8 = true) (hup : s.portUp x.port = true) (hb : s.bit (Reg.ETH_PORT_p_CFG x.port) 2 = true) (within : Nat) :
    s.ptpDelayReq d within = s.ptpSync.delayAsked d x.port (s.ptpSync.ptpStamp within + s.egress x.port) := by
  have hcond : (!s.ptpSync.bit Reg.PTP_CTRL 0 || !s.ptpSync.bit (Reg.PTP_DOM_d_CFG d) 8 || !s.ptpSync.portUp x.port
      || !s.ptpSync.bit (Reg.ETH_PORT_p_CFG x.port) 2) = false := by
    rw [s.ptpSync_portUp, hup, State.bit_eq, State.bit_eq, State.bit_eq, s.ptpSync_rd (by decide) (by decide),
      s.ptpSync_rd (cfg_not_clock d).1 (cfg_not_clock d).2, s.ptpSync_port (p := x.port) (b := Reg.ETH_PORT_p_CFG x.port) (by simp), ← State.bit_eq,
      ← State.bit_eq, ← State.bit_eq, hc, he, hb]
    rfl
  have hmaster : (s.ptpSync.dom d).master = some x := by rw [s.ptpSync_dom, hx]
  unfold State.ptpDelayReq
  dsimp only
  split
  · next h => rw [hmaster] at h; contradiction
  · next y h =>
    obtain rfl : x = y := Option.some.inj (hmaster.symm.trans h)
    rw [hcond, if_neg Bool.false_ne_true, s.ptpSync_egress]
    rfl

theorem delayReq_sends (d : Fin 2) (within : BitVec 20) (s : State) (hs : s.supplied) (x : PtpMaster) (hx : (s.dom d.val).master = some x)
    (hc : s.bit Reg.PTP_CTRL 0 = true) (he : s.bit (Reg.PTP_DOM_d_CFG d.val) 8 = true) (hup : s.portUp x.port = true)
    (hb : s.bit (Reg.ETH_PORT_p_CFG x.port) 2 = true) :
    ∃ t, exec (.delayReq d within) s = .next t
      ∧ (let t3 := s.clearSent.ptpSync.ptpStamp within.toNat + s.egress x.port
         t.sent = [⟨.delayReq, x.port, 0xE0000181, 319, s.delayReqBytes d.val (s.dom d.val).dseq t3.floor.toNat⟩]
         ∧ (t.dom d.val).dreq = some ⟨(s.dom d.val).dseq, t3, (if (s.dom d.val).twoStep.isSome then none else (s.dom d.val).lastDiff),
             (s.dom d.val).twoStep.map (·.1), none⟩ ∧ (t.dom d.val).dseq = ((s.dom d.val).dseq + 1) % 65536)
      ∧ (t.rd (Reg.PTP_DOM_d_CNT_DREQ d.val)).toNat
          = min 0xFFFFFFFF ((s.clearSent.ptpSync.rd (Reg.PTP_DOM_d_CNT_DREQ d.val)).toNat + 1)
      ∧ t.dom (otherDom d.val) = s.dom (otherDom d.val) ∧ s.keepsParts t [.sent, .ptp, .used] := by
  have ht : exec (.delayReq d within) s = .next (s.clearSent.ptpDelayReq d.val within.toNat) := show execDelayReq d within s = _ from State.act_supplied hs
  have hk : Keeps 9437186 s (s.clearSent.ptpDelayReq d.val within.toNat) := State.ptpDelayReq_keeps rfl (State.clearSent_keeps rfl (Keeps.refl s))
  rw [State.ptpDelayReq_sends (s := s.clearSent) hx hc he hup hb] at ht hk
  have hdom (k : Nat) : s.clearSent.ptpSync.dom k = s.dom k := s.clearSent.ptpSync_dom k
  have hbytes (n : Nat) : s.clearSent.ptpSync.delayReqBytes d.val (s.dom d.val).dseq n = s.delayReqBytes d.val (s.dom d.val).dseq n :=
    s.clearSent.ptpSync_delayReqBytes d.val _ n
  have hsent : s.clearSent.ptpSync.sent = [] := (State.ptpSync_keeps (k := 1048576) rfl (Keeps.refl s.clearSent)).sent_same rfl
  have hcnt : Reg.PTP_DOM_d_CNT_DREQ d.val ≠ Reg.PTP_DOM_d_STATE d.val := by
    dsimp only [Reg.PTP_DOM_d_CNT_DREQ, Reg.PTP_DOM_d_STATE]
    omega
  refine ⟨_, ht, ⟨?_, ?_, ?_⟩, ?_, ?_, hk.parts _ (fun p => by cases p <;> decide)⟩
  · refine (Keeps.sent_same (State.count_keeps (k := 1048576) rfl (State.putDom_keeps rfl (Keeps.refl _))) rfl).trans ?_
    rw [State.send_sent, hsent, hdom, hbytes]
    rfl
  · rw [State.delayAsked, State.dom_congr (State.count_ptp _ _), State.dom_putDom, hdom]
    rfl
  · rw [State.delayAsked, State.dom_congr (State.count_ptp _ _), State.dom_putDom, hdom]
  · rw [State.delayAsked, State.rd_count, if_pos rfl, satWordN_toNat, State.putDom_rd _ _ _ hcnt, State.rd_send]
  · rw [State.delayAsked, State.dom_congr (State.count_ptp _ _), State.dom_putDom_other, State.dom_congr (State.send_ptp _ _), hdom]

/-- Settles O24, from what a heard message does at its domain. -/
theorem ptpMessages : Obligations.PtpMessages := by
  unfold Obligations.PtpMessages
  exact ⟨ptp_noDomain, ptp_domain, delayReq_sends⟩

end Sys2Proof.Machine
